-- ==== Sys2Proof/Word.lean ====
section
/-! DEFINITION. The words of the device and their plainest arithmetic: bytes, 32-bit registers (R9, R16), the
fixed-point and wrapping conventions of the scope chapter (R3), and helpers that saturate, clamp and count. -/

namespace Sys2Proof

abbrev Byte := BitVec 8
abbrev Word := BitVec 32

/-- `n` counted up by `k`, staying at `max` when full (the saturating counters of the register tables). -/
def satAdd (max n k : Nat) : Nat := min max (n + k)

/-- A value outside `lo` to `hi` acts as the nearer end. -/
def clamp (lo hi n : Nat) : Nat := max lo (min hi n)

/-- The two's complement value of the low `w` bits of `n` (the Sm.n formats of R3 before scaling). -/
def toSigned (w n : Nat) : Int :=
  let m := n % 2 ^ w
  if m < 2 ^ (w - 1) then (m : Int) else (m : Int) - (2 ^ w : Nat)

/-- The low `w` bits of an integer, as an unsigned number. -/
def ofSigned (w : Nat) (i : Int) : Nat := (i % (2 ^ w : Nat)).toNat

/-- Bit `k` of `n`. -/
def bit (n k : Nat) : Bool := n.testBit k

/-- Bits `hi` to `lo` of `n`. -/
def bits (n hi lo : Nat) : Nat := n / 2 ^ lo % 2 ^ (hi + 1 - lo)

def boolNat (b : Bool) : Nat := if b then 1 else 0

/-- `n` rounded up to a multiple of `k`. -/
def roundUp (n k : Nat) : Nat := (n + k - 1) / k * k

def ceilDiv (n k : Nat) : Nat := (n + k - 1) / k

end Sys2Proof
end

