-- ==== Sys2Proof/Syntax.lean ====
section
/-! DEFINITION. The commands of the device: who may send them, the operands they carry, and one constructor of `Instr`
for each row of the table of operations and events. -/

namespace Sys2Proof

/-- Who makes a bus access: a Company core or the Stage Manager (R32, R34, R552). -/
inductive Side where
  | company (core : Fin 4)
  | stageManager
  deriving DecidableEq, Repr

/-- The width of a bus access (R16). -/
inductive AccessSize where
  | byte | half | word
  deriving DecidableEq, Repr

/-- The width of a bus read (R16, R185). -/
inductive ReadSize where
  | byte | half | word | double
  deriving DecidableEq, Repr

/-- A bus read: where, and how wide. -/
structure ReadAccess where
  addr : BitVec 40
  size : ReadSize
  deriving DecidableEq, Repr

/-- The eight operating modes (02_modes_and_cues.md). -/
inductive Mode where
  | dark | dawn | rehearsal | performance | wings | encore | intermission | midnight
  deriving DecidableEq, Repr

/-- The main supplies that the on-die monitors watch (R578). -/
inductive Supply where
  | core | sram | ser
  deriving DecidableEq, Repr

/-- One thermal site at a sample: the S12.4 temperature of rings A and B, none for a broken ring (R545). -/
structure SiteSample where
  a : Option (BitVec 16)
  b : Option (BitVec 16)
  deriving DecidableEq, Repr


/-- What a receiver notes of a packet that it discards: its header was corrected, its payload failed the CRC (R109). -/
structure PacketMarks where
  corrected : Bool
  crcBad : Bool
  deriving DecidableEq, Repr

/-- A packet cut short: the bytes that came, whether its header was corrected (R109), and whether the ingest buffer had room (R121,
R126). -/
structure CutPayload where
  bytes : List Byte
  corrected : Bool
  room : Bool
  deriving DecidableEq, Repr

/-- Where a hash engine finds an error in its computation (R295, R296): a stripe of a frame, the coded digest of a frame,
the firmware job. -/
inductive HashTarget where
  | stripe (frame : Nat) (k : Fin 64)
  | coded (frame : Nat)
  | job
  deriving DecidableEq, Repr

/-- An NVMe controller of a magazine as the engine identifies it (R305, R307): serial number, model, NGUID, namespace 1
blocks, whether its format keeps R305, transfer size, write cache, whether an Endurance Group log exists, whether its link advertises
L0s (R406), and the last values of the logs: Percentage Used, Data Units Written, Endurance Estimate, Critical Warning. -/
structure NvmeController where
  sn : List Byte
  mn : List Byte
  nguid : List Byte
  blocks : Nat
  formatOk : Bool
  mdts : Nat
  vwc : Bool
  eg : Bool
  l0s : Bool
  pu : Nat
  duw : Nat
  ee : Nat
  crit : BitVec 8
  deriving DecidableEq, Repr

/-- A magazine: its controllers, and the bytes its volume holds beside zeros, by volume byte address (R305, R306). -/
structure Magazine where
  ctrls : List NvmeController
  media : List (Nat × Byte)
  deriving DecidableEq, Repr

/-- How an NVMe command ends (R309, R327). -/
inductive NvmeStatus where
  | success | mediaError | error
  deriving DecidableEq, Repr

/-- A SMART reading of one controller (R314). -/
structure SmartData where
  pu : Nat
  duw : Nat
  ee : Nat
  crit : BitVec 8
  deriving DecidableEq, Repr

/-- Where the Ranorid coder finds an error in its computation (R272, R274). -/
inductive CoderTarget where
  | cell (id : Nat)
  | index
  deriving DecidableEq, Repr

/-- What the normal coding of a CTU is (R348, R352, R356): its context-coded and its bypass bins, its actual bits, how many CTUs
before it still stand at their bounds when it is decided, its rate-control QP, and the bytes of its syntax elements. -/
structure CtuCost where
  ctx : Nat
  bypass : Nat
  actual : Nat
  pending : Nat
  rc : Int
  elements : Nat
  deriving DecidableEq, Repr

/-- What an encoder chooses in the header of a slice (R340, R341): SAO of luma and chroma, its merge candidates less than five, its QP
against the picture's, and with WPP the sizes of its CTU rows but the last. -/
structure SliceOpen where
  saoLuma : Bool
  saoChroma : Bool
  merge : Nat
  qpDelta : Int
  entry : List Nat
  deriving DecidableEq, Repr

/-- What the decoder reads from a sequence parameter set beside the picture format (R361, R365): general_profile_idc, level_idc, luma
samples per second, the CTB size in luma samples, and the nine general constraint flags from max_12bit to lower_bit_rate of a range
extensions profile. -/
structure SpsInfo where
  profile : Nat
  level : Nat
  rate : Nat
  ctb : Nat
  rext : List Bool
  deriving DecidableEq, Repr

/-- What the decoder finds in an access unit (R361 to R366): one that refers to a missing or ignored parameter set; one without a
picture; a picture, with the values of its sequence that steer the bumping process, and the buffers its reference picture set keeps.
`concealed` are the CTUs in raster order that a bad slice or the budget left undecoded, `generated` the POCs that the reference picture
set names and the buffer lacks; `samples` are the bytes of both planes; `identity` is the payload of an identity SEI of VERSION 1. -/
inductive AccessUnit where
  | unsupported
  | empty
  | picture (sps : SpsInfo) (chroma depth width height : Nat) (window : List Nat) (poc : Int) (concealed : List Nat)
      (generated : List Int) (identity : Option (List Byte)) (samples : List Byte)
      (newSeq dropPrior output : Bool) (reorder latency dpb : Nat)
      (refs : List (Fin 32))
  deriving DecidableEq, Repr

/-- What a training helper measures on one channel (R390, R391): the failing bit comparisons of each value that it tests, in the
order of the sweep, on lanes 0 and 1 (VERIFY tests one value); which of several equally long passing runs it reports, which the
spec leaves open; and the mode register value that the device gives. -/
structure TrnRecord where
  fails0 : List Nat
  fails1 : List Nat
  tie : Nat
  mr : Byte
  deriving DecidableEq, Repr

/-- The 44 bytes of a heartbeat (R468), without its MAGIC; `role` is 0 Principal, 1 Understudy. -/
structure Heartbeat where
  pairId : Nat
  role : Nat
  armed : Bool
  leaving : Bool
  formed : Bool
  term : Nat
  seq : Nat
  id : List Byte
  sec : Nat
  ns : Nat
  mode : Nat
  deriving DecidableEq, Repr

/-- The header of a received flit (R468) and whether its CRC is good. -/
structure FlitHeader where
  crcOk : Bool
  rxmask : BitVec 4
  nak : Bool
  credit : BitVec 16
  seq : BitVec 32
  ack : BitVec 32
  deriving DecidableEq, Repr

/-- A duplicated chain head whose copy takes an upset (R290). -/
inductive ChainUpset where
  | none | link | fin
  deriving DecidableEq, Repr

/-- An active run of a trigger pin: the pin, and the device time of its first active sample (R208). -/
structure PinRun where
  pin : Fin 8
  edge : Nat
  deriving DecidableEq, Repr


/-- A run of a motion input: its channel, and the device time of its first sample (R475). -/
structure MotionRun where
  channel : Fin 4
  edge : Nat
  deriving DecidableEq, Repr

/-- A byte on the wires of the management port, and for each of its bits that the device drove or released, how long the wire had
carried the intended level at the rising edge of MGMT_SCL, in ns (R531). -/
structure HeldByte where
  byte : Byte
  held : List Nat
  deriving DecidableEq, Repr

/-- The bytes of a transaction that was cut off, with the same for each bit that the device drove or released (R531). -/
structure HeldBytes where
  bytes : List Byte
  held : List Nat
  deriving DecidableEq, Repr

/-- The commands the device takes: one constructor for each row of the table of operations and events. -/
inductive Instr where
  /-- REGISTER_WRITE (R12): A write to a register that has no row of its own acts as the field's access code states. -/
  | registerWrite (side : Side) (addr : BitVec 40) (size : AccessSize) (value : Word)
  /-- UNMAPPED_ACCESS (R32): An access outside the mapped regions is refused with a bus error and a recoverable event. -/
  | unmappedAccess (side : Side) (addr : BitVec 40) (write : Bool)
  /-- DOORBELL_RING (R35): The sender sets a doorbell bit, which raises the receiver's interrupt. -/
  | doorbellRing (side : Side) (bells : Word)
  /-- DOORBELL_CLEAR (R36): The receiver clears a doorbell bit; a set in the same cycle wins. -/
  | doorbellClear (side : Side) (bells rung : Word)
  /-- MAILBOX_WRITE (R38): A mailbox word write is stored, refused if from the wrong side, or flagged as an overwrite while MSG
  is set. -/
  | mailboxWrite (side : Side) (toSm : Bool) (index : Fin 64) (value : Word)
  /-- MODE_REQUEST (R44): The Stage Manager accepts or refuses a mode transition requested by mailbox message. -/
  | modeRequest (mode : Mode)
  /-- DRAIN_END (R47): When the last disposition of the take is final after leaving Performance or Wings, the new mode is entered. -/
  | drainEnd
  /-- TRANSITION_COMPLETE (R532): The power controller finishes switching domains and rails and arms the commit of the new mode. -/
  | transitionComplete
  /-- CUE_LOAD (R58): A GO of CUE_LOAD_CTRL starts copying a cue from scratch SRAM into slot 48 to 63, or is refused. -/
  | cueLoad (value : Word)
  /-- CUE_LOAD_COMPLETE (R58): The cue copy ends; the cue is validated and BUSY clears. -/
  | cueLoadComplete
  /-- PUSH (R60): Places a cue on the lowest empty user level of the pending stack. -/
  | push (slot : Fin 64)
  /-- POP (R60): Empties the highest filled user level of the pending stack. -/
  | pop
  /-- REPLACE (R60): Puts a cue at a given user level of the pending stack. -/
  | replace (level : Fin 4) (slot : Fin 64)
  /-- CLEAR (R60): Empties all user levels of the pending stack. -/
  | clear
  /-- CLEAR_FW (R60): Empties the firmware overlay. -/
  | clearFw
  /-- SHADOW_WRITE (R61): A Company write to a shadowed field is stored in the firmware overlay. -/
  | shadowWrite (addr : BitVec 40) (value : Word)
  /-- CUE_COMMIT (R68): GO commits the pending stack; preparation of the register image starts. -/
  | cueCommit
  /-- COMMIT_ARMED (R68): Preparation ends, the admission check runs, and shadow stages are filled. -/
  | commitArmed
  /-- CUE_REF_TIMEOUT (R70): No reference for the timeout after arming makes a synthetic cue point. -/
  | cueRefTimeout
  /-- DAWN (R78): After reset release the Prompter reads the journal, verifies slots, loads and starts the cores. -/
  | dawn
  /-- CONFIRM (R79): Firmware confirms the running image and a CONFIRM record is programmed. -/
  | confirm
  /-- ADVANCE (R88): Raises the OTP rollback floor to the running slot's ROLLBACK. -/
  | advance
  /-- PROVISION (R89): ACTION 1 provisions a Blank device or enrols a replacement maker key. -/
  | provision (healthy : Bool)
  /-- TO_FIELD (R93): ACTION 2 moves the lifecycle from Provisioned to Field. -/
  | toField
  /-- ENTER_SERVICE (R93): ACTION 3 enters Service by privileged request. -/
  | enterService
  /-- LEAVE_SERVICE (R93): ACTION 4 returns from Service to the OTP state. -/
  | leaveService
  /-- RETIRE (R93): ACTION 5 retires the device and destroys the identity seed. -/
  | retire
  /-- ATTEST (R92): DOMAIN 0 starts building and signing an attestation report. -/
  | attest
  /-- CHECKPOINT (R298): DOMAIN 1 starts signing a manifest checkpoint over the newest latch. -/
  | checkpoint
  /-- FINAL_MANIFEST (R298): DOMAIN 2 latches and starts signing the final manifest of a take. -/
  | finalManifest
  /-- SIGN_DONE (R300): The security engine finishes a signature and sets DONE. -/
  | signDone
  /-- PRESENCE_PRESS (R96): PRESENCE_N low for 50 ms is accepted as a press and opens the privilege window. -/
  | presencePress
  /-- PRESENCE_WINDOW_EXPIRE (R99): 30 s after the last press the privilege window closes. -/
  | presenceWindowExpire
  /-- SVC_JMP_FITTED (R96): SVC_JMP held low for 50 ms counts as fitted. -/
  | svcJmpFitted
  /-- SVC_JMP_REMOVED (R96): SVC_JMP high for 50 ms counts as removed. -/
  | svcJmpRemoved
  /-- SEAL_SAMPLE (R97): Every 1 ms the monitor drives SEAL_A with the next LFSR bit and samples SEAL_B. -/
  | sealSample (sealB : Bool)
  /-- JOURNAL_APPEND (R103): NVMC_OP 1 programs the buffer as a journal record into both copies. -/
  | journalAppend
  /-- SLOT_PROGRAM (R102): NVMC_OP 2 programs a page of the slot-rewrite session. -/
  | slotProgram
  /-- SECTOR_ERASE (R105): NVMC_OP 3 erases one 4 KiB sector. -/
  | sectorErase
  /-- NVM_READ (R101): NVMC_OP 4 reads 256 bytes into the page buffer. -/
  | nvmRead
  /-- NVM_OP_COMPLETE (R101): An NVM program, erase or read ends and BUSY clears. -/
  | nvmOpComplete
  /-- NVM_PROGRAM_TIMEOUT (R101): A program not finished after 5 ms is abandoned and counted as failed. -/
  | nvmProgramTimeout (copy1 : Bool)
  /-- SLOT_REWRITE_START (R102): A privileged slot-rewrite session opens in Intermission for the non-running slot. -/
  | slotRewriteStart (slot : Fin 2)
  /-- FRAME_START (R116): A Frame Start on an enabled stream opens a frame, time-stamps it and opens its ledger record. -/
  | frameStart (port : Fin 4) (vc : Fin 16) (number : BitVec 16) (corrected : Bool)
  /-- FRAME_END (R116): Frame End closes the frame normally or SHORT and fills missing lines. -/
  | frameEnd (port : Fin 4) (vc : Fin 16) (corrected : Bool) (parity : List Nat)
  /-- PIXEL_LINE (R120): A long packet of the stream's data type fills the next line, with word-count and CRC checks. -/
  | pixelLine (port : Fin 4) (vc : Fin 16) (dt : BitVec 6) (bytes : List Byte) (crc : BitVec 16) (corrected room : Bool) (parity : List Nat)
  /-- EMBEDDED_DATA (R125): An embedded data packet is kept up to EMB_MAX or counted as excess. -/
  | embeddedData (port : Fin 4) (vc : Fin 16) (bytes : List Byte) (crc : BitVec 16) (corrected : Bool)
  /-- LINE_START_END (R108): Line Start and Line End packets are accepted and ignored. -/
  | lineStartEnd (port : Fin 4) (vc : Fin 16) (corrected : Bool)
  /-- NULL_BLANKING (R108): Null and Blanking packets are discarded without count. -/
  | nullBlanking (port : Fin 4) (vc : Fin 16) (corrected : Bool)
  /-- DT_UNSEL (R124): A packet of an unused VC or data type is discarded and counted. -/
  | dtUnsel (port : Fin 4) (vc : Fin 16) (dt : BitVec 6) (marks : PacketMarks)
  /-- ORPHAN (R123): A frame packet arriving while no frame is open is discarded and counted as ORPHAN. -/
  | orphan (port : Fin 4) (vc : Fin 16) (marks : PacketMarks)
  /-- ECC_UNCORR (R109): An uncorrectable header or SoT sync error discards the whole HS burst. -/
  | eccUncorr (port : Fin 4) (vc : Fin 16)
  /-- PACKET_CUT_EOT (R121): An HS burst ending before the declared word count cuts the packet. -/
  | packetCutEot (port : Fin 4) (vc : Fin 16) (dt : BitVec 6) (wc : BitVec 16) (payload : CutPayload)
  /-- LINE_IDLE_TIMEOUT (R121): Data lanes idle for LINE_US cut the packet in progress. -/
  | lineIdleTimeout (port : Fin 4) (vc : Fin 16) (dt : BitVec 6) (wc : BitVec 16) (payload : CutPayload)
  /-- FRAME_TIMEOUT (R122): No Frame End FRAME_MS after Frame Start closes the frame TRUNCATED. -/
  | frameTimeout (port : Fin 4) (desc : Fin 4)
  /-- GANG_SKEW_TIMEOUT (R115): A member missing its Frame Start within the skew window is counted GANG_LATE and its share filled. -/
  | gangSkewTimeout (port : Fin 4) (desc : Fin 4)
  /-- LANE_ULPS (R106): Sensor lanes enter or leave ULPS. -/
  | laneUlps (port : Fin 4) (enter : Bool)
  /-- INGEST_COUNTER_CLEAR (R128): CLEAR zeroes the port's error counters. -/
  | ingestCounterClear (port : Fin 4)
  /-- MCLK_CONFIG_WRITE (R134): A change of DIV or EN takes effect at the end of the current clock period. -/
  | mclkConfigWrite (port : Fin 4) (value : Word)
  /-- SENSOR_RESET_RELEASE (R135): A write of INGEST_SRST.RELEASE sets the level of SNSn_RST_N. -/
  | sensorResetRelease (port : Fin 4) (release : Bool)
  /-- XTRIG_SCHEDULED (R136): SNSn_XTRIG asserts NS before a frame-schedule time, or the pulse is dropped as missed. -/
  | xtrigScheduled (port : Fin 4) (grid : Nat)
  /-- XPULSE (R136): A GO issues one XTRIG pulse within 20 ns when SRC is 1. -/
  | xpulse (port : Fin 4)
  /-- XTRIG_PULSE_END (R136): The XTRIG pulse deasserts after WIDTH. -/
  | xtrigPulseEnd (port : Fin 4)
  /-- SPI_TRANSFER (R137): GO starts a firmware SPI transfer, waiting for a running script. -/
  | spiTransfer (ctl : Fin 2) (value : Word)
  /-- SPI_TRANSFER_DONE (R137): The firmware transfer ends with received bytes in the buffer and DONE set. -/
  | spiTransferDone (ctl : Fin 2) (rx : List Byte)
  /-- SPI_SCRIPT_ENTRY (R138): After its delay a script entry is sent, or the script ends or fails. -/
  | spiScriptEntry (ctl : Fin 2)
  /-- PIPE_FRAME_BEGIN (R142): The next selected frame begins development, latching settings and taking head buffers. -/
  | pipeFrameBegin
  /-- SLICE_GRANT (R144): An eligible slice is granted by weighted round robin. -/
  | sliceGrant
  /-- SLICE_COMPLETE (R168): A slice completes without detection and its lines are released. -/
  | sliceComplete
  /-- PIPE_DETECTION (R169): A parity or residue detection discards the slice and replays it or marks it DAMAGED. -/
  | pipeDetection (table : Option (Fin 8))
  /-- TABLE_REFRESH_DONE (R172): The CUE block finishes rewriting an active table bank after a parity error. -/
  | tableRefreshDone
  /-- PIPE_BUFFER_RELEASE (R165): A consumer returns a head 0 buffer to its head. -/
  | pipeBufferRelease (port : Fin 4) (buf : Fin 16)
  /-- PIPE_COUNTER_CLEAR (R175): CLEAR zeroes the five PIPE counters. -/
  | pipeCounterClear
  /-- CELL_REARM (R203): GO re-arms every cell and group at the next Frame Start. -/
  | cellRearm
  /-- CELL_WINDOW_WRITE (R185): A write into the cell context window is refused with a bus error. -/
  | cellWindowWrite (side : Side) (addr : BitVec 40)
  /-- CELL_COUNTER_CLEAR (R206): CLEAR zeroes both CELL counters. -/
  | cellCounterClear
  /-- TRIG_ACCEPT (R208): A pin active for FILTER samples is accepted as an activation, or discarded by REARM. -/
  | trigAccept (pin : Fin 8) (edge : Nat)
  /-- TRIG_SHORT_RUN (R208): An active run shorter than FILTER is ignored and counted FILTERED. -/
  | trigShortRun (run : PinRun)
  /-- TRIG_RELEASE (R209): An inactive run of FILTER samples releases the activation. -/
  | trigRelease (pin : Fin 8)
  /-- TRIG_STUCK (R211): An activation active for STUCK marks the pin stuck and drops its level. -/
  | trigStuck (pin : Fin 8)
  /-- TRIG_OUTPUT_PULSE_END (R213): An output pin's pulse ends after OUT_WIDTH. -/
  | trigOutputPulseEnd (pin : Fin 8)
  /-- SOFTWARE_TRIGGER (R219): A write of LEDGER_SWTRIG raises or schedules an event on a software input. -/
  | softwareTrigger (value : Word)
  /-- SWTRIG_DUE (R219): Device time reaches a pending timed software trigger. -/
  | swtrigDue (input : Fin 4)
  /-- RANGE_PLACE (R229): At the end of the settle window the trigger frame is found and pre frames committed. -/
  | rangePlace
  /-- LEDGER_AUDIT (R245): Each whole second the ledger samples and checks conservation and credit counters. -/
  | ledgerAudit
  /-- PARTNER_DISP_TIMEOUT (R239): No partner disposition after 50 ms writes PARTNER 0xF and spills the record. -/
  | partnerDispTimeout (frame : Nat)
  /-- CODER_FRAME_BEGIN (R249): The coder begins the lowest-numbered committed closed frame and latches its entry. -/
  | coderFrameBegin
  /-- CODER_MAP_TIMEOUT (R260): No usable map 100 us after frame close codes every cell in class 0 with MAP_MISSING. -/
  | coderMapTimeout
  /-- CODER_DETECTION (R272): A detection in a cell discards it and recodes, stores verbatim, or marks DAMAGED. -/
  | coderDetection (num : Nat) (target : CoderTarget)
  /-- CODER_FRAME_COMPLETE (R250): A coded frame is handed whole to the magazine engine through path 6. -/
  | coderFrameComplete
  /-- RAWC_DECODE (R277): GO starts decoding a coded frame into DRAM, or is refused. -/
  | rawcDecode (play : Bool) (fill : BitVec 20)
  /-- DECODE_COMPLETE (R280): A decode ends with DONE or BAD_FRAME and may present a playback frame. -/
  | decodeComplete
  /-- RAWC_COUNTER_CLEAR (R281): CLEAR zeroes the three RAWC counters. -/
  | rawcCounterClear
  /-- FRAME_LINK (R288): A closed frame is linked into the chain once its predecessor is linked. -/
  | frameLink (upset : ChainUpset)
  /-- HASH_DETECTION (R295): A detection in a stripe starts one rehash from the ring slot. -/
  | hashDetection (target : HashTarget)
  /-- HASH_REHASH_COMPLETE (R296): A rehash ends, standing with REHASHED or failing the stripe. -/
  | hashRehashComplete (num : Nat) (stripe : Fin 64)
  /-- CODED_DIGEST_COMPLETE (R293): The coded digest of a frame is finished and written to its entry. -/
  | codedDigestComplete (num : Nat)
  /-- HASH_JOB (R302): GO starts a firmware SHA3-512 job over DRAM, or is refused. -/
  | hashJob
  /-- HASH_JOB_COMPLETE (R302): A hash job ends with the result and DONE, or FAIL. -/
  | hashJobComplete
  /-- HASH_COUNTER_CLEAR (R302): CLEAR zeroes both HASH counters. -/
  | hashCounterClear
  /-- MAG_PRESENT (R304): PRSNT_N low for 100 ms with the domain on releases PERST_N. -/
  | magPresent (port : Fin 2) (inserted : Option Magazine)
  /-- MAG_TRAINING_START (R304): 20 ms after PERST_N release link training starts. -/
  | magTrainingStart (port : Fin 2)
  /-- MAG_TRAIN_TIMEOUT (R304): No L0 within 100 ms repeats training, and the third failure fails the port. -/
  | magTrainTimeout (port : Fin 2)
  /-- MAG_LINK_UP (R310): The links reach L0 and mounting proceeds. -/
  | magLinkUp (port : Fin 2) (gen : Fin 4) (width : Fin 9) (both : Bool)
  /-- MAG_MOUNT_COMPLETE (R310): Mounting ends in READY or FAILED. -/
  | magMountComplete (port : Fin 2) (failed : Option (Fin 7))
  /-- MAG_REMOVAL (R311): PRSNT_N high for 1 ms is a removal; the port fails and becomes ABSENT. -/
  | magRemoval (port : Fin 2)
  /-- NVME_COMPLETION (R309): An NVMe command completes; a non-zero status is retried once. -/
  | nvmeCompletion (port : Fin 2) (cmd : Nat) (status : NvmeStatus) (smart : SmartData)
  /-- NVME_COMMAND_TIMEOUT (R309): A command not completed within CMD_MS is retried once or fails the port. -/
  | nvmeCommandTimeout (port : Fin 2) (cmd : Nat)
  /-- MAG_SMART_POLL (R314): Every 60 s while recording the SMART log is read and endurance recomputed. -/
  | magSmartPoll (port : Fin 2)
  /-- MAG_FRAME_WRITE_COMPLETE (R319): Every Write of a frame to a magazine has completed. -/
  | magFrameWriteComplete (port : Fin 2)
  /-- MAG_TAKE_CLOSE (R324): CLOSE writes the last index, flushes and closes the take on each magazine. -/
  | magTakeClose
  /-- MAG_TAKE_CLOSE_TIMEOUT (R324): No CLOSE 250 ms after the last disposition closes the take with NO_FINAL. -/
  | magTakeCloseTimeout
  /-- READ (R330): MAG_OP READ copies volume blocks into DRAM. -/
  | read (port : Fin 2) (type : Fin 16)
  /-- APPEND (R330): MAG_OP APPEND writes a firmware record into the open take. -/
  | append (port : Fin 2) (type : Fin 16)
  /-- ERASE (R329): MAG_OP ERASE deallocates the volume and writes a new empty one under privilege. -/
  | erase (port : Fin 2) (type : Fin 16)
  /-- MOUNT (R330): MAG_OP MOUNT starts mounting the port. -/
  | mount (port : Fin 2) (type : Fin 16)
  /-- EJECT (R330): MAG_OP EJECT shuts the controllers down normally and turns the port OFF. -/
  | eject (port : Fin 2) (type : Fin 16)
  /-- MAG_OP_COMPLETE (R330): A magazine operation ends with DONE or FAIL. -/
  | magOpComplete (port : Fin 2)
  /-- HEVE_PICTURE_BEGIN (R335): An engine begins a picture once its source and map conditions hold. -/
  | hevePictureBegin (engine : Fin 2) (ctus0 ctus1 : List CtuCost)
  /-- HEVE_SLICE_EMIT (R358): A slice's chunk is written to the output ring and WR advances. -/
  | heveSliceEmit (engine : Fin 2) (lead : SliceOpen) (bytes : List Byte)
  /-- HEVE_MOSAIC_TIMEOUT (R347): A mosaic picture with no partner by WIN_US is coded alone. -/
  | heveMosaicTimeout (ctus0 ctus1 : List CtuCost)
  /-- HEVE_MAP_TIMEOUT (R349): No map 100 us after the source is DONE begins the picture with qp 0. -/
  | heveMapTimeout (engine : Fin 2) (ctus0 ctus1 : List CtuCost)
  /-- HEVE_DETECTION (R360): A detection in a slice discards and recodes it, or codes it in intra floor mode. -/
  | heveDetection (engine : Fin 2)
  /-- HEVE_OUT_RD_WRITE (R358): A consumer advances the output ring read pointer, freeing space. -/
  | heveOutRdWrite (engine : Fin 2) (value : Word)
  /-- HEVE_COUNTER_CLEAR (R339): CLEAR zeroes the three HEVE counters. -/
  | heveCounterClear (engine : Fin 2)
  /-- HEVD_IN_WR_WRITE (R362): Firmware advances the decoder input write pointer. -/
  | hevdInWrWrite (value : Word)
  /-- HEVD_AU_COMPLETE (R362): An access unit's decode ends and its RESULT is written. -/
  | hevdAuComplete (au : AccessUnit)
  /-- HEVD_BUDGET_EXPIRE (R367): A picture's budget runs out; decoding is abandoned and the rest concealed. -/
  | hevdBudgetExpire (au : AccessUnit)
  /-- HEVD_OUT_POP (R364): A read of HEVD_OUT_POP removes the next output buffer index. -/
  | hevdOutPop
  /-- HEVD_OUT_REL (R364): A write returns an output buffer to the decoder. -/
  | hevdOutRel (buf : Fin 32)
  /-- HEVD_DISABLE (R368): Clearing EN abandons the access unit and empties the output FIFO. -/
  | hevdDisable
  /-- HEVD_COUNTER_CLEAR (R368): CLEAR zeroes the three HEVD counters. -/
  | hevdCounterClear
  /-- DRAM_REREAD (R375): A block failing its code is re-read, delivered good or with poison. -/
  | dramReread (block : Nat) (good : Bool)
  /-- DRAM_CODE_WRITEBACK (R374): Gathered codes are written back, checked against the duplicate copy. -/
  | dramCodeWriteback (mismatch : List Nat)
  /-- DRAM_REFRESH (R382): A per-bank refresh is issued or postponed. -/
  | dramRefresh (bank : Fin 512) (postpone : Bool)
  /-- DRAM_MR4_POLL (R382): Every 4 ms MR4 is read on every rank. -/
  | dramMr4Poll (rates : List Nat)
  /-- DRAM_OSC_TRACK (R383): Every 32 ms the WCK oscillators run and delays are adjusted. -/
  | dramOscTrack (drift : List Int)
  /-- DRAM_WCK_STOP (R383): WCK stops after 512 ns without a CAS. -/
  | dramWckStop (channel : Fin 16)
  /-- DRAM_COMMIT (R389): COMMIT fixes retired groups, builds the map and starts initialisation. -/
  | dramCommit (retire : BitVec 4)
  /-- DRAM_INIT_DONE (R389): Initialisation of the data region ends and INIT_DONE is set. -/
  | dramInitDone
  /-- DRAM_FENCE (R395): A RETIRE write after COMMIT fences a channel group. -/
  | dramFence (retire : BitVec 4)
  /-- INIT (R390): Training op 1: reset, power-up and ZQ calibration. -/
  | init (rank : Fin 2) (ch : BitVec 16)
  /-- MRW (R390): Training op 2 writes a mode register. -/
  | mrw (rank : Fin 2) (ch : BitVec 16)
  /-- MRR (R390): Training op 3 reads a mode register into the result record. -/
  | mrr (rank : Fin 2) (ch : BitVec 16)
  /-- CA (R390): Training op 4 sweeps a CA or CS delay. -/
  | ca (rank : Fin 2) (ch : BitVec 16)
  /-- WCK2CK (R390): Training op 5 sweeps duty and WCK2CK phase. -/
  | wck2ck (rank : Fin 2) (ch : BitVec 16)
  /-- WLEV (R390): Training op 6 performs write levelling. -/
  | wlev (rank : Fin 2) (ch : BitVec 16)
  /-- RDQ (R390): Training op 7 sweeps read delay or receiver Vref. -/
  | rdq (rank : Fin 2) (ch : BitVec 16)
  /-- WDQ (R390): Training op 8 sweeps write delay or device Vref. -/
  | wdq (rank : Fin 2) (ch : BitVec 16)
  /-- VERIFY (R390): Training op 9 writes and reads back 1 MiB per channel. -/
  | verify (rank : Fin 2) (ch : BitVec 16)
  /-- DRAM_TRN_DONE (R391): A training helper ends and its result records are written. -/
  | dramTrnDone (records : List TrnRecord)
  /-- DRAM_COUNTER_CLEAR (R392): CLEAR zeroes the DRAM error counts. -/
  | dramCounterClear
  /-- LANE_LOCK (R398): The 64th consecutive valid header gains block lock. -/
  | laneLock (lane : Fin 26)
  /-- LANE_LOCK_LOST (R399): 16 invalid headers in a window lose lock; a Kurnarik lane may be retired. -/
  | laneLockLost (lane : Fin 26) (relocked : BitVec 8)
  /-- LANE_NO_LOCK_TIMEOUT (R401): No lock within the lock timeout after signal posts NO_LOCK. -/
  | laneNoLockTimeout (lane : Fin 26)
  /-- LANE_SLEEP_ENTRY (R402): Idle for SLEEP_US sends SLEEP blocks and enters electrical idle. -/
  | laneSleepEntry (lane : Fin 26)
  /-- LANE_RX_SLEEP (R403): A SLEEP block then loss of signal enters receive sleep. -/
  | laneRxSleep (lane : Fin 26)
  /-- LANE_WAKE (R404): Data to send wakes a sleeping transmitter with a wake burst, or is held. -/
  | laneWake (lane : Fin 26)
  /-- LANE_WAKE_HOLD_END (R405): 100 ns of idle pass and a held wake burst starts. -/
  | laneWakeHoldEnd (lane : Fin 26)
  /-- LANE_WAKE_FAIL (R404): No lock 1 us after signal detect fails the wake. -/
  | laneWakeFail (lane : Fin 26)
  /-- LANE_LOOP_WRITE (R409): A loopback, generator or checker setting is accepted or ignored. -/
  | laneLoopWrite (lane : Fin 26) (value : Word)
  /-- LANE_PRBS_CLEAR (R410): CLEAR clears the PRBS error count and restarts sync. -/
  | lanePrbsClear (lane : Fin 26)
  /-- LANE_FOM_INTERVAL (R413): Each 1 ms the FOM is measured and adaptation, freezing or revert acts. -/
  | laneFomInterval (lane : Fin 26) (fom : Fin 256) (sufficient lastOk synced : Bool) (errors : Nat)
  /-- PCIE_EQ_PRESET_TRIAL (R417): A requested preset is measured and kept or the next alternate requested. -/
  | pcieEqPresetTrial (lane : Fin 26) (rate : Fin 3) (fom : Fin 256)
  /-- LANE_COUNTER_CLEAR (R421): CLEAR zeroes LANE_CNT of every lane. -/
  | laneCounterClear
  /-- NET_RX_FRAME (R423): A received frame is filtered, time-stamped and written to a receive entry. -/
  | netRxFrame (port : Fin 2) (bytes : List Byte) (fcsOk : Bool)
  /-- NET_TX_WR_WRITE (R425): Firmware gives transmit or receive entries by advancing WR. -/
  | netTxWrWrite (port : Fin 2) (rx : Bool) (value : Word)
  /-- NET_TX_FRAME (R426): A transmit entry is sent, with one-step insertion, and written back. -/
  | netTxFrame (port : Fin 2)
  /-- NET_LINK_UP (R424): The Ethernet link comes up. -/
  | netLinkUp (port : Fin 2)
  /-- NET_LINK_DOWN (R424): The Ethernet link goes down. -/
  | netLinkDown (port : Fin 2)
  /-- STREAM_DATAGRAM (R444): A stream sends the next datagram of an object under its token bucket. -/
  | streamDatagram (stream : Fin 4)
  /-- STEP (R434): TIME_CMD STEP adds TIME_ADJ at the next tick, refused while recording. -/
  | step
  /-- SET (R434): TIME_CMD SET loads the time at the next tick, or is refused. -/
  | set
  /-- HOLD (R435): TIME_CMD HOLD begins holdover. -/
  | hold
  /-- RELEASE (R435): TIME_CMD RELEASE ends holdover when the servo link is up and REFCLK present. -/
  | release
  /-- TIME_INCR_WRITE (R433): A write of TIME_INCR_HI applies the increment at the next tick. -/
  | timeIncrWrite (value : Word)
  /-- TIME_NOW_READ (R430): A read of TIME_NOW_NS latches the seconds. -/
  | timeNowRead
  /-- TIME_WATCH_EXPIRE (R435): WATCH_MS passes without a servo update and holdover begins. -/
  | timeWatchExpire
  /-- KEEPALIVE_LINK_TIMEOUT (R447): Port 0's link not up 1 s after entering Midnight begins holdover. -/
  | keepaliveLinkTimeout
  /-- ALARM_FIRE (R437): An enabled alarm fires at its time and interrupts or wakes. -/
  | alarmFire
  /-- PPS_OUT_ASSERT (R438): PPS_OUT asserts at the tick on which the seconds advance. -/
  | ppsOutAssert
  /-- PPS_OUT_END (R438): PPS_OUT deasserts after WIDTH_MS. -/
  | ppsOutEnd
  /-- PPS_IN_EDGE (R438): A filtered PPS_IN rising edge captures device time. -/
  | ppsInEdge (time : Nat)
  /-- LTC_IN_WORD (R439): A decoded LTC sync word captures the word and its time. -/
  | ltcInWord (word : BitVec 64) (valid : Bool)
  /-- LTC_OUT_WORD (R440): An LTC output word begins on the tick at its start. -/
  | ltcOutWord
  /-- SCHEDULE_TICK (R441): Device time reaches a frame-schedule grid point and the schedule ticks. -/
  | scheduleTick
  /-- KEEPALIVE_RX (R447): In Midnight a PTP, ARP or ND frame is placed in a keep-alive receive slot. -/
  | keepaliveRx (bytes : List Byte) (fcsOk : Bool)
  /-- KEEPALIVE_TX (R447): A Stage Manager GO sends a keep-alive transmit slot. -/
  | keepaliveTx (slot : Fin 4)
  /-- WAKE_FRAME (R448): A wake frame wakes the device at once or arms the alarm. -/
  | wakeFrame (payload : List Byte)
  /-- HEARTBEAT_SEND (R452): Every 100 us a heartbeat goes on each UP port and on Ethernet. -/
  | heartbeatSend
  /-- HEARTBEAT_RECEIVE (R453): A valid heartbeat resets the missed-period count. -/
  | heartbeatReceive (port : Option (Fin 2)) (hdr : FlitHeader) (hb : Heartbeat)
  /-- HEARTBEAT_MISSED_PERIOD (R453): 100 us pass without a valid heartbeat on either path. -/
  | heartbeatMissedPeriod
  /-- HELLO_FLIT (R451): A HELLO flit resolves the pair roles and forms the pair. -/
  | helloFlit (port : Fin 2) (hdr : FlitHeader) (hb : Heartbeat) (topology : Fin 4) (pref : Bool)
  /-- YIELD (R457): KLINK_CMD YIELD sends LEAVING heartbeats and gives up the Principal role. -/
  | yield
  /-- RETRAIN (R472): KLINK_CMD RETRAIN takes the UP ports DOWN to retrain. -/
  | retrain
  /-- KLINK_TIME_SEND (R458): Every 1 ms each UP port sends a TIME flit. -/
  | klinkTimeSend (port : Fin 2)
  /-- KLINK_TIME_RECEIVE (R458): A TIME flit updates the partner offset. -/
  | klinkTimeReceive (port : Fin 2) (hdr : FlitHeader) (own lastDep lastArr : Nat)
  /-- TRIG_FLIT (R460): A received TRIG flit raises a partner combiner input event. -/
  | trigFlit (port : Fin 2) (hdr : FlitHeader) (output : Fin 4) (time : Nat) (streams : List (Fin 16 × Nat))
  /-- CUESEL_FLIT (R75): A received CUESEL flit fires the matching partner selection entry. -/
  | cueselFlit (port : Fin 2) (hdr : FlitHeader) (entry : Fin 16)
  /-- DISP_FLIT (R463): A DISP flit writes the partner disposition into matching local records. -/
  | dispFlit (port : Fin 2) (hdr : FlitHeader) (entries : List (Nat × Nat × BitVec 8 × Fin 16))
  /-- KLINK_MIRROR_START (R464): The Principal starts sending a committed frame as FRAME_HDR and RAW flits. -/
  | klinkMirrorStart (num : Nat)
  /-- FRAME_HDR (R465): The Understudy opens a mirror frame at the split of its port. -/
  | frameHdr (port : Fin 2) (hdr : FlitHeader) (num fs : Nat) (src : BitVec 8) (dt : BitVec 6) (width height : Nat) (cfa : Fin 8) (emb : Nat)
  /-- RAW (R465): A RAW flit delivers mirror frame bytes to the split. -/
  | raw (port : Fin 2) (hdr : FlitHeader) (bytes : List Byte)
  /-- FRAME_END_FLIT (R465): FRAME_END closes the mirror frame, with POISON when set. -/
  | frameEndFlit (port : Fin 2) (hdr : FlitHeader) (num : Nat) (poison : Bool)
  /-- MIRROR_ACK (R466): A MIRROR_ACK flit gives the Principal the Understudy's disposition. -/
  | mirrorAck (port : Fin 2) (hdr : FlitHeader) (entries : List (Nat × Fin 16))
  /-- MIRROR_ACK_TIMEOUT (R466): No acknowledgement within the mirror timeout abandons the mirror. -/
  | mirrorAckTimeout (num : Nat)
  /-- KLINK_FLIT_RECEIVE (R469): A flit is checked for CRC and sequence, accepted or discarded with NAK. -/
  | klinkFlitReceive (port : Fin 2) (hdr : FlitHeader) (known : Bool)
  /-- KLINK_NAK (R469): A received NAK resends from ACK + 1 and counts a replay. -/
  | klinkNak (port : Fin 2) (hdr : FlitHeader)
  /-- KLINK_ACK_TIMEOUT (R469): ACK not advancing for 2 us replays, and 16 replays take the port DOWN. -/
  | klinkAckTimeout (port : Fin 2)
  /-- KLINK_ALIGN_SEND (R467): After 4,096 blocks per lane an ALIGN is sent on all active lanes. -/
  | klinkAlignSend (port : Fin 2)
  /-- KLINK_TRAIN_START (R472): A DOWN port starts training at once or 10 ms after a failure. -/
  | klinkTrainStart (port : Fin 2)
  /-- KLINK_TRAIN_TIMEOUT (R472): Training not done in 10 ms returns the port to DOWN. -/
  | klinkTrainTimeout (port : Fin 2)
  /-- KLINK_COUNTER_CLEAR (R472): CLEAR zeroes every KLINK count. -/
  | klinkCounterClear
  /-- MOTION_EDGE (R475): An input level held FILTER samples is accepted and steps the position. -/
  | motionEdge (channel : Fin 4) (levels : BitVec 3) (sample edge : Nat)
  /-- MOTION_GLITCH (R475): An input run shorter than FILTER is ignored and counted. -/
  | motionGlitch (run : MotionRun)
  /-- SSI_FRAME_START (R482): Every SSI_PERIOD_US an SSI frame is clocked out. -/
  | ssiFrameStart (channel : Fin 4) (sample : Nat) (idleHigh : Bool)
  /-- SSI_FRAME_COMPLETE (R482): An SSI frame ends and sets the position or FRAME_ERR. -/
  | ssiFrameComplete (channel : Fin 4) (value : Word) (endLow : Bool)
  /-- MOTION_PRESET (R483): A preset write sets the position at the next sample and sets VALID. -/
  | motionPreset (channel : Fin 4) (value : Word)
  /-- MOTION_STALL (R484): A channel meeting its stall condition for STALL_MS is stalled. -/
  | motionStall (channel : Fin 4)
  /-- MOTION_STANDSTILL (R488): No step for STOP_MS sets standstill and speed 0. -/
  | motionStandstill (channel : Fin 4)
  /-- MOTION_GATE_END (R486): A count-mode gate ends and the speed is reported. -/
  | motionGateEnd (channel : Fin 4)
  /-- ARM (R490): ARM latches a compare's settings, arming, refusing or firing at once. -/
  | arm (cmp : Fin 8) (value : Word)
  /-- DISARM (R490): DISARM clears ARMED. -/
  | disarm (cmp : Fin 8) (value : Word)
  /-- VIEW_START_STEP (R499): A panel start wait ends and the next start action runs. -/
  | viewStartStep
  /-- VIEW_SCRIPT_ENTRY (R500): After its delay a start-script entry is sent or the script ends. -/
  | viewScriptEntry
  /-- VIEW_TE_EDGE (R504): An accepted TE edge starts a push when a region is dirty. -/
  | viewTeEdge
  /-- VIEW_PUSH_COMPLETE (R506): A push ends and any queued VIEW_CMD is sent. -/
  | viewPushComplete
  /-- VIEW_TE_TIMEOUT (R506): No TE for TE_TO_MS sets TE_LOST and pushes on a timer. -/
  | viewTeTimeout
  /-- VIEW_APPLY (R508): The line count reaches APPLY.LINE and changed line-timed shadows become active. -/
  | viewApply
  /-- VIEW_LINE_TIMED_WRITE (R508): A Company write of a line-timed register goes to its shadow. -/
  | viewLineTimedWrite (addr : BitVec 40) (value : Word)
  /-- VIEW_DIRTY_WH_WRITE (R504): A write marks a panel rectangle dirty. -/
  | viewDirtyWhWrite (value : Word)
  /-- VIEW_CMD (R505): GO queues a DCS command for after the current push. -/
  | viewCmd (value : Word)
  /-- VIEW_POOL_ALLOC (R510): A read takes the lowest free handle. -/
  | viewPoolAlloc
  /-- VIEW_POOL_FREE (R511): A write drops the owner reference, deferred or refused as a double free. -/
  | viewPoolFree (value : Word)
  /-- MGMT_WRITE_TRANSACTION (R519): At STOP or repeated START the staged bytes of a write commit in one step. -/
  | mgmtWriteTransaction (bytes : List Byte) (held : List Nat)
  /-- MGMT_READ_TRANSACTION (R520): A read transaction returns snapshot bytes from the pointer on. -/
  | mgmtReadTransaction (count : Nat) (held : List Nat)
  /-- MGMT_TIMEOUT (R517): SCL low for 35 ms aborts the transaction. -/
  | mgmtTimeout (bytes : HeldBytes) (count : Nat)
  /-- WAKE (R523): A WAKE control write wakes the device from Midnight or is refused. -/
  | wake (value : Byte)
  /-- CUESEL (R523): A CUESEL control write issues a stack operation with AUTO commit. -/
  | cuesel (value : BitVec 16)
  /-- TRIG (R525): A TRIG control write raises an event on combiner input 84. -/
  | trig (value : Byte)
  /-- MSG (R526): An MSG control write rings the Stage Manager or clears the reply flag. -/
  | msg (value : Byte)
  /-- CALL_ACK (R527): A CALL_ACK control write advances the management Call board cursor. -/
  | callAck (count : BitVec 16)
  /-- ALERT_RESPONSE (R529): A read of 0x0C while alerting sends the address with arbitration. -/
  | alertResponse (wire : HeldByte) (aborted : Bool)
  /-- AON_SUPPLY_VALID (R576): The always-on supply becomes valid; cold reset and MADDR sampled. -/
  | aonSupplyValid (maddr : BitVec 3)
  /-- AON_SUPPLY_LOST (R576): VDD_AON falling below 0.68 V holds cold reset. -/
  | aonSupplyLost
  /-- RESET_RELEASE (R577): With PWR_PG0 and REFCLK good, reset releases and Dawn starts. -/
  | resetRelease
  /-- WARM_RST_ASSERT (R570): WARM_RST_N low for 1 us holds the device in Dark, held. -/
  | warmRstAssert
  /-- WARM_RST_RELEASE (R570): WARM_RST_N release starts Dawn by warm reset. -/
  | warmRstRelease
  /-- RAIL_PG_TIMEOUT (R537): A rail's PG not rising in time reverts the transition with a fatal event. -/
  | railPgTimeout (rail : Fin 8)
  /-- RAIL_LOST (R538): PG of an on rail low for 10 us switches its domains off. -/
  | railLost (rail : Fin 8)
  /-- SUPPLY_LOSS (R578): A main supply below range for 1 us posts fatal and shuts down as on REFCLK loss. -/
  | supplyLoss (supply : Supply)
  /-- SUPPLY_RESTORED (R578): A main supply in range for 10 ms restarts through Dawn. -/
  | supplyRestored
  /-- REFCLK_WINDOW (R540): Each 1.28 us window counts REFCLK cycles and judges it good or bad. -/
  | refclkWindow (cycles : Nat)
  /-- PLL_UNLOCK (R543): A PLL losing lock gates its clocks and tries to relock. -/
  | pllUnlock (pll : Fin 7)
  /-- PLL_RELOCK_TIMEOUT (R543): No relock in 50 us is treated as REFCLK loss. -/
  | pllRelockTimeout (pll : Fin 7)
  /-- THERMAL_SAMPLE (R546): All sites are sampled and the sampling rate and flags updated. -/
  | thermalSample (sites : Vector SiteSample 12)
  /-- CURTAIN_NVM_CUTOFF (R548): An NVM program in progress is ended 5 ms after its start by flash reset. -/
  | curtainNvmCutoff (copy1 : Bool)
  /-- CURTAIN_COOL_COMPLETE (R549): 10 s at 95 °C or less releases THERMTRIP_N and restarts through Dawn. -/
  | curtainCoolComplete
  /-- CALL_POST_WRITE (R552): A write of CALL_POST posts a firmware event. -/
  | callPostWrite (side : Side) (value : Word)
  /-- CALL_LOG_WRITE (R555): The log writer moves the oldest queue entry into the log. -/
  | callLogWrite
  /-- CALL_LOG_ENTRY_READ (R555): A read of CALL_LOG_ENTRY0 latches the rest of the entry. -/
  | callLogEntryRead (side : Side)
  /-- CALL_DONE_WRITE (R558): The Stage Manager ends handling of the current entry and the next becomes current. -/
  | callDoneWrite (side : Side) (seq : Word)
  /-- SM_PARITY (R558): A parity detection in the Stage Manager SRAM posts fatal and warm resets. -/
  | smParity
  /-- FATAL_HANDLING_TIMEOUT (R559): Fatal handling reaching FATAL_TO_MS begins the safe state. -/
  | fatalHandlingTimeout
  /-- SAFE_STATE_PORTS_CLOSED (R560): After the ports close Intermission is entered and a Company restart starts. -/
  | safeStatePortsClosed
  /-- CALL_RESTART (R561): GO starts a Company restart with image check. -/
  | callRestart (side : Side)
  /-- COMPANY_RESTART_RELEASE (R561): After the image check core 0 is released at CO_ENTRY. -/
  | companyRestartRelease
  /-- CO_KICK (R562): A Company kick restarts the watchdog and completes a restart. -/
  | coKick
  /-- COMPANY_RESTART_TIMEOUT (R562): No kick 400 ms after the decision restarts again or warm resets. -/
  | companyRestartTimeout
  /-- COMPANY_WATCHDOG_EXPIRE (R562): The Company watchdog expires and starts a restart. -/
  | companyWatchdogExpire
  /-- SM_KICK (R563): A Stage Manager kick restarts its watchdog period. -/
  | smKick (side : Side)
  /-- SM_WATCHDOG_EXPIRE (R563): The Stage Manager watchdog expires and resets the core, or warm resets. -/
  | smWatchdogExpire
  /-- TRIG_WAKE_EDGE (R213): In Midnight an edge on a TRIG pin with WAKE set, passing the always-on 1 us filter, wakes the device. -/
  | trigWakeEdge (pin : Fin 8)
  /-- PRESENCE_RELEASE (R96): PRESENCE_N returns high, ending the press so that a later low can be accepted as a new press. -/
  | presenceRelease
  /-- SIGNAL_DETECT (R404): A receiver detects signal on a lane again, leaving receive sleep and starting its lock hunt and the
  no-lock and wake-fail timers. -/
  | signalDetect (lane : Fin 26)
  /-- PLL_RELOCK (R543): A PLL that lost lock relocks within 50 us, restarts its clocks and posts a recoverable event. -/
  | pllRelock (pll : Fin 7)
  /-- PLL_FAILURE_RESTART (R543): 1 ms after a failed relock with REFCLK good, the device restarts through Dawn by warm reset,
  or holds if it failed again within 60 s. -/
  | pllFailureRestart
  /-- KLINK_DESKEW_LOST (R472): A Kurnarik port in UP loses its lane deskew and goes DOWN, discarding its replay buffer. -/
  | klinkDeskewLost (port : Fin 2)
  /-- CONTROLLER_FATAL_STATUS (R322): An NVMe controller reports CSTS.CFS or a shutdown status, failing the magazine port. -/
  | controllerFatalStatus (port : Fin 2)
  /-- WARM_RESET_COMMAND (R14): The Stage Manager commands a warm reset, recorded as WARM_CMD, and the device restarts through Dawn. -/
  | warmResetCommand
  /-- RAIL0_PG_RESTORED (R538): PWR_PG0 has been high for 10 ms again after a loss of rail 0, lifting the NVM controller's
  refusal of every operation. -/
  | rail0PgRestored
  /-- LOW_WORD_READ (R18): A read of the low word of a 64-bit register pair latches the high word for the next high-word read. -/
  | lowWordRead (side : Side) (addr : ReadAccess)
  deriving DecidableEq, Repr

end Sys2Proof
end

