-- ==== Sys2Proof/Machine/Crypto.lean ====
section
/-! DEFINITION. The checks and digests the device computes: CRC-32 of IEEE 802.3 (R54, R103), CRC-32C, CRC-16 of CSI-2,
SHA3-512 of FIPS 202, and little-endian packing of integers (R9). -/

namespace Sys2Proof.Machine

/-- One bit step of a reflected 32-bit CRC with polynomial `p`. -/
def crcBit (p : BitVec 32) (c : BitVec 32) : BitVec 32 :=
  if c.getLsbD 0 then (c >>> 1) ^^^ p else c >>> 1

/-- One byte of a reflected 32-bit CRC. -/
def crcByte (p : BitVec 32) (c : BitVec 32) (b : Byte) : BitVec 32 :=
  (List.range 8).foldl (fun c _ => crcBit p c) (c ^^^ b.setWidth 32)

/-- A reflected 32-bit CRC, initial value and final XOR all ones. -/
def crcReflected (p : BitVec 32) (bs : List Byte) : Word := ~~~ (bs.foldl (crcByte p) (BitVec.allOnes 32))

/-- CRC-32 with the IEEE 802.3 polynomial. -/
def crc32 (bs : List Byte) : Word := crcReflected 0xEDB88320 bs

/-- CRC-32C (Castagnoli). -/
def crc32c (bs : List Byte) : Word := crcReflected 0x82F63B78 bs

/-- The `n` bytes of `v`, least significant first. -/
def leBytes (n v : Nat) : List Byte := (List.range n).map (fun i => BitVec.ofNat 8 (v / 256 ^ i))

/-- The integer whose little-endian bytes are `bs`. -/
def leNat : List Byte → Nat
  | [] => 0
  | b :: bs => b.toNat + 256 * leNat bs

/-- The little-endian integer of `n` bytes at offset `off` of `bs` (bytes past the end count as 0). -/
def leAt (bs : List Byte) (off n : Nat) : Nat := leNat ((bs.drop off).take n)

/-- `bs` cut or padded with 0x00 to `n` bytes. -/
def padTo (n : Nat) (bs : List Byte) : List Byte := bs.take n ++ List.replicate (n - bs.length) 0

/-- Replace the bytes of `bs` from offset `off` on by `new`. -/
def spliceAt (bs : List Byte) (off : Nat) (new : List Byte) : List Byte :=
  bs.take off ++ new ++ bs.drop (off + new.length)

/-- The bytes of an ASCII string. -/
def ascii (s : String) : List Byte := s.toList.map (fun c => BitVec.ofNat 8 c.toNat)

/-- Rotation offsets of the rho step of Keccak, lane x + 5 y. -/
def keccakRot : List Nat :=
  [0, 1, 62, 28, 27, 36, 44, 6, 55, 20, 3, 10, 43, 25, 39, 41, 45, 15, 21, 8, 18, 2, 61, 56, 14]

/-- Round constants of the iota step of Keccak-f[1600]. -/
def keccakRc : List (BitVec 64) :=
  [0x0000000000000001, 0x0000000000008082, 0x800000000000808A, 0x8000000080008000, 0x000000000000808B,
   0x0000000080000001, 0x8000000080008081, 0x8000000000008009, 0x000000000000008A, 0x0000000000000088,
   0x0000000080008009, 0x000000008000000A] ++
  [0x000000008000808B, 0x800000000000008B, 0x8000000000008089, 0x8000000000008003, 0x8000000000008002,
   0x8000000000000080, 0x000000000000800A, 0x800000008000000A, 0x8000000080008081, 0x8000000000008080,
   0x0000000080000001, 0x8000000080008008]

def keccakLane (a : List (BitVec 64)) (x y : Nat) : BitVec 64 := a.getD (x % 5 + 5 * (y % 5)) 0

/-- One round of Keccak-f[1600] over 25 lanes, lane x + 5 y. -/
def keccakRound (a : List (BitVec 64)) (rc : BitVec 64) : List (BitVec 64) :=
  let c := (List.range 5).map (fun x =>
    keccakLane a x 0 ^^^ keccakLane a x 1 ^^^ keccakLane a x 2 ^^^ keccakLane a x 3 ^^^ keccakLane a x 4)
  let d := (List.range 5).map (fun x => c.getD ((x + 4) % 5) 0 ^^^ (c.getD ((x + 1) % 5) 0).rotateLeft 1)
  let t := (List.range 25).map (fun i => a.getD i 0 ^^^ d.getD (i % 5) 0)
  -- rho and pi: lane (x, y) of the result comes from lane (x + 3 y, x) of the argument
  let b := (List.range 25).map (fun i =>
    let x := i % 5; let y := i / 5
    let j := (x + 3 * y) % 5 + 5 * x
    (t.getD j 0).rotateLeft (keccakRot.getD j 0))
  let e := (List.range 25).map (fun i =>
    let x := i % 5; let y := i / 5
    keccakLane b x y ^^^ ((~~~ keccakLane b (x + 1) y) &&& keccakLane b (x + 2) y))
  match e with
  | [] => []
  | h :: r => (h ^^^ rc) :: r

def keccakF (a : List (BitVec 64)) : List (BitVec 64) := keccakRc.foldl keccakRound a

/-- XOR a block of 72 bytes into the first nine lanes. -/
def keccakAbsorb (a : List (BitVec 64)) (blk : List Byte) : List (BitVec 64) :=
  (List.range 25).map (fun i =>
    if i < 9 then a.getD i 0 ^^^ BitVec.ofNat 64 (leAt blk (8 * i) 8) else a.getD i 0)

/-- Absorb `n` blocks of 72 bytes. -/
def sha3Blocks : Nat → List (BitVec 64) → List Byte → List (BitVec 64)
  | 0, a, _ => a
  | n + 1, a, bs => sha3Blocks n (keccakF (keccakAbsorb a (bs.take 72))) (bs.drop 72)

/-- SHA3-512 (FIPS 202): rate 72 bytes, domain bits 01, 64 bytes of output. -/
@[irreducible] def sha3_512 (m : List Byte) : List Byte :=
  let n := m.length / 72 + 1
  let pad := n * 72 - m.length
  let tail : List Byte := if pad = 1 then [0x86] else [0x06] ++ List.replicate (pad - 2) 0 ++ [0x80]
  let a := sha3Blocks n (List.replicate 25 0) (m ++ tail)
  ((List.range 8).map (fun i => leBytes 8 (a.getD i 0).toNat)).flatten

end Sys2Proof.Machine
end

