-- ==== Sys2Proof/Config.lean ====
section
/-! DEFINITION. What an implementation fixes and what the spec leaves open: free values, constants without a body, so that no
proof can see them. -/

namespace Sys2Proof.Config

/-- A value the spec leaves open, by the number of the request (the counter `State.free`); see assumption 1. -/
opaque freeValue : Nat → BitVec 64

/-- A byte the spec calls unknown: contents after power was off, a spoiled page, by request number and address. -/
opaque freeByte : Nat → Nat → BitVec 8

/-- A byte read at an address that the spec leaves without contents (fenced or absent memory, the ROM), by device tick and
address; see assumption 1. -/
opaque openByte : Nat → Nat → BitVec 8

/-- A register field whose value the spec leaves open at the moment, by device tick and register; see assumption 1. -/
opaque openRead : Nat → Nat → BitVec 64

/-- The random bytes of a signing (R92), by request number: FIPS 204 lets them be zeros or drawn anew. -/
opaque signRandom : Nat → List (BitVec 8)

/-- A 256-bit output of the CTR_DRBG that fills ID_SEED (R90), by request number. -/
opaque drbgSeed : Nat → List (BitVec 8)

/-- The code read for a block that fails its check, by device tick and block (R375). -/
opaque badCode : Nat → Nat → BitVec 32

/-- A byte of a training pattern, by PATTERN and place (R390); see assumption 67. -/
opaque trnPattern : Nat → Nat → BitVec 8

/-- How full the FIFO of a DRAM port is, in 64-byte units, by device tick and port (R380). -/
opaque fifoUnits : Nat → Nat → Nat

/-- Elements of the H.265 parameter sets that the standard and the spec leave to the encoder, by number; see assumption 129. -/
opaque heveElement : Nat → Nat

/-- Luma samples of the reconstruction of the coded picture made from a source frame, by frame number, x and y (R342). -/
opaque recon : Nat → Nat → Nat → Nat

/-- How an encoder rates a motion candidate: the samples to code and the predicted ones; the lowest rating is best (R342). -/
opaque motionRating : List Nat → List Nat → Nat

/-- Where the motion search of a CTU is centred, in whole samples, by reference frame and CTU (R342). -/
opaque motionCentre : Nat → Nat → Int × Int

end Sys2Proof.Config
end

