-- ==== Sys2Proof/Machine/RegDef.lean ====
section
/-! DEFINITION. The shape of a register description: access codes (R12), the kinds of register (R64, R66, R67), and the
named field a meaning reads or writes. -/

namespace Sys2Proof.Machine

/-- What a direct write does to a field (R12). `shadow` and `line` are RW fields of a shadowed and of a line-timed
register (R61, R66); `w1cAll` is the counter that one written bit clears whole; `doorbell` is set by the sender and
cleared by the receiver; `mailbox` is written by one side only (R37). -/
inductive Access where
  | rw | ro | w1c | w1cAll | w1s | wo | rwc | shadow | line | doorbell | mailbox
  deriving DecidableEq, Repr

/-- A field of a register: bits `hi` to `lo`, its access, whether it survives warm reset (RS), its Reset value. -/
structure FieldDef where
  hi : Nat
  lo : Nat
  acc : Access
  rs : Bool
  rst : Nat
  deriving DecidableEq, Repr

/-- A register, or `count` registers `stride` bytes apart, at offset `off` of its block or instance. -/
structure RegDef where
  off : Nat
  count : Nat
  stride : Nat
  fields : List FieldDef
  deriving DecidableEq, Repr

/-- A field of one register: the register's offset from 0x1000_0000, the field's low bit and its width. -/
structure Fld where
  addr : Nat
  lo : Nat
  width : Nat
  deriving DecidableEq, Repr

/-- The mask of a field within its register. -/
def FieldDef.mask (f : FieldDef) : Word := BitVec.ofNat 32 ((2 ^ (f.hi + 1 - f.lo) - 1) * 2 ^ f.lo)

/-- The Reset value of a field, in place. -/
def FieldDef.resetBits (f : FieldDef) : Word := BitVec.ofNat 32 (f.rst * 2 ^ f.lo)

/-- The Reset value of a register. -/
def RegDef.reset (r : RegDef) : Word := r.fields.foldl (fun w f => w ||| f.resetBits) 0

/-- The bits of a register whose fields satisfy `p`. -/
def RegDef.maskOf (r : RegDef) (p : FieldDef → Bool) : Word :=
  r.fields.foldl (fun w f => if p f then w ||| f.mask else w) 0

/-- Fields that only a cue point changes (shadowed, line-timed or RWC): the targets a cue entry may name (R57). -/
def FieldDef.isConfig (f : FieldDef) : Bool := f.acc == .shadow || f.acc == .line || f.acc == .rwc

/-- Fields whose active value a power domain does not lose (R532): shadowed fields and RWC fields. -/
def FieldDef.isKept (f : FieldDef) : Bool := f.acc == .shadow || f.acc == .rwc

end Sys2Proof.Machine
end

