-- ==== Sys2Proof/Machine/RegMap.lean ====
section
/-! DEFINITION. The register map of the device: every register of the chapters' register tables with the access
code, the Reset value and the bit range of each of its fields (R12, R20), one list per block, and the named fields the
meanings read and write. Offsets are from 0x1000_0000. -/

namespace Sys2Proof.Machine

/-- Registers of SYS (01_device_overview.md). -/
def regsSys : List RegDef := [
  ⟨0x0, 1, 4, [⟨31, 16, .ro, false, 38400⟩, ⟨15, 8, .ro, false, 1⟩]⟩,
  ⟨0x4, 1, 4, [⟨5, 5, .w1c, true, 0⟩, ⟨4, 4, .w1c, true, 0⟩, ⟨3, 3, .w1c, true, 0⟩, ⟨2, 2, .w1c, true, 0⟩, ⟨1, 1, .w1c, true, 0⟩, ⟨0, 0, .w1c, true, 1⟩]⟩,
  ⟨0x8, 1, 4, [⟨31, 1, .doorbell, false, 0⟩, ⟨0, 0, .doorbell, false, 0⟩]⟩,
  ⟨0xc, 1, 4, [⟨31, 1, .doorbell, false, 0⟩, ⟨0, 0, .doorbell, false, 0⟩]⟩,
  ⟨0x10, 1, 4, [⟨3, 3, .w1c, false, 0⟩, ⟨2, 2, .w1c, false, 0⟩, ⟨1, 0, .rw, false, 0⟩]⟩,
  ⟨0x100, 64, 4, [⟨31, 0, .mailbox, true, 0⟩]⟩,
  ⟨0x200, 64, 4, [⟨31, 0, .mailbox, true, 0⟩]⟩]

/-- Registers of CUE (02_modes_and_cues.md). -/
def regsCue : List RegDef := [
  ⟨0x0, 1, 4, [⟨2, 0, .rwc, false, 0⟩]⟩,
  ⟨0x4, 1, 4, [⟨11, 11, .w1c, false, 0⟩, ⟨10, 10, .w1c, false, 0⟩, ⟨9, 7, .ro, false, 0⟩, ⟨6, 5, .ro, false, 0⟩, ⟨4, 4, .ro, false, 0⟩, ⟨3, 3, .ro, false, 0⟩, ⟨2, 0, .ro, false, 1⟩]⟩,
  ⟨0x8, 1, 4, [⟨12, 10, .wo, false, 0⟩, ⟨9, 8, .wo, false, 0⟩, ⟨5, 0, .wo, false, 0⟩]⟩,
  ⟨0xc, 1, 4, [⟨0, 0, .wo, false, 0⟩]⟩,
  ⟨0x10, 1, 4, [⟨29, 24, .ro, false, 0⟩, ⟨23, 18, .ro, false, 0⟩, ⟨17, 12, .ro, false, 0⟩, ⟨11, 6, .ro, false, 0⟩, ⟨5, 0, .ro, false, 0⟩]⟩,
  ⟨0x14, 1, 4, [⟨29, 24, .ro, false, 0⟩, ⟨23, 18, .ro, false, 0⟩, ⟨17, 12, .ro, false, 0⟩, ⟨11, 6, .ro, false, 0⟩, ⟨5, 0, .ro, false, 0⟩]⟩,
  ⟨0x18, 1, 4, [⟨31, 0, .ro, false, 0⟩]⟩,
  ⟨0x1c, 1, 4, [⟨9, 0, .rwc, false, 100⟩]⟩,
  ⟨0x20, 1, 4, [⟨31, 0, .ro, false, 0⟩]⟩,
  ⟨0x24, 1, 4, [⟨31, 0, .ro, false, 0⟩]⟩,
  ⟨0x28, 1, 4, [⟨31, 0, .ro, false, 0⟩]⟩,
  ⟨0x2c, 1, 4, [⟨31, 0, .ro, false, 0⟩]⟩,
  ⟨0x30, 1, 4, [⟨31, 16, .w1cAll, true, 0⟩, ⟨15, 0, .w1cAll, true, 0⟩]⟩,
  ⟨0x34, 1, 4, [⟨31, 0, .rw, false, 0⟩]⟩,
  ⟨0x38, 1, 4, [⟨8, 8, .w1c, false, 0⟩, ⟨7, 7, .ro, false, 0⟩, ⟨6, 6, .wo, false, 0⟩, ⟨5, 0, .rw, false, 48⟩]⟩,
  ⟨0x3c, 1, 4, [⟨31, 0, .ro, false, 0⟩]⟩,
  ⟨0x40, 1, 4, [⟨31, 0, .ro, false, 0⟩]⟩,
  ⟨0x100, 16, 4, [⟨31, 31, .rwc, false, 0⟩, ⟨30, 30, .rwc, false, 0⟩, ⟨29, 28, .rwc, false, 0⟩, ⟨27, 25, .rwc, false, 0⟩, ⟨24, 19, .rwc, false, 0⟩, ⟨18, 16, .rwc, false, 0⟩, ⟨15, 14, .rwc, false, 0⟩, ⟨5, 0, .rwc, false, 0⟩]⟩]

/-- Registers of TRUST (03_dawn_trust_presence.md). -/
def regsTrust : List RegDef := [
  ⟨0x0, 1, 4, [⟨31, 24, .ro, false, 0⟩, ⟨23, 16, .ro, false, 0⟩, ⟨15, 14, .ro, false, 0⟩, ⟨13, 13, .ro, false, 0⟩, ⟨12, 12, .w1c, true, 0⟩, ⟨11, 11, .ro, true, 0⟩, ⟨10, 10, .ro, false, 0⟩, ⟨9, 9, .ro, false, 0⟩, ⟨8, 8, .ro, false, 0⟩, ⟨7, 7, .ro, false, 0⟩, ⟨2, 0, .ro, false, 0⟩]⟩,
  ⟨0x4, 1, 4, [⟨15, 8, .ro, false, 0⟩, ⟨3, 3, .ro, false, 0⟩, ⟨2, 2, .ro, false, 1⟩, ⟨1, 1, .ro, false, 0⟩, ⟨0, 0, .w1c, false, 0⟩]⟩,
  ⟨0x8, 1, 4, [⟨1, 1, .wo, false, 0⟩, ⟨0, 0, .wo, false, 0⟩]⟩,
  ⟨0xc, 1, 4, [⟨31, 31, .ro, false, 0⟩, ⟨30, 30, .w1c, false, 0⟩, ⟨3, 0, .wo, false, 0⟩]⟩,
  ⟨0x10, 1, 4, [⟨31, 31, .ro, false, 0⟩, ⟨30, 30, .w1c, false, 0⟩, ⟨29, 29, .w1c, false, 0⟩, ⟨1, 0, .wo, false, 0⟩]⟩,
  ⟨0x14, 1, 4, [⟨31, 0, .rw, false, 0⟩]⟩,
  ⟨0x18, 1, 4, [⟨31, 0, .ro, false, 0⟩]⟩,
  ⟨0x20, 4, 4, [⟨31, 0, .ro, false, 0⟩]⟩]

/-- Registers of INGEST (04_sensor_ingest.md), per instance. -/
def regsIngest : List RegDef := [
  ⟨0x0, 1, 4, [⟨6, 6, .shadow, false, 0⟩, ⟨5, 4, .shadow, false, 0⟩, ⟨3, 1, .shadow, false, 7⟩, ⟨0, 0, .shadow, false, 0⟩]⟩,
  ⟨0x4, 1, 4, [⟨13, 0, .shadow, false, 1500⟩]⟩,
  ⟨0x8, 1, 4, [⟨31, 16, .shadow, false, 1000⟩, ⟨15, 0, .shadow, false, 1000⟩]⟩,
  ⟨0xc, 1, 4, [⟨19, 0, .shadow, false, 0⟩]⟩,
  ⟨0x10, 1, 4, [⟨19, 0, .shadow, false, 0⟩]⟩,
  ⟨0x14, 1, 4, [⟨15, 0, .shadow, false, 10⟩]⟩,
  ⟨0x18, 1, 4, [⟨15, 12, .ro, false, 0⟩, ⟨11, 11, .ro, false, 0⟩, ⟨10, 10, .ro, false, 0⟩, ⟨9, 9, .ro, false, 0⟩, ⟨8, 8, .ro, false, 0⟩, ⟨7, 0, .ro, false, 0⟩]⟩,
  ⟨0x1c, 1, 4, [⟨14, 0, .w1c, false, 0⟩]⟩,
  ⟨0x20, 1, 4, [⟨31, 0, .ro, false, 0⟩]⟩,
  ⟨0x24, 1, 4, [⟨31, 0, .ro, false, 0⟩]⟩,
  ⟨0x28, 1, 4, [⟨31, 0, .ro, false, 0⟩]⟩,
  ⟨0x2c, 1, 4, [⟨31, 0, .ro, false, 0⟩]⟩,
  ⟨0x30, 1, 4, [⟨0, 0, .wo, false, 0⟩]⟩,
  ⟨0x34, 1, 4, [⟨16, 16, .rw, false, 0⟩, ⟨15, 0, .rw, false, 8000⟩]⟩,
  ⟨0x38, 1, 4, [⟨0, 0, .rw, false, 0⟩]⟩,
  ⟨0x3c, 1, 4, [⟨31, 31, .shadow, false, 0⟩, ⟨30, 30, .shadow, false, 0⟩, ⟨29, 28, .shadow, false, 0⟩, ⟨27, 20, .ro, false, 0⟩, ⟨19, 0, .shadow, false, 100⟩]⟩,
  ⟨0x40, 1, 4, [⟨19, 0, .shadow, false, 0⟩]⟩,
  ⟨0x44, 1, 4, [⟨0, 0, .wo, false, 0⟩]⟩,
  ⟨0x80, 1, 4, [⟨10, 10, .rw, false, 0⟩, ⟨9, 8, .rw, false, 0⟩, ⟨7, 0, .rw, false, 3⟩]⟩,
  ⟨0x84, 1, 4, [⟨31, 31, .wo, false, 0⟩, ⟨9, 8, .wo, false, 0⟩, ⟨6, 0, .wo, false, 0⟩]⟩,
  ⟨0x88, 1, 4, [⟨4, 4, .w1c, false, 0⟩, ⟨3, 3, .ro, false, 0⟩, ⟨2, 2, .w1c, false, 0⟩, ⟨1, 1, .w1c, false, 0⟩, ⟨0, 0, .ro, false, 0⟩]⟩,
  ⟨0xc0, 16, 4, [⟨31, 0, .rw, false, 0⟩]⟩,
  ⟨0x200, 16, 4, [⟨31, 0, .ro, false, 0⟩]⟩,
  ⟨0x1000, 256, 4, [⟨31, 0, .ro, false, 0⟩]⟩]

/-- Registers of PIPE (05_pixel_pipeline.md). -/
def regsPipe : List RegDef := [
  ⟨0x0, 1, 4, [⟨31, 31, .shadow, false, 0⟩, ⟨30, 23, .shadow, false, 112⟩, ⟨15, 15, .shadow, false, 0⟩, ⟨7, 7, .shadow, false, 1⟩, ⟨6, 6, .shadow, false, 0⟩, ⟨5, 5, .shadow, false, 1⟩, ⟨4, 4, .shadow, false, 0⟩, ⟨3, 3, .shadow, false, 1⟩, ⟨2, 2, .shadow, false, 0⟩, ⟨1, 1, .shadow, false, 0⟩]⟩,
  ⟨0x4, 4, 4, [⟨19, 0, .shadow, false, 0⟩]⟩,
  ⟨0x14, 1, 4, [⟨31, 16, .shadow, false, 4096⟩, ⟨15, 0, .shadow, false, 4096⟩]⟩,
  ⟨0x18, 1, 4, [⟨31, 16, .shadow, false, 4096⟩, ⟨15, 0, .shadow, false, 4096⟩]⟩,
  ⟨0x1c, 1, 4, [⟨20, 0, .shadow, false, 0⟩]⟩,
  ⟨0x20, 4, 4, [⟨31, 31, .shadow, false, 0⟩, ⟨30, 27, .shadow, false, 1⟩, ⟨26, 23, .shadow, false, 2⟩, ⟨15, 0, .shadow, false, 1⟩]⟩,
  ⟨0x30, 1, 4, [⟨31, 28, .ro, false, 0⟩, ⟨27, 24, .ro, false, 0⟩, ⟨23, 20, .ro, false, 0⟩, ⟨19, 19, .ro, false, 0⟩]⟩,
  ⟨0x34, 1, 4, [⟨6, 6, .w1c, false, 0⟩, ⟨5, 5, .w1c, false, 0⟩, ⟨4, 4, .w1c, false, 0⟩, ⟨3, 3, .w1c, false, 0⟩, ⟨2, 2, .w1c, false, 0⟩, ⟨1, 1, .w1c, false, 0⟩, ⟨0, 0, .w1c, false, 0⟩]⟩,
  ⟨0x38, 1, 4, [⟨19, 15, .ro, false, 0⟩, ⟨14, 10, .ro, false, 0⟩, ⟨9, 5, .ro, false, 0⟩, ⟨4, 0, .ro, false, 0⟩]⟩,
  ⟨0x3c, 1, 4, [⟨31, 0, .ro, false, 0⟩]⟩,
  ⟨0x40, 1, 4, [⟨31, 0, .ro, false, 0⟩]⟩,
  ⟨0x44, 1, 4, [⟨31, 0, .ro, false, 0⟩]⟩,
  ⟨0x48, 1, 4, [⟨31, 0, .ro, false, 0⟩]⟩,
  ⟨0x4c, 1, 4, [⟨31, 0, .ro, false, 0⟩]⟩,
  ⟨0x50, 1, 4, [⟨0, 0, .wo, false, 0⟩]⟩]

/-- Registers of CELL (06_scene_cells.md). -/
def regsCell : List RegDef := [
  ⟨0x0, 1, 4, [⟨31, 31, .shadow, false, 0⟩, ⟨30, 30, .shadow, false, 1⟩, ⟨5, 4, .shadow, false, 0⟩, ⟨1, 0, .shadow, false, 0⟩]⟩,
  ⟨0x4, 1, 4, [⟨23, 16, .shadow, false, 4⟩, ⟨7, 0, .shadow, false, 4⟩]⟩,
  ⟨0x8, 1, 4, [⟨31, 31, .shadow, false, 0⟩, ⟨6, 0, .shadow, false, 4⟩]⟩,
  ⟨0xc, 1, 4, [⟨31, 12, .shadow, false, 0⟩]⟩,
  ⟨0x10, 1, 4, [⟨7, 0, .shadow, false, 0⟩]⟩,
  ⟨0x14, 1, 4, [⟨31, 31, .ro, false, 0⟩, ⟨30, 30, .ro, false, 0⟩, ⟨29, 29, .ro, false, 0⟩, ⟨28, 28, .ro, false, 0⟩, ⟨24, 16, .ro, false, 0⟩, ⟨15, 8, .ro, false, 0⟩]⟩,
  ⟨0x18, 1, 4, [⟨5, 5, .w1c, false, 0⟩, ⟨4, 4, .w1c, false, 0⟩, ⟨3, 3, .w1c, false, 0⟩, ⟨2, 2, .w1c, false, 0⟩, ⟨1, 1, .w1c, false, 0⟩, ⟨0, 0, .w1c, false, 0⟩]⟩,
  ⟨0x1c, 1, 4, [⟨31, 0, .ro, false, 0⟩]⟩,
  ⟨0x20, 1, 4, [⟨31, 0, .ro, false, 0⟩]⟩,
  ⟨0x24, 1, 4, [⟨31, 0, .w1c, false, 0⟩]⟩,
  ⟨0x28, 1, 4, [⟨31, 0, .w1c, false, 0⟩]⟩,
  ⟨0x2c, 1, 4, [⟨5, 0, .rw, false, 0⟩]⟩,
  ⟨0x30, 1, 4, [⟨31, 16, .ro, false, 0⟩, ⟨15, 0, .ro, false, 0⟩]⟩,
  ⟨0x34, 1, 4, [⟨31, 0, .ro, false, 0⟩]⟩,
  ⟨0x38, 1, 4, [⟨31, 0, .ro, false, 0⟩]⟩,
  ⟨0x3c, 1, 4, [⟨31, 0, .ro, false, 0⟩]⟩,
  ⟨0x40, 1, 4, [⟨31, 0, .ro, false, 0⟩]⟩,
  ⟨0x44, 1, 4, [⟨0, 0, .wo, false, 0⟩]⟩,
  ⟨0x48, 1, 4, [⟨31, 0, .ro, false, 0⟩]⟩,
  ⟨0x4c, 1, 4, [⟨31, 0, .ro, false, 0⟩]⟩,
  ⟨0x50, 1, 4, [⟨0, 0, .wo, false, 0⟩]⟩]

/-- Registers of LEDGER (07_ring_ledger_triggers.md). -/
def regsLedger : List RegDef := [
  ⟨0x0, 1, 4, [⟨31, 31, .shadow, false, 0⟩]⟩,
  ⟨0x4, 1, 4, [⟨31, 15, .ro, false, 0⟩, ⟨14, 11, .ro, false, 0⟩, ⟨10, 7, .ro, false, 0⟩, ⟨6, 6, .ro, false, 0⟩]⟩,
  ⟨0x8, 1, 4, [⟨8, 8, .w1c, true, 0⟩, ⟨7, 7, .w1c, false, 0⟩, ⟨6, 6, .w1c, false, 0⟩, ⟨5, 5, .w1c, false, 0⟩, ⟨4, 4, .w1c, false, 0⟩, ⟨3, 3, .w1c, false, 0⟩, ⟨2, 2, .w1c, false, 0⟩, ⟨1, 1, .w1c, false, 0⟩, ⟨0, 0, .w1c, false, 0⟩]⟩,
  ⟨0xc, 1, 4, [⟨31, 0, .rwc, false, 1⟩]⟩,
  ⟨0x10, 1, 4, [⟨31, 0, .rwc, false, 0⟩]⟩,
  ⟨0x14, 1, 4, [⟨31, 0, .ro, false, 0⟩]⟩,
  ⟨0x18, 1, 4, [⟨31, 0, .ro, false, 0⟩]⟩,
  ⟨0x1c, 1, 4, [⟨31, 12, .shadow, false, 0⟩]⟩,
  ⟨0x20, 1, 4, [⟨7, 0, .shadow, false, 0⟩]⟩,
  ⟨0x24, 1, 4, [⟨31, 31, .shadow, false, 0⟩, ⟨4, 0, .shadow, false, 16⟩]⟩,
  ⟨0x28, 1, 4, [⟨31, 0, .ro, false, 0⟩]⟩,
  ⟨0x2c, 1, 4, [⟨31, 0, .rw, false, 0⟩]⟩,
  ⟨0x30, 1, 4, [⟨31, 0, .w1cAll, true, 0⟩]⟩,
  ⟨0x34, 1, 4, [⟨8, 8, .wo, false, 0⟩, ⟨1, 0, .wo, false, 0⟩]⟩,
  ⟨0x38, 1, 4, [⟨31, 0, .rw, false, 0⟩]⟩,
  ⟨0x3c, 1, 4, [⟨31, 0, .rw, false, 0⟩]⟩,
  ⟨0x40, 1, 4, [⟨23, 16, .ro, false, 0⟩, ⟨15, 8, .w1c, false, 0⟩, ⟨7, 0, .ro, false, 0⟩]⟩,
  ⟨0x44, 1, 4, [⟨31, 0, .ro, false, 0⟩]⟩,
  ⟨0x48, 1, 4, [⟨12, 8, .rw, false, 0⟩, ⟨2, 0, .rw, false, 0⟩]⟩,
  ⟨0x4c, 1, 4, [⟨31, 0, .ro, false, 0⟩]⟩,
  ⟨0x50, 1, 4, [⟨31, 0, .ro, false, 0⟩]⟩,
  ⟨0x54, 1, 4, [⟨19, 0, .w1c, true, 0⟩]⟩,
  ⟨0x60, 8, 4, [⟨31, 16, .w1cAll, true, 0⟩, ⟨15, 0, .w1cAll, true, 0⟩]⟩,
  ⟨0x400, 128, 4, [⟨31, 0, .ro, false, 0⟩]⟩]

/-- Registers of RAWC (08_ranorid_raw.md). -/
def regsRawc : List RegDef := [
  ⟨0x0, 1, 4, [⟨31, 31, .ro, false, 0⟩, ⟨30, 30, .ro, false, 0⟩, ⟨29, 24, .ro, false, 0⟩, ⟨23, 0, .ro, false, 0⟩]⟩,
  ⟨0x4, 1, 4, [⟨7, 7, .w1c, false, 0⟩, ⟨6, 6, .w1c, false, 0⟩, ⟨5, 5, .w1c, false, 0⟩, ⟨4, 4, .w1c, false, 0⟩, ⟨3, 3, .w1c, false, 0⟩, ⟨2, 2, .w1c, false, 0⟩, ⟨1, 1, .w1c, false, 0⟩, ⟨0, 0, .w1c, false, 0⟩]⟩,
  ⟨0x8, 1, 4, [⟨31, 0, .ro, false, 0⟩]⟩,
  ⟨0xc, 1, 4, [⟨31, 0, .ro, false, 0⟩]⟩,
  ⟨0x10, 1, 4, [⟨31, 0, .ro, false, 0⟩]⟩,
  ⟨0x14, 1, 4, [⟨31, 0, .ro, false, 0⟩]⟩,
  ⟨0x18, 1, 4, [⟨31, 0, .ro, false, 0⟩]⟩,
  ⟨0x1c, 1, 4, [⟨0, 0, .wo, false, 0⟩]⟩,
  ⟨0x40, 1, 4, [⟨31, 3, .rw, false, 0⟩]⟩,
  ⟨0x44, 1, 4, [⟨7, 0, .rw, false, 0⟩]⟩,
  ⟨0x48, 1, 4, [⟨31, 0, .rw, false, 0⟩]⟩,
  ⟨0x4c, 1, 4, [⟨31, 12, .rw, false, 0⟩]⟩,
  ⟨0x50, 1, 4, [⟨7, 0, .rw, false, 0⟩]⟩,
  ⟨0x54, 1, 4, [⟨31, 0, .rw, false, 0⟩]⟩,
  ⟨0x58, 1, 4, [⟨31, 31, .wo, false, 0⟩, ⟨30, 30, .rw, false, 0⟩, ⟨19, 0, .rw, false, 0⟩]⟩,
  ⟨0x5c, 1, 4, [⟨31, 31, .ro, false, 0⟩, ⟨30, 30, .w1c, false, 0⟩, ⟨29, 29, .w1c, false, 0⟩, ⟨28, 28, .w1c, false, 0⟩, ⟨27, 24, .ro, false, 0⟩, ⟨23, 23, .ro, false, 0⟩]⟩,
  ⟨0x60, 1, 4, [⟨31, 16, .ro, false, 0⟩, ⟨15, 0, .ro, false, 0⟩]⟩]

/-- Registers of HEVE (11_video_coding.md), per instance. -/
def regsHeve : List RegDef := [
  ⟨0x0, 1, 4, [⟨31, 31, .shadow, false, 0⟩, ⟨30, 30, .shadow, false, 0⟩, ⟨29, 29, .shadow, false, 0⟩, ⟨28, 28, .shadow, false, 0⟩, ⟨27, 27, .shadow, false, 0⟩, ⟨26, 26, .shadow, false, 0⟩, ⟨25, 24, .shadow, false, 0⟩, ⟨23, 16, .shadow, false, 153⟩, ⟨15, 12, .shadow, false, 3⟩, ⟨11, 8, .shadow, false, 2⟩, ⟨1, 0, .shadow, false, 0⟩]⟩,
  ⟨0x4, 1, 4, [⟨31, 16, .shadow, false, 60⟩, ⟨9, 9, .shadow, false, 1⟩, ⟨8, 8, .shadow, false, 1⟩, ⟨7, 7, .shadow, false, 1⟩, ⟨1, 0, .shadow, false, 1⟩]⟩,
  ⟨0x8, 1, 4, [⟨23, 16, .shadow, false, 0⟩, ⟨15, 15, .shadow, false, 0⟩, ⟨11, 8, .shadow, false, 1⟩]⟩,
  ⟨0xc, 1, 4, [⟨31, 24, .shadow, false, 51⟩, ⟨23, 16, .shadow, false, 0⟩, ⟨15, 8, .shadow, false, 30⟩, ⟨7, 0, .shadow, false, 253⟩]⟩,
  ⟨0x10, 1, 4, [⟨20, 0, .shadow, false, 50000⟩]⟩,
  ⟨0x14, 1, 4, [⟨20, 0, .shadow, false, 50000⟩]⟩,
  ⟨0x18, 1, 4, [⟨19, 0, .shadow, false, 45000⟩]⟩,
  ⟨0x1c, 1, 4, [⟨31, 0, .shadow, false, 90000⟩]⟩,
  ⟨0x20, 1, 4, [⟨31, 0, .shadow, false, 1875⟩]⟩,
  ⟨0x24, 1, 4, [⟨23, 16, .shadow, false, 1⟩, ⟨15, 8, .shadow, false, 1⟩, ⟨7, 0, .shadow, false, 1⟩]⟩,
  ⟨0x28, 1, 4, [⟨15, 0, .shadow, false, 100⟩]⟩,
  ⟨0x2c, 1, 4, [⟨31, 12, .shadow, false, 0⟩]⟩,
  ⟨0x30, 1, 4, [⟨7, 0, .shadow, false, 0⟩]⟩,
  ⟨0x34, 1, 4, [⟨4, 0, .shadow, false, 24⟩]⟩,
  ⟨0x38, 1, 4, [⟨31, 12, .shadow, false, 0⟩]⟩,
  ⟨0x3c, 1, 4, [⟨7, 0, .shadow, false, 0⟩]⟩,
  ⟨0x40, 1, 4, [⟨11, 0, .shadow, false, 0⟩]⟩,
  ⟨0x44, 1, 4, [⟨31, 0, .ro, false, 0⟩]⟩,
  ⟨0x48, 1, 4, [⟨31, 0, .rw, false, 0⟩]⟩,
  ⟨0x4c, 1, 4, [⟨31, 31, .ro, false, 0⟩, ⟨30, 30, .ro, false, 0⟩, ⟨29, 29, .ro, false, 0⟩, ⟨28, 28, .ro, false, 0⟩, ⟨27, 24, .ro, false, 0⟩, ⟨23, 0, .ro, false, 0⟩]⟩,
  ⟨0x50, 1, 4, [⟨7, 7, .w1c, false, 0⟩, ⟨6, 6, .w1c, false, 0⟩, ⟨5, 5, .w1c, false, 0⟩, ⟨4, 4, .w1c, false, 0⟩, ⟨3, 3, .w1c, false, 0⟩, ⟨2, 2, .w1c, false, 0⟩, ⟨1, 1, .w1c, false, 0⟩, ⟨0, 0, .w1c, false, 0⟩]⟩,
  ⟨0x54, 1, 4, [⟨31, 0, .ro, false, 0⟩]⟩,
  ⟨0x58, 1, 4, [⟨31, 0, .ro, false, 0⟩]⟩,
  ⟨0x5c, 1, 4, [⟨31, 0, .ro, false, 0⟩]⟩] ++
 [
  ⟨0x60, 1, 4, [⟨31, 0, .ro, false, 0⟩]⟩,
  ⟨0x64, 1, 4, [⟨0, 0, .wo, false, 0⟩]⟩]

/-- Registers of HEVD (11_video_coding.md). -/
def regsHevd : List RegDef := [
  ⟨0x0, 1, 4, [⟨31, 31, .rw, false, 0⟩]⟩,
  ⟨0x4, 1, 4, [⟨31, 5, .rw, false, 0⟩]⟩,
  ⟨0x8, 1, 4, [⟨7, 0, .rw, false, 0⟩]⟩,
  ⟨0xc, 1, 4, [⟨4, 0, .rw, false, 8⟩]⟩,
  ⟨0x10, 1, 4, [⟨31, 0, .rw, false, 0⟩]⟩,
  ⟨0x14, 1, 4, [⟨31, 0, .ro, false, 0⟩]⟩,
  ⟨0x18, 1, 4, [⟨31, 12, .rw, false, 0⟩]⟩,
  ⟨0x1c, 1, 4, [⟨7, 0, .rw, false, 0⟩]⟩,
  ⟨0x20, 1, 4, [⟨31, 0, .rw, false, 0⟩]⟩,
  ⟨0x24, 1, 4, [⟨5, 0, .rw, false, 8⟩]⟩,
  ⟨0x28, 1, 4, [⟨31, 31, .ro, false, 0⟩, ⟨4, 0, .ro, false, 0⟩]⟩,
  ⟨0x2c, 1, 4, [⟨4, 0, .wo, false, 0⟩]⟩,
  ⟨0x30, 1, 4, [⟨19, 0, .rw, false, 33333⟩]⟩,
  ⟨0x34, 1, 4, [⟨31, 31, .ro, false, 0⟩, ⟨30, 30, .ro, false, 0⟩, ⟨5, 0, .ro, false, 0⟩]⟩,
  ⟨0x38, 1, 4, [⟨4, 4, .w1c, false, 0⟩, ⟨3, 3, .w1c, false, 0⟩, ⟨2, 2, .w1c, false, 0⟩, ⟨1, 1, .w1c, false, 0⟩, ⟨0, 0, .w1c, false, 0⟩]⟩,
  ⟨0x3c, 1, 4, [⟨31, 0, .ro, false, 0⟩]⟩,
  ⟨0x40, 1, 4, [⟨31, 0, .ro, false, 0⟩]⟩,
  ⟨0x44, 1, 4, [⟨31, 0, .ro, false, 0⟩]⟩,
  ⟨0x48, 1, 4, [⟨0, 0, .wo, false, 0⟩]⟩]

/-- Registers of HASH (09_provenance.md). -/
def regsHash : List RegDef := [
  ⟨0x0, 1, 4, [⟨1, 0, .shadow, false, 1⟩]⟩,
  ⟨0x4, 1, 4, [⟨31, 31, .ro, false, 0⟩, ⟨30, 30, .ro, false, 0⟩, ⟨7, 0, .ro, false, 0⟩]⟩,
  ⟨0x8, 1, 4, [⟨5, 5, .w1c, true, 0⟩, ⟨4, 4, .w1c, false, 0⟩, ⟨3, 3, .w1c, false, 0⟩, ⟨2, 2, .w1c, false, 0⟩, ⟨1, 1, .w1c, false, 0⟩, ⟨0, 0, .w1c, false, 0⟩]⟩,
  ⟨0xc, 1, 4, [⟨31, 12, .shadow, false, 0⟩]⟩,
  ⟨0x10, 1, 4, [⟨7, 0, .shadow, false, 0⟩]⟩,
  ⟨0x14, 1, 4, [⟨31, 31, .shadow, false, 0⟩, ⟨4, 0, .shadow, false, 16⟩]⟩,
  ⟨0x18, 1, 4, [⟨31, 0, .ro, false, 0⟩]⟩,
  ⟨0x1c, 1, 4, [⟨31, 0, .rw, false, 0⟩]⟩,
  ⟨0x20, 1, 4, [⟨31, 0, .w1cAll, true, 0⟩]⟩,
  ⟨0x24, 1, 4, [⟨31, 0, .ro, false, 0⟩]⟩,
  ⟨0x28, 1, 4, [⟨31, 0, .ro, false, 0⟩]⟩,
  ⟨0x2c, 1, 4, [⟨31, 0, .ro, false, 0⟩]⟩,
  ⟨0x30, 1, 4, [⟨31, 0, .ro, false, 0⟩]⟩,
  ⟨0x34, 1, 4, [⟨31, 0, .ro, false, 0⟩]⟩,
  ⟨0x38, 1, 4, [⟨31, 0, .ro, false, 0⟩]⟩,
  ⟨0x3c, 1, 4, [⟨31, 0, .ro, false, 0⟩]⟩,
  ⟨0x40, 1, 4, [⟨0, 0, .wo, false, 0⟩]⟩,
  ⟨0x44, 1, 4, [⟨31, 0, .rw, false, 0⟩]⟩,
  ⟨0x48, 1, 4, [⟨7, 0, .rw, false, 0⟩]⟩,
  ⟨0x4c, 1, 4, [⟨31, 0, .rw, false, 0⟩]⟩,
  ⟨0x50, 1, 4, [⟨31, 31, .wo, false, 0⟩, ⟨30, 30, .ro, false, 0⟩, ⟨29, 29, .w1c, false, 0⟩, ⟨28, 28, .w1c, false, 0⟩, ⟨27, 27, .w1c, false, 0⟩]⟩,
  ⟨0x80, 16, 4, [⟨31, 0, .ro, false, 0⟩]⟩,
  ⟨0xc0, 16, 4, [⟨31, 0, .ro, false, 0⟩]⟩,
  ⟨0x100, 16, 4, [⟨31, 0, .ro, false, 0⟩]⟩]

/-- Registers of MAG (10_magazines.md), per instance. -/
def regsMag : List RegDef := [
  ⟨0x0, 1, 4, [⟨3, 3, .rwc, false, 0⟩, ⟨2, 1, .rwc, false, 0⟩, ⟨0, 0, .rwc, false, 0⟩]⟩,
  ⟨0x4, 1, 4, [⟨31, 28, .ro, false, 0⟩, ⟨27, 26, .ro, false, 0⟩, ⟨25, 22, .ro, false, 0⟩, ⟨21, 21, .ro, false, 0⟩, ⟨20, 19, .ro, false, 0⟩, ⟨18, 17, .ro, false, 0⟩, ⟨16, 16, .ro, false, 0⟩, ⟨15, 15, .ro, false, 0⟩, ⟨14, 14, .ro, false, 0⟩]⟩,
  ⟨0x8, 1, 4, [⟨11, 0, .w1c, false, 0⟩]⟩,
  ⟨0xc, 1, 4, [⟨23, 16, .ro, false, 0⟩, ⟨7, 0, .ro, false, 0⟩]⟩,
  ⟨0x10, 1, 4, [⟨31, 0, .ro, false, 0⟩]⟩,
  ⟨0x14, 1, 4, [⟨31, 0, .ro, false, 0⟩]⟩,
  ⟨0x18, 1, 4, [⟨31, 31, .ro, false, 0⟩, ⟨11, 0, .ro, false, 0⟩]⟩,
  ⟨0x1c, 1, 4, [⟨31, 0, .ro, false, 0⟩]⟩,
  ⟨0x20, 1, 4, [⟨31, 0, .ro, false, 0⟩]⟩,
  ⟨0x24, 1, 4, [⟨31, 16, .w1cAll, true, 0⟩, ⟨15, 0, .w1cAll, true, 0⟩]⟩,
  ⟨0x28, 1, 4, [⟨31, 6, .rw, false, 0⟩]⟩,
  ⟨0x2c, 1, 4, [⟨7, 0, .rw, false, 0⟩]⟩,
  ⟨0x30, 1, 4, [⟨31, 0, .rw, false, 0⟩]⟩,
  ⟨0x34, 1, 4, [⟨15, 0, .rw, false, 0⟩]⟩,
  ⟨0x38, 1, 4, [⟨31, 0, .rw, false, 0⟩]⟩,
  ⟨0x3c, 1, 4, [⟨31, 31, .wo, false, 0⟩, ⟨30, 30, .ro, false, 0⟩, ⟨29, 29, .w1c, false, 0⟩, ⟨28, 28, .w1c, false, 0⟩, ⟨27, 27, .w1c, false, 0⟩, ⟨11, 8, .rw, false, 0⟩, ⟨3, 0, .rw, false, 0⟩]⟩]

/-- Registers of MAG (10_magazines.md), common to the instances. -/
def regsMagCommon : List RegDef := [
  ⟨0x200, 1, 4, [⟨8, 8, .shadow, false, 0⟩, ⟨7, 0, .shadow, false, 24⟩]⟩,
  ⟨0x204, 1, 4, [⟨15, 0, .shadow, false, 500⟩]⟩,
  ⟨0x208, 1, 4, [⟨31, 0, .shadow, false, 0⟩]⟩,
  ⟨0x20c, 1, 4, [⟨0, 0, .wo, false, 0⟩]⟩,
  ⟨0x210, 4, 4, [⟨31, 0, .rw, false, 0⟩]⟩]

/-- Registers of DRAM (12_dram.md). -/
def regsDram : List RegDef := [
  ⟨0x0, 1, 4, [⟨7, 7, .rw, false, 0⟩, ⟨6, 4, .rw, false, 0⟩, ⟨3, 0, .rw, false, 0⟩]⟩,
  ⟨0x4, 1, 4, [⟨31, 31, .wo, false, 0⟩, ⟨7, 4, .ro, false, 0⟩, ⟨3, 0, .w1s, false, 0⟩]⟩,
  ⟨0x8, 1, 4, [⟨31, 31, .ro, false, 0⟩, ⟨30, 30, .ro, false, 0⟩, ⟨29, 29, .ro, false, 0⟩, ⟨28, 28, .ro, false, 0⟩, ⟨27, 27, .ro, false, 0⟩, ⟨23, 20, .ro, false, 0⟩, ⟨7, 0, .ro, false, 0⟩]⟩,
  ⟨0xc, 1, 4, [⟨9, 9, .w1c, false, 0⟩, ⟨8, 8, .w1c, false, 0⟩, ⟨7, 7, .w1c, false, 0⟩, ⟨6, 6, .w1c, false, 0⟩, ⟨5, 5, .w1c, false, 0⟩, ⟨4, 4, .w1c, false, 0⟩, ⟨3, 3, .w1c, false, 0⟩, ⟨2, 2, .w1c, false, 0⟩, ⟨1, 1, .w1c, false, 0⟩, ⟨0, 0, .w1c, false, 0⟩]⟩,
  ⟨0x10, 1, 4, [⟨31, 24, .shadow, false, 60⟩, ⟨15, 0, .shadow, false, 0⟩]⟩,
  ⟨0x14, 1, 4, [⟨31, 0, .ro, false, 0⟩]⟩,
  ⟨0x18, 1, 4, [⟨31, 31, .ro, false, 0⟩, ⟨30, 0, .ro, false, 0⟩]⟩,
  ⟨0x1c, 1, 4, [⟨31, 31, .wo, false, 0⟩, ⟨30, 30, .ro, false, 0⟩, ⟨29, 29, .w1c, false, 0⟩, ⟨28, 28, .w1c, false, 0⟩, ⟨27, 24, .rw, false, 0⟩, ⟨16, 16, .rw, false, 0⟩, ⟨15, 0, .rw, false, 0⟩]⟩,
  ⟨0x20, 1, 4, [⟨31, 23, .rw, false, 511⟩, ⟨22, 14, .rw, false, 0⟩, ⟨13, 10, .rw, false, 1⟩, ⟨9, 8, .rw, false, 0⟩, ⟨7, 0, .rw, false, 0⟩]⟩,
  ⟨0x24, 1, 4, [⟨31, 0, .rw, false, 0⟩]⟩,
  ⟨0x28, 1, 4, [⟨19, 16, .rw, false, 0⟩, ⟨8, 8, .rw, false, 0⟩, ⟨7, 0, .rw, false, 0⟩]⟩,
  ⟨0x2c, 1, 4, [⟨8, 0, .rw, false, 0⟩]⟩,
  ⟨0x30, 1, 4, [⟨5, 4, .rw, false, 0⟩, ⟨3, 0, .rw, false, 0⟩]⟩,
  ⟨0x34, 1, 4, [⟨31, 0, .ro, false, 0⟩]⟩,
  ⟨0x38, 1, 4, [⟨31, 6, .ro, false, 0⟩]⟩,
  ⟨0x3c, 1, 4, [⟨7, 0, .ro, false, 0⟩]⟩,
  ⟨0x40, 1, 4, [⟨31, 16, .w1cAll, true, 0⟩, ⟨15, 0, .w1cAll, true, 0⟩]⟩,
  ⟨0x44, 1, 4, [⟨0, 0, .wo, false, 0⟩]⟩]

/-- Registers of LANE (13_serial_lanes.md), per instance. -/
def regsLane : List RegDef := [
  ⟨0x0, 1, 4, [⟨31, 31, .shadow, false, 1⟩, ⟨30, 30, .shadow, false, 1⟩, ⟨23, 16, .shadow, false, 20⟩, ⟨15, 8, .shadow, false, 0⟩]⟩,
  ⟨0x4, 1, 4, [⟨31, 31, .ro, false, 0⟩, ⟨30, 30, .ro, false, 0⟩, ⟨29, 29, .ro, false, 0⟩, ⟨28, 28, .ro, false, 0⟩, ⟨27, 27, .ro, false, 0⟩, ⟨26, 26, .ro, false, 0⟩, ⟨25, 25, .ro, false, 0⟩, ⟨24, 24, .ro, false, 0⟩, ⟨23, 20, .ro, false, 15⟩, ⟨19, 18, .ro, false, 0⟩, ⟨15, 8, .ro, false, 0⟩]⟩,
  ⟨0x8, 1, 4, [⟨7, 7, .w1c, false, 0⟩, ⟨6, 6, .w1c, false, 0⟩, ⟨5, 5, .w1c, false, 0⟩, ⟨4, 4, .w1c, false, 0⟩, ⟨3, 3, .w1c, false, 0⟩, ⟨2, 2, .w1c, false, 0⟩, ⟨1, 1, .w1c, false, 0⟩, ⟨0, 0, .w1c, false, 0⟩]⟩,
  ⟨0xc, 1, 4, [⟨29, 24, .ro, false, 0⟩, ⟨21, 16, .ro, false, 0⟩, ⟨13, 8, .ro, false, 0⟩, ⟨4, 0, .ro, false, 0⟩]⟩,
  ⟨0x10, 1, 4, [⟨29, 0, .ro, false, 0⟩]⟩,
  ⟨0x14, 1, 4, [⟨18, 16, .rw, false, 0⟩, ⟨14, 12, .rw, false, 0⟩, ⟨10, 8, .rw, false, 0⟩, ⟨0, 0, .wo, false, 0⟩]⟩,
  ⟨0x18, 1, 4, [⟨31, 31, .ro, false, 0⟩, ⟨30, 0, .ro, false, 0⟩]⟩,
  ⟨0x1c, 1, 4, [⟨31, 16, .w1cAll, true, 0⟩, ⟨15, 0, .w1cAll, true, 0⟩]⟩]

/-- Registers of LANE (13_serial_lanes.md), common to the instances. -/
def regsLaneCommon : List RegDef := [
  ⟨0x2000, 1, 4, [⟨31, 16, .ro, false, 0⟩, ⟨15, 0, .ro, false, 0⟩]⟩,
  ⟨0x2004, 1, 4, [⟨15, 0, .shadow, false, 1000⟩]⟩,
  ⟨0x2008, 1, 4, [⟨0, 0, .wo, false, 0⟩]⟩]

/-- Registers of NET (14_network_time.md), per instance. -/
def regsNet : List RegDef := [
  ⟨0x0, 1, 4, [⟨31, 31, .shadow, false, 0⟩, ⟨30, 30, .shadow, false, 0⟩, ⟨29, 29, .shadow, false, 0⟩, ⟨28, 27, .shadow, false, 3⟩, ⟨26, 25, .shadow, false, 2⟩, ⟨24, 24, .shadow, false, 0⟩, ⟨13, 0, .shadow, false, 1514⟩]⟩,
  ⟨0x4, 1, 4, [⟨31, 31, .ro, false, 0⟩, ⟨30, 29, .ro, false, 0⟩, ⟨28, 28, .ro, false, 0⟩]⟩,
  ⟨0x8, 1, 4, [⟨5, 0, .w1c, false, 0⟩]⟩,
  ⟨0xc, 1, 4, [⟨31, 0, .rwc, false, 0⟩]⟩,
  ⟨0x10, 1, 4, [⟨15, 0, .rwc, false, 0⟩]⟩,
  ⟨0x14, 1, 4, [⟨31, 5, .rw, false, 0⟩]⟩,
  ⟨0x18, 1, 4, [⟨7, 0, .rw, false, 0⟩]⟩,
  ⟨0x1c, 1, 4, [⟨31, 31, .rw, false, 0⟩, ⟨4, 0, .rw, false, 8⟩]⟩,
  ⟨0x20, 1, 4, [⟨31, 0, .rw, false, 0⟩]⟩,
  ⟨0x24, 1, 4, [⟨31, 0, .ro, false, 0⟩]⟩,
  ⟨0x28, 1, 4, [⟨31, 5, .rw, false, 0⟩]⟩,
  ⟨0x2c, 1, 4, [⟨7, 0, .rw, false, 0⟩]⟩,
  ⟨0x30, 1, 4, [⟨31, 31, .rw, false, 0⟩, ⟨4, 0, .rw, false, 8⟩]⟩,
  ⟨0x34, 1, 4, [⟨31, 0, .rw, false, 0⟩]⟩,
  ⟨0x38, 1, 4, [⟨31, 0, .ro, false, 0⟩]⟩,
  ⟨0x3c, 1, 4, [⟨3, 0, .rw, false, 0⟩]⟩,
  ⟨0x40, 1, 4, [⟨31, 0, .ro, false, 0⟩]⟩]

/-- Registers of TIME (14_network_time.md). -/
def regsTime : List RegDef := [
  ⟨0x0, 1, 4, [⟨31, 16, .rw, false, 0⟩, ⟨0, 0, .rw, false, 0⟩]⟩,
  ⟨0x40, 1, 4, [⟨31, 31, .rw, false, 0⟩, ⟨30, 30, .rw, false, 0⟩, ⟨29, 29, .rw, false, 0⟩, ⟨9, 0, .rw, false, 100⟩]⟩,
  ⟨0x4, 1, 4, [⟨31, 31, .ro, true, 0⟩, ⟨30, 30, .ro, true, 0⟩, ⟨29, 29, .ro, false, 0⟩, ⟨28, 28, .ro, false, 0⟩, ⟨27, 23, .ro, false, 0⟩]⟩,
  ⟨0x8, 1, 4, [⟨7, 0, .w1c, false, 0⟩]⟩,
  ⟨0x44, 1, 4, [⟨31, 0, .ro, false, 0⟩]⟩,
  ⟨0xc, 1, 4, [⟨31, 0, .ro, false, 0⟩]⟩,
  ⟨0x10, 1, 4, [⟨31, 0, .ro, false, 0⟩]⟩,
  ⟨0x14, 1, 4, [⟨15, 0, .ro, false, 0⟩]⟩,
  ⟨0x48, 1, 4, [⟨31, 31, .rw, false, 0⟩, ⟨30, 30, .rw, false, 0⟩, ⟨1, 0, .rw, false, 1⟩]⟩,
  ⟨0x4c, 1, 4, [⟨31, 0, .rw, false, 0⟩]⟩,
  ⟨0x50, 1, 4, [⟨31, 0, .rw, false, 0⟩]⟩,
  ⟨0x18, 1, 4, [⟨31, 0, .rw, true, 0⟩]⟩,
  ⟨0x1c, 1, 4, [⟨11, 8, .rw, true, 2⟩, ⟨7, 0, .rw, true, 128⟩]⟩,
  ⟨0x54, 1, 4, [⟨31, 0, .ro, false, 0⟩]⟩,
  ⟨0x58, 1, 4, [⟨31, 0, .ro, false, 0⟩]⟩,
  ⟨0x5c, 1, 4, [⟨31, 0, .ro, false, 0⟩]⟩,
  ⟨0x20, 1, 4, [⟨31, 0, .rw, false, 0⟩]⟩,
  ⟨0x64, 1, 4, [⟨31, 31, .shadow, false, 0⟩, ⟨23, 16, .ro, false, 0⟩, ⟨15, 0, .shadow, false, 24⟩]⟩,
  ⟨0x68, 1, 4, [⟨31, 0, .shadow, false, 1000000000⟩]⟩,
  ⟨0x6c, 1, 4, [⟨31, 0, .shadow, false, 0⟩]⟩,
  ⟨0x70, 1, 4, [⟨31, 0, .shadow, false, 0⟩]⟩,
  ⟨0x74, 1, 4, [⟨31, 0, .shadow, false, 0⟩]⟩,
  ⟨0x24, 1, 4, [⟨31, 0, .rw, false, 0⟩]⟩,
  ⟨0x28, 1, 4, [⟨31, 0, .rw, false, 0⟩]⟩] ++
 [
  ⟨0x2c, 1, 4, [⟨15, 0, .rw, false, 0⟩]⟩,
  ⟨0x78, 1, 4, [⟨31, 0, .ro, false, 0⟩]⟩,
  ⟨0x30, 1, 4, [⟨3, 0, .wo, false, 0⟩]⟩,
  ⟨0x7c, 1, 4, [⟨11, 0, .rwc, false, 0⟩]⟩,
  ⟨0x34, 1, 4, [⟨31, 0, .rw, false, 0⟩]⟩,
  ⟨0x38, 1, 4, [⟨31, 0, .rw, false, 0⟩]⟩,
  ⟨0x3c, 1, 4, [⟨31, 31, .rw, false, 0⟩, ⟨15, 0, .rw, false, 0⟩]⟩,
  ⟨0x80, 1, 4, [⟨31, 31, .rw, false, 1⟩, ⟨30, 30, .rw, false, 1⟩, ⟨29, 29, .rw, false, 0⟩]⟩,
  ⟨0x84, 1, 4, [⟨31, 16, .w1cAll, true, 0⟩, ⟨13, 13, .ro, false, 0⟩, ⟨12, 12, .ro, false, 0⟩, ⟨11, 8, .ro, false, 0⟩, ⟨7, 0, .ro, false, 0⟩]⟩]

/-- Registers of KLINK (15_pair_and_kurnarik.md). -/
def regsKlink : List RegDef := [
  ⟨0x0, 1, 4, [⟨31, 30, .rwc, false, 0⟩, ⟨29, 29, .rwc, false, 0⟩, ⟨28, 28, .rwc, false, 1⟩, ⟨27, 27, .rwc, false, 0⟩, ⟨15, 0, .rwc, false, 0⟩]⟩,
  ⟨0x4, 1, 4, [⟨31, 31, .shadow, false, 0⟩, ⟨30, 30, .shadow, false, 0⟩, ⟨29, 29, .shadow, false, 0⟩, ⟨27, 24, .shadow, false, 0⟩, ⟨23, 16, .shadow, false, 8⟩, ⟨15, 0, .shadow, false, 2000⟩]⟩,
  ⟨0x8, 1, 4, [⟨31, 31, .ro, false, 0⟩, ⟨30, 30, .ro, false, 0⟩, ⟨29, 29, .ro, false, 0⟩, ⟨28, 28, .ro, false, 0⟩, ⟨27, 27, .ro, false, 0⟩, ⟨26, 24, .ro, false, 0⟩, ⟨23, 20, .ro, false, 0⟩, ⟨19, 17, .ro, false, 0⟩, ⟨16, 13, .ro, false, 0⟩]⟩,
  ⟨0xc, 1, 4, [⟨10, 0, .w1c, false, 0⟩]⟩,
  ⟨0x10, 1, 4, [⟨31, 0, .ro, true, 0⟩]⟩,
  ⟨0x14, 1, 4, [⟨31, 0, .ro, false, 0⟩]⟩,
  ⟨0x18, 1, 4, [⟨1, 1, .wo, false, 0⟩, ⟨0, 0, .wo, false, 0⟩]⟩,
  ⟨0x1c, 1, 4, [⟨4, 4, .rw, false, 0⟩, ⟨3, 0, .rw, false, 0⟩]⟩,
  ⟨0x20, 1, 4, [⟨31, 0, .ro, false, 0⟩]⟩,
  ⟨0x24, 1, 4, [⟨0, 0, .wo, false, 0⟩]⟩,
  ⟨0x28, 1, 4, [⟨15, 0, .shadow, false, 1000⟩]⟩,
  ⟨0x30, 4, 4, [⟨31, 0, .ro, false, 0⟩]⟩]

/-- Registers of MOTION (16_motion_feedback.md), per instance. -/
def regsMotion : List RegDef := [
  ⟨0x0, 1, 4, [⟨31, 31, .shadow, false, 0⟩, ⟨23, 16, .shadow, false, 0⟩, ⟨15, 8, .shadow, false, 50⟩, ⟨6, 0, .shadow, false, 4⟩]⟩,
  ⟨0x4, 1, 4, [⟨31, 30, .shadow, false, 0⟩, ⟨19, 16, .shadow, false, 4⟩, ⟨15, 0, .shadow, false, 1000⟩]⟩,
  ⟨0x8, 1, 4, [⟨31, 0, .shadow, false, 1000000⟩]⟩,
  ⟨0xc, 1, 4, [⟨31, 0, .shadow, false, 500000⟩]⟩,
  ⟨0x10, 1, 4, [⟨31, 0, .ro, false, 0⟩]⟩,
  ⟨0x14, 1, 4, [⟨31, 0, .ro, false, 0⟩]⟩,
  ⟨0x18, 1, 4, [⟨31, 31, .ro, false, 0⟩, ⟨30, 30, .ro, false, 0⟩, ⟨29, 29, .ro, false, 1⟩, ⟨28, 28, .ro, false, 0⟩, ⟨27, 27, .ro, false, 0⟩, ⟨26, 26, .ro, false, 0⟩, ⟨25, 25, .ro, false, 0⟩, ⟨24, 24, .ro, false, 0⟩, ⟨23, 21, .ro, false, 0⟩, ⟨20, 18, .ro, false, 0⟩]⟩,
  ⟨0x1c, 1, 4, [⟨8, 0, .w1c, false, 0⟩]⟩,
  ⟨0x20, 1, 4, [⟨31, 0, .wo, false, 0⟩]⟩,
  ⟨0x24, 1, 4, [⟨31, 0, .ro, false, 0⟩]⟩,
  ⟨0x28, 1, 4, [⟨31, 24, .w1cAll, true, 0⟩, ⟨23, 16, .w1cAll, true, 0⟩, ⟨15, 8, .w1cAll, true, 0⟩, ⟨7, 0, .w1cAll, true, 0⟩]⟩,
  ⟨0x2c, 1, 4, [⟨31, 0, .ro, false, 0⟩]⟩]

/-- Registers of MOTION (16_motion_feedback.md), common to the instances. -/
def regsMotionCommon : List RegDef := [
  ⟨0x400, 8, 64, [⟨31, 31, .wo, false, 0⟩, ⟨30, 30, .wo, false, 0⟩, ⟨29, 29, .ro, false, 0⟩, ⟨28, 28, .w1c, false, 0⟩, ⟨27, 27, .w1c, false, 0⟩, ⟨26, 26, .w1c, false, 0⟩, ⟨7, 7, .rw, false, 0⟩, ⟨6, 6, .rw, false, 0⟩, ⟨5, 4, .rw, false, 0⟩, ⟨1, 0, .rw, false, 0⟩]⟩,
  ⟨0x404, 8, 64, [⟨31, 0, .rw, false, 0⟩]⟩,
  ⟨0x408, 8, 64, [⟨31, 0, .rw, false, 0⟩]⟩,
  ⟨0x40c, 8, 64, [⟨31, 0, .ro, false, 0⟩]⟩,
  ⟨0x410, 8, 64, [⟨31, 0, .ro, false, 0⟩]⟩,
  ⟨0x414, 8, 64, [⟨31, 0, .ro, false, 0⟩]⟩,
  ⟨0x418, 8, 64, [⟨31, 0, .ro, false, 0⟩]⟩]

/-- Registers of VIEW (17_footlights.md). -/
def regsView : List RegDef := [
  ⟨0x0, 1, 4, [⟨31, 31, .shadow, false, 0⟩, ⟨30, 30, .line, false, 0⟩, ⟨29, 29, .shadow, false, 1⟩, ⟨28, 28, .shadow, false, 1⟩, ⟨1, 0, .shadow, false, 0⟩]⟩,
  ⟨0x4, 1, 4, [⟨31, 16, .shadow, false, 1080⟩, ⟨15, 0, .shadow, false, 1920⟩]⟩,
  ⟨0x8, 1, 4, [⟨18, 18, .shadow, false, 0⟩, ⟨17, 16, .shadow, false, 3⟩, ⟨11, 0, .shadow, false, 1000⟩]⟩,
  ⟨0xc, 1, 4, [⟨31, 16, .shadow, false, 0⟩, ⟨15, 0, .shadow, false, 15432⟩]⟩,
  ⟨0x10, 1, 4, [⟨15, 0, .shadow, false, 0⟩]⟩,
  ⟨0x14, 1, 4, [⟨31, 24, .shadow, false, 50⟩, ⟨23, 12, .shadow, false, 120⟩, ⟨11, 0, .shadow, false, 120⟩]⟩,
  ⟨0x18, 1, 4, [⟨31, 30, .ro, false, 0⟩, ⟨29, 29, .ro, false, 0⟩, ⟨28, 28, .ro, false, 0⟩, ⟨27, 27, .ro, false, 0⟩, ⟨26, 26, .ro, false, 0⟩, ⟨12, 0, .ro, false, 0⟩]⟩,
  ⟨0x1c, 1, 4, [⟨5, 0, .w1c, false, 0⟩]⟩,
  ⟨0x20, 1, 4, [⟨27, 16, .rw, false, 0⟩, ⟨11, 0, .rw, false, 0⟩]⟩,
  ⟨0x24, 1, 4, [⟨31, 30, .wo, false, 0⟩, ⟨23, 12, .wo, false, 0⟩, ⟨11, 0, .wo, false, 0⟩]⟩,
  ⟨0x28, 1, 4, [⟨31, 18, .shadow, false, 0⟩, ⟨17, 12, .shadow, false, 3⟩, ⟨5, 0, .shadow, false, 15⟩]⟩,
  ⟨0x2c, 1, 4, [⟨31, 12, .shadow, false, 0⟩]⟩,
  ⟨0x30, 1, 4, [⟨7, 0, .shadow, false, 0⟩]⟩,
  ⟨0x34, 1, 4, [⟨31, 31, .ro, false, 0⟩, ⟨5, 0, .ro, false, 0⟩]⟩,
  ⟨0x38, 1, 4, [⟨5, 0, .wo, false, 0⟩]⟩,
  ⟨0x3c, 1, 4, [⟨31, 24, .w1cAll, true, 0⟩, ⟨23, 16, .w1cAll, true, 0⟩, ⟨15, 8, .ro, false, 0⟩, ⟨7, 0, .ro, false, 0⟩]⟩,
  ⟨0x40, 1, 4, [⟨31, 31, .wo, false, 0⟩, ⟨30, 30, .ro, false, 0⟩, ⟨24, 24, .rw, false, 0⟩, ⟨23, 16, .rw, false, 0⟩, ⟨15, 8, .rw, false, 0⟩]⟩,
  ⟨0x44, 1, 4, [⟨31, 16, .w1cAll, true, 0⟩, ⟨15, 0, .ro, false, 0⟩]⟩,
  ⟨0x100, 1, 4, [⟨31, 31, .line, false, 0⟩, ⟨9, 8, .ro, false, 2⟩, ⟨7, 0, .line, false, 255⟩]⟩,
  ⟨0x104, 1, 4, [⟨31, 16, .line, false, 0⟩, ⟨15, 0, .line, false, 0⟩]⟩,
  ⟨0x108, 1, 4, [⟨31, 16, .ro, false, 0⟩, ⟨15, 0, .ro, false, 0⟩]⟩,
  ⟨0x10c, 1, 4, [⟨16, 8, .line, false, 0⟩, ⟨5, 0, .ro, false, 0⟩]⟩,
  ⟨0x120, 1, 4, [⟨31, 31, .line, false, 0⟩, ⟨9, 8, .line, false, 2⟩, ⟨7, 0, .line, false, 255⟩]⟩,
  ⟨0x124, 1, 4, [⟨31, 16, .line, false, 0⟩, ⟨15, 0, .line, false, 0⟩]⟩] ++
 [
  ⟨0x128, 1, 4, [⟨31, 16, .line, false, 0⟩, ⟨15, 0, .line, false, 0⟩]⟩,
  ⟨0x12c, 1, 4, [⟨16, 8, .line, false, 0⟩, ⟨5, 0, .line, false, 0⟩]⟩,
  ⟨0x140, 1, 4, [⟨31, 31, .line, false, 0⟩, ⟨9, 8, .line, false, 2⟩, ⟨7, 0, .line, false, 255⟩]⟩,
  ⟨0x144, 1, 4, [⟨31, 16, .line, false, 0⟩, ⟨15, 0, .line, false, 0⟩]⟩,
  ⟨0x148, 1, 4, [⟨31, 16, .line, false, 0⟩, ⟨15, 0, .line, false, 0⟩]⟩,
  ⟨0x14c, 1, 4, [⟨16, 8, .line, false, 0⟩, ⟨5, 0, .line, false, 0⟩]⟩,
  ⟨0x160, 1, 4, [⟨31, 31, .line, false, 0⟩, ⟨9, 8, .ro, false, 2⟩, ⟨7, 0, .line, false, 255⟩]⟩,
  ⟨0x164, 1, 4, [⟨31, 16, .line, false, 0⟩, ⟨15, 0, .line, false, 0⟩]⟩,
  ⟨0x168, 1, 4, [⟨31, 16, .ro, false, 0⟩, ⟨15, 0, .ro, false, 0⟩]⟩,
  ⟨0x16c, 1, 4, [⟨16, 8, .line, false, 0⟩, ⟨5, 0, .line, false, 0⟩]⟩]

/-- Registers of MGMT (18_management_port.md). -/
def regsMgmt : List RegDef := [
  ⟨0x0, 1, 4, [⟨31, 31, .rw, false, 1⟩, ⟨30, 30, .rw, false, 1⟩, ⟨29, 29, .rw, false, 1⟩, ⟨6, 0, .ro, false, 0⟩]⟩,
  ⟨0x4, 1, 4, [⟨23, 16, .rw, false, 10⟩, ⟨7, 0, .rw, false, 60⟩]⟩,
  ⟨0x8, 1, 4, [⟨31, 31, .ro, false, 0⟩, ⟨30, 30, .ro, false, 0⟩, ⟨29, 29, .ro, false, 0⟩, ⟨28, 28, .ro, false, 0⟩, ⟨15, 0, .ro, false, 0⟩]⟩,
  ⟨0xc, 1, 4, [⟨9, 0, .w1c, false, 0⟩]⟩,
  ⟨0x10, 1, 4, [⟨31, 0, .rw, false, 0⟩]⟩,
  ⟨0x14, 1, 4, [⟨15, 8, .rw, false, 0⟩, ⟨4, 4, .ro, false, 0⟩, ⟨3, 3, .ro, false, 0⟩, ⟨2, 2, .ro, false, 0⟩, ⟨1, 1, .ro, false, 0⟩, ⟨0, 0, .ro, false, 0⟩]⟩,
  ⟨0x18, 1, 4, [⟨2, 0, .rw, false, 0⟩]⟩,
  ⟨0x1c, 1, 4, [⟨31, 0, .ro, false, 0⟩]⟩,
  ⟨0x20, 1, 4, [⟨1, 1, .w1s, false, 0⟩, ⟨0, 0, .w1c, false, 0⟩]⟩,
  ⟨0x100, 64, 4, [⟨31, 0, .ro, true, 0⟩]⟩,
  ⟨0x200, 64, 4, [⟨31, 0, .rw, true, 0⟩]⟩]

/-- Registers of POWER (19_power_clocks_thermal.md). -/
def regsPower : List RegDef := [
  ⟨0x0, 1, 4, [⟨31, 31, .ro, false, 0⟩, ⟨29, 0, .ro, false, 1⟩]⟩,
  ⟨0x4, 1, 4, [⟨3, 3, .w1c, true, 0⟩, ⟨2, 2, .w1c, true, 0⟩, ⟨1, 1, .w1c, true, 0⟩, ⟨0, 0, .w1c, false, 0⟩]⟩,
  ⟨0x8, 1, 4, [⟨27, 25, .w1c, true, 0⟩, ⟨24, 24, .ro, false, 0⟩, ⟨23, 16, .w1c, true, 0⟩, ⟨15, 8, .ro, false, 0⟩, ⟨7, 0, .ro, false, 0⟩]⟩,
  ⟨0xc, 1, 4, [⟨31, 28, .ro, false, 0⟩, ⟨27, 24, .ro, false, 0⟩, ⟨23, 0, .ro, false, 0⟩]⟩]

/-- Registers of CLOCK (19_power_clocks_thermal.md). -/
def regsClock : List RegDef := [
  ⟨0x0, 1, 4, [⟨31, 31, .ro, false, 0⟩, ⟨30, 30, .ro, false, 1⟩, ⟨6, 0, .ro, false, 0⟩]⟩,
  ⟨0x4, 1, 4, [⟨2, 2, .w1c, false, 0⟩, ⟨1, 1, .w1c, false, 0⟩, ⟨0, 0, .w1c, true, 0⟩]⟩,
  ⟨0x8, 1, 4, [⟨7, 0, .ro, false, 0⟩]⟩,
  ⟨0xc, 1, 4, [⟨29, 0, .ro, false, 0⟩]⟩,
  ⟨0x10, 1, 4, [⟨31, 16, .w1cAll, true, 0⟩, ⟨15, 0, .w1cAll, true, 0⟩]⟩]

/-- Registers of THERM (19_power_clocks_thermal.md). -/
def regsTherm : List RegDef := [
  ⟨0x0, 1, 4, [⟨31, 31, .ro, false, 0⟩, ⟨30, 30, .ro, false, 0⟩, ⟨29, 29, .ro, true, 0⟩, ⟨28, 28, .ro, false, 0⟩, ⟨27, 24, .ro, false, 0⟩, ⟨19, 16, .ro, true, 0⟩, ⟨15, 0, .ro, false, 0⟩]⟩,
  ⟨0x4, 1, 4, [⟨4, 4, .w1c, true, 0⟩, ⟨3, 3, .w1c, false, 0⟩, ⟨2, 2, .w1c, false, 0⟩, ⟨1, 1, .w1c, false, 0⟩, ⟨0, 0, .w1c, true, 0⟩]⟩,
  ⟨0x8, 1, 4, [⟨13, 0, .ro, false, 10000⟩]⟩,
  ⟨0xc, 1, 4, [⟨31, 0, .ro, true, 0⟩]⟩,
  ⟨0x40, 12, 4, [⟨31, 31, .ro, false, 0⟩, ⟨30, 30, .ro, false, 0⟩, ⟨29, 29, .ro, false, 0⟩, ⟨15, 0, .ro, false, 0⟩]⟩]

/-- Registers of CALL (20_call_board_availability.md). -/
def regsCall : List RegDef := [
  ⟨0x0, 1, 4, [⟨31, 16, .rw, false, 100⟩, ⟨15, 8, .rw, false, 10⟩, ⟨3, 2, .rw, false, 1⟩]⟩,
  ⟨0x4, 1, 4, [⟨31, 31, .ro, false, 0⟩, ⟨30, 30, .ro, false, 0⟩, ⟨29, 29, .ro, false, 0⟩, ⟨28, 28, .w1c, true, 0⟩, ⟨27, 27, .w1c, true, 0⟩, ⟨26, 26, .ro, false, 0⟩, ⟨22, 16, .ro, false, 0⟩, ⟨11, 0, .ro, false, 0⟩]⟩,
  ⟨0x8, 1, 4, [⟨31, 0, .ro, true, 0⟩]⟩,
  ⟨0xc, 1, 4, [⟨11, 0, .rw, false, 0⟩]⟩,
  ⟨0x10, 1, 4, [⟨31, 0, .ro, false, 0⟩]⟩,
  ⟨0x14, 1, 4, [⟨31, 0, .wo, false, 0⟩]⟩,
  ⟨0x18, 1, 4, [⟨31, 0, .w1cAll, true, 0⟩]⟩,
  ⟨0x1c, 1, 4, [⟨31, 31, .ro, true, 0⟩, ⟨15, 0, .ro, true, 0⟩]⟩,
  ⟨0x20, 1, 4, [⟨31, 0, .ro, true, 0⟩]⟩,
  ⟨0x24, 1, 4, [⟨31, 31, .w1s, false, 0⟩, ⟨30, 30, .w1c, true, 0⟩, ⟨15, 0, .rw, false, 1000⟩]⟩,
  ⟨0x28, 1, 4, [⟨0, 0, .wo, false, 0⟩]⟩,
  ⟨0x2c, 1, 4, [⟨31, 31, .w1s, false, 0⟩, ⟨30, 30, .w1c, true, 0⟩, ⟨15, 0, .rw, false, 100⟩]⟩,
  ⟨0x30, 1, 4, [⟨0, 0, .wo, false, 0⟩]⟩,
  ⟨0x34, 1, 4, [⟨0, 0, .wo, false, 0⟩]⟩,
  ⟨0x38, 1, 4, [⟨31, 16, .w1cAll, true, 0⟩, ⟨15, 0, .w1cAll, true, 0⟩]⟩,
  ⟨0x3c, 1, 4, [⟨31, 30, .wo, false, 0⟩, ⟨19, 12, .wo, false, 0⟩, ⟨9, 0, .wo, false, 0⟩]⟩,
  ⟨0x40, 1, 4, [⟨31, 0, .rw, false, 0⟩]⟩,
  ⟨0x100, 8, 4, [⟨31, 0, .ro, false, 0⟩]⟩]

/-- Registers of NVMC (03_dawn_trust_presence.md). -/
def regsNvmc : List RegDef := [
  ⟨0x0, 1, 4, [⟨2, 0, .wo, false, 0⟩]⟩,
  ⟨0x4, 1, 4, [⟨25, 0, .rw, false, 0⟩]⟩,
  ⟨0x8, 1, 4, [⟨31, 16, .w1cAll, true, 0⟩, ⟨3, 3, .ro, false, 0⟩, ⟨2, 2, .w1c, false, 0⟩, ⟨1, 1, .w1c, false, 0⟩, ⟨0, 0, .ro, false, 0⟩]⟩,
  ⟨0xc, 1, 4, [⟨31, 0, .ro, false, 0⟩]⟩,
  ⟨0x10, 1, 4, [⟨31, 16, .ro, false, 0⟩, ⟨15, 0, .ro, false, 0⟩]⟩,
  ⟨0x100, 64, 4, [⟨31, 0, .rw, false, 0⟩]⟩]

def SYS_ID.PART : Fld := ⟨0x0, 16, 16⟩
def SYS_ID.DIE_STEP : Fld := ⟨0x0, 8, 8⟩
def SYS_RESET_CAUSE.COMPANY_RESTART : Fld := ⟨0x4, 5, 1⟩
def SYS_RESET_CAUSE.CURTAIN : Fld := ⟨0x4, 4, 1⟩
def SYS_RESET_CAUSE.WARM_CMD : Fld := ⟨0x4, 3, 1⟩
def SYS_RESET_CAUSE.WARM_PIN : Fld := ⟨0x4, 2, 1⟩
def SYS_RESET_CAUSE.SAFE_STATE : Fld := ⟨0x4, 1, 1⟩
def SYS_RESET_CAUSE.COLD : Fld := ⟨0x4, 0, 1⟩
def SYS_DB_TO_SM.BELL : Fld := ⟨0x8, 1, 31⟩
def SYS_DB_TO_SM.MSG : Fld := ⟨0x8, 0, 1⟩
def SYS_DB_TO_CO.BELL : Fld := ⟨0xc, 1, 31⟩
def SYS_DB_TO_CO.MSG : Fld := ⟨0xc, 0, 1⟩
def SYS_MBOX_CTRL.TO_CO_OVW : Fld := ⟨0x10, 3, 1⟩
def SYS_MBOX_CTRL.TO_SM_OVW : Fld := ⟨0x10, 2, 1⟩
def SYS_MBOX_CTRL.CO_TARGET : Fld := ⟨0x10, 0, 2⟩
def SYS_MBOX_TO_SM.DATA (i : Nat) : Fld := ⟨0x100 + 4 * i, 0, 32⟩
def SYS_MBOX_TO_CO.DATA (i : Nat) : Fld := ⟨0x200 + 4 * i, 0, 32⟩

def CUE_CTRL.REFSRC : Fld := ⟨0x10000, 0, 3⟩
def CUE_STATUS.SYNTH : Fld := ⟨0x10004, 11, 1⟩
def CUE_STATUS.LATE : Fld := ⟨0x10004, 10, 1⟩
def CUE_STATUS.DEPTH : Fld := ⟨0x10004, 7, 3⟩
def CUE_STATUS.STATE : Fld := ⟨0x10004, 5, 2⟩
def CUE_STATUS.XFER : Fld := ⟨0x10004, 4, 1⟩
def CUE_STATUS.PORTS_HELD : Fld := ⟨0x10004, 3, 1⟩
def CUE_STATUS.MODE : Fld := ⟨0x10004, 0, 3⟩
def CUE_OP.OP : Fld := ⟨0x10008, 10, 3⟩
def CUE_OP.LEVEL : Fld := ⟨0x10008, 8, 2⟩
def CUE_OP.CUE : Fld := ⟨0x10008, 0, 6⟩
def CUE_COMMIT.GO : Fld := ⟨0x1000c, 0, 1⟩
def CUE_ACTIVE.MODE_CUE : Fld := ⟨0x10010, 24, 6⟩
def CUE_ACTIVE.L1 : Fld := ⟨0x10010, 18, 6⟩
def CUE_ACTIVE.L2 : Fld := ⟨0x10010, 12, 6⟩
def CUE_ACTIVE.L3 : Fld := ⟨0x10010, 6, 6⟩
def CUE_ACTIVE.L4 : Fld := ⟨0x10010, 0, 6⟩
def CUE_PENDING.MODE_CUE : Fld := ⟨0x10014, 24, 6⟩
def CUE_PENDING.L1 : Fld := ⟨0x10014, 18, 6⟩
def CUE_PENDING.L2 : Fld := ⟨0x10014, 12, 6⟩
def CUE_PENDING.L3 : Fld := ⟨0x10014, 6, 6⟩
def CUE_PENDING.L4 : Fld := ⟨0x10014, 0, 6⟩
def CUE_EPOCH.EPOCH : Fld := ⟨0x10018, 0, 32⟩
def CUE_REF_TIMEOUT.MS : Fld := ⟨0x1001c, 0, 10⟩
def CUE_POINT_NS.DATA : Fld := ⟨0x10020, 0, 32⟩
def CUE_POINT_SEC.DATA : Fld := ⟨0x10024, 0, 32⟩
def CUE_POINT_FRAME_LO.DATA : Fld := ⟨0x10028, 0, 32⟩
def CUE_POINT_FRAME_HI.DATA : Fld := ⟨0x1002c, 0, 32⟩
def CUE_COUNT.LATE : Fld := ⟨0x10030, 16, 16⟩
def CUE_COUNT.MERGED : Fld := ⟨0x10030, 0, 16⟩
def CUE_LOAD_SRC.ADDR : Fld := ⟨0x10034, 0, 32⟩
def CUE_LOAD_CTRL.FAIL : Fld := ⟨0x10038, 8, 1⟩
def CUE_LOAD_CTRL.BUSY : Fld := ⟨0x10038, 7, 1⟩
def CUE_LOAD_CTRL.GO : Fld := ⟨0x10038, 6, 1⟩
def CUE_LOAD_CTRL.SLOT : Fld := ⟨0x10038, 0, 6⟩
def CUE_VALID_LO.DATA : Fld := ⟨0x1003c, 0, 32⟩
def CUE_VALID_HI.DATA : Fld := ⟨0x10040, 0, 32⟩
def CUE_SEL.EN (i : Nat) : Fld := ⟨0x10100 + 4 * i, 31, 1⟩
def CUE_SEL.AUTO (i : Nat) : Fld := ⟨0x10100 + 4 * i, 30, 1⟩
def CUE_SEL.EDGE (i : Nat) : Fld := ⟨0x10100 + 4 * i, 28, 2⟩
def CUE_SEL.SRC (i : Nat) : Fld := ⟨0x10100 + 4 * i, 25, 3⟩
def CUE_SEL.SRC_IDX (i : Nat) : Fld := ⟨0x10100 + 4 * i, 19, 6⟩
def CUE_SEL.OP (i : Nat) : Fld := ⟨0x10100 + 4 * i, 16, 3⟩
def CUE_SEL.LEVEL (i : Nat) : Fld := ⟨0x10100 + 4 * i, 14, 2⟩
def CUE_SEL.CUE (i : Nat) : Fld := ⟨0x10100 + 4 * i, 0, 6⟩

def TRUST_STATUS.FLOOR : Fld := ⟨0x20000, 24, 8⟩
def TRUST_STATUS.RUN_ROLLBACK : Fld := ⟨0x20000, 16, 8⟩
def TRUST_STATUS.MAKER_IDX : Fld := ⟨0x20000, 14, 2⟩
def TRUST_STATUS.MAKER_ENROLLED : Fld := ⟨0x20000, 13, 1⟩
def TRUST_STATUS.ENTROPY_FAIL : Fld := ⟨0x20000, 12, 1⟩
def TRUST_STATUS.BOOT_FAIL : Fld := ⟨0x20000, 11, 1⟩
def TRUST_STATUS.FALLBACK : Fld := ⟨0x20000, 10, 1⟩
def TRUST_STATUS.SLOT : Fld := ⟨0x20000, 9, 1⟩
def TRUST_STATUS.AVAIL_Q : Fld := ⟨0x20000, 8, 1⟩
def TRUST_STATUS.OPENED : Fld := ⟨0x20000, 7, 1⟩
def TRUST_STATUS.LIFECYCLE : Fld := ⟨0x20000, 0, 3⟩
def TRUST_PRESENCE.WINDOW_S : Fld := ⟨0x20004, 8, 8⟩
def TRUST_PRESENCE.PRIV : Fld := ⟨0x20004, 3, 1⟩
def TRUST_PRESENCE.SEAL_OK : Fld := ⟨0x20004, 2, 1⟩
def TRUST_PRESENCE.JMP : Fld := ⟨0x20004, 1, 1⟩
def TRUST_PRESENCE.PRESS : Fld := ⟨0x20004, 0, 1⟩
def TRUST_CTRL.ADVANCE : Fld := ⟨0x20008, 1, 1⟩
def TRUST_CTRL.CONFIRM : Fld := ⟨0x20008, 0, 1⟩
def TRUST_PRIV_REQ.BUSY : Fld := ⟨0x2000c, 31, 1⟩
def TRUST_PRIV_REQ.DENIED : Fld := ⟨0x2000c, 30, 1⟩
def TRUST_PRIV_REQ.ACTION : Fld := ⟨0x2000c, 0, 4⟩
def TRUST_SIGN_CTRL.BUSY : Fld := ⟨0x20010, 31, 1⟩
def TRUST_SIGN_CTRL.DONE : Fld := ⟨0x20010, 30, 1⟩
def TRUST_SIGN_CTRL.REFUSED : Fld := ⟨0x20010, 29, 1⟩
def TRUST_SIGN_CTRL.DOMAIN : Fld := ⟨0x20010, 0, 2⟩
def TRUST_SIGN_ADDR.ADDR : Fld := ⟨0x20014, 0, 32⟩
def TRUST_SEAL_COUNT.BREAKS : Fld := ⟨0x20018, 0, 32⟩
def TRUST_DEVICE_ID.DATA (i : Nat) : Fld := ⟨0x20020 + 4 * i, 0, 32⟩

def INGEST_CTRL.STITCH (p : Nat) : Fld := ⟨0x40000 + 0x4000 * p, 6, 1⟩
def INGEST_CTRL.GANG (p : Nat) : Fld := ⟨0x40000 + 0x4000 * p, 4, 2⟩
def INGEST_CTRL.LANES (p : Nat) : Fld := ⟨0x40000 + 0x4000 * p, 1, 3⟩
def INGEST_CTRL.EN (p : Nat) : Fld := ⟨0x40000 + 0x4000 * p, 0, 1⟩
def INGEST_RATE.MBPS (p : Nat) : Fld := ⟨0x40004 + 0x4000 * p, 0, 14⟩
def INGEST_TIMEOUT.FRAME_MS (p : Nat) : Fld := ⟨0x40008 + 0x4000 * p, 16, 16⟩
def INGEST_TIMEOUT.LINE_US (p : Nat) : Fld := ⟨0x40008 + 0x4000 * p, 0, 16⟩
def INGEST_FILL.VALUE (p : Nat) : Fld := ⟨0x4000c + 0x4000 * p, 0, 20⟩
def INGEST_LAT.NS (p : Nat) : Fld := ⟨0x40010 + 0x4000 * p, 0, 20⟩
def INGEST_SKEW.US (p : Nat) : Fld := ⟨0x40014 + 0x4000 * p, 0, 16⟩
def INGEST_STATUS.OPEN (p : Nat) : Fld := ⟨0x40018 + 0x4000 * p, 12, 4⟩
def INGEST_STATUS.STOP (p : Nat) : Fld := ⟨0x40018 + 0x4000 * p, 11, 1⟩
def INGEST_STATUS.ULPS (p : Nat) : Fld := ⟨0x40018 + 0x4000 * p, 10, 1⟩
def INGEST_STATUS.GANG_ACTIVE (p : Nat) : Fld := ⟨0x40018 + 0x4000 * p, 9, 1⟩
def INGEST_STATUS.BAD_CFG (p : Nat) : Fld := ⟨0x40018 + 0x4000 * p, 8, 1⟩
def INGEST_STATUS.HS (p : Nat) : Fld := ⟨0x40018 + 0x4000 * p, 0, 8⟩
def INGEST_EVENT.TYPE (p : Nat) : Fld := ⟨0x4001c + 0x4000 * p, 0, 15⟩
def INGEST_FS_NS.DATA (p : Nat) : Fld := ⟨0x40020 + 0x4000 * p, 0, 32⟩
def INGEST_FS_SEC.DATA (p : Nat) : Fld := ⟨0x40024 + 0x4000 * p, 0, 32⟩
def INGEST_FRAMES_LO.DATA (p : Nat) : Fld := ⟨0x40028 + 0x4000 * p, 0, 32⟩
def INGEST_FRAMES_HI.DATA (p : Nat) : Fld := ⟨0x4002c + 0x4000 * p, 0, 32⟩
def INGEST_CNT_CTRL.CLEAR (p : Nat) : Fld := ⟨0x40030 + 0x4000 * p, 0, 1⟩
def INGEST_MCLK.EN (p : Nat) : Fld := ⟨0x40034 + 0x4000 * p, 16, 1⟩
def INGEST_MCLK.DIV (p : Nat) : Fld := ⟨0x40034 + 0x4000 * p, 0, 16⟩
def INGEST_SRST.RELEASE (p : Nat) : Fld := ⟨0x40038 + 0x4000 * p, 0, 1⟩
def INGEST_XTRIG.EN (p : Nat) : Fld := ⟨0x4003c + 0x4000 * p, 31, 1⟩
def INGEST_XTRIG.POL (p : Nat) : Fld := ⟨0x4003c + 0x4000 * p, 30, 1⟩
def INGEST_XTRIG.SRC (p : Nat) : Fld := ⟨0x4003c + 0x4000 * p, 28, 2⟩
def INGEST_XTRIG.MISSED (p : Nat) : Fld := ⟨0x4003c + 0x4000 * p, 20, 8⟩
def INGEST_XTRIG.WIDTH (p : Nat) : Fld := ⟨0x4003c + 0x4000 * p, 0, 20⟩
def INGEST_XADV.NS (p : Nat) : Fld := ⟨0x40040 + 0x4000 * p, 0, 20⟩
def INGEST_XPULSE.GO (p : Nat) : Fld := ⟨0x40044 + 0x4000 * p, 0, 1⟩
def INGEST_SPI_CFG.LSB_FIRST (p : Nat) : Fld := ⟨0x40080 + 0x4000 * p, 10, 1⟩
def INGEST_SPI_CFG.MODE (p : Nat) : Fld := ⟨0x40080 + 0x4000 * p, 8, 2⟩
def INGEST_SPI_CFG.DIV (p : Nat) : Fld := ⟨0x40080 + 0x4000 * p, 0, 8⟩
def INGEST_SPI_CMD.GO (p : Nat) : Fld := ⟨0x40084 + 0x4000 * p, 31, 1⟩
def INGEST_SPI_CMD.CS (p : Nat) : Fld := ⟨0x40084 + 0x4000 * p, 8, 2⟩
def INGEST_SPI_CMD.LEN (p : Nat) : Fld := ⟨0x40084 + 0x4000 * p, 0, 7⟩
def INGEST_SPI_STATUS.SCRIPT_ERR (p : Nat) : Fld := ⟨0x40088 + 0x4000 * p, 4, 1⟩
def INGEST_SPI_STATUS.SCRIPT_RUN (p : Nat) : Fld := ⟨0x40088 + 0x4000 * p, 3, 1⟩
def INGEST_SPI_STATUS.REFUSED (p : Nat) : Fld := ⟨0x40088 + 0x4000 * p, 2, 1⟩
def INGEST_SPI_STATUS.DONE (p : Nat) : Fld := ⟨0x40088 + 0x4000 * p, 1, 1⟩
def INGEST_SPI_STATUS.BUSY (p : Nat) : Fld := ⟨0x40088 + 0x4000 * p, 0, 1⟩
def INGEST_SPI_BUF.DATA (p : Nat) (i : Nat) : Fld := ⟨0x400c0 + 0x4000 * p + 4 * i, 0, 32⟩
def INGEST_DESC.DATA (p : Nat) (i : Nat) : Fld := ⟨0x40200 + 0x4000 * p + 4 * i, 0, 32⟩
def INGEST_CNT.COUNT (p : Nat) (i : Nat) : Fld := ⟨0x41000 + 0x4000 * p + 4 * i, 0, 32⟩

def PIPE_CTRL.EN : Fld := ⟨0x80000, 31, 1⟩
def PIPE_CTRL.DIR_RATIO : Fld := ⟨0x80000, 23, 8⟩
def PIPE_CTRL.DAMAGE_FILL : Fld := ⟨0x80000, 15, 1⟩
def PIPE_CTRL.BYP_TONE : Fld := ⟨0x80000, 7, 1⟩
def PIPE_CTRL.LUT_EN : Fld := ⟨0x80000, 6, 1⟩
def PIPE_CTRL.BYP_MATRIX : Fld := ⟨0x80000, 5, 1⟩
def PIPE_CTRL.BYP_WB : Fld := ⟨0x80000, 4, 1⟩
def PIPE_CTRL.BYP_FLAT : Fld := ⟨0x80000, 3, 1⟩
def PIPE_CTRL.BYP_DEFECT : Fld := ⟨0x80000, 2, 1⟩
def PIPE_CTRL.BYP_BLACK : Fld := ⟨0x80000, 1, 1⟩
def PIPE_BLACK.LEVEL (i : Nat) : Fld := ⟨0x80004 + 4 * i, 0, 20⟩
def PIPE_WB_R_GR.R : Fld := ⟨0x80014, 16, 16⟩
def PIPE_WB_R_GR.GR : Fld := ⟨0x80014, 0, 16⟩
def PIPE_WB_GB_B.GB : Fld := ⟨0x80018, 16, 16⟩
def PIPE_WB_GB_B.B : Fld := ⟨0x80018, 0, 16⟩
def PIPE_DEFECT_COUNT.COUNT : Fld := ⟨0x8001c, 0, 21⟩
def PIPE_PORT.EN (i : Nat) : Fld := ⟨0x80020 + 4 * i, 31, 1⟩
def PIPE_PORT.WEIGHT (i : Nat) : Fld := ⟨0x80020 + 4 * i, 27, 4⟩
def PIPE_PORT.LAG_MAX (i : Nat) : Fld := ⟨0x80020 + 4 * i, 23, 4⟩
def PIPE_PORT.DECIM (i : Nat) : Fld := ⟨0x80020 + 4 * i, 0, 16⟩
def PIPE_STATUS.QUARTERS : Fld := ⟨0x80030, 28, 4⟩
def PIPE_STATUS.BUSY : Fld := ⟨0x80030, 24, 4⟩
def PIPE_STATUS.WAITING : Fld := ⟨0x80030, 20, 4⟩
def PIPE_STATUS.TABLE_REFRESH : Fld := ⟨0x80030, 19, 1⟩
def PIPE_EVENT.BAD_HEAD : Fld := ⟨0x80034, 6, 1⟩
def PIPE_EVENT.TABLE_PARITY : Fld := ⟨0x80034, 5, 1⟩
def PIPE_EVENT.DEFECT_ORDER : Fld := ⟨0x80034, 4, 1⟩
def PIPE_EVENT.DROP : Fld := ⟨0x80034, 3, 1⟩
def PIPE_EVENT.SKIP : Fld := ⟨0x80034, 2, 1⟩
def PIPE_EVENT.DAMAGED : Fld := ⟨0x80034, 1, 1⟩
def PIPE_EVENT.REPLAY : Fld := ⟨0x80034, 0, 1⟩
def PIPE_BUF_FREE.PORT3 : Fld := ⟨0x80038, 15, 5⟩
def PIPE_BUF_FREE.PORT2 : Fld := ⟨0x80038, 10, 5⟩
def PIPE_BUF_FREE.PORT1 : Fld := ⟨0x80038, 5, 5⟩
def PIPE_BUF_FREE.PORT0 : Fld := ⟨0x80038, 0, 5⟩
def PIPE_CNT_REPLAY.COUNT : Fld := ⟨0x8003c, 0, 32⟩
def PIPE_CNT_DAMAGED.COUNT : Fld := ⟨0x80040, 0, 32⟩
def PIPE_CNT_SKIP.COUNT : Fld := ⟨0x80044, 0, 32⟩
def PIPE_CNT_DROP.COUNT : Fld := ⟨0x80048, 0, 32⟩
def PIPE_CNT_DEFECT.COUNT : Fld := ⟨0x8004c, 0, 32⟩
def PIPE_CNT_CTRL.CLEAR : Fld := ⟨0x80050, 0, 1⟩

def CELL_CTRL.EN : Fld := ⟨0xc0000, 31, 1⟩
def CELL_CTRL.FILL_SUPPRESS : Fld := ⟨0xc0000, 30, 1⟩
def CELL_CTRL.DESC : Fld := ⟨0xc0000, 4, 2⟩
def CELL_CTRL.PORT : Fld := ⟨0xc0000, 0, 2⟩
def CELL_GRID.CH : Fld := ⟨0xc0004, 16, 8⟩
def CELL_GRID.CW : Fld := ⟨0xc0004, 0, 8⟩
def CELL_MAP_CTRL.EN : Fld := ⟨0xc0008, 31, 1⟩
def CELL_MAP_CTRL.SLOTS : Fld := ⟨0xc0008, 0, 7⟩
def CELL_MAP_BASE_LO.ADDR : Fld := ⟨0xc000c, 12, 20⟩
def CELL_MAP_BASE_HI.ADDR : Fld := ⟨0xc0010, 0, 8⟩
def CELL_STATUS.BAD_GRID : Fld := ⟨0xc0014, 31, 1⟩
def CELL_STATUS.BAD_SRC : Fld := ⟨0xc0014, 30, 1⟩
def CELL_STATUS.BAD_MAP : Fld := ⟨0xc0014, 29, 1⟩
def CELL_STATUS.ACTIVE : Fld := ⟨0xc0014, 28, 1⟩
def CELL_STATUS.COLS : Fld := ⟨0xc0014, 16, 9⟩
def CELL_STATUS.ROWS : Fld := ⟨0xc0014, 8, 8⟩
def CELL_EVENT.PARITY : Fld := ⟨0xc0018, 5, 1⟩
def CELL_EVENT.BAD_MAP : Fld := ⟨0xc0018, 4, 1⟩
def CELL_EVENT.BAD_TERM : Fld := ⟨0xc0018, 3, 1⟩
def CELL_EVENT.BAD_GRID : Fld := ⟨0xc0018, 2, 1⟩
def CELL_EVENT.SUPPRESSED : Fld := ⟨0xc0018, 1, 1⟩
def CELL_EVENT.FIRE : Fld := ⟨0xc0018, 0, 1⟩
def CELL_LVL_LO.LEVEL : Fld := ⟨0xc001c, 0, 32⟩
def CELL_LVL_HI.LEVEL : Fld := ⟨0xc0020, 0, 32⟩
def CELL_FIRED_LO.FIRED : Fld := ⟨0xc0024, 0, 32⟩
def CELL_FIRED_HI.FIRED : Fld := ⟨0xc0028, 0, 32⟩
def CELL_GSEL.GROUP : Fld := ⟨0xc002c, 0, 6⟩
def CELL_GCOUNT.LAST : Fld := ⟨0xc0030, 16, 16⟩
def CELL_GCOUNT.NOW : Fld := ⟨0xc0030, 0, 16⟩
def CELL_GFRAME_LO.DATA : Fld := ⟨0xc0034, 0, 32⟩
def CELL_GFRAME_HI.DATA : Fld := ⟨0xc0038, 0, 32⟩
def CELL_FRAME_LO.DATA : Fld := ⟨0xc003c, 0, 32⟩
def CELL_FRAME_HI.DATA : Fld := ⟨0xc0040, 0, 32⟩
def CELL_REARM.GO : Fld := ⟨0xc0044, 0, 1⟩
def CELL_CNT_BADCFG.COUNT : Fld := ⟨0xc0048, 0, 32⟩
def CELL_CNT_PARITY.COUNT : Fld := ⟨0xc004c, 0, 32⟩
def CELL_CNT_CTRL.CLEAR : Fld := ⟨0xc0050, 0, 1⟩

def LEDGER_CTRL.TRIG_EN : Fld := ⟨0x100000, 31, 1⟩
def LEDGER_STATUS.IN_FLIGHT : Fld := ⟨0x100004, 15, 17⟩
def LEDGER_STATUS.RANGE : Fld := ⟨0x100004, 11, 4⟩
def LEDGER_STATUS.PART_OK : Fld := ⟨0x100004, 7, 4⟩
def LEDGER_STATUS.PART_DEFER : Fld := ⟨0x100004, 6, 1⟩
def LEDGER_EVENT.AUDIT_FAIL : Fld := ⟨0x100008, 8, 1⟩
def LEDGER_EVENT.BAD_CFG : Fld := ⟨0x100008, 7, 1⟩
def LEDGER_EVENT.SW_REPLACED : Fld := ⟨0x100008, 6, 1⟩
def LEDGER_EVENT.STUCK : Fld := ⟨0x100008, 5, 1⟩
def LEDGER_EVENT.SPILL_LOST : Fld := ⟨0x100008, 4, 1⟩
def LEDGER_EVENT.LEDGER_FULL : Fld := ⟨0x100008, 3, 1⟩
def LEDGER_EVENT.RING_FULL : Fld := ⟨0x100008, 2, 1⟩
def LEDGER_EVENT.PRE_SHORT : Fld := ⟨0x100008, 1, 1⟩
def LEDGER_EVENT.FIRE : Fld := ⟨0x100008, 0, 1⟩
def LEDGER_FIRST_LO.DATA : Fld := ⟨0x10000c, 0, 32⟩
def LEDGER_FIRST_HI.DATA : Fld := ⟨0x100010, 0, 32⟩
def LEDGER_NEXT_LO.DATA : Fld := ⟨0x100014, 0, 32⟩
def LEDGER_NEXT_HI.DATA : Fld := ⟨0x100018, 0, 32⟩
def LEDGER_SPILL_BASE_LO.ADDR : Fld := ⟨0x10001c, 12, 20⟩
def LEDGER_SPILL_BASE_HI.ADDR : Fld := ⟨0x100020, 0, 8⟩
def LEDGER_SPILL_SIZE.EN : Fld := ⟨0x100024, 31, 1⟩
def LEDGER_SPILL_SIZE.LOG2 : Fld := ⟨0x100024, 0, 5⟩
def LEDGER_SPILL_WR.WR : Fld := ⟨0x100028, 0, 32⟩
def LEDGER_SPILL_RD.RD : Fld := ⟨0x10002c, 0, 32⟩
def LEDGER_SPILL_LOST.LOST : Fld := ⟨0x100030, 0, 32⟩
def LEDGER_SWTRIG.TIMED : Fld := ⟨0x100034, 8, 1⟩
def LEDGER_SWTRIG.INPUT : Fld := ⟨0x100034, 0, 2⟩
def LEDGER_SWTIME_NS.NS : Fld := ⟨0x100038, 0, 32⟩
def LEDGER_SWTIME_SEC.SEC : Fld := ⟨0x10003c, 0, 32⟩
def LEDGER_PIN_STATUS.LEVEL : Fld := ⟨0x100040, 16, 8⟩
def LEDGER_PIN_STATUS.STUCK : Fld := ⟨0x100040, 8, 8⟩
def LEDGER_PIN_STATUS.OUT : Fld := ⟨0x100040, 0, 8⟩
def LEDGER_TLOG_WR.WR : Fld := ⟨0x100044, 0, 32⟩
def LEDGER_AUDIT_SEL.PATH : Fld := ⟨0x100048, 8, 5⟩
def LEDGER_AUDIT_SEL.INDEX : Fld := ⟨0x100048, 0, 3⟩
def LEDGER_AUDIT_VAL_LO.VALUE : Fld := ⟨0x10004c, 0, 32⟩
def LEDGER_AUDIT_VAL_HI.VALUE : Fld := ⟨0x100050, 0, 32⟩
def LEDGER_AUDIT_FAIL.PATH : Fld := ⟨0x100054, 0, 20⟩
def LEDGER_PINCNT.DISCARDED (i : Nat) : Fld := ⟨0x100060 + 4 * i, 16, 16⟩
def LEDGER_PINCNT.FILTERED (i : Nat) : Fld := ⟨0x100060 + 4 * i, 0, 16⟩
def LEDGER_TLOG.DATA (i : Nat) : Fld := ⟨0x100400 + 4 * i, 0, 32⟩

def RAWC_STATUS.ENC_BUSY : Fld := ⟨0x140000, 31, 1⟩
def RAWC_STATUS.DEC_BUSY : Fld := ⟨0x140000, 30, 1⟩
def RAWC_STATUS.LANES : Fld := ⟨0x140000, 24, 6⟩
def RAWC_STATUS.BACKLOG : Fld := ⟨0x140000, 0, 24⟩
def RAWC_EVENT.DEC_ERR : Fld := ⟨0x140004, 7, 1⟩
def RAWC_EVENT.INDEX : Fld := ⟨0x140004, 6, 1⟩
def RAWC_EVENT.GRID_DOUBLED : Fld := ⟨0x140004, 5, 1⟩
def RAWC_EVENT.BAD_ENTRY : Fld := ⟨0x140004, 4, 1⟩
def RAWC_EVENT.MAP_MISSING : Fld := ⟨0x140004, 3, 1⟩
def RAWC_EVENT.POISON : Fld := ⟨0x140004, 2, 1⟩
def RAWC_EVENT.DAMAGED : Fld := ⟨0x140004, 1, 1⟩
def RAWC_EVENT.RECODE : Fld := ⟨0x140004, 0, 1⟩
def RAWC_CUR_LO.DATA : Fld := ⟨0x140008, 0, 32⟩
def RAWC_CUR_HI.DATA : Fld := ⟨0x14000c, 0, 32⟩
def RAWC_CNT_RECODE.COUNT : Fld := ⟨0x140010, 0, 32⟩
def RAWC_CNT_DAMAGED.COUNT : Fld := ⟨0x140014, 0, 32⟩
def RAWC_CNT_VERBATIM.COUNT : Fld := ⟨0x140018, 0, 32⟩
def RAWC_CNT_CTRL.CLEAR : Fld := ⟨0x14001c, 0, 1⟩
def RAWC_DEC_SRC_LO.ADDR : Fld := ⟨0x140040, 3, 29⟩
def RAWC_DEC_SRC_HI.ADDR : Fld := ⟨0x140044, 0, 8⟩
def RAWC_DEC_LEN.BYTES : Fld := ⟨0x140048, 0, 32⟩
def RAWC_DEC_DST_LO.ADDR : Fld := ⟨0x14004c, 12, 20⟩
def RAWC_DEC_DST_HI.ADDR : Fld := ⟨0x140050, 0, 8⟩
def RAWC_DEC_DST_SIZE.BYTES : Fld := ⟨0x140054, 0, 32⟩
def RAWC_DEC_CTRL.GO : Fld := ⟨0x140058, 31, 1⟩
def RAWC_DEC_CTRL.PLAY : Fld := ⟨0x140058, 30, 1⟩
def RAWC_DEC_CTRL.FILL : Fld := ⟨0x140058, 0, 20⟩
def RAWC_DEC_STATUS.BUSY : Fld := ⟨0x14005c, 31, 1⟩
def RAWC_DEC_STATUS.DONE : Fld := ⟨0x14005c, 30, 1⟩
def RAWC_DEC_STATUS.BAD_FRAME : Fld := ⟨0x14005c, 29, 1⟩
def RAWC_DEC_STATUS.REFUSED : Fld := ⟨0x14005c, 28, 1⟩
def RAWC_DEC_STATUS.REASON : Fld := ⟨0x14005c, 24, 4⟩
def RAWC_DEC_STATUS.WALKED : Fld := ⟨0x14005c, 23, 1⟩
def RAWC_DEC_CELLS.BAD : Fld := ⟨0x140060, 16, 16⟩
def RAWC_DEC_CELLS.CRC : Fld := ⟨0x140060, 0, 16⟩

def HEVE_CTRL.EN (p : Nat) : Fld := ⟨0x180000 + 0x8000 * p, 31, 1⟩
def HEVE_CTRL.LOWLAT (p : Nat) : Fld := ⟨0x180000 + 0x8000 * p, 30, 1⟩
def HEVE_CTRL.SPOT (p : Nat) : Fld := ⟨0x180000 + 0x8000 * p, 29, 1⟩
def HEVE_CTRL.SPOT_SRC (p : Nat) : Fld := ⟨0x180000 + 0x8000 * p, 28, 1⟩
def HEVE_CTRL.RC (p : Nat) : Fld := ⟨0x180000 + 0x8000 * p, 27, 1⟩
def HEVE_CTRL.TIER (p : Nat) : Fld := ⟨0x180000 + 0x8000 * p, 26, 1⟩
def HEVE_CTRL.GANG (p : Nat) : Fld := ⟨0x180000 + 0x8000 * p, 24, 2⟩
def HEVE_CTRL.LEVEL_IDC (p : Nat) : Fld := ⟨0x180000 + 0x8000 * p, 16, 8⟩
def HEVE_CTRL.PROFILE (p : Nat) : Fld := ⟨0x180000 + 0x8000 * p, 12, 4⟩
def HEVE_CTRL.WAIT_MAX (p : Nat) : Fld := ⟨0x180000 + 0x8000 * p, 8, 4⟩
def HEVE_CTRL.PORT (p : Nat) : Fld := ⟨0x180000 + 0x8000 * p, 0, 2⟩
def HEVE_GOP.GOP_LEN (p : Nat) : Fld := ⟨0x180004 + 0x8000 * p, 16, 16⟩
def HEVE_GOP.TMVP (p : Nat) : Fld := ⟨0x180004 + 0x8000 * p, 9, 1⟩
def HEVE_GOP.SAO (p : Nat) : Fld := ⟨0x180004 + 0x8000 * p, 8, 1⟩
def HEVE_GOP.DBK (p : Nat) : Fld := ⟨0x180004 + 0x8000 * p, 7, 1⟩
def HEVE_GOP.REFS (p : Nat) : Fld := ⟨0x180004 + 0x8000 * p, 0, 2⟩
def HEVE_STRUCT.SLICE_ROWS (p : Nat) : Fld := ⟨0x180008 + 0x8000 * p, 16, 8⟩
def HEVE_STRUCT.WPP (p : Nat) : Fld := ⟨0x180008 + 0x8000 * p, 15, 1⟩
def HEVE_STRUCT.TILE_COLS (p : Nat) : Fld := ⟨0x180008 + 0x8000 * p, 8, 4⟩
def HEVE_QP.QP_MAX (p : Nat) : Fld := ⟨0x18000c + 0x8000 * p, 24, 8⟩
def HEVE_QP.QP_MIN (p : Nat) : Fld := ⟨0x18000c + 0x8000 * p, 16, 8⟩
def HEVE_QP.QP_INIT (p : Nat) : Fld := ⟨0x18000c + 0x8000 * p, 8, 8⟩
def HEVE_QP.I_OFFSET (p : Nat) : Fld := ⟨0x18000c + 0x8000 * p, 0, 8⟩
def HEVE_RATE.KBPS (p : Nat) : Fld := ⟨0x180010 + 0x8000 * p, 0, 21⟩
def HEVE_CPB.KBIT (p : Nat) : Fld := ⟨0x180014 + 0x8000 * p, 0, 21⟩
def HEVE_CPB_INIT.DELAY_90K (p : Nat) : Fld := ⟨0x180018 + 0x8000 * p, 0, 20⟩
def HEVE_TIME_SCALE.SCALE (p : Nat) : Fld := ⟨0x18001c + 0x8000 * p, 0, 32⟩
def HEVE_TICK.TICK (p : Nat) : Fld := ⟨0x180020 + 0x8000 * p, 0, 32⟩
def HEVE_VUI.PRIMARIES (p : Nat) : Fld := ⟨0x180024 + 0x8000 * p, 16, 8⟩
def HEVE_VUI.TRANSFER (p : Nat) : Fld := ⟨0x180024 + 0x8000 * p, 8, 8⟩
def HEVE_VUI.MATRIX (p : Nat) : Fld := ⟨0x180024 + 0x8000 * p, 0, 8⟩
def HEVE_MOSAIC.WIN_US (p : Nat) : Fld := ⟨0x180028 + 0x8000 * p, 0, 16⟩
def HEVE_OUT_BASE_LO.ADDR (p : Nat) : Fld := ⟨0x18002c + 0x8000 * p, 12, 20⟩
def HEVE_OUT_BASE_HI.ADDR (p : Nat) : Fld := ⟨0x180030 + 0x8000 * p, 0, 8⟩
def HEVE_OUT_SIZE.LOG2 (p : Nat) : Fld := ⟨0x180034 + 0x8000 * p, 0, 5⟩
def HEVE_REF_BASE_LO.ADDR (p : Nat) : Fld := ⟨0x180038 + 0x8000 * p, 12, 20⟩
def HEVE_REF_BASE_HI.ADDR (p : Nat) : Fld := ⟨0x18003c + 0x8000 * p, 0, 8⟩
def HEVE_REF_SIZE.MIB (p : Nat) : Fld := ⟨0x180040 + 0x8000 * p, 0, 12⟩
def HEVE_OUT_WR.WR (p : Nat) : Fld := ⟨0x180044 + 0x8000 * p, 0, 32⟩
def HEVE_OUT_RD.RD (p : Nat) : Fld := ⟨0x180048 + 0x8000 * p, 0, 32⟩
def HEVE_STATUS.BUSY (p : Nat) : Fld := ⟨0x18004c + 0x8000 * p, 31, 1⟩
def HEVE_STATUS.BAD_CFG (p : Nat) : Fld := ⟨0x18004c + 0x8000 * p, 30, 1⟩
def HEVE_STATUS.GANG_OK (p : Nat) : Fld := ⟨0x18004c + 0x8000 * p, 29, 1⟩
def HEVE_STATUS.OUT_WAITING (p : Nat) : Fld := ⟨0x18004c + 0x8000 * p, 28, 1⟩
def HEVE_STATUS.WAITING (p : Nat) : Fld := ⟨0x18004c + 0x8000 * p, 24, 4⟩
def HEVE_STATUS.SYNTAX_KB (p : Nat) : Fld := ⟨0x18004c + 0x8000 * p, 0, 24⟩
def HEVE_EVENT.HALF_MISSING (p : Nat) : Fld := ⟨0x180050 + 0x8000 * p, 7, 1⟩
def HEVE_EVENT.ENC_FAULT (p : Nat) : Fld := ⟨0x180050 + 0x8000 * p, 6, 1⟩
def HEVE_EVENT.RECODE (p : Nat) : Fld := ⟨0x180050 + 0x8000 * p, 5, 1⟩
def HEVE_EVENT.MAP_MISSING (p : Nat) : Fld := ⟨0x180050 + 0x8000 * p, 4, 1⟩
def HEVE_EVENT.OUT_WAIT (p : Nat) : Fld := ⟨0x180050 + 0x8000 * p, 3, 1⟩
def HEVE_EVENT.DROP (p : Nat) : Fld := ⟨0x180050 + 0x8000 * p, 2, 1⟩
def HEVE_EVENT.FLOORED (p : Nat) : Fld := ⟨0x180050 + 0x8000 * p, 1, 1⟩
def HEVE_EVENT.BAD_CFG (p : Nat) : Fld := ⟨0x180050 + 0x8000 * p, 0, 1⟩
def HEVE_CPB_FILL.BITS (p : Nat) : Fld := ⟨0x180054 + 0x8000 * p, 0, 32⟩
def HEVE_CNT_PIC.COUNT (p : Nat) : Fld := ⟨0x180058 + 0x8000 * p, 0, 32⟩
def HEVE_CNT_FLOOR.COUNT (p : Nat) : Fld := ⟨0x18005c + 0x8000 * p, 0, 32⟩
def HEVE_CNT_DROP.COUNT (p : Nat) : Fld := ⟨0x180060 + 0x8000 * p, 0, 32⟩
def HEVE_CNT_CTRL.CLEAR (p : Nat) : Fld := ⟨0x180064 + 0x8000 * p, 0, 1⟩

def HEVD_CTRL.EN : Fld := ⟨0x1c0000, 31, 1⟩
def HEVD_IN_BASE_LO.ADDR : Fld := ⟨0x1c0004, 5, 27⟩
def HEVD_IN_BASE_HI.ADDR : Fld := ⟨0x1c0008, 0, 8⟩
def HEVD_IN_SIZE.LOG2 : Fld := ⟨0x1c000c, 0, 5⟩
def HEVD_IN_WR.WR : Fld := ⟨0x1c0010, 0, 32⟩
def HEVD_IN_RD.RD : Fld := ⟨0x1c0014, 0, 32⟩
def HEVD_OUT_BASE_LO.ADDR : Fld := ⟨0x1c0018, 12, 20⟩
def HEVD_OUT_BASE_HI.ADDR : Fld := ⟨0x1c001c, 0, 8⟩
def HEVD_OUT_STRIDE.BYTES : Fld := ⟨0x1c0020, 0, 32⟩
def HEVD_OUT_COUNT.COUNT : Fld := ⟨0x1c0024, 0, 6⟩
def HEVD_OUT_POP.VALID : Fld := ⟨0x1c0028, 31, 1⟩
def HEVD_OUT_POP.BUF : Fld := ⟨0x1c0028, 0, 5⟩
def HEVD_OUT_REL.BUF : Fld := ⟨0x1c002c, 0, 5⟩
def HEVD_BUDGET.US : Fld := ⟨0x1c0030, 0, 20⟩
def HEVD_STATUS.BUSY : Fld := ⟨0x1c0034, 31, 1⟩
def HEVD_STATUS.WAIT_BUF : Fld := ⟨0x1c0034, 30, 1⟩
def HEVD_STATUS.FIFO : Fld := ⟨0x1c0034, 0, 6⟩
def HEVD_EVENT.BAD_ENTRY : Fld := ⟨0x1c0038, 4, 1⟩
def HEVD_EVENT.UNSUPPORTED : Fld := ⟨0x1c0038, 3, 1⟩
def HEVD_EVENT.ABANDONED : Fld := ⟨0x1c0038, 2, 1⟩
def HEVD_EVENT.CONCEALED : Fld := ⟨0x1c0038, 1, 1⟩
def HEVD_EVENT.OUTPUT : Fld := ⟨0x1c0038, 0, 1⟩
def HEVD_CNT_PIC.COUNT : Fld := ⟨0x1c003c, 0, 32⟩
def HEVD_CNT_CONCEAL.COUNT : Fld := ⟨0x1c0040, 0, 32⟩
def HEVD_CNT_ABANDON.COUNT : Fld := ⟨0x1c0044, 0, 32⟩
def HEVD_CNT_CTRL.CLEAR : Fld := ⟨0x1c0048, 0, 1⟩

def HASH_CTRL.CODED : Fld := ⟨0x200000, 0, 2⟩
def HASH_STATUS.SEG_ACTIVE : Fld := ⟨0x200004, 31, 1⟩
def HASH_STATUS.LINK_WAIT : Fld := ⟨0x200004, 30, 1⟩
def HASH_STATUS.BUSY : Fld := ⟨0x200004, 0, 8⟩
def HASH_EVENT.CHAIN_FAULT : Fld := ⟨0x200008, 5, 1⟩
def HASH_EVENT.JOB_DONE : Fld := ⟨0x200008, 4, 1⟩
def HASH_EVENT.BAD_CFG : Fld := ⟨0x200008, 3, 1⟩
def HASH_EVENT.DIG_LOST : Fld := ⟨0x200008, 2, 1⟩
def HASH_EVENT.FAIL : Fld := ⟨0x200008, 1, 1⟩
def HASH_EVENT.REHASH : Fld := ⟨0x200008, 0, 1⟩
def HASH_DIG_BASE_LO.ADDR : Fld := ⟨0x20000c, 12, 20⟩
def HASH_DIG_BASE_HI.ADDR : Fld := ⟨0x200010, 0, 8⟩
def HASH_DIG_SIZE.EN : Fld := ⟨0x200014, 31, 1⟩
def HASH_DIG_SIZE.LOG2 : Fld := ⟨0x200014, 0, 5⟩
def HASH_DIG_WR.WR : Fld := ⟨0x200018, 0, 32⟩
def HASH_DIG_RD.RD : Fld := ⟨0x20001c, 0, 32⟩
def HASH_DIG_LOST.LOST : Fld := ⟨0x200020, 0, 32⟩
def HASH_SEGMENT.SEGMENT : Fld := ⟨0x200024, 0, 32⟩
def HASH_LINK_FRAME_LO.DATA : Fld := ⟨0x200028, 0, 32⟩
def HASH_LINK_FRAME_HI.DATA : Fld := ⟨0x20002c, 0, 32⟩
def HASH_FIN_COUNT_LO.DATA : Fld := ⟨0x200030, 0, 32⟩
def HASH_FIN_COUNT_HI.DATA : Fld := ⟨0x200034, 0, 32⟩
def HASH_CNT_REHASH.COUNT : Fld := ⟨0x200038, 0, 32⟩
def HASH_CNT_FAIL.COUNT : Fld := ⟨0x20003c, 0, 32⟩
def HASH_CNT_CTRL.CLEAR : Fld := ⟨0x200040, 0, 1⟩
def HASH_JOB_SRC_LO.ADDR : Fld := ⟨0x200044, 0, 32⟩
def HASH_JOB_SRC_HI.ADDR : Fld := ⟨0x200048, 0, 8⟩
def HASH_JOB_LEN.BYTES : Fld := ⟨0x20004c, 0, 32⟩
def HASH_JOB_CTRL.GO : Fld := ⟨0x200050, 31, 1⟩
def HASH_JOB_CTRL.BUSY : Fld := ⟨0x200050, 30, 1⟩
def HASH_JOB_CTRL.DONE : Fld := ⟨0x200050, 29, 1⟩
def HASH_JOB_CTRL.REFUSED : Fld := ⟨0x200050, 28, 1⟩
def HASH_JOB_CTRL.FAIL : Fld := ⟨0x200050, 27, 1⟩
def HASH_LINK.DATA (i : Nat) : Fld := ⟨0x200080 + 4 * i, 0, 32⟩
def HASH_FIN.DATA (i : Nat) : Fld := ⟨0x2000c0 + 4 * i, 0, 32⟩
def HASH_JOB_RES.DATA (i : Nat) : Fld := ⟨0x200100 + 4 * i, 0, 32⟩

def MAG_CFG.BIFUR (p : Nat) : Fld := ⟨0x240000 + 0x100 * p, 3, 1⟩
def MAG_CFG.MAX_GEN (p : Nat) : Fld := ⟨0x240000 + 0x100 * p, 1, 2⟩
def MAG_CFG.EN (p : Nat) : Fld := ⟨0x240000 + 0x100 * p, 0, 1⟩
def MAG_STATUS.STATE (p : Nat) : Fld := ⟨0x240004 + 0x100 * p, 28, 4⟩
def MAG_STATUS.GEN (p : Nat) : Fld := ⟨0x240004 + 0x100 * p, 26, 2⟩
def MAG_STATUS.WIDTH (p : Nat) : Fld := ⟨0x240004 + 0x100 * p, 22, 4⟩
def MAG_STATUS.BIFUR (p : Nat) : Fld := ⟨0x240004 + 0x100 * p, 21, 1⟩
def MAG_STATUS.CTRLS (p : Nat) : Fld := ⟨0x240004 + 0x100 * p, 19, 2⟩
def MAG_STATUS.ID (p : Nat) : Fld := ⟨0x240004 + 0x100 * p, 17, 2⟩
def MAG_STATUS.VWC (p : Nat) : Fld := ⟨0x240004 + 0x100 * p, 16, 1⟩
def MAG_STATUS.WEAR_WARN (p : Nat) : Fld := ⟨0x240004 + 0x100 * p, 15, 1⟩
def MAG_STATUS.TAKE_OPEN (p : Nat) : Fld := ⟨0x240004 + 0x100 * p, 14, 1⟩
def MAG_EVENT.EVENT (p : Nat) : Fld := ⟨0x240008 + 0x100 * p, 0, 12⟩
def MAG_WEAR.CRIT (p : Nat) : Fld := ⟨0x24000c + 0x100 * p, 16, 8⟩
def MAG_WEAR.PU (p : Nat) : Fld := ⟨0x24000c + 0x100 * p, 0, 8⟩
def MAG_REMAIN.GB (p : Nat) : Fld := ⟨0x240010 + 0x100 * p, 0, 32⟩
def MAG_FREE.AUS (p : Nat) : Fld := ⟨0x240014 + 0x100 * p, 0, 32⟩
def MAG_TAKE.OPEN (p : Nat) : Fld := ⟨0x240018 + 0x100 * p, 31, 1⟩
def MAG_TAKE.SLOT (p : Nat) : Fld := ⟨0x240018 + 0x100 * p, 0, 12⟩
def MAG_WRITTEN_LO.BYTES (p : Nat) : Fld := ⟨0x24001c + 0x100 * p, 0, 32⟩
def MAG_WRITTEN_HI.BYTES (p : Nat) : Fld := ⟨0x240020 + 0x100 * p, 0, 32⟩
def MAG_CNT_ERR.TIMEOUTS (p : Nat) : Fld := ⟨0x240024 + 0x100 * p, 16, 16⟩
def MAG_CNT_ERR.ERRORS (p : Nat) : Fld := ⟨0x240024 + 0x100 * p, 0, 16⟩
def MAG_OP_ADDR_LO.ADDR (p : Nat) : Fld := ⟨0x240028 + 0x100 * p, 6, 26⟩
def MAG_OP_ADDR_HI.ADDR (p : Nat) : Fld := ⟨0x24002c + 0x100 * p, 0, 8⟩
def MAG_OP_LBA_LO.LBA (p : Nat) : Fld := ⟨0x240030 + 0x100 * p, 0, 32⟩
def MAG_OP_LBA_HI.LBA (p : Nat) : Fld := ⟨0x240034 + 0x100 * p, 0, 16⟩
def MAG_OP_LEN.LEN (p : Nat) : Fld := ⟨0x240038 + 0x100 * p, 0, 32⟩
def MAG_OP.GO (p : Nat) : Fld := ⟨0x24003c + 0x100 * p, 31, 1⟩
def MAG_OP.BUSY (p : Nat) : Fld := ⟨0x24003c + 0x100 * p, 30, 1⟩
def MAG_OP.DONE (p : Nat) : Fld := ⟨0x24003c + 0x100 * p, 29, 1⟩
def MAG_OP.REFUSED (p : Nat) : Fld := ⟨0x24003c + 0x100 * p, 28, 1⟩
def MAG_OP.FAIL (p : Nat) : Fld := ⟨0x24003c + 0x100 * p, 27, 1⟩
def MAG_OP.TYPE (p : Nat) : Fld := ⟨0x24003c + 0x100 * p, 8, 4⟩
def MAG_OP.OP (p : Nat) : Fld := ⟨0x24003c + 0x100 * p, 0, 4⟩
def MAG_ARM.REQ_ID : Fld := ⟨0x240200, 8, 1⟩
def MAG_ARM.MARGIN : Fld := ⟨0x240200, 0, 8⟩
def MAG_TIMEOUT.CMD_MS : Fld := ⟨0x240204, 0, 16⟩
def MAG_WEAR_DEFAULT.TB : Fld := ⟨0x240208, 0, 32⟩
def MAG_TAKE_CTRL.CLOSE : Fld := ⟨0x24020c, 0, 1⟩
def MAG_TAKE_ID.ID (i : Nat) : Fld := ⟨0x240210 + 4 * i, 0, 32⟩

def DRAM_CFG.RANKS : Fld := ⟨0x280000, 7, 1⟩
def DRAM_CFG.DENSITY : Fld := ⟨0x280000, 4, 3⟩
def DRAM_CFG.RATE : Fld := ⟨0x280000, 0, 4⟩
def DRAM_MAP.COMMIT : Fld := ⟨0x280004, 31, 1⟩
def DRAM_MAP.FENCED : Fld := ⟨0x280004, 4, 4⟩
def DRAM_MAP.RETIRE : Fld := ⟨0x280004, 0, 4⟩
def DRAM_STATUS.MAPPED : Fld := ⟨0x280008, 31, 1⟩
def DRAM_STATUS.INIT_DONE : Fld := ⟨0x280008, 30, 1⟩
def DRAM_STATUS.DRAM_FAIL : Fld := ⟨0x280008, 29, 1⟩
def DRAM_STATUS.SR : Fld := ⟨0x280008, 28, 1⟩
def DRAM_STATUS.DRIFT : Fld := ⟨0x280008, 27, 1⟩
def DRAM_STATUS.GROUPS : Fld := ⟨0x280008, 20, 4⟩
def DRAM_STATUS.PANIC : Fld := ⟨0x280008, 0, 8⟩
def DRAM_EVENT.TRN_REFUSED : Fld := ⟨0x28000c, 9, 1⟩
def DRAM_EVENT.BAD_PORT : Fld := ⟨0x28000c, 8, 1⟩
def DRAM_EVENT.FENCE : Fld := ⟨0x28000c, 7, 1⟩
def DRAM_EVENT.DRIFT : Fld := ⟨0x28000c, 6, 1⟩
def DRAM_EVENT.PANIC : Fld := ⟨0x28000c, 5, 1⟩
def DRAM_EVENT.ADMIT_REFUSED : Fld := ⟨0x28000c, 4, 1⟩
def DRAM_EVENT.CODEBUF : Fld := ⟨0x28000c, 3, 1⟩
def DRAM_EVENT.STORED : Fld := ⟨0x28000c, 2, 1⟩
def DRAM_EVENT.POISON : Fld := ⟨0x28000c, 1, 1⟩
def DRAM_EVENT.REREAD : Fld := ⟨0x28000c, 0, 1⟩
def DRAM_ADMIT.PCT : Fld := ⟨0x280010, 24, 8⟩
def DRAM_ADMIT.EXTRA : Fld := ⟨0x280010, 0, 16⟩
def DRAM_PEAK.MBS : Fld := ⟨0x280014, 0, 32⟩
def DRAM_DEMAND.FAIL : Fld := ⟨0x280018, 31, 1⟩
def DRAM_DEMAND.MBS : Fld := ⟨0x280018, 0, 31⟩
def DRAM_TRN_CTRL.GO : Fld := ⟨0x28001c, 31, 1⟩
def DRAM_TRN_CTRL.BUSY : Fld := ⟨0x28001c, 30, 1⟩
def DRAM_TRN_CTRL.DONE : Fld := ⟨0x28001c, 29, 1⟩
def DRAM_TRN_CTRL.REFUSED : Fld := ⟨0x28001c, 28, 1⟩
def DRAM_TRN_CTRL.OP : Fld := ⟨0x28001c, 24, 4⟩
def DRAM_TRN_CTRL.RANK : Fld := ⟨0x28001c, 16, 1⟩
def DRAM_TRN_CTRL.CH : Fld := ⟨0x28001c, 0, 16⟩
def DRAM_TRN_ARG.TO : Fld := ⟨0x280020, 23, 9⟩
def DRAM_TRN_ARG.FROM : Fld := ⟨0x280020, 14, 9⟩
def DRAM_TRN_ARG.STEP : Fld := ⟨0x280020, 10, 4⟩
def DRAM_TRN_ARG.PATTERN : Fld := ⟨0x280020, 8, 2⟩
def DRAM_TRN_ARG.PARAM : Fld := ⟨0x280020, 0, 8⟩
def DRAM_TRN_RESULT.ADDR : Fld := ⟨0x280024, 0, 32⟩
def DRAM_TRN_SEL.CH : Fld := ⟨0x280028, 16, 4⟩
def DRAM_TRN_SEL.RANK : Fld := ⟨0x280028, 8, 1⟩
def DRAM_TRN_SEL.PARAM : Fld := ⟨0x280028, 0, 8⟩
def DRAM_TRN_VAL.VALUE : Fld := ⟨0x28002c, 0, 9⟩
def DRAM_ERR_SEL.KIND : Fld := ⟨0x280030, 4, 2⟩
def DRAM_ERR_SEL.CH : Fld := ⟨0x280030, 0, 4⟩
def DRAM_ERR_VAL.COUNT : Fld := ⟨0x280034, 0, 32⟩
def DRAM_POISON_ADDR_LO.ADDR : Fld := ⟨0x280038, 6, 26⟩
def DRAM_POISON_ADDR_HI.ADDR : Fld := ⟨0x28003c, 0, 8⟩
def DRAM_PANIC_CNT.MAX_US : Fld := ⟨0x280040, 16, 16⟩
def DRAM_PANIC_CNT.EPISODES : Fld := ⟨0x280040, 0, 16⟩
def DRAM_CNT_CTRL.CLEAR : Fld := ⟨0x280044, 0, 1⟩

def LANE_CFG.ADAPT_EN (p : Nat) : Fld := ⟨0x2c0000 + 0x100 * p, 31, 1⟩
def LANE_CFG.SLEEP_EN (p : Nat) : Fld := ⟨0x2c0000 + 0x100 * p, 30, 1⟩
def LANE_CFG.SLEEP_US (p : Nat) : Fld := ⟨0x2c0000 + 0x100 * p, 16, 8⟩
def LANE_CFG.FOM_FLOOR (p : Nat) : Fld := ⟨0x2c0000 + 0x100 * p, 8, 8⟩
def LANE_STATUS.LOCK (p : Nat) : Fld := ⟨0x2c0004 + 0x100 * p, 31, 1⟩
def LANE_STATUS.TX_SLEEP (p : Nat) : Fld := ⟨0x2c0004 + 0x100 * p, 30, 1⟩
def LANE_STATUS.RX_SLEEP (p : Nat) : Fld := ⟨0x2c0004 + 0x100 * p, 29, 1⟩
def LANE_STATUS.FROZEN (p : Nat) : Fld := ⟨0x2c0004 + 0x100 * p, 28, 1⟩
def LANE_STATUS.ENTROPY_OK (p : Nat) : Fld := ⟨0x2c0004 + 0x100 * p, 27, 1⟩
def LANE_STATUS.RETIRED (p : Nat) : Fld := ⟨0x2c0004 + 0x100 * p, 26, 1⟩
def LANE_STATUS.EQ_LOW (p : Nat) : Fld := ⟨0x2c0004 + 0x100 * p, 25, 1⟩
def LANE_STATUS.TABLE (p : Nat) : Fld := ⟨0x2c0004 + 0x100 * p, 24, 1⟩
def LANE_STATUS.RATE (p : Nat) : Fld := ⟨0x2c0004 + 0x100 * p, 20, 4⟩
def LANE_STATUS.LOOP (p : Nat) : Fld := ⟨0x2c0004 + 0x100 * p, 18, 2⟩
def LANE_STATUS.FOM (p : Nat) : Fld := ⟨0x2c0004 + 0x100 * p, 8, 8⟩
def LANE_EVENT.NO_LOCK (p : Nat) : Fld := ⟨0x2c0008 + 0x100 * p, 7, 1⟩
def LANE_EVENT.PRBS_ERR (p : Nat) : Fld := ⟨0x2c0008 + 0x100 * p, 6, 1⟩
def LANE_EVENT.EQ_LOW (p : Nat) : Fld := ⟨0x2c0008 + 0x100 * p, 5, 1⟩
def LANE_EVENT.RETIRED (p : Nat) : Fld := ⟨0x2c0008 + 0x100 * p, 4, 1⟩
def LANE_EVENT.WAKE_FAIL (p : Nat) : Fld := ⟨0x2c0008 + 0x100 * p, 3, 1⟩
def LANE_EVENT.REVERT (p : Nat) : Fld := ⟨0x2c0008 + 0x100 * p, 2, 1⟩
def LANE_EVENT.LOCKED (p : Nat) : Fld := ⟨0x2c0008 + 0x100 * p, 1, 1⟩
def LANE_EVENT.LOCK_LOST (p : Nat) : Fld := ⟨0x2c0008 + 0x100 * p, 0, 1⟩
def LANE_EQ.TX_PRE (p : Nat) : Fld := ⟨0x2c000c + 0x100 * p, 24, 6⟩
def LANE_EQ.TX_MAIN (p : Nat) : Fld := ⟨0x2c000c + 0x100 * p, 16, 6⟩
def LANE_EQ.TX_POST (p : Nat) : Fld := ⟨0x2c000c + 0x100 * p, 8, 6⟩
def LANE_EQ.CTLE (p : Nat) : Fld := ⟨0x2c000c + 0x100 * p, 0, 5⟩
def LANE_DFE.TAPS (p : Nat) : Fld := ⟨0x2c0010 + 0x100 * p, 0, 30⟩
def LANE_LOOP.MODE (p : Nat) : Fld := ⟨0x2c0014 + 0x100 * p, 16, 3⟩
def LANE_LOOP.GEN (p : Nat) : Fld := ⟨0x2c0014 + 0x100 * p, 12, 3⟩
def LANE_LOOP.CHK (p : Nat) : Fld := ⟨0x2c0014 + 0x100 * p, 8, 3⟩
def LANE_LOOP.CLEAR (p : Nat) : Fld := ⟨0x2c0014 + 0x100 * p, 0, 1⟩
def LANE_PRBS_ERR.SYNC (p : Nat) : Fld := ⟨0x2c0018 + 0x100 * p, 31, 1⟩
def LANE_PRBS_ERR.ERRORS (p : Nat) : Fld := ⟨0x2c0018 + 0x100 * p, 0, 31⟩
def LANE_CNT.LOSSES (p : Nat) : Fld := ⟨0x2c001c + 0x100 * p, 16, 16⟩
def LANE_CNT.REVERTS (p : Nat) : Fld := ⟨0x2c001c + 0x100 * p, 0, 16⟩
def LANE_TBL_STATUS.ACCEPTED : Fld := ⟨0x2c2000, 16, 16⟩
def LANE_TBL_STATUS.REJECTED : Fld := ⟨0x2c2000, 0, 16⟩
def LANE_COMMON_LOCK_TO.US : Fld := ⟨0x2c2004, 0, 16⟩
def LANE_CNT_CTRL.CLEAR : Fld := ⟨0x2c2008, 0, 1⟩

def NET_CFG.EN (p : Nat) : Fld := ⟨0x300000 + 0x1000 * p, 31, 1⟩
def NET_CFG.PROMISC (p : Nat) : Fld := ⟨0x300000 + 0x1000 * p, 30, 1⟩
def NET_CFG.ALLMULTI (p : Nat) : Fld := ⟨0x300000 + 0x1000 * p, 29, 1⟩
def NET_CFG.HOST_PRIO (p : Nat) : Fld := ⟨0x300000 + 0x1000 * p, 27, 2⟩
def NET_CFG.SPEED (p : Nat) : Fld := ⟨0x300000 + 0x1000 * p, 25, 2⟩
def NET_CFG.FEC (p : Nat) : Fld := ⟨0x300000 + 0x1000 * p, 24, 1⟩
def NET_CFG.MAXLEN (p : Nat) : Fld := ⟨0x300000 + 0x1000 * p, 0, 14⟩
def NET_STATUS.LINK (p : Nat) : Fld := ⟨0x300004 + 0x1000 * p, 31, 1⟩
def NET_STATUS.SPEED (p : Nat) : Fld := ⟨0x300004 + 0x1000 * p, 29, 2⟩
def NET_STATUS.FEC (p : Nat) : Fld := ⟨0x300004 + 0x1000 * p, 28, 1⟩
def NET_EVENT.EVENT (p : Nat) : Fld := ⟨0x300008 + 0x1000 * p, 0, 6⟩
def NET_MAC_LO.ADDR (p : Nat) : Fld := ⟨0x30000c + 0x1000 * p, 0, 32⟩
def NET_MAC_HI.ADDR (p : Nat) : Fld := ⟨0x300010 + 0x1000 * p, 0, 16⟩
def NET_TX_BASE_LO.ADDR (p : Nat) : Fld := ⟨0x300014 + 0x1000 * p, 5, 27⟩
def NET_TX_BASE_HI.ADDR (p : Nat) : Fld := ⟨0x300018 + 0x1000 * p, 0, 8⟩
def NET_TX_SIZE.EN (p : Nat) : Fld := ⟨0x30001c + 0x1000 * p, 31, 1⟩
def NET_TX_SIZE.LOG2 (p : Nat) : Fld := ⟨0x30001c + 0x1000 * p, 0, 5⟩
def NET_TX_WR.WR (p : Nat) : Fld := ⟨0x300020 + 0x1000 * p, 0, 32⟩
def NET_TX_RD.RD (p : Nat) : Fld := ⟨0x300024 + 0x1000 * p, 0, 32⟩
def NET_RX_BASE_LO.ADDR (p : Nat) : Fld := ⟨0x300028 + 0x1000 * p, 5, 27⟩
def NET_RX_BASE_HI.ADDR (p : Nat) : Fld := ⟨0x30002c + 0x1000 * p, 0, 8⟩
def NET_RX_SIZE.EN (p : Nat) : Fld := ⟨0x300030 + 0x1000 * p, 31, 1⟩
def NET_RX_SIZE.LOG2 (p : Nat) : Fld := ⟨0x300030 + 0x1000 * p, 0, 5⟩
def NET_RX_WR.WR (p : Nat) : Fld := ⟨0x300034 + 0x1000 * p, 0, 32⟩
def NET_RX_RD.RD (p : Nat) : Fld := ⟨0x300038 + 0x1000 * p, 0, 32⟩
def NET_CNT_SEL.KIND (p : Nat) : Fld := ⟨0x30003c + 0x1000 * p, 0, 4⟩
def NET_CNT_VAL.COUNT (p : Nat) : Fld := ⟨0x300040 + 0x1000 * p, 0, 32⟩

def TIME_CTRL.WATCH_MS : Fld := ⟨0x340000, 16, 16⟩
def TIME_CTRL.SERVO_PORT : Fld := ⟨0x340000, 0, 1⟩
def TIME_PPS_CTRL.OUT_EN : Fld := ⟨0x340040, 31, 1⟩
def TIME_PPS_CTRL.POL : Fld := ⟨0x340040, 30, 1⟩
def TIME_PPS_CTRL.IN_EN : Fld := ⟨0x340040, 29, 1⟩
def TIME_PPS_CTRL.WIDTH_MS : Fld := ⟨0x340040, 0, 10⟩
def TIME_STATUS.VALID : Fld := ⟨0x340004, 31, 1⟩
def TIME_STATUS.HOLDOVER : Fld := ⟨0x340004, 30, 1⟩
def TIME_STATUS.RC_CLK : Fld := ⟨0x340004, 29, 1⟩
def TIME_STATUS.LTC_LOCK : Fld := ⟨0x340004, 28, 1⟩
def TIME_STATUS.CAUSE : Fld := ⟨0x340004, 23, 5⟩
def TIME_EVENT.EVENT : Fld := ⟨0x340008, 0, 8⟩
def TIME_PPS_IN.T32 : Fld := ⟨0x340044, 0, 32⟩
def TIME_NOW_NS.NS : Fld := ⟨0x34000c, 0, 32⟩
def TIME_NOW_SEC_LO.SEC : Fld := ⟨0x340010, 0, 32⟩
def TIME_NOW_SEC_HI.SEC : Fld := ⟨0x340014, 0, 16⟩
def TIME_LTC_CTRL.OUT_EN : Fld := ⟨0x340048, 31, 1⟩
def TIME_LTC_CTRL.IN_EN : Fld := ⟨0x340048, 30, 1⟩
def TIME_LTC_CTRL.RATE : Fld := ⟨0x340048, 0, 2⟩
def TIME_LTC_OFFSET.SEC : Fld := ⟨0x34004c, 0, 32⟩
def TIME_LTC_UB.UB : Fld := ⟨0x340050, 0, 32⟩
def TIME_INCR_LO.FRAC : Fld := ⟨0x340018, 0, 32⟩
def TIME_INCR_HI.NS : Fld := ⟨0x34001c, 8, 4⟩
def TIME_INCR_HI.FRAC : Fld := ⟨0x34001c, 0, 8⟩
def TIME_LTC_IN_LO.VALUE : Fld := ⟨0x340054, 0, 32⟩
def TIME_LTC_IN_HI.VALUE : Fld := ⟨0x340058, 0, 32⟩
def TIME_LTC_IN_NS.VALUE : Fld := ⟨0x34005c, 0, 32⟩
def TIME_ADJ.NS : Fld := ⟨0x340020, 0, 32⟩
def TIME_SCHED_CTRL.EN : Fld := ⟨0x340064, 31, 1⟩
def TIME_SCHED_CTRL.MISSED : Fld := ⟨0x340064, 16, 8⟩
def TIME_SCHED_CTRL.DEN : Fld := ⟨0x340064, 0, 16⟩
def TIME_SCHED_NUM.NS : Fld := ⟨0x340068, 0, 32⟩
def TIME_SCHED_ANCHOR.SEC : Fld := ⟨0x34006c, 0, 32⟩
def TIME_SCHED_PHASE.NS : Fld := ⟨0x340070, 0, 32⟩
def TIME_SCHED_STAGGER.NS : Fld := ⟨0x340074, 0, 32⟩
def TIME_SET_NS.VALUE : Fld := ⟨0x340024, 0, 32⟩
def TIME_SET_SEC_LO.VALUE : Fld := ⟨0x340028, 0, 32⟩
def TIME_SET_SEC_HI.VALUE : Fld := ⟨0x34002c, 0, 16⟩
def TIME_SCHED_COUNT.TICKS : Fld := ⟨0x340078, 0, 32⟩
def TIME_CMD.CMD : Fld := ⟨0x340030, 0, 4⟩
def TIME_ARRAY.INDEX : Fld := ⟨0x34007c, 0, 12⟩
def TIME_ALARM_NS.VALUE : Fld := ⟨0x340034, 0, 32⟩
def TIME_ALARM_SEC_LO.VALUE : Fld := ⟨0x340038, 0, 32⟩
def TIME_ALARM_SEC_HI.EN : Fld := ⟨0x34003c, 31, 1⟩
def TIME_ALARM_SEC_HI.SEC : Fld := ⟨0x34003c, 0, 16⟩
def TIME_KA_CTRL.EN : Fld := ⟨0x340080, 31, 1⟩
def TIME_KA_CTRL.WAKE_EN : Fld := ⟨0x340080, 30, 1⟩
def TIME_KA_CTRL.WAKE_MODE : Fld := ⟨0x340080, 29, 1⟩
def TIME_KA_STATUS.DROPS : Fld := ⟨0x340084, 16, 16⟩
def TIME_KA_STATUS.FRAME_ALARM : Fld := ⟨0x340084, 13, 1⟩
def TIME_KA_STATUS.FRAME_MODE : Fld := ⟨0x340084, 12, 1⟩
def TIME_KA_STATUS.TX_BUSY : Fld := ⟨0x340084, 8, 4⟩
def TIME_KA_STATUS.RX_FULL : Fld := ⟨0x340084, 0, 8⟩

def KLINK_PAIR.TOPO : Fld := ⟨0x380000, 30, 2⟩
def KLINK_PAIR.ROLE_PREF : Fld := ⟨0x380000, 29, 1⟩
def KLINK_PAIR.HB_ETH_EN : Fld := ⟨0x380000, 28, 1⟩
def KLINK_PAIR.HB_ETH : Fld := ⟨0x380000, 27, 1⟩
def KLINK_PAIR.PAIR_ID : Fld := ⟨0x380000, 0, 16⟩
def KLINK_CTRL.EN0 : Fld := ⟨0x380004, 31, 1⟩
def KLINK_CTRL.EN1 : Fld := ⟨0x380004, 30, 1⟩
def KLINK_CTRL.MIRROR_ALL : Fld := ⟨0x380004, 29, 1⟩
def KLINK_CTRL.FWD : Fld := ⟨0x380004, 24, 4⟩
def KLINK_CTRL.HB_MISS : Fld := ⟨0x380004, 16, 8⟩
def KLINK_CTRL.MATCH_NS : Fld := ⟨0x380004, 0, 16⟩
def KLINK_STATUS.FORMED : Fld := ⟨0x380008, 31, 1⟩
def KLINK_STATUS.PRIN : Fld := ⟨0x380008, 30, 1⟩
def KLINK_STATUS.ISOLATED : Fld := ⟨0x380008, 29, 1⟩
def KLINK_STATUS.HB_KL : Fld := ⟨0x380008, 28, 1⟩
def KLINK_STATUS.HB_ETH : Fld := ⟨0x380008, 27, 1⟩
def KLINK_STATUS.STATE0 : Fld := ⟨0x380008, 24, 3⟩
def KLINK_STATUS.LANES0 : Fld := ⟨0x380008, 20, 4⟩
def KLINK_STATUS.STATE1 : Fld := ⟨0x380008, 17, 3⟩
def KLINK_STATUS.LANES1 : Fld := ⟨0x380008, 13, 4⟩
def KLINK_EVENT.EVENT : Fld := ⟨0x38000c, 0, 11⟩
def KLINK_TERM.TERM : Fld := ⟨0x380010, 0, 32⟩
def KLINK_OFFSET.NS : Fld := ⟨0x380014, 0, 32⟩
def KLINK_CMD.YIELD : Fld := ⟨0x380018, 1, 1⟩
def KLINK_CMD.RETRAIN : Fld := ⟨0x380018, 0, 1⟩
def KLINK_CNT_SEL.PORT : Fld := ⟨0x38001c, 4, 1⟩
def KLINK_CNT_SEL.KIND : Fld := ⟨0x38001c, 0, 4⟩
def KLINK_CNT_VAL.COUNT : Fld := ⟨0x380020, 0, 32⟩
def KLINK_CNT_CTRL.CLEAR : Fld := ⟨0x380024, 0, 1⟩
def KLINK_MIRROR_TO.MS : Fld := ⟨0x380028, 0, 16⟩
def KLINK_PARTNER_ID.ID (i : Nat) : Fld := ⟨0x380030 + 4 * i, 0, 32⟩

def MOTION_CFG.EN (p : Nat) : Fld := ⟨0x3c0000 + 0x100 * p, 31, 1⟩
def MOTION_CFG.STALL_MS (p : Nat) : Fld := ⟨0x3c0000 + 0x100 * p, 16, 8⟩
def MOTION_CFG.STOP_MS (p : Nat) : Fld := ⟨0x3c0000 + 0x100 * p, 8, 8⟩
def MOTION_CFG.FILTER (p : Nat) : Fld := ⟨0x3c0000 + 0x100 * p, 0, 7⟩
def MOTION_SPD_CFG.MODE (p : Nat) : Fld := ⟨0x3c0004 + 0x100 * p, 30, 2⟩
def MOTION_SPD_CFG.PER (p : Nat) : Fld := ⟨0x3c0004 + 0x100 * p, 16, 4⟩
def MOTION_SPD_CFG.GATE_US (p : Nat) : Fld := ⟨0x3c0004 + 0x100 * p, 0, 16⟩
def MOTION_SPD_HI.CPS (p : Nat) : Fld := ⟨0x3c0008 + 0x100 * p, 0, 32⟩
def MOTION_SPD_LO.CPS (p : Nat) : Fld := ⟨0x3c000c + 0x100 * p, 0, 32⟩
def MOTION_POS.POS (p : Nat) : Fld := ⟨0x3c0010 + 0x100 * p, 0, 32⟩
def MOTION_SPEED.SPEED (p : Nat) : Fld := ⟨0x3c0014 + 0x100 * p, 0, 32⟩
def MOTION_STATUS.VALID (p : Nat) : Fld := ⟨0x3c0018 + 0x100 * p, 31, 1⟩
def MOTION_STATUS.DIR (p : Nat) : Fld := ⟨0x3c0018 + 0x100 * p, 30, 1⟩
def MOTION_STATUS.STANDSTILL (p : Nat) : Fld := ⟨0x3c0018 + 0x100 * p, 29, 1⟩
def MOTION_STATUS.REVERSED (p : Nat) : Fld := ⟨0x3c0018 + 0x100 * p, 28, 1⟩
def MOTION_STATUS.STALL (p : Nat) : Fld := ⟨0x3c0018 + 0x100 * p, 27, 1⟩
def MOTION_STATUS.COUNT_MODE (p : Nat) : Fld := ⟨0x3c0018 + 0x100 * p, 26, 1⟩
def MOTION_STATUS.HOMED (p : Nat) : Fld := ⟨0x3c0018 + 0x100 * p, 25, 1⟩
def MOTION_STATUS.BAD_REC (p : Nat) : Fld := ⟨0x3c0018 + 0x100 * p, 24, 1⟩
def MOTION_STATUS.KIND (p : Nat) : Fld := ⟨0x3c0018 + 0x100 * p, 21, 3⟩
def MOTION_STATUS.LEVELS (p : Nat) : Fld := ⟨0x3c0018 + 0x100 * p, 18, 3⟩
def MOTION_EVENT.EVENT (p : Nat) : Fld := ⟨0x3c001c + 0x100 * p, 0, 9⟩
def MOTION_PRESET.POS (p : Nat) : Fld := ⟨0x3c0020 + 0x100 * p, 0, 32⟩
def MOTION_REF_POS.POS (p : Nat) : Fld := ⟨0x3c0024 + 0x100 * p, 0, 32⟩
def MOTION_ERRCNT.OVERRUN (p : Nat) : Fld := ⟨0x3c0028 + 0x100 * p, 24, 8⟩
def MOTION_ERRCNT.COUNT (p : Nat) : Fld := ⟨0x3c0028 + 0x100 * p, 16, 8⟩
def MOTION_ERRCNT.HALL (p : Nat) : Fld := ⟨0x3c0028 + 0x100 * p, 8, 8⟩
def MOTION_ERRCNT.FRAME (p : Nat) : Fld := ⟨0x3c0028 + 0x100 * p, 0, 8⟩
def MOTION_GLITCH.COUNT (p : Nat) : Fld := ⟨0x3c002c + 0x100 * p, 0, 32⟩
def MOTION_CMP_CTRL.ARM (k : Nat) : Fld := ⟨0x3c0400 + 0x40 * k, 31, 1⟩
def MOTION_CMP_CTRL.DISARM (k : Nat) : Fld := ⟨0x3c0400 + 0x40 * k, 30, 1⟩
def MOTION_CMP_CTRL.ARMED (k : Nat) : Fld := ⟨0x3c0400 + 0x40 * k, 29, 1⟩
def MOTION_CMP_CTRL.BEHIND (k : Nat) : Fld := ⟨0x3c0400 + 0x40 * k, 28, 1⟩
def MOTION_CMP_CTRL.PASSED (k : Nat) : Fld := ⟨0x3c0400 + 0x40 * k, 27, 1⟩
def MOTION_CMP_CTRL.REFUSED (k : Nat) : Fld := ⟨0x3c0400 + 0x40 * k, 26, 1⟩
def MOTION_CMP_CTRL.FIRE_IF_PASSED (k : Nat) : Fld := ⟨0x3c0400 + 0x40 * k, 7, 1⟩
def MOTION_CMP_CTRL.PERIODIC (k : Nat) : Fld := ⟨0x3c0400 + 0x40 * k, 6, 1⟩
def MOTION_CMP_CTRL.DIR (k : Nat) : Fld := ⟨0x3c0400 + 0x40 * k, 4, 2⟩
def MOTION_CMP_CTRL.CH (k : Nat) : Fld := ⟨0x3c0400 + 0x40 * k, 0, 2⟩
def MOTION_CMP_TARGET.TARGET (k : Nat) : Fld := ⟨0x3c0404 + 0x40 * k, 0, 32⟩
def MOTION_CMP_STEP.STEP (k : Nat) : Fld := ⟨0x3c0408 + 0x40 * k, 0, 32⟩
def MOTION_CMP_FIRES.COUNT (k : Nat) : Fld := ⟨0x3c040c + 0x40 * k, 0, 32⟩
def MOTION_CMP_MISSED.COUNT (k : Nat) : Fld := ⟨0x3c0410 + 0x40 * k, 0, 32⟩
def MOTION_CMP_TIME_NS.VALUE (k : Nat) : Fld := ⟨0x3c0414 + 0x40 * k, 0, 32⟩
def MOTION_CMP_TIME_SEC.VALUE (k : Nat) : Fld := ⟨0x3c0418 + 0x40 * k, 0, 32⟩

def VIEW_CTRL.EN : Fld := ⟨0x440000, 31, 1⟩
def VIEW_CTRL.FALSE_EN : Fld := ⟨0x440000, 30, 1⟩
def VIEW_CTRL.FOLLOW_ROLE : Fld := ⟨0x440000, 29, 1⟩
def VIEW_CTRL.PANEL_FMT : Fld := ⟨0x440000, 28, 1⟩
def VIEW_CTRL.PORT : Fld := ⟨0x440000, 0, 2⟩
def VIEW_PANEL.PH : Fld := ⟨0x440004, 16, 16⟩
def VIEW_PANEL.PW : Fld := ⟨0x440004, 0, 16⟩
def VIEW_DSI.ALIGN : Fld := ⟨0x440008, 18, 1⟩
def VIEW_DSI.LANES : Fld := ⟨0x440008, 16, 2⟩
def VIEW_DSI.MBPS : Fld := ⟨0x440008, 0, 12⟩
def VIEW_TIMING.TE_LINE : Fld := ⟨0x44000c, 16, 16⟩
def VIEW_TIMING.LINE_NS : Fld := ⟨0x44000c, 0, 16⟩
def VIEW_APPLY.LINE : Fld := ⟨0x440010, 0, 16⟩
def VIEW_START.TE_TO_MS : Fld := ⟨0x440014, 24, 8⟩
def VIEW_START.SLEEP_MS : Fld := ⟨0x440014, 12, 12⟩
def VIEW_START.RESET_MS : Fld := ⟨0x440014, 0, 12⟩
def VIEW_STATUS.STATE : Fld := ⟨0x440018, 30, 2⟩
def VIEW_STATUS.PUSHING : Fld := ⟨0x440018, 29, 1⟩
def VIEW_STATUS.TE_LOST : Fld := ⟨0x440018, 28, 1⟩
def VIEW_STATUS.HELD : Fld := ⟨0x440018, 27, 1⟩
def VIEW_STATUS.POOL_DEFER : Fld := ⟨0x440018, 26, 1⟩
def VIEW_STATUS.LINE : Fld := ⟨0x440018, 0, 13⟩
def VIEW_EVENT.EVENT : Fld := ⟨0x44001c, 0, 6⟩
def VIEW_DIRTY_XY.Y : Fld := ⟨0x440020, 16, 12⟩
def VIEW_DIRTY_XY.X : Fld := ⟨0x440020, 0, 12⟩
def VIEW_DIRTY_WH.LAYER : Fld := ⟨0x440024, 30, 2⟩
def VIEW_DIRTY_WH.W_M1 : Fld := ⟨0x440024, 12, 12⟩
def VIEW_DIRTY_WH.H_M1 : Fld := ⟨0x440024, 0, 12⟩
def VIEW_POOL_CFG.KB : Fld := ⟨0x440028, 18, 14⟩
def VIEW_POOL_CFG.HEAD_MAX : Fld := ⟨0x440028, 12, 6⟩
def VIEW_POOL_CFG.COUNT_M1 : Fld := ⟨0x440028, 0, 6⟩
def VIEW_POOL_BASE_LO.ADDR : Fld := ⟨0x44002c, 12, 20⟩
def VIEW_POOL_BASE_HI.ADDR : Fld := ⟨0x440030, 0, 8⟩
def VIEW_POOL_ALLOC.VALID : Fld := ⟨0x440034, 31, 1⟩
def VIEW_POOL_ALLOC.HANDLE : Fld := ⟨0x440034, 0, 6⟩
def VIEW_POOL_FREE.HANDLE : Fld := ⟨0x440038, 0, 6⟩
def VIEW_POOL_STATUS.DEFERRED : Fld := ⟨0x44003c, 24, 8⟩
def VIEW_POOL_STATUS.DOUBLE : Fld := ⟨0x44003c, 16, 8⟩
def VIEW_POOL_STATUS.PENDING : Fld := ⟨0x44003c, 8, 8⟩
def VIEW_POOL_STATUS.FREE : Fld := ⟨0x44003c, 0, 8⟩
def VIEW_CMD.GO : Fld := ⟨0x440040, 31, 1⟩
def VIEW_CMD.BUSY : Fld := ⟨0x440040, 30, 1⟩
def VIEW_CMD.HAS_PARAM : Fld := ⟨0x440040, 24, 1⟩
def VIEW_CMD.PARAM : Fld := ⟨0x440040, 16, 8⟩
def VIEW_CMD.DCS : Fld := ⟨0x440040, 8, 8⟩
def VIEW_CNT.LATE : Fld := ⟨0x440044, 16, 16⟩
def VIEW_CNT.PUSHES : Fld := ⟨0x440044, 0, 16⟩
def VIEW_L0_CFG.EN : Fld := ⟨0x440100, 31, 1⟩
def VIEW_L0_CFG.FMT : Fld := ⟨0x440100, 8, 2⟩
def VIEW_L0_CFG.ALPHA : Fld := ⟨0x440100, 0, 8⟩
def VIEW_L0_POS.Y : Fld := ⟨0x440104, 16, 16⟩
def VIEW_L0_POS.X : Fld := ⟨0x440104, 0, 16⟩
def VIEW_L0_SIZE.H : Fld := ⟨0x440108, 16, 16⟩
def VIEW_L0_SIZE.W : Fld := ⟨0x440108, 0, 16⟩
def VIEW_L0_BUF.PITCH64 : Fld := ⟨0x44010c, 8, 9⟩
def VIEW_L0_BUF.HANDLE : Fld := ⟨0x44010c, 0, 6⟩
def VIEW_L1_CFG.EN : Fld := ⟨0x440120, 31, 1⟩
def VIEW_L1_CFG.FMT : Fld := ⟨0x440120, 8, 2⟩
def VIEW_L1_CFG.ALPHA : Fld := ⟨0x440120, 0, 8⟩
def VIEW_L1_POS.Y : Fld := ⟨0x440124, 16, 16⟩
def VIEW_L1_POS.X : Fld := ⟨0x440124, 0, 16⟩
def VIEW_L1_SIZE.H : Fld := ⟨0x440128, 16, 16⟩
def VIEW_L1_SIZE.W : Fld := ⟨0x440128, 0, 16⟩
def VIEW_L1_BUF.PITCH64 : Fld := ⟨0x44012c, 8, 9⟩
def VIEW_L1_BUF.HANDLE : Fld := ⟨0x44012c, 0, 6⟩
def VIEW_L2_CFG.EN : Fld := ⟨0x440140, 31, 1⟩
def VIEW_L2_CFG.FMT : Fld := ⟨0x440140, 8, 2⟩
def VIEW_L2_CFG.ALPHA : Fld := ⟨0x440140, 0, 8⟩
def VIEW_L2_POS.Y : Fld := ⟨0x440144, 16, 16⟩
def VIEW_L2_POS.X : Fld := ⟨0x440144, 0, 16⟩
def VIEW_L2_SIZE.H : Fld := ⟨0x440148, 16, 16⟩
def VIEW_L2_SIZE.W : Fld := ⟨0x440148, 0, 16⟩
def VIEW_L2_BUF.PITCH64 : Fld := ⟨0x44014c, 8, 9⟩
def VIEW_L2_BUF.HANDLE : Fld := ⟨0x44014c, 0, 6⟩
def VIEW_L3_CFG.EN : Fld := ⟨0x440160, 31, 1⟩
def VIEW_L3_CFG.FMT : Fld := ⟨0x440160, 8, 2⟩
def VIEW_L3_CFG.ALPHA : Fld := ⟨0x440160, 0, 8⟩
def VIEW_L3_POS.Y : Fld := ⟨0x440164, 16, 16⟩
def VIEW_L3_POS.X : Fld := ⟨0x440164, 0, 16⟩
def VIEW_L3_SIZE.H : Fld := ⟨0x440168, 16, 16⟩
def VIEW_L3_SIZE.W : Fld := ⟨0x440168, 0, 16⟩
def VIEW_L3_BUF.PITCH64 : Fld := ⟨0x44016c, 8, 9⟩
def VIEW_L3_BUF.HANDLE : Fld := ⟨0x44016c, 0, 6⟩

def MGMT_CFG.CTRL_EN : Fld := ⟨0x480000, 31, 1⟩
def MGMT_CFG.TIMEOUT_EN : Fld := ⟨0x480000, 30, 1⟩
def MGMT_CFG.WAKE_EN : Fld := ⟨0x480000, 29, 1⟩
def MGMT_CFG.ADDR : Fld := ⟨0x480000, 0, 7⟩
def MGMT_TIMING.SETUP : Fld := ⟨0x480004, 16, 8⟩
def MGMT_TIMING.HOLD : Fld := ⟨0x480004, 0, 8⟩
def MGMT_STATUS.BUSY : Fld := ⟨0x480008, 31, 1⟩
def MGMT_STATUS.ALERT : Fld := ⟨0x480008, 30, 1⟩
def MGMT_STATUS.MSG_TO_SM : Fld := ⟨0x480008, 29, 1⟩
def MGMT_STATUS.MSG_FROM_SM : Fld := ⟨0x480008, 28, 1⟩
def MGMT_STATUS.POINTER : Fld := ⟨0x480008, 0, 16⟩
def MGMT_EVENT.EVENT : Fld := ⟨0x48000c, 0, 10⟩
def MGMT_ALERT_EN.EN : Fld := ⟨0x480010, 0, 32⟩
def MGMT_ALERT_SRC.SW : Fld := ⟨0x480014, 8, 8⟩
def MGMT_ALERT_SRC.THERM : Fld := ⟨0x480014, 4, 1⟩
def MGMT_ALERT_SRC.AUDIT : Fld := ⟨0x480014, 3, 1⟩
def MGMT_ALERT_SRC.MSG : Fld := ⟨0x480014, 2, 1⟩
def MGMT_ALERT_SRC.CALL_FATAL : Fld := ⟨0x480014, 1, 1⟩
def MGMT_ALERT_SRC.CALL : Fld := ⟨0x480014, 0, 1⟩
def MGMT_CNT_SEL.KIND : Fld := ⟨0x480018, 0, 3⟩
def MGMT_CNT_VAL.COUNT : Fld := ⟨0x48001c, 0, 32⟩
def MGMT_MBOX_CTRL.FROM_SM : Fld := ⟨0x480020, 1, 1⟩
def MGMT_MBOX_CTRL.TO_SM : Fld := ⟨0x480020, 0, 1⟩
def MGMT_MBOX_IN.DATA (i : Nat) : Fld := ⟨0x480100 + 4 * i, 0, 32⟩
def MGMT_MBOX_OUT.DATA (i : Nat) : Fld := ⟨0x480200 + 4 * i, 0, 32⟩

def POWER_STATUS.XFER : Fld := ⟨0x4c0000, 31, 1⟩
def POWER_STATUS.ON : Fld := ⟨0x4c0000, 0, 30⟩
def POWER_EVENT.SUPPLY_LOST : Fld := ⟨0x4c0004, 3, 1⟩
def POWER_EVENT.RAIL_LOST : Fld := ⟨0x4c0004, 2, 1⟩
def POWER_EVENT.RAIL_TIMEOUT : Fld := ⟨0x4c0004, 1, 1⟩
def POWER_EVENT.XFER_DONE : Fld := ⟨0x4c0004, 0, 1⟩
def POWER_RAIL.SUPPLY : Fld := ⟨0x4c0008, 25, 3⟩
def POWER_RAIL.BAD_REC : Fld := ⟨0x4c0008, 24, 1⟩
def POWER_RAIL.FAIL : Fld := ⟨0x4c0008, 16, 8⟩
def POWER_RAIL.PG : Fld := ⟨0x4c0008, 8, 8⟩
def POWER_RAIL.EN : Fld := ⟨0x4c0008, 0, 8⟩
def POWER_XFER.FROM : Fld := ⟨0x4c000c, 28, 4⟩
def POWER_XFER.TO : Fld := ⟨0x4c000c, 24, 4⟩
def POWER_XFER.US : Fld := ⟨0x4c000c, 0, 24⟩

def CLOCK_STATUS.REFCLK_OK : Fld := ⟨0x500000, 31, 1⟩
def CLOCK_STATUS.RC_ACTIVE : Fld := ⟨0x500000, 30, 1⟩
def CLOCK_STATUS.LOCK : Fld := ⟨0x500000, 0, 7⟩
def CLOCK_EVENT.PLL_UNLOCK : Fld := ⟨0x500004, 2, 1⟩
def CLOCK_EVENT.REFCLK_BACK : Fld := ⟨0x500004, 1, 1⟩
def CLOCK_EVENT.REFCLK_LOST : Fld := ⟨0x500004, 0, 1⟩
def CLOCK_REF_COUNT.COUNT : Fld := ⟨0x500008, 0, 8⟩
def CLOCK_FOREIGN.ACTIVE : Fld := ⟨0x50000c, 0, 30⟩
def CLOCK_LOSS_CNT.REFCLK : Fld := ⟨0x500010, 16, 16⟩
def CLOCK_LOSS_CNT.PLL : Fld := ⟨0x500010, 0, 16⟩

def THERM_STATUS.FAST : Fld := ⟨0x540000, 31, 1⟩
def THERM_STATUS.CURTAIN : Fld := ⟨0x540000, 30, 1⟩
def THERM_STATUS.HELD : Fld := ⟨0x540000, 29, 1⟩
def THERM_STATUS.COOLING : Fld := ⟨0x540000, 28, 1⟩
def THERM_STATUS.HOTTEST : Fld := ⟨0x540000, 24, 4⟩
def THERM_STATUS.IN_HOUR : Fld := ⟨0x540000, 16, 4⟩
def THERM_STATUS.HOTTEST_T : Fld := ⟨0x540000, 0, 16⟩
def THERM_EVENT.HELD : Fld := ⟨0x540004, 4, 1⟩
def THERM_EVENT.BROKEN : Fld := ⟨0x540004, 3, 1⟩
def THERM_EVENT.DISAGREE : Fld := ⟨0x540004, 2, 1⟩
def THERM_EVENT.NEAR : Fld := ⟨0x540004, 1, 1⟩
def THERM_EVENT.CURTAIN : Fld := ⟨0x540004, 0, 1⟩
def THERM_COOL.MS_LEFT : Fld := ⟨0x540008, 0, 14⟩
def THERM_CURTAINS.COUNT : Fld := ⟨0x54000c, 0, 32⟩
def THERM_SITE.BROKEN_A (i : Nat) : Fld := ⟨0x540040 + 4 * i, 31, 1⟩
def THERM_SITE.BROKEN_B (i : Nat) : Fld := ⟨0x540040 + 4 * i, 30, 1⟩
def THERM_SITE.DISAGREE (i : Nat) : Fld := ⟨0x540040 + 4 * i, 29, 1⟩
def THERM_SITE.T (i : Nat) : Fld := ⟨0x540040 + 4 * i, 0, 16⟩

def CALL_CTRL.FATAL_TO_MS : Fld := ⟨0x580000, 16, 16⟩
def CALL_CTRL.COALESCE_MS : Fld := ⟨0x580000, 8, 8⟩
def CALL_CTRL.CO_CLASS : Fld := ⟨0x580000, 2, 2⟩
def CALL_STATUS.SAFE : Fld := ⟨0x580004, 31, 1⟩
def CALL_STATUS.FATAL_OPEN : Fld := ⟨0x580004, 30, 1⟩
def CALL_STATUS.CO_RESTART : Fld := ⟨0x580004, 29, 1⟩
def CALL_STATUS.WDOG_RESET : Fld := ⟨0x580004, 28, 1⟩
def CALL_STATUS.IMAGE_RESET : Fld := ⟨0x580004, 27, 1⟩
def CALL_STATUS.CUR_VALID : Fld := ⟨0x580004, 26, 1⟩
def CALL_STATUS.QUEUE : Fld := ⟨0x580004, 16, 7⟩
def CALL_STATUS.OPEN : Fld := ⟨0x580004, 0, 12⟩
def CALL_LOG_WR.WR : Fld := ⟨0x580008, 0, 32⟩
def CALL_LOG_IDX.IDX : Fld := ⟨0x58000c, 0, 12⟩
def CALL_CUR.SEQ : Fld := ⟨0x580010, 0, 32⟩
def CALL_DONE.SEQ : Fld := ⟨0x580014, 0, 32⟩
def CALL_OVERFLOW.COUNT : Fld := ⟨0x580018, 0, 32⟩
def CALL_FATAL_FIRST.VALID : Fld := ⟨0x58001c, 31, 1⟩
def CALL_FATAL_FIRST.CODE : Fld := ⟨0x58001c, 0, 16⟩
def CALL_SAFE_CNT.COUNT : Fld := ⟨0x580020, 0, 32⟩
def CALL_CO_WDOG.EN : Fld := ⟨0x580024, 31, 1⟩
def CALL_CO_WDOG.EXPIRED : Fld := ⟨0x580024, 30, 1⟩
def CALL_CO_WDOG.MS : Fld := ⟨0x580024, 0, 16⟩
def CALL_CO_KICK.KICK : Fld := ⟨0x580028, 0, 1⟩
def CALL_SM_WDOG.EN : Fld := ⟨0x58002c, 31, 1⟩
def CALL_SM_WDOG.EXPIRED : Fld := ⟨0x58002c, 30, 1⟩
def CALL_SM_WDOG.MS : Fld := ⟨0x58002c, 0, 16⟩
def CALL_SM_KICK.KICK : Fld := ⟨0x580030, 0, 1⟩
def CALL_RESTART.GO : Fld := ⟨0x580034, 0, 1⟩
def CALL_RESTART_CNT.FAILED : Fld := ⟨0x580038, 16, 16⟩
def CALL_RESTART_CNT.DONE : Fld := ⟨0x580038, 0, 16⟩
def CALL_POST.CLASS : Fld := ⟨0x58003c, 30, 2⟩
def CALL_POST.INST : Fld := ⟨0x58003c, 12, 8⟩
def CALL_POST.CAUSE : Fld := ⟨0x58003c, 0, 10⟩
def CALL_POST_DETAIL.DETAIL : Fld := ⟨0x580040, 0, 32⟩
def CALL_LOG_ENTRY.DATA (i : Nat) : Fld := ⟨0x580100 + 4 * i, 0, 32⟩

def NVMC_OP.OP : Fld := ⟨0x5c0000, 0, 3⟩
def NVMC_ADDR.ADDR : Fld := ⟨0x5c0004, 0, 26⟩
def NVMC_STATUS.FAILED : Fld := ⟨0x5c0008, 16, 16⟩
def NVMC_STATUS.SESSION : Fld := ⟨0x5c0008, 3, 1⟩
def NVMC_STATUS.FULL : Fld := ⟨0x5c0008, 2, 1⟩
def NVMC_STATUS.REFUSED : Fld := ⟨0x5c0008, 1, 1⟩
def NVMC_STATUS.BUSY : Fld := ⟨0x5c0008, 0, 1⟩
def NVMC_JRNL_SEQ.DATA : Fld := ⟨0x5c000c, 0, 32⟩
def NVMC_JRNL_FREE.COPY1 : Fld := ⟨0x5c0010, 16, 16⟩
def NVMC_JRNL_FREE.COPY0 : Fld := ⟨0x5c0010, 0, 16⟩
def NVMC_BUF.DATA (i : Nat) : Fld := ⟨0x5c0100 + 4 * i, 0, 32⟩

end Sys2Proof.Machine
end

