-- ==== Sys2Proof/Machine/Sparse.lean ====
section
/-! DEFINITION. Sparse storage in one canonical form: a list of (address, value) pairs with strictly rising addresses
and no entry equal to `d`, the value an unlisted address reads as. Equal contents are equal lists. -/

namespace Sys2Proof.Machine

/-- Contents by address; an address not listed holds the default of the memory. -/
abbrev Sparse (w : Nat) := List (Nat × BitVec w)

/-- The value at address `a`, where an unlisted address reads as `d`. -/
def readAt {w : Nat} (d : BitVec w) : Sparse w → Nat → BitVec w
  | [], _ => d
  | (k, v) :: m, a => if a = k then v else readAt d m a

/-- `m` with `v` stored at `a`, in the order of addresses. -/
def insertAt {w : Nat} : Sparse w → Nat → BitVec w → Sparse w
  | [], a, v => [(a, v)]
  | (k, x) :: m, a, v =>
    if a = k then (k, v) :: m else if a < k then (a, v) :: (k, x) :: m else (k, x) :: insertAt m a v

/-- `m` with `v` stored at `a`; storing the default removes the entry, so the form stays canonical. -/
def writeAt {w : Nat} (d : BitVec w) (m : Sparse w) (a : Nat) (v : BitVec w) : Sparse w :=
  if v = d then m.filter (fun e => e.1 != a) else insertAt m a v

/-- The canonical form: addresses strictly rising and above `lo` where one is given, no default listed. -/
def sparseWf {w : Nat} (d : BitVec w) : Sparse w → Bool
  | [] => true
  | [(_, v)] => v != d
  | (a, v) :: (b, x) :: m => (v != d) && decide (a < b) && sparseWf d ((b, x) :: m)

/-- Write a list of values at consecutive addresses. -/
def writeList {w : Nat} (d : BitVec w) (m : Sparse w) (a : Nat) : List (BitVec w) → Sparse w
  | [] => m
  | v :: vs => writeList d (writeAt d m a v) (a + 1) vs

/-- Read `n` consecutive values. -/
def readList {w : Nat} (d : BitVec w) (m : Sparse w) (a n : Nat) : List (BitVec w) :=
  (List.range n).map (fun i => readAt d m (a + i))

/-- Remove every entry at addresses `lo` up to, not including, `hi`: they read as the default again. -/
def clearRange {w : Nat} (m : Sparse w) (lo hi : Nat) : Sparse w :=
  m.filter (fun e => decide (e.1 < lo) || decide (hi ≤ e.1))

end Sys2Proof.Machine
end

