-- ==== Sys2Proof/Machine/StateControl.lean ====
section
/-! DEFINITION. The parts of the state that the management and control side holds beside its registers: the Call
board, the cue sheet and its stacks, power, clocks and the thermal monitor (02_modes_and_cues.md,
19_power_clocks_thermal.md, 20_call_board_availability.md). -/

namespace Sys2Proof.Machine

/-- The class of an event (R551). -/
inductive EventClass where
  | info | warning | recoverable | fatal
  deriving DecidableEq, Repr

/-- An event as the rule that posts it gives it (R551, R552). `terminal` marks the fatal events that R559 lists. -/
structure Event where
  cls : EventClass
  block : Nat
  cause : Nat
  inst : Nat
  detail : Nat
  terminal : Bool := false
  deriving DecidableEq, Repr

/-- One entry of the queue or the log (R555). -/
structure CallEntry where
  seq : Nat
  code : Nat
  cls : EventClass
  nested : Bool
  critical : Bool
  safe : Bool
  done : Bool
  inst : Nat
  firstSec : Nat
  firstNs : Nat
  count : Nat
  lastNs : Nat
  lastSec : Nat
  detail : Nat
  terminal : Bool
  deriving DecidableEq, Repr

/-- A Company restart in progress (R561, R562): the tick of the decision, and whether core 0 is released. -/
structure CompanyRestart where
  decision : Nat
  released : Bool
  deriving DecidableEq, Repr

/-- The Call board beside its registers (R555 to R563). -/
structure CallState where
  queue : List CallEntry          -- waiting to be logged, oldest first
  log : List CallEntry            -- at most 4,096, oldest first
  recent : List Nat               -- SEQ of the 16 newest non-fatal entries, newest first (R556)
  current : Option Nat            -- SEQ under handling (R558)
  fatals : List (Nat × Nat)       -- fatal handling open: SEQ and tick it counts from (R559)
  deferred : List Nat             -- fatal entries posted during the safe state (R560)
  dropped : Nat                   -- events dropped since the last 0x302 (R557)
  safePending : Bool              -- safe state steps 3 and 4 still to come (R560)
  safeAt : Nat                    -- tick of the post that triggered the safe state (R560)
  viewGoes : Bool                 -- in them the panel stops, for its domain goes off in Intermission (R499)
  restart : Option CompanyRestart
  lastFail : Option Nat           -- tick of the last failed restart (R562)
  coKick : Nat                    -- tick at which the Company watchdog period began
  smKick : Nat                    -- tick at which the Stage Manager watchdog period began
  smExpiry : Option Nat           -- tick of the last Stage Manager expiry (R563)
  logIdxSm : Nat                  -- the Stage Manager's CALL_LOG_IDX (the register holds Company's)
  detailSm : Word                 -- the Stage Manager's CALL_POST_DETAIL
  latchCo : List Word             -- ENTRY1 to ENTRY7 latched for Company
  latchSm : List Word             -- and for the Stage Manager
  coIrqs : Nat                    -- interrupts of Company: entries (CALL_CTRL.CO_CLASS), alarms and takeovers (R437, R454)
  smIrqs : Nat                    -- interrupts of the Stage Manager by alarms (R437)
  companyHeld : Bool              -- cores 0 to 3 held in reset
  smHeld : Bool                   -- the Stage Manager core held in reset
  deriving DecidableEq, Repr

/-- The Call board right after cold reset. -/
def callInit : CallState :=
  { queue := [], log := [], recent := [], current := none, fatals := [], deferred := [], dropped := 0,
    safePending := false, safeAt := 0, viewGoes := false, restart := none, lastFail := none, coKick := 0, smKick := 0, smExpiry := none,
    logIdxSm := 0, detailSm := 0, latchCo := [], latchSm := [], coIrqs := 0, smIrqs := 0, companyHeld := true, smHeld := true }

/-- An entry of a cue or of the base configuration (R55). Offsets are from 0x1000_0000. -/
inductive CueEntry where
  | write (off : Nat) (value : Word)
  | masked (off : Nat) (mask value : Word)
  | tableRef (block num image dest len : Nat)
  | tableInline (block num dest : Nat) (data : List Word)
  deriving DecidableEq, Repr

/-- A cue (R54), parsed. -/
structure Cue where
  slot : Nat
  kind : Nat
  mode : Nat
  flags : Nat
  domainMask : Nat
  name : List Byte
  entries : List CueEntry
  deriving DecidableEq, Repr

/-- The base configuration (R56), parsed: its entries and the mode cue slot of modes 2 to 7. -/
structure BaseConfig where
  modeCue : List Nat
  entries : List CueEntry
  deriving DecidableEq, Repr

/-- A cue stack: the mode level, user levels 1 to 4 in order, and the firmware overlay (R59 to R61). -/
structure CueStack where
  modeCue : Option Nat
  users : List Nat
  overlay : List (Nat × Word)
  deriving DecidableEq, Repr

/-- A table a cue can load: the block code (base bits [22:16]) and the table number (R55). -/
abbrev TableKey := Nat × Nat

/-- The level of a stack that an entry stands in: the base configuration, the mode cue of a slot, a user level with its slot, or the
firmware overlay (R59). -/
inductive EntryLevel where
  | base
  | modeCue (slot : Nat)
  | user (level slot : Nat)
  | overlay
  deriving DecidableEq, Repr

/-- The entries that name a table, each with its level (R63). -/
abbrev TableSource := List (EntryLevel × CueEntry)

/-- The register image and rebuilt tables of a commit (R68), with the stack and mode it makes active. -/
structure CommitImage where
  enters : Option Nat             -- the mode that a transition's commit, or the first one, enters
  passed : Bool                   -- the admission check of R386 has passed for it
  regs : List (Nat × Word)
  tables : List (TableKey × Sparse 8)
  tableSrc : List (TableKey × TableSource)
  lines : List (Nat × Word)       -- the line-timed bits that entries name, by register (R508)
  stack : CueStack
  deriving DecidableEq, Repr

/-- The progress of a commit (R68): idle, preparing, or armed at a tick. -/
inductive CommitState where
  | idle
  | preparing (img : CommitImage)
  | armed (img : CommitImage) (at_ : Nat) (deferred : Bool)
  deriving DecidableEq, Repr

/-- The cue sheet and the stacks beside the CUE registers. -/
structure CueState where
  slots : List (Nat × Cue)        -- the cue store, by slot (R43)
  base : BaseConfig
  tableStore : List (List Byte)   -- table images by index (R83)
  active : CueStack
  pending : CueStack
  tableSrc : List (TableKey × TableSource)    -- entries naming each table at the previous commit (R63)
  tables : List (TableKey × Sparse 8)         -- active banks
  commit : CommitState
  load : Option (Nat × Nat)       -- a cue load in progress (R58): slot and scratch SRAM offset
  locked : Bool                   -- the first commit after Dawn has been accepted (R73)
  startVals : List (Nat × Word)   -- starting values that differ from Reset (R59)
  firstDone : Bool                -- a cue point has followed the first commit
  late : Bool                     -- the armed commit has been counted as late (R69)
  swaps : List (TableKey × Nat)   -- bank swaps of each table (R63, R174)
  deriving DecidableEq, Repr

def stackInit : CueStack := { modeCue := none, users := [], overlay := [] }

def cueInit : CueState :=
  { slots := [], base := { modeCue := [], entries := [] }, tableStore := [], active := stackInit,
    pending := stackInit, tableSrc := [], tables := [], commit := .idle, load := none, locked := false, startVals := [],
    firstDone := false, late := false, swaps := [] }

/-- One record of the rail board table (R534). -/
structure RailRec where
  rail : Nat
  pgUsed : Bool
  onDelay : Nat
  pgTimeout : Nat
  offDelay : Nat
  follow : Nat
  deriving DecidableEq, Repr

/-- A mode transition in progress (R44, R532): the modes, when it began, whether the drain of R47 runs, the DOMAIN_MASK
of the new mode cue, and whether admission failed on a wake (R53). -/
structure Transition where
  src : Nat
  dst : Nat
  start : Nat
  draining : Bool
  mask : Nat
  held : Bool
  deriving DecidableEq, Repr

/-- Rails that were raised outside a requested transition and whose PG may not have risen (R536, R537). -/
structure RailRise where
  since : Nat                     -- the tick at which they were raised
  old : Nat                       -- PWR_EN before
  off : Nat                       -- the sum of OFF_DELAY_US of the rails dropped before them
  delay : Nat                     -- the sum of their ON_DELAY_US
  ports : Bool                    -- a cue point raised them for the sensor ports that it releases (R51)
  deriving DecidableEq, Repr

/-- Why the device is in Dark (R44). -/
inductive DarkCause where
  | none | unpowered | coldReset | bootFail | refclk | pll | pllHold | curtain | warmPin | supply | railTimeout
  deriving DecidableEq, Repr

/-- Power, clocks and the thermal monitor beside their registers. -/
structure PowerState where
  aonValid : Bool                 -- the always-on supply is valid (R576)
  dark : DarkCause
  rails : List RailRec
  xfer : Option Transition
  rise : Option RailRise
  nvmLock : Bool                  -- rail 0 lost: the NVM controller refuses every operation (R538)
  warmPin : Bool                  -- WARM_RST_N held low
  supplyLow : Bool                -- a main supply is out of range (R578)
  unlocked : List (Nat × Nat)     -- PLLs that lost lock since the last restart, and the tick at which each did (R543)
  pllWait : Option Nat            -- the restart of R543 waits for its millisecond, since this tick
  restart : Bool                  -- Dark, held ends when its conditions are met
  releasedAt : Nat                -- tick of the last reset release (R44)
  badRun : Nat                    -- consecutive bad REFCLK windows (R540)
  goodRun : Nat                   -- consecutive good windows
  pllFailAt : Option Nat          -- device time (ns) of the last failed relock (R543)
  thermtrip : Bool                -- THERMTRIP_N asserted (R547)
  curtainTimes : List Nat         -- device time (ns) of the last three Curtains, newest first (R550)
  coolFrom : Option Nat           -- tick at which the cooling period began (R549)
  coolDone : Bool                 -- a cooling period is complete (R550)
  belowFrom : Option Nat          -- tick since which every site reads below 108.0 °C (R546)
  deriving DecidableEq, Repr

def powerInit : PowerState :=
  { aonValid := true, dark := .coldReset, rails := [], xfer := none, rise := none, nvmLock := false, warmPin := false, supplyLow := false,
    unlocked := [], pllWait := none, restart := false, releasedAt := 0, badRun := 0,
    goodRun := 0, pllFailAt := none, thermtrip := false, curtainTimes := [], coolFrom := none, coolDone := false,
    belowFrom := none }

/-- The answer of the last bus access: the data returned, and whether it ended in a bus error (R16, R17, R32). -/
structure BusResponse where
  data : Word
  high : Word := 0                -- the upper half of an 8-byte read (R185)
  error : Bool
  deriving DecidableEq, Repr

/-- SYS and bus state beside the registers: high words latched by low-word reads (R18), the bus answer, and what
Dawn fixed of the Company firmware (R561). -/
structure SysState where
  latches : List (Nat × Word)
  bus : BusResponse
  coLen : Nat
  coEntry : Nat
  coDigest : List Byte
  fwGuard : Bool                  -- the firmware region is protected, from Dawn step 8 on (R561)
  board : List (List Byte × List Byte)  -- board tables of the running image by tag (R84)
  deriving DecidableEq, Repr

def sysInit : SysState :=
  { latches := [], bus := { data := 0, error := false }, coLen := 0, coEntry := 0, coDigest := [], fwGuard := false,
    board := [] }

end Sys2Proof.Machine
end

