-- ==== Sys2Proof/Machine/StateFrame.lean ====
section
/-! DEFINITION. What the frame path holds beside its registers: ingest (04_sensor_ingest.md), the ring, ledger and
combiner (07_ring_ledger_triggers.md), the scene cells (06_scene_cells.md), the pixel pipeline
(05_pixel_pipeline.md), the hash engines (09_provenance.md) and the Footlights buffer pool (R509 to R512). -/

namespace Sys2Proof.Machine

/-- A stream descriptor (R110). -/
structure StreamDesc where
  en : Bool
  seqchk : Bool
  vc : Nat
  dt : Nat
  cfa : Nat
  embMax : Nat
  width : Nat
  height : Nat
  deriving DecidableEq, Repr

/-- A line of one member as it stands after fill: its bytes in CSI-2 packing and the pixels that were received. -/
structure Line where
  bytes : List Byte
  kept : Nat
  deriving DecidableEq, Repr

/-- The share of one member port in an open frame (R114, R115). -/
structure Member where
  port : Nat
  started : Bool
  late : Bool
  ended : Bool
  lines : List Line
  deriving DecidableEq, Repr

/-- A frame that ingest has open (R116). -/
structure OpenFrame where
  num : Nat
  port : Nat
  desc : Nat
  d : StreamDesc
  fill : Nat                        -- INGEST_FILL.VALUE, latched at its Frame Start (R65)
  interleave : Bool
  members : List Member
  emb : List (List Byte)
  since : Nat                       -- tick of the Frame Start that opened it (R115, R122)
  timeoutMs : Nat                   -- INGEST_TIMEOUT.FRAME_MS, latched with FILL
  skewUs : Nat                      -- INGEST_SKEW.US, latched with FILL
  deriving DecidableEq, Repr

/-- A transfer as an SPI controller drives it (R137): the chip select, CPOL and CPHA, the bit order of each byte, the half period of SCLK
in ns, and the bytes in the order of the wire. -/
structure SpiWire where
  cs : Nat
  cpol : Bool
  cpha : Bool
  lsbFirst : Bool
  halfNs : Nat
  bytes : List Byte
  deriving DecidableEq, Repr

/-- An SPI controller (R137 to R139): the firmware transfer (chip select and length), whether it is on the wire, the
byte offset of the running script, whether a script waits for the firmware transfer, and the last transfer driven. -/
structure SpiCtl where
  job : Option (Nat × Nat)
  jobRuns : Bool
  script : Option Nat
  scriptDue : Bool
  driven : Option SpiWire
  deriving DecidableEq, Repr

def spiInit : SpiCtl := { job := none, jobRuns := false, script := none, scriptDue := false, driven := none }

/-- A sensor port beside its registers. `group` lists the members of a formed group; `refused` is the disabling of
R107 and R113; `valid` says which descriptors R111 leaves in force. -/
structure IngestPort where
  group : List Nat
  refused : Bool
  valid : List Bool
  opens : List OpenFrame
  lastNo : List (Nat × Nat)
  spi : SpiCtl
  xtrigEnd : Option Nat           -- device time (ns) at which the XTRIG pulse ends
  hsAt : Option Nat               -- tick of the last packet (`INGEST_STATUS.HS`)
  deriving DecidableEq, Repr

def ingestInit : IngestPort :=
  { group := [], refused := false, valid := [false, false, false, false], opens := [], lastNo := [], spi := spiInit,
    xtrigEnd := none, hsAt := none }

/-- A frame of the ledger: the fields of its record (R235) and what is still to happen to it. `await` and `written`
name destinations: 0 magazine A, 1 magazine B, 2 the partner. -/
structure Frame where
  num : Nat
  port : Nat
  desc : Nat
  vc : Nat
  seq : Nat                       -- index of the frame within its stream
  fs : Nat                        -- corrected Frame Start time in ns of device time
  disp : Nat
  reason : Nat
  epoch : Nat
  pos : List Nat
  flags : Nat
  counts : List Nat
  digestRef : Nat
  slot : Option Nat
  d : StreamDesc
  emb : List (List Byte)
  rows : Nat                      -- raw lines complete in the ring slot
  closed : Bool
  spilled : Bool
  hashed : Bool
  linked : Bool
  handed : Bool                   -- handed to the coder or the mirror
  await : List Nat
  since : Nat                     -- tick at which it was committed, or to the partner (R466)
  written : List Nat
  partner : Option Nat            -- the partner's disposition
  finalAt : Option Nat            -- tick at which the disposition became final, while the record waits
  stripes : List (List Byte)      -- stripe digests, from the close on
  rehash : List Nat               -- stripes whose rehash runs
  redone : List (Nat × List Byte) -- stripes whose rehash has ended while the frame is open, with their digests (R295)
  codedSel : Nat                  -- HASH_CTRL.CODED latched at the Frame Start (R65, R293)
  rehashed : Bool
  failMask : Nat
  coded : List Byte               -- coded digest, empty while there is none
  origin : Option Nat             -- the sender's number of a mirror frame (R465)
  cut : Bool                      -- its segment lost power before it was linked: it never is (R288)
  offFinal : Bool                 -- became final while the hash engines were off (R289)
  deriving DecidableEq, Repr

/-- A ring partition (R220): its descriptor bytes, whether it is valid, slots never used and slots freed in order. -/
structure Part where
  cfg : List Byte
  ok : Bool
  fresh : Nat
  freed : List Nat
  deriving DecidableEq, Repr

def partInit : Part := { cfg := List.replicate 32 0, ok := false, fresh := 0, freed := [] }

/-- A credit path (R244). -/
structure Credit where
  issued : Nat
  returned : Nat
  outstanding : Nat
  deriving DecidableEq, Repr

/-- An activation of a pin in progress (R209): accepted with its tick, found stuck, or only tracked when discarded. -/
structure PinState where
  held : Bool
  discarded : Bool
  since : Nat
  lastEdge : Option Nat           -- edge time of the last activation that was not discarded
  outEnd : Option Nat             -- tick at which the output pulse ends
  latch : List Byte               -- the descriptor under which the activation is judged (R247)
  deriving DecidableEq, Repr

def pinInit : PinState := { held := false, discarded := false, since := 0, lastEdge := none, outEnd := none, latch := [] }

/-- An output fire whose range waits for the end of the settle window (R229): output, trigger time, the latched output
descriptor, and whether R232 ignores it. -/
structure Placement where
  out : Nat
  time : Nat
  cfg : List Byte
  ignored : Bool
  hints : List (Nat × Nat)        -- the partner's T by stream: its time in local ns (R460)
  deriving DecidableEq, Repr

/-- An active range of an output on a stream (R230, R232). `last` is the stream index of its last post frame; while
`waitT`, the trigger frame is still to open and `post` frames follow it. -/
structure Range where
  out : Nat
  stream : Nat
  last : Nat
  post : Nat
  dest : Nat
  waitT : Bool
  deriving DecidableEq, Repr

structure LedgerState where
  started : Bool                  -- a frame number has been assigned since Dawn
  next : Nat
  parts : List Part
  placed : Bool                   -- table 3 has taken effect once since Dawn
  partDue : Bool                  -- a table 3 held back for PENDING frames is due (R222)
  frames : List Frame             -- in number order
  opened : List Nat               -- frames opened, by stream 4p + d
  gone : List (Nat × Nat × Nat × Nat)  -- the frames no longer held: stream, number, index in it, time (R229)
  seen : List Nat
  finals : List (List Nat)        -- by port, dispositions 1 to 6
  credits : List Credit           -- paths 0 to 14
  ranges : List Range
  placements : List Placement
  sw : List (Option Nat)          -- pending times of the software inputs
  pins : List PinState
  pinBanks : List (Nat × Sparse 8) -- recent cue points (device time in ns), each with table 0 before it, oldest first
  placeDue : Nat                  -- placements that the allocations of their cycle go before (R233)
  tlogWait : List (Nat × Nat)     -- streams whose next frame is the T of a log entry, with its SEQ (R229, R246)
  toSpill : List Nat              -- final records not yet written out, in order of finality (R239)
  terms : List Bool               -- the AND of each term's level literals after the last change
  spillOk : Bool
  spillLost : Nat                 -- records lost since Dawn (R297)
  auditFrames : List (List Nat)
  auditCredits : List (List Nat)
  auditAt : Nat × Nat             -- seconds and nanoseconds of the last audit
  deriving DecidableEq, Repr

def ledgerInit : LedgerState :=
  { started := false, next := 0, parts := List.replicate 4 partInit, placed := false, partDue := false, frames := [],
    opened := List.replicate 16 0, gone := [], seen := List.replicate 4 0,
    finals := List.replicate 4 (List.replicate 6 0),
    credits := List.replicate 15 { issued := 0, returned := 0, outstanding := 0 }, ranges := [], placements := [],
    sw := List.replicate 4 none, pins := List.replicate 8 pinInit, pinBanks := [], placeDue := 0, tlogWait := [], toSpill := [],
    terms := List.replicate 16 false, spillOk := false, spillLost := 0,
    auditFrames := List.replicate 4 (List.replicate 8 0), auditCredits := List.replicate 15 (List.replicate 4 0),
    auditAt := (0, 0) }

/-- The frame that the cells are evaluating, with the settings latched at its Frame Start (R202). -/
structure CellEval where
  num : Nat
  port : Nat
  desc : Nat
  d : StreamDesc
  cw : Nat
  ch : Nat
  cols : Nat
  rows : Nat
  decided : Nat                   -- cell rows decided
  noPrev : Bool
  suppress : Bool
  mapSlot : Option Nat            -- address offset of the map slot written
  counts : List Nat
  fired : List Bool
  badTerm : Bool
  parity : List Nat               -- cells hit by a parity detection
  t0 : Sparse 8
  t1 : Sparse 8
  t2 : Sparse 8
  deriving DecidableEq, Repr

structure CellState where
  ctx : Sparse 8                  -- statistics and trigger halves of the contexts
  thumbs : Sparse 8               -- 64 bytes a cell
  thumbOk : Bool
  eval : Option CellEval
  latch1 : Sparse 8               -- group descriptors latched at the last Frame Start
  now : List Nat                  -- group counts of the current frame once its grid is complete (R194)
  last : List Nat                 -- group counts of the last evaluated frame
  gframe : List Nat
  size : Option (Nat × Nat)       -- WIDTH and HEIGHT of the previous evaluated frame
  rearm : Bool
  regrid : Bool                   -- a cue point changed PORT, DESC, CW or CH
  mapOk : Bool
  decidedTo : Nat                 -- contexts with a decision since the domain came on (R204)
  deriving DecidableEq, Repr

def cellInit : CellState :=
  { ctx := [], thumbs := [], thumbOk := false, eval := none, latch1 := [], now := List.replicate 64 0, last := List.replicate 64 0,
    gframe := List.replicate 64 0, size := none, rearm := false, regrid := false, mapOk := true, decidedTo := 0 }

/-- A frame that waits for development (R142, R146): its raw lies at `addr` of DRAM. -/
structure PipeSrc where
  num : Nat
  port : Nat
  vc : Nat
  fs : Nat
  d : StreamDesc
  addr : Nat
  live : Bool                     -- from the ring; otherwise a playback frame (R140)
  deriving DecidableEq, Repr

/-- A frame in development with its latched settings (R173). -/
structure PipeJob where
  src : PipeSrc
  regs : List Word                -- `PIPE_CTRL` to `PIPE_DEFECT_COUNT`
  tables : List (Sparse 8)
  swaps : List Nat                -- bank swaps of each table when the frame began (R174)
  epoch : Nat
  slice : Nat                     -- next slice
  granted : Bool
  replaying : Bool
  spent : Nat                     -- replays used
  damaged : List Nat
  recomputed : Bool
  filled : Bool                   -- a damaged slice holds the damage fill
  ended : Bool                    -- reclaimed: ends after the slice in progress (R147)
  due : Bool                      -- a slice without a replay left waits for a table refresh (R172)
  lines : List Nat                -- output lines written, by head
  head0 : Option (Nat × Nat)      -- buffer index and its DRAM address offset
  head1 : Option (Nat × Nat)      -- pool handle and its DRAM address offset
  deriving DecidableEq, Repr

/-- A port of the pipeline: frames waiting, the frame in progress, the head 0 buffers (the frame each holds). -/
structure PipePort where
  waiting : List PipeSrc
  job : Option PipeJob
  phase : Nat                     -- frames since the last selected one
  bufs : List (Option Nat)
  lastBuf : Nat
  headOk : List Bool
  deriving DecidableEq, Repr

def pipePortInit : PipePort := { waiting := [], job := none, phase := 0, bufs := [], lastBuf := 0, headOk := [false, false] }

/-- A picture handed to its consumer (R165): head, port, buffer or handle, frame, whether it is SKIPPED, its DRAM address
offset, the SRC of its frame, and the head descriptor it was made with. -/
structure HeadOut where
  head : Nat
  port : Nat
  buf : Nat
  num : Nat
  skipped : Bool
  addr : Nat
  src : Nat
  desc : List Byte
  deriving DecidableEq, Repr

/-- A table refresh in progress (R172): the port whose slice waits and the table. -/
structure TableRefresh where
  port : Nat
  table : Nat
  deriving DecidableEq, Repr

structure PipeState where
  ports : List PipePort
  out : List HeadOut              -- pictures that no consumer has taken yet, oldest first
  turn : Nat                      -- port granted last
  run : Nat                       -- consecutive slices granted to it
  refresh : Option TableRefresh
  deriving DecidableEq, Repr

def pipeInit : PipeState := { ports := List.replicate 4 pipePortInit, out := [], turn := 0, run := 0, refresh := none }

/-- A second latch of the hash engines (R297). -/
structure SecondLatch where
  sec : Nat
  ns : Nat
  segment : Nat
  segFirst : Nat
  linkFrame : Nat
  finCount : Nat
  digLost : Nat
  spillLost : Nat
  link : List Byte
  fin : List Byte
  deriving DecidableEq, Repr

structure HashState where
  active : Bool                   -- a segment is open
  segment : Nat
  segFirst : Nat
  bootSeq : Nat
  link : List Byte
  link2 : List Byte               -- the duplicate heads (R290)
  fin : List Byte
  fin2 : List Byte
  lastFrame : Nat
  finCount : Nat
  digLost : Nat
  ringOk : Bool
  latch : Option SecondLatch
  signSeq : Nat
  signedSeg : Nat                 -- SEGMENT of the previous signed manifest
  restarted : Bool                -- a Company restart since the previous signed manifest
  job : Option (Nat × Nat)        -- source and length of the firmware job
  jobHit : Bool                   -- the job was restarted once
  codedDue : List (Nat × List Byte) -- coded digests in the making, by frame (R293)
  codedHit : List Nat             -- frames whose coded digest was restarted once
  deriving DecidableEq, Repr

def hashInit : HashState :=
  { active := false, segment := 0, segFirst := 0, bootSeq := 0, link := [], link2 := [], fin := [],
    fin2 := [], lastFrame := 0, finCount := 0, digLost := 0, ringOk := false, latch := none, signSeq := 0,
    signedSeg := 0, restarted := false, job := none, jobHit := false, codedDue := [], codedHit := [] }

/-- A handle of the Footlights buffer pool (R510): its owner (0 none, 1 firmware, 2 head 1), the layers that name it,
the pushes that latched it, and the PENDING mark of R511. -/
structure PoolHandle where
  owner : Nat
  layers : Nat
  pushes : Nat
  pendingFree : Bool
  deriving DecidableEq, Repr

def handleFree : PoolHandle := { owner := 0, layers := 0, pushes := 0, pendingFree := false }

structure PoolState where
  handles : List PoolHandle
  base : Nat                      -- DRAM address offset of handle 0
  units : Nat                     -- buffer size in units of 4 KiB
  deriving DecidableEq, Repr

def poolInit : PoolState := { handles := [], base := 0, units := 0 }

end Sys2Proof.Machine
end

