-- ==== Sys2Proof/Machine/StateLink.lean ====
section
/-! DEFINITION. What the pair and the Kurnarik link hold beside their registers (15_pair_and_kurnarik.md). -/

namespace Sys2Proof.Machine

/-- The type and payload of a flit (R468). -/
inductive FlitBody where
  | null
  | hello (hb : Heartbeat) (topo : Nat)
  | heartbeat (hb : Heartbeat)
  | time (own lastDep lastArr : Nat)
  | trig (output : Nat) (time : Nat) (frames : List (Nat × Nat))
  | cuesel (entry : Nat)
  | disp (entries : List (Nat × Nat × Nat × Nat))      -- FRAME, FS in ns (seconds bits [15:0]), SRC, DISP
  | frameHdr (num fs src dt width height cfa emb bytes : Nat)
  | raw (bytes : List (BitVec 8))
  | frameEnd (num : Nat) (poison : Bool)
  | mirrorAck (entries : List (Nat × Nat))             -- FRAME, DISP
  | unknown (type : Nat)
  deriving DecidableEq, Repr

/-- Flits that are sequenced and use a credit (R468). -/
def FlitBody.sequenced : FlitBody → Bool
  | .null | .hello .. | .heartbeat .. | .time .. | .unknown .. => false
  | _ => true

/-- A Kurnarik port (R467 to R472). `replay` holds the sequenced flits sent and not acknowledged, oldest first; `queue`
the flits that wait for replay room or credits, or for the wake of the lanes. -/
structure KPort where
  nextSeq : Nat
  replay : List FlitBody
  queue : List FlitBody
  stuck : Nat                     -- replays without ACK progress
  rxAck : Nat                     -- SEQ of the last sequenced flit received in order, modulo 2^32
  nakDue : Bool                   -- the next outgoing flit carries NAK
  rxmask : Nat                    -- lanes on which this port receives
  txmask : Nat                    -- lanes the partner receives on
  credits : Nat                   -- credits still to return to the partner
  hello : Option Heartbeat        -- the matching HELLO received in this training
  helloOut : Bool
  failAt : Option Nat             -- tick of the last failed attempt
  trainAt : Nat                   -- tick at which training began
  ackAt : Nat                     -- tick since which ACK has not advanced while flits are unacknowledged (R469)
  sentAt : Nat                    -- tick at which the port last sent a flit (R402)
  resend : Option Bool            -- the replay buffer leaves again once the lanes have woken, after an ALIGN or not (R405, R471)
  alignAt : Nat                   -- tick at which the port last sent ALIGN (R467)
  wire : List (BitVec 8)          -- the last flit sent (R468)
  timeDep : Nat                   -- departure of the last TIME flit received
  timeArr : Nat                   -- its arrival
  deriving DecidableEq, Repr

def kportInit : KPort :=
  { nextSeq := 1, replay := [], queue := [], stuck := 0, rxAck := 0, nakDue := false, rxmask := 0,
    txmask := 15, credits := 0, hello := none, helloOut := false, failAt := none, trainAt := 0, ackAt := 0, sentAt := 0,
    resend := none, alignAt := 0, wire := [], timeDep := 0, timeArr := 0 }

/-- A TRIG or CUESEL flit in the order of the events that caused them (R462): a fire whose range is still to be placed, by output and
trigger time, or a flit that can leave. -/
inductive PairSend where
  | placing (out time : Nat)
  | ready (b : FlitBody)
  deriving DecidableEq, Repr

/-- A mirror transfer of a committed frame, the port that carries it and the tick at which it began (R464, R466). -/
structure MirrorTx where
  num : Nat
  port : Nat
  since : Nat
  deriving DecidableEq, Repr

/-- A mirror frame arriving at the Understudy (R465): the sender's number, the local frame, its stream, embedded packets
still to come, and bytes that do not yet make a line or a packet. -/
structure MirrorRx where
  num : Nat
  frame : Nat
  port : Nat
  desc : Nat
  emb : Nat
  bytes : List (BitVec 8)
  deriving DecidableEq, Repr

structure KlinkState where
  ports : List KPort
  started : Bool                  -- TOPO was 1 or 2 at the last cue point (R450)
  firstCue : Bool                 -- a cue point has followed Dawn
  formedOnce : Bool
  missed : Nat                    -- missed periods since the last valid heartbeat
  hbSeq : Nat
  beatKl : Bool                   -- a valid heartbeat arrived in this period, by path
  beatEth : Bool
  yielding : Bool
  counts : List (Nat × Nat)       -- by port × 16 + kind
  mirror : List MirrorTx
  order : List PairSend           -- what waits for the fires before it, oldest first (R462)
  left : List Heartbeat           -- the last heartbeats with LEAVING that the device sent (R457)
  mirrorRx : List (Option MirrorRx) -- by Kurnarik port
  pin : Bool                      -- PAIR_PRIN
  partnerPref : Bool              -- the partner's ROLE_PREF (assumption 81)
  deriving DecidableEq, Repr

def klinkInit : KlinkState :=
  { ports := [kportInit, kportInit], started := false, firstCue := false, formedOnce := false, missed := 0, hbSeq := 0,
    beatKl := false, beatEth := false, yielding := false, counts := [], mirror := [], order := [], left := [],
    mirrorRx := [none, none], pin := false, partnerPref := false }

end Sys2Proof.Machine
end

