-- ==== Sys2Proof/Machine/StateMem.lean ====
section
/-! DEFINITION. What the DRAM controller holds beside its registers and the data itself (12_dram.md). -/

namespace Sys2Proof.Machine

/-- What a training helper took when it started (R390): the rank, `DRAM_TRN_ARG`, the address of its records, and
`DRAM_TRN_VAL`[7:0]. -/
structure TrnArgs where
  rank : Nat
  arg : Word
  addr : Nat
  val : Nat
  deriving DecidableEq, Repr

/-- Bytes on their way to one 256-byte unit at offset `at_`, with their poison tag. -/
structure HeldWrite where
  at_ : Nat
  bytes : List Byte
  poison : Bool
  deriving DecidableEq, Repr

/-- The DRAM controller. `poison` lists the 64-byte blocks (by address offset / 64) stored with the code NOT code
(R376), `bad` those whose stored code is neither (R375). Keys: a setting is (channel × 2 + rank) × 16 + number, a mode
register (channel × 2 + rank) × 256 + address, an error count kind × 16 + channel, a rank channel × 2 + rank, a delay
(channel × 2 + rank) × 2, + 1 for the read delay, a bank (channel × 2 + rank) × 16 + bank. -/
structure DramState where
  committed : Bool                -- COMMIT fixed the map (R389)
  retired : List Nat              -- groups left out of the map (R393)
  poison : List Nat
  bad : List Nat
  settings : List (Nat × Nat)     -- trained settings (R392)
  tracked : List (Nat × Int)      -- steps the oscillator tracking has moved each delay by (R383)
  modeRegs : List (Nat × Nat)     -- mode registers of the fitted devices
  errors : List (Nat × Nat)       -- REREAD_OK, POISON and STORED counts
  postponed : List (Nat × Nat)    -- refreshes postponed, by bank (R382)
  mr4 : List (Nat × Nat)          -- refresh rate last read, by rank
  wckOff : List Nat               -- channels whose WCK is stopped
  trnOp : Option Nat              -- training helper running
  trnCh : Nat                     -- its channels
  trnArgs : TrnArgs
  held : List HeldWrite           -- writes to groups that a training helper has, oldest first (R390)
  portOk : List Bool              -- panic usable, ports 0 to 7 (R379)
  codeBuf : List (Nat × Nat)      -- blocks with codes in the code buffers, as first block and count (R374)
  panicAt : List (Option Nat)     -- tick at which the panic episode of ports 0 to 7 began (R380)
  deriving DecidableEq, Repr

def dramInit : DramState :=
  { committed := false, retired := [], poison := [], bad := [], settings := [], tracked := [], modeRegs := [],
    errors := [], postponed := [], mr4 := [], wckOff := [], trnOp := none, trnCh := 0,
    trnArgs := { rank := 0, arg := 0, addr := 0, val := 0 }, held := [],
    portOk := List.replicate 8 false, codeBuf := [], panicAt := List.replicate 8 none }

end Sys2Proof.Machine
end

