-- ==== Sys2Proof/Machine/StateSerial.lean ====
section
/-! DEFINITION. What the serial lanes (13_serial_lanes.md), the Ethernet ports and device time (14_network_time.md) hold
beside their registers. -/

namespace Sys2Proof.Machine

/-- A record of the lane equalisation board table (R411). -/
structure LaneRec where
  lane : Nat
  rate : Nat
  pre : Nat
  main : Nat
  post : Nat
  ctle : Nat
  dfe : List Int
  floor : Nat
  preset : Nat
  alts : List Nat
  pol : Nat
  deriving DecidableEq, Repr

/-- What a transmitter puts out beside data and the pattern of an idle link (R402, R404, R407, R467): `n` IDLE or SLEEP blocks,
an ALIGN block, a number of UI of the wake pattern 0b1100, the ordered sets that PCIe uses for the same purposes. -/
inductive LaneBlock where
  | idle (n : Nat)
  | sleep (n : Nat)
  | align
  | wakePattern (ui : Nat)
  | idleOrderedSet
  | exitOrderedSet
  deriving DecidableEq, Repr

/-- Sync header of a data block and of a control block (R467). -/
def dataSync : BitVec 2 := 0b01
def controlSync : BitVec 2 := 0b10

/-- The block type byte of a Kurnarik control block. -/
def LaneBlock.type : LaneBlock → Option (BitVec 8)
  | .idle _ => some 0xC3
  | .sleep _ => some 0xD2
  | .align => some 0xE1
  | _ => none

/-- The sync header and the eight bytes of each Kurnarik control block before scrambling (R402). -/
def LaneBlock.blocks (b : LaneBlock) : List (BitVec 2 × List (BitVec 8)) :=
  let n := match b with
    | .idle n | .sleep n => n
    | .align => 1
    | _ => 0
  List.replicate n (controlSync, b.type.toList ++ List.replicate 7 0)

/-- A wake burst of a Kurnarik lane (R404). -/
def wakeBurst : List LaneBlock := [.wakePattern 1024, .idle 64]

/-- A lane. Receiver settings are numbered 0 CTLE, 1 to 5 DFE; `moved` gives their distance from the table values, `up` the
direction of the next step (R415). -/
structure Lane where
  moved : List Int
  up : List Bool
  turn : Nat
  trial : Option Nat              -- the setting whose step waits for its judgement
  lastFom : Nat
  low : Bool                      -- the last interval that counts was below the floor (R416)
  holdoff : Option Nat            -- tick from which adaptation goes on after a revert
  eq : List (Nat × Nat)           -- presets tried in this equalisation with their FOM (R417)
  preset : Option Nat             -- the preset kept
  sleepAt : Option Nat            -- tick of the last SLEEP block sent (R405)
  wakeHeld : Bool
  signalAt : Option Nat           -- tick of the last signal detect
  huntAt : Option Nat             -- tick since which the receiver hunts with signal, until it has posted NO_LOCK (R401)
  sent : List LaneBlock           -- what it last sent beside data, in order (R402, R404, R407, R467)
  deriving DecidableEq, Repr

def laneInit : Lane :=
  { moved := List.replicate 6 0, up := List.replicate 6 true, turn := 0, trial := none, lastFom := 0, low := false,
    holdoff := none, eq := [], preset := none, sleepAt := none, wakeHeld := false, signalAt := none, huntAt := none, sent := [] }

structure SerialState where
  lanes : List Lane
  table : List LaneRec            -- records accepted in Dawn (R412)
  deriving DecidableEq, Repr

def serialInit : SerialState := { lanes := List.replicate 26 laneInit, table := [] }

/-- A network stream (R444): its entry of NET table 0 and whether R445 leaves it enabled, the datagram and object counts,
the bytes of the object already sent, tokens in units of 1/2,000 bit and the tick they stand for. -/
structure NetStream where
  cfg : List Byte
  ok : Bool
  seq : Nat
  obj : Nat
  off : Nat
  tokens : Nat
  at_ : Nat
  deriving DecidableEq, Repr

def streamInit : NetStream :=
  { cfg := List.replicate 128 0, ok := false, seq := 0, obj := 0, off := 0, tokens := 0, at_ := 0 }

/-- An Ethernet port: its counts by kind, the last frame it drove with its FCS, and the frames that a near-end loopback holds
for its own receiver (R408). -/
structure NetPort where
  counts : List (Nat × Nat)
  wire : List Byte
  looped : List (List Byte)
  deriving DecidableEq, Repr

structure NetState where
  ports : List NetPort
  streams : List NetStream
  deriving DecidableEq, Repr

def netInit : NetState :=
  { ports := [{ counts := [], wire := [], looped := [] }, { counts := [], wire := [], looped := [] }], streams := List.replicate 4 streamInit }

/-- What takes effect at the next tick of device time (R433, R434). -/
inductive TimeNext where
  | step (ns : Int)
  | set (sec ns : Nat)
  | incr (v : Nat)
  deriving DecidableEq, Repr

/-- Device time beside its registers: the increment in force in units of 2^-40 ns, what waits for the next tick, the tick the
watch counts from, PPS and timecode, the next grid point of the schedule and the seconds above bit 31 of its anchor, the
keep-alive window. -/
structure TimeState where
  incr : Nat
  next : List TimeNext
  watchFrom : Nat
  ppsOut : Bool
  ppsFrom : Nat                   -- tick at which PPS_OUT last asserted
  ppsLast : Option Nat            -- tick of the last captured edge (R438)
  ltcRun : Nat                    -- consecutive valid words
  ltcOut : Nat                    -- the 80-bit word in progress
  grid : Nat                      -- the next grid point (R441)
  anchorHi : Nat
  schedOk : Bool                  -- R441: the period reaches 10,000 ns
  ka : Sparse 8                   -- window at offset 0x1000 (R447)
  kaFrom : Nat                    -- tick at which Midnight was entered
  deriving DecidableEq, Repr

def timeInit : TimeState :=
  { incr := 2748779069440, next := [], watchFrom := 0, ppsOut := false, ppsFrom := 0, ppsLast := none, ltcRun := 0, ltcOut := 0, grid := 0,
    anchorHi := 0, schedOk := true, ka := [], kaFrom := 0 }

end Sys2Proof.Machine
end

