-- ==== Sys2Proof/Machine/StateStore.lean ====
section
/-! DEFINITION. What the Ranorid coder and decoder (08_ranorid_raw.md) and the magazine engine (10_magazines.md) hold
beside their registers. -/

namespace Sys2Proof.Machine

/-- A frame in coding with what the coder latched when it began (R251, R257, R260, R272). `marks` gives, by cell, how far
detections have come: 1 coded again, 2 stored verbatim, 3 damaged. `target` is the magazine a failover sends it to. -/
structure CodeJob where
  num : Nat
  entry : List Byte
  epoch : Nat
  map : List Byte                 -- the copied map slot; empty when every cell takes class 0
  missing : Bool
  doubled : Bool
  cw : Nat
  ch : Nat
  budget : Nat
  marks : List (Nat × Nat)
  noIndex : Bool
  target : Option Nat
  deriving DecidableEq, Repr

/-- A decode in progress (R277): source and destination offsets in the DRAM data region, lengths, and the settings. -/
structure DecodeJob where
  src : Nat
  len : Nat
  dst : Nat
  size : Nat
  deriving DecidableEq, Repr

structure RawcState where
  jobs : List CodeJob             -- in the order they began
  kept : List CodeJob             -- settings of frames handed on and not yet final (R322)
  dec : Option DecodeJob
  deriving DecidableEq, Repr

def rawcInit : RawcState := { jobs := [], kept := [], dec := none }

/-- The superblock of a mounted volume (R326). -/
structure Superblock where
  gen : Nat
  volumeId : List Byte
  creator : List Byte
  sec : Nat
  ns : Nat
  total : Nat
  auCount : Nat
  nextAu : Nat
  takes : Nat
  badAus : Nat
  sn : List Byte
  mn : List Byte
  nguid : List Byte
  copy : Nat                      -- the copy that holds it
  deriving DecidableEq, Repr

/-- An open take (R317, R327): the directory entry in the making. `index` lists the frame records since the last index
record: frame, stream block, blocks, SRC. `cur` and `stop` are the next volume block and the end of the current AU run. -/
structure Take where
  slot : Nat
  id : List Byte
  flags : Nat
  sec : Nat
  ns : Nat
  first : Option Nat
  last : Nat
  frames : Nat
  blocks : Nat
  seq : Nat
  extents : List (Nat × Nat)
  cur : Nat
  stop : Nat
  puOpen : Nat
  duwOpen : Nat
  manifest : Nat
  indexAt : Nat
  index : List (Nat × Nat × Nat × Nat)
  bytes : Nat
  closing : Bool
  deriving DecidableEq, Repr

/-- A record that the engine has taken and not finished (R318, R328). `frame` names the frame of a TYPE 1 record; the rest
is set when the record is placed: volume block, stream block, blocks. -/
structure MagRecord where
  type : Nat
  key : Nat
  payload : List Byte
  frame : Option Nat
  src : Nat
  lba : Nat
  at_ : Nat
  blocks : Nat
  placed : Bool
  done : Bool
  deriving DecidableEq, Repr

/-- What an NVMe command is and what for (R307): Writes of frames, of other records and of volume metadata, Reads of firmware and of the
volume at mount, the logs LID 0x02 and 0x09, and the rest of the subset. -/
inductive NvmeUse where
  | write | record | metadata | read | volume | smart | endurance | identify | setFeatures | createQueue | deleteQueue | flush
  | deallocate
  deriving DecidableEq, Repr

/-- A command that the engine has for a port, in the order it goes to its queue: its controller, first volume block, block count, FUA,
whether it was issued again, whether the stage in progress waits for it, and what a Write of metadata puts at which byte. -/
structure NvmeCmd where
  use : NvmeUse
  ctrl : Nat
  lba : Nat
  blocks : Nat
  fua : Bool
  again : Bool
  staged : Bool
  data : Nat × List Byte
  deriving DecidableEq, Repr

/-- What follows the commands of a stage: the entry of a new take (R327), the steps of a close (R324), the new volume of an erase
(R329). -/
inductive MagEffect where
  | none | openEntry | closeEntry | closeFlush | closeSuper | closed | erased | mountStep (n : Nat)
  deriving DecidableEq, Repr

/-- Commands of the engine that run together and what follows when all have completed; stages run one after the other. -/
structure MagStage where
  cmds : List NvmeCmd
  effect : MagEffect
  deriving DecidableEq, Repr

/-- A coded frame in the staging SRAM (R318): its buffers, those the path has issued so far, and those returned. -/
structure StagedFrame where
  num : Nat
  total : Nat
  issued : Nat
  returned : Nat
  deriving DecidableEq, Repr

/-- A magazine operation in progress (R330): OP, DRAM offset, volume block, length. -/
structure MagOp where
  op : Nat
  addr : Nat
  lba : Nat
  len : Nat
  deriving DecidableEq, Repr

/-- A magazine port beside its registers. `step` counts the mount steps done (R310); `lost` says that the port gave up its magazine and
has opened no take since, so that its frames go to the other port (R321, R322). -/
structure MagPort where
  drive : Option Magazine
  perst : Bool                    -- MAG_x_PERST_N released
  attempts : Nat
  trainAt : Nat                   -- tick at which PERST_N was released, or the training attempt began (R304)
  bifur : Bool
  step : Nat
  sb : Option Superblock
  take : Option Take
  queue : List MagRecord
  cmds : List NvmeCmd
  plan : List MagStage            -- the stage in progress and those to come
  op : Option MagOp
  warned : Nat                    -- highest PU of 90 to 99 that was posted
  ejected : Bool
  lost : Bool
  deriving DecidableEq, Repr

def magPortInit : MagPort :=
  { drive := none, perst := false, attempts := 0, trainAt := 0, bifur := false, step := 0, sb := none, take := none, queue := [],
    cmds := [], plan := [], op := none, warned := 0, ejected := false, lost := false }

structure MagState where
  ports : List MagPort
  staged : List StagedFrame       -- in the order received
  halted : Bool                   -- the safe state lets no frame write begin (R560)
  deriving DecidableEq, Repr

def magInit : MagState := { ports := [magPortInit, magPortInit], staged := [], halted := false }

end Sys2Proof.Machine
end

