-- ==== Sys2Proof/Machine/StateTrust.lean ====
section
/-! DEFINITION. The trust side of the state: OTP (R87), the presence monitor (R96 to R99), the NVM controller and its
journal (R101 to R105), the running image and the signing engine (03_dawn_trust_presence.md). -/

namespace Sys2Proof.Machine

/-- The OTP fields (R87). Thermometer codes are held as the count of their set bits. -/
structure Otp where
  eodKeyDigest : List Byte
  makerDigests : List (List Byte)   -- programmed maker key digests, at most 4, in order of enrolment
  makerRevoke : Nat                 -- bit n revokes digest n
  rollbackSteps : Nat               -- 0 to 64
  lifecycle : Nat                   -- set bits of LIFECYCLE: 0 Blank, 1 Provisioned, 2 Field, 8 Retired
  sealSteps : Nat                   -- 0 to 16
  idSeed : List Byte                -- 32 bytes
  deriving DecidableEq, Repr

/-- A slot-rewrite session (R102): the target slot, the sectors erased, whether a page was programmed, and whether one of the header
was. -/
structure RewriteSession where
  slot : Nat
  erased : List Nat
  programmed : Bool
  header : Bool
  deriving DecidableEq, Repr

/-- An NVM operation in progress (R101). -/
inductive NvmOp where
  | append (page : Nat) (data : List Byte)
  | program (addr : Nat) (data : List Byte)
  | erase (addr : Nat)
  | read (addr : Nat)
  deriving DecidableEq, Repr

/-- A signing request in progress (R92, R298). -/
structure SignJob where
  domain : Nat
  addr : Nat
  latch : List Byte
  deriving DecidableEq, Repr

/-- The image the device booted (R82), as far as later steps need it. -/
structure RunningImage where
  fwVersion : Nat
  cfgVersion : Nat
  seq : Nat
  fwDigest : List Byte
  cfgDigest : List Byte
  deriving DecidableEq, Repr

/-- A record that the Stage Manager holds: for the controller, or, once refused with FULL, for an erased page (R101, R105). -/
structure HeldRecord where
  type : Nat
  payload : List Byte
  refused : Bool
  deriving DecidableEq, Repr

structure TrustState where
  otp : Otp
  service : Bool                    -- lifecycle Service in force (held in no OTP bit, R93)
  image : Option RunningImage
  confirmed : Bool                  -- TRUST_CTRL.CONFIRM was written in this session (R79)
  pressed : Bool                    -- PRESENCE_N is held low past an accepted press (R96)
  windowFrom : Option Nat           -- tick of the last accepted press whose window is open (R99)
  lfsr : BitVec 16                  -- R97
  driven : Bool                     -- the bit driven on SEAL_A at the last sample
  missHigh : Nat                    -- consecutive mismatches among samples driven high
  missLow : Nat                     -- and among samples driven low
  session : Option RewriteSession
  nvmOp : Option (NvmOp × Nat)      -- operation in progress and the tick it started at
  jrnlPage : Nat                    -- page offset the next record is looked for at
  jrnlSpent : Bool                  -- SEQ 0xFFFF_FFFF has been used: no further record (NVMC_JRNL_SEQ)
  held : List HeldRecord            -- records that wait for the controller or for an erased page (R101, R105)
  eraseRun : List Nat               -- sectors still to erase of the four oldest journal blocks, copy 0 first (R105)
  entropySeen : Bool                -- an entropy health test has failed (R90, R92)
  sign : Option SignJob
  deriving DecidableEq, Repr

/-- The trust state of a device as it leaves manufacture, with no NVM content. -/
def trustInit : TrustState :=
  { otp := { eodKeyDigest := List.replicate 64 0, makerDigests := [], makerRevoke := 0, rollbackSteps := 0,
             lifecycle := 0, sealSteps := 0, idSeed := List.replicate 32 0 },
    service := false, image := none, confirmed := false, pressed := false, windowFrom := none, lfsr := 0xACE1,
    driven := false, missHigh := 0, missLow := 0, session := none, nvmOp := none, jrnlPage := 0, jrnlSpent := false,
    held := [], eraseRun := [], entropySeen := false, sign := none }

end Sys2Proof.Machine
end

