-- ==== Sys2Proof/Machine/StateVideo.lean ====
section
/-! DEFINITION. What the H.265 encoders and the decoder hold beside their registers (11_video_coding.md). -/

namespace Sys2Proof.Machine

/-- A slice of a picture in coding (R343): its CTUs, the engine that codes it, the CTU row it ends with; its first CTU column and
row, its columns, and the number of its first CTU among those of its engine. -/
structure SlicePlan where
  ctus : Nat
  engine : Nat
  lastRow : Nat
  x : Nat
  y : Nat
  cols : Nat
  first : Nat
  deriving DecidableEq, Repr

/-- How a CTU is coded (R348, R353, R360): normally with its QP and, in a P picture, the vector its motion search found; in floor
mode as one skipped CU with merge index 0, or as one intra DC CU without residual. -/
inductive CtuMode where
  | normal (qp : Int) (motion : Option (Int × Int))
  | skip
  | intraDc
  deriving DecidableEq, Repr

/-- A picture in coding with the registers latched at its begin (R339): sources of the left and the right half, the
slices still to be emitted and the index of the next, the budget model's fullness in units of 1 / (90,000 × TIME_SCALE)
bit (R350), bits written, CTUs in floor mode, detections in the slice being coded, the QP offset of each CTU (R348); the left half's
head and the right half's width, the source frames of its reference pictures (R341), pictures since the last buffering period, what each
engine's CTUs cost and how many of them it codes normally (R353), and how the CTUs of the slices emitted were coded. -/
structure HevePic where
  left : Option HeadOut
  right : Option HeadOut
  cfg : List Word
  gang : Nat
  height : Nat
  idr : Bool
  newSeq : Bool
  endSeq : Bool                   -- an end-of-sequence NAL unit precedes it
  poc : Nat
  epoch : Nat
  fill : Nat
  slices : List SlicePlan
  index : Nat
  bits : Nat
  floored : Nat
  mapMissing : Bool
  hits : Nat
  offsets : List Int
  head : List Byte
  wr : Nat
  refs : List Nat
  since : Nat
  plan : List (List CtuCost)
  normal : List Nat
  coded : List CtuMode
  deriving DecidableEq, Repr

/-- A chunk that waits for ring space (R359): its header with EMIT still to fill in, and its bytes. -/
structure Chunk where
  header : List Byte
  bytes : List Byte
  deriving DecidableEq, Repr

/-- An encoder engine: source buffers waiting, the picture in coding, chunks that wait, the latched values and the picture
format of the previous picture, pictures since the sequence began, the next POC, the model's fullness; the source frames of the pictures
that the next P picture may reference, newest first (R341), and the output ring latched by the last picture: base and units (R339). -/
structure HeveEng where
  waiting : List HeadOut
  pic : Option HevePic
  held : List Chunk
  bad : Bool
  last : Option (List Word × List Nat)
  count : Nat
  poc : Nat
  fill : Nat
  newSeq : Bool                   -- the next picture starts a sequence (R560)
  idrNext : Bool                  -- the next picture is an IDR picture (R360)
  refs : List Nat
  ring : Option (Nat × Nat)
  deriving DecidableEq, Repr

def heveInit : HeveEng :=
  { waiting := [], pic := none, held := [], bad := false, last := none, count := 0, poc := 0, fill := 0, newSeq := false,
    idrNext := false, refs := [], ring := none }

/-- A buffer of the decoder: the picture in it (its POC) with its marks of the standard's C.5.2, and whether its index is
in the output FIFO or held by firmware; `made` marks a picture generated for an absent reference (R366). -/
structure HevdBuf where
  pic : Option Int
  needed : Bool
  ref : Bool
  latency : Nat
  out : Bool
  made : Bool
  deriving DecidableEq, Repr

def hevdBufFree : HevdBuf := { pic := none, needed := false, ref := false, latency := 0, out := false, made := false }

/-- The decoder: its buffers, the output FIFO, whether it waits for a buffer, and since which ticks the access unit at RD is in
decoding, waits left out, and it waits (R364, R367). -/
structure HevdState where
  bufs : List HevdBuf
  fifo : List Nat
  waitBuf : Bool
  began : Nat
  waitFrom : Nat
  deriving DecidableEq, Repr

def hevdInit : HevdState := { bufs := [], fifo := [], waitBuf := false, began := 0, waitFrom := 0 }

end Sys2Proof.Machine
end

