-- ==== Sys2Proof/Machine/StateView.lean ====
section
/-! DEFINITION. What motion feedback (16_motion_feedback.md), Footlights (17_footlights.md) and the management port
(18_management_port.md) hold beside their registers. -/

namespace Sys2Proof.Machine

/-- A record of the motion wheel board table (R474). -/
structure MotionRec where
  kind : Nat
  invert : Bool
  gray : Bool
  zLow : Bool
  zmode : Nat
  extra : Bool
  missing : Nat
  lines : Nat
  modulus : Nat
  home : Int
  gap : Nat
  short : Nat
  ssiBits : Nat
  ssiDiv : Nat
  period : Nat
  deriving DecidableEq, Repr

def motionRecNone : MotionRec :=
  { kind := 0, invert := false, gray := false, zLow := false, zmode := 0, extra := false, missing := 0, lines := 0,
    modulus := 0, home := 0, gap := 0, short := 0, ssiBits := 0, ssiDiv := 0, period := 0 }

/-- A motion channel. Times are numbers of 200 MHz samples. `steps` holds the accepted steps since the last standstill or
reversal, newest first, each with the counts it stands for (R486); `mark` is what was counted since the last index or
reference mark, `clean` says that no reversal fell between; `edges` gives for each input the edges of the other inputs
since its own last edge (R484). -/
structure MotionChan where
  on : Bool                       -- enabled at the last cue point
  lastEdge : Option Nat
  steps : List (Nat × Nat)
  lastBack : Option Bool          -- the direction of the last step
  mark : Option Int
  markBack : Bool
  clean : Bool
  indexed : Bool                  -- an index has come since the channel was enabled
  hall : Option Nat               -- the last valid Hall state
  tooth : Option Nat
  prevPeriod : Option Nat
  fast : Bool                     -- the last tooth was counted at a speed other than 0
  edges : List Nat
  gateSum : Int                   -- counts since the gate of count mode began (R486)
  frame : Option (Nat × Nat × Bool) -- SSI frame in progress: latch time (ns), its sample, data was high before it
  stepAt : Nat                    -- tick of the last step, or of enabling (R488)
  levelAt : List Nat              -- tick of the last accepted edge of each input (R484)
  beatAt : Nat                    -- tick of the last tooth or passing SSI frame (R484)
  gateAt : Nat                    -- tick at which the gate of count mode began (R486)
  ssiAt : Option Nat              -- tick of the latch of the last SSI frame (R482)
  deriving DecidableEq, Repr

def motionChanInit : MotionChan :=
  { on := false, lastEdge := none, steps := [], lastBack := none, mark := none, markBack := false, clean := true,
    indexed := false, hall := none, tooth := none, prevPeriod := none, fast := false, edges := [0, 0, 0], gateSum := 0,
    frame := none, stepAt := 0, levelAt := [0, 0, 0], beatAt := 0, gateAt := 0, ssiAt := none }

/-- A channel as it is enabled at tick `t`. -/
def motionChanAt (on : Bool) (t : Nat) : MotionChan :=
  { motionChanInit with on := on, stepAt := t, levelAt := [t, t, t], beatAt := t, gateAt := t }

/-- A position compare as latched at its arming (R490). -/
structure MotionCmp where
  ch : Nat
  dir : Nat
  periodic : Bool
  target : Int
  step : Nat
  deriving DecidableEq, Repr

def motionCmpInit : MotionCmp := { ch := 0, dir := 0, periodic := false, target := 0, step := 0 }

structure MotionState where
  recs : List MotionRec           -- as accepted in Dawn
  bad : List Bool                 -- a record was ignored
  chans : List MotionChan
  cmps : List MotionCmp
  deriving DecidableEq, Repr

def motionInit : MotionState :=
  { recs := List.replicate 4 motionRecNone, bad := List.replicate 4 false, chans := List.replicate 4 motionChanInit,
    cmps := List.replicate 8 motionCmpInit }

/-- A rectangle of panel pixels: first column, first line, and the column and line after the last. -/
structure PanelRect where
  x0 : Nat
  y0 : Nat
  x1 : Nat
  y1 : Nat
  deriving DecidableEq, Repr

/-- What the panel controller waits for while it starts or stops (R499). -/
inductive PanelStep where
  | none | reset | afterReset | sleepOut | script | sleepIn
  deriving DecidableEq, Repr

/-- Footlights beside its registers. `shadow` holds the shadow stages of line-timed registers that differ from the active
ones; `disabled` the layers that the last apply disabled; `sent` the DSI packets of the last transmission, each its data
type and its bytes. -/
structure ViewState where
  step : PanelStep
  stepAt : Nat                    -- tick at which the wait of the step began
  restart : Bool
  rstN : Bool
  ulps : Bool
  script : Nat
  shadow : List (Nat × Word)
  changed : Bool                  -- a shadow changed since the last apply
  disabled : List Bool
  held : List (Option Nat)        -- handle that the active stage of each layer holds
  pic : Option HeadOut            -- the picture of layer 0
  dirty : List PanelRect
  full : Bool                     -- the next push is a full push
  push : Option (List Nat)        -- handles that the push in progress latched
  teAt : Option Nat               -- tick from which the line count runs: the last accepted TE edge, or a new line period (R507)
  line0 : Nat                     -- the line count at that tick
  lineRest : Nat                  -- half nanoseconds of its line gone by then
  teFrom : Nat                    -- tick from which TE_TO_MS counts (R506)
  sent : List (Nat × List Byte)
  deriving DecidableEq, Repr

def viewInit : ViewState :=
  { step := .none, stepAt := 0, restart := false, rstN := false, ulps := false, script := 0, shadow := [], changed := false,
    disabled := List.replicate 4 false, held := List.replicate 4 none, pic := none, dirty := [], full := false,
    push := none, teAt := none, line0 := 0, lineRest := 0, teFrom := 0, sent := [] }

/-- The management port beside its registers: the pointer lies in `MGMT_STATUS`. -/
structure MgmtState where
  counts : List Nat               -- kinds 0 to 6
  cursor : Nat                    -- SEQ of the oldest entry not read through the port (R527)
  lost : Nat
  active : Nat                    -- enabled causes of ALERT_N at the last evaluation (R528)
  sent : List Byte                -- bytes of the last read
  deriving DecidableEq, Repr

def mgmtInit : MgmtState := { counts := List.replicate 7 0, cursor := 0, lost := 0, active := 0, sent := [] }

end Sys2Proof.Machine
end

