-- ==== Sys2Proof/Machine/State.lean ====
section
/-! DEFINITION. The state of the device: its registers, its memories, device time, and what each block holds beside its
registers; the reasons a step can stop; the state right after cold reset. -/

namespace Sys2Proof.Machine

/-- No command of this device ends in a fault: the spec answers a wrong access with a bus error or an event (R16, R32),
which is a next state. Never raised; safe. -/
inductive Fault where
  /-- Placeholder of the closed type: raised by no command. Safe: nothing stops with it. -/
  | none
  deriving DecidableEq, Repr

/-- Why a command has no meaning in the model. -/
inductive Refusal where
  /-- The command's meaning is not written yet; raised by an arm of `exec` only. Safe: the run stops. -/
  | notModelled (mnemonic : String)
  deriving DecidableEq, Repr

/-- Device time (R432): 48-bit seconds, nanoseconds below 10⁹ and a 40-bit fraction of a nanosecond. -/
structure DevTime where
  sec : BitVec 48
  ns : Nat
  frac : BitVec 40
  deriving DecidableEq, Repr

structure State where
  pending : List Instr
  ticks : Nat                     -- device clock ticks of 2.5 ns since cold reset
  time : DevTime
  regs : Sparse 32                -- active values of all registers, by offset from 0x1000_0000
  free : Nat                      -- free values taken so far
  scratch : Sparse 9              -- Company scratch SRAM, by offset from 0x0100_0000: bit 8 with each byte written
  scratchLost : Option Nat        -- the power of its domain came on: the free value of the bytes not written since (R532)
  smSram : Sparse 8               -- Stage Manager SRAM
  dram : Sparse 8                 -- DRAM data region, by offset from 0x8_0000_0000
  nvm : Sparse 8                  -- NVM, unlisted bytes read 0xFF (erased)
  mem : DramState
  sys : SysState
  cue : CueState
  call : CallState
  power : PowerState
  trust : TrustState
  ingest : List IngestPort        -- sensor ports 0 to 3
  ledger : LedgerState
  cell : CellState
  pipe : PipeState
  hash : HashState
  pool : PoolState
  klink : KlinkState
  rawc : RawcState
  mag : MagState
  heve : List HeveEng             -- encoder engines 0 and 1
  hevd : HevdState
  serial : SerialState
  net : NetState
  clock : TimeState               -- device time beside its counter
  motion : MotionState
  view : ViewState
  mgmt : MgmtState
  deriving DecidableEq, Repr

/-- The instances of the block lists: base offset of each instance and the registers it holds. -/
def regGroups : List (Nat × List RegDef) :=
  [(0x0, regsSys), (0x10000, regsCue), (0x20000, regsTrust)] ++
  (List.range 4).map (fun p => (0x40000 + 0x4000 * p, regsIngest)) ++
  [(0x80000, regsPipe), (0xC0000, regsCell), (0x100000, regsLedger), (0x140000, regsRawc)] ++
  (List.range 2).map (fun p => (0x180000 + 0x8000 * p, regsHeve)) ++
  [(0x1C0000, regsHevd), (0x200000, regsHash)] ++
  (List.range 2).map (fun p => (0x240000 + 0x100 * p, regsMag)) ++
  [(0x240000, regsMagCommon), (0x280000, regsDram)] ++
  (List.range 26).map (fun p => (0x2C0000 + 0x100 * p, regsLane)) ++
  [(0x2C0000, regsLaneCommon)] ++
  (List.range 2).map (fun p => (0x300000 + 0x1000 * p, regsNet)) ++
  [(0x340000, regsTime), (0x380000, regsKlink)] ++
  (List.range 4).map (fun p => (0x3C0000 + 0x100 * p, regsMotion)) ++
  [(0x3C0000, regsMotionCommon), (0x440000, regsView), (0x480000, regsMgmt), (0x4C0000, regsPower),
   (0x500000, regsClock), (0x540000, regsTherm), (0x580000, regsCall), (0x5C0000, regsNvmc)]

/-- The registers of a group, one by one: address and definition. -/
def expandGroup (g : Nat × List RegDef) : List (Nat × RegDef) :=
  (g.2.map (fun r => (List.range r.count).map (fun i => (g.1 + r.off + r.stride * i, r)))).flatten

/-- Set the registers of a group to their Reset values. -/
def resetGroup (m : Sparse 32) (g : Nat × List RegDef) : Sparse 32 :=
  (expandGroup g).foldl (fun m e => writeAt 0 m e.1 e.2.reset) m

/-- The register file after cold reset: every field at its Reset value. -/
def resetRegs : Sparse 32 := regGroups.foldl resetGroup []

/-- The device right after cold reset (R14, R576): every register at its Reset value, no command waiting, OTP and NVM as
on a device that no one has provisioned (assumption 4). -/
def State.reset : State :=
  { pending := [], ticks := 0, time := { sec := 0, ns := 0, frac := 0 }, regs := resetRegs, free := 0,
    scratch := [], scratchLost := none, smSram := [], dram := [], nvm := [], mem := dramInit, sys := sysInit, cue := cueInit, call := callInit,
    power := powerInit, trust := trustInit, ingest := List.replicate 4 ingestInit, ledger := ledgerInit,
    cell := cellInit, pipe := pipeInit, hash := hashInit, pool := poolInit, klink := klinkInit, rawc := rawcInit, mag := magInit,
    heve := [heveInit, heveInit], hevd := hevdInit,
    serial := serialInit, net := netInit, clock := timeInit,
    motion := motionInit, view := viewInit, mgmt := mgmtInit }

end Sys2Proof.Machine
end

