-- ==== Sys2Proof/Machine/Ops.lean ====
section
/-! DEFINITION. The named operations over registers, memories, device time and free values. -/

namespace Sys2Proof.Machine

/-! ### Registers -/

/-- The word held for register `a` (offset from 0x1000_0000). -/
def State.word (s : State) (a : Nat) : Word := readAt 0 s.regs a

def State.setWord (s : State) (a : Nat) (w : Word) : State := { s with regs := writeAt 0 s.regs a w }

/-- `w` with bits `lo` to `lo + width - 1` replaced by the low bits of `n`. -/
def insertBits (w : Word) (lo width n : Nat) : Word :=
  let m := BitVec.ofNat 32 ((2 ^ width - 1) * 2 ^ lo)
  (w &&& ~~~m) ||| (BitVec.ofNat 32 (n % 2 ^ width * 2 ^ lo))

/-- The value of a register field. -/
def State.fld (s : State) (f : Fld) : Nat := (s.word f.addr).toNat / 2 ^ f.lo % 2 ^ f.width

/-- A register field set to the low bits of `n`. -/
def State.setFld (s : State) (f : Fld) (n : Nat) : State :=
  s.setWord f.addr (insertBits (s.word f.addr) f.lo f.width n)

/-- A one-bit field as a truth value. -/
def State.flag (s : State) (f : Fld) : Bool := s.fld f != 0

def State.setFlag (s : State) (f : Fld) (b : Bool) : State := s.setFld f (boolNat b)

/-- Count a field up by `k`; it stays at all ones when full. -/
def State.addFld (s : State) (f : Fld) (k : Nat) : State :=
  s.setFld f (satAdd (2 ^ f.width - 1) (s.fld f) k)

/-- Count a field up by `k`, wrapping. -/
def State.wrapFld (s : State) (f : Fld) (k : Nat) : State := s.setFld f (s.fld f + k)

/-- Set bit `n` of a field that holds one flag per bit. -/
def State.orBit (s : State) (f : Fld) (n : Nat) : State := s.setFld f (s.fld f ||| 2 ^ n)

/-- Clear bit `n` of a field that holds one flag per bit. -/
def State.clrBit (s : State) (f : Fld) (n : Nat) : State :=
  s.setFld f (if (s.fld f).testBit n then s.fld f - 2 ^ n else s.fld f)

def State.setBit (s : State) (f : Fld) (n : Nat) (b : Bool) : State := if b then s.orBit f n else s.clrBit f n

/-- A 64-bit value held in two registers, low word at the lower offset (R18). -/
def State.fld64 (s : State) (lo hi : Fld) : Nat := s.fld lo + 2 ^ 32 * s.fld hi

def State.setFld64 (s : State) (lo hi : Fld) (n : Nat) : State := (s.setFld lo n).setFld hi (n / 2 ^ 32)

/-- The current mode code (`CUE_STATUS.MODE`). -/
def State.mode (s : State) : Nat := s.fld CUE_STATUS.MODE

/-- Power domain `d` is on (`POWER_STATUS.ON`). -/
def State.domainOn (s : State) (d : Nat) : Bool := (s.fld POWER_STATUS.ON).testBit d

/-! ### Time -/

/-- Device time in nanoseconds. -/
def State.nowNs (s : State) : Nat := s.time.sec.toNat * 1000000000 + s.time.ns

/-- Ticks of 2.5 ns in `n` nanoseconds, rounded up. -/
def nsTicks (n : Nat) : Nat := (2 * n + 4) / 5

/-- At least `n` nanoseconds have passed since tick `t`. -/
def State.elapsedNs (s : State) (t n : Nat) : Bool := decide (2 * n ≤ 5 * (s.ticks - t))

/-- A field of a written value. -/
def written (v : Word) (f : Fld) : Nat := bits v.toNat (f.lo + f.width - 1) f.lo

/-! ### Free values -/

/-- A fresh value that the spec leaves open, and the state that has taken it. -/
def State.takeFree (s : State) : BitVec 64 × State := (Config.freeValue s.free, { s with free := s.free + 1 })

/-- `n` fresh bytes whose values the spec leaves open. -/
def State.takeBytes (s : State) (n : Nat) : List Byte × State :=
  ((List.range n).map (Config.freeByte s.free), { s with free := s.free + 1 })

/-! ### Memories (R9, R32 to R34) -/

/-- A cell of scratch SRAM that holds a written byte. -/
def writtenCell (b : Byte) : BitVec 9 := 256#9 ||| b.setWidth 9

/-- The byte of scratch SRAM at offset `a` from 0x0100_0000: unknown where nothing was written since its domain was switched on
(R532), and 0 before that. -/
def State.scratchByte (s : State) (a : Nat) : Byte :=
  let c := readAt 0 s.scratch a
  if c.getLsbD 8 then c.setWidth 8
  else match s.scratchLost with
    | some g => Config.freeByte g a
    | none => 0

/-- Bytes of scratch SRAM at offset `a`. -/
def State.scratchBytes (s : State) (a n : Nat) : List Byte := (List.range n).map (fun i => s.scratchByte (a + i))

def State.writeScratch (s : State) (a : Nat) (bs : List Byte) : State :=
  { s with scratch := writeList 0 s.scratch a (bs.map writtenCell) }

/-- The channels of the map, ascending (R370, R393). -/
def dramChannels (s : State) : List Nat := (List.range 16).filter (fun c => !s.mem.retired.contains (c / 4))

/-- The per-channel capacity Cc in bytes (R370). -/
def dramCc (s : State) : Nat :=
  2 ^ (30 + min 2 (s.fld DRAM_CFG.DENSITY)) * (1 + s.fld DRAM_CFG.RANKS)

/-- Bytes in the DRAM data region (R33, R370): 0 until COMMIT. -/
def dramSize (s : State) : Nat :=
  if s.mem.committed then dramCc s / 16 * 15 * (dramChannels s).length else 0

/-- The channel that holds data offset `a` (R371). -/
def dramChannel (s : State) (a : Nat) : Nat :=
  let cs := dramChannels s
  cs.getD (a / 256 % cs.length) 0

/-- The per-channel offset of data offset `a` (R371). -/
def dramChannelOff (s : State) (a : Nat) : Nat := a / 256 / (dramChannels s).length * 256 + a % 256

/-- Data offset `a` maps to a fenced channel group (R395). -/
def dramFenced (s : State) (a : Nat) : Bool := (s.fld DRAM_MAP.FENCED).testBit (dramChannel s a / 4)

/-- A buffer of `n` bytes at DRAM address `a` lies wholly within the populated data region (R33). -/
def inDram (s : State) (a n : Nat) : Bool := decide (0x800000000 ≤ a) && decide (a + n ≤ 0x800000000 + dramSize s)

/-- The detection code of the 64-byte block at data offset `a` (R373). -/
def dramCode (a : Nat) (bs : List Byte) : Word := crc32c (leBytes 8 a ++ bs)

/-- Bytes of the DRAM data region at offset `a` from 0x8_0000_0000. Of a fenced group nothing is read (R395): the bytes
delivered with the poison are no bytes of the DRAM. -/
def State.dramBytes (s : State) (a n : Nat) : List Byte :=
  if s.fld DRAM_MAP.FENCED = 0 then readList 0 s.dram a n
  else (List.range n).map (fun i => if dramFenced s (a + i) then Config.openByte s.ticks (a + i) else readAt 0 s.dram (a + i))

/-- A training helper that moves settings after COMMIT blocks the groups it acts on (R390). -/
def dramTraining (s : State) (a : Nat) : Bool :=
  match s.mem.trnOp with
  | some op => op != 3 && s.mem.committed &&
      (List.range 4).any (fun i => s.mem.trnCh.testBit (dramChannel s a / 4 * 4 + i))
  | none => false

/-- No access reaches the devices at data offset `a`: its group is fenced, or a training helper has it (R390, R395). -/
def dramBlocked (s : State) (a : Nat) : Bool := dramFenced s a || dramTraining s a

/-- A read of `n` bytes at offset `a` carries the poison tag (R375, R376, R390, R395). -/
def State.poisoned (s : State) (a n : Nat) : Bool :=
  (s.mem.poison ++ s.mem.bad).any (fun b => decide (a < 64 * b + 64) && decide (64 * b < a + n)) ||
  ((s.fld DRAM_MAP.FENCED != 0 || s.mem.trnOp.isSome) &&
    (List.range ((a % 256 + n + 255) / 256)).any (fun i => dramBlocked s (a + 256 * i)))

/-- Bytes of the NVM; an erased byte reads 0xFF. -/
def State.nvmBytes (s : State) (a n : Nat) : List Byte := readList 0xFF s.nvm a n

def State.writeNvm (s : State) (a : Nat) (bs : List Byte) : State := { s with nvm := writeList 0xFF s.nvm a bs }

/-- A DRAM address that a register pair holds, as an offset into the data region (R33). -/
def dramOff (a : Nat) : Nat := a - 0x800000000

/-! ### Associations by key -/

/-- The entry of key `k` in a list of keyed values. -/
def keyGet {κ α : Type} [DecidableEq κ] (l : List (κ × α)) (k : κ) : Option α :=
  match l with
  | [] => none
  | (j, v) :: t => if j = k then some v else keyGet t k

/-- The list with the entry of key `k` replaced, or added at its end. -/
def keySet {κ α : Type} [DecidableEq κ] (l : List (κ × α)) (k : κ) (v : α) : List (κ × α) :=
  match l with
  | [] => [(k, v)]
  | (j, x) :: t => if j = k then (k, v) :: t else (j, x) :: keySet t k v

def keyDel {κ α : Type} [DecidableEq κ] (l : List (κ × α)) (k : κ) : List (κ × α) :=
  l.filter (fun e => !decide (e.1 = k))

/-- The element at index `i` of a list replaced by `f` of it. -/
def modAt {α : Type} (l : List α) (i : Nat) (f : α → α) : List α :=
  match l, i with
  | [], _ => []
  | x :: t, 0 => f x :: t
  | x :: t, n + 1 => x :: modAt t n f

/-! ### Credits -/

/-- `n` credits of path `p` issued (R244). -/
def creditIssue (p n : Nat) (s : State) : State :=
  { s with ledger := { s.ledger with credits := modAt s.ledger.credits p (fun c =>
      { c with issued := c.issued + n, outstanding := c.outstanding + n }) } }

/-- `n` credits of path `p` returned (R244). -/
def creditReturn (p n : Nat) (s : State) : State :=
  { s with ledger := { s.ledger with credits := modAt s.ledger.credits p (fun c =>
      { c with returned := c.returned + n, outstanding := c.outstanding - n }) } }

/-! ### Memory by absolute address -/

/-- `n` bytes at address `a` lie within the scratch SRAM or the populated DRAM data region (R32, R33). -/
def inMem (s : State) (a n : Nat) : Bool := (decide (0x1000000 ≤ a) && decide (a + n ≤ 0x1800000)) || inDram s a n

/-- Bytes at address `a` of scratch SRAM or DRAM; outside both they are bytes the spec leaves open. -/
def State.memBytes (s : State) (a n : Nat) : List Byte :=
  if inMem s a n = false then (List.range n).map (fun i => Config.openByte s.ticks (a + i))
  else if a < 0x1800000 then s.scratchBytes (a - 0x1000000) n
  else s.dramBytes (dramOff a) n

/-! ### Register groups by power domain -/

/-- Set every field of a register except those of `keep` to its Reset value. -/
def resetFields (m : Sparse 32) (a : Nat) (r : RegDef) (keep : FieldDef → Bool) : Sparse 32 :=
  let k := r.maskOf keep
  writeAt 0 m a ((readAt 0 m a &&& k) ||| (r.reset &&& ~~~k))

/-- Reset the fields of every register of some groups except those of `keep`. -/
def resetGroups (m : Sparse 32) (gs : List (Nat × List RegDef)) (keep : FieldDef → Bool) : Sparse 32 :=
  gs.foldl (fun m g => (expandGroup g).foldl (fun m e => resetFields m e.1 e.2 keep) m) m

/-- The lanes of a power domain (R396): magazines 0 to 15, Kurnarik 16 to 23, Ethernet 24 and 25. -/
def laneDomain (n : Nat) : Nat := if n < 8 then 23 else if n < 16 then 24 else if n < 24 then 25 else 26

/-- The register groups that lie in power domain `d` (R41 and each chapter's register section). -/
def domainGroups (d : Nat) : List (Nat × List RegDef) :=
  (if 6 ≤ d ∧ d ≤ 9 then [(0x40000 + 0x4000 * (d - 6), regsIngest)] else []) ++
  (if d = 10 then [(0x80000, regsPipe)] else []) ++
  (if d = 14 then [(0xC0000, regsCell)] else []) ++
  (if d = 15 then [(0x140000, regsRawc)] else []) ++
  (if d = 17 then [(0x180000, regsHeve)] else []) ++ (if d = 18 then [(0x188000, regsHeve)] else []) ++
  (if d = 19 then [(0x1C0000, regsHevd)] else []) ++ (if d = 20 then [(0x200000, regsHash)] else []) ++
  (if d = 21 then [(0x280000, regsDram)] else []) ++
  (if d = 23 then [(0x240000, regsMag)] else []) ++
  (if d = 24 then [(0x240100, regsMag)] else []) ++
  (if d = 25 then [(0x380000, regsKlink)] else []) ++
  (if d = 26 then [(0x300000, regsNet), (0x301000, regsNet)] else []) ++
  (if d = 27 then [(0x440000, regsView)] else []) ++
  (if d = 28 then (List.range 4).map (fun c => (0x3C0000 + 0x100 * c, regsMotion)) ++ [(0x3C0000, regsMotionCommon)] else []) ++
  ((List.range 26).filter (fun n => laneDomain n == d)).map (fun n => (0x2C0000 + 0x100 * n, regsLane))

end Sys2Proof.Machine
end

