-- ==== Sys2Proof/Machine/Buffers.lean ====
section
/-! DEFINITION. What several blocks share and a power domain takes away: the head 0 buffers of the pipeline (R165) and the
serial lanes (R396). -/

namespace Sys2Proof.Machine

/-! ### Head 0 buffers -/

def setPipe (p : PipeState) (s : State) : State := { s with pipe := p }

def modPipePort (p : Nat) (f : PipePort → PipePort) (s : State) : State :=
  setPipe { s.pipe with ports := modAt s.pipe.ports p f } s

def pipePort (s : State) (p : Nat) : PipePort := (s.pipe.ports[p]?).getD pipePortInit

/-- The free head 0 buffers of each port in `PIPE_BUF_FREE` (R165). -/
def showFree (s : State) : State :=
  let n (p : Nat) := ((pipePort s p).bufs.filter (fun b => b.isNone)).length
  (((s.setFld PIPE_BUF_FREE.PORT0 (n 0)).setFld PIPE_BUF_FREE.PORT1 (n 1)).setFld PIPE_BUF_FREE.PORT2 (n 2)).setFld
    PIPE_BUF_FREE.PORT3 (n 3)

/-- A consumer returns head 0 buffer `k` of port `p` (R165). -/
def releaseBuf (p k : Nat) (s : State) : State :=
  match (pipePort s p).bufs[k]? with
  | some (some _) => showFree (creditReturn (11 + p) 1 (modPipePort p (fun x => { x with bufs := x.bufs.set k none }) s))
  | _ => s

/-! ### Lanes -/

def setSerial (x : SerialState) (s : State) : State := { s with serial := x }

def modLane (l : Nat) (f : Lane → Lane) (s : State) : State := setSerial { s.serial with lanes := modAt s.serial.lanes l f } s

def laneOf (s : State) (l : Nat) : Lane := (s.serial.lanes[l]?).getD laneInit

/-- Lane `l` stops running. -/
def laneStop (l : Nat) (s : State) : State :=
  let s := modLane l (fun _ => laneInit) s
  let s := ((s.setFld (LANE_STATUS.RATE l) 15).setFlag (LANE_STATUS.LOCK l) false).setFlag (LANE_STATUS.TABLE l) false
  let s := (s.setFlag (LANE_STATUS.EQ_LOW l) false).setFlag (LANE_STATUS.FROZEN l) false
  (s.setFlag (LANE_STATUS.TX_SLEEP l) false).setFlag (LANE_STATUS.RX_SLEEP l) false

def lanesStop (ls : List Nat) (s : State) : State := ls.foldl (fun s l => laneStop l s) s

/-- Lanes of magazine port `k`, of Kurnarik port `p`, of Ethernet port `e` (R396). -/
def magLanes (k : Nat) : List Nat := (List.range 8).map (fun i => 8 * k + i)
def klLanes (p : Nat) : List Nat := (List.range 4).map (fun i => 16 + 4 * p + i)
def ethLane (e : Nat) : Nat := 24 + e

/-- The links of magazine port `k`: one of eight lanes, or two of four where it is bifurcated (R304, R396). -/
def magLinks (k : Nat) (bifur : Bool) : List (List Nat) :=
  if bifur then [(magLanes k).take 4, (magLanes k).drop 4] else [magLanes k]


end Sys2Proof.Machine
end

