-- ==== Sys2Proof/Machine/Pool.lean ====
section
/-! DEFINITION. The Footlights buffer pool (R509 to R512), from which head 1 of the pipeline takes its buffers. -/

namespace Sys2Proof.Machine

def setPool (p : PoolState) (s : State) : State := { s with pool := p }

/-- A handle that nothing refers to (R510). -/
def PoolHandle.isFree (h : PoolHandle) : Bool := h.owner == 0 && h.layers == 0 && h.pushes == 0

/-- The lowest free handle. -/
def poolLowest (s : State) : Option Nat := s.pool.handles.findIdx? (fun h => h.isFree)

/-- Handles that head 1 holds. -/
def poolHeadHeld (s : State) : Nat := (s.pool.handles.filter (fun h => h.owner == 2)).length

/-- Show the pool in `VIEW_POOL_STATUS` (R510, R511). -/
def poolShow (s : State) : State :=
  (s.setFld VIEW_POOL_STATUS.PENDING (s.pool.handles.filter (fun h => h.pendingFree)).length).setFld
    VIEW_POOL_STATUS.FREE (s.pool.handles.filter (fun h => h.isFree)).length

/-- Allocate the lowest free handle to an owner; head 1 holds at most HEAD_MAX (R509, R510, R512). -/
def poolTake (owner : Nat) (s : State) : Option (Nat × State) :=
  if owner = 2 ∧ s.fld VIEW_POOL_CFG.HEAD_MAX ≤ poolHeadHeld s then none
  else (poolLowest s).map (fun h =>
    (h, poolShow (creditIssue 9 1 (setPool { s.pool with
      handles := modAt s.pool.handles h (fun x => { x with owner := owner }) } s))))

/-- Change the references of handle `h`; when the last ends, it returns to the free list (R510 to R512). -/
def poolChange (h : Nat) (f : PoolHandle → PoolHandle) (s : State) : State :=
  match s.pool.handles[h]? with
  | none => s
  | some x =>
    let y := f x
    let freed := !x.isFree && y.isFree
    let y := if freed then { y with pendingFree := false } else y
    let s := setPool { s.pool with handles := modAt s.pool.handles h (fun _ => y) } s
    poolShow (if freed then creditReturn 9 1 s else s)

/-- The owner gives handle `h` up; a handle still held is PENDING (R511). -/
def poolDropOwner (h : Nat) (s : State) : State :=
  poolChange h (fun x => { x with owner := 0, pendingFree := decide (x.layers + x.pushes ≠ 0) }) s

/-- The DRAM address of handle `h` (R509). -/
def poolAddr (s : State) (h : Nat) : Nat := s.pool.base + h * s.pool.units * 4096

end Sys2Proof.Machine
end

