-- ==== Sys2Proof/Machine/Domains.lean ====
section
/-! DEFINITION. What a power domain loses when it goes off, the entry into Dark, held, and the hardware steps of the safe
state (R41, R532, R542, R560). None of these posts an event: the rules that call them do. -/

namespace Sys2Proof.Machine

/-- Frames that no chain will link any more (R288). -/
def cutFrames (q : Frame → Bool) (s : State) : State :=
  { s with ledger := { s.ledger with frames := s.ledger.frames.map (fun f => if f.linked = false ∧ q f then
      { f with cut := true } else f) } }

/-- What the sensor port loses: all but what its configuration in force says of its group and its streams. A frame that it had open,
where it went off without quiescing, stays without its end and is never linked. -/
def offIngest (p : Nat) (s : State) : State :=
  let x := (s.ingest[p]?).getD ingestInit
  let s := cutFrames (fun f => x.opens.any (fun o => o.num == f.num)) s
  { s with ingest := s.ingest.set p { ingestInit with group := x.group, refused := x.refused, valid := x.valid } }

/-- A head 0 picture that a powered-off encoder held goes back to its head. -/
def giveBack (o : HeadOut) (s : State) : State := releaseBuf o.port o.buf s

/-- What an encoder engine loses: its sources return to their heads. -/
def offHeve (e : Nat) (s : State) : State :=
  let h := (s.heve[e]?).getD heveInit
  let srcs := h.waiting ++ (h.pic.map (fun p => p.left.toList ++ p.right.toList)).getD []
  srcs.foldl (fun s o => giveBack o s) { s with heve := s.heve.set e heveInit }

/-- An encoder engine stops for the safe state: the picture and the chunks not yet written go, the next picture starts a
sequence (R560). -/
def stopHeve (e : Nat) (s : State) : State :=
  let h := (s.heve[e]?).getD heveInit
  let srcs := (h.pic.map (fun p => p.left.toList ++ p.right.toList)).getD []
  let s := srcs.foldl (fun s o => giveBack o s) { s with heve := s.heve.set e { h with pic := none, held := [], newSeq := true } }
  (s.setFlag (HEVE_STATUS.BUSY e) false).setFlag (HEVE_STATUS.OUT_WAITING e) false

/-- The pipeline loses its frames in progress, with their head 1 pictures, and its buffers (credit paths 11 to 14 are returned). -/
def offPipe (s : State) : State :=
  let held (p : Nat) := ((pipePort s p).bufs.filter (fun b => b.isSome)).length
  let s := (List.range 4).foldl (fun s p => creditReturn (11 + p) (held p) s) s
  let hs := s.pipe.ports.filterMap (fun p => p.job.bind (fun j => j.head1.map (fun x => x.1)))
  let s := hs.foldl (fun s h => poolChange h (fun x => { x with owner := 0 }) s) s
  { s with pipe := { pipeInit with out := s.pipe.out.filter (fun o => o.head == 1 && !hs.contains o.buf) } }

/-- Footlights loses its screen and its buffer pool (credit path 9 is returned). -/
def offView (s : State) : State :=
  let held := (s.pool.handles.filter (fun h => !h.isFree)).length
  let noHead (x : PipePort) : PipePort := { x with job := x.job.map (fun j => { j with head1 := none }) }
  creditReturn 9 held { s with
    view := viewInit, pool := poolInit
    pipe := { s.pipe with out := s.pipe.out.filter (fun o => o.head != 1), ports := s.pipe.ports.map noHead } }

/-- A magazine port loses everything but the magazine in it. -/
def offMag (k : Nat) (s : State) : State :=
  let p := (s.mag.ports[k]?).getD magPortInit
  lanesStop (magLanes k) { s with mag := { s.mag with ports := s.mag.ports.set k { magPortInit with drive := p.drive } } }

/-- The pair is unformed and the ports are OFF; TERM and the role of a device with TOPO 0 stay (R453, R472). -/
def offKlink (s : State) : State :=
  let prin := s.fld KLINK_PAIR.TOPO % 3 == 0 && s.klink.firstCue
  lanesStop (klLanes 0 ++ klLanes 1) { s with klink :=
    { klinkInit with started := s.klink.started, firstCue := s.klink.firstCue, formedOnce := s.klink.formedOnce
                     left := s.klink.left
                     pin := s.klink.pin && prin } }

/-- Pins and outputs stop with the motion and triggers domain (R213, R496); the ledger keeps its records and counters
(R243, R245), and the wheel table its records. -/
def offMotion (s : State) : State :=
  { (s.setFld LEDGER_PIN_STATUS.LEVEL 0).setFld LEDGER_PIN_STATUS.OUT 0 with
    motion := { motionInit with recs := s.motion.recs, bad := s.motion.bad }
    ledger := { s.ledger with pins := List.replicate 8 pinInit, terms := List.replicate 16 false, sw := List.replicate 4 none } }

/-- One DRAM half without power: what its channels held is lost. -/
def offDram (half : Nat) (s : State) : State :=
  { s with dram := s.dram.filter (fun e => dramChannel s e.1 / 8 != half) }

/-- What the blocks of domain `d` hold beside their registers, lost when the domain goes off (R532). -/
def hiddenOff (d : Nat) (s : State) : State :=
  let others (ds : List Nat) : Bool := ds.any (fun k => k != d && s.domainOn k)
  if d = 5 then { s with scratch := [] }
  else if 6 ≤ d ∧ d ≤ 9 then offIngest (d - 6) s
  else if 10 ≤ d ∧ d ≤ 13 then (if others [10, 11, 12, 13] then s else offPipe s)
  else if d = 14 then { s with cell := { cellInit with mapOk := s.cell.mapOk } }
  else if d = 15 ∨ d = 16 then (if others [15, 16] then s else { s with rawc := rawcInit })
  else if d = 17 ∨ d = 18 then offHeve (d - 17) s
  else if d = 19 then { s with hevd := hevdInit }
  else if d = 20 then
    cutFrames (fun f => f.hashed) { s with hash := { s.hash with active := false, job := none, jobHit := false } }
  else if d = 21 ∨ d = 22 then (if others [21, 22] then offDram (d - 21) s else { s with dram := [], mem := dramInit })
  else if d = 23 ∨ d = 24 then offMag (d - 23) s
  else if d = 25 then offKlink s
  else if d = 26 then lanesStop [24, 25] { s with net := netInit }
  else if d = 27 then offView s
  else if d = 28 then offMotion s
  else if d = 29 then { s with trust := { s.trust with sign := none } }
  else s

/-- Domains that share a block: the quarters of the pipeline, the halves of the coder, and the two magazine ports with
their common registers. -/
def sharedWith (d : Nat) : List Nat :=
  if 10 ≤ d ∧ d ≤ 13 then [10, 11, 12, 13] else if d = 15 ∨ d = 16 then [15, 16] else if d = 21 ∨ d = 22 then [21, 22] else [d]

/-- The register groups that lose their values when domain `d` goes off: those of a block shared by several domains only
with the last of them. -/
def groupsLost (s : State) (d : Nat) : List (Nat × List RegDef) :=
  let ds := sharedWith d
  let own := if ds.any (fun k => k != d && s.domainOn k) then [] else (ds.map domainGroups).flatten
  let common := if d = 23 ∨ d = 24 then (if s.domainOn (47 - d) then [] else [(0x240000, regsMagCommon)]) else []
  own ++ common

/-- Fields of a block that its chapter keeps while the domain is off: KLINK_TERM, and PRIN of a device with TOPO 0; an
aborted signing request is not BUSY. -/
def domainKeeps (d : Nat) (s t : State) : State :=
  if d = 25 then
    (t.setFld KLINK_TERM.TERM (s.fld KLINK_TERM.TERM)).setFlag KLINK_STATUS.PRIN
      (s.fld KLINK_PAIR.TOPO % 3 == 0 && s.klink.firstCue)
  else if d = 29 then t.setFlag TRUST_SIGN_CTRL.BUSY false
  else t

/-- Domain `d` off: its bit clears, its blocks lose their contents and its registers all but their configuration (R59,
R532). -/
def domainOff (d : Nat) (s : State) : State :=
  if s.domainOn d then
    let t := hiddenOff d (s.clrBit POWER_STATUS.ON d)
    domainKeeps d s { t with regs := resetGroups t.regs (groupsLost t d) FieldDef.isKept }
  else s

/-- Domains `ds` off in the order given. -/
def domainsOff (ds : List Nat) (s : State) : State := ds.foldl (fun s d => domainOff d s) s

/-- Domains 1 to 29 in descending order (R532). -/
def allDomains : List Nat := (List.range 29).map (fun i => 29 - i)

/-- Rails 1 to 7 dropped; rail 0 stays (R535, R542). -/
def dropRails (s : State) : State := s.setFld POWER_RAIL.EN (s.fld POWER_RAIL.EN % 2)

/-- A mode transition in progress is abandoned (R46). -/
def abandonTransition (s : State) : State :=
  let s := (s.setFlag CUE_STATUS.XFER false).setFlag POWER_STATUS.XFER false
  { s with power := { s.power with xfer := none } }

/-- The DRAM loses its contents (R538, R542, R547). -/
def dramLost (s : State) : State := { s with dram := [], mem := dramInit }

/-- The slot-rewrite session ends without its header (R102). -/
def abortSession (s : State) : State :=
  let s := s.setFlag NVMC_STATUS.SESSION false
  { s with trust := { s.trust with session := none } }

/-- Dark, held: domains 1 to 29 off without quiescing, rails 1 to 7 down, any transition, commit or rewrite session
abandoned, Company held (R44, R542). -/
def darkHeld (cause : DarkCause) (s : State) : State :=
  let s := dramLost (dropRails (domainsOff allDomains (abortSession (abandonTransition s))))
  let s := s.setFld CUE_STATUS.MODE 0
  { s with
    cue := { s.cue with commit := .idle, load := none }
    call := { s.call with companyHeld := true, restart := none, safePending := false }
    power := { s.power with dark := cause, rise := none } }

/-- The Ranorid coder, both encoders and the frame writes of the magazine engine stop (R560 step 2): frames in coding stay
PENDING and are coded again later; records not yet begun wait in the engine. -/
def stopCoders (s : State) : State :=
  stopHeve 1 (stopHeve 0 { s with
    rawc := { s.rawc with jobs := [] }, mag := { s.mag with halted := true } })

/-- Mark every open fatal entry SAFE and DONE (R560). -/
def closeFatals (cause : Bool) (es : List CallEntry) : List CallEntry :=
  es.map (fun e => if e.cls = .fatal ∧ e.done = false ∧ cause then { e with safe := true, done := true } else e)

/-- Steps 1 and 2 of the safe state (R560): Company held, a transition abandoned, the coders stopped. -/
def safeStateEnter (s : State) : State :=
  let s := (s.setFlag CALL_STATUS.SAFE true).setFlag SYS_RESET_CAUSE.SAFE_STATE true
  let s := (s.addFld CALL_SAFE_CNT.COUNT 1)
  let s := stopCoders (abandonTransition s)
  { s with call := { s.call with
      companyHeld := true, safePending := true, safeAt := s.ticks, viewGoes := false, restart := none, fatals := []
      queue := closeFatals true s.call.queue, log := closeFatals true s.call.log
      current := s.call.current.bind (fun c =>
        if (s.call.log.find? (fun e => e.seq == c)).any (fun e => e.cls == .fatal) then none else some c) } }

end Sys2Proof.Machine
end

