-- ==== Sys2Proof/Machine/Events.lean ====
section
/-! DEFINITION. Posting an event on the Call board: codes (R551 to R554), coalescing (R556), the queue's limits (R557),
and what a fatal event starts (R559). -/

namespace Sys2Proof.Machine

/-- The 16-bit code of an event (R551). -/
def Event.code (e : Event) : Nat := e.block * 1024 + e.cause

/-- Class numbers 0 to 3. -/
def EventClass.num : EventClass → Nat
  | .info => 0 | .warning => 1 | .recoverable => 2 | .fatal => 3

def EventClass.ofNum (n : Nat) : EventClass :=
  if n % 4 = 0 then .info else if n % 4 = 1 then .warning else if n % 4 = 2 then .recoverable else .fatal

/-- Critical events (R553, R554): every fatal one, the seal break and the Stage Manager watchdog. -/
def Event.critical (e : Event) : Bool := e.cls == .fatal || e.code == 2 * 1024 + 0x300 || e.code == 23 * 1024 + 0x304

/-- The absolute device time in nanoseconds of an entry's first occurrence. -/
def CallEntry.firstAbs (e : CallEntry) : Nat := e.firstSec * 1000000000 + e.firstNs

/-- Whether event `e` at device time `now` is coalesced into entry `x` of the coalescer's set (R556). -/
def coalesces (ms now : Nat) (cur : Option Nat) (e : Event) (x : CallEntry) : Bool :=
  e.cls != .fatal && x.code == e.code && x.inst == e.inst && x.detail == e.detail && ms != 0 &&
  decide (x.firstAbs ≤ now) && decide (now < x.firstAbs + ms * 1000000) &&
  (e.cls != .recoverable || (!x.done && cur != some x.seq))

/-- A coalesced event counts in its entry and moves the time of the last occurrence (R556). -/
def bumpEntry (sec ns : Nat) (x : CallEntry) : CallEntry :=
  { x with count := satAdd 65535 x.count 1, lastNs := ns, lastSec := sec % 2 ^ 32 }

/-- The entry of the coalescer's set that event `e` joins, if any. -/
def findCoalesce (s : State) (e : Event) : Option Nat :=
  s.call.recent.find? (fun q =>
    (s.call.queue ++ s.call.log).any (fun x =>
      x.seq == q && coalesces (s.fld CALL_CTRL.COALESCE_MS) s.nowNs s.call.current e x))

/-- A new entry at the end of the queue; its SEQ is the place it takes in the log (R555). -/
def enqueue (e : Event) (s : State) : State :=
  let seq := (s.fld CALL_LOG_WR.WR + s.call.queue.length) % 2 ^ 32
  let x : CallEntry :=
    { seq := seq, code := e.code, cls := e.cls, nested := s.flag CALL_STATUS.SAFE && e.cls == .fatal,
      critical := e.critical, safe := false, done := false, inst := e.inst % 256, firstSec := s.time.sec.toNat,
      firstNs := s.time.ns, count := 1, lastNs := s.time.ns, lastSec := s.time.sec.toNat % 2 ^ 32,
      detail := e.detail % 2 ^ 32, terminal := e.terminal }
  let s := creditIssue 10 1 s
  { s with call := { s.call with
      queue := s.call.queue ++ [x]
      recent := if e.cls = .fatal then s.call.recent else (seq :: s.call.recent).take 16
      coIrqs := s.call.coIrqs + (if s.fld CALL_CTRL.CO_CLASS ≤ e.cls.num then 1 else 0) } }

/-- An event the queue cannot take is dropped and counted (R557). -/
def dropEvent (s : State) : State :=
  let s := s.addFld CALL_OVERFLOW.COUNT 1
  { s with call := { s.call with dropped := s.call.dropped + 1 } }

/-- The entry of an event: coalesced, queued or dropped (R556, R557). -/
def recordEvent (e : Event) (s : State) : State :=
  match findCoalesce s e with
  | some q =>
    let f := fun x : CallEntry => if x.seq = q then bumpEntry s.time.sec.toNat s.time.ns x else x
    { s with call := { s.call with queue := s.call.queue.map f, log := s.call.log.map f } }
  | none => if s.call.queue.length < (if e.cls = .fatal then 64 else 60) then enqueue e s else dropEvent s

/-- The first fatal event since cold reset is latched (R557). -/
def latchFatal (e : Event) (s : State) : State :=
  if e.cls = .fatal ∧ s.flag CALL_FATAL_FIRST.VALID = false then
    (s.setFlag CALL_FATAL_FIRST.VALID true).setFld CALL_FATAL_FIRST.CODE e.code
  else s

/-- Begin the safe state after CALL cause 0x300 or 0x301 is posted, or, in Dawn, Dark with BOOT_FAIL (R559). -/
def fatalEscalate (cause : Nat) (s : State) : State :=
  if s.mode = 1 then darkHeld .bootFail (s.setFlag TRUST_STATUS.BOOT_FAIL true)
  else
    let e : Event := { cls := .fatal, block := 23, cause := cause, inst := 0xFF, detail := 0 }
    safeStateEnter (latchFatal e (recordEvent e s))

/-- What a fatal event starts beside its entry (R559, R560). -/
def fatalReact (seq : Nat) (e : Event) (s : State) : State :=
  if e.terminal ∨ s.mode = 0 then s
  else if s.flag CALL_STATUS.SAFE then
    { s with call := { s.call with deferred := s.call.deferred ++ [seq] } }
  else if s.call.fatals.isEmpty then { s with call := { s.call with fatals := [(seq, s.ticks)] } }
  else fatalEscalate 0x300 s

/-- The SEQ by which the reactions to an event name it: its place in the log, or, for a fatal event that the full queue drops
(R557), no SEQ that an entry can have. -/
def reactSeq (s : State) : Nat :=
  if s.call.queue.length < 64 then (s.fld CALL_LOG_WR.WR + s.call.queue.length) % 2 ^ 32 else 2 ^ 32

/-- Post an event (R551 to R560). -/
def postEvent (e : Event) (s : State) : State :=
  let seq := reactSeq s
  let t := latchFatal e (recordEvent e s)
  if e.cls = .fatal then fatalReact seq e t else t

/-- Post a group 0 event: bit `n` of the block's flag register sets with it (R552). -/
def postFlag (f : Fld) (n : Nat) (cls : EventClass) (block inst detail : Nat) (s : State) : State :=
  postEvent { cls := cls, block := block, cause := n, inst := inst, detail := detail } (s.orBit f (n - f.lo))

/-- A refusal or warning of group 2 (R552). -/
def postKind (kind block inst detail : Nat) (s : State) : State :=
  postEvent { cls := .warning, block := block, cause := 0x200 + kind, inst := inst, detail := detail } s

/-- An operation, GO or request refused: group 2 kind 4 with the register offset (R552). -/
def postRefused (block : Nat) (off : Nat) (s : State) : State := postKind 4 block 0xFF off s

/-- An event that R552 and R554 leave unnumbered: group 3 cause 0xFF with the register most closely concerned. -/
def postOther (cls : EventClass) (block inst off : Nat) (s : State) : State :=
  postEvent { cls := cls, block := block, cause := 0x3FF, inst := inst, detail := off } s

/-- Who an initiator is in a bus error event (R552): Company core 0 to 3, or 4 for the Stage Manager. -/
def sideInst : Side → Nat
  | .company c => c.val
  | .stageManager => 4

/-- A bus error to the initiator. -/
def busError (s : State) : State := { s with sys := { s.sys with bus := { data := 0, error := true } } }

/-- A bus access that completes, returning `w`. -/
def busOk (w : Word) (s : State) : State := { s with sys := { s.sys with bus := { data := w, error := false } } }

/-- An unmapped or protected access: bus error and a recoverable event (R17, R32, R34, R561). -/
def refuseAccess (side : Side) (addr : Nat) (s : State) : State :=
  postEvent { cls := .recoverable, block := 0, cause := 0x202, inst := sideInst side, detail := addr % 2 ^ 32 } (busError s)

/-- A field value that acts as another value: group 2 kind 3 with the register offset (R552). -/
def postActsAs (block inst off : Nat) (s : State) : State := postKind 3 block inst off s

end Sys2Proof.Machine
end

