-- ==== Sys2Proof/Machine/Reset.lean ====
section
/-! DEFINITION. Cold and warm reset (R14). A warm reset gives every field that is not RS its Reset value; what the
always-on monitors, the retention stores, the OTP, the NVM and the log hold goes on. -/

namespace Sys2Proof.Machine

/-- Registers that show what the always-on monitors see: no reset moves the levels of the presence monitor and of the
straps, the clocks that run, rail 0 and the readings of the thermal sites (R96, R516, R535, R540, R545, R546). -/
def liveFields : List Fld :=
  [TRUST_PRESENCE.SEAL_OK, TRUST_PRESENCE.JMP, MGMT_CFG.ADDR, CLOCK_STATUS.REFCLK_OK, CLOCK_STATUS.RC_ACTIVE, TIME_STATUS.RC_CLK,
   CLOCK_REF_COUNT.COUNT, ⟨POWER_RAIL.EN.addr, 0, 1⟩, ⟨POWER_RAIL.PG.addr, 8, 1⟩,
   THERM_STATUS.FAST, THERM_STATUS.HOTTEST, THERM_STATUS.HOTTEST_T] ++
  (List.range 12).map (fun i => ⟨(THERM_SITE.T i).addr, 0, 32⟩)

/-- The registers after a warm reset: RS fields kept, live levels as they are, every other field at Reset. -/
def warmRegs (s : State) : Sparse 32 :=
  let t : State := { s with regs := resetGroups s.regs regGroups (fun f => f.rs) }
  (liveFields.foldl (fun t f => t.setFld f (s.fld f)) t).regs

/-- Magazines stay in their bays through every reset. -/
def keepDrives (s : State) : MagState :=
  { magInit with ports := s.mag.ports.map (fun p => { magPortInit with drive := p.drive }) }

/-- A warm reset (R14, R44): the device starts Dawn, with every block as after cold reset but for what survives. -/
def warmReset (s : State) : State :=
  { State.reset with
    pending := s.pending, ticks := s.ticks, time := s.time, free := s.free, regs := warmRegs s
    smSram := s.smSram, nvm := s.nvm
    sys := { sysInit with bus := s.sys.bus }
    cue := { s.cue with active := stackInit, pending := stackInit, commit := .idle, load := none, locked := false, startVals := [],
                        tables := [], tableSrc := [], firstDone := false, late := false, swaps := [] }
    call := { callInit with log := s.call.log, lastFail := s.call.lastFail, smExpiry := s.call.smExpiry }
    power := { s.power with dark := .none, xfer := none, rise := none, thermtrip := false, coolFrom := none, coolDone := false,
                            rails := [], badRun := 0, unlocked := [], pllWait := none, restart := false, releasedAt := s.ticks }
    trust := { s.trust with session := none, nvmOp := none, sign := none, image := none, confirmed := false,
                            service := false }
    mag := keepDrives s
    clock := { timeInit with incr := s.clock.incr, next := s.clock.next, watchFrom := s.ticks }
    klink := { klinkInit with left := s.klink.left }
    mgmt := { mgmtInit with cursor := s.mgmt.cursor, lost := s.mgmt.lost } }

/-- A cold reset (R14): everything but OTP, NVM, magazines and the waiting commands as after power-on. -/
def coldReset (s : State) : State :=
  { State.reset with
    pending := s.pending, ticks := s.ticks, free := s.free, nvm := s.nvm, mag := keepDrives s
    trust := { trustInit with otp := s.trust.otp } }

/-- A warm reset with its cause recorded in `SYS_RESET_CAUSE`. -/
def warmResetFor (cause : Fld) (s : State) : State := warmReset (s.setFlag cause true)

/-- The terminal fatal entries get DONE when the Dark state or reset of their rule takes effect (R559). -/
def closeTerminal (s : State) : State :=
  let f := fun e : CallEntry => if e.terminal then { e with done := true } else e
  { s with call := { s.call with queue := s.call.queue.map f, log := s.call.log.map f } }

end Sys2Proof.Machine
end

