-- ==== Sys2Proof/Machine/MgmtCore.lean ====
section
/-! DEFINITION. The management port as other blocks see it: its cursor into the log and the alert (R527, R528). -/

namespace Sys2Proof.Machine

def setMgmt (m : MgmtState) (s : State) : State := { s with mgmt := m }

/-- Log entries after the cursor of the port (R527). -/
def mgmtPending (s : State) : Nat := (s.fld CALL_LOG_WR.WR + 2 ^ 32 - s.mgmt.cursor) % 2 ^ 32

/-- An unread entry (R527). -/
def mgmtUnread (s : State) (e : CallEntry) : Bool := decide ((e.seq + 2 ^ 32 - s.mgmt.cursor) % 2 ^ 32 < mgmtPending s)

/-- The causes of ALERT_N that hardware gives: bits 4 to 0 of `MGMT_ALERT_SRC`. -/
def alertCauses (s : State) : Nat :=
  boolNat (s.call.log.any (fun e => mgmtUnread s e && decide (1 ≤ e.cls.num))) +
  2 * boolNat (s.call.log.any (fun e => mgmtUnread s e && e.cls == .fatal)) +
  4 * boolNat (s.flag MGMT_STATUS.MSG_FROM_SM) + 8 * boolNat (s.fld LEDGER_AUDIT_FAIL.PATH != 0) +
  16 * boolNat (s.flag THERM_STATUS.FAST)

/-- The causes are looked at: ALERT_N asserts when an enabled one has become 1, and stays until it is served (R528,
R529). -/
def alertUpdate (s : State) : State :=
  let s := s.setFld ⟨MGMT_ALERT_SRC.CALL.addr, 0, 5⟩ (alertCauses s)
  let active := (s.word MGMT_ALERT_SRC.CALL.addr).toNat &&& s.fld MGMT_ALERT_EN.EN
  let fresh := active ^^^ (active &&& s.mgmt.active)
  let s := if fresh = 0 then s else s.setFlag MGMT_STATUS.ALERT true
  setMgmt { s.mgmt with active := active } s

/-- The log has overwritten the entry under the cursor: the cursor moves to the oldest entry kept (R527). -/
def mgmtOverrun (s : State) : State :=
  if mgmtPending s ≤ 4096 then s
  else
    let lost := mgmtPending s - 4096
    (setMgmt { s.mgmt with cursor := (s.mgmt.cursor + lost) % 2 ^ 32, lost := satAdd (2 ^ 32 - 1) s.mgmt.lost lost } s).orBit
      MGMT_EVENT.EVENT 9

end Sys2Proof.Machine
end

