-- ==== Sys2Proof/Machine/Call.lean ====
section
/-! DEFINITION. The commands of the Call board: posting, the log, handling, the safe state, and the restarts of Company
and of the Stage Manager (20_call_board_availability.md). -/

namespace Sys2Proof.Machine

/-- Entries that ask for handling and wait for it (R558). -/
def CallEntry.waits (e : CallEntry) : Bool := !e.done && (e.cls == .fatal || e.cls == .recoverable)

/-- The entry that becomes current next: the oldest waiting fatal entry, else the oldest waiting recoverable one. -/
def nextCurrent (log : List CallEntry) : Option Nat :=
  match log.find? (fun e => e.waits && e.cls == .fatal) with
  | some e => some e.seq
  | none => (log.find? (fun e => e.waits)).map (fun e => e.seq)

/-- With no current entry, the next waiting one becomes current, unless the Stage Manager is held (R558, R563). -/
def pickCurrent (s : State) : State :=
  if s.call.current.isNone ∧ s.call.smHeld = false then
    { s with call := { s.call with current := nextCurrent s.call.log } }
  else s

/-- The 32 bytes of a log entry (R555). -/
def CallEntry.bytes (e : CallEntry) : List Byte :=
  leBytes 4 e.seq ++ leBytes 2 e.code ++
  leBytes 1 (e.cls.num + 4 * boolNat e.nested + 8 * boolNat e.critical + 16 * boolNat e.safe + 32 * boolNat e.done) ++
  leBytes 1 e.inst ++ leBytes 6 e.firstSec ++ leBytes 2 e.count ++ leBytes 4 e.firstNs ++ leBytes 4 e.lastNs ++
  leBytes 4 e.lastSec ++ leBytes 4 e.detail

/-- Word `i` of the log entry at index `idx`; an index nothing was logged at reads 0. -/
def logWord (log : List CallEntry) (idx i : Nat) : Word :=
  match log.find? (fun e => e.seq % 4096 == idx) with
  | some e => BitVec.ofNat 32 (leAt e.bytes (4 * i) 4)
  | none => 0

/-- Post the event of a CALL_POST write by one side (R552). -/
def postFirmware (side : Side) (value : Word) (s : State) : State :=
  let v := value.toNat
  let cause := bits v 9 0
  let block := match side with
    | .company _ => 62
    | .stageManager => if cause = 0x206 then 1 else 63
  let detail := match side with
    | .company _ => s.fld CALL_POST_DETAIL.DETAIL
    | .stageManager => s.call.detailSm.toNat
  postEvent { cls := EventClass.ofNum (bits v 31 30), block := block, cause := cause, inst := bits v 19 12,
              detail := detail } s

def execCallPostWrite (side : Side) (value : Word) (s : State) : Host.Outcome State Fault Refusal :=
  .next (postFirmware side value (busOk 0 s))

/-- The oldest queue entry goes into the log (R555); NESTED is set while another entry is current (R558). -/
def logOldest (s : State) : State :=
  match s.call.queue with
  | [] => s
  | e :: q =>
    let e := { e with nested := e.nested || s.call.current.isSome }
    let log := (s.call.log.filter (fun x => x.seq % 4096 != e.seq % 4096)) ++ [e]
    let s := creditReturn 10 1 (s.setFld CALL_LOG_WR.WR (e.seq + 1))
    alertUpdate (mgmtOverrun (pickCurrent { s with call := { s.call with queue := q, log := log } }))

/-- When the queue falls to 32 entries after dropping events, CALL cause 0x302 tells how many (R557). -/
def overflowEnded (s : State) : State :=
  if s.call.queue.length = 32 ∧ s.call.dropped ≠ 0 then
    postEvent { cls := .warning, block := 23, cause := 0x302, inst := 0xFF, detail := s.call.dropped }
      { s with call := { s.call with dropped := 0 } }
  else s

def execCallLogWrite (s : State) : Host.Outcome State Fault Refusal :=
  if s.call.queue.isEmpty then .next s else .next (overflowEnded (logOldest s))

/-- The log index that one side selected. -/
def logIdx (side : Side) (s : State) : Nat :=
  match side with
  | .company _ => s.fld CALL_LOG_IDX.IDX
  | .stageManager => s.call.logIdxSm

/-- A read of CALL_LOG_ENTRY0 returns it and latches ENTRY1 to ENTRY7 for that side (R555). -/
def execCallLogEntryRead (side : Side) (s : State) : Host.Outcome State Fault Refusal :=
  let ws := (List.range 7).map (fun i => logWord s.call.log (logIdx side s) (i + 1))
  let c := match side with
    | .company _ => { s.call with latchCo := ws }
    | .stageManager => { s.call with latchSm := ws }
  .next (busOk (logWord s.call.log (logIdx side s) 0) { s with call := c })

/-- Handling of entry `q` ends: DONE, its fatal handling closed, the next entry current (R558, R559). -/
def finishEntry (q : Nat) (s : State) : State :=
  let f := fun x : CallEntry => if x.seq = q then { x with done := true } else x
  pickCurrent { s with call := { s.call with
    log := s.call.log.map f, queue := s.call.queue.map f, current := none
    fatals := s.call.fatals.filter (fun p => p.1 != q) } }

def execCallDoneWrite (side : Side) (seq : Word) (s : State) : Host.Outcome State Fault Refusal :=
  let s := busOk 0 s
  match side with
  | .company _ => .next (postKind 1 23 0xFF CALL_DONE.SEQ.addr s)
  | .stageManager =>
    if s.call.current = some seq.toNat then .next (finishEntry seq.toNat s)
    else .next (postRefused 23 CALL_DONE.SEQ.addr s)

/-- A parity detection in the Stage Manager SRAM: SYS cause 0x300, then a warm reset (R558). -/
def execSmParity (s : State) : Host.Outcome State Fault Refusal :=
  .next (warmReset (postEvent { cls := .fatal, block := 0, cause := 0x300, inst := 0xFF, detail := 0 } s))

/-- Fatal handling of some entry has lasted FATAL_TO_MS, of which less than 10 acts as 10 (R559). -/
def fatalOverdue (s : State) : Bool :=
  s.call.fatals.any (fun p => s.elapsedNs p.2 (max 10 (s.fld CALL_CTRL.FATAL_TO_MS) * 1000000))

/-- Fatal handling reaches FATAL_TO_MS: CALL cause 0x301 and the safe state (R559). -/
def execFatalHandlingTimeout (s : State) : Host.Outcome State Fault Refusal :=
  if fatalOverdue s = false ∨ s.mode = 0 ∨ s.flag CALL_STATUS.SAFE then .next s else .next (fatalEscalate 0x301 s)

/-- A Company restart starts: cores held, the decision moment taken (R561); the next manifest shows it (R299). -/
def startRestart (s : State) : State :=
  { s with
    hash := { s.hash with restarted := true }
    call := { s.call with companyHeld := true, restart := some { decision := s.ticks, released := false } } }

def execCallRestart (side : Side) (s : State) : Host.Outcome State Fault Refusal :=
  let s := busOk 0 s
  match side with
  | .company _ => .next (postKind 1 23 0xFF CALL_RESTART.GO.addr s)
  | .stageManager =>
    if s.call.restart.isSome then .next (postRefused 23 CALL_RESTART.GO.addr s) else .next (startRestart s)

/-- Steps 3 and 4 of a Company restart: the firmware digest is compared, core 0 is released at CO_ENTRY (R561). -/
def releaseCompany (s : State) : State :=
  match s.call.restart with
  | none => s
  | some r =>
    if sha3_512 (s.scratchBytes 0 s.sys.coLen) = s.sys.coDigest then
      let s := s.setFlag SYS_RESET_CAUSE.COMPANY_RESTART true
      { s with call := { s.call with companyHeld := false, restart := some { r with released := true } } }
    else
      warmReset ((postEvent { cls := .fatal, block := 23, cause := 0x306, inst := 0xFF, detail := 0 } s).setFlag
        CALL_STATUS.IMAGE_RESET true)

def execCompanyRestartRelease (s : State) : Host.Outcome State Fault Refusal :=
  match s.call.restart with
  | some r => if r.released then .next s else .next (releaseCompany s)
  | none => .next s

/-- The fatal entries posted during the safe state begin their handling when the restart completes (R560). -/
def resumeFatals (s : State) : State :=
  { s with call := { s.call with fatals := s.call.fatals ++ s.call.deferred.map (fun q => (q, s.ticks)), deferred := [] } }

/-- A Company kick: the watchdog period begins again, and a released restart is complete (R562). -/
def execCoKick (s : State) : Host.Outcome State Fault Refusal :=
  let s := { (busOk 0 s) with call := { s.call with coKick := s.ticks } }
  match s.call.restart with
  | some r =>
    if r.released then
      let s := (s.setFlag CALL_STATUS.SAFE false).addFld CALL_RESTART_CNT.DONE 1
      .next (resumeFatals { s with call := { s.call with restart := none, safePending := false } })
    else .next s
  | none => .next s

/-- 400 ms have passed since the decision of the restart in progress (R562). -/
def restartOverdue (s : State) : Bool := s.call.restart.any (fun r => s.elapsedNs r.decision 400000000)

/-- No kick 400 ms after the decision: cause 0x305, and the restart again; a second failure within 60 s is a warm reset
(R562). -/
def execCompanyRestartTimeout (s : State) : Host.Outcome State Fault Refusal :=
  if restartOverdue s = false then .next s
  else
    let again := match s.call.lastFail with
      | some t => !s.elapsedNs t 60000000000
      | none => false
    let s := postEvent { cls := .warning, block := 23, cause := 0x305, inst := 0xFF, detail := 0 }
      (s.addFld CALL_RESTART_CNT.FAILED 1)
    let s := { s with call := { s.call with lastFail := some s.ticks } }
    if again then .next (warmReset s) else .next (startRestart s)

/-- A watchdog period of `ms`, of which less than 10 acts as 10, has passed since tick `kick` (R562, R563). -/
def watchdogOver (ms kick : Nat) (s : State) : Bool := s.elapsedNs kick (max 10 ms * 1000000)

/-- The Company watchdog expires: cause 0x303 and a restart (R562). -/
def execCompanyWatchdogExpire (s : State) : Host.Outcome State Fault Refusal :=
  if s.flag CALL_CO_WDOG.EN = false ∨ s.call.companyHeld ∨ watchdogOver (s.fld CALL_CO_WDOG.MS) s.call.coKick s = false then
    .next s
  else
    .next (startRestart (postEvent { cls := .recoverable, block := 23, cause := 0x303, inst := 0xFF, detail := 0 }
      (s.setFlag CALL_CO_WDOG.EXPIRED true)))

def execSmKick (side : Side) (s : State) : Host.Outcome State Fault Refusal :=
  let s := busOk 0 s
  match side with
  | .company _ => .next (postKind 1 23 0xFF CALL_SM_KICK.KICK.addr s)
  | .stageManager => .next { s with call := { s.call with smKick := s.ticks } }

/-- The Stage Manager watchdog expires: cause 0x304 and a restart of its core, whose current entry becomes current
again; a second expiry within 60 s sets WDOG_RESET and is a warm reset (R563). -/
def execSmWatchdogExpire (s : State) : Host.Outcome State Fault Refusal :=
  if s.flag CALL_SM_WDOG.EN = false ∨ watchdogOver (s.fld CALL_SM_WDOG.MS) s.call.smKick s = false then .next s
  else
    let again := match s.call.smExpiry with
      | some t => !s.elapsedNs t 60000000000
      | none => false
    let s := postEvent { cls := .recoverable, block := 23, cause := 0x304, inst := 0xFF, detail := 0 }
      (s.setFlag CALL_SM_WDOG.EXPIRED true)
    let s := { s with call := { s.call with smExpiry := some s.ticks, smKick := s.ticks } }
    if again then .next (warmReset (s.setFlag CALL_STATUS.WDOG_RESET true)) else .next s

end Sys2Proof.Machine
end

