-- ==== Sys2Proof/Machine/DramCore.lean ====
section
/-! DEFINITION. Blocks of the DRAM data region as they are read and written: where a block and its detection code stand
(R372, R373), the check of a read against the stored code (R375), partial and poisoned writes and the code buffers (R374, R376,
R378). -/

namespace Sys2Proof.Machine

def setMem (m : DramState) (s : State) : State := { s with mem := m }

def dramFlag (f : Fld) (cls : EventClass) (inst detail : Nat) (s : State) : State := postFlag f f.lo cls 12 inst detail s

/-! ### Device addresses and codes -/

/-- A per-channel offset as a device address (R372). -/
structure DramPlace where
  byte : Nat   -- within a BL32 burst
  burst : Nat  -- within the 2 KiB page
  b : Nat
  row : Nat
  rank : Nat
  deriving DecidableEq, Repr

/-- Row bits of the fitted density (R370). -/
def rowBits (s : State) : Nat := 15 + min 2 (s.fld DRAM_CFG.DENSITY)

/-- Where per-channel offset `o` lies in the devices (R372). -/
def dramPlace (s : State) (o : Nat) : DramPlace :=
  { byte := bits o 5 0, burst := bits o 10 6, b := bits o 14 11, row := o / 2 ^ 15 % 2 ^ rowBits s
    rank := if s.flag DRAM_CFG.RANKS then o / 2 ^ (15 + rowBits s) % 2 else 0 }

/-- The bank issued for a place: b XOR row[3:0] (R372). -/
def DramPlace.bank (p : DramPlace) : Nat := p.b ^^^ (p.row % 16)

def DramPlace.bankGroup (p : DramPlace) : Nat := bits p.bank 1 0

def DramPlace.bankAddress (p : DramPlace) : Nat := bits p.bank 3 2

/-- The channel and the per-channel offset that hold the code of the block at data offset `a` (R373). -/
def dramCodePlace (s : State) (a : Nat) : Nat × Nat := (dramChannel s a, dramCc s / 16 * 15 + dramChannelOff s a / 16)

/-- The code a block's bytes should have (R373). -/
def ownCode (s : State) (block : Nat) : Word := dramCode (64 * block) (readList 0 s.dram (64 * block) 64)

/-- The code that is stored for a block (R373, R376): of a block that fails its check it is neither its code nor NOT code, and
otherwise a free value. -/
def storedCode (s : State) (block : Nat) : Word :=
  let code := ownCode s block
  if s.mem.poison.contains block then ~~~code
  else if s.mem.bad.contains block then
    let w := Config.badCode s.ticks block
    if w = code ∨ w = ~~~code then code ^^^ 1 else w
  else code

/-- What a read finds when it compares a block's code with the stored one (R375). -/
inductive CodeCheck where
  | good | stored | other
  deriving DecidableEq, Repr

def codeCheck (code stored : Word) : CodeCheck := if stored = code then .good else if stored = ~~~code then .stored else .other

/-! ### Reads -/

/-- What a read of a block finds (R375). -/
def blockCheck (s : State) (block : Nat) : CodeCheck := codeCheck (ownCode s block) (storedCode s block)

/-- Count an error of a kind on a channel (`DRAM_ERR_SEL`). -/
def dramCount (kind ch : Nat) (s : State) : State :=
  let k := kind * 16 + ch
  setMem { s.mem with errors := keySet s.mem.errors k (satAdd (2 ^ 32 - 1) ((keyGet s.mem.errors k).getD 0) 1) } s

/-- Offsets `a` to `a + n` touch a channel: the channels are those of their 256-byte units (R371). -/
def inChannel (s : State) (a n ch : Nat) : Bool :=
  (List.range ((a % 256 + n + 255) / 256)).any (fun i => dramChannel s (a + 256 * i) == ch)

/-- An access to `n` bytes at offset `a` makes WCK of its channels run again (R383). -/
def dramAccess (a n : Nat) (s : State) : State :=
  setMem { s.mem with wckOff := s.mem.wckOff.filter (fun c => !inChannel s a n c) } s

/-- The trace of the read of one block: stored poison is counted; a block that its re-read finds bad again is new poison, with its
address latched and a warning event that names the channel (R375). -/
def dramCheck (block : Nat) (s : State) : State :=
  let ch := dramChannel s (64 * block)
  if dramBlocked s (64 * block) then s
  else match blockCheck s block with
    | .good => s
    | .stored => dramCount 2 ch (s.setFlag DRAM_EVENT.STORED true)
    | .other =>
      let a := 0x800000000 + 64 * block
      dramFlag DRAM_EVENT.POISON .warning ch 0 (dramCount 1 ch
        ((s.setFld DRAM_POISON_ADDR_LO.ADDR (a / 64)).setFld DRAM_POISON_ADDR_HI.ADDR (a / 2 ^ 32)))

/-- A block lies at least in part in the `n` bytes at offset `a`. -/
def inSpan (a n block : Nat) : Bool := decide (a < 64 * block + 64) && decide (64 * block < a + n)

/-- A block lies wholly in the `n` bytes at offset `a`. -/
def inWhole (a n block : Nat) : Bool := decide (a ≤ 64 * block) && decide (64 * block + 64 ≤ a + n)

/-- The checks of a read of `n` bytes at offset `a` (R375), in the order in which the blocks lost their codes. -/
def dramSeen (a n : Nat) (s : State) : State :=
  ((s.mem.poison ++ s.mem.bad).filter (inSpan a n)).foldl (fun s b => dramCheck b s) (dramAccess a n s)

/-- A block whose chapter states no reaction reads poison (R377): a warning that names the block and the address. `a` is an
offset into the DRAM data region. -/
def poisonWarn (block inst a n : Nat) (s : State) : State :=
  if s.poisoned a n then
    postEvent { cls := .warning, block := block, cause := 0x3FF, inst := inst, detail := (0x800000000 + a) % 2 ^ 32 } (dramSeen a n s)
  else s

/-! ### Writes -/

/-- The blocks that a write of `n` bytes at `a` covers in part: it reads them first (R374). -/
def partBlocks (a n : Nat) : List Nat :=
  (if n = 0 then [] else [a / 64, (a + n - 1) / 64]).dedup.filter (fun b => !inWhole a n b)

/-- The lists of blocks after a write of `n` bytes at `a` (R374): a block covered whole is good, one that stays bad under a part
is poisoned, and a fenced group or one in training keeps what it holds (R390, R395); the codes of the blocks enter the code buffers
(R374, R378). -/
def memWritten (s : State) (a n : Nat) : DramState :=
  let keep (b : Nat) : Bool := !inWhole a n b || dramBlocked s (64 * b)
  let merged (b : Nat) : Bool := inSpan a n b && !dramBlocked s (64 * b)
  let old := s.mem.bad.filter keep
  { s.mem with
    poison := s.mem.poison.filter keep ++ old.filter merged
    bad := old.filter (fun b => !merged b)
    codeBuf := if n = 0 then s.mem.codeBuf else s.mem.codeBuf ++ [(a / 64, (a + n + 63) / 64 - a / 64)] }

/-- The 256-byte units of `bs` at offset `a` (R371). -/
def dramUnits (a : Nat) (bs : List Byte) : List (Nat × List Byte) :=
  (List.range ((a % 256 + bs.length + 255) / 256)).map (fun i =>
    let lo := max a (a / 256 * 256 + 256 * i)
    (lo, (bs.drop (lo - a)).take (256 - lo % 256)))

/-- What a write leaves waiting for a training helper to end: its units in groups that the helper has and no fence cuts off (R390,
R395). -/
def unitsHeld (s : State) (poison : Bool) (a : Nat) (bs : List Byte) : List HeldWrite :=
  if s.mem.trnOp.isNone then []
  else ((dramUnits a bs).filter (fun u => dramTraining s u.1 && !dramFenced s u.1)).map (fun u =>
    { at_ := u.1, bytes := u.2, poison := poison })

/-- A write to the DRAM data region (R374, R390, R395): blocks it covers in part are read and checked; a fenced group keeps its bytes,
and one in training takes them when its helper ends. -/
def State.writeTagged (s : State) (poison : Bool) (a : Nat) (bs : List Byte) : State :=
  let t := (partBlocks a bs.length).foldl (fun s b => dramCheck b s) (dramAccess a bs.length s)
  { t with
    mem := { memWritten t a bs.length with held := t.mem.held ++ unitsHeld s poison a bs }
    dram := if s.fld DRAM_MAP.FENCED = 0 ∧ s.mem.trnOp = none then writeList 0 s.dram a bs
            else (bs.zipIdx).foldl (fun d e => if dramBlocked s (a + e.2) then d else writeAt 0 d (a + e.2) e.1) s.dram }

/-- A write of data without the poison tag. -/
def State.writeDram (s : State) (a : Nat) (bs : List Byte) : State := s.writeTagged false a bs

/-- Blocks stored with NOT code (R376, R378). -/
def storePoison (blocks : List Nat) (s : State) : State :=
  let live := blocks.dedup.filter (fun b => !dramBlocked s (64 * b))
  setMem { s.mem with
    poison := s.mem.poison ++ live.filter (fun b => !s.mem.poison.contains b)
    bad := s.mem.bad.filter (fun b => !live.contains b) } s

/-- A write of data that carries the poison tag (R376): every block it touches is stored with NOT code. -/
def State.writePoisoned (s : State) (a : Nat) (bs : List Byte) : State :=
  storePoison ((List.range ((a % 64 + bs.length + 63) / 64)).map (fun i => a / 64 + i)) (s.writeTagged true a bs)

/-- A write at offset `a` of which the bytes past the populated data region are not stored: no address holds them (R33; DESIGN CHOICE,
assumption 173). -/
def State.writeBuf (s : State) (a : Nat) (bs : List Byte) : State :=
  s.writeDram a (if s.mem.committed then bs.take (dramSize s - a) else bs)

/-- Bytes at offset `a` of a buffer that may pass the populated data region: past it they are bytes that the spec leaves open. -/
def State.bufBytes (s : State) (a n : Nat) : List Byte :=
  if s.mem.committed && decide (dramSize s < a + n) then (List.range n).map (fun i => Config.openByte s.ticks (a + i))
  else s.dramBytes a n

/-- A write at address `a` of scratch SRAM or DRAM; outside both nothing is stored. -/
def State.writeMem (s : State) (a : Nat) (bs : List Byte) : State :=
  if inMem s a bs.length = false then s
  else if a < 0x1800000 then s.writeScratch (a - 0x1000000) bs
  else s.writeDram (dramOff a) bs

end Sys2Proof.Machine
end

