-- ==== Sys2Proof/Machine/Operands.lean ====
section
/-! DEFINITION. The operand forms: cue entries and cues as bytes (R54 to R56), the tables a cue can load, the registers
an entry can target, and bit fields of table records. -/

namespace Sys2Proof.Machine

/-- The register definition at offset `off` from 0x1000_0000, if a register is implemented there (R17). -/
def findReg (off : Nat) : Option RegDef :=
  regGroups.findSome? (fun g => g.2.find? (fun r =>
    decide (g.1 + r.off ≤ off) && decide (off - (g.1 + r.off) < r.count * r.stride) &&
    (off - (g.1 + r.off)) % r.stride == 0))

/-- The bits of a register that a cue entry may set: shadowed, line-timed and RWC fields (R57). -/
def configMask (off : Nat) : Word :=
  match findReg off with
  | some r => r.maskOf FieldDef.isConfig
  | none => 0

/-- The shadowed fields of a register that are not RWC: those that a Company write takes to the overlay (R61). -/
def shadowMask (off : Nat) : Word :=
  match findReg off with
  | some r => r.maskOf (fun f => f.acc == .shadow)
  | none => 0

/-- The line-timed fields of the register at `off` (R508). -/
def lineMask (off : Nat) : Word := ((findReg off).map (fun r => r.maskOf (fun f => f.acc == .line))).getD 0

/-- The Reset value of the register at `off`, 0 where none is implemented. -/
def regReset (off : Nat) : Word :=
  match findReg off with
  | some r => r.reset
  | none => 0

/-- The bytes of each table that a cue can load, by block code (base bits [22:16]) and table number (R55, R57). -/
def tableSize (block num : Nat) : Option Nat :=
  if block = 0x04 then (if num < 4 then some 64 else if num < 6 then some 4096 else none)
  else if block = 0x08 then [40960, 4194304, 524288, 36, 287496, 24576, 512, 14336][num]?
  else if block = 0x0C then [1310720, 512, 32][num]?
  else if block = 0x10 then [128, 128, 64, 128][num]?
  else if block = 0x14 then [256][num]?
  else if block = 0x28 then [64][num]?
  else if block = 0x30 then [512][num]?
  else if block = 0x3C then [128][num]?
  else if block = 0x44 then [32, 4096][num]?
  else none

/-- The power domains that hold the register or table at block code `block` and local offset `off`; the target counts
as off when all of them are (R42). -/
def targetDomains (block off : Nat) : List Nat :=
  if block = 0x04 then [6 + off / 0x4000 % 4]
  else if block = 0x08 then [10, 11, 12, 13]
  else if block = 0x0C then [14]
  else if block = 0x14 then [15, 16]
  else if block = 0x18 then [17 + off / 0x8000 % 2]
  else if block = 0x1C then [19]
  else if block = 0x20 then [20]
  else if block = 0x24 then (if off < 0x100 then [23] else if off < 0x200 then [24] else [23, 24])
  else if block = 0x2C then (if off < 0x2000 then [laneDomain (off / 0x100)] else [])
  else if block = 0x30 then [26]
  else if block = 0x38 then [25]
  else if block = 0x3C then [28]
  else if block = 0x44 then [27]
  else []

/-! ### Entries and cues as bytes -/

/-- The entry at the start of `bs` (R55), with its length in bytes. -/
def parseEntry (bs : List Byte) : Option (CueEntry × Nat) :=
  let w (i : Nat) := leAt bs (4 * i) 4
  let w0 := w 0
  let ty := bits w0 31 28
  if bs.length < 8 then none
  else if ty = 1 ∧ bits w0 27 23 = 0 ∧ w0 % 4 = 0 then
    some (.write (bits w0 22 0) (BitVec.ofNat 32 (w 1)), 8)
  else if ty = 2 ∧ bits w0 27 23 = 0 ∧ w0 % 4 = 0 ∧ 12 ≤ bs.length then
    some (.masked (bits w0 22 0) (BitVec.ofNat 32 (w 1)) (BitVec.ofNat 32 (w 2)), 12)
  else if ty = 3 ∧ bits w0 16 16 = 0 ∧ 12 ≤ bs.length ∧ w 2 % 4 = 0 then
    some (.tableRef (bits w0 27 21) (bits w0 20 17) (bits w0 15 0) (w 1) (w 2), 12)
  else if ty = 4 ∧ bits w0 16 10 = 0 ∧ 1 ≤ bits w0 9 0 ∧ bits w0 9 0 ≤ 1006 ∧ 8 + 4 * bits w0 9 0 ≤ bs.length then
    some (.tableInline (bits w0 27 21) (bits w0 20 17) (w 1)
      ((List.range (bits w0 9 0)).map (fun i => BitVec.ofNat 32 (w (i + 2)))), 8 + 4 * bits w0 9 0)
  else none

/-- `n` entries that exactly fill `bs`, or the byte offset of the first that is malformed (R57). -/
def parseEntries : Nat → Nat → List Byte → Except Nat (List CueEntry)
  | 0, off, bs => if bs.isEmpty then .ok [] else .error off
  | n + 1, off, bs =>
    match parseEntry bs with
    | none => .error off
    | some (e, len) =>
      match parseEntries n (off + len) (bs.drop len) with
      | .ok es => .ok (e :: es)
      | .error o => .error o

/-- The CRC of a structure whose four bytes at 0x1C hold it, taken with them set to 0 (R54, R56). -/
def headerCrc (bs : List Byte) : Nat := (crc32 (spliceAt bs 0x1C (List.replicate 4 0))).toNat

/-- Parse a cue of R54 from the start of `bs`: the cue, or the byte offset at which the check failed. -/
def parseCue (bs : List Byte) : Except Nat Cue :=
  let len := leAt bs 8 2
  let b := bs.take len
  let kind := leAt b 5 1
  let mode := leAt b 6 1
  let flags := leAt b 7 1
  if b.take 4 ≠ [0x45, 0x43, 0x55, 0x45] then .error 0
  else if len < 32 ∨ 4096 < len ∨ len % 4 ≠ 0 ∨ b.length ≠ len then .error 8
  else if ¬ ((kind = 0 ∧ mode = 0xFF) ∨ (kind = 1 ∧ 2 ≤ mode ∧ mode ≤ 7)) then .error 5
  else if 2 ≤ flags ∨ (flags = 1 ∧ ¬ (kind = 1 ∧ mode = 4)) then .error 7
  else if headerCrc b ≠ leAt b 0x1C 4 then .error 0x1C
  else
    match parseEntries (leAt b 0x0A 2) 32 (b.drop 32) with
    | .error o => .error o
    | .ok es => .ok { slot := leAt b 4 1, kind := kind, mode := mode, flags := flags, domainMask := leAt b 0x0C 4,
                      name := (b.drop 0x10).take 12, entries := es }

/-- Parse the base configuration of R56. -/
def parseBase (bs : List Byte) : Option BaseConfig :=
  let len := leAt bs 8 4
  if bs.take 4 = [0x45, 0x42, 0x41, 0x53] ∧ leAt bs 4 2 = 1 ∧ leAt bs 6 2 = 0 ∧ 32 ≤ len ∧ len ≤ 65536 ∧
     len % 4 = 0 ∧ bs.length = len ∧ leAt bs 0x0C 2 ≤ 8188 ∧ leAt bs 0x0E 2 = 0 ∧ leAt bs 0x16 6 = 0 ∧
     headerCrc bs = leAt bs 0x1C 4 then
    match parseEntries (leAt bs 0x0C 2) 32 (bs.drop 32) with
    | .ok es => some { modeCue := (List.range 6).map (fun i => leAt bs (0x10 + i) 1), entries := es }
    | .error _ => none
  else none

/-! ### Validation (R42, R57) -/

/-- An entry keeps R57, with the table images of the store `store`. A masked entry is judged by its register, not by its mask (DESIGN
CHOICE, assumption 157). -/
def entryOk (store : List (List Byte)) : CueEntry → Bool
  | .write off _ => configMask off != 0
  | .masked off _ _ => configMask off != 0
  | .tableRef b n img dest len =>
    match tableSize b n with
    | some size => decide (dest + len ≤ size) && decide (img < store.length) && decide (len ≤ (store.getD img []).length)
    | none => false
  | .tableInline b n dest data =>
    match tableSize b n with
    | some size => decide (dest + 4 * data.length ≤ size)
    | none => false

/-- The target of an entry: block code and local offset. -/
def entryTarget : CueEntry → Nat × Nat
  | .write off _ => (off / 0x10000, off % 0x10000)
  | .masked off _ _ => (off / 0x10000, off % 0x10000)
  | .tableRef b n _ _ _ => (b, if b = 0x04 then 0x4000 * n else 0)
  | .tableInline b n _ _ => (b, if b = 0x04 then 0x4000 * n else 0)

/-- The domains whose row of R41 reads "cue" in mode `m`. -/
def cueDomains (m : Nat) : List Nat :=
  if m = 2 ∨ m = 3 ∨ m = 4 then [6, 7, 8, 9, 10, 11, 12, 13, 17, 18, 23, 24, 25, 27]
  else if m = 5 then [10, 11, 12, 13, 17, 18, 20, 23, 24, 25, 27, 28]
  else if m = 6 then [27]
  else []

/-- The domains that are on whatever the mask says in mode `m` (R41); SR and KA count as on. -/
def fixedDomains (m : Nat) : List Nat :=
  if m = 1 then [0, 1, 2, 3, 4, 5, 21, 22, 23, 24, 25, 26, 29]
  else if m = 2 then [0, 1, 2, 3, 4, 5, 14, 21, 22, 26, 28, 29]
  else if m = 3 ∨ m = 4 then [0, 1, 2, 3, 4, 5, 14, 15, 16, 20, 21, 22, 26, 28, 29]
  else if m = 5 then [0, 1, 2, 3, 4, 5, 15, 16, 19, 21, 22, 26, 29]
  else if m = 6 then [0, 1, 2, 3, 4, 5, 21, 22, 23, 24, 25, 26, 28, 29]
  else if m = 7 then [0, 21, 22, 26]
  else [0]

/-- The domains that are on in mode `m` with DOMAIN_MASK `mask` (R41). -/
def modeDomains (m mask : Nat) : List Nat :=
  (List.range 30).filter (fun d =>
    (fixedDomains m).contains d || ((cueDomains m).contains d && mask.testBit d))

/-- A mode cue must not turn off a domain that an entry of its own or of the base targets (R42). -/
def maskOk (c : Cue) (base : List CueEntry) : Bool :=
  c.kind == 0 ||
  (c.entries ++ base).all (fun e =>
    let ds := targetDomains (entryTarget e).1 (entryTarget e).2
    ds.isEmpty || ds.any (fun d => !(cueDomains c.mode).contains d || c.domainMask.testBit d))

/-- Bytes of an entry (R55). -/
def entryBytes : CueEntry → Nat
  | .write _ _ => 8
  | .masked _ _ _ => 12
  | .tableRef .. => 12
  | .tableInline _ _ _ d => 8 + 4 * d.length

/-- An entry names LEDGER table `n` (block code 0x10). -/
def namesLedger (n : Nat) : CueEntry → Bool
  | .tableRef b k _ _ _ => b == 0x10 && k == n
  | .tableInline b k _ _ => b == 0x10 && k == n
  | _ => false

/-- The content of a table: 0, with every entry that names it written over it (R63). -/
def buildTable (store : List (List Byte)) (es : List CueEntry) : Sparse 8 :=
  es.foldl (fun m e => match e with
    | .tableRef _ _ img dest len => writeList 0 m dest ((store.getD img []).take len)
    | .tableInline _ _ dest data => writeList 0 m dest ((data.map (fun w => leBytes 4 w.toNat)).flatten)
    | _ => m) []

/-- The value that register entries for `off` give over `w` (R55). -/
def entriesWord (es : List CueEntry) (off : Nat) (w : Word) : Word :=
  es.foldl (fun w e => match e with
    | .write o v => if o = off then v else w
    | .masked o m v => if o = off then (w &&& ~~~m) ||| (v &&& m) else w
    | _ => w) w

/-- What the entries write into the LEDGER tables keeps the rules of those tables: no pin is input and output at once
(R207), no whole term has two event literals (R216), and a destination of 0 stands only in the mirror topology (R217,
R220). -/
def ledgerTablesOk (store : List (List Byte)) (mirror : Bool) (es : List CueEntry) : Bool :=
  let t (n : Nat) := buildTable store (es.filter (namesLedger n))
  let g (n o k : Nat) := leNat (readList 0 (t n) o k)
  (List.range 8).all (fun p => !((g 0 (16 * p) 1).testBit 7 && (g 0 (16 * p) 1).testBit 4)) &&
  (List.range 16).all (fun i => decide (((List.range 4).filter (fun l =>
    (g 1 (8 * i + 2 * l) 2).testBit 15 && (g 1 (8 * i + 2 * l) 2).testBit 13)).length ≤ 1)) &&
  (mirror || ((List.range 4).all (fun k => !(g 2 (16 * k + 2) 1).testBit 7 || bits (g 2 (16 * k + 2) 1) 5 4 != 0) &&
    (List.range 4).all (fun p => !((g 3 (32 * p + 16) 1).testBit 7 && (g 3 (32 * p + 16) 1).testBit 6) ||
      bits (g 3 (32 * p + 16) 1) 5 4 != 0)))

/-- The first entry of `es` at byte offset `off` that breaks R57 or a rule of the LEDGER tables, after the entries of
`done`. -/
def firstBadEntry (store : List (List Byte)) (mirror : Bool) : List CueEntry → Nat → List CueEntry → Option Nat
  | _, _, [] => none
  | done, off, e :: es =>
    if entryOk store e && ledgerTablesOk store mirror (done ++ [e]) then
      firstBadEntry store mirror (if (entryTarget e).1 = 0x10 then done ++ [e] else done) (off + entryBytes e) es
    else some off

/-- The topology that entries give is the mirror (R449). -/
def mirrorTopo (es : List CueEntry) : Bool :=
  bits (entriesWord es KLINK_PAIR.TOPO.addr (regReset KLINK_PAIR.TOPO.addr)).toNat 31 30 == 2

/-- Whether a parsed cue is valid, else the byte offset that the event names (R57). -/
def cueFault (store : List (List Byte)) (base : List CueEntry) (c : Cue) : Option Nat :=
  match firstBadEntry store (mirrorTopo (base ++ c.entries)) [] 32 c.entries with
  | some o => some o
  | none => if maskOk c base then none else some 0x0C

/-! ### Tables -/

/-- The active bank of a table (R63). -/
def State.table (s : State) (block num : Nat) : Sparse 8 := (keyGet s.cue.tables (block, num)).getD []

/-- The little-endian integer of `n` bytes at offset `off` of the active bank of a table. -/
def State.tab (s : State) (block num off n : Nat) : Nat := leNat (readList 0 (s.table block num) off n)

/-- Cells of a grid of `cw` by `ch` over a picture of `w` by `h` (R198, R256). -/
def gridCells (w h cw ch : Nat) : Nat := ceilDiv w cw * ceilDiv h ch

end Sys2Proof.Machine
end

