-- ==== Sys2Proof/Machine/ViewCore.lean ====
section
/-! DEFINITION. The Footlights screen as the pipeline sees it: panel rectangles and dirty regions (R504). -/

namespace Sys2Proof.Machine

def setView (v : ViewState) (s : State) : State := { s with view := v }

/-- Columns and lines of the panel (`VIEW_PANEL`). -/
def panelW (s : State) : Nat := clamp 64 4096 (s.fld VIEW_PANEL.PW)
def panelH (s : State) : Nat := clamp 16 4096 (s.fld VIEW_PANEL.PH)

/-- The part of a rectangle that lies on the panel. -/
def clipRect (s : State) (x y : Int) (w h : Nat) : Option PanelRect :=
  let cut (v : Int) (n : Nat) : Nat := min n v.toNat
  let r : PanelRect := { x0 := cut x (panelW s), y0 := cut y (panelH s), x1 := cut (x + w) (panelW s), y1 := cut (y + h) (panelH s) }
  if r.x0 < r.x1 ∧ r.y0 < r.y1 then some r else none

/-- Mark a rectangle dirty (R504). -/
def viewDirty (r : Option PanelRect) (s : State) : State :=
  match r with
  | some r => setView { s.view with dirty := s.view.dirty ++ [r] } s
  | none => s

/-- A register of layer `n`: 0 CFG, 4 POS, 8 SIZE, 0xC BUF. -/
def layerReg (n o : Nat) : Nat := 0x440100 + 0x20 * n + o

def layerFld (s : State) (n o lo w : Nat) : Nat := s.fld ⟨layerReg n o, lo, w⟩

/-- The place of a layer on the panel. -/
def layerPos (s : State) (n : Nat) : Int × Int := (toSigned 16 (layerFld s n 4 0 16), toSigned 16 (layerFld s n 4 16 16))

end Sys2Proof.Machine
end

