-- ==== Sys2Proof/Machine/PipeCore.lean ====
section
/-! DEFINITION. The output heads of the pixel pipeline: descriptors, buffers and headers (R159, R165, R166), and frames
skipped or abandoned (R146, R147). -/

namespace Sys2Proof.Machine

/-- A head descriptor (R159), read from table 6. -/
structure HeadDesc where
  en : Bool
  hpre : Nat
  vpre : Nat
  format : Nat
  depth : Nat
  ycc : Nat
  x0 : Nat
  y0 : Nat
  cw : Nat
  ch : Nat
  ow : Nat
  oh : Nat
  bufs : Nat
  pitchY : Nat
  pitchC : Nat
  cOff : Nat
  base : Nat
  stride : Nat
  rsvd : Nat                      -- the bits and bytes that are 0
  deriving DecidableEq, Repr

/-- The bytes of the head descriptor of port `p`, head `h` in a bank of table 6 (R159). -/
def headDescBytes (t : Sparse 8) (p h : Nat) : List Byte := readList 0 t (128 * p + 64 * h) 64

/-- A head descriptor from its bytes (R159). -/
def parseHead (bs : List Byte) : HeadDesc :=
  let g (o n : Nat) := leAt bs o n
  { en := bit (g 0 1) 7, hpre := bits (g 0 1) 3 2, vpre := bits (g 0 1) 1 0, format := g 1 1, depth := g 2 1,
    ycc := g 3 1, x0 := g 4 2, y0 := g 6 2, cw := g 8 2, ch := g 10 2, ow := g 12 2, oh := g 14 2, bufs := g 0x10 1,
    pitchY := g 0x14 4, pitchC := g 0x18 4, cOff := g 0x1C 4, base := g 0x20 8, stride := g 0x28 4
    rsvd := bits (g 0 1) 6 4 + g 0x11 3 + g 0x2C 20 }

def headDesc (t : Sparse 8) (p h : Nat) : HeadDesc := parseHead (headDescBytes t p h)

/-- The crop of a head in columns of a frame of width `w`, and in lines of one of height `h`: where it begins and its size (R159). -/
def cropX (d : HeadDesc) (w : Nat) : Nat × Nat := if d.cw = 0 then (0, w) else (d.x0, d.cw)
def cropY (d : HeadDesc) (h : Nat) : Nat × Nat := if d.ch = 0 then (0, h) else (d.y0, d.ch)

/-- The position in a frame of `w` × `h` that output sample (xo, yo) of a head maps to (R348, R503). -/
def headPoint (d : HeadDesc) (w h xo yo : Nat) : Nat × Nat :=
  ((cropX d w).1 + xo * (cropX d w).2 / max 1 d.ow, (cropY d h).1 + yo * (cropY d h).2 / max 1 d.oh)

/-- The box size of a pre-decimation code. -/
def boxOf (c : Nat) : Nat := 2 ^ c

/-- Chroma lines of a head 0 picture (R160). -/
def chromaLines (d : HeadDesc) : Nat := if d.format = 2 then d.oh / 2 else d.oh

/-- Bytes of a line of the first plane. -/
def lumaBytes (d : HeadDesc) : Nat := if d.format = 8 then 3 * d.ow else if d.format = 9 then 4 * d.ow else 2 * d.ow

/-- Bytes of a chroma line: Cb and Cr, 16 bits each (R164). -/
def chromaBytes (d : HeadDesc) : Nat := if d.format = 0 then 4 * d.ow else 2 * d.ow

/-- The scale ratio (c / pre) / o lies within 1/4 to 4 (R160). -/
def ratioOk (c pre o : Nat) : Bool := decide (o * pre ≤ 4 * c) && decide (c ≤ 4 * o * pre)

/-- BASE of a head 0 is a DRAM address: one of the populated data region (R33, R159). A buffer that passes its end makes no head
invalid. -/
def headAddressed (s : State) (d : HeadDesc) : Bool := inDram s d.base 1

/-- An enabled head keeps R160, but for the crop window, which each frame is held against. `poolBytes` is the pool
buffer size. A crop size of 0 takes the frame's and is judged with it. -/
def headValid (s : State) (d : HeadDesc) (h poolBytes : Nat) : Bool :=
  let ranges := decide (d.hpre < 3) && decide (d.vpre < 3) && decide (64 ≤ d.ow) && decide (16 ≤ d.oh) &&
    d.pitchY % 64 == 0 && d.rsvd == 0
  let zero := if h = 0 then decide (d.ow ≤ 8192) && decide (d.oh ≤ 4320) && decide (d.format ≤ 2) &&
      (d.depth == 10 || d.depth == 12) && decide (d.ycc % 4 < 3) && decide (d.ycc < 8) && decide (2 ≤ d.bufs) &&
      decide (d.bufs ≤ 16) && d.pitchC % 64 == 0 && d.cOff % 64 == 0 && d.base % 4096 == 0 && headAddressed s d && d.stride % 4096 == 0 &&
      (d.format == 0 || d.ow % 2 == 0) && (d.format != 2 || d.oh % 2 == 0) && decide (chromaBytes d ≤ d.pitchC) &&
      decide (d.oh * d.pitchY ≤ d.cOff) && decide (256 + d.cOff + chromaLines d * d.pitchC ≤ d.stride)
    else decide (d.ow ≤ 4096) && decide (d.oh ≤ 2160) && (d.format == 8 || d.format == 9) && d.bufs == 0 &&
      d.pitchC == 0 && d.cOff == 0 && d.base == 0 && d.stride == 0 &&
      decide (256 + d.oh * d.pitchY ≤ poolBytes)
  ranges && zero && decide (lumaBytes d ≤ d.pitchY) && (d.cw == 0 || ratioOk d.cw (boxOf d.hpre) d.ow) &&
    (d.ch == 0 || ratioOk d.ch (boxOf d.vpre) d.oh)

/-- The next free buffer in cyclic order after `last` (R165). -/
def nextBuf (bufs : List (Option Nat)) (last : Nat) : Option Nat :=
  ((List.range bufs.length).map (fun i => (last + 1 + i) % bufs.length)).find? (fun k => (bufs.getD k (some 0)).isNone)

/-- Take a head 0 buffer of port `p` for frame `num` (R165, paths 11 to 14 of R244). -/
def takeBuf (p num : Nat) (s : State) : Option (Nat × State) :=
  (nextBuf (pipePort s p).bufs (pipePort s p).lastBuf).map (fun k =>
    (k, showFree (creditIssue (11 + p) 1 (modPipePort p (fun x =>
      { x with bufs := x.bufs.set k (some num), lastBuf := k }) s))))

/-! ### Sources of the encoders (R334, R336) -/

def setHeve (h : List HeveEng) (s : State) : State := { s with heve := h }

def modHeve (e : Nat) (f : HeveEng → HeveEng) (s : State) : State := setHeve (modAt s.heve e f) s

def heveEng (s : State) (e : Nat) : HeveEng := (s.heve[e]?).getD heveInit

/-- An event of encoder engine `e` with its flag. -/
def heveFlag (f : Nat → Fld) (cls : EventClass) (e : Nat) (s : State) : State :=
  postFlag (f e) (f e).lo cls 8 e 0 s

/-- Engine `e` is powered and enabled. -/
def heveOn (s : State) (e : Nat) : Bool := s.domainOn (17 + e) && s.flag (HEVE_CTRL.EN e)

/-- The gang in force: 0 none, 1 TILES, 2 MOSAIC; 3 acts as 0 (R345, R346). -/
def heveGang (s : State) : Nat :=
  let g := s.fld (HEVE_CTRL.GANG 0)
  if heveOn s 0 && g != 3 then g else 0

/-- The live fields of `HEVE_STATUS`. -/
def heveShow (e : Nat) (s : State) : State :=
  let h := heveEng s e
  let busy := h.pic.isSome || (e == 1 && ((heveEng s 0).pic.map (·.gang)).getD 0 != 0)
  (((s.setFlag (HEVE_STATUS.BUSY e) busy).setFlag (HEVE_STATUS.BAD_CFG e) h.bad).setFlag (HEVE_STATUS.OUT_WAITING e)
    (!h.held.isEmpty)).setFld (HEVE_STATUS.WAITING e) h.waiting.length

/-- Engine `e` is disabled for its configuration, with the event of R339. -/
def heveBad (e : Nat) (s : State) : State :=
  heveShow e (heveFlag HEVE_EVENT.BAD_CFG .warning e (modHeve e (fun h => { h with bad := true }) s))

/-- The engine that consumes head 0 of port `p` (R334, R345, R346). -/
def heveConsumer (s : State) (p : Nat) : Option Nat :=
  let g := heveGang s
  if heveOn s 0 ∧ s.fld (HEVE_CTRL.PORT 0) = p then some 0
  else if g = 1 then none
  else if heveOn s 1 ∧ s.fld (HEVE_CTRL.PORT 1) = p then some 1
  else none

/-- The oldest waiting buffer of engine `e` is released uncoded (R336). -/
def heveDrop (e : Nat) (s : State) : State :=
  match (heveEng s e).waiting with
  | [] => s
  | old :: t =>
    let s := releaseBuf old.port old.buf (modHeve e (fun h => { h with waiting := t }) s)
    heveShow e (heveFlag HEVE_EVENT.DROP .info e (s.addFld (HEVE_CNT_DROP.COUNT e) 1))

/-- Engine `e` holds at most WAIT_MAX waiting buffers (R336). -/
def heveTrim (e : Nat) (s : State) : State :=
  let most := max 1 (s.fld (HEVE_CTRL.WAIT_MAX (if heveGang s = 0 then e else 0)))
  (List.range ((heveEng s e).waiting.length - most)).foldl (fun s _ => heveDrop e s) s

/-- Engine `e` takes a buffer (R334, R336, R339). -/
def heveTake (e : Nat) (o : HeadOut) (s : State) : State :=
  let g := heveGang s
  let s := if e = 0 ∧ g = 0 ∧ heveOn s 1 ∧ s.fld (HEVE_CTRL.PORT 1) = o.port ∧ (heveEng s 1).bad = false then heveBad 1 s
    else s
  if o.skipped ∨ (heveEng s (if g = 0 then e else 0)).bad then releaseBuf o.port o.buf s
  else
    heveTrim e (heveShow e (modHeve e (fun h => { h with waiting := h.waiting ++ [o] }) s))

/-- A picture is handed to its consumer at once (R165): an encoder for head 0 of its port, else whoever reads the list of
pictures. -/
def handOut (o : HeadOut) (s : State) : State :=
  match (if o.head = 0 then heveConsumer s o.port else none) with
  | some e => heveTake e o s
  | none => setPipe { s.pipe with out := s.pipe.out ++ [o] } s

/-- SRC of the frame of a source (R235): the ledger's, or port and VC of a playback frame. -/
def pipeSrcByte (s : State) (src : PipeSrc) : Nat :=
  match (if src.live then s.ledger.frames.find? (fun f => f.num == src.num) else none) with
  | some f => f.port * 64 + f.desc * 16 + f.vc
  | none => src.port % 4 * 64 + src.vc % 16

/-- Hand out a picture of head `h` for `src`, in buffer `k` at `addr`. -/
def handPicture (h p k addr : Nat) (skipped : Bool) (src : PipeSrc) (s : State) : State :=
  handOut { head := h, port := p, buf := k, num := src.num, skipped := skipped, addr := addr, src := pipeSrcByte s src,
            desc := headDescBytes (s.table 0x08 6) p h } s

/-- Head 1 pictures that are complete (R501): one of the shown port replaces the picture of layer 0, unless it is SKIPPED or
ABANDONED; every other one gives its buffer back. -/
def viewTakeOne (o : HeadOut) (s : State) : State :=
  let fl := leNat (s.bufBytes (o.addr + 6) 2)
  if fl.testBit 8 = false then s
  else
    let drop (b : Nat) (s : State) : State := poolChange b (fun x => { x with owner := 0 }) s
    let s := setPipe { s.pipe with out := s.pipe.out.filter (fun q => q != o) } s
    if fl.testBit 0 ∨ fl.testBit 1 ∨ o.port ≠ s.fld VIEW_CTRL.PORT ∨ s.domainOn 27 = false then drop o.buf s
    else
      let s := match s.view.pic with
        | some q => drop q.buf s
        | none => s
      let s := (setView { s.view with pic := some o } s).setFld VIEW_L0_BUF.HANDLE o.buf
      let d := parseHead o.desc
      viewDirty (clipRect s (layerPos s 0).1 (layerPos s 0).2 d.ow d.oh) s

def viewTake (s : State) : State := (s.pipe.out.filter (fun o => o.head == 1)).foldl (fun s o => viewTakeOne o s) s

/-- A 256-byte output header (R166). -/
def headerBytes (head format flags num port vc epoch fs ow oh lines slices replays damagedN : Nat) (damaged : List Nat) :
    List Byte :=
  padTo 0x40 ([0x45, 0x50, 0x49, 0x58] ++ leBytes 1 head ++ leBytes 1 format ++ leBytes 2 flags ++ leBytes 8 num ++
    leBytes 1 port ++ leBytes 1 vc ++ leBytes 2 0 ++ leBytes 4 epoch ++ leBytes 8 (fs / 1000000000) ++
    leBytes 4 (fs % 1000000000) ++ leBytes 2 ow ++ leBytes 2 oh ++ leBytes 4 lines ++ leBytes 2 slices ++
    leBytes 2 replays ++ leBytes 2 damagedN) ++
  (List.range 128).map (fun b => BitVec.ofNat 8 (((damaged.filter (fun k => k / 8 == b)).map (fun k => 2 ^ (k % 8))).sum)) ++
  List.replicate 64 0

/-- An event of the pipeline with its flag (R171, R160). -/
def pipeFlag (f : Fld) (cls : EventClass) (port : Nat) (s : State) : State := postFlag f f.lo cls 4 port 0 s

/-- The header of a skipped frame in a free buffer of head `h`, if one is free (R146, R166). Its EPOCH is that of the moment of
the skip, since the frame never began (DESIGN CHOICE, assumption 124). -/
def skipHead (src : PipeSrc) (h : Nat) (s : State) : State :=
  let p := if src.live then src.port else 0
  let d := headDesc (s.table 0x08 6) p h
  let hdr := headerBytes h d.format 0x101 src.num src.port src.vc (s.fld CUE_EPOCH.EPOCH) src.fs 0 0 0
    (ceilDiv src.d.height 16) 0 0 []
  if (pipePort s p).headOk.getD h false = false then s
  else if h = 0 then
    match takeBuf p src.num s with
    | none => s
    | some (k, s) =>
      let a := dramOff (d.base + k * d.stride)
      handPicture 0 p k a true src (s.writeBuf a hdr)
  else
    match poolTake 2 s with
    | none => s
    | some (k, s) => viewTake (handPicture 1 p k (poolAddr s k) true src (s.writeDram (poolAddr s k) hdr))

/-- A waiting frame is skipped: never developed, counted, with SKIPPED headers (R146). -/
def skipFrame (src : PipeSrc) (s : State) : State :=
  let p := if src.live then src.port else 0
  pipeFlag PIPE_EVENT.SKIP .info p ((skipHead src 1 (skipHead src 0 s)).addFld PIPE_CNT_SKIP.COUNT 1)

def lagMax (s : State) (p : Nat) : Nat := max 1 (s.fld (PIPE_PORT.LAG_MAX p))

/-- The oldest waiting frame of port `p` is skipped when more wait than LAG_MAX allows (R146). -/
def lagSkip (p : Nat) (s : State) : State :=
  match (pipePort s p).waiting with
  | w :: t =>
    if lagMax s p < (pipePort s p).waiting.length then skipFrame w (modPipePort p (fun x => { x with waiting := t }) s) else s
  | [] => s

/-! ### The end of a frame in development -/

/-- Slices of a frame (R143). -/
def sliceCount (h : Nat) : Nat := ceilDiv h 16

/-- The head descriptor that a job latched. -/
def PipeJob.head (j : PipeJob) (h : Nat) : HeadDesc :=
  headDesc ((j.tables[6]?).getD []) (if j.src.live then j.src.port else 0) h

/-- The settings port of a frame: its own, or port 0 for playback (R140). -/
def PipeSrc.set (w : PipeSrc) : Nat := if w.live then w.port else 0

/-- FLAGS of the output headers as they stand (R166). -/
def jobFlags (j : PipeJob) (abandoned done : Bool) : Nat :=
  2 * boolNat abandoned + 4 * boolNat j.recomputed + 8 * boolNat (!j.damaged.isEmpty) + 16 * boolNat j.filled +
  256 * boolNat done

/-- Write the header of one head of a job. -/
def writeHeader (j : PipeJob) (h addr : Nat) (abandoned done : Bool) (s : State) : State :=
  let d := j.head h
  s.writeBuf addr (headerBytes h d.format (jobFlags j abandoned done) j.src.num j.src.port j.src.vc j.epoch j.src.fs
    d.ow d.oh (j.lines.getD h 0) (sliceCount j.src.d.height) j.spent j.damaged.length j.damaged)

/-- Write the headers of both heads. -/
def writeHeaders (j : PipeJob) (abandoned done : Bool) (s : State) : State :=
  let s := match j.head0 with
    | some (_, a) => writeHeader j 0 a abandoned done s
    | none => s
  match j.head1 with
  | some (_, a) => writeHeader j 1 a abandoned done s
  | none => s

/-- The frame in development of port `p` ends: headers completed with DONE (R147, R166). An abandoned frame posts
the info event of a skipped one (DESIGN CHOICE, assumption 162). -/
def endJob (p : Nat) (j : PipeJob) (abandoned : Bool) (s : State) : State :=
  let s := viewTake (writeHeaders j abandoned true (modPipePort p (fun x => { x with job := none }) s))
  let s := s.clrBit PIPE_STATUS.BUSY p
  if abandoned then pipeFlag PIPE_EVENT.SKIP .info p (s.addFld PIPE_CNT_SKIP.COUNT 1) else s

/-- The ring reclaims the space of a waiting frame, which is skipped (R146), or of a frame in development, which ends after
its slice (R147); `hit` picks the frame. -/
def pipeReclaimBy (p : Nat) (hit : PipeSrc → Bool) (s : State) : State :=
  let q := pipePort s p
  match q.waiting.find? (fun w => w.live && hit w) with
  | some w => skipFrame w (modPipePort p (fun x => { x with waiting := x.waiting.filter (fun y => y != w) }) s)
  | none =>
    match q.job with
    | none => s
    | some j =>
      if (j.src.live && hit j.src) = false then s
      else if j.granted then modPipePort p (fun x => { x with job := some { j with ended := true } }) s
      else endJob p j true s

def pipeReclaim (p num : Nat) (s : State) : State := pipeReclaimBy p (fun w => w.num == num) s

end Sys2Proof.Machine
end

