-- ==== Sys2Proof/Machine/MlDsa.lean ====
section
/-! DEFINITION. ML-DSA-87 of FIPS 204 with the SHAKE functions of FIPS 202, as R86, R90 and R92 name them (PRESUMED, assumption
133): key generation from a seed, pure signing and verification with an empty context. A polynomial is a list of 256 coefficients
modulo q. -/

namespace Sys2Proof.Machine

/-! ### SHAKE -/

/-- Absorb `n` blocks of `8 * lanes` bytes. -/
def spongeBlocks (lanes : Nat) : Nat → List (BitVec 64) → List Byte → List (BitVec 64)
  | 0, a, _ => a
  | n + 1, a, bs =>
    let x := (List.range 25).map (fun i => if i < lanes then a.getD i 0 ^^^ BitVec.ofNat 64 (leAt bs (8 * i) 8) else a.getD i 0)
    spongeBlocks lanes n (keccakF x) (bs.drop (8 * lanes))

/-- Squeeze `n` blocks. -/
def spongeOut (lanes : Nat) : Nat → List (BitVec 64) → List Byte
  | 0, _ => []
  | n + 1, a => ((a.take lanes).map (fun w => leBytes 8 w.toNat)).flatten ++ spongeOut lanes n (keccakF a)

/-- `out` bytes of the SHAKE function with a rate of `8 * lanes` bytes. -/
def shake (lanes : Nat) (m : List Byte) (out : Nat) : List Byte :=
  let r := 8 * lanes
  let n := m.length / r + 1
  let pad := n * r - m.length
  let tail : List Byte := if pad = 1 then [0x9F] else [0x1F] ++ List.replicate (pad - 2) 0 ++ [0x80]
  (spongeOut lanes (out / r + 1) (spongeBlocks lanes n (List.replicate 25 0) (m ++ tail))).take out

def shake128 (m : List Byte) (out : Nat) : List Byte := shake 21 m out
def shake256 (m : List Byte) (out : Nat) : List Byte := shake 17 m out

/-! ### Arithmetic modulo q -/

def dsaQ : Nat := 8380417

def addQ (a b : Nat) : Nat := (a + b) % dsaQ
def subQ (a b : Nat) : Nat := (a + dsaQ - b) % dsaQ
def mulQ (a b : Nat) : Nat := a * b % dsaQ

/-- `b` to the power of the `n` low bits of `e`. -/
def powQ : Nat → Nat → Nat → Nat
  | 0, _, _ => 1
  | n + 1, b, e => let r := powQ n (mulQ b b) (e / 2); if e % 2 = 1 then mulQ b r else r

/-- The residue in (−q/2, q/2]. -/
def centred (a : Nat) : Int := if a ≤ dsaQ / 2 then a else (a : Int) - dsaQ

/-- The bits of an 8-bit number in reverse. -/
def bitRev8 (k : Nat) : Nat := ((List.range 8).map (fun i => if k.testBit i then 2 ^ (7 - i) else 0)).sum

/-- The transform of a polynomial of 2^n coefficients below node `k` of the tree of roots (FIPS 204, NTT). -/
def nttRec : Nat → Nat → List Nat → List Nat
  | 0, _, a => a
  | n + 1, k, a =>
    let z := powQ 9 1753 (bitRev8 k)
    let lo := a.take (2 ^ n)
    let hi := (a.drop (2 ^ n)).map (mulQ z)
    nttRec n (2 * k) (List.zipWith addQ lo hi) ++ nttRec n (2 * k + 1) (List.zipWith subQ lo hi)

/-- The inverse without its scaling. -/
def invRec : Nat → Nat → List Nat → List Nat
  | 0, _, a => a
  | n + 1, k, a =>
    let z := powQ 9 1753 (512 - bitRev8 k)
    let lo := invRec n (2 * k) (a.take (2 ^ n))
    let hi := invRec n (2 * k + 1) (a.drop (2 ^ n))
    List.zipWith addQ lo hi ++ (List.zipWith subQ lo hi).map (mulQ z)

def ntt (a : List Nat) : List Nat := nttRec 8 1 a
def invNtt (a : List Nat) : List Nat := (invRec 8 1 a).map (mulQ 8347681)

def polyAdd (a b : List Nat) : List Nat := List.zipWith addQ a b
def polySub (a b : List Nat) : List Nat := List.zipWith subQ a b
def polyMul (a b : List Nat) : List Nat := List.zipWith mulQ a b

/-- A matrix times a vector, all transformed. -/
def matVec (m : List (List (List Nat))) (v : List (List Nat)) : List (List Nat) :=
  m.map (fun row => (List.zipWith polyMul row v).foldl polyAdd (List.replicate 256 0))

/-! ### Packing -/

/-- Numbers of `w` bits packed from bit 0 up. -/
def packNum (w : Nat) (cs : List Nat) : List Byte := leBytes (cs.length * w / 8) (cs.foldr (fun c v => c + 2 ^ w * v) 0)

/-- `n` numbers of `w` bits. -/
def unpackNum (w n : Nat) (bs : List Byte) : List Nat :=
  let v := leNat bs
  (List.range n).map (fun i => v / 2 ^ (w * i) % 2 ^ w)

/-! ### Sampling -/

/-- RejNTTPoly: 23-bit candidates below q. -/
def rejNtt (seed : List Byte) : List Nat :=
  let bs := shake128 seed 1344
  (((List.range 448).map (fun i => leAt bs (3 * i) 3 % 2 ^ 23)).filter (fun z => decide (z < dsaQ))).take 256

/-- RejBoundedPoly with η = 2. -/
def rejBounded (seed : List Byte) : List Nat :=
  let bs := shake256 seed 544
  (((bs.map (fun b => [b.toNat % 16, b.toNat / 16])).flatten.filter (fun z => decide (z < 15))).map (fun z => subQ 2 (z % 5))).take 256

/-- ExpandA: 8 rows of 7. -/
def expandA (rho : List Byte) : List (List (List Nat)) :=
  (List.range 8).map (fun r => (List.range 7).map (fun c => rejNtt (rho ++ leBytes 1 c ++ leBytes 1 r)))

/-- SampleInBall over its bytes, from place `i` on; `signs` are the sign bits still unused. -/
def ballStep : List Byte → Nat → Nat → List Nat → List Nat
  | [], _, _, c => c
  | b :: t, i, signs, c =>
    if 256 ≤ i then c
    else if i < b.toNat then ballStep t i signs c
    else ballStep t (i + 1) (signs / 2) ((c.set i (c.getD b.toNat 0)).set b.toNat (if signs % 2 = 1 then dsaQ - 1 else 1))

/-- The challenge with 60 coefficients ±1. -/
def sampleInBall (seed : List Byte) : List Nat :=
  let bs := shake256 seed 1088
  ballStep (bs.drop 8) 196 (leAt bs 0 8) (List.replicate 256 0)

/-- ExpandMask: coefficients from −γ1 + 1 to γ1, of 20 bits. -/
def expandMask (seed : List Byte) (k : Nat) : List (List Nat) :=
  (List.range 7).map (fun r => (unpackNum 20 256 (shake256 (seed ++ leBytes 2 (k + r)) 640)).map (fun z => subQ 524288 z))

/-! ### Rounding -/

/-- Decompose by 2γ2 = 523,776: the high part and the low part. -/
def decompose (r : Nat) : Nat × Int :=
  let low : Int := if r % 523776 ≤ 261888 then r % 523776 else (r % 523776 : Int) - 523776
  if (r : Int) - low = dsaQ - 1 then (0, low - 1) else (((r : Int) - low).toNat / 523776, low)

def highBits (r : Nat) : Nat := (decompose r).1

/-- The high part that a hint corrects. -/
def useHint (h : Bool) (r : Nat) : Nat :=
  let (r1, r0) := decompose r
  if h = false then r1 else if 0 < r0 then (r1 + 1) % 16 else (r1 + 15) % 16

/-- Power2Round by 2^13: the high part, and the low part modulo q. -/
def power2Round (r : Nat) : Nat × Nat :=
  let low : Int := if r % 8192 ≤ 4096 then r % 8192 else (r % 8192 : Int) - 8192
  (((r : Int) - low).toNat / 8192, (low % dsaQ).toNat)

/-- Every coefficient is smaller than `b` in absolute value. -/
def normBelow (b : Nat) (v : List (List Nat)) : Bool := v.all (fun p => p.all (fun c => decide ((centred c).natAbs < b)))

def encodeW1 (w : List (List Nat)) : List Byte := (w.map (packNum 4)).flatten

/-! ### Keys -/

/-- What a seed expands to: ρ, ρ', K. -/
def dsaSeeds (seed : List Byte) : List Byte × List Byte × List Byte :=
  let h := shake256 (seed ++ [8, 7]) 128
  (h.take 32, (h.drop 32).take 64, h.drop 96)

/-- The secret vectors of a seed. -/
def dsaSecrets (rho' : List Byte) : List (List Nat) × List (List Nat) :=
  ((List.range 7).map (fun r => rejBounded (rho' ++ leBytes 2 r)), (List.range 8).map (fun r => rejBounded (rho' ++ leBytes 2 (r + 7))))

/-- t = A s1 + s2. -/
def dsaT (rho : List Byte) (s1 s2 : List (List Nat)) : List (List Nat) :=
  List.zipWith (fun a b => polyAdd (invNtt a) b) (matVec (expandA rho) (s1.map ntt)) s2

def packKey (rho : List Byte) (t : List (List Nat)) : List Byte :=
  rho ++ (t.map (fun p => packNum 10 (p.map (fun c => (power2Round c).1)))).flatten

/-- The public key of ML-DSA.KeyGen_internal (R90). -/
@[irreducible] def mldsaPublicKey (seed : List Byte) : List Byte :=
  let (rho, rho', _) := dsaSeeds (padTo 32 seed)
  let (s1, s2) := dsaSecrets rho'
  packKey rho (dsaT rho s1 s2)

/-! ### Signing -/

/-- The hint bits of a signature: the places of each polynomial, then how many there are up to it. -/
def packHint (h : List (List Bool)) : List Byte :=
  let places := h.map (fun p => (List.range 256).filter (fun i => p.getD i false))
  padTo 75 (places.flatten.map (BitVec.ofNat 8)) ++
    (List.range 8).map (fun i => BitVec.ofNat 8 ((places.take (i + 1)).map List.length).sum)

/-- Rounds of Sign_internal from `κ` on, at most `n`. -/
def signRounds (a : List (List (List Nat))) (s1 s2 t0 : List (List Nat)) (mu seed : List Byte) : Nat → Nat → List Byte
  | 0, _ => []
  | n + 1, k =>
    let y := expandMask seed k
    let w := (matVec a (y.map ntt)).map invNtt
    let cTilde := shake256 (mu ++ encodeW1 (w.map (fun p => p.map highBits))) 64
    let c := ntt (sampleInBall cTilde)
    let by_ (v : List (List Nat)) : List (List Nat) := v.map (fun p => invNtt (polyMul c p))
    let z := List.zipWith polyAdd y (by_ s1)
    let r := List.zipWith polySub w (by_ s2)
    let ct0 := by_ t0
    let h := List.zipWith (fun p q => List.zipWith (fun x y => highBits x != highBits (addQ x y)) p q) r ct0
    if normBelow 524168 z && r.all (fun p => p.all (fun x => decide ((decompose x).2.natAbs < 261768))) && normBelow 261888 ct0 &&
        decide ((h.map (fun p => p.countP id)).sum ≤ 75) then
      cTilde ++ (z.map (fun p => packNum 20 (p.map (fun x => (524288 - centred x).toNat)))).flatten ++ packHint h
    else signRounds a s1 s2 t0 mu seed n (k + 7)

/-- The message representative of a message with an empty context. -/
def dsaMu (pk m : List Byte) : List Byte := shake256 (shake256 pk 64 ++ [0, 0] ++ m) 64

/-- ML-DSA.Sign with the key of a seed, the random bytes `rnd` and an empty context (R92), within 814 rounds (FIPS 204). -/
@[irreducible] def mldsaSign (rnd seed m : List Byte) : List Byte :=
  let (rho, rho', key) := dsaSeeds (padTo 32 seed)
  let (s1, s2) := dsaSecrets rho'
  let t := dsaT rho s1 s2
  let mu := dsaMu (packKey rho t) m
  signRounds (expandA rho) (s1.map ntt) (s2.map ntt) (t.map (fun p => ntt (p.map (fun c => (power2Round c).2)))) mu
    (shake256 (key ++ padTo 32 rnd ++ mu) 64) 814 0

/-! ### Verification -/

/-- The places of the hint bits of one polynomial, strictly rising. -/
def risingPlaces : List Nat → Bool
  | a :: b :: t => decide (a < b) && risingPlaces (b :: t)
  | _ => true

/-- The hint of a signature, or none if its 83 bytes are no hint. -/
def unpackHint (bs : List Byte) : Option (List (List Nat)) :=
  let ends := (bs.drop 75).map (·.toNat)
  let rows := (List.range 8).map (fun i =>
    let a := if i = 0 then 0 else ends.getD (i - 1) 0
    ((bs.take 75).drop a).take (ends.getD i 0 - a) |>.map (·.toNat))
  let ok := (List.range 8).all (fun i =>
      decide ((if i = 0 then 0 else ends.getD (i - 1) 0) ≤ ends.getD i 0) && decide (ends.getD i 0 ≤ 75)) &&
    rows.all risingPlaces && ((bs.take 75).drop (ends.getD 7 0)).all (fun b => b == 0)
  if ok then some rows else none

/-- ML-DSA.Verify with an empty context: public key, message, signature (R86). -/
@[irreducible] def mldsaVerify (pk m sig : List Byte) : Bool :=
  if pk.length ≠ 2592 ∨ sig.length ≠ 4627 then false
  else
    match unpackHint (sig.drop 4544) with
    | none => false
    | some hint =>
      let cTilde := sig.take 64
      let z := (List.range 7).map (fun i =>
        (unpackNum 20 256 ((sig.drop (64 + 640 * i)).take 640)).map (fun v => subQ 524288 v))
      let t1 := (List.range 8).map (fun i =>
        ntt ((unpackNum 10 256 ((pk.drop (32 + 320 * i)).take 320)).map (fun c => c * 8192)))
      let c := ntt (sampleInBall cTilde)
      let az := matVec (expandA (pk.take 32)) (z.map ntt)
      let w := List.zipWith (fun a t => invNtt (polySub a (polyMul c t))) az t1
      let w1 := List.zipWith (fun p h => p.zipIdx.map (fun e => useHint (h.contains e.2) e.1)) w hint
      normBelow 524168 z && shake256 (dsaMu pk m ++ encodeW1 w1) 64 == cTilde

end Sys2Proof.Machine
end

