-- ==== Sys2Proof/Machine/Nvm.lean ====
section
/-! DEFINITION. The NVM controller: the journal and its records (R103, R104, R588), the operations of NVMC_OP (R101,
R102, R105) and what cuts one short (R548). -/

namespace Sys2Proof.Machine

def journalBase (copy : Nat) : Nat := 0x3000000 + 0x200000 * copy
def slotBase (slot : Nat) : Nat := 0x1800000 * slot

/-- The 256-byte page at `a` holds nothing but 0xFF. -/
def pageErased (s : State) (a : Nat) : Bool := !s.nvm.any (fun e => decide (a ≤ e.1) && decide (e.1 < a + 256))

/-- Erased pages of a journal copy, 0 to 8,192. -/
def erasedPages (s : State) (copy : Nat) : Nat :=
  ((List.range 8192).filter (fun p => pageErased s (journalBase copy + 256 * p))).length

/-- The next page offset, from the write position on, that is erased in both copies (R103, R105). -/
def nextPage (s : State) : Option Nat :=
  ((List.range 8192).map (fun i => (s.trust.jrnlPage + i) % 8192)).find? (fun p =>
    pageErased s (journalBase 0 + 256 * p) && pageErased s (journalBase 1 + 256 * p))

/-- A record of R103 with SEQ `seq` at device time `t`. -/
def recordBytes (type seq : Nat) (t : DevTime) (payload : List Byte) : List Byte :=
  let b := [0x4A, 0x52] ++ leBytes 1 type ++ leBytes 1 payload.length ++ leBytes 4 seq ++ leBytes 8 t.sec.toNat ++
    leBytes 4 t.ns ++ padTo 228 payload ++ List.replicate 4 0
  b ++ leBytes 4 (crc32 b).toNat

/-- A page holds a valid record (R104). -/
def recordValid (b : List Byte) : Bool :=
  b.take 2 == [0x4A, 0x52] && leAt b 0xFC 4 == (crc32 (b.take 0xFC)).toNat

/-- The pages of the journal where anything is written, in either copy. -/
def usedPages (s : State) : List Nat :=
  ((s.nvm.filter (fun e => decide (0x3000000 ≤ e.1) && decide (e.1 < 0x3400000))).map
    (fun e => (e.1 - 0x3000000) % 0x200000 / 256)).dedup

/-- The record of a page offset, valid in either copy (R104). -/
def pageRecord (s : State) (p : Nat) : Option (List Byte) :=
  let c0 := s.nvmBytes (journalBase 0 + 256 * p) 256
  let c1 := s.nvmBytes (journalBase 1 + 256 * p) 256
  if recordValid c0 then some c0 else if recordValid c1 then some c1 else none

/-- Insert a record by its SEQ. -/
def insertRecord (r : List Byte) : List (List Byte) → List (List Byte)
  | [] => [r]
  | x :: xs => if leAt r 4 4 ≤ leAt x 4 4 then r :: x :: xs else x :: insertRecord r xs

/-- The journal: the valid records in SEQ order (R104). -/
def journal (s : State) : List (List Byte) :=
  ((usedPages s).filterMap (pageRecord s)).foldl (fun l r => insertRecord r l) []

/-- The position and SEQ counters after a record with SEQ `seq` at page `p`. -/
def advanceJournal (p seq : Nat) (s : State) : State :=
  let s := s.setFld (NVMC_JRNL_SEQ.DATA) (seq + 1)
  { s with trust := { s.trust with jrnlPage := (p + 1) % 8192, jrnlSpent := decide (seq + 1 = 2 ^ 32) } }

/-- The newest of the journal's valid records that `ok` picks: its SEQ and its page offset (R104). -/
def newestWith (ok : List Byte → Bool) (s : State) : Option (Nat × Nat) :=
  (usedPages s).foldl (fun a p => match pageRecord s p with
    | none => a
    | some r => if ok r = false then a else match a with
      | none => some (leAt r 4 4, p)
      | some (q, k) => if q < leAt r 4 4 then some (leAt r 4 4, p) else some (q, k)) none

/-- The place and SEQ of the next record follow the newest valid record (R104). -/
def findPosition (s : State) : State :=
  match newestWith (fun _ => true) s with
  | some (q, p) => advanceJournal p q s
  | none => s

/-- The position that a record needs (R103). `NVMC_JRNL_SEQ` reads 0 from a reset to step 3 of Dawn; a record made in between takes
it from the journal. -/
def knowPosition (s : State) : State := if s.fld NVMC_JRNL_SEQ.DATA = 0 then findPosition s else s

/-- Program a page into both copies, copy 0 first (R103). -/
def programBoth (p : Nat) (data : List Byte) (s : State) : State :=
  (s.writeNvm (journalBase 0 + 256 * p) data).writeNvm (journalBase 1 + 256 * p) data

/-- No erased page: FULL and a recoverable event (R105). -/
def journalFull (s : State) : State :=
  postEvent { cls := .recoverable, block := 24, cause := 0x204, inst := 0xFF, detail := NVMC_OP.OP.addr }
    (s.setFlag NVMC_STATUS.FULL true)

/-- SEQ exhausted: a fatal event, the append refused. -/
def journalSpent (s : State) : State :=
  postEvent { cls := .fatal, block := 24, cause := 0x300, inst := 0xFF, detail := 0 } s

/-- The controller can take no operation: one runs, or rail 0 was lost (R538). -/
def nvmBlocked (s : State) : Bool := s.flag NVMC_STATUS.BUSY || s.power.nvmLock

/-- A record waits for the controller, or, when `refused`, for an erased page (R101, R105). -/
def holdRecord (refused : Bool) (type : Nat) (payload : List Byte) (s : State) : State :=
  { s with trust := { s.trust with held := s.trust.held ++ [{ type := type, payload := payload, refused := refused }] } }

/-- The device programs a record of its own (R79, R80, R93, R98, R100), once no operation of the controller runs. -/
def deviceRecord (type : Nat) (payload : List Byte) (s : State) : State :=
  if s.trust.jrnlSpent then journalSpent s
  else if nvmBlocked s then holdRecord false type payload s
  else
    match nextPage s with
    | none => journalFull s
    | some p =>
      let seq := s.fld NVMC_JRNL_SEQ.DATA
      advanceJournal p seq (programBoth p (recordBytes type seq s.time payload) s)

/-- A CURTAIN or SEAL record: programmed, or held also while no erased page remains (R105). -/
def recordOrHold (type : Nat) (payload : List Byte) (s : State) : State :=
  if (nextPage s).isNone then journalFull (holdRecord true type payload s) else deviceRecord type payload (knowPosition s)

/-- A held record's turn: programmed; while no erased page remains, a CURTAIN or SEAL record stays held, which counts as refused
once, and any other is refused (R105). -/
def retryHeld (s : State) (r : HeldRecord) : State :=
  if (nextPage s).isNone ∧ r.refused then holdRecord true r.type r.payload s
  else if (nextPage s).isNone ∧ (r.type = 4 ∨ r.type = 6) then journalFull (holdRecord true r.type r.payload s)
  else deviceRecord r.type r.payload s

/-- The held records' turn comes when the controller is free (R101, R105). -/
def programHeld (s : State) : State :=
  if s.trust.held.isEmpty ∨ nvmBlocked s then s
  else s.trust.held.foldl retryHeld { knowPosition s with trust := { (knowPosition s).trust with held := [] } }

/-- The payload of a PRIV record (R588). -/
def privPayload (s : State) (action inst : Nat) (window : Bool) (key : List Byte) : List Byte :=
  leBytes 1 action ++ leBytes 1 (boolNat (s.flag TRUST_PRESENCE.JMP) + 2 * boolNat window) ++ leBytes 1 inst ++ [0] ++
    padTo 64 key

/-- The press window is open: fewer than 30 s since the last accepted press (R99). -/
def windowOpen (s : State) : Bool :=
  match s.trust.windowFrom with
  | some t => !s.elapsedNs t 30000000000
  | none => false

/-- Privilege holds (R99). -/
def privilege (s : State) : Bool := s.flag TRUST_PRESENCE.JMP || windowOpen s

/-- A completed privileged action programs a PRIV record (R100). Its byte 1 shows the jumper and the window when the record is
made, which for an erase and a slot rewrite is after privilege was tested (DESIGN CHOICE, assumption 117). -/
def privRecord (action inst : Nat) (key : List Byte) (s : State) : State :=
  deviceRecord 5 (privPayload s action inst (windowOpen s) key) s

/-- An action requested without privilege: a warning of kind 7 that names it (R100). -/
def privRefused (block action : Nat) (s : State) : State := postKind 7 block 0xFF action s

/-- An NVMC operation refused (R101): REFUSED and a warning. -/
def nvmRefuse (s : State) : State := postRefused 24 NVMC_OP.OP.addr (s.setFlag NVMC_STATUS.REFUSED true)

/-- An operation of the NVM controller begins. -/
def nvmStart (op : NvmOp) (s : State) : State :=
  let s := s.setFlag NVMC_STATUS.BUSY true
  { s with trust := { s.trust with nvmOp := some (op, s.ticks) } }

/-- The 256-byte page buffer. -/
def nvmBuffer (s : State) : List Byte := ((List.range 64).map (fun i => leBytes 4 (s.fld (NVMC_BUF.DATA i)))).flatten

/-- NVMC_OP 1: append the buffer as a journal record (R103, R105, R588). -/
def execJournalAppend (s : State) : Host.Outcome State Fault Refusal :=
  let s := busOk 0 s
  if nvmBlocked s ∨ 228 < leAt (nvmBuffer s) 3 1 then .next (nvmRefuse s)
  else if s.trust.jrnlSpent then .next (journalSpent (s.setFlag NVMC_STATUS.REFUSED true))
  else
    match nextPage s with
    | none => .next (journalFull (s.setFlag NVMC_STATUS.REFUSED true))
    | some p => .next (nvmStart (.append p (nvmBuffer s)) s)

/-- The sectors of a slot that a session has erased cover it (R102). -/
def sessionErased (r : RewriteSession) : Bool := decide (6144 ≤ r.erased.length)

/-- NVMC_OP 2: program the buffer in the slot-rewrite session (R102). -/
def execSlotProgram (s : State) : Host.Outcome State Fault Refusal :=
  let s := busOk 0 s
  let a := s.fld NVMC_ADDR.ADDR
  match s.trust.session with
  | none => .next (nvmRefuse s)
  | some r =>
    let off := a - slotBase r.slot
    if nvmBlocked s ∨ s.mode ≠ 6 ∨ a % 256 ≠ 0 ∨ a < slotBase r.slot ∨ 0x1800000 ≤ off ∨
       sessionErased r = false ∨ pageErased s a = false ∨ (r.header = true ∧ 0x1000 ≤ off) then .next (nvmRefuse s)
    else .next (nvmStart (.program a (nvmBuffer s)) s)

/-- A journal block of 64 KiB holds anything in either copy (R105). -/
def blockUsed (s : State) (b : Nat) : Bool := (usedPages s).any (fun p => p / 256 == b)

/-- The four oldest journal blocks: those that follow the block of the newest record in the ring (R105). -/
def oldestBlocks (s : State) : List Nat :=
  let newest := (s.trust.jrnlPage + 8191) % 8192 / 256
  (((List.range 32).map (fun i => (newest + 1 + i) % 32)).filter (blockUsed s)).take 4

/-- The page of the newest SNAPSHOT record (R105). -/
def snapshotPage (s : State) : Option Nat := (newestWith (fun r => leAt r 2 1 == 8) s).map (·.2)

/-- A copy is short of pages: fewer than 1,024 are erased in it, `since` pages ago (R105). -/
def pagesShort (s : State) (since : Nat) : Bool :=
  decide (erasedPages s 0 + since < 1024) || decide (erasedPages s 1 + since < 1024)

/-- The SNAPSHOT that R105 asks for stands: it was programmed while a copy was short of pages, and outside the blocks to erase. -/
def snapshotMade (s : State) (bs : List Nat) : Bool :=
  (snapshotPage s).any (fun p => pagesShort s ((s.trust.jrnlPage + 8192 - p) % 8192) && !bs.contains (p / 256))

/-- The sectors that the Stage Manager may erase next, in order (R105): those of a run that has begun; or, when a copy is short of
pages and its SNAPSHOT stands, those of the four oldest blocks, ascending, copy 0 before copy 1. -/
def journalErases (s : State) : List Nat :=
  if s.trust.eraseRun.isEmpty = false then s.trust.eraseRun
  else
    let bs := oldestBlocks s
    if pagesShort s 0 = false ∨ snapshotMade s bs = false then []
    else ([0, 1].map (fun c => (bs.map (fun b => (List.range 16).map
      (fun i => journalBase c + 0x10000 * b + 4096 * i))).flatten)).flatten

/-- A journal sector is the one to erase next (R105). -/
def journalSectorOk (s : State) (a : Nat) : Bool := (journalErases s).head? == some a

/-- NVMC_OP 3: erase the sector at NVMC_ADDR, for the journal or in the session (R102, R105). -/
def execSectorErase (s : State) : Host.Outcome State Fault Refusal :=
  let s := busOk 0 s
  let a := s.fld NVMC_ADDR.ADDR
  let inSlot := match s.trust.session with
    | some r => s.mode == 6 && !r.programmed && decide (slotBase r.slot ≤ a) && decide (a < slotBase r.slot + 0x1800000)
    | none => false
  let inJournal := (s.mode == 6 || s.mode == 1) && journalSectorOk s a
  if nvmBlocked s ∨ a % 4096 ≠ 0 ∨ (inSlot || inJournal) = false then .next (nvmRefuse s)
  else .next (nvmStart (.erase a) s)

/-- NVMC_OP 4: read 256 bytes into the buffer (R101). -/
def execNvmRead (s : State) : Host.Outcome State Fault Refusal :=
  let s := busOk 0 s
  if nvmBlocked s then .next (nvmRefuse s) else .next (nvmStart (.read (s.fld NVMC_ADDR.ADDR)) s)

/-- The operation is over: BUSY clears. -/
def nvmIdle (s : State) : State :=
  let s := s.setFlag NVMC_STATUS.BUSY false
  { s with trust := { s.trust with nvmOp := none } }

/-- The last of the 16 pages of the header completes a slot rewrite: the session ends and its PRIV record is programmed (R100, R102). -/
def sessionProgrammed (a : Nat) (s : State) : State :=
  match s.trust.session with
  | none => s
  | some r =>
    if (List.range 16).any (fun i => pageErased s (slotBase r.slot + 256 * i)) then
      { s with trust := { s.trust with
        session := some { r with programmed := true, header := r.header || decide (a - slotBase r.slot < 0x1000) } } }
    else
      let s := s.setFlag NVMC_STATUS.SESSION false
      privRecord 0x12 r.slot [] { s with trust := { s.trust with session := none } }

/-- What an NVM operation does to the flash and the buffer when it ends (R101 to R105). -/
def nvmEffect (op : NvmOp) (s : State) : State :=
  match op with
  | .append p data => advanceJournal p (s.fld NVMC_JRNL_SEQ.DATA) (programBoth p data s)
  | .program a data => sessionProgrammed a (s.writeNvm a data)
  | .erase a =>
    let s := { s with nvm := clearRange s.nvm a (a + 4096)
                      trust := if journalSectorOk s a then { s.trust with eraseRun := (journalErases s).tail } else s.trust }
    match s.trust.session with
    | some r =>
      if slotBase r.slot ≤ a ∧ a < slotBase r.slot + 0x1800000 then
        { s with trust := { s.trust with
          session := some { r with erased := if r.erased.contains a then r.erased else a :: r.erased } } }
      else s
    | none => s
  | .read a =>
    (List.range 64).foldl (fun s i => s.setFld (NVMC_BUF.DATA i) (leNat (s.nvmBytes (a + 4 * i) 4))) s

def execNvmOpComplete (s : State) : Host.Outcome State Fault Refusal :=
  match s.trust.nvmOp with
  | none => .next s
  | some (op, _) => .next (programHeld (nvmEffect op (nvmIdle s)))

/-- A page whose program was cut holds bytes that nothing fixes (R548). -/
def spoil (a n : Nat) (s : State) : State :=
  let (bs, s) := s.takeBytes n
  s.writeNvm a bs

/-- A program in progress is abandoned in one copy and counted as failed (R101, R548). In copy 1 the record stands in
copy 0 already. -/
def abandonProgram (copy1 : Bool) (s : State) : State :=
  match s.trust.nvmOp with
  | some (.append p data, _) =>
    let s := (nvmIdle s).addFld NVMC_STATUS.FAILED 1
    if copy1 then
      spoil (journalBase 1 + 256 * p) 256
        (advanceJournal p (s.fld NVMC_JRNL_SEQ.DATA) (s.writeNvm (journalBase 0 + 256 * p) data))
    else spoil (journalBase 0 + 256 * p) 256 s
  | some (.program a _, _) => spoil a 256 ((nvmIdle s).addFld NVMC_STATUS.FAILED 1)
  | _ => s

/-- The operation in progress has run for 5 ms (R101, R548). -/
def nvmOverdue (s : State) : Bool := s.trust.nvmOp.any (fun o => s.elapsedNs o.2 5000000)

/-- A program that has not finished 5 ms after its start is abandoned (R101). -/
def execNvmProgramTimeout (copy1 : Bool) (s : State) : Host.Outcome State Fault Refusal :=
  .next (if nvmOverdue s then programHeld (abandonProgram copy1 s) else s)

/-- An erase in progress when Curtain begins ends at once; its sector holds bytes that nothing fixes (R548). -/
def cutErase (s : State) : State :=
  match s.trust.nvmOp with
  | some (.erase a, _) => programHeld (spoil a 4096 (nvmIdle s))
  | _ => s

/-- 5 ms after its start, a program cut by Curtain is ended by software reset of the flash and counts as failed. -/
def execCurtainNvmCutoff (copy1 : Bool) (s : State) : Host.Outcome State Fault Refusal :=
  .next (if nvmOverdue s then programHeld (abandonProgram copy1 s) else s)

/-- A slot rewrite starts: privileged, in Intermission, for the slot that is not running (R102). -/
def execSlotRewriteStart (slot : Fin 2) (s : State) : Host.Outcome State Fault Refusal :=
  if privilege s = false then .next (privRefused 24 0x12 s)
  else if s.mode ≠ 6 ∨ s.fld TRUST_STATUS.SLOT = slot.val ∨ s.trust.session.isSome ∨ s.power.nvmLock then
    .next (nvmRefuse s)
  else
    let s := s.setFlag NVMC_STATUS.SESSION true
    .next { s with trust := { s.trust with session := some { slot := slot.val, erased := [], programmed := false, header := false } } }

end Sys2Proof.Machine
end

