-- ==== Sys2Proof/Machine/Trust.lean ====
section
/-! DEFINITION. Physical presence and the seal (R96 to R99), the lifecycle and the maker keys (R87 to R93), rollback
(R88), and attestation (R92). -/

namespace Sys2Proof.Machine

/-! ### Presence and seal -/

/-- PRESENCE_N low for 50 ms: a press, once until the pin is released; it opens the window while the seal is intact
(R96, R99), and it ends a Curtain hold (R550). -/
def acceptPress (s : State) : State :=
  let s := s.setFlag TRUST_PRESENCE.PRESS true
  { s with trust := { s.trust with
      pressed := true
      windowFrom := if s.flag TRUST_PRESENCE.SEAL_OK then some s.ticks else s.trust.windowFrom } }

def execPresenceRelease (s : State) : Host.Outcome State Fault Refusal :=
  .next { s with trust := { s.trust with pressed := false } }

/-- 30 s after the last press the window closes; a row due from an earlier press changes nothing (R99). -/
def execPresenceWindowExpire (s : State) : Host.Outcome State Fault Refusal :=
  .next (if windowOpen s then s else { s with trust := { s.trust with windowFrom := none } })

/-- SVC_JMP held low for 50 ms counts as fitted (R96). -/
def execSvcJmpFitted (s : State) : Host.Outcome State Fault Refusal := .next (s.setFlag TRUST_PRESENCE.JMP true)

def execSvcJmpRemoved (s : State) : Host.Outcome State Fault Refusal := .next (s.setFlag TRUST_PRESENCE.JMP false)

/-- One step of the LFSR of R97. -/
def lfsrStep (r : BitVec 16) : BitVec 16 :=
  let b := r.getLsbD 15 ^^ r.getLsbD 13 ^^ r.getLsbD 12 ^^ r.getLsbD 10
  (r <<< 1) ||| (if b then 1 else 0)

/-- What a seal break does (R98). -/
def sealBreak (s : State) : State :=
  let otp := { s.trust.otp with sealSteps := min 16 (s.trust.otp.sealSteps + 1) }
  let s := { s with trust := { s.trust with otp := otp, windowFrom := none } }
  let s := ((s.setFlag TRUST_PRESENCE.SEAL_OK false).setFlag TRUST_STATUS.OPENED true).addFld TRUST_SEAL_COUNT.BREAKS 1
  let s := postEvent { cls := .recoverable, block := 2, cause := 0x300, inst := 0xFF, detail := 0 } s
  recordOrHold 4 (leBytes 4 (s.fld TRUST_SEAL_COUNT.BREAKS) ++ leBytes 1 otp.sealSteps ++ leBytes 1 s.mode ++ [0, 0]) s

/-- Every 1 ms: drive SEAL_A with the next LFSR bit and judge the sample of SEAL_B, each level by its own count, which only a match of
that level clears (R97). The loop counts as intact again when no mismatch is counted (R98; DEDUCED, assumption 108). -/
def sealSample (sealB : Bool) (s : State) : State :=
  let r := lfsrStep s.trust.lfsr
  let b := r.getLsbD 0
  let ok := sealB == b
  let high := if b then (if ok then 0 else min 3 (s.trust.missHigh + 1)) else s.trust.missHigh
  let low := if b then s.trust.missLow else (if ok then 0 else min 3 (s.trust.missLow + 1))
  let s := { s with trust := { s.trust with lfsr := r, driven := b, missHigh := high, missLow := low } }
  if high = 3 ∨ low = 3 then (if s.flag TRUST_PRESENCE.SEAL_OK then sealBreak s else s)
  else if high = 0 ∧ low = 0 then s.setFlag TRUST_PRESENCE.SEAL_OK true
  else s

def execSealSample (sealB : Bool) (s : State) : Host.Outcome State Fault Refusal := .next (sealSample sealB s)

/-! ### Keys and lifecycle -/

/-- The lifecycle code of R92: Blank 0, Provisioned 1, Field 2, Service 3, Retired 4. -/
def lifecycleCode (s : State) : Nat :=
  if s.trust.otp.lifecycle = 8 then 4 else if s.trust.service then 3 else s.trust.otp.lifecycle

/-- The active maker key: the highest-numbered digest that is programmed and not revoked (R89). -/
def activeMaker (o : Otp) : Option Nat :=
  (List.range o.makerDigests.length).reverse.find? (fun i => !o.makerRevoke.testBit i)

/-- The identity public key that follows from ID_SEED (R90). -/
def identityKey (s : State) : List Byte := mldsaPublicKey s.trust.otp.idSeed

/-- The device ID (R91); 0 in Blank, wherever it is shown (DESIGN CHOICE, assumption 158). -/
def deviceId (s : State) : List Byte := if s.trust.otp.lifecycle = 0 then List.replicate 16 0
  else (sha3_512 (identityKey s)).take 16

/-- The status fields that follow the OTP and the lifecycle (R87 to R95). -/
def showTrust (s : State) : State :=
  let s := s.setFld TRUST_STATUS.LIFECYCLE (lifecycleCode s)
  let s := s.setFld TRUST_STATUS.FLOOR s.trust.otp.rollbackSteps
  let s := s.setFlag TRUST_STATUS.OPENED (s.trust.otp.sealSteps != 0)
  let s := s.setFlag TRUST_STATUS.MAKER_ENROLLED (activeMaker s.trust.otp).isSome
  let s := s.setFld TRUST_STATUS.MAKER_IDX ((activeMaker s.trust.otp).getD 0)
  (List.range 4).foldl (fun s i => s.setFld (TRUST_DEVICE_ID.DATA i) (leAt (deviceId s) (4 * i) 4)) s

/-- A lifecycle change programs a LIFECYCLE record (R93, R588). -/
def lifecycleRecord (old cause : Nat) (s : State) : State :=
  deviceRecord 3 (leBytes 1 old ++ leBytes 1 (lifecycleCode s) ++ leBytes 1 cause ++ [0] ++ deviceId s) s

/-- A TRUST_PRIV_REQ request refused for want of privilege (R100). -/
def privDenied (action : Nat) (s : State) : State := privRefused 2 action (s.setFlag TRUST_PRIV_REQ.DENIED true)

/-- A TRUST_PRIV_REQ request refused for any other reason. -/
def requestDenied (s : State) : State := postRefused 2 TRUST_PRIV_REQ.ACTION.addr (s.setFlag TRUST_PRIV_REQ.DENIED true)

/-- Change the OTP. -/
def setOtp (o : Otp) (s : State) : State := { s with trust := { s.trust with otp := o } }

/-- The maker key that stands at TRUST_SIGN_ADDR: its offset in scratch SRAM, when all 2,592 bytes lie there. -/
def makerKeyAt (s : State) : Option Nat :=
  let a := s.fld TRUST_SIGN_ADDR.ADDR
  if 0x1000000 ≤ a ∧ a + 2592 ≤ 0x1800000 ∧ a % 16 = 0 then some (a - 0x1000000) else none

/-- ACTION 1 in Blank: enrol digest 0, draw ID_SEED, set LIFECYCLE bit 0 (R89, R90, R93). -/
def provisionBlank (key : List Byte) (s : State) : State :=
  let seed := Config.drbgSeed s.free
  let s := { s with free := s.free + 1 }
  let s := setOtp { s.trust.otp with makerDigests := [key], idSeed := seed, lifecycle := 1 } s
  privRecord 1 0xFF key (lifecycleRecord 0 0 (showTrust s))

/-- ACTION 1 later: program the next digest, then revoke the previous one (R89). -/
def replaceMaker (key : List Byte) (i : Nat) (s : State) : State :=
  let o := s.trust.otp
  let s := setOtp { o with makerDigests := o.makerDigests ++ [key], makerRevoke := o.makerRevoke ||| 2 ^ i } s
  privRecord 1 0xFF key (showTrust s)

/-- Later attestation reports show that the entropy health test has failed (R92). -/
def sawEntropyFail (s : State) : State := { s with trust := { s.trust with entropySeen := true } }

/-- TRUST_PRIV_REQ ACTION 1; `healthy` is the outcome of the entropy health test (R90). -/
def execProvision (healthy : Bool) (s : State) : Host.Outcome State Fault Refusal :=
  let s := busOk 0 s
  if privilege s = false then .next (privDenied 1 s)
  else
    match makerKeyAt s with
    | none => .next (requestDenied s)
    | some a =>
      let key := sha3_512 (s.scratchBytes a 2592)
      if s.trust.otp.lifecycle = 8 then .next (requestDenied s)
      else if s.trust.otp.lifecycle = 0 then
        if healthy then .next (provisionBlank key s)
        else .next (postEvent { cls := .fatal, block := 2, cause := 0x301, inst := 0xFF, detail := 0 }
          (sawEntropyFail ((s.setFlag TRUST_STATUS.ENTROPY_FAIL true).setFlag TRUST_PRIV_REQ.DENIED true)))
      else
        match activeMaker s.trust.otp with
        | some i => if 4 ≤ s.trust.otp.makerDigests.length then .next (requestDenied s)
                    else .next (replaceMaker key i s)
        | none => .next (requestDenied s)

/-- A lifecycle change by privileged request: allowed from `from_`, it applies `f`, its records follow (R93). -/
def lifecycleAction (action : Nat) (allowed : Bool) (f : State → State) (s : State) : State :=
  let s := busOk 0 s
  if privilege s = false then privDenied action s
  else if allowed = false then requestDenied s
  else
    let old := lifecycleCode s
    privRecord action 0xFF [] (lifecycleRecord old 0 (showTrust (f s)))

def execToField (s : State) : Host.Outcome State Fault Refusal :=
  .next (lifecycleAction 2 (lifecycleCode s == 1) (fun s => setOtp { s.trust.otp with lifecycle := 2 } s) s)

def setService (b : Bool) (s : State) : State := { s with trust := { s.trust with service := b } }

def execEnterService (s : State) : Host.Outcome State Fault Refusal :=
  .next (lifecycleAction 3 (lifecycleCode s == 1 || lifecycleCode s == 2) (setService true) s)

def execLeaveService (s : State) : Host.Outcome State Fault Refusal :=
  .next (lifecycleAction 4 (lifecycleCode s == 3) (setService false) s)

/-- ACTION 5: set every LIFECYCLE bit and every ID_SEED bit (R93). The identity key and the device ID follow the seed at once, so the
LIFECYCLE record already holds the new ID (DESIGN CHOICE, assumption 119). -/
def execRetire (s : State) : Host.Outcome State Fault Refusal :=
  .next (lifecycleAction 5 (lifecycleCode s == 1 || lifecycleCode s == 2)
    (fun s => setOtp { s.trust.otp with lifecycle := 8, idSeed := List.replicate 32 0xFF } s) s)

/-! ### Confirmation and rollback -/

/-- TRUST_CTRL.CONFIRM: a CONFIRM record, once (R79). The image counts as confirmed although a full journal refuses the record
(DESIGN CHOICE, assumption 120). -/
def execConfirm (s : State) : Host.Outcome State Fault Refusal :=
  let s := busOk 0 s
  match s.trust.image with
  | none => .next s
  | some im =>
    if s.trust.confirmed then .next s
    else
      .next (deviceRecord 2 (leBytes 1 (s.fld TRUST_STATUS.SLOT) ++ [0, 0, 0] ++ leBytes 4 im.fwVersion ++
        leBytes 4 im.cfgVersion) { s with trust := { s.trust with confirmed := true } })

/-- TRUST_CTRL.ADVANCE: the floor rises to the running slot's ROLLBACK, only after CONFIRM (R88). -/
def execAdvance (s : State) : Host.Outcome State Fault Refusal :=
  let s := busOk 0 s
  if s.trust.confirmed then
    let o := s.trust.otp
    .next (showTrust (setOtp { o with rollbackSteps := max o.rollbackSteps (s.fld TRUST_STATUS.RUN_ROLLBACK) } s))
  else .next (postRefused 2 TRUST_CTRL.ADVANCE.addr s)

/-! ### Signing -/

/-- The scratch SRAM offset of a signing buffer of `n` bytes at TRUST_SIGN_ADDR, when it lies there whole. -/
def signBuffer (s : State) (n : Nat) : Option Nat :=
  let a := s.fld TRUST_SIGN_ADDR.ADDR
  if 0x1000000 ≤ a ∧ a + n ≤ 0x1800000 ∧ a % 16 = 0 then some (a - 0x1000000) else none

/-- SHA3-512 of the newest journal record (R92); zeros without one (DESIGN CHOICE, assumption 159). -/
def newestRecordDigest (s : State) : List Byte :=
  match (journal s).getLast? with
  | some r => sha3_512 r
  | none => List.replicate 64 0

/-- Bytes 0x000 to 0xBFF of an attestation report (R92). -/
def attestFields (s : State) (nonce fwData : List Byte) : List Byte :=
  let o := s.trust.otp
  let zero := List.replicate 64 (0 : Byte)
  let flags := boolNat (o.sealSteps != 0) + 2 * boolNat (s.flag TRUST_PRESENCE.JMP) +
    4 * boolNat (s.flag TRUST_STATUS.AVAIL_Q) + 8 * boolNat s.trust.entropySeen
  [0x45, 0x43, 0x44, 0x41, 0x54, 0x54, 0x53, 0x54] ++ leBytes 2 1 ++ leBytes 1 (lifecycleCode s) ++ leBytes 1 flags ++
  leBytes 1 o.rollbackSteps ++ leBytes 1 (s.fld TRUST_STATUS.RUN_ROLLBACK) ++ leBytes 1 (s.fld TRUST_STATUS.SLOT) ++
  leBytes 1 ((activeMaker o).getD 0) ++ padTo 16 (deviceId s) ++ padTo 32 nonce ++ leBytes 8 s.time.sec.toNat ++
  leBytes 4 s.time.ns ++ leBytes 2 (s.fld TIME_ARRAY.INDEX) ++ leBytes 2 0 ++ leBytes 4 (s.fld TRUST_SEAL_COUNT.BREAKS) ++
  List.replicate 12 0 ++ padTo 64 ((s.trust.image.map (·.fwDigest)).getD zero) ++
  padTo 64 ((s.trust.image.map (·.cfgDigest)).getD zero) ++ padTo 64 o.eodKeyDigest ++
  padTo 64 (((activeMaker o).bind (fun i => o.makerDigests[i]?)).getD zero) ++ newestRecordDigest s ++
  padTo 64 fwData ++ padTo 2592 (identityKey s)

/-- A signing request that is refused: REFUSED (R92, R298). -/
def signRefused (s : State) : State := s.setFlag TRUST_SIGN_CTRL.REFUSED true

/-- A signing request begins: BUSY, with the content to sign. -/
def signStart (domain addr : Nat) (latch : List Byte) (s : State) : State :=
  let s := s.setFlag TRUST_SIGN_CTRL.BUSY true
  { s with trust := { s.trust with sign := some { domain := domain, addr := addr, latch := latch } } }

/-- The security engine refuses every signing request: Retired (R94), or the entropy health test failed (R90). -/
def signBlocked (s : State) : Bool :=
  lifecycleCode s == 4 || s.flag TRUST_STATUS.ENTROPY_FAIL || s.flag TRUST_SIGN_CTRL.BUSY

/-- TRUST_SIGN_CTRL with DOMAIN 0: build an attestation report (R92). -/
def execAttest (s : State) : Host.Outcome State Fault Refusal :=
  let s := busOk 0 s
  if signBlocked s then .next (signRefused s)
  else
    match signBuffer s 7699 with
    | none => .next (signRefused s)
    | some a => .next (signStart 0 a (attestFields s (s.scratchBytes (a + 0x20) 32) (s.scratchBytes (a + 0x1A0) 64)) s)

/-- The signed bytes of a request: the fields and the signature over their digest (R92, R300). -/
def signedBytes (s : State) (prefix_ : List Byte) (fields : List Byte) : List Byte :=
  fields ++ padTo 4627 (mldsaSign (Config.signRandom s.free) s.trust.otp.idSeed (sha3_512 (prefix_ ++ fields)))

end Sys2Proof.Machine
end

