-- ==== Sys2Proof/Machine/HashCore.lean ====
section
/-! DEFINITION. Digests and chains of the hash engines: stripes and frame digests (R283 to R285), chain segments (R286),
the frame chain (R287, R288), the final chain (R289) and the digest ring (R291, R292). -/

namespace Sys2Proof.Machine

def setHash (h : HashState) (s : State) : State := { s with hash := h }

def ff64 : List Byte := List.replicate 64 0xFF
def zero64 : List Byte := List.replicate 64 0

/-- Bits of a pixel of data type `dt` (R108). -/
def dtWidth (dt : Nat) : Nat :=
  if dt = 0x2B then 10 else if dt = 0x2C then 12 else if dt = 0x2D then 14 else if dt = 0x2E then 16
  else if dt = 0x2F then 20 else 0

/-- Bytes of one line of a stream (R221). -/
def StreamDesc.lineBytes (d : StreamDesc) : Nat := d.width * dtWidth d.dt / 8

/-- Stripes of a frame (R283). -/
def stripeCount (h : Nat) : Nat := min 64 h

/-- The digest of stripe `k` of frame `num` over the lines of the frame (R283, R284). -/
def stripeDigest (num h k : Nat) (rows : List (List Byte)) : List Byte :=
  let s := stripeCount h
  sha3_512 (ascii "ECD9600/STRIPE/1" ++ leBytes 4 k ++ leBytes 8 num ++
    ((rows.drop (k * h / s)).take ((k + 1) * h / s - k * h / s)).flatten)

/-- The digest of the kept embedded packets (R284). -/
def embDigest (num : Nat) (emb : List (List Byte)) : List Byte :=
  sha3_512 (ascii "ECD9600/EMB/1" ++ leBytes 8 num ++ (emb.map (fun p => leBytes 4 p.length ++ p)).flatten)

/-- SRC of a record (R235). -/
def Frame.src (f : Frame) : Nat := f.port * 64 + f.desc * 16 + f.vc

/-- The digest header of a frame (R285). -/
def digestHeader (s : State) (f : Frame) : List Byte :=
  padTo 64 ([0x45, 0x44, 0x47, 0x48] ++ leBytes 2 1 ++ leBytes 1 (stripeCount f.d.height) ++ leBytes 1 f.emb.length ++
    leBytes 8 f.num ++ leBytes 6 (f.fs / 1000000000) ++ leBytes 1 f.src ++ leBytes 1 f.d.dt ++
    leBytes 4 (f.fs % 1000000000) ++ leBytes 2 f.d.width ++ leBytes 2 f.d.height ++ leBytes 1 f.d.cfa ++
    leBytes 1 (boolNat f.rehashed + 2 * boolNat (f.failMask != 0)) ++ leBytes 2 0 ++ leBytes 4 f.epoch ++
    leBytes 8 f.failMask ++ padTo 16 (deviceId s))

/-- The stripe digests as they stand: a failed stripe is 64 bytes of 0xFF (R296). -/
def Frame.stripeList (f : Frame) : List (List Byte) :=
  f.stripes.zipIdx.map (fun e => if f.failMask.testBit e.2 then ff64 else e.1)

/-- The frame digest (R284). -/
def frameDigest (s : State) (f : Frame) : List Byte :=
  sha3_512 (ascii "ECD9600/FRAME/1" ++ digestHeader s f ++ f.stripeList.flatten ++ embDigest f.num f.emb)

/-! ### Segments and chains -/

/-- The chain heads of segment `seg` whose first frame is `first` (R286, R289). -/
def segmentHeads (seg first : Nat) (s : State) : State :=
  let id := padTo 16 (deviceId s) ++ leBytes 4 s.hash.bootSeq ++ leBytes 4 seg
  let g := sha3_512 (ascii "ECD9600/CHAIN/1" ++ id ++ leBytes 8 first)
  let fg := sha3_512 (ascii "ECD9600/FIN/1" ++ id)
  let s := (s.setFld HASH_SEGMENT.SEGMENT seg).setFlag HASH_STATUS.SEG_ACTIVE true
  setHash { s.hash with active := true, segment := seg, segFirst := first, link := g, link2 := g,
                        fin := fg, fin2 := fg, lastFrame := first - 1, finCount := 0 } s

/-- A chain segment begins (R286). -/
def beginSegment (first : Nat) (s : State) : State := segmentHeads (s.hash.segment + 1) first s

/-- The segment ends: its domain loses power (R288). -/
def endSegment (s : State) : State :=
  setHash { s.hash with active := false } (s.setFlag HASH_STATUS.SEG_ACTIVE false)

/-- An event of HASH with its flag (R551). -/
def hashFlag (f : Fld) (cls : EventClass) (s : State) : State := postFlag f f.lo cls 10 0xFF 0 s

/-- The two copies of a head differ: both chains end, with a fatal event (R290). -/
def chainFault (s : State) : State := hashFlag HASH_EVENT.CHAIN_FAULT .fatal (endSegment s)

/-- One bit of the copy of a head flips, by which the copies come to differ (R290). -/
def upsetHead (h : List Byte) : List Byte := modAt h 0 (· ^^^ 1)

/-- The final chain absorbs a record as written and the coded digest (R289), unless the copies of its head differ (R290). -/
def absorbFinal (record coded : List Byte) (s : State) : State :=
  if s.domainOn 20 = false ∨ s.hash.active = false then s
  else if s.hash.fin ≠ s.hash.fin2 then chainFault s
  else
    let c := if coded.isEmpty then zero64 else coded
    setHash { s.hash with fin := sha3_512 (s.hash.fin ++ record ++ c), fin2 := sha3_512 (s.hash.fin2 ++ record ++ c),
                          finCount := s.hash.finCount + 1 } s

/-- The sealed record: DISP and FLAGS bits [27:4] cleared (R287). -/
def sealRecord (r : List Byte) : List Byte :=
  spliceAt (spliceAt r 0x0F [0]) 0x28 (leBytes 4 (leAt r 0x28 4 % 16 + leAt r 0x28 4 / 2 ^ 28 * 2 ^ 28))

/-! ### The digest ring -/

/-- Entries of the digest ring as a power of two, 10 to 20 (`HASH_DIG_SIZE.LOG2`). -/
def digLog2 (s : State) : Nat := clamp 10 20 (s.fld HASH_DIG_SIZE.LOG2)

/-- The DRAM offset of digest entry `i` (R291). -/
def digAddr (s : State) (i : Nat) : Nat :=
  dramOff (s.fld HASH_DIG_BASE_LO.ADDR * 4096 + s.fld HASH_DIG_BASE_HI.ADDR * 2 ^ 32) + 256 * (i % 2 ^ digLog2 s)

/-- The ring stores entries: enabled and validly placed (R292). -/
def digStores (s : State) : Bool := s.flag HASH_DIG_SIZE.EN && s.hash.ringOk

/-- Write the next digest entry; the oldest unread one gives way (R291, R292). WR counts each link, stored or not. -/
def digPut (entry : List Byte) (s : State) : State :=
  let i := s.fld HASH_DIG_WR.WR
  let rd := s.fld HASH_DIG_RD.RD
  let s :=
    if digStores s then
      let s := if 2 ^ digLog2 s ≤ (i + 2 ^ 32 - rd) % 2 ^ 32 then
          let t := (s.setFld HASH_DIG_RD.RD (rd + 1)).addFld HASH_DIG_LOST.LOST 1
          postFlag HASH_EVENT.DIG_LOST 2 .warning 10 0xFF 0 (setHash { t.hash with digLost := satAdd (2 ^ 32 - 1) t.hash.digLost 1 } t)
        else s
      s.writeDram (digAddr s i) entry
    else s
  s.setFld HASH_DIG_WR.WR (i + 1)

/-- Entry `i` is still in the ring (R292). -/
def digPresent (s : State) (i : Nat) : Bool :=
  digStores s && decide ((s.fld HASH_DIG_WR.WR + 2 ^ 32 - 1 - i) % 2 ^ 32 < 2 ^ digLog2 s)

end Sys2Proof.Machine
end

