-- ==== Sys2Proof/Machine/Packing.lean ====
section
/-! DEFINITION. CSI-2 packing of pixel lines (R587), lines cut or short (R120, R121), and the lines of an open frame as
they pass the split (R114, R117). -/

namespace Sys2Proof.Machine

/-- Pixels and bytes of a packing group (R587). -/
def groupPixels (w : Nat) : Nat := if w = 10 ∨ w = 14 then 4 else if w = 12 ∨ w = 20 then 2 else 1
def groupBytes (w : Nat) : Nat := groupPixels w * w / 8

/-- Bytes of a line of `n` pixels. -/
def packedBytes (w n : Nat) : Nat := n * w / 8

/-- Bytes a line needs before pixel `i` has arrived in full (R121). -/
def pixelNeeds (w i : Nat) : Nat :=
  let n := groupPixels w
  i / n * groupBytes w +
    (if w = 16 then 2 else if w = 20 then 5 else n + ((i % n + 1) * (w - 8) + 7) / 8)

/-- Leading pixels of a line of `total` that the first `b` bytes hold in full (R120, R121). -/
def fullPixels (w total b : Nat) : Nat := ((List.range total).filter (fun i => decide (pixelNeeds w i ≤ b))).length

/-- Pixel `j` of a packing group (R587). RAW16 is two bytes, low byte first (PRESUMED, assumption 55). -/
def groupPixel (w : Nat) (g : List Byte) (j : Nat) : Nat :=
  let n := groupPixels w
  if w = 16 then leNat g
  else if w = 20 then ((leAt g (2 * j) 1 * 256 + leAt g (2 * j + 1) 1) * 16) + leAt g 4 1 / 16 ^ j % 16
  else leAt g j 1 * 2 ^ (w - 8) + leNat (g.drop n) / 2 ^ (j * (w - 8)) % 2 ^ (w - 8)

/-- The pixels of a packed line. -/
def unpackLine (w n : Nat) (bs : List Byte) : List Nat :=
  (List.range n).map (fun i =>
    groupPixel w ((bs.drop (i / groupPixels w * groupBytes w)).take (groupBytes w)) (i % groupPixels w))

/-- One packing group. -/
def packGroup (w : Nat) (px : List Nat) : List Byte :=
  if w = 16 then leBytes 2 (px.getD 0 0)
  else if w = 20 then
    (px.map (fun p => leBytes 1 (p / 4096) ++ leBytes 1 (p / 16))).flatten ++
    leBytes 1 (px.getD 0 0 % 16 + px.getD 1 0 % 16 * 16)
  else
    px.map (fun p => BitVec.ofNat 8 (p / 2 ^ (w - 8))) ++
    leBytes (groupBytes w - groupPixels w) ((px.zipIdx.map (fun e => e.1 % 2 ^ (w - 8) * 2 ^ (e.2 * (w - 8)))).sum)

/-- A line of pixels in the packing of its data type. -/
def packLine (w : Nat) (px : List Nat) : List Byte :=
  ((List.range (ceilDiv px.length (groupPixels w))).map (fun g =>
    packGroup w ((px.drop (g * groupPixels w)).take (groupPixels w)))).flatten

/-- A line of `n` pixels of which the first `bs` bytes arrived; the rest is filled with `v` (R117, R120, R121). -/
def fillLine (w n v : Nat) (bs : List Byte) : Line :=
  let k := fullPixels w n bs.length
  { bytes := packLine w (unpackLine w k bs ++ List.replicate (n - k) (v % 2 ^ w)), kept := k }

/-! ### The lines of an open frame -/

/-- Pixels of a member's line (R114, R120). -/
def OpenFrame.lineWidth (f : OpenFrame) : Nat := if f.interleave then f.d.width else f.d.width / f.members.length

/-- Lines that each member delivers (R114). -/
def OpenFrame.memberLines (f : OpenFrame) : Nat := if f.interleave then f.d.height / f.members.length else f.d.height

/-- Whole lines of the picture that are complete, from the top. -/
def OpenFrame.rowsDone (f : OpenFrame) : Nat :=
  let n := f.members.length
  let ls := f.members.zipIdx.map (fun m => if f.interleave then m.1.lines.length * n + m.2 else m.1.lines.length)
  min f.d.height (ls.min?.getD 0)

/-- Line `r` of the picture as bytes, and its spans of filled pixels. -/
def OpenFrame.row (f : OpenFrame) (r : Nat) : List Byte × List (Nat × Nat) :=
  let n := f.members.length
  let lw := f.lineWidth
  if f.interleave then
    match (f.members[r % n]?).bind (fun m => m.lines[r / n]?) with
    | some l => (l.bytes, [(l.kept, lw)])
    | none => ([], [])
  else
    let ps := f.members.zipIdx.filterMap (fun m => (m.1.lines[r]?).map (fun l => (l, m.2)))
    ((ps.map (fun p => p.1.bytes)).flatten, ps.map (fun p => (p.2 * lw + p.1.kept, (p.2 + 1) * lw)))

/-- The bytes of the whole picture, line by line. -/
def OpenFrame.rows (f : OpenFrame) : List (List Byte) := (List.range f.d.height).map (fun r => (f.row r).1)

end Sys2Proof.Machine
end

