-- ==== Sys2Proof/Machine/CueStack.lean ====
section
/-! DEFINITION. The cue sheet in use: stack operations (R60, R61), the register image and rebuilt tables of a commit
(R59, R63, R68), acceptance of a commit (R71, R73) and selection entries (R74). -/

namespace Sys2Proof.Machine

/-- Slot `n` holds a valid cue. -/
def slotValid (s : State) (n : Nat) : Bool :=
  if n < 32 then (s.fld CUE_VALID_LO.DATA).testBit n else (s.fld CUE_VALID_HI.DATA).testBit (n - 32)

def setSlotValid (n : Nat) (b : Bool) (s : State) : State :=
  if n < 32 then s.setBit CUE_VALID_LO.DATA n b else s.setBit CUE_VALID_HI.DATA (n - 32) b

/-- The slot is invalid or holds a mode cue, so that no user level takes it (R60). -/
def slotRefused (s : State) (n : Nat) : Bool :=
  !slotValid s n || ((keyGet s.cue.slots n).map (fun c => c.kind == 1)).getD true

def setPending (p : CueStack) (s : State) : State := { s with cue := { s.cue with pending := p } }

/-- A stack operation on the pending stack, or none when it is refused (R60). `level` is 0 to 3. -/
def stackOp (s : State) (op level slot : Nat) : Option CueStack :=
  let p := s.cue.pending
  if op = 0 then
    if 4 ≤ p.users.length ∨ slotRefused s slot then none else some { p with users := p.users ++ [slot] }
  else if op = 1 then
    if p.users.isEmpty then none else some { p with users := p.users.dropLast }
  else if op = 2 then
    if p.users.length ≤ level ∨ slotRefused s slot then none
    else some { p with users := p.users.set level slot }
  else if op = 3 then some { p with users := [] }
  else if op = 4 then some { p with overlay := [] }
  else none

/-- Carry out a stack operation; a refused one posts a warning with the register that asked (R60). -/
def doStackOp (op level slot inst off : Nat) (s : State) : State :=
  match stackOp s op level slot with
  | some p => setPending p s
  | none => postKind 4 1 inst off s

/-- A Company write to a shadowed field goes into the firmware overlay; the 257th register is refused (R61). -/
def overlayWrite (off : Nat) (v : Word) (s : State) : State :=
  let ov := s.cue.pending.overlay
  if (keyGet ov off).isNone ∧ 256 ≤ ov.length then postKind 4 1 0xFF off s
  else setPending { s.cue.pending with overlay := keySet ov off v } s

/-! ### The register image -/

/-- The entries of the cue in slot `n`. -/
def slotEntries (s : State) (n : Nat) : List CueEntry := ((keyGet s.cue.slots n).map (fun c => c.entries)).getD []

/-- All register entries and table entries of a stack with their levels, in the order of R59. -/
def stackLevels (s : State) (st : CueStack) : List (EntryLevel × CueEntry) :=
  s.cue.base.entries.map (fun e => (.base, e)) ++
  (st.modeCue.map (fun n => (slotEntries s n).map (fun e => (EntryLevel.modeCue n, e)))).getD [] ++
  (st.users.mapIdx (fun l n => (slotEntries s n).map (fun e => (EntryLevel.user (l + 1) n, e)))).flatten ++
  st.overlay.map (fun e => (.overlay, CueEntry.masked e.1 (shadowMask e.1) e.2))

/-- The entries of a stack, in the order of R59. -/
def stackEntries (s : State) (st : CueStack) : List CueEntry := (stackLevels s st).map (fun e => e.2)

/-- The starting value of a register, beneath the base configuration (R59). -/
def startValue (s : State) (off : Nat) : Word := (keyGet s.cue.startVals off).getD (regReset off)

/-- One register entry applied over the layers below it (R55). -/
def applyEntry (s : State) (m : List (Nat × Word)) : CueEntry → List (Nat × Word)
  | .write off v => keySet m off v
  | .masked off mask v =>
    let below := (keyGet m off).getD (startValue s off)
    keySet m off ((below &&& ~~~mask) ||| (v &&& mask))
  | _ => m

/-- The entries that name each table, in order and with their levels: a level replaced by another cue, or a new mode cue, is another
set of entries, whatever their values (R63). -/
def tableEntries (es : List (EntryLevel × CueEntry)) : List (TableKey × TableSource) :=
  es.foldl (fun m e => match e.2 with
    | .tableRef b n _ _ _ => keySet m (b, n) ((keyGet m (b, n)).getD [] ++ [e])
    | .tableInline b n _ _ => keySet m (b, n) ((keyGet m (b, n)).getD [] ++ [e])
    | _ => m) []

/-- The line-timed bits that entries name: the firmware overlay names none (R508). -/
def lineEntries (es : List CueEntry) : List (Nat × Word) :=
  (es.foldl (fun m e => match e with
    | .write off _ => keySet m off (lineMask off)
    | .masked off mask _ => keySet m off ((keyGet m off).getD 0 ||| (mask &&& lineMask off))
    | _ => m) []).filter (fun e => e.2 != 0)

/-- The image of a commit of stack `st` (R59, R63, R68). Only tables whose set of entries changed are rebuilt. -/
def buildImage (s : State) (st : CueStack) : CommitImage :=
  let es := stackEntries s st
  let src := tableEntries (stackLevels s st)
  let changed := src.filter (fun e => decide ((keyGet s.cue.tableSrc e.1).getD [] ≠ e.2))
  let dropped := s.cue.tableSrc.filter (fun e => (keyGet src e.1).isNone)
  { enters := none, passed := false, regs := es.foldl (applyEntry s) []
    tables := changed.map (fun e => (e.1, buildTable s.cue.tableStore (e.2.map (fun x => x.2)))) ++ dropped.map (fun e => (e.1, []))
    tableSrc := src, lines := lineEntries es, stack := st }

/-- The value that image `img` gives the configuration fields of register `off` (R59). -/
def imageValue (s : State) (img : CommitImage) (off : Nat) : Word := (keyGet img.regs off).getD (startValue s off)

/-- Every register that holds a configuration field: address and configuration mask. -/
def configRegs : List (Nat × Word) :=
  ((regGroups.map expandGroup).flatten.map (fun e => (e.1, e.2.maskOf FieldDef.isConfig))).filter (fun e => e.2 != 0)

/-- Registers that hold RWC fields, with the mask of those. -/
def rwcRegs : List (Nat × Word) :=
  ((regGroups.map expandGroup).flatten.map (fun e => (e.1, e.2.maskOf (fun f => f.acc == .rwc)))).filter
    (fun e => e.2 != 0)

/-- At the first commit after Dawn, the RWC fields' values become their starting values (R59, R67, R73). -/
def captureStart (s : State) : State :=
  let vals := rwcRegs.foldl (fun m e =>
    let v := (startValue s e.1 &&& ~~~e.2) ||| (s.word e.1 &&& e.2)
    if v = regReset e.1 then m else keySet m e.1 v) s.cue.startVals
  { s with cue := { s.cue with startVals := vals, locked := true } }

/-- A refused mode request or entry: requested mode, the check that failed (R45, R552). -/
def refuseMode (req check : Nat) (s : State) : State := postKind 6 1 0xFF (req + 256 * s.mode + 65536 * check) s

/-- The mode that a commit in progress enters, which the commit that supersedes it enters too (R71). -/
def commitEnters : CommitState → Option Nat
  | .idle => none
  | .preparing img => img.enters
  | .armed img _ _ => img.enters

/-- The first commit after Dawn is accepted: the Rehearsal mode cue joins the stack, RWC fields lock (R73). -/
def firstCommit (s : State) : State := setPending { s.cue.pending with modeCue := s.cue.base.modeCue.head? } (captureStart s)

/-- CUE_REF_TIMEOUT acts as the nearer end outside 1 to 1,000, with a warning at the commit. -/
def warnTimeout (s : State) : State :=
  if s.fld CUE_REF_TIMEOUT.MS = 0 ∨ 1000 < s.fld CUE_REF_TIMEOUT.MS then postActsAs 1 0xFF CUE_REF_TIMEOUT.MS.addr s else s

/-- Accept a commit of the pending stack: preparation starts, superseding an earlier one (R68, R71, R73). While the DRAM has
failed, the first commit after Dawn is refused (R394). -/
def acceptCommit (s : State) : State :=
  if s.cue.locked = false ∧ s.flag DRAM_STATUS.DRAM_FAIL then refuseMode 2 7 s
  else
    let enters := if s.cue.locked then commitEnters s.cue.commit else some 2
    let s := if s.cue.locked then s else firstCommit s
    let s := if s.cue.commit = .idle then s else s.addFld CUE_COUNT.MERGED 1
    let s := warnTimeout s
    { s with cue := { s.cue with commit := .preparing { buildImage s s.cue.pending with enters := enters } } }

/-! ### Selection entries (R74) -/

/-- How a source of a selection entry changed: a rising or falling edge of its level, or an event of its own. -/
inductive SelEdge where
  | rising | falling | event
  deriving DecidableEq, Repr

/-- The edge setting of an entry fires on a change (the EDGE field of `CUE_SEL0` to `CUE_SEL15`). -/
def edgeMatches (setting : Nat) : SelEdge → Bool
  | .rising => setting == 0 || setting == 2
  | .falling => setting == 1 || setting == 2
  | .event => setting == 3

/-- The operation of selection entry `n`, with a commit when AUTO is set (R74). -/
def selAct (n : Nat) (s : State) : State :=
  let s := doStackOp (s.fld (CUE_SEL.OP n)) (s.fld (CUE_SEL.LEVEL n)) (s.fld (CUE_SEL.CUE n)) n
    (CUE_SEL.OP n).addr s
  if s.flag (CUE_SEL.AUTO n) then acceptCommit s else s

/-- Entry `n` is enabled and its source is `src` number `idx`, changing by `e`. -/
def selMatches (s : State) (src idx : Nat) (e : SelEdge) (n : Nat) : Bool :=
  s.flag (CUE_SEL.EN n) && s.fld (CUE_SEL.SRC n) == src && s.fld (CUE_SEL.SRC_IDX n) == idx &&
  edgeMatches (s.fld (CUE_SEL.EDGE n)) e

end Sys2Proof.Machine
end

