-- ==== Sys2Proof/Machine/LaneCore.lean ====
section
/-! DEFINITION. The serial lanes as their ports drive them (R396, R397, R412, R418): start and stop at a rate, table values in
use, lock and retirement. -/

namespace Sys2Proof.Machine

/-- An event of lane `l` with its flag. -/
def laneFlag (f : Nat → Fld) (cls : EventClass) (l : Nat) (s : State) : State := postFlag (f l) (f l).lo cls 13 l 0 s

/-- What lane `l` sends beside data. -/
def laneSends (bs : List LaneBlock) (l : Nat) (s : State) : State := modLane l (fun x => { x with sent := bs }) s

/-- The lane's pins carry its protocol's own data: no loopback and no pattern takes its place (R408, R410). -/
def laneOwn (s : State) (l : Nat) : Bool :=
  s.fld (LANE_STATUS.LOOP l) == 0 && (s.fld (LANE_LOOP.GEN l) == 0 || decide (4 < s.fld (LANE_LOOP.GEN l)))

def laneHasLock (s : State) (l : Nat) : Bool := s.flag (LANE_STATUS.LOCK l)
def laneRetired (s : State) (l : Nat) : Bool := s.flag (LANE_STATUS.RETIRED l)

/-- The lanes that a link of lanes `ls` forms on, of those that lock (R419): the largest width of 8, 4, 2 or 1 from the
first lane up or, reversed, from the last down; none where no width can be formed. -/
def reform (ok : Nat → Bool) (ls : List Nat) : Option (List Nat) :=
  ([8, 4, 2, 1].map (fun w => [ls.take w, (ls.reverse).take w])).flatten.find? (fun c =>
    c.all ok && ([8, 4, 2, 1].contains c.length))

/-- The defaults of a lane without an accepted record (R412). -/
def laneDefault (l rate : Nat) : LaneRec :=
  { lane := l, rate := rate, pre := 0, main := 63, post := 0, ctle := 12, dfe := List.replicate 5 0, floor := 0,
    preset := 7, alts := [], pol := 0 }

def laneRecord (s : State) (l rate : Nat) : Option LaneRec := s.serial.table.find? (fun r => r.lane == l && r.rate == rate)

/-- The record that applies to lane `l` at its rate. -/
def laneTable (s : State) (l : Nat) : LaneRec :=
  (laneRecord s l (s.fld (LANE_STATUS.RATE l))).getD (laneDefault l (s.fld (LANE_STATUS.RATE l)))

/-- The table value of receiver setting `k`: CTLE, then DFE1 to DFE5. -/
def LaneRec.setting (r : LaneRec) (k : Nat) : Int := if k = 0 then (r.ctle : Int) else r.dfe.getD (k - 1) 0

/-- Show the settings in use in `LANE_EQ` and `LANE_DFE`. -/
def laneShow (l : Nat) (s : State) : State :=
  let r := laneTable s l
  let v (k : Nat) : Int := r.setting k + (laneOf s l).moved.getD k 0
  let s := ((s.setFld (LANE_EQ.TX_PRE l) r.pre).setFld (LANE_EQ.TX_MAIN l) r.main).setFld (LANE_EQ.TX_POST l) r.post
  (s.setFld (LANE_EQ.CTLE l) (v 0).toNat).setFld (LANE_DFE.TAPS l)
    ((List.range 5).foldl (fun a k => a * 64 + ofSigned 6 (v (k + 1))) 0)

/-- Receiver settings return to the table values (R416). -/
def laneReturn (l : Nat) (s : State) : State :=
  laneShow l (modLane l (fun x => { x with moved := List.replicate 6 0, trial := none, low := false }) s)

/-- Lane `l` starts at a rate: table values, no lock, no longer retired (R412, R418). -/
def laneStart (l rate : Nat) (s : State) : State :=
  let s := modLane l (fun x => { laneInit with eq := x.eq, preset := x.preset, huntAt := some s.ticks }) s
  let s := (s.setFld (LANE_STATUS.RATE l) rate).setFlag (LANE_STATUS.TABLE l) (laneRecord s l rate).isSome
  let s := (s.setFlag (LANE_STATUS.LOCK l) false).setFlag (LANE_STATUS.RETIRED l) false
  laneShow l ((s.setFlag (LANE_STATUS.TX_SLEEP l) false).setFlag (LANE_STATUS.RX_SLEEP l) false)

def lanesStart (ls : List Nat) (rate : Nat) (s : State) : State := ls.foldl (fun s l => laneStart l rate s) s
/-- Lock is gained (R398). -/
def laneLocked (l : Nat) (s : State) : State :=
  ((modLane l (fun x => { x with signalAt := none, huntAt := none }) s).setFlag (LANE_STATUS.LOCK l) true).setFlag (LANE_EVENT.LOCKED l) true

/-- Lock is lost: counted, and the receiver back at its table values (R399, R416). -/
def laneLost (l : Nat) (s : State) : State :=
  let s := ((s.setFlag (LANE_STATUS.LOCK l) false).setFlag (LANE_EVENT.LOCK_LOST l) true).addFld (LANE_CNT.LOSSES l) 1
  laneReturn l (modLane l (fun x => { x with huntAt := some s.ticks }) s)

/-- A lane is retired: its transmitter idles (R418, R419). -/
def laneRetire (l : Nat) (s : State) : State :=
  ((s.setFlag (LANE_STATUS.RETIRED l) true).setFlag (LANE_EVENT.RETIRED l) true).setFlag (LANE_STATUS.LOCK l) false

end Sys2Proof.Machine
end

