-- ==== Sys2Proof/Machine/KlinkCore.lean ====
section
/-! DEFINITION. Sending over the Kurnarik link: port choice, sequencing, replay room and credits (R462, R468 to R470), and
the counts of the pair. -/

namespace Sys2Proof.Machine

def setKlink (k : KlinkState) (s : State) : State := { s with klink := k }

def modKPort (p : Nat) (f : KPort → KPort) (s : State) : State :=
  setKlink { s.klink with ports := modAt s.klink.ports p f } s

def kport (s : State) (p : Nat) : KPort := (s.klink.ports[p]?).getD kportInit

/-- STATE of port `p`: 0 OFF, 1 DOWN, 2 TRAIN, 3 UP (R472). -/
def kState (s : State) (p : Nat) : Nat := if p = 0 then s.fld KLINK_STATUS.STATE0 else s.fld KLINK_STATUS.STATE1

def kUp (s : State) (p : Nat) : Bool := kState s p == 3

/-- TOPO in force: 3 acts as 0 (R449). -/
def topo (s : State) : Nat := if s.fld KLINK_PAIR.TOPO = 3 then 0 else s.fld KLINK_PAIR.TOPO

/-- Count `n` of kind `k` on port `p`; kinds 8 and 9 are kept once (`KLINK_CNT_SEL`). -/
def kCount (p k n : Nat) (s : State) : State :=
  let key := if k = 8 ∨ k = 9 then k else p * 16 + k
  setKlink { s.klink with counts := keySet s.klink.counts key (satAdd (2 ^ 32 - 1) ((keyGet s.klink.counts key).getD 0) n) } s

/-- An event of KLINK by its bit number. -/
def kEvent (n : Nat) (cls : EventClass) (inst : Nat) (s : State) : State := postFlag KLINK_EVENT.EVENT n cls 16 inst 0 s

/-! ### Flits (R468) -/

/-- The bytes of a heartbeat (R468). -/
def heartbeatBytes (hb : Heartbeat) : List Byte :=
  [0x45, 0x48, 0x42, 0x54] ++ leBytes 2 hb.pairId ++ leBytes 1 hb.role ++
  leBytes 1 (boolNat hb.armed + 2 * boolNat hb.leaving + 4 * boolNat hb.formed) ++ leBytes 4 hb.term ++ leBytes 4 hb.seq ++
  padTo 16 hb.id ++ leBytes 6 hb.sec ++ leBytes 4 hb.ns ++ leBytes 1 hb.mode ++ [0]

/-- A device time in ns as seconds (6 bytes) and nanoseconds (4). -/
def timeBytes (t : Nat) : List Byte := leBytes 6 (t / 1000000000) ++ leBytes 4 (t % 1000000000)

def FlitBody.type : FlitBody → Nat
  | .null => 0
  | .hello .. => 1
  | .heartbeat _ => 2
  | .time .. => 3
  | .trig .. => 4
  | .cuesel _ => 5
  | .disp _ => 6
  | .frameHdr .. => 7
  | .raw _ => 8
  | .frameEnd .. => 9
  | .mirrorAck _ => 10
  | .unknown t => t

def FlitBody.payload : FlitBody → List Byte
  | .null | .unknown _ => []
  | .hello hb topo => heartbeatBytes hb ++ leBytes 1 topo
  | .heartbeat hb => heartbeatBytes hb
  | .time own dep arr => timeBytes own ++ timeBytes dep ++ timeBytes arr
  | .trig out t frames => leBytes 1 out ++ [0] ++ timeBytes t ++ leBytes 1 frames.length ++ [0, 0, 0] ++
      (frames.map (fun e => leBytes 1 e.1 ++ [0] ++ leBytes 2 (e.2 / 1000000000) ++ leBytes 4 (e.2 % 1000000000))).flatten
  | .cuesel n => leBytes 1 n
  | .disp es => leBytes 1 es.length ++ [0, 0, 0] ++ (es.map (fun (num, fs, src, d) =>
      leBytes 8 num ++ leBytes 4 (fs % 1000000000) ++ leBytes 2 (fs / 1000000000) ++ leBytes 1 src ++ leBytes 1 d)).flatten
  | .frameHdr num fs src dt width height cfa emb bytes => leBytes 8 num ++ leBytes 6 (fs / 1000000000) ++ leBytes 1 src ++
      leBytes 1 dt ++ leBytes 4 (fs % 1000000000) ++ leBytes 2 width ++ leBytes 2 height ++ leBytes 1 cfa ++ leBytes 1 emb ++
      [0, 0] ++ leBytes 8 bytes
  | .raw bs => bs
  | .frameEnd num poison => leBytes 8 num ++ leBytes 1 (boolNat poison)
  | .mirrorAck es => leBytes 1 es.length ++ [0, 0, 0] ++
      (es.map (fun (num, d) => leBytes 8 num ++ leBytes 1 d ++ [0])).flatten

/-- A TIME flit carries the time at which it departs (R458). -/
def FlitBody.depart (now : Nat) : FlitBody → FlitBody
  | .time _ dep arr => .time now dep arr
  | b => b

/-- The 256 bytes of a flit with SEQ `seq`, as the port's header stands (R468). -/
def flitBytes (k : KPort) (seq : Nat) (b : FlitBody) : List Byte :=
  let f := leBytes 1 b.type ++ leBytes 1 (k.rxmask + 16 * boolNat k.nakDue) ++ leBytes 2 k.credits ++ leBytes 4 seq ++
    leBytes 4 k.rxAck ++ leBytes 2 b.payload.length ++ [0, 0] ++ padTo 236 b.payload
  f ++ leBytes 4 (crc32 f).toNat

/-- The active lanes of a port, in ascending order. -/
def kActive (s : State) (p : Nat) : List Nat :=
  let m := if p = 0 then s.fld KLINK_STATUS.LANES0 else s.fld KLINK_STATUS.LANES1
  (klLanes p).filter (fun l => m.testBit (l % 4))

/-- The data blocks of the last flit on the pins, each with its lane and sync header: block b goes on the (b mod L)-th of the active
lanes (R467); a lane in a loopback or with a pattern carries none of it (R408, R410). -/
def kStripe (s : State) (p : Nat) : List (Nat × BitVec 2 × List Byte) :=
  let ls := kActive s p
  if ls.isEmpty then []
  else
    ((List.range 32).map (fun b => (ls.getD (b % ls.length) 0, dataSync, ((kport s p).wire.drop (8 * b)).take 8))).filter
      (fun b => laneOwn s b.1)

/-- ALIGN goes out on lanes `ls` of the port at once (R467). -/
def kAlign (p : Nat) (ls : List Nat) (s : State) : State :=
  ls.foldl (fun s l => laneSends [.align] l s) (modKPort p (fun k => { k with alignAt := s.ticks }) s)

/-- One flit with SEQ `seq` leaves: it is counted, and pays what the header owes the partner (R468, R469). -/
def kDrive (p seq : Nat) (b : FlitBody) (s : State) : State :=
  let s := if (kport s p).nakDue then kCount p 4 1 s else s
  kCount p 0 1 (modKPort p (fun k => { k with
    wire := flitBytes k seq (b.depart s.nowNs), nakDue := false, credits := 0, sentAt := s.ticks }) s)

/-- An active lane of the port sleeps: flits wait for the wake burst (R404, R405). -/
def kAsleep (s : State) (p : Nat) : Bool :=
  (klLanes p).any (fun l => s.flag (LANE_STATUS.TX_SLEEP l) && !s.flag (LANE_STATUS.RETIRED l))

/-- The flits of the replay buffer leave again, the first one with what the header owes the partner, after an ALIGN where `align` asks
for one (R469, R471); while the lanes sleep this waits for their wake (R405). -/
def kResend (p : Nat) (align : Bool) (s : State) : State :=
  if kAsleep s p then modKPort p (fun k => { k with resend := some (align || k.resend.getD false) }) s
  else
    let s := modKPort p (fun k => { k with resend := none }) s
    let s := if align then kAlign p (kActive s p) s else s
    let k := kport s p
    let base := k.nextSeq + 2 ^ 32 - k.replay.length
    match k.replay with
    | [] => s
    | b :: bs =>
      let s := kDrive p (base % 2 ^ 32) b s
      match bs.getLast? with
      | none => s
      | some b => kCount p 0 bs.length (modKPort p (fun k => { k with wire := flitBytes k ((base + bs.length) % 2 ^ 32) b }) s)

/-- The waiting flits that are not sequenced leave. -/
def kPumpFree (p : Nat) (s : State) : State :=
  ((kport s p).queue.filter (fun b => !b.sequenced)).foldl (fun s b => kDrive p (kport s p).nextSeq b s)
    (modKPort p (fun k => { k with queue := k.queue.filter FlitBody.sequenced }) s)

/-- Send waiting flits in order while the replay buffer has room and credits last for the sequenced ones; when these must wait, only
the unsequenced leave (R469, R470). -/
def kPumpN : Nat → Nat → State → State
  | 0, _, s => s
  | n + 1, p, s =>
    match (kport s p).queue with
    | [] => s
    | b :: q =>
      if b.sequenced = false then kPumpN n p (kDrive p (kport s p).nextSeq b (modKPort p (fun k => { k with queue := q }) s))
      else if 512 ≤ (kport s p).replay.length ∨ 1024 ≤ ((s.ledger.credits[7 + p]?).map (·.outstanding)).getD 0 then kPumpFree p s
      else
        let s := kDrive p (kport s p).nextSeq b s
        kPumpN n p (creditIssue (7 + p) 1 (modKPort p (fun k =>
          { k with queue := q, replay := k.replay ++ [b], nextSeq := (k.nextSeq + 1) % 2 ^ 32
                   ackAt := if k.replay.isEmpty then s.ticks else k.ackAt }) s))

/-- What waits leaves unless the lanes sleep: what is to be sent again, then the queue. -/
def kPump (p : Nat) (s : State) : State :=
  if kAsleep s p then s
  else
    let s := match (kport s p).resend with
      | some align => kResend p align s
      | none => s
    kPumpN (kport s p).queue.length p s

/-- Send sequenced flits on port `p`. -/
def kSend (p : Nat) (bs : List FlitBody) (s : State) : State :=
  kPump p (modKPort p (fun k => { k with queue := k.queue ++ bs }) s)

/-- Send an unsequenced flit on port `p`: at once, or when its lanes have woken. -/
def kSendFree (p : Nat) (b : FlitBody) (s : State) : State :=
  if kAsleep s p then modKPort p (fun k => { k with queue := k.queue ++ [b] }) s else kDrive p (kport s p).nextSeq b s

/-- TRIG, CUESEL and DISP flits go on port 0 while it is UP, else on port 1; with the link down nothing is queued
(R461, R462). -/
def linkSend (b : FlitBody) (s : State) : State :=
  if kUp s 0 then kSend 0 [b] s else if kUp s 1 then kSend 1 [b] s else s

/-- The flits at the front of the order of events that can leave do (R462). -/
def pairFlush (s : State) : State :=
  let out := s.klink.order.filterMap (fun x => match x with
    | .ready b => some b
    | .placing .. => none)
  let n := (s.klink.order.takeWhile (fun x => match x with
    | .ready _ => true
    | .placing .. => false)).length
  (out.take n).foldl (fun s b => linkSend b s) (setKlink { s.klink with order := s.klink.order.drop n } s)

/-- A flit joins that order behind the fires before it; with the link down nothing is queued. -/
def pairSend (b : FlitBody) (s : State) : State :=
  if kUp s 0 ∨ kUp s 1 then pairFlush (setKlink { s.klink with order := s.klink.order ++ [.ready b] } s) else s

/-- The range of a fire is placed: its flit takes the place that the fire holds. -/
def pairPlaced (out time : Nat) (b : FlitBody) (s : State) : State :=
  let fill : List PairSend → List PairSend := fun l =>
    match l.findIdx? (fun x => x == .placing out time) with
    | some i => l.set i (.ready b)
    | none => l
  pairFlush (setKlink { s.klink with order := fill s.klink.order } s)

end Sys2Proof.Machine
end

