-- ==== Sys2Proof/Machine/Ledger.lean ====
section
/-! DEFINITION. The frame ledger and the ring: records (R235), dispositions (R236, R237), the spill ring (R239, R240),
slot allocation (R223 to R225), commitment (R227 to R234) and the conservation counters (R243). -/

namespace Sys2Proof.Machine

def setLedger (l : LedgerState) (s : State) : State := { s with ledger := l }

/-- The frame numbered `num`, while the ledger holds it. -/
def frameOf (s : State) (num : Nat) : Option Frame := s.ledger.frames.find? (fun f => f.num == num)

def modFrame (num : Nat) (f : Frame → Frame) (s : State) : State :=
  setLedger { s.ledger with frames := s.ledger.frames.map (fun x => if x.num = num then f x else x) } s

/-- OPEN or PENDING (R236). -/
def Frame.inFlight (f : Frame) : Bool := f.disp == 0 || f.disp == 7

/-- The next frame number (R235): the first after Dawn is `LEDGER_FIRST`, 0 acting as 1. -/
def nextNum (s : State) : Nat :=
  if s.ledger.started then s.ledger.next
  else max 1 (s.fld64 LEDGER_FIRST_LO.DATA LEDGER_FIRST_HI.DATA)

/-- The ledger's live fields of `LEDGER_STATUS` and `LEDGER_NEXT`. -/
def ledgerShow (s : State) : State :=
  let rg (k : Nat) : Nat := boolNat (s.ledger.ranges.any (fun r => r.out == k)) * 2 ^ k
  let ok (p : Nat) : Nat := boolNat ((s.ledger.parts[p]?).any (fun q => q.ok)) * 2 ^ p
  let s := s.setFld LEDGER_STATUS.IN_FLIGHT (s.ledger.frames.filter (fun f => f.inFlight)).length
  let s := s.setFld LEDGER_STATUS.RANGE (rg 0 + rg 1 + rg 2 + rg 3)
  s.setFld LEDGER_STATUS.PART_OK (ok 0 + ok 1 + ok 2 + ok 3)

/-- An event of the ledger with its flag; INST names the pin, output or path (R551). -/
def ledgerFlag (f : Fld) (cls : EventClass) (inst detail : Nat) (s : State) : State := postFlag f f.lo cls 6 inst detail s

/-- The 64-byte record of a frame (R235, R238). -/
def recordOf (f : Frame) : List Byte :=
  leBytes 8 f.num ++ leBytes 6 (f.fs / 1000000000) ++ leBytes 1 f.src ++ leBytes 1 (f.disp + 16 * f.reason) ++
  leBytes 4 (f.fs % 1000000000) ++ leBytes 4 f.epoch ++ (f.pos.map (leBytes 4)).flatten ++
  leBytes 4 (f.flags % 2 ^ 20 + (f.partner.getD 15) * 2 ^ 20 + f.flags / 2 ^ 24 * 2 ^ 24) ++
  (f.counts.map (fun c => leBytes 2 (min c 0xFFFF))).flatten ++ leBytes 4 f.digestRef

/-- Set bits of FLAGS of a frame. -/
def orFlags (num mask : Nat) (s : State) : State := modFrame num (fun f => { f with flags := f.flags ||| mask }) s

/-- The requested destination, FLAGS[25:24]. -/
def Frame.dest (f : Frame) : Nat := f.flags / 2 ^ 24 % 4

/-! ### Partitions -/

def Part.base (p : Part) : Nat := leAt p.cfg 0 8
def Part.slotBytes (p : Part) : Nat := leAt p.cfg 8 4
def Part.slots (p : Part) : Nat := leAt p.cfg 0x0C 4
def Part.ctrl (p : Part) : Nat := leAt p.cfg 0x10 1
def Part.en (p : Part) : Bool := p.ctrl.testBit 7

def partOf (s : State) (p : Nat) : Part := (s.ledger.parts[p]?).getD partInit

/-- The DRAM offset of slot `k` of port `p`. -/
def slotAddr (s : State) (p k : Nat) : Nat := dramOff ((partOf s p).base) + k * (partOf s p).slotBytes

/-- The embedded packets of a frame as its slot at `a` holds them, after the lines, and whether a block of them is poisoned (R221,
R241). -/
def slotEmb (s : State) (f : Frame) (a : Nat) : List (List Byte) × Bool :=
  let at_ (i : Nat) : Nat := a + f.d.height * f.d.lineBytes + 16384 * i
  (f.emb.zipIdx.map (fun e => s.dramBytes (at_ e.2) e.1.length), f.emb.zipIdx.any (fun e => s.poisoned (at_ e.2) e.1.length))

/-- The checks of a read of the whole slot at `a` (R375). -/
def slotSeen (f : Frame) (a : Nat) (s : State) : State :=
  f.emb.zipIdx.foldl (fun s e => dramSeen (a + f.d.height * f.d.lineBytes + 16384 * e.2) e.1.length s)
    (dramSeen a (f.d.height * f.d.lineBytes) s)

def modPart (p : Nat) (f : Part → Part) (s : State) : State :=
  setLedger { s.ledger with parts := modAt s.ledger.parts p f } s

/-! ### Final dispositions -/

/-- The spill ring as a power of two, 10 to 20 (`LEDGER_SPILL_SIZE.LOG2`). -/
def spillLog2 (s : State) : Nat := clamp 10 20 (s.fld LEDGER_SPILL_SIZE.LOG2)

def spillBase (s : State) : Nat := s.fld LEDGER_SPILL_BASE_LO.ADDR * 4096 + s.fld LEDGER_SPILL_BASE_HI.ADDR * 2 ^ 32

/-- Store a record in the spill ring; the oldest unread one gives way (R239). A ring that R240 disables stores nothing,
with a warning for each record; a ring not enabled stores nothing, without events. -/
def spillStore (record : List Byte) (s : State) : State :=
  if s.flag LEDGER_SPILL_SIZE.EN = false then s
  else if s.ledger.spillOk = false then ledgerFlag LEDGER_EVENT.BAD_CFG .warning 0xFF 0 s
  else
    let wr := s.fld LEDGER_SPILL_WR.WR
    let rd := s.fld LEDGER_SPILL_RD.RD
    let s := if 2 ^ spillLog2 s ≤ (wr + 2 ^ 32 - rd) % 2 ^ 32 then
        let t := (s.setFld LEDGER_SPILL_RD.RD (rd + 1)).addFld LEDGER_SPILL_LOST.LOST 1
        ledgerFlag LEDGER_EVENT.SPILL_LOST .warning 0xFF 0
          (setLedger { t.ledger with spillLost := satAdd (2 ^ 32 - 1) t.ledger.spillLost 1 } t)
      else s
    (s.writeDram (dramOff (spillBase s) + 64 * (wr % 2 ^ spillLog2 s)) record).setFld LEDGER_SPILL_WR.WR (wr + 1)

/-- The record has nothing left to wait for but the partner: final, closed, and linked where it is hashed (R239, R287), or cut off
from both (R288). -/
def Frame.settled (f : Frame) : Bool := !f.inFlight && (f.cut || f.closed && (!f.hashed || f.linked)) && !f.spilled

/-- Whether the record still waits for the partner's disposition (R239, R466). -/
def waitsPartner (s : State) (f : Frame) : Bool :=
  s.flag KLINK_STATUS.FORMED && f.partner.isNone && f.origin.isNone

/-- Write the record once to the spill ring; the final chain absorbs it as written, unless it became final while the hash engines
were off (R239, R289). -/
def spillFrame (f : Frame) (s : State) : State :=
  let r := recordOf f
  let s := spillStore r s
  modFrame f.num (fun x => { x with spilled := true }) (if f.offFinal then s else absorbFinal r f.coded s)

/-- A frame that the ledger no longer holds is remembered by number, index and time: a later fire may carry a time at which it was the
trigger frame (R229). -/
def rememberGone (f : Frame) (s : State) : State :=
  setLedger { s.ledger with gone := s.ledger.gone ++ [(4 * f.port + f.desc, f.num, f.seq, f.fs)] } s

/-- A record written out is of use only to a pre walk: while an older frame of its stream lies in the ring (R230). -/
def Frame.spent (l : List Frame) (f : Frame) : Bool :=
  f.spilled && !l.any (fun o => o.port == f.port && o.desc == f.desc && decide (o.seq < f.seq) && o.slot.isSome)

/-- Drop the records that are written out and of no further use. -/
def ledgerForget (s : State) : State :=
  let l := s.ledger.frames
  let s := (l.filter (fun f => f.spent l)).foldl (fun s f => rememberGone f s) s
  setLedger { s.ledger with frames := l.filter (fun f => !f.spent l) } s

/-- The record of frame `num` can be written out: it waits for nothing, not even the partner (R239). -/
def spillReady (s : State) (num : Nat) : Bool := (frameOf s num).all (fun f => f.settled && !waitsPartner s f)

/-- Write out the records that wait for nothing, in order of finality: one that waits holds up those final after it (R239). -/
def spillSettled (s : State) : State :=
  let ready := s.ledger.toSpill.takeWhile (spillReady s)
  let s := setLedger { s.ledger with toSpill := s.ledger.toSpill.drop ready.length } s
  ledgerForget (ready.foldl (fun s n => match frameOf s n with
    | some f => spillFrame f s
    | none => s) s)

/-- The slot of a frame becomes free (R223, path 4 of R244). -/
def freeSlot (f : Frame) (s : State) : State :=
  match f.slot with
  | none => s
  | some k =>
    creditReturn 4 1 (modFrame f.num (fun x => { x with slot := none })
      (modPart f.port (fun q => { q with freed := q.freed ++ [k] }) s))

/-- A frame reaches a final disposition (R236, R243): counted, its slot free, its disposition sent to the partner in the
split topology (R463) or acknowledged to the sender of a mirror frame (R466). -/
def finalise (num disp reason : Nat) (s : State) : State :=
  match frameOf s num with
  | none => s
  | some f =>
    if f.inFlight = false then s
    else
      let s := modFrame num (fun x => { x with
        disp := disp, reason := reason, await := [], finalAt := some s.ticks, offFinal := !s.domainOn 20 }) s
      let s := setLedger { s.ledger with toSpill := s.ledger.toSpill ++ [num] } s
      let s := setLedger { s.ledger with finals := modAt s.ledger.finals f.port (fun l => modAt l (disp - 1) (· + 1)) } s
      let s := setHash { s.hash with codedDue := keyDel s.hash.codedDue num } (freeSlot f s)
      let s := if topo s = 1 then linkSend (.disp [(num, f.fs, f.src, disp)]) s else s
      let s := match f.origin with
        | some n => linkSend (.mirrorAck [(n, disp)]) s
        | none => s
      ledgerShow (spillSettled s)

/-- Every destination of a committed frame has settled: the disposition that R236 gives, once its coded digest is
written (R292). -/
def settleWrites (num : Nat) (s : State) : State :=
  match frameOf s num with
  | none => s
  | some f =>
    if f.disp = 7 ∧ f.await.isEmpty ∧ (keyGet s.hash.codedDue num).isNone then
      let a := f.written.contains 0
      let b := f.written.contains 1
      if a ∧ b then finalise num 3 0 s
      else if a then finalise num 1 0 s
      else if b then finalise num 2 0 s
      else if f.written.contains 2 then finalise num 6 0 s
      else finalise num 5 4 s
    else s

/-- Destination `d` of frame `num` settles, written or not. -/
def settleDest (num d : Nat) (ok : Bool) (s : State) : State :=
  settleWrites num (modFrame num (fun f => { f with
    await := f.await.filter (fun x => x != d)
    written := if ok ∧ f.await.contains d ∧ f.written.contains d = false then f.written ++ [d] else f.written }) s)

/-- The ring reclaims an uncommitted frame (R223): OVERWRITTEN_IN_RING, and the pipeline reacts (R146, R147). -/
def overwrite (f : Frame) (s : State) : State := pipeReclaim f.port f.num (finalise f.num 4 0 s)

/-! ### Commitment -/

/-- The destinations of a DEST value (R217): 0 the partner, else magazines; MIRROR_ALL adds the partner (R464). -/
def destList (s : State) (dest : Nat) : List Nat :=
  (if dest % 2 = 1 then [0] else []) ++ (if dest / 2 % 2 = 1 then [1] else []) ++
  (if dest = 0 ∨ (topo s = 2 ∧ s.flag KLINK_CTRL.MIRROR_ALL ∧ s.flag KLINK_STATUS.PRIN) then [2] else [])

/-- The settings under which a frame handed to the magazine engine was coded, while it is not written (R322). -/
def keptJob (s : State) (num : Nat) : Option CodeJob := s.rawc.kept.find? (fun j => j.num == num)

/-- A frame handed on is coded again for magazine `o` alone: for a failover (R322), or for a destination that a range adds (R231). -/
def recodeTo (num o : Nat) (s : State) : State :=
  match frameOf s num, keptJob s num with
  | some f, some j =>
    { s with rawc := { s.rawc with
      jobs := s.rawc.jobs ++ [{ j with target := some o, marks := [], noIndex := false
                                       budget := ceilDiv (gridCells f.d.width f.d.height j.cw j.ch) 64 }] } }
  | _, _ => s

/-- The destinations that a commit adds to those of frame `f`. A frame handed on and not yet written takes a further magazine; one
that is written takes none (R228, R231). -/
def newDests (s : State) (f : Frame) (dest : Nat) : List Nat :=
  (destList s dest).filter (fun d => !f.await.contains d && !f.written.contains d && (!f.handed || d == 2 || (keptJob s f.num).isSome))

/-- Commit frame `num` to `dest` with a FLAGS bit and, for a range, its output (R228, R230, R231). An uncommitted frame
is committed only where `new` holds and otherwise shows that a range includes it, and that it is a trigger frame (R228, R238); a final
frame stays as it is (R234). -/
def commitRecord (num dest flag : Nat) (out : Option Nat) (new : Bool) (s : State) : State :=
  modFrame num (fun f =>
    let range := match out with | some k => 2 ^ (16 + k) | none => 0
    if f.inFlight = false then f
    else if f.disp = 0 ∧ new = false then { f with flags := f.flags ||| (flag &&& 0x200) ||| range }
    else
      let mask := flag + range + dest * 2 ^ 24
      let from0 := if f.disp = 0 then [] else f.await
      let ds := newDests s f dest
      { f with disp := 7, flags := f.flags ||| mask, await := from0 ++ ds, since := if f.disp = 0 ∨ ds.contains 2 then s.ticks else f.since }) s

/-- Commit a frame, which is coded again for a magazine that it gains after it was handed on (R231). -/
def commitFrame (num dest flag : Nat) (out : Option Nat) (new : Bool) (s : State) : State :=
  let again := match frameOf s num with
    | some f => if f.disp = 7 ∧ f.handed then (newDests s f dest).filter (fun d => d != 2) else []
    | none => []
  again.foldl (fun s o => recodeTo num o s) (commitRecord num dest flag out new s)

/-- The partition of a port allows commitment beyond the pending and expected frames (R230). -/
def pendingOn (s : State) (p : Nat) : Nat := (s.ledger.frames.filter (fun f => f.port == p && f.disp == 7)).length

/-- Post-trigger frames that a range still expects. -/
def rangeLeft (s : State) (r : Range) : Nat :=
  max (if r.waitT then r.post else 0) (r.last - (s.ledger.opened.getD r.stream 0))

/-- Post-trigger frames expected on port `p`: on each stream, the latest end of its ranges (R230). -/
def expectedPost (s : State) (p : Nat) : Nat :=
  ((List.range 4).map (fun d =>
    ((s.ledger.ranges.filter (fun r => r.stream == 4 * p + d)).map (rangeLeft s)).foldl max 0)).sum

/-- Drop the ranges whose last post frame has opened (R232). -/
def endRanges (s : State) : State :=
  ledgerShow (setLedger { s.ledger with ranges := s.ledger.ranges.filter (fun r => r.waitT || rangeLeft s r != 0) } s)

/-! ### Frame Start -/

/-- A free slot of port `p`: those never used first, then the one that became free earliest (R223). -/
def takeSlot (p : Nat) (s : State) : Option (Nat × State) :=
  let q := partOf s p
  if q.fresh < q.slots then some (q.fresh, creditIssue 4 1 (modPart p (fun q => { q with fresh := q.fresh + 1 }) s))
  else match q.freed with
    | k :: t => some (k, creditIssue 4 1 (modPart p (fun q => { q with freed := t }) s))
    | [] => none

/-- The oldest uncommitted frame that holds a slot, of one port or of any. -/
def oldestOpen (s : State) (p : Option Nat) : Option Frame :=
  s.ledger.frames.find? (fun f => f.disp == 0 && f.slot.isSome && p.all (fun q => f.port == q))

/-- A slot of port `p` for frame `num`: a free one, or that of the port's oldest uncommitted frame (R223). -/
def allocateSlot (num p : Nat) (s : State) : State :=
  let s := match takeSlot p s, oldestOpen s (some p) with
    | none, some o => overwrite o s
    | _, _ => s
  match takeSlot p s with
  | some (k, s) =>
    let a := slotAddr s p k
    modFrame num (fun f => { f with slot := some k }) (pipeReclaimBy p (fun w => w.addr == a) s)
  | none => finalise num 5 1 (ledgerFlag LEDGER_EVENT.RING_FULL .warning 0xFF 0 s)

/-- The ring takes frame `num` in, or it is DROPPED (R221, R223, R225). With no free slot on its port it takes the slot of a frame that
it overwrites, or none, so nothing more is reclaimed for the limit of the frames in flight. -/
def allocate (num p : Nat) (s : State) : State :=
  let flight := (s.ledger.frames.filter (fun f => f.inFlight && f.num != num)).length
  if (partOf s p).ok = false then finalise num 5 3 s
  else if flight < 65536 ∨ (takeSlot p s).isNone then allocateSlot num p s
  else
    match oldestOpen s none with
    | some o => allocateSlot num p (overwrite o s)
    | none => finalise num 5 2 (ledgerFlag LEDGER_EVENT.LEDGER_FULL .warning 0xFF 0 s)

/-- A destination of R217 that the topology allows: 0 only in the mirror. -/
def destOk (s : State) (dest : Nat) : Bool := dest % 4 != 0 || topo s == 2

/-- In Performance, a frame of a PERF stream is committed at its Frame Start (R228). -/
def perfCommit (f : Frame) (s : State) : State :=
  let c := (partOf s f.port).ctrl
  if s.mode = 3 ∧ (partOf s f.port).ok ∧ c.testBit 6 ∧ c.testBit f.desc ∧ destOk s (bits c 5 4) then
    commitFrame f.num (bits c 5 4) 0x800 none true s
  else s

/-- POST of FLAGS, which a range sets on the frames that it commits: not in Performance (R228, R238). -/
def postBit (wings : Bool) : Nat := if wings then 0x400 else 0

/-- The ranges of its stream take the new frame: the trigger frame of a range still without one, or a post frame (R229,
R230). -/
def rangeFrame (f : Frame) (s : State) : State :=
  let st := 4 * f.port + f.desc
  let wings := s.mode == 4
  let s := s.ledger.ranges.foldl (fun s r =>
    if r.stream ≠ st then s
    else
      let s := if r.waitT then commitFrame f.num r.dest 0x200 (some r.out) wings s else s
      if f.seq ≤ r.last then commitFrame f.num r.dest (postBit wings) (some r.out) wings s else s) s
  endRanges (setLedger { s.ledger with ranges := s.ledger.ranges.map (fun r =>
    if r.stream = st ∧ r.waitT then { r with waitT := false, last := max r.last (f.seq + r.post) } else r) } s)

/-- Motion positions and valid bits as latched at Frame Start detection (R235, R238). -/
def motionLatch (s : State) : List Nat × Nat :=
  ((List.range 4).map (fun c => s.fld (MOTION_POS.POS c)),
   ((List.range 4).map (fun c => boolNat (s.flag (MOTION_STATUS.VALID c)) * 2 ^ (28 + c))).sum)

/-- The trigger log entries whose T is the next frame of stream `st` get its number (R229, R246), unless overwritten. -/
def logLateT (st num : Nat) (s : State) : State :=
  let wr := s.fld LEDGER_TLOG_WR.WR
  let s := s.ledger.tlogWait.foldl (fun s e =>
    if e.1 = st ∧ (wr + 2 ^ 32 - e.2) % 2 ^ 32 ≤ 16 then
      (s.setFld (LEDGER_TLOG.DATA (8 * (e.2 % 16) + 4)) num).setFld (LEDGER_TLOG.DATA (8 * (e.2 % 16) + 5)) (num / 2 ^ 32)
    else s) s
  setLedger { s.ledger with tlogWait := s.ledger.tlogWait.filter (fun e => e.1 != st) } s

/-- A frame opens in the ledger: the segment that the switch-on of domain 20 began starts with its number (R286); one that a chain
fault ended is followed by one that begins with the next frame linked (R290). Its number,
its record, its slot, and the commitments that wait for it (R235, R223, R228, R230). Answers its number. -/
def openRecord (port desc fs : Nat) (d : StreamDesc) (origin : Option Nat) (s : State) : Nat × State :=
  let num := nextNum s
  let st := 4 * port + desc
  let seq := s.ledger.opened.getD st 0 + 1
  let hashed := s.domainOn 20
  let s :=
    if hashed = false ∨ s.hash.active = false then s
    else if s.ledger.started = false ∧ s.hash.segFirst ≠ num then segmentHeads s.hash.segment num s
    else s
  let f : Frame :=
    { num := num, port := port, desc := desc, vc := d.vc, seq := seq, fs := fs, disp := 0, reason := 0,
      epoch := s.fld CUE_EPOCH.EPOCH, pos := (motionLatch s).1,
      flags := (motionLatch s).2 + (if hashed then 0 else 0x2000), counts := List.replicate 8 0, digestRef := 0,
      slot := none, d := d, emb := [], rows := 0, closed := false, spilled := false, hashed := hashed, linked := false,
      handed := false, await := [], since := s.ticks, written := [], partner := none, finalAt := none, stripes := [], rehash := [], redone := [],
      codedSel := s.fld HASH_CTRL.CODED,
      rehashed := false, failMask := 0, coded := [], origin := origin, cut := false, offFinal := false }
  let s := setLedger { s.ledger with
    started := true, next := num + 1, frames := s.ledger.frames ++ [f]
    opened := modAt s.ledger.opened st (· + 1), seen := modAt s.ledger.seen port (· + 1) } s
  let s := s.setFld64 LEDGER_NEXT_LO.DATA LEDGER_NEXT_HI.DATA (num + 1)
  let s := allocate num port s
  (num, ledgerShow (rangeFrame f (perfCommit f (logLateT st num s))))

/-! ### Range placement (R229 to R233) -/

def outTerms (c : List Byte) : Nat := leAt c 0 2
def outCtrl (c : List Byte) : Nat := leAt c 2 1
def outStreams (c : List Byte) : Nat := leAt c 4 2
def outGuard (c : List Byte) : Nat := leAt c 6 2
def outPre (c : List Byte) : Nat := leAt c 8 4
def outPost (c : List Byte) : Nat := leAt c 12 4

/-- Stream `st` names an enabled descriptor of a port that is no non-reference member of a group (R217). -/
def streamValid (s : State) (st : Nat) : Bool :=
  match s.ingest[st / 4]? with
  | none => false
  | some g => s.domainOn (6 + st / 4) && s.flag (INGEST_CTRL.EN (st / 4)) && !g.refused && g.valid.getD (st % 4) false &&
      (g.group.isEmpty || g.group.head? == some (st / 4))

/-- The frames of a stream that the ledger holds, in order. -/
def streamFrames (s : State) (st : Nat) : List Frame :=
  s.ledger.frames.filter (fun f => 4 * f.port + f.desc == st)

/-- Every frame that a stream has opened since the ledger started: number, index and time (R229). -/
def streamTimes (s : State) (st : Nat) : List (Nat × Nat × Nat) :=
  (s.ledger.gone.filter (fun g => g.1 == st)).map (fun g => g.2) ++ (streamFrames s st).map (fun f => (f.num, f.seq, f.fs))

/-- The trigger frame of a stream for trigger time `t`: number, index and time of the last frame at or before it, or of
the frame that matches the partner's (R229, R460). -/
def findT (s : State) (st t : Nat) (hint : Option Nat) : Option (Nat × Nat × Nat) :=
  let fs := streamTimes s st
  let off (f : Nat × Nat × Nat) (h : Nat) : Nat := (max f.2.2 h) - (min f.2.2 h)
  let best (h : Nat) := (fs.filter (fun f => decide (off f h ≤ max 100 (s.fld KLINK_CTRL.MATCH_NS)))).foldl (fun b f =>
    match b with
    | none => some f
    | some g => if off f h < off g h then some f else b) none
  match hint.bind best with
  | some f => some f
  | none => (fs.filter (fun f => decide (f.2.2 ≤ t))).foldl (fun b f =>
      if b.all (fun g => decide (g.2.1 < f.2.1)) then some f else b) none

/-- The pre walk from the frame before T over the stream's frames in the ring (R230): `left` frames are still to be
considered; answers how many of them are committed. Only in Wings does it commit; in Performance it adds its destination
to frames not yet written (R228), and passes over OPEN ones (DESIGN CHOICE, assumption 167). -/
def preWalk (out dest guard port : Nat) (wings : Bool) : List Frame → Nat → Nat → State → Nat × State
  | [], _, done, s => (done, s)
  | _, 0, done, s => (done, s)
  | f :: t, left + 1, done, s =>
    if f.disp = 7 then preWalk out dest guard port wings t left (done + 1) (commitFrame f.num dest 0 (some out) false s)
    else if f.disp ≠ 0 then
      preWalk out dest guard port wings t left (done + boolNat (f.disp != 4 && f.disp != 5)) s
    else if wings = false then preWalk out dest guard port wings t left done s
    else if pendingOn s port + 1 + expectedPost s port + guard ≤ (partOf s port).slots then
      preWalk out dest guard port wings t left (done + 1) (commitFrame f.num dest 0x100 (some out) true s)
    else (done, s)

/-- The frames of a stream before index `i`, newest first, back to the oldest that lies in the ring. -/
def ringBefore (s : State) (st i : Nat) : List Frame :=
  (((streamFrames s st).filter (fun f => decide (f.seq < i))).dropWhile (fun f => f.slot.isNone)).reverse

/-- Extend the active range of an output on a stream, or begin one: the post end becomes the later of the two ends (R232). A range
that waits for its T, the next frame to open, knows that frame's end only by its POST. -/
def placeRange (r : Range) (s : State) : State :=
  let same (x : Range) : Bool := x.out == r.out && x.stream == r.stream
  let wait (x : Range) : Nat := if x.waitT then x.post else 0
  let f (x : Range) : Range :=
    if same x then { x with last := max x.last r.last, post := max (wait x) (wait r), waitT := x.waitT || r.waitT,
                            dest := x.dest ||| r.dest } else x
  if s.ledger.ranges.any same then setLedger { s.ledger with ranges := s.ledger.ranges.map f } s
  else setLedger { s.ledger with ranges := s.ledger.ranges ++ [r] } s

/-- The outcome of a placement on one stream, for the trigger log: T, none while it is still to open, pre frames committed, FLAGS
(R246). -/
structure Placed where
  tnum : Option Nat
  pre : Nat
  flags : Nat
  tfs : Nat
  deriving DecidableEq, Repr

/-- Place the range of a fire on stream `st` (R229, R230, R232). -/
def placeStream (p : Placement) (st : Nat) (s : State) : Placed × State :=
  let dest := bits (outCtrl p.cfg) 5 4
  let wings := s.mode == 4
  let T := findT s st p.time (keyGet p.hints st)
  let tnum := T.map (fun x => x.1)
  let tfs := (T.map (fun x => x.2.2)).getD 0
  if s.mode ≠ 3 ∧ s.mode ≠ 4 then (⟨tnum, 0, 0, tfs⟩, s)
  else if p.ignored then (⟨tnum, 0, 4, tfs⟩, s)
  else
    let ext := s.ledger.ranges.any (fun r => r.out == p.out && r.stream == st)
    let post := outPost p.cfg
    let r : Range := match T with
      | some x => { out := p.out, stream := st, last := x.2.1 + post, post := post, dest := dest, waitT := false }
      | none => { out := p.out, stream := st, last := 0, post := post, dest := dest, waitT := true }
    let s := match T with
      | some x => commitFrame x.1 dest 0x200 (some p.out) wings s
      | none => s
    let s := match T with
      | some x => (streamFrames s st).foldl (fun s f =>
          if x.2.1 < f.seq ∧ f.seq ≤ r.last then commitFrame f.num dest (postBit wings) (some p.out) wings s else s) s
      | none => s
    let s := placeRange r s
    let before := match T with
      | some x => ringBefore s st x.2.1
      | none => []
    let (done, s) := preWalk p.out dest (outGuard p.cfg) (st / 4) wings before (outPre p.cfg) 0 s
    let short := decide (done < outPre p.cfg)
    let s := if short then ledgerFlag LEDGER_EVENT.PRE_SHORT .info p.out 0 s else s
    (⟨tnum, done, boolNat wings + 2 * boolNat ext + 8 * boolNat short, tfs⟩, endRanges s)

/-- One trigger log entry (R246); T reads 0 until the frame that it waits for opens. -/
def logTrigger (p : Placement) (st : Nat) (x : Placed) (s : State) : State :=
  let k := s.fld LEDGER_TLOG_WR.WR
  let ws : List Nat := [k, p.out + 256 * st + 65536 * x.flags, p.time % 1000000000, p.time / 1000000000, x.tnum.getD 0,
    x.tnum.getD 0 / 2 ^ 32,
    x.pre, outPre p.cfg - x.pre]
  let s := ws.zipIdx.foldl (fun s e => s.setFld (LEDGER_TLOG.DATA (8 * (k % 16) + e.2)) e.1) s
  let s := if x.tnum.isNone then setLedger { s.ledger with tlogWait := s.ledger.tlogWait ++ [(st, k)] } s else s
  s.setFld LEDGER_TLOG_WR.WR (k + 1)

/-- Place the range of a fire on every valid stream of STREAMS; the log names the lowest one (R229, R246). Where the
fire is forwarded, the partner gets its T of each stream (R460, R462). -/
def placeAll (p : Placement) (s : State) : State :=
  let sts := (List.range 16).filter (fun st => (outStreams p.cfg).testBit st && streamValid s st)
  let (res, s) := sts.foldl (fun (a : List (Nat × Placed) × State) st =>
    let (x, t) := placeStream p st a.2
    (a.1 ++ [(st, x)], t)) ([], s)
  let s := match res with
    | (st, x) :: _ => logTrigger p st x s
    | [] => logTrigger p 0xFF ⟨some 0, 0, if p.ignored then 4 else 0, 0⟩ s
  pairPlaced p.out p.time (.trig p.out p.time (res.map (fun e => (e.1, e.2.tfs)))) s

/-- The end of the settle window of a fire (R229). -/
def settleEnd (s : State) (p : Placement) : Nat :=
  let ports := (List.range 4).filter (fun q => bits (outStreams p.cfg) (4 * q + 3) (4 * q) != 0)
  p.time + 2000 + (ports.map (fun q => s.fld (INGEST_LAT.NS q))).foldl max 0

/-- The fire whose settle window ends first; of several, the oldest (R229). -/
def nextPlacement (s : State) : Option Placement :=
  s.ledger.placements.find? (fun p => s.ledger.placements.all (fun q => decide (settleEnd s p ≤ settleEnd s q)))

/-- Place the range of the next fire whose settle window has ended (R229). -/
def placeNext (s : State) : State :=
  match nextPlacement s with
  | some p =>
    if settleEnd s p ≤ s.nowNs then
      ledgerShow (placeAll p (setLedger { s.ledger with placements := s.ledger.placements.erase p } s))
    else s
  | none => s

/-- The command opens frames. -/
def opensFrame (i : Instr) : Bool :=
  match i with
  | .frameStart .. => true
  | _ => false

/-- A Frame Start of the same cycle is still to act (R233). -/
def startWaits (s : State) : Bool := s.pending.any opensFrame

/-- The placements that gave way to the Frame Starts of their cycle follow the last of them (R233). -/
def placeAfterStarts (s : State) : State :=
  if startWaits s then s
  else
    (List.replicate s.ledger.placeDue ()).foldl (fun s _ => placeNext s) (setLedger { s.ledger with placeDue := 0 } s)

/-! ### Leaving Performance or Wings -/

/-- Every range ends at the last frame received; on leaving Wings each that still awaits post frames is named (R48). -/
def endAllRanges (fromWings : Bool) (s : State) : State :=
  let s := s.ledger.ranges.foldl (fun s r =>
    if fromWings ∧ rangeLeft s r ≠ 0 then
      postEvent { cls := .info, block := 1, cause := 0x300, inst := 0xFF, detail := rangeLeft s r } s
    else s) s
  ledgerShow (setLedger { s.ledger with ranges := [] } s)

/-- No frame is PENDING. -/
def allFinal (s : State) : Bool := s.ledger.frames.all (fun f => f.disp != 7)

/-- Every PENDING frame becomes DROPPED with reason ABORTED (R242, R395). -/
def abortPending (s : State) : State :=
  (s.ledger.frames.filter (fun f => f.disp == 7)).foldl (fun s f => finalise f.num 5 5 s) s

/-- Every OPEN frame becomes OVERWRITTEN_IN_RING (R222, R395), of one port or of all. -/
def overwriteOpen (p : Option Nat) (s : State) : State :=
  (s.ledger.frames.filter (fun f => f.disp == 0 && p.all (fun q => f.port == q))).foldl (fun s f => overwrite f s) s

end Sys2Proof.Machine
end

