-- ==== Sys2Proof/Machine/Trigger.lean ====
section
/-! DEFINITION. The trigger pins (R207 to R213), the combiner (R214 to R219), cue selection by hardware (R74, R75), and the
commands of the trigger path. -/

namespace Sys2Proof.Machine

/-! ### Cue selection (R74, R75) -/

/-- Selection entry `n` fires: its operation, its commit, and the report to the partner (R75). -/
def selFire (n : Nat) (s : State) : State :=
  let s := selAct n s
  if topo s ≠ 0 then pairSend (.cuesel n) s else s

/-- The entries that a set of simultaneous changes fires, lower numbers first (R74). A change is a source code, an index
and how it changed. -/
def selFireAll (cs : List (Nat × Nat × SelEdge)) (s : State) : State :=
  (List.range 16).foldl (fun s n =>
    if cs.any (fun c => selMatches s c.1 c.2.1 c.2.2 n) then selFire n s else s) s

/-! ### The combiner -/

/-- The level of input `i` outside the cycle of an event of its own (R214). -/
def inputLevel (s : State) (i : Nat) : Bool :=
  if i < 8 then (s.fld LEDGER_PIN_STATUS.LEVEL).testBit i
  else if 16 ≤ i ∧ i < 48 then (s.fld CELL_LVL_LO.LEVEL).testBit (i - 16)
  else if 48 ≤ i ∧ i < 80 then (s.fld CELL_LVL_HI.LEVEL).testBit (i - 48)
  else false

/-- The four literals of term `t` (R215). -/
def termLiterals (s : State) (t : Nat) : List Nat := (List.range 4).map (fun l => s.tab 0x10 1 (8 * t + 2 * l) 2)

def litUsed (l : Nat) : Bool := l.testBit 15
def litEvent (l : Nat) : Bool := l.testBit 13
def litInput (l : Nat) : Nat := l % 128

/-- A level literal holds; inputs with an event in this cycle that have no level of their own count as 1 (R216). -/
def litHolds (s : State) (pulses : List (Nat × Nat)) (l : Nat) : Bool :=
  (inputLevel s (litInput l) || (pulses.any (fun p => p.1 == litInput l) && (decide (8 ≤ litInput l) &&
    !(decide (16 ≤ litInput l) && decide (litInput l < 80))))) != l.testBit 14

/-- The AND of the used level literals of a term (R216). -/
def termAnd (s : State) (pulses : List (Nat × Nat)) (ls : List Nat) : Bool :=
  (ls.filter (fun l => litUsed l && !litEvent l)).all (litHolds s pulses)

/-- Whether a term fires in a cycle with events `pulses` at time `t`, and the time it carries (R216). -/
def termFire (s : State) (pulses : List (Nat × Nat)) (t : Nat) (before : Bool) (ls : List Nat) : Option Nat :=
  match ls.find? (fun l => litUsed l && litEvent l) with
  | some e =>
    if termAnd s pulses ls then ((pulses.filter (fun p => p.1 == litInput e)).map (·.2)).min? else none
  | none =>
    if ls.any litUsed && termAnd s pulses ls && !before then some t else none

/-- The output pins of combiner output `k` drive a pulse, or extend it (R213). -/
def drivePins (k : Nat) (s : State) : State :=
  (List.range 8).foldl (fun s n =>
    let c := s.tab 0x10 0 (16 * n) 1
    if c.testBit 4 ∧ c % 4 = k then
      let e := s.ticks + 4 * max 1 (s.tab 0x10 0 (16 * n + 2) 2)
      setLedger { s.ledger with pins := modAt s.ledger.pins n (fun p => { p with outEnd := some (max e (p.outEnd.getD 0)) }) }
        (s.orBit LEDGER_PIN_STATUS.OUT n)
    else s) s

/-- A range of output `k` is active, or waits to be placed (R232). -/
def outputActive (s : State) (k : Nat) : Bool :=
  s.ledger.ranges.any (fun r => r.out == k) || s.ledger.placements.any (fun p => p.out == k && !p.ignored && outStreams p.cfg != 0)

/-- Fires of output `k` go to the partner (R460). -/
def forwards (s : State) (k : Nat) : Bool := (s.fld KLINK_CTRL.FWD).testBit k && topo s != 0

/-- Output `k` fires with trigger time `t` (R218, R232); a fire that is forwarded holds its place among the flits of the pair
(R462). -/
def outputFire (k t : Nat) (hints : List (Nat × Nat)) (s : State) : State :=
  let c := readList 0 (s.table 0x10 2) (16 * k) 16
  let p : Placement := { out := k, time := t, cfg := c, hints := hints,
                         ignored := (outCtrl c).testBit 6 && outputActive s k }
  let s := if forwards s k then setKlink { s.klink with order := s.klink.order ++ [.placing k t] } s else s
  drivePins k (setLedger { s.ledger with placements := s.ledger.placements ++ [p] }
    (ledgerFlag LEDGER_EVENT.FIRE .info k 0 s))

/-- One cycle of the combiner at time `t`, with the events `pulses` and their times (R216, R218). -/
def combineCycle (hints : List (Nat × Nat)) (pulses : List (Nat × Nat)) (t : Nat) (s : State) : State :=
  let fires := (List.range 16).map (fun i => termFire s pulses t (s.ledger.terms.getD i false) (termLiterals s i))
  let now := (List.range 16).map (fun i => (termLiterals s i).any litUsed && termAnd s pulses (termLiterals s i))
  let s := setLedger { s.ledger with terms := now } s
  if s.flag LEDGER_CTRL.TRIG_EN = false then s
  else
    (List.range 4).foldl (fun s k =>
      let c := readList 0 (s.table 0x10 2) (16 * k) 16
      if (outCtrl c).testBit 7 = false ∨ destOk s (bits (outCtrl c) 5 4) = false then s
      else
        match (((List.range 16).filter (fun i => (outTerms c).testBit i)).filterMap (fun i => (fires[i]?).join)).min? with
        | some w => outputFire k w hints s
        | none => s) s

/-- The combiner when levels changed at time `t` or events came: the cycle of the events, which last no longer, is followed by one
without them (R214, R216). -/
def combineWith (hints : List (Nat × Nat)) (pulses : List (Nat × Nat)) (t : Nat) (s : State) : State :=
  if s.domainOn 28 = false then s
  else if pulses.isEmpty then combineCycle hints [] t s
  else combineCycle [] [] t (combineCycle hints pulses t s)

def combine (pulses : List (Nat × Nat)) (t : Nat) (s : State) : State := combineWith [] pulses t s

/-! ### Trigger pins -/

/-- The descriptor of a pin in force when the run began that has `edge` as its first active sample: as it was before the first cue
point after that (R207, R247). -/
def pinDesc (s : State) (pin edge : Nat) : List Byte :=
  let table := ((s.ledger.pinBanks.find? (fun b => decide (edge < b.1))).map (·.2)).getD (s.table 0x10 0)
  readList 0 table (16 * pin) 16

/-- Field of `n` bytes at `o` of that descriptor (R207). -/
def pinField (s : State) (pin edge o n : Nat) : Nat := leAt (pinDesc s pin edge) o n

/-- A sample of an input pin at `level` is active: high, or low where POL is 1 (R207, R208). -/
def pinActive (s : State) (pin edge : Nat) (level : Bool) : Bool := level != (pinField s pin edge 0 1).testBit 6

/-- The level that an output pin drives: its pulse in the polarity of POL; none while OUT_EN is 0 or the domain is off, when it is no
output (R207, R213). -/
def pinOutLevel (s : State) (pin : Nat) : Option Bool :=
  let c := s.tab 0x10 0 (16 * pin) 1
  if s.domainOn 28 && c.testBit 4 then some ((s.fld LEDGER_PIN_STATUS.OUT).testBit pin != c.testBit 6) else none

/-- The run of FILTER samples, in nanoseconds (R207, R208). -/
def pinFilterNs (s : State) (pin edge : Nat) : Nat := 5 * clamp 4 2000000 (pinField s pin edge 4 4)

def modPin (n : Nat) (f : PinState → PinState) (s : State) : State :=
  setLedger { s.ledger with pins := modAt s.ledger.pins n f } s

def pinOf (s : State) (n : Nat) : PinState := (s.ledger.pins[n]?).getD pinInit

/-- A pin has been active for FILTER samples from device time `edge` on (R208 to R212); before that nothing is accepted. -/
def execTrigAccept (pin : Fin 8) (edge : Nat) (s : State) : Host.Outcome State Fault Refusal :=
  let n := pin.val
  if s.domainOn 28 = false ∨ (pinField s n edge 0 1).testBit 7 = false ∨ (pinOf s n).held ∨
     s.nowNs < edge + pinFilterNs s n edge then .next s
  else
    let rearm := min 10000000 (pinField s n edge 8 4) * 1000
    if (pinOf s n).lastEdge.any (fun e => decide (edge < e + rearm)) then
      .next ((modPin n (fun p => { p with held := true, discarded := true }) s).addFld (LEDGER_PINCNT.DISCARDED n) 1)
    else
      let s := modPin n (fun p => { p with
        held := true, discarded := false, since := s.ticks, lastEdge := some edge, latch := pinDesc s n edge }) s
      let s := combine [(n, edge)] edge (s.orBit LEDGER_PIN_STATUS.LEVEL n)
      .next (selFireAll [(0, n, .rising), (0, n, .event)] s)

/-- An active run ends that was shorter than FILTER: it is counted (R208). -/
def execTrigShortRun (run : PinRun) (s : State) : Host.Outcome State Fault Refusal :=
  let n := run.pin.val
  if s.domainOn 28 = false ∨ (pinField s n run.edge 0 1).testBit 7 = false ∨ run.edge + pinFilterNs s n run.edge ≤ s.nowNs then
    .next s
  else .next (s.addFld (LEDGER_PINCNT.FILTERED n) 1)

/-- The end of an inactive run of FILTER samples (R209, R212). -/
def execTrigRelease (pin : Fin 8) (s : State) : Host.Outcome State Fault Refusal :=
  let n := pin.val
  let p := pinOf s n
  if p.held = false then .next s
  else
    let s := modPin n (fun p => { p with held := false, discarded := false }) s
    if p.discarded then .next s
    else .next (selFireAll [(0, n, .falling)] (combine [] s.nowNs (s.clrBit LEDGER_PIN_STATUS.LEVEL n)))

/-- The stuck timeout of an activation in nanoseconds, 0 where the check is off (R207, R211). -/
def PinState.stuckNs (p : PinState) : Nat := min 600000 (leAt p.latch 0xC 4) * 1000000

/-- An accepted activation has stayed active for STUCK (R211). -/
def execTrigStuck (pin : Fin 8) (s : State) : Host.Outcome State Fault Refusal :=
  let n := pin.val
  let p := pinOf s n
  if p.held = false ∨ p.discarded ∨ p.stuckNs = 0 ∨ s.elapsedNs p.since p.stuckNs = false ∨
     (s.fld LEDGER_PIN_STATUS.LEVEL).testBit n = false then .next s
  else
    let s := ledgerFlag LEDGER_EVENT.STUCK .warning n 0 (s.orBit LEDGER_PIN_STATUS.STUCK n)
    .next (combine [] s.nowNs (s.clrBit LEDGER_PIN_STATUS.LEVEL n))

/-- An output pulse ends after OUT_WIDTH, counted from the last fire that extended it (R213). -/
def execTrigOutputPulseEnd (pin : Fin 8) (s : State) : Host.Outcome State Fault Refusal :=
  if (pinOf s pin.val).outEnd.any (fun e => decide (s.ticks < e)) then .next s
  else .next (modPin pin.val (fun p => { p with outEnd := none }) (s.clrBit LEDGER_PIN_STATUS.OUT pin.val))

/-! ### Software triggers -/

/-- The time in `LEDGER_SWTIME`: bits [47:32] of the seconds are those of device time; NS acts as at most 999,999,999
(R219). -/
def swTime (s : State) : Nat :=
  (s.time.sec.toNat / 2 ^ 32 * 2 ^ 32 + s.fld LEDGER_SWTIME_SEC.SEC) * 1000000000 + min 999999999 (s.fld LEDGER_SWTIME_NS.NS)

/-- A write of `LEDGER_SWTRIG` (R219). During a Company restart no network trigger is accepted (R29). -/
def execSoftwareTrigger (value : Word) (s : State) : Host.Outcome State Fault Refusal :=
  if s.call.restart.isSome then .next s else
  let s := busOk 0 s
  let i := bits value.toNat 1 0
  if s.domainOn 28 = false then .next s
  else if value.toNat.testBit 8 = false then .next (combine [(80 + i, s.nowNs)] s.nowNs s)
  else
    let t := swTime s
    let s := if (s.ledger.sw.getD i none).isSome then ledgerFlag LEDGER_EVENT.SW_REPLACED .info 0xFF 0 s else s
    if t ≤ s.nowNs then .next (combine [(80 + i, t)] t (setLedger { s.ledger with sw := s.ledger.sw.set i none } s))
    else .next (setLedger { s.ledger with sw := s.ledger.sw.set i (some t) } s)

/-- Device time reaches the pending time of a software input (R219). -/
def execSwtrigDue (input : Fin 4) (s : State) : Host.Outcome State Fault Refusal :=
  match s.ledger.sw.getD input.val none with
  | none => .next s
  | some t =>
    if s.nowNs < t then .next s
    else .next (combine [(80 + input.val, t)] t (setLedger { s.ledger with sw := s.ledger.sw.set input.val none } s))

/-! ### Placement and the partner -/

/-- The end of a settle window (R229); Frame Starts of the same cycle act first (R233). -/
def execRangePlace (s : State) : Host.Outcome State Fault Refusal :=
  if startWaits s then .next (setLedger { s.ledger with placeDue := s.ledger.placeDue + 1 } s)
  else .next (placeNext s)

/-- 50 ms have passed without the partner's disposition of a final frame: PARTNER stays 0xF (R239). -/
def execPartnerDispTimeout (frame : Nat) (s : State) : Host.Outcome State Fault Refusal :=
  match frameOf s frame with
  | none => .next s
  | some f =>
    if f.inFlight ∨ f.partner.isSome ∨ f.spilled ∨ f.finalAt.all (fun t => !s.elapsedNs t 50000000) then .next s
    else .next (spillSettled (modFrame frame (fun x => { x with partner := some 15 }) s))

end Sys2Proof.Machine
end

