-- ==== Sys2Proof/Machine/Cell.lean ====
section
/-! DEFINITION. The scene cells (06_scene_cells.md): the grid, what a cell measures, conditions, groups, and the Spotlight
map. -/

namespace Sys2Proof.Machine

def setCell (c : CellState) (s : State) : State := { s with cell := c }

def setEval (e : Option CellEval) (s : State) : State := setCell { s.cell with eval := e } s

/-- An event of the cells with its flag. -/
def cellFlag (f : Fld) (cls : EventClass) (inst : Nat) (s : State) : State := postFlag f f.lo cls 5 inst 0 s

/-- CFA channel of the pixel at (x, y) (R7, R150). -/
def cfaChannel (phase x y : Nat) : Nat := if phase = 4 then 0 else phase ^^^ (x % 2 + 2 * (y % 2))

/-- The cell size in pixels that `CELL_GRID` gives, with the ends it acts as (R177). -/
def cellW (s : State) : Nat := 16 * clamp 1 128 (s.fld CELL_GRID.CW)
def cellH (s : State) : Nat := 16 * clamp 1 128 (s.fld CELL_GRID.CH)

/-- Map slots, 2 to 64. -/
def mapSlots (s : State) : Nat := clamp 2 64 (s.fld CELL_MAP_CTRL.SLOTS)

def mapBase (s : State) : Nat := s.fld CELL_MAP_BASE_LO.ADDR * 4096 + s.fld CELL_MAP_BASE_HI.ADDR * 2 ^ 32

/-! ### Levels and groups -/

def groupLevel (s : State) (g : Nat) : Bool := inputLevel s (16 + g)

def setGroupLevel (g : Nat) (b : Bool) (s : State) : State :=
  if g < 32 then s.setBit CELL_LVL_LO.LEVEL g b else s.setBit CELL_LVL_HI.LEVEL (g - 32) b

/-- The descriptor of group `g` in a bank of table 1 (R193): enabled, FEWER, K. -/
def groupDesc (t : Sparse 8) (g : Nat) : Bool × Bool × Nat :=
  let c := leNat (readList 0 t (8 * g) 1)
  (c.testBit 7, c.testBit 6, clamp 1 40960 (leNat (readList 0 t (8 * g + 2) 2)))

/-- Groups fire on one decision, in the same cycle, ascending (R196 to R198). -/
def groupsFire (gs : List Nat) (num : Nat) (s : State) : State :=
  if gs.isEmpty then s
  else
    let t := s.nowNs
    let s1 := gs.foldl (fun s g =>
      let rising := !groupLevel s g
      let s := (setGroupLevel g true s).setFlag CELL_EVENT.FIRE true
      let s := if g < 32 then s.orBit CELL_FIRED_LO.FIRED g else s.orBit CELL_FIRED_HI.FIRED (g - 32)
      let s := setCell { s.cell with gframe := s.cell.gframe.set g num } s
      if rising then cellFlag CELL_EVENT.FIRE .info g s else s) s
    let changes := (gs.map (fun g =>
      (if groupLevel s g then [] else [(2, g, SelEdge.rising)]) ++ [(2, g, SelEdge.event)])).flatten
    selFireAll changes (combine (gs.map (fun g => (16 + g, t))) t s1)

/-- Levels return to 0: the falling edges reach the combiner and cue selection (R195, R196, R202). -/
def groupsFall (gs : List Nat) (s : State) : State :=
  let gs := gs.filter (fun g => groupLevel s g)
  if gs.isEmpty then s
  else
    selFireAll (gs.map (fun g => (2, g, SelEdge.falling))) (combine [] s.nowNs (gs.foldl (fun s g => setGroupLevel g false s) s))

/-! ### Measurement (R180, R181) -/

/-- What a cell measures over its pixels. Lists are by CFA plane. -/
structure CellStats where
  n : Nat
  cnt : List Nat
  sum : List Nat
  sq : List Nat
  mn : Nat
  mx : Nat
  clip : Nat
  hist : List Nat
  thumb : List Nat
  deriving DecidableEq, Repr

/-- The pixels of a cell: column and line within the cell, CFA plane, statistic value. -/
def cellPixels (e : CellEval) (col row : Nat) (lines : List (List Nat)) : List (Nat × Nat × Nat × Nat) :=
  let w := dtWidth e.d.dt
  let x0 := col * e.cw
  (lines.zipIdx.map (fun l => (((l.1.drop x0).take e.cw).zipIdx.map (fun p =>
    (p.2, l.2, cfaChannel e.d.cfa (x0 + p.2) (row * e.ch + l.2), p.1 * 2 ^ (20 - w) / 256))))).flatten

/-- The thumbnail of a cell of `w` by `h` pixels (R181). -/
def thumbOf (w h : Nat) (px : List (Nat × Nat × Nat × Nat)) : List Nat :=
  ((List.range 8).map (fun j => (List.range 8).map (fun i =>
    let sub := px.filter (fun p => decide (i * w / 8 ≤ p.1) && decide (p.1 < (i + 1) * w / 8) &&
      decide (j * h / 8 ≤ p.2.1) && decide (p.2.1 < (j + 1) * h / 8))
    let m := sub.length
    if m = 0 then 0 else ((sub.map (fun p => p.2.2.2)).sum + m / 2) / m / 16))).flatten

/-- All statistics of a cell but ACT (R180). -/
def measure (w h clipLevel : Nat) (px : List (Nat × Nat × Nat × Nat)) : CellStats :=
  let vs := px.map (fun p => p.2.2.2)
  let plane (c : Nat) := (px.filter (fun p => p.2.2.1 == c)).map (fun p => p.2.2.2)
  let n := px.length
  { n := n, cnt := (List.range 4).map (fun c => (plane c).length), sum := (List.range 4).map (fun c => (plane c).sum)
    sq := (List.range 4).map (fun c => ((plane c).map (fun v => v * v)).sum)
    mn := vs.min?.getD 0, mx := vs.max?.getD 0, clip := (vs.filter (fun v => decide (clipLevel ≤ v))).length
    hist := (List.range 16).map (fun b => ((vs.filter (fun v => v / 256 == b)).length * 1023 + n / 2) / n)
    thumb := thumbOf w h px }

/-- ACT against the previous thumbnail (R181). -/
def activity (new old : List Nat) : Nat := ((new.zip old).map (fun p => max p.1 p.2 - min p.1 p.2)).sum

/-- Bytes 0x00 to 0x3F of a context (R182). -/
def statBytes (mono : Bool) (x : CellStats) (act : Nat) : List Byte :=
  let pair (v : Nat) : List Byte := leBytes 8 v ++ List.replicate 8 0
  let sq := x.sq.map (fun v => v / 4096)
  (if mono then pair (x.sum.getD 0 0) ++ pair (sq.getD 0 0)
   else (x.sum.map (leBytes 4)).flatten ++ (sq.map (leBytes 4)).flatten) ++
  leBytes 2 x.mn ++ leBytes 2 x.mx ++ leBytes 4 x.clip ++ leBytes 4 act ++
  leBytes 20 ((x.hist.zipIdx.map (fun e => e.1 % 1024 * 1024 ^ e.2)).sum)

/-! ### Conditions (R187 to R190) -/

/-- The value of a metric (R187), none for a reserved one. The rule for a plane without pixels is read as one for every metric
(DEDUCED, assumption 109). -/
def metricValue (mono : Bool) (x : CellStats) (act metric plane lo hi : Nat) : Option Nat :=
  let n := if 4 ≤ plane then x.n else x.cnt.getD plane 0
  let sum := if 4 ≤ plane then x.sum.sum else x.sum.getD plane 0
  let sq := if 4 ≤ plane then x.sq.sum else x.sq.getD plane 0
  let none_ := n == 0 || (mono && decide (1 ≤ plane) && decide (plane ≤ 3))
  if metric = 0 ∨ 9 ≤ metric then none
  else if none_ then some 0
  else if metric = 1 then some (sum / n)
  else if metric = 2 then some (sq / n - (sum / n) * (sum / n))
  else if metric = 3 then some x.mn
  else if metric = 4 then some x.mx
  else if metric = 5 then some (x.mx - x.mn)
  else if metric = 6 then some x.clip
  else if metric = 7 then some act
  else some (if hi < lo then 0 else ((x.hist.drop lo).take (hi + 1 - lo)).sum)

/-- Whether a term holds (R188): its byte, its threshold. -/
def termHolds (mono noPrev : Bool) (x : CellStats) (act lo hi term thr : Nat) : Bool :=
  let metric := term / 16
  if metric = 7 ∧ noPrev then false
  else
    match metricValue mono x act metric (term % 8) lo hi with
    | none => false
    | some v => if term.testBit 3 then decide (v < thr) else decide (thr ≤ v)

/-- A term names a reserved metric (R188). -/
def termReserved (term : Nat) : Bool := decide (9 ≤ term / 16)

/-! ### The decision of a cell (R191) -/

/-- Cell `id` decides: context, group counts and fires (R186, R191, R194). A HIST byte above 15 acts as 15 (assumption 165). `filled` says that it held fill pixels. -/
def decideCell (id col row : Nat) (px : List (Nat × Nat × Nat × Nat)) (filled : Bool) (last : Bool) (s : State) : State :=
  match s.cell.eval with
  | none => s
  | some e =>
    let cfg (o n : Nat) := leNat (readList 0 e.t0 (32 * id + o) n)
    let w := min e.cw (e.d.width - col * e.cw)
    let h := min e.ch (e.d.height - row * e.ch)
    let mono := e.d.cfa == 4
    let x := measure w h (cfg 6 2) px
    let old := (readList 0 s.cell.thumbs (64 * id) 64).map (·.toNat)
    let act := if e.noPrev then 0 else activity x.thumb old
    let lo := min 15 (cfg 0x18 1)
    let hi := min 15 (cfg 0x19 1)
    let ta := cfg 2 1
    let tb := cfg 3 1
    let a := ta / 16 != 0 && termHolds mono e.noPrev x act lo hi ta (cfg 8 4)
    let b := tb / 16 != 0 && termHolds mono e.noPrev x act lo hi tb (cfg 0xC 4)
    let parity := e.parity.contains id
    let suppressed := e.suppress && filled
    let cond := ta / 16 != 0 && (if tb / 16 = 0 then a else if (cfg 4 1).testBit 0 then a || b else a && b) &&
      !suppressed && !parity
    let base := 128 * id
    let rd (o n : Nat) := leNat (readList 0 s.cell.ctx (base + o) n)
    let en := (cfg 0 1).testBit 7
    let was := (rd 0x6A 1).testBit 0
    let run := if en && cond then min 65535 (rd 0x68 2 + 1) else 0
    let start := if en && cond then (if rd 0x68 2 = 0 then e.num else rd 0x70 8) else 0
    let firing := en && decide (max 1 (cfg 1 1) ≤ run)
    let rose := firing && !was
    let rises := if rose then min 0xFFFFFFFF (rd 0x6C 4 + 1) else rd 0x6C 4
    let partial_ := col + 1 == e.cols || row + 1 == e.rows
    let st := boolNat firing + 2 * boolNat rose + 4 * boolNat e.noPrev + 8 * boolNat partial_ + 16 * boolNat filled +
      32 * boolNat suppressed + 64 * boolNat parity
    let trig := leBytes 8 e.num ++ leBytes 2 run ++ leBytes 1 st ++ leBytes 1 (boolNat a + 2 * boolNat b) ++
      leBytes 4 rises ++ leBytes 8 start ++ leBytes 4 s.time.ns ++ leBytes 4 s.time.sec.toNat
    let ctx := writeList 0 (writeList 0 s.cell.ctx base (statBytes mono x act)) (base + 0x60) trig
    let bad := (if termReserved ta then 1 else 0) + (if termReserved tb then 1 else 0)
    let groups := cfg 0x10 8
    let member (g : Nat) : Bool := firing && groups.testBit g && (groupDesc e.t1 g).1
    let counts := e.counts.zipIdx.map (fun c => if member c.2 then c.1 + 1 else c.1)
    let fires := (List.range 64).filter (fun g =>
      let d := groupDesc e.t1 g
      d.1 && !e.fired.getD g false &&
      (if d.2.1 then last && decide (counts.getD g 0 < d.2.2) else member g && counts.getD g 0 == d.2.2))
    let e2 : CellEval := { e with counts := counts, badTerm := e.badTerm || bad != 0
                                  fired := e.fired.zipIdx.map (fun f => f.1 || fires.contains f.2) }
    let s := setCell { s.cell with ctx := ctx, eval := some e2, decidedTo := max s.cell.decidedTo (id + 1)
                                   thumbs := writeList 0 s.cell.thumbs (64 * id) (x.thumb.map (BitVec.ofNat 8)) } s
    let s := s.addFld CELL_CNT_BADCFG.COUNT bad
    let s := if bad = 0 then s else if e.badTerm then s.setFlag CELL_EVENT.BAD_TERM true
      else cellFlag CELL_EVENT.BAD_TERM .warning 0xFF s
    let s := if suppressed then s.setFlag CELL_EVENT.SUPPRESSED true else s
    groupsFire fires e.num s

/-! ### The Spotlight map (R199, R200) -/

def toS8 (n : Nat) : Int := toSigned 8 n

/-- The map entry of cell `id` (R199, R200): qp, and err, colour and class when the class is active. -/
def mapEntry (s : State) (e : CellEval) (id : Nat) : List Byte :=
  let c := leNat (readList 0 e.t0 (32 * id) 1) % 8
  let w := leNat (readList 0 e.t2 (4 * c) 4)
  let active := c != 0 && w.testBit 31 && (w.testBit 30 || groupLevel s (bits w 29 24))
  if active then
    let q := max (-12) (min 12 (toS8 (bits w 23 16) + toS8 (leNat (readList 0 e.t0 (32 * id + 5) 1))))
    [BitVec.ofInt 8 q, BitVec.ofNat 8 (bits w 15 14 * 64 + bits w 13 11 * 8 + c)]
  else [0, 0]

/-- A map header (R200). -/
def mapHeader (cols rows num epoch done cw ch : Nat) : List Byte :=
  padTo 64 ([0x45, 0x43, 0x4D, 0x50] ++ leBytes 2 cols ++ leBytes 2 rows ++ leBytes 8 num ++ leBytes 4 epoch ++
    leBytes 4 done ++ leBytes 2 cw ++ leBytes 2 ch)

/-- The DRAM offset of the map slot of frame `num`, when the map is enabled and validly placed (R200, R201). -/
def mapSlotOf (s : State) (num : Nat) : Option Nat :=
  if s.flag CELL_MAP_CTRL.EN ∧ s.cell.mapOk then some (dramOff (mapBase s) + 131072 * (num % mapSlots s)) else none

/-- The grid of the frame is complete: levels that fall, entries and DONE of the map, whose classes follow the levels as they are then
(R199; DEDUCED, assumption 109), counts kept (R195, R196, R200). -/
def gridComplete (s : State) : State :=
  match s.cell.eval with
  | none => s
  | some e =>
    let s := groupsFall ((List.range 64).filter (fun g => !e.fired.getD g false)) s
    let s := match e.mapSlot with
      | none => s
      | some a =>
        let s := s.writeDram (a + 0x40) (((List.range (e.cols * e.rows)).map (mapEntry s e)).flatten)
        s.writeDram (a + 0x14) (leBytes 4 1)
    let s := setCell { s.cell with eval := none, now := e.counts, last := e.counts, size := some (e.d.width, e.d.height), thumbOk := true } s
    (s.setFlag CELL_STATUS.ACTIVE false).setFld64 CELL_FRAME_LO.DATA CELL_FRAME_HI.DATA e.num

/-! ### The frame -/

/-- RUN, RUN_START and FIRING of every cell and the level of every group go to 0 (R202, R203). -/
def cellsRearm (s : State) : State :=
  let ctx := s.cell.ctx.filter (fun c =>
    let o := c.1 % 128
    !(o == 0x68 || o == 0x69 || (decide (0x70 ≤ o) && decide (o < 0x78))))
  let ctx := ctx.filterMap (fun c => if c.1 % 128 = 0x6A then
      (if c.2 &&& 0xFE = 0 then none else some (c.1, c.2 &&& 0xFE)) else some c)
  groupsFall (List.range 64) (setCell { s.cell with ctx := ctx } s)

/-- The cells observe stream `desc` of `port` (R176). -/
def cellObserves (s : State) (port desc : Nat) : Bool :=
  s.domainOn 14 && s.flag CELL_CTRL.EN && !s.flag CELL_STATUS.BAD_SRC && s.fld CELL_CTRL.PORT == port &&
  s.fld CELL_CTRL.DESC == desc

/-- A Frame Start of the source stream: settings and tables are latched, the grid formed, the map header written (R177,
R178, R200, R202 to R204). -/
def cellFrameStart (num port desc : Nat) (d : StreamDesc) (s : State) : State :=
  if cellObserves s port desc = false then s
  else
    let cw := cellW s
    let ch := cellH s
    let cols := ceilDiv d.width cw
    let rows := ceilDiv d.height ch
    let fresh := s.cell.regrid || s.cell.size.any (fun z => z != (d.width, d.height))
    let fits := decide (cols ≤ 256) && decide (rows ≤ 160)
    let s := if s.cell.rearm || s.cell.regrid || (fits && fresh) then cellsRearm s else s
    let t1 := s.table 0x0C 1
    let s := groupsFall ((List.range 64).filter (fun g => !(groupDesc t1 g).1)) s
    let s := setCell { s.cell with rearm := false, latch1 := t1, now := List.replicate 64 0 } s
    if fits = false then
      let s := match mapSlotOf s num with
        | some a => s.writeDram a (mapHeader 0 0 num (s.fld CUE_EPOCH.EPOCH) 0 cw ch)
        | none => s
      let s := setCell { s.cell with thumbOk := false } s
      cellFlag CELL_EVENT.BAD_GRID .warning 0xFF (s.setFlag CELL_STATUS.BAD_GRID true)
    else
      let s := match mapSlotOf s num with
        | some a => s.writeDram a (mapHeader cols rows num (s.fld CUE_EPOCH.EPOCH) 0 cw ch)
        | none => s
      let e : CellEval :=
        { num := num, port := port, desc := desc, d := d, cw := cw, ch := ch, cols := cols, rows := rows, decided := 0,
          noPrev := fresh || !s.cell.thumbOk, suppress := s.flag CELL_CTRL.FILL_SUPPRESS, mapSlot := mapSlotOf s num,
          counts := List.replicate 64 0, fired := List.replicate 64 false, badTerm := false, parity := [],
          t0 := s.table 0x0C 0, t1 := t1, t2 := s.table 0x0C 2 }
      let s := setCell { s.cell with eval := some e, regrid := false } s
      let s := (s.setFlag CELL_STATUS.BAD_GRID false).setFlag CELL_STATUS.ACTIVE true
      (s.setFld CELL_STATUS.COLS cols).setFld CELL_STATUS.ROWS rows

/-- One cell row decides, in column order (R192). -/
def decideRow (f : OpenFrame) (e : CellEval) (row : Nat) (s : State) : State :=
  let y0 := row * e.ch
  let ls := (List.range (min e.ch (e.d.height - y0))).map (fun i => f.row (y0 + i))
  let px := ls.map (fun l => unpackLine (dtWidth e.d.dt) e.d.width l.1)
  let spans := (ls.map (fun l => l.2)).flatten
  (List.range e.cols).foldl (fun s col =>
    let x0 := col * e.cw
    let x1 := min e.d.width (x0 + e.cw)
    let filled := spans.any (fun p => decide (max x0 p.1 < min x1 p.2))
    decideCell (row * e.cols + col) col row (cellPixels e col row px) filled
      (row + 1 == e.rows && col + 1 == e.cols) s) s

def decideRows (f : OpenFrame) : Nat → State → State
  | 0, s => s
  | n + 1, s =>
    match s.cell.eval with
    | none => s
    | some e =>
      let row := e.decided
      if e.num = f.num ∧ min f.d.height ((row + 1) * e.ch) ≤ f.rowsDone ∧ row < e.rows then
        let s := decideRow f e row s
        let s := setEval (s.cell.eval.map (fun x => { x with decided := row + 1 })) s
        if row + 1 = e.rows then gridComplete s else decideRows f n s
      else s

/-- Every cell row whose last line has passed the split decides (R192). -/
def cellLines (f : OpenFrame) (s : State) : State := decideRows f 160 s

/-- The context of a cell that has decided takes a parity detection: RUN and RUN_START 0, PARITY set; what the cell has decided stands
(R205; DESIGN CHOICE, assumption 175). -/
def parityStored (id : Nat) (s : State) : State :=
  let o := 128 * id
  let st := readAt 0 s.cell.ctx (o + 0x6A)
  let ctx := writeList 0 (writeList 0 s.cell.ctx (o + 0x68) [0, 0, st ||| 0x40]) (o + 0x70) (List.replicate 8 0)
  setCell { s.cell with ctx := ctx } s

/-- A parity detection hits cell `id` (R205): counted, with its event; the condition of a cell still to decide does not hold. -/
def parityHit (s : State) (id : Nat) : State :=
  let s := cellFlag CELL_EVENT.PARITY .recoverable 0xFF (s.addFld CELL_CNT_PARITY.COUNT 1)
  match s.cell.eval with
  | some e => if id < e.decided * e.cols then parityStored id s else setEval (some { e with parity := e.parity ++ [id] }) s
  | none => parityStored id s

/-- The number of cells in the grid of the frame being evaluated, or of the last one. -/
def parityCells (s : State) : Nat :=
  match s.cell.eval with
  | some e => e.cols * e.rows
  | none => s.fld CELL_STATUS.COLS * s.fld CELL_STATUS.ROWS

/-- Parity detections hit cells of the grid, once for each entry of the list (R205). -/
def cellParity (ids : List Nat) (s : State) : State :=
  if s.domainOn 14 then (ids.filter (fun i => decide (i < parityCells s))).foldl parityHit s else s

/-- `CELL_REARM.GO` (R203). -/
def execCellRearm (s : State) : Host.Outcome State Fault Refusal :=
  let s := busOk 0 s
  if s.domainOn 14 then .next (setCell { s.cell with rearm := true } s) else .next s

/-- A write into the cell context window is refused with a bus error and, while the domain is on, a warning event (R185). -/
def execCellWindowWrite (side : Side) (addr : BitVec 40) (s : State) : Host.Outcome State Fault Refusal :=
  match side with
  | .stageManager => .next (refuseAccess side addr.toNat s)
  | .company _ =>
    .next (if s.domainOn 14 then postOther .warning 5 0xFF (addr.toNat - 0x10000000) (busError s) else busError s)

/-- `CELL_CNT_CTRL.CLEAR` (R206). -/
def execCellCounterClear (s : State) : Host.Outcome State Fault Refusal :=
  let s := busOk 0 s
  if s.domainOn 14 then .next ((s.setFld CELL_CNT_BADCFG.COUNT 0).setFld CELL_CNT_PARITY.COUNT 0) else .next s

/-- The byte at offset `o` of the cell context window (R182 to R185); a context reads 0 until its first decision (R204). -/
def cellWindowByte (s : State) (o : Nat) : Byte :=
  let id := o / 128
  let k := o % 128
  if s.domainOn 14 = false ∨ s.fld CELL_STATUS.COLS * s.fld CELL_STATUS.ROWS ≤ id ∨ s.cell.decidedTo ≤ id then 0
  else if 0x40 ≤ k ∧ k < 0x60 then readAt 0 (s.table 0x0C 0) (32 * id + k - 0x40)
  else readAt 0 s.cell.ctx o

end Sys2Proof.Machine
end

