-- ==== Sys2Proof/Machine/Dram.lean ====
section
/-! DEFINITION. The DRAM controller: re-reads and poison (R375, R378), refresh and tracking (R382, R383), the map and its
retirement and fencing (R389, R393 to R395), the admission check (R386), the training helpers (R390 to R392) and panic (R380). -/

namespace Sys2Proof.Machine

/-- A read of block `block` (64-byte blocks of the data region) meets a code that is not its own: stored poison, or a
re-read that answers a good block or gives poison (R375). -/
def execDramReread (block : Nat) (good : Bool) (s : State) : Host.Outcome State Fault Refusal :=
  let ch := dramChannel s (64 * block)
  if dramSize s ≤ 64 * block ∨ dramBlocked s (64 * block) then .next s
  else
    let s := dramAccess (64 * block) 64 s
    if s.mem.poison.contains block then .next (dramCheck block s)
    else if good then
      .next (dramFlag DRAM_EVENT.REREAD .info ch 0 (dramCount 0 ch
        (setMem { s.mem with bad := s.mem.bad.filter (fun b => b != block) } s)))
    else .next (dramCheck block (if s.mem.bad.contains block then s else setMem { s.mem with bad := s.mem.bad ++ [block] } s))

/-- A block has its code in the code buffer of its channel (R374). -/
def codeHeld (s : State) (block : Nat) : Bool := s.mem.codeBuf.any (fun e => decide (e.1 ≤ block) && decide (block < e.1 + e.2))

/-- The code buffers are written back and empty; blocks whose two copies of a held entry differ are stored with NOT code (R374,
R378). -/
def execDramCodeWriteback (mismatch : List Nat) (s : State) : Host.Outcome State Fault Refusal :=
  let blocks := mismatch.filter (fun b => codeHeld s b && (decide (64 * b < dramSize s) && !dramBlocked s (64 * b)))
  let s := setMem { s.mem with codeBuf := [] } s
  match blocks with
  | [] => .next s
  | b :: _ =>
    let s := storePoison blocks (blocks.foldl (fun s b => dramAccess (64 * b) 64 s) s)
    .next (dramFlag DRAM_EVENT.CODEBUF .recoverable (dramChannel s (64 * b)) 0 s)

/-- A refresh of a bank falls due: it is postponed, at most eight times, or issued (R382). -/
def execDramRefresh (bank : Fin 512) (postpone : Bool) (s : State) : Host.Outcome State Fault Refusal :=
  let n := (keyGet s.mem.postponed bank.val).getD 0
  let n := if postpone && decide (n < 8) then n + 1 else n - 1
  .next (setMem { s.mem with
    postponed := if n = 0 then keyDel s.mem.postponed bank.val else keySet s.mem.postponed bank.val n } s)

/-- Every 4 ms MR4 of every rank is read (R382): `rates` by channel × 2 + rank. -/
def execDramMr4Poll (rates : List Nat) (s : State) : Host.Outcome State Fault Refusal :=
  .next (setMem { s.mem with mr4 := rates.zipIdx.map (fun e => (e.2, e.1)) } s)

/-- The tracking of one delay of a rank moves by `d` steps, at most 8 from the trained value (R383). -/
def trackDelay (delay : Nat) (d : Int) (s : State) : State :=
  let want := ((keyGet s.mem.tracked delay).getD 0) + d
  let s := setMem { s.mem with tracked := keySet s.mem.tracked delay (max (-8) (min 8 want)) } s
  if 8 < want ∨ want < -8 then dramFlag DRAM_EVENT.DRIFT .warning (delay / 4) 0 (s.setFlag DRAM_STATUS.DRIFT true) else s

/-- Every 32 ms the WCK2DQI and WCK2DQO oscillators run (R383): the steps that the write and the read delay of each rank need. -/
def execDramOscTrack (drift : List Int) (s : State) : Host.Outcome State Fault Refusal :=
  .next (drift.zipIdx.foldl (fun s e => if e.1 = 0 then s else trackDelay e.2 e.1 s) s)

/-- WCK stops after 512 ns without a CAS (R383). -/
def execDramWckStop (channel : Fin 16) (s : State) : Host.Outcome State Fault Refusal :=
  if s.mem.wckOff.contains channel.val then .next s
  else .next (setMem { s.mem with wckOff := s.mem.wckOff ++ [channel.val] } s)

/-! ### The map -/

/-- Megabytes per second of `n` channels at a RATE code (R369). -/
def peakOf (rate n : Nat) : Nat := n * 2 * ([3200, 4267, 5500, 6400, 7500, 8533].getD rate 0)

/-- `DRAM_MAP.COMMIT` with the RETIRE bits written beside it (R389, R393, R394). -/
def execDramCommit (retire : BitVec 4) (s : State) : Host.Outcome State Fault Refusal :=
  let s := busOk 0 s
  if s.mem.committed then .next s
  else
    let s := s.setFld DRAM_MAP.RETIRE (s.fld DRAM_MAP.RETIRE ||| retire.toNat)
    let r := s.fld DRAM_MAP.RETIRE
    let gs := (List.range 4).filter (fun g => r.testBit g)
    if 5 < s.fld DRAM_CFG.RATE ∨ 2 < s.fld DRAM_CFG.DENSITY then .next (postRefused 12 DRAM_MAP.COMMIT.addr s)
    else if 1 < gs.length then
      .next (postEvent { cls := .fatal, block := 12, cause := 0x300, inst := 0xFF, detail := 0 }
        (s.setFlag DRAM_STATUS.DRAM_FAIL true))
    else
      let s := { s with dram := [], mem := { s.mem with committed := true, retired := gs, poison := [], bad := [], codeBuf := [] } }
      let s := (s.setFlag DRAM_STATUS.MAPPED true).setFld DRAM_STATUS.GROUPS (15 - r)
      let s := s.setFld DRAM_PEAK.MBS (peakOf (s.fld DRAM_CFG.RATE) (16 - 4 * gs.length))
      .next (gs.foldl (fun s g =>
        postEvent { cls := .warning, block := 12, cause := 0x301, inst := 4 * g, detail := g } s) s)

/-- Initialisation reaches the end of the data region (R389). -/
def execDramInitDone (s : State) : Host.Outcome State Fault Refusal :=
  if s.mem.committed then .next (s.setFlag DRAM_STATUS.INIT_DONE true) else .next s

/-- A write of 1 to RETIRE bits: set before COMMIT; after it, one group is fenced, in Intermission only (R395). -/
def execDramFence (retire : BitVec 4) (s : State) : Host.Outcome State Fault Refusal :=
  let s := busOk 0 s
  let gs := (List.range 4).filter (fun g => retire.toNat.testBit g)
  if gs.isEmpty then .next s
  else if s.mem.committed = false then .next (s.setFld DRAM_MAP.RETIRE (s.fld DRAM_MAP.RETIRE ||| retire.toNat))
  else if s.mode ≠ 6 ∨ (s.fld DRAM_MAP.FENCED ≠ 0 ∧ s.fld DRAM_MAP.FENCED ≠ retire.toNat) ∨ 1 < gs.length ∨ s.mem.retired.any (fun g => gs.contains g) then
    .next (postRefused 12 DRAM_MAP.RETIRE.addr s)
  else
    let s := (s.setFld DRAM_MAP.RETIRE (s.fld DRAM_MAP.RETIRE ||| retire.toNat)).setFld DRAM_MAP.FENCED retire.toNat
    .next (dramFlag DRAM_EVENT.FENCE .recoverable 0xFF 0 (abortPending (overwriteOpen none s)))

/-! ### Admission (R386) -/

/-- The admission check over configuration values `get` in mode `mode` with the domains that its mask powers: whether it
passes, with its traces in the registers and the DRAM event. -/
def admission (get : Fld → Nat) (mode mask : Nat) (s : State) : Bool × State :=
  let sum := ((List.range 4).map (fun p =>
    if (modeDomains mode mask).contains (6 + p) ∧ get (INGEST_CTRL.EN p) = 1 then
      (get (INGEST_CTRL.LANES p) + 1) * get (INGEST_RATE.MBPS p)
    else 0)).sum
  let demand := (sum + 400 * get DRAM_ADMIT.EXTRA) * 17       -- in MB/s / 64
  let limit := s.fld DRAM_PEAK.MBS * clamp 10 80 (get DRAM_ADMIT.PCT)  -- in MB/s / 100
  let ok := decide (demand * 100 ≤ limit * 64) && s.fld DRAM_MAP.FENCED == 0
  let s := (s.setFld DRAM_DEMAND.MBS (demand / 64)).setFlag DRAM_DEMAND.FAIL (!ok)
  if ok then (true, s)
  else
    (false, dramFlag DRAM_EVENT.ADMIT_REFUSED .warning 0xFF
      (min 0xFFFF (demand / 6400) * 65536 + min 0xFFFF (limit / 10000)) s)

/-! ### Training -/

/-- Where settings and training ops are allowed (R390, R392): Dawn before COMMIT, and Intermission. -/
def trnAllowed (s : State) : Bool := (s.mode == 1 && !s.mem.committed) || s.mode == 6

def settingKey (s : State) : Nat :=
  (s.fld DRAM_TRN_SEL.CH * 2 + s.fld DRAM_TRN_SEL.RANK) * 16 + s.fld DRAM_TRN_SEL.PARAM

/-- `DRAM_TRN_VAL` reads the selected setting (R392). -/
def trnVal (s : State) : Nat := if 10 < s.fld DRAM_TRN_SEL.PARAM then 0 else (keyGet s.mem.settings (settingKey s)).getD 0

/-- A write of `DRAM_TRN_VAL` sets the selected setting (R392). -/
def trnWrite (v : Nat) (s : State) : State :=
  if 10 < s.fld DRAM_TRN_SEL.PARAM ∨ trnAllowed s = false then postRefused 12 DRAM_TRN_VAL.VALUE.addr s
  else setMem { s.mem with settings := keySet s.mem.settings (settingKey s) (v % 512) } s

/-- The selected error count (`DRAM_ERR_VAL`). -/
def dramErr (s : State) : Nat :=
  if s.fld DRAM_ERR_SEL.KIND = 3 then 0
  else (keyGet s.mem.errors (s.fld DRAM_ERR_SEL.KIND * 16 + s.fld DRAM_ERR_SEL.CH)).getD 0

/-- A GO of `DRAM_TRN_CTRL` with operation `op` (R390). -/
def trnStart (op : Nat) (rank : Fin 2) (ch : BitVec 16) (s : State) : State :=
  let s := busOk 0 s
  if s.domainOn 21 = false then s
  else
    let s := ((s.setFld DRAM_TRN_CTRL.OP op).setFld DRAM_TRN_CTRL.RANK rank.val).setFld DRAM_TRN_CTRL.CH ch.toNat
    let chs := (List.range 16).filter (fun c => ch.getLsbD c && !s.mem.retired.contains (c / 4))
    let a := s.fld DRAM_TRN_RESULT.ADDR
    let last := chs.foldl max 0
    if op = 0 ∨ 9 < op ∨ s.mem.trnOp.isSome ∨ trnAllowed s = false ∨ a % 64 ≠ 0 ∨ a < 0x01000000 ∨
       0x01800000 < a + 32 * last + 32 then
      postRefused 12 DRAM_TRN_CTRL.GO.addr ((s.setFlag DRAM_TRN_CTRL.REFUSED true).setFlag DRAM_EVENT.TRN_REFUSED true)
    else
      setMem { s.mem with
        trnOp := some op, trnCh := (chs.map (fun c => 2 ^ c)).sum
        trnArgs := { rank := rank.val, arg := s.word DRAM_TRN_ARG.TO.addr, addr := a, val := trnVal s % 256 } }
        (s.setFlag DRAM_TRN_CTRL.BUSY true)

def execInit (rank : Fin 2) (ch : BitVec 16) (s : State) : Host.Outcome State Fault Refusal := .next (trnStart 1 rank ch s)
def execMrw (rank : Fin 2) (ch : BitVec 16) (s : State) : Host.Outcome State Fault Refusal := .next (trnStart 2 rank ch s)
def execMrr (rank : Fin 2) (ch : BitVec 16) (s : State) : Host.Outcome State Fault Refusal := .next (trnStart 3 rank ch s)
def execCa (rank : Fin 2) (ch : BitVec 16) (s : State) : Host.Outcome State Fault Refusal := .next (trnStart 4 rank ch s)
def execWck2ck (rank : Fin 2) (ch : BitVec 16) (s : State) : Host.Outcome State Fault Refusal := .next (trnStart 5 rank ch s)
def execWlev (rank : Fin 2) (ch : BitVec 16) (s : State) : Host.Outcome State Fault Refusal := .next (trnStart 6 rank ch s)
def execRdq (rank : Fin 2) (ch : BitVec 16) (s : State) : Host.Outcome State Fault Refusal := .next (trnStart 7 rank ch s)
def execWdq (rank : Fin 2) (ch : BitVec 16) (s : State) : Host.Outcome State Fault Refusal := .next (trnStart 8 rank ch s)
def execVerify (rank : Fin 2) (ch : BitVec 16) (s : State) : Host.Outcome State Fault Refusal := .next (trnStart 9 rank ch s)

/-- The values that a sweep tests (`DRAM_TRN_ARG`): FROM to TO in steps of STEP, of which 0 acts as 1; FROM alone when it lies
above TO. -/
def sweepValues (arg : Word) : List Nat :=
  let first := written arg DRAM_TRN_ARG.FROM
  let step := max 1 (written arg DRAM_TRN_ARG.STEP)
  (List.range ((written arg DRAM_TRN_ARG.TO - first) / step + 1)).map (fun i => first + i * step)

/-- The passing runs of a sweep, in order; `l` pairs each value with its failing comparisons (R391). -/
def passRuns (l : List (Nat × Nat)) : List (List Nat) :=
  (l.foldr (fun e acc => if e.2 = 0 then (e.1 :: acc.headD []) :: acc.tail else [] :: acc) [[]]).filter (fun r => !r.isEmpty)

/-- FIRST and LAST of a lane (R391): the ends of its longest passing run, of equally long ones the one that `tie` picks, or
0xFFFF. -/
def passEnds (runs : List (List Nat)) (tie : Nat) : Nat × Nat :=
  let long := runs.filter (fun r => runs.all (fun q => decide (q.length ≤ r.length)))
  match long.getD (tie % long.length) [] with
  | [] => (0xFFFF, 0xFFFF)
  | v :: r => (v, (v :: r).getLastD v)

/-- The bytes of a result record (R391). Ops 4 to 8 sweep; for ops 4 to 6 lane 1 repeats lane 0; ops 1 to 3 test nothing. -/
def recordTrn (op : Nat) (vals : List Nat) (r : TrnRecord) (mr : Nat) : List Byte :=
  let sweeps := decide (4 ≤ op) && decide (op ≤ 8)
  let fails1 := if op ≤ 6 then r.fails0 else r.fails1
  let runs (fails : List Nat) := if sweeps then passRuns (vals.zip fails) else []
  let ends (fails : List Nat) := passEnds (runs fails) r.tie
  let err (fails : List Nat) := if op ≤ 3 then 0 else (if sweeps then fails.take vals.length else fails).sum
  let noPass := sweeps && ((runs r.fails0).isEmpty || (runs fails1).isEmpty)
  let split := decide (1 < (runs r.fails0).length) || decide (1 < (runs fails1).length)
  padTo 32 (leBytes 2 (ends r.fails0).1 ++ leBytes 2 (ends r.fails0).2 ++ leBytes 2 (ends fails1).1 ++
    leBytes 2 (ends fails1).2 ++ leBytes 4 (err r.fails0) ++ leBytes 4 (err fails1) ++
    leBytes 1 (1 + 2 * boolNat noPass + 4 * boolNat split) ++ leBytes 1 mr)

/-- A record in which nothing was measured. -/
def trnNone : TrnRecord := { fails0 := [], fails1 := [], tie := 0, mr := 0 }

/-- The mode register that the op on channel `c` names: PARAM of its arguments on its rank (R390). -/
def trnRegister (c : Nat) (s : State) : Nat :=
  (c * 2 + s.mem.trnArgs.rank) * 256 + written s.mem.trnArgs.arg DRAM_TRN_ARG.PARAM

/-- What the op leaves on channel `c` beside its record: INIT resets the mode registers, MRW writes one (R390). -/
def trnEffect (op c : Nat) (s : State) : State :=
  if op = 1 then
    setMem { s.mem with modeRegs := s.mem.modeRegs.filter (fun e => e.1 / 256 != c * 2 + s.mem.trnArgs.rank) } s
  else if op = 2 then setMem { s.mem with modeRegs := keySet s.mem.modeRegs (trnRegister c s) s.mem.trnArgs.val } s
  else s

/-- The data offset of per-channel offset `o` of channel `c` of the map (R371). -/
def dramOffsetOf (s : State) (c o : Nat) : Nat :=
  let cs := dramChannels s
  (o / 256 * cs.length + (cs.findIdx (fun d => d == c))) * 256 + o % 256

/-- VERIFY has written its pattern over 1 MiB of channel `c` (R390). Which MiB of the data it is and the pattern's bytes are free values
(assumption 67); before COMMIT no data is there. -/
def verifyWrite (c : Nat) (s : State) : State :=
  if s.mem.committed = false then s
  else
    let first := (Config.openRead s.ticks c).toNat % (dramCc s / 16 * 15 / 2 ^ 20) * 2 ^ 20
    let pattern := written s.mem.trnArgs.arg DRAM_TRN_ARG.PATTERN
    (List.range 4096).foldl (fun s i =>
      s.writeDram (dramOffsetOf s c (first + 256 * i)) ((List.range 256).map (fun j => Config.trnPattern pattern (256 * i + j)))) s

/-- Writes that waited for the helper to end, in order (R390). -/
def heldWritten (s : State) : State :=
  let l := s.mem.held
  l.foldl (fun s w => if w.poison then s.writePoisoned w.at_ w.bytes else s.writeDram w.at_ w.bytes)
    (setMem { s.mem with held := [] } s)

/-- A helper ends: one record per channel in scratch SRAM (R390, R391), by the arguments that it took when it started; VERIFY has written
its pattern, and the writes that waited go on. MRR answers what MRW wrote, else what the device gives. Retraining a DQ delay in Intermission
clears DRIFT (R383). -/
def execDramTrnDone (records : List TrnRecord) (s : State) : Host.Outcome State Fault Refusal :=
  match s.mem.trnOp with
  | none => .next s
  | some op =>
    let chs := (List.range 16).filter (fun c => s.mem.trnCh.testBit c)
    let a := s.mem.trnArgs.addr - 0x01000000
    let vals := sweepValues s.mem.trnArgs.arg
    let s := chs.foldl (fun s c =>
      let r := records.getD c trnNone
      let mr := if op = 3 then (keyGet s.mem.modeRegs (trnRegister c s)).getD r.mr.toNat else 0
      (trnEffect op c s).writeScratch (a + 32 * c) (recordTrn op vals r mr)) s
    let s := setMem { s.mem with trnOp := none, trnCh := 0 } ((s.setFlag DRAM_TRN_CTRL.BUSY false).setFlag DRAM_TRN_CTRL.DONE true)
    let s := heldWritten (if op = 9 then chs.foldl (fun s c => verifyWrite c s) s else s)
    if s.mode = 6 ∧ (op = 7 ∨ op = 8) then
      let trained (e : Nat × Int) : Bool := chs.contains (e.1 / 4) && e.1 / 2 % 2 == s.mem.trnArgs.rank && e.1 % 2 == 8 - op
      .next (setMem { s.mem with tracked := s.mem.tracked.filter (fun e => !trained e) } (s.setFlag DRAM_STATUS.DRIFT false))
    else .next s

/-- `DRAM_CNT_CTRL.CLEAR`. -/
def execDramCounterClear (s : State) : Host.Outcome State Fault Refusal := .next (setMem { s.mem with errors := [] } (busOk 0 s))

/-! ### Panic (R379, R380) -/

/-- The FIFO of port 0 to 7 in 64-byte units (R379). -/
def fifoSize (p : Nat) : Nat := if p < 4 then 16384 else if p = 4 then 2048 else 4096

/-- Table 0 takes effect at a cue point: ports with an unusable panic level (R379). -/
def dramCuePoint (s : State) : State :=
  let bad (p : Nat) : Bool :=
    let w := s.tab 0x28 0 (4 * p) 4
    w.testBit 31 && (w % 65536 == 0 || decide (fifoSize p ≤ w % 65536))
  let s := setMem { s.mem with portOk := (List.range 8).map (fun p => !bad p) } s
  ((List.range 8).filter bad).foldl (fun s _ => dramFlag DRAM_EVENT.BAD_PORT .warning 0xFF 0 s) s

/-- The LEVEL of a port whose panic is enabled (R379). -/
def panicLevel (s : State) (p : Nat) : Option Nat :=
  let w := s.tab 0x28 0 (4 * p) 4
  if s.domainOn 21 && w.testBit 31 && s.mem.portOk.getD p false then some (w % 65536) else none

/-- The occupancy of a port's FIFO: how full it is depends on the traffic, a free value up to its size. -/
def fifoOcc (s : State) (p : Nat) : Nat := min (fifoSize p) (Config.fifoUnits s.ticks p)

/-- A FIFO with `occ` units is in panic: a write port at or above LEVEL, a read port at or below it (R380). -/
def panicFrom (p level occ : Nat) : Bool := if p < 4 then decide (level ≤ occ) else decide (occ ≤ level)

/-- A FIFO with `occ` units has left panic: one eighth of its size past LEVEL on the other side (R380). -/
def panicOver (p level occ : Nat) : Bool :=
  if p < 4 then decide (occ + fifoSize p / 8 ≤ level) else decide (level + fifoSize p / 8 ≤ occ)

/-- When the episode of a port began, if it is in panic. -/
def panicSince (s : State) (p : Nat) : Option Nat := (s.mem.panicAt[p]?).getD none

/-- An episode begins (R380): the first after a clear of EPISODES posts. -/
def panicBegin (p : Nat) (s : State) : State :=
  let first := s.fld DRAM_PANIC_CNT.EPISODES == 0
  let s := setMem { s.mem with panicAt := s.mem.panicAt.set p (some s.ticks) } (s.orBit DRAM_STATUS.PANIC p)
  let s := s.addFld DRAM_PANIC_CNT.EPISODES 1
  if first then dramFlag DRAM_EVENT.PANIC .info 0xFF 0 s else s

/-- An episode that began at tick `t` ends; MAX_US keeps the longest in whole microseconds (R380). -/
def panicEnd (p t : Nat) (s : State) : State :=
  let s := setMem { s.mem with panicAt := s.mem.panicAt.set p none } (s.clrBit DRAM_STATUS.PANIC p)
  s.setFld DRAM_PANIC_CNT.MAX_US (max (s.fld DRAM_PANIC_CNT.MAX_US) (min 0xFFFF ((s.ticks - t) / 400)))

/-- Panic of one port at a tick (R380); it ends also where a cue point has disabled it. -/
def panicPort (s : State) (p : Nat) : State :=
  match panicSince s p, panicLevel s p with
  | none, none => s
  | none, some l => if panicFrom p l (fifoOcc s p) then panicBegin p s else s
  | some t, none => panicEnd p t s
  | some t, some l => if panicOver p l (fifoOcc s p) then panicEnd p t s else s

/-- Panic of every port at a tick of the device clock. -/
def panicTick (s : State) : State := (List.range 8).foldl panicPort s

/-- No port is in panic, and none has panic enabled. -/
def panicIdle (s : State) : Bool := (List.range 8).all (fun p => (panicSince s p).isNone && (panicLevel s p).isNone)

end Sys2Proof.Machine
end

