-- ==== Sys2Proof/Machine/Hash.lean ====
section
/-! DEFINITION. The commands of the hash engines: linking (R286 to R292), detections and rehashes (R295, R296), coded
digests (R293), firmware hash jobs (R302), and the manifests the security engine signs (R297 to R300). -/

namespace Sys2Proof.Machine

/-- The frame is still to be linked: hashed, without a link, and not cut off by a loss of power (R282, R288). -/
def Frame.toLink (f : Frame) : Bool := f.hashed && !f.linked && !f.cut

/-- The next frame to be linked, the lowest-numbered one (R288). -/
def nextToLink (s : State) : Option Frame := s.ledger.frames.find? (fun f => f.toLink)

/-- Every frame that was to be linked is. -/
def chainQuiet (s : State) : Bool := s.ledger.frames.all (fun f => !f.toLink)

/-- A closed frame waits for an earlier one (`HASH_STATUS.LINK_WAIT`). -/
def linkWaits (s : State) : Bool :=
  match s.ledger.frames.filter (fun f => f.toLink) with
  | [] => false
  | f :: t => (!f.closed || !f.rehash.isEmpty) && t.any (fun g => g.closed)

/-- Link frame `f`: its digest, the sealed record with its entry's index, the new head, and the entry (R287, R288, R291).
-/
def linkFrame (f : Frame) (s : State) : State :=
  let f := { f with digestRef := s.fld HASH_DIG_WR.WR }
  let fd := frameDigest s f
  let link := sha3_512 (s.hash.link ++ fd ++ sealRecord (recordOf f))
  let s := digPut (digestHeader s f ++ fd ++ link ++ padTo 64 f.coded) s
  let s := modFrame f.num (fun x => { x with digestRef := f.digestRef, linked := true }) s
  ledgerShow (spillSettled (setHash { s.hash with link := link, link2 := link, lastFrame := f.num } s))

/-- Link the next frame if it has closed, the copies of the head compared; in an ended segment it begins a new one (R286, R288,
R290). -/
def linkNext (s : State) : State :=
  match nextToLink s with
  | none => s
  | some f =>
    if f.closed = false ∨ f.rehash.isEmpty = false ∨ s.domainOn 20 = false then s
    else
      let s := if s.hash.active ∧ s.hash.link ≠ s.hash.link2 then chainFault s else s
      linkFrame f (if s.hash.active then s else beginSegment f.num s)

/-- A copy of a head is upset before the link (R290). -/
def upsetChain (u : ChainUpset) (s : State) : State :=
  match u with
  | .none => s
  | .link => setHash { s.hash with link2 := upsetHead s.hash.link2 } s
  | .fin => setHash { s.hash with fin2 := upsetHead s.hash.fin2 } s

/-- A closed frame is linked once its predecessor is; `upset` names a head whose copy flips a bit first (R288, R290). -/
def execFrameLink (upset : ChainUpset) (s : State) : Host.Outcome State Fault Refusal := .next (linkNext (upsetChain upset s))

/-- Link every closed frame, as a mode transition that switches the engines off does first (R288). -/
def linkAll : Nat → State → State
  | 0, s => s
  | n + 1, s => linkAll n (linkNext s)

/-! ### Detections -/

/-- Stripe `k` of a frame fails: 0xFF digest, HASH_FAIL and its bit of FAIL_MASK, counted (R296). -/
def failStripe (num k : Nat) (s : State) : State :=
  let s := modFrame num (fun f => { f with
    rehash := f.rehash.filter (fun j => j != k), failMask := f.failMask ||| 2 ^ k }) s
  hashFlag HASH_EVENT.FAIL .warning (s.addFld HASH_CNT_FAIL.COUNT 1)

/-- A detection in a stripe: one rehash from the ring slot, or failure when it is the rehash that was hit or no ring copy
exists (R295, R296). -/
def stripeDetected (num k : Nat) (s : State) : State :=
  match frameOf s num with
  | none => s
  | some f =>
    if f.hashed = false ∨ f.linked ∨ stripeCount f.d.height ≤ k ∨ f.failMask.testBit k then s
    else if f.rehash.contains k ∨ f.slot.isNone then failStripe num k s
    else
      let s := modFrame num (fun f => { f with rehash := f.rehash ++ [k] }) s
      hashFlag HASH_EVENT.REHASH .info (s.addFld HASH_CNT_REHASH.COUNT 1)

/-- The coded digest of a frame is stored, and its entry in the ring when that is still there (R291, R292). -/
def storeCoded (num : Nat) (d : List Byte) (s : State) : State :=
  let s := setHash { s.hash with codedDue := keyDel s.hash.codedDue num
                                 codedHit := s.hash.codedHit.filter (fun n => n != num) } s
  match frameOf s num with
  | none => s
  | some f =>
    let s := modFrame num (fun f => { f with coded := d }) s
    let s := if f.linked ∧ digPresent s f.digestRef then s.writeDram (digAddr s f.digestRef + 0xC0) d else s
    settleWrites num s

/-- A detection in a coded digest restarts it once; a second writes 0xFF (R296). -/
def codedDetected (num : Nat) (s : State) : State :=
  if (keyGet s.hash.codedDue num).isNone then s
  else if s.hash.codedHit.contains num then storeCoded num ff64 s
  else setHash { s.hash with codedHit := s.hash.codedHit ++ [num] } s

/-- The firmware job ends (R302, R296). -/
def endHashJob (fail : Bool) (s : State) : State :=
  let s := setHash { s.hash with job := none, jobHit := false } (s.setFlag HASH_JOB_CTRL.BUSY false)
  let s := if fail then s.setFlag HASH_JOB_CTRL.FAIL true else s.setFlag HASH_JOB_CTRL.DONE true
  s.setFlag HASH_EVENT.JOB_DONE true

/-- A detection in the firmware job restarts it once; a second ends it with FAIL (R296). -/
def jobDetected (s : State) : State :=
  if s.hash.job.isNone then s
  else if s.hash.jobHit then endHashJob true s
  else setHash { s.hash with jobHit := true } s

def execHashDetection (target : HashTarget) (s : State) : Host.Outcome State Fault Refusal :=
  match target with
  | .stripe num k => .next (stripeDetected num k.val s)
  | .coded num => .next (codedDetected num s)
  | .job => .next (jobDetected s)

/-- Lines `a` up to, not including, `b` of a frame as its ring slot holds them. -/
def slotLines (s : State) (f : Frame) (k a b : Nat) : List (List Byte) :=
  (List.range (b - a)).map (fun i => s.dramBytes (slotAddr s f.port k + (a + i) * f.d.lineBytes) f.d.lineBytes)

/-- A rehash of stripe `stripe`, whose lines all stand in the slot, ends without detection: it stands, also when the frame is still
open, or fails for want of a clean ring copy (R295, R296). -/
def execHashRehashComplete (num : Nat) (stripe : Fin 64) (s : State) : Host.Outcome State Fault Refusal :=
  match frameOf s num with
  | none => .next s
  | some f =>
    if f.rehash.contains stripe.val = false then .next s
    else
      match f.slot with
      | none => .next (failStripe num stripe.val s)
      | some k =>
        let n := stripeCount f.d.height
        let a := stripe.val * f.d.height / n
        let b := (stripe.val + 1) * f.d.height / n
        if f.closed = false ∧ f.rows < b then .next s
        else if s.poisoned (slotAddr s f.port k + a * f.d.lineBytes) ((b - a) * f.d.lineBytes) then
          .next (failStripe num stripe.val (dramSeen (slotAddr s f.port k + a * f.d.lineBytes) ((b - a) * f.d.lineBytes) s))
        else
          let d := sha3_512 (ascii "ECD9600/STRIPE/1" ++ leBytes 4 stripe.val ++ leBytes 8 num ++ (slotLines s f k a b).flatten)
          .next (modFrame num (fun f => { f with
            rehash := f.rehash.filter (fun j => j != stripe.val), rehashed := true
            stripes := f.stripes.set stripe.val d, redone := if f.closed then f.redone else keySet f.redone stripe.val d }) s)

/-- The coded digest of a frame is finished (R293). -/
def execCodedDigestComplete (num : Nat) (s : State) : Host.Outcome State Fault Refusal :=
  match keyGet s.hash.codedDue num with
  | some d => .next (storeCoded num d s)
  | none => .next s

/-! ### Firmware jobs -/

/-- `HASH_JOB_CTRL.GO` (R302). -/
def execHashJob (s : State) : Host.Outcome State Fault Refusal :=
  let s := busOk 0 s
  let a := s.fld64 HASH_JOB_SRC_LO.ADDR HASH_JOB_SRC_HI.ADDR
  let n := s.fld HASH_JOB_LEN.BYTES
  if s.domainOn 20 = false then .next s
  else if s.hash.job.isSome ∨ n = 0 ∨ inDram s a n = false then
    .next (s.setFlag HASH_JOB_CTRL.REFUSED true)
  else .next (setHash { s.hash with job := some (dramOff a, n), jobHit := false } (s.setFlag HASH_JOB_CTRL.BUSY true))

/-- The job ends: the digest of the bytes, byte 0 in bits [7:0] of the first result register (R302). -/
def execHashJobComplete (s : State) : Host.Outcome State Fault Refusal :=
  match s.hash.job with
  | none => .next s
  | some (a, n) =>
    let d := sha3_512 (s.dramBytes a n)
    .next (poisonWarn 10 0xFF a n (endHashJob false
      ((List.range 16).foldl (fun s i => s.setFld (HASH_JOB_RES.DATA i) (leAt d (4 * i) 4)) s)))

/-- `HASH_CNT_CTRL.CLEAR` (R295, R296). -/
def execHashCounterClear (s : State) : Host.Outcome State Fault Refusal :=
  .next (((busOk 0 s).setFld HASH_CNT_REHASH.COUNT 0).setFld HASH_CNT_FAIL.COUNT 0)

/-! ### Second latches and manifests -/

/-- The values a manifest states, as they stand now (R297). -/
def latchNow (s : State) : SecondLatch :=
  { sec := s.time.sec.toNat, ns := s.time.ns, segment := s.hash.segment, segFirst := s.hash.segFirst,
    linkFrame := s.hash.lastFrame, finCount := s.hash.finCount, digLost := s.hash.digLost,
    spillLost := s.ledger.spillLost, link := s.hash.link, fin := s.hash.fin }

/-- The second latch (R297): shown in the HASH registers. -/
def secondLatch (s : State) : State :=
  if s.domainOn 20 = false then s
  else
    let l := latchNow s
    let s := setHash { s.hash with latch := some l } s
    let s := s.setFld64 HASH_LINK_FRAME_LO.DATA HASH_LINK_FRAME_HI.DATA l.linkFrame
    let s := s.setFld64 HASH_FIN_COUNT_LO.DATA HASH_FIN_COUNT_HI.DATA l.finCount
    (List.range 16).foldl (fun s i =>
      (s.setFld (HASH_LINK.DATA i) (leAt l.link (4 * i) 4)).setFld (HASH_FIN.DATA i) (leAt l.fin (4 * i) 4)) s

/-- Bytes 0x000 to 0x1BF of a manifest (R299), with SIGN_SEQ still to be given. -/
def manifestFields (s : State) (kind : Nat) (l : SecondLatch) (takeId fwData : List Byte) : List Byte :=
  let zero := zero64
  let flags := boolNat (s.trust.otp.sealSteps != 0) + 2 * boolNat (s.flag TRUST_STATUS.AVAIL_Q) +
    4 * boolNat s.hash.restarted + 8 * boolNat (l.segment != s.hash.signedSeg) + 16 * boolNat (s.flag KLINK_STATUS.FORMED)
  [0x45, 0x43, 0x44, 0x4D, 0x41, 0x4E, 0x49, 0x46] ++ leBytes 2 1 ++ leBytes 1 kind ++ leBytes 1 flags ++
  leBytes 4 s.hash.bootSeq ++ padTo 16 (deviceId s) ++ padTo 16 takeId ++ leBytes 4 (s.hash.signSeq + 1) ++
  leBytes 2 (s.fld TIME_ARRAY.INDEX) ++ leBytes 2 0 ++ leBytes 8 l.sec ++ leBytes 4 l.ns ++ leBytes 4 l.segment ++
  leBytes 8 l.segFirst ++ leBytes 8 l.linkFrame ++ leBytes 8 l.finCount ++ leBytes 4 l.digLost ++ leBytes 4 l.spillLost ++
  List.replicate 24 0 ++ padTo 64 l.link ++ padTo 64 l.fin ++ padTo 64 ((s.trust.image.map (·.fwDigest)).getD zero) ++
  padTo 64 ((s.trust.image.map (·.cfgDigest)).getD zero) ++ padTo 64 fwData

/-- A manifest request over latch `l` (R298). -/
def manifestStart (kind : Nat) (l : SecondLatch) (s : State) : State :=
  if lifecycleCode s = 0 then postRefused 2 TRUST_SIGN_CTRL.DOMAIN.addr (signRefused s)
  else if signBlocked s then signRefused s
  else
    match signBuffer s 5120 with
    | some a => signStart kind a (manifestFields s kind l (s.scratchBytes (a + 0x20) 16) (s.scratchBytes (a + 0x180) 64)) s
    | none => signRefused s

/-- The latch before the first second: the Reset values of the registers that show it (DEDUCED, assumption 69). -/
def latchZero : SecondLatch :=
  { sec := 0, ns := 0, segment := 0, segFirst := 0, linkFrame := 0, finCount := 0, digLost := 0, spillLost := 0,
    link := zero64, fin := zero64 }

/-- TRUST_SIGN_CTRL with DOMAIN 1: a checkpoint over the newest second latch (R298); none during a Company restart (R29). -/
def execCheckpoint (s : State) : Host.Outcome State Fault Refusal :=
  .next (if s.call.restart.isSome then s else manifestStart 1 (s.hash.latch.getD latchZero) (busOk 0 s))

/-- TRUST_SIGN_CTRL with DOMAIN 2: the final manifest of a take, over a latch of its own (R298); none during a Company restart (R29). -/
def execFinalManifest (s : State) : Host.Outcome State Fault Refusal :=
  .next (if s.call.restart.isSome then s else manifestStart 2 (latchNow s) (busOk 0 s))

/-- The prefix of the signed digest of each DOMAIN (R92, R300). -/
def signPrefix (domain : Nat) : List Byte :=
  if domain = 0 then ascii "ECD9600/ATTEST/1" else if domain = 1 then ascii "ECD9600/CKPT/1" else ascii "ECD9600/FINAL/1"

/-- The security engine finishes: the signed bytes stand in the buffer, DONE (R92, R300). A manifest is counted and the
next one compares its SEGMENT and RESTARTED with it (R299). -/
def execSignDone (s : State) : Host.Outcome State Fault Refusal :=
  match s.trust.sign with
  | none => .next s
  | some j =>
    let out := signedBytes s (signPrefix j.domain) j.latch
    let s := { s with free := s.free + 1, trust := { s.trust with sign := none } }
    let s := ((s.writeScratch j.addr out).setFlag TRUST_SIGN_CTRL.BUSY false).setFlag TRUST_SIGN_CTRL.DONE true
    if j.domain = 0 then .next s
    else .next (setHash { s.hash with signSeq := s.hash.signSeq + 1, signedSeg := leAt j.latch 0x44 4, restarted := false } s)

end Sys2Proof.Machine
end

