-- ==== Sys2Proof/Machine/HeveCore.lean ====
section
/-! DEFINITION. Configurations of the H.265 encoders (R331, R333, R343, R345, R346, R355, R359), the slices of a picture
(R343, R345), the Spotlight condition (R348, R349) and floor mode (R352, R353). -/

namespace Sys2Proof.Machine

/-- A field of the registers an engine latches, `HEVE_CTRL` to `HEVE_REF_SIZE` (R339). -/
def latched (cfg : List Word) (f : Nat → Fld) : Nat :=
  (cfg.getD (((f 0).addr - 0x180000) / 4) 0).toNat / 2 ^ (f 0).lo % 2 ^ (f 0).width

/-- The shadowed registers of engine `e` as they stand. -/
def heveRegs (s : State) (e : Nat) : List Word := (List.range 17).map (fun i => s.word (0x180000 + 0x8000 * e + 4 * i))

/-- `HEVE_CTRL`, `HEVE_STRUCT` and `HEVE_RATE` to `HEVE_VUI`: a change of these starts a new sequence (R339). -/
def seqRegs (cfg : List Word) : List Word := [0, 2, 4, 5, 6, 7, 8, 9].map (fun i => cfg.getD i 0)

/-- The largest bit depth of a PROFILE (R331). -/
def profileDepth (p : Nat) : Nat := if p = 1 then 8 else if p = 4 then 12 else 10

/-- Limits of a level of ITU-T H.265 Annex A: luma picture size, luma sample rate, and bit rate and CPB size in units of
the profile's factor, Main and High tier (PRESUMED, assumption 76). -/
def levelLimits (idc : Nat) : Option (Nat × Nat × Nat × Nat) :=
  if idc = 93 then some (983040, 33177600, 10000, 0)
  else if idc = 120 then some (2228224, 66846720, 12000, 30000)
  else if idc = 123 then some (2228224, 133693440, 20000, 50000)
  else if idc = 150 then some (8912896, 267386880, 25000, 100000)
  else if idc = 153 then some (8912896, 534773760, 40000, 160000)
  else if idc = 156 then some (8912896, 1069547520, 60000, 240000)
  else if idc = 180 then some (35651584, 1069547520, 60000, 240000)
  else if idc = 183 then some (35651584, 2139095040, 120000, 480000)
  else if idc = 186 then some (35651584, 4278190080, 240000, 800000)
  else none

/-- The NAL factor of a PROFILE in bits (PRESUMED, assumption 76). -/
def nalFactor (p : Nat) : Nat := if p = 3 then 1833 else if p = 4 then 2200 else 1100

/-! ### The coded picture -/

/-- Sizes of one source: width, height, FORMAT, DEPTH. -/
def HeadOut.size (o : HeadOut) : Nat × Nat × Nat × Nat :=
  let d := parseHead o.desc
  (d.ow, d.oh, d.format, d.depth)

/-- The head descriptor that a half of a picture is made with: its source's, or the active one of the engine's port. -/
def halfDesc (s : State) (o : Option HeadOut) (e : Nat) : List Byte :=
  match o with
  | some o => o.desc
  | none => headDescBytes (s.table 0x08 6) (s.fld (HEVE_CTRL.PORT e)) 0

def ctuCount (n : Nat) : Nat := ceilDiv n 64

/-- `n` CTUs divided uniformly into `k` parts: the size of part `i`. -/
def uniformPart (n k i : Nat) : Nat := (i + 1) * n / k - i * n / k

/-- A tile column: its first CTU column, its CTU columns, its engine. -/
structure TileCol where
  x : Nat
  size : Nat
  engine : Nat
  deriving DecidableEq, Repr

/-- `n` CTU columns from column `x0` in `k` uniform tile columns. -/
def tileRun (x0 n k : Nat) (engine : Nat → Nat) : List TileCol :=
  (List.range k).map (fun i => { x := x0 + i * n / k, size := uniformPart n k i, engine := engine i })

/-- The tile columns: uniform over the picture, or over each half of a mosaic (R343, R345, R346). -/
def tileCols (cols leftCols gang wl wr : Nat) : List TileCol :=
  if gang = 2 then tileRun 0 wl (cols / 2) (fun _ => 0) ++ tileRun wl wr (cols / 2) (fun _ => 1)
  else tileRun 0 (wl + wr) cols (fun i => if gang = 1 ∧ leftCols ≤ i then 1 else 0)

/-- Luma samples of a tile column of a picture of `wl` and `wr` luma samples, whose right half begins at CTU column `cl`. -/
def TileCol.samples (c : TileCol) (gang cl wl wr : Nat) : Nat :=
  let (x, w) := if gang = 2 ∧ c.engine = 1 then (c.x - cl, wr) else (c.x, if gang = 2 then wl else wl + wr)
  min w (64 * (x + c.size)) - min w (64 * x)

/-- The CTUs of a slice by column and row, in coding order. -/
def SlicePlan.ctuAt (p : SlicePlan) : List (Nat × Nat) := (List.range p.ctus).map (fun i => (p.x + i % p.cols, p.y + i / p.cols))

/-- Slices numbered by the CTUs of their engine before them. -/
def numberSlices : List SlicePlan → Nat → Nat → List SlicePlan
  | [], _, _ => []
  | p :: t, a, b =>
    if p.engine = 0 then { p with first := a } :: numberSlices t (a + p.ctus) b
    else { p with first := b } :: numberSlices t a (b + p.ctus)

/-- The slices of a picture of `wl + wr` CTU columns and `rows` CTU rows, in the order they are emitted (R343, R345). -/
def planSlices (cfg : List Word) (gang wl wr rows : Nat) : List SlicePlan :=
  let tc := latched cfg HEVE_STRUCT.TILE_COLS
  let sr := latched cfg HEVE_STRUCT.SLICE_ROWS
  let n := if sr = 0 then 1 else ceilDiv rows sr
  numberSlices
    (if tc = 1 then
      (List.range n).map (fun i =>
        let a := i * sr
        let b := if sr = 0 then rows else min rows (a + sr)
        { ctus := (b - a) * (wl + wr), engine := 0, lastRow := b - 1, x := 0, y := a, cols := wl + wr, first := 0 })
    else
      ((List.range n).map (fun r =>
        (tileCols tc (tc / 2) gang wl wr).map (fun c =>
          { ctus := c.size * uniformPart rows n r, engine := c.engine, lastRow := (r + 1) * rows / n - 1
            x := c.x, y := r * rows / n, cols := c.size, first := 0 }))).flatten) 0 0

/-- The reserve of a whole IDR picture (R355). -/
def idrReserve (slices ctus : Nat) : Nat := 1024 + 4096 + slices * 640 + ctus * 160

/-- Whether a latched configuration breaks a rule that R339 names: R331, R333, R343, R345, R346, R355, R359, or the register
tables of HEVE. `l` and `r` are the heads of the picture's halves; `e2` says that engine 1 is enabled. -/
def heveInvalid (cfg : List Word) (gang : Nat) (e2 : Bool) (l r : Nat × Nat × Nat × Nat) : Bool :=
  let f := latched cfg
  let (wl, h, fmt, depth) := l
  let wr := if gang = 2 then r.1 else 0
  let w := wl + wr
  let prof := f HEVE_CTRL.PROFILE
  let tc := f HEVE_STRUCT.TILE_COLS
  let ts := f HEVE_TIME_SCALE.SCALE
  let tick := f HEVE_TICK.TICK
  let rate := f HEVE_RATE.KBPS * 1000
  let cpb := f HEVE_CPB.KBIT * 1000
  let delay := f HEVE_CPB_INIT.DELAY_90K
  let cl := ctuCount wl
  let cr := ctuCount wr
  let rows := ctuCount h
  let slices := planSlices cfg gang cl cr rows
  let reserve := idrReserve slices.length ((cl + cr) * rows)
  let cols := tileCols tc (tc / 2) gang cl cr
  let refs := clamp 1 2 (f HEVE_GOP.REFS)
  let samples := 4096 * ((cl + cr) * rows) * 2
  let refNeed := (refs + 1) * ceilDiv (if fmt = 1 then samples * 2 else samples * 3 / 2) (2 ^ 20)
  let ring := 2 ^ clamp 20 31 (f HEVE_OUT_SIZE.LOG2)
  let level := levelLimits (f HEVE_CTRL.LEVEL_IDC)
  let high := f HEVE_CTRL.TIER = 1
  let standard := match level with
    | none => false
    | some (ps, sr, main, hi) =>
      let lim := if high then hi else main
      decide (w * h ≤ ps) && decide (w * w ≤ 8 * ps) && decide (h * h ≤ 8 * ps) && decide (w * h * ts ≤ sr * tick) &&
      decide (rate ≤ lim * nalFactor prof) && decide (cpb ≤ lim * nalFactor prof)
  !(decide (1 ≤ prof) && decide (prof ≤ 4) && (if prof ≤ 2 then fmt == 2 else fmt == 1 || fmt == 2) &&
    decide (64 ≤ w) && decide (64 ≤ h) && decide (h ≤ 4320) && decide (wl ≤ (if gang = 1 then 16384 else 8192)) &&
    decide (wr ≤ 8192) && (gang != 0 || f HEVE_CTRL.LEVEL_IDC != 186) && standard &&
    decide (w * h * ts ≤ (if gang = 0 then 2123366400 else 4246732800) * tick) &&
    decide (rate ≤ (if gang = 0 then 960000000 else 1920000000)) && ts != 0 && tick != 0 &&
    !(f HEVE_STRUCT.WPP == 1 && decide (1 < tc)) && tc != 0 && decide (tc ≤ 8) &&
    (tc == 1 || cols.all (fun c => decide (256 ≤ c.samples gang cl wl wr))) && decide (slices.length ≤ 255) &&
    decide (slices.length ≤ 440) && (gang == 0 || (e2 && tc % 2 == 0)) &&
    (gang != 2 || (h == r.2.1 && fmt == r.2.2.1 && depth == r.2.2.2 && wl % 64 == 0)) &&
    decide (rate * tick ≤ cpb * ts) && decide (rate * delay ≤ cpb * 90000) && decide (reserve * ts ≤ rate * tick) &&
    decide (reserve * 90000 ≤ rate * delay) && decide (cpb / 8 + 65536 ≤ ring) &&
    decide (refNeed ≤ f HEVE_REF_SIZE.MIB))

/-! ### Source headers (R166) -/

def srcFlags (s : State) (o : HeadOut) : Nat := leNat (s.bufBytes (o.addr + 6) 2)
def srcDone (s : State) (o : HeadOut) : Bool := (srcFlags s o).testBit 8
def srcLines (s : State) (o : HeadOut) : Nat := leNat (s.bufBytes (o.addr + 0x28) 4)
def srcFs (s : State) (o : HeadOut) : Nat :=
  leNat (s.bufBytes (o.addr + 0x18) 8) * 1000000000 + leNat (s.bufBytes (o.addr + 0x20) 4)

/-! ### The Spotlight map (R348, R349) -/

/-- The source stream of a picture is the stream that the scene cells observe. -/
def srcObserved (s : State) (o : HeadOut) : Bool := cellObserves s (o.src / 64) (o.src / 16 % 4)

/-- The frame of map slot `k`, and whether the slot is complete (R201). -/
def slotFrame (s : State) (k : Nat) : Nat × Bool :=
  let a := dramOff (mapBase s) + 131072 * k
  let b := s.dramBytes a 0x1C
  (leAt b 8 8, b.take 4 == [0x45, 0x43, 0x4D, 0x50] && leAt b 0x14 4 == 1 && leAt b 4 2 != 0)

/-- The map slot that a picture of frame `num` uses, as a DRAM offset. -/
def usableSlot (s : State) (spotSrc : Bool) (num : Nat) : Option Nat :=
  if s.flag CELL_MAP_CTRL.EN = false ∨ s.cell.mapOk = false then none
  else
    let at_ (k : Nat) := dramOff (mapBase s) + 131072 * k
    if spotSrc = false then
      let k := num % mapSlots s
      if slotFrame s k = (num, true) then some (at_ k) else none
    else
      let ks := (List.range (mapSlots s)).filter (fun k => (slotFrame s k).2 && decide ((slotFrame s k).1 < num))
      let best := ks.foldl (fun b k => match b with
        | none => some k
        | some j => if (slotFrame s j).1 < (slotFrame s k).1 then some k else some j) none
      best.bind (fun k => if num ≤ (slotFrame s k).1 + 8 then some (at_ k) else none)

/-- The QP offset of CTU (cx, cy) of a source, from the map slot at `a` (R348). -/
def ctuOffset (s : State) (o : HeadOut) (fw fh a cx cy : Nat) : Int :=
  let d := parseHead o.desc
  let (x, y) := headPoint d fw fh (min (64 * cx + 32) (d.ow - 1)) (min (64 * cy + 32) (d.oh - 1))
  let hdr := s.dramBytes a 0x1C
  let cols := leAt hdr 4 2
  let id := y / max 1 (leAt hdr 0x1A 2) * cols + x / max 1 (leAt hdr 0x18 2)
  toSigned 8 (leNat (s.dramBytes (a + 0x40 + 2 * id) 1))

/-- The QP offsets of a half, row by row, and whether its map is missing. -/
def halfOffsets (s : State) (cfg : List Word) (o : Option HeadOut) (w h : Nat) : List (List Int) × Bool :=
  let none_ := (List.range (ctuCount h)).map (fun _ => List.replicate (ctuCount w) (0 : Int))
  match o with
  | none => (none_, false)
  | some o =>
    if latched cfg HEVE_CTRL.SPOT = 0 ∨ srcObserved s o = false then (none_, false)
    else
      match usableSlot s (latched cfg HEVE_CTRL.SPOT_SRC == 1) o.num with
      | none => (none_, true)
      | some a =>
        let sz := ((s.ledger.frames.find? (fun f => f.num == o.num)).map (fun f => (f.d.width, f.d.height))).getD
          (s.cell.size.getD (w, h))
        ((List.range (ctuCount h)).map (fun cy =>
          (List.range (ctuCount w)).map (fun cx => ctuOffset s o sz.1 sz.2 a cx cy)), false)

/-- The map condition of R349: the picture waits for the map of its own frame. -/
def mapWaits (s : State) (cfg : List Word) (o : Option HeadOut) : Bool :=
  match o with
  | none => false
  | some o =>
    latched cfg HEVE_CTRL.SPOT == 1 && latched cfg HEVE_CTRL.SPOT_SRC == 0 && srcObserved s o &&
    (usableSlot s false o.num).isNone

/-! ### Floor mode (R352, R353) -/

/-- The bound charged for the normal coding of a CTU: 7 bits for each context-coded bin, 1 for each bypass bin, and 8 (R352). -/
def ctuBound (c : CtuCost) : Nat := 7 * c.ctx + c.bypass + 8

/-- The bits of a coded CTU, which never exceed its bound (R352). -/
def ctuBits (c : CtuCost) : Nat := min c.actual (ctuBound c)

/-- What the CTUs coded so far charge: bounds for the last `k`, actual bits for those before (R352). -/
def chargeOf (done : List CtuCost) (k : Nat) : Nat :=
  ((done.take k).map ctuBound).sum + ((done.drop k).map ctuBits).sum

/-- The CTUs of one engine, slice by slice, against its budget: how many are coded normally. `left` is the CTUs after
the current one, `done` those coded, newest first; `base` the overheads charged, `slicesLeft` the slices after the
current one, `room` the CTUs of the current slice still to code. -/
def codeNormally (budget floor : Nat) : List CtuCost → Nat → List Nat → Nat → List CtuCost → Nat
  | [], _, _, _, done => done.length
  | c :: t, room, later, base, done =>
    let (room, later, base) := match room, later with
      | 0, n :: r => (n, r, base + 640)
      | m, r => (m, r, base)
    let reserve := floor * t.length + 640 * later.length
    if base + chargeOf done c.pending + ctuBound c + reserve ≤ budget then
      codeNormally budget floor t (room - 1) later base (c :: done)
    else done.length

/-- CTUs of one engine that floor mode codes: of the costs `cs`, slice by slice. -/
def floored (budget : Nat) (idr : Bool) (overhead : Nat) (slices : List Nat) (cs : List CtuCost) : Nat :=
  cs.length - codeNormally budget (if idr then 160 else 32) cs 0 slices overhead []

end Sys2Proof.Machine
end

