-- ==== Sys2Proof/Machine/Ranorid.lean ====
section
/-! DEFINITION. The Ranorid raw format to the bit (R256 to R274, R278, R279): grids, planes, the cell bitstream in both
directions, the layout of a coded frame, and the decoding of one. -/

namespace Sys2Proof.Machine

/-! ### Grids and planes -/

/-- The nominal cell size of an entry (R254, R256). -/
def entryCell (e : List Byte) (o : Nat) : Nat := 16 * (if leAt e o 1 = 0 then 4 else leAt e o 1)

/-- An entry is invalid (R255); the sizes are judged as they act, 0 as 4. -/
def entryInvalid (e : List Byte) : Bool :=
  leAt e 0 1 % 4 == 3 || decide (64 < leAt e 2 1) || decide (64 < leAt e 3 1) ||
  decide (65536 < entryCell e 2 * entryCell e 3)

/-- Double CELL_W, then CELL_H, and so on, until the grid has at most 65,536 cells (R257). -/
def doubleGrid (w h : Nat) : Nat → Bool → Nat → Nat → Nat × Nat
  | 0, _, cw, ch => (cw, ch)
  | n + 1, wide, cw, ch =>
    if gridCells w h cw ch ≤ 65536 then (cw, ch)
    else if wide then doubleGrid w h n false (2 * cw) ch else doubleGrid w h n true cw (2 * ch)

/-- Every second element, from the first. -/
def evens {α : Type} : List α → List α
  | [] => []
  | [x] => [x]
  | x :: _ :: t => x :: evens t

/-- Every second element, from the second. -/
def odds {α : Type} (l : List α) : List α := evens (l.drop 1)

/-- The planes of a cell as rows of samples, in ascending order (R259). -/
def planesOf (mono : Bool) (rows : List (List Nat)) : List (List (List Nat)) :=
  if mono then [rows]
  else [(evens rows).map evens, (evens rows).map odds, (odds rows).map evens, (odds rows).map odds].filter (fun p => !p.isEmpty)

/-- Two lists interleaved. -/
def interleave {α : Type} : List α → List α → List α
  | [], b => b
  | x :: a, b => match b with
    | [] => x :: a
    | y :: b => x :: y :: interleave a b

/-- The rows of a cell from its planes (R259). -/
def unplanes (mono : Bool) (ps : List (List (List Nat))) : List (List Nat) :=
  if mono then ps.getD 0 []
  else
    let row (a b : List (List Nat)) := (a.zip b).map (fun p => interleave p.1 p.2)
    interleave (row (ps.getD 0 []) (ps.getD 1 [])) (row (ps.getD 2 []) (ps.getD 3 []))

/-- Width and height of each plane of a cell of `w` by `h` pixels (R259). -/
def planeSizes (mono : Bool) (w h : Nat) : List (Nat × Nat) :=
  if mono then [(w, h)]
  else [(w / 2, (h + 1) / 2), (w / 2, (h + 1) / 2), (w / 2, h / 2), (w / 2, h / 2)].filter (fun p => p.2 != 0)

/-! ### The cell bitstream (R269 to R271) -/

/-- `n` bits of `v`, most significant first. -/
def msbBits (n v : Nat) : List Bool := (List.range n).map (fun i => v.testBit (n - 1 - i))

/-- The value of a bit string, most significant first. -/
def bitsVal (bs : List Bool) : Nat := bs.foldl (fun v b => 2 * v + boolNat b) 0

/-- Bits as bytes from bit 7 down, padded with zeros to a multiple of 64 bits (R269). -/
def packBitsN : Nat → List Bool → List Byte
  | 0, _ => []
  | n + 1, bs => BitVec.ofNat 8 (bitsVal (bs.take 8 ++ List.replicate (8 - bs.length) false)) :: packBitsN n (bs.drop 8)

def packBits (bs : List Bool) : List Byte := packBitsN (8 * ceilDiv bs.length 64) bs

def unpackBits (bs : List Byte) : List Bool := (bs.map (fun b => msbBits 8 b.toNat)).flatten

/-- A context: its count and accumulator. -/
abbrev Contexts := List (Nat × Nat)

/-- Contexts afresh (R270). -/
def freshContexts (w : Nat) : Contexts := List.replicate 14 (1, 2 ^ (w - 8))

/-- The number of bits of `v`. -/
def bitLen (v : Nat) : Nat := if v = 0 then 0 else v.log2 + 1

/-- The predictor (R270). -/
def predict (left up ul : Nat) : Nat :=
  if max left up ≤ ul then min left up else if ul ≤ min left up then max left up else left + up - ul

def absDiff (a b : Nat) : Nat := max a b - min a b

/-- The context of a sample (R270). -/
def contextOf (w left up ul : Nat) : Nat := bitLen ((absDiff left ul + absDiff up ul) * 4 / 2 ^ (w - 10))

/-- The Rice parameter: the least k with cnt · 2^k at least acc, at most w (R270). -/
def riceK (w cnt acc : Nat) : Nat := ((List.range w).find? (fun k => decide (acc ≤ cnt * 2 ^ k))).getD w

/-- A context after residual code `m` (R270). -/
def updateContext (c : Nat × Nat) (m : Nat) : Nat × Nat :=
  if c.1 + 1 = 64 then (32, (c.2 + m) / 2) else (c.1 + 1, c.2 + m)

/-- The residual of code `m` (R270). -/
def residual (m : Nat) : Int := if m % 2 = 0 then ((m / 2 : Nat) : Int) else -(((m + 1) / 2 : Nat) : Int)

/-- The code of residual `x − pred` under bound `e` (R271). -/
def codeOf (x pred e : Nat) : Nat :=
  if pred ≤ x then 2 * ((x - pred + e) / (2 * e + 1))
  else
    let q := (pred - x + e) / (2 * e + 1)
    if q = 0 then 0 else 2 * q - 1

/-- The reconstructed sample (R270). -/
def reconstruct (w pred m e : Nat) : Nat :=
  (max 0 (min ((2 ^ w - 1 : Nat) : Int) ((pred : Int) + residual m * ((2 * e + 1 : Nat) : Int)))).toNat

/-- The bits that code `m` (R271). -/
def codeBits (w k m : Nat) : List Bool :=
  if m / 2 ^ k < 24 then List.replicate (m / 2 ^ k) false ++ [true] ++ msbBits k m
  else List.replicate 24 false ++ msbBits (w + 1) m

/-- Code one sample; answers the contexts, the reconstruction and the bits. -/
def encSample (w e : Nat) (cs : Contexts) (left up ul x : Nat) : Contexts × Nat × List Bool :=
  let pred := predict left up ul
  let i := contextOf w left up ul
  let c := cs.getD i (1, 0)
  let m := codeOf x pred e
  (cs.set i (updateContext c m), reconstruct w pred m e, codeBits w (riceK w c.1 c.2) m)

/-- Neighbours left, up and upper left of a sample (R270): `last` is the sample before it with the one above that, `above`
the sample above it, none in the first row. -/
def neighbours (w : Nat) (last : Option (Nat × Nat)) (above : Option Nat) : Nat × Nat × Nat :=
  match last, above with
  | none, none => (2 ^ (w - 1), 2 ^ (w - 1), 2 ^ (w - 1))
  | some (l, _), none => (l, l, l)
  | none, some u => (u, u, u)
  | some (l, ul), some u => (l, u, ul)

/-- Code a row of a plane; `ups` is the row above, empty in the first row. Bits are gathered in reverse. -/
def encRow (w e : Nat) : List Nat → List Nat → Option (Nat × Nat) → Contexts → List Bool → Contexts × List Nat × List Bool
  | [], _, _, cs, out => (cs, [], out)
  | x :: xs, ups, last, cs, out =>
    let n := neighbours w last ups.head?
    let (cs, p, bs) := encSample w e cs n.1 n.2.1 n.2.2 x
    let (cs, ps, out) := encRow w e xs ups.tail (some (p, ups.headD 0)) cs (bs.reverse ++ out)
    (cs, p :: ps, out)

/-- Code the rows of a plane. -/
def encRows (w e : Nat) : List (List Nat) → List Nat → Contexts → List Bool → Contexts × List Bool
  | [], _, cs, out => (cs, out)
  | r :: rs, ups, cs, out =>
    let (cs, ps, out) := encRow w e r ups none cs out
    encRows w e rs ps cs out

/-- The coded payload of a cell (R270, R271). -/
def encodeCell (w e : Nat) (planes : List (List (List Nat))) : List Byte :=
  packBits (planes.foldl (fun (a : Contexts × List Bool) p => encRows w e p [] a.1 a.2) (freshContexts w, [])).2.reverse

/-- The verbatim payload of a cell (R269). -/
def verbatimCell (w : Nat) (planes : List (List (List Nat))) : List Byte := packBits ((planes.flatten.flatten.map (msbBits w)).flatten)

/-! ### Decoding a cell -/

/-- Count leading zero bits up to 24; the ending 1 bit is consumed when fewer (R270). -/
def readPrefix : Nat → List Bool → Option (Nat × List Bool)
  | 0, bs => some (0, bs)
  | _ + 1, [] => none
  | n + 1, b :: bs => if b then some (0, bs) else (readPrefix n bs).map (fun r => (r.1 + 1, r.2))

/-- Read `n` bits. -/
def readBits (n : Nat) (bs : List Bool) : Option (Nat × List Bool) :=
  if bs.length < n then none else some (bitsVal (bs.take n), bs.drop n)

/-- Read one residual code; none when the payload ends or the code is out of range (R279). -/
def readCode (w k : Nat) (bs : List Bool) : Option (Nat × List Bool) :=
  match readPrefix 24 bs with
  | none => none
  | some (u, r) =>
    let x := if u = 24 then readBits (w + 1) r else (readBits k r).map (fun v => (u * 2 ^ k + v.1, v.2))
    x.bind (fun v => if v.1 ≤ 2 ^ (w + 1) - 2 then some v else none)

/-- Decode a row of `n` samples. -/
def decRow (w e : Nat) : Nat → List Nat → Option (Nat × Nat) → Contexts → List Bool → Option (Contexts × List Nat × List Bool)
  | 0, _, _, cs, bs => some (cs, [], bs)
  | n + 1, ups, last, cs, bs =>
    let nb := neighbours w last ups.head?
    let i := contextOf w nb.1 nb.2.1 nb.2.2
    let c := cs.getD i (1, 0)
    match readCode w (riceK w c.1 c.2) bs with
    | none => none
    | some (m, bs) =>
      let p := reconstruct w (predict nb.1 nb.2.1 nb.2.2) m e
      match decRow w e n ups.tail (some (p, ups.headD 0)) (cs.set i (updateContext c m)) bs with
      | none => none
      | some (cs, ps, bs) => some (cs, p :: ps, bs)

/-- Decode `h` rows of `n` samples. -/
def decRows (w e n : Nat) : Nat → List Nat → Contexts → List Bool → Option (Contexts × List (List Nat) × List Bool)
  | 0, _, cs, bs => some (cs, [], bs)
  | h + 1, ups, cs, bs =>
    match decRow w e n ups none cs bs with
    | none => none
    | some (cs, r, bs) =>
      match decRows w e n h r cs bs with
      | none => none
      | some (cs, rs, bs) => some (cs, r :: rs, bs)

/-- Decode the planes of a cell one after the other (R270). -/
def decPlanes (w e : Nat) : List (Nat × Nat) → Contexts → List Bool → Option (List (List (List Nat)))
  | [], _, _ => some []
  | p :: ps, cs, bs =>
    match decRows w e p.1 p.2 [] cs bs with
    | none => none
    | some (cs, rs, bs) => (decPlanes w e ps cs bs).map (fun l => rs :: l)

/-- Samples of a verbatim payload cut into the rows of the planes. -/
def rawPlanes (w : Nat) : List (Nat × Nat) → List Bool → Option (List (List (List Nat)))
  | [], _ => some []
  | p :: ps, bs =>
    if bs.length < p.1 * p.2 * w then none
    else
      let rows := (List.range p.2).map (fun j => (List.range p.1).map (fun i => bitsVal ((bs.drop ((j * p.1 + i) * w)).take w)))
      (rawPlanes w ps (bs.drop (p.1 * p.2 * w))).map (fun l => rows :: l)

/-- The rows of a cell from its header word and payload; none when it is malformed (R265, R279). -/
def decodeCell (w : Nat) (mono : Bool) (cw ch word : Nat) (payload : List Byte) : Option (List (List Nat)) :=
  let sizes := planeSizes mono cw ch
  let bs := unpackBits payload
  let ps := if bits word 31 30 = 0 then decPlanes w (bits word 29 26) sizes (freshContexts w) bs
    else if bits word 31 30 = 1 then rawPlanes w sizes bs else none
  ps.map (unplanes mono)

/-! ### A coded cell -/

/-- The error bound of class `c` in an entry (R254). -/
def entryBound (e : List Byte) (c : Nat) : Nat := min 15 (leAt e (4 + c) 1)

def entryPasses (e : List Byte) : Nat := clamp 1 5 (leAt e 1 1)

/-- The error bounds of the passes from bound `b` on (R262). -/
def passBounds : Nat → Nat → List Nat
  | 0, _ => []
  | n + 1, b => b :: (if b = 15 then [] else passBounds n (min 15 (2 * b + 1)))

/-- The pass a budgeted cell keeps: the first within the target, else the smallest, the earliest of equals (R262). -/
def pickPass (target : Nat) (ps : List (Nat × List Byte)) : Option (Nat × List Byte) :=
  match ps.find? (fun p => decide (8 + p.2.length ≤ target)) with
  | some p => some p
  | none => ps.foldl (fun b p => match b with
    | none => some p
    | some q => if p.2.length < q.2.length then some p else some q) none

/-- The error bound and payload of a cell of `n` pixels in class `c` (R261, R262). -/
def codeCell (w : Nat) (e : List Byte) (c n : Nat) (planes : List (List (List Nat))) : Nat × List Byte :=
  let mode := leAt e 0 1 % 4
  if mode = 2 then
    let t := leAt e 8 2
    let target := if t = 0 then 0 else 8 + ceilDiv (n * t) 2048
    let ps := (passBounds (entryPasses e) (entryBound e c)).map (fun b => (b, encodeCell w b planes))
    (pickPass target ps).getD (0, [])
  else
    let b := if mode = 1 then entryBound e c else 0
    (b, encodeCell w b planes)

/-- A cell with its header (R265): KIND, E, class, DAMAGED, RECODED, POISON, length, CRC. -/
def cellBytes (kind e cls : Nat) (damaged recoded poison : Bool) (payload : List Byte) : List Byte :=
  leBytes 4 (kind * 2 ^ 30 + e * 2 ^ 26 + cls * 2 ^ 24 + boolNat damaged * 2 ^ 23 + boolNat recoded * 2 ^ 22 +
    boolNat poison * 2 ^ 21 + payload.length / 8) ++ leBytes 4 (crc32 payload).toNat ++ payload

/-- A cell stored coded, or verbatim where that is smaller (R263), and whether R263 chose so. -/
def storeCell (w : Nat) (e : List Byte) (c n : Nat) (recoded poison : Bool) (planes : List (List (List Nat))) : Bool × List Byte :=
  let (b, p) := codeCell w e c n planes
  let v := verbatimCell w planes
  if v.length < p.length then (true, cellBytes 1 0 c false recoded poison v) else (false, cellBytes 0 b c false recoded poison p)

/-! ### The frame -/

/-- The frame header (R264). -/
def codedHeader (num fs src dt epoch wd ht w cfa mode passes cw ch : Nat) (e : List Byte) (target flags : Nat) : List Byte :=
  let b := [0x52, 0x4E, 0x52, 0x57] ++ leBytes 2 1 ++ leBytes 2 64 ++ leBytes 8 num ++ leBytes 6 (fs / 1000000000) ++
    leBytes 1 src ++ leBytes 1 dt ++ leBytes 4 (fs % 1000000000) ++ leBytes 4 epoch ++ leBytes 2 wd ++ leBytes 2 ht ++
    leBytes 1 w ++ leBytes 1 cfa ++ leBytes 1 mode ++ leBytes 1 passes ++ leBytes 2 cw ++ leBytes 2 ch ++
    leBytes 2 (ceilDiv wd cw) ++ leBytes 2 (ceilDiv ht ch) ++ (List.range 4).map (fun c => BitVec.ofNat 8 (entryBound e c)) ++
    leBytes 2 target ++ leBytes 2 flags ++ leBytes 4 0
  b ++ leBytes 4 (crc32 b).toNat

/-- Pad with zeros to a multiple of `n` bytes. -/
def padMul (n : Nat) (bs : List Byte) : List Byte := bs ++ List.replicate (roundUp bs.length n - bs.length) 0

/-- Offsets of the cells in 8-byte units. -/
def cellOffsets : Nat → List (List Byte) → List Nat
  | _, [] => []
  | o, c :: cs => o :: cellOffsets (o + c.length / 8) cs

/-- The embedded section (R267). -/
def embSection (emb : List (List Byte)) : List Byte :=
  if emb.isEmpty then []
  else padMul 8 (leBytes 4 emb.length ++ (emb.map (fun p => leBytes 4 p.length ++ padMul 4 p)).flatten)

/-- The coded frame from its header, cells, embedded packets and trailer flags (R264 to R268). -/
def codedFrame (header : List Byte) (cells : List (List Byte)) (emb : List (List Byte)) (noIndex : Bool) (flags : Nat) : List Byte :=
  let sec := cells.flatten
  let idx := if noIndex then [] else padMul 8 ((cellOffsets 0 cells).map (leBytes 4)).flatten
  let es := embSection emb
  let total := 64 + sec.length + idx.length + es.length + 32
  let t := [0x52, 0x4E, 0x54, 0x52] ++ leBytes 4 (flags + 8 * boolNat noIndex) ++ leBytes 4 sec.length ++
    leBytes 4 (if noIndex then 0 else 4 * cells.length) ++ leBytes 4 es.length ++ leBytes 4 total ++
    leBytes 4 (if noIndex then 0 else (crc32 idx).toNat)
  header ++ sec ++ idx ++ es ++ t ++ leBytes 4 (crc32 t).toNat

/-! ### Reading a coded frame -/

/-- The values of a coded frame that the decoder works with. -/
structure CodedInfo where
  num : Nat
  fs : Nat
  dt : Nat
  src : Nat
  wd : Nat
  ht : Nat
  w : Nat
  cfa : Nat
  cw : Nat
  ch : Nat
  cells : Nat
  cellsLen : Nat
  indexLen : Nat
  embLen : Nat
  indexCrc : Nat
  emb : List (List Byte)
  deriving DecidableEq, Repr

/-- The packets of `bs` have lengths of 1 to 16,384 and fill it but for the padding to a multiple of 8 bytes, behind a count (R267). -/
def embFits : Nat → Nat → List Byte → Bool
  | 0, used, bs => used + bs.length == roundUp used 8
  | n + 1, used, bs =>
    let l := leAt bs 0 4
    decide (1 ≤ l) && decide (l ≤ 16384) && decide (4 + roundUp l 4 ≤ bs.length) &&
      embFits n (used + 4 + roundUp l 4) (bs.drop (4 + roundUp l 4))

/-- An embedded section of R267: absent, or 1 to 4 packets whose records fill it. -/
def embSectionOk (es : List Byte) : Bool :=
  es.isEmpty || (decide (1 ≤ leAt es 0 4) && decide (leAt es 0 4 ≤ 4) && embFits (leAt es 0 4) 4 (es.drop 4))

/-- The packets of an embedded section (R267). -/
def readEmb : Nat → List Byte → List (List Byte)
  | 0, _ => []
  | n + 1, bs =>
    let l := leAt bs 0 4
    (bs.drop 4).take l :: readEmb n (bs.drop (4 + roundUp l 4))

/-- Check 3 of R278. -/
def formatOk (f : List Byte) : Bool :=
  let g (o n : Nat) := leAt f o n
  let t := f.drop (f.length - 32)
  f.take 4 == [0x52, 0x4E, 0x52, 0x57] && t.take 4 == [0x52, 0x4E, 0x54, 0x52] && g 4 2 == 1 && g 6 2 == 64 &&
  [10, 12, 14, 16, 20].contains (g 0x24 1) && decide (g 0x25 1 ≤ 4) && decide (g 0x26 1 ≤ 2) && g 0x28 2 != 0 &&
  g 0x2A 2 != 0 && g 0x28 2 % 16 == 0 && g 0x2A 2 % 16 == 0 && g 0x2C 2 == ceilDiv (g 0x20 2) (g 0x28 2) &&
  g 0x2E 2 == ceilDiv (g 0x22 2) (g 0x2A 2)

/-- The checks of R278 on a frame of `len` bytes against a destination of `size`: the REASON of the first that fails, or the
values of the frame. A length under 96 or not a multiple of 8 fails with REASON 5 (`RAWC_DEC_LEN`), as does an embedded section that
R267 does not allow (DEDUCED, assumption 109). -/
def checkCoded (f : List Byte) (size : Nat) : Nat ⊕ CodedInfo :=
  let len := f.length
  let g (o n : Nat) := leAt f o n
  let t := f.drop (len - 32)
  if len < 96 ∨ len % 8 ≠ 0 then .inl 5
  else if (crc32 (f.take 0x3C)).toNat ≠ g 0x3C 4 then .inl 1
  else if (crc32 (t.take 0x1C)).toNat ≠ leAt t 0x1C 4 then .inl 2
  else if formatOk f = false then .inl 3
  else
    let cellsLen := leAt t 8 4
    let indexLen := leAt t 0x0C 4
    let embLen := leAt t 0x10 4
    let es := (f.drop (len - 32 - embLen)).take embLen
    let n := if es.isEmpty ∨ embSectionOk es = false then 0 else leAt es 0 4
    if 8 * size < g 0x20 2 * g 0x22 2 * g 0x24 1 + 8 * 16384 * n then .inl 4
    else if leAt t 0x14 4 ≠ len ∨ 64 + cellsLen + roundUp indexLen 8 + embLen + 32 ≠ len ∨ embSectionOk es = false then .inl 5
    else
      .inr { num := g 8 8, fs := g 0x10 6 * 1000000000 + g 0x18 4, dt := g 0x17 1, src := g 0x16 1, wd := g 0x20 2,
             ht := g 0x22 2, w := g 0x24 1, cfa := g 0x25 1, cw := g 0x28 2, ch := g 0x2A 2,
             cells := g 0x2C 2 * g 0x2E 2, cellsLen := cellsLen, indexLen := indexLen, embLen := embLen,
             indexCrc := leAt t 0x18 4, emb := readEmb n (es.drop 4) }

/-- Offsets of `n` cells found by walking the cell section (R274, R279). -/
def walkCells : Nat → Nat → List Byte → List Nat
  | 0, _, _ => []
  | n + 1, o, sec => o :: walkCells n (o + 8 + 8 * (leAt sec o 4 % 2 ^ 20)) sec

/-- The index in use, as byte offsets, or none where the decoder walks the cells (R279): the COLS × ROWS entries of R266 that are all
there and point inside the cell section. -/
def usedIndex (i : CodedInfo) (f : List Byte) : Option (List Nat) :=
  let idx := (f.drop (64 + i.cellsLen)).take (roundUp i.indexLen 8)
  let os := (List.range i.cells).map (fun k => 8 * leAt idx (4 * k) 4)
  if i.indexLen ≠ 0 ∧ (crc32 idx).toNat = i.indexCrc ∧ 4 * i.cells ≤ i.indexLen ∧ os.all (fun o => decide (o < i.cellsLen)) then some os
  else none

/-- The rows of cell `k` at offset `o` of the cell section: the samples or the fill, whether it is malformed, and whether
its CRC differs (R279). -/
def readCell (i : CodedInfo) (fill : Nat) (sec : List Byte) (k o : Nat) : List (List Nat) × Bool × Bool :=
  let cols := ceilDiv i.wd i.cw
  let w := min i.cw (i.wd - k % cols * i.cw)
  let h := min i.ch (i.ht - k / cols * i.ch)
  let word := leAt sec o 4
  let n := 8 * (word % 2 ^ 20)
  let payload := (sec.drop (o + 8)).take n
  let rows := if i.cellsLen < o + 8 + n then none else decodeCell i.w (i.cfa == 4) w h word payload
  (rows.getD (List.replicate h (List.replicate w (fill % 2 ^ i.w))), rows.isNone,
   (crc32 payload).toNat != leAt sec (o + 4) 4)

/-- A decoded frame: its lines in CSI-2 packing, malformed cells, cells with a CRC mismatch, and whether it was walked. -/
structure Decoded where
  lines : List (List Byte)
  bad : Nat
  crc : Nat
  walked : Bool
  deriving DecidableEq, Repr

/-- Decode a checked frame (R279). -/
def decodeFrame (i : CodedInfo) (fill : Nat) (f : List Byte) : Decoded :=
  let sec := (f.drop 64).take i.cellsLen
  let idx := usedIndex i f
  let os := idx.getD (walkCells i.cells 0 sec)
  let cs := os.zipIdx.map (fun e => readCell i fill sec e.2 e.1)
  let cols := ceilDiv i.wd i.cw
  let line (y : Nat) : List Byte :=
    let band := (cs.drop (y / i.ch * cols)).take cols
    packLine i.w ((band.map (fun c => c.1.getD (y % i.ch) [])).flatten)
  { lines := (List.range i.ht).map line, bad := (cs.filter (fun c => c.2.1)).length,
    crc := (cs.filter (fun c => c.2.2)).length, walked := idx.isNone }

end Sys2Proof.Machine
end

