-- ==== Sys2Proof/Machine/HeveStream.lean ====
section
/-! DEFINITION. The leading NAL units and the slice headers of the encoders' byte stream (R331, R340, R341, R344), with the
element order of ITU-T H.265 (PRESUMED, assumption 129). -/

namespace Sys2Proof.Machine

/-! ### Elements -/

def clampInt (lo hi x : Int) : Int := max lo (min hi x)

/-- u(1) -/
def uFlag (b : Bool) : List Bool := [b]

/-- ue(v) -/
def ueBits (v : Nat) : List Bool :=
  let l := Nat.log2 (v + 1)
  List.replicate l false ++ msbBits (l + 1) (v + 1)

/-- se(v) -/
def seBits (v : Int) : List Bool := ueBits (if 0 < v then (2 * v - 1).toNat else (-(2 * v)).toNat)

/-- Bits closed by a one and zeros to the byte: the trailing bits of a NAL unit, the alignment of a slice header. -/
def closedBits (bs : List Bool) : List Byte := packBitsN (bs.length / 8 + 1) (bs ++ [true])

/-- Emulation prevention of the byte stream: 0x03 before a byte of 0 to 3 that follows two zero bytes. -/
def emulate : Nat → List Byte → List Byte
  | _, [] => []
  | z, b :: t =>
    if 2 ≤ z ∧ b.toNat ≤ 3 then 3 :: b :: emulate (if b = 0 then 1 else 0) t
    else b :: emulate (if b = 0 then z + 1 else 0) t

/-- A NAL unit of type `ty` with its start code. -/
def nalUnit (ty : Nat) (payload : List Byte) : List Byte := [0, 0, 0, 1] ++ emulate 0 ([BitVec.ofNat 8 (2 * ty), 1] ++ payload)

/-- An SEI message of type `ty` as a prefix SEI NAL unit. -/
def seiUnit (ty : Nat) (payload : List Byte) : List Byte :=
  nalUnit 39 ([BitVec.ofNat 8 ty, BitVec.ofNat 8 payload.length] ++ payload ++ [0x80])

/-! ### What a picture's stream says -/

/-- A field that the picture latched. -/
def HevePic.reg (p : HevePic) (f : Nat → Fld) : Nat := latched p.cfg f

/-- The head of the picture's (left) source. -/
def HevePic.desc (p : HevePic) : HeadDesc := parseHead p.head

def HevePic.width (p : HevePic) : Nat := p.desc.ow + p.wr

/-- The stream's bit depth: the smaller of the head's DEPTH and the profile's maximum (R331). -/
def streamDepth (profile depth : Nat) : Nat := min depth (profileDepth profile)

def HevePic.depth (p : HevePic) : Nat := streamDepth (p.reg HEVE_CTRL.PROFILE) p.desc.depth

/-- general_profile_idc of a PROFILE (R331). -/
def profileIdc (p : Nat) : Nat := if p = 1 then 1 else if p = 2 then 2 else 4

/-- chroma_format_idc: 4:2:2 or 4:2:0 (R331). -/
def HevePic.chromaIdc (p : HevePic) : Nat := if p.desc.format = 1 then 2 else 1

/-- Pictures that a P picture references at most (R341). -/
def HevePic.refMax (p : HevePic) : Nat := clamp 1 2 (p.reg HEVE_GOP.REFS)

/-- The 32 compatibility flags: those of the profile, and of Main 10 for a Main stream. -/
def compatBits (idc : Nat) : List Bool := (List.range 32).map (fun i => i == idc || (idc == 1 && i == 2))

/-- The 43 bits after the source flags: the general constraint flags of the range extensions profiles (R331). -/
def constraintBits (profile : Nat) : List Bool :=
  (if profile < 3 then [] else [true, profile == 3, false, true, false, false, false, false, true]) ++
    List.replicate (if profile < 3 then 43 else 34) false

/-- profile_tier_level: the tier, the profile and the level of `HEVE_CTRL` (R331, R333). -/
def profileTierLevel (p : HevePic) : List Bool :=
  let prof := p.reg HEVE_CTRL.PROFILE
  msbBits 2 0 ++ uFlag (p.reg HEVE_CTRL.TIER == 1) ++ msbBits 5 (profileIdc prof) ++ compatBits (profileIdc prof) ++
    msbBits 4 (Config.heveElement 0) ++ constraintBits prof ++ uFlag false ++ msbBits 8 (p.reg HEVE_CTRL.LEVEL_IDC)

/-- Decoded picture buffer, reordering and latency of the one sub-layer: output order is decoding order (R341). -/
def subLayerOrder (p : HevePic) : List Bool := uFlag true ++ ueBits p.refMax ++ ueBits 0 ++ ueBits 0

/-- The video parameter set. -/
def vpsUnit (p : HevePic) : List Byte :=
  nalUnit 32 (closedBits (msbBits 4 0 ++ [true, true] ++ msbBits 6 0 ++ msbBits 3 0 ++ uFlag true ++ msbBits 16 0xFFFF ++
    profileTierLevel p ++ subLayerOrder p ++ msbBits 6 0 ++ ueBits 0 ++ [false, false]))

/-- hrd_parameters with one NAL schedule: bit rate in units of 64 bit/s and CPB size in units of 16 bits, rounded up
(R340; DESIGN CHOICE, assumption 129). -/
def hrdBits (p : HevePic) : List Bool :=
  [true, false, false] ++ msbBits 4 0 ++ msbBits 4 0 ++ msbBits 5 23 ++ msbBits 5 31 ++ msbBits 5 31 ++ [true] ++ ueBits 0 ++
    ueBits 0 ++ ueBits (ceilDiv (p.reg HEVE_RATE.KBPS * 1000) 64 - 1) ++
    ueBits (ceilDiv (p.reg HEVE_CPB.KBIT * 1000) 16 - 1) ++ uFlag (p.reg HEVE_CTRL.RC == 0)

/-- The VUI: colours from `HEVE_VUI`, the range of the head, timing, and the NAL HRD (R340). -/
def vuiBits (p : HevePic) : List Bool :=
  [false, false, true] ++ msbBits 3 5 ++ uFlag (p.desc.ycc.testBit 2) ++ uFlag true ++ msbBits 8 (p.reg HEVE_VUI.PRIMARIES) ++
    msbBits 8 (p.reg HEVE_VUI.TRANSFER) ++ msbBits 8 (p.reg HEVE_VUI.MATRIX) ++ [false, false, false, false, false, true] ++
    msbBits 32 (p.reg HEVE_TICK.TICK) ++ msbBits 32 (p.reg HEVE_TIME_SCALE.SCALE) ++ [false, true] ++ hrdBits p ++ [false]

/-- The sequence parameter set with the values of R340. -/
def spsUnit (p : HevePic) : List Byte :=
  let w := roundUp p.width 8
  let h := roundUp p.height 8
  let subH := if p.desc.format = 1 then 1 else 2
  let crop := w != p.width || h != p.height
  nalUnit 33 (closedBits (msbBits 4 0 ++ msbBits 3 0 ++ uFlag true ++ profileTierLevel p ++ ueBits 0 ++ ueBits p.chromaIdc ++
    ueBits w ++ ueBits h ++ uFlag crop ++
    (if crop then ueBits 0 ++ ueBits ((w - p.width) / 2) ++ ueBits 0 ++ ueBits ((h - p.height) / subH) else []) ++
    ueBits (p.depth - 8) ++ ueBits (p.depth - 8) ++ ueBits 4 ++ subLayerOrder p ++ ueBits 0 ++ ueBits 3 ++ ueBits 0 ++ ueBits 3 ++
    ueBits 2 ++ ueBits 2 ++ [false, false] ++ uFlag (p.reg HEVE_GOP.SAO == 1) ++ uFlag false ++ ueBits 0 ++ uFlag false ++
    uFlag (p.reg HEVE_GOP.TMVP == 1) ++ uFlag ((Config.heveElement 1).testBit 0) ++ uFlag true ++ vuiBits p ++ uFlag false))

/-- Deblocking and SAO may cross slice borders: the standard leaves it to the encoder. -/
def acrossSlices : Bool := (Config.heveElement 2).testBit 0

/-- The tiles of a picture: columns and rows, uniform, or the columns of a mosaic with the boundary at the join (R343, R345,
R346). -/
def tileBits (p : HevePic) : List Bool :=
  let tc := p.reg HEVE_STRUCT.TILE_COLS
  let sr := p.reg HEVE_STRUCT.SLICE_ROWS
  let rows := ctuCount p.height
  let n := if sr = 0 then 1 else ceilDiv rows sr
  ueBits (tc - 1) ++ ueBits (n - 1) ++ uFlag (p.gang != 2) ++
    (if p.gang = 2 then
      ((tileCols tc (tc / 2) 2 (ctuCount p.desc.ow) (ctuCount p.wr)).dropLast.map (fun c => ueBits (c.size - 1))).flatten ++
      ((List.range (n - 1)).map (fun r => ueBits (uniformPart rows n r - 1))).flatten
     else []) ++ uFlag false

/-- The picture parameter set with the values of R340. -/
def ppsUnit (p : HevePic) : List Byte :=
  let tiles := decide (1 < p.reg HEVE_STRUCT.TILE_COLS)
  let dbk := p.reg HEVE_GOP.DBK == 1
  nalUnit 34 (closedBits (ueBits 0 ++ ueBits 0 ++ [false, false] ++ msbBits 3 0 ++ [true, false] ++ ueBits 0 ++ ueBits 0 ++
    seBits (clampInt (-26) 25 (toSigned 6 (Config.heveElement 3))) ++ uFlag ((Config.heveElement 4).testBit 0) ++ [false, true] ++
        ueBits 0 ++
    seBits (clampInt (-12) 12 (toSigned 5 (Config.heveElement 5))) ++
        seBits (clampInt (-12) 12 (toSigned 5 (Config.heveElement 6))) ++ [false, false, false, false] ++
    uFlag tiles ++ uFlag (p.reg HEVE_STRUCT.WPP == 1) ++ (if tiles then tileBits p else []) ++ uFlag acrossSlices ++
    (if dbk then [false] else [true, false, true]) ++ [false, false] ++ ueBits (Config.heveElement 7 % 5) ++ [false, false]))

/-- Initial removal delay of the CPB at the picture's fullness, in 90 kHz units (R350). -/
def HevePic.cpbDelay (p : HevePic) : Nat := p.fill / max 1 (p.reg HEVE_TIME_SCALE.SCALE * (p.reg HEVE_RATE.KBPS * 1000))

/-- The buffering period SEI of an IDR access unit (R340, R350). -/
def bufferingSei (p : HevePic) : List Byte :=
  let whole := p.reg HEVE_CPB.KBIT * 90000 / max 1 (p.reg HEVE_RATE.KBPS)
  seiUnit 0 (closedBits (ueBits 0 ++ [false, false] ++ msbBits 32 0 ++ msbBits 24 p.cpbDelay ++ msbBits 24 (whole - p.cpbDelay)))

/-- The picture timing SEI: removed `since` pictures after the last buffering period, output at once (R340, R341, R350). -/
def timingSei (p : HevePic) : List Byte := seiUnit 1 (msbBytes 4 (p.since - 1) ++ msbBytes 4 0)
where
  msbBytes (n v : Nat) : List Byte := packBitsN n (msbBits (8 * n) v)

/-- The identity SEI of R344 as a NAL unit of the byte stream. -/
def identitySei (s : State) (o : HeadOut) : List Byte :=
  let fl := srcFlags s o
  let fs := srcFs s o
  let payload : List Byte := [0x45, 0x4F, 0x44, 0x53, 0x2D, 0x45, 0x43, 0x44, 0x39, 0x36, 0x30, 0x30, 0x2D, 0x49, 0x44, 0x31] ++
    [1] ++ leBytes 1 (boolNat (fl.testBit 3) + 2 * boolNat (fl.testBit 2)) ++ leBytes 1 o.src ++ [0] ++ leBytes 8 o.num ++
    leBytes 6 (fs / 1000000000) ++ leBytes 4 (fs % 1000000000) ++ padTo 16 (deviceId s)
  seiUnit 5 payload

/-- The source that a picture's chunks describe: the left one, else the one it has. -/
def HevePic.source (p : HevePic) : Option HeadOut := p.left.orElse (fun _ => p.right)

/-- The NAL units that lead an access unit (R339, R340, R344). -/
def leadUnits (s : State) (p : HevePic) : List Byte :=
  (if p.endSeq then nalUnit 36 [] else []) ++
  (if p.idr then vpsUnit p ++ spsUnit p ++ ppsUnit p ++ bufferingSei p else []) ++ timingSei p ++
  (p.source.map (identitySei s)).getD []

/-- Bits that number the CTUs of a picture. -/
def addressBits (n : Nat) : Nat := if n ≤ 1 then 0 else Nat.log2 (n - 1) + 1

/-- A slice of the picture is coded without prediction from other pictures: an IDR picture, or the second recode of a slice
(R341, R360). -/
def HevePic.intra (p : HevePic) : Bool := p.idr || decide (2 ≤ p.hits)

/-- The slice header (R340, R341, R343): its type, the picture order count and the short-term RPS of the previous pictures, with the
elements that the standard leaves to the encoder in `x`. -/
def sliceHeader (p : HevePic) (sl : SlicePlan) (x : SliceOpen) : List Bool :=
  let cols := ctuCount p.desc.ow + ctuCount p.wr
  let first := p.index == 0
  let sao := p.reg HEVE_GOP.SAO == 1
  let tmvp := p.reg HEVE_GOP.TMVP == 1
  let n := p.refs.length
  let wpp := p.reg HEVE_STRUCT.WPP == 1
  uFlag first ++ (if p.idr then [false] else []) ++ ueBits 0 ++
  (if first then [] else msbBits (addressBits (cols * ctuCount p.height)) (sl.y * cols + sl.x)) ++ ueBits (if p.intra then 2 else 1) ++
  (if p.idr then []
   else msbBits 8 p.poc ++ [false] ++ ueBits n ++ ueBits 0 ++ ((List.range n).map (fun _ => ueBits 0 ++ [true])).flatten ++
     (if tmvp then [true] else [])) ++
  (if sao then [x.saoLuma, x.saoChroma] else []) ++
  (if p.intra then []
   else uFlag (n != 1) ++ (if n = 1 then [] else ueBits (n - 1)) ++ (if tmvp ∧ 1 < n then ueBits 0 else []) ++ ueBits (x.merge % 5)) ++
  seBits x.qpDelta ++
  (if acrossSlices ∧ (p.reg HEVE_GOP.DBK = 1 ∨ (sao ∧ (x.saoLuma ∨ x.saoChroma))) then [true] else []) ++
  (if wpp ∨ 1 < p.reg HEVE_STRUCT.TILE_COLS then
     ueBits x.entry.length ++
     (if x.entry.isEmpty then [] else ueBits 31 ++ (x.entry.map (fun o => msbBits 32 (o - 1))).flatten)
   else [])

/-- A slice as a NAL unit: its header, and the coded data `data` of its CTUs (R339, R341). -/
def sliceUnit (p : HevePic) (sl : SlicePlan) (x : SliceOpen) (data : List Byte) : List Byte :=
  nalUnit (if p.idr then 20 else 1) (closedBits (sliceHeader p sl x) ++ data)

end Sys2Proof.Machine
end

