-- ==== Sys2Proof/Machine/HeveCode.lean ====
section
/-! DEFINITION. How the encoders code a CTU: the samples they code (R332), its QP (R348), floor mode (R337, R347, R353, R360), motion
search (R342) and the syntax-element buffer (R356). -/

namespace Sys2Proof.Machine

/-! ### Samples (R331, R332) -/

/-- A sample of bit depth `n` as one of depth `d` (R332). -/
def reduceSample (n d x : Nat) : Nat := if n ≤ d then x else min (2 ^ d - 1) ((x + 2 ^ (n - d - 1)) >>> (n - d))

/-- Sample (x, y) of component `comp` (0 Y, 1 Cb, 2 Cr) of a source picture (R164). -/
def srcSample (s : State) (o : HeadOut) (comp x y : Nat) : Nat :=
  let d := parseHead o.desc
  leNat (s.bufBytes (o.addr + 256 +
    (if comp = 0 then y * d.pitchY + 2 * x else d.cOff + y * d.pitchC + 4 * x + 2 * (comp - 1))) 2)

/-- The sample that a picture codes at (x, y): of its left or right source, reduced to the stream's bit depth (R332, R346); a missing
half has none. -/
def codedSample (s : State) (p : HevePic) (comp x y : Nat) : Nat :=
  let wl := if comp = 0 then p.desc.ow else p.desc.ow / 2
  let at_ (o : Option HeadOut) (x : Nat) : Nat := match o with
    | some o => reduceSample (parseHead o.desc).depth p.depth (srcSample s o comp x y)
    | none => 2 ^ (p.depth - 1)
  if x < wl then at_ p.left x else at_ p.right (x - wl)

/-! ### QP (R348) -/

/-- QP_MIN and QP_MAX in force at bit depth `d` (`HEVE_QP`). -/
def qpRange (cfg : List Word) (d : Nat) : Int × Int :=
  let near (f : Nat → Fld) : Int := clampInt (-6 * ((d : Int) - 8)) 51 (toSigned 8 (latched cfg f))
  (min (near HEVE_QP.QP_MIN) (near HEVE_QP.QP_MAX), near HEVE_QP.QP_MAX)

/-- The QP of a CTU with rate-control QP `rc` and Spotlight offset `qp` (R348): QP_INIT takes the place of `rc` in the first picture of
a sequence, and I_OFFSET is added to it in any other IDR picture (`HEVE_QP`; DEDUCED, assumption 130). -/
def ctuQp (cfg : List Word) (d : Nat) (idr first : Bool) (rc qp : Int) : Int :=
  let (lo, hi) := qpRange cfg d
  let base := if first then clampInt lo hi (toSigned 8 (latched cfg HEVE_QP.QP_INIT))
    else if idr then rc + clampInt (-12) 12 (toSigned 8 (latched cfg HEVE_QP.I_OFFSET)) else rc
  clampInt lo hi (base + qp)

/-! ### Floor mode (R337, R347, R353, R360) -/

/-- A CTU has no lines to code: its half is missing, or the lines of its row were not written when its source ended ABANDONED. -/
def ctuLost (s : State) (l r : Option HeadOut) (gang wl height : Nat) (c : Nat × Nat) : Bool :=
  match (if c.1 < wl then l else r) with
  | none => gang == 2
  | some o => srcDone s o && (srcFlags s o).testBit 1 && decide (srcLines s o < min (64 * (c.2 + 1)) height)

def HevePic.lost (s : State) (p : HevePic) (c : Nat × Nat) : Bool := ctuLost s p.left p.right p.gang (ctuCount p.desc.ow) p.height c

/-- The charge of a CTU in floor mode (R352). -/
def floorCharge (idr : Bool) : Nat := if idr then 160 else 32

/-- What a CTU in floor mode costs. -/
def floorCost (idr : Bool) : CtuCost :=
  { ctx := 0, bypass := floorCharge idr - 8, actual := floorCharge idr, pending := 0, rc := 0, elements := 0 }

/-- The CTUs that engine `k` codes, in coding order, with the costs `cs` given for them; a CTU without lines costs floor mode. -/
def sharePlan (slices : List SlicePlan) (k : Nat) (idr : Bool) (lost : Nat × Nat → Bool) (cs : List CtuCost) : List CtuCost :=
  ((slices.filter (fun p => p.engine == k)).map SlicePlan.ctuAt).flatten.zipIdx.map (fun e =>
    if lost e.1 then floorCost idr else cs.getD e.2 (floorCost idr))

/-- CTU `i` of the share of engine `k` in a picture. -/
def HevePic.cost (p : HevePic) (k i : Nat) : CtuCost := (p.plan.getD k []).getD i (floorCost p.idr)

/-! ### Motion search (R342) -/

/-- A luma sample of the reconstruction of the picture made from source frame `ref`; outside the picture its border continues. -/
def refSample (ref w h : Nat) (x y : Int) : Int :=
  Config.recon ref (clampInt 0 (w - 1) x).toNat (clampInt 0 (h - 1) y).toNat

/-- The luma interpolation filters of the standard by quarter-sample fraction (PRESUMED, assumption 131). -/
def lumaTaps (f : Nat) : List Int :=
  if f = 0 then [0, 0, 0, 64, 0, 0, 0, 0] else if f = 1 then [-1, 4, -10, 58, 17, -5, 1, 0]
  else if f = 2 then [-1, 4, -11, 40, 40, -11, 4, -1] else [0, 1, -5, 17, 58, -10, 4, -1]

/-- The predicted sample at quarter-sample position (x, y) of a reference picture of depth `d` (PRESUMED, assumption 131). -/
def predSample (ref w h d : Nat) (x y : Int) : Nat :=
  let row (j : Int) : Int :=
    ((lumaTaps (x % 4).toNat).zipIdx.map (fun t => t.1 * refSample ref w h (x / 4 + t.2 - 3) j)).sum / 2 ^ (d - 8)
  let v : Int := if y % 4 = 0 then row (y / 4)
    else ((lumaTaps (y % 4).toNat).zipIdx.map (fun t => t.1 * row (y / 4 + t.2 - 3))).sum / 64
  (clampInt 0 (2 ^ d - 1) ((v + 2 ^ (13 - d)) / 2 ^ (14 - d))).toNat

/-- The best of some candidates by a rating, the first of equals; `b` is one of them. -/
def bestOf (rate : Int × Int → Nat) (vs : List (Int × Int)) (b : Int × Int) : Int × Int :=
  vs.foldl (fun b v => if rate v < rate b then v else b) b

/-- A vector in quarter samples lies in the window around the centre `c`, in whole samples. -/
def inWindow (c v : Int × Int) : Bool :=
  decide ((v.1 - 4 * c.1).natAbs ≤ 4 * 512) && decide ((v.2 - 4 * c.2).natAbs ≤ 4 * 256)

/-- The candidates around a vector at distance `k` quarter samples that lie in the window. -/
def around (c v : Int × Int) (k : Int) : List (Int × Int) :=
  ([-k, 0, k].map (fun j => [-k, 0, k].map (fun i => (v.1 + i, v.2 + j)))).flatten.filter (inWindow c)

/-- Integer, then half, then quarter-sample search around the centre `c`. -/
def motionSearch (rate : Int × Int → Nat) (c : Int × Int) : Int × Int :=
  let whole := ((List.range 513).map (fun j => (List.range 1025).map (fun i =>
    (4 * (c.1 + i - 512), 4 * (c.2 + j - 256))))).flatten
  let v := bestOf rate whole (4 * c.1, 4 * c.2)
  let v := bestOf rate (around c v 2) v
  bestOf rate (around c v 1) v

/-- The vector of CTU (cx, cy) of a P picture into its newest reference: how candidates are rated and where the search is centred is the
engine's own (DESIGN CHOICE of one search for a CTU, assumption 131). -/
def ctuMotion (s : State) (p : HevePic) (c : Nat × Nat) : Int × Int :=
  let w := p.width
  let xs := List.range (min 64 (w - 64 * c.1))
  let ys := List.range (min 64 (p.height - 64 * c.2))
  let block (f : Nat → Nat → Nat) : List Nat := (ys.map (fun j => xs.map (fun i => f (64 * c.1 + i) (64 * c.2 + j)))).flatten
  let ref := p.refs.headD 0
  motionSearch (fun v => Config.motionRating (block (codedSample s p 0))
    (block (fun x y => predSample ref w p.height p.depth (4 * x + v.1) (4 * y + v.2)))) (Config.motionCentre ref (c.2 * ctuCount w + c.1))

/-! ### A slice -/

/-- How CTU `i` of an engine's share, at `c`, is coded (R348, R353, R360): floor mode is intra DC in an IDR picture and in the second
recode, else skip. -/
def ctuMode (s : State) (p : HevePic) (k i : Nat) (c : Nat × Nat) : CtuMode :=
  if 2 ≤ p.hits then .intraDc
  else if p.lost s c ∨ p.normal.getD k 0 ≤ i then (if p.idr then .intraDc else .skip)
  else .normal (ctuQp p.cfg p.depth p.idr p.newSeq (p.cost k i).rc
      (p.offsets.getD (c.2 * (ctuCount p.desc.ow + ctuCount p.wr) + c.1) 0))
    (if p.idr then none else some (ctuMotion s p c))

/-- The modes of the CTUs of a slice. -/
def sliceModes (s : State) (p : HevePic) (sl : SlicePlan) : List CtuMode :=
  sl.ctuAt.zipIdx.map (fun e => ctuMode s p sl.engine (sl.first + e.2) e.1)

/-! ### The syntax-element buffer (R356) -/

/-- Sizes that fit a buffer of `room` bytes, oldest first: the sum of the longest run that does. -/
def fillOf : Nat → List Nat → Nat
  | _, [] => 0
  | room, n :: t => if n ≤ room then n + fillOf (room - n) t else 0

/-- Bytes in the syntax-element buffer of engine `e`: the elements of the CTUs that its pixel engine has passed and its CABAC engine
has not coded. The pixel engine runs ahead as far as the 8 MiB and its source's lines allow (DESIGN CHOICE, assumption 132). -/
def heveElements (s : State) (e : Nat) : Nat :=
  let own := (heveEng s e).pic
  let (pic, k) := if own.isSome then (own, 0) else ((heveEng s 0).pic.filter (fun p => e == 1 && p.gang != 0), 1)
  match pic with
  | none => 0
  | some p =>
    let todo := (p.slices.filter (fun sl => sl.engine == k)).map (fun sl =>
      sl.ctuAt.zipIdx.map (fun c => ((p.cost k (sl.first + c.2)).elements, c.1.2)))
    let there (row : Nat) : Bool :=
      (p.left.toList ++ p.right.toList).all (fun o => srcDone s o || decide (min (64 * (row + 1)) p.height ≤ srcLines s o))
    fillOf (2 ^ 23) ((todo.flatten.takeWhile (fun c => there c.2)).map (·.1))

end Sys2Proof.Machine
end

