-- ==== Sys2Proof/Machine/Heve.lean ====
section
/-! DEFINITION. The commands of the H.265 encoders: a picture begins (R335, R339, R341, R345, R347, R350, R353), its slices are
emitted to the output ring (R357 to R359), detections (R360), and the ring's read pointer. -/

namespace Sys2Proof.Machine

/-! ### The output ring (R357, R358) -/

/-- The ring of the registers as they stand: its base address and its units of 64 bytes. -/
def ringOf (cfg : List Word) : Nat × Nat :=
  (latched cfg HEVE_OUT_BASE_LO.ADDR * 4096 + latched cfg HEVE_OUT_BASE_HI.ADDR * 2 ^ 32,
      2 ^ clamp 20 31 (latched cfg HEVE_OUT_SIZE.LOG2) / 64)

/-- The output ring in force: the one latched by the last picture that began, before it that of the registers (R339, R357). -/
def heveOut (s : State) (e : Nat) : Nat × Nat := (heveEng s e).ring.getD (ringOf (heveRegs s e))

def heveRing (s : State) (e : Nat) : Nat := (heveOut s e).2
def heveBase (s : State) (e : Nat) : Nat := (heveOut s e).1

/-- Units of 64 bytes of the ring that hold chunks not yet read. -/
def heveUsed (s : State) (e : Nat) : Nat := (s.fld (HEVE_OUT_WR.WR e) + 2 ^ 32 - s.fld (HEVE_OUT_RD.RD e)) % 2 ^ 32

/-- Write `n` units of bytes at WR and advance it; bytes outside the data region are not stored. -/
def ringPut (e n : Nat) (bs : List Byte) (s : State) : State :=
  let wr := s.fld (HEVE_OUT_WR.WR e)
  let a := heveBase s e + 64 * (wr % heveRing s e)
  let s := if inDram s a (64 * n) then s.writeDram (dramOff a) bs else s
  s.setFld (HEVE_OUT_WR.WR e) (wr + n)

/-- A PAD chunk of `n` units. -/
def padChunk (e n : Nat) : List Byte :=
  padTo 64 ([0x45, 0x48, 0x43, 0x4B] ++ leBytes 1 2 ++ leBytes 1 e ++ leBytes 2 0 ++ leBytes 4 (64 * (n - 1)))

/-- Write chunk `c` if the ring has room for it, after a PAD chunk where it would cross the end (R357, R359). -/
def chunkPut (e : Nat) (c : Chunk) (s : State) : Option State :=
  let n := 1 + ceilDiv c.bytes.length 64
  let size := heveRing s e
  let rest := size - s.fld (HEVE_OUT_WR.WR e) % size
  let pad := if rest < n then rest else 0
  if heveUsed s e + pad + n ≤ size then
    let s := if pad = 0 then s else ringPut e pad (padChunk e pad) s
    let hdr := c.header ++ leBytes 4 s.time.ns ++ leBytes 4 s.time.sec.toNat
    some (ringPut e n (hdr ++ padTo (64 * (n - 1)) c.bytes) s)
  else none

/-- Write the waiting chunks while room lasts. -/
def heveDrain : Nat → Nat → State → State
  | 0, _, s => s
  | k + 1, e, s =>
    match (heveEng s e).held with
    | [] => s
    | c :: t =>
      match chunkPut e c s with
      | some s => heveDrain k e (modHeve e (fun h => { h with held := t }) s)
      | none => s

/-- A chunk goes to the ring, or waits there with OUT_WAIT (R358, R359). -/
def heveEmit (e : Nat) (c : Chunk) (s : State) : State :=
  let s := modHeve e (fun h => { h with held := h.held ++ [c] }) s
  let s := heveDrain (heveEng s e).held.length e s
  if (heveEng s e).held.isEmpty then heveShow e s
  else heveShow e (heveFlag HEVE_EVENT.OUT_WAIT .info e s)

/-! ### A picture begins -/

/-- The sources of the next picture of engine `e`, or none while a mosaic picture waits for its partner (R347). -/
def heveSources (s : State) (e gang : Nat) (timeout : Bool) : Option (Option HeadOut × Option HeadOut) :=
  let l := (heveEng s e).waiting.head?
  if gang ≠ 2 then l.map (fun o => (some o, none))
  else
    let win := max 1 (s.fld (HEVE_MOSAIC.WIN_US 0)) * 1000
    match l, (heveEng s 1).waiting.head? with
    | none, none => none
    | some a, none => if timeout ∨ srcFs s a + win < s.nowNs then some (some a, none) else none
    | none, some b => if timeout ∨ srcFs s b + win < s.nowNs then some (none, some b) else none
    | some a, some b =>
      let x := srcFs s a
      let y := srcFs s b
      if x ≤ y + win ∧ y ≤ x + win then some (some a, some b)
      else if x ≤ y then some (some a, none) else some (none, some b)

/-- A source header shows DONE, or enough lines under LOWLAT (R335). -/
def srcReady (s : State) (lowlat : Bool) (o : Option HeadOut) : Bool :=
  match o with
  | none => true
  | some o => srcDone s o || (lowlat && decide (min 64 (parseHead o.desc).oh ≤ srcLines s o))

/-- Take the sources of a picture out of the waiting lists. -/
def heveTakeSources (e : Nat) (l r : Option HeadOut) (s : State) : State :=
  let s := if l.isSome then modHeve e (fun h => { h with waiting := h.waiting.drop 1 }) s else s
  if r.isSome then heveShow 1 (modHeve 1 (fun h => { h with waiting := h.waiting.drop 1 }) s) else s

def releaseSrc (o : Option HeadOut) (s : State) : State :=
  match o with
  | some o => releaseBuf o.port o.buf s
  | none => s

/-- Release every buffer that waits at engine `e`. -/
def heveReleaseWaiting (e : Nat) (s : State) : State :=
  heveShow e (modHeve e (fun h => { h with waiting := [] })
    ((heveEng s e).waiting.foldl (fun s o => releaseBuf o.port o.buf s) s))

/-- The picture over sources `l` and `r` begins with the configuration latched (R339, R341, R350 to R353). -/
def heveStart (e gang : Nat) (l r : Option HeadOut) (ctus0 ctus1 : List CtuCost) (s : State) : State :=
  let cfg := heveRegs s e
  let dl := parseHead (halfDesc s l e)
  let dr := parseHead (halfDesc s r 1)
  let wr := if gang = 2 then dr.ow else 0
  let s := heveTakeSources e l r s
  if heveInvalid cfg gang (heveOn s 1) (dl.ow, dl.oh, dl.format, dl.depth) (dr.ow, dr.oh, dr.format, dr.depth) then
    let s := heveReleaseWaiting e (releaseSrc l (releaseSrc r (heveBad e s)))
    (if gang = 2 then heveReleaseWaiting 1 s else s).setFlag (HEVE_STATUS.GANG_OK 0) false
  else
    let h := heveEng s e
    let sig := (seqRegs cfg, [dl.ow, wr, dl.oh, dl.format, dl.depth])
    let newSeq := h.newSeq || decide (h.last ≠ some sig)
    let gop := latched cfg HEVE_GOP.GOP_LEN
    let count := if newSeq then 0 else h.count
    let idr := newSeq || h.idrNext || (gop != 0 && count % gop == 0)
    let ts := latched cfg HEVE_TIME_SCALE.SCALE
    let unit := 90000 * ts
    let fill := if newSeq then latched cfg HEVE_RATE.KBPS * 1000 * latched cfg HEVE_CPB_INIT.DELAY_90K * ts else h.fill
    let slices := planSlices cfg gang (ctuCount dl.ow) (ctuCount wr) (ctuCount dl.oh)
    let share (k : Nat) := (slices.filter (fun p => p.engine == k)).map (fun p => p.ctus)
    let lost := ctuLost s l r gang (ctuCount dl.ow) dl.oh
    let plan := [sharePlan slices 0 idr lost ctus0, sharePlan slices 1 idr lost ctus1]
    let total := (slices.map (fun p => p.ctus)).sum
    let budget (k : Nat) := if gang = 0 then fill / unit else fill / unit * (share k).sum / max 1 total
    let overhead := 1024 + (if idr then 4096 else 0)
    let f0 := if l.isNone then 0 else floored (budget 0) idr overhead (share 0) (plan.getD 0 [])
    let f1 := if gang = 0 ∨ (gang = 2 ∧ r.isNone) then 0 else floored (budget 1) idr 0 (share 1) (plan.getD 1 [])
    let (ol, ml) := halfOffsets s cfg l dl.ow dl.oh
    let (or_, mr) := halfOffsets s cfg r wr dl.oh
    let pic : HevePic :=
      { left := l, right := r, cfg := cfg, gang := gang, height := dl.oh, idr := idr, newSeq := newSeq,
        endSeq := newSeq && h.last.isSome, poc := if idr then 0 else h.poc, epoch := s.fld CUE_EPOCH.EPOCH, fill := fill,
        slices := slices, index := 0, bits := 0, floored := f0 + f1, mapMissing := ml || mr, hits := 0,
        offsets := ((ol.zip or_).map (fun p => p.1 ++ p.2)).flatten, head := halfDesc s l e, wr := wr
        refs := if idr then [] else h.refs.take (clamp 1 2 (latched cfg HEVE_GOP.REFS)), since := h.poc
        plan := plan, normal := [(share 0).sum - f0, (share 1).sum - f1], coded := [] }
    let s := modHeve e (fun h => { h with
      pic := some pic, last := some sig, count := count + 1, poc := pic.poc + 1, newSeq := false, idrNext := false
      refs := (((l.orElse (fun _ => r)).map (·.num)).getD 0 :: pic.refs).take 2, ring := some (ringOf cfg) }) s
    let s := if pic.mapMissing then heveFlag HEVE_EVENT.MAP_MISSING .info e s else s
    let s := if gang = 2 ∧ (l.isNone ∨ r.isNone) then s.setFlag (HEVE_EVENT.HALF_MISSING e) true else s
    let s := if 0 < pic.floored then
        heveFlag HEVE_EVENT.FLOORED .info e (s.addFld (HEVE_CNT_FLOOR.COUNT e) 1)
      else s
    heveShow 1 (heveShow e (s.setFlag (HEVE_STATUS.GANG_OK 0) (gang != 0)))

/-- The header and the samples of a source picture are read (R377). -/
def sourcePoison (e : Nat) (o : Option HeadOut) (s : State) : State :=
  match o with
  | none => s
  | some o =>
    let d := parseHead o.desc
    poisonWarn 8 e (o.addr + 256 + d.cOff) (chromaLines d * d.pitchC) (poisonWarn 8 e o.addr (256 + d.oh * d.pitchY) s)

/-- Engine `e` has not ended its picture: its own, or the one it codes in a gang (R335, R345). -/
def heveCoding (s : State) (e : Nat) : Bool :=
  (heveEng s e).pic.isSome || (e == 1 && (heveEng s 0).pic.any (fun p => p.gang != 0))

/-- Engine `e` begins its next picture if the conditions of R335, R347 and R349 hold; `noMap` and `alone` say that the time
for the map or the partner is over. -/
def heveBegin (e : Nat) (ctus0 ctus1 : List CtuCost) (noMap alone : Bool) (s : State) : State :=
  let gang := heveGang s
  let h := heveEng s e
  if heveOn s e = false ∨ h.bad ∨ heveCoding s e ∨ h.held.isEmpty = false ∨ (e = 1 ∧ gang ≠ 0) ∨ (gang ≠ 0 ∧ heveCoding s 1) then s
  else
    match heveSources s e gang alone with
    | none => s
    | some (l, r) =>
      let cfg := heveRegs s e
      let low := latched cfg HEVE_CTRL.LOWLAT == 1
      if (srcReady s low l && srcReady s low r && (noMap || !(mapWaits s cfg l || mapWaits s cfg r))) = false then s
      else heveStart e gang l r ctus0 ctus1 (sourcePoison 1 r (sourcePoison e l s))

def execHevePictureBegin (engine : Fin 2) (ctus0 ctus1 : List CtuCost) (s : State) : Host.Outcome State Fault Refusal :=
  .next (heveBegin engine.val ctus0 ctus1 false false s)

/-- A mosaic picture found no partner by its Frame Start plus WIN_US (R347). -/
def execHeveMosaicTimeout (ctus0 ctus1 : List CtuCost) (s : State) : Host.Outcome State Fault Refusal :=
  if heveGang s = 2 then .next (heveBegin 0 ctus0 ctus1 false true s) else .next s

/-- 100 µs after DONE the picture begins without the map of its frame (R349). -/
def execHeveMapTimeout (engine : Fin 2) (ctus0 ctus1 : List CtuCost) (s : State) : Host.Outcome State Fault Refusal :=
  .next (heveBegin engine.val ctus0 ctus1 true false s)

/-! ### Slices -/

/-- A filler data NAL unit of at least `n` bytes (R354). -/
def fillerNal (n : Nat) : List Byte := [0, 0, 1, 0x4C, 0x01] ++ List.replicate (n - 6) 0xFF ++ [0x80]

/-- FLAGS of a chunk (R357). -/
def chunkFlags (s : State) (p : HevePic) (first last : Bool) : Nat :=
  let fl := (p.left.map (srcFlags s)).getD 0 ||| (p.right.map (srcFlags s)).getD 0
  boolNat first + 2 * boolNat last + 4 * boolNat p.idr + 8 * boolNat p.newSeq + 16 * boolNat (p.floored != 0) +
  32 * boolNat p.mapMissing + 64 * boolNat (fl.testBit 3) + 128 * boolNat (fl.testBit 2) + 256 * boolNat (fl.testBit 1) +
  512 * boolNat (p.gang == 2 && (p.left.isNone || p.right.isNone)) + 1024 * boolNat (decide (2 ≤ p.hits)) +
  2048 * boolNat (decide (1 ≤ p.hits))

/-- A chunk of `bytes` for the slice `slice` of `ctus` CTUs; EMIT is filled in when it is written (R357). -/
def chunkOf (s : State) (e : Nat) (p : HevePic) (first last : Bool) (slice ctus auBits : Nat) (bytes : List Byte) : Chunk :=
  let num := (p.source.map (·.num)).getD 0
  let fs := (p.source.map (srcFs s)).getD 0
  let unit := 90000 * latched p.cfg HEVE_TIME_SCALE.SCALE
  { header := [0x45, 0x48, 0x43, 0x4B] ++ leBytes 1 1 ++ leBytes 1 (if p.gang = 0 then e else 0) ++
      leBytes 2 (chunkFlags s p first last) ++ leBytes 4 bytes.length ++ leBytes 2 slice ++ leBytes 2 ctus ++
      leBytes 8 num ++ leBytes 6 (fs / 1000000000) ++ leBytes 1 ((p.source.map (·.src)).getD 0) ++ leBytes 1 0 ++
      leBytes 4 (fs % 1000000000) ++ leBytes 4 p.poc ++ leBytes 4 p.epoch ++ leBytes 4 (if last then auBits else 0) ++
      leBytes 4 (p.fill / unit) ++ leBytes 2 (min p.floored 65535) ++ leBytes 2 0
    bytes := bytes }

/-- Bytes of filler that the access unit needs after `b` bits (R354). -/
def fillerBytes (p : HevePic) (b : Nat) : Nat :=
  let ts := latched p.cfg HEVE_TIME_SCALE.SCALE
  let unit := 90000 * ts
  let arrive := latched p.cfg HEVE_RATE.KBPS * 1000 * latched p.cfg HEVE_TICK.TICK * 90000
  let cap := latched p.cfg HEVE_CPB.KBIT * 1000 * unit
  if latched p.cfg HEVE_CTRL.RC = 1 ∨ p.fill + arrive ≤ cap + b * unit then 0
  else max 6 (ceilDiv (p.fill + arrive - cap - b * unit) (8 * unit))

/-- The picture ends: its sources return to their heads, the model takes its bits away (R338, R350, R354). -/
def heveEnd (e : Nat) (p : HevePic) (bits : Nat) (s : State) : State :=
  let ts := latched p.cfg HEVE_TIME_SCALE.SCALE
  let unit := 90000 * ts
  let after := p.fill - bits * unit
  let next := after + latched p.cfg HEVE_RATE.KBPS * 1000 * latched p.cfg HEVE_TICK.TICK * 90000
  let cap := latched p.cfg HEVE_CPB.KBIT * 1000 * unit
  let s := releaseSrc p.left (releaseSrc p.right s)
  let s := modHeve e (fun h => { h with pic := none, fill := if latched p.cfg HEVE_CTRL.RC = 1 then min cap next else next }) s
  let s := (s.setFld (HEVE_CPB_FILL.BITS e) (after / unit)).addFld (HEVE_CNT_PIC.COUNT e) 1
  heveShow 1 (heveShow e s)

/-- The lines of a slice are there to be coded (R335). -/
def sliceReady (s : State) (p : HevePic) (row : Nat) : Bool :=
  let ok (o : Option HeadOut) := o.all (fun o => srcDone s o || decide (min (64 * (row + 1)) p.height ≤ srcLines s o))
  ok p.left && ok p.right

/-- A detection in the slice in coding of picture `p`: it is coded once more, then in intra floor mode; the next picture is an IDR
picture. The bits and the budget count a slice only when its chunk is written, so they stand at its start (R360). -/
def heveDetect (e : Nat) (p : HevePic) (s : State) : State :=
  if 2 ≤ p.hits then s
  else
    let s := modHeve e (fun h => { h with pic := some { p with hits := p.hits + 1 }, idrNext := true }) s
    let s := heveFlag HEVE_EVENT.RECODE .info e s
    if p.hits = 0 then s else heveFlag HEVE_EVENT.ENC_FAULT .warning e s

/-- The bits that a slice may take: the charge of each CTU, of its normal coding or of floor mode, and OVH_SLICE for what goes round them
(R352). -/
def sliceRoom (s : State) (p : HevePic) (sl : SlicePlan) : Nat :=
  640 + (sl.ctuAt.zipIdx.map (fun e =>
    let i := sl.first + e.2
    if p.lost s e.1 ∨ p.normal.getD sl.engine 0 ≤ i then floorCharge p.idr else ctuBound (p.cost sl.engine i))).sum

/-- The reference region of a picture, as a DRAM address and bytes (`HEVE_REF_BASE`, `HEVE_REF_SIZE`). -/
def HevePic.refRegion (p : HevePic) : Nat × Nat :=
  (p.reg HEVE_REF_BASE_LO.ADDR * 4096 + p.reg HEVE_REF_BASE_HI.ADDR * 2 ^ 32, p.reg HEVE_REF_SIZE.MIB * 2 ^ 20)

/-- A reference read of the slice in coding meets poison (R360, R377): the region holds some, and whether it is read is a free value. -/
def refHit (s : State) (p : HevePic) : Bool :=
  !p.intra && s.poisoned (dramOff p.refRegion.1) p.refRegion.2 && (Config.openRead s.ticks p.refRegion.1).getLsbD 0

/-- The next slice of a picture is complete: its chunk is written (R357, R358). A slice waits while the CABAC engine waits for
ring space (R359), and a poisoned reference read is a detection in it (R360). `x` is what the engine chose in its header, `data` its
coded CTUs, no more bits than they are charged. -/
def heveSlice (e : Nat) (x : SliceOpen) (data : List Byte) (s : State) : State :=
  match (heveEng s e).pic with
  | none => s
  | some p =>
    match p.slices with
    | [] => s
    | sl :: rest =>
      if sliceReady s p sl.lastRow = false ∨ (heveEng s e).held.isEmpty = false then s
      else if refHit s p then heveDetect e p (dramSeen (dramOff p.refRegion.1) p.refRegion.2 s)
      else if sliceRoom s p sl < 8 * data.length then s
      else
        let first := p.index == 0
        let out := (if first then leadUnits s p else []) ++ sliceUnit p sl x data
        let bits := p.bits + 8 * out.length
        let fill := if rest.isEmpty then fillerBytes p bits else 0
        let last := rest.isEmpty && fill == 0
        let q := { p with slices := rest, index := p.index + 1, bits := bits, hits := 0, coded := p.coded ++ sliceModes s p sl }
        let s := heveEmit e (chunkOf s e p first last p.index sl.ctus bits out) s
        if rest.isEmpty = false then modHeve e (fun h => { h with pic := some q }) s
        else if fill = 0 then heveEnd e q bits s
        else
          let bits := bits + 8 * fill
          heveEnd e q bits (heveEmit e (chunkOf s e q false true q.index 0 bits (fillerNal fill)) s)

def execHeveSliceEmit (engine : Fin 2) (lead : SliceOpen) (bytes : List Byte) (s : State) : Host.Outcome State Fault Refusal :=
  .next (heveSlice engine.val lead bytes s)

def execHeveDetection (engine : Fin 2) (s : State) : Host.Outcome State Fault Refusal :=
  let e := if ((heveEng s 0).pic.map (·.gang)).getD 0 = 0 then engine.val else 0
  match (heveEng s e).pic with
  | none => .next s
  | some p => .next (heveDetect e p s)

/-- `HEVE_CNT_CTRL.CLEAR` (R339). -/
def execHeveCounterClear (engine : Fin 2) (s : State) : Host.Outcome State Fault Refusal :=
  let e := engine.val
  .next (((((busOk 0 s).setFld (HEVE_CNT_PIC.COUNT e) 0).setFld (HEVE_CNT_FLOOR.COUNT e) 0).setFld (HEVE_CNT_DROP.COUNT e) 0))

/-! ### Hooks of other rules -/

/-- A cue point gives a disabled engine a valid configuration, or takes the enable of one away (R334, R339); it may lower WAIT_MAX
(R336), and engine 1 of a TILES gang has no source of its own (R345). -/
def heveCuePoint (e : Nat) (s : State) : State :=
  if heveOn s e = false ∨ (e = 1 ∧ heveGang s = 1) then heveReleaseWaiting e s
  else
    let s := heveTrim e s
    let g := if e = 0 then heveGang s else 0
    let dl := parseHead (halfDesc s none e)
    let dr := parseHead (halfDesc s none 1)
    let twin := e = 1 ∧ heveGang s = 0 ∧ heveOn s 0 ∧ s.fld (HEVE_CTRL.PORT 0) = s.fld (HEVE_CTRL.PORT 1)
    let bad := heveInvalid (heveRegs s e) g (heveOn s 1) (dl.ow, dl.oh, dl.format, dl.depth)
      (dr.ow, dr.oh, dr.format, dr.depth)
    if (heveEng s e).bad ∧ bad = false ∧ ¬ twin then heveShow e (modHeve e (fun h => { h with bad := false }) s) else s

end Sys2Proof.Machine
end

