-- ==== Sys2Proof/Machine/Pipe.lean ====
section
/-! DEFINITION. The pixel pipeline (05_pixel_pipeline.md): the arithmetic of its stages (R148 to R163), slices, detection and
replay (R167 to R172), and its commands. -/

namespace Sys2Proof.Machine

/-! ### Arithmetic (R148) -/

/-- Division rounded half up; a negative value as the negation of its magnitude rounded half up (R148). -/
def roundDiv (a : Int) (d : Nat) : Int :=
  if 0 ≤ a then (a + (d / 2 : Nat)) / (d : Int) else -((-a + (d / 2 : Nat)) / (d : Int))

def clampTo (hi : Nat) (a : Int) : Nat := (max 0 (min (hi : Int) a)).toNat

/-- The U20 clamp of R148. -/
def clampU20 (a : Int) : Nat := clampTo 1048575 a

/-! ### Stages 0 to 4 -/

def PipeJob.ctrl (j : PipeJob) (b : Nat) : Bool := ((j.regs.getD 0 0).toNat).testBit b
def PipeJob.table (j : PipeJob) (n o k : Nat) : Nat := leNat (readList 0 ((j.tables[n]?).getD []) o k)
def PipeJob.chan (j : PipeJob) (x y : Nat) : Nat := cfaChannel j.src.d.cfa x y

/-- The raw value at (x, y), aligned to 20 bits (R149). -/
def stage0 (s : State) (j : PipeJob) (x y : Nat) : Nat :=
  let w := dtWidth j.src.d.dt
  let a := j.src.addr + y * j.src.d.lineBytes + x / groupPixels w * groupBytes w
  groupPixel w (s.dramBytes a (groupBytes w)) (x % groupPixels w) * 2 ^ (20 - w)

/-- Black level and column offset (R150). -/
def stage1 (s : State) (j : PipeJob) (x y : Nat) : Nat :=
  let v := stage0 s j x y
  if j.ctrl 1 then v
  else clampU20 ((v : Int) - ((j.regs.getD (1 + j.chan x y) 0).toNat % 2 ^ 20 : Nat) - toSigned 16 (j.table 0 (2 * x) 2))

/-- The entries of the defect map that apply: line, column, method (R151). -/
def defects (j : PipeJob) : List (Nat × Nat × Nat) :=
  let n := min 1048576 ((j.regs.getD 7 0).toNat % 2 ^ 21)
  (List.range n).filterMap (fun i =>
    let w := j.table 1 (4 * i) 4
    let ordered := i == 0 || decide (j.table 1 (4 * (i - 1)) 4 / 8 < w / 8)
    if ordered ∧ bits w 31 18 < j.src.d.height ∧ bits w 17 3 < j.src.d.width ∧ w % 8 < 4 then
      some (bits w 31 18, bits w 17 3, w % 8)
    else none)

/-- Entries of the defect map that R151 ignores. -/
def defectsIgnored (j : PipeJob) : Nat := min 1048576 ((j.regs.getD 7 0).toNat % 2 ^ 21) - (defects j).length

/-- The values of the candidate neighbours of a defect (R152); `ds` are the applied entries, whose pixels are no candidates (DESIGN
CHOICE, assumption 164). -/
def defectCandidates (s : State) (j : PipeJob) (ds : List (Nat × Nat × Nat)) (x y method : Nat) : List Nat :=
  let d : Int := if j.src.d.cfa = 4 then 1 else 2
  let offs : List (Int × Int) :=
    if method = 0 then [(-1, 0), (1, 0)] else if method = 1 then [(0, -1), (0, 1)]
    else if method = 2 then [(-1, 0), (1, 0), (0, -1), (0, 1)]
    else [(-1, -1), (0, -1), (1, -1), (-1, 0), (1, 0), (-1, 1), (0, 1), (1, 1)]
  offs.filterMap (fun o =>
    let cx := (x : Int) + o.1 * d
    let cy := (y : Int) + o.2 * d
    if 0 ≤ cx ∧ cx < j.src.d.width ∧ 0 ≤ cy ∧ cy < j.src.d.height ∧
       ds.any (fun e => e.1 == cy.toNat && e.2.1 == cx.toNat) = false then some (stage1 s j cx.toNat cy.toNat)
    else none)

/-- The median, or the mean of the two middle values (R152). -/
def medianOf (l : List Nat) : Nat :=
  let m := l.mergeSort (fun a b => decide (a ≤ b))
  let n := m.length
  if n % 2 = 1 then m.getD (n / 2) 0 else (m.getD (n / 2 - 1) 0 + m.getD (n / 2) 0 + 1) / 2

/-- Defect replacement (R152). -/
def stage2 (s : State) (j : PipeJob) (ds : List (Nat × Nat × Nat)) (x y : Nat) : Nat :=
  match (if j.ctrl 2 then none else ds.find? (fun e => e.1 == y && e.2.1 == x)) with
  | none => stage1 s j x y
  | some e =>
    let c := defectCandidates s j ds x y e.2.2
    if c.isEmpty then stage1 s j x y
    else if e.2.2 = 3 then medianOf c else (c.sum + c.length / 2) / c.length

/-- The flat-field gain at (x, y) (R153). -/
def flatGain (j : PipeJob) (x y : Nat) : Nat :=
  let c := j.chan x y
  let axis (p n : Nat) : Nat × Nat :=
    let u := p * 255 * 65536 / (n - 1)
    if u / 65536 = 255 then (254, 65536) else (u / 65536, u % 65536)
  let (i, fu) := axis x j.src.d.width
  let (k, fv) := axis y j.src.d.height
  let n (a b : Nat) := j.table 2 (131072 * c + 512 * b + 2 * a) 2
  (n i k * (65536 - fu) * (65536 - fv) + n (i + 1) k * fu * (65536 - fv) + n i (k + 1) * (65536 - fu) * fv +
    n (i + 1) (k + 1) * fu * fv + 2 ^ 31) / 2 ^ 32

/-- Flat field and white balance (R153, R154). -/
def stage4 (s : State) (j : PipeJob) (ds : List (Nat × Nat × Nat)) (x y : Nat) : Nat :=
  let v := stage2 s j ds x y
  let v := if j.ctrl 3 then v else clampTo 1048575 ((v * flatGain j x y + 8192) / 2 ^ 14 : Nat)
  let wb := let r := (j.regs.getD (if j.chan x y < 2 then 5 else 6) 0).toNat
            if j.chan x y % 2 = 0 then r / 65536 else r % 65536
  if j.ctrl 4 then v else clampTo 1048575 ((v * wb + 2048) / 2 ^ 12 : Nat)

/-! ### Demosaic (R155) -/

/-- A coordinate reflected about the edge pixel. -/
def reflect (n : Nat) (i : Int) : Nat := if i < 0 then (-i).toNat else if (n : Int) ≤ i then
    (2 * ((n : Int) - 1) - i).toNat else i.toNat

/-- The stage 4 output at a position that may lie outside the frame. -/
def at4 (s : State) (j : PipeJob) (ds : List (Nat × Nat × Nat)) (x y : Int) : Int :=
  (stage4 s j ds (reflect j.src.d.width x) (reflect j.src.d.height y) : Nat)

/-- The mean of the four orthogonal greens of a non-green site. -/
def greenHat (v : Int → Int → Int) (x y : Int) : Int :=
  roundDiv (v (x - 1) y + v (x + 1) y + v x (y - 1) + v x (y + 1)) 4

/-- The interpolated green of a red or blue site. -/
def greenAt (v : Int → Int → Int) (k : Int) (x y : Int) : Int :=
  let gh := |v (x - 1) y - v (x + 1) y| + |2 * v x y - v (x - 2) y - v (x + 2) y|
  let gv := |v x (y - 1) - v x (y + 1)| + |2 * v x y - v x (y - 2) - v x (y + 2)|
  let eh := roundDiv (2 * (v (x - 1) y + v (x + 1) y) + 2 * v x y - v (x - 2) y - v (x + 2) y) 4
  let ev := roundDiv (2 * (v x (y - 1) + v x (y + 1)) + 2 * v x y - v x (y - 2) - v x (y + 2)) 4
  let g := if gh * 128 < gv * k then eh else if gv * 128 < gh * k then ev else roundDiv (eh + ev) 2
  (clampU20 g : Nat)

/-- A missing colour at a green site from its two nearest sites in one direction. -/
def sideColour (v : Int → Int → Int) (x y dx dy : Int) : Nat :=
  let d := v (x - dx) (y - dy) - greenHat v (x - dx) (y - dy) + (v (x + dx) (y + dy) - greenHat v (x + dx) (y + dy))
  clampU20 (roundDiv (2 * v x y + d) 2)

/-- The opposite colour at a red or blue site from the four diagonal sites. -/
def diagColour (v : Int → Int → Int) (g x y : Int) : Nat :=
  let d (dx dy : Int) := v (x + dx) (y + dy) - greenHat v (x + dx) (y + dy)
  clampU20 (roundDiv (4 * g + d (-1) (-1) + d 1 (-1) + d (-1) 1 + d 1 1) 4)

/-- Red, green and blue at (x, y) (R155). -/
def stage5 (s : State) (j : PipeJob) (ds : List (Nat × Nat × Nat)) (x y : Nat) : Nat × Nat × Nat :=
  let v := at4 s j ds
  let c := j.chan x y
  let k : Int := (bits (j.regs.getD 0 0).toNat 30 23 : Nat)
  let here := stage4 s j ds x y
  if j.src.d.cfa = 4 then (here, here, here)
  else if c = 0 then
    let g := greenAt v k x y
    (here, g.toNat, diagColour v g x y)
  else if c = 3 then
    let g := greenAt v k x y
    (diagColour v g x y, g.toNat, here)
  else if c = 1 then (sideColour v x y 1 0, here, sideColour v x y 0 1)
  else (sideColour v x y 0 1, here, sideColour v x y 1 0)

/-! ### Colour (R156 to R158) -/

/-- The colour matrix (R156). -/
def stage6 (j : PipeJob) (p : Nat × Nat × Nat) : Nat × Nat × Nat :=
  let m (i : Nat) : Int := toSigned 18 (j.table 3 (4 * i) 4)
  let row (r : Nat) := clampU20 ((m (3 * r) * p.1 + m (3 * r + 1) * p.2.1 + m (3 * r + 2) * p.2.2 + 8192) / 16384)
  if j.ctrl 5 then p else (row 0, row 1, row 2)

/-- The 3D LUT, interpolated in tetrahedra (R157). -/
def stage7 (j : PipeJob) (p : Nat × Nat × Nat) : Nat × Nat × Nat :=
  if j.ctrl 6 = false then p
  else
    let base := [p.1 / 32768, p.2.1 / 32768, p.2.2 / 32768]
    let fr := [(p.1 % 32768, 0), (p.2.1 % 32768, 1), (p.2.2 % 32768, 2)]
    let order := fr.mergeSort (fun a b => decide (b.1 < a.1) || (a.1 == b.1 && decide (a.2 ≤ b.2)))
    let node (i : List Nat) : Nat := j.table 4 (8 * (i.getD 0 0 + 33 * i.getD 1 0 + 1089 * i.getD 2 0)) 8
    let bump (i : List Nat) (a : Nat) := modAt i a (· + 1)
    let p1 := bump base ((order.map (·.2)).getD 0 0)
    let p2 := bump p1 ((order.map (·.2)).getD 1 0)
    let p3 := bump p2 ((order.map (·.2)).getD 2 0)
    let f (i : Nat) : Int := ((order.map (·.1)).getD i 0 : Nat)
    let chan (sh : Nat) : Nat :=
      let c (i : List Nat) : Int := (node i / 2 ^ sh % 2 ^ 20 : Nat)
      clampU20 (roundDiv (32768 * c base + f 0 * (c p1 - c base) + f 1 * (c p2 - c p1) + f 2 * (c p3 - c p2)) 32768)
    (chan 0, chan 20, chan 40)

/-- A tone curve (R158). -/
def toneCurve (j : PipeJob) (c x : Nat) : Nat :=
  let t (i : Nat) : Int := (j.table 5 (8192 * c + 2 * i) 2 : Nat)
  if 1048320 ≤ x then (t 4095).toNat
  else clampTo 65535 (t (x / 256) + roundDiv ((t (x / 256 + 1) - t (x / 256)) * (x % 256 : Nat)) 256)

/-- The developed pixel, three U16 (stages 5 to 8). -/
def developed (s : State) (j : PipeJob) (ds : List (Nat × Nat × Nat)) (x y : Nat) : Nat × Nat × Nat :=
  let p := stage7 j (stage6 j (stage5 s j ds x y))
  if j.ctrl 7 then (p.1 / 16, p.2.1 / 16, p.2.2 / 16)
  else (toneCurve j 0 p.1, toneCurve j 1 p.2.1, toneCurve j 2 p.2.2)

/-! ### Heads (R161 to R164) -/

/-- The coefficients of Y, Cb and Cr (R161). -/
def yccCoef (std comp : Nat) : List Int :=
  if std = 0 then [[3483, 11718, 1183], [-1877, -6315, 8192], [8192, -7441, -751]].getD comp []
  else [[4304, 11108, 972], [-2288, -5904, 8192], [8192, -7533, -659]].getD comp []

/-- A code of component `comp` with 4 extra fraction bits (R161); head 1 components are 8-bit R, G and B. -/
def headCode (h : Nat) (d : HeadDesc) (comp : Nat) (e : Nat × Nat × Nat) : Nat :=
  if h = 1 then 16 * min 255 (((if comp = 0 then e.1 else if comp = 1 then e.2.1 else e.2.2) + 128) / 256)
  else
    let k := yccCoef (d.ycc % 4) comp
    let sum : Int := k.getD 0 0 * e.1 + k.getD 1 0 * e.2.1 + k.getD 2 0 * e.2.2
    let n := d.depth
    let D : Nat := 16384 * 65535
    let full := d.ycc.testBit 2
    let v : Int :=
      if comp = 0 then
        if full then roundDiv (sum * ((2 ^ n - 1) * 16 : Nat)) D
        else roundDiv (sum * (219 * 2 ^ (n - 4) : Nat) + (16 * 2 ^ (n - 4) * D : Nat)) D
      else if full then roundDiv (sum * ((2 ^ n - 1) * 16 : Nat) + (2 ^ (n + 3) * D : Nat)) D
      else roundDiv (sum * (224 * 2 ^ (n - 4) : Nat) + (128 * 2 ^ (n - 4) * D : Nat)) D
    clampTo (2 ^ (n + 4) - 1) v

/-- The scaler step (R162). -/
def scaleStep (c pre o : Nat) : Nat := c * 65536 / (pre * o)

/-- Integer position and phase of a scaler position; a negative one is column 0 with phase 0 (R162). -/
def scalePos (p : Int) : Int × Nat := if p < 0 then (0, 0) else (p / 65536, (p % 65536).toNat / 1024)

/-- Column of luma output `j`, or of chroma output `j` when `sub` holds (R162, R163). -/
def posX (d : HeadDesc) (w j : Nat) (sub : Bool) : Int × Nat :=
  let st := scaleStep (cropX d w).2 (boxOf d.hpre) d.ow
  scalePos (((if sub then 2 * j else j) * st + st / 2 : Nat) - 32768)

/-- Line of luma output `l`, or of chroma output line `l` taken at luma line 2l + 0.5 when `sub` holds (R163). -/
def posY (d : HeadDesc) (h l : Nat) (sub : Bool) : Int × Nat :=
  let st := scaleStep (cropY d h).2 (boxOf d.vpre) d.oh
  scalePos ((if sub then 2 * l * st + st / 2 + st / 2 else l * st + st / 2 : Nat) - 32768)

/-- A position of the pre-decimated crop as a frame coordinate, held inside the frame (R162). -/
def cropCoord (o n box : Nat) (k : Int) (i : Nat) : Nat :=
  (max 0 (min ((n : Int) - 1) ((o : Int) + k * box + i))).toNat

/-- A code of the pre-decimated crop (R162). -/
def boxCode (s : State) (j : PipeJob) (ds : List (Nat × Nat × Nat)) (h : Nat) (d : HeadDesc) (comp : Nat) (kx ky : Int) : Nat :=
  let bx := boxOf d.hpre
  let by_ := boxOf d.vpre
  let sum := ((List.range by_).map (fun b => ((List.range bx).map (fun a =>
    headCode h d comp (developed s j ds (cropCoord (cropX d j.src.d.width).1 j.src.d.width bx kx a)
      (cropCoord (cropY d j.src.d.height).1 j.src.d.height by_ ky b)))).sum)).sum
  (sum + bx * by_ / 2) / (bx * by_)

/-- A filter result (R162). -/
def filterTaps (hi : Nat) (cs : List Int) (vs : List Nat) : Nat :=
  clampTo hi ((((cs.zip vs).map (fun p => p.1 * (p.2 : Int))).sum + 512) / 1024)

/-- One output sample, with coefficients in S2.10, the low 12 bits of their words (R3, R162): component `comp` at output column
`x`, line `y`, on the subsampled grid where the flags say so. -/
def headSample (s : State) (j : PipeJob) (ds : List (Nat × Nat × Nat)) (h comp x y : Nat) (subX subY : Bool) : Nat :=
  let d := j.head h
  let base := 1792 * (2 * j.src.set + h)
  let (ix, fx) := posX d j.src.d.width x subX
  let (iy, fy) := posY d j.src.d.height y subY
  let hi := if h = 1 then 4095 else 2 ^ (d.depth + 4) - 1
  let cx := (List.range 8).map (fun t => toSigned 12 (j.table 7 (base + 16 * fx + 2 * t) 2 % 4096))
  let cy := (List.range 6).map (fun t => toSigned 12 (j.table 7 (base + 1024 + 12 * fy + 2 * t) 2 % 4096))
  let rows := (List.range 6).map (fun u => filterTaps hi cx ((List.range 8).map (fun t =>
    boxCode s j ds h d comp (ix - 3 + t) (iy - 2 + u))))
  min (if h = 1 then 255 else 2 ^ d.depth - 1) ((filterTaps hi cy rows + 8) / 16)

/-- The bytes of a luma or RGB output line (R164). `fill` replaces the picture by the damage fill of R170. -/
def lumaLine (s : State) (j : PipeJob) (ds : List (Nat × Nat × Nat)) (h y : Nat) (fill : Bool) : List Byte :=
  let d := j.head h
  ((List.range d.ow).map (fun x =>
    if h = 0 then
      leBytes 2 (if fill then (if d.ycc.testBit 2 then 0 else 16 * 2 ^ (d.depth - 8)) else headSample s j ds 0 0 x y false false)
    else
      let c (k : Nat) := if fill then (if k = 1 then 0 else 255) else headSample s j ds 1 k x y false false
      if d.format = 8 then leBytes 1 (c 0) ++ leBytes 1 (c 1) ++ leBytes 1 (c 2)
      else leBytes 4 (255 * 2 ^ 24 + c 0 * 65536 + c 1 * 256 + c 2))).flatten

/-- The bytes of a chroma line: Cb and Cr interleaved (R164). -/
def chromaLine (s : State) (j : PipeJob) (ds : List (Nat × Nat × Nat)) (y : Nat) (fill : Bool) : List Byte :=
  let d := j.head 0
  ((List.range (if d.format = 0 then d.ow else d.ow / 2)).map (fun x =>
    let c (k : Nat) := if fill then 2 ^ (d.depth - 1) else headSample s j ds 0 k x y (d.format != 0) (d.format == 2)
    leBytes 2 (c 1) ++ leBytes 2 (c 2))).flatten

/-- The last frame line that output line `l` of a head needs. -/
def needsLine (j : PipeJob) (h l : Nat) : Nat :=
  let d := j.head h
  let at_ (p : Int × Nat) : Nat := cropCoord (cropY d j.src.d.height).1 j.src.d.height (boxOf d.vpre) (p.1 + 3) (boxOf d.vpre - 1)
  let luma := at_ (posY d j.src.d.height l false)
  if h = 0 ∧ d.format = 2 then max luma (at_ (posY d j.src.d.height (l / 2) true)) else luma

/-- Output lines of a head that are complete once slices 0 to `k` are developed. -/
def linesAfter (j : PipeJob) (h k : Nat) : Nat :=
  let oh := (j.head h).oh
  if sliceCount j.src.d.height ≤ k + 1 then oh
  else ((List.range oh).takeWhile (fun l => decide (needsLine j h l < 16 * (k + 1)))).length

/-- Write output lines `a` to `b - 1` of a head at its buffer address (R164). In a damaged slice without fill the values
are those of the spoiled pass: bytes that nothing constrains, of the free value `spoiled`. -/
def writeLines (j : PipeJob) (h addr a b : Nat) (fill : Bool) (spoiled : Option Nat) (s : State) : State :=
  let d := j.head h
  let ds := defects j
  let put (at_ : Nat) (bs : List Byte) (t : State) : State := t.writeBuf at_ (match spoiled with
    | some free => (List.range bs.length).map (fun i => Config.freeByte free (at_ + i))
    | none => bs)
  let t := (List.range (b - a)).foldl (fun t i =>
    put (addr + 256 + (a + i) * d.pitchY) (lumaLine s j ds h (a + i) fill) t) s
  if h = 1 then t
  else
    let c (l : Nat) := if d.format = 2 then l / 2 else l
    (List.range (c b - c a)).foldl (fun t i =>
      put (addr + 256 + d.cOff + (c a + i) * d.pitchC) (chromaLine s j ds (c a + i) fill) t) t

/-! ### Frames and slices -/

/-- The pipeline has a powered quarter (R141). -/
def pipePowered (s : State) : Bool := s.domainOn 10 || s.domainOn 11 || s.domainOn 12 || s.domainOn 13

/-- A frame of port `p` is offered to the pipeline: selected under R141, waiting, and the oldest skipped when too many wait
(R146). A frame that starts while the port or the pipeline is off does not advance the count of DECIM (DESIGN CHOICE, assumption
122). -/
def offerFrame (src : PipeSrc) (s : State) : State :=
  let p := src.set
  if s.flag PIPE_CTRL.EN = false ∨ s.flag (PIPE_PORT.EN p) = false ∨ pipePowered s = false then s
  else if (pipePort s p).phase ≠ 0 then modPipePort p (fun x => { x with phase := x.phase - 1 }) s
  else
    lagSkip p (modPipePort p (fun x =>
      { x with phase := max 1 (s.fld (PIPE_PORT.DECIM p)) - 1, waiting := x.waiting ++ [src] }) s)

/-- The Frame Start time of a frame is known anew while it waits or is developed (R114, R127). -/
def pipeTime (num fs : Nat) (s : State) : State :=
  let at_ (w : PipeSrc) : PipeSrc := if w.live && w.num == num then { w with fs := fs } else w
  setPipe { s.pipe with ports := s.pipe.ports.map (fun x =>
    { x with waiting := x.waiting.map at_, job := x.job.map (fun j => { j with src := at_ j.src }) }) } s

/-- A Frame Start of port `p` (R140, R141, R146). A frame without a ring slot is skipped. -/
def pipeFrameStart (num : Nat) (s : State) : State :=
  match frameOf s num with
  | none => s
  | some f =>
    if s.mode < 2 ∨ 4 < s.mode then s
    else
      let src : PipeSrc := { num := num, port := f.port, vc := f.vc, fs := f.fs, d := f.d, live := true
                             addr := (f.slot.map (slotAddr s f.port)).getD 0 }
      let t := offerFrame src s
      if f.slot.isNone ∧ (pipePort t f.port).waiting.any (fun w => w.num == num) then
        skipFrame src (modPipePort f.port (fun x => { x with waiting := x.waiting.filter (fun w => w.num != num) }) t)
      else t

/-- Port `p` is developed as the configuration in force stands (R141, R173). -/
def pipeDevelops (s : State) (p : Nat) : Bool := s.flag PIPE_CTRL.EN && s.flag (PIPE_PORT.EN p) && pipePowered s

/-- The waiting frame of a port that begins next: the earliest corrected Frame Start, the first to come on a tie (R142). -/
def firstWaiting (q : PipePort) : Option PipeSrc :=
  q.waiting.foldl (fun b w => match b with
    | none => some w
    | some x => if w.fs < x.fs then some w else some x) none

/-- The port whose waiting frame begins next: the earliest corrected Frame Start, the lower port on a tie (R142). The waiting frames
of a port that is no longer enabled wait on (DEDUCED, assumption 115); a frame of another port may begin while an earlier one waits
behind its own port's frame in progress (DESIGN CHOICE, assumption 123). -/
def nextBegin (s : State) : Option Nat :=
  ((List.range 4).filter (fun p => pipeDevelops s p && (pipePort s p).job.isNone && !(pipePort s p).waiting.isEmpty)).foldl (fun b p =>
    let fs (q : Nat) := ((firstWaiting (pipePort s q)).map (·.fs)).getD 0
    match b with
    | none => some p
    | some q => if fs p < fs q then some p else some q) none

/-- The crop window lies inside the frame, and the ratio of R160 holds for a whole-frame crop (R160). -/
def cropFits (d : HeadDesc) (w h : Nat) : Bool :=
  (d.cw == 0 || decide (d.x0 + d.cw ≤ w)) && (d.ch == 0 || decide (d.y0 + d.ch ≤ h)) &&
  ratioOk (cropX d w).2 (boxOf d.hpre) d.ow && ratioOk (cropY d h).2 (boxOf d.vpre) d.oh

/-- A head takes its buffer when a frame begins, or its output is dropped (R160, R165). Answers the buffer and its
address. -/
def takeHead (src : PipeSrc) (h : Nat) (s : State) : Option (Nat × Nat) × State :=
  let p := src.set
  let d := headDesc (s.table 0x08 6) p h
  if (pipePort s p).headOk.getD h false = false then (none, s)
  else if cropFits d src.d.width src.d.height = false then
    (none, pipeFlag PIPE_EVENT.DROP .warning p (s.addFld PIPE_CNT_DROP.COUNT 1))
  else
    let dropped := (s.addFld PIPE_CNT_DROP.COUNT 1).setFlag PIPE_EVENT.DROP true
    if h = 0 then
      match takeBuf p src.num s with
      | none => (none, dropped)
      | some (k, s) =>
        let a := dramOff (d.base + k * d.stride)
        (some (k, a), handPicture 0 p k a false src s)
    else
      match poolTake 2 s with
      | none => (none, dropped)
      | some (k, s) => (some (k, poolAddr s k), handPicture 1 p k (poolAddr s k) false src s)

/-- The next selected frame begins development (R142, R165, R173). A bypassed defect stage does not judge its map (DESIGN CHOICE,
assumption 163). -/
def beginJob (p : Nat) (s : State) : State :=
  match firstWaiting (pipePort s p) with
  | none => s
  | some src =>
    let s := modPipePort p (fun x => { x with waiting := x.waiting.erase src }) s
    let (h0, s) := takeHead src 0 s
    let (h1, s) := takeHead src 1 s
    let j : PipeJob :=
      { src := src, regs := (List.range 8).map (fun i => s.word (0x80000 + 4 * i))
        tables := (List.range 8).map (fun n => s.table 0x08 n)
        swaps := (List.range 8).map (fun n => (keyGet s.cue.swaps (0x08, n)).getD 0), epoch := s.fld CUE_EPOCH.EPOCH, slice := 0,
        granted := false, replaying := false, spent := 0, damaged := [], recomputed := false, filled := false,
        ended := false, due := false, lines := [0, 0], head0 := h0, head1 := h1 }
    let bad := defectsIgnored j
    let s := if j.ctrl 2 = false ∧ bad ≠ 0 then
        pipeFlag PIPE_EVENT.DEFECT_ORDER .warning p (s.addFld PIPE_CNT_DEFECT.COUNT bad) else s
    let lone := (defects j).filter (fun e => (defectCandidates s j (defects j) e.2.1 e.1 e.2.2).isEmpty)
    let s := if j.ctrl 2 then s else s.addFld PIPE_CNT_DEFECT.COUNT lone.length
    writeHeaders j false false ((modPipePort p (fun x => { x with job := some j }) s).orBit PIPE_STATUS.BUSY p)

def execPipeFrameBegin (s : State) : Host.Outcome State Fault Refusal :=
  match nextBegin s with
  | some p => .next (beginJob p s)
  | none => .next s

/-- The next slice of a job has its raw lines in DRAM (R143). -/
def sliceEligible (s : State) (j : PipeJob) : Bool :=
  if j.src.live = false then true
  else
    match frameOf s j.src.num with
    | none => true
    | some f => f.closed || decide (min (16 * j.slice + 20) j.src.d.height ≤ f.rows)

/-- The port that the weighted round robin grants next (R144). -/
def grantPort (s : State) : Option Nat :=
  let ok (p : Nat) : Bool := (pipePort s p).job.any (fun j => sliceEligible s j)
  let weight := max 1 (s.fld (PIPE_PORT.WEIGHT s.pipe.turn))
  if ok s.pipe.turn ∧ s.pipe.run < weight then some s.pipe.turn
  else ((List.range 4).map (fun i => (s.pipe.turn + 1 + i) % 4)).find? ok

/-- An eligible slice is granted, when none is in progress (R144, R169). -/
def execSliceGrant (s : State) : Host.Outcome State Fault Refusal :=
  if s.pipe.ports.any (fun q => q.job.any (fun j => j.granted)) ∨ s.pipe.refresh.isSome then .next s
  else
    match grantPort s with
    | none => .next s
    | some p =>
      let run := if p = s.pipe.turn ∧ s.pipe.run < max 1 (s.fld (PIPE_PORT.WEIGHT p)) then s.pipe.run + 1 else 1
      let s := setPipe { s.pipe with turn := p, run := run } s
      .next (modPipePort p (fun x => { x with job := x.job.map (fun j => { j with granted := true }) }) s)

/-- The port whose slice is in progress. -/
def grantedPort (s : State) : Option (Nat × PipeJob) :=
  (List.range 4).findSome? (fun p => (pipePort s p).job.bind (fun j => if j.granted then some (p, j) else none))

/-- A slice is released: its lines go to DRAM, LINES advances, and the frame ends after its last slice or when it is
reclaimed (R147, R166, R168). -/
def releaseSlice (p : Nat) (j : PipeJob) (fill : Bool) (spoiled : Option Nat) (s : State) : State :=
  let put (h : Nat) (o : Option (Nat × Nat)) (s : State) : State := match o with
    | some (_, a) => writeLines j h a (j.lines.getD h 0) (linesAfter j h j.slice) fill spoiled s
    | none => s
  let s := put 1 j.head1 (put 0 j.head0 s)
  let j2 : PipeJob := { j with slice := j.slice + 1, granted := false, replaying := false, due := false,
                               lines := [linesAfter j 0 j.slice, linesAfter j 1 j.slice] }
  let done := decide (sliceCount j.src.d.height ≤ j.slice + 1)
  if done ∨ j.ended then endJob p j2 j.ended s
  else writeHeaders j2 false false (modPipePort p (fun x => { x with job := some j2 }) s)

/-- RECOMPUTED and DAMAGED reach the ledger record of a live frame (R171). -/
def reportJob (j : PipeJob) (mask : Nat) (s : State) : State := if j.src.live then orFlags j.src.num mask s else s

/-- A slice that no replay is left for is released DAMAGED (R170, R171). -/
def damageSlice (p : Nat) (j : PipeJob) (s : State) : State :=
  let fill := j.ctrl 15
  let s := pipeFlag PIPE_EVENT.DAMAGED .warning p (s.addFld PIPE_CNT_DAMAGED.COUNT 1)
  let s := reportJob j 0x20 s
  releaseSlice p { j with damaged := j.damaged ++ [j.slice], filled := j.filled || fill } fill
    (if fill then none else some s.free) { s with free := s.free + 1 }

/-- A detection in the slice in progress: one replay within the budget (R169, R170), else DAMAGED, which a table refresh delays
(R172). -/
def detectSlice (p : Nat) (j : PipeJob) (s : State) : State :=
  if j.replaying = false ∧ j.spent < ceilDiv (sliceCount j.src.d.height) 64 then
    let s := pipeFlag PIPE_EVENT.REPLAY .info p (s.addFld PIPE_CNT_REPLAY.COUNT 1)
    modPipePort p (fun x => { x with job := some { j with replaying := true, spent := j.spent + 1 } }) s
  else if s.pipe.refresh.isSome then modPipePort p (fun x => { x with job := some { j with due := true } }) s
  else damageSlice p j s

/-- The raw lines of a job's slice with its apron, as an offset into the DRAM and a length (R168). -/
def sliceSpan (j : PipeJob) : Nat × Nat :=
  let a := 16 * j.slice - 4
  let b := min j.src.d.height (16 * j.slice + 20)
  (j.src.addr + a * j.src.d.lineBytes, (b - a) * j.src.d.lineBytes)

/-- A read of the raw lines of a job's slice and its apron is poisoned (R168, R169). -/
def slicePoisoned (s : State) (j : PipeJob) : Bool := s.poisoned (sliceSpan j).1 (sliceSpan j).2

/-- The checks of that read (R375). -/
def sliceSeen (j : PipeJob) (s : State) : State := dramSeen (sliceSpan j).1 (sliceSpan j).2 s

/-- The slice in progress completes: without detection (R168, R169), or a poisoned read of its raw lines is one (R168). -/
def execSliceComplete (s : State) : Host.Outcome State Fault Refusal :=
  match grantedPort s with
  | none => .next s
  | some (p, j) =>
    .next (if s.pipe.refresh.isSome then s
      else if slicePoisoned s j then detectSlice p j (sliceSeen j s)
      else if j.replaying then releaseSlice p { j with recomputed := true } false none (reportJob j 0x10 s)
      else releaseSlice p j false none s)

/-- A table bank of the slice in progress shows a parity error: its refresh begins (R172). -/
def startRefresh (p t : Nat) (s : State) : State :=
  pipeFlag PIPE_EVENT.TABLE_PARITY .recoverable p
    ((setPipe { s.pipe with refresh := some { port := p, table := t } } s).setFlag PIPE_STATUS.TABLE_REFRESH true)

/-- A detection in the slice in progress (R169 to R172); one on a table bank also starts its refresh. -/
def execPipeDetection (table : Option (Fin 8)) (s : State) : Host.Outcome State Fault Refusal :=
  match grantedPort s with
  | none => .next s
  | some (p, j) =>
    .next (detectSlice p j (match table with
      | some t => startRefresh p t.val s
      | none => s))

/-- The CUE block has rewritten the table bank: a slice that waited without a replay left is released DAMAGED (R172). -/
def execTableRefreshDone (s : State) : Host.Outcome State Fault Refusal :=
  let s := (setPipe { s.pipe with refresh := none } s).setFlag PIPE_STATUS.TABLE_REFRESH false
  match grantedPort s with
  | some (p, j) => .next (if j.due then damageSlice p j s else s)
  | none => .next s

/-- A consumer returns a head 0 buffer (R165). -/
def execPipeBufferRelease (port : Fin 4) (buf : Fin 16) (s : State) : Host.Outcome State Fault Refusal :=
  let s := setPipe { s.pipe with out := s.pipe.out.filter (fun o => !(o.head == 0 && o.port == port.val && o.buf == buf.val)) } s
  .next (releaseBuf port.val buf.val s)

/-- `PIPE_CNT_CTRL.CLEAR` (R175). -/
def execPipeCounterClear (s : State) : Host.Outcome State Fault Refusal :=
  let s := busOk 0 s
  if pipePowered s then
    .next (((((s.setFld PIPE_CNT_REPLAY.COUNT 0).setFld PIPE_CNT_DAMAGED.COUNT 0).setFld PIPE_CNT_SKIP.COUNT 0).setFld
      PIPE_CNT_DROP.COUNT 0).setFld PIPE_CNT_DEFECT.COUNT 0)
  else .next s

end Sys2Proof.Machine
end

