-- ==== Sys2Proof/Machine/Time.lean ====
section
/-! DEFINITION. Device time (R432 to R437): the counter, its increment, STEP and SET, holdover; PPS and timecode (R438 to
R440); the grid of the frame schedule (R441, R442). -/

namespace Sys2Proof.Machine

def setClock (c : TimeState) (s : State) : State := { s with clock := c }

/-- Set bit `n` of `TIME_EVENT`; the happening posts an event of class `cls`. -/
def timeEvent (n : Nat) (cls : EventClass) (s : State) : State := postFlag TIME_EVENT.EVENT n cls 15 0xFF 0 s

/-- A command of TIME is refused: the flag and the warning of group 2 kind 4 (R434, R435). -/
def timeRefused (s : State) : State := postKind 4 15 0xFF TIME_CMD.CMD.addr (s.orBit TIME_EVENT.EVENT 1)

/-! ### The counter -/

/-- Device time in units of 2^-40 ns. -/
def DevTime.units (t : DevTime) : Nat := (t.sec.toNat * 1000000000 + t.ns) * 2 ^ 40 + t.frac.toNat

/-- The device time of a count of units. -/
def timeOf (u : Nat) : DevTime :=
  { sec := BitVec.ofNat 48 (u / 2 ^ 40 / 1000000000), ns := u / 2 ^ 40 % 1000000000, frac := BitVec.ofNat 40 u }

/-- `t` moved by `d` ns. -/
def DevTime.plus (t : DevTime) (d : Int) : DevTime := timeOf (((t.units : Int) + d * 2 ^ 40).toNat)

/-- The increment that `TIME_INCR_LO` and `TIME_INCR_HI` name, with bounds of 2.4975 and 2.5025 ns (R433). -/
def incrLow : Nat := 2746030290371
def incrHigh : Nat := 2751527848509
def incrWritten (s : State) : Nat := s.fld TIME_INCR_HI.NS * 2 ^ 40 + s.fld TIME_INCR_HI.FRAC * 2 ^ 32 + s.fld TIME_INCR_LO.FRAC

/-! ### The frame schedule (R441, R442) -/

/-- The grid point k in ns of device time (R441). -/
def gridTime (s : State) (k : Nat) : Nat :=
  (s.clock.anchorHi * 2 ^ 32 + s.fld TIME_SCHED_ANCHOR.SEC) * 1000000000 + s.fld TIME_SCHED_PHASE.NS +
  s.fld TIME_SCHED_STAGGER.NS * s.fld TIME_ARRAY.INDEX + k * s.fld TIME_SCHED_NUM.NS / max 1 (s.fld TIME_SCHED_CTRL.DEN)

/-- The first grid point at or after `t` ns. -/
def gridFrom (s : State) (t : Nat) : Nat :=
  let base := gridTime s 0
  let num := max 1 (s.fld TIME_SCHED_NUM.NS)
  let den := max 1 (s.fld TIME_SCHED_CTRL.DEN)
  if t ≤ base then 0 else ceilDiv ((t - base) * den) num

def schedOn (s : State) : Bool := s.flag TIME_SCHED_CTRL.EN && s.clock.schedOk

/-- After time moves from `old` to `new` ns by STEP or SET: points before the new time are passed over and missed; after a move backward the next is
the first after the new time (R442). -/
def schedMoved (old : Nat) (s : State) : State :=
  if schedOn s = false then s
  else
    let new := s.nowNs
    if old ≤ new then
      let k := gridFrom s (if s.time.frac = 0 then new else new + 1)
      let n := k - s.clock.grid
      if n = 0 then s
      else
        let s := (s.addFld TIME_SCHED_CTRL.MISSED n).orBit TIME_EVENT.EVENT 4
        setClock { s.clock with grid := k } s
    else setClock { s.clock with grid := gridFrom s (new + 1) } s

/-- Time moves from `old` ns by STEP or SET: the cue points that a run of a trigger pin is held against lie as far back as before
(R247). -/
def banksMoved (old : Nat) (s : State) : State :=
  { s with ledger := { s.ledger with pinBanks := s.ledger.pinBanks.map (fun b => (b.1 + s.nowNs - old, b.2)) } }

/-- What waits for the next tick takes effect (R433, R434). -/
def applyNext (n : TimeNext) (s : State) : State :=
  let old := s.nowNs
  match n with
  | .incr v => setClock { s.clock with incr := v } s
  | .step d => schedMoved old <| banksMoved old { s.setFlag TIME_STATUS.VALID true with time := s.time.plus d }
  | .set sec ns =>
    schedMoved old <| banksMoved old { s.setFlag TIME_STATUS.VALID true with time := { sec := BitVec.ofNat 48 sec, ns := ns, frac := 0 } }

/-- One tick of the 400 MHz time clock; while REFCLK is absent the RC oscillator adds eight increments each eighth tick
(R432, R436). The FIFOs of the DRAM ports are judged at every tick (R380). -/
def clockTick (s : State) : State :=
  let s := panicTick (s.clock.next.foldl (fun s n => applyNext n s) (setClock { s.clock with next := [] } s))
  let d := if s.flag TIME_STATUS.RC_CLK then (if s.ticks % 8 = 7 then 8 * s.clock.incr else 0) else s.clock.incr
  { s with ticks := s.ticks + 1, time := timeOf (s.time.units + d) }

/-- A write of `TIME_INCR_HI` (R433). -/
def execTimeIncrWrite (value : Word) (s : State) : Host.Outcome State Fault Refusal :=
  let s := busOk 0 s
  let s := (s.setFld TIME_INCR_HI.NS (bits value.toNat 11 8)).setFld TIME_INCR_HI.FRAC (bits value.toNat 7 0)
  let v := incrWritten s
  let c := clamp incrLow incrHigh v
  let s := setClock { s.clock with next := s.clock.next ++ [.incr c], watchFrom := s.ticks } s
  if c = v then .next s else .next (postActsAs 15 0xFF TIME_INCR_HI.NS.addr s)

/-- Performance and Wings: time never jumps (R434). -/
def recording (s : State) : Bool := s.mode == 3 || s.mode == 4

/-- `TIME_CMD` STEP (R434). -/
def execStep (s : State) : Host.Outcome State Fault Refusal :=
  let s := busOk 0 s
  if recording s then .next (timeRefused s)
  else .next (setClock { s.clock with next := s.clock.next ++ [.step (toSigned 32 (s.fld TIME_ADJ.NS))], watchFrom := s.ticks } s)

/-- `TIME_CMD` SET (R434). -/
def execSet (s : State) : Host.Outcome State Fault Refusal :=
  let s := busOk 0 s
  if recording s ∨ 999999999 < s.fld TIME_SET_NS.VALUE then .next (timeRefused s)
  else .next (setClock { s.clock with
    next := s.clock.next ++ [.set (s.fld64 TIME_SET_SEC_LO.VALUE TIME_SET_SEC_HI.VALUE) (s.fld TIME_SET_NS.VALUE)] } s)

/-! ### Holdover (R435) -/

/-- Holdover begins or goes on with a cause: bit 0 power, 1 link, 2 watch, 3 HOLD, 4 REFCLK of CAUSE. A cause that holds
already begins nothing new. -/
def holdover (cause : Nat) (s : State) : State :=
  if s.flag TIME_STATUS.HOLDOVER ∧ (s.fld TIME_STATUS.CAUSE).testBit cause then s
  else timeEvent 2 .warning ((s.setFlag TIME_STATUS.HOLDOVER true).orBit TIME_STATUS.CAUSE cause)

/-- The servo port: port 0 in Midnight (R435). -/
def servoPort (s : State) : Nat := if s.mode = 7 then 0 else s.fld TIME_CTRL.SERVO_PORT

def netUp (s : State) (p : Nat) : Bool := s.flag (NET_STATUS.LINK p)

/-- `TIME_CMD` HOLD. -/
def execHold (s : State) : Host.Outcome State Fault Refusal := .next (holdover 3 (busOk 0 s))

/-- `TIME_CMD` RELEASE: only while the servo port's link is up and REFCLK is present (R435). -/
def execRelease (s : State) : Host.Outcome State Fault Refusal :=
  let s := busOk 0 s
  if netUp s (servoPort s) ∧ s.flag TIME_STATUS.RC_CLK = false then
    .next (((s.setFlag TIME_STATUS.HOLDOVER false).setFld TIME_STATUS.CAUSE 0).orBit TIME_EVENT.EVENT 3)
  else .next (timeRefused s)

/-- WATCH_MS has passed without a servo update (R435). -/
def execTimeWatchExpire (s : State) : Host.Outcome State Fault Refusal :=
  let ms := s.fld TIME_CTRL.WATCH_MS
  if ms ≠ 0 ∧ s.elapsedNs s.clock.watchFrom (ms * 1000000) then .next (holdover 2 s) else .next s

/-- Port 0's link is not up 1 s after entry to Midnight (R447). -/
def execKeepaliveLinkTimeout (s : State) : Host.Outcome State Fault Refusal :=
  if s.mode = 7 ∧ netUp s 0 = false ∧ s.elapsedNs s.clock.kaFrom 1000000000 then .next (holdover 1 s) else .next s

/-- A read of `TIME_NOW_NS` latches the seconds (R430). -/
def execTimeNowRead (s : State) : Host.Outcome State Fault Refusal :=
  let s := s.setFld64 TIME_NOW_SEC_LO.SEC TIME_NOW_SEC_HI.SEC s.time.sec.toNat
  .next (busOk (BitVec.ofNat 32 s.time.ns) s)

/-! ### PPS and timecode -/

/-- The time added at the last tick that counted, in units of 2^-40 ns (R432, R436). -/
def lastStep (s : State) : Nat := (if s.flag TIME_STATUS.RC_CLK then 8 else 1) * s.clock.incr

/-- The seconds have advanced at this tick. -/
def secondsAdvanced (s : State) : Bool := decide (s.time.units % (1000000000 * 2 ^ 40) < lastStep s)

/-- PPS_OUT asserts as the seconds advance (R438). -/
def execPpsOutAssert (s : State) : Host.Outcome State Fault Refusal :=
  if s.flag TIME_PPS_CTRL.OUT_EN ∧ s.flag TIME_STATUS.VALID ∧ secondsAdvanced s then
    .next (setClock { s.clock with ppsOut := true, ppsFrom := s.ticks } s)
  else .next s

/-- WIDTH_MS have passed since PPS_OUT asserted (R438). -/
def execPpsOutEnd (s : State) : Host.Outcome State Fault Refusal :=
  if s.elapsedNs s.clock.ppsFrom (clamp 1 999 (s.fld TIME_PPS_CTRL.WIDTH_MS) * 1000000) then
    .next (setClock { s.clock with ppsOut := false } s)
  else .next s

/-- The level that PPS_OUT drives: inactive while it is not enabled or time is not valid (R438). -/
def ppsLevel (s : State) : Bool :=
  (s.clock.ppsOut && s.flag TIME_PPS_CTRL.OUT_EN && s.flag TIME_STATUS.VALID) != s.flag TIME_PPS_CTRL.POL

/-- A rising edge of PPS_IN: `time` is the device time of its first high sample in ns. One less than 500 ms after the last captured edge
is ignored (R438). -/
def execPpsInEdge (time : Nat) (s : State) : Host.Outcome State Fault Refusal :=
  if s.flag TIME_PPS_CTRL.IN_EN = false ∨ s.clock.ppsLast.any (fun t => !s.elapsedNs t 500000000) then .next s
  else
    let s := setClock { s.clock with ppsLast := some s.ticks } s
    .next ((s.setFld TIME_PPS_IN.T32 (ofSigned 32 ((time : Int) - 10))).orBit TIME_EVENT.EVENT 6)

/-- The end of a sync word of LTC_IN (R439). -/
def execLtcInWord (word : BitVec 64) (valid : Bool) (s : State) : Host.Outcome State Fault Refusal :=
  if s.flag TIME_LTC_CTRL.IN_EN = false then .next s
  else if valid = false then
    .next (setClock { s.clock with ltcRun := 0 } (s.setFlag TIME_STATUS.LTC_LOCK false))
  else
    let s := s.setFld64 TIME_LTC_IN_LO.VALUE TIME_LTC_IN_HI.VALUE word.toNat
    let s := (s.setFld TIME_LTC_IN_NS.VALUE (s.nowNs % 2 ^ 32)).orBit TIME_EVENT.EVENT 7
    let n := min 2 (s.clock.ltcRun + 1)
    .next (setClock { s.clock with ltcRun := n } (if n = 2 then s.setFlag TIME_STATUS.LTC_LOCK true else s))

/-- Frames per second of an LTC RATE code, rounded up at 29.97. -/
def ltcRate (code : Nat) : Nat := if code = 0 then 24 else if code = 1 then 25 else 30

/-- A second in units of 2^-40 ns. -/
def secondUnits : Nat := 1000000000 * 2 ^ 40

/-- The frame of the day at local time (R440), `tod` seconds and `sub` units of 2^-40 ns into the day: drop-frame numbering at 29.97. -/
def ltcFrame (code tod sub : Nat) : Nat :=
  if code = 2 then
    let n := (tod * secondUnits + sub) * 30 / (1001000000 * 2 ^ 40)
    let m := n % 17982
    n + 18 * (n / 17982) + (if m < 2 then 0 else 2 * ((m - 2) / 1798))
  else tod * ltcRate code + sub * ltcRate code / secondUnits

/-- The 80-bit word of a frame of the day with user bits `ub`; flag bits 0 (R440). -/
def ltcWord (code n ub : Nat) : Nat :=
  let r := ltcRate code
  let f := n % r
  let sec := n / r % 60
  let mn := n / r / 60 % 60
  let hr := n / r / 3600 % 24
  let digits := [f % 10, f / 10, sec % 10, sec / 10, mn % 10, mn / 10, hr % 10, hr / 10]
  (digits.zipIdx.map (fun e => e.1 * 2 ^ (8 * e.2) + ub / 16 ^ e.2 % 16 * 2 ^ (8 * e.2 + 4))).sum + 0xBFFC * 2 ^ 64

/-- The frame of the day that local time shows at device time `t` (R440). -/
def ltcFrameAt (s : State) (t : DevTime) : Nat :=
  let l := (((t.sec.toNat : Int) + toSigned 32 (s.fld TIME_LTC_OFFSET.SEC)) % 86400).toNat
  ltcFrame (s.fld TIME_LTC_CTRL.RATE) l (t.ns * 2 ^ 40 + t.frac.toNat)

/-- The tick is the first of an output word: local time has come to a new frame (R440). -/
def ltcStarts (s : State) : Bool := ltcFrameAt s s.time != ltcFrameAt s (timeOf (s.time.units - lastStep s))

/-- An output word begins (R440). -/
def execLtcOutWord (s : State) : Host.Outcome State Fault Refusal :=
  if s.flag TIME_LTC_CTRL.OUT_EN = false ∨ ltcStarts s = false then .next s
  else
    .next (setClock { s.clock with
      ltcOut := ltcWord (s.fld TIME_LTC_CTRL.RATE) (ltcFrameAt s s.time) (s.fld TIME_LTC_UB.UB) } s)

/-- The schedule takes new settings at a cue point: points strictly after it (R441, R442). `ctrl` says that it loads
`TIME_SCHED_CTRL`. -/
def schedCuePoint (changed ctrl : Bool) (s : State) : State :=
  if changed = false then s
  else
    let s := if ctrl then s.setFld TIME_SCHED_CTRL.MISSED 0 else s
    let s := setClock { s.clock with anchorHi := s.time.sec.toNat / 2 ^ 32 } s
    let short := decide (s.fld TIME_SCHED_NUM.NS < 10000 * max 1 (s.fld TIME_SCHED_CTRL.DEN))
    let s := setClock { s.clock with schedOk := !short, grid := gridFrom s (s.nowNs + 1) } s
    if short ∧ s.flag TIME_SCHED_CTRL.EN then postOther .warning 15 0xFF TIME_SCHED_NUM.NS.addr s else s

end Sys2Proof.Machine
end

