-- ==== Sys2Proof/Machine/Ingest.lean ====
section
/-! DEFINITION. Sensor ingest (04_sensor_ingest.md): packets, lines and frames, gangs, the port counters, and the sensor
control outputs. -/

namespace Sys2Proof.Machine

def modPort (p : Nat) (f : IngestPort → IngestPort) (s : State) : State := { s with ingest := modAt s.ingest p f }

def portOf (s : State) (p : Nat) : IngestPort := (s.ingest[p]?).getD ingestInit

/-- The reference port of port `p`: the lowest member of its group, or itself (R113). -/
def refPort (s : State) (p : Nat) : Nat := ((portOf s p).group.head?).getD p

/-- The members of the group of reference port `r`, or the port alone. -/
def membersOf (s : State) (r : Nat) : List Nat := if (portOf s r).group.isEmpty then [r] else (portOf s r).group

/-- The port opens no further frame: a transition leaves Performance or Wings or takes the port's power, or the safe state
waits for the ports to close (R47, R133, R560). -/
def portClosing (s : State) (p : Nat) : Bool :=
  match s.power.xfer with
  | some x => x.src == 3 || x.src == 4 || (x.src != 7 && !(modeDomains x.dst x.mask).contains (6 + p))
  | none => s.call.safePending

/-- The port takes up new frames (R47, R107, R113). -/
def portRuns (s : State) (p : Nat) : Bool := s.flag (INGEST_CTRL.EN p) && !(portOf s p).refused && !portClosing s p

/-- Member `p` is within open frame `f`. -/
def OpenFrame.holds (f : OpenFrame) (p : Nat) : Bool := f.members.any (fun m => m.port == p && m.started && !m.ended)

/-- The reference port for packets of port `p` on a VC: that of the frame the port is within, whatever group a cue point
has formed since (R65), else that of its group (R113). -/
def refFor (s : State) (p vc : Nat) : Nat :=
  ((List.range 4).find? (fun r => (portOf s r).opens.any (fun f => f.d.vc == vc && f.holds p))).getD (refPort s p)

/-- A port that takes up no new frame discards what belongs to no open frame, uncounted (R47). -/
def ingestDrops (s : State) (p vc : Nat) : Bool :=
  !portRuns s p && !(portOf s (refFor s p vc)).opens.any (fun f => f.d.vc == vc)

/-- The receiver takes packets in (R107, R109, R113, R589), or still finishes a frame it has begun (R47, R65). -/
def portActive (s : State) (p : Nat) : Bool :=
  s.domainOn (6 + p) && (portRuns s p || s.ingest.any (fun r => r.opens.any (fun f => f.holds p)))

/-! ### Counters and events (R128, R130) -/

def ingestClass (t : Nat) : EventClass :=
  if t = 0 ∨ t = 6 ∨ t = 7 ∨ t = 12 ∨ t = 14 then .info else .warning

/-- A counter increment: the flag and the event of its class (R128, R130). -/
def countIngest (p vc t : Nat) (s : State) : State :=
  let s := (s.addFld (INGEST_CNT.COUNT p (16 * vc + t)) 1).orBit (INGEST_EVENT.TYPE p) t
  postEvent { cls := ingestClass t, block := 3, cause := 0x100 + t, inst := p, detail := vc } s

/-- Add to one of the eight counts of a frame's record (R129). -/
def frameCount (num i n : Nat) (s : State) : State :=
  modFrame num (fun f => { f with counts := modAt f.counts i (fun c => satAdd 0xFFFF c n) }) s

/-! ### Streams -/

/-- Descriptor `d` of port `p` in the active bank (R110). -/
def streamDesc (s : State) (p d : Nat) : StreamDesc :=
  let g (o n : Nat) := s.tab 0x04 p (16 * d + o) n
  { en := (g 0 1).testBit 7, seqchk := (g 0 1).testBit 6, vc := g 0 1 % 16, dt := g 1 1, cfa := g 2 1, embMax := g 3 1,
    width := g 4 2, height := g 6 2 }

/-- A frame open on descriptor `d` of reference port `r`. -/
def openFrame (s : State) (r d : Nat) : Option OpenFrame := (portOf s r).opens.find? (fun f => f.desc == d)

/-- The descriptor of reference port `r` whose stream carries VC `vc`: that of an open frame, else one in force (R111). -/
def findStream (s : State) (r vc : Nat) : Option (Nat × StreamDesc) :=
  match (portOf s r).opens.find? (fun f => f.d.vc == vc) with
  | some f => some (f.desc, f.d)
  | none =>
    ((List.range 4).find? (fun d => (portOf s r).valid.getD d false && (streamDesc s r d).vc == vc)).map
      (fun d => (d, streamDesc s r d))

def setOpen (f : OpenFrame) (s : State) : State :=
  modPort f.port (fun p => { p with opens := p.opens.map (fun x => if x.desc = f.desc then f else x) }) s

/-- Replace one member of an open frame. -/
def OpenFrame.modMember (f : OpenFrame) (p : Nat) (g : Member → Member) : OpenFrame :=
  { f with members := f.members.map (fun m => if m.port = p then g m else m) }

/-- CRC-16 of a payload with the CSI-2 polynomial (R109), in the order of the standard. -/
def crc16 (bs : List Byte) : BitVec 16 :=
  bs.foldl (fun c b => (List.range 8).foldl (fun c i =>
    let x := c.getLsbD 0 != b.getLsbD i
    if x then (c >>> 1) ^^^ 0x8408#16 else c >>> 1) c) 0xFFFF#16

/-- A record of the port map is sound (R112): no used lane follows an unused one, and none names a physical lane twice. -/
def portMapSound (r : List Byte) : Bool :=
  let ls := (List.range 8).map (fun k => leAt r k 1)
  let used := ls.takeWhile (fun b => b != 0xFF)
  !r.isEmpty && (ls.drop used.length).all (fun b => b == 0xFF) && (used.map (· % 8)).Nodup

/-- The port map record of port `p`, empty when the map is absent. -/
def portMapRecord (s : State) (p : Nat) : List Byte :=
  (((keyGet s.sys.board [0x53, 0x50, 0x4D, 0x50]).getD []).drop (16 * p)).take 16

/-- Physical lanes that a port uses (R112): from the port map where its record is sound, else lane k on lane k. -/
def physLanes (s : State) (p : Nat) : List Nat :=
  let n := s.fld (INGEST_CTRL.LANES p) + 1
  let r := portMapRecord s p
  let used := ((List.range 8).map (fun k => leAt r k 1)).takeWhile (fun b => b != 0xFF)
  if portMapSound r then (used.take n).map (· % 8) else List.range n

/-- A packet has arrived on port `p`: its lanes carried HS data and are back in LP-11. -/
def packetSeen (p : Nat) (s : State) : State :=
  modPort p (fun x => { x with hsAt := some s.ticks }) (s.setFlag (INGEST_STATUS.STOP p) true)

/-! ### Lines through the split -/

/-- The DRAM offset of line `i` of member `k` in the frame's slot (R114, R221). -/
def lineOffset (f : OpenFrame) (k i : Nat) : Nat :=
  let n := f.members.length
  if f.interleave then (i * n + k) * f.d.lineBytes
  else i * f.d.lineBytes + k * packedBytes (dtWidth f.d.dt) f.lineWidth

/-- Write bytes of a frame to its ring slot, while it has one (R221). -/
def writeSlot (num off : Nat) (bs : List Byte) (s : State) : State :=
  match frameOf s num with
  | none => s
  | some f =>
    match f.slot with
    | some k => s.writeDram (slotAddr s f.port k + off) bs
    | none => s

/-- A packet of `n` bytes passes the ingest buffer of port `p`: credits of path `p`, in 64-byte units (R126, R244). -/
def throughBuffer (p n : Nat) (s : State) : State := creditReturn p (ceilDiv n 64) (creditIssue p (ceilDiv n 64) s)

/-- Lines of one member pass the split: into the ring slot, and on to the cells (R127, R192). -/
def passLines (f : OpenFrame) (p : Nat) (ls : List Line) (s : State) : State :=
  let k := f.members.findIdx (fun m => m.port == p)
  let old := ((f.members[k]?).map (fun m => m.lines.length)).getD 0
  let s := ls.zipIdx.foldl (fun s e => writeSlot f.num (lineOffset f k (old + e.2)) e.1.bytes s) s
  let f := f.modMember p (fun m => { m with lines := m.lines ++ ls })
  let s := modFrame f.num (fun x => { x with rows := f.rowsDone }) (setOpen f s)
  cellLines f s

/-- Complete the missing lines of a member with fill; they are counted (R117, R118, R122). -/
def fillMember (num port desc p : Nat) (s : State) : State :=
  match openFrame s port desc with
  | none => s
  | some f =>
    if f.num ≠ num then s
    else
      match f.members.find? (fun m => m.port == p) with
      | none => s
      | some m =>
        let miss := f.memberLines - m.lines.length
        let l := fillLine (dtWidth f.d.dt) f.lineWidth f.fill []
        passLines f p (List.replicate miss l) (frameCount num 5 miss s)

/-- The frame closes: missing lines filled, its close kind counted, its digests formed, its record complete (R116 to R118,
R122, R129, R284). -/
def closeFrame (f : OpenFrame) (flags : Nat) (s : State) : State :=
  let s := f.members.foldl (fun s m => fillMember f.num f.port f.desc m.port s) s
  let f := (openFrame s f.port f.desc).getD f
  let s := orFlags f.num flags s
  let s := if flags.testBit 0 then countIngest f.port f.d.vc 9 s else s
  let s := if flags.testBit 2 then countIngest f.port f.d.vc 11 s else s
  let s := modPort f.port (fun p => { p with opens := p.opens.filter (fun x => x.desc != f.desc) }) s
  let s := s.clrBit (INGEST_STATUS.OPEN f.port) f.desc
  let rows := f.rows
  let s := modFrame f.num (fun x => { x with
    closed := true, rows := f.d.height, emb := f.emb
    stripes := if x.hashed then (List.range (stripeCount f.d.height)).map (fun k =>
        (keyGet x.redone k).getD (stripeDigest f.num f.d.height k rows)) else [] }) s
  ledgerShow (spillSettled s)

/-- The frame closes TRUNCATED, with SHORT where a member of its group ended short (R115, R122). -/
def closeTruncated (f : OpenFrame) (s : State) : State :=
  closeFrame f (4 + ((frameOf s f.num).map (fun x => x.flags % 2)).getD 0) s

/-! ### Packets -/

/-- A payload that fails its CRC is counted, whether or not its packet is used (R109). -/
def crcCheck (p vc : Nat) (crcOk : Bool) (s : State) : State := if crcOk then s else countIngest p vc 2 s

/-- A pixel line of member `p` (R117, R119 to R121, R126). `cut` says that it ended before its word count; `room` that the
ingest buffer took it. A line past HEIGHT is discarded and counted so alone (DESIGN CHOICE, assumption 161). -/
def pixelLine (f : OpenFrame) (p wc : Nat) (bytes : List Byte) (crcOk cut room : Bool) (s : State) : State :=
  match f.members.find? (fun m => m.port == p) with
  | none => s
  | some m =>
    let w := dtWidth f.d.dt
    let lw := f.lineWidth
    let e := packedBytes w lw
    let vc := f.d.vc
    if f.memberLines ≤ m.lines.length then
      let s := frameCount f.num 6 1 (crcCheck p vc (cut || crcOk) s)
      let long := (frameOf s f.num).any (fun x => x.flags.testBit 1)
      if long then s else countIngest p vc 10 (orFlags f.num 2 s)
    else
      let s := if cut || crcOk then s else frameCount f.num 2 1 (crcCheck p vc false s)
      let s :=
        if cut then orFlags f.num 8 (frameCount f.num 4 1 (countIngest p vc 5 s))
        else if wc < e then frameCount f.num 3 1 (countIngest p vc 3 s)
        else if e < wc then frameCount f.num 3 1 (countIngest p vc 4 s)
        else s
      if room then passLines f p [fillLine w lw f.fill (bytes.take e)] (throughBuffer p bytes.length s)
      else passLines f p [fillLine w lw f.fill []] (frameCount f.num 5 1 (frameCount f.num 7 1 (countIngest p vc 8 s)))

/-- An embedded data packet (R125, R121). -/
def embeddedPacket (f : OpenFrame) (p : Nat) (bytes : List Byte) (crcOk cut : Bool) (s : State) : State :=
  let vc := f.d.vc
  let s := crcCheck p vc (cut || crcOk) s
  if f.d.embMax ≤ f.emb.length then countIngest p vc 14 s
  else
    let s := throughBuffer p (min 16384 bytes.length) (if cut then countIngest p vc 5 s else s)
    let s := if 16384 < bytes.length then countIngest p vc 4 s else s
    let b := bytes.take 16384
    setOpen { f with emb := f.emb ++ [b] }
      (writeSlot f.num (f.d.height * f.d.lineBytes + 16384 * f.emb.length) b s)

/-- The member takes packets of the open frame: started in time and not ended (R115). -/
def memberOpen (f : OpenFrame) (p : Nat) : Bool := f.members.any (fun m => m.port == p && m.started && !m.late && !m.ended)

/-- A corrected header shows in the counts of the frame open on its VC (R129). -/
def frameHeader (p vc : Nat) (corrected : Bool) (s : State) : State :=
  if corrected = false then s
  else
    match (portOf s (refFor s p vc)).opens.find? (fun f => f.d.vc == vc) with
    | some f => frameCount f.num 0 1 s
    | none => s

/-- A corrected header is used and counted (R109). -/
def correctedHeader (p vc : Nat) (corrected : Bool) (s : State) : State :=
  frameHeader p vc corrected (if corrected then countIngest p vc 0 s else s)

/-- A long packet (R108, R119 to R125): a line, embedded data, an orphan, or of an unused VC or type. -/
def longPacket (p vc dt wc : Nat) (bytes : List Byte) (crcOk cut room corrected : Bool) (s : State) : State :=
  if portActive s p = false ∨ ingestDrops s p vc then s
  else
    let s := correctedHeader p vc corrected (packetSeen p s)
    let r := refFor s p vc
    match findStream s r vc with
    | none => countIngest p vc 7 (crcCheck p vc (cut || crcOk) s)
    | some (d, sd) =>
      if dt ≠ 0x12 ∧ dt ≠ sd.dt then countIngest p vc 7 (crcCheck p vc (cut || crcOk) s)
      else
        match openFrame s r d with
        | none => countIngest p vc 6 (crcCheck p vc (cut || crcOk) s)
        | some f =>
          if memberOpen f p = false then countIngest p vc 6 (crcCheck p vc (cut || crcOk) s)
          else if dt = 0x12 then embeddedPacket f p bytes crcOk cut s
          else pixelLine f p wc bytes crcOk cut room s

/-- A long packet of the stream's data type (R120). The CRC is the one the packet carried; `room` says whether the ingest
buffer takes the line (R126); `corrected` that the header needed correction; `parity` lists cells whose SRAM shows a
parity detection (R205). -/
def execPixelLine (port : Fin 4) (vc : Fin 16) (dt : BitVec 6) (bytes : List Byte) (crc : BitVec 16) (corrected room : Bool)
    (parity : List Nat) (s : State) : Host.Outcome State Fault Refusal :=
  .next (longPacket port.val vc.val dt.toNat bytes.length bytes (crc16 bytes == crc) false room corrected (cellParity parity s))

/-- An embedded data packet (R125). -/
def execEmbeddedData (port : Fin 4) (vc : Fin 16) (bytes : List Byte) (crc : BitVec 16) (corrected : Bool) (s : State) :
    Host.Outcome State Fault Refusal :=
  .next (longPacket port.val vc.val 0x12 bytes.length bytes (crc16 bytes == crc) false true corrected s)

/-- A short packet on a VC: Line Start, Line End or Frame End outside a frame is an orphan (R123, R111). -/
def shortPacket (p vc : Nat) (corrected : Bool) (inFrame : OpenFrame → State → State) (s : State) : State :=
  if portActive s p = false ∨ ingestDrops s p vc then s
  else
    let s := correctedHeader p vc corrected (packetSeen p s)
    let r := refFor s p vc
    match findStream s r vc with
    | none => countIngest p vc 7 s
    | some (d, _) =>
      match openFrame s r d with
      | none => countIngest p vc 6 s
      | some f => if memberOpen f p then inFrame f s else countIngest p vc 6 s

/-- Line Start and Line End are accepted and ignored (R108, R123). -/
def execLineStartEnd (port : Fin 4) (vc : Fin 16) (corrected : Bool) (s : State) : Host.Outcome State Fault Refusal :=
  .next (shortPacket port.val vc.val corrected (fun _ s => s) s)

/-- Null and Blanking packets are discarded without count (R108); a corrected header still counts (R109). -/
def execNullBlanking (port : Fin 4) (vc : Fin 16) (corrected : Bool) (s : State) : Host.Outcome State Fault Refusal :=
  if portActive s port.val then .next (correctedHeader port.val vc.val corrected (packetSeen port.val s)) else .next s

/-- A packet whose data type is none of a stream's, or on an unused VC (R108, R111, R124). -/
def execDtUnsel (port : Fin 4) (vc : Fin 16) (dt : BitVec 6) (marks : PacketMarks) (s : State) :
    Host.Outcome State Fault Refusal :=
  let p := port.val
  if portActive s p = false ∨ ingestDrops s p vc.val then .next s
  else
    let s := correctedHeader p vc.val marks.corrected (packetSeen p s)
    let unsel := countIngest p vc.val 7 (crcCheck p vc.val (!marks.crcBad) s)
    match findStream s (refFor s p vc.val) vc.val with
    | some (_, sd) => .next (if dt.toNat = 0x12 ∨ dt.toNat = sd.dt then s else unsel)
    | none => .next unsel

/-- The payload of a frame packet that the port takes in fails its CRC (R109). -/
def discardedCrc (p vc : Nat) (crcBad : Bool) (s : State) : State :=
  if portActive s p = false ∨ ingestDrops s p vc then s else crcCheck p vc (!crcBad) s

/-- A frame packet while its stream has no frame open (R123). -/
def execOrphan (port : Fin 4) (vc : Fin 16) (marks : PacketMarks) (s : State) : Host.Outcome State Fault Refusal :=
  .next (shortPacket port.val vc.val marks.corrected (fun _ s => s) (discardedCrc port.val vc.val marks.crcBad s))

/-- An uncorrectable header or a SoT sync error: the burst is discarded, counted under the VC bits as received and against
every frame open on the port (R109, R129). -/
def execEccUncorr (port : Fin 4) (vc : Fin 16) (s : State) : Host.Outcome State Fault Refusal :=
  let p := port.val
  if portActive s p = false then .next s
  else
    let s := countIngest p vc.val 1 (packetSeen p s)
    let opens := (s.ingest.map (fun r => r.opens.filter (fun f => f.members.any (fun m => m.port == p)))).flatten
    .next (opens.foldl (fun s f => frameCount f.num 1 1 s) s)

/-- The HS burst ended before the declared word count (R121). -/
def execPacketCutEot (port : Fin 4) (vc : Fin 16) (dt : BitVec 6) (wc : BitVec 16) (payload : CutPayload) (s : State) :
    Host.Outcome State Fault Refusal :=
  .next (longPacket port.val vc.val dt.toNat wc.toNat payload.bytes true true payload.room payload.corrected s)

/-- The data lanes have been idle for LINE_US within a packet (R121). -/
def execLineIdleTimeout (port : Fin 4) (vc : Fin 16) (dt : BitVec 6) (wc : BitVec 16) (payload : CutPayload) (s : State) :
    Host.Outcome State Fault Refusal :=
  .next (longPacket port.val vc.val dt.toNat wc.toNat payload.bytes true true payload.room payload.corrected s)

/-! ### Frame Start and Frame End -/

/-- The corrected Frame Start time of port `p` for a header that passes its check now (R131). -/
def correctedTime (s : State) (p : Nat) : Nat :=
  let m := max 1 (s.fld (INGEST_RATE.MBPS p))
  let q : Nat := 2 ^ 40
  let x : Int := (((s.nowNs * q + s.time.frac.toNat) * 2 * m : Nat) : Int) - ((256000 + 25 * m) * q : Nat) -
    (s.fld (INGEST_LAT.NS (refPort s p)) * 2 * m * q : Nat)
  let d : Int := (2 * m * q : Nat)
  ((2 * x + d) / (2 * d)).toNat

/-- The sensor frame number check (R132). -/
def seqCheck (p d vc number : Nat) (seqchk : Bool) (s : State) : State :=
  let last := (keyGet (portOf s p).lastNo d).getD 0
  let gap := seqchk && last != 0 && number != 1 && number != last + 1
  let s := modPort p (fun x => { x with lastNo := keySet x.lastNo d number }) s
  if gap then countIngest p vc 12 s else s

/-- The corrected time of port `p`'s Frame Start is shown (R131). -/
def showFs (p fs : Nat) (s : State) : State :=
  (s.setFld (INGEST_FS_NS.DATA p) (fs % 1000000000)).setFld (INGEST_FS_SEC.DATA p) (fs / 1000000000)

/-- A new frame opens on stream `d` of reference port `r`; `p` is the member whose Frame Start opened it (R115, R116),
`origin` the sender's number of a mirror frame (R465). -/
def openNew (r p d fs : Nat) (sd : StreamDesc) (origin : Option Nat) (s : State) : State :=
  let (num, s) := openRecord r d fs sd origin s
  let f : OpenFrame :=
    { num := num, port := r, desc := d, d := sd, fill := s.fld (INGEST_FILL.VALUE r), emb := [], since := s.ticks
      timeoutMs := max 1 (s.fld (INGEST_TIMEOUT.FRAME_MS r)), skewUs := max 1 (s.fld (INGEST_SKEW.US r))
      interleave := decide (1 < (membersOf s r).length) && s.flag (INGEST_CTRL.STITCH r)
      members := (membersOf s r).map (fun m =>
        { port := m, started := decide (m = p), late := false, ended := false, lines := [] }) }
  let s := modPort r (fun x => { x with opens := x.opens ++ [f] }) s
  let s := (s.orBit (INGEST_STATUS.OPEN r) d)
  let s := s.setFld64 (INGEST_FRAMES_LO.DATA r) (INGEST_FRAMES_HI.DATA r)
    (s.fld64 (INGEST_FRAMES_LO.DATA r) (INGEST_FRAMES_HI.DATA r) + 1)
  pipeFrameStart num (cellFrameStart num r d sd s)

/-- What a Frame Start finds on its stream: no frame, a group frame this member joins, its late Frame Start, or a frame it
truncates (R115, R116, R122). -/
inductive StartCase where
  | fresh | joins (f : OpenFrame) | lateStart (f : OpenFrame) | truncates (f : OpenFrame)
  deriving DecidableEq, Repr

def startCase (s : State) (r p d : Nat) : StartCase :=
  match openFrame s r d with
  | none => .fresh
  | some f =>
    match f.members.find? (fun m => m.port == p) with
    | some m => if m.started then .truncates f else if m.late then .lateStart f else .joins f
    | none => .truncates f

/-- A Frame Start opens its frame with the settings of the cue point that it makes (R65, R69). -/
def openAfter (p vc fs : Nat) (s : State) : State :=
  match findStream s (refPort s p) vc with
  | some (d, sd) => if portRuns s p && s.domainOn (6 + p) then openNew (refPort s p) p d fs sd none s else s
  | none => s

/-- The Frame Start of the reference port gives its group frame its time, in the ledger and for the order of the frames (R114, R127). A
group frame whose reference port comes late, or not at all, keeps the time of the member that opened it (DESIGN CHOICE, assumption
121). -/
def referenceTime (num fs : Nat) (s : State) : State := pipeTime num fs (modFrame num (fun x => { x with fs := fs }) s)

/-- The Frame Start of member `m` is missing past the skew window (R115). -/
def skewOver (f : OpenFrame) (m : Member) (s : State) : Bool := !m.started && !m.late && s.elapsedNs f.since (f.skewUs * 1000)

/-- The skew window of open frame `f` of reference port `r` ends without member `p`'s Frame Start: GANG_LATE, its share filled; the
frame closes when no other member is still to deliver (R115). -/
def gangLate (r p : Nat) (f : OpenFrame) (s : State) : State :=
  let s := countIngest p f.d.vc 13 s
  let f := f.modMember p (fun m => { m with late := true })
  let s := fillMember f.num r f.desc p (setOpen f s)
  match openFrame s r f.desc with
  | none => s
  | some g =>
    if g.members.all (fun m => m.ended || m.late) then
      closeFrame g (((frameOf s g.num).map (fun x => x.flags % 2)).getD 0) s
    else s

/-- A Frame Start of member `p` that comes after the skew window of its group frame finds the window closed (R115). -/
def skewEnd (r p d : Nat) (s : State) : State :=
  match openFrame s r d with
  | some f => if f.members.any (fun m => m.port == p && skewOver { f with skewUs := f.skewUs + 1 } m s) then gangLate r p f s else s
  | none => s

/-- A Frame Start (R115, R116, R122, R131, R132); its corrected header counts for the frame that it opens or joins (R129). `cp` is what
the Frame Start of port `p` does as a reference of the cue point, before its frame opens (R69, R131). -/
def frameStart (p vc number : Nat) (corrected : Bool) (cp : State → State) (s : State) : State :=
  if portActive s p = false ∨ ingestDrops s p vc then s
  else
    let s := packetSeen p s
    let s := if corrected then countIngest p vc 0 s else s
    let r := refFor s p vc
    match findStream s r vc with
    | none => countIngest p vc 7 s
    | some (d, sd) =>
      frameHeader p vc corrected <|
      let fs := correctedTime s p
      let s := skewEnd r p d (seqCheck p d vc number sd.seqchk s)
      match startCase s r p d with
      | .joins f =>
        let s := setOpen (f.modMember p (fun m => { m with started := true })) (showFs p fs s)
        if p = r then referenceTime f.num fs s else s
      | .lateStart f => setOpen (f.modMember p (fun m => { m with started := true })) (showFs p fs s)
      | .truncates f =>
        if portRuns s p = false then closeTruncated f s
        else
        let s := cp (closeTruncated f s)
        openAfter p vc fs (showFs p fs s)
      | .fresh =>
        openAfter p vc fs (showFs p fs (cp s))

/-- Frame End of member `p`: its share ends, SHORT when lines are missing; the frame closes with its last member (R115,
R116, R118). -/
def frameEnd (p : Nat) (f : OpenFrame) (s : State) : State :=
  let short := f.members.any (fun m => m.port == p && decide (m.lines.length < f.memberLines))
  let f := f.modMember p (fun m => { m with ended := true })
  let s := setOpen f (if short then orFlags f.num 1 s else s)
  if f.members.all (fun m => m.ended || m.late) then
    closeFrame f (((frameOf s f.num).map (fun x => x.flags % 2)).getD (boolNat short)) s
  else s

def execFrameEnd (port : Fin 4) (vc : Fin 16) (corrected : Bool) (parity : List Nat) (s : State) :
    Host.Outcome State Fault Refusal :=
  .next (shortPacket port.val vc.val corrected (frameEnd port.val) (cellParity parity s))

/-- FRAME_MS after its Frame Start a frame without Frame End closes TRUNCATED (R122). -/
def execFrameTimeout (port : Fin 4) (desc : Fin 4) (s : State) : Host.Outcome State Fault Refusal :=
  match openFrame s port.val desc.val with
  | some f => .next (if s.elapsedNs f.since (f.timeoutMs * 1000000) then closeTruncated f s else s)
  | none => .next s

/-- The skew window of a group frame ends without a member's Frame Start (R115). -/
def execGangSkewTimeout (port : Fin 4) (desc : Fin 4) (s : State) : Host.Outcome State Fault Refusal :=
  let p := port.val
  let r := ((List.range 4).find? (fun r => (openFrame s r desc.val).any (fun f =>
    f.members.any (fun m => m.port == p && !m.started)))).getD (refPort s p)
  match openFrame s r desc.val with
  | none => .next s
  | some f =>
    .next (if f.members.any (fun m => m.port == p && skewOver f m s) then gangLate r p f s else s)

/-- The lanes enter or leave ULPS (R106). -/
def execLaneUlps (port : Fin 4) (enter : Bool) (s : State) : Host.Outcome State Fault Refusal :=
  if s.domainOn (6 + port.val) then
    .next ((s.setFlag (INGEST_STATUS.ULPS port.val) enter).setFlag (INGEST_STATUS.STOP port.val) (!enter))
  else .next s

/-- `INGEST_CNT_CTRL.CLEAR` (R128). -/
def execIngestCounterClear (port : Fin 4) (s : State) : Host.Outcome State Fault Refusal :=
  let s := busOk 0 s
  if s.domainOn (6 + port.val) then
    .next { s with regs := clearRange s.regs (INGEST_CNT.COUNT port.val 0).addr (INGEST_CNT.COUNT port.val 256).addr }
  else .next s

/-! ### Sensor control outputs -/

/-- A write of `INGEST_MCLK`; a divider outside its range acts as the nearer end, with a warning (R134). -/
def execMclkConfigWrite (port : Fin 4) (value : Word) (s : State) : Host.Outcome State Fault Refusal :=
  let p := port.val
  let s := busOk 0 s
  if s.domainOn (6 + p) = false then .next s
  else
    let s := (s.setFld (INGEST_MCLK.EN p) (bits value.toNat 16 16)).setFld (INGEST_MCLK.DIV p) (bits value.toNat 15 0)
    let d := bits value.toNat 15 0
    if d < 1920 ∨ 32000 < d then .next (postActsAs 3 p (INGEST_MCLK.DIV p).addr s) else .next s

/-- The divider SNSn_MCLK runs with, in U10.6; none while it is low (R134, R589). -/
def mclkDivider (s : State) (p : Nat) : Option Nat :=
  if s.domainOn (6 + p) ∧ s.flag (INGEST_MCLK.EN p) then some (clamp 1920 32000 (s.fld (INGEST_MCLK.DIV p))) else none

/-- A write of `INGEST_SRST.RELEASE`: the level of SNSn_RST_N (R135). -/
def execSensorResetRelease (port : Fin 4) (release : Bool) (s : State) : Host.Outcome State Fault Refusal :=
  let s := busOk 0 s
  if s.domainOn (6 + port.val) then .next (s.setFlag (INGEST_SRST.RELEASE port.val) release) else .next s

/-- The XTRIG pulse of port `p` begins, or is extended (R136). -/
def xtrigPulse (p : Nat) (s : State) : State :=
  let e := s.nowNs + 10 * clamp 1 1000000 (s.fld (INGEST_XTRIG.WIDTH p))
  modPort p (fun x => { x with xtrigEnd := some (max e (x.xtrigEnd.getD 0)) }) s

/-- `t` ns is a point of the frame schedule (R441). -/
def onGrid (s : State) (t : Nat) : Bool := schedOn s && gridTime s (gridFrom s t) == t

/-- A time `grid` (ns) of the frame schedule at SNSn_XTRIG: the pulse on the first tick at least XADV ahead of it, or a missed one where that
moment is past (R136). -/
def execXtrigScheduled (port : Fin 4) (grid : Nat) (s : State) : Host.Outcome State Fault Refusal :=
  let p := port.val
  if s.domainOn (6 + p) = false ∨ s.flag (INGEST_XTRIG.EN p) = false ∨ s.fld (INGEST_XTRIG.SRC p) ≠ 0 then .next s
  else if onGrid s grid = false ∨ s.nowNs + s.fld (INGEST_XADV.NS p) < grid then .next s
  else if grid * 2 ^ 40 + lastStep s ≤ s.time.units + s.fld (INGEST_XADV.NS p) * 2 ^ 40 then .next (s.addFld (INGEST_XTRIG.MISSED p) 1)
  else .next (xtrigPulse p s)

/-- `INGEST_XPULSE.GO` (R136). -/
def execXpulse (port : Fin 4) (s : State) : Host.Outcome State Fault Refusal :=
  let p := port.val
  let s := busOk 0 s
  if s.domainOn (6 + p) ∧ s.flag (INGEST_XTRIG.EN p) ∧ s.fld (INGEST_XTRIG.SRC p) = 1 then .next (xtrigPulse p s)
  else .next s

/-- The XTRIG pulse deasserts when its time is over; a pulse that was extended goes on (R136). -/
def execXtrigPulseEnd (port : Fin 4) (s : State) : Host.Outcome State Fault Refusal :=
  .next (if (portOf s port.val).xtrigEnd.all (fun e => decide (e ≤ s.nowNs)) then
      modPort port.val (fun x => { x with xtrigEnd := none }) s
    else s)

/-- The level of SNSn_XTRIG: a pulse in the polarity of POL (R136); low while the port's domain is off (R589). -/
def xtrigLevel (s : State) (p : Nat) : Bool :=
  s.domainOn (6 + p) && ((portOf s p).xtrigEnd.isSome != s.flag (INGEST_XTRIG.POL p))

/-! ### SPI -/

def modSpi (c : Nat) (f : SpiCtl → SpiCtl) (s : State) : State := modPort c (fun p => { p with spi := f p.spi }) s

def spiOf (s : State) (c : Nat) : SpiCtl := (portOf s c).spi

/-- A transfer on the wire with the settings of `INGEST_SPI_CFG`: SCLK runs at 200 MHz / (2 × (DIV + 1)), and a DIV of 0 acts as 1
(R137). -/
def spiWire (s : State) (c cs : Nat) (bytes : List Byte) : SpiWire :=
  { cs := cs, cpol := (s.fld (INGEST_SPI_CFG.MODE c)).testBit 1, cpha := (s.fld (INGEST_SPI_CFG.MODE c)).testBit 0
    lsbFirst := s.flag (INGEST_SPI_CFG.LSB_FIRST c), halfNs := 5 * (max 1 (s.fld (INGEST_SPI_CFG.DIV c)) + 1), bytes := bytes }

/-- The levels of an SPI port; `mosi` is none where no rule states its level. -/
structure SpiPins where
  sclk : Bool
  mosi : Option Bool
  csN : List Bool
  deriving DecidableEq, Repr

/-- The levels of an SPI port between transfers; while its domain is off SCLK and MOSI are low, and every chip select high (R589). -/
def spiIdle (s : State) (c : Nat) : SpiPins :=
  if s.domainOn (6 + c) then
    { sclk := (s.fld (INGEST_SPI_CFG.MODE c)).testBit 1, mosi := none, csN := List.replicate 4 true }
  else { sclk := false, mosi := some false, csN := List.replicate 4 true }

/-- The bits of a transfer in the order of the wire. -/
def SpiWire.bits (t : SpiWire) : List Bool :=
  (t.bytes.map (fun b => (List.range 8).map (fun i => b.getLsbD (if t.lsbFirst then i else 7 - i)))).flatten

/-- The levels of a transfer, one entry for each half period of SCLK (R137): chip select 2 periods before the first edge; for each bit
the leading edge and the trailing edge, the data moving on the trailing edge before it with CPHA 0 and on its leading edge with CPHA 1;
chip select until 2 periods after the last edge. -/
def SpiWire.levels (t : SpiWire) : List SpiPins :=
  let cs := (List.range 4).map (fun k => k != t.cs)
  let half (clk : Bool) (d : Option Bool) : SpiPins := { sclk := clk, mosi := d, csN := cs }
  let next (i : Nat) : Option Bool := if t.cpha then t.bits[i]? else t.bits[i + 1]?
  List.replicate 4 (half t.cpol (if t.cpha then none else t.bits[0]?)) ++
  (t.bits.zipIdx.map (fun b => [half (!t.cpol) (some b.1), half t.cpol (next b.2)])).flatten ++
  List.replicate 3 (half t.cpol (if t.cpha then t.bits.getLast? else none))

/-- The bytes of the transfer buffer, byte 0 first (R137). -/
def spiBytes (s : State) (c : Nat) : List Byte :=
  ((List.range 16).map (fun i => leBytes 4 (s.fld (INGEST_SPI_BUF.DATA c i)))).flatten

/-- The controller is free for the next user: a firmware transfer that waits, or a script that is due (R139). -/
def spiNext (c : Nat) (s : State) : State :=
  let k := spiOf s c
  if k.scriptDue then
    (modSpi c (fun k => { k with scriptDue := false, script := some 0 }) s).setFlag (INGEST_SPI_STATUS.SCRIPT_RUN c) true
  else if k.job.isSome then modSpi c (fun k => { k with jobRuns := true }) s
  else s

/-- A script was loaded at a cue point: it starts, after a firmware transfer that runs; one still running starts anew
(R138, R139). -/
def spiStartScript (c : Nat) (s : State) : State :=
  if (spiOf s c).jobRuns then modSpi c (fun k => { k with scriptDue := true }) s
  else (modSpi c (fun k => { k with script := some 0 }) s).setFlag (INGEST_SPI_STATUS.SCRIPT_RUN c) true

/-- A write of `INGEST_SPI_CMD` (R137, R139). -/
def execSpiTransfer (ctl : Fin 2) (value : Word) (s : State) : Host.Outcome State Fault Refusal :=
  let c := ctl.val
  let s := busOk 0 s
  let len := bits value.toNat 6 0
  if s.domainOn (6 + c) = false ∨ value.toNat.testBit 31 = false then .next s
  else if s.flag (INGEST_SPI_STATUS.BUSY c) ∨ len = 0 ∨ 64 < len then .next (s.setFlag (INGEST_SPI_STATUS.REFUSED c) true)
  else
    let s := s.setFlag (INGEST_SPI_STATUS.BUSY c) true
    .next (modSpi c (fun k => { k with job := some (bits value.toNat 9 8, len), jobRuns := k.script.isNone }) s)

/-- The firmware transfer ends: each byte replaced by the one received (R137). -/
def execSpiTransferDone (ctl : Fin 2) (rx : List Byte) (s : State) : Host.Outcome State Fault Refusal :=
  let c := ctl.val
  match (spiOf s c).job with
  | none => .next s
  | some (cs, len) =>
    if (spiOf s c).jobRuns = false then .next s
    else
      let sent := (spiBytes s c).take len
      let buf := spliceAt (spiBytes s c) 0 (padTo len rx)
      let s := (List.range 16).foldl (fun s i => s.setFld (INGEST_SPI_BUF.DATA c i) (leAt buf (4 * i) 4)) s
      let s := (s.setFlag (INGEST_SPI_STATUS.BUSY c) false).setFlag (INGEST_SPI_STATUS.DONE c) true
      .next (spiNext c (modSpi c (fun k => { k with job := none, jobRuns := false, driven := some (spiWire s c cs sent) }) s))

/-- After its delay the next script entry is sent, or the script ends or fails (R138). -/
def execSpiScriptEntry (ctl : Fin 2) (s : State) : Host.Outcome State Fault Refusal :=
  let c := ctl.val
  match (spiOf s c).script with
  | none => .next s
  | some off =>
    let w := s.tab 0x04 (4 + c) off 4
    let len := bits w 6 0
    let stop (s : State) : State :=
      spiNext c ((modSpi c (fun k => { k with script := none }) s).setFlag (INGEST_SPI_STATUS.SCRIPT_RUN c) false)
    if 4096 < off + 4 then .next (stop (s.setFlag (INGEST_SPI_STATUS.SCRIPT_ERR c) true))
    else if len = 0 then .next (stop s)
    else if 64 < len ∨ 4096 < off + 4 + len then .next (stop (s.setFlag (INGEST_SPI_STATUS.SCRIPT_ERR c) true))
    else
      let bs := readList 0 (s.table 0x04 (4 + c)) (off + 4) len
      .next (modSpi c (fun k => { k with script := some (off + 4 + roundUp len 4), driven := some (spiWire s c (bits w 15 14) bs) }) s)

end Sys2Proof.Machine
end

