-- ==== Sys2Proof/Machine/NetCore.lean ====
section
/-! DEFINITION. The Ethernet ports as other blocks use them: counts, link changes (R424, R435, R445), frames driven. -/

namespace Sys2Proof.Machine

def setNet (n : NetState) (s : State) : State := { s with net := n }

def modNet (p : Nat) (f : NetPort → NetPort) (s : State) : State := setNet { s.net with ports := modAt s.net.ports p f } s

def netPort (s : State) (p : Nat) : NetPort := (s.net.ports[p]?).getD { counts := [], wire := [], looped := [] }

/-- Count a happening of a kind of `NET_CNT_SEL`. -/
def netCount (p kind : Nat) (s : State) : State :=
  modNet p (fun n => { n with counts := keySet n.counts kind (satAdd (2 ^ 32 - 1) ((keyGet n.counts kind).getD 0) 1) }) s

def netEvent (p n : Nat) (cls : EventClass) (s : State) : State := postFlag (NET_EVENT.EVENT p) n cls 14 p 0 s

/-- The station address of a port, byte 0 first. -/
def netMac (s : State) (p : Nat) : List Byte := leBytes 4 (s.fld (NET_MAC_LO.ADDR p)) ++ leBytes 2 (s.fld (NET_MAC_HI.ADDR p))

/-- A frame as the MAC sends it: padded to 60 bytes, with the FCS over all of it (R422, R426, R431). -/
def withFcs (bs : List Byte) : List Byte :=
  let f := bs ++ List.replicate (60 - bs.length) 0
  f ++ leBytes 4 (crc32 f).toNat

/-- The lane of port `p` is in a near-end loopback (R408). -/
def netNearLoop (s : State) (p : Nat) : Bool := [1, 2].contains (s.fld (LANE_STATUS.LOOP (ethLane p)))

/-- A pattern or the received data takes the place of the port's own on its pins (R408, R410). -/
def netReplaced (s : State) (p : Nat) : Bool :=
  s.fld (LANE_STATUS.LOOP (ethLane p)) == 3 || (decide (1 ≤ s.fld (LANE_LOOP.GEN (ethLane p))) && decide (s.fld (LANE_LOOP.GEN (ethLane p)) ≤ 4))

/-- The port sends a frame: on its pins, to its own receiver in a near-end loopback, or not at all where something takes the place
of its data (R408, R410, R426). -/
def netDrive (p : Nat) (bs : List Byte) (s : State) : State :=
  netCount p 1 (modNet p (fun n =>
    if netReplaced s p then n
    else if netNearLoop s p then { n with looped := n.looped ++ [bs ++ List.replicate (60 - bs.length) 0] }
    else { n with wire := withFcs bs }) s)

/-- Transmit and receive latency of the port's mode in tenths of a nanosecond (R428). -/
def netLatency (s : State) (p : Nat) (tx : Bool) : Nat :=
  let sp := s.fld (NET_STATUS.SPEED p)
  if sp = 0 ∧ s.flag (NET_STATUS.FEC p) then (if tx then 414 else 1968)
  else if sp = 0 then (if tx then 366 else 521)
  else if sp = 1 then (if tx then 713 else 1089)
  else (if tx then 1480 else 2320)

/-- The corrected time of a frame whose delimiter passes the MAC now, in whole ns, to the nearest (R428). -/
def netStamp (s : State) (p : Nat) (tx : Bool) : Nat :=
  let l := netLatency s p tx * 2 ^ 40
  let u := s.time.units * 10
  ((if tx then u + l else u - l) + 5 * 2 ^ 40) / (10 * 2 ^ 40)

/-- A big-endian number of `n` bytes (R11). -/
def beBytes (n v : Nat) : List Byte := (leBytes n v).reverse
def beAt (bs : List Byte) (off n : Nat) : Nat := leNat ((bs.drop off).take n).reverse

/-- The speed code that a port runs: 3 acts as 2, and 1000BASE-X in Midnight on port 0 (R422, R447). -/
def netSpeed (s : State) (p : Nat) : Nat :=
  if s.mode = 7 then 2 else if s.fld (NET_CFG.SPEED p) = 3 then 2 else s.fld (NET_CFG.SPEED p)

/-- The rate code of an Ethernet speed (R397). -/
def netRate (speed : Nat) : Nat := if speed = 0 then 4 else if speed = 1 then 5 else 6

end Sys2Proof.Machine
end

