-- ==== Sys2Proof/Machine/Klink.lean ====
section
/-! DEFINITION. The redundant pair and the Kurnarik link (15_pair_and_kurnarik.md): ports from training to failure (R467 to
R472), roles and heartbeats (R450 to R457), partner time (R458), and what the pair exchanges (R460 to R466). -/

namespace Sys2Proof.Machine

/-! ### Port states (R472) -/

def setKState (p n : Nat) (s : State) : State :=
  if p = 0 then s.setFld KLINK_STATUS.STATE0 n else s.setFld KLINK_STATUS.STATE1 n

def setKLanes (p m : Nat) (s : State) : State :=
  if p = 0 then s.setFld KLINK_STATUS.LANES0 m else s.setFld KLINK_STATUS.LANES1 m

def kEnabled (s : State) (p : Nat) : Bool :=
  s.domainOn 25 && topo s != 0 && (if p = 0 then s.flag KLINK_CTRL.EN0 else s.flag KLINK_CTRL.EN1)

/-- Lanes of the port with lock, as a mask. -/
def kLocked (s : State) (p : Nat) : Nat :=
  ((List.range 4).map (fun i => boolNat (s.flag (LANE_STATUS.LOCK (16 + 4 * p + i))) * 2 ^ i)).sum

/-- The lanes on which a port runs: those both ends receive on (R471). -/
def kShowLanes (p : Nat) (s : State) : State := setKLanes p ((kport s p).rxmask &&& (kport s p).txmask) s

def FlitBody.isDisp : FlitBody → Bool
  | .disp _ => true
  | _ => false

def FlitBody.endsFrame (n : Nat) : FlitBody → Bool
  | .frameEnd m _ => m == n
  | _ => false

/-! ### Mirror transfers (R464) -/

/-- Bytes in pieces of 236. -/
def rawPieces : Nat → List Byte → List FlitBody
  | 0, _ => []
  | n + 1, bs => if bs.isEmpty then [] else .raw (bs.take 236) :: rawPieces n (bs.drop 236)

/-- The flits of a committed frame, read from its ring slot, and whether a block of it is poisoned (R464). -/
def mirrorFlits (s : State) (f : Frame) (k : Nat) : List FlitBody × Bool :=
  let a := slotAddr s f.port k
  let px := f.d.height * f.d.lineBytes
  let (emb, bad) := slotEmb s f a
  let raw := s.dramBytes a px ++ (emb.map (fun b => leBytes 4 b.length ++ b)).flatten
  let poison := s.poisoned a px || bad
  ([.frameHdr f.num f.fs f.src f.d.dt f.d.width f.d.height f.d.cfa f.emb.length raw.length] ++
    rawPieces raw.length raw ++ [.frameEnd f.num poison], poison)

/-- A mirror transfer is abandoned (R466). -/
def mirrorAbandon (num p : Nat) (s : State) : State :=
  let s := setKlink { s.klink with mirror := s.klink.mirror.filter (fun m => m.num != num) } s
  kEvent 9 .warning p (kCount p 12 1 (settleDest num 2 false s))

/-- Send a frame whole on port `p` (R464). -/
def mirrorSend (num p : Nat) (s : State) : State :=
  match (frameOf s num).bind (fun f => f.slot.map (fun k => (f, k))) with
  | none => mirrorAbandon num p s
  | some (f, k) =>
    let (fl, poison) := mirrorFlits s f k
    let s := slotSeen f (slotAddr s f.port k) s
    let s := if poison then orFlags num 0x40 s else s
    let s := setKlink { s.klink with mirror := s.klink.mirror.filter (fun m => m.num != num) ++ [{ num := num, port := p, since := s.ticks }] } s
    kCount p 10 1 (kSend p fl s)

/-- The UP port with fewer flits queued, port 0 on a tie (R464). -/
def mirrorPort (s : State) : Option Nat :=
  let load (p : Nat) := (kport s p).queue.length + (kport s p).replay.length
  if kUp s 0 then (if kUp s 1 ∧ load 1 < load 0 then some 1 else some 0) else if kUp s 1 then some 1 else none

def execKlinkMirrorStart (num : Nat) (s : State) : Host.Outcome State Fault Refusal :=
  match frameOf s num, mirrorPort s with
  | some f, some p =>
    if topo s = 2 ∧ s.flag KLINK_STATUS.PRIN ∧ f.disp = 7 ∧ f.closed ∧ f.await.contains 2 ∧
        s.klink.mirror.any (fun m => m.num == num) = false then
      .next (mirrorSend num p s)
    else .next s
  | _, _ => .next s

/-! ### Down -/

/-- A port leaves UP or TRAIN for DOWN (R463, R464, R472); an attempt that fails in TRAIN delays the next one. -/
def kDown (p : Nat) (mismatch : Bool) (s : State) : State :=
  let k := kport s p
  let failed := if kState s p = 2 then some s.ticks else none
  let heldBack := k.replay ++ k.queue
  let other := 1 - p
  let s := modKPort p (fun _ => { kportInit with failAt := failed }) s
  let s := setKlink { s.klink with mirrorRx := s.klink.mirrorRx.set p none } s
  let s := lanesStop (klLanes p) (setKLanes p 0 (setKState p 1 s))
  let s := kEvent 4 .warning p (kCount p 7 1 (if mismatch then s.orBit KLINK_EVENT.EVENT 7 else s))
  let s := if kUp s other then kSend other (heldBack.filter FlitBody.isDisp) s else s
  (s.klink.mirror.filter (fun m => m.port == p && heldBack.any (FlitBody.endsFrame m.num))).foldl (fun s m =>
    if kUp s other then mirrorSend m.num other s else mirrorAbandon m.num p s) s

/-- A port goes OFF: as UP to DOWN, from whichever state (R472). -/
def kOff (p : Nat) (s : State) : State :=
  if kState s p = 0 then s else setKState p 0 (modKPort p (fun _ => kportInit) (kDown p false s))

/-- A lane of a port is lost or fails its wake: it is retired, and the port goes on with the others (R418, R471). -/
def kLaneLost (lane : Nat) (s : State) : State :=
  let p := (lane - 16) / 4
  let i := (lane - 16) % 4
  if kUp s p = false then s
  else
    let s := laneRetire lane s
    let s := modKPort p (fun k => { k with rxmask := if k.rxmask.testBit i then k.rxmask - 2 ^ i else k.rxmask }) s
    let s := kShowLanes p (kCount p 6 1 (s.orBit KLINK_EVENT.EVENT 5))
    if (kport s p).rxmask &&& (kport s p).txmask = 0 then kDown p false s else s

/-! ### Replay (R469) -/

/-- Resend from ACK + 1; after 16 replays without progress the port goes DOWN. -/
def kReplay (p : Nat) (s : State) : State :=
  let k := kport s p
  if kUp s p = false ∨ k.replay.isEmpty then s
  else
    let s := kResend p false (kCount p 5 1 (s.orBit KLINK_EVENT.EVENT 6))
    let s := modKPort p (fun k => { k with stuck := k.stuck + 1, ackAt := s.ticks }) s
    if 16 ≤ k.stuck + 1 then kDown p false s else s

/-- What the header of a good flit carries (R468 to R471). -/
def kHeader (p : Nat) (h : FlitHeader) (s : State) : State :=
  let k := kport s p
  let base := (k.nextSeq + 2 ^ 32 - 1 - k.replay.length) % 2 ^ 32
  let n := (h.ack.toNat + 2 ^ 32 - base) % 2 ^ 32
  let n := if n ≤ k.replay.length then n else 0
  let s := modKPort p (fun k => { k with
    replay := k.replay.drop n, stuck := if n = 0 then k.stuck else 0, ackAt := if n = 0 then k.ackAt else s.ticks }) s
  let s := creditReturn (7 + p) h.credit.toNat s
  let s := if h.rxmask.toNat ≠ k.txmask then
      let s := kShowLanes p (modKPort p (fun k => { k with txmask := h.rxmask.toNat }) s)
      if (kport s p).rxmask &&& h.rxmask.toNat = 0 then kDown p false s
      else kResend p true s
    else s
  if kUp s p = false then s else kPump p (if h.nak then kReplay p s else s)

/-- A flit arrives on a port in UP: one with a bad CRC, or a sequenced one out of order, is discarded, counted and answered with
NAK; the header of any other acts, and a sequenced flit acts once, in SEQ order (R469). -/
def kReceive (p : Nat) (h : FlitHeader) (sequenced : Bool) (act : State → State) (s : State) : State :=
  if kUp s p = false then s
  else if h.crcOk = false then kCount p 2 1 (modKPort p (fun k => { k with nakDue := true }) s)
  else if sequenced ∧ h.seq.toNat ≠ ((kport s p).rxAck + 1) % 2 ^ 32 then
    kCount p 3 1 (modKPort p (fun k => { k with nakDue := true }) s)
  else
    let s := kHeader p h (kCount p 1 1 s)
    if kUp s p = false then s
    else if sequenced then act (modKPort p (fun k => { k with rxAck := h.seq.toNat, credits := k.credits + 1 }) s)
    else act s

/-- A flit that carries nothing beside its header, or one of no known TYPE, which is discarded and counts as a sequence error
(R468). -/
def execKlinkFlitReceive (port : Fin 2) (hdr : FlitHeader) (known : Bool) (s : State) : Host.Outcome State Fault Refusal :=
  if known ∨ hdr.crcOk = false then .next (kReceive port.val hdr false (fun s => s) s)
  else .next (if kUp s port.val then kCount port.val 3 1 s else s)

/-- A flit with NAK set (R469). -/
def execKlinkNak (port : Fin 2) (hdr : FlitHeader) (s : State) : Host.Outcome State Fault Refusal :=
  .next (kReceive port.val { hdr with nak := true } false (fun s => s) s)

/-- ACK has not advanced for 2 µs (R469). -/
def execKlinkAckTimeout (port : Fin 2) (s : State) : Host.Outcome State Fault Refusal :=
  if s.elapsedNs (kport s port.val).ackAt 2000 then .next (kReplay port.val s) else .next s

/-- DOWN to TRAIN: at once, or 10 ms after the last failed attempt; the lanes leave idle with the wake burst (R407, R472). -/
def execKlinkTrainStart (port : Fin 2) (s : State) : Host.Outcome State Fault Refusal :=
  let p := port.val
  if kState s p ≠ 1 ∨ kEnabled s p = false ∨ (kport s p).failAt.any (fun t => !s.elapsedNs t 10000000) then .next s
  else
    let s := lanesStart (klLanes p) 3 (setKState p 2 (modKPort p (fun _ => { kportInit with trainAt := s.ticks }) s))
    .next ((klLanes p).foldl (fun s l => laneSends wakeBurst l s) s)

/-- 10 ms pass in TRAIN (R472). -/
def execKlinkTrainTimeout (port : Fin 2) (s : State) : Host.Outcome State Fault Refusal :=
  if kState s port.val = 2 ∧ s.elapsedNs (kport s port.val).trainAt 10000000 then .next (kDown port.val false s) else .next s

/-- UP: unlocked lanes retired, sequence numbers and credits as training sets them (R470, R472). -/
def kGoUp (p : Nat) (s : State) : State :=
  let m := kLocked s p
  let s := (klLanes p).foldl (fun s l => if s.flag (LANE_STATUS.LOCK l) then s else kCount p 6 1 (laneRetire l s)) s
  let s := { s with ledger := { s.ledger with credits := modAt s.ledger.credits (7 + p) (fun _ =>
    { issued := 0, returned := 0, outstanding := 0 }) } }
  kShowLanes p (setKState p 3 (modKPort p (fun _ => { kportInit with rxmask := m, helloOut := true, sentAt := s.ticks, alignAt := s.ticks }) s))

/-- The lane deskew of a port in UP is lost: more than 32 blocks of skew (R467, R472). -/
def execKlinkDeskewLost (port : Fin 2) (s : State) : Host.Outcome State Fault Refusal :=
  if kUp s port.val then .next (kDown port.val false s) else .next s

/-- `KLINK_CMD.RETRAIN` (R472). -/
def execRetrain (s : State) : Host.Outcome State Fault Refusal :=
  let s := busOk 0 s
  if s.domainOn 25 = false then .next s
  else if kUp s 0 = false ∧ kUp s 1 = false then .next (postKind 4 16 0xFF KLINK_CMD.RETRAIN.addr s)
  else
    let up1 := kUp s 1
    let s := if kUp s 0 then kDown 0 false s else s
    .next (if up1 then kDown 1 false s else s)

/-! ### Roles (R450 to R457) -/

/-- PRIN, and the PAIR_PRIN output that follows it from the first cue point on (R450). -/
def setPrin (b : Bool) (s : State) : State :=
  let s := s.setFlag KLINK_STATUS.PRIN b
  let pin := s.klink.firstCue && b
  let s := if pin ∧ s.klink.pin = false then { s with view := { s.view with full := true } } else s
  setKlink { s.klink with pin := pin } s

/-- The partner would be Principal by R451. -/
def partnerWins (s : State) (hb : Heartbeat) : Bool :=
  let own := s.fld KLINK_TERM.TERM
  let pref := s.flag KLINK_PAIR.ROLE_PREF
  if hb.term ≠ own then decide (own < hb.term)
  else if s.klink.partnerPref != pref then pref
  else decide (leNat (padTo 16 hb.id).reverse < leNat (padTo 16 (deviceId s)).reverse)

/-- The roles are resolved and the pair forms (R451, R456). -/
def resolveRoles (hb : Heartbeat) (s : State) : State :=
  let was := s.flag KLINK_STATUS.PRIN
  let lose := partnerWins s hb
  let s := if lose then s.setFld KLINK_TERM.TERM hb.term else s
  let s := setPrin (!lose) s
  let s := if was ∧ lose then kEvent 1 .warning 0xFF s else s
  let s := (s.setFlag KLINK_STATUS.ISOLATED false).setFlag KLINK_STATUS.FORMED true
  kEvent 2 .info 0xFF (setKlink { s.klink with formedOnce := true, missed := 0, yielding := false } s)

/-- FORMED is lost: records that waited for the partner are written (R239, R453). -/
def unform (s : State) : State := spillSettled ((s.setFlag KLINK_STATUS.FORMED false).orBit KLINK_EVENT.EVENT 3)

/-- The Understudy takes over, with an interrupt of Company whatever CO_CLASS is (R454). -/
def takeover (s : State) : State :=
  let irqs := s.call.coIrqs + 1
  let s := (setPrin true s).addFld KLINK_TERM.TERM 1
  let s := kEvent 0 .warning 0xFF (unform (setKlink { s.klink with missed := 0 } s))
  { s with call := { s.call with coIrqs := max irqs s.call.coIrqs } }

/-- A heartbeat from its bytes. -/
def parseHeartbeat (b : List Byte) : Option Heartbeat :=
  if b.take 4 = [0x45, 0x48, 0x42, 0x54] ∧ 44 ≤ b.length then
    let fl := leAt b 7 1
    some { pairId := leAt b 4 2, role := leAt b 6 1, armed := fl.testBit 0, leaving := fl.testBit 1, formed := fl.testBit 2,
           term := leAt b 8 4, seq := leAt b 12 4, id := (b.drop 16).take 16, sec := leAt b 32 6, ns := leAt b 38 4,
           mode := leAt b 42 1 }
  else none

/-- The device's own heartbeat. -/
def ownHeartbeat (s : State) (leaving : Bool) : Heartbeat :=
  { pairId := s.fld KLINK_PAIR.PAIR_ID, role := boolNat (!s.flag KLINK_STATUS.PRIN), armed := s.mode == 3 || s.mode == 4
    leaving := leaving, formed := s.flag KLINK_STATUS.FORMED, term := s.fld KLINK_TERM.TERM, seq := s.klink.hbSeq
    id := padTo 16 (deviceId s), sec := s.time.sec.toNat, ns := s.time.ns, mode := s.mode }

/-- A heartbeat goes on every UP port and on Ethernet (R452). -/
def beatWith (hb : Heartbeat) (s : State) : State :=
  let s := if kUp s 0 then kSendFree 0 (.heartbeat hb) s else s
  let s := if kUp s 1 then kSendFree 1 (.heartbeat hb) s else s
  let e := s.fld KLINK_PAIR.HB_ETH
  let s := if s.flag KLINK_PAIR.HB_ETH_EN ∧ netUp s e then
      netDrive e (List.replicate 6 0xFF ++ netMac s e ++ [0x88, 0xB5] ++ heartbeatBytes hb) s
    else s
  setKlink { s.klink with hbSeq := (s.klink.hbSeq + 1) % 2 ^ 32 } s

def beat (leaving : Bool) (s : State) : State := beatWith (ownHeartbeat s leaving) s

/-- Three heartbeats with LEAVING, 1 µs apart (R457). -/
def beatLeaving (s : State) : State :=
  let s := setKlink { s.klink with left := [] } s
  [0, 1, 2].foldl (fun s us =>
    let t := s.nowNs + 1000 * us
    let hb := { ownHeartbeat s true with sec := t / 1000000000 % 2 ^ 48, ns := t % 1000000000 }
    let s := beatWith hb s
    setKlink { s.klink with left := s.klink.left ++ [hb] } s) s

/-- Every 100 µs of device time (R452). -/
def execHeartbeatSend (s : State) : Host.Outcome State Fault Refusal :=
  if s.domainOn 25 = false ∨ topo s = 0 ∨ s.klink.started = false then .next s
  else
    let s := (s.setFlag KLINK_STATUS.HB_KL s.klink.beatKl).setFlag KLINK_STATUS.HB_ETH s.klink.beatEth
    .next (beat false (setKlink { s.klink with beatKl := false, beatEth := false } s))

/-- A Principal of a pair that stops on purpose says so three times (R457). -/
def sendLeaving (s : State) : State :=
  if s.flag KLINK_STATUS.PRIN ∧ topo s ≠ 0 ∧ s.klink.started ∧ s.domainOn 25 then beatLeaving s else s

/-- A valid heartbeat (R453, R454, R456, R457). -/
def heartbeat (eth : Bool) (hb : Heartbeat) (s : State) : State :=
  if topo s = 0 ∨ s.klink.started = false ∨ s.domainOn 25 = false ∨ hb.pairId ≠ s.fld KLINK_PAIR.PAIR_ID then s
  else
    let s := (List.range 4).foldl (fun s i => s.setFld (KLINK_PARTNER_ID.ID i) (leAt (padTo 16 hb.id) (4 * i) 4)) s
    let s := setKlink { s.klink with
      missed := 0, beatKl := s.klink.beatKl || !eth, beatEth := s.klink.beatEth || eth } s
    let s := if eth then s.setFlag KLINK_STATUS.HB_ETH true else s.setFlag KLINK_STATUS.HB_KL true
    let prin := s.flag KLINK_STATUS.PRIN
    if hb.leaving ∧ prin = false then takeover s
    else if s.flag KLINK_STATUS.FORMED then
      if s.klink.yielding ∧ prin ∧ hb.role = 0 then
        kEvent 1 .warning 0xFF (setPrin false
          (setKlink { s.klink with yielding := false } (s.setFld KLINK_TERM.TERM (max hb.term (s.fld KLINK_TERM.TERM)))))
      else s
    else if s.klink.formedOnce ∧ hb.leaving = false then resolveRoles hb s
    else s

/-- A heartbeat arrives on a Kurnarik port, or on Ethernet (R452, R453). -/
def execHeartbeatReceive (port : Option (Fin 2)) (hdr : FlitHeader) (hb : Heartbeat) (s : State) :
    Host.Outcome State Fault Refusal :=
  match port with
  | some p => .next (kReceive p.val hdr false (heartbeat false hb) s)
  | none => .next (heartbeat true hb s)

/-- 100 µs pass without a valid heartbeat (R453): with HB_MISS of them an Understudy takes over, formed or not (R454), and a Principal
is isolated (R456). -/
def execHeartbeatMissedPeriod (s : State) : Host.Outcome State Fault Refusal :=
  if topo s = 0 ∨ s.klink.started = false ∨ s.domainOn 25 = false then .next s
  else
    let n := s.klink.missed + 1
    let s := kCount 0 8 1 (setKlink { s.klink with missed := n } s)
    let s := (s.setFlag KLINK_STATUS.HB_KL false).setFlag KLINK_STATUS.HB_ETH false
    if n < max 2 (s.fld KLINK_CTRL.HB_MISS) then .next s
    else if s.flag KLINK_STATUS.PRIN then
      if s.flag KLINK_STATUS.FORMED ∨ s.flag KLINK_STATUS.ISOLATED = false then
        .next (kEvent 3 .warning 0xFF ((unform s).setFlag KLINK_STATUS.ISOLATED true))
      else .next s
    else .next (takeover s)

/-- The roles are resolved by a HELLO while the pair is not formed (R451, R456). -/
def helloRoles (hb : Heartbeat) (s : State) : State :=
  if s.flag KLINK_STATUS.FORMED then s
  else
    resolveRoles hb
      ((List.range 4).foldl (fun s i => s.setFld (KLINK_PARTNER_ID.ID i) (leAt (padTo 16 hb.id) (4 * i) 4)) s)

/-- The time of 4,096 blocks of 66 bits at 32 Gb/s, in ns (R467). -/
def alignNs : Nat := 8448

/-- ALIGN is sent on all active lanes: in training, with a HELLO that names the lanes that have locked, and after every 4,096 blocks of a
port in UP (R467, R468, R472). The port comes UP where the partner's HELLO has come. -/
def execKlinkAlignSend (port : Fin 2) (s : State) : Host.Outcome State Fault Refusal :=
  let p := port.val
  if kState s p = 2 then
    let m := kLocked s p
    let s := kAlign p (klLanes p) (modKPort p (fun k => { k with helloOut := true, rxmask := m }) s)
    let s := kDrive p (kport s p).nextSeq (.hello (ownHeartbeat s false) (topo s)) s
    match (kport s p).hello with
    | some hb => .next (if kLocked s p = 0 then s else helloRoles hb (kGoUp p s))
    | none => .next s
  else if kUp s p ∧ kAsleep s p = false ∧ s.elapsedNs (kport s p).alignAt alignNs then .next (kAlign p (kActive s p) s)
  else .next s

/-- A HELLO flit: in training it brings the port UP or ends the attempt; in UP it may form the pair (R451, R456, R472). `pref` is the
partner's ROLE_PREF. -/
def execHelloFlit (port : Fin 2) (hdr : FlitHeader) (hb : Heartbeat) (topology : Fin 4) (pref : Bool) (s : State) :
    Host.Outcome State Fault Refusal :=
  let p := port.val
  let act (s : State) : State := helloRoles hb (setKlink { s.klink with partnerPref := pref } s)
  if kState s p = 2 then
    if hdr.crcOk = false then .next (kCount p 2 1 s)
    else if hb.pairId ≠ s.fld KLINK_PAIR.PAIR_ID ∨ topology.val ≠ topo s then .next (kDown p true s)
    else
      let s := kCount p 1 1 s
      if (kport s p).helloOut ∧ kLocked s p ≠ 0 then .next (act (kGoUp p s))
      else .next (modKPort p (fun k => { k with hello := some hb }) (setKlink { s.klink with partnerPref := pref } s))
  else if hb.pairId = s.fld KLINK_PAIR.PAIR_ID then .next (kReceive p hdr false act s)
  else .next s

/-- `KLINK_CMD.YIELD` (R457). -/
def execYield (s : State) : Host.Outcome State Fault Refusal :=
  let s := busOk 0 s
  if s.domainOn 25 = false then .next s
  else if s.flag KLINK_STATUS.PRIN ∧ s.flag KLINK_STATUS.FORMED then
    let s := beatLeaving s
    .next (setKlink { s.klink with yielding := true } s)
  else .next (postKind 4 16 0xFF KLINK_CMD.YIELD.addr s)

/-! ### Partner time and matching (R458, R459) -/

/-- A TIME flit with the times of the last one received (R458). -/
def execKlinkTimeSend (port : Fin 2) (s : State) : Host.Outcome State Fault Refusal :=
  let k := kport s port.val
  if kUp s port.val then .next (kSendFree port.val (.time s.nowNs k.timeDep k.timeArr) s) else .next s

/-- A TIME flit: `lastDep` and `lastArr` are t1 and t2, `own` t3, and now is t4 (R458). -/
def execKlinkTimeReceive (port : Fin 2) (hdr : FlitHeader) (own lastDep lastArr : Nat) (s : State) :
    Host.Outcome State Fault Refusal :=
  let p := port.val
  let act (s : State) : State :=
    let t4 := s.nowNs
    let s := modKPort p (fun k => { k with timeDep := own, timeArr := t4 }) s
    if lastDep = 0 then s
    else
      let x : Int := ((lastArr : Int) - lastDep) + ((own : Int) - t4)
      s.setFld KLINK_OFFSET.NS (ofSigned 32 ((x + 1) / 2))
  .next (kReceive p hdr false act s)

/-- Partner time to local time (R458). -/
def toLocal (s : State) (p : Nat) : Nat := ((p : Int) - toSigned 32 (s.fld KLINK_OFFSET.NS)).toNat

/-- A time whose seconds are given by their bits [15:0], as the nearest one to now. -/
def nearNow (s : State) (x : Nat) : Nat :=
  let m := 65536 * 1000000000
  let now := s.nowNs
  let c := now / m * m + x % m
  if now + m / 2 < c ∧ m ≤ c then c - m else if c + m / 2 < now then c + m else c

/-- The local frame that matches a partner frame of SRC `src` at local time `t` (R459). -/
def matchFrame (s : State) (src t : Nat) : Option Frame :=
  let d (f : Frame) := max f.fs t - min f.fs t
  let c := s.ledger.frames.filter (fun f =>
    f.port == src / 64 && f.desc == src / 16 % 4 && decide (d f ≤ max 100 (s.fld KLINK_CTRL.MATCH_NS)))
  c.foldl (fun b f => match b with
    | none => some f
    | some g => if d f < d g then some f else b) none

/-! ### Triggers, cue selection, dispositions -/

/-- A TRIG flit: an event of input 85 + output, carrying the converted trigger time, with the partner's T by stream (R460,
R461). -/
def execTrigFlit (port : Fin 2) (hdr : FlitHeader) (output : Fin 4) (time : Nat) (streams : List (Fin 16 × Nat)) (s : State) :
    Host.Outcome State Fault Refusal :=
  let act (s : State) : State :=
    let t := toLocal s time
    combineWith (streams.map (fun e => (e.1.val, toLocal s (nearNow s e.2)))) [(85 + output.val, t)] t s
  .next (kReceive port.val hdr true act s)

/-- The code of the partner as a source of a selection entry (R74). -/
def selPartner : Nat := 3

/-- A CUESEL flit: entries whose source is the partner fire with the entry of the same number (R75). -/
def execCueselFlit (port : Fin 2) (hdr : FlitHeader) (entry : Fin 16) (s : State) : Host.Outcome State Fault Refusal :=
  .next (kReceive port.val hdr true (fun s =>
    if s.flag (CUE_SEL.EN entry.val) ∧ s.fld (CUE_SEL.SRC entry.val) = selPartner then selFire entry.val s else s) s)

/-- One DISP entry (R463): FRAME, FS, SRC, DISP. -/
def partnerDisp (e : Nat × Nat × BitVec 8 × Fin 16) (s : State) : State :=
  let (_, fs, src, disp) := e
  match matchFrame s src.toNat (toLocal s (nearNow s fs)) with
  | some f => modFrame f.num (fun x => { x with partner := some disp.val }) s
  | none => kEvent 8 .info 0xFF (kCount 0 9 1 s)

def execDispFlit (port : Fin 2) (hdr : FlitHeader) (entries : List (Nat × Nat × BitVec 8 × Fin 16)) (s : State) :
    Host.Outcome State Fault Refusal :=
  .next (kReceive port.val hdr true (fun s => spillSettled (entries.foldl (fun s e => partnerDisp e s) s)) s)

/-! ### Mirror frames at the Understudy (R465, R466) -/

def setMirrorRx (p : Nat) (m : Option MirrorRx) (s : State) : State :=
  setKlink { s.klink with mirrorRx := s.klink.mirrorRx.set p m } s

/-- FRAME_HDR: a frame opens on the port in SRC, unless that port ingests on its own (R465). -/
def mirrorOpen (p num fs src dt width height cfa emb : Nat) (s : State) : State :=
  let r := src / 64
  let d := src / 16 % 4
  if s.flag (INGEST_CTRL.EN r) then linkSend (.mirrorAck [(num, 5)]) (kCount p 13 1 (setMirrorRx p none s))
  else
    let s := match openFrame s r d with
      | some f => closeTruncated f s
      | none => s
    let sd : StreamDesc :=
      { en := true, seqchk := false, vc := src % 16, dt := dt, cfa := cfa, embMax := emb, width := width, height := height }
    let s := openNew r r d (toLocal s fs) sd (some num) s
    match openFrame s r d with
    | some f =>
      setMirrorRx p (some { num := num, frame := f.num, port := r, desc := d, emb := emb, bytes := [] }) s
    | none => s

/-- Whole lines and embedded packets among the bytes received pass the split (R465). -/
def mirrorConsume : Nat → Nat → State → State
  | 0, _, s => s
  | n + 1, p, s =>
    match (s.klink.mirrorRx[p]?).join with
    | none => s
    | some m =>
      match openFrame s m.port m.desc with
      | none => s
      | some f =>
        let lines := ((f.members.head?).map (fun x => x.lines.length)).getD 0
        let e := f.d.lineBytes
        if f.num ≠ m.frame then s
        else if lines < f.d.height then
          if m.bytes.length < e then s
          else
            let l := fillLine (dtWidth f.d.dt) f.d.width f.fill (m.bytes.take e)
            mirrorConsume n p (passLines f m.port [l] (setMirrorRx p (some { m with bytes := m.bytes.drop e }) s))
        else
          let k := leAt m.bytes 0 4
          if m.bytes.length < 4 ∨ m.bytes.length < 4 + k then s
          else
            mirrorConsume n p (embeddedPacket f m.port ((m.bytes.drop 4).take k) true false
              (setMirrorRx p (some { m with bytes := m.bytes.drop (4 + k) }) s))

def execFrameHdr (port : Fin 2) (hdr : FlitHeader) (num fs : Nat) (src : BitVec 8) (dt : BitVec 6) (width height : Nat)
    (cfa : Fin 8) (emb : Nat) (s : State) : Host.Outcome State Fault Refusal :=
  .next (kReceive port.val hdr true (mirrorOpen port.val num fs src.toNat dt.toNat width height cfa.val emb) s)

def execRaw (port : Fin 2) (hdr : FlitHeader) (bytes : List Byte) (s : State) : Host.Outcome State Fault Refusal :=
  let p := port.val
  .next (kReceive p hdr true (fun s =>
    match (s.klink.mirrorRx[p]?).join with
    | none => s
    | some m => mirrorConsume (bytes.length + 1) p (setMirrorRx p (some { m with bytes := m.bytes ++ bytes }) s)) s)

def execFrameEndFlit (port : Fin 2) (hdr : FlitHeader) (num : Nat) (poison : Bool) (s : State) :
    Host.Outcome State Fault Refusal :=
  let p := port.val
  .next (kReceive p hdr true (fun s =>
    match (s.klink.mirrorRx[p]?).join with
    | none => s
    | some m =>
      if m.num ≠ num then s
      else
        let s := kCount p 11 1 (setMirrorRx p none s)
        let s := if poison then orFlags m.frame 0x40 (s.orBit KLINK_EVENT.EVENT 10) else s
        match openFrame s m.port m.desc with
        | some f => if f.num = m.frame then frameEnd m.port f s else s
        | none => s) s)

/-! ### Mirror frames at the Principal (R466) -/

/-- One MIRROR_ACK entry: the Understudy's disposition of a frame. -/
def mirrorAck (e : Nat × Fin 16) (s : State) : State :=
  if s.klink.mirror.any (fun m => m.num == e.1) = false then s
  else
    let port := ((s.klink.mirror.find? (fun m => m.num == e.1)).map (fun m => m.port)).getD 0
    let ok := decide (1 ≤ e.2.val) && decide (e.2.val ≤ 3)
    let s := modFrame e.1 (fun x => { x with
      partner := some e.2.val, flags := if ok then x.flags ||| 0x1000 else x.flags }) s
    if ok then
      settleDest e.1 2 true (setKlink { s.klink with mirror := s.klink.mirror.filter (fun m => m.num != e.1) } s)
    else mirrorAbandon e.1 port s

def execMirrorAck (port : Fin 2) (hdr : FlitHeader) (entries : List (Nat × Fin 16)) (s : State) :
    Host.Outcome State Fault Refusal :=
  .next (kReceive port.val hdr true (fun s => entries.foldl (fun s e => mirrorAck e s) s) s)

/-- No acknowledgement within `KLINK_MIRROR_TO.MS` of the begin of the transfer or, where no port could carry it, of the commit
(R466). -/
def execMirrorAckTimeout (num : Nat) (s : State) : Host.Outcome State Fault Refusal :=
  let ns := max 10 (s.fld KLINK_MIRROR_TO.MS) * 1000000
  match s.klink.mirror.find? (fun m => m.num == num), frameOf s num with
  | some m, _ => if s.elapsedNs m.since ns then .next (mirrorAbandon num m.port s) else .next s
  | none, some f =>
    if f.disp = 7 ∧ f.closed ∧ f.await.contains 2 ∧ s.elapsedNs f.since ns then .next (mirrorAbandon num 0 s) else .next s
  | none, none => .next s

/-- `KLINK_CNT_CTRL.CLEAR`. -/
def execKlinkCounterClear (s : State) : Host.Outcome State Fault Refusal :=
  .next (setKlink { s.klink with counts := [] } (busOk 0 s))

/-- The selected count (`KLINK_CNT_VAL`). -/
def klinkCount (s : State) : Nat :=
  let k := s.fld KLINK_CNT_SEL.KIND
  if 13 < k then 0
  else (keyGet s.klink.counts (if k = 8 ∨ k = 9 then k else s.fld KLINK_CNT_SEL.PORT * 16 + k)).getD 0

/-! ### Cue points and domains -/

/-- The roles at a cue point, and as domain 25 comes on (R450): with TOPO 0 the device is Principal and no pair stays formed; the first with TOPO 1 or 2 makes
it an Understudy that has formed no pair. -/
def pairRoles (s : State) : State :=
  let fresh := topo s != 0 && !s.klink.started
  let s := setKlink { s.klink with firstCue := true, started := topo s != 0, yielding := s.klink.yielding && topo s != 0
                                   formedOnce := s.klink.formedOnce && !fresh
                                   missed := if fresh then 0 else s.klink.missed } s
  let s := if topo s = 0 ∧ s.flag KLINK_STATUS.FORMED then unform s else s
  if topo s = 0 then setPrin true s else if fresh then setPrin false s else setPrin (s.flag KLINK_STATUS.PRIN) s

/-- The pair at a cue point (R450, R472): only there a port leaves OFF. -/
def klinkCuePoint (s : State) : State :=
  let s := pairRoles s
  (List.range 2).foldl (fun s p =>
    if kEnabled s p then (if kState s p = 0 then setKState p 1 s else s)
    else if kState s p = 0 then s else kOff p s) s

end Sys2Proof.Machine
end

