-- ==== Sys2Proof/Machine/Motion.lean ====
section
/-! DEFINITION. Motion feedback: inputs (R475, R476), position by kind of sensor (R477 to R484), speed (R486 to R489), and the
position compares (R490 to R496). -/

namespace Sys2Proof.Machine

def setMotion (m : MotionState) (s : State) : State := { s with motion := m }

def modChan (c : Nat) (f : MotionChan → MotionChan) (s : State) : State :=
  setMotion { s.motion with chans := modAt s.motion.chans c f } s

def motionChan (s : State) (c : Nat) : MotionChan := (s.motion.chans[c]?).getD motionChanInit
def motionRec (s : State) (c : Nat) : MotionRec := (s.motion.recs[c]?).getD motionRecNone

/-- The channel counts: enabled, of a kind, its domain on (R475). -/
def motionOn (s : State) (c : Nat) : Bool := s.domainOn 28 && (motionChan s c).on && (motionRec s c).kind != 0

/-- An event of MOTION by its bit number. -/
def motionEvent (n : Nat) (cls : EventClass) (c : Nat) (s : State) : State := postFlag (MOTION_EVENT.EVENT c) n cls 17 c 0 s

/-- The modulus of a rotary channel, 0 where it is linear (R474). -/
def MotionRec.modulo (r : MotionRec) : Nat :=
  if r.kind = 2 then r.lines else if r.kind = 4 then (if r.modulus = 0 then 0 else 2 ^ r.ssiBits) else r.modulus

def motionMod (s : State) (c : Nat) : Nat := (motionRec s c).modulo

/-- The position as a number (R477). -/
def motionPos (s : State) (c : Nat) : Int :=
  if motionMod s c = 0 then toSigned 32 (s.fld (MOTION_POS.POS c)) else (s.fld (MOTION_POS.POS c) : Int)

/-- The delta of R478: `d` modulo M (2^32 where linear) as a number from −M/2 to M/2 − 1. -/
def motionDelta (m : Nat) (d : Int) : Int :=
  let m : Int := if m = 0 then 2 ^ 32 else m
  let x := d % m
  if 2 * x < m then x else x - m

/-! ### Compares (R490 to R493) -/

def motionCmp (s : State) (k : Nat) : MotionCmp := (s.motion.cmps[k]?).getD motionCmpInit

def modCmp (k : Nat) (f : MotionCmp → MotionCmp) (s : State) : State :=
  setMotion { s.motion with cmps := modAt s.motion.cmps k f } s

/-- The target of a compare, also in its register. -/
def setTarget (k : Nat) (t : Int) (s : State) : State :=
  (modCmp k (fun x => { x with target := t }) s).setFld (MOTION_CMP_TARGET.TARGET k) (ofSigned 32 t)

/-- Position `p` moved by `d` counts on a channel of modulus `m`. -/
def motionAdd (m : Nat) (p d : Int) : Int := if m = 0 then toSigned 32 (ofSigned 32 (p + d)) else (p + d) % m

/-- The distance from `p` to the target in the direction of `d`, when the update by `d` crosses it (R491). -/
def crossing (m : Nat) (x : MotionCmp) (p d : Int) : Option Nat :=
  let w : Int := if m = 0 then 2 ^ 32 else m
  let ahead := if 0 ≤ d then (x.target - p) % w else (p - x.target) % w
  let dirOk := x.dir = 2 ∨ (x.dir = 0 ∧ 0 < d) ∨ (x.dir = 1 ∧ d < 0)
  if dirOk ∧ 1 ≤ ahead ∧ ahead ≤ d.natAbs then some ahead.toNat else none

/-- What a fire records (R491). -/
def cmpFire (k time : Nat) (s : State) : State :=
  let s := (s.addFld (MOTION_CMP_FIRES.COUNT k) 1).setFld (MOTION_CMP_TIME_NS.VALUE k) (time % 1000000000)
  s.setFld (MOTION_CMP_TIME_SEC.VALUE k) (time / 1000000000)

/-- Compare `k` fires on an update by `d` that crosses its target after `ahead` counts: a one-shot compare disarms, a
periodic one moves its target past the new position (R491). -/
def cmpCross (m k time ahead : Nat) (d : Int) (s : State) : State :=
  let x := motionCmp s k
  let s := cmpFire k time s
  if x.periodic = false ∨ x.step = 0 then s.setFlag (MOTION_CMP_CTRL.ARMED k) false
  else
    let n := (d.natAbs - ahead) / x.step + 1
    let t := motionAdd m x.target (if 0 ≤ d then ((n * x.step : Nat) : Int) else -((n * x.step : Nat) : Int))
    (setTarget k t s).addFld (MOTION_CMP_MISSED.COUNT k) (n - 1)

/-- The events of compares `ks` at a crossing time: combiner inputs and cue selection (R74, R214). The fire of a compare is an event,
which satisfies EDGE 3 only, though the level of its input is 1 in that cycle (DEDUCED, assumption 116). -/
def cmpEvents (ks : List Nat) (time : Nat) (s : State) : State :=
  if ks.isEmpty then s
  else selFireAll (ks.map (fun k => (1, k, .event))) (combine (ks.map (fun k => (8 + k, time))) time s)

/-- A position update of channel `c` from `p` by `d` at a crossing time: the compares that it crosses fire in one cycle. -/
def cmpUpdate (c : Nat) (p d : Int) (time : Nat) (s : State) : State :=
  if d = 0 ∨ s.flag (MOTION_STATUS.VALID c) = false then s
  else
    let m := motionMod s c
    let hits := (List.range 8).filterMap (fun k =>
      if s.flag (MOTION_CMP_CTRL.ARMED k) ∧ (motionCmp s k).ch = c then (crossing m (motionCmp s k) p d).map (fun a => (k, a))
      else none)
    cmpEvents (hits.map (·.1)) time (hits.foldl (fun s h => cmpCross m h.1 time h.2 d s) s)

/-- The last step was in the compare's direction and the channel moves: R492 asks whether the target is behind. -/
def cmpBehind (s : State) (x : MotionCmp) : Bool :=
  let c := x.ch
  let p := motionPos s c
  if motionMod s c ≠ 0 ∨ s.flag (MOTION_STATUS.STANDSTILL c) ∨ s.flag (MOTION_STATUS.REVERSED c) then false
  else
    match (motionChan s c).lastBack with
    | some false => x.dir != 1 && decide (x.target ≤ p)
    | some true => x.dir != 0 && decide (p ≤ x.target)
    | none => false

/-- An arming (R490, R492). -/
def cmpArm (k : Nat) (x : MotionCmp) (ifPassed : Bool) (s : State) : State :=
  let m := motionMod s x.ch
  if m ≠ 0 ∧ ¬ (0 ≤ x.target ∧ x.target < m) then
    postKind 4 17 (0x10 + k) (MOTION_CMP_CTRL.ARM k).addr (s.setFlag (MOTION_CMP_CTRL.REFUSED k) true)
  else
    let s := modCmp k (fun _ => x) s
    if cmpBehind s x = false then
      ((s.setFld (MOTION_CMP_FIRES.COUNT k) 0).setFld (MOTION_CMP_MISSED.COUNT k) 0).setFlag (MOTION_CMP_CTRL.ARMED k) true
    else if ifPassed = false then
      let s := (s.setFlag (MOTION_CMP_CTRL.ARMED k) false).setFlag (MOTION_CMP_CTRL.BEHIND k) true
      postOther .warning 17 (0x10 + k) (MOTION_CMP_CTRL.BEHIND k).addr s
    else
      let s := ((s.setFld (MOTION_CMP_FIRES.COUNT k) 0).setFld (MOTION_CMP_MISSED.COUNT k) 0).setFlag (MOTION_CMP_CTRL.PASSED k) true
      let again := x.periodic && x.step != 0
      let back := x.dir = 1 ∨ (x.dir = 2 ∧ (motionChan s x.ch).lastBack = some true)
      let s := cmpFire k s.nowNs (s.setFlag (MOTION_CMP_CTRL.ARMED k) again)
      let s := if again then setTarget k (motionAdd m x.target (if back then -(x.step : Int) else x.step)) s else s
      cmpEvents [k] s.nowNs s

/-- The settings of compare `k` as its registers hold them: a DIR of 3 acts as 2, a STEP above 2^31 − 1 as that. -/
def cmpRegs (s : State) (k : Nat) : MotionCmp :=
  let ch := s.fld (MOTION_CMP_CTRL.CH k)
  let t := s.fld (MOTION_CMP_TARGET.TARGET k)
  { ch := ch, dir := min 2 (s.fld (MOTION_CMP_CTRL.DIR k)), periodic := s.flag (MOTION_CMP_CTRL.PERIODIC k)
    target := if motionMod s ch = 0 then toSigned 32 t else (t : Int)
    step := min 2147483647 (s.fld (MOTION_CMP_STEP.STEP k)) }

/-- The RW and W1C fields of a write of `MOTION_CMP_CTRL`. -/
def cmpCtrlWrite (k : Nat) (v : Nat) (s : State) : State :=
  let s := if v.testBit 28 then s.setFlag (MOTION_CMP_CTRL.BEHIND k) false else s
  let s := if v.testBit 27 then s.setFlag (MOTION_CMP_CTRL.PASSED k) false else s
  let s := if v.testBit 26 then s.setFlag (MOTION_CMP_CTRL.REFUSED k) false else s
  let s := (s.setFlag (MOTION_CMP_CTRL.FIRE_IF_PASSED k) (v.testBit 7)).setFlag (MOTION_CMP_CTRL.PERIODIC k) (v.testBit 6)
  let s := (s.setFld (MOTION_CMP_CTRL.DIR k) (bits v 5 4)).setFld (MOTION_CMP_CTRL.CH k) (bits v 1 0)
  if bits v 5 4 = 3 then postActsAs 17 (0x10 + k) (MOTION_CMP_CTRL.DIR k).addr s else s

/-- A write of `MOTION_CMP_CTRL` with ARM set (R490); with DISARM set as well, the compare is then disarmed. -/
def execArm (cmp : Fin 8) (value : Word) (s : State) : Host.Outcome State Fault Refusal :=
  let k := cmp.val
  let s := busOk 0 s
  if s.domainOn 28 = false then .next s
  else
    let s := cmpCtrlWrite k value.toNat s
    let s := cmpArm k (cmpRegs s k) (s.flag (MOTION_CMP_CTRL.FIRE_IF_PASSED k)) s
    .next (if value.toNat.testBit 30 then s.setFlag (MOTION_CMP_CTRL.ARMED k) false else s)

/-- A write with DISARM set and ARM clear (R490). -/
def execDisarm (cmp : Fin 8) (value : Word) (s : State) : Host.Outcome State Fault Refusal :=
  let k := cmp.val
  let s := busOk 0 s
  if s.domainOn 28 = false then .next s
  else .next ((cmpCtrlWrite k value.toNat s).setFlag (MOTION_CMP_CTRL.ARMED k) false)

/-! ### Position and speed -/

/-- The position moves by `d` counts: a position update, whose delta is that of R478 (R477, R491). -/
def motionMove (c : Nat) (d : Int) (time : Nat) (s : State) : State :=
  let p := motionPos s c
  let m := motionMod s c
  let s := s.setFld (MOTION_POS.POS c) (ofSigned 32 (motionAdd m p d))
  let s := if m = 0 ∧ (p + d < -2147483648 ∨ 2147483647 < p + d) then motionEvent 7 .info c s else s
  let s := modChan c (fun x => { x with gateSum := x.gateSum + d }) s
  cmpUpdate c p (motionDelta m d) time s

/-- `a / b` rounded half up. -/
def halfUp (a : Int) (b : Nat) : Int := (2 * a + b) / (2 * b)

def setSpeed (c : Nat) (v : Int) (s : State) : State := s.setFld (MOTION_SPEED.SPEED c) (ofSigned 32 v)

/-- The speed mode of `MOTION_SPD_CFG`: 3 acts as 0. -/
def motionAuto (s : State) (c : Nat) : Bool :=
  (s.fld (MOTION_SPD_CFG.MODE c) == 0 || s.fld (MOTION_SPD_CFG.MODE c) == 3) && (motionRec s c).kind != 4

def motionPer (s : State) (c : Nat) : Nat := max 1 (s.fld (MOTION_SPD_CFG.PER c))
def motionHi (s : State) (c : Nat) : Nat := s.fld (MOTION_SPD_HI.CPS c)

/-- `MOTION_SPD_LO`: a value at or above HI acts as HI/2 (R487). -/
def motionLo (s : State) (c : Nat) : Nat :=
  if motionHi s c ≤ s.fld (MOTION_SPD_LO.CPS c) then motionHi s c / 2 else s.fld (MOTION_SPD_LO.CPS c)

/-- The speed of period mode (R486). -/
def periodSpeed (s : State) (c : Nat) : Int :=
  let x := motionChan s c
  let k := min (x.steps.length - 1) (motionPer s c)
  let e (i : Nat) := ((x.steps[i]?).map (·.1)).getD 0
  let n := ((x.steps.take k).map (·.2)).sum
  let t := e 0 - e k
  let v : Int := if k = 0 ∨ t = 0 then 0 else halfUp ((n * 200000000 * 16 : Nat) : Int) t
  if x.lastBack = some true then
    (if k = 0 ∨ t = 0 then 0 else halfUp (-((n * 200000000 * 16 : Nat) : Int)) t) else v

/-- A step of `n` counts at sample `sample`: direction, reversal, standstill, speed (R486 to R489). -/
def motionStep (c : Nat) (back : Bool) (n sample : Nat) (s : State) : State :=
  let x := motionChan s c
  let turned := x.lastBack == some (!back)
  let s := modChan c (fun x => { x with
    steps := if turned then [(sample, n)] else ((sample, n) :: x.steps).take 17
    stepAt := s.ticks
    lastBack := some back, clean := x.clean && !turned }) (s.setFlag (MOTION_STATUS.DIR c) back)
  let s := if turned then
      let s := (s.setFlag (MOTION_STATUS.REVERSED c) true).orBit (MOTION_EVENT.EVENT c) 8
      let s := if motionAuto s c then s.setFlag (MOTION_STATUS.COUNT_MODE c) false else s
      setSpeed c 0 s
    else s
  let len := (motionChan s c).steps.length
  let s := if 2 ≤ len then s.setFlag (MOTION_STATUS.STANDSTILL c) false else s
  let s := if motionPer s c + 1 ≤ len then s.setFlag (MOTION_STATUS.REVERSED c) false else s
  if s.flag (MOTION_STATUS.COUNT_MODE c) ∨ s.flag (MOTION_STATUS.STANDSTILL c) ∨ s.flag (MOTION_STATUS.REVERSED c) then s
  else
    let v := periodSpeed s c
    let s := setSpeed c v s
    if motionAuto s c ∧ 16 * motionHi s c ≤ v.natAbs then
      modChan c (fun x => { x with gateSum := 0, gateAt := s.ticks }) (s.setFlag (MOTION_STATUS.COUNT_MODE c) true)
    else s

/-- The gate of count mode in µs: below 10 acts as 10 (R486). -/
def motionGate (s : State) (c : Nat) : Nat := max 10 (s.fld (MOTION_SPD_CFG.GATE_US c))

/-- The end of a gate of count mode (R486, R487). -/
def execMotionGateEnd (channel : Fin 4) (s : State) : Host.Outcome State Fault Refusal :=
  let c := channel.val
  let gate := motionGate s c
  if motionOn s c = false ∨ s.flag (MOTION_STATUS.COUNT_MODE c) = false ∨
     s.elapsedNs (motionChan s c).gateAt (gate * 1000) = false then .next s
  else
    let d := (motionChan s c).gateSum
    let still := s.flag (MOTION_STATUS.STANDSTILL c) || s.flag (MOTION_STATUS.REVERSED c)
    let v : Int := if still then 0 else halfUp (d * 16000000) gate
    let s := setSpeed c v (modChan c (fun x => { x with gateSum := 0, gateAt := s.ticks }) s)
    .next (if motionAuto s c ∧ v.natAbs < 16 * motionLo s c then s.setFlag (MOTION_STATUS.COUNT_MODE c) false else s)

/-- No step for STOP_MS (R488). -/
def execMotionStandstill (channel : Fin 4) (s : State) : Host.Outcome State Fault Refusal :=
  let c := channel.val
  if motionOn s c = false ∨ s.elapsedNs (motionChan s c).stepAt (max 1 (s.fld (MOTION_CFG.STOP_MS c)) * 1000000) = false then
    .next s
  else
    let s := modChan c (fun x => { x with steps := [], tooth := none, prevPeriod := none }) s
    .next (setSpeed c 0 (s.setFlag (MOTION_STATUS.STANDSTILL c) true))

/-- The position is set without an update (R483); the gate in progress does not see the jump. -/
def motionSet (c : Nat) (v : Int) (s : State) : State :=
  (s.setFld (MOTION_POS.POS c) (ofSigned 32 v)).setFlag (MOTION_STATUS.VALID c) true

/-- A home event (R483). -/
def motionHome (c : Nat) (s : State) : State :=
  ((motionSet c (motionRec s c).home s).setFlag (MOTION_STATUS.HOMED c) true).orBit (MOTION_EVENT.EVENT c) 6

/-- A write of `MOTION_PRESET` (R483). -/
def execMotionPreset (channel : Fin 4) (value : Word) (s : State) : Host.Outcome State Fault Refusal :=
  let s := busOk 0 s
  if motionOn s channel.val then .next (motionSet channel.val (value.toNat : Int) s) else .next s

/-- The counts between two reference marks differ from the record (R479, R481). -/
def countErr (c : Nat) (s : State) : State :=
  motionEvent 2 .warning c ((s.setFlag (MOTION_STATUS.VALID c) false).addFld (MOTION_ERRCNT.COUNT c) 1)

/-- A step of a counting channel by `d`: its direction is that of the delta (R478); a tone wheel never reverses (R489). -/
def motionCount (c : Nat) (d : Int) (sample time : Nat) (s : State) : State :=
  let d := if (motionRec s c).invert then -d else d
  let e := if (motionRec s c).kind = 2 then d else motionDelta (motionMod s c) d
  if e = 0 then s
  else
    let s := motionStep c (decide (e < 0)) d.natAbs sample (motionMove c d time s)
    modChan c (fun x => { x with mark := x.mark.map (· + d) }) s

/-! ### Kinds of sensor -/

/-- The place of (A, B) in the Gray sequence 00, 10, 11, 01 (R479). -/
def grayPlace (ab : Nat) : Nat := if ab = 0 then 0 else if ab = 2 then 1 else if ab = 3 then 2 else 3

/-- An index of a quadrature channel (R479). -/
def motionIndex (c : Nat) (s : State) : State :=
  let x := motionChan s c
  let r := motionRec s c
  let back := x.lastBack == some true
  let s := s.setFld (MOTION_REF_POS.POS c) (ofSigned 32 (motionPos s c))
  let s := match x.mark with
    | some n => if r.zmode ≠ 0 ∧ x.clean ∧ x.markBack = back ∧ n.natAbs ≠ 4 * r.lines then countErr c s else s
    | none => s
  let s := if r.zmode = 3 ∨ (r.zmode = 2 ∧ x.indexed = false) then motionHome c s else s
  modChan c (fun x => { x with mark := some 0, markBack := back, clean := true, indexed := true }) s

def quadEdge (c old new sample time : Nat) (s : State) : State :=
  let d := (grayPlace (new / 2) + 4 - grayPlace (old / 2)) % 4
  let s := if d = 1 then motionCount c 1 sample time s else if d = 3 then motionCount c (-1) sample time s else s
  if new.testBit 0 ≠ old.testBit 0 ∧ new.testBit 0 = !(motionRec s c).zLow then motionIndex c s else s

/-- The place of a Hall state in the forward order (R480). -/
def hallPlace (u : Nat) : Option Nat := [4, 6, 2, 3, 1, 5].findIdx? (· == u)

def hallEdge (c new sample time : Nat) (s : State) : State :=
  match hallPlace new with
  | none => motionEvent 3 .warning c (s.addFld (MOTION_ERRCNT.HALL c) 1)
  | some b =>
    let last := ((motionChan s c).hall).bind hallPlace
    let s := modChan c (fun x => { x with hall := some new }) s
    match last with
    | none => s
    | some a =>
      let d := (b + 6 - a) % 6
      if d = 0 then s
      else if d = 1 then motionCount c 1 sample time s
      else if d = 5 then motionCount c (-1) sample time s
      else motionEvent 4 .warning c ((s.setFlag (MOTION_STATUS.VALID c) false).addFld (MOTION_ERRCNT.HALL c) 1)

/-- A tooth of a tone wheel (R481): the pitches it advances by, and whether it is the reference mark. -/
def toothKind (r : MotionRec) (x : MotionChan) (sample : Nat) : Nat × Bool :=
  match x.tooth, x.prevPeriod with
  | some t, some p =>
    if r.extra = false ∧ r.gap * p < 8 * (sample - t) then (r.missing + 1, true)
    else if r.extra ∧ 8 * (sample - t) < r.short * p then (0, true)
    else (1, false)
  | _, _ => (1, false)

def toothEdge (c sample time : Nat) (s : State) : State :=
  let x := motionChan s c
  let r := motionRec s c
  let (n, ref) := toothKind r x sample
  let s := motionCount c n sample time (s.setFlag (MOTION_STATUS.STALL c) false)
  let s := modChan c (fun y => { y with tooth := some sample, beatAt := s.ticks, prevPeriod := x.tooth.map (fun t => sample - t) }) s
  let s := if ref = false then s
    else
      let s := s.setFld (MOTION_REF_POS.POS c) (ofSigned 32 (motionPos s c))
      let s := match (motionChan s c).mark with
        | some k => if k.natAbs ≠ r.lines then countErr c s else s
        | none => s
      motionHome c (modChan c (fun y => { y with mark := some 0 }) s)
  modChan c (fun y => { y with fast := s.fld (MOTION_SPEED.SPEED c) != 0 }) s

/-- How often the other inputs have changed since each input last did, after a change of the inputs in `changed` (R484). -/
def stallCounts (edges : List Nat) (changed : Nat) : List Nat :=
  let bits_ := [changed.testBit 2, changed.testBit 1, changed.testBit 0]
  let n := (bits_.filter (fun b => b)).length
  (edges.zip bits_).map (fun e => if e.2 then 0 else e.1 + n)

/-- The ticks of the last accepted edge of each input, after a change at tick `t` of the inputs in `changed`. -/
def levelTicks (at_ : List Nat) (changed t : Nat) : List Nat :=
  (at_.zip [changed.testBit 2, changed.testBit 1, changed.testBit 0]).map (fun e => if e.2 then t else e.1)

/-- The run of FILTER samples in nanoseconds (R475). -/
def motionFilterNs (s : State) (c : Nat) : Nat := 5 * clamp 1 64 (s.fld (MOTION_CFG.FILTER c))

/-- Inputs of channel `c` are accepted at new levels A or U, B or V, Z or W (bits 2 to 0): `sample` is the number of the 200 MHz
sample that began the run, `edge` its device time in ns; before FILTER samples have passed nothing is accepted (R475, R476). LEVELS shows
them on every channel; what counts is a change of an input that the kind uses, on a channel that is on. -/
def execMotionEdge (channel : Fin 4) (levels : BitVec 3) (sample edge : Nat) (s : State) : Host.Outcome State Fault Refusal :=
  let c := channel.val
  let r := motionRec s c
  let old := s.fld (MOTION_STATUS.LEVELS c)
  let new := levels.toNat
  let changed := if r.kind = 2 then (old ^^^ new) &&& 4 else old ^^^ new
  if s.domainOn 28 = false ∨ s.nowNs < edge + motionFilterNs s c then .next s
  else if motionOn s c = false ∨ r.kind = 4 ∨ changed = 0 then .next (s.setFld (MOTION_STATUS.LEVELS c) new)
  else
    let x := motionChan s c
    let s := s.setFld (MOTION_STATUS.LEVELS c) new
    let overrun := x.lastEdge.any (fun l => decide (sample < l + 8)) || ([1, 2, 4].contains changed == false)
    let s := if overrun then
        motionEvent 0 .warning c ((s.setFlag (MOTION_STATUS.VALID c) false).addFld (MOTION_ERRCNT.OVERRUN c) 1)
      else s
    let s := modChan c (fun x => { x with
      lastEdge := some sample, edges := stallCounts x.edges changed, levelAt := levelTicks x.levelAt changed s.ticks }) s
    let s := if r.kind ≠ 2 ∧ (motionChan s c).edges.all (fun n => decide (n < 8)) then
        s.setFlag (MOTION_STATUS.STALL c) false else s
    if r.kind = 1 then .next (quadEdge c old new sample edge s)
    else if r.kind = 3 then .next (hallEdge c new sample edge s)
    else if new.testBit 2 then .next (toothEdge c sample edge s)
    else .next s

/-- A run ends that was shorter than FILTER (R475). -/
def execMotionGlitch (run : MotionRun) (s : State) : Host.Outcome State Fault Refusal :=
  let c := run.channel.val
  if motionOn s c ∧ s.nowNs < run.edge + motionFilterNs s c then .next (s.addFld (MOTION_GLITCH.COUNT c) 1) else .next s

/-- The stall condition of R484: an input still for STALL_MS while the others made 8 edges; no tooth, or no frame, for as long. -/
def motionStalls (s : State) (c : Nat) : Bool :=
  let r := motionRec s c
  let x := motionChan s c
  let long (t : Nat) : Bool := s.elapsedNs t (s.fld (MOTION_CFG.STALL_MS c) * 1000000)
  if r.kind = 2 then x.fast && long x.beatAt
  else if r.kind = 4 then long x.beatAt
  else (x.edges.zip x.levelAt).any (fun e => decide (8 ≤ e.1) && long e.2)

/-- The stall condition of R484 holds for STALL_MS. -/
def execMotionStall (channel : Fin 4) (s : State) : Host.Outcome State Fault Refusal :=
  let c := channel.val
  let r := motionRec s c
  if motionOn s c = false ∨ s.fld (MOTION_CFG.STALL_MS c) = 0 ∨ motionStalls s c = false ∨ s.flag (MOTION_STATUS.STALL c) then .next s
  else
    let s := if r.kind = 2 then s else s.setFlag (MOTION_STATUS.VALID c) false
    .next (motionEvent 1 .warning c (s.setFlag (MOTION_STATUS.STALL c) true))

/-! ### SSI (R482) -/

/-- Half a period of MOTc_CLK in nanoseconds. -/
def MotionRec.ssiHalf (r : MotionRec) : Nat := 5 * (r.ssiDiv + 1)

/-- From the latch to the last level check: SSI_BITS + 1 periods and a half (R482). -/
def MotionRec.ssiFrameNs (r : MotionRec) : Nat := (2 * r.ssiBits + 3) * r.ssiHalf

/-- The frame period: shorter than a frame acts as its length (R482). -/
def MotionRec.ssiPeriodNs (r : MotionRec) : Nat := max (r.period * 1000) r.ssiFrameNs

/-- The level of MOTc_CLK: on an SSI channel high, but for the low halves of the SSI_BITS + 1 pulses of a frame (R482); low on the other kinds and
while the domain is off (R474). -/
def motionClk (s : State) (c : Nat) : Bool :=
  let r := motionRec s c
  if r.kind ≠ 4 ∨ s.domainOn 28 = false then false else
  match (motionChan s c).frame, (motionChan s c).ssiAt with
  | some _, some t =>
    let half := 5 * (s.ticks - t) / (2 * max 1 r.ssiHalf)
    half % 2 == 1 || decide (2 * r.ssiBits < half)
  | _, _ => true

/-- The falling edge of the first clock pulse: the latch time. -/
def execSsiFrameStart (channel : Fin 4) (sample : Nat) (idleHigh : Bool) (s : State) : Host.Outcome State Fault Refusal :=
  let c := channel.val
  if motionOn s c = false ∨ (motionRec s c).kind ≠ 4 ∨
     (motionChan s c).ssiAt.any (fun t => !s.elapsedNs t (motionRec s c).ssiPeriodNs) then .next s
  else .next (modChan c (fun x => { x with frame := some (s.nowNs, sample, idleHigh), ssiAt := some s.ticks }) s)

/-- A Gray-coded number as binary. -/
def fromGray (n : Nat) : Nat := (List.range 32).foldl (fun v i => v ^^^ (n / 2 ^ (i + 1))) n

/-- A frame ends: `value` holds the bits that were sampled, `endLow` the last level check. One that passes makes the channel valid and is a
position update at its latch time, the first one too (R482). -/
def execSsiFrameComplete (channel : Fin 4) (value : Word) (endLow : Bool) (s : State) : Host.Outcome State Fault Refusal :=
  let c := channel.val
  let r := motionRec s c
  match (motionChan s c).frame with
  | none => .next s
  | some (time, sample, idleHigh) =>
    let early := (motionChan s c).ssiAt.any (fun t => !s.elapsedNs t r.ssiFrameNs)
    let s := if early then s else modChan c (fun x => { x with frame := none }) s
    if motionOn s c = false ∨ early then .next s
    else if idleHigh = false ∨ endLow = false then
      .next ((s.addFld (MOTION_ERRCNT.FRAME c) 1).orBit (MOTION_EVENT.EVENT c) 5)
    else
      let v := value.toNat % 2 ^ r.ssiBits
      let v := if r.gray then fromGray v else v
      let p := motionPos s c
      let q : Int := if r.modulo = 0 then toSigned 32 v else (v : Int)
      let d := motionDelta r.modulo (q - p)
      let s := modChan c (fun x => { x with beatAt := s.ticks }) (s.setFlag (MOTION_STATUS.STALL c) false)
      let s := s.setFlag (MOTION_STATUS.VALID c) true
      let s := motionMove c d time s
      .next (if d = 0 then s else motionStep c (decide (d < 0)) d.natAbs sample s)

/-! ### Cue points and power -/

/-- The registers of a channel that counts nothing (R475, R496); LEVELS goes on showing its inputs. -/
def motionClear (c : Nat) (s : State) : State :=
  let s := (s.setFld (MOTION_POS.POS c) 0).setFld (MOTION_SPEED.SPEED c) 0
  let s := ((s.setFlag (MOTION_STATUS.VALID c) false).setFlag (MOTION_STATUS.DIR c) false).setFlag (MOTION_STATUS.STANDSTILL c) true
  let s := ((s.setFlag (MOTION_STATUS.REVERSED c) false).setFlag (MOTION_STATUS.STALL c) false).setFlag (MOTION_STATUS.HOMED c) false
  s.setFlag (MOTION_STATUS.COUNT_MODE c) (s.fld (MOTION_SPD_CFG.MODE c) == 2 || (motionRec s c).kind == 4)

/-- Channel `c` at a cue point: it starts, stops or takes a new speed mode (R475, R487). -/
def chanCuePoint (c : Nat) (s : State) : State :=
  let en := s.domainOn 28 && s.flag (MOTION_CFG.EN c) && (motionRec s c).kind != 0
  let x := motionChan s c
  let hall := (hallPlace (s.fld (MOTION_STATUS.LEVELS c))).map (fun _ => s.fld (MOTION_STATUS.LEVELS c))
  if en ≠ x.on then motionClear c (modChan c (fun _ => { motionChanAt en s.ticks with hall := hall }) s)
  else if en = false ∨ (motionRec s c).kind = 4 then s
  else if s.fld (MOTION_SPD_CFG.MODE c) = 1 then s.setFlag (MOTION_STATUS.COUNT_MODE c) false
  else if s.fld (MOTION_SPD_CFG.MODE c) = 2 ∧ s.flag (MOTION_STATUS.COUNT_MODE c) = false then
    modChan c (fun x => { x with gateSum := 0, gateAt := s.ticks }) (s.setFlag (MOTION_STATUS.COUNT_MODE c) true)
  else s

/-- A descriptor of MOTION table 0 arms or disarms its compare (R495); the registers then show it. -/
def cmpLoad (k : Nat) (s : State) : State :=
  let g (o n : Nat) := s.tab 0x3C 0 (16 * k + o) n
  let ctrl := g 0 1
  if ctrl.testBit 7 = false then s.setFlag (MOTION_CMP_CTRL.ARMED k) false
  else
    let s := (s.setFlag (MOTION_CMP_CTRL.FIRE_IF_PASSED k) (ctrl.testBit 3)).setFlag (MOTION_CMP_CTRL.PERIODIC k) (ctrl.testBit 6)
    let s := (s.setFld (MOTION_CMP_CTRL.DIR k) (bits ctrl 5 4)).setFld (MOTION_CMP_CTRL.CH k) (ctrl % 4)
    let s := (s.setFld (MOTION_CMP_TARGET.TARGET k) (g 4 4)).setFld (MOTION_CMP_STEP.STEP k) (g 8 4)
    cmpArm k (cmpRegs s k) (ctrl.testBit 3) s

/-- Motion at a cue point; `loaded` says that it loads MOTION table 0. -/
def motionCuePoint (loaded : Bool) (s : State) : State :=
  let s := (List.range 4).foldl (fun s c => chanCuePoint c s) s
  if loaded ∧ s.domainOn 28 then (List.range 8).foldl (fun s k => cmpLoad k s) s else s

/-- The motion domain is switched on: channels invalid and at standstill, compares disarmed (R496). -/
def motionUp (s : State) : State :=
  let s := setMotion { s.motion with chans := motionInit.chans, cmps := motionInit.cmps } s
  (List.range 4).foldl (fun s c => (s.setFld (MOTION_STATUS.KIND c) (motionRec s c).kind).setFlag (MOTION_STATUS.BAD_REC c)
    (s.motion.bad.getD c false)) s

/-! ### The board table (R474) -/

/-- A record as it stands in the table. -/
def parseMotionRec (b : List Byte) : MotionRec :=
  let g (o n : Nat) := leAt b o n
  { kind := g 0 1, invert := bit (g 1 1) 0, gray := bit (g 1 1) 1, zLow := bit (g 1 1) 2, zmode := g 2 1, extra := bit (g 3 1) 7,
    missing := g 3 1 % 8, lines := g 4 4, modulus := g 8 4, home := toSigned 32 (g 0xC 4), gap := g 0x10 1, short := g 0x11 1,
    ssiBits := g 0x12 1, ssiDiv := g 0x13 1, period := g 0x14 2 }

/-- The fields that the kind of the record uses lie in their ranges. -/
def motionRecOk (b : List Byte) : Bool :=
  let r := parseMotionRec b
  decide (r.kind ≤ 4) && decide (leAt b 1 1 < 8) && (leAt b 0x16 10 == 0) &&
  (r.kind != 1 || (decide (r.zmode ≤ 3) && decide (1 ≤ r.lines) && decide (r.lines ≤ 2 ^ 28))) &&
  (r.kind != 2 || (bits (leAt b 3 1) 6 3 == 0 && decide (1 ≤ r.missing) && decide (r.missing ≤ 4) &&
    decide (8 ≤ r.lines) && decide (r.lines ≤ 4096) && decide (9 ≤ r.gap) && decide (r.gap ≤ 64) &&
    decide (1 ≤ r.short) && decide (r.short ≤ 7))) &&
  (r.kind != 4 || (decide (8 ≤ r.ssiBits) && decide (r.ssiBits ≤ 32) && decide (9 ≤ r.ssiDiv) && decide (2 ≤ r.period)))

/-- The motion wheel board table in Dawn: four records of 32 bytes after the tag. -/
def motionTable (b : List Byte) (s : State) : State :=
  (List.range 4).foldl (fun s c =>
    let rb := (b.drop (32 * c)).take 32
    let ok := motionRecOk rb
    let s := setMotion { s.motion with recs := s.motion.recs.set c (if ok then parseMotionRec rb else motionRecNone)
                                       bad := s.motion.bad.set c (!ok) } s
    if ok then s else postKind 5 17 c (32 * c) s) s

end Sys2Proof.Machine
end

