-- ==== Sys2Proof/Machine/Net.lean ====
section
/-! DEFINITION. The Ethernet ports: link (R424), host rings and timestamps (R425, R426, R428 to R431), reception (R422,
R423), the network streams (R427, R444, R445) and the keep-alive engine (R447). -/

namespace Sys2Proof.Machine

/-! ### The link (R424, R435) -/

/-- The port takes part: enabled with its domain on, or port 0 in Midnight (R421, R447). -/
def netOn (s : State) (p : Nat) : Bool :=
  if s.mode = 7 then p == 0 else s.domainOn 26 && s.flag (NET_CFG.EN p)

/-- The link goes down, with its event. -/
def netDown (p : Nat) (s : State) : State :=
  if netUp s p then netEvent p 0 .warning (s.setFlag (NET_STATUS.LINK p) false) else s

/-- The link of port `p` is lost: on the servo port holdover begins (R435). -/
def netLost (p : Nat) (s : State) : State :=
  if netUp s p = false then s
  else if p = servoPort s then holdover 1 (netDown p s) else netDown p s

/-- The lane of a port starts at the port's speed. -/
def netTrain (p : Nat) (s : State) : State :=
  let sp := netSpeed s p
  let s := (s.setFld (NET_STATUS.SPEED p) sp).setFlag (NET_STATUS.FEC p) (sp == 0 && s.flag (NET_CFG.FEC p))
  laneStart (ethLane p) (netRate sp) s

def netRunning (s : State) (p : Nat) : Bool := s.fld (LANE_STATUS.RATE (ethLane p)) != 15

/-- The port follows its settings: started, stopped, or trained again at a new speed or FEC (R424). -/
def netFollow (p : Nat) (s : State) : State :=
  if netOn s p = false then (if netRunning s p then laneStop (ethLane p) (netLost p s) else s)
  else if netRunning s p = false then netTrain p s
  else
    let sp := netSpeed s p
    if s.fld (NET_STATUS.SPEED p) = sp ∧ s.flag (NET_STATUS.FEC p) = (sp == 0 && s.flag (NET_CFG.FEC p)) then s
    else netTrain p (netLost p s)

def execNetLinkUp (port : Fin 2) (s : State) : Host.Outcome State Fault Refusal :=
  let p := port.val
  if netOn s p ∧ netUp s p = false ∧ s.flag (LANE_STATUS.LOCK (ethLane p)) then
    .next (netEvent p 1 .info (s.setFlag (NET_STATUS.LINK p) true))
  else .next s

def execNetLinkDown (port : Fin 2) (s : State) : Host.Outcome State Fault Refusal := .next (netLost port.val s)

/-- Midnight begins (R447): port 0 goes to 1000BASE-X and port 1 stops; neither begins holdover by itself (R435). -/
def netMidnight (s : State) : State :=
  let s := if netRunning s 1 then laneStop (ethLane 1) (netDown 1 s) else s
  let s := setClock { s.clock with kaFrom := s.ticks } s
  if netRunning s 0 ∧ s.fld (NET_STATUS.SPEED 0) = 2 then s
  else netTrain 0 (netDown 0 s)

/-- Midnight is over (R435): the ports take their settings again, and SERVO_PORT names the servo port. -/
def netWake (s : State) : State :=
  let s := (List.range 2).foldl (fun s p =>
    if s.domainOn 26 && s.flag (NET_CFG.EN p) then netFollow p s
    else if netRunning s p then laneStop (ethLane p) (netDown p s) else s) s
  if netUp s (servoPort s) then s else holdover 1 s

/-! ### Host rings (R425, R426) -/

def netRingSize (s : State) (p : Nat) (rx : Bool) : Nat :=
  2 ^ clamp 4 12 (s.fld (if rx then NET_RX_SIZE.LOG2 p else NET_TX_SIZE.LOG2 p))

def netRingBase (s : State) (p : Nat) (rx : Bool) : Nat :=
  if rx then s.fld (NET_RX_BASE_LO.ADDR p) * 32 + s.fld (NET_RX_BASE_HI.ADDR p) * 2 ^ 32
  else s.fld (NET_TX_BASE_LO.ADDR p) * 32 + s.fld (NET_TX_BASE_HI.ADDR p) * 2 ^ 32

/-- A ring can be enabled: it lies within memory (R425). -/
def netRingOk (s : State) (p : Nat) (rx : Bool) : Bool := inMem s (netRingBase s p rx) (32 * netRingSize s p rx)

/-- The address of the entry at the port's read count. -/
def netEntryAt (s : State) (p : Nat) (rx : Bool) : Nat :=
  let rd := s.fld (if rx then NET_RX_RD.RD p else NET_TX_RD.RD p)
  netRingBase s p rx + 32 * (rd % netRingSize s p rx)

/-- An entry waits for the port. -/
def netEntryWaits (s : State) (p : Nat) (rx : Bool) : Bool :=
  if rx then s.flag (NET_RX_SIZE.EN p) && s.fld (NET_RX_RD.RD p) != s.fld (NET_RX_WR.WR p)
  else s.flag (NET_TX_SIZE.EN p) && s.fld (NET_TX_RD.RD p) != s.fld (NET_TX_WR.WR p)

/-- The write-back words of an entry, and the step to the next one. -/
def netComplete (p : Nat) (rx : Bool) (status ts : Nat) (s : State) : State :=
  let s := s.writeMem (netEntryAt s p rx + 0x10) (leBytes 4 (2 ^ 31 + status) ++ leBytes 4 ts)
  if rx then s.wrapFld (NET_RX_RD.RD p) 1 else s.wrapFld (NET_TX_RD.RD p) 1

/-- `NET_TX_WR` or `NET_RX_WR`: a value beyond RD + 2^LOG2 is ignored with a warning (R425). -/
def execNetTxWrWrite (port : Fin 2) (rx : Bool) (value : Word) (s : State) : Host.Outcome State Fault Refusal :=
  let p := port.val
  let s := busOk 0 s
  let wr := if rx then NET_RX_WR.WR p else NET_TX_WR.WR p
  let rd := s.fld (if rx then NET_RX_RD.RD p else NET_TX_RD.RD p)
  if s.domainOn 26 = false ∨ s.mode = 7 then .next s
  else if netRingSize s p rx < (value.toNat + 2 ^ 32 - rd) % 2 ^ 32 then .next (postKind 4 14 p wr.addr s)
  else .next (s.setFld wr value.toNat)

/-! ### Checksums -/

/-- The sum of big-endian 16-bit words, an odd last byte padded with 0. -/
def wordSum : List Byte → Nat
  | [] => 0
  | [a] => a.toNat * 256
  | a :: b :: t => a.toNat * 256 + b.toNat + wordSum t

/-- A one's complement sum folded to 16 bits. -/
def fold16 (n : Nat) : Nat := if n = 0 then 0 else (n - 1) % 65535 + 1

/-- The Internet checksum of `bs`. -/
def inetSum (bs : List Byte) : Nat := 65535 - fold16 (wordSum bs)

/-- The last two bytes of a UDPv6 message, the two after the PTP message at `off`, changed so that the sum stays what it
was for `old` (R431). -/
def udp6Fix (off : Nat) (old new : List Byte) : List Byte :=
  let len := beAt new (off + 2) 2
  let a := off + len
  let zeroed := spliceAt new a [0, 0]
  let d := (fold16 (wordSum (old.drop off)) + 65535 - fold16 (wordSum (zeroed.drop off)) % 65535) % 65535
  spliceAt new a (if len % 2 = 0 then beBytes 2 d else leBytes 2 d)

/-! ### Who sends next (R427) -/

def netStream (s : State) (k : Nat) : NetStream := (s.net.streams[k]?).getD streamInit

def modStream (k : Nat) (f : NetStream → NetStream) (s : State) : State :=
  setNet { s.net with streams := modAt s.net.streams k f } s

/-- The fields of a stream entry. -/
def NetStream.ctrl (x : NetStream) (b : Nat) : Bool := (leAt x.cfg 0 1).testBit b
def NetStream.prio (x : NetStream) : Nat := bits (leAt x.cfg 0 1) 5 4
def NetStream.source (x : NetStream) : Bool × Nat :=
  (x.ctrl 6, if x.ctrl 6 then leAt x.cfg 0 1 % 4 else leAt x.cfg 0 1 % 2)
def NetStream.eth (x : NetStream) : Nat := leAt x.cfg 1 1 % 2
def NetStream.payload (x : NetStream) : Nat := clamp 256 8960 (leAt x.cfg 2 2) / 8 * 8
def NetStream.rate (x : NetStream) : Nat := min 25000 (leAt x.cfg 4 4)
def NetStream.hdrLen (x : NetStream) : Nat := clamp 42 80 (leAt x.cfg 8 1)
def NetStream.ipOff (x : NetStream) : Nat := leAt x.cfg 9 1

/-- The object that a stream is to send (R444). -/
structure NetObject where
  kind : Nat
  addr : Nat                      -- offset into the DRAM data region
  total : Nat
  frame : Nat
  rdAfter : Nat                   -- the ring's RD after a chunk, or the buffer of a picture
  deriving DecidableEq, Repr

/-- The picture of head 0 of port `p` that waits for its consumer. -/
def netPicture (s : State) (p : Nat) : Option HeadOut := s.pipe.out.find? (fun o => o.head == 0 && o.port == p)

/-- The next object of a stream; PAD chunks are passed over. -/
def netObject (s : State) (x : NetStream) : Option NetObject :=
  let n := x.source.2
  if x.source.1 then
    (netPicture s n).bind (fun o =>
      let d := parseHead o.desc
      if srcDone s o then
        some { kind := 1, addr := o.addr, total := if o.skipped then 256 else 256 + d.cOff + chromaLines d * d.pitchC,
               frame := o.num, rdAfter := o.buf }
      else none)
  else
    let wr := s.fld (HEVE_OUT_WR.WR n)
    let hdr (rd : Nat) := s.dramBytes (dramOff (heveBase s n) + 64 * (rd % heveRing s n)) 64
    let units (b : List Byte) := 1 + ceilDiv (leAt b 8 4) 64
    let rd := s.fld (HEVE_OUT_RD.RD n)
    let rd := if rd ≠ wr ∧ leAt (hdr rd) 4 1 = 2 then (rd + units (hdr rd)) % 2 ^ 32 else rd
    if rd = wr then none
    else
      let b := hdr rd
      some { kind := 0, addr := dramOff (heveBase s n) + 64 * (rd % heveRing s n), total := 64 + leAt b 8 4,
             frame := leAt b 16 8, rdAfter := (rd + units b) % 2 ^ 32 }

/-- The depth of the token bucket, 64 KiB in units of 1/2,000 bit. -/
def bucketDepth : Nat := 65536 * 8 * 2000

/-- Tokens of a stream now: RATE Mb/s gives 5 × RATE units a tick (R444). -/
def netTokens (s : State) (x : NetStream) : Nat := min bucketDepth (x.tokens + (s.ticks - x.at_) * (5 * x.rate))

/-- Bytes of the next datagram of an object. -/
def netDatagramLen (x : NetStream) (o : NetObject) : Nat := x.hdrLen + 32 + min x.payload (o.total - x.off)

/-- The stream can send now: enabled, link up, an object there, tokens enough. -/
def netReady (s : State) (x : NetStream) : Bool :=
  x.ok && netOn s x.eth && netUp s x.eth && s.mode != 7 &&
  match netObject s x with
  | some o => x.rate == 0 || decide (netDatagramLen x o * 8 * 2000 ≤ netTokens s x)
  | none => false

/-- The host ring has a frame to send on port `p`. -/
def netHostReady (s : State) (p : Nat) : Bool := netEntryWaits s p false && netOn s p && netUp s p

/-- Streams of port `p` that are ready, with their priority. -/
def netReadyStreams (s : State) (p : Nat) : List (Nat × Nat) :=
  ((List.range 4).filter (fun k => (netStream s k).eth == p && netReady s (netStream s k))).map (fun k => (k, (netStream s k).prio))

/-- The host ring goes first: no ready stream has a higher priority (R427). -/
def netHostTurn (s : State) (p : Nat) : Bool :=
  (netReadyStreams s p).all (fun e => decide (e.2 ≤ s.fld (NET_CFG.HOST_PRIO p)))

/-- Stream `k` goes first: before the host ring by a higher priority, before the others by priority or number (R427). -/
def netStreamTurn (s : State) (k : Nat) : Bool :=
  let x := netStream s k
  (netHostReady s x.eth == false || decide (s.fld (NET_CFG.HOST_PRIO x.eth) < x.prio)) &&
  (netReadyStreams s x.eth).all (fun e => decide (e.2 < x.prio) || (e.2 == x.prio && decide (k ≤ e.1)))

/-! ### Transmission (R426, R431) -/

/-- The frame with its one-step time inserted, or none for a message that takes none (R431). `t` is the egress time in ns,
`ts` the TS word of the entry. -/
def oneStep (frame : List Byte) (off t ts : Nat) : Option (List Byte) :=
  let ty := beAt frame off 1 % 16
  if ty = 0 then some (spliceAt frame (off + 34) (beBytes 6 (t / 1000000000) ++ beBytes 4 (t % 1000000000)))
  else if ty = 3 then
    let turn := (t % 2 ^ 32 + 2 ^ 32 - ts) % 2 ^ 32
    some (spliceAt frame (off + 8) (beBytes 8 (beAt frame (off + 8) 8 + turn * 65536)))
  else none

/-- A port reads `n` bytes at address `a`, in scratch SRAM or DRAM: poison of a DRAM block is warned of (R377). -/
def netPoison (p a n : Nat) (s : State) : State := if 0x800000000 ≤ a then poisonWarn 14 p (dramOff a) n s else s

/-- The transmit entry at RD is processed: sent with its time, or completed with its error (R424, R426, R429, R431). -/
def execNetTxFrame (port : Fin 2) (s : State) : Host.Outcome State Fault Refusal :=
  let p := port.val
  if s.domainOn 26 = false ∨ s.mode = 7 ∨ netEntryWaits s p false = false then .next s
  else if netUp s p = false then .next (netComplete p false 2 0 s)
  else if netHostTurn s p = false then .next s
  else
    let e := s.memBytes (netEntryAt s p false) 32
    let s := netPoison p (netEntryAt s p false) 32 s
    let len := leAt e 8 2
    let flags := leAt e 10 2
    let off := leAt e 12 2
    let addr := leAt e 0 8
    if len < 14 ∨ clamp 1514 9216 (s.fld (NET_CFG.MAXLEN p)) < len then
      .next ((netComplete p false 4 0 s).orBit (NET_EVENT.EVENT p) 2)
    else
      let s := netPoison p addr len s
      let raw := s.memBytes addr len
      let t := netStamp s p true
      let sent := if flags.testBit 1 then oneStep raw off t (leAt e 0x14 4) else some raw
      match sent with
      | none => .next ((netComplete p false 8 0 s).orBit (NET_EVENT.EVENT p) 2)
      | some fr =>
        let fr := if flags.testBit 1 && flags.testBit 2 then udp6Fix off raw fr else fr
        let stamped := flags.testBit 0 || flags.testBit 1
        .next (netDrive p fr (netComplete p false (boolNat stamped) (if stamped then t % 2 ^ 32 else 0) s))

/-! ### Reception (R422, R423, R426) -/

def ptpAddresses : List (List Byte) :=
  [[0x01, 0x1B, 0x19, 0, 0, 0], [0x01, 0x80, 0xC2, 0, 0, 0x0E], [0x01, 0, 0x5E, 0, 0x01, 0x81], [0x01, 0, 0x5E, 0, 0, 0x6B],
   [0x33, 0x33, 0, 0, 0x01, 0x81], [0x33, 0x33, 0, 0, 0, 0x6B]]

/-- The address filter (R423). -/
def netAccepts (s : State) (p : Nat) (bs : List Byte) : Bool :=
  let dst := bs.take 6
  let promisc := s.flag (NET_CFG.PROMISC p)
  promisc || dst == netMac s p || dst == List.replicate 6 0xFF || ptpAddresses.contains dst ||
  (s.flag (NET_CFG.ALLMULTI p) && ((dst.getD 0 0).toNat).testBit 0)

def etherType (bs : List Byte) : Nat := beAt bs 12 2

/-- A PTP message: EtherType 0x88F7, or UDP to port 319 or 320 (R426). -/
def isPtp (bs : List Byte) : Bool :=
  let udp4 := 14 + 4 * (beAt bs 14 1 % 16)
  let dport := if etherType bs = 0x0800 then beAt bs (udp4 + 2) 2 else beAt bs 56 2
  etherType bs == 0x88F7 ||
  (((etherType bs == 0x0800 && beAt bs 23 1 == 17) || (etherType bs == 0x86DD && beAt bs 20 1 == 17)) &&
    (dport == 319 || dport == 320))

/-- What the MAC does with a frame before it is queued (R422, R423): the state with its counts, or none when it goes on. -/
def netDiscard (p : Nat) (bs : List Byte) (fcsOk : Bool) (s : State) : Option State :=
  if fcsOk = false then some (netCount p 2 s)
  else if clamp 1514 9216 (s.fld (NET_CFG.MAXLEN p)) < bs.length then some (netCount p 3 s)
  else if etherType bs = 0x8808 then some (netCount p 8 s)
  else if netAccepts s p bs = false then some (netCount p 4 s)
  else none

/-- The port's receiver has a frame; `bytes` are without the FCS (R422, R423, R426, R452). -/
def netReceive (p : Nat) (bytes : List Byte) (fcsOk : Bool) (s : State) : State :=
  match netDiscard p bytes fcsOk s with
  | some s => s
  | none =>
    let s := netCount p 0 s
    let hb := if etherType bytes = 0x88B5 then parseHeartbeat (bytes.drop 14) else none
    match hb with
    | some h => heartbeat true h s
    | none =>
      if netEntryWaits s p true = false then (netCount p 5 s).orBit (NET_EVENT.EVENT p) 3
      else
        let e := s.memBytes (netEntryAt s p true) 32
        let size := leAt e 8 2
        let t := netStamp s p false
        let s := netPoison p (netEntryAt s p true) 32 s
        let s := s.writeMem (leAt e 0 8) (bytes.take size)
        let status := 2 ^ 18 * boolNat (decide (size < bytes.length)) + 2 ^ 17 * boolNat (isPtp bytes) + 2 ^ 16 + bytes.length % 2 ^ 16
        netComplete p true status (t % 2 ^ 32) s

/-- A frame reaches the port. In a near-end loopback the receiver hears the port's own oldest frame in its place; in the far-end one the frame
goes back as well (R408). -/
def execNetRxFrame (port : Fin 2) (bytes : List Byte) (fcsOk : Bool) (s : State) : Host.Outcome State Fault Refusal :=
  let p := port.val
  if netOn s p = false ∨ netUp s p = false ∨ s.mode = 7 then .next s
  else if netNearLoop s p then
    match (netPort s p).looped with
    | [] => .next s
    | own :: rest => .next (netReceive p own true (modNet p (fun n => { n with looped := rest }) s))
  else
    let s := if s.fld (LANE_STATUS.LOOP (ethLane p)) = 3 then
        modNet p (fun n => { n with wire := bytes ++ if fcsOk then leBytes 4 (crc32 bytes).toNat else [] }) s
      else s
    .next (netReceive p bytes fcsOk s)

/-! ### Streams (R444, R445) -/

/-- The datagram that carries `piece`, its lengths and checksums filled in (R444). -/
def datagram (x : NetStream) (o : NetObject) (piece : List Byte) : List Byte :=
  let last := x.off + piece.length == o.total
  let hdr := [0x45, 0x53, 0x54, 0x4D] ++ leBytes 2 (leAt x.cfg 10 2) ++ leBytes 1 o.kind ++
    leBytes 1 (boolNat (x.off == 0) + 2 * boolNat last) ++ leBytes 4 x.seq ++ leBytes 4 x.obj ++ leBytes 8 o.frame ++
    leBytes 4 x.off ++ leBytes 4 o.total
  let body := hdr ++ piece
  let t := (x.cfg.drop 0x10).take x.hdrLen
  let ip := x.ipOff
  let udp := x.hdrLen - 8
  let udpLen := 8 + body.length
  let t := spliceAt (spliceAt t (udp + 4) (beBytes 2 udpLen)) (udp + 6) [0, 0]
  if x.ctrl 3 then
    let t := spliceAt t (ip + 4) (beBytes 2 (x.hdrLen - ip - 40 + body.length))
    let pseudo := (t.drop (ip + 8)).take 32 ++ beBytes 4 udpLen ++ beBytes 4 17
    let c := inetSum (pseudo ++ t.drop udp ++ body)
    spliceAt t (udp + 6) (beBytes 2 (if c = 0 then 65535 else c)) ++ body
  else
    let t := spliceAt t (ip + 2) (beBytes 2 (x.hdrLen - ip + body.length))
    let t := spliceAt t (ip + 10) [0, 0]
    let ihl := 4 * (beAt t ip 1 % 16)
    spliceAt t (ip + 10) (beBytes 2 (inetSum ((t.drop ip).take ihl))) ++ body

/-- The object is over: its source gets its space back (R445). -/
def netRelease (k : Nat) (o : NetObject) (s : State) : State :=
  let x := netStream s k
  let n := x.source.2
  let s := modStream k (fun x => { x with obj := (x.obj + 1) % 2 ^ 32, off := 0 }) s
  if x.source.1 then
    releaseBuf n o.rdAfter (setPipe { s.pipe with out := s.pipe.out.filter (fun q => !(q.head == 0 && q.port == n &&
        q.buf == o.rdAfter)) } s)
  else
    let s := s.setFld (HEVE_OUT_RD.RD n) o.rdAfter
    heveShow n (heveDrain (heveEng s n).held.length n s)

def execStreamDatagram (stream : Fin 4) (s : State) : Host.Outcome State Fault Refusal :=
  let k := stream.val
  let x := netStream s k
  if x.ok = false ∨ s.domainOn 26 = false ∨ s.mode = 7 then .next s
  else
    match netObject s x with
    | none => .next s
    | some o =>
      if netUp s x.eth = false then
        .next ((netCount x.eth 7 (netRelease k o s)).orBit (NET_EVENT.EVENT x.eth) 4)
      else if netReady s x = false ∨ netStreamTurn s k = false then .next s
      else
        let n := min x.payload (o.total - x.off)
        let s := poisonWarn 14 x.eth (o.addr + x.off) n s
        let d := datagram x o (s.bufBytes (o.addr + x.off) n)
        let used := if x.rate = 0 then 0 else netDatagramLen x o * 8 * 2000
        let s := modStream k (fun y => { y with
          seq := (y.seq + 1) % 2 ^ 32, off := x.off + n, tokens := netTokens s x - used, at_ := s.ticks }) s
        let s := netCount x.eth 6 (netDrive x.eth d s)
        .next (if x.off + n = o.total then netRelease k o s else s)

/-- The valid stream that drains the ring of encoder engine `e`, so that firmware's writes of its RD are ignored (R445). -/
def netRingTaken (s : State) (e : Nat) : Bool :=
  (s.domainOn 26 && s.mode != 7) && s.net.streams.any (fun x => x.ok && x.source == (false, e))

/-- `HEVE_OUT_RD` (R358): outside WR − size/64 to WR it is ignored with a warning; room lets waiting chunks go (R359); while a
stream drains the ring, a firmware write is ignored with a warning (R445). -/
def execHeveOutRdWrite (engine : Fin 2) (value : Word) (s : State) : Host.Outcome State Fault Refusal :=
  let e := engine.val
  let s := busOk 0 s
  if s.domainOn (17 + e) = false then .next s
  else if netRingTaken s e then .next (postKind 4 8 e (HEVE_OUT_RD.RD e).addr s)
  else if heveRing s e < (s.fld (HEVE_OUT_WR.WR e) + 2 ^ 32 - value.toNat) % 2 ^ 32 then
    .next (postKind 4 8 e (HEVE_OUT_RD.RD e).addr s)
  else
    let s := s.setFld (HEVE_OUT_RD.RD e) value.toNat
    .next (heveShow e (heveDrain (heveEng s e).held.length e s))

/-- The streams at a cue point: entries are read; one that names a consumed head or a source already named is disabled with
BAD_CFG (R445). -/
def netStreamsCuePoint (s : State) : State :=
  (List.range 4).foldl (fun s k =>
    let old := netStream s k
    let cfg := readList 0 (s.table 0x30 0) (128 * k) 128
    let x : NetStream := if old.cfg = cfg then old else { streamInit with cfg := cfg, tokens := bucketDepth, at_ := s.ticks }
    let named := (List.range k).any (fun j => (netStream s j).ctrl 7 && (netStream s j).source == x.source)
    let bad := x.ctrl 7 && ((x.source.1 && (heveConsumer s x.source.2).isSome) || named)
    let s := modStream k (fun _ => { x with ok := x.ctrl 7 && !bad }) s
    if bad ∧ (old.ok ∨ old.cfg ≠ cfg) then netEvent x.eth 5 .warning s else s) s

/-- The ports and streams at a cue point (R424, R445). -/
def netCuePoint (s : State) : State :=
  let s := netStreamsCuePoint s
  if s.mode = 7 then s else netFollow 1 (netFollow 0 s)

/-! ### Keep-alive (R447) -/

/-- The word at window offset `o` from 0x1000. -/
def kaWord (s : State) (o : Nat) : Nat := leNat (readList 0 s.clock.ka o 4)

def setKa (o : Nat) (bs : List Byte) (s : State) : State := setClock { s.clock with ka := writeList 0 s.clock.ka o bs } s

/-- The first receive slot that is not FULL. -/
def kaFree (s : State) : Option Nat := (List.range 8).find? (fun i => (kaWord s (256 * i)).testBit 31 = false)

/-- A frame for the keep-alive engine: PTP, ARP or IPv6 neighbour discovery. -/
def kaWants (bs : List Byte) : Bool :=
  isPtp bs || etherType bs == 0x0806 ||
  (etherType bs == 0x86DD && beAt bs 20 1 == 58 && decide (133 ≤ beAt bs 54 1) && decide (beAt bs 54 1 ≤ 137))

def execKeepaliveRx (bytes : List Byte) (fcsOk : Bool) (s : State) : Host.Outcome State Fault Refusal :=
  if s.mode ≠ 7 ∨ s.flag TIME_KA_CTRL.EN = false ∨ netUp s 0 = false then .next s
  else
    match netDiscard 0 bytes fcsOk s with
    | some s => .next s
    | none =>
      let s := netCount 0 0 s
      if kaWants bytes = false then .next s
      else
        match kaFree s with
        | none => .next (s.addFld TIME_KA_STATUS.DROPS 1)
        | some i =>
          let w := 2 ^ 31 + 2 ^ 30 * boolNat (decide (248 < bytes.length)) + bytes.length % 2 ^ 16
          .next (setKa (256 * i) (leBytes 4 w ++ leBytes 4 (netStamp s 0 false % 2 ^ 32) ++ bytes.take 248) s)

/-- A transmit slot that holds GO is sent; a LEN out of range sends nothing. -/
def execKeepaliveTx (slot : Fin 4) (s : State) : Host.Outcome State Fault Refusal :=
  let o := 0x800 + 256 * slot.val
  let w := kaWord s o
  if s.mode ≠ 7 ∨ s.flag TIME_KA_CTRL.EN = false ∨ netUp s 0 = false ∨ w.testBit 31 = false then .next s
  else
    let len := w % 2 ^ 16
    let done := 2 ^ 30 + len
    if len < 14 ∨ 248 < len then .next (setKa o (leBytes 4 done) s)
    else
      let t := netStamp s 0 true % 2 ^ 32
      .next (netDrive 0 (readList 0 s.clock.ka (o + 8) len) (setKa o (leBytes 4 done ++ leBytes 4 t) s))

/-- RX_FULL and TX_BUSY as `TIME_KA_STATUS` shows them. -/
def kaFull (s : State) : Nat := ((List.range 8).map (fun i => boolNat ((kaWord s (256 * i)).testBit 31) * 2 ^ i)).sum
def kaBusy (s : State) : Nat := ((List.range 4).map (fun j => boolNat ((kaWord s (0x800 + 256 * j)).testBit 31) * 2 ^ j)).sum

/-- The selected count (`NET_CNT_VAL`). -/
def netCountOf (s : State) (p : Nat) : Nat :=
  let k := s.fld (NET_CNT_SEL.KIND p)
  if 8 < k then 0 else (keyGet (netPort s p).counts k).getD 0

end Sys2Proof.Machine
end

