-- ==== Sys2Proof/Machine/MagCore.lean ====
section
/-! DEFINITION. The magazine engine beneath its commands: the Jorash volume (R306, R326 to R328), the wear figures (R314,
R315), records on their way to a magazine (R318 to R321), and failover (R322). -/

namespace Sys2Proof.Machine

/-! ### Pins (R581) -/

/-- What a clock output does. -/
inductive ClkPin where
  | running
  | low
  deriving DecidableEq, Repr

/-- MAG_A_CLK and MAG_B_CLK: the 100 MHz reference runs while the port's domain is on, and is held low otherwise (R581). -/
def magClk (s : State) (k : Nat) : ClkPin := if s.domainOn (23 + k) then .running else .low

def setMag (m : MagState) (s : State) : State := { s with mag := m }

def modMag (k : Nat) (f : MagPort → MagPort) (s : State) : State := setMag { s.mag with ports := modAt s.mag.ports k f } s

def magPort (s : State) (k : Nat) : MagPort := (s.mag.ports[k]?).getD magPortInit

/-- STATE of port `k`: 0 OFF, 1 ABSENT, 2 TRAINING, 3 MOUNTING, 4 READY, 5 RECORDING, 6 READ_ONLY, 7 FULL, 8 FAILED,
9 ERASING. -/
def magState (s : State) (k : Nat) : Nat := s.fld (MAG_STATUS.STATE k)

def setMagState (k n : Nat) (s : State) : State := s.setFld (MAG_STATUS.STATE k) n

/-- An event of MAG by its bit; INST is the port. -/
def magEvent (n : Nat) (cls : EventClass) (k : Nat) (s : State) : State := postFlag (MAG_EVENT.EVENT k) n cls 11 k 0 s

/-- A flag of `MAG_EVENT` that no event goes with. -/
def magMark (n k : Nat) (s : State) : State := s.orBit (MAG_EVENT.EVENT k) n

/-! ### The drive -/

def MagPort.ctrls (p : MagPort) : List NvmeController := (p.drive.map (·.ctrls)).getD []

/-- Volume bytes of the drive; a byte not listed is 0. -/
def MagPort.read (p : MagPort) (a n : Nat) : List Byte := readList 0 ((p.drive.map (·.media)).getD []) a n

def MagPort.write (p : MagPort) (a : Nat) (bs : List Byte) : MagPort :=
  { p with drive := p.drive.map (fun d => { d with media := writeList 0 d.media a bs }) }

/-- Blocks of the volume (R306). -/
def MagPort.blocks (p : MagPort) : Nat :=
  match p.ctrls with
  | [] => 0
  | [c] => c.blocks
  | c :: d :: _ => 2 * (min c.blocks d.blocks / 256 * 256)

/-- The controller that holds volume block `v`, and the block of its namespace (R306). -/
def MagPort.place (p : MagPort) (v : Nat) : Nat × Nat :=
  if 2 ≤ p.ctrls.length then (v / 256 % 2, v / 512 * 256 + v % 256) else (0, v)

/-! ### Identity and wear -/

/-- The identity record as the volume holds it (R312). -/
def MagPort.idRecord (p : MagPort) : List Byte := p.read 0 (0xB20 + 4627)

/-- Digests of trusted magazine makers (R313). -/
def magMakers (s : State) : List (List Byte) :=
  let t := (keyGet s.sys.board [0x4D, 0x4B, 0x45, 0x59]).getD []
  (List.range (min 8 (leAt t 0 4))).map (fun i => (t.drop (4 + 64 * i)).take 64)

/-- The identity state: 0 ABSENT, 1 TRUSTED, 2 UNTRUSTED, 3 BAD (R313). -/
def magIdentity (s : State) (p : MagPort) : Nat :=
  let r := p.idRecord
  let g (o n : Nat) := (r.drop o).take n
  let c (i : Nat) := p.ctrls[i]?
  if r.take 4 ≠ [0x4A, 0x4D, 0x49, 0x44] then 0
  else
    let sig := mldsaVerify (g 0x100 2592) (sha3_512 (ascii "JORASH/MAGID/1" ++ r.take 0xB20)) (g 0xB20 4627)
    let same := (c 0).any (fun x => padTo 20 x.sn == g 8 20 && padTo 40 x.mn == g 0x1C 40 && padTo 16 x.nguid == g 0x44 16) &&
      leAt r 0x54 1 == p.ctrls.length &&
      ((c 1).map (fun x => padTo 20 x.sn == g 0x60 20 && padTo 16 x.nguid == g 0x74 16)).getD true
    if sig = false ∨ same = false then 3
    else if (magMakers s).contains (sha3_512 (g 0x100 2592)) then 1 else 2

/-- Predicted remaining endurance of one controller, in bytes (R314). -/
def ctrlRemaining (s : State) (trusted : Bool) (rated : Nat) (c : NvmeController) : Nat :=
  let written : Int := c.duw * 512000
  let a : List Int := if trusted ∧ 0 < rated then [(rated : Int) - written] else []
  let b : List Int := if c.eg ∧ 0 < c.ee then [(c.ee : Int) * 1000000000 - written] else []
  let d : List Int := if 1 ≤ c.pu ∧ c.pu ≤ 99 then [((c.duw * 512000 * (100 - c.pu) / c.pu : Nat) : Int)] else []
  let rem := ((a ++ b ++ d).min?).getD ((s.fld MAG_WEAR_DEFAULT.TB * 1000000000000 : Nat) : Int)
  if 100 ≤ c.pu then 0 else rem.toNat

/-- Remaining endurance of the magazine of a port (R314). -/
def magRemaining (s : State) (k : Nat) : Nat :=
  let p := magPort s k
  let n := p.ctrls.length
  let rated := leAt p.idRecord 0x58 4 * 1000000000000 / max 1 n
  let rs := p.ctrls.map (ctrlRemaining s (s.fld (MAG_STATUS.ID k) == 1) rated)
  n * (rs.min?.getD 0)

/-- The higher Percentage Used of the controllers. -/
def MagPort.pu (p : MagPort) : Nat := (p.ctrls.map (·.pu)).foldl max 0

def MagPort.crit (p : MagPort) : Nat := (p.ctrls.map (fun c => c.crit.toNat)).foldl (fun a b => a ||| b) 0

def MagPort.duw (p : MagPort) : Nat := (p.ctrls.map (·.duw)).sum

/-! ### The volume -/

/-- A controller keeps R305. -/
def ctrlOk (c : NvmeController) : Bool := c.formatOk && decide (131072 ≤ c.mdts)

/-- The magazine has as many controllers as its links, and each keeps R305. -/
def MagPort.ctrlsOk (p : MagPort) : Bool := p.ctrls.all ctrlOk && p.ctrls.length == (if p.bifur then 2 else 1)

/-- `MAG_STATUS` shows no link and no controller (R304, R311). -/
def magGone (k : Nat) (s : State) : State :=
  let s := ((s.setFld (MAG_STATUS.GEN k) 0).setFld (MAG_STATUS.WIDTH k) 0).setFlag (MAG_STATUS.BIFUR k) false
  ((s.setFld (MAG_STATUS.CTRLS k) 0).setFld (MAG_STATUS.ID k) 0).setFlag (MAG_STATUS.VWC k) false

/-- The bytes of a superblock (R326). -/
def Superblock.bytes (x : Superblock) : List Byte :=
  let b := padTo 0xFFC ([0x4A, 0x4F, 0x52, 0x41, 0x53, 0x48, 0x56, 0x4C] ++ leBytes 2 1 ++ leBytes 1 12 ++ leBytes 1 26 ++
    leBytes 4 x.gen ++ padTo 16 x.volumeId ++ padTo 16 x.creator ++ leBytes 8 x.sec ++ leBytes 4 x.ns ++ leBytes 4 0 ++
    leBytes 8 x.total ++ leBytes 4 x.auCount ++ leBytes 4 x.nextAu ++ leBytes 4 x.takes ++ leBytes 4 x.badAus ++
    padTo 20 x.sn ++ padTo 40 x.mn ++ padTo 16 x.nguid)
  b ++ leBytes 4 (crc32 b).toNat

/-- A superblock copy as read, when it is valid (R326). -/
def readSuper (copy : Nat) (b : List Byte) : Option Superblock :=
  let g (o n : Nat) := leAt b o n
  if b.take 8 = [0x4A, 0x4F, 0x52, 0x41, 0x53, 0x48, 0x56, 0x4C] ∧ g 8 2 = 1 ∧ (crc32 (b.take 0xFFC)).toNat = g 0xFFC 4 then
    some { gen := g 0x0C 4, volumeId := (b.drop 0x10).take 16, creator := (b.drop 0x20).take 16, sec := g 0x30 8,
           ns := g 0x38 4, total := g 0x40 8, auCount := g 0x48 4, nextAu := g 0x4C 4, takes := g 0x50 4,
           badAus := g 0x54 4, sn := (b.drop 0x58).take 20, mn := (b.drop 0x6C).take 40, nguid := (b.drop 0x94).take 16,
           copy := copy }
  else none

/-- The valid superblock: correct and of the higher GEN (R326). -/
def validSuper (p : MagPort) : Option Superblock :=
  match readSuper 0 (p.read 65536 4096), readSuper 1 (p.read 69632 4096) with
  | some a, some b => if a.gen < b.gen then some b else some a
  | some a, none => some a
  | none, b => b

/-! ### NVMe commands (R307 to R309) -/

/-- A Write that carries a record of a take. -/
def NvmeCmd.carriesRecord (c : NvmeCmd) : Bool := c.use == .write || c.use == .record

/-- The queue pair of a command on its controller, none for the admin pair (R308). Which of the frame pairs carries a Write goes by its
stripe (DESIGN CHOICE, assumption 126). -/
def MagPort.pair (p : MagPort) (c : NvmeCmd) : Option Nat :=
  let two := decide (2 ≤ p.ctrls.length)
  match c.use with
  | .write => some (if two then c.lba / 512 % 6 else c.lba / 256 % 14)
  | .record | .metadata | .volume | .flush | .deallocate => some (if two then 6 else 14)
  | .read => some (if two then 7 else 15)
  | .smart | .endurance | .identify | .setFeatures | .createQueue | .deleteQueue => none

/-- Commands that a queue pair holds: an NVMe queue is full with one entry free (R308). -/
def pairDepth (pair : Option Nat) : Nat := if pair.isNone then 31 else 255

/-- One command of a controller that names no blocks. -/
def nvmeCmd (use : NvmeUse) (c : Nat) : NvmeCmd :=
  { use := use, ctrl := c, lba := 0, blocks := 0, fua := false, again := false, staged := false, data := (0, []) }

/-- One such command for every controller of the magazine. -/
def MagPort.each (p : MagPort) (use : NvmeUse) : List NvmeCmd := (List.range p.ctrls.length).map (nvmeCmd use)

/-- The magazine reports a volatile write cache, so that every Write carries FUA (R307). -/
def MagPort.vwc (p : MagPort) : Bool := p.ctrls.any (·.vwc)

/-- The Write of volume metadata: `bs` at volume byte `a`. -/
def metaWrite (p : MagPort) (a : Nat) (bs : List Byte) : NvmeCmd :=
  { nvmeCmd .metadata (p.place (a / 4096)).1 with lba := a / 4096, blocks := 1, fua := p.vwc, data := (a, bs) }

/-- The commands of the stage that now comes first go to their queues. -/
def issueStage (p : MagPort) : MagPort :=
  match p.plan with
  | st :: _ => { p with cmds := p.cmds ++ st.cmds.map (fun c => { c with staged := true }) }
  | [] => p

/-- A stage follows those that the port has still to do. -/
def addStage (cmds : List NvmeCmd) (effect : MagEffect) (p : MagPort) : MagPort :=
  let q := { p with plan := p.plan ++ [{ cmds := cmds, effect := effect }] }
  if p.plan.isEmpty then issueStage q else q

/-- The superblock takes the next GEN and the other copy, and its Write follows (R326). -/
def writeSuper (effect : MagEffect) (p : MagPort) : MagPort :=
  match p.sb with
  | none => p
  | some x =>
    let x := { x with gen := x.gen + 1, copy := 1 - x.copy }
    let p := { p with sb := some x }
    addStage [metaWrite p (65536 + 4096 * x.copy) x.bytes] effect p

/-- A new empty volume; blocks 16 and up are cleared first (R310, R326, R329). The VOLUME_ID comes from the DRBG. -/
def newVolume (k : Nat) (s : State) : State :=
  let (vid, s) := s.takeBytes 16
  let p := magPort s k
  let c := p.ctrls[0]?
  let x : Superblock :=
    { gen := 0, volumeId := vid, creator := deviceId s, sec := s.time.sec.toNat, ns := s.time.ns, total := p.blocks,
      auCount := p.blocks / 16384 - 1, nextAu := 0, takes := 0, badAus := 0, sn := (c.map (·.sn)).getD [],
      mn := (c.map (·.mn)).getD [], nguid := (c.map (·.nguid)).getD [], copy := 1 }
  modMag k (fun p => writeSuper .none { p with
    sb := some x, drive := p.drive.map (fun d => { d with media := d.media.filter (fun e => decide (e.1 < 65536)) }) }) s

/-- Directory slots used (R327). -/
def dirUsed (p : MagPort) : Nat :=
  (((p.drive.map (·.media)).getD []).filter (fun e => decide (131072 ≤ e.1) && decide (e.1 < 1179648))).foldl
    (fun n e => max n ((e.1 - 131072) / 256 + 1)) 0

def noBlock : Nat := 2 ^ 64 - 1

/-- Extend the last extent by `n` blocks. -/
def growExtent (n : Nat) (es : List (Nat × Nat)) : List (Nat × Nat) :=
  modAt es (es.length - 1) (fun e => (e.1, e.2 + n))

def shrinkExtent (n : Nat) (es : List (Nat × Nat)) : List (Nat × Nat) :=
  modAt es (es.length - 1) (fun e => (e.1, e.2 - n))

/-- A take directory entry (R327). `state` is 1 OPEN or 2 CLOSED. A take without a record names the AU that it will write first as an
extent of no blocks (DESIGN CHOICE, assumption 127). -/
def Take.entry (s : State) (k state : Nat) (t : Take) : List Byte :=
  let p := magPort s k
  let close := state = 2
  let extents := if t.extents.isEmpty then [(16384 * ((p.sb.map (·.nextAu)).getD 0 + 1), 0)] else t.extents
  let b := [0x4A, 0x54, 0x41, 0x4B] ++ leBytes 1 state ++ leBytes 1 t.flags ++ leBytes 2 t.slot ++ padTo 16 t.id ++
    padTo 16 (deviceId s) ++ leBytes 4 s.hash.bootSeq ++ leBytes 1 k ++ [0, 0, 0] ++ leBytes 8 t.sec ++ leBytes 4 t.ns ++
    leBytes 4 (if close then s.time.ns else 0) ++ leBytes 8 (if close then s.time.sec.toNat else 0) ++
    leBytes 8 (t.first.getD 0) ++ leBytes 8 t.last ++ leBytes 8 t.frames ++ leBytes 8 t.blocks ++ leBytes 4 t.seq ++
    leBytes 1 extents.length ++ leBytes 1 t.puOpen ++ leBytes 1 (if close then p.pu else 0) ++ [0] ++
    leBytes 8 t.duwOpen ++ leBytes 8 (if close then p.duw else 0) ++
    padTo 96 ((extents.map (fun e => leBytes 6 e.1 ++ leBytes 6 e.2)).flatten) ++ leBytes 8 t.manifest ++
    leBytes 8 t.indexAt ++ List.replicate 12 0
  b ++ leBytes 4 (crc32 b).toNat

/-- The take without the record that is placed and not yet written: its entry ends where R325 is to read on. -/
def Take.recorded (p : MagPort) (t : Take) : Take :=
  match p.queue with
  | r :: _ =>
    if r.placed ∧ r.done = false then
      { t with blocks := t.blocks - r.blocks, extents := shrinkExtent r.blocks t.extents }
    else t
  | [] => t

/-- The directory entry of the open take of port `k` is written, as it stands now. -/
def writeEntry (k state : Nat) (effect : MagEffect) (s : State) : State :=
  match (magPort s k).take with
  | none => s
  | some t => modMag k (fun p => addStage [metaWrite p (131072 + 256 * t.slot) ((t.recorded p).entry s k state)] effect p) s

/-- The volume block of stream block `b` of the extents. -/
def streamBlock : List (Nat × Nat) → Nat → Nat
  | [], b => b
  | [e], b => e.1 + b
  | e :: t, b => if b < e.2 then e.1 + b else streamBlock t (b - e.2)

/-- The bytes of a record with its header, padded to whole blocks (R328). -/
def recordBytesOf (type len seq key : Nat) (payload : List Byte) : List Byte :=
  let h := [0x4A, 0x52, 0x45, 0x43] ++ leBytes 1 type ++ [0, 0, 0] ++ leBytes 4 len ++ leBytes 4 seq ++ leBytes 8 key ++
    leBytes 4 (crc32 payload).toNat
  padMul 4096 (h ++ leBytes 4 (crc32 h).toNat ++ payload)

/-! ### Registers that follow -/

/-- `MAG_WEAR`, `MAG_REMAIN`, `MAG_FREE` and the take fields as they stand (R314, R317). -/
def magShow (k : Nat) (s : State) : State :=
  let p := magPort s k
  let s := (s.setFld (MAG_WEAR.PU k) (min 255 p.pu)).setFld (MAG_WEAR.CRIT k) p.crit
  let s := s.setFld (MAG_REMAIN.GB k) (min (2 ^ 32 - 1) (magRemaining s k / 1000000000))
  let s := s.setFld (MAG_FREE.AUS k) ((p.sb.map (fun x => x.auCount - x.nextAu)).getD 0)
  let s := (s.setFlag (MAG_STATUS.TAKE_OPEN k) p.take.isSome).setFlag (MAG_TAKE.OPEN k) p.take.isSome
  match p.take with
  | some t => (s.setFld (MAG_TAKE.SLOT k) t.slot).setFld64 (MAG_WRITTEN_LO.BYTES k) (MAG_WRITTEN_HI.BYTES k) t.bytes
  | none => s

/-- A take is open on the port and takes records. -/
def magTakes (s : State) (k : Nat) : Bool := (magPort s k).take.any (fun t => !t.closing)

/-- The port receives frames: RECORDING, its take not being closed. -/
def magRecording (s : State) (k : Nat) : Bool := magState s k == 5 && magTakes s k

/-! ### Frames and their buffers -/

/-- Some port still holds a record of frame `num`. -/
def frameStaged (s : State) (num : Nat) : Bool := s.mag.ports.any (fun p => p.queue.any (fun r => r.frame == some num))

/-- Every write of the bytes in buffer `i` of frame `num` has completed or failed (R318): no port holds a record of it that is
not placed, nor a Write of blocks that the buffer's 64 KiB reach, behind the 32 bytes of the record's header. -/
def bufferDone (s : State) (num i : Nat) : Bool :=
  s.mag.ports.all (fun p => p.queue.all (fun r =>
    r.frame != some num || r.done || (r.placed && p.cmds.all (fun c => !(c.carriesRecord &&
      decide (4096 * (c.lba - r.lba) < 32 + 65536 * (i + 1)) && decide (32 + 65536 * i < 4096 * (c.lba - r.lba + c.blocks)))))))

/-- The buffers of a frame that are done return (R318). -/
def returnDone (s : State) (f : StagedFrame) : StagedFrame :=
  { f with returned := max f.returned ((List.range f.issued).countP (bufferDone s f.num)) }

/-- The path issues buffers to the frames in the order received, while it has some (R318). -/
def issueBuffers : Nat → List StagedFrame → List StagedFrame
  | _, [] => []
  | room, f :: fs =>
    let n := min room (f.total - f.issued)
    { f with issued := f.issued + n } :: issueBuffers (room - n) fs

/-- Buffers whose writes are done return, and the path's 256 buffers serve the frames that still need some (R318). -/
def stageBuffers (s : State) : State :=
  let l := s.mag.staged.map (returnDone s)
  let out := (l.map (fun f => f.issued - f.returned)).sum
  let m := issueBuffers (256 - out) l
  let back := (l.map (·.returned)).sum - (s.mag.staged.map (·.returned)).sum
  let more := (m.map (·.issued)).sum - (l.map (·.issued)).sum
  creditIssue 6 more (creditReturn 6 back (setMag { s.mag with staged := m } s))

/-- A frame of which no record is left gives back all its buffers (R318); its settings are kept while it is coded again (R322). -/
def releaseStaged (num : Nat) (s : State) : State :=
  if frameStaged s num then stageBuffers s
  else
    let n := ((s.mag.staged.filter (fun f => f.num == num)).map (fun f => f.issued - f.returned)).sum
    let s := creditReturn 6 n (setMag { s.mag with staged := s.mag.staged.filter (fun f => f.num != num) } s)
    let again := s.rawc.jobs.any (fun j => j.num == num && j.target.isSome)
    stageBuffers { s with rawc := { s.rawc with kept := s.rawc.kept.filter (fun j => j.num != num || again) } }

/-- The data of a Write lies in buffers that the path has issued (R318). -/
def writeStaged (s : State) (p : MagPort) (c : NvmeCmd) : Bool :=
  match p.queue.head? with
  | some r =>
    match r.frame with
    | some n => s.mag.staged.all (fun f =>
        f.num != n || decide (min (32 + 65536 * f.total) (4096 * (c.lba - r.lba + c.blocks)) ≤ 32 + 65536 * f.issued))
    | none => true
  | none => true

/-- Command number `i` of port `k` has gone to the drive: its queue pair had an entry free for it (R308), and its data is staged. -/
def cmdIssued (s : State) (k i : Nat) : Bool :=
  let p := magPort s k
  match p.cmds[i]? with
  | none => false
  | some c =>
    decide ((p.cmds.take i).countP (fun d => d.ctrl == c.ctrl && p.pair d == p.pair c) < pairDepth (p.pair c)) &&
    (!c.carriesRecord || writeStaged s p c)

/-- The write of frame `num` to magazine `k` ends, done or failed (R319, R236). -/
def magSettle (num k : Nat) (ok : Bool) (s : State) : State := settleDest num k ok (releaseStaged num s)

/-- Destination `k` of frame `num` becomes the other magazine (R322). -/
def redirect (num k : Nat) (s : State) : State :=
  modFrame num (fun f => { f with await := f.await.map (fun d => if d = k then 1 - k else d) }) s

/-- The magazine of port `k` is excluded from takes and failover (R313). -/
def magExcluded (s : State) (k : Nat) : Bool := s.flag MAG_ARM.REQ_ID && s.fld (MAG_STATUS.ID k) != 1

/-- A frame whose write to port `k` is not complete when the port gives up (R322). -/
def failoverFrame (k num : Nat) (s : State) : State :=
  match frameOf s num with
  | none => releaseStaged num s
  | some f =>
    if f.await.contains (1 - k) ∨ f.written.contains (1 - k) then magSettle num k false s
    else if magRecording s (1 - k) ∧ magExcluded s (1 - k) = false then
      recodeTo num (1 - k) (redirect num k (magMark 2 k s))
    else magSettle num k false s

/-- The end of a firmware operation (R330). -/
def endMagOp (k : Nat) (fail : Bool) (s : State) : State :=
  let s := modMag k (fun p => { p with op := none }) (s.setFlag (MAG_OP.BUSY k) false)
  let s := s.setFlag (MAG_OP.DONE k) true
  if fail then s.setFlag (MAG_OP.FAIL k) true else s

/-- The blocks of record `r`, placed and not written, are not of the take's stream. -/
def unplace (r : MagRecord) (t : Take) : Take :=
  { t with blocks := t.blocks - r.blocks, extents := (shrinkExtent r.blocks t.extents).filter (fun e => e.2 != 0), cur := r.lba }

/-- The port gives up the records it holds: a frame that is written stays written, the others fail over or fail, an APPEND ends
with FAIL (R321, R322). With `all`, every other command and operation goes too. -/
def magDrop (k : Nat) (all : Bool) (s : State) : State :=
  let p := magPort s k
  let whole := (p.queue.filter (·.done)).filterMap (fun r => r.frame)
  let frames := (p.queue.filter (fun r => !r.done)).filterMap (fun r => r.frame)
  let again := (s.rawc.jobs.filter (fun j => j.target == some k)).map (·.num)
  let s := modMag k (fun p => { p with
    cmds := if all then [] else p.cmds.filter (fun c => !c.carriesRecord)
    plan := if all then [] else p.plan, queue := [], lost := true
    take := match p.queue with
      | r :: _ => if r.placed ∧ r.done = false then p.take.map (unplace r) else p.take
      | [] => p.take }) s
  let s := { s with rawc := { s.rawc with jobs := s.rawc.jobs.filter (fun j => j.target != some k) } }
  let s := if p.op.any (fun o => all || o.op == 2) then endMagOp k true s else s
  let s := whole.foldl (fun s n => magSettle n k true s) s
  let s := frames.foldl (fun s n => failoverFrame k n s) s
  again.foldl (fun s n => magSettle n k false s) s

/-- The port fails (R322), with it the mount step in which it is (R310); the directory entry of its take stays OPEN (R323). -/
def magFail (k : Nat) (s : State) : State :=
  let s := if magState s k = 2 ∨ magState s k = 3 then magEvent 1 .warning k s else s
  let s := lanesStop (magLanes k) (magEvent 1 .recoverable k (setMagState k 8 s))
  magShow k (modMag k (fun p => { p with take := none }) (magDrop k true s))

/-! ### Closing a take -/

/-- The records of the take of port `k` are written: its logs are read (R314) and Flush is issued; the entry CLOSED, a second Flush and
the superblock follow (R324). -/
def finishClose (k : Nat) (s : State) : State :=
  modMag k (fun p => addStage (p.each .smart ++ p.each .flush) .closeEntry { p with queue := [] }) s

/-- What follows a stage whose commands have all completed. -/
def stageEffect (k : Nat) (e : MagEffect) (s : State) : State :=
  match e with
  | .none => s
  | .openEntry => writeEntry k 1 .none (modMag k (fun p => { p with
      take := p.take.map (fun t => { t with puOpen := p.pu, duwOpen := p.duw }) }) s)
  | .closeEntry => writeEntry k 2 .closeFlush s
  | .closeFlush => modMag k (fun p => addStage (p.each .flush) .closeSuper p) s
  | .closeSuper => modMag k (fun p => writeSuper .closed { p with sb := p.sb.map (fun x => { x with takes := dirUsed p }) }) s
  | .closed => magShow k (let s := modMag k (fun p => { p with take := none }) s; if magState s k = 5 then setMagState k 4 s else s)
  | .erased => newVolume k s
  | .mountStep n => modMag k (fun p => if p.step + 1 = n ∧ (n = 3 → p.ctrlsOk) then { p with step := n } else p) s

/-- A command of the stage in progress has completed: with the last one the next stage begins. -/
def stageStep (k : Nat) (s : State) : State :=
  let p := magPort s k
  match p.plan with
  | st :: rest =>
    if p.cmds.any (·.staged) then s
    else stageEffect k st.effect (modMag k (fun p => issueStage { p with plan := rest }) s)
  | [] => s

/-- The index payload of a take (R328). -/
def indexPayload (t : Take) : List Byte :=
  (t.index.map (fun e => leBytes 8 e.1 ++ leBytes 8 e.2.1 ++ leBytes 4 e.2.2.1 ++ leBytes 1 e.2.2.2 ++ [0, 0, 0])).flatten

/-- A record joins the port's queue. -/
def magEnqueue (k : Nat) (r : MagRecord) (s : State) : State := modMag k (fun p => { p with queue := p.queue ++ [r] }) s

def newRecord (type key : Nat) (payload : List Byte) (frame : Option Nat) (src : Nat) : MagRecord :=
  { type := type, key := key, payload := payload, frame := frame, src := src, lba := 0, at_ := 0, blocks := 0,
    placed := false, done := false }

/-- An index record joins the queue (R328); what it covers shows when its turn comes. -/
def enqueueIndex (k : Nat) (s : State) : State :=
  if (magPort s k).take.isSome then magEnqueue k (newRecord 5 0 [] none 0) s else s

/-- The record at the front as it is written: an index covers the frame records written since the last one (R328). With no frame to
cover, its KEY is a value the spec leaves open. -/
def formRecord (t : Take) (r : MagRecord) (s : State) : MagRecord × State :=
  if r.type ≠ 5 then (r, s)
  else
    match t.index with
    | e :: _ => ({ r with key := e.1, payload := indexPayload t }, s)
    | [] => let (free, s) := s.takeFree; ({ r with key := free.toNat, payload := [] }, s)

/-! ### Placing records -/

/-- The AU that holds volume block `v`. -/
def auOf (v : Nat) : Nat := v / 16384 - 1

/-- Outcome of looking for room: the take and superblock, no AU left, or a ninth extent needed. -/
inductive Room where
  | ok (t : Take) (x : Superblock)
  | full
  | extents
  deriving DecidableEq, Repr

/-- Allocate AUs in ascending order until `n` blocks fit after `t.cur` (R326, R327). -/
def findRoom : Nat → Nat → Take → Superblock → Room
  | 0, _, _, _ => .full
  | f + 1, n, t, x =>
    if t.cur + n ≤ t.stop ∧ !t.extents.isEmpty then .ok t x
    else if x.auCount ≤ x.nextAu then .full
    else
      let start := 16384 * (x.nextAu + 1)
      let x := { x with nextAu := x.nextAu + 1 }
      if start = t.stop ∧ !t.extents.isEmpty then findRoom f n { t with stop := t.stop + 16384 } x
      else if 8 ≤ t.extents.length then .extents
      else findRoom f n { t with extents := t.extents ++ [(start, 0)], cur := start, stop := start + 16384 } x

/-- Write or Read commands of `n` blocks from `v`, none over 1 MiB, the transfer size or a 1 MiB stripe (R308); a Write carries
FUA where the magazine has a volatile cache (R307, R319). -/
def writeChunks (p : MagPort) (use : NvmeUse) : Nat → Nat → Nat → List NvmeCmd
  | 0, _, _ => []
  | f + 1, v, n =>
    if n = 0 then []
    else
      let c := (p.place v).1
      let most := max 1 (min 256 (((p.ctrls[c]?).map (fun x => x.mdts / 4096)).getD 256))
      let m := min n (min most (256 - v % 256))
      { nvmeCmd use c with lba := v, blocks := m, fua := p.vwc && (use == .write || use == .record) } ::
        writeChunks p use f (v + m) (n - m)

/-- Place the record at the front of the queue and issue its Writes. -/
def placeAt (k : Nat) (r : MagRecord) (t : Take) (x : Superblock) (s : State) : State :=
  let n := ceilDiv (32 + r.payload.length) 4096
  let r := { r with lba := t.cur, at_ := t.blocks, blocks := n, placed := true }
  let t := { t with cur := t.cur + n, blocks := t.blocks + n, extents := growExtent n t.extents }
  modMag k (fun p => { p with
    take := some t, sb := some x, queue := r :: p.queue.drop 1
    cmds := p.cmds ++ writeChunks p (if r.frame.isSome then .write else .record) n r.lba n }) s

/-- The magazine is FULL: its frames fail over, its take is closed (R321). What room is left takes the index record. -/
def magFull (k : Nat) (s : State) : State :=
  let s := magDrop k false (magEvent 5 .recoverable k (setMagState k 7 s))
  let s := modMag k (fun p => { p with take := p.take.map (fun t => { t with flags := t.flags ||| 16, closing := true }) }) s
  let s := enqueueIndex k s
  match (magPort s k).take, (magPort s k).sb, (magPort s k).queue with
  | some t, some x, r :: _ =>
    let (r, s) := formRecord t r s
    match findRoom 1 (ceilDiv (32 + r.payload.length) 4096) t x with
    | .ok t x => magShow k (placeAt k r t x s)
    | _ => finishClose k s
  | _, _, _ => finishClose k s

/-- Issue the next record when none is on its way; records go one after the other (R320). -/
def magPump (k : Nat) (s : State) : State :=
  match (magPort s k).take, (magPort s k).sb, (magPort s k).queue with
  | some t, some x, r :: _ =>
    if r.placed ∨ (s.mag.halted ∧ r.frame.isSome) then s
    else
      let (r, s) := formRecord t r s
      let n := ceilDiv (32 + r.payload.length) 4096
      match findRoom (n / 16384 + 3) n t x with
      | .ok t x => magShow k (placeAt k r t x s)
      | .full => magFull k s
      | .extents => magFail k s
  | _, _, _ => s

/-- A coded frame is handed to the engine (R318): one record for each magazine of its destination, the other magazine in
place of one that failed, whether in this take or before it (R322). -/
def magHand (num src : Nat) (bytes : List Byte) (target : Option Nat) (s : State) : State :=
  let dests := match target with
    | some o => [o]
    | none => ((frameOf s num).map (fun f : Frame => f.await.filter (fun d => decide (d < 2)))).getD []
  let n := ceilDiv bytes.length 65536
  let s := stageBuffers (setMag { s.mag with staged := s.mag.staged ++ [{ num := num, total := n, issued := 0, returned := 0 }] } s)
  let put (k : Nat) (s : State) : State := magPump k (magEnqueue k (newRecord 1 num bytes (some num) src) s)
  let s := dests.foldl (fun s k =>
    if magRecording s k then put k s
    else if ((magPort s k).lost ∨ magState s k = 8) ∧ magRecording s (1 - k) ∧ magExcluded s (1 - k) = false ∧ dests.contains (1 - k) = false then
      put (1 - k) (redirect num k (magMark 2 k s))
    else settleDest num k false s) s
  releaseStaged num s

/-! ### Wear -/

/-- The magazine becomes READ_ONLY (R315): frames not yet written fail over, an open take is closed with READ_ONLY; a close that has its
last index record written goes on. -/
def magReadOnly (k : Nat) (s : State) : State :=
  let s := magEvent 4 .recoverable k (setMagState k 6 s)
  match (magPort s k).take with
  | none => s
  | some t =>
    if t.closing ∧ (magPort s k).queue.isEmpty then modMag k (fun p => { p with take := p.take.map (fun t => { t with flags := t.flags ||| 8 }) }) s
    else
      let s := magDrop k false s
      let s := modMag k (fun p => { p with take := p.take.map (fun t => { t with flags := t.flags ||| 8, closing := true }) }) s
      magPump k (enqueueIndex k s)

/-- A SMART reading takes effect (R314, R315); the wear of a magazine shows once it is mounted. -/
def smartUpdate (k : Nat) (s : State) : State :=
  let p := magPort s k
  let pu := p.pu
  let s := magShow k s
  let s := if 4 ≤ magState s k ∧ 90 ≤ pu ∧ pu ≤ 99 ∧ pu ≠ p.warned then
      magEvent 3 .warning k ((modMag k (fun p => { p with
        warned := pu, take := p.take.map (fun t => { t with flags := t.flags ||| 4 }) }) s).setFlag (MAG_STATUS.WEAR_WARN k) true)
    else s
  if (100 ≤ pu ∨ p.crit.testBit 3) ∧ (magState s k = 4 ∨ magState s k = 5 ∨ magState s k = 7) then magReadOnly k s else s

/-! ### Takes -/

/-- A take opens on port `k` (R317): its logs are read (R314), then its entry is written (R327). -/
def openTake (k : Nat) (s : State) : State :=
  if magState s k ≠ 4 ∨ (magPort s k).take.isSome ∨ magExcluded s k ∨ 4096 ≤ dirUsed (magPort s k) then s
  else
    let p := magPort s k
    let t : Take :=
      { slot := dirUsed p, id := ((List.range 4).map (fun i => leBytes 4 (s.fld (MAG_TAKE_ID.ID i)))).flatten,
        flags := (if s.flag (MAG_STATUS.WEAR_WARN k) then 4 else 0) + (if s.flag KLINK_STATUS.FORMED then 32 else 0),
        sec := s.time.sec.toNat, ns := s.time.ns, first := none, last := 0, frames := 0, blocks := 0, seq := 0,
        extents := [], cur := 0, stop := 0, puOpen := 0, duwOpen := 0, manifest := noBlock, indexAt := noBlock,
        index := [], bytes := 0, closing := false }
    magShow k (setMagState k 5 (modMag k (fun p => addStage (p.each .smart) .openEntry { p with take := some t, lost := false }) s))

/-- Entry to Performance or Wings: takes open on every eligible magazine; one left open by the safe state goes on (R317,
R242). -/
def openTakes (s : State) : State :=
  let s := setMag { s.mag with halted := false } s
  magPump 1 (magPump 0 (openTake 1 (openTake 0 s)))

/-- No take is open on either magazine. -/
def noTake (s : State) : Bool := s.mag.ports.all (fun p => p.take.isNone)

/-- Begin to close the take of port `k` (R324): the last index record goes into the queue. -/
def beginClose (k flag : Nat) (s : State) : State :=
  if magTakes s k = false then s
  else
    let s := modMag k (fun p => { p with take := p.take.map (fun t => { t with flags := t.flags ||| flag }) }) s
    let s := enqueueIndex k s
    magPump k (modMag k (fun p => { p with take := p.take.map (fun t => { t with closing := true }) }) s)

/-- An index record to each open take at an audit second (R328). -/
def indexRecords (s : State) : State :=
  [0, 1].foldl (fun s k => if magTakes s k then magPump k (enqueueIndex k s) else s) s

/-- The armed range of magazine `j` with output table `outs` and partition table `parts`: each output counts the partition of each port
in its STREAMS (R316). -/
def armedRange (outs parts : Sparse 8) (j : Nat) : Nat :=
  let o (k off n : Nat) := leNat (readList 0 outs (16 * k + off) n)
  ((List.range 4).map (fun k =>
    let c := o k 2 1
    if c.testBit 7 ∧ (bits c 5 4).testBit j then
      ((List.range 4).map (fun p =>
        if bits (o k 4 2) (4 * p + 3) (4 * p) = 0 then 0
        else (o k 8 4 + o k 12 4) * leNat (readList 0 parts (32 * p + 8) 4))).sum
    else 0)).sum

/-- An enabled output or a PERF_DEST names magazine `j` (R316). -/
def armNamed (outs parts : Sparse 8) (j : Nat) : Bool :=
  (List.range 4).any (fun k =>
    let c := leNat (readList 0 outs (16 * k + 2) 1)
    c.testBit 7 && (bits c 5 4).testBit j) ||
  (List.range 4).any (fun q =>
    (bits (leNat (readList 0 parts (32 * q + 16) 1)) 5 4).testBit j)

/-- The magazines that fail the arming check for Wings (R316). A port whose take stayed open through the safe state is not READY and
fails it too (DEDUCED, assumption 143). -/
def armFailures (s : State) (outs parts : Sparse 8) : List Nat :=
  [0, 1].filter (fun j =>
    let r := armedRange outs parts j
    armNamed outs parts j &&
    !(magState s j == 4 &&
      decide (r * max 16 (s.fld MAG_ARM.MARGIN) < 16 * magRemaining s j) &&
      decide (r ≤ s.fld (MAG_FREE.AUS j) * 67108864)))

end Sys2Proof.Machine
end

