-- ==== Sys2Proof/Machine/Rawc.lean ====
section
/-! DEFINITION. The commands of the Ranorid coder and decoder (R248 to R281), but for the end of a decode, which may be a
cue point reference. -/

namespace Sys2Proof.Machine

def setRawc (r : RawcState) (s : State) : State := { s with rawc := r }

/-- An event of RAWC with its flag. -/
def rawcFlag (f : Fld) (cls : EventClass) (s : State) : State := postFlag f f.lo cls 7 0xFF 0 s

/-- A half of the coder is powered (R276). -/
def rawcOn (s : State) : Bool := s.domainOn 15 || s.domainOn 16

/-- Frames that qualify for coding and have not begun (R248, R249). -/
def coderWaiting (s : State) : List Frame :=
  s.ledger.frames.filter (fun f => f.disp == 7 && f.closed && !f.handed && (f.await.contains 0 || f.await.contains 1) &&
    !s.rawc.jobs.any (fun j => j.num == f.num))

/-- `RAWC_STATUS` as it stands. -/
def rawcStatus (s : State) : Word :=
  BitVec.ofNat 32 (boolNat (!s.rawc.jobs.isEmpty) * 2 ^ 31 + boolNat s.rawc.dec.isSome * 2 ^ 30 +
    16 * (boolNat (s.domainOn 15) + boolNat (s.domainOn 16)) * 2 ^ 24 + min 0xFFFFFF (coderWaiting s).length)

/-- The table entry of a stream, all zeros where it is invalid (R254, R255). -/
def rawcEntry (s : State) (port desc : Nat) : List Byte :=
  let e := readList 0 (s.table 0x14 0) (16 * (4 * port + desc)) 16
  if entryInvalid e then List.replicate 16 0 else e

/-- The cell map slot of a frame when it can be used (R201, R260). -/
def usableMap (s : State) (num : Nat) : Option (List Byte) :=
  match mapSlotOf s num with
  | none => none
  | some a =>
    let h := s.dramBytes a 64
    if leAt h 8 8 = num ∧ (leAt h 0x14 4).testBit 0 ∧ leAt h 4 2 ≠ 0 then
      some (s.dramBytes a (64 + 2 * leAt h 4 2 * leAt h 6 2))
    else none

/-- The entry asks for the classes of the cell map, and the cells observe the stream (R260). -/
def wantsMap (s : State) (e : List Byte) (f : Frame) : Bool := (leAt e 0x0A 1).testBit 0 && cellObserves s f.port f.desc

/-- Begin frame `f` with what the coder latches (R251, R257, R260). -/
def beginCoding (f : Frame) (map : List Byte) (missing : Bool) (s : State) : State :=
  let e := rawcEntry s f.port f.desc
  let g := doubleGrid f.d.width f.d.height 32 true (entryCell e 2) (entryCell e 3)
  let doubled := decide (65536 < gridCells f.d.width f.d.height (entryCell e 2) (entryCell e 3))
  let j : CodeJob :=
    { num := f.num, entry := e, epoch := s.fld CUE_EPOCH.EPOCH, map := map, missing := missing, doubled := doubled,
      cw := g.1, ch := g.2, budget := ceilDiv (gridCells f.d.width f.d.height g.1 g.2) 64, marks := [], noIndex := false,
      target := none }
  let s := s.setFld64 RAWC_CUR_LO.DATA RAWC_CUR_HI.DATA f.num
  let s := if missing then s.setFlag RAWC_EVENT.MAP_MISSING true else s
  let s := if doubled then s.setFlag RAWC_EVENT.GRID_DOUBLED true else s
  setRawc { s.rawc with jobs := s.rawc.jobs ++ [j] } s

/-- The coder takes the qualifying frame of the lowest number, once its map is ready (R249, R260). -/
def execCoderFrameBegin (s : State) : Host.Outcome State Fault Refusal :=
  match coderWaiting s with
  | [] => .next s
  | f :: _ =>
    if rawcOn s = false ∨ s.mag.halted then .next s
    else if wantsMap s (rawcEntry s f.port f.desc) f then
      match usableMap s f.num with
      | some m => .next (beginCoding f m false (poisonWarn 7 0xFF ((mapSlotOf s f.num).getD 0) m.length s))
      | none => .next s
    else .next (beginCoding f [] false s)

/-- 100 µs after the frame closed its map is still not usable: every cell takes class 0 (R260). -/
def execCoderMapTimeout (s : State) : Host.Outcome State Fault Refusal :=
  match coderWaiting s with
  | [] => .next s
  | f :: _ =>
    if rawcOn s = false ∨ s.mag.halted ∨ wantsMap s (rawcEntry s f.port f.desc) f = false ∨ (usableMap s f.num).isSome then .next s
    else .next (beginCoding f [] true s)

def modJob (num : Nat) (f : CodeJob → CodeJob) (s : State) : State :=
  setRawc { s.rawc with jobs := s.rawc.jobs.map (fun j => if j.num = num then f j else j) } s

/-- The read tags of a second reading of cell `id`: one for each line of the cell, whose lines lie apart in the slot (R252; DEDUCED,
assumption 178). -/
def cellTags (j : CodeJob) (f : Frame) (id : Nat) : Nat := min j.ch (f.d.height - id / ceilDiv f.d.width j.cw * j.ch)

/-- The coder re-reads the raw of cell `id` from the ring: read tags of path 5 (R252, R272, R273). -/
def cellReread (j : CodeJob) (f : Frame) (id : Nat) (s : State) : State :=
  creditReturn 5 (cellTags j f id) (creditIssue 5 (cellTags j f id) s)

/-- A detection in cell `id` (R272, R273): read again and coded again while the budget lasts, then read again and stored verbatim, then
marked DAMAGED. -/
def cellDetected (j : CodeJob) (f : Frame) (id : Nat) (s : State) : State :=
  let at_ := (keyGet j.marks id).getD 0
  let mark (n : Nat) := modJob j.num (fun j => { j with marks := keySet j.marks id n })
  if at_ = 0 ∧ j.budget ≠ 0 then
    rawcFlag RAWC_EVENT.RECODE .info ((modJob j.num
        (fun j => { j with budget := j.budget - 1 }) (mark 1 (cellReread j f id s))).addFld RAWC_CNT_RECODE.COUNT 1)
  else if at_ ≤ 1 then mark 2 (cellReread j f id s)
  else if at_ = 2 then rawcFlag RAWC_EVENT.DAMAGED .warning ((mark 3 s).addFld RAWC_CNT_DAMAGED.COUNT 1)
  else s

/-- A detection while frame `num` is coded (R272 to R274). -/
def execCoderDetection (num : Nat) (target : CoderTarget) (s : State) : Host.Outcome State Fault Refusal :=
  match s.rawc.jobs.find? (fun j => j.num == num), frameOf s num with
  | some j, some f =>
    match target with
    | .cell id => if id < gridCells f.d.width f.d.height j.cw j.ch then .next (cellDetected j f id s) else .next s
    | .index => .next (rawcFlag RAWC_EVENT.INDEX .recoverable (modJob num (fun j => { j with noIndex := true }) s))
  | _, _ => .next s

/-! ### The coded frame -/

/-- The error class of the cell whose top-left pixel is (x, y) (R260). -/
def CodeJob.errClass (j : CodeJob) (x y : Nat) : Nat :=
  if j.map.isEmpty then 0
  else bits (leAt j.map (64 + 2 * (y / leAt j.map 0x1A 2 * leAt j.map 4 2 + x / leAt j.map 0x18 2) + 1) 1) 7 6

/-- A cell of the frame in the slot at `base`: its samples by row, and whether its raw is poisoned (R241, R256). -/
def rawCell (s : State) (f : Frame) (base x y w h : Nat) : List (List Nat) × Bool :=
  let b := dtWidth f.d.dt
  let seg (i : Nat) : Nat := base + (y + i) * f.d.lineBytes + packedBytes b x
  ((List.range h).map (fun i => unpackLine b w (s.dramBytes (seg i) (packedBytes b w))),
   (List.range h).any (fun i => s.poisoned (seg i) (packedBytes b w)))

/-- What coding one cell gives: its bytes, and whether it is verbatim under R263, poisoned, recoded, damaged. -/
structure CodedCell where
  bytes : List Byte
  verbatim : Bool
  poison : Bool
  recoded : Bool
  damaged : Bool
  deriving DecidableEq, Repr

/-- Code cell `id` (R256 to R263, R272, R273). A cell hit in its verbatim copy holds what was copied, which nothing fixes. -/
def codeOne (s : State) (j : CodeJob) (f : Frame) (base id : Nat) (free : List Byte) : CodedCell :=
  let cols := ceilDiv f.d.width j.cw
  let x := id % cols * j.cw
  let y := id / cols * j.ch
  let w := min j.cw (f.d.width - x)
  let h := min j.ch (f.d.height - y)
  let (rows, poison) := rawCell s f base x y w h
  let b := dtWidth f.d.dt
  let planes := planesOf (f.d.cfa == 4) rows
  let cls := j.errClass x y
  let m := (keyGet j.marks id).getD 0
  if 2 ≤ m then
    let v := verbatimCell b planes
    let v := if m = 3 then padTo v.length free else v
    { bytes := cellBytes 1 0 cls (m == 3) true poison v, verbatim := false, poison := poison, recoded := false, damaged := m == 3 }
  else
    let (v, bs) := storeCell b j.entry cls (w * h) (m == 1) poison planes
    { bytes := bs, verbatim := v, poison := poison, recoded := m == 1, damaged := false }

/-- Every cell of the frame in cell id order, taking free bytes for the damaged ones. -/
def codeCells (j : CodeJob) (f : Frame) (base : Nat) : List Nat → State → List CodedCell × State
  | [], s => ([], s)
  | id :: ids, s =>
    let (free, s1) := if keyGet j.marks id = some 3 then s.takeBytes (8 * ceilDiv (j.cw * j.ch * dtWidth f.d.dt) 64) else ([], s)
    let c := codeOne s j f base id free
    let (cs, s) := codeCells j f base ids s1
    (c :: cs, s)

/-- The coded digest of the frame is to be taken (`HASH_CTRL.CODED` as latched at its Frame Start, R65, R293). -/
def wantsCoded (s : State) (f : Frame) (j : CodeJob) : Bool :=
  let c := f.codedSel
  s.domainOn 20 && j.target.isNone && (decide (2 ≤ c) || (c == 1 && leAt j.entry 0 1 % 4 != 0))

/-- The first frame in coding is complete and goes to the magazine engine (R250, R264 to R268). -/
def finishCoding (j : CodeJob) (f : Frame) (slot : Nat) (s : State) : State :=
  let n := gridCells f.d.width f.d.height j.cw j.ch
  let (cells, s) := codeCells j f (slotAddr s f.port slot) (List.range n) s
  let (emb, bad) := slotEmb s f (slotAddr s f.port slot)
  let poison := bad || cells.any (·.poison)
  let recoded := cells.any (·.recoded)
  let damaged := cells.any (·.damaged)
  let header := codedHeader f.num f.fs f.src f.d.dt j.epoch f.d.width f.d.height (dtWidth f.d.dt) f.d.cfa (leAt j.entry 0 1 % 4)
    (entryPasses j.entry) j.cw j.ch j.entry (leAt j.entry 8 2)
    (boolNat ((leAt j.entry 0x0A 1).testBit 0) + 2 * boolNat j.missing + 4 * boolNat j.doubled)
  let bs := codedFrame header (cells.map (·.bytes)) emb j.noIndex (boolNat poison + 2 * boolNat recoded + 4 * boolNat damaged)
  let tags := ceilDiv (f.d.lineBytes * f.d.height) 4096
  let s := slotSeen f (slotAddr s f.port slot) s
  let s := creditReturn 5 tags (creditIssue 5 tags s)
  let s := s.addFld RAWC_CNT_VERBATIM.COUNT (cells.filter (·.verbatim)).length
  let s := if poison then s.setFlag RAWC_EVENT.POISON true else s
  let s := orFlags f.num (64 * boolNat poison + 128 * boolNat (recoded || damaged)) s
  let s := if wantsCoded s f j then
      setHash { s.hash with codedDue := keySet s.hash.codedDue f.num (sha3_512 (ascii "ECD9600/CODED/1" ++ bs)) } s
    else s
  let s := modFrame f.num (fun x => { x with handed := true }) s
  let s := setRawc { s.rawc with kept := s.rawc.kept.filter (fun k => k.num != f.num) ++ [{ j with target := none }] } s
  magHand f.num f.src bs j.target s

/-- The first frame in coding ends; a frame that is no longer committed is left out (R250). -/
def execCoderFrameComplete (s : State) : Host.Outcome State Fault Refusal :=
  match s.rawc.jobs with
  | [] => .next s
  | j :: js =>
    let s := setRawc { s.rawc with jobs := js } s
    match frameOf s j.num with
    | none => .next s
    | some f =>
      match f.slot with
      | some k => if f.disp = 7 then .next (finishCoding j f k s) else .next s
      | none => .next s

/-! ### The decoder -/

def decSrc (s : State) : Nat := s.fld RAWC_DEC_SRC_LO.ADDR * 8 + s.fld RAWC_DEC_SRC_HI.ADDR * 2 ^ 32
def decDst (s : State) : Nat := s.fld RAWC_DEC_DST_LO.ADDR * 4096 + s.fld RAWC_DEC_DST_HI.ADDR * 2 ^ 32

/-- `RAWC_DEC_CTRL.GO`, with the PLAY and FILL that the write carries (R277). -/
def execRawcDecode (play : Bool) (fill : BitVec 20) (s : State) : Host.Outcome State Fault Refusal :=
  let s := busOk 0 s
  if rawcOn s = false then .next s
  else
    let s := (s.setFlag RAWC_DEC_CTRL.PLAY play).setFld RAWC_DEC_CTRL.FILL fill.toNat
    let a := decSrc s
    let d := decDst s
    let n := s.fld RAWC_DEC_LEN.BYTES
    let m := s.fld RAWC_DEC_DST_SIZE.BYTES
    if s.rawc.dec.isSome ∨ inDram s a n = false ∨ inDram s d m = false ∨ (a < d + m ∧ d < a + n) then
      .next (s.setFlag RAWC_DEC_STATUS.REFUSED true)
    else
      let s := (s.setFld RAWC_DEC_CELLS.BAD 0).setFld RAWC_DEC_CELLS.CRC 0
      .next (setRawc { s.rawc with dec := some { src := dramOff a, len := n, dst := dramOff d, size := m } }
        (s.setFlag RAWC_DEC_STATUS.BUSY true))

/-- The decode is over: BUSY clears, DONE is set (R280). -/
def decodeDone (s : State) : State :=
  setRawc { s.rawc with dec := none } ((s.setFlag RAWC_DEC_STATUS.BUSY false).setFlag RAWC_DEC_STATUS.DONE true)

/-- The frame fails a check: BAD_FRAME with its REASON, the destination unchanged (R278). -/
def decodeBad (reason : Nat) (s : State) : State :=
  let s := ((s.setFlag RAWC_DEC_STATUS.BAD_FRAME true).setFlag RAWC_DEC_STATUS.WALKED false).setFld RAWC_DEC_STATUS.REASON reason
  rawcFlag RAWC_EVENT.DEC_ERR .warning (decodeDone s)

/-- The decoder writes at offset `o` of its destination, only within DST to DST + DST_SIZE − 1 (R279). -/
def decodeWrite (d : DecodeJob) (o : Nat) (bs : List Byte) (s : State) : State := s.writeDram (d.dst + o) (bs.take (d.size - o))

/-- The output of a decode, in the layout of a ring slot (R276, R279). -/
def decodeGood (d : DecodeJob) (i : CodedInfo) (s : State) : State :=
  let r := decodeFrame i (s.fld RAWC_DEC_CTRL.FILL) (s.dramBytes d.src d.len)
  let px := r.lines.flatten
  let s := decodeWrite d 0 px s
  let s := i.emb.zipIdx.foldl (fun s e => decodeWrite d (px.length + 16384 * e.2) e.1 s) s
  let s := (s.setFlag RAWC_DEC_STATUS.BAD_FRAME false).setFld RAWC_DEC_STATUS.REASON 0
  let s := (s.setFlag RAWC_DEC_STATUS.WALKED r.walked).setFld RAWC_DEC_CELLS.BAD (min 65535 r.bad)
  decodeDone (s.setFld RAWC_DEC_CELLS.CRC (min 65535 r.crc))

/-- `RAWC_CNT_CTRL.CLEAR` (R281). -/
def execRawcCounterClear (s : State) : Host.Outcome State Fault Refusal :=
  .next ((((busOk 0 s).setFld RAWC_CNT_RECODE.COUNT 0).setFld RAWC_CNT_DAMAGED.COUNT 0).setFld RAWC_CNT_VERBATIM.COUNT 0)

end Sys2Proof.Machine
end

