-- ==== Sys2Proof/Machine/View.lean ====
section
/-! DEFINITION. Footlights: the panel (R497 to R500), composition (R501 to R503), pushes (R504 to R506), line-timed registers
(R507, R508), the buffer pool (R509 to R512), role and power (R513, R514). -/

namespace Sys2Proof.Machine

/-- The states of the panel in `VIEW_STATUS.STATE`. -/
def panelState (s : State) : Nat := s.fld VIEW_STATUS.STATE

/-- An event of VIEW by its bit number. -/
def viewEvent (n : Nat) (cls : EventClass) (inst : Nat) (s : State) : State := postFlag VIEW_EVENT.EVENT n cls 18 inst 0 s

/-- Pushes are held: the device follows its role and is no Principal (R513). -/
def viewHeld (s : State) : Bool := s.flag VIEW_CTRL.FOLLOW_ROLE && topo s != 0 && !s.klink.pin

/-! ### The line count (R507) -/

/-- `VIEW_TIMING.TE_LINE` and `VIEW_APPLY.LINE`: at or above PH they act as 0. -/
def teLine (s : State) : Nat := if panelH s ≤ s.fld VIEW_TIMING.TE_LINE then 0 else s.fld VIEW_TIMING.TE_LINE
def applyLine (s : State) : Nat := if panelH s ≤ s.fld VIEW_APPLY.LINE then 0 else s.fld VIEW_APPLY.LINE

/-- `VIEW_TIMING.LINE_NS` in half nanoseconds. -/
def lineHalfNs (s : State) : Nat := 2 * max 100 (s.fld VIEW_TIMING.LINE_NS)

/-- The line count now, 0 before the first TE edge. -/
def viewLine (s : State) : Nat :=
  match s.view.teAt with
  | none => 0
  | some t => (s.view.line0 + (s.view.lineRest + 5 * (s.ticks - t)) / lineHalfNs s) % panelH s

/-- The running count goes on from where it is, for `VIEW_TIMING` and `VIEW_PANEL` are about to change: only the next TE edge
sets it back to TE_LINE (R507). -/
def viewRebase (s : State) : State :=
  match s.view.teAt with
  | none => s
  | some t => setView { s.view with
      teAt := some s.ticks, line0 := viewLine s, lineRest := (s.view.lineRest + 5 * (s.ticks - t)) % lineHalfNs s } s

/-! ### Layers -/

/-- The picture format of a layer: 0 RGB565, 1 RGB888, 2 ARGB8888. -/
def layerFmt (s : State) (n : Nat) : Nat :=
  if n = 0 then (if (s.view.pic.map (fun o => (parseHead o.desc).format)).getD 8 = 8 then 1 else 2)
  else if n = 3 then 2 else min 2 (layerFld s n 0 8 2)

def fmtBytes (f : Nat) : Nat := if f = 0 then 2 else if f = 1 then 3 else 4

/-- Width and height of a layer. -/
def layerSize (s : State) (n : Nat) : Nat × Nat :=
  if n = 0 then (s.view.pic.map (fun o => ((parseHead o.desc).ow, (parseHead o.desc).oh))).getD (0, 0)
  else if n = 3 then (64, 64)
  else (min 4096 (layerFld s n 8 0 16), min 4096 (layerFld s n 8 16 16))

/-- Where the pixels of a layer begin, as an offset into the DRAM data region, and its bytes per line (R501). -/
def layerPixels (s : State) (n : Nat) : Nat × Nat :=
  if n = 0 then (s.view.pic.map (fun o => (o.addr + 256, (parseHead o.desc).pitchY))).getD (0, 0)
  else (poolAddr s (layerFld s n 0xC 0 6), if n = 3 then 256 else 64 * layerFld s n 0xC 8 9)

/-- The layer is enabled and shown. -/
def layerShown (s : State) (n : Nat) : Bool :=
  layerFld s n 0 31 1 == 1 && !(s.view.disabled.getD n false) && (n != 0 || s.view.pic.isSome) &&
  (layerSize s n).1 != 0 && (layerSize s n).2 != 0

/-- The rectangle of a layer on the panel. -/
def layerRect (s : State) (n : Nat) : Option PanelRect :=
  clipRect s (layerPos s n).1 (layerPos s n).2 (layerSize s n).1 (layerSize s n).2

/-! ### Composition (R501 to R503) -/

/-- A component of `n` bits widened to 8. -/
def widen8 (c n : Nat) : Nat := c * 2 ^ (8 - n) ||| c / 2 ^ (2 * n - 8)

/-- The pixel in `bs`: alpha, red, green, blue. -/
def pixelOf (fmt : Nat) (bs : List Byte) : Nat × Nat × Nat × Nat :=
  let v := leNat bs
  if fmt = 0 then (255, widen8 (bits v 15 11) 5, widen8 (bits v 10 5) 6, widen8 (bits v 4 0) 5)
  else if fmt = 1 then (255, leAt bs 0 1, leAt bs 1 1, leAt bs 2 1)
  else (bits v 31 24, bits v 23 16, bits v 15 8, bits v 7 0)

/-- One channel of a blend (R502). -/
def blend1 (a src dst : Nat) : Nat := (a * src + (255 - a) * dst + 127) / 255

def blend (a : Nat) (src dst : Nat × Nat × Nat) : Nat × Nat × Nat :=
  (blend1 a src.1 dst.1, blend1 a src.2.1 dst.2.1, blend1 a src.2.2 dst.2.2)

/-- The map slot that tints the picture of layer 0, and the size of its frame. -/
def tintMap (s : State) : Option (Nat × Nat × Nat) :=
  if s.flag VIEW_CTRL.FALSE_EN = false then none
  else
    s.view.pic.bind (fun o => (usableSlot s false o.num).map (fun a =>
      let sz := ((s.ledger.frames.find? (fun f => f.num == o.num)).map (fun f => (f.d.width, f.d.height))).getD
        (s.cell.size.getD ((parseHead o.desc).ow, (parseHead o.desc).oh))
      (a, sz.1, sz.2)))

/-- The colour index of picture pixel (x, y): that of the scene cell that holds it (R199, R348, R503). -/
def tintIndex (s : State) (m : Nat × Nat × Nat) (x y : Nat) : Nat :=
  match s.view.pic with
  | none => 0
  | some o =>
    let (fx, fy) := headPoint (parseHead o.desc) m.2.1 m.2.2 x y
    let hdr := s.dramBytes m.1 0x1C
    let id := fy / max 1 (leAt hdr 0x1A 2) * leAt hdr 4 2 + fx / max 1 (leAt hdr 0x18 2)
    bits (leNat (s.dramBytes (m.1 + 0x41 + 2 * id) 1)) 5 3

/-- The source pixel of layer `n` at (x, y) within it, tinted on layer 0. -/
def layerPixel (s : State) (m : Option (Nat × Nat × Nat)) (n x y : Nat) : Nat × Nat × Nat × Nat :=
  let f := layerFmt s n
  let (a, pitch) := layerPixels s n
  let p := pixelOf f (s.dramBytes (a + y * pitch + x * fmtBytes f) (fmtBytes f))
  match (if n = 0 then m else none) with
  | none => p
  | some m =>
    let i := tintIndex s m x y
    if i = 0 then p
    else
      let e := pixelOf 2 (readList 0 (s.table 0x44 0) (4 * i) 4)
      (p.1, blend e.1 e.2 p.2)

/-- The colour of panel pixel (x, y): the layers from 0 up over black. -/
def panelPixel (s : State) (m : Option (Nat × Nat × Nat)) (x y : Nat) : Nat × Nat × Nat :=
  (List.range 4).foldl (fun dst n =>
    let lx : Int := x - (layerPos s n).1
    let ly : Int := y - (layerPos s n).2
    if layerShown s n ∧ 0 ≤ lx ∧ lx < (layerSize s n).1 ∧ 0 ≤ ly ∧ ly < (layerSize s n).2 then
      let p := layerPixel s m n lx.toNat ly.toNat
      blend ((p.1 * layerFld s n 0 0 8 + 127) / 255) p.2 dst
    else dst) (0, 0, 0)

/-- A pixel as it is sent: RGB888, or RGB565 with its high byte first. -/
def pixelBytes (s : State) (p : Nat × Nat × Nat) : List Byte :=
  if s.flag VIEW_CTRL.PANEL_FMT then leBytes 1 p.1 ++ leBytes 1 p.2.1 ++ leBytes 1 p.2.2
  else
    let v := p.1 / 8 * 2048 + p.2.1 / 4 * 32 + p.2.2 / 8
    leBytes 1 (v / 256) ++ leBytes 1 v

/-! ### Regions (R505) -/

def PanelRect.overlaps (a b : PanelRect) : Bool :=
  decide (a.x0 < b.x1) && decide (b.x0 < a.x1) && decide (a.y0 < b.y1) && decide (b.y0 < a.y1)

def PanelRect.join (a b : PanelRect) : PanelRect :=
  { x0 := min a.x0 b.x0, y0 := min a.y0 b.y0, x1 := max a.x1 b.x1, y1 := max a.y1 b.y1 }

/-- Add `r` to rectangles of which no two overlap: it takes in every one it overlaps, as often as it grows. -/
def addRect : Nat → PanelRect → List PanelRect → List PanelRect
  | 0, r, rs => r :: rs
  | n + 1, r, rs =>
    if rs.any (fun q => r.overlaps q) then
      addRect n ((rs.filter (fun q => r.overlaps q)).foldl PanelRect.join r) (rs.filter (fun q => !r.overlaps q))
    else r :: rs

/-- The regions of a push in the order of their top line. -/
def pushRegions (s : State) (dirty : List PanelRect) : List PanelRect :=
  let rs := dirty.foldl (fun rs r => addRect (rs.length + 1) r rs) []
  let rs := if 4 < rs.length then (match rs with
    | [] => []
    | r :: t => [t.foldl PanelRect.join r]) else rs
  let rs := rs.mergeSort (fun a b => decide (a.y0 ≤ b.y0))
  if s.flag VIEW_DSI.ALIGN then rs.map (fun r => { r with x0 := r.x0 / 2 * 2, x1 := (r.x1 + 1) / 2 * 2 }) else rs

/-- A DCS command as a DSI packet: its data type and its bytes (R497). -/
def dcs (cmd : Nat) (ps : List Byte) : Nat × List Byte :=
  (if ps.length = 0 then 0x05 else if ps.length = 1 then 0x15 else 0x39, BitVec.ofNat 8 cmd :: ps)

/-- A 16-bit value, high byte first. -/
def hiLo (v : Nat) : List Byte := [BitVec.ofNat 8 (v / 256), BitVec.ofNat 8 v]

/-- Pixel bytes in packets of whole pixels, at most 1,020 bytes each. -/
def pixelPackets (bpp : Nat) : Nat → Bool → List Byte → List (Nat × List Byte)
  | 0, _, _ => []
  | n + 1, first, bs =>
    if bs.isEmpty then []
    else
      let k := 1020 / bpp * bpp
      (0x39, (if first then 0x2C else 0x3C) :: bs.take k) :: pixelPackets bpp n false (bs.drop k)

/-- The packets of a region. -/
def regionPackets (s : State) (m : Option (Nat × Nat × Nat)) (r : PanelRect) : List (Nat × List Byte) :=
  let px := (List.range (r.y1 - r.y0)).map (fun j =>
    ((List.range (r.x1 - r.x0)).map (fun i => pixelBytes s (panelPixel s m (r.x0 + i) (r.y0 + j)))).flatten)
  let bs := px.flatten
  let bpp := if s.flag VIEW_CTRL.PANEL_FMT then 3 else 2
  [dcs 0x2A (hiLo r.x0 ++ hiLo (r.x1 - 1)), dcs 0x2B (hiLo r.y0 ++ hiLo (r.y1 - 1))] ++ pixelPackets bpp bs.length true bs

/-! ### Pushes (R504 to R506) -/

def viewSend (ps : List (Nat × List Byte)) (s : State) : State := setView { s.view with sent := ps } s

/-- The packet of the command that waits in `VIEW_CMD`, once the link is free for it (R505). -/
def viewCmdPackets (s : State) : List (Nat × List Byte) :=
  if s.flag VIEW_CMD.BUSY = false ∨ panelState s ≠ 2 ∨ s.view.push.isSome ∨ viewHeld s then []
  else [dcs (s.fld VIEW_CMD.DCS) (if s.flag VIEW_CMD.HAS_PARAM then [BitVec.ofNat 8 (s.fld VIEW_CMD.PARAM)] else [])]

/-- The command of `VIEW_CMD` goes out when the link is free, after the packets `ps` of the same step (R505). -/
def viewCmdGo (ps : List (Nat × List Byte)) (s : State) : State :=
  let qs := viewCmdPackets s
  if qs.isEmpty then s else (viewSend (ps ++ qs) s).setFlag VIEW_CMD.BUSY false

/-- The handles that the layers in use hold. -/
def layerHandles (s : State) : List Nat :=
  ((List.range 4).filter (fun n => layerShown s n)).map (fun n =>
    if n = 0 then (s.view.pic.map (·.buf)).getD 0 else layerFld s n 0xC 0 6)

/-- The lines that a push of `rs` reads of each shown layer: offset and bytes. -/
def pushReads (s : State) (rs : List PanelRect) : List (Nat × Nat × Nat) :=
  ((List.range 4).filter (fun n => layerShown s n)).flatMap (fun n =>
    let (a, pitch) := layerPixels s n
    rs.filterMap (fun r => (layerRect s n).bind (fun q =>
      if q.overlaps r then
        let top := ((max q.y0 r.y0 : Int) - (layerPos s n).2).toNat
        some (n, a + top * pitch, (min q.y1 r.y1 - max q.y0 r.y0) * pitch)
      else none)))

/-- A push starts, when some region is dirty: it latches settings and buffers and takes the dirty set (R504). A command that waits
goes out before it (R505). -/
def viewPush (s : State) : State :=
  let ps := viewCmdPackets s
  let s := viewCmdGo [] s
  if panelState s ≠ 2 ∨ s.view.push.isSome ∨ viewHeld s ∨ (s.view.full = false ∧ s.view.dirty.isEmpty) then s
  else
    let whole : PanelRect := { x0 := 0, y0 := 0, x1 := panelW s, y1 := panelH s }
    let rs := if s.view.full then pushRegions s [whole] else pushRegions s s.view.dirty
    let m := tintMap s
    let s := if s.flag VIEW_CTRL.FALSE_EN ∧ s.view.pic.isSome ∧ m.isNone then s.orBit VIEW_EVENT.EVENT 2 else s
    let hs := layerHandles s
    let s := (pushReads s rs).foldl (fun s p => poisonWarn 18 p.1 p.2.1 p.2.2 s) s
    let s := viewSend (ps ++ (rs.map (regionPackets s m)).flatten) s
    let s := hs.foldl (fun s h => poolChange h (fun x => { x with pushes := x.pushes + 1 }) s) s
    (setView { s.view with push := some hs, dirty := [], full := false } s).setFlag VIEW_STATUS.PUSHING true
      |>.wrapFld VIEW_CNT.PUSHES 1

/-- enter_sleep_mode on the way to OFF (R499). -/
def viewSleepIn (s : State) : State := setView { s.view with step := .sleepIn, stepAt := s.ticks, sent := [dcs 0x10 []] } s

/-- The push in progress ends (R499, R505). -/
def execViewPushComplete (s : State) : Host.Outcome State Fault Refusal :=
  match s.view.push with
  | none => .next s
  | some hs =>
    let s := (setView { s.view with push := none } s).setFlag VIEW_STATUS.PUSHING false
    let s := hs.foldl (fun s h => poolChange h (fun x => { x with pushes := x.pushes - 1 }) s) s
    .next (if panelState s = 3 then viewSleepIn s else viewCmdGo [] s)

/-! ### Line-timed registers (R508) -/

/-- The shadow stage of a line-timed register. -/
def shadowValue (s : State) (off : Nat) : Word := (keyGet s.view.shadow off).getD (s.word off)

/-- A value goes to the shadow stage. -/
def shadowWrite (off : Nat) (v : Word) (s : State) : State :=
  let m := lineMask off
  let cur := shadowValue s off
  let new := (cur &&& ~~~m) ||| (v &&& m)
  if m = 0 ∨ cur = new then s
  else setView { s.view with shadow := keySet s.view.shadow off new, changed := true } s

/-- Why an apply disables layer `n`: 1 a free handle, 2 too short a pitch, 0 not at all (R511, `VIEW_Ln_BUF`). -/
def layerFault (s : State) (n : Nat) : Nat :=
  if n = 0 ∨ layerFld s n 0 31 1 = 0 then 0
  else if ((s.pool.handles[layerFld s n 0xC 0 6]?).map (·.isFree)).getD true then 1
  else if n ≠ 3 ∧ 64 * layerFld s n 0xC 8 9 < (layerSize s n).1 * fmtBytes (layerFmt s n) then 2
  else 0

/-- The handles of the layers after an apply: every new reference is taken before an old one ends, so that a handle which moves
from one layer to another is never returned (R510, R511). -/
def layersHold (new : List (Option Nat)) (s : State) : State :=
  let old := s.view.held
  let s := new.reduceOption.foldl (fun s h => poolChange h (fun x => { x with layers := x.layers + 1 }) s) s
  old.reduceOption.foldl (fun s h => poolChange h (fun x => { x with layers := x.layers - 1 }) s) (setView { s.view with held := new } s)

/-- The handle that layer `n` names, when it is on and not disabled for fault `f`. -/
def layerHandle (s : State) (n f : Nat) : Option Nat :=
  if n ≠ 0 ∧ layerFld s n 0 31 1 = 1 ∧ f = 0 then some (layerFld s n 0xC 0 6) else none

/-- All line-timed shadows move to their active stages in one apply (R504, R508, R511). -/
def viewApply (s : State) : State :=
  if s.view.changed = false then s
  else
    let before := s
    let s := s.view.shadow.foldl (fun s e =>
      let m := lineMask e.1
      s.setWord e.1 ((s.word e.1 &&& ~~~m) ||| (e.2 &&& m))) s
    let s := setView { s.view with shadow := [], changed := false } s
    let faults := (List.range 4).map (layerFault s)
    let s := setView { s.view with disabled := faults.map (fun f => f != 0) } s
    let s := layersHold (faults.mapIdx (fun n f => layerHandle s n f)) s
    let s := [1, 2, 3].foldl (fun s n =>
      let f := faults.getD n 0
      if f = 1 then viewEvent 3 .warning n s
      else if f = 2 then postOther .warning 18 n (layerReg n 0xC) s
      else s) s
    (List.range 4).foldl (fun s n =>
      if [0, 4, 8, 0xC].all (fun o => before.word (layerReg n o) == s.word (layerReg n o)) then s
      else viewDirty (layerRect s n) (viewDirty (layerRect before n) s)) s

/-- The line count equals `VIEW_APPLY.LINE`. -/
def execViewApply (s : State) : Host.Outcome State Fault Refusal :=
  .next (if s.domainOn 27 ∧ viewLine s = applyLine s then viewApply s else s)

/-! ### TE (R504, R506, R507) -/

/-- An accepted TE edge: the line count restarts, the apply comes first if it falls there, and a push starts, unless one still runs: it
counts as late, in STOPPING too (R506). -/
def execViewTeEdge (s : State) : Host.Outcome State Fault Refusal :=
  if s.domainOn 27 = false then .next s
  else
    let s := setView { s.view with teAt := some s.ticks, line0 := teLine s, lineRest := 0, teFrom := s.ticks } s
    let s := if applyLine s = teLine s then viewApply s else s
    if panelState s ≠ 2 then .next (if s.view.push.isSome then s.addFld VIEW_CNT.LATE 1 else s)
    else
      let s := if s.flag VIEW_STATUS.TE_LOST then
          setView { s.view with full := true } (s.setFlag VIEW_STATUS.TE_LOST false) else s
      if s.view.push.isSome then .next (s.addFld VIEW_CNT.LATE 1) else .next (viewPush s)

/-- No TE edge for TE_TO_MS in RUN, or the timer of a lost TE (R506). -/
def execViewTeTimeout (s : State) : Host.Outcome State Fault Refusal :=
  if s.domainOn 27 = false ∨ panelState s ≠ 2 ∨ s.elapsedNs s.view.teFrom (max 1 (s.fld VIEW_START.TE_TO_MS) * 1000000) = false then
    .next s
  else
    let s := setView { s.view with teFrom := s.ticks } s
    let s := if s.flag VIEW_STATUS.TE_LOST then s else viewEvent 0 .warning 0xFF (s.setFlag VIEW_STATUS.TE_LOST true)
    .next (viewPush s)

/-! ### Start and stop (R499, R500) -/

def setPanel (st : Nat) (step : PanelStep) (s : State) : State :=
  setView { s.view with step := step, stepAt := s.ticks } (s.setFld VIEW_STATUS.STATE st)

/-- VIEW_RST_N goes low and the start begins. -/
def viewStart (s : State) : State :=
  setPanel 1 .reset (setView { s.view with rstN := false, ulps := false, restart := false } s)

/-- The stop begins: after the push in progress, or at once. -/
def viewStop (again : Bool) (s : State) : State :=
  let s := setPanel 3 .none (setView { s.view with restart := again } s)
  if s.view.push.isSome then s else viewSleepIn s

/-- The commands after the start script; then RUN with a full push to come. -/
def viewRun (s : State) : State :=
  let fmt := if s.flag VIEW_CTRL.PANEL_FMT then 0x77 else 0x55
  let ps := [dcs 0x3A [BitVec.ofNat 8 fmt], dcs 0x44 (hiLo (teLine s)), dcs 0x35 [0], dcs 0x29 []]
  viewCmdGo ps (setPanel 2 .none (setView { (viewSend ps s).view with full := true, teFrom := s.ticks } s))

/-- The wait of the step in nanoseconds: 10 ms of reset, RESET_MS, or SLEEP_MS after 0x11 and 0x10 (R499). -/
def viewWaitNs (s : State) : Nat :=
  match s.view.step with
  | .reset => 10000000
  | .afterReset => s.fld VIEW_START.RESET_MS * 1000000
  | .sleepOut | .sleepIn => s.fld VIEW_START.SLEEP_MS * 1000000
  | _ => 0

/-- A wait of the start, or of the stop, ends. -/
def execViewStartStep (s : State) : Host.Outcome State Fault Refusal :=
  if s.elapsedNs s.view.stepAt (viewWaitNs s) = false then .next s
  else if panelState s = 1 then
    match s.view.step with
    | .reset => .next (setPanel 1 .afterReset (setView { s.view with rstN := true } s))
    | .afterReset => .next (setPanel 1 .sleepOut (viewSend [dcs 0x11 []] s))
    | .sleepOut => .next (setPanel 1 .script (setView { s.view with script := 0 } s))
    | _ => .next s
  else if panelState s = 3 ∧ s.view.step = .sleepIn then
    let s := setPanel 0 .none (setView { s.view with ulps := true } s)
    .next (if s.view.restart then viewStart s else s)
  else .next s

/-- The delay of a start-script entry is over: it is sent, or the script ends (R500). -/
def execViewScriptEntry (s : State) : Host.Outcome State Fault Refusal :=
  if panelState s ≠ 1 ∨ s.view.step ≠ .script then .next s
  else
    let o := s.view.script
    let w := s.tab 0x44 1 o 4
    let len := w % 256
    if 4096 ≤ o ∨ w = 0 then .next (viewRun s)
    else if 4096 < o + 4 + len then .next (viewRun (s.orBit VIEW_EVENT.EVENT 1))
    else if s.elapsedNs s.view.stepAt (w / 65536 * 1000000) = false then .next s
    else
      let s := viewSend [dcs (bits w 15 8) (readList 0 (s.table 0x44 1) (o + 4) len)] s
      .next (setView { s.view with script := o + 4 + roundUp len 4, stepAt := s.ticks } s)

/-! ### The pins (R497, R513, R514) -/

/-- What the lanes of the panel link carry. -/
inductive ViewLanes where
  | undriven | ulps | lp11 | packets
  deriving DecidableEq, Repr

/-- The lanes: undriven while the domain is off, in LP-11 between packets. -/
def viewLanes (s : State) : ViewLanes :=
  if s.domainOn 27 = false then .undriven
  else if s.view.ulps then .ulps
  else if s.view.push.isSome then .packets
  else .lp11

/-- Data lanes in use, and their rate in Mb/s. -/
def viewLaneCount (s : State) : Nat := s.fld VIEW_DSI.LANES + 1
def viewMbps (s : State) : Nat := clamp 80 2500 (s.fld VIEW_DSI.MBPS)

/-- The level of VIEW_RST_N. -/
def viewRstN (s : State) : Bool := s.domainOn 27 && s.view.rstN

/-! ### Register writes -/

/-- A Company write of a line-timed register (R508). -/
def execViewLineTimedWrite (addr : BitVec 40) (value : Word) (s : State) : Host.Outcome State Fault Refusal :=
  let s := busOk 0 s
  if s.domainOn 27 = false then .next s
  else
    let off := addr.toNat - 0x10000000
    let s := shadowWrite off value s
    .next (if shadowMask off == 0 then s else overlayWrite off value s)

/-- A write of `VIEW_DIRTY_WH` (R504). -/
def execViewDirtyWhWrite (value : Word) (s : State) : Host.Outcome State Fault Refusal :=
  let s := busOk 0 s
  if s.domainOn 27 = false then .next s
  else
    .next (viewDirty (clipRect s (s.fld VIEW_DIRTY_XY.X) (s.fld VIEW_DIRTY_XY.Y) (bits value.toNat 23 12 + 1)
      (bits value.toNat 11 0 + 1)) s)

/-- A write of `VIEW_CMD` with GO (R505). -/
def execViewCmd (value : Word) (s : State) : Host.Outcome State Fault Refusal :=
  let s := busOk 0 s
  if s.domainOn 27 = false then .next s
  else if s.flag VIEW_CMD.BUSY then .next (postKind 4 18 0xFF VIEW_CMD.GO.addr s)
  else
    let v := value.toNat
    let s := ((s.setFlag VIEW_CMD.HAS_PARAM (v.testBit 24)).setFld VIEW_CMD.PARAM (bits v 23 16)).setFld VIEW_CMD.DCS (bits v 15 8)
    .next (viewCmdGo [] (s.setFlag VIEW_CMD.BUSY true))

/-! ### The pool (R509 to R512) -/

/-- A read of `VIEW_POOL_ALLOC` (R510). -/
def execViewPoolAlloc (s : State) : Host.Outcome State Fault Refusal :=
  if s.domainOn 27 = false then .next (busOk 0 s)
  else
    match poolTake 1 s with
    | some (h, s) => .next (busOk (BitVec.ofNat 32 (2 ^ 31 + h)) s)
    | none => .next (busOk 0 s)

/-- A write of `VIEW_POOL_FREE` (R510, R511). -/
def execViewPoolFree (value : Word) (s : State) : Host.Outcome State Fault Refusal :=
  let s := busOk 0 s
  let h := bits value.toNat 5 0
  if s.domainOn 27 = false then .next s
  else
    match s.pool.handles[h]? with
    | some x =>
      if x.owner = 1 then
        let s := poolDropOwner h s
        .next (if x.layers + x.pushes = 0 then s else s.addFld VIEW_POOL_STATUS.DEFERRED 1)
      else .next (viewEvent 5 .warning 0xFF (s.addFld VIEW_POOL_STATUS.DOUBLE 1))
    | none => .next (viewEvent 5 .warning 0xFF (s.addFld VIEW_POOL_STATUS.DOUBLE 1))

/-- The pool as its registers lay it out, every handle free; outside the data region it holds no buffer (R509). -/
def poolLayOut (s : State) : State :=
  let n := s.fld VIEW_POOL_CFG.COUNT_M1 + 1
  let kb := s.fld VIEW_POOL_CFG.KB
  let base := s.fld VIEW_POOL_BASE_LO.ADDR * 4096 + s.fld VIEW_POOL_BASE_HI.ADDR * 2 ^ 32
  if kb = 0 then poolShow (setPool poolInit s)
  else if inDram s base (n * kb * 4096) = false then viewEvent 4 .warning 0xFF (poolShow (setPool poolInit s))
  else poolShow (setPool { handles := List.replicate n handleFree, base := dramOff base, units := kb } s)

/-- Every handle is free, so that a change of the pool's registers can act (R512). -/
def poolAllFree (s : State) : Bool := s.pool.handles.all (fun h => h.isFree)

/-! ### Cue points and power (R499, R512, R514) -/

/-- The transition in progress takes the Footlights domain off: its panel does not start again (R499). -/
def viewLeaves (s : State) : Bool :=
  s.power.xfer.any (fun t => !(modeDomains t.dst t.mask).contains 27) || s.call.safePending && s.call.viewGoes

/-- The Footlights domain is to go off: the panel stops, and one that stops already does not start again (R499). -/
def viewEnds (s : State) : State :=
  if panelState s = 1 ∨ panelState s = 2 then viewStop false s else setView { s.view with restart := false } s

/-- The stop before the safe state enters Intermission without the Footlights domain (R499, R560). -/
def viewGo (s : State) : State := viewEnds { s with call := { s.call with viewGoes := true } }

/-- Footlights at a cue point: `link` says that it changed `VIEW_DSI` or `VIEW_PANEL`, `pool` that it changed the pool. -/
def viewCuePoint (link pool : Bool) (s : State) : State :=
  if s.domainOn 27 = false then s
  else
    let s := if pool then poolLayOut s else s
    let on := s.flag VIEW_CTRL.EN && !viewLeaves s
    let st := panelState s
    if st = 0 then (if on then viewStart s else s)
    else if st = 3 then setView { s.view with restart := on } s
    else if on = false then viewStop false s
    else if link then viewStop true s
    else s

/-- The Footlights domain is switched on: every handle is free (R512). -/
def viewUp (s : State) : State := poolLayOut (setView viewInit s)

end Sys2Proof.Machine
end

