-- ==== Sys2Proof/Machine/BlockCue.lean ====
section
/-! DEFINITION. What each block does at a cue point with the configuration that it brings (R64, R65): fields that act as
others, ports and descriptors that R107, R111 and R113 disable, heads, grids, partitions, rings; and a power domain that is
switched on (R532). -/

namespace Sys2Proof.Machine

/-- What a cue point changes: registers, tables, whether it is the first after Dawn, and the mode whose entry it ends. -/
structure CueChange where
  changed : List Nat
  tables : List TableKey
  first : Bool
  enters : Option Nat
  deriving DecidableEq, Repr

def CueChange.touches (c : CueChange) (a : Nat) : Bool := c.first || c.changed.contains a

def CueChange.loads (c : CueChange) (b n : Nat) : Bool := c.first || c.tables.contains (b, n)

/-! ### Field values that act as others -/

/-- The fields whose value may act as another at a cue point: field, the values that do, block and INST. -/
def actsAs : List (Fld × (Nat → Bool) × Nat × Nat) :=
  ((List.range 4).map (fun p =>
    [(INGEST_CTRL.GANG p, fun v => v == 3, 3, p), (INGEST_TIMEOUT.FRAME_MS p, fun v => v == 0, 3, p),
     (INGEST_TIMEOUT.LINE_US p, fun v => v == 0, 3, p), (INGEST_SKEW.US p, fun v => v == 0, 3, p),
     (INGEST_XTRIG.SRC p, fun v => decide (2 ≤ v), 3, p), (MOTION_SPD_CFG.MODE p, fun v => v == 3, 17, p)])).flatten ++
  ((List.range 2).map (fun k =>
    [(MAG_CFG.MAX_GEN k, fun v => v == 3, 11, k), (NET_CFG.SPEED k, fun v => v == 3, 14, k)])).flatten ++
  [(PIPE_DEFECT_COUNT.COUNT, fun v => decide (1048576 < v), 4, 0xFF), (CELL_GRID.CW, fun v => v == 0 || decide (128 < v), 5, 0xFF),
   (CELL_GRID.CH, fun v => v == 0 || decide (128 < v), 5, 0xFF), (HASH_CTRL.CODED, fun v => v == 3, 10, 0xFF),
   (HEVE_CTRL.GANG 0, fun v => v == 3, 8, 0), (KLINK_PAIR.TOPO, fun v => v == 3, 16, 0xFF), (VIEW_DSI.MBPS,
       fun v => decide (v < 80) || decide (2500 < v), 18, 0xFF)]

/-- The warning for one such field, when the cue point brings its register a value, or the first one finds a value written
before it. -/
def warnActsAs (c : CueChange) (s : State) (e : Fld × (Nat → Bool) × Nat × Nat) : State :=
  let fresh := c.changed.contains e.1.addr || (c.first && s.word e.1.addr != regReset e.1.addr)
  if fresh && e.2.1 (s.fld e.1) then postActsAs e.2.2.1 e.2.2.2 e.1.addr s else s

/-- A selection entry whose source or index does not exist is disabled, with a warning (`CUE_SEL0` to `CUE_SEL15`). -/
def warnSel (c : CueChange) (s : State) (n : Nat) : State :=
  let fresh := c.changed.contains (CUE_SEL.EN n).addr || (c.first && s.word (CUE_SEL.EN n).addr != 0)
  let src := s.fld (CUE_SEL.SRC n)
  if fresh && s.flag (CUE_SEL.EN n) && (decide (4 ≤ src) || (decide (src < 2) && decide (8 ≤ s.fld (CUE_SEL.SRC_IDX n)))) then
    postActsAs 1 n (CUE_SEL.EN n).addr s
  else s

/-- MOTION_SPD_LO at or above HI acts as HI/2, with a warning (R487). -/
def warnSpeed (c : CueChange) (s : State) (k : Nat) : State :=
  if (c.changed.contains (MOTION_SPD_LO.CPS k).addr || c.changed.contains (MOTION_SPD_HI.CPS k).addr) &&
     decide (s.fld (MOTION_SPD_HI.CPS k) ≤ s.fld (MOTION_SPD_LO.CPS k)) then
    postActsAs 17 k (MOTION_SPD_LO.CPS k).addr s
  else s

def warnFields (c : CueChange) (s : State) : State :=
  let s := actsAs.foldl (warnActsAs c) s
  let s := (List.range 16).foldl (warnSel c) s
  (List.range 4).foldl (warnSpeed c) s

/-! ### Ingest (R107, R110, R111, R113, R114) -/

/-- GANG in force: 3 acts as 0. -/
def gangOf (s : State) (p : Nat) : Nat := if s.fld (INGEST_CTRL.GANG p) = 3 then 0 else s.fld (INGEST_CTRL.GANG p)

/-- The groups that some port's GANG calls for (R113). -/
def groupsClaimed (s : State) : List (List Nat) :=
  (if gangOf s 0 = 1 ∨ gangOf s 1 = 1 then [[0, 1]] else []) ++ (if gangOf s 2 = 1 ∨ gangOf s 3 = 1 then [[2, 3]] else []) ++
  (if (List.range 4).any (fun p => gangOf s p == 2) then [[0, 1, 2, 3]] else [])

/-- All members have the same GANG, STITCH, LANES and MBPS. -/
def groupUniform (s : State) (g : List Nat) : Bool :=
  let key (p : Nat) := (gangOf s p, s.flag (INGEST_CTRL.STITCH p), s.fld (INGEST_CTRL.LANES p), s.fld (INGEST_RATE.MBPS p))
  g.all (fun p => decide (key p = key (g.headD 0)))

/-- The lane rate of the port is out of range (R107). -/
def rateBad (s : State) (p : Nat) : Bool := decide (s.fld (INGEST_RATE.MBPS p) < 80) || decide (9000 < s.fld (INGEST_RATE.MBPS p))

/-- The port belongs to a group that does not form, if only by another port's claim (R113; DESIGN CHOICE, assumption 160). -/
def gangBad (s : State) (p : Nat) : Bool := (groupsClaimed s).any (fun g => g.contains p && !groupUniform s g)

/-- The group that the port forms part of, or none (R113). -/
def groupNow (s : State) (p : Nat) : List Nat :=
  if gangBad s p then [] else ((groupsClaimed s).find? (fun g => g.contains p)).getD []

/-- A descriptor with EN set lies in the ranges of R110 and keeps the rules of its group (R114). -/
def descOk (s : State) (p d n : Nat) : Bool :=
  let g (o k : Nat) := s.tab 0x04 p (16 * d + o) k
  let x := streamDesc s p d
  bits (g 0 1) 5 4 == 0 && decide (0x2B ≤ x.dt) && decide (x.dt ≤ 0x2F) && decide (x.cfa ≤ 4) && decide (x.embMax ≤ 4) &&
  decide (64 ≤ x.width) && decide (x.width ≤ 20480) && x.width % 16 == 0 && decide (16 ≤ x.height) &&
  decide (x.height ≤ 15360) && g 8 8 == 0 &&
  (decide (n ≤ 1) || (if s.flag (INGEST_CTRL.STITCH p) then x.height % n == 0 else x.width % (16 * n) == 0))

/-- The descriptors of port `p` in force: enabled, sound, the lowest of each VC (R111). -/
def validDescs (s : State) (p n : Nat) : List Bool :=
  (List.range 4).foldl (fun l d =>
    let x := streamDesc s p d
    let twin := (List.range d).any (fun e => l.getD e false && (streamDesc s p e).vc == x.vc)
    l ++ [x.en && descOk s p d n && !twin]) []

/-- The port is no reference of its group, so that its descriptors are ignored (R113). -/
def isMember (s : State) (p : Nat) : Bool := (groupNow s p).any (fun q => decide (q < p))

/-- What the configuration in force makes of port `p`: its group, its disabling, its streams. -/
def ingestConfig (s : State) (p : Nat) : State :=
  let g := groupNow s p
  let valid := if isMember s p then List.replicate 4 false else validDescs s p (max 1 g.length)
  modPort p (fun x => { x with group := g, refused := rateBad s p || gangBad s p, valid := valid }) s

/-- Descriptors of port `p` that R111 disables. -/
def badDescs (s : State) (p : Nat) : List Nat :=
  if isMember s p then []
  else (List.range 4).filter (fun d => (streamDesc s p d).en && !(portOf s p).valid.getD d false)

/-- The status of a powered port shows its group and its disabling. -/
def ingestShow (s : State) (p : Nat) : State :=
  if s.domainOn (6 + p) then
    (s.setFlag (INGEST_STATUS.BAD_CFG p) ((portOf s p).refused || !(badDescs s p).isEmpty)).setFlag
      (INGEST_STATUS.GANG_ACTIVE p) (!(portOf s p).group.isEmpty)
  else s

/-- The warning of a group that does not form, under its lowest member (R113). `o` is the state before the cue point. -/
def gangWarn (c : CueChange) (o s : State) (g : List Nat) : State :=
  let fresh := g.any (fun p => c.touches (INGEST_CTRL.EN p).addr || c.touches (INGEST_RATE.MBPS p).addr || !(portOf o p).refused)
  let r := g.headD 0
  if !groupUniform s g && fresh then postOther .warning 3 r (INGEST_CTRL.EN r).addr s else s

/-- The warnings of port `p` (R107, R111). `o` is the state before the cue point. -/
def ingestWarn (c : CueChange) (o s : State) (p : Nat) : State :=
  let cfg := c.touches (INGEST_CTRL.EN p).addr || c.touches (INGEST_RATE.MBPS p).addr
  let fresh := cfg || !(portOf o p).refused
  let s := if rateBad s p && fresh then postOther .warning 3 p (INGEST_RATE.MBPS p).addr s else s
  (badDescs s p).foldl (fun s d =>
    if cfg || c.loads 0x04 p || (portOf o p).valid.getD d false then postKind 5 3 p (p * 2 ^ 24 + 16 * d) s else s) s

/-- The cue point at the sensor ports (R107, R111 to R113, R138). MISSED clears where the cue point changes INGEST_XTRIG, and at
the first cue point (DEDUCED, assumption 50). -/
def ingestCuePoint (c : CueChange) (o s : State) : State :=
  let s := (List.range 4).foldl ingestConfig s
  let s := (List.range 4).foldl ingestShow s
  let s := (groupsClaimed s).foldl (gangWarn c o) ((List.range 4).foldl (ingestWarn c o) s)
  let s := (List.range 4).foldl (fun s p =>
    if c.touches (INGEST_XTRIG.EN p).addr then s.setFld (INGEST_XTRIG.MISSED p) 0 else s) s
  [0, 1].foldl (fun s k => if c.tables.contains (0x04, 4 + k) && s.domainOn (6 + k) then spiStartScript k s else s) s

/-! ### Pipeline (R142, R160, R165) -/

/-- Which heads of port `p` the configuration in force enables. -/
def headsNow (s : State) (p : Nat) : List Bool :=
  [0, 1].map (fun h =>
    let d := headDesc (s.table 0x08 6) p h
    d.en && headValid s d h (s.fld VIEW_POOL_CFG.KB * 4096))

/-- The head 0 buffers of port `p` follow BUFS; what a dropped buffer held goes back to its credit path. -/
def resizeBufs (s : State) (p : Nat) : State :=
  let d := headDesc (s.table 0x08 6) p 0
  let q := pipePort s p
  if q.headOk.getD 0 false = false ∨ q.bufs.length = d.bufs then s
  else
    let lost := ((q.bufs.drop d.bufs).filter (fun b => b.isSome)).length
    let last := if q.bufs.isEmpty then d.bufs - 1 else q.lastBuf
    creditReturn (11 + p) lost (modPipePort p (fun x => { x with
      bufs := (List.range d.bufs).map (fun k => q.bufs.getD k none), lastBuf := last }) s)

/-- The heads and buffers of a powered pipeline follow the configuration in force. -/
def pipeConfig (s : State) : State :=
  if (List.range 4).any (fun q => s.domainOn (10 + q)) then
    showFree ((List.range 4).foldl (fun s p =>
      resizeBufs (modPipePort p (fun x => { x with headOk := headsNow s p }) s) p) s)
  else s

/-- The pipeline at a cue point: DECIM counts anew (R141), invalid heads are disabled (R160), LAG_MAX acts at once (R146, R173). -/
def pipeCuePoint (c : CueChange) (o s : State) : State :=
  let s := (List.range 4).foldl (fun s p =>
    if o.fld (PIPE_PORT.DECIM p) = s.fld (PIPE_PORT.DECIM p) then s else modPipePort p (fun x => { x with phase := 0 }) s) s
  let fresh := c.loads 0x08 6 || c.touches VIEW_POOL_CFG.KB.addr
  let s := (List.range 4).foldl (fun s p =>
    let bad (h : Nat) : Bool := (headDesc (s.table 0x08 6) p h).en && !(headsNow s p).getD h false &&
      (fresh || (pipePort o p).headOk.getD h false)
    [0, 1].foldl (fun s h => if bad h then pipeFlag PIPE_EVENT.BAD_HEAD .warning p s else s) s) s
  (List.range 4).foldl (fun s p => (pipePort s p).waiting.foldl (fun s _ => lagSkip p s) s) (pipeConfig s)

/-! ### Scene cells (R176, R201, R202) -/

/-- The slots of the Spotlight map as a range of DRAM addresses. -/
def mapRange (s : State) : Nat × Nat := (mapBase s, mapBase s + 131072 * mapSlots s)

/-- The scene cells at a cue point (R177, R201): a change of PORT, DESC, CW or CH clears RUN, RUN_START, FIRING and the levels,
with their falling edges, at once, and the next evaluated frame starts afresh (R202). BAD_SRC and BAD_MAP are judged while their EN
is 1 (DESIGN CHOICE, assumption 166). -/
def cellCuePoint (c : CueChange) (o s : State) : State :=
  let p := s.fld CELL_CTRL.PORT
  let same (f : Fld) : Bool := o.fld f == s.fld f
  let s := if same CELL_CTRL.PORT && same CELL_CTRL.DESC && same CELL_GRID.CW && same CELL_GRID.CH then s
    else
      let s := setCell { s.cell with regrid := true } s
      if s.domainOn 14 then cellsRearm s else s
  let src := s.flag CELL_CTRL.EN && (isMember s p || !(portOf s p).valid.getD (s.fld CELL_CTRL.DESC) false)
  let map := s.flag CELL_MAP_CTRL.EN && !inDram s (mapRange s).1 ((mapRange s).2 - (mapRange s).1)
  let freshSrc := c.touches CELL_CTRL.EN.addr || c.loads 0x04 p || !s.flag CELL_STATUS.BAD_SRC
  let freshMap := c.touches CELL_MAP_CTRL.EN.addr || c.touches CELL_MAP_BASE_LO.ADDR.addr ||
    c.touches CELL_MAP_BASE_HI.ADDR.addr || !s.flag CELL_STATUS.BAD_MAP
  let s := setCell { s.cell with mapOk := !map } s
  if s.domainOn 14 = false then s
  else
    let s := (s.setFlag CELL_STATUS.BAD_SRC src).setFlag CELL_STATUS.BAD_MAP map
    let s := if src && freshSrc then postOther .warning 5 0xFF CELL_CTRL.EN.addr s else s
    if map && freshMap then cellFlag CELL_EVENT.BAD_MAP .warning 0xFF s else s

/-! ### Ledger (R215 to R217, R220 to R222, R240) -/

/-- The terms look at their levels afresh, without firing (R216). -/
def rebaseTerms (s : State) : State :=
  setLedger { s.ledger with terms := (List.range 16).map (fun i =>
    (termLiterals s i).any litUsed && termAnd s [] (termLiterals s i)) } s

/-- The descriptor of port `p` in the active bank of table 3. -/
def partBytes (s : State) (p : Nat) : List Byte := readList 0 (s.table 0x10 3) (32 * p) 32

/-- Bytes that a frame of descriptor `d` needs (R221). -/
def frameNeed (d : StreamDesc) : Nat := d.height * d.lineBytes + d.embMax * 16384

/-- Bytes that the largest stream of port `p` in force needs. -/
def partNeed (s : State) (p : Nat) : Nat :=
  ((List.range 4).map (fun d => if (portOf s p).valid.getD d false then frameNeed (streamDesc s p d) else 0)).foldl max 0

/-- The ranges overlap. -/
def overlaps (a b : Nat × Nat) : Bool := decide (a.1 < b.2) && decide (b.1 < a.2)

/-- The DRAM addresses of a partition. -/
def Part.range (q : Part) : Nat × Nat := (q.base, q.base + q.slotBytes * q.slots)

/-- The partition of port `p` is valid beside the ranges `taken` (R220, R221). -/
def partValid (s : State) (p : Nat) (taken : List (Nat × Nat)) : Bool :=
  let q := partOf s p
  q.en && q.base % 4096 == 0 && q.slotBytes % 4096 == 0 && decide (1 ≤ q.slots) && decide (q.slots ≤ 65536) &&
  decide (1 ≤ q.slotBytes) && inDram s q.base (q.slotBytes * q.slots) && decide (partNeed s p ≤ q.slotBytes) &&
  !taken.any (overlaps q.range)

/-- The DRAM ranges of the valid partitions. -/
def partRanges (s : State) : List (Nat × Nat) := (s.ledger.parts.filter (fun q => q.ok)).map Part.range

/-- Each partition is judged, lower ports first; one that is invalid is disabled (R221). -/
def partsJudge (fresh : List Nat) (s : State) : State :=
  let s0 := s
  let map := if s.flag CELL_MAP_CTRL.EN && s.cell.mapOk then [mapRange s] else []
  let s := setLedger { s.ledger with parts := s.ledger.parts.map (fun q => { q with ok := false }) } s
  (List.range 4).foldl (fun s p =>
    let ok := partValid s p (partRanges s ++ map)
    let s := modPart p (fun q => { q with ok := ok }) s
    if (partOf s p).en && !ok && (fresh.contains p || (partOf s0 p).ok) then
      ledgerFlag LEDGER_EVENT.BAD_CFG .warning 0xFF 0 s
    else s) s

/-- Table 3 takes effect on the ports whose descriptor changes (R222). -/
def partsApply (ps : List Nat) (s : State) : State :=
  ps.foldl (fun s p =>
    let s := overwriteOpen (some p) s
    modPart p (fun _ => { cfg := partBytes s p, ok := false, fresh := 0, freed := [] }) s) s

/-- Partitions at a cue point: a changed table 3 acts or is held back (R221, R222). -/
def partsCuePoint (c : CueChange) (s : State) : State :=
  let ps := (List.range 4).filter (fun p => decide (partBytes s p ≠ (partOf s p).cfg))
  let entry := !s.ledger.placed || s.ledger.partDue || c.enters.any (fun m => m == 2 || m == 3 || m == 4)
  let busy := ps.any (fun p => s.ledger.frames.any (fun f => f.port == p && f.disp == 7))
  let held := !ps.isEmpty && (!entry || busy)
  let fresh := if held then [] else ps
  let s := partsApply fresh s
  let s := setLedger { s.ledger with placed := true, partDue := held && entry } s
  ledgerShow (partsJudge (if c.first then [0, 1, 2, 3] else fresh) (s.setFlag LEDGER_STATUS.PART_DEFER held))

/-- The DRAM range of the spill ring and of the digest ring. -/
def spillRange (s : State) : Nat × Nat := (spillBase s, spillBase s + 64 * 2 ^ spillLog2 s)
def digRange (s : State) : Nat × Nat :=
  let b := s.fld HASH_DIG_BASE_LO.ADDR * 4096 + s.fld HASH_DIG_BASE_HI.ADDR * 2 ^ 32
  (b, b + 256 * 2 ^ digLog2 s)

/-- A ring lies in the data region, clear of other ranges. -/
def ringFits (s : State) (r : Nat × Nat) (taken : List (Nat × Nat)) : Bool :=
  inDram s r.1 (r.2 - r.1) && !taken.any (overlaps r)

/-- Output pins that a new table 0 no longer drives end their pulse. -/
def pinsCuePoint (s : State) : State :=
  (List.range 8).foldl (fun s n =>
    if (s.tab 0x10 0 (16 * n) 1).testBit 4 || ((pinOf s n).outEnd).isNone then s
    else modPin n (fun p => { p with outEnd := none }) (s.clrBit LEDGER_PIN_STATUS.OUT n)) s

/-- Outputs and partitions whose merged table names destination 0 outside the mirror topology fail validation (R217,
R220). -/
def destWarn (c : CueChange) (s : State) : State :=
  let topo := c.touches KLINK_PAIR.TOPO.addr
  let s := (List.range 4).foldl (fun s k =>
    let x := s.tab 0x10 2 (16 * k + 2) 1
    if (c.loads 0x10 2 || topo) && x.testBit 7 && !destOk s (bits x 5 4) then postKind 5 6 k (2 * 2 ^ 24 + 16 * k) s else s) s
  (List.range 4).foldl (fun s p =>
    let x := s.tab 0x10 3 (32 * p + 16) 1
    if (c.loads 0x10 3 || topo) && x.testBit 7 && x.testBit 6 && !destOk s (bits x 5 4) then
      postKind 5 6 0xFF (3 * 2 ^ 24 + 32 * p) s
    else s) s

/-- The cue points that a run still judged may have begun before: the longest FILTER is 10 ms (R207, R247). -/
def recentBanks (s : State) : List (Nat × Sparse 8) := s.ledger.pinBanks.filter (fun b => decide (s.nowNs < b.1 + 10000000))

def ledgerCuePoint (c : CueChange) (o s : State) : State :=
  let s := setLedger { s.ledger with pinBanks := recentBanks s ++ [(s.nowNs, o.table 0x10 0)] } s
  let s := if c.loads 0x10 0 then pinsCuePoint s else s
  let s := if c.loads 0x10 1 ∧ s.domainOn 28 then rebaseTerms s else s
  let s := partsCuePoint c (destWarn c s)
  setLedger { s.ledger with spillOk := ringFits s (spillRange s) (partRanges s) } s

/-! ### Hash engines and coder (R255, R292) -/

def hashCuePoint (c : CueChange) (o s : State) : State :=
  let spill := if s.flag LEDGER_SPILL_SIZE.EN && s.ledger.spillOk then [spillRange s] else []
  let ok := ringFits s (digRange s) (partRanges s ++ spill)
  let fresh := o.hash.ringOk || c.touches HASH_DIG_SIZE.EN.addr || c.touches HASH_DIG_BASE_LO.ADDR.addr ||
    c.touches HASH_DIG_BASE_HI.ADDR.addr
  let s := setHash { s.hash with ringOk := ok } s
  if s.flag HASH_DIG_SIZE.EN && !ok && fresh then hashFlag HASH_EVENT.BAD_CFG .warning s else s

def rawcCuePoint (c : CueChange) (s : State) : State :=
  if c.loads 0x14 0 then
    (List.range 16).foldl (fun s k =>
      if entryInvalid (readList 0 (s.table 0x14 0) (16 * k) 16) then
        postFlag RAWC_EVENT.BAD_ENTRY RAWC_EVENT.BAD_ENTRY.lo .warning 7 0xFF 0 s
      else s) s
  else s

/-! ### Footlights -/

/-- The registers of the buffer pool, which a change reaches only while every handle is free (R512). -/
def poolRegs : List Nat := [VIEW_POOL_CFG.KB.addr, VIEW_POOL_BASE_LO.ADDR.addr, VIEW_POOL_BASE_HI.ADDR.addr]

/-! ### All blocks -/

/-- Registers of the frame schedule and of the array index (R441). -/
def schedRegs : List Nat :=
  [TIME_SCHED_CTRL.EN.addr, TIME_SCHED_NUM.NS.addr, TIME_SCHED_ANCHOR.SEC.addr, TIME_SCHED_PHASE.NS.addr,
   TIME_SCHED_STAGGER.NS.addr, TIME_ARRAY.INDEX.addr]

/-- Every block at the cue point `c`, in the order of their codes; `o` is the state before it (R64). -/
def blocksCuePoint (c : CueChange) (o s : State) : State :=
  let s := warnFields c s
  let s := ingestCuePoint c o s
  let s := cellCuePoint c o (pipeCuePoint c o s)
  let s := ledgerCuePoint c o s
  let s := rawcCuePoint c s
  let s := heveCuePoint 1 (heveCuePoint 0 s)
  let s := hashCuePoint c o s
  let s := if c.loads 0x28 0 then dramCuePoint s else s
  let s := netCuePoint s
  let s := schedCuePoint (c.first || schedRegs.any (fun a => c.changed.contains a)) (c.touches TIME_SCHED_CTRL.EN.addr) s
  let s := klinkCuePoint s
  let s := motionCuePoint (c.tables.contains (0x3C, 0)) s
  viewCuePoint (c.changed.contains VIEW_DSI.MBPS.addr || c.changed.contains VIEW_PANEL.PW.addr)
    (poolRegs.any (fun a => c.changed.contains a)) s

/-! ### A domain switched on (R532) -/

/-- What a block does when its domain comes on: its registers stand at Reset, its configuration is in force, its SRAM is unknown. -/
def domainUp (d : Nat) (s : State) : State :=
  let s := s.orBit POWER_STATUS.ON d
  if d = 5 then { s with scratch := [], scratchLost := some s.free, free := s.free + 1 }
  else if 6 ≤ d ∧ d ≤ 9 then ingestShow s (d - 6)
  else if 10 ≤ d ∧ d ≤ 13 then pipeConfig s
  else if d = 20 then beginSegment (nextNum s) s
  else if d = 23 ∨ d = 24 then (if (magPort s (d - 23)).drive.isNone then setMagState (d - 23) 1 s else s)
  else if d = 25 then (if s.klink.firstCue then pairRoles s else s)
  else if d = 26 then (if s.cue.firstDone then netCuePoint s else s)
  else if d = 27 then viewUp s
  else if d = 28 then rebaseTerms (motionCuePoint false (motionUp s))
  else s

/-- Domain `d` on, if it is off. -/
def domainOnAt (d : Nat) (s : State) : State := if s.domainOn d then s else domainUp d s

/-- Domains `ds` on in the order given. -/
def domainsUp (ds : List Nat) (s : State) : State := ds.foldl (fun s d => domainOnAt d s) s

end Sys2Proof.Machine
end

