-- ==== Sys2Proof/Machine/Mag.lean ====
section
/-! DEFINITION. The commands of the magazine ports: presence, training and mounting (R304 to R313), NVMe completions and
timeouts (R309), takes (R319, R324), and the firmware operations (R329, R330). -/

namespace Sys2Proof.Machine

/-! ### Presence, training and mounting -/

/-- The port starts to mount: PERST_N released, its links to train (R304, R310). -/
def magStartMount (k : Nat) (s : State) : State :=
  let s := modMag k (fun p => { p with
    perst := true, attempts := 0, trainAt := s.ticks, bifur := s.flag (MAG_CFG.BIFUR k), step := 0, sb := none, cmds := [], plan := [], queue := []
    warned := 0, ejected := false }) (lanesStop (magLanes k) s)
  setMagState k 2 ((magGone k s).setFlag (MAG_STATUS.WEAR_WARN k) false)

/-- The port is enabled and its domain on. -/
def magEnabled (s : State) (k : Nat) : Bool := s.domainOn (23 + k) && s.flag (MAG_CFG.EN k)

/-- PRSNT_N has been low for 100 ms (R304). `inserted` is the magazine that was put in, none where it was there before. -/
def execMagPresent (port : Fin 2) (inserted : Option Magazine) (s : State) : Host.Outcome State Fault Refusal :=
  let k := port.val
  let s := match inserted with
    | some d => modMag k (fun p => { p with
        drive := some { d with media := d.media.foldl (fun m e => writeAt 0 m e.1 e.2) [] } }) s
    | none => s
  if magEnabled s k = false ∨ (magPort s k).drive.isNone then .next s
  else if magState s k = 1 ∨ (magState s k = 0 ∧ (inserted.isSome ∨ (magPort s k).ejected = false)) then .next (magStartMount k s)
  else .next s

/-- Training attempt `n` begins (R304): the lanes leave idle with the ordered set of R407 and hunt for lock (R398, R401). -/
def trainAttempt (k n : Nat) (s : State) : State :=
  (magLanes k).foldl (fun s l =>
    (modLane l (fun x => { x with huntAt := some s.ticks, sent := [.exitOrderedSet] }) s).setFlag (LANE_STATUS.LOCK l) false)
    (modMag k (fun p => { p with attempts := n, trainAt := s.ticks }) s)

/-- 20 ms after PERST_N was released training starts (R304). -/
def execMagTrainingStart (port : Fin 2) (s : State) : Host.Outcome State Fault Refusal :=
  let p := magPort s port.val
  if magState s port.val = 2 ∧ p.attempts = 0 ∧ s.elapsedNs p.trainAt 20000000 then .next (trainAttempt port.val 1 s) else .next s

/-- A training attempt fails: it is repeated; after the third the port fails (R304, R322). -/
def trainFailed (k : Nat) (s : State) : State :=
  let n := (magPort s k).attempts
  if n < 3 then trainAttempt k (n + 1) s else magFail k s

/-- No L0 within 100 ms (R304). -/
def execMagTrainTimeout (port : Fin 2) (s : State) : Host.Outcome State Fault Refusal :=
  let p := magPort s port.val
  if magState s port.val = 2 ∧ p.attempts ≠ 0 ∧ s.elapsedNs p.trainAt 100000000 then .next (trainFailed port.val s) else .next s

/-- The highest GEN code that MAX_GEN allows: 3 is Gen 5. -/
def magGenCap (s : State) (k : Nat) : Nat := let m := s.fld (MAG_CFG.MAX_GEN k); if m = 3 then 3 else 3 - m

/-- The commands of a mount: Number of Queues, the I/O queues, Identify, the logs, and the Reads of the identity record, the superblocks
and the take directory (R307, R310). -/
def bringUp (p : MagPort) : MagPort :=
  let pairs := if 2 ≤ p.ctrls.length then 8 else 16
  let queues := (List.replicate pairs (p.each .createQueue)).flatten
  let logs := p.each .smart ++ (List.range p.ctrls.length).filterMap (fun c =>
    if (p.ctrls[c]?).any (·.eg) then some (nvmeCmd .endurance c) else none)
  let volume := writeChunks p .volume 2 0 2 ++ writeChunks p .volume 2 16 2 ++ writeChunks p .volume 256 32 256
  [(p.each .setFeatures, MagEffect.mountStep 2), (queues, .none), (queues, .none),
   (p.each .identify ++ p.each .identify, .mountStep 3), (logs, .mountStep 4), (volume, .none)].foldl
    (fun p l => addStage l.1 l.2 p) p

/-- The lanes on which the links of port `k` come up with `w` lanes in all: those that R419 forms from the lanes that have locked where
they are as many, else the first of each link. -/
def linkLanes (s : State) (k w : Nat) : List Nat :=
  let links := magLinks k (magPort s k).bifur
  let formed := (links.map (fun ls => (reform (laneHasLock s) ls).getD [])).flatten
  if formed.length = w then formed else (links.map (fun ls => ls.take (w / links.length))).flatten

/-- The links reach L0 at GEN code `gen` and `width` lanes; with BIFUR set only when both sub-links have (R304). A link that
settles below 8 GT/s, GEN 0, is a failed attempt (R397). -/
def execMagLinkUp (port : Fin 2) (gen : Fin 4) (width : Fin 9) (both : Bool) (s : State) : Host.Outcome State Fault Refusal :=
  let k := port.val
  if magState s k ≠ 2 ∨ ((magPort s k).bifur ∧ both = false) then .next s
  else if gen.val = 0 then .next (if (magPort s k).attempts = 0 then s else trainFailed k s)
  else
    let ls := linkLanes s k width.val
    let s := modMag k (fun p => { p with step := 1 }) (setMagState k 3 s)
    let s := modMag k bringUp s
    let g := min (magGenCap s k) gen.val
    let s := ls.foldl (fun s l => laneLocked l (laneStart l (g - 1) s)) s
    .next (((s.setFld (MAG_STATUS.GEN k) g).setFld (MAG_STATUS.WIDTH k) width.val).setFlag
      (MAG_STATUS.BIFUR k) (magPort s k).bifur)

/-- A mount step fails: FAILED with a warning event (R305, R310). -/
def mountFail (k steps : Nat) (s : State) : State :=
  magEvent 1 .warning k (setMagState k 8 (modMag k (fun p => { p with step := steps, cmds := [], plan := [] }) s))

/-- Records found by the walk from volume block `v` with SEQ `q` on (R325): type, KEY and blocks of each. The entry shows the
last extent as of its last writing, so its end is that of the volume (DEDUCED, assumption 128). -/
def recoverWalk (p : MagPort) : Nat → Nat → Nat → List (Nat × Nat × Nat)
  | 0, _, _ => []
  | f + 1, v, q =>
    let h := p.read (4096 * v) 32
    let n := ceilDiv (32 + leAt h 8 4) 4096
    if h.take 4 ≠ [0x4A, 0x52, 0x45, 0x43] ∨ (crc32 (h.take 0x1C)).toNat ≠ leAt h 0x1C 4 ∨ leAt h 0x0C 4 ≠ q ∨ p.blocks < v + n then []
    else (leAt h 4 1, leAt h 0x10 8, n) :: recoverWalk p f (v + n) (q + 1)

/-- The stream block of the last record of type `ty` that the walk found, after `b` blocks. -/
def lastOfType (ty : Nat) : Nat → List (Nat × Nat × Nat) → Option Nat
  | _, [] => none
  | b, r :: rs => (lastOfType ty (b + r.2.2) rs) <|> (if r.1 = ty then some b else none)

/-- Recover the take of a directory entry left OPEN (R325). -/
def recoverTake (k slot : Nat) (s : State) : State :=
  let p := magPort s k
  let a := 131072 + 256 * slot
  let e := p.read a 256
  if e.take 4 ≠ [0x4A, 0x54, 0x41, 0x4B] ∨ (crc32 (e.take 0xFC)).toNat ≠ leAt e 0xFC 4 ∨ leAt e 4 1 ≠ 1 then s
  else
    match p.sb with
    | none => s
    | some x =>
      let n := leAt e 0x6C 1
      let o := 0x80 + 12 * (n - 1)
      let (first, count) := if n = 0 then (16384 * (x.nextAu + 1), 0) else (leAt e o 6, leAt e (o + 6) 6)
      let rs := recoverWalk p (p.blocks - (first + count)) (first + count) (leAt e 0x68 4)
      let added := (rs.map (fun r => r.2.2)).sum
      let fr := rs.filter (fun r => r.1 == 1)
      let e := spliceAt e 4 [3]
      let e := if leAt e 0x58 8 = 0 then spliceAt e 0x48 (leBytes 8 ((fr.head?.map (fun r => r.2.1)).getD (leAt e 0x48 8))) else e
      let e := spliceAt e 0x50 (leBytes 8 ((fr.getLast?.map (fun r => r.2.1)).getD (leAt e 0x50 8)))
      let e := spliceAt e 0x58 (leBytes 8 (leAt e 0x58 8 + fr.length))
      let at_ (ty off : Nat) (e : List Byte) : List Byte :=
        match lastOfType ty (leAt e 0x60 8) rs with
        | some b => spliceAt e off (leBytes 8 b)
        | none => e
      let e := at_ 5 0xE8 (at_ 4 0xE0 e)
      let e := spliceAt e 0x60 (leBytes 8 (leAt e 0x60 8 + added))
      let e := spliceAt e 0x68 (leBytes 4 (leAt e 0x68 4 + rs.length))
      let e := if n = 0 ∧ rs.isEmpty then e
        else spliceAt (spliceAt e 0x6C [BitVec.ofNat 8 (max 1 n)]) (0x80 + 12 * (max 1 n - 1)) (leBytes 6 first ++
            leBytes 6 (count + added))
      let e := spliceAt e 0xFC (leBytes 4 (crc32 (e.take 0xFC)).toNat)
      let stop := first + count + added
      let au := if stop = first then x.nextAu else auOf (stop - 1) + 1
      let s := modMag k (fun p => writeSuper .none (addStage [metaWrite p a e] .none { p with
        sb := some { x with nextAu := max x.nextAu au, takes := dirUsed p } })) s
      magEvent 8 .info k s

/-- Step 7 of a mount (R310): READY, unless the wear found makes it READ_ONLY (R315). -/
def mountReady (k : Nat) (s : State) : State :=
  smartUpdate k (magEvent 0 .info k (modMag k (fun p => { p with step := 7 }) (setMagState k 4 s)))

/-- Steps 5 and 6 of a mount (R310, R312, R313, R325), and step 7 where nothing is to be written to the volume. -/
def mountVolume (k : Nat) (s : State) : State :=
  let p := magPort s k
  let id := magIdentity s p
  let s := s.setFld (MAG_STATUS.ID k) id
  let s := if id = 3 then magEvent 7 .warning k s else s
  let raw := p.read 65536 4096
  let raw1 := p.read 69632 4096
  let blank (b : List Byte) := b.all (fun x => x == 0) || b.all (fun x => x == 0xFF)
  let x := validSuper p
  if x.isNone ∧ (blank raw && blank raw1) = false then mountFail k 5 s
  else
    let s := match x with
      | some x => modMag k (fun p => { p with sb := some x }) s
      | none => newVolume k s
    let s := (List.range (dirUsed (magPort s k))).foldl (fun s slot => recoverTake k slot s) s
    if (magPort s k).plan.isEmpty then mountReady k s else modMag k (fun p => { p with step := 6 }) s

/-- The commands that a mount waits for have completed: it goes on to its next step or ends (R305, R310). `failed` names a step that
failed otherwise than by a command, such as CSTS.RDY not set in time. -/
def execMagMountComplete (port : Fin 2) (failed : Option (Fin 7)) (s : State) : Host.Outcome State Fault Refusal :=
  let k := port.val
  let p := magPort s k
  if magState s k ≠ 3 then .next s
  else
    let s := (s.setFld (MAG_STATUS.CTRLS k) p.ctrls.length).setFlag (MAG_STATUS.VWC k) (p.ctrls.any (·.vwc))
    match failed with
    | some n => .next (mountFail k (n.val - 1) s)
    | none =>
      if p.plan.isEmpty = false then .next s
      else if p.step = 6 then .next (mountReady k s)
      else if p.ctrlsOk = false then .next (mountFail k 2 s)
      else .next (mountVolume k s)

/-- PRSNT_N high for 1 ms: a removal (R311). -/
def execMagRemoval (port : Fin 2) (s : State) : Host.Outcome State Fault Refusal :=
  let k := port.val
  let s := if magState s k = 0 ∨ magState s k = 1 then s else magMark 11 k (magFail k s)
  let s := modMag k (fun p => { p with drive := none, sb := none, perst := false, ejected := false }) s
  let s := if magState s k = 0 then s else setMagState k 1 ((magGone k s).setFlag (MAG_STATUS.WEAR_WARN k) false)
  .next (magShow k s)

/-- CSTS.CFS or a shutdown status fails a port whose controllers are up (R309, R322). -/
def execControllerFatalStatus (port : Fin 2) (s : State) : Host.Outcome State Fault Refusal :=
  let n := magState s port.val
  if (3 ≤ n ∧ n ≤ 7) ∨ n = 9 then .next (magFail port.val s) else .next s

/-! ### NVMe commands -/

/-- The AU that holds volume block `v` is skipped: the record is placed again at the next AU (R327). -/
def skipAu (k v : Nat) (s : State) : State :=
  match (magPort s k).take, (magPort s k).sb, (magPort s k).queue with
  | some t, some x, r :: q =>
    let u := unplace r t
    let start := 16384 * (auOf v + 2)
    let t := { u with extents := u.extents ++ [(start, 0)], cur := start, stop := max t.stop start }
    let s := magMark 9 k s
    let s := modMag k (fun p => { p with
      sb := some { x with badAus := x.badAus + 1, nextAu := max x.nextAu (auOf v + 1) }
      cmds := p.cmds.filter (fun c => !c.carriesRecord), queue := { r with placed := false } :: q }) s
    if 8 ≤ u.extents.length then magFail k s
    else magPump k (modMag k (fun p => { p with take := some t }) s)
  | _, _, _ => s

/-- The record at the front is written whole: its index entry and the counts of the take (R327, R328). -/
def recordWritten (k : Nat) (s : State) : State :=
  modMag k (fun p =>
    match p.take, p.queue with
    | some t, r :: q =>
      let t := { t with seq := t.seq + 1, bytes := t.bytes + 4096 * r.blocks
                        manifest := if r.type = 4 then r.at_ else t.manifest
                        indexAt := if r.type = 5 then r.at_ else t.indexAt
                        index := if r.type = 5 then [] else t.index }
      let t := match r.frame with
        | some n => { t with frames := t.frames + 1, first := some (t.first.getD n), last := n
                             index := t.index ++ [(n, r.at_, r.blocks, r.src)] }
        | none => t
      { p with take := some t, queue := { r with done := true } :: q }
    | _, _ => p) s

/-- The front record leaves the queue; the next is issued, or a take being closed with nothing left is closed (R324). -/
def magAdvance (k : Nat) (s : State) : State :=
  let s := magShow k (modMag k (fun p => { p with queue := p.queue.drop 1 }) s)
  let p := magPort s k
  if p.queue.isEmpty ∧ p.take.any (·.closing) then finishClose k s else magPump k s

/-- A Write completed: its bytes are on the magazine; with the last one of an index record the entry is written (R327). -/
def writeCompleted (k : Nat) (c : NvmeCmd) (s : State) : State :=
  match (magPort s k).take, (magPort s k).queue with
  | some t, r :: _ =>
    let bs := recordBytesOf r.type r.payload.length t.seq r.key r.payload
    let s := stageBuffers (modMag k (fun p => p.write (4096 * c.lba) ((bs.drop (4096 * (c.lba - r.lba))).take (4096 * c.blocks))) s)
    if (magPort s k).cmds.any (·.carriesRecord) then s
    else
      let s := recordWritten k s
      if r.type = 5 then magAdvance k (writeEntry k 1 .none s) else s
  | _, _ => s

/-- What the log read by a command says of a controller: SMART, or the Endurance Group (R307, R314). -/
def setSmart (k : Nat) (c : NvmeCmd) (d : SmartData) (s : State) : State :=
  modMag k (fun p => { p with drive := p.drive.map (fun m => { m with ctrls := modAt m.ctrls c.ctrl (fun x =>
    if c.use = .endurance then { x with ee := d.ee } else { x with pu := d.pu, duw := d.duw, crit := d.crit }) }) }) s

/-- What a command of port `k` that succeeded did (R307). -/
def commandDone (k : Nat) (c : NvmeCmd) (smart : SmartData) (s : State) : State :=
  match c.use with
  | .write | .record => writeCompleted k c s
  | .metadata => modMag k (fun p => p.write c.data.1 c.data.2) s
  | .smart | .endurance => smartUpdate k (setSmart k c smart s)
  | .read | .volume | .identify | .setFeatures | .createQueue | .deleteQueue | .flush | .deallocate => s

/-- An NVMe command that did not succeed: issued once more, then the port fails, but for a media error of a Write, which
skips its AU (R309, R322, R327). -/
def commandFailed (k i : Nat) (c : NvmeCmd) (media : Bool) (s : State) : State :=
  if c.again = false then modMag k (fun p => { p with cmds := modAt p.cmds i (fun c => { c with again := true }) }) s
  else if media ∧ c.carriesRecord then skipAu k c.lba s
  else magFail k s

/-- Command number `cmd` of the port, once issued, completes (R309); `smart` is what a log read returned. -/
def execNvmeCompletion (port : Fin 2) (cmd : Nat) (status : NvmeStatus) (smart : SmartData) (s : State) :
    Host.Outcome State Fault Refusal :=
  let k := port.val
  match (magPort s k).cmds[cmd]? with
  | none => .next s
  | some c =>
    if cmdIssued s k cmd = false then .next s
    else
      match status with
      | .success =>
        let s := commandDone k c smart (modMag k (fun p => { p with cmds := p.cmds.eraseIdx cmd }) s)
        .next (if c.staged then stageStep k s else s)
      | .mediaError => .next (commandFailed k cmd c true (s.addFld (MAG_CNT_ERR.ERRORS k) 1))
      | .error => .next (commandFailed k cmd c false (s.addFld (MAG_CNT_ERR.ERRORS k) 1))

/-- A command has not completed within CMD_MS (R309). -/
def execNvmeCommandTimeout (port : Fin 2) (cmd : Nat) (s : State) : Host.Outcome State Fault Refusal :=
  match (magPort s port.val).cmds[cmd]? with
  | none => .next s
  | some c =>
    if cmdIssued s port.val cmd = false then .next s
    else .next (commandFailed port.val cmd c false (s.addFld (MAG_CNT_ERR.TIMEOUTS port.val) 1))

/-- Every 60 s while the port records, the SMART logs are read (R314). -/
def execMagSmartPoll (port : Fin 2) (s : State) : Host.Outcome State Fault Refusal :=
  if magState s port.val ≠ 5 then .next s
  else
    .next (modMag port.val (fun p => { p with cmds := p.cmds ++ p.each .smart }) s)

/-- Every Write of the frame at the front has completed (R319). -/
def execMagFrameWriteComplete (port : Fin 2) (s : State) : Host.Outcome State Fault Refusal :=
  match (magPort s port.val).queue with
  | r :: _ =>
    match r.frame with
    | some n => if r.done then .next (magSettle n port.val true (magAdvance port.val s)) else .next s
    | none => .next s
  | [] => .next s

/-! ### Takes -/

/-- `MAG_TAKE_CTRL.CLOSE` (R324). -/
def execMagTakeClose (s : State) : Host.Outcome State Fault Refusal :=
  let s := busOk 0 s
  if s.domainOn 23 = false ∧ s.domainOn 24 = false then .next s
  else if magTakes s 0 || magTakes s 1 then .next (beginClose 1 0 (beginClose 0 0 s))
  else .next (postRefused 11 MAG_TAKE_CTRL.CLOSE.addr s)

/-- No CLOSE 250 ms after the last disposition: the engine closes the take with NO_FINAL (R324). -/
def execMagTakeCloseTimeout (s : State) : Host.Outcome State Fault Refusal :=
  .next ([0, 1].foldl (fun s k => if magTakes s k then beginClose k 2 (magEvent 10 .warning k s) else s) s)

/-! ### Firmware operations -/

/-- The operation is refused (R330). -/
def magOpRefused (k : Nat) (s : State) : State :=
  postKind 4 11 k (MAG_OP.OP k).addr (s.setFlag (MAG_OP.REFUSED k) true)

/-- The fields of the write that carries GO. -/
def magOpWrite (k op type : Nat) (s : State) : State := ((busOk 0 s).setFld (MAG_OP.OP k) op).setFld (MAG_OP.TYPE k) type

def magOpAddr (s : State) (k : Nat) : Nat := s.fld (MAG_OP_ADDR_LO.ADDR k) * 64 + s.fld (MAG_OP_ADDR_HI.ADDR k) * 2 ^ 32

def magOpLba (s : State) (k : Nat) : Nat := s.fld64 (MAG_OP_LBA_LO.LBA k) (MAG_OP_LBA_HI.LBA k)

/-- An operation begins: BUSY. -/
def magOpStart (k : Nat) (o : MagOp) (s : State) : State :=
  modMag k (fun p => { p with op := some o }) (s.setFlag (MAG_OP.BUSY k) true)

/-- `MAG_OP` READ (R330). -/
def execRead (port : Fin 2) (type : Fin 16) (s : State) : Host.Outcome State Fault Refusal :=
  let k := port.val
  if s.domainOn (23 + k) = false then .next (busOk 0 s)
  else
    let s := magOpWrite k 1 type.val s
    let a := magOpAddr s k
    let n := s.fld (MAG_OP_LEN.LEN k)
    let v := magOpLba s k
    let st := magState s k
    if (magPort s k).op.isSome ∨ ¬ (4 ≤ st ∧ st ≤ 7) ∨ n = 0 ∨ 65536 < n ∨ a % 4096 ≠ 0 ∨ inDram s a (4096 * n) = false ∨
       ((magPort s k).sb.map (·.total)).getD 0 < v + n then .next (magOpRefused k s)
    else
      .next (modMag k (fun p => { p with cmds := p.cmds ++ writeChunks p .read n v n })
        (magOpStart k { op := 1, addr := dramOff a, lba := v, len := n } s))

/-- The KEY of a record that firmware appends (R328). -/
def appendKey (type : Nat) (payload : List Byte) : Nat :=
  leAt payload (if type = 2 then 8 else if type = 3 then 0 else 0x50) 8

/-- `MAG_OP` APPEND: one record of TYPE 2, 3 or 4, after every frame handed over before (R320, R330). -/
def execAppend (port : Fin 2) (type : Fin 16) (s : State) : Host.Outcome State Fault Refusal :=
  let k := port.val
  if s.domainOn (23 + k) = false then .next (busOk 0 s)
  else
    let s := magOpWrite k 2 type.val s
    let a := magOpAddr s k
    let n := s.fld (MAG_OP_LEN.LEN k)
    if (magPort s k).op.isSome ∨ magRecording s k = false ∨ n = 0 ∨ 16777216 < n ∨ type.val < 2 ∨ 4 < type.val ∨
       inDram s a n = false then .next (magOpRefused k s)
    else
      let bs := s.dramBytes (dramOff a) n
      .next (magPump k (magEnqueue k (newRecord type.val (appendKey type.val bs) bs none 0)
        (magOpStart k { op := 2, addr := dramOff a, lba := 0, len := n } (poisonWarn 11 k (dramOff a) n s))))

/-- `MAG_OP` ERASE: privileged, in Rehearsal or Intermission (R329). -/
def execErase (port : Fin 2) (type : Fin 16) (s : State) : Host.Outcome State Fault Refusal :=
  let k := port.val
  if s.domainOn (23 + k) = false then .next (busOk 0 s)
  else
    let s := magOpWrite k 3 type.val s
    let st := magState s k
    if (magPort s k).op.isSome ∨ (s.mode ≠ 2 ∧ s.mode ≠ 6) ∨
       ¬ (st = 4 ∨ st = 6 ∨ st = 7 ∨ (st = 8 ∧ 3 ≤ (magPort s k).step)) ∨ (magPort s k).drive.isNone then
      .next (magOpRefused k s)
    else if privilege s = false then .next (privRefused 11 0x10 (s.setFlag (MAG_OP.REFUSED k) true))
    else
      let s := modMag k (fun p => addStage (p.each .deallocate) .erased { p with
        sb := none, drive := p.drive.map (fun d => { d with media := d.media.filter (fun e => decide (e.1 < 65536)) }) }) s
      .next (magShow k (magOpStart k { op := 3, addr := 0, lba := 0, len := 0 } (setMagState k 9 s)))

/-- `MAG_OP` MOUNT (R323, R330). -/
def execMount (port : Fin 2) (type : Fin 16) (s : State) : Host.Outcome State Fault Refusal :=
  let k := port.val
  if s.domainOn (23 + k) = false then .next (busOk 0 s)
  else
    let s := magOpWrite k 4 type.val s
    if (magPort s k).op.isSome ∨ noTake s = false then .next (magOpRefused k s)
    else
      let s := if (magPort s k).drive.isSome then magStartMount k s else setMagState k 1 s
      .next (magOpStart k { op := 4, addr := 0, lba := 0, len := 0 } s)

/-- The I/O queues of a port that is up are deleted, submission queues first (R307). -/
def shutDown (s : State) (k : Nat) (p : MagPort) : MagPort :=
  let st := magState s k
  if 4 ≤ st ∧ st ≤ 7 then
    let queues := (List.replicate (if 2 ≤ p.ctrls.length then 8 else 16) (p.each .deleteQueue)).flatten
    addStage queues .none (addStage queues .none p)
  else p

/-- `MAG_OP` EJECT: normal shutdown, then OFF (R330). -/
def execEject (port : Fin 2) (type : Fin 16) (s : State) : Host.Outcome State Fault Refusal :=
  let k := port.val
  if s.domainOn (23 + k) = false then .next (busOk 0 s)
  else
    let s := magOpWrite k 5 type.val s
    if (magPort s k).op.isSome ∨ noTake s = false then .next (magOpRefused k s)
    else .next (modMag k (shutDown s k) (magOpStart k { op := 5, addr := 0, lba := 0, len := 0 } s))

/-- The port is OFF: nothing trained, nothing mounted. -/
def magOff (k : Nat) (s : State) : State :=
  let s := modMag k (fun p => { p with
      perst := false, attempts := 0, step := 0, sb := none, cmds := [], plan := [], queue := [], take := none })
    (lanesStop (magLanes k) s)
  magShow k (setMagState k 0 (magGone k s))

/-- What operation `o` does when it ends (R329, R330). -/
def magOpEffect (k : Nat) (o : MagOp) (s : State) : State :=
  if o.op = 1 then endMagOp k false (s.writeDram o.addr ((magPort s k).read (4096 * o.lba) (4096 * o.len)))
  else if o.op = 2 then endMagOp k false (magAdvance k s)
  else if o.op = 3 then endMagOp k false (privRecord 0x10 k [] (smartUpdate k (setMagState k 4 s)))
  else if o.op = 4 then endMagOp k (magState s k != 4 && magState s k != 6) s
  else endMagOp k false (modMag k (fun p => { p with ejected := true }) (magOff k s))

/-- A magazine operation ends once what it waits for is done (R330). -/
def execMagOpComplete (port : Fin 2) (s : State) : Host.Outcome State Fault Refusal :=
  let k := port.val
  let p := magPort s k
  match p.op with
  | none => .next s
  | some o =>
    let ready := if o.op = 1 then !p.cmds.any (fun c => c.use == .read)
      else if o.op = 2 then p.queue.head?.any (fun r => r.done && r.frame.isNone)
      else if o.op = 4 then decide (magState s k ≠ 2) && decide (magState s k ≠ 3)
      else p.plan.isEmpty
    if ready then .next (magOpEffect k o s) else .next s

end Sys2Proof.Machine
end

