-- ==== Sys2Proof/Machine/Lane.lean ====
section
/-! DEFINITION. The serial lanes: lock (R398 to R401, R418 to R420), sleep (R402 to R407), loopback and patterns (R408 to
R410), equalisation (R411 to R417). -/

namespace Sys2Proof.Machine

/-- The lane runs a rate. -/
def laneRuns (s : State) (l : Nat) : Bool := s.fld (LANE_STATUS.RATE l) != 15

/-- A PCIe lane trains: it hunts for lock before its rate is settled (R304, R397). -/
def laneTrains (s : State) (l : Nat) : Bool :=
  decide (l < 16) && magState s (l / 8) == 2 && (magPort s (l / 8)).attempts != 0

/-- The lane's receiver is in use. -/
def laneLive (s : State) (l : Nat) : Bool := laneRuns s l || laneTrains s l

/-- The lanes of the link that lane `l` belongs to: a port, or a sub-link of a bifurcated magazine port (R396, R406, R419). -/
def linkOf (s : State) (l : Nat) : List Nat :=
  if l < 16 then ((magLinks (l / 8) (magPort s (l / 8)).bifur).find? (fun ls => ls.contains l)).getD []
  else if l < 24 then klLanes ((l - 16) / 4) else [l]

/-- The lanes of that link in use. -/
def activeLanes (s : State) (l : Nat) : List Nat := (linkOf s l).filter (fun k => laneRuns s k && !laneRetired s k)

/-! ### Lock -/

/-- 64 consecutive valid headers (R398, R400). -/
def execLaneLock (lane : Fin 26) (s : State) : Host.Outcome State Fault Refusal :=
  let l := lane.val
  if laneLive s l ∧ laneHasLock s l = false ∧ laneRetired s l = false then
    .next (laneLocked l s)
  else .next s

/-- The PCIe link of lane `l` in Recovery: it re-forms on the lanes that lock again, its active lanes leaving idle with the ordered
set of R407, or the port fails (R419). The other link of a bifurcated port goes on. -/
def pcieRecover (l : Nat) (relocked : Nat) (s : State) : State :=
  let k := l / 8
  let ls := linkOf s l
  let ok (l : Nat) : Bool := laneRuns s l && !laneRetired s l && relocked.testBit (l % 8)
  match reform ok ls with
  | none => magFail k s
  | some keep =>
    let s := (activeLanes s l).foldl (fun s l => laneSends [.exitOrderedSet] l s) s
    let s := (ls.filter (fun l => laneRuns s l && !laneRetired s l)).foldl (fun s l =>
      if keep.contains l then (if laneHasLock s l then s else laneLocked l s) else laneRetire l s) s
    s.setFld (MAG_STATUS.WIDTH k) ((magLanes k).filter (fun l => laneRuns s l && !laneRetired s l)).length

/-- 16 invalid headers in a window (R399), and what the port does (R418 to R420); a receiver that sleeps counts none (R403). `relocked` tells, by lane of a PCIe port,
which lanes regain block alignment in Recovery. A lane that still trains hunts on. -/
def execLaneLockLost (lane : Fin 26) (relocked : BitVec 8) (s : State) : Host.Outcome State Fault Refusal :=
  let l := lane.val
  if laneLive s l = false ∨ laneHasLock s l = false ∨ s.flag (LANE_STATUS.RX_SLEEP l) then .next s
  else
    let trains := laneTrains s l
    let s := laneLost l s
    if trains then .next s
    else if l < 16 then .next (pcieRecover l relocked.toNat s)
    else if l < 24 then .next (kLaneLost l s)
    else .next (netLost (l - 24) s)

/-- No lock `LANE_COMMON_LOCK_TO` µs after the receiver sees signal (R401). -/
def execLaneNoLockTimeout (lane : Fin 26) (s : State) : Host.Outcome State Fault Refusal :=
  let l := lane.val
  match (laneOf s l).huntAt with
  | none => .next s
  | some t =>
    if laneLive s l ∧ laneHasLock s l = false ∧ laneRetired s l = false ∧ s.flag (LANE_STATUS.RX_SLEEP l) = false ∧
        s.elapsedNs t (max 1 (s.fld LANE_COMMON_LOCK_TO.US) * 1000) then
      .next (laneFlag LANE_EVENT.NO_LOCK .warning l (modLane l (fun x => { x with huntAt := none }) s))
    else .next s

/-! ### Sleep (R402 to R406) -/

/-- The far end of the PCIe link of lane `l` advertises L0s (R406); the device's end does. -/
def l0sBoth (s : State) (l : Nat) : Bool :=
  let p := magPort s (l / 8)
  ((p.ctrls)[if p.bifur then l % 8 / 4 else 0]?).any (·.l0s)

/-- Lanes that may sleep: SLEEP_EN on every active lane of the link, which is no Ethernet port; on PCIe both ends advertise L0s, and
Kurnarik has had nothing to send for SLEEP_US (R402, R406). -/
def maySleep (s : State) (l : Nat) : Bool :=
  decide (l < 24) && laneRuns s l && !laneRetired s l &&
  (activeLanes s l).all (fun k => s.flag (LANE_CFG.SLEEP_EN k)) &&
  (if l < 16 then l0sBoth s l else kUp s ((l - 16) / 4) && (kport s ((l - 16) / 4)).queue.isEmpty && (kport s ((l - 16) / 4)).resend.isNone &&
    s.elapsedNs (kport s ((l - 16) / 4)).sentAt (max 1 (s.fld (LANE_CFG.SLEEP_US l)) * 1000))

/-- SLEEP_US without anything to send: 4 SLEEP blocks and electrical idle on every active lane of the link (R402); on PCIe the ordered
set of R407. -/
def execLaneSleepEntry (lane : Fin 26) (s : State) : Host.Outcome State Fault Refusal :=
  let l := lane.val
  if maySleep s l then
    .next ((activeLanes s l).foldl (fun s k =>
      (modLane k (fun x => { x with
        sleepAt := some s.ticks, wakeHeld := false, sent := if l < 16 then [.idleOrderedSet] else [.sleep 4] }) s).setFlag (LANE_STATUS.TX_SLEEP k) true) s)
  else .next s

/-- A SLEEP block and then loss of signal (R403); L0s of a PCIe receiver (R406). -/
def execLaneRxSleep (lane : Fin 26) (s : State) : Host.Outcome State Fault Refusal :=
  let l := lane.val
  if l < 24 ∧ laneRuns s l ∧ laneHasLock s l then .next (s.setFlag (LANE_STATUS.RX_SLEEP l) true) else .next s

/-- The wake burst goes out on every active lane of the link, and the flits that waited leave (R404, R405, R407). The blocks to the next
ALIGN do not count while the lanes sleep. -/
def laneWakes (l : Nat) (s : State) : State :=
  let asleep := ((laneOf s l).sleepAt.map (fun t => s.ticks - t)).getD 0
  let s := (activeLanes s l).foldl (fun s k =>
    (modLane k (fun x => { x with sleepAt := none, wakeHeld := false, sent := if l < 16 then [.exitOrderedSet] else wakeBurst }) s).setFlag (LANE_STATUS.TX_SLEEP k) false) s
  if 16 ≤ l ∧ l < 24 then kPump ((l - 16) / 4) (modKPort ((l - 16) / 4) (fun k => { k with alignAt := k.alignAt + asleep }) s) else s

/-- 100 ns of electrical idle have passed since the last SLEEP block (R405); a PCIe lane keeps no such time here. -/
def idleOver (s : State) (l : Nat) : Bool := decide (l < 16) || (laneOf s l).sleepAt.all (fun t => s.elapsedNs t 100)

/-- There is something to send on a sleeping lane: it wakes, or its wake is held (R404, R405). -/
def execLaneWake (lane : Fin 26) (s : State) : Host.Outcome State Fault Refusal :=
  let l := lane.val
  if s.flag (LANE_STATUS.TX_SLEEP l) = false then .next s
  else if idleOver s l then .next (laneWakes l s)
  else .next ((activeLanes s l).foldl (fun s k => modLane k (fun x => { x with wakeHeld := true }) s) s)

def execLaneWakeHoldEnd (lane : Fin 26) (s : State) : Host.Outcome State Fault Refusal :=
  let l := lane.val
  if (laneOf s l).wakeHeld ∧ idleOver s l then .next (laneWakes l s) else .next s

/-- A receiver sees signal: receive sleep ends, and a Kurnarik lane hunts for lock on the IDLE blocks (R404). -/
def execSignalDetect (lane : Fin 26) (s : State) : Host.Outcome State Fault Refusal :=
  let l := lane.val
  if s.flag (LANE_STATUS.RX_SLEEP l) = false then .next s
  else
    let s := s.setFlag (LANE_STATUS.RX_SLEEP l) false
    if l < 16 then .next s
    else .next ((modLane l (fun x => { x with signalAt := some s.ticks, huntAt := some s.ticks }) s).setFlag (LANE_STATUS.LOCK l) false)

/-- Not locked 1 µs after signal detect (R404): the lane counts as having lost lock (R399, R418). -/
def execLaneWakeFail (lane : Fin 26) (s : State) : Host.Outcome State Fault Refusal :=
  let l := lane.val
  match (laneOf s l).signalAt with
  | none => .next s
  | some t =>
    if s.elapsedNs t 1000 ∧ laneHasLock s l = false then
      let s := modLane l (fun x => { x with signalAt := none }) s
      .next (kLaneLost l (laneLost l (s.setFlag (LANE_EVENT.WAKE_FAIL l) true)))
    else .next s

/-! ### Loopback and patterns (R408 to R410) -/

/-- A pattern or loopback is accepted: in Intermission, or while the lane's port has no link; never on lane 24 in Midnight
(R409). -/
def loopAllowed (s : State) (l : Nat) : Bool :=
  let noLink := if l < 16 then [0, 1, 8].contains (magState s (l / 8))
    else if l < 24 then !kUp s ((l - 16) / 4) else !netUp s (l - 24)
  (s.mode == 6 || noLink) && s.mode != 7

/-- Lane `l` leaves a loopback and returns to its protocol's start-up (R409): the link that ran on it is down, with what that brings
(R322, R424, R472), and a lane that still runs hunts for lock anew. -/
def loopEnd (l : Nat) (s : State) : State :=
  if s.fld (LANE_STATUS.LOOP l) = 0 then s
  else
    let s := s.setFld (LANE_STATUS.LOOP l) 0
    let s :=
      if l < 16 then (if [3, 4, 5, 6, 7, 9].contains (magState s (l / 8)) then magFail (l / 8) s else s)
      else if l < 24 then (if kUp s ((l - 16) / 4) then kDown ((l - 16) / 4) false s else s)
      else modNet (l - 24) (fun n => { n with looped := [] }) (netLost (l - 24) s)
    if laneRuns s l then laneStart l (s.fld (LANE_STATUS.RATE l)) s else s

/-- Any mode transition ends every loopback (R409). -/
def loopsEnd (s : State) : State :=
  (List.range 26).foldl (fun s l => if s.fld (LANE_STATUS.LOOP l) = 0 then s else (loopEnd l s).setFld (LANE_LOOP.MODE l) 0) s

/-- The registers of lane `l` can be written (R421). -/
def laneOn (s : State) (l : Nat) : Bool := s.domainOn (laneDomain l) && (s.mode != 7 || l == 24)

def execLaneLoopWrite (lane : Fin 26) (value : Word) (s : State) : Host.Outcome State Fault Refusal :=
  let l := lane.val
  let s := busOk 0 s
  let v := value.toNat
  let mode := bits v 18 16
  let gen := bits v 14 12
  let chk := bits v 10 8
  if laneOn s l = false then .next s
  else if (mode ≠ 0 ∨ gen ≠ 0 ∨ chk ≠ 0) ∧ loopAllowed s l = false then .next (postKind 4 13 l (LANE_LOOP.MODE l).addr s)
  else
    let s := if chk = s.fld (LANE_LOOP.CHK l) then s else s.setFlag (LANE_PRBS_ERR.SYNC l) false
    let s := ((s.setFld (LANE_LOOP.MODE l) mode).setFld (LANE_LOOP.GEN l) gen).setFld (LANE_LOOP.CHK l) chk
    let s := if 4 ≤ mode then postActsAs 13 l (LANE_LOOP.MODE l).addr s else s
    let act := if 4 ≤ mode then 0 else mode
    if act = 0 then .next (loopEnd l s) else .next (s.setFld (LANE_STATUS.LOOP l) act)

/-- `LANE_LOOP.CLEAR` (R410). -/
def execLanePrbsClear (lane : Fin 26) (s : State) : Host.Outcome State Fault Refusal :=
  let l := lane.val
  let s := busOk 0 s
  if laneOn s l = false then .next s
  else .next ((s.setFlag (LANE_PRBS_ERR.SYNC l) false).setFld (LANE_PRBS_ERR.ERRORS l) 0)

/-- What the pattern checker found in an interval (R410), the errors of a slip of the elastic buffer among them (R408); a port without
a link checks too (R409). -/
def prbsInterval (l errors : Nat) (synced : Bool) (s : State) : State :=
  let chk := s.fld (LANE_LOOP.CHK l)
  if chk = 0 ∨ 5 ≤ chk ∨ synced = false then s
  else
    let s := (s.setFlag (LANE_PRBS_ERR.SYNC l) true).addFld (LANE_PRBS_ERR.ERRORS l) errors
    if errors = 0 then s else s.setFlag (LANE_EVENT.PRBS_ERR l) true

/-- What a lane's transmitter sends. -/
inductive LaneOutput where
  | idle                          -- electrical idle
  | farEnd                        -- the received bits (R408)
  | pattern (gen : Nat)           -- PRBS of GEN (R410)
  | protocol
  deriving DecidableEq, Repr

/-- What lane `l` sends (R402, R408, R410, R418). -/
def laneOutput (s : State) (l : Nat) : LaneOutput :=
  let loop := s.fld (LANE_STATUS.LOOP l)
  let gen := s.fld (LANE_LOOP.GEN l)
  if laneOn s l = false ∨ loop = 1 ∨ loop = 2 ∨ laneRetired s l ∨ s.flag (LANE_STATUS.TX_SLEEP l) then .idle
  else if loop = 3 then .farEnd
  else if 1 ≤ gen ∧ gen ≤ 4 then .pattern gen
  else if laneRuns s l then .protocol
  else .idle

/-- The lane's transmitted polarity is inverted (R411). -/
def laneTxInverted (s : State) (l : Nat) : Bool := (laneTable s l).pol.testBit 0

/-- Its received polarity is inverted by the table; on PCIe the Base Specification decides (R412). -/
def laneRxInverted (s : State) (l : Nat) : Bool := decide (16 ≤ l) && (laneTable s l).pol.testBit 1

/-! ### Adaptation (R413 to R416) -/

/-- The floor of the figure of merit: `LANE_CFG.FOM_FLOOR`, or the record's where that is 0 (R413). -/
def fomFloor (s : State) (l : Nat) (r : LaneRec) : Nat :=
  if s.fld (LANE_CFG.FOM_FLOOR l) = 0 then r.floor else s.fld (LANE_CFG.FOM_FLOOR l)

/-- The step in trial is kept when the FOM rose, else undone, and its setting turns round (R415). -/
def judgeTrial (fom : Nat) (x : Lane) : Lane :=
  match x.trial with
  | none => x
  | some k =>
    if x.lastFom < fom then { x with trial := none }
    else
      let d : Int := if x.up.getD k true then 1 else -1
      { x with trial := none, moved := modAt x.moved k (fun m => m - d), up := modAt x.up k (fun u => !u) }

/-- The next setting in the rotation takes a step, unless that would leave 3 steps from the table or the range of the code
(R415). -/
def nextTrial (r : LaneRec) (x : Lane) : Lane :=
  let k := x.turn
  let d : Int := if x.up.getD k true then 1 else -1
  let m := x.moved.getD k 0 + d
  let v := r.setting k + m
  let y := { x with turn := (k + 1) % 6 }
  let low : Int := if k = 0 then 0 else -32
  if m < -3 ∨ 3 < m ∨ v < low ∨ 31 < v then y else { y with trial := some k, moved := modAt x.moved k (fun _ => m) }

/-- The end of a 1 ms interval (R413 to R416): the FOM, whether 90 % of the windows were sufficient and the last one was, and
what the pattern checker found. -/
def execLaneFomInterval (lane : Fin 26) (fom : Fin 256) (sufficient lastOk synced : Bool) (errors : Nat) (s : State) :
    Host.Outcome State Fault Refusal :=
  let l := lane.val
  if laneOn s l = false then .next s
  else if laneRuns s l = false then .next (prbsInterval l errors synced s)
  else
    let s := prbsInterval l errors synced ((s.setFld (LANE_STATUS.FOM l) fom.val).setFlag (LANE_STATUS.ENTROPY_OK l) lastOk)
    let frozen := !sufficient || s.flag (LANE_STATUS.RX_SLEEP l) || !laneHasLock s l
    let s := s.setFlag (LANE_STATUS.FROZEN l) frozen
    let x := laneOf s l
    let r := laneTable s l
    let below := decide (fom.val < fomFloor s l r)
    if frozen then .next s
    else if below ∧ x.low then
      let s := laneReturn l s
      let s := modLane l (fun x => { x with holdoff := some s.ticks, lastFom := fom.val }) s
      .next (laneFlag LANE_EVENT.REVERT .info l (s.addFld (LANE_CNT.REVERTS l) 1))
    else
      let waits := x.holdoff.any (fun t => s.elapsedNs t 100000000 == false)
      let y := if s.flag (LANE_CFG.ADAPT_EN l) ∧ waits = false then nextTrial r (judgeTrial fom.val x) else x
      .next (laneShow l (modLane l (fun _ => { y with low := below, lastFom := fom.val }) s))

/-- Phase 3 of PCIe equalisation: the figure of merit of the preset requested last (R417). -/
def execPcieEqPresetTrial (lane : Fin 26) (rate : Fin 3) (fom : Fin 256) (s : State) : Host.Outcome State Fault Refusal :=
  let l := lane.val
  if 16 ≤ l ∨ s.domainOn (laneDomain l) = false then .next s
  else
    let r := (laneRecord s l rate.val).getD (laneDefault l rate.val)
    let x := laneOf s l
    let tried := if x.preset.isSome then [] else x.eq
    let s := if tried.isEmpty then s.setFlag (LANE_STATUS.EQ_LOW l) false else s
    let presets := r.preset :: r.alts
    let p := presets.getD tried.length r.preset
    let eq := tried ++ [(p, fom.val)]
    if fomFloor s l r ≤ fom.val then .next (modLane l (fun x => { x with eq := eq, preset := some p }) s)
    else if eq.length < presets.length then .next (modLane l (fun x => { x with eq := eq, preset := none }) s)
    else
      let best := eq.foldl (fun b e => if b.2 < e.2 then e else b) (p, 0)
      let best := if best.2 = 0 then (eq.head?.getD best) else best
      let s := modLane l (fun x => { x with eq := eq, preset := some best.1 }) s
      .next (laneFlag LANE_EVENT.EQ_LOW .warning l (s.setFlag (LANE_STATUS.EQ_LOW l) true))

/-- `LANE_CNT_CTRL.CLEAR`. -/
def execLaneCounterClear (s : State) : Host.Outcome State Fault Refusal :=
  .next ((List.range 26).foldl (fun s l => (s.setFld (LANE_CNT.LOSSES l) 0).setFld (LANE_CNT.REVERTS l) 0) (busOk 0 s))

end Sys2Proof.Machine
end

