-- ==== Sys2Proof/Machine/ModeCore.lean ====
section
/-! DEFINITION. Entering a mode: the domain table of R41, the rails that follow it (R532, R534), and what the blocks do with
the mode itself (R53, R388, R409, R447). -/

namespace Sys2Proof.Machine

/-- A mode cue of the pending or active stack. -/
def modeCueOf (s : State) (slot : Option Nat) : Option Cue := slot.bind (keyGet s.cue.slots)

/-- DOMAIN_MASK of a mode cue slot. -/
def maskOf (s : State) (slot : Option Nat) : Nat := ((modeCueOf s slot).map (fun c => c.domainMask)).getD 0

/-- The slot of the mode cue that the base configuration names for mode `m` (R56). -/
def baseModeCue (s : State) (m : Nat) : Option Nat := if 2 ≤ m then s.cue.base.modeCue[m - 2]? else none

/-! ### Rails -/

/-- A rail is on while domains `ds` are (R534). -/
def railWanted (ds : List Nat) (r : RailRec) : Bool := r.follow == 0 || ds.any (fun d => r.follow.testBit d)

/-- PWR_EN and PWR_PG of rails 1 to 7 for domains `ds`; a rail's PG is read where its record uses it (R532, R534). -/
def setRails (ds : List Nat) (s : State) : State :=
  let on := s.power.rails.filter (railWanted ds)
  let en := (on.map (fun r => 2 ^ r.rail)).sum
  let pg := ((on.filter (fun r => r.pgUsed)).map (fun r => 2 ^ r.rail)).sum
  (s.setFld POWER_RAIL.EN (s.fld POWER_RAIL.EN % 2 + en)).setFld POWER_RAIL.PG (s.fld POWER_RAIL.PG % 2 + pg)

/-- Rails that domains `ds` need and that are off. -/
def railsToRaise (ds : List Nat) (s : State) : List RailRec :=
  s.power.rails.filter (fun r => railWanted ds r && !(s.fld POWER_RAIL.EN).testBit r.rail)

/-- Microseconds in which the rails that domains `ds` do not need fall, one after the other (R532 step 3). -/
def offTime (ds : List Nat) (s : State) : Nat :=
  ((s.power.rails.filter (fun r => !railWanted ds r && (s.fld POWER_RAIL.EN).testBit r.rail)).map (·.offDelay)).sum

/-- EN of rails `up` is asserted (R532 step 4); `old` is PWR_EN before the first of them, `off` the time in which
others fall first. -/
def raiseRails (up : List RailRec) (old off : Nat) (ports : Bool) (s : State) : State :=
  let s := up.foldl (fun s r => s.orBit POWER_RAIL.EN r.rail) s
  { s with power := { s.power with rise := some { since := s.ticks, old := old, off := off, delay := (up.map (·.onDelay)).sum, ports := ports } } }

/-- The rails that domains `ds` need have risen, or start to: what needs them waits for their ON_DELAY_US and their PG, and the row
that does it comes again (R532, R536). -/
def railsReady (ds : List Nat) (s : State) : Bool × State :=
  let up := railsToRaise ds s
  let waiting := s.power.rise.filter (fun r => !r.ports)
  if up.isEmpty = false then (false, raiseRails up ((waiting.map (·.old)).getD (s.fld POWER_RAIL.EN)) (offTime ds s) false s)
  else match waiting with
    | some r => if s.elapsedNs r.since ((r.off + r.delay) * 1000) then (true, { s with power := { s.power with rise := none } }) else (false, s)
    | none => (true, s)

/-- The latency of a transition that ends now (R533). -/
def recordXfer (src dst start : Nat) (s : State) : State :=
  let us := (s.ticks - start) / 400
  let s := ((s.setFld POWER_XFER.FROM src).setFld POWER_XFER.TO dst).setFld POWER_XFER.US (min (2 ^ 24 - 1) us)
  s.setFlag POWER_EVENT.XFER_DONE true

/-- The domains that are on. -/
def domainsNow (s : State) : List Nat := (List.range 30).filter (fun d => s.domainOn d)

/-! ### Domains -/

/-- The domains of mode `m` with DOMAIN_MASK `mask`; the sensor ports stay off while they are held (R41, R51). -/
def wantedDomains (m mask : Nat) (held : Bool) : List Nat :=
  (modeDomains m mask).filter (fun d => !(held && decide (6 ≤ d) && decide (d ≤ 9)))

/-- The links that lose their power with domains `ds` go down first, with what that brings (R424, R435, R472). -/
def linksDown (ds : List Nat) (s : State) : State :=
  let s := if ds.contains 25 ∧ s.domainOn 25 then kOff 1 (kOff 0 s) else s
  if ds.contains 26 ∧ s.domainOn 26 then netLost 1 (netLost 0 s) else s

/-- Domains `ds` lose their power with their links. -/
def powerOff (ds : List Nat) (s : State) : State := domainsOff ds (linksDown ds s)

/-- Dark, held, entered while the device may run links. -/
def goDark (cause : DarkCause) (s : State) : State := darkHeld cause (linksDown allDomains s)

/-- Domains off in descending order, rails, domains on in ascending order (R532). -/
def switchDomains (ds : List Nat) (s : State) : State :=
  let s := powerOff (allDomains.filter (fun d => !ds.contains d)) s
  domainsUp ds (setRails ds s)

/-- Company is held while its cores have no power, and starts anew when they have it again (R41). -/
def companyPower (m : Nat) (s : State) : State :=
  if m = 7 then { s with call := { s.call with companyHeld := true, restart := none } }
  else if s.mode = 7 then { s with call := { s.call with companyHeld := false, coKick := s.ticks } }
  else s

/-- The device enters mode `m`: loopbacks end, domains and rails follow, CUE_STATUS.MODE shows it (R44, R388, R409, R435,
R447). -/
def enterMode (m mask : Nat) (held : Bool) (s : State) : State :=
  let old := s.mode
  let s := companyPower m (loopsEnd s)
  let ds := wantedDomains m mask held
  let s := powerOff (allDomains.filter (fun d => !ds.contains d)) s
  let s := (s.setFld CUE_STATUS.MODE m).setFlag CUE_STATUS.PORTS_HELD held
  let s := domainsUp ds (setRails ds s)
  let s := { s with power := { s.power with rise := none } }
  let s := s.setFlag DRAM_STATUS.SR (m == 7)
  let s := if m = 7 then { s with mem := { s.mem with codeBuf := [] } } else s
  if m = 7 then netMidnight s else if old = 7 then netWake s else s

end Sys2Proof.Machine
end

