-- ==== Sys2Proof/Machine/CuePoint.lean ====
section
/-! DEFINITION. The cue point (R63 to R65, R69 to R72): what makes one, and what it does; the arming of a commit with its
admission check (R51, R386, R387); the sources of references. -/

namespace Sys2Proof.Machine

def setCue (c : CueState) (s : State) : State := { s with cue := c }

/-! ### The register image takes effect -/

/-- Registers of shadowed and RWC fields, with the mask of those: what the image sets at the cue point (R64, R67). -/
def keptRegs : List (Nat × Word) :=
  ((regGroups.map expandGroup).flatten.map (fun e => (e.1, e.2.maskOf FieldDef.isKept))).filter (fun e => e.2 != 0)

/-- The word of register `e` under an image. -/
def imageWord (s : State) (img : CommitImage) (e : Nat × Word) : Word :=
  (s.word e.1 &&& ~~~e.2) ||| (imageValue s img e.1 &&& e.2)

/-- The registers that an image changes. -/
def imageChanges (s : State) (img : CommitImage) : List (Nat × Word) :=
  (keptRegs.filter (fun e => imageWord s img e != s.word e.1)).map (fun e => (e.1, imageWord s img e))

/-- The pool's registers are held back while a handle is allocated (R512). -/
def poolHeld (s : State) : Bool := s.domainOn 27 && !poolAllFree s

/-- All shadowed and RWC fields take their values; line-timed fields that entries name go to their shadows (R64, R66,
R508). Answers the registers changed. -/
def applyImage (img : CommitImage) (s : State) : List Nat × State :=
  let all := imageChanges s img
  let hold := poolHeld s && all.any (fun e => poolRegs.contains e.1)
  let changes := all.filter (fun e => !(hold && poolRegs.contains e.1))
  let lines := changes.any (fun e => e.1 == VIEW_TIMING.LINE_NS.addr || e.1 == VIEW_PANEL.PH.addr)
  let t := changes.foldl (fun s e => s.setWord e.1 e.2) (if lines then viewRebase s else s)
  let t := img.lines.foldl (fun s e => shadowWrite e.1 ((shadowValue s e.1 &&& ~~~e.2) ||| (imageValue s img e.1 &&& e.2)) s) t
  (changes.map (fun e => e.1), if s.domainOn 27 then t.setFlag VIEW_STATUS.POOL_DEFER hold else t)

/-- The banks of every rebuilt table swap (R63). -/
def swapTables (img : CommitImage) (s : State) : State :=
  setCue { s.cue with
    tables := img.tables.foldl (fun m e => keySet m e.1 e.2) s.cue.tables, tableSrc := img.tableSrc
    swaps := img.tables.foldl (fun m e => keySet m e.1 ((keyGet m e.1).getD 0 + 1)) s.cue.swaps } s

/-- The sensor ports that a failed admission held off are powered as the configuration states (R51). -/
def releasePorts (img : CommitImage) (s : State) : State :=
  if s.flag CUE_STATUS.PORTS_HELD && img.passed then
    let ds := wantedDomains s.mode (maskOf s img.stack.modeCue) false
    let up := railsToRaise ds s
    let s := if up.isEmpty then s else raiseRails up (s.fld POWER_RAIL.EN) 0 true s
    domainsUp ds (setRails ds (s.setFlag CUE_STATUS.PORTS_HELD false))
  else s

/-- CUE_EPOCH and the captured time and frame (R72). -/
def captureCue (frame : Nat) (s : State) : State :=
  let s := s.wrapFld CUE_EPOCH.EPOCH 1
  let s := (s.setFld CUE_POINT_NS.DATA s.time.ns).setFld CUE_POINT_SEC.DATA s.time.sec.toNat
  s.setFld64 CUE_POINT_FRAME_LO.DATA CUE_POINT_FRAME_HI.DATA frame

/-- The cue point of image `img`; `frame` gives the number of the reference frame, 0 where there is none (R64, R72). -/
def cuePoint (synthetic : Bool) (frame : State → Nat) (img : CommitImage) (s : State) : State :=
  let o := s
  let (changed, s) := applyImage img s
  let c : CueChange :=
    { changed := changed, tables := img.tables.map (fun e => e.1), first := !s.cue.firstDone, enters := img.enters }
  let s := swapTables img s
  let s := setCue { s.cue with active := img.stack, commit := .idle, firstDone := true } s
  let s := captureCue (frame s) s
  let s := if synthetic then postFlag CUE_STATUS.SYNTH CUE_STATUS.SYNTH.lo .info 1 0xFF 0 s else s
  blocksCuePoint c o (releasePorts img s)

/-! ### References (R69, R70) -/

/-- REFSRC in force: 6 and 7 act as 4. -/
def refSource (s : State) : Nat := if 5 < s.fld CUE_CTRL.REFSRC then 4 else s.fld CUE_CTRL.REFSRC

/-- A commit armed less than 2 µs ago is late for this reference, and counted once (R69). -/
def cueLate (s : State) : State :=
  if s.cue.late then s
  else postFlag CUE_STATUS.LATE CUE_STATUS.LATE.lo .info 1 0xFF 0
    (setCue { s.cue with late := true } (s.addFld CUE_COUNT.LATE 1))

/-- A reference of the selected source arrives: the cue point of an armed commit, unless it is late or already waits for a
synthetic one (R69, R70). -/
def reference (frame : State → Nat) (s : State) : State :=
  match s.cue.commit with
  | .armed img t deferred =>
    if deferred then s else if s.elapsedNs t 2000 then cuePoint false frame img s else cueLate s
  | _ => s

/-- The Frame Start of port `p` that opens a frame, as a reference (R70, R115): of the reference port, or of a member of its
group. -/
def frameReference (p : Nat) (s : State) : State :=
  if refSource s < 4 ∧ refPort s (refSource s) = refPort s p then reference nextNum s else s

/-- A Frame Start (R109, R115, R116, R122, R131, R132, R69), after which the ranges that gave way to it are placed (R233). -/
def execFrameStart (port : Fin 4) (vc : Fin 16) (number : BitVec 16) (corrected : Bool) (s : State) :
    Host.Outcome State Fault Refusal :=
  .next (placeAfterStarts (frameStart port.val vc.val number.toNat corrected (frameReference port.val) s))

/-- Device time reaches the next grid point of the frame schedule (R441): it is counted, a reference for source 4, and the moment of a synthetic cue point
that waits for it (R70). -/
def execScheduleTick (s : State) : Host.Outcome State Fault Refusal :=
  if schedOn s = false ∨ s.nowNs < gridTime s s.clock.grid then .next s
  else
    let s := setClock { s.clock with grid := s.clock.grid + 1 } (s.wrapFld TIME_SCHED_COUNT.TICKS 1)
    match s.cue.commit with
    | .armed img t true => .next (if s.elapsedNs t 2000 then cuePoint true (fun _ => 0) img s else s)
    | _ => .next (if refSource s = 4 then reference (fun _ => 0) s else s)

/-- The timeout for a reference: CUE_REF_TIMEOUT (0 acts as 1, above 1,000 as 1,000) has passed since tick `t`, at which the commit was armed, or
counts as expired at once, for the reference port is off, or REFSRC is 4 while no schedule serves (R70). -/
def refTimedOut (s : State) (t : Nat) : Bool :=
  s.elapsedNs t (clamp 1 1000 (s.fld CUE_REF_TIMEOUT.MS) * 1000000) ||
  (decide (refSource s < 4) && !s.domainOn (6 + refPort s (refSource s))) || (refSource s == 4 && !schedOn s)

/-- No reference for CUE_REF_TIMEOUT after arming (R70). -/
def execCueRefTimeout (s : State) : Host.Outcome State Fault Refusal :=
  match s.cue.commit with
  | .armed img t deferred =>
    if refTimedOut s t = false ∨ (deferred ∧ schedOn s) then .next s
    else if refSource s < 4 ∧ schedOn s then .next (setCue { s.cue with commit := .armed img t true } s)
    else .next (cuePoint true (fun _ => 0) img s)
  | _ => .next s

/-! ### Arming (R51, R68, R174, R386, R387) -/

/-- The value that a commit gives a configuration field. -/
def imageFld (s : State) (img : CommitImage) (f : Fld) : Nat := bits (imageValue s img f.addr).toNat (f.lo + f.width - 1) f.lo

/-- The admission check of R386 on image `img` in mode `m`. -/
def admitImage (img : CommitImage) (m : Nat) (s : State) : Bool × State :=
  admission (imageFld s img) m (maskOf s img.stack.modeCue) s

/-- A frame in development still reads the bank of a PIPE table that the commit rebuilds, which is the one that is not active: the banks
have swapped since the frame began (R63, R174). -/
def bankBusy (s : State) (img : CommitImage) : Bool :=
  img.tables.any (fun e => e.1.1 == 0x08 && s.pipe.ports.any (fun q =>
    q.job.any (fun j => (j.swaps.getD e.1.2 0) % 2 != (keyGet s.cue.swaps e.1).getD 0 % 2)))

/-- The commit is armed (R68); a reference source of 6 or 7 acts as 4, with a warning. -/
def armCommit (img : CommitImage) (s : State) : State :=
  let s := setCue { s.cue with commit := .armed img s.ticks false, late := false } s
  if 5 < s.fld CUE_CTRL.REFSRC then postActsAs 1 0xFF CUE_CTRL.REFSRC.addr s else s

/-- The first commit after Dawn: once its rails are up the device enters Rehearsal, its sensor ports held when the admission fails
(R44, R51, R533). -/
def armFirst (img : CommitImage) (s : State) : State :=
  let mask := maskOf s img.stack.modeCue
  let (ready, s) := railsReady (wantedDomains 2 mask false) s
  if ready = false then s
  else
    let (ok, s) := admitImage img 2 s
    let s := if ok then s else refuseMode 2 2 s
    armCommit { img with passed := ok } (recordXfer 1 2 s.power.releasedAt (enterMode 2 mask (!ok) s))

/-- Preparation ends: the admission check, then the commit is armed or discarded (R51, R68, R387). -/
def execCommitArmed (s : State) : Host.Outcome State Fault Refusal :=
  match s.cue.commit with
  | .preparing img =>
    if bankBusy s img then .next s
    else if img.passed then .next (armCommit img s)
    else if s.mode = 1 then .next (armFirst img s)
    else if 2 ≤ s.mode ∧ s.mode ≤ 5 then
      let (ok, s) := admitImage img s.mode s
      if ok then .next (armCommit { img with passed := true } s)
      else .next (setCue { s.cue with commit := .idle, pending := s.cue.active } s)
    else .next (armCommit { img with passed := false } s)
  | _ => .next s

/-- CUE_COMMIT.GO (R68, R73, R394). -/
def execCueCommit (s : State) : Host.Outcome State Fault Refusal := .next (acceptCommit (busOk 0 s))

/-! ### Playback (R280) -/

/-- The output of a decode as a frame of port 0 (R140, R280). -/
def playbackSrc (d : DecodeJob) (i : CodedInfo) : PipeSrc :=
  { num := i.num, port := i.src / 64, vc := i.src % 16, fs := i.fs, addr := d.dst, live := false
    d := { en := true, seqchk := false, vc := i.src % 16, dt := i.dt, cfa := i.cfa, embMax := i.emb.length, width := i.wd,
           height := i.ht } }

/-- The playback frame start: a reference for source 5, and the frame is presented to the pipeline (R70, R280). -/
def playbackStart (d : DecodeJob) (i : CodedInfo) (s : State) : State :=
  offerFrame (playbackSrc d i) (if refSource s = 5 then reference (fun _ => i.num) s else s)

/-- A decode ends (R276 to R280). -/
def execDecodeComplete (s : State) : Host.Outcome State Fault Refusal :=
  match s.rawc.dec with
  | none => .next s
  | some d =>
    let s := poisonWarn 7 0xFF d.src d.len s
    match checkCoded (s.dramBytes d.src d.len) d.size with
    | .inl r => .next (decodeBad r s)
    | .inr i =>
      let t := decodeGood d i s
      .next (if t.flag RAWC_DEC_CTRL.PLAY then playbackStart d i t else t)

end Sys2Proof.Machine
end

