-- ==== Sys2Proof/Machine/Modes.lean ====
section
/-! DEFINITION. Transitions between modes: requests and their refusals (R44 to R52), the drain (R47, R48), the switch of
domains (R532), wakes from Midnight (R53), and the Intermission of the safe state (R560). -/

namespace Sys2Proof.Machine

/-- The code of a mode. -/
def modeCode : Mode → Nat
  | .dark => 0 | .dawn => 1 | .rehearsal => 2 | .performance => 3 | .wings => 4 | .encore => 5 | .intermission => 6
  | .midnight => 7

/-- The transitions that a request may ask for (R44). -/
def modeAllowed (src dst : Nat) : Bool :=
  match src with
  | 2 => 3 ≤ dst && dst ≤ 7
  | 3 | 4 | 5 => dst == 2 || dst == 6
  | 6 => (2 ≤ dst && dst ≤ 5) || dst == 7
  | _ => false

/-- The mode cue of mode `m`, as the base configuration names it, is a valid cue (R57). -/
def modeCueOk (s : State) (m : Nat) : Bool :=
  (baseModeCue s m).any (fun n => slotValid s n &&
    ((keyGet s.cue.slots n).any (fun c => c.kind == 1 && c.mode == m)))

/-- The stack that a transition into mode `m` makes active: the base configuration and its mode cue (R44, R57). -/
def modeStack (s : State) (m : Nat) : CueStack :=
  { modeCue := if modeCueOk s m then baseModeCue s m else none, users := [], overlay := [] }

/-- The register image of that stack. -/
def modeImage (s : State) (m : Nat) : CommitImage := buildImage s (modeStack s m)

/-- A LEDGER table as an image leaves it. -/
def imageTable (s : State) (img : CommitImage) (n : Nat) : Sparse 8 :=
  (keyGet img.tables (0x10, n)).getD (s.table 0x10 n)

/-- The Wings mode cue, which the base configuration names, holds the mode (R52). -/
def wingsLocked (s : State) : Bool :=
  s.mode == 4 && ((modeCueOf s (baseModeCue s 4)).any (fun c => c.flags.testBit 0))

/-! ### The switch -/

/-- The domains of a transition's new mode. -/
def newDomains (s : State) (t : Transition) : List Nat :=
  wantedDomains t.dst t.mask (s.flag CUE_STATUS.PORTS_HELD || t.held)

/-- Domain `d` goes off in transition `t`. -/
def domainLeaves (s : State) (t : Transition) (d : Nat) : Bool := s.domainOn d && !(newDomains s t).contains d

/-- The commit of the base configuration and the new mode cue is armed, once no frame reads a bank that it rebuilds (R174); a commit
in progress is merged into it (R44, R71). The warning about CUE_REF_TIMEOUT is posted where firmware or a selection entry commits, and
not here (DEDUCED, assumption 48). -/
def commitMode (m : Nat) (passed : Bool) (s : State) : State :=
  let st := modeStack s m
  let img := { buildImage s st with enters := some m, passed := passed }
  let s := if s.cue.commit = .idle then s else s.addFld CUE_COUNT.MERGED 1
  if bankBusy s img then setCue { s.cue with pending := st, commit := .preparing img } s else armCommit img (setPending st s)

/-- The new mode is entered: no range outlives Performance or Wings (R48), committed frames that leave Intermission unwritten are lost
(R242), takes open (R317). -/
def completeEntry (m mask : Nat) (held passed : Bool) (s : State) : State :=
  let s := if s.mode = 3 ∨ s.mode = 4 then endAllRanges (s.mode == 4) s else s
  let s := if s.mode = 6 ∧ m ≠ 3 ∧ m ≠ 4 ∧ m ≠ 6 then abortPending s else s
  let s := commitMode m passed (enterMode m mask held s)
  if m = 3 ∨ m = 4 then openTakes s else s

/-- A transition is in progress. -/
def setXfer (t : Option Transition) (s : State) : State :=
  let s := (s.setFlag CUE_STATUS.XFER t.isSome).setFlag POWER_STATUS.XFER t.isSome
  { s with power := { s.power with xfer := t } }

/-- An accepted request: a slot-rewrite session ends without its header (R102), the drain starts when Performance or Wings is left
(R47), and Footlights stops its panel when its power goes (R499). -/
def beginTransition (t : Transition) (s : State) : State :=
  let s := setXfer (some t) (abortSession s)
  if domainLeaves s t 27 then viewEnds s else s

def transitionTo (s : State) (m : Nat) (held : Bool) : Transition :=
  { src := s.mode, dst := m, start := s.ticks, draining := s.mode == 3 || s.mode == 4
    mask := maskOf s (modeStack s m).modeCue, held := held }

/-! ### Requests -/

/-- The endurance check for Wings (R316): the magazines that fail it get ARM_REFUSED. -/
def enduranceCheck (img : CommitImage) (s : State) : Bool × State :=
  let bad := armFailures s (imageTable s img 2) (imageTable s img 3)
  (bad.isEmpty, bad.foldl (fun s k => magMark 6 k s) s)

/-- The checks of R50 on the configuration of mode `m`: the number of the one that fails, if any. -/
def entryChecks (m : Nat) (s : State) : Option Nat × State :=
  let img := modeImage s m
  let (ok, s) := if 2 ≤ m ∧ m ≤ 5 then admitImage img m s else (true, s)
  if ok = false then (some 2, s)
  else if m = 4 then
    let (fit, s) := enduranceCheck img s
    (if fit then none else some 3, s)
  else (none, s)

/-- The checks that need no arithmetic: busy, table, mode cue, Wings lock, lifecycle (R45, R46, R52, R57, R94). -/
def requestCheck (m : Nat) (s : State) : Option Nat :=
  if s.power.xfer.isSome ∨ s.call.safePending then some 1
  else if modeAllowed s.mode m = false then some 0
  else if modeCueOk s m = false then some 6
  else if wingsLocked s ∧ privilege s = false then some 4
  else if (m = 3 ∨ m = 4) ∧ lifecycleCode s ≠ 1 ∧ lifecycleCode s ≠ 2 then some 5
  else none

/-- A mode request (R44 to R52). A lifted Wings lock programs its record (R52). -/
def execModeRequest (mode : Mode) (s : State) : Host.Outcome State Fault Refusal :=
  let m := modeCode mode
  match requestCheck m s with
  | some c => .next (refuseMode m c s)
  | none =>
    match entryChecks m s with
    | (some c, s) => .next (refuseMode m c s)
    | (none, s) =>
      let s := if wingsLocked s then privRecord 0x11 0xFF [] s else s
      .next (beginTransition (transitionTo s m false) s)

/-! ### The drain and the end of a transition -/

/-- No port has a frame open. -/
def portsClosed (s : State) : Bool := s.ingest.all (fun p => p.opens.isEmpty)

/-- The frames in progress are closed, every trigger received has its place and the last disposition is final: the ranges end at
the last frame received (R47, R48). The takes close under R324, by the firmware's CLOSE or its 250 ms bound. -/
def execDrainEnd (s : State) : Host.Outcome State Fault Refusal :=
  match s.power.xfer with
  | some t =>
    if t.draining ∧ portsClosed s ∧ s.ledger.placements = [] ∧ allFinal s then
      .next (endAllRanges (s.mode == 4) (setXfer (some { t with draining := false }) s))
    else .next s
  | none => .next s

/-- Closed frames of domain 20 are linked before it goes off (R288). -/
def linkFirst (t : Transition) (s : State) : State :=
  if domainLeaves s t 20 then linkAll s.ledger.frames.length s else s

/-- Every block that goes off is quiet (R532 step 1, R133, R47, R288, R499). -/
def transitionQuiet (t : Transition) (s : State) : Bool :=
  !t.draining &&
  (List.range 4).all (fun p => !(domainLeaves s t (6 + p)) || s.ingest.all (fun x => x.opens.all (fun f => f.members.all
      (fun m => m.port != p)))) &&
  (!(t.src == 3 || t.src == 4) || (noTake s && portsClosed s)) &&
  (!domainLeaves s t 20 || chainQuiet s) &&
  (!domainLeaves s t 27 || panelState s == 0)

/-- The transition may end: its blocks are quiet, and the rails that fall and rise with it have had OFF_DELAY_US and ON_DELAY_US
(R532 to R534). -/
def transitionReady (t : Transition) (s : State) : Bool :=
  let ds := newDomains s t
  transitionQuiet t s && s.elapsedNs t.start ((offTime ds s + ((railsToRaise ds s).map (·.onDelay)).sum) * 1000)

/-- Domains and rails are switched, the new mode is entered (R44, R532). -/
def finishTransition (t : Transition) (s : State) : State :=
  let s := if domainLeaves s t 25 then sendLeaving s else s
  let held := s.flag CUE_STATUS.PORTS_HELD || t.held
  recordXfer t.src t.dst t.start (setXfer none (completeEntry t.dst t.mask held (2 ≤ t.dst && t.dst ≤ 5 && !t.held) s))

def execTransitionComplete (s : State) : Host.Outcome State Fault Refusal :=
  match s.power.xfer with
  | none => .next s
  | some t =>
    let s := linkFirst t s
    if transitionReady t s then .next (finishTransition t s) else .next s

/-! ### Wakes (R53) -/

/-- A wake event into mode `m`, in Midnight with no exit in progress; Rehearsal passes the admission check, and its ports
are held when that fails. -/
def wakeTo (m : Nat) (s : State) : State :=
  if s.mode ≠ 7 ∨ s.power.xfer.isSome then s
  else
    let (ok, s) := if m = 2 then admitImage (modeImage s m) m s else (true, s)
    let s := if ok then s else refuseMode m 2 s
    beginTransition (transitionTo s m (!ok)) s

/-- A wake that device time or a wake frame brings shows in TIME_EVENT; one that comes while the exit is in progress changes nothing
(R53). -/
def wakeUp (m : Nat) (s : State) : State := if s.power.xfer.isSome then s else wakeTo m (s.orBit TIME_EVENT.EVENT 0)

/-- WAKE_MODE and FRAME_MODE name a mode. -/
def wakeMode (b : Bool) : Nat := if b then 6 else 2

/-- The alarm fires (R437) and interrupts the Stage Manager and Company; in Midnight it wakes the device, a pending wake frame's alarm into the mode it named (R53). -/
def alarmFires (s : State) : State :=
  let framed := s.flag TIME_KA_STATUS.FRAME_ALARM
  let m := wakeMode (if framed then s.flag TIME_KA_STATUS.FRAME_MODE else s.flag TIME_KA_CTRL.WAKE_MODE)
  let s := ((s.setFlag TIME_ALARM_SEC_HI.EN false).setFlag TIME_KA_STATUS.FRAME_ALARM false).orBit TIME_EVENT.EVENT 5
  let s := { s with call := { s.call with coIrqs := s.call.coIrqs + 1, smIrqs := s.call.smIrqs + 1 } }
  if s.mode = 7 then wakeUp m s else s

/-- The alarm's device time in nanoseconds. -/
def alarmNs (s : State) : Nat :=
  (s.fld TIME_ALARM_SEC_LO.VALUE + 2 ^ 32 * s.fld TIME_ALARM_SEC_HI.SEC) * 1000000000 + s.fld TIME_ALARM_NS.VALUE

def execAlarmFire (s : State) : Host.Outcome State Fault Refusal :=
  if s.flag TIME_ALARM_SEC_HI.EN ∧ alarmNs s ≤ s.nowNs then .next (alarmFires s) else .next s

/-- A wake frame names this device: by its ID, by its array index, or all devices. -/
def wakeNames (s : State) (b : List Byte) : Bool :=
  let id := (b.drop 4).take 16
  id == deviceId s || leAt b 20 2 == s.fld TIME_ARRAY.INDEX ||
    (id == List.replicate 16 0xFF && leAt b 20 2 == 0xFFFF)

/-- A wake frame on Ethernet port 0 (R448). -/
def execWakeFrame (payload : List Byte) (s : State) : Host.Outcome State Fault Refusal :=
  let m := leAt payload 22 1
  if s.mode ≠ 7 ∨ netUp s 0 = false ∨ s.flag TIME_KA_CTRL.WAKE_EN = false ∨ payload.length < 33 ∨
     payload.take 4 ≠ [0x45, 0x57, 0x41, 0x4B] ∨ wakeNames s payload = false ∨ (m ≠ 2 ∧ m ≠ 6) then .next s
  else
    let sec := leAt payload 23 6
    let ns := leAt payload 29 4
    if sec = 0 ∧ ns = 0 then .next (wakeUp m s)
    else
      let s := ((s.setFld TIME_ALARM_NS.VALUE ns).setFld TIME_ALARM_SEC_LO.VALUE sec).setFld TIME_ALARM_SEC_HI.SEC (sec / 2 ^ 32)
      let s := (s.setFlag TIME_ALARM_SEC_HI.EN true).setFlag TIME_KA_STATUS.FRAME_ALARM true
      .next (s.setFlag TIME_KA_STATUS.FRAME_MODE (m == 6))

/-- An edge on a TRIG pin with WAKE set, in Midnight (R53, R213). -/
def execTrigWakeEdge (pin : Fin 8) (s : State) : Host.Outcome State Fault Refusal :=
  if s.mode = 7 ∧ (s.tab 0x10 0 (16 * pin.val) 1).testBit 5 then
    .next (wakeTo (wakeMode (s.flag TIME_KA_CTRL.WAKE_MODE)) s)
  else .next s

/-! ### The safe state (R560) -/

/-- The frames are linked that must be before the safe state enters Intermission, where domain 20 is off whatever the domain table
(R41, R288, R560). -/
def safeLinked (s : State) : State := linkAll s.ledger.frames.length s

/-- Domain 20 is off, or every frame opened while it was on has been linked (R288). -/
def chainSafe (s : State) : Bool := !s.domainOn 20 || chainQuiet s

/-- The domain table of Intermission. -/
def safeMask (s : State) : Nat := maskOf s (modeStack s 6).modeCue

/-- The Footlights domain stays on in that Intermission, or its panel is off (R499). -/
def viewSafe (s : State) : Bool := (modeDomains 6 (safeMask s)).contains 27 || panelState s == 0

/-- The sensor ports have closed, the chain has taken their frames and the panel has stopped where its domain goes off, and the rails
that Intermission needs are up: Intermission, then the Company restart (R533, R560). The row comes again once all are. -/
def execSafeStatePortsClosed (s : State) : Host.Outcome State Fault Refusal :=
  let mask := safeMask s
  let s := if s.call.safePending ∧ portsClosed s then
      (if viewSafe s ∨ s.call.viewGoes then safeLinked s else viewGo (safeLinked s)) else s
  if s.call.safePending ∧ portsClosed s ∧ chainSafe s ∧ viewSafe s then
    let src := s.mode
    let (ready, s) := railsReady (wantedDomains 6 mask (s.flag CUE_STATUS.PORTS_HELD)) s
    if ready = false then .next s
    else
    let s := { s with call := { s.call with safePending := false } }
    let s := s.ledger.placements.foldl (fun s p => placeAll p s) (setLedger { s.ledger with placements := [] } s)
    .next (startRestart (recordXfer src 6 s.call.safeAt (completeEntry 6 mask (s.flag CUE_STATUS.PORTS_HELD) false s)))
  else .next s

end Sys2Proof.Machine
end

