-- ==== Sys2Proof/Machine/CueCmd.lean ====
section
/-! DEFINITION. The commands of the CUE block: stack operations (R60), the firmware overlay (R61) and cue loads (R57, R58). -/

namespace Sys2Proof.Machine

/-! ### Stack operations -/

/-- A stack operation written to `CUE_OP` (R60). -/
def cueOp (op level slot : Nat) (s : State) : State := doStackOp op level slot 0xFF CUE_OP.OP.addr (busOk 0 s)

def execPush (slot : Fin 64) (s : State) : Host.Outcome State Fault Refusal := .next (cueOp 0 0 slot.val s)

def execPop (s : State) : Host.Outcome State Fault Refusal := .next (cueOp 1 0 0 s)

def execReplace (level : Fin 4) (slot : Fin 64) (s : State) : Host.Outcome State Fault Refusal :=
  .next (cueOp 2 level.val slot.val s)

def execClear (s : State) : Host.Outcome State Fault Refusal := .next (cueOp 3 0 0 s)

def execClearFw (s : State) : Host.Outcome State Fault Refusal := .next (cueOp 4 0 0 s)

/-! ### The firmware overlay -/

/-- The power domains that a register is held in. Those of MAG are the registers of a port; its common registers, from 0x200 on,
belong to no port, and no rule takes them away with the two ports (chapter 10, *MAG registers*). -/
def holdingDomains (b off : Nat) : List Nat := if b = 0x24 ∧ 0x200 ≤ off then [] else targetDomains b off

/-- Every power domain that holds the register is off. Ethernet registers and all lanes but lane 24 count as off in Midnight
(R421). -/
def regDark (s : State) (off : Nat) : Bool :=
  let b := off / 0x10000
  let ds := holdingDomains b (off % 0x10000)
  (!ds.isEmpty && !ds.any (fun d => s.domainOn d)) ||
    (s.mode == 7 && (b == 0x30 || (b == 0x2C && decide (off % 0x10000 < 0x1A00) && off % 0x10000 / 0x100 != 24)))

/-- Writes to the register are ignored without an event, for it is off (R276, R368, R421, R496, R514, R589). The chapters of PIPE and
CELL say nothing of writes, and R61 takes those of their shadowed fields into the overlay. -/
def regOff (s : State) (off : Nat) : Bool :=
  regDark s off && !((off / 0x10000 == 0x08 || off / 0x10000 == 0x0C) && shadowMask off != 0)

/-- A Company write to a register with shadowed fields goes to the overlay (R61); line-timed fields of the same register go
to their shadow stage as well (R508). -/
def shadowedWrite (off : Nat) (v : Word) (s : State) : State :=
  if regOff s off then s
  else
    let s := shadowWrite off v s
    if shadowMask off == 0 then s else overlayWrite off v s

def execShadowWrite (addr : BitVec 40) (value : Word) (s : State) : Host.Outcome State Fault Refusal :=
  .next (shadowedWrite (addr.toNat - 0x10000000) value (busOk 0 s))

/-! ### Cue loads (R58) -/

/-- The slots of a stack. -/
def CueStack.slots (st : CueStack) : List Nat := st.modeCue.toList ++ st.users

/-- The slots that a load may not touch: those of the active and the pending stack (R58). -/
def stackedSlots (s : State) : List Nat := s.cue.active.slots ++ s.cue.pending.slots

/-- A load is refused: FAIL and a warning. -/
def loadRefused (s : State) : State := postRefused 1 CUE_LOAD_CTRL.GO.addr (s.setFlag CUE_LOAD_CTRL.FAIL true)

/-- The source of a load: an offset in scratch SRAM from which the whole cue lies there. -/
def loadSource (s : State) : Option Nat :=
  let a := s.fld CUE_LOAD_SRC.ADDR
  if 0x1000000 ≤ a ∧ a % 4 = 0 ∧ a + 32 ≤ 0x1800000 ∧ a + leAt (s.scratchBytes (a - 0x1000000) 10) 8 2 ≤ 0x1800000 then
    some (a - 0x1000000)
  else none

/-- A write of `CUE_LOAD_CTRL` with GO (R58). -/
def execCueLoad (value : Word) (s : State) : Host.Outcome State Fault Refusal :=
  let slot := value.toNat % 64
  let s := (busOk 0 s).setFld CUE_LOAD_CTRL.SLOT slot
  let s := if value.getLsbD 8 then s.setFlag CUE_LOAD_CTRL.FAIL false else s
  if value.getLsbD 6 = false then .next s
  else if s.cue.load.isSome then .next (postRefused 1 CUE_LOAD_CTRL.GO.addr s)
  else
    match loadSource s with
    | none => .next (loadRefused s)
    | some a =>
      if slot < 48 ∨ (stackedSlots s).contains slot then .next (loadRefused s)
      else
        let s := s.setFlag CUE_LOAD_CTRL.BUSY true
        .next (setCue { s.cue with load := some (slot, a) } s)

/-- A cue fails validation: its slot is invalid, with a warning that names the entry (R57, R552). -/
def cueInvalid (slot off : Nat) (s : State) : State := postKind 5 1 0xFF (slot * 2 ^ 24 + off) (setSlotValid slot false s)

/-- A cue for slot `slot` is validated and stored (R57). Answers whether it is valid. -/
def takeCue (slot : Nat) (bs : List Byte) (s : State) : Bool × State :=
  match parseCue bs with
  | .error off => (false, cueInvalid slot off s)
  | .ok c =>
    match cueFault s.cue.tableStore s.cue.base.entries c with
    | some off => (false, cueInvalid slot off s)
    | none => (true, setSlotValid slot true (setCue { s.cue with slots := keySet s.cue.slots slot c } s))

/-- The copy ends: the cue is validated, BUSY clears (R57, R58). -/
def execCueLoadComplete (s : State) : Host.Outcome State Fault Refusal :=
  match s.cue.load with
  | none => .next s
  | some (slot, a) =>
    let s := setCue { s.cue with load := none } (s.setFlag CUE_LOAD_CTRL.BUSY false)
    let (ok, s) := takeCue slot (s.scratchBytes a 4096) s
    .next (if ok then s else s.setFlag CUE_LOAD_CTRL.FAIL true)

end Sys2Proof.Machine
end

