-- ==== Sys2Proof/Machine/Power.lean ====
section
/-! DEFINITION. Power, clocks and heat: the always-on supply and resets (R14, R570, R576, R577), rails (R535 to R538), main
supplies (R578), REFCLK and the PLLs (R540 to R543), the thermal monitor and Curtain (R545 to R550). -/

namespace Sys2Proof.Machine

def setPower (p : PowerState) (s : State) : State := { s with power := p }

/-! ### Dark, held, and the way out of it -/

/-- A terminal fatal event with the flag that sets beside it (R559). -/
def postTerminal (f : Fld) (block inst cause : Nat) (s : State) : State :=
  postEvent { cls := .fatal, block := block, cause := cause, inst := inst, detail := 0, terminal := true } (s.setFlag f true)

/-- Steps 2 to 5 of R542: domains and rails off, holdover, an NVM erase cut, Dark, held. A device that is in Dark already
stays there by its first cause. -/
def enterDark (cause : DarkCause) (hold : Nat) (s : State) : State :=
  let s := cutErase s
  if s.power.dark = .none then
    let s := closeTerminal (holdover hold (goDark cause s))
    setPower { s.power with restart := true } s
  else closeTerminal (holdover hold s)

/-- Nothing keeps the device from the Dawn of a warm reset: no Curtain, PWR_PG0 high and REFCLK good, the supplies in range,
WARM_RST_N high, no restart of R543 outstanding (R535, R542, R543, R549, R570, R578). -/
def canRestart (s : State) : Bool :=
  s.power.restart && s.power.dark != .none && !s.flag THERM_STATUS.CURTAIN && (s.fld POWER_RAIL.PG).testBit 0 &&
  s.flag CLOCK_STATUS.REFCLK_OK &&
  !s.power.supplyLow && !s.power.warmPin && s.power.pllWait.isNone

/-- The always-on domain runs on PLL 6 again. -/
def pllClock (s : State) : State := (s.setFlag CLOCK_STATUS.RC_ACTIVE false).setFlag TIME_STATUS.RC_CLK false

/-- Restart through Dawn by warm reset, when all conditions are met. -/
def tryRestart (s : State) : State := if canRestart s then warmReset (pllClock s) else s

/-! ### Resets -/

/-- The always-on supply becomes valid: cold reset, MADDR sampled, PWR_EN0 asserted (R14, R516, R535, R576, R577). -/
def execAonSupplyValid (maddr : BitVec 3) (s : State) : Host.Outcome State Fault Refusal :=
  if s.power.aonValid ∧ s.power.dark ≠ .coldReset then .next s
  else
    let s := (coldReset s).setFld MGMT_CFG.ADDR (0x58 + maddr.toNat)
    .next (s.orBit POWER_RAIL.EN 0)

/-- VDD_AON fell below 0.68 V: cold reset holds (R576). -/
def execAonSupplyLost (s : State) : Host.Outcome State Fault Refusal :=
  let s := coldReset s
  .next (setPower { s.power with aonValid := false, dark := .unpowered } s)

/-- PWR_PG0 and REFCLK are good: reset is released and Dawn starts (R44, R78, R535, R577). -/
def execResetRelease (s : State) : Host.Outcome State Fault Refusal :=
  if s.power.dark ≠ .coldReset ∨ s.flag THERM_STATUS.CURTAIN ∨ s.power.warmPin then .next s
  else
    let s := pllClock ((s.orBit POWER_RAIL.EN 0).orBit POWER_RAIL.PG 0)
    let s := s.setFlag CLOCK_STATUS.REFCLK_OK true
    .next (setPower { s.power with dark := .none, releasedAt := s.ticks } s)

/-- WARM_RST_N low for 1 µs: Dark, held (R570). -/
def execWarmRstAssert (s : State) : Host.Outcome State Fault Refusal :=
  if s.power.aonValid = false then .next s
  else
    let s := setPower { s.power with warmPin := true } (s.setFlag SYS_RESET_CAUSE.WARM_PIN true)
    if s.power.dark = .coldReset then .next s
    else
      let s := if s.power.dark = .none then goDark .warmPin (sendLeaving s) else s
      .next (setPower { s.power with restart := true } s)

/-- WARM_RST_N high again: Dawn by warm reset. -/
def execWarmRstRelease (s : State) : Host.Outcome State Fault Refusal :=
  .next (tryRestart (setPower { s.power with warmPin := false } s))

/-- The Stage Manager commands a warm reset (R14); a Principal says that it leaves (R457). -/
def execWarmResetCommand (s : State) : Host.Outcome State Fault Refusal :=
  if s.power.dark = .unpowered ∨ s.power.dark = .coldReset then .next s
  else
    let s := sendLeaving (s.setFlag SYS_RESET_CAUSE.WARM_CMD true)
    let s := if s.power.dark = .none then goDark .warmPin s else s
    .next (tryRestart (setPower { s.power with restart := true } s))

/-! ### Rails and supplies -/

/-- The record of a rail. -/
def railRec (s : State) (r : Nat) : Option RailRec := s.power.rails.find? (fun x => x.rail == r)

/-- A rail's PG does not rise in a transition: the device stays in its mode with that mode's domains (R537). -/
def railRevert (r : Nat) (t : Transition) (s : State) : State :=
  let old := domainsNow s
  let s := domainsUp old (powerOff (old.reverse.filter (fun d => !(newDomains s t).contains d && d != 0)) s)
  let s := (abandonTransition s).orBit POWER_RAIL.FAIL r
  postFlag POWER_EVENT.RAIL_TIMEOUT POWER_EVENT.RAIL_TIMEOUT.lo .fatal 20 r 0 s

/-- PG of a rail has not risen, in what raised it outside a requested transition (R537): its rails are dropped and the device stays as
it was, with its sensor ports held where a cue point had just released them; in Dawn it enters Dark, held. -/
def riseFails (r : Nat) (q : RailRise) (s : State) : State :=
  let s := (s.setFld POWER_RAIL.EN q.old).setFld POWER_RAIL.PG (s.fld POWER_RAIL.PG &&& q.old)
  let s := setPower { s.power with rise := none } (s.orBit POWER_RAIL.FAIL r)
  if s.mode = 1 then
    closeTerminal (goDark .railTimeout (postTerminal POWER_EVENT.RAIL_TIMEOUT 20 r POWER_EVENT.RAIL_TIMEOUT.lo s))
  else
    let s := if q.ports then (powerOff [9, 8, 7, 6] s).setFlag CUE_STATUS.PORTS_HELD true else s
    postFlag POWER_EVENT.RAIL_TIMEOUT POWER_EVENT.RAIL_TIMEOUT.lo .fatal 20 r 0 s

/-- Rails rise in ascending order, each after the ON_DELAY_US and the PG of the one before it (R532): ON_DELAY_US and PG_TIMEOUT_US of
rail `x` are over when rails `up` rise from tick `since` on, after others have fallen for `off` µs (R537). -/
def railOverdue (s : State) (up : List RailRec) (x : RailRec) (off since : Nat) : Bool :=
  let before := ((up.filter (fun k => decide (k.rail < x.rail))).map (·.onDelay)).sum
  s.elapsedNs since ((off + before + x.onDelay + x.pgTimeout) * 1000)

/-- The rails that `q` raised. -/
def risen (q : RailRise) (s : State) : List RailRec :=
  s.power.rails.filter (fun k => (s.fld POWER_RAIL.EN).testBit k.rail && !q.old.testBit k.rail)

/-- Rail `x` is one that `q` raised, and its PG is overdue. -/
def riseOverdue (x : RailRec) (q : RailRise) (s : State) : Bool := (risen q s).contains x && railOverdue s (risen q s) x q.off q.since

/-- PG of a rail has not risen in time (R537): of one raised beside the requested transitions, or of one that the transition in progress
raises once its blocks are quiet. -/
def execRailPgTimeout (rail : Fin 8) (s : State) : Host.Outcome State Fault Refusal :=
  let r := rail.val
  match railRec s r with
  | none => .next s
  | some x =>
    if x.pgUsed = false then .next s
    else
      match s.power.rise.filter (fun q => riseOverdue x q s) with
      | some q => .next (riseFails r q s)
      | none =>
        match s.power.xfer with
        | some t =>
          let up := railsToRaise (newDomains s t) s
          if up.contains x = false ∨ railOverdue s up x (offTime (newDomains s t) s) t.start = false then .next s
          else
            let q := linkFirst t s
            .next (if transitionQuiet t q then railRevert r t q else s)
        | none => .next s

/-- PG of a rail that is on has been low for 10 µs (R538): the domains it follows go off, and with them every rail that follows only them (R534); a rail that follows none takes the
device through Dark to Dawn; rail 0 locks the NVM controller. -/
def execRailLost (rail : Fin 8) (s : State) : Host.Outcome State Fault Refusal :=
  let r := rail.val
  if (s.fld POWER_RAIL.EN).testBit r = false then .next s
  else
    let s := (s.orBit POWER_RAIL.FAIL r).clrBit POWER_RAIL.PG r
    if r = 0 then
      let s := setPower { s.power with nvmLock := true } s
      .next (postFlag POWER_EVENT.RAIL_LOST POWER_EVENT.RAIL_LOST.lo .fatal 20 r 0 s)
    else
      let follow : Nat := ((railRec s r).map (fun x => x.follow)).getD 0
      if follow = 0 then
        let s := postTerminal POWER_EVENT.RAIL_LOST 20 r POWER_EVENT.RAIL_LOST.lo s
        .next (tryRestart (enterDark .supply 0 s))
      else
        let s := spillSettled (powerOff (allDomains.filter (fun d => follow.testBit d)) s)
        let s := setRails (domainsNow s) s
        .next (postFlag POWER_EVENT.RAIL_LOST POWER_EVENT.RAIL_LOST.lo .fatal 20 r 0 s)

/-- A main supply is below its range for 1 µs (R578). -/
def execSupplyLoss (supply : Supply) (s : State) : Host.Outcome State Fault Refusal :=
  if s.power.dark = .unpowered ∨ s.power.dark = .coldReset then .next s
  else
    let bit := match supply with
      | .core => 0 | .sram => 1 | .ser => 2
    let s := postTerminal POWER_EVENT.SUPPLY_LOST 20 0xFF POWER_EVENT.SUPPLY_LOST.lo (s.orBit POWER_RAIL.SUPPLY bit)
    .next (enterDark .supply 0 (setPower { s.power with supplyLow := true } s))

/-- The supplies have been in range for 10 ms (R578). -/
def execSupplyRestored (s : State) : Host.Outcome State Fault Refusal :=
  .next (tryRestart (setPower { s.power with supplyLow := false } s))

/-- PWR_PG0 has been high for 10 ms again: the NVM controller takes operations again, and a device that waits in Dark for PWR_PG0
restarts (R535, R538). -/
def execRail0PgRestored (s : State) : Host.Outcome State Fault Refusal :=
  .next (if s.power.nvmLock then
      tryRestart (programHeld (setPower { s.power with nvmLock := false } (s.orBit POWER_RAIL.PG 0)))
    else s)

/-! ### REFCLK and the PLLs -/

/-- While REFCLK is absent the always-on domain and device time run on the RC oscillator (R436, R542). -/
def rcClock (s : State) : State := (s.setFlag CLOCK_STATUS.RC_ACTIVE true).setFlag TIME_STATUS.RC_CLK true

/-- REFCLK is lost, or a PLL is treated as its loss: steps 1 to 5 of R542 with the event's cause. -/
def refclkLoss (cause : DarkCause) (inst event : Nat) (s : State) : State :=
  enterDark cause 4 (postTerminal CLOCK_EVENT.REFCLK_LOST 21 inst event (rcClock s))

/-- REFCLK is good again (R540, R542). -/
def refclkBack (s : State) : State :=
  let s := (s.setFlag CLOCK_STATUS.REFCLK_OK true).setFlag CLOCK_EVENT.REFCLK_BACK true
  tryRestart (pllClock s)

/-- A window of 1.28 µs in which `cycles` REFCLK cycles were counted (R540). -/
def execRefclkWindow (cycles : Nat) (s : State) : Host.Outcome State Fault Refusal :=
  if s.power.aonValid = false then .next s
  else
    let s := s.setFld CLOCK_REF_COUNT.COUNT (min 255 cycles)
    if cycles < 120 ∨ 136 < cycles then
      let n := s.power.badRun + 1
      let s := setPower { s.power with badRun := n, goodRun := 0 } s
      if n = 2 ∧ s.flag CLOCK_STATUS.REFCLK_OK then
        .next (refclkLoss .refclk 0xFF CLOCK_EVENT.REFCLK_LOST.lo
          ((s.setFlag CLOCK_STATUS.REFCLK_OK false).addFld CLOCK_LOSS_CNT.REFCLK 1))
      else if n = 2 then .next (rcClock s)
      else .next s
    else
      let n := s.power.goodRun + 1
      let s := setPower { s.power with badRun := 0, goodRun := n } s
      if n = 782 ∧ s.flag CLOCK_STATUS.REFCLK_OK = false then .next (refclkBack s) else .next s

/-- The power domains that PLL `p` feeds (the clock table of chapter 19). -/
def pllDomains (p : Nat) : List Nat :=
  if p = 0 then [1, 2, 3, 4, 5, 14, 20, 27, 29] else if p = 1 then [6, 7, 8, 9, 10, 11, 12, 13, 15, 16, 17, 18, 19]
  else if p = 2 then [21] else if p = 3 then [22] else if p = 4 then [23, 24, 25] else if p = 5 then [26] else [0, 28]

/-- PLL `p` has lost lock and has not relocked (R543). -/
def pllOut (s : State) (p : Nat) : Bool := s.power.unlocked.any (fun u => u.1 == p)

/-- PLL `p` has been without lock for the 50 µs that R543 gives it to relock. -/
def pllOverdue (s : State) (p : Nat) : Bool := s.power.unlocked.any (fun u => u.1 == p && s.elapsedNs u.2 50000)

/-- PLL `p` runs and is locked (`CLOCK_STATUS.LOCK`). -/
def pllLocked (s : State) (p : Nat) : Bool :=
  s.flag CLOCK_STATUS.REFCLK_OK && !s.flag CLOCK_STATUS.RC_ACTIVE && !pllOut s p &&
    (p == 6 || (pllDomains p).any (fun d => s.domainOn d))

/-- A PLL loses lock while REFCLK is good (R543). -/
def execPllUnlock (pll : Fin 7) (s : State) : Host.Outcome State Fault Refusal :=
  if pllLocked s pll.val then
    let s := (s.setFlag CLOCK_EVENT.PLL_UNLOCK true).addFld CLOCK_LOSS_CNT.PLL 1
    .next (setPower { s.power with unlocked := s.power.unlocked ++ [(pll.val, s.ticks)] } s)
  else .next s

/-- A PLL that lost lock relocks: a recoverable event (R543). -/
def execPllRelock (pll : Fin 7) (s : State) : Host.Outcome State Fault Refusal :=
  if pllOut s pll.val ∧ s.power.pllWait = none then
    let s := setPower { s.power with unlocked := s.power.unlocked.filter (fun u => u.1 != pll.val) } s
    .next (postEvent { cls := .recoverable, block := 21, cause := CLOCK_EVENT.PLL_UNLOCK.lo, inst := pll.val, detail := 0 } s)
  else .next s

/-- No relock in 50 µs: as a loss of REFCLK, and a restart 1 ms later, or a hold when the last such restart lies within
60 s (R543). -/
def execPllRelockTimeout (pll : Fin 7) (s : State) : Host.Outcome State Fault Refusal :=
  if pllOverdue s pll.val = false ∨ s.power.pllWait.isSome then .next s
  else
    let again := s.power.pllFailAt.any (fun t => decide (s.nowNs ≤ t + 60000000000))
    let s := refclkLoss .pll pll.val 0x300 s
    if again then
      let s := s.setFlag CLOCK_EVENT.PLL_UNLOCK true
      .next (if s.power.dark = .pll then setPower { s.power with dark := .pllHold, restart := false, unlocked := [] } s else s)
    else .next (setPower { s.power with pllWait := some s.ticks } s)

/-- 1 ms after the failed relock (R543). -/
def execPllFailureRestart (s : State) : Host.Outcome State Fault Refusal :=
  if s.power.pllWait.any (fun w => s.elapsedNs w 1000000) then
    .next (tryRestart (setPower { s.power with pllWait := none, unlocked := [], pllFailAt := some s.nowNs } s))
  else .next s

/-! ### Heat -/

/-- A temperature of S12.4 as an integer of 1/16 °C. -/
def tempOf (x : BitVec 16) : Int := x.toInt

/-- The reading of a site in 1/16 °C (R545). -/
def siteReading (x : SiteSample) : Int :=
  match x.a, x.b with
  | some a, some b =>
    let d := tempOf a - tempOf b
    if d ≤ 128 ∧ -128 ≤ d then (tempOf a + tempOf b + 1) / 2 else max (tempOf a) (tempOf b)
  | some a, none => tempOf a
  | none, some b => tempOf b
  | none, none => 1920

def siteDisagrees (x : SiteSample) : Bool :=
  match x.a, x.b with
  | some a, some b => decide (128 < tempOf a - tempOf b) || decide (tempOf a - tempOf b < -128)
  | _, _ => false

/-- A condition of a site: its flag follows, and posts a warning when it becomes 1 (R545). -/
def siteFlag (f : Fld) (event : Fld) (i : Nat) (on : Bool) (s : State) : State :=
  let t := s.setFlag f on
  if on ∧ s.flag f = false then postFlag event event.lo .warning 22 i 0 t else t

/-- Site `i` after a sample. -/
def siteShow (i : Nat) (x : SiteSample) (s : State) : State :=
  let s := s.setFld (THERM_SITE.T i) (BitVec.ofInt 16 (siteReading x)).toNat
  let s := siteFlag (THERM_SITE.BROKEN_A i) THERM_EVENT.BROKEN i x.a.isNone s
  let s := siteFlag (THERM_SITE.BROKEN_B i) THERM_EVENT.BROKEN i x.b.isNone s
  siteFlag (THERM_SITE.DISAGREE i) THERM_EVENT.DISAGREE i (siteDisagrees x) s

/-- The hottest site, the lower number on a tie, and its reading. -/
def hottest (xs : List Int) : Nat × Int :=
  (xs.zipIdx).foldl (fun b e => if b.2 < e.1 then (e.2, e.1) else b) (0, (xs[0]?).getD 0)

/-- The sampling rate (R546). -/
def thermRate (hot : Int) (s : State) : State :=
  let below (t : Option Nat) (s : State) : State := setPower { s.power with belowFrom := t } s
  if 1760 ≤ hot then
    below none (if s.flag THERM_STATUS.FAST then s else (s.setFlag THERM_STATUS.FAST true).setFlag THERM_EVENT.NEAR true)
  else if s.flag THERM_STATUS.FAST = false then s
  else if 1728 ≤ hot then below none s
  else
    match s.power.belowFrom with
    | none => below (some s.ticks) s
    | some t => if s.elapsedNs t 10000000 then below none (s.setFlag THERM_STATUS.FAST false) else s

/-- Curtains begun in the last 3,600 s (`THERM_STATUS.IN_HOUR`). -/
def inHour (s : State) : Nat := (s.power.curtainTimes.filter (fun t => decide (s.nowNs < t + 3600000000000))).length

/-- Curtain begins at `site` (R547, R548, R550): Dark, held, the CURTAIN record, and a hold after the third in an hour. -/
def curtainBegin (site : Nat) (s : State) : State :=
  let m := s.mode
  let hold := decide (2 ≤ s.power.curtainTimes.length) &&
    (s.power.curtainTimes.take 2).all (fun t => decide (s.nowNs < t + 3600000000000))
  let reading := s.fld (THERM_SITE.T site)
  let s := abandonTransition s
  let s := setPower { s.power with
    curtainTimes := (s.nowNs :: s.power.curtainTimes).take 3, thermtrip := true, coolFrom := none, coolDone := false } s
  let s := (s.setFlag THERM_STATUS.CURTAIN true).addFld THERM_CURTAINS.COUNT 1
  let s := if hold then (s.setFlag THERM_STATUS.HELD true).setFlag THERM_EVENT.HELD true else s
  let s := cutErase (postTerminal THERM_EVENT.CURTAIN 22 site THERM_EVENT.CURTAIN.lo s)
  let s := if s.power.dark = .none then
      let s := goDark .curtain s
      setPower { s.power with restart := true } s
    else s
  recordOrHold 6 (leBytes 1 site ++ leBytes 2 reading ++ leBytes 1 (inHour s) ++ leBytes 1 m) (closeTerminal s)

/-- The cooling period (R549): it runs while every sample is at most 95.0 °C. -/
def thermCool (hot : Int) (s : State) : State :=
  if 1520 < hot then
    setPower { s.power with coolFrom := none, coolDone := false } (s.setFlag THERM_STATUS.COOLING false)
  else if s.power.coolFrom.isSome then s
  else setPower { s.power with coolFrom := some s.ticks } (s.setFlag THERM_STATUS.COOLING true)

/-- All sites are sampled (R545 to R549). -/
def execThermalSample (sites : Vector SiteSample 12) (s : State) : Host.Outcome State Fault Refusal :=
  if s.power.aonValid = false then .next s
  else
    let xs := sites.toList
    let s := (xs.zipIdx).foldl (fun s e => siteShow e.2 e.1 s) s
    let (site, hot) := hottest (xs.map siteReading)
    let s := (s.setFld THERM_STATUS.HOTTEST site).setFld THERM_STATUS.HOTTEST_T (BitVec.ofInt 16 hot).toNat
    let s := thermRate hot s
    let s := if s.flag THERM_STATUS.CURTAIN then thermCool hot s else if 1920 ≤ hot then curtainBegin site s else s
    .next (alertUpdate s)

/-- Curtain ends: THERMTRIP_N released, restart through Dawn (R549). -/
def curtainEnd (s : State) : State :=
  let s := setPower { s.power with thermtrip := false, coolFrom := none, coolDone := false } s
  let s := (s.setFlag THERM_STATUS.CURTAIN false).setFlag THERM_STATUS.COOLING false
  tryRestart (s.setFlag SYS_RESET_CAUSE.CURTAIN true)

/-- Ten seconds at 95.0 °C or less are complete (R549); a held device waits for the press (R550). -/
def execCurtainCoolComplete (s : State) : Host.Outcome State Fault Refusal :=
  match s.power.coolFrom with
  | none => .next s
  | some t =>
    if s.flag THERM_STATUS.CURTAIN = false ∨ s.elapsedNs t 10000000000 = false then .next s
    else if s.flag THERM_STATUS.HELD then .next (setPower { s.power with coolDone := true } s)
    else .next (curtainEnd s)

/-- A press is accepted (R96, R99); it ends a Curtain hold (R550). -/
def execPresencePress (s : State) : Host.Outcome State Fault Refusal :=
  if s.trust.pressed then .next s
  else
    let s := acceptPress s
    if s.flag THERM_STATUS.HELD then
      let s := s.setFlag THERM_STATUS.HELD false
      .next (if s.power.coolDone then curtainEnd s else s)
    else .next s

/-- Milliseconds left of the cooling period (`THERM_COOL`). -/
def coolLeft (s : State) : Nat :=
  match s.power.coolFrom with
  | some t => if s.flag THERM_STATUS.CURTAIN then 10000 - min 10000 ((s.ticks - t) / 400000) else 10000
  | none => 10000

end Sys2Proof.Machine
end

