-- ==== Sys2Proof/Machine/Dawn.lean ====
section
/-! DEFINITION. Dawn (R78 to R86, R93, R104, R588): the journal, the image slots and their verification, what an image
loads, the board tables, and the start of the cores. -/

namespace Sys2Proof.Machine

/-! ### The journal (R79, R93, R104, R588) -/

/-- The records after the newest SNAPSHOT, and that SNAPSHOT. -/
def journalTail (rs : List (List Byte)) : Option (List Byte) × List (List Byte) :=
  rs.foldl (fun a r => if leAt r 2 1 = 8 then (some r, []) else (a.1, a.2 ++ [r])) (none, [])

/-- A byte, or more, of the payload of a record. -/
def payloadAt (r : List Byte) (o n : Nat) : Nat := leAt r (0x14 + o) n

/-- The seal breaks counted (R588). -/
def journalBreaks (rs : List (List Byte)) : Nat :=
  let (snap, tail) := journalTail rs
  min (2 ^ 32 - 1) ((snap.map (fun r => payloadAt r 4 4)).getD 0 + (tail.filter (fun r => leAt r 2 1 == 4)).length)

/-- Consecutive BOOT records of slot `x` with outcome 0 and no later CONFIRM (R79, R588). -/
def bootCount (rs : List (List Byte)) (x : Nat) : Nat :=
  let (snap, tail) := journalTail rs
  tail.foldl (fun n r =>
    if leAt r 2 1 = 1 ∧ payloadAt r 0 1 = 0 then (if payloadAt r 1 1 = x then n + 1 else 0)
    else if leAt r 2 1 = 2 ∧ payloadAt r 0 1 = x then 0
    else n) ((snap.map (fun r => payloadAt r (2 + x) 1)).getD 0)

/-- The lifecycle that the newest LIFECYCLE or SNAPSHOT record gives (R588). -/
def journalLifecycle (rs : List (List Byte)) : Option Nat :=
  rs.foldl (fun a r =>
    if leAt r 2 1 = 3 then some (payloadAt r 1 1) else if leAt r 2 1 = 8 then some (payloadAt r 0 1) else a) none

/-- The lifecycle last moved by privileged request (R93, R588). -/
def lastMoveRequested (rs : List (List Byte)) : Bool :=
  ((rs.filter (fun r => leAt r 2 1 == 3)).getLast?).any (fun r => payloadAt r 2 1 == 0)

/-- Step 3 of R78: SEQ, the place of the next record, and the seal breaks come from the journal. -/
def readJournal (s : State) : State :=
  let s := findPosition s
  s.setFld TRUST_SEAL_COUNT.BREAKS (journalBreaks (journal s))

/-- The lifecycle of this Dawn (R93): the OTP state, or Service while the jumper is fitted. A change is recorded, and so is an
entry by the jumper when Service by request ended at this Dawn. -/
def dawnLifecycle (s : State) : State :=
  let s := setService false s
  let otp := lifecycleCode s
  let rs := journal s
  let prev := (journalLifecycle rs).getD otp
  let service := s.flag TRUST_PRESENCE.JMP && (otp == 1 || otp == 2)
  let s := showTrust (setService service s)
  if service ∧ (prev ≠ 3 ∨ lastMoveRequested rs) then lifecycleRecord otp 1 s
  else if service = false ∧ prev = 3 then lifecycleRecord 3 2 s
  else s

/-! ### Image slots (R79, R82 to R86) -/

/-- Bytes of a slot. -/
def slotBytes (s : State) (x off n : Nat) : List Byte := s.nvmBytes (slotBase x + off) n

/-- An integer of a slot's header. -/
def hdr (s : State) (x off n : Nat) : Nat := leNat (slotBytes s x off n)

def slotMagic (s : State) (x : Nat) : Bool :=
  slotBytes s x 0 8 == [0x53, 0x4B, 0x4F, 0x56, 0x49, 0x46, 0x49, 0x4D]

/-- The slots in the order they are tried (R79). -/
def slotOrder (s : State) : List Nat :=
  let rs := journal s
  let pref := if slotMagic s 1 && (!slotMagic s 0 || decide (hdr s 0 0x80 4 < hdr s 1 0x80 4)) then 1 else 0
  if 3 ≤ bootCount rs pref then [1 - pref, pref] else [pref, 1 - pref]

/-- The sections of a slot: offset and length (R82). -/
def sections (s : State) (x : Nat) : List (Nat × Nat) :=
  [(hdr s x 0x10 4, hdr s x 0x14 4), (hdr s x 0x18 4, hdr s x 0x1C 4), (hdr s x 0x28 4, 2592), (hdr s x 0x2C 4, 4627),
   (hdr s x 0x88 4, hdr s x 0x8C 4), (hdr s x 0x90 4, hdr s x 0x94 4), (hdr s x 0x98 4, hdr s x 0x9C 4),
   (hdr s x 0xA0 4, hdr s x 0xA4 4), (hdr s x 0xA8 4, 2592), (hdr s x 0xAC 4, 4627)]

/-- Section `i` as bytes: 0 Stage Manager, 1 Company, 2 Eodestan key, 3 firmware signature, 4 base configuration, 5 cue
sheet, 6 tables, 7 board tables, 8 maker key, 9 configuration signature. -/
def section_ (s : State) (x i : Nat) : List Byte :=
  let r := ((sections s x)[i]?).getD (0, 0)
  slotBytes s x r.1 r.2

/-- The sections lie in the slot after the header, on multiples of 16, and do not overlap (R82). An empty section keeps the rules of the
offset and overlaps nothing (DESIGN CHOICE, assumption 118). -/
def sectionsOk (rs : List (Nat × Nat)) : Bool :=
  rs.all (fun r => decide (r.1 % 16 = 0) && decide (4096 ≤ r.1) && decide (r.1 + r.2 ≤ 0x1800000)) &&
  decide ((rs.filter (fun r => r.2 != 0)).Pairwise (fun a b => a.1 + a.2 ≤ b.1 ∨ b.1 + b.2 ≤ a.1))

/-- The rules of the header (R82), with the lengths that its table gives. -/
def headerOk (s : State) (x : Nat) : Bool :=
  slotMagic s x && hdr s x 8 2 == 1 && (slotBytes s x 0x100 0xF00).all (fun b => b == 0) && sectionsOk (sections s x) &&
  decide (1 ≤ hdr s x 0x14 4) && decide (hdr s x 0x14 4 ≤ 196608) && decide (1 ≤ hdr s x 0x1C 4) &&
  decide (hdr s x 0x1C 4 ≤ 4194304) && decide (hdr s x 0x20 4 < hdr s x 0x1C 4) && decide (hdr s x 0x24 4 < hdr s x 0x14 4) &&
  decide (hdr s x 0x8C 4 ≤ 65536) && decide (hdr s x 0x94 4 ≤ 196608) && decide (hdr s x 0x9C 4 ≤ 12648448) &&
  decide (hdr s x 0xA4 4 ≤ 1048576) && decide (hdr s x 0xB0 1 ≤ 7)

/-- The two digests (R85). -/
def fwDigest (s : State) (x : Nat) : List Byte :=
  sha3_512 (ascii "ECD9600/FW/1" ++ slotBytes s x 0 128 ++ section_ s x 0 ++ section_ s x 1)

def cfgDigest (s : State) (x : Nat) : List Byte :=
  sha3_512 (ascii "ECD9600/CFG/1" ++ slotBytes s x 128 128 ++ section_ s x 4 ++ section_ s x 5 ++ section_ s x 6 ++
    section_ s x 7 ++ fwDigest s x)

/-- Keys and signatures (R86); in Blank the configuration is signed with the Eodestan key. -/
def signaturesOk (s : State) (x : Nat) : Bool :=
  let o := s.trust.otp
  let eod := section_ s x 2
  let maker := section_ s x 8
  let blank := lifecycleCode s == 0
  sha3_512 eod == o.eodKeyDigest && (blank || ((activeMaker o).bind (fun i => o.makerDigests[i]?)) == some (sha3_512 maker)) &&
  mldsaVerify eod (fwDigest s x) (section_ s x 3) &&
  mldsaVerify (if blank then eod else maker) (cfgDigest s x) (section_ s x 9)

/-- ROLLBACK and the diagnostic flag (R82, R88, R94). -/
def releaseOk (s : State) (x : Nat) : Bool :=
  decide (s.trust.otp.rollbackSteps ≤ hdr s x 0x0A 1) && decide (hdr s x 0x0A 1 ≤ 64) &&
  (!(hdr s x 0x0B 1).testBit 1 || lifecycleCode s == 3)

/-- The table images of a table section (R83), none when its directory is malformed. -/
def parseTables (b : List Byte) : Option (List (List Byte)) :=
  let n := leAt b 0 4
  let recs := (List.range n).map (fun i => (leAt b (4 + 8 * i) 4, leAt b (8 + 8 * i) 4))
  if b.length < 4 ∨ n = 0 ∨ 1024 < n ∨ b.length < 4 + 8 * n ∨ 
     recs.any (fun r => decide (r.1 < 4 + 8 * n ∨ b.length < r.1 + r.2)) then none
  else some (recs.map (fun r => (b.drop r.1).take r.2))

/-- The board tables by tag (R84), none when the directory breaks a rule. -/
def parseBoard (b : List Byte) : Option (List (List Byte × List Byte)) :=
  let n := leAt b 0 4
  let rec_ (i : Nat) := (b.drop (16 + 16 * i)).take 16
  let rs := (List.range n).map (fun i => (leAt (rec_ i) 4 4, leAt (rec_ i) 8 4))
  let tags := (List.range n).map (fun i => (rec_ i).take 4)
  if b.length < 16 ∨ n = 0 ∨ 32 < n ∨ (b.drop 4).take 12 ≠ List.replicate 12 0 ∨
     rs.any (fun r => decide (r.1 % 16 ≠ 0 ∨ r.2 = 0 ∨ 1048576 < r.2 ∨ r.1 < 16 + 16 * n ∨ b.length < r.1 + r.2)) ∨
     (List.range n).any (fun i => leAt (rec_ i) 12 4 != 0) ∨
     ¬ rs.Pairwise (fun x y => x.1 + x.2 ≤ y.1 ∨ y.1 + y.2 ≤ x.1) ∨ ¬ tags.Nodup then none
  else some ((tags.zip rs).map (fun e => (e.1, (b.drop e.2.1).take e.2.2)))

/-! ### Cue sheet and base configuration (R43, R56, R57, R83) -/

/-- What the cues of the sheet say of themselves, by slot: KIND and MODE (R56). -/
abbrev SheetKinds := List (Nat × Nat × Nat)

/-- The cues of a sheet, back to back, from byte offset `off` on; each is validated and stored, or its slot is invalid. -/
def loadSheet : Nat → Nat → List Byte → SheetKinds → State → SheetKinds × State
  | 0, _, _, ks, s => (ks, s)
  | n + 1, off, b, ks, s =>
    if b.isEmpty then (ks, s)
    else
      let slot := if b.length < 5 then 0xFF else leAt b 4 1
      let len := leAt b 8 2
      let ok := decide (32 ≤ len) && decide (len ≤ 4096) && decide (len % 4 = 0) && decide (len ≤ b.length)
      let s' := if 48 ≤ slot then postKind 5 1 0xFF (slot * 2 ^ 24 + off) s else (takeCue slot (b.take 4096) s).2
      let ks := if slot < 48 then keySet ks slot (leAt b 5 1, leAt b 6 1) else ks
      if ok then loadSheet n (off + len) (b.drop len) ks s' else (ks, s')

/-- The base configuration passes validation (R56, R57). -/
def baseOk (store : List (List Byte)) (b : BaseConfig) (ks : SheetKinds) : Bool :=
  (firstBadEntry store (mirrorTopo b.entries) [] 32 b.entries).isNone &&
  (List.range 6).all (fun i => (b.modeCue[i]?).any (fun n => decide (n < 48) && keyGet ks n == some (1, i + 2)))

/-- The stores are emptied, every slot is invalid (R43). -/
def clearStores (s : State) : State :=
  setCue { s.cue with slots := [], tableStore := [], base := { modeCue := [], entries := [] } }
    ((s.setFld CUE_VALID_LO.DATA 0).setFld CUE_VALID_HI.DATA 0)

/-- Configuration of a slot: stores loaded and validated. Answers whether R83 and R86 hold of it. -/
def loadConfig (x : Nat) (s : State) : Bool × State :=
  match parseTables (section_ s x 6), parseBase (section_ s x 4) with
  | some ts, some b =>
    let sheet := section_ s x 5
    let s := setCue { s.cue with tableStore := ts, base := b } s
    let (ks, s) := loadSheet sheet.length 0 sheet [] s
    (baseOk ts b ks && modeCueOk s 2, s)
  | _, _ => (false, s)

/-- Firmware of a slot goes to its memories (step 4 of R78). -/
def loadFirmware (x : Nat) (s : State) : State :=
  { s.writeScratch 0 (section_ s x 1) with smSram := writeList 0 [] 0 (section_ s x 0) }

/-- The tag of the training seed table (R392). -/
def tagSeeds : List Byte := [0x44, 0x54, 0x52, 0x4E]

/-- Slot `x` is read, hashed and checked (steps 4 and 5 of R78): its board tables when it verifies. -/
def trySlot (x : Nat) (s : State) : Option (List (List Byte × List Byte)) × State :=
  let s := clearStores s
  if headerOk s x = false then (none, s)
  else
    let s := loadFirmware x s
    match parseBoard (section_ s x 7) with
    | none => (none, s)
    | some board =>
      if signaturesOk s x = false ∨ releaseOk s x = false then (none, s)
      else
        let seeds := keyGet board tagSeeds
        let short := seeds.any (fun t => decide (t.length < 528))
        let s := if short then postKind 5 12 0xFF 0 s else s
        if short ∨ seeds.isNone then (none, s)
        else
          let (ok, s) := loadConfig x s
          (if ok then some board else none, s)

/-! ### Board tables (R84) -/

/-- The bytes that a table's chapter asks of it, and its block (R84). -/
def boardNeeds (tag t : List Byte) : Option (Nat × Nat) :=
  if tag = [0x53, 0x50, 0x4D, 0x50] then some (64, 3)
  else if tag = tagSeeds then some (528, 12)
  else if tag = [0x4C, 0x4E, 0x45, 0x51] then some (if leAt t 0 4 ≤ 182 then 16 + 16 * leAt t 0 4 else 2 ^ 32, 13)
  else if tag = [0x4D, 0x57, 0x48, 0x4C] then some (128, 17)
  else if tag = [0x52, 0x41, 0x49, 0x4C] then some (if leAt t 0 4 ≤ 7 then 16 + 16 * leAt t 0 4 else 2 ^ 32, 20)
  else if tag = [0x4D, 0x4B, 0x45, 0x59] then some (if leAt t 0 4 ≤ 8 then 4 + 64 * leAt t 0 4 else 2 ^ 32, 11)
  else none

/-- Tables of unknown tags are skipped, tables too short are absent (R84). Answers those that stay. -/
def keepTables : List (List Byte × List Byte) → State → List (List Byte × List Byte) × State
  | [], s => ([], s)
  | (tag, t) :: r, s =>
    match boardNeeds tag t with
    | none => keepTables r (postOther .info 2 0xFF TRUST_STATUS.SLOT.addr s)
    | some (n, block) =>
      if t.length < n ∨ t.length < 4 then keepTables r (postKind 5 block 0xFF 0 s)
      else
        let (ts, s) := keepTables r s
        ((tag, t) :: ts, s)

/-- The port map gives the starting value of `INGEST_LAT.NS`; a record that is not sound is ignored (R59, R112). -/
def applyPortMap (s : State) : State :=
  (List.range 4).foldl (fun s p =>
    let r := portMapRecord s p
    if r.isEmpty then s
    else if portMapSound r then
      let a := (INGEST_LAT.NS p).addr
      let v := BitVec.ofNat 32 (leAt r 0x0A 2)
      if v = regReset a then s else setCue { s.cue with startVals := keySet s.cue.startVals a v } s
    else postKind 5 3 p (16 * p) s) s

/-- A lane record (R411). -/
def parseLaneRec (r : List Byte) : LaneRec :=
  let alt := leAt r 0xD 2
  { lane := leAt r 0 1, rate := leAt r 1 1, pre := leAt r 2 1, main := leAt r 3 1, post := leAt r 4 1, ctle := leAt r 5 1
    dfe := (List.range 5).map (fun i => toSigned 8 (leAt r (6 + i) 1)), floor := leAt r 0xB 1, preset := leAt r 0xC 1
    alts := (List.range (bits alt 13 12)).map (fun i => bits alt (4 * i + 3) (4 * i)), pol := leAt r 0xF 1 }

/-- The fields of a lane record are in range (R411, R412). -/
def laneRecOk (r : List Byte) : Bool :=
  let x := parseLaneRec r
  decide (x.lane ≤ 25) && decide (x.rate ≤ 6) && decide (x.pre ≤ 63) && decide (x.main ≤ 63) && decide (x.post ≤ 63) &&
  decide (x.ctle ≤ 31) && x.dfe.all (fun d => decide (-32 ≤ d) && decide (d ≤ 31)) && decide (x.preset ≤ 10) &&
  x.alts.all (fun a => decide (a ≤ 10)) && decide (leAt r 0xD 2 < 2 ^ 14) && decide (x.pol < 4)

/-- The lane equalisation table (R411, R412). -/
def applyLanes (t : List Byte) (s : State) : State :=
  (List.range (leAt t 0 4)).foldl (fun s i =>
    let r := (t.drop (16 + 16 * i)).take 16
    let x := parseLaneRec r
    let again := (List.range i).any (fun j => leAt t (16 + 16 * j) 2 == leAt r 0 2)
    if laneRecOk r ∧ again = false then
      { s.addFld LANE_TBL_STATUS.ACCEPTED 1 with serial := { s.serial with table := s.serial.table ++ [x] } }
    else postKind 5 13 x.lane (16 + 16 * i) (s.addFld LANE_TBL_STATUS.REJECTED 1)) s

/-- A rail record, when its fields are in range (R534). -/
def parseRail (r : List Byte) : Option RailRec :=
  let follow := leAt r 8 4
  if leAt r 0 1 = 0 ∨ 7 < leAt r 0 1 ∨ 1 < leAt r 1 1 ∨ 10000 < leAt r 2 2 ∨ leAt r 4 2 < 10 ∨ 10000 < leAt r 4 2 ∨
     10000 < leAt r 6 2 ∨ follow.testBit 0 ∨ 2 ^ 30 ≤ follow ∨ leAt r 0xC 4 ≠ 0 then none
  else some { rail := leAt r 0 1, pgUsed := leAt r 1 1 == 1, onDelay := leAt r 2 2, pgTimeout := leAt r 4 2
              offDelay := leAt r 6 2, follow := follow }

/-- The rail table (R534). -/
def applyRails (t : List Byte) (s : State) : State :=
  (List.range (leAt t 0 4)).foldl (fun s i =>
    let r := (t.drop (16 + 16 * i)).take 16
    let again := (List.range i).any (fun j => leAt t (16 + 16 * j) 1 == leAt r 0 1)
    match parseRail r with
    | some x =>
      if again then postKind 5 20 x.rail (16 + 16 * i) (s.setFlag POWER_RAIL.BAD_REC true)
      else setPower { s.power with rails := s.power.rails ++ [x] } s
    | none => postKind 5 20 (leAt r 0 1) (16 + 16 * i) (s.setFlag POWER_RAIL.BAD_REC true)) s

/-- The board tables of the running image act (R84, R112, R411, R474, R534). -/
def applyBoard (board : List (List Byte × List Byte)) (s : State) : State :=
  let (ts, s) := keepTables board s
  let s := applyPortMap { s with sys := { s.sys with board := ts } }
  let with_ (tag : List Byte) (f : List Byte → State → State) (s : State) : State :=
    match keyGet ts tag with
    | some t => f t s
    | none => s
  with_ [0x52, 0x41, 0x49, 0x4C] applyRails (with_ [0x4D, 0x57, 0x48, 0x4C] motionTable (with_ [0x4C, 0x4E, 0x45, 0x51] applyLanes s))

/-! ### The end of Dawn's hardware steps -/

/-- The BOOT record (R588). `bad` names the slots that failed. -/
def bootPayload (s : State) (ok fallback : Bool) (x bad : Nat) : List Byte :=
  let im := s.trust.image
  let z := List.replicate 64 (0 : Byte)
  leBytes 1 (boolNat (!ok)) ++ leBytes 1 (if ok then x else 0xFF) ++ leBytes 1 (boolNat fallback) ++ leBytes 1 bad ++
  leBytes 4 ((im.map (·.fwVersion)).getD 0) ++ leBytes 4 ((im.map (·.cfgVersion)).getD 0) ++
  leBytes 4 ((im.map (·.seq)).getD 0) ++ leBytes 1 (if ok then s.fld TRUST_STATUS.RUN_ROLLBACK else 0) ++
  leBytes 1 s.trust.otp.rollbackSteps ++ [0, 0] ++ padTo 64 ((im.map (·.fwDigest)).getD z) ++
  padTo 64 ((im.map (·.cfgDigest)).getD z)

/-- The image of slot `x` is the running one; `fallback` when it was tried second. -/
def runImage (x : Nat) (fallback : Bool) (s : State) : State :=
  let s := (s.setFld TRUST_STATUS.SLOT x).setFlag TRUST_STATUS.FALLBACK fallback
  let s := (s.setFld TRUST_STATUS.RUN_ROLLBACK (hdr s x 0x0A 1)).setFlag TRUST_STATUS.AVAIL_Q ((hdr s x 0x0B 1).testBit 0)
  let co := section_ s x 1
  let im : RunningImage :=
    { fwVersion := hdr s x 0x0C 4, cfgVersion := hdr s x 0x84 4, seq := hdr s x 0x80 4, fwDigest := fwDigest s x
      cfgDigest := cfgDigest s x }
  { s with
    sys := { s.sys with coLen := co.length, coEntry := hdr s x 0x20 4, coDigest := sha3_512 co }
    trust := { s.trust with image := some im } }

/-- Step 8: rails and domains of Dawn are on, the Stage Manager and core 0 start, the firmware region is protected (R41,
R78, R561). -/
def startCores (s : State) : State :=
  let ds := modeDomains 1 0
  let s := domainsUp ds (setRails ds s)
  { s with
    sys := { s.sys with fwGuard := true }
    call := { s.call with companyHeld := false, smHeld := false, coKick := s.ticks, smKick := s.ticks } }

/-- Step 8 waits for the rails of Dawn, which rise after step 5 (R536). -/
def dawnEnd (s : State) : State :=
  let (ready, s) := railsReady (modeDomains 1 0) s
  if ready then startCores s else s

/-- A slot verified: steps 7 and 8 of R78. -/
def bootSlot (x : Nat) (fallback : Bool) (bad : Nat) (board : List (List Byte × List Byte)) (s : State) : State :=
  let s := applyBoard board (runImage x fallback s)
  let s := { s with hash := { s.hash with bootSeq := s.fld NVMC_JRNL_SEQ.DATA } }
  dawnEnd (deviceRecord 1 (bootPayload s true fallback x bad) s)

/-- No slot verified (R80). -/
def bootFailed (s : State) : State :=
  let s := s.setFlag TRUST_STATUS.BOOT_FAIL true
  darkHeld .bootFail (deviceRecord 1 (bootPayload s false false 0xFF 3) s)

/-- Dawn, from the reset release to the start of the cores (R78). -/
def dawn (s : State) : State :=
  let s := domainsUp [1, 2, 3, 4, 5, 29] s
  let s := dawnLifecycle (readJournal s)
  match slotOrder s with
  | a :: b :: _ =>
    match trySlot a s with
    | (some board, s) => bootSlot a false 0 board s
    | (none, s) =>
      match trySlot b s with
      | (some board, s) => bootSlot b true (2 ^ a) board s
      | (none, s) => bootFailed s
  | _ => s

/-- Dawn runs; where its step 8 waits for rails, the row comes again. The NVM is not read while rail 0 is missing (R535, R538). -/
def execDawn (s : State) : Host.Outcome State Fault Refusal :=
  if s.mode ≠ 1 ∨ s.power.dark ≠ .none then .next s
  else if s.trust.image.isNone then .next (if s.power.nvmLock then s else dawn s)
  else .next (if s.call.smHeld then dawnEnd s else s)

end Sys2Proof.Machine
end

