-- ==== Sys2Proof/Machine/Hevd.lean ====
section
/-! DEFINITION. The H.265 decoder: the input ring (R362), buffers and the bumping process (R363, R364), concealment and
budgets as they end an access unit (R361, R365 to R367), and its registers (R368). -/

namespace Sys2Proof.Machine

def setHevd (h : HevdState) (s : State) : State := { s with hevd := h }

def hevdFlag (f : Fld) (cls : EventClass) (s : State) : State := postFlag f f.lo cls 9 0xFF 0 s

def hevdIn (s : State) : Nat := s.fld HEVD_IN_BASE_LO.ADDR * 32 + s.fld HEVD_IN_BASE_HI.ADDR * 2 ^ 32
def hevdOut (s : State) : Nat := s.fld HEVD_OUT_BASE_LO.ADDR * 4096 + s.fld HEVD_OUT_BASE_HI.ADDR * 2 ^ 32
def hevdCount (s : State) : Nat := clamp 2 32 (s.fld HEVD_OUT_COUNT.COUNT)
def hevdEntries (s : State) : Nat := 2 ^ clamp 4 16 (s.fld HEVD_IN_SIZE.LOG2)

/-- The DRAM address of the entry that RD names. -/
def hevdEntry (s : State) : Nat := hevdIn s + 32 * (s.fld HEVD_IN_RD.RD % hevdEntries s)

/-- A buffer that holds no picture and that firmware does not hold (R364). -/
def HevdBuf.isFree (b : HevdBuf) : Bool := !b.out && !b.needed && !b.ref

/-- The live fields of `HEVD_STATUS`: an access unit is in progress while entries wait and the decoder is enabled. -/
def hevdShow (s : State) : State :=
  let busy := s.flag HEVD_CTRL.EN && s.fld HEVD_IN_RD.RD != s.fld HEVD_IN_WR.WR
  ((s.setFlag HEVD_STATUS.BUSY busy).setFlag HEVD_STATUS.WAIT_BUF (busy && s.hevd.waitBuf)).setFld HEVD_STATUS.FIFO
    s.hevd.fifo.length

/-- The entry at RD completes: RESULT and BUF are written and RD advances (R362). -/
def hevdResult (flags : Nat) (buf : Nat) (s : State) : State :=
  let a := hevdEntry s
  let s := if inDram s a 32 then s.writeDram (dramOff a + 0x18) (leBytes 4 (2 ^ 31 + flags) ++ leBytes 4 buf) else s
  s.setFld HEVD_IN_RD.RD (s.fld HEVD_IN_RD.RD + 1)

/-- The entry at RD names no readable access unit (R362). -/
def hevdBadEntry (s : State) : Bool :=
  let b := s.dramBytes (dramOff (hevdEntry s)) 16
  let len := leAt b 8 4
  len == 0 || decide (268435456 < len) || !inDram s (leAt b 0 8) len

/-- Bad entries at the front of the ring complete at once. -/
def hevdSkipBad : Nat → State → State
  | 0, s => s
  | n + 1, s =>
    if s.flag HEVD_CTRL.EN && s.fld HEVD_IN_RD.RD != s.fld HEVD_IN_WR.WR && hevdBadEntry s then
      hevdSkipBad n (hevdResult 0x10 0xFFFFFFFF
        ((poisonWarn 9 0xFF (dramOff (hevdEntry s)) 32 s).setFlag HEVD_EVENT.BAD_ENTRY true))
    else s

/-- The decoder goes on to the entry at RD, whose decoding begins now (R362, R367). -/
def hevdNext (s : State) : State :=
  let s := setHevd { s.hevd with began := s.ticks } s
  hevdShow (hevdSkipBad ((s.fld HEVD_IN_WR.WR + 2 ^ 32 - s.fld HEVD_IN_RD.RD) % 2 ^ 32) s)

/-- Firmware advances WR; a value beyond RD + 2^LOG2 is ignored with a warning (R362). -/
def execHevdInWrWrite (value : Word) (s : State) : Host.Outcome State Fault Refusal :=
  let s := busOk 0 s
  if s.domainOn 19 = false then .next s
  else if hevdEntries s < (value.toNat + 2 ^ 32 - s.fld HEVD_IN_RD.RD) % 2 ^ 32 then
    .next (postKind 4 9 0xFF HEVD_IN_WR.WR.addr s)
  else
    let idle := s.fld HEVD_IN_RD.RD == s.fld HEVD_IN_WR.WR
    let s := s.setFld HEVD_IN_WR.WR value.toNat
    .next (if idle then hevdNext s else hevdShow s)

/-! ### The bumping process (R364) -/

/-- Pictures that wait for output. -/
def waitingPics (bs : List HevdBuf) : Nat := (bs.filter (fun b => b.needed)).length

/-- The waiting picture with the smallest POC. -/
def firstOut (bs : List HevdBuf) : Option Nat :=
  (List.range bs.length).foldl (fun best k =>
    match bs[k]? with
    | some b =>
      if b.needed = false then best
      else match best.bind (fun j => (bs[j]?).bind (fun x => x.pic)), b.pic with
        | some m, some p => if p < m then some k else best
        | _, _ => some k
    | none => best) none

/-- One picture is bumped: its index enters the output FIFO. -/
def bumpOne (s : State) : State :=
  match firstOut s.hevd.bufs with
  | none => s
  | some k =>
    setHevd { s.hevd with
      bufs := modAt s.hevd.bufs k (fun b => { b with needed := false, out := true }), fifo := s.hevd.fifo ++ [k] }
      (s.setFlag HEVD_EVENT.OUTPUT true)

/-- Bump while more pictures wait than `reorder`, or one has waited `latency` pictures (0: no limit). -/
def bumpWhile : Nat → Nat → Nat → State → State
  | 0, _, _, s => s
  | n + 1, reorder, latency, s =>
    let bs := s.hevd.bufs
    if reorder < waitingPics bs ∨ (latency ≠ 0 ∧ bs.any (fun b => b.needed && decide (latency ≤ b.latency))) then
      bumpWhile n reorder latency (bumpOne s)
    else s

/-- Pictures in the decoded picture buffer. -/
def dpbFull (bs : List HevdBuf) : Nat := (bs.filter (fun b => b.needed || b.ref)).length

def bumpFull : Nat → Nat → State → State
  | 0, _, s => s
  | n + 1, dpb, s =>
    if dpb ≤ dpbFull s.hevd.bufs ∧ 0 < waitingPics s.hevd.bufs then bumpFull n dpb (bumpOne s) else s

/-- Before a picture is decoded: the reference picture set marks, and pictures leave as C.5.2.2 says. -/
def bumpBefore (newSeq dropPrior : Bool) (reorder latency dpb : Nat) (refs : List Nat) (s : State) : State :=
  let bufs := s.hevd.bufs.zipIdx.map (fun e =>
    { e.1 with ref := !newSeq && refs.contains e.2 && e.1.ref, needed := e.1.needed && !(newSeq && dropPrior) })
  let s := setHevd { s.hevd with bufs := bufs } s
  if newSeq then bumpWhile 32 0 0 s else bumpFull 32 dpb (bumpWhile 32 reorder latency s)

/-- The current picture enters buffer `k` and pictures leave as C.5.2.3 says: it counts towards the latency of those that follow it in
output order. -/
def bumpAfter (k : Nat) (poc : Int) (output : Bool) (reorder latency : Nat) (s : State) : State :=
  let bufs := s.hevd.bufs.map (fun b => if b.needed && output && b.pic.any (fun q => decide (poc < q)) then
      { b with latency := b.latency + 1 } else b)
  let bufs := modAt bufs k (fun _ => { pic := some poc, needed := output, ref := true, latency := 0, out := false, made := false })
  bumpWhile 32 reorder latency (setHevd { s.hevd with bufs := bufs } s)

/-! ### Access units -/

/-- The pitch of a picture of width `w` (R363). -/
def hevdPitch (w : Nat) : Nat := roundUp (2 * w) 64

/-- Chroma lines by CHROMA (R363, R364). -/
def hevdChroma (chroma h : Nat) : Nat := if chroma = 0 then 0 else if chroma = 1 then h / 2 else h

/-- The output header (R364). -/
def hevdHeader (chroma depth w h : Nat) (window : List Nat) (poc : Int) (concealed flags : Nat) (tag : List Byte)
    (identity : Option (List Byte)) : List Byte :=
  let head := [0x45, 0x44, 0x50, 0x58] ++ leBytes 2 (flags + 8 * boolNat identity.isSome) ++ leBytes 1 chroma ++
    leBytes 1 depth ++ leBytes 2 w ++ leBytes 2 h ++ ((List.range 4).map (fun i => leBytes 2 (window.getD i 0))).flatten ++
    leBytes 4 (hevdPitch w) ++ leBytes 4 (hevdPitch w * h) ++ leBytes 4 (ofSigned 32 poc) ++ padTo 8 tag ++
    leBytes 4 concealed ++ leBytes 4 0
  let id := match identity with
    | some p =>
      let p := padTo 54 p
      (p.drop 20).take 14 ++ [(p.drop 18).headD 0, 0] ++ ((p.drop 34).take 4) ++ List.replicate 12 0 ++ p.drop 38
    | none => List.replicate 48 0
  padTo 256 (head ++ id)

/-- A profile that the decoder decodes (R361): Main, Main 10, Main 4:2:2 10 or Main 4:2:2 12; the last two have one profile_idc, and
their general constraint flags tell them from the other range extensions profiles (R331). -/
def hevdProfile (sps : SpsInfo) : Bool :=
  sps.profile == 1 || sps.profile == 2 ||
    (sps.profile == 4 && (sps.rext == (constraintBits 3).take 9 || sps.rext == (constraintBits 4).take 9))

/-- A sequence that the decoder decodes (R361): of a profile it knows, up to 12 bits, up to Level 6.1, without 4:4:4. -/
def hevdSupported (sps : SpsInfo) (chroma depth w h : Nat) : Bool :=
  hevdProfile sps && decide (sps.level ≤ 183) && decide (chroma ≤ 2) &&
  decide (depth ≤ 12) && decide (sps.rate ≤ 2123366400) && decide (w * h ≤ 35651584)

/-- The reference picture in the buffer with the smallest POC distance, the first of equals (R365). -/
def nearestRef (bs : List HevdBuf) (poc : Int) : Option Nat :=
  ((List.range bs.length).filterMap (fun k => ((bs[k]?).filter (fun b => b.ref)).bind (fun b => b.pic.map (fun q => (k,
      (q - poc).natAbs))))).foldl
    (fun best e => match best with
      | some (_, m) => if e.2 < m then some e else best
      | none => some e) none |>.map (fun e => e.1)

/-- The CTU that holds byte `i` of the planes of a picture, in raster order, or none for bytes beyond the width. -/
def planeCtu (chroma ctb w h i : Nat) : Option Nat :=
  let p := hevdPitch w
  let (x, y) := if i < p * h then (i % p / 2, i / p)
    else (2 * ((i - p * h) % p / 4), (i - p * h) / p * (h / max 1 (hevdChroma chroma h)))
  if w ≤ x then none else some (y / ctb * ceilDiv w ctb + x / ctb)

/-- The bytes of both planes with the CTUs `lost` concealed: the co-located samples of the reference at DRAM offset `ref`, or
2^(BitDepth−1) (R365). -/
def concealPlanes (s : State) (chroma depth ctb w h : Nat) (lost : List Nat) (ref : Option Nat) (bs : List Byte) : List Byte :=
  if lost.isEmpty then bs
  else bs.zipIdx.map (fun e =>
    if (planeCtu chroma ctb w h e.2).any (fun c => lost.contains c) then
      match ref with
      | some a => (s.dramBytes (a + 256 + e.2) 1).headD 0
      | none => (leBytes 2 (2 ^ (depth - 1))).getD (e.2 % 2) 0
    else e.1)

/-- The DRAM offset of buffer `k`. -/
def hevdBufAt (s : State) (k : Nat) : Nat := dramOff (hevdOut s + k * s.fld HEVD_OUT_STRIDE.BYTES)

/-- A picture that the reference picture set names and the buffer lacks is generated in a free buffer, every sample 2^(BitDepth−1);
it is a reference and never output (R366). -/
def hevdGenerate (plane depth : Nat) (s : State) (poc : Int) : State :=
  match (if s.hevd.bufs.any (fun b => b.ref && b.pic == some poc) then none else s.hevd.bufs.findIdx? HevdBuf.isFree) with
  | none => s
  | some k =>
    let s := s.writeDram (hevdBufAt s k + 256) ((List.range (plane / 2)).map (fun _ => leBytes 2 (2 ^ (depth - 1)))).flatten
    setHevd { s.hevd with bufs := modAt s.hevd.bufs k (fun _ =>
      { pic := some poc, needed := false, ref := true, latency := 0, out := false, made := true }) } s

/-- The reference pictures are read as far as the picture needs them, a free value (R377). -/
def hevdRefReads (plane : Nat) (refs : List Nat) (s : State) : State :=
  refs.foldl (fun s k =>
    let a := hevdBufAt s k + 256
    if s.poisoned a plane && (Config.openRead s.ticks a).getLsbD 0 then poisonWarn 9 0xFF a plane s else s) s

/-- The 64-byte pieces of the planes of a picture that concealment takes from poisoned blocks of the reference at DRAM offset `ref`, as
offsets into the planes (R365, R376). -/
def poisonedPieces (s : State) (chroma ctb w h plane : Nat) (lost : List Nat) (ref : Option Nat) : List Nat :=
  match ref with
  | none => []
  | some a =>
    if s.poisoned (a + 256) plane = false then []
    else ((List.range (ceilDiv plane 64)).map (64 * ·)).filter (fun i =>
      s.poisoned (a + 256 + i) 64 &&
        (List.range 64).any (fun j => (planeCtu chroma ctb w h (i + j)).any (fun c => lost.contains c)))

/-- A decoded picture goes to the buffer at DRAM offset `at_`: its header and its planes, the undecoded CTUs concealed from the reference
at `ref` (R363 to R365); samples copied from poisoned blocks are stored poisoned (R376). -/
def hevdStore (at_ chroma depth ctb w h plane : Nat) (lost : List Nat) (ref : Option Nat) (hdr samples : List Byte) (s : State) :
    State :=
  let bs := concealPlanes s chroma depth ctb w h lost ref (padTo plane samples)
  let bad := if lost.isEmpty then [] else poisonedPieces s chroma ctb w h plane lost ref
  let s := match ref with
    | some a => if lost.isEmpty then s else poisonWarn 9 0xFF (a + 256) plane s
    | none => s
  bad.foldl (fun s i => s.writePoisoned (at_ + 256 + i) ((bs.drop i).take 64)) (s.writeDram at_ (hdr ++ bs))

/-- The access unit at RD ends with `au`; `abandoned` says that its budget ran out (R361 to R367). -/
def hevdComplete (abandoned : Bool) (au : AccessUnit) (s : State) : State :=
  let b := s.dramBytes (dramOff (hevdEntry s)) 32
  let eos (s : State) : State := if (leAt b 0xC 4).testBit 0 then bumpWhile 32 0 0 s else s
  let tag := (b.drop 0x10).take 8
  if s.domainOn 19 = false ∨ s.flag HEVD_STATUS.BUSY = false then s
  else
    let s := poisonWarn 9 0xFF (dramOff (leAt b 0 8)) (leAt b 8 4) (poisonWarn 9 0xFF (dramOff (hevdEntry s)) 32 s)
    match au with
    | .unsupported => hevdNext (eos (hevdResult 8 0xFFFFFFFF (s.setFlag HEVD_EVENT.UNSUPPORTED true)))
    | .empty => hevdNext (eos (hevdResult 0 0xFFFFFFFF s))
    | .picture sps chroma depth w h window poc concealed generated identity samples newSeq dropPrior output reorder latency dpb refs =>
      let plane := hevdPitch w * (h + hevdChroma chroma h)
      if hevdSupported sps chroma depth w h = false ∨ s.fld HEVD_OUT_STRIDE.BYTES < 256 + plane ∨ hevdCount s < dpb + 1 then
        hevdNext (eos (hevdResult 8 0xFFFFFFFF (s.setFlag HEVD_EVENT.UNSUPPORTED true)))
      else
        let s := bumpBefore newSeq dropPrior reorder latency dpb (refs.map (·.val)) s
        let s := generated.foldl (hevdGenerate plane depth) s
        match s.hevd.bufs.findIdx? HevdBuf.isFree with
        | none => hevdShow (setHevd { s.hevd with waitBuf := true, waitFrom := if s.hevd.waitBuf then s.hevd.waitFrom else s.ticks } s)
        | some k =>
          let made := refs.any (fun r => (s.hevd.bufs[r.val]?).any (fun b => b.made && b.ref))
          let hidden := abandoned || !generated.isEmpty || made || !concealed.isEmpty
          let flags := 2 * boolNat hidden + 4 * boolNat abandoned
          let hdr := hevdHeader chroma depth w h window poc concealed.length (1 + flags) tag identity
          let ref := (nearestRef s.hevd.bufs poc).map (hevdBufAt s)
          let s := hevdStore (hevdBufAt s k) chroma depth sps.ctb w h plane concealed ref hdr samples
            (hevdRefReads plane (refs.map (·.val)) s)
          let s := s.addFld HEVD_CNT_PIC.COUNT 1
          let s := if hidden then hevdFlag HEVD_EVENT.CONCEALED .info (s.addFld HEVD_CNT_CONCEAL.COUNT 1) else s
          let s := if abandoned then hevdFlag HEVD_EVENT.ABANDONED .warning (s.addFld HEVD_CNT_ABANDON.COUNT 1) else s
          let s := bumpAfter k poc output reorder latency (setHevd { s.hevd with waitBuf := false } s)
          hevdNext (eos (hevdResult (1 + flags) k s))

/-- The picture in decoding has used its budget, without its waits for a buffer (R367). -/
def hevdSpent (s : State) : Bool := decide (clamp 1 1000000 (s.fld HEVD_BUDGET.US) * 400 ≤ s.ticks - s.hevd.began) && !s.hevd.waitBuf

def execHevdAuComplete (au : AccessUnit) (s : State) : Host.Outcome State Fault Refusal := .next (hevdComplete false au s)

/-- The budget of the picture runs out; `au` names its undecoded CTUs, which are concealed (R367). -/
def execHevdBudgetExpire (au : AccessUnit) (s : State) : Host.Outcome State Fault Refusal :=
  if hevdSpent s then .next (hevdComplete true au s) else .next s

/-- A read of `HEVD_OUT_POP` removes the next index (R364). -/
def execHevdOutPop (s : State) : Host.Outcome State Fault Refusal :=
  if s.domainOn 19 = false then .next (busOk 0 s)
  else
    match s.hevd.fifo with
    | [] => .next (busOk 0 s)
    | k :: t => .next (hevdShow (setHevd { s.hevd with fifo := t } (busOk (BitVec.ofNat 32 (2 ^ 31 + k)) s)))

/-- A write of `HEVD_OUT_REL` returns a buffer that firmware holds; a decoder that waits for one goes on when it is free (R364). -/
def execHevdOutRel (buf : Fin 32) (s : State) : Host.Outcome State Fault Refusal :=
  let s := busOk 0 s
  if s.domainOn 19 = false then .next s
  else if (s.hevd.bufs[buf.val]?).any (fun b => b.out) && !s.hevd.fifo.contains buf.val then
    let bufs := modAt s.hevd.bufs buf.val (fun b => { b with out := false })
    let h : HevdState := { s.hevd with bufs := bufs }
    .next (hevdShow (setHevd (if s.hevd.waitBuf ∧ bufs.any HevdBuf.isFree then
      { h with waitBuf := false, began := s.hevd.began + (s.ticks - s.hevd.waitFrom) } else h) s))
  else .next (postKind 4 9 0xFF HEVD_OUT_REL.BUF.addr s)

/-- EN is cleared: the access unit is abandoned, the FIFO emptied, every buffer with the decoder again (R368). -/
def execHevdDisable (s : State) : Host.Outcome State Fault Refusal :=
  let s := busOk 0 s
  if s.domainOn 19 = false then .next s
  else .next (hevdShow (setHevd { hevdInit with bufs := List.replicate (hevdCount s) hevdBufFree } (s.setFlag HEVD_CTRL.EN false)))

/-- EN is set, unless the output region lies outside the populated DRAM (the HEVD register table). -/
def hevdEnable (s : State) : State :=
  if s.flag HEVD_CTRL.EN then s
  else if inDram s (hevdOut s) (hevdCount s * s.fld HEVD_OUT_STRIDE.BYTES) then
    hevdNext (setHevd { hevdInit with bufs := List.replicate (hevdCount s) hevdBufFree } (s.setFlag HEVD_CTRL.EN true))
  else postKind 4 9 0xFF HEVD_CTRL.EN.addr s

/-- `HEVD_CNT_CTRL.CLEAR`. -/
def execHevdCounterClear (s : State) : Host.Outcome State Fault Refusal :=
  .next ((((busOk 0 s).setFld HEVD_CNT_PIC.COUNT 0).setFld HEVD_CNT_CONCEAL.COUNT 0).setFld HEVD_CNT_ABANDON.COUNT 0)

end Sys2Proof.Machine
end

