-- ==== Sys2Proof/Machine/Mgmt.lean ====
section
/-! DEFINITION. The audit of the ledger and of the credits (R243 to R245), and the management port (R515 to R531): its
window, its transactions, its control page and its alert. -/

namespace Sys2Proof.Machine

/-! ### The audit -/

/-- The eight frame counters of port `p` (R243). -/
def frameCounters (s : State) (p : Nat) : List Nat :=
  [s.ledger.seen.getD p 0] ++ s.ledger.finals.getD p [] ++
    [(s.ledger.frames.filter (fun f => f.port == p && f.inFlight)).length]

/-- POOL of credit path `c` (R244). -/
def creditPool (s : State) (c : Nat) : Nat :=
  if c < 4 then 16384
  else if c = 4 then (s.ledger.parts.map (fun p => p.slots)).sum
  else if c = 5 then 512 else if c = 6 then 256 else if c = 7 ∨ c = 8 then 1024
  else if c = 9 then s.fld VIEW_POOL_CFG.COUNT_M1 + 1
  else if c = 10 then 64
  else (pipePort s (c - 11)).bufs.length

/-- The counters of credit path `c` (R244). -/
def creditCounters (s : State) (c : Nat) : List Nat :=
  match s.ledger.credits[c]? with
  | some x => [x.issued % 2 ^ 64, x.returned % 2 ^ 64, x.outstanding, creditPool s c]
  | none => [0, 0, 0, 0]

/-- The rule of R243 on the counters of a port: SEEN is the sum of the others. -/
def framesConserved (l : List Nat) : Bool := decide (l.headD 0 = (l.drop 1).sum)

/-- The rule of R244 on the counters of a path. -/
def creditConserved (l : List Nat) : Bool :=
  decide (((l.getD 0 0 : Nat) : Int) - l.getD 1 0 = l.getD 2 0) && decide (l.getD 2 0 ≤ l.getD 3 0)

/-- The audit paths: 0 to 3 the ports, 4 to 18 the credit paths (`LEDGER_AUDIT_SEL.PATH`). -/
def auditBreaches (s : State) : List Nat :=
  ((List.range 4).filter (fun p => !framesConserved (s.ledger.auditFrames.getD p []))) ++
  (((List.range 15).filter (fun c => !creditConserved (s.ledger.auditCredits.getD c []))).map (· + 4))

/-- The counters are sampled and checked (R245). -/
def audit (s : State) : State :=
  let s := setLedger { s.ledger with
    auditFrames := (List.range 4).map (frameCounters s), auditCredits := (List.range 15).map (creditCounters s)
    auditAt := (s.time.sec.toNat, s.time.ns) } s
  (auditBreaches s).foldl (fun s k =>
    postFlag LEDGER_EVENT.AUDIT_FAIL LEDGER_EVENT.AUDIT_FAIL.lo .fatal 6 k 0 (s.orBit LEDGER_AUDIT_FAIL.PATH k)) s

/-- At each device time whose nanoseconds are 0: the audit (R245), the second latch (R297), an index record to every open take
(R328). -/
def execLedgerAudit (s : State) : Host.Outcome State Fault Refusal :=
  .next (if secondsAdvanced s then alertUpdate (indexRecords (secondLatch (audit s))) else s)

/-- The sampled counter that `LEDGER_AUDIT_SEL` selects. -/
def auditVal (s : State) : Nat :=
  let p := s.fld LEDGER_AUDIT_SEL.PATH
  let i := s.fld LEDGER_AUDIT_SEL.INDEX
  if p < 4 then (s.ledger.auditFrames.getD p []).getD i 0 else (s.ledger.auditCredits.getD (p - 4) []).getD i 0

/-! ### Counters and flags of the port -/

/-- Count a happening of the port (`MGMT_CNT_SEL.KIND`). -/
def mgmtCount (kind : Nat) (n : Nat) (s : State) : State :=
  setMgmt { s.mgmt with counts := modAt s.mgmt.counts kind (fun x => satAdd (2 ^ 32 - 1) x n) } s

def mgmtMark (n : Nat) (s : State) : State := s.orBit MGMT_EVENT.EVENT n

/-- An event of the port by its bit. -/
def mgmtEvent (n : Nat) (cls : EventClass) (s : State) : State := postFlag MGMT_EVENT.EVENT n cls 19 0xFF 0 s

/-- A control write is refused (R523). -/
def mgmtRefused (s : State) : State := mgmtCount 6 1 (mgmtMark 6 s)

/-- A message to the Stage Manager is pending, or not (R526). -/
def setToSm (b : Bool) (s : State) : State := (s.setFlag MGMT_MBOX_CTRL.TO_SM b).setFlag MGMT_STATUS.MSG_TO_SM b

/-- A reply of the Stage Manager is ready, or not (R526). -/
def setFromSm (b : Bool) (s : State) : State := (s.setFlag MGMT_MBOX_CTRL.FROM_SM b).setFlag MGMT_STATUS.MSG_FROM_SM b

/-! ### The control page (R523 to R527) -/

/-- A control write acts only while CTRL_EN is set (R523). -/
def control (f : State → State) (s : State) : State := if s.flag MGMT_CFG.CTRL_EN then f s else mgmtRefused s

def doWake (value : Nat) (s : State) : State :=
  control (fun s =>
    if (value = 2 ∨ value = 6) ∧ s.mode = 7 ∧ s.flag MGMT_CFG.WAKE_EN then wakeTo value s else mgmtRefused s) s

def doCuesel (value : Nat) (s : State) : State :=
  control (fun s =>
    acceptCommit (doStackOp (bits value 12 10) (bits value 9 8) (bits value 5 0) 0xFF CUE_OP.OP.addr s)) s

/-- [0] is an event on combiner input 84 at the device time of the commit (R525). -/
def doTrig (value : Nat) (s : State) : State :=
  control (fun s => if value.testBit 0 then combine [(84, s.nowNs)] s.nowNs s else s) s

def doMsg (value : Nat) (s : State) : State :=
  control (fun s =>
    let s := if value.testBit 0 then setToSm true s else s
    if value.testBit 1 then setFromSm false s else s) s

/-- The cursor advances by the count, up to PENDING (R527). -/
def doCallAck (count : Nat) (s : State) : State :=
  control (fun s => setMgmt { s.mgmt with cursor := (s.mgmt.cursor + min count (mgmtPending s)) % 2 ^ 32 } s) s

def execWake (value : Byte) (s : State) : Host.Outcome State Fault Refusal := .next (doWake value.toNat s)

def execCuesel (value : BitVec 16) (s : State) : Host.Outcome State Fault Refusal := .next (doCuesel value.toNat s)

def execTrig (value : Byte) (s : State) : Host.Outcome State Fault Refusal := .next (doTrig value.toNat s)

def execMsg (value : Byte) (s : State) : Host.Outcome State Fault Refusal := .next (alertUpdate (doMsg value.toNat s))

def execCallAck (count : BitVec 16) (s : State) : Host.Outcome State Fault Refusal :=
  .next (alertUpdate (doCallAck count.toNat s))

/-! ### Writes (R518, R519) -/

/-- A byte of the window takes writes: the fields of the control page and the message to the Stage Manager. -/
def mgmtWritable (a : Nat) : Bool :=
  (decide (0x1000 ≤ a) && decide (a ≤ 0x10FF)) || [0x200, 0x204, 0x205, 0x208, 0x20C, 0x210, 0x211].contains a

/-- The pointer after a byte of a write: it wraps within its page (R519). -/
def nextInPage (p : Nat) : Nat := p / 64 * 64 + (p + 1) % 64

/-- Stage data bytes from pointer `p` on: the pointer after them, the bytes staged, the count of those discarded. -/
def stage : Nat → List Byte → List (Nat × Byte) → Nat → Nat × List (Nat × Byte) × Nat
  | p, [], st, bad => (p, st, bad)
  | p, b :: bs, st, bad =>
    if mgmtWritable p then stage (nextInPage p) bs (keySet st p b) bad else stage (nextInPage p) bs st (bad + 1)

/-- A write as far as its staging: pointer, PTR_SHORT, RO_WRITE (R518, R519). Answers the bytes staged. -/
def stageWrite (bytes : List Byte) (s : State) : List (Nat × Byte) × State :=
  match bytes with
  | [] => ([], s)
  | [_] => ([], mgmtMark 4 s)
  | hi :: lo :: data =>
    let (p, st, bad) := stage (256 * hi.toNat + lo.toNat) data [] 0
    let s := s.setFld MGMT_STATUS.POINTER p
    (st, if bad = 0 then s else mgmtCount 5 bad (mgmtMark 5 s))

/-- Message bytes are stored; a message that waits is overwritten with a warning (R526). -/
def commitMessage (st : List (Nat × Byte)) (s : State) : State :=
  let ms := st.filter (fun e => decide (0x1000 ≤ e.1))
  let s := ms.foldl (fun s e =>
    s.setFld ⟨(MGMT_MBOX_IN.DATA ((e.1 - 0x1000) / 4)).addr, 8 * ((e.1 - 0x1000) % 4), 8⟩ e.2.toNat) s
  if ms.isEmpty = false ∧ s.flag MGMT_STATUS.MSG_TO_SM then mgmtEvent 7 .warning s else s

/-- A field of the control page, when one of its bytes was staged; a byte that was not counts as 0. -/
def stagedField (st : List (Nat × Byte)) (a n : Nat) : Option Nat :=
  if (List.range n).any (fun i => (keyGet st (a + i)).isSome) then
    some (leNat ((List.range n).map (fun i => (keyGet st (a + i)).getD 0)))
  else none

/-- The staged bytes are written in one step, the control page acts in ascending offset (R519, R524). -/
def commitWrite (st : List (Nat × Byte)) (s : State) : State :=
  let act (a n : Nat) (f : Nat → State → State) (s : State) : State :=
    match stagedField st a n with
    | some v => f v s
    | none => s
  act 0x210 2 doCallAck (act 0x20C 1 doMsg (act 0x208 1 doTrig (act 0x204 2 doCuesel (act 0x200 1 doWake (commitMessage st s)))))

/-- The device changes MGMT_SDA so many nanoseconds after a falling edge of MGMT_SCL (R531). -/
def mgmtHoldNs (s : State) : Nat := 5 * s.fld MGMT_TIMING.HOLD

/-- `held` gives, for each bit that the device drove or released, how long the wire had carried the intended level at the rising edge
of MGMT_SCL, in ns; below SETUP the bit counts as TIMING (R531). -/
def mgmtTiming (held : List Nat) (s : State) : State :=
  let slow := (held.filter (fun t => decide (t < 5 * s.fld MGMT_TIMING.SETUP))).length
  if slow = 0 then s else mgmtCount 4 slow (mgmtMark 3 s)

/-- A transaction addresses the device. -/
def mgmtAddressed (held : List Nat) (s : State) : State := mgmtTiming held (mgmtCount 0 1 s)

/-- A write named a byte of the control page that holds no field of it: it too is refused while CTRL_EN is 0 (R523). -/
def otherControl (bytes : List Byte) : Bool :=
  match bytes with
  | hi :: lo :: data => (256 * hi.toNat + lo.toNat) / 64 == 8 && (stage (256 * hi.toNat + lo.toNat) data [] 0).2.2 != 0
  | _ => false

def execMgmtWriteTransaction (bytes : List Byte) (held : List Nat) (s : State) : Host.Outcome State Fault Refusal :=
  if s.power.aonValid = false then .next s
  else
    let (st, s) := stageWrite bytes (mgmtAddressed held s)
    .next (alertUpdate (commitWrite st (if otherControl bytes ∧ s.flag MGMT_CFG.CTRL_EN = false then mgmtRefused s else s)))

/-! ### Reads (R520) -/

/-- The identity page. -/
def identityPage (s : State) : List Byte :=
  let flags := boolNat (s.trust.otp.sealSteps != 0) + 2 * boolNat (s.flag KLINK_STATUS.PRIN) +
    4 * boolNat (s.flag TIME_STATUS.HOLDOVER) + 8 * boolNat (s.flag TIME_STATUS.RC_CLK) +
    16 * boolNat (s.flag TRUST_STATUS.BOOT_FAIL)
  leBytes 2 (s.fld SYS_ID.PART) ++ leBytes 1 (s.fld SYS_ID.DIE_STEP) ++ leBytes 1 s.mode ++ leBytes 1 (lifecycleCode s) ++
    leBytes 1 flags ++ leBytes 2 (s.fld TIME_ARRAY.INDEX) ++ leBytes 8 s.time.sec.toNat ++ padTo 16 (leBytes 4 s.time.ns) ++
    padTo 32 (deviceId s)

/-- The telemetry page. -/
def telemetryPage (s : State) : List Byte :=
  padTo 64 (((List.range 12).map (fun i => leBytes 2 (s.fld (THERM_SITE.T i)))).flatten ++
    leBytes 2 (s.fld THERM_STATUS.HOTTEST_T) ++ leBytes 1 (inHour s))

/-- The Call board head (R527). -/
def callHead (s : State) : List Byte :=
  let e := if mgmtPending s = 0 then none else s.call.log.find? (fun e => e.seq == s.mgmt.cursor)
  padTo 32 (leBytes 4 (mgmtPending s) ++ leBytes 4 s.mgmt.lost) ++ padTo 32 ((e.map (·.bytes)).getD [])

/-- A page of the window, 64 bytes at `64 * n`. -/
def windowPage (s : State) (n : Nat) : List Byte :=
  if n = 0 then identityPage s
  else if n = 1 then telemetryPage s
  else if n = 8 then padTo 64 (List.replicate 12 0 ++
    leBytes 1 (boolNat (s.flag MGMT_STATUS.MSG_TO_SM) + 2 * boolNat (s.flag MGMT_STATUS.MSG_FROM_SM)))
  else if 0x40 ≤ n ∧ n < 0x44 then ((List.range 16).map (fun i => leBytes 4 (s.fld (MGMT_MBOX_IN.DATA (16 * (n - 0x40) + i))))).flatten
  else if 0x44 ≤ n ∧ n < 0x48 then ((List.range 16).map (fun i => leBytes 4 (s.fld (MGMT_MBOX_OUT.DATA (16 * (n - 0x44) + i))))).flatten
  else if n = 0x80 then callHead s
  else if 0xC0 ≤ n ∧ n < 0xC4 then ((List.range 8).map
      (fun i => leBytes 8 ((s.ledger.auditFrames.getD (n - 0xC0) []).getD i 0))).flatten
  else if n = 0xC4 then padTo 64 (leBytes 8 s.ledger.auditAt.1 ++ leBytes 4 s.ledger.auditAt.2 ++
      leBytes 4 (s.fld LEDGER_AUDIT_FAIL.PATH))
  else List.replicate 64 0

/-- A byte of the window. -/
def windowByte (s : State) (a : Nat) : Byte := (windowPage s (a / 64)).getD (a % 64) 0

/-- A read of `count` bytes: the snapshots of one transaction belong to the pages the pointer enters (R520). -/
def execMgmtReadTransaction (count : Nat) (held : List Nat) (s : State) : Host.Outcome State Fault Refusal :=
  if s.power.aonValid = false then .next s
  else
    let s := mgmtAddressed held s
    let p := s.fld MGMT_STATUS.POINTER
    let bs := (List.range count).map (fun i => windowByte s ((p + i) % 65536))
    .next (alertUpdate (setMgmt { s.mgmt with sent := bs } (s.setFld MGMT_STATUS.POINTER (p + count))))

/-- MGMT_SCL low for 35 ms (R517): the staged bytes go, the pointer stays where the completed bytes left it. -/
def execMgmtTimeout (bytes : HeldBytes) (count : Nat) (s : State) : Host.Outcome State Fault Refusal :=
  if s.power.aonValid = false ∨ s.flag MGMT_CFG.TIMEOUT_EN = false then .next s
  else
    let s := mgmtAddressed bytes.held s
    let s := match bytes.bytes with
      | [_] => s
      | bs => (stageWrite bs s).2
    let s := s.setFld MGMT_STATUS.POINTER (s.fld MGMT_STATUS.POINTER + count)
    .next (alertUpdate (mgmtEvent 2 .warning (mgmtCount 3 1 s)))

/-! ### The alert (R528 to R530) -/

/-- A read of the Alert Response Address (R529, R530); `wire` is the byte as the wire carried it, with the times of the bits
that the device drove (R531). -/
def execAlertResponse (wire : HeldByte) (aborted : Bool) (s : State) : Host.Outcome State Fault Refusal :=
  let alerting := s.flag MGMT_STATUS.ALERT
  let s := mgmtTiming (if alerting then wire.held else []) s
  if alerting = false then .next s
  else if aborted then .next (alertUpdate (mgmtEvent 1 .info (mgmtCount 2 1 s)))
  else if wire.byte.toNat = 2 * s.fld MGMT_CFG.ADDR then
    .next (alertUpdate (mgmtMark 8 (s.setFlag MGMT_STATUS.ALERT false)))
  else .next (alertUpdate (mgmtMark 0 (mgmtCount 1 1 s)))

end Sys2Proof.Machine
end

