-- ==== Sys2Proof/Machine/Sys.lean ====
section
/-! DEFINITION. Bus accesses by Company and by the Stage Manager (R12, R13, R16 to R18, R26, R32 to R34), the values that
registers show, doorbells and mailboxes (R35 to R38). -/

namespace Sys2Proof.Machine

/-! ### The maps -/

/-- The block code of R551 of the block at base bits [27:16], none where no block lies (R17). -/
def blockCode (b : Nat) : Option Nat :=
  if b ≤ 2 then some b
  else if b = 0x44 then some 18 else if b = 0x48 then some 19 else if b = 0x4C then some 20 else if b = 0x50 then some 21
  else if b = 0x54 then some 22 else if b = 0x58 then some 23 else if b = 0x5C then some 24
  else if b % 4 = 0 ∧ 4 ≤ b ∧ b ≤ 0x3C then some (b / 4 + 2)
  else none

/-- The blocks of the Stage Manager's map: SYS, TIME, MGMT, POWER, CLOCK, THERM, CALL, NVMC (R34). -/
def smBlock (b : Nat) : Bool := [0x00, 0x34, 0x48, 0x4C, 0x50, 0x54, 0x58, 0x5C].contains b

/-- The blocks that Company does not write (R26). -/
def mgmtPlane (b : Nat) : Bool := [0x48, 0x4C, 0x50, 0x54, 0x5C].contains b

/-- Where an access of `n` bytes at `addr` goes. -/
inductive BusTarget where
  | rom | scratch (off : Nat) | reg (off : Nat) | window (off : Nat) | dram (off : Nat) | smSram (off : Nat) | unmapped
  deriving DecidableEq, Repr

def busTarget (s : State) (side : Side) (addr n : Nat) : BusTarget :=
  let regs (ok : Nat → Bool) : BusTarget :=
    if 0x10000000 ≤ addr ∧ addr < 0x40000000 ∧ ok ((addr - 0x10000000) / 0x10000) then .reg (addr - 0x10000000) else .unmapped
  match side with
  | .stageManager => if addr + n ≤ 0x40000 then .smSram addr else regs smBlock
  | .company _ =>
    if addr + n ≤ 0x10000 then .rom
    else if 0x1000000 ≤ addr ∧ addr + n ≤ 0x1800000 then .scratch (addr - 0x1000000)
    else if 0x40000000 ≤ addr ∧ addr + n ≤ 0x40500000 then .window (addr - 0x40000000)
    else if inDram s addr n then .dram (addr - 0x800000000)
    else regs (fun b => (blockCode b).isSome)

def accessBytes : AccessSize → Nat
  | .byte => 1 | .half => 2 | .word => 4

/-- A register is implemented at `off`: the SPI registers only in the instances of ports 0 and 1 (R17). -/
def regAt (off : Nat) : Option RegDef :=
  if 0x48000 ≤ off ∧ off < 0x50000 ∧ 0x80 ≤ off % 0x4000 ∧ off % 0x4000 < 0x100 then none
  else if off % 4 = 0 then findReg off else none

/-! ### What registers show -/

/-- `w` with a field replaced. -/
def put (f : Fld) (n : Nat) (w : Word) : Word := insertBits w f.lo f.width n

/-- A stack as `CUE_ACTIVE` and `CUE_PENDING` show it. -/
def stackView (st : CueStack) : Word :=
  let u (i : Nat) := st.users.getD i 0
  put CUE_ACTIVE.MODE_CUE (st.modeCue.getD 0) (put CUE_ACTIVE.L1 (u 0) (put CUE_ACTIVE.L2 (u 1) (put CUE_ACTIVE.L3 (u 2)
    (put CUE_ACTIVE.L4 (u 3) 0))))

def commitCode : CommitState → Nat
  | .idle => 0 | .preparing _ => 1 | .armed _ _ _ => 2

/-- The fields of CUE, TRUST and INGEST that follow what those blocks hold. OPENED shows from the first seal step on, before a Dawn too
(R95). -/
def viewFront (s : State) (a : Nat) (w : Word) : Word :=
  if a = CUE_STATUS.DEPTH.addr then put CUE_STATUS.DEPTH s.cue.active.users.length (put CUE_STATUS.STATE (commitCode s.cue.commit) w)
  else if a = CUE_ACTIVE.L1.addr then stackView s.cue.active
  else if a = CUE_PENDING.L1.addr then stackView s.cue.pending
  else if a = TRUST_STATUS.OPENED.addr then
    if s.trust.otp.sealSteps = 0 then w else put TRUST_STATUS.OPENED 1 w
  else if a = TRUST_PRESENCE.PRIV.addr then
    let left := match s.trust.windowFrom with
      | some t => (30000000000 - min 30000000000 (5 * (s.ticks - t) / 2)) / 1000000000
      | none => 0
    put TRUST_PRESENCE.WINDOW_S left (put TRUST_PRESENCE.PRIV (boolNat (privilege s)) w)
  else if 0x40000 ≤ a ∧ a < 0x50000 then
    let p := (a - 0x40000) / 0x4000
    let o := a % 0x4000
    if o = 0x18 then
      let hs := (portOf s p).hsAt.any (fun t => !s.elapsedNs t 1000000)
      put (INGEST_STATUS.HS p) (if hs then ((physLanes s p).map (2 ^ ·)).sum else 0) w
    else if 0x200 ≤ o ∧ o < 0x240 then BitVec.ofNat 32 (s.tab 0x04 p (o - 0x200) 4)
    else w
  else w

/-- The fields of PIPE, CELL, LEDGER, RAWC, HEVE and HASH that follow what those blocks hold. Which engines hash at a
moment, and how full the syntax buffer is, the spec leaves open. -/
def viewFrame (s : State) (a : Nat) (w : Word) : Word :=
  let g := s.fld CELL_GSEL.GROUP
  if a = PIPE_STATUS.QUARTERS.addr then 
    put PIPE_STATUS.QUARTERS (s.fld POWER_STATUS.ON / 2 ^ 10)
      (put PIPE_STATUS.WAITING (if s.pipe.run = 0 then 0 else min 15 (pipePort s s.pipe.turn).waiting.length) w)
  else if a = CELL_GCOUNT.LAST.addr then
    put CELL_GCOUNT.LAST (s.cell.last.getD g 0) (put CELL_GCOUNT.NOW (((s.cell.eval.map (fun e => e.counts)).getD s.cell.now).getD g 0) w)
  else if a = CELL_GFRAME_LO.DATA.addr then BitVec.ofNat 32 (s.cell.gframe.getD g 0)
  else if a = CELL_GFRAME_HI.DATA.addr then BitVec.ofNat 32 (s.cell.gframe.getD g 0 / 2 ^ 32)
  else if a = LEDGER_AUDIT_VAL_LO.VALUE.addr then BitVec.ofNat 32 (auditVal s)
  else if a = LEDGER_AUDIT_VAL_HI.VALUE.addr then BitVec.ofNat 32 (auditVal s / 2 ^ 32)
  else if a = LEDGER_NEXT_LO.DATA.addr ∧ s.mode ≠ 0 then BitVec.ofNat 32 (nextNum s)
  else if a = LEDGER_NEXT_HI.DATA.addr ∧ s.mode ≠ 0 then BitVec.ofNat 32 (nextNum s / 2 ^ 32)
  else if a = RAWC_STATUS.LANES.addr then rawcStatus s
  else if a = RAWC_DEC_STATUS.REASON.addr ∧ s.flag RAWC_DEC_STATUS.BAD_FRAME = false then put RAWC_DEC_STATUS.REASON 0 w
  else if a = (HEVE_STATUS.SYNTAX_KB 0).addr ∨ a = (HEVE_STATUS.SYNTAX_KB 1).addr then
    put ⟨a, 0, 24⟩ (heveElements s (if a = (HEVE_STATUS.SYNTAX_KB 0).addr then 0 else 1) / 1024) w
  else if a = HASH_STATUS.BUSY.addr then
    let busy := s.hash.active && (!s.hash.codedDue.isEmpty || s.hash.job.isSome || s.ingest.any (fun p => !p.opens.isEmpty))
    put HASH_STATUS.BUSY (if busy then (Config.openRead s.ticks a).toNat else 0) w
  else w

/-- The fields of the other blocks that follow what those blocks hold. -/
def viewRest (s : State) (side : Side) (a : Nat) (w : Word) : Word :=
  if a = DRAM_ERR_VAL.COUNT.addr then BitVec.ofNat 32 (dramErr s)
  else if a = DRAM_TRN_VAL.VALUE.addr then BitVec.ofNat 32 (trnVal s)
  else if a = (NET_CNT_VAL.COUNT 0).addr then BitVec.ofNat 32 (netCountOf s 0)
  else if a = (NET_CNT_VAL.COUNT 1).addr then BitVec.ofNat 32 (netCountOf s 1)
  else if a = TIME_KA_STATUS.RX_FULL.addr then put TIME_KA_STATUS.TX_BUSY (kaBusy s) (put TIME_KA_STATUS.RX_FULL (kaFull s) w)
  else if a = KLINK_CNT_VAL.COUNT.addr then BitVec.ofNat 32 (klinkCount s)
  else if a = VIEW_STATUS.LINE.addr then put VIEW_STATUS.HELD (boolNat (viewHeld s)) (put VIEW_STATUS.LINE (viewLine s) w)
  else if a = MGMT_CNT_VAL.COUNT.addr then BitVec.ofNat 32 (s.mgmt.counts.getD (s.fld MGMT_CNT_SEL.KIND) 0)
  else if a = CLOCK_STATUS.LOCK.addr then
    put CLOCK_STATUS.LOCK ((List.range 7).map (fun p => boolNat (pllLocked s p) * 2 ^ p)).sum w
  else if a = CLOCK_FOREIGN.ACTIVE.addr then
    let port (p : Nat) := (portOf s p).hsAt.any (fun t => !s.elapsedNs t 1000000)
    let bits := (List.range 4).map (fun p => boolNat (port p) * 2 ^ p) ++
      (List.range 26).map (fun l => boolNat (s.flag (LANE_STATUS.LOCK l)) * 2 ^ (4 + l))
    BitVec.ofNat 32 bits.sum
  else if a = THERM_STATUS.IN_HOUR.addr then put THERM_STATUS.IN_HOUR (inHour s) w
  else if a = THERM_COOL.MS_LEFT.addr then put THERM_COOL.MS_LEFT (coolLeft s) w
  else if a = CALL_STATUS.OPEN.addr then
    let open_ := ((s.call.log ++ s.call.queue).filter (fun e => e.waits)).length
    put CALL_STATUS.FATAL_OPEN (boolNat (!s.call.fatals.isEmpty)) (put CALL_STATUS.CO_RESTART (boolNat s.call.restart.isSome)
      (put CALL_STATUS.CUR_VALID (boolNat s.call.current.isSome) (put CALL_STATUS.QUEUE s.call.queue.length
        (put CALL_STATUS.OPEN (min 4095 open_) w))))
  else if a = CALL_CUR.SEQ.addr then BitVec.ofNat 32 (s.call.current.getD 0)
  else if a = CALL_LOG_IDX.IDX.addr ∧ side = .stageManager then BitVec.ofNat 32 s.call.logIdxSm
  else if a = CALL_POST_DETAIL.DETAIL.addr ∧ side = .stageManager then s.call.detailSm
  else if (CALL_LOG_ENTRY.DATA 1).addr ≤ a ∧ a ≤ (CALL_LOG_ENTRY.DATA 7).addr then
    (match side with
      | .company _ => s.call.latchCo
      | .stageManager => s.call.latchSm).getD ((a - (CALL_LOG_ENTRY.DATA 1).addr) / 4) 0
  else if a = NVMC_JRNL_FREE.COPY0.addr then put NVMC_JRNL_FREE.COPY1 (erasedPages s 1) (put NVMC_JRNL_FREE.COPY0 (erasedPages s 0) w)
  else w

/-- A register shows its value while its domain is off: `KLINK_PAIR` and `KLINK_TERM`, and those of PIPE, whose shadowed fields read
their active value (R61). -/
def readsOff (a : Nat) : Bool := a == KLINK_PAIR.TOPO.addr || a == KLINK_TERM.TERM.addr || a / 0x10000 == 0x08

/-- The value of the register at offset `a` (R12, R17): WO fields read 0, a register whose domain is off reads Reset. -/
def readReg (s : State) (side : Side) (a : Nat) : Word :=
  match regAt a with
  | none => if 0x341000 ≤ a ∧ a < 0x341C00 then BitVec.ofNat 32 (kaWord s (a - 0x341000 - a % 4)) else 0
  | some r =>
    if regDark s a && !readsOff a then r.reset &&& ~~~(r.maskOf (fun f => f.acc == .wo))
    else viewRest s side a (viewFrame s a (viewFront s a (s.word a))) &&& ~~~(r.maskOf (fun f => f.acc == .wo))

/-- The low words of the values of 64 bits that two registers of 32 bits hold (R18). Addresses of 40 bits and the other pairs that fill
less than 64 bits are none (DEDUCED, assumption 13). -/
def lowWords : List Nat :=
  [CUE_POINT_FRAME_LO.DATA.addr, CUE_VALID_LO.DATA.addr, CELL_LVL_LO.LEVEL.addr, CELL_FIRED_LO.FIRED.addr,
   CELL_FRAME_LO.DATA.addr, CELL_GFRAME_LO.DATA.addr, LEDGER_FIRST_LO.DATA.addr, LEDGER_NEXT_LO.DATA.addr,
   LEDGER_AUDIT_VAL_LO.VALUE.addr, RAWC_CUR_LO.DATA.addr, HASH_LINK_FRAME_LO.DATA.addr, HASH_FIN_COUNT_LO.DATA.addr,
   (MAG_WRITTEN_LO.BYTES 0).addr, (MAG_WRITTEN_LO.BYTES 1).addr, TIME_LTC_IN_LO.VALUE.addr] ++
  (List.range 4).map (fun p => (INGEST_FRAMES_LO.DATA p).addr)

/-! ### Reads -/

/-- A read of a register: the low word of a 64-bit value latches its high word, the next read of the high word returns what
was latched (R18). -/
def regRead (side : Side) (a : Nat) (s : State) : State :=
  match keyGet s.sys.latches a with
  | some w => busOk w { s with sys := { s.sys with latches := keyDel s.sys.latches a } }
  | none =>
    let s := if lowWords.contains a then
        { s with sys := { s.sys with latches := keySet s.sys.latches (a + 4) (readReg s side (a + 4)) } }
      else s
    busOk (readReg s side a) s

/-- A read whose register table states an effect (R19, R430, R364, R510, R555). -/
def readEffect (side : Side) (a : Nat) (s : State) : Host.Outcome State Fault Refusal :=
  if a = TIME_NOW_NS.NS.addr then execTimeNowRead s
  else if a = HEVD_OUT_POP.BUF.addr then execHevdOutPop s
  else if a = VIEW_POOL_ALLOC.HANDLE.addr then execViewPoolAlloc s
  else if a = (CALL_LOG_ENTRY.DATA 0).addr then execCallLogEntryRead side s
  else .next (regRead side a s)

/-- The access ends with a bus error after 1 µs: the block has power, but the PLL of its clock is not locked (R539). -/
def clockStopped (s : State) (off : Nat) : Bool :=
  let ds := (targetDomains (off / 0x10000) (off % 0x10000)).filter (fun d => s.domainOn d)
  !ds.isEmpty && ds.all (fun d => (List.range 7).any (fun p => pllOut s p && (pllDomains p).contains d))

/-- A read that completes with the bytes `bs`, at most eight. -/
def busBytes (bs : List Byte) (s : State) : State :=
  { s with sys := { s.sys with bus := { data := BitVec.ofNat 32 (leNat (bs.take 4)), high := BitVec.ofNat 32 (leNat (bs.drop 4))
                                        error := false } } }

/-- The `n` bytes that a Company load returns from DRAM; a poisoned block faults the load (R377). -/
def dramLoad (off n : Nat) (s : State) : State :=
  if s.poisoned off n then
    postEvent { cls := .recoverable, block := 12, cause := 0x3FF, inst := dramChannel s off
                detail := (0x800000000 + off) % 2 ^ 32 } (dramSeen off n (busError s))
  else busBytes (s.dramBytes off n) s

/-- The bytes of a read. -/
def readBytes : ReadSize → Nat
  | .byte => 1 | .half => 2 | .word => 4 | .double => 8

/-- The `n` bytes from byte `k` of the register word that a read has returned (R16). -/
def narrowRead (k n : Nat) (s : State) : State :=
  if s.sys.bus.error then s
  else
    let w := (s.sys.bus.data >>> (8 * k)) &&& BitVec.ofNat 32 (2 ^ (8 * n) - 1)
    { s with sys := { s.sys with bus := { data := w, error := false } } }

/-- A read of `n` bytes at an aligned offset of the register space: the register is read, and the addressed bytes are returned (R16). -/
def regBytes (side : Side) (off n : Nat) (s : State) : Host.Outcome State Fault Refusal :=
  if n = 4 then readEffect side off s
  else match readEffect side (off - off % 4) s with
    | .next t => .next (narrowRead (off % 4) n t)
    | o => o

/-- A read at `addr`: 32 bits or less of a register (R16), 64 bits or less of a memory and of the cell window (R185). -/
def busRead (side : Side) (addr : Nat) (size : ReadSize) (s : State) : Host.Outcome State Fault Refusal :=
  let n := readBytes size
  match busTarget s side addr n with
  | .unmapped => .next (refuseAccess side addr s)
  | .rom => .next (busBytes ((List.range n).map (fun i => Config.openByte s.ticks (addr + i))) s)
  | .scratch o => .next (busBytes (s.scratchBytes o n) s)
  | .smSram o => .next (busBytes (readList 0 s.smSram o n) s)
  | .dram o => .next (dramLoad o n s)
  | .window o => .next (if o % n = 0 then busBytes ((List.range n).map (fun i => cellWindowByte s (o + i))) s else busError s)
  | .reg off =>
    if size = .double ∨ off % n ≠ 0 ∨ clockStopped s (off - off % 4) then .next (busError s) else regBytes side off n s

/-- A read of a low word (R18), and of anything else that the side can read. -/
def execLowWordRead (side : Side) (addr : ReadAccess) (s : State) : Host.Outcome State Fault Refusal :=
  busRead side addr.addr.toNat addr.size s

/-! ### Doorbells and mailboxes (R35 to R38) -/

/-- The doorbell field that a side rings. -/
def bellsTo : Side → Fld
  | .company _ => ⟨SYS_DB_TO_SM.MSG.addr, 0, 32⟩
  | .stageManager => ⟨SYS_DB_TO_CO.MSG.addr, 0, 32⟩

/-- The doorbell field that a side clears. -/
def bellsFor : Side → Fld
  | .company _ => ⟨SYS_DB_TO_CO.MSG.addr, 0, 32⟩
  | .stageManager => ⟨SYS_DB_TO_SM.MSG.addr, 0, 32⟩

/-- The sender sets doorbell bits (R35). -/
def ringBells (side : Side) (bells : Word) (s : State) : State :=
  s.setFld (bellsTo side) (s.fld (bellsTo side) ||| bells.toNat)

def execDoorbellRing (side : Side) (bells : Word) (s : State) : Host.Outcome State Fault Refusal :=
  .next (ringBells side bells (busOk 0 s))

/-- The receiver clears doorbell bits; a bit that the sender sets in the same cycle ends set (R36). -/
def clearBells (side : Side) (bells rung : Word) (s : State) : State :=
  let f := bellsFor side
  s.setFld f (((s.word f.addr &&& ~~~bells) ||| rung).toNat)

def execDoorbellClear (side : Side) (bells rung : Word) (s : State) : Host.Outcome State Fault Refusal :=
  .next (clearBells side bells rung (busOk 0 s))

/-- The Stage Manager interrupt, and that of the Company core of `CO_TARGET`, are raised (R35); a message of the controller
raises the first too (R526). -/
def smInterrupt (s : State) : Bool := s.word SYS_DB_TO_SM.MSG.addr != 0 || s.flag MGMT_MBOX_CTRL.TO_SM
def coInterrupt (s : State) (core : Fin 4) : Bool :=
  s.word SYS_DB_TO_CO.MSG.addr != 0 && s.fld SYS_MBOX_CTRL.CO_TARGET == core.val

/-- A message word: stored, with the overwrite flag while MSG is set, or ignored when the other side writes it (R37,
R38). -/
def mailboxWrite (side : Side) (toSm : Bool) (i : Nat) (v : Word) (s : State) : State :=
  let f := if toSm then SYS_MBOX_TO_SM.DATA i else SYS_MBOX_TO_CO.DATA i
  if toSm = (side == Side.stageManager) then postKind 1 0 0xFF f.addr s
  else
    let s := s.setFld f v.toNat
    if s.flag (if toSm then SYS_DB_TO_SM.MSG else SYS_DB_TO_CO.MSG) then
      let flag := if toSm then SYS_MBOX_CTRL.TO_SM_OVW else SYS_MBOX_CTRL.TO_CO_OVW
      postFlag flag flag.lo .warning 0 0xFF 0 s
    else s

def execMailboxWrite (side : Side) (toSm : Bool) (index : Fin 64) (value : Word) (s : State) :
    Host.Outcome State Fault Refusal :=
  .next (mailboxWrite side toSm index.val value (busOk 0 s))

/-- A write of a doorbell or mailbox register (R35 to R38). -/
def sysCommand (side : Side) (off : Nat) (v : Word) (s : State) : Option State :=
  if off = SYS_DB_TO_SM.MSG.addr ∨ off = SYS_DB_TO_CO.MSG.addr then
    if off = (bellsTo side).addr then some (ringBells side v s) else some (clearBells side v 0 s)
  else if 0x100 ≤ off ∧ off < 0x200 then some (mailboxWrite side true ((off - 0x100) / 4) v s)
  else if 0x200 ≤ off ∧ off < 0x300 then some (mailboxWrite side false ((off - 0x200) / 4) v s)
  else none

/-! ### Access codes (R12, R13, R15) -/

/-- Fields in which a written 1 clears: the bit, or the whole counter. -/
def clearWritten (r : RegDef) (w v : Word) : Word :=
  let c := r.maskOf (fun f => f.acc == .w1c)
  let all := r.fields.foldl (fun m f => if f.acc == .w1cAll && (v &&& f.mask) != 0 then m ||| f.mask else m) (0 : Word)
  w &&& ~~~((v &&& c) ||| all)

/-- RW and W1S fields, and RWC fields before the lock. -/
def storeWritten (r : RegDef) (locked : Bool) (w v : Word) : Word :=
  let m := r.maskOf (fun f => f.acc == .rw || (f.acc == .rwc && !locked))
  let one := r.maskOf (fun f => f.acc == .w1s)
  (w &&& ~~~m) ||| (v &&& m) ||| (v &&& one)

/-- The register has a field of RWC access. -/
def hasRwc (r : RegDef) : Bool := r.fields.any (fun f => f.acc == .rwc)

/-- INST of an event about an RWC register: the port of a magazine or Ethernet register (R551). -/
def rwcInst (off : Nat) : Nat :=
  if off / 0x10000 = 0x24 then off % 0x10000 / 0x100 else if off / 0x10000 = 0x30 then off % 0x10000 / 0x1000 else 0xFF

/-- A write to fields of RW, W1S, RWC, shadowed and line-timed access (R12, R13, R61, R508). -/
def plainWrite (r : RegDef) (off : Nat) (v : Word) (s : State) : State :=
  let s := s.setWord off (storeWritten r s.cue.locked (s.word off) v)
  let s := if hasRwc r && s.cue.locked then postKind 0 ((blockCode (off / 0x10000)).getD 0) (rwcInst off) off s else s
  if r.fields.any (fun f => f.acc == .shadow || f.acc == .line) then shadowedWrite off v s else s

end Sys2Proof.Machine
end

