-- ==== Sys2Proof/Machine/RegWrite.lean ====
section
/-! DEFINITION. Writes of the bus: registers whose write starts an action, registers whose table limits what a write does, and
the access codes for every other register (R12 to R17, R26, R32 to R34, R561). A register whose write has a row of its own in the
table of commands answers as that row does. -/

namespace Sys2Proof.Machine

/-- What a command answers. -/
abbrev Answer := Host.Outcome State Fault Refusal

/-- The state that a command answers; commands of this device always answer one. -/
def Answer.state (o : Answer) (s : State) : State :=
  match o with
  | .next t => t
  | _ => s

/-- A field stored as written. -/
def store (v : Word) (f : Fld) (s : State) : State := s.setFld f (written v f)

def stores (v : Word) (fs : List Fld) (s : State) : State := fs.foldl (fun s f => store v f s) s

/-- An action whose bit was not written: nothing but the access codes. -/
def actWhen (b : Bool) (o : Answer) (s : State) : Answer := if b then o else .next s

/-! ### Commands by block

Each answers what a write of `v` at the register does, none where no rule but the access codes applies. -/

def cueCommand (off : Nat) (v : Word) (s : State) : Option Answer :=
  if off = CUE_OP.OP.addr then
    some (.next (cueOp (written v CUE_OP.OP) (written v CUE_OP.LEVEL) (written v CUE_OP.CUE) s))
  else if off = CUE_COMMIT.GO.addr then some (actWhen (v.getLsbD 0) (execCueCommit s) s)
  else if off = CUE_LOAD_CTRL.GO.addr then some (execCueLoad v s)
  else none

/-- The privileged request of an ACTION (R89, R93); whether the entropy test of a first provisioning passes is left open. -/
def privRequest (action : Nat) (s : State) : Answer :=
  if action = 1 then
    let (x, s) := s.takeFree
    execProvision (x.getLsbD 0) s
  else if action = 2 then execToField s
  else if action = 3 then execEnterService s
  else if action = 4 then execLeaveService s
  else if action = 5 then execRetire s
  else .next (requestDenied (busOk 0 s))

def trustCommand (off : Nat) (v : Word) (s : State) : Option Answer :=
  if off = TRUST_CTRL.CONFIRM.addr then
    let s := if v.getLsbD 0 then Answer.state (execConfirm s) s else s
    some (actWhen (v.getLsbD 1) (execAdvance s) s)
  else if off = TRUST_PRIV_REQ.ACTION.addr then some (actWhen (!v.getLsbD 30) (privRequest (written v TRUST_PRIV_REQ.ACTION) s) s)
  else if off = TRUST_SIGN_CTRL.DOMAIN.addr then
    if v.getLsbD 30 || v.getLsbD 29 then some (.next s)
    else
      let d := written v TRUST_SIGN_CTRL.DOMAIN
      some (if d = 0 then execAttest s else if d = 1 then execCheckpoint s else if d = 2 then execFinalManifest s
        else .next (signRefused s))
  else none

/-- The sensor port of an INGEST register, and the register within its instance. -/
def ingestCommand (p : Fin 4) (o : Nat) (v : Word) (s : State) : Option Answer :=
  if o = 0x30 then some (actWhen (v.getLsbD 0) (execIngestCounterClear p s) s)
  else if o = 0x34 then some (execMclkConfigWrite p v s)
  else if o = 0x38 then some (execSensorResetRelease p (v.getLsbD 0) s)
  else if o = 0x44 then some (actWhen (v.getLsbD 0) (execXpulse p s) s)
  else if o = 0x84 then some (execSpiTransfer ⟨p.val % 2, by omega⟩ v s)
  else if 0xC0 ≤ o ∧ o < 0x100 ∧ s.flag (INGEST_SPI_STATUS.BUSY p.val) then
    some (.next (postKind 4 3 p.val (0x40000 + 0x4000 * p.val + o) s))
  else none

/-- A read pointer of a ring of `2 ^ log2` entries takes values from WR − 2^LOG2 to WR (`LEDGER_SPILL_RD`, `HASH_DIG_RD`). -/
def ringRead (block : Nat) (rd wr : Fld) (log2 : Nat) (v : Word) (s : State) : State :=
  if (s.fld wr + 2 ^ 32 - v.toNat) % 2 ^ 32 ≤ 2 ^ log2 then s.setFld rd v.toNat else postRefused block rd.addr s

def pipeCommand (off : Nat) (v : Word) (s : State) : Option Answer :=
  if off = PIPE_CNT_CTRL.CLEAR.addr then some (actWhen (v.getLsbD 0) (execPipeCounterClear s) s) else none

def cellCommand (off : Nat) (v : Word) (s : State) : Option Answer :=
  if off = CELL_REARM.GO.addr then some (actWhen (v.getLsbD 0) (execCellRearm s) s)
  else if off = CELL_CNT_CTRL.CLEAR.addr then some (actWhen (v.getLsbD 0) (execCellCounterClear s) s)
  else none

def ledgerCommand (off : Nat) (v : Word) (s : State) : Option Answer :=
  if off = LEDGER_SPILL_RD.RD.addr then some (.next (ringRead 6 LEDGER_SPILL_RD.RD LEDGER_SPILL_WR.WR (spillLog2 s) v s))
  else if off = LEDGER_SWTRIG.INPUT.addr then some (execSoftwareTrigger v s)
  else if off = LEDGER_SWTIME_NS.NS.addr then
    let s := store v LEDGER_SWTIME_NS.NS s
    some (.next (if 999999999 < v.toNat then postActsAs 6 0xFF off s else s))
  else none

def rawcCommand (off : Nat) (v : Word) (s : State) : Option Answer :=
  if off = RAWC_CNT_CTRL.CLEAR.addr then some (actWhen (v.getLsbD 0) (execRawcCounterClear s) s)
  else if off = RAWC_DEC_CTRL.GO.addr then
    some (if v.getLsbD 31 then execRawcDecode (v.getLsbD 30) (v.extractLsb' 0 20) s
      else .next (stores v [RAWC_DEC_CTRL.PLAY, RAWC_DEC_CTRL.FILL] s))
  else none

def heveCommand (e : Fin 2) (o : Nat) (v : Word) (s : State) : Option Answer :=
  if o = 0x48 then some (execHeveOutRdWrite e v s)
  else if o = 0x64 then some (actWhen (v.getLsbD 0) (execHeveCounterClear e s) s)
  else none

/-- Settings that are fixed while the decoder is enabled (R368). -/
def hevdFixed (off : Nat) : Bool :=
  [HEVD_IN_BASE_LO.ADDR.addr, HEVD_IN_BASE_HI.ADDR.addr, HEVD_IN_SIZE.LOG2.addr, HEVD_OUT_BASE_LO.ADDR.addr,
   HEVD_OUT_BASE_HI.ADDR.addr, HEVD_OUT_STRIDE.BYTES.addr, HEVD_OUT_COUNT.COUNT.addr].contains off

def hevdCommand (off : Nat) (v : Word) (s : State) : Option Answer :=
  if off = HEVD_CTRL.EN.addr then
    some (if v.getLsbD 31 then .next (hevdEnable s) else actWhen (s.flag HEVD_CTRL.EN) (execHevdDisable s) s)
  else if off = HEVD_IN_WR.WR.addr then some (execHevdInWrWrite v s)
  else if off = HEVD_OUT_REL.BUF.addr then some (execHevdOutRel ⟨written v HEVD_OUT_REL.BUF % 32, by omega⟩ s)
  else if off = HEVD_CNT_CTRL.CLEAR.addr then some (actWhen (v.getLsbD 0) (execHevdCounterClear s) s)
  else if hevdFixed off && s.flag HEVD_CTRL.EN then some (.next (postRefused 9 off s))
  else none

def hashCommand (off : Nat) (v : Word) (s : State) : Option Answer :=
  if off = HASH_DIG_RD.RD.addr then some (.next (ringRead 10 HASH_DIG_RD.RD HASH_DIG_WR.WR (digLog2 s) v s))
  else if off = HASH_CNT_CTRL.CLEAR.addr then some (actWhen (v.getLsbD 0) (execHashCounterClear s) s)
  else if off = HASH_JOB_CTRL.GO.addr then some (actWhen (v.getLsbD 31) (execHashJob s) s)
  else none

/-- A GO of `MAG_OP` (R330): OP 0 and 6 to 15 are refused. -/
def magGo (k : Fin 2) (v : Word) (s : State) : Answer :=
  let ty : Fin 16 := ⟨written v (MAG_OP.TYPE k.val) % 16, by omega⟩
  let op := written v (MAG_OP.OP k.val)
  if op = 1 then execRead k ty s
  else if op = 2 then execAppend k ty s
  else if op = 3 then execErase k ty s
  else if op = 4 then execMount k ty s
  else if op = 5 then execEject k ty s
  else .next (magOpRefused k.val (magOpWrite k.val op ty.val s))

def magCommand (off : Nat) (v : Word) (s : State) : Option Answer :=
  if off = MAG_TAKE_CTRL.CLOSE.addr then some (actWhen (v.getLsbD 0) (execMagTakeClose s) s)
  else if off = (MAG_OP.OP 0).addr ∨ off = (MAG_OP.OP 1).addr then
    let k : Fin 2 := if off = (MAG_OP.OP 0).addr then 0 else 1
    some (if v.getLsbD 31 then magGo k v s else .next (stores v [MAG_OP.OP k.val, MAG_OP.TYPE k.val] s))
  else none

def dramCommand (off : Nat) (v : Word) (s : State) : Option Answer :=
  if off = DRAM_CFG.RATE.addr ∧ s.mem.committed then some (.next (postRefused 12 off s))
  else if off = DRAM_MAP.RETIRE.addr then
    let r : BitVec 4 := v.extractLsb' 0 4
    some (if v.getLsbD 31 && !s.mem.committed then execDramCommit r s else execDramFence r s)
  else if off = DRAM_TRN_CTRL.GO.addr then
    some (.next (if v.getLsbD 31 then
        trnStart (written v DRAM_TRN_CTRL.OP) ⟨written v DRAM_TRN_CTRL.RANK % 2, by omega⟩ (v.extractLsb' 0 16) s
      else stores v [DRAM_TRN_CTRL.OP, DRAM_TRN_CTRL.RANK, DRAM_TRN_CTRL.CH] s))
  else if off = DRAM_TRN_VAL.VALUE.addr then some (.next (trnWrite (written v DRAM_TRN_VAL.VALUE) s))
  else if off = DRAM_CNT_CTRL.CLEAR.addr then some (actWhen (v.getLsbD 0) (execDramCounterClear s) s)
  else none

/-- `LANE_LOOP` of lane `l`: a refused write is ignored whole, CLEAR included (R409, R410). -/
def laneLoop (l : Fin 26) (v : Word) (s : State) : Answer :=
  let quiet := written v (LANE_LOOP.MODE l.val) = 0 ∧ written v (LANE_LOOP.GEN l.val) = 0 ∧ written v (LANE_LOOP.CHK l.val) = 0
  let clear := v.getLsbD 0 ∧ (quiet ∨ loopAllowed s l.val)
  let s := Answer.state (execLaneLoopWrite l v s) s
  if clear then execLanePrbsClear l s else .next s

def laneCommand (o : Nat) (v : Word) (s : State) : Option Answer :=
  if o = 0x2008 then some (actWhen (v.getLsbD 0) (execLaneCounterClear s) s)
  else if h : o / 0x100 < 26 then (if o % 0x100 = 0x14 then some (laneLoop ⟨o / 0x100, h⟩ v s) else none)
  else none

/-- `NET_TX_SIZE` and `NET_RX_SIZE`: EN cannot be set while the ring lies outside memory (R425). -/
def netSizeWrite (p : Nat) (rx : Bool) (v : Word) (s : State) : State :=
  let en := if rx then NET_RX_SIZE.EN p else NET_TX_SIZE.EN p
  let s := store v (if rx then NET_RX_SIZE.LOG2 p else NET_TX_SIZE.LOG2 p) s
  if v.getLsbD 31 = false then s.setFlag en false
  else if netRingOk s p rx then s.setFlag en true
  else postKind 4 14 p en.addr (s.setFlag en false)

def netCommand (p : Fin 2) (o : Nat) (v : Word) (s : State) : Option Answer :=
  if o = 0x20 then some (execNetTxWrWrite p false v s)
  else if o = 0x34 then some (execNetTxWrWrite p true v s)
  else if o = 0x1C then some (.next (netSizeWrite p.val false v s))
  else if o = 0x30 then some (.next (netSizeWrite p.val true v s))
  else none

/-- `TIME_CMD`: codes other than 1 to 4 are refused. -/
def timeCmd (code : Nat) (s : State) : Answer :=
  if code = 1 then execStep s else if code = 2 then execSet s else if code = 3 then execHold s
  else if code = 4 then execRelease s else .next (timeRefused s)

def timeCommand (off : Nat) (v : Word) (s : State) : Option Answer :=
  if off = TIME_CTRL.WATCH_MS.addr then
    some (.next (setClock { s.clock with watchFrom := s.ticks } (stores v [TIME_CTRL.WATCH_MS, TIME_CTRL.SERVO_PORT] s)))
  else if off = TIME_INCR_HI.NS.addr then some (execTimeIncrWrite v s)
  else if off = TIME_CMD.CMD.addr then some (timeCmd (written v TIME_CMD.CMD) s)
  else if off = TIME_ALARM_SEC_HI.EN.addr then
    some (.next ((stores v [TIME_ALARM_SEC_HI.EN, TIME_ALARM_SEC_HI.SEC] s).setFlag TIME_KA_STATUS.FRAME_ALARM false))
  else if off = TIME_KA_CTRL.EN.addr then
    let s := stores v [TIME_KA_CTRL.EN, TIME_KA_CTRL.WAKE_EN, TIME_KA_CTRL.WAKE_MODE] s
    some (.next (if s.mode = 7 then netFollow 0 s else s))
  else none

def klinkCommand (off : Nat) (v : Word) (s : State) : Option Answer :=
  if off = KLINK_CMD.YIELD.addr then
    let s := if v.getLsbD 1 then Answer.state (execYield s) s else s
    some (actWhen (v.getLsbD 0) (execRetrain s) s)
  else if off = KLINK_CNT_CTRL.CLEAR.addr then some (actWhen (v.getLsbD 0) (execKlinkCounterClear s) s)
  else none

/-- `MOTION_CMP_CTRL` of compare `k`: ARM, DISARM, or its settings (R490). -/
def cmpWrite (k : Fin 8) (v : Word) (s : State) : Answer :=
  if v.getLsbD 31 then execArm k v s else if v.getLsbD 30 then execDisarm k v s else .next (cmpCtrlWrite k.val v.toNat s)

def motionCommand (o : Nat) (v : Word) (s : State) : Option Answer :=
  if h : o / 0x100 < 4 then
    (if o % 0x100 = 0x20 then some (execMotionPreset ⟨o / 0x100, h⟩ v s) else none)
  else if h : (o - 0x400) / 0x40 < 8 then
    (if (o - 0x400) % 0x40 = 0 then some (cmpWrite ⟨(o - 0x400) / 0x40, h⟩ v s) else none)
  else none

def viewCommand (off : Nat) (v : Word) (s : State) : Option Answer :=
  if off = VIEW_DIRTY_WH.W_M1.addr then some (execViewDirtyWhWrite v s)
  else if off = VIEW_POOL_FREE.HANDLE.addr then some (execViewPoolFree v s)
  else if off = VIEW_CMD.GO.addr then
    some (if v.getLsbD 31 then execViewCmd v s
      else .next (stores v [VIEW_CMD.HAS_PARAM, VIEW_CMD.PARAM, VIEW_CMD.DCS] s))
  else none

def mgmtCommand (off : Nat) (v : Word) (s : State) : Option Answer :=
  if off = MGMT_MBOX_CTRL.TO_SM.addr then
    let s := if v.getLsbD 0 then setToSm false s else s
    some (.next (if v.getLsbD 1 then setFromSm true s else s))
  else none

/-- Registers of CALL that only the Stage Manager writes. -/
def callSmOnly (off : Nat) : Bool :=
  [CALL_CTRL.CO_CLASS.addr, CALL_CUR.SEQ.addr, CALL_DONE.SEQ.addr, CALL_SM_WDOG.EN.addr, CALL_SM_KICK.KICK.addr,
   CALL_RESTART.GO.addr].contains off

/-- `CALL_CO_WDOG` or `CALL_SM_WDOG`: MS is fixed while EN is 1, EN stays set until warm reset; the period begins with EN
(R562, R563). Answers whether EN has become 1. -/
def wdogWrite (en exp ms : Fld) (v : Word) (s : State) : Bool × State :=
  let was := s.flag en
  let s := if v.getLsbD 30 then s.setFlag exp false else s
  let s := if was then (if written v ms = s.fld ms then s else postKind 0 23 0xFF ms.addr s) else store v ms s
  (!was && v.getLsbD 31, if v.getLsbD 31 then s.setFlag en true else s)

def callCommand (side : Side) (off : Nat) (v : Word) (s : State) : Option Answer :=
  if off = CALL_CO_WDOG.EN.addr then
    let (fresh, s) := wdogWrite CALL_CO_WDOG.EN CALL_CO_WDOG.EXPIRED CALL_CO_WDOG.MS v s
    some (.next (if fresh then { s with call := { s.call with coKick := s.ticks } } else s))
  else if off = CALL_SM_WDOG.EN.addr then
    let (fresh, s) := wdogWrite CALL_SM_WDOG.EN CALL_SM_WDOG.EXPIRED CALL_SM_WDOG.MS v s
    some (.next (if fresh then { s with call := { s.call with smKick := s.ticks } } else s))
  else if off = CALL_CO_KICK.KICK.addr then some (actWhen (v.getLsbD 0) (execCoKick s) s)
  else if off = CALL_SM_KICK.KICK.addr then some (actWhen (v.getLsbD 0) (execSmKick side s) s)
  else if off = CALL_RESTART.GO.addr then some (actWhen (v.getLsbD 0) (execCallRestart side s) s)
  else if off = CALL_DONE.SEQ.addr then some (execCallDoneWrite side v s)
  else if off = CALL_POST.CAUSE.addr then some (execCallPostWrite side v s)
  else
    match side with
    | .company _ => none
    | .stageManager =>
      if off = CALL_LOG_IDX.IDX.addr then some (.next { s with call := { s.call with logIdxSm := v.toNat % 4096 } })
      else if off = CALL_POST_DETAIL.DETAIL.addr then some (.next { s with call := { s.call with detailSm := v } })
      else none

/-- `NVMC_OP` (R101): 0 and 5 to 7 are refused. -/
def nvmcCommand (off : Nat) (v : Word) (s : State) : Option Answer :=
  if off = NVMC_OP.OP.addr then
    let op := written v NVMC_OP.OP
    some (if op = 1 then execJournalAppend s else if op = 2 then execSlotProgram s else if op = 3 then execSectorErase s
      else if op = 4 then execNvmRead s else .next (nvmRefuse s))
  else none

/-- The action of a write at `off`, by block. -/
def regCommand (side : Side) (off : Nat) (v : Word) (s : State) : Option Answer :=
  let b := off / 0x10000
  let o := off % 0x10000
  if b = 0x00 then (sysCommand side off v s).map (fun t => .next t)
  else if b = 0x01 then cueCommand off v s
  else if b = 0x02 then trustCommand off v s
  else if b = 0x04 then ingestCommand ⟨o / 0x4000 % 4, by omega⟩ (o % 0x4000) v s
  else if b = 0x08 then pipeCommand off v s
  else if b = 0x0C then cellCommand off v s
  else if b = 0x10 then ledgerCommand off v s
  else if b = 0x14 then rawcCommand off v s
  else if b = 0x18 then heveCommand ⟨o / 0x8000 % 2, by omega⟩ (o % 0x8000) v s
  else if b = 0x1C then hevdCommand off v s
  else if b = 0x20 then hashCommand off v s
  else if b = 0x24 then magCommand off v s
  else if b = 0x28 then dramCommand off v s
  else if b = 0x2C then laneCommand o v s
  else if b = 0x30 then netCommand ⟨o / 0x1000 % 2, by omega⟩ (o % 0x1000) v s
  else if b = 0x34 then timeCommand off v s
  else if b = 0x38 then klinkCommand off v s
  else if b = 0x3C then motionCommand o v s
  else if b = 0x44 then viewCommand off v s
  else if b = 0x48 then mgmtCommand off v s
  else if b = 0x58 then callCommand side off v s
  else if b = 0x5C then nvmcCommand off v s
  else none

/-! ### The write -/

/-- The causes of ALERT_N that a write can change are looked at again (R528). -/
def writeAlert (off : Nat) (s : State) : State :=
  if off = MGMT_ALERT_EN.EN.addr ∨ off = MGMT_ALERT_SRC.SW.addr ∨ off = MGMT_MBOX_CTRL.TO_SM.addr ∨
     off = LEDGER_AUDIT_FAIL.PATH.addr then alertUpdate s else s

/-- A side may not write the register: Company in the management plane (R26), and the CALL registers of the Stage Manager. -/
def wrongPlane (side : Side) (off : Nat) : Bool :=
  match side with
  | .stageManager => false
  | .company _ => mgmtPlane (off / 0x10000) || callSmOnly off

/-- A 32-bit write of the register at `off`. -/
def regWrite (side : Side) (off : Nat) (v : Word) (s : State) : Answer :=
  let s := busOk 0 s
  match regAt off with
  | none => .next (if 0x341000 ≤ off ∧ off < 0x341C00 then setKa (off - 0x341000) (leBytes 4 v.toNat) s else s)
  | some r =>
    if wrongPlane side off then .next (postKind 1 ((blockCode (off / 0x10000)).getD 0) 0xFF off s)
    else if regOff s off then .next s
    else
      let s := s.setWord off (clearWritten r (s.word off) v)
      match regCommand side off v s with
      | some o => .next (writeAlert off (Answer.state o s))
      | none => .next (writeAlert off (plainWrite r off v s))

/-- Company firmware is protected from Dawn step 8 on (R561). -/
def guarded (s : State) (o n : Nat) : Bool := s.sys.fwGuard && decide (o < s.sys.coLen) && decide (0 < n)

/-- A write of the bus. -/
def busWrite (side : Side) (addr : Nat) (size : AccessSize) (v : Word) (s : State) : Answer :=
  let n := accessBytes size
  let bs := (leBytes 4 v.toNat).take n
  match busTarget s side addr n with
  | .unmapped => .next (refuseAccess side addr s)
  | .rom => .next (busOk 0 s)
  | .scratch o => if guarded s o n then .next (refuseAccess side addr s) else .next ((busOk 0 s).writeScratch o bs)
  | .smSram o => .next { busOk 0 s with smSram := writeList 0 s.smSram o bs }
  | .dram o => .next ((busOk 0 s).writeDram o bs)
  | .window _ => execCellWindowWrite side (BitVec.ofNat 40 addr) s
  | .reg off =>
    if size ≠ .word ∨ off % 4 ≠ 0 ∨ clockStopped s off then .next (busError s) else regWrite side off v s

/-- A write of the bus to a register, or to a memory that the side can write (R12 to R17, R26, R32, R34, R561). -/
def execRegisterWrite (side : Side) (addr : BitVec 40) (size : AccessSize) (value : Word) (s : State) :
    Host.Outcome State Fault Refusal :=
  busWrite side addr.toNat size value s

/-- An access outside the regions of its side is refused; an access that is mapped is none of this command (R17, R32, R34). -/
def execUnmappedAccess (side : Side) (addr : BitVec 40) (write : Bool) (s : State) : Host.Outcome State Fault Refusal :=
  match busTarget s side addr.toNat 1 with
  | .unmapped => .next (refuseAccess side addr.toNat s)
  | .scratch o => if write && guarded s o 1 then .next (refuseAccess side addr.toNat s) else .next s
  | _ => .next s

end Sys2Proof.Machine
end

