-- ==== Sys2Proof/Machine/Dispatch.lean ====
section
/-! DEFINITION. One arm per command: the direct call of its meaning. -/

namespace Sys2Proof.Machine

def exec (i : Instr) (s : State) : Host.Outcome State Fault Refusal :=
  match i with
  | .registerWrite side addr size value => Sys2Proof.Machine.execRegisterWrite side addr size value s
  | .unmappedAccess side addr write => Sys2Proof.Machine.execUnmappedAccess side addr write s
  | .doorbellRing side bells => Sys2Proof.Machine.execDoorbellRing side bells s
  | .doorbellClear side bells rung => Sys2Proof.Machine.execDoorbellClear side bells rung s
  | .mailboxWrite side toSm index value => Sys2Proof.Machine.execMailboxWrite side toSm index value s
  | .modeRequest mode => Sys2Proof.Machine.execModeRequest mode s
  | .drainEnd => Sys2Proof.Machine.execDrainEnd s
  | .transitionComplete => Sys2Proof.Machine.execTransitionComplete s
  | .cueLoad value => Sys2Proof.Machine.execCueLoad value s
  | .cueLoadComplete => Sys2Proof.Machine.execCueLoadComplete s
  | .push slot => Sys2Proof.Machine.execPush slot s
  | .pop => Sys2Proof.Machine.execPop s
  | .replace level slot => Sys2Proof.Machine.execReplace level slot s
  | .clear => Sys2Proof.Machine.execClear s
  | .clearFw => Sys2Proof.Machine.execClearFw s
  | .shadowWrite addr value => Sys2Proof.Machine.execShadowWrite addr value s
  | .cueCommit => Sys2Proof.Machine.execCueCommit s
  | .commitArmed => Sys2Proof.Machine.execCommitArmed s
  | .cueRefTimeout => Sys2Proof.Machine.execCueRefTimeout s
  | .dawn => Sys2Proof.Machine.execDawn s
  | .confirm => Sys2Proof.Machine.execConfirm s
  | .advance => Sys2Proof.Machine.execAdvance s
  | .provision healthy => Sys2Proof.Machine.execProvision healthy s
  | .toField => Sys2Proof.Machine.execToField s
  | .enterService => Sys2Proof.Machine.execEnterService s
  | .leaveService => Sys2Proof.Machine.execLeaveService s
  | .retire => Sys2Proof.Machine.execRetire s
  | .attest => Sys2Proof.Machine.execAttest s
  | .checkpoint => Sys2Proof.Machine.execCheckpoint s
  | .finalManifest => Sys2Proof.Machine.execFinalManifest s
  | .signDone => Sys2Proof.Machine.execSignDone s
  | .presencePress => Sys2Proof.Machine.execPresencePress s
  | .presenceWindowExpire => Sys2Proof.Machine.execPresenceWindowExpire s
  | .svcJmpFitted => Sys2Proof.Machine.execSvcJmpFitted s
  | .svcJmpRemoved => Sys2Proof.Machine.execSvcJmpRemoved s
  | .sealSample sealB => Sys2Proof.Machine.execSealSample sealB s
  | .journalAppend => Sys2Proof.Machine.execJournalAppend s
  | .slotProgram => Sys2Proof.Machine.execSlotProgram s
  | .sectorErase => Sys2Proof.Machine.execSectorErase s
  | .nvmRead => Sys2Proof.Machine.execNvmRead s
  | .nvmOpComplete => Sys2Proof.Machine.execNvmOpComplete s
  | .nvmProgramTimeout copy1 => Sys2Proof.Machine.execNvmProgramTimeout copy1 s
  | .slotRewriteStart slot => Sys2Proof.Machine.execSlotRewriteStart slot s
  | .frameStart port vc number corrected => Sys2Proof.Machine.execFrameStart port vc number corrected s
  | .frameEnd port vc corrected parity => Sys2Proof.Machine.execFrameEnd port vc corrected parity s
  | .pixelLine port vc dt bytes crc corrected room parity => Sys2Proof.Machine.execPixelLine port vc dt bytes crc corrected room parity s
  | .embeddedData port vc bytes crc corrected => Sys2Proof.Machine.execEmbeddedData port vc bytes crc corrected s
  | .lineStartEnd port vc corrected => Sys2Proof.Machine.execLineStartEnd port vc corrected s
  | .nullBlanking port vc corrected => Sys2Proof.Machine.execNullBlanking port vc corrected s
  | .dtUnsel port vc dt marks => Sys2Proof.Machine.execDtUnsel port vc dt marks s
  | .orphan port vc marks => Sys2Proof.Machine.execOrphan port vc marks s
  | .eccUncorr port vc => Sys2Proof.Machine.execEccUncorr port vc s
  | .packetCutEot port vc dt wc payload => Sys2Proof.Machine.execPacketCutEot port vc dt wc payload s
  | .lineIdleTimeout port vc dt wc payload => Sys2Proof.Machine.execLineIdleTimeout port vc dt wc payload s
  | .frameTimeout port desc => Sys2Proof.Machine.execFrameTimeout port desc s
  | .gangSkewTimeout port desc => Sys2Proof.Machine.execGangSkewTimeout port desc s
  | .laneUlps port enter => Sys2Proof.Machine.execLaneUlps port enter s
  | .ingestCounterClear port => Sys2Proof.Machine.execIngestCounterClear port s
  | .mclkConfigWrite port value => Sys2Proof.Machine.execMclkConfigWrite port value s
  | .sensorResetRelease port release => Sys2Proof.Machine.execSensorResetRelease port release s
  | .xtrigScheduled port grid => Sys2Proof.Machine.execXtrigScheduled port grid s
  | .xpulse port => Sys2Proof.Machine.execXpulse port s
  | .xtrigPulseEnd port => Sys2Proof.Machine.execXtrigPulseEnd port s
  | .spiTransfer ctl value => Sys2Proof.Machine.execSpiTransfer ctl value s
  | .spiTransferDone ctl rx => Sys2Proof.Machine.execSpiTransferDone ctl rx s
  | .spiScriptEntry ctl => Sys2Proof.Machine.execSpiScriptEntry ctl s
  | .pipeFrameBegin => Sys2Proof.Machine.execPipeFrameBegin s
  | .sliceGrant => Sys2Proof.Machine.execSliceGrant s
  | .sliceComplete => Sys2Proof.Machine.execSliceComplete s
  | .pipeDetection table => Sys2Proof.Machine.execPipeDetection table s
  | .tableRefreshDone => Sys2Proof.Machine.execTableRefreshDone s
  | .pipeBufferRelease port buf => Sys2Proof.Machine.execPipeBufferRelease port buf s
  | .pipeCounterClear => Sys2Proof.Machine.execPipeCounterClear s
  | .cellRearm => Sys2Proof.Machine.execCellRearm s
  | .cellWindowWrite side addr => Sys2Proof.Machine.execCellWindowWrite side addr s
  | .cellCounterClear => Sys2Proof.Machine.execCellCounterClear s
  | .trigAccept pin edge => Sys2Proof.Machine.execTrigAccept pin edge s
  | .trigShortRun run => Sys2Proof.Machine.execTrigShortRun run s
  | .trigRelease pin => Sys2Proof.Machine.execTrigRelease pin s
  | .trigStuck pin => Sys2Proof.Machine.execTrigStuck pin s
  | .trigOutputPulseEnd pin => Sys2Proof.Machine.execTrigOutputPulseEnd pin s
  | .softwareTrigger value => Sys2Proof.Machine.execSoftwareTrigger value s
  | .swtrigDue input => Sys2Proof.Machine.execSwtrigDue input s
  | .rangePlace => Sys2Proof.Machine.execRangePlace s
  | .ledgerAudit => Sys2Proof.Machine.execLedgerAudit s
  | .partnerDispTimeout frame => Sys2Proof.Machine.execPartnerDispTimeout frame s
  | .coderFrameBegin => Sys2Proof.Machine.execCoderFrameBegin s
  | .coderMapTimeout => Sys2Proof.Machine.execCoderMapTimeout s
  | .coderDetection num target => Sys2Proof.Machine.execCoderDetection num target s
  | .coderFrameComplete => Sys2Proof.Machine.execCoderFrameComplete s
  | .rawcDecode play fill => Sys2Proof.Machine.execRawcDecode play fill s
  | .decodeComplete => Sys2Proof.Machine.execDecodeComplete s
  | .rawcCounterClear => Sys2Proof.Machine.execRawcCounterClear s
  | .frameLink upset => Sys2Proof.Machine.execFrameLink upset s
  | .hashDetection target => Sys2Proof.Machine.execHashDetection target s
  | .hashRehashComplete num stripe => Sys2Proof.Machine.execHashRehashComplete num stripe s
  | .codedDigestComplete num => Sys2Proof.Machine.execCodedDigestComplete num s
  | .hashJob => Sys2Proof.Machine.execHashJob s
  | .hashJobComplete => Sys2Proof.Machine.execHashJobComplete s
  | .hashCounterClear => Sys2Proof.Machine.execHashCounterClear s
  | .magPresent port inserted => Sys2Proof.Machine.execMagPresent port inserted s
  | .magTrainingStart port => Sys2Proof.Machine.execMagTrainingStart port s
  | .magTrainTimeout port => Sys2Proof.Machine.execMagTrainTimeout port s
  | .magLinkUp port gen width both => Sys2Proof.Machine.execMagLinkUp port gen width both s
  | .magMountComplete port failed => Sys2Proof.Machine.execMagMountComplete port failed s
  | .magRemoval port => Sys2Proof.Machine.execMagRemoval port s
  | .nvmeCompletion port cmd status smart => Sys2Proof.Machine.execNvmeCompletion port cmd status smart s
  | .nvmeCommandTimeout port cmd => Sys2Proof.Machine.execNvmeCommandTimeout port cmd s
  | .magSmartPoll port => Sys2Proof.Machine.execMagSmartPoll port s
  | .magFrameWriteComplete port => Sys2Proof.Machine.execMagFrameWriteComplete port s
  | .magTakeClose => Sys2Proof.Machine.execMagTakeClose s
  | .magTakeCloseTimeout => Sys2Proof.Machine.execMagTakeCloseTimeout s
  | .read port type => Sys2Proof.Machine.execRead port type s
  | .append port type => Sys2Proof.Machine.execAppend port type s
  | .erase port type => Sys2Proof.Machine.execErase port type s
  | .mount port type => Sys2Proof.Machine.execMount port type s
  | .eject port type => Sys2Proof.Machine.execEject port type s
  | .magOpComplete port => Sys2Proof.Machine.execMagOpComplete port s
  | .hevePictureBegin engine ctus0 ctus1 => Sys2Proof.Machine.execHevePictureBegin engine ctus0 ctus1 s
  | .heveSliceEmit engine lead bytes => Sys2Proof.Machine.execHeveSliceEmit engine lead bytes s
  | .heveMosaicTimeout ctus0 ctus1 => Sys2Proof.Machine.execHeveMosaicTimeout ctus0 ctus1 s
  | .heveMapTimeout engine ctus0 ctus1 => Sys2Proof.Machine.execHeveMapTimeout engine ctus0 ctus1 s
  | .heveDetection engine => Sys2Proof.Machine.execHeveDetection engine s
  | .heveOutRdWrite engine value => Sys2Proof.Machine.execHeveOutRdWrite engine value s
  | .heveCounterClear engine => Sys2Proof.Machine.execHeveCounterClear engine s
  | .hevdInWrWrite value => Sys2Proof.Machine.execHevdInWrWrite value s
  | .hevdAuComplete au => Sys2Proof.Machine.execHevdAuComplete au s
  | .hevdBudgetExpire au => Sys2Proof.Machine.execHevdBudgetExpire au s
  | .hevdOutPop => Sys2Proof.Machine.execHevdOutPop s
  | .hevdOutRel buf => Sys2Proof.Machine.execHevdOutRel buf s
  | .hevdDisable => Sys2Proof.Machine.execHevdDisable s
  | .hevdCounterClear => Sys2Proof.Machine.execHevdCounterClear s
  | .dramReread block good => Sys2Proof.Machine.execDramReread block good s
  | .dramCodeWriteback mismatch => Sys2Proof.Machine.execDramCodeWriteback mismatch s
  | .dramRefresh bank postpone => Sys2Proof.Machine.execDramRefresh bank postpone s
  | .dramMr4Poll rates => Sys2Proof.Machine.execDramMr4Poll rates s
  | .dramOscTrack drift => Sys2Proof.Machine.execDramOscTrack drift s
  | .dramWckStop channel => Sys2Proof.Machine.execDramWckStop channel s
  | .dramCommit retire => Sys2Proof.Machine.execDramCommit retire s
  | .dramInitDone => Sys2Proof.Machine.execDramInitDone s
  | .dramFence retire => Sys2Proof.Machine.execDramFence retire s
  | .init rank ch => Sys2Proof.Machine.execInit rank ch s
  | .mrw rank ch => Sys2Proof.Machine.execMrw rank ch s
  | .mrr rank ch => Sys2Proof.Machine.execMrr rank ch s
  | .ca rank ch => Sys2Proof.Machine.execCa rank ch s
  | .wck2ck rank ch => Sys2Proof.Machine.execWck2ck rank ch s
  | .wlev rank ch => Sys2Proof.Machine.execWlev rank ch s
  | .rdq rank ch => Sys2Proof.Machine.execRdq rank ch s
  | .wdq rank ch => Sys2Proof.Machine.execWdq rank ch s
  | .verify rank ch => Sys2Proof.Machine.execVerify rank ch s
  | .dramTrnDone records => Sys2Proof.Machine.execDramTrnDone records s
  | .dramCounterClear => Sys2Proof.Machine.execDramCounterClear s
  | .laneLock lane => Sys2Proof.Machine.execLaneLock lane s
  | .laneLockLost lane relocked => Sys2Proof.Machine.execLaneLockLost lane relocked s
  | .laneNoLockTimeout lane => Sys2Proof.Machine.execLaneNoLockTimeout lane s
  | .laneSleepEntry lane => Sys2Proof.Machine.execLaneSleepEntry lane s
  | .laneRxSleep lane => Sys2Proof.Machine.execLaneRxSleep lane s
  | .laneWake lane => Sys2Proof.Machine.execLaneWake lane s
  | .laneWakeHoldEnd lane => Sys2Proof.Machine.execLaneWakeHoldEnd lane s
  | .laneWakeFail lane => Sys2Proof.Machine.execLaneWakeFail lane s
  | .laneLoopWrite lane value => Sys2Proof.Machine.execLaneLoopWrite lane value s
  | .lanePrbsClear lane => Sys2Proof.Machine.execLanePrbsClear lane s
  | .laneFomInterval lane fom sufficient lastOk synced errors => Sys2Proof.Machine.execLaneFomInterval lane fom sufficient lastOk synced errors s
  | .pcieEqPresetTrial lane rate fom => Sys2Proof.Machine.execPcieEqPresetTrial lane rate fom s
  | .laneCounterClear => Sys2Proof.Machine.execLaneCounterClear s
  | .netRxFrame port bytes fcsOk => Sys2Proof.Machine.execNetRxFrame port bytes fcsOk s
  | .netTxWrWrite port rx value => Sys2Proof.Machine.execNetTxWrWrite port rx value s
  | .netTxFrame port => Sys2Proof.Machine.execNetTxFrame port s
  | .netLinkUp port => Sys2Proof.Machine.execNetLinkUp port s
  | .netLinkDown port => Sys2Proof.Machine.execNetLinkDown port s
  | .streamDatagram stream => Sys2Proof.Machine.execStreamDatagram stream s
  | .step => Sys2Proof.Machine.execStep s
  | .set => Sys2Proof.Machine.execSet s
  | .hold => Sys2Proof.Machine.execHold s
  | .release => Sys2Proof.Machine.execRelease s
  | .timeIncrWrite value => Sys2Proof.Machine.execTimeIncrWrite value s
  | .timeNowRead => Sys2Proof.Machine.execTimeNowRead s
  | .timeWatchExpire => Sys2Proof.Machine.execTimeWatchExpire s
  | .keepaliveLinkTimeout => Sys2Proof.Machine.execKeepaliveLinkTimeout s
  | .alarmFire => Sys2Proof.Machine.execAlarmFire s
  | .ppsOutAssert => Sys2Proof.Machine.execPpsOutAssert s
  | .ppsOutEnd => Sys2Proof.Machine.execPpsOutEnd s
  | .ppsInEdge time => Sys2Proof.Machine.execPpsInEdge time s
  | .ltcInWord word valid => Sys2Proof.Machine.execLtcInWord word valid s
  | .ltcOutWord => Sys2Proof.Machine.execLtcOutWord s
  | .scheduleTick => Sys2Proof.Machine.execScheduleTick s
  | .keepaliveRx bytes fcsOk => Sys2Proof.Machine.execKeepaliveRx bytes fcsOk s
  | .keepaliveTx slot => Sys2Proof.Machine.execKeepaliveTx slot s
  | .wakeFrame payload => Sys2Proof.Machine.execWakeFrame payload s
  | .heartbeatSend => Sys2Proof.Machine.execHeartbeatSend s
  | .heartbeatReceive port hdr hb => Sys2Proof.Machine.execHeartbeatReceive port hdr hb s
  | .heartbeatMissedPeriod => Sys2Proof.Machine.execHeartbeatMissedPeriod s
  | .helloFlit port hdr hb topology pref => Sys2Proof.Machine.execHelloFlit port hdr hb topology pref s
  | .yield => Sys2Proof.Machine.execYield s
  | .retrain => Sys2Proof.Machine.execRetrain s
  | .klinkTimeSend port => Sys2Proof.Machine.execKlinkTimeSend port s
  | .klinkTimeReceive port hdr own lastDep lastArr => Sys2Proof.Machine.execKlinkTimeReceive port hdr own lastDep lastArr s
  | .trigFlit port hdr output time streams => Sys2Proof.Machine.execTrigFlit port hdr output time streams s
  | .cueselFlit port hdr entry => Sys2Proof.Machine.execCueselFlit port hdr entry s
  | .dispFlit port hdr entries => Sys2Proof.Machine.execDispFlit port hdr entries s
  | .klinkMirrorStart num => Sys2Proof.Machine.execKlinkMirrorStart num s
  | .frameHdr port hdr num fs src dt width height cfa emb => Sys2Proof.Machine.execFrameHdr port hdr num fs src dt width height cfa emb s
  | .raw port hdr bytes => Sys2Proof.Machine.execRaw port hdr bytes s
  | .frameEndFlit port hdr num poison => Sys2Proof.Machine.execFrameEndFlit port hdr num poison s
  | .mirrorAck port hdr entries => Sys2Proof.Machine.execMirrorAck port hdr entries s
  | .mirrorAckTimeout num => Sys2Proof.Machine.execMirrorAckTimeout num s
  | .klinkFlitReceive port hdr known => Sys2Proof.Machine.execKlinkFlitReceive port hdr known s
  | .klinkNak port hdr => Sys2Proof.Machine.execKlinkNak port hdr s
  | .klinkAckTimeout port => Sys2Proof.Machine.execKlinkAckTimeout port s
  | .klinkAlignSend port => Sys2Proof.Machine.execKlinkAlignSend port s
  | .klinkTrainStart port => Sys2Proof.Machine.execKlinkTrainStart port s
  | .klinkTrainTimeout port => Sys2Proof.Machine.execKlinkTrainTimeout port s
  | .klinkCounterClear => Sys2Proof.Machine.execKlinkCounterClear s
  | .motionEdge channel levels sample edge => Sys2Proof.Machine.execMotionEdge channel levels sample edge s
  | .motionGlitch run => Sys2Proof.Machine.execMotionGlitch run s
  | .ssiFrameStart channel sample idleHigh => Sys2Proof.Machine.execSsiFrameStart channel sample idleHigh s
  | .ssiFrameComplete channel value endLow => Sys2Proof.Machine.execSsiFrameComplete channel value endLow s
  | .motionPreset channel value => Sys2Proof.Machine.execMotionPreset channel value s
  | .motionStall channel => Sys2Proof.Machine.execMotionStall channel s
  | .motionStandstill channel => Sys2Proof.Machine.execMotionStandstill channel s
  | .motionGateEnd channel => Sys2Proof.Machine.execMotionGateEnd channel s
  | .arm cmp value => Sys2Proof.Machine.execArm cmp value s
  | .disarm cmp value => Sys2Proof.Machine.execDisarm cmp value s
  | .viewStartStep => Sys2Proof.Machine.execViewStartStep s
  | .viewScriptEntry => Sys2Proof.Machine.execViewScriptEntry s
  | .viewTeEdge => Sys2Proof.Machine.execViewTeEdge s
  | .viewPushComplete => Sys2Proof.Machine.execViewPushComplete s
  | .viewTeTimeout => Sys2Proof.Machine.execViewTeTimeout s
  | .viewApply => Sys2Proof.Machine.execViewApply s
  | .viewLineTimedWrite addr value => Sys2Proof.Machine.execViewLineTimedWrite addr value s
  | .viewDirtyWhWrite value => Sys2Proof.Machine.execViewDirtyWhWrite value s
  | .viewCmd value => Sys2Proof.Machine.execViewCmd value s
  | .viewPoolAlloc => Sys2Proof.Machine.execViewPoolAlloc s
  | .viewPoolFree value => Sys2Proof.Machine.execViewPoolFree value s
  | .mgmtWriteTransaction bytes held => Sys2Proof.Machine.execMgmtWriteTransaction bytes held s
  | .mgmtReadTransaction count held => Sys2Proof.Machine.execMgmtReadTransaction count held s
  | .mgmtTimeout bytes count => Sys2Proof.Machine.execMgmtTimeout bytes count s
  | .wake value => Sys2Proof.Machine.execWake value s
  | .cuesel value => Sys2Proof.Machine.execCuesel value s
  | .trig value => Sys2Proof.Machine.execTrig value s
  | .msg value => Sys2Proof.Machine.execMsg value s
  | .callAck count => Sys2Proof.Machine.execCallAck count s
  | .alertResponse wire aborted => Sys2Proof.Machine.execAlertResponse wire aborted s
  | .aonSupplyValid maddr => Sys2Proof.Machine.execAonSupplyValid maddr s
  | .aonSupplyLost => Sys2Proof.Machine.execAonSupplyLost s
  | .resetRelease => Sys2Proof.Machine.execResetRelease s
  | .warmRstAssert => Sys2Proof.Machine.execWarmRstAssert s
  | .warmRstRelease => Sys2Proof.Machine.execWarmRstRelease s
  | .railPgTimeout rail => Sys2Proof.Machine.execRailPgTimeout rail s
  | .railLost rail => Sys2Proof.Machine.execRailLost rail s
  | .supplyLoss supply => Sys2Proof.Machine.execSupplyLoss supply s
  | .supplyRestored => Sys2Proof.Machine.execSupplyRestored s
  | .refclkWindow cycles => Sys2Proof.Machine.execRefclkWindow cycles s
  | .pllUnlock pll => Sys2Proof.Machine.execPllUnlock pll s
  | .pllRelockTimeout pll => Sys2Proof.Machine.execPllRelockTimeout pll s
  | .thermalSample sites => Sys2Proof.Machine.execThermalSample sites s
  | .curtainNvmCutoff copy1 => Sys2Proof.Machine.execCurtainNvmCutoff copy1 s
  | .curtainCoolComplete => Sys2Proof.Machine.execCurtainCoolComplete s
  | .callPostWrite side value => Sys2Proof.Machine.execCallPostWrite side value s
  | .callLogWrite => Sys2Proof.Machine.execCallLogWrite s
  | .callLogEntryRead side => Sys2Proof.Machine.execCallLogEntryRead side s
  | .callDoneWrite side seq => Sys2Proof.Machine.execCallDoneWrite side seq s
  | .smParity => Sys2Proof.Machine.execSmParity s
  | .fatalHandlingTimeout => Sys2Proof.Machine.execFatalHandlingTimeout s
  | .safeStatePortsClosed => Sys2Proof.Machine.execSafeStatePortsClosed s
  | .callRestart side => Sys2Proof.Machine.execCallRestart side s
  | .companyRestartRelease => Sys2Proof.Machine.execCompanyRestartRelease s
  | .coKick => Sys2Proof.Machine.execCoKick s
  | .companyRestartTimeout => Sys2Proof.Machine.execCompanyRestartTimeout s
  | .companyWatchdogExpire => Sys2Proof.Machine.execCompanyWatchdogExpire s
  | .smKick side => Sys2Proof.Machine.execSmKick side s
  | .smWatchdogExpire => Sys2Proof.Machine.execSmWatchdogExpire s
  | .trigWakeEdge pin => Sys2Proof.Machine.execTrigWakeEdge pin s
  | .presenceRelease => Sys2Proof.Machine.execPresenceRelease s
  | .signalDetect lane => Sys2Proof.Machine.execSignalDetect lane s
  | .pllRelock pll => Sys2Proof.Machine.execPllRelock pll s
  | .pllFailureRestart => Sys2Proof.Machine.execPllFailureRestart s
  | .klinkDeskewLost port => Sys2Proof.Machine.execKlinkDeskewLost port s
  | .controllerFatalStatus port => Sys2Proof.Machine.execControllerFatalStatus port s
  | .warmResetCommand => Sys2Proof.Machine.execWarmResetCommand s
  | .rail0PgRestored => Sys2Proof.Machine.execRail0PgRestored s
  | .lowWordRead side addr => Sys2Proof.Machine.execLowWordRead side addr s

end Sys2Proof.Machine
end

