-- ==== Sys2Proof/Safety.lean ====
section
/-! DEFINITION. The terms in which statements about the device are made: what a step leaves alone, and the invariant that
every step keeps. -/

namespace Sys2Proof.Machine

/-- Every register but those at the listed offsets holds what it held. -/
def RegsBut (s t : State) (as : List Nat) : Prop := ∀ a, a ∉ as → t.word a = s.word a

/-- Every byte of scratch SRAM, Stage Manager SRAM, DRAM and NVM reads as before. -/
def SameMemory (s t : State) : Prop :=
  ∀ a, t.scratchByte a = s.scratchByte a ∧ readAt 0 t.smSram a = readAt 0 s.smSram a ∧
    readAt 0 t.dram a = readAt 0 s.dram a ∧ readAt 0xFF t.nvm a = readAt 0xFF s.nvm a

/-- Nothing but registers at the listed offsets and the answer of the bus has changed. -/
def OnlyRegs (s t : State) (as : List Nat) : Prop :=
  t = { s with regs := t.regs, sys := { s.sys with bus := t.sys.bus } } ∧ RegsBut s t as

/-- The registers that posting an event can change beside those of its own rule: the overflow counter and the latch of the
first fatal event (R557). -/
def eventRegs : List Nat := [CALL_OVERFLOW.COUNT.addr, CALL_FATAL_FIRST.VALID.addr]

/-- A memory is in its canonical form. -/
abbrev Memory.wf {w : Nat} (d : BitVec w) (m : Sparse w) : Prop := sparseWf d m = true

/-- The register file and the four memories are in canonical form. -/
def State.memoriesWf (s : State) : Prop :=
  Memory.wf 0 s.regs ∧ Memory.wf 0 s.scratch ∧ Memory.wf 0 s.smSram ∧ Memory.wf 0 s.dram ∧ Memory.wf 0xFF s.nvm

/-- What waits for the next tick of device time names a legal nanosecond (R434). -/
def TimeNext.legal : TimeNext → Prop
  | .set _ ns => ns < 1000000000
  | _ => True

/-- Device time lies below a full second (R432), and so does every time that waits to be set. -/
def State.timeWf (s : State) : Prop := s.time.ns < 1000000000 ∧ ∀ n ∈ s.clock.next, n.legal

/-- The invariant of the device. -/
def State.Inv (s : State) : Prop := s.memoriesWf ∧ s.timeWf

end Sys2Proof.Machine
end

