-- ==== Sys2Proof/Certificates/Slice0/Obligations.lean ====
section
/-! DEFINITION. Statements about the device for the provers, block by block. Every command of the table has a statement whose
conclusion is that it answers a next state in which it has had its effect. -/

open Sys2Proof Sys2Proof.Machine

/-! ### The machine as a whole -/

/-- A step runs the command at the front of the queue, on the state with the queue's rest. -/
def Obligations.StepRunsFrontCommand : Prop :=
  ∀ (c : Instr) (rest : List Instr) (s : State), s.pending = c :: rest → step s = exec c { s with pending := rest }

/-- R432: with no command waiting, a step is one tick (the model's own choice, assumption 2), and the queue and the memories stay. While
REFCLK is present, nothing waits for the tick and no DRAM port has panic enabled, device time grows by the increment, nanoseconds carry
into seconds, and nothing else changes. -/
def Obligations.IdleStepIsOneTick : Prop :=
  (∀ (s : State), s.pending = [] → s.clock.next = [] → s.flag TIME_STATUS.RC_CLK = false → panicIdle s = true →
    ∃ t, step s = .next t ∧ t = { s with ticks := s.ticks + 1, time := t.time } ∧
      t.time.units = (s.time.units + s.clock.incr) % (2 ^ 48 * 1000000000 * 2 ^ 40) ∧ t.time.ns < 1000000000) ∧
  (∀ (s : State), s.pending = [] → ∃ t, step s = .next t ∧ t.ticks = s.ticks + 1 ∧ t.pending = [] ∧ SameMemory s t)

/-- R434: STEP and SET wait for the next tick. There STEP moves the time by its nanoseconds and SET loads the time, before the
tick's own gain, and TIME_STATUS shows VALID (no DRAM port has panic enabled then, which a tick judges too, R380); a frame
schedule that runs counts the points passed over. While recording, and for SET with more than 999,999,999 ns, they are refused
with the flag and a warning event, and time does not change. Two clauses of the model's own stand in it (assumption 79): SET
clears the fraction, and on the RC oscillator (R436) the gain of eight ticks comes on every eighth one. -/
def Obligations.StepAndSetActAtTheTick : Prop :=
  (∀ (s : State), recording s = false →
    exec .step s = .next { s with
      sys := { s.sys with bus := { data := 0, error := false } },
      clock := { s.clock with next := s.clock.next ++ [.step (toSigned 32 (s.fld TIME_ADJ.NS))], watchFrom := s.ticks } }) ∧
  (∀ (s : State), recording s = false → s.fld TIME_SET_NS.VALUE ≤ 999999999 →
    exec .set s = .next { s with
      sys := { s.sys with bus := { data := 0, error := false } },
      clock := { s.clock with next := s.clock.next ++ [
        .set (s.fld TIME_SET_SEC_LO.VALUE + 2 ^ 32 * s.fld TIME_SET_SEC_HI.VALUE) (s.fld TIME_SET_NS.VALUE)] } }) ∧
  (∀ (s : State) (d : Int) (g : Nat), s.pending = [] → s.clock.next = [.step d] → panicIdle s = true →
    g = (if s.flag TIME_STATUS.RC_CLK then (if s.ticks % 8 = 7 then 8 * s.clock.incr else 0) else s.clock.incr) →
    0 ≤ (s.time.units : Int) + d * 2 ^ 40 → (s.time.units : Int) + d * 2 ^ 40 + g < 2 ^ 48 * 1000000000 * 2 ^ 40 →
    ∃ t, step s = .next t ∧ (t.time.units : Int) = s.time.units + d * 2 ^ 40 + g ∧ t.flag TIME_STATUS.VALID = true ∧
      t.clock.next = [] ∧ RegsBut s t [TIME_STATUS.VALID.addr, TIME_SCHED_CTRL.MISSED.addr, TIME_EVENT.EVENT.addr] ∧
      SameMemory s t) ∧
  (∀ (s : State) (sec ns g : Nat), s.pending = [] → s.clock.next = [.set sec ns] → panicIdle s = true →
    g = (if s.flag TIME_STATUS.RC_CLK then (if s.ticks % 8 = 7 then 8 * s.clock.incr else 0) else s.clock.incr) →
    s.clock.incr < 2 ^ 42 → sec < 2 ^ 48 - 1 → ns < 1000000000 →
    ∃ t, step s = .next t ∧ t.time.units = (sec * 1000000000 + ns) * 2 ^ 40 + g ∧ t.flag TIME_STATUS.VALID = true ∧
      t.clock.next = [] ∧ RegsBut s t [TIME_STATUS.VALID.addr, TIME_SCHED_CTRL.MISSED.addr, TIME_EVENT.EVENT.addr] ∧
      SameMemory s t) ∧
  (∀ (s : State) (c : Instr), (c = .step ∧ recording s = true) ∨
      (c = .set ∧ (recording s = true ∨ 999999999 < s.fld TIME_SET_NS.VALUE)) →
    ∃ u, (u.fld TIME_EVENT.EVENT).testBit 1 = true ∧ OnlyRegs s u [TIME_EVENT.EVENT.addr] ∧
      exec c s = .next (postEvent { cls := .warning, block := 15, cause := 0x204, inst := 0xFF, detail := TIME_CMD.CMD.addr } u) ∧
      ∃ t, exec c s = .next t ∧ t.clock = s.clock ∧ t.time = s.time) ∧
  (∀ (s : State), recording s = (decide (s.mode = 3) || decide (s.mode = 4)))

/-- R14: after cold reset every register of the register tables holds its Reset value. -/
def Obligations.ResetGivesResetValues : Prop :=
  ∀ (off : Nat) (r : RegDef), off % 4 = 0 → findReg off = some r → State.reset.word off = r.reset

/-- The state after cold reset has the invariant. -/
def Obligations.ResetHasInvariant : Prop :=
 State.reset.Inv

/-- Every step keeps the invariant: the register file and the memories stay in canonical form, and device time stays below a full
second (R432). -/
def Obligations.StepKeepsInvariant : Prop :=
  ∀ (s t : State), s.Inv → step s = .next t → t.Inv

/-- R16, R17, R32: no command of this device stops, for the spec answers a wrong access with a bus error or an event; and no command
touches the queue, so commands act first in, first out. -/
def Obligations.CommandsLeaveQueue : Prop :=
  ∀ (c : Instr) (s : State), ∃ t, exec c s = .next t ∧ t.pending = s.pending

/-! ### Bus accesses, doorbells and mailboxes -/

/-- R12, R13, R15: a 32-bit write of a register that neither its block's chapter nor a row of its own treats apart acts on each
field as its access code states. RO fields keep their value, RW fields take the written bits, a written 1 clears W1C bits and
sets W1S bits, RWC fields take the written bits until the first commit after Dawn and keep theirs from then on; bits of no field
stay. Every other register keeps its word, but for those that an event or the management alert shows. -/
def Obligations.RegisterWriteFollowsAccessCodes : Prop :=
  ∀ (s : State) (side : Side) (addr : BitVec 40) (v : Word) (off : Nat) (r : RegDef),
    busTarget s side addr.toNat 4 = .reg off → off % 4 = 0 → clockStopped s off = false → regAt off = some r →
    wrongPlane side off = false → regOff s off = false → (∀ u, regCommand side off v u = none) →
    off ∉ eventRegs ++ [MGMT_ALERT_SRC.CALL.addr, MGMT_STATUS.ALERT.addr] →
    ∃ t, exec (.registerWrite side addr .word v) s = .next t ∧ t.sys.bus = { data := 0, error := false } ∧
      (∀ f ∈ r.fields,
        (f.acc = .ro → t.word off &&& f.mask = s.word off &&& f.mask) ∧
        (f.acc = .rw → t.word off &&& f.mask = v &&& f.mask) ∧
        (f.acc = .w1c → t.word off &&& f.mask = s.word off &&& ~~~v &&& f.mask) ∧
        (f.acc = .w1s → t.word off &&& f.mask = (s.word off ||| v) &&& f.mask) ∧
        (f.acc = .rwc → t.word off &&& f.mask = (if s.cue.locked then s.word off else v) &&& f.mask)) ∧
      t.word off &&& ~~~(r.maskOf (fun _ => true)) = s.word off &&& ~~~(r.maskOf (fun _ => true)) ∧
      RegsBut s t (off :: eventRegs ++ [MGMT_ALERT_SRC.CALL.addr, MGMT_STATUS.ALERT.addr]) ∧ SameMemory s t

/-- R16, R17, R26, R32, R34: a byte or half-word write of a register is a bus error and changes nothing; a Company write in the
management plane leaves the register and posts the warning of R26; a write into the scratch SRAM before the firmware is
protected stores its bytes and nothing else. An access outside the regions of its side is a bus error, and a recoverable event
of SYS, group 2 kind 2, names the initiator and the address. -/
def Obligations.WrongWritesAreRefused : Prop :=
  (∀ (s : State) (side : Side) (addr : BitVec 40) (size : AccessSize) (v : Word) (off : Nat),
    size ≠ .word → busTarget s side addr.toNat (accessBytes size) = .reg off →
    exec (.registerWrite side addr size v) s = .next (busError s)) ∧
  (∀ (s : State) (c : Fin 4) (addr : BitVec 40) (v : Word) (off b : Nat) (r : RegDef),
    busTarget s (.company c) addr.toNat 4 = .reg off → off % 4 = 0 → clockStopped s off = false → regAt off = some r →
    mgmtPlane (off / 0x10000) = true → blockCode (off / 0x10000) = some b →
    exec (.registerWrite (.company c) addr .word v) s =
      .next (postEvent { cls := .warning, block := b, cause := 0x201, inst := 0xFF, detail := off } (busOk 0 s))) ∧
  (∀ (s : State) (c : Fin 4) (addr : BitVec 40) (v : Word) (off : Nat),
    busTarget s (.company c) addr.toNat 4 = .scratch off → s.sys.fwGuard = false →
    ∃ t, exec (.registerWrite (.company c) addr .word v) s = .next t ∧
      t = { s with scratch := t.scratch, sys := { s.sys with bus := { data := 0, error := false } } } ∧
      (∀ i < 4, t.scratchByte (off + i) = v.extractLsb' (8 * i) 8) ∧
      (∀ a, a < off ∨ off + 4 ≤ a → t.scratchByte a = s.scratchByte a)) ∧
  (∀ (s : State) (side : Side) (addr : BitVec 40) (write : Bool),
      busTarget s side addr.toNat 1 = .unmapped →
      ∃ t, exec (.unmappedAccess side addr write) s = .next t ∧ t.sys.bus.error = true ∧
        t = postEvent { cls := .recoverable, block := 0, cause := 0x202, inst := sideInst side, detail := addr.toNat % 2 ^ 32 }
          (busError s) ∧
        t = { s with regs := t.regs, sys := t.sys, call := t.call, ledger := t.ledger } ∧ RegsBut s t eventRegs)

/-- R35, R36: the sender sets doorbell bits, the receiver clears them, and a bit that the sender sets in the same cycle ends set. The
interrupt of the receiver, which for Company is the core of CO_TARGET, is raised while any bit of its doorbell is set. Nothing else
changes. -/
def Obligations.DoorbellsSetAndClear : Prop :=
  (∀ (s : State) (side : Side) (bells : Word),
    ∃ t, exec (.doorbellRing side bells) s = .next t ∧
      t.word (bellsTo side).addr = s.word (bellsTo side).addr ||| bells ∧ OnlyRegs s t [(bellsTo side).addr]) ∧
  (∀ (s : State) (side : Side) (bells rung : Word),
    ∃ t, exec (.doorbellClear side bells rung) s = .next t ∧
      t.word (bellsFor side).addr = (s.word (bellsFor side).addr &&& ~~~bells) ||| rung ∧
      (∀ i < 32, rung.getLsbD i = true → (t.word (bellsFor side).addr).getLsbD i = true) ∧
      OnlyRegs s t [(bellsFor side).addr]) ∧
  (∀ (s : State), smInterrupt s = true ↔ ∃ i < 32, (s.word (bellsFor .stageManager).addr).getLsbD i = true) ∧
  (∀ (s : State) (core c : Fin 4), coInterrupt s core = true ↔
    s.fld SYS_MBOX_CTRL.CO_TARGET = core.val ∧ ∃ i < 32, (s.word (bellsFor (.company c)).addr).getLsbD i = true)

/-- R37, R38: a message word is stored by the side that writes it, and both sides read it. While MSG is set the overwrite flag
shows with its warning; without it nothing else changes. The other side's write is ignored with a warning. -/
def Obligations.MailboxWritesStoreOrFlag : Prop :=
  (∀ (s : State) (side : Side) (i : Fin 64) (v : Word), side ≠ .stageManager → s.flag SYS_DB_TO_SM.MSG = false →
    ∃ t, exec (.mailboxWrite side true i v) s = .next t ∧
      t.word (SYS_MBOX_TO_SM.DATA i).addr = v ∧ OnlyRegs s t [(SYS_MBOX_TO_SM.DATA i).addr]) ∧
  (∀ (s : State) (i : Fin 64) (v : Word), s.flag SYS_DB_TO_CO.MSG = false →
    ∃ t, exec (.mailboxWrite .stageManager false i v) s = .next t ∧
      t.word (SYS_MBOX_TO_CO.DATA i).addr = v ∧ OnlyRegs s t [(SYS_MBOX_TO_CO.DATA i).addr]) ∧
  (∀ (s : State) (side : Side) (i : Fin 64) (v : Word), side ≠ .stageManager → s.flag SYS_DB_TO_SM.MSG = true →
    ∃ u, u.word (SYS_MBOX_TO_SM.DATA i).addr = v ∧ u.flag SYS_MBOX_CTRL.TO_SM_OVW = true ∧
      OnlyRegs s u [(SYS_MBOX_TO_SM.DATA i).addr, SYS_MBOX_CTRL.TO_SM_OVW.addr] ∧
      exec (.mailboxWrite side true i v) s =
        .next (postEvent { cls := .warning, block := 0, cause := 2, inst := 0xFF, detail := 0 } u)) ∧
  (∀ (s : State) (i : Fin 64) (v : Word), s.flag SYS_DB_TO_CO.MSG = true →
    ∃ u, u.word (SYS_MBOX_TO_CO.DATA i).addr = v ∧ u.flag SYS_MBOX_CTRL.TO_CO_OVW = true ∧
      OnlyRegs s u [(SYS_MBOX_TO_CO.DATA i).addr, SYS_MBOX_CTRL.TO_CO_OVW.addr] ∧
      exec (.mailboxWrite .stageManager false i v) s =
        .next (postEvent { cls := .warning, block := 0, cause := 3, inst := 0xFF, detail := 0 } u)) ∧
  (∀ (s : State) (i : Fin 64) (v : Word),
    exec (.mailboxWrite .stageManager true i v) s =
      .next (postEvent { cls := .warning, block := 0, cause := 0x201, inst := 0xFF, detail := (SYS_MBOX_TO_SM.DATA i).addr }
        (busOk 0 s))) ∧
  (∀ (s : State) (side : Side) (i : Fin 64) (v : Word), side ≠ .stageManager →
    exec (.mailboxWrite side false i v) s =
      .next (postEvent { cls := .warning, block := 0, cause := 0x201, inst := 0xFF, detail := (SYS_MBOX_TO_CO.DATA i).addr }
        (busOk 0 s))) ∧
  (∀ (s : State) (side : Side) (i : Fin 64), readReg s side (SYS_MBOX_TO_SM.DATA i).addr = s.word (SYS_MBOX_TO_SM.DATA i).addr ∧
    readReg s side (SYS_MBOX_TO_CO.DATA i).addr = s.word (SYS_MBOX_TO_CO.DATA i).addr)

/-- R18: a read of the low word of a 64-bit pair returns it and latches the high word; the next read of the high word returns
the latched value whatever the pair holds by then, and frees the latch; a read of the high word that no read of the low word
precedes returns the live one. A read of 8 or 16 bits returns the addressed bytes of a register that latches nothing (R16).
Registers and memories keep their contents. -/
def Obligations.LowWordReadLatchesHighWord : Prop :=
  (∀ (s : State) (side : Side) (addr : BitVec 40) (off : Nat),
    busTarget s side addr.toNat 4 = .reg off → clockStopped s off = false → off ∈ lowWords →
    keyGet s.sys.latches off = none →
    ∃ t, exec (.lowWordRead side ⟨addr, .word⟩) s = .next t ∧ t.sys.bus = { data := readReg s side off, error := false } ∧
      keyGet t.sys.latches (off + 4) = some (readReg s side (off + 4)) ∧ t = { s with sys := t.sys }) ∧
  (∀ (s : State) (side : Side) (addr : BitVec 40) (off : Nat) (w : Word),
    busTarget s side addr.toNat 4 = .reg (off + 4) → clockStopped s (off + 4) = false → off ∈ lowWords →
    keyGet s.sys.latches (off + 4) = some w →
    ∃ t, exec (.lowWordRead side ⟨addr, .word⟩) s = .next t ∧ t.sys.bus = { data := w, error := false } ∧
      keyGet t.sys.latches (off + 4) = none ∧ t = { s with sys := t.sys }) ∧
  (∀ (s : State) (side : Side) (addr : BitVec 40) (off : Nat),
    busTarget s side addr.toNat 4 = .reg (off + 4) → clockStopped s (off + 4) = false → off ∈ lowWords →
    keyGet s.sys.latches (off + 4) = none →
    ∃ t, exec (.lowWordRead side ⟨addr, .word⟩) s = .next t ∧ t.sys.bus = { data := readReg s side (off + 4), error := false } ∧
      t = { s with sys := t.sys }) ∧
  (∀ (s : State) (side : Side) (addr : BitVec 40) (off : Nat) (size : ReadSize), size = .byte ∨ size = .half →
    busTarget s side addr.toNat (readBytes size) = .reg off → off % readBytes size = 0 → clockStopped s (off - off % 4) = false →
    off - off % 4 ∉ [TIME_NOW_NS.NS.addr, HEVD_OUT_POP.BUF.addr, VIEW_POOL_ALLOC.HANDLE.addr, (CALL_LOG_ENTRY.DATA 0).addr] →
    off - off % 4 ∉ lowWords → keyGet s.sys.latches (off - off % 4) = none →
    ∃ t, exec (.lowWordRead side ⟨addr, size⟩) s = .next t ∧ t.sys.bus.error = false ∧
      t.sys.bus.data.toNat = (readReg s side (off - off % 4)).toNat / 2 ^ (8 * (off % 4)) % 2 ^ (8 * readBytes size) ∧
      t = { s with sys := t.sys })

/-! ### The Call board -/

/-- R551, R555 to R557: an event below fatal that joins no earlier entry while fewer than 60 wait becomes the newest entry of
the queue: SEQ is its place in the log, its code and class are the event's, it counts 1 and carries device time, and no register
and no memory changes. While 60 or more wait it is dropped and counted. -/
def Obligations.EventsAreQueuedOrDropped : Prop :=
  (∀ (s : State) (e : Event), e.cls ≠ .fatal → findCoalesce s e = none → s.call.queue.length < 60 →
      ∃ x, (postEvent e s).call.queue = s.call.queue ++ [x] ∧
        x.seq = (s.fld CALL_LOG_WR.WR + s.call.queue.length) % 2 ^ 32 ∧ x.code = e.block * 1024 + e.cause ∧ x.cls = e.cls ∧
        x.inst = e.inst % 256 ∧ x.detail = e.detail % 2 ^ 32 ∧ x.count = 1 ∧ x.firstSec = s.time.sec.toNat ∧
        x.firstNs = s.time.ns ∧ x.done = false ∧
        (postEvent e s).call.log = s.call.log ∧ (∀ a, (postEvent e s).word a = s.word a) ∧ SameMemory s (postEvent e s)) ∧
  (∀ (s : State) (e : Event), e.cls ≠ .fatal → findCoalesce s e = none → 60 ≤ s.call.queue.length →
      (postEvent e s).call.queue = s.call.queue ∧ (postEvent e s).call.log = s.call.log ∧
        (postEvent e s).fld CALL_OVERFLOW.COUNT = min (2 ^ 32 - 1) (s.fld CALL_OVERFLOW.COUNT + 1) ∧
        RegsBut s (postEvent e s) [CALL_OVERFLOW.COUNT.addr])

/-- R35, R36, R552, R555, R558 to R563: CALL_POST posts with the fields of the written value; the log writer moves the oldest
entry to the log and WR on; a read of CALL_LOG_ENTRY0 latches the other words for the side that reads; CALL_DONE of the current
entry marks it done; each doorbell, restart, kick and watchdog command completes with its own effect. -/
def Obligations.CallPostLogReadAndDone : Prop :=
  (∀ (s : State) (c : Fin 4) (v : Word),
    exec (.callPostWrite (.company c) v) s =
      .next (postEvent { cls := EventClass.ofNum (v.toNat / 2 ^ 30), block := 62, cause := v.toNat % 1024,
                         inst := v.toNat / 4096 % 256, detail := s.fld CALL_POST_DETAIL.DETAIL } (busOk 0 s))) ∧
  (∀ (s : State) (e : CallEntry) (q : List CallEntry), s.call.queue = e :: q → q.length ≠ 32 →
    ∃ t, exec .callLogWrite s = .next t ∧ t.call.queue = q ∧ t.fld CALL_LOG_WR.WR = (e.seq + 1) % 2 ^ 32 ∧
      (∃ x, x.seq = e.seq ∧ x.code = e.code ∧ x.detail = e.detail ∧
        t.call.log = s.call.log.filter (fun y => y.seq % 4096 != e.seq % 4096) ++ [x])) ∧
  (∀ (s : State) (c : Fin 4),
    ∃ t, exec (.callLogEntryRead (.company c)) s = .next t ∧
      t.sys.bus = { data := logWord s.call.log (s.fld CALL_LOG_IDX.IDX) 0, error := false } ∧
      t.call.latchCo = (List.range 7).map (fun i => logWord s.call.log (s.fld CALL_LOG_IDX.IDX) (i + 1)) ∧
      t = { s with sys := t.sys, call := t.call }) ∧
  (∀ (s : State) (q : Word), s.call.current = some q.toNat →
    ∃ t, exec (.callDoneWrite .stageManager q) s = .next t ∧
      t.call.log = s.call.log.map (fun x => if x.seq = q.toNat then { x with done := true } else x) ∧
      t.call.fatals = s.call.fatals.filter (fun p => p.1 != q.toNat) ∧ OnlyRegs { s with call := t.call } t []) ∧
  (∀ (s : State) (side : Side) (bells rung : Word),
    (∃ t, exec (.doorbellRing side bells) s = .next t ∧ t.word (bellsTo side).addr = s.word (bellsTo side).addr ||| bells) ∧
    (∃ t, exec (.doorbellClear side bells rung) s = .next t ∧
      t.word (bellsFor side).addr = (s.word (bellsFor side).addr &&& ~~~bells) ||| rung)) ∧
  (∀ (s : State), s.call.restart = none → ∃ t, exec (.callRestart .stageManager) s = .next t ∧ t.call.companyHeld = true) ∧
  (∀ (s : State) (r : CompanyRestart), s.call.restart = some r → r.released = false →
    sha3_512 (s.scratchBytes 0 s.sys.coLen) = s.sys.coDigest →
    ∃ t, exec .companyRestartRelease s = .next t ∧ t.call.companyHeld = false) ∧
  (∀ (s : State), (∃ t, exec .coKick s = .next t ∧ t.call.coKick = s.ticks) ∧
    (∃ t, exec (.smKick .stageManager) s = .next t ∧ t.call.smKick = s.ticks) ∧
    (∃ t, exec .smParity s = .next t ∧ t.mode = 1)) ∧
  (∀ (s : State), s.flag CALL_CO_WDOG.EN = true → s.call.companyHeld = false →
    watchdogOver (s.fld CALL_CO_WDOG.MS) s.call.coKick s = true →
    ∃ t, exec .companyWatchdogExpire s = .next t ∧ t.flag CALL_CO_WDOG.EXPIRED = true) ∧
  (∀ (s : State), restartOverdue s = true → s.call.lastFail = none →
    ∃ t, exec .companyRestartTimeout s = .next t ∧ t.call.lastFail = some s.ticks) ∧
  (∀ (s : State), s.flag CALL_SM_WDOG.EN = true → s.call.smExpiry = none →
    watchdogOver (s.fld CALL_SM_WDOG.MS) s.call.smKick s = true →
    ∃ t, exec .smWatchdogExpire s = .next t ∧ t.flag CALL_SM_WDOG.EXPIRED = true) ∧
  (∀ (s : State), fatalOverdue s = true → 2 ≤ s.mode → s.flag CALL_STATUS.SAFE = false →
    ∃ t, exec .fatalHandlingTimeout s = .next t ∧ t.flag CALL_STATUS.SAFE = true)

/-- R558 to R563: GO of CALL_RESTART by the Stage Manager holds the cores from the decision on, and is refused while a restart runs and
from Company; with the right firmware digest core 0 is released and the cause recorded, with a wrong one the device resets; the kick
that follows completes the restart and ends the safe state, and any other kick only begins the watchdog period again. The Company
watchdog starts a restart; a restart without a kick counts as failed and runs again, and a second failure within 60 s resets the device;
the Stage Manager watchdog restarts its core, and a second expiry within 60 s resets the device, as parity in its SRAM does. Fatal
handling that takes too long enters the safe state, whose end, once the ports have closed and the chain has their frames, is a Company
restart. -/
def Obligations.CompanyRestartsAndWatchdogs : Prop :=
  (∀ (s : State), s.call.restart = none →
    ∃ t, exec (.callRestart .stageManager) s = .next t ∧ t.call.companyHeld = true ∧
      t.call.restart = some { decision := s.ticks, released := false } ∧ t.hash.restarted = true ∧
      t = { s with sys := t.sys, call := t.call, hash := t.hash }) ∧
  (∀ (s : State), s.call.restart ≠ none →
    exec (.callRestart .stageManager) s = .next (postRefused 23 CALL_RESTART.GO.addr (busOk 0 s))) ∧
  (∀ (s : State) (c : Fin 4), exec (.callRestart (.company c)) s = .next (postKind 1 23 0xFF CALL_RESTART.GO.addr (busOk 0 s)) ∧
    exec (.smKick (.company c)) s = .next (postKind 1 23 0xFF CALL_SM_KICK.KICK.addr (busOk 0 s))) ∧
  (∀ (s : State) (r : CompanyRestart), s.call.restart = some r → r.released = false →
    sha3_512 (s.scratchBytes 0 s.sys.coLen) ≠ s.sys.coDigest → ∃ t, exec .companyRestartRelease s = .next t ∧ t.mode = 1) ∧
  (∀ (s : State), (∀ r, s.call.restart = some r → r.released = false) →
    ∃ t, exec .coKick s = .next t ∧ t = { s with sys := t.sys, call := { s.call with coKick := s.ticks } }) ∧
  (∀ (s : State) (k : Nat), restartOverdue s = true → s.call.lastFail = some k →
    s.elapsedNs k 60000000000 = false → ∃ t, exec .companyRestartTimeout s = .next t ∧ t.mode = 1) ∧
  (∀ (s : State) (k : Nat), s.flag CALL_SM_WDOG.EN = true → s.call.smExpiry = some k → s.elapsedNs k 60000000000 = false →
    watchdogOver (s.fld CALL_SM_WDOG.MS) s.call.smKick s = true →
    ∃ t, exec .smWatchdogExpire s = .next t ∧ t.mode = 1) ∧
  (∀ (s : State) (r : CompanyRestart), s.call.restart = some r → r.released = false →
    sha3_512 (s.scratchBytes 0 s.sys.coLen) = s.sys.coDigest →
    ∃ t, exec .companyRestartRelease s = .next t ∧ t.call.companyHeld = false ∧
      t.call.restart = some { r with released := true } ∧ t.flag SYS_RESET_CAUSE.COMPANY_RESTART = true ∧
      t = { s with regs := t.regs, call := t.call } ∧ RegsBut s t [SYS_RESET_CAUSE.COMPANY_RESTART.addr]) ∧
  (∀ (s : State) (r : CompanyRestart), s.call.restart = some r → r.released = true →
    ∃ t, exec .coKick s = .next t ∧ t.call.restart = none ∧ t.call.coKick = s.ticks ∧ t.flag CALL_STATUS.SAFE = false ∧
      t.fld CALL_RESTART_CNT.DONE = min 65535 (s.fld CALL_RESTART_CNT.DONE + 1) ∧
      RegsBut s t [CALL_STATUS.SAFE.addr, CALL_RESTART_CNT.DONE.addr] ∧ SameMemory s t) ∧
  (∀ (s : State), ∃ t, exec (.smKick .stageManager) s = .next t ∧ t.call.smKick = s.ticks ∧
      t = { s with sys := t.sys, call := t.call }) ∧
  (∀ (s : State), s.flag CALL_CO_WDOG.EN = true → s.call.companyHeld = false →
    watchdogOver (s.fld CALL_CO_WDOG.MS) s.call.coKick s = true →
    ∃ t, exec .companyWatchdogExpire s = .next t ∧ t.flag CALL_CO_WDOG.EXPIRED = true ∧ t.call.companyHeld = true ∧
      t.call.restart = some { decision := s.ticks, released := false } ∧
      RegsBut s t (CALL_CO_WDOG.EXPIRED.addr :: eventRegs) ∧ SameMemory s t) ∧
  (∀ (s : State), restartOverdue s = true → s.call.lastFail = none →
    ∃ t, exec .companyRestartTimeout s = .next t ∧
      t.fld CALL_RESTART_CNT.FAILED = min 65535 (s.fld CALL_RESTART_CNT.FAILED + 1) ∧ t.call.lastFail = some s.ticks ∧
      t.call.restart = some { decision := s.ticks, released := false } ∧ t.call.companyHeld = true ∧ SameMemory s t) ∧
  (∀ (s : State), s.flag CALL_SM_WDOG.EN = true → s.call.smExpiry = none →
    watchdogOver (s.fld CALL_SM_WDOG.MS) s.call.smKick s = true →
    ∃ t, exec .smWatchdogExpire s = .next t ∧ t.flag CALL_SM_WDOG.EXPIRED = true ∧ t.call.smExpiry = some s.ticks ∧
      t.call.smKick = s.ticks ∧ RegsBut s t (CALL_SM_WDOG.EXPIRED.addr :: eventRegs) ∧ SameMemory s t) ∧
  (∀ (s : State), ∃ t, exec .smParity s = .next t ∧ t.mode = 1 ∧ t.smSram = s.smSram ∧
      t.nvm = s.nvm ∧ t.call.queue = []) ∧
  (∀ (s : State), fatalOverdue s = true → 2 ≤ s.mode → s.flag CALL_STATUS.SAFE = false →
    ∃ t, exec .fatalHandlingTimeout s = .next t ∧ t.flag CALL_STATUS.SAFE = true ∧ t.call.safePending = true ∧
      t.call.companyHeld = true ∧ t.call.fatals = [] ∧ t.power.xfer = none) ∧
  (∀ (s : State), s.call.safePending = true → portsClosed s = true →
    chainSafe (safeLinked s) = true → viewSafe s = true →
    (railsReady (wantedDomains 6 (safeMask s) (s.flag CUE_STATUS.PORTS_HELD)) s).1 = true →
    ∃ t, exec .safeStatePortsClosed s = .next t ∧ t.call.companyHeld = true ∧
      t.call.restart = some { decision := s.ticks, released := false })

/-! ### Cues and commits -/

/-- R58, R60, R61: PUSH, POP, REPLACE, CLEAR and CLEAR_FW change the pending stack as the rule says and nothing else; an
operation the rule refuses leaves it and posts the warning of group 2 kind 4. A GO of CUE_LOAD_CTRL with slot 48 to 63 in no
stack and its source in scratch SRAM starts the load and shows BUSY; slots 0 to 47 are refused with FAIL; the end of the copy
clears BUSY, and bytes that make no cue leave the slot invalid and set FAIL. A Company write to a shadowed register without
line-timed fields goes into the firmware overlay of the pending stack, which holds 256 registers; the active value stays. -/
def Obligations.PendingStackOverlayAndLoads : Prop :=
  (∀ (s : State) (slot : Fin 64), slotValid s slot = true →
    ((keyGet s.cue.slots slot.val).map (fun c => c.kind)) = some 0 → s.cue.pending.users.length < 4 →
    ∃ t, exec (.push slot) s = .next t ∧ t.cue.pending = { s.cue.pending with users := s.cue.pending.users ++ [slot.val] } ∧
      t.cue.active = s.cue.active ∧ OnlyRegs { s with cue := t.cue } t []) ∧
  (∀ (s : State) (us : List Nat) (u : Nat), s.cue.pending.users = us ++ [u] →
    ∃ t, exec .pop s = .next t ∧ t.cue.pending = { s.cue.pending with users := us } ∧ t.cue.active = s.cue.active ∧
      OnlyRegs { s with cue := t.cue } t []) ∧
  (∀ (s : State) (level : Fin 4) (slot : Fin 64), slotValid s slot = true →
    ((keyGet s.cue.slots slot.val).map (fun c => c.kind)) = some 0 → level.val < s.cue.pending.users.length →
    ∃ t, exec (.replace level slot) s = .next t ∧
      t.cue.pending = { s.cue.pending with users := s.cue.pending.users.set level slot } ∧ t.cue.active = s.cue.active ∧
      OnlyRegs { s with cue := t.cue } t []) ∧
  (∀ (s : State), ∃ t, exec .clear s = .next t ∧ t.cue.pending = { s.cue.pending with users := [] } ∧
      t.cue.active = s.cue.active ∧ OnlyRegs { s with cue := t.cue } t []) ∧
  (∀ (s : State), ∃ t, exec .clearFw s = .next t ∧ t.cue.pending = { s.cue.pending with overlay := [] } ∧
      t.cue.active = s.cue.active ∧ OnlyRegs { s with cue := t.cue } t []) ∧
  (∀ (s : State) (slot : Fin 64), 4 ≤ s.cue.pending.users.length ∨ slotValid s slot = false →
    exec (.push slot) s = .next (postKind 4 1 0xFF CUE_OP.OP.addr (busOk 0 s))) ∧
  (∀ (s : State) (v : Word) (a : Nat), v.getLsbD 6 = true → 48 ≤ v.toNat % 64 → s.cue.load = none →
    loadSource s = some a → v.toNat % 64 ∉ stackedSlots s →
    ∃ t, exec (.cueLoad v) s = .next t ∧ t.flag CUE_LOAD_CTRL.BUSY = true ∧ t.fld CUE_LOAD_CTRL.SLOT = v.toNat % 64 ∧
      t.cue.load = some (v.toNat % 64, a) ∧ OnlyRegs { s with cue := t.cue } t [CUE_LOAD_CTRL.GO.addr]) ∧
  (∀ (s : State) (v : Word), v.getLsbD 6 = true → v.toNat % 64 < 48 → s.cue.load = none →
    ∃ t, exec (.cueLoad v) s = .next t ∧ t.flag CUE_LOAD_CTRL.FAIL = true ∧ t.cue = s.cue) ∧
  (∀ (s : State) (slot a : Nat) (c : Cue), s.cue.load = some (slot, a) → slot < 64 →
    parseCue (s.scratchBytes a 4096) = .ok c → cueFault s.cue.tableStore s.cue.base.entries c = none →
    ∃ t, exec .cueLoadComplete s = .next t ∧ t.flag CUE_LOAD_CTRL.BUSY = false ∧ t.cue.load = none ∧
      slotValid t slot = true ∧ keyGet t.cue.slots slot = some c ∧ SameMemory s t) ∧
  (∀ (s : State) (slot a off : Nat), s.cue.load = some (slot, a) → slot < 64 → parseCue (s.scratchBytes a 4096) = .error off →
    ∃ t, exec .cueLoadComplete s = .next t ∧ t.flag CUE_LOAD_CTRL.BUSY = false ∧ t.flag CUE_LOAD_CTRL.FAIL = true ∧
      slotValid t slot = false ∧ t.cue.slots = s.cue.slots) ∧
  (∀ (s : State) (addr : BitVec 40) (v : Word) (off : Nat), addr.toNat = 0x10000000 + off → regOff s off = false →
      lineMask off = 0 → shadowMask off ≠ 0 → s.cue.pending.overlay.length < 256 →
      ∃ t, exec (.shadowWrite addr v) s = .next t ∧ keyGet t.cue.pending.overlay off = some v ∧
        (∀ o, o ≠ off → keyGet t.cue.pending.overlay o = keyGet s.cue.pending.overlay o) ∧
        t.cue.pending.users = s.cue.pending.users ∧ OnlyRegs { s with cue := t.cue } t [])

/-- R68, R71: a commit after the first one starts preparing the image of the pending stack and merges into a commit in progress. An
image whose preparation ends in Rehearsal to Encore with the admission check passed is armed. The first one enters Rehearsal once
its rails are up, with POWER_XFER (R44, R533). -/
def Obligations.CommitsPrepareAndArm : Prop :=
  (∀ (s : State), s.cue.locked = true → s.cue.commit = .idle → 1 ≤ s.fld CUE_REF_TIMEOUT.MS → s.fld CUE_REF_TIMEOUT.MS ≤ 1000 →
    ∃ t, exec .cueCommit s = .next t ∧ t.cue.commit = .preparing { buildImage s s.cue.pending with enters := none } ∧
      t.cue.pending = s.cue.pending ∧ t.cue.active = s.cue.active ∧ OnlyRegs { s with cue := t.cue } t []) ∧
  (∀ (s : State), s.cue.locked = true → s.cue.commit ≠ .idle → 1 ≤ s.fld CUE_REF_TIMEOUT.MS →
    s.fld CUE_REF_TIMEOUT.MS ≤ 1000 →
    ∃ t, exec .cueCommit s = .next t ∧ (∃ img, t.cue.commit = .preparing img ∧ img.stack = s.cue.pending ∧
      img.enters = commitEnters s.cue.commit) ∧
      t.fld CUE_COUNT.MERGED = min 65535 (s.fld CUE_COUNT.MERGED + 1)) ∧
  (∀ (s : State) (img : CommitImage), s.cue.commit = .preparing img → bankBusy s img = false → 2 ≤ s.mode → s.mode ≤ 5 →
    (admitImage img s.mode s).1 = true → s.fld CUE_CTRL.REFSRC ≤ 5 →
    ∃ t, exec .commitArmed s = .next t ∧ ∃ d, t.cue.commit = .armed { img with passed := true } d false) ∧
  (∀ (s : State) (img : CommitImage), s.cue.commit = .preparing img → bankBusy s img = false → 2 ≤ s.mode → s.mode ≤ 5 →
    img.passed = false → (admitImage img s.mode s).1 = false →
    ∃ t, exec .commitArmed s = .next t ∧ t.cue.commit = .idle ∧ t.cue.pending = t.cue.active) ∧
  (∀ (s : State) (img : CommitImage), s.cue.commit = .preparing img → bankBusy s img = false → s.mode = 1 →
    img.passed = false → (railsReady (wantedDomains 2 (maskOf s img.stack.modeCue) false) s).1 = true →
    ∃ t, exec .commitArmed s = .next t ∧ t.mode = 2 ∧ t.fld POWER_XFER.FROM = 1 ∧ t.fld POWER_XFER.TO = 2 ∧
      t.flag POWER_EVENT.XFER_DONE = true) ∧
  (∀ (s : State) (img : CommitImage), s.cue.commit = .preparing img → bankBusy s img = false → s.mode = 1 →
    img.passed = false → (railsReady (wantedDomains 2 (maskOf s img.stack.modeCue) false) s).1 = false →
    ∃ t, exec .commitArmed s = .next t ∧ t.mode = 1 ∧ t.cue = s.cue ∧ t.power.rise.isSome = true)

/-- R59, R63, R64, R69, R70, R72: a reference of the selected source that comes 2 µs or more after arming is the cue point of
the armed image, which a schedule tick can be. After the time-out a source of Frame Starts waits for the schedule's tick while
the schedule runs. At the cue point the image's stack is the active one, every rebuilt table is in its active bank, CUE_EPOCH
has counted. -/
def Obligations.ReferenceMakesTheCuePoint : Prop :=
  (∀ (s : State) (img : CommitImage) (d : Nat), schedOn s = true → gridTime s s.clock.grid ≤ s.nowNs →
    s.cue.commit = .armed img d false → refSource s = 4 → s.elapsedNs d 2000 = true →
    ∃ u, exec .scheduleTick s = .next (cuePoint false (fun _ => 0) img u) ∧
      u.fld TIME_SCHED_COUNT.TICKS = (s.fld TIME_SCHED_COUNT.TICKS + 1) % 2 ^ TIME_SCHED_COUNT.TICKS.width ∧
      u.clock.grid = s.clock.grid + 1 ∧ u.cue = s.cue ∧ RegsBut s u [TIME_SCHED_COUNT.TICKS.addr]) ∧
  (∀ (s : State), schedOn s = false ∨ s.nowNs < gridTime s s.clock.grid → exec .scheduleTick s = .next s) ∧
  (∀ (s : State), schedOn s = true → gridTime s s.clock.grid ≤ s.nowNs → s.cue.commit = .idle →
    ∃ t, exec .scheduleTick s = .next t ∧
      t.fld TIME_SCHED_COUNT.TICKS = (s.fld TIME_SCHED_COUNT.TICKS + 1) % 2 ^ TIME_SCHED_COUNT.TICKS.width ∧
      t = { s with regs := t.regs, clock := { s.clock with grid := s.clock.grid + 1 } } ∧
      RegsBut s t [TIME_SCHED_COUNT.TICKS.addr]) ∧
  (∀ (s : State) (img : CommitImage) (d : Nat), s.cue.commit = .armed img d false → refSource s < 4 → schedOn s = true →
    refTimedOut s d = true →
    exec .cueRefTimeout s = .next { s with cue := { s.cue with commit := .armed img d true } }) ∧
  (∀ (s : State) (img : CommitImage) (d : Nat) (b : Bool), s.cue.commit = .armed img d b → schedOn s = false →
    refTimedOut s d = true → exec .cueRefTimeout s = .next (cuePoint true (fun _ => 0) img s)) ∧
  (∀ (s : State) (img : CommitImage) (d : Nat) (b : Bool), s.cue.commit = .armed img d b →
    s.elapsedNs d (clamp 1 1000 (s.fld CUE_REF_TIMEOUT.MS) * 1000000) = false → refSource s < 4 →
    s.domainOn (6 + refPort s (refSource s)) = true → exec .cueRefTimeout s = .next s) ∧
  (∀ (s : State) (synthetic : Bool) (frame : State → Nat) (img : CommitImage),
      (cuePoint synthetic frame img s).cue.active = img.stack ∧
      (cuePoint synthetic frame img s).cue.tableSrc = img.tableSrc ∧
      (cuePoint synthetic frame img s).fld CUE_EPOCH.EPOCH = (s.fld CUE_EPOCH.EPOCH + 1) % 2 ^ 32)

/-! ### Modes -/

/-- R41, R44 to R48, R57, R532, R533: a request for an allowed mode whose checks pass starts the transition, draining when
Performance or Wings is left, and shows XFER. A request while a transition runs, for a mode the table does not allow, or for a
mode without a valid mode cue is refused with check 1, 0 or 6. When every port is closed and every disposition final the drain
is over; a transition whose blocks are quiet ends, XFER clears and POWER_XFER shows the modes. The device that enters a mode
shows it in CUE_STATUS.MODE, whatever its blocks do as their domains switch. The safe state enters Intermission once ports, chain,
panel and rails are ready (R499, R560). -/
def Obligations.ModesAreRequestedAndEntered : Prop :=
  (∀ (s : State) (m : Mode) (u : State), requestCheck (modeCode m) s = none → entryChecks (modeCode m) s = (none, u) →
    wingsLocked u = false →
    exec (.modeRequest m) s = .next (beginTransition (transitionTo u (modeCode m) false) u)) ∧
  (∀ (s : State) (t : Transition), (beginTransition t s).power.xfer = some t ∧
    (domainLeaves s t 27 = false → t.draining = false → (beginTransition t s).flag CUE_STATUS.XFER = true)) ∧
  (∀ (s : State) (m : Mode), s.power.xfer.isSome = true →
    exec (.modeRequest m) s = .next (refuseMode (modeCode m) 1 s)) ∧
  (∀ (s : State) (m : Mode), s.power.xfer = none → s.call.safePending = false → modeAllowed s.mode (modeCode m) = false →
    exec (.modeRequest m) s = .next (refuseMode (modeCode m) 0 s)) ∧
  (∀ (s : State) (m : Mode), s.power.xfer = none → s.call.safePending = false → modeAllowed s.mode (modeCode m) = true →
    modeCueOk s (modeCode m) = false → exec (.modeRequest m) s = .next (refuseMode (modeCode m) 6 s)) ∧
  (∀ (s : State) (x : Transition), s.power.xfer = some x → x.draining = true → portsClosed s = true →
    s.ledger.placements = [] → allFinal s = true →
    ∃ t, exec .drainEnd s = .next t ∧ t.power.xfer = some { x with draining := false } ∧ t.ledger.ranges = []) ∧
  (∀ (s : State) (x : Transition), s.power.xfer = some x → x.src < 8 → x.dst < 8 → transitionReady x (linkFirst x s) = true →
    ∃ t, exec .transitionComplete s = .next t ∧ t.power.xfer = none ∧ t.flag CUE_STATUS.XFER = false ∧
      t.flag POWER_STATUS.XFER = false ∧ t.fld POWER_XFER.FROM = x.src ∧ t.fld POWER_XFER.TO = x.dst ∧
      t.flag POWER_EVENT.XFER_DONE = true) ∧
  (∀ (s : State) (m mask : Nat) (held : Bool), m < 8 → (enterMode m mask held s).mode = m) ∧
  (∀ (s : State) (x : Transition), s.power.xfer = some x → x.dst < 8 → transitionReady x (linkFirst x s) = true →
    ∃ t, exec .transitionComplete s = .next t ∧ t.mode = x.dst) ∧
  (∀ (s : State), s.call.safePending = true → portsClosed s = true →
    chainSafe (safeLinked s) = true → viewSafe s = true →
    (railsReady (wantedDomains 6 (safeMask s) (s.flag CUE_STATUS.PORTS_HELD)) s).1 = true →
    ∃ t, exec .safeStatePortsClosed s = .next t ∧ t.mode = 6 ∧ t.fld POWER_XFER.FROM = s.mode ∧ t.fld POWER_XFER.TO = 6 ∧
      t.flag POWER_EVENT.XFER_DONE = true) ∧
  (∀ (s : State), s.call.safePending = true → portsClosed s = true → viewSafe s = false → s.call.viewGoes = false →
    panelState s = 2 → s.view.push = none →
    ∃ t, exec .safeStatePortsClosed s = .next t ∧ t.mode = s.mode ∧ panelState t = 3 ∧ t.view.step = .sleepIn ∧
      t.view.sent = [(0x05, [0x10])] ∧ t.call.viewGoes = true ∧ t.call.safePending = true)

/-- R53, R437, R448, R213: an alarm that is due is disarmed; a wake frame that names the device and gives a time arms the alarm with it;
one that gives none, and an edge on a TRIG pin with WAKE set, start the exit from Midnight. -/
def Obligations.WakesLeaveMidnight : Prop :=
  (∀ (s : State), s.flag TIME_ALARM_SEC_HI.EN = true → alarmNs s ≤ s.nowNs → s.mode ≠ 7 →
    ∃ t, exec .alarmFire s = .next t ∧ t.flag TIME_ALARM_SEC_HI.EN = false ∧ t.flag TIME_KA_STATUS.FRAME_ALARM = false ∧
      (t.fld TIME_EVENT.EVENT).testBit 5 = true ∧
      OnlyRegs { s with call := { s.call with coIrqs := s.call.coIrqs + 1, smIrqs := s.call.smIrqs + 1 } } t
        [TIME_ALARM_SEC_HI.EN.addr, TIME_KA_STATUS.FRAME_ALARM.addr, TIME_EVENT.EVENT.addr]) ∧
  (∀ (s : State) (b : List Byte), s.mode = 7 → netUp s 0 = true → s.flag TIME_KA_CTRL.WAKE_EN = true → 33 ≤ b.length →
    b.take 4 = [0x45, 0x57, 0x41, 0x4B] → wakeNames s b = true → leAt b 22 1 = 6 → leAt b 23 6 ≠ 0 →
    ∃ t, exec (.wakeFrame b) s = .next t ∧ t.flag TIME_ALARM_SEC_HI.EN = true ∧ t.flag TIME_KA_STATUS.FRAME_ALARM = true ∧
      t.flag TIME_KA_STATUS.FRAME_MODE = true ∧ t.fld TIME_ALARM_NS.VALUE = leAt b 29 4 % 2 ^ TIME_ALARM_NS.VALUE.width ∧
      t.mode = 7) ∧
  (∀ (s : State) (b : List Byte), s.mode = 7 → netUp s 0 = true → s.power.xfer = none → s.flag TIME_KA_CTRL.WAKE_EN = true → 33 ≤ b.length →
    b.take 4 = [0x45, 0x57, 0x41, 0x4B] → wakeNames s b = true → leAt b 22 1 = 6 → leAt b 23 6 = 0 → leAt b 29 4 = 0 →
    ∃ t, exec (.wakeFrame b) s = .next t ∧ ∃ x, t.power.xfer = some x ∧ x.src = 7 ∧ x.dst = 6) ∧
  (∀ (s : State) (pin : Fin 8), s.mode = 7 → s.power.xfer = none → (s.tab 0x10 0 (16 * pin.val) 1).testBit 5 = true →
    s.flag TIME_KA_CTRL.WAKE_MODE = true →
    ∃ t, exec (.trigWakeEdge pin) s = .next t ∧ ∃ x, t.power.xfer = some x ∧ x.src = 7 ∧ x.dst = 6)

/-! ### Dawn, resets, trust, presence and the NVM -/

/-- R14, R78, R80, R535, R536, R570, R576, R577: Dawn ends with the cores released, their watchdog periods begun and the firmware
protected, once the rails of Dawn are up, or with no image in Dark, held, with both cores in reset as they were. Cold reset gives every register its Reset value but for
the management address, which follows MADDR, and keeps OTP and NVM; its release starts REFCLK operation; WARM_RST_N low holds
the device in Dark; the ways out of Dark lead to Dawn with the retention stores kept. -/
def Obligations.ResetsAndDawn : Prop :=
  (∀ (s : State), s.mode = 1 → s.power.dark = .none → s.trust.image = none → s.power.nvmLock = false →
      ∃ t, exec .dawn s = .next t ∧
        ((t.call.companyHeld = false ∧ t.call.smHeld = false ∧ t.sys.fwGuard = true ∧ t.call.coKick = t.ticks ∧
            t.call.smKick = t.ticks) ∨
          (t.mode = 1 ∧ t.trust.image.isSome = true ∧ t.power.rise.isSome = true) ∨
          (t.mode = 0 ∧ t.power.dark = .bootFail ∧ t.call.companyHeld = true ∧ t.cue.commit = .idle))) ∧
  (∀ (s : State), s.mode = 1 → s.power.dark = .none → s.trust.image.isSome = true → s.call.smHeld = true →
    (railsReady (modeDomains 1 0) s).1 = true →
    ∃ t, exec .dawn s = .next t ∧ t.call.companyHeld = false ∧ t.call.smHeld = false ∧ t.sys.fwGuard = true) ∧
  (∀ (s : State), s.mode = 1 → s.power.dark = .none → s.trust.image = none → s.power.nvmLock = true →
    exec .dawn s = .next s) ∧
  (∀ (s : State) (x : RailRec), s.mode = 1 → s.power.dark = .none → s.trust.image.isSome = true → s.call.smHeld = true →
    railsToRaise (modeDomains 1 0) s = [x] → x.rail < 8 →
    ∃ t, exec .dawn s = .next t ∧ t.call = s.call ∧ t.mode = 1 ∧ (t.fld POWER_RAIL.EN).testBit x.rail = true ∧
      t.power.rise.isSome = true) ∧
  (∀ (s : State) (m : BitVec 3), s.power.aonValid = false →
    ∃ t, exec (.aonSupplyValid m) s = .next t ∧ t.fld MGMT_CFG.ADDR = 0x58 + m.toNat ∧
      (∀ a, a ≠ MGMT_CFG.ADDR.addr → a ≠ POWER_RAIL.EN.addr → t.word a = State.reset.word a) ∧
      (t.fld POWER_RAIL.EN).testBit 0 = true ∧ t.trust.otp = s.trust.otp ∧ t.nvm = s.nvm ∧ t.scratch = []) ∧
  (∀ (s : State), ∃ t, exec .aonSupplyLost s = .next t ∧ t.regs = State.reset.regs ∧ t.power.aonValid = false ∧
      t.power.dark = .unpowered ∧ t.trust.otp = s.trust.otp ∧ t.nvm = s.nvm) ∧
  (∀ (s : State), s.power.dark = .coldReset → s.flag THERM_STATUS.CURTAIN = false → s.power.warmPin = false →
    ∃ t, exec .resetRelease s = .next t ∧ t.power.dark = .none ∧ t.flag CLOCK_STATUS.REFCLK_OK = true ∧
      t.flag CLOCK_STATUS.RC_ACTIVE = false ∧ (t.fld POWER_RAIL.EN).testBit 0 = true ∧
      (t.fld POWER_RAIL.PG).testBit 0 = true ∧
      RegsBut s t [POWER_RAIL.EN.addr, CLOCK_STATUS.REFCLK_OK.addr, TIME_STATUS.RC_CLK.addr] ∧ SameMemory s t) ∧
  (∀ (s : State), s.power.aonValid = true → s.power.dark = .none →
    ∃ t, exec .warmRstAssert s = .next t ∧ t.mode = 0 ∧ t.power.dark = .warmPin ∧ t.power.warmPin = true ∧
      t.call.companyHeld = true ∧ t.nvm = s.nvm ∧ t.trust.otp = s.trust.otp) ∧
  (∀ (s : State), canRestart { s with power := { s.power with warmPin := false } } = true →
    ∃ t, exec .warmRstRelease s = .next t ∧ t.power.dark = .none ∧ t.power.warmPin = false ∧ t.nvm = s.nvm ∧
      t.smSram = s.smSram ∧ t.call.log = s.call.log ∧ t.call.queue = [] ∧ t.scratch = [] ∧ t.trust.image = none) ∧
  (∀ (s : State), s.power.dark = .none → s.flag THERM_STATUS.CURTAIN = false → s.flag CLOCK_STATUS.REFCLK_OK = true →
    s.power.supplyLow = false → s.power.warmPin = false → s.power.pllWait = none → s.flag KLINK_STATUS.PRIN = false →
    (s.fld POWER_RAIL.PG).testBit 0 = true →
    ∃ t, exec .warmResetCommand s = .next t ∧ t.power.dark = .none ∧ t.nvm = s.nvm ∧ t.smSram = s.smSram ∧
      t.trust.otp = s.trust.otp ∧ t.call.log = s.call.log ∧ t.scratch = [] ∧ t.dram = [] ∧ t.trust.image = none)

/-- R79, R88 to R90, R93, R100, R103: lifecycle actions with privilege and with journal pages left. Provisioning enrols the
digest of the key that stands at TRUST_SIGN_ADDR and draws the seed; each action gives LIFECYCLE its value; retirement sets
every bit of the seed. Without privilege each is refused: DENIED and the warning of kind 7 that names it. CONFIRM programs its
record into both copies of the next erased page, and SEQ counts; ADVANCE, only after CONFIRM, raises the rollback floor to the
running slot's ROLLBACK and never lowers it. -/
def Obligations.LifecycleConfirmAndAdvance : Prop :=
  (∀ (s : State) (a : Nat), privilege s = true → s.trust.jrnlSpent = false → s.fld NVMC_JRNL_SEQ.DATA + 2 < 2 ^ 32 →
    s.trust.otp.lifecycle = 0 → s.trust.service = false → makerKeyAt s = some a →
    ∃ t, exec (.provision true) s = .next t ∧ t.trust.otp.makerDigests = [sha3_512 (s.scratchBytes a 2592)] ∧
      t.trust.otp.idSeed = Config.drbgSeed s.free ∧ t.trust.otp.lifecycle = 1 ∧ t.fld TRUST_STATUS.LIFECYCLE = 1) ∧
  (∀ (s : State) (a i : Nat), privilege s = true → s.trust.jrnlSpent = false → s.trust.otp.lifecycle ≠ 0 →
    s.trust.otp.lifecycle ≠ 8 → makerKeyAt s = some a → activeMaker s.trust.otp = some i →
    s.trust.otp.makerDigests.length < 4 →
    ∃ t, exec (.provision true) s = .next t ∧
      t.trust.otp = { s.trust.otp with makerDigests := s.trust.otp.makerDigests ++ [sha3_512 (s.scratchBytes a 2592)],
                                       makerRevoke := s.trust.otp.makerRevoke ||| 2 ^ i }) ∧
  (∀ (s : State), privilege s = true → s.trust.jrnlSpent = false → s.fld NVMC_JRNL_SEQ.DATA + 2 < 2 ^ 32 →
    s.trust.otp.lifecycle = 1 → s.trust.service = false →
    (∃ t, exec .toField s = .next t ∧ t.trust.otp = { s.trust.otp with lifecycle := 2 } ∧
      t.fld TRUST_STATUS.LIFECYCLE = 2 ∧ t.trust.service = false) ∧
    (∃ t, exec .enterService s = .next t ∧ t.trust.service = true ∧ t.trust.otp = s.trust.otp ∧
      t.fld TRUST_STATUS.LIFECYCLE = 3) ∧
    (∃ t, exec .retire s = .next t ∧
      t.trust.otp = { s.trust.otp with lifecycle := 8, idSeed := List.replicate 32 0xFF } ∧
      t.fld TRUST_STATUS.LIFECYCLE = 4)) ∧
  (∀ (s : State), privilege s = true → s.trust.jrnlSpent = false → s.fld NVMC_JRNL_SEQ.DATA + 2 < 2 ^ 32 →
    s.trust.otp.lifecycle = 2 → s.trust.service = true →
    ∃ t, exec .leaveService s = .next t ∧ t.trust.service = false ∧ t.trust.otp = s.trust.otp ∧
      t.fld TRUST_STATUS.LIFECYCLE = 2) ∧
  (∀ (s : State) (c : Instr) (n : Nat), privilege s = false →
    (c, n) ∈ [(Instr.provision true, 1), (.provision false, 1), (.toField, 2), (.enterService, 3), (.leaveService, 4),
      (.retire, 5)] →
    exec c s = .next (privRefused 2 n ((busOk 0 s).setFlag TRUST_PRIV_REQ.DENIED true))) ∧
  (∀ (s : State) (im : RunningImage) (p : Nat), s.trust.image = some im → s.trust.confirmed = false →
    s.trust.jrnlSpent = false → nvmBlocked s = false → nextPage s = some p →
    ∃ t, exec .confirm s = .next t ∧ t.trust.confirmed = true ∧
      (∀ copy < 2, t.nvmBytes (journalBase copy + 256 * p) 256 =
        recordBytes 2 (s.fld NVMC_JRNL_SEQ.DATA) s.time (leBytes 1 (s.fld TRUST_STATUS.SLOT) ++ [0, 0, 0] ++
          leBytes 4 im.fwVersion ++ leBytes 4 im.cfgVersion)) ∧
      (∀ a, a < 0x3000000 ∨ 0x3400000 ≤ a → readAt 0xFF t.nvm a = readAt 0xFF s.nvm a) ∧
      t.fld NVMC_JRNL_SEQ.DATA = (s.fld NVMC_JRNL_SEQ.DATA + 1) % 2 ^ 32 ∧ RegsBut s t [NVMC_JRNL_SEQ.DATA.addr]) ∧
  (∀ (s : State), s.trust.confirmed = true →
    ∃ t, exec .advance s = .next t ∧
      t.trust = { s.trust with otp := { s.trust.otp with
        rollbackSteps := max s.trust.otp.rollbackSteps (s.fld TRUST_STATUS.RUN_ROLLBACK) } } ∧
      SameMemory s t ∧ t.call = s.call) ∧
  (∀ (s : State), s.trust.confirmed = false →
    exec .advance s = .next (postRefused 2 TRUST_CTRL.ADVANCE.addr (busOk 0 s)))

/-- R29, R92, R94, R96 to R99, R298, R300: a signing request that is not blocked and whose buffer lies in scratch SRAM makes the
engine BUSY with the bytes to sign; a blocked one sets REFUSED, as a manifest in Blank does. When the engine finishes, the
fields and their signature stand in the buffer, and a manifest is counted. During a Company restart nothing is signed. An
accepted press opens the window while the seal is intact, release lets the next press count, 30 s after the last press the
window closes; the strap levels show; a sample of the seal that answers the driven bit keeps it, the third miss in a row breaks
it: a step of OTP, OPENED, the count, no window. -/
def Obligations.SigningPresenceAndSeal : Prop :=
  (∀ (s : State) (a : Nat), signBlocked s = false → signBuffer s 7699 = some a →
    ∃ t, exec .attest s = .next t ∧ t.flag TRUST_SIGN_CTRL.BUSY = true ∧
      (∃ j, t.trust.sign = some j ∧ j.domain = 0 ∧ j.addr = a ∧
        j.latch = attestFields s (s.scratchBytes (a + 0x20) 32) (s.scratchBytes (a + 0x1A0) 64)) ∧
      OnlyRegs { s with trust := t.trust } t [TRUST_SIGN_CTRL.BUSY.addr]) ∧
  (∀ (s : State) (a : Nat) (l : SecondLatch), s.call.restart = none → signBlocked s = false → lifecycleCode s ≠ 0 →
    signBuffer s 5120 = some a →
    s.hash.latch = some l →
    ∃ t, exec .checkpoint s = .next t ∧ t.flag TRUST_SIGN_CTRL.BUSY = true ∧
      (∃ j, t.trust.sign = some j ∧ j.domain = 1 ∧ j.addr = a ∧
        j.latch = manifestFields s 1 l (s.scratchBytes (a + 0x20) 16) (s.scratchBytes (a + 0x180) 64)) ∧
      OnlyRegs { s with trust := t.trust } t [TRUST_SIGN_CTRL.BUSY.addr]) ∧
  (∀ (s : State) (a : Nat), s.call.restart = none → signBlocked s = false → lifecycleCode s ≠ 0 → signBuffer s 5120 = some a →
    ∃ t, exec .finalManifest s = .next t ∧ t.flag TRUST_SIGN_CTRL.BUSY = true ∧
      (∃ j, t.trust.sign = some j ∧ j.domain = 2 ∧ j.addr = a ∧
        j.latch = manifestFields s 2 (latchNow s) (s.scratchBytes (a + 0x20) 16) (s.scratchBytes (a + 0x180) 64)) ∧
      OnlyRegs { s with trust := t.trust } t [TRUST_SIGN_CTRL.BUSY.addr]) ∧
  (∀ (s : State), signBlocked s = true → ∀ c ∈ [Instr.attest, .checkpoint, .finalManifest],
    c = .attest ∨ (lifecycleCode s ≠ 0 ∧ s.call.restart = none) →
    ∃ t, exec c s = .next t ∧ t.flag TRUST_SIGN_CTRL.REFUSED = true ∧ OnlyRegs s t [TRUST_SIGN_CTRL.REFUSED.addr]) ∧
  (∀ (s : State), s.call.restart.isSome = true → ∀ c ∈ [Instr.checkpoint, .finalManifest], exec c s = .next s) ∧
  (∀ (s : State) (j : SignJob), s.trust.sign = some j →
    ∃ t, exec .signDone s = .next t ∧ t.trust.sign = none ∧ t.flag TRUST_SIGN_CTRL.BUSY = false ∧
      t.flag TRUST_SIGN_CTRL.DONE = true ∧ t.scratch = (s.writeScratch j.addr (signedBytes s (signPrefix j.domain) j.latch)).scratch ∧
      t.hash.signSeq = s.hash.signSeq + (if j.domain = 0 then 0 else 1) ∧ RegsBut s t [TRUST_SIGN_CTRL.BUSY.addr]) ∧
  (∀ (s : State), s.trust.pressed = false → s.flag THERM_STATUS.HELD = false →
    ∃ t, exec .presencePress s = .next t ∧ t.flag TRUST_PRESENCE.PRESS = true ∧
      t.trust = { s.trust with pressed := true,
                               windowFrom := if s.flag TRUST_PRESENCE.SEAL_OK then some s.ticks else s.trust.windowFrom } ∧
      OnlyRegs { s with trust := t.trust } t [TRUST_PRESENCE.PRESS.addr]) ∧
  (∀ (s : State), exec .presenceRelease s = .next { s with trust := { s.trust with pressed := false } }) ∧
  (∀ (s : State), exec .presenceWindowExpire s =
    .next (if windowOpen s then s else { s with trust := { s.trust with windowFrom := none } })) ∧
  (∀ (s : State), (∃ t, exec .svcJmpFitted s = .next t ∧ t.flag TRUST_PRESENCE.JMP = true ∧
      OnlyRegs s t [TRUST_PRESENCE.JMP.addr]) ∧
    (∃ t, exec .svcJmpRemoved s = .next t ∧ t.flag TRUST_PRESENCE.JMP = false ∧ OnlyRegs s t [TRUST_PRESENCE.JMP.addr])) ∧
  (∀ (s : State) (b : Bool), b = (lfsrStep s.trust.lfsr).getLsbD 0 → s.trust.missHigh = 0 → s.trust.missLow = 0 →
    ∃ t, exec (.sealSample b) s = .next t ∧ t.flag TRUST_PRESENCE.SEAL_OK = true ∧
      t.trust = { s.trust with lfsr := lfsrStep s.trust.lfsr, driven := b } ∧
      OnlyRegs { s with trust := t.trust } t [TRUST_PRESENCE.SEAL_OK.addr]) ∧
  (∀ (s : State) (b : Bool), b ≠ (lfsrStep s.trust.lfsr).getLsbD 0 →
    (if b then s.trust.missLow else s.trust.missHigh) = 2 → s.flag TRUST_PRESENCE.SEAL_OK = true → s.trust.jrnlSpent = false →
    0 < s.fld NVMC_JRNL_SEQ.DATA →
    ∃ t, exec (.sealSample b) s = .next t ∧ t.flag TRUST_PRESENCE.SEAL_OK = false ∧ t.flag TRUST_STATUS.OPENED = true ∧
      t.fld TRUST_SEAL_COUNT.BREAKS = min (2 ^ 32 - 1) (s.fld TRUST_SEAL_COUNT.BREAKS + 1) ∧
      t.trust.otp = { s.trust.otp with sealSteps := min 16 (s.trust.otp.sealSteps + 1) } ∧ t.trust.windowFrom = none) ∧
  (∀ (s : State), s.call.restart = none → lifecycleCode s = 0 → ∀ c ∈ [Instr.checkpoint, .finalManifest],
    ∃ t, exec c s = .next t ∧ t.flag TRUST_SIGN_CTRL.REFUSED = true ∧ t.trust = s.trust ∧ SameMemory s t)

/-- R101 to R105, R548: an operation that the NVM controller accepts makes it BUSY and stands there until it ends; one that it
refuses sets REFUSED and posts the warning. An append stands in both copies and counts SEQ; a program stores the page; an erase
leaves 0xFF in its sector; a read fills the buffer; an append cut in copy 0 counts as failed and stores nothing outside its
page, cut in copy 1 it stands in copy 0; before 5 ms nothing is cut. A record made between a reset and Dawn has the SEQ that
follows the newest record's. PWR_PG0 restored frees the controller and a device that waits for it in Dark. -/
def Obligations.NvmOperationsStartAndEnd : Prop :=
  (∀ (s : State) (p : Nat), nvmBlocked s = false → leAt (nvmBuffer s) 3 1 ≤ 228 → s.trust.jrnlSpent = false →
    nextPage s = some p →
    ∃ t, exec .journalAppend s = .next t ∧ t.trust.nvmOp = some (.append p (nvmBuffer s), s.ticks) ∧
      t.flag NVMC_STATUS.BUSY = true ∧
      OnlyRegs { s with trust := t.trust } t [NVMC_STATUS.BUSY.addr]) ∧
  (∀ (s : State) (r : RewriteSession), s.trust.session = some r → nvmBlocked s = false → s.mode = 6 →
    s.fld NVMC_ADDR.ADDR % 256 = 0 → slotBase r.slot ≤ s.fld NVMC_ADDR.ADDR →
    s.fld NVMC_ADDR.ADDR < slotBase r.slot + 0x1800000 → sessionErased r = true →
    pageErased s (s.fld NVMC_ADDR.ADDR) = true → (r.header = true → s.fld NVMC_ADDR.ADDR < slotBase r.slot + 0x1000) →
    ∃ t, exec .slotProgram s = .next t ∧ t.trust.nvmOp = some (.program (s.fld NVMC_ADDR.ADDR) (nvmBuffer s), s.ticks) ∧
      t.flag NVMC_STATUS.BUSY = true ∧
      OnlyRegs { s with trust := t.trust } t [NVMC_STATUS.BUSY.addr]) ∧
  (∀ (s : State), nvmBlocked s = false → s.fld NVMC_ADDR.ADDR % 4096 = 0 → s.mode = 6 ∨ s.mode = 1 →
    journalSectorOk s (s.fld NVMC_ADDR.ADDR) = true →
    ∃ t, exec .sectorErase s = .next t ∧ t.trust.nvmOp = some (.erase (s.fld NVMC_ADDR.ADDR), s.ticks) ∧
      t.flag NVMC_STATUS.BUSY = true ∧
      OnlyRegs { s with trust := t.trust } t [NVMC_STATUS.BUSY.addr]) ∧
  (∀ (s : State), nvmBlocked s = false →
    ∃ t, exec .nvmRead s = .next t ∧ t.trust.nvmOp = some (.read (s.fld NVMC_ADDR.ADDR), s.ticks) ∧
      t.flag NVMC_STATUS.BUSY = true ∧
      OnlyRegs { s with trust := t.trust } t [NVMC_STATUS.BUSY.addr]) ∧
  (∀ (s : State) (slot : Fin 2), privilege s = true → s.mode = 6 → s.fld TRUST_STATUS.SLOT ≠ slot.val →
    s.trust.session = none → s.power.nvmLock = false →
    ∃ t, exec (.slotRewriteStart slot) s = .next t ∧ t.flag NVMC_STATUS.SESSION = true ∧
      t.trust = { s.trust with session := some { slot := slot.val, erased := [], programmed := false, header := false } } ∧
      OnlyRegs { s with trust := t.trust } t [NVMC_STATUS.SESSION.addr]) ∧
  (∀ (s : State), nvmBlocked s = true → ∀ c ∈ [Instr.journalAppend, .slotProgram, .sectorErase, .nvmRead],
    ∃ t, exec c s = .next t ∧ t.flag NVMC_STATUS.REFUSED = true ∧ t.trust = s.trust ∧ SameMemory s t) ∧
  (∀ (s : State), s.power.nvmLock = true → s.trust.held = [] →
    canRestart (setPower { s.power with nvmLock := false } (s.orBit POWER_RAIL.PG 0)) = true →
    ∃ t, exec .rail0PgRestored s = .next t ∧ t.power.dark = .none ∧ t.power.nvmLock = false ∧ t.trust.image = none) ∧
  (∀ (s : State), s.power.nvmLock = true → s.trust.held = [] → s.power.restart = false →
    ∃ t, exec .rail0PgRestored s = .next t ∧ (t.fld POWER_RAIL.PG).testBit 0 = true ∧
      t.power = { s.power with nvmLock := false } ∧ OnlyRegs { s with power := t.power } t [POWER_RAIL.PG.addr]) ∧
  (∀ (s : State) (p k : Nat) (data : List Byte), s.trust.nvmOp = some (.append p data, k) → s.trust.held = [] → p < 8192 →
    data.length = 256 →
    ∃ t, exec .nvmOpComplete s = .next t ∧ t.flag NVMC_STATUS.BUSY = false ∧ t.trust.nvmOp = none ∧
      t.nvmBytes (journalBase 0 + 256 * p) 256 = data ∧ t.nvmBytes (journalBase 1 + 256 * p) 256 = data ∧
      t.fld NVMC_JRNL_SEQ.DATA = (s.fld NVMC_JRNL_SEQ.DATA + 1) % 2 ^ 32 ∧
      RegsBut s t [NVMC_STATUS.BUSY.addr, NVMC_JRNL_SEQ.DATA.addr]) ∧
  (∀ (s : State) (a k : Nat) (data : List Byte), s.trust.nvmOp = some (.program a data, k) → s.trust.session = none →
    s.trust.held = [] →
    ∃ t, exec .nvmOpComplete s = .next t ∧ t.flag NVMC_STATUS.BUSY = false ∧ t.trust.nvmOp = none ∧
      t.nvmBytes a data.length = data ∧
      (∀ x, x < a ∨ a + data.length ≤ x → readAt 0xFF t.nvm x = readAt 0xFF s.nvm x) ∧
      RegsBut s t [NVMC_STATUS.BUSY.addr]) ∧
  (∀ (s : State) (a k : Nat), s.trust.nvmOp = some (.erase a, k) → s.trust.held = [] →
    ∃ t, exec .nvmOpComplete s = .next t ∧ t.flag NVMC_STATUS.BUSY = false ∧
      (∀ x, readAt 0xFF t.nvm x = if a ≤ x ∧ x < a + 4096 then 0xFF else readAt 0xFF s.nvm x) ∧
      RegsBut s t [NVMC_STATUS.BUSY.addr]) ∧
  (∀ (s : State) (a k : Nat), s.trust.nvmOp = some (.read a, k) → s.trust.held = [] →
    ∃ t, exec .nvmOpComplete s = .next t ∧ t.flag NVMC_STATUS.BUSY = false ∧ nvmBuffer t = s.nvmBytes a 256 ∧
      SameMemory s t) ∧
  (∀ (s : State) (p k : Nat) (data : List Byte), s.trust.nvmOp = some (.append p data, k) → s.trust.held = [] → p < 8192 →
    data.length = 256 → s.elapsedNs k 5000000 = true →
    ∀ c ∈ [Instr.nvmProgramTimeout false, .curtainNvmCutoff false],
    ∃ t, exec c s = .next t ∧ t.flag NVMC_STATUS.BUSY = false ∧ t.trust.nvmOp = none ∧
      t.fld NVMC_STATUS.FAILED = min 65535 (s.fld NVMC_STATUS.FAILED + 1) ∧
      (∀ x, x < journalBase 0 + 256 * p ∨ journalBase 0 + 256 * p + 256 ≤ x → readAt 0xFF t.nvm x = readAt 0xFF s.nvm x) ∧
      RegsBut s t [NVMC_STATUS.BUSY.addr]) ∧
  (∀ (s : State) (p k : Nat) (data : List Byte), s.trust.nvmOp = some (.append p data, k) → s.trust.held = [] → p < 8192 →
    data.length = 256 → s.elapsedNs k 5000000 = true →
    ∀ c ∈ [Instr.nvmProgramTimeout true, .curtainNvmCutoff true],
    ∃ t, exec c s = .next t ∧ t.flag NVMC_STATUS.BUSY = false ∧ t.trust.nvmOp = none ∧
      t.fld NVMC_STATUS.FAILED = min 65535 (s.fld NVMC_STATUS.FAILED + 1) ∧
      t.nvmBytes (journalBase 0 + 256 * p) 256 = data ∧
      t.fld NVMC_JRNL_SEQ.DATA = (s.fld NVMC_JRNL_SEQ.DATA + 1) % 2 ^ 32) ∧
  (∀ (s : State) (op : NvmOp) (k : Nat) (copy1 : Bool), s.trust.nvmOp = some (op, k) → s.elapsedNs k 5000000 = false →
    exec (.nvmProgramTimeout copy1) s = .next s ∧ exec (.curtainNvmCutoff copy1) s = .next s) ∧
  (∀ (s : State) (p : Nat) (payload : List Byte), s.fld NVMC_JRNL_SEQ.DATA = 0 → nvmBlocked s = false →
    (findPosition s).trust.jrnlSpent = false → (nextPage s).isSome = true → nextPage (findPosition s) = some p →
    payload.length ≤ 228 →
    ((∀ copy < 2, (recordOrHold 4 payload s).nvmBytes (journalBase copy + 256 * p) 256 =
      recordBytes 4 ((findPosition s).fld NVMC_JRNL_SEQ.DATA) s.time payload) ∧
    (∀ q k, newestWith (fun _ => true) s = some (q, k) →
      (findPosition s).fld NVMC_JRNL_SEQ.DATA = (q + 1) % 2 ^ 32)))

/-! ### Power, clocks and heat -/

/-- R534, R535, R537, R538, R540, R542, R543, R578: a rail that does not come up abandons the transition once its blocks are quiet, ends
Dawn in Dark, leaves the device as it was, or takes the sensor ports that a cue point released off again; the loss of rail 0 locks
the NVM controller; the loss of a rail that domains follow takes them off, and drops the rail; a rail that none follows, and a main
supply, take the device to Dark, from where it restarts when nothing keeps it. Windows of REFCLK count good and bad runs; the
second bad window in a row takes the device to Dark on the RC oscillator, the 782nd good one brings REFCLK back. A PLL that
loses lock is counted; a relock frees it with a recoverable event; no relock is treated as REFCLK loss and waits 1 ms, or holds
the device after a second one in 60 s. -/
def Obligations.RailsClocksAndPlls : Prop :=
  (∀ (s : State) (rail : Fin 8) (x : RailRec) (tr : Transition), railRec s rail.val = some x → x.pgUsed = true →
    s.power.rise = none → s.power.xfer = some tr → (railsToRaise (newDomains s tr) s).contains x = true →
    railOverdue s (railsToRaise (newDomains s tr) s) x (offTime (newDomains s tr) s) tr.start = true →
    transitionQuiet tr (linkFirst tr s) = true →
    ∃ t, exec (.railPgTimeout rail) s = .next t ∧ t.power.xfer = none ∧ t.flag POWER_EVENT.RAIL_TIMEOUT = true) ∧
  (∀ (s : State) (rail : Fin 8) (x : RailRec) (tr : Transition), railRec s rail.val = some x → s.power.rise = none →
    s.power.xfer = some tr → transitionQuiet tr (linkFirst tr s) = false →
    exec (.railPgTimeout rail) s = .next s) ∧
  (∀ (s : State) (rail : Fin 8) (x : RailRec) (q : RailRise), railRec s rail.val = some x → x.pgUsed = true →
    s.power.rise = some q → riseOverdue x q s = true → s.mode = 1 →
    ∃ t, exec (.railPgTimeout rail) s = .next t ∧ t.mode = 0 ∧ t.power.dark = .railTimeout ∧ t.call.companyHeld = true) ∧
  (∀ (s : State) (rail : Fin 8) (x : RailRec) (q : RailRise), railRec s rail.val = some x → x.pgUsed = true →
    s.power.rise = some q → riseOverdue x q s = true → s.mode ≠ 1 → q.ports = false → s.call.fatals = [] →
    ∃ t, exec (.railPgTimeout rail) s = .next t ∧ t.mode = s.mode ∧ t.power = { s.power with rise := none } ∧
      t.fld POWER_RAIL.EN = q.old % 256 ∧ (t.fld POWER_RAIL.FAIL).testBit rail.val = true ∧
      t.flag POWER_EVENT.RAIL_TIMEOUT = true) ∧
  (∀ (s : State) (rail : Fin 8) (x : RailRec) (q : RailRise) (p : Fin 4), railRec s rail.val = some x → x.pgUsed = true →
    s.power.rise = some q → riseOverdue x q s = true → s.mode ≠ 1 → q.ports = true →
    ∃ t, exec (.railPgTimeout rail) s = .next t ∧ t.flag CUE_STATUS.PORTS_HELD = true ∧ t.domainOn (6 + p.val) = false ∧
      t.power.rise = none) ∧
  (∀ (s : State), (s.fld POWER_RAIL.EN).testBit 0 = true → s.call.fatals = [] →
    ∃ t, exec (.railLost 0) s = .next t ∧ t.power = { s.power with nvmLock := true } ∧
      (t.fld POWER_RAIL.FAIL).testBit 0 = true ∧ (t.fld POWER_RAIL.PG).testBit 0 = false ∧ t.mode = s.mode ∧ SameMemory s t) ∧
  (∀ (s : State) (rail : Fin 8) (x : RailRec) (d : Nat), (s.fld POWER_RAIL.EN).testBit rail.val = true → rail.val ≠ 0 →
    railRec s rail.val = some x → x.follow.testBit d = true → 1 ≤ d → d ≤ 29 → s.call.fatals = [] →
    ∃ t, exec (.railLost rail) s = .next t ∧ t.domainOn d = false ∧ (t.fld POWER_RAIL.FAIL).testBit rail.val = true) ∧
  (∀ (s : State) (rail : Fin 8) (x : RailRec), (s.fld POWER_RAIL.EN).testBit rail.val = true → rail.val ≠ 0 →
    s.power.rails = [x] → x.rail = rail.val → x.follow ≠ 0 → x.follow.testBit 0 = false → x.follow < 2 ^ 30 →
    s.call.fatals = [] →
    ∃ t, exec (.railLost rail) s = .next t ∧ t.fld POWER_RAIL.EN = s.fld POWER_RAIL.EN % 2) ∧
  (∀ (s : State) (rail : Fin 8), (s.fld POWER_RAIL.EN).testBit rail.val = true → rail.val ≠ 0 →
    railRec s rail.val = none → s.power.dark = .none → s.flag THERM_STATUS.CURTAIN = false →
    (s.fld POWER_RAIL.PG).testBit 0 = true →
    s.flag CLOCK_STATUS.REFCLK_OK = true → s.power.supplyLow = false → s.power.warmPin = false → s.power.pllWait = none →
    ∃ t, exec (.railLost rail) s = .next t ∧ t.power.dark = .none ∧ t.dram = [] ∧ t.scratch = [] ∧ t.trust.image = none) ∧
  (∀ (s : State) (supply : Supply), s.power.dark = .none →
    ∃ t, exec (.supplyLoss supply) s = .next t ∧ t.power.dark = .supply ∧ t.power.supplyLow = true ∧ t.mode = 0 ∧
      t.call.companyHeld = true ∧ t.dram = []) ∧
  (∀ (s : State), canRestart { s with power := { s.power with supplyLow := false } } = false →
    exec .supplyRestored s = .next { s with power := { s.power with supplyLow := false } }) ∧
  (∀ (s : State), canRestart { s with power := { s.power with supplyLow := false } } = true →
    ∃ t, exec .supplyRestored s = .next t ∧ t.power.dark = .none ∧ t.power.supplyLow = false ∧ t.trust.image = none) ∧
  (∀ (s : State) (n : Nat), s.power.aonValid = true → 120 ≤ n → n ≤ 136 → s.flag CLOCK_STATUS.REFCLK_OK = true →
    ∃ t, exec (.refclkWindow n) s = .next t ∧ t.fld CLOCK_REF_COUNT.COUNT = n ∧
      t.power = { s.power with badRun := 0, goodRun := s.power.goodRun + 1 } ∧
      OnlyRegs { s with power := t.power } t [CLOCK_REF_COUNT.COUNT.addr]) ∧
  (∀ (s : State) (n : Nat), s.power.aonValid = true → n < 120 ∨ 136 < n → s.power.badRun = 0 →
    ∃ t, exec (.refclkWindow n) s = .next t ∧ t.fld CLOCK_REF_COUNT.COUNT = min 255 n ∧
      t.power = { s.power with badRun := 1, goodRun := 0 } ∧ OnlyRegs { s with power := t.power } t [CLOCK_REF_COUNT.COUNT.addr]) ∧
  (∀ (s : State) (n : Nat), s.power.aonValid = true → n < 120 ∨ 136 < n → s.power.badRun = 1 →
    s.flag CLOCK_STATUS.REFCLK_OK = true → s.power.dark = .none →
    ∃ t, exec (.refclkWindow n) s = .next t ∧ t.flag CLOCK_STATUS.REFCLK_OK = false ∧ t.power.dark = .refclk ∧
      t.mode = 0 ∧ t.call.companyHeld = true) ∧
  (∀ (s : State) (n : Nat), s.power.aonValid = true → 120 ≤ n → n ≤ 136 → s.power.goodRun = 781 →
    s.flag CLOCK_STATUS.REFCLK_OK = false → s.power.restart = false →
    ∃ t, exec (.refclkWindow n) s = .next t ∧ t.flag CLOCK_STATUS.REFCLK_OK = true ∧
      t.flag CLOCK_EVENT.REFCLK_BACK = true ∧ t.flag CLOCK_STATUS.RC_ACTIVE = false ∧ SameMemory s t) ∧
  (∀ (s : State) (pll : Fin 7), pllLocked s pll.val = true →
    ∃ t, exec (.pllUnlock pll) s = .next t ∧ pllLocked t pll.val = false ∧ t.flag CLOCK_EVENT.PLL_UNLOCK = true ∧
      t.power = { s.power with unlocked := s.power.unlocked ++ [(pll.val, s.ticks)] } ∧
      OnlyRegs { s with power := t.power } t [CLOCK_EVENT.PLL_UNLOCK.addr, CLOCK_LOSS_CNT.PLL.addr]) ∧
  (∀ (s : State) (pll : Fin 7), pllOut s pll.val = true → s.power.pllWait = none →
    ∃ t, exec (.pllRelock pll) s = .next t ∧
      t.power = { s.power with unlocked := s.power.unlocked.filter (fun u => u.1 != pll.val) } ∧ RegsBut s t eventRegs ∧
      SameMemory s t) ∧
  (∀ (s : State) (pll : Fin 7), pllOverdue s pll.val = true → s.power.pllWait = none → s.power.dark = .none →
    s.power.pllFailAt = none →
    ∃ t, exec (.pllRelockTimeout pll) s = .next t ∧ t.power.pllWait = some s.ticks ∧ t.power.dark = .pll ∧ t.mode = 0 ∧
      t.call.companyHeld = true) ∧
  (∀ (s : State) (pll : Fin 7) (k : Nat), pllOverdue s pll.val = true → s.power.pllWait = none → s.power.dark = .none →
    s.power.pllFailAt = some k → s.nowNs ≤ k + 60000000000 →
    ∃ t, exec (.pllRelockTimeout pll) s = .next t ∧ t.power.pllWait = none ∧ t.power.dark = .pllHold ∧
      t.power.restart = false ∧ t.mode = 0) ∧
  (∀ (s : State) (w : Nat), s.power.pllWait = some w → s.elapsedNs w 1000000 = true → s.power.restart = true → s.power.dark = .pll →
    s.flag THERM_STATUS.CURTAIN = false → s.flag CLOCK_STATUS.REFCLK_OK = true → s.power.supplyLow = false →
    s.power.warmPin = false → (s.fld POWER_RAIL.PG).testBit 0 = true →
    ∃ t, exec .pllFailureRestart s = .next t ∧ t.power.dark = .none ∧ t.power.pllWait = none ∧
      t.power.pllFailAt = some s.nowNs ∧ t.trust.image = none)

/-- R545 to R550: below 120 °C a sample shows every site and the hottest one; at 120.0 °C or more Curtain begins, THERMTRIP_N asserts
and the device is in Dark; the end of the cooling period releases it, or waits for a press after the third Curtain of an hour. -/
def Obligations.ThermalSamplesAndCurtain : Prop :=
  (∀ (s : State) (sites : Vector SiteSample 12), s.power.aonValid = true → s.flag THERM_STATUS.CURTAIN = false →
    (∀ i : Fin 12, siteReading sites[i] < 1920) →
    ∃ t, exec (.thermalSample sites) s = .next t ∧
      (∀ i : Fin 12, t.fld (THERM_SITE.T i) = (BitVec.ofInt 16 (siteReading sites[i])).toNat ∧
        t.flag (THERM_SITE.BROKEN_A i) = sites[i].a.isNone ∧ t.flag (THERM_SITE.BROKEN_B i) = sites[i].b.isNone ∧
        t.flag (THERM_SITE.DISAGREE i) = siteDisagrees sites[i]) ∧
      (∃ h : Fin 12, t.fld THERM_STATUS.HOTTEST = h ∧ (∀ i : Fin 12, siteReading sites[i] ≤ siteReading sites[h]) ∧
        t.fld THERM_STATUS.HOTTEST_T = (BitVec.ofInt 16 (siteReading sites[h])).toNat) ∧ SameMemory s t) ∧
  (∀ (s : State) (sites : Vector SiteSample 12) (i : Fin 12), s.power.aonValid = true →
    s.flag THERM_STATUS.CURTAIN = false → 1920 ≤ siteReading sites[i] → s.power.dark = .none → s.trust.jrnlSpent = false →
    ∃ t, exec (.thermalSample sites) s = .next t ∧ t.flag THERM_STATUS.CURTAIN = true ∧ t.power.thermtrip = true ∧
      t.power.dark = .curtain ∧ t.mode = 0 ∧ t.call.companyHeld = true ∧ t.dram = [] ∧ t.power.xfer = none) ∧
  (∀ (s : State) (k : Nat), s.power.coolFrom = some k → s.flag THERM_STATUS.CURTAIN = true →
    s.elapsedNs k 10000000000 = true → s.flag THERM_STATUS.HELD = true →
    exec .curtainCoolComplete s = .next { s with power := { s.power with coolDone := true } }) ∧
  (∀ (s : State) (k : Nat), s.power.coolFrom = some k → s.flag THERM_STATUS.CURTAIN = true →
    s.elapsedNs k 10000000000 = true → s.flag THERM_STATUS.HELD = false → s.power.restart = true → s.power.dark = .curtain →
    s.flag CLOCK_STATUS.REFCLK_OK = true → s.power.supplyLow = false → s.power.warmPin = false → s.power.pllWait = none →
    ∃ t, exec .curtainCoolComplete s = .next t ∧ t.power.thermtrip = false ∧ t.power.dark = .none ∧ t.trust.image = none) ∧
  (∀ (s : State), s.trust.pressed = false → s.flag THERM_STATUS.HELD = true → s.power.coolDone = false →
    ∃ t, exec .presencePress s = .next t ∧ t.flag THERM_STATUS.HELD = false ∧ t.power = s.power ∧
      OnlyRegs { s with trust := t.trust } t [TRUST_PRESENCE.PRESS.addr, THERM_STATUS.HELD.addr])

/-! ### Sensor ingest -/

/-- R115, R116: a Frame Start on an enabled stream with no frame open opens the next frame of the ledger on it, with the members of the
port's group, of which only this one has started; no commit waits for a reference. A Frame End of a frame whose other members have
ended or are late closes it: it is open no longer and its record is closed. -/
def Obligations.FramesOpenAndClose : Prop :=
  (∀ (s : State) (port : Fin 4) (vc : Fin 16) (number : BitVec 16) (d : Nat) (sd : StreamDesc), portRuns s port = true →
    s.domainOn (6 + port.val) = true → refFor s port vc = refPort s port → findStream s (refPort s port) vc = some (d, sd) →
    openFrame s (refPort s port) d = none → refPort s port < s.ingest.length → s.cue.commit = .idle →
    ∃ t f, exec (.frameStart port vc number false) s = .next t ∧ openFrame t (refPort s port) d = some f ∧
      f.num = nextNum s ∧ f.d = sd ∧
      f.members = (membersOf s (refPort s port)).map (fun m =>
        { port := m, started := decide (m = port.val), late := false, ended := false, lines := [] }) ∧
      (d < 4 → (t.fld (INGEST_STATUS.OPEN (refPort s port))).testBit d = true)) ∧
  (∀ (s : State) (port : Fin 4) (vc : Fin 16) (d : Nat) (sd : StreamDesc) (f : OpenFrame), portActive s port = true →
    ingestDrops s port vc = false → findStream s (refFor s port vc) vc = some (d, sd) →
    openFrame s (refFor s port vc) d = some f → f.port = refFor s port vc → memberOpen f port = true →
    (∀ m ∈ f.members, m.port = port.val ∨ m.ended = true ∨ m.late = true) →
    ∃ t, exec (.frameEnd port vc false []) s = .next t ∧ openFrame t (refFor s port vc) d = none ∧
      (∀ x ∈ t.ledger.frames, x.num = f.num → x.closed = true))

/-- R119, R120, R121, R125, R126: a line of the stream's data type becomes the next line of its member, filled where it is short, cut
or did not fit; an embedded data packet is kept while fewer than EMB_MAX are. -/
def Obligations.PacketsEnterTheOpenFrame : Prop :=
  (∀ (s : State) (port : Fin 4) (vc : Fin 16) (dt : BitVec 6) (bytes : List Byte) (crc : BitVec 16) (room : Bool) (d : Nat)
      (sd : StreamDesc) (f : OpenFrame) (m : Member), portActive s port = true → ingestDrops s port vc = false →
    findStream s (refFor s port vc) vc = some (d, sd) → dt.toNat = sd.dt → dt.toNat ≠ 0x12 →
    openFrame s (refFor s port vc) d = some f → f.port = refFor s port vc → memberOpen f port = true →
    f.members.find? (fun m => m.port == port.val) = some m → m.lines.length < f.memberLines →
    ∃ t, exec (.pixelLine port vc dt bytes crc false room []) s = .next t ∧
      openFrame t f.port d = some (f.modMember port (fun x => { x with lines := m.lines ++
        [fillLine (dtWidth f.d.dt) f.lineWidth f.fill
          (if room then bytes.take (packedBytes (dtWidth f.d.dt) f.lineWidth) else [])] }))) ∧
  (∀ (s : State) (port : Fin 4) (vc : Fin 16) (dt : BitVec 6) (wc : BitVec 16) (bytes : List Byte) (room : Bool)
      (d : Nat) (sd : StreamDesc) (f : OpenFrame) (m : Member), portActive s port = true → ingestDrops s port vc = false →
    findStream s (refFor s port vc) vc = some (d, sd) → dt.toNat = sd.dt → dt.toNat ≠ 0x12 →
    openFrame s (refFor s port vc) d = some f → f.port = refFor s port vc → memberOpen f port = true →
    f.members.find? (fun m => m.port == port.val) = some m → m.lines.length < f.memberLines →
    ∀ c ∈ [Instr.packetCutEot port vc dt wc ⟨bytes, false, room⟩, .lineIdleTimeout port vc dt wc ⟨bytes, false, room⟩],
    ∃ t, exec c s = .next t ∧
      openFrame t f.port d = some (f.modMember port (fun x => { x with lines := m.lines ++
        [fillLine (dtWidth f.d.dt) f.lineWidth f.fill
          (if room then bytes.take (packedBytes (dtWidth f.d.dt) f.lineWidth) else [])] }))) ∧
  (∀ (s : State) (port : Fin 4) (vc : Fin 16) (bytes : List Byte) (crc : BitVec 16) (d : Nat) (sd : StreamDesc)
      (f : OpenFrame), portActive s port = true → ingestDrops s port vc = false →
    findStream s (refFor s port vc) vc = some (d, sd) → openFrame s (refFor s port vc) d = some f →
    f.port = refFor s port vc → memberOpen f port = true → f.emb.length < f.d.embMax →
    ∃ t, exec (.embeddedData port vc bytes crc false) s = .next t ∧
      openFrame t f.port d = some { f with emb := f.emb ++ [bytes.take 16384] })

/-- R106, R108, R109, R115, R122 to R124, R128: Line Start and Line End within a frame and Null and Blanking packets change
nothing that a program sees but the lanes' stop state; a packet of an unused VC or type, one outside a frame, and a burst with
an uncorrectable header are counted in their type with its flag. A frame without Frame End closes at its time-out; a member that
missed the skew window is late and its share filled while another member goes on; ULPS and the stop state show; CLEAR zeroes the
port's counters. -/
def Obligations.PacketsIgnoredCountedOrTimedOut : Prop :=
  (∀ (s : State) (port : Fin 4) (vc : Fin 16) (d : Nat) (sd : StreamDesc) (f : OpenFrame), portActive s port = true →
    ingestDrops s port vc = false → findStream s (refFor s port vc) vc = some (d, sd) →
    openFrame s (refFor s port vc) d = some f → memberOpen f port = true →
    ∃ t, exec (.lineStartEnd port vc false) s = .next t ∧ t.flag (INGEST_STATUS.STOP port) = true ∧
      t = { s with regs := t.regs, ingest := t.ingest } ∧ RegsBut s t [(INGEST_STATUS.STOP port).addr]) ∧
  (∀ (s : State) (port : Fin 4) (vc : Fin 16), portActive s port = true →
    ∃ t, exec (.nullBlanking port vc false) s = .next t ∧ t.flag (INGEST_STATUS.STOP port) = true ∧
      t = { s with regs := t.regs, ingest := t.ingest } ∧ RegsBut s t [(INGEST_STATUS.STOP port).addr]) ∧
  (∀ (s : State) (port : Fin 4) (vc : Fin 16) (dt : BitVec 6), portActive s port = true → ingestDrops s port vc = false →
    findStream s (refFor s port vc) vc = none →
    ∃ t, exec (.dtUnsel port vc dt ⟨false, false⟩) s = .next t ∧
      t.fld (INGEST_CNT.COUNT port (16 * vc + 7)) = min (2 ^ 32 - 1) (s.fld (INGEST_CNT.COUNT port (16 * vc + 7)) + 1) ∧
      (t.fld (INGEST_EVENT.TYPE port)).testBit 7 = true ∧
      RegsBut s t ([(INGEST_STATUS.STOP port).addr, (INGEST_CNT.COUNT port (16 * vc + 7)).addr, (INGEST_EVENT.TYPE port).addr] ++
        eventRegs)) ∧
  (∀ (s : State) (port : Fin 4) (vc : Fin 16) (d : Nat) (sd : StreamDesc), portActive s port = true →
    ingestDrops s port vc = false → findStream s (refFor s port vc) vc = some (d, sd) →
    openFrame s (refFor s port vc) d = none →
    ∃ t, exec (.orphan port vc ⟨false, false⟩) s = .next t ∧
      t.fld (INGEST_CNT.COUNT port (16 * vc + 6)) = min (2 ^ 32 - 1) (s.fld (INGEST_CNT.COUNT port (16 * vc + 6)) + 1) ∧
      (t.fld (INGEST_EVENT.TYPE port)).testBit 6 = true ∧
      RegsBut s t ([(INGEST_STATUS.STOP port).addr, (INGEST_CNT.COUNT port (16 * vc + 6)).addr, (INGEST_EVENT.TYPE port).addr] ++
        eventRegs)) ∧
  (∀ (s : State) (port : Fin 4) (vc : Fin 16), portActive s port = true →
    ∃ t, exec (.eccUncorr port vc) s = .next t ∧
      t.fld (INGEST_CNT.COUNT port (16 * vc + 1)) = min (2 ^ 32 - 1) (s.fld (INGEST_CNT.COUNT port (16 * vc + 1)) + 1) ∧
      (t.fld (INGEST_EVENT.TYPE port)).testBit 1 = true ∧
      RegsBut s t ([(INGEST_STATUS.STOP port).addr, (INGEST_CNT.COUNT port (16 * vc + 1)).addr, (INGEST_EVENT.TYPE port).addr] ++
        eventRegs)) ∧
  (∀ (s : State) (port desc : Fin 4) (f : OpenFrame), openFrame s port desc = some f → f.port = port.val →
    s.elapsedNs f.since (f.timeoutMs * 1000000) = true →
    ∃ t, exec (.frameTimeout port desc) s = .next t ∧ openFrame t port desc = none ∧
      (∀ x ∈ t.ledger.frames, x.num = f.num → x.closed = true)) ∧
  (∀ (s : State) (port desc : Fin 4) (f : OpenFrame), openFrame s port desc = some f →
    s.elapsedNs f.since (f.timeoutMs * 1000000) = false → exec (.frameTimeout port desc) s = .next s) ∧
  (∀ (s : State) (port desc r : Fin 4) (f : OpenFrame) (m : Member), openFrame s r desc = some f → f.port = r.val →
    (∀ q : Fin 4, q ≠ r → openFrame s q desc = none) →
    f.members.find? (fun m => m.port == port.val) = some m → m.started = false → m.late = false →
    s.elapsedNs f.since (f.skewUs * 1000) = true →
    (∃ n ∈ f.members, n.port ≠ port.val ∧ n.ended = false ∧ n.late = false) →
    ∃ t g, exec (.gangSkewTimeout port desc) s = .next t ∧ openFrame t r desc = some g ∧
      (∃ n ∈ g.members, n.port = port.val ∧ n.late = true ∧ f.memberLines ≤ n.lines.length)) ∧
  (∀ (s : State) (port : Fin 4) (enter : Bool), s.domainOn (6 + port.val) = true →
    ∃ t, exec (.laneUlps port enter) s = .next t ∧ t.flag (INGEST_STATUS.ULPS port) = enter ∧
      t.flag (INGEST_STATUS.STOP port) = !enter ∧ OnlyRegs s t [(INGEST_STATUS.ULPS port).addr]) ∧
  (∀ (s : State) (port : Fin 4), s.domainOn (6 + port.val) = true →
    ∃ t, exec (.ingestCounterClear port) s = .next t ∧ (∀ i : Fin 256, t.fld (INGEST_CNT.COUNT port i) = 0) ∧
      OnlyRegs s t ((List.range 1024).map (fun i => (INGEST_CNT.COUNT port 0).addr + i)))

/-- R134 to R139: a write of INGEST_MCLK shows its fields, and the clock runs with the divider clamped to its range; RELEASE
sets the reset pin; an XTRIG pulse is made ahead of a schedule time, dropped as missed when that time is too near, and ends; a
GO pulses when SRC is 1. A firmware transfer makes its SPI controller BUSY and runs at once unless a script runs; at its end the
bytes received replace the first ones of the buffer. On the wire each bit holds on its leading edge, in the polarity of CPOL, with
chip select low 4 half periods before the first edge and 3 after the last half; an unpowered port rests. A script entry is driven and the script moves past it; an entry of length 0
ends it. -/
def Obligations.SensorControlAndSpi : Prop :=
  (∀ (s : State) (port : Fin 4) (v : Word), s.domainOn (6 + port.val) = true → 1920 ≤ v.toNat % 65536 →
    v.toNat % 65536 ≤ 32000 →
    ∃ t, exec (.mclkConfigWrite port v) s = .next t ∧ t.flag (INGEST_MCLK.EN port) = v.getLsbD 16 ∧
      t.fld (INGEST_MCLK.DIV port) = v.toNat % 65536 ∧ OnlyRegs s t [(INGEST_MCLK.DIV port).addr]) ∧
  (∀ (s : State) (port : Fin 4) (v : Word), s.domainOn (6 + port.val) = true → v.getLsbD 16 = true → v.toNat % 65536 < 1920 →
    ∃ t, exec (.mclkConfigWrite port v) s = .next t ∧ mclkDivider t port = some 1920 ∧
      RegsBut s t ((INGEST_MCLK.DIV port).addr :: eventRegs)) ∧
  (∀ (s : State) (port : Fin 4) (b : Bool), s.domainOn (6 + port.val) = true →
    ∃ t, exec (.sensorResetRelease port b) s = .next t ∧ t.flag (INGEST_SRST.RELEASE port) = b ∧
      OnlyRegs s t [(INGEST_SRST.RELEASE port).addr]) ∧
  (∀ (s : State) (port : Fin 4) (grid : Nat), s.domainOn (6 + port.val) = true → s.flag (INGEST_XTRIG.EN port) = true →
    s.fld (INGEST_XTRIG.SRC port) = 0 →
    ((onGrid s grid = false ∨ s.nowNs + s.fld (INGEST_XADV.NS port) < grid) → exec (.xtrigScheduled port grid) s = .next s) ∧
    (onGrid s grid = true → grid ≤ s.nowNs + s.fld (INGEST_XADV.NS port) →
      s.time.units + s.fld (INGEST_XADV.NS port) * 2 ^ 40 < grid * 2 ^ 40 + lastStep s →
      exec (.xtrigScheduled port grid) s = .next (xtrigPulse port s)) ∧
    (onGrid s grid = true → grid * 2 ^ 40 + lastStep s ≤ s.time.units + s.fld (INGEST_XADV.NS port) * 2 ^ 40 →
      ∃ t, exec (.xtrigScheduled port grid) s = .next t ∧
      t.fld (INGEST_XTRIG.MISSED port) = min 255 (s.fld (INGEST_XTRIG.MISSED port) + 1) ∧
      OnlyRegs s t [(INGEST_XTRIG.MISSED port).addr])) ∧
  (∀ (s : State) (port : Fin 4), s.domainOn (6 + port.val) = true → s.flag (INGEST_XTRIG.EN port) = true →
    s.fld (INGEST_XTRIG.SRC port) = 1 → exec (.xpulse port) s = .next (xtrigPulse port (busOk 0 s))) ∧
  (∀ (s : State) (p : Nat), p < s.ingest.length → 1 ≤ s.fld (INGEST_XTRIG.WIDTH p) → s.fld (INGEST_XTRIG.WIDTH p) ≤ 1000000 →
    (portOf s p).xtrigEnd = none →
    (portOf (xtrigPulse p s) p).xtrigEnd = some (s.nowNs + 10 * s.fld (INGEST_XTRIG.WIDTH p)) ∧
    xtrigPulse p s = { s with ingest := (xtrigPulse p s).ingest }) ∧
  (∀ (s : State) (port : Fin 4), (∀ e, (portOf s port).xtrigEnd = some e → e ≤ s.nowNs) →
    ∃ t, exec (.xtrigPulseEnd port) s = .next t ∧ (portOf t port).xtrigEnd = none ∧
      t = { s with ingest := t.ingest }) ∧
  (∀ (s : State) (ctl : Fin 2) (v : Word), s.domainOn (6 + ctl.val) = true → v.getLsbD 31 = true →
    s.flag (INGEST_SPI_STATUS.BUSY ctl) = false → 1 ≤ v.toNat % 128 → v.toNat % 128 ≤ 64 → ctl.val < s.ingest.length →
    ∃ t, exec (.spiTransfer ctl v) s = .next t ∧ t.flag (INGEST_SPI_STATUS.BUSY ctl) = true ∧
      spiOf t ctl = { spiOf s ctl with job := some (v.toNat / 256 % 4, v.toNat % 128), jobRuns := (spiOf s ctl).script.isNone } ∧
      OnlyRegs { s with ingest := t.ingest } t [(INGEST_SPI_STATUS.BUSY ctl).addr]) ∧
  (∀ (s : State) (ctl : Fin 2) (rx : List Byte) (cs len : Nat), (spiOf s ctl).job = some (cs, len) →
    (spiOf s ctl).jobRuns = true → len ≤ 64 → rx.length = len →
    ∃ t, exec (.spiTransferDone ctl rx) s = .next t ∧ spiBytes t ctl = rx ++ (spiBytes s ctl).drop len ∧
      t.flag (INGEST_SPI_STATUS.BUSY ctl) = false ∧ t.flag (INGEST_SPI_STATUS.DONE ctl) = true ∧
      (spiOf t ctl).job = none ∧ (spiOf t ctl).driven = some (spiWire s ctl cs ((spiBytes s ctl).take len)) ∧ SameMemory s t) ∧
  (∀ (s : State) (ctl : Fin 2) (off w len : Nat), (spiOf s ctl).script = some off → off + 4 ≤ 4096 →
    w = s.tab 0x04 (4 + ctl.val) off 4 → len = w % 128 → 1 ≤ len → len ≤ 64 → off + 4 + len ≤ 4096 →
    ∃ t, exec (.spiScriptEntry ctl) s = .next t ∧
      spiOf t ctl = { spiOf s ctl with script := some (off + 4 + roundUp len 4),
                                       driven := some (spiWire s ctl (w / 2 ^ 14 % 4)
                                         (readList 0 (s.table 0x04 (4 + ctl.val)) (off + 4) len)) } ∧
      t = { s with ingest := t.ingest }) ∧
  (∀ (s : State) (ctl : Fin 2) (off : Nat), (spiOf s ctl).script = some off → off + 4 ≤ 4096 →
    s.tab 0x04 (4 + ctl.val) off 4 % 128 = 0 → (spiOf s ctl).scriptDue = false →
    ∃ t, exec (.spiScriptEntry ctl) s = .next t ∧ t.flag (INGEST_SPI_STATUS.SCRIPT_RUN ctl) = false ∧
      (spiOf t ctl).script = none ∧ OnlyRegs { s with ingest := t.ingest } t [(INGEST_SPI_STATUS.SCRIPT_RUN ctl).addr]) ∧
  (∀ (s : State) (c : Nat), s.domainOn (6 + c) = false →
    spiIdle s c = { sclk := false, mosi := some false, csN := [true, true, true, true] }) ∧
  (∀ (t : SpiWire), t.cs < 4 → (t.levels.length = 16 * t.bytes.length + 7 ∧
    (∀ x ∈ t.levels, x.csN = (List.range 4).map (fun k => k != t.cs)) ∧
    (∀ i < t.bits.length, ((t.levels[4 + 2 * i]?).map (fun x => (x.sclk, x.mosi))) = some (!t.cpol, t.bits[i]?))))

/-! ### Pixel pipeline and scene cells -/

/-- R142, R144, R168: the frame whose turn it is leaves the queue of its port and becomes its job at slice 0; the granted slice is that
of the port the round robin names; a slice that completes moves its frame to the next one, and after the last one the port is free. -/
def Obligations.PipelineFramesAdvance : Prop :=
  (∀ (s : State) (p : Nat) (src : PipeSrc), nextBegin s = some p → firstWaiting (pipePort s p) = some src →
    ∃ t j, exec .pipeFrameBegin s = .next t ∧ (pipePort t p).job = some j ∧ j.src = src ∧ j.slice = 0 ∧ j.granted = false ∧
      j.epoch = s.fld CUE_EPOCH.EPOCH ∧ (pipePort t p).waiting = (pipePort s p).waiting.erase src ∧ (t.fld PIPE_STATUS.BUSY).testBit p = true) ∧
  (∀ (s : State) (p : Nat) (j : PipeJob), s.pipe.refresh = none →
    (∀ q ∈ s.pipe.ports, ∀ i, q.job = some i → i.granted = false) → grantPort s = some p → (pipePort s p).job = some j →
    ∃ t, exec .sliceGrant s = .next t ∧ (pipePort t p).job = some { j with granted := true } ∧ t.pipe.turn = p ∧
      (∀ q, q ≠ p → pipePort t q = pipePort s q) ∧ OnlyRegs { s with pipe := t.pipe } t []) ∧
  (∀ (s : State) (p : Nat) (j : PipeJob), grantedPort s = some (p, j) → s.pipe.refresh = none → j.ended = false →
    slicePoisoned s j = false → j.slice + 1 < sliceCount j.src.d.height →
    ∃ t i, exec .sliceComplete s = .next t ∧ (pipePort t p).job = some i ∧ i.slice = j.slice + 1 ∧ i.granted = false ∧
      i.replaying = false ∧ i.recomputed = (j.recomputed || j.replaying) ∧ i.damaged = j.damaged) ∧
  (∀ (s : State) (p : Nat) (j : PipeJob), grantedPort s = some (p, j) → s.pipe.refresh = none →
    slicePoisoned s j = false → sliceCount j.src.d.height ≤ j.slice + 1 →
    ∃ t, exec .sliceComplete s = .next t ∧ (pipePort t p).job = none ∧ (t.fld PIPE_STATUS.BUSY).testBit p = false)

/-- R165, R169 to R172, R175, R185, R203, R206: a detection replays the slice once within the frame's budget, else the slice is
damaged and counted; the end of a table refresh lets slices go on; a returned head 0 buffer is free; GO arms the cells again at
the next Frame Start; a write into the context window is a bus error, with an event while domain 14 is on; CLEAR zeroes the
counters of its block. -/
def Obligations.PipelineDetectionsAndCells : Prop :=
  (∀ (s : State) (p : Nat) (j : PipeJob), grantedPort s = some (p, j) → j.replaying = false →
    j.spent < ceilDiv (sliceCount j.src.d.height) 64 →
    ∃ t, exec (.pipeDetection none) s = .next t ∧
      (pipePort t p).job = some { j with replaying := true, spent := j.spent + 1 } ∧
      t.fld PIPE_CNT_REPLAY.COUNT = min (2 ^ PIPE_CNT_REPLAY.COUNT.width - 1) (s.fld PIPE_CNT_REPLAY.COUNT + 1) ∧
      t.flag PIPE_EVENT.REPLAY = true ∧
      RegsBut s t ([PIPE_CNT_REPLAY.COUNT.addr, PIPE_EVENT.REPLAY.addr] ++ eventRegs) ∧ SameMemory s t) ∧
  (∀ (s : State) (p : Nat) (j : PipeJob), grantedPort s = some (p, j) → j.replaying = true → j.ended = false →
    s.pipe.refresh = none → j.slice + 1 < sliceCount j.src.d.height →
    ∃ t i, exec (.pipeDetection none) s = .next t ∧ (pipePort t p).job = some i ∧ i.slice = j.slice + 1 ∧
      i.damaged = j.damaged ++ [j.slice] ∧ i.filled = (j.filled || j.ctrl 15) ∧
      t.fld PIPE_CNT_DAMAGED.COUNT = min (2 ^ PIPE_CNT_DAMAGED.COUNT.width - 1) (s.fld PIPE_CNT_DAMAGED.COUNT + 1)) ∧
  (∀ (s : State) (p : Nat) (j : PipeJob) (n : Fin 8), grantedPort s = some (p, j) → j.replaying = false →
    j.spent < ceilDiv (sliceCount j.src.d.height) 64 →
    ∃ t, exec (.pipeDetection (some n)) s = .next t ∧ t.pipe.refresh = some { port := p, table := n } ∧
      t.flag PIPE_STATUS.TABLE_REFRESH = true ∧ exec .sliceGrant t = .next t) ∧
  (∀ (s : State), (∀ p j, grantedPort s = some (p, j) → j.due = false) →
    ∃ t, exec .tableRefreshDone s = .next t ∧ t.pipe = { s.pipe with refresh := none } ∧
      t.flag PIPE_STATUS.TABLE_REFRESH = false ∧ OnlyRegs { s with pipe := t.pipe } t [PIPE_STATUS.TABLE_REFRESH.addr]) ∧
  (∀ (s : State) (port : Fin 4) (buf : Fin 16) (n : Nat), (pipePort s port).bufs[buf.val]? = some (some n) →
    ∃ t, exec (.pipeBufferRelease port buf) s = .next t ∧ (pipePort t port).bufs = (pipePort s port).bufs.set buf none ∧
      (∀ q, q ≠ port.val → pipePort t q = pipePort s q) ∧ RegsBut s t [PIPE_BUF_FREE.PORT0.addr] ∧ SameMemory s t) ∧
  (∀ (s : State), pipePowered s = true →
    ∃ t, exec .pipeCounterClear s = .next t ∧ t.fld PIPE_CNT_REPLAY.COUNT = 0 ∧ t.fld PIPE_CNT_DAMAGED.COUNT = 0 ∧
      t.fld PIPE_CNT_SKIP.COUNT = 0 ∧ t.fld PIPE_CNT_DROP.COUNT = 0 ∧ t.fld PIPE_CNT_DEFECT.COUNT = 0 ∧
      OnlyRegs s t [PIPE_CNT_REPLAY.COUNT.addr, PIPE_CNT_DAMAGED.COUNT.addr, PIPE_CNT_SKIP.COUNT.addr,
        PIPE_CNT_DROP.COUNT.addr, PIPE_CNT_DEFECT.COUNT.addr]) ∧
  (∀ (s : State), s.domainOn 14 = true →
    exec .cellRearm s = .next { s with sys := { s.sys with bus := { data := 0, error := false } },
                                       cell := { s.cell with rearm := true } }) ∧
  (∀ (s : State) (c : Fin 4) (addr : BitVec 40),
    ∃ t, exec (.cellWindowWrite (.company c) addr) s = .next t ∧ t.sys.bus.error = true ∧ t.cell = s.cell ∧
      t = (if s.domainOn 14 then postOther .warning 5 0xFF (addr.toNat - 0x10000000) (busError s) else busError s) ∧
      RegsBut s t eventRegs ∧ SameMemory s t) ∧
  (∀ (s : State), s.domainOn 14 = true →
    ∃ t, exec .cellCounterClear s = .next t ∧ t.fld CELL_CNT_BADCFG.COUNT = 0 ∧ t.fld CELL_CNT_PARITY.COUNT = 0 ∧
      OnlyRegs s t [CELL_CNT_BADCFG.COUNT.addr, CELL_CNT_PARITY.COUNT.addr])

/-! ### Triggers and the ledger -/

/-- R207 to R213, R247: an activation outside REARM that has lasted FILTER samples holds the pin under the descriptor latched
when its run began and raises its level, with its edge time; one within REARM is discarded and counted; a shorter run is no
activation and is counted; the release and the stuck time lower the level; an output pulse ends, not before its time. No
selection entry is enabled where a level changes. -/
def Obligations.TriggerPinsFollowTheirInputs : Prop :=
  (∀ (s : State) (pin : Fin 8) (edge : Nat), s.domainOn 28 = true → (pinField s pin edge 0 1).testBit 7 = true →
    (pinOf s pin).held = false → (pinOf s pin).lastEdge = none → pin.val < s.ledger.pins.length →
    edge + pinFilterNs s pin edge ≤ s.nowNs → (∀ n : Fin 16, s.flag (CUE_SEL.EN n) = false) →
    ∃ t, exec (.trigAccept pin edge) s = .next t ∧ (pinOf t pin).held = true ∧ (pinOf t pin).discarded = false ∧
      (pinOf t pin).latch = pinDesc s pin edge ∧
      (pinOf t pin).lastEdge = some edge ∧ (t.fld LEDGER_PIN_STATUS.LEVEL).testBit pin = true ∧ t.cue = s.cue) ∧
  (∀ (s : State) (pin : Fin 8) (edge e : Nat), s.domainOn 28 = true → (pinField s pin edge 0 1).testBit 7 = true →
    (pinOf s pin).held = false → (pinOf s pin).lastEdge = some e → pin.val < s.ledger.pins.length →
    edge + pinFilterNs s pin edge ≤ s.nowNs → edge < e + min 10000000 (pinField s pin edge 8 4) * 1000 →
    ∃ t, exec (.trigAccept pin edge) s = .next t ∧ pinOf t pin = { pinOf s pin with held := true, discarded := true } ∧
      t.fld (LEDGER_PINCNT.DISCARDED pin) =
        min (2 ^ (LEDGER_PINCNT.DISCARDED pin).width - 1) (s.fld (LEDGER_PINCNT.DISCARDED pin) + 1) ∧
      OnlyRegs { s with ledger := t.ledger } t [(LEDGER_PINCNT.DISCARDED pin).addr]) ∧
  (∀ (s : State) (pin : Fin 8) (edge : Nat), s.domainOn 28 = true → (pinField s pin edge 0 1).testBit 7 = true →
    s.nowNs < edge + pinFilterNs s pin edge → exec (.trigAccept pin edge) s = .next s ∧
    ∃ t, exec (.trigShortRun ⟨pin, edge⟩) s = .next t ∧
      t.fld (LEDGER_PINCNT.FILTERED pin) =
        min (2 ^ (LEDGER_PINCNT.FILTERED pin).width - 1) (s.fld (LEDGER_PINCNT.FILTERED pin) + 1) ∧
      OnlyRegs s t [(LEDGER_PINCNT.FILTERED pin).addr]) ∧
  (∀ (s : State) (pin : Fin 8), (pinOf s pin).held = true → (pinOf s pin).discarded = false →
    pin.val < s.ledger.pins.length → (∀ n : Fin 16, s.flag (CUE_SEL.EN n) = false) →
    ∃ t, exec (.trigRelease pin) s = .next t ∧ (pinOf t pin).held = false ∧
      (t.fld LEDGER_PIN_STATUS.LEVEL).testBit pin = false ∧ t.cue = s.cue) ∧
  (∀ (s : State) (pin : Fin 8), (pinOf s pin).held = true → (pinOf s pin).discarded = false →
    (pinOf s pin).stuckNs ≠ 0 → s.elapsedNs (pinOf s pin).since (pinOf s pin).stuckNs = true →
    (s.fld LEDGER_PIN_STATUS.LEVEL).testBit pin = true →
    ∃ t, exec (.trigStuck pin) s = .next t ∧ (t.fld LEDGER_PIN_STATUS.STUCK).testBit pin = true ∧
      (t.fld LEDGER_PIN_STATUS.LEVEL).testBit pin = false ∧ t.flag LEDGER_EVENT.STUCK = true) ∧
  (∀ (s : State) (pin : Fin 8), (∀ e, (pinOf s pin).outEnd = some e → e ≤ s.ticks) →
    ∃ t, exec (.trigOutputPulseEnd pin) s = .next t ∧
      (t.fld LEDGER_PIN_STATUS.OUT).testBit pin = false ∧ (pinOf t pin).outEnd = none ∧
      OnlyRegs { s with ledger := t.ledger } t [LEDGER_PIN_STATUS.OUT.addr])

/-- R215 to R219, R229, R239, R243 to R246: an enabled output with an allowed destination fires when an event makes a term of
its set fire, with the event's time. A software trigger is an event on input 80 + INPUT at once, or pends until its time comes.
The end of a settle window takes its fire off and writes its trigger log entry, after the Frame Starts of the same cycle (R233);
the audit, at each time whose nanoseconds are 0 and at no other, samples the counters of ports and credit paths, and a port whose frame counters do not add up shows in
LEDGER_AUDIT_FAIL and LEDGER_EVENT; a final record that has waited 50 ms for the partner is written out. -/
def Obligations.CombinerAndAudit : Prop :=
  (∀ (s : State) (i τ : Nat) (k : Fin 4) (n : Fin 16) (l : Nat), s.domainOn 28 = true → s.flag LEDGER_CTRL.TRIG_EN = true →
    (outCtrl (readList 0 (s.table 0x10 2) (16 * k) 16)).testBit 7 = true →
    bits (outCtrl (readList 0 (s.table 0x10 2) (16 * k) 16)) 5 4 ≠ 0 →
    (outTerms (readList 0 (s.table 0x10 2) (16 * k) 16)).testBit n = true →
    termLiterals s n = [l, 0, 0, 0] → litUsed l = true → litEvent l = true → litInput l = i →
    ∃ p ∈ (combine [(i, τ)] τ s).ledger.placements, p.out = k.val ∧ p.time = τ ∧
      p.cfg = readList 0 (s.table 0x10 2) (16 * k) 16) ∧
  (∀ (s : State) (v : Word), s.call.restart = none → s.domainOn 28 = true → v.getLsbD 8 = false →
    exec (.softwareTrigger v) s = .next (combine [(80 + v.toNat % 4, s.nowNs)] s.nowNs (busOk 0 s))) ∧
  (∀ (s : State) (v : Word), s.call.restart = none → s.domainOn 28 = true → v.getLsbD 8 = true → s.nowNs < swTime s →
    s.ledger.sw.getD (v.toNat % 4) none = none →
    ∃ t, exec (.softwareTrigger v) s = .next t ∧
      t = { s with sys := { s.sys with bus := { data := 0, error := false } },
                   ledger := { s.ledger with sw := s.ledger.sw.set (v.toNat % 4) (some (swTime s)) } }) ∧
  (∀ (s : State) (k : Fin 4) (τ : Nat), s.ledger.sw.getD k none = some τ → τ ≤ s.nowNs →
    ∃ t u, exec (.swtrigDue k) s = .next t ∧ t = combine [(80 + k.val, τ)] τ u ∧ t.ledger.sw = s.ledger.sw.set k none ∧
      u = { s with ledger := { s.ledger with sw := s.ledger.sw.set k none } }) ∧
  (∀ (s : State) (p : Placement), startWaits s = false → nextPlacement s = some p → settleEnd s p ≤ s.nowNs →
    ∃ t, exec .rangePlace s = .next t ∧ t.ledger.placements = s.ledger.placements.erase p ∧
      t.fld LEDGER_TLOG_WR.WR = (s.fld LEDGER_TLOG_WR.WR + 1) % 2 ^ LEDGER_TLOG_WR.WR.width ∧
      t.fld (LEDGER_TLOG.DATA (8 * (s.fld LEDGER_TLOG_WR.WR % 16) + 2)) = p.time % 1000000000) ∧
  (∀ (s : State), secondsAdvanced s = false → exec .ledgerAudit s = .next s) ∧
  (∀ (s : State), secondsAdvanced s = true → ∃ t, exec .ledgerAudit s = .next t ∧ t.ledger.auditFrames = (List.range 4).map (frameCounters s) ∧
      t.ledger.auditCredits = (List.range 15).map (creditCounters s) ∧ t.ledger.auditAt = (s.time.sec.toNat, s.time.ns)) ∧
  (∀ (s : State), startWaits s = true →
    exec .rangePlace s = .next { s with ledger := { s.ledger with placeDue := s.ledger.placeDue + 1 } }) ∧
  (∀ (s : State) (n τ : Nat) (f : Frame), s.ledger.toSpill = [n] → frameOf s n = some f → f.settled = true → f.partner = none →
    f.finalAt = some τ → s.elapsedNs τ 50000000 = true → s.flag LEDGER_SPILL_SIZE.EN = true → s.ledger.spillOk = true →
    ∃ t, exec (.partnerDispTimeout n) s = .next t ∧
      t.fld LEDGER_SPILL_WR.WR = (s.fld LEDGER_SPILL_WR.WR + 1) % 2 ^ LEDGER_SPILL_WR.WR.width ∧
      (∀ x ∈ t.ledger.frames, x.num = n → x.spilled = true)) ∧
  (∀ (s : State) (p : Fin 4), framesConserved (frameCounters s p) = false → secondsAdvanced s = true →
    ∃ t, exec .ledgerAudit s = .next t ∧ (t.fld LEDGER_AUDIT_FAIL.PATH).testBit p = true ∧
      t.flag LEDGER_EVENT.AUDIT_FAIL = true)

/-! ### Ranorid coder and decoder, hash engines -/

/-- R248 to R251, R260, R272 to R274, R277, R278, R280, R281, R318: the coder takes the waiting frame of the lowest number with
the table entry of its stream, and with no map once the map is overdue; a first detection in a cell has it coded again within
the budget; one in the index makes the frame go without; a frame coded is handed on and joins the queue of its magazine. A
decode whose source and destination lie in DRAM and do not overlap starts and shows BUSY, any other is refused; its end clears
BUSY and sets DONE, and BAD_FRAME tells whether the frame failed a check. -/
def Obligations.CoderAndDecodes : Prop :=
  (∀ (s : State) (f : Frame) (fs : List Frame), coderWaiting s = f :: fs → rawcOn s = true → s.mag.halted = false →
    wantsMap s (rawcEntry s f.port f.desc) f = false →
    ∃ t j, exec .coderFrameBegin s = .next t ∧ t.rawc.jobs = s.rawc.jobs ++ [j] ∧ j.num = f.num ∧
      j.entry = rawcEntry s f.port f.desc ∧ j.epoch = s.fld CUE_EPOCH.EPOCH ∧ j.map = [] ∧ j.missing = false ∧ j.marks = [] ∧
      t.fld64 RAWC_CUR_LO.DATA RAWC_CUR_HI.DATA = f.num % 2 ^ 64 ∧ t = { s with regs := t.regs, rawc := t.rawc } ∧
      RegsBut s t [RAWC_CUR_LO.DATA.addr, RAWC_CUR_HI.DATA.addr, RAWC_EVENT.GRID_DOUBLED.addr]) ∧
  (∀ (s : State) (f : Frame) (fs : List Frame), coderWaiting s = f :: fs → rawcOn s = true → s.mag.halted = false →
    wantsMap s (rawcEntry s f.port f.desc) f = true → usableMap s f.num = none →
    ∃ t j, exec .coderMapTimeout s = .next t ∧ t.rawc.jobs = s.rawc.jobs ++ [j] ∧ j.num = f.num ∧ j.map = [] ∧
      j.missing = true ∧ t.flag RAWC_EVENT.MAP_MISSING = true ∧ t = { s with regs := t.regs, rawc := t.rawc }) ∧
  (∀ (s : State) (num id : Nat) (j : CodeJob) (f : Frame), s.rawc.jobs.find? (fun j => j.num == num) = some j →
    frameOf s num = some f → id < gridCells f.d.width f.d.height j.cw j.ch → keyGet j.marks id = none → j.budget ≠ 0 →
    ∃ t, exec (.coderDetection num (.cell id)) s = .next t ∧
      t.rawc.jobs.find? (fun j => j.num == num) = some { j with budget := j.budget - 1, marks := keySet j.marks id 1 } ∧
      t.fld RAWC_CNT_RECODE.COUNT = min (2 ^ RAWC_CNT_RECODE.COUNT.width - 1) (s.fld RAWC_CNT_RECODE.COUNT + 1) ∧
      t.flag RAWC_EVENT.RECODE = true ∧ SameMemory s t) ∧
  (∀ (s : State) (num : Nat) (j : CodeJob) (f : Frame), s.rawc.jobs.find? (fun j => j.num == num) = some j →
    frameOf s num = some f →
    ∃ t, exec (.coderDetection num .index) s = .next t ∧
      t.rawc.jobs.find? (fun j => j.num == num) = some { j with noIndex := true } ∧ t.flag RAWC_EVENT.INDEX = true ∧
      SameMemory s t) ∧
  (∀ (s : State) (j : CodeJob) (js : List CodeJob) (f : Frame) (k : Nat) (q : MagRecord) (qs : List MagRecord),
    s.rawc.jobs = j :: js → frameOf s j.num = some f → f.slot = some k → f.disp = 7 → f.await = [0] → j.target = none →
    magRecording s 0 = true → (magPort s 0).queue = q :: qs → q.placed = true →
    ∃ t bs, exec .coderFrameComplete s = .next t ∧ t.rawc.jobs = js ∧
      (magPort t 0).queue = (magPort s 0).queue ++ [newRecord 1 f.num bs (some f.num) f.src] ∧
      (∀ x ∈ t.ledger.frames, x.num = j.num → x.handed = true)) ∧
  (∀ (s : State) (play : Bool) (fill : BitVec 20), rawcOn s = true → s.rawc.dec = none →
    inDram s (decSrc s) (s.fld RAWC_DEC_LEN.BYTES) = true → inDram s (decDst s) (s.fld RAWC_DEC_DST_SIZE.BYTES) = true →
    decSrc s + s.fld RAWC_DEC_LEN.BYTES ≤ decDst s →
    ∃ t, exec (.rawcDecode play fill) s = .next t ∧ t.flag RAWC_DEC_STATUS.BUSY = true ∧
      t.rawc.dec = some { src := dramOff (decSrc s), len := s.fld RAWC_DEC_LEN.BYTES,
                          dst := dramOff (decDst s), size := s.fld RAWC_DEC_DST_SIZE.BYTES } ∧
      t.flag RAWC_DEC_CTRL.PLAY = play ∧ t.fld RAWC_DEC_CTRL.FILL = fill.toNat ∧
      OnlyRegs { s with rawc := t.rawc } t [RAWC_DEC_CTRL.PLAY.addr, RAWC_DEC_STATUS.BUSY.addr, RAWC_DEC_CELLS.BAD.addr]) ∧
  (∀ (s : State) (play : Bool) (fill : BitVec 20), rawcOn s = true → s.rawc.dec ≠ none →
    ∃ t, exec (.rawcDecode play fill) s = .next t ∧ t.flag RAWC_DEC_STATUS.REFUSED = true ∧ t.rawc = s.rawc ∧
      SameMemory s t) ∧
  (∀ (s : State) (d : DecodeJob), s.rawc.dec = some d → s.flag RAWC_DEC_CTRL.PLAY = false →
    ∃ t, exec .decodeComplete s = .next t ∧ t.rawc.dec = none ∧ t.flag RAWC_DEC_STATUS.BUSY = false ∧
      t.flag RAWC_DEC_STATUS.DONE = true ∧
      t.flag RAWC_DEC_STATUS.BAD_FRAME = (checkCoded (s.dramBytes d.src d.len) d.size).isLeft ∧
      ((checkCoded (s.dramBytes d.src d.len) d.size).isLeft = true → t.dram = s.dram)) ∧
  (∀ (s : State), ∃ t, exec .rawcCounterClear s = .next t ∧ t.fld RAWC_CNT_RECODE.COUNT = 0 ∧
      t.fld RAWC_CNT_DAMAGED.COUNT = 0 ∧ t.fld RAWC_CNT_VERBATIM.COUNT = 0 ∧
      OnlyRegs s t [RAWC_CNT_RECODE.COUNT.addr, RAWC_CNT_DAMAGED.COUNT.addr, RAWC_CNT_VERBATIM.COUNT.addr])

/-- R286 to R288, R290 to R293, R295, R296, R302: the next frame to link, once closed, extends the frame chain by the digest of
its predecessor's link, its own digest and its sealed record, and takes the next place of the digest ring; in an ended segment,
and where the copies of the head differ (R290), it begins a new one. A detection starts one rehash of the stripe, one restart of
the coded digest, of the firmware job; a rehash without detection gives the stripe its digest; a coded digest is stored; a job
runs and leaves the digest of its bytes; CLEAR zeroes the counters. -/
def Obligations.FrameChainAndHashJobs : Prop :=
  (∀ (s : State) (f : Frame), nextToLink s = some f → f.closed = true → f.rehash = [] → s.domainOn 20 = true →
    s.hash.active = true → s.hash.link2 = s.hash.link →
    ∃ t, exec (.frameLink .none) s = .next t ∧
      t.hash.link = sha3_512 (s.hash.link ++ frameDigest s f ++
        sealRecord (recordOf { f with digestRef := s.fld HASH_DIG_WR.WR })) ∧
      t.hash.link2 = t.hash.link ∧ t.hash.lastFrame = f.num ∧ t.hash.segment = s.hash.segment ∧
      t.fld HASH_DIG_WR.WR = (s.fld HASH_DIG_WR.WR + 1) % 2 ^ 32 ∧ (∀ x ∈ t.ledger.frames, x.num = f.num → x.linked = true)) ∧
  (∀ (s : State) (f : Frame), nextToLink s = some f → f.closed = true → f.rehash = [] → s.domainOn 20 = true →
    s.hash.active = false →
    ∃ t, exec (.frameLink .none) s = .next t ∧ t.hash.active = true ∧ t.hash.segment = s.hash.segment + 1 ∧
      t.hash.segFirst = f.num ∧ t.hash.lastFrame = f.num ∧ t.fld HASH_SEGMENT.SEGMENT = (s.hash.segment + 1) % 2 ^ 32) ∧
  (∀ (s : State) (f : Frame) (u : ChainUpset), nextToLink s = some f → f.closed = true → f.rehash = [] → s.domainOn 20 = true →
    s.hash.active = true → s.hash.link ≠ (upsetChain u s).hash.link2 →
    ∃ t, exec (.frameLink u) s = .next t ∧ t.flag HASH_EVENT.CHAIN_FAULT = true ∧ t.hash.segment = s.hash.segment + 1 ∧
      t.hash.segFirst = f.num) ∧
  (∀ (s : State) (num : Nat) (k : Fin 64) (f : Frame), frameOf s num = some f → f.hashed = true → f.linked = false →
    k.val < stripeCount f.d.height → f.failMask.testBit k = false → k.val ∉ f.rehash → f.slot ≠ none →
    ∃ t, exec (.hashDetection (.stripe num k)) s = .next t ∧ frameOf t num = some { f with rehash := f.rehash ++ [k.val] } ∧
      t.fld HASH_CNT_REHASH.COUNT = min (2 ^ HASH_CNT_REHASH.COUNT.width - 1) (s.fld HASH_CNT_REHASH.COUNT + 1) ∧
      t.flag HASH_EVENT.REHASH = true ∧ SameMemory s t) ∧
  (∀ (s : State) (num : Nat) (d : List Byte), keyGet s.hash.codedDue num = some d → num ∉ s.hash.codedHit →
    exec (.hashDetection (.coded num)) s = .next { s with hash := { s.hash with codedHit := s.hash.codedHit ++ [num] } }) ∧
  (∀ (s : State) (j : Nat × Nat), s.hash.job = some j → s.hash.jobHit = false →
    exec (.hashDetection .job) s = .next { s with hash := { s.hash with jobHit := true } }) ∧
  (∀ (s : State) (num k : Nat) (stripe : Fin 64) (f : Frame), frameOf s num = some f → stripe.val ∈ f.rehash →
    f.slot = some k →
    s.poisoned (slotAddr s f.port k + stripe.val * f.d.height / stripeCount f.d.height * f.d.lineBytes)
      (((stripe.val + 1) * f.d.height / stripeCount f.d.height - stripe.val * f.d.height / stripeCount f.d.height) *
        f.d.lineBytes) = false →
    ∃ t, exec (.hashRehashComplete num stripe) s = .next t ∧ t = { s with ledger := t.ledger } ∧
      frameOf t num = some { f with rehash := f.rehash.filter (fun j => j != stripe.val), rehashed := true,
                                    stripes := f.stripes.set stripe (sha3_512 (ascii "ECD9600/STRIPE/1" ++
                                      leBytes 4 stripe.val ++ leBytes 8 num ++ (slotLines s f k
                                        (stripe.val * f.d.height / stripeCount f.d.height)
                                        ((stripe.val + 1) * f.d.height / stripeCount f.d.height)).flatten)) }) ∧
  (∀ (s : State) (num : Nat) (d : List Byte), keyGet s.hash.codedDue num = some d →
    ∃ t, exec (.codedDigestComplete num) s = .next t ∧ keyGet t.hash.codedDue num = none ∧
      (∀ x ∈ t.ledger.frames, x.num = num → x.coded = d)) ∧
  (∀ (s : State), s.domainOn 20 = true → s.hash.job = none → s.fld HASH_JOB_LEN.BYTES ≠ 0 →
    inDram s (s.fld64 HASH_JOB_SRC_LO.ADDR HASH_JOB_SRC_HI.ADDR) (s.fld HASH_JOB_LEN.BYTES) = true →
    ∃ t, exec .hashJob s = .next t ∧ t.flag HASH_JOB_CTRL.BUSY = true ∧
      t.hash = { s.hash with job := some (dramOff (s.fld64 HASH_JOB_SRC_LO.ADDR HASH_JOB_SRC_HI.ADDR),
                                          s.fld HASH_JOB_LEN.BYTES), jobHit := false } ∧
      OnlyRegs { s with hash := t.hash } t [HASH_JOB_CTRL.BUSY.addr]) ∧
  (∀ (s : State) (a n : Nat), s.hash.job = some (a, n) →
    ∃ t, exec .hashJobComplete s = .next t ∧ t.hash.job = none ∧ t.flag HASH_JOB_CTRL.BUSY = false ∧
      t.flag HASH_JOB_CTRL.DONE = true ∧ t.flag HASH_EVENT.JOB_DONE = true ∧
      (∀ i : Fin 16, t.fld (HASH_JOB_RES.DATA i) = leAt (sha3_512 (s.dramBytes a n)) (4 * i) 4) ∧ SameMemory s t) ∧
  (∀ (s : State), ∃ t, exec .hashCounterClear s = .next t ∧ t.fld HASH_CNT_REHASH.COUNT = 0 ∧
      t.fld HASH_CNT_FAIL.COUNT = 0 ∧ OnlyRegs s t [HASH_CNT_REHASH.COUNT.addr, HASH_CNT_FAIL.COUNT.addr])

/-! ### Magazines -/

/-- R304, R305, R307, R310, R311, R322: a magazine put into an enabled, empty port is trained: PERST_N released, a first attempt
after 20 ms, a new one after each 100 ms, FAILED after the third; links up begin the mount; a blank magazine gets the superblock
of an empty volume, and once nothing is left to be written the port is READY; a step that fails leaves FAILED; a removal empties
the port; a controller's fatal status fails it. -/
def Obligations.MagazinePortsTrainAndMount : Prop :=
  (∀ (s : State) (port : Fin 2) (d : Magazine), magEnabled s port = true → magState s port = 1 → port.val < s.mag.ports.length →
    ∃ t, exec (.magPresent port (some d)) s = .next t ∧ magState t port = 2 ∧ (magPort t port).perst = true ∧
      (magPort t port).attempts = 0 ∧ (magPort t port).ctrls = d.ctrls) ∧
  (∀ (s : State) (port : Fin 2), magState s port = 2 → (magPort s port).attempts = 0 → port.val < s.mag.ports.length →
    s.elapsedNs (magPort s port).trainAt 20000000 = true →
    ∃ t, exec (.magTrainingStart port) s = .next t ∧ magPort t port = { magPort s port with attempts := 1, trainAt := s.ticks } ∧
      (∀ l ∈ magLanes port, laneHasLock t l = false) ∧
      OnlyRegs { s with mag := t.mag, serial := t.serial } t ((magLanes port).map (fun l => (LANE_STATUS.LOCK l).addr))) ∧
  (∀ (s : State) (port : Fin 2) (c : Instr) (width : Fin 9) (both : Bool), magState s port = 2 →
    (magPort s port).attempts = 1 ∨ (magPort s port).attempts = 2 →
    (c = .magTrainTimeout port ∧ s.elapsedNs (magPort s port).trainAt 100000000 = true) ∨
      (c = .magLinkUp port 0 width both ∧ ((magPort s port).bifur = false ∨ both = true)) →
    ∃ t, exec c s = .next t ∧
      magPort t port = { magPort s port with attempts := (magPort s port).attempts + 1, trainAt := s.ticks } ∧
      OnlyRegs { s with mag := t.mag, serial := t.serial } t ((magLanes port).map (fun l => (LANE_STATUS.LOCK l).addr))) ∧
  (∀ (s : State) (port : Fin 2), magState s port = 2 → 3 ≤ (magPort s port).attempts →
    s.elapsedNs (magPort s port).trainAt 100000000 = true →
    ∃ t, exec (.magTrainTimeout port) s = .next t ∧ magState t port = 8 ∧ (magPort t port).take = none ∧
      ((t.fld (MAG_EVENT.EVENT port)).testBit 1 = true)) ∧
  (∀ (s : State) (port : Fin 2) (gen : Fin 4) (width : Fin 9) (both : Bool), magState s port = 2 →
    (magPort s port).bifur = false ∨ both = true → gen ≠ 0 →
    ∃ t, exec (.magLinkUp port gen width both) s = .next t ∧ magState t port = 3 ∧
      t.fld (MAG_STATUS.GEN port) = min (magGenCap s port) gen ∧ t.fld (MAG_STATUS.WIDTH port) = width.val ∧ SameMemory s t) ∧
  (∀ (s : State) (port : Fin 2) (n : Fin 7), magState s port = 3 →
    ∃ t, exec (.magMountComplete port (some n)) s = .next t ∧ magState t port = 8 ∧
      (t.fld (MAG_EVENT.EVENT port)).testBit 1 = true ∧ t.fld (MAG_STATUS.CTRLS port) = (magPort s port).ctrls.length % 4) ∧
  (∀ (s : State) (port : Fin 2) (d : Magazine) (c : NvmeController), magState s port = 3 → (magPort s port).plan = [] →
    (magPort s port).step ≠ 6 → (magPort s port).drive = some d → d.ctrls = [c] → d.media = [] → (magPort s port).bifur = false →
    ctrlOk c = true →
    ∃ t x w, exec (.magMountComplete port none) s = .next t ∧ magState t port = 3 ∧ (magPort t port).step = 6 ∧
      (magPort t port).sb = some x ∧ x.total = c.blocks ∧ x.nextAu = 0 ∧ x.takes = 0 ∧
      (magPort t port).cmds = (magPort s port).cmds ++ [w] ∧ w.use = .metadata ∧ w.fua = c.vwc ∧ w.data.2 = x.bytes) ∧
  (∀ (s : State) (port : Fin 2), magState s port = 3 → (magPort s port).plan = [] → (magPort s port).step = 6 →
    (magPort s port).pu < 90 → (magPort s port).crit.testBit 3 = false → port.val < s.mag.ports.length →
    ∃ t, exec (.magMountComplete port none) s = .next t ∧ magState t port = 4 ∧ (magPort t port).step = 7 ∧
      (t.fld (MAG_EVENT.EVENT port)).testBit 0 = true) ∧
  (∀ (s : State) (port : Fin 2), port.val < s.mag.ports.length →
    ∃ t, exec (.magRemoval port) s = .next t ∧ (magPort t port).drive = none ∧ (magPort t port).sb = none ∧
      magState t port = if magState s port = 0 then 0 else 1) ∧
  (∀ (s : State) (port : Fin 2), 3 ≤ magState s port → magState s port ≤ 7 →
    ∃ t, exec (.controllerFatalStatus port) s = .next t ∧ magState t port = 8 ∧ (magPort t port).take = none ∧
      (magPort t port).cmds = [])

/-- R307 to R309, R314, R319, R324, R327: a command that its queue has issued and that fails or times out for the first time is
issued again and counted; the last Write of a frame's record makes it done and counts the frame in the take; with the last
command of a stage the next stage begins, and with the last one of a close the take is closed; the poll reads the log of every
controller; a frame written to a magazine waits for it no longer; a take that closes takes no more frames. -/
def Obligations.MagazineCommandsAndTakes : Prop :=
  (∀ (s : State) (port : Fin 2) (n : Nat) (c : NvmeCmd) (d : SmartData), (magPort s port).cmds[n]? = some c → c.again = false →
    cmdIssued s port n = true →
    ∃ t, exec (.nvmeCompletion port n .error d) s = .next t ∧
      magPort t port = { magPort s port with cmds := modAt (magPort s port).cmds n (fun c => { c with again := true }) } ∧
      t.fld (MAG_CNT_ERR.ERRORS port) = min (2 ^ (MAG_CNT_ERR.ERRORS port).width - 1) (s.fld (MAG_CNT_ERR.ERRORS port) + 1) ∧
      OnlyRegs { s with mag := t.mag } t [(MAG_CNT_ERR.ERRORS port).addr]) ∧
  (∀ (s : State) (port : Fin 2) (n : Nat) (c : NvmeCmd), (magPort s port).cmds[n]? = some c → c.again = false →
    cmdIssued s port n = true →
    ∃ t, exec (.nvmeCommandTimeout port n) s = .next t ∧
      magPort t port = { magPort s port with cmds := modAt (magPort s port).cmds n (fun c => { c with again := true }) } ∧
      t.fld (MAG_CNT_ERR.TIMEOUTS port) =
        min (2 ^ (MAG_CNT_ERR.TIMEOUTS port).width - 1) (s.fld (MAG_CNT_ERR.TIMEOUTS port) + 1) ∧
      OnlyRegs { s with mag := t.mag } t [(MAG_CNT_ERR.TIMEOUTS port).addr]) ∧
  (∀ (s : State) (port : Fin 2) (c : NvmeCmd) (d : SmartData) (tk : Take) (r : MagRecord) (q : List MagRecord) (f : Nat),
    (magPort s port).cmds = [c] → c.use = .write → (magPort s port).take = some tk → (magPort s port).queue = r :: q →
    r.frame = some f → r.type = 1 → c.staged = false → cmdIssued s port 0 = true →
    ∃ t x, exec (.nvmeCompletion port 0 .success d) s = .next t ∧ (magPort t port).queue = { r with done := true } :: q ∧
      (magPort t port).cmds = [] ∧ (magPort t port).take = some x ∧ x.frames = tk.frames + 1 ∧ x.last = f ∧
      x.bytes = tk.bytes + 4096 * r.blocks ∧
      t = { s with mag := t.mag, ledger := { s.ledger with credits := t.ledger.credits } }) ∧
  (∀ (s : State) (port : Fin 2) (c : NvmeCmd) (d : SmartData) (st nx : MagStage) (l : List MagStage),
    (magPort s port).cmds = [c] → c.staged = true → c.use = .flush → (magPort s port).plan = st :: nx :: l → st.effect = .none →
    ∃ t, exec (.nvmeCompletion port 0 .success d) s = .next t ∧ (magPort t port).plan = nx :: l ∧
      (magPort t port).cmds = nx.cmds.map (fun x => { x with staged := true }) ∧ t = { s with mag := t.mag }) ∧
  (∀ (s : State) (port : Fin 2) (c : NvmeCmd) (d : SmartData) (st : MagStage), (magPort s port).cmds = [c] → c.staged = true →
    c.use = .metadata → (magPort s port).plan = [st] → st.effect = .closed → magState s port = 5 → port.val < s.mag.ports.length →
    ∃ t, exec (.nvmeCompletion port 0 .success d) s = .next t ∧ (magPort t port).take = none ∧ magState t port = 4 ∧
      t.flag (MAG_STATUS.TAKE_OPEN port) = false ∧ (magPort t port).cmds = []) ∧
  (∀ (s : State) (port : Fin 2), magState s port = 5 →
    ∃ t, exec (.magSmartPoll port) s = .next t ∧ t = { s with mag := t.mag } ∧
      ((magPort t port).cmds.filter (fun c => c.use == .smart)).length =
        ((magPort s port).cmds.filter (fun c => c.use == .smart)).length + (magPort s port).ctrls.length) ∧
  (∀ (s : State) (port : Fin 2) (r : MagRecord) (q : List MagRecord) (f : Nat), (magPort s port).queue = r :: q →
    r.frame = some f → r.done = true →
    ∃ t, exec (.magFrameWriteComplete port) s = .next t ∧ (∀ x ∈ t.ledger.frames, x.num = f → port.val ∉ x.await)) ∧
  (∀ (s : State), s.domainOn 23 = true → magTakes s 0 = true →
    ∃ t, exec .magTakeClose s = .next t ∧ magTakes t 0 = false ∧ magTakes t 1 = false) ∧
  (∀ (s : State), s.domainOn 23 = true → magTakes s 0 = false → magTakes s 1 = false →
    exec .magTakeClose s = .next (postRefused 11 MAG_TAKE_CTRL.CLOSE.addr (busOk 0 s))) ∧
  (∀ (s : State), ∃ t, exec .magTakeCloseTimeout s = .next t ∧ magTakes t 0 = false ∧ magTakes t 1 = false)

/-- R320, R323, R329, R330: an operation of MAG_OP that its rule allows begins, BUSY; at its end BUSY clears and DONE is set.
READ issues its commands, APPEND queues a record, ERASE needs privilege and enters ERASING, MOUNT trains the magazine again,
EJECT deletes the queues of a port that is up. An operation while one runs is refused. -/
def Obligations.MagazineOperations : Prop :=
  (∀ (s : State) (port : Fin 2) (ty : Fin 16) (x : Superblock), s.domainOn (23 + port.val) = true → magState s port = 4 →
    (magPort s port).op = none → (magPort s port).sb = some x → port.val < s.mag.ports.length →
    1 ≤ s.fld (MAG_OP_LEN.LEN port) → s.fld (MAG_OP_LEN.LEN port) ≤ 65536 → magOpAddr s port % 4096 = 0 →
    inDram s (magOpAddr s port) (4096 * s.fld (MAG_OP_LEN.LEN port)) = true →
    magOpLba s port + s.fld (MAG_OP_LEN.LEN port) ≤ x.total →
    ∃ t, exec (.read port ty) s = .next t ∧ t.flag (MAG_OP.BUSY port) = true ∧
      (magPort t port).op = some { op := 1, addr := dramOff (magOpAddr s port), lba := magOpLba s port,
                                   len := s.fld (MAG_OP_LEN.LEN port) } ∧
      (magPort t port).cmds = (magPort s port).cmds ++ writeChunks (magPort s port) .read (s.fld (MAG_OP_LEN.LEN port))
        (magOpLba s port) (s.fld (MAG_OP_LEN.LEN port)) ∧
      OnlyRegs { s with mag := t.mag } t [(MAG_OP.BUSY port).addr]) ∧
  (∀ (s : State) (port : Fin 2) (ty : Fin 16) (q : MagRecord) (qs : List MagRecord), s.domainOn (23 + port.val) = true →
    magRecording s port = true → (magPort s port).op = none → 2 ≤ ty.val → ty.val ≤ 4 →
    1 ≤ s.fld (MAG_OP_LEN.LEN port) → s.fld (MAG_OP_LEN.LEN port) ≤ 16777216 →
    inDram s (magOpAddr s port) (s.fld (MAG_OP_LEN.LEN port)) = true → (magPort s port).queue = q :: qs → q.placed = true →
    ∃ t, exec (.append port ty) s = .next t ∧ t.flag (MAG_OP.BUSY port) = true ∧
      (magPort t port).queue = (magPort s port).queue ++
        [newRecord ty (appendKey ty (s.dramBytes (dramOff (magOpAddr s port)) (s.fld (MAG_OP_LEN.LEN port))))
          (s.dramBytes (dramOff (magOpAddr s port)) (s.fld (MAG_OP_LEN.LEN port))) none 0] ∧
      (magPort t port).op.isSome = true ∧ SameMemory s t) ∧
  (∀ (s : State) (port : Fin 2) (ty : Fin 16), s.domainOn (23 + port.val) = true → magState s port = 4 →
    (magPort s port).op = none → (magPort s port).drive ≠ none → s.mode = 2 ∨ s.mode = 6 → privilege s = true →
    ∃ t, exec (.erase port ty) s = .next t ∧ magState t port = 9 ∧ t.flag (MAG_OP.BUSY port) = true ∧
      (magPort t port).sb = none ∧ (magPort t port).op.isSome = true ∧ SameMemory s t) ∧
  (∀ (s : State) (port : Fin 2) (ty : Fin 16), s.domainOn (23 + port.val) = true → magState s port = 4 →
    (magPort s port).op = none → (magPort s port).drive ≠ none → s.mode = 2 ∨ s.mode = 6 → privilege s = false →
    ∃ t u, exec (.erase port ty) s = .next t ∧ t = privRefused 11 0x10 u ∧ t.flag (MAG_OP.REFUSED port) = true ∧
      t.mag = s.mag) ∧
  (∀ (s : State) (port : Fin 2) (ty : Fin 16), s.domainOn (23 + port.val) = true → noTake s = true → (magPort s port).op = none →
    (magPort s port).drive ≠ none →
    ∃ t, exec (.mount port ty) s = .next t ∧ magState t port = 2 ∧ t.flag (MAG_OP.BUSY port) = true ∧
      (magPort t port).perst = true ∧ (magPort t port).op = some { op := 4, addr := 0, lba := 0, len := 0 }) ∧
  (∀ (s : State) (port : Fin 2) (ty : Fin 16), s.domainOn (23 + port.val) = true → noTake s = true → (magPort s port).op = none →
    port.val < s.mag.ports.length →
    ∃ t, exec (.eject port ty) s = .next t ∧ t.flag (MAG_OP.BUSY port) = true ∧
      magPort t port = shutDown s port { magPort s port with op := some { op := 5, addr := 0, lba := 0, len := 0 } } ∧
      OnlyRegs { s with mag := t.mag } t [(MAG_OP.BUSY port).addr]) ∧
  (∀ (s : State) (port : Fin 2) (ty : Fin 16) (o : MagOp), s.domainOn (23 + port.val) = true →
    (magPort s port).op = some o → ∀ c ∈ [Instr.read port ty, .append port ty, .erase port ty, .mount port ty, .eject port ty],
    ∃ t, exec c s = .next t ∧ t.flag (MAG_OP.REFUSED port) = true ∧ t.mag = s.mag ∧ SameMemory s t) ∧
  (∀ (s : State) (port : Fin 2) (o : MagOp), (magPort s port).op = some o →
    (o.op = 1 ∧ (∀ c ∈ (magPort s port).cmds, c.use ≠ .read)) ∨ ((o.op = 3 ∨ o.op = 5) ∧ (magPort s port).plan = []) ∨
      (o.op = 4 ∧ magState s port ≠ 2 ∧ magState s port ≠ 3) →
    ∃ t, exec (.magOpComplete port) s = .next t ∧ t.flag (MAG_OP.BUSY port) = false ∧ t.flag (MAG_OP.DONE port) = true ∧
      (magPort t port).op = none ∧ (o.op = 5 → magState t port = 0 ∧ (magPort t port).perst = false))

/-! ### Video coding -/

/-- R335, R339, R345, R347, R349: an enabled engine with a valid configuration and a source that is done begins its picture and
takes the source; a mosaic picture without a partner begins alone with HALF_MISSING, and a picture whose map is overdue begins
without it; a gang waits for engine 1. R332, R342, R348: a sample fits the stream's depth, a vector its window, a QP its range.
-/
def Obligations.EncoderPicturesBegin : Prop :=
  (∀ (s : State) (e : Fin 2) (c0 c1 : List CtuCost) (o : HeadOut) (w : List HeadOut) (dl dr : HeadDesc), heveGang s = 0 →
    heveOn s e = true → (heveEng s e).bad = false → heveCoding s e = false → (heveEng s e).held = [] →
    (heveEng s e).waiting = o :: w → srcDone s o = true → mapWaits s (heveRegs s e) (some o) = false →
    dl = parseHead (halfDesc s (some o) e) → dr = parseHead (halfDesc s none 1) →
    heveInvalid (heveRegs s e) 0 (heveOn s 1) (dl.ow, dl.oh, dl.format, dl.depth) (dr.ow, dr.oh, dr.format, dr.depth) = false →
    ∃ t p, exec (.hevePictureBegin e c0 c1) s = .next t ∧ (heveEng t e).pic = some p ∧ p.left = some o ∧ p.right = none ∧
      p.gang = 0 ∧ p.index = 0 ∧ p.epoch = s.fld CUE_EPOCH.EPOCH ∧ (heveEng t e).waiting = w ∧
      t.flag (HEVE_STATUS.BUSY e) = true) ∧
  (∀ (s : State) (c0 c1 : List CtuCost) (o : HeadOut) (w : List HeadOut) (dl dr : HeadDesc), heveGang s = 2 →
    (heveEng s 0).bad = false → (heveEng s 0).pic = none → (heveEng s 0).held = [] → (heveEng s 0).waiting = o :: w →
    (heveEng s 1).pic = none → (heveEng s 1).waiting = [] → srcDone s o = true → mapWaits s (heveRegs s 0) (some o) = false →
    dl = parseHead (halfDesc s (some o) 0) → dr = parseHead (halfDesc s none 1) →
    heveInvalid (heveRegs s 0) 2 (heveOn s 1) (dl.ow, dl.oh, dl.format, dl.depth) (dr.ow, dr.oh, dr.format, dr.depth) = false →
    ∃ t p, exec (.heveMosaicTimeout c0 c1) s = .next t ∧ (heveEng t 0).pic = some p ∧ p.left = some o ∧ p.right = none ∧
      p.gang = 2 ∧ t.flag (HEVE_EVENT.HALF_MISSING 0) = true ∧ t.flag (HEVE_STATUS.BUSY 0) = true) ∧
  (∀ (s : State) (e : Fin 2) (c0 c1 : List CtuCost) (o : HeadOut) (w : List HeadOut) (dl dr : HeadDesc), heveGang s = 0 →
    heveOn s e = true → (heveEng s e).bad = false → heveCoding s e = false → (heveEng s e).held = [] →
    (heveEng s e).waiting = o :: w → srcDone s o = true →
    dl = parseHead (halfDesc s (some o) e) → dr = parseHead (halfDesc s none 1) →
    heveInvalid (heveRegs s e) 0 (heveOn s 1) (dl.ow, dl.oh, dl.format, dl.depth) (dr.ow, dr.oh, dr.format, dr.depth) = false →
    ∃ t p, exec (.heveMapTimeout e c0 c1) s = .next t ∧ (heveEng t e).pic = some p ∧ p.left = some o ∧ p.index = 0 ∧
      (heveEng t e).waiting = w) ∧
  (∀ (s : State) (c0 c1 : List CtuCost), heveGang s ≠ 0 → heveCoding s 1 = true → exec (.hevePictureBegin 0 c0 c1) s = .next s) ∧
  (∀ (n d x : Nat), x < 2 ^ n → reduceSample n d x < 2 ^ d ∨ n ≤ d) ∧
  (∀ (cfg : List Word) (d : Nat) (idr first : Bool) (rc qp : Int),
    (qpRange cfg d).1 ≤ ctuQp cfg d idr first rc qp ∧ ctuQp cfg d idr first rc qp ≤ (qpRange cfg d).2) ∧
  (∀ (rate : Int × Int → Nat) (c : Int × Int), inWindow c (motionSearch rate c) = true)

/-- R352 to R354, R357 to R360, R445: a slice that is ready and takes no more bits than it is charged leaves the plan of its
picture, with the modes of its CTUs, unless the ring has no room; beyond the budget a CTU is in floor mode; the picture ends with the last one and is counted; the first
detection in a slice recodes it and makes the next picture an IDR picture, the second is a fault; CLEAR zeroes the counters.
Firmware moves the read pointer of an output ring that no stream drains, within the bytes written; any other value is ignored
with a warning. -/
def Obligations.EncoderSlicesAndOutputRing : Prop :=
  (∀ (s : State) (e : Fin 2) (lead : SliceOpen) (bytes : List Byte) (p : HevePic) (a b : SlicePlan) (r : List SlicePlan),
    (heveEng s e).pic = some p → p.slices = a :: b :: r → sliceReady s p a.lastRow = true →
    (heveEng s e).held = [] → refHit s p = false → 8 * bytes.length ≤ sliceRoom s p a →
    ∃ t q, exec (.heveSliceEmit e lead bytes) s = .next t ∧ (heveEng t e).pic = some q ∧ q.slices = b :: r ∧
      q.index = p.index + 1 ∧ q.hits = 0 ∧ p.bits + 8 * bytes.length ≤ q.bits ∧ q.coded = p.coded ++ sliceModes s p a) ∧
  (∀ (s : State) (e : Fin 2) (lead : SliceOpen) (bytes : List Byte) (p : HevePic) (a : SlicePlan) (r : List SlicePlan),
    (heveEng s e).pic = some p → p.slices = a :: r → refHit s p = false → sliceRoom s p a < 8 * bytes.length →
    exec (.heveSliceEmit e lead bytes) s = .next s) ∧
  (∀ (s : State) (e : Fin 2) (lead : SliceOpen) (bytes : List Byte), (heveEng s e).held ≠ [] →
    exec (.heveSliceEmit e lead bytes) s = .next s) ∧
  (∀ (s : State) (p : HevePic) (k i : Nat) (c : Nat × Nat), p.normal.getD k 0 ≤ i →
    ctuMode s p k i c = if p.intra then .intraDc else .skip) ∧
  (∀ (s : State) (e : Fin 2) (lead : SliceOpen) (bytes : List Byte) (p : HevePic) (a : SlicePlan), (heveEng s e).pic = some p →
    p.slices = [a] → sliceReady s p a.lastRow = true →
    (heveEng s e).held = [] → refHit s p = false → 8 * bytes.length ≤ sliceRoom s p a →
    ∃ t, exec (.heveSliceEmit e lead bytes) s = .next t ∧ (heveEng t e).pic = none ∧
      t.fld (HEVE_CNT_PIC.COUNT e) = min (2 ^ (HEVE_CNT_PIC.COUNT e).width - 1) (s.fld (HEVE_CNT_PIC.COUNT e) + 1)) ∧
  (∀ (s : State) (e : Fin 2) (p : HevePic), ((heveEng s 0).pic.map (fun x => x.gang)).getD 0 = 0 →
    (heveEng s e).pic = some p → p.hits = 0 →
    ∃ t, exec (.heveDetection e) s = .next t ∧
      heveEng t e = { heveEng s e with pic := some { p with hits := 1 }, idrNext := true } ∧
      t.flag (HEVE_EVENT.RECODE e) = true ∧ RegsBut s t ((HEVE_EVENT.RECODE e).addr :: eventRegs) ∧ SameMemory s t) ∧
  (∀ (s : State) (e : Fin 2) (p : HevePic), ((heveEng s 0).pic.map (fun x => x.gang)).getD 0 = 0 →
    (heveEng s e).pic = some p → p.hits = 1 →
    ∃ t, exec (.heveDetection e) s = .next t ∧
      heveEng t e = { heveEng s e with pic := some { p with hits := 2 }, idrNext := true } ∧
      t.flag (HEVE_EVENT.RECODE e) = true ∧ t.flag (HEVE_EVENT.ENC_FAULT e) = true) ∧
  (∀ (s : State) (e : Fin 2), ∃ t, exec (.heveCounterClear e) s = .next t ∧ t.fld (HEVE_CNT_PIC.COUNT e) = 0 ∧
      t.fld (HEVE_CNT_FLOOR.COUNT e) = 0 ∧ t.fld (HEVE_CNT_DROP.COUNT e) = 0 ∧
      OnlyRegs s t [(HEVE_CNT_PIC.COUNT e).addr, (HEVE_CNT_FLOOR.COUNT e).addr, (HEVE_CNT_DROP.COUNT e).addr]) ∧
  (∀ (s : State) (e : Fin 2) (v : Word), s.domainOn (17 + e.val) = true → netRingTaken s e = false →
    (s.fld (HEVE_OUT_WR.WR e) + 2 ^ 32 - v.toNat) % 2 ^ 32 ≤ heveRing s e → (heveEng s e).held = [] →
    ∃ t, exec (.heveOutRdWrite e v) s = .next t ∧ t.fld (HEVE_OUT_RD.RD e) = v.toNat ∧ t.heve = s.heve ∧
      OnlyRegs s t [(HEVE_OUT_RD.RD e).addr, (HEVE_STATUS.BUSY e).addr]) ∧
  (∀ (s : State) (e : Fin 2) (v : Word), s.domainOn (17 + e.val) = true → netRingTaken s e = true ∨
      heveRing s e < (s.fld (HEVE_OUT_WR.WR e) + 2 ^ 32 - v.toNat) % 2 ^ 32 →
    exec (.heveOutRdWrite e v) s = .next (postKind 4 8 e (HEVE_OUT_RD.RD e).addr (busOk 0 s)))

/-- R361, R362, R364, R367, R368: WR moves within the ring, and a value beyond it is ignored with a warning; an access unit
without a picture completes its entry; a sequence beyond the limits completes UNSUPPORTED; a picture whose budget ran out, and
not before, takes a free buffer and is counted as abandoned and concealed; the output FIFO gives indices in order; a buffer that
firmware holds returns; clearing EN empties the decoder. -/
def Obligations.DecoderRingBuffersAndFifo : Prop :=
  (∀ (s : State) (v : Word), s.domainOn 19 = true → (v.toNat + 2 ^ 32 - s.fld HEVD_IN_RD.RD) % 2 ^ 32 ≤ hevdEntries s →
    ∃ t, exec (.hevdInWrWrite v) s = .next t ∧ t.fld HEVD_IN_WR.WR = v.toNat) ∧
  (∀ (s : State) (v : Word), s.domainOn 19 = true → hevdEntries s < (v.toNat + 2 ^ 32 - s.fld HEVD_IN_RD.RD) % 2 ^ 32 →
    exec (.hevdInWrWrite v) s = .next (postKind 4 9 0xFF HEVD_IN_WR.WR.addr (busOk 0 s))) ∧
  (∀ (s : State), s.domainOn 19 = true → s.flag HEVD_STATUS.BUSY = true → inDram s (hevdEntry s) 32 = true →
    s.fld DRAM_MAP.FENCED = 0 → s.mem.trnOp = none → s.fld HEVD_IN_WR.WR = (s.fld HEVD_IN_RD.RD + 1) % 2 ^ 32 →
    ∃ t, exec (.hevdAuComplete .empty) s = .next t ∧ t.fld HEVD_IN_RD.RD = s.fld HEVD_IN_WR.WR ∧
      t.flag HEVD_STATUS.BUSY = false ∧
      t.dramBytes (dramOff (hevdEntry s) + 0x18) 8 = leBytes 4 (2 ^ 31) ++ leBytes 4 0xFFFFFFFF) ∧
  (∀ (s : State) (sps : SpsInfo) (ch dp w h dpb : Nat) (win : List Nat) (poc : Int) (samples : List Byte) (bufs : List HevdBuf),
    s.domainOn 19 = true → s.flag HEVD_STATUS.BUSY = true → hevdSpent s = true → hevdSupported sps ch dp w h = true →
    256 + hevdPitch w * (h + hevdChroma ch h) ≤ s.fld HEVD_OUT_STRIDE.BYTES → dpb + 1 ≤ hevdCount s →
    s.hevd.bufs = hevdBufFree :: bufs →
    ∃ t b, exec (.hevdBudgetExpire (.picture sps ch dp w h win poc [0] [] none samples true true true 0 0 dpb [])) s = .next t ∧
      t.hevd.bufs[0]? = some b ∧ b.pic = some poc ∧ b.ref = true ∧
      t.fld HEVD_CNT_PIC.COUNT = min (2 ^ HEVD_CNT_PIC.COUNT.width - 1) (s.fld HEVD_CNT_PIC.COUNT + 1) ∧
      t.fld HEVD_CNT_CONCEAL.COUNT = min (2 ^ HEVD_CNT_CONCEAL.COUNT.width - 1) (s.fld HEVD_CNT_CONCEAL.COUNT + 1) ∧
      t.fld HEVD_CNT_ABANDON.COUNT = min (2 ^ HEVD_CNT_ABANDON.COUNT.width - 1) (s.fld HEVD_CNT_ABANDON.COUNT + 1)) ∧
  (∀ (s : State) (au : AccessUnit), hevdSpent s = false → exec (.hevdBudgetExpire au) s = .next s) ∧
  (∀ (s : State) (sps : SpsInfo) (ch dp w h dpb ro la : Nat) (win : List Nat) (poc : Int) (lost : List Nat) (gen : List Int)
    (id : Option (List Byte)) (samples : List Byte) (x y z : Bool) (refs : List (Fin 32)), s.domainOn 19 = true →
    s.flag HEVD_STATUS.BUSY = true → hevdSupported sps ch dp w h = false →
    ∃ t, exec (.hevdAuComplete (.picture sps ch dp w h win poc lost gen id samples x y z ro la dpb refs)) s = .next t ∧
      t.flag HEVD_EVENT.UNSUPPORTED = true ∧ t.fld HEVD_CNT_CONCEAL.COUNT = s.fld HEVD_CNT_CONCEAL.COUNT) ∧
  (∀ (s : State) (k : Nat) (r : List Nat), s.domainOn 19 = true → s.hevd.fifo = k :: r →
    ∃ t, exec .hevdOutPop s = .next t ∧ t.sys.bus = { data := BitVec.ofNat 32 (2 ^ 31 + k), error := false } ∧
      t.hevd = { s.hevd with fifo := r } ∧ OnlyRegs { s with hevd := t.hevd } t [HEVD_STATUS.FIFO.addr]) ∧
  (∀ (s : State) (k : Fin 32) (b : HevdBuf), s.domainOn 19 = true → s.hevd.bufs[k.val]? = some b → b.out = true →
    k.val ∉ s.hevd.fifo →
    ∃ t, exec (.hevdOutRel k) s = .next t ∧ t.hevd.bufs[k.val]? = some { b with out := false } ∧ t.hevd.fifo = s.hevd.fifo ∧
      OnlyRegs { s with hevd := t.hevd } t [HEVD_STATUS.FIFO.addr]) ∧
  (∀ (s : State), s.domainOn 19 = true →
    ∃ t, exec .hevdDisable s = .next t ∧ t.flag HEVD_CTRL.EN = false ∧ t.flag HEVD_STATUS.BUSY = false ∧ t.hevd.fifo = [] ∧
      t.hevd.bufs = List.replicate (hevdCount s) hevdBufFree ∧
      OnlyRegs { s with hevd := t.hevd } t [HEVD_CTRL.EN.addr, HEVD_STATUS.BUSY.addr]) ∧
  (∀ (s : State), ∃ t, exec .hevdCounterClear s = .next t ∧ t.fld HEVD_CNT_PIC.COUNT = 0 ∧
      t.fld HEVD_CNT_CONCEAL.COUNT = 0 ∧ t.fld HEVD_CNT_ABANDON.COUNT = 0 ∧
      OnlyRegs s t [HEVD_CNT_PIC.COUNT.addr, HEVD_CNT_CONCEAL.COUNT.addr, HEVD_CNT_ABANDON.COUNT.addr])

/-! ### DRAM -/

/-- R373 to R375, R378, R380, R382, R383: a block whose stored code is poison answers poison, to a Company load with an access fault; a
re-read that is good is counted and makes the block good; one that is not makes the block bad and shows its address; a whole write makes
a block good, a partial one of a bad block poisons it; a group that is fenced or in training answers no re-read, and one in training
keeps a write waiting; an entry of the code buffer whose copies differ is stored as poison; a FIFO that
reaches its level begins an episode of panic, which ends past it; refreshes are postponed at most eight times; temperatures are kept;
tracking moves a delay at most 8 steps; WCK stops. -/
def Obligations.DramDetectionsAndUpkeep : Prop :=
  (∀ (s : State) (b : Nat) (good : Bool), 64 * b < dramSize s → dramBlocked s (64 * b) = false → b ∈ s.mem.poison →
    ∃ t, exec (.dramReread b good) s = .next t ∧ t.flag DRAM_EVENT.STORED = true ∧ t.mem.poison = s.mem.poison ∧
      t.mem.bad = s.mem.bad ∧ t = { s with regs := t.regs, mem := t.mem } ∧ RegsBut s t [DRAM_EVENT.STORED.addr]) ∧
  (∀ (s : State) (b : Nat), 64 * b < dramSize s → dramBlocked s (64 * b) = false → b ∉ s.mem.poison → b ∉ s.mem.bad →
    ∃ t, exec (.dramReread b true) s = .next t ∧ t.flag DRAM_EVENT.REREAD = true ∧ t.mem.bad = s.mem.bad ∧
      t.poisoned (64 * b) 64 = s.poisoned (64 * b) 64 ∧ SameMemory s t) ∧
  (∀ (s : State) (b : Nat), 64 * b < dramSize s → dramBlocked s (64 * b) = false → b ∉ s.mem.poison → b ∉ s.mem.bad →
    ∃ t, exec (.dramReread b false) s = .next t ∧ t.flag DRAM_EVENT.POISON = true ∧ t.mem.bad = s.mem.bad ++ [b] ∧
      t.poisoned (64 * b) 64 = true ∧
      t.fld DRAM_POISON_ADDR_LO.ADDR = (0x800000000 + 64 * b) / 64 % 2 ^ DRAM_POISON_ADDR_LO.ADDR.width ∧ SameMemory s t) ∧
  (∀ (s : State) (b : Nat), 64 * b < dramSize s → dramBlocked s (64 * b) = false → b ∉ s.mem.poison → b ∈ s.mem.bad →
    ∃ t, exec (.dramReread b true) s = .next t ∧ t.flag DRAM_EVENT.REREAD = true ∧ b ∉ t.mem.bad ∧ b ∉ t.mem.poison ∧
      SameMemory s t) ∧
  (∀ (s : State) (c : Fin 4) (addr : ReadAccess) (o : Nat),
    busTarget s (.company c) addr.addr.toNat (readBytes addr.size) = .dram o → dramBlocked s (64 * (o / 64)) = false →
    o / 64 ∈ s.mem.poison →
    ∃ t, exec (.lowWordRead (.company c) addr) s = .next t ∧ t.sys.bus.error = true ∧ t.flag DRAM_EVENT.STORED = true ∧
      SameMemory s t) ∧
  (∀ (s : State) (b : Nat) (good : Bool), dramBlocked s (64 * b) = true → exec (.dramReread b good) s = .next s) ∧
  (∀ (s : State) (a : Nat) (bs : List Byte), bs ≠ [] → a % 256 + bs.length ≤ 256 → dramTraining s a = true →
    dramFenced s a = false →
    (s.writeDram a bs).dram = s.dram ∧ (s.writeDram a bs).mem.held = s.mem.held ++ [{ at_ := a, bytes := bs, poison := false }]) ∧
  (∀ (s : State) (b : Nat), blockCheck s b =
    if b ∈ s.mem.poison then .stored else if b ∈ s.mem.bad then .other else .good) ∧
  (∀ (s : State) (b : Nat) (bs : List Byte), bs.length = 64 → dramBlocked s (64 * b) = false →
    b ∉ (s.writeDram (64 * b) bs).mem.poison ∧ b ∉ (s.writeDram (64 * b) bs).mem.bad ∧
      codeHeld (s.writeDram (64 * b) bs) b = true ∧ (s.writeDram (64 * b) bs).regs = s.regs) ∧
  (∀ (s : State) (a : Nat) (bs : List Byte), bs ≠ [] → a % 64 + bs.length < 64 → dramBlocked s (64 * (a / 64)) = false →
    a / 64 ∉ s.mem.poison → a / 64 ∈ s.mem.bad →
    a / 64 ∈ (s.writeDram a bs).mem.poison ∧ a / 64 ∉ (s.writeDram a bs).mem.bad ∧
      (s.writeDram a bs).flag DRAM_EVENT.POISON = true) ∧
  (∀ (s : State) (b : Nat), 64 * b < dramSize s → dramBlocked s (64 * b) = false → codeHeld s b = true →
    ∃ t, exec (.dramCodeWriteback [b]) s = .next t ∧ b ∈ t.mem.poison ∧ b ∉ t.mem.bad ∧ t.flag DRAM_EVENT.CODEBUF = true ∧
      t.mem.codeBuf = [] ∧ SameMemory s t) ∧
  (∀ (s : State), ∃ t, exec (.dramCodeWriteback []) s = .next t ∧ t = { s with mem := t.mem } ∧ t.mem.codeBuf = [] ∧
      t.mem.poison = s.mem.poison ∧ t.mem.bad = s.mem.bad) ∧
  (∀ (s : State) (p : Fin 8) (l : Nat), s.pending = [] → s.clock.next = [] → s.mem.panicAt.length = 8 →
    panicSince s p.val = none → panicLevel s p.val = some l → panicFrom p.val l (fifoOcc s p.val) = true →
    ∃ t, step s = .next t ∧ (t.fld DRAM_STATUS.PANIC).testBit p.val = true ∧ panicSince t p.val = some s.ticks ∧
      (s.fld DRAM_PANIC_CNT.EPISODES = 0 → t.flag DRAM_EVENT.PANIC = true)) ∧
  (∀ (s : State) (p : Fin 8) (l k : Nat), s.pending = [] → s.clock.next = [] → s.mem.panicAt.length = 8 →
    panicSince s p.val = some k → panicLevel s p.val = some l → panicOver p.val l (fifoOcc s p.val) = true →
    ∃ t, step s = .next t ∧ (t.fld DRAM_STATUS.PANIC).testBit p.val = false ∧ panicSince t p.val = none ∧
      min 0xFFFF ((s.ticks - k) / 400) ≤ t.fld DRAM_PANIC_CNT.MAX_US) ∧
  (∀ (s : State) (bank : Fin 512) (postpone : Bool),
    ∃ t, exec (.dramRefresh bank postpone) s = .next t ∧ t = { s with mem := t.mem } ∧
      (keyGet t.mem.postponed bank.val).getD 0 =
        if postpone = true ∧ (keyGet s.mem.postponed bank.val).getD 0 < 8 then (keyGet s.mem.postponed bank.val).getD 0 + 1
        else (keyGet s.mem.postponed bank.val).getD 0 - 1) ∧
  (∀ (s : State) (rates : List Nat), ∃ t, exec (.dramMr4Poll rates) s = .next t ∧ t = { s with mem := t.mem } ∧
      (∀ k, keyGet t.mem.mr4 k = rates[k]?)) ∧
  (∀ (s : State) (drift : List Int) (delay : Nat) (d : Int), drift[delay]? = some d → d ≠ 0 →
    ∃ t, exec (.dramOscTrack drift) s = .next t ∧
      (keyGet t.mem.tracked delay).getD 0 = max (-8) (min 8 ((keyGet s.mem.tracked delay).getD 0 + d)) ∧ SameMemory s t) ∧
  (∀ (s : State) (ch : Fin 16), ∃ t, exec (.dramWckStop ch) s = .next t ∧ ch.val ∈ t.mem.wckOff ∧ t = { s with mem := t.mem })

/-- R372, R389 to R391, R393 to R395: an offset splits into byte, burst, b, row and rank, and b is the bank issued XOR row[3:0];
the first COMMIT with at most one retired group maps the others; initialisation done shows after it; RETIRE set before COMMIT is
kept, and after it fences one group in Intermission; CLEAR zeroes the error counts. A training operation that is allowed, with
its records in scratch SRAM, starts, shows BUSY and takes its arguments; when the helper ends, BUSY clears, DONE is set, a write that waited for it
is done, and the record of each channel of a sweep or a VERIFY stands at its place, as MRR's does with the value that the device gives. A sweep
goes from FROM to TO in steps of STEP; its record names the ends of a longest passing run, or 0xFFFF where no value passed. -/
def Obligations.DramMapAndTraining : Prop :=
  (∀ (s : State) (o : Nat) (p : DramPlace), o < dramCc s → p = dramPlace s o →
    o = p.byte + 64 * p.burst + 2 ^ 11 * p.b + 2 ^ 15 * p.row + 2 ^ (15 + rowBits s) * p.rank ∧ p.byte < 64 ∧ p.burst < 32 ∧
      p.row < 2 ^ rowBits s ∧ p.bank < 16 ∧ p.bank ^^^ p.row % 16 = p.b ∧ p.bank = p.bankGroup + 4 * p.bankAddress) ∧
  (∀ (s : State) (retire : BitVec 4), s.mem.committed = false → s.fld DRAM_CFG.RATE ≤ 5 → s.fld DRAM_CFG.DENSITY ≤ 2 →
    s.fld DRAM_MAP.RETIRE ||| retire.toNat ∈ [0, 1, 2, 4, 8] →
    ∃ t, exec (.dramCommit retire) s = .next t ∧ t.mem.committed = true ∧ t.flag DRAM_STATUS.MAPPED = true ∧
      t.fld DRAM_STATUS.GROUPS = 15 - (s.fld DRAM_MAP.RETIRE ||| retire.toNat) ∧ t.dram = [] ∧
      t.mem.retired = (List.range 4).filter (fun g => (s.fld DRAM_MAP.RETIRE ||| retire.toNat).testBit g)) ∧
  (∀ (s : State) (retire : BitVec 4), s.mem.committed = true →
    exec (.dramCommit retire) s = .next (busOk 0 s)) ∧
  (∀ (s : State), s.mem.committed = true → ∃ t, exec .dramInitDone s = .next t ∧ t.flag DRAM_STATUS.INIT_DONE = true ∧
      OnlyRegs s t [DRAM_STATUS.INIT_DONE.addr]) ∧
  (∀ (s : State) (retire : BitVec 4), s.mem.committed = false → retire ≠ 0 →
    ∃ t, exec (.dramFence retire) s = .next t ∧ t.fld DRAM_MAP.RETIRE = s.fld DRAM_MAP.RETIRE ||| retire.toNat ∧
      OnlyRegs s t [DRAM_MAP.RETIRE.addr]) ∧
  (∀ (s : State) (g : Fin 4), s.mem.committed = true → s.mode = 6 → (s.fld DRAM_MAP.FENCED = 0 ∨ s.fld DRAM_MAP.FENCED = 2 ^ g.val) →
    g.val ∉ s.mem.retired →
    ∃ t, exec (.dramFence (BitVec.ofNat 4 (2 ^ g.val))) s = .next t ∧ t.fld DRAM_MAP.FENCED = 2 ^ g.val ∧
      t.flag DRAM_EVENT.FENCE = true) ∧
  (∀ (s : State), exec .dramCounterClear s =
    .next { s with sys := { s.sys with bus := { data := 0, error := false } }, mem := { s.mem with errors := [] } }) ∧
  (∀ (s : State) (rank : Fin 2) (ch : BitVec 16) (c : Instr) (op : Nat), s.domainOn 21 = true → s.mem.trnOp = none →
    trnAllowed s = true → s.fld DRAM_TRN_RESULT.ADDR % 64 = 0 → 0x01000000 ≤ s.fld DRAM_TRN_RESULT.ADDR →
    s.fld DRAM_TRN_RESULT.ADDR + 512 ≤ 0x01800000 →
    (c, op) ∈ [(Instr.init rank ch, 1), (.mrw rank ch, 2), (.mrr rank ch, 3), (.ca rank ch, 4), (.wck2ck rank ch, 5),
      (.wlev rank ch, 6), (.rdq rank ch, 7), (.wdq rank ch, 8), (.verify rank ch, 9)] →
    ∃ t, exec c s = .next t ∧ t.flag DRAM_TRN_CTRL.BUSY = true ∧ t.fld DRAM_TRN_CTRL.OP = op ∧
      t.fld DRAM_TRN_CTRL.RANK = rank.val ∧ t.fld DRAM_TRN_CTRL.CH = ch.toNat ∧ t.mem.trnOp = some op ∧
      t.mem.trnArgs = { rank := rank.val, arg := s.word DRAM_TRN_ARG.TO.addr, addr := s.fld DRAM_TRN_RESULT.ADDR,
                        val := trnVal s % 256 } ∧
      OnlyRegs { s with mem := t.mem } t [DRAM_TRN_CTRL.GO.addr]) ∧
  (∀ (s : State) (rank : Fin 2) (ch : BitVec 16) (op : Nat), s.domainOn 21 = true → s.mem.trnOp = some op →
    ∃ t, exec (.verify rank ch) s = .next t ∧ t.flag DRAM_TRN_CTRL.REFUSED = true ∧ t.mem = s.mem) ∧
  (∀ (s : State) (records : List TrnRecord) (op : Nat), s.mem.trnOp = some op → s.mem.trnCh < 2 ^ 16 → 4 ≤ op →
    ∃ t, exec (.dramTrnDone records) s = .next t ∧ t.mem.trnOp = none ∧ t.flag DRAM_TRN_CTRL.BUSY = false ∧
      t.flag DRAM_TRN_CTRL.DONE = true ∧ t.mem.held = [] ∧
      (s.mem.held = [] → RegsBut s t [DRAM_TRN_CTRL.BUSY.addr, DRAM_STATUS.DRIFT.addr]) ∧
      (∀ c : Fin 16, s.mem.trnCh.testBit c.val = true →
        t.scratchBytes (s.mem.trnArgs.addr - 0x01000000 + 32 * c.val) 32 =
          recordTrn op (sweepValues s.mem.trnArgs.arg) (records.getD c trnNone) 0)) ∧
  (∀ (s : State) (records : List TrnRecord) (c : Fin 16) (r : TrnRecord), s.mem.trnOp = some 3 → s.mem.trnCh = 2 ^ c.val →
    records[c.val]? = some r → keyGet s.mem.modeRegs (trnRegister c s) = none →
    ∃ t, exec (.dramTrnDone records) s = .next t ∧
      (t.scratchBytes (s.mem.trnArgs.addr - 0x01000000 + 32 * c.val) 32).getD 0x11 0 = r.mr) ∧
  (∀ (s : State) (records : List TrnRecord) (op : Nat) (w : HeldWrite), s.mem.trnOp = some op → op ≠ 9 → s.mem.held = [w] →
    w.poison = false → s.fld DRAM_MAP.FENCED = 0 →
    ∃ t, exec (.dramTrnDone records) s = .next t ∧ t.dramBytes w.at_ w.bytes.length = w.bytes) ∧
  (∀ (arg : Word), (∀ v ∈ sweepValues arg, written arg DRAM_TRN_ARG.FROM ≤ v ∧
      v ≤ max (written arg DRAM_TRN_ARG.FROM) (written arg DRAM_TRN_ARG.TO) ∧
      (v - written arg DRAM_TRN_ARG.FROM) % max 1 (written arg DRAM_TRN_ARG.STEP) = 0) ∧
    written arg DRAM_TRN_ARG.FROM ∈ sweepValues arg) ∧
  (∀ (l : List (Nat × Nat)) (tie : Nat), (passRuns l).flatten = (l.filter (fun e => e.2 = 0)).map (fun e => e.1) ∧
    (passRuns l = [] → passEnds (passRuns l) tie = (0xFFFF, 0xFFFF)) ∧
    (passRuns l ≠ [] → ∃ r ∈ passRuns l, r.head? = some (passEnds (passRuns l) tie).1 ∧
      r.getLast? = some (passEnds (passRuns l) tie).2 ∧ ∀ q ∈ passRuns l, q.length ≤ r.length))

/-! ### Serial lanes -/

/-- R398 to R401, R408 to R410, R419: a lane without lock, in training too, that finds 64 valid headers locks; one that loses lock is
counted and its receiver returns to its table values; a PCIe link on which no lane aligns again fails; a lane that never locks
sets NO_LOCK. A loopback or pattern that R409 allows is taken, and no other; a lane that leaves its loopback starts again without
lock, and the link that ran on it is down; CLEAR zeroes the pattern checker or the loss and revert counts of every lane. -/
def Obligations.LanesLockAndLoop : Prop :=
  (∀ (s : State) (l : Fin 26), laneLive s l = true → laneHasLock s l = false → laneRetired s l = false →
    ∃ t, exec (.laneLock l) s = .next t ∧ laneHasLock t l = true ∧ t.flag (LANE_EVENT.LOCKED l) = true ∧
      OnlyRegs { s with serial := t.serial } t [(LANE_STATUS.LOCK l).addr, (LANE_EVENT.LOCKED l).addr]) ∧
  (∀ (s : State) (l : Fin 26) (relocked : BitVec 8), laneRuns s l = true → laneHasLock s l = true →
    s.flag (LANE_STATUS.RX_SLEEP l) = false → l.val < s.serial.lanes.length → 16 ≤ l.val → (l.val < 24 → kUp s ((l.val - 16) / 4) = false) →
    (24 ≤ l.val → netUp s (l.val - 24) = false) →
    ∃ t, exec (.laneLockLost l relocked) s = .next t ∧ laneHasLock t l = false ∧ t.flag (LANE_EVENT.LOCK_LOST l) = true ∧
      t.fld (LANE_CNT.LOSSES l) = min (2 ^ (LANE_CNT.LOSSES l).width - 1) (s.fld (LANE_CNT.LOSSES l) + 1) ∧
      (laneOf t l).moved = List.replicate 6 0 ∧
      OnlyRegs { s with serial := t.serial } t [(LANE_STATUS.LOCK l).addr, (LANE_EVENT.LOCK_LOST l).addr,
        (LANE_CNT.LOSSES l).addr, (LANE_EQ.TX_PRE l).addr, (LANE_DFE.TAPS l).addr]) ∧
  (∀ (s : State) (l : Fin 26), l.val < 16 → laneRuns s l = true → laneHasLock s l = true → magState s (l.val / 8) ≠ 2 →
    s.flag (LANE_STATUS.RX_SLEEP l) = false → ∃ t, exec (.laneLockLost l 0) s = .next t ∧ magState t (l.val / 8) = 8) ∧
  (∀ (s : State) (l : Fin 26) (τ : Nat), laneLive s l = true → laneHasLock s l = false → laneRetired s l = false →
    s.flag (LANE_STATUS.RX_SLEEP l) = false → (laneOf s l).huntAt = some τ →
    s.elapsedNs τ (max 1 (s.fld LANE_COMMON_LOCK_TO.US) * 1000) = true →
    ∃ t, exec (.laneNoLockTimeout l) s = .next t ∧ t.flag (LANE_EVENT.NO_LOCK l) = true ∧
      RegsBut s t ((LANE_EVENT.NO_LOCK l).addr :: eventRegs) ∧ SameMemory s t) ∧
  (∀ (s : State) (l : Fin 26) (v : Word), laneOn s l = true → loopAllowed s l = true → bits v.toNat 18 16 ∈ [1, 2, 3] →
    ∃ t, exec (.laneLoopWrite l v) s = .next t ∧ t.fld (LANE_STATUS.LOOP l) = bits v.toNat 18 16 ∧
      t.fld (LANE_LOOP.MODE l) = bits v.toNat 18 16 ∧ t.fld (LANE_LOOP.GEN l) = bits v.toNat 14 12 ∧
      t.fld (LANE_LOOP.CHK l) = bits v.toNat 10 8 ∧
      OnlyRegs s t [(LANE_STATUS.LOOP l).addr, (LANE_LOOP.MODE l).addr, (LANE_PRBS_ERR.SYNC l).addr]) ∧
  (∀ (s : State) (l : Fin 26) (v : Word), laneOn s l = true → loopAllowed s l = false → bits v.toNat 18 16 ≠ 0 →
    exec (.laneLoopWrite l v) s = .next (postKind 4 13 l (LANE_LOOP.MODE l).addr (busOk 0 s))) ∧
  (∀ (s : State) (l : Fin 26), laneOn s l = true → s.fld (LANE_STATUS.LOOP l) ≠ 0 →
    (l.val < 16 → magState s (l.val / 8) = 4 → ∃ t, exec (.laneLoopWrite l 0) s = .next t ∧ magState t (l.val / 8) = 8) ∧
    (16 ≤ l.val → l.val < 24 → kUp s ((l.val - 16) / 4) = true →
      ∃ t, exec (.laneLoopWrite l 0) s = .next t ∧ kState t ((l.val - 16) / 4) = 1 ∧ (t.fld KLINK_EVENT.EVENT).testBit 4 = true) ∧
    (24 ≤ l.val → netUp s (l.val - 24) = true → ∃ t, exec (.laneLoopWrite l 0) s = .next t ∧ netUp t (l.val - 24) = false ∧
      laneHasLock t l = (laneHasLock s l && !laneRuns s l))) ∧
  (∀ (s : State) (l : Fin 26), laneOn s l = true → laneRuns s l = true → s.fld (LANE_STATUS.LOOP l) ≠ 0 →
    (l.val < 16 → magState s (l.val / 8) ∉ [3, 4, 5, 6, 7, 9]) → (16 ≤ l.val → l.val < 24 → kUp s ((l.val - 16) / 4) = false) →
    (24 ≤ l.val → netUp s (l.val - 24) = false) →
    ∃ t, exec (.laneLoopWrite l 0) s = .next t ∧ t.fld (LANE_STATUS.LOOP l) = 0 ∧ t.fld (LANE_LOOP.MODE l) = 0 ∧
      laneHasLock t l = false ∧ t.fld (LANE_STATUS.RATE l) = s.fld (LANE_STATUS.RATE l) ∧ SameMemory s t) ∧
  (∀ (s : State) (l : Fin 26), laneOn s l = true →
    ∃ t, exec (.lanePrbsClear l) s = .next t ∧ t.flag (LANE_PRBS_ERR.SYNC l) = false ∧
      t.fld (LANE_PRBS_ERR.ERRORS l) = 0 ∧ OnlyRegs s t [(LANE_PRBS_ERR.SYNC l).addr]) ∧
  (∀ (s : State), ∃ t, exec .laneCounterClear s = .next t ∧
      (∀ l : Fin 26, t.fld (LANE_CNT.LOSSES l) = 0 ∧ t.fld (LANE_CNT.REVERTS l) = 0) ∧
      OnlyRegs s t ((List.range 26).map (fun l => (LANE_CNT.LOSSES l).addr)))

/-- R402 to R407: a port whose lanes may sleep sends 4 SLEEP blocks on all of them and then idles, each noting when; a receiver goes to sleep with its lock; a
wake request sends the wake burst on every active lane of the port, once 100 ns of idle have passed, and is held before; a Kurnarik
lane hunts for lock on signal, and one that finds none within 1 µs counts as having lost it. -/
def Obligations.LanesSleepAndWake : Prop :=
  (∀ (s : State) (l : Fin 26), maySleep s l = true → s.serial.lanes.length = 26 →
    ∃ t, exec (.laneSleepEntry l) s = .next t ∧
      (∀ k ∈ activeLanes s l, t.flag (LANE_STATUS.TX_SLEEP k) = true ∧ (laneOf t k).sleepAt = some s.ticks ∧
        (laneOf t k).wakeHeld = false ∧ (laneOf t k).sent = if l.val < 16 then [.idleOrderedSet] else [.sleep 4]) ∧
      OnlyRegs { s with serial := t.serial } t ((activeLanes s l).map (fun k => (LANE_STATUS.TX_SLEEP k).addr))) ∧
  (∀ (s : State) (l : Fin 26), l.val < 24 → laneRuns s l = true → laneHasLock s l = true →
    ∃ t, exec (.laneRxSleep l) s = .next t ∧ t.flag (LANE_STATUS.RX_SLEEP l) = true ∧ laneHasLock t l = true ∧
      OnlyRegs s t [(LANE_STATUS.RX_SLEEP l).addr]) ∧
  (∀ (s : State) (l : Fin 26) (c : Instr), s.serial.lanes.length = 26 → idleOver s l = true →
    (c = .laneWake l ∧ s.flag (LANE_STATUS.TX_SLEEP l) = true) ∨ (c = .laneWakeHoldEnd l ∧ (laneOf s l).wakeHeld = true) →
    ∃ t, exec c s = .next t ∧
      (∀ k ∈ activeLanes s l, t.flag (LANE_STATUS.TX_SLEEP k) = false ∧ (laneOf t k).sleepAt = none ∧
        (laneOf t k).wakeHeld = false ∧ ((kport s ((l.val - 16) / 4)).resend ≠ some true →
          (laneOf t k).sent = if l.val < 16 then [.exitOrderedSet] else [.wakePattern 1024, .idle 64])) ∧
      OnlyRegs { s with serial := t.serial, klink := t.klink, ledger := t.ledger } t
        ((activeLanes s l).map (fun k => (LANE_STATUS.TX_SLEEP k).addr))) ∧
  (∀ (s : State) (l : Fin 26), s.serial.lanes.length = 26 → s.flag (LANE_STATUS.TX_SLEEP l) = true → idleOver s l = false →
    ∃ t, exec (.laneWake l) s = .next t ∧ (∀ k ∈ activeLanes s l, (laneOf t k).wakeHeld = true) ∧
      t = { s with serial := t.serial }) ∧
  (∀ (s : State) (l : Fin 26), s.flag (LANE_STATUS.RX_SLEEP l) = true → 16 ≤ l.val → l.val < s.serial.lanes.length →
    ∃ t, exec (.signalDetect l) s = .next t ∧ t.flag (LANE_STATUS.RX_SLEEP l) = false ∧ laneHasLock t l = false ∧
      (laneOf t l).signalAt = some s.ticks ∧
      OnlyRegs { s with serial := t.serial } t [(LANE_STATUS.RX_SLEEP l).addr]) ∧
  (∀ (s : State) (l : Fin 26), s.flag (LANE_STATUS.RX_SLEEP l) = true → l.val < 16 →
    ∃ t, exec (.signalDetect l) s = .next t ∧ t.flag (LANE_STATUS.RX_SLEEP l) = false ∧
      laneHasLock t l = laneHasLock s l ∧ OnlyRegs s t [(LANE_STATUS.RX_SLEEP l).addr]) ∧
  (∀ (s : State) (l : Fin 26) (τ : Nat), 16 ≤ l.val → l.val < 24 → kUp s ((l.val - 16) / 4) = false →
    (laneOf s l).signalAt = some τ → s.elapsedNs τ 1000 = true → laneHasLock s l = false →
    ∃ t, exec (.laneWakeFail l) s = .next t ∧ t.flag (LANE_EVENT.WAKE_FAIL l) = true ∧
      t.flag (LANE_EVENT.LOCK_LOST l) = true ∧ laneHasLock t l = false ∧ (laneOf t l).signalAt = none ∧
      t.fld (LANE_CNT.LOSSES l) = min (2 ^ (LANE_CNT.LOSSES l).width - 1) (s.fld (LANE_CNT.LOSSES l) + 1))

/-- R413 to R417: an interval shows its figure of merit and whether it was frozen; a frozen one takes no step; two below the
floor return the receiver to its table values; no step leaves 3 steps from the table, and one that did not raise the figure of
merit is undone; the pattern checker of a lane without a link counts too (R410); a PCIe lane keeps the first preset that reaches the floor, else the best one. -/
def Obligations.LanesAdaptAndEqualise : Prop :=
  (∀ (s : State) (l : Fin 26) (fom : Fin 256) (sufficient lastOk synced : Bool) (errors : Nat), laneOn s l = true → laneRuns s l = true →
    ∃ t, exec (.laneFomInterval l fom sufficient lastOk synced errors) s = .next t ∧ t.fld (LANE_STATUS.FOM l) = fom.val ∧
      t.flag (LANE_STATUS.ENTROPY_OK l) = lastOk ∧
      t.flag (LANE_STATUS.FROZEN l) = (!sufficient || s.flag (LANE_STATUS.RX_SLEEP l) || !laneHasLock s l) ∧
      (sufficient = false → t.serial = s.serial) ∧ SameMemory s t) ∧
  (∀ (s : State) (l : Fin 26) (fom : Fin 256) (sufficient lastOk : Bool) (errors : Nat), laneOn s l = true → laneRuns s l = false →
    s.fld (LANE_LOOP.CHK l) ∈ [1, 2, 3, 4] →
    ∃ t, exec (.laneFomInterval l fom sufficient lastOk true errors) s = .next t ∧ t.flag (LANE_PRBS_ERR.SYNC l) = true ∧
      t.fld (LANE_PRBS_ERR.ERRORS l) = min (2 ^ (LANE_PRBS_ERR.ERRORS l).width - 1) (s.fld (LANE_PRBS_ERR.ERRORS l) + errors) ∧
      (errors ≠ 0 → t.flag (LANE_EVENT.PRBS_ERR l) = true) ∧
      OnlyRegs s t [(LANE_PRBS_ERR.SYNC l).addr, (LANE_EVENT.PRBS_ERR l).addr]) ∧
  (∀ (s : State) (l : Fin 26) (fom : Fin 256) (lastOk synced : Bool) (errors : Nat), laneOn s l = true → laneRuns s l = true →
    laneHasLock s l = true → s.flag (LANE_STATUS.RX_SLEEP l) = false → l.val < s.serial.lanes.length →
    fom.val < fomFloor s l (laneTable s l) → (laneOf s l).low = true →
    ∃ t, exec (.laneFomInterval l fom true lastOk synced errors) s = .next t ∧ (laneOf t l).moved = List.replicate 6 0 ∧
      (laneOf t l).trial = none ∧ (laneOf t l).holdoff = some s.ticks ∧ t.flag (LANE_EVENT.REVERT l) = true ∧
      t.fld (LANE_CNT.REVERTS l) = min (2 ^ (LANE_CNT.REVERTS l).width - 1) (s.fld (LANE_CNT.REVERTS l) + 1)) ∧
  (∀ (s : State) (l : Fin 26) (fom : Fin 256) (lastOk synced : Bool) (errors : Nat), laneOn s l = true → laneRuns s l = true →
    laneHasLock s l = true → s.flag (LANE_STATUS.RX_SLEEP l) = false → l.val < s.serial.lanes.length →
    fomFloor s l (laneTable s l) ≤ fom.val → s.flag (LANE_CFG.ADAPT_EN l) = true → (laneOf s l).holdoff = none →
    ∃ t, exec (.laneFomInterval l fom true lastOk synced errors) s = .next t ∧
      (laneOf t l).moved = (nextTrial (laneTable s l) (judgeTrial fom (laneOf s l))).moved) ∧
  (∀ (r : LaneRec) (x : Lane), (∀ m ∈ x.moved, -3 ≤ m ∧ m ≤ 3) → ∀ m ∈ (nextTrial r x).moved, -3 ≤ m ∧ m ≤ 3) ∧
  (∀ (x : Lane) (k fom : Nat), x.trial = some k → k < x.moved.length → k < x.up.length → fom ≤ x.lastFom →
    (judgeTrial fom x).trial = none ∧ (judgeTrial fom x).up[k]? = (x.up[k]?).map (fun u => !u) ∧
      (judgeTrial fom x).moved.getD k 0 = x.moved.getD k 0 - (if x.up.getD k true then 1 else -1)) ∧
  (∀ (s : State) (l : Fin 26) (rate : Fin 3) (fom : Fin 256) (r : LaneRec), l.val < 16 → s.domainOn (laneDomain l) = true →
    l.val < s.serial.lanes.length → r = (laneRecord s l rate).getD (laneDefault l rate) →
    (laneOf s l).preset.isSome = true → fomFloor s l r ≤ fom.val →
    ∃ t, exec (.pcieEqPresetTrial l rate fom) s = .next t ∧ (laneOf t l).preset = some r.preset ∧
      (laneOf t l).eq = [(r.preset, fom.val)] ∧ t.flag (LANE_STATUS.EQ_LOW l) = false ∧
      OnlyRegs { s with serial := t.serial } t [(LANE_STATUS.EQ_LOW l).addr]) ∧
  (∀ (s : State) (l : Fin 26) (rate : Fin 3) (fom : Fin 256) (r : LaneRec), l.val < 16 → s.domainOn (laneDomain l) = true →
    l.val < s.serial.lanes.length → r = (laneRecord s l rate).getD (laneDefault l rate) → (laneOf s l).preset = none →
    (laneOf s l).eq.length = r.alts.length → fom.val < fomFloor s l r →
    ∃ t p f, exec (.pcieEqPresetTrial l rate fom) s = .next t ∧ (laneOf t l).preset = some p ∧ (p, f) ∈ (laneOf t l).eq ∧
      (∀ e ∈ (laneOf t l).eq, e.2 ≤ f) ∧ t.flag (LANE_STATUS.EQ_LOW l) = true ∧ t.flag (LANE_EVENT.EQ_LOW l) = true)

/-! ### Ethernet and device time -/

/-- R422 to R426, R435, R452: an enabled port whose lane has lock comes up; one that loses its link goes down, and on the servo
port holdover begins; the write count of a ring moves within the ring and no further; an entry completes with its error while
the link is down. A frame of a transmit entry whose turn it is goes out padded to 60 bytes, with its FCS, and its entry is written
back; in a near-end loopback the port receives its own frames (R408); a received frame with a wrong check sequence is dropped and counted; one that passes the filter is stored in the buffer of the
entry at RD, with its length and its marks in the entry; without an entry it is lost and counted. -/
def Obligations.EthernetLinksRingsAndFrames : Prop :=
  (∀ (s : State) (p : Fin 2), netOn s p = true → netUp s p = false → s.flag (LANE_STATUS.LOCK (ethLane p)) = true →
    ∃ t, exec (.netLinkUp p) s = .next t ∧ netUp t p = true ∧ (t.fld (NET_EVENT.EVENT p)).testBit 1 = true ∧
      RegsBut s t ([(NET_STATUS.LINK p).addr, (NET_EVENT.EVENT p).addr] ++ eventRegs) ∧ SameMemory s t) ∧
  (∀ (s : State) (p : Fin 2), netUp s p = true →
    ∃ t, exec (.netLinkDown p) s = .next t ∧ netUp t p = false ∧ (t.fld (NET_EVENT.EVENT p)).testBit 0 = true ∧
      (servoPort s = p.val → t.flag TIME_STATUS.HOLDOVER = true ∧ (t.fld TIME_STATUS.CAUSE).testBit 1 = true) ∧
      RegsBut s t ([(NET_STATUS.LINK p).addr, (NET_EVENT.EVENT p).addr, TIME_STATUS.HOLDOVER.addr, TIME_EVENT.EVENT.addr] ++
        eventRegs) ∧ SameMemory s t) ∧
  (∀ (s : State) (p : Fin 2) (rx : Bool) (v : Word), s.domainOn 26 = true → s.mode ≠ 7 →
    (v.toNat + 2 ^ 32 - s.fld (if rx then NET_RX_RD.RD p else NET_TX_RD.RD p)) % 2 ^ 32 ≤ netRingSize s p rx →
    ∃ t, exec (.netTxWrWrite p rx v) s = .next t ∧ t.fld (if rx then NET_RX_WR.WR p else NET_TX_WR.WR p) = v.toNat ∧
      OnlyRegs s t [(if rx then NET_RX_WR.WR p else NET_TX_WR.WR p).addr]) ∧
  (∀ (s : State) (p : Fin 2) (rx : Bool) (v : Word), s.domainOn 26 = true → s.mode ≠ 7 →
    netRingSize s p rx < (v.toNat + 2 ^ 32 - s.fld (if rx then NET_RX_RD.RD p else NET_TX_RD.RD p)) % 2 ^ 32 →
    exec (.netTxWrWrite p rx v) s =
      .next (postKind 4 14 p (if rx then NET_RX_WR.WR p else NET_TX_WR.WR p).addr (busOk 0 s))) ∧
  (∀ (s : State) (p : Fin 2), s.domainOn 26 = true → s.mode ≠ 7 → netEntryWaits s p false = true → netUp s p = false →
    inMem s (netEntryAt s p false + 0x10) 8 = true → s.fld DRAM_MAP.FENCED = 0 → s.mem.trnOp = none →
    ∃ t, exec (.netTxFrame p) s = .next t ∧ t.fld (NET_TX_RD.RD p) = (s.fld (NET_TX_RD.RD p) + 1) % 2 ^ 32 ∧
      t.memBytes (netEntryAt s p false + 0x10) 8 = leBytes 4 (2 ^ 31 + 2) ++ leBytes 4 0 ∧ t.net = s.net) ∧
  (∀ (s : State) (p : Fin 2) (e : List Byte), s.domainOn 26 = true → s.mode ≠ 7 → netEntryWaits s p false = true →
    netUp s p = true → netHostTurn s p = true → netNearLoop s p = false → netReplaced s p = false →
    e = s.memBytes (netEntryAt s p false) 32 → leAt e 10 2 = 0 →
    14 ≤ leAt e 8 2 → leAt e 8 2 ≤ clamp 1514 9216 (s.fld (NET_CFG.MAXLEN p)) → p.val < s.net.ports.length →
    inMem s (netEntryAt s p false + 0x10) 8 = true → s.fld DRAM_MAP.FENCED = 0 → s.mem.trnOp = none →
    ∃ t, exec (.netTxFrame p) s = .next t ∧ t.fld (NET_TX_RD.RD p) = (s.fld (NET_TX_RD.RD p) + 1) % 2 ^ 32 ∧
      (netPort t p).wire = withFcs (s.memBytes (leAt e 0 8) (leAt e 8 2)) ∧
      (withFcs (s.memBytes (leAt e 0 8) (leAt e 8 2))).length = max 60 (leAt e 8 2) + 4 ∧
      t.memBytes (netEntryAt s p false + 0x10) 8 = leBytes 4 (2 ^ 31) ++ leBytes 4 0) ∧
  (∀ (s : State) (p : Fin 2) (bytes own : List Byte) (ok : Bool) (rest : List (List Byte)), netOn s p = true → netUp s p = true →
    s.mode ≠ 7 → netNearLoop s p = true → (netPort s p).looped = own :: rest →
    exec (.netRxFrame p bytes ok) s =
      .next (netReceive p own true (modNet p (fun n => { n with looped := rest }) s))) ∧
  (∀ (s : State) (p : Fin 2) (bytes : List Byte), netOn s p = true → netUp s p = true → s.mode ≠ 7 →
    s.fld (LANE_STATUS.LOOP (ethLane p)) = 0 → p.val < s.net.ports.length →
    ∃ t, exec (.netRxFrame p bytes false) s = .next t ∧ t = { s with net := t.net } ∧
      keyGet (netPort t p).counts 2 = some (satAdd (2 ^ 32 - 1) ((keyGet (netPort s p).counts 2).getD 0) 1)) ∧
  (∀ (s : State) (p : Fin 2) (bytes e : List Byte), netOn s p = true → netUp s p = true → s.mode ≠ 7 →
    s.fld (LANE_STATUS.LOOP (ethLane p)) = 0 → netDiscard p bytes true s = none → etherType bytes ≠ 0x88B5 → netEntryWaits s p true = true →
    e = s.memBytes (netEntryAt s p true) 32 → inMem s (netEntryAt s p true + 0x10) 8 = true → s.fld DRAM_MAP.FENCED = 0 → s.mem.trnOp = none →
    inMem s (leAt e 0 8) (bytes.take (leAt e 8 2)).length = true →
    (leAt e 0 8 + leAt e 8 2 ≤ netEntryAt s p true + 0x10 ∨ netEntryAt s p true + 0x18 ≤ leAt e 0 8) →
    ∃ t, exec (.netRxFrame p bytes true) s = .next t ∧ t.fld (NET_RX_RD.RD p) = (s.fld (NET_RX_RD.RD p) + 1) % 2 ^ 32 ∧
      t.memBytes (leAt e 0 8) (bytes.take (leAt e 8 2)).length = bytes.take (leAt e 8 2) ∧
      t.memBytes (netEntryAt s p true + 0x10) 4 = leBytes 4 (2 ^ 31 + 2 ^ 18 * boolNat (decide (leAt e 8 2 < bytes.length)) +
        2 ^ 17 * boolNat (isPtp bytes) + 2 ^ 16 + bytes.length % 2 ^ 16)) ∧
  (∀ (s : State) (p : Fin 2) (bytes : List Byte), netOn s p = true → netUp s p = true → s.mode ≠ 7 →
    s.fld (LANE_STATUS.LOOP (ethLane p)) = 0 → netDiscard p bytes true s = none → etherType bytes ≠ 0x88B5 → netEntryWaits s p true = false →
    p.val < s.net.ports.length →
    ∃ t, exec (.netRxFrame p bytes true) s = .next t ∧ (t.fld (NET_EVENT.EVENT p)).testBit 3 = true ∧
      keyGet (netPort t p).counts 5 = some (satAdd (2 ^ 32 - 1) ((keyGet (netPort s p).counts 5).getD 0) 1) ∧
      OnlyRegs { s with net := t.net } t [(NET_EVENT.EVENT p).addr])

/-- R444, R445, R447: the next datagram of a stream whose turn it is goes out and the stream moves on in its object; with the link down
the object is over; in Midnight a wanted frame fills the first free window slot, or is counted, and a slot with GO is sent. -/
def Obligations.StreamsAndKeepAliveFrames : Prop :=
  (∀ (s : State) (k : Fin 4) (o : NetObject) (x : NetStream) (n : Nat), x = netStream s k → x.ok = true →
    s.domainOn 26 = true → s.mode ≠ 7 → netObject s x = some o → netUp s x.eth = true → netReady s x = true →
    netStreamTurn s k = true → netNearLoop s x.eth = false → netReplaced s x.eth = false → k.val < s.net.streams.length → s.net.ports.length = 2 →
    n = min x.payload (o.total - x.off) → x.off + n < o.total →
    ∃ t, exec (.streamDatagram k) s = .next t ∧ (netStream t k).seq = (x.seq + 1) % 2 ^ 32 ∧ (netStream t k).off = x.off + n ∧
      (netStream t k).obj = x.obj ∧ (∃ pad, (netPort t x.eth).wire = datagram x o (s.dramBytes (o.addr + x.off) n) ++ pad) ∧
      SameMemory s t) ∧
  (∀ (s : State) (k : Fin 4) (o : NetObject) (x : NetStream), x = netStream s k → x.ok = true →
    s.domainOn 26 = true → s.mode ≠ 7 → netObject s x = some o → netUp s x.eth = false → k.val < s.net.streams.length →
    ∃ t, exec (.streamDatagram k) s = .next t ∧ netStream t k = { x with obj := (x.obj + 1) % 2 ^ 32, off := 0 } ∧
      (t.fld (NET_EVENT.EVENT x.eth)).testBit 4 = true) ∧
  (∀ (s : State) (bytes : List Byte) (i : Nat), s.mode = 7 → s.flag TIME_KA_CTRL.EN = true → netUp s 0 = true →
    netDiscard 0 bytes true s = none → kaWants bytes = true → kaFree s = some i →
    ∃ t, exec (.keepaliveRx bytes true) s = .next t ∧
      kaWord t (256 * i) = 2 ^ 31 + 2 ^ 30 * boolNat (decide (248 < bytes.length)) + bytes.length % 2 ^ 16 ∧
      readList 0 t.clock.ka (256 * i + 8) (min 248 bytes.length) = bytes.take 248 ∧
      t = { s with net := t.net, clock := { s.clock with ka := t.clock.ka } }) ∧
  (∀ (s : State) (bytes : List Byte), s.mode = 7 → s.flag TIME_KA_CTRL.EN = true → netUp s 0 = true →
    netDiscard 0 bytes true s = none → kaWants bytes = true → kaFree s = none →
    ∃ t, exec (.keepaliveRx bytes true) s = .next t ∧
      t.fld TIME_KA_STATUS.DROPS = min (2 ^ TIME_KA_STATUS.DROPS.width - 1) (s.fld TIME_KA_STATUS.DROPS + 1) ∧
      OnlyRegs { s with net := t.net } t [TIME_KA_STATUS.DROPS.addr]) ∧
  (∀ (s : State) (j : Fin 4) (len : Nat), s.mode = 7 → s.flag TIME_KA_CTRL.EN = true → netUp s 0 = true → 14 ≤ len → len ≤ 248 →
    netNearLoop s 0 = false → netReplaced s 0 = false →
    kaWord s (0x800 + 256 * j.val) = 2 ^ 31 + len → s.net.ports.length = 2 →
    ∃ t, exec (.keepaliveTx j) s = .next t ∧ kaWord t (0x800 + 256 * j.val) = 2 ^ 30 + len ∧
      (netPort t 0).wire = withFcs (readList 0 s.clock.ka (0x800 + 256 * j.val + 8) len))

/-- R430, R433, R435, R447: an increment waits for the next tick, held to the bounds of R433; a read of the nanoseconds latches
the seconds. HOLD, a watch that expires and a keep-alive link that does not come up begin holdover with their cause; RELEASE
ends it while the servo port's link is up and REFCLK is there, and is refused otherwise. -/
def Obligations.IncrementAndHoldover : Prop :=
  (∀ (s : State) (v : Word) (n : Nat), n = bits v.toNat 11 8 * 2 ^ 40 + bits v.toNat 7 0 * 2 ^ 32 + s.fld TIME_INCR_LO.FRAC →
    ∃ t, exec (.timeIncrWrite v) s = .next t ∧ t.clock.next = s.clock.next ++ [.incr (max incrLow (min incrHigh n))] ∧
      incrWritten t = n ∧ t.time = s.time ∧
      (incrLow ≤ n → n ≤ incrHigh →
        OnlyRegs { s with clock := { s.clock with next := t.clock.next, watchFrom := s.ticks } } t [TIME_INCR_HI.NS.addr])) ∧
  (∀ (s : State), ∃ t, exec .timeNowRead s = .next t ∧ t.sys.bus = { data := BitVec.ofNat 32 s.time.ns, error := false } ∧
      t.fld TIME_NOW_SEC_LO.SEC + 2 ^ 32 * t.fld TIME_NOW_SEC_HI.SEC = s.time.sec.toNat ∧
      OnlyRegs s t [TIME_NOW_SEC_LO.SEC.addr, TIME_NOW_SEC_HI.SEC.addr]) ∧
  (∀ (s : State) (c : Instr) (bit : Nat), (c = .hold ∧ bit = 3) ∨
      (c = .timeWatchExpire ∧ bit = 2 ∧ s.fld TIME_CTRL.WATCH_MS ≠ 0 ∧
        s.elapsedNs s.clock.watchFrom (s.fld TIME_CTRL.WATCH_MS * 1000000) = true) ∨
      (c = .keepaliveLinkTimeout ∧ bit = 1 ∧ s.mode = 7 ∧ netUp s 0 = false ∧
        s.elapsedNs s.clock.kaFrom 1000000000 = true) →
    ∃ t, exec c s = .next t ∧ t.flag TIME_STATUS.HOLDOVER = true ∧ (t.fld TIME_STATUS.CAUSE).testBit bit = true ∧
      (s.flag TIME_STATUS.HOLDOVER = false → (t.fld TIME_EVENT.EVENT).testBit 2 = true) ∧ t.clock = s.clock ∧
      t.time = s.time ∧ RegsBut s t ([TIME_STATUS.HOLDOVER.addr, TIME_EVENT.EVENT.addr] ++ eventRegs) ∧ SameMemory s t) ∧
  (∀ (s : State), netUp s (servoPort s) = true → s.flag TIME_STATUS.RC_CLK = false →
    ∃ t, exec .release s = .next t ∧ t.flag TIME_STATUS.HOLDOVER = false ∧ t.fld TIME_STATUS.CAUSE = 0 ∧
      (t.fld TIME_EVENT.EVENT).testBit 3 = true ∧ OnlyRegs s t [TIME_STATUS.HOLDOVER.addr, TIME_EVENT.EVENT.addr]) ∧
  (∀ (s : State), netUp s (servoPort s) = false ∨ s.flag TIME_STATUS.RC_CLK = true →
    ∃ t, exec .release s = .next t ∧ t.flag TIME_STATUS.HOLDOVER = s.flag TIME_STATUS.HOLDOVER ∧
      t.fld TIME_STATUS.CAUSE = s.fld TIME_STATUS.CAUSE ∧ (t.fld TIME_EVENT.EVENT).testBit 1 = true)

/-- R438 to R440: the pulse output asserts while it is enabled and time is valid, and ends; an edge of the input is captured 10
ns early and none within half a second of it; two valid words in a row lock the timecode input and an invalid one unlocks it; an
output word carries the sync word and the frame's first digit. -/
def Obligations.PulsesAndTimecode : Prop :=
  (∀ (s : State), s.flag TIME_PPS_CTRL.OUT_EN = true → s.flag TIME_STATUS.VALID = true →
    secondsAdvanced s = true → exec .ppsOutAssert s = .next { s with clock := { s.clock with ppsOut := true, ppsFrom := s.ticks } }) ∧
  (∀ (s : State), s.elapsedNs s.clock.ppsFrom (max 1 (min 999 (s.fld TIME_PPS_CTRL.WIDTH_MS)) * 1000000) = true →
    exec .ppsOutEnd s = .next { s with clock := { s.clock with ppsOut := false } }) ∧
  (∀ (s : State) (time : Nat), s.flag TIME_PPS_CTRL.IN_EN = true → (∀ l ∈ s.clock.ppsLast, s.elapsedNs l 500000000 = true) →
    ∃ t, exec (.ppsInEdge time) s = .next t ∧ (10 ≤ time → t.fld TIME_PPS_IN.T32 = (time - 10) % 2 ^ 32) ∧
      (t.fld TIME_EVENT.EVENT).testBit 6 = true ∧ t.clock = { s.clock with ppsLast := some s.ticks } ∧
      OnlyRegs { s with clock := t.clock } t [TIME_PPS_IN.T32.addr, TIME_EVENT.EVENT.addr]) ∧
  (∀ (s : State) (time l : Nat), s.clock.ppsLast = some l → s.elapsedNs l 500000000 = false → exec (.ppsInEdge time) s = .next s) ∧
  (∀ (s : State) (w : BitVec 64), s.flag TIME_LTC_CTRL.IN_EN = true → 1 ≤ s.clock.ltcRun →
    ∃ t, exec (.ltcInWord w true) s = .next t ∧ t.flag TIME_STATUS.LTC_LOCK = true ∧
      t.fld TIME_LTC_IN_LO.VALUE + 2 ^ 32 * t.fld TIME_LTC_IN_HI.VALUE = w.toNat ∧
      t.fld TIME_LTC_IN_NS.VALUE = s.nowNs % 2 ^ 32 ∧ (t.fld TIME_EVENT.EVENT).testBit 7 = true ∧ t.clock.ltcRun = 2) ∧
  (∀ (s : State) (w : BitVec 64), s.flag TIME_LTC_CTRL.IN_EN = true →
    ∃ t, exec (.ltcInWord w false) s = .next t ∧ t.flag TIME_STATUS.LTC_LOCK = false ∧
      t.clock = { s.clock with ltcRun := 0 } ∧ OnlyRegs { s with clock := t.clock } t [TIME_STATUS.LTC_LOCK.addr]) ∧
  (∀ (s : State) (code n : Nat), s.flag TIME_LTC_CTRL.OUT_EN = true → code = s.fld TIME_LTC_CTRL.RATE →
    n = ltcFrame code (((s.time.sec.toNat : Int) + toSigned 32 (s.fld TIME_LTC_OFFSET.SEC)) % 86400).toNat
      (s.time.ns * 2 ^ 40 + s.time.frac.toNat) →
    ltcStarts s = true → ∃ t, exec .ltcOutWord s = .next t ∧ t = { s with clock := { s.clock with ltcOut := t.clock.ltcOut } } ∧
      t.clock.ltcOut / 2 ^ 64 = 0xBFFC ∧ t.clock.ltcOut % 16 = n % ltcRate code % 10)

/-! ### The pair and the Kurnarik link -/

/-- R467, R469, R472: a port that is enabled trains at once when no attempt has failed, aligns and sends HELLO, and falls back
to DOWN after 10 ms, when its deskew is lost, or on RETRAIN; in UP it sends ALIGN again after every 4,096 blocks; a
HELLO that fits brings it UP and forms the pair with the role that R451 gives, one that comes before the own HELLO is kept, and one
that does not fit ends the attempt. -/
def Obligations.KurnarikPortsTrainAndFail : Prop :=
  (∀ (s : State) (p : Fin 2), kState s p = 1 → kEnabled s p = true → (kport s p).failAt = none →
    ∃ t, exec (.klinkTrainStart p) s = .next t ∧ kState t p = 2 ∧
      (∀ l ∈ klLanes p, t.fld (LANE_STATUS.RATE l) = 3 ∧ laneHasLock t l = false) ∧
      (s.serial.lanes.length = 26 → ∀ l ∈ klLanes p, (laneOf t l).sent = wakeBurst) ∧ SameMemory s t) ∧
  (∀ (s : State) (p : Fin 2), kState s p = 2 → p.val < s.klink.ports.length → (kport s p).hello = none →
    ∃ t, exec (.klinkAlignSend p) s = .next t ∧ (kport t p).helloOut = true ∧
      (kport t p).wire = flitBytes { kport s p with rxmask := kLocked s p } (kport s p).nextSeq
        (.hello (ownHeartbeat s false) (topo s)) ∧
      (s.serial.lanes.length = 26 → ∀ l ∈ klLanes p, (laneOf t l).sent = [.align]) ∧
      t = { s with klink := t.klink, serial := t.serial }) ∧
  (∀ (s : State) (p : Fin 2), kUp s p = true → kAsleep s p = false → p.val < s.klink.ports.length →
    s.elapsedNs (kport s p).alignAt 8448 = true → s.serial.lanes.length = 26 →
    ∃ t, exec (.klinkAlignSend p) s = .next t ∧ (∀ l ∈ kActive s p, (laneOf t l).sent = [.align]) ∧
      kport t p = { kport s p with alignAt := s.ticks } ∧ t = { s with klink := t.klink, serial := t.serial }) ∧
  (∀ (s : State) (p : Fin 2), kState s p = 2 → s.elapsedNs (kport s p).trainAt 10000000 = true →
    ∃ t, exec (.klinkTrainTimeout p) s = .next t ∧ kState t p = 1 ∧ (t.fld KLINK_EVENT.EVENT).testBit 4 = true) ∧
  (∀ (s : State) (p : Fin 2), kUp s p = true →
    ∃ t, exec (.klinkDeskewLost p) s = .next t ∧ kState t p = 1 ∧ (t.fld KLINK_EVENT.EVENT).testBit 4 = true) ∧
  (∀ (s : State), s.domainOn 25 = true → kUp s 0 = true ∨ kUp s 1 = true →
    ∃ t, exec .retrain s = .next t ∧ (∀ p : Fin 2, kUp s p = true → kState t p = 1)) ∧
  (∀ (s : State) (p : Fin 2) (h : FlitHeader) (hb : Heartbeat) (topology : Fin 4) (pref : Bool), kState s p = 2 →
    h.crcOk = true → hb.pairId = s.fld KLINK_PAIR.PAIR_ID → topology.val = topo s → (kport s p).helloOut = true →
    kLocked s p ≠ 0 → p.val < s.klink.ports.length → s.flag KLINK_STATUS.FORMED = false →
    ∃ t, exec (.helloFlit p h hb topology pref) s = .next t ∧ kUp t p = true ∧ t.flag KLINK_STATUS.FORMED = true ∧
      t.klink.formedOnce = true ∧
      t.flag KLINK_STATUS.PRIN = !partnerWins { s with klink := { s.klink with partnerPref := pref } } hb) ∧
  (∀ (s : State) (p : Fin 2) (h : FlitHeader) (hb : Heartbeat) (topology : Fin 4) (pref : Bool), kState s p = 2 →
    h.crcOk = true → hb.pairId ≠ s.fld KLINK_PAIR.PAIR_ID ∨ topology.val ≠ topo s →
    ∃ t, exec (.helloFlit p h hb topology pref) s = .next t ∧ kState t p = 1 ∧
      (t.fld KLINK_EVENT.EVENT).testBit 7 = true) ∧
  (∀ (s : State) (p : Fin 2) (h : FlitHeader) (hb : Heartbeat) (topology : Fin 4) (pref : Bool), kState s p = 2 →
    h.crcOk = true → hb.pairId = s.fld KLINK_PAIR.PAIR_ID → topology.val = topo s → (kport s p).helloOut = false →
    p < s.klink.ports.length →
    ∃ t, exec (.helloFlit p h hb topology pref) s = .next t ∧ kState t p = 2 ∧ (kport t p).hello = some hb ∧
      t.klink.partnerPref = pref)

/-- R452 to R457: the heartbeat goes out on Ethernet too where it is enabled; one that is received clears the missed count and
shows its path and sender; the miss that reaches HB_MISS makes an Understudy take over, formed or not, and isolates a
Principal; a leaving Principal is taken over from at once; YIELD sends three leaving heartbeats and waits for the partner. -/
def Obligations.HeartbeatsAndRoles : Prop :=
  (∀ (s : State), s.domainOn 25 = true → topo s ≠ 0 → s.klink.started = true → s.net.ports.length = 2 →
    ∃ t, exec .heartbeatSend s = .next t ∧ t.flag KLINK_STATUS.HB_KL = s.klink.beatKl ∧
      t.flag KLINK_STATUS.HB_ETH = s.klink.beatEth ∧ t.klink.hbSeq = (s.klink.hbSeq + 1) % 2 ^ 32 ∧
      t.klink.beatKl = false ∧ t.klink.beatEth = false ∧
      (s.flag KLINK_PAIR.HB_ETH_EN = true → netUp s (s.fld KLINK_PAIR.HB_ETH) = true →
        netNearLoop s (s.fld KLINK_PAIR.HB_ETH) = false → netReplaced s (s.fld KLINK_PAIR.HB_ETH) = false →
        ∃ pad, (netPort t (s.fld KLINK_PAIR.HB_ETH)).wire = List.replicate 6 0xFF ++ netMac s (s.fld KLINK_PAIR.HB_ETH) ++
          [0x88, 0xB5] ++ heartbeatBytes (ownHeartbeat s false) ++ pad) ∧
      t = { s with regs := t.regs, net := t.net, klink := t.klink } ∧ RegsBut s t [KLINK_STATUS.HB_KL.addr]) ∧
  (∀ (s : State) (h : FlitHeader) (hb : Heartbeat), s.domainOn 25 = true → topo s ≠ 0 → s.klink.started = true →
    hb.pairId = s.fld KLINK_PAIR.PAIR_ID → s.flag KLINK_STATUS.FORMED = true → hb.leaving = false →
    s.klink.yielding = false →
    ∃ t, exec (.heartbeatReceive none h hb) s = .next t ∧ t.klink.missed = 0 ∧ t.klink.beatEth = true ∧
      t.flag KLINK_STATUS.HB_ETH = true ∧
      (∀ i : Fin 4, t.fld (KLINK_PARTNER_ID.ID i) = leAt (padTo 16 hb.id) (4 * i) 4) ∧
      t = { s with regs := t.regs, klink := t.klink } ∧
      RegsBut s t (KLINK_STATUS.HB_ETH.addr :: (List.range 4).map (fun i => (KLINK_PARTNER_ID.ID i).addr))) ∧
  (∀ (s : State) (h : FlitHeader) (hb : Heartbeat), s.domainOn 25 = true → topo s ≠ 0 → s.klink.started = true →
    hb.pairId = s.fld KLINK_PAIR.PAIR_ID → hb.leaving = true → s.flag KLINK_STATUS.PRIN = false →
    ∃ t, exec (.heartbeatReceive none h hb) s = .next t ∧ t.flag KLINK_STATUS.PRIN = true ∧
      t.flag KLINK_STATUS.FORMED = false ∧
      t.fld KLINK_TERM.TERM = min (2 ^ KLINK_TERM.TERM.width - 1) (s.fld KLINK_TERM.TERM + 1) ∧
      (t.fld KLINK_EVENT.EVENT).testBit 0 = true) ∧
  (∀ (s : State), s.domainOn 25 = true → topo s ≠ 0 → s.klink.started = true →
    s.klink.missed + 1 < max 2 (s.fld KLINK_CTRL.HB_MISS) →
    ∃ t, exec .heartbeatMissedPeriod s = .next t ∧ t.klink.missed = s.klink.missed + 1 ∧
      t.flag KLINK_STATUS.HB_KL = false ∧ t.flag KLINK_STATUS.HB_ETH = false ∧
      t = { s with regs := t.regs, klink := t.klink } ∧ RegsBut s t [KLINK_STATUS.HB_KL.addr]) ∧
  (∀ (s : State), s.domainOn 25 = true → topo s ≠ 0 → s.klink.started = true →
    s.klink.missed + 1 = max 2 (s.fld KLINK_CTRL.HB_MISS) →
    s.flag KLINK_STATUS.FORMED = true ∨ s.flag KLINK_STATUS.PRIN = false ∨ s.flag KLINK_STATUS.ISOLATED = false →
    ∃ t, exec .heartbeatMissedPeriod s = .next t ∧ t.flag KLINK_STATUS.PRIN = true ∧ t.flag KLINK_STATUS.FORMED = false ∧
      (s.flag KLINK_STATUS.PRIN = true → t.flag KLINK_STATUS.ISOLATED = true ∧ t.fld KLINK_TERM.TERM = s.fld KLINK_TERM.TERM) ∧
      (s.flag KLINK_STATUS.PRIN = false →
        t.fld KLINK_TERM.TERM = min (2 ^ KLINK_TERM.TERM.width - 1) (s.fld KLINK_TERM.TERM + 1))) ∧
  (∀ (s : State), s.domainOn 25 = true → s.flag KLINK_STATUS.PRIN = true → s.flag KLINK_STATUS.FORMED = true →
    ∃ t, exec .yield s = .next t ∧ t.klink.yielding = true ∧ t.klink.hbSeq % 2 ^ 32 = (s.klink.hbSeq + 3) % 2 ^ 32 ∧
      t.klink.left.length = 3 ∧ (∀ x ∈ t.klink.left, x.leaving = true ∧ x.role = 0) ∧ t.regs = s.regs) ∧
  (∀ (s : State) (h : FlitHeader) (hb : Heartbeat), s.domainOn 25 = true → topo s ≠ 0 → s.klink.started = true →
    hb.pairId = s.fld KLINK_PAIR.PAIR_ID → s.flag KLINK_STATUS.FORMED = true → s.flag KLINK_STATUS.PRIN = true →
    s.klink.yielding = true → hb.role = 0 → hb.term < 2 ^ 32 →
    ∃ t, exec (.heartbeatReceive none h hb) s = .next t ∧ t.flag KLINK_STATUS.PRIN = false ∧
      t.fld KLINK_TERM.TERM = max hb.term (s.fld KLINK_TERM.TERM) ∧ t.klink.yielding = false)

/-- R458 to R463, R468 to R471: a flit with a bad CRC is counted and answered with NAK and does nothing else; a good one
acknowledges the flits before its ACK; NAK and an ACK that does not advance resend what is not acknowledged, and the sixteenth
resend takes the port DOWN; an unknown type counts as a sequence error and does nothing else; a sequenced flit out of order is counted and answered with NAK, and
neither it nor its header acts. A TIME flit
keeps its departure and arrival and gives the partner's offset; a TRIG flit is an event of the combiner at its converted time; a
CUESEL flit fires the entry of its number whose source is the partner; a DISP entry is kept with the local frame that matches,
or counted. Each acts once, in sequence; `u` is the state once the header has acted. -/
def Obligations.FlitsAreCheckedAndAct : Prop :=
  (∀ (s : State) (p : Fin 2) (h : FlitHeader) (known : Bool), kUp s p = true → h.crcOk = false →
    p.val < s.klink.ports.length →
    ∃ t, exec (.klinkFlitReceive p h known) s = .next t ∧ kport t p = { kport s p with nakDue := true } ∧
      t = { s with klink := t.klink }) ∧
  (∀ (s : State) (p : Fin 2) (h : FlitHeader) (n : Nat), kUp s p = true → h.crcOk = true → h.nak = false →
    h.rxmask.toNat = (kport s p).txmask → (kport s p).queue = [] → p.val < s.klink.ports.length →
    n ≤ (kport s p).replay.length → (kport s p).replay.length ≤ 512 →
    (h.ack.toNat + (kport s p).replay.length + 1) % 2 ^ 32 = ((kport s p).nextSeq + n) % 2 ^ 32 →
    ∃ t, exec (.klinkFlitReceive p h true) s = .next t ∧ (kport t p).replay = (kport s p).replay.drop n ∧
      keyGet t.klink.counts (p.val * 16 + 1) =
        some (satAdd (2 ^ 32 - 1) ((keyGet s.klink.counts (p.val * 16 + 1)).getD 0) 1) ∧ t.regs = s.regs) ∧
  (∀ (s : State) (p : Fin 2) (h : FlitHeader), kUp s p = true → h.crcOk = true →
    ∃ t, exec (.klinkFlitReceive p h false) s = .next t ∧ kport t p = kport s p ∧ t = { s with klink := t.klink } ∧
      keyGet t.klink.counts (p.val * 16 + 3) =
        some (satAdd (2 ^ 32 - 1) ((keyGet s.klink.counts (p.val * 16 + 3)).getD 0) 1)) ∧
  (∀ (s : State) (p : Fin 2) (c : Instr) (h : FlitHeader), kUp s p = true → p.val < s.klink.ports.length →
    (kport s p).replay ≠ [] → (kport s p).replay.length ≤ 512 → (kport s p).stuck + 1 < 16 →
    (c = .klinkAckTimeout p ∧ s.elapsedNs (kport s p).ackAt 2000 = true) ∨ (c = .klinkNak p h ∧ h.crcOk = true ∧ h.rxmask.toNat = (kport s p).txmask ∧
      (h.ack.toNat + (kport s p).replay.length + 1) % 2 ^ 32 = (kport s p).nextSeq % 2 ^ 32) →
    ∃ t, exec c s = .next t ∧ (kport t p).stuck = (kport s p).stuck + 1 ∧
      (∃ more, (kport t p).replay = (kport s p).replay ++ more) ∧ (t.fld KLINK_EVENT.EVENT).testBit 6 = true ∧
      kUp t p = true) ∧
  (∀ (s : State) (p : Fin 2), kUp s p = true → (kport s p).replay ≠ [] → (kport s p).stuck + 1 = 16 →
    s.elapsedNs (kport s p).ackAt 2000 = true → ∃ t, exec (.klinkAckTimeout p) s = .next t ∧ kState t p = 1) ∧
  (∀ (s : State) (p : Fin 2) (h : FlitHeader) (entry : Fin 16), kUp s p = true → h.crcOk = true →
    p.val < s.klink.ports.length → h.seq.toNat ≠ ((kport s p).rxAck + 1) % 2 ^ 32 →
    ∃ t, exec (.cueselFlit p h entry) s = .next t ∧ kport t p = { kport s p with nakDue := true } ∧
      t = { s with klink := t.klink }) ∧
  (∀ (s : State) (p : Fin 2), kUp s p = true → p.val < s.klink.ports.length → kAsleep s p = false →
    ∃ t, exec (.klinkTimeSend p) s = .next t ∧ t = { s with klink := t.klink } ∧
      (kport t p).wire = flitBytes (kport s p) (kport s p).nextSeq (.time s.nowNs (kport s p).timeDep (kport s p).timeArr)) ∧
  (∀ (s : State) (p : Fin 2) (h : FlitHeader) (own dep arr : Nat), kUp s p = true → h.crcOk = true → h.nak = false →
    h.rxmask.toNat = (kport s p).txmask → p.val < s.klink.ports.length → dep ≠ 0 →
    ∃ t, exec (.klinkTimeReceive p h own dep arr) s = .next t ∧ (kport t p).timeDep = own ∧
      (kport t p).timeArr = s.nowNs ∧
      t.fld KLINK_OFFSET.NS = ofSigned 32 ((((arr : Int) - dep) + ((own : Int) - s.nowNs) + 1) / 2) ∧
      t = { s with regs := t.regs, klink := t.klink, ledger := t.ledger, serial := t.serial } ∧ RegsBut s t [KLINK_OFFSET.NS.addr]) ∧
  (∀ (s : State) (p : Fin 2) (h : FlitHeader), kUp s p = true → h.crcOk = true → h.nak = false →
    h.rxmask.toNat = (kport s p).txmask → p.val < s.klink.ports.length → h.seq.toNat = ((kport s p).rxAck + 1) % 2 ^ 32 →
    ∃ u, (kport u p).rxAck = h.seq.toNat ∧
      u = { s with klink := u.klink, serial := u.serial, ledger := { s.ledger with credits := u.ledger.credits } } ∧
      (∀ (output : Fin 4) (time : Nat) (streams : List (Fin 16 × Nat)),
        exec (.trigFlit p h output time streams) s =
          .next (combineWith (streams.map (fun e => (e.1.val, toLocal s (nearNow s e.2))))
            [(85 + output.val, toLocal s time)] (toLocal s time) u)) ∧
      (∀ entry : Fin 16, s.flag (CUE_SEL.EN entry) = true → s.fld (CUE_SEL.SRC entry) = 3 →
        exec (.cueselFlit p h entry) s = .next (selFire entry u)) ∧
      (∀ (num fs : Nat) (src : BitVec 8) (disp : Fin 16) (f : Frame),
        matchFrame s src.toNat (toLocal s (nearNow s fs)) = some f →
        ∃ t, exec (.dispFlit p h [(num, fs, src, disp)]) s = .next t ∧
          ∀ x ∈ t.ledger.frames, x.num = f.num → x.partner = some disp.val) ∧
      (∀ (num fs : Nat) (src : BitVec 8) (disp : Fin 16), matchFrame s src.toNat (toLocal s (nearNow s fs)) = none →
        ∃ t, exec (.dispFlit p h [(num, fs, src, disp)]) s = .next t ∧ (t.fld KLINK_EVENT.EVENT).testBit 8 = true))

/-- R464 to R466: a committed frame due to the partner is sent on the port that R464 names; the Understudy opens a frame for it,
takes its bytes and closes it; the partner's commitment settles it, another disposition or a timeout abandons it; CLEAR zeroes
the counts. -/
def Obligations.MirrorFramesCrossTheLink : Prop :=
  (∀ (s : State) (n p k : Nat) (f : Frame), frameOf s n = some f → mirrorPort s = some p → topo s = 2 →
    s.flag KLINK_STATUS.PRIN = true → f.disp = 7 → f.closed = true → 2 ∈ f.await → f.slot = some k →
    (∀ m ∈ s.klink.mirror, m.num ≠ n) →
    ∃ t, exec (.klinkMirrorStart n) s = .next t ∧ t.klink.mirror = s.klink.mirror ++ [{ num := n, port := p, since := s.ticks }] ∧
      keyGet t.klink.counts (p * 16 + 10) = some (satAdd (2 ^ 32 - 1) ((keyGet s.klink.counts (p * 16 + 10)).getD 0) 1) ∧
      SameMemory s t) ∧
  (∀ (s : State) (p : Fin 2) (h : FlitHeader) (num fs : Nat) (src : BitVec 8) (dt : BitVec 6) (w ht : Nat) (cfa : Fin 8)
      (emb : Nat), kUp s p = true → h.crcOk = true → h.nak = false → h.rxmask.toNat = (kport s p).txmask →
    p.val < s.klink.ports.length → h.seq.toNat = ((kport s p).rxAck + 1) % 2 ^ 32 →
    s.flag (INGEST_CTRL.EN (src.toNat / 64)) = false → openFrame s (src.toNat / 64) (src.toNat / 16 % 4) = none →
    s.ingest.length = 4 → s.klink.mirrorRx.length = 2 →
    ∃ t m f, exec (.frameHdr p h num fs src dt w ht cfa emb) s = .next t ∧ (t.klink.mirrorRx[p.val]?).join = some m ∧
      m.num = num ∧ m.port = src.toNat / 64 ∧ m.desc = src.toNat / 16 % 4 ∧ m.bytes = [] ∧
      openFrame t m.port m.desc = some f ∧ f.num = m.frame ∧ f.d.width = w ∧ f.d.height = ht ∧ f.d.dt = dt.toNat) ∧
  (∀ (s : State) (p : Fin 2) (h : FlitHeader) (bytes : List Byte) (m : MirrorRx) (f : OpenFrame) (x : Member)
      (r : List Member), kUp s p = true → h.crcOk = true → h.nak = false → h.rxmask.toNat = (kport s p).txmask →
    p.val < s.klink.ports.length → h.seq.toNat = ((kport s p).rxAck + 1) % 2 ^ 32 →
    (s.klink.mirrorRx[p.val]?).join = some m → openFrame s m.port m.desc = some f → f.num = m.frame → f.members = x :: r →
    x.lines.length < f.d.height → m.bytes.length + bytes.length < f.d.lineBytes →
    ∃ t, exec (.raw p h bytes) s = .next t ∧
      (t.klink.mirrorRx[p.val]?).join = some { m with bytes := m.bytes ++ bytes } ∧ t.ingest = s.ingest) ∧
  (∀ (s : State) (p : Fin 2) (h : FlitHeader) (poison : Bool) (m : MirrorRx), kUp s p = true → h.crcOk = true →
    h.nak = false → h.rxmask.toNat = (kport s p).txmask → p.val < s.klink.ports.length →
    h.seq.toNat = ((kport s p).rxAck + 1) % 2 ^ 32 → (s.klink.mirrorRx[p.val]?).join = some m →
    ∃ t, exec (.frameEndFlit p h m.num poison) s = .next t ∧ (t.klink.mirrorRx[p.val]?).join = none ∧
      (poison = true → (t.fld KLINK_EVENT.EVENT).testBit 10 = true) ∧
      keyGet t.klink.counts (p.val * 16 + 11) =
        some (satAdd (2 ^ 32 - 1) ((keyGet s.klink.counts (p.val * 16 + 11)).getD 0) 1)) ∧
  (∀ (s : State) (p : Fin 2) (h : FlitHeader) (n : Nat) (disp : Fin 16) (f : Frame), kUp s p = true → h.crcOk = true →
    h.nak = false → h.rxmask.toNat = (kport s p).txmask → p.val < s.klink.ports.length →
    h.seq.toNat = ((kport s p).rxAck + 1) % 2 ^ 32 → (∃ m ∈ s.klink.mirror, m.num = n) → frameOf s n = some f →
    f.disp = 7 → f.await = [2] → f.written = [] → keyGet s.hash.codedDue n = none →
    ∃ t, exec (.mirrorAck p h [(n, disp)]) s = .next t ∧ (∀ m ∈ t.klink.mirror, m.num ≠ n) ∧
      (∀ x ∈ t.ledger.frames, x.num = n →
        x.disp = (if 1 ≤ disp.val ∧ disp.val ≤ 3 then 6 else 5) ∧ x.partner = some disp.val)) ∧
  (∀ (s : State) (n : Nat) (m : MirrorTx), m ∈ s.klink.mirror → m.num = n →
    (∀ x ∈ s.klink.mirror, s.elapsedNs x.since (max 10 (s.fld KLINK_MIRROR_TO.MS) * 1000000) = true) →
    ∃ t, exec (.mirrorAckTimeout n) s = .next t ∧ (∀ m ∈ t.klink.mirror, m.num ≠ n) ∧
      (t.fld KLINK_EVENT.EVENT).testBit 9 = true) ∧
  (∀ (s : State) (n : Nat) (f : Frame), (∀ m ∈ s.klink.mirror, m.num ≠ n) → frameOf s n = some f → f.disp = 7 → f.closed = true →
    2 ∈ f.await → s.elapsedNs f.since (max 10 (s.fld KLINK_MIRROR_TO.MS) * 1000000) = true →
    ∃ t, exec (.mirrorAckTimeout n) s = .next t ∧ (∀ x ∈ t.ledger.frames, x.num = n → 2 ∉ x.await) ∧
      (t.fld KLINK_EVENT.EVENT).testBit 9 = true) ∧
  (∀ (s : State), exec .klinkCounterClear s = .next { s with
    sys := { s.sys with bus := { data := 0, error := false } }, klink := { s.klink with counts := [] } })

/-! ### Motion feedback -/

/-- R475 to R484, R486 to R488: a change of one input of a quadrature channel moves the position by one count in its direction
and the inputs show, on a channel that is off too; of a Hall channel it steps the sequence; a tooth counts one; a glitch is counted; a preset sets the
position and makes it valid; a channel that stalls is no longer valid. No compare is armed. An SSI frame latches its time at its
start and its value at its end, and one without a good idle level counts as an error; standstill sets speed 0; a gate of count
mode ends with the speed of the counts since the last one. -/
def Obligations.MotionCountsFramesAndSpeed : Prop :=
  (∀ (s : State) (c : Fin 4) (levels : BitVec 3) (sample edge : Nat) (d : Int), motionOn s c = true →
    (motionRec s c).kind = 1 → (motionRec s c).invert = false → motionMod s c = 0 → c.val < s.motion.chans.length →
    (s.fld (MOTION_STATUS.LEVELS c) ^^^ levels.toNat) ∈ [2, 4] → (∀ l ∈ (motionChan s c).lastEdge, l + 8 ≤ sample) →
    edge + motionFilterNs s c ≤ s.nowNs →
    (∀ k : Fin 8, s.flag (MOTION_CMP_CTRL.ARMED k) = false) →
    d = (if (grayPlace (levels.toNat / 2) + 4 - grayPlace (s.fld (MOTION_STATUS.LEVELS c) / 2)) % 4 = 1 then 1 else -1) →
    ∃ t, exec (.motionEdge c levels sample edge) s = .next t ∧ t.fld (MOTION_STATUS.LEVELS c) = levels.toNat ∧
      t.fld (MOTION_POS.POS c) = ofSigned 32 (motionPos s c + d) ∧ t.flag (MOTION_STATUS.DIR c) = decide (d < 0) ∧
      t.flag (MOTION_STATUS.VALID c) = s.flag (MOTION_STATUS.VALID c) ∧ SameMemory s t) ∧
  (∀ (s : State) (c : Fin 4) (levels : BitVec 3) (sample edge a b : Nat), motionOn s c = true →
    (motionRec s c).kind = 3 → (motionRec s c).invert = false → motionMod s c = 0 → c.val < s.motion.chans.length →
    (s.fld (MOTION_STATUS.LEVELS c) ^^^ levels.toNat) ∈ [1, 2, 4] → (∀ k : Fin 8, s.flag (MOTION_CMP_CTRL.ARMED k) = false) →
    edge + motionFilterNs s c ≤ s.nowNs →
    ((motionChan s c).hall).bind hallPlace = some a → hallPlace levels.toNat = some b → b = (a + 1) % 6 →
    ∃ t, exec (.motionEdge c levels sample edge) s = .next t ∧
      t.fld (MOTION_POS.POS c) = ofSigned 32 (motionPos s c + 1) ∧ (motionChan t c).hall = some levels.toNat) ∧
  (∀ (s : State) (c : Fin 4) (sample edge : Nat), motionOn s c = true → (motionRec s c).kind = 2 →
    (motionRec s c).invert = false → c.val < s.motion.chans.length → s.fld (MOTION_STATUS.LEVELS c) = 0 →
    0 < motionMod s c → motionMod s c ≤ 4096 → s.fld (MOTION_POS.POS c) < motionMod s c →
    (motionChan s c).tooth = none → edge + motionFilterNs s c ≤ s.nowNs → (∀ k : Fin 8, s.flag (MOTION_CMP_CTRL.ARMED k) = false) →
    ∃ t, exec (.motionEdge c 4 sample edge) s = .next t ∧
      t.fld (MOTION_POS.POS c) = (s.fld (MOTION_POS.POS c) + 1) % motionMod s c ∧ (motionChan t c).tooth = some sample) ∧
  (∀ (s : State) (c : Fin 4) (edge : Nat), motionOn s c = true → s.nowNs < edge + motionFilterNs s c →
    ∃ t, exec (.motionGlitch ⟨c, edge⟩) s = .next t ∧
      t.fld (MOTION_GLITCH.COUNT c) = min (2 ^ (MOTION_GLITCH.COUNT c).width - 1) (s.fld (MOTION_GLITCH.COUNT c) + 1) ∧
      OnlyRegs s t [(MOTION_GLITCH.COUNT c).addr]) ∧
  (∀ (s : State) (c : Fin 4) (v : Word), motionOn s c = true →
    ∃ t, exec (.motionPreset c v) s = .next t ∧ t.fld (MOTION_POS.POS c) = v.toNat ∧
      t.flag (MOTION_STATUS.VALID c) = true ∧
      OnlyRegs { s with motion := t.motion } t [(MOTION_POS.POS c).addr, (MOTION_STATUS.VALID c).addr]) ∧
  (∀ (s : State) (c : Fin 4), motionOn s c = true → (motionRec s c).kind = 1 ∨ (motionRec s c).kind = 3 →
    s.fld (MOTION_CFG.STALL_MS c) ≠ 0 → (∃ e ∈ (motionChan s c).edges.zip (motionChan s c).levelAt, 8 ≤ e.1 ∧
      s.elapsedNs e.2 (s.fld (MOTION_CFG.STALL_MS c) * 1000000) = true) → s.flag (MOTION_STATUS.STALL c) = false →
    ∃ t, exec (.motionStall c) s = .next t ∧ t.flag (MOTION_STATUS.STALL c) = true ∧
      t.flag (MOTION_STATUS.VALID c) = false ∧ (t.fld (MOTION_EVENT.EVENT c)).testBit 1 = true ∧
      RegsBut s t ([(MOTION_STATUS.STALL c).addr, (MOTION_EVENT.EVENT c).addr] ++ eventRegs) ∧ SameMemory s t) ∧
  (∀ (s : State) (c : Fin 4) (sample : Nat) (idle : Bool), motionOn s c = true → (motionRec s c).kind = 4 →
    c.val < s.motion.chans.length → (∀ τ ∈ (motionChan s c).ssiAt, s.elapsedNs τ (motionRec s c).ssiPeriodNs = true) →
    ∃ t, exec (.ssiFrameStart c sample idle) s = .next t ∧
      motionChan t c = { motionChan s c with frame := some (s.nowNs, sample, idle), ssiAt := some s.ticks } ∧ t = { s with motion := t.motion }) ∧
  (∀ (s : State) (c : Fin 4) (v : Word) (time sample : Nat), motionOn s c = true → c.val < s.motion.chans.length →
    (motionChan s c).frame = some (time, sample, true) → (motionRec s c).gray = false → (motionRec s c).kind = 4 →
    (∀ k : Fin 8, s.flag (MOTION_CMP_CTRL.ARMED k) = false) →
    (∀ τ ∈ (motionChan s c).ssiAt, s.elapsedNs τ (motionRec s c).ssiFrameNs = true) →
    ∃ t, exec (.ssiFrameComplete c v true) s = .next t ∧
      t.fld (MOTION_POS.POS c) = v.toNat % 2 ^ (motionRec s c).ssiBits ∧ t.flag (MOTION_STATUS.VALID c) = true ∧
      t.flag (MOTION_STATUS.STALL c) = false ∧ (motionChan t c).frame = none ∧ SameMemory s t ∧
      RegsBut s t ([(MOTION_POS.POS c).addr, (MOTION_STATUS.VALID c).addr, (MOTION_SPEED.SPEED c).addr,
        (MOTION_EVENT.EVENT c).addr] ++ eventRegs)) ∧
  (∀ (s : State) (c : Fin 4) (levels : BitVec 3) (sample edge : Nat), s.domainOn 28 = true → motionOn s c = false →
    edge + motionFilterNs s c ≤ s.nowNs →
    ∃ t, exec (.motionEdge c levels sample edge) s = .next t ∧ t.fld (MOTION_STATUS.LEVELS c) = levels.toNat ∧
      OnlyRegs s t [(MOTION_STATUS.LEVELS c).addr]) ∧
  (∀ (s : State) (c : Fin 4) (v : Word) (time sample : Nat) (idle endLow : Bool), motionOn s c = true →
    (motionChan s c).frame = some (time, sample, idle) → idle = false ∨ endLow = false →
    (∀ τ ∈ (motionChan s c).ssiAt, s.elapsedNs τ (motionRec s c).ssiFrameNs = true) →
    ∃ t, exec (.ssiFrameComplete c v endLow) s = .next t ∧
      t.fld (MOTION_ERRCNT.FRAME c) = min (2 ^ (MOTION_ERRCNT.FRAME c).width - 1) (s.fld (MOTION_ERRCNT.FRAME c) + 1) ∧
      (t.fld (MOTION_EVENT.EVENT c)).testBit 5 = true ∧
      OnlyRegs { s with motion := t.motion } t [(MOTION_ERRCNT.FRAME c).addr, (MOTION_EVENT.EVENT c).addr]) ∧
  (∀ (s : State) (c : Fin 4), motionOn s c = true →
    s.elapsedNs (motionChan s c).stepAt (max 1 (s.fld (MOTION_CFG.STOP_MS c)) * 1000000) = true →
    ∃ t, exec (.motionStandstill c) s = .next t ∧ t.flag (MOTION_STATUS.STANDSTILL c) = true ∧
      t.fld (MOTION_SPEED.SPEED c) = 0 ∧
      OnlyRegs { s with motion := t.motion } t [(MOTION_STATUS.STANDSTILL c).addr, (MOTION_SPEED.SPEED c).addr]) ∧
  (∀ (s : State) (c : Fin 4) (d : Int) (gate : Nat), motionOn s c = true → s.flag (MOTION_STATUS.COUNT_MODE c) = true →
    s.flag (MOTION_STATUS.STANDSTILL c) = false → s.flag (MOTION_STATUS.REVERSED c) = false →
    c.val < s.motion.chans.length → d = (motionChan s c).gateSum →
    gate = max 10 (s.fld (MOTION_SPD_CFG.GATE_US c)) → s.elapsedNs (motionChan s c).gateAt (gate * 1000) = true →
    ∃ t, exec (.motionGateEnd c) s = .next t ∧
      t.fld (MOTION_SPEED.SPEED c) = ofSigned 32 ((2 * (d * 16000000) + gate) / (2 * gate)) ∧
      (motionChan t c).gateSum = 0 ∧
      OnlyRegs { s with motion := t.motion } t [(MOTION_SPEED.SPEED c).addr, (MOTION_STATUS.COUNT_MODE c).addr])

/-- R490 to R492: ARM latches the settings and arms the compare with its counts at 0; a target outside a rotary channel is
refused; a target behind a moving linear channel is not armed; DISARM disarms. A crossing fires an armed compare with the
crossing time. -/
def Obligations.ComparesArmAndFire : Prop :=
  (∀ (s : State) (k : Fin 8) (v : Word), s.domainOn 28 = true → v.getLsbD 30 = false → bits v.toNat 5 4 ≠ 3 →
    s.flag (MOTION_STATUS.STANDSTILL (v.toNat % 4)) = true → motionMod s (v.toNat % 4) = 0 → k.val < s.motion.cmps.length →
    ∃ t x, exec (.arm k v) s = .next t ∧ t.flag (MOTION_CMP_CTRL.ARMED k) = true ∧
      t.fld (MOTION_CMP_FIRES.COUNT k) = 0 ∧ t.fld (MOTION_CMP_MISSED.COUNT k) = 0 ∧ motionCmp t k = x ∧
      x.ch = v.toNat % 4 ∧ x.dir = bits v.toNat 5 4 ∧ x.periodic = v.getLsbD 6 ∧
      x.target = toSigned 32 (s.fld (MOTION_CMP_TARGET.TARGET k)) ∧
      x.step = min 2147483647 (s.fld (MOTION_CMP_STEP.STEP k)) ∧
      OnlyRegs { s with motion := t.motion } t [(MOTION_CMP_CTRL.ARMED k).addr, (MOTION_CMP_FIRES.COUNT k).addr,
        (MOTION_CMP_MISSED.COUNT k).addr]) ∧
  (∀ (s : State) (k : Fin 8) (v : Word), s.domainOn 28 = true → 0 < motionMod s (v.toNat % 4) →
    motionMod s (v.toNat % 4) ≤ s.fld (MOTION_CMP_TARGET.TARGET k) →
    ∃ t, exec (.arm k v) s = .next t ∧ t.flag (MOTION_CMP_CTRL.REFUSED k) = true ∧ t.motion = s.motion) ∧
  (∀ (s : State) (k : Fin 8) (v : Word) (c : Nat), c = v.toNat % 4 → s.domainOn 28 = true → v.getLsbD 7 = false →
    bits v.toNat 5 4 = 0 → motionMod s c = 0 → s.flag (MOTION_STATUS.STANDSTILL c) = false →
    s.flag (MOTION_STATUS.REVERSED c) = false → (motionChan s c).lastBack = some false →
    toSigned 32 (s.fld (MOTION_CMP_TARGET.TARGET k)) ≤ motionPos s c →
    ∃ t, exec (.arm k v) s = .next t ∧ t.flag (MOTION_CMP_CTRL.ARMED k) = false ∧
      t.flag (MOTION_CMP_CTRL.BEHIND k) = true) ∧
  (∀ (s : State) (k : Fin 8) (v : Word), s.domainOn 28 = true →
    ∃ t, exec (.disarm k v) s = .next t ∧ t.flag (MOTION_CMP_CTRL.ARMED k) = false ∧ t.motion = s.motion ∧
      RegsBut s t ((MOTION_CMP_CTRL.ARMED k).addr :: eventRegs) ∧ SameMemory s t) ∧
  (∀ (s : State) (k : Fin 8) (time ahead : Nat) (d : Int), (motionCmp s k).periodic = false →
    (∀ j : Nat, (cmpCross (motionMod s (motionCmp s k).ch) k time ahead d s).motion.cmps[j]? = s.motion.cmps[j]?) ∧
    (cmpCross (motionMod s (motionCmp s k).ch) k time ahead d s).flag (MOTION_CMP_CTRL.ARMED k) = false ∧
    (cmpCross (motionMod s (motionCmp s k).ch) k time ahead d s).fld (MOTION_CMP_TIME_NS.VALUE k) = time % 1000000000) ∧
  (∀ (m : Nat) (x : MotionCmp) (p : Int) (d a : Nat), 0 < d → 0 < m → 0 ≤ p → p < m → 0 ≤ x.target → x.target < m → x.dir = 0 →
    d < m → (crossing m x p d = some a ↔ 1 ≤ a ∧ a ≤ d ∧ (p + a) % m = x.target))

/-! ### Footlights -/

/-- R498 to R500, R510, R511: the start takes the panel out of reset, sends exit_sleep_mode and then the start script entry by
entry; its end sends the commands of R500 and the panel runs with a full push to come; the stop ends in OFF with
the lanes in ULPS, or in a new start. ALLOC gives the lowest free handle to firmware, or no handle; FREE by its owner frees it,
once no layer and no push holds it; any other FREE is counted with a warning. -/
def Obligations.PanelAndPoolHandles : Prop :=
  (∀ (s : State), panelState s = 1 → s.view.step = .reset → s.elapsedNs s.view.stepAt 10000000 = true →
    ∃ t, exec .viewStartStep s = .next t ∧ panelState t = 1 ∧
      t.view = { s.view with rstN := true, step := .afterReset, stepAt := s.ticks } ∧
      OnlyRegs { s with view := t.view } t [VIEW_STATUS.STATE.addr]) ∧
  (∀ (s : State), panelState s = 1 → s.view.step = .afterReset →
    s.elapsedNs s.view.stepAt (s.fld VIEW_START.RESET_MS * 1000000) = true →
    ∃ t, exec .viewStartStep s = .next t ∧ panelState t = 1 ∧
      t.view = { s.view with sent := [(0x05, [0x11])], step := .sleepOut, stepAt := s.ticks }) ∧
  (∀ (s : State), panelState s = 1 → s.view.step = .sleepOut →
    s.elapsedNs s.view.stepAt (s.fld VIEW_START.SLEEP_MS * 1000000) = true →
    ∃ t, exec .viewStartStep s = .next t ∧ panelState t = 1 ∧
      t.view = { s.view with script := 0, step := .script, stepAt := s.ticks }) ∧
  (∀ (s : State), panelState s = 3 → s.view.step = .sleepIn →
    s.elapsedNs s.view.stepAt (s.fld VIEW_START.SLEEP_MS * 1000000) = true →
    ∃ t, exec .viewStartStep s = .next t ∧ panelState t = (if s.view.restart then 1 else 0) ∧ t.view.ulps = !s.view.restart ∧
      t.view.step = (if s.view.restart then .reset else .none)) ∧
  (∀ (s : State) (o w : Nat), panelState s = 1 → s.view.step = .script → o = s.view.script → w = s.tab 0x44 1 o 4 →
    w ≠ 0 → o + 4 + w % 256 ≤ 4096 → s.elapsedNs s.view.stepAt (w / 65536 * 1000000) = true →
    ∃ t, exec .viewScriptEntry s = .next t ∧ t.view.script = o + 4 + (w % 256 + 3) / 4 * 4 ∧
      (t.view.sent.map (fun q => q.2)) = [BitVec.ofNat 8 (w / 256) :: readList 0 (s.table 0x44 1) (o + 4) (w % 256)] ∧
      t = { s with view := t.view }) ∧
  (∀ (s : State), panelState s = 1 → s.view.step = .script → s.flag VIEW_CMD.BUSY = false →
    4096 ≤ s.view.script ∨ s.tab 0x44 1 s.view.script 4 = 0 →
    ∃ t, exec .viewScriptEntry s = .next t ∧ panelState t = 2 ∧ t.view.full = true ∧
      (t.view.sent.map (fun q => q.2.head?)) = [some 0x3A, some 0x44, some 0x35, some 0x29] ∧
      OnlyRegs { s with view := t.view } t [VIEW_STATUS.STATE.addr]) ∧
  (∀ (s : State) (h : Nat) (x : PoolHandle), s.domainOn 27 = true → poolLowest s = some h → s.pool.handles[h]? = some x →
    ∃ t, exec .viewPoolAlloc s = .next t ∧ t.sys.bus = { data := BitVec.ofNat 32 (2 ^ 31 + h), error := false } ∧
      t.pool.handles[h]? = some { x with owner := 1 } ∧ (∀ k, k ≠ h → t.pool.handles[k]? = s.pool.handles[k]?) ∧
      OnlyRegs { s with pool := t.pool, ledger := t.ledger } t [VIEW_POOL_STATUS.FREE.addr]) ∧
  (∀ (s : State), s.domainOn 27 = true → poolLowest s = none → exec .viewPoolAlloc s = .next (busOk 0 s)) ∧
  (∀ (s : State) (v : Word) (x : PoolHandle), s.domainOn 27 = true → s.pool.handles[v.toNat % 64]? = some x → x.owner = 1 →
    ∃ t, exec (.viewPoolFree v) s = .next t ∧
      t.pool.handles[v.toNat % 64]? = some { x with owner := 0, pendingFree := decide (x.layers + x.pushes ≠ 0) } ∧
      (x.layers + x.pushes ≠ 0 → t.fld VIEW_POOL_STATUS.DEFERRED =
        min (2 ^ VIEW_POOL_STATUS.DEFERRED.width - 1) (s.fld VIEW_POOL_STATUS.DEFERRED + 1)) ∧
      OnlyRegs { s with pool := t.pool, ledger := t.ledger } t [VIEW_POOL_STATUS.FREE.addr]) ∧
  (∀ (s : State) (v : Word), s.domainOn 27 = true → (∀ x, s.pool.handles[v.toNat % 64]? = some x → x.owner ≠ 1) →
    ∃ t, exec (.viewPoolFree v) s = .next t ∧ t.pool = s.pool ∧ (t.fld VIEW_EVENT.EVENT).testBit 5 = true ∧
      t.fld VIEW_POOL_STATUS.DOUBLE = min (2 ^ VIEW_POOL_STATUS.DOUBLE.width - 1) (s.fld VIEW_POOL_STATUS.DOUBLE + 1))

/-- R499, R504 to R508: a TE edge starts a push of the dirty regions, after a command that waits, or counts as late while one is in
progress, in STOPPING too; the end of a push frees the link, or sends enter_sleep_mode; a change of line settings does not move the
line count; a lost TE is shown and pushes go on; line-timed writes wait in their shadow stages for the apply, and the firmware
overlay names no line-timed bit of VIEW_CTRL; a command goes out when the link is free; a dirty rectangle is kept as it lies on
the panel. -/
def Obligations.PushesAndLineTimedRegisters : Prop :=
  (∀ (s : State), s.domainOn 27 = true → panelState s = 2 → s.view.push = none → viewHeld s = false → s.view.dirty ≠ [] →
    applyLine s ≠ teLine s →
    ∃ t, exec .viewTeEdge s = .next t ∧ t.view.push.isSome = true ∧ t.view.dirty = [] ∧ t.view.full = false ∧
      t.view.teAt = some s.ticks ∧ t.flag VIEW_STATUS.PUSHING = true ∧ t.flag VIEW_STATUS.TE_LOST = false ∧
      t.fld VIEW_CNT.PUSHES = (s.fld VIEW_CNT.PUSHES + 1) % 2 ^ 16) ∧
  (∀ (s : State), s.domainOn 27 = true → panelState s = 2 → s.view.push.isSome = true → applyLine s ≠ teLine s →
    s.flag VIEW_STATUS.TE_LOST = false →
    ∃ t, exec .viewTeEdge s = .next t ∧
      t.view = { s.view with teAt := some s.ticks, line0 := teLine s, lineRest := 0, teFrom := s.ticks } ∧
      t.fld VIEW_CNT.LATE = min (2 ^ VIEW_CNT.LATE.width - 1) (s.fld VIEW_CNT.LATE + 1) ∧
      OnlyRegs { s with view := t.view } t [VIEW_CNT.LATE.addr]) ∧
  (∀ (s : State), s.domainOn 27 = true → panelState s = 3 → s.view.push.isSome = true → applyLine s ≠ teLine s →
    ∃ t, exec .viewTeEdge s = .next t ∧
      t.view = { s.view with teAt := some s.ticks, line0 := teLine s, lineRest := 0, teFrom := s.ticks } ∧
      t.fld VIEW_CNT.LATE = min (2 ^ VIEW_CNT.LATE.width - 1) (s.fld VIEW_CNT.LATE + 1) ∧
      OnlyRegs { s with view := t.view } t [VIEW_CNT.LATE.addr]) ∧
  (∀ (s : State), s.domainOn 27 = true → panelState s = 2 → s.view.push = none → viewHeld s = false → s.view.dirty ≠ [] →
    applyLine s ≠ teLine s → s.flag VIEW_CMD.BUSY = true → s.flag VIEW_CMD.HAS_PARAM = false →
    ∃ t, exec .viewTeEdge s = .next t ∧ t.flag VIEW_CMD.BUSY = false ∧ t.view.push.isSome = true ∧
      t.view.sent.head? = some (0x05, [BitVec.ofNat 8 (s.fld VIEW_CMD.DCS)])) ∧
  (∀ (s : State), s.view.teAt ≠ none → viewLine (viewRebase s) = viewLine s) ∧
  (∀ (v : Word), lineEntries [.masked VIEW_CTRL.FALSE_EN.addr (shadowMask VIEW_CTRL.FALSE_EN.addr) v] = []) ∧
  (∀ (s : State), s.view.push.isSome = true →
    ∃ t, exec .viewPushComplete s = .next t ∧ t.view.push = none ∧ t.flag VIEW_STATUS.PUSHING = false) ∧
  (∀ (s : State), s.view.push.isSome = true → panelState s = 3 →
    ∃ t, exec .viewPushComplete s = .next t ∧ t.view = { s.view with
      push := none, step := .sleepIn, stepAt := s.ticks, sent := [(0x05, [0x10])] }) ∧
  (∀ (s : State), s.domainOn 27 = true → panelState s = 2 → s.flag VIEW_STATUS.TE_LOST = false →
    s.elapsedNs s.view.teFrom (max 1 (s.fld VIEW_START.TE_TO_MS) * 1000000) = true →
    ∃ t, exec .viewTeTimeout s = .next t ∧ t.flag VIEW_STATUS.TE_LOST = true ∧
      (t.fld VIEW_EVENT.EVENT).testBit 0 = true) ∧
  (∀ (s : State) (off : Nat) (w : Word), s.domainOn 27 = true → s.view.changed = true → s.view.shadow = [(off, w)] →
    viewLine s = applyLine s →
    ∃ t, exec .viewApply s = .next t ∧ t.view.shadow = [] ∧ t.view.changed = false ∧
      t.word off &&& lineMask off = w &&& lineMask off) ∧
  (∀ (s : State) (addr : BitVec 40) (v : Word) (off : Nat), s.domainOn 27 = true → off = addr.toNat - 0x10000000 →
    shadowMask off = 0 →
    ∃ t, exec (.viewLineTimedWrite addr v) s = .next t ∧ shadowValue t off &&& lineMask off = v &&& lineMask off ∧
      OnlyRegs { s with view := t.view } t []) ∧
  (∀ (s : State) (v : Word), s.domainOn 27 = true →
    ∃ t, exec (.viewDirtyWhWrite v) s = .next t ∧
      t.view = { s.view with dirty := s.view.dirty ++ (clipRect s (s.fld VIEW_DIRTY_XY.X) (s.fld VIEW_DIRTY_XY.Y)
        (bits v.toNat 23 12 + 1) (bits v.toNat 11 0 + 1)).toList } ∧
      OnlyRegs { s with view := t.view } t []) ∧
  (∀ (s : State) (v : Word), s.domainOn 27 = true → s.flag VIEW_CMD.BUSY = false → panelState s = 2 →
    s.view.push = none → viewHeld s = false →
    ∃ t, exec (.viewCmd v) s = .next t ∧ t.flag VIEW_CMD.BUSY = false ∧
      (t.view.sent.map (fun q => q.2)) = [BitVec.ofNat 8 (v.toNat / 256) ::
        (if v.getLsbD 24 then [BitVec.ofNat 8 (v.toNat / 65536)] else [])] ∧
      OnlyRegs { s with view := t.view } t [VIEW_CMD.BUSY.addr]) ∧
  (∀ (s : State) (v : Word), s.domainOn 27 = true → s.flag VIEW_CMD.BUSY = true →
    exec (.viewCmd v) s = .next (postKind 4 18 0xFF VIEW_CMD.GO.addr (busOk 0 s)))

/-! ### Management port -/

/-- R517 to R520, R523 to R531: a write sets the pointer; a message byte is stored as the transaction ends and the pointer moves
within its page; a read answers the window's bytes from the pointer on; one with a bit set up for less than SETUP, and one
cut off by the timeout, is counted with its event. With CTRL_EN set the control page wakes the device, commits a stack operation,
triggers, passes messages and moves the cursor of the port; without it each write is refused, one of its other bytes
too. A bit set up too late is counted in a transaction that times out and in an alert response as well. An alert response that wins
releases ALERT_N; one that loses is counted. -/
def Obligations.ManagementPortTransactions : Prop :=
  (∀ (s : State) (hi lo : Byte), s.power.aonValid = true →
    ∃ t, exec (.mgmtWriteTransaction [hi, lo] []) s = .next t ∧ t.fld MGMT_STATUS.POINTER = 256 * hi.toNat + lo.toNat ∧
      t.mgmt.counts = modAt s.mgmt.counts 0 (fun n => satAdd (2 ^ 32 - 1) n 1) ∧ SameMemory s t) ∧
  (∀ (s : State) (o b : Byte), s.power.aonValid = true →
    ∃ t, exec (.mgmtWriteTransaction [0x10, o, b] []) s = .next t ∧
      t.fld ⟨(MGMT_MBOX_IN.DATA (o.toNat / 4)).addr, 8 * (o.toNat % 4), 8⟩ = b.toNat ∧
      t.fld MGMT_STATUS.POINTER = 0x1000 + o.toNat / 64 * 64 + (o.toNat + 1) % 64 ∧
      RegsBut s t ([(MGMT_MBOX_IN.DATA (o.toNat / 4)).addr, MGMT_STATUS.POINTER.addr, MGMT_EVENT.EVENT.addr,
        MGMT_ALERT_SRC.CALL.addr] ++ eventRegs)) ∧
  (∀ (s : State) (n : Nat), s.power.aonValid = true →
    ∃ t, exec (.mgmtReadTransaction n []) s = .next t ∧
      t.mgmt.sent = (List.range n).map (fun i => windowByte s ((s.fld MGMT_STATUS.POINTER + i) % 65536)) ∧
      t.fld MGMT_STATUS.POINTER = (s.fld MGMT_STATUS.POINTER + n) % 65536 ∧ SameMemory s t) ∧
  (∀ (s : State) (n h : Nat), s.power.aonValid = true → h < 5 * s.fld MGMT_TIMING.SETUP →
    ∃ t, exec (.mgmtReadTransaction n [h]) s = .next t ∧ (t.fld MGMT_EVENT.EVENT).testBit 3 = true ∧
      t.mgmt.counts[4]? = (s.mgmt.counts[4]?).map (fun k => satAdd (2 ^ 32 - 1) k 1)) ∧
  (∀ (s : State) (n : Nat), s.power.aonValid = true → s.flag MGMT_CFG.TIMEOUT_EN = true →
    ∃ t, exec (.mgmtTimeout { bytes := [], held := [] } n) s = .next t ∧ t.fld MGMT_STATUS.POINTER = (s.fld MGMT_STATUS.POINTER + n) % 65536 ∧
      (t.fld MGMT_EVENT.EVENT).testBit 2 = true ∧
      t.mgmt.counts[3]? = (s.mgmt.counts[3]?).map (fun k => satAdd (2 ^ 32 - 1) k 1)) ∧
  (∀ (s : State), s.flag MGMT_CFG.CTRL_EN = true → s.flag MGMT_CFG.WAKE_EN = true → s.mode = 7 → s.power.xfer = none →
    ∃ t x, exec (.wake 6) s = .next t ∧ t.power.xfer = some x ∧ x.src = 7 ∧ x.dst = 6) ∧
  (∀ (s : State) (v : BitVec 16) (p : CueStack), s.flag MGMT_CFG.CTRL_EN = true → s.cue.locked = true →
    s.cue.commit = .idle → stackOp s (bits v.toNat 12 10) (bits v.toNat 9 8) (bits v.toNat 5 0) = some p →
    ∃ t img, exec (.cuesel v) s = .next t ∧ t.cue.commit = .preparing img ∧ img.stack = p ∧ t.cue.pending = p) ∧
  (∀ (s : State) (v : Byte), s.flag MGMT_CFG.CTRL_EN = true → v.getLsbD 0 = true →
    exec (.trig v) s = .next (combine [(84, s.nowNs)] s.nowNs s)) ∧
  (∀ (s : State) (v : Byte), s.flag MGMT_CFG.CTRL_EN = true →
    ∃ t, exec (.msg v) s = .next t ∧ (v.getLsbD 0 = true → t.flag MGMT_STATUS.MSG_TO_SM = true) ∧
      (v.getLsbD 1 = true → t.flag MGMT_STATUS.MSG_FROM_SM = false) ∧
      RegsBut s t [MGMT_MBOX_CTRL.TO_SM.addr, MGMT_STATUS.MSG_TO_SM.addr, MGMT_ALERT_SRC.CALL.addr] ∧ SameMemory s t) ∧
  (∀ (s : State) (n : BitVec 16), s.flag MGMT_CFG.CTRL_EN = true →
    ∃ t, exec (.callAck n) s = .next t ∧ t.mgmt.cursor = (s.mgmt.cursor + min n.toNat (mgmtPending s)) % 2 ^ 32 ∧
      RegsBut s t [MGMT_STATUS.ALERT.addr, MGMT_ALERT_SRC.CALL.addr] ∧ SameMemory s t) ∧
  (∀ (s : State) (c : Instr) (v : Byte) (w : BitVec 16), s.flag MGMT_CFG.CTRL_EN = false →
    c ∈ [Instr.wake v, .cuesel w, .trig v, .msg v, .callAck w] →
    ∃ t, exec c s = .next t ∧ (t.fld MGMT_EVENT.EVENT).testBit 6 = true ∧ t.cue = s.cue ∧ t.power = s.power ∧
      t.ledger = s.ledger ∧ t.mgmt.cursor = s.mgmt.cursor) ∧
  (∀ (s : State) (b : Byte), s.power.aonValid = true → s.flag MGMT_CFG.CTRL_EN = false →
    ∃ t, exec (.mgmtWriteTransaction [0x02, 0x01, b] []) s = .next t ∧ (t.fld MGMT_EVENT.EVENT).testBit 6 = true ∧
      (t.fld MGMT_EVENT.EVENT).testBit 5 = true ∧
      t.mgmt.counts[6]? = (s.mgmt.counts[6]?).map (fun k => satAdd (2 ^ 32 - 1) k 1)) ∧
  (∀ (s : State) (n h : Nat) (c : Instr), s.power.aonValid = true → s.flag MGMT_CFG.TIMEOUT_EN = true →
    s.flag MGMT_STATUS.ALERT = true → h < 5 * s.fld MGMT_TIMING.SETUP →
    c ∈ [Instr.mgmtTimeout { bytes := [], held := [h] } n, .alertResponse { byte := 0xFF, held := [h] } false,
      .alertResponse { byte := 0xFF, held := [h] } true] →
    ∃ t, exec c s = .next t ∧ (t.fld MGMT_EVENT.EVENT).testBit 3 = true ∧
      t.mgmt.counts[4]? = (s.mgmt.counts[4]?).map (fun k => satAdd (2 ^ 32 - 1) k 1)) ∧
  (∀ (s : State) (w : HeldByte), s.flag MGMT_STATUS.ALERT = true → w.byte.toNat = 2 * s.fld MGMT_CFG.ADDR → w.held = [] →
    s.fld MGMT_ALERT_EN.EN = 0 →
    ∃ t, exec (.alertResponse w false) s = .next t ∧ t.flag MGMT_STATUS.ALERT = false ∧
      (t.fld MGMT_EVENT.EVENT).testBit 8 = true) ∧
  (∀ (s : State) (w : HeldByte), s.flag MGMT_STATUS.ALERT = true → w.byte.toNat ≠ 2 * s.fld MGMT_CFG.ADDR → w.held = [] →
    ∃ t, exec (.alertResponse w false) s = .next t ∧ t.flag MGMT_STATUS.ALERT = true ∧
      (t.fld MGMT_EVENT.EVENT).testBit 0 = true ∧
      t.mgmt.counts = modAt s.mgmt.counts 1 (fun n => satAdd (2 ^ 32 - 1) n 1))
end

