-- ==== Sys2Proof/Laws/Nvm.lean ====
section
/-! SUPPORT. Laws of the journal's write position and of a slot-rewrite session. -/

namespace Sys2Proof.Laws
open Sys2Proof Sys2Proof.Machine

/-- The journal's write position is taken when its page is erased in both copies (R103). -/
theorem nextPage_first (s : State) (h : s.trust.jrnlPage < 8192)
    (h0 : pageErased s (journalBase 0 + 256 * s.trust.jrnlPage) = true)
    (h1 : pageErased s (journalBase 1 + 256 * s.trust.jrnlPage) = true) :
    nextPage s = some s.trust.jrnlPage := by
  unfold nextPage
  rw [List.range_eq_range']
  change List.find? _ (List.map _ (List.range' 0 (8191 + 1))) = _
  rw [List.range'_succ, List.map_cons, List.find?_cons]
  simp [Nat.mod_eq_of_lt h, h0, h1]

theorem nextPage_isSome (s : State) (h : s.trust.jrnlPage < 8192)
    (h0 : pageErased s (journalBase 0 + 256 * s.trust.jrnlPage) = true)
    (h1 : pageErased s (journalBase 1 + 256 * s.trust.jrnlPage) = true) : (nextPage s).isSome = true := by
  rw [nextPage_first s h h0 h1]; rfl

/-- A session has erased its slot when 6,144 sectors are erased (R102). -/
theorem sessionErased_of_length {r : RewriteSession} (h : r.erased.length = 6144) : sessionErased r = true := by
  unfold sessionErased; rw [h]; decide

end Sys2Proof.Laws
end

