-- ==== Sys2Proof/Laws/Sparse.lean ====
section
/-! SUPPORT. Laws of sparse storage: a read after a write, and the canonical form that every operation keeps. -/

namespace Sys2Proof.Machine

variable {w : Nat} {d : BitVec w}

theorem readAt_filter_same (m : Sparse w) (a : Nat) : readAt d (m.filter (fun e => e.1 != a)) a = d := by
  induction m with
  | nil => rfl
  | cons e m ih =>
    obtain ⟨k, x⟩ := e
    by_cases h : k = a
    · simp [h, ih]
    · simp [h, readAt, Ne.symm h, ih]

theorem readAt_filter_ne (m : Sparse w) {a b : Nat} (h : b ≠ a) :
    readAt d (m.filter (fun e => e.1 != a)) b = readAt d m b := by
  induction m with
  | nil => rfl
  | cons e m ih =>
    obtain ⟨k, x⟩ := e
    by_cases hk : k = a
    · subst hk; simp [readAt, h, ih]
    · by_cases hb : b = k <;> simp [hk, readAt, hb, ih]

theorem readAt_insertAt_same (m : Sparse w) (a : Nat) (v : BitVec w) : readAt d (insertAt m a v) a = v := by
  induction m with
  | nil => simp [insertAt, readAt]
  | cons e m ih =>
    obtain ⟨k, x⟩ := e
    by_cases h : a = k
    · simp [insertAt, readAt, h]
    · by_cases hl : a < k <;> simp [insertAt, readAt, h, hl, ih]

theorem readAt_insertAt_ne (m : Sparse w) {a b : Nat} (v : BitVec w) (h : b ≠ a) :
    readAt d (insertAt m a v) b = readAt d m b := by
  induction m with
  | nil => simp [insertAt, readAt, h]
  | cons e m ih =>
    obtain ⟨k, x⟩ := e
    by_cases hk : a = k
    · subst hk; simp [insertAt, readAt, h]
    · by_cases hl : a < k <;> simp [insertAt, readAt, hk, hl, h, ih]

/-- A read of the address last written gives what was written. -/
@[simp] theorem readAt_writeAt_same (m : Sparse w) (a : Nat) (v : BitVec w) : readAt d (writeAt d m a v) a = v := by
  unfold writeAt
  split
  · next h => rw [readAt_filter_same, h]
  · exact readAt_insertAt_same ..

/-- A write leaves every other address alone. -/
theorem readAt_writeAt_ne (m : Sparse w) {a b : Nat} (v : BitVec w) (h : b ≠ a) :
    readAt d (writeAt d m a v) b = readAt d m b := by
  unfold writeAt
  split
  · exact readAt_filter_ne m h
  · exact readAt_insertAt_ne m v h

/-! ### The canonical form -/

theorem sparseWf_iff (m : Sparse w) :
    sparseWf d m = true ↔ m.Pairwise (fun a b => a.1 < b.1) ∧ ∀ e ∈ m, e.2 ≠ d := by
  induction m with
  | nil => simp [sparseWf]
  | cons e m ih =>
    cases m with
    | nil => simp [sparseWf]
    | cons f m =>
      simp only [sparseWf, Bool.and_eq_true, ih, bne_iff_ne, ne_eq, decide_eq_true_eq, List.pairwise_cons,
        List.mem_cons, forall_eq_or_imp]
      constructor
      · rintro ⟨⟨h1, h2⟩, ⟨h3, h4⟩, h5, h6⟩
        exact ⟨⟨⟨h2, fun x hx => h2.trans (h3 x hx)⟩, h3, h4⟩, h1, h5, h6⟩
      · rintro ⟨⟨⟨h2, _⟩, h3, h4⟩, h1, h5, h6⟩
        exact ⟨⟨h1, h2⟩, ⟨h3, h4⟩, h5, h6⟩

theorem insertAt_mem {m : Sparse w} {a : Nat} {v : BitVec w} {e : Nat × BitVec w} (h : e ∈ insertAt m a v) :
    e = (a, v) ∨ e ∈ m := by
  induction m with
  | nil => simpa [insertAt] using h
  | cons f m ih =>
    simp only [insertAt] at h
    split at h
    · next hk => simp only [List.mem_cons] at h ⊢; rcases h with h | h <;> simp [h, hk]
    · split at h
      · simpa using h
      · simp only [List.mem_cons] at h ⊢
        rcases h with h | h
        · exact .inr (.inl h)
        · rcases ih h with h | h <;> simp [h]

theorem insertAt_pairwise {m : Sparse w} (h : m.Pairwise (fun a b => a.1 < b.1)) (a : Nat) (v : BitVec w) :
    (insertAt m a v).Pairwise (fun a b => a.1 < b.1) := by
  induction m with
  | nil => simp [insertAt]
  | cons f m ih =>
    obtain ⟨h1, h2⟩ := List.pairwise_cons.1 h
    simp only [insertAt]
    split
    · next hk => exact List.pairwise_cons.2 ⟨h1, h2⟩
    · split
      · next hl => exact List.pairwise_cons.2 ⟨fun x hx => by
          rcases List.mem_cons.1 hx with rfl | hx
          · exact hl
          · exact Nat.lt_trans hl (h1 x hx), h⟩
      · next hn hl => exact List.pairwise_cons.2 ⟨fun x hx => by
          rcases insertAt_mem hx with rfl | hx
          · simp only; omega
          · exact h1 x hx, ih h2⟩

/-- Writing keeps the canonical form. -/
theorem writeAt_wf {m : Sparse w} (h : sparseWf d m = true) (a : Nat) (v : BitVec w) :
    sparseWf d (writeAt d m a v) = true := by
  rw [sparseWf_iff] at *
  unfold writeAt
  split
  · exact ⟨h.1.filter _, fun e he => h.2 e (List.mem_of_mem_filter he)⟩
  · next hv => exact ⟨insertAt_pairwise h.1 a v, fun e he => by
      rcases insertAt_mem he with rfl | he
      · exact hv
      · exact h.2 e he⟩

theorem writeList_wf {m : Sparse w} (h : sparseWf d m = true) (a : Nat) (vs : List (BitVec w)) :
    sparseWf d (writeList d m a vs) = true := by
  induction vs generalizing m a with
  | nil => exact h
  | cons v vs ih => exact ih (writeAt_wf h a v) (a + 1)

theorem filter_wf {m : Sparse w} (h : sparseWf d m = true) (p : Nat × BitVec w → Bool) :
    sparseWf d (m.filter p) = true := by
  rw [sparseWf_iff] at *
  exact ⟨h.1.filter _, fun e he => h.2 e (List.mem_of_mem_filter he)⟩

theorem clearRange_wf {m : Sparse w} (h : sparseWf d m = true) (lo hi : Nat) :
    sparseWf d (clearRange m lo hi) = true := filter_wf h _

/-- A read outside the bytes of a write gives what it gave before. -/
theorem readAt_writeList_ne (m : Sparse w) (a : Nat) (vs : List (BitVec w)) {b : Nat} (h : b < a ∨ a + vs.length ≤ b) :
    readAt d (writeList d m a vs) b = readAt d m b := by
  induction vs generalizing m a with
  | nil => rfl
  | cons v vs ih =>
    simp only [List.length_cons] at h
    rw [writeList, ih _ _ (by omega), readAt_writeAt_ne _ _ (by omega)]

/-- A read within the bytes of a write gives the byte written there. -/
theorem readAt_writeList_in (m : Sparse w) (a : Nat) (vs : List (BitVec w)) {i : Nat} (h : i < vs.length) :
    readAt d (writeList d m a vs) (a + i) = vs[i] := by
  induction vs generalizing m a i with
  | nil => simp at h
  | cons v vs ih =>
    rw [writeList]
    cases i with
    | zero => rw [readAt_writeList_ne _ _ _ (by omega)]; simp
    | succ i =>
      have := ih (writeAt d m a v) (a + 1) (i := i) (by simpa using h)
      rw [show a + 1 + i = a + (i + 1) by omega] at this
      simpa using this

end Sys2Proof.Machine
end

