-- ==== Sys2Proof/Laws/State.lean ====
section
/-! SUPPORT. Each update of the state, field by field: what it sets and that it leaves the rest. -/

namespace Sys2Proof.Machine

/-! ### setPipe -/

@[simp] theorem setPipe_pending (p : PipeState) (s : State) : (setPipe p s).pending = s.pending := rfl
@[simp] theorem setPipe_ticks (p : PipeState) (s : State) : (setPipe p s).ticks = s.ticks := rfl
@[simp] theorem setPipe_time (p : PipeState) (s : State) : (setPipe p s).time = s.time := rfl
@[simp] theorem setPipe_regs (p : PipeState) (s : State) : (setPipe p s).regs = s.regs := rfl
@[simp] theorem setPipe_free (p : PipeState) (s : State) : (setPipe p s).free = s.free := rfl
@[simp] theorem setPipe_scratch (p : PipeState) (s : State) : (setPipe p s).scratch = s.scratch := rfl
@[simp] theorem setPipe_smSram (p : PipeState) (s : State) : (setPipe p s).smSram = s.smSram := rfl
@[simp] theorem setPipe_dram (p : PipeState) (s : State) : (setPipe p s).dram = s.dram := rfl
@[simp] theorem setPipe_nvm (p : PipeState) (s : State) : (setPipe p s).nvm = s.nvm := rfl
@[simp] theorem setPipe_mem (p : PipeState) (s : State) : (setPipe p s).mem = s.mem := rfl
@[simp] theorem setPipe_sys (p : PipeState) (s : State) : (setPipe p s).sys = s.sys := rfl
@[simp] theorem setPipe_cue (p : PipeState) (s : State) : (setPipe p s).cue = s.cue := rfl
@[simp] theorem setPipe_call (p : PipeState) (s : State) : (setPipe p s).call = s.call := rfl
@[simp] theorem setPipe_power (p : PipeState) (s : State) : (setPipe p s).power = s.power := rfl
@[simp] theorem setPipe_trust (p : PipeState) (s : State) : (setPipe p s).trust = s.trust := rfl
@[simp] theorem setPipe_ingest (p : PipeState) (s : State) : (setPipe p s).ingest = s.ingest := rfl
@[simp] theorem setPipe_ledger (p : PipeState) (s : State) : (setPipe p s).ledger = s.ledger := rfl
@[simp] theorem setPipe_cell (p : PipeState) (s : State) : (setPipe p s).cell = s.cell := rfl
@[simp] theorem setPipe_pipe (p : PipeState) (s : State) : (setPipe p s).pipe = p := rfl
@[simp] theorem setPipe_hash (p : PipeState) (s : State) : (setPipe p s).hash = s.hash := rfl
@[simp] theorem setPipe_pool (p : PipeState) (s : State) : (setPipe p s).pool = s.pool := rfl
@[simp] theorem setPipe_klink (p : PipeState) (s : State) : (setPipe p s).klink = s.klink := rfl
@[simp] theorem setPipe_rawc (p : PipeState) (s : State) : (setPipe p s).rawc = s.rawc := rfl
@[simp] theorem setPipe_mag (p : PipeState) (s : State) : (setPipe p s).mag = s.mag := rfl
@[simp] theorem setPipe_heve (p : PipeState) (s : State) : (setPipe p s).heve = s.heve := rfl
@[simp] theorem setPipe_hevd (p : PipeState) (s : State) : (setPipe p s).hevd = s.hevd := rfl
@[simp] theorem setPipe_serial (p : PipeState) (s : State) : (setPipe p s).serial = s.serial := rfl
@[simp] theorem setPipe_net (p : PipeState) (s : State) : (setPipe p s).net = s.net := rfl
@[simp] theorem setPipe_clock (p : PipeState) (s : State) : (setPipe p s).clock = s.clock := rfl
@[simp] theorem setPipe_motion (p : PipeState) (s : State) : (setPipe p s).motion = s.motion := rfl
@[simp] theorem setPipe_view (p : PipeState) (s : State) : (setPipe p s).view = s.view := rfl
@[simp] theorem setPipe_mgmt (p : PipeState) (s : State) : (setPipe p s).mgmt = s.mgmt := rfl

/-! ### setSerial -/

@[simp] theorem setSerial_pending (x : SerialState) (s : State) : (setSerial x s).pending = s.pending := rfl
@[simp] theorem setSerial_ticks (x : SerialState) (s : State) : (setSerial x s).ticks = s.ticks := rfl
@[simp] theorem setSerial_time (x : SerialState) (s : State) : (setSerial x s).time = s.time := rfl
@[simp] theorem setSerial_regs (x : SerialState) (s : State) : (setSerial x s).regs = s.regs := rfl
@[simp] theorem setSerial_free (x : SerialState) (s : State) : (setSerial x s).free = s.free := rfl
@[simp] theorem setSerial_scratch (x : SerialState) (s : State) : (setSerial x s).scratch = s.scratch := rfl
@[simp] theorem setSerial_smSram (x : SerialState) (s : State) : (setSerial x s).smSram = s.smSram := rfl
@[simp] theorem setSerial_dram (x : SerialState) (s : State) : (setSerial x s).dram = s.dram := rfl
@[simp] theorem setSerial_nvm (x : SerialState) (s : State) : (setSerial x s).nvm = s.nvm := rfl
@[simp] theorem setSerial_mem (x : SerialState) (s : State) : (setSerial x s).mem = s.mem := rfl
@[simp] theorem setSerial_sys (x : SerialState) (s : State) : (setSerial x s).sys = s.sys := rfl
@[simp] theorem setSerial_cue (x : SerialState) (s : State) : (setSerial x s).cue = s.cue := rfl
@[simp] theorem setSerial_call (x : SerialState) (s : State) : (setSerial x s).call = s.call := rfl
@[simp] theorem setSerial_power (x : SerialState) (s : State) : (setSerial x s).power = s.power := rfl
@[simp] theorem setSerial_trust (x : SerialState) (s : State) : (setSerial x s).trust = s.trust := rfl
@[simp] theorem setSerial_ingest (x : SerialState) (s : State) : (setSerial x s).ingest = s.ingest := rfl
@[simp] theorem setSerial_ledger (x : SerialState) (s : State) : (setSerial x s).ledger = s.ledger := rfl
@[simp] theorem setSerial_cell (x : SerialState) (s : State) : (setSerial x s).cell = s.cell := rfl
@[simp] theorem setSerial_pipe (x : SerialState) (s : State) : (setSerial x s).pipe = s.pipe := rfl
@[simp] theorem setSerial_hash (x : SerialState) (s : State) : (setSerial x s).hash = s.hash := rfl
@[simp] theorem setSerial_pool (x : SerialState) (s : State) : (setSerial x s).pool = s.pool := rfl
@[simp] theorem setSerial_klink (x : SerialState) (s : State) : (setSerial x s).klink = s.klink := rfl
@[simp] theorem setSerial_rawc (x : SerialState) (s : State) : (setSerial x s).rawc = s.rawc := rfl
@[simp] theorem setSerial_mag (x : SerialState) (s : State) : (setSerial x s).mag = s.mag := rfl
@[simp] theorem setSerial_heve (x : SerialState) (s : State) : (setSerial x s).heve = s.heve := rfl
@[simp] theorem setSerial_hevd (x : SerialState) (s : State) : (setSerial x s).hevd = s.hevd := rfl
@[simp] theorem setSerial_serial (x : SerialState) (s : State) : (setSerial x s).serial = x := rfl
@[simp] theorem setSerial_net (x : SerialState) (s : State) : (setSerial x s).net = s.net := rfl
@[simp] theorem setSerial_clock (x : SerialState) (s : State) : (setSerial x s).clock = s.clock := rfl
@[simp] theorem setSerial_motion (x : SerialState) (s : State) : (setSerial x s).motion = s.motion := rfl
@[simp] theorem setSerial_view (x : SerialState) (s : State) : (setSerial x s).view = s.view := rfl
@[simp] theorem setSerial_mgmt (x : SerialState) (s : State) : (setSerial x s).mgmt = s.mgmt := rfl

/-! ### setCell -/

@[simp] theorem setCell_pending (c : CellState) (s : State) : (setCell c s).pending = s.pending := rfl
@[simp] theorem setCell_ticks (c : CellState) (s : State) : (setCell c s).ticks = s.ticks := rfl
@[simp] theorem setCell_time (c : CellState) (s : State) : (setCell c s).time = s.time := rfl
@[simp] theorem setCell_regs (c : CellState) (s : State) : (setCell c s).regs = s.regs := rfl
@[simp] theorem setCell_free (c : CellState) (s : State) : (setCell c s).free = s.free := rfl
@[simp] theorem setCell_scratch (c : CellState) (s : State) : (setCell c s).scratch = s.scratch := rfl
@[simp] theorem setCell_smSram (c : CellState) (s : State) : (setCell c s).smSram = s.smSram := rfl
@[simp] theorem setCell_dram (c : CellState) (s : State) : (setCell c s).dram = s.dram := rfl
@[simp] theorem setCell_nvm (c : CellState) (s : State) : (setCell c s).nvm = s.nvm := rfl
@[simp] theorem setCell_mem (c : CellState) (s : State) : (setCell c s).mem = s.mem := rfl
@[simp] theorem setCell_sys (c : CellState) (s : State) : (setCell c s).sys = s.sys := rfl
@[simp] theorem setCell_cue (c : CellState) (s : State) : (setCell c s).cue = s.cue := rfl
@[simp] theorem setCell_call (c : CellState) (s : State) : (setCell c s).call = s.call := rfl
@[simp] theorem setCell_power (c : CellState) (s : State) : (setCell c s).power = s.power := rfl
@[simp] theorem setCell_trust (c : CellState) (s : State) : (setCell c s).trust = s.trust := rfl
@[simp] theorem setCell_ingest (c : CellState) (s : State) : (setCell c s).ingest = s.ingest := rfl
@[simp] theorem setCell_ledger (c : CellState) (s : State) : (setCell c s).ledger = s.ledger := rfl
@[simp] theorem setCell_cell (c : CellState) (s : State) : (setCell c s).cell = c := rfl
@[simp] theorem setCell_pipe (c : CellState) (s : State) : (setCell c s).pipe = s.pipe := rfl
@[simp] theorem setCell_hash (c : CellState) (s : State) : (setCell c s).hash = s.hash := rfl
@[simp] theorem setCell_pool (c : CellState) (s : State) : (setCell c s).pool = s.pool := rfl
@[simp] theorem setCell_klink (c : CellState) (s : State) : (setCell c s).klink = s.klink := rfl
@[simp] theorem setCell_rawc (c : CellState) (s : State) : (setCell c s).rawc = s.rawc := rfl
@[simp] theorem setCell_mag (c : CellState) (s : State) : (setCell c s).mag = s.mag := rfl
@[simp] theorem setCell_heve (c : CellState) (s : State) : (setCell c s).heve = s.heve := rfl
@[simp] theorem setCell_hevd (c : CellState) (s : State) : (setCell c s).hevd = s.hevd := rfl
@[simp] theorem setCell_serial (c : CellState) (s : State) : (setCell c s).serial = s.serial := rfl
@[simp] theorem setCell_net (c : CellState) (s : State) : (setCell c s).net = s.net := rfl
@[simp] theorem setCell_clock (c : CellState) (s : State) : (setCell c s).clock = s.clock := rfl
@[simp] theorem setCell_motion (c : CellState) (s : State) : (setCell c s).motion = s.motion := rfl
@[simp] theorem setCell_view (c : CellState) (s : State) : (setCell c s).view = s.view := rfl
@[simp] theorem setCell_mgmt (c : CellState) (s : State) : (setCell c s).mgmt = s.mgmt := rfl

/-! ### setCue -/

@[simp] theorem setCue_pending (c : CueState) (s : State) : (setCue c s).pending = s.pending := rfl
@[simp] theorem setCue_ticks (c : CueState) (s : State) : (setCue c s).ticks = s.ticks := rfl
@[simp] theorem setCue_time (c : CueState) (s : State) : (setCue c s).time = s.time := rfl
@[simp] theorem setCue_regs (c : CueState) (s : State) : (setCue c s).regs = s.regs := rfl
@[simp] theorem setCue_free (c : CueState) (s : State) : (setCue c s).free = s.free := rfl
@[simp] theorem setCue_scratch (c : CueState) (s : State) : (setCue c s).scratch = s.scratch := rfl
@[simp] theorem setCue_smSram (c : CueState) (s : State) : (setCue c s).smSram = s.smSram := rfl
@[simp] theorem setCue_dram (c : CueState) (s : State) : (setCue c s).dram = s.dram := rfl
@[simp] theorem setCue_nvm (c : CueState) (s : State) : (setCue c s).nvm = s.nvm := rfl
@[simp] theorem setCue_mem (c : CueState) (s : State) : (setCue c s).mem = s.mem := rfl
@[simp] theorem setCue_sys (c : CueState) (s : State) : (setCue c s).sys = s.sys := rfl
@[simp] theorem setCue_cue (c : CueState) (s : State) : (setCue c s).cue = c := rfl
@[simp] theorem setCue_call (c : CueState) (s : State) : (setCue c s).call = s.call := rfl
@[simp] theorem setCue_power (c : CueState) (s : State) : (setCue c s).power = s.power := rfl
@[simp] theorem setCue_trust (c : CueState) (s : State) : (setCue c s).trust = s.trust := rfl
@[simp] theorem setCue_ingest (c : CueState) (s : State) : (setCue c s).ingest = s.ingest := rfl
@[simp] theorem setCue_ledger (c : CueState) (s : State) : (setCue c s).ledger = s.ledger := rfl
@[simp] theorem setCue_cell (c : CueState) (s : State) : (setCue c s).cell = s.cell := rfl
@[simp] theorem setCue_pipe (c : CueState) (s : State) : (setCue c s).pipe = s.pipe := rfl
@[simp] theorem setCue_hash (c : CueState) (s : State) : (setCue c s).hash = s.hash := rfl
@[simp] theorem setCue_pool (c : CueState) (s : State) : (setCue c s).pool = s.pool := rfl
@[simp] theorem setCue_klink (c : CueState) (s : State) : (setCue c s).klink = s.klink := rfl
@[simp] theorem setCue_rawc (c : CueState) (s : State) : (setCue c s).rawc = s.rawc := rfl
@[simp] theorem setCue_mag (c : CueState) (s : State) : (setCue c s).mag = s.mag := rfl
@[simp] theorem setCue_heve (c : CueState) (s : State) : (setCue c s).heve = s.heve := rfl
@[simp] theorem setCue_hevd (c : CueState) (s : State) : (setCue c s).hevd = s.hevd := rfl
@[simp] theorem setCue_serial (c : CueState) (s : State) : (setCue c s).serial = s.serial := rfl
@[simp] theorem setCue_net (c : CueState) (s : State) : (setCue c s).net = s.net := rfl
@[simp] theorem setCue_clock (c : CueState) (s : State) : (setCue c s).clock = s.clock := rfl
@[simp] theorem setCue_motion (c : CueState) (s : State) : (setCue c s).motion = s.motion := rfl
@[simp] theorem setCue_view (c : CueState) (s : State) : (setCue c s).view = s.view := rfl
@[simp] theorem setCue_mgmt (c : CueState) (s : State) : (setCue c s).mgmt = s.mgmt := rfl

/-! ### setMem -/

@[simp] theorem setMem_pending (m : DramState) (s : State) : (setMem m s).pending = s.pending := rfl
@[simp] theorem setMem_ticks (m : DramState) (s : State) : (setMem m s).ticks = s.ticks := rfl
@[simp] theorem setMem_time (m : DramState) (s : State) : (setMem m s).time = s.time := rfl
@[simp] theorem setMem_regs (m : DramState) (s : State) : (setMem m s).regs = s.regs := rfl
@[simp] theorem setMem_free (m : DramState) (s : State) : (setMem m s).free = s.free := rfl
@[simp] theorem setMem_scratch (m : DramState) (s : State) : (setMem m s).scratch = s.scratch := rfl
@[simp] theorem setMem_smSram (m : DramState) (s : State) : (setMem m s).smSram = s.smSram := rfl
@[simp] theorem setMem_dram (m : DramState) (s : State) : (setMem m s).dram = s.dram := rfl
@[simp] theorem setMem_nvm (m : DramState) (s : State) : (setMem m s).nvm = s.nvm := rfl
@[simp] theorem setMem_mem (m : DramState) (s : State) : (setMem m s).mem = m := rfl
@[simp] theorem setMem_sys (m : DramState) (s : State) : (setMem m s).sys = s.sys := rfl
@[simp] theorem setMem_cue (m : DramState) (s : State) : (setMem m s).cue = s.cue := rfl
@[simp] theorem setMem_call (m : DramState) (s : State) : (setMem m s).call = s.call := rfl
@[simp] theorem setMem_power (m : DramState) (s : State) : (setMem m s).power = s.power := rfl
@[simp] theorem setMem_trust (m : DramState) (s : State) : (setMem m s).trust = s.trust := rfl
@[simp] theorem setMem_ingest (m : DramState) (s : State) : (setMem m s).ingest = s.ingest := rfl
@[simp] theorem setMem_ledger (m : DramState) (s : State) : (setMem m s).ledger = s.ledger := rfl
@[simp] theorem setMem_cell (m : DramState) (s : State) : (setMem m s).cell = s.cell := rfl
@[simp] theorem setMem_pipe (m : DramState) (s : State) : (setMem m s).pipe = s.pipe := rfl
@[simp] theorem setMem_hash (m : DramState) (s : State) : (setMem m s).hash = s.hash := rfl
@[simp] theorem setMem_pool (m : DramState) (s : State) : (setMem m s).pool = s.pool := rfl
@[simp] theorem setMem_klink (m : DramState) (s : State) : (setMem m s).klink = s.klink := rfl
@[simp] theorem setMem_rawc (m : DramState) (s : State) : (setMem m s).rawc = s.rawc := rfl
@[simp] theorem setMem_mag (m : DramState) (s : State) : (setMem m s).mag = s.mag := rfl
@[simp] theorem setMem_heve (m : DramState) (s : State) : (setMem m s).heve = s.heve := rfl
@[simp] theorem setMem_hevd (m : DramState) (s : State) : (setMem m s).hevd = s.hevd := rfl
@[simp] theorem setMem_serial (m : DramState) (s : State) : (setMem m s).serial = s.serial := rfl
@[simp] theorem setMem_net (m : DramState) (s : State) : (setMem m s).net = s.net := rfl
@[simp] theorem setMem_clock (m : DramState) (s : State) : (setMem m s).clock = s.clock := rfl
@[simp] theorem setMem_motion (m : DramState) (s : State) : (setMem m s).motion = s.motion := rfl
@[simp] theorem setMem_view (m : DramState) (s : State) : (setMem m s).view = s.view := rfl
@[simp] theorem setMem_mgmt (m : DramState) (s : State) : (setMem m s).mgmt = s.mgmt := rfl

/-! ### setHash -/

@[simp] theorem setHash_pending (h : HashState) (s : State) : (setHash h s).pending = s.pending := rfl
@[simp] theorem setHash_ticks (h : HashState) (s : State) : (setHash h s).ticks = s.ticks := rfl
@[simp] theorem setHash_time (h : HashState) (s : State) : (setHash h s).time = s.time := rfl
@[simp] theorem setHash_regs (h : HashState) (s : State) : (setHash h s).regs = s.regs := rfl
@[simp] theorem setHash_free (h : HashState) (s : State) : (setHash h s).free = s.free := rfl
@[simp] theorem setHash_scratch (h : HashState) (s : State) : (setHash h s).scratch = s.scratch := rfl
@[simp] theorem setHash_smSram (h : HashState) (s : State) : (setHash h s).smSram = s.smSram := rfl
@[simp] theorem setHash_dram (h : HashState) (s : State) : (setHash h s).dram = s.dram := rfl
@[simp] theorem setHash_nvm (h : HashState) (s : State) : (setHash h s).nvm = s.nvm := rfl
@[simp] theorem setHash_mem (h : HashState) (s : State) : (setHash h s).mem = s.mem := rfl
@[simp] theorem setHash_sys (h : HashState) (s : State) : (setHash h s).sys = s.sys := rfl
@[simp] theorem setHash_cue (h : HashState) (s : State) : (setHash h s).cue = s.cue := rfl
@[simp] theorem setHash_call (h : HashState) (s : State) : (setHash h s).call = s.call := rfl
@[simp] theorem setHash_power (h : HashState) (s : State) : (setHash h s).power = s.power := rfl
@[simp] theorem setHash_trust (h : HashState) (s : State) : (setHash h s).trust = s.trust := rfl
@[simp] theorem setHash_ingest (h : HashState) (s : State) : (setHash h s).ingest = s.ingest := rfl
@[simp] theorem setHash_ledger (h : HashState) (s : State) : (setHash h s).ledger = s.ledger := rfl
@[simp] theorem setHash_cell (h : HashState) (s : State) : (setHash h s).cell = s.cell := rfl
@[simp] theorem setHash_pipe (h : HashState) (s : State) : (setHash h s).pipe = s.pipe := rfl
@[simp] theorem setHash_hash (h : HashState) (s : State) : (setHash h s).hash = h := rfl
@[simp] theorem setHash_pool (h : HashState) (s : State) : (setHash h s).pool = s.pool := rfl
@[simp] theorem setHash_klink (h : HashState) (s : State) : (setHash h s).klink = s.klink := rfl
@[simp] theorem setHash_rawc (h : HashState) (s : State) : (setHash h s).rawc = s.rawc := rfl
@[simp] theorem setHash_mag (h : HashState) (s : State) : (setHash h s).mag = s.mag := rfl
@[simp] theorem setHash_heve (h : HashState) (s : State) : (setHash h s).heve = s.heve := rfl
@[simp] theorem setHash_hevd (h : HashState) (s : State) : (setHash h s).hevd = s.hevd := rfl
@[simp] theorem setHash_serial (h : HashState) (s : State) : (setHash h s).serial = s.serial := rfl
@[simp] theorem setHash_net (h : HashState) (s : State) : (setHash h s).net = s.net := rfl
@[simp] theorem setHash_clock (h : HashState) (s : State) : (setHash h s).clock = s.clock := rfl
@[simp] theorem setHash_motion (h : HashState) (s : State) : (setHash h s).motion = s.motion := rfl
@[simp] theorem setHash_view (h : HashState) (s : State) : (setHash h s).view = s.view := rfl
@[simp] theorem setHash_mgmt (h : HashState) (s : State) : (setHash h s).mgmt = s.mgmt := rfl

/-! ### setHevd -/

@[simp] theorem setHevd_pending (h : HevdState) (s : State) : (setHevd h s).pending = s.pending := rfl
@[simp] theorem setHevd_ticks (h : HevdState) (s : State) : (setHevd h s).ticks = s.ticks := rfl
@[simp] theorem setHevd_time (h : HevdState) (s : State) : (setHevd h s).time = s.time := rfl
@[simp] theorem setHevd_regs (h : HevdState) (s : State) : (setHevd h s).regs = s.regs := rfl
@[simp] theorem setHevd_free (h : HevdState) (s : State) : (setHevd h s).free = s.free := rfl
@[simp] theorem setHevd_scratch (h : HevdState) (s : State) : (setHevd h s).scratch = s.scratch := rfl
@[simp] theorem setHevd_smSram (h : HevdState) (s : State) : (setHevd h s).smSram = s.smSram := rfl
@[simp] theorem setHevd_dram (h : HevdState) (s : State) : (setHevd h s).dram = s.dram := rfl
@[simp] theorem setHevd_nvm (h : HevdState) (s : State) : (setHevd h s).nvm = s.nvm := rfl
@[simp] theorem setHevd_mem (h : HevdState) (s : State) : (setHevd h s).mem = s.mem := rfl
@[simp] theorem setHevd_sys (h : HevdState) (s : State) : (setHevd h s).sys = s.sys := rfl
@[simp] theorem setHevd_cue (h : HevdState) (s : State) : (setHevd h s).cue = s.cue := rfl
@[simp] theorem setHevd_call (h : HevdState) (s : State) : (setHevd h s).call = s.call := rfl
@[simp] theorem setHevd_power (h : HevdState) (s : State) : (setHevd h s).power = s.power := rfl
@[simp] theorem setHevd_trust (h : HevdState) (s : State) : (setHevd h s).trust = s.trust := rfl
@[simp] theorem setHevd_ingest (h : HevdState) (s : State) : (setHevd h s).ingest = s.ingest := rfl
@[simp] theorem setHevd_ledger (h : HevdState) (s : State) : (setHevd h s).ledger = s.ledger := rfl
@[simp] theorem setHevd_cell (h : HevdState) (s : State) : (setHevd h s).cell = s.cell := rfl
@[simp] theorem setHevd_pipe (h : HevdState) (s : State) : (setHevd h s).pipe = s.pipe := rfl
@[simp] theorem setHevd_hash (h : HevdState) (s : State) : (setHevd h s).hash = s.hash := rfl
@[simp] theorem setHevd_pool (h : HevdState) (s : State) : (setHevd h s).pool = s.pool := rfl
@[simp] theorem setHevd_klink (h : HevdState) (s : State) : (setHevd h s).klink = s.klink := rfl
@[simp] theorem setHevd_rawc (h : HevdState) (s : State) : (setHevd h s).rawc = s.rawc := rfl
@[simp] theorem setHevd_mag (h : HevdState) (s : State) : (setHevd h s).mag = s.mag := rfl
@[simp] theorem setHevd_heve (h : HevdState) (s : State) : (setHevd h s).heve = s.heve := rfl
@[simp] theorem setHevd_hevd (h : HevdState) (s : State) : (setHevd h s).hevd = h := rfl
@[simp] theorem setHevd_serial (h : HevdState) (s : State) : (setHevd h s).serial = s.serial := rfl
@[simp] theorem setHevd_net (h : HevdState) (s : State) : (setHevd h s).net = s.net := rfl
@[simp] theorem setHevd_clock (h : HevdState) (s : State) : (setHevd h s).clock = s.clock := rfl
@[simp] theorem setHevd_motion (h : HevdState) (s : State) : (setHevd h s).motion = s.motion := rfl
@[simp] theorem setHevd_view (h : HevdState) (s : State) : (setHevd h s).view = s.view := rfl
@[simp] theorem setHevd_mgmt (h : HevdState) (s : State) : (setHevd h s).mgmt = s.mgmt := rfl

/-! ### setKlink -/

@[simp] theorem setKlink_pending (k : KlinkState) (s : State) : (setKlink k s).pending = s.pending := rfl
@[simp] theorem setKlink_ticks (k : KlinkState) (s : State) : (setKlink k s).ticks = s.ticks := rfl
@[simp] theorem setKlink_time (k : KlinkState) (s : State) : (setKlink k s).time = s.time := rfl
@[simp] theorem setKlink_regs (k : KlinkState) (s : State) : (setKlink k s).regs = s.regs := rfl
@[simp] theorem setKlink_free (k : KlinkState) (s : State) : (setKlink k s).free = s.free := rfl
@[simp] theorem setKlink_scratch (k : KlinkState) (s : State) : (setKlink k s).scratch = s.scratch := rfl
@[simp] theorem setKlink_smSram (k : KlinkState) (s : State) : (setKlink k s).smSram = s.smSram := rfl
@[simp] theorem setKlink_dram (k : KlinkState) (s : State) : (setKlink k s).dram = s.dram := rfl
@[simp] theorem setKlink_nvm (k : KlinkState) (s : State) : (setKlink k s).nvm = s.nvm := rfl
@[simp] theorem setKlink_mem (k : KlinkState) (s : State) : (setKlink k s).mem = s.mem := rfl
@[simp] theorem setKlink_sys (k : KlinkState) (s : State) : (setKlink k s).sys = s.sys := rfl
@[simp] theorem setKlink_cue (k : KlinkState) (s : State) : (setKlink k s).cue = s.cue := rfl
@[simp] theorem setKlink_call (k : KlinkState) (s : State) : (setKlink k s).call = s.call := rfl
@[simp] theorem setKlink_power (k : KlinkState) (s : State) : (setKlink k s).power = s.power := rfl
@[simp] theorem setKlink_trust (k : KlinkState) (s : State) : (setKlink k s).trust = s.trust := rfl
@[simp] theorem setKlink_ingest (k : KlinkState) (s : State) : (setKlink k s).ingest = s.ingest := rfl
@[simp] theorem setKlink_ledger (k : KlinkState) (s : State) : (setKlink k s).ledger = s.ledger := rfl
@[simp] theorem setKlink_cell (k : KlinkState) (s : State) : (setKlink k s).cell = s.cell := rfl
@[simp] theorem setKlink_pipe (k : KlinkState) (s : State) : (setKlink k s).pipe = s.pipe := rfl
@[simp] theorem setKlink_hash (k : KlinkState) (s : State) : (setKlink k s).hash = s.hash := rfl
@[simp] theorem setKlink_pool (k : KlinkState) (s : State) : (setKlink k s).pool = s.pool := rfl
@[simp] theorem setKlink_klink (k : KlinkState) (s : State) : (setKlink k s).klink = k := rfl
@[simp] theorem setKlink_rawc (k : KlinkState) (s : State) : (setKlink k s).rawc = s.rawc := rfl
@[simp] theorem setKlink_mag (k : KlinkState) (s : State) : (setKlink k s).mag = s.mag := rfl
@[simp] theorem setKlink_heve (k : KlinkState) (s : State) : (setKlink k s).heve = s.heve := rfl
@[simp] theorem setKlink_hevd (k : KlinkState) (s : State) : (setKlink k s).hevd = s.hevd := rfl
@[simp] theorem setKlink_serial (k : KlinkState) (s : State) : (setKlink k s).serial = s.serial := rfl
@[simp] theorem setKlink_net (k : KlinkState) (s : State) : (setKlink k s).net = s.net := rfl
@[simp] theorem setKlink_clock (k : KlinkState) (s : State) : (setKlink k s).clock = s.clock := rfl
@[simp] theorem setKlink_motion (k : KlinkState) (s : State) : (setKlink k s).motion = s.motion := rfl
@[simp] theorem setKlink_view (k : KlinkState) (s : State) : (setKlink k s).view = s.view := rfl
@[simp] theorem setKlink_mgmt (k : KlinkState) (s : State) : (setKlink k s).mgmt = s.mgmt := rfl

/-! ### setLedger -/

@[simp] theorem setLedger_pending (l : LedgerState) (s : State) : (setLedger l s).pending = s.pending := rfl
@[simp] theorem setLedger_ticks (l : LedgerState) (s : State) : (setLedger l s).ticks = s.ticks := rfl
@[simp] theorem setLedger_time (l : LedgerState) (s : State) : (setLedger l s).time = s.time := rfl
@[simp] theorem setLedger_regs (l : LedgerState) (s : State) : (setLedger l s).regs = s.regs := rfl
@[simp] theorem setLedger_free (l : LedgerState) (s : State) : (setLedger l s).free = s.free := rfl
@[simp] theorem setLedger_scratch (l : LedgerState) (s : State) : (setLedger l s).scratch = s.scratch := rfl
@[simp] theorem setLedger_smSram (l : LedgerState) (s : State) : (setLedger l s).smSram = s.smSram := rfl
@[simp] theorem setLedger_dram (l : LedgerState) (s : State) : (setLedger l s).dram = s.dram := rfl
@[simp] theorem setLedger_nvm (l : LedgerState) (s : State) : (setLedger l s).nvm = s.nvm := rfl
@[simp] theorem setLedger_mem (l : LedgerState) (s : State) : (setLedger l s).mem = s.mem := rfl
@[simp] theorem setLedger_sys (l : LedgerState) (s : State) : (setLedger l s).sys = s.sys := rfl
@[simp] theorem setLedger_cue (l : LedgerState) (s : State) : (setLedger l s).cue = s.cue := rfl
@[simp] theorem setLedger_call (l : LedgerState) (s : State) : (setLedger l s).call = s.call := rfl
@[simp] theorem setLedger_power (l : LedgerState) (s : State) : (setLedger l s).power = s.power := rfl
@[simp] theorem setLedger_trust (l : LedgerState) (s : State) : (setLedger l s).trust = s.trust := rfl
@[simp] theorem setLedger_ingest (l : LedgerState) (s : State) : (setLedger l s).ingest = s.ingest := rfl
@[simp] theorem setLedger_ledger (l : LedgerState) (s : State) : (setLedger l s).ledger = l := rfl
@[simp] theorem setLedger_cell (l : LedgerState) (s : State) : (setLedger l s).cell = s.cell := rfl
@[simp] theorem setLedger_pipe (l : LedgerState) (s : State) : (setLedger l s).pipe = s.pipe := rfl
@[simp] theorem setLedger_hash (l : LedgerState) (s : State) : (setLedger l s).hash = s.hash := rfl
@[simp] theorem setLedger_pool (l : LedgerState) (s : State) : (setLedger l s).pool = s.pool := rfl
@[simp] theorem setLedger_klink (l : LedgerState) (s : State) : (setLedger l s).klink = s.klink := rfl
@[simp] theorem setLedger_rawc (l : LedgerState) (s : State) : (setLedger l s).rawc = s.rawc := rfl
@[simp] theorem setLedger_mag (l : LedgerState) (s : State) : (setLedger l s).mag = s.mag := rfl
@[simp] theorem setLedger_heve (l : LedgerState) (s : State) : (setLedger l s).heve = s.heve := rfl
@[simp] theorem setLedger_hevd (l : LedgerState) (s : State) : (setLedger l s).hevd = s.hevd := rfl
@[simp] theorem setLedger_serial (l : LedgerState) (s : State) : (setLedger l s).serial = s.serial := rfl
@[simp] theorem setLedger_net (l : LedgerState) (s : State) : (setLedger l s).net = s.net := rfl
@[simp] theorem setLedger_clock (l : LedgerState) (s : State) : (setLedger l s).clock = s.clock := rfl
@[simp] theorem setLedger_motion (l : LedgerState) (s : State) : (setLedger l s).motion = s.motion := rfl
@[simp] theorem setLedger_view (l : LedgerState) (s : State) : (setLedger l s).view = s.view := rfl
@[simp] theorem setLedger_mgmt (l : LedgerState) (s : State) : (setLedger l s).mgmt = s.mgmt := rfl

/-! ### setMag -/

@[simp] theorem setMag_pending (m : MagState) (s : State) : (setMag m s).pending = s.pending := rfl
@[simp] theorem setMag_ticks (m : MagState) (s : State) : (setMag m s).ticks = s.ticks := rfl
@[simp] theorem setMag_time (m : MagState) (s : State) : (setMag m s).time = s.time := rfl
@[simp] theorem setMag_regs (m : MagState) (s : State) : (setMag m s).regs = s.regs := rfl
@[simp] theorem setMag_free (m : MagState) (s : State) : (setMag m s).free = s.free := rfl
@[simp] theorem setMag_scratch (m : MagState) (s : State) : (setMag m s).scratch = s.scratch := rfl
@[simp] theorem setMag_smSram (m : MagState) (s : State) : (setMag m s).smSram = s.smSram := rfl
@[simp] theorem setMag_dram (m : MagState) (s : State) : (setMag m s).dram = s.dram := rfl
@[simp] theorem setMag_nvm (m : MagState) (s : State) : (setMag m s).nvm = s.nvm := rfl
@[simp] theorem setMag_mem (m : MagState) (s : State) : (setMag m s).mem = s.mem := rfl
@[simp] theorem setMag_sys (m : MagState) (s : State) : (setMag m s).sys = s.sys := rfl
@[simp] theorem setMag_cue (m : MagState) (s : State) : (setMag m s).cue = s.cue := rfl
@[simp] theorem setMag_call (m : MagState) (s : State) : (setMag m s).call = s.call := rfl
@[simp] theorem setMag_power (m : MagState) (s : State) : (setMag m s).power = s.power := rfl
@[simp] theorem setMag_trust (m : MagState) (s : State) : (setMag m s).trust = s.trust := rfl
@[simp] theorem setMag_ingest (m : MagState) (s : State) : (setMag m s).ingest = s.ingest := rfl
@[simp] theorem setMag_ledger (m : MagState) (s : State) : (setMag m s).ledger = s.ledger := rfl
@[simp] theorem setMag_cell (m : MagState) (s : State) : (setMag m s).cell = s.cell := rfl
@[simp] theorem setMag_pipe (m : MagState) (s : State) : (setMag m s).pipe = s.pipe := rfl
@[simp] theorem setMag_hash (m : MagState) (s : State) : (setMag m s).hash = s.hash := rfl
@[simp] theorem setMag_pool (m : MagState) (s : State) : (setMag m s).pool = s.pool := rfl
@[simp] theorem setMag_klink (m : MagState) (s : State) : (setMag m s).klink = s.klink := rfl
@[simp] theorem setMag_rawc (m : MagState) (s : State) : (setMag m s).rawc = s.rawc := rfl
@[simp] theorem setMag_mag (m : MagState) (s : State) : (setMag m s).mag = m := rfl
@[simp] theorem setMag_heve (m : MagState) (s : State) : (setMag m s).heve = s.heve := rfl
@[simp] theorem setMag_hevd (m : MagState) (s : State) : (setMag m s).hevd = s.hevd := rfl
@[simp] theorem setMag_serial (m : MagState) (s : State) : (setMag m s).serial = s.serial := rfl
@[simp] theorem setMag_net (m : MagState) (s : State) : (setMag m s).net = s.net := rfl
@[simp] theorem setMag_clock (m : MagState) (s : State) : (setMag m s).clock = s.clock := rfl
@[simp] theorem setMag_motion (m : MagState) (s : State) : (setMag m s).motion = s.motion := rfl
@[simp] theorem setMag_view (m : MagState) (s : State) : (setMag m s).view = s.view := rfl
@[simp] theorem setMag_mgmt (m : MagState) (s : State) : (setMag m s).mgmt = s.mgmt := rfl

/-! ### setMgmt -/

@[simp] theorem setMgmt_pending (m : MgmtState) (s : State) : (setMgmt m s).pending = s.pending := rfl
@[simp] theorem setMgmt_ticks (m : MgmtState) (s : State) : (setMgmt m s).ticks = s.ticks := rfl
@[simp] theorem setMgmt_time (m : MgmtState) (s : State) : (setMgmt m s).time = s.time := rfl
@[simp] theorem setMgmt_regs (m : MgmtState) (s : State) : (setMgmt m s).regs = s.regs := rfl
@[simp] theorem setMgmt_free (m : MgmtState) (s : State) : (setMgmt m s).free = s.free := rfl
@[simp] theorem setMgmt_scratch (m : MgmtState) (s : State) : (setMgmt m s).scratch = s.scratch := rfl
@[simp] theorem setMgmt_smSram (m : MgmtState) (s : State) : (setMgmt m s).smSram = s.smSram := rfl
@[simp] theorem setMgmt_dram (m : MgmtState) (s : State) : (setMgmt m s).dram = s.dram := rfl
@[simp] theorem setMgmt_nvm (m : MgmtState) (s : State) : (setMgmt m s).nvm = s.nvm := rfl
@[simp] theorem setMgmt_mem (m : MgmtState) (s : State) : (setMgmt m s).mem = s.mem := rfl
@[simp] theorem setMgmt_sys (m : MgmtState) (s : State) : (setMgmt m s).sys = s.sys := rfl
@[simp] theorem setMgmt_cue (m : MgmtState) (s : State) : (setMgmt m s).cue = s.cue := rfl
@[simp] theorem setMgmt_call (m : MgmtState) (s : State) : (setMgmt m s).call = s.call := rfl
@[simp] theorem setMgmt_power (m : MgmtState) (s : State) : (setMgmt m s).power = s.power := rfl
@[simp] theorem setMgmt_trust (m : MgmtState) (s : State) : (setMgmt m s).trust = s.trust := rfl
@[simp] theorem setMgmt_ingest (m : MgmtState) (s : State) : (setMgmt m s).ingest = s.ingest := rfl
@[simp] theorem setMgmt_ledger (m : MgmtState) (s : State) : (setMgmt m s).ledger = s.ledger := rfl
@[simp] theorem setMgmt_cell (m : MgmtState) (s : State) : (setMgmt m s).cell = s.cell := rfl
@[simp] theorem setMgmt_pipe (m : MgmtState) (s : State) : (setMgmt m s).pipe = s.pipe := rfl
@[simp] theorem setMgmt_hash (m : MgmtState) (s : State) : (setMgmt m s).hash = s.hash := rfl
@[simp] theorem setMgmt_pool (m : MgmtState) (s : State) : (setMgmt m s).pool = s.pool := rfl
@[simp] theorem setMgmt_klink (m : MgmtState) (s : State) : (setMgmt m s).klink = s.klink := rfl
@[simp] theorem setMgmt_rawc (m : MgmtState) (s : State) : (setMgmt m s).rawc = s.rawc := rfl
@[simp] theorem setMgmt_mag (m : MgmtState) (s : State) : (setMgmt m s).mag = s.mag := rfl
@[simp] theorem setMgmt_heve (m : MgmtState) (s : State) : (setMgmt m s).heve = s.heve := rfl
@[simp] theorem setMgmt_hevd (m : MgmtState) (s : State) : (setMgmt m s).hevd = s.hevd := rfl
@[simp] theorem setMgmt_serial (m : MgmtState) (s : State) : (setMgmt m s).serial = s.serial := rfl
@[simp] theorem setMgmt_net (m : MgmtState) (s : State) : (setMgmt m s).net = s.net := rfl
@[simp] theorem setMgmt_clock (m : MgmtState) (s : State) : (setMgmt m s).clock = s.clock := rfl
@[simp] theorem setMgmt_motion (m : MgmtState) (s : State) : (setMgmt m s).motion = s.motion := rfl
@[simp] theorem setMgmt_view (m : MgmtState) (s : State) : (setMgmt m s).view = s.view := rfl
@[simp] theorem setMgmt_mgmt (m : MgmtState) (s : State) : (setMgmt m s).mgmt = m := rfl

/-! ### setMotion -/

@[simp] theorem setMotion_pending (m : MotionState) (s : State) : (setMotion m s).pending = s.pending := rfl
@[simp] theorem setMotion_ticks (m : MotionState) (s : State) : (setMotion m s).ticks = s.ticks := rfl
@[simp] theorem setMotion_time (m : MotionState) (s : State) : (setMotion m s).time = s.time := rfl
@[simp] theorem setMotion_regs (m : MotionState) (s : State) : (setMotion m s).regs = s.regs := rfl
@[simp] theorem setMotion_free (m : MotionState) (s : State) : (setMotion m s).free = s.free := rfl
@[simp] theorem setMotion_scratch (m : MotionState) (s : State) : (setMotion m s).scratch = s.scratch := rfl
@[simp] theorem setMotion_smSram (m : MotionState) (s : State) : (setMotion m s).smSram = s.smSram := rfl
@[simp] theorem setMotion_dram (m : MotionState) (s : State) : (setMotion m s).dram = s.dram := rfl
@[simp] theorem setMotion_nvm (m : MotionState) (s : State) : (setMotion m s).nvm = s.nvm := rfl
@[simp] theorem setMotion_mem (m : MotionState) (s : State) : (setMotion m s).mem = s.mem := rfl
@[simp] theorem setMotion_sys (m : MotionState) (s : State) : (setMotion m s).sys = s.sys := rfl
@[simp] theorem setMotion_cue (m : MotionState) (s : State) : (setMotion m s).cue = s.cue := rfl
@[simp] theorem setMotion_call (m : MotionState) (s : State) : (setMotion m s).call = s.call := rfl
@[simp] theorem setMotion_power (m : MotionState) (s : State) : (setMotion m s).power = s.power := rfl
@[simp] theorem setMotion_trust (m : MotionState) (s : State) : (setMotion m s).trust = s.trust := rfl
@[simp] theorem setMotion_ingest (m : MotionState) (s : State) : (setMotion m s).ingest = s.ingest := rfl
@[simp] theorem setMotion_ledger (m : MotionState) (s : State) : (setMotion m s).ledger = s.ledger := rfl
@[simp] theorem setMotion_cell (m : MotionState) (s : State) : (setMotion m s).cell = s.cell := rfl
@[simp] theorem setMotion_pipe (m : MotionState) (s : State) : (setMotion m s).pipe = s.pipe := rfl
@[simp] theorem setMotion_hash (m : MotionState) (s : State) : (setMotion m s).hash = s.hash := rfl
@[simp] theorem setMotion_pool (m : MotionState) (s : State) : (setMotion m s).pool = s.pool := rfl
@[simp] theorem setMotion_klink (m : MotionState) (s : State) : (setMotion m s).klink = s.klink := rfl
@[simp] theorem setMotion_rawc (m : MotionState) (s : State) : (setMotion m s).rawc = s.rawc := rfl
@[simp] theorem setMotion_mag (m : MotionState) (s : State) : (setMotion m s).mag = s.mag := rfl
@[simp] theorem setMotion_heve (m : MotionState) (s : State) : (setMotion m s).heve = s.heve := rfl
@[simp] theorem setMotion_hevd (m : MotionState) (s : State) : (setMotion m s).hevd = s.hevd := rfl
@[simp] theorem setMotion_serial (m : MotionState) (s : State) : (setMotion m s).serial = s.serial := rfl
@[simp] theorem setMotion_net (m : MotionState) (s : State) : (setMotion m s).net = s.net := rfl
@[simp] theorem setMotion_clock (m : MotionState) (s : State) : (setMotion m s).clock = s.clock := rfl
@[simp] theorem setMotion_motion (m : MotionState) (s : State) : (setMotion m s).motion = m := rfl
@[simp] theorem setMotion_view (m : MotionState) (s : State) : (setMotion m s).view = s.view := rfl
@[simp] theorem setMotion_mgmt (m : MotionState) (s : State) : (setMotion m s).mgmt = s.mgmt := rfl

/-! ### setNet -/

@[simp] theorem setNet_pending (n : NetState) (s : State) : (setNet n s).pending = s.pending := rfl
@[simp] theorem setNet_ticks (n : NetState) (s : State) : (setNet n s).ticks = s.ticks := rfl
@[simp] theorem setNet_time (n : NetState) (s : State) : (setNet n s).time = s.time := rfl
@[simp] theorem setNet_regs (n : NetState) (s : State) : (setNet n s).regs = s.regs := rfl
@[simp] theorem setNet_free (n : NetState) (s : State) : (setNet n s).free = s.free := rfl
@[simp] theorem setNet_scratch (n : NetState) (s : State) : (setNet n s).scratch = s.scratch := rfl
@[simp] theorem setNet_smSram (n : NetState) (s : State) : (setNet n s).smSram = s.smSram := rfl
@[simp] theorem setNet_dram (n : NetState) (s : State) : (setNet n s).dram = s.dram := rfl
@[simp] theorem setNet_nvm (n : NetState) (s : State) : (setNet n s).nvm = s.nvm := rfl
@[simp] theorem setNet_mem (n : NetState) (s : State) : (setNet n s).mem = s.mem := rfl
@[simp] theorem setNet_sys (n : NetState) (s : State) : (setNet n s).sys = s.sys := rfl
@[simp] theorem setNet_cue (n : NetState) (s : State) : (setNet n s).cue = s.cue := rfl
@[simp] theorem setNet_call (n : NetState) (s : State) : (setNet n s).call = s.call := rfl
@[simp] theorem setNet_power (n : NetState) (s : State) : (setNet n s).power = s.power := rfl
@[simp] theorem setNet_trust (n : NetState) (s : State) : (setNet n s).trust = s.trust := rfl
@[simp] theorem setNet_ingest (n : NetState) (s : State) : (setNet n s).ingest = s.ingest := rfl
@[simp] theorem setNet_ledger (n : NetState) (s : State) : (setNet n s).ledger = s.ledger := rfl
@[simp] theorem setNet_cell (n : NetState) (s : State) : (setNet n s).cell = s.cell := rfl
@[simp] theorem setNet_pipe (n : NetState) (s : State) : (setNet n s).pipe = s.pipe := rfl
@[simp] theorem setNet_hash (n : NetState) (s : State) : (setNet n s).hash = s.hash := rfl
@[simp] theorem setNet_pool (n : NetState) (s : State) : (setNet n s).pool = s.pool := rfl
@[simp] theorem setNet_klink (n : NetState) (s : State) : (setNet n s).klink = s.klink := rfl
@[simp] theorem setNet_rawc (n : NetState) (s : State) : (setNet n s).rawc = s.rawc := rfl
@[simp] theorem setNet_mag (n : NetState) (s : State) : (setNet n s).mag = s.mag := rfl
@[simp] theorem setNet_heve (n : NetState) (s : State) : (setNet n s).heve = s.heve := rfl
@[simp] theorem setNet_hevd (n : NetState) (s : State) : (setNet n s).hevd = s.hevd := rfl
@[simp] theorem setNet_serial (n : NetState) (s : State) : (setNet n s).serial = s.serial := rfl
@[simp] theorem setNet_net (n : NetState) (s : State) : (setNet n s).net = n := rfl
@[simp] theorem setNet_clock (n : NetState) (s : State) : (setNet n s).clock = s.clock := rfl
@[simp] theorem setNet_motion (n : NetState) (s : State) : (setNet n s).motion = s.motion := rfl
@[simp] theorem setNet_view (n : NetState) (s : State) : (setNet n s).view = s.view := rfl
@[simp] theorem setNet_mgmt (n : NetState) (s : State) : (setNet n s).mgmt = s.mgmt := rfl

/-! ### setHeve -/

@[simp] theorem setHeve_pending (h : List HeveEng) (s : State) : (setHeve h s).pending = s.pending := rfl
@[simp] theorem setHeve_ticks (h : List HeveEng) (s : State) : (setHeve h s).ticks = s.ticks := rfl
@[simp] theorem setHeve_time (h : List HeveEng) (s : State) : (setHeve h s).time = s.time := rfl
@[simp] theorem setHeve_regs (h : List HeveEng) (s : State) : (setHeve h s).regs = s.regs := rfl
@[simp] theorem setHeve_free (h : List HeveEng) (s : State) : (setHeve h s).free = s.free := rfl
@[simp] theorem setHeve_scratch (h : List HeveEng) (s : State) : (setHeve h s).scratch = s.scratch := rfl
@[simp] theorem setHeve_smSram (h : List HeveEng) (s : State) : (setHeve h s).smSram = s.smSram := rfl
@[simp] theorem setHeve_dram (h : List HeveEng) (s : State) : (setHeve h s).dram = s.dram := rfl
@[simp] theorem setHeve_nvm (h : List HeveEng) (s : State) : (setHeve h s).nvm = s.nvm := rfl
@[simp] theorem setHeve_mem (h : List HeveEng) (s : State) : (setHeve h s).mem = s.mem := rfl
@[simp] theorem setHeve_sys (h : List HeveEng) (s : State) : (setHeve h s).sys = s.sys := rfl
@[simp] theorem setHeve_cue (h : List HeveEng) (s : State) : (setHeve h s).cue = s.cue := rfl
@[simp] theorem setHeve_call (h : List HeveEng) (s : State) : (setHeve h s).call = s.call := rfl
@[simp] theorem setHeve_power (h : List HeveEng) (s : State) : (setHeve h s).power = s.power := rfl
@[simp] theorem setHeve_trust (h : List HeveEng) (s : State) : (setHeve h s).trust = s.trust := rfl
@[simp] theorem setHeve_ingest (h : List HeveEng) (s : State) : (setHeve h s).ingest = s.ingest := rfl
@[simp] theorem setHeve_ledger (h : List HeveEng) (s : State) : (setHeve h s).ledger = s.ledger := rfl
@[simp] theorem setHeve_cell (h : List HeveEng) (s : State) : (setHeve h s).cell = s.cell := rfl
@[simp] theorem setHeve_pipe (h : List HeveEng) (s : State) : (setHeve h s).pipe = s.pipe := rfl
@[simp] theorem setHeve_hash (h : List HeveEng) (s : State) : (setHeve h s).hash = s.hash := rfl
@[simp] theorem setHeve_pool (h : List HeveEng) (s : State) : (setHeve h s).pool = s.pool := rfl
@[simp] theorem setHeve_klink (h : List HeveEng) (s : State) : (setHeve h s).klink = s.klink := rfl
@[simp] theorem setHeve_rawc (h : List HeveEng) (s : State) : (setHeve h s).rawc = s.rawc := rfl
@[simp] theorem setHeve_mag (h : List HeveEng) (s : State) : (setHeve h s).mag = s.mag := rfl
@[simp] theorem setHeve_heve (h : List HeveEng) (s : State) : (setHeve h s).heve = h := rfl
@[simp] theorem setHeve_hevd (h : List HeveEng) (s : State) : (setHeve h s).hevd = s.hevd := rfl
@[simp] theorem setHeve_serial (h : List HeveEng) (s : State) : (setHeve h s).serial = s.serial := rfl
@[simp] theorem setHeve_net (h : List HeveEng) (s : State) : (setHeve h s).net = s.net := rfl
@[simp] theorem setHeve_clock (h : List HeveEng) (s : State) : (setHeve h s).clock = s.clock := rfl
@[simp] theorem setHeve_motion (h : List HeveEng) (s : State) : (setHeve h s).motion = s.motion := rfl
@[simp] theorem setHeve_view (h : List HeveEng) (s : State) : (setHeve h s).view = s.view := rfl
@[simp] theorem setHeve_mgmt (h : List HeveEng) (s : State) : (setHeve h s).mgmt = s.mgmt := rfl

/-! ### setPool -/

@[simp] theorem setPool_pending (p : PoolState) (s : State) : (setPool p s).pending = s.pending := rfl
@[simp] theorem setPool_ticks (p : PoolState) (s : State) : (setPool p s).ticks = s.ticks := rfl
@[simp] theorem setPool_time (p : PoolState) (s : State) : (setPool p s).time = s.time := rfl
@[simp] theorem setPool_regs (p : PoolState) (s : State) : (setPool p s).regs = s.regs := rfl
@[simp] theorem setPool_free (p : PoolState) (s : State) : (setPool p s).free = s.free := rfl
@[simp] theorem setPool_scratch (p : PoolState) (s : State) : (setPool p s).scratch = s.scratch := rfl
@[simp] theorem setPool_smSram (p : PoolState) (s : State) : (setPool p s).smSram = s.smSram := rfl
@[simp] theorem setPool_dram (p : PoolState) (s : State) : (setPool p s).dram = s.dram := rfl
@[simp] theorem setPool_nvm (p : PoolState) (s : State) : (setPool p s).nvm = s.nvm := rfl
@[simp] theorem setPool_mem (p : PoolState) (s : State) : (setPool p s).mem = s.mem := rfl
@[simp] theorem setPool_sys (p : PoolState) (s : State) : (setPool p s).sys = s.sys := rfl
@[simp] theorem setPool_cue (p : PoolState) (s : State) : (setPool p s).cue = s.cue := rfl
@[simp] theorem setPool_call (p : PoolState) (s : State) : (setPool p s).call = s.call := rfl
@[simp] theorem setPool_power (p : PoolState) (s : State) : (setPool p s).power = s.power := rfl
@[simp] theorem setPool_trust (p : PoolState) (s : State) : (setPool p s).trust = s.trust := rfl
@[simp] theorem setPool_ingest (p : PoolState) (s : State) : (setPool p s).ingest = s.ingest := rfl
@[simp] theorem setPool_ledger (p : PoolState) (s : State) : (setPool p s).ledger = s.ledger := rfl
@[simp] theorem setPool_cell (p : PoolState) (s : State) : (setPool p s).cell = s.cell := rfl
@[simp] theorem setPool_pipe (p : PoolState) (s : State) : (setPool p s).pipe = s.pipe := rfl
@[simp] theorem setPool_hash (p : PoolState) (s : State) : (setPool p s).hash = s.hash := rfl
@[simp] theorem setPool_pool (p : PoolState) (s : State) : (setPool p s).pool = p := rfl
@[simp] theorem setPool_klink (p : PoolState) (s : State) : (setPool p s).klink = s.klink := rfl
@[simp] theorem setPool_rawc (p : PoolState) (s : State) : (setPool p s).rawc = s.rawc := rfl
@[simp] theorem setPool_mag (p : PoolState) (s : State) : (setPool p s).mag = s.mag := rfl
@[simp] theorem setPool_heve (p : PoolState) (s : State) : (setPool p s).heve = s.heve := rfl
@[simp] theorem setPool_hevd (p : PoolState) (s : State) : (setPool p s).hevd = s.hevd := rfl
@[simp] theorem setPool_serial (p : PoolState) (s : State) : (setPool p s).serial = s.serial := rfl
@[simp] theorem setPool_net (p : PoolState) (s : State) : (setPool p s).net = s.net := rfl
@[simp] theorem setPool_clock (p : PoolState) (s : State) : (setPool p s).clock = s.clock := rfl
@[simp] theorem setPool_motion (p : PoolState) (s : State) : (setPool p s).motion = s.motion := rfl
@[simp] theorem setPool_view (p : PoolState) (s : State) : (setPool p s).view = s.view := rfl
@[simp] theorem setPool_mgmt (p : PoolState) (s : State) : (setPool p s).mgmt = s.mgmt := rfl

/-! ### setPower -/

@[simp] theorem setPower_pending (p : PowerState) (s : State) : (setPower p s).pending = s.pending := rfl
@[simp] theorem setPower_ticks (p : PowerState) (s : State) : (setPower p s).ticks = s.ticks := rfl
@[simp] theorem setPower_time (p : PowerState) (s : State) : (setPower p s).time = s.time := rfl
@[simp] theorem setPower_regs (p : PowerState) (s : State) : (setPower p s).regs = s.regs := rfl
@[simp] theorem setPower_free (p : PowerState) (s : State) : (setPower p s).free = s.free := rfl
@[simp] theorem setPower_scratch (p : PowerState) (s : State) : (setPower p s).scratch = s.scratch := rfl
@[simp] theorem setPower_smSram (p : PowerState) (s : State) : (setPower p s).smSram = s.smSram := rfl
@[simp] theorem setPower_dram (p : PowerState) (s : State) : (setPower p s).dram = s.dram := rfl
@[simp] theorem setPower_nvm (p : PowerState) (s : State) : (setPower p s).nvm = s.nvm := rfl
@[simp] theorem setPower_mem (p : PowerState) (s : State) : (setPower p s).mem = s.mem := rfl
@[simp] theorem setPower_sys (p : PowerState) (s : State) : (setPower p s).sys = s.sys := rfl
@[simp] theorem setPower_cue (p : PowerState) (s : State) : (setPower p s).cue = s.cue := rfl
@[simp] theorem setPower_call (p : PowerState) (s : State) : (setPower p s).call = s.call := rfl
@[simp] theorem setPower_power (p : PowerState) (s : State) : (setPower p s).power = p := rfl
@[simp] theorem setPower_trust (p : PowerState) (s : State) : (setPower p s).trust = s.trust := rfl
@[simp] theorem setPower_ingest (p : PowerState) (s : State) : (setPower p s).ingest = s.ingest := rfl
@[simp] theorem setPower_ledger (p : PowerState) (s : State) : (setPower p s).ledger = s.ledger := rfl
@[simp] theorem setPower_cell (p : PowerState) (s : State) : (setPower p s).cell = s.cell := rfl
@[simp] theorem setPower_pipe (p : PowerState) (s : State) : (setPower p s).pipe = s.pipe := rfl
@[simp] theorem setPower_hash (p : PowerState) (s : State) : (setPower p s).hash = s.hash := rfl
@[simp] theorem setPower_pool (p : PowerState) (s : State) : (setPower p s).pool = s.pool := rfl
@[simp] theorem setPower_klink (p : PowerState) (s : State) : (setPower p s).klink = s.klink := rfl
@[simp] theorem setPower_rawc (p : PowerState) (s : State) : (setPower p s).rawc = s.rawc := rfl
@[simp] theorem setPower_mag (p : PowerState) (s : State) : (setPower p s).mag = s.mag := rfl
@[simp] theorem setPower_heve (p : PowerState) (s : State) : (setPower p s).heve = s.heve := rfl
@[simp] theorem setPower_hevd (p : PowerState) (s : State) : (setPower p s).hevd = s.hevd := rfl
@[simp] theorem setPower_serial (p : PowerState) (s : State) : (setPower p s).serial = s.serial := rfl
@[simp] theorem setPower_net (p : PowerState) (s : State) : (setPower p s).net = s.net := rfl
@[simp] theorem setPower_clock (p : PowerState) (s : State) : (setPower p s).clock = s.clock := rfl
@[simp] theorem setPower_motion (p : PowerState) (s : State) : (setPower p s).motion = s.motion := rfl
@[simp] theorem setPower_view (p : PowerState) (s : State) : (setPower p s).view = s.view := rfl
@[simp] theorem setPower_mgmt (p : PowerState) (s : State) : (setPower p s).mgmt = s.mgmt := rfl

/-! ### setRawc -/

@[simp] theorem setRawc_pending (r : RawcState) (s : State) : (setRawc r s).pending = s.pending := rfl
@[simp] theorem setRawc_ticks (r : RawcState) (s : State) : (setRawc r s).ticks = s.ticks := rfl
@[simp] theorem setRawc_time (r : RawcState) (s : State) : (setRawc r s).time = s.time := rfl
@[simp] theorem setRawc_regs (r : RawcState) (s : State) : (setRawc r s).regs = s.regs := rfl
@[simp] theorem setRawc_free (r : RawcState) (s : State) : (setRawc r s).free = s.free := rfl
@[simp] theorem setRawc_scratch (r : RawcState) (s : State) : (setRawc r s).scratch = s.scratch := rfl
@[simp] theorem setRawc_smSram (r : RawcState) (s : State) : (setRawc r s).smSram = s.smSram := rfl
@[simp] theorem setRawc_dram (r : RawcState) (s : State) : (setRawc r s).dram = s.dram := rfl
@[simp] theorem setRawc_nvm (r : RawcState) (s : State) : (setRawc r s).nvm = s.nvm := rfl
@[simp] theorem setRawc_mem (r : RawcState) (s : State) : (setRawc r s).mem = s.mem := rfl
@[simp] theorem setRawc_sys (r : RawcState) (s : State) : (setRawc r s).sys = s.sys := rfl
@[simp] theorem setRawc_cue (r : RawcState) (s : State) : (setRawc r s).cue = s.cue := rfl
@[simp] theorem setRawc_call (r : RawcState) (s : State) : (setRawc r s).call = s.call := rfl
@[simp] theorem setRawc_power (r : RawcState) (s : State) : (setRawc r s).power = s.power := rfl
@[simp] theorem setRawc_trust (r : RawcState) (s : State) : (setRawc r s).trust = s.trust := rfl
@[simp] theorem setRawc_ingest (r : RawcState) (s : State) : (setRawc r s).ingest = s.ingest := rfl
@[simp] theorem setRawc_ledger (r : RawcState) (s : State) : (setRawc r s).ledger = s.ledger := rfl
@[simp] theorem setRawc_cell (r : RawcState) (s : State) : (setRawc r s).cell = s.cell := rfl
@[simp] theorem setRawc_pipe (r : RawcState) (s : State) : (setRawc r s).pipe = s.pipe := rfl
@[simp] theorem setRawc_hash (r : RawcState) (s : State) : (setRawc r s).hash = s.hash := rfl
@[simp] theorem setRawc_pool (r : RawcState) (s : State) : (setRawc r s).pool = s.pool := rfl
@[simp] theorem setRawc_klink (r : RawcState) (s : State) : (setRawc r s).klink = s.klink := rfl
@[simp] theorem setRawc_rawc (r : RawcState) (s : State) : (setRawc r s).rawc = r := rfl
@[simp] theorem setRawc_mag (r : RawcState) (s : State) : (setRawc r s).mag = s.mag := rfl
@[simp] theorem setRawc_heve (r : RawcState) (s : State) : (setRawc r s).heve = s.heve := rfl
@[simp] theorem setRawc_hevd (r : RawcState) (s : State) : (setRawc r s).hevd = s.hevd := rfl
@[simp] theorem setRawc_serial (r : RawcState) (s : State) : (setRawc r s).serial = s.serial := rfl
@[simp] theorem setRawc_net (r : RawcState) (s : State) : (setRawc r s).net = s.net := rfl
@[simp] theorem setRawc_clock (r : RawcState) (s : State) : (setRawc r s).clock = s.clock := rfl
@[simp] theorem setRawc_motion (r : RawcState) (s : State) : (setRawc r s).motion = s.motion := rfl
@[simp] theorem setRawc_view (r : RawcState) (s : State) : (setRawc r s).view = s.view := rfl
@[simp] theorem setRawc_mgmt (r : RawcState) (s : State) : (setRawc r s).mgmt = s.mgmt := rfl

/-! ### setClock -/

@[simp] theorem setClock_pending (c : TimeState) (s : State) : (setClock c s).pending = s.pending := rfl
@[simp] theorem setClock_ticks (c : TimeState) (s : State) : (setClock c s).ticks = s.ticks := rfl
@[simp] theorem setClock_time (c : TimeState) (s : State) : (setClock c s).time = s.time := rfl
@[simp] theorem setClock_regs (c : TimeState) (s : State) : (setClock c s).regs = s.regs := rfl
@[simp] theorem setClock_free (c : TimeState) (s : State) : (setClock c s).free = s.free := rfl
@[simp] theorem setClock_scratch (c : TimeState) (s : State) : (setClock c s).scratch = s.scratch := rfl
@[simp] theorem setClock_smSram (c : TimeState) (s : State) : (setClock c s).smSram = s.smSram := rfl
@[simp] theorem setClock_dram (c : TimeState) (s : State) : (setClock c s).dram = s.dram := rfl
@[simp] theorem setClock_nvm (c : TimeState) (s : State) : (setClock c s).nvm = s.nvm := rfl
@[simp] theorem setClock_mem (c : TimeState) (s : State) : (setClock c s).mem = s.mem := rfl
@[simp] theorem setClock_sys (c : TimeState) (s : State) : (setClock c s).sys = s.sys := rfl
@[simp] theorem setClock_cue (c : TimeState) (s : State) : (setClock c s).cue = s.cue := rfl
@[simp] theorem setClock_call (c : TimeState) (s : State) : (setClock c s).call = s.call := rfl
@[simp] theorem setClock_power (c : TimeState) (s : State) : (setClock c s).power = s.power := rfl
@[simp] theorem setClock_trust (c : TimeState) (s : State) : (setClock c s).trust = s.trust := rfl
@[simp] theorem setClock_ingest (c : TimeState) (s : State) : (setClock c s).ingest = s.ingest := rfl
@[simp] theorem setClock_ledger (c : TimeState) (s : State) : (setClock c s).ledger = s.ledger := rfl
@[simp] theorem setClock_cell (c : TimeState) (s : State) : (setClock c s).cell = s.cell := rfl
@[simp] theorem setClock_pipe (c : TimeState) (s : State) : (setClock c s).pipe = s.pipe := rfl
@[simp] theorem setClock_hash (c : TimeState) (s : State) : (setClock c s).hash = s.hash := rfl
@[simp] theorem setClock_pool (c : TimeState) (s : State) : (setClock c s).pool = s.pool := rfl
@[simp] theorem setClock_klink (c : TimeState) (s : State) : (setClock c s).klink = s.klink := rfl
@[simp] theorem setClock_rawc (c : TimeState) (s : State) : (setClock c s).rawc = s.rawc := rfl
@[simp] theorem setClock_mag (c : TimeState) (s : State) : (setClock c s).mag = s.mag := rfl
@[simp] theorem setClock_heve (c : TimeState) (s : State) : (setClock c s).heve = s.heve := rfl
@[simp] theorem setClock_hevd (c : TimeState) (s : State) : (setClock c s).hevd = s.hevd := rfl
@[simp] theorem setClock_serial (c : TimeState) (s : State) : (setClock c s).serial = s.serial := rfl
@[simp] theorem setClock_net (c : TimeState) (s : State) : (setClock c s).net = s.net := rfl
@[simp] theorem setClock_clock (c : TimeState) (s : State) : (setClock c s).clock = c := rfl
@[simp] theorem setClock_motion (c : TimeState) (s : State) : (setClock c s).motion = s.motion := rfl
@[simp] theorem setClock_view (c : TimeState) (s : State) : (setClock c s).view = s.view := rfl
@[simp] theorem setClock_mgmt (c : TimeState) (s : State) : (setClock c s).mgmt = s.mgmt := rfl

/-! ### setView -/

@[simp] theorem setView_pending (v : ViewState) (s : State) : (setView v s).pending = s.pending := rfl
@[simp] theorem setView_ticks (v : ViewState) (s : State) : (setView v s).ticks = s.ticks := rfl
@[simp] theorem setView_time (v : ViewState) (s : State) : (setView v s).time = s.time := rfl
@[simp] theorem setView_regs (v : ViewState) (s : State) : (setView v s).regs = s.regs := rfl
@[simp] theorem setView_free (v : ViewState) (s : State) : (setView v s).free = s.free := rfl
@[simp] theorem setView_scratch (v : ViewState) (s : State) : (setView v s).scratch = s.scratch := rfl
@[simp] theorem setView_smSram (v : ViewState) (s : State) : (setView v s).smSram = s.smSram := rfl
@[simp] theorem setView_dram (v : ViewState) (s : State) : (setView v s).dram = s.dram := rfl
@[simp] theorem setView_nvm (v : ViewState) (s : State) : (setView v s).nvm = s.nvm := rfl
@[simp] theorem setView_mem (v : ViewState) (s : State) : (setView v s).mem = s.mem := rfl
@[simp] theorem setView_sys (v : ViewState) (s : State) : (setView v s).sys = s.sys := rfl
@[simp] theorem setView_cue (v : ViewState) (s : State) : (setView v s).cue = s.cue := rfl
@[simp] theorem setView_call (v : ViewState) (s : State) : (setView v s).call = s.call := rfl
@[simp] theorem setView_power (v : ViewState) (s : State) : (setView v s).power = s.power := rfl
@[simp] theorem setView_trust (v : ViewState) (s : State) : (setView v s).trust = s.trust := rfl
@[simp] theorem setView_ingest (v : ViewState) (s : State) : (setView v s).ingest = s.ingest := rfl
@[simp] theorem setView_ledger (v : ViewState) (s : State) : (setView v s).ledger = s.ledger := rfl
@[simp] theorem setView_cell (v : ViewState) (s : State) : (setView v s).cell = s.cell := rfl
@[simp] theorem setView_pipe (v : ViewState) (s : State) : (setView v s).pipe = s.pipe := rfl
@[simp] theorem setView_hash (v : ViewState) (s : State) : (setView v s).hash = s.hash := rfl
@[simp] theorem setView_pool (v : ViewState) (s : State) : (setView v s).pool = s.pool := rfl
@[simp] theorem setView_klink (v : ViewState) (s : State) : (setView v s).klink = s.klink := rfl
@[simp] theorem setView_rawc (v : ViewState) (s : State) : (setView v s).rawc = s.rawc := rfl
@[simp] theorem setView_mag (v : ViewState) (s : State) : (setView v s).mag = s.mag := rfl
@[simp] theorem setView_heve (v : ViewState) (s : State) : (setView v s).heve = s.heve := rfl
@[simp] theorem setView_hevd (v : ViewState) (s : State) : (setView v s).hevd = s.hevd := rfl
@[simp] theorem setView_serial (v : ViewState) (s : State) : (setView v s).serial = s.serial := rfl
@[simp] theorem setView_net (v : ViewState) (s : State) : (setView v s).net = s.net := rfl
@[simp] theorem setView_clock (v : ViewState) (s : State) : (setView v s).clock = s.clock := rfl
@[simp] theorem setView_motion (v : ViewState) (s : State) : (setView v s).motion = s.motion := rfl
@[simp] theorem setView_view (v : ViewState) (s : State) : (setView v s).view = v := rfl
@[simp] theorem setView_mgmt (v : ViewState) (s : State) : (setView v s).mgmt = s.mgmt := rfl

/-! ### setWord -/

@[simp] theorem State.setWord_pending (s : State) (a : Nat) (w : Word) : (s.setWord a w).pending = s.pending := rfl
@[simp] theorem State.setWord_ticks (s : State) (a : Nat) (w : Word) : (s.setWord a w).ticks = s.ticks := rfl
@[simp] theorem State.setWord_time (s : State) (a : Nat) (w : Word) : (s.setWord a w).time = s.time := rfl
@[simp] theorem State.setWord_free (s : State) (a : Nat) (w : Word) : (s.setWord a w).free = s.free := rfl
@[simp] theorem State.setWord_scratch (s : State) (a : Nat) (w : Word) : (s.setWord a w).scratch = s.scratch := rfl
@[simp] theorem State.setWord_smSram (s : State) (a : Nat) (w : Word) : (s.setWord a w).smSram = s.smSram := rfl
@[simp] theorem State.setWord_dram (s : State) (a : Nat) (w : Word) : (s.setWord a w).dram = s.dram := rfl
@[simp] theorem State.setWord_nvm (s : State) (a : Nat) (w : Word) : (s.setWord a w).nvm = s.nvm := rfl
@[simp] theorem State.setWord_mem (s : State) (a : Nat) (w : Word) : (s.setWord a w).mem = s.mem := rfl
@[simp] theorem State.setWord_sys (s : State) (a : Nat) (w : Word) : (s.setWord a w).sys = s.sys := rfl
@[simp] theorem State.setWord_cue (s : State) (a : Nat) (w : Word) : (s.setWord a w).cue = s.cue := rfl
@[simp] theorem State.setWord_call (s : State) (a : Nat) (w : Word) : (s.setWord a w).call = s.call := rfl
@[simp] theorem State.setWord_power (s : State) (a : Nat) (w : Word) : (s.setWord a w).power = s.power := rfl
@[simp] theorem State.setWord_trust (s : State) (a : Nat) (w : Word) : (s.setWord a w).trust = s.trust := rfl
@[simp] theorem State.setWord_ingest (s : State) (a : Nat) (w : Word) : (s.setWord a w).ingest = s.ingest := rfl
@[simp] theorem State.setWord_ledger (s : State) (a : Nat) (w : Word) : (s.setWord a w).ledger = s.ledger := rfl
@[simp] theorem State.setWord_cell (s : State) (a : Nat) (w : Word) : (s.setWord a w).cell = s.cell := rfl
@[simp] theorem State.setWord_pipe (s : State) (a : Nat) (w : Word) : (s.setWord a w).pipe = s.pipe := rfl
@[simp] theorem State.setWord_hash (s : State) (a : Nat) (w : Word) : (s.setWord a w).hash = s.hash := rfl
@[simp] theorem State.setWord_pool (s : State) (a : Nat) (w : Word) : (s.setWord a w).pool = s.pool := rfl
@[simp] theorem State.setWord_klink (s : State) (a : Nat) (w : Word) : (s.setWord a w).klink = s.klink := rfl
@[simp] theorem State.setWord_rawc (s : State) (a : Nat) (w : Word) : (s.setWord a w).rawc = s.rawc := rfl
@[simp] theorem State.setWord_mag (s : State) (a : Nat) (w : Word) : (s.setWord a w).mag = s.mag := rfl
@[simp] theorem State.setWord_heve (s : State) (a : Nat) (w : Word) : (s.setWord a w).heve = s.heve := rfl
@[simp] theorem State.setWord_hevd (s : State) (a : Nat) (w : Word) : (s.setWord a w).hevd = s.hevd := rfl
@[simp] theorem State.setWord_serial (s : State) (a : Nat) (w : Word) : (s.setWord a w).serial = s.serial := rfl
@[simp] theorem State.setWord_net (s : State) (a : Nat) (w : Word) : (s.setWord a w).net = s.net := rfl
@[simp] theorem State.setWord_clock (s : State) (a : Nat) (w : Word) : (s.setWord a w).clock = s.clock := rfl
@[simp] theorem State.setWord_motion (s : State) (a : Nat) (w : Word) : (s.setWord a w).motion = s.motion := rfl
@[simp] theorem State.setWord_view (s : State) (a : Nat) (w : Word) : (s.setWord a w).view = s.view := rfl
@[simp] theorem State.setWord_mgmt (s : State) (a : Nat) (w : Word) : (s.setWord a w).mgmt = s.mgmt := rfl

/-! ### setFld -/

@[simp] theorem State.setFld_pending (s : State) (f : Fld) (n : Nat) : (s.setFld f n).pending = s.pending := rfl
@[simp] theorem State.setFld_ticks (s : State) (f : Fld) (n : Nat) : (s.setFld f n).ticks = s.ticks := rfl
@[simp] theorem State.setFld_time (s : State) (f : Fld) (n : Nat) : (s.setFld f n).time = s.time := rfl
@[simp] theorem State.setFld_free (s : State) (f : Fld) (n : Nat) : (s.setFld f n).free = s.free := rfl
@[simp] theorem State.setFld_scratch (s : State) (f : Fld) (n : Nat) : (s.setFld f n).scratch = s.scratch := rfl
@[simp] theorem State.setFld_smSram (s : State) (f : Fld) (n : Nat) : (s.setFld f n).smSram = s.smSram := rfl
@[simp] theorem State.setFld_dram (s : State) (f : Fld) (n : Nat) : (s.setFld f n).dram = s.dram := rfl
@[simp] theorem State.setFld_nvm (s : State) (f : Fld) (n : Nat) : (s.setFld f n).nvm = s.nvm := rfl
@[simp] theorem State.setFld_mem (s : State) (f : Fld) (n : Nat) : (s.setFld f n).mem = s.mem := rfl
@[simp] theorem State.setFld_sys (s : State) (f : Fld) (n : Nat) : (s.setFld f n).sys = s.sys := rfl
@[simp] theorem State.setFld_cue (s : State) (f : Fld) (n : Nat) : (s.setFld f n).cue = s.cue := rfl
@[simp] theorem State.setFld_call (s : State) (f : Fld) (n : Nat) : (s.setFld f n).call = s.call := rfl
@[simp] theorem State.setFld_power (s : State) (f : Fld) (n : Nat) : (s.setFld f n).power = s.power := rfl
@[simp] theorem State.setFld_trust (s : State) (f : Fld) (n : Nat) : (s.setFld f n).trust = s.trust := rfl
@[simp] theorem State.setFld_ingest (s : State) (f : Fld) (n : Nat) : (s.setFld f n).ingest = s.ingest := rfl
@[simp] theorem State.setFld_ledger (s : State) (f : Fld) (n : Nat) : (s.setFld f n).ledger = s.ledger := rfl
@[simp] theorem State.setFld_cell (s : State) (f : Fld) (n : Nat) : (s.setFld f n).cell = s.cell := rfl
@[simp] theorem State.setFld_pipe (s : State) (f : Fld) (n : Nat) : (s.setFld f n).pipe = s.pipe := rfl
@[simp] theorem State.setFld_hash (s : State) (f : Fld) (n : Nat) : (s.setFld f n).hash = s.hash := rfl
@[simp] theorem State.setFld_pool (s : State) (f : Fld) (n : Nat) : (s.setFld f n).pool = s.pool := rfl
@[simp] theorem State.setFld_klink (s : State) (f : Fld) (n : Nat) : (s.setFld f n).klink = s.klink := rfl
@[simp] theorem State.setFld_rawc (s : State) (f : Fld) (n : Nat) : (s.setFld f n).rawc = s.rawc := rfl
@[simp] theorem State.setFld_mag (s : State) (f : Fld) (n : Nat) : (s.setFld f n).mag = s.mag := rfl
@[simp] theorem State.setFld_heve (s : State) (f : Fld) (n : Nat) : (s.setFld f n).heve = s.heve := rfl
@[simp] theorem State.setFld_hevd (s : State) (f : Fld) (n : Nat) : (s.setFld f n).hevd = s.hevd := rfl
@[simp] theorem State.setFld_serial (s : State) (f : Fld) (n : Nat) : (s.setFld f n).serial = s.serial := rfl
@[simp] theorem State.setFld_net (s : State) (f : Fld) (n : Nat) : (s.setFld f n).net = s.net := rfl
@[simp] theorem State.setFld_clock (s : State) (f : Fld) (n : Nat) : (s.setFld f n).clock = s.clock := rfl
@[simp] theorem State.setFld_motion (s : State) (f : Fld) (n : Nat) : (s.setFld f n).motion = s.motion := rfl
@[simp] theorem State.setFld_view (s : State) (f : Fld) (n : Nat) : (s.setFld f n).view = s.view := rfl
@[simp] theorem State.setFld_mgmt (s : State) (f : Fld) (n : Nat) : (s.setFld f n).mgmt = s.mgmt := rfl

/-! ### setFlag -/

@[simp] theorem State.setFlag_pending (s : State) (f : Fld) (b : Bool) : (s.setFlag f b).pending = s.pending := rfl
@[simp] theorem State.setFlag_ticks (s : State) (f : Fld) (b : Bool) : (s.setFlag f b).ticks = s.ticks := rfl
@[simp] theorem State.setFlag_time (s : State) (f : Fld) (b : Bool) : (s.setFlag f b).time = s.time := rfl
@[simp] theorem State.setFlag_free (s : State) (f : Fld) (b : Bool) : (s.setFlag f b).free = s.free := rfl
@[simp] theorem State.setFlag_scratch (s : State) (f : Fld) (b : Bool) : (s.setFlag f b).scratch = s.scratch := rfl
@[simp] theorem State.setFlag_smSram (s : State) (f : Fld) (b : Bool) : (s.setFlag f b).smSram = s.smSram := rfl
@[simp] theorem State.setFlag_dram (s : State) (f : Fld) (b : Bool) : (s.setFlag f b).dram = s.dram := rfl
@[simp] theorem State.setFlag_nvm (s : State) (f : Fld) (b : Bool) : (s.setFlag f b).nvm = s.nvm := rfl
@[simp] theorem State.setFlag_mem (s : State) (f : Fld) (b : Bool) : (s.setFlag f b).mem = s.mem := rfl
@[simp] theorem State.setFlag_sys (s : State) (f : Fld) (b : Bool) : (s.setFlag f b).sys = s.sys := rfl
@[simp] theorem State.setFlag_cue (s : State) (f : Fld) (b : Bool) : (s.setFlag f b).cue = s.cue := rfl
@[simp] theorem State.setFlag_call (s : State) (f : Fld) (b : Bool) : (s.setFlag f b).call = s.call := rfl
@[simp] theorem State.setFlag_power (s : State) (f : Fld) (b : Bool) : (s.setFlag f b).power = s.power := rfl
@[simp] theorem State.setFlag_trust (s : State) (f : Fld) (b : Bool) : (s.setFlag f b).trust = s.trust := rfl
@[simp] theorem State.setFlag_ingest (s : State) (f : Fld) (b : Bool) : (s.setFlag f b).ingest = s.ingest := rfl
@[simp] theorem State.setFlag_ledger (s : State) (f : Fld) (b : Bool) : (s.setFlag f b).ledger = s.ledger := rfl
@[simp] theorem State.setFlag_cell (s : State) (f : Fld) (b : Bool) : (s.setFlag f b).cell = s.cell := rfl
@[simp] theorem State.setFlag_pipe (s : State) (f : Fld) (b : Bool) : (s.setFlag f b).pipe = s.pipe := rfl
@[simp] theorem State.setFlag_hash (s : State) (f : Fld) (b : Bool) : (s.setFlag f b).hash = s.hash := rfl
@[simp] theorem State.setFlag_pool (s : State) (f : Fld) (b : Bool) : (s.setFlag f b).pool = s.pool := rfl
@[simp] theorem State.setFlag_klink (s : State) (f : Fld) (b : Bool) : (s.setFlag f b).klink = s.klink := rfl
@[simp] theorem State.setFlag_rawc (s : State) (f : Fld) (b : Bool) : (s.setFlag f b).rawc = s.rawc := rfl
@[simp] theorem State.setFlag_mag (s : State) (f : Fld) (b : Bool) : (s.setFlag f b).mag = s.mag := rfl
@[simp] theorem State.setFlag_heve (s : State) (f : Fld) (b : Bool) : (s.setFlag f b).heve = s.heve := rfl
@[simp] theorem State.setFlag_hevd (s : State) (f : Fld) (b : Bool) : (s.setFlag f b).hevd = s.hevd := rfl
@[simp] theorem State.setFlag_serial (s : State) (f : Fld) (b : Bool) : (s.setFlag f b).serial = s.serial := rfl
@[simp] theorem State.setFlag_net (s : State) (f : Fld) (b : Bool) : (s.setFlag f b).net = s.net := rfl
@[simp] theorem State.setFlag_clock (s : State) (f : Fld) (b : Bool) : (s.setFlag f b).clock = s.clock := rfl
@[simp] theorem State.setFlag_motion (s : State) (f : Fld) (b : Bool) : (s.setFlag f b).motion = s.motion := rfl
@[simp] theorem State.setFlag_view (s : State) (f : Fld) (b : Bool) : (s.setFlag f b).view = s.view := rfl
@[simp] theorem State.setFlag_mgmt (s : State) (f : Fld) (b : Bool) : (s.setFlag f b).mgmt = s.mgmt := rfl

/-! ### addFld -/

@[simp] theorem State.addFld_pending (s : State) (f : Fld) (k : Nat) : (s.addFld f k).pending = s.pending := rfl
@[simp] theorem State.addFld_ticks (s : State) (f : Fld) (k : Nat) : (s.addFld f k).ticks = s.ticks := rfl
@[simp] theorem State.addFld_time (s : State) (f : Fld) (k : Nat) : (s.addFld f k).time = s.time := rfl
@[simp] theorem State.addFld_free (s : State) (f : Fld) (k : Nat) : (s.addFld f k).free = s.free := rfl
@[simp] theorem State.addFld_scratch (s : State) (f : Fld) (k : Nat) : (s.addFld f k).scratch = s.scratch := rfl
@[simp] theorem State.addFld_smSram (s : State) (f : Fld) (k : Nat) : (s.addFld f k).smSram = s.smSram := rfl
@[simp] theorem State.addFld_dram (s : State) (f : Fld) (k : Nat) : (s.addFld f k).dram = s.dram := rfl
@[simp] theorem State.addFld_nvm (s : State) (f : Fld) (k : Nat) : (s.addFld f k).nvm = s.nvm := rfl
@[simp] theorem State.addFld_mem (s : State) (f : Fld) (k : Nat) : (s.addFld f k).mem = s.mem := rfl
@[simp] theorem State.addFld_sys (s : State) (f : Fld) (k : Nat) : (s.addFld f k).sys = s.sys := rfl
@[simp] theorem State.addFld_cue (s : State) (f : Fld) (k : Nat) : (s.addFld f k).cue = s.cue := rfl
@[simp] theorem State.addFld_call (s : State) (f : Fld) (k : Nat) : (s.addFld f k).call = s.call := rfl
@[simp] theorem State.addFld_power (s : State) (f : Fld) (k : Nat) : (s.addFld f k).power = s.power := rfl
@[simp] theorem State.addFld_trust (s : State) (f : Fld) (k : Nat) : (s.addFld f k).trust = s.trust := rfl
@[simp] theorem State.addFld_ingest (s : State) (f : Fld) (k : Nat) : (s.addFld f k).ingest = s.ingest := rfl
@[simp] theorem State.addFld_ledger (s : State) (f : Fld) (k : Nat) : (s.addFld f k).ledger = s.ledger := rfl
@[simp] theorem State.addFld_cell (s : State) (f : Fld) (k : Nat) : (s.addFld f k).cell = s.cell := rfl
@[simp] theorem State.addFld_pipe (s : State) (f : Fld) (k : Nat) : (s.addFld f k).pipe = s.pipe := rfl
@[simp] theorem State.addFld_hash (s : State) (f : Fld) (k : Nat) : (s.addFld f k).hash = s.hash := rfl
@[simp] theorem State.addFld_pool (s : State) (f : Fld) (k : Nat) : (s.addFld f k).pool = s.pool := rfl
@[simp] theorem State.addFld_klink (s : State) (f : Fld) (k : Nat) : (s.addFld f k).klink = s.klink := rfl
@[simp] theorem State.addFld_rawc (s : State) (f : Fld) (k : Nat) : (s.addFld f k).rawc = s.rawc := rfl
@[simp] theorem State.addFld_mag (s : State) (f : Fld) (k : Nat) : (s.addFld f k).mag = s.mag := rfl
@[simp] theorem State.addFld_heve (s : State) (f : Fld) (k : Nat) : (s.addFld f k).heve = s.heve := rfl
@[simp] theorem State.addFld_hevd (s : State) (f : Fld) (k : Nat) : (s.addFld f k).hevd = s.hevd := rfl
@[simp] theorem State.addFld_serial (s : State) (f : Fld) (k : Nat) : (s.addFld f k).serial = s.serial := rfl
@[simp] theorem State.addFld_net (s : State) (f : Fld) (k : Nat) : (s.addFld f k).net = s.net := rfl
@[simp] theorem State.addFld_clock (s : State) (f : Fld) (k : Nat) : (s.addFld f k).clock = s.clock := rfl
@[simp] theorem State.addFld_motion (s : State) (f : Fld) (k : Nat) : (s.addFld f k).motion = s.motion := rfl
@[simp] theorem State.addFld_view (s : State) (f : Fld) (k : Nat) : (s.addFld f k).view = s.view := rfl
@[simp] theorem State.addFld_mgmt (s : State) (f : Fld) (k : Nat) : (s.addFld f k).mgmt = s.mgmt := rfl

/-! ### wrapFld -/

@[simp] theorem State.wrapFld_pending (s : State) (f : Fld) (k : Nat) : (s.wrapFld f k).pending = s.pending := rfl
@[simp] theorem State.wrapFld_ticks (s : State) (f : Fld) (k : Nat) : (s.wrapFld f k).ticks = s.ticks := rfl
@[simp] theorem State.wrapFld_time (s : State) (f : Fld) (k : Nat) : (s.wrapFld f k).time = s.time := rfl
@[simp] theorem State.wrapFld_free (s : State) (f : Fld) (k : Nat) : (s.wrapFld f k).free = s.free := rfl
@[simp] theorem State.wrapFld_scratch (s : State) (f : Fld) (k : Nat) : (s.wrapFld f k).scratch = s.scratch := rfl
@[simp] theorem State.wrapFld_smSram (s : State) (f : Fld) (k : Nat) : (s.wrapFld f k).smSram = s.smSram := rfl
@[simp] theorem State.wrapFld_dram (s : State) (f : Fld) (k : Nat) : (s.wrapFld f k).dram = s.dram := rfl
@[simp] theorem State.wrapFld_nvm (s : State) (f : Fld) (k : Nat) : (s.wrapFld f k).nvm = s.nvm := rfl
@[simp] theorem State.wrapFld_mem (s : State) (f : Fld) (k : Nat) : (s.wrapFld f k).mem = s.mem := rfl
@[simp] theorem State.wrapFld_sys (s : State) (f : Fld) (k : Nat) : (s.wrapFld f k).sys = s.sys := rfl
@[simp] theorem State.wrapFld_cue (s : State) (f : Fld) (k : Nat) : (s.wrapFld f k).cue = s.cue := rfl
@[simp] theorem State.wrapFld_call (s : State) (f : Fld) (k : Nat) : (s.wrapFld f k).call = s.call := rfl
@[simp] theorem State.wrapFld_power (s : State) (f : Fld) (k : Nat) : (s.wrapFld f k).power = s.power := rfl
@[simp] theorem State.wrapFld_trust (s : State) (f : Fld) (k : Nat) : (s.wrapFld f k).trust = s.trust := rfl
@[simp] theorem State.wrapFld_ingest (s : State) (f : Fld) (k : Nat) : (s.wrapFld f k).ingest = s.ingest := rfl
@[simp] theorem State.wrapFld_ledger (s : State) (f : Fld) (k : Nat) : (s.wrapFld f k).ledger = s.ledger := rfl
@[simp] theorem State.wrapFld_cell (s : State) (f : Fld) (k : Nat) : (s.wrapFld f k).cell = s.cell := rfl
@[simp] theorem State.wrapFld_pipe (s : State) (f : Fld) (k : Nat) : (s.wrapFld f k).pipe = s.pipe := rfl
@[simp] theorem State.wrapFld_hash (s : State) (f : Fld) (k : Nat) : (s.wrapFld f k).hash = s.hash := rfl
@[simp] theorem State.wrapFld_pool (s : State) (f : Fld) (k : Nat) : (s.wrapFld f k).pool = s.pool := rfl
@[simp] theorem State.wrapFld_klink (s : State) (f : Fld) (k : Nat) : (s.wrapFld f k).klink = s.klink := rfl
@[simp] theorem State.wrapFld_rawc (s : State) (f : Fld) (k : Nat) : (s.wrapFld f k).rawc = s.rawc := rfl
@[simp] theorem State.wrapFld_mag (s : State) (f : Fld) (k : Nat) : (s.wrapFld f k).mag = s.mag := rfl
@[simp] theorem State.wrapFld_heve (s : State) (f : Fld) (k : Nat) : (s.wrapFld f k).heve = s.heve := rfl
@[simp] theorem State.wrapFld_hevd (s : State) (f : Fld) (k : Nat) : (s.wrapFld f k).hevd = s.hevd := rfl
@[simp] theorem State.wrapFld_serial (s : State) (f : Fld) (k : Nat) : (s.wrapFld f k).serial = s.serial := rfl
@[simp] theorem State.wrapFld_net (s : State) (f : Fld) (k : Nat) : (s.wrapFld f k).net = s.net := rfl
@[simp] theorem State.wrapFld_clock (s : State) (f : Fld) (k : Nat) : (s.wrapFld f k).clock = s.clock := rfl
@[simp] theorem State.wrapFld_motion (s : State) (f : Fld) (k : Nat) : (s.wrapFld f k).motion = s.motion := rfl
@[simp] theorem State.wrapFld_view (s : State) (f : Fld) (k : Nat) : (s.wrapFld f k).view = s.view := rfl
@[simp] theorem State.wrapFld_mgmt (s : State) (f : Fld) (k : Nat) : (s.wrapFld f k).mgmt = s.mgmt := rfl

/-! ### orBit -/

@[simp] theorem State.orBit_pending (s : State) (f : Fld) (n : Nat) : (s.orBit f n).pending = s.pending := rfl
@[simp] theorem State.orBit_ticks (s : State) (f : Fld) (n : Nat) : (s.orBit f n).ticks = s.ticks := rfl
@[simp] theorem State.orBit_time (s : State) (f : Fld) (n : Nat) : (s.orBit f n).time = s.time := rfl
@[simp] theorem State.orBit_free (s : State) (f : Fld) (n : Nat) : (s.orBit f n).free = s.free := rfl
@[simp] theorem State.orBit_scratch (s : State) (f : Fld) (n : Nat) : (s.orBit f n).scratch = s.scratch := rfl
@[simp] theorem State.orBit_smSram (s : State) (f : Fld) (n : Nat) : (s.orBit f n).smSram = s.smSram := rfl
@[simp] theorem State.orBit_dram (s : State) (f : Fld) (n : Nat) : (s.orBit f n).dram = s.dram := rfl
@[simp] theorem State.orBit_nvm (s : State) (f : Fld) (n : Nat) : (s.orBit f n).nvm = s.nvm := rfl
@[simp] theorem State.orBit_mem (s : State) (f : Fld) (n : Nat) : (s.orBit f n).mem = s.mem := rfl
@[simp] theorem State.orBit_sys (s : State) (f : Fld) (n : Nat) : (s.orBit f n).sys = s.sys := rfl
@[simp] theorem State.orBit_cue (s : State) (f : Fld) (n : Nat) : (s.orBit f n).cue = s.cue := rfl
@[simp] theorem State.orBit_call (s : State) (f : Fld) (n : Nat) : (s.orBit f n).call = s.call := rfl
@[simp] theorem State.orBit_power (s : State) (f : Fld) (n : Nat) : (s.orBit f n).power = s.power := rfl
@[simp] theorem State.orBit_trust (s : State) (f : Fld) (n : Nat) : (s.orBit f n).trust = s.trust := rfl
@[simp] theorem State.orBit_ingest (s : State) (f : Fld) (n : Nat) : (s.orBit f n).ingest = s.ingest := rfl
@[simp] theorem State.orBit_ledger (s : State) (f : Fld) (n : Nat) : (s.orBit f n).ledger = s.ledger := rfl
@[simp] theorem State.orBit_cell (s : State) (f : Fld) (n : Nat) : (s.orBit f n).cell = s.cell := rfl
@[simp] theorem State.orBit_pipe (s : State) (f : Fld) (n : Nat) : (s.orBit f n).pipe = s.pipe := rfl
@[simp] theorem State.orBit_hash (s : State) (f : Fld) (n : Nat) : (s.orBit f n).hash = s.hash := rfl
@[simp] theorem State.orBit_pool (s : State) (f : Fld) (n : Nat) : (s.orBit f n).pool = s.pool := rfl
@[simp] theorem State.orBit_klink (s : State) (f : Fld) (n : Nat) : (s.orBit f n).klink = s.klink := rfl
@[simp] theorem State.orBit_rawc (s : State) (f : Fld) (n : Nat) : (s.orBit f n).rawc = s.rawc := rfl
@[simp] theorem State.orBit_mag (s : State) (f : Fld) (n : Nat) : (s.orBit f n).mag = s.mag := rfl
@[simp] theorem State.orBit_heve (s : State) (f : Fld) (n : Nat) : (s.orBit f n).heve = s.heve := rfl
@[simp] theorem State.orBit_hevd (s : State) (f : Fld) (n : Nat) : (s.orBit f n).hevd = s.hevd := rfl
@[simp] theorem State.orBit_serial (s : State) (f : Fld) (n : Nat) : (s.orBit f n).serial = s.serial := rfl
@[simp] theorem State.orBit_net (s : State) (f : Fld) (n : Nat) : (s.orBit f n).net = s.net := rfl
@[simp] theorem State.orBit_clock (s : State) (f : Fld) (n : Nat) : (s.orBit f n).clock = s.clock := rfl
@[simp] theorem State.orBit_motion (s : State) (f : Fld) (n : Nat) : (s.orBit f n).motion = s.motion := rfl
@[simp] theorem State.orBit_view (s : State) (f : Fld) (n : Nat) : (s.orBit f n).view = s.view := rfl
@[simp] theorem State.orBit_mgmt (s : State) (f : Fld) (n : Nat) : (s.orBit f n).mgmt = s.mgmt := rfl

/-! ### clrBit -/

@[simp] theorem State.clrBit_pending (s : State) (f : Fld) (n : Nat) : (s.clrBit f n).pending = s.pending := rfl
@[simp] theorem State.clrBit_ticks (s : State) (f : Fld) (n : Nat) : (s.clrBit f n).ticks = s.ticks := rfl
@[simp] theorem State.clrBit_time (s : State) (f : Fld) (n : Nat) : (s.clrBit f n).time = s.time := rfl
@[simp] theorem State.clrBit_free (s : State) (f : Fld) (n : Nat) : (s.clrBit f n).free = s.free := rfl
@[simp] theorem State.clrBit_scratch (s : State) (f : Fld) (n : Nat) : (s.clrBit f n).scratch = s.scratch := rfl
@[simp] theorem State.clrBit_smSram (s : State) (f : Fld) (n : Nat) : (s.clrBit f n).smSram = s.smSram := rfl
@[simp] theorem State.clrBit_dram (s : State) (f : Fld) (n : Nat) : (s.clrBit f n).dram = s.dram := rfl
@[simp] theorem State.clrBit_nvm (s : State) (f : Fld) (n : Nat) : (s.clrBit f n).nvm = s.nvm := rfl
@[simp] theorem State.clrBit_mem (s : State) (f : Fld) (n : Nat) : (s.clrBit f n).mem = s.mem := rfl
@[simp] theorem State.clrBit_sys (s : State) (f : Fld) (n : Nat) : (s.clrBit f n).sys = s.sys := rfl
@[simp] theorem State.clrBit_cue (s : State) (f : Fld) (n : Nat) : (s.clrBit f n).cue = s.cue := rfl
@[simp] theorem State.clrBit_call (s : State) (f : Fld) (n : Nat) : (s.clrBit f n).call = s.call := rfl
@[simp] theorem State.clrBit_power (s : State) (f : Fld) (n : Nat) : (s.clrBit f n).power = s.power := rfl
@[simp] theorem State.clrBit_trust (s : State) (f : Fld) (n : Nat) : (s.clrBit f n).trust = s.trust := rfl
@[simp] theorem State.clrBit_ingest (s : State) (f : Fld) (n : Nat) : (s.clrBit f n).ingest = s.ingest := rfl
@[simp] theorem State.clrBit_ledger (s : State) (f : Fld) (n : Nat) : (s.clrBit f n).ledger = s.ledger := rfl
@[simp] theorem State.clrBit_cell (s : State) (f : Fld) (n : Nat) : (s.clrBit f n).cell = s.cell := rfl
@[simp] theorem State.clrBit_pipe (s : State) (f : Fld) (n : Nat) : (s.clrBit f n).pipe = s.pipe := rfl
@[simp] theorem State.clrBit_hash (s : State) (f : Fld) (n : Nat) : (s.clrBit f n).hash = s.hash := rfl
@[simp] theorem State.clrBit_pool (s : State) (f : Fld) (n : Nat) : (s.clrBit f n).pool = s.pool := rfl
@[simp] theorem State.clrBit_klink (s : State) (f : Fld) (n : Nat) : (s.clrBit f n).klink = s.klink := rfl
@[simp] theorem State.clrBit_rawc (s : State) (f : Fld) (n : Nat) : (s.clrBit f n).rawc = s.rawc := rfl
@[simp] theorem State.clrBit_mag (s : State) (f : Fld) (n : Nat) : (s.clrBit f n).mag = s.mag := rfl
@[simp] theorem State.clrBit_heve (s : State) (f : Fld) (n : Nat) : (s.clrBit f n).heve = s.heve := rfl
@[simp] theorem State.clrBit_hevd (s : State) (f : Fld) (n : Nat) : (s.clrBit f n).hevd = s.hevd := rfl
@[simp] theorem State.clrBit_serial (s : State) (f : Fld) (n : Nat) : (s.clrBit f n).serial = s.serial := rfl
@[simp] theorem State.clrBit_net (s : State) (f : Fld) (n : Nat) : (s.clrBit f n).net = s.net := rfl
@[simp] theorem State.clrBit_clock (s : State) (f : Fld) (n : Nat) : (s.clrBit f n).clock = s.clock := rfl
@[simp] theorem State.clrBit_motion (s : State) (f : Fld) (n : Nat) : (s.clrBit f n).motion = s.motion := rfl
@[simp] theorem State.clrBit_view (s : State) (f : Fld) (n : Nat) : (s.clrBit f n).view = s.view := rfl
@[simp] theorem State.clrBit_mgmt (s : State) (f : Fld) (n : Nat) : (s.clrBit f n).mgmt = s.mgmt := rfl

/-! ### setFld64 -/

@[simp] theorem State.setFld64_pending (s : State) (lo hi : Fld) (n : Nat) : (s.setFld64 lo hi n).pending = s.pending := rfl
@[simp] theorem State.setFld64_ticks (s : State) (lo hi : Fld) (n : Nat) : (s.setFld64 lo hi n).ticks = s.ticks := rfl
@[simp] theorem State.setFld64_time (s : State) (lo hi : Fld) (n : Nat) : (s.setFld64 lo hi n).time = s.time := rfl
@[simp] theorem State.setFld64_free (s : State) (lo hi : Fld) (n : Nat) : (s.setFld64 lo hi n).free = s.free := rfl
@[simp] theorem State.setFld64_scratch (s : State) (lo hi : Fld) (n : Nat) : (s.setFld64 lo hi n).scratch = s.scratch := rfl
@[simp] theorem State.setFld64_smSram (s : State) (lo hi : Fld) (n : Nat) : (s.setFld64 lo hi n).smSram = s.smSram := rfl
@[simp] theorem State.setFld64_dram (s : State) (lo hi : Fld) (n : Nat) : (s.setFld64 lo hi n).dram = s.dram := rfl
@[simp] theorem State.setFld64_nvm (s : State) (lo hi : Fld) (n : Nat) : (s.setFld64 lo hi n).nvm = s.nvm := rfl
@[simp] theorem State.setFld64_mem (s : State) (lo hi : Fld) (n : Nat) : (s.setFld64 lo hi n).mem = s.mem := rfl
@[simp] theorem State.setFld64_sys (s : State) (lo hi : Fld) (n : Nat) : (s.setFld64 lo hi n).sys = s.sys := rfl
@[simp] theorem State.setFld64_cue (s : State) (lo hi : Fld) (n : Nat) : (s.setFld64 lo hi n).cue = s.cue := rfl
@[simp] theorem State.setFld64_call (s : State) (lo hi : Fld) (n : Nat) : (s.setFld64 lo hi n).call = s.call := rfl
@[simp] theorem State.setFld64_power (s : State) (lo hi : Fld) (n : Nat) : (s.setFld64 lo hi n).power = s.power := rfl
@[simp] theorem State.setFld64_trust (s : State) (lo hi : Fld) (n : Nat) : (s.setFld64 lo hi n).trust = s.trust := rfl
@[simp] theorem State.setFld64_ingest (s : State) (lo hi : Fld) (n : Nat) : (s.setFld64 lo hi n).ingest = s.ingest := rfl
@[simp] theorem State.setFld64_ledger (s : State) (lo hi : Fld) (n : Nat) : (s.setFld64 lo hi n).ledger = s.ledger := rfl
@[simp] theorem State.setFld64_cell (s : State) (lo hi : Fld) (n : Nat) : (s.setFld64 lo hi n).cell = s.cell := rfl
@[simp] theorem State.setFld64_pipe (s : State) (lo hi : Fld) (n : Nat) : (s.setFld64 lo hi n).pipe = s.pipe := rfl
@[simp] theorem State.setFld64_hash (s : State) (lo hi : Fld) (n : Nat) : (s.setFld64 lo hi n).hash = s.hash := rfl
@[simp] theorem State.setFld64_pool (s : State) (lo hi : Fld) (n : Nat) : (s.setFld64 lo hi n).pool = s.pool := rfl
@[simp] theorem State.setFld64_klink (s : State) (lo hi : Fld) (n : Nat) : (s.setFld64 lo hi n).klink = s.klink := rfl
@[simp] theorem State.setFld64_rawc (s : State) (lo hi : Fld) (n : Nat) : (s.setFld64 lo hi n).rawc = s.rawc := rfl
@[simp] theorem State.setFld64_mag (s : State) (lo hi : Fld) (n : Nat) : (s.setFld64 lo hi n).mag = s.mag := rfl
@[simp] theorem State.setFld64_heve (s : State) (lo hi : Fld) (n : Nat) : (s.setFld64 lo hi n).heve = s.heve := rfl
@[simp] theorem State.setFld64_hevd (s : State) (lo hi : Fld) (n : Nat) : (s.setFld64 lo hi n).hevd = s.hevd := rfl
@[simp] theorem State.setFld64_serial (s : State) (lo hi : Fld) (n : Nat) : (s.setFld64 lo hi n).serial = s.serial := rfl
@[simp] theorem State.setFld64_net (s : State) (lo hi : Fld) (n : Nat) : (s.setFld64 lo hi n).net = s.net := rfl
@[simp] theorem State.setFld64_clock (s : State) (lo hi : Fld) (n : Nat) : (s.setFld64 lo hi n).clock = s.clock := rfl
@[simp] theorem State.setFld64_motion (s : State) (lo hi : Fld) (n : Nat) : (s.setFld64 lo hi n).motion = s.motion := rfl
@[simp] theorem State.setFld64_view (s : State) (lo hi : Fld) (n : Nat) : (s.setFld64 lo hi n).view = s.view := rfl
@[simp] theorem State.setFld64_mgmt (s : State) (lo hi : Fld) (n : Nat) : (s.setFld64 lo hi n).mgmt = s.mgmt := rfl

/-! ### busOk -/

@[simp] theorem busOk_pending (w : Word) (s : State) : (busOk w s).pending = s.pending := rfl
@[simp] theorem busOk_ticks (w : Word) (s : State) : (busOk w s).ticks = s.ticks := rfl
@[simp] theorem busOk_time (w : Word) (s : State) : (busOk w s).time = s.time := rfl
@[simp] theorem busOk_regs (w : Word) (s : State) : (busOk w s).regs = s.regs := rfl
@[simp] theorem busOk_free (w : Word) (s : State) : (busOk w s).free = s.free := rfl
@[simp] theorem busOk_scratch (w : Word) (s : State) : (busOk w s).scratch = s.scratch := rfl
@[simp] theorem busOk_smSram (w : Word) (s : State) : (busOk w s).smSram = s.smSram := rfl
@[simp] theorem busOk_dram (w : Word) (s : State) : (busOk w s).dram = s.dram := rfl
@[simp] theorem busOk_nvm (w : Word) (s : State) : (busOk w s).nvm = s.nvm := rfl
@[simp] theorem busOk_mem (w : Word) (s : State) : (busOk w s).mem = s.mem := rfl
@[simp] theorem busOk_cue (w : Word) (s : State) : (busOk w s).cue = s.cue := rfl
@[simp] theorem busOk_call (w : Word) (s : State) : (busOk w s).call = s.call := rfl
@[simp] theorem busOk_power (w : Word) (s : State) : (busOk w s).power = s.power := rfl
@[simp] theorem busOk_trust (w : Word) (s : State) : (busOk w s).trust = s.trust := rfl
@[simp] theorem busOk_ingest (w : Word) (s : State) : (busOk w s).ingest = s.ingest := rfl
@[simp] theorem busOk_ledger (w : Word) (s : State) : (busOk w s).ledger = s.ledger := rfl
@[simp] theorem busOk_cell (w : Word) (s : State) : (busOk w s).cell = s.cell := rfl
@[simp] theorem busOk_pipe (w : Word) (s : State) : (busOk w s).pipe = s.pipe := rfl
@[simp] theorem busOk_hash (w : Word) (s : State) : (busOk w s).hash = s.hash := rfl
@[simp] theorem busOk_pool (w : Word) (s : State) : (busOk w s).pool = s.pool := rfl
@[simp] theorem busOk_klink (w : Word) (s : State) : (busOk w s).klink = s.klink := rfl
@[simp] theorem busOk_rawc (w : Word) (s : State) : (busOk w s).rawc = s.rawc := rfl
@[simp] theorem busOk_mag (w : Word) (s : State) : (busOk w s).mag = s.mag := rfl
@[simp] theorem busOk_heve (w : Word) (s : State) : (busOk w s).heve = s.heve := rfl
@[simp] theorem busOk_hevd (w : Word) (s : State) : (busOk w s).hevd = s.hevd := rfl
@[simp] theorem busOk_serial (w : Word) (s : State) : (busOk w s).serial = s.serial := rfl
@[simp] theorem busOk_net (w : Word) (s : State) : (busOk w s).net = s.net := rfl
@[simp] theorem busOk_clock (w : Word) (s : State) : (busOk w s).clock = s.clock := rfl
@[simp] theorem busOk_motion (w : Word) (s : State) : (busOk w s).motion = s.motion := rfl
@[simp] theorem busOk_view (w : Word) (s : State) : (busOk w s).view = s.view := rfl
@[simp] theorem busOk_mgmt (w : Word) (s : State) : (busOk w s).mgmt = s.mgmt := rfl

/-! ### busError -/

@[simp] theorem busError_pending (s : State) : (busError s).pending = s.pending := rfl
@[simp] theorem busError_ticks (s : State) : (busError s).ticks = s.ticks := rfl
@[simp] theorem busError_time (s : State) : (busError s).time = s.time := rfl
@[simp] theorem busError_regs (s : State) : (busError s).regs = s.regs := rfl
@[simp] theorem busError_free (s : State) : (busError s).free = s.free := rfl
@[simp] theorem busError_scratch (s : State) : (busError s).scratch = s.scratch := rfl
@[simp] theorem busError_smSram (s : State) : (busError s).smSram = s.smSram := rfl
@[simp] theorem busError_dram (s : State) : (busError s).dram = s.dram := rfl
@[simp] theorem busError_nvm (s : State) : (busError s).nvm = s.nvm := rfl
@[simp] theorem busError_mem (s : State) : (busError s).mem = s.mem := rfl
@[simp] theorem busError_cue (s : State) : (busError s).cue = s.cue := rfl
@[simp] theorem busError_call (s : State) : (busError s).call = s.call := rfl
@[simp] theorem busError_power (s : State) : (busError s).power = s.power := rfl
@[simp] theorem busError_trust (s : State) : (busError s).trust = s.trust := rfl
@[simp] theorem busError_ingest (s : State) : (busError s).ingest = s.ingest := rfl
@[simp] theorem busError_ledger (s : State) : (busError s).ledger = s.ledger := rfl
@[simp] theorem busError_cell (s : State) : (busError s).cell = s.cell := rfl
@[simp] theorem busError_pipe (s : State) : (busError s).pipe = s.pipe := rfl
@[simp] theorem busError_hash (s : State) : (busError s).hash = s.hash := rfl
@[simp] theorem busError_pool (s : State) : (busError s).pool = s.pool := rfl
@[simp] theorem busError_klink (s : State) : (busError s).klink = s.klink := rfl
@[simp] theorem busError_rawc (s : State) : (busError s).rawc = s.rawc := rfl
@[simp] theorem busError_mag (s : State) : (busError s).mag = s.mag := rfl
@[simp] theorem busError_heve (s : State) : (busError s).heve = s.heve := rfl
@[simp] theorem busError_hevd (s : State) : (busError s).hevd = s.hevd := rfl
@[simp] theorem busError_serial (s : State) : (busError s).serial = s.serial := rfl
@[simp] theorem busError_net (s : State) : (busError s).net = s.net := rfl
@[simp] theorem busError_clock (s : State) : (busError s).clock = s.clock := rfl
@[simp] theorem busError_motion (s : State) : (busError s).motion = s.motion := rfl
@[simp] theorem busError_view (s : State) : (busError s).view = s.view := rfl
@[simp] theorem busError_mgmt (s : State) : (busError s).mgmt = s.mgmt := rfl

@[simp] theorem busOk_sys_bus (w : Word) (s : State) : (busOk w s).sys.bus = { data := w, error := false } := rfl
@[simp] theorem busError_sys_bus (s : State) : (busError s).sys.bus = { data := 0, error := true } := rfl
@[simp] theorem State.writeScratch_pending (s : State) (a : Nat) (bs : List Byte) : (s.writeScratch a bs).pending = s.pending := rfl
@[simp] theorem State.writeScratch_ticks (s : State) (a : Nat) (bs : List Byte) : (s.writeScratch a bs).ticks = s.ticks := rfl
@[simp] theorem State.writeScratch_time (s : State) (a : Nat) (bs : List Byte) : (s.writeScratch a bs).time = s.time := rfl
@[simp] theorem State.writeScratch_regs (s : State) (a : Nat) (bs : List Byte) : (s.writeScratch a bs).regs = s.regs := rfl
@[simp] theorem State.writeScratch_free (s : State) (a : Nat) (bs : List Byte) : (s.writeScratch a bs).free = s.free := rfl
@[simp] theorem State.writeScratch_smSram (s : State) (a : Nat) (bs : List Byte) : (s.writeScratch a bs).smSram = s.smSram := rfl
@[simp] theorem State.writeScratch_dram (s : State) (a : Nat) (bs : List Byte) : (s.writeScratch a bs).dram = s.dram := rfl
@[simp] theorem State.writeScratch_nvm (s : State) (a : Nat) (bs : List Byte) : (s.writeScratch a bs).nvm = s.nvm := rfl
@[simp] theorem State.writeScratch_mem (s : State) (a : Nat) (bs : List Byte) : (s.writeScratch a bs).mem = s.mem := rfl
@[simp] theorem State.writeScratch_sys (s : State) (a : Nat) (bs : List Byte) : (s.writeScratch a bs).sys = s.sys := rfl
@[simp] theorem State.writeScratch_cue (s : State) (a : Nat) (bs : List Byte) : (s.writeScratch a bs).cue = s.cue := rfl
@[simp] theorem State.writeScratch_call (s : State) (a : Nat) (bs : List Byte) : (s.writeScratch a bs).call = s.call := rfl
@[simp] theorem State.writeScratch_power (s : State) (a : Nat) (bs : List Byte) : (s.writeScratch a bs).power = s.power := rfl
@[simp] theorem State.writeScratch_trust (s : State) (a : Nat) (bs : List Byte) : (s.writeScratch a bs).trust = s.trust := rfl
@[simp] theorem State.writeScratch_ingest (s : State) (a : Nat) (bs : List Byte) : (s.writeScratch a bs).ingest = s.ingest := rfl
@[simp] theorem State.writeScratch_ledger (s : State) (a : Nat) (bs : List Byte) : (s.writeScratch a bs).ledger = s.ledger := rfl
@[simp] theorem State.writeScratch_cell (s : State) (a : Nat) (bs : List Byte) : (s.writeScratch a bs).cell = s.cell := rfl
@[simp] theorem State.writeScratch_pipe (s : State) (a : Nat) (bs : List Byte) : (s.writeScratch a bs).pipe = s.pipe := rfl
@[simp] theorem State.writeScratch_hash (s : State) (a : Nat) (bs : List Byte) : (s.writeScratch a bs).hash = s.hash := rfl
@[simp] theorem State.writeScratch_pool (s : State) (a : Nat) (bs : List Byte) : (s.writeScratch a bs).pool = s.pool := rfl
@[simp] theorem State.writeScratch_klink (s : State) (a : Nat) (bs : List Byte) : (s.writeScratch a bs).klink = s.klink := rfl
@[simp] theorem State.writeScratch_rawc (s : State) (a : Nat) (bs : List Byte) : (s.writeScratch a bs).rawc = s.rawc := rfl
@[simp] theorem State.writeScratch_mag (s : State) (a : Nat) (bs : List Byte) : (s.writeScratch a bs).mag = s.mag := rfl
@[simp] theorem State.writeScratch_heve (s : State) (a : Nat) (bs : List Byte) : (s.writeScratch a bs).heve = s.heve := rfl
@[simp] theorem State.writeScratch_hevd (s : State) (a : Nat) (bs : List Byte) : (s.writeScratch a bs).hevd = s.hevd := rfl
@[simp] theorem State.writeScratch_serial (s : State) (a : Nat) (bs : List Byte) : (s.writeScratch a bs).serial = s.serial := rfl
@[simp] theorem State.writeScratch_net (s : State) (a : Nat) (bs : List Byte) : (s.writeScratch a bs).net = s.net := rfl
@[simp] theorem State.writeScratch_clock (s : State) (a : Nat) (bs : List Byte) : (s.writeScratch a bs).clock = s.clock := rfl
@[simp] theorem State.writeScratch_motion (s : State) (a : Nat) (bs : List Byte) : (s.writeScratch a bs).motion = s.motion := rfl
@[simp] theorem State.writeScratch_view (s : State) (a : Nat) (bs : List Byte) : (s.writeScratch a bs).view = s.view := rfl
@[simp] theorem State.writeScratch_mgmt (s : State) (a : Nat) (bs : List Byte) : (s.writeScratch a bs).mgmt = s.mgmt := rfl
@[simp] theorem State.writeNvm_pending (s : State) (a : Nat) (bs : List Byte) : (s.writeNvm a bs).pending = s.pending := rfl
@[simp] theorem State.writeNvm_ticks (s : State) (a : Nat) (bs : List Byte) : (s.writeNvm a bs).ticks = s.ticks := rfl
@[simp] theorem State.writeNvm_time (s : State) (a : Nat) (bs : List Byte) : (s.writeNvm a bs).time = s.time := rfl
@[simp] theorem State.writeNvm_regs (s : State) (a : Nat) (bs : List Byte) : (s.writeNvm a bs).regs = s.regs := rfl
@[simp] theorem State.writeNvm_free (s : State) (a : Nat) (bs : List Byte) : (s.writeNvm a bs).free = s.free := rfl
@[simp] theorem State.writeNvm_scratch (s : State) (a : Nat) (bs : List Byte) : (s.writeNvm a bs).scratch = s.scratch := rfl
@[simp] theorem State.writeNvm_smSram (s : State) (a : Nat) (bs : List Byte) : (s.writeNvm a bs).smSram = s.smSram := rfl
@[simp] theorem State.writeNvm_dram (s : State) (a : Nat) (bs : List Byte) : (s.writeNvm a bs).dram = s.dram := rfl
@[simp] theorem State.writeNvm_mem (s : State) (a : Nat) (bs : List Byte) : (s.writeNvm a bs).mem = s.mem := rfl
@[simp] theorem State.writeNvm_sys (s : State) (a : Nat) (bs : List Byte) : (s.writeNvm a bs).sys = s.sys := rfl
@[simp] theorem State.writeNvm_cue (s : State) (a : Nat) (bs : List Byte) : (s.writeNvm a bs).cue = s.cue := rfl
@[simp] theorem State.writeNvm_call (s : State) (a : Nat) (bs : List Byte) : (s.writeNvm a bs).call = s.call := rfl
@[simp] theorem State.writeNvm_power (s : State) (a : Nat) (bs : List Byte) : (s.writeNvm a bs).power = s.power := rfl
@[simp] theorem State.writeNvm_trust (s : State) (a : Nat) (bs : List Byte) : (s.writeNvm a bs).trust = s.trust := rfl
@[simp] theorem State.writeNvm_ingest (s : State) (a : Nat) (bs : List Byte) : (s.writeNvm a bs).ingest = s.ingest := rfl
@[simp] theorem State.writeNvm_ledger (s : State) (a : Nat) (bs : List Byte) : (s.writeNvm a bs).ledger = s.ledger := rfl
@[simp] theorem State.writeNvm_cell (s : State) (a : Nat) (bs : List Byte) : (s.writeNvm a bs).cell = s.cell := rfl
@[simp] theorem State.writeNvm_pipe (s : State) (a : Nat) (bs : List Byte) : (s.writeNvm a bs).pipe = s.pipe := rfl
@[simp] theorem State.writeNvm_hash (s : State) (a : Nat) (bs : List Byte) : (s.writeNvm a bs).hash = s.hash := rfl
@[simp] theorem State.writeNvm_pool (s : State) (a : Nat) (bs : List Byte) : (s.writeNvm a bs).pool = s.pool := rfl
@[simp] theorem State.writeNvm_klink (s : State) (a : Nat) (bs : List Byte) : (s.writeNvm a bs).klink = s.klink := rfl
@[simp] theorem State.writeNvm_rawc (s : State) (a : Nat) (bs : List Byte) : (s.writeNvm a bs).rawc = s.rawc := rfl
@[simp] theorem State.writeNvm_mag (s : State) (a : Nat) (bs : List Byte) : (s.writeNvm a bs).mag = s.mag := rfl
@[simp] theorem State.writeNvm_heve (s : State) (a : Nat) (bs : List Byte) : (s.writeNvm a bs).heve = s.heve := rfl
@[simp] theorem State.writeNvm_hevd (s : State) (a : Nat) (bs : List Byte) : (s.writeNvm a bs).hevd = s.hevd := rfl
@[simp] theorem State.writeNvm_serial (s : State) (a : Nat) (bs : List Byte) : (s.writeNvm a bs).serial = s.serial := rfl
@[simp] theorem State.writeNvm_net (s : State) (a : Nat) (bs : List Byte) : (s.writeNvm a bs).net = s.net := rfl
@[simp] theorem State.writeNvm_clock (s : State) (a : Nat) (bs : List Byte) : (s.writeNvm a bs).clock = s.clock := rfl
@[simp] theorem State.writeNvm_motion (s : State) (a : Nat) (bs : List Byte) : (s.writeNvm a bs).motion = s.motion := rfl
@[simp] theorem State.writeNvm_view (s : State) (a : Nat) (bs : List Byte) : (s.writeNvm a bs).view = s.view := rfl
@[simp] theorem State.writeNvm_mgmt (s : State) (a : Nat) (bs : List Byte) : (s.writeNvm a bs).mgmt = s.mgmt := rfl
@[simp] theorem creditIssue_pending (p n : Nat) (s : State) : (creditIssue p n s).pending = s.pending := rfl
@[simp] theorem creditReturn_pending (p n : Nat) (s : State) : (creditReturn p n s).pending = s.pending := rfl
@[simp] theorem creditIssue_ticks (p n : Nat) (s : State) : (creditIssue p n s).ticks = s.ticks := rfl
@[simp] theorem creditReturn_ticks (p n : Nat) (s : State) : (creditReturn p n s).ticks = s.ticks := rfl
@[simp] theorem creditIssue_time (p n : Nat) (s : State) : (creditIssue p n s).time = s.time := rfl
@[simp] theorem creditReturn_time (p n : Nat) (s : State) : (creditReturn p n s).time = s.time := rfl
@[simp] theorem creditIssue_regs (p n : Nat) (s : State) : (creditIssue p n s).regs = s.regs := rfl
@[simp] theorem creditReturn_regs (p n : Nat) (s : State) : (creditReturn p n s).regs = s.regs := rfl
@[simp] theorem creditIssue_free (p n : Nat) (s : State) : (creditIssue p n s).free = s.free := rfl
@[simp] theorem creditReturn_free (p n : Nat) (s : State) : (creditReturn p n s).free = s.free := rfl
@[simp] theorem creditIssue_scratch (p n : Nat) (s : State) : (creditIssue p n s).scratch = s.scratch := rfl
@[simp] theorem creditReturn_scratch (p n : Nat) (s : State) : (creditReturn p n s).scratch = s.scratch := rfl
@[simp] theorem creditIssue_smSram (p n : Nat) (s : State) : (creditIssue p n s).smSram = s.smSram := rfl
@[simp] theorem creditReturn_smSram (p n : Nat) (s : State) : (creditReturn p n s).smSram = s.smSram := rfl
@[simp] theorem creditIssue_dram (p n : Nat) (s : State) : (creditIssue p n s).dram = s.dram := rfl
@[simp] theorem creditReturn_dram (p n : Nat) (s : State) : (creditReturn p n s).dram = s.dram := rfl
@[simp] theorem creditIssue_nvm (p n : Nat) (s : State) : (creditIssue p n s).nvm = s.nvm := rfl
@[simp] theorem creditReturn_nvm (p n : Nat) (s : State) : (creditReturn p n s).nvm = s.nvm := rfl
@[simp] theorem creditIssue_mem (p n : Nat) (s : State) : (creditIssue p n s).mem = s.mem := rfl
@[simp] theorem creditReturn_mem (p n : Nat) (s : State) : (creditReturn p n s).mem = s.mem := rfl
@[simp] theorem creditIssue_sys (p n : Nat) (s : State) : (creditIssue p n s).sys = s.sys := rfl
@[simp] theorem creditReturn_sys (p n : Nat) (s : State) : (creditReturn p n s).sys = s.sys := rfl
@[simp] theorem creditIssue_cue (p n : Nat) (s : State) : (creditIssue p n s).cue = s.cue := rfl
@[simp] theorem creditReturn_cue (p n : Nat) (s : State) : (creditReturn p n s).cue = s.cue := rfl
@[simp] theorem creditIssue_call (p n : Nat) (s : State) : (creditIssue p n s).call = s.call := rfl
@[simp] theorem creditReturn_call (p n : Nat) (s : State) : (creditReturn p n s).call = s.call := rfl
@[simp] theorem creditIssue_power (p n : Nat) (s : State) : (creditIssue p n s).power = s.power := rfl
@[simp] theorem creditReturn_power (p n : Nat) (s : State) : (creditReturn p n s).power = s.power := rfl
@[simp] theorem creditIssue_trust (p n : Nat) (s : State) : (creditIssue p n s).trust = s.trust := rfl
@[simp] theorem creditReturn_trust (p n : Nat) (s : State) : (creditReturn p n s).trust = s.trust := rfl
@[simp] theorem creditIssue_ingest (p n : Nat) (s : State) : (creditIssue p n s).ingest = s.ingest := rfl
@[simp] theorem creditReturn_ingest (p n : Nat) (s : State) : (creditReturn p n s).ingest = s.ingest := rfl
@[simp] theorem creditIssue_cell (p n : Nat) (s : State) : (creditIssue p n s).cell = s.cell := rfl
@[simp] theorem creditReturn_cell (p n : Nat) (s : State) : (creditReturn p n s).cell = s.cell := rfl
@[simp] theorem creditIssue_pipe (p n : Nat) (s : State) : (creditIssue p n s).pipe = s.pipe := rfl
@[simp] theorem creditReturn_pipe (p n : Nat) (s : State) : (creditReturn p n s).pipe = s.pipe := rfl
@[simp] theorem creditIssue_hash (p n : Nat) (s : State) : (creditIssue p n s).hash = s.hash := rfl
@[simp] theorem creditReturn_hash (p n : Nat) (s : State) : (creditReturn p n s).hash = s.hash := rfl
@[simp] theorem creditIssue_pool (p n : Nat) (s : State) : (creditIssue p n s).pool = s.pool := rfl
@[simp] theorem creditReturn_pool (p n : Nat) (s : State) : (creditReturn p n s).pool = s.pool := rfl
@[simp] theorem creditIssue_klink (p n : Nat) (s : State) : (creditIssue p n s).klink = s.klink := rfl
@[simp] theorem creditReturn_klink (p n : Nat) (s : State) : (creditReturn p n s).klink = s.klink := rfl
@[simp] theorem creditIssue_rawc (p n : Nat) (s : State) : (creditIssue p n s).rawc = s.rawc := rfl
@[simp] theorem creditReturn_rawc (p n : Nat) (s : State) : (creditReturn p n s).rawc = s.rawc := rfl
@[simp] theorem creditIssue_mag (p n : Nat) (s : State) : (creditIssue p n s).mag = s.mag := rfl
@[simp] theorem creditReturn_mag (p n : Nat) (s : State) : (creditReturn p n s).mag = s.mag := rfl
@[simp] theorem creditIssue_heve (p n : Nat) (s : State) : (creditIssue p n s).heve = s.heve := rfl
@[simp] theorem creditReturn_heve (p n : Nat) (s : State) : (creditReturn p n s).heve = s.heve := rfl
@[simp] theorem creditIssue_hevd (p n : Nat) (s : State) : (creditIssue p n s).hevd = s.hevd := rfl
@[simp] theorem creditReturn_hevd (p n : Nat) (s : State) : (creditReturn p n s).hevd = s.hevd := rfl
@[simp] theorem creditIssue_serial (p n : Nat) (s : State) : (creditIssue p n s).serial = s.serial := rfl
@[simp] theorem creditReturn_serial (p n : Nat) (s : State) : (creditReturn p n s).serial = s.serial := rfl
@[simp] theorem creditIssue_net (p n : Nat) (s : State) : (creditIssue p n s).net = s.net := rfl
@[simp] theorem creditReturn_net (p n : Nat) (s : State) : (creditReturn p n s).net = s.net := rfl
@[simp] theorem creditIssue_clock (p n : Nat) (s : State) : (creditIssue p n s).clock = s.clock := rfl
@[simp] theorem creditReturn_clock (p n : Nat) (s : State) : (creditReturn p n s).clock = s.clock := rfl
@[simp] theorem creditIssue_motion (p n : Nat) (s : State) : (creditIssue p n s).motion = s.motion := rfl
@[simp] theorem creditReturn_motion (p n : Nat) (s : State) : (creditReturn p n s).motion = s.motion := rfl
@[simp] theorem creditIssue_view (p n : Nat) (s : State) : (creditIssue p n s).view = s.view := rfl
@[simp] theorem creditReturn_view (p n : Nat) (s : State) : (creditReturn p n s).view = s.view := rfl
@[simp] theorem creditIssue_mgmt (p n : Nat) (s : State) : (creditIssue p n s).mgmt = s.mgmt := rfl
@[simp] theorem creditReturn_mgmt (p n : Nat) (s : State) : (creditReturn p n s).mgmt = s.mgmt := rfl

end Sys2Proof.Machine
end

