-- ==== Sys2Proof/Laws/Regs.lean ====
section
/-! SUPPORT. Laws of registers and their fields: what is read after a write of the same field, of another field of the
register, and of another register. -/

namespace Sys2Proof.Machine

/-! ### Words -/

@[simp] theorem State.word_setWord_same (s : State) (a : Nat) (w : Word) : (s.setWord a w).word a = w :=
  readAt_writeAt_same ..

theorem State.word_setWord_ne (s : State) {a b : Nat} (w : Word) (h : b ≠ a) : (s.setWord a w).word b = s.word b :=
  readAt_writeAt_ne _ _ h

/-- Registers that two states hold alike. -/
theorem State.word_congr {s t : State} (h : t.regs = s.regs) (a : Nat) : t.word a = s.word a := by
  simp [State.word, h]

theorem State.fld_congr {s t : State} (h : t.regs = s.regs) (f : Fld) : t.fld f = s.fld f := by
  simp [State.fld, State.word, h]

/-! ### Fields -/

/-- The field lies within its register. -/
def Fld.fits (f : Fld) : Bool := decide (f.lo + f.width ≤ 32)

/-- Two fields share no bit. -/
def Fld.apart (f g : Fld) : Bool :=
  f.addr != g.addr || decide (f.lo + f.width ≤ g.lo) || decide (g.lo + g.width ≤ f.lo)

theorem bits_lt (w : Word) (lo width : Nat) : w.toNat / 2 ^ lo % 2 ^ width < 2 ^ width := Nat.mod_lt _ (by positivity)

theorem testBit_field (n lo width i : Nat) : (n / 2 ^ lo % 2 ^ width).testBit i = (decide (i < width) && n.testBit (lo + i)) := by
  rw [Nat.testBit_mod_two_pow, Nat.testBit_div_two_pow, Nat.add_comm]

theorem testBit_mask (lo width i : Nat) : ((2 ^ width - 1) * 2 ^ lo).testBit i = (decide (lo ≤ i) && decide (i < lo + width)) := by
  rw [Nat.testBit_mul_two_pow, Nat.testBit_two_pow_sub_one]
  by_cases h : lo ≤ i
  · simp only [h, decide_true, Bool.true_and, ge_iff_le, decide_eq_decide]; omega
  · simp [h]

theorem insertBits_getLsbD (w : Word) (lo width n i : Nat) (h : lo + width ≤ 32) :
    (insertBits w lo width n).getLsbD i =
      if lo ≤ i ∧ i < lo + width then n.testBit (i - lo) else w.getLsbD i := by
  by_cases hi : i < 32
  · have h1 := testBit_mask lo width i
    have h2 : (n % 2 ^ width * 2 ^ lo).testBit i = (decide (lo ≤ i) && (decide (i - lo < width) && n.testBit (i - lo))) := by
      rw [Nat.testBit_mul_two_pow, Nat.testBit_mod_two_pow]
    simp only [insertBits, BitVec.getLsbD_or, BitVec.getLsbD_and, BitVec.getLsbD_not, BitVec.getLsbD_ofNat, h1, h2, hi,
      decide_true, Bool.true_and]
    by_cases a : lo ≤ i <;> by_cases b : i < lo + width
    · have : i - lo < width := by omega
      simp [a, b, this]
    · have : ¬ i - lo < width := by omega
      simp [a, b, this]
    · simp [a]
    · simp [a]
  · rw [BitVec.getLsbD_of_ge _ _ (by omega), BitVec.getLsbD_of_ge _ _ (by omega), if_neg (by omega)]

theorem testBit_toNat_field (w : Word) (lo width i : Nat) :
    (w.toNat / 2 ^ lo % 2 ^ width).testBit i = (decide (i < width) && w.getLsbD (lo + i)) := by
  rw [testBit_field]; rfl

/-- A field just written reads as what was written, cut to its width. -/
theorem State.fld_setFld_same (s : State) (f : Fld) (n : Nat) (h : f.fits = true) :
    (s.setFld f n).fld f = n % 2 ^ f.width := by
  have h := of_decide_eq_true h
  apply Nat.eq_of_testBit_eq
  intro i
  simp only [State.fld, State.setFld, State.word_setWord_same]
  rw [testBit_toNat_field, insertBits_getLsbD _ _ _ _ _ h, Nat.testBit_mod_two_pow]
  by_cases hi : i < f.width
  · rw [if_pos (by omega)]; simp [hi]
  · simp [hi]

/-- A field that shares no bit with the one written keeps its value. -/
theorem State.fld_setFld_apart (s : State) (f g : Fld) (n : Nat) (hg : g.fits = true) (h : f.apart g = true) :
    (s.setFld g n).fld f = s.fld f := by
  by_cases ha : f.addr = g.addr
  · have hg := of_decide_eq_true hg
    simp only [Fld.apart, ha, bne_self_eq_false, Bool.false_or, Bool.or_eq_true, decide_eq_true_eq] at h
    apply Nat.eq_of_testBit_eq
    intro i
    simp only [State.fld, State.setFld, ha, State.word_setWord_same]
    rw [testBit_toNat_field, testBit_toNat_field, insertBits_getLsbD _ _ _ _ _ hg]
    by_cases hi : i < f.width
    · rw [if_neg (by omega)]
    · simp [hi]
  · simp only [State.fld, State.setFld, State.word_setWord_ne _ _ ha]

/-- A register other than that of the field written keeps its word. -/
theorem State.word_setFld_ne (s : State) (f : Fld) (n : Nat) {a : Nat} (h : a ≠ f.addr) : (s.setFld f n).word a = s.word a :=
  State.word_setWord_ne _ _ h

theorem State.flag_setFlag_same (s : State) (f : Fld) (b : Bool) (h : f.fits = true) (hw : f.width = 1) :
    (s.setFlag f b).flag f = b := by
  simp only [State.flag, State.setFlag, State.fld_setFld_same _ _ _ h, hw]
  cases b <;> decide

theorem State.flag_setFld_apart (s : State) (f g : Fld) (n : Nat) (hg : g.fits = true) (h : f.apart g = true) :
    (s.setFld g n).flag f = s.flag f := by
  simp only [State.flag, State.fld_setFld_apart _ _ _ _ hg h]

theorem State.fld_lt (s : State) (f : Fld) : s.fld f < 2 ^ f.width := bits_lt ..

/-- A field written with a value that it holds reads as that value. -/
theorem State.fld_setFld_lt (s : State) (f : Fld) (n : Nat) (h : f.fits = true) (hn : n < 2 ^ f.width) :
    (s.setFld f n).fld f = n := by rw [State.fld_setFld_same _ _ _ h, Nat.mod_eq_of_lt hn]

end Sys2Proof.Machine
end

