-- ==== Sys2Proof/Laws/Steady.lean ====
section
/-! SUPPORT. What the shared operations leave alone: the queue of commands, device time and what waits for its next tick,
and the canonical form of the memories. One lemma per operation; a proof about a command chains them with
`Steady.trans`. -/

namespace Sys2Proof.Machine

/-- `t` keeps the queue and device time of `s`, and canonical memories stay canonical. -/
structure Steady (s t : State) : Prop where
  pending : t.pending = s.pending
  time : t.time = s.time
  next : t.clock.next = s.clock.next
  wf : s.memoriesWf → t.memoriesWf

namespace Steady

theorem refl (s : State) : Steady s s := ⟨rfl, rfl, rfl, id⟩

theorem trans {s t u : State} (h : Steady s t) (k : Steady t u) : Steady s u :=
  ⟨k.pending.trans h.pending, k.time.trans h.time, k.next.trans h.next, fun w => k.wf (h.wf w)⟩

/-- The last change first. -/
theorem after {s t u : State} (k : Steady t u) (h : Steady s t) : Steady s u := h.trans k

/-- The invariant of the device holds after a steady change. -/
theorem inv {s t : State} (h : Steady s t) (hi : s.Inv) : t.Inv :=
  ⟨h.wf hi.1, by
    have := hi.2
    unfold State.timeWf at *
    rwa [h.time, h.next]⟩

theorem ite {p : Prop} [Decidable p] {s t u : State} (h : Steady s t) (k : Steady s u) : Steady s (if p then t else u) := by
  split
  · exact h
  · exact k

/-- A fold of steady changes is steady. -/
theorem foldl {α : Type} (f : State → α → State) (h : ∀ s a, Steady s (f s a)) (l : List α) (s : State) :
    Steady s (l.foldl f s) := by
  induction l generalizing s with
  | nil => exact refl s
  | cons a l ih => exact (h s a).trans (ih (f s a))

/-- A change of fields that are neither the queue, nor time, nor a memory. -/
theorem of_eq {s t : State} (h : t.pending = s.pending) (ht : t.time = s.time) (hn : t.clock.next = s.clock.next)
    (hr : t.regs = s.regs) (h1 : t.scratch = s.scratch) (h2 : t.smSram = s.smSram) (h3 : t.dram = s.dram)
    (h4 : t.nvm = s.nvm) : Steady s t :=
  ⟨h, ht, hn, fun w => by unfold State.memoriesWf at *; rwa [hr, h1, h2, h3, h4]⟩

end Steady

/-! ### Registers -/

theorem setWord_steady (s : State) (a : Nat) (w : Word) : Steady s (s.setWord a w) :=
  ⟨rfl, rfl, rfl, fun h => ⟨writeAt_wf h.1 a w, h.2⟩⟩

theorem setFld_steady (s : State) (f : Fld) (n : Nat) : Steady s (s.setFld f n) := setWord_steady ..
theorem setFlag_steady (s : State) (f : Fld) (b : Bool) : Steady s (s.setFlag f b) := setFld_steady ..
theorem addFld_steady (s : State) (f : Fld) (k : Nat) : Steady s (s.addFld f k) := setFld_steady ..
theorem wrapFld_steady (s : State) (f : Fld) (k : Nat) : Steady s (s.wrapFld f k) := setFld_steady ..
theorem orBit_steady (s : State) (f : Fld) (n : Nat) : Steady s (s.orBit f n) := setFld_steady ..
theorem clrBit_steady (s : State) (f : Fld) (n : Nat) : Steady s (s.clrBit f n) := setFld_steady ..
theorem setBit_steady (s : State) (f : Fld) (n : Nat) (b : Bool) : Steady s (s.setBit f n b) :=
  .ite (orBit_steady ..) (clrBit_steady ..)
theorem setFld64_steady (s : State) (lo hi : Fld) (n : Nat) : Steady s (s.setFld64 lo hi n) :=
  (setFld_steady ..).trans (setFld_steady ..)

theorem resetGroups_wf {m : Sparse 32} (h : sparseWf 0 m = true) (gs : List (Nat × List RegDef)) (keep : FieldDef → Bool) :
    sparseWf 0 (resetGroups m gs keep) = true := by
  have inner : ∀ (l : List (Nat × RegDef)) (m : Sparse 32), sparseWf 0 m = true →
      sparseWf 0 (l.foldl (fun m e => resetFields m e.1 e.2 keep) m) = true := by
    intro l
    induction l with
    | nil => exact fun _ h => h
    | cons e l ih => exact fun m h => ih _ (writeAt_wf h ..)
  unfold resetGroups
  induction gs generalizing m with
  | nil => exact h
  | cons g gs ih => exact ih (inner _ _ h)

/-! ### Memories and free values -/

theorem takeFree_steady (s : State) : Steady s s.takeFree.2 := .of_eq rfl rfl rfl rfl rfl rfl rfl rfl
theorem takeBytes_steady (s : State) (n : Nat) : Steady s (s.takeBytes n).2 := .of_eq rfl rfl rfl rfl rfl rfl rfl rfl

theorem writeScratch_steady (s : State) (a : Nat) (bs : List Byte) : Steady s (s.writeScratch a bs) :=
  ⟨rfl, rfl, rfl, fun h => ⟨h.1, writeList_wf h.2.1 a _, h.2.2⟩⟩

theorem writeNvm_steady (s : State) (a : Nat) (bs : List Byte) : Steady s (s.writeNvm a bs) :=
  ⟨rfl, rfl, rfl, fun h => ⟨h.1, h.2.1, h.2.2.1, h.2.2.2.1, writeList_wf h.2.2.2.2 a bs⟩⟩

theorem foldl_write_wf {α : Type} (p : α → Bool) (k : α → Nat) (v : α → Byte) (l : List α) {m : Sparse 8}
    (h : sparseWf 0 m = true) : sparseWf 0 (l.foldl (fun d e => if p e then d else writeAt 0 d (k e) (v e)) m) = true := by
  induction l generalizing m with
  | nil => exact h
  | cons e l ih =>
    refine ih ?_
    show sparseWf 0 (if p e then m else writeAt 0 m (k e) (v e)) = true
    split
    · exact h
    · exact writeAt_wf h ..

/-! ### Credits, buffers, lanes -/

theorem creditIssue_steady (p n : Nat) (s : State) : Steady s (creditIssue p n s) := .of_eq rfl rfl rfl rfl rfl rfl rfl rfl
theorem creditReturn_steady (p n : Nat) (s : State) : Steady s (creditReturn p n s) := .of_eq rfl rfl rfl rfl rfl rfl rfl rfl
theorem setPipe_steady (p : PipeState) (s : State) : Steady s (setPipe p s) := .of_eq rfl rfl rfl rfl rfl rfl rfl rfl
theorem modPipePort_steady (p : Nat) (f : PipePort → PipePort) (s : State) : Steady s (modPipePort p f s) := setPipe_steady ..
theorem setSerial_steady (x : SerialState) (s : State) : Steady s (setSerial x s) := .of_eq rfl rfl rfl rfl rfl rfl rfl rfl
theorem modLane_steady (l : Nat) (f : Lane → Lane) (s : State) : Steady s (modLane l f s) := setSerial_steady ..
theorem setPool_steady (p : PoolState) (s : State) : Steady s (setPool p s) := .of_eq rfl rfl rfl rfl rfl rfl rfl rfl

theorem showFree_steady (s : State) : Steady s (showFree s) :=
  (((setFld_steady ..).trans (setFld_steady ..)).trans (setFld_steady ..)).trans (setFld_steady ..)

theorem releaseBuf_steady (p k : Nat) (s : State) : Steady s (releaseBuf p k s) := by
  unfold releaseBuf
  split
  · exact ((modPipePort_steady ..).trans (creditReturn_steady ..)).trans (showFree_steady _)
  · exact .refl s

theorem laneStop_steady (l : Nat) (s : State) : Steady s (laneStop l s) :=
  (modLane_steady ..).trans <| (setFld_steady ..).trans <| (setFlag_steady ..).trans <| (setFlag_steady ..).trans <|
    (setFlag_steady ..).trans <| (setFlag_steady ..).trans <| (setFlag_steady ..).trans (setFlag_steady ..)

theorem lanesStop_steady (ls : List Nat) (s : State) : Steady s (lanesStop ls s) :=
  .foldl _ (fun s l => laneStop_steady l s) ls s

theorem poolShow_steady (s : State) : Steady s (poolShow s) := (setFld_steady ..).trans (setFld_steady ..)

theorem poolChange_steady (h : Nat) (f : PoolHandle → PoolHandle) (s : State) : Steady s (poolChange h f s) := by
  unfold poolChange
  split
  · exact .refl s
  · exact (setPool_steady ..).trans <| (Steady.ite (creditReturn_steady ..) (.refl _)).trans (poolShow_steady _)

/-! ### Power domains, Dark and the safe state -/

theorem offIngest_steady (p : Nat) (s : State) : Steady s (offIngest p s) := .of_eq rfl rfl rfl rfl rfl rfl rfl rfl

theorem giveBack_fold_steady (l : List HeadOut) (s : State) : Steady s (l.foldl (fun s o => giveBack o s) s) :=
  .foldl (fun s o => giveBack o s) (fun s (o : HeadOut) => releaseBuf_steady o.port o.buf s) l s

theorem setHeve_steady (h : List HeveEng) (s : State) : Steady s { s with heve := h } := .of_eq rfl rfl rfl rfl rfl rfl rfl rfl

theorem offHeve_steady (e : Nat) (s : State) : Steady s (offHeve e s) := by
  unfold offHeve
  exact .after (giveBack_fold_steady ..) (setHeve_steady ..)

theorem stopHeve_steady (e : Nat) (s : State) : Steady s (stopHeve e s) := by
  unfold stopHeve
  exact .after (setFlag_steady ..) (.after (setFlag_steady ..) (.after (giveBack_fold_steady ..) (setHeve_steady ..)))

theorem setPipeField_steady (p : PipeState) (s : State) : Steady s { s with pipe := p } := setPipe_steady ..

theorem offPipe_steady (s : State) : Steady s (offPipe s) := by
  unfold offPipe
  exact .after (setPipeField_steady ..) (.after (.foldl _ (fun _ _ => poolChange_steady ..) _ _)
    (.foldl _ (fun _ _ => creditReturn_steady ..) _ _))

theorem offView_steady (s : State) : Steady s (offView s) := by
  unfold offView
  exact .after (creditReturn_steady ..) (.of_eq rfl rfl rfl rfl rfl rfl rfl rfl)

theorem offMag_steady (k : Nat) (s : State) : Steady s (offMag k s) := by
  unfold offMag
  exact .after (lanesStop_steady ..) (.of_eq rfl rfl rfl rfl rfl rfl rfl rfl)

theorem offKlink_steady (s : State) : Steady s (offKlink s) := by
  unfold offKlink
  exact .after (lanesStop_steady ..) (.of_eq rfl rfl rfl rfl rfl rfl rfl rfl)

theorem offMotion_steady (s : State) : Steady s (offMotion s) :=
  Steady.trans (t := (s.setFld LEDGER_PIN_STATUS.LEVEL 0).setFld LEDGER_PIN_STATUS.OUT 0)
    ((setFld_steady ..).trans (setFld_steady ..)) (.of_eq rfl rfl rfl rfl rfl rfl rfl rfl)

theorem offDram_steady (half : Nat) (s : State) : Steady s (offDram half s) :=
  ⟨rfl, rfl, rfl, fun h => ⟨h.1, h.2.1, h.2.2.1, filter_wf h.2.2.2.1 _, h.2.2.2.2⟩⟩

theorem noScratch_steady (s : State) : Steady s { s with scratch := [] } := ⟨rfl, rfl, rfl, fun h => ⟨h.1, rfl, h.2.2⟩⟩

theorem noDram_steady (s : State) (m : DramState) : Steady s { s with dram := [], mem := m } :=
  ⟨rfl, rfl, rfl, fun h => ⟨h.1, h.2.1, h.2.2.1, rfl, h.2.2.2.2⟩⟩

theorem hiddenOff_steady (d : Nat) (s : State) : Steady s (hiddenOff d s) := by
  unfold hiddenOff
  refine .ite (noScratch_steady s) <| .ite (offIngest_steady ..) <| .ite (.ite (.refl s) (offPipe_steady s)) <|
    .ite ?_ <| .ite (.ite (.refl s) ?_) <| .ite (offHeve_steady ..) <| .ite ?_ <| .ite ?_ <|
    .ite (.ite (offDram_steady ..) (noDram_steady ..)) <| .ite (offMag_steady ..) <| .ite (offKlink_steady s) <|
    .ite (.after (lanesStop_steady ..) ?_) <| .ite (offView_steady s) <| .ite (offMotion_steady s) <|
    .ite ?_ (.refl s) <;> exact .of_eq rfl rfl rfl rfl rfl rfl rfl rfl

theorem domainKeeps_steady (d : Nat) (s t : State) : Steady t (domainKeeps d s t) :=
  .ite ((setFld_steady ..).trans (setFlag_steady ..)) (.ite (setFlag_steady ..) (.refl t))

theorem domainOff_steady (d : Nat) (s : State) : Steady s (domainOff d s) := by
  unfold domainOff
  refine .ite (.after (domainKeeps_steady ..) ?_) (.refl s)
  exact Steady.trans ((clrBit_steady ..).trans (hiddenOff_steady ..)) ⟨rfl, rfl, rfl, fun h => ⟨resetGroups_wf h.1 .., h.2⟩⟩

theorem domainsOff_steady (ds : List Nat) (s : State) : Steady s (domainsOff ds s) :=
  .foldl _ (fun s d => domainOff_steady d s) ds s

theorem dropRails_steady (s : State) : Steady s (dropRails s) := setFld_steady ..

theorem setPower_steady (p : PowerState) (s : State) : Steady s { s with power := p } := .of_eq rfl rfl rfl rfl rfl rfl rfl rfl

theorem setTrust_steady (x : TrustState) (s : State) : Steady s { s with trust := x } := .of_eq rfl rfl rfl rfl rfl rfl rfl rfl

theorem setCall_steady (c : CallState) (s : State) : Steady s { s with call := c } := .of_eq rfl rfl rfl rfl rfl rfl rfl rfl

theorem abandonTransition_steady (s : State) : Steady s (abandonTransition s) := by
  unfold abandonTransition
  exact .after (setPower_steady ..) (.after (setFlag_steady ..) (setFlag_steady ..))

theorem abortSession_steady (s : State) : Steady s (abortSession s) := by
  unfold abortSession
  exact .after (setTrust_steady ..) (setFlag_steady ..)

theorem dramLost_steady (s : State) : Steady s (dramLost s) := noDram_steady ..

theorem darkEnd_steady (c : CueState) (x : CallState) (p : PowerState) (s : State) :
    Steady s { s with cue := c, call := x, power := p } := .of_eq rfl rfl rfl rfl rfl rfl rfl rfl

theorem darkHeld_steady (cause : DarkCause) (s : State) : Steady s (darkHeld cause s) := by
  unfold darkHeld
  exact .after (darkEnd_steady ..) <| .after (setFld_steady ..) <| .after (dramLost_steady _) <|
    .after (dropRails_steady _) <| .after (domainsOff_steady ..) <| .after (abortSession_steady _) (abandonTransition_steady s)

theorem stopCoders_steady (s : State) : Steady s (stopCoders s) := by
  unfold stopCoders
  exact .after (stopHeve_steady 1 _) <| .after (stopHeve_steady 0 _) (.of_eq rfl rfl rfl rfl rfl rfl rfl rfl)

theorem safeStateEnter_steady (s : State) : Steady s (safeStateEnter s) := by
  unfold safeStateEnter
  exact .after (setCall_steady ..) <| .after (stopCoders_steady _) <| .after (abandonTransition_steady _) <|
    .after (addFld_steady ..) <| .after (setFlag_steady ..) (setFlag_steady ..)

/-! ### Events and bus answers -/

theorem enqueue_steady (e : Event) (s : State) : Steady s (enqueue e s) := by
  unfold enqueue
  exact .after (setCall_steady ..) (creditIssue_steady ..)

theorem dropEvent_steady (s : State) : Steady s (dropEvent s) := by
  unfold dropEvent
  exact .after (setCall_steady ..) (addFld_steady ..)

theorem recordEvent_steady (e : Event) (s : State) : Steady s (recordEvent e s) := by
  unfold recordEvent
  split
  · exact setCall_steady ..
  · exact .ite (enqueue_steady ..) (dropEvent_steady s)

theorem latchFatal_steady (e : Event) (s : State) : Steady s (latchFatal e s) :=
  .ite ((setFlag_steady ..).trans (setFld_steady ..)) (.refl s)

theorem fatalEscalate_steady (cause : Nat) (s : State) : Steady s (fatalEscalate cause s) :=
  .ite ((setFlag_steady ..).trans (darkHeld_steady ..))
    ((recordEvent_steady ..).trans ((latchFatal_steady ..).trans (safeStateEnter_steady _)))

theorem fatalReact_steady (seq : Nat) (e : Event) (s : State) : Steady s (fatalReact seq e s) := by
  unfold fatalReact
  exact .ite (.refl s) (.ite (setCall_steady ..) (.ite (setCall_steady ..) (fatalEscalate_steady ..)))

/-- Whatever an event starts, it keeps the queue of commands, device time and canonical memories. -/
theorem postEvent_steady (e : Event) (s : State) : Steady s (postEvent e s) :=
  have h := (recordEvent_steady e s).trans (latchFatal_steady e _)
  .ite (h.trans (fatalReact_steady ..)) h

theorem postFlag_steady (f : Fld) (n : Nat) (cls : EventClass) (block inst detail : Nat) (s : State) :
    Steady s (postFlag f n cls block inst detail s) := (orBit_steady ..).trans (postEvent_steady ..)
theorem postKind_steady (kind block inst detail : Nat) (s : State) : Steady s (postKind kind block inst detail s) :=
  postEvent_steady ..
theorem postRefused_steady (block off : Nat) (s : State) : Steady s (postRefused block off s) := postKind_steady ..
theorem postActsAs_steady (block inst off : Nat) (s : State) : Steady s (postActsAs block inst off s) := postKind_steady ..
theorem postOther_steady (cls : EventClass) (block inst off : Nat) (s : State) :
    Steady s (postOther cls block inst off s) := postEvent_steady ..

/-! ### Blocks of the DRAM -/

theorem dramFlag_steady (f : Fld) (cls : EventClass) (inst detail : Nat) (s : State) : Steady s (dramFlag f cls inst detail s) :=
  postFlag_steady ..
theorem dramCount_steady (kind ch : Nat) (s : State) : Steady s (dramCount kind ch s) := .of_eq rfl rfl rfl rfl rfl rfl rfl rfl
theorem dramAccess_steady (a n : Nat) (s : State) : Steady s (dramAccess a n s) := .of_eq rfl rfl rfl rfl rfl rfl rfl rfl
theorem dramCheck_steady (block : Nat) (s : State) : Steady s (dramCheck block s) := by
  refine .ite (.refl s) ?_
  split
  · exact .refl s
  · exact .after (dramCount_steady ..) (setFlag_steady ..)
  · exact .after (dramFlag_steady ..) (.after (dramCount_steady ..) (.after (setFld_steady ..) (setFld_steady ..)))
theorem dramSeen_steady (a n : Nat) (s : State) : Steady s (dramSeen a n s) :=
  .after (.foldl (fun s b => dramCheck b s) (fun s b => dramCheck_steady b s) _ _) (dramAccess_steady ..)
theorem poisonWarn_steady (block inst a n : Nat) (s : State) : Steady s (poisonWarn block inst a n s) :=
  .ite (.after (postEvent_steady ..) (dramSeen_steady ..)) (.refl s)

theorem writeTagged_steady (s : State) (poison : Bool) (a : Nat) (bs : List Byte) : Steady s (s.writeTagged poison a bs) := by
  have h : Steady s ((partBlocks a bs.length).foldl (fun s b => dramCheck b s) (dramAccess a bs.length s)) :=
    .after (.foldl (fun s b => dramCheck b s) (fun s b => dramCheck_steady b s) _ _) (dramAccess_steady ..)
  refine ⟨h.pending, h.time, h.next, fun w => ?_⟩
  have k := h.wf w
  refine ⟨k.1, k.2.1, k.2.2.1, ?_, k.2.2.2.2⟩
  show sparseWf 0 (if _ then _ else _) = true
  split
  · exact writeList_wf w.2.2.2.1 a bs
  · exact foldl_write_wf _ _ _ _ w.2.2.2.1

theorem writeDram_steady (s : State) (a : Nat) (bs : List Byte) : Steady s (s.writeDram a bs) := writeTagged_steady s false a bs

theorem storePoison_steady (blocks : List Nat) (s : State) : Steady s (storePoison blocks s) := .of_eq rfl rfl rfl rfl rfl rfl rfl rfl
theorem writePoisoned_steady (s : State) (a : Nat) (bs : List Byte) : Steady s (s.writePoisoned a bs) :=
  (writeTagged_steady s true a bs).trans (storePoison_steady ..)

theorem writeMem_steady (s : State) (a : Nat) (bs : List Byte) : Steady s (s.writeMem a bs) :=
  .ite (.refl s) (.ite (writeScratch_steady ..) (writeDram_steady ..))

theorem busOk_steady (w : Word) (s : State) : Steady s (busOk w s) := .of_eq rfl rfl rfl rfl rfl rfl rfl rfl
theorem busError_steady (s : State) : Steady s (busError s) := .of_eq rfl rfl rfl rfl rfl rfl rfl rfl
theorem refuseAccess_steady (side : Side) (addr : Nat) (s : State) : Steady s (refuseAccess side addr s) :=
  (busError_steady s).trans (postEvent_steady ..)

/-! ### What an event below fatal can do -/

theorem enqueue_frame (e : Event) (s : State) : ∃ c l, enqueue e s = { s with call := c, ledger := l } := ⟨_, _, rfl⟩

theorem dropEvent_frame (s : State) :
    ∃ r c, dropEvent s = { s with regs := r, call := c } ∧ ∀ a, a ≠ CALL_OVERFLOW.COUNT.addr → readAt 0 r a = s.word a :=
  ⟨_, _, rfl, fun _ ha => readAt_writeAt_ne _ _ ha⟩

theorem recordEvent_frame (e : Event) (s : State) :
    ∃ r c l, recordEvent e s = { s with regs := r, call := c, ledger := l } ∧
      ∀ a, a ≠ CALL_OVERFLOW.COUNT.addr → readAt 0 r a = s.word a := by
  unfold recordEvent
  cases findCoalesce s e with
  | some q => exact ⟨s.regs, _, s.ledger, rfl, fun _ _ => rfl⟩
  | none =>
    obtain ⟨c, l, h⟩ := enqueue_frame e s
    obtain ⟨r, c', h', hr⟩ := dropEvent_frame s
    by_cases hq : s.call.queue.length < (if e.cls = .fatal then 64 else 60)
    · exact ⟨s.regs, c, l, by simp only [hq, if_true]; exact h, fun _ _ => rfl⟩
    · exact ⟨r, c', s.ledger, by simp only [hq, if_false]; exact h', hr⟩

/-- An event below fatal changes the Call board's queue and log, the counts of credit path 10 and the overflow counter, and
nothing else. -/
theorem postEvent_frame {e : Event} (h : e.cls ≠ .fatal) (s : State) :
    ∃ r c l, postEvent e s = { s with regs := r, call := c, ledger := l } ∧
      ∀ a, a ≠ CALL_OVERFLOW.COUNT.addr → readAt 0 r a = s.word a := by
  have : postEvent e s = recordEvent e s := by simp [postEvent, latchFatal, h]
  rw [this]
  exact recordEvent_frame e s

end Sys2Proof.Machine
end

