-- ==== Sys2Proof/WellFormed.lean ====
section
/-! DEFINITION. Which operands a command can carry: the widths and sizes that the spec gives what arrives from outside.
`exec` is total on every operand; this check says which terms of `Instr` stand for something a sender can send. -/

namespace Sys2Proof

/-- A device time in nanoseconds: 48-bit seconds and nanoseconds below 10⁹ (R432). -/
def timeFits (n : Nat) : Bool := decide (n < 2 ^ 48 * 1000000000)

/-- A frame number of 64 bits (R235). -/
def frameFits (n : Nat) : Bool := decide (n < 2 ^ 64)

/-- The payload of a CSI-2 long packet: its word count has 16 bits (R120). -/
def payloadFits (bs : List Byte) : Bool := decide (bs.length < 65536)

/-- A packet cut short delivers fewer bytes than its word count (R121). -/
def cutFits (wc : BitVec 16) (bs : List Byte) : Bool := decide (bs.length < wc.toNat)

/-- Cells named by a parity detection: at most 256 columns by 160 rows (R178, R205). -/
def cellsFit (ids : List Nat) : Bool := ids.all (fun i => decide (i < 40960))

/-- Identity and log values of an NVMe controller: the sizes of the NVMe identify and log fields (R307, R314). -/
def ctrlFits (c : NvmeController) : Bool :=
  c.sn.length == 20 && c.mn.length == 40 && c.nguid.length == 16 && decide (c.blocks < 2 ^ 64) && decide (c.pu < 256) &&
  decide (c.duw < 2 ^ 128) && decide (c.ee < 2 ^ 128)

/-- A magazine of one or two controllers; its media bytes stand in canonical order and none is zero. -/
def magazineFits (m : Magazine) : Bool :=
  decide (1 ≤ m.ctrls.length) && decide (m.ctrls.length ≤ 2) && m.ctrls.all ctrlFits &&
  decide (m.media.Pairwise (fun a b => a.1 < b.1)) && m.media.all (fun e => e.2 != 0)

/-- Log values of a SMART reading (R314). -/
def smartFits (d : SmartData) : Bool := decide (d.pu < 256) && decide (d.duw < 2 ^ 128) && decide (d.ee < 2 ^ 128)

/-- The actual bits of a CTU keep the bound charged for it (R352). -/
def ctusFit (cs : List CtuCost) : Bool := cs.all (fun c => decide (c.actual ≤ 7 * c.ctx + c.bypass + 8))

/-- A coded picture: CHROMA 0 to 3, at least 8 bits and one sample, a CTB size, four window offsets (R361, R365). -/
def auFits : AccessUnit → Bool
  | .unsupported => true
  | .empty => true
  | .picture sps chroma depth width height window _ _ _ _ _ _ _ _ _ _ _ _ =>
    decide (chroma ≤ 3) && decide (8 ≤ depth) && decide (depth ≤ 16) && decide (0 < sps.ctb) && decide (0 < width) &&
        decide (0 < height) && window.length == 4

/-- A heartbeat: the field sizes of R468. -/
def heartbeatFits (h : Heartbeat) : Bool :=
  decide (h.pairId < 65536) && decide (h.role < 2) && decide (h.term < 2 ^ 32) && decide (h.seq < 2 ^ 32) &&
  h.id.length == 16 && decide (h.sec < 2 ^ 48) && decide (h.ns < 2 ^ 32) && decide (h.mode < 256)

/-- The check, command by command; a command whose operands fill their types passes. -/
def Instr.wf : Instr → Bool
  | .frameEnd _ _ _ parity => cellsFit parity
  | .pixelLine _ _ _ bytes _ _ _ parity => payloadFits bytes && cellsFit parity
  | .embeddedData _ _ bytes _ _ => payloadFits bytes
  | .packetCutEot _ _ _ wc payload => cutFits wc payload.bytes
  | .lineIdleTimeout _ _ _ wc payload => cutFits wc payload.bytes
  | .spiTransferDone _ rx => decide (rx.length ≤ 64)
  | .trigAccept _ edge => timeFits edge
  | .trigShortRun run => timeFits run.edge
  | .partnerDispTimeout frame => frameFits frame
  | .coderDetection num _ => frameFits num
  | .hashDetection (.stripe frame _) => frameFits frame
  | .hashDetection (.coded frame) => frameFits frame
  | .hashDetection .job => true
  | .hashRehashComplete num _ => frameFits num
  | .codedDigestComplete num => frameFits num
  | .magPresent _ inserted => inserted.all magazineFits
  | .nvmeCompletion _ _ _ smart => smartFits smart
  | .hevePictureBegin _ c0 c1 => ctusFit c0 && ctusFit c1
  | .heveSliceEmit _ lead _ => decide (lead.merge < 5)
  | .heveMosaicTimeout c0 c1 => ctusFit c0 && ctusFit c1
  | .heveMapTimeout _ c0 c1 => ctusFit c0 && ctusFit c1
  | .hevdAuComplete au => auFits au
  | .hevdBudgetExpire au => auFits au
  | .dramMr4Poll rates => decide (rates.length ≤ 32) && rates.all (fun r => decide (r < 32))
  | .dramOscTrack drift => decide (drift.length ≤ 32)
  | .dramTrnDone records => decide (records.length ≤ 16) && records.all (fun r => decide (r.fails0.length ≤ 512) && decide (r.fails1.length ≤ 512))
  | .netRxFrame _ bytes _ => decide (1 ≤ bytes.length)
  | .ppsInEdge time => timeFits time
  | .keepaliveRx bytes _ => decide (1 ≤ bytes.length)
  | .heartbeatReceive _ _ hb => heartbeatFits hb
  | .helloFlit _ _ hb _ _ => heartbeatFits hb
  | .klinkTimeReceive _ _ own lastDep lastArr => timeFits own && timeFits lastDep && timeFits lastArr
  | .trigFlit _ _ _ time streams => timeFits time && decide (streams.length ≤ 16)
  | .dispFlit _ _ entries => decide (1 ≤ entries.length) && decide (entries.length ≤ 14)
  | .klinkMirrorStart num => frameFits num
  | .frameHdr _ _ num fs _ _ width height _ emb =>
    frameFits num && timeFits fs && decide (width < 65536) && decide (height < 65536) && decide (emb < 256)
  | .raw _ _ bytes => decide (bytes.length ≤ 236)
  | .frameEndFlit _ _ num _ => frameFits num
  | .mirrorAck _ _ entries => decide (1 ≤ entries.length) && decide (entries.length ≤ 23)
  | .mirrorAckTimeout num => frameFits num
  | .motionEdge _ _ _ edge => timeFits edge
  | .motionGlitch run => timeFits run.edge
  | .mgmtWriteTransaction bytes _ => decide (1 ≤ bytes.length)
  | .registerWrite .. | .unmappedAccess .. | .doorbellRing .. | .doorbellClear .. | .mailboxWrite .. | .modeRequest ..
  | .drainEnd | .transitionComplete | .cueLoad .. | .cueLoadComplete | .push .. | .pop | .replace .. | .clear
  | .clearFw | .shadowWrite .. | .cueCommit | .commitArmed | .cueRefTimeout | .dawn | .confirm | .advance
  | .provision .. | .toField | .enterService | .leaveService | .retire | .attest | .checkpoint | .finalManifest
  | .signDone | .presencePress | .presenceWindowExpire | .svcJmpFitted | .svcJmpRemoved | .sealSample ..
  | .journalAppend | .slotProgram | .sectorErase | .nvmRead | .nvmOpComplete | .nvmProgramTimeout ..
  | .slotRewriteStart .. | .frameStart .. | .lineStartEnd .. | .nullBlanking .. | .dtUnsel .. | .orphan ..
  | .eccUncorr .. | .frameTimeout .. | .gangSkewTimeout .. | .laneUlps .. | .ingestCounterClear ..
  | .mclkConfigWrite .. | .sensorResetRelease .. | .xtrigScheduled .. | .xpulse .. | .xtrigPulseEnd ..
  | .spiTransfer .. | .spiScriptEntry .. | .pipeFrameBegin | .sliceGrant | .sliceComplete | .pipeDetection ..
  | .tableRefreshDone | .pipeBufferRelease .. | .pipeCounterClear | .cellRearm | .cellWindowWrite ..
  | .cellCounterClear | .trigRelease .. | .trigStuck .. | .trigOutputPulseEnd ..
  | .softwareTrigger .. | .swtrigDue .. | .rangePlace | .ledgerAudit | .coderFrameBegin | .coderMapTimeout
  | .coderFrameComplete | .rawcDecode .. | .decodeComplete | .rawcCounterClear | .frameLink .. | .hashJob
  | .hashJobComplete | .hashCounterClear | .magTrainingStart .. | .magTrainTimeout .. | .magLinkUp ..
  | .magMountComplete .. | .magRemoval .. | .nvmeCommandTimeout .. | .magSmartPoll .. | .magFrameWriteComplete ..
  | .magTakeClose | .magTakeCloseTimeout | .read .. | .append .. | .erase .. | .mount .. | .eject ..
  | .magOpComplete .. | .heveDetection .. | .heveOutRdWrite .. | .heveCounterClear ..
  | .hevdInWrWrite .. | .hevdOutPop | .hevdOutRel .. | .hevdDisable | .hevdCounterClear | .dramReread ..
  | .dramCodeWriteback .. | .dramRefresh .. | .dramWckStop .. | .dramCommit .. | .dramInitDone | .dramFence ..
  | .init .. | .mrw .. | .mrr .. | .ca .. | .wck2ck .. | .wlev .. | .rdq .. | .wdq .. | .verify .. | .dramCounterClear
  | .laneLock .. | .laneLockLost .. | .laneNoLockTimeout .. | .laneSleepEntry .. | .laneRxSleep .. | .laneWake ..
  | .laneWakeHoldEnd .. | .laneWakeFail .. | .laneLoopWrite .. | .lanePrbsClear .. | .laneFomInterval ..
  | .pcieEqPresetTrial .. | .laneCounterClear | .netTxWrWrite .. | .netTxFrame .. | .netLinkUp .. | .netLinkDown ..
  | .streamDatagram .. | .step | .set | .hold | .release | .timeIncrWrite .. | .timeNowRead | .timeWatchExpire
  | .keepaliveLinkTimeout | .alarmFire | .ppsOutAssert | .ppsOutEnd | .ltcInWord .. | .ltcOutWord | .scheduleTick
  | .keepaliveTx .. | .wakeFrame .. | .heartbeatSend | .heartbeatMissedPeriod | .yield | .retrain | .klinkTimeSend ..
  | .cueselFlit .. | .klinkFlitReceive .. | .klinkNak .. | .klinkAckTimeout .. | .klinkAlignSend ..
  | .klinkTrainStart .. | .klinkTrainTimeout .. | .klinkCounterClear | .ssiFrameStart ..
  | .ssiFrameComplete .. | .motionPreset .. | .motionStall .. | .motionStandstill .. | .motionGateEnd .. | .arm ..
  | .disarm .. | .viewStartStep | .viewScriptEntry | .viewTeEdge | .viewPushComplete | .viewTeTimeout | .viewApply
  | .viewLineTimedWrite .. | .viewDirtyWhWrite .. | .viewCmd .. | .viewPoolAlloc | .viewPoolFree ..
  | .mgmtReadTransaction .. | .mgmtTimeout .. | .wake .. | .cuesel .. | .trig .. | .msg .. | .callAck ..
  | .alertResponse .. | .aonSupplyValid .. | .aonSupplyLost | .resetRelease | .warmRstAssert | .warmRstRelease
  | .railPgTimeout .. | .railLost .. | .supplyLoss .. | .supplyRestored | .refclkWindow .. | .pllUnlock ..
  | .pllRelockTimeout .. | .thermalSample .. | .curtainNvmCutoff .. | .curtainCoolComplete | .callPostWrite ..
  | .callLogWrite | .callLogEntryRead .. | .callDoneWrite .. | .smParity | .fatalHandlingTimeout
  | .safeStatePortsClosed | .callRestart .. | .companyRestartRelease | .coKick | .companyRestartTimeout
  | .companyWatchdogExpire | .smKick .. | .smWatchdogExpire | .trigWakeEdge .. | .presenceRelease | .signalDetect ..
  | .pllRelock .. | .pllFailureRestart | .klinkDeskewLost .. | .controllerFatalStatus .. | .warmResetCommand
  | .rail0PgRestored | .lowWordRead .. => true

end Sys2Proof
end

