-- ==== Sys2Proof/Tests/Slice0.lean ====
section
/-! SUPPORT. Tests: ill-formed commands that the well-formedness check refuses, worked examples of the spec, and for each
statement with hypotheses a theorem `test_witness_…` that shows, clause by clause, a state and operands that meet them. -/

namespace Sys2Proof.Tests
set_option Elab.async false
open Sys2Proof Sys2Proof.Machine

/-! ### Small states -/

def blank : State := { State.reset with regs := [] }
def setAll (s : State) (l : List (Fld × Nat)) : State := l.foldl (fun s p => s.setFld p.1 p.2) s
def entry0 : CallEntry :=
  { seq := 0, code := 0x401, cls := .warning, nested := false, critical := false, safe := false, done := false, inst := 0,
    firstSec := 0, firstNs := 0, count := 1, lastNs := 0, lastSec := 0, detail := 0, terminal := false }
def mk (l : List (Fld × Nat)) : State := setAll blank l
def cueX (kind mode : Nat) : Cue := { slot := 5, kind := kind, mode := mode, flags := 0, domainMask := 0, name := [], entries := [] }
def imgX : CommitImage := { enters := none, passed := false, regs := [], tables := [], tableSrc := [], lines := [], stack := stackInit }
def cueBytes : List Byte :=
  [0x45, 0x43, 0x55, 0x45, 48, 0, 0xFF, 0, 32, 0, 0, 0] ++ List.replicate 16 0 ++ [0x04, 0x4E, 0x5D, 0xFA]
def withBytes (bs : List Byte) : Sparse 9 := writeList 0 [] 0 (bs.map writtenCell)
def xferX (src dst : Nat) (draining : Bool) : Transition := { src := src, dst := dst, start := 0, draining := draining, mask := 0, held := false }
def wakeX (sec : Byte) : List Byte := [0x45, 0x57, 0x41, 0x4B] ++ List.replicate 16 0xFF ++ [0xFF, 0xFF, 6, sec] ++ List.replicate 9 0
def rewriteX : RewriteSession := { slot := 0, erased := List.replicate 6144 0, programmed := false, header := false }
def railX : RailRec := { rail := 3, pgUsed := true, onDelay := 0, pgTimeout := 1, offDelay := 0, follow := 2 ^ 29 }
def riseX : RailRise := { since := 0, old := 1, off := 0, delay := 0, ports := false }
def runX : RunningImage := { fwVersion := 1, cfgVersion := 1, seq := 0, fwDigest := [], cfgDigest := [] }
def siteX (a : BitVec 16) : SiteSample := { a := some a, b := some a }
def sdX : StreamDesc := { en := true, seqchk := false, vc := 1, dt := 0x2B, cfa := 0, embMax := 2, width := 8, height := 16 }
def memX (p : Nat) (started late : Bool) : Member := { port := p, started := started, late := late, ended := false, lines := [] }
def openX (ms : List Member) : OpenFrame :=
  { num := 7, port := 0, desc := 1, d := sdX, fill := 0, interleave := false, members := ms, emb := [], since := 0,
    timeoutMs := 1, skewUs := 1 }
def ingX (opens : List OpenFrame) : List IngestPort := { ingestInit with opens := opens } :: List.replicate 3 ingestInit
def ON : List (Fld × Nat) := [(POWER_STATUS.ON, 0x3FFFFFFF)]
def ingS (opens : List OpenFrame) : State := { mk (ON ++ [(INGEST_CTRL.EN 0, 1)]) with ingest := ingX opens }
def spiS (m : State) (k : SpiCtl) : State := { m with ingest := { ingestInit with spi := k } :: List.replicate 3 ingestInit }
def srcX : PipeSrc := { num := 7, port := 0, vc := 1, fs := 0, d := sdX, addr := 0, live := true }
def jobX (h slice : Nat) (granted replaying : Bool) : PipeJob :=
  { src := { srcX with d := { sdX with height := h } }, regs := [], tables := [], swaps := [], epoch := 0, slice := slice, granted := granted, replaying := replaying,
    spent := 0, damaged := [], recomputed := false, filled := false, ended := false, due := false, lines := [0, 0], head0 := none, head1 := none }
def pipeS (m : State) (x : PipePort) : State := { m with pipe := { pipeInit with ports := x :: List.replicate 3 pipePortInit } }
def frX : Frame :=
  { num := 7, port := 0, desc := 0, vc := 0, seq := 0, fs := 0, disp := 0, reason := 0, epoch := 0, pos := [0, 0, 0, 0], flags := 0,
    counts := List.replicate 15 0, digestRef := 0, slot := none, d := sdX, emb := [], rows := 0, closed := false, spilled := false,
    hashed := false, linked := false, handed := false, await := [], written := [], partner := none, finalAt := none, stripes := [],
    since := 0, rehash := [], redone := [], codedSel := 0, rehashed := false, failMask := 0, coded := [], origin := none, cut := false, offFinal := false }
def ledS (m : State) (l : LedgerState) : State := { m with ledger := l }
def tabS (m : State) (b n : Nat) (t : Sparse 8) : State := { m with cue := { m.cue with tables := [((b, n), t)] } }
def memS (m : State) : State := { m with mem := { dramInit with committed := true } }
def rawS (m : State) (fs : List Frame) (js : List CodeJob) : State :=
  { m with ledger := { ledgerInit with frames := fs }, rawc := { rawcInit with jobs := js } }
def cfX : Frame := { frX with disp := 7, closed := true, await := [0] }
def cjX : CodeJob :=
  { num := 7, entry := [], epoch := 0, map := [], missing := false, doubled := false, cw := 8, ch := 8, budget := 1, marks := [],
    noIndex := false, target := none }
def recX : MagRecord :=
  { type := 1, key := 0, payload := [], frame := some 7, src := 0, lba := 0, at_ := 0, blocks := 1, placed := true, done := false }
def takeX : Take :=
  { slot := 0, id := [], flags := 0, sec := 0, ns := 0, first := none, last := 0, frames := 0, blocks := 0, seq := 0, extents := [],
    cur := 0, stop := 0, puOpen := 0, duwOpen := 0, manifest := 0, indexAt := 0, index := [], bytes := 0, closing := false }
def ctrlX : NvmeController :=
  { sn := [], mn := [], nguid := [], blocks := 2 ^ 20, formatOk := true, mdts := 131072, vwc := false, eg := false, l0s := false, pu := 0, duw := 0,
    ee := 0, crit := 0 }
def driveX : Magazine := { ctrls := [ctrlX], media := [] }
def smartX : SmartData := { pu := 0, duw := 0, ee := 0, crit := 0 }
def sbX : Superblock :=
  { gen := 1, volumeId := [], creator := [], sec := 0, ns := 0, total := 65536, auCount := 0, nextAu := 0, takes := 0, badAus := 0,
    sn := [], mn := [], nguid := [], copy := 0 }
def magS (m : State) (p : MagPort) : State := { m with mag := { magInit with ports := [p, p] } }
def headX (w h : Nat) : List Byte :=
  [0x80, 2, 8, 0] ++ List.replicate 8 0 ++ leBytes 2 w ++ leBytes 2 h ++ List.replicate 48 0
def outX (w h : Nat) : HeadOut := { head := 0, port := 0, buf := 0, num := 7, skipped := false, addr := 0, src := 0, desc := headX w h }
def heveCfg (e tiles : Nat) : List (Fld × Nat) :=
  [(HEVE_CTRL.EN e, 1), (HEVE_CTRL.LEVEL_IDC e, 183), (HEVE_CTRL.PROFILE e, 1), (HEVE_STRUCT.TILE_COLS e, tiles),
   (HEVE_RATE.KBPS e, 100000), (HEVE_CPB.KBIT e, 100000), (HEVE_CPB_INIT.DELAY_90K e, 90000), (HEVE_TIME_SCALE.SCALE e, 90000),
   (HEVE_TICK.TICK e, 3600), (HEVE_OUT_SIZE.LOG2 e, 31), (HEVE_REF_SIZE.MIB e, 4095)]
def heveS (m : State) (a b : HeveEng) : State := { m with heve := [a, b] }
def picX (hits : Nat) (sl : List SlicePlan) : HevePic :=
  { left := none, right := none, cfg := List.replicate 17 0, gang := 0, height := 64, idr := true, newSeq := true, endSeq := false,
    poc := 0, epoch := 0, fill := 0, slices := sl, index := 0, bits := 0, floored := 0, mapMissing := false, hits := hits, offsets := [],
    head := [], wr := 0, refs := [], since := 0, plan := [], normal := [], coded := [] }
def slX : SlicePlan := { ctus := 1, engine := 0, lastRow := 0, x := 0, y := 0, cols := 1, first := 0 }
def spsX : SpsInfo := { profile := 1, level := 183, rate := 1000, ctb := 16, rext := [] }
def openS : SliceOpen := { saoLuma := false, saoChroma := false, merge := 0, qpDelta := 0, entry := [] }
def laneS (m : State) (x : Lane) : State := { m with serial := { serialInit with lanes := List.replicate 26 x } }
def entryBytes (addr len : Nat) : List Byte := leBytes 8 addr ++ leBytes 2 len ++ List.replicate 22 0
def etherX (t0 t1 : Byte) : List Byte := List.replicate 6 0xFF ++ List.replicate 6 0 ++ [t0, t1]
def streamX : NetStream := { streamInit with ok := true, cfg := [0, 0, 0, 1] ++ List.replicate 124 0 }
def netS (m : State) (x : NetStream) : State := { m with net := { netInit with streams := [x, streamInit, streamInit, streamInit] } }
def hbX (role : Nat) (leaving : Bool) : Heartbeat :=
  { pairId := 0, role := role, armed := false, leaving := leaving, formed := true, term := 1, seq := 0, id := [], sec := 0, ns := 0, mode := 0 }
def flX (seq : BitVec 32) : FlitHeader := { crcOk := true, rxmask := 15, nak := false, credit := 0, seq := seq, ack := 0 }
def kS (m : State) (p : KPort) : State := { m with klink := { klinkInit with ports := [p, p], started := true } }
def rxX : MirrorRx := { num := 9, frame := 7, port := 0, desc := 1, emb := 0, bytes := [] }
def motS (m : State) (r : MotionRec) (x : MotionChan) : State :=
  { m with motion := { motionInit with recs := List.replicate 4 r, chans := List.replicate 4 { x with on := true } } }
def viewS (m : State) (v : ViewState) : State := { m with view := v }
def poolS (m : State) (h : PoolHandle) : State := { m with pool := { poolInit with handles := [h] } }

/-! ### Ill-formed commands, one for each check of `Instr.wf` -/

def nvmeX : NvmeController :=
  ⟨List.replicate 20 0x41, List.replicate 40 0x41, List.replicate 16 1, 1000, true, 5, true, false, true, 0, 0, 0, 0⟩
def beatX : Heartbeat := ⟨1, 0, true, false, false, 1, 1, List.replicate 16 7, 0, 0, 2⟩
def hdrX : FlitHeader := ⟨true, 0xF, false, 0, 0, 0⟩

theorem test_wf_refuses_ill_formed_frames :
    (Instr.frameEnd 0 0 false [40960]).wf = false ∧
    (Instr.pixelLine 0 0 0x2C [] 0 false true [40960]).wf = false ∧
    (Instr.pixelLine 0 0 0x2C (List.replicate 65536 0) 0 false true []).wf = false ∧
    (Instr.embeddedData 0 0 (List.replicate 65536 0) 0 false).wf = false ∧
    (Instr.packetCutEot 0 0 0x2C 2 ⟨[1, 2], false, true⟩).wf = false ∧
    (Instr.lineIdleTimeout 0 0 0x2C 2 ⟨[1, 2], false, true⟩).wf = false ∧
    (Instr.spiTransferDone 0 (List.replicate 65 0)).wf = false ∧
    (Instr.partnerDispTimeout (2 ^ 64)).wf = false ∧
    (Instr.coderDetection (2 ^ 64) .index).wf = false ∧
    (Instr.hashDetection (.stripe (2 ^ 64) 0)).wf = false ∧
    (Instr.hashDetection (.coded (2 ^ 64))).wf = false ∧
    (Instr.hashRehashComplete (2 ^ 64) 0).wf = false ∧
    (Instr.codedDigestComplete (2 ^ 64)).wf = false := by
  simp only [Instr.wf, payloadFits, cellsFit, cutFits, frameFits, List.length_replicate]
  decide

theorem test_wf_refuses_ill_formed_stores :
    (Instr.magPresent 0 (some ⟨[], []⟩)).wf = false ∧
    (Instr.magPresent 0 (some ⟨[nvmeX, nvmeX, nvmeX], []⟩)).wf = false ∧
    (Instr.magPresent 0 (some ⟨[{ nvmeX with sn := [] }], []⟩)).wf = false ∧
    (Instr.magPresent 0 (some ⟨[{ nvmeX with pu := 256 }], []⟩)).wf = false ∧
    (Instr.magPresent 0 (some ⟨[nvmeX], [(2, 1), (1, 1)]⟩)).wf = false ∧
    (Instr.magPresent 0 (some ⟨[nvmeX], [(1, 0)]⟩)).wf = false ∧
    (Instr.magPresent 0 (some ⟨[nvmeX], [(1, 1), (2, 1)]⟩)).wf = true ∧
    (Instr.nvmeCompletion 0 0 .success ⟨256, 0, 0, 0⟩).wf = false ∧
    (Instr.dramMr4Poll [32]).wf = false ∧
    (Instr.dramMr4Poll (List.replicate 33 0)).wf = false ∧
    (Instr.dramOscTrack (List.replicate 33 0)).wf = false ∧
    (Instr.dramTrnDone (List.replicate 17 ⟨[], [], 0, 0⟩)).wf = false := by decide +kernel

theorem test_wf_refuses_ill_formed_video :
    (Instr.hevePictureBegin 0 [⟨1, 2, 18, 0, 0, 1⟩] []).wf = false ∧
    (Instr.hevePictureBegin 0 [] [⟨1, 2, 18, 0, 0, 1⟩]).wf = false ∧
    (Instr.heveMosaicTimeout [] [⟨1, 2, 18, 0, 0, 1⟩]).wf = false ∧
    (Instr.heveMapTimeout 0 [⟨1, 2, 18, 0, 0, 1⟩] []).wf = false ∧
    (Instr.heveMapTimeout 0 [⟨1, 2, 17, 0, 0, 1⟩] []).wf = true ∧
    (Instr.heveSliceEmit 0 ⟨true, true, 5, 0, []⟩ []).wf = false ∧
    (Instr.hevdAuComplete (.picture ⟨1, 183, 0, 16, []⟩ 1 7 8 8 [0, 0, 0, 0] 0 [] [] none [] true false true 0 0 1 [])).wf = false ∧
    (Instr.hevdAuComplete (.picture ⟨1, 183, 0, 16, []⟩ 1 8 0 8 [0, 0, 0, 0] 0 [] [] none [] true false true 0 0 1 [])).wf = false ∧
    (Instr.hevdBudgetExpire (.picture ⟨1, 183, 0, 0, []⟩ 1 8 8 8 [0, 0, 0, 0] 0 [] [] none [] true false true 0 0 1 [])).wf = false ∧
    (Instr.hevdBudgetExpire (.picture ⟨1, 183, 0, 16, []⟩ 1 8 8 8 [0] 0 [] [] none [] true false true 0 0 1 [])).wf = false ∧
    (Instr.hevdBudgetExpire (.picture ⟨1, 183, 0, 16, []⟩ 1 8 8 8 [0, 0, 0, 0] 0 [] [] none [] true false true 0 0 1 [])).wf = true := by
  decide +kernel

theorem test_wf_refuses_ill_formed_links :
    (Instr.trigAccept 0 (2 ^ 48 * 1000000000)).wf = false ∧
    (Instr.trigAccept 0 (2 ^ 48 * 1000000000 - 1)).wf = true ∧
    (Instr.trigShortRun ⟨0, 2 ^ 48 * 1000000000⟩).wf = false ∧
    (Instr.motionEdge 0 0 0 (2 ^ 48 * 1000000000)).wf = false ∧
    (Instr.ppsInEdge (2 ^ 48 * 1000000000)).wf = false ∧
    (Instr.netRxFrame 0 [] true).wf = false ∧
    (Instr.keepaliveRx [] true).wf = false ∧
    (Instr.heartbeatReceive none hdrX { beatX with role := 2 }).wf = false ∧
    (Instr.helloFlit 0 hdrX { beatX with id := [] } 0 false).wf = false ∧
    (Instr.helloFlit 0 hdrX beatX 0 false).wf = true ∧
    (Instr.klinkTimeReceive 0 hdrX (2 ^ 48 * 1000000000) 0 0).wf = false ∧
    (Instr.trigFlit 0 hdrX 0 0 (List.replicate 17 (0, 0))).wf = false ∧
    (Instr.dispFlit 0 hdrX []).wf = false ∧
    (Instr.klinkMirrorStart (2 ^ 64)).wf = false ∧
    (Instr.frameHdr 0 hdrX 0 0 0 0x2C 65536 1 0 0).wf = false ∧
    (Instr.raw 0 hdrX (List.replicate 237 0)).wf = false ∧
    (Instr.frameEndFlit 0 hdrX (2 ^ 64) false).wf = false ∧
    (Instr.mirrorAck 0 hdrX []).wf = false ∧
    (Instr.mirrorAckTimeout (2 ^ 64)).wf = false ∧
    (Instr.mgmtWriteTransaction [] []).wf = false := by decide +kernel

/-! ### Worked examples and published check values -/

/-- The worked example of 08_ranorid_raw.md: cell 8,320, coded losslessly. -/
theorem test_coded_cell_example :
    (encodeCell 12 0 [[(List.range 16).map (fun i => 2050 + 2 * i), (List.range 16).map (fun i => 2054 + 2 * i)]]).map
      (·.toNat) = [0xA5, 0x33, 0x33, 0x33, 0x33, 0x33, 0x33, 0x33, 0x11, 0x4A, 0x66, 0x66, 0x66, 0x66, 0x66, 0x66, 0x60,
      0, 0, 0, 0, 0, 0, 0] := by decide +kernel

/-- The same example at e = 2: m and p of the first samples. -/
theorem test_near_lossless_example :
    [(2050, 2048), (2052, 2048), (2054, 2053), (2056, 2053), (2058, 2058)].map
      (fun q => (codeOf q.1 q.2 2, reconstruct 12 q.2 (codeOf q.1 q.2 2) 2)) =
      [(0, 2048), (2, 2053), (0, 2053), (2, 2058), (0, 2058)] := by decide +kernel

def exampleStream : StreamDesc :=
  { en := true, seqchk := false, vc := 0, dt := 0x2C, cfa := 0, embMax := 0, width := 10, height := 10 }

/-- The colour matrix of the worked example of 05_pixel_pipeline.md, and the points of its tone curves. -/
def exampleJob : PipeJob :=
  { src := { num := 1, port := 0, vc := 0, fs := 0, d := exampleStream, addr := 0, live := true }, regs := [],
    tables := [[], [], [], writeList 0 [] 0 (([0x06000, 0x3E800, 0x3F800, 0x3F000, 0x05800, 0x3F800, 0x00400, 0x3E000,
        0x05C00].map (leBytes 4)).flatten), [],
      writeList 0 (writeList 0 (writeList 0 [] 5140 (leBytes 2 52000 ++ leBytes 2 52016)) 12704
        (leBytes 2 49600 ++ leBytes 2 49620)) 17968 (leBytes 2 31000 ++ leBytes 2 31040)],
    swaps := [], epoch := 0, slice := 0, granted := true, replaying := false, spent := 0, damaged := [], recomputed := false,
    filled := false, ended := false, due := false, lines := [], head0 := none, head1 := none }

/-- Stage 6 of the worked example of 05_pixel_pipeline.md. -/
theorem test_matrix_example : stage6 exampleJob (604000, 558000, 309000) = (658125, 577625, 202938) := by decide +kernel

/-- Stage 8 of the same example. -/
theorem test_tone_example :
    (toneCurve exampleJob 0 658125, toneCurve exampleJob 1 577625, toneCurve exampleJob 2 202938) =
      (52013, 49607, 31029) := by decide +kernel

/-- Stage 9 of the same example: Y16, Cb16 and Cr16 at 10 bits, narrow range, BT.709. -/
theorem test_proxy_example :
    [0, 1, 2].map (fun c => headCode 0 { parseHead (List.replicate 64 0) with depth := 10, format := 1 } c
      (52013, 49607, 31029)) = [11456, 6100, 8641] := by decide +kernel

/-- The IDR reserve of the worked example of 11_video_coding.md: 17 slices, 2,176 CTUs. -/
theorem test_idr_reserve_example : idrReserve 17 2176 = 364160 := by decide

/-- The light-field wall of 14_network_time.md: head 37, k = 1. -/
theorem test_schedule_example :
    gridTime (mk [(TIME_SCHED_ANCHOR.SEC, 1712), (TIME_SCHED_NUM.NS, 1001000000), (TIME_SCHED_CTRL.DEN, 24),
      (TIME_SCHED_STAGGER.NS, 651692), (TIME_ARRAY.INDEX, 37)]) 1 = 1712065820937 := by decide +kernel

/-- The worked example of 04_sensor_ingest.md: a Frame Start seen at 2,050:100,000,184 opened at 2,050:100,000,000. -/
theorem test_frame_start_example :
    correctedTime { mk [(INGEST_RATE.MBPS 1, 6000), (INGEST_LAT.NS 1, 150)] with
      time := { sec := 2050, ns := 100000184, frac := 0 } } 1 = 2050100000000 := by decide +kernel

/-- The worked example of 10_magazines.md: the rated figure leaves 153,600,000,000 bytes. -/
theorem test_endurance_example :
    ctrlRemaining blank true 1600000000000000 ⟨[], [], [], 0, true, 0, true, false, false, 99, 3124700000, 0, 0⟩ = 153600000000 := by
  decide +kernel

/-- The configuration of the worked example of 12_dram.md: four ports of 8 lanes at 9,000 Mb/s, EXTRA 250, PCT 60. -/
def exampleCue : State :=
  mk ([0, 1, 2, 3].flatMap (fun p => [(INGEST_CTRL.EN p, 1), (INGEST_CTRL.LANES p, 7), (INGEST_RATE.MBPS p, 9000)]) ++
    [(DRAM_ADMIT.EXTRA, 250), (DRAM_ADMIT.PCT, 60)])

/-- That example: 204,800 MB/s admit Wings; 153,600 MB/s refuse it, and `DRAM_DEMAND` reads 103,062. -/
theorem test_admission_example :
    (admission exampleCue.fld 4 0xFFFFFFFF (blank.setFld DRAM_PEAK.MBS 204800)).1 = true ∧
    (admission exampleCue.fld 4 0xFFFFFFFF (blank.setFld DRAM_PEAK.MBS 153600)).1 = false ∧
    (admission exampleCue.fld 4 0xFFFFFFFF (blank.setFld DRAM_PEAK.MBS 153600)).2.fld DRAM_DEMAND.MBS = 103062 := by
  decide +kernel

/-- The CRC-32 of the digits 1 to 9 and their CRC-32C, from the catalogues of both codes. -/
theorem test_crc_check_values :
    crc32 (ascii "123456789") = 0xCBF43926 ∧ crc32c (ascii "123456789") = 0xE3069283 := by decide +kernel

/-- The first bytes of SHA3-512 of the three letters abc (FIPS 202). -/
theorem test_sha3_check_value : (sha3_512 (ascii "abc")).take 4 = [0xB7, 0x51, 0x85, 0x0B] := by decide +kernel

/-- The first bytes of SHAKE128 and SHAKE256 of the empty string (FIPS 202), which ML-DSA-87 hashes with. -/
theorem test_shake_check_values :
    shake128 [] 4 = [0x7F, 0x9C, 0x2B, 0xA4] ∧ shake256 [] 4 = [0x46, 0xB9, 0xDD, 0x2B] := by decide +kernel

/-! ### What the hypotheses of the statements allow -/

theorem test_witness_StepKeepsInvariant : ∃ (s t : State), s.Inv ∧ step s = .next t :=
  ⟨{ blank with pending := [.doorbellRing .stageManager 5], regs := [(4, 1)] }, _,
    ⟨⟨by decide, by decide, by decide, by decide, by decide⟩, by decide, fun _ h => nomatch h⟩, rfl⟩

theorem test_witness_StepRunsFrontCommand :
    (∃ (c : Instr) (rest : List Instr) (s : State), s.pending = c :: rest) :=
  ⟨.coKick, [.clear], { blank with pending := [.coKick, .clear] }, by decide +kernel⟩

theorem test_witness_IdleStepIsOneTick :
    (∃ (s : State), s.pending = [] ∧ s.clock.next = [] ∧ s.flag TIME_STATUS.RC_CLK = false ∧ panicIdle s = true) ∧
    (∃ (s : State), s.pending = []) :=
  ⟨⟨{ blank with time := { sec := 0xFFFFFFFFFFFF, ns := 999999999, frac := 5 } }, by decide +kernel⟩,
   ⟨blank, by decide +kernel⟩⟩

theorem test_witness_StepAndSetActAtTheTick :
    (∃ (s : State), recording s = false) ∧
    (∃ (s : State), recording s = false ∧ s.fld TIME_SET_NS.VALUE ≤ 999999999) ∧
    (∃ (s : State) (d : Int) (g : Nat), s.pending = [] ∧ s.clock.next = [.step d] ∧ panicIdle s = true ∧ g = (if s.flag
      TIME_STATUS.RC_CLK then (if s.ticks % 8 = 7 then 8 * s.clock.incr else 0) else s.clock.incr) ∧ 0 ≤ (s.time.units : Int) +
      d * 2 ^ 40 ∧ (s.time.units : Int) + d * 2 ^ 40 + g < 2 ^ 48 * 1000000000 * 2 ^ 40) ∧
    (∃ (s : State) (sec : Nat) (ns : Nat) (g : Nat), s.pending = [] ∧ s.clock.next = [.set sec ns] ∧ panicIdle s = true ∧ g =
      (if s.flag TIME_STATUS.RC_CLK then (if s.ticks % 8 = 7 then 8 * s.clock.incr else 0) else s.clock.incr) ∧ s.clock.incr <
      2 ^ 42 ∧ sec < 2 ^ 48 - 1 ∧ ns < 1000000000) ∧
    (∃ (s : State) (c : Instr), (c = .step ∧ recording s = true) ∨ (c = .set ∧ (recording s = true ∨ 999999999 < s.fld
      TIME_SET_NS.VALUE))) :=
  ⟨⟨mk [(CUE_STATUS.MODE, 2)], by decide +kernel⟩,
   ⟨mk [(CUE_STATUS.MODE, 2), (TIME_SET_NS.VALUE, 999999999)], by decide +kernel⟩,
   ⟨{ blank with clock := { timeInit with next := [.step (-5)] }, time := { sec := 0, ns := 5, frac := 0 } }, -5,
     timeInit.incr, by decide +kernel⟩,
   ⟨{ blank with clock := { timeInit with next := [.set (2 ^ 48 - 2) 999999999] } }, 2 ^ 48 - 2, 999999999, timeInit.incr,
     by decide +kernel⟩,
   ⟨mk [(CUE_STATUS.MODE, 4)], .step, by decide +kernel⟩⟩

theorem test_witness_ResetGivesResetValues :
    (∃ (off : Nat) (r : RegDef), off % 4 = 0 ∧ findReg off = some r) :=
  ⟨0x40030, ((findReg 0x40030).getD ⟨0, 0, 0, []⟩), rfl, rfl⟩

theorem test_witness_RegisterWriteFollowsAccessCodes :
    (∃ (s : State) (side : Side) (addr : BitVec 40) (v : Word) (off : Nat) (r : RegDef), busTarget s side addr.toNat 4 = .reg
      off ∧ off % 4 = 0 ∧ clockStopped s off = false ∧ regAt off = some r ∧ wrongPlane side off = false ∧ regOff s off = false
      ∧ (∀ u, regCommand side off v u = none) ∧ off ∉ eventRegs ++ [MGMT_ALERT_SRC.CALL.addr, MGMT_STATUS.ALERT.addr]) :=
  ⟨mk [(POWER_STATUS.ON, 0x3FFFFFFF), (LANE_EVENT.LOCKED 0, 1)], .company 0, 0x102C0008, 5, 0x2C0008, ((findReg 0x2C0008).getD
    ⟨0, 0, 0, []⟩), by decide +kernel, by decide +kernel, by decide +kernel, by decide +kernel, by decide +kernel,
    by decide +kernel, fun _ => rfl, by decide +kernel⟩

theorem test_witness_WrongWritesAreRefused :
    (∃ (s : State) (side : Side) (addr : BitVec 40) (size : AccessSize) (off : Nat), size ≠ .word ∧ busTarget s side addr.toNat
      (accessBytes size) = .reg off) ∧
    (∃ (s : State) (c : Fin 4) (addr : BitVec 40) (off : Nat) (b : Nat) (r : RegDef), busTarget s (.company c) addr.toNat 4 =
      .reg off ∧ off % 4 = 0 ∧ clockStopped s off = false ∧ regAt off = some r ∧ mgmtPlane (off / 0x10000) = true ∧ blockCode
      (off / 0x10000) = some b) ∧
    (∃ (s : State) (c : Fin 4) (addr : BitVec 40) (off : Nat), busTarget s (.company c) addr.toNat 4 = .scratch off ∧
      s.sys.fwGuard = false) ∧
    (∃ (s : State) (side : Side) (addr : BitVec 40), busTarget s side addr.toNat 1 = .unmapped) :=
  ⟨⟨blank, .company 0, 0x10000000, .half, 0, by decide +kernel⟩,
   ⟨blank, 3, 0x10540000, 0x540000, 22, ((findReg 0x540000).getD ⟨0, 0, 0, []⟩), by decide +kernel⟩,
   ⟨blank, 1, 0x17FFFFC, 0x7FFFFC, by decide +kernel⟩,
   ⟨blank, .stageManager, 0x40000, by decide +kernel⟩⟩

theorem test_witness_MailboxWritesStoreOrFlag :
    (∃ (s : State) (side : Side), side ≠ .stageManager ∧ s.flag SYS_DB_TO_SM.MSG = false) ∧
    (∃ (s : State), s.flag SYS_DB_TO_CO.MSG = false) ∧
    (∃ (s : State) (side : Side), side ≠ .stageManager ∧ s.flag SYS_DB_TO_SM.MSG = true) ∧
    (∃ (s : State), s.flag SYS_DB_TO_CO.MSG = true) ∧
    (∃ (side : Side), side ≠ .stageManager) :=
  ⟨⟨blank, .company 3, by decide +kernel⟩,
   ⟨blank, by decide +kernel⟩,
   ⟨mk [(SYS_DB_TO_SM.MSG, 1)], .company 0, by decide +kernel⟩,
   ⟨mk [(SYS_DB_TO_CO.MSG, 1)], by decide +kernel⟩,
   ⟨.company 2, by decide +kernel⟩⟩

theorem test_witness_LowWordReadLatchesHighWord :
    (∃ (s : State) (side : Side) (addr : BitVec 40) (off : Nat), busTarget s side addr.toNat 4 = .reg off ∧ clockStopped s off
      = false ∧ off ∈ lowWords ∧ keyGet s.sys.latches off = none) ∧
    (∃ (s : State) (side : Side) (addr : BitVec 40) (off : Nat) (w : Word), busTarget s side addr.toNat 4 = .reg (off + 4) ∧
      clockStopped s (off + 4) = false ∧ off ∈ lowWords ∧ keyGet s.sys.latches (off + 4) = some w) ∧
    (∃ (s : State) (side : Side) (addr : BitVec 40) (off : Nat), busTarget s side addr.toNat 4 = .reg (off + 4) ∧ clockStopped
      s (off + 4) = false ∧ off ∈ lowWords ∧ keyGet s.sys.latches (off + 4) = none) ∧
    (∃ (s : State) (side : Side) (addr : BitVec 40) (off : Nat) (size : ReadSize), (size = .byte ∨ size = .half) ∧ busTarget s
      side addr.toNat (readBytes size) = .reg off ∧ off % readBytes size = 0 ∧ clockStopped s (off - off % 4) = false ∧ off -
      off % 4 ∉ [TIME_NOW_NS.NS.addr, HEVD_OUT_POP.BUF.addr, VIEW_POOL_ALLOC.HANDLE.addr, (CALL_LOG_ENTRY.DATA 0).addr] ∧ off -
      off % 4 ∉ lowWords ∧ keyGet s.sys.latches (off - off % 4) = none) :=
  ⟨⟨mk [(CUE_POINT_FRAME_LO.DATA, 7)], .company 0, (BitVec.ofNat 40 (0x10000000 + CUE_POINT_FRAME_LO.DATA.addr)),
     CUE_POINT_FRAME_LO.DATA.addr, by decide +kernel⟩,
   ⟨{ (mk []) with sys := { sysInit with latches := [(CUE_POINT_FRAME_LO.DATA.addr + 4, 9)] } }, .company 0, (BitVec.ofNat 40
     (0x10000000 + CUE_POINT_FRAME_LO.DATA.addr)) + 4, CUE_POINT_FRAME_LO.DATA.addr, 9, by decide +kernel⟩,
   ⟨blank, .company 0, (BitVec.ofNat 40 (0x10000000 + CUE_POINT_FRAME_LO.DATA.addr)) + 4, CUE_POINT_FRAME_LO.DATA.addr,
     by decide +kernel⟩,
   ⟨mk [(LEDGER_CTRL.TRIG_EN, 1), (POWER_STATUS.ON, 2 ^ 28)], .company 0, (BitVec.ofNat 40 (0x10000000 +
     LEDGER_CTRL.TRIG_EN.addr + 2)), LEDGER_CTRL.TRIG_EN.addr + 2, .half, by decide +kernel⟩⟩

theorem test_witness_EventsAreQueuedOrDropped :
    (∃ (s : State) (e : Event), e.cls ≠ .fatal ∧ findCoalesce s e = none ∧ s.call.queue.length < 60) ∧
    (∃ (s : State) (e : Event), e.cls ≠ .fatal ∧ findCoalesce s e = none ∧ 60 ≤ s.call.queue.length) :=
  ⟨⟨blank, { cls := .warning, block := 3, cause := 5, inst := 1, detail := 2 }, by decide +kernel⟩,
   ⟨{ blank with call := { callInit with queue := List.replicate 60 entry0 } },
     { cls := .warning, block := 3, cause := 5, inst := 1, detail := 2 }, by decide +kernel⟩⟩

theorem test_witness_CallPostLogReadAndDone :
    (∃ (s : State) (e : CallEntry) (q : List CallEntry), s.call.queue = e :: q ∧ q.length ≠ 32) ∧
    (∃ (s : State) (q : Word), s.call.current = some q.toNat) ∧
    (∃ (s : State), s.call.restart = none) ∧
    (∃ (s : State) (r : CompanyRestart), s.call.restart = some r ∧ r.released = false ∧ sha3_512 (s.scratchBytes 0 s.sys.coLen)
      = s.sys.coDigest) ∧
    (∃ (s : State), s.flag CALL_CO_WDOG.EN = true ∧ s.call.companyHeld = false ∧ watchdogOver (s.fld CALL_CO_WDOG.MS)
      s.call.coKick s = true) ∧
    (∃ (s : State), restartOverdue s = true ∧ s.call.lastFail = none) ∧
    (∃ (s : State), s.flag CALL_SM_WDOG.EN = true ∧ s.call.smExpiry = none ∧ watchdogOver (s.fld CALL_SM_WDOG.MS) s.call.smKick
      s = true) ∧
    (∃ (s : State), fatalOverdue s = true ∧ 2 ≤ s.mode ∧ s.flag CALL_STATUS.SAFE = false) :=
  ⟨⟨{ blank with call := { callInit with queue := [entry0] } }, entry0, [], by decide +kernel⟩,
   ⟨{ blank with call := { callInit with current := some 0, log := [entry0] } }, 0, by decide +kernel⟩,
   ⟨blank, by decide +kernel⟩,
   ⟨{ blank with
       call := { callInit with restart := some { decision := 3, released := false } },
       sys := { sysInit with coDigest := sha3_512 [] } }, { decision := 3, released := false }, by decide +kernel⟩,
   ⟨{ mk [(CALL_CO_WDOG.EN, 1)] with ticks := 4000000, call := { callInit with companyHeld := false } }, by decide +kernel⟩,
   ⟨{ blank with ticks := 160000003, call := { callInit with restart := some { decision := 3, released := false } } },
     by decide +kernel⟩,
   ⟨{ mk [(CALL_SM_WDOG.EN, 1)] with ticks := 4000000 }, by decide +kernel⟩,
   ⟨{ mk [(CUE_STATUS.MODE, 2)] with ticks := 4000000, call := { callInit with fatals := [(0, 0)] } }, by decide +kernel⟩⟩

theorem test_witness_CompanyRestartsAndWatchdogs :
    (∃ (s : State), s.call.restart = none) ∧
    (∃ (s : State), s.call.restart ≠ none) ∧
    (∃ (s : State) (r : CompanyRestart), s.call.restart = some r ∧ r.released = false ∧ sha3_512 (s.scratchBytes 0 s.sys.coLen)
      ≠ s.sys.coDigest) ∧
    (∃ (s : State), (∀ r, s.call.restart = some r → r.released = false)) ∧
    (∃ (s : State) (k : Nat), restartOverdue s = true ∧ s.call.lastFail = some k ∧ s.elapsedNs k 60000000000 = false) ∧
    (∃ (s : State) (k : Nat), s.flag CALL_SM_WDOG.EN = true ∧ s.call.smExpiry = some k ∧ s.elapsedNs k 60000000000 = false ∧
      watchdogOver (s.fld CALL_SM_WDOG.MS) s.call.smKick s = true) ∧
    (∃ (s : State) (r : CompanyRestart), s.call.restart = some r ∧ r.released = false ∧ sha3_512 (s.scratchBytes 0 s.sys.coLen)
      = s.sys.coDigest) ∧
    (∃ (s : State) (r : CompanyRestart), s.call.restart = some r ∧ r.released = true) ∧
    (∃ (s : State), s.flag CALL_CO_WDOG.EN = true ∧ s.call.companyHeld = false ∧ watchdogOver (s.fld CALL_CO_WDOG.MS)
      s.call.coKick s = true) ∧
    (∃ (s : State), restartOverdue s = true ∧ s.call.lastFail = none) ∧
    (∃ (s : State), s.flag CALL_SM_WDOG.EN = true ∧ s.call.smExpiry = none ∧ watchdogOver (s.fld CALL_SM_WDOG.MS) s.call.smKick
      s = true) ∧
    (∃ (s : State), fatalOverdue s = true ∧ 2 ≤ s.mode ∧ s.flag CALL_STATUS.SAFE = false) ∧
    (∃ (s : State), s.call.safePending = true ∧ portsClosed s = true ∧ chainSafe (safeLinked s) = true ∧ viewSafe s = true ∧
      (railsReady (wantedDomains 6 (safeMask s) (s.flag CUE_STATUS.PORTS_HELD)) s).1 = true) :=
  ⟨⟨{ blank with call := { callInit with companyHeld := false } }, by decide +kernel⟩,
   ⟨{ blank with call := { callInit with restart := some { decision := 3, released := true } } }, by decide +kernel⟩,
   ⟨{ blank with call := { callInit with restart := some { decision := 3, released := false } } },
     { decision := 3, released := false }, by decide +kernel⟩,
   ⟨blank, fun r h => nomatch (show (none : Option CompanyRestart) = some r from h)⟩,
   ⟨{ { blank with call := { callInit with restart := some { decision := 3, released := false }, lastFail := some 5 } } with
       ticks := 160000003 }, 5, by decide +kernel⟩,
   ⟨{ { mk [(CALL_SM_WDOG.EN, 1), (CALL_SM_WDOG.MS, 11)] with call := { callInit with smExpiry := some 5 } } with
       ticks := 4400000 }, 5, by decide +kernel⟩,
   ⟨{ blank with
       call := { callInit with restart := some { decision := 3, released := false } },
       sys := { sysInit with coDigest := sha3_512 [] } }, { decision := 3, released := false }, by decide +kernel⟩,
   ⟨{ mk [(CALL_STATUS.SAFE, 1), (CALL_RESTART_CNT.DONE, 65535)] with
       call := { callInit with restart := some { decision := 3, released := true } } }, { decision := 3, released := true },
     by decide +kernel⟩,
   ⟨{ { mk [(CALL_CO_WDOG.EN, 1), (CALL_CO_WDOG.MS, 11)] with call := { callInit with companyHeld := false } } with
       ticks := 4400000 }, by decide +kernel⟩,
   ⟨{ { blank with call := { callInit with restart := some { decision := 3, released := false } } } with ticks := 160000003 },
     by decide +kernel⟩,
   ⟨{ mk [(CALL_SM_WDOG.EN, 1)] with ticks := 4000000 }, by decide +kernel⟩,
   ⟨{ { mk [(CUE_STATUS.MODE, 2), (CALL_CTRL.FATAL_TO_MS, 11)] with call := { callInit with fatals := [(0, 0)] } } with
       ticks := 4400000 }, by decide +kernel⟩,
   ⟨{ mk [(CUE_STATUS.MODE, 3)] with call := { callInit with safePending := true } }, by decide +kernel⟩⟩

theorem test_witness_PendingStackOverlayAndLoads :
    (∃ (s : State) (slot : Fin 64), slotValid s slot = true ∧ ((keyGet s.cue.slots slot.val).map (fun c => c.kind)) = some 0 ∧
      s.cue.pending.users.length < 4) ∧
    (∃ (s : State) (us : List Nat) (u : Nat), s.cue.pending.users = us ++ [u]) ∧
    (∃ (s : State) (level : Fin 4) (slot : Fin 64), slotValid s slot = true ∧ ((keyGet s.cue.slots slot.val).map (fun c =>
      c.kind)) = some 0 ∧ level.val < s.cue.pending.users.length) ∧
    (∃ (s : State) (slot : Fin 64), (4 ≤ s.cue.pending.users.length ∨ slotValid s slot = false)) ∧
    (∃ (s : State) (v : Word) (a : Nat), v.getLsbD 6 = true ∧ 48 ≤ v.toNat % 64 ∧ s.cue.load = none ∧ loadSource s = some a ∧
      v.toNat % 64 ∉ stackedSlots s) ∧
    (∃ (s : State) (v : Word), v.getLsbD 6 = true ∧ v.toNat % 64 < 48 ∧ s.cue.load = none) ∧
    (∃ (s : State) (slot : Nat) (a : Nat) (c : Cue), s.cue.load = some (slot, a) ∧ slot < 64 ∧ parseCue (s.scratchBytes a 4096)
      = .ok c ∧ cueFault s.cue.tableStore s.cue.base.entries c = none) ∧
    (∃ (s : State) (slot : Nat) (a : Nat) (off : Nat), s.cue.load = some (slot, a) ∧ slot < 64 ∧ parseCue (s.scratchBytes a
      4096) = .error off) ∧
    (∃ (s : State) (addr : BitVec 40) (off : Nat), addr.toNat = 0x10000000 + off ∧ regOff s off = false ∧ lineMask off = 0 ∧
      shadowMask off ≠ 0 ∧ s.cue.pending.overlay.length < 256) :=
  ⟨⟨{ mk [(CUE_VALID_HI.DATA, 2 ^ 31)] with
       cue := { cueInit with slots := [(63, cueX 0 255)], pending := { stackInit with users := [1, 2, 3] } } }, 63,
     by decide +kernel⟩,
   ⟨{ blank with cue := { cueInit with pending := { stackInit with users := [1, 2, 3, 4] } } }, [1, 2, 3], 4,
     by decide +kernel⟩,
   ⟨{ mk [(CUE_VALID_LO.DATA, 1)] with
       cue := { cueInit with slots := [(0, cueX 0 255)], pending := { stackInit with users := [1, 2, 3, 4] } } }, 3, 0,
     by decide +kernel⟩,
   ⟨{ blank with cue := { cueInit with pending := { stackInit with users := [1, 2, 3, 4] } } }, 0, by decide +kernel⟩,
   ⟨mk [(CUE_LOAD_SRC.ADDR, 0x17FFFE0)], 0x7F, 0x7FFFE0, by decide +kernel⟩,
   ⟨blank, 0x6F, by decide +kernel⟩,
   ⟨{ blank with cue := { cueInit with load := some (48, 0) }, scratch := withBytes cueBytes }, 48, 0,
     { slot := 48, kind := 0, mode := 255, flags := 0, domainMask := 0, name := List.replicate 12 0, entries := [] },
     by decide +kernel⟩,
   ⟨{ blank with cue := { cueInit with load := some (48, 0) } }, 48, 0, 0, by decide +kernel⟩,
   ⟨mk [(POWER_STATUS.ON, 0x3FFFFFFF)], 0x102C0000, 0x2C0000, by decide +kernel⟩⟩

theorem test_witness_CommitsPrepareAndArm :
    (∃ (s : State), s.cue.locked = true ∧ s.cue.commit = .idle ∧ 1 ≤ s.fld CUE_REF_TIMEOUT.MS ∧ s.fld CUE_REF_TIMEOUT.MS ≤
      1000) ∧
    (∃ (s : State), s.cue.locked = true ∧ s.cue.commit ≠ .idle ∧ 1 ≤ s.fld CUE_REF_TIMEOUT.MS ∧ s.fld CUE_REF_TIMEOUT.MS ≤
      1000) ∧
    (∃ (s : State) (img : CommitImage), s.cue.commit = .preparing img ∧ bankBusy s img = false ∧ 2 ≤ s.mode ∧ s.mode ≤ 5 ∧
      (admitImage img s.mode s).1 = true ∧ s.fld CUE_CTRL.REFSRC ≤ 5) ∧
    (∃ (s : State) (img : CommitImage), s.cue.commit = .preparing img ∧ bankBusy s img = false ∧ 2 ≤ s.mode ∧ s.mode ≤ 5 ∧
      img.passed = false ∧ (admitImage img s.mode s).1 = false) ∧
    (∃ (s : State) (img : CommitImage), s.cue.commit = .preparing img ∧ bankBusy s img = false ∧ s.mode = 1 ∧ img.passed =
      false ∧ (railsReady (wantedDomains 2 (maskOf s img.stack.modeCue) false) s).1 = true) ∧
    (∃ (s : State) (img : CommitImage), s.cue.commit = .preparing img ∧ bankBusy s img = false ∧ s.mode = 1 ∧ img.passed =
      false ∧ (railsReady (wantedDomains 2 (maskOf s img.stack.modeCue) false) s).1 = false) :=
  ⟨⟨{ mk [(CUE_REF_TIMEOUT.MS, 1000)] with cue := { cueInit with locked := true } }, by decide +kernel⟩,
   ⟨{ mk [(CUE_REF_TIMEOUT.MS, 1)] with cue := { cueInit with locked := true, commit := .preparing imgX } }, by decide +kernel⟩,
   ⟨{ mk [(CUE_STATUS.MODE, 2), (CUE_CTRL.REFSRC, 5)] with cue := { cueInit with commit := .preparing imgX } }, imgX,
     by decide +kernel⟩,
   ⟨{ { (mk [(CUE_STATUS.MODE, 5)]) with mem := { dramInit with committed := true } } with
       cue := { cueInit with commit := .preparing { imgX with regs := [(DRAM_ADMIT.EXTRA.addr, 1)] } } },
     { imgX with regs := [(DRAM_ADMIT.EXTRA.addr, 1)] }, by decide +kernel⟩,
   ⟨{ mk [(CUE_STATUS.MODE, 1)] with cue := { cueInit with commit := .preparing imgX } }, imgX, by decide +kernel⟩,
   ⟨{ { mk [(CUE_STATUS.MODE, 1)] with cue := { cueInit with commit := .preparing imgX } } with
       power := { powerInit with rails := [{ railX with follow := 0 }] } }, imgX, by decide +kernel⟩⟩

theorem test_witness_ReferenceMakesTheCuePoint :
    (∃ (s : State) (img : CommitImage) (d : Nat), schedOn s = true ∧ gridTime s s.clock.grid ≤ s.nowNs ∧ s.cue.commit = .armed
      img d false ∧ refSource s = 4 ∧ s.elapsedNs d 2000 = true) ∧
    (∃ (s : State), (schedOn s = false ∨ s.nowNs < gridTime s s.clock.grid)) ∧
    (∃ (s : State), schedOn s = true ∧ gridTime s s.clock.grid ≤ s.nowNs ∧ s.cue.commit = .idle) ∧
    (∃ (s : State) (img : CommitImage) (d : Nat), s.cue.commit = .armed img d false ∧ refSource s < 4 ∧ schedOn s = true ∧
      refTimedOut s d = true) ∧
    (∃ (s : State) (img : CommitImage) (d : Nat) (b : Bool), s.cue.commit = .armed img d b ∧ schedOn s = false ∧ refTimedOut s
      d = true) ∧
    (∃ (s : State) (img : CommitImage) (d : Nat) (b : Bool), s.cue.commit = .armed img d b ∧ s.elapsedNs d (clamp 1 1000 (s.fld
      CUE_REF_TIMEOUT.MS) * 1000000) = false ∧ refSource s < 4 ∧ s.domainOn (6 + refPort s (refSource s)) = true) :=
  ⟨⟨{ { mk [(TIME_SCHED_CTRL.EN, 1), (CUE_CTRL.REFSRC, 4)] with cue := { cueInit with commit := .armed imgX 0 false } } with
       ticks := 800 }, imgX, 0, by decide +kernel⟩,
   ⟨blank, by decide +kernel⟩,
   ⟨mk [(TIME_SCHED_CTRL.EN, 1), (TIME_SCHED_COUNT.TICKS, 2 ^ 32 - 1)], by decide +kernel⟩,
   ⟨{ { mk [(TIME_SCHED_CTRL.EN, 1), (CUE_CTRL.REFSRC, 3), (POWER_STATUS.ON, 2 ^ 9)] with cue := { cueInit with commit := .armed imgX 0 false } } with
       ticks := 400000 }, imgX, 0, by decide +kernel⟩,
   ⟨{ blank with cue := { cueInit with commit := .armed imgX 0 true } }, imgX, 0, true, by decide +kernel⟩,
   ⟨{ { mk [(CUE_CTRL.REFSRC, 3), (POWER_STATUS.ON, 2 ^ 9), (CUE_REF_TIMEOUT.MS, 1000)] with cue := { cueInit with commit := .armed imgX 0 false } } with
       ticks := 399999999 }, imgX, 0, false, by decide +kernel⟩⟩

theorem test_witness_ModesAreRequestedAndEntered :
    (∃ (s : State) (m : Mode) (u : State), requestCheck (modeCode m) s = none ∧ entryChecks (modeCode m) s = (none, u) ∧
      wingsLocked u = false) ∧
    (∃ (s : State), s.power.xfer.isSome = true) ∧
    (∃ (s : State) (m : Mode), s.power.xfer = none ∧ s.call.safePending = false ∧ modeAllowed s.mode (modeCode m) = false) ∧
    (∃ (s : State) (m : Mode), s.power.xfer = none ∧ s.call.safePending = false ∧ modeAllowed s.mode (modeCode m) = true ∧
      modeCueOk s (modeCode m) = false) ∧
    (∃ (s : State) (x : Transition), s.power.xfer = some x ∧ x.draining = true ∧ portsClosed s = true ∧ s.ledger.placements =
      [] ∧ allFinal s = true) ∧
    (∃ (s : State) (x : Transition), s.power.xfer = some x ∧ x.src < 8 ∧ x.dst < 8 ∧ transitionReady x (linkFirst x s) = true) ∧
    (∃ (m : Nat), m < 8) ∧
    (∃ (s : State) (x : Transition), s.power.xfer = some x ∧ x.dst < 8 ∧ transitionReady x (linkFirst x s) = true) ∧
    (∃ (s : State), s.call.safePending = true ∧ portsClosed s = true ∧ chainSafe (safeLinked s) = true ∧ viewSafe s = true ∧
      (railsReady (wantedDomains 6 (safeMask s) (s.flag CUE_STATUS.PORTS_HELD)) s).1 = true) ∧
    (∃ (s : State), s.call.safePending = true ∧ portsClosed s = true ∧ viewSafe s = false ∧ s.call.viewGoes = false ∧
      panelState s = 2 ∧ s.view.push = none) :=
  ⟨⟨{ mk [(CUE_STATUS.MODE, 2), (CUE_VALID_LO.DATA, 32)] with
       cue := { cueInit with slots := [(5, cueX 1 6)], base := { modeCue := [0, 0, 0, 0, 5, 0], entries := [] } } },
     .intermission,
     { mk [(CUE_STATUS.MODE, 2), (CUE_VALID_LO.DATA, 32)] with
       cue := { cueInit with slots := [(5, cueX 1 6)], base := { modeCue := [0, 0, 0, 0, 5, 0], entries := [] } } },
     by decide +kernel⟩,
   ⟨{ blank with power := { powerInit with xfer := some (xferX 6 7 false) } }, by decide +kernel⟩,
   ⟨mk [(CUE_STATUS.MODE, 7)], .rehearsal, by decide +kernel⟩,
   ⟨mk [(CUE_STATUS.MODE, 6)], .midnight, by decide +kernel⟩,
   ⟨{ blank with power := { powerInit with xfer := some (xferX 3 6 true) } }, xferX 3 6 true, by decide +kernel⟩,
   ⟨{ mk [(CUE_STATUS.MODE, 2)] with power := { powerInit with xfer := some (xferX 2 6 false) } }, xferX 2 6 false,
     by decide +kernel⟩,
   ⟨7, by decide +kernel⟩,
   ⟨{ mk [(CUE_STATUS.MODE, 2)] with power := { powerInit with xfer := some (xferX 2 7 false) } }, xferX 2 7 false,
     by decide +kernel⟩,
   ⟨{ mk [(CUE_STATUS.MODE, 3)] with call := { callInit with safePending := true } }, by decide +kernel⟩,
   ⟨{ mk [(CUE_STATUS.MODE, 3), (VIEW_STATUS.STATE, 2)] with call := { callInit with safePending := true } },
     by decide +kernel⟩⟩

theorem test_witness_WakesLeaveMidnight :
    (∃ (s : State), s.flag TIME_ALARM_SEC_HI.EN = true ∧ alarmNs s ≤ s.nowNs ∧ s.mode ≠ 7) ∧
    (∃ (s : State) (b : List Byte), s.mode = 7 ∧ netUp s 0 = true ∧ s.flag TIME_KA_CTRL.WAKE_EN = true ∧ 33 ≤ b.length ∧ b.take
      4 = [0x45, 0x57, 0x41, 0x4B] ∧ wakeNames s b = true ∧ leAt b 22 1 = 6 ∧ leAt b 23 6 ≠ 0) ∧
    (∃ (s : State) (b : List Byte), s.mode = 7 ∧ netUp s 0 = true ∧ s.power.xfer = none ∧ s.flag TIME_KA_CTRL.WAKE_EN = true ∧
      33 ≤ b.length ∧ b.take 4 = [0x45, 0x57, 0x41, 0x4B] ∧ wakeNames s b = true ∧ leAt b 22 1 = 6 ∧ leAt b 23 6 = 0 ∧ leAt b
      29 4 = 0) ∧
    (∃ (s : State) (pin : Fin 8), s.mode = 7 ∧ s.power.xfer = none ∧ (s.tab 0x10 0 (16 * pin.val) 1).testBit 5 = true ∧ s.flag
      TIME_KA_CTRL.WAKE_MODE = true) :=
  ⟨⟨{ mk [(CUE_STATUS.MODE, 6), (TIME_ALARM_SEC_HI.EN, 1), (TIME_ALARM_NS.VALUE, 5)] with
       time := { sec := 0, ns := 5, frac := 0 } }, by decide +kernel⟩,
   ⟨mk [(CUE_STATUS.MODE, 7), (TIME_KA_CTRL.WAKE_EN, 1), (NET_STATUS.LINK 0, 1)], wakeX 1, by decide +kernel⟩,
   ⟨mk [(CUE_STATUS.MODE, 7), (TIME_KA_CTRL.WAKE_EN, 1), (NET_STATUS.LINK 0, 1)], wakeX 0, by decide +kernel⟩,
   ⟨{ mk [(CUE_STATUS.MODE, 7), (TIME_KA_CTRL.WAKE_MODE, 1)] with
       cue := { cueInit with tables := [((0x10, 0), [(112, 32)])] } }, 7, by decide +kernel⟩⟩

theorem test_witness_ResetsAndDawn :
    (∃ (s : State), s.mode = 1 ∧ s.power.dark = .none ∧ s.trust.image = none ∧ s.power.nvmLock = false) ∧
    (∃ (s : State), s.mode = 1 ∧ s.power.dark = .none ∧ s.trust.image.isSome = true ∧ s.call.smHeld = true ∧ (railsReady
      (modeDomains 1 0) s).1 = true) ∧
    (∃ (s : State), s.mode = 1 ∧ s.power.dark = .none ∧ s.trust.image = none ∧ s.power.nvmLock = true) ∧
    (∃ (s : State) (x : RailRec), s.mode = 1 ∧ s.power.dark = .none ∧ s.trust.image.isSome = true ∧ s.call.smHeld = true ∧
      railsToRaise (modeDomains 1 0) s = [x] ∧ x.rail < 8) ∧
    (∃ (s : State), s.power.aonValid = false) ∧
    (∃ (s : State), s.power.dark = .coldReset ∧ s.flag THERM_STATUS.CURTAIN = false ∧ s.power.warmPin = false) ∧
    (∃ (s : State), s.power.aonValid = true ∧ s.power.dark = .none) ∧
    (∃ (s : State), canRestart { s with power := { s.power with warmPin := false } } = true) ∧
    (∃ (s : State), s.power.dark = .none ∧ s.flag THERM_STATUS.CURTAIN = false ∧ s.flag CLOCK_STATUS.REFCLK_OK = true ∧
      s.power.supplyLow = false ∧ s.power.warmPin = false ∧ s.power.pllWait = none ∧ s.flag KLINK_STATUS.PRIN = false ∧ (s.fld
      POWER_RAIL.PG).testBit 0 = true) :=
  ⟨⟨{ mk [(CUE_STATUS.MODE, 1)] with power := { powerInit with dark := .none } }, by decide +kernel⟩,
   ⟨{ { mk [(CUE_STATUS.MODE, 1)] with power := { powerInit with dark := .none } } with
       trust := { trustInit with image := some runX } }, by decide +kernel⟩,
   ⟨{ mk [(CUE_STATUS.MODE, 1)] with power := { powerInit with dark := .none, nvmLock := true } }, by decide +kernel⟩,
   ⟨{ { mk [(CUE_STATUS.MODE, 1)] with power := { powerInit with dark := .none, rails := [{ railX with follow := 0 }] } } with
       trust := { trustInit with image := some runX } }, { railX with follow := 0 }, by decide +kernel⟩,
   ⟨{ blank with power := { powerInit with aonValid := false } }, by decide +kernel⟩,
   ⟨blank, by decide +kernel⟩,
   ⟨{ blank with power := { powerInit with dark := .none } }, by decide +kernel⟩,
   ⟨{ mk [(CLOCK_STATUS.REFCLK_OK, 1), (POWER_RAIL.PG, 1)] with
       power := { powerInit with restart := true, warmPin := true, dark := .warmPin } }, by decide +kernel⟩,
   ⟨{ mk [(CLOCK_STATUS.REFCLK_OK, 1), (POWER_RAIL.PG, 1)] with power := { powerInit with dark := .none } }, by decide +kernel⟩⟩

theorem test_witness_LifecycleConfirmAndAdvance :
    (∃ (s : State) (a : Nat), privilege s = true ∧ s.trust.jrnlSpent = false ∧ s.fld NVMC_JRNL_SEQ.DATA + 2 < 2 ^ 32 ∧
      s.trust.otp.lifecycle = 0 ∧ s.trust.service = false ∧ makerKeyAt s = some a) ∧
    (∃ (s : State) (a : Nat) (i : Nat), privilege s = true ∧ s.trust.jrnlSpent = false ∧ s.trust.otp.lifecycle ≠ 0 ∧
      s.trust.otp.lifecycle ≠ 8 ∧ makerKeyAt s = some a ∧ activeMaker s.trust.otp = some i ∧ s.trust.otp.makerDigests.length <
      4) ∧
    (∃ (s : State), privilege s = true ∧ s.trust.jrnlSpent = false ∧ s.fld NVMC_JRNL_SEQ.DATA + 2 < 2 ^ 32 ∧
      s.trust.otp.lifecycle = 1 ∧ s.trust.service = false) ∧
    (∃ (s : State), privilege s = true ∧ s.trust.jrnlSpent = false ∧ s.fld NVMC_JRNL_SEQ.DATA + 2 < 2 ^ 32 ∧
      s.trust.otp.lifecycle = 2 ∧ s.trust.service = true) ∧
    (∃ (s : State) (c : Instr) (n : Nat), privilege s = false ∧ (c, n) ∈ [(Instr.provision true, 1), (.provision false, 1),
      (.toField, 2), (.enterService, 3), (.leaveService, 4), (.retire, 5)]) ∧
    (∃ (s : State) (im : RunningImage) (p : Nat), s.trust.image = some im ∧ s.trust.confirmed = false ∧ s.trust.jrnlSpent =
      false ∧ nvmBlocked s = false ∧ nextPage s = some p) ∧
    (∃ (s : State), s.trust.confirmed = true) ∧
    (∃ (s : State), s.trust.confirmed = false) :=
  ⟨⟨mk [(TRUST_PRESENCE.JMP, 1), (TRUST_SIGN_ADDR.ADDR, 0x17FF5E0)], 0x7FF5E0, by decide +kernel⟩,
   ⟨{ mk [(TRUST_PRESENCE.JMP, 1), (TRUST_SIGN_ADDR.ADDR, 0x1000000)] with
       trust := { trustInit with otp := { trustInit.otp with lifecycle := 2, makerDigests := [[], [], []] } } }, 0, 2,
     by decide +kernel⟩,
   ⟨{ mk [(TRUST_PRESENCE.JMP, 1)] with trust := { trustInit with otp := { trustInit.otp with lifecycle := 1 } } },
     by decide +kernel⟩,
   ⟨{ mk [(TRUST_PRESENCE.JMP, 1)] with
       trust := { trustInit with service := true, otp := { trustInit.otp with lifecycle := 2 } } }, by decide +kernel⟩,
   ⟨blank, .retire, 5, by decide +kernel⟩,
   ⟨{ blank with
       trust := { trustInit with image := some { fwVersion := 1, cfgVersion := 1, seq := 0, fwDigest := [], cfgDigest := [] }, jrnlPage := 8191 } },
     { fwVersion := 1, cfgVersion := 1, seq := 0, fwDigest := [], cfgDigest := [] }, 8191, by decide +kernel⟩,
   ⟨{ blank with trust := { trustInit with confirmed := true } }, by decide +kernel⟩,
   ⟨blank, by decide +kernel⟩⟩

theorem test_witness_SigningPresenceAndSeal :
    (∃ (s : State) (a : Nat), signBlocked s = false ∧ signBuffer s 7699 = some a) ∧
    (∃ (s : State) (a : Nat) (l : SecondLatch), s.call.restart = none ∧ signBlocked s = false ∧ lifecycleCode s ≠ 0 ∧
      signBuffer s 5120 = some a ∧ s.hash.latch = some l) ∧
    (∃ (s : State) (a : Nat), s.call.restart = none ∧ signBlocked s = false ∧ lifecycleCode s ≠ 0 ∧ signBuffer s 5120 = some a) ∧
    (∃ (s : State), signBlocked s = true) ∧
    (∃ (s : State), s.call.restart.isSome = true) ∧
    (∃ (s : State) (j : SignJob), s.trust.sign = some j) ∧
    (∃ (s : State), s.trust.pressed = false ∧ s.flag THERM_STATUS.HELD = false) ∧
    (∃ (s : State) (b : Bool), b = (lfsrStep s.trust.lfsr).getLsbD 0 ∧ s.trust.missHigh = 0 ∧ s.trust.missLow = 0) ∧
    (∃ (s : State) (b : Bool), b ≠ (lfsrStep s.trust.lfsr).getLsbD 0 ∧ (if b then s.trust.missLow else s.trust.missHigh) = 2 ∧
      s.flag TRUST_PRESENCE.SEAL_OK = true ∧ s.trust.jrnlSpent = false ∧ 0 < s.fld NVMC_JRNL_SEQ.DATA) ∧
    (∃ (s : State), s.call.restart = none ∧ lifecycleCode s = 0) :=
  ⟨⟨mk [(TRUST_SIGN_ADDR.ADDR, 0x17FE1E0)], 0x7FE1E0, by decide +kernel⟩,
   ⟨{ { mk [(TRUST_SIGN_ADDR.ADDR, 0x17FEC00)] with trust := { trustInit with otp := { trustInit.otp with lifecycle := 1 } } } with
       hash := { hashInit with latch := some { sec := 0, ns := 0, segment := 0, segFirst := 0, linkFrame := 0, finCount := 0, digLost := 0, spillLost := 0, link := [], fin := [] } } },
     0x7FEC00,
     { sec := 0, ns := 0, segment := 0, segFirst := 0, linkFrame := 0, finCount := 0, digLost := 0, spillLost := 0, link := [], fin := [] },
     by decide +kernel⟩,
   ⟨{ mk [(TRUST_SIGN_ADDR.ADDR, 0x1000000)] with trust := { trustInit with otp := { trustInit.otp with lifecycle := 1 } } },
     0, by decide +kernel⟩,
   ⟨mk [(TRUST_SIGN_CTRL.BUSY, 1)], by decide +kernel⟩,
   ⟨{ blank with call := { callInit with restart := some { decision := 3, released := false } } }, by decide +kernel⟩,
   ⟨{ blank with trust := { trustInit with sign := some { domain := 2, addr := 0, latch := [] } } },
     { domain := 2, addr := 0, latch := [] }, by decide +kernel⟩,
   ⟨mk [(TRUST_PRESENCE.SEAL_OK, 1)], by decide +kernel⟩,
   ⟨mk [(TRUST_PRESENCE.SEAL_OK, 1)], (lfsrStep 0xACE1).getLsbD 0, by decide +kernel⟩,
   ⟨{ mk [(TRUST_PRESENCE.SEAL_OK, 1), (NVMC_JRNL_SEQ.DATA, 1)] with trust := { trustInit with missHigh := 2, missLow := 2 } },
     !(lfsrStep 0xACE1).getLsbD 0, by decide +kernel⟩,
   ⟨blank, by decide +kernel⟩⟩

theorem test_witness_NvmOperationsStartAndEnd :
    (∃ (s : State) (p : Nat), nvmBlocked s = false ∧ leAt (nvmBuffer s) 3 1 ≤ 228 ∧ s.trust.jrnlSpent = false ∧ nextPage s =
      some p) ∧
    (∃ (s : State) (r : RewriteSession), s.trust.session = some r ∧ nvmBlocked s = false ∧ s.mode = 6 ∧ s.fld NVMC_ADDR.ADDR %
      256 = 0 ∧ slotBase r.slot ≤ s.fld NVMC_ADDR.ADDR ∧ s.fld NVMC_ADDR.ADDR < slotBase r.slot + 0x1800000 ∧ sessionErased r =
      true ∧ pageErased s (s.fld NVMC_ADDR.ADDR) = true ∧ (r.header = true → s.fld NVMC_ADDR.ADDR < slotBase r.slot + 0x1000)) ∧
    (∃ (s : State), nvmBlocked s = false ∧ s.fld NVMC_ADDR.ADDR % 4096 = 0 ∧ (s.mode = 6 ∨ s.mode = 1) ∧ journalSectorOk s
      (s.fld NVMC_ADDR.ADDR) = true) ∧
    (∃ (s : State), nvmBlocked s = false) ∧
    (∃ (s : State) (slot : Fin 2), privilege s = true ∧ s.mode = 6 ∧ s.fld TRUST_STATUS.SLOT ≠ slot.val ∧ s.trust.session =
      none ∧ s.power.nvmLock = false) ∧
    (∃ (s : State), nvmBlocked s = true) ∧
    (∃ (s : State), s.power.nvmLock = true ∧ s.trust.held = [] ∧ canRestart (setPower { s.power with nvmLock := false }
      (s.orBit POWER_RAIL.PG 0)) = true) ∧
    (∃ (s : State), s.power.nvmLock = true ∧ s.trust.held = [] ∧ s.power.restart = false) ∧
    (∃ (s : State) (p : Nat) (k : Nat) (data : List Byte), s.trust.nvmOp = some (.append p data, k) ∧ s.trust.held = [] ∧ p <
      8192 ∧ data.length = 256) ∧
    (∃ (s : State) (a : Nat) (k : Nat) (data : List Byte), s.trust.nvmOp = some (.program a data, k) ∧ s.trust.session = none ∧
      s.trust.held = []) ∧
    (∃ (s : State) (a : Nat) (k : Nat), s.trust.nvmOp = some (.erase a, k) ∧ s.trust.held = []) ∧
    (∃ (s : State) (a : Nat) (k : Nat), s.trust.nvmOp = some (.read a, k) ∧ s.trust.held = []) ∧
    (∃ (s : State) (p : Nat) (k : Nat) (data : List Byte), s.trust.nvmOp = some (.append p data, k) ∧ s.trust.held = [] ∧ p <
      8192 ∧ data.length = 256 ∧ s.elapsedNs k 5000000 = true) ∧
    (∃ (s : State) (p : Nat) (k : Nat) (data : List Byte), s.trust.nvmOp = some (.append p data, k) ∧ s.trust.held = [] ∧ p <
      8192 ∧ data.length = 256 ∧ s.elapsedNs k 5000000 = true) ∧
    (∃ (s : State) (op : NvmOp) (k : Nat), s.trust.nvmOp = some (op, k) ∧ s.elapsedNs k 5000000 = false) ∧
    (∃ (s : State) (p : Nat) (payload : List Byte), s.fld NVMC_JRNL_SEQ.DATA = 0 ∧ nvmBlocked s = false ∧ (findPosition
      s).trust.jrnlSpent = false ∧ (nextPage s).isSome = true ∧ nextPage (findPosition s) = some p ∧ payload.length ≤ 228) :=
  ⟨⟨{ mk [((NVMC_BUF.DATA 0), 0xE4000000)] with trust := { trustInit with jrnlPage := 8191 } }, 8191, by decide +kernel,
     by decide +kernel, by decide +kernel, Laws.nextPage_first _ (by decide +kernel) (by decide +kernel) (by decide +kernel)⟩,
   ⟨{ mk [(CUE_STATUS.MODE, 6), (NVMC_ADDR.ADDR, 0x17FFF00)] with trust := { trustInit with session := some rewriteX } },
     rewriteX, rfl, by decide +kernel, by decide +kernel, by decide +kernel, by decide +kernel, by decide +kernel,
     Laws.sessionErased_of_length List.length_replicate, by decide +kernel, by decide +kernel⟩,
   ⟨{ mk [(CUE_STATUS.MODE, 1), (NVMC_ADDR.ADDR, 0x33FF000)] with trust := { trustInit with eraseRun := [0x33FF000] } },
     by decide +kernel⟩,
   ⟨blank, by decide +kernel⟩,
   ⟨mk [(TRUST_PRESENCE.JMP, 1), (CUE_STATUS.MODE, 6)], 1, by decide +kernel⟩,
   ⟨mk [(NVMC_STATUS.BUSY, 1)], by decide +kernel⟩,
   ⟨{ mk [(CLOCK_STATUS.REFCLK_OK, 1)] with power := { powerInit with nvmLock := true, restart := true, dark := .warmPin } },
     by decide +kernel⟩,
   ⟨{ blank with power := { powerInit with nvmLock := true } }, by decide +kernel⟩,
   ⟨{ blank with trust := { trustInit with nvmOp := some (.append 8191 (List.replicate 256 7), 0) } }, 8191, 0, List.replicate
     256 7, by decide +kernel⟩,
   ⟨{ blank with trust := { trustInit with nvmOp := some (.program 0x100 (List.replicate 256 7), 0) } }, 0x100, 0,
     List.replicate 256 7, by decide +kernel⟩,
   ⟨{ blank with trust := { trustInit with nvmOp := some (.erase 0x3000000, 0) } }, 0x3000000, 0, by decide +kernel⟩,
   ⟨{ blank with trust := { trustInit with nvmOp := some (.read 0x3000000, 0) } }, 0x3000000, 0, by decide +kernel⟩,
   ⟨{ { blank with trust := { trustInit with nvmOp := some (.append 0 (List.replicate 256 7), 0) } } with ticks := 2000000 },
     0, 0, List.replicate 256 7, by decide +kernel⟩,
   ⟨{ { blank with trust := { trustInit with nvmOp := some (.append 8191 (List.replicate 256 7), 0) } } with ticks := 2000000 },
     8191, 0, List.replicate 256 7, by decide +kernel⟩,
   ⟨{ { blank with trust := { trustInit with nvmOp := some (.read 0, 0) } } with ticks := 1999999 }, .read 0, 0,
     by decide +kernel⟩,
   ⟨blank, 0, [1], by decide +kernel, by decide +kernel, by decide +kernel, Laws.nextPage_isSome _ (by decide +kernel)
     (by decide +kernel) (by decide +kernel), Laws.nextPage_first _ (by decide +kernel) (by decide +kernel)
     (by decide +kernel), by decide⟩⟩

theorem test_witness_RailsClocksAndPlls :
    (∃ (s : State) (rail : Fin 8) (x : RailRec) (tr : Transition), railRec s rail.val = some x ∧ x.pgUsed = true ∧ s.power.rise
      = none ∧ s.power.xfer = some tr ∧ (railsToRaise (newDomains s tr) s).contains x = true ∧ railOverdue s (railsToRaise
      (newDomains s tr) s) x (offTime (newDomains s tr) s) tr.start = true ∧ transitionQuiet tr (linkFirst tr s) = true) ∧
    (∃ (s : State) (rail : Fin 8) (x : RailRec) (tr : Transition), railRec s rail.val = some x ∧ s.power.rise = none ∧
      s.power.xfer = some tr ∧ transitionQuiet tr (linkFirst tr s) = false) ∧
    (∃ (s : State) (rail : Fin 8) (x : RailRec) (q : RailRise), railRec s rail.val = some x ∧ x.pgUsed = true ∧ s.power.rise =
      some q ∧ riseOverdue x q s = true ∧ s.mode = 1) ∧
    (∃ (s : State) (rail : Fin 8) (x : RailRec) (q : RailRise), railRec s rail.val = some x ∧ x.pgUsed = true ∧ s.power.rise =
      some q ∧ riseOverdue x q s = true ∧ s.mode ≠ 1 ∧ q.ports = false ∧ s.call.fatals = []) ∧
    (∃ (s : State) (rail : Fin 8) (x : RailRec) (q : RailRise), railRec s rail.val = some x ∧ x.pgUsed = true ∧ s.power.rise =
      some q ∧ riseOverdue x q s = true ∧ s.mode ≠ 1 ∧ q.ports = true) ∧
    (∃ (s : State), (s.fld POWER_RAIL.EN).testBit 0 = true ∧ s.call.fatals = []) ∧
    (∃ (s : State) (rail : Fin 8) (x : RailRec) (d : Nat), (s.fld POWER_RAIL.EN).testBit rail.val = true ∧ rail.val ≠ 0 ∧
      railRec s rail.val = some x ∧ x.follow.testBit d = true ∧ 1 ≤ d ∧ d ≤ 29 ∧ s.call.fatals = []) ∧
    (∃ (s : State) (rail : Fin 8) (x : RailRec), (s.fld POWER_RAIL.EN).testBit rail.val = true ∧ rail.val ≠ 0 ∧ s.power.rails =
      [x] ∧ x.rail = rail.val ∧ x.follow ≠ 0 ∧ x.follow.testBit 0 = false ∧ x.follow < 2 ^ 30 ∧ s.call.fatals = []) ∧
    (∃ (s : State) (rail : Fin 8), (s.fld POWER_RAIL.EN).testBit rail.val = true ∧ rail.val ≠ 0 ∧ railRec s rail.val = none ∧
      s.power.dark = .none ∧ s.flag THERM_STATUS.CURTAIN = false ∧ (s.fld POWER_RAIL.PG).testBit 0 = true ∧ s.flag
      CLOCK_STATUS.REFCLK_OK = true ∧ s.power.supplyLow = false ∧ s.power.warmPin = false ∧ s.power.pllWait = none) ∧
    (∃ (s : State), s.power.dark = .none) ∧
    (∃ (s : State), canRestart { s with power := { s.power with supplyLow := false } } = false) ∧
    (∃ (s : State), canRestart { s with power := { s.power with supplyLow := false } } = true) ∧
    (∃ (s : State) (n : Nat), s.power.aonValid = true ∧ 120 ≤ n ∧ n ≤ 136 ∧ s.flag CLOCK_STATUS.REFCLK_OK = true) ∧
    (∃ (s : State) (n : Nat), s.power.aonValid = true ∧ (n < 120 ∨ 136 < n) ∧ s.power.badRun = 0) ∧
    (∃ (s : State) (n : Nat), s.power.aonValid = true ∧ (n < 120 ∨ 136 < n) ∧ s.power.badRun = 1 ∧ s.flag
      CLOCK_STATUS.REFCLK_OK = true ∧ s.power.dark = .none) ∧
    (∃ (s : State) (n : Nat), s.power.aonValid = true ∧ 120 ≤ n ∧ n ≤ 136 ∧ s.power.goodRun = 781 ∧ s.flag
      CLOCK_STATUS.REFCLK_OK = false ∧ s.power.restart = false) ∧
    (∃ (s : State) (pll : Fin 7), pllLocked s pll.val = true) ∧
    (∃ (s : State) (pll : Fin 7), pllOut s pll.val = true ∧ s.power.pllWait = none) ∧
    (∃ (s : State) (pll : Fin 7), pllOverdue s pll.val = true ∧ s.power.pllWait = none ∧ s.power.dark = .none ∧
      s.power.pllFailAt = none) ∧
    (∃ (s : State) (pll : Fin 7) (k : Nat), pllOverdue s pll.val = true ∧ s.power.pllWait = none ∧ s.power.dark = .none ∧
      s.power.pllFailAt = some k ∧ s.nowNs ≤ k + 60000000000) ∧
    (∃ (s : State) (w : Nat), s.power.pllWait = some w ∧ s.elapsedNs w 1000000 = true ∧ s.power.restart = true ∧ s.power.dark =
      .pll ∧ s.flag THERM_STATUS.CURTAIN = false ∧ s.flag CLOCK_STATUS.REFCLK_OK = true ∧ s.power.supplyLow = false ∧
      s.power.warmPin = false ∧ (s.fld POWER_RAIL.PG).testBit 0 = true) :=
  ⟨⟨{ blank with
       ticks := 400,
       power := { powerInit with rails := [{ railX with follow := 0 }], xfer := some (xferX 6 2 false) } }, 3,
     { railX with follow := 0 }, xferX 6 2 false, by decide +kernel⟩,
   ⟨{ blank with power := { powerInit with rails := [railX], xfer := some (xferX 6 2 true) } }, 3, railX, xferX 6 2 true,
     by decide +kernel⟩,
   ⟨{ { mk [(CUE_STATUS.MODE, 1), (POWER_RAIL.EN, 8)] with power := { powerInit with dark := .none, rails := [railX], rise := some riseX } } with
       ticks := 400 }, 3, railX, riseX, by decide +kernel⟩,
   ⟨{ { mk [(POWER_RAIL.EN, 8)] with power := { powerInit with rails := [railX], rise := some riseX } } with ticks := 400 }, 3,
     railX, riseX, by decide +kernel⟩,
   ⟨{ { mk [(POWER_RAIL.EN, 8), (POWER_STATUS.ON, 2 ^ 6)] with power := { powerInit with rails := [railX], rise := some { riseX with ports := true } } } with
       ticks := 400 }, 3, railX, { riseX with ports := true }, by decide +kernel⟩,
   ⟨mk [(POWER_RAIL.EN, 1)], by decide +kernel⟩,
   ⟨{ mk [(POWER_RAIL.EN, 8), (POWER_STATUS.ON, 2 ^ 29)] with power := { powerInit with rails := [railX] } }, 3, railX, 29,
     by decide +kernel⟩,
   ⟨{ mk [(POWER_RAIL.EN, 9), (POWER_STATUS.ON, 2 ^ 29)] with power := { powerInit with rails := [railX] } }, 3, railX,
     by decide +kernel⟩,
   ⟨{ mk [(POWER_RAIL.EN, 128), (CLOCK_STATUS.REFCLK_OK, 1), (POWER_RAIL.PG, 1)] with
       power := { powerInit with dark := .none } }, 7, by decide +kernel⟩,
   ⟨{ blank with power := { powerInit with dark := .none } }, by decide +kernel⟩,
   ⟨{ blank with power := { powerInit with supplyLow := true } }, by decide +kernel⟩,
   ⟨{ mk [(CLOCK_STATUS.REFCLK_OK, 1), (POWER_RAIL.PG, 1)] with
       power := { powerInit with restart := true, supplyLow := true, dark := .supply } }, by decide +kernel⟩,
   ⟨mk [(CLOCK_STATUS.REFCLK_OK, 1)], 136, by decide +kernel⟩,
   ⟨blank, 137, by decide +kernel⟩,
   ⟨{ mk [(CLOCK_STATUS.REFCLK_OK, 1)] with power := { powerInit with badRun := 1, dark := .none } }, 119, by decide +kernel⟩,
   ⟨{ blank with power := { powerInit with goodRun := 781 } }, 120, by decide +kernel⟩,
   ⟨mk [(CLOCK_STATUS.REFCLK_OK, 1)], 6, by decide +kernel⟩,
   ⟨{ blank with power := { powerInit with unlocked := [(6, 0)] } }, 6, by decide +kernel⟩,
   ⟨{ { blank with power := { powerInit with unlocked := [(0, 1)], dark := .none } } with ticks := 20001 }, 0,
     by decide +kernel⟩,
   ⟨{ { blank with power := { powerInit with unlocked := [(0, 1)], dark := .none, pllFailAt := some 0 } } with
       ticks := 20001,
       time := { sec := 60, ns := 0, frac := 0 } }, 0, 0, by decide +kernel⟩,
   ⟨{ { mk [(CLOCK_STATUS.REFCLK_OK, 1), (POWER_RAIL.PG, 1)] with power := { powerInit with pllWait := some 5, restart := true, dark := .pll } } with
       ticks := 400005 }, 5, by decide +kernel⟩⟩

theorem test_witness_ThermalSamplesAndCurtain :
    (∃ (s : State) (sites : Vector SiteSample 12), s.power.aonValid = true ∧ s.flag THERM_STATUS.CURTAIN = false ∧ (∀ i : Fin
      12, siteReading sites[i] < 1920)) ∧
    (∃ (s : State) (sites : Vector SiteSample 12) (i : Fin 12), s.power.aonValid = true ∧ s.flag THERM_STATUS.CURTAIN = false ∧
      1920 ≤ siteReading sites[i] ∧ s.power.dark = .none ∧ s.trust.jrnlSpent = false) ∧
    (∃ (s : State) (k : Nat), s.power.coolFrom = some k ∧ s.flag THERM_STATUS.CURTAIN = true ∧ s.elapsedNs k 10000000000 = true
      ∧ s.flag THERM_STATUS.HELD = true) ∧
    (∃ (s : State) (k : Nat), s.power.coolFrom = some k ∧ s.flag THERM_STATUS.CURTAIN = true ∧ s.elapsedNs k 10000000000 = true
      ∧ s.flag THERM_STATUS.HELD = false ∧ s.power.restart = true ∧ s.power.dark = .curtain ∧ s.flag CLOCK_STATUS.REFCLK_OK =
      true ∧ s.power.supplyLow = false ∧ s.power.warmPin = false ∧ s.power.pllWait = none) ∧
    (∃ (s : State), s.trust.pressed = false ∧ s.flag THERM_STATUS.HELD = true ∧ s.power.coolDone = false) :=
  ⟨⟨blank, Vector.replicate 12 (siteX 1919), by decide +kernel⟩,
   ⟨{ blank with power := { powerInit with dark := .none } }, Vector.replicate 12 (siteX 1920), 11, by decide +kernel⟩,
   ⟨{ { mk [(THERM_STATUS.CURTAIN, 1), (THERM_STATUS.HELD, 1)] with power := { powerInit with coolFrom := some 0 } } with
       ticks := 4000000000 }, 0, by decide +kernel⟩,
   ⟨{ { mk [(THERM_STATUS.CURTAIN, 1), (CLOCK_STATUS.REFCLK_OK, 1), (POWER_RAIL.PG, 1)] with power := { powerInit with coolFrom := some 0, restart := true, dark := .curtain } } with
       ticks := 4000000000 }, 0, by decide +kernel⟩,
   ⟨mk [(THERM_STATUS.HELD, 1)], by decide +kernel⟩⟩

theorem test_witness_FramesOpenAndClose :
    (∃ (s : State) (port : Fin 4) (vc : Fin 16) (d : Nat) (sd : StreamDesc), portRuns s port = true ∧ s.domainOn (6 + port.val)
      = true ∧ refFor s port vc = refPort s port ∧ findStream s (refPort s port) vc = some (d, sd) ∧ openFrame s (refPort s
      port) d = none ∧ refPort s port < s.ingest.length ∧ s.cue.commit = .idle) ∧
    (∃ (s : State) (port : Fin 4) (vc : Fin 16) (d : Nat) (sd : StreamDesc) (f : OpenFrame), portActive s port = true ∧
      ingestDrops s port vc = false ∧ findStream s (refFor s port vc) vc = some (d, sd) ∧ openFrame s (refFor s port vc) d =
      some f ∧ f.port = refFor s port vc ∧ memberOpen f port = true ∧ (∀ m ∈ f.members, m.port = port.val ∨ m.ended = true ∨
      m.late = true)) :=
  ⟨⟨{ ingS [] with ingest := { ingestInit with valid := [true, false, false, false] } :: List.replicate 3 ingestInit }, 0, 0,
     0, streamDesc blank 0 0, by decide +kernel⟩,
   ⟨ingS [(openX [memX 0 true false])], 0, 1, 1, sdX, (openX [memX 0 true false]), by decide +kernel⟩⟩

theorem test_witness_PacketsEnterTheOpenFrame :
    (∃ (s : State) (port : Fin 4) (vc : Fin 16) (dt : BitVec 6) (d : Nat) (sd : StreamDesc) (f : OpenFrame) (m : Member),
      portActive s port = true ∧ ingestDrops s port vc = false ∧ findStream s (refFor s port vc) vc = some (d, sd) ∧ dt.toNat =
      sd.dt ∧ dt.toNat ≠ 0x12 ∧ openFrame s (refFor s port vc) d = some f ∧ f.port = refFor s port vc ∧ memberOpen f port =
      true ∧ f.members.find? (fun m => m.port == port.val) = some m ∧ m.lines.length < f.memberLines) ∧
    (∃ (s : State) (port : Fin 4) (vc : Fin 16) (dt : BitVec 6) (d : Nat) (sd : StreamDesc) (f : OpenFrame) (m : Member),
      portActive s port = true ∧ ingestDrops s port vc = false ∧ findStream s (refFor s port vc) vc = some (d, sd) ∧ dt.toNat =
      sd.dt ∧ dt.toNat ≠ 0x12 ∧ openFrame s (refFor s port vc) d = some f ∧ f.port = refFor s port vc ∧ memberOpen f port =
      true ∧ f.members.find? (fun m => m.port == port.val) = some m ∧ m.lines.length < f.memberLines) ∧
    (∃ (s : State) (port : Fin 4) (vc : Fin 16) (d : Nat) (sd : StreamDesc) (f : OpenFrame), portActive s port = true ∧
      ingestDrops s port vc = false ∧ findStream s (refFor s port vc) vc = some (d, sd) ∧ openFrame s (refFor s port vc) d =
      some f ∧ f.port = refFor s port vc ∧ memberOpen f port = true ∧ f.emb.length < f.d.embMax) :=
  ⟨⟨ingS [(openX [memX 0 true false])], 0, 1, 0x2B, 1, sdX, (openX [memX 0 true false]), memX 0 true false, by decide +kernel⟩,
   ⟨ingS [(openX [memX 0 true false])], 0, 1, 0x2B, 1, sdX, (openX [memX 0 true false]), memX 0 true false, by decide +kernel⟩,
   ⟨ingS [{ (openX [memX 0 true false]) with emb := [[9]] }], 0, 1, 1, sdX, { (openX [memX 0 true false]) with emb := [[9]] },
     by decide +kernel⟩⟩

theorem test_witness_PacketsIgnoredCountedOrTimedOut :
    (∃ (s : State) (port : Fin 4) (vc : Fin 16) (d : Nat) (sd : StreamDesc) (f : OpenFrame), portActive s port = true ∧
      ingestDrops s port vc = false ∧ findStream s (refFor s port vc) vc = some (d, sd) ∧ openFrame s (refFor s port vc) d =
      some f ∧ memberOpen f port = true) ∧
    (∃ (s : State) (port : Fin 4), portActive s port = true) ∧
    (∃ (s : State) (port : Fin 4) (vc : Fin 16), portActive s port = true ∧ ingestDrops s port vc = false ∧ findStream s
      (refFor s port vc) vc = none) ∧
    (∃ (s : State) (port : Fin 4) (vc : Fin 16) (d : Nat) (sd : StreamDesc), portActive s port = true ∧ ingestDrops s port vc =
      false ∧ findStream s (refFor s port vc) vc = some (d, sd) ∧ openFrame s (refFor s port vc) d = none) ∧
    (∃ (s : State) (port : Fin 4), portActive s port = true) ∧
    (∃ (s : State) (port : Fin 4) (desc : Fin 4) (f : OpenFrame), openFrame s port desc = some f ∧ f.port = port.val ∧
      s.elapsedNs f.since (f.timeoutMs * 1000000) = true) ∧
    (∃ (s : State) (port : Fin 4) (desc : Fin 4) (f : OpenFrame), openFrame s port desc = some f ∧ s.elapsedNs f.since
      (f.timeoutMs * 1000000) = false) ∧
    (∃ (s : State) (port : Fin 4) (desc : Fin 4) (r : Fin 4) (f : OpenFrame) (m : Member), openFrame s r desc = some f ∧ f.port
      = r.val ∧ (∀ q : Fin 4, q ≠ r → openFrame s q desc = none) ∧ f.members.find? (fun m => m.port == port.val) = some m ∧
      m.started = false ∧ m.late = false ∧ s.elapsedNs f.since (f.skewUs * 1000) = true ∧ (∃ n ∈ f.members, n.port ≠ port.val ∧
      n.ended = false ∧ n.late = false)) ∧
    (∃ (s : State) (port : Fin 4), s.domainOn (6 + port.val) = true) ∧
    (∃ (s : State) (port : Fin 4), s.domainOn (6 + port.val) = true) :=
  ⟨⟨ingS [(openX [memX 0 true false])], 0, 1, 1, sdX, (openX [memX 0 true false]), by decide +kernel⟩,
   ⟨ingS [], 0, by decide +kernel⟩,
   ⟨ingS [], 0, 15, by decide +kernel⟩,
   ⟨{ ingS [] with ingest := { ingestInit with valid := [false, false, false, true] } :: List.replicate 3 ingestInit }, 0, 0,
     3, streamDesc blank 0 3, by decide +kernel⟩,
   ⟨ingS [], 0, by decide +kernel⟩,
   ⟨{ ingS [(openX [memX 0 true false])] with ticks := 400000 }, 0, 1, (openX [memX 0 true false]), by decide +kernel⟩,
   ⟨{ ingS [(openX [memX 0 true false])] with ticks := 399999 }, 0, 1, (openX [memX 0 true false]), by decide +kernel⟩,
   ⟨{ ingS [(openX [memX 0 true false, memX 1 false false])] with ticks := 400 }, 1, 1, 0, (openX [memX 0 true false, memX 1
     false false]), memX 1 false false, by decide +kernel⟩,
   ⟨mk ON, 3, by decide +kernel⟩,
   ⟨mk ON, 3, by decide +kernel⟩⟩

theorem test_witness_SensorControlAndSpi :
    (∃ (s : State) (port : Fin 4) (v : Word), s.domainOn (6 + port.val) = true ∧ 1920 ≤ v.toNat % 65536 ∧ v.toNat % 65536 ≤
      32000) ∧
    (∃ (s : State) (port : Fin 4) (v : Word), s.domainOn (6 + port.val) = true ∧ v.getLsbD 16 = true ∧ v.toNat % 65536 < 1920) ∧
    (∃ (s : State) (port : Fin 4), s.domainOn (6 + port.val) = true) ∧
    (∃ (s : State) (port : Fin 4), s.domainOn (6 + port.val) = true ∧ s.flag (INGEST_XTRIG.EN port) = true ∧ s.fld
      (INGEST_XTRIG.SRC port) = 0) ∧
    (∃ (s : State) (port : Fin 4), s.domainOn (6 + port.val) = true ∧ s.flag (INGEST_XTRIG.EN port) = true ∧ s.fld
      (INGEST_XTRIG.SRC port) = 1) ∧
    (∃ (s : State) (p : Nat), p < s.ingest.length ∧ 1 ≤ s.fld (INGEST_XTRIG.WIDTH p) ∧ s.fld (INGEST_XTRIG.WIDTH p) ≤ 1000000 ∧
      (portOf s p).xtrigEnd = none) ∧
    (∃ (s : State) (port : Fin 4), (∀ e, (portOf s port).xtrigEnd = some e → e ≤ s.nowNs)) ∧
    (∃ (s : State) (ctl : Fin 2) (v : Word), s.domainOn (6 + ctl.val) = true ∧ v.getLsbD 31 = true ∧ s.flag
      (INGEST_SPI_STATUS.BUSY ctl) = false ∧ 1 ≤ v.toNat % 128 ∧ v.toNat % 128 ≤ 64 ∧ ctl.val < s.ingest.length) ∧
    (∃ (s : State) (ctl : Fin 2) (rx : List Byte) (cs : Nat) (len : Nat), (spiOf s ctl).job = some (cs, len) ∧ (spiOf s
      ctl).jobRuns = true ∧ len ≤ 64 ∧ rx.length = len) ∧
    (∃ (s : State) (ctl : Fin 2) (off : Nat) (w : Nat) (len : Nat), (spiOf s ctl).script = some off ∧ off + 4 ≤ 4096 ∧ w =
      s.tab 0x04 (4 + ctl.val) off 4 ∧ len = w % 128 ∧ 1 ≤ len ∧ len ≤ 64 ∧ off + 4 + len ≤ 4096) ∧
    (∃ (s : State) (ctl : Fin 2) (off : Nat), (spiOf s ctl).script = some off ∧ off + 4 ≤ 4096 ∧ s.tab 0x04 (4 + ctl.val) off 4
      % 128 = 0 ∧ (spiOf s ctl).scriptDue = false) ∧
    (∃ (s : State) (c : Nat), s.domainOn (6 + c) = false) ∧
    (∃ (t : SpiWire), t.cs < 4) :=
  ⟨⟨mk ON, 3, 0x17D00, by decide +kernel⟩,
   ⟨mk ON, 0, 0x1077F, by decide +kernel⟩,
   ⟨mk ON, 1, by decide +kernel⟩,
   ⟨mk (ON ++ [(INGEST_XTRIG.EN 2, 1), (INGEST_XTRIG.WIDTH 2, 1), (TIME_SCHED_CTRL.EN, 1)]), 2, by decide +kernel⟩,
   ⟨mk (ON ++ [(INGEST_XTRIG.EN 2, 1), (INGEST_XTRIG.SRC 2, 1)]), 2, by decide +kernel⟩,
   ⟨mk [(INGEST_XTRIG.WIDTH 3, 1000000)], 3, by decide +kernel⟩,
   ⟨blank, 0, by decide +kernel⟩,
   ⟨mk ON, 1, 0x80000040, by decide +kernel⟩,
   ⟨spiS (blank) { spiInit with job := some (0, 2), jobRuns := true }, 0, [5, 6], 0, 2, by decide +kernel⟩,
   ⟨spiS (tabS blank 0x04 4 [(0, 64)]) { spiInit with script := some 0 }, 0, 0, 64, 64, by decide +kernel⟩,
   ⟨spiS (blank) { spiInit with script := some 4092 }, 0, 4092, by decide +kernel⟩,
   ⟨blank, 1, by decide +kernel⟩,
   ⟨{ cs := 3, cpol := true, cpha := false, lsbFirst := false, halfNs := 10, bytes := [0x81, 7] }, by decide +kernel⟩⟩

theorem test_witness_PipelineFramesAdvance :
    (∃ (s : State) (p : Nat) (src : PipeSrc), nextBegin s = some p ∧ firstWaiting (pipePort s p) = some src) ∧
    (∃ (s : State) (p : Nat) (j : PipeJob), s.pipe.refresh = none ∧ (∀ q ∈ s.pipe.ports, ∀ i, q.job = some i → i.granted =
      false) ∧ grantPort s = some p ∧ (pipePort s p).job = some j) ∧
    (∃ (s : State) (p : Nat) (j : PipeJob), grantedPort s = some (p, j) ∧ s.pipe.refresh = none ∧ j.ended = false ∧
      slicePoisoned s j = false ∧ j.slice + 1 < sliceCount j.src.d.height) ∧
    (∃ (s : State) (p : Nat) (j : PipeJob), grantedPort s = some (p, j) ∧ s.pipe.refresh = none ∧ slicePoisoned s j = false ∧
      sliceCount j.src.d.height ≤ j.slice + 1) :=
  ⟨⟨pipeS (mk [(POWER_STATUS.ON, 2 ^ 13), (PIPE_CTRL.EN, 1), (PIPE_PORT.EN 0, 1)])
     { pipePortInit with waiting := [{ srcX with fs := 1 }, srcX] }, 0, srcX, by decide +kernel⟩,
   ⟨pipeS (blank) { pipePortInit with job := some (jobX 32 0 false false) }, 0, jobX 32 0 false false, by decide +kernel⟩,
   ⟨pipeS (blank) { pipePortInit with job := some (jobX 32 0 true false) }, 0, jobX 32 0 true false, by decide +kernel⟩,
   ⟨pipeS (blank) { pipePortInit with job := some (jobX 16 0 true false) }, 0, jobX 16 0 true false, by decide +kernel⟩⟩

theorem test_witness_PipelineDetectionsAndCells :
    (∃ (s : State) (p : Nat) (j : PipeJob), grantedPort s = some (p, j) ∧ j.replaying = false ∧ j.spent < ceilDiv (sliceCount
      j.src.d.height) 64) ∧
    (∃ (s : State) (p : Nat) (j : PipeJob), grantedPort s = some (p, j) ∧ j.replaying = true ∧ j.ended = false ∧ s.pipe.refresh
      = none ∧ j.slice + 1 < sliceCount j.src.d.height) ∧
    (∃ (s : State) (p : Nat) (j : PipeJob), grantedPort s = some (p, j) ∧ j.replaying = false ∧ j.spent < ceilDiv (sliceCount
      j.src.d.height) 64) ∧
    (∃ (s : State), (∀ p j, grantedPort s = some (p, j) → j.due = false)) ∧
    (∃ (s : State) (port : Fin 4) (buf : Fin 16) (n : Nat), (pipePort s port).bufs[buf.val]? = some (some n)) ∧
    (∃ (s : State), pipePowered s = true) ∧
    (∃ (s : State), s.domainOn 14 = true) ∧
    (∃ (s : State), s.domainOn 14 = true) :=
  ⟨⟨pipeS (blank) { pipePortInit with job := some (jobX 32 0 true false) }, 0, jobX 32 0 true false, by decide +kernel⟩,
   ⟨pipeS (blank) { pipePortInit with job := some (jobX 32 0 true true) }, 0, jobX 32 0 true true, by decide +kernel⟩,
   ⟨pipeS (blank) { pipePortInit with job := some (jobX 32 0 true false) }, 0, jobX 32 0 true false, by decide +kernel⟩,
   ⟨mk [(PIPE_STATUS.TABLE_REFRESH, 1)], fun _ _ h => nomatch (show (none : Option (Nat × PipeJob)) = some (_, _) from h)⟩,
   ⟨pipeS (blank) { pipePortInit with bufs := [none, some 7] }, 0, 1, 7, by decide +kernel⟩,
   ⟨mk [(POWER_STATUS.ON, 2 ^ 13)], by decide +kernel⟩,
   ⟨mk ON, by decide +kernel⟩,
   ⟨mk ON, by decide +kernel⟩⟩

theorem test_witness_TriggerPinsFollowTheirInputs :
    (∃ (s : State) (pin : Fin 8) (edge : Nat), s.domainOn 28 = true ∧ (pinField s pin edge 0 1).testBit 7 = true ∧ (pinOf s
      pin).held = false ∧ (pinOf s pin).lastEdge = none ∧ pin.val < s.ledger.pins.length ∧ edge + pinFilterNs s pin edge ≤
      s.nowNs ∧ (∀ n : Fin 16, s.flag (CUE_SEL.EN n) = false)) ∧
    (∃ (s : State) (pin : Fin 8) (edge : Nat) (e : Nat), s.domainOn 28 = true ∧ (pinField s pin edge 0 1).testBit 7 = true ∧
      (pinOf s pin).held = false ∧ (pinOf s pin).lastEdge = some e ∧ pin.val < s.ledger.pins.length ∧ edge + pinFilterNs s pin
      edge ≤ s.nowNs ∧ edge < e + min 10000000 (pinField s pin edge 8 4) * 1000) ∧
    (∃ (s : State) (pin : Fin 8) (edge : Nat), s.domainOn 28 = true ∧ (pinField s pin edge 0 1).testBit 7 = true ∧ s.nowNs <
      edge + pinFilterNs s pin edge) ∧
    (∃ (s : State) (pin : Fin 8), (pinOf s pin).held = true ∧ (pinOf s pin).discarded = false ∧ pin.val < s.ledger.pins.length
      ∧ (∀ n : Fin 16, s.flag (CUE_SEL.EN n) = false)) ∧
    (∃ (s : State) (pin : Fin 8), (pinOf s pin).held = true ∧ (pinOf s pin).discarded = false ∧ (pinOf s pin).stuckNs ≠ 0 ∧
      s.elapsedNs (pinOf s pin).since (pinOf s pin).stuckNs = true ∧ (s.fld LEDGER_PIN_STATUS.LEVEL).testBit pin = true) ∧
    (∃ (s : State) (pin : Fin 8), (∀ e, (pinOf s pin).outEnd = some e → e ≤ s.ticks)) :=
  ⟨⟨{ tabS (mk ON) 0x10 0 [(0x70, 0x80)] with time := { sec := 0, ns := 40, frac := 0 } }, 7, 0, by decide +kernel⟩,
   ⟨{ ledS (tabS (mk ON) 0x10 0 [(0x70, 0x80), (0x78, 1)]) { ledgerInit with pins := List.replicate 7 pinInit ++ [{ pinInit with lastEdge := some 5 }] } with
       time := { sec := 0, ns := 9000, frac := 0 } }, 7, 1004, 5, by decide +kernel⟩,
   ⟨tabS (mk (ON ++ [(LEDGER_PINCNT.FILTERED 7, 65535)])) 0x10 0 [(0x70, 0x80)], 7, 1, by decide +kernel⟩,
   ⟨ledS (blank) { ledgerInit with pins := List.replicate 7 pinInit ++ [{ pinInit with held := true }] }, 7, by decide +kernel⟩,
   ⟨{ ledS (mk [(LEDGER_PIN_STATUS.LEVEL, 128)]) { ledgerInit with pins := List.replicate 7 pinInit ++ [{ pinInit with held := true, latch := List.replicate 12 0 ++ [1, 0, 0, 0] }] } with
       ticks := 400000,
       time := { sec := 0, ns := 1000000, frac := 0 } }, 7, by decide +kernel⟩,
   ⟨blank, 7, fun e h => nomatch (show (none : Option Nat) = some e from h)⟩⟩

theorem test_witness_CombinerAndAudit :
    (∃ (s : State) (i : Nat) (k : Fin 4) (n : Fin 16) (l : Nat), s.domainOn 28 = true ∧ s.flag LEDGER_CTRL.TRIG_EN = true ∧
      (outCtrl (readList 0 (s.table 0x10 2) (16 * k) 16)).testBit 7 = true ∧ bits (outCtrl (readList 0 (s.table 0x10 2) (16 *
      k) 16)) 5 4 ≠ 0 ∧ (outTerms (readList 0 (s.table 0x10 2) (16 * k) 16)).testBit n = true ∧ termLiterals s n = [l, 0, 0, 0]
      ∧ litUsed l = true ∧ litEvent l = true ∧ litInput l = i) ∧
    (∃ (s : State) (v : Word), s.call.restart = none ∧ s.domainOn 28 = true ∧ v.getLsbD 8 = false) ∧
    (∃ (s : State) (v : Word), s.call.restart = none ∧ s.domainOn 28 = true ∧ v.getLsbD 8 = true ∧ s.nowNs < swTime s ∧
      s.ledger.sw.getD (v.toNat % 4) none = none) ∧
    (∃ (s : State) (k : Fin 4) (τ : Nat), s.ledger.sw.getD k none = some τ ∧ τ ≤ s.nowNs) ∧
    (∃ (s : State) (p : Placement), startWaits s = false ∧ nextPlacement s = some p ∧ settleEnd s p ≤ s.nowNs) ∧
    (∃ (s : State), secondsAdvanced s = false) ∧
    (∃ (s : State), secondsAdvanced s = true) ∧
    (∃ (s : State), startWaits s = true) ∧
    (∃ (s : State) (n : Nat) (τ : Nat) (f : Frame), s.ledger.toSpill = [n] ∧ frameOf s n = some f ∧ f.settled = true ∧
      f.partner = none ∧ f.finalAt = some τ ∧ s.elapsedNs τ 50000000 = true ∧ s.flag LEDGER_SPILL_SIZE.EN = true ∧
      s.ledger.spillOk = true) ∧
    (∃ (s : State) (p : Fin 4), framesConserved (frameCounters s p) = false ∧ secondsAdvanced s = true) :=
  ⟨⟨{ mk (ON ++ [(LEDGER_CTRL.TRIG_EN, 1)]) with
       cue := { cueInit with tables := [((0x10, 1), [(0x78, 7), (0x79, 0xA0)]), ((0x10, 2), [(0x31, 0x80), (0x32, 0xB0)])] } },
     7, 3, 15, 0xA007, by decide +kernel⟩,
   ⟨mk ON, 3, by decide +kernel⟩,
   ⟨mk (ON ++ [(LEDGER_SWTIME_NS.NS, 1)]), 0x103, by decide +kernel⟩,
   ⟨ledS (blank) { ledgerInit with sw := [none, none, none, some 0] }, 3, 0, by decide +kernel⟩,
   ⟨{ ledS (mk [(LEDGER_TLOG_WR.WR, 15)]) { ledgerInit with placements := [{ out := 0, time := 999999999, cfg := [], ignored := true, hints := [] }] } with
       time := { sec := 1, ns := 2000, frac := 0 } }, { out := 0, time := 999999999, cfg := [], ignored := true, hints := [] },
     by decide +kernel⟩,
   ⟨{ blank with time := { sec := 0, ns := 500, frac := 0 } }, by decide +kernel⟩,
   ⟨blank, by decide +kernel⟩,
   ⟨{ blank with pending := [.frameStart 0 0 7 false] }, by decide +kernel⟩,
   ⟨{ ledS (mk [(LEDGER_SPILL_SIZE.EN, 1)]) { ledgerInit with frames := [{ frX with disp := 1, closed := true, linked := true, finalAt := some 0 }], spillOk := true, toSpill := [7] } with
       ticks := 20000000,
       time := { sec := 0, ns := 50000000, frac := 0 } }, 7, 0,
     { frX with disp := 1, closed := true, linked := true, finalAt := some 0 }, by decide +kernel⟩,
   ⟨ledS (blank) { ledgerInit with seen := [0, 0, 0, 1] }, 3, by decide +kernel⟩⟩

theorem test_witness_CoderAndDecodes :
    (∃ (s : State) (f : Frame) (fs : List Frame), coderWaiting s = f :: fs ∧ rawcOn s = true ∧ s.mag.halted = false ∧ wantsMap
      s (rawcEntry s f.port f.desc) f = false) ∧
    (∃ (s : State) (f : Frame) (fs : List Frame), coderWaiting s = f :: fs ∧ rawcOn s = true ∧ s.mag.halted = false ∧ wantsMap
      s (rawcEntry s f.port f.desc) f = true ∧ usableMap s f.num = none) ∧
    (∃ (s : State) (num : Nat) (id : Nat) (j : CodeJob) (f : Frame), s.rawc.jobs.find? (fun j => j.num == num) = some j ∧
      frameOf s num = some f ∧ id < gridCells f.d.width f.d.height j.cw j.ch ∧ keyGet j.marks id = none ∧ j.budget ≠ 0) ∧
    (∃ (s : State) (num : Nat) (j : CodeJob) (f : Frame), s.rawc.jobs.find? (fun j => j.num == num) = some j ∧ frameOf s num =
      some f) ∧
    (∃ (s : State) (j : CodeJob) (js : List CodeJob) (f : Frame) (k : Nat) (q : MagRecord) (qs : List MagRecord), s.rawc.jobs =
      j :: js ∧ frameOf s j.num = some f ∧ f.slot = some k ∧ f.disp = 7 ∧ f.await = [0] ∧ j.target = none ∧ magRecording s 0 =
      true ∧ (magPort s 0).queue = q :: qs ∧ q.placed = true) ∧
    (∃ (s : State), rawcOn s = true ∧ s.rawc.dec = none ∧ inDram s (decSrc s) (s.fld RAWC_DEC_LEN.BYTES) = true ∧ inDram s
      (decDst s) (s.fld RAWC_DEC_DST_SIZE.BYTES) = true ∧ decSrc s + s.fld RAWC_DEC_LEN.BYTES ≤ decDst s) ∧
    (∃ (s : State), rawcOn s = true ∧ s.rawc.dec ≠ none) ∧
    (∃ (s : State) (d : DecodeJob), s.rawc.dec = some d ∧ s.flag RAWC_DEC_CTRL.PLAY = false) :=
  ⟨⟨rawS (mk ON) [cfX] [], cfX, [], by decide +kernel⟩,
   ⟨{ rawS (mk (ON ++ [(CELL_CTRL.EN, 1)])) [cfX] [] with cue := { cueInit with tables := [((0x14, 0), [(10, 1)])] } }, cfX,
     [], by decide +kernel⟩,
   ⟨rawS blank [cfX] [cjX], 7, 1, cjX, cfX, by decide +kernel⟩,
   ⟨rawS blank [cfX] [cjX], 7, cjX, cfX, by decide +kernel⟩,
   ⟨{ rawS (mk (ON ++ [(MAG_STATUS.STATE 0, 5)])) [{ cfX with slot := some 0 }] [cjX] with
       mag := { magInit with ports := [{ magPortInit with take := some takeX, queue := [recX] }, magPortInit] } }, cjX, [],
     { cfX with slot := some 0 }, 0, recX, [], by decide +kernel⟩,
   ⟨memS (mk (ON ++ [(RAWC_DEC_SRC_HI.ADDR, 8), (RAWC_DEC_LEN.BYTES, 4096), (RAWC_DEC_DST_HI.ADDR, 8), (RAWC_DEC_DST_LO.ADDR,
     1), (RAWC_DEC_DST_SIZE.BYTES, 64)])), by decide +kernel⟩,
   ⟨{ mk ON with rawc := { rawcInit with dec := some { src := 0, len := 0, dst := 0, size := 0 } } }, by decide +kernel⟩,
   ⟨{ blank with rawc := { rawcInit with dec := some { src := 0, len := 4, dst := 64, size := 64 } } },
     { src := 0, len := 4, dst := 64, size := 64 }, by decide +kernel⟩⟩

theorem test_witness_FrameChainAndHashJobs :
    (∃ (s : State) (f : Frame), nextToLink s = some f ∧ f.closed = true ∧ f.rehash = [] ∧ s.domainOn 20 = true ∧ s.hash.active
      = true ∧ s.hash.link2 = s.hash.link) ∧
    (∃ (s : State) (f : Frame), nextToLink s = some f ∧ f.closed = true ∧ f.rehash = [] ∧ s.domainOn 20 = true ∧ s.hash.active
      = false) ∧
    (∃ (s : State) (f : Frame) (u : ChainUpset), nextToLink s = some f ∧ f.closed = true ∧ f.rehash = [] ∧ s.domainOn 20 = true
      ∧ s.hash.active = true ∧ s.hash.link ≠ (upsetChain u s).hash.link2) ∧
    (∃ (s : State) (num : Nat) (k : Fin 64) (f : Frame), frameOf s num = some f ∧ f.hashed = true ∧ f.linked = false ∧ k.val <
      stripeCount f.d.height ∧ f.failMask.testBit k = false ∧ k.val ∉ f.rehash ∧ f.slot ≠ none) ∧
    (∃ (s : State) (num : Nat) (d : List Byte), keyGet s.hash.codedDue num = some d ∧ num ∉ s.hash.codedHit) ∧
    (∃ (s : State) (j : Nat × Nat), s.hash.job = some j ∧ s.hash.jobHit = false) ∧
    (∃ (s : State) (num : Nat) (k : Nat) (stripe : Fin 64) (f : Frame), frameOf s num = some f ∧ stripe.val ∈ f.rehash ∧ f.slot
      = some k ∧ s.poisoned (slotAddr s f.port k + stripe.val * f.d.height / stripeCount f.d.height * f.d.lineBytes)
      (((stripe.val + 1) * f.d.height / stripeCount f.d.height - stripe.val * f.d.height / stripeCount f.d.height) *
      f.d.lineBytes) = false) ∧
    (∃ (s : State) (num : Nat) (d : List Byte), keyGet s.hash.codedDue num = some d) ∧
    (∃ (s : State), s.domainOn 20 = true ∧ s.hash.job = none ∧ s.fld HASH_JOB_LEN.BYTES ≠ 0 ∧ inDram s (s.fld64
      HASH_JOB_SRC_LO.ADDR HASH_JOB_SRC_HI.ADDR) (s.fld HASH_JOB_LEN.BYTES) = true) ∧
    (∃ (s : State) (a : Nat) (n : Nat), s.hash.job = some (a, n)) :=
  ⟨⟨{ rawS (mk ON) [{ frX with hashed := true, closed := true }] [] with hash := { hashInit with active := true } },
     { frX with hashed := true, closed := true }, by decide +kernel⟩,
   ⟨rawS (mk ON) [{ frX with hashed := true, closed := true }] [], { frX with hashed := true, closed := true },
     by decide +kernel⟩,
   ⟨{ rawS (mk ON) [{ frX with hashed := true, closed := true }] [] with
       hash := { hashInit with active := true, link := [1], link2 := [1] } }, { frX with hashed := true, closed := true },
     .link, by decide +kernel⟩,
   ⟨rawS blank [{ frX with hashed := true, closed := true, slot := some 0 }] [], 7, 15,
     { frX with hashed := true, closed := true, slot := some 0 }, by decide +kernel⟩,
   ⟨{ blank with hash := { hashInit with codedDue := [(7, [1])] } }, 7, [1], by decide +kernel⟩,
   ⟨{ blank with hash := { hashInit with job := some (0, 1) } }, (0, 1), by decide +kernel⟩,
   ⟨rawS blank [{ frX with hashed := true, closed := true, slot := some 0, rehash := [15] }] [], 7, 0, 15,
     { frX with hashed := true, closed := true, slot := some 0, rehash := [15] }, by decide +kernel⟩,
   ⟨{ blank with hash := { hashInit with codedDue := [(7, [1])] } }, 7, [1], by decide +kernel⟩,
   ⟨memS (mk (ON ++ [(HASH_JOB_SRC_HI.ADDR, 8), (HASH_JOB_LEN.BYTES, 1)])), by decide +kernel⟩,
   ⟨{ blank with hash := { hashInit with job := some (0, 1) } }, 0, 1, by decide +kernel⟩⟩

theorem test_witness_MagazinePortsTrainAndMount :
    (∃ (s : State) (port : Fin 2), magEnabled s port = true ∧ magState s port = 1 ∧ port.val < s.mag.ports.length) ∧
    (∃ (s : State) (port : Fin 2), magState s port = 2 ∧ (magPort s port).attempts = 0 ∧ port.val < s.mag.ports.length ∧
      s.elapsedNs (magPort s port).trainAt 20000000 = true) ∧
    (∃ (s : State) (port : Fin 2) (c : Instr) (width : Fin 9) (both : Bool), magState s port = 2 ∧ (magPort s port).attempts =
      1 ∨ (magPort s port).attempts = 2 ∧ (c = .magTrainTimeout port ∧ s.elapsedNs (magPort s port).trainAt 100000000 = true) ∨
      (c = .magLinkUp port 0 width both ∧ ((magPort s port).bifur = false ∨ both = true))) ∧
    (∃ (s : State) (port : Fin 2), magState s port = 2 ∧ 3 ≤ (magPort s port).attempts ∧ s.elapsedNs (magPort s port).trainAt
      100000000 = true) ∧
    (∃ (s : State) (port : Fin 2) (gen : Fin 4) (both : Bool), magState s port = 2 ∧ (magPort s port).bifur = false ∨ both =
      true ∧ gen ≠ 0) ∧
    (∃ (s : State) (port : Fin 2), magState s port = 3) ∧
    (∃ (s : State) (port : Fin 2) (d : Magazine) (c : NvmeController), magState s port = 3 ∧ (magPort s port).plan = [] ∧
      (magPort s port).step ≠ 6 ∧ (magPort s port).drive = some d ∧ d.ctrls = [c] ∧ d.media = [] ∧ (magPort s port).bifur =
      false ∧ ctrlOk c = true) ∧
    (∃ (s : State) (port : Fin 2), magState s port = 3 ∧ (magPort s port).plan = [] ∧ (magPort s port).step = 6 ∧ (magPort s
      port).pu < 90 ∧ (magPort s port).crit.testBit 3 = false ∧ port.val < s.mag.ports.length) ∧
    (∃ (s : State) (port : Fin 2), port.val < s.mag.ports.length) ∧
    (∃ (s : State) (port : Fin 2), 3 ≤ magState s port ∧ magState s port ≤ 7) :=
  ⟨⟨mk (ON ++ [(MAG_CFG.EN 1, 1), (MAG_STATUS.STATE 1, 1)]), 1, by decide +kernel⟩,
   ⟨{ mk [(MAG_STATUS.STATE 0, 2)] with ticks := 8000000 }, 0, by decide +kernel⟩,
   ⟨magS (mk [(MAG_STATUS.STATE 0, 2)]) { magPortInit with attempts := 2 }, 0, .magLinkUp 0 0 8 true, 8, true,
     by decide +kernel⟩,
   ⟨{ magS (mk [(MAG_STATUS.STATE 1, 2)]) { magPortInit with attempts := 3 } with ticks := 40000000 }, 1, by decide +kernel⟩,
   ⟨mk [(MAG_STATUS.STATE 0, 2)], 0, 3, false, by decide +kernel⟩,
   ⟨mk [(MAG_STATUS.STATE 0, 3)], 0, by decide +kernel⟩,
   ⟨magS (mk [(MAG_STATUS.STATE 0, 3)]) { magPortInit with drive := some driveX }, 0, driveX, ctrlX, by decide +kernel⟩,
   ⟨magS (mk [(MAG_STATUS.STATE 1, 3)]) { magPortInit with drive := some driveX, step := 6, sb := some sbX }, 1,
     by decide +kernel⟩,
   ⟨blank, 1, by decide +kernel⟩,
   ⟨mk [(MAG_STATUS.STATE 1, 7)], 1, by decide +kernel⟩⟩

theorem test_witness_MagazineCommandsAndTakes :
    (∃ (s : State) (port : Fin 2) (n : Nat) (c : NvmeCmd), (magPort s port).cmds[n]? = some c ∧ c.again = false ∧ cmdIssued s
      port n = true) ∧
    (∃ (s : State) (port : Fin 2) (n : Nat) (c : NvmeCmd), (magPort s port).cmds[n]? = some c ∧ c.again = false ∧ cmdIssued s
      port n = true) ∧
    (∃ (s : State) (port : Fin 2) (c : NvmeCmd) (tk : Take) (r : MagRecord) (q : List MagRecord) (f : Nat), (magPort s
      port).cmds = [c] ∧ c.use = .write ∧ (magPort s port).take = some tk ∧ (magPort s port).queue = r :: q ∧ r.frame = some f
      ∧ r.type = 1 ∧ c.staged = false ∧ cmdIssued s port 0 = true) ∧
    (∃ (s : State) (port : Fin 2) (c : NvmeCmd) (st : MagStage) (nx : MagStage) (l : List MagStage), (magPort s port).cmds =
      [c] ∧ c.staged = true ∧ c.use = .flush ∧ (magPort s port).plan = st :: nx :: l ∧ st.effect = .none) ∧
    (∃ (s : State) (port : Fin 2) (c : NvmeCmd) (st : MagStage), (magPort s port).cmds = [c] ∧ c.staged = true ∧ c.use =
      .metadata ∧ (magPort s port).plan = [st] ∧ st.effect = .closed ∧ magState s port = 5 ∧ port.val < s.mag.ports.length) ∧
    (∃ (s : State) (port : Fin 2), magState s port = 5) ∧
    (∃ (s : State) (port : Fin 2) (r : MagRecord) (q : List MagRecord) (f : Nat), (magPort s port).queue = r :: q ∧ r.frame =
      some f ∧ r.done = true) ∧
    (∃ (s : State), s.domainOn 23 = true ∧ magTakes s 0 = true) ∧
    (∃ (s : State), s.domainOn 23 = true ∧ magTakes s 0 = false ∧ magTakes s 1 = false) :=
  ⟨⟨magS (blank)
     { magPortInit with
       cmds := [{ use := .write, ctrl := 0, lba := 0, blocks := 1, fua := false, again := false, staged := false, data := (0, []) }] },
     0, 0, { use := .write, ctrl := 0, lba := 0, blocks := 1, fua := false, again := false, staged := false, data := (0, []) },
     by decide +kernel⟩,
   ⟨magS (blank)
     { magPortInit with
       cmds := [{ use := .write, ctrl := 0, lba := 0, blocks := 1, fua := false, again := false, staged := false, data := (0, []) }] },
     1, 0, { use := .write, ctrl := 0, lba := 0, blocks := 1, fua := false, again := false, staged := false, data := (0, []) },
     by decide +kernel⟩,
   ⟨magS (blank)
     { magPortInit with
       cmds := [{ use := .write, ctrl := 0, lba := 0, blocks := 1, fua := false, again := false, staged := false, data := (0, []) }],
       take := some takeX,
       queue := [recX] }, 0,
     { use := .write, ctrl := 0, lba := 0, blocks := 1, fua := false, again := false, staged := false, data := (0, []) },
     takeX, recX, [], 7, by decide +kernel⟩,
   ⟨magS (blank)
     { magPortInit with
       cmds := [{ use := .flush, ctrl := 0, lba := 0, blocks := 1, fua := false, again := false, staged := true, data := (0, []) }],
       plan := [{ cmds := [{ use := .flush, ctrl := 0, lba := 0, blocks := 1, fua := false, again := false, staged := true, data := (0, []) }], effect := .none }, { cmds := [{ use := .write, ctrl := 0, lba := 0, blocks := 1, fua := false, again := false, staged := false, data := (0, []) }], effect := .closeEntry }] },
     0, { use := .flush, ctrl := 0, lba := 0, blocks := 1, fua := false, again := false, staged := true, data := (0, []) },
     { cmds := [{ use := .flush, ctrl := 0, lba := 0, blocks := 1, fua := false, again := false, staged := true, data := (0, []) }], effect := .none },
     { cmds := [{ use := .write, ctrl := 0, lba := 0, blocks := 1, fua := false, again := false, staged := false, data := (0, []) }], effect := .closeEntry },
     [], by decide +kernel⟩,
   ⟨magS (mk [(MAG_STATUS.STATE 1, 5)])
     { magPortInit with
       take := some takeX,
       cmds := [{ use := .metadata, ctrl := 0, lba := 0, blocks := 1, fua := false, again := false, staged := true, data := (0, []) }],
       plan := [{ cmds := [{ use := .metadata, ctrl := 0, lba := 0, blocks := 1, fua := false, again := false, staged := true, data := (0, []) }], effect := .closed }] },
     1, { use := .metadata, ctrl := 0, lba := 0, blocks := 1, fua := false, again := false, staged := true, data := (0, []) },
     { cmds := [{ use := .metadata, ctrl := 0, lba := 0, blocks := 1, fua := false, again := false, staged := true, data := (0, []) }], effect := .closed },
     by decide +kernel⟩,
   ⟨magS (mk [(MAG_STATUS.STATE 0, 5)]) { magPortInit with drive := some driveX }, 0, by decide +kernel⟩,
   ⟨{ magS (blank) { magPortInit with queue := [{ recX with done := true }] } with
       ledger := { ledgerInit with frames := [{ frX with await := [0, 2] }] } }, 0, { recX with done := true }, [], 7,
     by decide +kernel⟩,
   ⟨magS (mk ON) { magPortInit with take := some takeX }, by decide +kernel⟩,
   ⟨mk ON, by decide +kernel⟩⟩

theorem test_witness_MagazineOperations :
    (∃ (s : State) (port : Fin 2) (x : Superblock), s.domainOn (23 + port.val) = true ∧ magState s port = 4 ∧ (magPort s
      port).op = none ∧ (magPort s port).sb = some x ∧ port.val < s.mag.ports.length ∧ 1 ≤ s.fld (MAG_OP_LEN.LEN port) ∧ s.fld
      (MAG_OP_LEN.LEN port) ≤ 65536 ∧ magOpAddr s port % 4096 = 0 ∧ inDram s (magOpAddr s port) (4096 * s.fld (MAG_OP_LEN.LEN
      port)) = true ∧ magOpLba s port + s.fld (MAG_OP_LEN.LEN port) ≤ x.total) ∧
    (∃ (s : State) (port : Fin 2) (ty : Fin 16) (q : MagRecord) (qs : List MagRecord), s.domainOn (23 + port.val) = true ∧
      magRecording s port = true ∧ (magPort s port).op = none ∧ 2 ≤ ty.val ∧ ty.val ≤ 4 ∧ 1 ≤ s.fld (MAG_OP_LEN.LEN port) ∧
      s.fld (MAG_OP_LEN.LEN port) ≤ 16777216 ∧ inDram s (magOpAddr s port) (s.fld (MAG_OP_LEN.LEN port)) = true ∧ (magPort s
      port).queue = q :: qs ∧ q.placed = true) ∧
    (∃ (s : State) (port : Fin 2), s.domainOn (23 + port.val) = true ∧ magState s port = 4 ∧ (magPort s port).op = none ∧
      (magPort s port).drive ≠ none ∧ (s.mode = 2 ∨ s.mode = 6) ∧ privilege s = true) ∧
    (∃ (s : State) (port : Fin 2), s.domainOn (23 + port.val) = true ∧ magState s port = 4 ∧ (magPort s port).op = none ∧
      (magPort s port).drive ≠ none ∧ (s.mode = 2 ∨ s.mode = 6) ∧ privilege s = false) ∧
    (∃ (s : State) (port : Fin 2), s.domainOn (23 + port.val) = true ∧ noTake s = true ∧ (magPort s port).op = none ∧ (magPort
      s port).drive ≠ none) ∧
    (∃ (s : State) (port : Fin 2), s.domainOn (23 + port.val) = true ∧ noTake s = true ∧ (magPort s port).op = none ∧ port.val
      < s.mag.ports.length) ∧
    (∃ (s : State) (port : Fin 2) (o : MagOp), s.domainOn (23 + port.val) = true ∧ (magPort s port).op = some o) ∧
    (∃ (s : State) (port : Fin 2) (o : MagOp), (magPort s port).op = some o ∧ (o.op = 1 ∧ (∀ c ∈ (magPort s port).cmds, c.use ≠
      .read)) ∨ ((o.op = 3 ∨ o.op = 5) ∧ (magPort s port).plan = []) ∨ (o.op = 4 ∧ magState s port ≠ 2 ∧ magState s port ≠ 3)) :=
  ⟨⟨memS (magS (mk (ON ++ [(MAG_STATUS.STATE 0, 4), (MAG_OP_LEN.LEN 0, 65536), (MAG_OP_ADDR_HI.ADDR 0, 8)]))
     { magPortInit with sb := some sbX }), 0, sbX, by decide +kernel⟩,
   ⟨memS (magS (mk (ON ++ [(MAG_STATUS.STATE 0, 5), (MAG_OP_LEN.LEN 0, 1), (MAG_OP_ADDR_HI.ADDR 0, 8)]))
     { magPortInit with take := some takeX, queue := [recX] }), 0, 4, recX, [], by decide +kernel⟩,
   ⟨magS (mk (ON ++ [(MAG_STATUS.STATE 1, 4), (CUE_STATUS.MODE, 6), (TRUST_PRESENCE.JMP, 1)]))
     { magPortInit with drive := some driveX }, 1, by decide +kernel⟩,
   ⟨magS (mk (ON ++ [(MAG_STATUS.STATE 1, 4), (CUE_STATUS.MODE, 2)])) { magPortInit with drive := some driveX }, 1,
     by decide +kernel⟩,
   ⟨magS (mk (ON ++ [(MAG_CFG.EN 0, 1)])) { magPortInit with drive := some driveX }, 0, by decide +kernel⟩,
   ⟨mk ON, 1, by decide +kernel⟩,
   ⟨magS (mk ON) { magPortInit with op := some { op := 5, addr := 0, lba := 0, len := 0 } }, 0,
     { op := 5, addr := 0, lba := 0, len := 0 }, by decide +kernel⟩,
   ⟨magS (blank) { magPortInit with op := some { op := 5, addr := 0, lba := 0, len := 0 } }, 1,
     { op := 5, addr := 0, lba := 0, len := 0 }, by decide +kernel⟩⟩

theorem test_witness_EncoderPicturesBegin :
    (∃ (s : State) (e : Fin 2) (o : HeadOut) (w : List HeadOut) (dl : HeadDesc) (dr : HeadDesc), heveGang s = 0 ∧ heveOn s e =
      true ∧ (heveEng s e).bad = false ∧ heveCoding s e = false ∧ (heveEng s e).held = [] ∧ (heveEng s e).waiting = o :: w ∧
      srcDone s o = true ∧ mapWaits s (heveRegs s e) (some o) = false ∧ dl = parseHead (halfDesc s (some o) e) ∧ dr = parseHead
      (halfDesc s none 1) ∧ heveInvalid (heveRegs s e) 0 (heveOn s 1) (dl.ow, dl.oh, dl.format, dl.depth) (dr.ow, dr.oh,
      dr.format, dr.depth) = false) ∧
    (∃ (s : State) (o : HeadOut) (w : List HeadOut) (dl : HeadDesc) (dr : HeadDesc), heveGang s = 2 ∧ (heveEng s 0).bad = false
      ∧ (heveEng s 0).pic = none ∧ (heveEng s 0).held = [] ∧ (heveEng s 0).waiting = o :: w ∧ (heveEng s 1).pic = none ∧
      (heveEng s 1).waiting = [] ∧ srcDone s o = true ∧ mapWaits s (heveRegs s 0) (some o) = false ∧ dl = parseHead (halfDesc s
      (some o) 0) ∧ dr = parseHead (halfDesc s none 1) ∧ heveInvalid (heveRegs s 0) 2 (heveOn s 1) (dl.ow, dl.oh, dl.format,
      dl.depth) (dr.ow, dr.oh, dr.format, dr.depth) = false) ∧
    (∃ (s : State) (e : Fin 2) (o : HeadOut) (w : List HeadOut) (dl : HeadDesc) (dr : HeadDesc), heveGang s = 0 ∧ heveOn s e =
      true ∧ (heveEng s e).bad = false ∧ heveCoding s e = false ∧ (heveEng s e).held = [] ∧ (heveEng s e).waiting = o :: w ∧
      srcDone s o = true ∧ dl = parseHead (halfDesc s (some o) e) ∧ dr = parseHead (halfDesc s none 1) ∧ heveInvalid (heveRegs
      s e) 0 (heveOn s 1) (dl.ow, dl.oh, dl.format, dl.depth) (dr.ow, dr.oh, dr.format, dr.depth) = false) ∧
    (∃ (s : State), heveGang s ≠ 0 ∧ heveCoding s 1 = true) ∧
    (∃ (n : Nat) (x : Nat), x < 2 ^ n) :=
  ⟨⟨{ heveS (memS (mk (ON ++ heveCfg 1 1))) heveInit { heveInit with waiting := [outX 64 64] } with dram := [(7, 1)] }, 1, outX
     64 64, [], parseHead (headX 64 64), parseHead (List.replicate 64 0), by decide +kernel⟩,
   ⟨{ heveS (memS (mk (ON ++ heveCfg 0 2 ++ [(HEVE_CTRL.GANG 0, 2), (HEVE_CTRL.EN 1, 1)]))) { heveInit with waiting := [outX 256 64] } heveInit with
       dram := [(7, 1)],
       cue := { cueInit with tables := [((0x08, 6), writeList 0 [] 0 (headX 256 64))] } }, outX 256 64, [], parseHead (headX
     256 64), parseHead (headX 256 64), by decide +kernel⟩,
   ⟨{ heveS (memS (mk (ON ++ heveCfg 0 1))) { heveInit with waiting := [outX 64 64] } heveInit with dram := [(7, 1)] }, 0, outX
     64 64, [], parseHead (headX 64 64), parseHead (List.replicate 64 0), by decide +kernel⟩,
   ⟨heveS (mk (ON ++ [(HEVE_CTRL.GANG 0, 1), (HEVE_CTRL.EN 0, 1)])) heveInit { heveInit with pic := some (picX 0 []) },
     by decide +kernel⟩,
   ⟨16, 65535, by decide +kernel⟩⟩

theorem test_witness_EncoderSlicesAndOutputRing :
    (∃ (s : State) (e : Fin 2) (bytes : List Byte) (p : HevePic) (a : SlicePlan) (b : SlicePlan) (r : List SlicePlan), (heveEng
      s e).pic = some p ∧ p.slices = a :: b :: r ∧ sliceReady s p a.lastRow = true ∧ (heveEng s e).held = [] ∧ refHit s p =
      false ∧ 8 * bytes.length ≤ sliceRoom s p a) ∧
    (∃ (s : State) (e : Fin 2) (bytes : List Byte) (p : HevePic) (a : SlicePlan) (r : List SlicePlan), (heveEng s e).pic = some
      p ∧ p.slices = a :: r ∧ refHit s p = false ∧ sliceRoom s p a < 8 * bytes.length) ∧
    (∃ (s : State) (e : Fin 2), (heveEng s e).held ≠ []) ∧
    (∃ (p : HevePic) (k : Nat) (i : Nat), p.normal.getD k 0 ≤ i) ∧
    (∃ (s : State) (e : Fin 2) (bytes : List Byte) (p : HevePic) (a : SlicePlan), (heveEng s e).pic = some p ∧ p.slices = [a] ∧
      sliceReady s p a.lastRow = true ∧ (heveEng s e).held = [] ∧ refHit s p = false ∧ 8 * bytes.length ≤ sliceRoom s p a) ∧
    (∃ (s : State) (e : Fin 2) (p : HevePic), ((heveEng s 0).pic.map (fun x => x.gang)).getD 0 = 0 ∧ (heveEng s e).pic = some p
      ∧ p.hits = 0) ∧
    (∃ (s : State) (e : Fin 2) (p : HevePic), ((heveEng s 0).pic.map (fun x => x.gang)).getD 0 = 0 ∧ (heveEng s e).pic = some p
      ∧ p.hits = 1) ∧
    (∃ (s : State) (e : Fin 2) (v : Word), s.domainOn (17 + e.val) = true ∧ netRingTaken s e = false ∧ (s.fld (HEVE_OUT_WR.WR
      e) + 2 ^ 32 - v.toNat) % 2 ^ 32 ≤ heveRing s e ∧ (heveEng s e).held = []) ∧
    (∃ (s : State) (e : Fin 2) (v : Word), s.domainOn (17 + e.val) = true ∧ (netRingTaken s e = true ∨ heveRing s e < (s.fld
      (HEVE_OUT_WR.WR e) + 2 ^ 32 - v.toNat) % 2 ^ 32)) :=
  ⟨⟨heveS blank heveInit { heveInit with pic := some (picX 0 [slX, slX]) }, 1, [1, 2], picX 0 [slX, slX], slX, slX, [],
     by decide +kernel⟩,
   ⟨heveS blank { heveInit with pic := some (picX 0 [slX]) } heveInit, 0, List.replicate 2000 0, picX 0 [slX], slX, [],
     by decide +kernel⟩,
   ⟨heveS blank heveInit { heveInit with held := [{ header := [], bytes := [] }] }, 1, by decide +kernel⟩,
   ⟨{ picX 0 [] with normal := [3] }, 0, 3, by decide +kernel⟩,
   ⟨heveS blank { heveInit with pic := some (picX 0 [slX]) } heveInit, 0, [1, 2], picX 0 [slX], slX, by decide +kernel⟩,
   ⟨heveS blank heveInit { heveInit with pic := some (picX 0 [slX]) }, 1, picX 0 [slX], by decide +kernel⟩,
   ⟨heveS blank { heveInit with pic := some (picX 1 [slX]) } heveInit, 0, picX 1 [slX], by decide +kernel⟩,
   ⟨mk (ON ++ [(HEVE_OUT_WR.WR 0, 16384)]), 0, 0, by decide +kernel⟩,
   ⟨mk (ON ++ [(HEVE_OUT_WR.WR 1, 16385)]), 1, 0, by decide +kernel⟩⟩

theorem test_witness_DecoderRingBuffersAndFifo :
    (∃ (s : State) (v : Word), s.domainOn 19 = true ∧ (v.toNat + 2 ^ 32 - s.fld HEVD_IN_RD.RD) % 2 ^ 32 ≤ hevdEntries s) ∧
    (∃ (s : State) (v : Word), s.domainOn 19 = true ∧ hevdEntries s < (v.toNat + 2 ^ 32 - s.fld HEVD_IN_RD.RD) % 2 ^ 32) ∧
    (∃ (s : State), s.domainOn 19 = true ∧ s.flag HEVD_STATUS.BUSY = true ∧ inDram s (hevdEntry s) 32 = true ∧ s.fld
      DRAM_MAP.FENCED = 0 ∧ s.mem.trnOp = none ∧ s.fld HEVD_IN_WR.WR = (s.fld HEVD_IN_RD.RD + 1) % 2 ^ 32) ∧
    (∃ (s : State) (sps : SpsInfo) (ch : Nat) (dp : Nat) (w : Nat) (h : Nat) (dpb : Nat) (bufs : List HevdBuf), s.domainOn 19 =
      true ∧ s.flag HEVD_STATUS.BUSY = true ∧ hevdSpent s = true ∧ hevdSupported sps ch dp w h = true ∧ 256 + hevdPitch w * (h
      + hevdChroma ch h) ≤ s.fld HEVD_OUT_STRIDE.BYTES ∧ dpb + 1 ≤ hevdCount s ∧ s.hevd.bufs = hevdBufFree :: bufs) ∧
    (∃ (s : State), hevdSpent s = false) ∧
    (∃ (s : State) (sps : SpsInfo) (ch : Nat) (dp : Nat) (w : Nat) (h : Nat), s.domainOn 19 = true ∧ s.flag HEVD_STATUS.BUSY =
      true ∧ hevdSupported sps ch dp w h = false) ∧
    (∃ (s : State) (k : Nat) (r : List Nat), s.domainOn 19 = true ∧ s.hevd.fifo = k :: r) ∧
    (∃ (s : State) (k : Fin 32) (b : HevdBuf), s.domainOn 19 = true ∧ s.hevd.bufs[k.val]? = some b ∧ b.out = true ∧ k.val ∉
      s.hevd.fifo) ∧
    (∃ (s : State), s.domainOn 19 = true) :=
  ⟨⟨mk ON, 16, by decide +kernel⟩,
   ⟨mk ON, 17, by decide +kernel⟩,
   ⟨memS (mk (ON ++ [(HEVD_STATUS.BUSY, 1), (HEVD_IN_BASE_HI.ADDR, 8), (HEVD_IN_WR.WR, 1)])), by decide +kernel⟩,
   ⟨{ memS (mk (ON ++ [(HEVD_STATUS.BUSY, 1), (HEVD_OUT_STRIDE.BYTES, 8448)])) with
       ticks := 400,
       hevd := { hevdInit with bufs := [hevdBufFree, hevdBufFree] } }, spsX, 0, 8, 16, 64, 1, [hevdBufFree], by decide +kernel⟩,
   ⟨{ blank with ticks := 399 }, by decide +kernel⟩,
   ⟨mk (ON ++ [(HEVD_STATUS.BUSY, 1)]), { spsX with level := 186 }, 0, 8, 16, 64, by decide +kernel⟩,
   ⟨{ mk ON with hevd := { hevdInit with fifo := [31] } }, 31, [], by decide +kernel⟩,
   ⟨{ mk ON with hevd := { hevdInit with bufs := [{ hevdBufFree with out := true }] } }, 0, { hevdBufFree with out := true },
     by decide +kernel⟩,
   ⟨mk ON, by decide +kernel⟩⟩

theorem test_witness_DramDetectionsAndUpkeep :
    (∃ (s : State) (b : Nat), 64 * b < dramSize s ∧ dramBlocked s (64 * b) = false ∧ b ∈ s.mem.poison) ∧
    (∃ (s : State) (b : Nat), 64 * b < dramSize s ∧ dramBlocked s (64 * b) = false ∧ b ∉ s.mem.poison ∧ b ∉ s.mem.bad) ∧
    (∃ (s : State) (b : Nat), 64 * b < dramSize s ∧ dramBlocked s (64 * b) = false ∧ b ∉ s.mem.poison ∧ b ∉ s.mem.bad) ∧
    (∃ (s : State) (b : Nat), 64 * b < dramSize s ∧ dramBlocked s (64 * b) = false ∧ b ∉ s.mem.poison ∧ b ∈ s.mem.bad) ∧
    (∃ (s : State) (c : Fin 4) (addr : ReadAccess) (o : Nat), busTarget s (.company c) addr.addr.toNat (readBytes addr.size) =
      .dram o ∧ dramBlocked s (64 * (o / 64)) = false ∧ o / 64 ∈ s.mem.poison) ∧
    (∃ (s : State) (b : Nat), dramBlocked s (64 * b) = true) ∧
    (∃ (s : State) (a : Nat) (bs : List Byte), bs ≠ [] ∧ a % 256 + bs.length ≤ 256 ∧ dramTraining s a = true ∧ dramFenced s a =
      false) ∧
    (∃ (s : State) (b : Nat) (bs : List Byte), bs.length = 64 ∧ dramBlocked s (64 * b) = false) ∧
    (∃ (s : State) (a : Nat) (bs : List Byte), bs ≠ [] ∧ a % 64 + bs.length < 64 ∧ dramBlocked s (64 * (a / 64)) = false ∧ a /
      64 ∉ s.mem.poison ∧ a / 64 ∈ s.mem.bad) ∧
    (∃ (s : State) (b : Nat), 64 * b < dramSize s ∧ dramBlocked s (64 * b) = false ∧ codeHeld s b = true) ∧
    (∃ (s : State) (p : Fin 8) (l : Nat), s.pending = [] ∧ s.clock.next = [] ∧ s.mem.panicAt.length = 8 ∧ panicSince s p.val =
      none ∧ panicLevel s p.val = some l ∧ panicFrom p.val l (fifoOcc s p.val) = true) ∧
    (∃ (s : State) (p : Fin 8) (l : Nat) (k : Nat), s.pending = [] ∧ s.clock.next = [] ∧ s.mem.panicAt.length = 8 ∧ panicSince
      s p.val = some k ∧ panicLevel s p.val = some l ∧ panicOver p.val l (fifoOcc s p.val) = true) ∧
    (∃ (drift : List Int) (delay : Nat) (d : Int), drift[delay]? = some d ∧ d ≠ 0) :=
  ⟨⟨{ blank with mem := { dramInit with committed := true, poison := [0] } }, 0, by decide +kernel⟩,
   ⟨memS blank, 251658239, by decide +kernel⟩,
   ⟨memS blank, 0, by decide +kernel⟩,
   ⟨{ blank with mem := { dramInit with committed := true, bad := [5] } }, 5, by decide +kernel⟩,
   ⟨{ blank with mem := { dramInit with committed := true, poison := [7] } }, 3, ⟨0x8000001C3, .byte⟩, 451, by decide +kernel⟩,
   ⟨{ mk [(DRAM_MAP.FENCED, 1)] with mem := { dramInit with committed := true, retired := [] } }, 0, by decide +kernel⟩,
   ⟨{ blank with mem := { dramInit with committed := true, trnOp := some 7, trnCh := 1 } }, 5, [1, 2], by decide +kernel⟩,
   ⟨{ blank with mem := { dramInit with committed := true, bad := [1], poison := [1] } }, 1, List.replicate 64 7,
     by decide +kernel⟩,
   ⟨{ blank with mem := { dramInit with committed := true, bad := [2] } }, 129, [5, 6], by decide +kernel⟩,
   ⟨{ blank with mem := { dramInit with committed := true, codeBuf := [(9, 2)] } }, 10, by decide +kernel⟩,
   ⟨{ tabS (mk ON) 0x28 0 [(3, 0x80)] with mem := { dramInit with committed := true, portOk := List.replicate 8 true } }, 0, 0,
     rfl, rfl, rfl, rfl, by decide +kernel, by simp [panicFrom]⟩,
   ⟨{ { tabS (mk ON) 0x28 0 [(0, 0xFF), (1, 0xFF), (3, 0x80)] with mem := { dramInit with committed := true, portOk := List.replicate 8 true, panicAt := some 0 :: List.replicate 7 none } } with
       ticks := 800 }, 0, 65535, 0, rfl, rfl, rfl, rfl, by decide +kernel, by simp [panicOver, fifoOcc, fifoSize]⟩,
   ⟨[0, -9], 1, -9, by decide +kernel⟩⟩

theorem test_witness_DramMapAndTraining :
    (∃ (s : State) (o : Nat) (p : DramPlace), o < dramCc s ∧ p = dramPlace s o) ∧
    (∃ (s : State) (retire : BitVec 4), s.mem.committed = false ∧ s.fld DRAM_CFG.RATE ≤ 5 ∧ s.fld DRAM_CFG.DENSITY ≤ 2 ∧ s.fld
      DRAM_MAP.RETIRE ||| retire.toNat ∈ [0, 1, 2, 4, 8]) ∧
    (∃ (s : State), s.mem.committed = true) ∧
    (∃ (s : State), s.mem.committed = true) ∧
    (∃ (s : State) (retire : BitVec 4), s.mem.committed = false ∧ retire ≠ 0) ∧
    (∃ (s : State) (g : Fin 4), s.mem.committed = true ∧ s.mode = 6 ∧ (s.fld DRAM_MAP.FENCED = 0 ∨ s.fld DRAM_MAP.FENCED = 2 ^
      g.val) ∧ g.val ∉ s.mem.retired) ∧
    (∃ (s : State) (rank : Fin 2) (ch : BitVec 16) (c : Instr) (op : Nat), s.domainOn 21 = true ∧ s.mem.trnOp = none ∧
      trnAllowed s = true ∧ s.fld DRAM_TRN_RESULT.ADDR % 64 = 0 ∧ 0x01000000 ≤ s.fld DRAM_TRN_RESULT.ADDR ∧ s.fld
      DRAM_TRN_RESULT.ADDR + 512 ≤ 0x01800000 ∧ (c, op) ∈ [(Instr.init rank ch, 1), (.mrw rank ch, 2), (.mrr rank ch, 3), (.ca
      rank ch, 4), (.wck2ck rank ch, 5), (.wlev rank ch, 6), (.rdq rank ch, 7), (.wdq rank ch, 8), (.verify rank ch, 9)]) ∧
    (∃ (s : State) (op : Nat), s.domainOn 21 = true ∧ s.mem.trnOp = some op) ∧
    (∃ (s : State) (op : Nat), s.mem.trnOp = some op ∧ s.mem.trnCh < 2 ^ 16 ∧ 4 ≤ op) ∧
    (∃ (s : State) (records : List TrnRecord) (c : Fin 16) (r : TrnRecord), s.mem.trnOp = some 3 ∧ s.mem.trnCh = 2 ^ c.val ∧
      records[c.val]? = some r ∧ keyGet s.mem.modeRegs (trnRegister c s) = none) ∧
    (∃ (s : State) (op : Nat) (w : HeldWrite), s.mem.trnOp = some op ∧ op ≠ 9 ∧ s.mem.held = [w] ∧ w.poison = false ∧ s.fld
      DRAM_MAP.FENCED = 0) :=
  ⟨⟨memS blank, 0x3FFFFC0, dramPlace (memS blank) 0x3FFFFC0, by decide +kernel⟩,
   ⟨mk [(DRAM_CFG.RATE, 5), (DRAM_CFG.DENSITY, 2)], 8, by decide +kernel⟩,
   ⟨memS blank, by decide +kernel⟩,
   ⟨memS blank, by decide +kernel⟩,
   ⟨blank, 8, by decide +kernel⟩,
   ⟨memS (mk [(CUE_STATUS.MODE, 6)]), 3, by decide +kernel⟩,
   ⟨mk (ON ++ [(CUE_STATUS.MODE, 1), (DRAM_TRN_RESULT.ADDR, 0x017FFE00)]), 1, 0xFFFF, .wdq 1 0xFFFF, 8, by decide +kernel⟩,
   ⟨{ mk ON with mem := { dramInit with trnOp := some 3 } }, 3, by decide +kernel⟩,
   ⟨{ blank with
       mem := { dramInit with trnOp := some 8, trnCh := 0x8001, trnArgs := { rank := 0, arg := 0x03814400, addr := 0x01000040, val := 0 } } },
     8, by decide +kernel⟩,
   ⟨{ blank with mem := { dramInit with trnOp := some 3, trnCh := 8 } }, [trnNone, trnNone, trnNone, { trnNone with mr := 7 }],
     3, { trnNone with mr := 7 }, by decide +kernel⟩,
   ⟨{ blank with
       mem := { dramInit with committed := true, trnOp := some 8, held := [{ at_ := 254, bytes := [7, 8], poison := false }] } },
     8, { at_ := 254, bytes := [7, 8], poison := false }, by decide +kernel⟩⟩

theorem test_witness_LanesLockAndLoop :
    (∃ (s : State) (l : Fin 26), laneLive s l = true ∧ laneHasLock s l = false ∧ laneRetired s l = false) ∧
    (∃ (s : State) (l : Fin 26), laneRuns s l = true ∧ laneHasLock s l = true ∧ s.flag (LANE_STATUS.RX_SLEEP l) = false ∧ l.val
      < s.serial.lanes.length ∧ 16 ≤ l.val ∧ (l.val < 24 → kUp s ((l.val - 16) / 4) = false) ∧ (24 ≤ l.val → netUp s (l.val -
      24) = false)) ∧
    (∃ (s : State) (l : Fin 26), l.val < 16 ∧ laneRuns s l = true ∧ laneHasLock s l = true ∧ magState s (l.val / 8) ≠ 2 ∧
      s.flag (LANE_STATUS.RX_SLEEP l) = false) ∧
    (∃ (s : State) (l : Fin 26) (τ : Nat), laneLive s l = true ∧ laneHasLock s l = false ∧ laneRetired s l = false ∧ s.flag
      (LANE_STATUS.RX_SLEEP l) = false ∧ (laneOf s l).huntAt = some τ ∧ s.elapsedNs τ (max 1 (s.fld LANE_COMMON_LOCK_TO.US) *
      1000) = true) ∧
    (∃ (s : State) (l : Fin 26) (v : Word), laneOn s l = true ∧ loopAllowed s l = true ∧ bits v.toNat 18 16 ∈ [1, 2, 3]) ∧
    (∃ (s : State) (l : Fin 26) (v : Word), laneOn s l = true ∧ loopAllowed s l = false ∧ bits v.toNat 18 16 ≠ 0) ∧
    (∃ (s : State) (l : Fin 26), laneOn s l = true ∧ s.fld (LANE_STATUS.LOOP l) ≠ 0) ∧
    (∃ (s : State) (l : Fin 26), laneOn s l = true ∧ laneRuns s l = true ∧ s.fld (LANE_STATUS.LOOP l) ≠ 0 ∧ (l.val < 16 →
      magState s (l.val / 8) ∉ [3, 4, 5, 6, 7, 9]) ∧ (16 ≤ l.val → l.val < 24 → kUp s ((l.val - 16) / 4) = false) ∧ (24 ≤ l.val
      → netUp s (l.val - 24) = false)) ∧
    (∃ (s : State) (l : Fin 26), laneOn s l = true) :=
  ⟨⟨blank, 25, by decide +kernel⟩,
   ⟨mk (ON ++ [(LANE_STATUS.LOCK 16, 1)]), 16, by decide +kernel⟩,
   ⟨mk (ON ++ [(LANE_STATUS.LOCK 15, 1)]), 15, by decide +kernel⟩,
   ⟨{ laneS (blank) { laneInit with huntAt := some 0 } with ticks := 400 }, 0, 0, by decide +kernel⟩,
   ⟨mk ON, 24, 0x10000, by decide +kernel⟩,
   ⟨mk (ON ++ [(CUE_STATUS.MODE, 2), (NET_STATUS.LINK 1, 1)]), 25, 0x30000, by decide +kernel⟩,
   ⟨mk (ON ++ [(LANE_STATUS.LOOP 25, 2), (NET_STATUS.LINK 1, 1), (LANE_STATUS.LOCK 25, 1)]), 25, by decide +kernel⟩,
   ⟨mk (ON ++ [(LANE_STATUS.LOOP 25, 2)]), 25, by decide +kernel⟩,
   ⟨mk ON, 0, by decide +kernel⟩⟩

theorem test_witness_LanesSleepAndWake :
    (∃ (s : State) (l : Fin 26), maySleep s l = true ∧ s.serial.lanes.length = 26) ∧
    (∃ (s : State) (l : Fin 26), l.val < 24 ∧ laneRuns s l = true ∧ laneHasLock s l = true) ∧
    (∃ (s : State) (l : Fin 26) (c : Instr), s.serial.lanes.length = 26 ∧ idleOver s l = true ∧ (c = .laneWake l ∧ s.flag
      (LANE_STATUS.TX_SLEEP l) = true) ∨ (c = .laneWakeHoldEnd l ∧ (laneOf s l).wakeHeld = true)) ∧
    (∃ (s : State) (l : Fin 26), s.serial.lanes.length = 26 ∧ s.flag (LANE_STATUS.TX_SLEEP l) = true ∧ idleOver s l = false) ∧
    (∃ (s : State) (l : Fin 26), s.flag (LANE_STATUS.RX_SLEEP l) = true ∧ 16 ≤ l.val ∧ l.val < s.serial.lanes.length) ∧
    (∃ (s : State) (l : Fin 26), s.flag (LANE_STATUS.RX_SLEEP l) = true ∧ l.val < 16) ∧
    (∃ (s : State) (l : Fin 26) (τ : Nat), 16 ≤ l.val ∧ l.val < 24 ∧ kUp s ((l.val - 16) / 4) = false ∧ (laneOf s l).signalAt =
      some τ ∧ s.elapsedNs τ 1000 = true ∧ laneHasLock s l = false) :=
  ⟨⟨{ mk [(KLINK_STATUS.STATE0, 3), (LANE_CFG.SLEEP_EN 16, 1), (LANE_CFG.SLEEP_EN 17, 1), (LANE_CFG.SLEEP_EN 18, 1), (LANE_CFG.SLEEP_EN 19, 1)] with
       ticks := 400 }, 19, by decide +kernel⟩,
   ⟨mk (ON ++ [(LANE_STATUS.LOCK 23, 1)]), 23, by decide +kernel⟩,
   ⟨{ laneS (mk [(LANE_STATUS.TX_SLEEP 16, 1)]) { laneInit with sleepAt := some 0 } with ticks := 40 }, 16, .laneWake 16,
     by decide +kernel⟩,
   ⟨{ laneS (mk [(LANE_STATUS.TX_SLEEP 16, 1)]) { laneInit with sleepAt := some 0 } with ticks := 39 }, 16, by decide +kernel⟩,
   ⟨mk [(LANE_STATUS.RX_SLEEP 16, 1)], 16, by decide +kernel⟩,
   ⟨mk [(LANE_STATUS.RX_SLEEP 15, 1)], 15, by decide +kernel⟩,
   ⟨{ laneS (blank) { laneInit with signalAt := some 0 } with ticks := 400 }, 23, 0, by decide +kernel⟩⟩

theorem test_witness_LanesAdaptAndEqualise :
    (∃ (s : State) (l : Fin 26), laneOn s l = true ∧ laneRuns s l = true) ∧
    (∃ (s : State) (l : Fin 26), laneOn s l = true ∧ laneRuns s l = false ∧ s.fld (LANE_LOOP.CHK l) ∈ [1, 2, 3, 4]) ∧
    (∃ (s : State) (l : Fin 26) (fom : Fin 256), laneOn s l = true ∧ laneRuns s l = true ∧ laneHasLock s l = true ∧ s.flag
      (LANE_STATUS.RX_SLEEP l) = false ∧ l.val < s.serial.lanes.length ∧ fom.val < fomFloor s l (laneTable s l) ∧ (laneOf s
      l).low = true) ∧
    (∃ (s : State) (l : Fin 26) (fom : Fin 256), laneOn s l = true ∧ laneRuns s l = true ∧ laneHasLock s l = true ∧ s.flag
      (LANE_STATUS.RX_SLEEP l) = false ∧ l.val < s.serial.lanes.length ∧ fomFloor s l (laneTable s l) ≤ fom.val ∧ s.flag
      (LANE_CFG.ADAPT_EN l) = true ∧ (laneOf s l).holdoff = none) ∧
    (∃ (x : Lane), (∀ m ∈ x.moved, -3 ≤ m ∧ m ≤ 3)) ∧
    (∃ (x : Lane) (k : Nat) (fom : Nat), x.trial = some k ∧ k < x.moved.length ∧ k < x.up.length ∧ fom ≤ x.lastFom) ∧
    (∃ (s : State) (l : Fin 26) (rate : Fin 3) (fom : Fin 256) (r : LaneRec), l.val < 16 ∧ s.domainOn (laneDomain l) = true ∧
      l.val < s.serial.lanes.length ∧ r = (laneRecord s l rate).getD (laneDefault l rate) ∧ (laneOf s l).preset.isSome = true ∧
      fomFloor s l r ≤ fom.val) ∧
    (∃ (s : State) (l : Fin 26) (rate : Fin 3) (fom : Fin 256) (r : LaneRec), l.val < 16 ∧ s.domainOn (laneDomain l) = true ∧
      l.val < s.serial.lanes.length ∧ r = (laneRecord s l rate).getD (laneDefault l rate) ∧ (laneOf s l).preset = none ∧
      (laneOf s l).eq.length = r.alts.length ∧ fom.val < fomFloor s l r) :=
  ⟨⟨mk ON, 25, by decide +kernel⟩,
   ⟨mk (ON ++ [(LANE_STATUS.RATE 3, 15), (LANE_LOOP.CHK 3, 4)]), 3, by decide +kernel⟩,
   ⟨laneS (mk (ON ++ [(LANE_STATUS.LOCK 0, 1), (LANE_CFG.FOM_FLOOR 0, 1)])) { laneInit with low := true }, 0, 0,
     by decide +kernel⟩,
   ⟨mk (ON ++ [(LANE_STATUS.LOCK 0, 1), (LANE_CFG.ADAPT_EN 0, 1)]), 0, 0, by decide +kernel⟩,
   ⟨{ laneInit with moved := [3, -3, 0, 0, 0, 0] }, by decide +kernel⟩,
   ⟨{ laneInit with trial := some 5, lastFom := 9 }, 5, 9, by decide +kernel⟩,
   ⟨laneS (mk ON) { laneInit with preset := some 7 }, 15, 2, 0, laneDefault 15 2, by decide +kernel⟩,
   ⟨{ mk (ON ++ [(LANE_CFG.FOM_FLOOR 0, 9)]) with serial := { serialInit with lanes := List.replicate 26 laneInit } }, 0, 2, 8,
     laneDefault 0 2, by decide +kernel⟩⟩

theorem test_witness_EthernetLinksRingsAndFrames :
    (∃ (s : State) (p : Fin 2), netOn s p = true ∧ netUp s p = false ∧ s.flag (LANE_STATUS.LOCK (ethLane p)) = true) ∧
    (∃ (s : State) (p : Fin 2), netUp s p = true) ∧
    (∃ (s : State) (p : Fin 2) (rx : Bool) (v : Word), s.domainOn 26 = true ∧ s.mode ≠ 7 ∧ (v.toNat + 2 ^ 32 - s.fld (if rx
      then NET_RX_RD.RD p else NET_TX_RD.RD p)) % 2 ^ 32 ≤ netRingSize s p rx) ∧
    (∃ (s : State) (p : Fin 2) (rx : Bool) (v : Word), s.domainOn 26 = true ∧ s.mode ≠ 7 ∧ netRingSize s p rx < (v.toNat + 2 ^
      32 - s.fld (if rx then NET_RX_RD.RD p else NET_TX_RD.RD p)) % 2 ^ 32) ∧
    (∃ (s : State) (p : Fin 2), s.domainOn 26 = true ∧ s.mode ≠ 7 ∧ netEntryWaits s p false = true ∧ netUp s p = false ∧ inMem
      s (netEntryAt s p false + 0x10) 8 = true ∧ s.fld DRAM_MAP.FENCED = 0 ∧ s.mem.trnOp = none) ∧
    (∃ (s : State) (p : Fin 2) (e : List Byte), s.domainOn 26 = true ∧ s.mode ≠ 7 ∧ netEntryWaits s p false = true ∧ netUp s p
      = true ∧ netHostTurn s p = true ∧ netNearLoop s p = false ∧ netReplaced s p = false ∧ e = s.memBytes (netEntryAt s p
      false) 32 ∧ leAt e 10 2 = 0 ∧ 14 ≤ leAt e 8 2 ∧ leAt e 8 2 ≤ clamp 1514 9216 (s.fld (NET_CFG.MAXLEN p)) ∧ p.val <
      s.net.ports.length ∧ inMem s (netEntryAt s p false + 0x10) 8 = true ∧ s.fld DRAM_MAP.FENCED = 0 ∧ s.mem.trnOp = none) ∧
    (∃ (s : State) (p : Fin 2) (own : List Byte) (rest : List (List Byte)), netOn s p = true ∧ netUp s p = true ∧ s.mode ≠ 7 ∧
      netNearLoop s p = true ∧ (netPort s p).looped = own :: rest) ∧
    (∃ (s : State) (p : Fin 2), netOn s p = true ∧ netUp s p = true ∧ s.mode ≠ 7 ∧ s.fld (LANE_STATUS.LOOP (ethLane p)) = 0 ∧
      p.val < s.net.ports.length) ∧
    (∃ (s : State) (p : Fin 2) (bytes : List Byte) (e : List Byte), netOn s p = true ∧ netUp s p = true ∧ s.mode ≠ 7 ∧ s.fld
      (LANE_STATUS.LOOP (ethLane p)) = 0 ∧ netDiscard p bytes true s = none ∧ etherType bytes ≠ 0x88B5 ∧ netEntryWaits s p true
      = true ∧ e = s.memBytes (netEntryAt s p true) 32 ∧ inMem s (netEntryAt s p true + 0x10) 8 = true ∧ s.fld DRAM_MAP.FENCED
      = 0 ∧ s.mem.trnOp = none ∧ inMem s (leAt e 0 8) (bytes.take (leAt e 8 2)).length = true ∧ (leAt e 0 8 + leAt e 8 2 ≤
      netEntryAt s p true + 0x10 ∨ netEntryAt s p true + 0x18 ≤ leAt e 0 8)) ∧
    (∃ (s : State) (p : Fin 2) (bytes : List Byte), netOn s p = true ∧ netUp s p = true ∧ s.mode ≠ 7 ∧ s.fld (LANE_STATUS.LOOP
      (ethLane p)) = 0 ∧ netDiscard p bytes true s = none ∧ etherType bytes ≠ 0x88B5 ∧ netEntryWaits s p true = false ∧ p.val <
      s.net.ports.length) :=
  ⟨⟨mk (ON ++ [(NET_CFG.EN 1, 1), (LANE_STATUS.LOCK 25, 1)]), 1, by decide +kernel⟩,
   ⟨mk (ON ++ [(NET_STATUS.LINK 0, 1)]), 0, by decide +kernel⟩,
   ⟨mk ON, 0, true, 16, by decide +kernel⟩,
   ⟨mk ON, 1, false, 17, by decide +kernel⟩,
   ⟨mk (ON ++ [(NET_TX_SIZE.EN 0, 1), (NET_TX_WR.WR 0, 1), (NET_TX_BASE_LO.ADDR 0, 0x01000000 / 32)]), 0, by decide +kernel⟩,
   ⟨{ mk (ON ++ [(NET_TX_SIZE.EN 0, 1), (NET_TX_WR.WR 0, 1), (NET_TX_BASE_LO.ADDR 0, 0x01000000 / 32), (NET_CFG.EN 0, 1), (NET_STATUS.LINK 0, 1)]) with
       scratch := withBytes (entryBytes 0x01001000 14) }, 0, entryBytes 0x01001000 14, by decide +kernel⟩,
   ⟨{ mk (ON ++ [(NET_CFG.EN 0, 1), (NET_STATUS.LINK 0, 1), (LANE_STATUS.LOOP 24, 1)]) with
       net := { netInit with ports := [{ counts := [], wire := [], looped := [[7], []] }] } }, 0, [7], [[]], by decide +kernel⟩,
   ⟨mk (ON ++ [(NET_CFG.EN 0, 1), (NET_STATUS.LINK 0, 1)]), 0, by decide +kernel⟩,
   ⟨{ mk (ON ++ [(NET_RX_SIZE.EN 1, 1), (NET_RX_WR.WR 1, 1), (NET_RX_BASE_LO.ADDR 1, 0x01000000 / 32), (NET_CFG.EN 1, 1), (NET_STATUS.LINK 1, 1)]) with
       scratch := withBytes (entryBytes 0x01000018 64) }, 1, etherX 8 0, entryBytes 0x01000018 64, by decide +kernel⟩,
   ⟨mk (ON ++ [(NET_CFG.EN 1, 1), (NET_STATUS.LINK 1, 1)]), 1, etherX 8 0, by decide +kernel⟩⟩

theorem test_witness_StreamsAndKeepAliveFrames :
    (∃ (s : State) (k : Fin 4) (o : NetObject) (x : NetStream) (n : Nat), x = netStream s k ∧ x.ok = true ∧ s.domainOn 26 =
      true ∧ s.mode ≠ 7 ∧ netObject s x = some o ∧ netUp s x.eth = true ∧ netReady s x = true ∧ netStreamTurn s k = true ∧
      netNearLoop s x.eth = false ∧ netReplaced s x.eth = false ∧ k.val < s.net.streams.length ∧ s.net.ports.length = 2 ∧ n =
      min x.payload (o.total - x.off) ∧ x.off + n < o.total) ∧
    (∃ (s : State) (k : Fin 4) (o : NetObject) (x : NetStream), x = netStream s k ∧ x.ok = true ∧ s.domainOn 26 = true ∧ s.mode
      ≠ 7 ∧ netObject s x = some o ∧ netUp s x.eth = false ∧ k.val < s.net.streams.length) ∧
    (∃ (s : State) (bytes : List Byte) (i : Nat), s.mode = 7 ∧ s.flag TIME_KA_CTRL.EN = true ∧ netUp s 0 = true ∧ netDiscard 0
      bytes true s = none ∧ kaWants bytes = true ∧ kaFree s = some i) ∧
    (∃ (s : State) (bytes : List Byte), s.mode = 7 ∧ s.flag TIME_KA_CTRL.EN = true ∧ netUp s 0 = true ∧ netDiscard 0 bytes true
      s = none ∧ kaWants bytes = true ∧ kaFree s = none) ∧
    (∃ (s : State) (j : Fin 4) (len : Nat), s.mode = 7 ∧ s.flag TIME_KA_CTRL.EN = true ∧ netUp s 0 = true ∧ 14 ≤ len ∧ len ≤
      248 ∧ netNearLoop s 0 = false ∧ netReplaced s 0 = false ∧ kaWord s (0x800 + 256 * j.val) = 2 ^ 31 + len ∧
      s.net.ports.length = 2) :=
  ⟨⟨{ netS (memS (mk (ON ++ [(HEVE_OUT_WR.WR 0, 5), (HEVE_OUT_BASE_HI.ADDR 0, 8), (NET_CFG.EN 0, 1), (NET_STATUS.LINK 0, 1)]))) streamX with
       dram := [(9, 1)] }, 0, { kind := 0, addr := 0, total := 64 + 256, frame := 0, rdAfter := 5 }, streamX, 256,
     by decide +kernel⟩,
   ⟨{ netS (memS (mk (ON ++ [(HEVE_OUT_WR.WR 0, 5), (HEVE_OUT_BASE_HI.ADDR 0, 8), (NET_CFG.EN 0, 1)]))) streamX with
       dram := [(9, 1)] }, 0, { kind := 0, addr := 0, total := 64 + 256, frame := 0, rdAfter := 5 }, streamX,
     by decide +kernel⟩,
   ⟨mk [(CUE_STATUS.MODE, 7), (TIME_KA_CTRL.EN, 1), (NET_STATUS.LINK 0, 1)], etherX 8 6, 0, by decide +kernel⟩,
   ⟨{ mk [(CUE_STATUS.MODE, 7), (TIME_KA_CTRL.EN, 1), (NET_STATUS.LINK 0, 1)] with
       clock := { timeInit with ka := (List.range 8).map (fun i => (256 * i + 3, 0x80)) } }, etherX 8 6, by decide +kernel⟩,
   ⟨{ mk [(CUE_STATUS.MODE, 7), (TIME_KA_CTRL.EN, 1), (NET_STATUS.LINK 0, 1)] with
       clock := { timeInit with ka := [(0xB00, 248), (0xB03, 0x80)] } }, 3, 248, by decide +kernel⟩⟩

theorem test_witness_IncrementAndHoldover :
    (∃ (s : State) (v : Word) (n : Nat), n = bits v.toNat 11 8 * 2 ^ 40 + bits v.toNat 7 0 * 2 ^ 32 + s.fld TIME_INCR_LO.FRAC) ∧
    (∃ (s : State) (c : Instr) (bit : Nat), (c = .hold ∧ bit = 3) ∨ (c = .timeWatchExpire ∧ bit = 2 ∧ s.fld TIME_CTRL.WATCH_MS
      ≠ 0 ∧ s.elapsedNs s.clock.watchFrom (s.fld TIME_CTRL.WATCH_MS * 1000000) = true) ∨ (c = .keepaliveLinkTimeout ∧ bit = 1 ∧
      s.mode = 7 ∧ netUp s 0 = false ∧ s.elapsedNs s.clock.kaFrom 1000000000 = true)) ∧
    (∃ (s : State), netUp s (servoPort s) = true ∧ s.flag TIME_STATUS.RC_CLK = false) ∧
    (∃ (s : State), (netUp s (servoPort s) = false ∨ s.flag TIME_STATUS.RC_CLK = true)) :=
  ⟨⟨mk [(TIME_INCR_LO.FRAC, 7)], 0xFFF, 0xFFF * 2 ^ 32 + 7, by decide +kernel⟩,
   ⟨blank, .hold, 3, by decide +kernel⟩,
   ⟨mk (ON ++ [(TIME_CTRL.SERVO_PORT, 1), (NET_STATUS.LINK 1, 1)]), by decide +kernel⟩,
   ⟨mk [(TIME_STATUS.RC_CLK, 1)], by decide +kernel⟩⟩

theorem test_witness_PulsesAndTimecode :
    (∃ (s : State), s.flag TIME_PPS_CTRL.OUT_EN = true ∧ s.flag TIME_STATUS.VALID = true ∧ secondsAdvanced s = true) ∧
    (∃ (s : State), s.elapsedNs s.clock.ppsFrom (max 1 (min 999 (s.fld TIME_PPS_CTRL.WIDTH_MS)) * 1000000) = true) ∧
    (∃ (s : State), s.flag TIME_PPS_CTRL.IN_EN = true ∧ (∀ l ∈ s.clock.ppsLast, s.elapsedNs l 500000000 = true)) ∧
    (∃ (s : State) (l : Nat), s.clock.ppsLast = some l ∧ s.elapsedNs l 500000000 = false) ∧
    (∃ (s : State), s.flag TIME_LTC_CTRL.IN_EN = true ∧ 1 ≤ s.clock.ltcRun) ∧
    (∃ (s : State), s.flag TIME_LTC_CTRL.IN_EN = true) ∧
    (∃ (s : State) (code : Nat) (n : Nat), s.flag TIME_LTC_CTRL.OUT_EN = true ∧ code = s.fld TIME_LTC_CTRL.RATE ∧ n = ltcFrame
      code (((s.time.sec.toNat : Int) + toSigned 32 (s.fld TIME_LTC_OFFSET.SEC)) % 86400).toNat (s.time.ns * 2 ^ 40 +
      s.time.frac.toNat) ∧ ltcStarts s = true) :=
  ⟨⟨mk [(TIME_PPS_CTRL.OUT_EN, 1), (TIME_STATUS.VALID, 1)], by decide +kernel⟩,
   ⟨{ blank with ticks := 400000 }, by decide +kernel⟩,
   ⟨{ mk [(TIME_PPS_CTRL.IN_EN, 1)] with clock := { timeInit with ppsLast := some 7 }, ticks := 200000007 }, by decide +kernel⟩,
   ⟨{ blank with ticks := 200000006, clock := { timeInit with ppsLast := some 7 } }, 7, by decide +kernel⟩,
   ⟨{ mk [(TIME_LTC_CTRL.IN_EN, 1)] with clock := { timeInit with ltcRun := 1 } }, by decide +kernel⟩,
   ⟨mk [(TIME_LTC_CTRL.IN_EN, 1)], by decide +kernel⟩,
   ⟨{ mk [(TIME_LTC_CTRL.OUT_EN, 1)] with time := { sec := 1, ns := 1, frac := 0 } }, 0, ltcFrame 0 1 (2 ^ 40),
     by decide +kernel⟩⟩

theorem test_witness_KurnarikPortsTrainAndFail :
    (∃ (s : State) (p : Fin 2), kState s p = 1 ∧ kEnabled s p = true ∧ (kport s p).failAt = none) ∧
    (∃ (s : State) (p : Fin 2), kState s p = 2 ∧ p.val < s.klink.ports.length ∧ (kport s p).hello = none) ∧
    (∃ (s : State) (p : Fin 2), kUp s p = true ∧ kAsleep s p = false ∧ p.val < s.klink.ports.length ∧ s.elapsedNs (kport s
      p).alignAt 8448 = true ∧ s.serial.lanes.length = 26) ∧
    (∃ (s : State) (p : Fin 2), kState s p = 2 ∧ s.elapsedNs (kport s p).trainAt 10000000 = true) ∧
    (∃ (s : State) (p : Fin 2), kUp s p = true) ∧
    (∃ (s : State), s.domainOn 25 = true ∧ (kUp s 0 = true ∨ kUp s 1 = true)) ∧
    (∃ (s : State) (p : Fin 2) (h : FlitHeader) (hb : Heartbeat) (topology : Fin 4), kState s p = 2 ∧ h.crcOk = true ∧
      hb.pairId = s.fld KLINK_PAIR.PAIR_ID ∧ topology.val = topo s ∧ (kport s p).helloOut = true ∧ kLocked s p ≠ 0 ∧ p.val <
      s.klink.ports.length ∧ s.flag KLINK_STATUS.FORMED = false) ∧
    (∃ (s : State) (p : Fin 2) (h : FlitHeader) (hb : Heartbeat) (topology : Fin 4), kState s p = 2 ∧ h.crcOk = true ∧
      (hb.pairId ≠ s.fld KLINK_PAIR.PAIR_ID ∨ topology.val ≠ topo s)) ∧
    (∃ (s : State) (p : Fin 2) (h : FlitHeader) (hb : Heartbeat) (topology : Fin 4), kState s p = 2 ∧ h.crcOk = true ∧
      hb.pairId = s.fld KLINK_PAIR.PAIR_ID ∧ topology.val = topo s ∧ (kport s p).helloOut = false ∧ p < s.klink.ports.length) :=
  ⟨⟨mk (ON ++ [(KLINK_STATUS.STATE1, 1), (KLINK_PAIR.TOPO, 2), (KLINK_CTRL.EN1, 1)]), 1, by decide +kernel⟩,
   ⟨mk (ON ++ [(KLINK_STATUS.STATE0, 2)]), 0, by decide +kernel⟩,
   ⟨{ kS (mk (ON ++ [(KLINK_STATUS.STATE1, 3), (KLINK_STATUS.LANES1, 9)])) { kportInit with alignAt := 1 } with ticks := 3381 },
     1, by decide +kernel⟩,
   ⟨{ mk (ON ++ [(KLINK_STATUS.STATE1, 2)]) with ticks := 4000000 }, 1, by decide +kernel⟩,
   ⟨mk (ON ++ [(KLINK_STATUS.STATE0, 3)]), 0, by decide +kernel⟩,
   ⟨mk (ON ++ [(KLINK_STATUS.STATE1, 3)]), by decide +kernel⟩,
   ⟨kS (mk (ON ++ [(KLINK_STATUS.STATE1, 2), (KLINK_PAIR.TOPO, 2), (LANE_STATUS.LOCK 20, 1)]))
     { kportInit with helloOut := true }, 1, flX 0, hbX 1 false, 2, by decide +kernel⟩,
   ⟨mk (ON ++ [(KLINK_STATUS.STATE0, 2)]), 0, flX 0, hbX 0 false, 1, by decide +kernel⟩,
   ⟨kS (mk (ON ++ [(KLINK_STATUS.STATE1, 2), (KLINK_PAIR.TOPO, 2)])) kportInit, 1, flX 0, hbX 1 false, 2, by decide +kernel⟩⟩

theorem test_witness_HeartbeatsAndRoles :
    (∃ (s : State), s.domainOn 25 = true ∧ topo s ≠ 0 ∧ s.klink.started = true ∧ s.net.ports.length = 2) ∧
    (∃ (s : State) (hb : Heartbeat), s.domainOn 25 = true ∧ topo s ≠ 0 ∧ s.klink.started = true ∧ hb.pairId = s.fld
      KLINK_PAIR.PAIR_ID ∧ s.flag KLINK_STATUS.FORMED = true ∧ hb.leaving = false ∧ s.klink.yielding = false) ∧
    (∃ (s : State) (hb : Heartbeat), s.domainOn 25 = true ∧ topo s ≠ 0 ∧ s.klink.started = true ∧ hb.pairId = s.fld
      KLINK_PAIR.PAIR_ID ∧ hb.leaving = true ∧ s.flag KLINK_STATUS.PRIN = false) ∧
    (∃ (s : State), s.domainOn 25 = true ∧ topo s ≠ 0 ∧ s.klink.started = true ∧ s.klink.missed + 1 < max 2 (s.fld
      KLINK_CTRL.HB_MISS)) ∧
    (∃ (s : State), s.domainOn 25 = true ∧ topo s ≠ 0 ∧ s.klink.started = true ∧ s.klink.missed + 1 = max 2 (s.fld
      KLINK_CTRL.HB_MISS) ∧ (s.flag KLINK_STATUS.FORMED = true ∨ s.flag KLINK_STATUS.PRIN = false ∨ s.flag
      KLINK_STATUS.ISOLATED = false)) ∧
    (∃ (s : State), s.domainOn 25 = true ∧ s.flag KLINK_STATUS.PRIN = true ∧ s.flag KLINK_STATUS.FORMED = true) ∧
    (∃ (s : State) (hb : Heartbeat), s.domainOn 25 = true ∧ topo s ≠ 0 ∧ s.klink.started = true ∧ hb.pairId = s.fld
      KLINK_PAIR.PAIR_ID ∧ s.flag KLINK_STATUS.FORMED = true ∧ s.flag KLINK_STATUS.PRIN = true ∧ s.klink.yielding = true ∧
      hb.role = 0 ∧ hb.term < 2 ^ 32) :=
  ⟨⟨kS (mk (ON ++ [(KLINK_PAIR.TOPO, 2)])) kportInit, by decide +kernel⟩,
   ⟨kS (mk (ON ++ [(KLINK_PAIR.TOPO, 2), (KLINK_STATUS.FORMED, 1)])) kportInit, hbX 1 false, by decide +kernel⟩,
   ⟨kS (mk (ON ++ [(KLINK_PAIR.TOPO, 2)])) kportInit, hbX 0 true, by decide +kernel⟩,
   ⟨kS (mk (ON ++ [(KLINK_PAIR.TOPO, 2)])) kportInit, by decide +kernel⟩,
   ⟨{ mk (ON ++ [(KLINK_PAIR.TOPO, 2)]) with klink := { klinkInit with started := true, missed := 1 } }, by decide +kernel⟩,
   ⟨mk (ON ++ [(KLINK_STATUS.FORMED, 1), (KLINK_STATUS.PRIN, 1)]), by decide +kernel⟩,
   ⟨{ mk (ON ++ [(KLINK_PAIR.TOPO, 2), (KLINK_STATUS.FORMED, 1), (KLINK_STATUS.PRIN, 1)]) with
       klink := { klinkInit with started := true, yielding := true } }, hbX 0 false, by decide +kernel⟩⟩

theorem test_witness_FlitsAreCheckedAndAct :
    (∃ (s : State) (p : Fin 2) (h : FlitHeader), kUp s p = true ∧ h.crcOk = false ∧ p.val < s.klink.ports.length) ∧
    (∃ (s : State) (p : Fin 2) (h : FlitHeader) (n : Nat), kUp s p = true ∧ h.crcOk = true ∧ h.nak = false ∧ h.rxmask.toNat =
      (kport s p).txmask ∧ (kport s p).queue = [] ∧ p.val < s.klink.ports.length ∧ n ≤ (kport s p).replay.length ∧ (kport s
      p).replay.length ≤ 512 ∧ (h.ack.toNat + (kport s p).replay.length + 1) % 2 ^ 32 = ((kport s p).nextSeq + n) % 2 ^ 32) ∧
    (∃ (s : State) (p : Fin 2) (h : FlitHeader), kUp s p = true ∧ h.crcOk = true) ∧
    (∃ (s : State) (p : Fin 2) (c : Instr) (h : FlitHeader), kUp s p = true ∧ p.val < s.klink.ports.length ∧ (kport s p).replay
      ≠ [] ∧ (kport s p).replay.length ≤ 512 ∧ (kport s p).stuck + 1 < 16 ∧ (c = .klinkAckTimeout p ∧ s.elapsedNs (kport s
      p).ackAt 2000 = true) ∨ (c = .klinkNak p h ∧ h.crcOk = true ∧ h.rxmask.toNat = (kport s p).txmask ∧ (h.ack.toNat + (kport
      s p).replay.length + 1) % 2 ^ 32 = (kport s p).nextSeq % 2 ^ 32)) ∧
    (∃ (s : State) (p : Fin 2), kUp s p = true ∧ (kport s p).replay ≠ [] ∧ (kport s p).stuck + 1 = 16 ∧ s.elapsedNs (kport s
      p).ackAt 2000 = true) ∧
    (∃ (s : State) (p : Fin 2) (h : FlitHeader), kUp s p = true ∧ h.crcOk = true ∧ p.val < s.klink.ports.length ∧ h.seq.toNat ≠
      ((kport s p).rxAck + 1) % 2 ^ 32) ∧
    (∃ (s : State) (p : Fin 2), kUp s p = true ∧ p.val < s.klink.ports.length ∧ kAsleep s p = false) ∧
    (∃ (s : State) (p : Fin 2) (h : FlitHeader) (dep : Nat), kUp s p = true ∧ h.crcOk = true ∧ h.nak = false ∧ h.rxmask.toNat =
      (kport s p).txmask ∧ p.val < s.klink.ports.length ∧ dep ≠ 0) ∧
    (∃ (s : State) (p : Fin 2) (h : FlitHeader), kUp s p = true ∧ h.crcOk = true ∧ h.nak = false ∧ h.rxmask.toNat = (kport s
      p).txmask ∧ p.val < s.klink.ports.length ∧ h.seq.toNat = ((kport s p).rxAck + 1) % 2 ^ 32) :=
  ⟨⟨kS (mk (ON ++ [(KLINK_STATUS.STATE0, 3)])) kportInit, 0, { flX 0 with crcOk := false }, by decide +kernel⟩,
   ⟨kS (mk (ON ++ [(KLINK_STATUS.STATE1, 3)])) { kportInit with replay := [.cuesel 1, .cuesel 2], nextSeq := 3 }, 1,
     { flX 0 with ack := 2 }, 2, by decide +kernel⟩,
   ⟨kS (mk (ON ++ [(KLINK_STATUS.STATE1, 3)])) kportInit, 1, flX 0, by decide +kernel⟩,
   ⟨{ kS (mk (ON ++ [(KLINK_STATUS.STATE0, 3)])) { kportInit with replay := [.cuesel 1], nextSeq := 2, stuck := 14 } with
       ticks := 800 }, 0, .klinkAckTimeout 0, flX 0, by decide +kernel⟩,
   ⟨{ kS (mk (ON ++ [(KLINK_STATUS.STATE1, 3)])) { kportInit with replay := [.cuesel 1], stuck := 15 } with ticks := 800 }, 1,
     by decide +kernel⟩,
   ⟨kS (mk (ON ++ [(KLINK_STATUS.STATE0, 3)])) kportInit, 0, flX 2, by decide +kernel⟩,
   ⟨mk (ON ++ [(KLINK_STATUS.STATE1, 3)]), 1, by decide +kernel⟩,
   ⟨kS (mk (ON ++ [(KLINK_STATUS.STATE0, 3)])) kportInit, 0, flX 0, 1, by decide +kernel⟩,
   ⟨kS (mk (ON ++ [(KLINK_STATUS.STATE1, 3)])) { kportInit with rxAck := 2 ^ 32 - 1 }, 1, flX 0, by decide +kernel⟩⟩

theorem test_witness_MirrorFramesCrossTheLink :
    (∃ (s : State) (n : Nat) (p : Nat) (k : Nat) (f : Frame), frameOf s n = some f ∧ mirrorPort s = some p ∧ topo s = 2 ∧
      s.flag KLINK_STATUS.PRIN = true ∧ f.disp = 7 ∧ f.closed = true ∧ 2 ∈ f.await ∧ f.slot = some k ∧ (∀ m ∈ s.klink.mirror,
      m.num ≠ n)) ∧
    (∃ (s : State) (p : Fin 2) (h : FlitHeader) (src : BitVec 8), kUp s p = true ∧ h.crcOk = true ∧ h.nak = false ∧
      h.rxmask.toNat = (kport s p).txmask ∧ p.val < s.klink.ports.length ∧ h.seq.toNat = ((kport s p).rxAck + 1) % 2 ^ 32 ∧
      s.flag (INGEST_CTRL.EN (src.toNat / 64)) = false ∧ openFrame s (src.toNat / 64) (src.toNat / 16 % 4) = none ∧
      s.ingest.length = 4 ∧ s.klink.mirrorRx.length = 2) ∧
    (∃ (s : State) (p : Fin 2) (h : FlitHeader) (bytes : List Byte) (m : MirrorRx) (f : OpenFrame) (x : Member) (r : List
      Member), kUp s p = true ∧ h.crcOk = true ∧ h.nak = false ∧ h.rxmask.toNat = (kport s p).txmask ∧ p.val <
      s.klink.ports.length ∧ h.seq.toNat = ((kport s p).rxAck + 1) % 2 ^ 32 ∧ (s.klink.mirrorRx[p.val]?).join = some m ∧
      openFrame s m.port m.desc = some f ∧ f.num = m.frame ∧ f.members = x :: r ∧ x.lines.length < f.d.height ∧ m.bytes.length
      + bytes.length < f.d.lineBytes) ∧
    (∃ (s : State) (p : Fin 2) (h : FlitHeader) (m : MirrorRx), kUp s p = true ∧ h.crcOk = true ∧ h.nak = false ∧
      h.rxmask.toNat = (kport s p).txmask ∧ p.val < s.klink.ports.length ∧ h.seq.toNat = ((kport s p).rxAck + 1) % 2 ^ 32 ∧
      (s.klink.mirrorRx[p.val]?).join = some m) ∧
    (∃ (s : State) (p : Fin 2) (h : FlitHeader) (n : Nat) (f : Frame), kUp s p = true ∧ h.crcOk = true ∧ h.nak = false ∧
      h.rxmask.toNat = (kport s p).txmask ∧ p.val < s.klink.ports.length ∧ h.seq.toNat = ((kport s p).rxAck + 1) % 2 ^ 32 ∧ (∃
      m ∈ s.klink.mirror, m.num = n) ∧ frameOf s n = some f ∧ f.disp = 7 ∧ f.await = [2] ∧ f.written = [] ∧ keyGet
      s.hash.codedDue n = none) ∧
    (∃ (s : State) (n : Nat) (m : MirrorTx), m ∈ s.klink.mirror ∧ m.num = n ∧ (∀ x ∈ s.klink.mirror, s.elapsedNs x.since (max
      10 (s.fld KLINK_MIRROR_TO.MS) * 1000000) = true)) ∧
    (∃ (s : State) (n : Nat) (f : Frame), (∀ m ∈ s.klink.mirror, m.num ≠ n) ∧ frameOf s n = some f ∧ f.disp = 7 ∧ f.closed =
      true ∧ 2 ∈ f.await ∧ s.elapsedNs f.since (max 10 (s.fld KLINK_MIRROR_TO.MS) * 1000000) = true) :=
  ⟨⟨{ kS (mk (ON ++ [(KLINK_STATUS.STATE0, 3), (KLINK_PAIR.TOPO, 2), (KLINK_STATUS.PRIN, 1)])) kportInit with
       ledger := { ledgerInit with frames := [{ frX with disp := 7, closed := true, await := [2], slot := some 0 }] } }, 7, 0,
     0, { frX with disp := 7, closed := true, await := [2], slot := some 0 }, by decide +kernel⟩,
   ⟨kS (mk (ON ++ [(KLINK_STATUS.STATE1, 3)])) kportInit, 1, flX 1, 0xF0, by decide +kernel⟩,
   ⟨{ mk (ON ++ [(KLINK_STATUS.STATE0, 3)]) with
       klink := { klinkInit with ports := [kportInit, kportInit], mirrorRx := [some rxX, none] },
       ingest := ingX [openX [memX 0 true false]] }, 0, flX 1, [1, 2], rxX, openX [memX 0 true false], memX 0 true false, [],
     by decide +kernel⟩,
   ⟨{ mk (ON ++ [(KLINK_STATUS.STATE0, 3)]) with
       klink := { klinkInit with ports := [kportInit, kportInit], mirrorRx := [some rxX, none] },
       ingest := ingX [openX [memX 0 true false]] }, 0, flX 1, rxX, by decide +kernel⟩,
   ⟨{ mk (ON ++ [(KLINK_STATUS.STATE1, 3)]) with
       klink := { klinkInit with ports := [kportInit, kportInit], mirror := [{ num := 7, port := 1, since := 0 }] },
       ledger := { ledgerInit with frames := [{ frX with disp := 7, closed := true, await := [2], slot := some 0 }] } }, 1, flX
     1, 7, { frX with disp := 7, closed := true, await := [2], slot := some 0 }, by decide +kernel⟩,
   ⟨{ blank with ticks := 4000000, klink := { klinkInit with mirror := [{ num := 7, port := 1, since := 0 }] } }, 7,
     { num := 7, port := 1, since := 0 }, by decide +kernel⟩,
   ⟨{ blank with
       ticks := 4000000,
       ledger := { ledgerInit with frames := [{ frX with disp := 7, closed := true, await := [2], slot := some 0 }] } }, 7,
     { frX with disp := 7, closed := true, await := [2], slot := some 0 }, by decide +kernel⟩⟩

theorem test_witness_MotionCountsFramesAndSpeed :
    (∃ (s : State) (c : Fin 4) (levels : BitVec 3) (sample : Nat) (edge : Nat) (d : Int), motionOn s c = true ∧ (motionRec s
      c).kind = 1 ∧ (motionRec s c).invert = false ∧ motionMod s c = 0 ∧ c.val < s.motion.chans.length ∧ (s.fld
      (MOTION_STATUS.LEVELS c) ^^^ levels.toNat) ∈ [2, 4] ∧ (∀ l ∈ (motionChan s c).lastEdge, l + 8 ≤ sample) ∧ edge +
      motionFilterNs s c ≤ s.nowNs ∧ (∀ k : Fin 8, s.flag (MOTION_CMP_CTRL.ARMED k) = false) ∧ d = (if (grayPlace (levels.toNat
      / 2) + 4 - grayPlace (s.fld (MOTION_STATUS.LEVELS c) / 2)) % 4 = 1 then 1 else -1)) ∧
    (∃ (s : State) (c : Fin 4) (levels : BitVec 3) (edge : Nat) (a : Nat) (b : Nat), motionOn s c = true ∧ (motionRec s c).kind
      = 3 ∧ (motionRec s c).invert = false ∧ motionMod s c = 0 ∧ c.val < s.motion.chans.length ∧ (s.fld (MOTION_STATUS.LEVELS
      c) ^^^ levels.toNat) ∈ [1, 2, 4] ∧ (∀ k : Fin 8, s.flag (MOTION_CMP_CTRL.ARMED k) = false) ∧ edge + motionFilterNs s c ≤
      s.nowNs ∧ ((motionChan s c).hall).bind hallPlace = some a ∧ hallPlace levels.toNat = some b ∧ b = (a + 1) % 6) ∧
    (∃ (s : State) (c : Fin 4) (edge : Nat), motionOn s c = true ∧ (motionRec s c).kind = 2 ∧ (motionRec s c).invert = false ∧
      c.val < s.motion.chans.length ∧ s.fld (MOTION_STATUS.LEVELS c) = 0 ∧ 0 < motionMod s c ∧ motionMod s c ≤ 4096 ∧ s.fld
      (MOTION_POS.POS c) < motionMod s c ∧ (motionChan s c).tooth = none ∧ edge + motionFilterNs s c ≤ s.nowNs ∧ (∀ k : Fin 8,
      s.flag (MOTION_CMP_CTRL.ARMED k) = false)) ∧
    (∃ (s : State) (c : Fin 4) (edge : Nat), motionOn s c = true ∧ s.nowNs < edge + motionFilterNs s c) ∧
    (∃ (s : State) (c : Fin 4), motionOn s c = true) ∧
    (∃ (s : State) (c : Fin 4), motionOn s c = true ∧ (motionRec s c).kind = 1 ∨ (motionRec s c).kind = 3 ∧ s.fld
      (MOTION_CFG.STALL_MS c) ≠ 0 ∧ (∃ e ∈ (motionChan s c).edges.zip (motionChan s c).levelAt, 8 ≤ e.1 ∧ s.elapsedNs e.2
      (s.fld (MOTION_CFG.STALL_MS c) * 1000000) = true) ∧ s.flag (MOTION_STATUS.STALL c) = false) ∧
    (∃ (s : State) (c : Fin 4), motionOn s c = true ∧ (motionRec s c).kind = 4 ∧ c.val < s.motion.chans.length ∧ (∀ τ ∈
      (motionChan s c).ssiAt, s.elapsedNs τ (motionRec s c).ssiPeriodNs = true)) ∧
    (∃ (s : State) (c : Fin 4) (time : Nat) (sample : Nat), motionOn s c = true ∧ c.val < s.motion.chans.length ∧ (motionChan s
      c).frame = some (time, sample, true) ∧ (motionRec s c).gray = false ∧ (motionRec s c).kind = 4 ∧ (∀ k : Fin 8, s.flag
      (MOTION_CMP_CTRL.ARMED k) = false) ∧ (∀ τ ∈ (motionChan s c).ssiAt, s.elapsedNs τ (motionRec s c).ssiFrameNs = true)) ∧
    (∃ (s : State) (c : Fin 4) (edge : Nat), s.domainOn 28 = true ∧ motionOn s c = false ∧ edge + motionFilterNs s c ≤ s.nowNs) ∧
    (∃ (s : State) (c : Fin 4) (time : Nat) (sample : Nat) (idle : Bool) (endLow : Bool), motionOn s c = true ∧ (motionChan s
      c).frame = some (time, sample, idle) ∧ (idle = false ∨ endLow = false) ∧ (∀ τ ∈ (motionChan s c).ssiAt, s.elapsedNs τ
      (motionRec s c).ssiFrameNs = true)) ∧
    (∃ (s : State) (c : Fin 4), motionOn s c = true ∧ s.elapsedNs (motionChan s c).stepAt (max 1 (s.fld (MOTION_CFG.STOP_MS c))
      * 1000000) = true) ∧
    (∃ (s : State) (c : Fin 4) (d : Int) (gate : Nat), motionOn s c = true ∧ s.flag (MOTION_STATUS.COUNT_MODE c) = true ∧
      s.flag (MOTION_STATUS.STANDSTILL c) = false ∧ s.flag (MOTION_STATUS.REVERSED c) = false ∧ c.val < s.motion.chans.length ∧
      d = (motionChan s c).gateSum ∧ gate = max 10 (s.fld (MOTION_SPD_CFG.GATE_US c)) ∧ s.elapsedNs (motionChan s c).gateAt
      (gate * 1000) = true) :=
  ⟨⟨{ motS (mk ON) { motionRecNone with kind := 1 } { motionChanInit with lastEdge := some 2 } with
       time := { sec := 0, ns := 5, frac := 0 } }, 3, 2, 10, 0, -1, by decide +kernel⟩,
   ⟨{ motS (mk (ON ++ [(MOTION_STATUS.LEVELS 0, 5)])) { motionRecNone with kind := 3 } { motionChanInit with hall := some 5 } with
       time := { sec := 0, ns := 5, frac := 0 } }, 0, 4, 0, 5, 0, by decide +kernel⟩,
   ⟨{ motS (mk (ON ++ [(MOTION_POS.POS 1, 59)])) { motionRecNone with kind := 2, lines := 60 } { motionChanInit with on := true } with
       time := { sec := 0, ns := 5, frac := 0 } }, 1, 0, by decide +kernel⟩,
   ⟨motS (mk ON) { motionRecNone with kind := 1 } { motionChanInit with on := true }, 0, 1, by decide +kernel⟩,
   ⟨motS (mk ON) { motionRecNone with kind := 4 } { motionChanInit with on := true }, 3, by decide +kernel⟩,
   ⟨{ motS (mk (ON ++ [(MOTION_CFG.STALL_MS 0, 1)])) { motionRecNone with kind := 1 } { motionChanInit with edges := [8, 0, 0] } with
       ticks := 400000 }, 0, by decide +kernel⟩,
   ⟨motS (mk ON) { motionRecNone with kind := 4, ssiBits := 12 } { motionChanInit with on := true }, 2, by decide +kernel⟩,
   ⟨motS (mk ON) { motionRecNone with kind := 4, ssiBits := 12 } { motionChanInit with frame := some (5, 1, true) }, 0, 5, 1,
     by decide +kernel⟩,
   ⟨{ motS (mk ON) { motionRecNone with kind := 0 } { motionChanInit with on := true } with
       time := { sec := 0, ns := 5, frac := 0 } }, 3, 0, by decide +kernel⟩,
   ⟨motS (mk ON) { motionRecNone with kind := 4 } { motionChanInit with frame := some (5, 1, false) }, 0, 5, 1, false, true,
     by decide +kernel⟩,
   ⟨{ motS (mk ON) { motionRecNone with kind := 1 } { motionChanInit with on := true } with ticks := 400000 }, 0,
     by decide +kernel⟩,
   ⟨{ motS (mk (ON ++ [(MOTION_STATUS.COUNT_MODE 0, 1), (MOTION_POS.POS 0, 5)])) { motionRecNone with kind := 1, period := 1 } { motionChanInit with gateSum := 3 } with
       ticks := 4000 }, 0, 3, 10, by decide +kernel⟩⟩

theorem test_witness_ComparesArmAndFire :
    (∃ (s : State) (k : Fin 8) (v : Word), s.domainOn 28 = true ∧ v.getLsbD 30 = false ∧ bits v.toNat 5 4 ≠ 3 ∧ s.flag
      (MOTION_STATUS.STANDSTILL (v.toNat % 4)) = true ∧ motionMod s (v.toNat % 4) = 0 ∧ k.val < s.motion.cmps.length) ∧
    (∃ (s : State) (k : Fin 8) (v : Word), s.domainOn 28 = true ∧ 0 < motionMod s (v.toNat % 4) ∧ motionMod s (v.toNat % 4) ≤
      s.fld (MOTION_CMP_TARGET.TARGET k)) ∧
    (∃ (s : State) (k : Fin 8) (v : Word) (c : Nat), c = v.toNat % 4 ∧ s.domainOn 28 = true ∧ v.getLsbD 7 = false ∧ bits
      v.toNat 5 4 = 0 ∧ motionMod s c = 0 ∧ s.flag (MOTION_STATUS.STANDSTILL c) = false ∧ s.flag (MOTION_STATUS.REVERSED c) =
      false ∧ (motionChan s c).lastBack = some false ∧ toSigned 32 (s.fld (MOTION_CMP_TARGET.TARGET k)) ≤ motionPos s c) ∧
    (∃ (s : State), s.domainOn 28 = true) ∧
    (∃ (s : State) (k : Fin 8), (motionCmp s k).periodic = false) ∧
    (∃ (m : Nat) (x : MotionCmp) (p : Int) (d : Nat), 0 < d ∧ 0 < m ∧ 0 ≤ p ∧ p < m ∧ 0 ≤ x.target ∧ x.target < m ∧ x.dir = 0 ∧
      d < m) :=
  ⟨⟨mk (ON ++ [(MOTION_STATUS.STANDSTILL 3, 1)]), 7, 0x80000003, by decide +kernel⟩,
   ⟨motS (mk (ON ++ [(MOTION_CMP_TARGET.TARGET 0, 10)])) { motionRecNone with kind := 1, modulus := 10 } motionChanInit, 0,
     0x80000000, by decide +kernel⟩,
   ⟨motS (mk ON) { motionRecNone with kind := 1 } { motionChanInit with lastBack := some false }, 0, 0x80000000, 0,
     by decide +kernel⟩,
   ⟨mk ON, by decide +kernel⟩,
   ⟨{ blank with motion := { motionInit with cmps := List.replicate 8 { motionCmpInit with ch := 1 } } }, 7, by decide +kernel⟩,
   ⟨10, motionCmpInit, 9, 1, by decide +kernel⟩⟩

theorem test_witness_PanelAndPoolHandles :
    (∃ (s : State), panelState s = 1 ∧ s.view.step = .reset ∧ s.elapsedNs s.view.stepAt 10000000 = true) ∧
    (∃ (s : State), panelState s = 1 ∧ s.view.step = .afterReset ∧ s.elapsedNs s.view.stepAt (s.fld VIEW_START.RESET_MS *
      1000000) = true) ∧
    (∃ (s : State), panelState s = 1 ∧ s.view.step = .sleepOut ∧ s.elapsedNs s.view.stepAt (s.fld VIEW_START.SLEEP_MS *
      1000000) = true) ∧
    (∃ (s : State), panelState s = 3 ∧ s.view.step = .sleepIn ∧ s.elapsedNs s.view.stepAt (s.fld VIEW_START.SLEEP_MS * 1000000)
      = true) ∧
    (∃ (s : State) (o : Nat) (w : Nat), panelState s = 1 ∧ s.view.step = .script ∧ o = s.view.script ∧ w = s.tab 0x44 1 o 4 ∧ w
      ≠ 0 ∧ o + 4 + w % 256 ≤ 4096 ∧ s.elapsedNs s.view.stepAt (w / 65536 * 1000000) = true) ∧
    (∃ (s : State), panelState s = 1 ∧ s.view.step = .script ∧ s.flag VIEW_CMD.BUSY = false ∧ (4096 ≤ s.view.script ∨ s.tab
      0x44 1 s.view.script 4 = 0)) ∧
    (∃ (s : State) (h : Nat) (x : PoolHandle), s.domainOn 27 = true ∧ poolLowest s = some h ∧ s.pool.handles[h]? = some x) ∧
    (∃ (s : State), s.domainOn 27 = true ∧ poolLowest s = none) ∧
    (∃ (s : State) (v : Word) (x : PoolHandle), s.domainOn 27 = true ∧ s.pool.handles[v.toNat % 64]? = some x ∧ x.owner = 1) ∧
    (∃ (s : State) (v : Word), s.domainOn 27 = true ∧ (∀ x, s.pool.handles[v.toNat % 64]? = some x → x.owner ≠ 1)) :=
  ⟨⟨{ viewS (mk (ON ++ [(VIEW_STATUS.STATE, 1)])) { viewInit with step := .reset } with ticks := 4000000 }, by decide +kernel⟩,
   ⟨viewS (mk (ON ++ [(VIEW_STATUS.STATE, 1)])) { viewInit with step := .afterReset }, by decide +kernel⟩,
   ⟨viewS (mk (ON ++ [(VIEW_STATUS.STATE, 1)])) { viewInit with step := .sleepOut }, by decide +kernel⟩,
   ⟨viewS (mk (ON ++ [(VIEW_STATUS.STATE, 3)])) { viewInit with step := .sleepIn, restart := true }, by decide +kernel⟩,
   ⟨{ viewS (tabS (mk (ON ++ [(VIEW_STATUS.STATE, 1)])) 0x44 1 [(0, 2), (2, 1)]) { viewInit with step := .script } with
       ticks := 400000 }, 0, 0x10002, by decide +kernel⟩,
   ⟨viewS (mk (ON ++ [(VIEW_STATUS.STATE, 1)])) { viewInit with step := .script, script := 4096 }, by decide +kernel⟩,
   ⟨poolS (mk ON) handleFree, 0, handleFree, by decide +kernel⟩,
   ⟨mk ON, by decide +kernel⟩,
   ⟨poolS (mk ON) { handleFree with owner := 1, layers := 1 }, 0, { handleFree with owner := 1, layers := 1 },
     by decide +kernel⟩,
   ⟨poolS (mk ON) handleFree, 0, by decide +kernel⟩⟩

theorem test_witness_PushesAndLineTimedRegisters :
    (∃ (s : State), s.domainOn 27 = true ∧ panelState s = 2 ∧ s.view.push = none ∧ viewHeld s = false ∧ s.view.dirty ≠ [] ∧
      applyLine s ≠ teLine s) ∧
    (∃ (s : State), s.domainOn 27 = true ∧ panelState s = 2 ∧ s.view.push.isSome = true ∧ applyLine s ≠ teLine s ∧ s.flag
      VIEW_STATUS.TE_LOST = false) ∧
    (∃ (s : State), s.domainOn 27 = true ∧ panelState s = 3 ∧ s.view.push.isSome = true ∧ applyLine s ≠ teLine s) ∧
    (∃ (s : State), s.domainOn 27 = true ∧ panelState s = 2 ∧ s.view.push = none ∧ viewHeld s = false ∧ s.view.dirty ≠ [] ∧
      applyLine s ≠ teLine s ∧ s.flag VIEW_CMD.BUSY = true ∧ s.flag VIEW_CMD.HAS_PARAM = false) ∧
    (∃ (s : State), s.view.teAt ≠ none) ∧
    (∃ (s : State), s.view.push.isSome = true) ∧
    (∃ (s : State), s.view.push.isSome = true ∧ panelState s = 3) ∧
    (∃ (s : State), s.domainOn 27 = true ∧ panelState s = 2 ∧ s.flag VIEW_STATUS.TE_LOST = false ∧ s.elapsedNs s.view.teFrom
      (max 1 (s.fld VIEW_START.TE_TO_MS) * 1000000) = true) ∧
    (∃ (s : State) (off : Nat) (w : Word), s.domainOn 27 = true ∧ s.view.changed = true ∧ s.view.shadow = [(off, w)] ∧ viewLine
      s = applyLine s) ∧
    (∃ (s : State) (addr : BitVec 40) (off : Nat), s.domainOn 27 = true ∧ off = addr.toNat - 0x10000000 ∧ shadowMask off = 0) ∧
    (∃ (s : State), s.domainOn 27 = true) ∧
    (∃ (s : State), s.domainOn 27 = true ∧ s.flag VIEW_CMD.BUSY = false ∧ panelState s = 2 ∧ s.view.push = none ∧ viewHeld s =
      false) ∧
    (∃ (s : State), s.domainOn 27 = true ∧ s.flag VIEW_CMD.BUSY = true) :=
  ⟨⟨viewS (mk (ON ++ [(VIEW_STATUS.STATE, 2), (VIEW_APPLY.LINE, 5)]))
     { viewInit with dirty := [{ x0 := 0, y0 := 0, x1 := 2, y1 := 2 }] }, by decide +kernel⟩,
   ⟨viewS (mk (ON ++ [(VIEW_STATUS.STATE, 2), (VIEW_APPLY.LINE, 5)])) { viewInit with push := some [] }, by decide +kernel⟩,
   ⟨viewS (mk (ON ++ [(VIEW_STATUS.STATE, 3), (VIEW_APPLY.LINE, 5)])) { viewInit with push := some [] }, by decide +kernel⟩,
   ⟨viewS (mk (ON ++ [(VIEW_STATUS.STATE, 2), (VIEW_APPLY.LINE, 5), (VIEW_CMD.BUSY, 1)]))
     { viewInit with dirty := [{ x0 := 0, y0 := 0, x1 := 2, y1 := 2 }] }, by decide +kernel⟩,
   ⟨viewS (blank) { viewInit with teAt := some 3 }, by decide +kernel⟩,
   ⟨viewS (blank) { viewInit with push := some [0] }, by decide +kernel⟩,
   ⟨viewS (mk (ON ++ [(VIEW_STATUS.STATE, 3)])) { viewInit with push := some [0] }, by decide +kernel⟩,
   ⟨{ mk (ON ++ [(VIEW_STATUS.STATE, 2)]) with ticks := 400000 }, by decide +kernel⟩,
   ⟨viewS (mk ON) { viewInit with changed := true, shadow := [(0x440104, 1)] }, 0x440104, 1, by decide +kernel⟩,
   ⟨mk ON, BitVec.ofNat 40 (0x10000000 + 0x440104), 0x440104, by decide +kernel⟩,
   ⟨mk ON, by decide +kernel⟩,
   ⟨mk (ON ++ [(VIEW_STATUS.STATE, 2)]), by decide +kernel⟩,
   ⟨mk (ON ++ [(VIEW_CMD.BUSY, 1)]), by decide +kernel⟩⟩

theorem test_witness_ManagementPortTransactions :
    (∃ (s : State), s.power.aonValid = true) ∧
    (∃ (s : State), s.power.aonValid = true) ∧
    (∃ (s : State), s.power.aonValid = true) ∧
    (∃ (s : State) (h : Nat), s.power.aonValid = true ∧ h < 5 * s.fld MGMT_TIMING.SETUP) ∧
    (∃ (s : State), s.power.aonValid = true ∧ s.flag MGMT_CFG.TIMEOUT_EN = true) ∧
    (∃ (s : State), s.flag MGMT_CFG.CTRL_EN = true ∧ s.flag MGMT_CFG.WAKE_EN = true ∧ s.mode = 7 ∧ s.power.xfer = none) ∧
    (∃ (s : State) (v : BitVec 16) (p : CueStack), s.flag MGMT_CFG.CTRL_EN = true ∧ s.cue.locked = true ∧ s.cue.commit = .idle
      ∧ stackOp s (bits v.toNat 12 10) (bits v.toNat 9 8) (bits v.toNat 5 0) = some p) ∧
    (∃ (s : State) (v : Byte), s.flag MGMT_CFG.CTRL_EN = true ∧ v.getLsbD 0 = true) ∧
    (∃ (s : State), s.flag MGMT_CFG.CTRL_EN = true) ∧
    (∃ (s : State), s.flag MGMT_CFG.CTRL_EN = true) ∧
    (∃ (s : State) (c : Instr) (v : Byte) (w : BitVec 16), s.flag MGMT_CFG.CTRL_EN = false ∧ c ∈ [Instr.wake v, .cuesel w,
      .trig v, .msg v, .callAck w]) ∧
    (∃ (s : State), s.power.aonValid = true ∧ s.flag MGMT_CFG.CTRL_EN = false) ∧
    (∃ (s : State) (n : Nat) (h : Nat) (c : Instr), s.power.aonValid = true ∧ s.flag MGMT_CFG.TIMEOUT_EN = true ∧ s.flag
      MGMT_STATUS.ALERT = true ∧ h < 5 * s.fld MGMT_TIMING.SETUP ∧ c ∈ [Instr.mgmtTimeout { bytes := [], held := [h] } n,
      .alertResponse { byte := 0xFF, held := [h] } false, .alertResponse { byte := 0xFF, held := [h] } true]) ∧
    (∃ (s : State) (w : HeldByte), s.flag MGMT_STATUS.ALERT = true ∧ w.byte.toNat = 2 * s.fld MGMT_CFG.ADDR ∧ w.held = [] ∧
      s.fld MGMT_ALERT_EN.EN = 0) ∧
    (∃ (s : State) (w : HeldByte), s.flag MGMT_STATUS.ALERT = true ∧ w.byte.toNat ≠ 2 * s.fld MGMT_CFG.ADDR ∧ w.held = []) :=
  ⟨⟨blank, by decide +kernel⟩,
   ⟨blank, by decide +kernel⟩,
   ⟨mk [(MGMT_STATUS.POINTER, 0xFFFF)], by decide +kernel⟩,
   ⟨mk [(MGMT_TIMING.SETUP, 50)], 249, by decide +kernel⟩,
   ⟨mk [(MGMT_CFG.TIMEOUT_EN, 1), (MGMT_STATUS.POINTER, 0xFFFF)], by decide +kernel⟩,
   ⟨mk (ON ++ [(MGMT_CFG.CTRL_EN, 1), (MGMT_CFG.WAKE_EN, 1), (CUE_STATUS.MODE, 7)]), by decide +kernel⟩,
   ⟨{ mk (ON ++ [(MGMT_CFG.CTRL_EN, 1)]) with
       cue := { cueInit with locked := true, pending := { stackInit with users := [3] } } }, 0x0400, stackInit,
     by decide +kernel⟩,
   ⟨mk (ON ++ [(MGMT_CFG.CTRL_EN, 1)]), 3, by decide +kernel⟩,
   ⟨mk (ON ++ [(MGMT_CFG.CTRL_EN, 1)]), by decide +kernel⟩,
   ⟨{ mk (ON ++ [(MGMT_CFG.CTRL_EN, 1), (CALL_LOG_WR.WR, 1)]) with call := { callInit with log := [entry0] } },
     by decide +kernel⟩,
   ⟨blank, .msg 0, 0, 0, by decide +kernel⟩,
   ⟨blank, by decide +kernel⟩,
   ⟨mk (ON ++ [(MGMT_CFG.TIMEOUT_EN, 1), (MGMT_STATUS.ALERT, 1), (MGMT_CFG.ADDR, 88), (MGMT_TIMING.SETUP, 50)]), 2, 249,
     .alertResponse { byte := 0xFF, held := [249] } true, by decide +kernel⟩,
   ⟨mk (ON ++ [(MGMT_STATUS.ALERT, 1), (MGMT_CFG.ADDR, 88)]), { byte := 0xB0, held := [] }, by decide +kernel⟩,
   ⟨mk (ON ++ [(MGMT_STATUS.ALERT, 1), (MGMT_CFG.ADDR, 88)]), { byte := 0x18, held := [] }, by decide +kernel⟩⟩

end Sys2Proof.Tests
end

section
/-! PROOFS. Reads of 64-bit register pairs and narrow reads (R16, R18). -/

namespace Sys2Proof.Machine

/-! ### Lists of keyed values -/

@[simp] theorem keyGet_keySet_same {κ α : Type} [DecidableEq κ] (l : List (κ × α)) (k : κ) (v : α) :
    keyGet (keySet l k v) k = some v := by
  induction l with
  | nil => simp [keySet, keyGet]
  | cons e l ih =>
    rw [keySet]
    split
    · simp [keyGet]
    · next h => simpa [keyGet, h] using ih

@[simp] theorem keyGet_keyDel_same {κ α : Type} [DecidableEq κ] (l : List (κ × α)) (k : κ) :
    keyGet (keyDel l k) k = none := by
  induction l with
  | nil => rfl
  | cons e l ih =>
    by_cases h : e.1 = k
    · simpa [keyDel, h] using ih
    · simpa [keyDel, keyGet, h] using ih

/-! ### What registers show does not depend on the latched high words -/

/-- The high words that reads have latched replaced by `l` (R18). -/
def setLatches (l : List (Nat × Word)) (s : State) : State := { s with sys := { s.sys with latches := l } }

theorem regDark_setLatches (l : List (Nat × Word)) (s : State) (a : Nat) : regDark (setLatches l s) a = regDark s a := by
  rfl

theorem viewFront_setLatches (l : List (Nat × Word)) (s : State) (a : Nat) (w : Word) :
    viewFront (setLatches l s) a w = viewFront s a w := by rfl

theorem viewFrame_setLatches (l : List (Nat × Word)) (s : State) (a : Nat) (w : Word) :
    viewFrame (setLatches l s) a w = viewFrame s a w := by rfl

theorem viewRest_setLatches (l : List (Nat × Word)) (s : State) (side : Side) (a : Nat) (w : Word) :
    viewRest (setLatches l s) side a w = viewRest s side a w := by rfl

theorem readReg_setLatches (l : List (Nat × Word)) (s : State) (side : Side) (a : Nat) :
    readReg (setLatches l s) side a = readReg s side a := by
  have hw : (setLatches l s).word a = s.word a := State.word_congr rfl a
  have hk (o : Nat) : kaWord (setLatches l s) o = kaWord s o := rfl
  simp only [readReg, hw, hk, regDark_setLatches, viewFront_setLatches, viewFrame_setLatches, viewRest_setLatches]

/-! ### The cases of a register read (R18) -/

theorem regRead_latched {s : State} {a : Nat} {w : Word} (side : Side) (h : keyGet s.sys.latches a = some w) :
    regRead side a s = busOk w (setLatches (keyDel s.sys.latches a) s) := by
  simp only [regRead, h]
  rfl

theorem regRead_lowWord {s : State} {a : Nat} (side : Side) (h : keyGet s.sys.latches a = none) (ha : a ∈ lowWords) :
    regRead side a s =
      busOk (readReg s side a) (setLatches (keySet s.sys.latches (a + 4) (readReg s side (a + 4))) s) := by
  rw [← readReg_setLatches (keySet s.sys.latches (a + 4) (readReg s side (a + 4))) s side a]
  simp only [regRead, h, List.contains_iff_mem.mpr ha, if_true]
  rfl

theorem regRead_live {s : State} {a : Nat} (side : Side) (h : keyGet s.sys.latches a = none) (ha : a ∉ lowWords) :
    regRead side a s = busOk (readReg s side a) s := by
  simp [regRead, h, ha]

/-- The registers whose read has an effect of its own (R19, R430, R364, R510, R555). -/
def effectReads : List Nat :=
  [TIME_NOW_NS.NS.addr, HEVD_OUT_POP.BUF.addr, VIEW_POOL_ALLOC.HANDLE.addr, (CALL_LOG_ENTRY.DATA 0).addr]

theorem readEffect_eq_regRead {a : Nat} (side : Side) (s : State) (ha : a ∉ effectReads) :
    readEffect side a s = .next (regRead side a s) := by
  simp only [effectReads, List.mem_cons, List.not_mem_nil, or_false, not_or] at ha
  obtain ⟨hnow, hpop, halloc, hlog⟩ := ha
  simp only [readEffect, if_neg hnow, if_neg hpop, if_neg halloc, if_neg hlog]

/-- Neither word of a latching pair has an effect of its own, and no high word is the low word of another pair. -/
theorem lowWords_pairs : ∀ a ∈ lowWords, a % 4 = 0 ∧ a ∉ effectReads ∧ a + 4 ∉ effectReads ∧ a + 4 ∉ lowWords := by
  decide

/-! ### Bus reads of registers (R16) -/

/-- An aligned read of up to 32 bits at an offset of the register space whose clock runs reads the register. -/
theorem exec_lowWordRead_reg {s : State} {side : Side} {addr : BitVec 40} {size : ReadSize} {off : Nat}
    (hsize : size ≠ .double) (ht : busTarget s side addr.toNat (readBytes size) = .reg off) (halign : off % readBytes size = 0)
    (hclk : clockStopped s (off - off % 4) = false) :
    exec (.lowWordRead side ⟨addr, size⟩) s = regBytes side off (readBytes size) s := by
  have hexec : exec (.lowWordRead side ⟨addr, size⟩) s = busRead side addr.toNat size s := rfl
  rw [hexec, busRead]
  simp only [ht, hsize, halign, hclk, ne_eq, not_true_eq_false, Bool.false_eq_true, or_self, if_false]

theorem exec_lowWordRead_word {s : State} {side : Side} {addr : BitVec 40} {off : Nat}
    (ht : busTarget s side addr.toNat 4 = .reg off) (halign : off % 4 = 0) (hclk : clockStopped s off = false)
    (hplain : off ∉ effectReads) : exec (.lowWordRead side ⟨addr, .word⟩) s = .next (regRead side off s) := by
  rw [exec_lowWordRead_reg (size := .word) (by decide) ht halign (by simpa [halign] using hclk),
    ← readEffect_eq_regRead side s hplain]
  rfl

theorem exec_lowWordRead_narrow {s : State} {side : Side} {addr : BitVec 40} {size : ReadSize} {off : Nat}
    (hsize : size = .byte ∨ size = .half) (ht : busTarget s side addr.toNat (readBytes size) = .reg off)
    (halign : off % readBytes size = 0) (hclk : clockStopped s (off - off % 4) = false)
    (hplain : off - off % 4 ∉ effectReads) :
    exec (.lowWordRead side ⟨addr, size⟩) s =
      .next (narrowRead (off % 4) (readBytes size) (regRead side (off - off % 4) s)) := by
  have hdouble : size ≠ .double := by rintro rfl; simp at hsize
  have hword : readBytes size ≠ 4 := by obtain rfl | rfl := hsize <;> decide
  rw [exec_lowWordRead_reg hdouble ht halign hclk, regBytes, if_neg hword, readEffect_eq_regRead side s hplain]

theorem narrowRead_busOk (k n : Nat) (w : Word) (s : State) :
    narrowRead k n (busOk w s) = busOk ((w >>> (8 * k)) &&& BitVec.ofNat 32 (2 ^ (8 * n) - 1)) s := rfl

/-- Shifting and masking a word gives its `n` bytes from byte `k` on. -/
theorem toNat_bytes_of_word (w : Word) (k : Nat) {n : Nat} (hn : n ≤ 4) :
    ((w >>> (8 * k)) &&& BitVec.ofNat 32 (2 ^ (8 * n) - 1)).toNat = w.toNat / 2 ^ (8 * k) % 2 ^ (8 * n) := by
  have hle : 2 ^ (8 * n) ≤ 2 ^ 32 := Nat.pow_le_pow_right (by decide) (by omega)
  have hmask : (2 ^ (8 * n) - 1) % 2 ^ 32 = 2 ^ (8 * n) - 1 := Nat.mod_eq_of_lt (by omega)
  rw [BitVec.toNat_and, BitVec.toNat_ushiftRight, BitVec.toNat_ofNat, hmask, Nat.and_two_pow_sub_one_eq_mod,
    Nat.shiftRight_eq_div_pow]

/-! ### The obligation -/

/-- Settles O12, by the three cases of a register read: a latched word, the low word of a pair, any other word. That the latch is
held by address and answers either side, and which pairs latch, is the model's reading of R18 (assumption 13). -/
theorem lowWordReadLatchesHighWord : Obligations.LowWordReadLatchesHighWord := by
  unfold Obligations.LowWordReadLatchesHighWord
  refine ⟨?low, ?latched, ?live, ?narrow⟩
  case low =>
    intro s side addr off ht hclk hlow hfree
    obtain ⟨halign, hplain, -, -⟩ := lowWords_pairs off hlow
    refine ⟨_, exec_lowWordRead_word ht halign hclk hplain, ?_⟩
    rw [regRead_lowWord side hfree hlow]
    exact ⟨rfl, keyGet_keySet_same .., rfl⟩
  case latched =>
    intro s side addr off w ht hclk hlow hheld
    obtain ⟨halign, -, hplain, -⟩ := lowWords_pairs off hlow
    refine ⟨_, exec_lowWordRead_word ht (by omega) hclk hplain, ?_⟩
    rw [regRead_latched side hheld]
    exact ⟨rfl, keyGet_keyDel_same .., rfl⟩
  case live =>
    intro s side addr off ht hclk hlow hfree
    obtain ⟨halign, -, hplain, hhigh⟩ := lowWords_pairs off hlow
    refine ⟨_, exec_lowWordRead_word ht (by omega) hclk hplain, ?_⟩
    rw [regRead_live side hfree hhigh]
    exact ⟨rfl, rfl⟩
  case narrow =>
    intro s side addr off size hsize ht halign hclk hplain hlow hfree
    have hbytes : readBytes size ≤ 4 := by obtain rfl | rfl := hsize <;> decide
    refine ⟨_, exec_lowWordRead_narrow hsize ht halign hclk hplain, ?_⟩
    rw [regRead_live side hfree hlow, narrowRead_busOk]
    exact ⟨rfl, toNat_bytes_of_word _ _ hbytes, rfl⟩

end Sys2Proof.Machine
end

section
/-! PROOFS. Mailboxes (R37, R38). -/

namespace Sys2Proof.Machine

/-! ### What a write of a whole register leaves alone -/

theorem onlyRegs_busOk (w : Word) (s : State) (as : List Nat) : OnlyRegs s (busOk w s) as := ⟨rfl, fun _ _ => rfl⟩

theorem OnlyRegs.setFld {s t : State} {as : List Nat} (h : OnlyRegs s t as) {f : Fld} (hf : f.addr ∈ as) (n : Nat) :
    OnlyRegs s (t.setFld f n) as := by
  obtain ⟨hstate, hregs⟩ := h
  refine ⟨congrArg (fun u : State => { u with regs := (t.setFld f n).regs }) hstate, fun a ha => ?_⟩
  have hne : a ≠ f.addr := fun he => ha (he ▸ hf)
  rw [State.word_setFld_ne _ _ _ hne, hregs a ha]

theorem insertBits_whole (w : Word) (n : Nat) : insertBits w 0 32 n = BitVec.ofNat 32 n := by
  apply BitVec.eq_of_getLsbD_eq
  intro i hi
  rw [insertBits_getLsbD _ _ _ _ _ (by decide), if_pos ⟨Nat.zero_le _, by omega⟩, BitVec.getLsbD_ofNat]
  simp [hi]

/-- A field that fills its register holds the word written to it. -/
theorem State.word_setFld_whole (s : State) (a : Nat) (v : Word) : (s.setFld ⟨a, 0, 32⟩ v.toNat).word a = v := by
  rw [State.setFld, State.word_setWord_same, insertBits_whole, BitVec.ofNat_toNat, BitVec.setWidth_eq]

/-- A one-bit field whose bit is set reads as set. -/
theorem State.flag_orBit_zero (s : State) (f : Fld) (h : f.fits = true) (hw : f.width = 1) : (s.orBit f 0).flag f = true := by
  rw [State.flag, State.orBit, State.fld_setFld_same _ _ _ h, hw, bne_iff_ne]
  have hodd : (s.fld f ||| 2 ^ 0) % 2 ^ 1 = 1 := by simp
  omega

/-! ### Mailbox writes (R37, R38) -/

/-- The message word `i` of the mailbox to the Stage Manager or to Company. -/
def mboxData (toSm : Bool) (i : Nat) : Fld := if toSm then SYS_MBOX_TO_SM.DATA i else SYS_MBOX_TO_CO.DATA i

/-- The doorbell bit that says that a message waits in the mailbox. -/
def mboxMsg (toSm : Bool) : Fld := if toSm then SYS_DB_TO_SM.MSG else SYS_DB_TO_CO.MSG

/-- The overwrite flag of the mailbox. -/
def mboxOvw (toSm : Bool) : Fld := if toSm then SYS_MBOX_CTRL.TO_SM_OVW else SYS_MBOX_CTRL.TO_CO_OVW

theorem mboxData_eq (toSm : Bool) (i : Nat) : mboxData toSm i = ⟨(mboxData toSm i).addr, 0, 32⟩ := by
  cases toSm <;> rfl

theorem mboxData_ge (toSm : Bool) (i : Nat) : 0x100 ≤ (mboxData toSm i).addr := by
  cases toSm with
  | true => exact Nat.le_add_right ..
  | false => exact Nat.le_trans (by decide) (Nat.le_add_right ..)

theorem mboxMsg_lt (toSm : Bool) : (mboxMsg toSm).addr < 0x100 := by cases toSm <;> decide

theorem mboxOvw_lt (toSm : Bool) : (mboxOvw toSm).addr < 0x100 := by cases toSm <;> decide

theorem State.word_setFld_mboxData (s : State) (toSm : Bool) (i : Nat) (v : Word) :
    (s.setFld (mboxData toSm i) v.toNat).word (mboxData toSm i).addr = v := by
  rw [mboxData_eq]
  exact State.word_setFld_whole ..

/-- The message words do not hold the bit that says that a message waits. -/
theorem State.flag_mboxMsg_setFld (s : State) (toSm : Bool) (i n : Nat) :
    (s.setFld (mboxData toSm i) n).flag (mboxMsg toSm) = s.flag (mboxMsg toSm) := by
  have hword : (s.setFld (mboxData toSm i) n).word (mboxMsg toSm).addr = s.word (mboxMsg toSm).addr :=
    State.word_setFld_ne _ _ _ (by have := mboxData_ge toSm i; have := mboxMsg_lt toSm; omega)
  simp only [State.flag, State.fld, hword]

theorem mailboxWrite_ignored {side : Side} {toSm : Bool} (h : toSm = (side == .stageManager)) (i : Nat) (v : Word) (s : State) :
    mailboxWrite side toSm i v s = postKind 1 0 0xFF (mboxData toSm i).addr s := by
  rw [mailboxWrite, if_pos h]
  rfl

theorem mailboxWrite_own {side : Side} {toSm : Bool} (h : toSm ≠ (side == .stageManager)) (i : Nat) (v : Word) (s : State) :
    mailboxWrite side toSm i v s =
      if s.flag (mboxMsg toSm) then
        postFlag (mboxOvw toSm) (mboxOvw toSm).lo .warning 0 0xFF 0 (s.setFld (mboxData toSm i) v.toNat)
      else s.setFld (mboxData toSm i) v.toNat := by
  rw [mailboxWrite, if_neg h, ← State.flag_mboxMsg_setFld s toSm i v.toNat]
  rfl

/-- A mailbox ignores a write of its receiver, with a warning (R37). -/
theorem exec_mailboxWrite_ignored {side : Side} {toSm : Bool} (h : toSm = (side == .stageManager)) (s : State) (i : Fin 64)
    (v : Word) :
    exec (.mailboxWrite side toSm i v) s =
      .next (postEvent { cls := .warning, block := 0, cause := 0x201, inst := 0xFF, detail := (mboxData toSm i).addr }
        (busOk 0 s)) :=
  congrArg Host.Outcome.next (mailboxWrite_ignored h i v (busOk 0 s))

/-- While no message waits, the word is stored and nothing else changes (R37). -/
theorem exec_mailboxWrite_stored {side : Side} {toSm : Bool} (h : toSm ≠ (side == .stageManager)) {s : State}
    (hmsg : s.flag (mboxMsg toSm) = false) (i : Fin 64) (v : Word) :
    ∃ t, exec (.mailboxWrite side toSm i v) s = .next t ∧
      t.word (mboxData toSm i).addr = v ∧ OnlyRegs s t [(mboxData toSm i).addr] := by
  have hmsg' : (busOk 0 s).flag (mboxMsg toSm) = false := hmsg
  have hwrite := mailboxWrite_own h i v (busOk 0 s)
  rw [hmsg'] at hwrite
  exact ⟨_, congrArg Host.Outcome.next hwrite, State.word_setFld_mboxData ..,
    (onlyRegs_busOk 0 s _).setFld (List.mem_singleton_self _) _⟩

/-- While a message waits, the word is stored all the same, and the overwrite flag sets with its warning (R38). -/
theorem exec_mailboxWrite_flagged {side : Side} {toSm : Bool} (h : toSm ≠ (side == .stageManager)) {s : State}
    (hmsg : s.flag (mboxMsg toSm) = true) (i : Fin 64) (v : Word) :
    ∃ u, u.word (mboxData toSm i).addr = v ∧ u.flag (mboxOvw toSm) = true ∧
      OnlyRegs s u [(mboxData toSm i).addr, (mboxOvw toSm).addr] ∧
      exec (.mailboxWrite side toSm i v) s =
        .next (postEvent { cls := .warning, block := 0, cause := (mboxOvw toSm).lo, inst := 0xFF, detail := 0 } u) := by
  have hmsg' : (busOk 0 s).flag (mboxMsg toSm) = true := hmsg
  have hwrite := mailboxWrite_own h i v (busOk 0 s)
  rw [hmsg', if_pos rfl, postFlag, Nat.sub_self] at hwrite
  refine ⟨_, ?word, State.flag_orBit_zero _ _ ?fits ?width, ?regs, congrArg Host.Outcome.next hwrite⟩
  case word =>
    have hne : (mboxData toSm i).addr ≠ (mboxOvw toSm).addr := by
      have := mboxData_ge toSm i; have := mboxOvw_lt toSm; omega
    rw [State.orBit, State.word_setFld_ne _ _ _ hne, State.word_setFld_mboxData]
  case fits => cases toSm <;> rfl
  case width => cases toSm <;> rfl
  case regs => exact ((onlyRegs_busOk 0 s _).setFld (by simp) _).setFld (by simp) _

/-! ### What the registers of SYS show -/

/-- No register of SYS follows what another block holds. -/
theorem views_of_sys {a : Nat} (ha : a < 0x10000) (s : State) (side : Side) (w : Word) :
    viewRest s side a (viewFrame s a (viewFront s a w)) = w := by
  have hne (f : Fld) (hf : 0x10000 ≤ f.addr) : a ≠ f.addr := by omega
  have hfront : viewFront s a w = w := by
    have hingest : ¬ (0x40000 ≤ a ∧ a < 0x50000) := by omega
    simp (disch := decide) only [viewFront, hne, hingest, if_false]
  have hframe : viewFrame s a w = w := by
    simp (disch := decide) only [viewFrame, hne, false_and, or_self, if_false]
  have hrest : viewRest s side a w = w := by
    have hlog : ¬ ((CALL_LOG_ENTRY.DATA 1).addr ≤ a ∧ a ≤ (CALL_LOG_ENTRY.DATA 7).addr) := fun h =>
      absurd (Nat.lt_of_le_of_lt h.1 ha) (by decide)
    simp (disch := decide) only [viewRest, hne, hlog, false_and, if_false]
  rw [hfront, hframe, hrest]

/-- SYS lies in no switched power domain. -/
theorem regDark_of_sys {a : Nat} (ha : a < 0x10000) (s : State) : regDark s a = false := by
  have hblock : a / 0x10000 = 0 := Nat.div_eq_of_lt ha
  simp [regDark, hblock, holdingDomains, targetDomains]

theorem readReg_of_sys {a : Nat} (ha : a < 0x10000) {r : RegDef} (hr : regAt a = some r)
    (hwo : r.maskOf (fun f => f.acc == .wo) = 0) (s : State) (side : Side) : readReg s side a = s.word a := by
  simp only [readReg, hr, hwo, regDark_of_sys ha, views_of_sys ha, Bool.false_and, Bool.false_eq_true, if_false]
  exact BitVec.and_allOnes

theorem mboxData_lt (toSm : Bool) (i : Fin 64) : (mboxData toSm i).addr < 0x10000 := by
  cases toSm <;> simp [mboxData, SYS_MBOX_TO_SM.DATA, SYS_MBOX_TO_CO.DATA] <;> omega

/-- Every message word is a register of the map, none of whose bits is write-only. -/
theorem regAt_mboxData : ∀ (toSm : Bool) (i : Fin 64),
    regAt (mboxData toSm i).addr = some ⟨if toSm then 0x100 else 0x200, 64, 4, [⟨31, 0, .mailbox, true, 0⟩]⟩ := by
  decide +kernel

theorem readReg_mboxData (s : State) (side : Side) (toSm : Bool) (i : Fin 64) :
    readReg s side (mboxData toSm i).addr = s.word (mboxData toSm i).addr :=
  readReg_of_sys (mboxData_lt toSm i) (regAt_mboxData toSm i) rfl s side

/-! ### The obligation -/

/-- Settles O11, by the three cases of a mailbox write (ignored, stored, stored with the overwrite flag), each proved for both
mailboxes at once, and the read of a register of SYS. The cause and DETAIL of the overwrite warning are the model's reading of R38
and R552 (assumptions 17 and 101). -/
theorem mailboxWritesStoreOrFlag : Obligations.MailboxWritesStoreOrFlag := by
  unfold Obligations.MailboxWritesStoreOrFlag
  have hco {side : Side} (h : side ≠ .stageManager) : (side == .stageManager) = false := beq_eq_false_iff_ne.mpr h
  refine ⟨?storedToSm, ?storedToCo, ?flaggedToSm, ?flaggedToCo, ?ignoredToSm, ?ignoredToCo, ?read⟩
  case storedToSm =>
    intro s side i v hside hmsg
    exact exec_mailboxWrite_stored (toSm := true) (by simp [hco hside]) hmsg i v
  case storedToCo =>
    intro s i v hmsg
    exact exec_mailboxWrite_stored (side := .stageManager) (toSm := false) (by decide) hmsg i v
  case flaggedToSm =>
    intro s side i v hside hmsg
    exact exec_mailboxWrite_flagged (toSm := true) (by simp [hco hside]) hmsg i v
  case flaggedToCo =>
    intro s i v hmsg
    exact exec_mailboxWrite_flagged (side := .stageManager) (toSm := false) (by decide) hmsg i v
  case ignoredToSm =>
    intro s i v
    exact exec_mailboxWrite_ignored (side := .stageManager) (toSm := true) (by decide) s i v
  case ignoredToCo =>
    intro s side i v hside
    exact exec_mailboxWrite_ignored (toSm := false) (hco hside).symm s i v
  case read =>
    intro s side i
    exact ⟨readReg_mboxData s side true i, readReg_mboxData s side false i⟩

end Sys2Proof.Machine
end

section
/-! PROOFS. Doorbells and the Stage Manager interrupt (R35, R526). -/

namespace Sys2Proof.Machine

/-! ### A message of the management controller (R526) -/

/-- The alert registers are neither doorbells nor mailboxes. -/
theorem alertUpdate_keeps_word (s : State) {a : Nat} (hsrc : a ≠ MGMT_ALERT_SRC.CALL.addr) (hstat : a ≠ MGMT_STATUS.ALERT.addr) :
    (alertUpdate s).word a = s.word a := by
  simp only [alertUpdate]
  split
  · exact State.word_setFld_ne _ _ _ hsrc
  · exact (State.word_setFld_ne _ _ _ hstat).trans (State.word_setFld_ne _ _ _ hsrc)

/-- A message of the controller raises the Stage Manager interrupt and leaves its doorbell as it is (R526). -/
theorem exec_msg_raises_smInterrupt {s : State} (hen : s.flag MGMT_CFG.CTRL_EN = true) :
    ∃ t, exec (.msg 1) s = .next t ∧ smInterrupt t = true ∧ t.word SYS_DB_TO_SM.MSG.addr = s.word SYS_DB_TO_SM.MSG.addr := by
  have hdo : doMsg 1 s = setToSm true s := by
    rw [doMsg, control, if_pos hen]
    rfl
  refine ⟨alertUpdate (setToSm true s), congrArg (fun u => Host.Outcome.next (alertUpdate u)) hdo, ?raised, ?bells⟩
  case raised =>
    have hword : (alertUpdate (setToSm true s)).word MGMT_MBOX_CTRL.TO_SM.addr =
        (s.setFlag MGMT_MBOX_CTRL.TO_SM true).word MGMT_MBOX_CTRL.TO_SM.addr :=
      (alertUpdate_keeps_word _ (by decide) (by decide)).trans (State.word_setFld_ne _ _ _ (by decide))
    have hflag : (alertUpdate (setToSm true s)).flag MGMT_MBOX_CTRL.TO_SM = true := by
      rw [State.flag, State.fld, hword]
      exact State.flag_setFlag_same s _ true rfl rfl
    rw [smInterrupt, hflag, Bool.or_true]
  case bells =>
    exact (alertUpdate_keeps_word _ (by decide) (by decide)).trans
      ((State.word_setFld_ne _ _ _ (by decide)).trans (State.word_setFld_ne _ _ _ (by decide)))

/-! ### The obligation -/

/-- A state with every register zero but `MGMT_CFG.CTRL_EN`, which is 1 at Reset. -/
def controlEnabled : State := { State.reset with regs := [(MGMT_CFG.CTRL_EN.addr, 0x80000000)] }

/-- Refutes O10: the Stage Manager interrupt is raised with no doorbell bit set once the management controller has sent a message,
for `MSG[0]` raises it as well (R526). -/
theorem not_doorbellsSetAndClear : ¬ Obligations.DoorbellsSetAndClear := by
  unfold Obligations.DoorbellsSetAndClear
  rintro ⟨-, -, hsm, -⟩
  obtain ⟨t, -, hraised, hbells⟩ := exec_msg_raises_smInterrupt (s := controlEnabled) (by decide)
  obtain ⟨i, -, hbell⟩ := (hsm t).mp hraised
  have hnone : t.word (bellsFor .stageManager).addr = 0 := hbells.trans (by decide)
  simp [hnone] at hbell

end Sys2Proof.Machine
end

section
/-! PROOFS. No command of the device stops, touches the queue or breaks the invariant. A change of the state is steady (`Steady`)
where it keeps the queue, device time and what waits for its tick, and the memories in canonical form: nearly every function of the
model is. One lemma per function, in the order of the model's files, each from the lemmas of the functions that it calls. -/

namespace Sys2Proof.Machine

/-! ### Steady changes, lawful changes and answers -/

/-- Everything that a steady change may not touch, or only in canonical form. -/
def State.core (s : State) : List Instr × DevTime × List TimeNext × Sparse 32 × Sparse 9 × Sparse 8 × Sparse 8 × Sparse 8 :=
  (s.pending, s.time, s.clock.next, s.regs, s.scratch, s.smSram, s.dram, s.nvm)

/-- A change of fields outside the core is steady; the queue, named first, tells which state was changed. -/
theorem Steady.of_core {s t : State} (_ : t.pending = s.pending) (h : t.core = s.core) : Steady s t := by
  simp only [State.core, Prod.mk.injEq] at h
  obtain ⟨hp, ht, hn, hr, h1, h2, h3, h4⟩ := h
  exact .of_eq hp ht hn hr h1 h2 h3 h4

/-- The state of a pair whose second part is steady. -/
theorem Steady.snd {α : Type} {s t : State} {a : α} {p : α × State} (h : Steady s p.2) (e : p = (a, t)) : Steady s t := by
  rwa [e] at h

theorem Steady.pair {α : Type} {s t : State} {a : α} (h : Steady s t) : Steady s (a, t).2 := h

/-- `t` keeps the queue of `s` and the invariant of the device. Weaker than `Steady`: time may move. -/
structure Lawful (s t : State) : Prop where
  pending : t.pending = s.pending
  inv : s.Inv → t.Inv

namespace Lawful

theorem refl (s : State) : Lawful s s := ⟨rfl, id⟩

theorem ofSteady {s t : State} (h : Steady s t) : Lawful s t := ⟨h.pending, h.inv⟩

/-- The last change first. -/
theorem after {s t u : State} (k : Lawful t u) (h : Lawful s t) : Lawful s u :=
  ⟨k.pending.trans h.pending, fun i => k.inv (h.inv i)⟩

theorem trans {s t u : State} (h : Lawful s t) (k : Lawful t u) : Lawful s u := k.after h

theorem ite {p : Prop} [Decidable p] {s t u : State} (h : Lawful s t) (k : Lawful s u) : Lawful s (if p then t else u) := by
  split
  · exact h
  · exact k

theorem foldl {α : Type} (f : State → α → State) (h : ∀ s a, Lawful s (f s a)) (l : List α) (s : State) :
    Lawful s (l.foldl f s) := by
  induction l generalizing s with
  | nil => exact refl s
  | cons a l ih => exact (ih (f s a)).after (h s a)

theorem snd {α : Type} {s t : State} {a : α} {p : α × State} (h : Lawful s p.2) (e : p = (a, t)) : Lawful s t := by
  rwa [e] at h

end Lawful

/-- A command answers a next state, lawfully. -/
def Answers (s : State) (o : Host.Outcome State Fault Refusal) : Prop := ∃ t, o = .next t ∧ Lawful s t

namespace Answers

theorem nextLawful {s t : State} (h : Lawful s t) : Answers s (.next t) := ⟨t, rfl, h⟩

theorem next {s t : State} (h : Steady s t) : Answers s (.next t) := nextLawful (.ofSteady h)

theorem ite {p : Prop} [Decidable p] {s : State} {o o' : Host.Outcome State Fault Refusal} (h : Answers s o) (k : Answers s o') :
    Answers s (if p then o else o') := by
  split
  · exact h
  · exact k

theorem after {s t : State} {o : Host.Outcome State Fault Refusal} (k : Answers t o) (h : Lawful s t) : Answers s o := by
  obtain ⟨u, hu, hl⟩ := k
  exact ⟨u, hu, hl.after h⟩

end Answers

/-! ### One field outside the core changed -/

theorem withSys_steady (x : SysState) (s : State) : Steady s { s with sys := x } := .of_core rfl rfl
theorem withCue_steady (x : CueState) (s : State) : Steady s { s with cue := x } := .of_core rfl rfl
theorem withCall_steady (x : CallState) (s : State) : Steady s { s with call := x } := .of_core rfl rfl
theorem withPower_steady (x : PowerState) (s : State) : Steady s { s with power := x } := .of_core rfl rfl
theorem withTrust_steady (x : TrustState) (s : State) : Steady s { s with trust := x } := .of_core rfl rfl
theorem withIngest_steady (x : List IngestPort) (s : State) : Steady s { s with ingest := x } := .of_core rfl rfl
theorem withLedger_steady (x : LedgerState) (s : State) : Steady s { s with ledger := x } := .of_core rfl rfl
theorem withCell_steady (x : CellState) (s : State) : Steady s { s with cell := x } := .of_core rfl rfl
theorem withPipe_steady (x : PipeState) (s : State) : Steady s { s with pipe := x } := .of_core rfl rfl
theorem withHash_steady (x : HashState) (s : State) : Steady s { s with hash := x } := .of_core rfl rfl
theorem withPool_steady (x : PoolState) (s : State) : Steady s { s with pool := x } := .of_core rfl rfl
theorem withKlink_steady (x : KlinkState) (s : State) : Steady s { s with klink := x } := .of_core rfl rfl
theorem withRawc_steady (x : RawcState) (s : State) : Steady s { s with rawc := x } := .of_core rfl rfl
theorem withMag_steady (x : MagState) (s : State) : Steady s { s with mag := x } := .of_core rfl rfl
theorem withHeve_steady (x : List HeveEng) (s : State) : Steady s { s with heve := x } := .of_core rfl rfl
theorem withHevd_steady (x : HevdState) (s : State) : Steady s { s with hevd := x } := .of_core rfl rfl
theorem withSerial_steady (x : SerialState) (s : State) : Steady s { s with serial := x } := .of_core rfl rfl
theorem withNet_steady (x : NetState) (s : State) : Steady s { s with net := x } := .of_core rfl rfl
theorem withMotion_steady (x : MotionState) (s : State) : Steady s { s with motion := x } := .of_core rfl rfl
theorem withView_steady (x : ViewState) (s : State) : Steady s { s with view := x } := .of_core rfl rfl
theorem withMgmt_steady (x : MgmtState) (s : State) : Steady s { s with mgmt := x } := .of_core rfl rfl
theorem withMem_steady (x : DramState) (s : State) : Steady s { s with mem := x } := .of_core rfl rfl
theorem withFree_steady (x : Nat) (s : State) : Steady s { s with free := x } := .of_core rfl rfl
theorem withTicks_steady (x : Nat) (s : State) : Steady s { s with ticks := x } := .of_core rfl rfl

theorem withClock_steady {x : TimeState} {s : State} (h : x.next = s.clock.next) : Steady s { s with clock := x } :=
  ⟨rfl, rfl, h, id⟩

theorem setClock_steady {x : TimeState} {s : State} (h : x.next = s.clock.next) : Steady s (setClock x s) := withClock_steady h

/-! ### The Footlights buffer pool (`Pool`) -/

theorem poolTake_steady {owner h : Nat} {s t : State} (e : poolTake owner s = some (h, t)) : Steady s t := by
  unfold poolTake at e
  split at e
  · cases e
  · obtain ⟨_, _, e⟩ := Option.map_eq_some_iff.1 e
    obtain ⟨_, rfl⟩ := Prod.mk.inj e
    exact .after (poolShow_steady ..) (.after (creditIssue_steady ..) (setPool_steady ..))

theorem poolDropOwner_steady (h : Nat) (s : State) : Steady s (poolDropOwner h s) := by
  unfold poolDropOwner
  exact poolChange_steady ..

/-! ### What a power domain loses when it goes off, the entry into Dark, held, and the hardware steps of the safe state (`Domains`) -/

theorem cutFrames_steady (q : Frame → Bool) (s : State) : Steady s (cutFrames q s) := by
  unfold cutFrames
  exact .of_core rfl rfl

theorem giveBack_steady (o : HeadOut) (s : State) : Steady s (giveBack o s) := by
  unfold giveBack
  exact releaseBuf_steady ..

/-! ### Cold and warm reset (`Reset`) -/

/-- The registers after a warm reset are in canonical form. -/
theorem warmRegs_wf (s : State) (h : sparseWf 0 s.regs = true) : sparseWf 0 (warmRegs s) = true := by
  have fold : ∀ (l : List Fld) (t : State), sparseWf 0 t.regs = true →
      sparseWf 0 (l.foldl (fun t f => t.setFld f (s.fld f)) t).regs = true := by
    intro l
    induction l with
    | nil => exact fun _ h => h
    | cons f l ih => exact fun t h => ih _ (writeAt_wf h ..)
  exact fold _ _ (resetGroups_wf h ..)

theorem reset_scratch : State.reset.scratch = [] := rfl

theorem reset_smSram : State.reset.smSram = [] := rfl

theorem reset_dram : State.reset.dram = [] := rfl

theorem reset_regs : State.reset.regs = resetRegs := by simp only [State.reset]

theorem reset_time : State.reset.time = ⟨0, 0, 0⟩ := rfl

theorem reset_next : State.reset.clock.next = [] := rfl

theorem warmReset_steady (s : State) : Steady s (warmReset s) := by
  have hm := warmRegs_wf s
  have hs := reset_scratch
  have hd := reset_dram
  unfold warmReset
  generalize warmRegs s = m, State.reset = r at hm hs hd ⊢
  refine ⟨rfl, rfl, rfl, fun ⟨hr, _, hsm, _, hn⟩ => ⟨hm hr, ?_, hsm, ?_, hn⟩⟩
  · rw [hs]; rfl
  · rw [hd]; rfl

/-- The registers after cold reset are in canonical form. -/
theorem resetRegs_wf : sparseWf 0 resetRegs = true := by
  have groups : ∀ (l : List (Nat × RegDef)) (m : Sparse 32), sparseWf 0 m = true →
      sparseWf 0 (l.foldl (fun m e => writeAt 0 m e.1 e.2.reset) m) = true := by
    intro l
    induction l with
    | nil => exact fun _ h => h
    | cons e l ih => exact fun m h => ih _ (writeAt_wf h ..)
  have all : ∀ (gs : List (Nat × List RegDef)) (m : Sparse 32), sparseWf 0 m = true →
      sparseWf 0 (gs.foldl resetGroup m) = true := by
    intro gs
    induction gs with
    | nil => exact fun _ h => h
    | cons g gs ih => exact fun m h => ih _ (groups _ _ h)
  unfold resetRegs
  exact all regGroups [] rfl

theorem coldReset_lawful (s : State) : Lawful s (coldReset s) := by
  have hr : sparseWf 0 State.reset.regs = true := reset_regs ▸ resetRegs_wf
  have hs := reset_scratch
  have hm := reset_smSram
  have hd := reset_dram
  have ht : State.reset.time.ns < 1000000000 := by rw [reset_time]; decide
  have hn := reset_next
  unfold coldReset
  generalize State.reset = r at hr hs hm hd ht hn ⊢
  refine ⟨rfl, fun ⟨⟨_, _, _, _, hnvm⟩, _⟩ => ⟨⟨hr, ?_, ?_, ?_, hnvm⟩, ht, ?_⟩⟩
  · rw [hs]; rfl
  · rw [hm]; rfl
  · rw [hd]; rfl
  · rw [hn]; exact fun _ h => nomatch h

theorem warmResetFor_steady (cause : Fld) (s : State) : Steady s (warmResetFor cause s) := by
  unfold warmResetFor
  exact .after (warmReset_steady ..) (setFlag_steady ..)

theorem closeTerminal_steady (s : State) : Steady s (closeTerminal s) := by
  unfold closeTerminal
  exact .of_core rfl rfl

/-! ### The management port as other blocks see it (`MgmtCore`) -/

theorem setMgmt_steady (m : MgmtState) (s : State) : Steady s (setMgmt m s) := by
  unfold setMgmt
  exact .of_core rfl rfl

theorem alertUpdate_steady (s : State) : Steady s (alertUpdate s) := by
  unfold alertUpdate
  exact .after (setMgmt_steady ..) (.ite (setFld_steady ..) (.after (setFlag_steady ..) (setFld_steady ..)))

theorem mgmtOverrun_steady (s : State) : Steady s (mgmtOverrun s) := by
  unfold mgmtOverrun
  exact .ite (.refl _) (.after (orBit_steady ..) (setMgmt_steady ..))

/-! ### The commands of the Call board (`Call`) -/

theorem pickCurrent_steady (s : State) : Steady s (pickCurrent s) := by
  unfold pickCurrent
  exact .ite (.of_core rfl rfl) (.refl _)

theorem postFirmware_steady (side : Side) (value : Word) (s : State) : Steady s (postFirmware side value s) := by
  unfold postFirmware
  exact postEvent_steady ..

theorem execCallPostWrite_answers (side : Side) (value : Word) (s : State) : Answers s (execCallPostWrite side value s) := by
  unfold execCallPostWrite
  exact .next (.after (postFirmware_steady ..) (busOk_steady ..))

theorem logOldest_steady (s : State) : Steady s (logOldest s) := by
  unfold logOldest
  split
  · exact .refl _
  · exact .after (alertUpdate_steady ..) (.after (mgmtOverrun_steady ..) (.after (pickCurrent_steady ..)
        (.after (withCall_steady ..) (.after (creditReturn_steady ..) (setFld_steady ..)))))

theorem overflowEnded_steady (s : State) : Steady s (overflowEnded s) := by
  unfold overflowEnded
  exact .ite (.after (postEvent_steady ..) (.of_core rfl rfl)) (.refl _)

theorem execCallLogWrite_answers (s : State) : Answers s (execCallLogWrite s) := by
  unfold execCallLogWrite
  refine .ite ?_ ?_
  · exact .next (.refl _)
  · exact .next (.after (overflowEnded_steady ..) (logOldest_steady ..))

theorem execCallLogEntryRead_answers (side : Side) (s : State) : Answers s (execCallLogEntryRead side s) := by
  unfold execCallLogEntryRead
  exact .next (.after (busOk_steady ..) (.of_core rfl rfl))

theorem finishEntry_steady (q : Nat) (s : State) : Steady s (finishEntry q s) := by
  unfold finishEntry
  exact .after (pickCurrent_steady ..) (.of_core rfl rfl)

theorem execCallDoneWrite_answers (side : Side) (seq : Word) (s : State) : Answers s (execCallDoneWrite side seq s) := by
  unfold execCallDoneWrite
  extract_lets
  split
  · exact .next (.after (postKind_steady ..) (busOk_steady ..))
  · refine .ite ?_ ?_
    · exact .next (.after (finishEntry_steady ..) (busOk_steady ..))
    · exact .next (.after (postRefused_steady ..) (busOk_steady ..))

theorem execSmParity_answers (s : State) : Answers s (execSmParity s) := by
  unfold execSmParity
  exact .next (.after (warmReset_steady ..) (postEvent_steady ..))

theorem execFatalHandlingTimeout_answers (s : State) : Answers s (execFatalHandlingTimeout s) := by
  unfold execFatalHandlingTimeout
  refine .ite ?_ ?_
  · exact .next (.refl _)
  · exact .next (fatalEscalate_steady ..)

theorem startRestart_steady (s : State) : Steady s (startRestart s) := by
  unfold startRestart
  exact .of_core rfl rfl

theorem execCallRestart_answers (side : Side) (s : State) : Answers s (execCallRestart side s) := by
  unfold execCallRestart
  extract_lets
  split
  · exact .next (.after (postKind_steady ..) (busOk_steady ..))
  · refine .ite ?_ ?_
    · exact .next (.after (postRefused_steady ..) (busOk_steady ..))
    · exact .next (.after (startRestart_steady ..) (busOk_steady ..))

theorem releaseCompany_steady (s : State) : Steady s (releaseCompany s) := by
  unfold releaseCompany
  split
  · exact .refl _
  · exact .ite (.after (withCall_steady ..) (setFlag_steady ..)) (.after (warmReset_steady ..)
        (.after (setFlag_steady ..) (postEvent_steady ..)))

theorem execCompanyRestartRelease_answers (s : State) : Answers s (execCompanyRestartRelease s) := by
  unfold execCompanyRestartRelease
  split
  · refine .ite ?_ ?_
    · exact .next (.refl _)
    · exact .next (releaseCompany_steady ..)
  · exact .next (.refl _)

theorem resumeFatals_steady (s : State) : Steady s (resumeFatals s) := by
  unfold resumeFatals
  exact .of_core rfl rfl

theorem execCoKick_answers (s : State) : Answers s (execCoKick s) := by
  unfold execCoKick
  extract_lets
  split
  · refine .ite ?_ ?_
    · exact .next (.after (resumeFatals_steady ..) (.after (withCall_steady ..) (.after (addFld_steady ..)
          (.after (setFlag_steady ..) (.after (withCall_steady ..) (busOk_steady ..))))))
    · exact .next (.after (withCall_steady ..) (busOk_steady ..))
  · exact .next (.after (withCall_steady ..) (busOk_steady ..))

theorem execCompanyRestartTimeout_answers (s : State) : Answers s (execCompanyRestartTimeout s) := by
  unfold execCompanyRestartTimeout
  refine .ite ?_ ?_
  · exact .next (.refl _)
  · refine .ite ?_ ?_
    · exact .next (.after (warmReset_steady ..) (.after (withCall_steady ..) (.after (postEvent_steady ..) (addFld_steady ..))))
    · exact .next (.after (startRestart_steady ..) (.after (withCall_steady ..)
          (.after (postEvent_steady ..) (addFld_steady ..))))

theorem execCompanyWatchdogExpire_answers (s : State) : Answers s (execCompanyWatchdogExpire s) := by
  unfold execCompanyWatchdogExpire
  refine .ite ?_ ?_
  · exact .next (.refl _)
  · exact .next (.after (startRestart_steady ..) (.after (postEvent_steady ..) (setFlag_steady ..)))

theorem execSmKick_answers (side : Side) (s : State) : Answers s (execSmKick side s) := by
  unfold execSmKick
  extract_lets
  split
  · exact .next (.after (postKind_steady ..) (busOk_steady ..))
  · exact .next (.after (withCall_steady ..) (busOk_steady ..))

theorem execSmWatchdogExpire_answers (s : State) : Answers s (execSmWatchdogExpire s) := by
  unfold execSmWatchdogExpire
  refine .ite ?_ ?_
  · exact .next (.refl _)
  · refine .ite ?_ ?_
    · exact .next (.after (warmReset_steady ..) (.after (setFlag_steady ..) (.after (withCall_steady ..)
          (.after (postEvent_steady ..) (setFlag_steady ..)))))
    · exact .next (.after (withCall_steady ..) (.after (postEvent_steady ..) (setFlag_steady ..)))

/-! ### Blocks of the DRAM data region as they are read and written (`DramCore`) -/

theorem setMem_steady (m : DramState) (s : State) : Steady s (setMem m s) := by
  unfold setMem
  exact .of_core rfl rfl

theorem writeBuf_steady (s : State) (a : Nat) (bs : List Byte) : Steady s (s.writeBuf a bs) := by
  unfold State.writeBuf
  exact writeDram_steady ..

/-! ### The Footlights screen as the pipeline sees it (`ViewCore`) -/

theorem setView_steady (v : ViewState) (s : State) : Steady s (setView v s) := by
  unfold setView
  exact .of_core rfl rfl

theorem viewDirty_steady (r : Option PanelRect) (s : State) : Steady s (viewDirty r s) := by
  unfold viewDirty
  split
  · exact setView_steady ..
  · exact .refl _

/-! ### The output heads of the pixel pipeline (`PipeCore`) -/

theorem takeBuf_steady {p num k : Nat} {s t : State} (e : takeBuf p num s = some (k, t)) : Steady s t := by
  unfold takeBuf at e
  obtain ⟨_, _, e⟩ := Option.map_eq_some_iff.1 e
  obtain ⟨_, rfl⟩ := Prod.mk.inj e
  exact .after (showFree_steady ..) (.after (creditIssue_steady ..) (modPipePort_steady ..))

theorem modHeve_steady (e : Nat) (f : HeveEng → HeveEng) (s : State) : Steady s (modHeve e f s) := by
  unfold modHeve
  exact setHeve_steady ..

theorem heveFlag_steady (f : Nat → Fld) (cls : EventClass) (e : Nat) (s : State) : Steady s (heveFlag f cls e s) := by
  unfold heveFlag
  exact postFlag_steady ..

theorem heveShow_steady (e : Nat) (s : State) : Steady s (heveShow e s) := by
  unfold heveShow
  exact .after (setFld_steady ..) (.after (setFlag_steady ..) (.after (setFlag_steady ..) (setFlag_steady ..)))

theorem heveBad_steady (e : Nat) (s : State) : Steady s (heveBad e s) := by
  unfold heveBad
  exact .after (heveShow_steady ..) (.after (heveFlag_steady ..) (modHeve_steady ..))

theorem heveDrop_steady (e : Nat) (s : State) : Steady s (heveDrop e s) := by
  unfold heveDrop
  split
  · exact .refl _
  · exact .after (heveShow_steady ..) (.after (heveFlag_steady ..) (.after (addFld_steady ..)
        (.after (releaseBuf_steady ..) (modHeve_steady ..))))

theorem heveTrim_steady (e : Nat) (s : State) : Steady s (heveTrim e s) := by
  unfold heveTrim
  refine .after (.foldl _ (fun _ _ => heveDrop_steady ..) _ _) ?_
  exact .refl _

theorem heveTake_steady (e : Nat) (o : HeadOut) (s : State) : Steady s (heveTake e o s) := by
  unfold heveTake
  exact .ite (.after (releaseBuf_steady ..) (.ite (heveBad_steady ..) (.refl _))) (.after (heveTrim_steady ..)
      (.after (heveShow_steady ..) (.after (modHeve_steady ..) (.ite (heveBad_steady ..) (.refl _)))))

theorem handOut_steady (o : HeadOut) (s : State) : Steady s (handOut o s) := by
  unfold handOut
  split
  · exact heveTake_steady ..
  · exact setPipe_steady ..

theorem handPicture_steady (h : Nat) (p : Nat) (k : Nat) (addr : Nat) (skipped : Bool) (src : PipeSrc) (s : State) :
    Steady s (handPicture h p k addr skipped src s) := by
  unfold handPicture
  exact handOut_steady ..

theorem viewTakeOne_steady (o : HeadOut) (s : State) : Steady s (viewTakeOne o s) := by
  unfold viewTakeOne
  exact .ite (.refl _) (.ite (.after (poolChange_steady ..) (setPipe_steady ..)) (.after (viewDirty_steady ..)
      (.after (setFld_steady ..) (.after (setView_steady ..) ((by
      split
      · exact .after (poolChange_steady ..) (setPipe_steady ..)
      · exact setPipe_steady ..))))))

theorem viewTake_steady (s : State) : Steady s (viewTake s) := by
  unfold viewTake
  refine .after (.foldl _ (fun _ _ => viewTakeOne_steady ..) _ _) ?_
  exact .refl _

theorem pipeFlag_steady (f : Fld) (cls : EventClass) (port : Nat) (s : State) : Steady s (pipeFlag f cls port s) := by
  unfold pipeFlag
  exact postFlag_steady ..

theorem skipHead_steady (src : PipeSrc) (h : Nat) (s : State) : Steady s (skipHead src h s) := by
  unfold skipHead
  exact .ite (.refl _) (.ite ((by
      split
      · exact .refl _
      · exact .after (handPicture_steady ..) (.after (writeBuf_steady ..) ((takeBuf_steady ‹_›))))) ((by
      split
      · exact .refl _
      · exact .after (viewTake_steady ..) (.after (handPicture_steady ..)
            (.after (writeDram_steady ..) ((poolTake_steady ‹_›)))))))

theorem skipFrame_steady (src : PipeSrc) (s : State) : Steady s (skipFrame src s) := by
  unfold skipFrame
  exact .after (pipeFlag_steady ..) (.after (addFld_steady ..) (.after (skipHead_steady ..) (skipHead_steady ..)))

theorem lagSkip_steady (p : Nat) (s : State) : Steady s (lagSkip p s) := by
  unfold lagSkip
  split
  · exact .ite (.after (skipFrame_steady ..) (modPipePort_steady ..)) (.refl _)
  · exact .refl _

theorem writeHeader_steady (j : PipeJob) (h : Nat) (addr : Nat) (abandoned : Bool) (done : Bool) (s : State) :
    Steady s (writeHeader j h addr abandoned done s) := by
  unfold writeHeader
  exact writeBuf_steady ..

theorem writeHeaders_steady (j : PipeJob) (abandoned done : Bool) (s : State) : Steady s (writeHeaders j abandoned done s) := by
  unfold writeHeaders
  extract_lets s1
  have h1 : Steady s s1 := by
    unfold s1
    split
    · exact writeHeader_steady ..
    · exact .refl _
  split
  · exact .after (writeHeader_steady ..) h1
  · exact h1

theorem endJob_steady (p : Nat) (j : PipeJob) (abandoned : Bool) (s : State) : Steady s (endJob p j abandoned s) := by
  unfold endJob
  exact .ite (.after (pipeFlag_steady ..) (.after (addFld_steady ..) (.after (clrBit_steady ..) (.after (viewTake_steady ..)
      (.after (writeHeaders_steady ..) (modPipePort_steady ..)))))) (.after (clrBit_steady ..) (.after (viewTake_steady ..)
      (.after (writeHeaders_steady ..) (modPipePort_steady ..))))

theorem pipeReclaimBy_steady (p : Nat) (hit : PipeSrc → Bool) (s : State) : Steady s (pipeReclaimBy p hit s) := by
  unfold pipeReclaimBy
  extract_lets
  split
  · exact .after (skipFrame_steady ..) (modPipePort_steady ..)
  · split
    · exact .refl _
    · exact .ite (.refl _) (.ite (modPipePort_steady ..) (endJob_steady ..))

theorem pipeReclaim_steady (p : Nat) (num : Nat) (s : State) : Steady s (pipeReclaim p num s) := by
  unfold pipeReclaim
  exact pipeReclaimBy_steady ..

/-! ### The NVM controller (`Nvm`) -/

theorem advanceJournal_steady (p : Nat) (seq : Nat) (s : State) : Steady s (advanceJournal p seq s) := by
  unfold advanceJournal
  exact .after (withTrust_steady ..) (setFld_steady ..)

theorem findPosition_steady (s : State) : Steady s (findPosition s) := by
  unfold findPosition
  split
  · exact advanceJournal_steady ..
  · exact .refl _

theorem knowPosition_steady (s : State) : Steady s (knowPosition s) := by
  unfold knowPosition
  exact .ite (findPosition_steady ..) (.refl _)

theorem programBoth_steady (p : Nat) (data : List Byte) (s : State) : Steady s (programBoth p data s) := by
  unfold programBoth
  exact .after (writeNvm_steady ..) (writeNvm_steady ..)

theorem journalFull_steady (s : State) : Steady s (journalFull s) := by
  unfold journalFull
  exact .after (postEvent_steady ..) (setFlag_steady ..)

theorem journalSpent_steady (s : State) : Steady s (journalSpent s) := by
  unfold journalSpent
  exact postEvent_steady ..

theorem holdRecord_steady (refused : Bool) (type : Nat) (payload : List Byte) (s : State) :
    Steady s (holdRecord refused type payload s) := by
  unfold holdRecord
  exact .of_core rfl rfl

theorem deviceRecord_steady (type : Nat) (payload : List Byte) (s : State) : Steady s (deviceRecord type payload s) := by
  unfold deviceRecord
  exact .ite (journalSpent_steady ..) (.ite (holdRecord_steady ..) ((by
      split
      · exact journalFull_steady ..
      · exact .after (advanceJournal_steady ..) (programBoth_steady ..))))

theorem recordOrHold_steady (type : Nat) (payload : List Byte) (s : State) : Steady s (recordOrHold type payload s) := by
  unfold recordOrHold
  exact .ite (.after (journalFull_steady ..) (holdRecord_steady ..)) (.after (deviceRecord_steady ..) (knowPosition_steady ..))

theorem retryHeld_steady (s : State) (r : HeldRecord) : Steady s (retryHeld s r) := by
  unfold retryHeld
  exact .ite (holdRecord_steady ..) (.ite (.after (journalFull_steady ..) (holdRecord_steady ..)) (deviceRecord_steady ..))

theorem programHeld_steady (s : State) : Steady s (programHeld s) := by
  unfold programHeld
  refine .ite ?_ ?_
  · exact .refl _
  · refine .after (.foldl _ (fun _ _ => retryHeld_steady ..) _ _) ?_
    exact .after (withTrust_steady ..) (knowPosition_steady ..)

theorem privRecord_steady (action : Nat) (inst : Nat) (key : List Byte) (s : State) :
    Steady s (privRecord action inst key s) := by
  unfold privRecord
  exact deviceRecord_steady ..

theorem privRefused_steady (block : Nat) (action : Nat) (s : State) : Steady s (privRefused block action s) := by
  unfold privRefused
  exact postKind_steady ..

theorem nvmRefuse_steady (s : State) : Steady s (nvmRefuse s) := by
  unfold nvmRefuse
  exact .after (postRefused_steady ..) (setFlag_steady ..)

theorem nvmStart_steady (op : NvmOp) (s : State) : Steady s (nvmStart op s) := by
  unfold nvmStart
  exact .after (withTrust_steady ..) (setFlag_steady ..)

theorem execJournalAppend_answers (s : State) : Answers s (execJournalAppend s) := by
  unfold execJournalAppend
  refine .ite ?_ ?_
  · exact .next (.after (nvmRefuse_steady ..) (busOk_steady ..))
  · refine .ite ?_ ?_
    · exact .next (.after (journalSpent_steady ..) (.after (setFlag_steady ..) (busOk_steady ..)))
    · split
      · exact .next (.after (journalFull_steady ..) (.after (setFlag_steady ..) (busOk_steady ..)))
      · exact .next (.after (nvmStart_steady ..) (busOk_steady ..))

theorem execSlotProgram_answers (s : State) : Answers s (execSlotProgram s) := by
  unfold execSlotProgram
  extract_lets
  split
  · exact .next (.after (nvmRefuse_steady ..) (busOk_steady ..))
  · refine .ite ?_ ?_
    · exact .next (.after (nvmRefuse_steady ..) (busOk_steady ..))
    · exact .next (.after (nvmStart_steady ..) (busOk_steady ..))

theorem execSectorErase_answers (s : State) : Answers s (execSectorErase s) := by
  unfold execSectorErase
  refine .ite ?_ ?_
  · exact .next (.after (nvmRefuse_steady ..) (busOk_steady ..))
  · exact .next (.after (nvmStart_steady ..) (busOk_steady ..))

theorem execNvmRead_answers (s : State) : Answers s (execNvmRead s) := by
  unfold execNvmRead
  refine .ite ?_ ?_
  · exact .next (.after (nvmRefuse_steady ..) (busOk_steady ..))
  · exact .next (.after (nvmStart_steady ..) (busOk_steady ..))

theorem nvmIdle_steady (s : State) : Steady s (nvmIdle s) := by
  unfold nvmIdle
  exact .after (withTrust_steady ..) (setFlag_steady ..)

theorem sessionProgrammed_steady (a : Nat) (s : State) : Steady s (sessionProgrammed a s) := by
  unfold sessionProgrammed
  split
  · exact .refl _
  · exact .ite (.of_core rfl rfl) (.after (privRecord_steady ..) (.after (withTrust_steady ..) (setFlag_steady ..)))

theorem withNvmTrust_steady (m : Sparse 8) (x : TrustState) (s : State) (h : Memory.wf 0xFF s.nvm → Memory.wf 0xFF m) :
    Steady s { s with nvm := m, trust := x } :=
  ⟨rfl, rfl, rfl, fun ⟨hr, hs, hm, hd, hn⟩ => ⟨hr, hs, hm, hd, h hn⟩⟩

theorem nvmEffect_steady (op : NvmOp) (s : State) : Steady s (nvmEffect op s) := by
  unfold nvmEffect
  split
  · exact .after (advanceJournal_steady ..) (programBoth_steady ..)
  · exact .after (sessionProgrammed_steady ..) (writeNvm_steady ..)
  next a =>
    extract_lets x s1
    have h1 : Steady s s1 := withNvmTrust_steady _ _ _ (fun h => clearRange_wf h _ _)
    clear_value s1
    split
    · exact .ite (.after (setTrust_steady ..) h1) h1
    · exact h1
  · exact .foldl _ (fun _ _ => setFld_steady ..) _ _

theorem execNvmOpComplete_answers (s : State) : Answers s (execNvmOpComplete s) := by
  unfold execNvmOpComplete
  split
  · exact .next (.refl _)
  · exact .next (.after (programHeld_steady ..) (.after (nvmEffect_steady ..) (nvmIdle_steady ..)))

theorem spoil_steady (a : Nat) (n : Nat) (s : State) : Steady s (spoil a n s) := by
  unfold spoil
  split
  · exact .after (writeNvm_steady ..) (.snd (takeBytes_steady ..) ‹_›)

theorem abandonProgram_steady (copy1 : Bool) (s : State) : Steady s (abandonProgram copy1 s) := by
  unfold abandonProgram
  split
  · exact .ite (.after (spoil_steady ..) (.after (advanceJournal_steady ..) (.after (writeNvm_steady ..)
        (.after (addFld_steady ..) (nvmIdle_steady ..))))) (.after (spoil_steady ..)
        (.after (addFld_steady ..) (nvmIdle_steady ..)))
  · exact .after (spoil_steady ..) (.after (addFld_steady ..) (nvmIdle_steady ..))
  · exact .refl _

theorem execNvmProgramTimeout_answers (copy1 : Bool) (s : State) : Answers s (execNvmProgramTimeout copy1 s) := by
  unfold execNvmProgramTimeout
  exact .next (.ite (.after (programHeld_steady ..) (abandonProgram_steady ..)) (.refl _))

theorem cutErase_steady (s : State) : Steady s (cutErase s) := by
  unfold cutErase
  split
  · exact .after (programHeld_steady ..) (.after (spoil_steady ..) (nvmIdle_steady ..))
  · exact .refl _

theorem execCurtainNvmCutoff_answers (copy1 : Bool) (s : State) : Answers s (execCurtainNvmCutoff copy1 s) := by
  unfold execCurtainNvmCutoff
  exact .next (.ite (.after (programHeld_steady ..) (abandonProgram_steady ..)) (.refl _))

theorem execSlotRewriteStart_answers (slot : Fin 2) (s : State) : Answers s (execSlotRewriteStart slot s) := by
  unfold execSlotRewriteStart
  refine .ite ?_ ?_
  · exact .next (privRefused_steady ..)
  · refine .ite ?_ ?_
    · exact .next (nvmRefuse_steady ..)
    · exact .next (.after (withTrust_steady ..) (setFlag_steady ..))

/-! ### Physical presence and the seal (`Trust`) -/

theorem acceptPress_steady (s : State) : Steady s (acceptPress s) := by
  unfold acceptPress
  exact .after (withTrust_steady ..) (setFlag_steady ..)

theorem execPresenceRelease_answers (s : State) : Answers s (execPresenceRelease s) := by
  unfold execPresenceRelease
  exact .next (.of_core rfl rfl)

theorem execPresenceWindowExpire_answers (s : State) : Answers s (execPresenceWindowExpire s) := by
  unfold execPresenceWindowExpire
  exact .next (.ite (.refl _) (.of_core rfl rfl))

theorem execSvcJmpFitted_answers (s : State) : Answers s (execSvcJmpFitted s) := by
  unfold execSvcJmpFitted
  exact .next (setFlag_steady ..)

theorem execSvcJmpRemoved_answers (s : State) : Answers s (execSvcJmpRemoved s) := by
  unfold execSvcJmpRemoved
  exact .next (setFlag_steady ..)

theorem sealBreak_steady (s : State) : Steady s (sealBreak s) := by
  unfold sealBreak
  exact .after (recordOrHold_steady ..) (.after (postEvent_steady ..) (.after (addFld_steady ..) (.after (setFlag_steady ..)
      (.after (setFlag_steady ..) (.of_core rfl rfl)))))

theorem sealSample_steady (sealB : Bool) (s : State) : Steady s (sealSample sealB s) := by
  unfold sealSample
  exact .ite (.ite (.after (sealBreak_steady ..) (.of_core rfl rfl)) (.of_core rfl rfl)) (.ite (.after (setFlag_steady ..)
      (.of_core rfl rfl)) (.of_core rfl rfl))

theorem execSealSample_answers (sealB : Bool) (s : State) : Answers s (execSealSample sealB s) := by
  unfold execSealSample
  exact .next (sealSample_steady ..)

theorem showTrust_steady (s : State) : Steady s (showTrust s) := by
  unfold showTrust
  refine .after (.foldl _ (fun _ _ => setFld_steady ..) _ _) ?_
  exact .after (setFld_steady ..) (.after (setFlag_steady ..) (.after (setFlag_steady ..)
      (.after (setFld_steady ..) (setFld_steady ..))))

theorem lifecycleRecord_steady (old : Nat) (cause : Nat) (s : State) : Steady s (lifecycleRecord old cause s) := by
  unfold lifecycleRecord
  exact deviceRecord_steady ..

theorem privDenied_steady (action : Nat) (s : State) : Steady s (privDenied action s) := by
  unfold privDenied
  exact .after (privRefused_steady ..) (setFlag_steady ..)

theorem requestDenied_steady (s : State) : Steady s (requestDenied s) := by
  unfold requestDenied
  exact .after (postRefused_steady ..) (setFlag_steady ..)

theorem setOtp_steady (o : Otp) (s : State) : Steady s (setOtp o s) := by
  unfold setOtp
  exact .of_core rfl rfl

theorem provisionBlank_steady (key : List Byte) (s : State) : Steady s (provisionBlank key s) := by
  unfold provisionBlank
  exact .after (privRecord_steady ..) (.after (lifecycleRecord_steady ..) (.after (showTrust_steady ..)
      (.after (setOtp_steady ..) (.of_core rfl rfl))))

theorem replaceMaker_steady (key : List Byte) (i : Nat) (s : State) : Steady s (replaceMaker key i s) := by
  unfold replaceMaker
  exact .after (privRecord_steady ..) (.after (showTrust_steady ..) (setOtp_steady ..))

theorem sawEntropyFail_steady (s : State) : Steady s (sawEntropyFail s) := by
  unfold sawEntropyFail
  exact .of_core rfl rfl

theorem execProvision_answers (healthy : Bool) (s : State) : Answers s (execProvision healthy s) := by
  unfold execProvision
  refine .ite ?_ ?_
  · exact .next (.after (privDenied_steady ..) (busOk_steady ..))
  · split
    · exact .next (.after (requestDenied_steady ..) (busOk_steady ..))
    · refine .ite ?_ ?_
      · exact .next (.after (requestDenied_steady ..) (busOk_steady ..))
      · refine .ite ?_ ?_
        · refine .ite ?_ ?_
          · exact .next (.after (provisionBlank_steady ..) (busOk_steady ..))
          · exact .next (.after (postEvent_steady ..) (.after (sawEntropyFail_steady ..) (.after (setFlag_steady ..)
                (.after (setFlag_steady ..) (busOk_steady ..)))))
        · split
          · refine .ite ?_ ?_
            · exact .next (.after (requestDenied_steady ..) (busOk_steady ..))
            · exact .next (.after (replaceMaker_steady ..) (busOk_steady ..))
          · exact .next (.after (requestDenied_steady ..) (busOk_steady ..))

theorem lifecycleAction_steady {action : Nat} {allowed : Bool} {f : State → State} {s : State} (h : ∀ t, Steady t (f t)) :
    Steady s (lifecycleAction action allowed f s) := by
  unfold lifecycleAction
  refine .ite (.after (privDenied_steady ..) (busOk_steady ..)) (.ite (.after (requestDenied_steady ..) (busOk_steady ..)) ?_)
  exact .after (privRecord_steady ..) (.after (lifecycleRecord_steady ..) (.after (showTrust_steady ..)
      (.after (h _) (busOk_steady ..))))

theorem execToField_answers (s : State) : Answers s (execToField s) := by
  unfold execToField
  exact .next (lifecycleAction_steady (fun _ => setOtp_steady ..))

theorem setService_steady (b : Bool) (s : State) : Steady s (setService b s) := by
  unfold setService
  exact .of_core rfl rfl

theorem execEnterService_answers (s : State) : Answers s (execEnterService s) := by
  unfold execEnterService
  exact .next (lifecycleAction_steady (fun _ => setService_steady ..))

theorem execLeaveService_answers (s : State) : Answers s (execLeaveService s) := by
  unfold execLeaveService
  exact .next (lifecycleAction_steady (fun _ => setService_steady ..))

theorem execRetire_answers (s : State) : Answers s (execRetire s) := by
  unfold execRetire
  exact .next (lifecycleAction_steady (fun _ => setOtp_steady ..))

theorem execConfirm_answers (s : State) : Answers s (execConfirm s) := by
  unfold execConfirm
  extract_lets
  split
  · exact .next (busOk_steady ..)
  · refine .ite ?_ ?_
    · exact .next (busOk_steady ..)
    · exact .next (.after (deviceRecord_steady ..) (.after (withTrust_steady ..) (busOk_steady ..)))

theorem execAdvance_answers (s : State) : Answers s (execAdvance s) := by
  unfold execAdvance
  refine .ite ?_ ?_
  · exact .next (.after (showTrust_steady ..) (.after (setOtp_steady ..) (busOk_steady ..)))
  · exact .next (.after (postRefused_steady ..) (busOk_steady ..))

theorem signRefused_steady (s : State) : Steady s (signRefused s) := by
  unfold signRefused
  exact setFlag_steady ..

theorem signStart_steady (domain : Nat) (addr : Nat) (latch : List Byte) (s : State) :
    Steady s (signStart domain addr latch s) := by
  unfold signStart
  exact .after (withTrust_steady ..) (setFlag_steady ..)

theorem execAttest_answers (s : State) : Answers s (execAttest s) := by
  unfold execAttest
  refine .ite ?_ ?_
  · exact .next (.after (signRefused_steady ..) (busOk_steady ..))
  · split
    · exact .next (.after (signRefused_steady ..) (busOk_steady ..))
    · exact .next (.after (signStart_steady ..) (busOk_steady ..))

/-! ### Digests and chains of the hash engines (`HashCore`) -/

theorem setHash_steady (h : HashState) (s : State) : Steady s (setHash h s) := by
  unfold setHash
  exact .of_core rfl rfl

theorem segmentHeads_steady (seg : Nat) (first : Nat) (s : State) : Steady s (segmentHeads seg first s) := by
  unfold segmentHeads
  exact .after (setHash_steady ..) (.after (setFlag_steady ..) (setFld_steady ..))

theorem beginSegment_steady (first : Nat) (s : State) : Steady s (beginSegment first s) := by
  unfold beginSegment
  exact segmentHeads_steady ..

theorem endSegment_steady (s : State) : Steady s (endSegment s) := by
  unfold endSegment
  exact .after (setHash_steady ..) (setFlag_steady ..)

theorem hashFlag_steady (f : Fld) (cls : EventClass) (s : State) : Steady s (hashFlag f cls s) := by
  unfold hashFlag
  exact postFlag_steady ..

theorem chainFault_steady (s : State) : Steady s (chainFault s) := by
  unfold chainFault
  exact .after (hashFlag_steady ..) (endSegment_steady ..)

theorem absorbFinal_steady (record : List Byte) (coded : List Byte) (s : State) : Steady s (absorbFinal record coded s) := by
  unfold absorbFinal
  exact .ite (.refl _) (.ite (chainFault_steady ..) (setHash_steady ..))

theorem digPut_steady (entry : List Byte) (s : State) : Steady s (digPut entry s) := by
  unfold digPut
  exact .after (setFld_steady ..) (.ite (.after (writeDram_steady ..) (.ite (.after (postFlag_steady ..)
      (.after (setHash_steady ..) (.after (addFld_steady ..) (setFld_steady ..)))) (.refl _))) (.refl _))

/-! ### The cue sheet in use (`CueStack`) -/

theorem setSlotValid_steady (n : Nat) (b : Bool) (s : State) : Steady s (setSlotValid n b s) := by
  unfold setSlotValid
  exact .ite (setBit_steady ..) (setBit_steady ..)

theorem setPending_steady (p : CueStack) (s : State) : Steady s (setPending p s) := by
  unfold setPending
  exact .of_core rfl rfl

theorem doStackOp_steady (op : Nat) (level : Nat) (slot : Nat) (inst : Nat) (off : Nat) (s : State) :
    Steady s (doStackOp op level slot inst off s) := by
  unfold doStackOp
  split
  · exact setPending_steady ..
  · exact postKind_steady ..

theorem overlayWrite_steady (off : Nat) (v : Word) (s : State) : Steady s (overlayWrite off v s) := by
  unfold overlayWrite
  exact .ite (postKind_steady ..) (setPending_steady ..)

theorem captureStart_steady (s : State) : Steady s (captureStart s) := by
  unfold captureStart
  exact .of_core rfl rfl

theorem refuseMode_steady (req : Nat) (check : Nat) (s : State) : Steady s (refuseMode req check s) := by
  unfold refuseMode
  exact postKind_steady ..

theorem firstCommit_steady (s : State) : Steady s (firstCommit s) := by
  unfold firstCommit
  exact .after (setPending_steady ..) (captureStart_steady ..)

theorem warnTimeout_steady (s : State) : Steady s (warnTimeout s) := by
  unfold warnTimeout
  exact .ite (postActsAs_steady ..) (.refl _)

theorem acceptCommit_steady (s : State) : Steady s (acceptCommit s) := by
  unfold acceptCommit
  exact .ite (refuseMode_steady ..) (.after (withCue_steady ..) (.after (warnTimeout_steady ..) (.ite (.ite
      (.refl _) (firstCommit_steady ..)) (.after (addFld_steady ..) (.ite (.refl _) (firstCommit_steady ..))))))

theorem selAct_steady (n : Nat) (s : State) : Steady s (selAct n s) := by
  unfold selAct
  exact .ite (.after (acceptCommit_steady ..) (doStackOp_steady ..)) (doStackOp_steady ..)

/-! ### The serial lanes as their ports drive them (`LaneCore`) -/

theorem laneFlag_steady (f : Nat → Fld) (cls : EventClass) (l : Nat) (s : State) : Steady s (laneFlag f cls l s) := by
  unfold laneFlag
  exact postFlag_steady ..

theorem laneSends_steady (bs : List LaneBlock) (l : Nat) (s : State) : Steady s (laneSends bs l s) := by
  unfold laneSends
  exact modLane_steady ..

theorem laneShow_steady (l : Nat) (s : State) : Steady s (laneShow l s) := by
  unfold laneShow
  exact .after (setFld_steady ..) (.after (setFld_steady ..) (.after (setFld_steady ..)
      (.after (setFld_steady ..) (setFld_steady ..))))

theorem laneReturn_steady (l : Nat) (s : State) : Steady s (laneReturn l s) := by
  unfold laneReturn
  exact .after (laneShow_steady ..) (modLane_steady ..)

theorem laneStart_steady (l : Nat) (rate : Nat) (s : State) : Steady s (laneStart l rate s) := by
  unfold laneStart
  exact .after (laneShow_steady ..) (.after (setFlag_steady ..) (.after (setFlag_steady ..) (.after (setFlag_steady ..)
      (.after (setFlag_steady ..) (.after (setFlag_steady ..) (.after (setFld_steady ..) (modLane_steady ..)))))))

theorem lanesStart_steady (ls : List Nat) (rate : Nat) (s : State) : Steady s (lanesStart ls rate s) := by
  unfold lanesStart
  refine .after (.foldl _ (fun _ _ => laneStart_steady ..) _ _) ?_
  exact .refl _

theorem laneLocked_steady (l : Nat) (s : State) : Steady s (laneLocked l s) := by
  unfold laneLocked
  exact .after (setFlag_steady ..) (.after (setFlag_steady ..) (modLane_steady ..))

theorem laneLost_steady (l : Nat) (s : State) : Steady s (laneLost l s) := by
  unfold laneLost
  exact .after (laneReturn_steady ..) (.after (modLane_steady ..) (.after (addFld_steady ..)
      (.after (setFlag_steady ..) (setFlag_steady ..))))

theorem laneRetire_steady (l : Nat) (s : State) : Steady s (laneRetire l s) := by
  unfold laneRetire
  exact .after (setFlag_steady ..) (.after (setFlag_steady ..) (setFlag_steady ..))

/-! ### Sending over the Kurnarik link (`KlinkCore`) -/

theorem setKlink_steady (k : KlinkState) (s : State) : Steady s (setKlink k s) := by
  unfold setKlink
  exact .of_core rfl rfl

theorem modKPort_steady (p : Nat) (f : KPort → KPort) (s : State) : Steady s (modKPort p f s) := by
  unfold modKPort
  exact setKlink_steady ..

theorem kCount_steady (p : Nat) (k : Nat) (n : Nat) (s : State) : Steady s (kCount p k n s) := by
  unfold kCount
  exact setKlink_steady ..

theorem kEvent_steady (n : Nat) (cls : EventClass) (inst : Nat) (s : State) : Steady s (kEvent n cls inst s) := by
  unfold kEvent
  exact postFlag_steady ..

theorem kAlign_steady (p : Nat) (ls : List Nat) (s : State) : Steady s (kAlign p ls s) := by
  unfold kAlign
  refine .after (.foldl _ (fun _ _ => laneSends_steady ..) _ _) ?_
  exact modKPort_steady ..

theorem kDrive_steady (p : Nat) (seq : Nat) (b : FlitBody) (s : State) : Steady s (kDrive p seq b s) := by
  unfold kDrive
  exact .after (kCount_steady ..) (.after (modKPort_steady ..) (.ite (kCount_steady ..) (.refl _)))

theorem kResend_steady (p : Nat) (align : Bool) (s : State) : Steady s (kResend p align s) := by
  unfold kResend
  exact .ite (modKPort_steady ..) ((by
      extract_lets
      split
      · exact .ite (.after (kAlign_steady ..) (modKPort_steady ..)) (modKPort_steady ..)
      · extract_lets
        split
        · exact .after (kDrive_steady ..) (.ite (.after (kAlign_steady ..) (modKPort_steady ..)) (modKPort_steady ..))
        · exact .after (kCount_steady ..) (.after (modKPort_steady ..) (.after (kDrive_steady ..) (.ite
              (.after (kAlign_steady ..) (modKPort_steady ..)) (modKPort_steady ..))))))

theorem kPumpFree_steady (p : Nat) (s : State) : Steady s (kPumpFree p s) := by
  unfold kPumpFree
  refine .after (.foldl _ (fun _ _ => kDrive_steady ..) _ _) ?_
  exact modKPort_steady ..

theorem kPumpN_steady (n p : Nat) (s : State) : Steady s (kPumpN n p s) := by
  induction n generalizing s with
  | zero => exact .refl _
  | succ n ih =>
    unfold kPumpN
    split
    · exact .refl _
    · refine .ite (.after (ih _) (.after (kDrive_steady ..) (modKPort_steady ..))) (.ite (kPumpFree_steady ..) ?_)
      exact .after (ih _) (.after (creditIssue_steady ..) (.after (modKPort_steady ..) (kDrive_steady ..)))

theorem kPump_steady (p : Nat) (s : State) : Steady s (kPump p s) := by
  unfold kPump
  exact .ite (.refl _) (.after (kPumpN_steady ..) ((by
      split
      · exact kResend_steady ..
      · exact .refl _)))

theorem kSend_steady (p : Nat) (bs : List FlitBody) (s : State) : Steady s (kSend p bs s) := by
  unfold kSend
  exact .after (kPump_steady ..) (modKPort_steady ..)

theorem kSendFree_steady (p : Nat) (b : FlitBody) (s : State) : Steady s (kSendFree p b s) := by
  unfold kSendFree
  exact .ite (modKPort_steady ..) (kDrive_steady ..)

theorem linkSend_steady (b : FlitBody) (s : State) : Steady s (linkSend b s) := by
  unfold linkSend
  exact .ite (kSend_steady ..) (.ite (kSend_steady ..) (.refl _))

theorem pairFlush_steady (s : State) : Steady s (pairFlush s) := by
  unfold pairFlush
  refine .after (.foldl _ (fun _ _ => linkSend_steady ..) _ _) ?_
  exact setKlink_steady ..

theorem pairSend_steady (b : FlitBody) (s : State) : Steady s (pairSend b s) := by
  unfold pairSend
  exact .ite (.after (pairFlush_steady ..) (setKlink_steady ..)) (.refl _)

theorem pairPlaced_steady (out : Nat) (time : Nat) (b : FlitBody) (s : State) : Steady s (pairPlaced out time b s) := by
  unfold pairPlaced
  exact .after (pairFlush_steady ..) (setKlink_steady ..)

/-! ### The frame ledger and the ring (`Ledger`) -/

theorem setLedger_steady (l : LedgerState) (s : State) : Steady s (setLedger l s) := by
  unfold setLedger
  exact .of_core rfl rfl

theorem modFrame_steady (num : Nat) (f : Frame → Frame) (s : State) : Steady s (modFrame num f s) := by
  unfold modFrame
  exact setLedger_steady ..

theorem ledgerShow_steady (s : State) : Steady s (ledgerShow s) := by
  unfold ledgerShow
  exact .after (setFld_steady ..) (.after (setFld_steady ..) (setFld_steady ..))

theorem ledgerFlag_steady (f : Fld) (cls : EventClass) (inst : Nat) (detail : Nat) (s : State) :
    Steady s (ledgerFlag f cls inst detail s) := by
  unfold ledgerFlag
  exact postFlag_steady ..

theorem orFlags_steady (num : Nat) (mask : Nat) (s : State) : Steady s (orFlags num mask s) := by
  unfold orFlags
  exact modFrame_steady ..

theorem slotSeen_steady (f : Frame) (a : Nat) (s : State) : Steady s (slotSeen f a s) := by
  unfold slotSeen
  refine .after (.foldl _ (fun _ _ => dramSeen_steady ..) _ _) ?_
  exact dramSeen_steady ..

theorem modPart_steady (p : Nat) (f : Part → Part) (s : State) : Steady s (modPart p f s) := by
  unfold modPart
  exact setLedger_steady ..

theorem spillStore_steady (record : List Byte) (s : State) : Steady s (spillStore record s) := by
  unfold spillStore
  exact .ite (.refl _) (.ite (ledgerFlag_steady ..) (.after (setFld_steady ..) (.after (writeDram_steady ..) (.ite
      (.after (ledgerFlag_steady ..) (.after (setLedger_steady ..) (.after (addFld_steady ..) (setFld_steady ..))))
      (.refl _)))))

theorem spillFrame_steady (f : Frame) (s : State) : Steady s (spillFrame f s) := by
  unfold spillFrame
  exact .after (modFrame_steady ..) (.ite (spillStore_steady ..) (.after (absorbFinal_steady ..) (spillStore_steady ..)))

theorem rememberGone_steady (f : Frame) (s : State) : Steady s (rememberGone f s) := by
  unfold rememberGone
  exact setLedger_steady ..

theorem ledgerForget_steady (s : State) : Steady s (ledgerForget s) := by
  unfold ledgerForget
  exact .after (setLedger_steady ..) (by
      refine .after (.foldl _ (fun _ _ => rememberGone_steady ..) _ _) ?_
      exact .refl _)

theorem spillSettled_steady (s : State) : Steady s (spillSettled s) := by
  unfold spillSettled
  refine .after (ledgerForget_steady ..) ?_
  refine .after (.foldl _ (fun _ _ => (by
      split
      · exact spillFrame_steady ..
      · exact .refl _)) _ _) ?_
  exact setLedger_steady ..

theorem freeSlot_steady (f : Frame) (s : State) : Steady s (freeSlot f s) := by
  unfold freeSlot
  split
  · exact .refl _
  · exact .after (creditReturn_steady ..) (.after (modFrame_steady ..) (modPart_steady ..))

theorem finalise_steady (num : Nat) (disp : Nat) (reason : Nat) (s : State) : Steady s (finalise num disp reason s) := by
  unfold finalise
  split
  · exact .refl _
  · refine .ite ?_ ?_
    · exact .refl _
    · exact .after (ledgerShow_steady ..) (.after (spillSettled_steady ..) ((by
            split
            · exact .after (linkSend_steady ..) (.ite (.after (linkSend_steady ..) (.after (setHash_steady ..)
                  (.after (freeSlot_steady ..) (.after (setLedger_steady ..)
                  (.after (setLedger_steady ..) (modFrame_steady ..)))))) (.after (setHash_steady ..)
                  (.after (freeSlot_steady ..) (.after (setLedger_steady ..)
                  (.after (setLedger_steady ..) (modFrame_steady ..))))))
            · exact .ite (.after (linkSend_steady ..) (.after (setHash_steady ..) (.after (freeSlot_steady ..)
                  (.after (setLedger_steady ..) (.after (setLedger_steady ..) (modFrame_steady ..))))))
                  (.after (setHash_steady ..) (.after (freeSlot_steady ..) (.after (setLedger_steady ..)
                  (.after (setLedger_steady ..) (modFrame_steady ..))))))))

theorem settleWrites_steady (num : Nat) (s : State) : Steady s (settleWrites num s) := by
  unfold settleWrites
  split
  · exact .refl _
  · exact .ite (.ite (finalise_steady ..) (.ite (finalise_steady ..) (.ite (finalise_steady ..)
        (.ite (finalise_steady ..) (finalise_steady ..))))) (.refl _)

theorem settleDest_steady (num : Nat) (d : Nat) (ok : Bool) (s : State) : Steady s (settleDest num d ok s) := by
  unfold settleDest
  exact .after (settleWrites_steady ..) (modFrame_steady ..)

theorem overwrite_steady (f : Frame) (s : State) : Steady s (overwrite f s) := by
  unfold overwrite
  exact .after (pipeReclaim_steady ..) (finalise_steady ..)

theorem recodeTo_steady (num : Nat) (o : Nat) (s : State) : Steady s (recodeTo num o s) := by
  unfold recodeTo
  split
  · exact .of_core rfl rfl
  · exact .refl _

theorem commitRecord_steady (num : Nat) (dest : Nat) (flag : Nat) (out : Option Nat) (new : Bool) (s : State) :
    Steady s (commitRecord num dest flag out new s) := by
  unfold commitRecord
  exact modFrame_steady ..

theorem commitFrame_steady (num : Nat) (dest : Nat) (flag : Nat) (out : Option Nat) (new : Bool) (s : State) :
    Steady s (commitFrame num dest flag out new s) := by
  unfold commitFrame
  refine .after (.foldl _ (fun _ _ => recodeTo_steady ..) _ _) ?_
  exact commitRecord_steady ..

theorem endRanges_steady (s : State) : Steady s (endRanges s) := by
  unfold endRanges
  exact .after (ledgerShow_steady ..) (setLedger_steady ..)

theorem takeSlot_steady {p k : Nat} {s t : State} (e : takeSlot p s = some (k, t)) : Steady s t := by
  unfold takeSlot at e
  extract_lets at e
  split at e
  · cases e
    exact .after (creditIssue_steady ..) (modPart_steady ..)
  · split at e
    · cases e
      exact .after (creditIssue_steady ..) (modPart_steady ..)
    · cases e

theorem allocateSlot_steady (num p : Nat) (s : State) : Steady s (allocateSlot num p s) := by
  unfold allocateSlot
  extract_lets s1
  have h1 : Steady s s1 := by
    unfold s1
    split
    · exact overwrite_steady ..
    · exact .refl _
  split
  · exact .after (modFrame_steady ..) (.after (pipeReclaimBy_steady ..) (.after (takeSlot_steady ‹_›) h1))
  · exact .after (finalise_steady ..) (.after (ledgerFlag_steady ..) h1)

theorem allocate_steady (num : Nat) (p : Nat) (s : State) : Steady s (allocate num p s) := by
  unfold allocate
  exact .ite (finalise_steady ..) (.ite (allocateSlot_steady ..) ((by
      split
      · exact .after (allocateSlot_steady ..) (overwrite_steady ..)
      · exact .after (finalise_steady ..) (ledgerFlag_steady ..))))

theorem perfCommit_steady (f : Frame) (s : State) : Steady s (perfCommit f s) := by
  unfold perfCommit
  exact .ite (commitFrame_steady ..) (.refl _)

theorem rangeFrame_steady (f : Frame) (s : State) : Steady s (rangeFrame f s) := by
  unfold rangeFrame
  exact .after (endRanges_steady ..) (.after (setLedger_steady ..) (by
      refine .after (.foldl _ (fun _ _ => .ite (.refl _) (.ite (.after (commitFrame_steady ..) (.ite (commitFrame_steady ..)
          (.refl _))) (.ite (commitFrame_steady ..) (.refl _)))) _ _) ?_
      exact .refl _))

theorem logLateT_steady (st : Nat) (num : Nat) (s : State) : Steady s (logLateT st num s) := by
  unfold logLateT
  exact .after (setLedger_steady ..) (by
      refine .after (.foldl _ (fun _ _ => .ite (.after (setFld_steady ..) (setFld_steady ..)) (.refl _)) _ _) ?_
      exact .refl _)

theorem openRecord_steady (port : Nat) (desc : Nat) (fs : Nat) (d : StreamDesc) (origin : Option Nat) (s : State) :
    Steady s (openRecord port desc fs d origin s).2 := by
  unfold openRecord
  exact .pair (.after (ledgerShow_steady ..) (.after (rangeFrame_steady ..) (.after (perfCommit_steady ..)
      (.after (logLateT_steady ..) (.after (allocate_steady ..) (.after (setFld64_steady ..) (.after (setLedger_steady ..)
      (.ite (.refl _) (.ite (segmentHeads_steady ..) (.refl _))))))))))

theorem preWalk_steady (out dest guard port : Nat) (wings : Bool) (l : List Frame) (left done : Nat) (s : State) :
    Steady s (preWalk out dest guard port wings l left done s).2 := by
  induction l generalizing left done s with
  | nil => simp only [preWalk]; exact .refl _
  | cons f l ih =>
    cases left with
    | zero => exact .refl _
    | succ left =>
      unfold preWalk
      split
      · exact .after (ih ..) (commitFrame_steady ..)
      · split
        · exact ih ..
        · split
          · exact ih ..
          · split
            · exact .after (ih ..) (commitFrame_steady ..)
            · exact .refl _

theorem placeRange_steady (r : Range) (s : State) : Steady s (placeRange r s) := by
  unfold placeRange
  exact .ite (setLedger_steady ..) (setLedger_steady ..)

theorem placeStream_steady (p : Placement) (st : Nat) (s : State) : Steady s (placeStream p st s).2 := by
  unfold placeStream
  extract_lets dest wings T tnum tfs ext post r s1 s2 s3 before
  clear_value T
  have h1 : Steady s s1 := by
    unfold s1
    split
    · exact commitFrame_steady ..
    · exact .refl _
  have h2 : Steady s s2 := by
    unfold s2
    split
    · exact .after (.foldl _ (fun _ _ => .ite (commitFrame_steady ..) (.refl _)) _ _) h1
    · exact h1
  have h4 := (preWalk_steady p.out dest (outGuard p.cfg) (st / 4) wings before (outPre p.cfg) 0 s3).after
    ((placeRange_steady r s2).after h2)
  split
  · exact .refl _
  · split
    · exact .refl _
    · exact .pair (.after (endRanges_steady ..) (.ite (.after (ledgerFlag_steady ..) h4) h4))

theorem logTrigger_steady (p : Placement) (st : Nat) (x : Placed) (s : State) : Steady s (logTrigger p st x s) := by
  unfold logTrigger
  exact .after (setFld_steady ..) (.ite (.after (setLedger_steady ..) (by
      refine .after (.foldl _ (fun _ _ => setFld_steady ..) _ _) ?_
      exact .refl _)) (by
      refine .after (.foldl _ (fun _ _ => setFld_steady ..) _ _) ?_
      exact .refl _))

theorem placeAll_steady (p : Placement) (s : State) : Steady s (placeAll p s) := by
  have fold : ∀ (sts : List Nat) (a : List (Nat × Placed) × State), Steady s a.2 →
      Steady s (sts.foldl (fun (a : List (Nat × Placed) × State) st =>
        ((a.1 ++ [(st, (placeStream p st a.2).1)], (placeStream p st a.2).2) : List (Nat × Placed) × State)) a).2 := by
    intro sts
    induction sts with
    | nil => exact fun _ h => h
    | cons st sts ih => exact fun a h => ih _ (.after (placeStream_steady ..) h)
  have h := fold ((List.range 16).filter (fun st => (outStreams p.cfg).testBit st && streamValid s st)) ([], s) (.refl s)
  unfold placeAll
  extract_lets sts
  split
  next res t e =>
  have ht : Steady s t := .snd h e
  refine .after (pairPlaced_steady ..) ?_
  split
  · exact .after (logTrigger_steady ..) ht
  · exact .after (logTrigger_steady ..) ht

theorem placeNext_steady (s : State) : Steady s (placeNext s) := by
  unfold placeNext
  split
  · exact .ite (.after (ledgerShow_steady ..) (.after (placeAll_steady ..) (setLedger_steady ..))) (.refl _)
  · exact .refl _

theorem placeAfterStarts_steady (s : State) : Steady s (placeAfterStarts s) := by
  unfold placeAfterStarts
  refine .ite ?_ ?_
  · exact .refl _
  · refine .after (.foldl _ (fun _ _ => placeNext_steady ..) _ _) ?_
    exact setLedger_steady ..

theorem endAllRanges_steady (fromWings : Bool) (s : State) : Steady s (endAllRanges fromWings s) := by
  unfold endAllRanges
  exact .after (ledgerShow_steady ..) (.after (setLedger_steady ..) (by
      refine .after (.foldl _ (fun _ _ => .ite (postEvent_steady ..) (.refl _)) _ _) ?_
      exact .refl _))

theorem abortPending_steady (s : State) : Steady s (abortPending s) := by
  unfold abortPending
  refine .after (.foldl _ (fun _ _ => finalise_steady ..) _ _) ?_
  exact .refl _

theorem overwriteOpen_steady (p : Option Nat) (s : State) : Steady s (overwriteOpen p s) := by
  unfold overwriteOpen
  refine .after (.foldl _ (fun _ _ => overwrite_steady ..) _ _) ?_
  exact .refl _

/-! ### The trigger pins (`Trigger`) -/

theorem selFire_steady (n : Nat) (s : State) : Steady s (selFire n s) := by
  unfold selFire
  exact .ite (.after (pairSend_steady ..) (selAct_steady ..)) (selAct_steady ..)

theorem selFireAll_steady (cs : List (Nat × Nat × SelEdge)) (s : State) : Steady s (selFireAll cs s) := by
  unfold selFireAll
  refine .after (.foldl _ (fun _ _ => .ite (selFire_steady ..) (.refl _)) _ _) ?_
  exact .refl _

theorem drivePins_steady (k : Nat) (s : State) : Steady s (drivePins k s) := by
  unfold drivePins
  refine .after (.foldl _ (fun _ _ => .ite (.after (setLedger_steady ..) (orBit_steady ..)) (.refl _)) _ _) ?_
  exact .refl _

theorem outputFire_steady (k : Nat) (t : Nat) (hints : List (Nat × Nat)) (s : State) : Steady s (outputFire k t hints s) := by
  unfold outputFire
  exact .after (drivePins_steady ..) (.after (setLedger_steady ..) (.after (ledgerFlag_steady ..) (.ite (setKlink_steady ..)
      (.refl _))))

theorem combineCycle_steady (hints : List (Nat × Nat)) (pulses : List (Nat × Nat)) (t : Nat) (s : State) :
    Steady s (combineCycle hints pulses t s) := by
  unfold combineCycle
  refine .ite ?_ ?_
  · exact setLedger_steady ..
  · refine .after (.foldl _ (fun _ _ => .ite (.refl _) ((by
        split
        · exact outputFire_steady ..
        · exact .refl _))) _ _) ?_
    exact setLedger_steady ..

theorem combineWith_steady (hints : List (Nat × Nat)) (pulses : List (Nat × Nat)) (t : Nat) (s : State) :
    Steady s (combineWith hints pulses t s) := by
  unfold combineWith
  exact .ite (.refl _) (.ite (combineCycle_steady ..) (.after (combineCycle_steady ..) (combineCycle_steady ..)))

theorem combine_steady (pulses : List (Nat × Nat)) (t : Nat) (s : State) : Steady s (combine pulses t s) := by
  unfold combine
  exact combineWith_steady ..

theorem modPin_steady (n : Nat) (f : PinState → PinState) (s : State) : Steady s (modPin n f s) := by
  unfold modPin
  exact setLedger_steady ..

theorem execTrigAccept_answers (pin : Fin 8) (edge : Nat) (s : State) : Answers s (execTrigAccept pin edge s) := by
  unfold execTrigAccept
  refine .ite ?_ ?_
  · exact .next (.refl _)
  · refine .ite ?_ ?_
    · exact .next (.after (addFld_steady ..) (modPin_steady ..))
    · exact .next (.after (selFireAll_steady ..) (.after (combine_steady ..) (.after (orBit_steady ..) (modPin_steady ..))))

theorem execTrigShortRun_answers (run : PinRun) (s : State) : Answers s (execTrigShortRun run s) := by
  unfold execTrigShortRun
  refine .ite ?_ ?_
  · exact .next (.refl _)
  · exact .next (addFld_steady ..)

theorem execTrigRelease_answers (pin : Fin 8) (s : State) : Answers s (execTrigRelease pin s) := by
  unfold execTrigRelease
  refine .ite ?_ ?_
  · exact .next (.refl _)
  · refine .ite ?_ ?_
    · exact .next (modPin_steady ..)
    · exact .next (.after (selFireAll_steady ..) (.after (combine_steady ..) (.after (clrBit_steady ..) (modPin_steady ..))))

theorem execTrigStuck_answers (pin : Fin 8) (s : State) : Answers s (execTrigStuck pin s) := by
  unfold execTrigStuck
  refine .ite ?_ ?_
  · exact .next (.refl _)
  · exact .next (.after (combine_steady ..) (.after (clrBit_steady ..) (.after (ledgerFlag_steady ..) (orBit_steady ..))))

theorem execTrigOutputPulseEnd_answers (pin : Fin 8) (s : State) : Answers s (execTrigOutputPulseEnd pin s) := by
  unfold execTrigOutputPulseEnd
  refine .ite ?_ ?_
  · exact .next (.refl _)
  · exact .next (.after (modPin_steady ..) (clrBit_steady ..))

theorem execSoftwareTrigger_answers (value : Word) (s : State) : Answers s (execSoftwareTrigger value s) := by
  unfold execSoftwareTrigger
  refine .ite ?_ ?_
  · exact .next (.refl _)
  · refine .ite ?_ ?_
    · exact .next (busOk_steady ..)
    · refine .ite ?_ ?_
      · exact .next (.after (combine_steady ..) (busOk_steady ..))
      · refine .ite ?_ ?_
        · exact .next (.after (combine_steady ..) (.after (setLedger_steady ..) (.ite
              (.after (ledgerFlag_steady ..) (busOk_steady ..)) (busOk_steady ..))))
        · exact .next (.after (setLedger_steady ..) (.ite (.after (ledgerFlag_steady ..) (busOk_steady ..)) (busOk_steady ..)))

theorem execSwtrigDue_answers (input : Fin 4) (s : State) : Answers s (execSwtrigDue input s) := by
  unfold execSwtrigDue
  split
  · exact .next (.refl _)
  · refine .ite ?_ ?_
    · exact .next (.refl _)
    · exact .next (.after (combine_steady ..) (setLedger_steady ..))

theorem execRangePlace_answers (s : State) : Answers s (execRangePlace s) := by
  unfold execRangePlace
  refine .ite ?_ ?_
  · exact .next (setLedger_steady ..)
  · exact .next (placeNext_steady ..)

theorem execPartnerDispTimeout_answers (frame : Nat) (s : State) : Answers s (execPartnerDispTimeout frame s) := by
  unfold execPartnerDispTimeout
  split
  · exact .next (.refl _)
  · refine .ite ?_ ?_
    · exact .next (.refl _)
    · exact .next (.after (spillSettled_steady ..) (modFrame_steady ..))

/-! ### The scene cells (`Cell`) -/

theorem setCell_steady (c : CellState) (s : State) : Steady s (setCell c s) := by
  unfold setCell
  exact .of_core rfl rfl

theorem setEval_steady (e : Option CellEval) (s : State) : Steady s (setEval e s) := by
  unfold setEval
  exact setCell_steady ..

theorem cellFlag_steady (f : Fld) (cls : EventClass) (inst : Nat) (s : State) : Steady s (cellFlag f cls inst s) := by
  unfold cellFlag
  exact postFlag_steady ..

theorem setGroupLevel_steady (g : Nat) (b : Bool) (s : State) : Steady s (setGroupLevel g b s) := by
  unfold setGroupLevel
  exact .ite (setBit_steady ..) (setBit_steady ..)

theorem groupsFire_steady (gs : List Nat) (num : Nat) (s : State) : Steady s (groupsFire gs num s) := by
  unfold groupsFire
  refine .ite ?_ ?_
  · exact .refl _
  · exact .after (selFireAll_steady ..) (.after (combine_steady ..) (by
        refine .after (.foldl _ (fun _ _ => .ite (.after (cellFlag_steady ..) (.after (setCell_steady ..) (.ite
            (.after (orBit_steady ..) (.after (setFlag_steady ..) (setGroupLevel_steady ..))) (.after (orBit_steady ..)
            (.after (setFlag_steady ..) (setGroupLevel_steady ..)))))) (.after (setCell_steady ..) (.ite
            (.after (orBit_steady ..) (.after (setFlag_steady ..) (setGroupLevel_steady ..))) (.after (orBit_steady ..)
            (.after (setFlag_steady ..) (setGroupLevel_steady ..)))))) _ _) ?_
        exact .refl _))

theorem groupsFall_steady (gs : List Nat) (s : State) : Steady s (groupsFall gs s) := by
  unfold groupsFall
  refine .ite ?_ ?_
  · exact .refl _
  · refine .after (selFireAll_steady ..) ?_
    refine .after (combine_steady ..) ?_
    refine .after (.foldl _ (fun _ _ => setGroupLevel_steady ..) _ _) ?_
    exact .refl _

theorem decideCell_steady (id : Nat) (col : Nat) (row : Nat) (px : List (Nat × Nat × Nat × Nat)) (filled : Bool) (last : Bool)
    (s : State) : Steady s (decideCell id col row px filled last s) := by
  unfold decideCell
  split
  · exact .refl _
  · exact .after (groupsFire_steady ..) (.ite (.after (setFlag_steady ..) (.ite
        (.after (addFld_steady ..) (setCell_steady ..)) (.ite (.after (setFlag_steady ..)
        (.after (addFld_steady ..) (setCell_steady ..))) (.after (cellFlag_steady ..)
        (.after (addFld_steady ..) (setCell_steady ..)))))) (.ite (.after (addFld_steady ..) (setCell_steady ..)) (.ite
        (.after (setFlag_steady ..) (.after (addFld_steady ..) (setCell_steady ..))) (.after (cellFlag_steady ..)
        (.after (addFld_steady ..) (setCell_steady ..))))))

theorem gridComplete_steady (s : State) : Steady s (gridComplete s) := by
  unfold gridComplete
  split
  · exact .refl _
  · exact .after (setFld64_steady ..) (.after (setFlag_steady ..) (.after (setCell_steady ..) ((by
          split
          · exact groupsFall_steady ..
          · exact .after (writeDram_steady ..) (.after (writeDram_steady ..) (groupsFall_steady ..))))))

theorem cellsRearm_steady (s : State) : Steady s (cellsRearm s) := by
  unfold cellsRearm
  exact .after (groupsFall_steady ..) (setCell_steady ..)

theorem cellFrameStart_steady (num : Nat) (port : Nat) (desc : Nat) (d : StreamDesc) (s : State) :
    Steady s (cellFrameStart num port desc d s) := by
  unfold cellFrameStart
  refine .ite ?_ ?_
  · exact .refl _
  · exact .ite (.after (cellFlag_steady ..) (.after (setFlag_steady ..) (.after (setCell_steady ..) ((by
        split
        · exact .after (writeDram_steady ..) (.after (setCell_steady ..) (.after (groupsFall_steady ..)
              (.ite (cellsRearm_steady ..) (.refl _))))
        · exact .after (setCell_steady ..) (.after (groupsFall_steady ..) (.ite (cellsRearm_steady ..) (.refl _))))))))
              (.after (setFld_steady ..) (.after (setFld_steady ..) (.after (setFlag_steady ..) (.after (setFlag_steady ..)
              (.after (setCell_steady ..) ((by
        split
        · exact .after (writeDram_steady ..) (.after (setCell_steady ..) (.after (groupsFall_steady ..)
              (.ite (cellsRearm_steady ..) (.refl _))))
        · exact .after (setCell_steady ..) (.after (groupsFall_steady ..) (.ite (cellsRearm_steady ..) (.refl _))))))))))

theorem decideRow_steady (f : OpenFrame) (e : CellEval) (row : Nat) (s : State) : Steady s (decideRow f e row s) := by
  unfold decideRow
  refine .after (.foldl _ (fun _ _ => decideCell_steady ..) _ _) ?_
  exact .refl _

theorem decideRows_steady (f : OpenFrame) (n : Nat) (s : State) : Steady s (decideRows f n s) := by
  induction n generalizing s with
  | zero => exact .refl _
  | succ n ih =>
    unfold decideRows
    split
    · exact .refl _
    · refine .ite ?_ (.refl _)
      exact .ite (.after (gridComplete_steady ..) (.after (setEval_steady ..) (decideRow_steady ..)))
        (.after (ih _) (.after (setEval_steady ..) (decideRow_steady ..)))

theorem cellLines_steady (f : OpenFrame) (s : State) : Steady s (cellLines f s) := by
  unfold cellLines
  exact decideRows_steady ..

theorem parityStored_steady (id : Nat) (s : State) : Steady s (parityStored id s) := by
  unfold parityStored
  exact setCell_steady ..

theorem parityHit_steady (s : State) (id : Nat) : Steady s (parityHit s id) := by
  unfold parityHit
  extract_lets
  split
  · exact .ite (.after (parityStored_steady ..) (.after (cellFlag_steady ..) (addFld_steady ..))) (.after (setEval_steady ..)
        (.after (cellFlag_steady ..) (addFld_steady ..)))
  · exact .after (parityStored_steady ..) (.after (cellFlag_steady ..) (addFld_steady ..))

theorem cellParity_steady (ids : List Nat) (s : State) : Steady s (cellParity ids s) := by
  unfold cellParity
  refine .ite ?_ ?_
  · refine .after (.foldl _ (fun _ _ => parityHit_steady ..) _ _) ?_
    exact .refl _
  · exact .refl _

theorem execCellRearm_answers (s : State) : Answers s (execCellRearm s) := by
  unfold execCellRearm
  refine .ite ?_ ?_
  · exact .next (.after (setCell_steady ..) (busOk_steady ..))
  · exact .next (busOk_steady ..)

theorem execCellWindowWrite_answers (side : Side) (addr : BitVec 40) (s : State) :
    Answers s (execCellWindowWrite side addr s) := by
  unfold execCellWindowWrite
  split
  · exact .next (refuseAccess_steady ..)
  · exact .next (.ite (.after (postOther_steady ..) (busError_steady ..)) (busError_steady ..))

theorem execCellCounterClear_answers (s : State) : Answers s (execCellCounterClear s) := by
  unfold execCellCounterClear
  refine .ite ?_ ?_
  · exact .next (.after (setFld_steady ..) (.after (setFld_steady ..) (busOk_steady ..)))
  · exact .next (busOk_steady ..)

/-! ### The DRAM controller (`Dram`) -/

theorem execDramReread_answers (block : Nat) (good : Bool) (s : State) : Answers s (execDramReread block good s) := by
  unfold execDramReread
  refine .ite ?_ ?_
  · exact .next (.refl _)
  · refine .ite ?_ ?_
    · exact .next (.after (dramCheck_steady ..) (dramAccess_steady ..))
    · refine .ite ?_ ?_
      · exact .next (.after (dramFlag_steady ..) (.after (dramCount_steady ..)
            (.after (setMem_steady ..) (dramAccess_steady ..))))
      · exact .next (.after (dramCheck_steady ..) (.ite (dramAccess_steady ..)
            (.after (setMem_steady ..) (dramAccess_steady ..))))

theorem execDramCodeWriteback_answers (mismatch : List Nat) (s : State) : Answers s (execDramCodeWriteback mismatch s) := by
  unfold execDramCodeWriteback
  extract_lets blocks x s1
  have h1 : Steady s s1 := setMem_steady ..
  clear_value blocks s1
  split
  · exact .next h1
  · exact .next (.after (dramFlag_steady ..) (.after (storePoison_steady ..)
      (.after (.foldl _ (fun _ _ => dramAccess_steady ..) _ _) h1)))

theorem execDramRefresh_answers (bank : Fin 512) (postpone : Bool) (s : State) :
    Answers s (execDramRefresh bank postpone s) := by
  unfold execDramRefresh
  exact .next (setMem_steady ..)

theorem execDramMr4Poll_answers (rates : List Nat) (s : State) : Answers s (execDramMr4Poll rates s) := by
  unfold execDramMr4Poll
  exact .next (setMem_steady ..)

theorem trackDelay_steady (delay : Nat) (d : ℤ) (s : State) : Steady s (trackDelay delay d s) := by
  unfold trackDelay
  exact .ite (.after (dramFlag_steady ..) (.after (setFlag_steady ..) (setMem_steady ..))) (setMem_steady ..)

theorem execDramOscTrack_answers (drift : List ℤ) (s : State) : Answers s (execDramOscTrack drift s) := by
  unfold execDramOscTrack
  refine .next ?_
  refine .after (.foldl _ (fun _ _ => .ite (.refl _) (trackDelay_steady ..)) _ _) ?_
  exact .refl _

theorem execDramWckStop_answers (channel : Fin 16) (s : State) : Answers s (execDramWckStop channel s) := by
  unfold execDramWckStop
  refine .ite ?_ ?_
  · exact .next (.refl _)
  · exact .next (setMem_steady ..)

theorem execDramCommit_answers (retire : BitVec 4) (s : State) : Answers s (execDramCommit retire s) := by
  unfold execDramCommit
  extract_lets s1 s2 r gs x s3 s4 s5
  have h1 : Steady s s1 := busOk_steady ..
  have h2 : Steady s s2 := .after (setFld_steady ..) h1
  have h3 : Steady s s3 := .after (noDram_steady ..) h2
  have h5 : Steady s s5 := .after (setFld_steady ..) (.after (setFld_steady ..) (.after (setFlag_steady ..) h3))
  refine .ite (.next h1) (.ite (.next (.after (postRefused_steady ..) h2)) (.ite ?_ ?_))
  · exact .next (.after (postEvent_steady ..) (.after (setFlag_steady ..) h2))
  · exact .next (.after (.foldl _ (fun _ _ => postEvent_steady ..) _ _) h5)

theorem execDramInitDone_answers (s : State) : Answers s (execDramInitDone s) := by
  unfold execDramInitDone
  refine .ite ?_ ?_
  · exact .next (setFlag_steady ..)
  · exact .next (.refl _)

theorem execDramFence_answers (retire : BitVec 4) (s : State) : Answers s (execDramFence retire s) := by
  unfold execDramFence
  refine .ite ?_ ?_
  · exact .next (busOk_steady ..)
  · refine .ite ?_ ?_
    · exact .next (.after (setFld_steady ..) (busOk_steady ..))
    · refine .ite ?_ ?_
      · exact .next (.after (postRefused_steady ..) (busOk_steady ..))
      · exact .next (.after (dramFlag_steady ..) (.after (abortPending_steady ..) (.after (overwriteOpen_steady ..)
            (.after (setFld_steady ..) (.after (setFld_steady ..) (busOk_steady ..))))))

theorem admission_steady (get : Fld → Nat) (mode mask : Nat) (s : State) : Steady s (admission get mode mask s).2 := by
  unfold admission
  extract_lets sum demand limit ok s1
  have h1 : Steady s s1 := .after (setFlag_steady ..) (setFld_steady ..)
  clear_value ok s1
  split
  · exact h1
  · exact .pair (.after (dramFlag_steady ..) h1)

theorem trnWrite_steady (v : Nat) (s : State) : Steady s (trnWrite v s) := by
  unfold trnWrite
  exact .ite (postRefused_steady ..) (setMem_steady ..)

theorem trnStart_steady (op : Nat) (rank : Fin 2) (ch : BitVec 16) (s : State) : Steady s (trnStart op rank ch s) := by
  unfold trnStart
  exact .ite (busOk_steady ..) (.ite (.after (postRefused_steady ..) (.after (setFlag_steady ..) (.after (setFlag_steady ..)
      (.after (setFld_steady ..) (.after (setFld_steady ..) (.after (setFld_steady ..) (busOk_steady ..)))))))
      (.after (setMem_steady ..) (.after (setFlag_steady ..) (.after (setFld_steady ..) (.after (setFld_steady ..)
      (.after (setFld_steady ..) (busOk_steady ..)))))))

theorem execInit_answers (rank : Fin 2) (ch : BitVec 16) (s : State) : Answers s (execInit rank ch s) := by
  unfold execInit
  exact .next (trnStart_steady ..)

theorem execMrw_answers (rank : Fin 2) (ch : BitVec 16) (s : State) : Answers s (execMrw rank ch s) := by
  unfold execMrw
  exact .next (trnStart_steady ..)

theorem execMrr_answers (rank : Fin 2) (ch : BitVec 16) (s : State) : Answers s (execMrr rank ch s) := by
  unfold execMrr
  exact .next (trnStart_steady ..)

theorem execCa_answers (rank : Fin 2) (ch : BitVec 16) (s : State) : Answers s (execCa rank ch s) := by
  unfold execCa
  exact .next (trnStart_steady ..)

theorem execWck2ck_answers (rank : Fin 2) (ch : BitVec 16) (s : State) : Answers s (execWck2ck rank ch s) := by
  unfold execWck2ck
  exact .next (trnStart_steady ..)

theorem execWlev_answers (rank : Fin 2) (ch : BitVec 16) (s : State) : Answers s (execWlev rank ch s) := by
  unfold execWlev
  exact .next (trnStart_steady ..)

theorem execRdq_answers (rank : Fin 2) (ch : BitVec 16) (s : State) : Answers s (execRdq rank ch s) := by
  unfold execRdq
  exact .next (trnStart_steady ..)

theorem execWdq_answers (rank : Fin 2) (ch : BitVec 16) (s : State) : Answers s (execWdq rank ch s) := by
  unfold execWdq
  exact .next (trnStart_steady ..)

theorem execVerify_answers (rank : Fin 2) (ch : BitVec 16) (s : State) : Answers s (execVerify rank ch s) := by
  unfold execVerify
  exact .next (trnStart_steady ..)

theorem trnEffect_steady (op : Nat) (c : Nat) (s : State) : Steady s (trnEffect op c s) := by
  unfold trnEffect
  exact .ite (setMem_steady ..) (.ite (setMem_steady ..) (.refl _))

theorem verifyWrite_steady (c : Nat) (s : State) : Steady s (verifyWrite c s) := by
  unfold verifyWrite
  refine .ite ?_ ?_
  · exact .refl _
  · refine .after (.foldl _ (fun _ _ => writeDram_steady ..) _ _) ?_
    exact .refl _

theorem heldWritten_steady (s : State) : Steady s (heldWritten s) := by
  unfold heldWritten
  refine .after (.foldl _ (fun _ _ => .ite (writePoisoned_steady ..) (writeDram_steady ..)) _ _) ?_
  exact setMem_steady ..

theorem execDramTrnDone_answers (records : List TrnRecord) (s : State) : Answers s (execDramTrnDone records s) := by
  unfold execDramTrnDone
  split
  · exact .next (.refl _)
  · refine .ite ?_ ?_
    · exact .next (.after (setMem_steady ..) (.after (setFlag_steady ..) (by
          refine .after (heldWritten_steady ..) ?_
          refine .ite ?_ ?_
          · refine .after (.foldl _ (fun _ _ => verifyWrite_steady ..) _ _) ?_
            exact .after (setMem_steady ..) (.after (setFlag_steady ..) (.after (setFlag_steady ..) (by
                  refine .after (.foldl _ (fun _ _ => .after (writeScratch_steady ..) (trnEffect_steady ..)) _ _) ?_
                  exact .refl _)))
          · exact .after (setMem_steady ..) (.after (setFlag_steady ..) (.after (setFlag_steady ..) (by
                  refine .after (.foldl _ (fun _ _ => .after (writeScratch_steady ..) (trnEffect_steady ..)) _ _) ?_
                  exact .refl _))))))
    · exact .next (by
          refine .after (heldWritten_steady ..) ?_
          refine .ite ?_ ?_
          · refine .after (.foldl _ (fun _ _ => verifyWrite_steady ..) _ _) ?_
            exact .after (setMem_steady ..) (.after (setFlag_steady ..) (.after (setFlag_steady ..) (by
                  refine .after (.foldl _ (fun _ _ => .after (writeScratch_steady ..) (trnEffect_steady ..)) _ _) ?_
                  exact .refl _)))
          · exact .after (setMem_steady ..) (.after (setFlag_steady ..) (.after (setFlag_steady ..) (by
                  refine .after (.foldl _ (fun _ _ => .after (writeScratch_steady ..) (trnEffect_steady ..)) _ _) ?_
                  exact .refl _))))

theorem execDramCounterClear_answers (s : State) : Answers s (execDramCounterClear s) := by
  unfold execDramCounterClear
  exact .next (.after (setMem_steady ..) (busOk_steady ..))

theorem dramCuePoint_steady (s : State) : Steady s (dramCuePoint s) := by
  unfold dramCuePoint
  refine .after (.foldl _ (fun _ _ => dramFlag_steady ..) _ _) ?_
  exact setMem_steady ..

theorem panicBegin_steady (p : Nat) (s : State) : Steady s (panicBegin p s) := by
  unfold panicBegin
  exact .ite (.after (dramFlag_steady ..) (.after (addFld_steady ..) (.after (setMem_steady ..) (orBit_steady ..))))
      (.after (addFld_steady ..) (.after (setMem_steady ..) (orBit_steady ..)))

theorem panicEnd_steady (p : Nat) (t : Nat) (s : State) : Steady s (panicEnd p t s) := by
  unfold panicEnd
  exact .after (setFld_steady ..) (.after (setMem_steady ..) (clrBit_steady ..))

theorem panicPort_steady (s : State) (p : Nat) : Steady s (panicPort s p) := by
  unfold panicPort
  split
  · exact .refl _
  · exact .ite (panicBegin_steady ..) (.refl _)
  · exact panicEnd_steady ..
  · exact .ite (panicEnd_steady ..) (.refl _)

theorem panicTick_steady (s : State) : Steady s (panicTick s) := by
  unfold panicTick
  refine .after (.foldl _ (fun _ _ => panicPort_steady ..) _ _) ?_
  exact .refl _

/-! ### The commands of the hash engines (`Hash`) -/

theorem linkFrame_steady (f : Frame) (s : State) : Steady s (linkFrame f s) := by
  unfold linkFrame
  exact .after (ledgerShow_steady ..) (.after (spillSettled_steady ..) (.after (setHash_steady ..)
      (.after (modFrame_steady ..) (digPut_steady ..))))

theorem linkNext_steady (s : State) : Steady s (linkNext s) := by
  unfold linkNext
  split
  · exact .refl _
  · exact .ite (.refl _) (.after (linkFrame_steady ..) (.ite (.ite (chainFault_steady ..) (.refl _))
        (.after (beginSegment_steady ..) (.ite (chainFault_steady ..) (.refl _)))))

theorem upsetChain_steady (u : ChainUpset) (s : State) : Steady s (upsetChain u s) := by
  unfold upsetChain
  split
  · exact .refl _
  · exact setHash_steady ..
  · exact setHash_steady ..

theorem execFrameLink_answers (upset : ChainUpset) (s : State) : Answers s (execFrameLink upset s) := by
  unfold execFrameLink
  exact .next (.after (linkNext_steady ..) (upsetChain_steady ..))

theorem linkAll_steady (n : Nat) (s : State) : Steady s (linkAll n s) := by
  induction n generalizing s with
  | zero => exact .refl _
  | succ n ih => exact .after (ih _) (linkNext_steady _)

theorem failStripe_steady (num : Nat) (k : Nat) (s : State) : Steady s (failStripe num k s) := by
  unfold failStripe
  exact .after (hashFlag_steady ..) (.after (addFld_steady ..) (modFrame_steady ..))

theorem stripeDetected_steady (num : Nat) (k : Nat) (s : State) : Steady s (stripeDetected num k s) := by
  unfold stripeDetected
  split
  · exact .refl _
  · exact .ite (.refl _) (.ite (failStripe_steady ..) (.after (hashFlag_steady ..)
        (.after (addFld_steady ..) (modFrame_steady ..))))

theorem storeCoded_steady (num : Nat) (d : List Byte) (s : State) : Steady s (storeCoded num d s) := by
  unfold storeCoded
  extract_lets
  split
  · exact setHash_steady ..
  · exact .after (settleWrites_steady ..) (.ite (.after (writeDram_steady ..)
        (.after (modFrame_steady ..) (setHash_steady ..))) (.after (modFrame_steady ..) (setHash_steady ..)))

theorem codedDetected_steady (num : Nat) (s : State) : Steady s (codedDetected num s) := by
  unfold codedDetected
  exact .ite (.refl _) (.ite (storeCoded_steady ..) (setHash_steady ..))

theorem endHashJob_steady (fail : Bool) (s : State) : Steady s (endHashJob fail s) := by
  unfold endHashJob
  exact .after (setFlag_steady ..) (.ite (.after (setFlag_steady ..) (.after (setHash_steady ..) (setFlag_steady ..)))
      (.after (setFlag_steady ..) (.after (setHash_steady ..) (setFlag_steady ..))))

theorem jobDetected_steady (s : State) : Steady s (jobDetected s) := by
  unfold jobDetected
  exact .ite (.refl _) (.ite (endHashJob_steady ..) (setHash_steady ..))

theorem execHashDetection_answers (target : HashTarget) (s : State) : Answers s (execHashDetection target s) := by
  unfold execHashDetection
  split
  · exact .next (stripeDetected_steady ..)
  · exact .next (codedDetected_steady ..)
  · exact .next (jobDetected_steady ..)

theorem execHashRehashComplete_answers (num : Nat) (stripe : Fin 64) (s : State) :
    Answers s (execHashRehashComplete num stripe s) := by
  unfold execHashRehashComplete
  split
  · exact .next (.refl _)
  · refine .ite ?_ ?_
    · exact .next (.refl _)
    · split
      · exact .next (failStripe_steady ..)
      · refine .ite ?_ ?_
        · exact .next (.refl _)
        · refine .ite ?_ ?_
          · exact .next (.after (failStripe_steady ..) (dramSeen_steady ..))
          · exact .next (modFrame_steady ..)

theorem execCodedDigestComplete_answers (num : Nat) (s : State) : Answers s (execCodedDigestComplete num s) := by
  unfold execCodedDigestComplete
  split
  · exact .next (storeCoded_steady ..)
  · exact .next (.refl _)

theorem execHashJob_answers (s : State) : Answers s (execHashJob s) := by
  unfold execHashJob
  refine .ite ?_ ?_
  · exact .next (busOk_steady ..)
  · refine .ite ?_ ?_
    · exact .next (.after (setFlag_steady ..) (busOk_steady ..))
    · exact .next (.after (setHash_steady ..) (.after (setFlag_steady ..) (busOk_steady ..)))

theorem execHashJobComplete_answers (s : State) : Answers s (execHashJobComplete s) := by
  unfold execHashJobComplete
  split
  · exact .next (.refl _)
  · refine .next ?_
    refine .after (poisonWarn_steady ..) ?_
    refine .after (endHashJob_steady ..) ?_
    refine .after (.foldl _ (fun _ _ => setFld_steady ..) _ _) ?_
    exact .refl _

theorem execHashCounterClear_answers (s : State) : Answers s (execHashCounterClear s) := by
  unfold execHashCounterClear
  exact .next (.after (setFld_steady ..) (.after (setFld_steady ..) (busOk_steady ..)))

theorem secondLatch_steady (s : State) : Steady s (secondLatch s) := by
  unfold secondLatch
  refine .ite ?_ ?_
  · exact .refl _
  · refine .after (.foldl _ (fun _ _ => .after (setFld_steady ..) (setFld_steady ..)) _ _) ?_
    exact .after (setFld64_steady ..) (.after (setFld64_steady ..) (setHash_steady ..))

theorem manifestStart_steady (kind : Nat) (l : SecondLatch) (s : State) : Steady s (manifestStart kind l s) := by
  unfold manifestStart
  exact .ite (.after (postRefused_steady ..) (signRefused_steady ..)) (.ite (signRefused_steady ..) ((by
      split
      · exact signStart_steady ..
      · exact signRefused_steady ..)))

theorem execCheckpoint_answers (s : State) : Answers s (execCheckpoint s) := by
  unfold execCheckpoint
  exact .next (.ite (.refl _) (.after (manifestStart_steady ..) (busOk_steady ..)))

theorem execFinalManifest_answers (s : State) : Answers s (execFinalManifest s) := by
  unfold execFinalManifest
  exact .next (.ite (.refl _) (.after (manifestStart_steady ..) (busOk_steady ..)))

theorem execSignDone_answers (s : State) : Answers s (execSignDone s) := by
  unfold execSignDone
  split
  · exact .next (.refl _)
  · refine .ite ?_ ?_
    · exact .next (.after (setFlag_steady ..) (.after (setFlag_steady ..) (.after (writeScratch_steady ..) (.of_core rfl rfl))))
    · exact .next (.after (setHash_steady ..) (.after (setFlag_steady ..) (.after (setFlag_steady ..)
          (.after (writeScratch_steady ..) (.of_core rfl rfl)))))

/-! ### The commands of the H (`Heve`) -/

theorem ringPut_steady (e : Nat) (n : Nat) (bs : List Byte) (s : State) : Steady s (ringPut e n bs s) := by
  unfold ringPut
  exact .after (setFld_steady ..) (.ite (writeDram_steady ..) (.refl _))

theorem chunkPut_steady {e : Nat} {c : Chunk} {s t : State} (h : chunkPut e c s = some t) : Steady s t := by
  unfold chunkPut at h
  extract_lets at h
  split at h
  · cases h
    exact .after (ringPut_steady ..) (.ite (.refl _) (ringPut_steady ..))
  · cases h

/-- `heveDrain` over any way to put a chunk into the ring. -/
def drainWith (put : Nat → Chunk → State → Option State) : Nat → Nat → State → State
  | 0, _, s => s
  | k + 1, e, s =>
    match (heveEng s e).held with
    | [] => s
    | c :: t =>
      match put e c s with
      | some s => drainWith put k e (modHeve e (fun h => { h with held := t }) s)
      | none => s

theorem heveDrain_eq_drainWith (k e : Nat) (s : State) : heveDrain k e s = drainWith chunkPut k e s := by
  delta heveDrain drainWith
  rfl

theorem drainWith_steady {put : Nat → Chunk → State → Option State} (h : ∀ e c s t, put e c s = some t → Steady s t)
    (n e : Nat) (s : State) : Steady s (drainWith put n e s) := by
  induction n generalizing s with
  | zero => exact .refl _
  | succ n ih =>
    unfold drainWith
    split
    · exact .refl _
    · split
      · exact .after (ih _) (.after (modHeve_steady ..) (h _ _ _ _ ‹_›))
      · exact .refl _

theorem heveDrain_steady (n e : Nat) (s : State) : Steady s (heveDrain n e s) := by
  rw [heveDrain_eq_drainWith]
  exact drainWith_steady (fun _ _ _ _ => chunkPut_steady) n e s

theorem heveEmit_steady (e : Nat) (c : Chunk) (s : State) : Steady s (heveEmit e c s) := by
  unfold heveEmit
  exact .ite (.after (heveShow_steady ..) (.after (heveDrain_steady ..) (modHeve_steady ..))) (.after (heveShow_steady ..)
      (.after (heveFlag_steady ..) (.after (heveDrain_steady ..) (modHeve_steady ..))))

theorem heveTakeSources_steady (e : Nat) (l : Option HeadOut) (r : Option HeadOut) (s : State) :
    Steady s (heveTakeSources e l r s) := by
  unfold heveTakeSources
  exact .ite (.after (heveShow_steady ..) (.after (modHeve_steady ..) (.ite (modHeve_steady ..) (.refl _))))
      (.ite (modHeve_steady ..) (.refl _))

theorem releaseSrc_steady (o : Option HeadOut) (s : State) : Steady s (releaseSrc o s) := by
  unfold releaseSrc
  split
  · exact releaseBuf_steady ..
  · exact .refl _

theorem heveReleaseWaiting_steady (e : Nat) (s : State) : Steady s (heveReleaseWaiting e s) := by
  unfold heveReleaseWaiting
  refine .after (heveShow_steady ..) ?_
  refine .after (modHeve_steady ..) ?_
  refine .after (.foldl _ (fun _ _ => releaseBuf_steady ..) _ _) ?_
  exact .refl _

theorem heveStart_steady (e : Nat) (gang : Nat) (l : Option HeadOut) (r : Option HeadOut) (ctus0 : List CtuCost)
    (ctus1 : List CtuCost) (s : State) : Steady s (heveStart e gang l r ctus0 ctus1 s) := by
  unfold heveStart
  exact .ite (.after (setFlag_steady ..) (.ite (.after (heveReleaseWaiting_steady ..) (.after (heveReleaseWaiting_steady ..)
      (.after (releaseSrc_steady ..) (.after (releaseSrc_steady ..)
      (.after (heveBad_steady ..) (heveTakeSources_steady ..)))))) (.after (heveReleaseWaiting_steady ..)
      (.after (releaseSrc_steady ..) (.after (releaseSrc_steady ..)
      (.after (heveBad_steady ..) (heveTakeSources_steady ..))))))) ((by
      extract_lets
      split
      · split
        · exact .after (heveShow_steady ..) (.after (heveShow_steady ..) (.after (setFlag_steady ..) (.ite
              (.after (heveFlag_steady ..) (.after (addFld_steady ..) (.ite (.after (setFlag_steady ..) (.ite
              (.after (heveFlag_steady ..) (.after (modHeve_steady ..) (heveTakeSources_steady ..)))
              (.after (modHeve_steady ..) (heveTakeSources_steady ..)))) (.ite (.after (heveFlag_steady ..)
              (.after (modHeve_steady ..) (heveTakeSources_steady ..)))
              (.after (modHeve_steady ..) (heveTakeSources_steady ..)))))) (.ite (.after (setFlag_steady ..) (.ite
              (.after (heveFlag_steady ..) (.after (modHeve_steady ..) (heveTakeSources_steady ..)))
              (.after (modHeve_steady ..) (heveTakeSources_steady ..)))) (.ite (.after (heveFlag_steady ..)
              (.after (modHeve_steady ..) (heveTakeSources_steady ..)))
              (.after (modHeve_steady ..) (heveTakeSources_steady ..)))))))))

theorem sourcePoison_steady (e : Nat) (o : Option HeadOut) (s : State) : Steady s (sourcePoison e o s) := by
  unfold sourcePoison
  split
  · exact .refl _
  · exact .after (poisonWarn_steady ..) (poisonWarn_steady ..)

theorem heveBegin_steady (e : Nat) (ctus0 : List CtuCost) (ctus1 : List CtuCost) (noMap : Bool) (alone : Bool)
    (s : State) : Steady s (heveBegin e ctus0 ctus1 noMap alone s) := by
  unfold heveBegin
  exact .ite (.refl _) ((by
      split
      · exact .refl _
      · exact .ite (.refl _) (.after (heveStart_steady ..) (.after (sourcePoison_steady ..) (sourcePoison_steady ..)))))

theorem execHevePictureBegin_answers (engine : Fin 2) (ctus0 : List CtuCost) (ctus1 : List CtuCost) (s : State) :
    Answers s (execHevePictureBegin engine ctus0 ctus1 s) := by
  unfold execHevePictureBegin
  exact .next (heveBegin_steady ..)

theorem execHeveMosaicTimeout_answers (ctus0 : List CtuCost) (ctus1 : List CtuCost) (s : State) :
    Answers s (execHeveMosaicTimeout ctus0 ctus1 s) := by
  unfold execHeveMosaicTimeout
  refine .ite ?_ ?_
  · exact .next (heveBegin_steady ..)
  · exact .next (.refl _)

theorem execHeveMapTimeout_answers (engine : Fin 2) (ctus0 : List CtuCost) (ctus1 : List CtuCost) (s : State) :
    Answers s (execHeveMapTimeout engine ctus0 ctus1 s) := by
  unfold execHeveMapTimeout
  exact .next (heveBegin_steady ..)

theorem heveEnd_steady (e : Nat) (p : HevePic) (bits : Nat) (s : State) : Steady s (heveEnd e p bits s) := by
  unfold heveEnd
  exact .after (heveShow_steady ..) (.after (heveShow_steady ..) (.after (addFld_steady ..) (.after (setFld_steady ..)
      (.after (modHeve_steady ..) (.after (releaseSrc_steady ..) (releaseSrc_steady ..))))))

theorem heveDetect_steady (e : Nat) (p : HevePic) (s : State) : Steady s (heveDetect e p s) := by
  unfold heveDetect
  exact .ite (.refl _) (.ite (.after (heveFlag_steady ..) (modHeve_steady ..)) (.after (heveFlag_steady ..)
      (.after (heveFlag_steady ..) (modHeve_steady ..))))

theorem heveSlice_steady (e : Nat) (x : SliceOpen) (data : List Byte) (s : State) : Steady s (heveSlice e x data s) := by
  unfold heveSlice
  split
  · exact .refl _
  · split
    · exact .refl _
    · exact .ite (.refl _) (.ite (.after (heveDetect_steady ..) (dramSeen_steady ..)) (.ite (.refl _) (.ite
          (.after (modHeve_steady ..) (heveEmit_steady ..)) (.ite (.after (heveEnd_steady ..) (heveEmit_steady ..))
          (.after (heveEnd_steady ..) (.after (heveEmit_steady ..) (heveEmit_steady ..)))))))

theorem execHeveSliceEmit_answers (engine : Fin 2) (lead : SliceOpen) (bytes : List Byte) (s : State) :
    Answers s (execHeveSliceEmit engine lead bytes s) := by
  unfold execHeveSliceEmit
  exact .next (heveSlice_steady ..)

theorem execHeveDetection_answers (engine : Fin 2) (s : State) : Answers s (execHeveDetection engine s) := by
  unfold execHeveDetection
  extract_lets
  split
  · exact .next (.refl _)
  · exact .next (heveDetect_steady ..)

theorem execHeveCounterClear_answers (engine : Fin 2) (s : State) : Answers s (execHeveCounterClear engine s) := by
  unfold execHeveCounterClear
  exact .next (.after (setFld_steady ..) (.after (setFld_steady ..) (.after (setFld_steady ..) (busOk_steady ..))))

theorem heveCuePoint_steady (e : Nat) (s : State) : Steady s (heveCuePoint e s) := by
  unfold heveCuePoint
  exact .ite (heveReleaseWaiting_steady ..) (.ite (.after (heveShow_steady ..)
      (.after (modHeve_steady ..) (heveTrim_steady ..))) (heveTrim_steady ..))

/-! ### The pixel pipeline (`Pipe`) -/

theorem writeLines_steady (j : PipeJob) (h : Nat) (addr : Nat) (a : Nat) (b : Nat) (fill : Bool) (spoiled : Option Nat)
    (s : State) : Steady s (writeLines j h addr a b fill spoiled s) := by
  unfold writeLines
  refine .ite ?_ ?_
  · exact by
        refine .after (.foldl _ (fun _ _ => writeBuf_steady ..) _ _) ?_
        exact .refl _
  · refine .after (.foldl _ (fun _ _ => writeBuf_steady ..) _ _) ?_
    exact by
        refine .after (.foldl _ (fun _ _ => writeBuf_steady ..) _ _) ?_
        exact .refl _

theorem offerFrame_steady (src : PipeSrc) (s : State) : Steady s (offerFrame src s) := by
  unfold offerFrame
  exact .ite (.refl _) (.ite (modPipePort_steady ..) (.after (lagSkip_steady ..) (modPipePort_steady ..)))

theorem pipeTime_steady (num : Nat) (fs : Nat) (s : State) : Steady s (pipeTime num fs s) := by
  unfold pipeTime
  exact setPipe_steady ..

theorem pipeFrameStart_steady (num : Nat) (s : State) : Steady s (pipeFrameStart num s) := by
  unfold pipeFrameStart
  split
  · exact .refl _
  · exact .ite (.refl _) (.ite (.after (skipFrame_steady ..)
        (.after (modPipePort_steady ..) (offerFrame_steady ..))) (offerFrame_steady ..))

theorem takeHead_steady (src : PipeSrc) (h : Nat) (s : State) : Steady s (takeHead src h s).2 := by
  unfold takeHead
  extract_lets p d dropped
  have hd : Steady s dropped := .after (setFlag_steady ..) (addFld_steady ..)
  split
  · exact .refl _
  split
  · exact .pair (.after (pipeFlag_steady ..) (addFld_steady ..))
  split
  · split
    · exact hd
    · exact .pair (.after (handPicture_steady ..) (takeBuf_steady ‹_›))
  · split
    · exact hd
    · exact .pair (.after (handPicture_steady ..) (poolTake_steady ‹_›))

theorem beginJob_steady (p : Nat) (s : State) : Steady s (beginJob p s) := by
  unfold beginJob
  split
  · exact .refl _
  · extract_lets
    split
    · split
      · exact .after (writeHeaders_steady ..) (.after (orBit_steady ..) (.after (modPipePort_steady ..) (.ite (.ite
            (.after (pipeFlag_steady ..) (.after (addFld_steady ..) (.after (.snd (takeHead_steady ..) ‹_›) (.after
            (.snd (takeHead_steady ..) ‹_›) (modPipePort_steady ..))))) (.after (.snd (takeHead_steady ..) ‹_›) (.after
            (.snd (takeHead_steady ..) ‹_›) (modPipePort_steady ..)))) (.after (addFld_steady ..) (.ite
            (.after (pipeFlag_steady ..) (.after (addFld_steady ..) (.after (.snd (takeHead_steady ..) ‹_›) (.after
            (.snd (takeHead_steady ..) ‹_›) (modPipePort_steady ..))))) (.after (.snd (takeHead_steady ..) ‹_›) (.after
            (.snd (takeHead_steady ..) ‹_›) (modPipePort_steady ..))))))))

theorem execPipeFrameBegin_answers (s : State) : Answers s (execPipeFrameBegin s) := by
  unfold execPipeFrameBegin
  split
  · exact .next (beginJob_steady ..)
  · exact .next (.refl _)

theorem execSliceGrant_answers (s : State) : Answers s (execSliceGrant s) := by
  unfold execSliceGrant
  refine .ite ?_ ?_
  · exact .next (.refl _)
  · split
    · exact .next (.refl _)
    · exact .next (.after (modPipePort_steady ..) (setPipe_steady ..))

theorem releaseSlice_steady (p : Nat) (j : PipeJob) (fill : Bool) (spoiled : Option Nat) (s : State) :
    Steady s (releaseSlice p j fill spoiled s) := by
  unfold releaseSlice
  extract_lets put s1 j2 done
  have hput : ∀ h o t, Steady t (put h o t) := by
    intro h o t
    cases o with
    | none => exact .refl _
    | some x => exact writeLines_steady ..
  have h1 : Steady s s1 := .after (hput ..) (hput ..)
  exact .ite (.after (endJob_steady ..) h1) (.after (writeHeaders_steady ..) (.after (modPipePort_steady ..) h1))

theorem reportJob_steady (j : PipeJob) (mask : Nat) (s : State) : Steady s (reportJob j mask s) := by
  unfold reportJob
  exact .ite (orFlags_steady ..) (.refl _)

theorem damageSlice_steady (p : Nat) (j : PipeJob) (s : State) : Steady s (damageSlice p j s) := by
  unfold damageSlice
  extract_lets fill s1 s2
  have h2 : Steady s s2 := .after (reportJob_steady ..) (.after (pipeFlag_steady ..) (addFld_steady ..))
  exact .after (releaseSlice_steady ..) (.after (withFree_steady ..) h2)

theorem detectSlice_steady (p : Nat) (j : PipeJob) (s : State) : Steady s (detectSlice p j s) := by
  unfold detectSlice
  exact .ite (.after (modPipePort_steady ..) (.after (pipeFlag_steady ..) (addFld_steady ..)))
      (.ite (modPipePort_steady ..) (damageSlice_steady ..))

theorem sliceSeen_steady (j : PipeJob) (s : State) : Steady s (sliceSeen j s) := by
  unfold sliceSeen
  exact dramSeen_steady ..

theorem execSliceComplete_answers (s : State) : Answers s (execSliceComplete s) := by
  unfold execSliceComplete
  split
  · exact .next (.refl _)
  · exact .next (.ite (.refl _) (.ite (.after (detectSlice_steady ..) (sliceSeen_steady ..)) (.ite
        (.after (releaseSlice_steady ..) (reportJob_steady ..)) (releaseSlice_steady ..))))

theorem startRefresh_steady (p : Nat) (t : Nat) (s : State) : Steady s (startRefresh p t s) := by
  unfold startRefresh
  exact .after (pipeFlag_steady ..) (.after (setFlag_steady ..) (setPipe_steady ..))

theorem execPipeDetection_answers (table : Option (Fin 8)) (s : State) : Answers s (execPipeDetection table s) := by
  unfold execPipeDetection
  split
  · exact .next (.refl _)
  · exact .next (.after (detectSlice_steady ..) ((by
        split
        · exact startRefresh_steady ..
        · exact .refl _)))

theorem execTableRefreshDone_answers (s : State) : Answers s (execTableRefreshDone s) := by
  unfold execTableRefreshDone
  extract_lets
  split
  · exact .next (.ite (.after (damageSlice_steady ..) (.after (setFlag_steady ..) (setPipe_steady ..)))
        (.after (setFlag_steady ..) (setPipe_steady ..)))
  · exact .next (.after (setFlag_steady ..) (setPipe_steady ..))

theorem execPipeBufferRelease_answers (port : Fin 4) (buf : Fin 16) (s : State) :
    Answers s (execPipeBufferRelease port buf s) := by
  unfold execPipeBufferRelease
  exact .next (.after (releaseBuf_steady ..) (setPipe_steady ..))

theorem execPipeCounterClear_answers (s : State) : Answers s (execPipeCounterClear s) := by
  unfold execPipeCounterClear
  refine .ite ?_ ?_
  · exact .next (.after (setFld_steady ..) (.after (setFld_steady ..) (.after (setFld_steady ..) (.after (setFld_steady ..)
        (.after (setFld_steady ..) (busOk_steady ..))))))
  · exact .next (busOk_steady ..)

/-! ### Device time (`Time`) -/

theorem timeEvent_steady (n : Nat) (cls : EventClass) (s : State) : Steady s (timeEvent n cls s) := by
  unfold timeEvent
  exact postFlag_steady ..

theorem timeRefused_steady (s : State) : Steady s (timeRefused s) := by
  unfold timeRefused
  exact .after (postKind_steady ..) (orBit_steady ..)

theorem schedMoved_steady (old : Nat) (s : State) : Steady s (schedMoved old s) := by
  unfold schedMoved
  exact .ite (.refl _) (.ite (.ite (.refl _) (.after (setClock_steady rfl)
      (.after (orBit_steady ..) (addFld_steady ..)))) (setClock_steady rfl))

theorem banksMoved_steady (old : Nat) (s : State) : Steady s (banksMoved old s) := by
  unfold banksMoved
  exact .of_core rfl rfl

/-- What is added to the list that waits for the next tick is legal. -/
theorem setClock_lawful {c : TimeState} {s : State} (h : ∀ n ∈ c.next, n ∈ s.clock.next ∨ n.legal) : Lawful s (setClock c s) :=
  ⟨rfl, fun ⟨hm, ht, hn⟩ => ⟨hm, ht, fun n hc => (h n hc).elim (hn n) id⟩⟩

theorem queued_or_legal {l : List TimeNext} {x : TimeNext} (h : x.legal) : ∀ n ∈ l ++ [x], n ∈ l ∨ n.legal := by
  intro n hn
  rcases List.mem_append.1 hn with hn | hn
  · exact .inl hn
  · exact .inr (List.mem_singleton.1 hn ▸ h)

theorem execTimeIncrWrite_answers (value : Word) (s : State) : Answers s (execTimeIncrWrite value s) := by
  unfold execTimeIncrWrite
  extract_lets s1 s2 v c clock s3
  have h2 : Steady s s2 := .after (setFld_steady ..) (.after (setFld_steady ..) (busOk_steady ..))
  have hc : TimeNext.legal (.incr c) := trivial
  have h3 : Lawful s s3 := .after (setClock_lawful (queued_or_legal hc)) (.ofSteady h2)
  exact .ite (.nextLawful h3) (.nextLawful (.after (.ofSteady (postActsAs_steady ..)) h3))

theorem execStep_answers (s : State) : Answers s (execStep s) := by
  unfold execStep
  extract_lets s1
  have h1 : Steady s s1 := busOk_steady ..
  exact .ite (.next (.after (timeRefused_steady ..) h1))
    (.nextLawful (.after (setClock_lawful (queued_or_legal trivial)) (.ofSteady h1)))

theorem execSet_answers (s : State) : Answers s (execSet s) := by
  unfold execSet
  extract_lets s1
  have h1 : Steady s s1 := busOk_steady ..
  split
  · exact .next (.after (timeRefused_steady ..) h1)
  next h =>
    have hns : s1.fld TIME_SET_NS.VALUE < 1000000000 := by omega
    exact .nextLawful (.after (setClock_lawful (queued_or_legal hns)) (.ofSteady h1))

theorem holdover_steady (cause : Nat) (s : State) : Steady s (holdover cause s) := by
  unfold holdover
  exact .ite (.refl _) (.after (timeEvent_steady ..) (.after (orBit_steady ..) (setFlag_steady ..)))

theorem execHold_answers (s : State) : Answers s (execHold s) := by
  unfold execHold
  exact .next (.after (holdover_steady ..) (busOk_steady ..))

theorem execRelease_answers (s : State) : Answers s (execRelease s) := by
  unfold execRelease
  refine .ite ?_ ?_
  · exact .next (.after (orBit_steady ..) (.after (setFld_steady ..) (.after (setFlag_steady ..) (busOk_steady ..))))
  · exact .next (.after (timeRefused_steady ..) (busOk_steady ..))

theorem execTimeWatchExpire_answers (s : State) : Answers s (execTimeWatchExpire s) := by
  unfold execTimeWatchExpire
  refine .ite ?_ ?_
  · exact .next (holdover_steady ..)
  · exact .next (.refl _)

theorem execKeepaliveLinkTimeout_answers (s : State) : Answers s (execKeepaliveLinkTimeout s) := by
  unfold execKeepaliveLinkTimeout
  refine .ite ?_ ?_
  · exact .next (holdover_steady ..)
  · exact .next (.refl _)

theorem execTimeNowRead_answers (s : State) : Answers s (execTimeNowRead s) := by
  unfold execTimeNowRead
  exact .next (.after (busOk_steady ..) (setFld64_steady ..))

theorem execPpsOutAssert_answers (s : State) : Answers s (execPpsOutAssert s) := by
  unfold execPpsOutAssert
  refine .ite ?_ ?_
  · exact .next (setClock_steady rfl)
  · exact .next (.refl _)

theorem execPpsOutEnd_answers (s : State) : Answers s (execPpsOutEnd s) := by
  unfold execPpsOutEnd
  refine .ite ?_ ?_
  · exact .next (setClock_steady rfl)
  · exact .next (.refl _)

theorem execPpsInEdge_answers (time : Nat) (s : State) : Answers s (execPpsInEdge time s) := by
  unfold execPpsInEdge
  refine .ite ?_ ?_
  · exact .next (.refl _)
  · exact .next (.after (orBit_steady ..) (.after (setFld_steady ..) (setClock_steady rfl)))

theorem execLtcInWord_answers (word : BitVec 64) (valid : Bool) (s : State) : Answers s (execLtcInWord word valid s) := by
  unfold execLtcInWord
  extract_lets x s1 s2 n y
  have h1 : Steady s s1 := setFld64_steady ..
  have h2 : Steady s s2 := .after (orBit_steady ..) (.after (setFld_steady ..) h1)
  have h3 : Steady s2 (if n = 2 then s2.setFlag TIME_STATUS.LTC_LOCK true else s2) := .ite (setFlag_steady ..) (.refl _)
  split
  · exact .next (.refl _)
  split
  · exact .next (.after (setClock_steady rfl) (setFlag_steady ..))
  · exact .next (.after (setClock_steady h3.next.symm) (h3.after h2))

theorem execLtcOutWord_answers (s : State) : Answers s (execLtcOutWord s) := by
  unfold execLtcOutWord
  refine .ite ?_ ?_
  · exact .next (.refl _)
  · exact .next (setClock_steady rfl)

theorem schedCuePoint_steady (changed : Bool) (ctrl : Bool) (s : State) : Steady s (schedCuePoint changed ctrl s) := by
  unfold schedCuePoint
  exact .ite (.refl _) (.ite (.after (postOther_steady ..) (.after (setClock_steady rfl) (.after (setClock_steady rfl)
      (.ite (setFld_steady ..) (.refl _))))) (.after (setClock_steady rfl) (.after (setClock_steady rfl)
      (.ite (setFld_steady ..) (.refl _)))))

/-! ### Sensor ingest (`Ingest`) -/

theorem modPort_steady (p : Nat) (f : IngestPort → IngestPort) (s : State) : Steady s (modPort p f s) := by
  unfold modPort
  exact .of_core rfl rfl

theorem countIngest_steady (p : Nat) (vc : Nat) (t : Nat) (s : State) : Steady s (countIngest p vc t s) := by
  unfold countIngest
  exact .after (postEvent_steady ..) (.after (orBit_steady ..) (addFld_steady ..))

theorem frameCount_steady (num : Nat) (i : Nat) (n : Nat) (s : State) : Steady s (frameCount num i n s) := by
  unfold frameCount
  exact modFrame_steady ..

theorem setOpen_steady (f : OpenFrame) (s : State) : Steady s (setOpen f s) := by
  unfold setOpen
  exact modPort_steady ..

theorem packetSeen_steady (p : Nat) (s : State) : Steady s (packetSeen p s) := by
  unfold packetSeen
  exact .after (modPort_steady ..) (setFlag_steady ..)

theorem writeSlot_steady (num : Nat) (off : Nat) (bs : List Byte) (s : State) : Steady s (writeSlot num off bs s) := by
  unfold writeSlot
  split
  · exact .refl _
  · split
    · exact writeDram_steady ..
    · exact .refl _

theorem throughBuffer_steady (p : Nat) (n : Nat) (s : State) : Steady s (throughBuffer p n s) := by
  unfold throughBuffer
  exact .after (creditReturn_steady ..) (creditIssue_steady ..)

theorem passLines_steady (f : OpenFrame) (p : Nat) (ls : List Line) (s : State) : Steady s (passLines f p ls s) := by
  unfold passLines
  exact .after (cellLines_steady ..) (.after (modFrame_steady ..) (.after (setOpen_steady ..) (by
      refine .after (.foldl _ (fun _ _ => writeSlot_steady ..) _ _) ?_
      exact .refl _)))

theorem fillMember_steady (num : Nat) (port : Nat) (desc : Nat) (p : Nat) (s : State) :
    Steady s (fillMember num port desc p s) := by
  unfold fillMember
  split
  · exact .refl _
  · exact .ite (.refl _) ((by
          split
          · exact .refl _
          · exact .after (passLines_steady ..) (frameCount_steady ..)))

theorem closeFrame_steady (f : OpenFrame) (flags : Nat) (s : State) : Steady s (closeFrame f flags s) := by
  unfold closeFrame
  exact .after (ledgerShow_steady ..) (.after (spillSettled_steady ..) (.after (modFrame_steady ..)
      (.after (clrBit_steady ..) (.after (modPort_steady ..) (.ite (.after (countIngest_steady ..) (.ite
      (.after (countIngest_steady ..) (.after (orFlags_steady ..) (by
      refine .after (.foldl _ (fun _ _ => fillMember_steady ..) _ _) ?_
      exact .refl _))) (.after (orFlags_steady ..) (by
      refine .after (.foldl _ (fun _ _ => fillMember_steady ..) _ _) ?_
      exact .refl _)))) (.ite (.after (countIngest_steady ..) (.after (orFlags_steady ..) (by
      refine .after (.foldl _ (fun _ _ => fillMember_steady ..) _ _) ?_
      exact .refl _))) (.after (orFlags_steady ..) (by
      refine .after (.foldl _ (fun _ _ => fillMember_steady ..) _ _) ?_
      exact .refl _))))))))

theorem closeTruncated_steady (f : OpenFrame) (s : State) : Steady s (closeTruncated f s) := by
  unfold closeTruncated
  exact closeFrame_steady ..

theorem crcCheck_steady (p : Nat) (vc : Nat) (crcOk : Bool) (s : State) : Steady s (crcCheck p vc crcOk s) := by
  unfold crcCheck
  exact .ite (.refl _) (countIngest_steady ..)

theorem pixelLine_steady (f : OpenFrame) (p : Nat) (wc : Nat) (bytes : List Byte) (crcOk : Bool) (cut : Bool) (room : Bool)
    (s : State) : Steady s (pixelLine f p wc bytes crcOk cut room s) := by
  unfold pixelLine
  split
  · exact .refl _
  · refine .ite ?_ ?_
    · exact .ite (.after (frameCount_steady ..) (crcCheck_steady ..)) (.after (countIngest_steady ..)
          (.after (orFlags_steady ..) (.after (frameCount_steady ..) (crcCheck_steady ..))))
    · exact .ite (.after (passLines_steady ..) (.after (throughBuffer_steady ..) (.ite (.after (orFlags_steady ..)
          (.after (frameCount_steady ..) (.after (countIngest_steady ..) (.ite (.refl _)
          (.after (frameCount_steady ..) (crcCheck_steady ..)))))) (.ite (.after (frameCount_steady ..)
          (.after (countIngest_steady ..) (.ite (.refl _) (.after (frameCount_steady ..) (crcCheck_steady ..))))) (.ite
          (.after (frameCount_steady ..) (.after (countIngest_steady ..) (.ite (.refl _)
          (.after (frameCount_steady ..) (crcCheck_steady ..))))) (.ite (.refl _)
          (.after (frameCount_steady ..) (crcCheck_steady ..)))))))) (.after (passLines_steady ..)
          (.after (frameCount_steady ..) (.after (frameCount_steady ..) (.after (countIngest_steady ..) (.ite
          (.after (orFlags_steady ..) (.after (frameCount_steady ..) (.after (countIngest_steady ..) (.ite (.refl _)
          (.after (frameCount_steady ..) (crcCheck_steady ..)))))) (.ite (.after (frameCount_steady ..)
          (.after (countIngest_steady ..) (.ite (.refl _) (.after (frameCount_steady ..) (crcCheck_steady ..))))) (.ite
          (.after (frameCount_steady ..) (.after (countIngest_steady ..) (.ite (.refl _)
          (.after (frameCount_steady ..) (crcCheck_steady ..))))) (.ite (.refl _)
          (.after (frameCount_steady ..) (crcCheck_steady ..))))))))))

theorem embeddedPacket_steady (f : OpenFrame) (p : Nat) (bytes : List Byte) (crcOk : Bool) (cut : Bool) (s : State) :
    Steady s (embeddedPacket f p bytes crcOk cut s) := by
  unfold embeddedPacket
  exact .ite (.after (countIngest_steady ..) (crcCheck_steady ..)) (.after (setOpen_steady ..) (.after (writeSlot_steady ..)
      (.ite (.after (countIngest_steady ..) (.after (throughBuffer_steady ..) (.ite
      (.after (countIngest_steady ..) (crcCheck_steady ..)) (crcCheck_steady ..)))) (.after (throughBuffer_steady ..) (.ite
      (.after (countIngest_steady ..) (crcCheck_steady ..)) (crcCheck_steady ..))))))

theorem frameHeader_steady (p : Nat) (vc : Nat) (corrected : Bool) (s : State) : Steady s (frameHeader p vc corrected s) := by
  unfold frameHeader
  exact .ite (.refl _) ((by
      split
      · exact frameCount_steady ..
      · exact .refl _))

theorem correctedHeader_steady (p : Nat) (vc : Nat) (corrected : Bool) (s : State) :
    Steady s (correctedHeader p vc corrected s) := by
  unfold correctedHeader
  exact .after (frameHeader_steady ..) (.ite (countIngest_steady ..) (.refl _))

theorem longPacket_steady (p : Nat) (vc : Nat) (dt : Nat) (wc : Nat) (bytes : List Byte) (crcOk : Bool) (cut : Bool)
    (room : Bool) (corrected : Bool) (s : State) : Steady s (longPacket p vc dt wc bytes crcOk cut room corrected s) := by
  unfold longPacket
  refine .ite ?_ ?_
  · exact .refl _
  · extract_lets
    split
    · exact .after (countIngest_steady ..) (.after (crcCheck_steady ..)
          (.after (correctedHeader_steady ..) (packetSeen_steady ..)))
    · exact .ite (.after (countIngest_steady ..) (.after (crcCheck_steady ..)
          (.after (correctedHeader_steady ..) (packetSeen_steady ..)))) ((by
          split
          · exact .after (countIngest_steady ..) (.after (crcCheck_steady ..)
                (.after (correctedHeader_steady ..) (packetSeen_steady ..)))
          · exact .ite (.after (countIngest_steady ..) (.after (crcCheck_steady ..)
                (.after (correctedHeader_steady ..) (packetSeen_steady ..)))) (.ite (.after (embeddedPacket_steady ..)
                (.after (correctedHeader_steady ..) (packetSeen_steady ..))) (.after (pixelLine_steady ..)
                (.after (correctedHeader_steady ..) (packetSeen_steady ..))))))

theorem execPixelLine_answers (port : Fin 4) (vc : Fin 16) (dt : BitVec 6) (bytes : List Byte) (crc : BitVec 16)
    (corrected : Bool) (room : Bool) (parity : List Nat) (s : State) :
    Answers s (execPixelLine port vc dt bytes crc corrected room parity s) := by
  unfold execPixelLine
  exact .next (.after (longPacket_steady ..) (cellParity_steady ..))

theorem execEmbeddedData_answers (port : Fin 4) (vc : Fin 16) (bytes : List Byte) (crc : BitVec 16) (corrected : Bool)
    (s : State) : Answers s (execEmbeddedData port vc bytes crc corrected s) := by
  unfold execEmbeddedData
  exact .next (longPacket_steady ..)

theorem shortPacket_steady {p vc : Nat} {corrected : Bool} {inFrame : OpenFrame → State → State} {s : State}
    (h : ∀ f t, Steady t (inFrame f t)) : Steady s (shortPacket p vc corrected inFrame s) := by
  unfold shortPacket
  extract_lets s1 r
  have h1 : Steady s s1 := .after (correctedHeader_steady ..) (packetSeen_steady ..)
  clear_value r s1
  refine .ite (.refl _) ?_
  split
  · exact .after (countIngest_steady ..) h1
  · split
    · exact .after (countIngest_steady ..) h1
    · exact .ite (.after (h ..) h1) (.after (countIngest_steady ..) h1)

theorem execLineStartEnd_answers (port : Fin 4) (vc : Fin 16) (corrected : Bool) (s : State) :
    Answers s (execLineStartEnd port vc corrected s) := by
  unfold execLineStartEnd
  exact .next (shortPacket_steady (fun _ _ => .refl _))

theorem execNullBlanking_answers (port : Fin 4) (vc : Fin 16) (corrected : Bool) (s : State) :
    Answers s (execNullBlanking port vc corrected s) := by
  unfold execNullBlanking
  refine .ite ?_ ?_
  · exact .next (.after (correctedHeader_steady ..) (packetSeen_steady ..))
  · exact .next (.refl _)

theorem execDtUnsel_answers (port : Fin 4) (vc : Fin 16) (dt : BitVec 6) (marks : PacketMarks) (s : State) :
    Answers s (execDtUnsel port vc dt marks s) := by
  unfold execDtUnsel
  refine .ite ?_ ?_
  · exact .next (.refl _)
  · extract_lets
    split
    · exact .next (.ite (.after (correctedHeader_steady ..) (packetSeen_steady ..)) (.after (countIngest_steady ..)
          (.after (crcCheck_steady ..) (.after (correctedHeader_steady ..) (packetSeen_steady ..)))))
    · exact .next (.after (countIngest_steady ..) (.after (crcCheck_steady ..)
          (.after (correctedHeader_steady ..) (packetSeen_steady ..))))

theorem discardedCrc_steady (p : Nat) (vc : Nat) (crcBad : Bool) (s : State) : Steady s (discardedCrc p vc crcBad s) := by
  unfold discardedCrc
  exact .ite (.refl _) (crcCheck_steady ..)

theorem execOrphan_answers (port : Fin 4) (vc : Fin 16) (marks : PacketMarks) (s : State) :
    Answers s (execOrphan port vc marks s) := by
  unfold execOrphan
  exact .next (.after (shortPacket_steady (fun _ _ => .refl _)) (discardedCrc_steady ..))

theorem execEccUncorr_answers (port : Fin 4) (vc : Fin 16) (s : State) : Answers s (execEccUncorr port vc s) := by
  unfold execEccUncorr
  refine .ite ?_ ?_
  · exact .next (.refl _)
  · refine .next ?_
    refine .after (.foldl _ (fun _ _ => frameCount_steady ..) _ _) ?_
    exact .after (countIngest_steady ..) (packetSeen_steady ..)

theorem execPacketCutEot_answers (port : Fin 4) (vc : Fin 16) (dt : BitVec 6) (wc : BitVec 16) (payload : CutPayload)
    (s : State) : Answers s (execPacketCutEot port vc dt wc payload s) := by
  unfold execPacketCutEot
  exact .next (longPacket_steady ..)

theorem execLineIdleTimeout_answers (port : Fin 4) (vc : Fin 16) (dt : BitVec 6) (wc : BitVec 16) (payload : CutPayload)
    (s : State) : Answers s (execLineIdleTimeout port vc dt wc payload s) := by
  unfold execLineIdleTimeout
  exact .next (longPacket_steady ..)

theorem seqCheck_steady (p : Nat) (d : Nat) (vc : Nat) (number : Nat) (seqchk : Bool) (s : State) :
    Steady s (seqCheck p d vc number seqchk s) := by
  unfold seqCheck
  exact .ite (.after (countIngest_steady ..) (modPort_steady ..)) (modPort_steady ..)

theorem showFs_steady (p : Nat) (fs : Nat) (s : State) : Steady s (showFs p fs s) := by
  unfold showFs
  exact .after (setFld_steady ..) (setFld_steady ..)

theorem openNew_steady (r : Nat) (p : Nat) (d : Nat) (fs : Nat) (sd : StreamDesc) (origin : Option Nat) (s : State) :
    Steady s (openNew r p d fs sd origin s) := by
  unfold openNew
  split
  · exact .after (pipeFrameStart_steady ..) (.after (cellFrameStart_steady ..) (.after (setFld64_steady ..)
        (.after (orBit_steady ..) (.after (modPort_steady ..) (.snd (openRecord_steady ..) ‹_›)))))

theorem openAfter_steady (p : Nat) (vc : Nat) (fs : Nat) (s : State) : Steady s (openAfter p vc fs s) := by
  unfold openAfter
  split
  · exact .ite (openNew_steady ..) (.refl _)
  · exact .refl _

theorem referenceTime_steady (num : Nat) (fs : Nat) (s : State) : Steady s (referenceTime num fs s) := by
  unfold referenceTime
  exact .after (pipeTime_steady ..) (modFrame_steady ..)

theorem gangLate_steady (r : Nat) (p : Nat) (f : OpenFrame) (s : State) : Steady s (gangLate r p f s) := by
  unfold gangLate
  extract_lets
  split
  · exact .after (fillMember_steady ..) (.after (setOpen_steady ..) (countIngest_steady ..))
  · exact .ite (.after (closeFrame_steady ..) (.after (fillMember_steady ..)
        (.after (setOpen_steady ..) (countIngest_steady ..)))) (.after (fillMember_steady ..)
        (.after (setOpen_steady ..) (countIngest_steady ..)))

theorem skewEnd_steady (r : Nat) (p : Nat) (d : Nat) (s : State) : Steady s (skewEnd r p d s) := by
  unfold skewEnd
  split
  · exact .ite (gangLate_steady ..) (.refl _)
  · exact .refl _

theorem frameStart_steady {p vc number : Nat} {corrected : Bool} {cp : State → State} {s : State}
    (h : ∀ t, Steady t (cp t)) : Steady s (frameStart p vc number corrected cp s) := by
  unfold frameStart
  extract_lets s1 s2 r fs
  have h2 : Steady s s2 := .ite (.after (countIngest_steady ..) (packetSeen_steady ..)) (packetSeen_steady ..)
  clear_value r fs s2
  refine .ite (.refl _) ?_
  split
  · exact .after (countIngest_steady ..) h2
  next d sd _ =>
    refine .after (frameHeader_steady ..) ?_
    extract_lets s3
    have h3 : Steady s s3 := .after (skewEnd_steady ..) (.after (seqCheck_steady ..) h2)
    clear_value s3
    split
    next f _ =>
      have h4 := ((setOpen_steady (f.modMember p (fun m => { m with started := true })) (showFs p fs s3)).after
        (showFs_steady p fs s3)).after h3
      exact .ite (.after (referenceTime_steady ..) h4) h4
    · exact .after (setOpen_steady ..) (.after (showFs_steady ..) h3)
    · exact .ite (.after (closeTruncated_steady ..) h3)
        (.after (openAfter_steady ..) (.after (showFs_steady ..) (.after (h _) (.after (closeTruncated_steady ..) h3))))
    · exact .after (openAfter_steady ..) (.after (showFs_steady ..) (.after (h _) h3))

theorem frameEnd_steady (p : Nat) (f : OpenFrame) (s : State) : Steady s (frameEnd p f s) := by
  unfold frameEnd
  exact .ite (.after (closeFrame_steady ..) (.after (setOpen_steady ..) (.ite (orFlags_steady ..) (.refl _))))
      (.after (setOpen_steady ..) (.ite (orFlags_steady ..) (.refl _)))

theorem execFrameEnd_answers (port : Fin 4) (vc : Fin 16) (corrected : Bool) (parity : List Nat) (s : State) :
    Answers s (execFrameEnd port vc corrected parity s) := by
  unfold execFrameEnd
  exact .next (.after (shortPacket_steady (fun _ _ => frameEnd_steady ..)) (cellParity_steady ..))

theorem execFrameTimeout_answers (port : Fin 4) (desc : Fin 4) (s : State) : Answers s (execFrameTimeout port desc s) := by
  unfold execFrameTimeout
  split
  · exact .next (.ite (closeTruncated_steady ..) (.refl _))
  · exact .next (.refl _)

theorem execGangSkewTimeout_answers (port : Fin 4) (desc : Fin 4) (s : State) :
    Answers s (execGangSkewTimeout port desc s) := by
  unfold execGangSkewTimeout
  extract_lets
  split
  · exact .next (.refl _)
  · exact .next (.ite (gangLate_steady ..) (.refl _))

theorem execLaneUlps_answers (port : Fin 4) (enter : Bool) (s : State) : Answers s (execLaneUlps port enter s) := by
  unfold execLaneUlps
  refine .ite ?_ ?_
  · exact .next (.after (setFlag_steady ..) (setFlag_steady ..))
  · exact .next (.refl _)

theorem withRegs_steady (m : Sparse 32) (s : State) (h : Memory.wf 0 s.regs → Memory.wf 0 m) : Steady s { s with regs := m } :=
  ⟨rfl, rfl, rfl, fun ⟨hr, hs⟩ => ⟨h hr, hs⟩⟩

theorem execIngestCounterClear_answers (port : Fin 4) (s : State) : Answers s (execIngestCounterClear port s) := by
  unfold execIngestCounterClear
  extract_lets s1
  have h1 : Steady s s1 := busOk_steady ..
  exact .ite (.next (.after (withRegs_steady _ _ (fun h => clearRange_wf h _ _)) h1)) (.next h1)

theorem execMclkConfigWrite_answers (port : Fin 4) (value : Word) (s : State) :
    Answers s (execMclkConfigWrite port value s) := by
  unfold execMclkConfigWrite
  refine .ite ?_ ?_
  · exact .next (busOk_steady ..)
  · refine .ite ?_ ?_
    · exact .next (.after (postActsAs_steady ..) (.after (setFld_steady ..) (.after (setFld_steady ..) (busOk_steady ..))))
    · exact .next (.after (setFld_steady ..) (.after (setFld_steady ..) (busOk_steady ..)))

theorem execSensorResetRelease_answers (port : Fin 4) (release : Bool) (s : State) :
    Answers s (execSensorResetRelease port release s) := by
  unfold execSensorResetRelease
  refine .ite ?_ ?_
  · exact .next (.after (setFlag_steady ..) (busOk_steady ..))
  · exact .next (busOk_steady ..)

theorem xtrigPulse_steady (p : Nat) (s : State) : Steady s (xtrigPulse p s) := by
  unfold xtrigPulse
  exact modPort_steady ..

theorem execXtrigScheduled_answers (port : Fin 4) (grid : Nat) (s : State) : Answers s (execXtrigScheduled port grid s) := by
  unfold execXtrigScheduled
  refine .ite ?_ ?_
  · exact .next (.refl _)
  · refine .ite ?_ ?_
    · exact .next (.refl _)
    · refine .ite ?_ ?_
      · exact .next (addFld_steady ..)
      · exact .next (xtrigPulse_steady ..)

theorem execXpulse_answers (port : Fin 4) (s : State) : Answers s (execXpulse port s) := by
  unfold execXpulse
  refine .ite ?_ ?_
  · exact .next (.after (xtrigPulse_steady ..) (busOk_steady ..))
  · exact .next (busOk_steady ..)

theorem execXtrigPulseEnd_answers (port : Fin 4) (s : State) : Answers s (execXtrigPulseEnd port s) := by
  unfold execXtrigPulseEnd
  exact .next (.ite (modPort_steady ..) (.refl _))

theorem modSpi_steady (c : Nat) (f : SpiCtl → SpiCtl) (s : State) : Steady s (modSpi c f s) := by
  unfold modSpi
  exact modPort_steady ..

theorem spiNext_steady (c : Nat) (s : State) : Steady s (spiNext c s) := by
  unfold spiNext
  exact .ite (.after (setFlag_steady ..) (modSpi_steady ..)) (.ite (modSpi_steady ..) (.refl _))

theorem spiStartScript_steady (c : Nat) (s : State) : Steady s (spiStartScript c s) := by
  unfold spiStartScript
  exact .ite (modSpi_steady ..) (.after (setFlag_steady ..) (modSpi_steady ..))

theorem execSpiTransfer_answers (ctl : Fin 2) (value : Word) (s : State) : Answers s (execSpiTransfer ctl value s) := by
  unfold execSpiTransfer
  refine .ite ?_ ?_
  · exact .next (busOk_steady ..)
  · refine .ite ?_ ?_
    · exact .next (.after (setFlag_steady ..) (busOk_steady ..))
    · exact .next (.after (modSpi_steady ..) (.after (setFlag_steady ..) (busOk_steady ..)))

theorem execSpiTransferDone_answers (ctl : Fin 2) (rx : List Byte) (s : State) : Answers s (execSpiTransferDone ctl rx s) := by
  unfold execSpiTransferDone
  extract_lets
  split
  · exact .next (.refl _)
  · refine .ite ?_ ?_
    · exact .next (.refl _)
    · exact .next (.after (spiNext_steady ..) (.after (modSpi_steady ..) (.after (setFlag_steady ..)
          (.after (setFlag_steady ..) (by
          refine .after (.foldl _ (fun _ _ => setFld_steady ..) _ _) ?_
          exact .refl _)))))

theorem execSpiScriptEntry_answers (ctl : Fin 2) (s : State) : Answers s (execSpiScriptEntry ctl s) := by
  unfold execSpiScriptEntry
  extract_lets
  split
  · exact .next (.refl _)
  · refine .ite ?_ ?_
    · exact .next (.after (spiNext_steady ..) (.after (setFlag_steady ..) (.after (modSpi_steady ..) (setFlag_steady ..))))
    · refine .ite ?_ ?_
      · exact .next (.after (spiNext_steady ..) (.after (setFlag_steady ..) (modSpi_steady ..)))
      · refine .ite ?_ ?_
        · exact .next (.after (spiNext_steady ..) (.after (setFlag_steady ..) (.after (modSpi_steady ..) (setFlag_steady ..))))
        · exact .next (modSpi_steady ..)

/-! ### The Ethernet ports as other blocks use them (`NetCore`) -/

theorem setNet_steady (n : NetState) (s : State) : Steady s (setNet n s) := by
  unfold setNet
  exact .of_core rfl rfl

theorem modNet_steady (p : Nat) (f : NetPort → NetPort) (s : State) : Steady s (modNet p f s) := by
  unfold modNet
  exact setNet_steady ..

theorem netCount_steady (p : Nat) (kind : Nat) (s : State) : Steady s (netCount p kind s) := by
  unfold netCount
  exact modNet_steady ..

theorem netEvent_steady (p : Nat) (n : Nat) (cls : EventClass) (s : State) : Steady s (netEvent p n cls s) := by
  unfold netEvent
  exact postFlag_steady ..

theorem netDrive_steady (p : Nat) (bs : List Byte) (s : State) : Steady s (netDrive p bs s) := by
  unfold netDrive
  exact .after (netCount_steady ..) (modNet_steady ..)

/-! ### The redundant pair and the Kurnarik link (`Klink`) -/

theorem setKState_steady (p : Nat) (n : Nat) (s : State) : Steady s (setKState p n s) := by
  unfold setKState
  exact .ite (setFld_steady ..) (setFld_steady ..)

theorem setKLanes_steady (p : Nat) (m : Nat) (s : State) : Steady s (setKLanes p m s) := by
  unfold setKLanes
  exact .ite (setFld_steady ..) (setFld_steady ..)

theorem kShowLanes_steady (p : Nat) (s : State) : Steady s (kShowLanes p s) := by
  unfold kShowLanes
  exact setKLanes_steady ..

theorem mirrorAbandon_steady (num : Nat) (p : Nat) (s : State) : Steady s (mirrorAbandon num p s) := by
  unfold mirrorAbandon
  exact .after (kEvent_steady ..) (.after (kCount_steady ..) (.after (settleDest_steady ..) (setKlink_steady ..)))

theorem mirrorSend_steady (num : Nat) (p : Nat) (s : State) : Steady s (mirrorSend num p s) := by
  unfold mirrorSend
  split
  · exact mirrorAbandon_steady ..
  · split
    · exact .after (kCount_steady ..) (.after (kSend_steady ..) (.after (setKlink_steady ..) (.ite
          (.after (orFlags_steady ..) (slotSeen_steady ..)) (slotSeen_steady ..))))

theorem execKlinkMirrorStart_answers (num : Nat) (s : State) : Answers s (execKlinkMirrorStart num s) := by
  unfold execKlinkMirrorStart
  split
  · refine .ite ?_ ?_
    · exact .next (mirrorSend_steady ..)
    · exact .next (.refl _)
  · exact .next (.refl _)

theorem kDown_steady (p : Nat) (mismatch : Bool) (s : State) : Steady s (kDown p mismatch s) := by
  unfold kDown
  refine .after (.foldl _ (fun _ _ => .ite (mirrorSend_steady ..) (mirrorAbandon_steady ..)) _ _) ?_
  exact .ite (.after (kSend_steady ..) (.after (kEvent_steady ..) (.after (kCount_steady ..) (.ite (.after (orBit_steady ..)
      (.after (lanesStop_steady ..) (.after (setKLanes_steady ..) (.after (setKState_steady ..)
      (.after (setKlink_steady ..) (modKPort_steady ..)))))) (.after (lanesStop_steady ..) (.after (setKLanes_steady ..)
      (.after (setKState_steady ..) (.after (setKlink_steady ..) (modKPort_steady ..))))))))) (.after (kEvent_steady ..)
      (.after (kCount_steady ..) (.ite (.after (orBit_steady ..) (.after (lanesStop_steady ..) (.after (setKLanes_steady ..)
      (.after (setKState_steady ..) (.after (setKlink_steady ..) (modKPort_steady ..)))))) (.after (lanesStop_steady ..)
      (.after (setKLanes_steady ..) (.after (setKState_steady ..) (.after (setKlink_steady ..) (modKPort_steady ..))))))))

theorem kOff_steady (p : Nat) (s : State) : Steady s (kOff p s) := by
  unfold kOff
  exact .ite (.refl _) (.after (setKState_steady ..) (.after (modKPort_steady ..) (kDown_steady ..)))

theorem kLaneLost_steady (lane : Nat) (s : State) : Steady s (kLaneLost lane s) := by
  unfold kLaneLost
  exact .ite (.refl _) (.ite (.after (kDown_steady ..) (.after (kShowLanes_steady ..) (.after (kCount_steady ..)
      (.after (orBit_steady ..) (.after (modKPort_steady ..) (laneRetire_steady ..)))))) (.after (kShowLanes_steady ..)
      (.after (kCount_steady ..) (.after (orBit_steady ..) (.after (modKPort_steady ..) (laneRetire_steady ..))))))

theorem kReplay_steady (p : Nat) (s : State) : Steady s (kReplay p s) := by
  unfold kReplay
  exact .ite (.refl _) (.ite (.after (kDown_steady ..) (.after (modKPort_steady ..) (.after (kResend_steady ..)
      (.after (kCount_steady ..) (orBit_steady ..))))) (.after (modKPort_steady ..) (.after (kResend_steady ..)
      (.after (kCount_steady ..) (orBit_steady ..)))))

theorem kHeader_steady (p : Nat) (h : FlitHeader) (s : State) : Steady s (kHeader p h s) := by
  unfold kHeader
  exact .ite (.ite (.ite (.after (kDown_steady ..) (.after (kShowLanes_steady ..) (.after (modKPort_steady ..)
      (.after (creditReturn_steady ..) (modKPort_steady ..))))) (.after (kResend_steady ..) (.after (kShowLanes_steady ..)
      (.after (modKPort_steady ..) (.after (creditReturn_steady ..) (modKPort_steady ..))))))
      (.after (creditReturn_steady ..) (modKPort_steady ..))) (.after (kPump_steady ..) (.ite (.after (kReplay_steady ..)
      (.ite (.ite (.after (kDown_steady ..) (.after (kShowLanes_steady ..) (.after (modKPort_steady ..)
      (.after (creditReturn_steady ..) (modKPort_steady ..))))) (.after (kResend_steady ..) (.after (kShowLanes_steady ..)
      (.after (modKPort_steady ..) (.after (creditReturn_steady ..) (modKPort_steady ..))))))
      (.after (creditReturn_steady ..) (modKPort_steady ..)))) (.ite (.ite (.after (kDown_steady ..)
      (.after (kShowLanes_steady ..) (.after (modKPort_steady ..) (.after (creditReturn_steady ..) (modKPort_steady ..)))))
      (.after (kResend_steady ..) (.after (kShowLanes_steady ..) (.after (modKPort_steady ..)
      (.after (creditReturn_steady ..) (modKPort_steady ..)))))) (.after (creditReturn_steady ..) (modKPort_steady ..)))))

theorem kReceive_steady {p : Nat} {h : FlitHeader} {sequenced : Bool} {act : State → State} {s : State}
    (ha : ∀ t, Steady t (act t)) : Steady s (kReceive p h sequenced act s) := by
  unfold kReceive
  extract_lets s1
  have h1 : Steady s s1 := .after (kHeader_steady ..) (kCount_steady ..)
  refine .ite (.refl _) (.ite (.after (kCount_steady ..) (modKPort_steady ..))
    (.ite (.after (kCount_steady ..) (modKPort_steady ..)) (.ite h1 (.ite ?_ (.after (ha _) h1)))))
  exact .after (ha _) (.after (modKPort_steady ..) h1)

theorem execKlinkFlitReceive_answers (port : Fin 2) (hdr : FlitHeader) (known : Bool) (s : State) :
    Answers s (execKlinkFlitReceive port hdr known s) := by
  unfold execKlinkFlitReceive
  refine .ite ?_ ?_
  · exact .next (kReceive_steady (fun _ => .refl _))
  · exact .next (.ite (kCount_steady ..) (.refl _))

theorem execKlinkNak_answers (port : Fin 2) (hdr : FlitHeader) (s : State) : Answers s (execKlinkNak port hdr s) := by
  unfold execKlinkNak
  exact .next (kReceive_steady (fun _ => .refl _))

theorem execKlinkAckTimeout_answers (port : Fin 2) (s : State) : Answers s (execKlinkAckTimeout port s) := by
  unfold execKlinkAckTimeout
  refine .ite ?_ ?_
  · exact .next (kReplay_steady ..)
  · exact .next (.refl _)

theorem execKlinkTrainStart_answers (port : Fin 2) (s : State) : Answers s (execKlinkTrainStart port s) := by
  unfold execKlinkTrainStart
  refine .ite ?_ ?_
  · exact .next (.refl _)
  · refine .next ?_
    refine .after (.foldl _ (fun _ _ => laneSends_steady ..) _ _) ?_
    exact .after (lanesStart_steady ..) (.after (setKState_steady ..) (modKPort_steady ..))

theorem execKlinkTrainTimeout_answers (port : Fin 2) (s : State) : Answers s (execKlinkTrainTimeout port s) := by
  unfold execKlinkTrainTimeout
  refine .ite ?_ ?_
  · exact .next (kDown_steady ..)
  · exact .next (.refl _)

theorem kGoUp_steady (p : Nat) (s : State) : Steady s (kGoUp p s) := by
  unfold kGoUp
  exact .after (kShowLanes_steady ..) (.after (setKState_steady ..) (.after (modKPort_steady ..)
      (.after (withLedger_steady ..) (by
      refine .after (.foldl _ (fun _ _ => .ite (.refl _) (.after (kCount_steady ..) (laneRetire_steady ..))) _ _) ?_
      exact .refl _))))

theorem execKlinkDeskewLost_answers (port : Fin 2) (s : State) : Answers s (execKlinkDeskewLost port s) := by
  unfold execKlinkDeskewLost
  refine .ite ?_ ?_
  · exact .next (kDown_steady ..)
  · exact .next (.refl _)

theorem execRetrain_answers (s : State) : Answers s (execRetrain s) := by
  unfold execRetrain
  refine .ite ?_ ?_
  · exact .next (busOk_steady ..)
  · refine .ite ?_ ?_
    · exact .next (.after (postKind_steady ..) (busOk_steady ..))
    · exact .next (.ite (.after (kDown_steady ..) (.ite (.after (kDown_steady ..) (busOk_steady ..)) (busOk_steady ..)))
          (.ite (.after (kDown_steady ..) (busOk_steady ..)) (busOk_steady ..)))

theorem setPrin_steady (b : Bool) (s : State) : Steady s (setPrin b s) := by
  unfold setPrin
  exact .after (setKlink_steady ..) (.ite (.after (withView_steady ..) (setFlag_steady ..)) (setFlag_steady ..))

theorem resolveRoles_steady (hb : Heartbeat) (s : State) : Steady s (resolveRoles hb s) := by
  unfold resolveRoles
  exact .after (kEvent_steady ..) (.after (setKlink_steady ..) (.after (setFlag_steady ..) (.after (setFlag_steady ..) (.ite
      (.after (kEvent_steady ..) (.after (setPrin_steady ..) (.ite (setFld_steady ..) (.refl _))))
      (.after (setPrin_steady ..) (.ite (setFld_steady ..) (.refl _)))))))

theorem unform_steady (s : State) : Steady s (unform s) := by
  unfold unform
  exact .after (spillSettled_steady ..) (.after (orBit_steady ..) (setFlag_steady ..))

theorem takeover_steady (s : State) : Steady s (takeover s) := by
  unfold takeover
  exact .after (withCall_steady ..) (.after (kEvent_steady ..) (.after (unform_steady ..) (.after (setKlink_steady ..)
      (.after (addFld_steady ..) (setPrin_steady ..)))))

theorem beatWith_steady (hb : Heartbeat) (s : State) : Steady s (beatWith hb s) := by
  unfold beatWith
  exact .after (setKlink_steady ..) (.ite (.after (netDrive_steady ..) (.ite (.after (kSendFree_steady ..)
      (.ite (kSendFree_steady ..) (.refl _))) (.ite (kSendFree_steady ..) (.refl _)))) (.ite (.after (kSendFree_steady ..)
      (.ite (kSendFree_steady ..) (.refl _))) (.ite (kSendFree_steady ..) (.refl _))))

theorem beat_steady (leaving : Bool) (s : State) : Steady s (beat leaving s) := by
  unfold beat
  exact beatWith_steady ..

theorem beatLeaving_steady (s : State) : Steady s (beatLeaving s) := by
  unfold beatLeaving
  refine .after (.foldl _ (fun _ _ => .after (setKlink_steady ..) (beatWith_steady ..)) _ _) ?_
  exact setKlink_steady ..

theorem execHeartbeatSend_answers (s : State) : Answers s (execHeartbeatSend s) := by
  unfold execHeartbeatSend
  refine .ite ?_ ?_
  · exact .next (.refl _)
  · exact .next (.after (beat_steady ..) (.after (setKlink_steady ..) (.after (setFlag_steady ..) (setFlag_steady ..))))

theorem sendLeaving_steady (s : State) : Steady s (sendLeaving s) := by
  unfold sendLeaving
  exact .ite (beatLeaving_steady ..) (.refl _)

theorem heartbeat_steady (eth : Bool) (hb : Heartbeat) (s : State) : Steady s (heartbeat eth hb s) := by
  unfold heartbeat
  refine .ite ?_ ?_
  · exact .refl _
  · exact .ite (.after (takeover_steady ..) (.ite (.after (setFlag_steady ..) (.after (setKlink_steady ..) (by
        refine .after (.foldl _ (fun _ _ => setFld_steady ..) _ _) ?_
        exact .refl _))) (.after (setFlag_steady ..) (.after (setKlink_steady ..) (by
        refine .after (.foldl _ (fun _ _ => setFld_steady ..) _ _) ?_
        exact .refl _))))) (.ite (.ite (.after (kEvent_steady ..) (.after (setPrin_steady ..) (.after (setKlink_steady ..)
            (.after (setFld_steady ..) (.ite (.after (setFlag_steady ..) (.after (setKlink_steady ..) (by
        refine .after (.foldl _ (fun _ _ => setFld_steady ..) _ _) ?_
        exact .refl _))) (.after (setFlag_steady ..) (.after (setKlink_steady ..) (by
        refine .after (.foldl _ (fun _ _ => setFld_steady ..) _ _) ?_
        exact .refl _)))))))) (.ite (.after (setFlag_steady ..) (.after (setKlink_steady ..) (by
        refine .after (.foldl _ (fun _ _ => setFld_steady ..) _ _) ?_
        exact .refl _))) (.after (setFlag_steady ..) (.after (setKlink_steady ..) (by
        refine .after (.foldl _ (fun _ _ => setFld_steady ..) _ _) ?_
        exact .refl _))))) (.ite (.after (resolveRoles_steady ..) (.ite (.after (setFlag_steady ..)
            (.after (setKlink_steady ..) (by
        refine .after (.foldl _ (fun _ _ => setFld_steady ..) _ _) ?_
        exact .refl _))) (.after (setFlag_steady ..) (.after (setKlink_steady ..) (by
        refine .after (.foldl _ (fun _ _ => setFld_steady ..) _ _) ?_
        exact .refl _))))) (.ite (.after (setFlag_steady ..) (.after (setKlink_steady ..) (by
        refine .after (.foldl _ (fun _ _ => setFld_steady ..) _ _) ?_
        exact .refl _))) (.after (setFlag_steady ..) (.after (setKlink_steady ..) (by
        refine .after (.foldl _ (fun _ _ => setFld_steady ..) _ _) ?_
        exact .refl _))))))

theorem execHeartbeatReceive_answers (port : Option (Fin 2)) (hdr : FlitHeader) (hb : Heartbeat) (s : State) :
    Answers s (execHeartbeatReceive port hdr hb s) := by
  unfold execHeartbeatReceive
  split
  · exact .next (kReceive_steady (fun _ => heartbeat_steady ..))
  · exact .next (heartbeat_steady ..)

theorem execHeartbeatMissedPeriod_answers (s : State) : Answers s (execHeartbeatMissedPeriod s) := by
  unfold execHeartbeatMissedPeriod
  refine .ite ?_ ?_
  · exact .next (.refl _)
  · refine .ite ?_ ?_
    · exact .next (.after (setFlag_steady ..) (.after (setFlag_steady ..) (.after (kCount_steady ..) (setKlink_steady ..))))
    · refine .ite ?_ ?_
      · refine .ite ?_ ?_
        · exact .next (.after (kEvent_steady ..) (.after (setFlag_steady ..) (.after (unform_steady ..)
              (.after (setFlag_steady ..) (.after (setFlag_steady ..) (.after (kCount_steady ..) (setKlink_steady ..)))))))
        · exact .next (.after (setFlag_steady ..) (.after (setFlag_steady ..) (.after (kCount_steady ..) (setKlink_steady ..))))
      · exact .next (.after (takeover_steady ..) (.after (setFlag_steady ..) (.after (setFlag_steady ..)
            (.after (kCount_steady ..) (setKlink_steady ..)))))

theorem helloRoles_steady (hb : Heartbeat) (s : State) : Steady s (helloRoles hb s) := by
  unfold helloRoles
  refine .ite ?_ ?_
  · exact .refl _
  · refine .after (resolveRoles_steady ..) ?_
    refine .after (.foldl _ (fun _ _ => setFld_steady ..) _ _) ?_
    exact .refl _

theorem execKlinkAlignSend_answers (port : Fin 2) (s : State) : Answers s (execKlinkAlignSend port s) := by
  unfold execKlinkAlignSend
  refine .ite ?_ ?_
  · extract_lets
    split
    · exact .next (.ite (.after (kDrive_steady ..) (.after (kAlign_steady ..) (modKPort_steady ..)))
          (.after (helloRoles_steady ..) (.after (kGoUp_steady ..) (.after (kDrive_steady ..)
          (.after (kAlign_steady ..) (modKPort_steady ..))))))
    · exact .next (.after (kDrive_steady ..) (.after (kAlign_steady ..) (modKPort_steady ..)))
  · refine .ite ?_ ?_
    · exact .next (kAlign_steady ..)
    · exact .next (.refl _)

theorem execHelloFlit_answers (port : Fin 2) (hdr : FlitHeader) (hb : Heartbeat) (topology : Fin 4) (pref : Bool)
    (s : State) : Answers s (execHelloFlit port hdr hb topology pref s) := by
  unfold execHelloFlit
  refine .ite ?_ ?_
  · refine .ite ?_ ?_
    · exact .next (kCount_steady ..)
    · refine .ite ?_ ?_
      · exact .next (kDown_steady ..)
      · refine .ite ?_ ?_
        · exact .next (.after (helloRoles_steady ..) (.after (setKlink_steady ..)
              (.after (kGoUp_steady ..) (kCount_steady ..))))
        · exact .next (.after (modKPort_steady ..) (.after (setKlink_steady ..) (kCount_steady ..)))
  · refine .ite ?_ ?_
    · exact .next (kReceive_steady (fun _ => .after (helloRoles_steady ..) (setKlink_steady ..)))
    · exact .next (.refl _)

theorem execYield_answers (s : State) : Answers s (execYield s) := by
  unfold execYield
  refine .ite ?_ ?_
  · exact .next (busOk_steady ..)
  · refine .ite ?_ ?_
    · exact .next (.after (setKlink_steady ..) (.after (beatLeaving_steady ..) (busOk_steady ..)))
    · exact .next (.after (postKind_steady ..) (busOk_steady ..))

theorem execKlinkTimeSend_answers (port : Fin 2) (s : State) : Answers s (execKlinkTimeSend port s) := by
  unfold execKlinkTimeSend
  refine .ite ?_ ?_
  · exact .next (kSendFree_steady ..)
  · exact .next (.refl _)

theorem execKlinkTimeReceive_answers (port : Fin 2) (hdr : FlitHeader) (own : Nat) (lastDep : Nat) (lastArr : Nat)
    (s : State) : Answers s (execKlinkTimeReceive port hdr own lastDep lastArr s) := by
  unfold execKlinkTimeReceive
  exact .next (kReceive_steady (fun _ => .ite (modKPort_steady ..) (.after (setFld_steady ..) (modKPort_steady ..))))

theorem execTrigFlit_answers (port : Fin 2) (hdr : FlitHeader) (output : Fin 4) (time : Nat) (streams : List (Fin 16 × Nat))
    (s : State) : Answers s (execTrigFlit port hdr output time streams s) := by
  unfold execTrigFlit
  exact .next (kReceive_steady (fun _ => combineWith_steady ..))

theorem execCueselFlit_answers (port : Fin 2) (hdr : FlitHeader) (entry : Fin 16) (s : State) :
    Answers s (execCueselFlit port hdr entry s) := by
  unfold execCueselFlit
  exact .next (kReceive_steady (fun _ => .ite (selFire_steady ..) (.refl _)))

theorem partnerDisp_steady (e : Nat × Nat × BitVec 8 × Fin 16) (s : State) : Steady s (partnerDisp e s) := by
  unfold partnerDisp
  split
  · split
    · exact modFrame_steady ..
    · exact .after (kEvent_steady ..) (kCount_steady ..)

theorem execDispFlit_answers (port : Fin 2) (hdr : FlitHeader) (entries : List (Nat × Nat × BitVec 8 × Fin 16))
    (s : State) : Answers s (execDispFlit port hdr entries s) := by
  unfold execDispFlit
  exact .next (kReceive_steady (fun _ => by
      refine .after (spillSettled_steady ..) ?_
      refine .after (.foldl _ (fun _ _ => partnerDisp_steady ..) _ _) ?_
      exact .refl _))

theorem setMirrorRx_steady (p : Nat) (m : Option MirrorRx) (s : State) : Steady s (setMirrorRx p m s) := by
  unfold setMirrorRx
  exact setKlink_steady ..

theorem mirrorOpen_steady (p num fs src dt width height cfa emb : Nat) (s : State) :
    Steady s (mirrorOpen p num fs src dt width height cfa emb s) := by
  unfold mirrorOpen
  extract_lets r d s1 sd s2
  have h1 : Steady s s1 := by
    unfold s1
    split
    · exact closeTruncated_steady ..
    · exact .refl _
  have h2 : Steady s s2 := .after (openNew_steady ..) h1
  refine .ite (.after (linkSend_steady ..) (.after (kCount_steady ..) (setMirrorRx_steady ..))) ?_
  split
  · exact .after (setMirrorRx_steady ..) h2
  · exact h2

theorem mirrorConsume_steady (n p : Nat) (s : State) : Steady s (mirrorConsume n p s) := by
  induction n generalizing s with
  | zero => exact .refl _
  | succ n ih =>
    unfold mirrorConsume
    split
    · exact .refl _
    · split
      · exact .refl _
      · refine .ite (.refl _) (.ite (.ite (.refl _) ?_) (.ite (.refl _) ?_))
        · exact .after (ih _) (.after (passLines_steady ..) (setMirrorRx_steady ..))
        · exact .after (ih _) (.after (embeddedPacket_steady ..) (setMirrorRx_steady ..))

theorem execFrameHdr_answers (port : Fin 2) (hdr : FlitHeader) (num : Nat) (fs : Nat) (src : BitVec 8) (dt : BitVec 6)
    (width : Nat) (height : Nat) (cfa : Fin 8) (emb : Nat) (s : State) :
    Answers s (execFrameHdr port hdr num fs src dt width height cfa emb s) := by
  unfold execFrameHdr
  exact .next (kReceive_steady (fun _ => mirrorOpen_steady ..))

theorem execRaw_answers (port : Fin 2) (hdr : FlitHeader) (bytes : List Byte) (s : State) :
    Answers s (execRaw port hdr bytes s) := by
  unfold execRaw
  exact .next (kReceive_steady (fun _ => (by
      split
      · exact .refl _
      · exact .after (mirrorConsume_steady ..) (setMirrorRx_steady ..))))

theorem execFrameEndFlit_answers (port : Fin 2) (hdr : FlitHeader) (num : Nat) (poison : Bool) (s : State) :
    Answers s (execFrameEndFlit port hdr num poison s) := by
  unfold execFrameEndFlit
  exact .next (kReceive_steady (fun _ => (by
      split
      · exact .refl _
      · exact .ite (.refl _) ((by
              extract_lets
              split
              · exact .ite (.after (frameEnd_steady ..) (.ite (.after (orFlags_steady ..) (.after (orBit_steady ..)
                    (.after (kCount_steady ..) (setMirrorRx_steady ..))))
                    (.after (kCount_steady ..) (setMirrorRx_steady ..)))) (.ite (.after (orFlags_steady ..)
                    (.after (orBit_steady ..) (.after (kCount_steady ..) (setMirrorRx_steady ..))))
                    (.after (kCount_steady ..) (setMirrorRx_steady ..)))
              · exact .ite (.after (orFlags_steady ..) (.after (orBit_steady ..)
                    (.after (kCount_steady ..) (setMirrorRx_steady ..))))
                    (.after (kCount_steady ..) (setMirrorRx_steady ..)))))))

theorem mirrorAck_steady (e : Nat × Fin 16) (s : State) : Steady s (mirrorAck e s) := by
  unfold mirrorAck
  exact .ite (.refl _) (.ite (.after (settleDest_steady ..) (.after (setKlink_steady ..) (modFrame_steady ..)))
      (.after (mirrorAbandon_steady ..) (modFrame_steady ..)))

theorem execMirrorAck_answers (port : Fin 2) (hdr : FlitHeader) (entries : List (Nat × Fin 16)) (s : State) :
    Answers s (execMirrorAck port hdr entries s) := by
  unfold execMirrorAck
  exact .next (kReceive_steady (fun _ => by
      refine .after (.foldl _ (fun _ _ => mirrorAck_steady ..) _ _) ?_
      exact .refl _))

theorem execMirrorAckTimeout_answers (num : Nat) (s : State) : Answers s (execMirrorAckTimeout num s) := by
  unfold execMirrorAckTimeout
  extract_lets
  split
  · refine .ite ?_ ?_
    · exact .next (mirrorAbandon_steady ..)
    · exact .next (.refl _)
  · refine .ite ?_ ?_
    · exact .next (mirrorAbandon_steady ..)
    · exact .next (.refl _)
  · exact .next (.refl _)

theorem execKlinkCounterClear_answers (s : State) : Answers s (execKlinkCounterClear s) := by
  unfold execKlinkCounterClear
  exact .next (.after (setKlink_steady ..) (busOk_steady ..))

theorem pairRoles_steady (s : State) : Steady s (pairRoles s) := by
  unfold pairRoles
  exact .ite (.after (setPrin_steady ..) (.ite (.after (unform_steady ..) (setKlink_steady ..)) (setKlink_steady ..))) (.ite
      (.after (setPrin_steady ..) (.ite (.after (unform_steady ..) (setKlink_steady ..)) (setKlink_steady ..)))
      (.after (setPrin_steady ..) (.ite (.after (unform_steady ..) (setKlink_steady ..)) (setKlink_steady ..))))

theorem klinkCuePoint_steady (s : State) : Steady s (klinkCuePoint s) := by
  unfold klinkCuePoint
  refine .after (.foldl _ (fun _ _ => .ite (.ite (setKState_steady ..) (.refl _)) (.ite (.refl _) (kOff_steady ..))) _ _) ?_
  exact pairRoles_steady ..

/-! ### Motion feedback (`Motion`) -/

theorem setMotion_steady (m : MotionState) (s : State) : Steady s (setMotion m s) := by
  unfold setMotion
  exact .of_core rfl rfl

theorem modChan_steady (c : Nat) (f : MotionChan → MotionChan) (s : State) : Steady s (modChan c f s) := by
  unfold modChan
  exact setMotion_steady ..

theorem motionEvent_steady (n : Nat) (cls : EventClass) (c : Nat) (s : State) : Steady s (motionEvent n cls c s) := by
  unfold motionEvent
  exact postFlag_steady ..

theorem modCmp_steady (k : Nat) (f : MotionCmp → MotionCmp) (s : State) : Steady s (modCmp k f s) := by
  unfold modCmp
  exact setMotion_steady ..

theorem setTarget_steady (k : Nat) (t : ℤ) (s : State) : Steady s (setTarget k t s) := by
  unfold setTarget
  exact .after (setFld_steady ..) (modCmp_steady ..)

theorem cmpFire_steady (k : Nat) (time : Nat) (s : State) : Steady s (cmpFire k time s) := by
  unfold cmpFire
  exact .after (setFld_steady ..) (.after (setFld_steady ..) (addFld_steady ..))

theorem cmpCross_steady (m : Nat) (k : Nat) (time : Nat) (ahead : Nat) (d : ℤ) (s : State) :
    Steady s (cmpCross m k time ahead d s) := by
  unfold cmpCross
  exact .ite (.after (setFlag_steady ..) (cmpFire_steady ..)) (.after (addFld_steady ..)
      (.after (setTarget_steady ..) (cmpFire_steady ..)))

theorem cmpEvents_steady (ks : List Nat) (time : Nat) (s : State) : Steady s (cmpEvents ks time s) := by
  unfold cmpEvents
  exact .ite (.refl _) (.after (selFireAll_steady ..) (combine_steady ..))

theorem cmpUpdate_steady (c : Nat) (p : ℤ) (d : ℤ) (time : Nat) (s : State) : Steady s (cmpUpdate c p d time s) := by
  unfold cmpUpdate
  refine .ite ?_ ?_
  · exact .refl _
  · refine .after (cmpEvents_steady ..) ?_
    refine .after (.foldl _ (fun _ _ => cmpCross_steady ..) _ _) ?_
    exact .refl _

theorem cmpArm_steady (k : Nat) (x : MotionCmp) (ifPassed : Bool) (s : State) : Steady s (cmpArm k x ifPassed s) := by
  unfold cmpArm
  exact .ite (.after (postKind_steady ..) (setFlag_steady ..)) (.ite (.after (setFlag_steady ..) (.after (setFld_steady ..)
      (.after (setFld_steady ..) (modCmp_steady ..)))) (.ite (.after (postOther_steady ..) (.after (setFlag_steady ..)
      (.after (setFlag_steady ..) (modCmp_steady ..)))) (.after (cmpEvents_steady ..) (.ite (.after (setTarget_steady ..)
      (.after (cmpFire_steady ..) (.after (setFlag_steady ..) (.after (setFlag_steady ..) (.after (setFld_steady ..)
      (.after (setFld_steady ..) (modCmp_steady ..))))))) (.after (cmpFire_steady ..) (.after (setFlag_steady ..)
      (.after (setFlag_steady ..) (.after (setFld_steady ..) (.after (setFld_steady ..) (modCmp_steady ..))))))))))

theorem cmpCtrlWrite_steady (k : Nat) (v : Nat) (s : State) : Steady s (cmpCtrlWrite k v s) := by
  unfold cmpCtrlWrite
  exact .ite (.after (postActsAs_steady ..) (.after (setFld_steady ..) (.after (setFld_steady ..) (.after (setFlag_steady ..)
      (.after (setFlag_steady ..) (.ite (.after (setFlag_steady ..) (.ite (.after (setFlag_steady ..)
      (.ite (setFlag_steady ..) (.refl _))) (.ite (setFlag_steady ..) (.refl _)))) (.ite (.after (setFlag_steady ..)
      (.ite (setFlag_steady ..) (.refl _))) (.ite (setFlag_steady ..) (.refl _))))))))) (.after (setFld_steady ..)
      (.after (setFld_steady ..) (.after (setFlag_steady ..) (.after (setFlag_steady ..) (.ite (.after (setFlag_steady ..)
      (.ite (.after (setFlag_steady ..) (.ite (setFlag_steady ..) (.refl _))) (.ite (setFlag_steady ..) (.refl _)))) (.ite
      (.after (setFlag_steady ..) (.ite (setFlag_steady ..) (.refl _))) (.ite (setFlag_steady ..) (.refl _))))))))

theorem execArm_answers (cmp : Fin 8) (value : Word) (s : State) : Answers s (execArm cmp value s) := by
  unfold execArm
  refine .ite ?_ ?_
  · exact .next (busOk_steady ..)
  · exact .next (.ite (.after (setFlag_steady ..) (.after (cmpArm_steady ..)
        (.after (cmpCtrlWrite_steady ..) (busOk_steady ..)))) (.after (cmpArm_steady ..)
        (.after (cmpCtrlWrite_steady ..) (busOk_steady ..))))

theorem execDisarm_answers (cmp : Fin 8) (value : Word) (s : State) : Answers s (execDisarm cmp value s) := by
  unfold execDisarm
  refine .ite ?_ ?_
  · exact .next (busOk_steady ..)
  · exact .next (.after (setFlag_steady ..) (.after (cmpCtrlWrite_steady ..) (busOk_steady ..)))

theorem motionMove_steady (c : Nat) (d : ℤ) (time : Nat) (s : State) : Steady s (motionMove c d time s) := by
  unfold motionMove
  exact .after (cmpUpdate_steady ..) (.after (modChan_steady ..) (.ite
      (.after (motionEvent_steady ..) (setFld_steady ..)) (setFld_steady ..)))

theorem setSpeed_steady (c : Nat) (v : ℤ) (s : State) : Steady s (setSpeed c v s) := by
  unfold setSpeed
  exact setFld_steady ..

theorem motionStep_steady (c : Nat) (back : Bool) (n : Nat) (sample : Nat) (s : State) :
    Steady s (motionStep c back n sample s) := by
  unfold motionStep
  refine .ite ?_ ?_
  · exact .ite (.after (setFlag_steady ..) (.ite (.after (setFlag_steady ..) (.ite (.after (setSpeed_steady ..) (.ite
        (.after (setFlag_steady ..) (.after (orBit_steady ..) (.after (setFlag_steady ..)
        (.after (modChan_steady ..) (setFlag_steady ..))))) (.after (orBit_steady ..) (.after (setFlag_steady ..)
        (.after (modChan_steady ..) (setFlag_steady ..)))))) (.after (modChan_steady ..) (setFlag_steady ..)))) (.ite
        (.after (setSpeed_steady ..) (.ite (.after (setFlag_steady ..) (.after (orBit_steady ..) (.after (setFlag_steady ..)
        (.after (modChan_steady ..) (setFlag_steady ..))))) (.after (orBit_steady ..) (.after (setFlag_steady ..)
        (.after (modChan_steady ..) (setFlag_steady ..)))))) (.after (modChan_steady ..) (setFlag_steady ..))))) (.ite
        (.after (setFlag_steady ..) (.ite (.after (setSpeed_steady ..) (.ite (.after (setFlag_steady ..)
        (.after (orBit_steady ..) (.after (setFlag_steady ..) (.after (modChan_steady ..) (setFlag_steady ..)))))
        (.after (orBit_steady ..) (.after (setFlag_steady ..) (.after (modChan_steady ..) (setFlag_steady ..))))))
        (.after (modChan_steady ..) (setFlag_steady ..)))) (.ite (.after (setSpeed_steady ..) (.ite
        (.after (setFlag_steady ..) (.after (orBit_steady ..) (.after (setFlag_steady ..)
        (.after (modChan_steady ..) (setFlag_steady ..))))) (.after (orBit_steady ..) (.after (setFlag_steady ..)
        (.after (modChan_steady ..) (setFlag_steady ..)))))) (.after (modChan_steady ..) (setFlag_steady ..))))
  · exact .ite (.after (modChan_steady ..) (.after (setFlag_steady ..) (.after (setSpeed_steady ..) (.ite
        (.after (setFlag_steady ..) (.ite (.after (setFlag_steady ..) (.ite (.after (setSpeed_steady ..) (.ite
        (.after (setFlag_steady ..) (.after (orBit_steady ..) (.after (setFlag_steady ..)
        (.after (modChan_steady ..) (setFlag_steady ..))))) (.after (orBit_steady ..) (.after (setFlag_steady ..)
        (.after (modChan_steady ..) (setFlag_steady ..)))))) (.after (modChan_steady ..) (setFlag_steady ..)))) (.ite
        (.after (setSpeed_steady ..) (.ite (.after (setFlag_steady ..) (.after (orBit_steady ..) (.after (setFlag_steady ..)
        (.after (modChan_steady ..) (setFlag_steady ..))))) (.after (orBit_steady ..) (.after (setFlag_steady ..)
        (.after (modChan_steady ..) (setFlag_steady ..)))))) (.after (modChan_steady ..) (setFlag_steady ..))))) (.ite
        (.after (setFlag_steady ..) (.ite (.after (setSpeed_steady ..) (.ite (.after (setFlag_steady ..)
        (.after (orBit_steady ..) (.after (setFlag_steady ..) (.after (modChan_steady ..) (setFlag_steady ..)))))
        (.after (orBit_steady ..) (.after (setFlag_steady ..) (.after (modChan_steady ..) (setFlag_steady ..))))))
        (.after (modChan_steady ..) (setFlag_steady ..)))) (.ite (.after (setSpeed_steady ..) (.ite
        (.after (setFlag_steady ..) (.after (orBit_steady ..) (.after (setFlag_steady ..)
        (.after (modChan_steady ..) (setFlag_steady ..))))) (.after (orBit_steady ..) (.after (setFlag_steady ..)
        (.after (modChan_steady ..) (setFlag_steady ..)))))) (.after (modChan_steady ..) (setFlag_steady ..))))))))
        (.after (setSpeed_steady ..) (.ite (.after (setFlag_steady ..) (.ite (.after (setFlag_steady ..) (.ite
        (.after (setSpeed_steady ..) (.ite (.after (setFlag_steady ..) (.after (orBit_steady ..) (.after (setFlag_steady ..)
        (.after (modChan_steady ..) (setFlag_steady ..))))) (.after (orBit_steady ..) (.after (setFlag_steady ..)
        (.after (modChan_steady ..) (setFlag_steady ..)))))) (.after (modChan_steady ..) (setFlag_steady ..)))) (.ite
        (.after (setSpeed_steady ..) (.ite (.after (setFlag_steady ..) (.after (orBit_steady ..) (.after (setFlag_steady ..)
        (.after (modChan_steady ..) (setFlag_steady ..))))) (.after (orBit_steady ..) (.after (setFlag_steady ..)
        (.after (modChan_steady ..) (setFlag_steady ..)))))) (.after (modChan_steady ..) (setFlag_steady ..))))) (.ite
        (.after (setFlag_steady ..) (.ite (.after (setSpeed_steady ..) (.ite (.after (setFlag_steady ..)
        (.after (orBit_steady ..) (.after (setFlag_steady ..) (.after (modChan_steady ..) (setFlag_steady ..)))))
        (.after (orBit_steady ..) (.after (setFlag_steady ..) (.after (modChan_steady ..) (setFlag_steady ..))))))
        (.after (modChan_steady ..) (setFlag_steady ..)))) (.ite (.after (setSpeed_steady ..) (.ite
        (.after (setFlag_steady ..) (.after (orBit_steady ..) (.after (setFlag_steady ..)
        (.after (modChan_steady ..) (setFlag_steady ..))))) (.after (orBit_steady ..) (.after (setFlag_steady ..)
        (.after (modChan_steady ..) (setFlag_steady ..)))))) (.after (modChan_steady ..) (setFlag_steady ..))))))

theorem execMotionGateEnd_answers (channel : Fin 4) (s : State) : Answers s (execMotionGateEnd channel s) := by
  unfold execMotionGateEnd
  refine .ite ?_ ?_
  · exact .next (.refl _)
  · exact .next (.ite (.after (setFlag_steady ..) (.after (setSpeed_steady ..) (modChan_steady ..)))
        (.after (setSpeed_steady ..) (modChan_steady ..)))

theorem execMotionStandstill_answers (channel : Fin 4) (s : State) : Answers s (execMotionStandstill channel s) := by
  unfold execMotionStandstill
  refine .ite ?_ ?_
  · exact .next (.refl _)
  · exact .next (.after (setSpeed_steady ..) (.after (setFlag_steady ..) (modChan_steady ..)))

theorem motionSet_steady (c : Nat) (v : ℤ) (s : State) : Steady s (motionSet c v s) := by
  unfold motionSet
  exact .after (setFlag_steady ..) (setFld_steady ..)

theorem motionHome_steady (c : Nat) (s : State) : Steady s (motionHome c s) := by
  unfold motionHome
  exact .after (orBit_steady ..) (.after (setFlag_steady ..) (motionSet_steady ..))

theorem execMotionPreset_answers (channel : Fin 4) (value : Word) (s : State) :
    Answers s (execMotionPreset channel value s) := by
  unfold execMotionPreset
  refine .ite ?_ ?_
  · exact .next (.after (motionSet_steady ..) (busOk_steady ..))
  · exact .next (busOk_steady ..)

theorem countErr_steady (c : Nat) (s : State) : Steady s (countErr c s) := by
  unfold countErr
  exact .after (motionEvent_steady ..) (.after (addFld_steady ..) (setFlag_steady ..))

theorem motionCount_steady (c : Nat) (d : ℤ) (sample : Nat) (time : Nat) (s : State) :
    Steady s (motionCount c d sample time s) := by
  unfold motionCount
  exact .ite (.refl _) (.after (modChan_steady ..) (.after (motionStep_steady ..) (motionMove_steady ..)))

theorem motionIndex_steady (c : Nat) (s : State) : Steady s (motionIndex c s) := by
  unfold motionIndex
  exact .after (modChan_steady ..) (.ite (.after (motionHome_steady ..) ((by
      split
      · exact .ite (.after (countErr_steady ..) (setFld_steady ..)) (setFld_steady ..)
      · exact setFld_steady ..))) ((by
      split
      · exact .ite (.after (countErr_steady ..) (setFld_steady ..)) (setFld_steady ..)
      · exact setFld_steady ..)))

theorem quadEdge_steady (c : Nat) (old : Nat) (new : Nat) (sample : Nat) (time : Nat) (s : State) :
    Steady s (quadEdge c old new sample time s) := by
  unfold quadEdge
  exact .ite (.after (motionIndex_steady ..) (.ite (motionCount_steady ..) (.ite (motionCount_steady ..) (.refl _))))
      (.ite (motionCount_steady ..) (.ite (motionCount_steady ..) (.refl _)))

theorem hallEdge_steady (c new sample time : Nat) (s : State) : Steady s (hallEdge c new sample time s) := by
  unfold hallEdge
  split
  · exact .after (motionEvent_steady ..) (addFld_steady ..)
  extract_lets last s1
  have h1 : Steady s s1 := modChan_steady ..
  clear_value last
  split
  · exact h1
  · exact .ite h1 (.ite (.after (motionCount_steady ..) h1) (.ite (.after (motionCount_steady ..) h1)
      (.after (motionEvent_steady ..) (.after (addFld_steady ..) (.after (setFlag_steady ..) h1)))))

theorem toothEdge_steady (c : Nat) (sample : Nat) (time : Nat) (s : State) : Steady s (toothEdge c sample time s) := by
  unfold toothEdge
  extract_lets
  split
  · exact .after (modChan_steady ..) (.ite (.after (modChan_steady ..) (.after (motionCount_steady ..) (setFlag_steady ..)))
        (.after (motionHome_steady ..) (.after (modChan_steady ..) ((by
          split
          · exact .ite (.after (countErr_steady ..) (.after (setFld_steady ..) (.after (modChan_steady ..)
                (.after (motionCount_steady ..) (setFlag_steady ..))))) (.after (setFld_steady ..)
                (.after (modChan_steady ..) (.after (motionCount_steady ..) (setFlag_steady ..))))
          · exact .after (setFld_steady ..) (.after (modChan_steady ..)
                (.after (motionCount_steady ..) (setFlag_steady ..))))))))

theorem execMotionEdge_answers (channel : Fin 4) (levels : BitVec 3) (sample : Nat) (edge : Nat) (s : State) :
    Answers s (execMotionEdge channel levels sample edge s) := by
  unfold execMotionEdge
  refine .ite ?_ ?_
  · exact .next (.refl _)
  · refine .ite ?_ ?_
    · exact .next (setFld_steady ..)
    · refine .ite ?_ ?_
      · exact .next (.after (quadEdge_steady ..) (.ite (.after (setFlag_steady ..) (.after (modChan_steady ..) (.ite
            (.after (motionEvent_steady ..) (.after (addFld_steady ..)
            (.after (setFlag_steady ..) (setFld_steady ..)))) (setFld_steady ..)))) (.after (modChan_steady ..) (.ite
            (.after (motionEvent_steady ..) (.after (addFld_steady ..)
            (.after (setFlag_steady ..) (setFld_steady ..)))) (setFld_steady ..)))))
      · refine .ite ?_ ?_
        · exact .next (.after (hallEdge_steady ..) (.ite (.after (setFlag_steady ..) (.after (modChan_steady ..) (.ite
              (.after (motionEvent_steady ..) (.after (addFld_steady ..)
              (.after (setFlag_steady ..) (setFld_steady ..)))) (setFld_steady ..)))) (.after (modChan_steady ..) (.ite
              (.after (motionEvent_steady ..) (.after (addFld_steady ..)
              (.after (setFlag_steady ..) (setFld_steady ..)))) (setFld_steady ..)))))
        · refine .ite ?_ ?_
          · exact .next (.after (toothEdge_steady ..) (.ite (.after (setFlag_steady ..) (.after (modChan_steady ..) (.ite
                (.after (motionEvent_steady ..) (.after (addFld_steady ..)
                (.after (setFlag_steady ..) (setFld_steady ..)))) (setFld_steady ..)))) (.after (modChan_steady ..) (.ite
                (.after (motionEvent_steady ..) (.after (addFld_steady ..)
                (.after (setFlag_steady ..) (setFld_steady ..)))) (setFld_steady ..)))))
          · exact .next (.ite (.after (setFlag_steady ..) (.after (modChan_steady ..) (.ite (.after (motionEvent_steady ..)
                (.after (addFld_steady ..) (.after (setFlag_steady ..) (setFld_steady ..)))) (setFld_steady ..))))
                (.after (modChan_steady ..) (.ite (.after (motionEvent_steady ..) (.after (addFld_steady ..)
                (.after (setFlag_steady ..) (setFld_steady ..)))) (setFld_steady ..))))

theorem execMotionGlitch_answers (run : MotionRun) (s : State) : Answers s (execMotionGlitch run s) := by
  unfold execMotionGlitch
  refine .ite ?_ ?_
  · exact .next (addFld_steady ..)
  · exact .next (.refl _)

theorem execMotionStall_answers (channel : Fin 4) (s : State) : Answers s (execMotionStall channel s) := by
  unfold execMotionStall
  refine .ite ?_ ?_
  · exact .next (.refl _)
  · exact .next (.after (motionEvent_steady ..) (.after (setFlag_steady ..) (.ite (.refl _) (setFlag_steady ..))))

theorem execSsiFrameStart_answers (channel : Fin 4) (sample : Nat) (idleHigh : Bool) (s : State) :
    Answers s (execSsiFrameStart channel sample idleHigh s) := by
  unfold execSsiFrameStart
  refine .ite ?_ ?_
  · exact .next (.refl _)
  · exact .next (modChan_steady ..)

theorem execSsiFrameComplete_answers (channel : Fin 4) (value : Word) (endLow : Bool) (s : State) :
    Answers s (execSsiFrameComplete channel value endLow s) := by
  unfold execSsiFrameComplete
  extract_lets
  split
  · exact .next (.refl _)
  · refine .ite ?_ ?_
    · exact .next (.ite (.refl _) (modChan_steady ..))
    · refine .ite ?_ ?_
      · exact .next (.after (orBit_steady ..) (.after (addFld_steady ..) (.ite (.refl _) (modChan_steady ..))))
      · exact .next (.ite (.after (motionMove_steady ..) (.after (setFlag_steady ..) (.after (modChan_steady ..)
            (.after (setFlag_steady ..) (.ite (.refl _) (modChan_steady ..)))))) (.after (motionStep_steady ..)
            (.after (motionMove_steady ..) (.after (setFlag_steady ..) (.after (modChan_steady ..)
            (.after (setFlag_steady ..) (.ite (.refl _) (modChan_steady ..))))))))

theorem motionClear_steady (c : Nat) (s : State) : Steady s (motionClear c s) := by
  unfold motionClear
  exact .after (setFlag_steady ..) (.after (setFlag_steady ..) (.after (setFlag_steady ..) (.after (setFlag_steady ..)
      (.after (setFlag_steady ..) (.after (setFlag_steady ..) (.after (setFlag_steady ..)
      (.after (setFld_steady ..) (setFld_steady ..))))))))

theorem chanCuePoint_steady (c : Nat) (s : State) : Steady s (chanCuePoint c s) := by
  unfold chanCuePoint
  exact .ite (.after (motionClear_steady ..) (modChan_steady ..)) (.ite (.refl _) (.ite (setFlag_steady ..) (.ite
      (.after (modChan_steady ..) (setFlag_steady ..)) (.refl _))))

theorem cmpLoad_steady (k : Nat) (s : State) : Steady s (cmpLoad k s) := by
  unfold cmpLoad
  exact .ite (setFlag_steady ..) (.after (cmpArm_steady ..) (.after (setFld_steady ..) (.after (setFld_steady ..)
      (.after (setFld_steady ..) (.after (setFld_steady ..) (.after (setFlag_steady ..) (setFlag_steady ..)))))))

theorem motionCuePoint_steady (loaded : Bool) (s : State) : Steady s (motionCuePoint loaded s) := by
  unfold motionCuePoint
  refine .ite ?_ ?_
  · refine .after (.foldl _ (fun _ _ => cmpLoad_steady ..) _ _) ?_
    exact by
        refine .after (.foldl _ (fun _ _ => chanCuePoint_steady ..) _ _) ?_
        exact .refl _
  · exact by
        refine .after (.foldl _ (fun _ _ => chanCuePoint_steady ..) _ _) ?_
        exact .refl _

theorem motionUp_steady (s : State) : Steady s (motionUp s) := by
  unfold motionUp
  refine .after (.foldl _ (fun _ _ => .after (setFlag_steady ..) (setFld_steady ..)) _ _) ?_
  exact setMotion_steady ..

theorem motionTable_steady (b : List Byte) (s : State) : Steady s (motionTable b s) := by
  unfold motionTable
  refine .after (.foldl _ (fun _ _ => .ite (setMotion_steady ..) (.after (postKind_steady ..) (setMotion_steady ..))) _ _) ?_
  exact .refl _

/-! ### The Ethernet ports (`Net`) -/

theorem netDown_steady (p : Nat) (s : State) : Steady s (netDown p s) := by
  unfold netDown
  exact .ite (.after (netEvent_steady ..) (setFlag_steady ..)) (.refl _)

theorem netLost_steady (p : Nat) (s : State) : Steady s (netLost p s) := by
  unfold netLost
  exact .ite (.refl _) (.ite (.after (holdover_steady ..) (netDown_steady ..)) (netDown_steady ..))

theorem netTrain_steady (p : Nat) (s : State) : Steady s (netTrain p s) := by
  unfold netTrain
  exact .after (laneStart_steady ..) (.after (setFlag_steady ..) (setFld_steady ..))

theorem netFollow_steady (p : Nat) (s : State) : Steady s (netFollow p s) := by
  unfold netFollow
  exact .ite (.ite (.after (laneStop_steady ..) (netLost_steady ..)) (.refl _)) (.ite (netTrain_steady ..) (.ite (.refl _)
      (.after (netTrain_steady ..) (netLost_steady ..))))

theorem execNetLinkUp_answers (port : Fin 2) (s : State) : Answers s (execNetLinkUp port s) := by
  unfold execNetLinkUp
  refine .ite ?_ ?_
  · exact .next (.after (netEvent_steady ..) (setFlag_steady ..))
  · exact .next (.refl _)

theorem execNetLinkDown_answers (port : Fin 2) (s : State) : Answers s (execNetLinkDown port s) := by
  unfold execNetLinkDown
  exact .next (netLost_steady ..)

theorem netMidnight_steady (s : State) : Steady s (netMidnight s) := by
  unfold netMidnight
  exact .ite (.after (setClock_steady rfl) (.ite (.after (laneStop_steady ..) (netDown_steady ..)) (.refl _)))
      (.after (netTrain_steady ..) (.after (netDown_steady ..) (.after (setClock_steady rfl) (.ite
      (.after (laneStop_steady ..) (netDown_steady ..)) (.refl _)))))

theorem netWake_steady (s : State) : Steady s (netWake s) := by
  unfold netWake
  exact .ite (by
      refine .after (.foldl _ (fun _ _ => .ite (netFollow_steady ..) (.ite (.after (laneStop_steady ..) (netDown_steady ..))
          (.refl _))) _ _) ?_
      exact .refl _) (.after (holdover_steady ..) (by
      refine .after (.foldl _ (fun _ _ => .ite (netFollow_steady ..) (.ite (.after (laneStop_steady ..) (netDown_steady ..))
          (.refl _))) _ _) ?_
      exact .refl _))

theorem netComplete_steady (p : Nat) (rx : Bool) (status : Nat) (ts : Nat) (s : State) :
    Steady s (netComplete p rx status ts s) := by
  unfold netComplete
  exact .ite (.after (wrapFld_steady ..) (writeMem_steady ..)) (.after (wrapFld_steady ..) (writeMem_steady ..))

theorem execNetTxWrWrite_answers (port : Fin 2) (rx : Bool) (value : Word) (s : State) :
    Answers s (execNetTxWrWrite port rx value s) := by
  unfold execNetTxWrWrite
  refine .ite ?_ ?_
  · exact .next (busOk_steady ..)
  · refine .ite ?_ ?_
    · exact .next (.after (postKind_steady ..) (busOk_steady ..))
    · exact .next (.after (setFld_steady ..) (busOk_steady ..))

theorem modStream_steady (k : Nat) (f : NetStream → NetStream) (s : State) : Steady s (modStream k f s) := by
  unfold modStream
  exact setNet_steady ..

theorem netPoison_steady (p : Nat) (a : Nat) (n : Nat) (s : State) : Steady s (netPoison p a n s) := by
  unfold netPoison
  exact .ite (poisonWarn_steady ..) (.refl _)

theorem execNetTxFrame_answers (port : Fin 2) (s : State) : Answers s (execNetTxFrame port s) := by
  unfold execNetTxFrame
  obtain ⟨bit, hbit⟩ : ∃ f, f = Nat.testBit := ⟨_, rfl⟩
  obtain ⟨stamp, hstamp⟩ : ∃ f, f = oneStep := ⟨_, rfl⟩
  rw [← hbit, ← hstamp]
  extract_lets p e s1 len flags off addr s2 raw t sent stamped
  have h1 : Steady s s1 := netPoison_steady ..
  have h2 : Steady s s2 := .after (netPoison_steady ..) h1
  refine .ite (.next (.refl _)) (.ite (.next (netComplete_steady ..)) (.ite (.next (.refl _)) (.ite ?_ ?_)))
  · exact .next (.after (orBit_steady ..) (.after (netComplete_steady ..) h1))
  · clear_value sent stamped t s2
    cases sent with
    | none => exact .next (.after (orBit_steady ..) (.after (netComplete_steady ..) h2))
    | some fr => exact .next (.after (netDrive_steady ..) (.after (netComplete_steady ..) h2))

theorem netDiscard_steady {p : Nat} {bs : List Byte} {fcsOk : Bool} {s t : State} (e : netDiscard p bs fcsOk s = some t) :
    Steady s t := by
  unfold netDiscard at e
  split at e
  · exact Option.some.inj e ▸ netCount_steady ..
  · split at e
    · exact Option.some.inj e ▸ netCount_steady ..
    · split at e
      · exact Option.some.inj e ▸ netCount_steady ..
      · split at e
        · exact Option.some.inj e ▸ netCount_steady ..
        · cases e

theorem netReceive_steady (p : Nat) (bytes : List Byte) (fcsOk : Bool) (s : State) : Steady s (netReceive p bytes fcsOk s) := by
  unfold netReceive
  split
  · exact netDiscard_steady ‹_›
  extract_lets s1 hb e size t s2 s3 status
  have h1 : Steady s s1 := netCount_steady ..
  have h3 : Steady s s3 := .after (writeMem_steady ..) (.after (netPoison_steady ..) h1)
  clear_value hb s1 s3 status t
  split
  · exact .after (heartbeat_steady ..) h1
  · exact .ite (.after (orBit_steady ..) (.after (netCount_steady ..) h1)) (.after (netComplete_steady ..) h3)

theorem execNetRxFrame_answers (port : Fin 2) (bytes : List Byte) (fcsOk : Bool) (s : State) :
    Answers s (execNetRxFrame port bytes fcsOk s) := by
  unfold execNetRxFrame
  refine .ite ?_ ?_
  · exact .next (.refl _)
  · refine .ite ?_ ?_
    · split
      · exact .next (.refl _)
      · exact .next (.after (netReceive_steady ..) (modNet_steady ..))
    · exact .next (.after (netReceive_steady ..) (.ite (modNet_steady ..) (.refl _)))

theorem netRelease_steady (k : Nat) (o : NetObject) (s : State) : Steady s (netRelease k o s) := by
  unfold netRelease
  exact .ite (.after (releaseBuf_steady ..) (.after (setPipe_steady ..) (modStream_steady ..))) (.after (heveShow_steady ..)
      (.after (heveDrain_steady ..) (.after (setFld_steady ..) (modStream_steady ..))))

theorem execStreamDatagram_answers (stream : Fin 4) (s : State) : Answers s (execStreamDatagram stream s) := by
  unfold execStreamDatagram
  refine .ite ?_ ?_
  · exact .next (.refl _)
  · split
    · exact .next (.refl _)
    · refine .ite ?_ ?_
      · exact .next (.after (orBit_steady ..) (.after (netCount_steady ..) (netRelease_steady ..)))
      · refine .ite ?_ ?_
        · exact .next (.refl _)
        · exact .next (.ite (.after (netRelease_steady ..) (.after (netCount_steady ..) (.after (netDrive_steady ..)
              (.after (modStream_steady ..) (poisonWarn_steady ..))))) (.after (netCount_steady ..)
              (.after (netDrive_steady ..) (.after (modStream_steady ..) (poisonWarn_steady ..)))))

theorem execHeveOutRdWrite_answers (engine : Fin 2) (value : Word) (s : State) :
    Answers s (execHeveOutRdWrite engine value s) := by
  unfold execHeveOutRdWrite
  refine .ite ?_ ?_
  · exact .next (busOk_steady ..)
  · refine .ite ?_ ?_
    · exact .next (.after (postKind_steady ..) (busOk_steady ..))
    · refine .ite ?_ ?_
      · exact .next (.after (postKind_steady ..) (busOk_steady ..))
      · exact .next (.after (heveShow_steady ..) (.after (heveDrain_steady ..) (.after (setFld_steady ..) (busOk_steady ..))))

theorem netStreamsCuePoint_steady (s : State) : Steady s (netStreamsCuePoint s) := by
  unfold netStreamsCuePoint
  refine .after (.foldl _ (fun _ _ => .ite (.after (netEvent_steady ..) (modStream_steady ..)) (modStream_steady ..)) _ _) ?_
  exact .refl _

theorem netCuePoint_steady (s : State) : Steady s (netCuePoint s) := by
  unfold netCuePoint
  exact .ite (netStreamsCuePoint_steady ..) (.after (netFollow_steady ..)
      (.after (netFollow_steady ..) (netStreamsCuePoint_steady ..)))

theorem setKa_steady (o : Nat) (bs : List Byte) (s : State) : Steady s (setKa o bs s) := by
  unfold setKa
  exact setClock_steady rfl

theorem execKeepaliveRx_answers (bytes : List Byte) (fcsOk : Bool) (s : State) : Answers s (execKeepaliveRx bytes fcsOk s) := by
  unfold execKeepaliveRx
  refine .ite ?_ ?_
  · exact .next (.refl _)
  · split
    · exact .next ((netDiscard_steady ‹_›))
    · refine .ite ?_ ?_
      · exact .next (netCount_steady ..)
      · split
        · exact .next (.after (addFld_steady ..) (netCount_steady ..))
        · exact .next (.after (setKa_steady ..) (netCount_steady ..))

theorem execKeepaliveTx_answers (slot : Fin 4) (s : State) : Answers s (execKeepaliveTx slot s) := by
  unfold execKeepaliveTx
  refine .ite ?_ ?_
  · exact .next (.refl _)
  · refine .ite ?_ ?_
    · exact .next (setKa_steady ..)
    · exact .next (.after (netDrive_steady ..) (setKa_steady ..))

/-! ### The magazine engine beneath its commands (`MagCore`) -/

theorem setMag_steady (m : MagState) (s : State) : Steady s (setMag m s) := by
  unfold setMag
  exact .of_core rfl rfl

theorem modMag_steady (k : Nat) (f : MagPort → MagPort) (s : State) : Steady s (modMag k f s) := by
  unfold modMag
  exact setMag_steady ..

theorem setMagState_steady (k : Nat) (n : Nat) (s : State) : Steady s (setMagState k n s) := by
  unfold setMagState
  exact setFld_steady ..

theorem magEvent_steady (n : Nat) (cls : EventClass) (k : Nat) (s : State) : Steady s (magEvent n cls k s) := by
  unfold magEvent
  exact postFlag_steady ..

theorem magMark_steady (n : Nat) (k : Nat) (s : State) : Steady s (magMark n k s) := by
  unfold magMark
  exact orBit_steady ..

theorem magGone_steady (k : Nat) (s : State) : Steady s (magGone k s) := by
  unfold magGone
  exact .after (setFlag_steady ..) (.after (setFld_steady ..) (.after (setFld_steady ..) (.after (setFlag_steady ..)
      (.after (setFld_steady ..) (setFld_steady ..)))))

theorem newVolume_steady (k : Nat) (s : State) : Steady s (newVolume k s) := by
  unfold newVolume
  split
  · exact .after (modMag_steady ..) (.snd (takeBytes_steady ..) ‹_›)

theorem writeEntry_steady (k : Nat) (state : Nat) (effect : MagEffect) (s : State) :
    Steady s (writeEntry k state effect s) := by
  unfold writeEntry
  split
  · exact .refl _
  · exact modMag_steady ..

theorem magShow_steady (k : Nat) (s : State) : Steady s (magShow k s) := by
  unfold magShow
  extract_lets
  split
  · exact .after (setFld64_steady ..) (.after (setFld_steady ..) (.after (setFlag_steady ..) (.after (setFlag_steady ..)
        (.after (setFld_steady ..) (.after (setFld_steady ..) (.after (setFld_steady ..) (setFld_steady ..)))))))
  · exact .after (setFlag_steady ..) (.after (setFlag_steady ..) (.after (setFld_steady ..) (.after (setFld_steady ..)
        (.after (setFld_steady ..) (setFld_steady ..)))))

theorem stageBuffers_steady (s : State) : Steady s (stageBuffers s) := by
  unfold stageBuffers
  exact .after (creditIssue_steady ..) (.after (creditReturn_steady ..) (setMag_steady ..))

theorem releaseStaged_steady (num : Nat) (s : State) : Steady s (releaseStaged num s) := by
  unfold releaseStaged
  exact .ite (stageBuffers_steady ..) (.after (stageBuffers_steady ..) (.after (withRawc_steady ..)
      (.after (creditReturn_steady ..) (setMag_steady ..))))

theorem magSettle_steady (num : Nat) (k : Nat) (ok : Bool) (s : State) : Steady s (magSettle num k ok s) := by
  unfold magSettle
  exact .after (settleDest_steady ..) (releaseStaged_steady ..)

theorem redirect_steady (num : Nat) (k : Nat) (s : State) : Steady s (redirect num k s) := by
  unfold redirect
  exact modFrame_steady ..

theorem failoverFrame_steady (k : Nat) (num : Nat) (s : State) : Steady s (failoverFrame k num s) := by
  unfold failoverFrame
  split
  · exact releaseStaged_steady ..
  · exact .ite (magSettle_steady ..) (.ite (.after (recodeTo_steady ..)
        (.after (redirect_steady ..) (magMark_steady ..))) (magSettle_steady ..))

theorem endMagOp_steady (k : Nat) (fail : Bool) (s : State) : Steady s (endMagOp k fail s) := by
  unfold endMagOp
  exact .ite (.after (setFlag_steady ..) (.after (setFlag_steady ..) (.after (modMag_steady ..) (setFlag_steady ..))))
      (.after (setFlag_steady ..) (.after (modMag_steady ..) (setFlag_steady ..)))

theorem magDrop_steady (k : Nat) (all : Bool) (s : State) : Steady s (magDrop k all s) := by
  unfold magDrop
  refine .after (.foldl _ (fun _ _ => magSettle_steady ..) _ _) ?_
  exact by
      refine .after (.foldl _ (fun _ _ => failoverFrame_steady ..) _ _) ?_
      exact by
            refine .after (.foldl _ (fun _ _ => magSettle_steady ..) _ _) ?_
            exact .ite (.after (endMagOp_steady ..) (.after (withRawc_steady ..) (modMag_steady ..)))
                (.after (withRawc_steady ..) (modMag_steady ..))

theorem magFail_steady (k : Nat) (s : State) : Steady s (magFail k s) := by
  unfold magFail
  exact .after (magShow_steady ..) (.after (modMag_steady ..) (.after (magDrop_steady ..) (.after (lanesStop_steady ..)
      (.after (magEvent_steady ..) (.after (setMagState_steady ..) (.ite (magEvent_steady ..) (.refl _)))))))

theorem finishClose_steady (k : Nat) (s : State) : Steady s (finishClose k s) := by
  unfold finishClose
  exact modMag_steady ..

theorem stageEffect_steady (k : Nat) (e : MagEffect) (s : State) : Steady s (stageEffect k e s) := by
  unfold stageEffect
  split
  · exact .refl _
  · exact .after (writeEntry_steady ..) (modMag_steady ..)
  · exact writeEntry_steady ..
  · exact modMag_steady ..
  · exact modMag_steady ..
  · exact .after (magShow_steady ..) (.ite (.after (setMagState_steady ..) (modMag_steady ..)) (modMag_steady ..))
  · exact newVolume_steady ..
  · exact modMag_steady ..

theorem stageStep_steady (k : Nat) (s : State) : Steady s (stageStep k s) := by
  unfold stageStep
  extract_lets
  split
  · exact .ite (.refl _) (.after (stageEffect_steady ..) (modMag_steady ..))
  · exact .refl _

theorem magEnqueue_steady (k : Nat) (r : MagRecord) (s : State) : Steady s (magEnqueue k r s) := by
  unfold magEnqueue
  exact modMag_steady ..

theorem enqueueIndex_steady (k : Nat) (s : State) : Steady s (enqueueIndex k s) := by
  unfold enqueueIndex
  exact .ite (magEnqueue_steady ..) (.refl _)

theorem formRecord_steady (t : Take) (r : MagRecord) (s : State) : Steady s (formRecord t r s).2 := by
  unfold formRecord
  split
  · exact .refl _
  · split
    · exact .refl _
    · split
      · exact .pair (.snd (takeFree_steady ..) ‹_›)

theorem placeAt_steady (k : Nat) (r : MagRecord) (t : Take) (x : Superblock) (s : State) : Steady s (placeAt k r t x s) := by
  unfold placeAt
  exact modMag_steady ..

theorem magFull_steady (k : Nat) (s : State) : Steady s (magFull k s) := by
  unfold magFull
  extract_lets
  split
  · split
    · split
      · exact .after (magShow_steady ..) (.after (placeAt_steady ..) (.after (.snd (formRecord_steady ..) ‹_›)
            (.after (enqueueIndex_steady ..) (.after (modMag_steady ..) (.after (magDrop_steady ..)
            (.after (magEvent_steady ..) (setMagState_steady ..)))))))
      · exact .after (finishClose_steady ..) (.after (.snd (formRecord_steady ..) ‹_›) (.after (enqueueIndex_steady ..)
            (.after (modMag_steady ..) (.after (magDrop_steady ..) (.after (magEvent_steady ..) (setMagState_steady ..))))))
  · exact .after (finishClose_steady ..) (.after (enqueueIndex_steady ..) (.after (modMag_steady ..)
        (.after (magDrop_steady ..) (.after (magEvent_steady ..) (setMagState_steady ..)))))

theorem magPump_steady (k : Nat) (s : State) : Steady s (magPump k s) := by
  unfold magPump
  split
  · exact .ite (.refl _) ((by
          split
          · extract_lets
            split
            · exact .after (magShow_steady ..) (.after (placeAt_steady ..) (.snd (formRecord_steady ..) ‹_›))
            · exact .after (magFull_steady ..) (.snd (formRecord_steady ..) ‹_›)
            · exact .after (magFail_steady ..) (.snd (formRecord_steady ..) ‹_›)))
  · exact .refl _

theorem magHand_steady (num : Nat) (src : Nat) (bytes : List Byte) (target : Option Nat) (s : State) :
    Steady s (magHand num src bytes target s) := by
  unfold magHand
  exact .after (releaseStaged_steady ..) (by
      refine .after (.foldl _ (fun _ _ => .ite (.after (magPump_steady ..) (magEnqueue_steady ..)) (.ite
          (.after (magPump_steady ..) (.after (magEnqueue_steady ..)
          (.after (redirect_steady ..) (magMark_steady ..)))) (settleDest_steady ..))) _ _) ?_
      exact .after (stageBuffers_steady ..) (setMag_steady ..))

theorem magReadOnly_steady (k : Nat) (s : State) : Steady s (magReadOnly k s) := by
  unfold magReadOnly
  extract_lets
  split
  · exact .after (magEvent_steady ..) (setMagState_steady ..)
  · exact .ite (.after (modMag_steady ..) (.after (magEvent_steady ..) (setMagState_steady ..))) (.after (magPump_steady ..)
        (.after (enqueueIndex_steady ..) (.after (modMag_steady ..) (.after (magDrop_steady ..)
        (.after (magEvent_steady ..) (setMagState_steady ..))))))

theorem smartUpdate_steady (k : Nat) (s : State) : Steady s (smartUpdate k s) := by
  unfold smartUpdate
  exact .ite (.after (magReadOnly_steady ..) (.ite (.after (magEvent_steady ..) (.after (setFlag_steady ..)
      (.after (modMag_steady ..) (magShow_steady ..)))) (magShow_steady ..))) (.ite (.after (magEvent_steady ..)
      (.after (setFlag_steady ..) (.after (modMag_steady ..) (magShow_steady ..)))) (magShow_steady ..))

theorem openTake_steady (k : Nat) (s : State) : Steady s (openTake k s) := by
  unfold openTake
  exact .ite (.refl _) (.after (magShow_steady ..) (.after (setMagState_steady ..) (modMag_steady ..)))

theorem openTakes_steady (s : State) : Steady s (openTakes s) := by
  unfold openTakes
  exact .after (magPump_steady ..) (.after (magPump_steady ..) (.after (openTake_steady ..)
      (.after (openTake_steady ..) (setMag_steady ..))))

theorem beginClose_steady (k : Nat) (flag : Nat) (s : State) : Steady s (beginClose k flag s) := by
  unfold beginClose
  exact .ite (.refl _) (.after (magPump_steady ..) (.after (modMag_steady ..)
      (.after (enqueueIndex_steady ..) (modMag_steady ..))))

theorem indexRecords_steady (s : State) : Steady s (indexRecords s) := by
  unfold indexRecords
  refine .after (.foldl _ (fun _ _ => .ite (.after (magPump_steady ..) (enqueueIndex_steady ..)) (.refl _)) _ _) ?_
  exact .refl _

/-! ### The commands of the Ranorid coder and decoder (`Rawc`) -/

theorem setRawc_steady (r : RawcState) (s : State) : Steady s (setRawc r s) := by
  unfold setRawc
  exact .of_core rfl rfl

theorem rawcFlag_steady (f : Fld) (cls : EventClass) (s : State) : Steady s (rawcFlag f cls s) := by
  unfold rawcFlag
  exact postFlag_steady ..

theorem beginCoding_steady (f : Frame) (map : List Byte) (missing : Bool) (s : State) :
    Steady s (beginCoding f map missing s) := by
  unfold beginCoding
  exact .after (setRawc_steady ..) (.ite (.after (setFlag_steady ..) (.ite
      (.after (setFlag_steady ..) (setFld64_steady ..)) (setFld64_steady ..))) (.ite
      (.after (setFlag_steady ..) (setFld64_steady ..)) (setFld64_steady ..)))

theorem execCoderFrameBegin_answers (s : State) : Answers s (execCoderFrameBegin s) := by
  unfold execCoderFrameBegin
  split
  · exact .next (.refl _)
  · refine .ite ?_ ?_
    · exact .next (.refl _)
    · refine .ite ?_ ?_
      · split
        · exact .next (.after (beginCoding_steady ..) (poisonWarn_steady ..))
        · exact .next (.refl _)
      · exact .next (beginCoding_steady ..)

theorem execCoderMapTimeout_answers (s : State) : Answers s (execCoderMapTimeout s) := by
  unfold execCoderMapTimeout
  split
  · exact .next (.refl _)
  · refine .ite ?_ ?_
    · exact .next (.refl _)
    · exact .next (beginCoding_steady ..)

theorem modJob_steady (num : Nat) (f : CodeJob → CodeJob) (s : State) : Steady s (modJob num f s) := by
  unfold modJob
  exact setRawc_steady ..

theorem cellReread_steady (j : CodeJob) (f : Frame) (id : Nat) (s : State) : Steady s (cellReread j f id s) := by
  unfold cellReread
  exact .after (creditReturn_steady ..) (creditIssue_steady ..)

theorem cellDetected_steady (j : CodeJob) (f : Frame) (id : Nat) (s : State) : Steady s (cellDetected j f id s) := by
  unfold cellDetected
  exact .ite (.after (rawcFlag_steady ..) (.after (addFld_steady ..) (.after (modJob_steady ..)
      (.after (modJob_steady ..) (cellReread_steady ..))))) (.ite (.after (modJob_steady ..) (cellReread_steady ..)) (.ite
      (.after (rawcFlag_steady ..) (.after (addFld_steady ..) (modJob_steady ..))) (.refl _)))

theorem execCoderDetection_answers (num : Nat) (target : CoderTarget) (s : State) :
    Answers s (execCoderDetection num target s) := by
  unfold execCoderDetection
  split
  · split
    · refine .ite ?_ ?_
      · exact .next (cellDetected_steady ..)
      · exact .next (.refl _)
    · exact .next (.after (rawcFlag_steady ..) (modJob_steady ..))
  · exact .next (.refl _)

theorem codeCells_steady (j : CodeJob) (f : Frame) (base : Nat) (ids : List Nat) (s : State) :
    Steady s (codeCells j f base ids s).2 := by
  induction ids generalizing s with
  | nil => exact .refl _
  | cons id ids ih =>
    unfold codeCells
    generalize 8 * ceilDiv (j.cw * j.ch * dtWidth f.d.dt) 64 = n
    have hx : Steady s (if keyGet j.marks id = some 3 then s.takeBytes n else ([], s)).2 := by
      split
      · exact takeBytes_steady ..
      · exact .refl _
    exact .pair (.after (ih _) hx)

theorem finishCoding_steady (j : CodeJob) (f : Frame) (slot : Nat) (s : State) : Steady s (finishCoding j f slot s) := by
  unfold finishCoding
  extract_lets
  split
  · split
    · exact .after (magHand_steady ..) (.after (setRawc_steady ..) (.after (modFrame_steady ..) (.ite
          (.after (setHash_steady ..) (.after (orFlags_steady ..) (.ite (.after (setFlag_steady ..)
          (.after (addFld_steady ..) (.after (creditReturn_steady ..) (.after (creditIssue_steady ..)
          (.after (slotSeen_steady ..) (.snd (codeCells_steady ..) ‹_›)))))) (.after (addFld_steady ..)
          (.after (creditReturn_steady ..) (.after (creditIssue_steady ..) (.after (slotSeen_steady ..)
          (.snd (codeCells_steady ..) ‹_›)))))))) (.after (orFlags_steady ..) (.ite (.after (setFlag_steady ..)
          (.after (addFld_steady ..) (.after (creditReturn_steady ..) (.after (creditIssue_steady ..)
          (.after (slotSeen_steady ..) (.snd (codeCells_steady ..) ‹_›)))))) (.after (addFld_steady ..)
          (.after (creditReturn_steady ..) (.after (creditIssue_steady ..) (.after (slotSeen_steady ..)
          (.snd (codeCells_steady ..) ‹_›))))))))))

theorem execCoderFrameComplete_answers (s : State) : Answers s (execCoderFrameComplete s) := by
  unfold execCoderFrameComplete
  split
  · exact .next (.refl _)
  · extract_lets
    split
    · exact .next (setRawc_steady ..)
    · split
      · refine .ite ?_ ?_
        · exact .next (.after (finishCoding_steady ..) (setRawc_steady ..))
        · exact .next (setRawc_steady ..)
      · exact .next (setRawc_steady ..)

theorem execRawcDecode_answers (play : Bool) (fill : BitVec 20) (s : State) : Answers s (execRawcDecode play fill s) := by
  unfold execRawcDecode
  refine .ite ?_ ?_
  · exact .next (busOk_steady ..)
  · refine .ite ?_ ?_
    · exact .next (.after (setFlag_steady ..) (.after (setFld_steady ..) (.after (setFlag_steady ..) (busOk_steady ..))))
    · exact .next (.after (setRawc_steady ..) (.after (setFlag_steady ..) (.after (setFld_steady ..)
          (.after (setFld_steady ..) (.after (setFld_steady ..) (.after (setFlag_steady ..) (busOk_steady ..)))))))

theorem decodeDone_steady (s : State) : Steady s (decodeDone s) := by
  unfold decodeDone
  exact .after (setRawc_steady ..) (.after (setFlag_steady ..) (setFlag_steady ..))

theorem decodeBad_steady (reason : Nat) (s : State) : Steady s (decodeBad reason s) := by
  unfold decodeBad
  exact .after (rawcFlag_steady ..) (.after (decodeDone_steady ..) (.after (setFld_steady ..)
      (.after (setFlag_steady ..) (setFlag_steady ..))))

theorem decodeWrite_steady (d : DecodeJob) (o : Nat) (bs : List Byte) (s : State) : Steady s (decodeWrite d o bs s) := by
  unfold decodeWrite
  exact writeDram_steady ..

theorem decodeGood_steady (d : DecodeJob) (i : CodedInfo) (s : State) : Steady s (decodeGood d i s) := by
  unfold decodeGood
  exact .after (decodeDone_steady ..) (.after (setFld_steady ..) (.after (setFld_steady ..) (.after (setFlag_steady ..)
      (.after (setFld_steady ..) (.after (setFlag_steady ..) (by
      refine .after (.foldl _ (fun _ _ => decodeWrite_steady ..) _ _) ?_
      exact decodeWrite_steady ..))))))

theorem execRawcCounterClear_answers (s : State) : Answers s (execRawcCounterClear s) := by
  unfold execRawcCounterClear
  exact .next (.after (setFld_steady ..) (.after (setFld_steady ..) (.after (setFld_steady ..) (busOk_steady ..))))

/-! ### Footlights (`View`) -/

theorem viewEvent_steady (n : Nat) (cls : EventClass) (inst : Nat) (s : State) : Steady s (viewEvent n cls inst s) := by
  unfold viewEvent
  exact postFlag_steady ..

theorem viewRebase_steady (s : State) : Steady s (viewRebase s) := by
  unfold viewRebase
  split
  · exact .refl _
  · exact setView_steady ..

theorem viewSend_steady (ps : List (Nat × List Byte)) (s : State) : Steady s (viewSend ps s) := by
  unfold viewSend
  exact setView_steady ..

theorem viewCmdGo_steady (ps : List (Nat × List Byte)) (s : State) : Steady s (viewCmdGo ps s) := by
  unfold viewCmdGo
  exact .ite (.refl _) (.after (setFlag_steady ..) (viewSend_steady ..))

theorem viewPush_steady (s : State) : Steady s (viewPush s) := by
  unfold viewPush
  refine .ite ?_ ?_
  · exact viewCmdGo_steady ..
  · exact .after (wrapFld_steady ..) (.after (setFlag_steady ..) (.after (setView_steady ..) (by
        refine .after (.foldl _ (fun _ _ => poolChange_steady ..) _ _) ?_
        exact .after (viewSend_steady ..) (by
              refine .after (.foldl _ (fun _ _ => poisonWarn_steady ..) _ _) ?_
              exact .ite (.after (orBit_steady ..) (viewCmdGo_steady ..)) (viewCmdGo_steady ..)))))

theorem viewSleepIn_steady (s : State) : Steady s (viewSleepIn s) := by
  unfold viewSleepIn
  exact setView_steady ..

theorem execViewPushComplete_answers (s : State) : Answers s (execViewPushComplete s) := by
  unfold execViewPushComplete
  split
  · exact .next (.refl _)
  · exact .next (.ite (.after (viewSleepIn_steady ..) (by
        refine .after (.foldl _ (fun _ _ => poolChange_steady ..) _ _) ?_
        exact .after (setFlag_steady ..) (setView_steady ..))) (.after (viewCmdGo_steady ..) (by
        refine .after (.foldl _ (fun _ _ => poolChange_steady ..) _ _) ?_
        exact .after (setFlag_steady ..) (setView_steady ..))))

theorem shadowWrite_steady (off : Nat) (v : Word) (s : State) : Steady s (shadowWrite off v s) := by
  unfold shadowWrite
  exact .ite (.refl _) (setView_steady ..)

theorem layersHold_steady (new : List (Option Nat)) (s : State) : Steady s (layersHold new s) := by
  unfold layersHold
  refine .after (.foldl _ (fun _ _ => poolChange_steady ..) _ _) ?_
  exact .after (setView_steady ..) (by
      refine .after (.foldl _ (fun _ _ => poolChange_steady ..) _ _) ?_
      exact .refl _)

theorem viewApply_steady (s : State) : Steady s (viewApply s) := by
  unfold viewApply
  refine .ite ?_ ?_
  · exact .refl _
  · refine .after (.foldl _ (fun _ _ => .ite (.refl _) (.after (viewDirty_steady ..) (viewDirty_steady ..))) _ _) ?_
    exact by
        refine .after (.foldl _ (fun _ _ => .ite (viewEvent_steady ..) (.ite (postOther_steady ..) (.refl _))) _ _) ?_
        exact .after (layersHold_steady ..) (.after (setView_steady ..) (.after (setView_steady ..) (by
              refine .after (.foldl _ (fun _ _ => setWord_steady ..) _ _) ?_
              exact .refl _)))

theorem execViewApply_answers (s : State) : Answers s (execViewApply s) := by
  unfold execViewApply
  exact .next (.ite (viewApply_steady ..) (.refl _))

theorem execViewTeEdge_answers (s : State) : Answers s (execViewTeEdge s) := by
  unfold execViewTeEdge
  refine .ite ?_ ?_
  · exact .next (.refl _)
  · refine .ite ?_ ?_
    · exact .next (.ite (.after (addFld_steady ..) (.ite
          (.after (viewApply_steady ..) (setView_steady ..)) (setView_steady ..))) (.ite
          (.after (viewApply_steady ..) (setView_steady ..)) (setView_steady ..)))
    · refine .ite ?_ ?_
      · exact .next (.after (addFld_steady ..) (.ite (.after (setView_steady ..) (.after (setFlag_steady ..) (.ite
            (.after (viewApply_steady ..) (setView_steady ..)) (setView_steady ..)))) (.ite
            (.after (viewApply_steady ..) (setView_steady ..)) (setView_steady ..))))
      · exact .next (.after (viewPush_steady ..) (.ite (.after (setView_steady ..) (.after (setFlag_steady ..) (.ite
            (.after (viewApply_steady ..) (setView_steady ..)) (setView_steady ..)))) (.ite
            (.after (viewApply_steady ..) (setView_steady ..)) (setView_steady ..))))

theorem execViewTeTimeout_answers (s : State) : Answers s (execViewTeTimeout s) := by
  unfold execViewTeTimeout
  refine .ite ?_ ?_
  · exact .next (.refl _)
  · exact .next (.after (viewPush_steady ..) (.ite (setView_steady ..) (.after (viewEvent_steady ..)
        (.after (setFlag_steady ..) (setView_steady ..)))))

theorem setPanel_steady (st : Nat) (step : PanelStep) (s : State) : Steady s (setPanel st step s) := by
  unfold setPanel
  exact .after (setView_steady ..) (setFld_steady ..)

theorem viewStart_steady (s : State) : Steady s (viewStart s) := by
  unfold viewStart
  exact .after (setPanel_steady ..) (setView_steady ..)

theorem viewStop_steady (again : Bool) (s : State) : Steady s (viewStop again s) := by
  unfold viewStop
  exact .ite (.after (setPanel_steady ..) (setView_steady ..)) (.after (viewSleepIn_steady ..)
      (.after (setPanel_steady ..) (setView_steady ..)))

theorem viewRun_steady (s : State) : Steady s (viewRun s) := by
  unfold viewRun
  exact .after (viewCmdGo_steady ..) (.after (setPanel_steady ..) (setView_steady ..))

theorem execViewStartStep_answers (s : State) : Answers s (execViewStartStep s) := by
  unfold execViewStartStep
  refine .ite ?_ ?_
  · exact .next (.refl _)
  · refine .ite ?_ ?_
    · split
      · exact .next (.after (setPanel_steady ..) (setView_steady ..))
      · exact .next (.after (setPanel_steady ..) (viewSend_steady ..))
      · exact .next (.after (setPanel_steady ..) (setView_steady ..))
      · exact .next (.refl _)
    · refine .ite ?_ ?_
      · exact .next (.ite (.after (viewStart_steady ..) (.after (setPanel_steady ..) (setView_steady ..)))
            (.after (setPanel_steady ..) (setView_steady ..)))
      · exact .next (.refl _)

theorem execViewScriptEntry_answers (s : State) : Answers s (execViewScriptEntry s) := by
  unfold execViewScriptEntry
  refine .ite ?_ ?_
  · exact .next (.refl _)
  · refine .ite ?_ ?_
    · exact .next (viewRun_steady ..)
    · refine .ite ?_ ?_
      · exact .next (.after (viewRun_steady ..) (orBit_steady ..))
      · refine .ite ?_ ?_
        · exact .next (.refl _)
        · exact .next (.after (setView_steady ..) (viewSend_steady ..))

theorem execViewLineTimedWrite_answers (addr : BitVec 40) (value : Word) (s : State) :
    Answers s (execViewLineTimedWrite addr value s) := by
  unfold execViewLineTimedWrite
  refine .ite ?_ ?_
  · exact .next (busOk_steady ..)
  · exact .next (.ite (.after (shadowWrite_steady ..) (busOk_steady ..)) (.after (overlayWrite_steady ..)
        (.after (shadowWrite_steady ..) (busOk_steady ..))))

theorem execViewDirtyWhWrite_answers (value : Word) (s : State) : Answers s (execViewDirtyWhWrite value s) := by
  unfold execViewDirtyWhWrite
  refine .ite ?_ ?_
  · exact .next (busOk_steady ..)
  · exact .next (.after (viewDirty_steady ..) (busOk_steady ..))

theorem execViewCmd_answers (value : Word) (s : State) : Answers s (execViewCmd value s) := by
  unfold execViewCmd
  refine .ite ?_ ?_
  · exact .next (busOk_steady ..)
  · refine .ite ?_ ?_
    · exact .next (.after (postKind_steady ..) (busOk_steady ..))
    · exact .next (.after (viewCmdGo_steady ..) (.after (setFlag_steady ..) (.after (setFld_steady ..)
          (.after (setFld_steady ..) (.after (setFlag_steady ..) (busOk_steady ..))))))

theorem execViewPoolAlloc_answers (s : State) : Answers s (execViewPoolAlloc s) := by
  unfold execViewPoolAlloc
  refine .ite ?_ ?_
  · exact .next (busOk_steady ..)
  · split
    · exact .next (.after (busOk_steady ..) ((poolTake_steady ‹_›)))
    · exact .next (busOk_steady ..)

theorem execViewPoolFree_answers (value : Word) (s : State) : Answers s (execViewPoolFree value s) := by
  unfold execViewPoolFree
  refine .ite ?_ ?_
  · exact .next (busOk_steady ..)
  · split
    · refine .ite ?_ ?_
      · exact .next (.ite (.after (poolDropOwner_steady ..) (busOk_steady ..)) (.after (addFld_steady ..)
            (.after (poolDropOwner_steady ..) (busOk_steady ..))))
      · exact .next (.after (viewEvent_steady ..) (.after (addFld_steady ..) (busOk_steady ..)))
    · exact .next (.after (viewEvent_steady ..) (.after (addFld_steady ..) (busOk_steady ..)))

theorem poolLayOut_steady (s : State) : Steady s (poolLayOut s) := by
  unfold poolLayOut
  exact .ite (.after (poolShow_steady ..) (setPool_steady ..)) (.ite (.after (viewEvent_steady ..)
      (.after (poolShow_steady ..) (setPool_steady ..))) (.after (poolShow_steady ..) (setPool_steady ..)))

theorem viewEnds_steady (s : State) : Steady s (viewEnds s) := by
  unfold viewEnds
  exact .ite (viewStop_steady ..) (setView_steady ..)

theorem viewGo_steady (s : State) : Steady s (viewGo s) := by
  unfold viewGo
  exact .after (viewEnds_steady ..) (.of_core rfl rfl)

theorem viewCuePoint_steady (link : Bool) (pool : Bool) (s : State) : Steady s (viewCuePoint link pool s) := by
  unfold viewCuePoint
  exact .ite (.refl _) (.ite (.ite (.after (viewStart_steady ..) (.ite (poolLayOut_steady ..) (.refl _)))
      (.ite (poolLayOut_steady ..) (.refl _))) (.ite (.after (setView_steady ..) (.ite (poolLayOut_steady ..) (.refl _)))
      (.ite (.after (viewStop_steady ..) (.ite (poolLayOut_steady ..) (.refl _))) (.ite (.after (viewStop_steady ..)
      (.ite (poolLayOut_steady ..) (.refl _))) (.ite (poolLayOut_steady ..) (.refl _))))))

theorem viewUp_steady (s : State) : Steady s (viewUp s) := by
  unfold viewUp
  exact .after (poolLayOut_steady ..) (setView_steady ..)

/-! ### What each block does at a cue point with the configuration that it brings (`BlockCue`) -/

theorem warnActsAs_steady (c : CueChange) (s : State) (e : Fld × (Nat → Bool) × Nat × Nat) : Steady s (warnActsAs c s e) := by
  unfold warnActsAs
  exact .ite (postActsAs_steady ..) (.refl _)

theorem warnSel_steady (c : CueChange) (s : State) (n : Nat) : Steady s (warnSel c s n) := by
  unfold warnSel
  exact .ite (postActsAs_steady ..) (.refl _)

theorem warnSpeed_steady (c : CueChange) (s : State) (k : Nat) : Steady s (warnSpeed c s k) := by
  unfold warnSpeed
  exact .ite (postActsAs_steady ..) (.refl _)

theorem warnFields_steady (c : CueChange) (s : State) : Steady s (warnFields c s) := by
  unfold warnFields
  refine .after (.foldl _ (fun _ _ => warnSpeed_steady ..) _ _) ?_
  exact by
      refine .after (.foldl _ (fun _ _ => warnSel_steady ..) _ _) ?_
      exact by
            refine .after (.foldl _ (fun _ _ => warnActsAs_steady ..) _ _) ?_
            exact .refl _

theorem ingestConfig_steady (s : State) (p : Nat) : Steady s (ingestConfig s p) := by
  unfold ingestConfig
  exact modPort_steady ..

theorem ingestShow_steady (s : State) (p : Nat) : Steady s (ingestShow s p) := by
  unfold ingestShow
  exact .ite (.after (setFlag_steady ..) (setFlag_steady ..)) (.refl _)

theorem gangWarn_steady (c : CueChange) (o : State) (s : State) (g : List Nat) : Steady s (gangWarn c o s g) := by
  unfold gangWarn
  exact .ite (postOther_steady ..) (.refl _)

theorem ingestWarn_steady (c : CueChange) (o : State) (s : State) (p : Nat) : Steady s (ingestWarn c o s p) := by
  unfold ingestWarn
  refine .after (.foldl _ (fun _ _ => .ite (postKind_steady ..) (.refl _)) _ _) ?_
  exact .ite (postOther_steady ..) (.refl _)

theorem ingestCuePoint_steady (c : CueChange) (o : State) (s : State) : Steady s (ingestCuePoint c o s) := by
  unfold ingestCuePoint
  refine .after (.foldl _ (fun _ _ => .ite (spiStartScript_steady ..) (.refl _)) _ _) ?_
  exact by
      refine .after (.foldl _ (fun _ _ => .ite (setFld_steady ..) (.refl _)) _ _) ?_
      exact by
            refine .after (.foldl _ (fun _ _ => gangWarn_steady ..) _ _) ?_
            refine .after (.foldl _ (fun _ _ => ingestWarn_steady ..) _ _) ?_
            exact by
                  refine .after (.foldl _ (fun _ _ => ingestShow_steady ..) _ _) ?_
                  exact by
                        refine .after (.foldl _ (fun _ _ => ingestConfig_steady ..) _ _) ?_
                        exact .refl _

theorem resizeBufs_steady (s : State) (p : Nat) : Steady s (resizeBufs s p) := by
  unfold resizeBufs
  exact .ite (.refl _) (.after (creditReturn_steady ..) (modPipePort_steady ..))

theorem pipeConfig_steady (s : State) : Steady s (pipeConfig s) := by
  unfold pipeConfig
  refine .ite ?_ ?_
  · refine .after (showFree_steady ..) ?_
    refine .after (.foldl _ (fun _ _ => .after (resizeBufs_steady ..) (modPipePort_steady ..)) _ _) ?_
    exact .refl _
  · exact .refl _

theorem pipeCuePoint_steady (c : CueChange) (o : State) (s : State) : Steady s (pipeCuePoint c o s) := by
  unfold pipeCuePoint
  refine .after (.foldl _ (fun _ _ => by
      refine .after (.foldl _ (fun _ _ => lagSkip_steady ..) _ _) ?_
      exact .refl _) _ _) ?_
  exact .after (pipeConfig_steady ..) (by
      refine .after (.foldl _ (fun _ _ => by
            refine .after (.foldl _ (fun _ _ => .ite (pipeFlag_steady ..) (.refl _)) _ _) ?_
            exact .refl _) _ _) ?_
      exact by
            refine .after (.foldl _ (fun _ _ => .ite (.refl _) (modPipePort_steady ..)) _ _) ?_
            exact .refl _)

theorem cellCuePoint_steady (c : CueChange) (o : State) (s : State) : Steady s (cellCuePoint c o s) := by
  unfold cellCuePoint
  refine .ite ?_ ?_
  · exact .after (setCell_steady ..) (.ite (.refl _) (.ite
        (.after (cellsRearm_steady ..) (setCell_steady ..)) (setCell_steady ..)))
  · exact .ite (.after (cellFlag_steady ..) (.ite (.after (postOther_steady ..) (.after (setFlag_steady ..)
        (.after (setFlag_steady ..) (.after (setCell_steady ..) (.ite (.refl _) (.ite
        (.after (cellsRearm_steady ..) (setCell_steady ..)) (setCell_steady ..))))))) (.after (setFlag_steady ..)
        (.after (setFlag_steady ..) (.after (setCell_steady ..) (.ite (.refl _) (.ite
        (.after (cellsRearm_steady ..) (setCell_steady ..)) (setCell_steady ..)))))))) (.ite (.after (postOther_steady ..)
        (.after (setFlag_steady ..) (.after (setFlag_steady ..) (.after (setCell_steady ..) (.ite (.refl _) (.ite
        (.after (cellsRearm_steady ..) (setCell_steady ..)) (setCell_steady ..))))))) (.after (setFlag_steady ..)
        (.after (setFlag_steady ..) (.after (setCell_steady ..) (.ite (.refl _) (.ite
        (.after (cellsRearm_steady ..) (setCell_steady ..)) (setCell_steady ..)))))))

theorem rebaseTerms_steady (s : State) : Steady s (rebaseTerms s) := by
  unfold rebaseTerms
  exact setLedger_steady ..

theorem partsJudge_steady (fresh : List Nat) (s : State) : Steady s (partsJudge fresh s) := by
  unfold partsJudge
  refine .after (.foldl _ (fun _ _ => .ite (.after (ledgerFlag_steady ..) (modPart_steady ..)) (modPart_steady ..)) _ _) ?_
  exact setLedger_steady ..

theorem partsApply_steady (ps : List Nat) (s : State) : Steady s (partsApply ps s) := by
  unfold partsApply
  refine .after (.foldl _ (fun _ _ => .after (modPart_steady ..) (overwriteOpen_steady ..)) _ _) ?_
  exact .refl _

theorem partsCuePoint_steady (c : CueChange) (s : State) : Steady s (partsCuePoint c s) := by
  unfold partsCuePoint
  exact .after (ledgerShow_steady ..) (.after (partsJudge_steady ..) (.after (setFlag_steady ..)
      (.after (setLedger_steady ..) (partsApply_steady ..))))

theorem pinsCuePoint_steady (s : State) : Steady s (pinsCuePoint s) := by
  unfold pinsCuePoint
  refine .after (.foldl _ (fun _ _ => .ite (.refl _) (.after (modPin_steady ..) (clrBit_steady ..))) _ _) ?_
  exact .refl _

theorem destWarn_steady (c : CueChange) (s : State) : Steady s (destWarn c s) := by
  unfold destWarn
  refine .after (.foldl _ (fun _ _ => .ite (postKind_steady ..) (.refl _)) _ _) ?_
  exact by
      refine .after (.foldl _ (fun _ _ => .ite (postKind_steady ..) (.refl _)) _ _) ?_
      exact .refl _

theorem ledgerCuePoint_steady (c : CueChange) (o : State) (s : State) : Steady s (ledgerCuePoint c o s) := by
  unfold ledgerCuePoint
  exact .after (setLedger_steady ..) (.after (partsCuePoint_steady ..) (.after (destWarn_steady ..) (.ite
      (.after (rebaseTerms_steady ..) (.ite (.after (pinsCuePoint_steady ..) (setLedger_steady ..)) (setLedger_steady ..)))
      (.ite (.after (pinsCuePoint_steady ..) (setLedger_steady ..)) (setLedger_steady ..)))))

theorem hashCuePoint_steady (c : CueChange) (o : State) (s : State) : Steady s (hashCuePoint c o s) := by
  unfold hashCuePoint
  exact .ite (.after (hashFlag_steady ..) (setHash_steady ..)) (setHash_steady ..)

theorem rawcCuePoint_steady (c : CueChange) (s : State) : Steady s (rawcCuePoint c s) := by
  unfold rawcCuePoint
  refine .ite ?_ ?_
  · refine .after (.foldl _ (fun _ _ => .ite (postFlag_steady ..) (.refl _)) _ _) ?_
    exact .refl _
  · exact .refl _

theorem blocksCuePoint_steady (c : CueChange) (o : State) (s : State) : Steady s (blocksCuePoint c o s) := by
  unfold blocksCuePoint
  exact .after (viewCuePoint_steady ..) (.after (motionCuePoint_steady ..) (.after (klinkCuePoint_steady ..)
      (.after (schedCuePoint_steady ..) (.after (netCuePoint_steady ..) (.ite (.after (dramCuePoint_steady ..)
      (.after (hashCuePoint_steady ..) (.after (heveCuePoint_steady ..) (.after (heveCuePoint_steady ..)
      (.after (rawcCuePoint_steady ..) (.after (ledgerCuePoint_steady ..) (.after (cellCuePoint_steady ..)
      (.after (pipeCuePoint_steady ..) (.after (ingestCuePoint_steady ..) (warnFields_steady ..))))))))))
      (.after (hashCuePoint_steady ..) (.after (heveCuePoint_steady ..) (.after (heveCuePoint_steady ..)
      (.after (rawcCuePoint_steady ..) (.after (ledgerCuePoint_steady ..) (.after (cellCuePoint_steady ..)
      (.after (pipeCuePoint_steady ..) (.after (ingestCuePoint_steady ..) (warnFields_steady ..))))))))))))))

theorem domainUp_steady (d : Nat) (s : State) : Steady s (domainUp d s) := by
  unfold domainUp
  extract_lets s1
  have h1 : Steady s s1 := orBit_steady ..
  have h2 : Steady s1 { s1 with scratch := [], scratchLost := some s1.free, free := s1.free + 1 } :=
    ⟨rfl, rfl, rfl, fun ⟨hr, _, hm, hd, hn⟩ => ⟨hr, rfl, hm, hd, hn⟩⟩
  refine .ite (h2.after h1) ?_
  refine .ite (.after (ingestShow_steady ..) h1) <| .ite (.after (pipeConfig_steady ..) h1) <|
    .ite (.after (beginSegment_steady ..) h1) <| .ite (.ite (.after (setMagState_steady ..) h1) h1) <|
    .ite (.ite (.after (pairRoles_steady ..) h1) h1) <| .ite (.ite (.after (netCuePoint_steady ..) h1) h1) <|
    .ite (.after (viewUp_steady ..) h1) <| .ite ?_ h1
  exact .after (rebaseTerms_steady ..) (.after (motionCuePoint_steady ..) (.after (motionUp_steady ..) h1))

theorem domainOnAt_steady (d : Nat) (s : State) : Steady s (domainOnAt d s) := by
  unfold domainOnAt
  exact .ite (.refl _) (domainUp_steady ..)

theorem domainsUp_steady (ds : List Nat) (s : State) : Steady s (domainsUp ds s) := by
  unfold domainsUp
  refine .after (.foldl _ (fun _ _ => domainOnAt_steady ..) _ _) ?_
  exact .refl _

/-! ### The commands of the magazine ports (`Mag`) -/

theorem magStartMount_steady (k : Nat) (s : State) : Steady s (magStartMount k s) := by
  unfold magStartMount
  exact .after (setMagState_steady ..) (.after (setFlag_steady ..) (.after (magGone_steady ..)
      (.after (modMag_steady ..) (lanesStop_steady ..))))

theorem execMagPresent_answers (port : Fin 2) (inserted : Option Magazine) (s : State) :
    Answers s (execMagPresent port inserted s) := by
  unfold execMagPresent
  refine .ite ?_ ?_
  · exact .next ((by
        split
        · exact modMag_steady ..
        · exact .refl _))
  · refine .ite ?_ ?_
    · exact .next (.after (magStartMount_steady ..) ((by
          split
          · exact modMag_steady ..
          · exact .refl _)))
    · exact .next ((by
          split
          · exact modMag_steady ..
          · exact .refl _))

theorem trainAttempt_steady (k : Nat) (n : Nat) (s : State) : Steady s (trainAttempt k n s) := by
  unfold trainAttempt
  refine .after (.foldl _ (fun _ _ => .after (setFlag_steady ..) (modLane_steady ..)) _ _) ?_
  exact modMag_steady ..

theorem execMagTrainingStart_answers (port : Fin 2) (s : State) : Answers s (execMagTrainingStart port s) := by
  unfold execMagTrainingStart
  refine .ite ?_ ?_
  · exact .next (trainAttempt_steady ..)
  · exact .next (.refl _)

theorem trainFailed_steady (k : Nat) (s : State) : Steady s (trainFailed k s) := by
  unfold trainFailed
  exact .ite (trainAttempt_steady ..) (magFail_steady ..)

theorem execMagTrainTimeout_answers (port : Fin 2) (s : State) : Answers s (execMagTrainTimeout port s) := by
  unfold execMagTrainTimeout
  refine .ite ?_ ?_
  · exact .next (trainFailed_steady ..)
  · exact .next (.refl _)

theorem execMagLinkUp_answers (port : Fin 2) (gen : Fin 4) (width : Fin 9) (both : Bool) (s : State) :
    Answers s (execMagLinkUp port gen width both s) := by
  unfold execMagLinkUp
  refine .ite ?_ ?_
  · exact .next (.refl _)
  · refine .ite ?_ ?_
    · exact .next (.ite (.refl _) (trainFailed_steady ..))
    · exact .next (.after (setFlag_steady ..) (.after (setFld_steady ..) (.after (setFld_steady ..) (by
          refine .after (.foldl _ (fun _ _ => .after (laneLocked_steady ..) (laneStart_steady ..)) _ _) ?_
          exact .after (modMag_steady ..) (.after (modMag_steady ..) (setMagState_steady ..))))))

theorem mountFail_steady (k : Nat) (steps : Nat) (s : State) : Steady s (mountFail k steps s) := by
  unfold mountFail
  exact .after (magEvent_steady ..) (.after (setMagState_steady ..) (modMag_steady ..))

theorem recoverTake_steady (k : Nat) (slot : Nat) (s : State) : Steady s (recoverTake k slot s) := by
  unfold recoverTake
  exact .ite (.refl _) ((by
      split
      · exact .refl _
      · extract_lets
        split
        · exact .after (magEvent_steady ..) (modMag_steady ..)))

theorem mountReady_steady (k : Nat) (s : State) : Steady s (mountReady k s) := by
  unfold mountReady
  exact .after (smartUpdate_steady ..) (.after (magEvent_steady ..) (.after (modMag_steady ..) (setMagState_steady ..)))

theorem mountVolume_steady (k : Nat) (s : State) : Steady s (mountVolume k s) := by
  unfold mountVolume
  refine .ite ?_ ?_
  · exact .after (mountFail_steady ..) (.ite (.after (magEvent_steady ..) (setFld_steady ..)) (setFld_steady ..))
  · exact .ite (.after (mountReady_steady ..) (by
        refine .after (.foldl _ (fun _ _ => recoverTake_steady ..) _ _) ?_
        exact (by
              split
              · exact .after (modMag_steady ..) (.ite (.after (magEvent_steady ..) (setFld_steady ..)) (setFld_steady ..))
              · exact .after (newVolume_steady ..) (.ite
                    (.after (magEvent_steady ..) (setFld_steady ..)) (setFld_steady ..))))) (.after (modMag_steady ..) (by
        refine .after (.foldl _ (fun _ _ => recoverTake_steady ..) _ _) ?_
        exact (by
              split
              · exact .after (modMag_steady ..) (.ite (.after (magEvent_steady ..) (setFld_steady ..)) (setFld_steady ..))
              · exact .after (newVolume_steady ..) (.ite (.after (magEvent_steady ..) (setFld_steady ..)) (setFld_steady ..)))))

theorem execMagMountComplete_answers (port : Fin 2) (failed : Option (Fin 7)) (s : State) :
    Answers s (execMagMountComplete port failed s) := by
  unfold execMagMountComplete
  refine .ite ?_ ?_
  · exact .next (.refl _)
  · extract_lets
    split
    · exact .next (.after (mountFail_steady ..) (.after (setFlag_steady ..) (setFld_steady ..)))
    · refine .ite ?_ ?_
      · exact .next (.after (setFlag_steady ..) (setFld_steady ..))
      · refine .ite ?_ ?_
        · exact .next (.after (mountReady_steady ..) (.after (setFlag_steady ..) (setFld_steady ..)))
        · refine .ite ?_ ?_
          · exact .next (.after (mountFail_steady ..) (.after (setFlag_steady ..) (setFld_steady ..)))
          · exact .next (.after (mountVolume_steady ..) (.after (setFlag_steady ..) (setFld_steady ..)))

theorem execMagRemoval_answers (port : Fin 2) (s : State) : Answers s (execMagRemoval port s) := by
  unfold execMagRemoval
  exact .next (.after (magShow_steady ..) (.ite (.after (modMag_steady ..) (.ite (.refl _)
      (.after (magMark_steady ..) (magFail_steady ..)))) (.after (setMagState_steady ..) (.after (setFlag_steady ..)
      (.after (magGone_steady ..) (.after (modMag_steady ..) (.ite (.refl _)
      (.after (magMark_steady ..) (magFail_steady ..)))))))))

theorem execControllerFatalStatus_answers (port : Fin 2) (s : State) : Answers s (execControllerFatalStatus port s) := by
  unfold execControllerFatalStatus
  refine .ite ?_ ?_
  · exact .next (magFail_steady ..)
  · exact .next (.refl _)

theorem skipAu_steady (k : Nat) (v : Nat) (s : State) : Steady s (skipAu k v s) := by
  unfold skipAu
  split
  · exact .ite (.after (magFail_steady ..) (.after (modMag_steady ..) (magMark_steady ..))) (.after (magPump_steady ..)
        (.after (modMag_steady ..) (.after (modMag_steady ..) (magMark_steady ..))))
  · exact .refl _

theorem recordWritten_steady (k : Nat) (s : State) : Steady s (recordWritten k s) := by
  unfold recordWritten
  exact modMag_steady ..

theorem magAdvance_steady (k : Nat) (s : State) : Steady s (magAdvance k s) := by
  unfold magAdvance
  exact .ite (.after (finishClose_steady ..) (.after (magShow_steady ..) (modMag_steady ..))) (.after (magPump_steady ..)
      (.after (magShow_steady ..) (modMag_steady ..)))

theorem writeCompleted_steady (k : Nat) (c : NvmeCmd) (s : State) : Steady s (writeCompleted k c s) := by
  unfold writeCompleted
  split
  · exact .ite (.after (stageBuffers_steady ..) (modMag_steady ..)) (.ite (.after (magAdvance_steady ..)
        (.after (writeEntry_steady ..) (.after (recordWritten_steady ..)
        (.after (stageBuffers_steady ..) (modMag_steady ..))))) (.after (recordWritten_steady ..)
        (.after (stageBuffers_steady ..) (modMag_steady ..))))
  · exact .refl _

theorem setSmart_steady (k : Nat) (c : NvmeCmd) (d : SmartData) (s : State) : Steady s (setSmart k c d s) := by
  unfold setSmart
  exact modMag_steady ..

theorem commandDone_steady (k : Nat) (c : NvmeCmd) (smart : SmartData) (s : State) : Steady s (commandDone k c smart s) := by
  unfold commandDone
  split
  · exact writeCompleted_steady ..
  · exact writeCompleted_steady ..
  · exact modMag_steady ..
  · exact .after (smartUpdate_steady ..) (setSmart_steady ..)
  · exact .after (smartUpdate_steady ..) (setSmart_steady ..)
  · exact .refl _
  · exact .refl _
  · exact .refl _
  · exact .refl _
  · exact .refl _
  · exact .refl _
  · exact .refl _
  · exact .refl _

theorem commandFailed_steady (k : Nat) (i : Nat) (c : NvmeCmd) (media : Bool) (s : State) :
    Steady s (commandFailed k i c media s) := by
  unfold commandFailed
  exact .ite (modMag_steady ..) (.ite (skipAu_steady ..) (magFail_steady ..))

theorem execNvmeCompletion_answers (port : Fin 2) (cmd : Nat) (status : NvmeStatus) (smart : SmartData) (s : State) :
    Answers s (execNvmeCompletion port cmd status smart s) := by
  unfold execNvmeCompletion
  extract_lets
  split
  · exact .next (.refl _)
  · refine .ite ?_ ?_
    · exact .next (.refl _)
    · split
      · exact .next (.ite (.after (stageStep_steady ..) (.after (commandDone_steady ..) (modMag_steady ..)))
            (.after (commandDone_steady ..) (modMag_steady ..)))
      · exact .next (.after (commandFailed_steady ..) (addFld_steady ..))
      · exact .next (.after (commandFailed_steady ..) (addFld_steady ..))

theorem execNvmeCommandTimeout_answers (port : Fin 2) (cmd : Nat) (s : State) :
    Answers s (execNvmeCommandTimeout port cmd s) := by
  unfold execNvmeCommandTimeout
  split
  · exact .next (.refl _)
  · refine .ite ?_ ?_
    · exact .next (.refl _)
    · exact .next (.after (commandFailed_steady ..) (addFld_steady ..))

theorem execMagSmartPoll_answers (port : Fin 2) (s : State) : Answers s (execMagSmartPoll port s) := by
  unfold execMagSmartPoll
  refine .ite ?_ ?_
  · exact .next (.refl _)
  · exact .next (modMag_steady ..)

theorem execMagFrameWriteComplete_answers (port : Fin 2) (s : State) : Answers s (execMagFrameWriteComplete port s) := by
  unfold execMagFrameWriteComplete
  split
  · split
    · refine .ite ?_ ?_
      · exact .next (.after (magSettle_steady ..) (magAdvance_steady ..))
      · exact .next (.refl _)
    · exact .next (.refl _)
  · exact .next (.refl _)

theorem execMagTakeClose_answers (s : State) : Answers s (execMagTakeClose s) := by
  unfold execMagTakeClose
  refine .ite ?_ ?_
  · exact .next (busOk_steady ..)
  · refine .ite ?_ ?_
    · exact .next (.after (beginClose_steady ..) (.after (beginClose_steady ..) (busOk_steady ..)))
    · exact .next (.after (postRefused_steady ..) (busOk_steady ..))

theorem execMagTakeCloseTimeout_answers (s : State) : Answers s (execMagTakeCloseTimeout s) := by
  unfold execMagTakeCloseTimeout
  refine .next ?_
  refine .after (.foldl _ (fun _ _ => .ite (.after (beginClose_steady ..) (magEvent_steady ..)) (.refl _)) _ _) ?_
  exact .refl _

theorem magOpRefused_steady (k : Nat) (s : State) : Steady s (magOpRefused k s) := by
  unfold magOpRefused
  exact .after (postKind_steady ..) (setFlag_steady ..)

theorem magOpWrite_steady (k : Nat) (op : Nat) (type : Nat) (s : State) : Steady s (magOpWrite k op type s) := by
  unfold magOpWrite
  exact .after (setFld_steady ..) (.after (setFld_steady ..) (busOk_steady ..))

theorem magOpStart_steady (k : Nat) (o : MagOp) (s : State) : Steady s (magOpStart k o s) := by
  unfold magOpStart
  exact .after (modMag_steady ..) (setFlag_steady ..)

theorem execRead_answers (port : Fin 2) (type : Fin 16) (s : State) : Answers s (execRead port type s) := by
  unfold execRead
  refine .ite ?_ ?_
  · exact .next (busOk_steady ..)
  · refine .ite ?_ ?_
    · exact .next (.after (magOpRefused_steady ..) (magOpWrite_steady ..))
    · exact .next (.after (modMag_steady ..) (.after (magOpStart_steady ..) (magOpWrite_steady ..)))

theorem execAppend_answers (port : Fin 2) (type : Fin 16) (s : State) : Answers s (execAppend port type s) := by
  unfold execAppend
  refine .ite ?_ ?_
  · exact .next (busOk_steady ..)
  · refine .ite ?_ ?_
    · exact .next (.after (magOpRefused_steady ..) (magOpWrite_steady ..))
    · exact .next (.after (magPump_steady ..) (.after (magEnqueue_steady ..) (.after (magOpStart_steady ..)
          (.after (poisonWarn_steady ..) (magOpWrite_steady ..)))))

theorem execErase_answers (port : Fin 2) (type : Fin 16) (s : State) : Answers s (execErase port type s) := by
  unfold execErase
  refine .ite ?_ ?_
  · exact .next (busOk_steady ..)
  · refine .ite ?_ ?_
    · exact .next (.after (magOpRefused_steady ..) (magOpWrite_steady ..))
    · refine .ite ?_ ?_
      · exact .next (.after (privRefused_steady ..) (.after (setFlag_steady ..) (magOpWrite_steady ..)))
      · exact .next (.after (magShow_steady ..) (.after (magOpStart_steady ..) (.after (setMagState_steady ..)
            (.after (modMag_steady ..) (magOpWrite_steady ..)))))

theorem execMount_answers (port : Fin 2) (type : Fin 16) (s : State) : Answers s (execMount port type s) := by
  unfold execMount
  refine .ite ?_ ?_
  · exact .next (busOk_steady ..)
  · refine .ite ?_ ?_
    · exact .next (.after (magOpRefused_steady ..) (magOpWrite_steady ..))
    · exact .next (.after (magOpStart_steady ..) (.ite (.after (magStartMount_steady ..) (magOpWrite_steady ..))
          (.after (setMagState_steady ..) (magOpWrite_steady ..))))

theorem execEject_answers (port : Fin 2) (type : Fin 16) (s : State) : Answers s (execEject port type s) := by
  unfold execEject
  refine .ite ?_ ?_
  · exact .next (busOk_steady ..)
  · refine .ite ?_ ?_
    · exact .next (.after (magOpRefused_steady ..) (magOpWrite_steady ..))
    · exact .next (.after (modMag_steady ..) (.after (magOpStart_steady ..) (magOpWrite_steady ..)))

theorem magOff_steady (k : Nat) (s : State) : Steady s (magOff k s) := by
  unfold magOff
  exact .after (magShow_steady ..) (.after (setMagState_steady ..) (.after (magGone_steady ..)
      (.after (modMag_steady ..) (lanesStop_steady ..))))

theorem magOpEffect_steady (k : Nat) (o : MagOp) (s : State) : Steady s (magOpEffect k o s) := by
  unfold magOpEffect
  exact .ite (.after (endMagOp_steady ..) (writeDram_steady ..)) (.ite (.after (endMagOp_steady ..) (magAdvance_steady ..))
      (.ite (.after (endMagOp_steady ..) (.after (privRecord_steady ..)
      (.after (smartUpdate_steady ..) (setMagState_steady ..)))) (.ite (endMagOp_steady ..) (.after (endMagOp_steady ..)
      (.after (modMag_steady ..) (magOff_steady ..))))))

theorem execMagOpComplete_answers (port : Fin 2) (s : State) : Answers s (execMagOpComplete port s) := by
  unfold execMagOpComplete
  extract_lets
  split
  · exact .next (.refl _)
  · refine .ite ?_ ?_
    · exact .next (magOpEffect_steady ..)
    · exact .next (.refl _)

/-! ### The serial lanes (`Lane`) -/

theorem execLaneLock_answers (lane : Fin 26) (s : State) : Answers s (execLaneLock lane s) := by
  unfold execLaneLock
  refine .ite ?_ ?_
  · exact .next (laneLocked_steady ..)
  · exact .next (.refl _)

theorem pcieRecover_steady (l : Nat) (relocked : Nat) (s : State) : Steady s (pcieRecover l relocked s) := by
  unfold pcieRecover
  extract_lets
  split
  · exact magFail_steady ..
  · exact .after (setFld_steady ..) (by
          refine .after (.foldl _ (fun _ _ => .ite (.ite (.refl _) (laneLocked_steady ..)) (laneRetire_steady ..)) _ _) ?_
          exact by
                refine .after (.foldl _ (fun _ _ => laneSends_steady ..) _ _) ?_
                exact .refl _)

theorem execLaneLockLost_answers (lane : Fin 26) (relocked : BitVec 8) (s : State) :
    Answers s (execLaneLockLost lane relocked s) := by
  unfold execLaneLockLost
  refine .ite ?_ ?_
  · exact .next (.refl _)
  · refine .ite ?_ ?_
    · exact .next (laneLost_steady ..)
    · refine .ite ?_ ?_
      · exact .next (.after (pcieRecover_steady ..) (laneLost_steady ..))
      · refine .ite ?_ ?_
        · exact .next (.after (kLaneLost_steady ..) (laneLost_steady ..))
        · exact .next (.after (netLost_steady ..) (laneLost_steady ..))

theorem execLaneNoLockTimeout_answers (lane : Fin 26) (s : State) : Answers s (execLaneNoLockTimeout lane s) := by
  unfold execLaneNoLockTimeout
  extract_lets
  split
  · exact .next (.refl _)
  · refine .ite ?_ ?_
    · exact .next (.after (laneFlag_steady ..) (modLane_steady ..))
    · exact .next (.refl _)

theorem execLaneSleepEntry_answers (lane : Fin 26) (s : State) : Answers s (execLaneSleepEntry lane s) := by
  unfold execLaneSleepEntry
  refine .ite ?_ ?_
  · refine .next ?_
    refine .after (.foldl _ (fun _ _ => .after (setFlag_steady ..) (modLane_steady ..)) _ _) ?_
    exact .refl _
  · exact .next (.refl _)

theorem execLaneRxSleep_answers (lane : Fin 26) (s : State) : Answers s (execLaneRxSleep lane s) := by
  unfold execLaneRxSleep
  refine .ite ?_ ?_
  · exact .next (setFlag_steady ..)
  · exact .next (.refl _)

theorem laneWakes_steady (l : Nat) (s : State) : Steady s (laneWakes l s) := by
  unfold laneWakes
  exact .ite (.after (kPump_steady ..) (.after (modKPort_steady ..) (by
      refine .after (.foldl _ (fun _ _ => .after (setFlag_steady ..) (modLane_steady ..)) _ _) ?_
      exact .refl _))) (by
      refine .after (.foldl _ (fun _ _ => .after (setFlag_steady ..) (modLane_steady ..)) _ _) ?_
      exact .refl _)

theorem execLaneWake_answers (lane : Fin 26) (s : State) : Answers s (execLaneWake lane s) := by
  unfold execLaneWake
  refine .ite ?_ ?_
  · exact .next (.refl _)
  · refine .ite ?_ ?_
    · exact .next (laneWakes_steady ..)
    · refine .next ?_
      refine .after (.foldl _ (fun _ _ => modLane_steady ..) _ _) ?_
      exact .refl _

theorem execLaneWakeHoldEnd_answers (lane : Fin 26) (s : State) : Answers s (execLaneWakeHoldEnd lane s) := by
  unfold execLaneWakeHoldEnd
  refine .ite ?_ ?_
  · exact .next (laneWakes_steady ..)
  · exact .next (.refl _)

theorem execSignalDetect_answers (lane : Fin 26) (s : State) : Answers s (execSignalDetect lane s) := by
  unfold execSignalDetect
  refine .ite ?_ ?_
  · exact .next (.refl _)
  · refine .ite ?_ ?_
    · exact .next (setFlag_steady ..)
    · exact .next (.after (setFlag_steady ..) (.after (modLane_steady ..) (setFlag_steady ..)))

theorem execLaneWakeFail_answers (lane : Fin 26) (s : State) : Answers s (execLaneWakeFail lane s) := by
  unfold execLaneWakeFail
  extract_lets
  split
  · exact .next (.refl _)
  · refine .ite ?_ ?_
    · exact .next (.after (kLaneLost_steady ..) (.after (laneLost_steady ..) (.after (setFlag_steady ..) (modLane_steady ..))))
    · exact .next (.refl _)

theorem loopEnd_steady (l : Nat) (s : State) : Steady s (loopEnd l s) := by
  unfold loopEnd
  exact .ite (.refl _) (.ite (.after (laneStart_steady ..) (.ite (.ite
      (.after (magFail_steady ..) (setFld_steady ..)) (setFld_steady ..)) (.ite (.ite
      (.after (kDown_steady ..) (setFld_steady ..)) (setFld_steady ..)) (.after (modNet_steady ..)
      (.after (netLost_steady ..) (setFld_steady ..)))))) (.ite (.ite
      (.after (magFail_steady ..) (setFld_steady ..)) (setFld_steady ..)) (.ite (.ite
      (.after (kDown_steady ..) (setFld_steady ..)) (setFld_steady ..)) (.after (modNet_steady ..)
      (.after (netLost_steady ..) (setFld_steady ..))))))

theorem loopsEnd_steady (s : State) : Steady s (loopsEnd s) := by
  unfold loopsEnd
  refine .after (.foldl _ (fun _ _ => .ite (.refl _) (.after (setFld_steady ..) (loopEnd_steady ..))) _ _) ?_
  exact .refl _

theorem execLaneLoopWrite_answers (lane : Fin 26) (value : Word) (s : State) : Answers s (execLaneLoopWrite lane value s) := by
  unfold execLaneLoopWrite
  refine .ite ?_ ?_
  · exact .next (busOk_steady ..)
  · refine .ite ?_ ?_
    · exact .next (.after (postKind_steady ..) (busOk_steady ..))
    · refine .ite ?_ ?_
      · exact .next (.after (loopEnd_steady ..) (.ite (.after (postActsAs_steady ..) (.after (setFld_steady ..)
            (.after (setFld_steady ..) (.after (setFld_steady ..) (.ite (busOk_steady ..)
            (.after (setFlag_steady ..) (busOk_steady ..))))))) (.after (setFld_steady ..) (.after (setFld_steady ..)
            (.after (setFld_steady ..) (.ite (busOk_steady ..) (.after (setFlag_steady ..) (busOk_steady ..))))))))
      · exact .next (.after (setFld_steady ..) (.ite (.after (postActsAs_steady ..) (.after (setFld_steady ..)
            (.after (setFld_steady ..) (.after (setFld_steady ..) (.ite (busOk_steady ..)
            (.after (setFlag_steady ..) (busOk_steady ..))))))) (.after (setFld_steady ..) (.after (setFld_steady ..)
            (.after (setFld_steady ..) (.ite (busOk_steady ..) (.after (setFlag_steady ..) (busOk_steady ..))))))))

theorem execLanePrbsClear_answers (lane : Fin 26) (s : State) : Answers s (execLanePrbsClear lane s) := by
  unfold execLanePrbsClear
  refine .ite ?_ ?_
  · exact .next (busOk_steady ..)
  · exact .next (.after (setFld_steady ..) (.after (setFlag_steady ..) (busOk_steady ..)))

theorem prbsInterval_steady (l : Nat) (errors : Nat) (synced : Bool) (s : State) :
    Steady s (prbsInterval l errors synced s) := by
  unfold prbsInterval
  exact .ite (.refl _) (.ite (.after (addFld_steady ..) (setFlag_steady ..)) (.after (setFlag_steady ..)
      (.after (addFld_steady ..) (setFlag_steady ..))))

theorem execLaneFomInterval_answers (lane : Fin 26) (fom : Fin 256) (sufficient : Bool) (lastOk : Bool) (synced : Bool)
    (errors : Nat) (s : State) : Answers s (execLaneFomInterval lane fom sufficient lastOk synced errors s) := by
  unfold execLaneFomInterval
  refine .ite ?_ ?_
  · exact .next (.refl _)
  · refine .ite ?_ ?_
    · exact .next (prbsInterval_steady ..)
    · refine .ite ?_ ?_
      · exact .next (.after (setFlag_steady ..) (.after (prbsInterval_steady ..)
            (.after (setFlag_steady ..) (setFld_steady ..))))
      · refine .ite ?_ ?_
        · exact .next (.after (laneFlag_steady ..) (.after (addFld_steady ..) (.after (modLane_steady ..)
              (.after (laneReturn_steady ..) (.after (setFlag_steady ..) (.after (prbsInterval_steady ..)
              (.after (setFlag_steady ..) (setFld_steady ..))))))))
        · exact .next (.after (laneShow_steady ..) (.after (modLane_steady ..) (.after (setFlag_steady ..)
              (.after (prbsInterval_steady ..) (.after (setFlag_steady ..) (setFld_steady ..))))))

theorem execPcieEqPresetTrial_answers (lane : Fin 26) (rate : Fin 3) (fom : Fin 256) (s : State) :
    Answers s (execPcieEqPresetTrial lane rate fom s) := by
  unfold execPcieEqPresetTrial
  refine .ite ?_ ?_
  · exact .next (.refl _)
  · refine .ite ?_ ?_
    · exact .next (.after (modLane_steady ..) (.ite (setFlag_steady ..) (.refl _)))
    · refine .ite ?_ ?_
      · exact .next (.after (modLane_steady ..) (.ite (setFlag_steady ..) (.refl _)))
      · exact .next (.after (laneFlag_steady ..) (.after (setFlag_steady ..) (.after (modLane_steady ..)
            (.ite (setFlag_steady ..) (.refl _)))))

theorem execLaneCounterClear_answers (s : State) : Answers s (execLaneCounterClear s) := by
  unfold execLaneCounterClear
  refine .next ?_
  refine .after (.foldl _ (fun _ _ => .after (setFld_steady ..) (setFld_steady ..)) _ _) ?_
  exact busOk_steady ..

/-! ### Entering a mode (`ModeCore`) -/

theorem setRails_steady (ds : List Nat) (s : State) : Steady s (setRails ds s) := by
  unfold setRails
  exact .after (setFld_steady ..) (setFld_steady ..)

theorem raiseRails_steady (up : List RailRec) (old : Nat) (off : Nat) (ports : Bool) (s : State) :
    Steady s (raiseRails up old off ports s) := by
  unfold raiseRails
  exact .after (withPower_steady ..) (by
      refine .after (.foldl _ (fun _ _ => orBit_steady ..) _ _) ?_
      exact .refl _)

theorem railsReady_steady (ds : List Nat) (s : State) : Steady s (railsReady ds s).2 := by
  unfold railsReady
  extract_lets up waiting
  clear_value waiting
  split
  · exact raiseRails_steady ..
  · split
    · split
      · exact setPower_steady ..
      · exact .refl _
    · exact .refl _

theorem recordXfer_steady (src : Nat) (dst : Nat) (start : Nat) (s : State) : Steady s (recordXfer src dst start s) := by
  unfold recordXfer
  exact .after (setFlag_steady ..) (.after (setFld_steady ..) (.after (setFld_steady ..) (setFld_steady ..)))

theorem linksDown_steady (ds : List Nat) (s : State) : Steady s (linksDown ds s) := by
  unfold linksDown
  exact .ite (.after (netLost_steady ..) (.after (netLost_steady ..) (.ite (.after (kOff_steady ..) (kOff_steady ..))
      (.refl _)))) (.ite (.after (kOff_steady ..) (kOff_steady ..)) (.refl _))

theorem powerOff_steady (ds : List Nat) (s : State) : Steady s (powerOff ds s) := by
  unfold powerOff
  exact .after (domainsOff_steady ..) (linksDown_steady ..)

theorem goDark_steady (cause : DarkCause) (s : State) : Steady s (goDark cause s) := by
  unfold goDark
  exact .after (darkHeld_steady ..) (linksDown_steady ..)

theorem switchDomains_steady (ds : List Nat) (s : State) : Steady s (switchDomains ds s) := by
  unfold switchDomains
  exact .after (domainsUp_steady ..) (.after (setRails_steady ..) (powerOff_steady ..))

theorem companyPower_steady (m : Nat) (s : State) : Steady s (companyPower m s) := by
  unfold companyPower
  exact .ite (.of_core rfl rfl) (.ite (.of_core rfl rfl) (.refl _))

theorem enterMode_steady (m : Nat) (mask : Nat) (held : Bool) (s : State) : Steady s (enterMode m mask held s) := by
  unfold enterMode
  exact .ite (.after (netMidnight_steady ..) (.ite (.after (withMem_steady ..) (.after (setFlag_steady ..)
      (.after (withPower_steady ..) (.after (domainsUp_steady ..) (.after (setRails_steady ..) (.after (setFlag_steady ..)
      (.after (setFld_steady ..) (.after (powerOff_steady ..) (.after (companyPower_steady ..) (loopsEnd_steady ..))))))))))
      (.after (setFlag_steady ..) (.after (withPower_steady ..) (.after (domainsUp_steady ..) (.after (setRails_steady ..)
      (.after (setFlag_steady ..) (.after (setFld_steady ..) (.after (powerOff_steady ..)
      (.after (companyPower_steady ..) (loopsEnd_steady ..))))))))))) (.ite (.after (netWake_steady ..) (.ite
      (.after (withMem_steady ..) (.after (setFlag_steady ..) (.after (withPower_steady ..) (.after (domainsUp_steady ..)
      (.after (setRails_steady ..) (.after (setFlag_steady ..) (.after (setFld_steady ..) (.after (powerOff_steady ..)
      (.after (companyPower_steady ..) (loopsEnd_steady ..)))))))))) (.after (setFlag_steady ..)
      (.after (withPower_steady ..) (.after (domainsUp_steady ..) (.after (setRails_steady ..) (.after (setFlag_steady ..)
      (.after (setFld_steady ..) (.after (powerOff_steady ..) (.after (companyPower_steady ..) (loopsEnd_steady ..)))))))))))
      (.ite (.after (withMem_steady ..) (.after (setFlag_steady ..) (.after (withPower_steady ..)
      (.after (domainsUp_steady ..) (.after (setRails_steady ..) (.after (setFlag_steady ..) (.after (setFld_steady ..)
      (.after (powerOff_steady ..) (.after (companyPower_steady ..) (loopsEnd_steady ..)))))))))) (.after (setFlag_steady ..)
      (.after (withPower_steady ..) (.after (domainsUp_steady ..) (.after (setRails_steady ..) (.after (setFlag_steady ..)
      (.after (setFld_steady ..) (.after (powerOff_steady ..) (.after (companyPower_steady ..) (loopsEnd_steady ..)))))))))))

/-! ### The cue point (`CuePoint`) -/

theorem setCue_steady (c : CueState) (s : State) : Steady s (setCue c s) := by
  unfold setCue
  exact .of_core rfl rfl

theorem applyImage_steady (img : CommitImage) (s : State) : Steady s (applyImage img s).2 := by
  unfold applyImage
  exact .pair (.ite (.after (setFlag_steady ..) (by
      refine .after (.foldl _ (fun _ _ => shadowWrite_steady ..) _ _) ?_
      exact by
            refine .after (.foldl _ (fun _ _ => setWord_steady ..) _ _) ?_
            exact .ite (viewRebase_steady ..) (.refl _))) (by
      refine .after (.foldl _ (fun _ _ => shadowWrite_steady ..) _ _) ?_
      exact by
            refine .after (.foldl _ (fun _ _ => setWord_steady ..) _ _) ?_
            exact .ite (viewRebase_steady ..) (.refl _)))

theorem swapTables_steady (img : CommitImage) (s : State) : Steady s (swapTables img s) := by
  unfold swapTables
  exact setCue_steady ..

theorem releasePorts_steady (img : CommitImage) (s : State) : Steady s (releasePorts img s) := by
  unfold releasePorts
  exact .ite (.after (domainsUp_steady ..) (.after (setRails_steady ..) (.after (setFlag_steady ..) (.ite
      (.refl _) (raiseRails_steady ..))))) (.refl _)

theorem captureCue_steady (frame : Nat) (s : State) : Steady s (captureCue frame s) := by
  unfold captureCue
  exact .after (setFld64_steady ..) (.after (setFld_steady ..) (.after (setFld_steady ..) (wrapFld_steady ..)))

theorem cuePoint_steady (synthetic : Bool) (frame : State → Nat) (img : CommitImage) (s : State) :
    Steady s (cuePoint synthetic frame img s) := by
  unfold cuePoint
  extract_lets
  split
  · exact .after (blocksCuePoint_steady ..) (.after (releasePorts_steady ..) (.ite (.after (postFlag_steady ..)
        (.after (captureCue_steady ..) (.after (setCue_steady ..) (.after (swapTables_steady ..)
        (.snd (applyImage_steady ..) ‹_›))))) (.after (captureCue_steady ..) (.after (setCue_steady ..)
        (.after (swapTables_steady ..) (.snd (applyImage_steady ..) ‹_›))))))

theorem cueLate_steady (s : State) : Steady s (cueLate s) := by
  unfold cueLate
  exact .ite (.refl _) (.after (postFlag_steady ..) (.after (setCue_steady ..) (addFld_steady ..)))

theorem reference_steady (frame : State → Nat) (s : State) : Steady s (reference frame s) := by
  unfold reference
  split
  · exact .ite (.refl _) (.ite (cuePoint_steady ..) (cueLate_steady ..))
  · exact .refl _

theorem frameReference_steady (p : Nat) (s : State) : Steady s (frameReference p s) := by
  unfold frameReference
  exact .ite (reference_steady ..) (.refl _)

theorem execFrameStart_answers (port : Fin 4) (vc : Fin 16) (number : BitVec 16) (corrected : Bool) (s : State) :
    Answers s (execFrameStart port vc number corrected s) := by
  unfold execFrameStart
  exact .next (.after (placeAfterStarts_steady ..) (frameStart_steady (fun _ => frameReference_steady ..)))

theorem execScheduleTick_answers (s : State) : Answers s (execScheduleTick s) := by
  unfold execScheduleTick
  refine .ite ?_ ?_
  · exact .next (.refl _)
  · extract_lets
    split
    · exact .next (.ite (.after (cuePoint_steady ..) (.after (setClock_steady rfl) (wrapFld_steady ..)))
          (.after (setClock_steady rfl) (wrapFld_steady ..)))
    · exact .next (.ite (.after (reference_steady ..) (.after (setClock_steady rfl) (wrapFld_steady ..)))
          (.after (setClock_steady rfl) (wrapFld_steady ..)))

theorem execCueRefTimeout_answers (s : State) : Answers s (execCueRefTimeout s) := by
  unfold execCueRefTimeout
  split
  · refine .ite ?_ ?_
    · exact .next (.refl _)
    · refine .ite ?_ ?_
      · exact .next (setCue_steady ..)
      · exact .next (cuePoint_steady ..)
  · exact .next (.refl _)

theorem admitImage_steady (img : CommitImage) (m : Nat) (s : State) : Steady s (admitImage img m s).2 := by
  unfold admitImage
  exact admission_steady ..

theorem armCommit_steady (img : CommitImage) (s : State) : Steady s (armCommit img s) := by
  unfold armCommit
  exact .ite (.after (postActsAs_steady ..) (setCue_steady ..)) (setCue_steady ..)

theorem armFirst_steady (img : CommitImage) (s : State) : Steady s (armFirst img s) := by
  unfold armFirst
  extract_lets
  split
  · exact .ite (.snd (railsReady_steady ..) ‹_›) ((by
          split
          · exact .after (armCommit_steady ..) (.after (recordXfer_steady ..) (.after (enterMode_steady ..) (.ite (.after
                (.snd (admitImage_steady ..) ‹_›) (.snd (railsReady_steady ..) ‹_›)) (.after (refuseMode_steady ..) (.after
                (.snd (admitImage_steady ..) ‹_›) (.snd (railsReady_steady ..) ‹_›))))))))

theorem execCommitArmed_answers (s : State) : Answers s (execCommitArmed s) := by
  unfold execCommitArmed
  split
  · refine .ite ?_ ?_
    · exact .next (.refl _)
    · refine .ite ?_ ?_
      · exact .next (armCommit_steady ..)
      · refine .ite ?_ ?_
        · exact .next (armFirst_steady ..)
        · refine .ite ?_ ?_
          · split
            · refine .ite ?_ ?_
              · exact .next (.after (armCommit_steady ..) (.snd (admitImage_steady ..) ‹_›))
              · exact .next (.after (setCue_steady ..) (.snd (admitImage_steady ..) ‹_›))
          · exact .next (armCommit_steady ..)
  · exact .next (.refl _)

theorem execCueCommit_answers (s : State) : Answers s (execCueCommit s) := by
  unfold execCueCommit
  exact .next (.after (acceptCommit_steady ..) (busOk_steady ..))

theorem playbackStart_steady (d : DecodeJob) (i : CodedInfo) (s : State) : Steady s (playbackStart d i s) := by
  unfold playbackStart
  exact .after (offerFrame_steady ..) (.ite (reference_steady ..) (.refl _))

theorem execDecodeComplete_answers (s : State) : Answers s (execDecodeComplete s) := by
  unfold execDecodeComplete
  split
  · exact .next (.refl _)
  · extract_lets
    split
    · exact .next (.after (decodeBad_steady ..) (poisonWarn_steady ..))
    · exact .next (.ite (.after (playbackStart_steady ..) (.after (decodeGood_steady ..) (poisonWarn_steady ..)))
          (.after (decodeGood_steady ..) (poisonWarn_steady ..)))

/-! ### Transitions between modes (`Modes`) -/

theorem commitMode_steady (m : Nat) (passed : Bool) (s : State) : Steady s (commitMode m passed s) := by
  unfold commitMode
  exact .ite (.after (setCue_steady ..) (.ite (.refl _) (addFld_steady ..))) (.after (armCommit_steady ..)
      (.after (setPending_steady ..) (.ite (.refl _) (addFld_steady ..))))

theorem completeEntry_steady (m : Nat) (mask : Nat) (held : Bool) (passed : Bool) (s : State) :
    Steady s (completeEntry m mask held passed s) := by
  unfold completeEntry
  exact .ite (.after (openTakes_steady ..) (.after (commitMode_steady ..) (.after (enterMode_steady ..) (.ite
      (.after (abortPending_steady ..) (.ite (endAllRanges_steady ..) (.refl _))) (.ite (endAllRanges_steady ..)
      (.refl _)))))) (.after (commitMode_steady ..) (.after (enterMode_steady ..) (.ite (.after (abortPending_steady ..)
      (.ite (endAllRanges_steady ..) (.refl _))) (.ite (endAllRanges_steady ..) (.refl _)))))

theorem setXfer_steady (t : Option Transition) (s : State) : Steady s (setXfer t s) := by
  unfold setXfer
  exact .after (withPower_steady ..) (.after (setFlag_steady ..) (setFlag_steady ..))

theorem beginTransition_steady (t : Transition) (s : State) : Steady s (beginTransition t s) := by
  unfold beginTransition
  exact .ite (.after (viewEnds_steady ..) (.after (setXfer_steady ..) (abortSession_steady ..)))
      (.after (setXfer_steady ..) (abortSession_steady ..))

theorem enduranceCheck_steady (img : CommitImage) (s : State) : Steady s (enduranceCheck img s).2 := by
  unfold enduranceCheck
  refine .pair ?_
  refine .after (.foldl _ (fun _ _ => magMark_steady ..) _ _) ?_
  exact .refl _

theorem entryChecks_steady (m : Nat) (s : State) : Steady s (entryChecks m s).2 := by
  unfold entryChecks
  extract_lets img
  have h : Steady s (if 2 ≤ m ∧ m ≤ 5 then admitImage img m s else (true, s)).2 := by
    split
    · exact admitImage_steady ..
    · exact .refl _
  split
  next ok t e =>
  have ht := h.snd e
  split
  · exact ht
  · split
    · split
      next fit u e =>
      exact .after (.snd (enduranceCheck_steady ..) e) ht
    · exact ht

theorem execModeRequest_answers (mode : Mode) (s : State) : Answers s (execModeRequest mode s) := by
  unfold execModeRequest
  extract_lets
  split
  · exact .next (refuseMode_steady ..)
  · split
    · exact .next (.after (refuseMode_steady ..) (.snd (entryChecks_steady ..) ‹_›))
    · exact .next (.after (beginTransition_steady ..) (.ite (.after (privRecord_steady ..)
          (.snd (entryChecks_steady ..) ‹_›)) (.snd (entryChecks_steady ..) ‹_›)))

theorem execDrainEnd_answers (s : State) : Answers s (execDrainEnd s) := by
  unfold execDrainEnd
  split
  · refine .ite ?_ ?_
    · exact .next (.after (endAllRanges_steady ..) (setXfer_steady ..))
    · exact .next (.refl _)
  · exact .next (.refl _)

theorem linkFirst_steady (t : Transition) (s : State) : Steady s (linkFirst t s) := by
  unfold linkFirst
  exact .ite (linkAll_steady ..) (.refl _)

theorem finishTransition_steady (t : Transition) (s : State) : Steady s (finishTransition t s) := by
  unfold finishTransition
  exact .after (recordXfer_steady ..) (.after (setXfer_steady ..) (.after (completeEntry_steady ..)
      (.ite (sendLeaving_steady ..) (.refl _))))

theorem execTransitionComplete_answers (s : State) : Answers s (execTransitionComplete s) := by
  unfold execTransitionComplete
  split
  · exact .next (.refl _)
  · refine .ite ?_ ?_
    · exact .next (.after (finishTransition_steady ..) (linkFirst_steady ..))
    · exact .next (linkFirst_steady ..)

theorem wakeTo_steady (m : Nat) (s : State) : Steady s (wakeTo m s) := by
  unfold wakeTo
  have h : Steady s (if m = 2 then admitImage (modeImage s m) m s else (true, s)).2 := by
    split
    · exact admitImage_steady ..
    · exact .refl _
  refine .ite (.refl _) ?_
  split
  next ok t e =>
  exact .after (beginTransition_steady ..) (.ite (h.snd e) (.after (refuseMode_steady ..) (h.snd e)))

theorem wakeUp_steady (m : Nat) (s : State) : Steady s (wakeUp m s) := by
  unfold wakeUp
  exact .ite (.refl _) (.after (wakeTo_steady ..) (orBit_steady ..))

theorem alarmFires_steady (s : State) : Steady s (alarmFires s) := by
  unfold alarmFires
  exact .ite (.after (wakeUp_steady ..) (.after (withCall_steady ..) (.after (orBit_steady ..)
      (.after (setFlag_steady ..) (setFlag_steady ..))))) (.after (withCall_steady ..) (.after (orBit_steady ..)
      (.after (setFlag_steady ..) (setFlag_steady ..))))

theorem execAlarmFire_answers (s : State) : Answers s (execAlarmFire s) := by
  unfold execAlarmFire
  refine .ite ?_ ?_
  · exact .next (alarmFires_steady ..)
  · exact .next (.refl _)

theorem execWakeFrame_answers (payload : List Byte) (s : State) : Answers s (execWakeFrame payload s) := by
  unfold execWakeFrame
  refine .ite ?_ ?_
  · exact .next (.refl _)
  · refine .ite ?_ ?_
    · exact .next (wakeUp_steady ..)
    · exact .next (.after (setFlag_steady ..) (.after (setFlag_steady ..) (.after (setFlag_steady ..)
          (.after (setFld_steady ..) (.after (setFld_steady ..) (setFld_steady ..))))))

theorem execTrigWakeEdge_answers (pin : Fin 8) (s : State) : Answers s (execTrigWakeEdge pin s) := by
  unfold execTrigWakeEdge
  refine .ite ?_ ?_
  · exact .next (wakeTo_steady ..)
  · exact .next (.refl _)

theorem safeLinked_steady (s : State) : Steady s (safeLinked s) := by
  unfold safeLinked
  exact linkAll_steady ..

theorem execSafeStatePortsClosed_answers (s : State) : Answers s (execSafeStatePortsClosed s) := by
  unfold execSafeStatePortsClosed
  refine .ite ?_ ?_
  · extract_lets
    split
    · refine .ite ?_ ?_
      · exact .next (.after (.snd (railsReady_steady ..) ‹_›) (.ite (.ite (safeLinked_steady ..)
            (.after (viewGo_steady ..) (safeLinked_steady ..))) (.refl _)))
      · exact .next (.after (startRestart_steady ..) (.after (recordXfer_steady ..) (.after (completeEntry_steady ..) (by
            refine .after (.foldl _ (fun _ _ => placeAll_steady ..) _ _) ?_
            exact .after (setLedger_steady ..) (.after (withCall_steady ..) (.after (.snd (railsReady_steady ..) ‹_›) (.ite
                (.ite (safeLinked_steady ..) (.after (viewGo_steady ..) (safeLinked_steady ..))) (.refl _))))))))
  · exact .next (.ite (.ite (safeLinked_steady ..) (.after (viewGo_steady ..) (safeLinked_steady ..))) (.refl _))

/-! ### The commands of the CUE block (`CueCmd`) -/

theorem cueOp_steady (op : Nat) (level : Nat) (slot : Nat) (s : State) : Steady s (cueOp op level slot s) := by
  unfold cueOp
  exact .after (doStackOp_steady ..) (busOk_steady ..)

theorem execPush_answers (slot : Fin 64) (s : State) : Answers s (execPush slot s) := by
  unfold execPush
  exact .next (cueOp_steady ..)

theorem execPop_answers (s : State) : Answers s (execPop s) := by
  unfold execPop
  exact .next (cueOp_steady ..)

theorem execReplace_answers (level : Fin 4) (slot : Fin 64) (s : State) : Answers s (execReplace level slot s) := by
  unfold execReplace
  exact .next (cueOp_steady ..)

theorem execClear_answers (s : State) : Answers s (execClear s) := by
  unfold execClear
  exact .next (cueOp_steady ..)

theorem execClearFw_answers (s : State) : Answers s (execClearFw s) := by
  unfold execClearFw
  exact .next (cueOp_steady ..)

theorem shadowedWrite_steady (off : Nat) (v : Word) (s : State) : Steady s (shadowedWrite off v s) := by
  unfold shadowedWrite
  exact .ite (.refl _) (.ite (shadowWrite_steady ..) (.after (overlayWrite_steady ..) (shadowWrite_steady ..)))

theorem execShadowWrite_answers (addr : BitVec 40) (value : Word) (s : State) : Answers s (execShadowWrite addr value s) := by
  unfold execShadowWrite
  exact .next (.after (shadowedWrite_steady ..) (busOk_steady ..))

theorem loadRefused_steady (s : State) : Steady s (loadRefused s) := by
  unfold loadRefused
  exact .after (postRefused_steady ..) (setFlag_steady ..)

theorem execCueLoad_answers (value : Word) (s : State) : Answers s (execCueLoad value s) := by
  unfold execCueLoad
  refine .ite ?_ ?_
  · exact .next (.ite (.after (setFlag_steady ..) (.after (setFld_steady ..) (busOk_steady ..)))
        (.after (setFld_steady ..) (busOk_steady ..)))
  · refine .ite ?_ ?_
    · exact .next (.after (postRefused_steady ..) (.ite (.after (setFlag_steady ..)
          (.after (setFld_steady ..) (busOk_steady ..))) (.after (setFld_steady ..) (busOk_steady ..))))
    · split
      · exact .next (.after (loadRefused_steady ..) (.ite (.after (setFlag_steady ..)
            (.after (setFld_steady ..) (busOk_steady ..))) (.after (setFld_steady ..) (busOk_steady ..))))
      · refine .ite ?_ ?_
        · exact .next (.after (loadRefused_steady ..) (.ite (.after (setFlag_steady ..)
              (.after (setFld_steady ..) (busOk_steady ..))) (.after (setFld_steady ..) (busOk_steady ..))))
        · exact .next (.after (setCue_steady ..) (.after (setFlag_steady ..) (.ite (.after (setFlag_steady ..)
              (.after (setFld_steady ..) (busOk_steady ..))) (.after (setFld_steady ..) (busOk_steady ..)))))

theorem cueInvalid_steady (slot : Nat) (off : Nat) (s : State) : Steady s (cueInvalid slot off s) := by
  unfold cueInvalid
  exact .after (postKind_steady ..) (setSlotValid_steady ..)

theorem takeCue_steady (slot : Nat) (bs : List Byte) (s : State) : Steady s (takeCue slot bs s).2 := by
  unfold takeCue
  split
  · exact .pair (cueInvalid_steady ..)
  · split
    · exact .pair (cueInvalid_steady ..)
    · exact .pair (.after (setSlotValid_steady ..) (setCue_steady ..))

theorem execCueLoadComplete_answers (s : State) : Answers s (execCueLoadComplete s) := by
  unfold execCueLoadComplete
  split
  · exact .next (.refl _)
  · extract_lets
    split
    · exact .next (.ite (.after (.snd (takeCue_steady ..) ‹_›) (.after (setCue_steady ..) (setFlag_steady ..)))
          (.after (setFlag_steady ..) (.after (.snd (takeCue_steady ..) ‹_›) (.after (setCue_steady ..) (setFlag_steady ..)))))

/-! ### Power, clocks and heat (`Power`) -/

theorem postTerminal_steady (f : Fld) (block : Nat) (inst : Nat) (cause : Nat) (s : State) :
    Steady s (postTerminal f block inst cause s) := by
  unfold postTerminal
  exact .after (postEvent_steady ..) (setFlag_steady ..)

theorem enterDark_steady (cause : DarkCause) (hold : Nat) (s : State) : Steady s (enterDark cause hold s) := by
  unfold enterDark
  exact .ite (.after (setPower_steady ..) (.after (closeTerminal_steady ..) (.after (holdover_steady ..)
      (.after (goDark_steady ..) (cutErase_steady ..))))) (.after (closeTerminal_steady ..)
      (.after (holdover_steady ..) (cutErase_steady ..)))

theorem pllClock_steady (s : State) : Steady s (pllClock s) := by
  unfold pllClock
  exact .after (setFlag_steady ..) (setFlag_steady ..)

theorem tryRestart_steady (s : State) : Steady s (tryRestart s) := by
  unfold tryRestart
  exact .ite (.after (warmReset_steady ..) (pllClock_steady ..)) (.refl _)

theorem execAonSupplyValid_answers (maddr : BitVec 3) (s : State) : Answers s (execAonSupplyValid maddr s) := by
  unfold execAonSupplyValid
  refine .ite ?_ ?_
  · exact .next (.refl _)
  · exact .nextLawful (.after (.ofSteady (orBit_steady ..)) (.after (.ofSteady (setFld_steady ..)) (coldReset_lawful ..)))

theorem execAonSupplyLost_answers (s : State) : Answers s (execAonSupplyLost s) := by
  unfold execAonSupplyLost
  exact .nextLawful (.after (.ofSteady (setPower_steady ..)) (coldReset_lawful ..))

theorem execResetRelease_answers (s : State) : Answers s (execResetRelease s) := by
  unfold execResetRelease
  refine .ite ?_ ?_
  · exact .next (.refl _)
  · exact .next (.after (setPower_steady ..) (.after (setFlag_steady ..) (.after (pllClock_steady ..)
        (.after (orBit_steady ..) (orBit_steady ..)))))

theorem execWarmRstAssert_answers (s : State) : Answers s (execWarmRstAssert s) := by
  unfold execWarmRstAssert
  refine .ite ?_ ?_
  · exact .next (.refl _)
  · refine .ite ?_ ?_
    · exact .next (.after (setPower_steady ..) (setFlag_steady ..))
    · exact .next (.after (setPower_steady ..) (.ite (.after (goDark_steady ..) (.after (sendLeaving_steady ..)
          (.after (setPower_steady ..) (setFlag_steady ..)))) (.after (setPower_steady ..) (setFlag_steady ..))))

theorem execWarmRstRelease_answers (s : State) : Answers s (execWarmRstRelease s) := by
  unfold execWarmRstRelease
  exact .next (.after (tryRestart_steady ..) (setPower_steady ..))

theorem execWarmResetCommand_answers (s : State) : Answers s (execWarmResetCommand s) := by
  unfold execWarmResetCommand
  refine .ite ?_ ?_
  · exact .next (.refl _)
  · exact .next (.after (tryRestart_steady ..) (.after (setPower_steady ..) (.ite (.after (goDark_steady ..)
        (.after (sendLeaving_steady ..) (setFlag_steady ..))) (.after (sendLeaving_steady ..) (setFlag_steady ..)))))

theorem railRevert_steady (r : Nat) (t : Transition) (s : State) : Steady s (railRevert r t s) := by
  unfold railRevert
  exact .after (postFlag_steady ..) (.after (orBit_steady ..) (.after (abandonTransition_steady ..)
      (.after (domainsUp_steady ..) (powerOff_steady ..))))

theorem riseFails_steady (r : Nat) (q : RailRise) (s : State) : Steady s (riseFails r q s) := by
  unfold riseFails
  exact .ite (.after (closeTerminal_steady ..) (.after (goDark_steady ..) (.after (postTerminal_steady ..)
      (.after (setPower_steady ..) (.after (orBit_steady ..) (.after (setFld_steady ..) (setFld_steady ..)))))))
      (.after (postFlag_steady ..) (.ite (.after (setFlag_steady ..) (.after (powerOff_steady ..)
      (.after (setPower_steady ..) (.after (orBit_steady ..) (.after (setFld_steady ..) (setFld_steady ..))))))
      (.after (setPower_steady ..) (.after (orBit_steady ..) (.after (setFld_steady ..) (setFld_steady ..))))))

theorem execRailPgTimeout_answers (rail : Fin 8) (s : State) : Answers s (execRailPgTimeout rail s) := by
  unfold execRailPgTimeout
  extract_lets
  split
  · exact .next (.refl _)
  · refine .ite ?_ ?_
    · exact .next (.refl _)
    · split
      · exact .next (riseFails_steady ..)
      · split
        · refine .ite ?_ ?_
          · exact .next (.refl _)
          · exact .next (.ite (.after (railRevert_steady ..) (linkFirst_steady ..)) (.refl _))
        · exact .next (.refl _)

theorem execRailLost_answers (rail : Fin 8) (s : State) : Answers s (execRailLost rail s) := by
  unfold execRailLost
  refine .ite ?_ ?_
  · exact .next (.refl _)
  · refine .ite ?_ ?_
    · exact .next (.after (postFlag_steady ..) (.after (setPower_steady ..) (.after (clrBit_steady ..) (orBit_steady ..))))
    · refine .ite ?_ ?_
      · exact .next (.after (tryRestart_steady ..) (.after (enterDark_steady ..) (.after (postTerminal_steady ..)
            (.after (clrBit_steady ..) (orBit_steady ..)))))
      · exact .next (.after (postFlag_steady ..) (.after (setRails_steady ..) (.after (spillSettled_steady ..)
            (.after (powerOff_steady ..) (.after (clrBit_steady ..) (orBit_steady ..))))))

theorem execSupplyLoss_answers (supply : Supply) (s : State) : Answers s (execSupplyLoss supply s) := by
  unfold execSupplyLoss
  refine .ite ?_ ?_
  · exact .next (.refl _)
  · exact .next (.after (enterDark_steady ..) (.after (setPower_steady ..) (.after (postTerminal_steady ..) (orBit_steady ..))))

theorem execSupplyRestored_answers (s : State) : Answers s (execSupplyRestored s) := by
  unfold execSupplyRestored
  exact .next (.after (tryRestart_steady ..) (setPower_steady ..))

theorem execRail0PgRestored_answers (s : State) : Answers s (execRail0PgRestored s) := by
  unfold execRail0PgRestored
  exact .next (.ite (.after (tryRestart_steady ..) (.after (programHeld_steady ..)
      (.after (setPower_steady ..) (orBit_steady ..)))) (.refl _))

theorem rcClock_steady (s : State) : Steady s (rcClock s) := by
  unfold rcClock
  exact .after (setFlag_steady ..) (setFlag_steady ..)

theorem refclkLoss_steady (cause : DarkCause) (inst : Nat) (event : Nat) (s : State) :
    Steady s (refclkLoss cause inst event s) := by
  unfold refclkLoss
  exact .after (enterDark_steady ..) (.after (postTerminal_steady ..) (rcClock_steady ..))

theorem refclkBack_steady (s : State) : Steady s (refclkBack s) := by
  unfold refclkBack
  exact .after (tryRestart_steady ..) (.after (pllClock_steady ..) (.after (setFlag_steady ..) (setFlag_steady ..)))

theorem execRefclkWindow_answers (cycles : Nat) (s : State) : Answers s (execRefclkWindow cycles s) := by
  unfold execRefclkWindow
  refine .ite ?_ ?_
  · exact .next (.refl _)
  · refine .ite ?_ ?_
    · refine .ite ?_ ?_
      · exact .next (.after (refclkLoss_steady ..) (.after (addFld_steady ..) (.after (setFlag_steady ..)
            (.after (setPower_steady ..) (setFld_steady ..)))))
      · refine .ite ?_ ?_
        · exact .next (.after (rcClock_steady ..) (.after (setPower_steady ..) (setFld_steady ..)))
        · exact .next (.after (setPower_steady ..) (setFld_steady ..))
    · refine .ite ?_ ?_
      · exact .next (.after (refclkBack_steady ..) (.after (setPower_steady ..) (setFld_steady ..)))
      · exact .next (.after (setPower_steady ..) (setFld_steady ..))

theorem execPllUnlock_answers (pll : Fin 7) (s : State) : Answers s (execPllUnlock pll s) := by
  unfold execPllUnlock
  refine .ite ?_ ?_
  · exact .next (.after (setPower_steady ..) (.after (addFld_steady ..) (setFlag_steady ..)))
  · exact .next (.refl _)

theorem execPllRelock_answers (pll : Fin 7) (s : State) : Answers s (execPllRelock pll s) := by
  unfold execPllRelock
  refine .ite ?_ ?_
  · exact .next (.after (postEvent_steady ..) (setPower_steady ..))
  · exact .next (.refl _)

theorem execPllRelockTimeout_answers (pll : Fin 7) (s : State) : Answers s (execPllRelockTimeout pll s) := by
  unfold execPllRelockTimeout
  refine .ite ?_ ?_
  · exact .next (.refl _)
  · refine .ite ?_ ?_
    · exact .next (.ite (.after (setPower_steady ..) (.after (setFlag_steady ..) (refclkLoss_steady ..)))
          (.after (setFlag_steady ..) (refclkLoss_steady ..)))
    · exact .next (.after (setPower_steady ..) (refclkLoss_steady ..))

theorem execPllFailureRestart_answers (s : State) : Answers s (execPllFailureRestart s) := by
  unfold execPllFailureRestart
  refine .ite ?_ ?_
  · exact .next (.after (tryRestart_steady ..) (setPower_steady ..))
  · exact .next (.refl _)

theorem siteFlag_steady (f : Fld) (event : Fld) (i : Nat) (on : Bool) (s : State) : Steady s (siteFlag f event i on s) := by
  unfold siteFlag
  exact .ite (.after (postFlag_steady ..) (setFlag_steady ..)) (setFlag_steady ..)

theorem siteShow_steady (i : Nat) (x : SiteSample) (s : State) : Steady s (siteShow i x s) := by
  unfold siteShow
  exact .after (siteFlag_steady ..) (.after (siteFlag_steady ..) (.after (siteFlag_steady ..) (setFld_steady ..)))

theorem thermRate_steady (hot : ℤ) (s : State) : Steady s (thermRate hot s) := by
  unfold thermRate
  exact .ite (.after (setPower_steady ..) (.ite (.refl _) (.after (setFlag_steady ..) (setFlag_steady ..)))) (.ite (.refl _)
      (.ite (setPower_steady ..) ((by
      split
      · exact setPower_steady ..
      · exact .ite (.after (setPower_steady ..) (setFlag_steady ..)) (.refl _)))))

theorem curtainBegin_steady (site : Nat) (s : State) : Steady s (curtainBegin site s) := by
  unfold curtainBegin
  exact .after (recordOrHold_steady ..) (.after (closeTerminal_steady ..) (.ite (.after (setPower_steady ..)
      (.after (goDark_steady ..) (.after (cutErase_steady ..) (.after (postTerminal_steady ..) (.ite
      (.after (setFlag_steady ..) (.after (setFlag_steady ..) (.after (addFld_steady ..) (.after (setFlag_steady ..)
      (.after (setPower_steady ..) (abandonTransition_steady ..)))))) (.after (addFld_steady ..) (.after (setFlag_steady ..)
      (.after (setPower_steady ..) (abandonTransition_steady ..))))))))) (.after (cutErase_steady ..)
      (.after (postTerminal_steady ..) (.ite (.after (setFlag_steady ..) (.after (setFlag_steady ..)
      (.after (addFld_steady ..) (.after (setFlag_steady ..) (.after (setPower_steady ..) (abandonTransition_steady ..))))))
      (.after (addFld_steady ..) (.after (setFlag_steady ..) (.after (setPower_steady ..) (abandonTransition_steady ..)))))))))

theorem thermCool_steady (hot : ℤ) (s : State) : Steady s (thermCool hot s) := by
  unfold thermCool
  exact .ite (.after (setPower_steady ..) (setFlag_steady ..)) (.ite (.refl _)
      (.after (setPower_steady ..) (setFlag_steady ..)))

theorem execThermalSample_answers (sites : Vector SiteSample 12) (s : State) : Answers s (execThermalSample sites s) := by
  unfold execThermalSample
  refine .ite ?_ ?_
  · exact .next (.refl _)
  · extract_lets
    split
    · exact .next (.after (alertUpdate_steady ..) (.ite (.after (thermCool_steady ..) (.after (thermRate_steady ..)
          (.after (setFld_steady ..) (.after (setFld_steady ..) (by
          refine .after (.foldl _ (fun _ _ => siteShow_steady ..) _ _) ?_
          exact .refl _))))) (.ite (.after (curtainBegin_steady ..) (.after (thermRate_steady ..) (.after (setFld_steady ..)
              (.after (setFld_steady ..) (by
          refine .after (.foldl _ (fun _ _ => siteShow_steady ..) _ _) ?_
          exact .refl _))))) (.after (thermRate_steady ..) (.after (setFld_steady ..) (.after (setFld_steady ..) (by
          refine .after (.foldl _ (fun _ _ => siteShow_steady ..) _ _) ?_
          exact .refl _)))))))

theorem curtainEnd_steady (s : State) : Steady s (curtainEnd s) := by
  unfold curtainEnd
  exact .after (tryRestart_steady ..) (.after (setFlag_steady ..) (.after (setFlag_steady ..)
      (.after (setFlag_steady ..) (setPower_steady ..))))

theorem execCurtainCoolComplete_answers (s : State) : Answers s (execCurtainCoolComplete s) := by
  unfold execCurtainCoolComplete
  split
  · exact .next (.refl _)
  · refine .ite ?_ ?_
    · exact .next (.refl _)
    · refine .ite ?_ ?_
      · exact .next (setPower_steady ..)
      · exact .next (curtainEnd_steady ..)

theorem execPresencePress_answers (s : State) : Answers s (execPresencePress s) := by
  unfold execPresencePress
  refine .ite ?_ ?_
  · exact .next (.refl _)
  · refine .ite ?_ ?_
    · exact .next (.ite (.after (curtainEnd_steady ..) (.after (setFlag_steady ..) (acceptPress_steady ..)))
          (.after (setFlag_steady ..) (acceptPress_steady ..)))
    · exact .next (acceptPress_steady ..)

/-! ### Dawn (`Dawn`) -/

theorem readJournal_steady (s : State) : Steady s (readJournal s) := by
  unfold readJournal
  exact .after (setFld_steady ..) (findPosition_steady ..)

theorem dawnLifecycle_steady (s : State) : Steady s (dawnLifecycle s) := by
  unfold dawnLifecycle
  exact .ite (.after (lifecycleRecord_steady ..) (.after (showTrust_steady ..)
      (.after (setService_steady ..) (setService_steady ..)))) (.ite (.after (lifecycleRecord_steady ..)
      (.after (showTrust_steady ..) (.after (setService_steady ..) (setService_steady ..)))) (.after (showTrust_steady ..)
      (.after (setService_steady ..) (setService_steady ..))))

theorem loadSheet_steady (n off : Nat) (b : List Byte) (ks : SheetKinds) (s : State) : Steady s (loadSheet n off b ks s).2 := by
  induction n generalizing off b ks s with
  | zero => exact .refl _
  | succ n ih =>
    unfold loadSheet
    extract_lets slot len ok s1 ks1
    have h1 : Steady s s1 := .ite (postKind_steady ..) (takeCue_steady ..)
    split
    · exact .refl _
    · split
      · exact .after (ih ..) h1
      · exact h1

theorem clearStores_steady (s : State) : Steady s (clearStores s) := by
  unfold clearStores
  exact .after (setCue_steady ..) (.after (setFld_steady ..) (setFld_steady ..))

theorem loadConfig_steady (x : Nat) (s : State) : Steady s (loadConfig x s).2 := by
  unfold loadConfig
  split
  · extract_lets
    split
    · exact .pair (.after (.snd (loadSheet_steady ..) ‹_›) (setCue_steady ..))
  · exact .refl _

theorem withSmSram_steady (m : Sparse 8) (s : State) (h : Memory.wf 0 m) : Steady s { s with smSram := m } :=
  ⟨rfl, rfl, rfl, fun ⟨hr, hs, _, hd, hn⟩ => ⟨hr, hs, h, hd, hn⟩⟩

theorem loadFirmware_steady (x : Nat) (s : State) : Steady s (loadFirmware x s) := by
  unfold loadFirmware
  exact .after (withSmSram_steady _ _ (writeList_wf rfl ..)) (writeScratch_steady ..)

theorem trySlot_steady (x : Nat) (s : State) : Steady s (trySlot x s).2 := by
  unfold trySlot
  extract_lets s1 s2
  have h1 : Steady s s1 := clearStores_steady ..
  have h2 : Steady s s2 := .after (loadFirmware_steady ..) h1
  clear_value s2
  split
  · exact h1
  split
  · exact h2
  split
  · exact h2
  extract_lets seeds short s3
  have h3 : Steady s s3 := .ite (.after (postKind_steady ..) h2) h2
  split
  · exact h3
  · exact .pair (.after (loadConfig_steady ..) h3)

theorem keepTables_steady (l : List (List Byte × List Byte)) (s : State) : Steady s (keepTables l s).2 := by
  induction l generalizing s with
  | nil => exact .refl _
  | cons e l ih =>
    obtain ⟨tag, t⟩ := e
    unfold keepTables
    split
    · exact .after (ih _) (postOther_steady ..)
    · split
      · exact .after (ih _) (postKind_steady ..)
      · exact ih _

theorem applyPortMap_steady (s : State) : Steady s (applyPortMap s) := by
  unfold applyPortMap
  refine .after (.foldl _ (fun _ _ => .ite (.refl _) (.ite (.ite (.refl _) (setCue_steady ..)) (postKind_steady ..))) _ _) ?_
  exact .refl _

theorem applyLanes_steady (t : List Byte) (s : State) : Steady s (applyLanes t s) := by
  unfold applyLanes
  refine .after (.foldl _ (fun _ _ => .ite (.after (withSerial_steady ..) (addFld_steady ..))
      (.after (postKind_steady ..) (addFld_steady ..))) _ _) ?_
  exact .refl _

theorem applyRails_steady (t : List Byte) (s : State) : Steady s (applyRails t s) := by
  unfold applyRails
  refine .after (.foldl _ (fun _ _ => (by
      extract_lets
      split
      · exact .ite (.after (postKind_steady ..) (setFlag_steady ..)) (setPower_steady ..)
      · exact .after (postKind_steady ..) (setFlag_steady ..))) _ _) ?_
  exact .refl _

theorem applyBoard_steady (board : List (List Byte × List Byte)) (s : State) : Steady s (applyBoard board s) := by
  unfold applyBoard
  split
  next ts t e =>
    have ht : Steady s t := .snd (keepTables_steady ..) e
    extract_lets b s1 with_
    have hw : ∀ tag f t, (∀ x u, Steady u (f x u)) → Steady t (with_ tag f t) := by
      intro tag f t h
      unfold with_
      split
      · exact h ..
      · exact .refl _
    have h1 : Steady s s1 := .after (applyPortMap_steady ..) (.after (withSys_steady ..) ht)
    exact .after (hw _ _ _ applyRails_steady) (.after (hw _ _ _ motionTable_steady) (.after (hw _ _ _ applyLanes_steady) h1))

theorem runImage_steady (x : Nat) (fallback : Bool) (s : State) : Steady s (runImage x fallback s) := by
  unfold runImage
  extract_lets s1 s2 co im
  have h2 : Steady s s2 :=
    .after (setFlag_steady ..) (.after (setFld_steady ..) (.after (setFlag_steady ..) (setFld_steady ..)))
  clear_value im co s2
  exact .after (.of_core (s := s2) rfl rfl) h2

theorem startCores_steady (s : State) : Steady s (startCores s) := by
  unfold startCores
  extract_lets ds s1
  have h1 : Steady s s1 := .after (domainsUp_steady ..) (setRails_steady ..)
  clear_value s1
  exact .after (.of_core (s := s1) rfl rfl) h1

theorem dawnEnd_steady (s : State) : Steady s (dawnEnd s) := by
  unfold dawnEnd
  split
  · exact .ite (.after (startCores_steady ..) (.snd (railsReady_steady ..) ‹_›)) (.snd (railsReady_steady ..) ‹_›)

theorem bootSlot_steady (x : Nat) (fallback : Bool) (bad : Nat) (board : List (List Byte × List Byte)) (s : State) :
    Steady s (bootSlot x fallback bad board s) := by
  unfold bootSlot
  exact .after (dawnEnd_steady ..) (.after (deviceRecord_steady ..) (.after (withHash_steady ..)
      (.after (applyBoard_steady ..) (runImage_steady ..))))

theorem bootFailed_steady (s : State) : Steady s (bootFailed s) := by
  unfold bootFailed
  exact .after (darkHeld_steady ..) (.after (deviceRecord_steady ..) (setFlag_steady ..))

theorem dawn_steady (s : State) : Steady s (dawn s) := by
  unfold dawn
  extract_lets s1 s2
  have h2 : Steady s s2 := .after (dawnLifecycle_steady ..) (.after (readJournal_steady ..) (domainsUp_steady ..))
  clear_value s2
  split
  next a b _ _ =>
    have ha := (trySlot_steady a s2).after h2
    generalize trySlot a s2 = x at ha ⊢
    obtain ⟨board, t⟩ := x
    cases board with
    | some board => exact .after (bootSlot_steady ..) ha
    | none =>
      have hb := (trySlot_steady b t).after ha
      dsimp only
      generalize trySlot b t = y at hb ⊢
      obtain ⟨board, u⟩ := y
      cases board with
      | some board => exact .after (bootSlot_steady ..) hb
      | none => exact .after (bootFailed_steady ..) hb
  · exact h2

theorem execDawn_answers (s : State) : Answers s (execDawn s) := by
  unfold execDawn
  refine .ite ?_ ?_
  · exact .next (.refl _)
  · refine .ite ?_ ?_
    · exact .next (.ite (.refl _) (dawn_steady ..))
    · exact .next (.ite (dawnEnd_steady ..) (.refl _))

/-! ### The H (`Hevd`) -/

theorem setHevd_steady (h : HevdState) (s : State) : Steady s (setHevd h s) := by
  unfold setHevd
  exact .of_core rfl rfl

theorem hevdFlag_steady (f : Fld) (cls : EventClass) (s : State) : Steady s (hevdFlag f cls s) := by
  unfold hevdFlag
  exact postFlag_steady ..

theorem hevdShow_steady (s : State) : Steady s (hevdShow s) := by
  unfold hevdShow
  exact .after (setFld_steady ..) (.after (setFlag_steady ..) (setFlag_steady ..))

theorem hevdResult_steady (flags : Nat) (buf : Nat) (s : State) : Steady s (hevdResult flags buf s) := by
  unfold hevdResult
  exact .after (setFld_steady ..) (.ite (writeDram_steady ..) (.refl _))

theorem hevdSkipBad_steady (n : Nat) (s : State) : Steady s (hevdSkipBad n s) := by
  induction n generalizing s with
  | zero => exact .refl _
  | succ n ih =>
    unfold hevdSkipBad
    exact .ite (.after (ih _) (.after (hevdResult_steady ..) (.after (setFlag_steady ..) (poisonWarn_steady ..)))) (.refl _)

theorem hevdNext_steady (s : State) : Steady s (hevdNext s) := by
  unfold hevdNext
  exact .after (hevdShow_steady ..) (.after (hevdSkipBad_steady ..) (setHevd_steady ..))

theorem execHevdInWrWrite_answers (value : Word) (s : State) : Answers s (execHevdInWrWrite value s) := by
  unfold execHevdInWrWrite
  refine .ite ?_ ?_
  · exact .next (busOk_steady ..)
  · refine .ite ?_ ?_
    · exact .next (.after (postKind_steady ..) (busOk_steady ..))
    · exact .next (.ite (.after (hevdNext_steady ..) (.after (setFld_steady ..) (busOk_steady ..)))
          (.after (hevdShow_steady ..) (.after (setFld_steady ..) (busOk_steady ..))))

theorem bumpOne_steady (s : State) : Steady s (bumpOne s) := by
  unfold bumpOne
  split
  · exact .refl _
  · exact .after (setHevd_steady ..) (setFlag_steady ..)

theorem bumpWhile_steady (n reorder latency : Nat) (s : State) : Steady s (bumpWhile n reorder latency s) := by
  induction n generalizing s with
  | zero => exact .refl _
  | succ n ih =>
    unfold bumpWhile
    exact .ite (.after (ih _) (bumpOne_steady _)) (.refl _)

theorem bumpFull_steady (n dpb : Nat) (s : State) : Steady s (bumpFull n dpb s) := by
  induction n generalizing s with
  | zero => exact .refl _
  | succ n ih =>
    unfold bumpFull
    exact .ite (.after (ih _) (bumpOne_steady _)) (.refl _)

theorem bumpBefore_steady (newSeq : Bool) (dropPrior : Bool) (reorder : Nat) (latency : Nat) (dpb : Nat) (refs : List Nat)
    (s : State) : Steady s (bumpBefore newSeq dropPrior reorder latency dpb refs s) := by
  unfold bumpBefore
  exact .ite (.after (bumpWhile_steady ..) (setHevd_steady ..)) (.after (bumpFull_steady ..)
      (.after (bumpWhile_steady ..) (setHevd_steady ..)))

theorem bumpAfter_steady (k : Nat) (poc : ℤ) (output : Bool) (reorder : Nat) (latency : Nat) (s : State) :
    Steady s (bumpAfter k poc output reorder latency s) := by
  unfold bumpAfter
  exact .after (bumpWhile_steady ..) (setHevd_steady ..)

theorem hevdGenerate_steady (plane : Nat) (depth : Nat) (s : State) (poc : ℤ) : Steady s (hevdGenerate plane depth s poc) := by
  unfold hevdGenerate
  split
  · exact .refl _
  · exact .after (setHevd_steady ..) (writeDram_steady ..)

theorem hevdRefReads_steady (plane : Nat) (refs : List Nat) (s : State) : Steady s (hevdRefReads plane refs s) := by
  unfold hevdRefReads
  refine .after (.foldl _ (fun _ _ => .ite (poisonWarn_steady ..) (.refl _)) _ _) ?_
  exact .refl _

theorem hevdStore_steady (at_ : Nat) (chroma : Nat) (depth : Nat) (ctb : Nat) (w : Nat) (h : Nat) (plane : Nat)
    (lost : List Nat) (ref : Option Nat) (hdr : List Byte) (samples : List Byte) (s : State) :
    Steady s (hevdStore at_ chroma depth ctb w h plane lost ref hdr samples s) := by
  unfold hevdStore
  refine .after (.foldl _ (fun _ _ => writePoisoned_steady ..) _ _) ?_
  exact .after (writeDram_steady ..) ((by
      split
      · exact .ite (.refl _) (poisonWarn_steady ..)
      · exact .refl _))

theorem hevdComplete_steady (abandoned : Bool) (au : AccessUnit) (s : State) : Steady s (hevdComplete abandoned au s) := by
  unfold hevdComplete
  refine .ite ?_ ?_
  · exact .refl _
  · extract_lets
    split
    · exact .after (hevdNext_steady ..) (.ite (.after (bumpWhile_steady ..) (.after (hevdResult_steady ..)
          (.after (setFlag_steady ..) (.after (poisonWarn_steady ..) (poisonWarn_steady ..)))))
          (.after (hevdResult_steady ..) (.after (setFlag_steady ..) (.after (poisonWarn_steady ..) (poisonWarn_steady ..)))))
    · exact .after (hevdNext_steady ..) (.ite (.after (bumpWhile_steady ..) (.after (hevdResult_steady ..)
          (.after (poisonWarn_steady ..) (poisonWarn_steady ..)))) (.after (hevdResult_steady ..)
          (.after (poisonWarn_steady ..) (poisonWarn_steady ..))))
    · refine .ite ?_ ?_
      · exact .after (hevdNext_steady ..) (.ite (.after (bumpWhile_steady ..) (.after (hevdResult_steady ..)
            (.after (setFlag_steady ..) (.after (poisonWarn_steady ..) (poisonWarn_steady ..)))))
            (.after (hevdResult_steady ..) (.after (setFlag_steady ..) (.after (poisonWarn_steady ..) (poisonWarn_steady ..)))))
      · extract_lets
        split
        · exact .after (hevdShow_steady ..) (.after (setHevd_steady ..) (by
              refine .after (.foldl _ (fun _ _ => hevdGenerate_steady ..) _ _) ?_
              exact .after (bumpBefore_steady ..) (.after (poisonWarn_steady ..) (poisonWarn_steady ..))))
        · exact .after (hevdNext_steady ..) (.ite (.after (bumpWhile_steady ..) (.after (hevdResult_steady ..)
              (.after (bumpAfter_steady ..) (.after (setHevd_steady ..) (.ite (.after (hevdFlag_steady ..)
              (.after (addFld_steady ..) (.ite (.after (hevdFlag_steady ..) (.after (addFld_steady ..)
              (.after (addFld_steady ..) (.after (hevdStore_steady ..) (.after (hevdRefReads_steady ..) (by
              refine .after (.foldl _ (fun _ _ => hevdGenerate_steady ..) _ _) ?_
              exact .after (bumpBefore_steady ..) (.after (poisonWarn_steady ..) (poisonWarn_steady ..))))))))
                  (.after (addFld_steady ..) (.after (hevdStore_steady ..) (.after (hevdRefReads_steady ..) (by
              refine .after (.foldl _ (fun _ _ => hevdGenerate_steady ..) _ _) ?_
              exact .after (bumpBefore_steady ..) (.after (poisonWarn_steady ..) (poisonWarn_steady ..))))))))) (.ite
                  (.after (hevdFlag_steady ..) (.after (addFld_steady ..) (.after (addFld_steady ..)
                  (.after (hevdStore_steady ..) (.after (hevdRefReads_steady ..) (by
              refine .after (.foldl _ (fun _ _ => hevdGenerate_steady ..) _ _) ?_
              exact .after (bumpBefore_steady ..) (.after (poisonWarn_steady ..) (poisonWarn_steady ..))))))))
                  (.after (addFld_steady ..) (.after (hevdStore_steady ..) (.after (hevdRefReads_steady ..) (by
              refine .after (.foldl _ (fun _ _ => hevdGenerate_steady ..) _ _) ?_
              exact .after (bumpBefore_steady ..) (.after (poisonWarn_steady ..) (poisonWarn_steady ..))))))))))))
                  (.after (hevdResult_steady ..) (.after (bumpAfter_steady ..) (.after (setHevd_steady ..) (.ite
                  (.after (hevdFlag_steady ..) (.after (addFld_steady ..) (.ite (.after (hevdFlag_steady ..)
                  (.after (addFld_steady ..) (.after (addFld_steady ..) (.after (hevdStore_steady ..)
                  (.after (hevdRefReads_steady ..) (by
              refine .after (.foldl _ (fun _ _ => hevdGenerate_steady ..) _ _) ?_
              exact .after (bumpBefore_steady ..) (.after (poisonWarn_steady ..) (poisonWarn_steady ..))))))))
                  (.after (addFld_steady ..) (.after (hevdStore_steady ..) (.after (hevdRefReads_steady ..) (by
              refine .after (.foldl _ (fun _ _ => hevdGenerate_steady ..) _ _) ?_
              exact .after (bumpBefore_steady ..) (.after (poisonWarn_steady ..) (poisonWarn_steady ..))))))))) (.ite
                  (.after (hevdFlag_steady ..) (.after (addFld_steady ..) (.after (addFld_steady ..)
                  (.after (hevdStore_steady ..) (.after (hevdRefReads_steady ..) (by
              refine .after (.foldl _ (fun _ _ => hevdGenerate_steady ..) _ _) ?_
              exact .after (bumpBefore_steady ..) (.after (poisonWarn_steady ..) (poisonWarn_steady ..))))))))
                  (.after (addFld_steady ..) (.after (hevdStore_steady ..) (.after (hevdRefReads_steady ..) (by
              refine .after (.foldl _ (fun _ _ => hevdGenerate_steady ..) _ _) ?_
              exact .after (bumpBefore_steady ..) (.after (poisonWarn_steady ..) (poisonWarn_steady ..))))))))))))

theorem execHevdAuComplete_answers (au : AccessUnit) (s : State) : Answers s (execHevdAuComplete au s) := by
  unfold execHevdAuComplete
  exact .next (hevdComplete_steady ..)

theorem execHevdBudgetExpire_answers (au : AccessUnit) (s : State) : Answers s (execHevdBudgetExpire au s) := by
  unfold execHevdBudgetExpire
  refine .ite ?_ ?_
  · exact .next (hevdComplete_steady ..)
  · exact .next (.refl _)

theorem execHevdOutPop_answers (s : State) : Answers s (execHevdOutPop s) := by
  unfold execHevdOutPop
  refine .ite ?_ ?_
  · exact .next (busOk_steady ..)
  · split
    · exact .next (busOk_steady ..)
    · exact .next (.after (hevdShow_steady ..) (.after (setHevd_steady ..) (busOk_steady ..)))

theorem execHevdOutRel_answers (buf : Fin 32) (s : State) : Answers s (execHevdOutRel buf s) := by
  unfold execHevdOutRel
  refine .ite ?_ ?_
  · exact .next (busOk_steady ..)
  · refine .ite ?_ ?_
    · exact .next (.after (hevdShow_steady ..) (.after (setHevd_steady ..) (busOk_steady ..)))
    · exact .next (.after (postKind_steady ..) (busOk_steady ..))

theorem execHevdDisable_answers (s : State) : Answers s (execHevdDisable s) := by
  unfold execHevdDisable
  refine .ite ?_ ?_
  · exact .next (busOk_steady ..)
  · exact .next (.after (hevdShow_steady ..) (.after (setHevd_steady ..) (.after (setFlag_steady ..) (busOk_steady ..))))

theorem hevdEnable_steady (s : State) : Steady s (hevdEnable s) := by
  unfold hevdEnable
  exact .ite (.refl _) (.ite (.after (hevdNext_steady ..)
      (.after (setHevd_steady ..) (setFlag_steady ..))) (postKind_steady ..))

theorem execHevdCounterClear_answers (s : State) : Answers s (execHevdCounterClear s) := by
  unfold execHevdCounterClear
  exact .next (.after (setFld_steady ..) (.after (setFld_steady ..) (.after (setFld_steady ..) (busOk_steady ..))))

/-! ### The audit of the ledger and of the credits (`Mgmt`) -/

theorem audit_steady (s : State) : Steady s (audit s) := by
  unfold audit
  refine .after (.foldl _ (fun _ _ => .after (postFlag_steady ..) (orBit_steady ..)) _ _) ?_
  exact setLedger_steady ..

theorem execLedgerAudit_answers (s : State) : Answers s (execLedgerAudit s) := by
  unfold execLedgerAudit
  exact .next (.ite (.after (alertUpdate_steady ..) (.after (indexRecords_steady ..)
      (.after (secondLatch_steady ..) (audit_steady ..)))) (.refl _))

theorem mgmtCount_steady (kind : Nat) (n : Nat) (s : State) : Steady s (mgmtCount kind n s) := by
  unfold mgmtCount
  exact setMgmt_steady ..

theorem mgmtMark_steady (n : Nat) (s : State) : Steady s (mgmtMark n s) := by
  unfold mgmtMark
  exact orBit_steady ..

theorem mgmtEvent_steady (n : Nat) (cls : EventClass) (s : State) : Steady s (mgmtEvent n cls s) := by
  unfold mgmtEvent
  exact postFlag_steady ..

theorem mgmtRefused_steady (s : State) : Steady s (mgmtRefused s) := by
  unfold mgmtRefused
  exact .after (mgmtCount_steady ..) (mgmtMark_steady ..)

theorem setToSm_steady (b : Bool) (s : State) : Steady s (setToSm b s) := by
  unfold setToSm
  exact .after (setFlag_steady ..) (setFlag_steady ..)

theorem setFromSm_steady (b : Bool) (s : State) : Steady s (setFromSm b s) := by
  unfold setFromSm
  exact .after (setFlag_steady ..) (setFlag_steady ..)

theorem control_steady {f : State → State} {s : State} (h : ∀ t, Steady t (f t)) : Steady s (control f s) :=
  .ite (h s) (mgmtRefused_steady s)

theorem doWake_steady (value : Nat) (s : State) : Steady s (doWake value s) := by
  unfold doWake
  exact control_steady (fun _ => .ite (wakeTo_steady ..) (mgmtRefused_steady ..))

theorem doCuesel_steady (value : Nat) (s : State) : Steady s (doCuesel value s) := by
  unfold doCuesel
  exact control_steady (fun _ => .after (acceptCommit_steady ..) (doStackOp_steady ..))

theorem doTrig_steady (value : Nat) (s : State) : Steady s (doTrig value s) := by
  unfold doTrig
  exact control_steady (fun _ => .ite (combine_steady ..) (.refl _))

theorem doMsg_steady (value : Nat) (s : State) : Steady s (doMsg value s) := by
  unfold doMsg
  exact control_steady (fun _ => .ite (.after (setFromSm_steady ..) (.ite (setToSm_steady ..) (.refl _)))
      (.ite (setToSm_steady ..) (.refl _)))

theorem doCallAck_steady (count : Nat) (s : State) : Steady s (doCallAck count s) := by
  unfold doCallAck
  exact control_steady (fun _ => setMgmt_steady ..)

theorem execWake_answers (value : Byte) (s : State) : Answers s (execWake value s) := by
  unfold execWake
  exact .next (doWake_steady ..)

theorem execCuesel_answers (value : BitVec 16) (s : State) : Answers s (execCuesel value s) := by
  unfold execCuesel
  exact .next (doCuesel_steady ..)

theorem execTrig_answers (value : Byte) (s : State) : Answers s (execTrig value s) := by
  unfold execTrig
  exact .next (doTrig_steady ..)

theorem execMsg_answers (value : Byte) (s : State) : Answers s (execMsg value s) := by
  unfold execMsg
  exact .next (.after (alertUpdate_steady ..) (doMsg_steady ..))

theorem execCallAck_answers (count : BitVec 16) (s : State) : Answers s (execCallAck count s) := by
  unfold execCallAck
  exact .next (.after (alertUpdate_steady ..) (doCallAck_steady ..))

theorem stageWrite_steady (bytes : List Byte) (s : State) : Steady s (stageWrite bytes s).2 := by
  unfold stageWrite
  split
  · exact .refl _
  · exact .pair (mgmtMark_steady ..)
  · split
    · exact .pair (.ite (setFld_steady ..) (.after (mgmtCount_steady ..) (.after (mgmtMark_steady ..) (setFld_steady ..))))

theorem commitMessage_steady (st : List (Nat × Byte)) (s : State) : Steady s (commitMessage st s) := by
  unfold commitMessage
  exact .ite (.after (mgmtEvent_steady ..) (by
      refine .after (.foldl _ (fun _ _ => setFld_steady ..) _ _) ?_
      exact .refl _)) (by
      refine .after (.foldl _ (fun _ _ => setFld_steady ..) _ _) ?_
      exact .refl _)

theorem commitWrite_steady (st : List (Nat × Byte)) (s : State) : Steady s (commitWrite st s) := by
  unfold commitWrite
  extract_lets act
  have ha : ∀ a n f t, (∀ x u, Steady u (f x u)) → Steady t (act a n f t) := by
    intro a n f t h
    unfold act
    split
    · exact h ..
    · exact .refl _
  exact .after (ha _ _ _ _ doCallAck_steady) <| .after (ha _ _ _ _ doMsg_steady) <| .after (ha _ _ _ _ doTrig_steady) <|
    .after (ha _ _ _ _ doCuesel_steady) <| .after (ha _ _ _ _ doWake_steady) (commitMessage_steady ..)

theorem mgmtTiming_steady (held : List Nat) (s : State) : Steady s (mgmtTiming held s) := by
  unfold mgmtTiming
  exact .ite (.refl _) (.after (mgmtCount_steady ..) (mgmtMark_steady ..))

theorem mgmtAddressed_steady (held : List Nat) (s : State) : Steady s (mgmtAddressed held s) := by
  unfold mgmtAddressed
  exact .after (mgmtTiming_steady ..) (mgmtCount_steady ..)

theorem execMgmtWriteTransaction_answers (bytes : List Byte) (held : List Nat) (s : State) :
    Answers s (execMgmtWriteTransaction bytes held s) := by
  unfold execMgmtWriteTransaction
  refine .ite ?_ ?_
  · exact .next (.refl _)
  · split
    · exact .next (.after (alertUpdate_steady ..) (.after (commitWrite_steady ..) (.ite (.after (mgmtRefused_steady ..)
          (.after (.snd (stageWrite_steady ..) ‹_›) (mgmtAddressed_steady ..))) (.after
          (.snd (stageWrite_steady ..) ‹_›) (mgmtAddressed_steady ..)))))

theorem execMgmtReadTransaction_answers (count : Nat) (held : List Nat) (s : State) :
    Answers s (execMgmtReadTransaction count held s) := by
  unfold execMgmtReadTransaction
  refine .ite ?_ ?_
  · exact .next (.refl _)
  · exact .next (.after (alertUpdate_steady ..) (.after (setMgmt_steady ..)
        (.after (setFld_steady ..) (mgmtAddressed_steady ..))))

theorem execMgmtTimeout_answers (bytes : HeldBytes) (count : Nat) (s : State) : Answers s (execMgmtTimeout bytes count s) := by
  unfold execMgmtTimeout
  refine .ite ?_ ?_
  · exact .next (.refl _)
  · exact .next (.after (alertUpdate_steady ..) (.after (mgmtEvent_steady ..) (.after (mgmtCount_steady ..)
        (.after (setFld_steady ..) ((by
        split
        · exact mgmtAddressed_steady ..
        · exact .after (stageWrite_steady ..) (mgmtAddressed_steady ..)))))))

theorem execAlertResponse_answers (wire : HeldByte) (aborted : Bool) (s : State) :
    Answers s (execAlertResponse wire aborted s) := by
  unfold execAlertResponse
  refine .ite ?_ ?_
  · exact .next (mgmtTiming_steady ..)
  · refine .ite ?_ ?_
    · exact .next (.after (alertUpdate_steady ..) (.after (mgmtEvent_steady ..)
          (.after (mgmtCount_steady ..) (mgmtTiming_steady ..))))
    · refine .ite ?_ ?_
      · exact .next (.after (alertUpdate_steady ..) (.after (mgmtMark_steady ..)
            (.after (setFlag_steady ..) (mgmtTiming_steady ..))))
      · exact .next (.after (alertUpdate_steady ..) (.after (mgmtMark_steady ..)
            (.after (mgmtCount_steady ..) (mgmtTiming_steady ..))))

/-! ### Bus accesses by Company and by the Stage Manager (`Sys`) -/

theorem regRead_steady (side : Side) (a : Nat) (s : State) : Steady s (regRead side a s) := by
  unfold regRead
  split
  · exact .after (busOk_steady ..) (.of_core rfl rfl)
  · exact .after (busOk_steady ..) (.ite (.of_core rfl rfl) (.refl _))

theorem readEffect_answers (side : Side) (a : Nat) (s : State) : Answers s (readEffect side a s) := by
  unfold readEffect
  refine .ite ?_ ?_
  · exact execTimeNowRead_answers ..
  · refine .ite ?_ ?_
    · exact execHevdOutPop_answers ..
    · refine .ite ?_ ?_
      · exact execViewPoolAlloc_answers ..
      · refine .ite ?_ ?_
        · exact execCallLogEntryRead_answers ..
        · exact .next (regRead_steady ..)

theorem busBytes_steady (bs : List Byte) (s : State) : Steady s (busBytes bs s) := by
  unfold busBytes
  exact .of_core rfl rfl

theorem dramLoad_steady (off : Nat) (n : Nat) (s : State) : Steady s (dramLoad off n s) := by
  unfold dramLoad
  exact .ite (.after (postEvent_steady ..) (.after (dramSeen_steady ..) (busError_steady ..))) (busBytes_steady ..)

theorem narrowRead_steady (k : Nat) (n : Nat) (s : State) : Steady s (narrowRead k n s) := by
  unfold narrowRead
  exact .ite (.refl _) (.of_core rfl rfl)

theorem regBytes_answers (side : Side) (off n : Nat) (s : State) : Answers s (regBytes side off n s) := by
  unfold regBytes
  refine .ite (readEffect_answers ..) ?_
  obtain ⟨t, e, h⟩ := readEffect_answers side (off - off % 4) s
  rw [e]
  exact .nextLawful (.after (.ofSteady (narrowRead_steady ..)) h)

theorem busRead_answers (side : Side) (addr : Nat) (size : ReadSize) (s : State) : Answers s (busRead side addr size s) := by
  unfold busRead
  extract_lets
  split
  · exact .next (refuseAccess_steady ..)
  · exact .next (busBytes_steady ..)
  · exact .next (busBytes_steady ..)
  · exact .next (busBytes_steady ..)
  · exact .next (dramLoad_steady ..)
  · exact .next (.ite (busBytes_steady ..) (busError_steady ..))
  · refine .ite ?_ ?_
    · exact .next (busError_steady ..)
    · exact regBytes_answers ..

theorem execLowWordRead_answers (side : Side) (addr : ReadAccess) (s : State) : Answers s (execLowWordRead side addr s) := by
  unfold execLowWordRead
  exact busRead_answers ..

theorem ringBells_steady (side : Side) (bells : Word) (s : State) : Steady s (ringBells side bells s) := by
  unfold ringBells
  exact setFld_steady ..

theorem execDoorbellRing_answers (side : Side) (bells : Word) (s : State) : Answers s (execDoorbellRing side bells s) := by
  unfold execDoorbellRing
  exact .next (.after (ringBells_steady ..) (busOk_steady ..))

theorem clearBells_steady (side : Side) (bells : Word) (rung : Word) (s : State) : Steady s (clearBells side bells rung s) := by
  unfold clearBells
  exact setFld_steady ..

theorem execDoorbellClear_answers (side : Side) (bells : Word) (rung : Word) (s : State) :
    Answers s (execDoorbellClear side bells rung s) := by
  unfold execDoorbellClear
  exact .next (.after (clearBells_steady ..) (busOk_steady ..))

theorem mailboxWrite_steady (side : Side) (toSm : Bool) (i : Nat) (v : Word) (s : State) :
    Steady s (mailboxWrite side toSm i v s) := by
  unfold mailboxWrite
  exact .ite (postKind_steady ..) (.ite (.after (postFlag_steady ..) (setFld_steady ..)) (setFld_steady ..))

theorem execMailboxWrite_answers (side : Side) (toSm : Bool) (index : Fin 64) (value : Word) (s : State) :
    Answers s (execMailboxWrite side toSm index value s) := by
  unfold execMailboxWrite
  exact .next (.after (mailboxWrite_steady ..) (busOk_steady ..))

theorem sysCommand_steady {side : Side} {off : Nat} {v : Word} {s t : State} (e : sysCommand side off v s = some t) :
    Steady s t := by
  unfold sysCommand at e
  split at e
  · split at e
    · exact Option.some.inj e ▸ ringBells_steady ..
    · exact Option.some.inj e ▸ clearBells_steady ..
  · split at e
    · exact Option.some.inj e ▸ mailboxWrite_steady ..
    · split at e
      · exact Option.some.inj e ▸ mailboxWrite_steady ..
      · cases e

theorem plainWrite_steady (r : RegDef) (off : Nat) (v : Word) (s : State) : Steady s (plainWrite r off v s) := by
  unfold plainWrite
  exact .ite (.after (shadowedWrite_steady ..) (.ite (.after (postKind_steady ..) (setWord_steady ..)) (setWord_steady ..)))
      (.ite (.after (postKind_steady ..) (setWord_steady ..)) (setWord_steady ..))

/-! ### Writes of the bus (`RegWrite`) -/

theorem store_steady (v : Word) (f : Fld) (s : State) : Steady s (store v f s) := by
  unfold store
  exact setFld_steady ..

theorem stores_steady (v : Word) (fs : List Fld) (s : State) : Steady s (stores v fs s) := by
  unfold stores
  refine .after (.foldl _ (fun _ _ => store_steady ..) _ _) ?_
  exact .refl _

theorem ringRead_steady (block : Nat) (rd : Fld) (wr : Fld) (log2 : Nat) (v : Word) (s : State) :
    Steady s (ringRead block rd wr log2 v s) := by
  unfold ringRead
  exact .ite (setFld_steady ..) (postRefused_steady ..)

theorem netSizeWrite_steady (p : Nat) (rx : Bool) (v : Word) (s : State) : Steady s (netSizeWrite p rx v s) := by
  unfold netSizeWrite
  exact .ite (.after (setFlag_steady ..) (store_steady ..)) (.ite (.after (setFlag_steady ..) (store_steady ..))
      (.after (postKind_steady ..) (.after (setFlag_steady ..) (store_steady ..))))

theorem wdogWrite_steady (en : Fld) (exp : Fld) (ms : Fld) (v : Word) (s : State) : Steady s (wdogWrite en exp ms v s).2 := by
  unfold wdogWrite
  exact .pair (.ite (.after (setFlag_steady ..) (.ite (.ite (.ite (setFlag_steady ..) (.refl _)) (.after (postKind_steady ..)
      (.ite (setFlag_steady ..) (.refl _)))) (.after (store_steady ..) (.ite (setFlag_steady ..) (.refl _))))) (.ite (.ite
      (.ite (setFlag_steady ..) (.refl _)) (.after (postKind_steady ..) (.ite (setFlag_steady ..) (.refl _))))
      (.after (store_steady ..) (.ite (setFlag_steady ..) (.refl _)))))

theorem writeAlert_steady (off : Nat) (s : State) : Steady s (writeAlert off s) := by
  unfold writeAlert
  exact .ite (alertUpdate_steady ..) (.refl _)

theorem execUnmappedAccess_answers (side : Side) (addr : BitVec 40) (write : Bool) (s : State) :
    Answers s (execUnmappedAccess side addr write s) := by
  unfold execUnmappedAccess
  split
  · exact .next (refuseAccess_steady ..)
  · refine .ite ?_ ?_
    · exact .next (refuseAccess_steady ..)
    · exact .next (.refl _)
  · exact .next (.refl _)

/-! ### The device as the host runs it (`Core`) -/

theorem setLatches_steady (l : List (Nat × Word)) (s : State) : Steady s (setLatches l s) := by
  unfold setLatches
  exact .of_core rfl rfl

end Sys2Proof.Machine
end

section
/-! PROOFS. Register writes, the commands (R16, R17, R32) and the tick of device time (R432): the queue and the invariant. -/

namespace Sys2Proof.Machine

/-! ### Next state of an answer, and writes that command -/

theorem Answers.state {s : State} {o : Answer} (h : Answers s o) : Lawful s (Answer.state o s) := by
  obtain ⟨t, rfl, ht⟩ := h
  exact ht

theorem Answers.actWhen {b : Bool} {s : State} {o : Answer} (h : Answers s o) : Answers s (actWhen b o s) :=
  .ite h (.next (.refl s))

/-- What a write commands, where it commands anything, answers a next state. -/
structure MayAnswer (s : State) (o : Option Answer) : Prop where
  answers : ∀ x, o = some x → Answers s x

namespace MayAnswer

theorem none {s : State} : MayAnswer s none := ⟨fun _ h => nomatch h⟩

theorem some {s : State} {o : Answer} (h : Answers s o) : MayAnswer s (some o) := ⟨fun _ e => Option.some.inj e ▸ h⟩

theorem ite {p : Prop} [Decidable p] {s : State} {o o' : Option Answer} (h : MayAnswer s o) (k : MayAnswer s o') :
    MayAnswer s (if p then o else o') := by
  split
  · exact h
  · exact k

theorem after {s t : State} {o : Option Answer} (k : MayAnswer t o) (h : Lawful s t) : MayAnswer s o :=
  ⟨fun x e => (k.answers x e).after h⟩

end MayAnswer

theorem cueCommand_mayAnswer (off : Nat) (v : Word) (s : State) : MayAnswer s (cueCommand off v s) :=
  .ite (.some (.next (cueOp_steady ..))) <| .ite (.some (.actWhen (execCueCommit_answers ..))) <|
    .ite (.some (execCueLoad_answers ..)) .none

theorem privRequest_answers (action : Nat) (s : State) : Answers s (privRequest action s) := by
  unfold privRequest
  refine .ite ((execProvision_answers ..).after (.ofSteady (takeFree_steady s))) ?_
  exact .ite (execToField_answers ..) <| .ite (execEnterService_answers ..) <| .ite (execLeaveService_answers ..) <|
    .ite (execRetire_answers ..) (.next (.after (requestDenied_steady ..) (busOk_steady ..)))

theorem trustCommand_mayAnswer (off : Nat) (v : Word) (s : State) : MayAnswer s (trustCommand off v s) := by
  unfold trustCommand
  refine .ite (.some ?_) (.ite (.some (.actWhen (privRequest_answers ..))) (.ite (.ite (.some (.next (.refl _))) (.some ?_)) .none))
  · exact (Answers.actWhen (execAdvance_answers _)).after (.ite (execConfirm_answers s).state (.refl s))
  · exact .ite (execAttest_answers ..) <| .ite (execCheckpoint_answers ..) <| .ite (execFinalManifest_answers ..) <|
      .next (signRefused_steady ..)

theorem ingestCommand_mayAnswer (p : Fin 4) (o : Nat) (v : Word) (s : State) : MayAnswer s (ingestCommand p o v s) :=
  .ite (.some (.actWhen (execIngestCounterClear_answers ..))) <| .ite (.some (execMclkConfigWrite_answers ..)) <|
    .ite (.some (execSensorResetRelease_answers ..)) <| .ite (.some (.actWhen (execXpulse_answers ..))) <|
    .ite (.some (execSpiTransfer_answers ..)) <| .ite (.some (.next (postKind_steady ..))) .none

theorem pipeCommand_mayAnswer (off : Nat) (v : Word) (s : State) : MayAnswer s (pipeCommand off v s) :=
  .ite (.some (.actWhen (execPipeCounterClear_answers ..))) .none

theorem cellCommand_mayAnswer (off : Nat) (v : Word) (s : State) : MayAnswer s (cellCommand off v s) :=
  .ite (.some (.actWhen (execCellRearm_answers ..))) <| .ite (.some (.actWhen (execCellCounterClear_answers ..))) .none

theorem ledgerCommand_mayAnswer (off : Nat) (v : Word) (s : State) : MayAnswer s (ledgerCommand off v s) := by
  unfold ledgerCommand
  refine .ite (.some (.next (ringRead_steady ..))) (.ite (.some (execSoftwareTrigger_answers ..)) (.ite (.some (.next ?_)) .none))
  exact .ite (.after (postActsAs_steady ..) (store_steady ..)) (store_steady ..)

theorem rawcCommand_mayAnswer (off : Nat) (v : Word) (s : State) : MayAnswer s (rawcCommand off v s) :=
  .ite (.some (.actWhen (execRawcCounterClear_answers ..))) <|
    .ite (.some (.ite (execRawcDecode_answers ..) (.next (stores_steady ..)))) .none

theorem heveCommand_mayAnswer (e : Fin 2) (o : Nat) (v : Word) (s : State) : MayAnswer s (heveCommand e o v s) :=
  .ite (.some (execHeveOutRdWrite_answers ..)) <| .ite (.some (.actWhen (execHeveCounterClear_answers ..))) .none

theorem hevdCommand_mayAnswer (off : Nat) (v : Word) (s : State) : MayAnswer s (hevdCommand off v s) :=
  .ite (.some (.ite (.next (hevdEnable_steady ..)) (.actWhen (execHevdDisable_answers ..)))) <|
    .ite (.some (execHevdInWrWrite_answers ..)) <| .ite (.some (execHevdOutRel_answers ..)) <|
    .ite (.some (.actWhen (execHevdCounterClear_answers ..))) <| .ite (.some (.next (postRefused_steady ..))) .none

theorem hashCommand_mayAnswer (off : Nat) (v : Word) (s : State) : MayAnswer s (hashCommand off v s) :=
  .ite (.some (.next (ringRead_steady ..))) <| .ite (.some (.actWhen (execHashCounterClear_answers ..))) <|
    .ite (.some (.actWhen (execHashJob_answers ..))) .none

theorem magGo_answers (k : Fin 2) (v : Word) (s : State) : Answers s (magGo k v s) :=
  .ite (execRead_answers ..) <| .ite (execAppend_answers ..) <| .ite (execErase_answers ..) <| .ite (execMount_answers ..) <|
    .ite (execEject_answers ..) (.next (.after (magOpRefused_steady ..) (magOpWrite_steady ..)))

theorem magCommand_mayAnswer (off : Nat) (v : Word) (s : State) : MayAnswer s (magCommand off v s) :=
  .ite (.some (.actWhen (execMagTakeClose_answers ..))) <|
    .ite (.some (.ite (magGo_answers ..) (.next (stores_steady ..)))) .none

theorem dramCommand_mayAnswer (off : Nat) (v : Word) (s : State) : MayAnswer s (dramCommand off v s) :=
  .ite (.some (.next (postRefused_steady ..))) <|
    .ite (.some (.ite (execDramCommit_answers ..) (execDramFence_answers ..))) <|
    .ite (.some (.next (.ite (trnStart_steady ..) (stores_steady ..)))) <| .ite (.some (.next (trnWrite_steady ..))) <|
    .ite (.some (.actWhen (execDramCounterClear_answers ..))) .none

theorem laneLoop_answers (l : Fin 26) (v : Word) (s : State) : Answers s (laneLoop l v s) :=
  (Answers.ite (execLanePrbsClear_answers ..) (.next (.refl _))).after (execLaneLoopWrite_answers l v s).state

theorem laneCommand_mayAnswer (o : Nat) (v : Word) (s : State) : MayAnswer s (laneCommand o v s) := by
  unfold laneCommand
  refine .ite (.some (.actWhen (execLaneCounterClear_answers ..))) ?_
  split
  · exact .ite (.some (laneLoop_answers ..)) .none
  · exact .none

theorem netCommand_mayAnswer (p : Fin 2) (o : Nat) (v : Word) (s : State) : MayAnswer s (netCommand p o v s) :=
  .ite (.some (execNetTxWrWrite_answers ..)) <| .ite (.some (execNetTxWrWrite_answers ..)) <|
    .ite (.some (.next (netSizeWrite_steady ..))) <| .ite (.some (.next (netSizeWrite_steady ..))) .none

theorem timeCmd_answers (code : Nat) (s : State) : Answers s (timeCmd code s) :=
  .ite (execStep_answers ..) <| .ite (execSet_answers ..) <| .ite (execHold_answers ..) <| .ite (execRelease_answers ..) <|
    .next (timeRefused_steady ..)

theorem timeCommand_mayAnswer (off : Nat) (v : Word) (s : State) : MayAnswer s (timeCommand off v s) := by
  unfold timeCommand
  refine .ite (.some (.next ?_)) <| .ite (.some (execTimeIncrWrite_answers ..)) <| .ite (.some (timeCmd_answers ..)) <|
    .ite (.some (.next (.after (setFlag_steady ..) (stores_steady ..)))) <| .ite (.some (.next ?_)) .none
  · exact .after (setClock_steady (stores_steady v [TIME_CTRL.WATCH_MS, TIME_CTRL.SERVO_PORT] s).next.symm) (stores_steady ..)
  · exact .ite (.after (netFollow_steady ..) (stores_steady ..)) (stores_steady ..)

theorem klinkCommand_mayAnswer (off : Nat) (v : Word) (s : State) : MayAnswer s (klinkCommand off v s) :=
  .ite (.some ((Answers.actWhen (execRetrain_answers _)).after (.ite (execYield_answers s).state (.refl s)))) <|
    .ite (.some (.actWhen (execKlinkCounterClear_answers ..))) .none

theorem cmpWrite_answers (k : Fin 8) (v : Word) (s : State) : Answers s (cmpWrite k v s) :=
  .ite (execArm_answers ..) <| .ite (execDisarm_answers ..) (.next (cmpCtrlWrite_steady ..))

theorem motionCommand_mayAnswer (o : Nat) (v : Word) (s : State) : MayAnswer s (motionCommand o v s) := by
  unfold motionCommand
  split
  · exact .ite (.some (execMotionPreset_answers ..)) .none
  · split
    · exact .ite (.some (cmpWrite_answers ..)) .none
    · exact .none

theorem viewCommand_mayAnswer (off : Nat) (v : Word) (s : State) : MayAnswer s (viewCommand off v s) :=
  .ite (.some (execViewDirtyWhWrite_answers ..)) <| .ite (.some (execViewPoolFree_answers ..)) <|
    .ite (.some (.ite (execViewCmd_answers ..) (.next (stores_steady ..)))) .none

theorem mgmtCommand_mayAnswer (off : Nat) (v : Word) (s : State) : MayAnswer s (mgmtCommand off v s) := by
  unfold mgmtCommand
  extract_lets t
  have ht : Steady s t := .ite (setToSm_steady ..) (.refl _)
  exact .ite (.some (.next (.ite (.after (setFromSm_steady ..) ht) ht))) .none

theorem callCommand_mayAnswer (side : Side) (off : Nat) (v : Word) (s : State) : MayAnswer s (callCommand side off v s) := by
  unfold callCommand
  refine .ite (.some (.next ?_)) <| .ite (.some (.next ?_)) <| .ite (.some (.actWhen (execCoKick_answers ..))) <|
    .ite (.some (.actWhen (execSmKick_answers ..))) <| .ite (.some (.actWhen (execCallRestart_answers ..))) <|
    .ite (.some (execCallDoneWrite_answers ..)) <| .ite (.some (execCallPostWrite_answers ..)) ?_
  · exact .ite (.after (withCall_steady ..) (wdogWrite_steady ..)) (wdogWrite_steady ..)
  · exact .ite (.after (withCall_steady ..) (wdogWrite_steady ..)) (wdogWrite_steady ..)
  · cases side with
    | company c => exact .none
    | stageManager => exact .ite (.some (.next (withCall_steady ..))) <| .ite (.some (.next (withCall_steady ..))) .none

theorem nvmcCommand_mayAnswer (off : Nat) (v : Word) (s : State) : MayAnswer s (nvmcCommand off v s) :=
  .ite (.some (.ite (execJournalAppend_answers ..) <| .ite (execSlotProgram_answers ..) <| .ite (execSectorErase_answers ..) <|
    .ite (execNvmRead_answers ..) (.next (nvmRefuse_steady ..)))) .none

theorem sysCommand_mayAnswer (side : Side) (off : Nat) (v : Word) (s : State) :
    MayAnswer s ((sysCommand side off v s).map (fun t => .next t)) := by
  refine ⟨fun x h => ?_⟩
  obtain ⟨t, ht, rfl⟩ := Option.map_eq_some_iff.1 h
  exact .next (sysCommand_steady ht)

theorem regCommand_mayAnswer (side : Side) (off : Nat) (v : Word) (s : State) : MayAnswer s (regCommand side off v s) :=
  .ite (sysCommand_mayAnswer ..) <| .ite (cueCommand_mayAnswer ..) <| .ite (trustCommand_mayAnswer ..) <|
    .ite (ingestCommand_mayAnswer ..) <| .ite (pipeCommand_mayAnswer ..) <| .ite (cellCommand_mayAnswer ..) <|
    .ite (ledgerCommand_mayAnswer ..) <| .ite (rawcCommand_mayAnswer ..) <| .ite (heveCommand_mayAnswer ..) <|
    .ite (hevdCommand_mayAnswer ..) <| .ite (hashCommand_mayAnswer ..) <| .ite (magCommand_mayAnswer ..) <|
    .ite (dramCommand_mayAnswer ..) <| .ite (laneCommand_mayAnswer ..) <| .ite (netCommand_mayAnswer ..) <|
    .ite (timeCommand_mayAnswer ..) <| .ite (klinkCommand_mayAnswer ..) <| .ite (motionCommand_mayAnswer ..) <|
    .ite (viewCommand_mayAnswer ..) <| .ite (mgmtCommand_mayAnswer ..) <| .ite (callCommand_mayAnswer ..) <|
    .ite (nvmcCommand_mayAnswer ..) .none

/-! ### Register writes and the commands -/

theorem regWrite_answers (side : Side) (off : Nat) (v : Word) (s : State) : Answers s (regWrite side off v s) := by
  unfold regWrite
  extract_lets s1
  have h1 : Steady s s1 := busOk_steady ..
  split
  · exact .next (.ite (.after (setKa_steady ..) h1) h1)
  next r _ =>
    refine .ite (.next (.after (postKind_steady ..) h1)) (.ite (.next h1) ?_)
    extract_lets s2
    have h2 : Steady s s2 := .after (setWord_steady ..) h1
    split
    next o e => exact .nextLawful (.after (.ofSteady (writeAlert_steady ..)) (.after ((regCommand_mayAnswer ..).answers _ e).state (.ofSteady h2)))
    · exact .next (.after (writeAlert_steady ..) (.after (plainWrite_steady ..) h2))

theorem busWrite_answers (side : Side) (addr : Nat) (size : AccessSize) (v : Word) (s : State) :
    Answers s (busWrite side addr size v s) := by
  unfold busWrite
  extract_lets n bs
  split
  · exact .next (refuseAccess_steady ..)
  · exact .next (busOk_steady ..)
  · exact .ite (.next (refuseAccess_steady ..)) (.next (.after (writeScratch_steady ..) (busOk_steady ..)))
  next o _ =>
    have hm : Steady (busOk 0 s) { busOk 0 s with smSram := writeList 0 s.smSram o bs } :=
      ⟨rfl, rfl, rfl, fun ⟨hr, hs, hm, hd, hn⟩ => ⟨hr, hs, writeList_wf hm _ _, hd, hn⟩⟩
    exact .next (.after hm (busOk_steady ..))
  · exact .next (.after (writeDram_steady ..) (busOk_steady ..))
  · exact execCellWindowWrite_answers ..
  · exact .ite (.next (busError_steady ..)) (regWrite_answers ..)

theorem execRegisterWrite_answers (side : Side) (addr : BitVec 40) (size : AccessSize) (value : Word) (s : State) :
    Answers s (execRegisterWrite side addr size value s) := busWrite_answers ..

/-- Every command answers a next state, and keeps the queue and the invariant. -/
theorem exec_answers (c : Instr) (s : State) : Answers s (exec c s) := by
  cases c with
  | registerWrite _ _ _ _ => exact execRegisterWrite_answers ..
  | unmappedAccess _ _ _ => exact execUnmappedAccess_answers ..
  | doorbellRing _ _ => exact execDoorbellRing_answers ..
  | doorbellClear _ _ _ => exact execDoorbellClear_answers ..
  | mailboxWrite _ _ _ _ => exact execMailboxWrite_answers ..
  | modeRequest _ => exact execModeRequest_answers ..
  | drainEnd => exact execDrainEnd_answers ..
  | transitionComplete => exact execTransitionComplete_answers ..
  | cueLoad _ => exact execCueLoad_answers ..
  | cueLoadComplete => exact execCueLoadComplete_answers ..
  | push _ => exact execPush_answers ..
  | pop => exact execPop_answers ..
  | replace _ _ => exact execReplace_answers ..
  | clear => exact execClear_answers ..
  | clearFw => exact execClearFw_answers ..
  | shadowWrite _ _ => exact execShadowWrite_answers ..
  | cueCommit => exact execCueCommit_answers ..
  | commitArmed => exact execCommitArmed_answers ..
  | cueRefTimeout => exact execCueRefTimeout_answers ..
  | dawn => exact execDawn_answers ..
  | confirm => exact execConfirm_answers ..
  | advance => exact execAdvance_answers ..
  | provision _ => exact execProvision_answers ..
  | toField => exact execToField_answers ..
  | enterService => exact execEnterService_answers ..
  | leaveService => exact execLeaveService_answers ..
  | retire => exact execRetire_answers ..
  | attest => exact execAttest_answers ..
  | checkpoint => exact execCheckpoint_answers ..
  | finalManifest => exact execFinalManifest_answers ..
  | signDone => exact execSignDone_answers ..
  | presencePress => exact execPresencePress_answers ..
  | presenceWindowExpire => exact execPresenceWindowExpire_answers ..
  | svcJmpFitted => exact execSvcJmpFitted_answers ..
  | svcJmpRemoved => exact execSvcJmpRemoved_answers ..
  | sealSample _ => exact execSealSample_answers ..
  | journalAppend => exact execJournalAppend_answers ..
  | slotProgram => exact execSlotProgram_answers ..
  | sectorErase => exact execSectorErase_answers ..
  | nvmRead => exact execNvmRead_answers ..
  | nvmOpComplete => exact execNvmOpComplete_answers ..
  | nvmProgramTimeout _ => exact execNvmProgramTimeout_answers ..
  | slotRewriteStart _ => exact execSlotRewriteStart_answers ..
  | frameStart _ _ _ _ => exact execFrameStart_answers ..
  | frameEnd _ _ _ _ => exact execFrameEnd_answers ..
  | pixelLine _ _ _ _ _ _ _ _ => exact execPixelLine_answers ..
  | embeddedData _ _ _ _ _ => exact execEmbeddedData_answers ..
  | lineStartEnd _ _ _ => exact execLineStartEnd_answers ..
  | nullBlanking _ _ _ => exact execNullBlanking_answers ..
  | dtUnsel _ _ _ _ => exact execDtUnsel_answers ..
  | orphan _ _ _ => exact execOrphan_answers ..
  | eccUncorr _ _ => exact execEccUncorr_answers ..
  | packetCutEot _ _ _ _ _ => exact execPacketCutEot_answers ..
  | lineIdleTimeout _ _ _ _ _ => exact execLineIdleTimeout_answers ..
  | frameTimeout _ _ => exact execFrameTimeout_answers ..
  | gangSkewTimeout _ _ => exact execGangSkewTimeout_answers ..
  | laneUlps _ _ => exact execLaneUlps_answers ..
  | ingestCounterClear _ => exact execIngestCounterClear_answers ..
  | mclkConfigWrite _ _ => exact execMclkConfigWrite_answers ..
  | sensorResetRelease _ _ => exact execSensorResetRelease_answers ..
  | xtrigScheduled _ _ => exact execXtrigScheduled_answers ..
  | xpulse _ => exact execXpulse_answers ..
  | xtrigPulseEnd _ => exact execXtrigPulseEnd_answers ..
  | spiTransfer _ _ => exact execSpiTransfer_answers ..
  | spiTransferDone _ _ => exact execSpiTransferDone_answers ..
  | spiScriptEntry _ => exact execSpiScriptEntry_answers ..
  | pipeFrameBegin => exact execPipeFrameBegin_answers ..
  | sliceGrant => exact execSliceGrant_answers ..
  | sliceComplete => exact execSliceComplete_answers ..
  | pipeDetection _ => exact execPipeDetection_answers ..
  | tableRefreshDone => exact execTableRefreshDone_answers ..
  | pipeBufferRelease _ _ => exact execPipeBufferRelease_answers ..
  | pipeCounterClear => exact execPipeCounterClear_answers ..
  | cellRearm => exact execCellRearm_answers ..
  | cellWindowWrite _ _ => exact execCellWindowWrite_answers ..
  | cellCounterClear => exact execCellCounterClear_answers ..
  | trigAccept _ _ => exact execTrigAccept_answers ..
  | trigShortRun _ => exact execTrigShortRun_answers ..
  | trigRelease _ => exact execTrigRelease_answers ..
  | trigStuck _ => exact execTrigStuck_answers ..
  | trigOutputPulseEnd _ => exact execTrigOutputPulseEnd_answers ..
  | softwareTrigger _ => exact execSoftwareTrigger_answers ..
  | swtrigDue _ => exact execSwtrigDue_answers ..
  | rangePlace => exact execRangePlace_answers ..
  | ledgerAudit => exact execLedgerAudit_answers ..
  | partnerDispTimeout _ => exact execPartnerDispTimeout_answers ..
  | coderFrameBegin => exact execCoderFrameBegin_answers ..
  | coderMapTimeout => exact execCoderMapTimeout_answers ..
  | coderDetection _ _ => exact execCoderDetection_answers ..
  | coderFrameComplete => exact execCoderFrameComplete_answers ..
  | rawcDecode _ _ => exact execRawcDecode_answers ..
  | decodeComplete => exact execDecodeComplete_answers ..
  | rawcCounterClear => exact execRawcCounterClear_answers ..
  | frameLink _ => exact execFrameLink_answers ..
  | hashDetection _ => exact execHashDetection_answers ..
  | hashRehashComplete _ _ => exact execHashRehashComplete_answers ..
  | codedDigestComplete _ => exact execCodedDigestComplete_answers ..
  | hashJob => exact execHashJob_answers ..
  | hashJobComplete => exact execHashJobComplete_answers ..
  | hashCounterClear => exact execHashCounterClear_answers ..
  | magPresent _ _ => exact execMagPresent_answers ..
  | magTrainingStart _ => exact execMagTrainingStart_answers ..
  | magTrainTimeout _ => exact execMagTrainTimeout_answers ..
  | magLinkUp _ _ _ _ => exact execMagLinkUp_answers ..
  | magMountComplete _ _ => exact execMagMountComplete_answers ..
  | magRemoval _ => exact execMagRemoval_answers ..
  | nvmeCompletion _ _ _ _ => exact execNvmeCompletion_answers ..
  | nvmeCommandTimeout _ _ => exact execNvmeCommandTimeout_answers ..
  | magSmartPoll _ => exact execMagSmartPoll_answers ..
  | magFrameWriteComplete _ => exact execMagFrameWriteComplete_answers ..
  | magTakeClose => exact execMagTakeClose_answers ..
  | magTakeCloseTimeout => exact execMagTakeCloseTimeout_answers ..
  | read _ _ => exact execRead_answers ..
  | append _ _ => exact execAppend_answers ..
  | erase _ _ => exact execErase_answers ..
  | mount _ _ => exact execMount_answers ..
  | eject _ _ => exact execEject_answers ..
  | magOpComplete _ => exact execMagOpComplete_answers ..
  | hevePictureBegin _ _ _ => exact execHevePictureBegin_answers ..
  | heveSliceEmit _ _ _ => exact execHeveSliceEmit_answers ..
  | heveMosaicTimeout _ _ => exact execHeveMosaicTimeout_answers ..
  | heveMapTimeout _ _ _ => exact execHeveMapTimeout_answers ..
  | heveDetection _ => exact execHeveDetection_answers ..
  | heveOutRdWrite _ _ => exact execHeveOutRdWrite_answers ..
  | heveCounterClear _ => exact execHeveCounterClear_answers ..
  | hevdInWrWrite _ => exact execHevdInWrWrite_answers ..
  | hevdAuComplete _ => exact execHevdAuComplete_answers ..
  | hevdBudgetExpire _ => exact execHevdBudgetExpire_answers ..
  | hevdOutPop => exact execHevdOutPop_answers ..
  | hevdOutRel _ => exact execHevdOutRel_answers ..
  | hevdDisable => exact execHevdDisable_answers ..
  | hevdCounterClear => exact execHevdCounterClear_answers ..
  | dramReread _ _ => exact execDramReread_answers ..
  | dramCodeWriteback _ => exact execDramCodeWriteback_answers ..
  | dramRefresh _ _ => exact execDramRefresh_answers ..
  | dramMr4Poll _ => exact execDramMr4Poll_answers ..
  | dramOscTrack _ => exact execDramOscTrack_answers ..
  | dramWckStop _ => exact execDramWckStop_answers ..
  | dramCommit _ => exact execDramCommit_answers ..
  | dramInitDone => exact execDramInitDone_answers ..
  | dramFence _ => exact execDramFence_answers ..
  | init _ _ => exact execInit_answers ..
  | mrw _ _ => exact execMrw_answers ..
  | mrr _ _ => exact execMrr_answers ..
  | ca _ _ => exact execCa_answers ..
  | wck2ck _ _ => exact execWck2ck_answers ..
  | wlev _ _ => exact execWlev_answers ..
  | rdq _ _ => exact execRdq_answers ..
  | wdq _ _ => exact execWdq_answers ..
  | verify _ _ => exact execVerify_answers ..
  | dramTrnDone _ => exact execDramTrnDone_answers ..
  | dramCounterClear => exact execDramCounterClear_answers ..
  | laneLock _ => exact execLaneLock_answers ..
  | laneLockLost _ _ => exact execLaneLockLost_answers ..
  | laneNoLockTimeout _ => exact execLaneNoLockTimeout_answers ..
  | laneSleepEntry _ => exact execLaneSleepEntry_answers ..
  | laneRxSleep _ => exact execLaneRxSleep_answers ..
  | laneWake _ => exact execLaneWake_answers ..
  | laneWakeHoldEnd _ => exact execLaneWakeHoldEnd_answers ..
  | laneWakeFail _ => exact execLaneWakeFail_answers ..
  | laneLoopWrite _ _ => exact execLaneLoopWrite_answers ..
  | lanePrbsClear _ => exact execLanePrbsClear_answers ..
  | laneFomInterval _ _ _ _ _ _ => exact execLaneFomInterval_answers ..
  | pcieEqPresetTrial _ _ _ => exact execPcieEqPresetTrial_answers ..
  | laneCounterClear => exact execLaneCounterClear_answers ..
  | netRxFrame _ _ _ => exact execNetRxFrame_answers ..
  | netTxWrWrite _ _ _ => exact execNetTxWrWrite_answers ..
  | netTxFrame _ => exact execNetTxFrame_answers ..
  | netLinkUp _ => exact execNetLinkUp_answers ..
  | netLinkDown _ => exact execNetLinkDown_answers ..
  | streamDatagram _ => exact execStreamDatagram_answers ..
  | step => exact execStep_answers ..
  | set => exact execSet_answers ..
  | hold => exact execHold_answers ..
  | release => exact execRelease_answers ..
  | timeIncrWrite _ => exact execTimeIncrWrite_answers ..
  | timeNowRead => exact execTimeNowRead_answers ..
  | timeWatchExpire => exact execTimeWatchExpire_answers ..
  | keepaliveLinkTimeout => exact execKeepaliveLinkTimeout_answers ..
  | alarmFire => exact execAlarmFire_answers ..
  | ppsOutAssert => exact execPpsOutAssert_answers ..
  | ppsOutEnd => exact execPpsOutEnd_answers ..
  | ppsInEdge _ => exact execPpsInEdge_answers ..
  | ltcInWord _ _ => exact execLtcInWord_answers ..
  | ltcOutWord => exact execLtcOutWord_answers ..
  | scheduleTick => exact execScheduleTick_answers ..
  | keepaliveRx _ _ => exact execKeepaliveRx_answers ..
  | keepaliveTx _ => exact execKeepaliveTx_answers ..
  | wakeFrame _ => exact execWakeFrame_answers ..
  | heartbeatSend => exact execHeartbeatSend_answers ..
  | heartbeatReceive _ _ _ => exact execHeartbeatReceive_answers ..
  | heartbeatMissedPeriod => exact execHeartbeatMissedPeriod_answers ..
  | helloFlit _ _ _ _ _ => exact execHelloFlit_answers ..
  | yield => exact execYield_answers ..
  | retrain => exact execRetrain_answers ..
  | klinkTimeSend _ => exact execKlinkTimeSend_answers ..
  | klinkTimeReceive _ _ _ _ _ => exact execKlinkTimeReceive_answers ..
  | trigFlit _ _ _ _ _ => exact execTrigFlit_answers ..
  | cueselFlit _ _ _ => exact execCueselFlit_answers ..
  | dispFlit _ _ _ => exact execDispFlit_answers ..
  | klinkMirrorStart _ => exact execKlinkMirrorStart_answers ..
  | frameHdr _ _ _ _ _ _ _ _ _ _ => exact execFrameHdr_answers ..
  | raw _ _ _ => exact execRaw_answers ..
  | frameEndFlit _ _ _ _ => exact execFrameEndFlit_answers ..
  | mirrorAck _ _ _ => exact execMirrorAck_answers ..
  | mirrorAckTimeout _ => exact execMirrorAckTimeout_answers ..
  | klinkFlitReceive _ _ _ => exact execKlinkFlitReceive_answers ..
  | klinkNak _ _ => exact execKlinkNak_answers ..
  | klinkAckTimeout _ => exact execKlinkAckTimeout_answers ..
  | klinkAlignSend _ => exact execKlinkAlignSend_answers ..
  | klinkTrainStart _ => exact execKlinkTrainStart_answers ..
  | klinkTrainTimeout _ => exact execKlinkTrainTimeout_answers ..
  | klinkCounterClear => exact execKlinkCounterClear_answers ..
  | motionEdge _ _ _ _ => exact execMotionEdge_answers ..
  | motionGlitch _ => exact execMotionGlitch_answers ..
  | ssiFrameStart _ _ _ => exact execSsiFrameStart_answers ..
  | ssiFrameComplete _ _ _ => exact execSsiFrameComplete_answers ..
  | motionPreset _ _ => exact execMotionPreset_answers ..
  | motionStall _ => exact execMotionStall_answers ..
  | motionStandstill _ => exact execMotionStandstill_answers ..
  | motionGateEnd _ => exact execMotionGateEnd_answers ..
  | arm _ _ => exact execArm_answers ..
  | disarm _ _ => exact execDisarm_answers ..
  | viewStartStep => exact execViewStartStep_answers ..
  | viewScriptEntry => exact execViewScriptEntry_answers ..
  | viewTeEdge => exact execViewTeEdge_answers ..
  | viewPushComplete => exact execViewPushComplete_answers ..
  | viewTeTimeout => exact execViewTeTimeout_answers ..
  | viewApply => exact execViewApply_answers ..
  | viewLineTimedWrite _ _ => exact execViewLineTimedWrite_answers ..
  | viewDirtyWhWrite _ => exact execViewDirtyWhWrite_answers ..
  | viewCmd _ => exact execViewCmd_answers ..
  | viewPoolAlloc => exact execViewPoolAlloc_answers ..
  | viewPoolFree _ => exact execViewPoolFree_answers ..
  | mgmtWriteTransaction _ _ => exact execMgmtWriteTransaction_answers ..
  | mgmtReadTransaction _ _ => exact execMgmtReadTransaction_answers ..
  | mgmtTimeout _ _ => exact execMgmtTimeout_answers ..
  | wake _ => exact execWake_answers ..
  | cuesel _ => exact execCuesel_answers ..
  | trig _ => exact execTrig_answers ..
  | msg _ => exact execMsg_answers ..
  | callAck _ => exact execCallAck_answers ..
  | alertResponse _ _ => exact execAlertResponse_answers ..
  | aonSupplyValid _ => exact execAonSupplyValid_answers ..
  | aonSupplyLost => exact execAonSupplyLost_answers ..
  | resetRelease => exact execResetRelease_answers ..
  | warmRstAssert => exact execWarmRstAssert_answers ..
  | warmRstRelease => exact execWarmRstRelease_answers ..
  | railPgTimeout _ => exact execRailPgTimeout_answers ..
  | railLost _ => exact execRailLost_answers ..
  | supplyLoss _ => exact execSupplyLoss_answers ..
  | supplyRestored => exact execSupplyRestored_answers ..
  | refclkWindow _ => exact execRefclkWindow_answers ..
  | pllUnlock _ => exact execPllUnlock_answers ..
  | pllRelockTimeout _ => exact execPllRelockTimeout_answers ..
  | thermalSample _ => exact execThermalSample_answers ..
  | curtainNvmCutoff _ => exact execCurtainNvmCutoff_answers ..
  | curtainCoolComplete => exact execCurtainCoolComplete_answers ..
  | callPostWrite _ _ => exact execCallPostWrite_answers ..
  | callLogWrite => exact execCallLogWrite_answers ..
  | callLogEntryRead _ => exact execCallLogEntryRead_answers ..
  | callDoneWrite _ _ => exact execCallDoneWrite_answers ..
  | smParity => exact execSmParity_answers ..
  | fatalHandlingTimeout => exact execFatalHandlingTimeout_answers ..
  | safeStatePortsClosed => exact execSafeStatePortsClosed_answers ..
  | callRestart _ => exact execCallRestart_answers ..
  | companyRestartRelease => exact execCompanyRestartRelease_answers ..
  | coKick => exact execCoKick_answers ..
  | companyRestartTimeout => exact execCompanyRestartTimeout_answers ..
  | companyWatchdogExpire => exact execCompanyWatchdogExpire_answers ..
  | smKick _ => exact execSmKick_answers ..
  | smWatchdogExpire => exact execSmWatchdogExpire_answers ..
  | trigWakeEdge _ => exact execTrigWakeEdge_answers ..
  | presenceRelease => exact execPresenceRelease_answers ..
  | signalDetect _ => exact execSignalDetect_answers ..
  | pllRelock _ => exact execPllRelock_answers ..
  | pllFailureRestart => exact execPllFailureRestart_answers ..
  | klinkDeskewLost _ => exact execKlinkDeskewLost_answers ..
  | controllerFatalStatus _ => exact execControllerFatalStatus_answers ..
  | warmResetCommand => exact execWarmResetCommand_answers ..
  | rail0PgRestored => exact execRail0PgRestored_answers ..
  | lowWordRead _ _ => exact execLowWordRead_answers ..

/-! ### A tick of device time -/

theorem timeOf_ns_lt (u : Nat) : (timeOf u).ns < 1000000000 := Nat.mod_lt _ (by decide)

/-- A change of the time of device time to a legal one. -/
theorem withTime_lawful (x : DevTime) (s : State) (h : x.ns < 1000000000) : Lawful s { s with time := x } :=
  ⟨rfl, fun ⟨hm, _, hn⟩ => ⟨hm, h, hn⟩⟩

theorem applyNext_lawful {n : TimeNext} {s : State} (h : n.legal) : Lawful s (applyNext n s) := by
  have moved : ∀ x : DevTime, x.ns < 1000000000 →
      Lawful s (schedMoved s.nowNs (banksMoved s.nowNs { s.setFlag TIME_STATUS.VALID true with time := x })) := fun x hx =>
    .after (.ofSteady (.after (schedMoved_steady ..) (banksMoved_steady ..)))
      (.after (withTime_lawful x _ hx) (.ofSteady (setFlag_steady ..)))
  cases n with
  | incr v => exact .ofSteady (setClock_steady rfl)
  | step d => exact moved _ (timeOf_ns_lt _)
  | set sec ns => exact moved _ h

theorem foldl_applyNext_lawful (l : List TimeNext) (s : State) (h : ∀ n ∈ l, n.legal) :
    Lawful s (l.foldl (fun s n => applyNext n s) s) := by
  induction l generalizing s with
  | nil => exact .refl s
  | cons n l ih =>
    exact .after (ih _ fun m hm => h m (List.mem_cons_of_mem _ hm)) (applyNext_lawful (h n List.mem_cons_self))

/-- Time moves on by `d` units. -/
theorem elapse_lawful (d : Nat) (s : State) :
    Lawful s { s with ticks := s.ticks + 1, time := timeOf (s.time.units + d) } :=
  .after (withTime_lawful _ _ (timeOf_ns_lt _)) (.ofSteady (withTicks_steady (s.ticks + 1) s))

theorem clockTick_inv {s : State} (h : s.Inv) : (clockTick s).Inv := by
  have hl : ∀ n ∈ s.clock.next, n.legal := h.2.2
  unfold clockTick
  extract_lets c s1 d
  have h0 : Lawful s (setClock { s.clock with next := [] } s) := setClock_lawful (fun _ hn => nomatch hn)
  have h1 : Lawful s s1 := .after (.ofSteady (panicTick_steady ..)) (.after (foldl_applyNext_lawful _ _ hl) h0)
  clear_value d s1
  exact (elapse_lawful d s1).inv (h1.inv h)

/-- Settles O7: each command has its own lemma, gathered in `exec_answers`. -/
theorem commandsLeaveQueue : Obligations.CommandsLeaveQueue := by
  intro c s
  obtain ⟨t, ht, hl⟩ := exec_answers c s
  exact ⟨t, ht, hl.pending⟩

/-- Settles O6: a command keeps the invariant by `exec_answers`, a tick by `clockTick_inv`. -/
theorem stepKeepsInvariant : Obligations.StepKeepsInvariant := by
  intro s t hi h
  unfold step at h
  split at h
  next c rest hp =>
    obtain ⟨u, hu, hl⟩ := exec_answers c { s with pending := rest }
    have htu : t = u := Host.Outcome.next.inj (h.symm.trans hu)
    exact htu ▸ hl.inv hi
  · exact Host.Outcome.next.inj h ▸ clockTick_inv hi

end Sys2Proof.Machine
end

section
/-! PROOFS. One step, and the state after cold reset (R14, R432). -/

namespace Sys2Proof.Machine

/-! ### Cold reset -/

/-- The registers of the register tables, one by one. -/
def allRegs : List (Nat × RegDef) := regGroups.flatMap expandGroup

theorem resetRegs_eq_foldl : resetRegs = allRegs.foldl (fun m e => writeAt 0 m e.1 e.2.reset) [] := by
  rw [allRegs, List.foldl_flatMap]
  rfl

/-- The first address of a group and the one behind its last register. -/
def groupSpan (g : Nat × List RegDef) : Nat × Nat :=
  (g.1 + (g.2.map (·.off)).foldl min 0x1000000, g.1 + (g.2.map (fun r => r.off + r.count * r.stride)).foldl max 0)

theorem foldl_min_le (l : List Nat) (b : Nat) : l.foldl min b ≤ b ∧ ∀ x ∈ l, l.foldl min b ≤ x := by
  induction l generalizing b with
  | nil => exact ⟨Nat.le_refl b, fun _ h => nomatch h⟩
  | cons a l ih =>
    obtain ⟨hb, hl⟩ := ih (min b a)
    refine ⟨hb.trans (Nat.min_le_left b a), fun x hx => ?_⟩
    rcases List.mem_cons.1 hx with rfl | hx
    · exact hb.trans (Nat.min_le_right b x)
    · exact hl x hx

theorem le_foldl_max (l : List Nat) (b : Nat) : b ≤ l.foldl max b ∧ ∀ x ∈ l, x ≤ l.foldl max b := by
  induction l generalizing b with
  | nil => exact ⟨Nat.le_refl b, fun _ h => nomatch h⟩
  | cons a l ih =>
    obtain ⟨hb, hl⟩ := ih (max b a)
    refine ⟨(Nat.le_max_left b a).trans hb, fun x hx => ?_⟩
    rcases List.mem_cons.1 hx with rfl | hx
    · exact (Nat.le_max_right b x).trans hb
    · exact hl x hx

theorem mem_expandGroup {g : Nat × List RegDef} {e : Nat × RegDef} :
    e ∈ expandGroup g ↔ e.2 ∈ g.2 ∧ ∃ i < e.2.count, e.1 = g.1 + e.2.off + e.2.stride * i := by
  obtain ⟨a, r⟩ := e
  simp only [expandGroup, ← List.flatMap_def, List.mem_flatMap, List.mem_map, List.mem_range, Prod.mk.injEq]
  constructor
  · rintro ⟨q, hq, i, hi, rfl, rfl⟩
    exact ⟨hq, i, hi, rfl⟩
  · rintro ⟨hr, i, hi, rfl⟩
    exact ⟨r, hr, i, hi, rfl, rfl⟩

theorem expandGroup_in_span {g : Nat × List RegDef} {e : Nat × RegDef} (hs : ∀ r ∈ g.2, 0 < r.stride) (h : e ∈ expandGroup g) :
    (groupSpan g).1 ≤ e.1 ∧ e.1 < (groupSpan g).2 := by
  obtain ⟨hr, i, hi, ha⟩ := mem_expandGroup.1 h
  have hlo := (foldl_min_le (g.2.map (·.off)) 0x1000000).2 _ (List.mem_map.2 ⟨_, hr, rfl⟩)
  have hhi := (le_foldl_max (g.2.map (fun r => r.off + r.count * r.stride)) 0).2 _ (List.mem_map.2 ⟨_, hr, rfl⟩)
  have hlt : e.2.stride * i < e.2.count * e.2.stride := by
    rw [Nat.mul_comm]
    exact Nat.mul_lt_mul_of_pos_right hi (hs _ hr)
  simp only [groupSpan]
  omega

/-- The groups lie one behind the other. -/
theorem regGroups_apart : (regGroups.map groupSpan).Pairwise (fun a b => a.2 ≤ b.1) := by decide +kernel

theorem regGroups_stride : ∀ g ∈ regGroups, ∀ r ∈ g.2, 0 < r.stride := by decide +kernel

theorem expandGroup_nodup : ∀ g ∈ regGroups, ((expandGroup g).map (·.1)).Nodup := by
  have sorted : ∀ g ∈ regGroups, (((expandGroup g).map (·.1)).insertionSort (· ≤ ·)).IsChain (· < ·) := by decide +kernel
  intro g hg
  have perm := List.perm_insertionSort (· ≤ ·) ((expandGroup g).map (·.1))
  exact perm.nodup_iff.1 ((sorted g hg).pairwise.imp fun h => Nat.ne_of_lt h)

/-- No address names two registers of the register tables. -/
theorem allRegs_nodup : (allRegs.map (·.1)).Nodup := by
  rw [allRegs, List.map_flatMap, List.nodup_flatMap]
  refine ⟨expandGroup_nodup, ?_⟩
  refine (List.pairwise_map.1 regGroups_apart).imp_of_mem fun {g k} hg hk hlt => ?_
  rintro a ha hb
  obtain ⟨e, he, rfl⟩ := List.mem_map.1 ha
  obtain ⟨f, hf, hfe⟩ := List.mem_map.1 hb
  have h1 := (expandGroup_in_span (regGroups_stride g hg) he).2
  have h2 := (expandGroup_in_span (regGroups_stride k hk) hf).1
  omega

theorem readAt_foldl_of_notMem {l : List (Nat × RegDef)} {off : Nat} (m : Sparse 32) (h : off ∉ l.map (·.1)) :
    readAt 0 (l.foldl (fun m e => writeAt 0 m e.1 e.2.reset) m) off = readAt 0 m off := by
  induction l generalizing m with
  | nil => rfl
  | cons e l ih =>
    rw [List.map_cons, List.mem_cons, not_or] at h
    rw [List.foldl_cons, ih _ h.2, readAt_writeAt_ne _ _ h.1]

theorem readAt_foldl_of_mem {l : List (Nat × RegDef)} {off : Nat} {r : RegDef} (m : Sparse 32) (hl : (l.map (·.1)).Nodup)
    (h : (off, r) ∈ l) : readAt 0 (l.foldl (fun m e => writeAt 0 m e.1 e.2.reset) m) off = r.reset := by
  induction l generalizing m with
  | nil => cases h
  | cons e l ih =>
    rw [List.map_cons, List.nodup_cons] at hl
    rw [List.foldl_cons]
    rcases List.mem_cons.1 h with rfl | h
    · rw [readAt_foldl_of_notMem _ hl.1, readAt_writeAt_same]
    · exact ih _ hl.2 h

theorem mem_allRegs_of_findReg {off : Nat} {r : RegDef} (h : findReg off = some r) : (off, r) ∈ allRegs := by
  obtain ⟨g, hg, hr⟩ := List.exists_of_findSome?_eq_some h
  have hmem := List.mem_of_find?_eq_some hr
  have hp := List.find?_some hr
  simp only [Bool.and_eq_true, decide_eq_true_eq, beq_iff_eq] at hp
  obtain ⟨⟨hle, hlt⟩, hmod⟩ := hp
  refine List.mem_flatMap.2 ⟨g, hg, mem_expandGroup.2 ⟨hmem, (off - (g.1 + r.off)) / r.stride,
    Nat.div_lt_of_lt_mul (Nat.mul_comm .. ▸ hlt), ?_⟩⟩
  rw [Nat.mul_div_cancel' (Nat.dvd_of_mod_eq_zero hmod), Nat.add_sub_cancel' hle]

/-- Settles O4: cold reset writes each register of the tables once. -/
theorem resetGivesResetValues : Obligations.ResetGivesResetValues := by
  intro off r _ h
  rw [State.word, reset_regs, resetRegs_eq_foldl]
  exact readAt_foldl_of_mem _ allRegs_nodup (mem_allRegs_of_findReg h)

theorem reset_nvm : State.reset.nvm = [] := rfl

/-- Settles O5. -/
theorem resetHasInvariant : Obligations.ResetHasInvariant := by
  unfold Obligations.ResetHasInvariant State.Inv State.memoriesWf State.timeWf
  rw [reset_regs, reset_scratch, reset_smSram, reset_dram, reset_nvm, reset_time, reset_next]
  exact ⟨⟨resetRegs_wf, rfl, rfl, rfl, rfl⟩, by decide, fun _ h => nomatch h⟩

/-! ### Steps -/

/-- Settles O1. -/
theorem stepRunsFrontCommand : Obligations.StepRunsFrontCommand := by
  intro c rest s h
  rw [step, h]

end Sys2Proof.Machine
end

section
/-! PROOFS. Ticks of device time: what a tick leaves alone, and STEP and SET (R432, R434). -/

namespace Sys2Proof.Machine

/-! ### Changes that leave registers or memories alone -/

/-- The queue, the count of ticks and the memories. -/
def State.stores (s : State) : List Instr × Nat × Sparse 9 × Option Nat × Sparse 8 × Sparse 8 × Sparse 8 :=
  (s.pending, s.ticks, s.scratch, s.scratchLost, s.smSram, s.dram, s.nvm)

theorem sameMemory_of_stores {s t : State} (h : t.stores = s.stores) : SameMemory s t := by
  simp only [State.stores, Prod.mk.injEq] at h
  obtain ⟨-, -, hscratch, hlost, hsm, hdram, hnvm⟩ := h
  intro a
  simp only [State.scratchByte, hscratch, hlost, hsm, hdram, hnvm, and_self]

theorem ticks_of_stores {s t : State} (h : t.stores = s.stores) : t.ticks = s.ticks := congrArg (·.2.1) h

theorem pending_of_stores {s t : State} (h : t.stores = s.stores) : t.pending = s.pending := congrArg (·.1) h

theorem postEvent_stores {e : Event} (h : e.cls ≠ .fatal) (s : State) : (postEvent e s).stores = s.stores := by
  obtain ⟨r, c, l, hp, -⟩ := postEvent_frame h s
  rw [hp]
  rfl

theorem postEvent_word {e : Event} (h : e.cls ≠ .fatal) (s : State) {a : Nat} (ha : a ≠ CALL_OVERFLOW.COUNT.addr) :
    (postEvent e s).word a = s.word a := by
  obtain ⟨r, c, l, hp, hr⟩ := postEvent_frame h s
  rw [hp]
  exact hr a ha

namespace RegsBut

theorem refl (s : State) (as : List Nat) : RegsBut s s as := fun _ _ => rfl

theorem trans {s t u : State} {as : List Nat} (h : RegsBut s t as) (k : RegsBut t u as) : RegsBut s u as :=
  fun a ha => (k a ha).trans (h a ha)

theorem mono {s t : State} {as bs : List Nat} (h : RegsBut s t as) (hs : as ⊆ bs) : RegsBut s t bs :=
  fun a ha => h a fun hm => ha (hs hm)

theorem of_regs {s t : State} (h : t.regs = s.regs) (as : List Nat) : RegsBut s t as := fun _ _ => State.word_congr h _

theorem setFld {s t : State} {as : List Nat} (h : RegsBut s t as) {f : Fld} (hf : f.addr ∈ as) (n : Nat) :
    RegsBut s (t.setFld f n) as :=
  fun a ha => (State.word_setFld_ne t f n (a := a) fun he => ha (he ▸ hf)).trans (h a ha)

theorem postEvent {s t : State} {as : List Nat} (h : RegsBut s t as) {e : Event} (he : e.cls ≠ .fatal)
    (hf : CALL_OVERFLOW.COUNT.addr ∈ as) : RegsBut s (postEvent e t) as :=
  fun a ha => (postEvent_word he t (a := a) fun hc => ha (hc ▸ hf)).trans (h a ha)

end RegsBut

/-! ### DRAM ports at a tick (R380) -/

theorem panicPort_stores (s : State) (p : Nat) : (panicPort s p).stores = s.stores := by
  have hbegin : (panicBegin p s).stores = s.stores := by
    unfold panicBegin
    extract_lets first s1 s2
    split
    · exact postEvent_stores (by decide) _
    · rfl
  unfold panicPort
  split
  · rfl
  · split
    · exact hbegin
    · rfl
  · rfl
  · split <;> rfl

theorem foldl_stores {α : Type} (f : State → α → State) (h : ∀ s a, (f s a).stores = s.stores) (l : List α) (s : State) :
    (l.foldl f s).stores = s.stores := by
  induction l generalizing s with
  | nil => rfl
  | cons a l ih => exact (ih _).trans (h s a)

theorem panicTick_stores (s : State) : (panicTick s).stores = s.stores := foldl_stores _ panicPort_stores _ s

/-- With no port in panic and none that has panic enabled a tick leaves the ports alone. -/
theorem panicTick_of_idle {s : State} (h : panicIdle s = true) : panicTick s = s := by
  simp only [panicIdle, List.all_eq_true, Bool.and_eq_true, Option.isNone_iff_eq_none] at h
  have all : ∀ l : List Nat, (∀ p ∈ l, panicSince s p = none ∧ panicLevel s p = none) → l.foldl panicPort s = s := by
    intro l hl
    induction l with
    | nil => rfl
    | cons p l ih =>
      obtain ⟨hs, hp⟩ := hl p List.mem_cons_self
      have hport : panicPort s p = s := by simp only [panicPort, hs, hp]
      rw [List.foldl_cons, hport]
      exact ih fun q hq => hl q (List.mem_cons_of_mem _ hq)
  exact all _ h

/-! ### What waits for a tick (R433, R434) -/

/-- Time that moves changes the schedule's place in the clock and, where points are passed over, MISSED and the flag of it. -/
theorem schedMoved_frame (old : Nat) (s : State) :
    ∃ r c, schedMoved old s = { s with regs := r, clock := c } ∧ c.next = s.clock.next ∧ c.incr = s.clock.incr ∧
      ∀ a, a ∉ [TIME_SCHED_CTRL.MISSED.addr, TIME_EVENT.EVENT.addr] → readAt 0 r a = s.word a := by
  unfold schedMoved
  by_cases hon : schedOn s = false
  · rw [if_pos hon]
    exact ⟨_, _, rfl, rfl, rfl, fun _ _ => rfl⟩
  rw [if_neg hon]
  dsimp only
  by_cases hold : old ≤ s.nowNs
  · rw [if_pos hold]
    generalize gridFrom s (if s.time.frac = 0 then s.nowNs else s.nowNs + 1) = k
    by_cases hk : k - s.clock.grid = 0
    · rw [if_pos hk]
      exact ⟨_, _, rfl, rfl, rfl, fun _ _ => rfl⟩
    · rw [if_neg hk]
      have hregs := (RegsBut.refl s [TIME_SCHED_CTRL.MISSED.addr, TIME_EVENT.EVENT.addr]).setFld
        (f := TIME_SCHED_CTRL.MISSED) (by simp) (satAdd (2 ^ TIME_SCHED_CTRL.MISSED.width - 1) (s.fld TIME_SCHED_CTRL.MISSED)
          (k - s.clock.grid))
      exact ⟨_, _, rfl, rfl, rfl, hregs.setFld (f := TIME_EVENT.EVENT) (by simp) _⟩
  · rw [if_neg hold]
    exact ⟨_, _, rfl, rfl, rfl, fun _ _ => rfl⟩

theorem schedMoved_stores (old : Nat) (s : State) : (schedMoved old s).stores = s.stores := by
  obtain ⟨r, c, h, -⟩ := schedMoved_frame old s
  rw [h]
  rfl

theorem applyNext_stores (n : TimeNext) (s : State) : (applyNext n s).stores = s.stores := by
  cases n with
  | incr v => rfl
  | step d => exact schedMoved_stores ..
  | set sec ns => exact schedMoved_stores ..

/-- The state in which a tick lets time elapse. -/
def tickStart (s : State) : State :=
  panicTick (s.clock.next.foldl (fun s n => applyNext n s) (setClock { s.clock with next := [] } s))

/-- What device time gains at a tick (R432, R436). -/
def tickGain (s : State) : Nat :=
  if s.flag TIME_STATUS.RC_CLK then (if s.ticks % 8 = 7 then 8 * s.clock.incr else 0) else s.clock.incr

/-- A tick passes, and time gains `d` units. -/
def elapse (d : Nat) (s : State) : State := { s with ticks := s.ticks + 1, time := timeOf (s.time.units + d) }

theorem clockTick_eq (s : State) : clockTick s = elapse (tickGain (tickStart s)) (tickStart s) := by
  unfold clockTick tickStart
  generalize panicTick _ = u
  rfl

theorem tickStart_stores (s : State) : (tickStart s).stores = s.stores :=
  (panicTick_stores _).trans (foldl_stores _ (fun t n => applyNext_stores n t) ..)

/-- A tick counts itself and leaves the queue and the memories alone. -/
theorem clockTick_stores (s : State) :
    (clockTick s).ticks = s.ticks + 1 ∧ (clockTick s).pending = s.pending ∧ SameMemory s (clockTick s) := by
  have h := tickStart_stores s
  rw [clockTick_eq]
  generalize tickStart s = u at h ⊢
  have hstart := sameMemory_of_stores h
  have hpending : u.pending = s.pending := pending_of_stores h
  exact ⟨congrArg Nat.succ (ticks_of_stores h), hpending, fun a => hstart a⟩

/-! ### Units of device time -/

theorem timeOf_units (u : Nat) : (timeOf u).units = u % (2 ^ 48 * 1000000000 * 2 ^ 40) := by
  simp only [DevTime.units, timeOf, BitVec.toNat_ofNat]
  omega

/-- Settles O2. -/
theorem idleStepIsOneTick : Obligations.IdleStepIsOneTick := by
  constructor
  · intro s hp hn hrc hidle
    have htick : clockTick s = { s with ticks := s.ticks + 1, time := timeOf (s.time.units + s.clock.incr) } := by
      have hset : setClock { s.clock with next := [] } s = s := by
        rw [← hn]
        rfl
      rw [clockTick, hset, hn, List.foldl_nil, panicTick_of_idle hidle, hrc]
      rfl
    have hstep : step s = .next (clockTick s) := by rw [step, hp]
    refine ⟨_, hstep.trans (congrArg _ htick), rfl, timeOf_units _, timeOf_ns_lt _⟩
  · intro s hp
    have hstep : step s = .next (clockTick s) := by rw [step, hp]
    obtain ⟨hticks, hpending, hmem⟩ := clockTick_stores s
    exact ⟨_, hstep, hticks, hpending.trans hp, hmem⟩

/-! ### STEP and SET (R434) -/

/-- The panic of a port depends on nothing that STEP and SET change. -/
theorem panicIdle_congr {s t : State} (hmem : t.mem = s.mem) (hcue : t.cue = s.cue)
    (hon : t.word POWER_STATUS.ON.addr = s.word POWER_STATUS.ON.addr) : panicIdle t = panicIdle s := by
  have hdomain : t.domainOn 21 = s.domainOn 21 := by rw [State.domainOn, State.domainOn, State.fld, State.fld, hon]
  have htab (o n : Nat) : t.tab 0x28 0 o n = s.tab 0x28 0 o n := by rw [State.tab, State.tab, State.table, State.table, hcue]
  have hlevel (p : Nat) : panicLevel t p = panicLevel s p := by simp only [panicLevel, hdomain, htab, hmem]
  simp only [panicIdle, panicSince, hlevel, hmem]

/-- The state in which time is set to `x` at a tick, with nothing more to wait for. -/
def timeSet (x : DevTime) (s : State) : State :=
  schedMoved s.nowNs (banksMoved s.nowNs
    { (setClock { s.clock with next := [] } s).setFlag TIME_STATUS.VALID true with time := x })

/-- Registers that a change of time by STEP or SET touches. -/
def timeRegs : List Nat := [TIME_STATUS.VALID.addr, TIME_SCHED_CTRL.MISSED.addr, TIME_EVENT.EVENT.addr]

theorem timeSet_frame (x : DevTime) (s : State) :
    ∃ r c l, timeSet x s = { s with regs := r, clock := c, ledger := l, time := x } ∧ c.next = [] ∧ c.incr = s.clock.incr ∧
      readAt 0 r TIME_STATUS.VALID.addr = (s.setFlag TIME_STATUS.VALID true).word TIME_STATUS.VALID.addr ∧
      ∀ a, a ∉ timeRegs → readAt 0 r a = s.word a := by
  have hbanks (old : Nat) (u : State) : ∃ l, banksMoved old u = { u with ledger := l } := ⟨_, rfl⟩
  unfold timeSet
  obtain ⟨l, hl⟩ := hbanks s.nowNs { (setClock { s.clock with next := [] } s).setFlag TIME_STATUS.VALID true with time := x }
  rw [hl]
  obtain ⟨r, c, h, hn, hi, hr⟩ := schedMoved_frame s.nowNs
    { (setClock { s.clock with next := [] } s).setFlag TIME_STATUS.VALID true with time := x, ledger := l }
  refine ⟨r, c, l, h, hn, hi, hr _ (by decide), fun a ha => ?_⟩
  simp only [timeRegs, List.mem_cons, List.not_mem_nil, or_false, not_or] at ha
  exact (hr a (by simp [ha])).trans (State.word_setFld_ne _ _ _ ha.1)

/-- A tick at which STEP or SET acts: time is set to `x` and gains what a tick gains; the flag shows that it is valid. -/
theorem step_timeSet {s : State} {n : TimeNext} {x : DevTime} (hp : s.pending = [])
    (hn : s.clock.next = [n]) (hset : applyNext n (setClock { s.clock with next := [] } s) = timeSet x s) (hidle : panicIdle s = true) :
    ∃ t, step s = .next t ∧ t.time = timeOf (x.units + tickGain s) ∧ t.flag TIME_STATUS.VALID = true ∧ t.clock.next = [] ∧
      RegsBut s t timeRegs ∧ SameMemory s t := by
  have hstep : step s = .next (clockTick s) := by rw [step, hp]
  obtain ⟨r, c, l, hw, hnext, hincr, hvalid, hregs⟩ := timeSet_frame x s
  have hstart : tickStart s = timeSet x s := by
    rw [tickStart, hn, List.foldl_cons, List.foldl_nil, hset]
    refine panicTick_of_idle ?_
    rw [← hidle, hw]
    exact panicIdle_congr rfl rfl (hregs _ (by decide))
  have hgain : tickGain (timeSet x s) = tickGain s := by
    have hrc : (timeSet x s).flag TIME_STATUS.RC_CLK = s.flag TIME_STATUS.RC_CLK := by
      rw [← State.flag_setFld_apart s TIME_STATUS.RC_CLK TIME_STATUS.VALID (boolNat true) (by decide) (by decide), hw]
      exact congrArg (fun w : Word => w.toNat / 2 ^ TIME_STATUS.RC_CLK.lo % 2 ^ TIME_STATUS.RC_CLK.width != 0) hvalid
    rw [tickGain, hrc, hw]
    simp only [hincr, tickGain]
  refine ⟨_, hstep, ?_⟩
  have hmem := (clockTick_stores s).2.2
  rw [clockTick_eq, hstart, hgain] at hmem ⊢
  rw [hw] at hmem ⊢
  refine ⟨rfl, ?_, hnext, hregs, hmem⟩
  rw [← State.flag_setFlag_same s TIME_STATUS.VALID true (by decide) (by decide)]
  exact congrArg (fun w : Word => w.toNat / 2 ^ TIME_STATUS.VALID.lo % 2 ^ TIME_STATUS.VALID.width != 0) hvalid

/-- A bit set in a field reads as set. -/
theorem State.testBit_orBit_same (s : State) (f : Fld) (n : Nat) (h : f.fits = true) (hn : n < f.width) :
    ((s.orBit f n).fld f).testBit n = true := by
  rw [State.orBit, State.fld_setFld_same _ _ _ h, Nat.testBit_mod_two_pow, Nat.testBit_or]
  simp [hn]

/-- The state in which a refused command of TIME posts its event. -/
def timeRefusedAt (s : State) : State := (busOk 0 s).orBit TIME_EVENT.EVENT 1

theorem exec_time_refused {s : State} {c : Instr} (h : exec c s = .next (timeRefused (busOk 0 s))) :
    ∃ u, (u.fld TIME_EVENT.EVENT).testBit 1 = true ∧ OnlyRegs s u [TIME_EVENT.EVENT.addr] ∧
      exec c s = .next (postEvent { cls := .warning, block := 15, cause := 0x204, inst := 0xFF, detail := TIME_CMD.CMD.addr } u) ∧
      ∃ t, exec c s = .next t ∧ t.clock = s.clock ∧ t.time = s.time := by
  refine ⟨timeRefusedAt s, State.testBit_orBit_same _ _ _ (by decide) (by decide),
    (onlyRegs_busOk 0 s _).setFld (List.mem_singleton_self _) _, h, _, h, ?_⟩
  obtain ⟨r, k, l, hpost, -⟩ := postEvent_frame
    (e := { cls := .warning, block := 15, cause := 0x204, inst := 0xFF, detail := TIME_CMD.CMD.addr }) (by decide) (timeRefusedAt s)
  have ht : timeRefused (busOk 0 s) = { timeRefusedAt s with regs := r, call := k, ledger := l } := hpost
  rw [ht]
  exact ⟨rfl, rfl⟩

/-- Settles O3. -/
theorem stepAndSetActAtTheTick : Obligations.StepAndSetActAtTheTick := by
  unfold Obligations.StepAndSetActAtTheTick
  refine ⟨?step, ?set, ?stepTick, ?setTick, ?refused, fun s => ?recording⟩
  case step =>
    intro s h
    have h' : recording (busOk 0 s) = false := h
    rw [exec, execStep, h']
    rfl
  case set =>
    intro s h hns
    have h' : ¬(recording (busOk 0 s) = true ∨ 999999999 < (busOk 0 s).fld TIME_SET_NS.VALUE) :=
      not_or.2 ⟨ne_true_of_eq_false (show recording (busOk 0 s) = false from h), Nat.not_lt.2 hns⟩
    rw [exec, execSet]
    simp only [h', if_false]
    rfl
  case stepTick =>
    intro s d g hp hn hidle hg hlow hhigh
    obtain ⟨t, hstep, htime, hvalid, hnext, hregs, hmem⟩ := step_timeSet (x := s.time.plus d) hp hn rfl hidle
    refine ⟨t, hstep, ?_, hvalid, hnext, hregs, hmem⟩
    have hgain : tickGain s = g := hg.symm
    rw [htime, hgain, timeOf_units, DevTime.plus, timeOf_units]
    omega
  case setTick =>
    intro s sec ns g hp hn hidle hg hincr hsec hns
    obtain ⟨t, hstep, htime, hvalid, hnext, hregs, hmem⟩ :=
      step_timeSet (x := { sec := BitVec.ofNat 48 sec, ns := ns, frac := 0 }) hp hn rfl hidle
    refine ⟨t, hstep, ?_, hvalid, hnext, hregs, hmem⟩
    have hgain : tickGain s = g := hg.symm
    have hsmall : g < 2 ^ 45 := by
      rw [hg]
      split
      · split <;> omega
      · omega
    have hx : ({ sec := BitVec.ofNat 48 sec, ns := ns, frac := 0 } : DevTime).units = (sec * 1000000000 + ns) * 2 ^ 40 := by
      simp only [DevTime.units, BitVec.toNat_ofNat, BitVec.ofNat_eq_ofNat]
      omega
    rw [htime, hgain, timeOf_units, hx]
    omega
  case refused =>
    rintro s c (⟨rfl, h⟩ | ⟨rfl, h⟩)
    · have h' : recording (busOk 0 s) = true := h
      exact exec_time_refused (by rw [exec, execStep, if_pos h'])
    · have h' : recording (busOk 0 s) = true ∨ 999999999 < (busOk 0 s).fld TIME_SET_NS.VALUE := h
      exact exec_time_refused (by rw [exec, execSet, if_pos h'])
  case recording => rfl

end Sys2Proof.Machine
end

section
/-! PROOFS. Plain register writes by access code (R12, R13, R15), and wrong writes (R16, R17, R26, R32, R34). -/

namespace Sys2Proof.Machine

/-! ### Masks of the fields of a register -/

/-- The fields of a register share no bit. -/
def RegDef.apart (r : RegDef) : Bool := decide (r.fields.Pairwise fun f g => f.mask &&& g.mask = 0)

theorem regGroups_fields_apart : ∀ g ∈ regGroups, ∀ r ∈ g.2, r.apart = true := by decide +kernel

theorem apart_of_findReg {off : Nat} {r : RegDef} (h : findReg off = some r) : r.apart = true := by
  obtain ⟨g, hg, hr⟩ := List.exists_of_findSome?_eq_some h
  exact regGroups_fields_apart g hg r (List.mem_of_find?_eq_some hr)

theorem findReg_of_regAt {off : Nat} {r : RegDef} (h : regAt off = some r) : findReg off = some r := by
  unfold regAt at h
  split at h
  · cases h
  · split at h
    · exact h
    · cases h

theorem getLsbD_foldl_mask (p : FieldDef → Bool) (l : List FieldDef) (w : Word) (i : Nat) :
    (l.foldl (fun w f => if p f then w ||| f.mask else w) w).getLsbD i =
      (w.getLsbD i || l.any (fun f => p f && f.mask.getLsbD i)) := by
  induction l generalizing w with
  | nil => simp
  | cons f l ih =>
    rw [List.foldl_cons, ih, List.any_cons]
    cases p f <;> simp [Bool.or_assoc]

theorem RegDef.getLsbD_maskOf (r : RegDef) (p : FieldDef → Bool) (i : Nat) :
    (r.maskOf p).getLsbD i = r.fields.any (fun f => p f && f.mask.getLsbD i) := by
  rw [RegDef.maskOf, getLsbD_foldl_mask]
  simp

/-- Within a field a mask is what the field is picked by. -/
theorem RegDef.maskOf_in {r : RegDef} (hr : r.apart = true) {f : FieldDef} (hf : f ∈ r.fields) {i : Nat}
    (hi : f.mask.getLsbD i = true) (p : FieldDef → Bool) : (r.maskOf p).getLsbD i = p f := by
  rw [RegDef.getLsbD_maskOf]
  have hpair := of_decide_eq_true hr
  have only : ∀ g ∈ r.fields, g.mask.getLsbD i = true → g = f := by
    intro g hg hgi
    by_contra hne
    have : Std.Symm fun f g : FieldDef => f.mask &&& g.mask = 0 := ⟨fun a b h => (BitVec.and_comm ..).trans h⟩
    have hand := hpair.forall hg hf hne
    have hbit := congrArg (·.getLsbD i) hand
    simp [hgi, hi] at hbit
  rw [Bool.eq_iff_iff, List.any_eq_true]
  constructor
  · rintro ⟨g, hg, hgp⟩
    rw [Bool.and_eq_true] at hgp
    exact only g hg hgp.2 ▸ hgp.1
  · exact fun hp => ⟨f, hf, by rw [hp, hi]; rfl⟩

/-- Outside of all fields no mask has a bit. -/
theorem RegDef.maskOf_out {r : RegDef} {i : Nat} (hi : (r.maskOf (fun _ => true)).getLsbD i = false) (p : FieldDef → Bool) :
    (r.maskOf p).getLsbD i = false := by
  rw [RegDef.getLsbD_maskOf, List.any_eq_false] at hi ⊢
  intro f hf
  have := hi f hf
  simp only [Bool.true_and] at this
  simp [this]

/-! ### The word that a plain write leaves -/

/-- What a write of `v` makes of the word `w` of a register. -/
def plainWord (r : RegDef) (locked : Bool) (w v : Word) : Word := storeWritten r locked (clearWritten r w v) v

/-- Bit by bit: kept unless cleared or stored over. -/
theorem getLsbD_plainWord (r : RegDef) (locked : Bool) (w v : Word) {i : Nat} (hi : i < 32) :
    (plainWord r locked w v).getLsbD i =
      ((w.getLsbD i && !(v.getLsbD i && (r.maskOf (fun f => f.acc == .w1c)).getLsbD i ||
          (r.maskOf (fun f => f.acc == .w1cAll && (v &&& f.mask) != 0)).getLsbD i) &&
          !(r.maskOf (fun f => f.acc == .rw || (f.acc == .rwc && !locked))).getLsbD i) ||
        v.getLsbD i && (r.maskOf (fun f => f.acc == .rw || (f.acc == .rwc && !locked))).getLsbD i ||
        v.getLsbD i && (r.maskOf (fun f => f.acc == .w1s)).getLsbD i) := by
  have hall : (r.fields.foldl (fun m f => if f.acc == .w1cAll && (v &&& f.mask) != 0 then m ||| f.mask else m) (0 : Word)) =
    r.maskOf (fun f => f.acc == .w1cAll && (v &&& f.mask) != 0) := rfl
  simp only [plainWord, storeWritten, clearWritten, hall, BitVec.getLsbD_or, BitVec.getLsbD_and, BitVec.getLsbD_not, hi,
    decide_true, Bool.true_and]

/-- Each field by its access code (R12, R13, R15). -/
theorem plainWord_in {r : RegDef} (hr : r.apart = true) (locked : Bool) (w v : Word) {f : FieldDef} (hf : f ∈ r.fields) :
    (f.acc = .ro → plainWord r locked w v &&& f.mask = w &&& f.mask) ∧
    (f.acc = .rw → plainWord r locked w v &&& f.mask = v &&& f.mask) ∧
    (f.acc = .w1c → plainWord r locked w v &&& f.mask = w &&& ~~~v &&& f.mask) ∧
    (f.acc = .w1s → plainWord r locked w v &&& f.mask = (w ||| v) &&& f.mask) ∧
    (f.acc = .rwc → plainWord r locked w v &&& f.mask = (if locked then w else v) &&& f.mask) := by
  have key : ∀ u : Word, (∀ i < 32, f.mask.getLsbD i = true → (plainWord r locked w v).getLsbD i = u.getLsbD i) →
      plainWord r locked w v &&& f.mask = u &&& f.mask := by
    intro u h
    apply BitVec.eq_of_getLsbD_eq
    intro i hi
    rw [BitVec.getLsbD_and, BitVec.getLsbD_and]
    cases hm : f.mask.getLsbD i with
    | false => rw [Bool.and_false, Bool.and_false]
    | true => rw [h i hi hm]
  refine ⟨fun h => key _ ?_, fun h => key _ ?_, fun h => key _ ?_, fun h => key _ ?_, fun h => key _ ?_⟩ <;> intro i hi hm <;>
    rw [getLsbD_plainWord r locked w v hi] <;> simp only [RegDef.maskOf_in hr hf hm, h]
  · simp [beq_eq_decide]
  · simp [beq_eq_decide]
  · simp [beq_eq_decide, hi]
  · simp [beq_eq_decide]
  · cases locked <;> simp [beq_eq_decide]

theorem plainWord_out (r : RegDef) (locked : Bool) (w v : Word) :
    plainWord r locked w v &&& ~~~(r.maskOf (fun _ => true)) = w &&& ~~~(r.maskOf (fun _ => true)) := by
  apply BitVec.eq_of_getLsbD_eq
  intro i hi
  rw [BitVec.getLsbD_and, BitVec.getLsbD_and, BitVec.getLsbD_not]
  cases hm : (r.maskOf (fun _ => true)).getLsbD i with
  | true => simp
  | false =>
    rw [getLsbD_plainWord r locked w v hi]
    simp [RegDef.maskOf_out hm]

/-! ### What a plain write changes beside its register -/

theorem shadowWrite_frame (off : Nat) (v : Word) (s : State) : ∃ x, shadowWrite off v s = { s with view := x } := by
  unfold shadowWrite
  extract_lets m cur new
  split
  · exact ⟨s.view, rfl⟩
  · exact ⟨_, rfl⟩

theorem overlayWrite_frame (off : Nat) (v : Word) (s : State) :
    ∃ r c l q, overlayWrite off v s = { s with regs := r, call := c, ledger := l, cue := q } ∧
      ∀ a, a ≠ CALL_OVERFLOW.COUNT.addr → readAt 0 r a = s.word a := by
  unfold overlayWrite
  extract_lets ov
  split
  · obtain ⟨r, c, l, h, hr⟩ := postEvent_frame
      (e := { cls := .warning, block := 1, cause := 0x204, inst := 0xFF, detail := off }) (by simp) s
    exact ⟨r, c, l, s.cue, h, hr⟩
  · exact ⟨s.regs, s.call, s.ledger, _, rfl, fun _ _ => rfl⟩

theorem shadowedWrite_frame (off : Nat) (v : Word) (s : State) :
    ∃ r c l q x, shadowedWrite off v s = { s with regs := r, call := c, ledger := l, cue := q, view := x } ∧
      ∀ a, a ≠ CALL_OVERFLOW.COUNT.addr → readAt 0 r a = s.word a := by
  unfold shadowedWrite
  split
  · exact ⟨s.regs, s.call, s.ledger, s.cue, s.view, rfl, fun _ _ => rfl⟩
  · obtain ⟨x, hx⟩ := shadowWrite_frame off v s
    rw [hx]
    split
    · exact ⟨s.regs, s.call, s.ledger, s.cue, x, rfl, fun _ _ => rfl⟩
    · obtain ⟨r, c, l, q, h, hr⟩ := overlayWrite_frame off v { s with view := x }
      exact ⟨r, c, l, q, x, h, hr⟩

theorem plainWrite_frame (r : RegDef) (off : Nat) (v : Word) (s : State) :
    ∃ m c l q x, plainWrite r off v s = { s with regs := m, call := c, ledger := l, cue := q, view := x } ∧
      ∀ a, a ≠ CALL_OVERFLOW.COUNT.addr → readAt 0 m a = (s.setWord off (storeWritten r s.cue.locked (s.word off) v)).word a := by
  unfold plainWrite
  extract_lets s1 s2
  have h2 : ∃ m c l, s2 = { s1 with regs := m, call := c, ledger := l } ∧
      ∀ a, a ≠ CALL_OVERFLOW.COUNT.addr → readAt 0 m a = s1.word a := by
    unfold s2
    split
    · exact postEvent_frame (e := { cls := .warning, block := _, cause := 0x200, inst := _, detail := off }) (by simp) s1
    · exact ⟨s1.regs, s1.call, s1.ledger, rfl, fun _ _ => rfl⟩
  obtain ⟨m, c, l, hs2, hm⟩ := h2
  rw [hs2]
  split
  · obtain ⟨r', c', l', q, x, h, hr⟩ := shadowedWrite_frame off v { s1 with regs := m, call := c, ledger := l }
    exact ⟨r', c', l', q, x, h, fun a ha => (hr a ha).trans (hm a ha)⟩
  · exact ⟨m, c, l, s.cue, s.view, rfl, hm⟩

theorem alertUpdate_frame (s : State) :
    ∃ r m, alertUpdate s = { s with regs := r, mgmt := m } ∧
      ∀ a, a ∉ [MGMT_ALERT_SRC.CALL.addr, MGMT_STATUS.ALERT.addr] → readAt 0 r a = s.word a := by
  have hword (a : Nat) (ha : a ∉ [MGMT_ALERT_SRC.CALL.addr, MGMT_STATUS.ALERT.addr]) : (alertUpdate s).word a = s.word a := by
    simp only [List.mem_cons, List.not_mem_nil, or_false, not_or] at ha
    exact alertUpdate_keeps_word s ha.1 ha.2
  refine ⟨(alertUpdate s).regs, (alertUpdate s).mgmt, ?_, hword⟩
  unfold alertUpdate
  extract_lets s1 active fresh s2
  unfold s2
  split <;> rfl

theorem writeAlert_frame (off : Nat) (s : State) :
    ∃ r m, writeAlert off s = { s with regs := r, mgmt := m } ∧
      ∀ a, a ∉ [MGMT_ALERT_SRC.CALL.addr, MGMT_STATUS.ALERT.addr] → readAt 0 r a = s.word a := by
  unfold writeAlert
  split
  · exact alertUpdate_frame s
  · exact ⟨s.regs, s.mgmt, rfl, fun _ _ => rfl⟩

/-! ### The obligation on plain writes -/

/-- A 32-bit write of a register that commands nothing. -/
theorem exec_registerWrite_plain {s : State} {side : Side} {addr : BitVec 40} {v : Word} {off : Nat} {r : RegDef}
    (ht : busTarget s side addr.toNat 4 = .reg off) (h4 : off % 4 = 0) (hc : clockStopped s off = false)
    (hr : regAt off = some r) (hp : wrongPlane side off = false) (hoff : regOff s off = false)
    (hn : ∀ u, regCommand side off v u = none) :
    exec (.registerWrite side addr .word v) s = .next (writeAlert off (plainWrite r off v
      ((busOk 0 s).setWord off (clearWritten r (s.word off) v)))) := by
  have hoff' : regOff (busOk 0 s) off = false := hoff
  have hbus : busWrite side addr.toNat .word v s = regWrite side off v s := by
    simp only [busWrite, accessBytes, ht]
    rw [if_neg (by simp [h4, hc])]
  have hreg : regWrite side off v s = .next (writeAlert off (plainWrite r off v
      ((busOk 0 s).setWord off (clearWritten r ((busOk 0 s).word off) v)))) := by
    simp only [regWrite, hr, hp, hoff', hn, Bool.false_eq_true, if_false]
  exact hbus.trans hreg

/-- Settles O8. -/
theorem registerWriteFollowsAccessCodes : Obligations.RegisterWriteFollowsAccessCodes := by
  intro s side addr v off r ht h4 hc hr hp hoff hn hne
  simp only [List.mem_append, not_or] at hne
  obtain ⟨hevent, halert⟩ := hne
  have hover : off ≠ CALL_OVERFLOW.COUNT.addr := fun h => hevent (by simp [eventRegs, h])
  obtain ⟨m, c, l, q, x, hplain, hm⟩ := plainWrite_frame r off v ((busOk 0 s).setWord off (clearWritten r (s.word off) v))
  obtain ⟨m', g, halert', hm'⟩ := writeAlert_frame off
    { (busOk 0 s).setWord off (clearWritten r (s.word off) v) with regs := m, call := c, ledger := l, cue := q, view := x }
  have hexec := exec_registerWrite_plain ht h4 hc hr hp hoff hn
  rw [hplain, halert'] at hexec
  have hword : readAt 0 m' off = plainWord r s.cue.locked (s.word off) v := by
    rw [hm' off halert]
    refine (hm off hover).trans ?_
    rw [State.word_setWord_same, State.word_setWord_same]
    rfl
  have hapart := apart_of_findReg (findReg_of_regAt hr)
  refine ⟨_, hexec, rfl, fun f hf => ?_, ?_, fun a ha => ?_, fun _ => ⟨rfl, rfl, rfl, rfl⟩⟩
  · rw [State.word, hword]
    exact plainWord_in hapart s.cue.locked (s.word off) v hf
  · rw [State.word, hword]
    exact plainWord_out ..
  · rw [List.mem_append, List.mem_cons, not_or, not_or] at ha
    obtain ⟨⟨hself, hev⟩, hal⟩ := ha
    have hcount : a ≠ CALL_OVERFLOW.COUNT.addr := fun h => hev (by simp [eventRegs, h])
    refine (hm' a hal).trans ((hm a hcount).trans ?_)
    rw [State.word_setWord_ne _ _ hself, State.word_setWord_ne _ _ hself]
    rfl

/-! ### Bytes of scratch SRAM -/

theorem getLsbD_writtenCell (b : Byte) : (writtenCell b).getLsbD 8 = true := by
  rw [writtenCell, BitVec.getLsbD_or]
  simp

theorem setWidth_writtenCell (b : Byte) : (writtenCell b).setWidth 8 = b := by
  apply BitVec.eq_of_getLsbD_eq
  intro i hi
  simp [writtenCell, hi]

theorem scratchByte_writeScratch_in (s : State) (a : Nat) (bs : List Byte) {i : Nat} (h : i < bs.length) :
    (s.writeScratch a bs).scratchByte (a + i) = bs[i] := by
  have hcell : readAt 0 (s.writeScratch a bs).scratch (a + i) = writtenCell bs[i] := by
    refine (readAt_writeList_in s.scratch a (bs.map writtenCell) (by simpa using h)).trans ?_
    rw [List.getElem_map]
  simp only [State.scratchByte, hcell, getLsbD_writtenCell, if_true, setWidth_writtenCell]

theorem scratchByte_writeScratch_out (s : State) (a : Nat) (bs : List Byte) {b : Nat} (h : b < a ∨ a + bs.length ≤ b) :
    (s.writeScratch a bs).scratchByte b = s.scratchByte b := by
  have hcell : readAt 0 (s.writeScratch a bs).scratch b = readAt 0 s.scratch b :=
    readAt_writeList_ne s.scratch a (bs.map writtenCell) (by simpa using h)
  have hlost : (s.writeScratch a bs).scratchLost = s.scratchLost := rfl
  simp only [State.scratchByte, hcell, hlost]

/-- The bytes of a word, low byte first. -/
theorem getElem_leBytes_word (v : Word) {i : Nat} (h : i < ((leBytes 4 v.toNat).take 4).length) :
    ((leBytes 4 v.toNat).take 4)[i] = v.extractLsb' (8 * i) 8 := by
  have h4 : i < 4 := by simpa [leBytes] using h
  apply BitVec.eq_of_toNat_eq
  simp only [leBytes, List.getElem_take, List.getElem_map, List.getElem_range, BitVec.toNat_ofNat, BitVec.extractLsb'_toNat,
    Nat.shiftRight_eq_div_pow]
  rw [show (256 : Nat) = 2 ^ 8 by rfl, ← pow_mul]

/-! ### Wrong writes and accesses outside the map -/

/-- A bus access outside the map (R17, R32, R34). -/
theorem refuseAccess_frame (side : Side) (addr : Nat) (s : State) :
    ∃ r c l, refuseAccess side addr s = { s with regs := r, sys := (busError s).sys, call := c, ledger := l } ∧
      ∀ a, a ≠ CALL_OVERFLOW.COUNT.addr → readAt 0 r a = s.word a :=
  postEvent_frame (e := { cls := .recoverable, block := 0, cause := 0x202, inst := sideInst side, detail := addr % 2 ^ 32 })
    (by simp) (busError s)

/-- Settles O9. -/
theorem wrongWritesAreRefused : Obligations.WrongWritesAreRefused := by
  unfold Obligations.WrongWritesAreRefused
  refine ⟨?narrow, ?plane, ?scratch, ?unmapped⟩
  case narrow =>
    intro s side addr size v off hsize ht
    simp only [exec, execRegisterWrite, busWrite, ht]
    rw [if_pos (.inl hsize)]
  case plane =>
    intro s c addr v off b r ht h4 hc hr hm hb
    have hp : wrongPlane (.company c) off = true := by rw [wrongPlane, hm, Bool.true_or]
    simp only [exec, execRegisterWrite, busWrite, accessBytes, ht]
    rw [if_neg (by simp [h4, hc])]
    simp only [regWrite, hr, hp, if_true, hb]
    rfl
  case scratch =>
    intro s c addr v off ht hg
    have hexec : exec (.registerWrite (.company c) addr .word v) s =
        .next ((busOk 0 s).writeScratch off ((leBytes 4 v.toNat).take 4)) := by
      have hng : guarded s off 4 = false := by simp [guarded, hg]
      simp only [exec, execRegisterWrite, busWrite, accessBytes, ht, hng, Bool.false_eq_true, if_false]
    have hlen : ((leBytes 4 v.toNat).take 4).length = 4 := by simp [leBytes]
    refine ⟨_, hexec, rfl, fun i hi => ?_, fun a ha => ?_⟩
    · rw [scratchByte_writeScratch_in _ _ _ (hlen ▸ hi), getElem_leBytes_word]
    · rw [scratchByte_writeScratch_out _ _ _ (hlen ▸ ha)]
      rfl
  case unmapped =>
    intro s side addr write ht
    have hexec : exec (.unmappedAccess side addr write) s = .next (refuseAccess side addr.toNat s) := by
      simp only [exec, execUnmappedAccess, ht]
    obtain ⟨r, c, l, h, hr⟩ := refuseAccess_frame side addr.toNat s
    refine ⟨_, hexec, ?_, rfl, ?_, fun a ha => ?_⟩
    · rw [h]
      rfl
    · rw [h]
    · rw [h]
      exact hr a fun hc => ha (by simp [eventRegs, hc])

end Sys2Proof.Machine
end

section
/-! PROOFS. What resets, powered-off domains and the safe state leave of the registers (R14, R532, R560). -/

namespace Sys2Proof.Machine

/-! ### Groups of registers reset -/

/-- A register of which only the bits of the kept fields stay. -/
def resetWord (r : RegDef) (keep : FieldDef → Bool) (w : Word) : Word := (w &&& r.maskOf keep) ||| (r.reset &&& ~~~r.maskOf keep)

theorem readAt_resetFields_of_notMem {l : List (Nat × RegDef)} {off : Nat} (m : Sparse 32) (keep : FieldDef → Bool)
    (h : off ∉ l.map (·.1)) : readAt 0 (l.foldl (fun m e => resetFields m e.1 e.2 keep) m) off = readAt 0 m off := by
  induction l generalizing m with
  | nil => rfl
  | cons e l ih =>
    rw [List.map_cons, List.mem_cons, not_or] at h
    rw [List.foldl_cons, ih _ h.2, resetFields, readAt_writeAt_ne _ _ h.1]

theorem readAt_resetFields_of_mem {l : List (Nat × RegDef)} {off : Nat} {r : RegDef} (m : Sparse 32) (keep : FieldDef → Bool)
    (hl : (l.map (·.1)).Nodup) (h : (off, r) ∈ l) :
    readAt 0 (l.foldl (fun m e => resetFields m e.1 e.2 keep) m) off = resetWord r keep (readAt 0 m off) := by
  induction l generalizing m with
  | nil => cases h
  | cons e l ih =>
    rw [List.map_cons, List.nodup_cons] at hl
    rw [List.foldl_cons]
    rcases List.mem_cons.1 h with rfl | h
    · rw [readAt_resetFields_of_notMem _ _ hl.1, resetFields, readAt_writeAt_same]
      rfl
    · have hne : off ≠ e.1 := fun he => hl.1 (he ▸ List.mem_map.2 ⟨_, h, rfl⟩)
      rw [ih _ hl.2 h, resetFields, readAt_writeAt_ne _ _ hne]

theorem resetGroups_eq_foldl (m : Sparse 32) (gs : List (Nat × List RegDef)) (keep : FieldDef → Bool) :
    resetGroups m gs keep = (gs.flatMap expandGroup).foldl (fun m e => resetFields m e.1 e.2 keep) m := by
  rw [List.foldl_flatMap]
  rfl

/-- Every group reset: a register keeps the bits of the kept fields. -/
theorem readAt_resetGroups_all {off : Nat} {r : RegDef} (h : findReg off = some r) (m : Sparse 32) (keep : FieldDef → Bool) :
    readAt 0 (resetGroups m regGroups keep) off = resetWord r keep (readAt 0 m off) := by
  rw [resetGroups_eq_foldl]
  exact readAt_resetFields_of_mem m keep allRegs_nodup (mem_allRegs_of_findReg h)

/-- Some groups reset: a register outside them stays. -/
theorem readAt_resetGroups_out {off : Nat} {gs : List (Nat × List RegDef)} (hs : ∀ g ∈ gs, ∀ r ∈ g.2, 0 < r.stride)
    (h : ∀ g ∈ gs, off < (groupSpan g).1 ∨ (groupSpan g).2 ≤ off) (m : Sparse 32) (keep : FieldDef → Bool) :
    readAt 0 (resetGroups m gs keep) off = readAt 0 m off := by
  rw [resetGroups_eq_foldl]
  refine readAt_resetFields_of_notMem m keep fun hmem => ?_
  obtain ⟨e, he, rfl⟩ := List.mem_map.1 hmem
  obtain ⟨g, hg, heg⟩ := List.mem_flatMap.1 he
  have hspan := expandGroup_in_span (hs g hg) heg
  have := h g hg
  omega

/-! ### Warm reset -/

theorem word_foldl_setFld {fs : List Fld} (v : Fld → Nat) (t : State) {a : Nat} (h : a ∉ fs.map (·.addr)) :
    (fs.foldl (fun t f => t.setFld f (v f)) t).word a = t.word a := by
  induction fs generalizing t with
  | nil => rfl
  | cons f fs ih =>
    rw [List.map_cons, List.mem_cons, not_or] at h
    rw [List.foldl_cons, ih _ h.2, State.word_setFld_ne _ _ _ h.1]

/-- After a warm reset a register shows its RS fields as they were and its other fields at Reset (R14). -/
theorem word_warmReset {s : State} {off : Nat} {r : RegDef} (h : findReg off = some r)
    (hl : off ∉ liveFields.map (·.addr)) : (warmReset s).word off = resetWord r (fun f => f.rs) (s.word off) := by
  have hregs : (warmReset s).word off = readAt 0 (warmRegs s) off := rfl
  rw [hregs, warmRegs]
  have hgroups := readAt_resetGroups_all h s.regs (fun f => f.rs)
  revert hl hgroups
  generalize liveFields = fs
  generalize regGroups = gs
  intro hl hgroups
  exact (word_foldl_setFld s.fld _ hl).trans hgroups

/-- The word that a field's value is read from. -/
theorem State.fld_of_word {s : State} {f : Fld} {w : Word} (h : s.word f.addr = w) : s.fld f = w.toNat / 2 ^ f.lo % 2 ^ f.width := by
  rw [State.fld, h]

theorem resetWord_of_none {r : RegDef} {keep : FieldDef → Bool} (h : r.maskOf keep = 0) (w : Word) :
    resetWord r keep w = r.reset := by
  rw [resetWord, h]
  exact (congrArg (_ ||| ·) BitVec.and_allOnes).trans (by simp)

/-- A warm reset is the start of Dawn (R44). -/
theorem mode_warmReset (s : State) : (warmReset s).mode = 1 := by
  have hreg : ∃ r, findReg CUE_STATUS.MODE.addr = some r ∧ r.maskOf (fun f => f.rs) = 0 ∧ r.reset = 1 := by
    refine ⟨_, rfl, ?_, ?_⟩ <;> decide
  obtain ⟨r, hr, hm, hw⟩ := hreg
  exact State.fld_of_word ((word_warmReset hr (by decide)).trans ((resetWord_of_none hm _).trans hw))
/-! ### What lies outside every power domain -/

/-- What no switched power domain holds. -/
def State.board (s : State) : List Instr × Nat × DevTime × Nat × Option Nat × Sparse 8 × Sparse 8 × SysState × CueState × CallState ×
    PowerState × TrustState × TimeState × MgmtState :=
  (s.pending, s.ticks, s.time, s.free, s.scratchLost, s.smSram, s.nvm, s.sys, s.cue, s.call, s.power,
    { s.trust with sign := none }, s.clock, s.mgmt)

/-- Registers outside the blocks of the switched power domains, but for the two that show a domain and its loss. -/
def boardReg (a : Nat) : Bool :=
  (decide (a < 0x40000) || decide (0x480000 ≤ a)) && a != POWER_STATUS.ON.addr && a != TRUST_SIGN_CTRL.BUSY.addr

/-- A change within the switched power domains. -/
structure WithinDomains (s t : State) : Prop where
  board : t.board = s.board
  regs : ∀ a, boardReg a = true → t.word a = s.word a

namespace WithinDomains

theorem refl (s : State) : WithinDomains s s := ⟨rfl, fun _ _ => rfl⟩

theorem trans {s t u : State} (h : WithinDomains s t) (k : WithinDomains t u) : WithinDomains s u :=
  ⟨k.board.trans h.board, fun a ha => (k.regs a ha).trans (h.regs a ha)⟩

/-- The last change first. -/
theorem after {s t u : State} (k : WithinDomains t u) (h : WithinDomains s t) : WithinDomains s u := h.trans k

theorem ite {p : Prop} [Decidable p] {s t u : State} (h : p → WithinDomains s t) (k : ¬p → WithinDomains s u) :
    WithinDomains s (if p then t else u) := by
  split <;> rename_i hp
  · exact h hp
  · exact k hp

theorem foldl {α : Type} (f : State → α → State) (l : List α) (h : ∀ a ∈ l, ∀ s, WithinDomains s (f s a)) (s : State) :
    WithinDomains s (l.foldl f s) := by
  induction l generalizing s with
  | nil => exact refl s
  | cons a l ih =>
    exact (h a List.mem_cons_self s).trans (ih (fun b hb => h b (List.mem_cons_of_mem _ hb)) (f s a))

theorem of_eq {s t : State} (h : t.board = s.board) (hr : t.regs = s.regs) : WithinDomains s t :=
  ⟨h, fun _ _ => State.word_congr hr _⟩

theorem setFld (s : State) (f : Fld) (n : Nat) (h : boardReg f.addr = false) : WithinDomains s (s.setFld f n) :=
  ⟨rfl, fun a ha => State.word_setFld_ne s f n fun he => by rw [he, h] at ha; cases ha⟩

theorem setFlag (s : State) (f : Fld) (b : Bool) (h : boardReg f.addr = false) : WithinDomains s (s.setFlag f b) :=
  setFld s f _ h

end WithinDomains

theorem boardReg_of_block {a : Nat} (h : 0x40000 ≤ a) (h' : a < 0x480000) : boardReg a = false := by
  have h1 : ¬ a < 0x40000 := by omega
  have h2 : ¬ 0x480000 ≤ a := by omega
  simp [boardReg, h1, h2]

theorem showFree_within (s : State) : WithinDomains s (showFree s) :=
  .trans (.trans (.trans (.setFld _ _ _ (by decide)) (.setFld _ _ _ (by decide))) (.setFld _ _ _ (by decide)))
    (.setFld _ _ _ (by decide))

theorem releaseBuf_within (p k : Nat) (s : State) : WithinDomains s (releaseBuf p k s) := by
  unfold releaseBuf
  split
  · exact .after (showFree_within _) (.of_eq rfl rfl)
  · exact .refl s

theorem giveBack_fold_within (l : List HeadOut) (s : State) : WithinDomains s (l.foldl (fun s o => giveBack o s) s) :=
  .foldl _ l (fun o _ s => releaseBuf_within o.port o.buf s) s

theorem laneStop_within {l : Nat} (hl : l < 26) (s : State) : WithinDomains s (laneStop l s) := by
  have hb : boardReg (LANE_STATUS.RATE l).addr = false :=
    boardReg_of_block (by simp only [LANE_STATUS.RATE]; omega) (by simp only [LANE_STATUS.RATE]; omega)
  exact .after (.setFlag _ _ _ hb) <| .after (.setFlag _ _ _ hb) <| .after (.setFlag _ _ _ hb) <| .after (.setFlag _ _ _ hb) <|
    .after (.setFlag _ _ _ hb) <| .after (.setFlag _ _ _ hb) <| .after (.setFld _ _ _ hb) (.of_eq rfl rfl)

theorem lanesStop_within {ls : List Nat} (hl : ∀ l ∈ ls, l < 26) (s : State) : WithinDomains s (lanesStop ls s) :=
  .foldl _ ls (fun l h s => laneStop_within (hl l h) s) s

theorem creditReturn_within (p n : Nat) (s : State) : WithinDomains s (creditReturn p n s) := .of_eq rfl rfl

theorem setPool_within (p : PoolState) (s : State) : WithinDomains s (setPool p s) := .of_eq rfl rfl

theorem setPipe_within (p : PipeState) (s : State) : WithinDomains s { s with pipe := p } := .of_eq rfl rfl

theorem poolShow_within (s : State) : WithinDomains s (poolShow s) :=
  .after (.setFld _ _ _ (by decide)) (.setFld _ _ _ (by decide))

theorem poolChange_within (h : Nat) (f : PoolHandle → PoolHandle) (s : State) : WithinDomains s (poolChange h f s) := by
  unfold poolChange
  split
  · exact .refl s
  · exact (setPool_within ..).trans <|
      (WithinDomains.ite (fun _ => creditReturn_within ..) (fun _ => .refl _)).trans (poolShow_within _)

theorem offHeve_within (e : Nat) (s : State) : WithinDomains s (offHeve e s) := by
  unfold offHeve
  exact .after (giveBack_fold_within ..) (.of_eq rfl rfl)

theorem boardReg_heveStatus {e : Nat} (he : e < 2) : boardReg (HEVE_STATUS.BUSY e).addr = false :=
  boardReg_of_block (by simp only [HEVE_STATUS.BUSY]; omega) (by simp only [HEVE_STATUS.BUSY]; omega)

theorem stopHeve_within {e : Nat} (he : e < 2) (s : State) : WithinDomains s (stopHeve e s) := by
  unfold stopHeve
  exact .after (.setFlag _ _ _ (boardReg_heveStatus he)) <| .after (.setFlag _ _ _ (boardReg_heveStatus he)) <|
    .after (giveBack_fold_within ..) (.of_eq rfl rfl)

theorem offPipe_within (s : State) : WithinDomains s (offPipe s) := by
  unfold offPipe
  exact .after (setPipe_within ..) (.after (.foldl _ _ (fun _ _ _ => poolChange_within ..) _)
    (.foldl _ _ (fun _ _ _ => creditReturn_within ..) _))

theorem offMag_within {k : Nat} (hk : k < 2) (s : State) : WithinDomains s (offMag k s) := by
  unfold offMag
  refine .after (lanesStop_within ?_ _) (.of_eq rfl rfl)
  intro l hl
  obtain ⟨i, hi, rfl⟩ := List.mem_map.1 hl
  rw [List.mem_range] at hi
  omega

theorem offKlink_within (s : State) : WithinDomains s (offKlink s) := by
  unfold offKlink
  exact .after (lanesStop_within (by decide) _) (.of_eq rfl rfl)

theorem offMotion_within (s : State) : WithinDomains s (offMotion s) :=
  WithinDomains.trans (t := (s.setFld LEDGER_PIN_STATUS.LEVEL 0).setFld LEDGER_PIN_STATUS.OUT 0)
    (.after (.setFld _ _ _ (by decide)) (.setFld _ _ _ (by decide))) (.of_eq rfl rfl)

theorem hiddenOff_within (d : Nat) (s : State) : WithinDomains s (hiddenOff d s) := by
  unfold hiddenOff
  refine .ite (fun _ => .of_eq rfl rfl) fun _ => .ite (fun _ => .of_eq rfl rfl) fun _ =>
    .ite (fun _ => .ite (fun _ => .refl s) fun _ => offPipe_within s) fun _ => .ite (fun _ => .of_eq rfl rfl) fun _ =>
    .ite (fun _ => .ite (fun _ => .refl s) fun _ => .of_eq rfl rfl) fun _ => .ite (fun _ => offHeve_within ..) fun _ =>
    .ite (fun _ => .of_eq rfl rfl) fun _ => .ite (fun _ => .of_eq rfl rfl) fun _ =>
    .ite (fun _ => .ite (fun _ => .of_eq rfl rfl) fun _ => .of_eq rfl rfl) fun _ => .ite (fun hd => offMag_within ?_ s) fun _ =>
    .ite (fun _ => offKlink_within s) fun _ => .ite (fun _ => .after (lanesStop_within (by decide) _) (.of_eq rfl rfl)) fun _ =>
    .ite (fun _ => .of_eq rfl rfl) fun _ => .ite (fun _ => offMotion_within s) fun _ =>
    .ite (fun _ => .of_eq rfl rfl) fun _ => .refl s
  omega

/-! ### Powered-off domains -/

/-- The groups that any domain loses lie within the blocks of the domains. -/
theorem domainGroups_in_blocks : ∀ d < 30, ∀ g ∈ domainGroups d, g ∈ regGroups ∧ 0x40000 ≤ (groupSpan g).1 ∧
    (groupSpan g).2 ≤ 0x480000 := by decide +kernel

theorem domainKeeps_within (d : Nat) (s t : State) : WithinDomains t (domainKeeps d s t) :=
  .ite (fun _ => .trans (.setFld _ _ _ (by decide)) (.setFlag _ _ _ (by decide))) fun _ =>
    .ite (fun _ => .setFlag _ _ _ (by decide)) fun _ => .refl t

theorem groupsLost_in_blocks {d : Nat} (hd : d < 30) (s : State) {g : Nat × List RegDef} (hg : g ∈ groupsLost s d) :
    g ∈ regGroups ∧ 0x40000 ≤ (groupSpan g).1 ∧ (groupSpan g).2 ≤ 0x480000 := by
  have hshared : ∀ d < 30, ∀ k ∈ sharedWith d, k < 30 := by decide
  have hcommon : (0x240000, regsMagCommon) ∈ regGroups ∧ 0x40000 ≤ (groupSpan (0x240000, regsMagCommon)).1 ∧
      (groupSpan (0x240000, regsMagCommon)).2 ≤ 0x480000 := by decide +kernel
  unfold groupsLost at hg
  extract_lets ds own common at hg
  rcases List.mem_append.1 hg with hg | hg
  · unfold own at hg
    split at hg
    · cases hg
    · obtain ⟨l, hl, hgl⟩ := List.mem_flatten.1 hg
      obtain ⟨k, hk, rfl⟩ := List.mem_map.1 hl
      exact domainGroups_in_blocks k (hshared d hd k hk) g hgl
  · unfold common at hg
    split at hg
    · split at hg
      · cases hg
      · rw [List.mem_singleton.1 hg]
        exact hcommon
    · cases hg

/-- Registers of domains reset. -/
theorem resetLost_within {d : Nat} (hd : d < 30) (s : State) (keep : FieldDef → Bool) :
    WithinDomains s { s with regs := resetGroups s.regs (groupsLost s d) keep } := by
  refine ⟨rfl, fun a ha => readAt_resetGroups_out (fun g hg => ?_) (fun g hg => ?_) s.regs keep⟩
  · exact regGroups_stride g (groupsLost_in_blocks hd s hg).1
  · obtain ⟨-, hlo, hhi⟩ := groupsLost_in_blocks hd s hg
    simp only [boardReg, Bool.and_eq_true, Bool.or_eq_true, decide_eq_true_eq] at ha
    omega

/-- A domain that goes off takes with it what it holds and no more (R532). -/
theorem domainOff_within {d : Nat} (hd : d < 30) (s : State) : WithinDomains s (domainOff d s) := by
  unfold domainOff
  refine .ite (fun _ => .after (domainKeeps_within ..) ?_) (fun _ => .refl s)
  exact .trans (.trans (.setFld _ _ _ (by decide)) (hiddenOff_within ..)) (resetLost_within hd ..)

theorem domainsOff_within {ds : List Nat} (hd : ∀ d ∈ ds, d < 30) (s : State) : WithinDomains s (domainsOff ds s) :=
  .foldl _ ds (fun d h s => domainOff_within (hd d h) s) s

/-! ### Dark and the safe state -/

/-- What neither Dark nor the safe state touches. -/
def State.lasting (s : State) : List Instr × Nat × DevTime × Nat × Option Nat × Sparse 8 × Sparse 8 × SysState × TrustState ×
    TimeState × MgmtState :=
  (s.pending, s.ticks, s.time, s.free, s.scratchLost, s.smSram, s.nvm, s.sys, { s.trust with sign := none, session := none },
    s.clock, s.mgmt)

theorem WithinDomains.lasting {s t : State} (h : WithinDomains s t) : t.lasting = s.lasting := by
  obtain ⟨hb, -⟩ := h
  simp only [State.board, Prod.mk.injEq] at hb
  obtain ⟨h1, h2, h3, h4, h5, h6, h7, h8, -, -, -, htrust, h11, h12⟩ := hb
  have : ({ t.trust with sign := none, session := none } : TrustState) = { s.trust with sign := none, session := none } :=
    congrArg (fun x : TrustState => { x with session := none }) htrust
  simp only [State.lasting, this, h1, h2, h3, h4, h5, h6, h7, h8, h11, h12]

theorem WithinDomains.call {s t : State} (h : WithinDomains s t) : t.call = s.call := congrArg (·.2.2.2.2.2.2.2.2.2.1) h.board

theorem WithinDomains.power {s t : State} (h : WithinDomains s t) : t.power = s.power := congrArg (·.2.2.2.2.2.2.2.2.2.2.1) h.board

theorem WithinDomains.cue {s t : State} (h : WithinDomains s t) : t.cue = s.cue := congrArg (·.2.2.2.2.2.2.2.2.1) h.board

/-- The registers in which Dark, held, shows outside the domains. -/
def darkRegs : List Nat := [CUE_STATUS.MODE.addr, POWER_STATUS.XFER.addr, NVMC_STATUS.SESSION.addr, POWER_RAIL.EN.addr]

theorem allDomains_lt : ∀ d ∈ allDomains, d < 30 := by decide

/-- Dark, held, once the domains are off. -/
def darkEnd (cause : DarkCause) (u : State) : State :=
  let s := (dramLost (dropRails u)).setFld CUE_STATUS.MODE 0
  { s with
    cue := { s.cue with commit := .idle, load := none }
    call := { s.call with companyHeld := true, restart := none, safePending := false }
    power := { s.power with dark := cause, rise := none } }

theorem darkHeld_eq (cause : DarkCause) (s : State) :
    darkHeld cause s = darkEnd cause (domainsOff allDomains (abortSession (abandonTransition s))) := rfl

theorem darkEnd_lasting (cause : DarkCause) (u : State) : (darkEnd cause u).lasting = u.lasting := rfl

theorem abortSession_lasting (s : State) : (abortSession s).lasting = s.lasting := rfl

theorem abandonTransition_lasting (s : State) : (abandonTransition s).lasting = s.lasting := rfl

theorem darkHeld_lasting (cause : DarkCause) (s : State) : (darkHeld cause s).lasting = s.lasting := by
  rw [darkHeld_eq, darkEnd_lasting, (domainsOff_within allDomains_lt _).lasting, abortSession_lasting, abandonTransition_lasting]

theorem darkHeld_regs (cause : DarkCause) (s : State) {a : Nat} (hb : boardReg a = true) (ha : a ∉ darkRegs) :
    (darkHeld cause s).word a = s.word a := by
  simp only [darkRegs, List.mem_cons, List.not_mem_nil, or_false, not_or] at ha
  obtain ⟨hcue, hpower, hnvm, hrail⟩ := ha
  have hend (u : State) : (darkEnd cause u).word a = u.word a :=
    (State.word_setFld_ne _ _ _ hcue).trans (State.word_setFld_ne u _ _ hrail)
  have hsession (u : State) : (abortSession u).word a = u.word a := State.word_setFld_ne u _ _ hnvm
  have hxfer : (abandonTransition s).word a = s.word a :=
    (State.word_setFld_ne _ _ _ hpower).trans (State.word_setFld_ne s _ _ hcue)
  rw [darkHeld_eq, hend, (domainsOff_within allDomains_lt _).regs a hb, hsession, hxfer]

theorem mode_darkEnd (cause : DarkCause) (u : State) : (darkEnd cause u).mode = 0 :=
  State.fld_setFld_same (dramLost (dropRails u)) CUE_STATUS.MODE 0 (by decide)

theorem mode_darkHeld (cause : DarkCause) (s : State) : (darkHeld cause s).mode = 0 := by
  rw [darkHeld_eq, mode_darkEnd]

theorem stopCoders_within (s : State) : WithinDomains s (stopCoders s) := by
  unfold stopCoders
  exact .after (stopHeve_within (by decide) _) (.after (stopHeve_within (by decide) _) (.of_eq rfl rfl))

theorem State.fld_congr_word {s t : State} {f : Fld} (h : t.word f.addr = s.word f.addr) : t.fld f = s.fld f := by
  rw [State.fld, State.fld, h]

theorem State.flag_of_word {s t : State} {f : Fld} (h : t.word f.addr = s.word f.addr) : t.flag f = s.flag f := by
  rw [State.flag, State.flag, State.fld_congr_word h]

/-- The registers in which the entry of the safe state shows outside the domains. -/
def safeRegs : List Nat :=
  [CALL_STATUS.SAFE.addr, SYS_RESET_CAUSE.SAFE_STATE.addr, CALL_SAFE_CNT.COUNT.addr, CUE_STATUS.XFER.addr, POWER_STATUS.XFER.addr]

/-- The safe state as it shows before the coders stop. -/
def safeShow (s : State) : State :=
  ((s.setFlag CALL_STATUS.SAFE true).setFlag SYS_RESET_CAUSE.SAFE_STATE true).addFld CALL_SAFE_CNT.COUNT 1

/-- The Call board as the safe state is entered (R560). -/
def safeCall (ticks : Nat) (c : CallState) : CallState :=
  { c with
      companyHeld := true, safePending := true, safeAt := ticks, viewGoes := false, restart := none, fatals := []
      queue := closeFatals true c.queue, log := closeFatals true c.log
      current := c.current.bind (fun k =>
        if (c.log.find? (fun e => e.seq == k)).any (fun e => e.cls == .fatal) then none else some k) }

theorem safeStateEnter_eq (s : State) : safeStateEnter s =
    { stopCoders (abandonTransition (safeShow s)) with
      call := safeCall (stopCoders (abandonTransition (safeShow s))).ticks (stopCoders (abandonTransition (safeShow s))).call } := rfl

theorem setFld_lasting (s : State) (f : Fld) (n : Nat) : (s.setFld f n).lasting = s.lasting := rfl

theorem safeShow_lasting (s : State) : (safeShow s).lasting = s.lasting := by
  rw [safeShow, State.addFld, setFld_lasting, State.setFlag, setFld_lasting, State.setFlag, setFld_lasting]

theorem safeShow_call (s : State) : (safeShow s).call = s.call := by
  rw [safeShow, State.addFld, State.setFld_call, State.setFlag, State.setFld_call, State.setFlag, State.setFld_call]

theorem abandonTransition_call (s : State) : (abandonTransition s).call = s.call := rfl

theorem abandonTransition_xfer (s : State) : (abandonTransition s).power.xfer = none := rfl

theorem safeShow_regs (s : State) {a : Nat} (ha : a ∉ safeRegs) : (safeShow s).word a = s.word a := by
  simp only [safeRegs, List.mem_cons, List.not_mem_nil, or_false, not_or] at ha
  obtain ⟨hsafe, hcause, hcnt, -, -⟩ := ha
  exact (State.word_setFld_ne _ _ _ hcnt).trans <| (State.word_setFld_ne _ _ _ hcause).trans (State.word_setFld_ne s _ _ hsafe)

theorem safeShow_safe (s : State) : (safeShow s).flag CALL_STATUS.SAFE = true := by
  have h : (safeShow s).word CALL_STATUS.SAFE.addr = (s.setFlag CALL_STATUS.SAFE true).word CALL_STATUS.SAFE.addr :=
    (State.word_setFld_ne _ _ _ (by decide)).trans (State.word_setFld_ne (s.setFlag CALL_STATUS.SAFE true) _ _ (by decide))
  exact (State.flag_of_word h).trans (State.flag_setFlag_same s _ true rfl rfl)

/-- A transition that is abandoned shows in its two flags (R46). -/
theorem abandonTransition_regs (s : State) {a : Nat} (hcue : a ≠ CUE_STATUS.XFER.addr) (hpower : a ≠ POWER_STATUS.XFER.addr) :
    (abandonTransition s).word a = s.word a :=
  (State.word_setFld_ne _ _ _ hpower).trans (State.word_setFld_ne s _ _ hcue)

theorem setCall_lasting (c : CallState) (u : State) : State.lasting { u with call := c } = u.lasting := rfl

theorem safeStateEnter_lasting (s : State) : (safeStateEnter s).lasting = s.lasting := by
  rw [safeStateEnter_eq, setCall_lasting, (stopCoders_within _).lasting, abandonTransition_lasting, safeShow_lasting]

theorem safeStateEnter_call (s : State) : (safeStateEnter s).call = safeCall s.ticks s.call := by
  have h := stopCoders_within (abandonTransition (safeShow s))
  have hticks : (stopCoders (abandonTransition (safeShow s))).ticks = s.ticks :=
    congrArg (·.2.1) (h.lasting.trans ((abandonTransition_lasting _).trans (safeShow_lasting s)))
  rw [safeStateEnter_eq, hticks, h.call, abandonTransition_call, safeShow_call]

theorem safeStateEnter_regs (s : State) {a : Nat} (hb : boardReg a = true) (ha : a ∉ safeRegs) :
    (safeStateEnter s).word a = s.word a := by
  have hcue : a ≠ CUE_STATUS.XFER.addr := fun h => ha (by simp [safeRegs, h])
  have hpower : a ≠ POWER_STATUS.XFER.addr := fun h => ha (by simp [safeRegs, h])
  rw [safeStateEnter_eq]
  exact ((stopCoders_within _).regs a hb).trans ((abandonTransition_regs _ hcue hpower).trans (safeShow_regs s ha))

theorem safeStateEnter_xfer (s : State) : (safeStateEnter s).power.xfer = none := by
  rw [safeStateEnter_eq]
  exact (congrArg (·.xfer) (stopCoders_within (abandonTransition (safeShow s))).power).trans (abandonTransition_xfer _)

theorem safeStateEnter_safe (s : State) : (safeStateEnter s).flag CALL_STATUS.SAFE = true := by
  have hword := ((stopCoders_within (abandonTransition (safeShow s))).regs CALL_STATUS.SAFE.addr (by decide)).trans
    (abandonTransition_regs _ (by decide) (by decide))
  rw [safeStateEnter_eq]
  exact (State.flag_of_word hword).trans (safeShow_safe s)

/-! ### Events of any class -/

theorem recordEvent_lasting (e : Event) (s : State) : (recordEvent e s).lasting = s.lasting := by
  obtain ⟨r, c, l, h, -⟩ := recordEvent_frame e s
  rw [h]
  rfl

theorem latchFatal_lasting (e : Event) (s : State) : (latchFatal e s).lasting = s.lasting := by
  unfold latchFatal
  split <;> rfl

theorem fatalEscalate_lasting (cause : Nat) (s : State) : (fatalEscalate cause s).lasting = s.lasting := by
  unfold fatalEscalate
  split
  · exact darkHeld_lasting ..
  · exact (safeStateEnter_lasting _).trans ((latchFatal_lasting ..).trans (recordEvent_lasting ..))

theorem fatalReact_lasting (seq : Nat) (e : Event) (s : State) : (fatalReact seq e s).lasting = s.lasting := by
  unfold fatalReact
  split
  · rfl
  · split
    · rfl
    · split
      · rfl
      · exact fatalEscalate_lasting ..

theorem postEvent_lasting (e : Event) (s : State) : (postEvent e s).lasting = s.lasting := by
  have h := (latchFatal_lasting e (recordEvent e s)).trans (recordEvent_lasting e s)
  unfold postEvent
  split
  · exact (fatalReact_lasting ..).trans h
  · exact h

theorem ticks_of_lasting {s t : State} (h : t.lasting = s.lasting) : t.ticks = s.ticks := congrArg (·.2.1) h

theorem smSram_of_lasting {s t : State} (h : t.lasting = s.lasting) : t.smSram = s.smSram := congrArg (·.2.2.2.2.2.1) h

theorem nvm_of_lasting {s t : State} (h : t.lasting = s.lasting) : t.nvm = s.nvm := congrArg (·.2.2.2.2.2.2.1) h

end Sys2Proof.Machine
end

section
/-! PROOFS. The Call board (R551 to R563). -/

namespace Sys2Proof.Machine

/-- A field that has counted up. -/
theorem State.fld_addFld_same (s : State) (f : Fld) (k : Nat) (h : f.fits = true) :
    (s.addFld f k).fld f = min (2 ^ f.width - 1) (s.fld f + k) := by
  have hpos : 0 < 2 ^ f.width := Nat.two_pow_pos _
  exact State.fld_setFld_lt s f _ h (lt_of_le_of_lt (Nat.min_le_left ..) (by omega))

/-! ### Events below fatal -/

theorem postEvent_below {e : Event} (h : e.cls ≠ .fatal) (s : State) : postEvent e s = recordEvent e s := by
  simp [postEvent, latchFatal, h]

/-- The entry that an event begins (R555). -/
def newEntry (e : Event) (s : State) : CallEntry :=
  { seq := (s.fld CALL_LOG_WR.WR + s.call.queue.length) % 2 ^ 32, code := e.code, cls := e.cls
    nested := s.flag CALL_STATUS.SAFE && e.cls == .fatal, critical := e.critical, safe := false, done := false
    inst := e.inst % 256, firstSec := s.time.sec.toNat, firstNs := s.time.ns, count := 1, lastNs := s.time.ns
    lastSec := s.time.sec.toNat % 2 ^ 32, detail := e.detail % 2 ^ 32, terminal := e.terminal }

theorem enqueue_queue (e : Event) (s : State) : (enqueue e s).call.queue = s.call.queue ++ [newEntry e s] := rfl

theorem enqueue_log (e : Event) (s : State) : (enqueue e s).call.log = s.call.log := rfl

theorem enqueue_regs (e : Event) (s : State) : (enqueue e s).regs = s.regs := rfl

theorem recordEvent_room {e : Event} {s : State} (hc : findCoalesce s e = none)
    (hq : s.call.queue.length < (if e.cls = .fatal then 64 else 60)) : recordEvent e s = enqueue e s := by
  simp only [recordEvent, hc, if_pos hq]

theorem recordEvent_full {e : Event} {s : State} (hc : findCoalesce s e = none)
    (hq : ¬ s.call.queue.length < (if e.cls = .fatal then 64 else 60)) : recordEvent e s = dropEvent s := by
  simp only [recordEvent, hc, if_neg hq]

/-- Settles O13. -/
theorem eventsAreQueuedOrDropped : Obligations.EventsAreQueuedOrDropped := by
  constructor
  · intro s e he hc hq
    have hpost : postEvent e s = enqueue e s := by
      rw [postEvent_below he, recordEvent_room hc]
      rwa [if_neg he]
    have hstores := postEvent_stores he s
    rw [hpost] at hstores ⊢
    exact ⟨newEntry e s, enqueue_queue e s, rfl, rfl, rfl, rfl, rfl, rfl, rfl, rfl, rfl, enqueue_log e s,
      fun a => State.word_congr (enqueue_regs e s) a, sameMemory_of_stores hstores⟩
  · intro s e he hc hq
    have hpost : postEvent e s = dropEvent s := by
      rw [postEvent_below he, recordEvent_full hc]
      rw [if_neg he]
      omega
    rw [hpost]
    exact ⟨rfl, rfl, State.fld_addFld_same s CALL_OVERFLOW.COUNT 1 (by decide), fun a ha => State.word_setFld_ne s CALL_OVERFLOW.COUNT _ fun h =>
      ha (by simp [h])⟩

/-! ### The log -/

theorem pickCurrent_frame (s : State) :
    ∃ c, pickCurrent s = { s with call := { s.call with current := c } } := by
  unfold pickCurrent
  split
  · exact ⟨_, rfl⟩
  · exact ⟨s.call.current, rfl⟩

theorem orBit_setMgmt_frame (m : MgmtState) (f : Fld) (n : Nat) (s : State) :
    ∃ r, (setMgmt m s).orBit f n = { s with regs := r, mgmt := m } ∧ ∀ a, a ≠ f.addr → readAt 0 r a = s.word a :=
  ⟨_, rfl, fun _ ha => State.word_setFld_ne (setMgmt m s) f _ ha⟩

theorem mgmtOverrun_frame (s : State) :
    ∃ r m, mgmtOverrun s = { s with regs := r, mgmt := m } ∧ ∀ a, a ≠ MGMT_EVENT.EVENT.addr → readAt 0 r a = s.word a := by
  unfold mgmtOverrun
  split
  · exact ⟨s.regs, s.mgmt, rfl, fun _ _ => rfl⟩
  · extract_lets lost
    obtain ⟨r, h, hr⟩ := orBit_setMgmt_frame { s.mgmt with cursor := (s.mgmt.cursor + lost) % 2 ^ 32
                                                           lost := satAdd (2 ^ 32 - 1) s.mgmt.lost lost } MGMT_EVENT.EVENT 9 s
    exact ⟨r, _, h, hr⟩

/-- The log writer moves the oldest entry of the queue to the log (R555). -/
theorem logOldest_call {s : State} {e : CallEntry} {q : List CallEntry} (h : s.call.queue = e :: q) :
    (logOldest s).call.queue = q ∧ (logOldest s).call.log = s.call.log.filter (fun y => y.seq % 4096 != e.seq % 4096) ++
      [{ e with nested := e.nested || s.call.current.isSome }] ∧
    (logOldest s).word CALL_LOG_WR.WR.addr = (s.setFld CALL_LOG_WR.WR (e.seq + 1)).word CALL_LOG_WR.WR.addr := by
  have heq : ∃ u : State, logOldest s = alertUpdate (mgmtOverrun (pickCurrent u)) ∧ u.call.queue = q ∧
      u.call.log = s.call.log.filter (fun y => y.seq % 4096 != e.seq % 4096) ++
        [{ e with nested := e.nested || s.call.current.isSome }] ∧ u.regs = (s.setFld CALL_LOG_WR.WR (e.seq + 1)).regs := by
    unfold logOldest
    simp only [h]
    exact ⟨_, rfl, rfl, rfl, rfl⟩
  obtain ⟨u, hu, hqueue, hlog, hregs⟩ := heq
  obtain ⟨c, hpick⟩ := pickCurrent_frame u
  obtain ⟨r, m, hover, hr⟩ := mgmtOverrun_frame { u with call := { u.call with current := c } }
  obtain ⟨r', m', halert, hr'⟩ :=
    alertUpdate_frame { u with call := { u.call with current := c }, regs := r, mgmt := m }
  rw [hu, hpick, hover, halert]
  refine ⟨hqueue, hlog, ?_⟩
  exact (hr' _ (by decide)).trans ((hr _ (by decide)).trans (State.word_congr hregs _))

theorem exec_callLogWrite {s : State} {e : CallEntry} {q : List CallEntry} (h : s.call.queue = e :: q) (hq : q.length ≠ 32) :
    exec .callLogWrite s = .next (logOldest s) := by
  have hempty : s.call.queue.isEmpty = false := by rw [h]; rfl
  have hover : overflowEnded (logOldest s) = logOldest s := by
    unfold overflowEnded
    rw [if_neg (by rw [(logOldest_call h).1]; exact fun hc => hq hc.1)]
  simp only [exec, execCallLogWrite, hempty, hover, Bool.false_eq_true, if_false]

theorem exec_callDoneWrite {s : State} {q : Word} (h : s.call.current = some q.toNat) :
    ∃ c, exec (.callDoneWrite .stageManager q) s = .next { busOk 0 s with call := c } ∧
      c.log = s.call.log.map (fun x => if x.seq = q.toNat then { x with done := true } else x) ∧
      c.fatals = s.call.fatals.filter (fun p => p.1 != q.toNat) := by
  have hcur : (busOk 0 s).call.current = some q.toNat := h
  have hexec : exec (.callDoneWrite .stageManager q) s = .next (finishEntry q.toNat (busOk 0 s)) := by
    simp only [exec, execCallDoneWrite, hcur, if_true]
  rw [hexec]
  unfold finishEntry
  extract_lets f
  obtain ⟨c, hpick⟩ := pickCurrent_frame { busOk 0 s with call := { (busOk 0 s).call with
    log := (busOk 0 s).call.log.map f, queue := (busOk 0 s).call.queue.map f, current := none
    fatals := (busOk 0 s).call.fatals.filter (fun p => p.1 != q.toNat) } }
  rw [hpick]
  exact ⟨_, rfl, rfl, rfl⟩

/-! ### Doorbells (R35, R36) -/

theorem bellsTo_eq (side : Side) : bellsTo side = ⟨(bellsTo side).addr, 0, 32⟩ := by cases side <;> rfl

theorem bellsFor_eq (side : Side) : bellsFor side = ⟨(bellsFor side).addr, 0, 32⟩ := by cases side <;> rfl

theorem ringBells_word (side : Side) (bells : Word) (s : State) :
    (ringBells side bells s).word (bellsTo side).addr = s.word (bellsTo side).addr ||| bells := by
  have hor : s.fld (bellsTo side) ||| bells.toNat = (s.word (bellsTo side).addr ||| bells).toNat := by
    rw [bellsTo_eq side, State.fld, BitVec.toNat_or]
    simp [Nat.mod_eq_of_lt (BitVec.isLt _)]
  rw [ringBells, hor, bellsTo_eq side]
  exact State.word_setFld_whole s _ _

theorem clearBells_word (side : Side) (bells rung : Word) (s : State) :
    (clearBells side bells rung s).word (bellsFor side).addr = (s.word (bellsFor side).addr &&& ~~~bells) ||| rung := by
  rw [clearBells, bellsFor_eq side]
  exact State.word_setFld_whole s _ _

/-! ### Restarts and watchdogs (R561 to R563) -/

theorem exec_callRestart {s : State} (h : s.call.restart = none) :
    exec (.callRestart .stageManager) s = .next (startRestart (busOk 0 s)) := by
  have hr : (busOk 0 s).call.restart = none := h
  simp only [exec, execCallRestart, hr, Option.isSome_none, Bool.false_eq_true, if_false]

/-- The image is what the Prompter loaded: core 0 is released (R561). -/
theorem exec_companyRestartRelease_good {s : State} {r : CompanyRestart} (h : s.call.restart = some r) (hr : r.released = false)
    (hd : sha3_512 (s.scratchBytes 0 s.sys.coLen) = s.sys.coDigest) :
    exec .companyRestartRelease s = .next { s.setFlag SYS_RESET_CAUSE.COMPANY_RESTART true with
      call := { s.call with companyHeld := false, restart := some { r with released := true } } } := by
  simp only [exec, execCompanyRestartRelease, h, hr, Bool.false_eq_true, if_false, releaseCompany, if_pos hd]
  rfl

/-- The image has changed: the device resets (R561). -/
theorem exec_companyRestartRelease_bad {s : State} {r : CompanyRestart} (h : s.call.restart = some r) (hr : r.released = false)
    (hd : sha3_512 (s.scratchBytes 0 s.sys.coLen) ≠ s.sys.coDigest) : ∃ u, exec .companyRestartRelease s = .next (warmReset u) := by
  simp only [exec, execCompanyRestartRelease, h, hr, Bool.false_eq_true, if_false, releaseCompany, if_neg hd]
  exact ⟨_, rfl⟩

/-- A kick that completes no restart. -/
theorem exec_coKick_plain {s : State} (h : ∀ r, s.call.restart = some r → r.released = false) :
    exec .coKick s = .next { busOk 0 s with call := { s.call with coKick := s.ticks } } := by
  cases hr : s.call.restart with
  | none =>
    simp only [exec, execCoKick, hr]
  | some r =>
    simp only [exec, execCoKick, hr, h r hr, Bool.false_eq_true, if_false]

/-- The registers as a restart completes. -/
def restartShown (s : State) : State := (s.setFlag CALL_STATUS.SAFE false).addFld CALL_RESTART_CNT.DONE 1

theorem resumeFatals_frame (s : State) : ∃ c, resumeFatals { s with call := { s.call with restart := none, safePending := false } } =
    { s with call := c } ∧ c.restart = none ∧ c.coKick = s.call.coKick := ⟨_, rfl, rfl, rfl⟩

/-- A kick: the watchdog period begins again (R562). -/
def kicked (s : State) : State := { busOk 0 s with call := { s.call with coKick := s.ticks } }

/-- A kick that completes a restart (R562). -/
theorem exec_coKick_complete {s : State} {r : CompanyRestart} (h : s.call.restart = some r) (hr : r.released = true) :
    ∃ c, exec .coKick s = .next { restartShown (kicked s) with call := c } ∧ c.restart = none ∧ c.coKick = s.ticks := by
  obtain ⟨c, hc, hrestart, hkick⟩ := resumeFatals_frame (restartShown (kicked s))
  refine ⟨c, ?_, hrestart, hkick⟩
  rw [← hc]
  simp only [exec, execCoKick, h, hr, if_true]
  rfl

theorem restartShown_safe (s : State) : (restartShown s).flag CALL_STATUS.SAFE = false := by
  have hword : (restartShown s).word CALL_STATUS.SAFE.addr = (s.setFlag CALL_STATUS.SAFE false).word CALL_STATUS.SAFE.addr :=
    State.word_setFld_ne _ _ _ (by decide)
  exact (State.flag_of_word hword).trans (State.flag_setFlag_same s _ false rfl rfl)

theorem restartShown_done (s : State) :
    (restartShown s).fld CALL_RESTART_CNT.DONE = min 65535 (s.fld CALL_RESTART_CNT.DONE + 1) := by
  have hfld : (s.setFlag CALL_STATUS.SAFE false).fld CALL_RESTART_CNT.DONE = s.fld CALL_RESTART_CNT.DONE :=
    State.fld_congr_word (State.word_setFld_ne s _ _ (by decide))
  exact (State.fld_addFld_same _ _ 1 (by decide)).trans (by rw [hfld]; rfl)

theorem restartShown_regs (s : State) : RegsBut s (restartShown s) [CALL_STATUS.SAFE.addr, CALL_RESTART_CNT.DONE.addr] :=
  ((RegsBut.refl s _).setFld (f := CALL_STATUS.SAFE) (by simp) _).setFld (f := CALL_RESTART_CNT.DONE) (by simp) _

/-- The warning and the failure of a restart without a kick (R562). -/
def restartFailed (s : State) : State :=
  let s := postEvent { cls := .warning, block := 23, cause := 0x305, inst := 0xFF, detail := 0 } (s.addFld CALL_RESTART_CNT.FAILED 1)
  { s with call := { s.call with lastFail := some s.ticks } }

theorem exec_companyRestartTimeout_first {s : State} (h : restartOverdue s = true) (hf : s.call.lastFail = none) :
    exec .companyRestartTimeout s = .next (startRestart (restartFailed s)) := by
  simp only [exec, execCompanyRestartTimeout, h, hf, Bool.true_eq_false, Bool.false_eq_true, if_false]
  rfl

theorem exec_companyRestartTimeout_again {s : State} {k : Nat} (h : restartOverdue s = true) (hf : s.call.lastFail = some k)
    (hk : s.elapsedNs k 60000000000 = false) : exec .companyRestartTimeout s = .next (warmReset (restartFailed s)) := by
  simp only [exec, execCompanyRestartTimeout, h, hf, hk, Bool.true_eq_false, Bool.not_false, if_true, if_false]
  rfl

/-- The Company watchdog as it expires (R562). -/
def companyExpired (s : State) : State :=
  postEvent { cls := .recoverable, block := 23, cause := 0x303, inst := 0xFF, detail := 0 } (s.setFlag CALL_CO_WDOG.EXPIRED true)

theorem exec_companyWatchdogExpire {s : State} (hen : s.flag CALL_CO_WDOG.EN = true) (hheld : s.call.companyHeld = false)
    (h : watchdogOver (s.fld CALL_CO_WDOG.MS) s.call.coKick s = true) :
    exec .companyWatchdogExpire s = .next (startRestart (companyExpired s)) := by
  have hnot : ¬ (s.flag CALL_CO_WDOG.EN = false ∨ s.call.companyHeld = true ∨
      watchdogOver (s.fld CALL_CO_WDOG.MS) s.call.coKick s = false) := by simp [hen, hheld, h]
  simp only [exec, execCompanyWatchdogExpire]
  rw [if_neg hnot]
  rfl

/-- The Stage Manager watchdog as it expires (R563). -/
def smExpired (s : State) : State :=
  let s := postEvent { cls := .recoverable, block := 23, cause := 0x304, inst := 0xFF, detail := 0 }
    (s.setFlag CALL_SM_WDOG.EXPIRED true)
  { s with call := { s.call with smExpiry := some s.ticks, smKick := s.ticks } }

theorem not_smWatchdog {s : State} (hen : s.flag CALL_SM_WDOG.EN = true)
    (h : watchdogOver (s.fld CALL_SM_WDOG.MS) s.call.smKick s = true) :
    ¬ (s.flag CALL_SM_WDOG.EN = false ∨ watchdogOver (s.fld CALL_SM_WDOG.MS) s.call.smKick s = false) := by simp [hen, h]

theorem exec_smWatchdogExpire_first {s : State} (hen : s.flag CALL_SM_WDOG.EN = true) (he : s.call.smExpiry = none)
    (h : watchdogOver (s.fld CALL_SM_WDOG.MS) s.call.smKick s = true) : exec .smWatchdogExpire s = .next (smExpired s) := by
  simp only [exec, execSmWatchdogExpire]
  rw [if_neg (not_smWatchdog hen h)]
  simp only [he, Bool.false_eq_true, if_false]
  rfl

theorem exec_smWatchdogExpire_again {s : State} {k : Nat} (hen : s.flag CALL_SM_WDOG.EN = true) (he : s.call.smExpiry = some k)
    (hk : s.elapsedNs k 60000000000 = false) (h : watchdogOver (s.fld CALL_SM_WDOG.MS) s.call.smKick s = true) :
    ∃ u, exec .smWatchdogExpire s = .next (warmReset u) := by
  simp only [exec, execSmWatchdogExpire]
  rw [if_neg (not_smWatchdog hen h)]
  simp only [he, hk, Bool.not_false, if_true]
  exact ⟨_, rfl⟩

theorem exec_smParity (s : State) : exec .smParity s =
    .next (warmReset (postEvent { cls := .fatal, block := 0, cause := 0x300, inst := 0xFF, detail := 0 } s)) := rfl

/-- Fatal handling that takes too long enters the safe state (R559). -/
theorem exec_fatalHandlingTimeout {s : State} (h : fatalOverdue s = true) (hm : 2 ≤ s.mode) (hs : s.flag CALL_STATUS.SAFE = false) :
    ∃ u, exec .fatalHandlingTimeout s = .next (safeStateEnter u) := by
  have hnot : ¬ (fatalOverdue s = false ∨ s.mode = 0 ∨ s.flag CALL_STATUS.SAFE = true) := by
    simp only [h, hs, Bool.true_eq_false, Bool.false_eq_true, false_or, or_false]
    omega
  have hmode : s.mode ≠ 1 := by omega
  simp only [exec, execFatalHandlingTimeout]
  rw [if_neg hnot, fatalEscalate, if_neg hmode]
  exact ⟨_, rfl⟩

/-- A flag that an event below fatal leaves standing. -/
theorem flag_postEvent {e : Event} (he : e.cls ≠ .fatal) (s : State) {f : Fld} (hf : f.addr ≠ CALL_OVERFLOW.COUNT.addr) :
    (postEvent e s).flag f = s.flag f := State.flag_of_word (postEvent_word he s hf)

theorem companyExpired_flag (s : State) : (companyExpired s).flag CALL_CO_WDOG.EXPIRED = true :=
  (flag_postEvent (by decide) _ (by decide)).trans (State.flag_setFlag_same s _ true rfl rfl)

theorem smExpired_flag (s : State) : (smExpired s).flag CALL_SM_WDOG.EXPIRED = true :=
  (flag_postEvent (by decide) _ (by decide)).trans (State.flag_setFlag_same s _ true rfl rfl)

theorem restartFailed_call (s : State) : (restartFailed s).call.lastFail = some s.ticks :=
  congrArg some (ticks_of_stores (postEvent_stores (by decide) (s.addFld CALL_RESTART_CNT.FAILED 1)))

/-! ### The obligation on posting, the log and the commands -/

/-- Settles O14. -/
theorem callPostLogReadAndDone : Obligations.CallPostLogReadAndDone := by
  unfold Obligations.CallPostLogReadAndDone
  refine ⟨?post, ?writer, ?read, ?done, ?bells, ?restart, ?release, ?kicks, ?coDog, ?timeout, ?smDog, ?fatal⟩
  case post =>
    intro s c v
    have hcls : EventClass.ofNum (bits v.toNat 31 30) = EventClass.ofNum (v.toNat / 2 ^ 30) := by
      simp [EventClass.ofNum, bits]
    have hcause : bits v.toNat 9 0 = v.toNat % 1024 := by simp [bits]
    have hinst : bits v.toNat 19 12 = v.toNat / 4096 % 256 := by simp [bits]
    simp only [exec, execCallPostWrite, postFirmware, hcls, hcause, hinst]
    rfl
  case writer =>
    intro s e q h hq
    obtain ⟨hqueue, hlog, hword⟩ := logOldest_call h
    refine ⟨_, exec_callLogWrite h hq, hqueue, ?_, { e with nested := e.nested || s.call.current.isSome }, rfl, rfl, rfl, hlog⟩
    exact (State.fld_congr_word hword).trans (State.fld_setFld_same s CALL_LOG_WR.WR (e.seq + 1) (by decide))
  case read => exact fun s c => ⟨_, rfl, rfl, rfl, rfl⟩
  case done =>
    intro s q h
    obtain ⟨c, hexec, hlog, hfatals⟩ := exec_callDoneWrite h
    exact ⟨_, hexec, hlog, hfatals, rfl, fun _ _ => rfl⟩
  case bells => exact fun s side bells rung => ⟨⟨_, rfl, ringBells_word ..⟩, ⟨_, rfl, clearBells_word ..⟩⟩
  case restart => exact fun s h => ⟨_, exec_callRestart h, rfl⟩
  case release => exact fun s r h hr hd => ⟨_, exec_companyRestartRelease_good h hr hd, rfl⟩
  case kicks =>
    refine fun s => ⟨?_, ⟨_, rfl, rfl⟩, ⟨_, exec_smParity s, mode_warmReset _⟩⟩
    by_cases h : ∀ r, s.call.restart = some r → r.released = false
    · exact ⟨_, exec_coKick_plain h, rfl⟩
    · simp only [not_forall, Bool.not_eq_false] at h
      obtain ⟨r, hr, hrel⟩ := h
      obtain ⟨c, hexec, -, hkick⟩ := exec_coKick_complete hr hrel
      exact ⟨_, hexec, hkick⟩
  case coDog => exact fun s hen hheld h => ⟨_, exec_companyWatchdogExpire hen hheld h, companyExpired_flag s⟩
  case timeout => exact fun s h hf => ⟨_, exec_companyRestartTimeout_first h hf, restartFailed_call s⟩
  case smDog => exact fun s hen he h => ⟨_, exec_smWatchdogExpire_first hen he h, smExpired_flag s⟩
  case fatal =>
    intro s h hm hs
    obtain ⟨u, hexec⟩ := exec_fatalHandlingTimeout h hm hs
    exact ⟨_, hexec, safeStateEnter_safe u⟩

end Sys2Proof.Machine
end

section
/-! PROOFS. Company restarts and the safe state: a fault of the frame chain in Dawn (R288, R290, R560). -/

namespace Sys2Proof.Machine

/-- Cold reset with every register at 0 but those listed. -/
def withFlds (l : List (Fld × Nat)) : State := l.foldl (fun s e => s.setFld e.1 e.2) { State.reset with regs := [] }

/-- A frame that is closed, hashed and next to be linked. -/
def closedFrame : Frame :=
  { num := 0, port := 0, desc := 0, vc := 0, seq := 0, fs := 0, disp := 0, reason := 0, epoch := 0, pos := [], flags := 0, counts := []
    digestRef := 0, slot := none, d := { en := true, seqchk := false, vc := 0, dt := 0, cfa := 0, embMax := 0, width := 0, height := 0 }, emb := [], rows := 0, closed := true, spilled := false
    hashed := true, linked := false, handed := false, await := [], since := 0, written := [], partner := none, finalAt := none
    stripes := [], rehash := [], redone := [], codedSel := 0, rehashed := false, failMask := 0, coded := [], origin := none
    cut := false, offFinal := false }

/-- In Dawn, with a fatal event open and the safe state pending, the copies of the chain's head differ. -/
def faultyDawn : State :=
  { withFlds [(CUE_STATUS.MODE, 1), (POWER_STATUS.ON, 2 ^ 20)] with
    call := { callInit with safePending := true, fatals := [(0, 0)] }
    hash := { hashInit with active := true, link2 := [1] }
    ledger := { ledgerInit with frames := [closedFrame] } }

/-- Linking the frame finds the fault, and in Dawn the second fatal event leads to Dark, held: no safe state is pending then. -/
theorem faultyDawn_linked : (safeLinked faultyDawn).call.safePending = false ∧ (safeLinked faultyDawn).call.restart = none ∧
    (safeLinked faultyDawn).mode = 0 := by decide +kernel

theorem faultyDawn_ready : faultyDawn.call.safePending = true ∧ portsClosed faultyDawn = true ∧
    chainSafe (safeLinked faultyDawn) = true ∧ viewSafe faultyDawn = true ∧
    (railsReady (wantedDomains 6 (safeMask faultyDawn) (faultyDawn.flag CUE_STATUS.PORTS_HELD)) faultyDawn).1 = true := by
  decide +kernel

/-- Linking the last frames ends the safe state where it leads to Dark. -/
theorem exec_safeStatePortsClosed_dark {s : State} (hpending : s.call.safePending = true) (hports : portsClosed s = true)
    (hview : viewSafe s = true) (hlinked : (safeLinked s).call.safePending = false) :
    exec .safeStatePortsClosed s = .next (safeLinked s) := by
  have hin : (if s.call.safePending = true ∧ portsClosed s = true then
      (if viewSafe s = true ∨ s.call.viewGoes = true then safeLinked s else viewGo (safeLinked s)) else s) = safeLinked s := by
    rw [if_pos ⟨hpending, hports⟩, if_pos (.inl hview)]
  simp only [exec, execSafeStatePortsClosed, hin]
  exact if_neg (by simp [hlinked])

/-- Refutes O15: its last clause leaves out that a fault of the frame chain, found as the last frames are linked, may lead to Dark. -/
theorem not_companyRestartsAndWatchdogs : ¬ Obligations.CompanyRestartsAndWatchdogs := by
  rintro ⟨-, -, -, -, -, -, -, -, -, -, -, -, -, -, -, h⟩
  obtain ⟨hpending, hports, hchain, hview, hrails⟩ := faultyDawn_ready
  obtain ⟨t, hexec, -, hrestart⟩ := h faultyDawn hpending hports hchain hview hrails
  rw [exec_safeStatePortsClosed_dark hpending hports hview faultyDawn_linked.1] at hexec
  injection hexec with ht
  rw [← ht, faultyDawn_linked.2.1] at hrestart
  cases hrestart

/-- Refutes O19: its clause on the safe state leaves out the same fault, after which the device is in Dark and not in Intermission. -/
theorem not_modesAreRequestedAndEntered : ¬ Obligations.ModesAreRequestedAndEntered := by
  rintro ⟨-, -, -, -, -, -, -, -, -, h, -⟩
  obtain ⟨hpending, hports, hchain, hview, hrails⟩ := faultyDawn_ready
  obtain ⟨t, hexec, hmode, -⟩ := h faultyDawn hpending hports hchain hview hrails
  rw [exec_safeStatePortsClosed_dark hpending hports hview faultyDawn_linked.1] at hexec
  injection hexec with ht
  rw [← ht, faultyDawn_linked.2.2] at hmode
  cases hmode

end Sys2Proof.Machine
end

section
/-! PROOFS. Stack operations, the firmware overlay and cue loads (R57, R58, R60, R61). -/

namespace Sys2Proof.Machine

/-! ### Lists of keyed values -/

theorem keyGet_keySet_ne {κ α : Type} [DecidableEq κ] (l : List (κ × α)) {k j : κ} (v : α) (h : j ≠ k) :
    keyGet (keySet l k v) j = keyGet l j := by
  induction l with
  | nil => simp [keySet, keyGet, h.symm]
  | cons e l ih =>
    obtain ⟨i, x⟩ := e
    by_cases hik : i = k
    · subst hik
      simp [keySet, keyGet, h.symm]
    · simp only [keySet, hik, if_false, keyGet, ih]

/-! ### Stack operations -/

/-- A stack operation that the rule takes changes the pending stack and nothing else (R60). -/
theorem cueOp_taken {s : State} {op level slot : Nat} {p : CueStack} (h : stackOp (busOk 0 s) op level slot = some p) :
    (cueOp op level slot s).cue.pending = p ∧ (cueOp op level slot s).cue.active = s.cue.active ∧
      OnlyRegs { s with cue := (cueOp op level slot s).cue } (cueOp op level slot s) [] := by
  have heq : cueOp op level slot s = setPending p (busOk 0 s) := by simp only [cueOp, doStackOp, h]
  rw [heq]
  exact ⟨rfl, rfl, rfl, fun _ _ => rfl⟩

theorem slotRefused_of_cue {s : State} {n : Nat} (hv : slotValid s n = true)
    (hk : (keyGet s.cue.slots n).map (fun c => c.kind) = some 0) : slotRefused s n = false := by
  obtain ⟨c, hc, hk⟩ := Option.map_eq_some_iff.1 hk
  simp [slotRefused, hv, hc, hk]

theorem stackOp_push {s : State} {n : Nat} (hr : slotRefused s n = false) (hl : s.cue.pending.users.length < 4) (level : Nat) :
    stackOp s 0 level n = some { s.cue.pending with users := s.cue.pending.users ++ [n] } := by
  have h : ¬ (4 ≤ s.cue.pending.users.length ∨ slotRefused s n = true) := by
    rw [hr]
    simpa using hl
  simp only [stackOp, if_true, if_neg h]

theorem stackOp_push_refused {s : State} {n : Nat} (h : 4 ≤ s.cue.pending.users.length ∨ slotValid s n = false) (level : Nat) :
    stackOp s 0 level n = none := by
  have hr : 4 ≤ s.cue.pending.users.length ∨ slotRefused s n = true :=
    h.imp_right fun hv => by simp [slotRefused, hv]
  simp only [stackOp, if_true, if_pos hr]

theorem stackOp_pop {s : State} {us : List Nat} {u : Nat} (h : s.cue.pending.users = us ++ [u]) (level slot : Nat) :
    stackOp s 1 level slot = some { s.cue.pending with users := us } := by
  have he : s.cue.pending.users.isEmpty = false := by simp [h]
  have hd : s.cue.pending.users.dropLast = us := by simp [h]
  simp only [stackOp, he, hd, one_ne_zero, Bool.false_eq_true, if_true, if_false]

theorem stackOp_replace {s : State} {n level : Nat} (hr : slotRefused s n = false) (hl : level < s.cue.pending.users.length) :
    stackOp s 2 level n = some { s.cue.pending with users := s.cue.pending.users.set level n } := by
  have h : ¬ (s.cue.pending.users.length ≤ level ∨ slotRefused s n = true) := by
    rw [hr]
    simpa using hl
  simp [stackOp, h]

/-! ### Cue loads -/

theorem loadSource_congr {s t : State} (h : t.word CUE_LOAD_SRC.ADDR.addr = s.word CUE_LOAD_SRC.ADDR.addr)
    (hb : ∀ a n, t.scratchBytes a n = s.scratchBytes a n) : loadSource t = loadSource s := by
  simp only [loadSource, State.fld_congr_word h, hb]

/-- A load as it begins: the slot shows, and a written 1 clears FAIL (R58). -/
def loadBegin (v : Word) (s : State) : State :=
  let s := (busOk 0 s).setFld CUE_LOAD_CTRL.SLOT (v.toNat % 64)
  if v.getLsbD 8 then s.setFlag CUE_LOAD_CTRL.FAIL false else s

theorem loadBegin_frame (v : Word) (s : State) : ∃ r, loadBegin v s = { busOk 0 s with regs := r } ∧
    RegsBut s (loadBegin v s) [CUE_LOAD_CTRL.GO.addr] ∧ (loadBegin v s).fld CUE_LOAD_CTRL.SLOT = v.toNat % 64 := by
  have hslot : ((busOk 0 s).setFld CUE_LOAD_CTRL.SLOT (v.toNat % 64)).fld CUE_LOAD_CTRL.SLOT = v.toNat % 64 :=
    State.fld_setFld_lt _ _ _ (by decide) (Nat.mod_lt _ (by decide))
  have hregs : RegsBut s ((busOk 0 s).setFld CUE_LOAD_CTRL.SLOT (v.toNat % 64)) [CUE_LOAD_CTRL.GO.addr] :=
    ((RegsBut.refl s _).trans (RegsBut.of_regs rfl _)).setFld (f := CUE_LOAD_CTRL.SLOT) (by simp [CUE_LOAD_CTRL.SLOT, CUE_LOAD_CTRL.GO]) _
  unfold loadBegin
  dsimp only
  split
  · exact ⟨_, rfl, hregs.setFld (f := CUE_LOAD_CTRL.FAIL) (by simp [CUE_LOAD_CTRL.FAIL, CUE_LOAD_CTRL.GO]) _,
      (State.fld_setFld_apart _ _ _ _ (by decide) (by decide)).trans hslot⟩
  · exact ⟨_, rfl, hregs, hslot⟩

theorem loadSource_loadBegin (v : Word) (s : State) : loadSource (loadBegin v s) = loadSource s := by
  obtain ⟨r, h, hr, -⟩ := loadBegin_frame v s
  exact loadSource_congr (hr _ (by decide)) fun a n => by rw [h]; rfl

theorem loadBegin_cue (v : Word) (s : State) : (loadBegin v s).cue = s.cue := by
  obtain ⟨r, hb, -, -⟩ := loadBegin_frame v s
  rw [hb]
  rfl

theorem exec_cueLoad (v : Word) (s : State) : exec (.cueLoad v) s =
    (if v.getLsbD 6 = false then .next (loadBegin v s)
    else if (loadBegin v s).cue.load.isSome then .next (postRefused 1 CUE_LOAD_CTRL.GO.addr (loadBegin v s))
    else match loadSource (loadBegin v s) with
      | none => .next (loadRefused (loadBegin v s))
      | some a =>
        if v.toNat % 64 < 48 ∨ (stackedSlots (loadBegin v s)).contains (v.toNat % 64) then .next (loadRefused (loadBegin v s))
        else
          .next (setCue { ((loadBegin v s).setFlag CUE_LOAD_CTRL.BUSY true).cue with load := some (v.toNat % 64, a) }
            ((loadBegin v s).setFlag CUE_LOAD_CTRL.BUSY true))) := rfl

/-- A load of a slot that it may touch, from a source in scratch SRAM (R58). -/
theorem exec_cueLoad_taken {s : State} {v : Word} {a : Nat} (hgo : v.getLsbD 6 = true) (hslot : 48 ≤ v.toNat % 64)
    (hidle : s.cue.load = none) (hsrc : loadSource s = some a) (hfree : v.toNat % 64 ∉ stackedSlots s) :
    exec (.cueLoad v) s = .next { (loadBegin v s).setFlag CUE_LOAD_CTRL.BUSY true with
      cue := { s.cue with load := some (v.toNat % 64, a) } } := by
  have hload : (loadBegin v s).cue.load.isSome = false := by rw [loadBegin_cue, hidle]; rfl
  have hnot : ¬ (v.toNat % 64 < 48 ∨ (stackedSlots (loadBegin v s)).contains (v.toNat % 64) = true) := by
    rw [stackedSlots, loadBegin_cue]
    simpa [stackedSlots] using ⟨hslot, by simpa [stackedSlots] using hfree⟩
  rw [exec_cueLoad, hgo, hload, loadSource_loadBegin, hsrc]
  simp only [Bool.true_eq_false, Bool.false_eq_true, if_false, if_neg hnot, State.setFlag_cue, loadBegin_cue]
  rfl

/-- A load of one of the slots 0 to 47 is refused (R58). -/
theorem exec_cueLoad_low {s : State} {v : Word} (hgo : v.getLsbD 6 = true) (hslot : v.toNat % 64 < 48) (hidle : s.cue.load = none) :
    exec (.cueLoad v) s = .next (loadRefused (loadBegin v s)) := by
  have hload : (loadBegin v s).cue.load.isSome = false := by rw [loadBegin_cue, hidle]; rfl
  rw [exec_cueLoad, hgo, hload]
  simp only [Bool.true_eq_false, Bool.false_eq_true, if_false]
  cases loadSource (loadBegin v s) with
  | none => rfl
  | some a => exact if_pos (.inl hslot)

theorem loadRefused_fail (s : State) : (loadRefused s).flag CUE_LOAD_CTRL.FAIL = true ∧ (loadRefused s).cue = s.cue := by
  obtain ⟨r, c, l, h, -⟩ := postEvent_frame
    (e := { cls := .warning, block := 1, cause := 0x200 + 4, inst := 0xFF, detail := CUE_LOAD_CTRL.GO.addr }) (by decide)
    (s.setFlag CUE_LOAD_CTRL.FAIL true)
  refine ⟨(flag_postEvent (by decide) _ (by decide)).trans (State.flag_setFlag_same s _ true rfl rfl), ?_⟩
  exact (congrArg State.cue h).trans rfl

/-! ### The end of a load -/

theorem State.setBit_word_ne (s : State) (f : Fld) (n : Nat) (b : Bool) {a : Nat} (h : a ≠ f.addr) :
    (s.setBit f n b).word a = s.word a := by
  cases b <;> exact State.word_setFld_ne _ _ _ h

/-- A flag of a field that holds one per bit. -/
theorem State.testBit_setBit_same (s : State) (f : Fld) (n : Nat) (b : Bool) (h : f.fits = true) (hn : n < f.width) :
    ((s.setBit f n b).fld f).testBit n = b := by
  cases b with
  | true => exact State.testBit_orBit_same s f n h hn
  | false =>
    have hclear : (s.setBit f n false).fld f = (if (s.fld f).testBit n then s.fld f - 2 ^ n else s.fld f) % 2 ^ f.width :=
      State.fld_setFld_same s f _ h
    rw [hclear, Nat.testBit_mod_two_pow]
    split
    · next hb =>
      have hadd := Nat.testBit_two_pow_add_eq (s.fld f - 2 ^ n) n
      rw [Nat.add_sub_cancel' (Nat.ge_two_pow_of_testBit hb), hb] at hadd
      simp [Bool.eq_false_of_not_eq_true' hadd.symm]
    · next hb => simp [hb]

theorem setSlotValid_word_ne (n : Nat) (b : Bool) (s : State) {a : Nat} (hlo : a ≠ CUE_VALID_LO.DATA.addr)
    (hhi : a ≠ CUE_VALID_HI.DATA.addr) : (setSlotValid n b s).word a = s.word a := by
  unfold setSlotValid
  split
  · exact State.setBit_word_ne s _ _ b hlo
  · exact State.setBit_word_ne s _ _ b hhi

theorem setSlotValid_frame (n : Nat) (b : Bool) (s : State) : ∃ r, setSlotValid n b s = { s with regs := r } := by
  unfold setSlotValid
  split <;> cases b <;> exact ⟨_, rfl⟩

theorem slotValid_setSlotValid {n : Nat} (hn : n < 64) (b : Bool) (s : State) : slotValid (setSlotValid n b s) n = b := by
  unfold slotValid setSlotValid
  split
  · next h => exact State.testBit_setBit_same s _ n b (by decide) h
  · next h => exact State.testBit_setBit_same s _ (n - 32) b (by decide) (by change n - 32 < 32; omega)

theorem slotValid_congr {s t : State} (hlo : t.word CUE_VALID_LO.DATA.addr = s.word CUE_VALID_LO.DATA.addr)
    (hhi : t.word CUE_VALID_HI.DATA.addr = s.word CUE_VALID_HI.DATA.addr) (n : Nat) : slotValid t n = slotValid s n := by
  simp only [slotValid, State.fld_congr_word hlo, State.fld_congr_word hhi]

/-- The state in which a completed copy is looked at. -/
def loadEnded (s : State) : State := setCue { s.cue with load := none } (s.setFlag CUE_LOAD_CTRL.BUSY false)

theorem loadEnded_busy (s : State) : (loadEnded s).flag CUE_LOAD_CTRL.BUSY = false :=
  State.flag_setFlag_same s _ false rfl rfl

theorem exec_cueLoadComplete {s : State} {slot a : Nat} (h : s.cue.load = some (slot, a)) :
    exec .cueLoadComplete s = .next (
      if (takeCue slot (s.scratchBytes a 4096) (loadEnded s)).1 then (takeCue slot (s.scratchBytes a 4096) (loadEnded s)).2
      else (takeCue slot (s.scratchBytes a 4096) (loadEnded s)).2.setFlag CUE_LOAD_CTRL.FAIL true) := by
  simp only [exec, execCueLoadComplete, h]
  rfl

theorem exec_cueLoadComplete_good {s : State} {slot a : Nat} {c : Cue} (h : s.cue.load = some (slot, a))
    (hp : parseCue (s.scratchBytes a 4096) = .ok c) (hf : cueFault s.cue.tableStore s.cue.base.entries c = none) :
    exec .cueLoadComplete s = .next (setSlotValid slot true
      (setCue { s.cue with load := none, slots := keySet s.cue.slots slot c } (loadEnded s))) := by
  have hf' : cueFault (loadEnded s).cue.tableStore (loadEnded s).cue.base.entries c = none := hf
  have htake : takeCue slot (s.scratchBytes a 4096) (loadEnded s) = (true, setSlotValid slot true
      (setCue { (loadEnded s).cue with slots := keySet (loadEnded s).cue.slots slot c } (loadEnded s))) := by
    simp only [takeCue, hp, hf']
  rw [exec_cueLoadComplete h, htake]
  rfl

theorem exec_cueLoadComplete_bad {s : State} {slot a off : Nat} (h : s.cue.load = some (slot, a))
    (hp : parseCue (s.scratchBytes a 4096) = .error off) :
    exec .cueLoadComplete s = .next ((cueInvalid slot off (loadEnded s)).setFlag CUE_LOAD_CTRL.FAIL true) := by
  have htake : takeCue slot (s.scratchBytes a 4096) (loadEnded s) = (false, cueInvalid slot off (loadEnded s)) := by
    simp only [takeCue, hp]
  rw [exec_cueLoadComplete h, htake]
  rfl

theorem cueInvalid_frame (slot off : Nat) (s : State) : ∃ r c l, cueInvalid slot off s = { s with regs := r, call := c, ledger := l } ∧
    ∀ a, a ≠ CALL_OVERFLOW.COUNT.addr → readAt 0 r a = (setSlotValid slot false s).word a := by
  obtain ⟨r, hs⟩ := setSlotValid_frame slot false s
  obtain ⟨r', c, l, h, hr⟩ := postEvent_frame
    (e := { cls := .warning, block := 1, cause := 0x200 + 5, inst := 0xFF, detail := slot * 2 ^ 24 + off }) (by simp)
    (setSlotValid slot false s)
  refine ⟨r', c, l, ?_, hr⟩
  refine h.trans ?_
  rw [hs]

/-! ### The firmware overlay -/

/-- A Company write to a register whose fields are shadowed and not line-timed goes into the overlay (R61). -/
theorem shadowedWrite_taken {s : State} {off : Nat} (v : Word) (hoff : regOff s off = false) (hl : lineMask off = 0)
    (hm : shadowMask off ≠ 0) (hlen : s.cue.pending.overlay.length < 256) : shadowedWrite off v s =
      setPending { s.cue.pending with overlay := keySet s.cue.pending.overlay off v } s := by
  have hshadow : shadowWrite off v s = s := by
    unfold shadowWrite
    exact if_pos (.inl hl)
  have hmask : (shadowMask off == 0) = false := by simpa using hm
  have hroom : ¬ ((keyGet s.cue.pending.overlay off).isNone = true ∧ 256 ≤ s.cue.pending.overlay.length) := by omega
  simp only [shadowedWrite, hoff, hshadow, hmask, overlayWrite, Bool.false_eq_true, if_false, if_neg hroom]

/-! ### The obligation -/

/-- Settles O16. -/
theorem pendingStackOverlayAndLoads : Obligations.PendingStackOverlayAndLoads := by
  unfold Obligations.PendingStackOverlayAndLoads
  refine ⟨?push, ?pop, ?replace, ?clear, ?clearFw, ?refused, ?load, ?low, ?good, ?bad, ?overlay⟩
  case push =>
    intro s slot hv hk hl
    exact ⟨_, rfl, cueOp_taken (stackOp_push (s := busOk 0 s) (slotRefused_of_cue hv hk) hl 0)⟩
  case pop => exact fun s us u h => ⟨_, rfl, cueOp_taken (stackOp_pop (s := busOk 0 s) h 0 0)⟩
  case replace =>
    intro s level slot hv hk hl
    exact ⟨_, rfl, cueOp_taken (stackOp_replace (s := busOk 0 s) (slotRefused_of_cue hv hk) hl)⟩
  case clear => exact fun s => ⟨_, rfl, cueOp_taken rfl⟩
  case clearFw => exact fun s => ⟨_, rfl, cueOp_taken rfl⟩
  case refused =>
    intro s slot h
    simp only [exec, execPush, cueOp, doStackOp, stackOp_push_refused (s := busOk 0 s) h]
  case load =>
    intro s v a hgo hslot hidle hsrc hfree
    obtain ⟨r, hb, hr, hs⟩ := loadBegin_frame v s
    have hbusy : ((loadBegin v s).setFlag CUE_LOAD_CTRL.BUSY true).flag CUE_LOAD_CTRL.BUSY = true :=
      State.flag_setFlag_same _ _ true rfl rfl
    have hslot' : ((loadBegin v s).setFlag CUE_LOAD_CTRL.BUSY true).fld CUE_LOAD_CTRL.SLOT = v.toNat % 64 :=
      (State.fld_setFld_apart _ _ _ _ (by decide) (by decide)).trans hs
    have hregs := hr.setFld (f := CUE_LOAD_CTRL.BUSY) (by decide) (boolNat true)
    refine ⟨_, exec_cueLoad_taken hgo hslot hidle hsrc hfree, ?_, ?_, rfl, ?_, ?_⟩
    · exact hbusy
    · exact hslot'
    · rw [hb]
      rfl
    · exact hregs
  case low =>
    intro s v hgo hslot hidle
    obtain ⟨hfail, hcue⟩ := loadRefused_fail (loadBegin v s)
    exact ⟨_, exec_cueLoad_low hgo hslot hidle, hfail, hcue.trans (loadBegin_cue v s)⟩
  case good =>
    intro s slot a c h hslot hp hf
    obtain ⟨r, hr⟩ := setSlotValid_frame slot true
      (setCue { s.cue with load := none, slots := keySet s.cue.slots slot c } (loadEnded s))
    refine ⟨_, exec_cueLoadComplete_good h hp hf, ?_, ?_, slotValid_setSlotValid hslot true _, ?_, ?_⟩
    · exact (State.flag_of_word (setSlotValid_word_ne slot true _ (by decide) (by decide))).trans (loadEnded_busy s)
    · rw [hr]
      rfl
    · rw [hr]
      exact keyGet_keySet_same ..
    · rw [hr]
      exact sameMemory_of_stores rfl
  case bad =>
    intro s slot a off h hslot hp
    obtain ⟨r, c, l, hi, hr⟩ := cueInvalid_frame slot off (loadEnded s)
    have hword (x : Nat) (hx : x ≠ CUE_LOAD_CTRL.FAIL.addr) (hc : x ≠ CALL_OVERFLOW.COUNT.addr) :
        ((cueInvalid slot off (loadEnded s)).setFlag CUE_LOAD_CTRL.FAIL true).word x =
          (setSlotValid slot false (loadEnded s)).word x := by
      rw [hi]
      exact (State.word_setFld_ne _ _ _ hx).trans (hr x hc)
    have hfail : ((cueInvalid slot off (loadEnded s)).setFlag CUE_LOAD_CTRL.FAIL true).flag CUE_LOAD_CTRL.FAIL = true :=
      State.flag_setFlag_same _ _ true rfl rfl
    refine ⟨_, exec_cueLoadComplete_bad h hp, ?_, hfail, ?_, ?_⟩
    · refine (State.flag_setFld_apart _ _ _ _ (by decide) (by decide)).trans ?_
      have hbusy : (cueInvalid slot off (loadEnded s)).word CUE_LOAD_CTRL.BUSY.addr =
          (setSlotValid slot false (loadEnded s)).word CUE_LOAD_CTRL.BUSY.addr := by
        rw [hi]
        exact hr _ (by decide)
      refine (State.flag_of_word hbusy).trans ?_
      exact (State.flag_of_word (setSlotValid_word_ne slot false _ (by decide) (by decide))).trans (loadEnded_busy s)
    · rw [slotValid_congr (hword _ (by decide) (by decide)) (hword _ (by decide) (by decide))]
      exact slotValid_setSlotValid hslot false _
    · rw [hi]
      rfl
  case overlay =>
    intro s addr v off haddr hoff hl hm hlen
    have hsub : addr.toNat - 0x10000000 = off := by omega
    have hexec : exec (.shadowWrite addr v) s =
        .next (setPending { s.cue.pending with overlay := keySet s.cue.pending.overlay off v } (busOk 0 s)) := by
      simp only [exec, execShadowWrite, hsub]
      exact congrArg _ (shadowedWrite_taken (s := busOk 0 s) v hoff hl hm hlen)
    exact ⟨_, hexec, keyGet_keySet_same .., fun o ho => keyGet_keySet_ne _ _ ho, rfl, rfl, fun _ _ => rfl⟩

end Sys2Proof.Machine
end

section
/-! PROOFS. What wakes the device from Midnight (R53, R213, R437, R448). -/

namespace Sys2Proof.Machine

/-! ### The panel stops (R499) -/

theorem viewEnds_frame (s : State) : ∃ r v, viewEnds s = { s with regs := r, view := v } ∧
    ∀ a, a ≠ VIEW_STATUS.STATE.addr → readAt 0 r a = s.word a := by
  unfold viewEnds
  split
  · have hpanel := fun a (ha : a ≠ VIEW_STATUS.STATE.addr) => State.word_setFld_ne s VIEW_STATUS.STATE 3 ha
    unfold viewStop
    extract_lets s1
    split
    · exact ⟨_, _, rfl, hpanel⟩
    · exact ⟨_, _, rfl, hpanel⟩
  · exact ⟨s.regs, _, rfl, fun _ _ => rfl⟩

/-! ### A transition begins (R44, R46) -/

theorem beginTransition_xfer (t : Transition) (s : State) : (beginTransition t s).power.xfer = some t := by
  have hx : (setXfer (some t) (abortSession s)).power.xfer = some t := rfl
  unfold beginTransition
  extract_lets s1
  split
  · obtain ⟨r, v, h, -⟩ := viewEnds_frame s1
    rw [h]
    exact hx
  · exact hx

/-- A wake into Intermission begins the transition from Midnight (R53). -/
theorem wakeTo_intermission {s : State} (hm : s.mode = 7) (hx : s.power.xfer = none) :
    ∃ x, (wakeTo 6 s).power.xfer = some x ∧ x.src = 7 ∧ x.dst = 6 := by
  have hnot : ¬ (s.mode ≠ 7 ∨ s.power.xfer.isSome = true) := by simp [hm, hx]
  have heq : wakeTo 6 s = beginTransition (transitionTo s 6 false) s := by
    unfold wakeTo
    rw [if_neg hnot]
    rfl
  exact ⟨transitionTo s 6 false, heq ▸ beginTransition_xfer _ s, hm, rfl⟩

/-! ### Alarms and wake frames -/

/-- The registers of an alarm that fires (R437). -/
def alarmShown (s : State) : State :=
  ((s.setFlag TIME_ALARM_SEC_HI.EN false).setFlag TIME_KA_STATUS.FRAME_ALARM false).orBit TIME_EVENT.EVENT 5

theorem alarmShown_regs (s : State) :
    RegsBut s (alarmShown s) [TIME_ALARM_SEC_HI.EN.addr, TIME_KA_STATUS.FRAME_ALARM.addr, TIME_EVENT.EVENT.addr] :=
  (((RegsBut.refl s _).setFld (f := TIME_ALARM_SEC_HI.EN) (by simp) _).setFld (f := TIME_KA_STATUS.FRAME_ALARM) (by simp) _).setFld
    (f := TIME_EVENT.EVENT) (by simp) _

theorem alarmShown_fields (s : State) : (alarmShown s).flag TIME_ALARM_SEC_HI.EN = false ∧
    (alarmShown s).flag TIME_KA_STATUS.FRAME_ALARM = false ∧ ((alarmShown s).fld TIME_EVENT.EVENT).testBit 5 = true := by
  refine ⟨?_, ?_, State.testBit_orBit_same _ _ _ (by decide) (by decide)⟩
  · exact (State.flag_setFld_apart _ _ _ _ (by decide) (by decide)).trans
      ((State.flag_setFld_apart _ _ _ _ (by decide) (by decide)).trans (State.flag_setFlag_same s _ false rfl rfl))
  · exact (State.flag_setFld_apart _ _ _ _ (by decide) (by decide)).trans (State.flag_setFlag_same _ _ false rfl rfl)

theorem exec_alarmFire {s : State} (hen : s.flag TIME_ALARM_SEC_HI.EN = true) (hdue : alarmNs s ≤ s.nowNs) (hm : s.mode ≠ 7) :
    exec .alarmFire s = .next { alarmShown s with
      call := { s.call with coIrqs := s.call.coIrqs + 1, smIrqs := s.call.smIrqs + 1 } } := by
  have hmode : (alarmShown s).mode = s.mode := State.fld_congr_word (alarmShown_regs s _ (by decide))
  have hnot : ¬ (alarmShown s).mode = 7 := hmode ▸ hm
  have hexec : exec .alarmFire s = .next (alarmFires s) := if_pos ⟨hen, hdue⟩
  rw [hexec]
  refine congrArg _ ?_
  exact if_neg hnot

/-- A wake frame that R448 takes. -/
structure WakeFrame (s : State) (b : List Byte) : Prop where
  mode : s.mode = 7
  up : netUp s 0 = true
  en : s.flag TIME_KA_CTRL.WAKE_EN = true
  len : 33 ≤ b.length
  magic : b.take 4 = [0x45, 0x57, 0x41, 0x4B]
  names : wakeNames s b = true
  into : leAt b 22 1 = 6

theorem WakeFrame.taken {s : State} {b : List Byte} (h : WakeFrame s b) :
    ¬ (s.mode ≠ 7 ∨ netUp s 0 = false ∨ s.flag TIME_KA_CTRL.WAKE_EN = false ∨ b.length < 33 ∨
      b.take 4 ≠ [0x45, 0x57, 0x41, 0x4B] ∨ wakeNames s b = false ∨ (leAt b 22 1 ≠ 2 ∧ leAt b 22 1 ≠ 6)) := by
  have := h.len
  simp [h.mode, h.up, h.en, h.magic, h.names, h.into, this]

/-- The alarm that a wake frame arms (R448). -/
def frameAlarm (sec ns m : Nat) (s : State) : State :=
  let s := ((s.setFld TIME_ALARM_NS.VALUE ns).setFld TIME_ALARM_SEC_LO.VALUE sec).setFld TIME_ALARM_SEC_HI.SEC (sec / 2 ^ 32)
  let s := (s.setFlag TIME_ALARM_SEC_HI.EN true).setFlag TIME_KA_STATUS.FRAME_ALARM true
  s.setFlag TIME_KA_STATUS.FRAME_MODE (m == 6)

theorem exec_wakeFrame_timed {s : State} {b : List Byte} (h : WakeFrame s b) (hs : leAt b 23 6 ≠ 0) :
    exec (.wakeFrame b) s = .next (frameAlarm (leAt b 23 6) (leAt b 29 4) (leAt b 22 1) s) := by
  refine (if_neg h.taken).trans ?_
  exact if_neg (fun hz => hs hz.1)

theorem exec_wakeFrame_now {s : State} {b : List Byte} (h : WakeFrame s b) (hs : leAt b 23 6 = 0) (hn : leAt b 29 4 = 0) :
    exec (.wakeFrame b) s = .next (wakeUp 6 s) := by
  refine (if_neg h.taken).trans ?_
  exact (if_pos ⟨hs, hn⟩).trans (by rw [h.into])

theorem frameAlarm_fields (sec ns : Nat) (s : State) : (frameAlarm sec ns 6 s).flag TIME_ALARM_SEC_HI.EN = true ∧
    (frameAlarm sec ns 6 s).flag TIME_KA_STATUS.FRAME_ALARM = true ∧ (frameAlarm sec ns 6 s).flag TIME_KA_STATUS.FRAME_MODE = true ∧
    (frameAlarm sec ns 6 s).fld TIME_ALARM_NS.VALUE = ns % 2 ^ TIME_ALARM_NS.VALUE.width ∧ (frameAlarm sec ns 6 s).mode = s.mode := by
  refine ⟨?_, ?_, State.flag_setFlag_same _ _ true rfl rfl, ?_, ?_⟩
  · exact (State.flag_setFld_apart _ _ _ _ (by decide) (by decide)).trans
      ((State.flag_setFld_apart _ _ _ _ (by decide) (by decide)).trans (State.flag_setFlag_same _ _ true rfl rfl))
  · exact (State.flag_setFld_apart _ _ _ _ (by decide) (by decide)).trans (State.flag_setFlag_same _ _ true rfl rfl)
  all_goals
    refine (State.fld_setFld_apart _ _ _ _ (by decide) (by decide)).trans <|
      (State.fld_setFld_apart _ _ _ _ (by decide) (by decide)).trans <|
      (State.fld_setFld_apart _ _ _ _ (by decide) (by decide)).trans <|
      (State.fld_setFld_apart _ _ _ _ (by decide) (by decide)).trans <|
      (State.fld_setFld_apart _ _ _ _ (by decide) (by decide)).trans ?_
  · exact State.fld_setFld_same s _ ns (by decide)
  · exact State.fld_setFld_apart s _ _ _ (by decide) (by decide)

/-- Settles O20. -/
theorem wakesLeaveMidnight : Obligations.WakesLeaveMidnight := by
  unfold Obligations.WakesLeaveMidnight
  refine ⟨?alarm, ?timed, ?now, ?pin⟩
  case alarm =>
    intro s hen hdue hm
    obtain ⟨hoff, hframe, hevent⟩ := alarmShown_fields s
    have hregs := alarmShown_regs s
    refine ⟨_, exec_alarmFire hen hdue hm, ?_, ?_, ?_, ?_⟩
    · exact hoff
    · exact hframe
    · exact hevent
    · exact ⟨rfl, hregs⟩
  case timed =>
    intro s b hm hup hen hlen hmagic hnames hinto hs
    have h : WakeFrame s b := ⟨hm, hup, hen, hlen, hmagic, hnames, hinto⟩
    obtain ⟨h1, h2, h3, h4, h5⟩ := frameAlarm_fields (leAt b 23 6) (leAt b 29 4) s
    exact ⟨_, hinto ▸ exec_wakeFrame_timed h hs, h1, h2, h3, h4, h5.trans hm⟩
  case now =>
    intro s b hm hup hx hen hlen hmagic hnames hinto hs hn
    have h : WakeFrame s b := ⟨hm, hup, hen, hlen, hmagic, hnames, hinto⟩
    have hwake : wakeUp 6 s = wakeTo 6 (s.orBit TIME_EVENT.EVENT 0) := if_neg (by simp [hx])
    have hm' : (s.orBit TIME_EVENT.EVENT 0).mode = 7 :=
      (State.fld_setFld_apart s _ _ _ (by decide) (by decide)).trans hm
    exact ⟨_, exec_wakeFrame_now h hs hn, hwake ▸ wakeTo_intermission hm' hx⟩
  case pin =>
    intro s pin hm hx hwake hmode
    have hexec : exec (.trigWakeEdge pin) s = .next (wakeTo (wakeMode (s.flag TIME_KA_CTRL.WAKE_MODE)) s) := if_pos ⟨hm, hwake⟩
    rw [hmode] at hexec
    exact ⟨_, hexec, wakeTo_intermission hm hx⟩

end Sys2Proof.Machine
end

section
/-! PROOFS. The ways out of Dark (R14, R542, R556). -/

namespace Sys2Proof.Machine

/-- The log entry of a link that went down, which happened once. -/
def linkDownEntry : CallEntry :=
  { seq := 0, code := 14 * 1024, cls := .warning, nested := false, critical := false, safe := false, done := false, inst := 0
    firstSec := 0, firstNs := 0, count := 1, lastNs := 0, lastSec := 0, detail := 0, terminal := false }

/-- Ethernet port 0 has its link, and the loss of an earlier one stands in the log, within the time of coalescing. -/
def linkUpAgain : State :=
  { withFlds [(CUE_STATUS.MODE, 2), (POWER_STATUS.ON, 2 ^ 26), (NET_STATUS.LINK 0, 1), (TIME_CTRL.SERVO_PORT, 1),
      (CALL_CTRL.COALESCE_MS, 1), (CLOCK_STATUS.REFCLK_OK, 1), (POWER_RAIL.PG, 1)] with
    call := { callInit with log := [linkDownEntry], recent := [0] }
    power := { powerInit with dark := .none } }

/-- How often each entry of the log has occurred once a command is done. -/
def loggedCounts : Host.Outcome State Fault Refusal → List Nat
  | .next t => t.call.log.map (fun e => e.count)
  | _ => []

theorem linkUpAgain_ready : linkUpAgain.flag THERM_STATUS.CURTAIN = false ∧ linkUpAgain.flag CLOCK_STATUS.REFCLK_OK = true ∧
    linkUpAgain.flag KLINK_STATUS.PRIN = false ∧ (linkUpAgain.fld POWER_RAIL.PG).testBit 0 = true := by decide +kernel

theorem loggedCounts_linkUpAgain : loggedCounts (exec .warmResetCommand linkUpAgain) = [2] := by decide +kernel

/-- Refutes O21: its last clause leaves out that the way to Dark takes the links down, and that the event of a link may join an entry
of the log (R424, R556). -/
theorem not_resetsAndDawn : ¬ Obligations.ResetsAndDawn := by
  rintro ⟨-, -, -, -, -, -, -, -, -, h⟩
  obtain ⟨hcurtain, hclock, hprin, hpg⟩ := linkUpAgain_ready
  obtain ⟨t, hexec, -, -, -, -, hlog, -⟩ := h linkUpAgain rfl hcurtain hclock rfl rfl rfl hprin hpg
  have hcounts := loggedCounts_linkUpAgain
  rw [hexec, loggedCounts, hlog] at hcounts
  exact absurd hcounts (by decide)

end Sys2Proof.Machine
end

section
/-! PROOFS. Records of the journal, lifecycle actions, CONFIRM and ADVANCE (R79, R88 to R93, R99, R100, R103). -/

namespace Sys2Proof.Machine

/-! ### Bytes of a record -/

theorem length_leBytes (n v : Nat) : (leBytes n v).length = n := by simp [leBytes]

theorem length_padTo (n : Nat) (bs : List Byte) : (padTo n bs).length = n := by
  simp only [padTo, List.length_append, List.length_take, List.length_replicate]
  omega

theorem length_recordBytes (type seq : Nat) (t : DevTime) (payload : List Byte) : (recordBytes type seq t payload).length = 256 := by
  simp only [recordBytes, List.length_append, length_leBytes, length_padTo, List.length_replicate, List.length_cons, List.length_nil]

theorem length_readList {w : Nat} (d : BitVec w) (m : Sparse w) (a n : Nat) : (readList d m a n).length = n := by simp [readList]

/-- What was written reads back. -/
theorem readList_writeList_same {w : Nat} (d : BitVec w) (m : Sparse w) (a : Nat) (vs : List (BitVec w)) :
    readList d (writeList d m a vs) a vs.length = vs := by
  refine List.ext_getElem (length_readList ..) fun i h1 h2 => ?_
  simp only [readList, List.getElem_map, List.getElem_range]
  exact readAt_writeList_in m a vs h2

/-- A read outside of what was written. -/
theorem readList_writeList_ne {w : Nat} (d : BitVec w) (m : Sparse w) {a b n : Nat} {vs : List (BitVec w)}
    (h : b + n ≤ a ∨ a + vs.length ≤ b) : readList d (writeList d m a vs) b n = readList d m b n := by
  refine List.map_congr_left fun i hi => ?_
  rw [List.mem_range] at hi
  exact readAt_writeList_ne m a vs (by omega)

/-! ### A record of the device -/

/-- The registers in which a record of the device may show. -/
def recordRegs : List Nat := [NVMC_JRNL_SEQ.DATA.addr, NVMC_STATUS.FULL.addr, CALL_OVERFLOW.COUNT.addr]

/-- What a record of the device leaves of the device. -/
structure Recorded (s t : State) : Prop where
  otp : t.trust.otp = s.trust.otp
  service : t.trust.service = s.trust.service
  window : t.trust.windowFrom = s.trust.windowFrom
  regs : RegsBut s t recordRegs
  spent : s.fld NVMC_JRNL_SEQ.DATA + 1 < 2 ^ 32 → t.trust.jrnlSpent = false ∧
    t.fld NVMC_JRNL_SEQ.DATA ≤ s.fld NVMC_JRNL_SEQ.DATA + 1

theorem holdRecord_recorded (refused : Bool) (type : Nat) (payload : List Byte) {s : State} (h : s.trust.jrnlSpent = false) :
    Recorded s (holdRecord refused type payload s) :=
  ⟨rfl, rfl, rfl, .of_regs rfl _, fun _ => ⟨h, Nat.le_succ _⟩⟩

theorem journalFull_frame (s : State) : ∃ r c l, journalFull s = { s with regs := r, call := c, ledger := l } ∧
    ∀ a, a ≠ CALL_OVERFLOW.COUNT.addr → a ≠ NVMC_STATUS.FULL.addr → readAt 0 r a = s.word a := by
  obtain ⟨r, c, l, h, hr⟩ := postEvent_frame
    (e := { cls := .recoverable, block := 24, cause := 0x204, inst := 0xFF, detail := NVMC_OP.OP.addr }) (by simp)
    (s.setFlag NVMC_STATUS.FULL true)
  exact ⟨r, c, l, h, fun a ha hf => (hr a ha).trans (State.word_setFld_ne s _ _ hf)⟩

theorem journalFull_recorded {s : State} (h : s.trust.jrnlSpent = false) : Recorded s (journalFull s) := by
  obtain ⟨r, c, l, heq, hr⟩ := journalFull_frame s
  have hregs : RegsBut s (journalFull s) recordRegs := by
    intro a ha
    simp only [recordRegs, List.mem_cons, List.not_mem_nil, or_false, not_or] at ha
    rw [heq]
    exact hr a ha.2.2 ha.2.1
  have hseq : (journalFull s).fld NVMC_JRNL_SEQ.DATA = s.fld NVMC_JRNL_SEQ.DATA := State.fld_congr_word (by
    rw [heq]
    exact hr _ (by decide) (by decide))
  rw [heq] at hregs hseq ⊢
  exact ⟨rfl, rfl, rfl, hregs, fun _ => ⟨h, by rw [hseq]; exact Nat.le_succ _⟩⟩

/-- The record is programmed into page `p` of both copies and counted (R103). -/
def recorded (p type : Nat) (payload : List Byte) (s : State) : State :=
  advanceJournal p (s.fld NVMC_JRNL_SEQ.DATA) (programBoth p (recordBytes type (s.fld NVMC_JRNL_SEQ.DATA) s.time payload) s)

theorem advanceJournal_seq (p seq : Nat) (s : State) :
    (advanceJournal p seq s).fld NVMC_JRNL_SEQ.DATA = (seq + 1) % 2 ^ 32 :=
  State.fld_setFld_same s NVMC_JRNL_SEQ.DATA (seq + 1) (by decide)

theorem advanceJournal_regs (p seq : Nat) (s : State) : RegsBut s (advanceJournal p seq s) [NVMC_JRNL_SEQ.DATA.addr] :=
  (RegsBut.refl s _).setFld (f := NVMC_JRNL_SEQ.DATA) (by simp) _

theorem advanceJournal_nvm (p seq : Nat) (s : State) : (advanceJournal p seq s).nvm = s.nvm := rfl

theorem programBoth_regs (p : Nat) (data : List Byte) (s : State) : (programBoth p data s).regs = s.regs := rfl

theorem recorded_seq (p type : Nat) (payload : List Byte) (s : State) :
    (recorded p type payload s).fld NVMC_JRNL_SEQ.DATA = (s.fld NVMC_JRNL_SEQ.DATA + 1) % 2 ^ 32 := advanceJournal_seq ..

theorem recorded_regs (p type : Nat) (payload : List Byte) (s : State) :
    RegsBut s (recorded p type payload s) [NVMC_JRNL_SEQ.DATA.addr] :=
  (RegsBut.of_regs (programBoth_regs ..) _).trans (advanceJournal_regs _ _ _)

theorem recorded_recorded (p type : Nat) (payload : List Byte) (s : State) : Recorded s (recorded p type payload s) := by
  refine ⟨rfl, rfl, rfl, (recorded_regs p type payload s).mono (by simp [recordRegs]), fun h => ⟨?_, ?_⟩⟩
  · have : ¬ s.fld NVMC_JRNL_SEQ.DATA + 1 = 2 ^ 32 := by omega
    exact decide_eq_false this
  · rw [recorded_seq]
    exact Nat.mod_le ..

theorem deviceRecord_programmed {s : State} {p : Nat} (hs : s.trust.jrnlSpent = false) (hb : nvmBlocked s = false)
    (hp : nextPage s = some p) (type : Nat) (payload : List Byte) : deviceRecord type payload s = recorded p type payload s := by
  simp only [deviceRecord, hs, hb, hp, Bool.false_eq_true, if_false]
  rfl

/-- A record of the device while SEQ is not exhausted. -/
theorem deviceRecord_recorded (type : Nat) (payload : List Byte) {s : State} (hs : s.trust.jrnlSpent = false) :
    Recorded s (deviceRecord type payload s) := by
  by_cases hb : nvmBlocked s = true
  · have : deviceRecord type payload s = holdRecord false type payload s := by
      simp only [deviceRecord, hs, hb, Bool.false_eq_true, if_true, if_false]
    exact this ▸ holdRecord_recorded false type payload hs
  · rw [Bool.not_eq_true] at hb
    cases hp : nextPage s with
    | none =>
      have : deviceRecord type payload s = journalFull s := by
        simp only [deviceRecord, hs, hb, hp, Bool.false_eq_true, if_false]
      exact this ▸ journalFull_recorded hs
    | some p => exact deviceRecord_programmed hs hb hp type payload ▸ recorded_recorded p type payload s

/-! ### What the trust registers show (R87 to R95) -/

theorem setFld_frame (s : State) (f : Fld) (n : Nat) : ∃ r, s.setFld f n = { s with regs := r } := ⟨_, rfl⟩

theorem foldl_setFld_frame {α : Type} (f : α → Fld) (v : State → α → Nat) (l : List α) (s : State) :
    ∃ r, l.foldl (fun s i => s.setFld (f i) (v s i)) s = { s with regs := r } := by
  induction l generalizing s with
  | nil => exact ⟨s.regs, rfl⟩
  | cons a l ih => exact ih (s.setFld (f a) (v s a))

theorem word_foldl_setFld_index {α : Type} (f : α → Fld) (v : State → α → Nat) (l : List α) (s : State) {a : Nat}
    (h : ∀ i ∈ l, a ≠ (f i).addr) : (l.foldl (fun s i => s.setFld (f i) (v s i)) s).word a = s.word a := by
  induction l generalizing s with
  | nil => rfl
  | cons b l ih =>
    exact (ih _ fun i hi => h i (List.mem_cons_of_mem _ hi)).trans (State.word_setFld_ne _ _ _ (h b List.mem_cons_self))

/-- The fields of TRUST_STATUS that follow the OTP. -/
def showStatus (s : State) : State :=
  let s := s.setFld TRUST_STATUS.LIFECYCLE (lifecycleCode s)
  let s := s.setFld TRUST_STATUS.FLOOR s.trust.otp.rollbackSteps
  let s := s.setFlag TRUST_STATUS.OPENED (s.trust.otp.sealSteps != 0)
  let s := s.setFlag TRUST_STATUS.MAKER_ENROLLED (activeMaker s.trust.otp).isSome
  s.setFld TRUST_STATUS.MAKER_IDX ((activeMaker s.trust.otp).getD 0)

theorem showTrust_eq (s : State) : showTrust s =
    (List.range 4).foldl (fun s i => s.setFld (TRUST_DEVICE_ID.DATA i) (leAt (deviceId s) (4 * i) 4)) (showStatus s) := rfl

theorem showStatus_frame (s : State) : ∃ r, showStatus s = { s with regs := r } := ⟨_, rfl⟩

theorem showTrust_frame (s : State) : ∃ r, showTrust s = { s with regs := r } := by
  obtain ⟨r, h⟩ := showStatus_frame s
  obtain ⟨r', h'⟩ := foldl_setFld_frame TRUST_DEVICE_ID.DATA (fun s i => leAt (deviceId s) (4 * i) 4) (List.range 4) (showStatus s)
  refine ⟨r', ?_⟩
  rw [showTrust_eq, h', h]

theorem showStatus_word (s : State) {a : Nat} (h : a ≠ TRUST_STATUS.LIFECYCLE.addr) : (showStatus s).word a = s.word a :=
  (State.word_setFld_ne _ TRUST_STATUS.MAKER_IDX _ h).trans <| (State.word_setFld_ne _ TRUST_STATUS.MAKER_ENROLLED _ h).trans <|
    (State.word_setFld_ne _ TRUST_STATUS.OPENED _ h).trans <| (State.word_setFld_ne _ TRUST_STATUS.FLOOR _ h).trans
    (State.word_setFld_ne s TRUST_STATUS.LIFECYCLE _ h)

theorem showTrust_word_id (s : State) {a : Nat} (h : a < 0x20020 ∨ 0x20030 ≤ a) : (showTrust s).word a = (showStatus s).word a := by
  rw [showTrust_eq]
  refine word_foldl_setFld_index _ _ _ _ fun i hi => ?_
  rw [List.mem_range] at hi
  simp only [TRUST_DEVICE_ID.DATA]
  omega

theorem showTrust_word (s : State) {a : Nat} (h : a < 0x20000 ∨ 0x20030 ≤ a) : (showTrust s).word a = s.word a := by
  rw [showTrust_word_id s (by omega), showStatus_word s (by simp only [TRUST_STATUS.LIFECYCLE]; omega)]

theorem showTrust_lifecycle (s : State) : (showTrust s).fld TRUST_STATUS.LIFECYCLE = lifecycleCode s % 8 := by
  rw [State.fld_congr_word (showTrust_word_id s (by decide))]
  refine (State.fld_setFld_apart _ _ _ _ (by decide) (by decide)).trans ?_
  refine (State.fld_setFld_apart _ _ _ _ (by decide) (by decide)).trans ?_
  refine (State.fld_setFld_apart _ _ _ _ (by decide) (by decide)).trans ?_
  refine (State.fld_setFld_apart _ _ _ _ (by decide) (by decide)).trans ?_
  exact State.fld_setFld_same s TRUST_STATUS.LIFECYCLE _ (by decide)

/-! ### Lifecycle actions (R90, R93, R100) -/

/-- Two records follow a change of the lifecycle (R93, R100). -/
theorem lifecycleRecords_recorded {s : State} (hs : s.trust.jrnlSpent = false) (hq : s.fld NVMC_JRNL_SEQ.DATA + 2 < 2 ^ 32)
    (action inst old : Nat) (key : List Byte) :
    Recorded s (lifecycleRecord old 0 s) ∧ Recorded (lifecycleRecord old 0 s) (privRecord action inst key (lifecycleRecord old 0 s)) := by
  have h := deviceRecord_recorded 3 (leBytes 1 old ++ leBytes 1 (lifecycleCode s) ++ leBytes 1 0 ++ [0] ++ deviceId s) hs
  exact ⟨h, deviceRecord_recorded 5 _ (h.spent (by omega)).1⟩

/-- What a lifecycle change shows once its records are made. -/
theorem lifecycleShown {s : State} (hs : s.trust.jrnlSpent = false) (hq : s.fld NVMC_JRNL_SEQ.DATA + 2 < 2 ^ 32)
    (action inst old : Nat) (key : List Byte) {t : State}
    (ht : t = privRecord action inst key (lifecycleRecord old 0 (showTrust s))) :
    t.trust.otp = s.trust.otp ∧ t.trust.service = s.trust.service ∧ t.fld TRUST_STATUS.LIFECYCLE = lifecycleCode s % 8 := by
  obtain ⟨r, hr⟩ := showTrust_frame s
  have hs' : (showTrust s).trust = s.trust := by rw [hr]
  have hseq : (showTrust s).fld NVMC_JRNL_SEQ.DATA = s.fld NVMC_JRNL_SEQ.DATA :=
    State.fld_congr_word (showTrust_word s (.inr (by decide)))
  obtain ⟨h1, h2⟩ := lifecycleRecords_recorded (s := showTrust s) (by rw [hs']; exact hs) (by rw [hseq]; exact hq) action inst old key
  rw [← ht] at h2
  refine ⟨h2.otp.trans (h1.otp.trans (congrArg _ hs')), h2.service.trans (h1.service.trans (congrArg _ hs')), ?_⟩
  rw [State.fld_congr_word (h2.regs _ (by decide)), State.fld_congr_word (h1.regs _ (by decide))]
  exact showTrust_lifecycle s

/-- A privileged action of TRUST_PRIV_REQ that its lifecycle allows. -/
theorem lifecycleAction_allowed {s : State} (hp : privilege s = true) (action : Nat) (f : State → State) :
    lifecycleAction action true f s =
      privRecord action 0xFF [] (lifecycleRecord (lifecycleCode s) 0 (showTrust (f (busOk 0 s)))) := by
  have hp' : privilege (busOk 0 s) = true := hp
  simp only [lifecycleAction, hp', Bool.true_eq_false, if_false]
  rfl

/-- What a privileged action leaves, whose change `f` moves neither the journal nor a register. -/
theorem lifecycleAction_shown {s : State} {allowed : Bool} {f : State → State} (ha : allowed = true) (hp : privilege s = true)
    (hs : (f (busOk 0 s)).trust.jrnlSpent = false) (hr : (f (busOk 0 s)).regs = s.regs)
    (hq : s.fld NVMC_JRNL_SEQ.DATA + 2 < 2 ^ 32) (action : Nat) :
    (lifecycleAction action allowed f s).trust.otp = (f (busOk 0 s)).trust.otp ∧
    (lifecycleAction action allowed f s).trust.service = (f (busOk 0 s)).trust.service ∧
    (lifecycleAction action allowed f s).fld TRUST_STATUS.LIFECYCLE = lifecycleCode (f (busOk 0 s)) % 8 := by
  subst ha
  refine lifecycleShown hs ?_ action 0xFF (lifecycleCode s) [] (lifecycleAction_allowed hp action f)
  rwa [State.fld_congr hr]

theorem lifecycleAction_denied {s : State} (hp : privilege s = false) (action : Nat) (allowed : Bool) (f : State → State) :
    lifecycleAction action allowed f s = privDenied action (busOk 0 s) := by
  have hp' : privilege (busOk 0 s) = false := hp
  simp only [lifecycleAction, hp', if_true]

theorem makerKeyAt_busOk (s : State) : makerKeyAt (busOk 0 s) = makerKeyAt s := rfl

theorem exec_provision_blank {s : State} {a : Nat} (hp : privilege s = true) (hl : s.trust.otp.lifecycle = 0)
    (hk : makerKeyAt s = some a) :
    exec (.provision true) s = .next (provisionBlank (sha3_512 (s.scratchBytes a 2592)) (busOk 0 s)) := by
  have hp' : privilege (busOk 0 s) = true := hp
  have hl' : (busOk 0 s).trust.otp.lifecycle = 0 := hl
  simp only [exec, execProvision, hp', makerKeyAt_busOk, hk]
  rw [if_neg (by simp), if_neg (by rw [hl']; decide), if_pos hl']
  rfl

theorem exec_provision_replace {s : State} {a i : Nat} (hp : privilege s = true) (hl : s.trust.otp.lifecycle ≠ 0)
    (hl8 : s.trust.otp.lifecycle ≠ 8) (hk : makerKeyAt s = some a) (hi : activeMaker s.trust.otp = some i)
    (hn : s.trust.otp.makerDigests.length < 4) :
    exec (.provision true) s = .next (replaceMaker (sha3_512 (s.scratchBytes a 2592)) i (busOk 0 s)) := by
  have hp' : privilege (busOk 0 s) = true := hp
  simp only [exec, execProvision, hp', makerKeyAt_busOk, hk, busOk_trust, hl8, hl, hi, if_false,
    Bool.true_eq_false]
  exact if_neg (Nat.not_le.2 hn)

theorem replaceMaker_otp {s : State} (hs : s.trust.jrnlSpent = false) (key : List Byte) (i : Nat) :
    (replaceMaker key i s).trust.otp = { s.trust.otp with
      makerDigests := s.trust.otp.makerDigests ++ [key], makerRevoke := s.trust.otp.makerRevoke ||| 2 ^ i } := by
  unfold replaceMaker
  extract_lets o u
  obtain ⟨r, hr⟩ := showTrust_frame u
  have htrust : (showTrust u).trust = u.trust := by rw [hr]
  have hspent : (showTrust u).trust.jrnlSpent = false := by
    rw [htrust]
    exact hs
  exact (deviceRecord_recorded 5 _ hspent).otp.trans (by rw [htrust]; rfl)

theorem exec_provision_denied {s : State} (hp : privilege s = false) (b : Bool) :
    exec (.provision b) s = .next (privDenied 1 (busOk 0 s)) := by
  have hp' : privilege (busOk 0 s) = false := hp
  simp only [exec, execProvision, hp', if_true]

/-! ### CONFIRM and ADVANCE (R79, R88) -/

/-- The payload of a CONFIRM record (R588). -/
def confirmPayload (s : State) (im : RunningImage) : List Byte :=
  leBytes 1 (s.fld TRUST_STATUS.SLOT) ++ [0, 0, 0] ++ leBytes 4 im.fwVersion ++ leBytes 4 im.cfgVersion

/-- The image counts as confirmed. -/
def imageConfirmed (s : State) : State := { busOk 0 s with trust := { s.trust with confirmed := true } }

theorem exec_confirm {s : State} {im : RunningImage} (hi : s.trust.image = some im) (hc : s.trust.confirmed = false) :
    exec .confirm s = .next (deviceRecord 2 (confirmPayload s im) (imageConfirmed s)) := by
  have hslot : (busOk 0 s).fld TRUST_STATUS.SLOT = s.fld TRUST_STATUS.SLOT := State.fld_congr rfl _
  simp only [exec, execConfirm, busOk_trust, hi, hc, hslot, Bool.false_eq_true, if_false, confirmPayload, imageConfirmed]

theorem nextPage_congr {s t : State} (hn : t.nvm = s.nvm) (hp : t.trust.jrnlPage = s.trust.jrnlPage) : nextPage t = nextPage s := by
  simp only [nextPage, pageErased, hn, hp]

theorem nextPage_lt {s : State} {p : Nat} (h : nextPage s = some p) : p < 8192 := by
  unfold nextPage at h
  generalize List.range 8192 = l at h
  have hm := List.mem_of_find?_eq_some h
  rw [List.mem_map] at hm
  obtain ⟨i, -, hi⟩ := hm
  omega

/-- Both copies of the page hold what was programmed (R103). -/
theorem programBoth_nvmBytes {p : Nat} (hp : p < 8192) {data : List Byte} (hd : data.length = 256) (s : State) {copy : Nat}
    (hc : copy < 2) : (programBoth p data s).nvmBytes (journalBase copy + 256 * p) 256 = data := by
  have hsame (m : Sparse 8) (a : Nat) : readList 0xFF (writeList 0xFF m a data) a 256 = data := by
    rw [← hd]
    exact readList_writeList_same ..
  have h : copy = 0 ∨ copy = 1 := by omega
  rcases h with rfl | rfl
  · refine (readList_writeList_ne (vs := data) 0xFF _ (.inl ?_)).trans (hsame ..)
    simp only [journalBase]
    omega
  · exact hsame ..

/-- Nothing outside the page changes. -/
theorem programBoth_nvm_ne {p : Nat} {data : List Byte} (s : State) {a : Nat}
    (h0 : a < journalBase 0 + 256 * p ∨ journalBase 0 + 256 * p + data.length ≤ a)
    (h1 : a < journalBase 1 + 256 * p ∨ journalBase 1 + 256 * p + data.length ≤ a) :
    readAt 0xFF (programBoth p data s).nvm a = readAt 0xFF s.nvm a :=
  (readAt_writeList_ne _ _ _ h1).trans (readAt_writeList_ne _ _ _ h0)

theorem recorded_nvm (p type : Nat) (payload : List Byte) (s : State) : (recorded p type payload s).nvm =
    (programBoth p (recordBytes type (s.fld NVMC_JRNL_SEQ.DATA) s.time payload) s).nvm := advanceJournal_nvm ..

theorem advanceJournal_confirmed (p seq : Nat) (s : State) :
    (advanceJournal p seq s).trust.confirmed = s.trust.confirmed := rfl

theorem recorded_confirmed (p type : Nat) (payload : List Byte) (s : State) :
    (recorded p type payload s).trust.confirmed = s.trust.confirmed := advanceJournal_confirmed ..

theorem recorded_nvmBytes {p : Nat} (hp : p < 8192) (type : Nat) (payload : List Byte) (s : State) {copy : Nat} (hc : copy < 2) :
    (recorded p type payload s).nvmBytes (journalBase copy + 256 * p) 256 =
      recordBytes type (s.fld NVMC_JRNL_SEQ.DATA) s.time payload := by
  rw [State.nvmBytes, recorded_nvm]
  exact programBoth_nvmBytes hp (length_recordBytes ..) s hc

theorem recorded_nvm_ne {p : Nat} (hp : p < 8192) (type : Nat) (payload : List Byte) (s : State) {a : Nat}
    (ha : a < 0x3000000 ∨ 0x3400000 ≤ a) : readAt 0xFF (recorded p type payload s).nvm a = readAt 0xFF s.nvm a := by
  have hlen := length_recordBytes type (s.fld NVMC_JRNL_SEQ.DATA) s.time payload
  rw [recorded_nvm]
  refine programBoth_nvm_ne s ?_ ?_ <;> rw [hlen] <;> simp only [journalBase] <;> omega

theorem exec_advance {s : State} (hc : s.trust.confirmed = true) : exec .advance s = .next (showTrust (setOtp
    { s.trust.otp with rollbackSteps := max s.trust.otp.rollbackSteps (s.fld TRUST_STATUS.RUN_ROLLBACK) } (busOk 0 s))) := by
  have hc' : (busOk 0 s).trust.confirmed = true := hc
  simp only [exec, execAdvance, hc', if_true]
  rfl

/-! ### The obligation -/

/-- Settles O22. -/
theorem lifecycleConfirmAndAdvance : Obligations.LifecycleConfirmAndAdvance := by
  unfold Obligations.LifecycleConfirmAndAdvance
  refine ⟨?blank, ?replace, ?actions, ?leave, ?denied, ?confirm, ?advance, ?refused⟩
  case blank =>
    intro s a hp hs hq hl hservice hk
    obtain ⟨hotp, -, hshow⟩ := lifecycleShown (s := setOtp { s.trust.otp with
      makerDigests := [sha3_512 (s.scratchBytes a 2592)], idSeed := Config.drbgSeed s.free, lifecycle := 1 }
      { busOk 0 s with free := s.free + 1 }) hs hq 1 0xFF 0 (sha3_512 (s.scratchBytes a 2592)) rfl
    refine ⟨_, exec_provision_blank hp hl hk, ?_, ?_, ?_, ?_⟩
    · exact congrArg (·.makerDigests) hotp
    · exact congrArg (·.idSeed) hotp
    · exact congrArg (·.lifecycle) hotp
    · refine hshow.trans ?_
      simp [lifecycleCode, setOtp, hservice]
  case replace =>
    intro s a i hp hs hl hl8 hk hi hn
    refine ⟨_, exec_provision_replace hp hl hl8 hk hi hn, ?_⟩
    have h := replaceMaker_otp (s := busOk 0 s) hs (sha3_512 (s.scratchBytes a 2592)) i
    exact h
  case actions =>
    intro s hp hs hq hl hservice
    have hcode : lifecycleCode s = 1 := by simp [lifecycleCode, hl, hservice]
    refine ⟨?_, ?_, ?_⟩
    · obtain ⟨hotp, hserv, hshow⟩ := lifecycleAction_shown (s := s) (allowed := lifecycleCode s == 1)
        (f := fun s => setOtp { s.trust.otp with lifecycle := 2 } s) (beq_iff_eq.2 hcode) hp hs rfl hq 2
      refine ⟨_, rfl, hotp, hshow.trans ?_, hserv.trans hservice⟩
      simp [lifecycleCode, setOtp, hservice]
    · obtain ⟨hotp, hserv, hshow⟩ := lifecycleAction_shown (s := s) (allowed := lifecycleCode s == 1 || lifecycleCode s == 2)
        (f := setService true) (by simp [hcode]) hp hs rfl hq 3
      refine ⟨_, rfl, hserv, hotp, hshow.trans ?_⟩
      simp [lifecycleCode, setService, hl]
    · obtain ⟨hotp, -, hshow⟩ := lifecycleAction_shown (s := s) (allowed := lifecycleCode s == 1 || lifecycleCode s == 2)
        (f := fun s => setOtp { s.trust.otp with lifecycle := 8, idSeed := List.replicate 32 0xFF } s) (by simp [hcode]) hp hs rfl hq 5
      refine ⟨_, rfl, hotp, hshow.trans ?_⟩
      simp [lifecycleCode, setOtp]
  case leave =>
    intro s hp hs hq hl hservice
    have hcode : lifecycleCode s = 3 := by simp [lifecycleCode, hl, hservice]
    obtain ⟨hotp, hserv, hshow⟩ := lifecycleAction_shown (s := s) (allowed := lifecycleCode s == 3) (f := setService false)
      (beq_iff_eq.2 hcode) hp hs rfl hq 4
    refine ⟨_, rfl, hserv, hotp, hshow.trans ?_⟩
    simp [lifecycleCode, setService, hl]
  case denied =>
    intro s c n hp hc
    simp only [List.mem_cons, List.not_mem_nil, or_false, Prod.mk.injEq] at hc
    rcases hc with ⟨rfl, rfl⟩ | ⟨rfl, rfl⟩ | ⟨rfl, rfl⟩ | ⟨rfl, rfl⟩ | ⟨rfl, rfl⟩ | ⟨rfl, rfl⟩
    · exact exec_provision_denied hp true
    · exact exec_provision_denied hp false
    · exact congrArg _ (lifecycleAction_denied hp 2 _ _)
    · exact congrArg _ (lifecycleAction_denied hp 3 _ _)
    · exact congrArg _ (lifecycleAction_denied hp 4 _ _)
    · exact congrArg _ (lifecycleAction_denied hp 5 _ _)
  case confirm =>
    intro s im p hi hc hs hb hp
    have hexec := exec_confirm hi hc
    rw [deviceRecord_programmed (s := imageConfirmed s) hs hb ((nextPage_congr rfl rfl).trans hp)] at hexec
    refine ⟨_, hexec, ?_, fun copy hcopy => ?_, fun a ha => ?_, ?_, ?_⟩
    · exact recorded_confirmed ..
    · exact recorded_nvmBytes (nextPage_lt hp) 2 _ _ hcopy
    · exact recorded_nvm_ne (nextPage_lt hp) 2 _ (imageConfirmed s) ha
    · exact recorded_seq ..
    · exact (RegsBut.of_regs (t := imageConfirmed s) rfl _).trans (recorded_regs _ _ _ _)
  case advance =>
    intro s hc
    obtain ⟨r, hr⟩ := showTrust_frame (setOtp { s.trust.otp with
      rollbackSteps := max s.trust.otp.rollbackSteps (s.fld TRUST_STATUS.RUN_ROLLBACK) } (busOk 0 s))
    refine ⟨_, exec_advance hc, ?_⟩
    rw [hr]
    exact ⟨rfl, sameMemory_of_stores rfl, rfl⟩
  case refused =>
    intro s hc
    have hc' : (busOk 0 s).trust.confirmed = false := hc
    simp only [exec, execAdvance, hc', Bool.false_eq_true, if_false]

end Sys2Proof.Machine
end

section
/-! PROOFS. The end of Curtain (R535, R549). -/

namespace Sys2Proof.Machine

/-- Curtain has cooled for 10 s, and PWR_PG0 is low. -/
def cooledWithoutRail0 : State :=
  { withFlds [(THERM_STATUS.CURTAIN, 1), (CLOCK_STATUS.REFCLK_OK, 1)] with
    ticks := 4000000000
    power := { powerInit with coolFrom := some 0, restart := true, dark := .curtain } }

theorem cooledWithoutRail0_ready : cooledWithoutRail0.flag THERM_STATUS.CURTAIN = true ∧
    cooledWithoutRail0.elapsedNs 0 10000000000 = true ∧ cooledWithoutRail0.flag THERM_STATUS.HELD = false ∧
    cooledWithoutRail0.flag CLOCK_STATUS.REFCLK_OK = true := by decide +kernel

theorem dark_cooledWithoutRail0 : (curtainEnd cooledWithoutRail0).power.dark = .curtain := by decide +kernel

/-- The end of the cooling period of a device that is not held ends Curtain. -/
theorem exec_curtainCoolComplete {s : State} {k : Nat} (hcool : s.power.coolFrom = some k)
    (hcurtain : s.flag THERM_STATUS.CURTAIN = true) (hlong : s.elapsedNs k 10000000000 = true)
    (hheld : s.flag THERM_STATUS.HELD = false) : exec .curtainCoolComplete s = .next (curtainEnd s) := by
  simp [exec, execCurtainCoolComplete, hcool, hcurtain, hlong, hheld]

/-- Refutes O26: its clause on the end of the cooling period leaves out that the restart waits for PWR_PG0 (R535). -/
theorem not_thermalSamplesAndCurtain : ¬ Obligations.ThermalSamplesAndCurtain := by
  rintro ⟨-, -, -, h, -⟩
  obtain ⟨hcurtain, hlong, hheld, hclock⟩ := cooledWithoutRail0_ready
  obtain ⟨t, hexec, -, hdark, -⟩ := h cooledWithoutRail0 0 rfl hcurtain hlong hheld rfl rfl hclock rfl rfl rfl
  rw [exec_curtainCoolComplete rfl hcurtain hlong hheld] at hexec
  injection hexec with ht
  rw [← ht, dark_cooledWithoutRail0] at hdark
  cases hdark

end Sys2Proof.Machine
end

section
/-! PROOFS. Lines of an open frame (R120). -/

namespace Sys2Proof.Machine

/-- A stream of one line of 4 pixels. -/
def oneLine : StreamDesc :=
  { en := true, seqchk := false, vc := 0, dt := 0x2B, cfa := 0, embMax := 0, width := 8, height := 16 }

/-- A member that takes lines. -/
def openMember (ls : List Line) : Member := { port := 0, started := true, late := false, ended := false, lines := ls }

/-- An open frame with two shares of port 0, one of which holds a line. -/
def twoShares : OpenFrame :=
  { num := 0, port := 0, desc := 0, d := oneLine, fill := 0, interleave := false
    members := [openMember [], openMember [{ bytes := [], kept := 0 }]], emb := [], since := 0, timeoutMs := 1, skewUs := 1 }

/-- Port 0 is within that frame. -/
def portWithinFrame : State :=
  { withFlds [(POWER_STATUS.ON, 2 ^ 6), (INGEST_CTRL.EN 0, 1)] with
    ingest := [{ ingestInit with opens := [twoShares] }] }

/-- The lines of each share of the frame open on descriptor 0 of port 0, once a command is done. -/
def lineCounts : Host.Outcome State Fault Refusal → List Nat
  | .next t => ((openFrame t 0 0).map (fun f => f.members.map (fun m => m.lines.length))).getD []
  | _ => []

theorem portWithinFrame_ready : portActive portWithinFrame 0 = true ∧ ingestDrops portWithinFrame 0 0 = false ∧
    findStream portWithinFrame 0 0 = some (0, oneLine) ∧ refFor portWithinFrame 0 0 = 0 ∧
    openFrame portWithinFrame 0 0 = some twoShares ∧ memberOpen twoShares 0 = true ∧ 0 < twoShares.memberLines := by
  decide +kernel

theorem lineCounts_portWithinFrame :
    lineCounts (exec (.pixelLine 0 0 0x2B [] 0 false true []) portWithinFrame) = [1, 2] := by
  decide +kernel

/-- Refutes O28: a line joins each share that bears the port's number, and each keeps the lines of its own. -/
theorem not_packetsEnterTheOpenFrame : ¬ Obligations.PacketsEnterTheOpenFrame := by
  rintro ⟨h, -⟩
  obtain ⟨hactive, hdrops, hstream, href, hopen, hmember, hlines⟩ := portWithinFrame_ready
  have hclaim := h portWithinFrame 0 0 0x2B [] 0 true 0 oneLine twoShares (openMember []) hactive hdrops
  rw [show refFor portWithinFrame (0 : Fin 4) (0 : Fin 16) = 0 from href] at hclaim
  obtain ⟨t, hexec, hframe⟩ := hclaim hstream rfl (by decide) hopen rfl hmember rfl hlines
  have hcounts := lineCounts_portWithinFrame
  rw [hexec, lineCounts, show openFrame t 0 0 = _ from hframe] at hcounts
  exact absurd hcounts (by decide)

end Sys2Proof.Machine
end

section
/-! PROOFS. Rehashes (R295). -/

namespace Sys2Proof.Machine

/-- An open frame of 64 lines, none of which stands in its slot, with a rehash of its first stripe. -/
def rehashing : Frame :=
  { closedFrame with closed := false, slot := some 0, rehash := [0], d := { closedFrame.d with height := 64 } }

/-- The ledger holds that frame alone. -/
def rehashingState : State := { withFlds [] with ledger := { ledgerInit with frames := [rehashing] } }

theorem rehashingState_ready : frameOf rehashingState 0 = some rehashing ∧
    rehashingState.poisoned (slotAddr rehashingState 0 0 + 0 * 64 / stripeCount 64 * closedFrame.d.lineBytes)
      (((0 + 1) * 64 / stripeCount 64 - 0 * 64 / stripeCount 64) * closedFrame.d.lineBytes) = false := by
  decide +kernel

/-- A stripe whose lines do not all stand in the slot is not hashed yet. -/
theorem exec_hashRehashComplete_rehashingState : exec (.hashRehashComplete 0 0) rehashingState = .next rehashingState := by
  simp only [exec, execHashRehashComplete, rehashingState_ready.1]
  rfl

/-- Refutes O36: its clause on rehashes leaves out a frame that is still open, whose lines may still be missing in the slot. -/
theorem not_frameChainAndHashJobs : ¬ Obligations.FrameChainAndHashJobs := by
  rintro ⟨-, -, -, -, -, -, h, -⟩
  obtain ⟨hframe, hclean⟩ := rehashingState_ready
  obtain ⟨t, hexec, -, hclaim⟩ := h rehashingState 0 0 0 rehashing hframe (by decide) rfl hclean
  rw [exec_hashRehashComplete_rehashingState] at hexec
  injection hexec with ht
  rw [← ht, hframe] at hclaim
  exact absurd (congrArg (fun f => f.map Frame.rehash) hclaim) (by decide)

end Sys2Proof.Machine
end

section
/-! PROOFS. A magazine port that fails in Dawn (R290, R322, R559). -/

namespace Sys2Proof.Machine

/-- The record of frame 0, which is written. -/
def writtenRecord : MagRecord :=
  { type := 1, key := 0, payload := [], frame := some 0, src := 0, lba := 0, at_ := 0, blocks := 1, placed := true, done := true }

/-- In Dawn, with a fatal event open, magazine port 0 is READY and holds the record of the last frame, and the copies of the final chain's
head differ. -/
def faultyMagazine : State :=
  { withFlds [(CUE_STATUS.MODE, 1), (POWER_STATUS.ON, 2 ^ 20 + 2 ^ 23), (MAG_STATUS.STATE 0, 4)] with
    call := { callInit with fatals := [(0, 0)] }
    hash := { hashInit with active := true, fin2 := [1] }
    mag := { magInit with ports := [{ magPortInit with queue := [writtenRecord] }, magPortInit] }
    ledger := { ledgerInit with frames := [{ closedFrame with linked := true, disp := 7, await := [0] }] } }

/-- STATE of magazine port 0 once a command is done. -/
def firstMagState : Host.Outcome State Fault Refusal → Nat
  | .next t => magState t 0
  | _ => 8

theorem magState_faultyMagazine : magState faultyMagazine 0 = 4 := by decide +kernel

theorem firstMagState_faultyMagazine : firstMagState (exec (.controllerFatalStatus 0) faultyMagazine) = 0 := by decide +kernel

/-- Refutes O37: its last clause leaves out that the end of a frame's writes may find a fault of the final chain, which leads to Dark. -/
theorem not_magazinePortsTrainAndMount : ¬ Obligations.MagazinePortsTrainAndMount := by
  rintro ⟨-, -, -, -, -, -, -, -, -, h⟩
  have hstate : magState faultyMagazine (0 : Fin 2) = 4 := magState_faultyMagazine
  obtain ⟨t, hexec, hfailed, -⟩ := h faultyMagazine 0 (by rw [hstate]; decide) (by rw [hstate]; decide)
  have hdark := firstMagState_faultyMagazine
  rw [hexec, firstMagState, show magState t 0 = 8 from hfailed] at hdark
  exact absurd hdark (by decide)

end Sys2Proof.Machine
end

section
/-! PROOFS. A lane that leaves its loopback in Dawn (R290, R409, R559). -/

namespace Sys2Proof.Machine

/-- The port of that magazine, with a lane in loopback. -/
def faultyLoopback : State := faultyMagazine.setFld (LANE_STATUS.LOOP 0) 1

theorem faultyLoopback_ready : laneOn faultyLoopback 0 = true ∧ faultyLoopback.fld (LANE_STATUS.LOOP 0) ≠ 0 ∧
    magState faultyLoopback 0 = 4 := by decide +kernel

theorem firstMagState_faultyLoopback : firstMagState (exec (.laneLoopWrite 0 0) faultyLoopback) = 0 := by decide +kernel

/-- Refutes O45: its clause on the end of a loopback leaves out that the port's frames may bring out a fault of the final chain, which leads
to Dark. -/
theorem not_lanesLockAndLoop : ¬ Obligations.LanesLockAndLoop := by
  rintro ⟨-, -, -, -, -, -, h, -⟩
  obtain ⟨hon, hloop, hstate⟩ := faultyLoopback_ready
  obtain ⟨t, hexec, hfailed⟩ := (h faultyLoopback 0 hon hloop).1 (by decide) hstate
  have hdark := firstMagState_faultyLoopback
  rw [hexec, firstMagState, show magState t 0 = 8 from hfailed] at hdark
  exact absurd hdark (by decide)

end Sys2Proof.Machine
end

section
/-! PROOFS. The pair and its link in Dawn, when the end of a frame finds that the copies of the final chain's head differ (R290, R559). -/

namespace Sys2Proof.Machine

/-- In Dawn, with a fatal event open, the copies of the final chain's head differ; the ledger holds a frame whose record is ready to be
written, and the pair of topology 1 is at work with port 0 UP. -/
def faultyPair : State :=
  { withFlds [(CUE_STATUS.MODE, 1), (POWER_STATUS.ON, 2 ^ 20 + 2 ^ 25), (KLINK_PAIR.TOPO, 1), (KLINK_STATUS.STATE0, 3)] with
    call := { callInit with fatals := [(0, 0)] }
    hash := { hashInit with active := true, fin2 := [1] }
    klink := { klinkInit with started := true }
    ledger := { ledgerInit with frames := [{ closedFrame with linked := true, disp := 5, finalAt := some 0 }], toSpill := [0] } }

/-- A frame that waits for the partner alone. -/
def mirroredFrame : Frame := { closedFrame with num := 1, linked := true, disp := 7, await := [2] }

/-- The end of that frame is not acknowledged, after 15 resends. -/
def faultyTransfer : State :=
  { faultyPair with
    ticks := 1000
    ledger := { faultyPair.ledger with frames := faultyPair.ledger.frames ++ [mirroredFrame] }
    klink := { faultyPair.klink with
      ports := [{ kportInit with replay := [.frameEnd 1 false], stuck := 15 }, kportInit]
      mirror := [{ num := 1, port := 0, since := 0 }] } }

/-- A mirror frame without members arrives on port 0. -/
def faultyArrival : State :=
  { faultyPair with
    ingest := [{ ingestInit with opens := [{ twoShares with num := 1, members := [] }] }]
    klink := { faultyPair.klink with
      ports := [{ kportInit with txmask := 15 }, kportInit]
      mirrorRx := [some { num := 1, frame := 1, port := 0, desc := 0, emb := 0, bytes := [] }, none] } }

/-- STATE of Kurnarik port 0 once a command is done. -/
def firstKState : Host.Outcome State Fault Refusal → Nat
  | .next t => kState t 0
  | _ => 1

/-- The device is Principal once a command is done. -/
def principal : Host.Outcome State Fault Refusal → Bool
  | .next t => t.flag KLINK_STATUS.PRIN
  | _ => true

/-- The count of frames that have arrived on port 0, once a command is done. -/
def framesArrived : Host.Outcome State Fault Refusal → Option Nat
  | .next t => keyGet t.klink.counts 11
  | _ => some 0

/-- A flit with a good header, the first one of a link. -/
def firstFlit : FlitHeader := { crcOk := true, rxmask := 15, nak := false, credit := 0, seq := 1, ack := 0 }

/-- A heartbeat of a Principal that leaves. -/
def leavingBeat : Heartbeat :=
  { pairId := 0, role := 0, armed := false, leaving := true, formed := true, term := 1, seq := 0, id := [], sec := 0, ns := 0, mode := 0 }

theorem faultyTransfer_ready : kUp faultyTransfer 0 = true ∧ faultyTransfer.elapsedNs (kport faultyTransfer 0).ackAt 2000 = true := by
  decide +kernel

theorem firstKState_deskewLost : firstKState (exec (.klinkDeskewLost 0) faultyTransfer) = 0 := by decide +kernel

theorem firstKState_ackTimeout : firstKState (exec (.klinkAckTimeout 0) faultyTransfer) = 0 := by decide +kernel

theorem principal_leaving : principal (exec (.heartbeatReceive none firstFlit leavingBeat) faultyPair) = false := by decide +kernel

theorem framesArrived_faultyArrival : framesArrived (exec (.frameEndFlit 0 firstFlit 1 false) faultyArrival) = none := by
  decide +kernel

/-- Refutes O52: its clause on the deskew leaves out that a frame abandoned with the link may lead to Dark, where the port is OFF. -/
theorem not_kurnarikPortsTrainAndFail : ¬ Obligations.KurnarikPortsTrainAndFail := by
  rintro ⟨-, -, -, -, h, -⟩
  obtain ⟨t, hexec, hdown, -⟩ := h faultyTransfer 0 faultyTransfer_ready.1
  have hoff := firstKState_deskewLost
  rw [hexec, firstKState, show kState t 0 = 1 from hdown] at hoff
  exact absurd hoff (by decide)

/-- Refutes O54: its clause on the sixteenth resend leaves out the same. -/
theorem not_flitsAreCheckedAndAct : ¬ Obligations.FlitsAreCheckedAndAct := by
  rintro ⟨-, -, -, -, h, -⟩
  obtain ⟨hup, hlate⟩ := faultyTransfer_ready
  obtain ⟨t, hexec, hdown⟩ := h faultyTransfer 0 hup (by decide) rfl hlate
  have hoff := firstKState_ackTimeout
  rw [hexec, firstKState, show kState t 0 = 1 from hdown] at hoff
  exact absurd hoff (by decide)

/-- Refutes O53: its clause on a leaving Principal leaves out that the records written then may bring out a fault of the final chain, and
the device is in Dark and not Principal. -/
theorem not_heartbeatsAndRoles : ¬ Obligations.HeartbeatsAndRoles := by
  rintro ⟨-, -, h, -⟩
  obtain ⟨t, hexec, hprin, -⟩ := h faultyPair firstFlit leavingBeat (by decide +kernel) (by decide +kernel) rfl (by decide +kernel) rfl
    (by decide +kernel)
  have hnot := principal_leaving
  rw [hexec, principal, hprin] at hnot
  exact absurd hnot (by decide)

/-- Refutes O55: its clause on the end of a mirror frame leaves out that the frame's close may lead to Dark, where the counts are lost. -/
theorem not_mirrorFramesCrossTheLink : ¬ Obligations.MirrorFramesCrossTheLink := by
  rintro ⟨-, -, -, h, -⟩
  obtain ⟨t, hexec, -, -, hcount⟩ := h faultyArrival 0 firstFlit false
    { num := 1, frame := 1, port := 0, desc := 0, emb := 0, bytes := [] } (by decide +kernel) rfl rfl (by decide +kernel) (by decide)
    (by decide +kernel) rfl
  have hnone := framesArrived_faultyArrival
  rw [hexec, framesArrived] at hnone
  exact absurd (hnone.symm.trans hcount) (by simp)

end Sys2Proof.Machine
end

section
/-! PROOFS. The panel's start and stop and the handles of the buffer pool (R498 to R500, R510, R511). -/

namespace Sys2Proof.Machine

theorem fld_setView (v : ViewState) (s : State) (f : Fld) : (setView v s).fld f = s.fld f := rfl

/-! ### Where the panel stands -/

theorem panelState_setView (v : ViewState) (s : State) : panelState (setView v s) = panelState s := rfl

theorem panelState_setPanel {st : Nat} (h : st < 4) (step : PanelStep) (s : State) : panelState (setPanel st step s) = st :=
  State.fld_setFld_lt s VIEW_STATUS.STATE st (by decide) h

theorem setPanel_view (st : Nat) (step : PanelStep) (s : State) :
    (setPanel st step s).view = { s.view with step := step, stepAt := s.ticks } := rfl

theorem panelState_viewStart (s : State) : panelState (viewStart s) = 1 := panelState_setPanel (by decide) _ _

/-- Nothing but the panel's state and what the Footlights hold has changed. -/
theorem setPanel_only {s u : State} (h : u = { s with view := u.view }) (st : Nat) (step : PanelStep) :
    OnlyRegs { s with view := (setPanel st step u).view } (setPanel st step u) [VIEW_STATUS.STATE.addr] := by
  refine ⟨by rw [h]; rfl, fun a ha => ?_⟩
  have hword : u.word a = s.word a := by rw [h]; rfl
  exact (State.word_setFld_ne u VIEW_STATUS.STATE st (by simpa using ha)).trans hword

/-! ### Steps of the start and the stop -/

theorem exec_startStep {s : State} (hp : panelState s = 1) (hw : s.elapsedNs s.view.stepAt (viewWaitNs s) = true) :
    exec .viewStartStep s = match s.view.step with
    | .reset => .next (setPanel 1 .afterReset (setView { s.view with rstN := true } s))
    | .afterReset => .next (setPanel 1 .sleepOut (viewSend [dcs 0x11 []] s))
    | .sleepOut => .next (setPanel 1 .script (setView { s.view with script := 0 } s))
    | _ => .next s := by
  simp only [exec, execViewStartStep, hw, hp, Bool.true_eq_false, if_false, if_true] <;> rfl

theorem exec_startStep_stop {s : State} (hp : panelState s = 3) (hs : s.view.step = .sleepIn)
    (hw : s.elapsedNs s.view.stepAt (viewWaitNs s) = true) :
    exec .viewStartStep s = .next (if s.view.restart then viewStart (setPanel 0 .none (setView { s.view with ulps := true } s))
      else setPanel 0 .none (setView { s.view with ulps := true } s)) := by
  simp only [exec, execViewStartStep, hw, hp, hs, Bool.true_eq_false, if_false, and_self, if_true]
  rfl

theorem exec_scriptEntry {s : State} {o w : Nat} (hp : panelState s = 1) (hs : s.view.step = .script) (ho : o = s.view.script)
    (hw : w = s.tab 0x44 1 o 4) (hw0 : w ≠ 0) (hlen : o + 4 + w % 256 ≤ 4096)
    (ht : s.elapsedNs s.view.stepAt (w / 65536 * 1000000) = true) :
    exec .viewScriptEntry s = .next (setView { s.view with
      sent := [dcs (bits w 15 8) (readList 0 (s.table 0x44 1) (o + 4) (w % 256))]
      script := o + 4 + roundUp (w % 256) 4, stepAt := s.ticks } s) := by
  subst ho hw
  have hon : ¬ (panelState s ≠ 1 ∨ s.view.step ≠ .script) := by simp [hp, hs]
  have hin : ¬ (4096 ≤ s.view.script ∨ s.tab 0x44 1 s.view.script 4 = 0) := by omega
  have hfit : ¬ 4096 < s.view.script + 4 + s.tab 0x44 1 s.view.script 4 % 256 := by omega
  simp only [exec, execViewScriptEntry, hon, hin, hfit, ht, if_false, Bool.true_eq_false]
  rfl

/-- What goes to the panel once its script is over (R500). -/
def runPackets (s : State) : List (Nat × List Byte) :=
  [dcs 0x3A [BitVec.ofNat 8 (if s.flag VIEW_CTRL.PANEL_FMT then 0x77 else 0x55)], dcs 0x44 (hiLo (teLine s)), dcs 0x35 [0], dcs 0x29 []]

theorem exec_scriptEnd {s : State} (hp : panelState s = 1) (hs : s.view.step = .script) (hb : s.flag VIEW_CMD.BUSY = false)
    (hend : 4096 ≤ s.view.script ∨ s.tab 0x44 1 s.view.script 4 = 0) :
    exec .viewScriptEntry s = .next (setPanel 2 .none (setView { s.view with sent := runPackets s, full := true, teFrom := s.ticks } s)) := by
  have hidle : (setPanel 2 .none (setView { s.view with sent := runPackets s, full := true, teFrom := s.ticks } s)).flag VIEW_CMD.BUSY =
      false := (State.flag_setFld_apart _ _ VIEW_STATUS.STATE _ (by decide) (by decide)).trans hb
  have hon : ¬ (panelState s ≠ 1 ∨ s.view.step ≠ .script) := by simp [hp, hs]
  simp only [exec, execViewScriptEntry, hon, hend, if_false, if_true]
  refine congrArg Host.Outcome.next ?_
  change viewCmdGo _ (setPanel 2 .none (setView { s.view with sent := runPackets s, full := true, teFrom := s.ticks } s)) = _
  simp only [viewCmdGo, viewCmdPackets, hidle, true_or, if_true, List.isEmpty_nil]

/-! ### The pool -/

theorem getElem?_modAt {α : Type} (l : List α) (i k : Nat) (f : α → α) :
    (modAt l i f)[k]? = if k = i then l[k]?.map f else l[k]? := by
  induction l generalizing i k with
  | nil => simp [modAt]
  | cons x l ih => cases i <;> cases k <;> simp [modAt, ih]

theorem poolShow_eq (s : State) : poolShow s = { s with regs := (poolShow s).regs } := rfl

theorem poolShow_regs (s : State) : RegsBut s (poolShow s) [VIEW_POOL_STATUS.FREE.addr] := fun a ha => by
  have ha : a ≠ VIEW_POOL_STATUS.FREE.addr := by simpa using ha
  exact (State.word_setFld_ne _ VIEW_POOL_STATUS.FREE _ ha).trans (State.word_setFld_ne s VIEW_POOL_STATUS.PENDING _ ha)

theorem poolShow_deferred (s : State) : (poolShow s).fld VIEW_POOL_STATUS.DEFERRED = s.fld VIEW_POOL_STATUS.DEFERRED :=
  (State.fld_setFld_apart _ _ VIEW_POOL_STATUS.FREE _ (by decide) (by decide)).trans
    (State.fld_setFld_apart s _ VIEW_POOL_STATUS.PENDING _ (by decide) (by decide))

/-- A change of handle `h` as the pool shows it. -/
theorem poolChange_of_some {s : State} {h : Nat} {x : PoolHandle} (hx : s.pool.handles[h]? = some x) (f : PoolHandle → PoolHandle) :
    ∃ y l, y = (if !x.isFree && (f x).isFree then { f x with pendingFree := false } else f x) ∧
      poolChange h f s = poolShow { s with pool := { s.pool with handles := modAt s.pool.handles h (fun _ => y) }, ledger := l } := by
  simp only [poolChange, hx]
  split
  · exact ⟨_, _, rfl, rfl⟩
  · exact ⟨_, s.ledger, rfl, rfl⟩

/-- The handle of an owner that gives it up is free, or pending while something holds it. -/
theorem poolDropOwner_of_some {s u : State} {h : Nat} {x : PoolHandle} (hu : u = poolDropOwner h s)
    (hx : s.pool.handles[h]? = some x) (ho : x.owner = 1) :
    u = { s with pool := u.pool, ledger := u.ledger, regs := u.regs } ∧
      u.pool.handles[h]? = some { x with owner := 0, pendingFree := decide (x.layers + x.pushes ≠ 0) } ∧
      RegsBut s u [VIEW_POOL_STATUS.FREE.addr] ∧ u.fld VIEW_POOL_STATUS.DEFERRED = s.fld VIEW_POOL_STATUS.DEFERRED := by
  obtain ⟨y, l, hy, hchange⟩ := poolChange_of_some hx (fun x => { x with owner := 0, pendingFree := decide (x.layers + x.pushes ≠ 0) })
  have hyx : y = { x with owner := 0, pendingFree := decide (x.layers + x.pushes ≠ 0) } := by
    rw [hy]
    split
    · next hfree =>
      simp only [PoolHandle.isFree, Bool.and_eq_true, beq_iff_eq] at hfree
      simp [hfree.2.1.2, hfree.2.2]
    · rfl
  rw [poolDropOwner, hchange, hyx] at hu
  subst hu
  refine ⟨rfl, ?_, fun a ha => (poolShow_regs _ a ha).trans rfl, (poolShow_deferred _).trans rfl⟩
  change (modAt s.pool.handles _ _)[_]? = _
  rw [getElem?_modAt, if_pos rfl, hx]
  rfl

theorem viewEvent_frame (n inst : Nat) (s : State) : ∃ r c l, viewEvent n .warning inst s = { s with regs := r, call := c, ledger := l } ∧
    ∀ a, a ≠ CALL_OVERFLOW.COUNT.addr → readAt 0 r a = (s.orBit VIEW_EVENT.EVENT (n - VIEW_EVENT.EVENT.lo)).word a := by
  obtain ⟨r, c, l, h, hr⟩ := postEvent_frame (e := { cls := .warning, block := 18, cause := n, inst := inst, detail := 0 }) (by simp)
    (s.orBit VIEW_EVENT.EVENT (n - VIEW_EVENT.EVENT.lo))
  exact ⟨r, c, l, h, hr⟩

/-- The event bit of a warning of the Footlights is set. -/
theorem viewEvent_bit {n : Nat} (h : n < VIEW_EVENT.EVENT.width) (inst : Nat) (s : State) :
    ((viewEvent n .warning inst s).fld VIEW_EVENT.EVENT).testBit n = true := by
  obtain ⟨r, c, l, heq, hr⟩ := viewEvent_frame n inst s
  have hword : (viewEvent n .warning inst s).word VIEW_EVENT.EVENT.addr = (s.orBit VIEW_EVENT.EVENT n).word VIEW_EVENT.EVENT.addr := by
    rw [heq]
    exact hr _ (by decide)
  rw [State.fld_congr_word hword]
  exact State.testBit_orBit_same s VIEW_EVENT.EVENT n (by decide) h

/-- A warning of the Footlights leaves every other register of the block. -/
theorem viewEvent_word (n inst : Nat) (s : State) {a : Nat} (h : a ≠ VIEW_EVENT.EVENT.addr) (ho : a ≠ CALL_OVERFLOW.COUNT.addr) :
    (viewEvent n .warning inst s).word a = s.word a := by
  obtain ⟨r, c, l, heq, hr⟩ := viewEvent_frame n inst s
  rw [heq]
  exact (hr a ho).trans (State.word_setFld_ne s VIEW_EVENT.EVENT _ h)

/-- A handle that firmware does not own is not freed. -/
theorem exec_poolFree_double {s : State} {v : Word} (hd : s.domainOn 27 = true)
    (hx : ∀ x, s.pool.handles[v.toNat % 64]? = some x → x.owner ≠ 1) :
    exec (.viewPoolFree v) s = .next (viewEvent 5 .warning 0xFF ((busOk 0 s).addFld VIEW_POOL_STATUS.DOUBLE 1)) := by
  have hd' : (busOk 0 s).domainOn 27 = true := hd
  have hbits : bits v.toNat 5 0 = v.toNat % 64 := by simp [bits]
  simp only [exec, execViewPoolFree, hd', hbits, Bool.true_eq_false, if_false]
  split
  · next x h => rw [if_neg (hx x h)]
  · rfl

/-- Settles O58, step by step of the panel's start and stop and by the two operations on handles. -/
theorem panelAndPoolHandles : Obligations.PanelAndPoolHandles := by
  unfold Obligations.PanelAndPoolHandles
  refine ⟨?reset, ?afterReset, ?sleepOut, ?stop, ?entry, ?run, ?alloc, ?none, ?free, ?double⟩
  case reset =>
    intro s hp hs hw
    refine ⟨_, by rw [exec_startStep hp (by rwa [viewWaitNs, hs]), hs], panelState_setPanel (by decide) _ _, rfl, ?_⟩
    exact setPanel_only rfl 1 .afterReset
  case afterReset =>
    intro s hp hs hw
    exact ⟨_, by rw [exec_startStep hp (by rwa [viewWaitNs, hs]), hs], panelState_setPanel (by decide) _ _, rfl⟩
  case sleepOut =>
    intro s hp hs hw
    exact ⟨_, by rw [exec_startStep hp (by rwa [viewWaitNs, hs]), hs], panelState_setPanel (by decide) _ _, rfl⟩
  case stop =>
    intro s hp hs hw
    refine ⟨_, exec_startStep_stop hp hs (by rwa [viewWaitNs, hs]), ?_⟩
    cases s.view.restart
    · exact ⟨panelState_setPanel (by decide) _ _, rfl, rfl⟩
    · exact ⟨panelState_viewStart _, rfl, rfl⟩
  case entry =>
    intro s o w hp hs ho hw hw0 hlen ht
    refine ⟨_, exec_scriptEntry hp hs ho hw hw0 hlen ht, rfl, ?_, rfl⟩
    simp only [setView_view, List.map_cons, List.map_nil, dcs]
    congr 2
    apply BitVec.eq_of_toNat_eq
    simp [bits]
  case run =>
    intro s hp hs hb hend
    refine ⟨_, exec_scriptEnd hp hs hb hend, panelState_setPanel (by decide) _ _, rfl, rfl, ?_⟩
    exact setPanel_only rfl 2 .none
  case alloc =>
    intro s h x hd hl hx
    have hexec : exec .viewPoolAlloc s = .next (busOk (BitVec.ofNat 32 (2 ^ 31 + h)) (poolShow (creditIssue 9 1
        (setPool { s.pool with handles := modAt s.pool.handles h (fun x => { x with owner := 1 }) } s)))) := by
      simp only [exec, execViewPoolAlloc, poolTake, hd, hl, Bool.true_eq_false, if_false, Option.map_some, OfNat.one_ne_ofNat,
        false_and]
    refine ⟨_, hexec, rfl, ?_, fun k hk => ?_, rfl, poolShow_regs _⟩
    · change (modAt s.pool.handles h _)[h]? = _
      rw [getElem?_modAt, if_pos rfl, hx]
      rfl
    · change (modAt s.pool.handles h _)[k]? = _
      rw [getElem?_modAt, if_neg hk]
  case none =>
    intro s hd hl
    simp only [exec, execViewPoolAlloc, poolTake, hd, hl, Bool.true_eq_false, if_false, Option.map_none, OfNat.one_ne_ofNat,
      false_and]
  case free =>
    intro s v x hd hx ho
    obtain ⟨hframe, hhandle, hregs, hdef⟩ := poolDropOwner_of_some (s := busOk 0 s) rfl hx ho
    have hbits : bits v.toNat 5 0 = v.toNat % 64 := by simp [bits]
    have hexec : exec (.viewPoolFree v) s = .next (if x.layers + x.pushes = 0 then poolDropOwner (v.toNat % 64) (busOk 0 s)
        else (poolDropOwner (v.toNat % 64) (busOk 0 s)).addFld VIEW_POOL_STATUS.DEFERRED 1) := by
      have hd' : (busOk 0 s).domainOn 27 = true := hd
      have hx' : (busOk 0 s).pool.handles[v.toNat % 64]? = some x := hx
      simp only [exec, execViewPoolFree, hd', hbits, hx', ho, Bool.true_eq_false, if_false, if_true]
    generalize poolDropOwner (v.toNat % 64) (busOk 0 s) = u at hframe hhandle hregs hdef hexec
    have honly : OnlyRegs { s with pool := u.pool, ledger := u.ledger } u [VIEW_POOL_STATUS.FREE.addr] := by
      refine ⟨?_, hregs⟩
      rw [hframe]
      rfl
    refine ⟨_, hexec, ?_, fun hne => ?_, ?_⟩
    · split <;> exact hhandle
    · rw [if_neg hne, State.fld_addFld_same _ _ _ (by decide), hdef]
      rfl
    · split
      · exact honly
      · exact honly.setFld (f := VIEW_POOL_STATUS.DEFERRED) (by simp [VIEW_POOL_STATUS.DEFERRED, VIEW_POOL_STATUS.FREE]) _
  case double =>
    intro s v hd hx
    refine ⟨_, exec_poolFree_double hd hx, ?_, viewEvent_bit (by decide) _ _, ?_⟩
    · obtain ⟨r, c, l, heq, -⟩ := viewEvent_frame 5 0xFF ((busOk 0 s).addFld VIEW_POOL_STATUS.DOUBLE 1)
      rw [heq]
      rfl
    · rw [State.fld_congr_word (viewEvent_word 5 0xFF _ (by decide) (by decide)), State.fld_addFld_same _ _ _ (by decide)]
      rfl

end Sys2Proof.Machine
end

section
/-! PROOFS. Panel pushes, line-timed registers, commands and dirty rectangles (R499, R504 to R508). -/

namespace Sys2Proof.Machine

/-! ### What a read of DRAM leaves of the Footlights -/

/-- The registers in which the reads of a push and the references of its buffers show. -/
def pushRegs : List Nat :=
  [CALL_OVERFLOW.COUNT.addr, DRAM_EVENT.STORED.addr, DRAM_POISON_ADDR_LO.ADDR.addr, DRAM_POISON_ADDR_HI.ADDR.addr,
   VIEW_POOL_STATUS.FREE.addr]

/-- The Footlights stand as they did, and no register has changed but those. -/
structure Traced (s t : State) : Prop where
  view : t.view = s.view
  ticks : t.ticks = s.ticks
  regs : RegsBut s t pushRegs

theorem Traced.refl (s : State) : Traced s s := ⟨rfl, rfl, fun _ _ => rfl⟩

theorem Traced.trans {s t u : State} (h : Traced s t) (h' : Traced t u) : Traced s u :=
  ⟨h'.view.trans h.view, h'.ticks.trans h.ticks, fun a ha => (h'.regs a ha).trans (h.regs a ha)⟩

theorem Traced.foldl {α : Type} {f : State → α → State} (h : ∀ s a, Traced s (f s a)) (l : List α) (s : State) :
    Traced s (l.foldl f s) := by
  induction l generalizing s with
  | nil => exact .refl s
  | cons a l ih => exact (h s a).trans (ih _)

theorem Traced.fld {s t : State} (h : Traced s t) {f : Fld} (hf : f.addr ∉ pushRegs) : t.fld f = s.fld f :=
  State.fld_congr_word (h.regs _ hf)

theorem Traced.setFld {s t : State} (h : Traced s t) {f : Fld} (hf : f.addr ∈ pushRegs) (n : Nat) : Traced s (t.setFld f n) :=
  ⟨h.view, h.ticks, fun a ha => (State.word_setFld_ne t f n (a := a) (fun he => ha (he ▸ hf))).trans (h.regs a ha)⟩

theorem Traced.setView {s t : State} (h : Traced s t) (v : ViewState) : Traced (setView v s) (setView v t) := ⟨rfl, h.ticks, h.regs⟩

theorem Traced.orBit {s t : State} (h : Traced s t) {f : Fld} (hf : f.addr ∈ pushRegs) (n : Nat) : Traced s (t.orBit f n) :=
  h.setFld hf _

theorem Traced.setMem {s t : State} (h : Traced s t) (m : DramState) : Traced s (setMem m t) := ⟨h.view, h.ticks, h.regs⟩

theorem postEvent_traced {e : Event} (he : e.cls ≠ .fatal) (s : State) : Traced s (postEvent e s) := by
  obtain ⟨r, c, l, h, hr⟩ := postEvent_frame he s
  rw [h]
  exact ⟨rfl, rfl, fun a ha => hr a fun heq => ha (by simp [heq, pushRegs])⟩

theorem dramFlag_traced {f : Fld} (hf : f.addr ∈ pushRegs) {cls : EventClass} (hc : cls ≠ .fatal) (inst detail : Nat) (s : State) :
    Traced s (dramFlag f cls inst detail s) := ((Traced.refl s).orBit hf _).trans (postEvent_traced hc _)

theorem dramCheck_traced (b : Nat) (s : State) : Traced s (dramCheck b s) := by
  unfold dramCheck
  extract_lets ch a
  split
  · exact .refl s
  · split
    · exact .refl s
    · exact ((Traced.refl s).setFld (f := DRAM_EVENT.STORED) (by decide) _).setMem _
    · have hlo := (Traced.refl s).setFld (f := DRAM_POISON_ADDR_LO.ADDR) (by decide) (a / 64)
      have hhi := hlo.setFld (f := DRAM_POISON_ADDR_HI.ADDR) (by decide) (a / 2 ^ 32)
      exact (hhi.setMem _).trans (dramFlag_traced (by decide) (by decide) ch 0 _)

theorem dramSeen_traced (a n : Nat) (s : State) : Traced s (dramSeen a n s) := by
  have haccess : Traced s (dramAccess a n s) := ⟨rfl, rfl, fun _ _ => rfl⟩
  exact haccess.trans (.foldl (fun s b => dramCheck_traced b s) _ _)

theorem poisonWarn_traced (block inst a n : Nat) (s : State) : Traced s (poisonWarn block inst a n s) := by
  unfold poisonWarn
  split
  · exact (dramSeen_traced a n s).trans (postEvent_traced (by simp) _)
  · exact .refl s

theorem poolShow_traced (s : State) : Traced s (poolShow s) :=
  ⟨rfl, rfl, fun a ha => poolShow_regs s a fun h => ha (by simp [pushRegs, List.mem_singleton.1 h])⟩

theorem poolChange_traced (h : Nat) (f : PoolHandle → PoolHandle) (s : State) : Traced s (poolChange h f s) := by
  cases hx : s.pool.handles[h]? with
  | none =>
    simp only [poolChange, hx]
    exact .refl s
  | some x =>
    obtain ⟨y, l, -, heq⟩ := poolChange_of_some hx f
    rw [heq]
    have hshow := poolShow_traced { s with pool := { s.pool with handles := modAt s.pool.handles h (fun _ => y) }, ledger := l }
    exact ⟨hshow.view, hshow.ticks, hshow.regs⟩

/-! ### Commands and pushes -/

/-- The link is free for a command or a push. -/
def linkFree (s : State) : Prop := panelState s = 2 ∧ s.view.push = none ∧ viewHeld s = false

theorem viewCmdPackets_busy {s : State} (h : linkFree s) (hb : s.flag VIEW_CMD.BUSY = true) : viewCmdPackets s =
    [dcs (s.fld VIEW_CMD.DCS) (if s.flag VIEW_CMD.HAS_PARAM then [BitVec.ofNat 8 (s.fld VIEW_CMD.PARAM)] else [])] := by
  obtain ⟨hp, hpush, hheld⟩ := h
  simp [viewCmdPackets, hb, hp, hpush, hheld]

theorem viewCmdGo_busy {s : State} (h : linkFree s) (hb : s.flag VIEW_CMD.BUSY = true) (ps : List (Nat × List Byte)) :
    viewCmdGo ps s = (viewSend (ps ++ viewCmdPackets s) s).setFlag VIEW_CMD.BUSY false := by
  simp [viewCmdGo, viewCmdPackets_busy h hb]

/-- A command that goes out leaves all but `VIEW_CMD` and what was sent. -/
theorem viewCmdGo_frame (ps : List (Nat × List Byte)) (s : State) :
    ∃ r q, viewCmdGo ps s = { s with regs := r, view := { s.view with sent := q } } ∧
      ∀ a, a ≠ VIEW_CMD.BUSY.addr → readAt 0 r a = s.word a := by
  unfold viewCmdGo
  extract_lets qs
  split
  · exact ⟨s.regs, s.view.sent, rfl, fun _ _ => rfl⟩
  · exact ⟨_, _, rfl, fun a ha => State.word_setFld_ne _ VIEW_CMD.BUSY _ ha⟩

theorem viewCmdGo_word (ps : List (Nat × List Byte)) (s : State) {a : Nat} (h : a ≠ VIEW_CMD.BUSY.addr) :
    (viewCmdGo ps s).word a = s.word a := by
  obtain ⟨r, q, heq, hr⟩ := viewCmdGo_frame ps s
  rw [heq]
  exact hr a h

/-- A push holds the handles `hs`, and nothing is dirty any longer. -/
def pushStarted (hs : List Nat) (s : State) : State :=
  ((setView { s.view with push := some hs, dirty := [], full := false } s).setFlag VIEW_STATUS.PUSHING true).wrapFld VIEW_CNT.PUSHES 1

/-- The state in which a push reads its layers: the false colours without a map are flagged. -/
def pushSeen (s : State) : State :=
  if s.flag VIEW_CTRL.FALSE_EN ∧ s.view.pic.isSome ∧ (tintMap s).isNone then s.orBit VIEW_EVENT.EVENT 2 else s

/-- Nothing is pushed: the link is not free, or nothing is dirty. -/
def pushBlocked (s : State) : Prop :=
  panelState s ≠ 2 ∨ s.view.push.isSome ∨ viewHeld s ∨ (s.view.full = false ∧ s.view.dirty.isEmpty)

theorem pushBlocked_viewCmdGo (s : State) : pushBlocked (viewCmdGo [] s) = pushBlocked s := by
  obtain ⟨r, q, heq, hr⟩ := viewCmdGo_frame [] s
  have hpanel : panelState (viewCmdGo [] s) = panelState s := State.fld_congr_word (viewCmdGo_word [] s (by decide))
  have hrole : viewHeld (viewCmdGo [] s) = viewHeld s := by
    have hctrl : (viewCmdGo [] s).flag VIEW_CTRL.FOLLOW_ROLE = s.flag VIEW_CTRL.FOLLOW_ROLE :=
      State.flag_of_word (viewCmdGo_word [] s (by decide))
    have htopo : (viewCmdGo [] s).fld KLINK_PAIR.TOPO = s.fld KLINK_PAIR.TOPO :=
      State.fld_congr_word (viewCmdGo_word [] s (by decide))
    have hpin : (viewCmdGo [] s).klink = s.klink := by rw [heq]
    simp only [viewHeld, topo, hctrl, htopo, hpin]
  have hview : (viewCmdGo [] s).view.push = s.view.push ∧ (viewCmdGo [] s).view.full = s.view.full ∧
      (viewCmdGo [] s).view.dirty = s.view.dirty := by
    rw [heq]
    exact ⟨rfl, rfl, rfl⟩
  obtain ⟨h1, h2, h3⟩ := hview
  rw [pushBlocked, hpanel, h1, hrole, h2, h3, pushBlocked]

theorem viewPush_blocked {s : State} (h : pushBlocked s) : viewPush s = viewCmdGo [] s := by
  rw [← pushBlocked_viewCmdGo] at h
  unfold viewPush
  extract_lets
  exact if_pos h

/-- What a push of dirty regions does on a free link. -/
theorem viewPush_started {s : State} (h : ¬ pushBlocked s) :
    ∃ hs x w, viewPush s = pushStarted hs w ∧ Traced (viewSend (viewCmdPackets s ++ x) (pushSeen (viewCmdGo [] s))) w := by
  rw [← pushBlocked_viewCmdGo] at h
  unfold viewPush
  extract_lets ps u whole rs m u1 hs u2 u3 u4
  refine ⟨hs, (rs.map (regionPackets u2 m)).flatten, u4, if_neg h, ?_⟩
  have hreads : Traced u1 u2 := .foldl (fun s (p : Nat × Nat × Nat) => poisonWarn_traced 18 p.1 p.2.1 p.2.2 s) _ _
  have hsent : Traced (viewSend (ps ++ (rs.map (regionPackets u2 m)).flatten) u1) u3 := by
    have hview : u3 = setView { u1.view with sent := ps ++ (rs.map (regionPackets u2 m)).flatten } u2 := by
      rw [← hreads.view]
      rfl
    rw [hview]
    exact hreads.setView _
  exact hsent.trans (.foldl (fun s h => poolChange_traced h _ s) _ _)

theorem pushSeen_view (s : State) : (pushSeen s).view = s.view := by
  unfold pushSeen
  split <;> rfl

theorem pushSeen_word (s : State) {a : Nat} (h : a ≠ VIEW_EVENT.EVENT.addr) : (pushSeen s).word a = s.word a := by
  unfold pushSeen
  split
  · exact State.word_setFld_ne s VIEW_EVENT.EVENT _ h
  · rfl

/-- A push leaves the other event bits set. -/
theorem pushSeen_bit {s : State} {n : Nat} (h : n < VIEW_EVENT.EVENT.width) (hs : (s.fld VIEW_EVENT.EVENT).testBit n = true) :
    ((pushSeen s).fld VIEW_EVENT.EVENT).testBit n = true := by
  unfold pushSeen
  split
  · rw [State.orBit, State.fld_setFld_same s VIEW_EVENT.EVENT _ (by decide), Nat.testBit_mod_two_pow, Nat.testBit_or, hs]
    simp [h]
  · exact hs

theorem pushStarted_word (hs : List Nat) (s : State) {a : Nat} (h : a ≠ VIEW_STATUS.PUSHING.addr) (h' : a ≠ VIEW_CNT.PUSHES.addr) :
    (pushStarted hs s).word a = s.word a :=
  (State.word_setFld_ne _ VIEW_CNT.PUSHES _ h').trans (State.word_setFld_ne _ VIEW_STATUS.PUSHING _ h)

theorem pushStarted_pushing (hs : List Nat) (s : State) : (pushStarted hs s).flag VIEW_STATUS.PUSHING = true :=
  (State.flag_setFld_apart _ _ VIEW_CNT.PUSHES _ (by decide) (by decide)).trans
    (State.flag_setFlag_same _ VIEW_STATUS.PUSHING true (by decide) rfl)

theorem pushStarted_lost (hs : List Nat) (s : State) : (pushStarted hs s).flag VIEW_STATUS.TE_LOST = s.flag VIEW_STATUS.TE_LOST :=
  (State.flag_setFld_apart _ _ VIEW_CNT.PUSHES _ (by decide) (by decide)).trans
    (State.flag_setFld_apart _ _ VIEW_STATUS.PUSHING _ (by decide) (by decide))

theorem pushStarted_count (hs : List Nat) (s : State) :
    (pushStarted hs s).fld VIEW_CNT.PUSHES = (s.fld VIEW_CNT.PUSHES + 1) % 2 ^ 16 := by
  refine (State.fld_setFld_same _ VIEW_CNT.PUSHES _ (by decide)).trans ?_
  rw [State.setFlag, State.fld_setFld_apart _ _ VIEW_STATUS.PUSHING _ (by decide) (by decide)]
  rfl

/-- How the Footlights stand once a push has begun. -/
theorem viewPush_result {s : State} (h : ¬ pushBlocked s) :
    ∃ hs x, (viewPush s).view =
        { s.view with push := some hs, dirty := [], full := false
                      sent := viewCmdPackets s ++ x } ∧
      (viewPush s).flag VIEW_STATUS.PUSHING = true ∧
      (viewPush s).flag VIEW_STATUS.TE_LOST = s.flag VIEW_STATUS.TE_LOST ∧
      (viewPush s).fld VIEW_CNT.PUSHES = (s.fld VIEW_CNT.PUSHES + 1) % 2 ^ 16 ∧
      (linkFree s → s.flag VIEW_CMD.BUSY = true → (viewPush s).flag VIEW_CMD.BUSY = false) ∧
      ∀ n < VIEW_EVENT.EVENT.width, (s.fld VIEW_EVENT.EVENT).testBit n = true → ((viewPush s).fld VIEW_EVENT.EVENT).testBit n = true := by
  obtain ⟨hs, x, w, heq, htrace⟩ := viewPush_started h
  obtain ⟨r, q, hgo, -⟩ := viewCmdGo_frame [] s
  rw [heq]
  have hword {a : Nat} (ha : a ∉ pushRegs) (hev : a ≠ VIEW_EVENT.EVENT.addr) : w.word a = (viewCmdGo [] s).word a :=
    (htrace.regs a ha).trans (pushSeen_word _ hev)
  refine ⟨hs, x, ?_, pushStarted_pushing hs w, ?_, ?_, fun hfree hb => ?_, fun n hn hbit => ?_⟩
  · have hview : (pushStarted hs w).view = { w.view with push := some hs, dirty := [], full := false } := rfl
    have hseen : (viewSend (viewCmdPackets s ++ x) (pushSeen (viewCmdGo [] s))).view =
        { (pushSeen (viewCmdGo [] s)).view with sent := viewCmdPackets s ++ x } := rfl
    rw [hview, htrace.view, hseen, pushSeen_view, hgo]
  · rw [pushStarted_lost, State.flag_of_word (hword (by decide) (by decide)), State.flag_of_word (viewCmdGo_word [] s (by decide))]
  · rw [pushStarted_count, State.fld_congr_word (hword (by decide) (by decide)),
      State.fld_congr_word (viewCmdGo_word [] s (by decide))]
  · rw [State.flag_of_word (pushStarted_word hs w (by decide) (by decide)), State.flag_of_word (hword (by decide) (by decide)),
      viewCmdGo_busy hfree hb]
    exact State.flag_setFlag_same _ VIEW_CMD.BUSY false (by decide) rfl
  · rw [State.fld_congr_word (pushStarted_word hs w (by decide) (by decide)), htrace.fld (by decide)]
    refine pushSeen_bit hn ?_
    rw [State.fld_congr_word (viewCmdGo_word [] s (by decide))]
    exact hbit

/-! ### TE edges -/

/-- An accepted TE edge sets the line count. -/
def teSeen (s : State) : State :=
  setView { s.view with teAt := some s.ticks, line0 := teLine s, lineRest := 0, teFrom := s.ticks } s

/-- A TE edge after a loss asks for a full push. -/
def teBack (s : State) : State :=
  if s.flag VIEW_STATUS.TE_LOST then setView { s.view with full := true } (s.setFlag VIEW_STATUS.TE_LOST false) else s

theorem exec_teEdge {s : State} (hd : s.domainOn 27 = true) (hl : applyLine s ≠ teLine s) :
    exec .viewTeEdge s = .next (if panelState s ≠ 2 then (if s.view.push.isSome then (teSeen s).addFld VIEW_CNT.LATE 1 else teSeen s)
      else if (teBack (teSeen s)).view.push.isSome then (teBack (teSeen s)).addFld VIEW_CNT.LATE 1 else viewPush (teBack (teSeen s))) := by
  have hl' : ¬ applyLine (teSeen s) = teLine (teSeen s) := hl
  have hp : panelState (teSeen s) = panelState s := rfl
  have hpush : (teSeen s).view.push = s.view.push := rfl
  change execViewTeEdge s = _
  unfold execViewTeEdge
  rw [if_neg (by simp [hd])]
  extract_lets src u v src' x
  have hv : v = teSeen s := by
    change (if applyLine (teSeen s) = teLine (teSeen s) then viewApply (teSeen s) else teSeen s) = _
    exact if_neg hl'
  have hx : x = teBack (teSeen s) := by rw [← hv]; rfl
  rw [hx, hv, hp, hpush]
  split
  · rfl
  · exact (apply_ite Host.Outcome.next _ _ _).symm

theorem teSeen_late (s : State) :
    ((teSeen s).addFld VIEW_CNT.LATE 1).view =
        { s.view with teAt := some s.ticks, line0 := teLine s, lineRest := 0, teFrom := s.ticks } ∧
      ((teSeen s).addFld VIEW_CNT.LATE 1).fld VIEW_CNT.LATE = min (2 ^ VIEW_CNT.LATE.width - 1) (s.fld VIEW_CNT.LATE + 1) ∧
      OnlyRegs { s with view := ((teSeen s).addFld VIEW_CNT.LATE 1).view } ((teSeen s).addFld VIEW_CNT.LATE 1) [VIEW_CNT.LATE.addr] :=
  ⟨rfl, State.fld_addFld_same _ _ _ (by decide), rfl, fun a ha => State.word_setFld_ne (teSeen s) VIEW_CNT.LATE _ (by simpa using ha)⟩

theorem teBack_view (s : State) : (teBack s).view = { s.view with full := s.view.full || s.flag VIEW_STATUS.TE_LOST } := by
  unfold teBack
  cases s.flag VIEW_STATUS.TE_LOST <;> simp

theorem teBack_lost (s : State) : (teBack s).flag VIEW_STATUS.TE_LOST = false := by
  unfold teBack
  split
  · exact State.flag_setFlag_same s VIEW_STATUS.TE_LOST false (by decide) rfl
  · next h => simpa using h

theorem teBack_fld (s : State) {f : Fld} (h : f.apart VIEW_STATUS.TE_LOST = true) : (teBack s).fld f = s.fld f := by
  unfold teBack
  split
  · exact State.fld_setFld_apart s f VIEW_STATUS.TE_LOST _ (by decide) h
  · rfl

theorem linkFree_teBack {s : State} (hp : panelState s = 2) (hpush : s.view.push = none) (hheld : viewHeld s = false) :
    linkFree (teBack (teSeen s)) := by
  have hfld {f : Fld} (h : f.apart VIEW_STATUS.TE_LOST = true) : (teBack (teSeen s)).fld f = s.fld f :=
    (teBack_fld (teSeen s) h).trans rfl
  refine ⟨(hfld (by decide)).trans hp, ?_, ?_⟩
  · rw [teBack_view]
    exact hpush
  · have hklink : (teBack (teSeen s)).klink = s.klink := by
      unfold teBack
      split <;> rfl
    rw [← hheld, viewHeld, viewHeld, State.flag, State.flag, topo, topo, hfld (by decide), hfld (by decide), hklink]

theorem not_pushBlocked {s : State} (h : linkFree s) (hd : s.view.dirty ≠ []) : ¬ pushBlocked s := by
  obtain ⟨hp, hpush, hheld⟩ := h
  simp [pushBlocked, hp, hpush, hheld, hd]

/-- The push that a TE edge starts. -/
theorem teEdge_push {s : State} (hd : s.domainOn 27 = true) (hp : panelState s = 2) (hpush : s.view.push = none)
    (hheld : viewHeld s = false) (hl : applyLine s ≠ teLine s) :
    exec .viewTeEdge s = .next (viewPush (teBack (teSeen s))) := by
  rw [exec_teEdge hd hl, if_neg (by simp [hp]), (linkFree_teBack hp hpush hheld).2.1]
  rfl

/-! ### The end of a push -/

theorem exec_pushComplete {s : State} {hs : List Nat} (h : s.view.push = some hs) : ∃ u,
    Traced ((setView { s.view with push := none } s).setFlag VIEW_STATUS.PUSHING false) u ∧
      exec .viewPushComplete s = .next (if panelState u = 3 then viewSleepIn u else viewCmdGo [] u) := by
  refine ⟨_, .foldl (fun s h => poolChange_traced h (fun x => { x with pushes := x.pushes - 1 }) s) hs _, ?_⟩
  simp only [exec, execViewPushComplete, h]

/-! ### Line-timed registers -/

theorem and_or_mask (x y m : Word) : ((x &&& ~~~m) ||| (y &&& m)) &&& m = y &&& m := by
  ext i
  simp only [BitVec.getElem_and, BitVec.getElem_or, BitVec.getElem_not]
  cases x[i] <;> cases y[i] <;> cases m[i] <;> rfl

/-- What waits for the apply shows the written line-timed bits. -/
theorem shadowValue_shadowWrite (off : Nat) (v : Word) (s : State) :
    shadowValue (shadowWrite off v s) off &&& lineMask off = v &&& lineMask off := by
  unfold shadowWrite
  extract_lets m cur new
  split
  · next h =>
    rcases h with hm | hc
    · rw [show lineMask off = 0#32 from hm, BitVec.and_zero, BitVec.and_zero]
    · have hcur : cur &&& m = new &&& m := congrArg (· &&& m) hc
      exact hcur.trans (and_or_mask cur v m)
  · have hset : shadowValue (setView { s.view with shadow := keySet s.view.shadow off new, changed := true } s) off = new := by
      simp only [shadowValue, setView_view, keyGet_keySet_same, Option.getD_some]
    rw [hset]
    exact and_or_mask cur v m

theorem shadowWrite_eq (off : Nat) (v : Word) (s : State) : shadowWrite off v s = { s with view := (shadowWrite off v s).view } := by
  unfold shadowWrite
  extract_lets
  split <;> rfl

/-- What an apply does after the shadows have moved leaves the shadows and all but these registers. -/
structure Drawn (s t : State) : Prop where
  shadow : t.view.shadow = s.view.shadow
  changed : t.view.changed = s.view.changed
  regs : RegsBut s t (VIEW_EVENT.EVENT.addr :: pushRegs)

theorem Drawn.refl (s : State) : Drawn s s := ⟨rfl, rfl, fun _ _ => rfl⟩

theorem Drawn.trans {s t u : State} (h : Drawn s t) (h' : Drawn t u) : Drawn s u :=
  ⟨h'.shadow.trans h.shadow, h'.changed.trans h.changed, fun a ha => (h'.regs a ha).trans (h.regs a ha)⟩

theorem Drawn.foldl {α : Type} {f : State → α → State} (h : ∀ s a, Drawn s (f s a)) (l : List α) (s : State) :
    Drawn s (l.foldl f s) := by
  induction l generalizing s with
  | nil => exact .refl s
  | cons a l ih => exact (h s a).trans (ih _)

theorem Traced.drawn {s t : State} (h : Traced s t) : Drawn s t :=
  ⟨by rw [h.view], by rw [h.view], h.regs.mono (by simp)⟩

theorem layersHold_drawn (new : List (Option Nat)) (s : State) : Drawn s (layersHold new s) := by
  unfold layersHold
  extract_lets old u
  have hu : Drawn s u := (Traced.foldl (fun s h => poolChange_traced h _ s) _ _).drawn
  have hv : Drawn u (setView { u.view with held := new } u) := ⟨rfl, rfl, fun _ _ => rfl⟩
  exact (hu.trans hv).trans (Traced.foldl (fun s h => poolChange_traced h _ s) _ _).drawn

theorem viewEvent_drawn (n inst : Nat) (s : State) : Drawn s (viewEvent n .warning inst s) := by
  obtain ⟨r, c, l, h, hr⟩ := viewEvent_frame n inst s
  refine ⟨by rw [h], by rw [h], fun a ha => viewEvent_word n inst s ?_ ?_⟩
  · exact fun he => ha (by simp [he])
  · exact fun he => ha (by simp [he, pushRegs])

theorem viewDirty_drawn (r : Option PanelRect) (s : State) : Drawn s (viewDirty r s) := by
  cases r <;> exact ⟨rfl, rfl, fun _ _ => rfl⟩

/-- The shadows as an apply moves them. -/
def shadowsMoved (s : State) : State :=
  let u := s.view.shadow.foldl (fun s e => s.setWord e.1 ((s.word e.1 &&& ~~~lineMask e.1) ||| (e.2 &&& lineMask e.1))) s
  setView { u.view with shadow := [], changed := false } u

theorem viewApply_drawn {s : State} (hc : s.view.changed = true) : Drawn (shadowsMoved s) (viewApply s) := by
  unfold viewApply
  rw [if_neg (by simp [hc])]
  extract_lets before u src v faults src' w x y
  have hv : v = shadowsMoved s := rfl
  have hw : Drawn v w := ⟨rfl, rfl, fun _ _ => rfl⟩
  have hx : Drawn w x := layersHold_drawn _ _
  have hy : Drawn x y := by
    refine .foldl (fun s n => ?_) _ _
    extract_lets f
    split
    · exact viewEvent_drawn 3 n s
    · split
      · exact (postEvent_traced (by simp) s).drawn
      · exact .refl s
  rw [← hv]
  refine ((hw.trans hx).trans hy).trans (.foldl (fun s n => ?_) _ _)
  split
  · exact .refl s
  · exact (viewDirty_drawn _ s).trans (viewDirty_drawn _ _)

/-- A register of the trace has no line-timed bits. -/
theorem lineMask_drawn : ∀ a ∈ VIEW_EVENT.EVENT.addr :: pushRegs, lineMask a = 0#32 := by decide +kernel

theorem exec_apply {s : State} (hd : s.domainOn 27 = true) (hl : viewLine s = applyLine s) :
    exec .viewApply s = .next (viewApply s) := by
  simp only [exec, execViewApply, hd, hl, and_self, if_true]

/-- The line count goes on from where it was. -/
theorem viewLine_viewRebase {s : State} (h : s.view.teAt ≠ none) : viewLine (viewRebase s) = viewLine s := by
  obtain ⟨t, ht⟩ := Option.ne_none_iff_exists'.1 h
  have hpos : 0 < lineHalfNs s := by
    unfold lineHalfNs
    omega
  have hrebase : viewRebase s = setView { s.view with
      teAt := some s.ticks, line0 := viewLine s, lineRest := (s.view.lineRest + 5 * (s.ticks - t)) % lineHalfNs s } s := by
    simp only [viewRebase, ht]
  have hnow : viewLine (viewRebase s) = (viewLine s + ((s.view.lineRest + 5 * (s.ticks - t)) % lineHalfNs s +
      5 * (s.ticks - s.ticks)) / lineHalfNs s) % panelH s := by
    rw [hrebase]
    rfl
  have hlt : viewLine s < panelH s := by
    have hh : 16 ≤ panelH s := by
      unfold panelH clamp
      omega
    simp only [viewLine, ht]
    exact Nat.mod_lt _ (by omega)
  rw [hnow, Nat.sub_self, Nat.mul_zero, Nat.add_zero, Nat.div_eq_of_lt (Nat.mod_lt _ hpos), Nat.add_zero, Nat.mod_eq_of_lt hlt]

/-! ### Commands -/

/-- The command of a write of `VIEW_CMD`. -/
def cmdTaken (v : Word) (s : State) : State :=
  (((s.setFlag VIEW_CMD.HAS_PARAM (v.toNat.testBit 24)).setFld VIEW_CMD.PARAM (bits v.toNat 23 16)).setFld VIEW_CMD.DCS
    (bits v.toNat 15 8)).setFlag VIEW_CMD.BUSY true

theorem exec_viewCmd {s : State} (hd : s.domainOn 27 = true) (hb : s.flag VIEW_CMD.BUSY = false) (v : Word) :
    exec (.viewCmd v) s = .next (viewCmdGo [] (cmdTaken v (busOk 0 s))) := by
  have hd' : (busOk 0 s).domainOn 27 = true := hd
  have hb' : (busOk 0 s).flag VIEW_CMD.BUSY = false := hb
  simp only [exec, execViewCmd, hd', hb', Bool.true_eq_false, Bool.false_eq_true, if_false]
  rfl

theorem cmdTaken_word (v : Word) (s : State) {a : Nat} (h : a ≠ VIEW_CMD.BUSY.addr) : (cmdTaken v s).word a = s.word a :=
  (State.word_setFld_ne _ VIEW_CMD.BUSY _ h).trans <| (State.word_setFld_ne _ VIEW_CMD.DCS _ h).trans <|
    (State.word_setFld_ne _ VIEW_CMD.PARAM _ h).trans (State.word_setFld_ne s VIEW_CMD.HAS_PARAM _ h)

theorem cmdTaken_fields (v : Word) (s : State) : (cmdTaken v s).flag VIEW_CMD.BUSY = true ∧
    (cmdTaken v s).flag VIEW_CMD.HAS_PARAM = v.toNat.testBit 24 ∧ (cmdTaken v s).fld VIEW_CMD.PARAM = v.toNat / 65536 % 256 ∧
    (cmdTaken v s).fld VIEW_CMD.DCS = v.toNat / 256 % 256 := by
  unfold cmdTaken
  refine ⟨State.flag_setFlag_same _ VIEW_CMD.BUSY true (by decide) rfl, ?_, ?_, ?_⟩
  · rw [State.setFlag, State.flag_setFld_apart _ _ VIEW_CMD.BUSY _ (by decide) (by decide),
      State.flag_setFld_apart _ _ VIEW_CMD.DCS _ (by decide) (by decide),
      State.flag_setFld_apart _ _ VIEW_CMD.PARAM _ (by decide) (by decide)]
    exact State.flag_setFlag_same s VIEW_CMD.HAS_PARAM _ (by decide) rfl
  · rw [State.setFlag, State.fld_setFld_apart _ _ VIEW_CMD.BUSY _ (by decide) (by decide),
      State.fld_setFld_apart _ _ VIEW_CMD.DCS _ (by decide) (by decide)]
    exact (State.fld_setFld_same _ VIEW_CMD.PARAM _ (by decide)).trans (Nat.mod_mod _ _)
  · rw [State.setFlag, State.fld_setFld_apart _ _ VIEW_CMD.BUSY _ (by decide) (by decide)]
    exact (State.fld_setFld_same _ VIEW_CMD.DCS _ (by decide)).trans (Nat.mod_mod _ _)

theorem ofNat_byte (n : Nat) : BitVec.ofNat 8 (n % 256) = BitVec.ofNat 8 n := by
  apply BitVec.eq_of_toNat_eq
  simp

/-! ### A lost TE -/

/-- The loss of TE is shown. -/
def teLost (s : State) : State := viewEvent 0 .warning 0xFF (s.setFlag VIEW_STATUS.TE_LOST true)

theorem teLost_shown (s : State) : (teLost s).flag VIEW_STATUS.TE_LOST = true ∧ ((teLost s).fld VIEW_EVENT.EVENT).testBit 0 = true := by
  refine ⟨?_, viewEvent_bit (by decide) _ _⟩
  rw [teLost, State.flag_of_word (viewEvent_word 0 0xFF _ (by decide) (by decide))]
  exact State.flag_setFlag_same s VIEW_STATUS.TE_LOST true (by decide) rfl

theorem viewPush_keeps (s : State) : (viewPush s).flag VIEW_STATUS.TE_LOST = s.flag VIEW_STATUS.TE_LOST ∧
    ∀ n < VIEW_EVENT.EVENT.width, (s.fld VIEW_EVENT.EVENT).testBit n = true → ((viewPush s).fld VIEW_EVENT.EVENT).testBit n = true := by
  by_cases h : pushBlocked s
  · rw [viewPush_blocked h]
    refine ⟨State.flag_of_word (viewCmdGo_word [] s (by decide)), fun n _ hbit => ?_⟩
    rw [State.fld_congr_word (viewCmdGo_word [] s (by decide))]
    exact hbit
  · obtain ⟨hs, x, -, -, hlost, -, -, hbit⟩ := viewPush_result h
    exact ⟨hlost, hbit⟩

theorem exec_teTimeout {s : State} (hd : s.domainOn 27 = true) (hp : panelState s = 2) (hlost : s.flag VIEW_STATUS.TE_LOST = false)
    (ht : s.elapsedNs s.view.teFrom (max 1 (s.fld VIEW_START.TE_TO_MS) * 1000000) = true) :
    exec .viewTeTimeout s = .next (viewPush (teLost (setView { s.view with teFrom := s.ticks } s))) := by
  have hrun : ¬ (s.domainOn 27 = false ∨ panelState s ≠ 2 ∨
      s.elapsedNs s.view.teFrom (max 1 (s.fld VIEW_START.TE_TO_MS) * 1000000) = false) := by simp [hd, hp, ht]
  have hnew : ¬ (setView { s.view with teFrom := s.ticks } s).flag VIEW_STATUS.TE_LOST = true := by
    rw [show (setView { s.view with teFrom := s.ticks } s).flag VIEW_STATUS.TE_LOST = false from hlost]
    decide
  change execViewTeTimeout s = _
  unfold execViewTeTimeout
  rw [if_neg hrun]
  extract_lets src u v
  rw [show v = teLost u from if_neg hnew]

/-- Settles O59, by what a push leaves of the Footlights and by the line-timed bits of a register. -/
theorem pushesAndLineTimedRegisters : Obligations.PushesAndLineTimedRegisters := by
  unfold Obligations.PushesAndLineTimedRegisters
  refine ⟨?push, ?late, ?lateStop, ?pushCmd, ?rebase, ?overlay, ?complete, ?sleep, ?lost, ?apply, ?timed, ?dirty, ?cmd, ?refused⟩
  case push =>
    intro s hd hp hpush hheld hdirty hl
    have hfree := linkFree_teBack hp hpush hheld
    obtain ⟨hs, x, hview, hpushing, hlost, hcount, -⟩ := viewPush_result (not_pushBlocked hfree (by rw [teBack_view]; exact hdirty))
    refine ⟨_, teEdge_push hd hp hpush hheld hl, ?_, ?_, ?_, ?_, hpushing, hlost.trans (teBack_lost _), ?_⟩
    · rw [hview]
      rfl
    · rw [hview]
    · rw [hview]
    · rw [hview, teBack_view]
      rfl
    · rw [hcount, teBack_fld _ (by decide)]
      rfl
  case late =>
    intro s hd hp hpush hl hlost
    have hback : teBack (teSeen s) = teSeen s := if_neg (by rw [show (teSeen s).flag VIEW_STATUS.TE_LOST = false from hlost]; decide)
    have hexec : exec .viewTeEdge s = .next ((teSeen s).addFld VIEW_CNT.LATE 1) := by
      rw [exec_teEdge hd hl, if_neg (by simp [hp]), hback, show (teSeen s).view.push = s.view.push from rfl, if_pos hpush]
    exact ⟨_, hexec, teSeen_late s⟩
  case lateStop =>
    intro s hd hp hpush hl
    have hexec : exec .viewTeEdge s = .next ((teSeen s).addFld VIEW_CNT.LATE 1) := by
      rw [exec_teEdge hd hl, if_pos (by simp [hp]), if_pos hpush]
    exact ⟨_, hexec, teSeen_late s⟩
  case pushCmd =>
    intro s hd hp hpush hheld hdirty hl hb hparam
    have hfree := linkFree_teBack hp hpush hheld
    have hfld {f : Fld} (h : f.apart VIEW_STATUS.TE_LOST = true) : (teBack (teSeen s)).fld f = s.fld f :=
      (teBack_fld (teSeen s) h).trans rfl
    have hbusy : (teBack (teSeen s)).flag VIEW_CMD.BUSY = true := by rw [State.flag, hfld (by decide)]; exact hb
    have hone : (teBack (teSeen s)).flag VIEW_CMD.HAS_PARAM = false := by rw [State.flag, hfld (by decide)]; exact hparam
    obtain ⟨hs, x, hview, -, -, -, hdone, -⟩ := viewPush_result (not_pushBlocked hfree (by rw [teBack_view]; exact hdirty))
    refine ⟨_, teEdge_push hd hp hpush hheld hl, hdone hfree hbusy, ?_, ?_⟩
    · rw [hview]
      rfl
    · rw [hview, viewCmdPackets_busy hfree hbusy, hone, hfld (by decide)]
      rfl
  case rebase => exact fun s => viewLine_viewRebase
  case overlay =>
    intro v
    have hmask : shadowMask VIEW_CTRL.FALSE_EN.addr &&& lineMask VIEW_CTRL.FALSE_EN.addr = 0#32 := by decide +kernel
    simp [lineEntries, keySet, keyGet, hmask]
  case complete =>
    intro s h
    obtain ⟨hs, hs'⟩ := Option.isSome_iff_exists.1 h
    obtain ⟨u, hu, hexec⟩ := exec_pushComplete hs'
    have hidle : u.flag VIEW_STATUS.PUSHING = false := by
      rw [State.flag, hu.fld (by decide)]
      exact State.flag_setFlag_same _ VIEW_STATUS.PUSHING false (by decide) rfl
    refine ⟨_, hexec, ?_, ?_⟩
    · split
      · exact congrArg ViewState.push hu.view
      · obtain ⟨r, q, heq, -⟩ := viewCmdGo_frame [] u
        rw [heq]
        exact congrArg ViewState.push hu.view
    · split
      · exact hidle
      · rw [State.flag_of_word (viewCmdGo_word [] u (by decide))]
        exact hidle
  case sleep =>
    intro s h hp
    obtain ⟨hs, hs'⟩ := Option.isSome_iff_exists.1 h
    obtain ⟨u, hu, hexec⟩ := exec_pushComplete hs'
    have hpanel : panelState u = 3 := by
      rw [panelState, hu.fld (by decide), State.setFlag, State.fld_setFld_apart _ _ VIEW_STATUS.PUSHING _ (by decide) (by decide)]
      exact hp
    refine ⟨_, by rw [hexec, if_pos hpanel], ?_⟩
    have hview : (viewSleepIn u).view = { u.view with step := .sleepIn, stepAt := u.ticks, sent := [dcs 0x10 []] } := rfl
    rw [hview, hu.view, hu.ticks]
    rfl
  case lost =>
    intro s hd hp hlost ht
    obtain ⟨hflag, hbit⟩ := teLost_shown (setView { s.view with teFrom := s.ticks } s)
    obtain ⟨hflag', hbit'⟩ := viewPush_keeps (teLost (setView { s.view with teFrom := s.ticks } s))
    exact ⟨_, exec_teTimeout hd hp hlost ht, hflag'.trans hflag, hbit' 0 (by decide) hbit⟩
  case apply =>
    intro s off w hd hc hs hl
    have hdrawn := viewApply_drawn hc
    refine ⟨_, exec_apply hd hl, hdrawn.shadow.trans rfl, hdrawn.changed.trans rfl, ?_⟩
    by_cases hoff : off ∈ VIEW_EVENT.EVENT.addr :: pushRegs
    · rw [lineMask_drawn off hoff, BitVec.and_zero, BitVec.and_zero]
    · have hmoved : (shadowsMoved s).word off = (s.word off &&& ~~~lineMask off) ||| (w &&& lineMask off) := by
        simp only [shadowsMoved, hs, List.foldl_cons, List.foldl_nil]
        exact State.word_setWord_same ..
      rw [hdrawn.regs off hoff, hmoved, and_or_mask]
  case timed =>
    intro s addr v off hd hoff hm
    have hexec : exec (.viewLineTimedWrite addr v) s = .next (shadowWrite off v (busOk 0 s)) := by
      have hd' : (busOk 0 s).domainOn 27 = true := hd
      have hmask : (shadowMask off == 0) = true := by simpa using hm
      simp only [exec, execViewLineTimedWrite, hd', ← hoff, hmask, Bool.true_eq_false, if_false, if_true]
    refine ⟨_, hexec, shadowValue_shadowWrite _ v (busOk 0 s), ?_, fun a _ => ?_⟩
    · rw [shadowWrite_eq]
      rfl
    · rw [shadowWrite_eq]
      rfl
  case dirty =>
    intro s v hd
    have hd' : (busOk 0 s).domainOn 27 = true := hd
    have hexec : exec (.viewDirtyWhWrite v) s = .next (viewDirty (clipRect s (s.fld VIEW_DIRTY_XY.X) (s.fld VIEW_DIRTY_XY.Y)
        (bits v.toNat 23 12 + 1) (bits v.toNat 11 0 + 1)) (busOk 0 s)) := by
      simp only [exec, execViewDirtyWhWrite, hd', Bool.true_eq_false, if_false]
      rfl
    refine ⟨_, hexec, ?_⟩
    cases clipRect s (s.fld VIEW_DIRTY_XY.X) (s.fld VIEW_DIRTY_XY.Y) (bits v.toNat 23 12 + 1) (bits v.toNat 11 0 + 1) with
    | none => exact ⟨by simp [viewDirty], rfl, fun _ _ => rfl⟩
    | some r => exact ⟨rfl, rfl, fun _ _ => rfl⟩
  case cmd =>
    intro s v hd hb hp hpush hheld
    have hfree : linkFree (cmdTaken v (busOk 0 s)) := ⟨(State.fld_congr_word (cmdTaken_word v _ (by decide))).trans hp, hpush, by
      rw [← hheld, viewHeld, viewHeld, topo, topo, State.flag_of_word (cmdTaken_word v _ (by decide)),
        State.fld_congr_word (cmdTaken_word v _ (by decide))]
      rfl⟩
    obtain ⟨hbusy, hparam, hbyte, hdcs⟩ := cmdTaken_fields v (busOk 0 s)
    refine ⟨_, exec_viewCmd hd hb v, ?_, ?_, ?_, fun a ha => ?_⟩
    · rw [viewCmdGo_busy hfree hbusy]
      exact State.flag_setFlag_same _ VIEW_CMD.BUSY false (by decide) rfl
    · rw [viewCmdGo_busy hfree hbusy, viewCmdPackets_busy hfree hbusy, hparam, hbyte, hdcs]
      rw [show v.getLsbD 24 = v.toNat.testBit 24 from rfl]
      cases v.toNat.testBit 24 <;> simp [viewSend, dcs, ofNat_byte]
    · obtain ⟨r, q, heq, -⟩ := viewCmdGo_frame [] (cmdTaken v (busOk 0 s))
      rw [heq]
      rfl
    · have ha : a ≠ VIEW_CMD.BUSY.addr := by simpa using ha
      exact (viewCmdGo_word [] _ ha).trans (cmdTaken_word v (busOk 0 s) ha)
  case refused =>
    intro s v hd hb
    have hd' : (busOk 0 s).domainOn 27 = true := hd
    have hb' : (busOk 0 s).flag VIEW_CMD.BUSY = true := hb
    simp only [exec, execViewCmd, hd', hb', Bool.true_eq_false, if_false, if_true]

end Sys2Proof.Machine
end

section
/-! PROOFS. The increment, the time read and holdover (R430, R433, R435, R447); the pulse output and input and the timecode (R438 to
R440). -/

namespace Sys2Proof.Machine

theorem fld_setClock (c : TimeState) (s : State) (f : Fld) : (setClock c s).fld f = s.fld f := rfl

theorem fld_busOk (w : Word) (s : State) (f : Fld) : (busOk w s).fld f = s.fld f := rfl

/-- Nothing changes but some registers where only registers change and each of them is listed. -/
theorem onlyRegs_of_regs {s t : State} {as : List Nat} (h : t = { s with regs := t.regs, sys := { s.sys with bus := t.sys.bus } })
    (hr : RegsBut s t as) : OnlyRegs s t as := ⟨h, hr⟩

/-! ### The increment and the time read -/

/-- The register of a written increment. -/
def incrTaken (v : Word) (s : State) : State :=
  (s.setFld TIME_INCR_HI.NS (bits v.toNat 11 8)).setFld TIME_INCR_HI.FRAC (bits v.toNat 7 0)

theorem incrWritten_incrTaken (v : Word) (s : State) : incrWritten (incrTaken v s) =
    bits v.toNat 11 8 * 2 ^ 40 + bits v.toNat 7 0 * 2 ^ 32 + s.fld TIME_INCR_LO.FRAC := by
  have hns : (incrTaken v s).fld TIME_INCR_HI.NS = bits v.toNat 11 8 :=
    (State.fld_setFld_apart _ _ TIME_INCR_HI.FRAC _ (by decide) (by decide)).trans
      (State.fld_setFld_lt s TIME_INCR_HI.NS _ (by decide) (Nat.mod_lt _ (by decide)))
  have hfrac : (incrTaken v s).fld TIME_INCR_HI.FRAC = bits v.toNat 7 0 :=
    State.fld_setFld_lt _ TIME_INCR_HI.FRAC _ (by decide) (Nat.mod_lt _ (by decide))
  have hlo : (incrTaken v s).fld TIME_INCR_LO.FRAC = s.fld TIME_INCR_LO.FRAC :=
    (State.fld_setFld_apart _ _ TIME_INCR_HI.FRAC _ (by decide) (by decide)).trans
      (State.fld_setFld_apart s _ TIME_INCR_HI.NS _ (by decide) (by decide))
  rw [incrWritten, hns, hfrac, hlo]

/-- The increment `c` waits for the next tick. -/
def incrWaits (c : Nat) (s : State) : State := setClock { s.clock with next := s.clock.next ++ [.incr c], watchFrom := s.ticks } s

/-- What a write of the increment does: a value beyond the bounds is held to them with a warning. -/
def incrDone (v : Word) (s : State) : State :=
  let c := clamp incrLow incrHigh (incrWritten (incrTaken v s))
  if c = incrWritten (incrTaken v s) then incrWaits c (incrTaken v s)
  else postActsAs 15 0xFF TIME_INCR_HI.NS.addr (incrWaits c (incrTaken v s))

theorem exec_timeIncrWrite (s : State) (v : Word) : exec (.timeIncrWrite v) s = .next (incrDone v (busOk 0 s)) :=
  (apply_ite Host.Outcome.next _ _ _).symm

theorem postActsAs_frame (block inst off : Nat) (s : State) : ∃ r c l, postActsAs block inst off s = { s with regs := r, call := c, ledger := l } ∧
    ∀ a, a ≠ CALL_OVERFLOW.COUNT.addr → readAt 0 r a = s.word a := by
  obtain ⟨r, c, l, h, hr⟩ := postEvent_frame (e := { cls := .warning, block := block, cause := 0x203, inst := inst, detail := off })
    (by simp) s
  exact ⟨r, c, l, h, hr⟩

theorem incrWritten_congr {s t : State} (h : ∀ a, a = TIME_INCR_HI.NS.addr ∨ a = TIME_INCR_LO.FRAC.addr → t.word a = s.word a) :
    incrWritten t = incrWritten s := by
  rw [incrWritten, incrWritten, State.fld_congr_word (h _ (.inl rfl)), State.fld_congr_word (f := TIME_INCR_HI.FRAC) (h _ (.inl rfl)),
    State.fld_congr_word (h _ (.inr rfl))]

theorem incrDone_clock (v : Word) (s : State) : (incrDone v s).clock = { s.clock with
      next := s.clock.next ++ [.incr (clamp incrLow incrHigh (incrWritten (incrTaken v s)))], watchFrom := s.ticks } ∧
    incrWritten (incrDone v s) = incrWritten (incrTaken v s) ∧ (incrDone v s).time = s.time := by
  unfold incrDone
  extract_lets c
  split
  · exact ⟨rfl, rfl, rfl⟩
  · obtain ⟨r, cs, l, h, hr⟩ := postActsAs_frame 15 0xFF TIME_INCR_HI.NS.addr (incrWaits c (incrTaken v s))
    have hword {a : Nat} (ha : a ≠ CALL_OVERFLOW.COUNT.addr) :
        (postActsAs 15 0xFF TIME_INCR_HI.NS.addr (incrWaits c (incrTaken v s))).word a = (incrTaken v s).word a :=
      postEvent_word (by simp) _ ha
    refine ⟨by rw [h]; rfl, incrWritten_congr fun a ha => hword ?_, by rw [h]; rfl⟩
    rcases ha with rfl | rfl <;> decide

theorem incrTaken_word (v : Word) (s : State) {a : Nat} (h : a ≠ TIME_INCR_HI.NS.addr) : (incrTaken v s).word a = s.word a :=
  (State.word_setFld_ne _ TIME_INCR_HI.FRAC _ h).trans (State.word_setFld_ne s TIME_INCR_HI.NS _ h)

/-- A read of the time latches its seconds. -/
theorem timeNow_latched (s : State) :
    (s.setFld64 TIME_NOW_SEC_LO.SEC TIME_NOW_SEC_HI.SEC s.time.sec.toNat).fld TIME_NOW_SEC_LO.SEC +
      2 ^ 32 * (s.setFld64 TIME_NOW_SEC_LO.SEC TIME_NOW_SEC_HI.SEC s.time.sec.toNat).fld TIME_NOW_SEC_HI.SEC = s.time.sec.toNat := by
  have hlt := s.time.sec.isLt
  rw [State.setFld64, State.fld_setFld_apart _ _ TIME_NOW_SEC_HI.SEC _ (by decide) (by decide),
    State.fld_setFld_same _ TIME_NOW_SEC_LO.SEC _ (by decide), State.fld_setFld_same _ TIME_NOW_SEC_HI.SEC _ (by decide)]
  simp only [TIME_NOW_SEC_LO.SEC, TIME_NOW_SEC_HI.SEC]
  omega

/-! ### Holdover -/

/-- The registers that the beginning of a holdover can change. -/
def holdoverRegs : List Nat := [TIME_STATUS.HOLDOVER.addr, TIME_EVENT.EVENT.addr] ++ eventRegs

/-- The flags of a holdover before its event. -/
def heldOver (cause : Nat) (s : State) : State := (s.setFlag TIME_STATUS.HOLDOVER true).orBit TIME_STATUS.CAUSE cause

theorem timeEvent_frame (n : Nat) {cls : EventClass} (hc : cls ≠ .fatal) (s : State) :
    ∃ r c l, timeEvent n cls s = { s with regs := r, call := c, ledger := l } ∧
      ∀ a, a ≠ CALL_OVERFLOW.COUNT.addr → readAt 0 r a = (s.orBit TIME_EVENT.EVENT n).word a := by
  obtain ⟨r, c, l, h, hr⟩ := postEvent_frame (e := { cls := cls, block := 15, cause := n, inst := 0xFF, detail := 0 }) hc
    (s.orBit TIME_EVENT.EVENT n)
  exact ⟨r, c, l, h, hr⟩

theorem holdover_eq (cause : Nat) (s : State) : holdover cause s =
    if s.flag TIME_STATUS.HOLDOVER ∧ (s.fld TIME_STATUS.CAUSE).testBit cause then s else timeEvent 2 .warning (heldOver cause s) := rfl

/-- Holdover goes on or begins with its cause and its event. -/
theorem holdover_shown {cause : Nat} (hc : cause < 5) (s : State) :
    (holdover cause s).flag TIME_STATUS.HOLDOVER = true ∧ ((holdover cause s).fld TIME_STATUS.CAUSE).testBit cause = true ∧
      (s.flag TIME_STATUS.HOLDOVER = false → ((holdover cause s).fld TIME_EVENT.EVENT).testBit 2 = true) ∧
      (holdover cause s).clock = s.clock ∧ (holdover cause s).time = s.time ∧ RegsBut s (holdover cause s) holdoverRegs ∧
      SameMemory s (holdover cause s) := by
  rw [holdover_eq]
  split
  · next h => exact ⟨h.1, h.2, fun hn => absurd h.1 (by simp [hn]), rfl, rfl, .refl s _, fun _ => ⟨rfl, rfl, rfl, rfl⟩⟩
  · obtain ⟨r, c, l, h, hr⟩ := timeEvent_frame 2 (cls := .warning) (by decide) (heldOver cause s)
    have hword {a : Nat} (ha : a ≠ CALL_OVERFLOW.COUNT.addr) :
        (timeEvent 2 .warning (heldOver cause s)).word a = ((heldOver cause s).orBit TIME_EVENT.EVENT 2).word a := by
      rw [h]
      exact hr a ha
    refine ⟨?_, ?_, fun _ => ?_, by rw [h]; rfl, by rw [h]; rfl, fun a ha => ?_, by rw [h]; exact fun _ => ⟨rfl, rfl, rfl, rfl⟩⟩
    · rw [State.flag_of_word (hword (by decide)), State.orBit,
        State.flag_setFld_apart _ _ TIME_EVENT.EVENT _ (by decide) (by decide), heldOver, State.orBit,
        State.flag_setFld_apart _ _ TIME_STATUS.CAUSE _ (by decide) (by decide)]
      exact State.flag_setFlag_same s TIME_STATUS.HOLDOVER true (by decide) rfl
    · rw [State.fld_congr_word (hword (by decide)), State.orBit,
        State.fld_setFld_apart _ _ TIME_EVENT.EVENT _ (by decide) (by decide)]
      exact State.testBit_orBit_same _ TIME_STATUS.CAUSE cause (by decide) hc
    · rw [State.fld_congr_word (hword (by decide))]
      exact State.testBit_orBit_same _ TIME_EVENT.EVENT 2 (by decide) (by decide)
    · simp only [holdoverRegs, eventRegs, List.cons_append, List.nil_append, List.mem_cons, List.not_mem_nil, or_false, not_or] at ha
      refine (hword ha.2.2.1).trans ((State.word_setFld_ne _ TIME_EVENT.EVENT _ ha.2.1).trans ?_)
      exact (State.word_setFld_ne _ TIME_STATUS.CAUSE _ ha.1).trans (State.word_setFld_ne s TIME_STATUS.HOLDOVER _ ha.1)

theorem exec_holdover {s : State} {c : Instr} {bit : Nat} (h : (c = .hold ∧ bit = 3) ∨
      (c = .timeWatchExpire ∧ bit = 2 ∧ s.fld TIME_CTRL.WATCH_MS ≠ 0 ∧
        s.elapsedNs s.clock.watchFrom (s.fld TIME_CTRL.WATCH_MS * 1000000) = true) ∨
      (c = .keepaliveLinkTimeout ∧ bit = 1 ∧ s.mode = 7 ∧ netUp s 0 = false ∧ s.elapsedNs s.clock.kaFrom 1000000000 = true)) :
    bit < 5 ∧ (exec c s = .next (holdover bit s) ∨ exec c s = .next (holdover bit (busOk 0 s))) := by
  rcases h with ⟨rfl, rfl⟩ | ⟨rfl, rfl, hms, ht⟩ | ⟨rfl, rfl, hm, hup, ht⟩
  · exact ⟨by decide, .inr rfl⟩
  · exact ⟨by decide, .inl (if_pos ⟨hms, ht⟩)⟩
  · exact ⟨by decide, .inl (if_pos ⟨hm, hup, ht⟩)⟩

/-- The state after a release. -/
def released (s : State) : State :=
  ((s.setFlag TIME_STATUS.HOLDOVER false).setFld TIME_STATUS.CAUSE 0).orBit TIME_EVENT.EVENT 3

theorem released_shown (s : State) : (released s).flag TIME_STATUS.HOLDOVER = false ∧ (released s).fld TIME_STATUS.CAUSE = 0 ∧
    ((released s).fld TIME_EVENT.EVENT).testBit 3 = true := by
  refine ⟨?_, ?_, State.testBit_orBit_same _ TIME_EVENT.EVENT 3 (by decide) (by decide)⟩
  · rw [released, State.orBit, State.flag_setFld_apart _ _ TIME_EVENT.EVENT _ (by decide) (by decide),
      State.flag_setFld_apart _ _ TIME_STATUS.CAUSE _ (by decide) (by decide)]
    exact State.flag_setFlag_same s TIME_STATUS.HOLDOVER false (by decide) rfl
  · rw [released, State.orBit, State.fld_setFld_apart _ _ TIME_EVENT.EVENT _ (by decide) (by decide)]
    exact State.fld_setFld_same _ TIME_STATUS.CAUSE 0 (by decide)

theorem timeRefused_shown (s : State) : (timeRefused s).word TIME_STATUS.HOLDOVER.addr = s.word TIME_STATUS.HOLDOVER.addr ∧
    ((timeRefused s).fld TIME_EVENT.EVENT).testBit 1 = true := by
  have hword {a : Nat} (ha : a ≠ CALL_OVERFLOW.COUNT.addr) : (timeRefused s).word a = (s.orBit TIME_EVENT.EVENT 1).word a :=
    postEvent_word (by simp) _ ha
  refine ⟨(hword (by decide)).trans (State.word_setFld_ne s TIME_EVENT.EVENT _ (by decide)), ?_⟩
  rw [State.fld_congr_word (hword (by decide))]
  exact State.testBit_orBit_same s TIME_EVENT.EVENT 1 (by decide) (by decide)

theorem exec_release {s : State} (hup : netUp s (servoPort s) = true) (hrc : s.flag TIME_STATUS.RC_CLK = false) :
    exec .release s = .next (released (busOk 0 s)) := by
  have h : netUp (busOk 0 s) (servoPort (busOk 0 s)) = true ∧ (busOk 0 s).flag TIME_STATUS.RC_CLK = false := ⟨hup, hrc⟩
  simp only [exec, execRelease, h, and_self, if_true]
  rfl

theorem exec_release_refused {s : State} (h : netUp s (servoPort s) = false ∨ s.flag TIME_STATUS.RC_CLK = true) :
    exec .release s = .next (timeRefused (busOk 0 s)) := by
  have hnot : ¬ (netUp (busOk 0 s) (servoPort (busOk 0 s)) = true ∧ (busOk 0 s).flag TIME_STATUS.RC_CLK = false) := by
    rintro ⟨h1, h2⟩
    rcases h with h | h
    · exact absurd (h.symm.trans h1) (by decide)
    · exact absurd (h.symm.trans h2) (by decide)
  simp only [exec, execRelease, hnot, if_false]

theorem exec_timeNowRead (s : State) : exec .timeNowRead s = .next (busOk (BitVec.ofNat 32 s.time.ns)
    (s.setFld64 TIME_NOW_SEC_LO.SEC TIME_NOW_SEC_HI.SEC s.time.sec.toNat)) := rfl

/-- Settles O50, by the register of the increment and by the flags of a holdover. -/
theorem incrementAndHoldover : Obligations.IncrementAndHoldover := by
  unfold Obligations.IncrementAndHoldover
  refine ⟨?incr, ?now, ?hold, ?release, ?refused⟩
  case incr =>
    intro s v n h
    have hn : incrWritten (incrTaken v (busOk 0 s)) = n := (incrWritten_incrTaken v (busOk 0 s)).trans h.symm
    obtain ⟨hclock, hwritten, htime⟩ := incrDone_clock v (busOk 0 s)
    rw [hn] at hclock hwritten
    refine ⟨_, exec_timeIncrWrite s v, by rw [hclock]; rfl, hwritten, htime, fun hlo hhi => ?_⟩
    have hin : clamp incrLow incrHigh n = n := by
      unfold clamp
      omega
    have hdone : incrDone v (busOk 0 s) = incrWaits n (incrTaken v (busOk 0 s)) := by
      unfold incrDone
      rw [hn, hin, if_pos rfl]
    rw [hdone]
    exact ⟨rfl, fun a ha => incrTaken_word v (busOk 0 s) (by simpa using ha)⟩
  case now =>
    intro s
    refine ⟨_, exec_timeNowRead s, rfl, timeNow_latched s, rfl, fun a ha => ?_⟩
    simp only [List.mem_cons, List.not_mem_nil, or_false, not_or] at ha
    exact (State.word_setFld_ne _ TIME_NOW_SEC_HI.SEC _ ha.2).trans (State.word_setFld_ne s TIME_NOW_SEC_LO.SEC _ ha.1)
  case hold =>
    intro s c bit h
    obtain ⟨hbit, hexec | hexec⟩ := exec_holdover h
    · exact ⟨_, hexec, holdover_shown hbit s⟩
    · exact ⟨_, hexec, holdover_shown hbit (busOk 0 s)⟩
  case release =>
    intro s hup hrc
    obtain ⟨h1, h2, h3⟩ := released_shown (busOk 0 s)
    refine ⟨_, exec_release hup hrc, h1, h2, h3, rfl, fun a ha => ?_⟩
    simp only [List.mem_cons, List.not_mem_nil, or_false, not_or] at ha
    exact (State.word_setFld_ne _ TIME_EVENT.EVENT _ ha.2).trans <| (State.word_setFld_ne _ TIME_STATUS.CAUSE _ ha.1).trans
      (State.word_setFld_ne (busOk 0 s) TIME_STATUS.HOLDOVER _ ha.1)
  case refused =>
    intro s h
    obtain ⟨hword, hbit⟩ := timeRefused_shown (busOk 0 s)
    exact ⟨_, exec_release_refused h, State.flag_of_word hword, State.fld_congr_word (f := TIME_STATUS.CAUSE) hword, hbit⟩

/-! ### Pulses and timecode -/

/-- The bytes of the output word from byte `k` on, each a digit with its user bits. -/
theorem ltcDigits_sum (ub : Nat) (l : List Nat) (k : Nat) (h : ∀ d ∈ l, d < 16) : ∃ y, y < 2 ^ (8 * l.length) ∧
    ((l.zipIdx k).map (fun e => e.1 * 2 ^ (8 * e.2) + ub / 16 ^ e.2 % 16 * 2 ^ (8 * e.2 + 4))).sum = y * 2 ^ (8 * k) ∧
    ∀ d ∈ l.head?, y % 16 = d := by
  induction l generalizing k with
  | nil => exact ⟨0, by simp, by simp, by simp⟩
  | cons d l ih =>
    obtain ⟨y, hy, hsum, -⟩ := ih (k + 1) fun x hx => h x (List.mem_cons_of_mem _ hx)
    have hd := h d List.mem_cons_self
    have hu : ub / 16 ^ k % 16 < 16 := Nat.mod_lt _ (by decide)
    refine ⟨d + ub / 16 ^ k % 16 * 16 + y * 256, ?_, ?_, ?_⟩
    · have hpow : 2 ^ (8 * (d :: l).length) = 2 ^ (8 * l.length) * 256 := by rw [List.length_cons, Nat.mul_succ, Nat.pow_add]
      omega
    · rw [List.zipIdx_cons, List.map_cons, List.sum_cons, hsum]
      ring
    · intro x hx
      obtain rfl : d = x := by simpa using hx
      omega

theorem ltcRate_le (code : Nat) : 0 < ltcRate code ∧ ltcRate code ≤ 30 := by
  unfold ltcRate
  split
  · omega
  · split <;> omega

/-- The sync word and the first digit of the output word. -/
theorem ltcWord_sync (code n ub : Nat) : ltcWord code n ub / 2 ^ 64 = 0xBFFC ∧ ltcWord code n ub % 16 = n % ltcRate code % 10 := by
  obtain ⟨hpos, hle⟩ := ltcRate_le code
  have hf : n % ltcRate code < ltcRate code := Nat.mod_lt _ hpos
  unfold ltcWord
  extract_lets r f sec mn hr digits
  have hsmall : ∀ d ∈ digits, d < 16 := by
    have h1 : f < ltcRate code := hf
    have h2 : sec < 60 := Nat.mod_lt _ (by decide)
    have h3 : mn < 60 := Nat.mod_lt _ (by decide)
    have h4 : hr < 24 := Nat.mod_lt _ (by decide)
    simp only [digits, List.forall_mem_cons, List.not_mem_nil, false_imp_iff, implies_true, and_true]
    omega
  obtain ⟨y, hy, hsum, hhead⟩ := ltcDigits_sum ub digits 0 hsmall
  have hlen : 8 * digits.length = 64 := rfl
  have hdigit : y % 16 = n % ltcRate code % 10 := hhead _ rfl
  rw [hsum, Nat.mul_zero, Nat.pow_zero, Nat.mul_one]
  rw [hlen] at hy
  omega

theorem exec_ltcOutWord {s : State} (he : s.flag TIME_LTC_CTRL.OUT_EN = true) (hs : ltcStarts s = true) :
    exec .ltcOutWord s = .next (setClock { s.clock with
      ltcOut := ltcWord (s.fld TIME_LTC_CTRL.RATE) (ltcFrameAt s s.time) (s.fld TIME_LTC_UB.UB) } s) := by
  simp only [exec, execLtcOutWord, he, hs, Bool.true_eq_false, or_self, if_false]

/-- A captured edge of the pulse input. -/
def ppsCaptured (time : Nat) (s : State) : State :=
  ((setClock { s.clock with ppsLast := some s.ticks } s).setFld TIME_PPS_IN.T32 (ofSigned 32 ((time : Int) - 10))).orBit
    TIME_EVENT.EVENT 6

theorem exec_ppsInEdge {s : State} (he : s.flag TIME_PPS_CTRL.IN_EN = true)
    (hl : ∀ l ∈ s.clock.ppsLast, s.elapsedNs l 500000000 = true) (time : Nat) :
    exec (.ppsInEdge time) s = .next (ppsCaptured time s) := by
  have hnew : ¬ (s.flag TIME_PPS_CTRL.IN_EN = false ∨ s.clock.ppsLast.any (fun t => !s.elapsedNs t 500000000) = true) := by
    rw [he]
    cases h : s.clock.ppsLast with
    | none => simp
    | some l => simpa using hl l (by simp [h])
  simp only [exec, execPpsInEdge, hnew, if_false]
  rfl

theorem ofSigned_sub {time : Nat} (h : 10 ≤ time) : ofSigned 32 ((time : Int) - 10) = (time - 10) % 2 ^ 32 := by
  unfold ofSigned
  omega

/-- A valid word of the timecode input, before its lock. -/
def ltcTaken (w : BitVec 64) (s : State) : State :=
  let t := s.setFld64 TIME_LTC_IN_LO.VALUE TIME_LTC_IN_HI.VALUE w.toNat
  (t.setFld TIME_LTC_IN_NS.VALUE (t.nowNs % 2 ^ 32)).orBit TIME_EVENT.EVENT 7

theorem exec_ltcIn_locked {s : State} (w : BitVec 64) (he : s.flag TIME_LTC_CTRL.IN_EN = true) (hr : 1 ≤ s.clock.ltcRun) :
    exec (.ltcInWord w true) s = .next (setClock { s.clock with ltcRun := 2 } ((ltcTaken w s).setFlag TIME_STATUS.LTC_LOCK true)) := by
  have hn : min 2 ((ltcTaken w s).clock.ltcRun + 1) = 2 := by
    change min 2 (s.clock.ltcRun + 1) = 2
    omega
  simp only [exec, execLtcInWord, he, Bool.true_eq_false, if_false]
  change Host.Outcome.next (setClock { (ltcTaken w s).clock with ltcRun := min 2 ((ltcTaken w s).clock.ltcRun + 1) }
    (if min 2 ((ltcTaken w s).clock.ltcRun + 1) = 2 then (ltcTaken w s).setFlag TIME_STATUS.LTC_LOCK true else ltcTaken w s)) = _
  rw [hn, if_pos rfl]
  rfl

theorem ltcTaken_shown (w : BitVec 64) (s : State) :
    (ltcTaken w s).fld TIME_LTC_IN_LO.VALUE + 2 ^ 32 * (ltcTaken w s).fld TIME_LTC_IN_HI.VALUE = w.toNat ∧
      (ltcTaken w s).fld TIME_LTC_IN_NS.VALUE = s.nowNs % 2 ^ 32 ∧ ((ltcTaken w s).fld TIME_EVENT.EVENT).testBit 7 = true := by
  have hlt := w.isLt
  refine ⟨?_, ?_, State.testBit_orBit_same _ TIME_EVENT.EVENT 7 (by decide) (by decide)⟩
  · simp (disch := decide) only [ltcTaken, State.orBit, State.setFld64, State.fld_setFld_apart, State.fld_setFld_same]
    simp only [TIME_LTC_IN_LO.VALUE, TIME_LTC_IN_HI.VALUE]
    omega
  · simp (disch := decide) only [ltcTaken, State.orBit, State.fld_setFld_apart, State.fld_setFld_same]
    exact Nat.mod_mod _ _

/-- The lock of the timecode input leaves what the word left. -/
theorem ltcLocked_shown (w : BitVec 64) (s : State) {t : State}
    (ht : t = setClock { s.clock with ltcRun := 2 } ((ltcTaken w s).setFlag TIME_STATUS.LTC_LOCK true)) :
    t.flag TIME_STATUS.LTC_LOCK = true ∧ t.fld TIME_LTC_IN_LO.VALUE + 2 ^ 32 * t.fld TIME_LTC_IN_HI.VALUE = w.toNat ∧
      t.fld TIME_LTC_IN_NS.VALUE = s.nowNs % 2 ^ 32 ∧ (t.fld TIME_EVENT.EVENT).testBit 7 = true ∧ t.clock.ltcRun = 2 := by
  obtain ⟨hword, hns, hbit⟩ := ltcTaken_shown w s
  have hregs : t.regs = ((ltcTaken w s).setFlag TIME_STATUS.LTC_LOCK true).regs := by rw [ht]; rfl
  have hfld {f : Fld} (hf : f.apart TIME_STATUS.LTC_LOCK = true) : t.fld f = (ltcTaken w s).fld f :=
    (State.fld_congr hregs f).trans (State.fld_setFld_apart _ f TIME_STATUS.LTC_LOCK _ (by decide) hf)
  have hlock : t.flag TIME_STATUS.LTC_LOCK = true := by
    rw [State.flag, State.fld_congr hregs]
    exact State.flag_setFlag_same _ TIME_STATUS.LTC_LOCK true (by decide) rfl
  refine ⟨hlock, ?_, ?_, ?_, by rw [ht]; rfl⟩
  · rw [hfld (by decide), hfld (by decide), hword]
  · rw [hfld (by decide), hns]
  · rw [hfld (by decide), hbit]

/-- Settles O51, by the edges of the pulses and by the digits of the output word. -/
theorem pulsesAndTimecode : Obligations.PulsesAndTimecode := by
  unfold Obligations.PulsesAndTimecode
  refine ⟨?assert, ?pulseEnd, ?edge, ?early, ?locked, ?unlocked, ?out⟩
  case assert =>
    intro s he hv ha
    simp only [exec, execPpsOutAssert, he, hv, ha, and_self, if_true]
    rfl
  case pulseEnd =>
    intro s h
    simp only [exec, execPpsOutEnd, clamp, h, if_true]
    rfl
  case edge =>
    intro s time he hl
    refine ⟨_, exec_ppsInEdge he hl time, fun h => ?_, State.testBit_orBit_same _ TIME_EVENT.EVENT 6 (by decide) (by decide), rfl, rfl,
      fun a ha => ?_⟩
    · simp (disch := decide) only [ppsCaptured, State.orBit, State.fld_setFld_apart, State.fld_setFld_same, ofSigned_sub h]
      exact Nat.mod_mod _ _
    · simp only [List.mem_cons, List.not_mem_nil, or_false, not_or] at ha
      exact (State.word_setFld_ne _ TIME_EVENT.EVENT _ ha.2).trans (State.word_setFld_ne _ TIME_PPS_IN.T32 _ ha.1)
  case early =>
    intro s time l hl hn
    have hold : s.flag TIME_PPS_CTRL.IN_EN = false ∨ s.clock.ppsLast.any (fun t => !s.elapsedNs t 500000000) = true :=
      .inr (by simp [hl, hn])
    simp only [exec, execPpsInEdge, hold, if_true]
  case locked =>
    intro s w he hr
    exact ⟨_, exec_ltcIn_locked w he hr, ltcLocked_shown w s rfl⟩
  case unlocked =>
    intro s w he
    have hexec : exec (.ltcInWord w false) s = .next (setClock { s.clock with ltcRun := 0 } (s.setFlag TIME_STATUS.LTC_LOCK false)) := by
      simp only [exec, execLtcInWord, he, Bool.true_eq_false, if_false, if_true]
    exact ⟨_, hexec, State.flag_setFlag_same s TIME_STATUS.LTC_LOCK false (by decide) rfl, rfl, rfl,
      fun a ha => State.word_setFld_ne s TIME_STATUS.LTC_LOCK _ (by simpa using ha)⟩
  case out =>
    intro s code n he hcode hn hs
    subst hcode
    have hframe : ltcFrameAt s s.time = n := hn.symm
    refine ⟨_, exec_ltcOutWord he hs, rfl, ?_⟩
    rw [hframe]
    exact ltcWord_sync _ n _

end Sys2Proof.Machine
end

section
/-! PROOFS. A stream whose ring lies past the populated DRAM (R33, R444). -/

namespace Sys2Proof.Machine

/-- A stream of encoder 0 on port 0 with every field of its entry 0. -/
def plainStream : NetStream := { streamInit with ok := true }

/-- Port 0 is up, and the ring of encoder 0 holds a chunk of 1,000 bytes of which one byte is `v`; all groups of the map are retired, so that
the data region is empty. -/
def strayRing (v : Byte) : State :=
  { withFlds [(POWER_STATUS.ON, 2 ^ 26), (NET_CFG.EN 0, 1), (NET_STATUS.LINK 0, 1), (HEVE_OUT_WR.WR 0, 17)] with
    dram := [(8, 0xE8), (9, 0x03), (100, v)]
    mem := { dramInit with committed := true, retired := [0, 1, 2, 3] }
    net := { netInit with streams := plainStream :: List.replicate 3 streamInit } }

/-- The chunk of that ring. -/
def strayChunk : NetObject := { kind := 0, addr := 0, total := 1064, frame := 0, rdAfter := 17 }

theorem strayRing_turn : ∀ v ∈ [(1 : Byte), 2], (strayRing v).domainOn 26 = true ∧ (strayRing v).mode ≠ 7 ∧
    netObject (strayRing v) plainStream = some strayChunk ∧ netUp (strayRing v) plainStream.eth = true ∧
    netReady (strayRing v) plainStream = true ∧ netStreamTurn (strayRing v) 0 = true ∧
    netNearLoop (strayRing v) plainStream.eth = false ∧ netReplaced (strayRing v) plainStream.eth = false ∧
    (strayRing v).poisoned 0 256 = false := by decide +kernel

/-- The wire of the port that a command drives. -/
def wireOf : Host.Outcome State Fault Refusal → List Byte
  | .next t => (netPort t 0).wire
  | _ => []

/-- The bytes that a stream sends. -/
def strayBytes (v : Byte) : List Byte := (strayRing v).bufBytes 0 256

/-- Past the populated data region no byte comes from the DRAM. -/
theorem strayBytes_eq (v w : Byte) : strayBytes v = strayBytes w := rfl

theorem netPort_netCount_wire (p q kind : Nat) (s : State) : (netPort (netCount p kind s) q).wire = (netPort s q).wire := by
  simp only [netPort, netCount, modNet, setNet_net, getElem?_modAt]
  split
  · cases s.net.ports[q]? <;> rfl
  · rfl

theorem netDrive_wire {p : Nat} {s : State} (hr : netReplaced s p = false) (hl : netNearLoop s p = false) (hp : p < s.net.ports.length)
    (bs : List Byte) : (netPort (netDrive p bs s) p).wire = withFcs bs := by
  rw [netDrive, netPort_netCount_wire]
  simp only [hr, hl, Bool.false_eq_true, if_false, netPort, modNet, setNet_net, getElem?_modAt, if_true, List.getElem?_eq_getElem hp,
    Option.map_some, Option.getD_some]

theorem wireOf_strayRing (v : Byte) (hv : v ∈ [(1 : Byte), 2]) :
    wireOf (exec (.streamDatagram 0) (strayRing v)) = withFcs (datagram plainStream strayChunk (strayBytes v)) := by
  obtain ⟨hd, hm, ho, hup, hready, hturn, hloop, hrep, hp⟩ := strayRing_turn v hv
  have hx : netStream (strayRing v) 0 = plainStream := rfl
  have hwarn (inst : Nat) : poisonWarn 14 inst 0 256 (strayRing v) = strayRing v := by simp [poisonWarn, hp]
  have hnot : ¬ (plainStream.ok = false ∨ (strayRing v).domainOn 26 = false ∨ (strayRing v).mode = 7) := by simp [plainStream, hd, hm]
  have hgo : ¬ (netReady (strayRing v) plainStream = false ∨ netStreamTurn (strayRing v) (0 : Fin 4).val = false) := by
    rw [hready, show netStreamTurn (strayRing v) (0 : Fin 4).val = true from hturn]
    decide
  have hend : ¬ plainStream.off + 256 = strayChunk.total := by decide
  have hlen : min plainStream.payload (strayChunk.total - plainStream.off) = 256 := by decide
  change wireOf (execStreamDatagram 0 (strayRing v)) = _
  unfold execStreamDatagram
  extract_lets k x
  rw [show x = plainStream from hx, if_neg hnot, ho]
  simp only [hup, Bool.true_eq_false, if_false, hlen]
  rw [if_neg hgo, if_neg hend, show strayChunk.addr + plainStream.off = 0 from rfl, hwarn]
  simp only [wireOf]
  rw [show (0 : Nat) = plainStream.eth from rfl, netPort_netCount_wire]
  exact netDrive_wire hrep hloop (show 0 < 2 by decide) _

theorem length_spliceAt {bs new : List Byte} {off : Nat} (h : off + new.length ≤ bs.length) : (spliceAt bs off new).length = bs.length := by
  simp only [spliceAt, List.length_append, List.length_take, List.length_drop]
  omega

theorem length_beBytes (n v : Nat) : (beBytes n v).length = n := by rw [beBytes, List.length_reverse, length_leBytes]

/-- The lengths of a datagram of that stream, and the piece at its end. -/
theorem datagram_plainStream (piece : List Byte) : ∃ h, datagram plainStream strayChunk piece = h ++ piece ∧ h.length = 74 := by
  unfold datagram
  extract_lets last hdr body t ip udp udpLen t1 t6 pseudo c t2 t3 ihl
  rw [if_neg (by decide)]
  have ht : t.length = 42 := by decide
  have h1 : t1.length = 42 := by
    rw [show t1 = spliceAt (spliceAt t (udp + 4) (beBytes 2 udpLen)) (udp + 6) [0, 0] from rfl, length_spliceAt, length_spliceAt, ht]
    · simp only [length_beBytes, ht]
      decide
    · rw [length_spliceAt (by simp only [length_beBytes, ht]; decide), ht]
      decide
  have h2 : t2.length = 42 := (length_spliceAt (by simp only [length_beBytes, h1]; decide)).trans h1
  have h3 : t3.length = 42 := (length_spliceAt (by rw [h2]; decide)).trans h2
  have h4 : (spliceAt t3 (ip + 10) (beBytes 2 (inetSum (List.take ihl (List.drop ip t3))))).length = 42 :=
    (length_spliceAt (by simp only [length_beBytes, h3]; decide)).trans h3
  refine ⟨_ ++ hdr, (List.append_assoc ..).symm, ?_⟩
  rw [List.length_append, h4]
  simp only [hdr, List.length_append, length_leBytes, List.length_cons, List.length_nil]


theorem dramBytes_strayRing : (strayRing 1).dramBytes 0 256 ≠ (strayRing 2).dramBytes 0 256 := by decide +kernel

theorem withFcs_prefix {a b pad : List Byte} (h : withFcs a = b ++ pad) (hl : a.length = b.length) : a = b := by
  rw [withFcs, List.append_assoc] at h
  exact (List.append_inj h hl).1

theorem length_strayBytes (v : Byte) : (strayBytes v).length = 256 := by
  have hpast : ((strayRing v).mem.committed && decide (dramSize (strayRing v) < 0 + 256)) = true := rfl
  rw [strayBytes, State.bufBytes, if_pos hpast, List.length_map, List.length_range]

theorem length_dramBytes (s : State) (a n : Nat) : (s.dramBytes a n).length = n := by
  unfold State.dramBytes
  split
  · exact length_readList ..
  · simp

/-- Refutes O49: its clause on a datagram leaves out that a ring may pass the populated data region, whose bytes are then not those of
the DRAM. -/
theorem not_streamsAndKeepAliveFrames : ¬ Obligations.StreamsAndKeepAliveFrames := by
  rintro ⟨h, -⟩
  have hsent (v : Byte) (hv : v ∈ [(1 : Byte), 2]) : strayBytes v = (strayRing v).dramBytes 0 256 := by
    obtain ⟨hd, hm, ho, hup, hready, hturn, hloop, hrep, -⟩ := strayRing_turn v hv
    obtain ⟨t, hexec, -, -, -, ⟨pad, hwire⟩, -⟩ := h (strayRing v) 0 strayChunk plainStream 256 rfl rfl hd hm ho hup hready hturn hloop hrep
      (show 0 < 4 by decide) rfl (by decide) (by decide)
    have hthere := wireOf_strayRing v hv
    rw [hexec] at hthere
    obtain ⟨h1, heq1, hl1⟩ := datagram_plainStream (strayBytes v)
    obtain ⟨h2, heq2, hl2⟩ := datagram_plainStream ((strayRing v).dramBytes 0 256)
    have hlen : (strayBytes v).length = ((strayRing v).dramBytes 0 256).length := by
      rw [length_strayBytes, length_dramBytes]
    have hdata : h1 ++ strayBytes v = h2 ++ (strayRing v).dramBytes 0 256 := by
      rw [← heq1, ← heq2]
      refine withFcs_prefix (hthere.symm.trans hwire) ?_
      rw [heq1, heq2, List.length_append, List.length_append, hl1, hl2, hlen]
    exact (List.append_inj hdata (hl1.trans hl2.symm)).2
  exact dramBytes_strayRing (((hsent 1 (by decide)).symm.trans (strayBytes_eq 1 2)).trans (hsent 2 (by decide)))

end Sys2Proof.Machine
end

section
/-! PROOFS. Motion compares: what arms and disarms them and what they record when they fire (R490 to R492). -/

namespace Sys2Proof.Machine

/-! ### Fields of numbered registers -/

/-- Two fields of the register set numbered `c` that share no bit. -/
theorem State.fld_setFld_apart_at {N : Nat} {F G : Nat → Fld} (c : Fin N) (s : State) (n : Nat)
    (h : ∀ c : Fin N, (G c).fits = true ∧ (F c).apart (G c) = true) : (s.setFld (G c) n).fld (F c) = s.fld (F c) :=
  State.fld_setFld_apart s (F c) (G c) n (h c).1 (h c).2

theorem State.fld_setFld_same_at {N : Nat} {F : Nat → Fld} (c : Fin N) (s : State) (n : Nat) (h : ∀ c : Fin N, (F c).fits = true) :
    (s.setFld (F c) n).fld (F c) = n % 2 ^ (F c).width :=
  State.fld_setFld_same s (F c) n (h c)

theorem State.flag_setFld_apart_at {N : Nat} {F G : Nat → Fld} (c : Fin N) (s : State) (n : Nat)
    (h : ∀ c : Fin N, (G c).fits = true ∧ (F c).apart (G c) = true) : (s.setFld (G c) n).flag (F c) = s.flag (F c) :=
  State.flag_setFld_apart s (F c) (G c) n (h c).1 (h c).2

theorem State.flag_setFlag_same_at {N : Nat} {F : Nat → Fld} (c : Fin N) (s : State) (b : Bool)
    (h : ∀ c : Fin N, (F c).fits = true ∧ (F c).width = 1) : (s.setFlag (F c) b).flag (F c) = b :=
  State.flag_setFlag_same s (F c) b (h c).1 (h c).2

/-- A field of a numbered register reads as before where its register does. -/
theorem State.fld_postEvent {e : Event} (he : e.cls ≠ .fatal) (s : State) {f : Fld} (hf : f.addr ≠ CALL_OVERFLOW.COUNT.addr) :
    (postEvent e s).fld f = s.fld f := State.fld_congr_word (postEvent_word he s hf)

theorem State.flag_postEvent {e : Event} (he : e.cls ≠ .fatal) (s : State) {f : Fld} (hf : f.addr ≠ CALL_OVERFLOW.COUNT.addr) :
    (postEvent e s).flag f = s.flag f := State.flag_of_word (postEvent_word he s hf)

theorem postEvent_motion {e : Event} (he : e.cls ≠ .fatal) (s : State) : (postEvent e s).motion = s.motion := by
  obtain ⟨r, c, l, h, -⟩ := postEvent_frame he s
  rw [h]

theorem OnlyRegs.setMotion {s t : State} {as : List Nat} (h : OnlyRegs s t as) (m : MotionState) :
    OnlyRegs { s with motion := m } { t with motion := m } as := by
  obtain ⟨hstate, hregs⟩ := h
  exact ⟨congrArg (fun u : State => { u with motion := m }) hstate, hregs⟩

/-! ### A write of the control register of a compare -/

/-- The W1C fields of a write of the control register. -/
def cmpCleared (k v : Nat) (s : State) : State :=
  let s := if v.testBit 28 then s.setFlag (MOTION_CMP_CTRL.BEHIND k) false else s
  let s := if v.testBit 27 then s.setFlag (MOTION_CMP_CTRL.PASSED k) false else s
  if v.testBit 26 then s.setFlag (MOTION_CMP_CTRL.REFUSED k) false else s

/-- The fields of a write of the control register. -/
def cmpTaken (k v : Nat) (s : State) : State :=
  ((((cmpCleared k v s).setFlag (MOTION_CMP_CTRL.FIRE_IF_PASSED k) (v.testBit 7)).setFlag (MOTION_CMP_CTRL.PERIODIC k)
    (v.testBit 6)).setFld (MOTION_CMP_CTRL.DIR k) (bits v 5 4)).setFld (MOTION_CMP_CTRL.CH k) (bits v 1 0)

theorem cmpCtrlWrite_eq (k v : Nat) (s : State) : cmpCtrlWrite k v s =
    if bits v 5 4 = 3 then postActsAs 17 (0x10 + k) (MOTION_CMP_CTRL.DIR k).addr (cmpTaken k v s) else cmpTaken k v s := rfl

theorem OnlyRegs.setFldIf {s t : State} {as : List Nat} (h : OnlyRegs s t as) {f : Fld} (hf : f.addr ∈ as) (b : Bool) (n : Nat) :
    OnlyRegs s (if b then t.setFld f n else t) as := by
  cases b
  · exact h
  · exact h.setFld hf n

theorem cmpTaken_only {s t : State} (k v : Nat) {as : List Nat} (h : OnlyRegs s t as) (ha : (MOTION_CMP_CTRL.ARMED k).addr ∈ as) :
    OnlyRegs s (cmpTaken k v t) as := by
  have hcleared := ((h.setFldIf (f := MOTION_CMP_CTRL.BEHIND k) ha (v.testBit 28) 0).setFldIf (f := MOTION_CMP_CTRL.PASSED k) ha
    (v.testBit 27) 0).setFldIf (f := MOTION_CMP_CTRL.REFUSED k) ha (v.testBit 26) 0
  exact (((hcleared.setFld (f := MOTION_CMP_CTRL.FIRE_IF_PASSED k) ha _).setFld (f := MOTION_CMP_CTRL.PERIODIC k) ha _).setFld
    (f := MOTION_CMP_CTRL.DIR k) ha _).setFld (f := MOTION_CMP_CTRL.CH k) ha _

theorem OnlyRegs.motion_eq {s t : State} {as : List Nat} (h : OnlyRegs s t as) : t.motion = s.motion := by rw [h.1]

/-- The control register of a compare holds the written settings. -/
theorem cmpTaken_shown (k : Fin 8) (v : Nat) (s : State) : (cmpTaken k v s).fld (MOTION_CMP_CTRL.CH k) = v % 4 ∧
    (cmpTaken k v s).fld (MOTION_CMP_CTRL.DIR k) = bits v 5 4 ∧ (cmpTaken k v s).flag (MOTION_CMP_CTRL.PERIODIC k) = v.testBit 6 ∧
    (cmpTaken k v s).flag (MOTION_CMP_CTRL.FIRE_IF_PASSED k) = v.testBit 7 := by
  refine ⟨?_, ?_, ?_, ?_⟩
  · rw [cmpTaken, State.fld_setFld_same_at k _ _ (by decide)]
    simp [MOTION_CMP_CTRL.CH, bits]
  · rw [cmpTaken, State.fld_setFld_apart_at k _ _ (by decide), State.fld_setFld_same_at k _ _ (by decide)]
    simp [MOTION_CMP_CTRL.DIR, bits]
  · rw [cmpTaken, State.flag_setFld_apart_at k _ _ (by decide), State.flag_setFld_apart_at k _ _ (by decide),
      State.flag_setFlag_same_at k _ _ (by decide)]
  · rw [cmpTaken, State.flag_setFld_apart_at k _ _ (by decide), State.flag_setFld_apart_at k _ _ (by decide), State.setFlag,
      State.flag_setFld_apart_at k _ _ (by decide), State.flag_setFlag_same_at k _ _ (by decide)]

theorem cmpTaken_sys (k v : Nat) (s : State) : (cmpTaken k v s).sys = s.sys := by
  simp only [cmpTaken, cmpCleared, State.setFlag, State.setFld_sys, apply_ite State.sys, ite_self]

/-- A write of the control register of a compare changes that register and can post a warning. -/
theorem cmpCtrlWrite_frame (k v : Nat) (s : State) : ∃ r c l, cmpCtrlWrite k v s = { s with regs := r, call := c, ledger := l } ∧
    ∀ a, a ≠ CALL_OVERFLOW.COUNT.addr → readAt 0 r a = (cmpTaken k v s).word a := by
  have hs : cmpTaken k v s = { s with regs := (cmpTaken k v s).regs, sys := { s.sys with bus := (cmpTaken k v s).sys.bus } } :=
    (cmpTaken_only k v (t := s) (as := [(MOTION_CMP_CTRL.ARMED k).addr]) ⟨rfl, fun _ _ => rfl⟩ (by simp)).1
  have hsys : cmpTaken k v s = { s with regs := (cmpTaken k v s).regs } := by
    rw [cmpTaken_sys] at hs
    exact hs
  rw [cmpCtrlWrite_eq]
  split
  · obtain ⟨r, c, l, h, hr⟩ := postActsAs_frame 17 (0x10 + k) (MOTION_CMP_CTRL.DIR k).addr (cmpTaken k v s)
    exact ⟨r, c, l, by rw [h, hsys], hr⟩
  · exact ⟨(cmpTaken k v s).regs, s.call, s.ledger, hsys, fun _ _ => rfl⟩

theorem cmpAddr (k : Fin 8) : (MOTION_CMP_CTRL.ARMED k).addr ≠ CALL_OVERFLOW.COUNT.addr ∧
    (MOTION_CMP_TARGET.TARGET k).addr ≠ CALL_OVERFLOW.COUNT.addr ∧ (MOTION_CMP_STEP.STEP k).addr ≠ CALL_OVERFLOW.COUNT.addr ∧
    (MOTION_CMP_TARGET.TARGET k).addr ≠ (MOTION_CMP_CTRL.ARMED k).addr ∧
    (MOTION_CMP_STEP.STEP k).addr ≠ (MOTION_CMP_CTRL.ARMED k).addr := by
  revert k
  decide

theorem cmpAddr_channel (k : Fin 8) (c : Fin 4) : ∀ a ∈ [(MOTION_STATUS.STANDSTILL c).addr, (MOTION_POS.POS c).addr],
    a ∉ (MOTION_CMP_CTRL.ARMED k).addr :: eventRegs := by
  revert k c
  decide

/-- What a write of the control register leaves for the arming. -/
structure CmpWritten (k : Fin 8) (v : Nat) (s t : State) : Prop where
  state : ∃ r c l, t = { s with regs := r, call := c, ledger := l }
  regs : RegsBut s t ((MOTION_CMP_CTRL.ARMED k).addr :: eventRegs)
  settings : cmpRegs t k = { ch := v % 4, dir := min 2 (bits v 5 4), periodic := v.testBit 6
                             target := if motionMod s (v % 4) = 0 then toSigned 32 (s.fld (MOTION_CMP_TARGET.TARGET k))
                               else (s.fld (MOTION_CMP_TARGET.TARGET k) : Int)
                             step := min 2147483647 (s.fld (MOTION_CMP_STEP.STEP k)) }
  passed : t.flag (MOTION_CMP_CTRL.FIRE_IF_PASSED k) = v.testBit 7

theorem cmpCtrlWrite_written (k : Fin 8) (v : Nat) (s : State) : CmpWritten k v s (cmpCtrlWrite k v s) := by
  obtain ⟨r, c, l, h, hr⟩ := cmpCtrlWrite_frame k v s
  obtain ⟨hch, hdir, hper, hpass⟩ := cmpTaken_shown k v s
  obtain ⟨hctrl, htarget, hstep, htarget', hstep'⟩ := cmpAddr k
  have honly : OnlyRegs s (cmpTaken k v s) [(MOTION_CMP_CTRL.ARMED k).addr] :=
    cmpTaken_only k v (t := s) ⟨rfl, fun _ _ => rfl⟩ (by simp)
  have hword {a : Nat} (ha : a ≠ CALL_OVERFLOW.COUNT.addr) : (cmpCtrlWrite k v s).word a = (cmpTaken k v s).word a := by
    rw [h]
    exact hr a ha
  have hkept {f : Fld} (hf : f.addr ≠ CALL_OVERFLOW.COUNT.addr) (hf' : f.addr ≠ (MOTION_CMP_CTRL.ARMED k).addr) :
      (cmpCtrlWrite k v s).fld f = s.fld f := State.fld_congr_word ((hword hf).trans (honly.2 _ (by simpa using hf')))
  have hmotion : (cmpCtrlWrite k v s).motion = s.motion := by rw [h]
  refine ⟨⟨r, c, l, h⟩, fun a ha => ?_, ?_, (State.flag_of_word (f := MOTION_CMP_CTRL.FIRE_IF_PASSED k) (hword hctrl)).trans hpass⟩
  · simp only [eventRegs, List.mem_cons, List.not_mem_nil, or_false, not_or] at ha
    exact (hword ha.2.1).trans (honly.2 a (by simpa using ha.1))
  · have hch : (cmpCtrlWrite k v s).fld (MOTION_CMP_CTRL.CH k) = v % 4 := (State.fld_congr_word (f := MOTION_CMP_CTRL.CH k) (hword hctrl)).trans hch
    have hmod : motionMod (cmpCtrlWrite k v s) (v % 4) = motionMod s (v % 4) := by simp only [motionMod, motionRec, hmotion]
    simp only [cmpRegs, hch, hmod, hkept htarget htarget', hkept hstep hstep', (State.fld_congr_word (f := MOTION_CMP_CTRL.DIR k) (hword hctrl)).trans hdir,
      (State.flag_of_word (f := MOTION_CMP_CTRL.PERIODIC k) (hword hctrl)).trans hper]

/-! ### Arming -/

/-- The compare is armed with its counts at 0. -/
def cmpArmed (k : Nat) (x : MotionCmp) (s : State) : State :=
  (((modCmp k (fun _ => x) s).setFld (MOTION_CMP_FIRES.COUNT k) 0).setFld (MOTION_CMP_MISSED.COUNT k) 0).setFlag
    (MOTION_CMP_CTRL.ARMED k) true

theorem cmpArm_armed {k : Nat} {x : MotionCmp} {s : State} (hm : motionMod s x.ch = 0)
    (hb : cmpBehind (modCmp k (fun _ => x) s) x = false) (f : Bool) : cmpArm k x f s = cmpArmed k x s := by
  simp only [cmpArm, hm, hb, ne_eq, not_true_eq_false, false_and, if_false, if_true]
  rfl

theorem cmpArmed_shown (k : Fin 8) (x : MotionCmp) (s : State) : (cmpArmed k x s).flag (MOTION_CMP_CTRL.ARMED k) = true ∧
    (cmpArmed k x s).fld (MOTION_CMP_FIRES.COUNT k) = 0 ∧ (cmpArmed k x s).fld (MOTION_CMP_MISSED.COUNT k) = 0 := by
  refine ⟨State.flag_setFlag_same_at k _ _ (by decide), ?_, ?_⟩
  · rw [cmpArmed, State.setFlag, State.fld_setFld_apart_at k _ _ (by decide), State.fld_setFld_apart_at k _ _ (by decide),
      State.fld_setFld_same_at k _ _ (by decide), Nat.zero_mod]
  · rw [cmpArmed, State.setFlag, State.fld_setFld_apart_at k _ _ (by decide), State.fld_setFld_same_at k _ _ (by decide),
      Nat.zero_mod]

theorem cmpBehind_of_still {s : State} {x : MotionCmp} (h : s.flag (MOTION_STATUS.STANDSTILL x.ch) = true) : cmpBehind s x = false := by
  simp only [cmpBehind, h, true_or, or_true, if_true]

theorem cmpBehind_of_passed {s : State} {x : MotionCmp} (hm : motionMod s x.ch = 0) (hs : s.flag (MOTION_STATUS.STANDSTILL x.ch) = false)
    (hr : s.flag (MOTION_STATUS.REVERSED x.ch) = false) (hb : (motionChan s x.ch).lastBack = some false) (hd : x.dir = 0)
    (ht : x.target ≤ motionPos s x.ch) : cmpBehind s x = true := by
  simp [cmpBehind, hm, hs, hr, hb, hd, ht]

theorem motionCmp_modCmp {k : Nat} {s : State} (hk : k < s.motion.cmps.length) (x : MotionCmp) :
    motionCmp (modCmp k (fun _ => x) s) k = x := by
  change ((modAt s.motion.cmps k (fun _ => x))[k]?).getD motionCmpInit = x
  simp [getElem?_modAt, hk]

/-- A target outside a rotary channel is refused. -/
def cmpRefused (k : Nat) (s : State) : State :=
  postKind 4 17 (0x10 + k) (MOTION_CMP_CTRL.ARM k).addr (s.setFlag (MOTION_CMP_CTRL.REFUSED k) true)

theorem cmpArm_refused {k : Nat} {x : MotionCmp} {s : State} (hm : motionMod s x.ch ≠ 0) (hx : (motionMod s x.ch : Int) ≤ x.target)
    (f : Bool) : cmpArm k x f s = cmpRefused k s := by
  have hout : motionMod s x.ch ≠ 0 ∧ ¬ (0 ≤ x.target ∧ x.target < motionMod s x.ch) := ⟨hm, by omega⟩
  simp only [cmpArm, hout, if_true, ne_eq, not_false_eq_true, and_self]
  rfl

/-- A target behind a moving channel leaves the compare as it was, with a warning. -/
def cmpLate (k : Nat) (x : MotionCmp) (s : State) : State :=
  postOther .warning 17 (0x10 + k) (MOTION_CMP_CTRL.BEHIND k).addr
    (((modCmp k (fun _ => x) s).setFlag (MOTION_CMP_CTRL.ARMED k) false).setFlag (MOTION_CMP_CTRL.BEHIND k) true)

theorem cmpArm_late {k : Nat} {x : MotionCmp} {s : State} (hm : motionMod s x.ch = 0)
    (hb : cmpBehind (modCmp k (fun _ => x) s) x = true) : cmpArm k x false s = cmpLate k x s := by
  simp only [cmpArm, hm, hb, ne_eq, not_true_eq_false, false_and, if_false, if_true, Bool.true_eq_false]
  rfl

theorem cmpRefused_shown (k : Fin 8) (s : State) : (cmpRefused k s).flag (MOTION_CMP_CTRL.REFUSED k) = true ∧
    (cmpRefused k s).motion = s.motion :=
  ⟨(State.flag_postEvent (f := MOTION_CMP_CTRL.REFUSED k) (by simp) _ (cmpAddr k).1).trans (State.flag_setFlag_same_at k _ _ (by decide)),
    (postEvent_motion (by simp) _).trans rfl⟩

theorem cmpLate_shown (k : Fin 8) (x : MotionCmp) (s : State) : (cmpLate k x s).flag (MOTION_CMP_CTRL.ARMED k) = false ∧
    (cmpLate k x s).flag (MOTION_CMP_CTRL.BEHIND k) = true := by
  refine ⟨(State.flag_postEvent (f := MOTION_CMP_CTRL.ARMED k) (by simp) _ (cmpAddr k).1).trans ?_,
    (State.flag_postEvent (f := MOTION_CMP_CTRL.BEHIND k) (by simp) _ (cmpAddr k).1).trans (State.flag_setFlag_same_at k _ _ (by decide))⟩
  exact (State.flag_setFld_apart_at k _ _ (by decide)).trans (State.flag_setFlag_same_at k _ _ (by decide))

/-- What `ARM` does, and `DISARM` where both bits are written. -/
theorem exec_arm {s : State} (hd : s.domainOn 28 = true) (k : Fin 8) (v : Word) {t : State} (ht : t = cmpCtrlWrite k v.toNat (busOk 0 s)) :
    exec (.arm k v) s = .next (if v.toNat.testBit 30 then
      (cmpArm k (cmpRegs t k) (t.flag (MOTION_CMP_CTRL.FIRE_IF_PASSED k)) t).setFlag (MOTION_CMP_CTRL.ARMED k) false
      else cmpArm k (cmpRegs t k) (t.flag (MOTION_CMP_CTRL.FIRE_IF_PASSED k)) t) := by
  have hon : (busOk 0 s).domainOn 28 = true := hd
  subst ht
  change execArm k v s = _
  simp only [execArm, hon, Bool.true_eq_false, if_false]

theorem flag_disarmed {P : State → Prop} (k : Nat) (b : Bool) (s : State) (h : P s) (h' : P (s.setFlag (MOTION_CMP_CTRL.ARMED k) false)) :
    P (if b then s.setFlag (MOTION_CMP_CTRL.ARMED k) false else s) := by
  cases b
  · exact h
  · exact h'

/-! ### Crossings -/

theorem cmpCross_oneShot {k : Nat} {s : State} (h : (motionCmp s k).periodic = false) (m time ahead : Nat) (d : Int) :
    cmpCross m k time ahead d s = (cmpFire k time s).setFlag (MOTION_CMP_CTRL.ARMED k) false := by
  simp only [cmpCross, h, true_or, if_true]

theorem cmpFire_time (k : Fin 8) (time : Nat) (s : State) :
    (cmpFire k time s).fld (MOTION_CMP_TIME_NS.VALUE k) = time % 1000000000 := by
  rw [cmpFire, State.fld_setFld_apart_at k _ _ (by decide), State.fld_setFld_same_at k _ _ (by decide)]
  exact Nat.mod_eq_of_lt (lt_trans (Nat.mod_lt time (by decide)) (show 1000000000 < 2 ^ 32 by decide))

/-- The target that lies `a` counts ahead on a channel of modulus `m` is the one that `a` counts lead to. -/
theorem ahead_iff {m : Nat} {p x : Int} {a : Nat} (hm : 0 < m) (hx : 0 ≤ x) (hx' : x < m) (ha : (a : Int) < m) :
    ((x - p) % m).toNat = a ↔ (p + a) % m = x := by
  have hpos : (0 : Int) < m := by omega
  constructor
  · intro h
    have hrem : (x - p) % (m : Int) = a := by have := Int.emod_nonneg (x - p) hpos.ne'; omega
    rw [← hrem, Int.add_emod_emod, show p + (x - p) = x by ring, Int.emod_eq_of_lt hx hx']
  · intro h
    rw [← h, Int.emod_sub_emod, show p + (a : Int) - p = a by ring, Int.emod_eq_of_lt (by omega) ha, Int.toNat_natCast]

/-- A crossing forwards on a rotary channel. -/
theorem crossing_forwards {m : Nat} {x : MotionCmp} (p : Int) {d : Nat} (a : Nat) (hd : 0 < d) (hm : 0 < m) (hdir : x.dir = 0) :
    crossing m x p d = some a ↔ 1 ≤ (x.target - p) % m ∧ (x.target - p) % m ≤ d ∧ ((x.target - p) % m).toNat = a := by
  have hd' : (0 : Int) < d := by omega
  simp only [crossing, hm.ne', if_false, hdir, Int.natAbs_natCast, hd', hd'.le, if_true, and_true, true_or, or_true, true_and,
    Option.ite_none_right_eq_some, Option.some.injEq, and_assoc]

/-- Settles O57, by what a write of the control register leaves for the arming and by the remainder of a crossing. -/
theorem comparesArmAndFire : Obligations.ComparesArmAndFire := by
  unfold Obligations.ComparesArmAndFire
  refine ⟨?armed, ?refused, ?behind, ?disarm, ?fire, ?cross⟩
  case armed =>
    intro s k v hd hv hdir hstill hm hk
    have hw := cmpCtrlWrite_written k v.toNat (busOk 0 s)
    rw [cmpCtrlWrite_eq, if_neg hdir] at hw
    obtain ⟨-, hregs, hset, -⟩ := hw
    obtain ⟨w, hweq⟩ : ∃ w, w = cmpTaken k v.toNat (busOk 0 s) := ⟨_, rfl⟩
    rw [← hweq] at hregs hset
    have honly : OnlyRegs s w [(MOTION_CMP_CTRL.ARMED k).addr, (MOTION_CMP_FIRES.COUNT k).addr,
        (MOTION_CMP_MISSED.COUNT k).addr] := hweq ▸ cmpTaken_only k v.toNat (onlyRegs_busOk 0 s _) (by simp)
    have hdir' : min 2 (bits v.toNat 5 4) = bits v.toNat 5 4 := by
      have : bits v.toNat 5 4 < 4 := Nat.mod_lt _ (by decide)
      omega
    have hch : (cmpRegs w k).ch = v.toNat % 4 := by rw [hset]
    have hmod : motionMod w (cmpRegs w k).ch = 0 := by
      rw [hch]
      simpa only [motionMod, motionRec, honly.motion_eq] using hm
    have hstill : (modCmp k (fun _ => cmpRegs w k) w).flag (MOTION_STATUS.STANDSTILL (cmpRegs w k).ch) = true := by
      rw [hch]
      exact (State.flag_of_word (f := MOTION_STATUS.STANDSTILL (v.toNat % 4))
        (hregs _ (cmpAddr_channel k ⟨v.toNat % 4, Nat.mod_lt _ (by decide)⟩ _ (by simp)))).trans hstill
    have hno : v.toNat.testBit 30 = false := hv
    rw [exec_arm hd k v (t := w) (hweq.trans (if_neg hdir).symm), cmpArm_armed hmod (cmpBehind_of_still hstill), hno]
    obtain ⟨harm, hfires, hmissed⟩ := cmpArmed_shown k (cmpRegs w k) w
    have hx : motionCmp (cmpArmed k (cmpRegs w k) w) k = cmpRegs w k := motionCmp_modCmp (by rw [honly.motion_eq]; exact hk) _
    refine ⟨_, _, rfl, harm, hfires, hmissed, hx, hch, ?_, ?_, ?_, ?_, ?_⟩
    · rw [hset, hdir']
    · rw [hset]
      rfl
    · rw [hset]
      exact if_pos hm
    · rw [hset]
      rfl
    · exact (((honly.setMotion _).setFld (f := MOTION_CMP_FIRES.COUNT k) (by simp) 0).setFld (f := MOTION_CMP_MISSED.COUNT k)
        (by simp) 0).setFld (f := MOTION_CMP_CTRL.ARMED k) (by simp) 1
  case refused =>
    intro s k v hd hm ht
    obtain ⟨⟨r, c, l, hstate⟩, hregs, hset, -⟩ := cmpCtrlWrite_written k v.toNat (busOk 0 s)
    obtain ⟨w, hweq⟩ : ∃ w, w = cmpCtrlWrite k v.toNat (busOk 0 s) := ⟨_, rfl⟩
    rw [← hweq] at hstate hregs hset
    have hmotion : w.motion = s.motion := by rw [hstate]; rfl
    have hmod : motionMod w (cmpRegs w k).ch = motionMod s (v.toNat % 4) := by
      rw [hset]
      simp only [motionMod, motionRec, hmotion]
    have htarget : (cmpRegs w k).target = s.fld (MOTION_CMP_TARGET.TARGET k) := by
      rw [hset]
      exact if_neg hm.ne'
    rw [exec_arm hd k v hweq, cmpArm_refused (by omega) (by rw [hmod, htarget]; exact_mod_cast ht)]
    obtain ⟨href, hmot⟩ := cmpRefused_shown k w
    refine ⟨_, rfl, flag_disarmed (P := fun t => t.flag (MOTION_CMP_CTRL.REFUSED k) = true) k _ _ href ?_, ?_⟩
    · exact (State.flag_setFld_apart_at k _ _ (by decide)).trans href
    · exact flag_disarmed (P := fun t => t.motion = s.motion) k _ _ (hmot.trans hmotion) (hmot.trans hmotion)
  case behind =>
    rintro s k v c rfl hd hv hdir hm hstill hrev hback ht
    obtain ⟨⟨r, cs, l, hstate⟩, hregs, hset, hpass⟩ := cmpCtrlWrite_written k v.toNat (busOk 0 s)
    obtain ⟨w, hweq⟩ : ∃ w, w = cmpCtrlWrite k v.toNat (busOk 0 s) := ⟨_, rfl⟩
    rw [← hweq] at hstate hregs hset hpass
    have hmotion : w.motion = s.motion := by rw [hstate]; rfl
    have hword : ∀ a ∈ [(MOTION_STATUS.STANDSTILL (v.toNat % 4)).addr, (MOTION_POS.POS (v.toNat % 4)).addr], w.word a = s.word a :=
      fun a ha => hregs a (cmpAddr_channel k ⟨v.toNat % 4, Nat.mod_lt _ (by decide)⟩ a ha)
    have hch : (cmpRegs w k).ch = v.toNat % 4 := by rw [hset]
    have hmod : motionMod w (v.toNat % 4) = 0 := by simpa only [motionMod, motionRec, hmotion] using hm
    have hpos : motionPos w (v.toNat % 4) = motionPos s (v.toNat % 4) := by
      simp only [motionPos, hmod, hm, State.fld_congr_word (f := MOTION_POS.POS (v.toNat % 4)) (hword _ (by simp))]
    have hlate : cmpBehind (modCmp k (fun _ => cmpRegs w k) w) (cmpRegs w k) = true := by
      have hst : w.flag (MOTION_STATUS.STANDSTILL (v.toNat % 4)) = false :=
        (State.flag_of_word (f := MOTION_STATUS.STANDSTILL (v.toNat % 4)) (hword _ (by simp))).trans hstill
      have hrv : w.flag (MOTION_STATUS.REVERSED (v.toNat % 4)) = false :=
        (State.flag_of_word (f := MOTION_STATUS.REVERSED (v.toNat % 4))
          (hword (MOTION_STATUS.STANDSTILL (v.toNat % 4)).addr (by simp))).trans hrev
      have hlast : (motionChan w (v.toNat % 4)).lastBack = some false := by simpa only [motionChan, hmotion] using hback
      refine cmpBehind_of_passed (by rw [hch]; exact hmod) (by rw [hch]; exact hst) (by rw [hch]; exact hrv)
        (by rw [hch]; exact hlast) (by rw [hset, hdir]; rfl) ?_
      rw [hch]
      refine le_of_eq_of_le ?_ (ht.trans_eq hpos.symm)
      rw [hset]
      exact if_pos hm
    have hnow : w.flag (MOTION_CMP_CTRL.FIRE_IF_PASSED k) = false := hpass.trans hv
    rw [exec_arm hd k v hweq, hnow, cmpArm_late (by rw [hch]; exact hmod) hlate]
    obtain ⟨harm, hbehind⟩ := cmpLate_shown k (cmpRegs w k) w
    refine ⟨_, rfl, flag_disarmed (P := fun t => t.flag (MOTION_CMP_CTRL.ARMED k) = false) k _ _ harm ?_,
      flag_disarmed (P := fun t => t.flag (MOTION_CMP_CTRL.BEHIND k) = true) k _ _ hbehind ?_⟩
    · exact State.flag_setFlag_same_at k _ _ (by decide)
    · exact (State.flag_setFld_apart_at k _ _ (by decide)).trans hbehind
  case disarm =>
    intro s k v hd
    obtain ⟨⟨r, cs, l, hstate⟩, hregs, -, -⟩ := cmpCtrlWrite_written k v.toNat (busOk 0 s)
    have hon : (busOk 0 s).domainOn 28 = true := hd
    refine ⟨(cmpCtrlWrite k v.toNat (busOk 0 s)).setFlag (MOTION_CMP_CTRL.ARMED k) false, ?_,
      State.flag_setFlag_same_at k _ _ (by decide), ?_, fun a ha => ?_, ?_⟩
    · change execDisarm k v s = _
      simp only [execDisarm, hon, Bool.true_eq_false, if_false]
    · rw [State.setFlag, State.setFld_motion, hstate]
      rfl
    · exact (State.word_setFld_ne _ (MOTION_CMP_CTRL.ARMED k) _ fun h => ha (by simp [h])).trans (hregs a ha)
    · exact sameMemory_of_stores (by rw [State.setFlag, hstate]; rfl)
  case fire =>
    intro s k time ahead d h
    rw [cmpCross_oneShot h]
    exact ⟨fun _ => rfl, State.flag_setFlag_same_at k _ _ (by decide),
      (State.fld_setFld_apart_at k _ _ (by decide)).trans (cmpFire_time k time s)⟩
  case cross =>
    intro m x p d a hd hm _ _ hx hx' hdir hlt
    rw [crossing_forwards p a hd hm hdir]
    constructor
    · rintro ⟨h1, hle, ha⟩
      exact ⟨by omega, by omega, (ahead_iff hm hx hx' (by omega)).1 ha⟩
    · rintro ⟨h1, hle, ha⟩
      have := (ahead_iff (p := p) (a := a) hm hx hx' (by omega)).2 ha
      exact ⟨by omega, by omega, this⟩

end Sys2Proof.Machine
end

section
/-! PROOFS. Motion counts, SSI frames and speed (R475 to R484, R486 to R488). -/

namespace Sys2Proof.Machine

/-! ### What a step of a channel leaves -/

theorem length_modAt {α : Type} (l : List α) (i : Nat) (f : α → α) : (modAt l i f).length = l.length := by
  induction l generalizing i with
  | nil => rfl
  | cons x l ih => cases i <;> simp [modAt, ih]

/-- What the inputs of a channel have left in it. -/
def MotionChan.senses (x : MotionChan) : Option Nat × Option Nat × Option (Nat × Nat × Bool) := (x.hall, x.tooth, x.frame)

theorem motionChan_modChan_field {α : Type} {f : MotionChan → MotionChan} (g : MotionChan → α) (hf : ∀ x, g (f x) = g x) (c : Nat)
    (s : State) : g (motionChan (modChan c f s) c) = g (motionChan s c) := by
  change g (((modAt s.motion.chans c f)[c]?).getD motionChanInit) = g ((s.motion.chans[c]?).getD motionChanInit)
  rw [getElem?_modAt, if_pos rfl]
  cases s.motion.chans[c]? with
  | none => rfl
  | some x => exact hf x

/-- The memories, the board table and what the inputs left in channel `c` stand as they did; no register but those of `as` has changed, and
no field of `fs`. -/
structure MotionKeeps (as : Nat → List Nat) (fs : Nat → List Fld) (c : Fin 4) (s t : State) : Prop where
  stores : t.stores = s.stores
  recs : t.motion.recs = s.motion.recs
  length : t.motion.chans.length = s.motion.chans.length
  senses : (motionChan t c).senses = (motionChan s c).senses
  regs : RegsBut s t (as c)
  shown : ∀ f ∈ fs c, t.fld f = s.fld f

namespace MotionKeeps

variable {as : Nat → List Nat} {fs : Nat → List Fld} {c : Fin 4} {s t u : State}

theorem refl (s : State) : MotionKeeps as fs c s s := ⟨rfl, rfl, rfl, rfl, fun _ _ => rfl, fun _ _ => rfl⟩

theorem trans (h : MotionKeeps as fs c s t) (h' : MotionKeeps as fs c t u) : MotionKeeps as fs c s u :=
  ⟨h'.stores.trans h.stores, h'.recs.trans h.recs, h'.length.trans h.length, h'.senses.trans h.senses,
    fun a ha => (h'.regs a ha).trans (h.regs a ha), fun f hf => (h'.shown f hf).trans (h.shown f hf)⟩

theorem setFld (h : MotionKeeps as fs c s t) {F : Nat → Fld} (n : Nat)
    (hF : ∀ c : Fin 4, (F c).fits = true ∧ (F c).addr ∈ as c ∧ ∀ f ∈ fs c, f.apart (F c) = true) :
    MotionKeeps as fs c s (t.setFld (F c) n) :=
  ⟨h.stores, h.recs, h.length, h.senses,
    fun a ha => (State.word_setFld_ne t (F c) n (a := a) fun he => ha (he ▸ (hF c).2.1)).trans (h.regs a ha),
    fun f hf => (State.fld_setFld_apart t f (F c) n (hF c).1 ((hF c).2.2 f hf)).trans (h.shown f hf)⟩

theorem setFlag (h : MotionKeeps as fs c s t) {F : Nat → Fld} (b : Bool)
    (hF : ∀ c : Fin 4, (F c).fits = true ∧ (F c).addr ∈ as c ∧ ∀ f ∈ fs c, f.apart (F c) = true) :
    MotionKeeps as fs c s (t.setFlag (F c) b) := h.setFld _ hF

theorem ite (p : Prop) [Decidable p] (h : MotionKeeps as fs c s t) (h' : MotionKeeps as fs c s u) :
    MotionKeeps as fs c s (if p then t else u) := by
  split
  · exact h
  · exact h'

theorem modChan (h : MotionKeeps as fs c s t) (f : MotionChan → MotionChan) (hf : ∀ x, (f x).senses = x.senses) :
    MotionKeeps as fs c s (modChan c f t) := by
  exact ⟨h.stores, h.recs, (length_modAt ..).trans h.length, (motionChan_modChan_field MotionChan.senses hf c t).trans h.senses, h.regs,
    h.shown⟩

theorem postEvent (h : MotionKeeps as fs c s t) {e : Event} (he : e.cls ≠ .fatal)
    (hF : ∀ c : Fin 4, CALL_OVERFLOW.COUNT.addr ∈ as c ∧ ∀ f ∈ fs c, f.addr ≠ CALL_OVERFLOW.COUNT.addr) :
    MotionKeeps as fs c s (postEvent e t) := by
  have hm := postEvent_motion he t
  refine ⟨(postEvent_stores he t).trans h.stores, hm ▸ h.recs, hm ▸ h.length, ?_, h.regs.postEvent he (hF c).1,
    fun f hf => (State.fld_postEvent he t ((hF c).2 f hf)).trans (h.shown f hf)⟩
  simp only [motionChan, hm]
  exact h.senses

theorem fld (h : MotionKeeps as fs c s t) {F : Nat → Fld} (hF : ∀ c : Fin 4, (F c).addr ∉ as c) : t.fld (F c) = s.fld (F c) :=
  State.fld_congr_word (h.regs _ (hF c))

theorem flag (h : MotionKeeps as fs c s t) {F : Nat → Fld} (hF : ∀ c : Fin 4, (F c).addr ∉ as c) : t.flag (F c) = s.flag (F c) :=
  State.flag_of_word (h.regs _ (hF c))

theorem flag_shown (h : MotionKeeps as fs c s t) {f : Fld} (hf : f ∈ fs c) : t.flag f = s.flag f := by
  rw [State.flag, State.flag, h.shown f hf]

theorem motionRec_eq (h : MotionKeeps as fs c s t) (k : Nat) : motionRec t k = motionRec s k := by simp only [motionRec, h.recs]

theorem motionMod_eq (h : MotionKeeps as fs c s t) (k : Nat) : motionMod t k = motionMod s k := by
  simp only [motionMod, h.motionRec_eq]

theorem motionPos_eq (h : MotionKeeps as fs c s t) (hF : ∀ c : Fin 4, (MOTION_POS.POS c).addr ∉ as c) :
    motionPos t c = motionPos s c := by simp only [motionPos, h.motionMod_eq, h.fld hF]

theorem armed (h : MotionKeeps as fs c s t) (ha : ∀ k : Fin 8, s.flag (MOTION_CMP_CTRL.ARMED k) = false)
    (hF : ∀ (c : Fin 4) (k : Fin 8), (MOTION_CMP_CTRL.ARMED k).addr ∉ as c) (k : Fin 8) :
    t.flag (MOTION_CMP_CTRL.ARMED k) = false := (State.flag_of_word (h.regs _ (hF c k))).trans (ha k)

theorem mono {as' : Nat → List Nat} {fs' : Nat → List Fld} (h : MotionKeeps as fs c s t) (ha : ∀ c : Fin 4, as c ⊆ as' c)
    (hf : ∀ c : Fin 4, fs' c ⊆ fs c) : MotionKeeps as' fs' c s t :=
  ⟨h.stores, h.recs, h.length, h.senses, h.regs.mono (ha c), fun f hf' => h.shown f (hf c hf')⟩

end MotionKeeps

/-- The registers of a channel that a step changes, beside its position. -/
def stepRegs (c : Nat) : List Nat := [(MOTION_STATUS.VALID c).addr, (MOTION_EVENT.EVENT c).addr, (MOTION_SPEED.SPEED c).addr]

/-- The flags of a channel that a step leaves once its direction is shown. -/
def stepKept (c : Nat) : List Fld :=
  [MOTION_STATUS.VALID c, MOTION_STATUS.DIR c, MOTION_STATUS.STALL c, MOTION_STATUS.LEVELS c]

theorem motionStep_keeps (c : Fin 4) (back : Bool) (n sample : Nat) (s : State) :
    MotionKeeps stepRegs stepKept c (s.setFlag (MOTION_STATUS.DIR c) back) (motionStep c back n sample s) := by
  unfold motionStep
  extract_lets x turned s1 ev sp s2 len s3 s4 v s5
  have h1 : MotionKeeps stepRegs stepKept c (s.setFlag (MOTION_STATUS.DIR c) back) s1 := (MotionKeeps.refl _).modChan _ fun _ => rfl
  have h2 : MotionKeeps stepRegs stepKept c (s.setFlag (MOTION_STATUS.DIR c) back) s2 := by
    refine .ite _ (.setFld (F := MOTION_SPEED.SPEED) (.ite _ (.setFlag ?_ _ (by decide)) ?_) _ (by decide)) h1
    · exact (h1.setFlag (F := MOTION_STATUS.REVERSED) true (by decide)).setFld (F := MOTION_EVENT.EVENT) _ (by decide)
    · exact (h1.setFlag (F := MOTION_STATUS.REVERSED) true (by decide)).setFld (F := MOTION_EVENT.EVENT) _ (by decide)
  have h3 : MotionKeeps stepRegs stepKept c (s.setFlag (MOTION_STATUS.DIR c) back) s3 :=
    .ite _ (h2.setFlag (F := MOTION_STATUS.STANDSTILL) _ (by decide)) h2
  have h4 : MotionKeeps stepRegs stepKept c (s.setFlag (MOTION_STATUS.DIR c) back) s4 :=
    .ite _ (h3.setFlag (F := MOTION_STATUS.REVERSED) _ (by decide)) h3
  have h5 : MotionKeeps stepRegs stepKept c (s.setFlag (MOTION_STATUS.DIR c) back) s5 :=
    h4.setFld (F := MOTION_SPEED.SPEED) _ (by decide)
  exact .ite _ h4 (.ite _ ((h5.setFlag (F := MOTION_STATUS.COUNT_MODE) _ (by decide)).modChan _ fun _ => rfl) h5)

/-! ### What a position update leaves -/

/-- The registers of a channel that a position update changes, beside its position. -/
def moveRegs (c : Nat) : List Nat := [(MOTION_EVENT.EVENT c).addr, CALL_OVERFLOW.COUNT.addr]

theorem cmpUpdate_of_disarmed {s : State} (h : ∀ k : Fin 8, s.flag (MOTION_CMP_CTRL.ARMED k) = false) (c : Nat) (p d : Int) (time : Nat) :
    cmpUpdate c p d time s = s := by
  have hnone : (List.range 8).filterMap (fun k => if s.flag (MOTION_CMP_CTRL.ARMED k) ∧ (motionCmp s k).ch = c then
      (crossing (motionMod s c) (motionCmp s k) p d).map (fun a => (k, a)) else none) = [] := by
    refine List.filterMap_eq_nil_iff.2 fun k hk => if_neg fun hon => ?_
    exact absurd hon.1 (by simp [h ⟨k, List.mem_range.1 hk⟩])
  unfold cmpUpdate
  split
  · rfl
  · simp only [hnone]
    rfl

/-- No event, or the one of a position that leaves its range. -/
theorem motionEvent_keeps {as : Nat → List Nat} {fs : Nat → List Fld} {c : Fin 4} {s t : State} (h : MotionKeeps as fs c s t) (n : Nat)
    {cls : EventClass} (hc : cls ≠ .fatal)
    (hF : ∀ c : Fin 4, ((MOTION_EVENT.EVENT c).addr ∈ as c ∧ ∀ f ∈ fs c, f.apart (MOTION_EVENT.EVENT c) = true) ∧
      CALL_OVERFLOW.COUNT.addr ∈ as c ∧ ∀ f ∈ fs c, f.addr ≠ CALL_OVERFLOW.COUNT.addr) :
    MotionKeeps as fs c s (motionEvent n cls c t) :=
  (h.setFld (F := MOTION_EVENT.EVENT) _ fun c => ⟨rfl, (hF c).1⟩).postEvent hc fun c => (hF c).2

theorem armed_apart : ∀ (c : Fin 4) (k : Fin 8), (MOTION_CMP_CTRL.ARMED k).apart (MOTION_POS.POS c) = true := by decide

theorem motionMove_keeps {s : State} (h : ∀ k : Fin 8, s.flag (MOTION_CMP_CTRL.ARMED k) = false) (c : Fin 4) (d : Int) (time : Nat) :
    MotionKeeps moveRegs (fun _ => []) c (s.setFld (MOTION_POS.POS c) (ofSigned 32 (motionAdd (motionMod s c) (motionPos s c) d)))
      (motionMove c d time s) := by
  unfold motionMove
  extract_lets p m s1 s2 s3
  have h2 : MotionKeeps moveRegs (fun _ => []) c s1 s2 := .ite _ (motionEvent_keeps (.refl _) 7 (by decide) (by decide)) (.refl _)
  have h3 : MotionKeeps moveRegs (fun _ => []) c s1 s3 := h2.modChan _ fun _ => rfl
  have harmed : ∀ k : Fin 8, s1.flag (MOTION_CMP_CTRL.ARMED k) = false := fun k =>
    (State.flag_setFld_apart s _ (MOTION_POS.POS c) _ rfl (armed_apart c k)).trans (h k)
  rw [cmpUpdate_of_disarmed (h3.armed harmed (by decide))]
  exact h3

theorem ofSigned_lt (i : Int) : ofSigned 32 i < 2 ^ 32 := by
  have := Int.emod_lt_of_pos i (show (0 : Int) < (2 ^ 32 : Nat) by decide)
  unfold ofSigned
  omega

/-- The position of a channel moves by `d`. -/
theorem motionMove_pos {s : State} (h : ∀ k : Fin 8, s.flag (MOTION_CMP_CTRL.ARMED k) = false) (c : Fin 4) (d : Int) (time : Nat) :
    (motionMove c d time s).fld (MOTION_POS.POS c) = ofSigned 32 (motionAdd (motionMod s c) (motionPos s c) d) :=
  ((motionMove_keeps h c d time).fld (F := MOTION_POS.POS) (by decide)).trans (State.fld_setFld_lt s (MOTION_POS.POS c) _ rfl (ofSigned_lt _))

/-! ### A count -/

/-- The registers of a channel that a count changes. -/
def countRegs (c : Nat) : List Nat := (MOTION_POS.POS c).addr :: CALL_OVERFLOW.COUNT.addr :: stepRegs c

/-- The flags of a channel that a count leaves. -/
def countKept (c : Nat) : List Fld := [MOTION_STATUS.VALID c, MOTION_STATUS.STALL c, MOTION_STATUS.LEVELS c]

theorem motionMove_countKeeps {s : State} (h : ∀ k : Fin 8, s.flag (MOTION_CMP_CTRL.ARMED k) = false) (c : Fin 4) (d : Int) (time : Nat) :
    MotionKeeps countRegs stepKept c s (motionMove c d time s) := by
  have hset : MotionKeeps countRegs stepKept c s
      (s.setFld (MOTION_POS.POS c) (ofSigned 32 (motionAdd (motionMod s c) (motionPos s c) d))) :=
    (MotionKeeps.refl s).setFld (F := MOTION_POS.POS) _ (by decide)
  have hmove := motionMove_keeps h c d time
  have hsub : ∀ c : Fin 4, moveRegs c ⊆ countRegs c := by decide
  refine hset.trans ⟨hmove.stores, hmove.recs, hmove.length, hmove.senses, hmove.regs.mono (hsub c), fun f hf => ?_⟩
  have hf : f.addr ∉ moveRegs c := by
    have : ∀ c : Fin 4, ∀ f ∈ stepKept c, f.addr ∉ moveRegs c := by decide
    exact this c f hf
  exact State.fld_congr_word (hmove.regs _ hf)

/-- A step once the position has moved. -/
theorem motionStep_countKeeps (c : Fin 4) (back : Bool) (n sample : Nat) (s : State) :
    MotionKeeps countRegs countKept c s (motionStep c back n sample s) ∧
      (motionStep c back n sample s).flag (MOTION_STATUS.DIR c) = back := by
  have hstep := motionStep_keeps c back n sample s
  have hset : MotionKeeps countRegs countKept c s (s.setFlag (MOTION_STATUS.DIR c) back) :=
    (MotionKeeps.refl s).setFlag (F := MOTION_STATUS.DIR) _ (by decide)
  exact ⟨hset.trans (hstep.mono (by decide) (by decide)),
    (hstep.flag_shown (by simp [stepKept])).trans (State.flag_setFlag_same s (MOTION_STATUS.DIR c) back rfl rfl)⟩

/-- What a count of `d`, in direction `back`, does. -/
structure Counted (c : Fin 4) (d : Int) (back : Bool) (s t : State) : Prop where
  keeps : MotionKeeps countRegs countKept c s t
  pos : t.fld (MOTION_POS.POS c) = ofSigned 32 (motionAdd (motionMod s c) (motionPos s c) d)
  dir : t.flag (MOTION_STATUS.DIR c) = back

theorem motionCount_counted {s : State} (h : ∀ k : Fin 8, s.flag (MOTION_CMP_CTRL.ARMED k) = false) {c : Fin 4} {d e : Int}
    (hr : (motionRec s c).invert = false) (he : e = if (motionRec s c).kind = 2 then d else motionDelta (motionMod s c) d) (he0 : e ≠ 0)
    (sample time : Nat) : Counted c d (decide (e < 0)) s (motionCount c d sample time s) := by
  unfold motionCount
  simp only [hr, Bool.false_eq_true, if_false, ← he, he0]
  have hmove := motionMove_countKeeps h c d time
  obtain ⟨hstep, hdir⟩ := motionStep_countKeeps c (decide (e < 0)) d.natAbs sample (motionMove c d time s)
  have hkeep : MotionKeeps countRegs countKept c s (motionStep c (decide (e < 0)) d.natAbs sample (motionMove c d time s)) :=
    (hmove.mono (fun _ _ h => h) (by decide)).trans hstep
  refine ⟨hkeep.modChan _ fun _ => rfl, ?_, hdir⟩
  refine Eq.trans ?_ (motionMove_pos h c d time)
  exact (motionStep_keeps c _ _ sample _).fld (F := MOTION_POS.POS) (by decide) |>.trans
    (State.fld_setFld_apart_at (F := MOTION_POS.POS) (G := MOTION_STATUS.DIR) c _ _ (by decide))

/-- A count of one on a linear channel. -/
theorem motionDelta_one : motionDelta 0 1 = 1 ∧ motionDelta 0 (-1) = -1 := by decide

/-! ### Edges -/

/-- The inputs of a channel that have changed and that its kind uses. -/
def edgeChanged (s : State) (c new : Nat) : Nat :=
  if (motionRec s c).kind = 2 then (s.fld (MOTION_STATUS.LEVELS c) ^^^ new) &&& 4 else s.fld (MOTION_STATUS.LEVELS c) ^^^ new

/-- An edge comes too soon after the last one, or with another. -/
def edgeOverrun (s : State) (c changed sample : Nat) : Bool :=
  (motionChan s c).lastEdge.any (fun l => decide (sample < l + 8)) || ([1, 2, 4].contains changed == false)

/-- What an overrun shows. -/
def overrunShown (c : Nat) (s : State) : State :=
  motionEvent 0 .warning c ((s.setFlag (MOTION_STATUS.VALID c) false).addFld (MOTION_ERRCNT.OVERRUN c) 1)

/-- The channel notes an edge. -/
def edgeNoted (c changed sample : Nat) (s : State) : State :=
  modChan c (fun x => { x with
    lastEdge := some sample, edges := stallCounts x.edges changed, levelAt := levelTicks x.levelAt changed s.ticks }) s

/-- The inputs at their new levels and the edge noted, before it counts. -/
def edgeSeen (kind c changed new sample : Nat) (late : Bool) (s : State) : State :=
  let t := edgeNoted c changed sample (if late then overrunShown c (s.setFld (MOTION_STATUS.LEVELS c) new)
    else s.setFld (MOTION_STATUS.LEVELS c) new)
  if kind ≠ 2 ∧ (motionChan t c).edges.all (fun n => decide (n < 8)) then t.setFlag (MOTION_STATUS.STALL c) false else t

theorem exec_motionEdge {s : State} {c : Fin 4} {levels : BitVec 3} {edge kind changed : Nat} (hon : motionOn s c = true)
    (hk : (motionRec s c).kind = kind) (hk4 : kind ≠ 4) (hch : edgeChanged s c levels.toNat = changed) (hch0 : changed ≠ 0)
    (hf : edge + motionFilterNs s c ≤ s.nowNs) (sample : Nat) {t : State}
    (ht : t = edgeSeen kind c changed levels.toNat sample (edgeOverrun s c changed sample) s) :
    exec (.motionEdge c levels sample edge) s =
      if kind = 1 then .next (quadEdge c (s.fld (MOTION_STATUS.LEVELS c)) levels.toNat sample edge t)
      else if kind = 3 then .next (hallEdge c levels.toNat sample edge t)
      else if levels.toNat.testBit 2 then .next (toothEdge c sample edge t) else .next t := by
  have hd : s.domainOn 28 = true := by
    simp only [motionOn, Bool.and_eq_true] at hon
    exact hon.1.1
  have hrun : ¬ (s.domainOn 28 = false ∨ s.nowNs < edge + motionFilterNs s c) := by simp [hd, hf]
  have hcount : ¬ (motionOn s c = false ∨ (motionRec s c).kind = 4 ∨ edgeChanged s c levels.toNat = 0) := by
    rw [hon, hk, hch]
    simp [hk4, hch0]
  subst hk hch ht
  change execMotionEdge c levels sample edge s = _
  unfold execMotionEdge
  extract_lets k r old new changed x s1 late s2 s3 s4
  rw [if_neg hrun]
  refine (if_neg hcount).trans ?_
  rfl

/-- The registers of a channel that an edge changes before it counts. -/
def edgeRegs (c : Nat) : List Nat :=
  [(MOTION_STATUS.VALID c).addr, (MOTION_EVENT.EVENT c).addr, (MOTION_ERRCNT.COUNT c).addr, CALL_OVERFLOW.COUNT.addr]

theorem edgeNoted_keeps {as : Nat → List Nat} {fs : Nat → List Fld} {c : Fin 4} {s t : State} (h : MotionKeeps as fs c s t)
    (changed sample : Nat) : MotionKeeps as fs c s (edgeNoted c changed sample t) := h.modChan _ fun _ => rfl

theorem edgeSeen_keeps (kind : Nat) (c : Fin 4) (changed new sample : Nat) (late : Bool) (s : State) :
    MotionKeeps edgeRegs (fun c => [MOTION_STATUS.LEVELS c]) c (s.setFld (MOTION_STATUS.LEVELS c) new)
      (edgeSeen kind c changed new sample late s) := by
  unfold edgeSeen
  extract_lets t
  have ht : MotionKeeps edgeRegs (fun c => [MOTION_STATUS.LEVELS c]) c (s.setFld (MOTION_STATUS.LEVELS c) new) t := by
    refine edgeNoted_keeps (.ite _ ?_ (.refl _)) changed sample
    exact motionEvent_keeps (((MotionKeeps.refl _).setFlag (F := MOTION_STATUS.VALID) false (by decide)).setFld
      (F := MOTION_ERRCNT.OVERRUN) _ (by decide)) 0 (by decide) (by decide)
  exact .ite _ (ht.setFlag (F := MOTION_STATUS.STALL) false (by decide)) ht

/-- An edge that is no overrun leaves the position valid or not as it was. -/
theorem edgeSeen_valid (kind : Nat) (c : Fin 4) (changed new sample : Nat) (s : State) :
    (edgeSeen kind c changed new sample false s).flag (MOTION_STATUS.VALID c) = s.flag (MOTION_STATUS.VALID c) := by
  have hset : (s.setFld (MOTION_STATUS.LEVELS c) new).flag (MOTION_STATUS.VALID c) = s.flag (MOTION_STATUS.VALID c) :=
    State.flag_setFld_apart_at c _ _ (by decide)
  unfold edgeSeen
  extract_lets t
  split
  · exact (State.flag_setFld_apart_at (F := MOTION_STATUS.VALID) (G := MOTION_STATUS.STALL) c t _ (by decide)).trans hset
  · exact hset

/-- The registers of a channel that an edge changes before it counts, with those of a stall that it ends. -/
def takenRegs (c : Nat) : List Nat := (MOTION_STATUS.VALID c).addr :: edgeRegs c

/-- What an edge leaves of the channel before it counts. -/
structure EdgeTaken (c : Fin 4) (new : Nat) (s t : State) : Prop where
  keeps : MotionKeeps takenRegs (fun _ => []) c s t
  levels : t.fld (MOTION_STATUS.LEVELS c) = new

theorem edgeSeen_taken (kind : Nat) (c : Fin 4) (changed sample : Nat) {new : Nat} (hn : new < 8) (late : Bool) (s : State) :
    EdgeTaken c new s (edgeSeen kind c changed new sample late s) := by
  have hseen := edgeSeen_keeps kind c changed new sample late s
  have hset : MotionKeeps takenRegs (fun _ => []) c s (s.setFld (MOTION_STATUS.LEVELS c) new) := (MotionKeeps.refl s).setFld (F := MOTION_STATUS.LEVELS) _ (by decide)
  have hkeep := hset.trans (hseen.mono (fun c => List.subset_cons_self ..) (by decide))
  exact ⟨hkeep, (hseen.shown _ (by simp)).trans (State.fld_setFld_lt s (MOTION_STATUS.LEVELS c) _ rfl hn)⟩

theorem motionChan_modChan {c : Nat} {s : State} (hc : c < s.motion.chans.length) (f : MotionChan → MotionChan) :
    motionChan (modChan c f s) c = f (motionChan s c) := by
  change ((modAt s.motion.chans c f)[c]?).getD motionChanInit = f ((s.motion.chans[c]?).getD motionChanInit)
  simp [getElem?_modAt, hc]

/-! ### The kinds of sensor -/

/-- The direction of a step of the Gray sequence. -/
def graySign (old new : Nat) : Int := if (grayPlace (new / 2) + 4 - grayPlace (old / 2)) % 4 = 1 then 1 else -1

/-- One input of the Gray sequence changes: one step. -/
theorem gray_step : ∀ old < 8, ∀ new < 8, (old ^^^ new) ∈ [2, 4] → new.testBit 0 = old.testBit 0 ∧
    ((grayPlace (new / 2) + 4 - grayPlace (old / 2)) % 4 = 1 ∨ (grayPlace (new / 2) + 4 - grayPlace (old / 2)) % 4 = 3) := by
  decide

theorem quadEdge_count {old new : Nat} (ho : old < 8) (hn : new < 8) (hx : (old ^^^ new) ∈ [2, 4]) (c sample time : Nat) (s : State) :
    quadEdge c old new sample time s = motionCount c (graySign old new) sample time s := by
  obtain ⟨hz, hd⟩ := gray_step old ho new hn hx
  unfold quadEdge graySign
  rcases hd with hd | hd <;> simp [hd, hz]

theorem hallPlace_lt {u a : Nat} (h : hallPlace u = some a) : a < 6 := (List.findIdx?_eq_some_iff_getElem.1 h).1

theorem hallEdge_count {c new a b : Nat} {s : State} (ha : ((motionChan s c).hall).bind hallPlace = some a)
    (hb : hallPlace new = some b) (hab : b = (a + 1) % 6) (sample time : Nat) :
    hallEdge c new sample time s = motionCount c 1 sample time (modChan c (fun x => { x with hall := some new }) s) := by
  have hlast : a < 6 := by
    obtain ⟨u, -, hu⟩ := Option.bind_eq_some_iff.1 ha
    exact hallPlace_lt hu
  have hd : (b + 6 - a) % 6 = 1 := by omega
  simp only [hallEdge, hb, ha, hd, one_ne_zero, if_false, if_true]

/-- A tooth without an earlier one counts one pitch. -/
theorem toothEdge_count {c : Nat} {s : State} (h : (motionChan s c).tooth = none) (sample time : Nat) :
    ∃ f g, (∀ x : MotionChan, (f x).tooth = some sample) ∧ (∀ x : MotionChan, (g x).tooth = x.tooth) ∧ toothEdge c sample time s =
      modChan c g (modChan c f (motionCount c 1 sample time (s.setFlag (MOTION_STATUS.STALL c) false))) := by
  have hk : toothKind (motionRec s c) (motionChan s c) sample = (1, false) := by simp only [toothKind, h]
  simp only [toothEdge, hk, if_true, Nat.cast_one]
  refine ⟨_, _, ?_, ?_, rfl⟩ <;> exact fun _ => rfl

/-! ### SSI frames -/

theorem exec_ssiFrameStart {s : State} {c : Fin 4} (hon : motionOn s c = true) (hk : (motionRec s c).kind = 4)
    (hat : ∀ τ ∈ (motionChan s c).ssiAt, s.elapsedNs τ (motionRec s c).ssiPeriodNs = true) (sample : Nat) (idle : Bool) :
    exec (.ssiFrameStart c sample idle) s =
      .next (modChan c (fun x => { x with frame := some (s.nowNs, sample, idle), ssiAt := some s.ticks }) s) := by
  have hnot : ¬ (motionOn s c = false ∨ (motionRec s c).kind ≠ 4 ∨
      (motionChan s c).ssiAt.any (fun t => !s.elapsedNs t (motionRec s c).ssiPeriodNs) = true) := by
    rw [hon, hk]
    cases hssi : (motionChan s c).ssiAt with
    | none => simp
    | some τ => simp [hat τ hssi]
  exact if_neg hnot

/-- The frame in progress is over. -/
def frameEnded (c : Nat) (s : State) : State := modChan c (fun x => { x with frame := none }) s

theorem ssiEarly {s : State} {c n : Nat} (hat : ∀ τ ∈ (motionChan s c).ssiAt, s.elapsedNs τ n = true) :
    (motionChan s c).ssiAt.any (fun t => !s.elapsedNs t n) = false := by
  cases hssi : (motionChan s c).ssiAt with
  | none => rfl
  | some τ => simp [hat τ hssi]

theorem motionOn_frameEnded (c : Nat) (s : State) : motionOn (frameEnded c s) c = motionOn s c := by
  have := motionChan_modChan_field (f := fun x => { x with frame := none }) MotionChan.on (fun _ => rfl) c s
  simp only [motionOn, frameEnded, this]
  rfl

theorem exec_ssiFrame_bad {s : State} {c : Fin 4} (hon : motionOn s c = true) {time sample : Nat} {idle endLow : Bool}
    (hf : (motionChan s c).frame = some (time, sample, idle)) (hbad : idle = false ∨ endLow = false)
    (hat : ∀ τ ∈ (motionChan s c).ssiAt, s.elapsedNs τ (motionRec s c).ssiFrameNs = true) (v : Word) :
    exec (.ssiFrameComplete c v endLow) s =
      .next (((frameEnded c s).addFld (MOTION_ERRCNT.FRAME c) 1).orBit (MOTION_EVENT.EVENT c) 5) := by
  have hon' : ¬ (motionOn (frameEnded c s) c = false ∨ False) := by simp [motionOn_frameEnded, hon]
  change execSsiFrameComplete c v endLow s = _
  simp only [execSsiFrameComplete, hf, ssiEarly hat, Bool.false_eq_true, if_false, hbad, if_true]
  exact if_neg hon'

/-- The value of a passing frame. -/
def ssiDelta (m : Nat) (p : Int) (w : Nat) : Int := motionDelta m ((if m = 0 then toSigned 32 w else (w : Int)) - p)

/-- A passing frame before it moves the position. -/
def framePassed (c : Nat) (s : State) : State :=
  (modChan c (fun x => { x with beatAt := s.ticks }) ((frameEnded c s).setFlag (MOTION_STATUS.STALL c) false)).setFlag
    (MOTION_STATUS.VALID c) true

theorem motionDelta_mod (m : Nat) (d : Int) : ∃ k : Int, motionDelta m d = d + k * (if m = 0 then 2 ^ 32 else m : Int) := by
  unfold motionDelta
  extract_lets m' x
  have hx : x = d + -(d / m') * m' := by have := Int.emod_def d m'; rw [mul_comm] at this; linarith
  split
  · exact ⟨_, hx⟩
  · exact ⟨-(d / m') - 1, by rw [hx]; ring⟩

theorem ofSigned_of_congr {i : Int} {w : Nat} (k : Int) (h : i = w + k * 2 ^ 32) (hw : w < 2 ^ 32) : ofSigned 32 i = w := by
  unfold ofSigned
  omega

theorem toSigned_congr (w : Nat) : ∃ k : Int, toSigned 32 w = w + k * 2 ^ 32 := by
  unfold toSigned
  extract_lets m
  have : (m : Int) = w + -((w / 2 ^ 32 : Nat) : Int) * 2 ^ 32 := by omega
  split
  · exact ⟨_, this⟩
  · exact ⟨-((w / 2 ^ 32 : Nat) : Int) - 1, by push_cast at this ⊢; omega⟩

/-- A passing frame moves the position to its value. -/
theorem ssi_pos {m w : Nat} (p : Int) (hw : w < 2 ^ 32) (hm : m ≠ 0 → w < m) :
    ofSigned 32 (motionAdd m p (ssiDelta m p w)) = w := by
  unfold ssiDelta motionAdd
  by_cases h0 : m = 0
  · obtain ⟨k, hk⟩ := motionDelta_mod 0 (toSigned 32 w - p)
    obtain ⟨j, hj⟩ := toSigned_congr w
    have hin : ofSigned 32 (p + motionDelta 0 (toSigned 32 w - p)) = w :=
      ofSigned_of_congr (j + k) (by rw [hk, hj, if_pos rfl]; ring) hw
    simp only [h0, if_true]
    rw [hin, hj]
    exact ofSigned_of_congr j rfl hw
  · obtain ⟨k, hk⟩ := motionDelta_mod m ((w : Int) - p)
    have hin : (p + motionDelta m ((w : Int) - p)) % m = w := by
      rw [hk, if_neg h0, show p + ((w : Int) - p + k * (m : Int)) = w + k * m by ring, Int.add_mul_emod_self_right]
      exact Int.emod_eq_of_lt (by omega) (by exact_mod_cast hm h0)
    simp only [h0, if_false, hin]
    exact ofSigned_of_congr 0 (by ring) hw

theorem exec_ssiFrame_good {s : State} {c : Fin 4} (hon : motionOn s c = true) {time sample : Nat}
    (hf : (motionChan s c).frame = some (time, sample, true)) (hg : (motionRec s c).gray = false)
    (hat : ∀ τ ∈ (motionChan s c).ssiAt, s.elapsedNs τ (motionRec s c).ssiFrameNs = true) (v : Word) {d : Int}
    (hd : d = ssiDelta (motionMod s c) (motionPos s c) (v.toNat % 2 ^ (motionRec s c).ssiBits)) :
    exec (.ssiFrameComplete c v true) s = .next (if d = 0 then motionMove c d time (framePassed c s)
      else motionStep c (decide (d < 0)) d.natAbs sample (motionMove c d time (framePassed c s))) := by
  have hon' : ¬ (motionOn (frameEnded c s) c = false ∨ False) := by simp [motionOn_frameEnded, hon]
  subst hd
  change execSsiFrameComplete c v true s = _
  simp only [execSsiFrameComplete, hf, ssiEarly hat, hg, Bool.false_eq_true, Bool.true_eq_false, if_false, or_self]
  exact if_neg hon'

/-! ### Speed -/

theorem exec_motionGateEnd {s : State} {c : Fin 4} (hon : motionOn s c = true) (hm : s.flag (MOTION_STATUS.COUNT_MODE c) = true)
    (hst : s.flag (MOTION_STATUS.STANDSTILL c) = false) (hrev : s.flag (MOTION_STATUS.REVERSED c) = false) {gate : Nat}
    (hg : gate = motionGate s c) (hat : s.elapsedNs (motionChan s c).gateAt (gate * 1000) = true) {t : State}
    (ht : t = setSpeed c (halfUp ((motionChan s c).gateSum * 16000000) gate)
      (modChan c (fun x => { x with gateSum := 0, gateAt := s.ticks }) s)) :
    exec (.motionGateEnd c) s = .next (if motionAuto t c ∧ (halfUp ((motionChan s c).gateSum * 16000000) gate).natAbs < 16 * motionLo t c
      then t.setFlag (MOTION_STATUS.COUNT_MODE c) false else t) := by
  subst hg ht
  have hnot : ¬ (motionOn s c = false ∨ s.flag (MOTION_STATUS.COUNT_MODE c) = false ∨
      s.elapsedNs (motionChan s c).gateAt (motionGate s c * 1000) = false) := by simp [hon, hm, hat]
  refine (if_neg hnot).trans ?_
  simp only [hst, hrev, Bool.or_self, Bool.false_eq_true, if_false]

/-- What a stalled channel shows. -/
def stallShown (c : Nat) (s : State) : State :=
  motionEvent 1 .warning c ((s.setFlag (MOTION_STATUS.VALID c) false).setFlag (MOTION_STATUS.STALL c) true)

theorem exec_motionStall {s : State} {c : Fin 4} (hon : motionOn s c = true) (hk : (motionRec s c).kind = 1 ∨ (motionRec s c).kind = 3)
    (hms : s.fld (MOTION_CFG.STALL_MS c) ≠ 0) (he : ∃ e ∈ (motionChan s c).edges.zip (motionChan s c).levelAt, 8 ≤ e.1 ∧
      s.elapsedNs e.2 (s.fld (MOTION_CFG.STALL_MS c) * 1000000) = true) (hst : s.flag (MOTION_STATUS.STALL c) = false) :
    exec (.motionStall c) s = .next (stallShown c s) := by
  have hk2 : (motionRec s c).kind ≠ 2 := by omega
  have hk4 : (motionRec s c).kind ≠ 4 := by omega
  have hstalls : motionStalls s c = true := by
    simp only [motionStalls, hk2, hk4, if_false, List.any_eq_true, Bool.and_eq_true, decide_eq_true_eq]
    exact he
  have hnot : ¬ (motionOn s c = false ∨ s.fld (MOTION_CFG.STALL_MS c) = 0 ∨ motionStalls s c = false ∨
      s.flag (MOTION_STATUS.STALL c) = true) := by simp [hon, hms, hstalls, hst]
  refine (if_neg hnot).trans ?_
  simp only [hk2, if_false]
  rfl

/-- The registers in which a stall shows. -/
def stallRegs (c : Nat) : List Nat := [(MOTION_STATUS.STALL c).addr, (MOTION_EVENT.EVENT c).addr] ++ eventRegs

theorem stallShown_keeps (c : Fin 4) (s : State) : MotionKeeps stallRegs (fun _ => []) c s (stallShown c s) :=
  motionEvent_keeps (((MotionKeeps.refl s).setFlag (F := MOTION_STATUS.VALID) false (by decide)).setFlag (F := MOTION_STATUS.STALL) true
    (by decide)) 1 (by decide) (by decide)

theorem stallShown_shown (c : Fin 4) (s : State) : (stallShown c s).flag (MOTION_STATUS.STALL c) = true ∧
    (stallShown c s).flag (MOTION_STATUS.VALID c) = false ∧ ((stallShown c s).fld (MOTION_EVENT.EVENT c)).testBit 1 = true := by
  have hst : (MOTION_STATUS.VALID c).addr ≠ CALL_OVERFLOW.COUNT.addr ∧ (MOTION_EVENT.EVENT c).addr ≠ CALL_OVERFLOW.COUNT.addr := by
    revert c
    decide
  refine ⟨(State.flag_postEvent (f := MOTION_STATUS.STALL c) (by simp) _ hst.1).trans ?_,
    (State.flag_postEvent (f := MOTION_STATUS.VALID c) (by simp) _ hst.1).trans ?_, ?_⟩
  · exact (State.flag_setFld_apart_at c _ _ (by decide)).trans (State.flag_setFlag_same_at c _ _ (by decide))
  · exact ((State.flag_setFld_apart_at c _ _ (by decide)).trans (State.flag_setFld_apart_at c _ _ (by decide))).trans
      (State.flag_setFlag_same_at c _ _ (by decide))
  · rw [stallShown, motionEvent, postFlag, State.fld_postEvent (by simp) _ hst.2]
    exact State.testBit_orBit_same _ (MOTION_EVENT.EVENT c) 1 rfl (show 1 < 9 by decide)

theorem MotionKeeps.memory {as : Nat → List Nat} {fs : Nat → List Fld} {c : Fin 4} {s t : State} (h : MotionKeeps as fs c s t) :
    SameMemory s t := sameMemory_of_stores h.stores

theorem ofSigned_motionAdd (p d : Int) : ofSigned 32 (motionAdd 0 p d) = ofSigned 32 (p + d) := by
  obtain ⟨k, hk⟩ := toSigned_congr (ofSigned 32 (p + d))
  exact ofSigned_of_congr k hk (ofSigned_lt _)

/-- A count of `d` moves the position of a linear channel by `d`. -/
theorem Counted.pos_linear {c : Fin 4} {d : Int} {back : Bool} {s t : State} (h : Counted c d back s t) (hm : motionMod s c = 0) :
    t.fld (MOTION_POS.POS c) = ofSigned 32 (motionPos s c + d) := by rw [h.pos, hm, ofSigned_motionAdd]

/-- A count once the channel has taken the edge. -/
theorem MotionKeeps.counted {fs : Nat → List Fld} {c : Fin 4} {s t : State} (h : MotionKeeps takenRegs fs c s t)
    (harm : ∀ k : Fin 8, s.flag (MOTION_CMP_CTRL.ARMED k) = false) (hr : (motionRec s c).invert = false) {d e : Int}
    (he : e = if (motionRec s c).kind = 2 then d else motionDelta (motionMod s c) d) (he0 : e ≠ 0) (sample time : Nat) :
    Counted c d (decide (e < 0)) t (motionCount c d sample time t) :=
  motionCount_counted (h.armed harm (by decide)) ((congrArg _ (h.motionRec_eq c)).trans hr)
    (by rw [h.motionRec_eq, h.motionMod_eq]; exact he) he0 sample time

/-- A position update and its step, if it is one. -/
theorem moved_keeps {u : State} (harm : ∀ k : Fin 8, u.flag (MOTION_CMP_CTRL.ARMED k) = false) (c : Fin 4) (d : Int) (time sample : Nat)
    {t : State} (ht : t = if d = 0 then motionMove c d time u
      else motionStep c (decide (d < 0)) d.natAbs sample (motionMove c d time u)) :
    MotionKeeps countRegs countKept c u t ∧
      t.fld (MOTION_POS.POS c) = ofSigned 32 (motionAdd (motionMod u c) (motionPos u c) d) := by
  have hmove : MotionKeeps countRegs countKept c u (motionMove c d time u) :=
    (motionMove_countKeeps harm c d time).mono (fun _ _ h => h) (by decide)
  have hpos := motionMove_pos harm c d time
  rw [ht]
  split
  · exact ⟨hmove, hpos⟩
  · refine ⟨hmove.trans (motionStep_countKeeps c _ _ sample _).1, Eq.trans ?_ hpos⟩
    exact (motionStep_keeps c _ _ sample _).fld (F := MOTION_POS.POS) (by decide) |>.trans
      (State.fld_setFld_apart_at (F := MOTION_POS.POS) (G := MOTION_STATUS.DIR) c _ _ (by decide))

/-- A frame that passes makes its channel valid before the position moves. -/
theorem framePassed_keeps (c : Fin 4) (s : State) : MotionKeeps (fun c => [(MOTION_STATUS.VALID c).addr]) (fun _ => []) c
    (frameEnded c s) (framePassed c s) := by
  have hstall : MotionKeeps (fun c => [(MOTION_STATUS.VALID c).addr]) (fun _ => []) c (frameEnded c s)
      ((frameEnded c s).setFlag (MOTION_STATUS.STALL c) false) := (MotionKeeps.refl _).setFlag (F := MOTION_STATUS.STALL) false (by decide)
  exact (hstall.modChan (fun x => { x with beatAt := s.ticks }) fun _ => rfl).setFlag (F := MOTION_STATUS.VALID) true (by decide)

theorem framePassed_shown (c : Fin 4) (s : State) : (framePassed c s).flag (MOTION_STATUS.VALID c) = true ∧
    (framePassed c s).flag (MOTION_STATUS.STALL c) = false :=
  ⟨State.flag_setFlag_same_at c _ _ (by decide), (State.flag_setFld_apart_at c _ _ (by decide)).trans
    (State.flag_setFlag_same_at (F := MOTION_STATUS.STALL) c (frameEnded c s) false (by decide))⟩

/-- What a passing frame leaves of its channel. -/
theorem ssiFrame_shown {s : State} {c : Fin 4} (hlen : c.val < s.motion.chans.length)
    (harm : ∀ k : Fin 8, s.flag (MOTION_CMP_CTRL.ARMED k) = false) (d : Int) (time sample : Nat) {t : State}
    (ht : t = if d = 0 then motionMove c d time (framePassed c s)
      else motionStep c (decide (d < 0)) d.natAbs sample (motionMove c d time (framePassed c s))) :
    t.fld (MOTION_POS.POS c) = ofSigned 32 (motionAdd (motionMod s c) (motionPos s c) d) ∧ t.flag (MOTION_STATUS.VALID c) = true ∧
      t.flag (MOTION_STATUS.STALL c) = false ∧ (motionChan t c).frame = none ∧ SameMemory s t ∧ RegsBut s t (countRegs c) := by
  have hpass := framePassed_keeps c s
  obtain ⟨hvalid, hstall⟩ := framePassed_shown c s
  obtain ⟨hkeep, hpos⟩ := moved_keeps (u := framePassed c s) (hpass.armed harm (by decide)) c d time sample ht
  have hframe : (motionChan (frameEnded c s) c).frame = none := by rw [frameEnded, motionChan_modChan hlen]
  refine ⟨?_, (hkeep.flag_shown (by simp [countKept])).trans hvalid, (hkeep.flag_shown (by simp [countKept])).trans hstall,
    (congrArg (·.2.2) (hkeep.senses.trans hpass.senses)).trans hframe, sameMemory_of_stores (hkeep.stores.trans hpass.stores), ?_⟩
  · rw [hpos, hpass.motionMod_eq, hpass.motionPos_eq (by decide)]
    rfl
  · have hsub : ∀ c : Fin 4, [(MOTION_STATUS.VALID c).addr] ⊆ countRegs c := by decide
    exact fun a ha => (hkeep.regs a ha).trans (hpass.regs.mono (hsub c) a ha)

/-- Settles O56, by what an edge, a position update and a step leave of a channel. -/
theorem motionCountsFramesAndSpeed : Obligations.MotionCountsFramesAndSpeed := by
  unfold Obligations.MotionCountsFramesAndSpeed
  refine ⟨?quad, ?hall, ?tooth, ?glitch, ?preset, ?stall, ?start, ?complete, ?off, ?bad, ?still, ?gate⟩
  case quad =>
    intro s c levels sample edge d hon hk hr hm _ hx hlast hf harm hd
    have hch : edgeChanged s c levels.toNat = s.fld (MOTION_STATUS.LEVELS c) ^^^ levels.toNat := if_neg (by omega)
    have hch0 : s.fld (MOTION_STATUS.LEVELS c) ^^^ levels.toNat ≠ 0 := fun h => by simp [h] at hx
    obtain ⟨t, ht⟩ : ∃ t, t = edgeSeen 1 c (s.fld (MOTION_STATUS.LEVELS c) ^^^ levels.toNat) levels.toNat sample false s := ⟨_, rfl⟩
    have hover : edgeOverrun s c (s.fld (MOTION_STATUS.LEVELS c) ^^^ levels.toNat) sample = false := by
      have hany : (motionChan s c).lastEdge.any (fun l => decide (sample < l + 8)) = false := by
        cases hl : (motionChan s c).lastEdge with
        | none => rfl
        | some l => simpa using hlast l hl
      have hone : [1, 2, 4].contains (s.fld (MOTION_STATUS.LEVELS c) ^^^ levels.toNat) = true := by
        rcases List.mem_pair.1 hx with h | h <;> rw [h] <;> rfl
      rw [edgeOverrun, hany, hone]
      rfl
    rw [exec_motionEdge hon hk (by decide) hch hch0 hf sample (ht.trans (by rw [hover])), if_pos rfl,
      quadEdge_count (State.fld_lt s (MOTION_STATUS.LEVELS c)) levels.isLt hx]
    obtain ⟨hkeep, hlev⟩ := ht ▸ edgeSeen_taken 1 c _ sample levels.isLt false s
    have hd : graySign (s.fld (MOTION_STATUS.LEVELS c)) levels.toNat = d := hd.symm
    have hd1 : d = 1 ∨ d = -1 := by rw [← hd, graySign]; split <;> simp
    have he : d = if (motionRec s c).kind = 2 then d else motionDelta (motionMod s c) d := by
      rw [hk, if_neg (by decide), hm]
      rcases hd1 with h | h <;> rw [h] <;> decide
    have hcount := hkeep.counted harm hr he (by omega) sample edge
    rw [hd]
    refine ⟨_, rfl, (hcount.keeps.shown _ (by simp [countKept])).trans hlev, ?_, hcount.dir, ?_,
      sameMemory_of_stores (hcount.keeps.stores.trans hkeep.stores)⟩
    · rw [hcount.pos_linear ((hkeep.motionMod_eq c).trans hm), hkeep.motionPos_eq (by decide)]
    · rw [hcount.keeps.flag_shown (by simp [countKept]), ht]
      exact edgeSeen_valid 1 c _ _ sample s
  case hall =>
    intro s c levels sample edge a b hon hk hr hm hlen hx harm hf ha hb hab
    have hch : edgeChanged s c levels.toNat = s.fld (MOTION_STATUS.LEVELS c) ^^^ levels.toNat := if_neg (by omega)
    have hch0 : s.fld (MOTION_STATUS.LEVELS c) ^^^ levels.toNat ≠ 0 := fun h => by simp [h] at hx
    obtain ⟨t, ht⟩ : ∃ t, t = edgeSeen 3 c (s.fld (MOTION_STATUS.LEVELS c) ^^^ levels.toNat) levels.toNat sample
      (edgeOverrun s c (s.fld (MOTION_STATUS.LEVELS c) ^^^ levels.toNat) sample) s := ⟨_, rfl⟩
    have htaken : EdgeTaken c levels.toNat s t := ht ▸ edgeSeen_taken 3 c _ sample levels.isLt _ s
    have hhall : (motionChan t c).hall = (motionChan s c).hall := congrArg (·.1) htaken.keeps.senses
    rw [exec_motionEdge hon hk (by decide) hch hch0 hf sample ht, if_neg (by decide), if_pos rfl,
      hallEdge_count (by rw [hhall]; exact ha) hb hab]
    obtain ⟨u, hu⟩ : ∃ u, u = modChan c (fun x => { x with hall := some levels.toNat }) t := ⟨_, rfl⟩
    have he : (1 : Int) = if (motionRec u c).kind = 2 then 1 else motionDelta (motionMod u c) 1 := by
      have hk' : (motionRec u c).kind = 3 := by rw [hu]; exact (congrArg _ (htaken.keeps.motionRec_eq c)).trans hk
      have hm' : motionMod u c = 0 := by rw [hu]; exact (htaken.keeps.motionMod_eq c).trans hm
      rw [hk', hm', if_neg (by decide)]
      decide
    have harm' : ∀ k : Fin 8, u.flag (MOTION_CMP_CTRL.ARMED k) = false := hu ▸ htaken.keeps.armed harm (by decide)
    have hcount := motionCount_counted harm' (by rw [hu]; exact (congrArg _ (htaken.keeps.motionRec_eq c)).trans hr) he one_ne_zero
      sample edge
    rw [← hu]
    refine ⟨_, rfl, ?_, (congrArg (·.1) hcount.keeps.senses).trans ?_⟩
    · rw [hcount.pos_linear (by rw [hu]; exact (htaken.keeps.motionMod_eq c).trans hm), hu]
      exact congrArg (fun p => ofSigned 32 (p + 1)) (htaken.keeps.motionPos_eq (by decide))
    · change (motionChan u c).hall = _
      rw [hu, motionChan_modChan (htaken.keeps.length ▸ hlen)]
  case tooth =>
    intro s c sample edge hon hk hr hlen hlev hm hm' hp htooth hf harm
    have hch : edgeChanged s c (4 : BitVec 3).toNat = 4 := by rw [edgeChanged, if_pos hk, hlev]; rfl
    obtain ⟨t, ht⟩ : ∃ t, t = edgeSeen 2 c 4 4 sample (edgeOverrun s c 4 sample) s := ⟨_, rfl⟩
    have hkeep : MotionKeeps takenRegs (fun _ => []) c s t := (ht ▸ edgeSeen_taken 2 c _ sample (by decide) _ s : EdgeTaken c 4 s t).keeps
    obtain ⟨f, g, hfx, hgx, htooth'⟩ := toothEdge_count ((congrArg (·.2.1) hkeep.senses).trans htooth) sample edge
    rw [exec_motionEdge hon hk (by decide) hch (by decide) hf sample ht, if_neg (by decide), if_neg (by decide), if_pos (by decide),
      htooth']
    have hkeep' := hkeep.setFlag (F := MOTION_STATUS.STALL) false (by decide)
    have hcount := hkeep'.counted harm hr (d := 1) (if_pos hk).symm one_ne_zero sample edge
    obtain ⟨u, hu⟩ : ∃ u, u = motionCount c 1 sample edge (t.setFlag (MOTION_STATUS.STALL c) false) := ⟨_, rfl⟩
    rw [← hu] at hcount ⊢
    refine ⟨_, rfl, ?_, (motionChan_modChan_field MotionChan.tooth hgx c _).trans ?_⟩
    · have hpos : motionPos s c = s.fld (MOTION_POS.POS c) := if_neg hm.ne'
      refine hcount.pos.trans ?_
      rw [hkeep'.motionMod_eq, hkeep'.motionPos_eq (by decide), motionAdd, if_neg hm.ne', hpos]
      have hlt := Nat.mod_lt (s.fld (MOTION_POS.POS c) + 1) hm
      exact ofSigned_of_congr 0 (by push_cast; ring) (by omega)
    · rw [motionChan_modChan (by rw [hcount.keeps.length, hkeep'.length]; exact hlen), hfx]
  case glitch =>
    intro s c edge hon hf
    exact ⟨_, if_pos ⟨hon, hf⟩, State.fld_addFld_same s _ 1 rfl,
      OnlyRegs.setFld ⟨rfl, fun _ _ => rfl⟩ (f := MOTION_GLITCH.COUNT c) (by simp) _⟩
  case preset =>
    intro s c v hon
    have hon' : motionOn (busOk 0 s) c = true := hon
    refine ⟨motionSet c v.toNat (busOk 0 s), if_pos hon', ?_, State.flag_setFlag_same_at c _ _ (by decide), ?_⟩
    · rw [motionSet, State.setFlag, State.fld_setFld_apart_at c _ _ (by decide),
        ofSigned_of_congr (w := v.toNat) 0 (by ring) v.isLt]
      exact State.fld_setFld_lt _ (MOTION_POS.POS c) _ rfl v.isLt
    · exact ((onlyRegs_busOk 0 s _).setFld (f := MOTION_POS.POS c) (by simp) _).setFld (f := MOTION_STATUS.VALID c) (by simp) _
  case stall =>
    intro s c hon hk hms he hst
    obtain ⟨h1, h2, h3⟩ := stallShown_shown c s
    exact ⟨_, exec_motionStall hon hk hms he hst, h1, h2, h3, (stallShown_keeps c s).regs, (stallShown_keeps c s).memory⟩
  case start =>
    intro s c sample idle hon hk hlen hat
    exact ⟨_, exec_ssiFrameStart hon hk hat sample idle, motionChan_modChan hlen _, rfl⟩
  case complete =>
    intro s c v time sample hon hlen hframe hg hk harm hat
    obtain ⟨d, hd⟩ : ∃ d, d = ssiDelta (motionMod s c) (motionPos s c) (v.toNat % 2 ^ (motionRec s c).ssiBits) := ⟨_, rfl⟩
    obtain ⟨hpos, hvalid, hstall, hnone, hmem, hregs⟩ := ssiFrame_shown hlen harm d time sample rfl
    refine ⟨_, exec_ssiFrame_good hon hframe hg hat v hd, hpos.trans ?_, hvalid, hstall, hnone, hmem, hregs.mono ?_⟩
    · rw [hd]
      refine ssi_pos _ (lt_of_le_of_lt (Nat.mod_le ..) v.isLt) fun h0 => ?_
      have hmod : motionMod s c = if (motionRec s c).modulus = 0 then 0 else 2 ^ (motionRec s c).ssiBits := by
        simp [motionMod, MotionRec.modulo, hk]
      rw [hmod] at h0 ⊢
      rw [if_neg fun h => h0 (if_pos h)]
      exact Nat.mod_lt _ (Nat.two_pow_pos _)
    · have : ∀ c : Fin 4, countRegs c ⊆ [(MOTION_POS.POS c).addr, (MOTION_STATUS.VALID c).addr, (MOTION_SPEED.SPEED c).addr,
        (MOTION_EVENT.EVENT c).addr] ++ eventRegs := by decide
      exact this c
  case off =>
    intro s c levels sample edge hd hon hf
    have hrun : ¬ (s.domainOn 28 = false ∨ s.nowNs < edge + motionFilterNs s c) := by simp [hd, hf]
    refine ⟨s.setFld (MOTION_STATUS.LEVELS c) levels.toNat, ?_, State.fld_setFld_lt s (MOTION_STATUS.LEVELS c) _ rfl levels.isLt, ?_⟩
    · exact (if_neg hrun).trans (if_pos (.inl hon))
    · exact OnlyRegs.setFld ⟨rfl, fun _ _ => rfl⟩ (f := MOTION_STATUS.LEVELS c) (by simp) _
  case bad =>
    intro s c v time sample idle endLow hon hframe hbad hat
    refine ⟨_, exec_ssiFrame_bad hon hframe hbad hat v, ?_, State.testBit_orBit_same _ (MOTION_EVENT.EVENT c) 5 rfl (show 5 < 9 by decide), ?_⟩
    · rw [State.orBit, State.fld_setFld_apart_at c _ _ (by decide)]
      exact State.fld_addFld_same (frameEnded c s) (MOTION_ERRCNT.FRAME c) 1 rfl
    · exact (OnlyRegs.setFld ⟨rfl, fun _ _ => rfl⟩ (f := MOTION_ERRCNT.FRAME c) (by simp) _).setFld
        (f := MOTION_EVENT.EVENT c) (by simp) _
  case still =>
    intro s c hon hat
    have hnot : ¬ (motionOn s c = false ∨ s.elapsedNs (motionChan s c).stepAt (max 1 (s.fld (MOTION_CFG.STOP_MS c)) * 1000000) = false) := by
      simp [hon, hat]
    refine ⟨_, if_neg hnot, (State.flag_setFld_apart_at c _ _ (by decide)).trans (State.flag_setFlag_same_at c _ _ (by decide)),
      State.fld_setFld_lt _ (MOTION_SPEED.SPEED c) _ rfl (show ofSigned 32 0 < 2 ^ 32 by decide), ?_⟩
    exact (OnlyRegs.setFld ⟨rfl, fun _ _ => rfl⟩ (f := MOTION_STATUS.STANDSTILL c) (by simp) _).setFld
      (f := MOTION_SPEED.SPEED c) (by simp) _
  case gate =>
    intro s c d gate hon hm hst hrev hlen hd hg hat
    obtain ⟨u, hu⟩ : ∃ u, u = setSpeed c (halfUp ((motionChan s c).gateSum * 16000000) gate)
      (modChan c (fun x => { x with gateSum := 0, gateAt := s.ticks }) s) := ⟨_, rfl⟩
    have hspeed : u.fld (MOTION_SPEED.SPEED c) = ofSigned 32 ((2 * (d * 16000000) + gate) / (2 * gate)) := by
      rw [hu, hd]
      exact State.fld_setFld_lt _ (MOTION_SPEED.SPEED c) _ rfl (ofSigned_lt _)
    have hsum : (motionChan u c).gateSum = 0 := by
      rw [hu]
      exact congrArg MotionChan.gateSum (motionChan_modChan hlen _)
    have honly : OnlyRegs { s with motion := u.motion } u [(MOTION_SPEED.SPEED c).addr, (MOTION_STATUS.COUNT_MODE c).addr] := by
      rw [hu]
      exact OnlyRegs.setFld ⟨rfl, fun _ _ => rfl⟩ (f := MOTION_SPEED.SPEED c) (by simp) _
    refine ⟨_, exec_motionGateEnd hon hm hst hrev hg hat hu, ?_⟩
    split
    · exact ⟨(State.fld_setFld_apart_at c _ _ (by decide)).trans hspeed, hsum, honly.setFld (f := MOTION_STATUS.COUNT_MODE c) (by simp) _⟩
    · exact ⟨hspeed, hsum, honly⟩

end Sys2Proof.Machine
end

section
/-! PROOFS. Transactions of the management port, its control page and its alert (R517 to R520, R523 to R531). -/

namespace Sys2Proof.Machine

/-! ### Counters and flags of the port -/

/-- Bit `k` of a field after bit `n` of it is set. -/
theorem State.testBit_orBit (s : State) (f : Fld) {n : Nat} (k : Nat) (h : f.fits = true) (hn : n < f.width) :
    ((s.orBit f n).fld f).testBit k = ((s.fld f).testBit k || decide (n = k)) := by
  have hlt : s.fld f ||| 2 ^ n < 2 ^ f.width := Nat.or_lt_two_pow (State.fld_lt s f) (Nat.pow_lt_pow_right (by decide) hn)
  rw [State.orBit, State.fld_setFld_lt s f _ h hlt, Nat.testBit_or, Nat.testBit_two_pow]

/-- Bit `k` of the events of the port. -/
def portBit (s : State) (k : Nat) : Bool := (s.fld MGMT_EVENT.EVENT).testBit k

theorem portBit_mgmtMark {n : Nat} (hn : n < 10) (s : State) (k : Nat) : portBit (mgmtMark n s) k = (portBit s k || decide (n = k)) :=
  State.testBit_orBit s MGMT_EVENT.EVENT k (by decide) hn

theorem portBit_mgmtCount (kind n : Nat) (s : State) (k : Nat) : portBit (mgmtCount kind n s) k = portBit s k := rfl

theorem portBit_congr {s t : State} (h : t.word MGMT_EVENT.EVENT.addr = s.word MGMT_EVENT.EVENT.addr) (k : Nat) :
    portBit t k = portBit s k := by rw [portBit, portBit, State.fld_congr_word h]

theorem portBit_setFld (s : State) {f : Fld} (h : MGMT_EVENT.EVENT.addr ≠ f.addr) (n k : Nat) : portBit (s.setFld f n) k = portBit s k :=
  portBit_congr (State.word_setFld_ne s f n h) k

theorem portBit_mgmtEvent {n : Nat} (hn : n < 10) {cls : EventClass} (hc : cls ≠ .fatal) (s : State) (k : Nat) :
    portBit (mgmtEvent n cls s) k = (portBit s k || decide (n = k)) :=
  (portBit_congr (postEvent_word hc _ (by decide)) k).trans (portBit_mgmtMark hn s k)

theorem portBit_alertUpdate (s : State) (k : Nat) : portBit (alertUpdate s) k = portBit s k :=
  portBit_congr (alertUpdate_keeps_word s (by decide) (by decide)) k

theorem alertUpdate_mgmt (s : State) : ∃ n, (alertUpdate s).mgmt = { s.mgmt with active := n } := by
  unfold alertUpdate
  extract_lets s1 active fresh s2
  refine ⟨active, ?_⟩
  have h : s2.mgmt = s.mgmt := by
    unfold s2
    split <;> rfl
  exact congrArg (fun m : MgmtState => { m with active := active }) h

theorem alertUpdate_counts (s : State) : (alertUpdate s).mgmt.counts = s.mgmt.counts := by
  obtain ⟨n, h⟩ := alertUpdate_mgmt s
  rw [h]

theorem alertUpdate_cursor (s : State) : (alertUpdate s).mgmt.cursor = s.mgmt.cursor := by
  obtain ⟨n, h⟩ := alertUpdate_mgmt s
  rw [h]

theorem alertUpdate_sent (s : State) : (alertUpdate s).mgmt.sent = s.mgmt.sent := by
  obtain ⟨n, h⟩ := alertUpdate_mgmt s
  rw [h]

theorem alertUpdate_stores (s : State) : (alertUpdate s).stores = s.stores := by
  obtain ⟨r, m, h, -⟩ := alertUpdate_frame s
  rw [h]
  rfl

/-- The pointer is not part of the alert. -/
theorem alertUpdate_fld (s : State) {f : Fld} (hsrc : Fld.apart f ⟨MGMT_ALERT_SRC.CALL.addr, 0, 5⟩ = true)
    (halert : f.apart MGMT_STATUS.ALERT = true) : (alertUpdate s).fld f = s.fld f := by
  unfold alertUpdate
  extract_lets s1 active fresh s2
  have h1 : s1.fld f = s.fld f := State.fld_setFld_apart s f _ _ (by decide) hsrc
  change s2.fld f = _
  unfold s2
  split
  · exact h1
  · exact (State.fld_setFld_apart s1 f MGMT_STATUS.ALERT _ (by decide) halert).trans h1

theorem State.flag_of_fld {s t : State} {f : Fld} (h : t.fld f = s.fld f) : t.flag f = s.flag f := by rw [State.flag, State.flag, h]

theorem alertUpdate_regs (s : State) : RegsBut s (alertUpdate s) [MGMT_ALERT_SRC.CALL.addr, MGMT_STATUS.ALERT.addr] := fun a ha => by
  simp only [List.mem_cons, List.not_mem_nil, or_false, not_or] at ha
  exact alertUpdate_keeps_word s ha.1 ha.2

theorem mgmtEvent_frame (n : Nat) {cls : EventClass} (hc : cls ≠ .fatal) (s : State) :
    ∃ r c l, mgmtEvent n cls s = { s with regs := r, call := c, ledger := l } ∧
      ∀ a, a ≠ CALL_OVERFLOW.COUNT.addr → readAt 0 r a = (mgmtMark n s).word a := by
  obtain ⟨r, c, l, h, hr⟩ := postEvent_frame (e := { cls := cls, block := 19, cause := n, inst := 0xFF, detail := 0 }) hc (mgmtMark n s)
  exact ⟨r, c, l, h, hr⟩

theorem mgmtEvent_mgmt (n : Nat) {cls : EventClass} (hc : cls ≠ .fatal) (s : State) : (mgmtEvent n cls s).mgmt = s.mgmt := by
  obtain ⟨r, c, l, h, -⟩ := mgmtEvent_frame n hc s
  rw [h]

/-- The count of kind `k` of the port. -/
def portCount (s : State) (k : Nat) : Option Nat := s.mgmt.counts[k]?

theorem portCount_mgmtCount_same (k n : Nat) (s : State) :
    portCount (mgmtCount k n s) k = (portCount s k).map (fun x => satAdd (2 ^ 32 - 1) x n) :=
  (getElem?_modAt s.mgmt.counts k k _).trans (if_pos rfl)

theorem portCount_mgmtCount_ne {j k : Nat} (h : k ≠ j) (n : Nat) (s : State) : portCount (mgmtCount j n s) k = portCount s k :=
  (getElem?_modAt s.mgmt.counts j k _).trans (if_neg h)

theorem portCount_mgmtMark (n : Nat) (s : State) (k : Nat) : portCount (mgmtMark n s) k = portCount s k := rfl

theorem portCount_setFld (s : State) (f : Fld) (n k : Nat) : portCount (s.setFld f n) k = portCount s k := rfl

theorem portCount_mgmtEvent (n : Nat) {cls : EventClass} (hc : cls ≠ .fatal) (s : State) (k : Nat) :
    portCount (mgmtEvent n cls s) k = portCount s k := by rw [portCount, portCount, mgmtEvent_mgmt n hc]

theorem portCount_alertUpdate (s : State) (k : Nat) : portCount (alertUpdate s) k = portCount s k := by
  rw [portCount, portCount, alertUpdate_counts]

/-- A transaction with one bit set up for less than `SETUP` shows it. -/
theorem mgmtTiming_shown {h : Nat} {s : State} (hh : h < 5 * s.fld MGMT_TIMING.SETUP) : portBit (mgmtTiming [h] s) 3 = true ∧
    portCount (mgmtTiming [h] s) 4 = (portCount s 4).map (fun k => satAdd (2 ^ 32 - 1) k 1) := by
  have hone : ([h].filter (fun t => decide (t < 5 * s.fld MGMT_TIMING.SETUP))).length = 1 := by simp [hh]
  have heq : mgmtTiming [h] s = mgmtCount 4 1 (mgmtMark 3 s) := by simp only [mgmtTiming, hone, one_ne_zero, if_false]
  rw [heq]
  refine ⟨?_, portCount_mgmtCount_same 4 1 _⟩
  rw [portBit_mgmtCount, portBit_mgmtMark (by decide)]
  simp

/-! ### Writes -/

theorem mgmtAddressed_nil (s : State) : mgmtAddressed [] s = mgmtCount 0 1 s := rfl

theorem commitWrite_nil (s : State) : commitWrite [] s = s := rfl

theorem exec_mgmtWrite {s : State} (ha : s.power.aonValid = true) {bytes : List Byte} {held : List Nat} {st : List (Nat × Byte)} {t : State}
    (hst : stageWrite bytes (mgmtAddressed held s) = (st, t)) : exec (.mgmtWriteTransaction bytes held) s =
      .next (alertUpdate (commitWrite st (if otherControl bytes ∧ t.flag MGMT_CFG.CTRL_EN = false then mgmtRefused t else t))) := by
  change execMgmtWriteTransaction bytes held s = _
  simp only [execMgmtWriteTransaction, ha, Bool.true_eq_false, if_false, hst]

/-- A write of the pointer alone. -/
theorem exec_mgmtPointer {s : State} (ha : s.power.aonValid = true) (hi lo : Byte) : exec (.mgmtWriteTransaction [hi, lo] []) s =
    .next (alertUpdate ((mgmtCount 0 1 s).setFld MGMT_STATUS.POINTER (256 * hi.toNat + lo.toNat))) := by
  have hother : ¬ (otherControl [hi, lo] = true ∧
      ((mgmtCount 0 1 s).setFld MGMT_STATUS.POINTER (256 * hi.toNat + lo.toNat)).flag MGMT_CFG.CTRL_EN = false) := by
    simp [otherControl, stage]
  rw [exec_mgmtWrite ha (st := []) (t := (mgmtCount 0 1 s).setFld MGMT_STATUS.POINTER (256 * hi.toNat + lo.toNat)) rfl,
    if_neg hother, commitWrite_nil]

/-- The field of a byte of the message to the Stage Manager. -/
def mboxByte (o : Nat) : Fld := ⟨(MGMT_MBOX_IN.DATA (o / 4)).addr, 8 * (o % 4), 8⟩

/-- A message byte is stored; one that overwrites a message that waits is an event. -/
def messageStored (o : Nat) (b : Byte) (s : State) : State :=
  if (s.setFld (mboxByte o) b.toNat).flag MGMT_STATUS.MSG_TO_SM then mgmtEvent 7 .warning (s.setFld (mboxByte o) b.toNat)
  else s.setFld (mboxByte o) b.toNat

theorem stagedField_message {p : Nat} (hp : 0x1000 ≤ p) (b : Byte) {a n : Nat} (ha : a + n ≤ 0x1000) : stagedField [(p, b)] a n = none := by
  refine if_neg fun h => ?_
  obtain ⟨i, hi, hkey⟩ := List.any_eq_true.1 h
  have hne : ¬ p = a + i := by have := List.mem_range.1 hi; omega
  simp [keyGet, hne] at hkey

theorem commitWrite_message (o : Byte) (b : Byte) (s : State) : commitWrite [(0x1000 + o.toNat, b)] s = messageStored o.toNat b s := by
  have hp : 0x1000 ≤ 0x1000 + o.toNat := by omega
  simp only [commitWrite, stagedField_message hp b (show 0x200 + 1 ≤ 0x1000 by decide),
    stagedField_message hp b (show 0x204 + 2 ≤ 0x1000 by decide), stagedField_message hp b (show 0x208 + 1 ≤ 0x1000 by decide),
    stagedField_message hp b (show 0x20C + 1 ≤ 0x1000 by decide), stagedField_message hp b (show 0x210 + 2 ≤ 0x1000 by decide)]
  simp [commitMessage, messageStored, mboxByte] <;> rfl

theorem exec_mgmtMessage {s : State} (ha : s.power.aonValid = true) (o b : Byte) : exec (.mgmtWriteTransaction [0x10, o, b] []) s =
    .next (alertUpdate (messageStored o.toNat b ((mgmtCount 0 1 s).setFld MGMT_STATUS.POINTER (nextInPage (0x1000 + o.toNat))))) := by
  have ho := o.isLt
  have hw : mgmtWritable (0x1000 + o.toNat) = true := by
    simp only [mgmtWritable, Bool.or_eq_true, Bool.and_eq_true, decide_eq_true_eq]
    exact .inl ⟨by omega, by omega⟩
  have hst : stageWrite [0x10, o, b] (mgmtAddressed [] s) = ([(0x1000 + o.toNat, b)],
      (mgmtCount 0 1 s).setFld MGMT_STATUS.POINTER (nextInPage (0x1000 + o.toNat))) := by
    change (let (p, st, bad) := stage (0x1000 + o.toNat) [b] [] 0
            let u := (mgmtCount 0 1 s).setFld MGMT_STATUS.POINTER p
            (st, if bad = 0 then u else mgmtCount 5 bad (mgmtMark 5 u))) = _
    simp only [stage, hw, if_true]
    rfl
  have hother (t : State) : ¬ (otherControl [0x10, o, b] = true ∧ t.flag MGMT_CFG.CTRL_EN = false) := by
    have hstage : (stage (0x1000 + o.toNat) [b] [] 0).2.2 = 0 := by simp only [stage, hw, if_true]
    have : otherControl [0x10, o, b] = false := by
      change ((0x1000 + o.toNat) / 64 == 8 && (stage (0x1000 + o.toNat) [b] [] 0).2.2 != 0) = false
      rw [hstage]
      simp
    exact fun h => absurd (this.symm.trans h.1) (by decide)
  rw [exec_mgmtWrite ha hst, if_neg (hother _), commitWrite_message]

theorem mboxByte_fits (o : Nat) : (mboxByte o).fits = true := by
  have : 8 * (o % 4) + 8 ≤ 32 := by omega
  exact decide_eq_true this

theorem messageStored_word (o : Nat) (b : Byte) (s : State) {a : Nat} (h : a ≠ CALL_OVERFLOW.COUNT.addr) (h' : a ≠ MGMT_EVENT.EVENT.addr) :
    (messageStored o b s).word a = (s.setFld (mboxByte o) b.toNat).word a := by
  unfold messageStored
  split
  · exact (postEvent_word (by simp) _ h).trans (State.word_setFld_ne _ MGMT_EVENT.EVENT _ h')
  · rfl

theorem mboxByte_ne (o : Nat) {a : Nat} (h : a < 0x480100) : a ≠ (mboxByte o).addr := by
  have : (mboxByte o).addr = 0x480100 + 4 * (o / 4) := rfl
  omega

/-- The stored byte reads back. -/
theorem messageStored_byte (o : Nat) (ho : o < 256) (b : Byte) (s : State) : (messageStored o b s).fld (mboxByte o) = b.toNat := by
  have haddr : (mboxByte o).addr ≠ CALL_OVERFLOW.COUNT.addr ∧ (mboxByte o).addr ≠ MGMT_EVENT.EVENT.addr := by
    simp only [mboxByte, MGMT_MBOX_IN.DATA, CALL_OVERFLOW.COUNT, MGMT_EVENT.EVENT]
    omega
  rw [State.fld_congr_word (messageStored_word o b s haddr.1 haddr.2)]
  exact State.fld_setFld_lt s (mboxByte o) _ (mboxByte_fits o) b.isLt

/-! ### Reads and the timeout -/

theorem windowByte_mgmtAddressed (s : State) (a : Nat) : windowByte (mgmtCount 0 1 s) a = windowByte s a := rfl

theorem exec_mgmtRead {s : State} (ha : s.power.aonValid = true) (n : Nat) (held : List Nat) {t : State} (ht : t = mgmtAddressed held s) :
    exec (.mgmtReadTransaction n held) s = .next (alertUpdate (setMgmt { t.mgmt with
      sent := (List.range n).map (fun i => windowByte t ((t.fld MGMT_STATUS.POINTER + i) % 65536)) }
      (t.setFld MGMT_STATUS.POINTER (t.fld MGMT_STATUS.POINTER + n)))) := by
  subst ht
  change execMgmtReadTransaction n held s = _
  simp only [execMgmtReadTransaction, ha, Bool.true_eq_false, if_false]

theorem exec_mgmtTimeout {s : State} (ha : s.power.aonValid = true) (hto : s.flag MGMT_CFG.TIMEOUT_EN = true) (held : List Nat) (n : Nat)
    {t : State} (ht : t = mgmtAddressed held s) : exec (.mgmtTimeout { bytes := [], held := held } n) s =
      .next (alertUpdate (mgmtEvent 2 .warning (mgmtCount 3 1
        (t.setFld MGMT_STATUS.POINTER (t.fld MGMT_STATUS.POINTER + n))))) := by
  subst ht
  have hnot : ¬ (s.power.aonValid = false ∨ s.flag MGMT_CFG.TIMEOUT_EN = false) := by simp [ha, hto]
  exact if_neg hnot

theorem pointer_setFld (t : State) (n : Nat) : (t.setFld MGMT_STATUS.POINTER n).fld MGMT_STATUS.POINTER = n % 65536 :=
  State.fld_setFld_same t MGMT_STATUS.POINTER n (by decide)

/-! ### The alert response -/

theorem exec_alertLost {s : State} (ha : s.flag MGMT_STATUS.ALERT = true) {w : HeldByte} {t : State} (ht : t = mgmtTiming w.held s)
    (hw : w.byte.toNat ≠ 2 * t.fld MGMT_CFG.ADDR) :
    exec (.alertResponse w false) s = .next (alertUpdate (mgmtMark 0 (mgmtCount 1 1 t))) := by
  subst ht
  change execAlertResponse w false s = _
  simp only [execAlertResponse, ha, hw, if_true, if_false, Bool.true_eq_false, Bool.false_eq_true]

theorem exec_alertAborted {s : State} (ha : s.flag MGMT_STATUS.ALERT = true) {w : HeldByte} {t : State} (ht : t = mgmtTiming w.held s) :
    exec (.alertResponse w true) s = .next (alertUpdate (mgmtEvent 1 .info (mgmtCount 2 1 t))) := by
  subst ht
  change execAlertResponse w true s = _
  simp only [execAlertResponse, ha, if_true, if_false, Bool.true_eq_false, Bool.false_eq_true]

theorem exec_alertWon {s : State} (ha : s.flag MGMT_STATUS.ALERT = true) {w : HeldByte} {t : State} (ht : t = mgmtTiming w.held s)
    (hw : w.byte.toNat = 2 * t.fld MGMT_CFG.ADDR) :
    exec (.alertResponse w false) s = .next (alertUpdate (mgmtMark 8 (t.setFlag MGMT_STATUS.ALERT false))) := by
  subst ht
  change execAlertResponse w false s = _
  simp only [execAlertResponse, ha, hw, if_true, if_false, Bool.true_eq_false, Bool.false_eq_true]

/-- An alert that waits stays. -/
theorem alertUpdate_alert {s : State} (h : s.flag MGMT_STATUS.ALERT = true) : (alertUpdate s).flag MGMT_STATUS.ALERT = true := by
  unfold alertUpdate
  extract_lets s1 active fresh s2
  have h1 : s1.flag MGMT_STATUS.ALERT = true := (State.flag_setFld_apart s _ _ _ (by decide) (by decide)).trans h
  change s2.flag MGMT_STATUS.ALERT = true
  unfold s2
  split
  · exact h1
  · exact State.flag_setFlag_same s1 MGMT_STATUS.ALERT true (by decide) (by decide)

/-- Without an enabled cause no alert begins. -/
theorem alertUpdate_quiet {s : State} (h : s.fld MGMT_ALERT_EN.EN = 0) :
    (alertUpdate s).flag MGMT_STATUS.ALERT = s.flag MGMT_STATUS.ALERT := by
  unfold alertUpdate
  extract_lets s1 active fresh s2
  have hen : s1.fld MGMT_ALERT_EN.EN = 0 := (State.fld_setFld_apart s _ _ _ (by decide) (by decide)).trans h
  have hf : fresh = 0 := by
    have hact : active = 0 := by
      change _ &&& s1.fld MGMT_ALERT_EN.EN = 0
      rw [hen, Nat.and_zero]
    change active ^^^ (active &&& s.mgmt.active) = 0
    rw [hact]
    simp
  have h2 : s2 = s1 := if_pos hf
  change s2.flag MGMT_STATUS.ALERT = _
  rw [h2]
  exact State.flag_setFld_apart s _ _ _ (by decide) (by decide)

/-! ### The control page -/

theorem control_on {s : State} (h : s.flag MGMT_CFG.CTRL_EN = true) (f : State → State) : control f s = f s := if_pos h

theorem control_off {s : State} (h : s.flag MGMT_CFG.CTRL_EN = false) (f : State → State) : control f s = mgmtRefused s :=
  if_neg (by simp [h])

theorem warnTimeout_cue (s : State) : (warnTimeout s).cue = s.cue := by
  unfold warnTimeout
  split
  · obtain ⟨r, c, l, h, -⟩ := postActsAs_frame 1 0xFF CUE_REF_TIMEOUT.MS.addr s
    rw [h]
  · rfl

/-- A commit after the first one, with none in progress, prepares the image of the pending stack. -/
theorem acceptCommit_idle {s : State} (hl : s.cue.locked = true) (hi : s.cue.commit = .idle) : ∃ img,
    (acceptCommit s).cue.commit = .preparing img ∧ img.stack = s.cue.pending ∧ (acceptCommit s).cue.pending = s.cue.pending := by
  have hnot : ¬ (s.cue.locked = false ∧ s.flag DRAM_STATUS.DRAM_FAIL = true) := by simp [hl]
  obtain ⟨x, hx⟩ : ∃ x : CommitImage, x = { buildImage (warnTimeout s) (warnTimeout s).cue.pending with
    enters := commitEnters s.cue.commit } := ⟨_, rfl⟩
  have heq : acceptCommit s = { warnTimeout s with cue := { (warnTimeout s).cue with commit := .preparing x } } := by
    unfold acceptCommit
    rw [if_neg hnot, hx]
    simp only [hl, hi, if_true]
  rw [heq]
  have hpend : (warnTimeout s).cue.pending = s.cue.pending := congrArg CueState.pending (warnTimeout_cue s)
  exact ⟨x, rfl, by rw [hx]; exact hpend, hpend⟩

/-- What a message and its acknowledgement show. -/
def messageShown (toSm taken : Bool) (s : State) : State :=
  if taken then setFromSm false (if toSm then setToSm true s else s) else if toSm then setToSm true s else s

theorem doMsg_eq {s : State} (h : s.flag MGMT_CFG.CTRL_EN = true) (v : Nat) :
    doMsg v s = messageShown (v.testBit 0) (v.testBit 1) s := control_on h _

/-- The registers in which a message shows. -/
def messageRegs : List Nat := [MGMT_MBOX_CTRL.TO_SM.addr, MGMT_STATUS.MSG_TO_SM.addr, MGMT_ALERT_SRC.CALL.addr]

theorem setToSm_shown (s : State) : (setToSm true s).flag MGMT_STATUS.MSG_TO_SM = true ∧ RegsBut s (setToSm true s) messageRegs :=
  ⟨State.flag_setFlag_same _ MGMT_STATUS.MSG_TO_SM true (by decide) (by decide),
    ((RegsBut.refl s _).setFld (f := MGMT_MBOX_CTRL.TO_SM) (by decide) _).setFld (f := MGMT_STATUS.MSG_TO_SM) (by decide) _⟩

theorem setFromSm_shown (s : State) : (setFromSm false s).flag MGMT_STATUS.MSG_FROM_SM = false ∧
    (setFromSm false s).flag MGMT_STATUS.MSG_TO_SM = s.flag MGMT_STATUS.MSG_TO_SM ∧ RegsBut s (setFromSm false s) messageRegs :=
  ⟨State.flag_setFlag_same _ MGMT_STATUS.MSG_FROM_SM false (by decide) (by decide),
    (State.flag_setFld_apart _ _ MGMT_STATUS.MSG_FROM_SM _ (by decide) (by decide)).trans
      (State.flag_setFld_apart s _ MGMT_MBOX_CTRL.FROM_SM _ (by decide) (by decide)),
    ((RegsBut.refl s _).setFld (f := MGMT_MBOX_CTRL.FROM_SM) (by decide) _).setFld (f := MGMT_STATUS.MSG_FROM_SM) (by decide) _⟩

theorem messageShown_shown (toSm taken : Bool) (s : State) : (toSm = true → (messageShown toSm taken s).flag MGMT_STATUS.MSG_TO_SM = true) ∧
    (taken = true → (messageShown toSm taken s).flag MGMT_STATUS.MSG_FROM_SM = false) ∧
    RegsBut s (messageShown toSm taken s) messageRegs ∧ (messageShown toSm taken s).stores = s.stores := by
  obtain ⟨hto, hregs⟩ := setToSm_shown s
  cases taken <;> cases toSm
  · exact ⟨nofun, nofun, .refl s _, rfl⟩
  · exact ⟨fun _ => hto, nofun, hregs, rfl⟩
  · obtain ⟨hfrom, -, hregs'⟩ := setFromSm_shown s
    exact ⟨nofun, fun _ => hfrom, hregs', rfl⟩
  · obtain ⟨hfrom, hkeep, hregs'⟩ := setFromSm_shown (setToSm true s)
    exact ⟨fun _ => hkeep.trans hto, fun _ => hfrom, hregs.trans hregs', rfl⟩

/-- What a refused control write shows. -/
theorem mgmtRefused_shown (s : State) : portBit (mgmtRefused s) 6 = true ∧ mgmtRefused s = { s with
    regs := (mgmtRefused s).regs, mgmt := { s.mgmt with counts := modAt s.mgmt.counts 6 (fun x => satAdd (2 ^ 32 - 1) x 1) } } := by
  refine ⟨?_, rfl⟩
  rw [mgmtRefused, portBit_mgmtCount, portBit_mgmtMark (by decide)]
  simp

/-- Settles O60, by what each transaction leaves of the port's counters and flags. -/
theorem managementPortTransactions : Obligations.ManagementPortTransactions := by
  unfold Obligations.ManagementPortTransactions
  refine ⟨?pointer, ?message, ?read, ?slow, ?timeout, ?wake, ?cuesel, ?trig, ?msg, ?ack, ?refused, ?other, ?late, ?won, ?lost⟩
  case pointer =>
    intro s hi lo ha
    have hp : 256 * hi.toNat + lo.toNat < 65536 := by have := hi.isLt; have := lo.isLt; omega
    refine ⟨_, exec_mgmtPointer ha hi lo, ?_, alertUpdate_counts _, sameMemory_of_stores (alertUpdate_stores _)⟩
    rw [alertUpdate_fld _ (by decide) (by decide), pointer_setFld, Nat.mod_eq_of_lt hp]
  case message =>
    intro s o b ha
    have ho := o.isLt
    refine ⟨_, exec_mgmtMessage ha o b, ?_, ?_, ?_⟩
    · have hout : (mboxByte o.toNat).addr ≠ MGMT_ALERT_SRC.CALL.addr ∧ (mboxByte o.toNat).addr ≠ MGMT_STATUS.ALERT.addr := by
        simp only [mboxByte, MGMT_MBOX_IN.DATA, MGMT_ALERT_SRC.CALL, MGMT_STATUS.ALERT]
        omega
      exact (State.fld_congr_word (f := mboxByte o.toNat) (alertUpdate_keeps_word _ hout.1 hout.2)).trans (messageStored_byte o.toNat ho b _)
    · rw [alertUpdate_fld _ (by decide) (by decide), State.fld_congr_word (messageStored_word _ b _ (by decide) (by decide)),
        State.fld_congr_word (State.word_setFld_ne _ (mboxByte o.toNat) _ (mboxByte_ne o.toNat (by decide))), pointer_setFld,
        nextInPage]
      omega
    · intro a hmem
      simp only [eventRegs, List.mem_append, List.mem_cons, List.not_mem_nil, or_false, not_or] at hmem
      obtain ⟨⟨hbox, hptr, hev, hsrc⟩, hovf, -⟩ := hmem
      exact (alertUpdate_keeps_word _ hsrc hptr).trans ((messageStored_word _ b _ hovf hev).trans
        ((State.word_setFld_ne _ (mboxByte o.toNat) _ hbox).trans (State.word_setFld_ne (mgmtCount 0 1 s) MGMT_STATUS.POINTER _ hptr)))
  case read =>
    intro s n ha
    refine ⟨_, exec_mgmtRead ha n [] rfl, alertUpdate_sent _, ?_, sameMemory_of_stores (alertUpdate_stores _)⟩
    rw [alertUpdate_fld _ (by decide) (by decide)]
    exact pointer_setFld _ _
  case slow =>
    intro s n h ha hh
    obtain ⟨hbit, hcount⟩ := mgmtTiming_shown (s := mgmtCount 0 1 s) hh
    refine ⟨_, exec_mgmtRead ha n [h] rfl, ?_, ?_⟩
    · exact (portBit_alertUpdate _ 3).trans ((portBit_setFld (mgmtAddressed [h] s) (by decide) _ 3).trans hbit)
    · exact (portCount_alertUpdate _ 4).trans (hcount.trans (congrArg _ (portCount_mgmtCount_ne (by decide) 1 s)))
  case timeout =>
    intro s n ha hto
    refine ⟨_, exec_mgmtTimeout ha hto [] n rfl, ?_, ?_, ?_⟩
    · rw [alertUpdate_fld _ (by decide) (by decide), mgmtEvent, postFlag, State.fld_postEvent (by simp) _ (by decide), State.orBit,
        State.fld_setFld_apart _ _ MGMT_EVENT.EVENT _ (by decide) (by decide)]
      exact pointer_setFld _ _
    · refine (portBit_alertUpdate _ 2).trans ((portBit_mgmtEvent (by decide) (by decide) _ 2).trans ?_)
      simp
    · refine (portCount_alertUpdate _ 3).trans ((portCount_mgmtEvent 2 (by decide) _ 3).trans ((portCount_mgmtCount_same 3 1 _).trans ?_))
      exact congrArg _ (portCount_mgmtCount_ne (by decide) 1 s)
  case wake =>
    intro s hc hw hm hx
    obtain ⟨x, hxfer, hsrc, hdst⟩ := wakeTo_intermission hm hx
    refine ⟨wakeTo 6 s, x, ?_, hxfer, hsrc, hdst⟩
    have hnow : ((6 : Byte).toNat = 2 ∨ (6 : Byte).toNat = 6) ∧ s.mode = 7 ∧ s.flag MGMT_CFG.WAKE_EN = true := ⟨.inr rfl, hm, hw⟩
    change Host.Outcome.next (doWake (6 : Byte).toNat s) = _
    rw [doWake, control_on hc, if_pos hnow]
    rfl
  case cuesel =>
    intro s v p hc hl hi hp
    obtain ⟨img, hcommit, hstack, hpend⟩ := acceptCommit_idle (s := setPending p s) hl hi
    refine ⟨_, img, ?_, hcommit, hstack, hpend⟩
    change Host.Outcome.next (doCuesel v.toNat s) = _
    rw [doCuesel, control_on hc, doStackOp, hp]
  case trig =>
    intro s v hc hv
    change Host.Outcome.next (doTrig v.toNat s) = _
    rw [doTrig, control_on hc]
    exact congrArg Host.Outcome.next (if_pos hv)
  case msg =>
    intro s v hc
    obtain ⟨hto, hfrom, hregs, hstores⟩ := messageShown_shown (v.toNat.testBit 0) (v.toNat.testBit 1) s
    rw [← doMsg_eq hc] at hto hfrom hregs hstores
    refine ⟨_, rfl, fun h => (State.flag_of_fld (alertUpdate_fld _ (by decide) (by decide))).trans (hto h),
      fun h => (State.flag_of_fld (alertUpdate_fld _ (by decide) (by decide))).trans (hfrom h), ?_,
      sameMemory_of_stores ((alertUpdate_stores _).trans hstores)⟩
    exact hregs.trans ((alertUpdate_regs _).mono (by decide))
  case ack =>
    intro s n hc
    refine ⟨_, rfl, ?_, ?_, ?_⟩
    · rw [alertUpdate_cursor, doCallAck, control_on hc]
      rfl
    · rw [doCallAck, control_on hc]
      exact fun a ha => alertUpdate_regs _ a fun h => ha (by simpa [or_comm] using h)
    · rw [doCallAck, control_on hc]
      exact sameMemory_of_stores (alertUpdate_stores _)
  case refused =>
    intro s c v w hc hmem
    obtain ⟨hbit, hstate⟩ := mgmtRefused_shown s
    have hexec : exec c s = .next (mgmtRefused s) ∨ exec c s = .next (alertUpdate (mgmtRefused s)) := by
      simp only [List.mem_cons, List.not_mem_nil, or_false] at hmem
      rcases hmem with rfl | rfl | rfl | rfl | rfl
      · exact .inl (congrArg Host.Outcome.next (control_off hc _))
      · exact .inl (congrArg Host.Outcome.next (control_off hc _))
      · exact .inl (congrArg Host.Outcome.next (control_off hc _))
      · exact .inr (congrArg (fun t => Host.Outcome.next (alertUpdate t)) (control_off hc _))
      · exact .inr (congrArg (fun t => Host.Outcome.next (alertUpdate t)) (control_off hc _))
    rcases hexec with h | h
    · exact ⟨_, h, hbit, rfl, rfl, rfl, rfl⟩
    · obtain ⟨r, m, heq, -⟩ := alertUpdate_frame (mgmtRefused s)
      refine ⟨_, h, (portBit_alertUpdate _ 6).trans hbit, ?_, ?_, ?_, (alertUpdate_cursor _).trans rfl⟩ <;> rw [heq] <;> rfl
  case other =>
    intro s b ha hc
    obtain ⟨u, hu⟩ : ∃ u, u = mgmtCount 5 1 (mgmtMark 5 ((mgmtCount 0 1 s).setFld MGMT_STATUS.POINTER 514)) := ⟨_, rfl⟩
    have hoff : u.flag MGMT_CFG.CTRL_EN = false := by
      rw [hu]
      exact (State.flag_setFld_apart _ _ MGMT_EVENT.EVENT _ (by decide) (by decide)).trans
        ((State.flag_setFld_apart _ _ MGMT_STATUS.POINTER _ (by decide) (by decide)).trans hc)
    have hstage : stageWrite [0x02, 0x01, b] (mgmtAddressed [] s) = ([], u) := by
      rw [hu]
      rfl
    have hother : otherControl [0x02, 0x01, b] = true ∧ u.flag MGMT_CFG.CTRL_EN = false := ⟨rfl, hoff⟩
    refine ⟨_, exec_mgmtWrite ha hstage, ?_, ?_, ?_⟩ <;> rw [commitWrite_nil, if_pos hother]
    · exact (portBit_alertUpdate _ 6).trans (mgmtRefused_shown u).1
    · refine (portBit_alertUpdate _ 5).trans ((portBit_mgmtMark (by decide) u 5).trans ?_)
      rw [hu, portBit_mgmtCount, portBit_mgmtMark (by decide)]
      simp
    · refine (portCount_alertUpdate _ 6).trans ((portCount_mgmtCount_same 6 1 _).trans (congrArg _ ?_))
      rw [portCount_mgmtMark, hu, portCount_mgmtCount_ne (by decide), portCount_mgmtMark, portCount_setFld,
        portCount_mgmtCount_ne (by decide)]
      rfl
  case late =>
    intro s n h c ha hto hal hh hmem
    simp only [List.mem_cons, List.not_mem_nil, or_false] at hmem
    obtain ⟨hbit, hcount⟩ := mgmtTiming_shown hh
    rcases hmem with rfl | rfl | rfl
    · obtain ⟨hbit, hcount⟩ := mgmtTiming_shown (s := mgmtCount 0 1 s) hh
      refine ⟨_, exec_mgmtTimeout ha hto [h] n rfl, ?_, ?_⟩
      · refine (portBit_alertUpdate _ 3).trans ((portBit_mgmtEvent (by decide) (by decide) _ 3).trans ?_)
        rw [portBit_mgmtCount, portBit_setFld _ (by decide)]
        exact (congrArg (· || _) hbit).trans rfl
      · refine (portCount_alertUpdate _ 4).trans ((portCount_mgmtEvent 2 (by decide) _ 4).trans ?_)
        rw [portCount_mgmtCount_ne (by decide), portCount_setFld]
        exact hcount.trans (congrArg _ (portCount_mgmtCount_ne (by decide) 1 s))
    · have hlost : (0xFF : Byte).toNat ≠ 2 * (mgmtTiming [h] s).fld MGMT_CFG.ADDR := by
        change 255 ≠ _
        omega
      refine ⟨_, exec_alertLost hal rfl hlost, ?_, ?_⟩
      · refine (portBit_alertUpdate _ 3).trans ((portBit_mgmtMark (by decide) _ 3).trans ?_)
        rw [portBit_mgmtCount]
        exact (congrArg (· || _) hbit).trans rfl
      · refine (portCount_alertUpdate _ 4).trans ?_
        rw [portCount_mgmtMark, portCount_mgmtCount_ne (by decide)]
        exact hcount
    · refine ⟨_, exec_alertAborted hal rfl, ?_, ?_⟩
      · refine (portBit_alertUpdate _ 3).trans ((portBit_mgmtEvent (by decide) (by decide) _ 3).trans ?_)
        rw [portBit_mgmtCount]
        exact (congrArg (· || _) hbit).trans rfl
      · refine (portCount_alertUpdate _ 4).trans ((portCount_mgmtEvent 1 (by decide) _ 4).trans ?_)
        rw [portCount_mgmtCount_ne (by decide)]
        exact hcount
  case won =>
    intro s w hal hw hheld hen
    have ht : mgmtTiming w.held s = s := by rw [hheld]; rfl
    refine ⟨_, exec_alertWon hal ht.symm hw, ?_, ?_⟩
    · refine (alertUpdate_quiet ?_).trans ?_
      · rw [mgmtMark, State.orBit, State.fld_setFld_apart _ _ MGMT_EVENT.EVENT _ (by decide) (by decide), State.setFlag,
          State.fld_setFld_apart _ _ MGMT_STATUS.ALERT _ (by decide) (by decide), hen]
      · exact (State.flag_setFld_apart _ _ MGMT_EVENT.EVENT _ (by decide) (by decide)).trans
          (State.flag_setFlag_same s MGMT_STATUS.ALERT false (by decide) (by decide))
    · refine (portBit_alertUpdate _ 8).trans ((portBit_mgmtMark (by decide) _ 8).trans ?_)
      simp
  case lost =>
    intro s w hal hw hheld
    have ht : mgmtTiming w.held s = s := by rw [hheld]; rfl
    refine ⟨_, exec_alertLost hal ht.symm hw, alertUpdate_alert ?_, ?_, alertUpdate_counts _⟩
    · exact (State.flag_setFld_apart _ _ MGMT_EVENT.EVENT _ (by decide) (by decide)).trans hal
    · refine (portBit_alertUpdate _ 0).trans ((portBit_mgmtMark (by decide) _ 0).trans ?_)
      simp

end Sys2Proof.Machine
end

section
/-! PROOFS. What reads and writes of the DRAM data region leave, and DRAM detections, poison, panic and upkeep (R373 to R375, R378, R380,
R382, R383). -/

namespace Sys2Proof.Machine

/-! ### What the checks of a read leave -/

/-- The registers in which the checks of a read show. -/
def checkRegs : List Nat :=
  [CALL_OVERFLOW.COUNT.addr, DRAM_EVENT.STORED.addr, DRAM_POISON_ADDR_LO.ADDR.addr, DRAM_POISON_ADDR_HI.ADDR.addr]

/-- Only the traces of checks have changed: the error counts, the channels whose WCK stands still, the events and `checkRegs`. -/
structure Checked (s t : State) : Prop where
  state : t = { s with regs := t.regs, mem := t.mem, call := t.call, ledger := t.ledger }
  mem : t.mem = { s.mem with errors := t.mem.errors, wckOff := t.mem.wckOff }
  regs : RegsBut s t checkRegs

namespace Checked

variable {s t u : State}

theorem refl (s : State) : Checked s s := ⟨rfl, rfl, fun _ _ => rfl⟩

theorem trans (h : Checked s t) (h' : Checked t u) : Checked s u := by
  obtain ⟨hs, hm, hr⟩ := h
  obtain ⟨hs', hm', hr'⟩ := h'
  refine ⟨hs'.trans ?_, hm'.trans ?_, fun a ha => (hr' a ha).trans (hr a ha)⟩
  · exact congrArg (fun x : State => { x with regs := u.regs, mem := u.mem, call := u.call, ledger := u.ledger }) hs
  · exact congrArg (fun x : DramState => { x with errors := u.mem.errors, wckOff := u.mem.wckOff }) hm

theorem setFld (h : Checked s t) {f : Fld} (hf : f.addr ∈ checkRegs) (n : Nat) : Checked s (t.setFld f n) :=
  ⟨congrArg (fun x : State => { x with regs := (t.setFld f n).regs }) h.state, h.mem, h.regs.setFld hf n⟩

theorem postEvent (h : Checked s t) {e : Event} (he : e.cls ≠ .fatal) : Checked s (postEvent e t) := by
  obtain ⟨r, c, l, hp, -⟩ := postEvent_frame he t
  have hregs := h.regs.postEvent he (by decide)
  rw [hp] at hregs ⊢
  exact ⟨congrArg (fun x : State => { x with regs := r, call := c, ledger := l }) h.state, h.mem, hregs⟩

theorem dramFlag (h : Checked s t) {f : Fld} (hf : f.addr ∈ checkRegs) {cls : EventClass} (hc : cls ≠ .fatal) (inst detail : Nat) :
    Checked s (dramFlag f cls inst detail t) := (h.setFld hf _).postEvent hc

theorem foldl {α : Type} {f : State → α → State} (hf : ∀ s a, Checked s (f s a)) (l : List α) (s : State) : Checked s (l.foldl f s) := by
  induction l generalizing s with
  | nil => exact .refl s
  | cons a l ih => exact (hf s a).trans (ih _)

theorem dramCount (h : Checked s t) (kind ch : Nat) : Checked s (dramCount kind ch t) :=
  ⟨congrArg (fun x : State => { x with mem := (Machine.dramCount kind ch t).mem }) h.state,
    congrArg (fun x : DramState => { x with errors := (Machine.dramCount kind ch t).mem.errors }) h.mem, h.regs⟩

theorem dramAccess (h : Checked s t) (a n : Nat) : Checked s (dramAccess a n t) :=
  ⟨congrArg (fun x : State => { x with mem := (Machine.dramAccess a n t).mem }) h.state,
    congrArg (fun x : DramState => { x with wckOff := (Machine.dramAccess a n t).mem.wckOff }) h.mem, h.regs⟩

end Checked

theorem dramCheck_checked (b : Nat) (s : State) : Checked s (dramCheck b s) := by
  unfold dramCheck
  extract_lets ch a
  split
  · exact .refl s
  · split
    · exact .refl s
    · exact (Checked.setFld (f := DRAM_EVENT.STORED) (.refl s) (by decide) _).dramCount 2 ch
    · have hlo := Checked.setFld (f := DRAM_POISON_ADDR_LO.ADDR) (.refl s) (by decide) (a / 64)
      have hhi := hlo.setFld (f := DRAM_POISON_ADDR_HI.ADDR) (by decide) (a / 2 ^ 32)
      exact (hhi.dramCount 1 ch).dramFlag (by decide) (by decide) ch 0

theorem dramSeen_checked (a n : Nat) (s : State) : Checked s (dramSeen a n s) :=
  ((Checked.refl s).dramAccess a n).trans (.foldl (fun s b => dramCheck_checked b s) _ _)

theorem poisonWarn_checked (block inst a n : Nat) (s : State) : Checked s (poisonWarn block inst a n s) := by
  unfold poisonWarn
  split
  · exact (dramSeen_checked a n s).postEvent (by simp)
  · exact .refl s

namespace Checked

variable {s t : State}

theorem fld (h : Checked s t) {f : Fld} (hf : f.addr ∉ checkRegs) : t.fld f = s.fld f := State.fld_congr_word (h.regs _ hf)

theorem flag (h : Checked s t) {f : Fld} (hf : f.addr ∉ checkRegs) : t.flag f = s.flag f := State.flag_of_word (h.regs _ hf)

theorem dram (h : Checked s t) : t.dram = s.dram := by rw [h.state]

theorem ticks (h : Checked s t) : t.ticks = s.ticks := by rw [h.state]

theorem stores (h : Checked s t) : t.stores = s.stores := by rw [h.state]; rfl

theorem committed (h : Checked s t) : t.mem.committed = s.mem.committed := by rw [h.mem]

theorem poison (h : Checked s t) : t.mem.poison = s.mem.poison := by rw [h.mem]

theorem bad (h : Checked s t) : t.mem.bad = s.mem.bad := by rw [h.mem]

theorem trnOp (h : Checked s t) : t.mem.trnOp = s.mem.trnOp := by rw [h.mem]

theorem held (h : Checked s t) : t.mem.held = s.mem.held := by rw [h.mem]

theorem codeBuf (h : Checked s t) : t.mem.codeBuf = s.mem.codeBuf := by rw [h.mem]

theorem channels (h : Checked s t) : dramChannels t = dramChannels s := by rw [dramChannels, dramChannels, h.mem]

theorem channel (h : Checked s t) (a : Nat) : dramChannel t a = dramChannel s a := by rw [dramChannel, dramChannel, h.channels]

theorem fenced (h : Checked s t) (a : Nat) : dramFenced t a = dramFenced s a := by
  rw [dramFenced, dramFenced, h.channel, h.fld (f := DRAM_MAP.FENCED) (by decide)]

theorem training (h : Checked s t) (a : Nat) : dramTraining t a = dramTraining s a := by
  simp only [dramTraining, h.trnOp, h.committed, h.channel, show t.mem.trnCh = s.mem.trnCh by rw [h.mem]]

theorem blocked (h : Checked s t) (a : Nat) : dramBlocked t a = dramBlocked s a := by
  rw [dramBlocked, dramBlocked, h.fenced, h.training]

theorem poisoned (h : Checked s t) (a n : Nat) : t.poisoned a n = s.poisoned a n := by
  simp only [State.poisoned, h.poison, h.bad, h.trnOp, h.blocked, h.fld (f := DRAM_MAP.FENCED) (by decide)]

theorem blockCheck (h : Checked s t) (b : Nat) : blockCheck t b = blockCheck s b := by
  unfold Machine.blockCheck storedCode ownCode
  rw [h.dram, h.ticks, h.poison, h.bad]

end Checked

/-! ### What a read finds -/

/-- The check of a block finds poison, a bad block or a good one (R375). -/
theorem blockCheck_eq (s : State) (b : Nat) : blockCheck s b =
    if b ∈ s.mem.poison then .stored else if b ∈ s.mem.bad then .other else .good := by
  have hnot : ∀ x : Word, ~~~x ≠ x := fun x h => absurd (congrArg (·.getLsbD 0) h) (by simp)
  have hflip : ∀ x : Word, x ^^^ 1 ≠ x := fun x h => absurd (congrArg (·.getLsbD 0) h) (by simp)
  have hflip' : ∀ x : Word, x ^^^ 1 ≠ ~~~x := fun x h => absurd (congrArg (·.getLsbD 1) h) (by simp)
  unfold blockCheck storedCode
  generalize ownCode s b = code
  generalize Config.badCode s.ticks b = w
  dsimp only
  by_cases hp : b ∈ s.mem.poison
  · simp [hp, codeCheck, hnot]
  by_cases hb : b ∈ s.mem.bad
  · by_cases hw : w = code ∨ w = ~~~code
    · simp [hp, hb, hw, codeCheck, hflip]
      exact hflip' code
    · simp only [not_or] at hw
      simp [hp, hb, hw, codeCheck]
  · simp [hp, hb, codeCheck]

/-- A read of a poisoned block. -/
theorem dramCheck_stored {b : Nat} {s : State} (hb : dramBlocked s (64 * b) = false) (hp : b ∈ s.mem.poison) :
    dramCheck b s = dramCount 2 (dramChannel s (64 * b)) (s.setFlag DRAM_EVENT.STORED true) := by
  simp only [dramCheck, hb, blockCheck_eq, hp, Bool.false_eq_true, if_false, if_true]

/-- The trace of new poison. -/
def poisonShown (b : Nat) (s : State) : State :=
  dramFlag DRAM_EVENT.POISON .warning (dramChannel s (64 * b)) 0 (dramCount 1 (dramChannel s (64 * b))
    ((s.setFld DRAM_POISON_ADDR_LO.ADDR ((0x800000000 + 64 * b) / 64)).setFld DRAM_POISON_ADDR_HI.ADDR ((0x800000000 + 64 * b) / 2 ^ 32)))

/-- A read of a bad block. -/
theorem dramCheck_bad {b : Nat} {s : State} (hb : dramBlocked s (64 * b) = false) (hp : b ∉ s.mem.poison) (hbad : b ∈ s.mem.bad) :
    dramCheck b s = poisonShown b s := by
  simp only [dramCheck, hb, blockCheck_eq, hp, hbad, Bool.false_eq_true, if_false, if_true]
  rfl

theorem dramFlag_shown {f : Fld} (hf : f.fits = true) (hw : f.width = 1) (hovf : f.addr ≠ CALL_OVERFLOW.COUNT.addr) {cls : EventClass}
    (hc : cls ≠ .fatal) (inst detail : Nat) (s : State) : (dramFlag f cls inst detail s).flag f = true := by
  have hset : (s.orBit f (f.lo - f.lo)).fld f = 1 := by
    have hlt : s.fld f < 2 := by simpa [hw] using State.fld_lt s f
    rw [Nat.sub_self, State.orBit, State.fld_setFld_same _ _ _ hf, hw]
    interval_cases h : s.fld f <;> rfl
  rw [dramFlag, postFlag, State.flag_postEvent hc _ hovf, State.flag, hset]
  rfl

theorem poisonShown_shown (b : Nat) (s : State) : (poisonShown b s).flag DRAM_EVENT.POISON = true ∧
    (poisonShown b s).fld DRAM_POISON_ADDR_LO.ADDR = (0x800000000 + 64 * b) / 64 % 2 ^ DRAM_POISON_ADDR_LO.ADDR.width := by
  refine ⟨dramFlag_shown (by decide) rfl (by decide) (by decide) _ _ _, ?_⟩
  rw [poisonShown, dramFlag, postFlag, State.fld_postEvent (by simp) _ (by decide), State.orBit,
    State.fld_setFld_apart _ _ DRAM_EVENT.POISON _ (by decide) (by decide)]
  exact (State.fld_setFld_apart _ _ DRAM_POISON_ADDR_HI.ADDR _ (by decide) (by decide)).trans
    (State.fld_setFld_same s DRAM_POISON_ADDR_LO.ADDR _ (by decide))

/-- A check leaves the flag of stored poison. -/
theorem dramCheck_keeps_stored {b : Nat} {s : State} (h : s.flag DRAM_EVENT.STORED = true) : (dramCheck b s).flag DRAM_EVENT.STORED = true := by
  unfold dramCheck
  extract_lets ch a
  split
  · exact h
  · split
    · exact h
    · exact State.flag_setFlag_same s DRAM_EVENT.STORED true (by decide) rfl
    · rw [dramFlag, postFlag, State.flag_postEvent (by simp) _ (by decide), State.orBit,
        State.flag_setFld_apart _ _ DRAM_EVENT.POISON _ (by decide) (by decide)]
      exact (State.flag_setFld_apart _ _ DRAM_POISON_ADDR_HI.ADDR _ (by decide) (by decide)).trans
        ((State.flag_setFld_apart s _ DRAM_POISON_ADDR_LO.ADDR _ (by decide) (by decide)).trans h)

/-- A read of a span with a poisoned block shows stored poison. -/
theorem dramSeen_stored {a n b : Nat} {s : State} (hb : dramBlocked s (64 * b) = false) (hp : b ∈ s.mem.poison)
    (hin : inSpan a n b = true) : (dramSeen a n s).flag DRAM_EVENT.STORED = true := by
  have all : ∀ (l : List Nat) (t : State), Checked s t → (b ∈ l ∨ t.flag DRAM_EVENT.STORED = true) →
      (l.foldl (fun s b => dramCheck b s) t).flag DRAM_EVENT.STORED = true := by
    intro l
    induction l with
    | nil => exact fun t _ h => h.resolve_left List.not_mem_nil
    | cons c l ih =>
      intro t ht h
      refine ih _ (ht.trans (dramCheck_checked c t)) ?_
      rcases h with h | h
      · rcases List.mem_cons.1 h with rfl | h
        · change _ ∨ (dramCheck b t).flag DRAM_EVENT.STORED = true
          rw [dramCheck_stored (by rw [ht.blocked]; exact hb) (by rw [ht.poison]; exact hp)]
          exact .inr (State.flag_setFlag_same t DRAM_EVENT.STORED true (by decide) rfl)
        · exact .inl h
      · exact .inr (dramCheck_keeps_stored h)
  refine all _ _ ((Checked.refl s).dramAccess a n) (.inl ?_)
  exact List.mem_filter.2 ⟨List.mem_append_left _ hp, hin⟩

/-! ### Re-reads -/

theorem exec_dramReread {s : State} {b : Nat} (hin : 64 * b < dramSize s) (hb : dramBlocked s (64 * b) = false) (good : Bool) {t : State}
    (ht : t = dramAccess (64 * b) 64 s) : exec (.dramReread b good) s =
      if b ∈ s.mem.poison then .next (dramCheck b t)
      else if good then .next (dramFlag DRAM_EVENT.REREAD .info (dramChannel s (64 * b)) 0 (dramCount 0 (dramChannel s (64 * b))
        (setMem { t.mem with bad := t.mem.bad.filter (fun c => c != b) } t)))
      else .next (dramCheck b (if s.mem.bad.contains b then t else setMem { t.mem with bad := t.mem.bad ++ [b] } t)) := by
  subst ht
  have hnot : ¬ (dramSize s ≤ 64 * b ∨ dramBlocked s (64 * b) = true) := by
    rw [hb]
    simpa using hin
  refine (if_neg hnot).trans ?_
  have hp : (dramAccess (64 * b) 64 s).mem.poison.contains b = decide (b ∈ s.mem.poison) := by
    rw [List.contains_eq_mem]
    rfl
  simp only [hp, decide_eq_true_eq]
  rfl

/-- A good re-read is counted, and the block is good. -/
theorem dramReread_good {s : State} {b : Nat} (hin : 64 * b < dramSize s) (hb : dramBlocked s (64 * b) = false) (hp : b ∉ s.mem.poison) :
    ∃ t, exec (.dramReread b true) s = .next t ∧ t.flag DRAM_EVENT.REREAD = true ∧ t.mem.bad = s.mem.bad.filter (fun c => c != b) ∧
      t.mem.poison = s.mem.poison ∧ SameMemory s t ∧ Checked (setMem { s.mem with bad := s.mem.bad.filter (fun c => c != b) } s) t := by
  refine ⟨_, (exec_dramReread hin hb true rfl).trans ((if_neg hp).trans (if_pos rfl)),
    dramFlag_shown (by decide) rfl (by decide) (by decide) _ _ _, ?_⟩
  have hmem : Checked (setMem { s.mem with bad := s.mem.bad.filter (fun c => c != b) } s) (setMem { (dramAccess (64 * b) 64 s).mem with
      bad := (dramAccess (64 * b) 64 s).mem.bad.filter (fun c => c != b) } (dramAccess (64 * b) 64 s)) := ⟨rfl, rfl, fun _ _ => rfl⟩
  have h := (hmem.dramCount 0 (dramChannel s (64 * b))).dramFlag (f := DRAM_EVENT.REREAD) (by decide) (cls := .info) (by decide)
    (dramChannel s (64 * b)) 0
  exact ⟨h.bad, h.poison, sameMemory_of_stores h.stores, h⟩

/-- A block with the listed bad blocks is blocked as before. -/
theorem dramBlocked_setBad (l : List Nat) (s : State) (a : Nat) : dramBlocked (setMem { s.mem with bad := l } s) a = dramBlocked s a := rfl

/-! ### Writes -/

theorem partBlocks_checked (s : State) (a n : Nat) : Checked s ((partBlocks a n).foldl (fun s b => dramCheck b s) (dramAccess a n s)) :=
  ((Checked.refl s).dramAccess a n).trans (.foldl (fun s b => dramCheck_checked b s) _ _)

/-- A write keeps its registers as the checks of its partial blocks leave them. -/
theorem writeDram_regs (s : State) (a : Nat) (bs : List Byte) : RegsBut s (s.writeDram a bs) checkRegs :=
  (partBlocks_checked s a bs.length).regs

/-- Bytes that a training helper keeps waiting. -/
theorem writeDram_held {s : State} {a : Nat} {bs : List Byte} (hne : bs ≠ []) (hunit : a % 256 + bs.length ≤ 256)
    (ht : dramTraining s a = true) (hf : dramFenced s a = false) :
    (s.writeDram a bs).dram = s.dram ∧ (s.writeDram a bs).mem.held = s.mem.held ++ [{ at_ := a, bytes := bs, poison := false }] := by
  have hop : s.mem.trnOp ≠ none := fun h => by simp [dramTraining, h] at ht
  have hpos : 0 < bs.length := List.length_pos_iff.2 hne
  have hunits : dramUnits a bs = [(a, bs)] := by
    have hone : (a % 256 + bs.length + 255) / 256 = 1 := by omega
    have hlo : max a (a / 256 * 256 + 256 * 0) = a := by omega
    have htake : bs.take (256 - a % 256) = bs := List.take_of_length_le (by omega)
    simp only [dramUnits, hone, List.range_one, List.map_cons, List.map_nil, hlo, Nat.sub_self, List.drop_zero, htake]
  refine ⟨?_, ?_⟩
  · have hblocked : ∀ i < bs.length, dramBlocked s (a + i) = true := fun i hi => by
      have hchan : dramChannel s (a + i) = dramChannel s a := by
        simp only [dramChannel, show (a + i) / 256 = a / 256 by omega]
      have htr : dramTraining s (a + i) = dramTraining s a := by simp only [dramTraining, hchan]
      rw [dramBlocked, htr, ht, Bool.or_true]
    have hnot : ¬ (s.fld DRAM_MAP.FENCED = 0 ∧ s.mem.trnOp = none) := fun h => hop h.2
    refine (if_neg hnot).trans ?_
    have hfold : ∀ (l : List (Byte × Nat)) (d : Sparse 8), (∀ e ∈ l, dramBlocked s (a + e.2) = true) →
        l.foldl (fun d e => if dramBlocked s (a + e.2) then d else writeAt 0 d (a + e.2) e.1) d = d := by
      intro l
      induction l with
      | nil => exact fun _ _ => rfl
      | cons e l ih =>
        intro d h
        rw [List.foldl_cons, if_pos (h e List.mem_cons_self)]
        exact ih d fun e' he' => h e' (List.mem_cons_of_mem _ he')
    exact hfold _ _ fun e he => hblocked e.2 (List.snd_lt_of_mem_zipIdx he |>.trans_eq (by simp))
  · have hheld : unitsHeld s false a bs = [{ at_ := a, bytes := bs, poison := false }] := by
      have hsome : s.mem.trnOp.isNone = false := by cases h : s.mem.trnOp with | none => exact absurd h hop | some _ => rfl
      simp only [unitsHeld, hsome, hunits, Bool.false_eq_true, if_false]
      simp [ht, hf]
    change _ ++ unitsHeld s false a bs = _
    rw [hheld, (partBlocks_checked s a bs.length).held]

/-- What a write of `n` bytes at `a` leaves of block `b`, and which bad block it poisons. -/
def writeKeeps (s : State) (a n b : Nat) : Bool := !inWhole a n b || dramBlocked s (64 * b)
def writeMerges (s : State) (a n b : Nat) : Bool := inSpan a n b && !dramBlocked s (64 * b)

/-- The lists of blocks after a write (R374). -/
theorem writeDram_mem (s : State) (a : Nat) (bs : List Byte) :
    (s.writeDram a bs).mem.poison = s.mem.poison.filter (writeKeeps s a bs.length) ++
      (s.mem.bad.filter (writeKeeps s a bs.length)).filter (writeMerges s a bs.length) ∧
    (s.writeDram a bs).mem.bad = (s.mem.bad.filter (writeKeeps s a bs.length)).filter (fun b => !writeMerges s a bs.length b) ∧
    (s.writeDram a bs).mem.codeBuf = if bs.length = 0 then s.mem.codeBuf
      else s.mem.codeBuf ++ [(a / 64, (a + bs.length + 63) / 64 - a / 64)] := by
  have h := partBlocks_checked s a bs.length
  obtain ⟨t, ht⟩ : ∃ t, t = (partBlocks a bs.length).foldl (fun s b => dramCheck b s) (dramAccess a bs.length s) := ⟨_, rfl⟩
  rw [← ht] at h
  have hkeep : writeKeeps t a bs.length = writeKeeps s a bs.length := funext fun b => by rw [writeKeeps, writeKeeps, h.blocked]
  have hmerge : writeMerges t a bs.length = writeMerges s a bs.length := funext fun b => by rw [writeMerges, writeMerges, h.blocked]
  have hmem : (s.writeDram a bs).mem = { memWritten t a bs.length with held := t.mem.held ++ unitsHeld s false a bs } := by rw [ht]; rfl
  refine ⟨?_, ?_, ?_⟩
  · rw [hmem, ← hkeep, ← hmerge, ← h.poison, ← h.bad]
    rfl
  · rw [hmem, ← hkeep, ← hmerge, ← h.bad]
    rfl
  · rw [hmem, ← h.codeBuf]
    rfl

/-- A block written whole is good, and its code waits in the buffer. -/
theorem writeDram_whole {s : State} {b : Nat} {bs : List Byte} (hlen : bs.length = 64) (hb : dramBlocked s (64 * b) = false) :
    b ∉ (s.writeDram (64 * b) bs).mem.poison ∧ b ∉ (s.writeDram (64 * b) bs).mem.bad ∧
      codeHeld (s.writeDram (64 * b) bs) b = true ∧ (s.writeDram (64 * b) bs).regs = s.regs := by
  obtain ⟨hp, hbad, hcode⟩ := writeDram_mem s (64 * b) bs
  have hwhole : inWhole (64 * b) 64 b = true := by simp [inWhole]
  have hkeep : writeKeeps s (64 * b) 64 b = false := by rw [writeKeeps, hwhole, hb]; rfl
  have hpart : partBlocks (64 * b) 64 = [] := by
    have h1 : 64 * b / 64 = b := by omega
    have h2 : (64 * b + 64 - 1) / 64 = b := by omega
    simp only [partBlocks, h1, h2, show ¬ (64 = 0) by decide, if_false]
    simp [hwhole]
  have hregs : (s.writeDram (64 * b) bs).regs = ((partBlocks (64 * b) bs.length).foldl (fun s b => dramCheck b s)
      (dramAccess (64 * b) bs.length s)).regs := rfl
  refine ⟨?_, ?_, ?_, ?_⟩
  · rw [hp, hlen]
    simp [hkeep]
  · rw [hbad, hlen]
    simp [hkeep]
  · rw [codeHeld, hcode, hlen, if_neg (by decide), List.any_append, Bool.or_eq_true]
    refine .inr ?_
    have h1 : 64 * b / 64 = b := by omega
    have h2 : (64 * b + 64 + 63) / 64 = b + 1 := by omega
    simp [h1, h2]
  · rw [hregs, hlen, hpart]
    rfl

/-- A partial write of a bad block poisons it. -/
theorem writeDram_part {s : State} {a : Nat} {bs : List Byte} (hne : bs ≠ []) (hlen : a % 64 + bs.length < 64)
    (hb : dramBlocked s (64 * (a / 64)) = false) (hp : a / 64 ∉ s.mem.poison) (hbad : a / 64 ∈ s.mem.bad) :
    a / 64 ∈ (s.writeDram a bs).mem.poison ∧ a / 64 ∉ (s.writeDram a bs).mem.bad ∧
      (s.writeDram a bs).flag DRAM_EVENT.POISON = true := by
  obtain ⟨hpo, hba, -⟩ := writeDram_mem s a bs
  have hpos : 0 < bs.length := List.length_pos_iff.2 hne
  have hnotWhole : inWhole a bs.length (a / 64) = false := by
    simp only [inWhole, Bool.and_eq_false_iff, decide_eq_false_iff_not]
    right
    omega
  have hspan : inSpan a bs.length (a / 64) = true := by
    simp only [inSpan, Bool.and_eq_true, decide_eq_true_eq]
    omega
  have hkeep : writeKeeps s a bs.length (a / 64) = true := by rw [writeKeeps, hnotWhole]; rfl
  have hmerge : writeMerges s a bs.length (a / 64) = true := by rw [writeMerges, hspan, hb]; rfl
  have hpart : partBlocks a bs.length = [a / 64] := by
    have h2 : (a + bs.length - 1) / 64 = a / 64 := by omega
    simp only [partBlocks, hpos.ne', h2, if_false]
    simp [hnotWhole]
  have hregs : (s.writeDram a bs).regs = (dramCheck (a / 64) (dramAccess a bs.length s)).regs := by
    have : (s.writeDram a bs).regs = ((partBlocks a bs.length).foldl (fun s b => dramCheck b s) (dramAccess a bs.length s)).regs := rfl
    rw [this, hpart]
    rfl
  refine ⟨?_, ?_, ?_⟩
  · rw [hpo]
    simp [hbad, hkeep, hmerge]
  · rw [hba]
    simp [hmerge]
  · have hcheck := dramCheck_bad (b := a / 64) (s := dramAccess a bs.length s) hb hp hbad
    rw [State.flag, State.fld_congr hregs, hcheck]
    exact (poisonShown_shown _ _).1

/-! ### Panic at a tick -/

/-- The registers in which panic shows. -/
def panicRegs : List Nat :=
  [DRAM_STATUS.PANIC.addr, DRAM_PANIC_CNT.EPISODES.addr, DRAM_EVENT.PANIC.addr, CALL_OVERFLOW.COUNT.addr]

/-- What the panic of the other ports leaves for port `p`. -/
structure PanicKeeps (p : Nat) (s t : State) : Prop where
  state : ∃ r l c g, t = { s with regs := r, mem := { s.mem with panicAt := l }, call := c, ledger := g }
  len : t.mem.panicAt.length = s.mem.panicAt.length
  since : panicSince t p = panicSince s p
  regs : RegsBut s t panicRegs
  bit : (t.fld DRAM_STATUS.PANIC).testBit p = (s.fld DRAM_STATUS.PANIC).testBit p
  max : s.fld DRAM_PANIC_CNT.MAX_US ≤ t.fld DRAM_PANIC_CNT.MAX_US
  shown : s.flag DRAM_EVENT.PANIC = true → t.flag DRAM_EVENT.PANIC = true
  first : s.fld DRAM_PANIC_CNT.EPISODES = 0 → t.fld DRAM_PANIC_CNT.EPISODES = 0 ∨ t.flag DRAM_EVENT.PANIC = true

namespace PanicKeeps

variable {p q : Nat} {s t u : State}

theorem refl (p : Nat) (s : State) : PanicKeeps p s s :=
  ⟨⟨_, _, _, _, rfl⟩, rfl, rfl, fun _ _ => rfl, rfl, le_refl _, fun h => h, fun h => .inl h⟩

theorem trans (h : PanicKeeps p s t) (h' : PanicKeeps p t u) : PanicKeeps p s u := by
  obtain ⟨r, l, c, g, hs⟩ := h.state
  obtain ⟨r', l', c', g', hs'⟩ := h'.state
  refine ⟨⟨r', l', c', g', by rw [hs', hs]⟩, h'.len.trans h.len, h'.since.trans h.since, fun a ha => (h'.regs a ha).trans (h.regs a ha),
    h'.bit.trans h.bit, h.max.trans h'.max, fun hf => h'.shown (h.shown hf), fun hf => ?_⟩
  exact (h.first hf).elim h'.first fun hf => .inr (h'.shown hf)

theorem level (h : PanicKeeps p s t) (k : Nat) : panicLevel t k = panicLevel s k := by
  have hon : t.domainOn 21 = s.domainOn 21 := by
    rw [State.domainOn, State.domainOn, State.fld_congr_word (h.regs _ (by decide))]
  obtain ⟨r, l, c, g, hs⟩ := h.state
  rw [panicLevel, panicLevel, hon, hs]
  rfl

theorem occ (h : PanicKeeps p s t) (k : Nat) : fifoOcc t k = fifoOcc s k := by
  obtain ⟨r, l, c, g, hs⟩ := h.state
  rw [hs]
  rfl

theorem ticks (h : PanicKeeps p s t) : t.ticks = s.ticks := by
  obtain ⟨r, l, c, g, hs⟩ := h.state
  rw [hs]

end PanicKeeps

/-- The bits of a byte after bit `n` is set or cleared. -/
theorem byte_bits : ∀ x < 256, ∀ n < 8, ∀ p < 8,
    ((if x.testBit n then x - 2 ^ n else x) % 256).testBit p = (x.testBit p && decide (n ≠ p)) := by decide +kernel

theorem clrBit_panic (s : State) {n p : Nat} (hn : n < 8) (hp : p < 8) :
    ((s.clrBit DRAM_STATUS.PANIC n).fld DRAM_STATUS.PANIC).testBit p = ((s.fld DRAM_STATUS.PANIC).testBit p && decide (n ≠ p)) := by
  rw [State.clrBit, State.fld_setFld_same _ DRAM_STATUS.PANIC _ (by decide)]
  exact byte_bits _ (State.fld_lt s DRAM_STATUS.PANIC) n hn p hp

/-- An episode of port `p` has begun. -/
def panicBegun (p : Nat) (s : State) : State :=
  (setMem { s.mem with panicAt := s.mem.panicAt.set p (some s.ticks) } (s.orBit DRAM_STATUS.PANIC p)).addFld DRAM_PANIC_CNT.EPISODES 1

theorem panicBegin_eq (p : Nat) (s : State) : panicBegin p s =
    if s.fld DRAM_PANIC_CNT.EPISODES = 0 then dramFlag DRAM_EVENT.PANIC .info 0xFF 0 (panicBegun p s) else panicBegun p s := by
  unfold panicBegin
  extract_lets first s1 s2
  by_cases h : s.fld DRAM_PANIC_CNT.EPISODES = 0
  · rw [if_pos h, if_pos (by simpa [first] using h)]
    rfl
  · rw [if_neg h, if_neg (by simpa [first] using h)]
    rfl

theorem dramPanicFlag_fld (s : State) {f : Fld} (h : f.apart DRAM_EVENT.PANIC = true) (h' : f.addr ≠ CALL_OVERFLOW.COUNT.addr) :
    (dramFlag DRAM_EVENT.PANIC .info 0xFF 0 s).fld f = s.fld f := by
  rw [dramFlag, postFlag, State.fld_postEvent (by simp) _ h', State.orBit, State.fld_setFld_apart _ _ DRAM_EVENT.PANIC _ (by decide) h]

/-- What the beginning of an episode shows. -/
theorem panicBegin_shown (p : Nat) (s : State) : (∃ r l c g, panicBegin p s = { s with
      regs := r, mem := { s.mem with panicAt := l }, call := c, ledger := g } ∧ l = s.mem.panicAt.set p (some s.ticks)) ∧
    RegsBut s (panicBegin p s) panicRegs ∧ (panicBegin p s).fld DRAM_STATUS.PANIC = (s.orBit DRAM_STATUS.PANIC p).fld DRAM_STATUS.PANIC ∧
    (panicBegin p s).fld DRAM_PANIC_CNT.MAX_US = s.fld DRAM_PANIC_CNT.MAX_US ∧
    (s.flag DRAM_EVENT.PANIC = true ∨ s.fld DRAM_PANIC_CNT.EPISODES = 0 → (panicBegin p s).flag DRAM_EVENT.PANIC = true) := by
  have hregs : RegsBut s (panicBegun p s) panicRegs :=
    ((RegsBut.refl s panicRegs).setFld (f := DRAM_STATUS.PANIC) (by decide) _).setFld (f := DRAM_PANIC_CNT.EPISODES) (by decide) _
  have hbit : (panicBegun p s).fld DRAM_STATUS.PANIC = (s.orBit DRAM_STATUS.PANIC p).fld DRAM_STATUS.PANIC :=
    State.fld_setFld_apart _ _ DRAM_PANIC_CNT.EPISODES _ (by decide) (by decide)
  have hmax : (panicBegun p s).fld DRAM_PANIC_CNT.MAX_US = s.fld DRAM_PANIC_CNT.MAX_US :=
    (State.fld_setFld_apart _ _ DRAM_PANIC_CNT.EPISODES _ (by decide) (by decide)).trans
      (State.fld_setFld_apart s _ DRAM_STATUS.PANIC _ (by decide) (by decide))
  have hflag : (panicBegun p s).flag DRAM_EVENT.PANIC = s.flag DRAM_EVENT.PANIC :=
    (State.flag_setFld_apart _ _ DRAM_PANIC_CNT.EPISODES _ (by decide) (by decide)).trans
      (State.flag_setFld_apart s _ DRAM_STATUS.PANIC _ (by decide) (by decide))
  rw [panicBegin_eq]
  split
  · next h0 =>
    obtain ⟨r, c, l, hpost, -⟩ := postEvent_frame (e := { cls := .info, block := 12, cause := DRAM_EVENT.PANIC.lo, inst := 0xFF, detail := 0 })
      (by simp) ((panicBegun p s).orBit DRAM_EVENT.PANIC (DRAM_EVENT.PANIC.lo - DRAM_EVENT.PANIC.lo))
    refine ⟨⟨r, _, c, l, hpost.trans rfl, rfl⟩, ?_, (dramPanicFlag_fld _ (by decide) (by decide)).trans hbit,
      (dramPanicFlag_fld _ (by decide) (by decide)).trans hmax, fun _ => dramFlag_shown (by decide) rfl (by decide) (by decide) _ _ _⟩
    exact (hregs.setFld (f := DRAM_EVENT.PANIC) (by decide) _).postEvent (by simp) (by decide)
  · next h0 => exact ⟨⟨_, _, _, _, rfl, rfl⟩, hregs, hbit, hmax, fun h => hflag.trans (h.resolve_right h0)⟩

/-- What the end of an episode shows. -/
theorem panicEnd_shown (p k : Nat) (s : State) : (∃ r, panicEnd p k s = { s with
      regs := r, mem := { s.mem with panicAt := s.mem.panicAt.set p none } }) ∧
    RegsBut s (panicEnd p k s) panicRegs ∧ (panicEnd p k s).fld DRAM_STATUS.PANIC = (s.clrBit DRAM_STATUS.PANIC p).fld DRAM_STATUS.PANIC ∧
    (panicEnd p k s).fld DRAM_PANIC_CNT.MAX_US = max (s.fld DRAM_PANIC_CNT.MAX_US) (min 0xFFFF ((s.ticks - k) / 400)) ∧
    (panicEnd p k s).flag DRAM_EVENT.PANIC = s.flag DRAM_EVENT.PANIC ∧
    (panicEnd p k s).fld DRAM_PANIC_CNT.EPISODES = s.fld DRAM_PANIC_CNT.EPISODES := by
  have hmax : (s.clrBit DRAM_STATUS.PANIC p).fld DRAM_PANIC_CNT.MAX_US = s.fld DRAM_PANIC_CNT.MAX_US :=
    State.fld_setFld_apart s _ DRAM_STATUS.PANIC _ (by decide) (by decide)
  have hlt : max (s.fld DRAM_PANIC_CNT.MAX_US) (min 0xFFFF ((s.ticks - k) / 400)) < 2 ^ 16 := by
    have : s.fld DRAM_PANIC_CNT.MAX_US < 2 ^ 16 := State.fld_lt s DRAM_PANIC_CNT.MAX_US
    omega
  refine ⟨⟨_, rfl⟩, ((RegsBut.refl s panicRegs).setFld (f := DRAM_STATUS.PANIC) (by decide) _).setFld
    (f := DRAM_PANIC_CNT.MAX_US) (by decide) _, State.fld_setFld_apart _ _ DRAM_PANIC_CNT.MAX_US _ (by decide) (by decide), ?_, ?_, ?_⟩
  · have hset := State.fld_setFld_lt (setMem { s.mem with panicAt := s.mem.panicAt.set p none } (s.clrBit DRAM_STATUS.PANIC p))
      DRAM_PANIC_CNT.MAX_US _ (by decide) hlt
    rw [← hmax] at hset ⊢
    exact hset
  · exact (State.flag_setFld_apart _ _ DRAM_PANIC_CNT.MAX_US _ (by decide) (by decide)).trans
      (State.flag_setFld_apart s _ DRAM_STATUS.PANIC _ (by decide) (by decide))
  · exact (State.fld_setFld_apart _ _ DRAM_PANIC_CNT.MAX_US _ (by decide) (by decide)).trans
      (State.fld_setFld_apart s _ DRAM_STATUS.PANIC _ (by decide) (by decide))

theorem panicSince_set_ne {s t : State} {p q : Nat} (h : q ≠ p) {x : Option Nat} (ht : t.mem.panicAt = s.mem.panicAt.set q x) :
    panicSince t p = panicSince s p := by
  rw [panicSince, panicSince, ht, List.getElem?_set_ne h]

theorem panicSince_set_same {s t : State} {p : Nat} (hp : p < s.mem.panicAt.length) {x : Option Nat}
    (ht : t.mem.panicAt = s.mem.panicAt.set p x) : panicSince t p = x := by
  rw [panicSince, ht, List.getElem?_set_self hp]
  rfl

theorem panicBegin_keeps {p q : Nat} (hq : q < 8) (h : q ≠ p) (s : State) : PanicKeeps p s (panicBegin q s) := by
  obtain ⟨⟨r, l, c, g, hs, hl⟩, hregs, hbit, hmax, hflag⟩ := panicBegin_shown q s
  have hat : (panicBegin q s).mem.panicAt = s.mem.panicAt.set q (some s.ticks) := by rw [hs, ← hl]
  refine ⟨⟨r, l, c, g, hs⟩, by rw [hat, List.length_set], panicSince_set_ne h hat, hregs, ?_, hmax.ge, fun hf => hflag (.inl hf),
    fun h0 => .inr (hflag (.inr h0))⟩
  rw [hbit, State.testBit_orBit s DRAM_STATUS.PANIC p (by decide) hq, decide_eq_false h, Bool.or_false]

theorem panicEnd_keeps {p q : Nat} (hp : p < 8) (hq : q < 8) (h : q ≠ p) (k : Nat) (s : State) : PanicKeeps p s (panicEnd q k s) := by
  obtain ⟨⟨r, hs⟩, hregs, hbit, hmax, hflag, hep⟩ := panicEnd_shown q k s
  have hat : (panicEnd q k s).mem.panicAt = s.mem.panicAt.set q none := by rw [hs]
  refine ⟨⟨r, _, _, _, hs⟩, by rw [hat, List.length_set], panicSince_set_ne h hat, hregs, ?_, ?_, fun hf => hflag.trans hf,
    fun h0 => .inl (hep.trans h0)⟩
  · rw [hbit, clrBit_panic s hq hp, decide_eq_true h, Bool.and_true]
  · rw [hmax]
    exact le_max_left ..

theorem panicPort_keeps {p q : Nat} (hp : p < 8) (hq : q < 8) (h : q ≠ p) (s : State) : PanicKeeps p s (panicPort s q) := by
  unfold panicPort
  split
  · exact .refl p s
  · split
    · exact panicBegin_keeps hq h s
    · exact .refl p s
  · exact panicEnd_keeps hp hq h _ s
  · split
    · exact panicEnd_keeps hp hq h _ s
    · exact .refl p s

theorem panicPorts_keep {p : Nat} (hp : p < 8) {l : List Nat} (hl : ∀ q ∈ l, q < 8 ∧ q ≠ p) (s : State) :
    PanicKeeps p s (l.foldl panicPort s) := by
  induction l generalizing s with
  | nil => exact .refl p s
  | cons q l ih =>
    obtain ⟨hq, hne⟩ := hl q List.mem_cons_self
    exact (panicPort_keeps hp hq hne s).trans (ih (fun r hr => hl r (List.mem_cons_of_mem _ hr)) _)

/-- Port `p` has its turn once at a tick, between turns of other ports. -/
theorem panicTick_turn {p : Nat} (hp : p < 8) (s : State) :
    ∃ u, PanicKeeps p s u ∧ PanicKeeps p (panicPort u p) (panicTick s) := by
  have hsplit : List.range 8 = List.range p ++ p :: (List.range (7 - p)).map (p + 1 + ·) := by
    interval_cases p <;> rfl
  refine ⟨(List.range p).foldl panicPort s, panicPorts_keep hp (fun q hq => ?_) s, ?_⟩
  · have := List.mem_range.1 hq
    omega
  · rw [panicTick, hsplit, List.foldl_append, List.foldl_cons]
    refine panicPorts_keep hp (fun q hq => ?_) _
    obtain ⟨i, hi, rfl⟩ := List.mem_map.1 hq
    have := List.mem_range.1 hi
    omega

/-- A tick for which nothing waits. -/
theorem step_panic {s : State} (hp : s.pending = []) (hn : s.clock.next = []) : ∃ t, step s = .next t ∧ t.regs = (panicTick s).regs ∧
    t.mem = (panicTick s).mem := by
  have hclock : ({ s.clock with next := [] } : TimeState) = s.clock := by rw [← hn]
  have hstart : tickStart s = panicTick s := by
    rw [tickStart, hclock, hn]
    rfl
  refine ⟨clockTick s, by simp only [step, hp], ?_⟩
  rw [clockTick_eq, hstart]
  generalize panicTick s = u
  exact ⟨rfl, rfl⟩

/-- An episode of port `p` begins at a tick. -/
theorem panicTick_begins {s : State} {p l : Nat} (hp : p < 8) (hlen : s.mem.panicAt.length = 8) (hs : panicSince s p = none)
    (hl : panicLevel s p = some l) (hf : panicFrom p l (fifoOcc s p) = true) :
    ((panicTick s).fld DRAM_STATUS.PANIC).testBit p = true ∧ panicSince (panicTick s) p = some s.ticks ∧
      (s.fld DRAM_PANIC_CNT.EPISODES = 0 → (panicTick s).flag DRAM_EVENT.PANIC = true) := by
  obtain ⟨u, hu, hlast⟩ := panicTick_turn hp s
  have hport : panicPort u p = panicBegin p u := by
    simp only [panicPort, hu.since, hs, hu.level, hl, hu.occ, hf, if_true]
  rw [hport] at hlast
  obtain ⟨⟨r, m, c, g, hstate, hm⟩, -, hbit, -, hflag⟩ := panicBegin_shown p u
  have hat : (panicBegin p u).mem.panicAt = u.mem.panicAt.set p (some u.ticks) := by rw [hstate, ← hm]
  refine ⟨?_, ?_, fun h0 => hlast.shown (hflag (hu.first h0).symm)⟩
  · rw [hlast.bit, hbit, State.testBit_orBit u DRAM_STATUS.PANIC p (by decide) hp]
    simp
  · rw [hlast.since, panicSince_set_same (by rw [hu.len, hlen]; exact hp) hat, hu.ticks]

/-- The episode of port `p` ends at a tick. -/
theorem panicTick_ends {s : State} {p l k : Nat} (hp : p < 8) (hlen : s.mem.panicAt.length = 8) (hs : panicSince s p = some k)
    (hl : panicLevel s p = some l) (ho : panicOver p l (fifoOcc s p) = true) :
    ((panicTick s).fld DRAM_STATUS.PANIC).testBit p = false ∧ panicSince (panicTick s) p = none ∧
      min 0xFFFF ((s.ticks - k) / 400) ≤ (panicTick s).fld DRAM_PANIC_CNT.MAX_US := by
  obtain ⟨u, hu, hlast⟩ := panicTick_turn hp s
  have hport : panicPort u p = panicEnd p k u := by
    simp only [panicPort, hu.since, hs, hu.level, hl, hu.occ, ho, if_true]
  rw [hport] at hlast
  obtain ⟨⟨r, hstate⟩, -, hbit, hmax, -, -⟩ := panicEnd_shown p k u
  have hat : (panicEnd p k u).mem.panicAt = u.mem.panicAt.set p none := by rw [hstate]
  refine ⟨?_, ?_, ?_⟩
  · rw [hlast.bit, hbit, clrBit_panic u hp hp]
    simp
  · rw [hlast.since, panicSince_set_same (by rw [hu.len, hlen]; exact hp) hat]
  · refine le_trans ?_ hlast.max
    rw [hmax, hu.ticks]
    exact le_max_right ..

/-! ### Upkeep -/

theorem keyGet_keyDel_ne {κ α : Type} [DecidableEq κ] (l : List (κ × α)) {k j : κ} (h : j ≠ k) : keyGet (keyDel l k) j = keyGet l j := by
  induction l with
  | nil => rfl
  | cons e l ih =>
    obtain ⟨i, x⟩ := e
    by_cases hi : i = k
    · have hdel : keyDel ((i, x) :: l) k = keyDel l k := by simp [keyDel, hi]
      rw [hdel, ih, keyGet, if_neg fun he : i = j => h (he.symm.trans hi)]
    · have hdel : keyDel ((i, x) :: l) k = (i, x) :: keyDel l k := by simp [keyDel, hi]
      rw [hdel, keyGet, keyGet, ih]

/-- A list read by its indices. -/
theorem keyGet_zipIdx {α : Type} (l : List α) (n k : Nat) :
    keyGet ((l.zipIdx n).map (fun e => (e.2, e.1))) k = if n ≤ k then l[k - n]? else none := by
  induction l generalizing n with
  | nil => simp [keyGet]
  | cons x l ih =>
    rw [List.zipIdx_cons, List.map_cons, keyGet]
    by_cases hk : n = k
    · simp [hk]
    · rw [if_neg hk, ih]
      by_cases hle : n ≤ k
      · have hsub : k - n = k - (n + 1) + 1 := by omega
        rw [if_pos hle, if_pos (by omega), hsub, List.getElem?_cons_succ]
      · rw [if_neg hle, if_neg (by omega)]

/-- The steps by which the tracking has moved a delay. -/
def tracked (s : State) (k : Nat) : Int := (keyGet s.mem.tracked k).getD 0

theorem dramFlag_frame (f : Fld) {cls : EventClass} (hc : cls ≠ .fatal) (inst detail : Nat) (s : State) :
    ∃ r c l, dramFlag f cls inst detail s = { s with regs := r, call := c, ledger := l } := by
  obtain ⟨r, c, l, h, -⟩ := postEvent_frame (e := { cls := cls, block := 12, cause := f.lo, inst := inst, detail := detail }) hc
    (s.orBit f (f.lo - f.lo))
  exact ⟨r, c, l, h⟩

theorem trackDelay_shown (delay : Nat) (d : Int) (s : State) : (trackDelay delay d s).stores = s.stores ∧
    ∀ k, tracked (trackDelay delay d s) k = if k = delay then max (-8) (min 8 (tracked s delay + d)) else tracked s k := by
  obtain ⟨u, hu⟩ : ∃ u, u = setMem { s.mem with tracked := keySet s.mem.tracked delay (max (-8) (min 8 (tracked s delay + d))) } s := ⟨_, rfl⟩
  have htrack : ∀ k, tracked u k = if k = delay then max (-8) (min 8 (tracked s delay + d)) else tracked s k := fun k => by
    rw [hu]
    change (keyGet (keySet s.mem.tracked delay _) k).getD 0 = _
    by_cases hk : k = delay
    · rw [hk, keyGet_keySet_same, if_pos rfl]
      rfl
    · rw [keyGet_keySet_ne _ _ hk, if_neg hk]
      rfl
  have heq : trackDelay delay d s = if 8 < tracked s delay + d ∨ tracked s delay + d < -8 then
      dramFlag DRAM_EVENT.DRIFT .warning (delay / 4) 0 (u.setFlag DRAM_STATUS.DRIFT true) else u := by rw [hu]; rfl
  have hstores : u.stores = s.stores := by rw [hu]; rfl
  rw [heq]
  split
  · obtain ⟨r, c, l, hpost⟩ := dramFlag_frame DRAM_EVENT.DRIFT (cls := .warning) (by decide) (delay / 4) 0 (u.setFlag DRAM_STATUS.DRIFT true)
    rw [hpost]
    exact ⟨hstores, htrack⟩
  · exact ⟨hstores, htrack⟩

/-- The tracking of one delay of the drifts `l`. -/
def trackStep (s : State) (e : Int × Nat) : State := if e.1 = 0 then s else trackDelay e.2 e.1 s

theorem trackStep_shown (s : State) (e : Int × Nat) : (trackStep s e).stores = s.stores ∧
    ∀ k, k ≠ e.2 → tracked (trackStep s e) k = tracked s k := by
  unfold trackStep
  split
  · exact ⟨rfl, fun _ _ => rfl⟩
  · obtain ⟨h, h'⟩ := trackDelay_shown e.2 e.1 s
    exact ⟨h, fun k hk => (h' k).trans (if_neg hk)⟩

/-- The drifts of other delays leave a delay as it is. -/
theorem trackAll_keeps (l : List Int) {n k : Nat} (hk : k < n) (s : State) : tracked ((l.zipIdx n).foldl trackStep s) k = tracked s k := by
  induction l generalizing n s with
  | nil => rfl
  | cons d l ih =>
    rw [List.zipIdx_cons, List.foldl_cons, ih (Nat.lt_succ_of_lt hk)]
    exact (trackStep_shown s (d, n)).2 k hk.ne

/-- Each delay moves by its own drift. -/
theorem trackAll_moves (l : List Int) {n i : Nat} {d : Int} (hi : l[i]? = some d) (hd : d ≠ 0) (s : State) :
    tracked ((l.zipIdx n).foldl trackStep s) (n + i) = max (-8) (min 8 (tracked s (n + i) + d)) := by
  induction l generalizing n i s with
  | nil => simp at hi
  | cons c l ih =>
    rw [List.zipIdx_cons, List.foldl_cons]
    cases i with
    | zero =>
      have hc : c = d := by simpa using hi
      change tracked ((l.zipIdx (n + 1)).foldl trackStep (trackStep s (c, n))) n = max (-8) (min 8 (tracked s n + d))
      rw [trackAll_keeps l (Nat.lt_succ_self n), hc, trackStep, if_neg hd]
      exact ((trackDelay_shown n d s).2 n).trans (if_pos rfl)
    | succ i =>
      rw [show n + (i + 1) = n + 1 + i by omega, ih (by simpa using hi)]
      rw [(trackStep_shown s (c, n)).2 (n + 1 + i) (by simp only; omega)]

theorem trackAll_stores (l : List (Int × Nat)) (s : State) : (l.foldl trackStep s).stores = s.stores :=
  foldl_stores _ (fun s e => (trackStep_shown s e).1) l s

/-- A refresh that is postponed counts up to eight; one that is issued counts down. -/
theorem postponed_count (l : List (Nat × Nat)) (bank n : Nat) :
    (keyGet (if n = 0 then keyDel l bank else keySet l bank n) bank).getD 0 = n := by
  split
  · next h => rw [keyGet_keyDel_same, h]; rfl
  · rw [keyGet_keySet_same]; rfl

/-! ### Loads and the code buffers -/

/-- Blocks whose code is stored as poison. -/
theorem storePoison_one {b : Nat} {s : State} (hb : dramBlocked s (64 * b) = false) : b ∈ (storePoison [b] s).mem.poison ∧
    b ∉ (storePoison [b] s).mem.bad ∧ (storePoison [b] s).mem.codeBuf = s.mem.codeBuf ∧ (storePoison [b] s).stores = s.stores := by
  have hlive : [b].dedup.filter (fun b => !dramBlocked s (64 * b)) = [b] := by simp [hb]
  have heq : storePoison [b] s = setMem { s.mem with
      poison := s.mem.poison ++ [b].filter (fun b => !s.mem.poison.contains b)
      bad := s.mem.bad.filter (fun c => !([b].contains c)) } s := by simp only [storePoison, hlive]
  rw [heq]
  refine ⟨?_, ?_, rfl, rfl⟩
  · change b ∈ s.mem.poison ++ _
    by_cases hp : b ∈ s.mem.poison
    · exact List.mem_append_left _ hp
    · exact List.mem_append_right _ (by simp [hp])
  · change b ∉ s.mem.bad.filter _
    simp

theorem exec_codeWriteback_one {s : State} {b : Nat} (hin : 64 * b < dramSize s) (hb : dramBlocked s (64 * b) = false)
    (hheld : codeHeld s b = true) {t : State} (ht : t = storePoison [b] (dramAccess (64 * b) 64 (setMem { s.mem with codeBuf := [] } s))) :
    exec (.dramCodeWriteback [b]) s = .next (dramFlag DRAM_EVENT.CODEBUF .recoverable (dramChannel t (64 * b)) 0 t) := by
  subst ht
  have hblocks : [b].filter (fun b => codeHeld s b && (decide (64 * b < dramSize s) && !dramBlocked s (64 * b))) = [b] := by
    simp [hheld, hin, hb]
  change execDramCodeWriteback [b] s = _
  simp only [execDramCodeWriteback, hblocks, List.foldl_cons, List.foldl_nil]

/-- A Company load from DRAM. -/
theorem exec_companyLoad {s : State} {c : Fin 4} {addr : ReadAccess} {o : Nat}
    (ht : busTarget s (.company c) addr.addr.toNat (readBytes addr.size) = .dram o) :
    exec (.lowWordRead (.company c) addr) s = .next (dramLoad o (readBytes addr.size) s) := by
  change busRead (.company c) addr.addr.toNat addr.size s = _
  simp only [busRead, ht]

/-- A load from a poisoned block faults. -/
theorem dramLoad_poison {s : State} {o n : Nat} (hn : 0 < n) (hb : dramBlocked s (64 * (o / 64)) = false) (hp : o / 64 ∈ s.mem.poison) :
    (dramLoad o n s).sys.bus.error = true ∧ (dramLoad o n s).flag DRAM_EVENT.STORED = true ∧ SameMemory s (dramLoad o n s) := by
  have hin : inSpan o n (o / 64) = true := by
    simp only [inSpan, Bool.and_eq_true, decide_eq_true_eq]
    omega
  have hpois : s.poisoned o n = true := by
    rw [State.poisoned, Bool.or_eq_true]
    exact .inl (List.any_eq_true.2 ⟨o / 64, List.mem_append_left _ hp, hin⟩)
  have hseen := dramSeen_checked o n (busError s)
  have hstored := dramSeen_stored (s := busError s) (a := o) (n := n) hb hp hin
  obtain ⟨e, he, heq⟩ : ∃ e : Event, e.cls ≠ .fatal ∧ dramLoad o n s = postEvent e (dramSeen o n (busError s)) :=
    ⟨{ cls := .recoverable, block := 12, cause := 0x3FF, inst := dramChannel s o, detail := (0x800000000 + o) % 2 ^ 32 }, by simp,
      if_pos hpois⟩
  have hpost := hseen.postEvent he
  rw [heq]
  refine ⟨?_, (State.flag_postEvent he _ (by decide)).trans hstored, sameMemory_of_stores (hpost.stores.trans rfl)⟩
  rw [hpost.state]
  rfl

/-- Settles O43, by what the checks of a read and a write leave and by the turn of each port at a tick. -/
theorem dramDetectionsAndUpkeep : Obligations.DramDetectionsAndUpkeep := by
  unfold Obligations.DramDetectionsAndUpkeep
  refine ⟨?stored, ?good, ?new, ?repaired, ?load, ?blocked, ?held, ?check, ?whole, ?part, ?mismatch, ?written, ?panic, ?calm, ?refresh,
    ?poll, ?track, ?wck⟩
  case stored =>
    intro s b good hin hb hp
    have hcheck := dramCheck_stored (s := dramAccess (64 * b) 64 s) hb hp
    refine ⟨_, (exec_dramReread hin hb good rfl).trans (if_pos hp), ?_, ?_, ?_, ?_, ?_⟩ <;> rw [hcheck]
    · exact State.flag_setFlag_same _ DRAM_EVENT.STORED true (by decide) rfl
    · rfl
    · rfl
    · rfl
    · exact (RegsBut.refl s _).setFld (f := DRAM_EVENT.STORED) (by simp) _
  case good =>
    intro s b hin hb hp hbad
    obtain ⟨t, ht, hre, hbad', hpo, hmem, hck⟩ := dramReread_good hin hb hp
    have hsame : s.mem.bad.filter (fun c => c != b) = s.mem.bad :=
      List.filter_eq_self.2 fun c hc => by simpa using fun h : c = b => hbad (h ▸ hc)
    refine ⟨t, ht, hre, hbad'.trans hsame, (hck.poisoned _ _).trans ?_, hmem⟩
    rw [hsame]
    rfl
  case new =>
    intro s b hin hb hp hbad
    have hnew : s.mem.bad.contains b = false := by simpa using hbad
    obtain ⟨u, hu⟩ : ∃ u, u = setMem { (dramAccess (64 * b) 64 s).mem with bad := (dramAccess (64 * b) 64 s).mem.bad ++ [b] }
      (dramAccess (64 * b) 64 s) := ⟨_, rfl⟩
    have hcheck : dramCheck b u = poisonShown b u := by
      rw [hu]
      exact dramCheck_bad hb hp (List.mem_append_right s.mem.bad (List.mem_singleton_self b))
    have hck := hcheck ▸ dramCheck_checked b u
    obtain ⟨hflag, haddr⟩ := poisonShown_shown b u
    refine ⟨poisonShown b u, ?_, hflag, ?_, ?_, haddr, sameMemory_of_stores (hck.stores.trans (by rw [hu]; rfl))⟩
    · rw [exec_dramReread hin hb false rfl, if_neg hp, if_neg (by decide), hnew, if_neg (by decide), ← hu, hcheck]
    · rw [hck.bad, hu]
      rfl
    · rw [State.poisoned, Bool.or_eq_true, hck.bad, hck.poison]
      refine .inl (List.any_eq_true.2 ⟨b, List.mem_append_right _ ?_, by simp⟩)
      rw [hu]
      exact List.mem_append_right s.mem.bad (List.mem_singleton_self b)
  case repaired =>
    intro s b hin hb hp _
    obtain ⟨t, ht, hre, hbad, hpo, hmem, -⟩ := dramReread_good hin hb hp
    exact ⟨t, ht, hre, by simp [hbad], by rw [hpo]; exact hp, hmem⟩
  case load =>
    intro s c addr o ht hb hp
    have hn : 0 < readBytes addr.size := by cases addr.size <;> decide
    exact ⟨_, exec_companyLoad ht, dramLoad_poison hn hb hp⟩
  case blocked =>
    intro s b good hb
    exact if_pos (.inr hb)
  case held =>
    intro s a bs hne hunit ht hf
    exact writeDram_held hne hunit ht hf
  case check =>
    intro s b
    exact blockCheck_eq s b
  case whole =>
    intro s b bs hlen hb
    exact writeDram_whole hlen hb
  case part =>
    intro s a bs hne hlen hb hp hbad
    exact writeDram_part hne hlen hb hp hbad
  case mismatch =>
    intro s b hin hb hheld
    obtain ⟨hpo, hbad, hcode, hst⟩ := storePoison_one (s := dramAccess (64 * b) 64 (setMem { s.mem with codeBuf := [] } s)) hb
    obtain ⟨t, ht⟩ : ∃ t, t = storePoison [b] (dramAccess (64 * b) 64 (setMem { s.mem with codeBuf := [] } s)) := ⟨_, rfl⟩
    rw [← ht] at hpo hbad hcode hst
    have hck := (Checked.refl t).dramFlag (f := DRAM_EVENT.CODEBUF) (by decide) (cls := .recoverable) (by decide) (dramChannel t (64 * b)) 0
    exact ⟨_, exec_codeWriteback_one hin hb hheld ht, by rw [hck.poison]; exact hpo, by rw [hck.bad]; exact hbad,
      dramFlag_shown (by decide) rfl (by decide) (by decide) _ _ _, by rw [hck.codeBuf]; exact hcode,
      sameMemory_of_stores (hck.stores.trans hst)⟩
  case written =>
    intro s
    exact ⟨_, rfl, rfl, rfl, rfl, rfl⟩
  case panic =>
    intro s p l hp hn hlen hs hl hf
    obtain ⟨t, ht, hregs, hmem⟩ := step_panic hp hn
    obtain ⟨hbit, hsince, hflag⟩ := panicTick_begins p.isLt hlen hs hl hf
    refine ⟨t, ht, ?_, ?_, fun h0 => ?_⟩
    · rw [State.fld_congr hregs]
      exact hbit
    · rw [panicSince, hmem]
      exact hsince
    · rw [State.flag, State.fld_congr hregs]
      exact hflag h0
  case calm =>
    intro s p l k hp hn hlen hs hl ho
    obtain ⟨t, ht, hregs, hmem⟩ := step_panic hp hn
    obtain ⟨hbit, hsince, hmax⟩ := panicTick_ends p.isLt hlen hs hl ho
    refine ⟨t, ht, ?_, ?_, ?_⟩
    · rw [State.fld_congr hregs]
      exact hbit
    · rw [panicSince, hmem]
      exact hsince
    · rw [State.fld_congr hregs]
      exact hmax
  case refresh =>
    intro s bank postpone
    refine ⟨_, rfl, rfl, (postponed_count s.mem.postponed bank.val _).trans ?_⟩
    simp only [Bool.and_eq_true, decide_eq_true_eq]
  case poll =>
    intro s rates
    refine ⟨_, rfl, rfl, fun k => ?_⟩
    exact (keyGet_zipIdx rates 0 k).trans (if_pos (Nat.zero_le k))
  case track =>
    intro s drift delay d hd hd0
    refine ⟨_, rfl, ?_, sameMemory_of_stores (trackAll_stores _ s)⟩
    have := trackAll_moves drift (n := 0) hd hd0 s
    rw [Nat.zero_add] at this
    exact this
  case wck =>
    intro s ch
    by_cases h : s.mem.wckOff.contains ch.val = true
    · exact ⟨s, if_pos h, by simpa using h, rfl⟩
    · exact ⟨_, if_neg h, List.mem_append_right _ (List.mem_singleton_self _), rfl⟩

end Sys2Proof.Machine
end

section
/-! PROOFS. What a write into scratch SRAM or the DRAM data region leaves, whatever it stores (R374, R376). -/

namespace Sys2Proof.Machine

/-- `t` is `s` after checks and writes of memory: the stores and what the checks of the DRAM show have changed. -/
structure Stored (s t : State) : Prop where
  state : t = { s with regs := t.regs, mem := t.mem, call := t.call, ledger := t.ledger, dram := t.dram, scratch := t.scratch }
  regs : RegsBut s t checkRegs

theorem Checked.toStored {s t : State} (h : Checked s t) : Stored s t := by
  refine ⟨?_, h.regs⟩
  have hs := h.state
  rw [hs]

namespace Stored

variable {s t u : State}

theorem refl (s : State) : Stored s s := ⟨rfl, fun _ _ => rfl⟩

theorem trans (h : Stored s t) (h' : Stored t u) : Stored s u := by
  obtain ⟨hs, hr⟩ := h
  obtain ⟨hs', hr'⟩ := h'
  refine ⟨?_, fun a ha => (hr' a ha).trans (hr a ha)⟩
  rw [hs', hs]

theorem writeTagged (h : Stored s t) (poison : Bool) (a : Nat) (bs : List Byte) : Stored s (t.writeTagged poison a bs) := by
  refine h.trans ?_
  have hc := (partBlocks_checked t a bs.length).toStored
  obtain ⟨u, hu⟩ : ∃ u, u = (partBlocks a bs.length).foldl (fun s b => dramCheck b s) (dramAccess a bs.length t) := ⟨_, rfl⟩
  obtain ⟨hs, hr⟩ := hu ▸ hc
  have ht : ∃ m d, t.writeTagged poison a bs = { u with mem := m, dram := d } := ⟨_, _, by rw [hu]; rfl⟩
  obtain ⟨m, d, ht⟩ := ht
  refine ⟨?_, fun a ha => by rw [ht]; exact hr a ha⟩
  rw [ht, hs]

theorem writeDram (h : Stored s t) (a : Nat) (bs : List Byte) : Stored s (t.writeDram a bs) := h.writeTagged false a bs

theorem writePoisoned (h : Stored s t) (a : Nat) (bs : List Byte) : Stored s (t.writePoisoned a bs) :=
  (h.writeTagged true a bs).trans ⟨rfl, fun _ _ => rfl⟩

theorem writeMem (h : Stored s t) (a : Nat) (bs : List Byte) : Stored s (t.writeMem a bs) := by
  unfold State.writeMem
  split
  · exact h
  · split
    · exact h.trans ⟨rfl, fun _ _ => rfl⟩
    · exact h.writeDram _ _

theorem poisonWarn (h : Stored s t) (block inst a n : Nat) : Stored s (poisonWarn block inst a n t) :=
  h.trans (poisonWarn_checked block inst a n t).toStored

theorem foldl {α : Type} {f : State → α → State} (hf : ∀ s a, Stored s (f s a)) (l : List α) (s : State) : Stored s (l.foldl f s) := by
  induction l generalizing s with
  | nil => exact refl s
  | cons a l ih => exact (hf s a).trans (ih (f s a))

theorem fld (h : Stored s t) {f : Fld} (hf : f.addr ∉ checkRegs) : t.fld f = s.fld f := State.fld_congr_word (h.regs _ hf)

theorem flag (h : Stored s t) {f : Fld} (hf : f.addr ∉ checkRegs) : t.flag f = s.flag f := State.flag_of_word (h.regs _ hf)

theorem ticks (h : Stored s t) : t.ticks = s.ticks := by rw [h.state]
theorem hevd (h : Stored s t) : t.hevd = s.hevd := by rw [h.state]
theorem heve (h : Stored s t) : t.heve = s.heve := by rw [h.state]
theorem net (h : Stored s t) : t.net = s.net := by rw [h.state]
theorem sys (h : Stored s t) : t.sys = s.sys := by rw [h.state]
theorem mag (h : Stored s t) : t.mag = s.mag := by rw [h.state]
theorem power (h : Stored s t) : t.power = s.power := by rw [h.state]

end Stored

end Sys2Proof.Machine
end

section
/-! PROOFS. The decoder ring, its buffers and its output FIFO (R361, R362, R364, R367, R368). -/

namespace Sys2Proof.Machine

/-! ### The marks of the buffers -/

/-- What bumping leaves of the buffers: the picture that each holds and whether it is a reference. -/
def HevdBuf.mark (b : HevdBuf) : Option Int × Bool := (b.pic, b.ref)

/-- A buffer whose picture leaves for the output. -/
def HevdBuf.bumped (b : HevdBuf) : HevdBuf := { b with needed := false, out := true }

theorem map_modAt_of_field {α β : Type} {g : α → β} {f : α → α} (hf : ∀ x, g (f x) = g x) (l : List α) (k : Nat) :
    (modAt l k f).map g = l.map g := by
  induction l generalizing k with
  | nil => rfl
  | cons x l ih =>
    cases k with
    | zero => simp [modAt, hf]
    | succ k => simp [modAt, ih]

/-- `t` is `s` after pictures were bumped (R364). -/
structure Bumped (s t : State) : Prop where
  state : t = { s with regs := t.regs, hevd := t.hevd }
  regs : RegsBut s t [HEVD_EVENT.OUTPUT.addr]
  unsupported : t.fld HEVD_EVENT.UNSUPPORTED = s.fld HEVD_EVENT.UNSUPPORTED
  marks : t.hevd.bufs.map HevdBuf.mark = s.hevd.bufs.map HevdBuf.mark

namespace Bumped

variable {s t u : State}

theorem refl (s : State) : Bumped s s := ⟨rfl, fun _ _ => rfl, rfl, rfl⟩

theorem trans (h : Bumped s t) (h' : Bumped t u) : Bumped s u := by
  refine ⟨?_, fun a ha => (h'.regs a ha).trans (h.regs a ha), h'.unsupported.trans h.unsupported, h'.marks.trans h.marks⟩
  rw [h'.state, h.state]

theorem bumpOne (s : State) : Bumped s (bumpOne s) := by
  unfold Machine.bumpOne
  split
  · exact refl s
  · next k _ =>
    have hr : RegsBut s (s.setFlag HEVD_EVENT.OUTPUT true) [HEVD_EVENT.OUTPUT.addr] := fun a ha =>
      State.word_setFld_ne s HEVD_EVENT.OUTPUT _ (List.ne_of_not_mem_cons ha)
    have hu : (s.setFlag HEVD_EVENT.OUTPUT true).fld HEVD_EVENT.UNSUPPORTED = s.fld HEVD_EVENT.UNSUPPORTED :=
      State.fld_setFld_apart _ _ _ _ rfl rfl
    exact ⟨rfl, hr, hu, map_modAt_of_field (f := HevdBuf.bumped) (fun _ => rfl) s.hevd.bufs k⟩

theorem bumpWhile (n reorder latency : Nat) (s : State) : Bumped s (bumpWhile n reorder latency s) := by
  induction n generalizing s with
  | zero => exact refl s
  | succ n ih =>
    simp only [Machine.bumpWhile]
    split
    · exact (bumpOne s).trans (ih _)
    · exact refl s

end Bumped

/-- The registers in which the decoder shows how it goes on. -/
def hevdRegs : List Nat := [HEVD_STATUS.BUSY.addr, HEVD_IN_RD.RD.addr, HEVD_EVENT.OUTPUT.addr] ++ checkRegs

/-- `t` is `s` after the decoder went on in its ring: the configuration and the pictures of its buffers stay. -/
structure HevdKeeps (s t : State) : Prop where
  regs : RegsBut s t hevdRegs
  unsupported : t.fld HEVD_EVENT.UNSUPPORTED = s.fld HEVD_EVENT.UNSUPPORTED
  marks : t.hevd.bufs.map HevdBuf.mark = s.hevd.bufs.map HevdBuf.mark

theorem Bumped.keeps {s t : State} (h : Bumped s t) : HevdKeeps s t := ⟨h.regs.mono (by decide), h.unsupported, h.marks⟩

theorem Stored.keeps {s t : State} (h : Stored s t) : HevdKeeps s t := ⟨h.regs.mono (by decide), h.fld (by decide), by rw [h.hevd]⟩

namespace HevdKeeps

variable {s t u : State}

theorem refl (s : State) : HevdKeeps s s := ⟨fun _ _ => rfl, rfl, rfl⟩

theorem trans (h : HevdKeeps s t) (h' : HevdKeeps t u) : HevdKeeps s u :=
  ⟨fun a ha => (h'.regs a ha).trans (h.regs a ha), h'.unsupported.trans h.unsupported, h'.marks.trans h.marks⟩

theorem setFld (h : HevdKeeps s t) {f : Fld} (hf : f.addr ∈ hevdRegs) (hfit : f.fits = true)
    (ha : HEVD_EVENT.UNSUPPORTED.apart f = true) (n : Nat) : HevdKeeps s (t.setFld f n) :=
  h.trans ⟨fun _ hb => State.word_setFld_ne _ _ _ fun he => hb (he ▸ hf), State.fld_setFld_apart _ _ _ _ hfit ha, rfl⟩

theorem hevdShow (h : HevdKeeps s t) : HevdKeeps s (hevdShow t) :=
  ((h.setFld (f := HEVD_STATUS.BUSY) (by decide) rfl rfl _).setFld (f := HEVD_STATUS.WAIT_BUF) (by decide) rfl rfl _).setFld
    (f := HEVD_STATUS.FIFO) (by decide) rfl rfl _

theorem hevdResult (h : HevdKeeps s t) (flags buf : Nat) : HevdKeeps s (hevdResult flags buf t) := by
  refine HevdKeeps.setFld ?_ (by decide) rfl rfl _
  split
  · exact h.trans ((Stored.refl t).writeDram _ _).keeps
  · exact h

theorem hevdSkipBad (n : Nat) (s : State) : HevdKeeps s (hevdSkipBad n s) := by
  induction n generalizing s with
  | zero => exact refl s
  | succ n ih =>
    unfold Machine.hevdSkipBad
    split
    · refine HevdKeeps.trans (hevdResult (HevdKeeps.setFld ?_ (by decide) rfl rfl _) _ _) (ih _)
      exact ((Stored.refl s).poisonWarn ..).keeps
    · exact refl s

theorem hevdNext (h : HevdKeeps s t) : HevdKeeps s (hevdNext t) := by
  have hb : HevdKeeps t (setHevd { t.hevd with began := t.ticks } t) := ⟨fun _ _ => rfl, rfl, rfl⟩
  exact h.trans (hb.trans (hevdSkipBad _ _)).hevdShow

theorem fld (h : HevdKeeps s t) {f : Fld} (hf : f.addr ∉ hevdRegs) : t.fld f = s.fld f := State.fld_congr_word (h.regs _ hf)

end HevdKeeps

/-! ### The live status -/

theorem hevdShow_onlyRegs {s t : State} {as : List Nat} (h : OnlyRegs s t as) (ha : HEVD_STATUS.FIFO.addr ∈ as) :
    OnlyRegs s (hevdShow t) as :=
  ((h.setFld (f := HEVD_STATUS.BUSY) ha _).setFld (f := HEVD_STATUS.WAIT_BUF) ha _).setFld (f := HEVD_STATUS.FIFO) ha _

theorem hevdShow_shown (s : State) : (hevdShow s).hevd = s.hevd ∧
    (hevdShow s).flag HEVD_STATUS.BUSY = (s.flag HEVD_CTRL.EN && s.fld HEVD_IN_RD.RD != s.fld HEVD_IN_WR.WR) ∧
    OnlyRegs s (hevdShow s) [HEVD_STATUS.FIFO.addr] := by
  refine ⟨rfl, ?_, hevdShow_onlyRegs ⟨rfl, fun _ _ => rfl⟩ (.head _)⟩
  unfold hevdShow
  extract_lets busy
  rw [State.flag_setFld_apart _ _ _ _ rfl rfl, State.setFlag, State.flag_setFld_apart _ _ _ _ rfl rfl]
  exact State.flag_setFlag_same _ _ _ rfl rfl

theorem OnlyRegs.setHevd {s t : State} {as : List Nat} (h : OnlyRegs s t as) (x : HevdState) :
    OnlyRegs { s with hevd := x } (setHevd x t) as :=
  ⟨congrArg (fun u : State => { u with hevd := x }) h.1, h.2⟩

/-- Where no entry waits the decoder idles. -/
theorem hevdNext_idle {s : State} (h : s.fld HEVD_IN_WR.WR = s.fld HEVD_IN_RD.RD) :
    hevdNext s = hevdShow (setHevd { s.hevd with began := s.ticks } s) := by
  obtain ⟨t, ht⟩ : ∃ t, t = setHevd { s.hevd with began := s.ticks } s := ⟨_, rfl⟩
  have hr : t.fld HEVD_IN_RD.RD = s.fld HEVD_IN_RD.RD := ht ▸ rfl
  have hw : t.fld HEVD_IN_WR.WR = s.fld HEVD_IN_RD.RD := ht ▸ h
  have hn : (t.fld HEVD_IN_WR.WR + 2 ^ 32 - t.fld HEVD_IN_RD.RD) % 2 ^ 32 = 0 := by rw [hr, hw]; omega
  have he : hevdNext s = hevdShow (hevdSkipBad ((t.fld HEVD_IN_WR.WR + 2 ^ 32 - t.fld HEVD_IN_RD.RD) % 2 ^ 32) t) := ht ▸ rfl
  rw [he, hn, ← ht]
  rfl

/-- The ends of an access unit: the entry may end a sequence, and the decoder goes on. -/
theorem hevdEos_bumped (p : Bool) (s : State) : Bumped s (if p then bumpWhile 32 0 0 s else s) := by
  split
  · exact .bumpWhile ..
  · exact .refl s

/-! ### Access units -/

theorem exec_hevdAuComplete (au : AccessUnit) (s : State) : exec (.hevdAuComplete au) s = .next (hevdComplete false au s) := rfl

/-- The warnings of poison that precede an access unit. -/
def hevdWarned (s : State) : State :=
  let b := s.dramBytes (dramOff (hevdEntry s)) 32
  poisonWarn 9 0xFF (dramOff (leAt b 0 8)) (leAt b 8 4) (poisonWarn 9 0xFF (dramOff (hevdEntry s)) 32 s)

theorem hevdWarned_checked (s : State) : Checked s (hevdWarned s) := (poisonWarn_checked ..).trans (poisonWarn_checked ..)

/-- The entry at RD ends a sequence (R362). -/
def hevdEndsSeq (s : State) : Bool := (leAt (s.dramBytes (dramOff (hevdEntry s)) 32) 0xC 4).testBit 0

theorem hevdComplete_empty {s : State} (hd : s.domainOn 19 = true) (hb : s.flag HEVD_STATUS.BUSY = true) (x : Bool) {t : State}
    (ht : t = hevdResult 0 0xFFFFFFFF (hevdWarned s)) :
    hevdComplete x .empty s = hevdNext (if hevdEndsSeq s then bumpWhile 32 0 0 t else t) := by
  unfold hevdComplete
  rw [if_neg (by simp [hd, hb])]
  subst ht
  rfl

theorem hevdComplete_unsupported {s : State} (hd : s.domainOn 19 = true) (hb : s.flag HEVD_STATUS.BUSY = true) (x : Bool)
    {sps : SpsInfo} {ch dp w h : Nat} (hn : hevdSupported sps ch dp w h = false) (win : List Nat) (poc : Int) (lost : List Nat)
    (gen : List Int) (id : Option (List Byte)) (samples : List Byte) (newSeq dropPrior output : Bool) (ro la dpb : Nat)
    (refs : List (Fin 32)) {t : State}
    (ht : t = hevdResult 8 0xFFFFFFFF ((hevdWarned s).setFlag HEVD_EVENT.UNSUPPORTED true)) :
    hevdComplete x (.picture sps ch dp w h win poc lost gen id samples newSeq dropPrior output ro la dpb refs) s =
      hevdNext (if hevdEndsSeq s then bumpWhile 32 0 0 t else t) := by
  unfold hevdComplete
  rw [if_neg (by simp [hd, hb])]
  subst ht
  exact if_pos (Or.inl hn)

/-- An access unit of an unsupported sequence shows it, and no picture is counted (R361). -/
theorem hevdComplete_unsupported_shown {s t : State} (ht : t = hevdResult 8 0xFFFFFFFF ((hevdWarned s).setFlag HEVD_EVENT.UNSUPPORTED true))
    (p : Bool) : (hevdNext (if p then bumpWhile 32 0 0 t else t)).flag HEVD_EVENT.UNSUPPORTED = true ∧
      (hevdNext (if p then bumpWhile 32 0 0 t else t)).fld HEVD_CNT_CONCEAL.COUNT = s.fld HEVD_CNT_CONCEAL.COUNT := by
  have hk : HevdKeeps ((hevdWarned s).setFlag HEVD_EVENT.UNSUPPORTED true) (hevdNext (if p then bumpWhile 32 0 0 t else t)) :=
    ((ht ▸ (HevdKeeps.refl _).hevdResult ..).trans (hevdEos_bumped p t).keeps).hevdNext
  constructor
  · exact (State.flag_of_fld hk.unsupported).trans (State.flag_setFlag_same _ _ _ rfl rfl)
  · exact ((hk.fld (by decide)).trans (State.fld_setFld_apart _ _ _ _ rfl rfl)).trans ((hevdWarned_checked s).fld (by decide))

/-! ### A picture in the first buffer -/

/-- The buffers of a new sequence whose prior pictures are dropped. -/
def hevdForget (bufs : List HevdBuf) : List HevdBuf :=
  bufs.zipIdx.map (fun e => { e.1 with ref := !true && ([] : List Nat).contains e.2 && e.1.ref, needed := e.1.needed && !(true && true) })

theorem waitingPics_hevdForget (bufs : List HevdBuf) : waitingPics (hevdForget bufs) = 0 := by
  simp [waitingPics, hevdForget, List.filter_map]

theorem bumpBefore_forget (dpb : Nat) (s : State) :
    bumpBefore true true 0 0 dpb [] s = setHevd { s.hevd with bufs := hevdForget s.hevd.bufs } s := by
  obtain ⟨t, ht⟩ : ∃ t, t = setHevd { s.hevd with bufs := hevdForget s.hevd.bufs } s := ⟨_, rfl⟩
  have h0 : waitingPics t.hevd.bufs = 0 := ht ▸ waitingPics_hevdForget _
  have hb : bumpBefore true true 0 0 dpb [] s = bumpWhile 32 0 0 t := ht ▸ rfl
  rw [hb, ← ht]
  simp [bumpWhile, h0]

theorem hevdStore_stored (at_ ch dp ctb w h plane : Nat) (lost : List Nat) (ref : Option Nat) (hdr samples : List Byte) (s : State) :
    Stored s (hevdStore at_ ch dp ctb w h plane lost ref hdr samples s) := by
  have hw : ∀ u, Stored s u → ∀ (bs i : List Byte) (l : List Nat), Stored s (l.foldl (fun s i => s.writePoisoned (at_ + 256 + i) ((bs.drop i).take 64))
      (u.writeDram at_ (i ++ bs))) := fun u hu bs i l =>
    (hu.writeDram _ _).trans (.foldl (fun s i => (Stored.refl s).writePoisoned _ _) l _)
  unfold hevdStore
  extract_lets bs bad u
  refine hw u ?_ _ _ _
  cases ref with
  | none => exact .refl s
  | some a =>
    show Stored s (if lost.isEmpty then s else poisonWarn 9 0xFF (a + 256) plane s)
    split
    · exact .refl s
    · exact (Stored.refl s).poisonWarn ..

/-- The mark that a picture gets in the buffer it is decoded into. -/
theorem bumpAfter_first (poc : Int) (b : HevdBuf) (bufs : List HevdBuf) {s : State} (hs : s.hevd.bufs = b :: bufs) :
    ∃ l, (bumpAfter 0 poc true 0 0 s).hevd.bufs.map HevdBuf.mark = (some poc, true) :: l ∧
      RegsBut s (bumpAfter 0 poc true 0 0 s) [HEVD_EVENT.OUTPUT.addr] := by
  unfold bumpAfter
  extract_lets late bufs'
  obtain ⟨t, ht⟩ : ∃ t, t = setHevd { s.hevd with bufs := bufs' } s := ⟨_, rfl⟩
  rw [← ht]
  have hb := Bumped.bumpWhile 32 0 0 t
  have hl : ∃ l, t.hevd.bufs.map HevdBuf.mark = (some poc, true) :: l := by
    rw [ht]
    simp only [setHevd, bufs', late, hs, List.map_cons, modAt]
    exact ⟨_, rfl⟩
  obtain ⟨l, hl⟩ := hl
  exact ⟨l, hb.marks.trans hl, fun a ha => (hb.regs a ha).trans (ht ▸ rfl)⟩

/-- The counts and the events of an abandoned picture. -/
def hevdCounted (s : State) : State :=
  hevdFlag HEVD_EVENT.ABANDONED .warning ((hevdFlag HEVD_EVENT.CONCEALED .info ((s.addFld HEVD_CNT_PIC.COUNT 1).addFld
    HEVD_CNT_CONCEAL.COUNT 1)).addFld HEVD_CNT_ABANDON.COUNT 1)

theorem hevdFlag_fld {f g : Fld} {cls : EventClass} (hc : cls ≠ .fatal) (hf : f.fits = true) (h : g.apart f = true)
    (ho : g.addr ≠ CALL_OVERFLOW.COUNT.addr) (s : State) : (hevdFlag f cls s).fld g = s.fld g :=
  (State.fld_postEvent hc _ ho).trans (State.fld_setFld_apart _ _ _ _ hf h)

theorem State.fld_addFld_apart (s : State) {f g : Fld} (k : Nat) (hf : f.fits = true) (h : g.apart f = true) :
    (s.addFld f k).fld g = s.fld g := State.fld_setFld_apart _ _ _ _ hf h

theorem hevdCounted_shown (s : State) : (hevdCounted s).hevd = s.hevd ∧
    (hevdCounted s).fld HEVD_CNT_PIC.COUNT = min (2 ^ HEVD_CNT_PIC.COUNT.width - 1) (s.fld HEVD_CNT_PIC.COUNT + 1) ∧
    (hevdCounted s).fld HEVD_CNT_CONCEAL.COUNT = min (2 ^ HEVD_CNT_CONCEAL.COUNT.width - 1) (s.fld HEVD_CNT_CONCEAL.COUNT + 1) ∧
    (hevdCounted s).fld HEVD_CNT_ABANDON.COUNT = min (2 ^ HEVD_CNT_ABANDON.COUNT.width - 1) (s.fld HEVD_CNT_ABANDON.COUNT + 1) := by
  have hev : ∀ (f : Fld) (cls : EventClass) (u : State), cls ≠ .fatal → (hevdFlag f cls u).hevd = u.hevd := fun f cls u hc => by
    obtain ⟨r, c, l, he, -⟩ := postEvent_frame (e := { cls := cls, block := 9, cause := f.lo, inst := 0xFF, detail := 0 }) hc
      (u.orBit f (f.lo - f.lo))
    show (postEvent { cls := cls, block := 9, cause := f.lo, inst := 0xFF, detail := 0 } (u.orBit f (f.lo - f.lo))).hevd = _
    rw [he]
    rfl
  unfold hevdCounted
  refine ⟨?_, ?_, ?_, ?_⟩
  · rw [hev _ _ _ (by decide)]
    exact hev _ _ _ (by decide)
  · rw [hevdFlag_fld (by decide) rfl rfl (by decide), State.fld_addFld_apart _ _ rfl rfl, hevdFlag_fld (by decide) rfl rfl (by decide),
      State.fld_addFld_apart _ _ rfl rfl, State.fld_addFld_same _ _ _ rfl]
  · rw [hevdFlag_fld (by decide) rfl rfl (by decide), State.fld_addFld_apart _ _ rfl rfl, hevdFlag_fld (by decide) rfl rfl (by decide),
      State.fld_addFld_same _ _ _ rfl, State.fld_addFld_apart _ _ rfl rfl]
  · rw [hevdFlag_fld (by decide) rfl rfl (by decide), State.fld_addFld_same _ _ _ rfl, hevdFlag_fld (by decide) rfl rfl (by decide),
      State.fld_addFld_apart _ _ rfl rfl, State.fld_addFld_apart _ _ rfl rfl]

/-- A picture whose budget ran out, of a new sequence and with one CTU undecoded, once its planes are stored in the first buffer. -/
theorem hevdComplete_spent {s : State} (hd : s.domainOn 19 = true) (hb : s.flag HEVD_STATUS.BUSY = true) {sps : SpsInfo}
    {ch dp w h dpb : Nat} (hn : hevdSupported sps ch dp w h = true) (hstride : 256 + hevdPitch w * (h + hevdChroma ch h) ≤
      s.fld HEVD_OUT_STRIDE.BYTES) (hdpb : dpb + 1 ≤ hevdCount s) {bufs : List HevdBuf} (hbufs : s.hevd.bufs = hevdBufFree :: bufs)
    (win : List Nat) (poc : Int) (samples : List Byte) :
    ∃ u, Stored (setHevd { s.hevd with bufs := hevdForget s.hevd.bufs } s) u ∧
      hevdComplete true (.picture sps ch dp w h win poc [0] [] none samples true true true 0 0 dpb []) s =
        hevdNext (if hevdEndsSeq s then bumpWhile 32 0 0 (hevdResult 7 0 (bumpAfter 0 poc true 0 0
            (setHevd { (hevdCounted u).hevd with waitBuf := false } (hevdCounted u))))
          else hevdResult 7 0 (bumpAfter 0 poc true 0 0 (setHevd { (hevdCounted u).hevd with waitBuf := false } (hevdCounted u)))) := by
  have hw := hevdWarned_checked s
  have hbufs' : (hevdWarned s).hevd.bufs = hevdBufFree :: bufs := by rw [hw.state]; exact hbufs
  obtain ⟨v, hv⟩ : ∃ v, v = setHevd { (hevdWarned s).hevd with bufs := hevdForget (hevdWarned s).hevd.bufs } (hevdWarned s) := ⟨_, rfl⟩
  have hfree : v.hevd.bufs.findIdx? HevdBuf.isFree = some 0 := by
    rw [hv]
    show (hevdForget (hevdWarned s).hevd.bufs).findIdx? HevdBuf.isFree = some 0
    rw [hbufs']
    rfl
  have hsv : Stored (setHevd { s.hevd with bufs := hevdForget s.hevd.bufs } s) v := by
    refine ⟨?_, fun a ha => hv ▸ hw.regs a ha⟩
    rw [hv, hw.state]
    rfl
  have hno : ¬(hevdSupported sps ch dp w h = false ∨ (hevdWarned s).fld HEVD_OUT_STRIDE.BYTES <
      256 + hevdPitch w * (h + hevdChroma ch h) ∨ hevdCount (hevdWarned s) < dpb + 1) := by
    rw [hevdCount, hw.fld (by decide), hw.fld (by decide), hn]
    rw [hevdCount] at hdpb
    simp only [Bool.true_eq_false, false_or, not_or, not_lt]
    exact ⟨hstride, hdpb⟩
  have hbump : bumpBefore true true 0 0 dpb (([] : List (Fin 32)).map (·.val)) (hevdWarned s) = v :=
    hv ▸ bumpBefore_forget dpb (hevdWarned s)
  generalize hr : hevdComplete true _ s = r
  unfold hevdComplete at hr
  extract_lets b eos tag w at hr
  rw [if_neg (by simp [hd, hb])] at hr
  replace hr := (if_neg hno).symm.trans hr
  extract_lets v' v'' at hr
  have hv' : v'' = v := hbump
  clear_value v''
  subst v''
  rw [hfree] at hr
  exact ⟨_, hsv.trans (hevdStore_stored ..), hr.symm⟩

/-- A picture whose budget ran out stands in the first buffer as a reference, counted as concealed and abandoned (R364, R367). -/
theorem hevdComplete_spent_shown {s : State} (hd : s.domainOn 19 = true) (hb : s.flag HEVD_STATUS.BUSY = true) {sps : SpsInfo}
    {ch dp w h dpb : Nat} (hn : hevdSupported sps ch dp w h = true) (hstride : 256 + hevdPitch w * (h + hevdChroma ch h) ≤
      s.fld HEVD_OUT_STRIDE.BYTES) (hdpb : dpb + 1 ≤ hevdCount s) {bufs : List HevdBuf} (hbufs : s.hevd.bufs = hevdBufFree :: bufs)
    (win : List Nat) (poc : Int) (samples : List Byte) {t : State}
    (ht : t = hevdComplete true (.picture sps ch dp w h win poc [0] [] none samples true true true 0 0 dpb []) s) :
    (∃ b, t.hevd.bufs[0]? = some b ∧ b.pic = some poc ∧ b.ref = true) ∧
      t.fld HEVD_CNT_PIC.COUNT = min (2 ^ HEVD_CNT_PIC.COUNT.width - 1) (s.fld HEVD_CNT_PIC.COUNT + 1) ∧
      t.fld HEVD_CNT_CONCEAL.COUNT = min (2 ^ HEVD_CNT_CONCEAL.COUNT.width - 1) (s.fld HEVD_CNT_CONCEAL.COUNT + 1) ∧
      t.fld HEVD_CNT_ABANDON.COUNT = min (2 ^ HEVD_CNT_ABANDON.COUNT.width - 1) (s.fld HEVD_CNT_ABANDON.COUNT + 1) := by
  obtain ⟨u, hu, he⟩ := hevdComplete_spent hd hb hn hstride hdpb hbufs win poc samples
  obtain ⟨hhevd, hpic, hconceal, habandon⟩ := hevdCounted_shown u
  obtain ⟨c, hc⟩ : ∃ c, c = setHevd { (hevdCounted u).hevd with waitBuf := false } (hevdCounted u) := ⟨_, rfl⟩
  rw [← hc] at he
  have hcb : ∃ b l, c.hevd.bufs = b :: l := by
    have hforget : c.hevd.bufs = hevdForget (hevdBufFree :: bufs) := by
      rw [hc, ← hbufs]
      exact (congrArg HevdState.bufs hhevd).trans (congrArg HevdState.bufs hu.hevd)
    exact ⟨_, _, hforget⟩
  obtain ⟨b0, l0, hcb⟩ := hcb
  obtain ⟨l, hmarks, hregs⟩ := bumpAfter_first poc b0 l0 hcb
  obtain ⟨v, hv⟩ : ∃ v, v = bumpAfter 0 poc true 0 0 c := ⟨_, rfl⟩
  rw [← hv] at he hmarks hregs
  have hk : HevdKeeps v t := by
    rw [ht, he]
    exact (((HevdKeeps.refl v).hevdResult 7 0).trans (hevdEos_bumped _ _).keeps).hevdNext
  have hfld : ∀ {f : Fld}, f.addr ∉ hevdRegs → t.fld f = (hevdCounted u).fld f := fun {f} hf => by
    refine (hk.fld hf).trans ((State.fld_congr_word (hregs _ ?_)).trans (by rw [hc]; rfl))
    intro hm
    exact hf (by rw [List.mem_singleton.1 hm]; decide)
  have hkeep : ∀ {f : Fld}, f.addr ∉ checkRegs → u.fld f = s.fld f := fun hf => hu.fld hf
  refine ⟨?_, ?_, ?_, ?_⟩
  · rw [← hk.marks] at hmarks
    cases hl : t.hevd.bufs with
    | nil => simp [hl] at hmarks
    | cons b r =>
      simp only [hl, List.map_cons, List.cons.injEq, HevdBuf.mark, Prod.mk.injEq] at hmarks
      exact ⟨b, rfl, hmarks.1⟩
  · rw [hfld (by decide), hpic, hkeep (by decide)]
  · rw [hfld (by decide), hconceal, hkeep (by decide)]
  · rw [hfld (by decide), habandon, hkeep (by decide)]

/-! ### An access unit without a picture -/

/-- Where every group can be reached a write stores its bytes (R374). -/
theorem dram_writeDram {s : State} (hf : s.fld DRAM_MAP.FENCED = 0) (ht : s.mem.trnOp = none) (a : Nat) (bs : List Byte) :
    (s.writeDram a bs).dram = writeList 0 s.dram a bs := if_pos ⟨hf, ht⟩

/-- Where nothing is fenced a read gives the bytes stored. -/
theorem dramBytes_eq {s : State} (hf : s.fld DRAM_MAP.FENCED = 0) (a n : Nat) : s.dramBytes a n = readList 0 s.dram a n := if_pos hf

theorem Checked.hevdEntry {s t : State} (h : Checked s t) : hevdEntry t = hevdEntry s := by
  simp only [Machine.hevdEntry, hevdIn, hevdEntries]
  rw [h.fld (by decide), h.fld (by decide), h.fld (by decide), h.fld (by decide)]

theorem Checked.dramSize {s t : State} (h : Checked s t) : dramSize t = dramSize s := by
  have hcc : dramCc t = dramCc s := by rw [dramCc, dramCc, h.fld (by decide), h.fld (by decide)]
  rw [Machine.dramSize, Machine.dramSize, h.committed, h.channels, hcc]

theorem Checked.inDram {s t : State} (h : Checked s t) (a n : Nat) : inDram t a n = inDram s a n := by
  rw [Machine.inDram, Machine.inDram, h.dramSize]

/-- The entry of an access unit without a picture is written back, and the ring is empty behind it (R362). -/
theorem hevdComplete_empty_shown {s : State} (hin : Machine.inDram s (hevdEntry s) 32 = true) (hf : s.fld DRAM_MAP.FENCED = 0)
    (htrn : s.mem.trnOp = none) (hwr : s.fld HEVD_IN_WR.WR = (s.fld HEVD_IN_RD.RD + 1) % 2 ^ 32) (p : Bool) {u t : State}
    (hu : u = hevdResult 0 0xFFFFFFFF (hevdWarned s)) (ht : t = hevdNext (if p then bumpWhile 32 0 0 u else u)) :
    t.fld HEVD_IN_RD.RD = s.fld HEVD_IN_WR.WR ∧ t.flag HEVD_STATUS.BUSY = false ∧
      t.dramBytes (dramOff (hevdEntry s) + 0x18) 8 = leBytes 4 (2 ^ 31) ++ leBytes 4 0xFFFFFFFF := by
  have hc := hevdWarned_checked s
  obtain ⟨c, hcs⟩ : ∃ c, c = hevdWarned s := ⟨_, rfl⟩
  rw [← hcs] at hc hu
  obtain ⟨w, hws⟩ : ∃ w, w = c.writeDram (dramOff (hevdEntry s) + 0x18) (leBytes 4 (2 ^ 31 + 0) ++ leBytes 4 0xFFFFFFFF) := ⟨_, rfl⟩
  have hcf : c.fld DRAM_MAP.FENCED = 0 := (hc.fld (by decide)).trans hf
  have hct : c.mem.trnOp = none := hc.trnOp.trans htrn
  have hus : u = w.setFld HEVD_IN_RD.RD (w.fld HEVD_IN_RD.RD + 1) := by
    rw [hu, hws, hevdResult, hc.hevdEntry, if_pos ((hc.inDram _ _).trans hin)]
  have hw : Stored c w := hws ▸ (Stored.refl c).writeDram _ _
  have hfld : ∀ {f : Fld}, f.addr ∉ checkRegs → w.fld f = s.fld f := fun hf => (hw.fld hf).trans (hc.fld hf)
  have hwd : w.dram = writeList 0 c.dram (dramOff (hevdEntry s) + 0x18) (leBytes 4 (2 ^ 31 + 0) ++ leBytes 4 0xFFFFFFFF) := by
    rw [hws]
    exact dram_writeDram hcf hct _ _
  have hb := hevdEos_bumped p u
  obtain ⟨v, hv⟩ : ∃ v, v = if p then bumpWhile 32 0 0 u else u := ⟨_, rfl⟩
  rw [← hv] at hb ht
  have hrd : v.fld HEVD_IN_RD.RD = s.fld HEVD_IN_WR.WR := by
    rw [State.fld_congr_word (hb.regs _ (by decide)), hus, State.fld_setFld_same _ _ _ rfl, hfld (by decide), hwr]
    rfl
  have hvw : v.fld HEVD_IN_WR.WR = s.fld HEVD_IN_WR.WR := by
    rw [State.fld_congr_word (hb.regs _ (by decide)), hus, State.fld_setFld_apart _ _ _ _ rfl rfl, hfld (by decide)]
  obtain ⟨x, hx⟩ : ∃ x, x = setHevd { v.hevd with began := v.ticks } v := ⟨_, rfl⟩
  have htx : t = hevdShow x := by rw [ht, hevdNext_idle (hvw.trans hrd.symm), hx]
  obtain ⟨-, hbusy, hshow⟩ := hevdShow_shown x
  have hxr : x.fld HEVD_IN_RD.RD = s.fld HEVD_IN_WR.WR := by rw [hx]; exact hrd
  have hxw : x.fld HEVD_IN_WR.WR = s.fld HEVD_IN_WR.WR := by rw [hx]; exact hvw
  refine ⟨?_, ?_, ?_⟩
  · rw [htx, State.fld_congr_word (hshow.2 _ (by decide)), hxr]
  · rw [htx, hbusy, hxr, hxw]
    simp
  · have hd : t.dram = w.dram := by
      have h1 : t.dram = x.dram := by rw [htx]; rfl
      have h2 : v.dram = u.dram := by rw [hb.state]
      rw [h1, hx]
      exact h2.trans (by rw [hus]; rfl)
    have hft : t.fld DRAM_MAP.FENCED = 0 := by
      rw [htx, State.fld_congr_word (hshow.2 _ (by decide)), hx]
      refine (State.fld_congr_word (hb.regs _ (by decide))).trans ?_
      rw [hus, State.fld_setFld_apart _ _ _ _ rfl rfl, hfld (by decide), hf]
    rw [dramBytes_eq hft, hd, hwd]
    exact readList_writeList_same 0 _ _ (leBytes 4 (2 ^ 31 + 0) ++ leBytes 4 0xFFFFFFFF)

/-! ### Buffers of the output -/

theorem exec_hevdOutRel {s : State} {k : Fin 32} {b : HevdBuf} (hd : s.domainOn 19 = true) (hb : s.hevd.bufs[k.val]? = some b)
    (hout : b.out = true) (hk : k.val ∉ s.hevd.fifo) : ∃ h : HevdState, h.bufs = modAt s.hevd.bufs k.val (fun b => { b with out := false }) ∧
      h.fifo = s.hevd.fifo ∧ exec (.hevdOutRel k) s = .next (hevdShow (setHevd h (busOk 0 s))) := by
  have hc : ((s.hevd.bufs[k.val]?).any (fun b => b.out) && !s.hevd.fifo.contains k.val) = true := by simp [hb, hout, hk]
  have hd' : ¬(busOk 0 s).domainOn 19 = false := by
    rw [Bool.not_eq_false]
    exact hd
  have he : exec (.hevdOutRel k) s = execHevdOutRel k s := rfl
  rw [he]
  unfold execHevdOutRel
  refine ⟨_, ?_, ?_, (if_neg hd').trans (if_pos hc)⟩
  all_goals
    show _ = _
    split
    all_goals rfl

/-- Settles O42: bumping and the ring leave the pictures of the buffers and the configuration as they are. -/
theorem decoderRingBuffersAndFifo : Obligations.DecoderRingBuffersAndFifo := by
  unfold Obligations.DecoderRingBuffersAndFifo
  refine ⟨?_, ?_, ?_, ?_, ?_, ?_, ?_, ?_, ?_, ?_⟩
  · intro s v hd hv
    have hv32 : v.toNat % 2 ^ HEVD_IN_WR.WR.width = v.toNat := Nat.mod_eq_of_lt v.isLt
    have hset : ∀ t, HevdKeeps ((busOk 0 s).setFld HEVD_IN_WR.WR v.toNat) t → t.fld HEVD_IN_WR.WR = v.toNat := fun t ht =>
      (ht.fld (by decide)).trans ((State.fld_setFld_same _ _ _ rfl).trans hv32)
    have hd' : ¬(busOk 0 s).domainOn 19 = false := by
      rw [Bool.not_eq_false]
      exact hd
    refine ⟨_, (if_neg hd').trans (if_neg (Nat.not_lt.2 hv)), ?_⟩
    refine hset _ ?_
    split
    · exact (HevdKeeps.refl _).hevdNext
    · exact (HevdKeeps.refl _).hevdShow
  · intro s v hd hv
    have hd' : ¬(busOk 0 s).domainOn 19 = false := by
      rw [Bool.not_eq_false]
      exact hd
    exact (if_neg hd').trans (if_pos hv)
  · intro s hd hb hin hf ht hwr
    exact ⟨_, congrArg Host.Outcome.next (hevdComplete_empty hd hb false rfl), hevdComplete_empty_shown hin hf ht hwr _ rfl rfl⟩
  · intro s sps ch dp w h dpb win poc samples bufs hd hb hspent hn hstride hdpb hbufs
    obtain ⟨⟨b, hb0, hpic, href⟩, hcount⟩ := hevdComplete_spent_shown hd hb hn hstride hdpb hbufs win poc samples rfl
    exact ⟨_, b, if_pos hspent, hb0, hpic, href, hcount⟩
  · intro s au hspent
    exact if_neg (by rw [hspent]; decide)
  · intro s sps ch dp w h dpb ro la win poc lost gen id samples x y z refs hd hb hn
    exact ⟨_, congrArg Host.Outcome.next (hevdComplete_unsupported hd hb false hn win poc lost gen id samples x y z ro la dpb refs rfl),
      hevdComplete_unsupported_shown rfl _⟩
  · intro s k r hd hfifo
    have he : exec .hevdOutPop s = .next (hevdShow (setHevd { s.hevd with fifo := r } (busOk (BitVec.ofNat 32 (2 ^ 31 + k)) s))) := by
      show execHevdOutPop s = _
      rw [execHevdOutPop, if_neg (by rw [hd]; decide), hfifo]
    exact ⟨_, he, rfl, rfl, hevdShow_onlyRegs ((onlyRegs_busOk _ s _).setHevd _) (.head _)⟩
  · intro s k b hd hb hout hk
    obtain ⟨h, hbufs, hfifo, he⟩ := exec_hevdOutRel hd hb hout hk
    refine ⟨_, he, ?_, hfifo, hevdShow_onlyRegs ((onlyRegs_busOk _ s _).setHevd h) (.head _)⟩
    show h.bufs[k.val]? = _
    rw [hbufs, getElem?_modAt, if_pos rfl, hb]
    rfl
  · intro s hd
    have hd' : ¬(busOk 0 s).domainOn 19 = false := by
      rw [Bool.not_eq_false]
      exact hd
    obtain ⟨u, hu⟩ : ∃ u, u = (busOk 0 s).setFlag HEVD_CTRL.EN false := ⟨_, rfl⟩
    obtain ⟨h, hh⟩ : ∃ h, h = { hevdInit with bufs := List.replicate (hevdCount s) hevdBufFree } := ⟨_, rfl⟩
    have he : exec .hevdDisable s = .next (hevdShow (setHevd h u)) := by
      rw [hh, hu]
      exact if_neg hd'
    have hen : (setHevd h u).flag HEVD_CTRL.EN = false := by
      rw [hu]
      exact State.flag_setFlag_same _ _ _ rfl rfl
    obtain ⟨hhevd, hbusy, hshow⟩ := hevdShow_shown (setHevd h u)
    refine ⟨_, he, ?_, ?_, ?_, ?_, ?_⟩
    · rw [State.flag_of_word (hshow.2 _ (by decide)), hen]
    · rw [hbusy, hen, Bool.false_and]
    · rw [hhevd, hh]
      rfl
    · rw [hhevd, hh]
      rfl
    · refine hevdShow_onlyRegs (OnlyRegs.setHevd ?_ h) (by decide)
      rw [hu]
      exact (onlyRegs_busOk 0 s _).setFld (f := HEVD_CTRL.EN) (.head _) _
  · intro s
    obtain ⟨u, hu⟩ : ∃ u, u = (busOk 0 s).setFld HEVD_CNT_PIC.COUNT 0 := ⟨_, rfl⟩
    obtain ⟨v, hv⟩ : ∃ v, v = u.setFld HEVD_CNT_CONCEAL.COUNT 0 := ⟨_, rfl⟩
    have he : exec .hevdCounterClear s = .next (v.setFld HEVD_CNT_ABANDON.COUNT 0) := by
      rw [hv, hu]
      rfl
    refine ⟨_, he, ?_, ?_, ?_, ?_⟩
    · rw [State.fld_setFld_apart _ _ _ _ rfl rfl, hv, State.fld_setFld_apart _ _ _ _ rfl rfl, hu, State.fld_setFld_same _ _ _ rfl]
      rfl
    · rw [State.fld_setFld_apart _ _ _ _ rfl rfl, hv, State.fld_setFld_same _ _ _ rfl]
      rfl
    · rw [State.fld_setFld_same _ _ _ rfl]
      rfl
    · rw [hv, hu]
      exact (((onlyRegs_busOk 0 s _).setFld (f := HEVD_CNT_PIC.COUNT) (.head _) _).setFld (f := HEVD_CNT_CONCEAL.COUNT)
        (.tail _ (.head _)) _).setFld (f := HEVD_CNT_ABANDON.COUNT) (.tail _ (.tail _ (.head _))) _

end Sys2Proof.Machine
end

section
/-! PROOFS. What the commands of the encoders leave, encoder slices, detections and the output ring (R352 to R354, R357 to R360). -/

namespace Sys2Proof.Machine

/-! ### Engines -/

/-- What writes to the output ring leave of an engine: all but the chunks that wait. -/
def HeveEng.mark (h : HeveEng) : HeveEng := { h with held := [] }

theorem heveEng_of_marks {s t : State} (h : t.heve.map HeveEng.mark = s.heve.map HeveEng.mark) (e : Nat) :
    (heveEng t e).mark = (heveEng s e).mark := by
  have he : ∀ u : State, (heveEng u e).mark = ((u.heve.map HeveEng.mark)[e]?).getD heveInit := fun u => by
    rw [heveEng, List.getElem?_map]
    cases u.heve[e]? <;> rfl
  rw [he, he, h]

theorem heve_lt_of_pic {s : State} {e : Nat} {p : HevePic} (h : (heveEng s e).pic = some p) : e < s.heve.length := by
  by_contra hn
  rw [heveEng, List.getElem?_eq_none (Nat.not_lt.1 hn)] at h
  cases h

theorem heveEng_modHeve_same {s : State} {e : Nat} (h : e < s.heve.length) (f : HeveEng → HeveEng) :
    heveEng (modHeve e f s) e = f (heveEng s e) := by
  show ((modAt s.heve e f)[e]?).getD heveInit = f ((s.heve[e]?).getD heveInit)
  rw [getElem?_modAt, if_pos rfl, List.getElem?_eq_getElem h]
  rfl

/-- `t` is `s` after the engines showed what they do in the registers `as`: no engine changes but in what waits for the ring. -/
structure HeveKeeps (as : List Nat) (s t : State) : Prop where
  marks : t.heve.map HeveEng.mark = s.heve.map HeveEng.mark
  regs : RegsBut s t as

namespace HeveKeeps

variable {as : List Nat} {s t u : State}

theorem refl (s : State) : HeveKeeps as s s := ⟨rfl, fun _ _ => rfl⟩

theorem trans (h : HeveKeeps as s t) (h' : HeveKeeps as t u) : HeveKeeps as s u :=
  ⟨h'.marks.trans h.marks, fun a ha => (h'.regs a ha).trans (h.regs a ha)⟩

theorem mono {as' : List Nat} (h : HeveKeeps as s t) (ha : as ⊆ as') : HeveKeeps as' s t := ⟨h.marks, h.regs.mono ha⟩

theorem of_stored (h : Stored s t) (ha : checkRegs ⊆ as) : HeveKeeps as s t := ⟨by rw [h.heve], h.regs.mono ha⟩

theorem setFld (h : HeveKeeps as s t) (f : Fld) (hf : f.addr ∈ as) (n : Nat) : HeveKeeps as s (t.setFld f n) :=
  ⟨h.marks, h.regs.setFld hf n⟩

theorem length (h : HeveKeeps as s t) : t.heve.length = s.heve.length := by
  have hl := congrArg List.length h.marks
  simpa only [List.length_map] using hl

theorem fld (h : HeveKeeps as s t) {f : Fld} (hf : f.addr ∉ as) : t.fld f = s.fld f := State.fld_congr_word (h.regs _ hf)

theorem setHeld (h : HeveKeeps as s t) (e : Nat) (f : List Chunk → List Chunk) :
    HeveKeeps as s (modHeve e (fun x => { x with held := f x.held }) t) :=
  ⟨(map_modAt_of_field (g := HeveEng.mark) (f := fun x : HeveEng => { x with held := f x.held }) (fun _ => rfl) t.heve e).trans
    h.marks, h.regs⟩

theorem heveShow (h : HeveKeeps as s t) (e : Nat) (ha : (HEVE_STATUS.BUSY e).addr ∈ as) : HeveKeeps as s (heveShow e t) :=
  (((h.setFld (HEVE_STATUS.BUSY e) ha _).setFld (HEVE_STATUS.BAD_CFG e) ha _).setFld (HEVE_STATUS.OUT_WAITING e) ha _).setFld
    (HEVE_STATUS.WAITING e) ha _

end HeveKeeps

theorem heve_postEvent {e : Event} (he : e.cls ≠ .fatal) (s : State) : (postEvent e s).heve = s.heve := by
  obtain ⟨r, c, l, h, -⟩ := postEvent_frame he s
  rw [h]

theorem heveFlag_keeps {as : List Nat} {F : Nat → Fld} {cls : EventClass} (hc : cls ≠ .fatal) (e : Nat) (s : State)
    (ha : (F e).addr ∈ as) (ho : CALL_OVERFLOW.COUNT.addr ∈ as) : HeveKeeps as s (heveFlag F cls e s) :=
  ⟨congrArg (List.map HeveEng.mark) (heve_postEvent hc _),
    RegsBut.postEvent ((RegsBut.refl s as).setFld ha _) hc ho⟩

/-! ### The output ring -/

/-- The registers that a write to the output ring of engine `e` changes. -/
def ringRegs (e : Nat) : List Nat := [(HEVE_OUT_WR.WR e).addr, (HEVE_STATUS.BUSY e).addr, (HEVE_EVENT.OUT_WAIT e).addr] ++ checkRegs

theorem checkRegs_ringRegs (e : Nat) : checkRegs ⊆ ringRegs e := List.subset_append_right ..

theorem ringPut_keeps (e n : Nat) (bs : List Byte) (s : State) : HeveKeeps (ringRegs e) s (ringPut e n bs s) := by
  unfold ringPut
  extract_lets wr a u
  refine HeveKeeps.setFld (t := u) ?_ (HEVE_OUT_WR.WR e) (.head _) _
  show HeveKeeps _ s (if inDram s a (64 * n) then _ else s)
  split
  · exact .of_stored ((Stored.refl s).writeDram ..) (checkRegs_ringRegs e)
  · exact .refl s

theorem chunkPut_keeps {e : Nat} {c : Chunk} {s t : State} (h : chunkPut e c s = some t) : HeveKeeps (ringRegs e) s t := by
  unfold chunkPut at h
  extract_lets n size rest pad u hdr at h
  split at h
  · cases h
    have hu : HeveKeeps (ringRegs e) s u := by
      show HeveKeeps _ s (if pad = 0 then s else _)
      split
      · exact .refl s
      · exact ringPut_keeps ..
    exact hu.trans (ringPut_keeps ..)
  · cases h

theorem drainWith_keeps {put : Nat → Chunk → State → Option State} {e : Nat}
    (h : ∀ c s t, put e c s = some t → HeveKeeps (ringRegs e) s t) (n : Nat) (s : State) :
    HeveKeeps (ringRegs e) s (drainWith put n e s) := by
  induction n generalizing s with
  | zero => exact .refl s
  | succ n ih =>
    unfold drainWith
    split
    · exact .refl s
    · next c l hl =>
      split
      · next t ht => exact ((h c s t ht).setHeld e fun _ => l).trans (ih _)
      · exact .refl s

theorem heveDrain_keeps (n e : Nat) (s : State) : HeveKeeps (ringRegs e) s (heveDrain n e s) := by
  rw [heveDrain_eq_drainWith]
  exact drainWith_keeps (fun _ _ _ => chunkPut_keeps) n s

theorem heveEmit_keeps (e : Nat) (c : Chunk) (s : State) : HeveKeeps (ringRegs e) s (heveEmit e c s) := by
  have hd : HeveKeeps (ringRegs e) s (modHeve e (fun h => { h with held := h.held ++ [c] }) s) :=
    (HeveKeeps.refl s).setHeld e fun l => l ++ [c]
  have hb : (HEVE_STATUS.BUSY e).addr ∈ ringRegs e := .tail _ (.head _)
  unfold heveEmit
  extract_lets a b
  have hab : HeveKeeps (ringRegs e) s b := hd.trans (heveDrain_keeps ..)
  split
  · exact hab.heveShow e hb
  · exact (hab.trans (heveFlag_keeps (by decide) e b (.tail _ (.tail _ (.head _))) (checkRegs_ringRegs e (.head _)))).heveShow e hb

/-! ### The end of a picture -/

theorem releaseBuf_keeps (p k : Nat) (s : State) : HeveKeeps [PIPE_BUF_FREE.PORT0.addr] s (releaseBuf p k s) := by
  unfold releaseBuf
  split
  · obtain ⟨u, hu⟩ : ∃ u, u = creditReturn (11 + p) 1 (modPipePort p (fun x => { x with bufs := x.bufs.set k none }) s) := ⟨_, rfl⟩
    have h : HeveKeeps [PIPE_BUF_FREE.PORT0.addr] s u := by rw [hu]; exact ⟨rfl, fun _ _ => rfl⟩
    rw [← hu]
    exact (((h.setFld PIPE_BUF_FREE.PORT0 (.head _) _).setFld PIPE_BUF_FREE.PORT1 (.head _) _).setFld PIPE_BUF_FREE.PORT2 (.head _)
      _).setFld PIPE_BUF_FREE.PORT3 (.head _) _
  · exact .refl s

theorem releaseSrc_keeps (o : Option HeadOut) (s : State) : HeveKeeps [PIPE_BUF_FREE.PORT0.addr] s (releaseSrc o s) := by
  cases o with
  | none => exact .refl s
  | some o => exact releaseBuf_keeps ..

theorem heveShow_heve (e : Nat) (s : State) : (heveShow e s).heve = s.heve := rfl

/-- A picture that ends is gone and counted (R338). -/
theorem heveEnd_shown {s : State} (e : Fin 2) (p : HevePic) (bits : Nat) (he : e.val < s.heve.length) :
    (heveEng (heveEnd e p bits s) e).pic = none ∧
      (heveEnd e p bits s).fld (HEVE_CNT_PIC.COUNT e) =
        min (2 ^ (HEVE_CNT_PIC.COUNT e).width - 1) (s.fld (HEVE_CNT_PIC.COUNT e) + 1) := by
  unfold heveEnd
  extract_lets ts unit after next cap a b c
  have ha : HeveKeeps [PIPE_BUF_FREE.PORT0.addr] s a := (releaseSrc_keeps ..).trans (releaseSrc_keeps ..)
  constructor
  · have hb : heveEng b e = _ := heveEng_modHeve_same (s := a) (by rw [ha.length]; exact he) _
    have hc : (heveShow 1 (heveShow e c)).heve = b.heve := rfl
    rw [heveEng] at hb ⊢
    rw [hc, hb]
  · have hs : HeveKeeps [(HEVE_STATUS.BUSY e).addr, (HEVE_STATUS.BUSY 1).addr] c (heveShow 1 (heveShow e c)) :=
      ((HeveKeeps.refl c).heveShow e (.head _)).heveShow 1 (.tail _ (.head _))
    have hn : ∀ e : Fin 2, (HEVE_CNT_PIC.COUNT e).addr ∉ [(HEVE_STATUS.BUSY e).addr, (HEVE_STATUS.BUSY 1).addr] := by decide
    have hn' : ∀ e : Fin 2, (HEVE_CNT_PIC.COUNT e).addr ∉ [PIPE_BUF_FREE.PORT0.addr] := by decide
    have hb : b.fld (HEVE_CNT_PIC.COUNT e) = a.fld (HEVE_CNT_PIC.COUNT e) := rfl
    rw [hs.fld (hn e), State.fld_addFld_same _ _ _ rfl,
      State.fld_setFld_apart_at (F := HEVE_CNT_PIC.COUNT) (G := HEVE_CPB_FILL.BITS) e _ _ (by decide), hb, ha.fld (hn' e)]

/-! ### Slices -/

theorem length_emulate (z : Nat) (bs : List Byte) : bs.length ≤ (emulate z bs).length := by
  induction bs generalizing z with
  | nil => exact Nat.zero_le _
  | cons b l ih =>
    unfold emulate
    split
    · have := ih (if b = 0 then 1 else 0)
      simp only [List.length_cons]
      omega
    · have := ih (if b = 0 then z + 1 else 0)
      simp only [List.length_cons]
      omega

theorem length_sliceUnit (p : HevePic) (sl : SlicePlan) (x : SliceOpen) (data : List Byte) :
    data.length ≤ (sliceUnit p sl x data).length := by
  have h := length_emulate 0 ([BitVec.ofNat 8 (2 * if p.idr then 20 else 1), 1] ++ (closedBits (sliceHeader p sl x) ++ data))
  simp only [sliceUnit, nalUnit, List.length_append] at h ⊢
  omega

section Slices

variable {s : State} {e : Nat} {p : HevePic} {a : SlicePlan} {r : List SlicePlan} {bytes : List Byte}

theorem heveSlice_held (hheld : (heveEng s e).held ≠ []) (lead : SliceOpen) (bytes : List Byte) : heveSlice e lead bytes s = s := by
  unfold heveSlice
  split
  · rfl
  · split
    · rfl
    · exact if_pos (Or.inr (by simpa using hheld))

theorem heveSlice_long (hp : (heveEng s e).pic = some p) (hsl : p.slices = a :: r) (hhit : refHit s p = false)
    (hlen : sliceRoom s p a < 8 * bytes.length) (lead : SliceOpen) : heveSlice e lead bytes s = s := by
  unfold heveSlice
  rw [hp]
  simp only [hsl, hhit, hlen, Bool.false_eq_true, if_false, if_true, ite_self]

/-- The bytes that a slice adds to the access unit. -/
def sliceOut (s : State) (p : HevePic) (a : SlicePlan) (lead : SliceOpen) (bytes : List Byte) : List Byte :=
  (if p.index == 0 then leadUnits s p else []) ++ sliceUnit p a lead bytes

/-- The picture behind a slice that is complete. -/
def sliceLeft (s : State) (p : HevePic) (a : SlicePlan) (r : List SlicePlan) (lead : SliceOpen) (bytes : List Byte) : HevePic :=
  { p with slices := r, index := p.index + 1, bits := p.bits + 8 * (sliceOut s p a lead bytes).length, hits := 0
           coded := p.coded ++ sliceModes s p a }

/-- A slice that is ready, of no more bits than it is charged, goes to the ring; with the last one the picture ends (R357, R358). -/
theorem heveSlice_ready (hp : (heveEng s e).pic = some p) (hsl : p.slices = a :: r) (hready : sliceReady s p a.lastRow = true)
    (hheld : (heveEng s e).held = []) (hhit : refHit s p = false) (hlen : 8 * bytes.length ≤ sliceRoom s p a) (lead : SliceOpen) :
    ∃ u, HeveKeeps (ringRegs e) s u ∧
      (r ≠ [] → heveSlice e lead bytes s = modHeve e (fun h => { h with pic := some (sliceLeft s p a r lead bytes) }) u) ∧
      (r = [] → ∃ bits, heveSlice e lead bytes s = heveEnd e (sliceLeft s p a r lead bytes) bits u) := by
  have hno : ¬(sliceReady s p a.lastRow = false ∨ (heveEng s e).held.isEmpty = false) := by simp [hready, hheld]
  generalize ht : heveSlice e lead bytes s = t
  unfold heveSlice at ht
  rw [hp] at ht
  simp -zeta only [hsl] at ht
  rw [if_neg hno, if_neg (by rw [hhit]; decide), if_neg (Nat.not_lt.2 hlen)] at ht
  extract_lets first out bits fill last q u at ht
  have hu : HeveKeeps (ringRegs e) s u := heveEmit_keeps ..
  have hq : q = sliceLeft s p a r lead bytes := rfl
  clear_value u q
  subst hq
  cases r with
  | cons b r => exact ⟨u, hu, fun _ => ht.symm.trans (if_pos rfl), fun h => nomatch h⟩
  | nil =>
    replace ht := (if_neg (by decide)).symm.trans ht
    split at ht
    · exact ⟨u, hu, fun h => absurd rfl h, fun _ => ⟨_, ht.symm⟩⟩
    · exact ⟨_, hu.trans (heveEmit_keeps e _ u), fun h => absurd rfl h, fun _ => ⟨_, ht.symm⟩⟩

end Slices

/-! ### Detections -/

theorem heveFlag_shown {F : Nat → Fld} {cls : EventClass} (hc : cls ≠ .fatal) (e : Nat) (hfit : (F e).fits = true) (hw : (F e).width = 1)
    (ho : (F e).addr ≠ CALL_OVERFLOW.COUNT.addr) (s : State) : (heveFlag F cls e s).flag (F e) = true := by
  rw [heveFlag, postFlag, State.flag_postEvent hc _ ho, Nat.sub_self]
  exact State.flag_orBit_zero s (F e) hfit hw

theorem heveFlag_eng {F : Nat → Fld} {cls : EventClass} (hc : cls ≠ .fatal) (e k : Nat) (s : State) :
    heveEng (heveFlag F cls e s) k = heveEng s k := by
  have h : (heveFlag F cls e s).heve = s.heve := by
    rw [heveFlag, postFlag, heve_postEvent hc]
    rfl
  rw [heveEng, heveEng, h]

theorem heveFlag_stores {F : Nat → Fld} {cls : EventClass} (hc : cls ≠ .fatal) (e : Nat) (s : State) :
    (heveFlag F cls e s).stores = s.stores := postEvent_stores hc _

theorem exec_heveDetection {s : State} {e : Fin 2} {p : HevePic} (hg : ((heveEng s 0).pic.map (fun x => x.gang)).getD 0 = 0)
    (hp : (heveEng s e).pic = some p) : exec (.heveDetection e) s = .next (heveDetect e p s) := by
  show execHeveDetection e s = _
  unfold execHeveDetection
  rw [if_pos hg]
  simp only [hp]

/-- The engine of a picture in whose slice a detection came. -/
def heveHit (e : Nat) (p : HevePic) (s : State) : State :=
  modHeve e (fun h => { h with pic := some { p with hits := p.hits + 1 }, idrNext := true }) s

theorem heveDetect_first {p : HevePic} (h : p.hits = 0) (e : Nat) (s : State) :
    heveDetect e p s = heveFlag HEVE_EVENT.RECODE .info e (heveHit e p s) := by
  rw [heveDetect, if_neg (by omega)]
  exact if_pos h

theorem heveDetect_second {p : HevePic} (h : p.hits = 1) (e : Nat) (s : State) :
    heveDetect e p s = heveFlag HEVE_EVENT.ENC_FAULT .warning e (heveFlag HEVE_EVENT.RECODE .info e (heveHit e p s)) := by
  rw [heveDetect, if_neg (by omega)]
  exact if_neg (by omega)

/-! ### The read pointer -/

theorem heveShow_onlyRegs {s t : State} {as : List Nat} (h : OnlyRegs s t as) (e : Nat) (ha : (HEVE_STATUS.BUSY e).addr ∈ as) :
    OnlyRegs s (heveShow e t) as :=
  (((h.setFld (f := HEVE_STATUS.BUSY e) ha _).setFld (f := HEVE_STATUS.BAD_CFG e) ha _).setFld (f := HEVE_STATUS.OUT_WAITING e) ha
    _).setFld (f := HEVE_STATUS.WAITING e) ha _

/-- Settles O41: what goes to the ring and the events leave the engines as they are, but for the chunks that wait. -/
theorem encoderSlicesAndOutputRing : Obligations.EncoderSlicesAndOutputRing := by
  unfold Obligations.EncoderSlicesAndOutputRing
  refine ⟨?_, ?_, ?_, ?_, ?_, ?_, ?_, ?_, ?_, ?_⟩
  · intro s e lead bytes p a b r hp hsl hready hheld hhit hlen
    obtain ⟨u, hu, hmore, -⟩ := heveSlice_ready hp hsl hready hheld hhit hlen lead
    refine ⟨_, sliceLeft s p a (b :: r) lead bytes, congrArg Host.Outcome.next (hmore (List.cons_ne_nil _ _)), ?_, rfl, rfl, rfl, ?_, rfl⟩
    · rw [heveEng_modHeve_same (by rw [hu.length]; exact heve_lt_of_pic hp)]
    · have h := length_sliceUnit p a lead bytes
      simp only [sliceLeft, sliceOut, List.length_append]
      omega
  · intro s e lead bytes p a r hp hsl hhit hlen
    exact congrArg Host.Outcome.next (heveSlice_long hp hsl hhit hlen lead)
  · intro s e lead bytes hheld
    exact congrArg Host.Outcome.next (heveSlice_held hheld lead bytes)
  · intro s p k i c hi
    unfold ctuMode HevePic.intra
    by_cases hh : 2 ≤ p.hits
    · simp only [hh, if_true, decide_true, Bool.or_true]
    · simp only [hh, hi, or_true, if_true, if_false, decide_false, Bool.or_false]
  · intro s e lead bytes p a hp hsl hready hheld hhit hlen
    obtain ⟨u, hu, -, hend⟩ := heveSlice_ready hp hsl hready hheld hhit hlen lead
    obtain ⟨bits, hend⟩ := hend rfl
    have hn : ∀ e : Fin 2, (HEVE_CNT_PIC.COUNT e).addr ∉ ringRegs e := by decide
    obtain ⟨hpic, hcount⟩ := heveEnd_shown e (sliceLeft s p a [] lead bytes) bits (s := u) (by rw [hu.length]; exact heve_lt_of_pic hp)
    exact ⟨_, congrArg Host.Outcome.next hend, hpic, by rw [hcount, hu.fld (hn e)]⟩
  · intro s e p hg hp hh
    have ho : ∀ e : Fin 2, (HEVE_EVENT.RECODE e).addr ≠ CALL_OVERFLOW.COUNT.addr := by decide
    refine ⟨_, (exec_heveDetection hg hp).trans (congrArg _ (heveDetect_first hh e s)), ?_, ?_, ?_, ?_⟩
    · rw [heveFlag_eng (by decide), heveHit, heveEng_modHeve_same (heve_lt_of_pic hp), hh]
    · exact heveFlag_shown (by decide) e rfl rfl (ho e) _
    · exact (heveFlag_keeps (F := HEVE_EVENT.RECODE) (by decide) e (heveHit e p s) (.head _) (.tail _ (.head _))).regs
    · exact sameMemory_of_stores (heveFlag_stores (by decide) e (heveHit e p s))
  · intro s e p hg hp hh
    have ho : ∀ e : Fin 2, (HEVE_EVENT.RECODE e).addr ≠ CALL_OVERFLOW.COUNT.addr := by decide
    refine ⟨_, (exec_heveDetection hg hp).trans (congrArg _ (heveDetect_second hh e s)), ?_, ?_, ?_⟩
    · rw [heveFlag_eng (by decide), heveFlag_eng (by decide), heveHit, heveEng_modHeve_same (heve_lt_of_pic hp), hh]
    · rw [heveFlag, postFlag, State.flag_postEvent (e := { cls := .warning, .. }) (fun h => nomatch h) _ (ho e), State.orBit,
        State.flag_setFld_apart_at (F := HEVE_EVENT.RECODE) (G := HEVE_EVENT.ENC_FAULT) e _ _ (by decide)]
      exact heveFlag_shown (by decide) e rfl rfl (ho e) _
    · exact heveFlag_shown (F := HEVE_EVENT.ENC_FAULT) (by decide) e rfl rfl (ho e) _
  · intro s e
    obtain ⟨u, hu⟩ : ∃ u, u = (busOk 0 s).setFld (HEVE_CNT_PIC.COUNT e) 0 := ⟨_, rfl⟩
    obtain ⟨v, hv⟩ : ∃ v, v = u.setFld (HEVE_CNT_FLOOR.COUNT e) 0 := ⟨_, rfl⟩
    have he : exec (.heveCounterClear e) s = .next (v.setFld (HEVE_CNT_DROP.COUNT e) 0) := by
      rw [hv, hu]
      rfl
    refine ⟨_, he, ?_, ?_, ?_, ?_⟩
    · rw [State.fld_setFld_apart_at (F := HEVE_CNT_PIC.COUNT) (G := HEVE_CNT_DROP.COUNT) e _ _ (by decide), hv,
        State.fld_setFld_apart_at (F := HEVE_CNT_PIC.COUNT) (G := HEVE_CNT_FLOOR.COUNT) e _ _ (by decide), hu,
        State.fld_setFld_same _ _ _ rfl]
      rfl
    · rw [State.fld_setFld_apart_at (F := HEVE_CNT_FLOOR.COUNT) (G := HEVE_CNT_DROP.COUNT) e _ _ (by decide), hv,
        State.fld_setFld_same _ _ _ rfl]
      rfl
    · rw [State.fld_setFld_same _ _ _ rfl]
      rfl
    · rw [hv, hu]
      exact (((onlyRegs_busOk 0 s _).setFld (f := HEVE_CNT_PIC.COUNT e) (.head _) _).setFld (f := HEVE_CNT_FLOOR.COUNT e)
        (.tail _ (.head _)) _).setFld (f := HEVE_CNT_DROP.COUNT e) (.tail _ (.tail _ (.head _))) _
  · intro s e v hd hfree hroom hheld
    obtain ⟨u, hu⟩ : ∃ u, u = (busOk 0 s).setFld (HEVE_OUT_RD.RD e) v.toNat := ⟨_, rfl⟩
    have hd' : ¬(busOk 0 s).domainOn (17 + e.val) = false := by
      rw [Bool.not_eq_false]
      exact hd
    have hfree' : ¬netRingTaken (busOk 0 s) e = true := by
      rw [Bool.not_eq_true]
      exact hfree
    have hdrain : heveDrain (heveEng u e).held.length e u = u := by
      have hl : (heveEng u e).held = [] := by rw [hu]; exact hheld
      rw [hl]
      rfl
    have he : exec (.heveOutRdWrite e v) s = .next (heveShow e u) := by
      rw [← hdrain, hu]
      exact (if_neg hd').trans ((if_neg hfree').trans (if_neg (Nat.not_lt.2 hroom)))
    have hn : ∀ e : Fin 2, (HEVE_OUT_RD.RD e).addr ∉ [(HEVE_STATUS.BUSY e).addr] := by decide
    refine ⟨_, he, ?_, ?_, heveShow_onlyRegs ?_ e (.tail _ (.head _))⟩
    · rw [((HeveKeeps.refl u).heveShow e (.head _)).fld (hn e), hu, State.fld_setFld_same _ _ _ rfl]
      exact Nat.mod_eq_of_lt v.isLt
    · rw [heveShow_heve, hu]
      rfl
    · rw [hu]
      exact (onlyRegs_busOk 0 s _).setFld (f := HEVE_OUT_RD.RD e) (.head _) _
  · intro s e v hd h
    have hd' : ¬(busOk 0 s).domainOn (17 + e.val) = false := by
      rw [Bool.not_eq_false]
      exact hd
    refine (if_neg hd').trans ?_
    by_cases hf : netRingTaken (busOk 0 s) e = true
    · exact if_pos hf
    · exact (if_neg hf).trans (if_pos (h.resolve_left hf))

end Sys2Proof.Machine
end

section
/-! PROOFS. Encoder pictures begin; samples, QPs and vectors keep their bounds (R332, R335, R339, R342, R345, R347 to R349). -/

namespace Sys2Proof.Machine

/-! ### Samples, QPs and vectors -/

theorem reduceSample_lt (n d x : Nat) : reduceSample n d x < 2 ^ d ∨ n ≤ d := by
  unfold reduceSample
  split
  · next h => exact .inr h
  · have hpos : 0 < 2 ^ d := Nat.two_pow_pos d
    exact .inl (lt_of_le_of_lt (Nat.min_le_left ..) (by omega))

theorem ctuQp_range (cfg : List Word) (d : Nat) (idr first : Bool) (rc qp : Int) :
    (qpRange cfg d).1 ≤ ctuQp cfg d idr first rc qp ∧ ctuQp cfg d idr first rc qp ≤ (qpRange cfg d).2 := by
  have hle : (qpRange cfg d).1 ≤ (qpRange cfg d).2 := min_le_right ..
  exact ⟨le_max_left .., max_le hle (min_le_left ..)⟩

theorem bestOf_mem (rate : Int × Int → Nat) (vs : List (Int × Int)) {b : Int × Int} {P : Int × Int → Prop} (hb : P b)
    (hvs : ∀ v ∈ vs, P v) : P (bestOf rate vs b) := by
  induction vs generalizing b with
  | nil => exact hb
  | cons v vs ih =>
    refine ih ?_ fun w hw => hvs w (.tail _ hw)
    show P (if rate v < rate b then v else b)
    split
    · exact hvs v (.head _)
    · exact hb

theorem inWindow_of_around {c v w : Int × Int} {k : Int} (h : w ∈ around c v k) : inWindow c w = true := (List.mem_filter.1 h).2

theorem motionSearch_inWindow (rate : Int × Int → Nat) (c : Int × Int) : inWindow c (motionSearch rate c) = true := by
  unfold motionSearch
  refine bestOf_mem rate _ (P := fun v => inWindow c v = true) (bestOf_mem rate _ (bestOf_mem rate _ ?_ ?_)
    fun _ => inWindow_of_around) fun _ => inWindow_of_around
  · simp [inWindow]
  · intro v hv
    simp only [List.bind_eq_flatMap, List.pure_def, List.mem_flatten, List.mem_map, List.mem_flatMap, List.mem_range,
      List.mem_singleton] at hv
    obtain ⟨l, ⟨-, ⟨j, hj, rfl⟩, rfl⟩, hv⟩ := hv
    simp only [List.mem_map, List.mem_flatMap, List.mem_range, List.mem_singleton] at hv
    obtain ⟨-, ⟨i, hi, rfl⟩, rfl⟩ := hv
    simp only [inWindow, Bool.and_eq_true, decide_eq_true_eq]
    omega

/-! ### A picture begins -/

/-- What the events of a picture that begins show. -/
def mapShown (e : Nat) (missing : Bool) (s : State) : State := if missing then heveFlag HEVE_EVENT.MAP_MISSING .info e s else s
def halfShown (e gang : Nat) (o : HeadOut) (s : State) : State :=
  if gang = 2 ∧ ((some o).isNone ∨ (none : Option HeadOut).isNone) then s.setFlag (HEVE_EVENT.HALF_MISSING e) true else s
def floorShown (e n : Nat) (s : State) : State :=
  if 0 < n then heveFlag HEVE_EVENT.FLOORED .info e (s.addFld (HEVE_CNT_FLOOR.COUNT e) 1) else s

/-- The engine shows its picture: `a` holds it. -/
def beginShown (e gang : Nat) (o : HeadOut) (missing : Bool) (n : Nat) (a : State) : State :=
  heveShow 1 (heveShow e ((floorShown e n (halfShown e gang o (mapShown e missing a))).setFlag (HEVE_STATUS.GANG_OK 0) (gang != 0)))

/-- The left source alone, with the configuration that a source gives the picture. -/
def soleInvalid (s : State) (e gang : Nat) (o : HeadOut) : Bool :=
  let dl := parseHead (halfDesc s (some o) e)
  let dr := parseHead (halfDesc s none 1)
  heveInvalid (heveRegs s e) gang (heveOn s 1) (dl.ow, dl.oh, dl.format, dl.depth) (dr.ow, dr.oh, dr.format, dr.depth)

theorem heveStart_valid {s : State} {e gang : Nat} {o : HeadOut} (c0 c1 : List CtuCost) (he : e < s.heve.length)
    (hv : soleInvalid s e gang o = false) :
    ∃ (p : HevePic) (a : State) (missing : Bool) (n : Nat), heveStart e gang (some o) none c0 c1 s = beginShown e gang o missing n a ∧
      p.left = some o ∧ p.right = none ∧ p.gang = gang ∧ p.index = 0 ∧ p.epoch = s.fld CUE_EPOCH.EPOCH ∧
      (heveEng a e).pic = some p ∧ (heveEng a e).waiting = (heveEng s e).waiting.drop 1 := by
  generalize ht : heveStart e gang (some o) none c0 c1 s = t
  unfold heveStart at ht
  extract_lets cfg dl dr wr s1 bad h sig newSeq gop count idr ts unit fill slices share lost plan total budget overhead f0 f1 at ht
  replace ht := (if_neg (show ¬heveInvalid cfg gang (heveOn s1 1) (dl.ow, dl.oh, dl.format, dl.depth) (dr.ow, dr.oh, dr.format, dr.depth) = true
    from Bool.not_eq_true _ ▸ hv)).symm.trans ht
  obtain ⟨⟨ol, ml⟩, hl⟩ : ∃ x, x = halfOffsets s1 cfg (some o) dl.ow dl.oh := ⟨_, rfl⟩
  obtain ⟨⟨or_, mr⟩, hr⟩ : ∃ x, x = halfOffsets s1 cfg none wr dl.oh := ⟨_, rfl⟩
  rw [← hl, ← hr] at ht
  simp -zeta -zetaDelta only at ht
  extract_lets pic a at ht
  have he1 : e < s1.heve.length := (length_modAt ..).symm ▸ he
  have hs1 : heveEng s1 e = _ := heveEng_modHeve_same he _
  have ha : heveEng a e = _ := heveEng_modHeve_same he1 _
  refine ⟨pic, a, pic.mapMissing, pic.floored, ht.symm, rfl, rfl, rfl, rfl, rfl, ?_, ?_⟩
  · rw [ha]
  · rw [ha, hs1]

/-- The registers that the events of a picture that begins change. -/
def beginRegs (e : Nat) : List Nat :=
  [(HEVE_STATUS.BUSY e).addr, (HEVE_STATUS.BUSY 1).addr, (HEVE_STATUS.GANG_OK 0).addr, (HEVE_EVENT.FLOORED e).addr,
    (HEVE_CNT_FLOOR.COUNT e).addr, CALL_OVERFLOW.COUNT.addr]

section Shown

variable {as : List Nat} {s t : State}

theorem mapShown_keeps (e : Nat) (missing : Bool) (s : State) : HeveKeeps (beginRegs e) s (mapShown e missing s) := by
  unfold mapShown
  split
  · exact heveFlag_keeps (F := HEVE_EVENT.MAP_MISSING) (by decide) e s (.tail _ (.tail _ (.tail _ (.head _)))) (by simp [beginRegs])
  · exact .refl s

theorem halfShown_keeps (e gang : Nat) (o : HeadOut) (s : State) : HeveKeeps (beginRegs e) s (halfShown e gang o s) := by
  unfold halfShown
  split
  · exact (HeveKeeps.refl s).setFld (HEVE_EVENT.HALF_MISSING e) (.tail _ (.tail _ (.tail _ (.head _)))) _
  · exact .refl s

theorem floorShown_keeps (e n : Nat) (s : State) : HeveKeeps (beginRegs e) s (floorShown e n s) := by
  unfold floorShown
  split
  · have hc : HeveKeeps (beginRegs e) s (s.addFld (HEVE_CNT_FLOOR.COUNT e) 1) :=
      (HeveKeeps.refl s).setFld (HEVE_CNT_FLOOR.COUNT e) (.tail _ (.tail _ (.tail _ (.tail _ (.head _))))) _
    exact hc.trans (heveFlag_keeps (F := HEVE_EVENT.FLOORED) (by decide) e _ (.tail _ (.tail _ (.tail _ (.head _)))) (by simp [beginRegs]))
  · exact .refl s

theorem beginShown_keeps (e gang : Nat) (o : HeadOut) (missing : Bool) (n : Nat) (a : State) :
    HeveKeeps (beginRegs e) a (beginShown e gang o missing n a) :=
  (((((mapShown_keeps e missing a).trans (halfShown_keeps e gang o _)).trans (floorShown_keeps e n _)).setFld (HEVE_STATUS.GANG_OK 0)
    (.tail _ (.tail _ (.head _))) _).heveShow e (.head _)).heveShow 1 (.tail _ (.head _))

theorem heveShow_busy (e : Fin 2) (s : State) : (heveShow e s).flag (HEVE_STATUS.BUSY e) =
    ((heveEng s e).pic.isSome || (e.val == 1 && ((heveEng s 0).pic.map (·.gang)).getD 0 != 0)) := by
  unfold heveShow
  extract_lets h busy
  rw [State.flag_setFld_apart_at (F := HEVE_STATUS.BUSY) (G := HEVE_STATUS.WAITING) e _ _ (by decide), State.setFlag,
    State.flag_setFld_apart_at (F := HEVE_STATUS.BUSY) (G := HEVE_STATUS.OUT_WAITING) e _ _ (by decide), State.setFlag,
    State.flag_setFld_apart_at (F := HEVE_STATUS.BUSY) (G := HEVE_STATUS.BAD_CFG) e _ _ (by decide)]
  exact State.flag_setFlag_same _ (HEVE_STATUS.BUSY e) _ rfl rfl

theorem beginShown_busy {e : Fin 2} {gang : Nat} {o : HeadOut} {missing : Bool} {n : Nat} {a : State} {p : HevePic}
    (hp : (heveEng a e).pic = some p) : (beginShown e gang o missing n a).flag (HEVE_STATUS.BUSY e) = true := by
  obtain ⟨u, hu⟩ : ∃ u, u = (floorShown e n (halfShown e gang o (mapShown e missing a))).setFlag (HEVE_STATUS.GANG_OK 0) (gang != 0) :=
    ⟨_, rfl⟩
  have hk : HeveKeeps (beginRegs e) a u := by
    rw [hu]
    exact (((mapShown_keeps e missing a).trans (halfShown_keeps e gang o _)).trans (floorShown_keeps e n _)).setFld
      (HEVE_STATUS.GANG_OK 0) (.tail _ (.tail _ (.head _))) _
  have hpu : (heveEng u e).pic = some p := (congrArg HeveEng.pic (heveEng_of_marks hk.marks e)).trans hp
  have hb : beginShown e gang o missing n a = heveShow 1 (heveShow e u) := by
    rw [hu]
    rfl
  rw [hb]
  obtain rfl | rfl : e = 0 ∨ e = 1 := by omega
  · have hp0 : (heveEng u 0).pic = some p := hpu
    have hk1 := (HeveKeeps.refl (heveShow 0 u)).heveShow 1 (as := [(HEVE_STATUS.BUSY 1).addr]) (.head _)
    refine (State.flag_of_word (hk1.regs _ (by decide))).trans ((heveShow_busy 0 u).trans ?_)
    show ((heveEng u 0).pic.isSome || _) = true
    rw [hp0]
    rfl
  · have hp1 : (heveEng (heveShow 1 u) 1).pic = some p := hpu
    refine (heveShow_busy 1 (heveShow 1 u)).trans ?_
    show ((heveEng (heveShow 1 u) 1).pic.isSome || _) = true
    rw [hp1]
    rfl

theorem beginShown_half (o : HeadOut) (missing : Bool) (n : Nat) (a : State) :
    (beginShown 0 2 o missing n a).flag (HEVE_EVENT.HALF_MISSING 0) = true := by
  obtain ⟨u, hu⟩ : ∃ u, u = floorShown 0 n (halfShown 0 2 o (mapShown 0 missing a)) := ⟨_, rfl⟩
  have hb : beginShown 0 2 o missing n a = heveShow 1 (heveShow 0 (u.setFlag (HEVE_STATUS.GANG_OK 0) true)) := by
    rw [hu]
    rfl
  have hk : HeveKeeps [(HEVE_STATUS.BUSY 0).addr, (HEVE_STATUS.BUSY 1).addr] u
      (heveShow 1 (heveShow 0 (u.setFlag (HEVE_STATUS.GANG_OK 0) true))) :=
    (((HeveKeeps.refl u).setFld (HEVE_STATUS.GANG_OK 0) (.head _) _).heveShow 0 (.head _)).heveShow 1 (.tail _ (.head _))
  rw [hb, State.flag_of_word (hk.regs _ (by decide)), hu]
  have hh : halfShown 0 2 o (mapShown 0 missing a) = (mapShown 0 missing a).setFlag (HEVE_EVENT.HALF_MISSING 0) true :=
    if_pos ⟨rfl, .inr rfl⟩
  have hset : ((mapShown 0 missing a).setFlag (HEVE_EVENT.HALF_MISSING 0) true).flag (HEVE_EVENT.HALF_MISSING 0) = true :=
    State.flag_setFlag_same _ _ _ rfl rfl
  rw [hh]
  unfold floorShown
  split
  · rw [heveFlag, postFlag, State.flag_postEvent (e := { cls := .info, .. }) (fun h => nomatch h) _ (by decide), State.orBit,
      State.flag_setFld_apart _ (HEVE_EVENT.HALF_MISSING 0) (HEVE_EVENT.FLOORED 0) _ rfl rfl, State.addFld,
      State.flag_setFld_apart _ (HEVE_EVENT.HALF_MISSING 0) (HEVE_CNT_FLOOR.COUNT 0) _ rfl rfl, hset]
  · exact hset

end Shown

/-! ### The engine takes its source -/

theorem heve_lt_of_waiting {s : State} {e : Nat} {o : HeadOut} {w : List HeadOut} (h : (heveEng s e).waiting = o :: w) :
    e < s.heve.length := by
  by_contra hn
  rw [heveEng, List.getElem?_eq_none (Nat.not_lt.1 hn)] at h
  cases h

theorem sourcePoison_checked (e : Nat) (o : HeadOut) (s : State) : Checked s (sourcePoison e (some o) s) :=
  (poisonWarn_checked ..).trans (poisonWarn_checked ..)

theorem Checked.heveRegs {s t : State} (h : Checked s t) (e : Fin 2) : heveRegs t e = heveRegs s e := by
  have hn : ∀ e : Fin 2, ∀ i < 17, 0x180000 + 0x8000 * e.val + 4 * i ∉ checkRegs := by decide
  exact List.map_congr_left fun i hi => h.regs _ (hn e i (List.mem_range.1 hi))

theorem Checked.soleInvalid {s t : State} (h : Checked s t) (e : Fin 2) (gang : Nat) (o : HeadOut) :
    soleInvalid t e gang o = soleInvalid s e gang o := by
  have htab : t.table 0x08 6 = s.table 0x08 6 := by rw [State.table, State.table, h.state]
  have hport : t.fld (HEVE_CTRL.PORT 1) = s.fld (HEVE_CTRL.PORT 1) := h.fld (by decide)
  have hhalf : halfDesc t none 1 = halfDesc s none 1 := by
    unfold halfDesc
    simp only [htab, hport]
  have hon : heveOn t 1 = heveOn s 1 := by
    rw [heveOn, heveOn, State.domainOn, State.domainOn, h.fld (by decide), h.flag (by decide)]
  unfold Machine.soleInvalid
  rw [h.heveRegs, hhalf, hon]
  rfl

section Begin

variable {s : State} {e : Fin 2} {gang : Nat} {o : HeadOut} {w : List HeadOut} {noMap alone : Bool}

/-- An engine that may begin takes its left source alone and shows the picture. -/
theorem heveBegin_takes (c0 c1 : List CtuCost) (hgang : heveGang s = gang) (hon : heveOn s e = true) (hbad : (heveEng s e).bad = false)
    (hcod : heveCoding s e = false) (hheld : (heveEng s e).held = []) (hturn : ¬(e.val = 1 ∧ gang ≠ 0))
    (hother : ¬(gang ≠ 0 ∧ heveCoding s 1 = true)) (hw : (heveEng s e).waiting = o :: w)
    (hsrc : heveSources s e gang alone = some (some o, none)) (hdone : srcDone s o = true)
    (hmap : noMap = true ∨ mapWaits s (heveRegs s e) (some o) = false) (hv : soleInvalid s e gang o = false) :
    ∃ (p : HevePic) (a : State) (missing : Bool) (n : Nat),
      heveBegin e c0 c1 noMap alone s = beginShown e gang o missing n a ∧ p.left = some o ∧ p.right = none ∧ p.gang = gang ∧
      p.index = 0 ∧ p.epoch = s.fld CUE_EPOCH.EPOCH ∧ (heveEng a e).pic = some p ∧ (heveEng a e).waiting = w := by
  have hc := sourcePoison_checked e o s
  have heng : heveEng (sourcePoison e (some o) s) e = heveEng s e := by rw [heveEng, heveEng, hc.state]
  have hlt : e.val < (sourcePoison e (some o) s).heve.length := by
    rw [hc.state]
    exact heve_lt_of_waiting hw
  obtain ⟨p, a, missing, n, hstart, hl, hr, hg, hi, hep, hpic, hwait⟩ :=
    heveStart_valid c0 c1 hlt ((hc.soleInvalid e gang o).trans hv)
  rw [heng, hw] at hwait
  refine ⟨p, a, missing, n, ?_, hl, hr, hg, hi, hep.trans (hc.fld (by decide)), hpic, hwait⟩
  rw [← hstart]
  unfold heveBegin
  rw [hgang]
  refine (if_neg ?_).trans ?_
  · rw [hon, hbad, hcod, hheld]
    simp only [Bool.true_eq_false, Bool.false_eq_true, List.isEmpty_nil, false_or, not_or]
    exact ⟨hturn, hother⟩
  · simp only [hsrc]
    refine (if_neg ?_).trans rfl
    have hready : ∀ low, srcReady s low (some o) = true := fun low => by simp [srcReady, hdone]
    have hnone : ∀ low, srcReady s low none = true := fun low => rfl
    rw [hready, hnone]
    have hno : mapWaits s (heveRegs s e) none = false := rfl
    obtain h | h := hmap <;> simp [h, hno]

end Begin

theorem heveSources_sole {s : State} {e : Nat} {o : HeadOut} {w : List HeadOut} (hw : (heveEng s e).waiting = o :: w) (alone : Bool) :
    heveSources s e 0 alone = some (some o, none) := by
  unfold heveSources
  rw [hw]
  rfl

theorem heveSources_alone {s : State} {o : HeadOut} {w : List HeadOut} (hw : (heveEng s 0).waiting = o :: w)
    (hw1 : (heveEng s 1).waiting = []) : heveSources s 0 2 true = some (some o, none) := by
  unfold heveSources
  rw [hw, hw1]
  simp

/-- What a picture that began shows, whatever its events. -/
theorem beginShown_eng {e gang : Nat} {o : HeadOut} {missing : Bool} {n : Nat} {a : State} {p : HevePic} {w : List HeadOut}
    (hp : (heveEng a e).pic = some p) (hw : (heveEng a e).waiting = w) :
    (heveEng (beginShown e gang o missing n a) e).pic = some p ∧ (heveEng (beginShown e gang o missing n a) e).waiting = w := by
  have hm := heveEng_of_marks (beginShown_keeps e gang o missing n a).marks e
  exact ⟨(congrArg HeveEng.pic hm).trans hp, (congrArg HeveEng.waiting hm).trans hw⟩

theorem heveOn_of_gang {s : State} (h : heveGang s ≠ 0) : heveOn s 0 = true := by
  by_contra hn
  refine h ?_
  simp [heveGang, hn]

/-- Settles O40: a picture that begins holds the source that its engine took, and its events leave the engine. -/
theorem encoderPicturesBegin : Obligations.EncoderPicturesBegin := by
  unfold Obligations.EncoderPicturesBegin
  refine ⟨?_, ?_, ?_, ?_, fun n d x _ => reduceSample_lt n d x, ctuQp_range, motionSearch_inWindow⟩
  · intro s e c0 c1 o w dl dr hgang hon hbad hcod hheld hw hdone hmap hdl hdr hv
    subst hdl hdr
    obtain ⟨p, a, missing, n, hbegin, hl, hr, hg, hi, hep, hpic, hwait⟩ := heveBegin_takes (noMap := false) (alone := false) c0 c1 hgang hon hbad hcod hheld
      (fun h => h.2 rfl) (fun h => h.1 rfl) hw (heveSources_sole hw false) hdone (.inr hmap) hv
    obtain ⟨hpic', hwait'⟩ := beginShown_eng (gang := 0) (o := o) (missing := missing) (n := n) hpic hwait
    exact ⟨_, p, congrArg Host.Outcome.next hbegin, hpic', hl, hr, hg, hi, hep, hwait', beginShown_busy hpic⟩
  · intro s c0 c1 o w dl dr hgang hbad hpic0 hheld hw hpic1 hw1 hdone hmap hdl hdr hv
    subst hdl hdr
    have hcod0 : heveCoding s (0 : Fin 2) = false := by
      show heveCoding s 0 = false
      simp [heveCoding, hpic0]
    have hcod1 : ¬(2 ≠ 0 ∧ heveCoding s 1 = true) := by simp [heveCoding, hpic0, hpic1]
    obtain ⟨p, a, missing, n, hbegin, hl, hr, hg, -, -, hpic, hwait⟩ := heveBegin_takes (e := 0) (noMap := false) (alone := true) c0 c1 hgang
      (heveOn_of_gang (by rw [hgang]; decide)) hbad hcod0 hheld (fun h => nomatch h.1) hcod1 hw (heveSources_alone hw hw1) hdone
      (.inr hmap) hv
    obtain ⟨hpic', -⟩ := beginShown_eng (gang := 2) (o := o) (missing := missing) (n := n) hpic hwait
    exact ⟨_, p, (if_pos hgang).trans (congrArg Host.Outcome.next hbegin), hpic', hl, hr, hg, beginShown_half .., beginShown_busy hpic⟩
  · intro s e c0 c1 o w dl dr hgang hon hbad hcod hheld hw hdone hdl hdr hv
    subst hdl hdr
    obtain ⟨p, a, missing, n, hbegin, hl, -, -, hi, -, hpic, hwait⟩ := heveBegin_takes (noMap := true) (alone := false) c0 c1 hgang hon hbad hcod hheld
      (fun h => h.2 rfl) (fun h => h.1 rfl) hw (heveSources_sole hw false) hdone (.inl rfl) hv
    obtain ⟨hpic', hwait'⟩ := beginShown_eng (gang := 0) (o := o) (missing := missing) (n := n) hpic hwait
    exact ⟨_, p, congrArg Host.Outcome.next hbegin, hpic', hl, hi, hwait'⟩
  · intro s c0 c1 hgang hcod
    exact congrArg Host.Outcome.next (if_pos (.inr (.inr (.inr (.inr (.inr ⟨hgang, hcod⟩))))))

end Sys2Proof.Machine
end

section
/-! PROOFS. NVM operations start, end, are refused or are cut (R101 to R105, R548). -/

namespace Sys2Proof.Machine

/-! ### Bytes -/

theorem leBytes_leNat (bs : List Byte) : leBytes bs.length (leNat bs) = bs := by
  induction bs with
  | nil => rfl
  | cons b bs ih =>
    have hb : b.toNat < 256 := b.isLt
    rw [leBytes, List.length_cons, List.range_succ_eq_map, List.map_cons, List.map_map]
    refine congrArg₂ List.cons ?_ (Eq.trans (List.map_congr_left fun i _ => ?_) ih)
    · refine BitVec.eq_of_toNat_eq ?_
      rw [leNat, BitVec.toNat_ofNat, pow_zero, Nat.div_one]
      omega
    · have hdiv : (b.toNat + 256 * leNat bs) / 256 ^ (i + 1) = leNat bs / 256 ^ i := by
        rw [pow_succ', ← Nat.div_div_eq_div_mul]
        congr 1
        omega
      simp only [Function.comp_apply, leNat, Nat.succ_eq_add_one, hdiv]

theorem readList_append {w : Nat} (d : BitVec w) (m : Sparse w) (a n k : Nat) :
    readList d m a n ++ readList d m (a + n) k = readList d m a (n + k) := by
  simp only [readList, List.range_add, List.map_append, List.map_map, Function.comp_def, Nat.add_assoc]

/-- A run of bytes read word by word. -/
theorem readList_words {w : Nat} (d : BitVec w) (m : Sparse w) (a k n : Nat) :
    ((List.range n).map (fun i => readList d m (a + k * i) k)).flatten = readList d m a (k * n) := by
  induction n with
  | zero => rfl
  | succ n ih =>
    rw [List.range_succ, List.map_append, List.flatten_append, ih, Nat.mul_succ, ← readList_append]
    simp

theorem readAt_clearRange {w : Nat} (d : BitVec w) (m : Sparse w) (lo hi x : Nat) :
    readAt d (clearRange m lo hi) x = if lo ≤ x ∧ x < hi then d else readAt d m x := by
  unfold clearRange
  induction m with
  | nil => simp [readAt]
  | cons e m ih =>
    obtain ⟨k, v⟩ := e
    by_cases hin : lo ≤ k ∧ k < hi
    · have hf : (decide (k < lo) || decide (hi ≤ k)) = false := by simp; omega
      simp only [List.filter_cons, hf, Bool.false_eq_true, if_false, ih, readAt]
      by_cases hx : lo ≤ x ∧ x < hi
      · rw [if_pos hx, if_pos hx]
      · rw [if_neg hx, if_neg hx, if_neg (by rintro rfl; exact hx hin)]
    · have hf : (decide (k < lo) || decide (hi ≤ k)) = true := by simp; omega
      simp only [List.filter_cons, hf, if_true, ih, readAt]
      by_cases hx : x = k
      · rw [if_pos hx, if_pos hx, if_neg (hx ▸ hin)]
      · rw [if_neg hx, if_neg hx]

/-! ### An operation begins -/

theorem OnlyRegs.setTrust {s t : State} {as : List Nat} (h : OnlyRegs s t as) (x : TrustState) :
    OnlyRegs { s with trust := x } { t with trust := x } as :=
  ⟨congrArg (fun u : State => { u with trust := x }) h.1, h.2⟩

theorem nvmStart_shown (op : NvmOp) (s : State) : (nvmStart op (busOk 0 s)).trust.nvmOp = some (op, s.ticks) ∧
    (nvmStart op (busOk 0 s)).flag NVMC_STATUS.BUSY = true ∧
    OnlyRegs { s with trust := (nvmStart op (busOk 0 s)).trust } (nvmStart op (busOk 0 s)) [NVMC_STATUS.BUSY.addr] :=
  ⟨rfl, State.flag_setFlag_same _ NVMC_STATUS.BUSY true rfl rfl,
    ((onlyRegs_busOk 0 s _).setFld (f := NVMC_STATUS.BUSY) (.head _) _).setTrust _⟩

theorem exec_journalAppend {s : State} {p : Nat} (hb : nvmBlocked s = false) (hlen : leAt (nvmBuffer s) 3 1 ≤ 228)
    (hs : s.trust.jrnlSpent = false) (hp : nextPage s = some p) :
    exec .journalAppend s = .next (nvmStart (.append p (nvmBuffer s)) (busOk 0 s)) := by
  have hno : ¬(nvmBlocked (busOk 0 s) = true ∨ 228 < leAt (nvmBuffer (busOk 0 s)) 3 1) := by
    rintro (h | h)
    · rw [show nvmBlocked (busOk 0 s) = false from hb] at h
      cases h
    · exact absurd h (Nat.not_lt.2 hlen)
  have hspent : ¬(busOk 0 s).trust.jrnlSpent = true := by
    rw [Bool.not_eq_true]
    exact hs
  refine (if_neg hno).trans ((if_neg hspent).trans ?_)
  have hp' : nextPage (busOk 0 s) = some p := hp
  rw [hp']
  rfl

theorem exec_slotProgram {s : State} {r : RewriteSession} (hr : s.trust.session = some r) (hb : nvmBlocked s = false) (hm : s.mode = 6)
    (ha : s.fld NVMC_ADDR.ADDR % 256 = 0) (hlo : slotBase r.slot ≤ s.fld NVMC_ADDR.ADDR)
    (hhi : s.fld NVMC_ADDR.ADDR < slotBase r.slot + 0x1800000) (he : sessionErased r = true)
    (hpe : pageErased s (s.fld NVMC_ADDR.ADDR) = true) (hh : r.header = true → s.fld NVMC_ADDR.ADDR < slotBase r.slot + 0x1000) :
    exec .slotProgram s = .next (nvmStart (.program (s.fld NVMC_ADDR.ADDR) (nvmBuffer s)) (busOk 0 s)) := by
  have hno : ¬(nvmBlocked s = true ∨ s.mode ≠ 6 ∨ s.fld NVMC_ADDR.ADDR % 256 ≠ 0 ∨ s.fld NVMC_ADDR.ADDR < slotBase r.slot ∨
      0x1800000 ≤ s.fld NVMC_ADDR.ADDR - slotBase r.slot ∨ sessionErased r = false ∨ pageErased s (s.fld NVMC_ADDR.ADDR) = false ∨
      (r.header = true ∧ 0x1000 ≤ s.fld NVMC_ADDR.ADDR - slotBase r.slot)) := by
    rw [hb, he, hpe]
    simp only [Bool.false_eq_true, Bool.true_eq_false, false_or, not_or, not_and]
    exact ⟨by omega, by omega, by omega, by omega, fun h => by have := hh h; omega⟩
  show execSlotProgram s = _
  unfold execSlotProgram
  extract_lets u a
  have hu : u.trust.session = some r := hr
  rw [hu]
  exact if_neg hno

theorem exec_sectorErase {s : State} (hb : nvmBlocked s = false) (ha : s.fld NVMC_ADDR.ADDR % 4096 = 0) (hm : s.mode = 6 ∨ s.mode = 1)
    (hj : journalSectorOk s (s.fld NVMC_ADDR.ADDR) = true) :
    exec .sectorErase s = .next (nvmStart (.erase (s.fld NVMC_ADDR.ADDR)) (busOk 0 s)) := by
  show execSectorErase s = _
  unfold execSectorErase
  extract_lets u a inSlot inJournal
  have hin : inJournal = true := by
    show ((s.mode == 6 || s.mode == 1) && journalSectorOk s (s.fld NVMC_ADDR.ADDR)) = true
    obtain hm | hm := hm <;> simp [hm, hj]
  have hno : ¬(nvmBlocked s = true ∨ s.fld NVMC_ADDR.ADDR % 4096 ≠ 0 ∨ (inSlot || inJournal) = false) := by
    rw [hb, ha, hin, Bool.or_true]
    simp
  exact if_neg hno

/-! ### Refused operations -/

theorem trust_postEvent {e : Event} (he : e.cls ≠ .fatal) (s : State) : (postEvent e s).trust = s.trust := by
  obtain ⟨r, c, l, h, -⟩ := postEvent_frame he s
  rw [h]

theorem nvmRefuse_eq (s : State) : ∃ e : Event, e.cls ≠ .fatal ∧ nvmRefuse s = postEvent e (s.setFlag NVMC_STATUS.REFUSED true) := by
  exact ⟨{ cls := .warning, block := 24, cause := 0x204, inst := 0xFF, detail := NVMC_OP.OP.addr }, nofun, rfl⟩

theorem nvmRefuse_shown (s : State) : (nvmRefuse (busOk 0 s)).flag NVMC_STATUS.REFUSED = true ∧
    (nvmRefuse (busOk 0 s)).trust = s.trust ∧ SameMemory s (nvmRefuse (busOk 0 s)) := by
  obtain ⟨e, he, hr⟩ := nvmRefuse_eq (busOk 0 s)
  rw [hr]
  exact ⟨(State.flag_postEvent he _ (by decide)).trans (State.flag_setFlag_same _ _ _ rfl rfl), trust_postEvent he _,
    sameMemory_of_stores (postEvent_stores he _)⟩

theorem exec_nvm_blocked {s : State} (hb : nvmBlocked s = true) {c : Instr}
    (hc : c ∈ [Instr.journalAppend, .slotProgram, .sectorErase, .nvmRead]) : exec c s = .next (nvmRefuse (busOk 0 s)) := by
  have hb' : nvmBlocked (busOk 0 s) = true := hb
  simp only [List.mem_cons, List.not_mem_nil, or_false] at hc
  obtain rfl | rfl | rfl | rfl := hc
  · exact if_pos (.inl hb')
  · show execSlotProgram s = _
    unfold execSlotProgram
    extract_lets u a
    split
    · rfl
    · exact if_pos (.inl hb')
  · exact if_pos (.inl hb')
  · exact if_pos hb'

/-! ### An operation ends -/

theorem programHeld_none {s : State} (h : s.trust.held = []) : programHeld s = s := if_pos (.inl (by rw [h]; rfl))

theorem nvmIdle_shown (s : State) : (nvmIdle s).flag NVMC_STATUS.BUSY = false ∧ (nvmIdle s).trust = { s.trust with nvmOp := none } ∧
    (nvmIdle s).nvm = s.nvm ∧ RegsBut s (nvmIdle s) [NVMC_STATUS.BUSY.addr] :=
  ⟨State.flag_setFlag_same s NVMC_STATUS.BUSY false rfl rfl, rfl, rfl,
    fun a ha => State.word_setFld_ne s NVMC_STATUS.BUSY _ (List.ne_of_not_mem_cons ha)⟩

theorem exec_nvmOpComplete {s t : State} {op : NvmOp} {k : Nat} (ho : s.trust.nvmOp = some (op, k)) (ht : t = nvmEffect op (nvmIdle s))
    (hh : t.trust.held = []) : exec .nvmOpComplete s = .next t := by
  show execNvmOpComplete s = _
  unfold execNvmOpComplete
  rw [ho]
  simp only
  rw [← ht, programHeld_none hh]

theorem nvmEffect_append (p : Nat) (data : List Byte) (s : State) : nvmEffect (.append p data) s =
    advanceJournal p (s.fld NVMC_JRNL_SEQ.DATA) (programBoth p data s) := rfl

theorem nvmEffect_program {s : State} (h : s.trust.session = none) (a : Nat) (data : List Byte) :
    nvmEffect (.program a data) s = s.writeNvm a data := by
  have hs : (s.writeNvm a data).trust.session = none := h
  show sessionProgrammed a (s.writeNvm a data) = _
  rw [sessionProgrammed, hs]

/-- The journal sector that may be erased next moves on with its erase (R105). -/
def eraseTurn (a : Nat) (s : State) : TrustState :=
  if journalSectorOk s a then { s.trust with eraseRun := (journalErases s).tail } else s.trust

theorem eraseTurn_held (a : Nat) (s : State) : (eraseTurn a s).held = s.trust.held := by
  unfold eraseTurn
  split <;> rfl

theorem nvmEffect_erase (a : Nat) (s : State) : ∃ x : TrustState, x.held = s.trust.held ∧
    nvmEffect (.erase a) s = { s with nvm := clearRange s.nvm a (a + 4096), trust := x } := by
  have hheld := eraseTurn_held a s
  rw [nvmEffect]
  generalize hx : (if journalSectorOk s a then { s.trust with eraseRun := (journalErases s).tail } else s.trust) = x
  rw [eraseTurn, hx] at hheld
  split
  · next r _ =>
    split
    · exact ⟨{ x with session := some { r with erased := if r.erased.contains a then r.erased else a :: r.erased } }, hheld, rfl⟩
    · exact ⟨x, hheld, rfl⟩
  · exact ⟨x, hheld, rfl⟩

/-! ### The page buffer -/

/-- The buffer with its first `n` words taken from the flash at `a`. -/
def bufFilled (a n : Nat) (s : State) : State :=
  (List.range n).foldl (fun s i => s.setFld (NVMC_BUF.DATA i) (leNat (s.nvmBytes (a + 4 * i) 4))) s

theorem bufFilled_succ (a n : Nat) (s : State) : bufFilled a (n + 1) s =
    (bufFilled a n s).setFld (NVMC_BUF.DATA n) (leNat ((bufFilled a n s).nvmBytes (a + 4 * n) 4)) := by
  rw [bufFilled, List.range_succ, List.foldl_append]
  rfl

theorem bufFilled_frame (a n : Nat) (s : State) : ∃ r, bufFilled a n s = { s with regs := r } := foldl_setFld_frame ..

theorem bufFilled_nvm (a n : Nat) (s : State) : (bufFilled a n s).nvm = s.nvm := by
  obtain ⟨r, h⟩ := bufFilled_frame a n s
  rw [h]

theorem bufFilled_word (a n : Nat) (s : State) {x : Nat} (hx : x < 0x5c0100) : (bufFilled a n s).word x = s.word x := by
  refine word_foldl_setFld_index _ _ _ _ fun i _ => ?_
  show x ≠ 0x5c0100 + 4 * i
  omega

theorem bufFilled_data (a : Nat) (s : State) {i n : Nat} (h : i < n) :
    (bufFilled a n s).fld (NVMC_BUF.DATA i) = leNat (s.nvmBytes (a + 4 * i) 4) % 2 ^ 32 := by
  induction n with
  | zero => exact absurd h (Nat.not_lt_zero i)
  | succ n ih =>
    have hn : (bufFilled a n s).nvmBytes (a + 4 * n) 4 = s.nvmBytes (a + 4 * n) 4 := by
      rw [State.nvmBytes, State.nvmBytes, bufFilled_nvm]
    rw [bufFilled_succ, hn]
    by_cases hi : i = n
    · subst hi
      exact State.fld_setFld_same _ (NVMC_BUF.DATA i) _ rfl
    · refine (State.fld_congr_word (State.word_setFld_ne _ (NVMC_BUF.DATA n) _ ?_)).trans (ih (by omega))
      show 0x5c0100 + 4 * i ≠ 0x5c0100 + 4 * n
      omega

theorem leNat_lt (bs : List Byte) : leNat bs < 256 ^ bs.length := by
  induction bs with
  | nil => exact Nat.one_pos
  | cons b bs ih =>
    have hb : b.toNat < 256 := b.isLt
    rw [leNat, List.length_cons, pow_succ']
    omega

theorem nvmBuffer_bufFilled (a : Nat) (s : State) : nvmBuffer (bufFilled a 64 s) = s.nvmBytes a 256 := by
  have hword : ∀ i ∈ List.range 64, leBytes 4 ((bufFilled a 64 s).fld (NVMC_BUF.DATA i)) = readList 0xFF s.nvm (a + 4 * i) 4 := by
    intro i hi
    have hlen : (s.nvmBytes (a + 4 * i) 4).length = 4 := length_readList ..
    have hlt := leNat_lt (s.nvmBytes (a + 4 * i) 4)
    have hbytes := leBytes_leNat (s.nvmBytes (a + 4 * i) 4)
    rw [hlen] at hlt hbytes
    rw [bufFilled_data a s (List.mem_range.1 hi), Nat.mod_eq_of_lt (b := 2 ^ 32) hlt, hbytes]
    rfl
  rw [nvmBuffer, List.map_congr_left hword, readList_words]
  rfl

/-! ### An operation cut short -/

theorem spoil_shown (a n : Nat) (s : State) : ∃ bs : List Byte, bs.length = n ∧
    spoil a n s = { s with free := s.free + 1, nvm := writeList 0xFF s.nvm a bs } :=
  ⟨(List.range n).map (Config.freeByte s.free), by simp, rfl⟩

/-- The controller behind an operation that was cut: idle, and the failure is counted. -/
theorem nvmFailed_shown (s : State) : ((nvmIdle s).addFld NVMC_STATUS.FAILED 1).flag NVMC_STATUS.BUSY = false ∧
    ((nvmIdle s).addFld NVMC_STATUS.FAILED 1).fld NVMC_STATUS.FAILED = min 65535 (s.fld NVMC_STATUS.FAILED + 1) ∧
    RegsBut s ((nvmIdle s).addFld NVMC_STATUS.FAILED 1) [NVMC_STATUS.BUSY.addr] := by
  obtain ⟨hbusy, -, -, hregs⟩ := nvmIdle_shown s
  have hf : (nvmIdle s).fld NVMC_STATUS.FAILED = s.fld NVMC_STATUS.FAILED := State.fld_setFld_apart _ _ _ _ rfl rfl
  refine ⟨?_, ?_, hregs.setFld (f := NVMC_STATUS.FAILED) (.head _) _⟩
  · exact (State.flag_setFld_apart _ _ NVMC_STATUS.FAILED _ rfl rfl).trans hbusy
  · exact (State.fld_addFld_same _ _ _ rfl).trans (by rw [hf]; rfl)

theorem nvmOverdue_eq {s : State} {op : NvmOp} {k : Nat} (ho : s.trust.nvmOp = some (op, k)) : nvmOverdue s = s.elapsedNs k 5000000 := by
  rw [nvmOverdue, ho]
  rfl

theorem exec_nvmCut {s t : State} {op : NvmOp} {k : Nat} (ho : s.trust.nvmOp = some (op, k)) (hlate : s.elapsedNs k 5000000 = true)
    (copy1 : Bool) (ht : t = abandonProgram copy1 s) (hh : t.trust.held = []) {c : Instr}
    (hc : c ∈ [Instr.nvmProgramTimeout copy1, .curtainNvmCutoff copy1]) : exec c s = .next t := by
  have hcut : (if nvmOverdue s then programHeld (abandonProgram copy1 s) else s) = t := by
    rw [if_pos ((nvmOverdue_eq ho).trans hlate), ← ht, programHeld_none hh]
  simp only [List.mem_cons, List.not_mem_nil, or_false] at hc
  obtain rfl | rfl := hc
  · exact congrArg Host.Outcome.next hcut
  · exact congrArg Host.Outcome.next hcut

theorem abandonProgram_first {s : State} {p k : Nat} {data : List Byte} (ho : s.trust.nvmOp = some (.append p data, k)) :
    abandonProgram false s = spoil (journalBase 0 + 256 * p) 256 ((nvmIdle s).addFld NVMC_STATUS.FAILED 1) := by
  rw [abandonProgram, ho]
  rfl

theorem abandonProgram_second {s u : State} {p k : Nat} {data : List Byte} (ho : s.trust.nvmOp = some (.append p data, k))
    (hu : u = (nvmIdle s).addFld NVMC_STATUS.FAILED 1) : abandonProgram true s = spoil (journalBase 1 + 256 * p) 256
      (advanceJournal p (u.fld NVMC_JRNL_SEQ.DATA) (u.writeNvm (journalBase 0 + 256 * p) data)) := by
  rw [abandonProgram, ho, hu]
  rfl

/-! ### Records between a reset and Dawn -/

theorem findPosition_frame (s : State) : (∃ r x, findPosition s = { s with regs := r, trust := x }) ∧
    RegsBut s (findPosition s) [NVMC_JRNL_SEQ.DATA.addr] := by
  unfold findPosition
  split
  · exact ⟨⟨_, _, rfl⟩, advanceJournal_regs _ _ _⟩
  · exact ⟨⟨s.regs, s.trust, rfl⟩, fun _ _ => rfl⟩

theorem findPosition_seq {s : State} {q k : Nat} (h : newestWith (fun _ => true) s = some (q, k)) :
    (findPosition s).fld NVMC_JRNL_SEQ.DATA = (q + 1) % 2 ^ 32 := by
  rw [findPosition, h]
  exact advanceJournal_seq ..

theorem recordOrHold_unknown {s : State} {p : Nat} (hq : s.fld NVMC_JRNL_SEQ.DATA = 0) (hb : nvmBlocked s = false)
    (hs : (findPosition s).trust.jrnlSpent = false) (hn : (nextPage s).isSome = true) (hp : nextPage (findPosition s) = some p)
    (type : Nat) (payload : List Byte) : recordOrHold type payload s = recorded p type payload (findPosition s) := by
  have hk : knowPosition s = findPosition s := if_pos hq
  obtain ⟨⟨r, x, hf⟩, hregs⟩ := findPosition_frame s
  have hb' : nvmBlocked (findPosition s) = false := by
    rw [nvmBlocked, State.flag_of_word (hregs _ (by decide)), show (findPosition s).power = s.power by rw [hf]]
    exact hb
  rw [recordOrHold, if_neg (by rw [Option.isSome_iff_ne_none] at hn; simpa using hn), hk]
  exact deviceRecord_programmed hs hb' hp type payload

/-- Settles O24: an operation that ends leaves an idle controller, and what it stored. -/
theorem nvmOperationsStartAndEnd : Obligations.NvmOperationsStartAndEnd := by
  unfold Obligations.NvmOperationsStartAndEnd
  refine ⟨?_, ?_, ?_, ?_, ?_, ?_, ?_, ?_, ?_, ?_, ?_, ?_, ?_, ?_, ?_, ?_⟩
  · intro s p hb hlen hs hp
    exact ⟨_, exec_journalAppend hb hlen hs hp, nvmStart_shown _ s⟩
  · intro s r hr hb hm ha hlo hhi he hpe hh
    exact ⟨_, exec_slotProgram hr hb hm ha hlo hhi he hpe hh, nvmStart_shown _ s⟩
  · intro s hb ha hm hj
    exact ⟨_, exec_sectorErase hb ha hm hj, nvmStart_shown _ s⟩
  · intro s hb
    have hb' : ¬nvmBlocked (busOk 0 s) = true := by
      rw [Bool.not_eq_true]
      exact hb
    exact ⟨_, if_neg hb', nvmStart_shown _ s⟩
  · intro s slot hp hm hslot hsess hlock
    have hno : ¬(s.mode ≠ 6 ∨ s.fld TRUST_STATUS.SLOT = slot.val ∨ s.trust.session.isSome = true ∨ s.power.nvmLock = true) := by
      rw [hm, hsess, hlock]
      simpa using hslot
    have hpriv : ¬privilege s = false := by
      rw [hp]
      decide
    have hset : OnlyRegs s (s.setFlag NVMC_STATUS.SESSION true) [NVMC_STATUS.SESSION.addr] :=
      OnlyRegs.setFld (s := s) (t := s) ⟨rfl, fun _ _ => rfl⟩ (f := NVMC_STATUS.SESSION) (.head _) _
    exact ⟨_, (if_neg hpriv).trans (if_neg hno), State.flag_setFlag_same s NVMC_STATUS.SESSION true rfl rfl, rfl, hset.setTrust _⟩
  · intro s hb c hc
    exact ⟨_, exec_nvm_blocked hb hc, nvmRefuse_shown s⟩
  · intro s hlock hheld hcan
    obtain ⟨u, hu⟩ : ∃ u, u = setPower { s.power with nvmLock := false } (s.orBit POWER_RAIL.PG 0) := ⟨_, rfl⟩
    have hun : u.trust.held = [] := by
      rw [hu]
      exact hheld
    have he : exec .rail0PgRestored s = .next (warmReset (pllClock u)) := by
      refine congrArg Host.Outcome.next ((if_pos hlock).trans ?_)
      rw [← hu, programHeld_none hun, tryRestart, if_pos (hu ▸ hcan)]
    refine ⟨_, he, rfl, ?_, rfl⟩
    show u.power.nvmLock = false
    rw [hu]
    rfl
  · intro s hlock hheld hrestart
    obtain ⟨u, hu⟩ : ∃ u, u = setPower { s.power with nvmLock := false } (s.orBit POWER_RAIL.PG 0) := ⟨_, rfl⟩
    have hun : u.trust.held = [] := by
      rw [hu]
      exact hheld
    have hcan : canRestart u = false := by
      have hr : u.power.restart = false := by
        rw [hu]
        exact hrestart
      simp only [canRestart, hr, Bool.false_and]
    have he : exec .rail0PgRestored s = .next u := by
      refine congrArg Host.Outcome.next ((if_pos hlock).trans ?_)
      rw [← hu, programHeld_none hun, tryRestart, hcan]
      rfl
    refine ⟨u, he, ?_, ?_, ?_⟩
    · rw [hu]
      exact State.testBit_orBit_same s POWER_RAIL.PG 0 rfl (by decide)
    · rw [hu]
      rfl
    · rw [hu]
      exact ⟨rfl, fun a ha => State.word_setFld_ne s POWER_RAIL.PG _ (List.ne_of_not_mem_cons ha)⟩
  · intro s p k data ho hh hp hd
    obtain ⟨u, hu⟩ : ∃ u, u = nvmIdle s := ⟨_, rfl⟩
    obtain ⟨hbusy, htrust, hnvm, hregs⟩ := hu ▸ nvmIdle_shown s
    have ht := nvmEffect_append p data u
    have hseq : u.fld NVMC_JRNL_SEQ.DATA = s.fld NVMC_JRNL_SEQ.DATA := State.fld_congr_word (hregs _ (by decide))
    have hr := advanceJournal_regs p (u.fld NVMC_JRNL_SEQ.DATA) (programBoth p data u)
    refine ⟨_, exec_nvmOpComplete ho (ht.symm.trans (by rw [hu])) ?_, ?_, ?_, ?_, ?_, ?_, ?_⟩
    · show u.trust.held = []
      rw [htrust]
      exact hh
    · rw [State.flag_of_word (hr _ (by decide))]
      exact hbusy
    · show u.trust.nvmOp = none
      rw [htrust]
    · exact programBoth_nvmBytes hp hd u (copy := 0) (by decide)
    · exact programBoth_nvmBytes hp hd u (copy := 1) (by decide)
    · rw [advanceJournal_seq, hseq]
    · intro a ha
      rw [hr a fun h => ha (.tail _ h)]
      exact hregs a fun h => ha (List.mem_singleton.1 h ▸ .head _)
  · intro s a k data ho hsess hh
    obtain ⟨u, hu⟩ : ∃ u, u = nvmIdle s := ⟨_, rfl⟩
    obtain ⟨hbusy, htrust, hnvm, hregs⟩ := hu ▸ nvmIdle_shown s
    have hus : u.trust.session = none := by
      rw [htrust]
      exact hsess
    refine ⟨_, exec_nvmOpComplete ho ((nvmEffect_program hus a data).symm.trans (by rw [hu])) ?_, hbusy, ?_, ?_, ?_, hregs⟩
    · show u.trust.held = []
      rw [htrust]
      exact hh
    · show u.trust.nvmOp = none
      rw [htrust]
    · exact readList_writeList_same ..
    · intro x hx
      rw [← hnvm]
      exact readAt_writeList_ne _ _ _ hx
  · intro s a k ho hh
    obtain ⟨u, hu⟩ : ∃ u, u = nvmIdle s := ⟨_, rfl⟩
    obtain ⟨hbusy, htrust, hnvm, hregs⟩ := hu ▸ nvmIdle_shown s
    obtain ⟨x, hx, he⟩ := nvmEffect_erase a u
    refine ⟨_, exec_nvmOpComplete ho (he.symm.trans (by rw [hu])) ?_, hbusy, ?_, hregs⟩
    · rw [htrust] at hx
      exact hx.trans hh
    · intro y
      rw [← hnvm]
      exact readAt_clearRange ..
  · intro s a k ho hh
    obtain ⟨u, hu⟩ : ∃ u, u = nvmIdle s := ⟨_, rfl⟩
    obtain ⟨hbusy, htrust, hnvm, hregs⟩ := hu ▸ nvmIdle_shown s
    obtain ⟨r, hr⟩ := bufFilled_frame a 64 u
    refine ⟨bufFilled a 64 u, exec_nvmOpComplete ho (by rw [hu]; rfl) ?_, ?_, ?_, ?_⟩
    · rw [hr]
      show u.trust.held = []
      rw [htrust]
      exact hh
    · exact (State.flag_of_word (bufFilled_word a 64 u (by decide))).trans hbusy
    · rw [nvmBuffer_bufFilled, State.nvmBytes, State.nvmBytes, hnvm]
    · refine sameMemory_of_stores ?_
      rw [hr, hu]
      rfl
  · intro s p k data ho hh hp hd hlate c hc
    obtain ⟨hbusy, hfailed, hregs⟩ := nvmFailed_shown s
    obtain ⟨u, hu⟩ : ∃ u, u = (nvmIdle s).addFld NVMC_STATUS.FAILED 1 := ⟨_, rfl⟩
    rw [← hu] at hbusy hfailed hregs
    have htrust : u.trust = { s.trust with nvmOp := none } := by
      rw [hu]
      rfl
    have hnvm : u.nvm = s.nvm := by
      rw [hu]
      rfl
    obtain ⟨bs, hbs, hspoil⟩ := spoil_shown (journalBase 0 + 256 * p) 256 u
    refine ⟨_, exec_nvmCut ho hlate false ((abandonProgram_first ho).trans
      ((congrArg (spoil _ 256) hu.symm).trans hspoil)).symm ?_ hc, hbusy, ?_, hfailed, ?_, hregs⟩
    · show u.trust.held = []
      rw [htrust]
      exact hh
    · show u.trust.nvmOp = none
      rw [htrust]
    · intro x hx
      rw [← hnvm]
      exact readAt_writeList_ne _ _ _ (hbs.symm ▸ hx)
  · intro s p k data ho hh hp hd hlate c hc
    obtain ⟨hbusy, hfailed, hregs⟩ := nvmFailed_shown s
    obtain ⟨u, hu⟩ : ∃ u, u = (nvmIdle s).addFld NVMC_STATUS.FAILED 1 := ⟨_, rfl⟩
    rw [← hu] at hbusy hfailed hregs
    have htrust : u.trust = { s.trust with nvmOp := none } := by
      rw [hu]
      rfl
    have hseq : u.fld NVMC_JRNL_SEQ.DATA = s.fld NVMC_JRNL_SEQ.DATA := State.fld_congr_word (hregs _ (by decide))
    obtain ⟨v, hv⟩ : ∃ v, v = advanceJournal p (u.fld NVMC_JRNL_SEQ.DATA) (u.writeNvm (journalBase 0 + 256 * p) data) := ⟨_, rfl⟩
    have hr : RegsBut (u.writeNvm (journalBase 0 + 256 * p) data) v [NVMC_JRNL_SEQ.DATA.addr] := hv ▸ advanceJournal_regs _ _ _
    obtain ⟨bs, hbs, hspoil⟩ := spoil_shown (journalBase 1 + 256 * p) 256 v
    refine ⟨_, exec_nvmCut ho hlate true ((abandonProgram_second ho hu).trans
      ((congrArg (spoil _ 256) hv.symm).trans hspoil)).symm ?_ hc, ?_, ?_, ?_, ?_, ?_⟩
    · rw [hv]
      show u.trust.held = []
      rw [htrust]
      exact hh
    · exact (State.flag_of_word (hr _ (by decide))).trans hbusy
    · rw [hv]
      show u.trust.nvmOp = none
      rw [htrust]
    · exact (State.fld_congr_word (hr _ (by decide))).trans hfailed
    · have hv' : v.nvm = writeList 0xFF u.nvm (journalBase 0 + 256 * p) data := by
        rw [hv]
        rfl
      refine (readList_writeList_ne (vs := bs) 0xFF v.nvm (.inl ?_)).trans ?_
      · simp only [journalBase]
        omega
      · rw [hv', ← hd]
        exact readList_writeList_same ..
    · show v.fld NVMC_JRNL_SEQ.DATA = _
      rw [hv, advanceJournal_seq, hseq]
  · intro s op k copy1 ho hearly
    have hno : (if nvmOverdue s then programHeld (abandonProgram copy1 s) else s) = s := by
      rw [nvmOverdue_eq ho, hearly]
      rfl
    exact ⟨congrArg Host.Outcome.next hno, congrArg Host.Outcome.next hno⟩
  · intro s p payload hq hb hs hn hp hlen
    obtain ⟨⟨r, x, hf⟩, -⟩ := findPosition_frame s
    have htime : (findPosition s).time = s.time := by rw [hf]
    refine ⟨fun copy hc => ?_, fun q k h => findPosition_seq h⟩
    rw [recordOrHold_unknown hq hb hs hn hp, recorded_nvmBytes (nextPage_lt hp) 4 payload _ hc, htime]

end Sys2Proof.Machine
end

section
/-! PROOFS. What a read of scratch SRAM or the DRAM data region gives after writes of memory and of registers (R32, R33, R374). -/

namespace Sys2Proof.Machine

/-- `s` and `t` see the same memory through the same map. -/
structure SameMap (s t : State) : Prop where
  map : t.word DRAM_MAP.FENCED.addr = s.word DRAM_MAP.FENCED.addr
  cfg : t.word DRAM_CFG.DENSITY.addr = s.word DRAM_CFG.DENSITY.addr
  committed : t.mem.committed = s.mem.committed
  retired : t.mem.retired = s.mem.retired
  trnOp : t.mem.trnOp = s.mem.trnOp
  ticks : t.ticks = s.ticks

namespace SameMap

variable {s t u : State}

theorem refl (s : State) : SameMap s s := ⟨rfl, rfl, rfl, rfl, rfl, rfl⟩

theorem trans (h : SameMap s t) (h' : SameMap t u) : SameMap s u :=
  ⟨h'.map.trans h.map, h'.cfg.trans h.cfg, h'.committed.trans h.committed, h'.retired.trans h.retired, h'.trnOp.trans h.trnOp,
    h'.ticks.trans h.ticks⟩

theorem of_regs {as : List Nat} (hr : RegsBut s t as) (ha : DRAM_MAP.FENCED.addr ∉ as) (hc : DRAM_CFG.DENSITY.addr ∉ as)
    (hm : t.mem = s.mem) (ht : t.ticks = s.ticks) : SameMap s t :=
  ⟨hr _ ha, hr _ hc, by rw [hm], by rw [hm], by rw [hm], ht⟩

theorem setFld (h : SameMap s t) (f : Fld) (n : Nat) (ha : DRAM_MAP.FENCED.addr ≠ f.addr) (hc : DRAM_CFG.DENSITY.addr ≠ f.addr) :
    SameMap s (t.setFld f n) :=
  ⟨(State.word_setFld_ne t f n ha).trans h.map, (State.word_setFld_ne t f n hc).trans h.cfg, h.committed, h.retired, h.trnOp, h.ticks⟩

theorem of_checked (h : Checked s t) : SameMap s t :=
  ⟨h.regs _ (by decide), h.regs _ (by decide), by rw [h.mem], by rw [h.mem], by rw [h.mem], h.ticks⟩

theorem channels (h : SameMap s t) : dramChannels t = dramChannels s := by rw [dramChannels, dramChannels, h.retired]

theorem dramSize (h : SameMap s t) : dramSize t = dramSize s := by
  have hcc : dramCc t = dramCc s := by
    rw [dramCc, dramCc, State.fld_congr_word (f := DRAM_CFG.DENSITY) h.cfg, State.fld_congr_word (f := DRAM_CFG.RANKS) h.cfg]
  rw [Machine.dramSize, Machine.dramSize, h.committed, h.channels, hcc]

theorem inDram (h : SameMap s t) (a n : Nat) : inDram t a n = inDram s a n := by rw [Machine.inDram, Machine.inDram, h.dramSize]

theorem inMem (h : SameMap s t) (a n : Nat) : inMem t a n = inMem s a n := by rw [Machine.inMem, Machine.inMem, h.inDram]

theorem fencedFld (h : SameMap s t) : t.fld DRAM_MAP.FENCED = s.fld DRAM_MAP.FENCED := State.fld_congr_word h.map

theorem fenced (h : SameMap s t) (a : Nat) : dramFenced t a = dramFenced s a := by
  rw [dramFenced, dramFenced, h.fencedFld, dramChannel, dramChannel, h.channels]

theorem dramBytes (h : SameMap s t) (hd : t.dram = s.dram) (a n : Nat) : t.dramBytes a n = s.dramBytes a n := by
  unfold State.dramBytes
  rw [h.fencedFld, hd, h.ticks]
  simp only [h.fenced]

/-- The same stores give the same bytes. -/
theorem memBytes (h : SameMap s t) (hd : t.dram = s.dram) (hs : t.scratch = s.scratch) (hl : t.scratchLost = s.scratchLost) (a n : Nat) :
    t.memBytes a n = s.memBytes a n := by
  have hb : ∀ x, t.scratchByte x = s.scratchByte x := fun x => by simp only [State.scratchByte, hs, hl]
  have hsc : t.scratchBytes (a - 0x1000000) n = s.scratchBytes (a - 0x1000000) n := List.map_congr_left fun i _ => hb _
  rw [State.memBytes, State.memBytes, h.inMem, h.ticks, hsc, h.dramBytes hd]

end SameMap

theorem Checked.memBytes {s t : State} (h : Checked s t) (a n : Nat) : t.memBytes a n = s.memBytes a n :=
  (SameMap.of_checked h).memBytes (by rw [h.state]) (by rw [h.state]) (by rw [h.state]) a n

/-! ### A write, read back -/

/-- Every group of the DRAM can be reached. -/
structure DramOpen (s : State) : Prop where
  fenced : s.fld DRAM_MAP.FENCED = 0
  trnOp : s.mem.trnOp = none

theorem DramOpen.of_map {s t : State} (h : SameMap s t) (ho : DramOpen s) : DramOpen t :=
  ⟨h.fencedFld.trans ho.fenced, h.trnOp.trans ho.trnOp⟩

theorem writeDram_map (s : State) (a : Nat) (bs : List Byte) : SameMap s (s.writeDram a bs) := by
  have hc := partBlocks_checked s a bs.length
  have hm := SameMap.of_checked hc
  exact ⟨hm.map, hm.cfg, hm.committed, hm.retired, hm.trnOp, hc.ticks⟩

theorem writeMem_map (s : State) (a : Nat) (bs : List Byte) : SameMap s (s.writeMem a bs) := by
  unfold State.writeMem
  split
  · exact .refl s
  · split
    · exact ⟨rfl, rfl, rfl, rfl, rfl, rfl⟩
    · exact writeDram_map ..

/-- A buffer lies in scratch SRAM or in the DRAM data region. -/
theorem inMem_cases {s : State} {a n : Nat} (h : inMem s a n = true) :
    (0x1000000 ≤ a ∧ a + n ≤ 0x1800000) ∨ 0x800000000 ≤ a := by
  simp only [inMem, inDram, Bool.or_eq_true, Bool.and_eq_true, decide_eq_true_eq] at h
  omega

/-- A byte written to scratch SRAM reads back. -/
theorem writtenCell_read (b : Byte) : (writtenCell b).getLsbD 8 = true ∧ (writtenCell b).setWidth 8 = b := by
  constructor
  · simp [writtenCell]
  · refine BitVec.eq_of_getLsbD_eq fun i hi => ?_
    interval_cases i <;> simp [writtenCell]

theorem scratchBytes_writeScratch_same (s : State) (a : Nat) (bs : List Byte) : (s.writeScratch a bs).scratchBytes a bs.length = bs := by
  refine List.ext_getElem (by simp [State.scratchBytes]) fun i h1 h2 => ?_
  have hcell : readAt 0 (s.writeScratch a bs).scratch (a + i) = writtenCell bs[i] := by
    refine (readAt_writeList_in (d := 0) s.scratch a (bs.map writtenCell) (by simpa using h2)).trans ?_
    rw [List.getElem_map]
  obtain ⟨hw, hv⟩ := writtenCell_read bs[i]
  simp only [State.scratchBytes, List.getElem_map, List.getElem_range, State.scratchByte, hcell, hw, if_true, hv]

theorem scratchBytes_writeScratch_ne (s : State) {a b n : Nat} {bs : List Byte} (h : b + n ≤ a ∨ a + bs.length ≤ b) :
    (s.writeScratch a bs).scratchBytes b n = s.scratchBytes b n := by
  refine List.map_congr_left fun i hi => ?_
  have hlt := List.mem_range.1 hi
  have hcell : readAt 0 (s.writeScratch a bs).scratch (b + i) = readAt 0 s.scratch (b + i) :=
    readAt_writeList_ne _ _ _ (by rw [List.length_map]; omega)
  rw [State.scratchByte, State.scratchByte, hcell]
  rfl

theorem memBytes_writeMem_same {s : State} {a : Nat} {bs : List Byte} (hin : inMem s a bs.length = true) (ho : DramOpen s) :
    (s.writeMem a bs).memBytes a bs.length = bs := by
  have hno : ¬inMem s a bs.length = false := by rw [hin]; decide
  rw [State.memBytes, (writeMem_map s a bs).inMem, if_neg hno, State.writeMem, if_neg hno]
  split
  · exact scratchBytes_writeScratch_same ..
  · rw [dramBytes_eq (ho.of_map (writeDram_map ..)).fenced, dram_writeDram ho.fenced ho.trnOp]
    exact readList_writeList_same ..

theorem writeDram_scratch (s : State) (a : Nat) (bs : List Byte) :
    (s.writeDram a bs).scratch = s.scratch ∧ (s.writeDram a bs).scratchLost = s.scratchLost := by
  have hst := (partBlocks_checked s a bs.length).state
  have hs := congrArg State.scratch hst
  have hl := congrArg State.scratchLost hst
  exact ⟨hs, hl⟩

theorem memBytes_writeMem_ne {s : State} {a b n : Nat} {bs : List Byte} (hb : inMem s b n = true) (ho : DramOpen s)
    (h : b + n ≤ a ∨ a + bs.length ≤ b) : (s.writeMem a bs).memBytes b n = s.memBytes b n := by
  by_cases hin : inMem s a bs.length = false
  · rw [State.writeMem, if_pos hin]
  have hno : ¬inMem s b n = false := by rw [hb]; decide
  have hregion := inMem_cases hb
  have hregion' := inMem_cases (Bool.not_eq_false _ ▸ hin)
  rw [State.memBytes, (writeMem_map s a bs).inMem, if_neg hno, State.memBytes, if_neg hno, State.writeMem, if_neg hin]
  by_cases ha : a < 0x1800000
  · rw [if_pos ha]
    split
    · exact scratchBytes_writeScratch_ne s (by omega)
    · rfl
  · rw [if_neg ha]
    split
    · obtain ⟨hs, hl⟩ := writeDram_scratch s (dramOff a) bs
      have hbyte : ∀ x, (s.writeDram (dramOff a) bs).scratchByte x = s.scratchByte x := fun x => by
        simp only [State.scratchByte, hs, hl]
      exact List.map_congr_left fun i _ => hbyte _
    · have hoff : dramOff b + n ≤ dramOff a ∨ dramOff a + bs.length ≤ dramOff b := by
        unfold dramOff
        omega
      rw [dramBytes_eq (ho.of_map (writeDram_map ..)).fenced, dram_writeDram ho.fenced ho.trnOp, dramBytes_eq ho.fenced]
      exact readList_writeList_ne _ _ hoff

theorem inMem_mono {s : State} {a n m : Nat} (h : inMem s a n = true) (hm : m ≤ n) : inMem s a m = true := by
  simp only [inMem, inDram, Bool.or_eq_true, Bool.and_eq_true, decide_eq_true_eq] at h ⊢
  omega

end Sys2Proof.Machine
end

section
/-! PROOFS. Ethernet links, rings and frames (R422 to R426, R435, R452). -/

namespace Sys2Proof.Machine

/-! ### Links -/

theorem netEvent_word {p n : Nat} {cls : EventClass} (hc : cls ≠ .fatal) (s : State) {a : Nat} (ha : a ≠ CALL_OVERFLOW.COUNT.addr) :
    (netEvent p n cls s).word a = (s.orBit (NET_EVENT.EVENT p) (n - (NET_EVENT.EVENT p).lo)).word a := postEvent_word hc _ ha

theorem netEvent_bit (p : Fin 2) {n : Nat} {cls : EventClass} (hc : cls ≠ .fatal) (hn : n < 6) (s : State) :
    ((netEvent p n cls s).fld (NET_EVENT.EVENT p)).testBit n = true := by
  have ho : ∀ p : Fin 2, (NET_EVENT.EVENT p).addr ≠ CALL_OVERFLOW.COUNT.addr := by decide
  rw [State.fld_congr_word (netEvent_word hc s (ho p))]
  exact State.testBit_orBit_same s (NET_EVENT.EVENT p) n rfl hn

theorem netEvent_regs (p : Nat) {n : Nat} {cls : EventClass} (hc : cls ≠ .fatal) (s : State) :
    RegsBut s (netEvent p n cls s) ([(NET_EVENT.EVENT p).addr] ++ eventRegs) := fun a ha => by
  simp only [eventRegs, List.cons_append, List.nil_append, List.mem_cons, List.not_mem_nil, or_false, not_or] at ha
  exact (netEvent_word hc s ha.2.1).trans (State.word_setFld_ne s (NET_EVENT.EVENT p) _ ha.1)

theorem netEvent_stores (p n : Nat) {cls : EventClass} (hc : cls ≠ .fatal) (s : State) : (netEvent p n cls s).stores = s.stores :=
  postEvent_stores hc _

theorem netUp_netEvent (p : Fin 2) {n : Nat} {cls : EventClass} (hc : cls ≠ .fatal) (s : State) :
    netUp (netEvent p n cls s) p = netUp s p := by
  have hn : ∀ p : Fin 2, (NET_STATUS.LINK p).addr ∉ [(NET_EVENT.EVENT p).addr] ++ eventRegs := by decide
  exact State.flag_of_word (netEvent_regs p hc s _ (hn p))

theorem netUp_setLink (p : Fin 2) (b : Bool) (s : State) : netUp (s.setFlag (NET_STATUS.LINK p) b) p = b :=
  State.flag_setFlag_same s (NET_STATUS.LINK p) b rfl rfl

/-- A link that changes shows it with its event. -/
theorem netLink_shown (p : Fin 2) (b : Bool) {n : Nat} (hn : n < 6) {cls : EventClass} (hc : cls ≠ .fatal) {s t : State}
    (ht : t = netEvent p n cls (s.setFlag (NET_STATUS.LINK p) b)) : netUp t p = b ∧ (t.fld (NET_EVENT.EVENT p)).testBit n = true ∧
      RegsBut s t ([(NET_STATUS.LINK p).addr, (NET_EVENT.EVENT p).addr] ++ eventRegs) ∧ t.stores = s.stores := by
  subst ht
  refine ⟨(netUp_netEvent p hc _).trans (netUp_setLink p b s), netEvent_bit p hc hn _, fun a ha => ?_, netEvent_stores p n hc _⟩
  refine (netEvent_regs p hc _ a fun h => ha (.tail _ h)).trans (State.word_setFld_ne s (NET_STATUS.LINK p) _ ?_)
  rintro rfl
  exact ha (.head _)

/-! ### Rings -/

/-- The read count of a ring. -/
def ringRd (p : Nat) (rx : Bool) : Fld := if rx then NET_RX_RD.RD p else NET_TX_RD.RD p

theorem ringRd_fresh (p : Fin 2) (rx : Bool) : (ringRd p rx).addr ∉ checkRegs ∧ DRAM_MAP.FENCED.addr ≠ (ringRd p rx).addr ∧
    DRAM_CFG.DENSITY.addr ≠ (ringRd p rx).addr ∧ (ringRd p rx).fits = true ∧ (ringRd p rx).width = 32 := by
  revert p rx
  decide

theorem netEntryAt_congr {s t : State} (h : RegsBut s t checkRegs) (p : Fin 2) (rx : Bool) : netEntryAt t p rx = netEntryAt s p rx := by
  have hn : ∀ p : Fin 2, ∀ F ∈ [NET_RX_RD.RD, NET_TX_RD.RD, NET_RX_SIZE.LOG2, NET_TX_SIZE.LOG2, NET_RX_BASE_LO.ADDR, NET_RX_BASE_HI.ADDR,
      NET_TX_BASE_LO.ADDR, NET_TX_BASE_HI.ADDR], (F p).addr ∉ checkRegs := by decide
  have hf : ∀ F ∈ [NET_RX_RD.RD, NET_TX_RD.RD, NET_RX_SIZE.LOG2, NET_TX_SIZE.LOG2, NET_RX_BASE_LO.ADDR, NET_RX_BASE_HI.ADDR,
      NET_TX_BASE_LO.ADDR, NET_TX_BASE_HI.ADDR], t.fld (F p) = s.fld (F p) := fun F hF => State.fld_congr_word (h _ (hn p F hF))
  simp only [List.forall_mem_cons] at hf
  obtain ⟨h1, h2, h3, h4, h5, h6, h7, h8, -⟩ := hf
  cases rx <;> simp only [netEntryAt, netRingBase, netRingSize, if_true, Bool.false_eq_true, if_false, h1, h2, h3, h4, h5, h6, h7, h8]

theorem netComplete_eq (p : Nat) (rx : Bool) (status ts : Nat) (s : State) : netComplete p rx status ts s =
    (s.writeMem (netEntryAt s p rx + 0x10) (leBytes 4 (2 ^ 31 + status) ++ leBytes 4 ts)).wrapFld (ringRd p rx) 1 := by
  cases rx <;> rfl

/-- An entry that completes holds its status, and the ring goes on (R424, R426). -/
structure Completed (p : Fin 2) (rx : Bool) (status ts : Nat) (s t : State) : Prop where
  rd : t.fld (ringRd p rx) = (s.fld (ringRd p rx) + 1) % 2 ^ 32
  entry : t.memBytes (netEntryAt s p rx + 0x10) 8 = leBytes 4 (2 ^ 31 + status) ++ leBytes 4 ts
  elsewhere : ∀ a n, inMem s a n = true → a + n ≤ netEntryAt s p rx + 0x10 ∨ netEntryAt s p rx + 0x18 ≤ a →
    t.memBytes a n = s.memBytes a n
  regs : RegsBut s t ((ringRd p rx).addr :: checkRegs)
  net : t.net = s.net

theorem netComplete_completed (p : Fin 2) (rx : Bool) (status ts : Nat) {s : State} (hin : inMem s (netEntryAt s p rx + 0x10) 8 = true)
    (ho : DramOpen s) : Completed p rx status ts s (netComplete p rx status ts s) := by
  obtain ⟨hfresh, hmap, hcfg, hfits, hwidth⟩ := ringRd_fresh p rx
  obtain ⟨bs, hbs⟩ : ∃ bs, bs = leBytes 4 (2 ^ 31 + status) ++ leBytes 4 ts := ⟨_, rfl⟩
  have hlen : bs.length = 8 := by rw [hbs, List.length_append, length_leBytes, length_leBytes]
  obtain ⟨w, hw⟩ : ∃ w, w = s.writeMem (netEntryAt s p rx + 0x10) bs := ⟨_, rfl⟩
  have hst : Stored s w := hw ▸ (Stored.refl s).writeMem _ _
  have he : netComplete p rx status ts s = w.wrapFld (ringRd p rx) 1 := by rw [netComplete_eq, ← hbs, ← hw]
  have hmem : ∀ a n, (w.wrapFld (ringRd p rx) 1).memBytes a n = w.memBytes a n :=
    ((SameMap.refl w).setFld _ _ hmap hcfg).memBytes rfl rfl rfl
  rw [he]
  refine ⟨?_, ?_, ?_, ?_, ?_⟩
  · rw [State.wrapFld, State.fld_setFld_same _ _ _ hfits, hwidth, hst.fld hfresh]
  · rw [hmem, hw, ← hbs, ← hlen]
    exact memBytes_writeMem_same (by rw [hlen]; exact hin) ho
  · intro a n ha hd
    rw [hmem, hw]
    exact memBytes_writeMem_ne ha ho (by rw [hlen]; omega)
  · intro a ha
    exact (State.word_setFld_ne w _ _ (List.ne_of_not_mem_cons ha)).trans (hst.regs a fun h => ha (.tail _ h))
  · exact hst.net

theorem Checked.entryAt {s t : State} (h : Checked s t) (p : Fin 2) (rx : Bool) : netEntryAt t p rx = netEntryAt s p rx :=
  netEntryAt_congr h.regs p rx

theorem netPoison_checked (p a n : Nat) (s : State) : Checked s (netPoison p a n s) := by
  unfold netPoison
  split
  · exact poisonWarn_checked ..
  · exact .refl s

theorem dramOpen_of_checked {s t : State} (h : Checked s t) (ho : DramOpen s) : DramOpen t := ho.of_map (.of_checked h)

/-- The first bytes of a buffer read as the start of what the buffer reads as. -/
theorem memBytes_take {s : State} {a n k : Nat} (h : inMem s a n = true) (hk : k ≤ n) : s.memBytes a k = (s.memBytes a n).take k := by
  have htake : ∀ {α : Type} (f : Nat → α), (List.range k).map f = ((List.range n).map f).take k := fun f => by
    rw [← List.map_take, List.take_range, Nat.min_eq_left hk]
  have hno : ∀ m, inMem s a m = true → ¬inMem s a m = false := fun m hm => by rw [hm]; decide
  rw [State.memBytes, if_neg (hno k (inMem_mono h hk)), State.memBytes, if_neg (hno n h)]
  split
  · exact htake _
  · unfold State.dramBytes
    split
    · exact htake _
    · exact htake _

theorem length_memBytes (s : State) (a n : Nat) : (s.memBytes a n).length = n := by
  unfold State.memBytes
  split
  · simp
  · split
    · simp [State.scratchBytes]
    · exact length_dramBytes ..

theorem length_withFcs (bs : List Byte) : (withFcs bs).length = max 60 bs.length + 4 := by
  simp only [withFcs, List.length_append, List.length_replicate, length_leBytes]
  omega

/-! ### Transmission -/

/-- A frame of the transmit ring whose entry asks for no time goes out as it is. -/
theorem exec_netTxFrame_plain {s : State} (p : Fin 2) {e : List Byte} (hd : s.domainOn 26 = true) (hm : s.mode ≠ 7)
    (hw : netEntryWaits s p false = true) (hup : netUp s p = true) (hturn : netHostTurn s p = true)
    (he : e = s.memBytes (netEntryAt s p false) 32) (hflags : leAt e 10 2 = 0) (hlo : 14 ≤ leAt e 8 2)
    (hhi : leAt e 8 2 ≤ clamp 1514 9216 (s.fld (NET_CFG.MAXLEN p))) :
    ∃ u, Checked s u ∧ exec (.netTxFrame p) s = .next (netDrive p (s.memBytes (leAt e 0 8) (leAt e 8 2)) (netComplete p false 0 0 u)) := by
  have hn : ∀ p : Fin 2, (NET_CFG.MAXLEN p).addr ∉ checkRegs := by decide
  have h1 := netPoison_checked p (netEntryAt s p false) 32 s
  have h2 := h1.trans (netPoison_checked p (leAt e 0 8) (leAt e 8 2) (netPoison p (netEntryAt s p false) 32 s))
  refine ⟨_, h2, ?_⟩
  have hguard : ¬(s.domainOn 26 = false ∨ s.mode = 7 ∨ netEntryWaits s p false = false) := by simp [hd, hm, hw]
  have hfits : ¬(leAt e 8 2 < 14 ∨ clamp 1514 9216 ((netPoison p (netEntryAt s p false) 32 s).fld (NET_CFG.MAXLEN p)) < leAt e 8 2) := by
    rw [h1.fld (hn p)]
    omega
  show execNetTxFrame p s = _
  unfold execNetTxFrame
  refine (if_neg hguard).trans ((if_neg (by rw [hup]; decide)).trans ((if_neg (by rw [hturn]; decide)).trans ?_))
  rw [← he]
  refine (if_neg hfits).trans ?_
  simp only [hflags, Nat.zero_testBit, Bool.false_eq_true, if_false, Bool.or_self, Bool.false_and, h2.memBytes]
  rfl

/-- The frame stands on the wire; the entry and the ring are those of its completion. -/
theorem netDrive_shown {s : State} (p : Fin 2) (bs : List Byte) : (∀ f, (netDrive p bs s).fld f = s.fld f) ∧
    (∀ a n, (netDrive p bs s).memBytes a n = s.memBytes a n) := ⟨fun _ => rfl, fun _ _ => rfl⟩

theorem netTurn_congr {s t : State} (h : RegsBut s t ((ringRd 0 false).addr :: (ringRd 1 false).addr :: checkRegs)) (p : Fin 2) :
    netReplaced t p = netReplaced s p ∧ netNearLoop t p = netNearLoop s p := by
  have hn : ∀ p : Fin 2, (LANE_STATUS.LOOP (ethLane p)).addr ∉ (ringRd 0 false).addr :: (ringRd 1 false).addr :: checkRegs ∧
    (LANE_LOOP.GEN (ethLane p)).addr ∉ (ringRd 0 false).addr :: (ringRd 1 false).addr :: checkRegs := by decide
  rw [netReplaced, netReplaced, netNearLoop, netNearLoop, State.fld_congr_word (h _ (hn p).1), State.fld_congr_word (h _ (hn p).2)]
  exact ⟨rfl, rfl⟩

/-! ### Reception -/

theorem netCount_shown {s : State} {p : Nat} (hp : p < s.net.ports.length) (kind : Nat) : keyGet (netPort (netCount p kind s) p).counts kind =
    some (satAdd (2 ^ 32 - 1) ((keyGet (netPort s p).counts kind).getD 0) 1) := by
  simp only [netCount, modNet, netPort, setNet_net, getElem?_modAt, if_true, List.getElem?_eq_getElem hp, Option.map_some,
    Option.getD_some, keyGet_keySet_same]

theorem netCount_other {s : State} {p kind k : Nat} (h : k ≠ kind) : keyGet (netPort (netCount p kind s) p).counts k =
    keyGet (netPort s p).counts k := by
  simp only [netCount, modNet, netPort, setNet_net, getElem?_modAt, if_true]
  cases s.net.ports[p]? with
  | none => rfl
  | some n => exact keyGet_keySet_ne _ _ h

theorem netCount_ports (p kind : Nat) (s : State) : (netCount p kind s).net.ports.length = s.net.ports.length := length_modAt ..

/-- A frame that reaches a port which is up and in no loopback is received. -/
theorem exec_netRxFrame {s : State} {p : Fin 2} (hon : netOn s p = true) (hup : netUp s p = true) (hm : s.mode ≠ 7)
    (hloop : s.fld (LANE_STATUS.LOOP (ethLane p)) = 0) (bytes : List Byte) (ok : Bool) :
    exec (.netRxFrame p bytes ok) s = .next (netReceive p bytes ok s) := by
  have hguard : ¬(netOn s p = false ∨ netUp s p = false ∨ s.mode = 7) := by simp [hon, hup, hm]
  have hnear : ¬netNearLoop s p = true := by
    rw [netNearLoop, hloop]
    decide
  have hfar : ¬s.fld (LANE_STATUS.LOOP (ethLane p)) = 3 := by
    rw [hloop]
    decide
  show execNetRxFrame p bytes ok s = _
  unfold execNetRxFrame
  refine (if_neg hguard).trans ((if_neg hnear).trans ?_)
  show Host.Outcome.next (netReceive p bytes ok (if s.fld (LANE_STATUS.LOOP (ethLane p)) = 3 then _ else s)) = _
  rw [if_neg hfar]

/-- The status of a received frame in its entry (R426). -/
def rxStatus (bytes : List Byte) (size : Nat) : Nat :=
  2 ^ 18 * boolNat (decide (size < bytes.length)) + 2 ^ 17 * boolNat (isPtp bytes) + 2 ^ 16 + bytes.length % 2 ^ 16

theorem netReceive_stored {s : State} {p : Fin 2} {bytes e : List Byte} (hdis : netDiscard p bytes true s = none)
    (hty : etherType bytes ≠ 0x88B5) (hw : netEntryWaits s p true = true) (he : e = s.memBytes (netEntryAt s p true) 32) :
    ∃ u ts, Checked (netCount p 0 s) u ∧ netReceive p bytes true s =
      netComplete p true (rxStatus bytes (leAt e 8 2)) ts (u.writeMem (leAt e 0 8) (bytes.take (leAt e 8 2))) := by
  refine ⟨_, netStamp (netCount p 0 s) p false % 2 ^ 32, netPoison_checked p (netEntryAt (netCount p 0 s) p true) 32 (netCount p 0 s), ?_⟩
  unfold netReceive
  rw [hdis]
  simp only [if_neg hty]
  refine (if_neg ?_).trans ?_
  · rw [show netEntryWaits (netCount p 0 s) p true = true from hw]
    decide
  · subst he
    rfl

theorem netReceive_lost {s : State} {p : Fin 2} {bytes : List Byte} (hdis : netDiscard p bytes true s = none)
    (hty : etherType bytes ≠ 0x88B5) (hw : netEntryWaits s p true = false) :
    netReceive p bytes true s = (netCount p 5 (netCount p 0 s)).orBit (NET_EVENT.EVENT p) 3 := by
  unfold netReceive
  rw [hdis]
  simp only [if_neg hty]
  exact if_pos hw

/-- Settles O48: an entry that completes reads back in memory, and the frames pass through the port. -/
theorem ethernetLinksRingsAndFrames : Obligations.EthernetLinksRingsAndFrames := by
  unfold Obligations.EthernetLinksRingsAndFrames
  refine ⟨?_, ?_, ?_, ?_, ?_, ?_, ?_, ?_, ?_, ?_⟩
  · intro s p hon hdown hlock
    obtain ⟨hup, hbit, hregs, hst⟩ := netLink_shown p true (n := 1) (by decide) (cls := .info) (by decide) (s := s) rfl
    exact ⟨_, if_pos ⟨hon, hdown, hlock⟩, hup, hbit, hregs, sameMemory_of_stores hst⟩
  · intro s p hup
    obtain ⟨u, hu⟩ : ∃ u, u = netEvent p 0 .warning (s.setFlag (NET_STATUS.LINK p) false) := ⟨_, rfl⟩
    obtain ⟨hdown, hbit, hregs, hst⟩ := netLink_shown p false (by decide) (by decide) hu
    have hnd : netDown p s = u := (if_pos hup).trans hu.symm
    have he : exec (.netLinkDown p) s = .next (if p.val = servoPort s then holdover 1 u else u) := by
      show Host.Outcome.next (netLost p s) = _
      rw [netLost, if_neg (by rw [hup]; decide), hnd]
    obtain ⟨hheld, hcause, -, -, -, hhregs, hmem⟩ := holdover_shown (cause := 1) (by decide) u
    have hn : ∀ p : Fin 2, (NET_STATUS.LINK p).addr ∉ holdoverRegs ∧ (NET_EVENT.EVENT p).addr ∉ holdoverRegs := by decide
    have hall : ∀ a, a ∉ [(NET_STATUS.LINK p).addr, (NET_EVENT.EVENT p).addr, TIME_STATUS.HOLDOVER.addr, TIME_EVENT.EVENT.addr] ++ eventRegs →
        u.word a = s.word a := fun a ha => hregs a fun h => ha (by
      simp only [List.cons_append, List.nil_append, List.mem_cons] at h ⊢
      tauto)
    refine ⟨_, he, ?_⟩
    by_cases hs : p.val = servoPort s
    · rw [if_pos hs]
      refine ⟨(State.flag_of_word (hhregs _ (hn p).1)).trans hdown, ?_, fun _ => ⟨hheld, hcause⟩, fun a ha => ?_,
        fun a => (hmem a).imp (·.trans (sameMemory_of_stores hst a).1) fun h => ?_⟩
      · rw [State.fld_congr_word (hhregs _ (hn p).2)]
        exact hbit
      · refine (hhregs a fun h => ha ?_).trans (hall a ha)
        simp only [holdoverRegs, List.cons_append, List.nil_append, List.mem_cons] at h ⊢
        tauto
      · obtain ⟨h1, h2, h3⟩ := h
        obtain ⟨-, h1', h2', h3'⟩ := sameMemory_of_stores hst a
        exact ⟨h1.trans h1', h2.trans h2', h3.trans h3'⟩
    · rw [if_neg hs]
      exact ⟨hdown, hbit, fun h => absurd h.symm hs, hall, sameMemory_of_stores hst⟩
  · intro s p rx v hd hm hv
    have hguard : ¬((busOk 0 s).domainOn 26 = false ∨ (busOk 0 s).mode = 7) := by
      show ¬(s.domainOn 26 = false ∨ s.mode = 7)
      simp [hd, hm]
    refine ⟨_, (if_neg hguard).trans (if_neg (Nat.not_lt.2 hv)), ?_, (onlyRegs_busOk 0 s _).setFld (.head _) _⟩
    cases rx
    · exact (State.fld_setFld_same _ (NET_TX_WR.WR p) _ rfl).trans (Nat.mod_eq_of_lt v.isLt)
    · exact (State.fld_setFld_same _ (NET_RX_WR.WR p) _ rfl).trans (Nat.mod_eq_of_lt v.isLt)
  · intro s p rx v hd hm hv
    have hguard : ¬((busOk 0 s).domainOn 26 = false ∨ (busOk 0 s).mode = 7) := by
      show ¬(s.domainOn 26 = false ∨ s.mode = 7)
      simp [hd, hm]
    exact (if_neg hguard).trans (if_pos hv)
  · intro s p hd hm hw hup hin hf ht
    have hguard : ¬(s.domainOn 26 = false ∨ s.mode = 7 ∨ netEntryWaits s p false = false) := by simp [hd, hm, hw]
    have hc := netComplete_completed p false 2 0 hin ⟨hf, ht⟩
    exact ⟨_, (if_neg hguard).trans (if_pos hup), hc.rd, hc.entry, hc.net⟩
  · intro s p e hd hm hw hup hturn hloop hrep he hflags hlo hhi hp hin hf ht
    obtain ⟨u, hu, hexec⟩ := exec_netTxFrame_plain p hd hm hw hup hturn he hflags hlo hhi
    have hnet : u.net = s.net := by rw [hu.state]
    have hin' : inMem u (netEntryAt u p false + 0x10) 8 = true := by
      rw [hu.entryAt, (SameMap.of_checked hu).inMem]
      exact hin
    have hc := netComplete_completed p false 0 0 hin' (dramOpen_of_checked hu ⟨hf, ht⟩)
    obtain ⟨v, hv⟩ : ∃ v, v = netComplete p false 0 0 u := ⟨_, rfl⟩
    rw [← hv] at hc hexec
    have hregs : RegsBut s v ((ringRd 0 false).addr :: (ringRd 1 false).addr :: checkRegs) := fun a ha => by
      have hq : ∀ p : Fin 2, (ringRd p false).addr = (ringRd 0 false).addr ∨ (ringRd p false).addr = (ringRd 1 false).addr := by decide
      simp only [List.mem_cons, not_or] at ha
      refine (hc.regs a ?_).trans (hu.regs a ha.2.2)
      simp only [List.mem_cons, not_or]
      refine ⟨?_, ha.2.2⟩
      obtain h | h := hq p
      · rw [h]
        exact ha.1
      · rw [h]
        exact ha.2.1
    obtain ⟨hrep', hloop'⟩ := netTurn_congr hregs p
    have hrd : (ringRd p false).addr ∉ checkRegs := (ringRd_fresh p false).1
    refine ⟨_, hexec, ?_, netDrive_wire (hrep'.trans hrep) (hloop'.trans hloop) ?_ _, ?_, ?_⟩
    · refine hc.rd.trans ?_
      rw [hu.fld hrd]
      rfl
    · rw [hc.net, hnet]
      exact hp
    · rw [length_withFcs, length_memBytes]
    · have hentry := hc.entry
      rw [hu.entryAt] at hentry
      exact hentry
  · intro s p bytes own ok rest hon hup hm hloop hl
    have hguard : ¬(netOn s p = false ∨ netUp s p = false ∨ s.mode = 7) := by simp [hon, hup, hm]
    show execNetRxFrame p bytes ok s = _
    unfold execNetRxFrame
    refine (if_neg hguard).trans ((if_pos hloop).trans ?_)
    rw [hl]
  · intro s p bytes hon hup hm hloop hp
    exact ⟨netCount p 2 s, exec_netRxFrame hon hup hm hloop bytes false, rfl, netCount_shown hp 2⟩
  · intro s p bytes e hon hup hm hloop hdis hty hw he hin hf ht hbuf hapart
    obtain ⟨u, ts, hu, hrec⟩ := netReceive_stored hdis hty hw he
    have hat : netEntryAt u p true = netEntryAt s p true := hu.entryAt p true
    have humap : SameMap s u := SameMap.trans (t := netCount p 0 s) ⟨rfl, rfl, rfl, rfl, rfl, rfl⟩ (.of_checked hu)
    have huo : DramOpen u := ⟨humap.fencedFld.trans hf, humap.trnOp.trans ht⟩
    obtain ⟨bs, hbs⟩ : ∃ bs, bs = bytes.take (leAt e 8 2) := ⟨_, rfl⟩
    have hlen : bs.length ≤ leAt e 8 2 := hbs ▸ List.length_take_le _ _
    rw [← hbs] at hrec hbuf
    obtain ⟨w, hws⟩ : ∃ w, w = u.writeMem (leAt e 0 8) bs := ⟨_, rfl⟩
    have hwmap : SameMap u w := hws ▸ writeMem_map ..
    have hwst : Stored u w := hws ▸ (Stored.refl u).writeMem _ _
    have hatw : netEntryAt w p true = netEntryAt s p true := (netEntryAt_congr hwst.regs p true).trans hat
    have hinw : inMem w (netEntryAt w p true + 0x10) 8 = true := by
      rw [hatw, hwmap.inMem, humap.inMem]
      exact hin
    have hc := netComplete_completed p true (rxStatus bytes (leAt e 8 2)) ts hinw (huo.of_map hwmap)
    obtain ⟨v, hv⟩ : ∃ v, v = netComplete p true (rxStatus bytes (leAt e 8 2)) ts w := ⟨_, rfl⟩
    rw [← hws, ← hv] at hrec
    rw [← hv] at hc
    have hrd : (ringRd p true).addr ∉ checkRegs := (ringRd_fresh p true).1
    have hbufu : inMem u (leAt e 0 8) bs.length = true := by
      rw [humap.inMem]
      exact hbuf
    refine ⟨v, (exec_netRxFrame hon hup hm hloop bytes true).trans (congrArg _ hrec), ?_, ?_, ?_⟩
    · refine hc.rd.trans ?_
      rw [hwst.fld hrd, hu.fld hrd]
      rfl
    · rw [← hbs, hc.elsewhere _ _ (by rw [hwmap.inMem]; exact hbufu) (by rw [hatw]; omega), hws]
      exact memBytes_writeMem_same hbufu huo
    · have hentry := hc.entry
      rw [hatw] at hentry
      have hvin : inMem v (netEntryAt s p true + 0x10) 8 = true := by
        have hvmap : SameMap w v := by
          rw [hv, netComplete_eq]
          obtain ⟨-, hmap, hcfg, -, -⟩ := ringRd_fresh p true
          exact (writeMem_map ..).setFld _ _ hmap hcfg
        rw [hvmap.inMem, ← hatw]
        exact hinw
      rw [memBytes_take hvin (k := 4) (by decide), hentry, List.take_left' (length_leBytes ..)]
      congr 1
      simp only [rxStatus]
      omega
  · intro s p bytes hon hup hm hloop hdis hty hw hp
    have hexec := (exec_netRxFrame hon hup hm hloop bytes true).trans (congrArg _ (netReceive_lost hdis hty hw))
    refine ⟨_, hexec, State.testBit_orBit_same _ (NET_EVENT.EVENT p) 3 rfl (show 3 < 6 by decide), ?_, rfl,
      fun a ha => State.word_setFld_ne _ (NET_EVENT.EVENT p) _ (List.ne_of_not_mem_cons ha)⟩
    show keyGet (netPort (netCount p 5 (netCount p 0 s)) p).counts 5 = _
    rw [netCount_shown (by rw [netCount_ports]; exact hp), netCount_other (by decide)]

end Sys2Proof.Machine
end

section
/-! PROOFS. Lanes adapt and equalise (R410, R413 to R417). -/

namespace Sys2Proof.Machine

/-! ### Lanes -/

theorem laneOf_modLane_same {s : State} {l : Nat} (h : l < s.serial.lanes.length) (f : Lane → Lane) :
    laneOf (modLane l f s) l = f (laneOf s l) := by
  show ((modAt s.serial.lanes l f)[l]?).getD laneInit = f ((s.serial.lanes[l]?).getD laneInit)
  rw [getElem?_modAt, if_pos rfl, List.getElem?_eq_getElem h]
  rfl

theorem laneOf_modLane_ne {l k : Nat} (h : k ≠ l) (f : Lane → Lane) (s : State) : laneOf (modLane l f s) k = laneOf s k := by
  show ((modAt s.serial.lanes l f)[k]?).getD laneInit = (s.serial.lanes[k]?).getD laneInit
  rw [getElem?_modAt, if_neg h]

theorem length_modLane (l : Nat) (f : Lane → Lane) (s : State) : (modLane l f s).serial.lanes.length = s.serial.lanes.length :=
  length_modAt ..

theorem lanes_lt {s : State} {l : Nat} (h : laneOf s l ≠ laneInit) : l < s.serial.lanes.length := by
  by_contra hn
  exact h (by rw [laneOf, List.getElem?_eq_none (Nat.not_lt.1 hn)]; rfl)

/-- The registers that show the settings of a lane. -/
def laneShowRegs (l : Nat) : List Nat := [(LANE_EQ.TX_PRE l).addr, (LANE_DFE.TAPS l).addr]

theorem laneShow_frame (l : Nat) (s : State) : (∃ r, laneShow l s = { s with regs := r }) ∧ RegsBut s (laneShow l s) (laneShowRegs l) := by
  unfold laneShow
  extract_lets r v t
  have ht : RegsBut s t (laneShowRegs l) := (((RegsBut.refl s (laneShowRegs l)).setFld (f := LANE_EQ.TX_PRE l) (.head _) _).setFld
    (f := LANE_EQ.TX_MAIN l) (.head _) _).setFld (f := LANE_EQ.TX_POST l) (.head _) _
  exact ⟨⟨_, rfl⟩, (ht.setFld (f := LANE_EQ.CTLE l) (.head _) _).setFld (f := LANE_DFE.TAPS l) (.tail _ (.head _)) _⟩

theorem laneShow_serial (l : Nat) (s : State) : (laneShow l s).serial = s.serial := by
  obtain ⟨⟨r, h⟩, -⟩ := laneShow_frame l s
  rw [h]

theorem laneShow_stores (l : Nat) (s : State) : (laneShow l s).stores = s.stores := by
  obtain ⟨⟨r, h⟩, -⟩ := laneShow_frame l s
  rw [h]
  rfl

theorem laneReturn_regs (l : Nat) (s : State) : RegsBut s (laneReturn l s) (laneShowRegs l) := (laneShow_frame l _).2

theorem laneReturn_serial (l : Nat) (s : State) : (laneReturn l s).serial =
    (modLane l (fun x => { x with moved := List.replicate 6 0, trial := none, low := false }) s).serial := laneShow_serial ..

theorem laneReturn_stores (l : Nat) (s : State) : (laneReturn l s).stores = s.stores := laneShow_stores ..

theorem laneOf_of_serial {s t : State} (h : t.serial = s.serial) (l : Nat) : laneOf t l = laneOf s l := by rw [laneOf, laneOf, h]

theorem laneTable_congr {s t : State} (hs : t.serial = s.serial) {l : Nat} (hr : t.fld (LANE_STATUS.RATE l) = s.fld (LANE_STATUS.RATE l)) :
    laneTable t l = laneTable s l := by rw [laneTable, laneTable, laneRecord, laneRecord, hs, hr]

theorem fomFloor_congr {s t : State} {l : Nat} (h : t.fld (LANE_CFG.FOM_FLOOR l) = s.fld (LANE_CFG.FOM_FLOOR l)) (r : LaneRec) :
    fomFloor t l r = fomFloor s l r := by rw [fomFloor, fomFloor, h]

/-! ### Events of a lane -/

section LaneFlag

variable {f : Nat → Fld} {cls : EventClass} (hc : cls ≠ .fatal) (l : Nat) (s : State)

include hc

theorem laneFlag_serial : (laneFlag f cls l s).serial = s.serial := by
  obtain ⟨r, c, g, hev, -⟩ := postEvent_frame (e := { cls := cls, block := 13, cause := (f l).lo, inst := l, detail := 0 }) hc
    (s.orBit (f l) ((f l).lo - (f l).lo))
  rw [laneFlag, postFlag, hev]
  rfl

theorem laneFlag_stores : (laneFlag f cls l s).stores = s.stores :=
  postEvent_stores (e := { cls := cls, block := 13, cause := (f l).lo, inst := l, detail := 0 }) hc (s.orBit (f l) ((f l).lo - (f l).lo))

theorem laneFlag_word {a : Nat} (ha : a ≠ (f l).addr) (ho : a ≠ CALL_OVERFLOW.COUNT.addr) : (laneFlag f cls l s).word a = s.word a :=
  (postEvent_word (e := { cls := cls, block := 13, cause := (f l).lo, inst := l, detail := 0 }) hc
    (s.orBit (f l) ((f l).lo - (f l).lo)) ho).trans (State.word_setFld_ne s (f l) _ ha)

theorem laneFlag_regs {as : List Nat} (ha : (f l).addr ∈ as) (ho : CALL_OVERFLOW.COUNT.addr ∈ as) : RegsBut s (laneFlag f cls l s) as :=
  fun _ hn => laneFlag_word hc l s (fun h => hn (h ▸ ha)) (fun h => hn (h ▸ ho))

theorem laneFlag_flag (hf : (f l).fits = true) (hw : (f l).width = 1) (ho : (f l).addr ≠ CALL_OVERFLOW.COUNT.addr) :
    (laneFlag f cls l s).flag (f l) = true := by
  rw [laneFlag, postFlag, State.flag_postEvent hc _ ho, Nat.sub_self]
  exact State.flag_orBit_zero s (f l) hf hw

end LaneFlag

/-! ### The pattern checker -/

theorem prbsInterval_frame (l errors : Nat) (synced : Bool) (s : State) : (∃ r, prbsInterval l errors synced s = { s with regs := r }) ∧
    RegsBut s (prbsInterval l errors synced s) [(LANE_PRBS_ERR.SYNC l).addr, (LANE_EVENT.PRBS_ERR l).addr] := by
  unfold prbsInterval
  extract_lets chk u
  have hu : RegsBut s u [(LANE_PRBS_ERR.SYNC l).addr, (LANE_EVENT.PRBS_ERR l).addr] :=
    ((RegsBut.refl s _).setFld (f := LANE_PRBS_ERR.SYNC l) (.head _) _).setFld (f := LANE_PRBS_ERR.ERRORS l) (.head _) _
  split
  · exact ⟨⟨s.regs, rfl⟩, .refl s _⟩
  · split
    · exact ⟨⟨_, rfl⟩, hu⟩
    · exact ⟨⟨_, rfl⟩, hu.setFld (f := LANE_EVENT.PRBS_ERR l) (.tail _ (.head _)) _⟩

theorem prbsInterval_synced (l : Fin 26) (errors : Nat) {s : State} (hc : s.fld (LANE_LOOP.CHK l) ∈ [1, 2, 3, 4]) :
    (prbsInterval l errors true s).flag (LANE_PRBS_ERR.SYNC l) = true ∧ (prbsInterval l errors true s).fld (LANE_PRBS_ERR.ERRORS l) =
      min (2 ^ (LANE_PRBS_ERR.ERRORS l).width - 1) (s.fld (LANE_PRBS_ERR.ERRORS l) + errors) ∧
    (errors ≠ 0 → (prbsInterval l errors true s).flag (LANE_EVENT.PRBS_ERR l) = true) := by
  have hno : ¬(s.fld (LANE_LOOP.CHK l) = 0 ∨ 5 ≤ s.fld (LANE_LOOP.CHK l) ∨ true = false) := by
    simp only [List.mem_cons, List.not_mem_nil, or_false] at hc
    simp only [Bool.true_eq_false, or_false]
    omega
  obtain ⟨u, hu⟩ : ∃ u, u = (s.setFlag (LANE_PRBS_ERR.SYNC l) true).addFld (LANE_PRBS_ERR.ERRORS l) errors := ⟨_, rfl⟩
  have he : prbsInterval l errors true s = if errors = 0 then u else u.setFlag (LANE_EVENT.PRBS_ERR l) true := by
    rw [hu]
    exact if_neg hno
  have hsync : u.flag (LANE_PRBS_ERR.SYNC l) = true := by
    rw [hu, State.addFld, State.flag_setFld_apart_at (F := LANE_PRBS_ERR.SYNC) (G := LANE_PRBS_ERR.ERRORS) l _ _ (by decide)]
    exact State.flag_setFlag_same s (LANE_PRBS_ERR.SYNC l) true rfl rfl
  have herr : u.fld (LANE_PRBS_ERR.ERRORS l) = min (2 ^ (LANE_PRBS_ERR.ERRORS l).width - 1) (s.fld (LANE_PRBS_ERR.ERRORS l) + errors) := by
    rw [hu, State.fld_addFld_same _ _ _ rfl, State.setFlag,
      State.fld_setFld_apart_at (F := LANE_PRBS_ERR.ERRORS) (G := LANE_PRBS_ERR.SYNC) l _ _ (by decide)]
  rw [he]
  by_cases h0 : errors = 0
  · rw [if_pos h0]
    exact ⟨hsync, herr, fun h => absurd h0 h⟩
  · rw [if_neg h0]
    refine ⟨?_, ?_, fun _ => State.flag_setFlag_same u (LANE_EVENT.PRBS_ERR l) true rfl rfl⟩
    · exact (State.flag_setFld_apart_at (F := LANE_PRBS_ERR.SYNC) (G := LANE_EVENT.PRBS_ERR) l u _ (by decide)).trans hsync
    · exact (State.fld_setFld_apart_at (F := LANE_PRBS_ERR.ERRORS) (G := LANE_EVENT.PRBS_ERR) l u _ (by decide)).trans herr

/-! ### An interval of adaptation -/

/-- The lane with the figure of merit of an interval, and with the pattern checker's count. -/
def fomShown (l fom : Nat) (lastOk synced : Bool) (errors : Nat) (s : State) : State :=
  prbsInterval l errors synced ((s.setFld (LANE_STATUS.FOM l) fom).setFlag (LANE_STATUS.ENTROPY_OK l) lastOk)

/-- The receiver takes no step in an interval (R414). -/
def fomFrozen (l : Nat) (sufficient : Bool) (s : State) : Bool := !sufficient || s.flag (LANE_STATUS.RX_SLEEP l) || !laneHasLock s l

/-- The lane whose interval is seen, before what comes of it. -/
def fomSeen (l fom : Nat) (sufficient lastOk synced : Bool) (errors : Nat) (s : State) : State :=
  (fomShown l fom lastOk synced errors s).setFlag (LANE_STATUS.FROZEN l) (fomFrozen l sufficient (fomShown l fom lastOk synced errors s))

/-- The registers that an interval changes before what comes of it. -/
def fomRegs (l : Nat) : List Nat := [(LANE_STATUS.FOM l).addr, (LANE_PRBS_ERR.SYNC l).addr, (LANE_EVENT.PRBS_ERR l).addr]

section Interval

variable (l : Fin 26) (fom : Nat) (sufficient lastOk synced : Bool) (errors : Nat) (s : State)

theorem fomShown_status {f : Nat → Fld} (hf : ∀ l : Fin 26, (f l).apart (LANE_STATUS.FOM l) = true ∧
    (f l).apart (LANE_STATUS.ENTROPY_OK l) = true ∧ (f l).addr ∉ [(LANE_PRBS_ERR.SYNC l).addr, (LANE_EVENT.PRBS_ERR l).addr]) :
    (fomShown l fom lastOk synced errors s).fld (f l) = s.fld (f l) := by
  obtain ⟨hfom, hent, hprbs⟩ := hf l
  rw [fomShown, State.fld_congr_word ((prbsInterval_frame ..).2 _ hprbs), State.setFlag, State.fld_setFld_apart _ _ _ _ rfl hent,
    State.fld_setFld_apart _ _ _ _ rfl hfom]

theorem fomShown_frozen : fomFrozen l sufficient (fomShown l fom lastOk synced errors s) = fomFrozen l sufficient s := by
  rw [fomFrozen, fomFrozen, laneHasLock, laneHasLock,
    State.flag_of_fld (fomShown_status l fom lastOk synced errors s (f := LANE_STATUS.RX_SLEEP) (by decide)),
    State.flag_of_fld (fomShown_status l fom lastOk synced errors s (f := LANE_STATUS.LOCK) (by decide))]

theorem fomSeen_frame : ∃ r, fomSeen l fom sufficient lastOk synced errors s = { s with regs := r } := by
  obtain ⟨⟨r, h⟩, -⟩ := prbsInterval_frame l errors synced ((s.setFld (LANE_STATUS.FOM l) fom).setFlag (LANE_STATUS.ENTROPY_OK l) lastOk)
  rw [fomSeen, fomShown, h]
  exact ⟨_, rfl⟩

theorem fomSeen_fld {f : Nat → Fld} (hf : ∀ l : Fin 26, (f l).apart (LANE_STATUS.FOM l) = true ∧
    (f l).apart (LANE_STATUS.ENTROPY_OK l) = true ∧ (f l).addr ∉ [(LANE_PRBS_ERR.SYNC l).addr, (LANE_EVENT.PRBS_ERR l).addr])
    (hz : ∀ l : Fin 26, (f l).apart (LANE_STATUS.FROZEN l) = true) :
    (fomSeen l fom sufficient lastOk synced errors s).fld (f l) = s.fld (f l) :=
  (State.fld_setFld_apart _ _ _ _ rfl (hz l)).trans (fomShown_status l fom lastOk synced errors s hf)

theorem fomSeen_shown (hfom : fom < 256) : (fomSeen l fom sufficient lastOk synced errors s).fld (LANE_STATUS.FOM l) = fom ∧
    (fomSeen l fom sufficient lastOk synced errors s).flag (LANE_STATUS.ENTROPY_OK l) = lastOk ∧
    (fomSeen l fom sufficient lastOk synced errors s).flag (LANE_STATUS.FROZEN l) = fomFrozen l sufficient s := by
  have hn : ∀ l : Fin 26, (LANE_STATUS.FOM l).addr ∉ [(LANE_PRBS_ERR.SYNC l).addr, (LANE_EVENT.PRBS_ERR l).addr] := by decide
  have hp := (prbsInterval_frame l errors synced ((s.setFld (LANE_STATUS.FOM l) fom).setFlag (LANE_STATUS.ENTROPY_OK l) lastOk)).2 _ (hn l)
  refine ⟨?_, ?_, ?_⟩
  · rw [fomSeen, State.setFlag, State.fld_setFld_apart_at (F := LANE_STATUS.FOM) (G := LANE_STATUS.FROZEN) l _ _ (by decide), fomShown,
      State.fld_congr_word (f := LANE_STATUS.FOM l) hp, State.setFlag,
      State.fld_setFld_apart_at (F := LANE_STATUS.FOM) (G := LANE_STATUS.ENTROPY_OK) l _ _ (by decide),
      State.fld_setFld_same _ _ _ rfl]
    exact Nat.mod_eq_of_lt hfom
  · rw [fomSeen, State.setFlag, State.flag_setFld_apart_at (F := LANE_STATUS.ENTROPY_OK) (G := LANE_STATUS.FROZEN) l _ _ (by decide),
      fomShown, State.flag_of_word (f := LANE_STATUS.ENTROPY_OK l) hp]
    exact State.flag_setFlag_same _ (LANE_STATUS.ENTROPY_OK l) lastOk rfl rfl
  · rw [fomSeen, fomShown_frozen]
    exact State.flag_setFlag_same _ (LANE_STATUS.FROZEN l) _ rfl rfl

theorem fomSeen_table : laneTable (fomSeen l fom sufficient lastOk synced errors s) l = laneTable s l := by
  obtain ⟨r, h⟩ := fomSeen_frame l fom sufficient lastOk synced errors s
  exact laneTable_congr (by rw [h]) (fomSeen_fld l fom sufficient lastOk synced errors s (f := LANE_STATUS.RATE) (by decide) (by decide))

theorem fomSeen_floor (r : LaneRec) : fomFloor (fomSeen l fom sufficient lastOk synced errors s) l r = fomFloor s l r :=
  fomFloor_congr (fomSeen_fld l fom sufficient lastOk synced errors s (f := LANE_CFG.FOM_FLOOR) (by decide) (by decide)) r

end Interval

/-- A second interval below the floor returns the receiver to its table values (R416). -/
def fomReverted (l fom : Nat) (s : State) : State :=
  laneFlag LANE_EVENT.REVERT .info l ((modLane l (fun x => { x with holdoff := some (laneReturn l s).ticks, lastFom := fom })
    (laneReturn l s)).addFld (LANE_CNT.REVERTS l) 1)

/-- The step that an interval takes (R415). -/
def fomStep (l fom : Nat) (s : State) : Lane :=
  let x := laneOf s l
  let waits := x.holdoff.any (fun t => s.elapsedNs t 100000000 == false)
  if s.flag (LANE_CFG.ADAPT_EN l) ∧ waits = false then nextTrial (laneTable s l) (judgeTrial fom x) else x

def fomAdapted (l fom : Nat) (s : State) : State :=
  laneShow l (modLane l (fun _ => { fomStep l fom s with low := decide (fom < fomFloor s l (laneTable s l)), lastFom := fom }) s)

/-- What comes of an interval: nothing, a return to the table values, or a step. -/
def fomResult (l fom : Nat) (frozen : Bool) (s : State) : State :=
  if frozen then s
  else if decide (fom < fomFloor s l (laneTable s l)) = true ∧ (laneOf s l).low = true then fomReverted l fom s
  else fomAdapted l fom s

theorem exec_laneFomInterval {s : State} {l : Fin 26} (hon : laneOn s l = true) (hruns : laneRuns s l = true) (fom : Fin 256)
    (sufficient lastOk synced : Bool) (errors : Nat) : exec (.laneFomInterval l fom sufficient lastOk synced errors) s =
      .next (fomResult l fom (fomFrozen l sufficient (fomShown l fom lastOk synced errors s))
        (fomSeen l fom sufficient lastOk synced errors s)) := by
  show execLaneFomInterval l fom sufficient lastOk synced errors s = _
  unfold execLaneFomInterval
  refine (if_neg (by rw [hon]; decide)).trans ((if_neg (by rw [hruns]; decide)).trans ?_)
  obtain ⟨z, hz⟩ : ∃ z, z = fomFrozen l sufficient (fomShown l fom lastOk synced errors s) := ⟨_, rfl⟩
  unfold fomResult
  rw [← hz]
  show (if fomFrozen l sufficient (fomShown l fom lastOk synced errors s) then _ else _) = _
  rw [← hz]
  split
  · rfl
  · exact (apply_ite Host.Outcome.next _ _ _).symm

/-- The registers that a step or a return changes. -/
def laneStepRegs (l : Nat) : List Nat := laneShowRegs l ++ [(LANE_CNT.REVERTS l).addr, (LANE_EVENT.REVERT l).addr, CALL_OVERFLOW.COUNT.addr]

theorem fomReverted_regs (l fom : Nat) (s : State) : RegsBut s (fomReverted l fom s) (laneStepRegs l) := by
  obtain ⟨u, hu⟩ : ∃ u, u = laneReturn l s := ⟨_, rfl⟩
  obtain ⟨v, hv⟩ : ∃ v, v = modLane l (fun x => { x with holdoff := some u.ticks, lastFom := fom }) u := ⟨_, rfl⟩
  have hr : RegsBut s u (laneStepRegs l) := hu ▸ (laneReturn_regs l s).mono (List.subset_append_left ..)
  have hvr : RegsBut u v (laneStepRegs l) := RegsBut.of_regs (hv ▸ rfl) _
  have he : fomReverted l fom s = laneFlag LANE_EVENT.REVERT .info l (v.addFld (LANE_CNT.REVERTS l) 1) := by rw [hv, hu, fomReverted]
  rw [he]
  exact (hr.trans (hvr.setFld (f := LANE_CNT.REVERTS l) (.tail _ (.tail _ (.head _))) _)).trans
    (laneFlag_regs (by decide) l _ (.tail _ (.tail _ (.tail _ (.head _)))) (.tail _ (.tail _ (.tail _ (.tail _ (.head _))))))

theorem fomReverted_stores (l fom : Nat) (s : State) : (fomReverted l fom s).stores = s.stores := by
  obtain ⟨u, hu⟩ : ∃ u, u = laneReturn l s := ⟨_, rfl⟩
  obtain ⟨v, hv⟩ : ∃ v, v = modLane l (fun x => { x with holdoff := some u.ticks, lastFom := fom }) u := ⟨_, rfl⟩
  have hus : u.stores = s.stores := hu ▸ laneReturn_stores l s
  have hvs : v.stores = u.stores := hv ▸ rfl
  have he : fomReverted l fom s = laneFlag LANE_EVENT.REVERT .info l (v.addFld (LANE_CNT.REVERTS l) 1) := by rw [hv, hu, fomReverted]
  have hadd : (v.addFld (LANE_CNT.REVERTS l) 1).stores = v.stores := rfl
  rw [he, laneFlag_stores (by decide), hadd, hvs, hus]

theorem fomAdapted_regs (l fom : Nat) (s : State) : RegsBut s (fomAdapted l fom s) (laneStepRegs l) :=
  (laneShow_frame l _).2.mono (List.subset_append_left ..)

theorem fomResult_after (l fom : Nat) (frozen : Bool) (s : State) : RegsBut s (fomResult l fom frozen s) (laneStepRegs l) ∧
    (fomResult l fom frozen s).stores = s.stores := by
  unfold fomResult
  split
  · exact ⟨.refl s _, rfl⟩
  · split
    · exact ⟨fomReverted_regs l fom s, fomReverted_stores l fom s⟩
    · exact ⟨fomAdapted_regs l fom s, laneShow_stores l _⟩

theorem fomReverted_shown (l : Fin 26) (fom : Nat) {s : State} (hl : l.val < s.serial.lanes.length) :
    (laneOf (fomReverted l fom s) l).moved = List.replicate 6 0 ∧ (laneOf (fomReverted l fom s) l).trial = none ∧
      (laneOf (fomReverted l fom s) l).holdoff = some s.ticks ∧ (fomReverted l fom s).flag (LANE_EVENT.REVERT l) = true ∧
      (fomReverted l fom s).fld (LANE_CNT.REVERTS l) =
        min (2 ^ (LANE_CNT.REVERTS l).width - 1) (s.fld (LANE_CNT.REVERTS l) + 1) := by
  obtain ⟨u, hu⟩ : ∃ u, u = laneReturn l s := ⟨_, rfl⟩
  have hserial : u.serial = _ := hu ▸ laneReturn_serial l s
  have hticks : u.ticks = s.ticks := ticks_of_stores (hu ▸ laneReturn_stores l s)
  have hul : l.val < u.serial.lanes.length := by
    rw [hserial]
    exact (length_modLane ..).symm ▸ hl
  have hlane : laneOf u l = { laneOf s l with moved := List.replicate 6 0, trial := none, low := false } :=
    (laneOf_of_serial hserial l).trans (laneOf_modLane_same hl _)
  obtain ⟨v, hv⟩ : ∃ v, v = modLane l (fun x => { x with holdoff := some u.ticks, lastFom := fom }) u := ⟨_, rfl⟩
  have hvl : laneOf v l = { laneOf u l with holdoff := some u.ticks, lastFom := fom } := hv ▸ laneOf_modLane_same hul _
  have hvr : v.fld (LANE_CNT.REVERTS l) = s.fld (LANE_CNT.REVERTS l) := by
    have hn : ∀ l : Fin 26, (LANE_CNT.REVERTS l).addr ∉ laneShowRegs l := by decide
    have hvu : v.fld (LANE_CNT.REVERTS l) = u.fld (LANE_CNT.REVERTS l) := by rw [hv]; rfl
    rw [hvu, hu]
    exact State.fld_congr_word (laneReturn_regs l s _ (hn l))
  have he : fomReverted l fom s = laneFlag LANE_EVENT.REVERT .info l (v.addFld (LANE_CNT.REVERTS l) 1) := by
    rw [hv, hu]
    rfl
  have ho : ∀ l : Fin 26, (LANE_EVENT.REVERT l).addr ≠ CALL_OVERFLOW.COUNT.addr ∧ (LANE_CNT.REVERTS l).addr ≠ CALL_OVERFLOW.COUNT.addr ∧
      (LANE_CNT.REVERTS l).addr ≠ (LANE_EVENT.REVERT l).addr := by decide
  have hts : (fomReverted l fom s).serial = v.serial := by
    rw [he, laneFlag_serial (by decide)]
    rfl
  rw [laneOf_of_serial hts, hvl, hlane, hticks]
  refine ⟨rfl, rfl, rfl, ?_, ?_⟩
  · rw [he]
    exact laneFlag_flag (by decide) l _ rfl rfl (ho l).1
  · rw [he, State.fld_congr_word (laneFlag_word (by decide) l _ (ho l).2.2 (ho l).2.1), State.fld_addFld_same _ _ _ rfl, hvr]

/-! ### The steps -/

theorem nextTrial_bounded (r : LaneRec) (x : Lane) (h : ∀ m ∈ x.moved, -3 ≤ m ∧ m ≤ 3) : ∀ m ∈ (nextTrial r x).moved, -3 ≤ m ∧ m ≤ 3 := by
  have hmod : ∀ (l : List Int) (k : Nat) (v : Int), (-3 ≤ v ∧ v ≤ 3) → (∀ m ∈ l, -3 ≤ m ∧ m ≤ 3) →
      ∀ m ∈ modAt l k (fun _ => v), -3 ≤ m ∧ m ≤ 3 := by
    intro l
    induction l with
    | nil => exact fun _ _ _ _ m hm => nomatch hm
    | cons a l ih =>
      intro k v hv hl m hm
      cases k with
      | zero =>
        obtain rfl | hm := List.mem_cons.1 hm
        · exact hv
        · exact hl m (.tail _ hm)
      | succ k =>
        obtain rfl | hm := List.mem_cons.1 hm
        · exact hl m (.head _)
        · exact ih k v hv (fun q hq => hl q (.tail _ hq)) m hm
  unfold nextTrial
  extract_lets k d m v y low
  split
  · exact h
  · next hb => exact hmod _ _ _ (by omega) h

theorem getD_modAt {α : Type} (l : List α) {k : Nat} (hk : k < l.length) (f : α → α) (d : α) :
    (modAt l k f).getD k d = f (l.getD k d) := by
  rw [List.getD_eq_getElem?_getD, getElem?_modAt, if_pos rfl, List.getElem?_eq_getElem hk, List.getD_eq_getElem _ _ hk]
  rfl

theorem judgeTrial_undone {x : Lane} {k fom : Nat} (ht : x.trial = some k) (hm : k < x.moved.length) (hf : fom ≤ x.lastFom) :
    (judgeTrial fom x).trial = none ∧ (judgeTrial fom x).up[k]? = (x.up[k]?).map (fun u => !u) ∧
      (judgeTrial fom x).moved.getD k 0 = x.moved.getD k 0 - (if x.up.getD k true then 1 else -1) := by
  have he : judgeTrial fom x =
      { x with trial := none, moved := modAt x.moved k (fun m => m - (if x.up.getD k true then 1 else -1)), up := (modAt x.up k (fun u => !u)) } := by
    unfold judgeTrial
    rw [ht]
    exact if_neg (by omega)
  rw [he]
  refine ⟨rfl, ?_, getD_modAt _ hm _ _⟩
  rw [getElem?_modAt, if_pos rfl]

/-! ### Presets of a PCIe lane -/

/-- The tries that an equalisation has behind it (R417). -/
def eqTried (x : Lane) : List (Nat × Nat) := if x.preset.isSome then [] else x.eq

/-- The state in which a try is judged. -/
def eqJudged (l : Nat) (s : State) : State := if (eqTried (laneOf s l)).isEmpty then s.setFlag (LANE_STATUS.EQ_LOW l) false else s

theorem eqJudged_serial (l : Nat) (s : State) : (eqJudged l s).serial = s.serial := by
  unfold eqJudged
  split <;> rfl

theorem eqJudged_floor (l : Fin 26) (s : State) (r : LaneRec) : fomFloor (eqJudged l s) l r = fomFloor s l r := by
  refine fomFloor_congr ?_ r
  unfold eqJudged
  split
  · exact State.fld_setFld_apart_at (F := LANE_CFG.FOM_FLOOR) (G := LANE_STATUS.EQ_LOW) l _ _ (by decide)
  · rfl

/-- The best of the presets tried, the first of equals. -/
def eqBest (eq : List (Nat × Nat)) (p : Nat) : Nat × Nat :=
  let best := eq.foldl (fun b e => if b.2 < e.2 then e else b) (p, 0)
  if best.2 = 0 then eq.head?.getD best else best

theorem foldl_best (l : List (Nat × Nat)) (b : Nat × Nat) :
    (l.foldl (fun b e => if b.2 < e.2 then e else b) b = b ∨ l.foldl (fun b e => if b.2 < e.2 then e else b) b ∈ l) ∧
      b.2 ≤ (l.foldl (fun b e => if b.2 < e.2 then e else b) b).2 ∧
      ∀ e ∈ l, e.2 ≤ (l.foldl (fun b e => if b.2 < e.2 then e else b) b).2 := by
  induction l generalizing b with
  | nil => exact ⟨.inl rfl, le_refl _, fun e he => nomatch he⟩
  | cons a l ih =>
    obtain ⟨hmem, hle, hall⟩ := ih (if b.2 < a.2 then a else b)
    rw [List.foldl_cons]
    by_cases hlt : b.2 < a.2
    · rw [if_pos hlt] at hmem hle hall ⊢
      refine ⟨.inr (hmem.elim (fun h => h.symm ▸ List.mem_cons_self) (.tail _)), by omega, fun e he => ?_⟩
      obtain rfl | he := List.mem_cons.1 he
      · exact hle
      · exact hall e he
    · rw [if_neg hlt] at hmem hle hall ⊢
      refine ⟨hmem.imp id (.tail _), hle, fun e he => ?_⟩
      obtain rfl | he := List.mem_cons.1 he
      · omega
      · exact hall e he

theorem eqBest_max {eq : List (Nat × Nat)} (hne : eq ≠ []) (p : Nat) : eqBest eq p ∈ eq ∧ ∀ e ∈ eq, e.2 ≤ (eqBest eq p).2 := by
  obtain ⟨hmem, -, hall⟩ := foldl_best eq (p, 0)
  unfold eqBest
  extract_lets best
  split
  · next h0 =>
    cases eq with
    | nil => exact absurd rfl hne
    | cons a l => exact ⟨.head _, fun e he => (hall e he).trans (h0.le.trans (Nat.zero_le _))⟩
  · next h0 =>
    refine ⟨hmem.resolve_left fun h => h0 ?_, hall⟩
    show (List.foldl _ (p, 0) eq).2 = 0
    rw [h]

section Preset

variable {s : State} {l : Fin 26} {rate : Fin 3} {fom : Fin 256} {r : LaneRec}

theorem exec_preset_kept (hl : l.val < 16) (hd : s.domainOn (laneDomain l) = true)
    (hr : r = (laneRecord s l rate).getD (laneDefault l rate)) (hp : (laneOf s l).preset.isSome = true) (hf : fomFloor s l r ≤ fom.val) :
    exec (.pcieEqPresetTrial l rate fom) s =
      .next (modLane l (fun x => { x with eq := [(r.preset, fom.val)], preset := some r.preset })
        (s.setFlag (LANE_STATUS.EQ_LOW l) false)) := by
  have hguard : ¬(16 ≤ l.val ∨ s.domainOn (laneDomain l) = false) := by
    rw [hd]
    simpa using hl
  have htried : eqTried (laneOf s l) = [] := if_pos hp
  have hj : eqJudged l s = s.setFlag (LANE_STATUS.EQ_LOW l) false := if_pos (by rw [htried]; rfl)
  show execPcieEqPresetTrial l rate fom s = _
  unfold execPcieEqPresetTrial
  refine (if_neg hguard).trans ?_
  rw [← hr]
  refine (if_pos (show fomFloor (eqJudged l s) l r ≤ fom.val by rw [eqJudged_floor]; exact hf)).trans ?_
  show Host.Outcome.next (modLane l (fun x => { x with
    eq := eqTried (laneOf s l) ++ [((r.preset :: r.alts).getD (eqTried (laneOf s l)).length r.preset, fom.val)],
    preset := some ((r.preset :: r.alts).getD (eqTried (laneOf s l)).length r.preset) }) (eqJudged l s)) = _
  rw [htried, hj]
  rfl

theorem exec_preset_best (hl : l.val < 16) (hd : s.domainOn (laneDomain l) = true)
    (hr : r = (laneRecord s l rate).getD (laneDefault l rate)) (hp : (laneOf s l).preset = none)
    (hlen : (laneOf s l).eq.length = r.alts.length) (hf : fom.val < fomFloor s l r) :
    ∃ eq p, eq ≠ [] ∧ exec (.pcieEqPresetTrial l rate fom) s = .next (laneFlag LANE_EVENT.EQ_LOW .warning l
      ((modLane l (fun x => { x with eq := eq, preset := some (eqBest eq p).1 }) (eqJudged l s)).setFlag (LANE_STATUS.EQ_LOW l) true)) := by
  have hguard : ¬(16 ≤ l.val ∨ s.domainOn (laneDomain l) = false) := by
    rw [hd]
    simpa using hl
  have htried : eqTried (laneOf s l) = (laneOf s l).eq := if_neg (by rw [hp]; decide)
  have hlong : ¬(eqTried (laneOf s l) ++ [((r.preset :: r.alts).getD (eqTried (laneOf s l)).length r.preset, fom.val)]).length <
      (r.preset :: r.alts).length := by
    rw [htried]
    simp [hlen]
  refine ⟨eqTried (laneOf s l) ++ [((r.preset :: r.alts).getD (eqTried (laneOf s l)).length r.preset, fom.val)],
    (r.preset :: r.alts).getD (eqTried (laneOf s l)).length r.preset, by simp, ?_⟩
  show execPcieEqPresetTrial l rate fom s = _
  unfold execPcieEqPresetTrial
  refine (if_neg hguard).trans ?_
  rw [← hr]
  refine (if_neg (show ¬fomFloor (eqJudged l s) l r ≤ fom.val by rw [eqJudged_floor]; omega)).trans ?_
  exact (if_neg hlong).trans rfl

end Preset

/-- Settles O47: an interval is what the lane shows and what comes of it, and a preset is judged against its floor. -/
theorem lanesAdaptAndEqualise : Obligations.LanesAdaptAndEqualise := by
  unfold Obligations.LanesAdaptAndEqualise
  refine ⟨?_, ?_, ?_, ?_, nextTrial_bounded, ?_, ?_, ?_⟩
  · intro s l fom sufficient lastOk synced errors hon hruns
    obtain ⟨hfom, hent, hfrozen⟩ := fomSeen_shown l fom sufficient lastOk synced errors s fom.isLt
    have hafter := fomResult_after l fom (fomFrozen l sufficient (fomShown l fom lastOk synced errors s))
      (fomSeen l fom sufficient lastOk synced errors s)
    have hn : ∀ l : Fin 26, (LANE_STATUS.FOM l).addr ∉ laneStepRegs l := by decide
    have hw := hafter.1 _ (hn l)
    obtain ⟨r, hframe⟩ := fomSeen_frame l fom sufficient lastOk synced errors s
    refine ⟨_, exec_laneFomInterval hon hruns fom sufficient lastOk synced errors, ?_, ?_, ?_, ?_, ?_⟩
    · rw [State.fld_congr_word (f := LANE_STATUS.FOM l) hw, hfom]
    · rw [State.flag_of_word (f := LANE_STATUS.ENTROPY_OK l) hw, hent]
    · rw [State.flag_of_word (f := LANE_STATUS.FROZEN l) hw, hfrozen]
      rfl
    · intro hs
      have hz : fomFrozen l sufficient (fomShown l fom lastOk synced errors s) = true := by
        rw [fomFrozen, hs]
        rfl
      rw [hz]
      show (fomSeen l fom sufficient lastOk synced errors s).serial = s.serial
      rw [hframe]
    · refine sameMemory_of_stores (hafter.2.trans ?_)
      rw [hframe]
      rfl
  · intro s l fom sufficient lastOk errors hon hruns hc
    obtain ⟨⟨r, hframe⟩, hregs⟩ := prbsInterval_frame l errors true s
    obtain ⟨hsync, herr, hev⟩ := prbsInterval_synced l errors hc
    refine ⟨prbsInterval l errors true s, (if_neg (by rw [hon]; decide)).trans (if_pos hruns), hsync, herr, hev, ?_, hregs⟩
    rw [hframe]
  · intro s l fom lastOk synced errors hon hruns hlock hsleep hl hbelow hlow
    obtain ⟨u, hu⟩ : ∃ u, u = fomSeen l fom true lastOk synced errors s := ⟨_, rfl⟩
    obtain ⟨r, hframe⟩ := hu ▸ fomSeen_frame l fom true lastOk synced errors s
    have hz : fomFrozen l true (fomShown l fom lastOk synced errors s) = false := by
      rw [fomShown_frozen, fomFrozen, hsleep, hlock]
      rfl
    have hlane : laneOf u l = laneOf s l := laneOf_of_serial (by rw [hframe]) l
    have hrev : decide (fom.val < fomFloor u l (laneTable u l)) = true ∧ (laneOf u l).low = true := by
      rw [hlane, hu, fomSeen_table, fomSeen_floor]
      exact ⟨decide_eq_true hbelow, hlow⟩
    have hexec : exec (.laneFomInterval l fom true lastOk synced errors) s = .next (fomReverted l fom u) := by
      rw [exec_laneFomInterval hon hruns, hz, ← hu]
      exact congrArg Host.Outcome.next (if_pos hrev)
    obtain ⟨hmoved, htrial, hhold, hflag, hcount⟩ := fomReverted_shown l fom (s := u) (by rw [hframe]; exact hl)
    refine ⟨_, hexec, hmoved, htrial, ?_, hflag, ?_⟩
    · rw [hhold, hframe]
    · rw [hcount, hu, fomSeen_fld l fom true lastOk synced errors s (f := LANE_CNT.REVERTS) (by decide) (by decide)]
  · intro s l fom lastOk synced errors hon hruns hlock hsleep hl hfloor hadapt hhold
    obtain ⟨u, hu⟩ : ∃ u, u = fomSeen l fom true lastOk synced errors s := ⟨_, rfl⟩
    obtain ⟨r, hframe⟩ := hu ▸ fomSeen_frame l fom true lastOk synced errors s
    have hz : fomFrozen l true (fomShown l fom lastOk synced errors s) = false := by
      rw [fomShown_frozen, fomFrozen, hsleep, hlock]
      rfl
    have hlane : laneOf u l = laneOf s l := laneOf_of_serial (by rw [hframe]) l
    have htab : laneTable u l = laneTable s l := by rw [hu, fomSeen_table]
    have hadapt' : u.flag (LANE_CFG.ADAPT_EN l) = true := by
      rw [hu, State.flag_of_fld (fomSeen_fld l fom true lastOk synced errors s (f := LANE_CFG.ADAPT_EN) (by decide) (by decide))]
      exact hadapt
    have hno : ¬(decide (fom.val < fomFloor u l (laneTable u l)) = true ∧ (laneOf u l).low = true) := by
      rw [hu, fomSeen_table, fomSeen_floor, decide_eq_true_eq]
      omega
    have hexec : exec (.laneFomInterval l fom true lastOk synced errors) s = .next (fomAdapted l fom u) := by
      rw [exec_laneFomInterval hon hruns, hz, ← hu]
      exact congrArg Host.Outcome.next (if_neg hno)
    have hstep : fomStep l fom u = nextTrial (laneTable s l) (judgeTrial fom (laneOf s l)) := by
      unfold fomStep
      rw [hlane, htab]
      extract_lets x waits
      have hw : waits = false := congrArg (Option.any fun t => u.elapsedNs t 100000000 == false) hhold
      exact if_pos ⟨hadapt', hw⟩
    refine ⟨_, hexec, ?_⟩
    rw [fomAdapted, laneOf_of_serial (laneShow_serial ..), laneOf_modLane_same (by rw [hframe]; exact hl), hstep]
  · intro x k fom ht hm hup hf
    exact judgeTrial_undone ht hm hf
  · intro s l rate fom r hl hd hlen hr hp hf
    have hu : l.val < (s.setFlag (LANE_STATUS.EQ_LOW l) false).serial.lanes.length := hlen
    have hlane := laneOf_modLane_same hu (fun x => { x with eq := [(r.preset, fom.val)], preset := some r.preset })
    refine ⟨_, exec_preset_kept hl hd hr hp hf, ?_, ?_, State.flag_setFlag_same s (LANE_STATUS.EQ_LOW l) false rfl rfl, rfl,
      fun a ha => State.word_setFld_ne s (LANE_STATUS.EQ_LOW l) _ (List.ne_of_not_mem_cons ha)⟩
    · rw [hlane]
    · rw [hlane]
  · intro s l rate fom r hl hd hlen hr hp heq hf
    obtain ⟨eq, p, hne, hexec⟩ := exec_preset_best hl hd hr hp heq hf
    obtain ⟨hmem, hmax⟩ := eqBest_max hne p
    obtain ⟨u, hu⟩ : ∃ u, u = modLane l (fun x => { x with eq := eq, preset := some (eqBest eq p).1 }) (eqJudged l s) := ⟨_, rfl⟩
    have hul : laneOf u l = { laneOf (eqJudged l s) l with eq := eq, preset := some (eqBest eq p).1 } :=
      hu ▸ laneOf_modLane_same (by rw [eqJudged_serial]; exact hlen) _
    rw [← hu] at hexec
    obtain ⟨v, hv⟩ : ∃ v, v = laneFlag LANE_EVENT.EQ_LOW .warning l (u.setFlag (LANE_STATUS.EQ_LOW l) true) := ⟨_, rfl⟩
    have ho : ∀ l : Fin 26, (LANE_EVENT.EQ_LOW l).addr ≠ CALL_OVERFLOW.COUNT.addr ∧ (LANE_STATUS.EQ_LOW l).addr ≠ CALL_OVERFLOW.COUNT.addr ∧
        (LANE_STATUS.EQ_LOW l).addr ≠ (LANE_EVENT.EQ_LOW l).addr := by decide
    have hvs : v.serial = u.serial := by
      rw [hv, laneFlag_serial (by decide)]
      rfl
    rw [← hv] at hexec
    have hvl : laneOf v l = laneOf u l := laneOf_of_serial hvs l
    refine ⟨v, (eqBest eq p).1, (eqBest eq p).2, hexec, ?_, ?_, ?_, ?_, ?_⟩
    · rw [hvl, hul]
    · rw [hvl, hul]
      exact hmem
    · rw [hvl, hul]
      exact hmax
    · rw [hv, State.flag_of_word (laneFlag_word (by decide) l _ (ho l).2.2 (ho l).2.1)]
      exact State.flag_setFlag_same u (LANE_STATUS.EQ_LOW l) true rfl rfl
    · rw [hv]
      exact laneFlag_flag (by decide) l _ rfl rfl (ho l).1

end Sys2Proof.Machine
end

section
/-! PROOFS. Lanes sleep and wake (R402 to R407). -/

namespace Sys2Proof.Machine

/-! ### The lanes of a link -/

theorem linkOf_lt (s : State) (l k : Nat) (hl : l < 26) (hk : k ∈ linkOf s l) : k < 26 := by
  unfold linkOf at hk
  split at hk
  · next h16 =>
    cases hf : (magLinks (l / 8) (magPort s (l / 8)).bifur).find? (fun ls => ls.contains l) with
    | none =>
      rw [hf] at hk
      cases hk
    | some ls =>
      rw [hf] at hk
      have hls := List.mem_of_find?_eq_some hf
      have hall : ∀ m : Fin 2, ∀ b : Bool, ∀ ls ∈ magLinks m b, ∀ k ∈ ls, k < 26 := by decide
      exact hall ⟨l / 8, by omega⟩ _ ls hls k hk
  · split at hk
    · next h24 =>
      have hall : ∀ p : Fin 2, ∀ k ∈ klLanes p, k < 26 := by decide
      exact hall ⟨(l - 16) / 4, by omega⟩ k hk
    · rw [List.mem_singleton.1 hk]
      exact hl

theorem activeLanes_lt {s : State} {l : Fin 26} : ∀ k ∈ activeLanes s l, k < 26 :=
  fun k hk => linkOf_lt s l k l.isLt (List.mem_of_mem_filter hk)

theorem txSleep_addr_ne {j k : Nat} (h : k ≠ j) : (LANE_STATUS.TX_SLEEP k).addr ≠ (LANE_STATUS.TX_SLEEP j).addr := by
  show 0x2c0004 + 0x100 * k ≠ 0x2c0004 + 0x100 * j
  omega

/-! ### Every active lane of a link -/

/-- Lane `k` takes `f` of its state and shows `b` as TX_SLEEP. -/
def laneSet (f : Nat → Lane → Lane) (b : Bool) (s : State) (k : Nat) : State :=
  (modLane k (f s.ticks) s).setFlag (LANE_STATUS.TX_SLEEP k) b

/-- Only the lanes and the registers `as` differ. -/
def LanesBut (s t : State) (as : List Nat) : Prop := (∃ x r, t = { s with serial := x, regs := r }) ∧ RegsBut s t as

theorem LanesBut.onlyRegs {s t : State} {as : List Nat} (h : LanesBut s t as) : OnlyRegs { s with serial := t.serial } t as := by
  obtain ⟨⟨x, r, rfl⟩, hr⟩ := h
  exact ⟨rfl, hr⟩

theorem laneSet_but (f : Nat → Lane → Lane) (b : Bool) {s t : State} {as : List Nat} (h : LanesBut s t as) {k : Nat}
    (hk : (LANE_STATUS.TX_SLEEP k).addr ∈ as) : LanesBut s (laneSet f b t k) as := by
  obtain ⟨⟨x, r, rfl⟩, hr⟩ := h
  exact ⟨⟨_, _, rfl⟩, RegsBut.setFld (f := LANE_STATUS.TX_SLEEP k) (hr.trans (RegsBut.of_regs rfl as)) hk _⟩

theorem laneSet_same (f : Nat → Lane → Lane) (b : Bool) {s : State} {k : Nat} (h : k < s.serial.lanes.length) :
    (laneSet f b s k).flag (LANE_STATUS.TX_SLEEP k) = b ∧ laneOf (laneSet f b s k) k = f s.ticks (laneOf s k) :=
  ⟨State.flag_setFlag_same _ (LANE_STATUS.TX_SLEEP k) b rfl rfl, laneOf_modLane_same h _⟩

theorem laneSet_ne (f : Nat → Lane → Lane) (b : Bool) (s : State) {j k : Nat} (h : k ≠ j) :
    (laneSet f b s j).flag (LANE_STATUS.TX_SLEEP k) = s.flag (LANE_STATUS.TX_SLEEP k) ∧ laneOf (laneSet f b s j) k = laneOf s k :=
  ⟨State.flag_of_word (State.word_setFld_ne _ (LANE_STATUS.TX_SLEEP j) _ (txSleep_addr_ne h)), laneOf_modLane_ne h _ s⟩

theorem length_laneSet (f : Nat → Lane → Lane) (b : Bool) (s : State) (k : Nat) :
    (laneSet f b s k).serial.lanes.length = s.serial.lanes.length := length_modLane ..

/-- What a run of `laneSet` over the lanes `ls` leaves: each of them has taken `f` and shows `b`. -/
theorem foldl_laneSet (f : Nat → Lane → Lane) (b : Bool) (ls : List Nat) (s : State) (h : ∀ k ∈ ls, k < s.serial.lanes.length) :
    (∀ k ∈ ls, (ls.foldl (laneSet f b) s).flag (LANE_STATUS.TX_SLEEP k) = b ∧ ∃ x, laneOf (ls.foldl (laneSet f b) s) k = f s.ticks x) ∧
      LanesBut s (ls.foldl (laneSet f b) s) (ls.map fun k => (LANE_STATUS.TX_SLEEP k).addr) ∧
      (ls.foldl (laneSet f b) s).serial.lanes.length = s.serial.lanes.length := by
  suffices hall : ∀ ms, ms ⊆ ls → (∀ k ∈ ms, (ms.foldl (laneSet f b) s).flag (LANE_STATUS.TX_SLEEP k) = b ∧
      ∃ x, laneOf (ms.foldl (laneSet f b) s) k = f s.ticks x) ∧
      LanesBut s (ms.foldl (laneSet f b) s) (ls.map fun k => (LANE_STATUS.TX_SLEEP k).addr) ∧
      (ms.foldl (laneSet f b) s).serial.lanes.length = s.serial.lanes.length from hall ls (List.Subset.refl ls)
  intro ms
  induction ms using List.reverseRecOn with
  | nil => exact fun _ => ⟨fun k hk => (nomatch hk), ⟨⟨s.serial, s.regs, rfl⟩, .refl s _⟩, rfl⟩
  | append_singleton ms j ih =>
    intro hsub
    obtain ⟨hdone, hbut, hlen⟩ := ih fun k hk => hsub (List.mem_append_left _ hk)
    have hj : j ∈ ls := hsub (List.mem_append_right _ (List.mem_singleton.2 rfl))
    rw [List.foldl_append]
    obtain ⟨t, ht⟩ : ∃ t, t = ms.foldl (laneSet f b) s := ⟨_, rfl⟩
    rw [← ht] at hdone hbut hlen ⊢
    show (∀ k ∈ ms ++ [j], (laneSet f b t j).flag (LANE_STATUS.TX_SLEEP k) = b ∧ ∃ x, laneOf (laneSet f b t j) k = f s.ticks x) ∧
      LanesBut s (laneSet f b t j) _ ∧ (laneSet f b t j).serial.lanes.length = _
    refine ⟨fun k hk => ?_, laneSet_but f b hbut (List.mem_map_of_mem hj), (length_laneSet f b t j).trans hlen⟩
    by_cases hkj : k = j
    · obtain ⟨hflag, hlane⟩ := laneSet_same f b (s := t) (k := j) (hlen ▸ h j hj)
      obtain ⟨⟨x, r, htr⟩, -⟩ := hbut
      have hticks : t.ticks = s.ticks := by rw [htr]
      rw [hkj, hlane, hticks]
      exact ⟨hflag, _, rfl⟩
    · obtain ⟨hflag, hlane⟩ := laneSet_ne f b t hkj
      rw [hflag, hlane]
      exact hdone k ((List.mem_append.1 hk).resolve_right fun hm => hkj (List.mem_singleton.1 hm))

/-- A lane that goes to sleep on lane `l`'s link at tick `n` (R402, R407). -/
def laneAsleep (l n : Nat) (x : Lane) : Lane :=
  { x with sleepAt := some n, wakeHeld := false, sent := if l < 16 then [.idleOrderedSet] else [.sleep 4] }

/-- A lane of lane `l`'s link that wakes (R404, R407). -/
def laneAwake (l : Nat) (_ : Nat) (x : Lane) : Lane :=
  { x with sleepAt := none, wakeHeld := false, sent := if l < 16 then [.exitOrderedSet] else wakeBurst }

/-- Holding the wake of the lanes `ls` (R405). -/
theorem foldl_wakeHeld (ls : List Nat) (s : State) (h : ∀ k ∈ ls, k < s.serial.lanes.length) :
    (∀ k ∈ ls, (laneOf (ls.foldl (fun s k => modLane k (fun x => { x with wakeHeld := true }) s) s) k).wakeHeld = true) ∧
      ∃ x, ls.foldl (fun s k => modLane k (fun x => { x with wakeHeld := true }) s) s = { s with serial := x } := by
  suffices hall : ∀ ms, ms ⊆ ls → ∃ t, ms.foldl (fun s k => modLane k (fun x => { x with wakeHeld := true }) s) s = t ∧
      (∀ k ∈ ms, (laneOf t k).wakeHeld = true) ∧ (∃ x, t = { s with serial := x }) ∧
      t.serial.lanes.length = s.serial.lanes.length by
    obtain ⟨t, ht, hheld, hx, -⟩ := hall ls (List.Subset.refl ls)
    exact ⟨ht.symm ▸ hheld, ht.symm ▸ hx⟩
  intro ms
  induction ms using List.reverseRecOn with
  | nil => exact fun _ => ⟨s, rfl, fun k hk => (nomatch hk), ⟨s.serial, rfl⟩, rfl⟩
  | append_singleton ms j ih =>
    intro hsub
    obtain ⟨t, ht, hheld, ⟨x, hx⟩, hlen⟩ := ih fun k hk => hsub (List.mem_append_left _ hk)
    have hj : j < t.serial.lanes.length := hlen ▸ h j (hsub (List.mem_append_right _ (List.mem_singleton.2 rfl)))
    rw [List.foldl_append, ht]
    refine ⟨_, rfl, fun k hk => ?_, ⟨_, by rw [hx]; rfl⟩, (length_modLane ..).trans hlen⟩
    show (laneOf (modLane j (fun x => { x with wakeHeld := true }) t) k).wakeHeld = true
    by_cases hkj : k = j
    · rw [hkj, laneOf_modLane_same hj]
    · rw [laneOf_modLane_ne hkj]
      exact hheld k ((List.mem_append.1 hk).resolve_right fun hm => hkj (List.mem_singleton.1 hm))

/-! ### What waits on a Kurnarik port leaves -/

/-- Sending flits changes the link and its credits alone. -/
def Driven (s t : State) : Prop := ∃ k c, t = { s with klink := k, ledger := { s.ledger with credits := c } }

namespace Driven

theorem refl (s : State) : Driven s s := ⟨s.klink, s.ledger.credits, rfl⟩

theorem trans {s t u : State} (h : Driven s t) (k : Driven t u) : Driven s u := by
  obtain ⟨_, _, rfl⟩ := h
  obtain ⟨_, _, rfl⟩ := k
  exact ⟨_, _, rfl⟩

theorem modKPort (p : Nat) (f : KPort → KPort) (s : State) : Driven s (modKPort p f s) := ⟨_, s.ledger.credits, rfl⟩

theorem kCount (p k n : Nat) (s : State) : Driven s (kCount p k n s) := ⟨_, s.ledger.credits, rfl⟩

theorem creditIssue (p n : Nat) (s : State) : Driven s (creditIssue p n s) := ⟨s.klink, _, rfl⟩

theorem foldl {α : Type} {f : State → α → State} (h : ∀ s a, Driven s (f s a)) (l : List α) (s : State) : Driven s (l.foldl f s) := by
  induction l generalizing s with
  | nil => exact refl s
  | cons a l ih => exact (h s a).trans (ih _)

theorem kDrive (p seq : Nat) (b : FlitBody) (s : State) : Driven s (kDrive p seq b s) := by
  have hnak : Driven s (if (kport s p).nakDue then Machine.kCount p 4 1 s else s) := by
    split
    · exact kCount ..
    · exact refl s
  exact hnak.trans ((modKPort ..).trans (kCount ..))

theorem kPumpFree (p : Nat) (s : State) : Driven s (kPumpFree p s) := (modKPort ..).trans (foldl (fun _ _ => kDrive ..) _ _)

theorem kPumpN (n p : Nat) (s : State) : Driven s (kPumpN n p s) := by
  induction n generalizing s with
  | zero => exact refl s
  | succ n ih =>
    unfold Machine.kPumpN
    split
    · exact refl s
    · split
      · exact ((modKPort ..).trans (kDrive ..)).trans (ih _)
      · split
        · exact kPumpFree p s
        · exact (((kDrive ..).trans (modKPort ..)).trans (creditIssue ..)).trans (ih _)

end Driven

/-- Sending on a link, ALIGN among it, leaves the sleep of every lane as it is. -/
def Pumped (s t : State) : Prop := (∃ x k c, t = { s with serial := x, klink := k, ledger := { s.ledger with credits := c } }) ∧
  ∀ l, (laneOf t l).sleepAt = (laneOf s l).sleepAt ∧ (laneOf t l).wakeHeld = (laneOf s l).wakeHeld

theorem Driven.pumped {s t : State} (h : Driven s t) : Pumped s t := by
  obtain ⟨k, g, rfl⟩ := h
  exact ⟨⟨s.serial, k, g, rfl⟩, fun _ => ⟨rfl, rfl⟩⟩

theorem Pumped.trans {s t u : State} (h : Pumped s t) (k : Pumped t u) : Pumped s u := by
  obtain ⟨⟨_, _, _, rfl⟩, hst⟩ := h
  obtain ⟨⟨_, _, _, rfl⟩, htu⟩ := k
  exact ⟨⟨_, _, _, rfl⟩, fun l => ⟨(htu l).1.trans (hst l).1, (htu l).2.trans (hst l).2⟩⟩

theorem laneSends_pumped (bs : List LaneBlock) (l : Nat) (s : State) : Pumped s (laneSends bs l s) := by
  refine ⟨⟨_, s.klink, s.ledger.credits, rfl⟩, fun k => ?_⟩
  unfold laneSends
  by_cases hk : k = l
  · by_cases hl : l < s.serial.lanes.length
    · rw [hk, laneOf_modLane_same hl]
      exact ⟨rfl, rfl⟩
    · have hout : laneOf (modLane l (fun x => { x with sent := bs }) s) k = laneOf s k := by
        rw [laneOf, laneOf, hk, List.getElem?_eq_none (Nat.not_lt.1 hl), List.getElem?_eq_none]
        exact (length_modLane l _ s).symm ▸ Nat.not_lt.1 hl
      rw [hout]
      exact ⟨rfl, rfl⟩
  · rw [laneOf_modLane_ne hk]
    exact ⟨rfl, rfl⟩

theorem kAlign_pumped (p : Nat) (ls : List Nat) (s : State) : Pumped s (kAlign p ls s) := by
  have hfold : ∀ (ls : List Nat) (s : State), Pumped s (ls.foldl (fun s l => laneSends [.align] l s) s) := by
    intro ls
    induction ls with
    | nil => exact fun s => (Driven.refl s).pumped
    | cons l ls ih => exact fun s => (laneSends_pumped _ l s).trans (ih _)
  exact (Driven.modKPort ..).pumped.trans (hfold ls _)

/-- The replay buffer of a port leaves again, its first flit first. -/
theorem replay_driven (p base : Nat) (l : List FlitBody) (s : State) : Driven s (match l with
    | [] => s
    | b :: bs =>
      let s := kDrive p (base % 2 ^ 32) b s
      match bs.getLast? with
      | none => s
      | some b => kCount p 0 bs.length (modKPort p (fun k => { k with wire := flitBytes k ((base + bs.length) % 2 ^ 32) b }) s)) := by
  cases l with
  | nil => exact .refl s
  | cons b bs =>
    show Driven s (match bs.getLast? with
      | none => kDrive p (base % 2 ^ 32) b s
      | some c => _)
    cases bs.getLast? with
    | none => exact .kDrive ..
    | some c => exact (Driven.kDrive ..).trans ((Driven.modKPort ..).trans (.kCount ..))

theorem kResend_driven (p : Nat) (s : State) : Driven s (kResend p false s) := by
  unfold kResend
  split
  · exact .modKPort ..
  · exact (Driven.modKPort ..).trans (replay_driven ..)

theorem kResend_pumped (p : Nat) (align : Bool) (s : State) : Pumped s (kResend p align s) := by
  unfold kResend
  split
  · exact (Driven.modKPort ..).pumped
  · extract_lets u v k base
    have hv : Pumped u v := by
      unfold v
      split
      · exact kAlign_pumped ..
      · exact (Driven.refl u).pumped
    have hu : Pumped s u := (Driven.modKPort ..).pumped
    exact (hu.trans hv).trans (replay_driven p base k.replay v).pumped

theorem kPump_pumped (p : Nat) (s : State) : Pumped s (kPump p s) := by
  unfold kPump
  split
  · exact (Driven.refl s).pumped
  · refine Pumped.trans ?_ (Driven.kPumpN ..).pumped
    split
    · exact kResend_pumped ..
    · exact (Driven.refl s).pumped

/-- Without an ALIGN that waits, the lanes stay as they are. -/
theorem kPump_driven {p : Nat} {s : State} (h : (kport s p).resend ≠ some true) : Driven s (kPump p s) := by
  unfold kPump
  split
  · exact .refl s
  · refine Driven.trans ?_ (.kPumpN ..)
    cases hr : (kport s p).resend with
    | none => exact .refl s
    | some align =>
      cases align with
      | true => exact absurd hr h
      | false => exact kResend_driven p s

theorem kport_resend_modAlign (s : State) (p q n : Nat) :
    (kport (modKPort q (fun k => { k with alignAt := k.alignAt + n }) s) p).resend = (kport s p).resend := by
  show ((modAt s.klink.ports q _)[p]?.getD kportInit).resend = _
  rw [getElem?_modAt, kport]
  split
  · cases s.klink.ports[p]? <;> rfl
  · rfl

/-! ### A lane wakes -/

theorem laneWakes_done {s : State} {l : Fin 26} (hlen : s.serial.lanes.length = 26) :
    (∀ k ∈ activeLanes s l, (laneWakes l s).flag (LANE_STATUS.TX_SLEEP k) = false ∧ (laneOf (laneWakes l s) k).sleepAt = none ∧
      (laneOf (laneWakes l s) k).wakeHeld = false ∧ ((kport s ((l.val - 16) / 4)).resend ≠ some true →
        (laneOf (laneWakes l s) k).sent = if l.val < 16 then [.exitOrderedSet] else [.wakePattern 1024, .idle 64])) ∧
    OnlyRegs { s with serial := (laneWakes l s).serial, klink := (laneWakes l s).klink, ledger := (laneWakes l s).ledger } (laneWakes l s)
      ((activeLanes s l).map (fun k => (LANE_STATUS.TX_SLEEP k).addr)) := by
  obtain ⟨hdone, hbut, -⟩ := foldl_laneSet (laneAwake l) false (activeLanes s l) s fun k hk => hlen ▸ activeLanes_lt k hk
  obtain ⟨n, hn⟩ : ∃ n, n = ((laneOf s l).sleepAt.map (fun t => s.ticks - t)).getD 0 := ⟨_, rfl⟩
  obtain ⟨t, ht⟩ : ∃ t, t = (activeLanes s l).foldl (laneSet (laneAwake l) false) s := ⟨_, rfl⟩
  have he : laneWakes l s = if 16 ≤ l.val ∧ l.val < 24 then
      kPump ((l - 16) / 4) (modKPort ((l - 16) / 4) (fun k => { k with alignAt := k.alignAt + n }) t) else t := by
    rw [hn, ht]
    rfl
  rw [← ht] at hdone hbut
  have hklink : t.klink = s.klink := by
    obtain ⟨⟨x, r, hx⟩, -⟩ := hbut
    rw [hx]
  have hpump : Pumped t (laneWakes l s) := by
    rw [he]
    split
    · exact (Driven.modKPort ..).pumped.trans (kPump_pumped ..)
    · exact (Driven.refl t).pumped
  have hdrive : (kport s ((l.val - 16) / 4)).resend ≠ some true → Driven t (laneWakes l s) := by
    intro hr
    rw [he]
    split
    · refine (Driven.modKPort ..).trans (kPump_driven ?_)
      rw [kport_resend_modAlign, kport, hklink]
      exact hr
    · exact .refl t
  refine ⟨fun k hk => ?_, ?_⟩
  · obtain ⟨hflag, x, hlane⟩ := hdone k hk
    obtain ⟨⟨sx, kx, gx, hx⟩, hlanes⟩ := hpump
    obtain ⟨hat, hheld⟩ := hlanes k
    rw [hat, hheld, hlane]
    refine ⟨?_, rfl, rfl, fun hr => ?_⟩
    · rw [hx]
      exact hflag
    · obtain ⟨_, _, hd⟩ := hdrive hr
      rw [hd]
      show (laneOf t k).sent = _
      rw [hlane]
      rfl
  · obtain ⟨⟨sx, kx, gx, hx⟩, -⟩ := hpump
    obtain ⟨⟨x, r, htr⟩, hregs⟩ := hbut
    rw [hx]
    refine ⟨?_, fun a ha => hregs a ha⟩
    rw [htr]

/-! ### A wake that fails -/

/-- The registers that a lost lock changes. -/
def lostRegs (l : Nat) : List Nat :=
  [(LANE_STATUS.LOCK l).addr, (LANE_EVENT.LOCK_LOST l).addr, (LANE_CNT.LOSSES l).addr] ++ laneShowRegs l

/-- Lock is lost, before the receiver returns to its table values. -/
def lockGone (l : Nat) (s : State) : State :=
  ((s.setFlag (LANE_STATUS.LOCK l) false).setFlag (LANE_EVENT.LOCK_LOST l) true).addFld (LANE_CNT.LOSSES l) 1

theorem lockGone_regs (l : Nat) (s : State) : RegsBut s (lockGone l s) (lostRegs l) :=
  (((RegsBut.refl s (lostRegs l)).setFld (f := LANE_STATUS.LOCK l) (.head _) _).setFld (f := LANE_EVENT.LOCK_LOST l) (.tail _ (.head _)) _).setFld
    (f := LANE_CNT.LOSSES l) (.tail _ (.tail _ (.head _))) _

theorem laneLost_eq (l : Nat) (s : State) :
    laneLost l s = laneReturn l (modLane l (fun x => { x with huntAt := some (lockGone l s).ticks }) (lockGone l s)) := rfl

theorem laneLost_word (l : Nat) (s : State) {a : Nat} (h : a ∉ laneShowRegs l) : (laneLost l s).word a = (lockGone l s).word a := by
  obtain ⟨u, hu⟩ : ∃ u, u = lockGone l s := ⟨_, rfl⟩
  obtain ⟨v, hv⟩ : ∃ v, v = modLane l (fun x => { x with huntAt := some u.ticks }) u := ⟨_, rfl⟩
  have hvu : v.word a = u.word a := by
    rw [hv]
    rfl
  rw [laneLost_eq, ← hu, ← hv]
  exact (laneReturn_regs l v a h).trans hvu

theorem laneLost_regs (l : Nat) (s : State) : RegsBut s (laneLost l s) (lostRegs l) := fun a ha =>
  (laneLost_word l s fun h => ha (List.mem_append_right _ h)).trans (lockGone_regs l s a ha)

theorem laneLost_shown (l : Fin 26) (s : State) : laneHasLock (laneLost l s) l = false ∧
    (laneLost l s).flag (LANE_EVENT.LOCK_LOST l) = true ∧
    (laneLost l s).fld (LANE_CNT.LOSSES l) = min (2 ^ (LANE_CNT.LOSSES l).width - 1) (s.fld (LANE_CNT.LOSSES l) + 1) := by
  have hn : ∀ l : Fin 26, (LANE_STATUS.LOCK l).addr ∉ laneShowRegs l ∧ (LANE_EVENT.LOCK_LOST l).addr ∉ laneShowRegs l ∧
      (LANE_CNT.LOSSES l).addr ∉ laneShowRegs l := by decide
  obtain ⟨hlock, hlost, hcnt⟩ := hn l
  refine ⟨?_, ?_, ?_⟩
  · rw [laneHasLock, State.flag_of_word (laneLost_word l s hlock), lockGone, State.addFld,
      State.flag_setFld_apart_at (F := LANE_STATUS.LOCK) (G := LANE_CNT.LOSSES) l _ _ (by decide), State.setFlag,
      State.flag_setFld_apart_at (F := LANE_STATUS.LOCK) (G := LANE_EVENT.LOCK_LOST) l _ _ (by decide)]
    exact State.flag_setFlag_same s (LANE_STATUS.LOCK l) false rfl rfl
  · rw [State.flag_of_word (laneLost_word l s hlost), lockGone, State.addFld,
      State.flag_setFld_apart_at (F := LANE_EVENT.LOCK_LOST) (G := LANE_CNT.LOSSES) l _ _ (by decide)]
    exact State.flag_setFlag_same _ (LANE_EVENT.LOCK_LOST l) true rfl rfl
  · rw [State.fld_congr_word (laneLost_word l s hcnt), lockGone, State.fld_addFld_same _ _ _ rfl, State.setFlag,
      State.fld_setFld_apart_at (F := LANE_CNT.LOSSES) (G := LANE_EVENT.LOCK_LOST) l _ _ (by decide), State.setFlag,
      State.fld_setFld_apart_at (F := LANE_CNT.LOSSES) (G := LANE_STATUS.LOCK) l _ _ (by decide)]

theorem laneLost_signalAt {l : Nat} {s : State} (h : l < s.serial.lanes.length) :
    (laneOf (laneLost l s) l).signalAt = (laneOf s l).signalAt := by
  obtain ⟨u, hu⟩ : ∃ u, u = lockGone l s := ⟨_, rfl⟩
  have hus : u.serial = s.serial := by
    rw [hu]
    rfl
  rw [laneLost_eq, ← hu, laneOf_of_serial (laneReturn_serial l _), laneOf_modLane_same, laneOf_modLane_same, laneOf_of_serial hus]
  · rw [hus]
    exact h
  · rw [length_modLane, hus]
    exact h

theorem kUp_of_laneLost (l : Fin 26) (p : Nat) (s : State) : kUp (laneLost l s) p = kUp s p := by
  have hn : ∀ l : Fin 26, KLINK_STATUS.STATE0.addr ∉ lostRegs l ∧ KLINK_STATUS.STATE1.addr ∉ lostRegs l := by decide
  rw [kUp, kUp, kState, kState, State.fld_congr_word (laneLost_regs l s _ (hn l).1), State.fld_congr_word (laneLost_regs l s _ (hn l).2)]

theorem kLaneLost_down {l : Nat} {s : State} (h : kUp s ((l - 16) / 4) = false) : kLaneLost l s = s := if_pos h

/-- A lane that fails to wake, before it counts as having lost lock. -/
def wakeFailed (l : Nat) (s : State) : State :=
  (modLane l (fun x => { x with signalAt := none }) s).setFlag (LANE_EVENT.WAKE_FAIL l) true

theorem exec_laneWakeFail {s : State} {l : Fin 26} {τ : Nat} (hup : kUp s ((l.val - 16) / 4) = false)
    (hat : (laneOf s l).signalAt = some τ) (he : s.elapsedNs τ 1000 = true) (hlock : laneHasLock s l = false) :
    exec (.laneWakeFail l) s = .next (laneLost l (wakeFailed l s)) := by
  have hdown : kUp (laneLost l (wakeFailed l s)) ((l.val - 16) / 4) = false := by
    have hn : ∀ l : Fin 26, KLINK_STATUS.STATE0.addr ≠ (LANE_EVENT.WAKE_FAIL l).addr ∧
        KLINK_STATUS.STATE1.addr ≠ (LANE_EVENT.WAKE_FAIL l).addr := by decide
    rw [kUp_of_laneLost, ← hup, kUp, kUp, kState, kState, wakeFailed, State.setFlag,
      State.fld_congr_word (State.word_setFld_ne _ (LANE_EVENT.WAKE_FAIL l) _ (hn l).1),
      State.fld_congr_word (State.word_setFld_ne _ (LANE_EVENT.WAKE_FAIL l) _ (hn l).2)]
    rfl
  show execLaneWakeFail l s = _
  unfold execLaneWakeFail
  simp only [hat]
  refine (if_pos ⟨he, hlock⟩).trans ?_
  exact congrArg Host.Outcome.next (kLaneLost_down hdown)

/-- Settles O46: sleep and wake act on every active lane of the link, and what is sent on waking touches no sleep. -/
theorem lanesSleepAndWake : Obligations.LanesSleepAndWake := by
  unfold Obligations.LanesSleepAndWake
  refine ⟨?_, ?_, ?_, ?_, ?_, ?_, ?_⟩
  · intro s l hmay hlen
    obtain ⟨hdone, hbut, -⟩ := foldl_laneSet (laneAsleep l) true (activeLanes s l) s fun k hk => hlen ▸ activeLanes_lt k hk
    refine ⟨_, (if_pos hmay : execLaneSleepEntry l s = _), fun k hk => ?_, hbut.onlyRegs⟩
    obtain ⟨hflag, x, hlane⟩ := hdone k hk
    have hl : laneOf ((activeLanes s l).foldl (laneSet (laneAsleep l) true) s) k = laneAsleep l s.ticks x := hlane
    refine ⟨hflag, ?_, ?_, ?_⟩
    · exact congrArg Lane.sleepAt hl
    · exact congrArg Lane.wakeHeld hl
    · exact congrArg Lane.sent hl
  · intro s l hl hruns hlock
    refine ⟨s.setFlag (LANE_STATUS.RX_SLEEP l) true, if_pos ⟨hl, hruns, hlock⟩,
      State.flag_setFlag_same s (LANE_STATUS.RX_SLEEP l) true rfl rfl, ?_, rfl,
      fun a ha => State.word_setFld_ne s (LANE_STATUS.RX_SLEEP l) _ (List.ne_of_not_mem_cons ha)⟩
    exact (State.flag_setFld_apart_at (F := LANE_STATUS.LOCK) (G := LANE_STATUS.RX_SLEEP) l s _ (by decide)).trans hlock
  · intro s l c hlen hidle hc
    have hexec : exec c s = .next (laneWakes l s) := by
      rcases hc with ⟨rfl, htx⟩ | ⟨rfl, hheld⟩
      · exact (if_neg (by rw [htx]; decide) : execLaneWake l s = _).trans (if_pos hidle)
      · exact (if_pos ⟨hheld, hidle⟩ : execLaneWakeHoldEnd l s = _)
    exact ⟨_, hexec, laneWakes_done hlen⟩
  · intro s l hlen htx hidle
    obtain ⟨hheld, x, hx⟩ := foldl_wakeHeld (activeLanes s l) s fun k hk => hlen ▸ activeLanes_lt k hk
    refine ⟨_, (if_neg (by rw [htx]; decide) : execLaneWake l s = _).trans (if_neg (by rw [hidle]; decide)), hheld, ?_⟩
    rw [hx]
  · intro s l hrx h16 hl
    obtain ⟨u, hu⟩ : ∃ u, u = modLane l (fun x => { x with signalAt := some s.ticks, huntAt := some s.ticks })
      (s.setFlag (LANE_STATUS.RX_SLEEP l) false) := ⟨_, rfl⟩
    have hexec : exec (.signalDetect l) s = .next (u.setFlag (LANE_STATUS.LOCK l) false) := by
      rw [hu]
      exact (if_neg (by rw [hrx]; decide) : execSignalDetect l s = _).trans (if_neg (Nat.not_lt.2 h16))
    have hlane : laneOf u l = { laneOf s l with signalAt := some s.ticks, huntAt := some s.ticks } := hu ▸ laneOf_modLane_same hl _
    have hoff : u.flag (LANE_STATUS.RX_SLEEP l) = false := by
      rw [hu]
      exact State.flag_setFlag_same s (LANE_STATUS.RX_SLEEP l) false rfl rfl
    have haddr : (LANE_STATUS.LOCK l).addr = (LANE_STATUS.RX_SLEEP l).addr := rfl
    refine ⟨_, hexec, ?_, State.flag_setFlag_same u (LANE_STATUS.LOCK l) false rfl rfl, congrArg Lane.signalAt hlane, ?_, ?_⟩
    · exact (State.flag_setFld_apart_at (F := LANE_STATUS.RX_SLEEP) (G := LANE_STATUS.LOCK) l u _ (by decide)).trans hoff
    · rw [hu]
      rfl
    · intro a ha
      have hne := List.ne_of_not_mem_cons ha
      refine (State.word_setFld_ne u (LANE_STATUS.LOCK l) _ (haddr ▸ hne)).trans ?_
      rw [hu]
      exact State.word_setFld_ne s (LANE_STATUS.RX_SLEEP l) _ hne
  · intro s l hrx h16
    refine ⟨s.setFlag (LANE_STATUS.RX_SLEEP l) false, (if_neg (by rw [hrx]; decide) : execSignalDetect l s = _).trans (if_pos h16),
      State.flag_setFlag_same s (LANE_STATUS.RX_SLEEP l) false rfl rfl, ?_, rfl,
      fun a ha => State.word_setFld_ne s (LANE_STATUS.RX_SLEEP l) _ (List.ne_of_not_mem_cons ha)⟩
    exact State.flag_setFld_apart_at (F := LANE_STATUS.LOCK) (G := LANE_STATUS.RX_SLEEP) l s _ (by decide)
  · intro s l τ h16 h24 hup hat he hlock
    obtain ⟨u, hu⟩ : ∃ u, u = wakeFailed l s := ⟨_, rfl⟩
    have hl : l.val < s.serial.lanes.length := lanes_lt fun h => by
      rw [h] at hat
      cases hat
    have hn : ∀ l : Fin 26, (LANE_EVENT.WAKE_FAIL l).addr ∉ (LANE_STATUS.LOCK l).addr :: (LANE_CNT.LOSSES l).addr :: laneShowRegs l ∧
        (LANE_CNT.LOSSES l).addr ≠ (LANE_EVENT.WAKE_FAIL l).addr := by decide
    obtain ⟨hunlocked, hlost, hcnt⟩ := laneLost_shown l u
    have hserial : u.serial = (modLane l (fun x => { x with signalAt := none }) s).serial := by
      rw [hu]
      rfl
    have hfail : u.flag (LANE_EVENT.WAKE_FAIL l) = true := by
      rw [hu]
      exact State.flag_setFlag_same _ (LANE_EVENT.WAKE_FAIL l) true rfl rfl
    refine ⟨_, exec_laneWakeFail hup hat he hlock, ?_⟩
    rw [← hu]
    refine ⟨?_, hlost, hunlocked, ?_, ?_⟩
    · obtain ⟨hw, -⟩ := hn l
      rw [State.flag_of_word (laneLost_word l u fun h => hw (.tail _ (.tail _ h))), lockGone, State.addFld,
        State.flag_setFld_apart_at (F := LANE_EVENT.WAKE_FAIL) (G := LANE_CNT.LOSSES) l _ _ (by decide), State.setFlag,
        State.flag_setFld_apart_at (F := LANE_EVENT.WAKE_FAIL) (G := LANE_EVENT.LOCK_LOST) l _ _ (by decide), State.setFlag,
        State.flag_setFld_apart_at (F := LANE_EVENT.WAKE_FAIL) (G := LANE_STATUS.LOCK) l _ _ (by decide), hfail]
    · rw [laneLost_signalAt, laneOf_of_serial hserial, laneOf_modLane_same hl]
      rw [hserial, length_modLane]
      exact hl
    · rw [hcnt, hu, wakeFailed, State.setFlag, State.fld_congr_word (State.word_setFld_ne _ (LANE_EVENT.WAKE_FAIL l) _ (hn l).2)]
      rfl

end Sys2Proof.Machine
end

section
/-! PROOFS. The operations of MAG_OP (R320, R323, R329, R330). -/

namespace Sys2Proof.Machine

/-! ### Ports of the magazines -/

theorem magPort_modMag_same {s : State} {k : Nat} (h : k < s.mag.ports.length) (f : MagPort → MagPort) :
    magPort (modMag k f s) k = f (magPort s k) := by
  show ((modAt s.mag.ports k f)[k]?).getD magPortInit = f ((s.mag.ports[k]?).getD magPortInit)
  rw [getElem?_modAt, if_pos rfl, List.getElem?_eq_getElem h]
  rfl

theorem magPort_of_mag {s t : State} (h : t.mag = s.mag) (k : Nat) : magPort t k = magPort s k := by rw [magPort, magPort, h]

theorem ports_lt {s : State} {k : Nat} (h : magPort s k ≠ magPortInit) : k < s.mag.ports.length := by
  by_contra hn
  exact h (by rw [magPort, List.getElem?_eq_none (Nat.not_lt.1 hn)]; rfl)

theorem length_modMag (k : Nat) (f : MagPort → MagPort) (s : State) : (modMag k f s).mag.ports.length = s.mag.ports.length :=
  length_modAt ..

theorem postEvent_mag {e : Event} (he : e.cls ≠ .fatal) (s : State) : (postEvent e s).mag = s.mag := by
  obtain ⟨r, c, l, h, -⟩ := postEvent_frame he s
  rw [h]

theorem postKind_mag (kind block inst detail : Nat) (s : State) : (postKind kind block inst detail s).mag = s.mag :=
  postEvent_mag (e := { cls := .warning, block := block, cause := 0x200 + kind, inst := inst, detail := detail }) (fun h => nomatch h) s

theorem postKind_stores (kind block inst detail : Nat) (s : State) : (postKind kind block inst detail s).stores = s.stores :=
  postEvent_stores (e := { cls := .warning, block := block, cause := 0x200 + kind, inst := inst, detail := detail }) (fun h => nomatch h) s

theorem postKind_flag (kind block inst detail : Nat) (s : State) {f : Fld} (hf : f.addr ≠ CALL_OVERFLOW.COUNT.addr) :
    (postKind kind block inst detail s).flag f = s.flag f :=
  State.flag_postEvent (e := { cls := .warning, block := block, cause := 0x200 + kind, inst := inst, detail := detail })
    (fun h => nomatch h) s hf

/-- The registers that show a magazine. -/
def magShowRegs (k : Nat) : List Nat :=
  [(MAG_WEAR.PU k).addr, (MAG_REMAIN.GB k).addr, (MAG_FREE.AUS k).addr, (MAG_STATUS.STATE k).addr, (MAG_TAKE.OPEN k).addr,
    (MAG_WRITTEN_LO.BYTES k).addr, (MAG_WRITTEN_HI.BYTES k).addr]

/-- A magazine as it shows, its state as it was. -/
structure MagShown (k : Nat) (s t : State) : Prop where
  state : t = { s with regs := t.regs }
  regs : RegsBut s t (magShowRegs k)
  magState : magState t k = magState s k

namespace MagShown

variable {k : Nat} {s t : State}

theorem refl (k : Nat) (s : State) : MagShown k s s := ⟨rfl, .refl s _, rfl⟩

theorem setFld (h : MagShown k s t) {f : Fld} (hfit : f.fits = true) (hf : f.addr ∈ magShowRegs k) (ha : (MAG_STATUS.STATE k).apart f = true) (n : Nat) :
    MagShown k s (t.setFld f n) :=
  ⟨by rw [h.state]; rfl, h.regs.setFld hf n, (State.fld_setFld_apart t _ f n hfit ha).trans h.magState⟩

end MagShown

theorem magShow_shown (k : Fin 2) (s : State) : MagShown k s (magShow k s) := by
  have ha : ∀ k : Fin 2, (MAG_STATUS.STATE k).apart (MAG_WEAR.PU k) = true ∧ (MAG_STATUS.STATE k).apart (MAG_WEAR.CRIT k) = true ∧
      (MAG_STATUS.STATE k).apart (MAG_REMAIN.GB k) = true ∧ (MAG_STATUS.STATE k).apart (MAG_FREE.AUS k) = true ∧
      (MAG_STATUS.STATE k).apart (MAG_STATUS.TAKE_OPEN k) = true ∧ (MAG_STATUS.STATE k).apart (MAG_TAKE.OPEN k) = true ∧
      (MAG_STATUS.STATE k).apart (MAG_TAKE.SLOT k) = true ∧ (MAG_STATUS.STATE k).apart (MAG_WRITTEN_LO.BYTES k) = true ∧
      (MAG_STATUS.STATE k).apart (MAG_WRITTEN_HI.BYTES k) = true := by decide
  obtain ⟨hpu, hcrit, hgb, haus, hopen, htake, hslot, hlo, hhi⟩ := ha k
  unfold magShow
  extract_lets p u v w x
  have hu : MagShown k s u := ((MagShown.refl k s).setFld (f := MAG_WEAR.PU k) rfl (.head _) hpu _).setFld (f := MAG_WEAR.CRIT k) rfl (.head _) hcrit _
  have hv : MagShown k s v := hu.setFld (f := MAG_REMAIN.GB k) rfl (.tail _ (.head _)) hgb _
  have hw : MagShown k s w := hv.setFld (f := MAG_FREE.AUS k) rfl (.tail _ (.tail _ (.head _))) haus _
  have hx : MagShown k s x := (hw.setFld (f := MAG_STATUS.TAKE_OPEN k) rfl (.tail _ (.tail _ (.tail _ (.head _)))) hopen _).setFld
    (f := MAG_TAKE.OPEN k) rfl (.tail _ (.tail _ (.tail _ (.tail _ (.head _))))) htake _
  split
  · exact ((hx.setFld (f := MAG_TAKE.SLOT k) rfl (.tail _ (.tail _ (.tail _ (.tail _ (.head _))))) hslot _).setFld (f := MAG_WRITTEN_LO.BYTES k) rfl (.tail _ (.tail _ (.tail _ (.tail _ (.tail _ (.head _)))))) hlo _).setFld (f := MAG_WRITTEN_HI.BYTES k) rfl (.tail _ (.tail _ (.tail _ (.tail _ (.tail _ (.tail _ (.head _))))))) hhi _
  · exact hx

theorem State.mag_setFld (s : State) (f : Fld) (n : Nat) : (s.setFld f n).mag = s.mag := rfl

theorem laneStop_mag (l : Nat) (s : State) : (laneStop l s).mag = s.mag := by
  simp only [laneStop, State.setFlag, State.mag_setFld]
  rfl

theorem lanesStop_mag (ls : List Nat) (s : State) : (lanesStop ls s).mag = s.mag := by
  unfold lanesStop
  induction ls generalizing s with
  | nil => rfl
  | cons l ls ih =>
    rw [List.foldl_cons, ih, laneStop_mag]

/-! ### An operation is written -/

/-- `u` is `s` with an operation written to MAG_OP of port `k`. -/
def OpWritten (k : Nat) (s u : State) : Prop := OnlyRegs s u [(MAG_OP.BUSY k).addr]

theorem magOpWrite_written (k op type : Nat) (s : State) : OpWritten k s (magOpWrite k op type s) :=
  ((onlyRegs_busOk 0 s _).setFld (f := MAG_OP.OP k) (.head _) _).setFld (f := MAG_OP.TYPE k) (.head _) _

namespace OpWritten

variable {k : Fin 2} {s u : State} (h : OpWritten k s u)

include h

theorem fld {f : Nat → Fld} (hf : ∀ k : Fin 2, (f k).addr ≠ (MAG_OP.BUSY k).addr) : u.fld (f k) = s.fld (f k) :=
  State.fld_congr_word (h.2 _ fun hm => hf k (List.mem_singleton.1 hm))

theorem mag : u.mag = s.mag := by rw [h.1]

theorem port : magPort u k = magPort s k := magPort_of_mag h.mag k

theorem state : magState u k = magState s k := h.fld (f := MAG_STATUS.STATE) (by decide)

theorem addr : magOpAddr u k = magOpAddr s k := by
  rw [magOpAddr, magOpAddr, h.fld (f := MAG_OP_ADDR_LO.ADDR) (by decide), h.fld (f := MAG_OP_ADDR_HI.ADDR) (by decide)]

theorem lba : magOpLba u k = magOpLba s k := by
  rw [magOpLba, magOpLba, State.fld64, State.fld64, h.fld (f := MAG_OP_LBA_LO.LBA) (by decide),
    h.fld (f := MAG_OP_LBA_HI.LBA) (by decide)]

theorem len : u.fld (MAG_OP_LEN.LEN k) = s.fld (MAG_OP_LEN.LEN k) := h.fld (f := MAG_OP_LEN.LEN) (by decide)

theorem map : SameMap s u := by
  have hn : ∀ k : Fin 2, DRAM_MAP.FENCED.addr ∉ [(MAG_OP.BUSY k).addr] ∧ DRAM_CFG.DENSITY.addr ∉ [(MAG_OP.BUSY k).addr] := by decide
  exact .of_regs h.2 (hn k).1 (hn k).2 (by rw [h.1]) (by rw [h.1])

theorem dramBytes (a n : Nat) : u.dramBytes a n = s.dramBytes a n := h.map.dramBytes (by rw [h.1]) a n

theorem mode : u.mode = s.mode := h.fld (f := fun _ => CUE_STATUS.MODE) (by decide)

theorem privilege : privilege u = privilege s := by
  have hjmp : u.flag TRUST_PRESENCE.JMP = s.flag TRUST_PRESENCE.JMP :=
    State.flag_of_fld (h.fld (f := fun _ => TRUST_PRESENCE.JMP) (by decide))
  have htrust : u.trust = s.trust := by rw [h.1]
  have hticks : u.ticks = s.ticks := by rw [h.1]
  unfold Machine.privilege windowOpen State.elapsedNs
  rw [hjmp, htrust, hticks]

theorem noTake : noTake u = noTake s := by rw [Machine.noTake, Machine.noTake, h.mag]

theorem stores : u.stores = s.stores := by
  rw [h.1]
  rfl

end OpWritten

theorem magOpRefused_shown (k : Fin 2) {s u : State} (h : OpWritten k s u) : (magOpRefused k u).flag (MAG_OP.REFUSED k) = true ∧
    (magOpRefused k u).mag = s.mag ∧ SameMemory s (magOpRefused k u) := by
  have hn : ∀ k : Fin 2, (MAG_OP.REFUSED k).addr ≠ CALL_OVERFLOW.COUNT.addr := by decide
  refine ⟨?_, ?_, ?_⟩
  · rw [magOpRefused, postKind_flag _ _ _ _ _ (hn k)]
    exact State.flag_setFlag_same u (MAG_OP.REFUSED k) true rfl rfl
  · rw [magOpRefused, postKind_mag]
    exact h.mag
  · refine sameMemory_of_stores ?_
    rw [magOpRefused, postKind_stores]
    exact h.stores

section Operations

variable {s : State} {port : Fin 2} {ty : Fin 16} (hon : s.domainOn (23 + port.val) = true)

include hon

theorem domain_on : ¬s.domainOn (23 + port.val) = false := by
  rw [hon]
  decide

theorem exec_read {x : Superblock} (hst : magState s port = 4) (hop : (magPort s port).op = none) (hsb : (magPort s port).sb = some x)
    (hn : 1 ≤ s.fld (MAG_OP_LEN.LEN port)) (hmax : s.fld (MAG_OP_LEN.LEN port) ≤ 65536) (ha : magOpAddr s port % 4096 = 0)
    (hin : inDram s (magOpAddr s port) (4096 * s.fld (MAG_OP_LEN.LEN port)) = true)
    (htot : magOpLba s port + s.fld (MAG_OP_LEN.LEN port) ≤ x.total) :
    ∃ u, OpWritten port s u ∧ exec (.read port ty) s = .next (modMag port
      (fun p => { p with cmds := p.cmds ++ writeChunks p .read (s.fld (MAG_OP_LEN.LEN port)) (magOpLba s port) (s.fld (MAG_OP_LEN.LEN port)) })
      (magOpStart port { op := 1, addr := dramOff (magOpAddr s port), lba := magOpLba s port, len := s.fld (MAG_OP_LEN.LEN port) } u)) := by
  obtain ⟨u, hu⟩ : ∃ u, u = magOpWrite port 1 ty s := ⟨_, rfl⟩
  have hw : OpWritten port s u := hu ▸ magOpWrite_written ..
  refine ⟨u, hw, (if_neg (domain_on hon) : execRead port ty s = _).trans ?_⟩
  simp only [← hu, hw.port, hw.state, hw.addr, hw.lba, hw.len, hw.map.inDram, hst, hop, hsb, hin, ha, Option.isSome_none,
    Option.map_some, Option.getD_some]
  exact if_neg (by simp; omega)

theorem exec_append (hrec : magRecording s port = true) (hop : (magPort s port).op = none) (hlo : 2 ≤ ty.val) (hhi : ty.val ≤ 4)
    (hn : 1 ≤ s.fld (MAG_OP_LEN.LEN port)) (hmax : s.fld (MAG_OP_LEN.LEN port) ≤ 16777216)
    (hin : inDram s (magOpAddr s port) (s.fld (MAG_OP_LEN.LEN port)) = true) :
    ∃ u, OpWritten port s u ∧ exec (.append port ty) s = .next (magPump port (magEnqueue port
      (newRecord ty (appendKey ty (s.dramBytes (dramOff (magOpAddr s port)) (s.fld (MAG_OP_LEN.LEN port))))
        (s.dramBytes (dramOff (magOpAddr s port)) (s.fld (MAG_OP_LEN.LEN port))) none 0)
      (magOpStart port { op := 2, addr := dramOff (magOpAddr s port), lba := 0, len := s.fld (MAG_OP_LEN.LEN port) }
        (poisonWarn 11 port (dramOff (magOpAddr s port)) (s.fld (MAG_OP_LEN.LEN port)) u)))) := by
  obtain ⟨u, hu⟩ : ∃ u, u = magOpWrite port 2 ty s := ⟨_, rfl⟩
  have hw : OpWritten port s u := hu ▸ magOpWrite_written ..
  have hr : magRecording u port = true := by
    rw [magRecording, hw.state, magTakes, hw.port]
    exact hrec
  refine ⟨u, hw, (if_neg (domain_on hon) : execAppend port ty s = _).trans ?_⟩
  simp only [← hu, hr, hw.port, hw.addr, hw.len, hw.map.inDram, hw.dramBytes, hop, hin, Option.isSome_none]
  exact if_neg (by simp; omega)

theorem exec_erase (hst : magState s port = 4) (hop : (magPort s port).op = none) (hd : (magPort s port).drive ≠ none)
    (hmode : s.mode = 2 ∨ s.mode = 6) : ∃ u, OpWritten port s u ∧ exec (.erase port ty) s =
      if privilege s = false then .next (privRefused 11 0x10 (u.setFlag (MAG_OP.REFUSED port) true))
      else .next (magShow port (magOpStart port { op := 3, addr := 0, lba := 0, len := 0 } (setMagState port 9 (modMag port
        (fun p => addStage (p.each .deallocate) .erased { p with
          sb := none, drive := p.drive.map (fun d => { d with media := d.media.filter (fun e => decide (e.1 < 65536)) }) }) u)))) := by
  obtain ⟨u, hu⟩ : ∃ u, u = magOpWrite port 3 ty s := ⟨_, rfl⟩
  have hw : OpWritten port s u := hu ▸ magOpWrite_written ..
  have hdr : (magPort s port).drive.isNone = false := by
    cases hc : (magPort s port).drive with
    | none => exact absurd hc hd
    | some _ => rfl
  refine ⟨u, hw, (if_neg (domain_on hon) : execErase port ty s = _).trans ?_⟩
  simp only [← hu, hw.port, hw.state, hw.mode, hw.privilege, hop, hst, hdr, Option.isSome_none]
  exact if_neg (by simp; omega)

theorem exec_mount (ht : noTake s = true) (hop : (magPort s port).op = none) (hd : (magPort s port).drive ≠ none) :
    ∃ u, OpWritten port s u ∧ exec (.mount port ty) s =
      .next (magOpStart port { op := 4, addr := 0, lba := 0, len := 0 } (magStartMount port u)) := by
  obtain ⟨u, hu⟩ : ∃ u, u = magOpWrite port 4 ty s := ⟨_, rfl⟩
  have hw : OpWritten port s u := hu ▸ magOpWrite_written ..
  have hdr : (magPort s port).drive.isSome = true := Option.isSome_iff_ne_none.2 hd
  refine ⟨u, hw, (if_neg (domain_on hon) : execMount port ty s = _).trans ?_⟩
  simp only [← hu, hw.port, hw.noTake, hop, ht, hdr, if_true]
  exact if_neg (by simp)

theorem exec_eject (ht : noTake s = true) (hop : (magPort s port).op = none) : ∃ u, OpWritten port s u ∧
    exec (.eject port ty) s = .next (modMag port (shutDown u port) (magOpStart port { op := 5, addr := 0, lba := 0, len := 0 } u)) := by
  obtain ⟨u, hu⟩ : ∃ u, u = magOpWrite port 5 ty s := ⟨_, rfl⟩
  have hw : OpWritten port s u := hu ▸ magOpWrite_written ..
  refine ⟨u, hw, (if_neg (domain_on hon) : execEject port ty s = _).trans ?_⟩
  simp only [← hu, hw.port, hw.noTake, hop, ht]
  exact if_neg (by simp)

/-- An operation while one runs. -/
theorem exec_whileBusy {o : MagOp} (hop : (magPort s port).op = some o) {c : Instr}
    (hc : c ∈ [Instr.read port ty, .append port ty, .erase port ty, .mount port ty, .eject port ty]) :
    ∃ u, OpWritten port s u ∧ exec c s = .next (magOpRefused port u) := by
  have hbusy : ∀ n, (magPort (magOpWrite port n ty s) port).op.isSome = true := fun n => by
    rw [(magOpWrite_written port n ty s).port, hop]
    rfl
  simp only [List.mem_cons, List.not_mem_nil, or_false] at hc
  rcases hc with rfl | rfl | rfl | rfl | rfl
  · exact ⟨_, magOpWrite_written port 1 ty s, (if_neg (domain_on hon) : execRead port ty s = _).trans (if_pos (.inl (hbusy 1)))⟩
  · exact ⟨_, magOpWrite_written port 2 ty s, (if_neg (domain_on hon) : execAppend port ty s = _).trans (if_pos (.inl (hbusy 2)))⟩
  · exact ⟨_, magOpWrite_written port 3 ty s, (if_neg (domain_on hon) : execErase port ty s = _).trans (if_pos (.inl (hbusy 3)))⟩
  · exact ⟨_, magOpWrite_written port 4 ty s, (if_neg (domain_on hon) : execMount port ty s = _).trans (if_pos (.inl (hbusy 4)))⟩
  · exact ⟨_, magOpWrite_written port 5 ty s, (if_neg (domain_on hon) : execEject port ty s = _).trans (if_pos (.inl (hbusy 5)))⟩

end Operations

/-! ### An operation begins and ends -/

theorem magOpStart_shown {k : Fin 2} {s : State} (hk : k.val < s.mag.ports.length) (o : MagOp) :
    (magOpStart k o s).flag (MAG_OP.BUSY k) = true ∧ magPort (magOpStart k o s) k = { magPort s k with op := some o } :=
  ⟨State.flag_setFlag_same s (MAG_OP.BUSY k) true rfl rfl, magPort_modMag_same (s := s.setFlag (MAG_OP.BUSY k) true) hk _⟩

theorem magOpStart_frame (k : Fin 2) (o : MagOp) {s u : State} (h : OpWritten k s u) (f : MagPort → MagPort) :
    OnlyRegs { s with mag := (modMag k f (magOpStart k o u)).mag } (modMag k f (magOpStart k o u)) [(MAG_OP.BUSY k).addr] := by
  obtain ⟨hs, hr⟩ := h
  obtain ⟨v, hv⟩ : ∃ v, v = u.setFlag (MAG_OP.BUSY k) true := ⟨_, rfl⟩
  have hvr : RegsBut s v [(MAG_OP.BUSY k).addr] := hv ▸ hr.setFld (f := MAG_OP.BUSY k) (.head _) _
  have hvs : v = { s with regs := v.regs, sys := { s.sys with bus := v.sys.bus } } := by
    rw [hv, hs]
    rfl
  have he : magOpStart k o u = modMag k (fun p => { p with op := some o }) v := by rw [hv, magOpStart]
  rw [he]
  refine ⟨?_, fun a ha => hvr a ha⟩
  rw [hvs]
  rfl

theorem endMagOp_shown (k : Fin 2) (fail : Bool) (s : State) : (endMagOp k fail s).flag (MAG_OP.BUSY k) = false ∧
    (endMagOp k fail s).flag (MAG_OP.DONE k) = true ∧ (magPort (endMagOp k fail s) k).op = none ∧
    magState (endMagOp k fail s) k = magState s k ∧ (magPort (endMagOp k fail s) k).perst = (magPort s k).perst := by
  obtain ⟨u, hu⟩ : ∃ u, u = modMag k (fun p => { p with op := none }) (s.setFlag (MAG_OP.BUSY k) false) := ⟨_, rfl⟩
  obtain ⟨v, hv⟩ : ∃ v, v = u.setFlag (MAG_OP.DONE k) true := ⟨_, rfl⟩
  have hport : (magPort u k).op = none ∧ (magPort u k).perst = (magPort s k).perst := by
    by_cases hk : k.val < s.mag.ports.length
    · rw [hu, magPort_modMag_same (s := s.setFlag (MAG_OP.BUSY k) false) hk]
      exact ⟨rfl, rfl⟩
    · have hnone : magPort s k = magPortInit := by
        by_contra h
        exact hk (ports_lt h)
      have hnone' : magPort u k = magPortInit := by
        by_contra h
        have hlt := ports_lt h
        rw [hu, length_modMag] at hlt
        exact hk hlt
      rw [hnone, hnone']
      exact ⟨rfl, rfl⟩
  have hbusy : u.flag (MAG_OP.BUSY k) = false := by
    rw [hu]
    exact State.flag_setFlag_same s (MAG_OP.BUSY k) false rfl rfl
  have hstate : magState u k = magState s k := by
    rw [hu]
    exact State.fld_setFld_apart_at (F := MAG_STATUS.STATE) (G := MAG_OP.BUSY) k s _ (by decide)
  have hvbusy : v.flag (MAG_OP.BUSY k) = false := by
    rw [hv, State.setFlag, State.flag_setFld_apart_at (F := MAG_OP.BUSY) (G := MAG_OP.DONE) k _ _ (by decide), hbusy]
  have hvdone : v.flag (MAG_OP.DONE k) = true := by
    rw [hv]
    exact State.flag_setFlag_same u (MAG_OP.DONE k) true rfl rfl
  have hvstate : magState v k = magState s k := by
    rw [hv, magState, State.setFlag, State.fld_setFld_apart_at (F := MAG_STATUS.STATE) (G := MAG_OP.DONE) k _ _ (by decide)]
    exact hstate
  have hvport : magPort v k = magPort u k := by
    rw [hv]
    rfl
  have he : endMagOp k fail s = if fail then v.setFlag (MAG_OP.FAIL k) true else v := by rw [hv, hu, endMagOp]
  rw [he]
  cases fail with
  | false => exact ⟨hvbusy, hvdone, hvport ▸ hport.1, hvstate, hvport ▸ hport.2⟩
  | true =>
    refine ⟨?_, ?_, hvport ▸ hport.1, ?_, hvport ▸ hport.2⟩
    · exact (State.flag_setFld_apart_at (F := MAG_OP.BUSY) (G := MAG_OP.FAIL) k v _ (by decide)).trans hvbusy
    · exact (State.flag_setFld_apart_at (F := MAG_OP.DONE) (G := MAG_OP.FAIL) k v _ (by decide)).trans hvdone
    · exact (State.fld_setFld_apart_at (F := MAG_STATUS.STATE) (G := MAG_OP.FAIL) k v _ (by decide)).trans hvstate

theorem magOff_shown (k : Fin 2) (s : State) : magState (magOff k s) k = 0 ∧ (magPort (magOff k s) k).perst = false := by
  obtain ⟨u, hu⟩ : ∃ u, u = modMag k (fun p => { p with
      perst := false, attempts := 0, step := 0, sb := none, cmds := [], plan := [], queue := [], take := none })
    (lanesStop (magLanes k) s) := ⟨_, rfl⟩
  obtain ⟨v, hv⟩ : ∃ v, v = setMagState k 0 (magGone k u) := ⟨_, rfl⟩
  have he : magOff k s = magShow k v := by rw [hv, hu, magOff]
  have hperst : (magPort u k).perst = false := by
    by_cases hk : k.val < (lanesStop (magLanes k) s).mag.ports.length
    · rw [hu, magPort_modMag_same hk]
    · by_contra h
      have hne : magPort u k ≠ magPortInit := fun hi => h (by rw [hi]; rfl)
      have hlt := ports_lt hne
      rw [hu, length_modMag] at hlt
      exact hk hlt
  have hvmag : v.mag = u.mag := by
    rw [hv]
    rfl
  have hzero : magState v k = 0 := by
    rw [hv]
    exact State.fld_setFld_same _ (MAG_STATUS.STATE k) _ rfl
  have hshow := magShow_shown k v
  have hm : (magShow k v).mag = u.mag := by rw [hshow.state, hvmag]
  rw [he, hshow.magState, magPort_of_mag hm]
  exact ⟨hzero, hperst⟩

theorem addStage_sb (cmds : List NvmeCmd) (e : MagEffect) (p : MagPort) : (addStage cmds e p).sb = p.sb ∧ (addStage cmds e p).op = p.op := by
  unfold addStage
  extract_lets q
  split
  · unfold issueStage
    split <;> exact ⟨rfl, rfl⟩
  · exact ⟨rfl, rfl⟩

theorem writeChunks_op (p : MagPort) (o : Option MagOp) (use : NvmeUse) (f v n : Nat) :
    writeChunks { p with op := o } use f v n = writeChunks p use f v n := by
  induction f generalizing v n with
  | zero => rfl
  | succ f ih =>
    unfold writeChunks
    split
    · rfl
    · exact congrArg (_ :: ·) (ih _ _)

theorem magPump_placed {k : Nat} {s : State} {q : MagRecord} {qs : List MagRecord} (h : (magPort s k).queue = q :: qs)
    (hp : q.placed = true) : magPump k s = s := by
  unfold magPump
  rw [h]
  cases (magPort s k).take with
  | none => rfl
  | some t =>
    cases (magPort s k).sb with
    | none => rfl
    | some x => exact if_pos (.inl hp)

theorem magStartMount_shown {k : Fin 2} {s : State} (hk : k.val < s.mag.ports.length) : magState (magStartMount k s) k = 2 ∧
    (magPort (magStartMount k s) k).perst = true ∧ (magStartMount k s).mag.ports.length = s.mag.ports.length := by
  obtain ⟨v, hv⟩ : ∃ v, v = lanesStop (magLanes k) s := ⟨_, rfl⟩
  obtain ⟨b, hb⟩ : ∃ b, b = s.flag (MAG_CFG.BIFUR k) := ⟨_, rfl⟩
  obtain ⟨f, hf⟩ : ∃ f : MagPort → MagPort, f = fun p => { p with
    perst := true, attempts := 0, trainAt := s.ticks, bifur := b, step := 0, sb := none, cmds := [], plan := [], queue := [],
    warned := 0, ejected := false } := ⟨_, rfl⟩
  obtain ⟨w, hw⟩ : ∃ w, w = (magGone k (modMag k f v)).setFlag (MAG_STATUS.WEAR_WARN k) false := ⟨_, rfl⟩
  have hvm : v.mag = s.mag := hv ▸ lanesStop_mag _ s
  have hwm : w.mag = (modMag k f v).mag := by
    rw [hw]
    rfl
  have he : magStartMount k s = setMagState k 2 w := by rw [hw, hf, hb, hv, magStartMount]
  have hkv : k.val < v.mag.ports.length := by rwa [hvm]
  rw [he]
  refine ⟨State.fld_setFld_same w (MAG_STATUS.STATE k) _ rfl, ?_, ?_⟩
  · show (magPort w k).perst = true
    rw [magPort_of_mag hwm, magPort_modMag_same hkv, hf]
  · show w.mag.ports.length = _
    rw [hwm, length_modMag, hvm]

theorem magOpEffect_ends (k : Fin 2) (o : MagOp) (s : State) (h : o.op ≠ 2) : ∃ fail v, magOpEffect k o s = endMagOp k fail v ∧
    (o.op = 5 → magState v k = 0 ∧ (magPort v k).perst = false) := by
  unfold magOpEffect
  split
  · next h1 => exact ⟨false, _, rfl, fun h5 => absurd (h1.symm.trans h5) (by decide)⟩
  · split
    · next h3 => exact ⟨false, _, rfl, fun h5 => absurd (h3.symm.trans h5) (by decide)⟩
    · split
      · next h4 => exact ⟨_, s, rfl, fun h5 => absurd (h4.symm.trans h5) (by decide)⟩
      · obtain ⟨u, hu⟩ : ∃ u, u = magOff k s := ⟨_, rfl⟩
        obtain ⟨hstate, hperst⟩ := hu ▸ magOff_shown k s
        rw [← hu]
        refine ⟨false, _, rfl, fun _ => ⟨hstate, ?_⟩⟩
        by_cases hk : k.val < u.mag.ports.length
        · rw [magPort_modMag_same hk]
          exact hperst
        · by_contra hne
          have hlt := ports_lt fun hi => hne (by rw [hi]; rfl)
          rw [length_modMag] at hlt
          exact hk hlt

section Begin

variable {s : State} {port : Fin 2} {ty : Fin 16} (hon : s.domainOn (23 + port.val) = true)

include hon

theorem read_begins {x : Superblock} (hst : magState s port = 4) (hop : (magPort s port).op = none) (hsb : (magPort s port).sb = some x)
    (hk : port.val < s.mag.ports.length) (hn : 1 ≤ s.fld (MAG_OP_LEN.LEN port)) (hmax : s.fld (MAG_OP_LEN.LEN port) ≤ 65536)
    (ha : magOpAddr s port % 4096 = 0) (hin : inDram s (magOpAddr s port) (4096 * s.fld (MAG_OP_LEN.LEN port)) = true)
    (htot : magOpLba s port + s.fld (MAG_OP_LEN.LEN port) ≤ x.total) :
    ∃ t, exec (.read port ty) s = .next t ∧ t.flag (MAG_OP.BUSY port) = true ∧
      (magPort t port).op = some { op := 1, addr := dramOff (magOpAddr s port), lba := magOpLba s port,
                                   len := s.fld (MAG_OP_LEN.LEN port) } ∧
      (magPort t port).cmds = (magPort s port).cmds ++ writeChunks (magPort s port) .read (s.fld (MAG_OP_LEN.LEN port))
        (magOpLba s port) (s.fld (MAG_OP_LEN.LEN port)) ∧
      OnlyRegs { s with mag := t.mag } t [(MAG_OP.BUSY port).addr] := by
  obtain ⟨u, hw, hexec⟩ := exec_read (ty := ty) hon hst hop hsb hn hmax ha hin htot
  obtain ⟨o, ho⟩ : ∃ o : MagOp, o = { op := 1, addr := dramOff (magOpAddr s port), lba := magOpLba s port, len := s.fld (MAG_OP_LEN.LEN port) } := ⟨_, rfl⟩
  have hku : port.val < u.mag.ports.length := by
    rw [hw.mag]
    exact hk
  rw [← ho] at hexec ⊢
  obtain ⟨hbusy, hport⟩ := magOpStart_shown hku o
  have hlen : port.val < (magOpStart port o u).mag.ports.length := (length_modMag port _ (u.setFlag (MAG_OP.BUSY port) true)).symm ▸ hku
  have hp := magPort_modMag_same hlen (fun p => { p with
    cmds := p.cmds ++ writeChunks p .read (s.fld (MAG_OP_LEN.LEN port)) (magOpLba s port) (s.fld (MAG_OP_LEN.LEN port)) })
  rw [hport, hw.port] at hp
  refine ⟨_, hexec, hbusy, ?_, ?_, magOpStart_frame port o hw _⟩
  · rw [hp]
  · rw [hp]
    exact congrArg ((magPort s port).cmds ++ ·) (writeChunks_op _ _ _ _ _ _)

theorem append_begins {q : MagRecord} {qs : List MagRecord} (hrec : magRecording s port = true) (hop : (magPort s port).op = none)
    (hlo : 2 ≤ ty.val) (hhi : ty.val ≤ 4) (hn : 1 ≤ s.fld (MAG_OP_LEN.LEN port)) (hmax : s.fld (MAG_OP_LEN.LEN port) ≤ 16777216)
    (hin : inDram s (magOpAddr s port) (s.fld (MAG_OP_LEN.LEN port)) = true) (hq : (magPort s port).queue = q :: qs)
    (hpl : q.placed = true) :
    ∃ t, exec (.append port ty) s = .next t ∧ t.flag (MAG_OP.BUSY port) = true ∧
      (magPort t port).queue = (magPort s port).queue ++
        [newRecord ty (appendKey ty (s.dramBytes (dramOff (magOpAddr s port)) (s.fld (MAG_OP_LEN.LEN port))))
          (s.dramBytes (dramOff (magOpAddr s port)) (s.fld (MAG_OP_LEN.LEN port))) none 0] ∧
      (magPort t port).op.isSome = true ∧ SameMemory s t := by
  obtain ⟨u, hw, hexec⟩ := exec_append hon hrec hop hlo hhi hn hmax hin
  obtain ⟨o, ho⟩ : ∃ o : MagOp, o = { op := 2, addr := dramOff (magOpAddr s port), lba := 0, len := s.fld (MAG_OP_LEN.LEN port) } := ⟨_, rfl⟩
  obtain ⟨r, hr⟩ : ∃ r, r = newRecord ty (appendKey ty (s.dramBytes (dramOff (magOpAddr s port)) (s.fld (MAG_OP_LEN.LEN port))))
      (s.dramBytes (dramOff (magOpAddr s port)) (s.fld (MAG_OP_LEN.LEN port))) none 0 := ⟨_, rfl⟩
  obtain ⟨v, hv⟩ : ∃ v, v = poisonWarn 11 port (dramOff (magOpAddr s port)) (s.fld (MAG_OP_LEN.LEN port)) u := ⟨_, rfl⟩
  have hc : Checked u v := hv ▸ poisonWarn_checked ..
  have hvm : v.mag = s.mag := by rw [hc.state, ← hw.mag]
  have hvs : v.stores = s.stores := by
    rw [← hw.stores, hc.state]
    rfl
  have hk : port.val < v.mag.ports.length := by
    rw [hvm]
    exact ports_lt fun h => by
      rw [h] at hq
      cases hq
  obtain ⟨hbusy, hport⟩ := magOpStart_shown hk o
  have hlen : port.val < (magOpStart port o v).mag.ports.length := (length_modMag port _ (v.setFlag (MAG_OP.BUSY port) true)).symm ▸ hk
  have hp := magPort_modMag_same hlen (fun p => { p with queue := p.queue ++ [r] })
  rw [hport, magPort_of_mag hvm, hq] at hp
  rw [← ho, ← hr, ← hv] at hexec
  rw [← hr]
  have hpump : magPump port (magEnqueue port r (magOpStart port o v)) = magEnqueue port r (magOpStart port o v) :=
    magPump_placed (congrArg MagPort.queue hp) hpl
  rw [hpump] at hexec
  refine ⟨_, hexec, hbusy, (congrArg MagPort.queue hp).trans (by rw [hq]), ?_, sameMemory_of_stores hvs⟩
  exact congrArg (fun p => p.op.isSome) hp

theorem erase_begins (hst : magState s port = 4) (hop : (magPort s port).op = none) (hd : (magPort s port).drive ≠ none)
    (hmode : s.mode = 2 ∨ s.mode = 6) (hpriv : privilege s = true) :
    ∃ t, exec (.erase port ty) s = .next t ∧ magState t port = 9 ∧ t.flag (MAG_OP.BUSY port) = true ∧
      (magPort t port).sb = none ∧ (magPort t port).op.isSome = true ∧ SameMemory s t := by
  obtain ⟨u, hw, hexec⟩ := exec_erase (ty := ty) hon hst hop hd hmode
  rw [if_neg (by rw [hpriv]; decide)] at hexec
  obtain ⟨o, ho⟩ : ∃ o : MagOp, o = { op := 3, addr := 0, lba := 0, len := 0 } := ⟨_, rfl⟩
  obtain ⟨v, hv⟩ : ∃ v, v = modMag port (fun p => addStage (p.each .deallocate) .erased { p with
    sb := none, drive := p.drive.map (fun d => { d with media := d.media.filter (fun e => decide (e.1 < 65536)) }) }) u := ⟨_, rfl⟩
  obtain ⟨w, hw'⟩ : ∃ w, w = setMagState port 9 v := ⟨_, rfl⟩
  rw [← ho, ← hv, ← hw'] at hexec
  have hk : port.val < u.mag.ports.length := by
    rw [hw.mag]
    exact ports_lt fun h => hd (by rw [h]; rfl)
  have hvp : (magPort v port).sb = none := by
    rw [hv, magPort_modMag_same hk]
    exact (addStage_sb ..).1
  have hkv : port.val < w.mag.ports.length := by
    rw [hw', hv]
    exact (length_modMag port _ u).symm ▸ hk
  obtain ⟨hbusy, hport⟩ := magOpStart_shown hkv o
  have hwp : magPort w port = magPort v port := by
    rw [hw']
    rfl
  have hnine : magState (magOpStart port o w) port = 9 := by
    refine (State.fld_setFld_apart_at (F := MAG_STATUS.STATE) (G := MAG_OP.BUSY) port w _ (by decide)).trans ?_
    rw [hw']
    exact State.fld_setFld_same v (MAG_STATUS.STATE port) _ rfl
  have hshow := magShow_shown port (magOpStart port o w)
  have hmag : (magShow port (magOpStart port o w)).mag = (magOpStart port o w).mag := by rw [hshow.state]
  have hn : ∀ k : Fin 2, (MAG_OP.BUSY k).addr ∉ magShowRegs k := by decide
  refine ⟨_, hexec, hshow.magState.trans hnine, (State.flag_of_word (hshow.regs _ (hn port))).trans hbusy, ?_, ?_, ?_⟩
  · rw [magPort_of_mag hmag, hport, hwp]
    exact hvp
  · rw [magPort_of_mag hmag, hport]
    rfl
  · refine sameMemory_of_stores ?_
    rw [hshow.state, ← hw.stores]
    show (magOpStart port o w).stores = u.stores
    rw [hw', hv]
    rfl

theorem mount_begins (ht : noTake s = true) (hop : (magPort s port).op = none) (hd : (magPort s port).drive ≠ none) :
    ∃ t, exec (.mount port ty) s = .next t ∧ magState t port = 2 ∧ t.flag (MAG_OP.BUSY port) = true ∧
      (magPort t port).perst = true ∧ (magPort t port).op = some { op := 4, addr := 0, lba := 0, len := 0 } := by
  obtain ⟨u, hw, hexec⟩ := exec_mount (ty := ty) hon ht hop hd
  obtain ⟨o, ho⟩ : ∃ o : MagOp, o = { op := 4, addr := 0, lba := 0, len := 0 } := ⟨_, rfl⟩
  have hk : port.val < u.mag.ports.length := by
    rw [hw.mag]
    exact ports_lt fun h => hd (by rw [h]; rfl)
  obtain ⟨w, hw'⟩ : ∃ w, w = magStartMount port u := ⟨_, rfl⟩
  obtain ⟨hstate, hperst, hlen⟩ := magStartMount_shown hk
  rw [← hw'] at hstate hperst hlen
  obtain ⟨hbusy, hport⟩ := magOpStart_shown (hlen ▸ hk) o
  have hst : magState (magOpStart port o w) port = magState w port :=
    State.fld_setFld_apart_at (F := MAG_STATUS.STATE) (G := MAG_OP.BUSY) port w _ (by decide)
  rw [← ho, ← hw'] at hexec
  rw [← ho]
  refine ⟨_, hexec, hst.trans hstate, hbusy, ?_, ?_⟩
  · rw [hport]
    exact hperst
  · rw [hport]

end Begin

/-- Settles O39: each operation is judged on the state with MAG_OP written, begins with BUSY and ends with DONE. -/
theorem magazineOperations : Obligations.MagazineOperations := by
  unfold Obligations.MagazineOperations
  refine ⟨?_, ?_, ?_, ?_, ?_, ?_, ?_, ?_⟩
  · exact fun s port ty x hon hst hop hsb hk hn hmax ha hin htot => read_begins hon hst hop hsb hk hn hmax ha hin htot
  · exact fun s port ty q qs hon hrec hop hlo hhi hn hmax hin hq hpl => append_begins hon hrec hop hlo hhi hn hmax hin hq hpl
  · exact fun s port ty hon hst hop hd hmode hpriv => erase_begins hon hst hop hd hmode hpriv
  · intro s port ty hon hst hop hd hmode hpriv
    obtain ⟨u, hw, hexec⟩ := exec_erase (ty := ty) hon hst hop hd hmode
    rw [if_pos hpriv] at hexec
    have hn : ∀ k : Fin 2, (MAG_OP.REFUSED k).addr ≠ CALL_OVERFLOW.COUNT.addr := by decide
    refine ⟨_, _, hexec, rfl, ?_, ?_⟩
    · rw [privRefused, postKind_flag _ _ _ _ _ (hn port)]
      exact State.flag_setFlag_same u (MAG_OP.REFUSED port) true rfl rfl
    · rw [privRefused, postKind_mag]
      exact hw.mag
  · exact fun s port ty hon ht hop hd => mount_begins hon ht hop hd
  · intro s port ty hon ht hop hk
    obtain ⟨u, hw, hexec⟩ := exec_eject (ty := ty) hon ht hop
    obtain ⟨o, ho⟩ : ∃ o : MagOp, o = { op := 5, addr := 0, lba := 0, len := 0 } := ⟨_, rfl⟩
    rw [← ho] at hexec ⊢
    have hku : port.val < u.mag.ports.length := by
      rw [hw.mag]
      exact hk
    obtain ⟨hbusy, hport⟩ := magOpStart_shown hku o
    have hlen : port.val < (magOpStart port o u).mag.ports.length := (length_modMag port _ (u.setFlag (MAG_OP.BUSY port) true)).symm ▸ hku
    refine ⟨_, hexec, hbusy, ?_, magOpStart_frame port o hw _⟩
    rw [magPort_modMag_same hlen, hport, hw.port]
    unfold shutDown
    rw [hw.state]
  · intro s port ty o hon hop c hc
    obtain ⟨u, hw, hexec⟩ := exec_whileBusy hon hop hc
    exact ⟨_, hexec, magOpRefused_shown port hw⟩
  · intro s port o hop hready
    have hexec : exec (.magOpComplete port) s = .next (magOpEffect port o s) := by
      show execMagOpComplete port s = _
      unfold execMagOpComplete
      simp only [hop]
      refine if_pos ?_
      rcases hready with ⟨h1, hcmds⟩ | ⟨h35, hplan⟩ | ⟨h4, h2, h3⟩
      · rw [if_pos h1]
        simpa using hcmds
      · rw [if_neg (by omega), if_neg (by omega), if_neg (by omega), hplan]
        rfl
      · rw [if_neg (by omega), if_neg (by omega), if_pos h4, decide_eq_true h2, decide_eq_true h3]
        rfl
    obtain ⟨fail, v, he, hoff⟩ := magOpEffect_ends port o s (by omega)
    obtain ⟨hbusy, hdone, hnone, hstate, hperst⟩ := endMagOp_shown port fail v
    refine ⟨_, hexec, ?_⟩
    rw [he, hstate, hperst]
    exact ⟨hbusy, hdone, hnone, hoff⟩

end Sys2Proof.Machine
end

section
/-! PROOFS. Sensor clock, reset, triggers and SPI (R134 to R139). -/

namespace Sys2Proof.Machine

/-! ### Ports of ingest -/

theorem portOf_modPort_same {s : State} {p : Nat} (h : p < s.ingest.length) (f : IngestPort → IngestPort) :
    portOf (modPort p f s) p = f (portOf s p) := by
  show ((modAt s.ingest p f)[p]?).getD ingestInit = f ((s.ingest[p]?).getD ingestInit)
  rw [getElem?_modAt, if_pos rfl, List.getElem?_eq_getElem h]
  rfl

theorem portOf_none {s : State} {p : Nat} (h : s.ingest.length ≤ p) : portOf s p = ingestInit := by
  rw [portOf, List.getElem?_eq_none h]
  rfl

theorem ingest_lt {s : State} {p : Nat} (h : portOf s p ≠ ingestInit) : p < s.ingest.length := by
  by_contra hn
  exact h (portOf_none (Nat.not_lt.1 hn))

theorem length_modPort (p : Nat) (f : IngestPort → IngestPort) (s : State) : (modPort p f s).ingest.length = s.ingest.length :=
  length_modAt ..

theorem spiOf_modSpi {s : State} {c : Nat} (h : c < s.ingest.length) (f : SpiCtl → SpiCtl) : spiOf (modSpi c f s) c = f (spiOf s c) := by
  rw [spiOf, modSpi, portOf_modPort_same h]
  rfl

theorem spiOf_of_ingest {s t : State} (h : t.ingest = s.ingest) (c : Nat) : spiOf t c = spiOf s c := by
  rw [spiOf, spiOf, portOf, portOf, h]

theorem low_bits (n k : Nat) : bits n k 0 = n % 2 ^ (k + 1) := by rw [bits, pow_zero, Nat.div_one, Nat.sub_zero]

/-! ### The sensor clock, reset and triggers -/

/-- The register INGEST_MCLK of port `p` takes the fields of `v`. -/
def mclkShown (p : Nat) (v : Word) (s : State) : State :=
  ((busOk 0 s).setFld (INGEST_MCLK.EN p) (bits v.toNat 16 16)).setFld (INGEST_MCLK.DIV p) (bits v.toNat 15 0)

theorem mclkShown_shown (p : Fin 4) (v : Word) (s : State) : (mclkShown p v s).flag (INGEST_MCLK.EN p) = v.getLsbD 16 ∧
    (mclkShown p v s).fld (INGEST_MCLK.DIV p) = v.toNat % 65536 ∧ OnlyRegs s (mclkShown p v s) [(INGEST_MCLK.DIV p).addr] := by
  refine ⟨?_, ?_, ((onlyRegs_busOk 0 s _).setFld (f := INGEST_MCLK.EN p) (.head _) _).setFld (f := INGEST_MCLK.DIV p) (.head _) _⟩
  · have hlt : bits v.toNat 16 16 < 2 := Nat.mod_lt _ (by decide)
    rw [mclkShown, State.flag_setFld_apart_at (F := INGEST_MCLK.EN) (G := INGEST_MCLK.DIV) p _ _ (by decide), State.flag,
      State.fld_setFld_same _ (INGEST_MCLK.EN p) _ rfl]
    show (bits v.toNat 16 16 % 2 != 0) = v.getLsbD 16
    rw [BitVec.getLsbD, Nat.testBit, Nat.shiftRight_eq_div_pow, Nat.mod_eq_of_lt hlt, Nat.and_comm, Nat.and_one_is_mod]
    rfl
  · rw [mclkShown, State.fld_setFld_same _ (INGEST_MCLK.DIV p) _ rfl, low_bits]
    exact Nat.mod_mod _ _

theorem exec_mclkConfigWrite {s : State} {port : Fin 4} (hon : s.domainOn (6 + port.val) = true) (v : Word) :
    exec (.mclkConfigWrite port v) s = if v.toNat % 65536 < 1920 ∨ 32000 < v.toNat % 65536
      then .next (postActsAs 3 port (INGEST_MCLK.DIV port).addr (mclkShown port v s)) else .next (mclkShown port v s) := by
  show execMclkConfigWrite port v s = _
  unfold execMclkConfigWrite
  refine (if_neg (fun h => absurd (hon.symm.trans h) (by decide))).trans ?_
  have hd : bits v.toNat 15 0 = v.toNat % 65536 := low_bits ..
  rw [← hd]
  rfl

theorem mclkDivider_low {s t : State} {p : Fin 4} (hon : s.domainOn (6 + p.val) = true) (hw : t.word POWER_STATUS.ON.addr = s.word POWER_STATUS.ON.addr)
    (he : t.flag (INGEST_MCLK.EN p) = true) (hd : t.fld (INGEST_MCLK.DIV p) < 1920) : mclkDivider t p = some 1920 := by
  have hdom : t.domainOn (6 + p.val) = true := by
    rw [State.domainOn, State.fld_congr_word (f := POWER_STATUS.ON) hw]
    exact hon
  refine (if_pos ⟨hdom, he⟩).trans (congrArg some ?_)
  rw [clamp]
  omega

theorem postKind_word (kind block inst detail : Nat) (s : State) {a : Nat} (ha : a ≠ CALL_OVERFLOW.COUNT.addr) :
    (postKind kind block inst detail s).word a = s.word a :=
  postEvent_word (e := { cls := .warning, block := block, cause := 0x200 + kind, inst := inst, detail := detail })
    (fun h => nomatch h) s ha

theorem nowNs_le_units {s : State} {x grid : Nat} (h : grid * 2 ^ 40 ≤ s.time.units + x * 2 ^ 40) : grid ≤ s.nowNs + x := by
  have hf : s.time.frac.toNat < 2 ^ 40 := s.time.frac.isLt
  have hu : s.time.units = s.nowNs * 2 ^ 40 + s.time.frac.toNat := rfl
  rw [hu] at h
  omega

/-! ### SPI -/

theorem spiNext_shown {s : State} {c : Fin 2} (hd : (spiOf s c).scriptDue = false) : spiNext c s = { s with ingest := (spiNext c s).ingest } ∧
    (spiOf (spiNext c s) c).script = (spiOf s c).script := by
  unfold spiNext
  extract_lets k
  rw [if_neg (by rw [show k.scriptDue = false from hd]; decide)]
  split
  · next hj =>
    have hc : c.val < s.ingest.length := ingest_lt fun h => by
      have hk : k.job = none := congrArg (fun p : IngestPort => p.spi.job) h
      rw [hk] at hj
      cases hj
    exact ⟨rfl, by rw [spiOf_modSpi hc]⟩
  · exact ⟨rfl, rfl⟩

/-- The next thing that a controller does starts no transfer of its own, and leaves what it has driven. -/
theorem spiNext_after {s : State} {c : Fin 2} (hc : c.val < s.ingest.length) (hj : (spiOf s c).job = none) :
    (spiOf (spiNext c s) c).job = none ∧ (spiOf (spiNext c s) c).driven = (spiOf s c).driven ∧ (spiNext c s).stores = s.stores ∧
      (∀ f : Nat → Fld, (∀ c : Fin 2, (f c).apart (INGEST_SPI_STATUS.SCRIPT_RUN c) = true) → (spiNext c s).fld (f c) = s.fld (f c)) := by
  unfold spiNext
  extract_lets k
  split
  · have hspi := spiOf_modSpi hc (fun k => { k with scriptDue := false, script := some 0 })
    exact ⟨(congrArg SpiCtl.job hspi).trans hj, (congrArg SpiCtl.driven hspi :), rfl,
      fun f hf => State.fld_setFld_apart _ _ (INGEST_SPI_STATUS.SCRIPT_RUN c) _ rfl (hf c)⟩
  · rw [if_neg (by rw [show k.job = none from hj]; decide)]
    exact ⟨hj, rfl, rfl, fun _ _ => rfl⟩

/-- The buffer of controller `c` with the words of `bs`. -/
def spiFilled (c : Nat) (bs : List Byte) (n : Nat) (s : State) : State :=
  (List.range n).foldl (fun s i => s.setFld (INGEST_SPI_BUF.DATA c i) (leAt bs (4 * i) 4)) s

theorem spiFilled_word (c : Nat) (bs : List Byte) (n : Nat) (s : State) {a : Nat} (h : ∀ i < n, a ≠ (INGEST_SPI_BUF.DATA c i).addr) :
    (spiFilled c bs n s).word a = s.word a :=
  word_foldl_setFld_index _ _ _ _ fun i hi => h i (List.mem_range.1 hi)

theorem spiFilled_data (c : Nat) (bs : List Byte) (s : State) {i n : Nat} (h : i < n) :
    (spiFilled c bs n s).fld (INGEST_SPI_BUF.DATA c i) = leAt bs (4 * i) 4 % 2 ^ 32 := by
  induction n with
  | zero => exact absurd h (Nat.not_lt_zero i)
  | succ n ih =>
    have hs : spiFilled c bs (n + 1) s = (spiFilled c bs n s).setFld (INGEST_SPI_BUF.DATA c n) (leAt bs (4 * n) 4) := by
      rw [spiFilled, List.range_succ, List.foldl_append]
      rfl
    rw [hs]
    by_cases hi : i = n
    · subst hi
      exact State.fld_setFld_same _ (INGEST_SPI_BUF.DATA c i) _ rfl
    · refine (State.fld_congr_word (State.word_setFld_ne _ (INGEST_SPI_BUF.DATA c n) _ ?_)).trans (ih (by omega))
      show 0x400c0 + 0x4000 * c + 4 * i ≠ 0x400c0 + 0x4000 * c + 4 * n
      omega

theorem flatten_chunks {α : Type} (l : List α) (k n : Nat) :
    ((List.range n).map (fun i => (l.drop (k * i)).take k)).flatten = l.take (k * n) := by
  induction n with
  | zero => rfl
  | succ n ih =>
    rw [List.range_succ, List.map_append, List.flatten_append, ih, Nat.mul_succ, List.take_add]
    simp

theorem spiBytes_filled (c : Nat) {bs : List Byte} (h : bs.length = 64) {s t : State}
    (ht : ∀ i < 16, t.fld (INGEST_SPI_BUF.DATA c i) = (spiFilled c bs 16 s).fld (INGEST_SPI_BUF.DATA c i)) : spiBytes t c = bs := by
  have hword : ∀ i ∈ List.range 16, leBytes 4 (t.fld (INGEST_SPI_BUF.DATA c i)) = (bs.drop (4 * i)).take 4 := by
    intro i hi
    have hi := List.mem_range.1 hi
    have hlen : ((bs.drop (4 * i)).take 4).length = 4 := by
      rw [List.length_take, List.length_drop]
      omega
    have hlt := leNat_lt ((bs.drop (4 * i)).take 4)
    have hbytes := leBytes_leNat ((bs.drop (4 * i)).take 4)
    rw [hlen] at hlt hbytes
    rw [ht i hi, spiFilled_data c bs s hi, leAt, Nat.mod_eq_of_lt (b := 2 ^ 32) hlt, hbytes]
  rw [spiBytes, List.map_congr_left hword, flatten_chunks]
  exact List.take_of_length_le (by omega)

theorem length_spiBytes (s : State) (c : Nat) : (spiBytes s c).length = 64 := by
  rw [spiBytes, List.length_flatten, List.map_map]
  have hall : (List.range 16).map (List.length ∘ fun i => leBytes 4 (s.fld (INGEST_SPI_BUF.DATA c i))) = List.replicate 16 4 := by
    rw [List.eq_replicate_iff]
    refine ⟨by simp, fun b hb => ?_⟩
    obtain ⟨i, -, rfl⟩ := List.mem_map.1 hb
    exact length_leBytes ..
  rw [hall]
  decide

theorem spiWire_congr {s t : State} {c : Fin 2} (h : t.word (INGEST_SPI_CFG.MODE c).addr = s.word (INGEST_SPI_CFG.MODE c).addr) (cs : Nat)
    (bs : List Byte) : spiWire t c cs bs = spiWire s c cs bs := by
  rw [spiWire, spiWire, State.fld_congr_word (f := INGEST_SPI_CFG.MODE c) h, State.flag_of_word (f := INGEST_SPI_CFG.LSB_FIRST c) h,
    State.fld_congr_word (f := INGEST_SPI_CFG.DIV c) h]

/-- The state in which the transfer of `rx` has ended, before what the controller does next. -/
def spiEnded (c len : Nat) (rx : List Byte) (s : State) : State :=
  ((spiFilled c (spliceAt (spiBytes s c) 0 (padTo len rx)) 16 s).setFlag (INGEST_SPI_STATUS.BUSY c) false).setFlag
    (INGEST_SPI_STATUS.DONE c) true

section Ended

variable (c : Fin 2) (len : Nat) (rx : List Byte) (s : State)

theorem spiEnded_frame : ∃ r, spiEnded c len rx s = { s with regs := r } := by
  obtain ⟨r, h⟩ := foldl_setFld_frame (fun i => INGEST_SPI_BUF.DATA c i) (fun _ i => leAt (spliceAt (spiBytes s c) 0 (padTo len rx)) (4 * i) 4)
    (List.range 16) s
  have hf : spiFilled c (spliceAt (spiBytes s c) 0 (padTo len rx)) 16 s = { s with regs := r } := h
  rw [spiEnded, hf]
  exact ⟨_, rfl⟩

theorem spiEnded_flags : (spiEnded c len rx s).flag (INGEST_SPI_STATUS.BUSY c) = false ∧
    (spiEnded c len rx s).flag (INGEST_SPI_STATUS.DONE c) = true := by
  obtain ⟨u, hu⟩ : ∃ u, u = spiFilled c (spliceAt (spiBytes s c) 0 (padTo len rx)) 16 s := ⟨_, rfl⟩
  rw [spiEnded, ← hu]
  refine ⟨?_, State.flag_setFlag_same _ (INGEST_SPI_STATUS.DONE c) true rfl rfl⟩
  exact (State.flag_setFld_apart_at (F := INGEST_SPI_STATUS.BUSY) (G := INGEST_SPI_STATUS.DONE) c _ _ (by decide)).trans
    (State.flag_setFlag_same u (INGEST_SPI_STATUS.BUSY c) false rfl rfl)

theorem spiEnded_data {i : Nat} (hi : i < 16) : (spiEnded c len rx s).fld (INGEST_SPI_BUF.DATA c i) =
    (spiFilled c (spliceAt (spiBytes s c) 0 (padTo len rx)) 16 s).fld (INGEST_SPI_BUF.DATA c i) := by
  have hne : (INGEST_SPI_BUF.DATA c i).addr ≠ (INGEST_SPI_STATUS.BUSY c).addr := by
    show 0x400c0 + 0x4000 * c.val + 4 * i ≠ 0x40088 + 0x4000 * c.val
    omega
  rw [spiEnded]
  exact State.fld_congr_word ((State.word_setFld_ne _ (INGEST_SPI_STATUS.DONE c) _ hne).trans
    (State.word_setFld_ne _ (INGEST_SPI_STATUS.BUSY c) _ hne))

theorem spiEnded_cfg : (spiEnded c len rx s).word (INGEST_SPI_CFG.MODE c).addr = s.word (INGEST_SPI_CFG.MODE c).addr := by
  have hn : ∀ c : Fin 2, (INGEST_SPI_CFG.MODE c).addr ≠ (INGEST_SPI_STATUS.BUSY c).addr := by decide
  rw [spiEnded]
  refine (State.word_setFld_ne _ (INGEST_SPI_STATUS.DONE c) _ (hn c)).trans
    ((State.word_setFld_ne _ (INGEST_SPI_STATUS.BUSY c) _ (hn c)).trans (spiFilled_word _ _ _ _ fun i _ => ?_))
  show 0x40080 + 0x4000 * c.val ≠ 0x400c0 + 0x4000 * c.val + 4 * i
  omega

end Ended

theorem exec_spiTransferDone {s : State} {c : Fin 2} {cs len : Nat} (hj : (spiOf s c).job = some (cs, len))
    (hr : (spiOf s c).jobRuns = true) (rx : List Byte) : exec (.spiTransferDone c rx) s = .next (spiNext c (modSpi c (fun k => { k with
      job := none, jobRuns := false, driven := some (spiWire s c cs ((spiBytes s c).take len)) }) (spiEnded c len rx s))) := by
  rw [← spiWire_congr (spiEnded_cfg c len rx s)]
  show execSpiTransferDone c rx s = _
  unfold execSpiTransferDone
  simp only [hj]
  exact if_neg (by rw [hr]; decide)

theorem spiTransferDone_ends {s : State} {c : Fin 2} {cs len : Nat} (hj : (spiOf s c).job = some (cs, len))
    (hr : (spiOf s c).jobRuns = true) (hlen : len ≤ 64) {rx : List Byte} (hrx : rx.length = len) :
    ∃ t, exec (.spiTransferDone c rx) s = .next t ∧ spiBytes t c = rx ++ (spiBytes s c).drop len ∧
      t.flag (INGEST_SPI_STATUS.BUSY c) = false ∧ t.flag (INGEST_SPI_STATUS.DONE c) = true ∧
      (spiOf t c).job = none ∧ (spiOf t c).driven = some (spiWire s c cs ((spiBytes s c).take len)) ∧ SameMemory s t := by
  obtain ⟨w, hw⟩ : ∃ w, w = spiWire s c cs ((spiBytes s c).take len) := ⟨_, rfl⟩
  obtain ⟨u, hu⟩ : ∃ u, u = spiEnded c len rx s := ⟨_, rfl⟩
  obtain ⟨v, hv⟩ : ∃ v, v = modSpi c (fun k => { k with job := none, jobRuns := false, driven := some w }) u := ⟨_, rfl⟩
  have hexec := exec_spiTransferDone hj hr rx
  rw [← hw, ← hu, ← hv] at hexec
  obtain ⟨r, hur⟩ := hu ▸ spiEnded_frame c len rx s
  have huc : c.val < u.ingest.length := by
    rw [hur]
    exact ingest_lt fun h => by
      have hnone : (spiOf s c).job = none := congrArg (fun p : IngestPort => p.spi.job) h
      rw [hnone] at hj
      cases hj
  have hspi : spiOf v c = { spiOf u c with job := none, jobRuns := false, driven := some w } := hv ▸ spiOf_modSpi huc _
  have hvc : c.val < v.ingest.length := by
    rw [hv]
    exact (length_modPort ..).symm ▸ huc
  have hvregs : ∀ a, v.word a = u.word a := fun a => by
    rw [hv]
    rfl
  obtain ⟨hjob, hdriven, hstores, hfld⟩ := spiNext_after hvc (congrArg SpiCtl.job hspi)
  obtain ⟨hbusy, hdone⟩ := hu ▸ spiEnded_flags c len rx s
  refine ⟨_, hexec, ?_, ?_, ?_, hjob, ?_, ?_⟩
  · have hbuf : spliceAt (spiBytes s c) 0 (padTo len rx) = rx ++ (spiBytes s c).drop len := by
      rw [padTo, List.take_of_length_le (by omega), hrx, Nat.sub_self]
      simp [spliceAt, hrx]
    rw [← hbuf]
    refine spiBytes_filled c (s := s) ?_ fun i hi => ?_
    · rw [hbuf, List.length_append, List.length_drop, length_spiBytes]
      omega
    · have ha : ∀ c : Fin 2, ((fun c => INGEST_SPI_BUF.DATA c i) c).apart (INGEST_SPI_STATUS.SCRIPT_RUN c) = true := fun c => by
        have hne : 0x400c0 + 0x4000 * c.val + 4 * i ≠ 0x40088 + 0x4000 * c.val := by omega
        simp [Fld.apart, INGEST_SPI_BUF.DATA, INGEST_SPI_STATUS.SCRIPT_RUN, hne]
      have hi' := hfld (fun c => INGEST_SPI_BUF.DATA c i) ha
      rw [hi', State.fld_congr_word (hvregs _), hu]
      exact spiEnded_data c len rx s hi
  · rw [State.flag_of_fld (hfld INGEST_SPI_STATUS.BUSY (by decide)), State.flag_of_word (hvregs _)]
    exact hbusy
  · rw [State.flag_of_fld (hfld INGEST_SPI_STATUS.DONE (by decide)), State.flag_of_word (hvregs _)]
    exact hdone
  · rw [hdriven, hspi, hw]
  · refine sameMemory_of_stores (hstores.trans ?_)
    rw [hv, hur]
    rfl

/-! ### The pins -/

theorem length_bits (t : SpiWire) : t.bits.length = 8 * t.bytes.length := by
  unfold SpiWire.bits
  induction t.bytes with
  | nil => rfl
  | cons b bs ih =>
    rw [List.map_cons, List.flatten_cons, List.length_append, ih]
    simp
    omega

theorem pairs_length {α β : Type} (f g : α → β) (l : List α) : ((l.map fun x => [f x, g x]).flatten).length = 2 * l.length := by
  induction l with
  | nil => rfl
  | cons a l ih =>
    rw [List.map_cons, List.flatten_cons, List.length_append, ih]
    simp
    omega

theorem pairs_getElem? {α β : Type} (f g : α → β) (l : List α) (i : Nat) : ((l.map fun x => [f x, g x]).flatten)[2 * i]? = (l[i]?).map f := by
  induction l generalizing i with
  | nil => rfl
  | cons a l ih =>
    cases i with
    | zero => rfl
    | succ i => exact ih i

theorem pairs_mem {α β : Type} (f g : α → β) (l : List α) {y : β} (h : y ∈ (l.map fun x => [f x, g x]).flatten) : ∃ x, y = f x ∨ y = g x := by
  obtain ⟨ys, hys, hy⟩ := List.mem_flatten.1 h
  obtain ⟨x, -, rfl⟩ := List.mem_map.1 hys
  simp only [List.mem_cons, List.not_mem_nil, or_false] at hy
  exact ⟨x, hy⟩

theorem length_levels (t : SpiWire) : t.levels.length = 16 * t.bytes.length + 7 := by
  unfold SpiWire.levels
  extract_lets cs half next
  rw [List.length_append, List.length_append, List.length_replicate, List.length_replicate, pairs_length, List.length_zipIdx, length_bits]
  omega

theorem levels_csN (t : SpiWire) : ∀ x ∈ t.levels, x.csN = (List.range 4).map (fun k => k != t.cs) := by
  unfold SpiWire.levels
  extract_lets cs half next
  intro x hx
  rcases List.mem_append.1 hx with hx | hx
  · rcases List.mem_append.1 hx with hx | hx
    · rw [List.eq_of_mem_replicate hx]
    · obtain ⟨b, hb | hb⟩ := pairs_mem _ _ _ hx
      · rw [hb]
      · rw [hb]
  · rw [List.eq_of_mem_replicate hx]

theorem levels_bit (t : SpiWire) {i : Nat} (hi : i < t.bits.length) :
    (t.levels[4 + 2 * i]?).map (fun x => (x.sclk, x.mosi)) = some (!t.cpol, t.bits[i]?) := by
  unfold SpiWire.levels
  extract_lets cs half next
  have hlen : 4 + 2 * i < (List.replicate 4 (half t.cpol (if t.cpha then none else t.bits[0]?)) ++
      (t.bits.zipIdx.map (fun b => [half (!t.cpol) (some b.1), half t.cpol (next b.2)])).flatten).length := by
    rw [List.length_append, List.length_replicate, pairs_length, List.length_zipIdx]
    omega
  rw [List.getElem?_append_left hlen, List.getElem?_append_right (by rw [List.length_replicate]; omega), List.length_replicate,
    Nat.add_sub_cancel_left, pairs_getElem?, List.getElem?_zipIdx, List.getElem?_eq_getElem hi]
  rfl

/-- Settles O30: the outputs of a sensor port by their registers, and SPI by its buffer, its wire and its script. -/
theorem sensorControlAndSpi : Obligations.SensorControlAndSpi := by
  unfold Obligations.SensorControlAndSpi
  refine ⟨?_, ?_, ?_, ?_, ?_, ?_, ?_, ?_, ?_, ?_, ?_, ?_, ?_⟩
  · intro s port v hon hlo hhi
    exact ⟨_, (exec_mclkConfigWrite hon v).trans (if_neg (by omega)), mclkShown_shown port v s⟩
  · intro s port v hon hen hlow
    obtain ⟨hflag, hdiv, hregs⟩ := mclkShown_shown port v s
    obtain ⟨u, hu⟩ : ∃ u, u = mclkShown port v s := ⟨_, rfl⟩
    rw [← hu] at hflag hdiv hregs
    have hn : ∀ p : Fin 4, POWER_STATUS.ON.addr ∉ [(INGEST_MCLK.DIV p).addr] ∧ (INGEST_MCLK.DIV p).addr ≠ CALL_OVERFLOW.COUNT.addr ∧
        POWER_STATUS.ON.addr ≠ CALL_OVERFLOW.COUNT.addr := by decide
    obtain ⟨hp, hc, hpc⟩ := hn port
    have hw : ∀ a, a ≠ CALL_OVERFLOW.COUNT.addr → (postActsAs 3 port (INGEST_MCLK.DIV port).addr u).word a = u.word a :=
      fun a ha => postKind_word 3 3 port (INGEST_MCLK.DIV port).addr u ha
    refine ⟨_, (exec_mclkConfigWrite hon v).trans (if_pos (.inl hlow)), ?_, ?_⟩
    · rw [← hu]
      refine mclkDivider_low hon ((hw _ hpc).trans (hregs.2 _ hp)) ?_ ?_
      · rw [State.flag_of_word (f := INGEST_MCLK.EN port) (hw _ hc), hflag, hen]
      · rw [State.fld_congr_word (f := INGEST_MCLK.DIV port) (hw _ hc), hdiv]
        exact hlow
    · rw [← hu]
      exact fun a ha => (hw a fun h => ha (.tail _ (h ▸ .head _))).trans
        (hregs.2 a fun h => ha ((List.mem_singleton.1 h) ▸ .head _))
  · intro s port b hon
    exact ⟨(busOk 0 s).setFlag (INGEST_SRST.RELEASE port) b, if_pos hon,
      State.flag_setFlag_same _ (INGEST_SRST.RELEASE port) b rfl rfl,
      (onlyRegs_busOk 0 s _).setFld (f := INGEST_SRST.RELEASE port) (.head _) _⟩
  · intro s port grid hon hen hsrc
    have hoff : ¬(s.domainOn (6 + port.val) = false ∨ s.flag (INGEST_XTRIG.EN port) = false ∨ s.fld (INGEST_XTRIG.SRC port) ≠ 0) := by
      rw [hon, hen, hsrc]
      decide
    have hexec : exec (.xtrigScheduled port grid) s = _ := (if_neg hoff : execXtrigScheduled port grid s = _)
    refine ⟨fun h => hexec.trans (if_pos h), fun hg hle hlt => ?_, fun hg hlate => ?_⟩
    · exact hexec.trans ((if_neg (by rw [hg]; simp; omega)).trans (if_neg (Nat.not_le.2 hlt)))
    · have hnow := nowNs_le_units (s := s) (x := s.fld (INGEST_XADV.NS port)) (grid := grid) ((Nat.le_add_right ..).trans hlate)
      refine ⟨s.addFld (INGEST_XTRIG.MISSED port) 1, hexec.trans ((if_neg (by rw [hg]; simp; omega)).trans (if_pos hlate)), ?_, rfl,
        fun a ha => State.word_setFld_ne s (INGEST_XTRIG.MISSED port) _ (List.ne_of_not_mem_cons ha)⟩
      exact State.fld_addFld_same s (INGEST_XTRIG.MISSED port) 1 rfl
  · intro s port hon hen hsrc
    exact (if_pos ⟨hon, hen, hsrc⟩ : execXpulse port s = _)
  · intro s p hp hlo hhi hnone
    refine ⟨?_, rfl⟩
    rw [xtrigPulse, portOf_modPort_same hp, hnone]
    have hc : clamp 1 1000000 (s.fld (INGEST_XTRIG.WIDTH p)) = s.fld (INGEST_XTRIG.WIDTH p) := by
      rw [clamp]
      omega
    rw [hc]
    exact congrArg some (Nat.max_eq_left (Nat.zero_le _))
  · intro s port hend
    have hall : (portOf s port).xtrigEnd.all (fun e => decide (e ≤ s.nowNs)) = true := by
      cases he : (portOf s port).xtrigEnd with
      | none => rfl
      | some e => exact decide_eq_true (hend e he)
    refine ⟨modPort port (fun x => { x with xtrigEnd := none }) s, congrArg Host.Outcome.next (if_pos hall), ?_, rfl⟩
    by_cases hp : port.val < s.ingest.length
    · rw [portOf_modPort_same hp]
    · rw [portOf_none ((length_modPort ..).le.trans (Nat.not_lt.1 hp))]
      rfl
  · intro s ctl v hon hgo hbusy hlo hhi hc
    have hgo' : v.toNat.testBit 31 = true := hgo
    have hg : ¬(s.domainOn (6 + ctl.val) = false ∨ v.toNat.testBit 31 = false) := by
      rw [hon, hgo']
      decide
    have hb : ¬((busOk 0 s).flag (INGEST_SPI_STATUS.BUSY ctl) = true ∨ bits v.toNat 6 0 = 0 ∨ 64 < bits v.toNat 6 0) := by
      rw [low_bits, show (busOk 0 s).flag (INGEST_SPI_STATUS.BUSY ctl) = false from hbusy]
      simp
      omega
    have h98 : bits v.toNat 9 8 = v.toNat / 256 % 4 := rfl
    refine ⟨_, (if_neg hg : execSpiTransfer ctl v s = _).trans (if_neg hb), State.flag_setFlag_same _ (INGEST_SPI_STATUS.BUSY ctl) true rfl rfl,
      ?_, ?_⟩
    · rw [spiOf_modSpi (s := (busOk 0 s).setFlag (INGEST_SPI_STATUS.BUSY ctl) true) hc, h98, low_bits]
      rfl
    · obtain ⟨hs, hr⟩ := (onlyRegs_busOk 0 s [(INGEST_SPI_STATUS.BUSY ctl).addr]).setFld (f := INGEST_SPI_STATUS.BUSY ctl) (.head _) (boolNat true)
      exact ⟨rfl, fun a ha => hr a ha⟩
  · exact fun s ctl rx cs len hj hr hlen hrx => spiTransferDone_ends hj hr hlen hrx
  · intro s ctl off w len hscript hoff hw hlen hlo hhi hend
    have hc : ctl.val < s.ingest.length := ingest_lt fun h => by
      have hnone : (spiOf s ctl).script = none := congrArg (fun p : IngestPort => p.spi.script) h
      rw [hnone] at hscript
      cases hscript
    have h60 : bits w 6 0 = len := (low_bits w 6).trans hlen.symm
    have h15 : bits w 15 14 = w / 2 ^ 14 % 4 := rfl
    have hexec : exec (.spiScriptEntry ctl) s = .next (modSpi ctl (fun k => { k with
        script := some (off + 4 + roundUp len 4)
        driven := some (spiWire s ctl (w / 2 ^ 14 % 4) (readList 0 (s.table 0x04 (4 + ctl.val)) (off + 4) len)) }) s) := by
      show execSpiScriptEntry ctl s = _
      unfold execSpiScriptEntry
      simp only [hscript, ← hw, h60, h15]
      rw [if_neg (by omega), if_neg (by omega), if_neg (by omega)]
    exact ⟨_, hexec, spiOf_modSpi hc _, rfl⟩
  · intro s ctl off hscript hoff hlen hdue
    have h60 : bits (s.tab 0x04 (4 + ctl.val) off 4) 6 0 = 0 := by
      rw [low_bits]
      exact hlen
    obtain ⟨v, hv⟩ : ∃ v, v = (modSpi ctl (fun k => { k with script := none }) s).setFlag (INGEST_SPI_STATUS.SCRIPT_RUN ctl) false := ⟨_, rfl⟩
    have hexec : exec (.spiScriptEntry ctl) s = .next (spiNext ctl v) := by
      rw [hv]
      show execSpiScriptEntry ctl s = _
      unfold execSpiScriptEntry
      simp only [hscript, h60]
      exact (if_neg (by omega)).trans (if_pos trivial)
    have hc : ctl.val < s.ingest.length := ingest_lt fun h => by
      have hnone : (spiOf s ctl).script = none := congrArg (fun p : IngestPort => p.spi.script) h
      rw [hnone] at hscript
      cases hscript
    have hspi : spiOf v ctl = { spiOf s ctl with script := none } := by
      rw [hv]
      exact (spiOf_modSpi hc (fun k => { k with script := none }) :)
    have hrun : v.flag (INGEST_SPI_STATUS.SCRIPT_RUN ctl) = false := by
      rw [hv]
      exact State.flag_setFlag_same _ (INGEST_SPI_STATUS.SCRIPT_RUN ctl) false rfl rfl
    have hvr : RegsBut s v [(INGEST_SPI_STATUS.SCRIPT_RUN ctl).addr] := by
      rw [hv]
      exact (RegsBut.of_regs (t := modSpi ctl (fun k => { k with script := none }) s) rfl _).setFld
        (f := INGEST_SPI_STATUS.SCRIPT_RUN ctl) (.head _) _
    have hvs : v = { s with regs := v.regs, ingest := v.ingest } := by
      rw [hv]
      rfl
    obtain ⟨hnext, hnscript⟩ := spiNext_shown (s := v) (c := ctl) (by rw [hspi]; exact hdue)
    refine ⟨_, hexec, ?_, ?_, ?_, ?_⟩
    · rw [hnext]
      exact hrun
    · rw [hnscript, hspi]
    · rw [hnext, hvs]
    · rw [hnext]
      exact fun a ha => hvr a ha
  · intro s c hoff
    exact (if_neg (by rw [hoff]; decide) : spiIdle s c = _)
  · exact fun t hcs => ⟨length_levels t, levels_csN t, fun i hi => levels_bit t hi⟩

end Sys2Proof.Machine
end

section
/-! PROOFS. Frames in the pixel pipeline: they begin, take grants, and advance slice by slice (R142, R144, R168 to R172). -/

namespace Sys2Proof.Machine

/-! ### Ports of the pipeline -/

theorem pipePort_modPipePort_same {s : State} {p : Nat} (h : p < s.pipe.ports.length) (f : PipePort → PipePort) :
    pipePort (modPipePort p f s) p = f (pipePort s p) := by
  show ((modAt s.pipe.ports p f)[p]?).getD pipePortInit = f ((s.pipe.ports[p]?).getD pipePortInit)
  rw [getElem?_modAt, if_pos rfl, List.getElem?_eq_getElem h]
  rfl

theorem pipePort_modPipePort_ne {p q : Nat} (h : q ≠ p) (f : PipePort → PipePort) (s : State) :
    pipePort (modPipePort p f s) q = pipePort s q := by
  show ((modAt s.pipe.ports p f)[q]?).getD pipePortInit = (s.pipe.ports[q]?).getD pipePortInit
  rw [getElem?_modAt, if_neg h]

theorem length_modPipePort (p : Nat) (f : PipePort → PipePort) (s : State) :
    (modPipePort p f s).pipe.ports.length = s.pipe.ports.length := length_modAt ..

theorem pipePort_of_ports {s t : State} (h : t.pipe.ports = s.pipe.ports) (p : Nat) : pipePort t p = pipePort s p := by
  rw [pipePort, pipePort, h]

theorem pipePorts_lt {s : State} {p : Nat} (h : pipePort s p ≠ pipePortInit) : p < s.pipe.ports.length := by
  by_contra hn
  exact h (by rw [pipePort, List.getElem?_eq_none (Nat.not_lt.1 hn)]; rfl)

theorem pipeJob_lt {s : State} {p : Nat} {j : PipeJob} (h : (pipePort s p).job = some j) : p < s.pipe.ports.length :=
  pipePorts_lt fun hi => by
    rw [hi] at h
    cases h

theorem Stored.pipe {s t : State} (h : Stored s t) : t.pipe = s.pipe := by rw [h.state]

section PipeFlag

variable (f : Fld) {cls : EventClass} (hc : cls ≠ .fatal) (p : Nat) (s : State)

include hc

theorem pipeFlag_frame : ∃ r c l, pipeFlag f cls p s = { s with regs := r, call := c, ledger := l } := by
  obtain ⟨r, c, l, h, -⟩ := postEvent_frame (e := { cls := cls, block := 4, cause := f.lo, inst := p, detail := 0 }) hc
    (s.orBit f (f.lo - f.lo))
  rw [pipeFlag, postFlag, h]
  exact ⟨_, _, _, rfl⟩

theorem pipeFlag_pipe : (pipeFlag f cls p s).pipe = s.pipe := by
  obtain ⟨r, c, l, h⟩ := pipeFlag_frame f hc p s
  rw [h]

theorem pipeFlag_stores : (pipeFlag f cls p s).stores = s.stores := by
  obtain ⟨r, c, l, h⟩ := pipeFlag_frame f hc p s
  rw [h]
  rfl

theorem pipeFlag_word {a : Nat} (ha : a ≠ f.addr) (ho : a ≠ CALL_OVERFLOW.COUNT.addr) : (pipeFlag f cls p s).word a = s.word a :=
  (postEvent_word (e := { cls := cls, block := 4, cause := f.lo, inst := p, detail := 0 }) hc (s.orBit f (f.lo - f.lo)) ho).trans
    (State.word_setFld_ne s f _ ha)

theorem pipeFlag_flag (hf : f.fits = true) (hw : f.width = 1) (ho : f.addr ≠ CALL_OVERFLOW.COUNT.addr) :
    (pipeFlag f cls p s).flag f = true := by
  rw [pipeFlag, postFlag, State.flag_postEvent hc _ ho, Nat.sub_self]
  exact State.flag_orBit_zero s f hf hw

end PipeFlag

/-! ### What leaves the jobs and the queues of the pipeline -/

/-- The frames of each port of the pipeline, and the registers below its block, are those of `s`. -/
structure PipeKeeps (s t : State) : Prop where
  ports : ∀ p, (pipePort t p).waiting = (pipePort s p).waiting ∧ (pipePort t p).job = (pipePort s p).job
  length : t.pipe.ports.length = s.pipe.ports.length
  regs : ∀ a < 0x80000, t.word a = s.word a

namespace PipeKeeps

variable {s t u : State}

theorem refl (s : State) : PipeKeeps s s := ⟨fun _ => ⟨rfl, rfl⟩, rfl, fun _ _ => rfl⟩

theorem trans (h : PipeKeeps s t) (h' : PipeKeeps t u) : PipeKeeps s u :=
  ⟨fun p => ⟨(h'.ports p).1.trans (h.ports p).1, (h'.ports p).2.trans (h.ports p).2⟩, h'.length.trans h.length,
    fun a ha => (h'.regs a ha).trans (h.regs a ha)⟩

theorem of_ports (hp : t.pipe.ports = s.pipe.ports) (hr : ∀ a < 0x80000, t.word a = s.word a) : PipeKeeps s t :=
  ⟨fun p => by rw [pipePort_of_ports hp]; exact ⟨rfl, rfl⟩, by rw [hp], hr⟩

theorem setFld (h : PipeKeeps s t) (f : Fld) (hf : 0x80000 ≤ f.addr) (n : Nat) : PipeKeeps s (t.setFld f n) :=
  h.trans (of_ports rfl fun a ha => State.word_setFld_ne t f n (a := a) (by omega))

theorem modBufs (p : Nat) (f : PipePort → PipePort) (hw : ∀ x, (f x).waiting = x.waiting) (hj : ∀ x, (f x).job = x.job) (s : State) :
    PipeKeeps s (modPipePort p f s) := by
  refine ⟨fun q => ?_, length_modPipePort .., fun _ _ => rfl⟩
  by_cases hq : q = p
  · by_cases hp : p < s.pipe.ports.length
    · rw [hq, pipePort_modPipePort_same hp]
      exact ⟨hw _, hj _⟩
    · have hout : ∀ t : State, t.pipe.ports.length = s.pipe.ports.length → pipePort t q = pipePortInit := fun t ht => by
        by_contra hne
        exact hp (hq ▸ ht ▸ pipePorts_lt hne)
      rw [hout _ (length_modPipePort p f s), hout s rfl]
      exact ⟨rfl, rfl⟩
  · rw [pipePort_modPipePort_ne hq]
    exact ⟨rfl, rfl⟩

theorem postFlag {f : Fld} (hf : 0x80000 ≤ f.addr) {cls : EventClass} (hc : cls ≠ .fatal) (n block inst detail : Nat) (s : State) :
    PipeKeeps s (postFlag f n cls block inst detail s) := by
  obtain ⟨u, hu⟩ : ∃ u, u = s.orBit f (n - f.lo) := ⟨_, rfl⟩
  have hk : PipeKeeps s u := hu ▸ (refl s).setFld f hf _
  have hev := postEvent_frame (e := { cls := cls, block := block, cause := n, inst := inst, detail := detail }) hc u
  obtain ⟨r, c, l, h, -⟩ := hev
  rw [Machine.postFlag, ← hu]
  refine hk.trans (of_ports (by rw [h]) fun a ha => postEvent_word hc u ?_)
  show a ≠ 0x580018
  omega

theorem foldl {α : Type} {f : State → α → State} (hf : ∀ s a, PipeKeeps s (f s a)) (l : List α) (s : State) : PipeKeeps s (l.foldl f s) := by
  induction l generalizing s with
  | nil => exact refl s
  | cons a l ih => exact (hf s a).trans (ih (f s a))

theorem showFree (s : State) : PipeKeeps s (showFree s) :=
  ((((refl s).setFld PIPE_BUF_FREE.PORT0 (by decide) _).setFld PIPE_BUF_FREE.PORT1 (by decide) _).setFld PIPE_BUF_FREE.PORT2 (by decide)
    _).setFld PIPE_BUF_FREE.PORT3 (by decide) _

theorem takeBuf {p num k : Nat} (h : takeBuf p num s = some (k, t)) : PipeKeeps s t := by
  unfold Machine.takeBuf at h
  cases hn : nextBuf (pipePort s p).bufs (pipePort s p).lastBuf with
  | none =>
    rw [hn] at h
    cases h
  | some b =>
    rw [hn] at h
    obtain ⟨-, rfl⟩ := Prod.mk.inj (Option.some.inj h)
    have hm : PipeKeeps s (modPipePort p (fun x => { x with bufs := x.bufs.set b (some num), lastBuf := b }) s) :=
      modBufs p (fun x => { x with bufs := x.bufs.set b (some num), lastBuf := b }) (fun _ => rfl) (fun _ => rfl) s
    have hc : PipeKeeps s (creditIssue (11 + p) 1 (modPipePort p (fun x => { x with bufs := x.bufs.set b (some num), lastBuf := b }) s)) :=
      hm.trans (of_ports rfl fun _ _ => rfl)
    exact hc.trans (showFree _)

theorem poolTake {owner k : Nat} (h : poolTake owner s = some (k, t)) : PipeKeeps s t := by
  unfold Machine.poolTake at h
  split at h
  · cases h
  · cases hp : poolLowest s with
    | none =>
      rw [hp] at h
      cases h
    | some b =>
      rw [hp] at h
      obtain ⟨-, rfl⟩ := Prod.mk.inj (Option.some.inj h)
      obtain ⟨u, hu⟩ : ∃ u, u = creditIssue 9 1 (setPool { s.pool with handles := modAt s.pool.handles b (fun x => { x with owner := owner }) } s) :=
        ⟨_, rfl⟩
      have hk : PipeKeeps s u := of_ports (by rw [hu]; rfl) fun a _ => by rw [hu]; rfl
      rw [← hu]
      exact (hk.setFld VIEW_POOL_STATUS.PENDING (by decide) _).setFld VIEW_POOL_STATUS.FREE (by decide) _

theorem releaseBuf (p k : Nat) (s : State) : PipeKeeps s (releaseBuf p k s) := by
  unfold Machine.releaseBuf
  split
  · obtain ⟨u, hu⟩ : ∃ u, u = modPipePort p (fun x => { x with bufs := x.bufs.set k none }) s := ⟨_, rfl⟩
    have hm : PipeKeeps s u := hu ▸ modBufs p (fun x => { x with bufs := x.bufs.set k none }) (fun _ => rfl) (fun _ => rfl) s
    have hc : PipeKeeps u (creditReturn (11 + p) 1 u) := of_ports rfl fun _ _ => rfl
    rw [← hu]
    exact (hm.trans hc).trans (showFree _)
  · exact refl s

theorem heveShow (e : Nat) (s : State) : PipeKeeps s (heveShow e s) := by
  have ha : 0x80000 ≤ (HEVE_STATUS.BUSY e).addr := by
    show 0x80000 ≤ 0x18004c + 0x8000 * e
    omega
  exact ((((refl s).setFld (HEVE_STATUS.BUSY e) ha _).setFld (HEVE_STATUS.BAD_CFG e) ha _).setFld (HEVE_STATUS.OUT_WAITING e) ha
    _).setFld (HEVE_STATUS.WAITING e) ha _

theorem modHeve (e : Nat) (f : HeveEng → HeveEng) (s : State) : PipeKeeps s (modHeve e f s) := of_ports rfl fun _ _ => rfl

theorem heveBad (e : Nat) (s : State) : PipeKeeps s (heveBad e s) := by
  have ha : 0x80000 ≤ (HEVE_EVENT.BAD_CFG e).addr := by
    show 0x80000 ≤ 0x180050 + 0x8000 * e
    omega
  exact ((modHeve e _ s).trans (postFlag ha (by decide) _ _ _ _ _)).trans (heveShow ..)

theorem heveDrop (e : Nat) (s : State) : PipeKeeps s (heveDrop e s) := by
  have ha : 0x80000 ≤ (HEVE_EVENT.DROP e).addr ∧ 0x80000 ≤ (HEVE_CNT_DROP.COUNT e).addr := by
    show 0x80000 ≤ 0x180050 + 0x8000 * e ∧ 0x80000 ≤ 0x180060 + 0x8000 * e
    omega
  unfold Machine.heveDrop
  split
  · exact refl s
  · next old t hw =>
    have hr : PipeKeeps s (Machine.releaseBuf old.port old.buf (Machine.modHeve e (fun h => { h with waiting := t }) s)) :=
      (modHeve e _ s).trans (releaseBuf ..)
    exact ((hr.setFld (HEVE_CNT_DROP.COUNT e) ha.2 _).trans (postFlag ha.1 (by decide) _ _ _ _ _)).trans (heveShow ..)

theorem heveTake (e : Nat) (o : HeadOut) (s : State) : PipeKeeps s (heveTake e o s) := by
  unfold Machine.heveTake
  extract_lets g u
  have hu : PipeKeeps s u := by
    unfold u
    split
    · exact heveBad ..
    · exact refl s
  refine iteInduction (motive := PipeKeeps s) (fun _ => hu.trans (releaseBuf ..)) fun _ => ?_
  exact ((hu.trans (modHeve e _ u)).trans (heveShow e _)).trans (foldl (fun s _ => heveDrop e s) _ _)

theorem handOut (o : HeadOut) (s : State) : PipeKeeps s (handOut o s) := by
  unfold Machine.handOut
  split
  · exact heveTake ..
  · exact of_ports rfl fun _ _ => rfl

theorem takeHead (src : PipeSrc) (h : Nat) (s : State) : PipeKeeps s (takeHead src h s).2 := by
  have hdrop : PipeKeeps s ((s.addFld PIPE_CNT_DROP.COUNT 1).setFlag PIPE_EVENT.DROP true) :=
    ((refl s).setFld PIPE_CNT_DROP.COUNT (by decide) _).setFld PIPE_EVENT.DROP (by decide) _
  unfold Machine.takeHead
  extract_lets p d dropped
  split
  · exact refl s
  · split
    · exact ((refl s).setFld PIPE_CNT_DROP.COUNT (by decide) _).trans (postFlag (f := PIPE_EVENT.DROP) (cls := .warning) (by decide) (by decide) _ _ _ _ _)
    · split
      · split
        · exact hdrop
        · next k u hb =>
          extract_lets a
          exact (takeBuf hb).trans (handOut ..)
      · split
        · exact hdrop
        · next k u hb => exact (poolTake hb).trans (show PipeKeeps u (handPicture 1 p k (poolAddr u k) false src u) from handOut ..)

end PipeKeeps

/-! ### A frame begins -/

theorem firstWaiting_nil {q : PipePort} (h : q.waiting = []) : firstWaiting q = none := by
  rw [firstWaiting, h]
  rfl

theorem writeHeader_stored (j : PipeJob) (h addr : Nat) (a d : Bool) (s : State) : Stored s (writeHeader j h addr a d s) :=
  (Stored.refl s).writeDram _ _

theorem writeHeaders_stored (j : PipeJob) (a d : Bool) (s : State) : Stored s (writeHeaders j a d s) := by
  unfold writeHeaders
  extract_lets t
  have ht : Stored s t := by
    unfold t
    split
    · exact writeHeader_stored ..
    · exact .refl s
  split
  · exact ht.trans (writeHeader_stored ..)
  · exact ht

theorem beginJob_begins {s : State} {p : Nat} {src : PipeSrc} (h : firstWaiting (pipePort s p) = some src) :
    ∃ j u, beginJob p s = writeHeaders j false false ((modPipePort p (fun x => { x with job := some j }) u).orBit PIPE_STATUS.BUSY p) ∧
      PipeKeeps (modPipePort p (fun x => { x with waiting := x.waiting.erase src }) s) u ∧
      j.src = src ∧ j.slice = 0 ∧ j.granted = false ∧ j.epoch = s.fld CUE_EPOCH.EPOCH := by
  generalize ht : beginJob p s = t
  unfold beginJob at ht
  simp -zeta only [h] at ht
  extract_lets v j bad w1 lone w2 at ht
  have h1 : PipeKeeps v (takeHead src 1 (takeHead src 0 v).2).2 := (PipeKeeps.takeHead src 0 v).trans (PipeKeeps.takeHead ..)
  have hdefect : ∀ n, PipeKeeps v (pipeFlag PIPE_EVENT.DEFECT_ORDER .warning p
      ((takeHead src 1 (takeHead src 0 v).2).2.addFld PIPE_CNT_DEFECT.COUNT n)) := fun n =>
    (h1.setFld PIPE_CNT_DEFECT.COUNT (by decide) _).trans
      (.postFlag (f := PIPE_EVENT.DEFECT_ORDER) (cls := .warning) (by decide) (by decide) _ _ _ _ _)
  have hw1 : PipeKeeps v w1 := by
    unfold w1
    split
    · exact hdefect bad
    · exact h1
  have hw2 : PipeKeeps v w2 := by
    unfold w2
    split
    · exact hw1
    · exact hw1.setFld PIPE_CNT_DEFECT.COUNT (by decide) _
  have hepoch : (takeHead src 1 (takeHead src 0 v).2).2.fld CUE_EPOCH.EPOCH = v.fld CUE_EPOCH.EPOCH :=
    State.fld_congr_word (h1.regs _ (by decide))
  exact ⟨j, w2, ht.symm, hw2, rfl, rfl, rfl, hepoch⟩

theorem nextBegin_lt {s : State} {p : Nat} (h : nextBegin s = some p) : p < 4 := by
  have hall : ∀ (l : List Nat) (f : Option Nat → Nat → Option Nat) (b : Option Nat), (∀ b p, f b p = some p ∨ f b p = b) →
      (∀ q ∈ l, q < 4) → (∀ q, b = some q → q < 4) → ∀ q, l.foldl f b = some q → q < 4 := by
    intro l
    induction l with
    | nil => exact fun f b _ _ hb => hb
    | cons a l ih =>
      intro f b hf hl hb
      refine ih f (f b a) hf (fun q hq => hl q (.tail _ hq)) fun q hq => ?_
      rcases hf b a with h | h
      · rw [h] at hq
        exact Option.some.inj hq ▸ hl a (.head _)
      · exact hb q (h ▸ hq)
  refine hall _ _ none (fun b p => ?_) (fun q hq => List.mem_range.1 (List.mem_of_mem_filter hq)) (fun q hq => nomatch hq) p h
  cases b with
  | none => exact .inl rfl
  | some q =>
    show (if _ then some p else some q) = some p ∨ (if _ then some p else some q) = some q
    split
    · exact .inl rfl
    · exact .inr rfl

/-! ### Slices -/

theorem grantedPort_spec {s : State} {p : Nat} {j : PipeJob} (h : grantedPort s = some (p, j)) : p < 4 ∧ (pipePort s p).job = some j := by
  obtain ⟨q, hq, hb⟩ := List.exists_of_findSome?_eq_some h
  cases hj : (pipePort s q).job with
  | none =>
    rw [hj] at hb
    cases hb
  | some i =>
    rw [hj] at hb
    change (if i.granted then some (q, i) else none) = some (p, j) at hb
    split at hb
    · obtain ⟨rfl, rfl⟩ := Prod.mk.inj (Option.some.inj hb)
      exact ⟨List.mem_range.1 hq, hj⟩
    · cases hb

/-- The job behind a slice that is released. -/
def nextSlice (j : PipeJob) : PipeJob :=
  { j with slice := j.slice + 1, granted := false, replaying := false, due := false,
           lines := [linesAfter j 0 j.slice, linesAfter j 1 j.slice] }

/-- The output lines of a slice are written. -/
def slicePut (j : PipeJob) (fill : Bool) (spoiled : Option Nat) (h : Nat) (o : Option (Nat × Nat)) (s : State) : State :=
  match o with
  | some (_, a) => writeLines j h a (j.lines.getD h 0) (linesAfter j h j.slice) fill spoiled s
  | none => s

theorem writeLines_stored (j : PipeJob) (h addr a b : Nat) (fill : Bool) (spoiled : Option Nat) (s : State) :
    Stored s (writeLines j h addr a b fill spoiled s) := by
  unfold writeLines
  extract_lets d ds put t c
  have hput : ∀ x bs (s : State), Stored s (put x bs s) := fun x bs s => (Stored.refl s).writeDram _ _
  have ht : Stored s t := Stored.foldl (fun _ _ => hput ..) _ _
  split
  · exact ht
  · exact ht.trans (Stored.foldl (fun _ _ => hput ..) _ _)

theorem slicePut_stored (j : PipeJob) (fill : Bool) (spoiled : Option Nat) (h : Nat) (o : Option (Nat × Nat)) (s : State) :
    Stored s (slicePut j fill spoiled h o s) := by
  unfold slicePut
  split
  · exact writeLines_stored ..
  · exact .refl s

/-- A slice that is released, before its frame goes on or ends. -/
def sliceWritten (j : PipeJob) (fill : Bool) (spoiled : Option Nat) (s : State) : State :=
  slicePut j fill spoiled 1 j.head1 (slicePut j fill spoiled 0 j.head0 s)

theorem sliceWritten_stored (j : PipeJob) (fill : Bool) (spoiled : Option Nat) (s : State) : Stored s (sliceWritten j fill spoiled s) :=
  (slicePut_stored ..).trans (slicePut_stored ..)

theorem releaseSlice_goes {p : Nat} {j : PipeJob} (hend : j.ended = false) (hs : j.slice + 1 < sliceCount j.src.d.height) (fill : Bool)
    (spoiled : Option Nat) (s : State) : releaseSlice p j fill spoiled s = writeHeaders (nextSlice j) false false
      (modPipePort p (fun x => { x with job := some (nextSlice j) }) (sliceWritten j fill spoiled s)) := by
  have hno : ¬(decide (sliceCount j.src.d.height ≤ j.slice + 1) = true ∨ j.ended = true) := by
    rw [hend]
    simpa using hs
  exact (if_neg hno : releaseSlice p j fill spoiled s = _)

theorem releaseSlice_ends {p : Nat} {j : PipeJob} (hs : sliceCount j.src.d.height ≤ j.slice + 1) (fill : Bool) (spoiled : Option Nat)
    (s : State) : releaseSlice p j fill spoiled s = endJob p (nextSlice j) j.ended (sliceWritten j fill spoiled s) :=
  (if_pos (.inl (decide_eq_true hs)) : releaseSlice p j fill spoiled s = _)

theorem releaseSlice_job {p : Nat} {j : PipeJob} (hend : j.ended = false) (hs : j.slice + 1 < sliceCount j.src.d.height) (fill : Bool)
    (spoiled : Option Nat) {s : State} (hp : p < s.pipe.ports.length) :
    (pipePort (releaseSlice p j fill spoiled s) p).job = some (nextSlice j) ∧ RegsBut s (releaseSlice p j fill spoiled s) checkRegs := by
  obtain ⟨u, hu⟩ : ∃ u, u = sliceWritten j fill spoiled s := ⟨_, rfl⟩
  have hst : Stored s u := hu ▸ sliceWritten_stored ..
  obtain ⟨v, hv⟩ : ∃ v, v = modPipePort p (fun x => { x with job := some (nextSlice j) }) u := ⟨_, rfl⟩
  have hw := writeHeaders_stored (nextSlice j) false false v
  have hvr : RegsBut u v checkRegs := RegsBut.of_regs (by rw [hv]; rfl) _
  have hup : p < u.pipe.ports.length := by rwa [hst.pipe]
  rw [releaseSlice_goes hend hs, ← hu, ← hv]
  refine ⟨?_, (hst.regs.trans hvr).trans hw.regs⟩
  rw [pipePort_of_ports (congrArg PipeState.ports hw.pipe), hv, pipePort_modPipePort_same hup]

theorem reportJob_frame (j : PipeJob) (mask : Nat) (s : State) : ∃ l, reportJob j mask s = { s with ledger := l } := by
  unfold reportJob
  split
  · exact ⟨_, rfl⟩
  · exact ⟨s.ledger, rfl⟩

/-! ### A frame ends -/

theorem busy_clr : ∀ x < 16, ∀ p < 4, ((if x.testBit p then x - 2 ^ p else x) % 16).testBit p = false := by decide

theorem clrBit_busy (s : State) {p : Nat} (hp : p < 4) : ((s.clrBit PIPE_STATUS.BUSY p).fld PIPE_STATUS.BUSY).testBit p = false := by
  have hlt : s.fld PIPE_STATUS.BUSY < 16 := State.fld_lt s PIPE_STATUS.BUSY
  rw [State.clrBit, State.fld_setFld_same _ PIPE_STATUS.BUSY _ (by decide)]
  exact busy_clr _ hlt p hp

theorem viewTakeOne_ports (o : HeadOut) (s : State) : (viewTakeOne o s).pipe.ports = s.pipe.ports := by
  have hchange : ∀ (b : Nat) (f : PoolHandle → PoolHandle) (s : State), (poolChange b f s).pipe = s.pipe := by
    intro b f s
    unfold poolChange
    split
    · rfl
    · extract_lets y freed z u
      split <;> rfl
  have hdirty : ∀ (r : Option PanelRect) (s : State), (viewDirty r s).pipe = s.pipe := by
    intro r s
    unfold viewDirty
    split <;> rfl
  unfold viewTakeOne
  extract_lets fl drop pipe u v view w d
  split
  · rfl
  · have hu : u.pipe.ports = s.pipe.ports := rfl
    split
    · exact (congrArg PipeState.ports (hchange ..)).trans hu
    · have hv : v.pipe = u.pipe := by
        unfold v
        split
        · exact hchange ..
        · rfl
      have hw : w.pipe = v.pipe := rfl
      rw [hdirty, hw, hv]
      exact hu

theorem viewTake_ports (s : State) : (viewTake s).pipe.ports = s.pipe.ports := by
  have hfold : ∀ (l : List HeadOut) (s : State), (l.foldl (fun s o => viewTakeOne o s) s).pipe.ports = s.pipe.ports := by
    intro l
    induction l with
    | nil => exact fun _ => rfl
    | cons o l ih => exact fun s => (ih _).trans (viewTakeOne_ports o s)
  exact hfold _ s

theorem endJob_ended {p : Nat} (hp : p < 4) (j : PipeJob) (a : Bool) {s : State} (hl : p < s.pipe.ports.length) :
    (pipePort (endJob p j a s) p).job = none ∧ ((endJob p j a s).fld PIPE_STATUS.BUSY).testBit p = false := by
  obtain ⟨u, hu⟩ : ∃ u, u = modPipePort p (fun x => { x with job := none }) s := ⟨_, rfl⟩
  obtain ⟨v, hv⟩ : ∃ v, v = (viewTake (writeHeaders j a true u)).clrBit PIPE_STATUS.BUSY p := ⟨_, rfl⟩
  have hvp : v.pipe.ports = u.pipe.ports := by
    rw [hv]
    exact (viewTake_ports _).trans (congrArg PipeState.ports (writeHeaders_stored ..).pipe)
  have hnone : (pipePort v p).job = none := by
    rw [pipePort_of_ports hvp, hu, pipePort_modPipePort_same hl]
  have hbusy : (v.fld PIPE_STATUS.BUSY).testBit p = false := by
    rw [hv]
    exact clrBit_busy _ hp
  have he : endJob p j a s = if a then pipeFlag PIPE_EVENT.SKIP .info p (v.addFld PIPE_CNT_SKIP.COUNT 1) else v := by
    rw [hv, hu, endJob]
  rw [he]
  split
  · constructor
    · rw [pipePort_of_ports (congrArg PipeState.ports (pipeFlag_pipe _ (by decide) p _))]
      exact hnone
    · rw [State.fld_congr_word (f := PIPE_STATUS.BUSY) (pipeFlag_word _ (by decide) p _ (by decide) (by decide)),
        State.addFld, State.fld_congr_word (f := PIPE_STATUS.BUSY) (State.word_setFld_ne v PIPE_CNT_SKIP.COUNT _ (by decide))]
      exact hbusy
  · exact ⟨hnone, hbusy⟩

theorem exec_sliceComplete {s : State} {p : Nat} {j : PipeJob} (hg : grantedPort s = some (p, j)) (hr : s.pipe.refresh = none)
    (hp : slicePoisoned s j = false) : ∃ l i, exec .sliceComplete s = .next (releaseSlice p i false none { s with ledger := l }) ∧
      i = { j with recomputed := j.recomputed || j.replaying } := by
  have hexec : exec .sliceComplete s = .next (if j.replaying then releaseSlice p { j with recomputed := true } false none (reportJob j 0x10 s)
      else releaseSlice p j false none s) := by
    show execSliceComplete s = _
    unfold execSliceComplete
    rw [hg]
    exact congrArg Host.Outcome.next ((if_neg (by rw [hr]; decide)).trans (if_neg (by rw [hp]; decide)))
  obtain ⟨l, hl⟩ := reportJob_frame j 0x10 s
  by_cases hrep : j.replaying = true
  · have hb : (j.recomputed || j.replaying) = true := by rw [hrep, Bool.or_true]
    rw [if_pos hrep, hl] at hexec
    exact ⟨l, _, hexec, by rw [hb]⟩
  · have hb : (j.recomputed || j.replaying) = j.recomputed := by rw [Bool.eq_false_iff.2 hrep, Bool.or_false]
    rw [if_neg hrep] at hexec
    exact ⟨s.ledger, j, hexec, by rw [hb]⟩

/-- Settles O31: a job is taken from the queue of its port, and each slice leaves it at the next one or ends it. -/
theorem pipelineFramesAdvance : Obligations.PipelineFramesAdvance := by
  unfold Obligations.PipelineFramesAdvance
  refine ⟨?_, ?_, ?_, ?_⟩
  · intro s p src hnext hfirst
    obtain ⟨j, u, hbegin, hkeeps, hsrc, hslice, hgranted, hepoch⟩ := beginJob_begins hfirst
    obtain ⟨v, hv⟩ : ∃ v, v = modPipePort p (fun x => { x with job := some j }) u := ⟨_, rfl⟩
    rw [← hv] at hbegin
    have hlen : p < s.pipe.ports.length := pipePorts_lt fun hi => by
      rw [hi] at hfirst
      cases hfirst
    have hulen : p < u.pipe.ports.length := by
      rw [hkeeps.length, length_modPipePort]
      exact hlen
    have hport : pipePort v p = { pipePort u p with job := some j } := hv ▸ pipePort_modPipePort_same hulen _
    have hw := writeHeaders_stored j false false (v.orBit PIPE_STATUS.BUSY p)
    have htp : pipePort (writeHeaders j false false (v.orBit PIPE_STATUS.BUSY p)) p = pipePort v p :=
      pipePort_of_ports (congrArg PipeState.ports hw.pipe) p
    have hexec : exec .pipeFrameBegin s = .next (beginJob p s) := by
      show execPipeFrameBegin s = _
      unfold execPipeFrameBegin
      rw [hnext]
    rw [hbegin] at hexec
    refine ⟨_, j, hexec, ?_, hsrc, hslice, hgranted, hepoch, ?_, ?_⟩
    · rw [htp, hport]
    · rw [htp, hport]
      show (pipePort u p).waiting = _
      rw [(hkeeps.ports p).1, pipePort_modPipePort_same hlen]
    · rw [hw.fld (f := PIPE_STATUS.BUSY) (by decide)]
      exact State.testBit_orBit_same v PIPE_STATUS.BUSY p (by decide) (nextBegin_lt hnext)
  · intro s p j hrefresh hfree hgrant hjob
    have hlen := pipeJob_lt hjob
    have hno : ¬(s.pipe.ports.any (fun q => q.job.any (fun j => j.granted)) = true ∨ s.pipe.refresh.isSome = true) := by
      rw [hrefresh]
      intro h
      obtain ⟨q, hq, hg⟩ := List.any_eq_true.1 (h.resolve_right (by decide))
      cases hi : q.job with
      | none =>
        rw [hi] at hg
        cases hg
      | some i =>
        rw [hi] at hg
        exact absurd (hfree q hq i hi) (by rw [show i.granted = true from hg]; decide)
    obtain ⟨run, hexec⟩ : ∃ run, exec .sliceGrant s = .next (modPipePort p (fun x => { x with job := x.job.map (fun j => { j with granted := true }) })
        (setPipe { s.pipe with turn := p, run := run } s)) := by
      refine ⟨if p = s.pipe.turn ∧ s.pipe.run < max 1 (s.fld (PIPE_PORT.WEIGHT p)) then s.pipe.run + 1 else 1,
        (if_neg hno : execSliceGrant s = _).trans ?_⟩
      rw [hgrant]
    have hsame := pipePort_modPipePort_same (s := setPipe { s.pipe with turn := p, run := run } s) hlen
      (fun x => { x with job := x.job.map (fun j => { j with granted := true }) })
    refine ⟨_, hexec, ?_, rfl, fun q hq => pipePort_modPipePort_ne hq _ _, rfl, fun _ _ => rfl⟩
    rw [hsame]
    show (pipePort s p).job.map _ = _
    rw [hjob]
    rfl
  · intro s p j hg hr hend hp hs
    obtain ⟨l, i, hexec, hi⟩ := exec_sliceComplete hg hr hp
    obtain ⟨-, hjob⟩ := grantedPort_spec hg
    have hie : i.ended = false := by
      rw [hi]
      exact hend
    have his : i.slice + 1 < sliceCount i.src.d.height := by
      rw [hi]
      exact hs
    obtain ⟨hnext, -⟩ := releaseSlice_job hie his false none (s := { s with ledger := l }) (pipeJob_lt hjob)
    refine ⟨_, _, hexec, hnext, ?_⟩
    rw [hi]
    exact ⟨rfl, rfl, rfl, rfl, rfl⟩
  · intro s p j hg hr hp hs
    obtain ⟨l, i, hexec, hi⟩ := exec_sliceComplete hg hr hp
    obtain ⟨hlt, hjob⟩ := grantedPort_spec hg
    have hsi : sliceCount i.src.d.height ≤ i.slice + 1 := by
      rw [hi]
      exact hs
    rw [releaseSlice_ends hsi] at hexec
    have hlen : p < (sliceWritten i false none { s with ledger := l }).pipe.ports.length := by
      rw [(sliceWritten_stored ..).pipe]
      exact pipeJob_lt hjob
    exact ⟨_, hexec, endJob_ended hlt _ _ hlen⟩

end Sys2Proof.Machine
end

section
/-! PROOFS. Detections in the pixel pipeline, returned buffers and the commands of the cells (R165 to R175, R185, R203, R206). -/

namespace Sys2Proof.Machine

/-! ### A replay -/

/-- Frame `j` of port `p` with its slice replayed once more (R169). -/
def sliceReplayed (p : Nat) (j : PipeJob) (s : State) : State :=
  modPipePort p (fun x => { x with job := some { j with replaying := true, spent := j.spent + 1 } })
    (pipeFlag PIPE_EVENT.REPLAY .info p (s.addFld PIPE_CNT_REPLAY.COUNT 1))

theorem detectSlice_replays {p : Nat} {j : PipeJob} (hr : j.replaying = false) (hs : j.spent < ceilDiv (sliceCount j.src.d.height) 64)
    (s : State) : detectSlice p j s = sliceReplayed p j s := (if_pos ⟨hr, hs⟩ : detectSlice p j s = _)

/-- The registers of a replay. -/
def replayRegs : List Nat := [PIPE_CNT_REPLAY.COUNT.addr, PIPE_EVENT.REPLAY.addr] ++ eventRegs

theorem sliceReplayed_shown {p : Nat} {j : PipeJob} {s : State} (hp : p < s.pipe.ports.length) :
    (pipePort (sliceReplayed p j s) p).job = some { j with replaying := true, spent := j.spent + 1 } ∧
      (sliceReplayed p j s).fld PIPE_CNT_REPLAY.COUNT =
        min (2 ^ PIPE_CNT_REPLAY.COUNT.width - 1) (s.fld PIPE_CNT_REPLAY.COUNT + 1) ∧
      (sliceReplayed p j s).flag PIPE_EVENT.REPLAY = true ∧ RegsBut s (sliceReplayed p j s) replayRegs ∧
      (sliceReplayed p j s).stores = s.stores ∧ (sliceReplayed p j s).pipe.refresh = s.pipe.refresh := by
  obtain ⟨u, hu⟩ : ∃ u, u = s.addFld PIPE_CNT_REPLAY.COUNT 1 := ⟨_, rfl⟩
  obtain ⟨v, hv⟩ : ∃ v, v = pipeFlag PIPE_EVENT.REPLAY .info p u := ⟨_, rfl⟩
  obtain ⟨x, hx⟩ : ∃ x, x = modPipePort p (fun x => { x with job := some { j with replaying := true, spent := j.spent + 1 } }) v := ⟨_, rfl⟩
  have he : sliceReplayed p j s = x := by rw [hx, hv, hu, sliceReplayed]
  have hvp : v.pipe = s.pipe := by
    rw [hv, pipeFlag_pipe _ (by decide), hu]
    rfl
  have hxw : ∀ a, x.word a = v.word a := fun a => by
    rw [hx]
    rfl
  have hvw : ∀ {a}, a ≠ PIPE_EVENT.REPLAY.addr → a ≠ CALL_OVERFLOW.COUNT.addr → v.word a = u.word a := fun ha ho =>
    hv ▸ pipeFlag_word PIPE_EVENT.REPLAY (by decide) p u ha ho
  rw [he]
  refine ⟨?_, ?_, ?_, ?_, ?_, ?_⟩
  · rw [hx, pipePort_modPipePort_same (by rwa [hvp])]
  · rw [State.fld_congr_word ((hxw _).trans (hvw (by decide) (by decide))), hu]
    exact State.fld_addFld_same s PIPE_CNT_REPLAY.COUNT 1 (by decide)
  · rw [State.flag_of_word (hxw _), hv]
    exact pipeFlag_flag PIPE_EVENT.REPLAY (by decide) p u (by decide) (by decide) (by decide)
  · intro a ha
    refine (hxw a).trans ((hvw ?_ ?_).trans ?_)
    · exact fun h => ha (h ▸ .tail _ (.head _))
    · exact fun h => ha (h ▸ .tail _ (.tail _ (.head _)))
    · rw [hu]
      exact State.word_setFld_ne s PIPE_CNT_REPLAY.COUNT _ fun h => ha (h ▸ .head _)
  · have hst : x.stores = v.stores := by
      rw [hx]
      rfl
    rw [hst, hv, pipeFlag_stores _ (by decide), hu]
    rfl
  · have hxr : x.pipe.refresh = v.pipe.refresh := by
      rw [hx]
      rfl
    rw [hxr, hvp]

theorem exec_pipeDetection {s : State} {p : Nat} {j : PipeJob} (h : grantedPort s = some (p, j)) :
    exec (.pipeDetection none) s = .next (detectSlice p j s) := by
  show execPipeDetection none s = _
  unfold execPipeDetection
  rw [h]

theorem exec_pipeDetection_table {s : State} {p : Nat} {j : PipeJob} (h : grantedPort s = some (p, j)) (n : Fin 8) :
    exec (.pipeDetection (some n)) s = .next (detectSlice p j (startRefresh p n s)) := by
  show execPipeDetection (some n) s = _
  unfold execPipeDetection
  rw [h]

theorem exec_sliceGrant_refreshing {s : State} (h : s.pipe.refresh.isSome = true) : exec .sliceGrant s = .next s :=
  (if_pos (.inr h) : execSliceGrant s = _)

/-! ### A slice without a replay left -/

/-- Frame `j` with the slice in progress damaged (R170). -/
def jobDamaged (j : PipeJob) : PipeJob := { j with damaged := j.damaged ++ [j.slice], filled := j.filled || j.ctrl 15 }

theorem damageSlice_goes {p : Nat} {j : PipeJob} {s : State} (hp : p < s.pipe.ports.length) (hend : j.ended = false)
    (hs : j.slice + 1 < sliceCount j.src.d.height) : (pipePort (damageSlice p j s) p).job = some (nextSlice (jobDamaged j)) ∧
      (damageSlice p j s).fld PIPE_CNT_DAMAGED.COUNT = min (2 ^ PIPE_CNT_DAMAGED.COUNT.width - 1) (s.fld PIPE_CNT_DAMAGED.COUNT + 1) := by
  obtain ⟨u, hu⟩ : ∃ u, u = s.addFld PIPE_CNT_DAMAGED.COUNT 1 := ⟨_, rfl⟩
  obtain ⟨v, hv⟩ : ∃ v, v = pipeFlag PIPE_EVENT.DAMAGED .warning p u := ⟨_, rfl⟩
  obtain ⟨l, hl⟩ := reportJob_frame j 0x20 v
  obtain ⟨x, hx⟩ : ∃ x : State, x = { v with ledger := l, free := v.free + 1 } := ⟨_, rfl⟩
  obtain ⟨i, hi⟩ : ∃ i, i = jobDamaged j := ⟨_, rfl⟩
  have he : ∃ sp, damageSlice p j s = releaseSlice p i (j.ctrl 15) sp x := by
    unfold damageSlice
    rw [← hu, ← hv]
    show ∃ sp, releaseSlice p (jobDamaged j) (j.ctrl 15) _ { reportJob j 0x20 v with free := (reportJob j 0x20 v).free + 1 } = _
    rw [hl, ← hi, ← hx]
    exact ⟨_, rfl⟩
  obtain ⟨sp, he⟩ := he
  have hxp : x.pipe = s.pipe := by
    have hxv : x.pipe = v.pipe := by rw [hx]
    rw [hxv, hv, pipeFlag_pipe _ (by decide), hu]
    rfl
  have hxw : ∀ a, x.word a = v.word a := fun a => by
    rw [hx]
    rfl
  have hie : i.ended = false := by
    rw [hi]
    exact hend
  have his : i.slice + 1 < sliceCount i.src.d.height := by
    rw [hi]
    exact hs
  obtain ⟨hjob, hregs⟩ := releaseSlice_job hie his (j.ctrl 15) sp (p := p) (s := x) (by rwa [hxp])
  rw [he, ← hi]
  refine ⟨hjob, ?_⟩
  have hcount : v.word PIPE_CNT_DAMAGED.COUNT.addr = u.word PIPE_CNT_DAMAGED.COUNT.addr :=
    hv ▸ pipeFlag_word PIPE_EVENT.DAMAGED (by decide) p u (by decide) (by decide)
  rw [State.fld_congr_word ((hregs _ (by decide)).trans ((hxw _).trans hcount)), hu]
  exact State.fld_addFld_same s PIPE_CNT_DAMAGED.COUNT 1 (by decide)

theorem detectSlice_damages {p : Nat} {j : PipeJob} {s : State} (hr : j.replaying = true) (href : s.pipe.refresh = none) :
    detectSlice p j s = damageSlice p j s :=
  (if_neg (by rw [hr]; exact fun h => absurd h.1 (by decide)) : detectSlice p j s = _).trans (if_neg (by rw [href]; decide))

/-! ### Buffers of head 0 -/

theorem showFree_regs (s : State) : RegsBut s (showFree s) [PIPE_BUF_FREE.PORT0.addr] :=
  ((((RegsBut.refl s _).setFld (f := PIPE_BUF_FREE.PORT0) (.head _) _).setFld (f := PIPE_BUF_FREE.PORT1) (.head _) _).setFld
    (f := PIPE_BUF_FREE.PORT2) (.head _) _).setFld (f := PIPE_BUF_FREE.PORT3) (.head _) _

theorem showFree_pipe (s : State) : (showFree s).pipe = s.pipe := rfl

theorem showFree_stores (s : State) : (showFree s).stores = s.stores := rfl

theorem releaseBuf_returned {s : State} {p k n : Nat} (h : (pipePort s p).bufs[k]? = some (some n)) :
    (pipePort (releaseBuf p k s) p).bufs = (pipePort s p).bufs.set k none ∧
      (∀ q, q ≠ p → pipePort (releaseBuf p k s) q = pipePort s q) ∧ RegsBut s (releaseBuf p k s) [PIPE_BUF_FREE.PORT0.addr] ∧
      (releaseBuf p k s).stores = s.stores := by
  have hlen : p < s.pipe.ports.length := pipePorts_lt fun hi => by
    rw [hi] at h
    cases h
  obtain ⟨u, hu⟩ : ∃ u, u = modPipePort p (fun x => { x with bufs := x.bufs.set k none }) s := ⟨_, rfl⟩
  obtain ⟨v, hv⟩ : ∃ v, v = creditReturn (11 + p) 1 u := ⟨_, rfl⟩
  have he : releaseBuf p k s = showFree v := by
    unfold releaseBuf
    rw [h, hv, hu]
  have hvp : v.pipe = u.pipe := by
    rw [hv]
    rfl
  have hpp : ∀ q, pipePort (showFree v) q = pipePort u q := fun q =>
    pipePort_of_ports (congrArg PipeState.ports ((showFree_pipe v).trans hvp)) q
  have hvr : RegsBut s v [PIPE_BUF_FREE.PORT0.addr] := RegsBut.of_regs (by rw [hv, hu]; rfl) _
  have hvs : v.stores = s.stores := by
    rw [hv, hu]
    rfl
  rw [he]
  refine ⟨?_, fun q hq => ?_, hvr.trans (showFree_regs v), (showFree_stores v).trans hvs⟩
  · rw [hpp, hu, pipePort_modPipePort_same hlen]
  · rw [hpp, hu, pipePort_modPipePort_ne hq]

/-! ### Counters -/

theorem State.fld_setFld_zero {s : State} {f : Fld} (h : f.fits = true) : (s.setFld f 0).fld f = 0 := by
  rw [State.fld_setFld_same _ _ _ h]
  exact Nat.zero_mod _

theorem State.fld_setFld_apart_zero {s : State} {f g : Fld} (hg : g.fits = true) (ha : f.apart g = true) (n : Nat) (h : s.fld f = 0) :
    (s.setFld g n).fld f = 0 := (State.fld_setFld_apart s f g n hg ha).trans h

/-- The counters of the pipeline at 0 (R175). -/
def pipeCleared (s : State) : State :=
  ((((s.setFld PIPE_CNT_REPLAY.COUNT 0).setFld PIPE_CNT_DAMAGED.COUNT 0).setFld PIPE_CNT_SKIP.COUNT 0).setFld PIPE_CNT_DROP.COUNT 0).setFld
    PIPE_CNT_DEFECT.COUNT 0

theorem pipeCleared_zero (s : State) : (pipeCleared s).fld PIPE_CNT_REPLAY.COUNT = 0 ∧ (pipeCleared s).fld PIPE_CNT_DAMAGED.COUNT = 0 ∧
    (pipeCleared s).fld PIPE_CNT_SKIP.COUNT = 0 ∧ (pipeCleared s).fld PIPE_CNT_DROP.COUNT = 0 ∧
    (pipeCleared s).fld PIPE_CNT_DEFECT.COUNT = 0 := by
  refine ⟨?_, ?_, ?_, ?_, State.fld_setFld_zero (by decide)⟩
  · exact State.fld_setFld_apart_zero (by decide) (by decide) _ (State.fld_setFld_apart_zero (by decide) (by decide) _
      (State.fld_setFld_apart_zero (by decide) (by decide) _ (State.fld_setFld_apart_zero (by decide) (by decide) _
        (State.fld_setFld_zero (by decide)))))
  · exact State.fld_setFld_apart_zero (by decide) (by decide) _ (State.fld_setFld_apart_zero (by decide) (by decide) _
      (State.fld_setFld_apart_zero (by decide) (by decide) _ (State.fld_setFld_zero (by decide))))
  · exact State.fld_setFld_apart_zero (by decide) (by decide) _ (State.fld_setFld_apart_zero (by decide) (by decide) _
      (State.fld_setFld_zero (by decide)))
  · exact State.fld_setFld_apart_zero (by decide) (by decide) _ (State.fld_setFld_zero (by decide))

/-! ### The cell window -/

theorem busError_postOther (off : Nat) (s : State) : ∃ t, t = postOther .warning 5 0xFF off (busError s) ∧ t.sys.bus.error = true ∧
    t.cell = s.cell ∧ RegsBut s t eventRegs ∧ t.stores = s.stores := by
  obtain ⟨r, c, l, hp, -⟩ := postEvent_frame (e := { cls := .warning, block := 5, cause := 0x3FF, inst := 0xFF, detail := off })
    (fun h => nomatch h) (busError s)
  refine ⟨_, rfl, ?_, ?_, fun a ha => ?_, ?_⟩
  · rw [postOther, hp]
    rfl
  · rw [postOther, hp]
    rfl
  · exact postEvent_word (e := { cls := .warning, block := 5, cause := 0x3FF, inst := 0xFF, detail := off }) (fun h => nomatch h)
      (busError s) fun h => ha (h ▸ .head _)
  · rw [postOther, hp]
    rfl

/-- Settles O32: a detection replays the slice or damages it, and the other commands act on their own registers. -/
theorem pipelineDetectionsAndCells : Obligations.PipelineDetectionsAndCells := by
  unfold Obligations.PipelineDetectionsAndCells
  refine ⟨?_, ?_, ?_, ?_, ?_, ?_, ?_, ?_, ?_⟩
  · intro s p j hg hr hs
    obtain ⟨hjob, hcount, hflag, hregs, hstores, -⟩ := sliceReplayed_shown (p := p) (j := j) (pipeJob_lt (grantedPort_spec hg).2)
    exact ⟨_, (exec_pipeDetection hg).trans (congrArg Host.Outcome.next (detectSlice_replays hr hs s)), hjob, hcount, hflag, hregs,
      sameMemory_of_stores hstores⟩
  · intro s p j hg hr hend href hs
    obtain ⟨hjob, hcount⟩ := damageSlice_goes (pipeJob_lt (grantedPort_spec hg).2) hend hs
    exact ⟨_, _, (exec_pipeDetection hg).trans (congrArg Host.Outcome.next (detectSlice_damages hr href)), hjob, rfl, rfl, rfl, hcount⟩
  · intro s p j n hg hr hs
    obtain ⟨u, hu⟩ : ∃ u, u = (setPipe { s.pipe with refresh := some { port := p, table := n } } s).setFlag PIPE_STATUS.TABLE_REFRESH true :=
      ⟨_, rfl⟩
    obtain ⟨v, hv⟩ : ∃ v, v = startRefresh p n s := ⟨_, rfl⟩
    have hve : v = pipeFlag PIPE_EVENT.TABLE_PARITY .recoverable p u := by rw [hv, hu, startRefresh]
    have hvp : v.pipe = { s.pipe with refresh := some { port := p, table := n } } := by
      rw [hve, pipeFlag_pipe _ (by decide), hu]
      rfl
    have hshown : v.flag PIPE_STATUS.TABLE_REFRESH = true := by
      rw [hve, State.flag_of_word (f := PIPE_STATUS.TABLE_REFRESH) (pipeFlag_word _ (by decide) p u (by decide) (by decide)), hu]
      exact State.flag_setFlag_same _ PIPE_STATUS.TABLE_REFRESH true (by decide) (by decide)
    have hlen : p < v.pipe.ports.length := by
      rw [hvp]
      exact pipeJob_lt (grantedPort_spec hg).2
    obtain ⟨-, -, -, hregs, -, href⟩ := sliceReplayed_shown (j := j) hlen
    have hrefresh := href.trans (congrArg PipeState.refresh hvp)
    refine ⟨_, (exec_pipeDetection_table hg n).trans (congrArg Host.Outcome.next (detectSlice_replays hr hs _)), ?_, ?_, ?_⟩
    · rw [← hv]
      exact hrefresh
    · rw [← hv, State.flag_of_word (hregs _ (by decide))]
      exact hshown
    · rw [← hv]
      exact exec_sliceGrant_refreshing (by rw [hrefresh]; rfl)
  · intro s hdue
    obtain ⟨u, hu⟩ : ∃ u, u = (setPipe { s.pipe with refresh := none } s).setFlag PIPE_STATUS.TABLE_REFRESH false := ⟨_, rfl⟩
    have hg : grantedPort u = grantedPort s := by
      rw [hu]
      rfl
    have hexec : exec .tableRefreshDone s = .next u := by
      show execTableRefreshDone s = _
      unfold execTableRefreshDone
      rw [← hu]
      show (match grantedPort u with
        | some (p, j) => Host.Outcome.next (if j.due then damageSlice p j u else u)
        | none => .next u) = _
      rw [hg]
      cases h : grantedPort s with
      | none => rfl
      | some q =>
        obtain ⟨p, j⟩ := q
        exact congrArg Host.Outcome.next (if_neg (by rw [hdue p j h]; decide))
    refine ⟨u, hexec, ?_, ?_, ?_, ?_⟩
    · rw [hu]
      rfl
    · rw [hu]
      exact State.flag_setFlag_same _ PIPE_STATUS.TABLE_REFRESH false (by decide) (by decide)
    · rw [hu]
      rfl
    · intro a ha
      rw [hu]
      exact State.word_setFld_ne (setPipe { s.pipe with refresh := none } s) PIPE_STATUS.TABLE_REFRESH _ (List.ne_of_not_mem_cons ha)
  · intro s port buf n hb
    obtain ⟨hbufs, hother, hregs, hstores⟩ := releaseBuf_returned (s := setPipe { s.pipe with
      out := s.pipe.out.filter (fun o => !(o.head == 0 && o.port == port.val && o.buf == buf.val)) } s) hb
    exact ⟨_, rfl, hbufs, hother, hregs, sameMemory_of_stores hstores⟩
  · intro s hon
    have hon' : pipePowered (busOk 0 s) = true := hon
    obtain ⟨h1, h2, h3, h4, h5⟩ := pipeCleared_zero (busOk 0 s)
    refine ⟨pipeCleared (busOk 0 s), if_pos hon', h1, h2, h3, h4, h5, ?_⟩
    exact (((((onlyRegs_busOk 0 s _).setFld (f := PIPE_CNT_REPLAY.COUNT) (.head _) _).setFld (f := PIPE_CNT_DAMAGED.COUNT) (.tail _ (.head _))
      _).setFld (f := PIPE_CNT_SKIP.COUNT) (.tail _ (.tail _ (.head _))) _).setFld (f := PIPE_CNT_DROP.COUNT)
        (.tail _ (.tail _ (.tail _ (.head _)))) _).setFld (f := PIPE_CNT_DEFECT.COUNT) (.tail _ (.tail _ (.tail _ (.tail _ (.head _))))) _
  · intro s hon
    exact (if_pos hon : execCellRearm s = _)
  · intro s c addr
    refine ⟨_, rfl, ?_⟩
    by_cases hon : s.domainOn 14 = true
    · obtain ⟨t, ht, herr, hcell, hregs, hstores⟩ := busError_postOther (addr.toNat - 0x10000000) s
      rw [if_pos hon, ← ht]
      exact ⟨herr, hcell, rfl, hregs, sameMemory_of_stores hstores⟩
    · rw [if_neg hon]
      exact ⟨rfl, rfl, rfl, fun _ _ => rfl, sameMemory_of_stores rfl⟩
  · intro s hon
    refine ⟨((busOk 0 s).setFld CELL_CNT_BADCFG.COUNT 0).setFld CELL_CNT_PARITY.COUNT 0, (if_pos hon : execCellCounterClear s = _), ?_,
      State.fld_setFld_zero (by decide), ?_⟩
    · exact State.fld_setFld_apart_zero (by decide) (by decide) _ (State.fld_setFld_zero (by decide))
    · exact ((onlyRegs_busOk 0 s _).setFld (f := CELL_CNT_BADCFG.COUNT) (.head _) _).setFld (f := CELL_CNT_PARITY.COUNT) (.tail _ (.head _)) _

end Sys2Proof.Machine
end

section
/-! PROOFS. What the combiner leaves (R213 to R218), and the trigger pins (R207 to R213). -/

namespace Sys2Proof.Machine

theorem recordEvent_ledger (e : Event) (s : State) : ∃ cs, (recordEvent e s).ledger = { s.ledger with credits := cs } := by
  unfold recordEvent
  cases findCoalesce s e with
  | some q => exact ⟨s.ledger.credits, rfl⟩
  | none =>
    by_cases hq : s.call.queue.length < (if e.cls = .fatal then 64 else 60)
    · exact ⟨_, by simp only [hq, if_true]; rfl⟩
    · exact ⟨s.ledger.credits, by simp only [hq, if_false]; rfl⟩

/-- An event below fatal changes nothing of the ledger but the counts of its credit path. -/
theorem postEvent_ledger {e : Event} (h : e.cls ≠ .fatal) (s : State) : ∃ cs, (postEvent e s).ledger = { s.ledger with credits := cs } := by
  have hr : postEvent e s = recordEvent e s := by simp [postEvent, latchFatal, h]
  rw [hr]
  exact recordEvent_ledger e s

theorem pinOf_modPin_same {s : State} {n : Nat} (h : n < s.ledger.pins.length) (f : PinState → PinState) :
    pinOf (modPin n f s) n = f (pinOf s n) := by
  show ((modAt s.ledger.pins n f)[n]?).getD pinInit = f ((s.ledger.pins[n]?).getD pinInit)
  rw [getElem?_modAt, if_pos rfl, List.getElem?_eq_getElem h]
  rfl

theorem pinOf_modPin_ne {n k : Nat} (h : k ≠ n) (f : PinState → PinState) (s : State) : pinOf (modPin n f s) k = pinOf s k := by
  show ((modAt s.ledger.pins n f)[k]?).getD pinInit = (s.ledger.pins[k]?).getD pinInit
  rw [getElem?_modAt, if_neg h]

theorem length_modPin (n : Nat) (f : PinState → PinState) (s : State) : (modPin n f s).ledger.pins.length = s.ledger.pins.length :=
  length_modAt ..

theorem pinOf_none {s : State} {n : Nat} (h : s.ledger.pins.length ≤ n) : pinOf s n = pinInit := by
  rw [pinOf, List.getElem?_eq_none h]
  rfl

/-! ### What the combiner leaves -/

/-- The registers that a fire changes. -/
def fireRegs : List Nat := [LEDGER_EVENT.FIRE.addr, LEDGER_PIN_STATUS.OUT.addr, CALL_OVERFLOW.COUNT.addr]

/-- What a cycle of the combiner leaves: the inputs, the pins but for their output pulses, and what was to be placed. -/
structure Combined (s t : State) : Prop where
  cue : t.cue = s.cue
  pins : ∀ n, ∃ o, pinOf t n = { pinOf s n with outEnd := o }
  regs : RegsBut s t fireRegs
  status : ∀ f : Fld, f.apart LEDGER_PIN_STATUS.OUT = true → f.apart LEDGER_EVENT.FIRE = true → f.addr ≠ CALL_OVERFLOW.COUNT.addr →
    t.fld f = s.fld f
  sw : t.ledger.sw = s.ledger.sw
  placements : s.ledger.placements ⊆ t.ledger.placements

namespace Combined

variable {s t u : State}

theorem refl (s : State) : Combined s s :=
  ⟨rfl, fun n => ⟨(pinOf s n).outEnd, rfl⟩, .refl s _, fun _ _ _ _ => rfl, rfl, List.Subset.refl _⟩

theorem trans (h : Combined s t) (h' : Combined t u) : Combined s u := by
  refine ⟨h'.cue.trans h.cue, fun n => ?_, h.regs.trans h'.regs, fun f ho hf hc => (h'.status f ho hf hc).trans (h.status f ho hf hc),
    h'.sw.trans h.sw, List.Subset.trans h.placements h'.placements⟩
  obtain ⟨o, ho⟩ := h.pins n
  obtain ⟨o', ho'⟩ := h'.pins n
  exact ⟨o', by rw [ho', ho]⟩

theorem of_same (hc : t.cue = s.cue) (hr : t.regs = s.regs) (hp : t.ledger.pins = s.ledger.pins) (hsw : t.ledger.sw = s.ledger.sw)
    (hpl : s.ledger.placements ⊆ t.ledger.placements) : Combined s t :=
  ⟨hc, fun n => ⟨(pinOf s n).outEnd, by rw [pinOf, pinOf, hp]⟩, .of_regs hr _, fun f _ _ _ => State.fld_congr hr f, hsw, hpl⟩

theorem foldl {α : Type} {f : State → α → State} (hf : ∀ s a, Combined s (f s a)) (l : List α) (s : State) : Combined s (l.foldl f s) := by
  induction l generalizing s with
  | nil => exact refl s
  | cons a l ih => exact (hf s a).trans (ih (f s a))

theorem fire (k : Nat) (s : State) : Combined s (ledgerFlag LEDGER_EVENT.FIRE .info k 0 s) := by
  obtain ⟨u, hu⟩ : ∃ u, u = s.orBit LEDGER_EVENT.FIRE (LEDGER_EVENT.FIRE.lo - LEDGER_EVENT.FIRE.lo) := ⟨_, rfl⟩
  obtain ⟨e, he⟩ : ∃ e : Event, e = { cls := .info, block := 6, cause := LEDGER_EVENT.FIRE.lo, inst := k, detail := 0 } := ⟨_, rfl⟩
  have hcls : e.cls ≠ .fatal := by
    rw [he]
    exact fun h => nomatch h
  have hev : ledgerFlag LEDGER_EVENT.FIRE .info k 0 s = postEvent e u := by rw [he, hu, ledgerFlag, postFlag]
  have hul : u.ledger = s.ledger := by
    rw [hu]
    rfl
  have huc : u.cue = s.cue := by
    rw [hu]
    rfl
  obtain ⟨cs, hl⟩ := postEvent_ledger hcls u
  obtain ⟨r, c, l, hp, -⟩ := postEvent_frame hcls u
  rw [hev]
  refine ⟨?_, fun n => ⟨(pinOf s n).outEnd, ?_⟩, fun a ha => ?_, fun f _ hf hc => ?_, ?_, ?_⟩
  · rw [hp]
    exact huc
  · rw [pinOf, hl, hul]
    rfl
  · refine (postEvent_word (a := a) hcls u fun h => ha (h ▸ .tail _ (.tail _ (.head _)))).trans ?_
    rw [hu]
    exact State.word_setFld_ne s LEDGER_EVENT.FIRE _ fun h => ha (h ▸ .head _)
  · rw [State.fld_congr_word (postEvent_word hcls u hc), hu]
    exact State.fld_setFld_apart s f LEDGER_EVENT.FIRE _ (by decide) hf
  · rw [hl, hul]
  · rw [hl, hul]
    exact List.Subset.refl _

theorem out (n : Nat) (e : Nat) (s : State) : Combined s (modPin n (fun p => { p with outEnd := some (max e (p.outEnd.getD 0)) })
    (s.orBit LEDGER_PIN_STATUS.OUT n)) := by
  obtain ⟨u, hu⟩ : ∃ u, u = s.orBit LEDGER_PIN_STATUS.OUT n := ⟨_, rfl⟩
  have hul : u.ledger = s.ledger := by
    rw [hu]
    rfl
  rw [← hu]
  refine ⟨?_, fun k => ?_, fun a ha => ?_, fun f ho _ _ => ?_, ?_, ?_⟩
  · rw [hu]
    rfl
  · by_cases hk : k = n
    · by_cases hlen : n < u.ledger.pins.length
      · rw [hk, pinOf_modPin_same hlen, pinOf, hul]
        exact ⟨_, rfl⟩
      · rw [pinOf_none (by rw [length_modPin]; omega), pinOf_none (by rw [← hul]; omega)]
        exact ⟨_, rfl⟩
    · rw [pinOf_modPin_ne hk, pinOf, hul]
      exact ⟨_, rfl⟩
  · rw [hu]
    exact State.word_setFld_ne s LEDGER_PIN_STATUS.OUT _ fun h => ha (h ▸ .tail _ (.head _))
  · rw [hu]
    exact State.fld_setFld_apart s f LEDGER_PIN_STATUS.OUT _ (by decide) ho
  · exact (congrArg LedgerState.sw hul :)
  · have hpl : u.ledger.placements = s.ledger.placements := congrArg LedgerState.placements hul
    exact hpl ▸ List.Subset.refl _

theorem drivePins (k : Nat) (s : State) : Combined s (drivePins k s) := by
  refine foldl (fun s n => ?_) _ s
  extract_lets c e
  split
  · exact out n e s
  · exact refl s

end Combined

/-- A fire that is forwarded to the partner holds its place. -/
def fireForwarded (k t : Nat) (s : State) : State :=
  if forwards s k then setKlink { s.klink with order := s.klink.order ++ [.placing k t] } s else s

theorem fireForwarded_combined (k t : Nat) (s : State) : Combined s (fireForwarded k t s) := by
  unfold fireForwarded
  split
  · exact .of_same rfl rfl rfl rfl (List.Subset.refl _)
  · exact .refl s

/-- The placement of a fire of output `k` at time `t`. -/
def firePlacement (k t : Nat) (hints : List (Nat × Nat)) (s : State) : Placement :=
  { out := k, time := t, cfg := readList 0 (s.table 0x10 2) (16 * k) 16, hints := hints,
    ignored := (outCtrl (readList 0 (s.table 0x10 2) (16 * k) 16)).testBit 6 && outputActive s k }

theorem outputFire_placed (k t : Nat) (hints : List (Nat × Nat)) (s : State) : Combined s (outputFire k t hints s) ∧
    firePlacement k t hints s ∈ (outputFire k t hints s).ledger.placements := by
  obtain ⟨f, hf⟩ : ∃ f, f = fireForwarded k t s := ⟨_, rfl⟩
  obtain ⟨u, hu⟩ : ∃ u, u = ledgerFlag LEDGER_EVENT.FIRE .info k 0 f := ⟨_, rfl⟩
  obtain ⟨p, hp⟩ : ∃ p, p = firePlacement k t hints s := ⟨_, rfl⟩
  obtain ⟨v, hv⟩ : ∃ v, v = setLedger { f.ledger with placements := f.ledger.placements ++ [p] } u := ⟨_, rfl⟩
  have he : outputFire k t hints s = drivePins k v := by
    rw [hv, hp, hu, hf]
    rfl
  have hfu : Combined f u := hu ▸ .fire k f
  have huv : Combined f v := by
    rw [hv]
    exact ⟨hfu.cue, fun n => ⟨(pinOf f n).outEnd, rfl⟩, fun a ha => hfu.regs a ha, fun g ho hg hc => hfu.status g ho hg hc, rfl,
      List.subset_append_left ..⟩
  rw [he, ← hp]
  have hd := Combined.drivePins k v
  refine ⟨((hf ▸ fireForwarded_combined k t s).trans huv).trans hd, hd.placements ?_⟩
  rw [hv]
  exact List.mem_append_right _ (.head _)

/-! ### A cycle of the combiner -/

theorem destOk_combined {s t : State} (h : Combined s t) (d : Nat) (hd : destOk s d = true) : destOk t d = true := by
  have ht : topo t = topo s := by
    rw [topo, topo, State.fld_congr_word (f := KLINK_PAIR.TOPO) (h.regs _ (by decide))]
  rw [destOk, ht]
  exact hd

/-- What each term gives in a cycle with events `pulses` at time `t` (R216). -/
def cycleFires (s : State) (pulses : List (Nat × Nat)) (t : Nat) : List (Option Nat) :=
  (List.range 16).map (fun i => termFire s pulses t (s.ledger.terms.getD i false) (termLiterals s i))

/-- Output `k` in a cycle in which the terms give `fires`. -/
def outputStep (fires : List (Option Nat)) (hints : List (Nat × Nat)) (s : State) (k : Nat) : State :=
  let c := readList 0 (s.table 0x10 2) (16 * k) 16
  if (outCtrl c).testBit 7 = false ∨ destOk s (bits (outCtrl c) 5 4) = false then s
  else
    match (((List.range 16).filter (fun i => (outTerms c).testBit i)).filterMap (fun i => (fires[i]?).join)).min? with
    | some w => outputFire k w hints s
    | none => s

theorem outputStep_combined (fires : List (Option Nat)) (hints : List (Nat × Nat)) (s : State) (k : Nat) :
    Combined s (outputStep fires hints s k) := by
  unfold outputStep
  extract_lets c
  split
  · exact .refl s
  · split
    · exact (outputFire_placed ..).1
    · exact .refl s

/-- The terms as they stand after a cycle. -/
def termsNow (pulses : List (Nat × Nat)) (s : State) : State :=
  setLedger { s.ledger with terms := (List.range 16).map (fun i => (termLiterals s i).any litUsed && termAnd s pulses (termLiterals s i)) } s

theorem combineCycle_eq (hints pulses : List (Nat × Nat)) (t : Nat) (s : State) : combineCycle hints pulses t s =
    if s.flag LEDGER_CTRL.TRIG_EN = false then termsNow pulses s
    else (List.range 4).foldl (outputStep (cycleFires s pulses t) hints) (termsNow pulses s) := rfl

theorem combineCycle_combined (hints pulses : List (Nat × Nat)) (t : Nat) (s : State) : Combined s (combineCycle hints pulses t s) := by
  have hnow : Combined s (termsNow pulses s) := .of_same rfl rfl rfl rfl (List.Subset.refl _)
  rw [combineCycle_eq]
  split
  · exact hnow
  · exact hnow.trans (.foldl (outputStep_combined _ _) _ _)

theorem combine_combined (pulses : List (Nat × Nat)) (t : Nat) (s : State) : Combined s (combine pulses t s) := by
  unfold combine combineWith
  split
  · exact .refl s
  · split
    · exact combineCycle_combined ..
    · exact (combineCycle_combined ..).trans (combineCycle_combined ..)

/-! ### Trigger pins -/

theorem selFireAll_none {s : State} (h : ∀ n : Fin 16, s.flag (CUE_SEL.EN n) = false) (cs : List (Nat × Nat × SelEdge)) :
    selFireAll cs s = s := by
  have hstep : ∀ n < 16, (if cs.any (fun c => selMatches s c.1 c.2.1 c.2.2 n) then selFire n s else s) = s := by
    intro n hn
    refine if_neg fun hany => ?_
    obtain ⟨c, -, hc⟩ := List.any_eq_true.1 hany
    rw [selMatches, show s.flag (CUE_SEL.EN n) = false from h ⟨n, hn⟩] at hc
    exact absurd hc (by simp)
  have hall : ∀ l : List Nat, (∀ n ∈ l, n < 16) →
      l.foldl (fun s n => if cs.any (fun c => selMatches s c.1 c.2.1 c.2.2 n) then selFire n s else s) s = s := by
    intro l
    induction l with
    | nil => exact fun _ => rfl
    | cons n l ih =>
      intro hl
      rw [List.foldl_cons, hstep n (hl n (.head _))]
      exact ih fun k hk => hl k (.tail _ hk)
  exact hall _ fun n hn => List.mem_range.1 hn

theorem cueSel_apart : ∀ n : Fin 16, (CUE_SEL.EN n).addr ∉ fireRegs ∧ (CUE_SEL.EN n).addr ≠ LEDGER_PIN_STATUS.LEVEL.addr := by decide

theorem level_combined {s t : State} (h : Combined s t) : t.fld LEDGER_PIN_STATUS.LEVEL = s.fld LEDGER_PIN_STATUS.LEVEL :=
  h.status _ (by decide) (by decide) (by decide)

/-- A level of a pin that has changed reaches the combiner alone while no selection entry is enabled. -/
theorem selFireAll_combine {s u v : State} (h : ∀ n : Fin 16, s.flag (CUE_SEL.EN n) = false) (hu : u.regs = s.regs) (x : Nat)
    (hv : v = u.setFld LEDGER_PIN_STATUS.LEVEL x) (pulses : List (Nat × Nat)) (t : Nat) (cs : List (Nat × Nat × SelEdge)) :
    selFireAll cs (combine pulses t v) = combine pulses t v := by
  refine selFireAll_none (fun n => ?_) cs
  have hc := combine_combined pulses t v
  have hw : (combine pulses t v).word (CUE_SEL.EN n).addr = s.word (CUE_SEL.EN n).addr := by
    rw [hc.regs _ (cueSel_apart n).1, hv, State.word_setFld_ne u LEDGER_PIN_STATUS.LEVEL x (cueSel_apart n).2]
    exact State.word_congr hu _
  rw [State.flag_of_word hw]
  exact h n

theorem pinStatus_clr (x : Nat) (h : x < 256) (p : Nat) (hp : p < 8) : ((if x.testBit p then x - 2 ^ p else x) % 256).testBit p = false := by
  rw [byte_bits x h p hp p hp]
  simp

theorem level_clr (s : State) (p : Fin 8) : ((s.clrBit LEDGER_PIN_STATUS.LEVEL p).fld LEDGER_PIN_STATUS.LEVEL).testBit p = false := by
  rw [State.clrBit, State.fld_setFld_same _ LEDGER_PIN_STATUS.LEVEL _ (by decide)]
  exact pinStatus_clr _ (State.fld_lt s LEDGER_PIN_STATUS.LEVEL) p p.isLt

theorem out_clr (s : State) (p : Fin 8) : ((s.clrBit LEDGER_PIN_STATUS.OUT p).fld LEDGER_PIN_STATUS.OUT).testBit p = false := by
  rw [State.clrBit, State.fld_setFld_same _ LEDGER_PIN_STATUS.OUT _ (by decide)]
  exact pinStatus_clr _ (State.fld_lt s LEDGER_PIN_STATUS.OUT) p p.isLt

theorem exec_trigAccept {s : State} {pin : Fin 8} {edge : Nat} (hon : s.domainOn 28 = true) (hin : (pinField s pin edge 0 1).testBit 7 = true)
    (hheld : (pinOf s pin).held = false) (hrun : edge + pinFilterNs s pin edge ≤ s.nowNs) : exec (.trigAccept pin edge) s =
      if (pinOf s pin).lastEdge.any (fun e => decide (edge < e + min 10000000 (pinField s pin edge 8 4) * 1000)) then
        .next ((modPin pin (fun p => { p with held := true, discarded := true }) s).addFld (LEDGER_PINCNT.DISCARDED pin) 1)
      else .next (selFireAll [(0, pin, .rising), (0, pin, .event)] (combine [(pin, edge)] edge ((modPin pin (fun p => { p with
        held := true, discarded := false, since := s.ticks, lastEdge := some edge, latch := pinDesc s pin edge }) s).orBit
          LEDGER_PIN_STATUS.LEVEL pin))) := by
  have hno : ¬(s.domainOn 28 = false ∨ (pinField s pin edge 0 1).testBit 7 = false ∨ (pinOf s pin).held = true ∨
      s.nowNs < edge + pinFilterNs s pin edge) := by
    rw [hon, hin, hheld]
    simp
    omega
  exact (if_neg hno : execTrigAccept pin edge s = _)

theorem exec_trigAccept_short {s : State} {pin : Fin 8} {edge : Nat} (hrun : s.nowNs < edge + pinFilterNs s pin edge) :
    exec (.trigAccept pin edge) s = .next s := (if_pos (.inr (.inr (.inr hrun))) : execTrigAccept pin edge s = _)

theorem trigAccept_accepts {s : State} {pin : Fin 8} {edge : Nat} (hon : s.domainOn 28 = true)
    (hin : (pinField s pin edge 0 1).testBit 7 = true) (hheld : (pinOf s pin).held = false) (hlast : (pinOf s pin).lastEdge = none)
    (hlen : pin.val < s.ledger.pins.length) (hrun : edge + pinFilterNs s pin edge ≤ s.nowNs)
    (hsel : ∀ n : Fin 16, s.flag (CUE_SEL.EN n) = false) :
    ∃ t, exec (.trigAccept pin edge) s = .next t ∧ (pinOf t pin).held = true ∧ (pinOf t pin).discarded = false ∧
      (pinOf t pin).latch = pinDesc s pin edge ∧
      (pinOf t pin).lastEdge = some edge ∧ (t.fld LEDGER_PIN_STATUS.LEVEL).testBit pin = true ∧ t.cue = s.cue := by
  have hexec := exec_trigAccept hon hin hheld hrun
  rw [hlast, Option.any_none, if_neg Bool.false_ne_true] at hexec
  obtain ⟨u, hu⟩ : ∃ u, u = modPin pin (fun p => { p with
    held := true, discarded := false, since := s.ticks, lastEdge := some edge, latch := pinDesc s pin edge }) s := ⟨_, rfl⟩
  obtain ⟨v, hv⟩ : ∃ v, v = u.orBit LEDGER_PIN_STATUS.LEVEL pin := ⟨_, rfl⟩
  have hur : u.regs = s.regs := by
    rw [hu]
    rfl
  rw [← hu, ← hv, selFireAll_combine hsel hur _ hv] at hexec
  have hc := combine_combined [(pin.val, edge)] edge v
  obtain ⟨o, ho⟩ := hc.pins pin
  have hpin : pinOf v pin = pinOf u pin := by
    rw [hv]
    rfl
  rw [hpin, hu, pinOf_modPin_same hlen] at ho
  refine ⟨_, hexec, ?_, ?_, ?_, ?_, ?_, ?_⟩
  · rw [ho]
  · rw [ho]
  · rw [ho]
  · rw [ho]
  · rw [level_combined hc, hv]
    exact State.testBit_orBit_same u LEDGER_PIN_STATUS.LEVEL pin (by decide) pin.isLt
  · rw [hc.cue, hv, hu]
    rfl

theorem trigAccept_discards {s : State} {pin : Fin 8} {edge e : Nat} (hon : s.domainOn 28 = true)
    (hin : (pinField s pin edge 0 1).testBit 7 = true) (hheld : (pinOf s pin).held = false) (hlast : (pinOf s pin).lastEdge = some e)
    (hlen : pin.val < s.ledger.pins.length) (hrun : edge + pinFilterNs s pin edge ≤ s.nowNs)
    (hrearm : edge < e + min 10000000 (pinField s pin edge 8 4) * 1000) :
    ∃ t, exec (.trigAccept pin edge) s = .next t ∧ pinOf t pin = { pinOf s pin with held := true, discarded := true } ∧
      t.fld (LEDGER_PINCNT.DISCARDED pin) =
        min (2 ^ (LEDGER_PINCNT.DISCARDED pin).width - 1) (s.fld (LEDGER_PINCNT.DISCARDED pin) + 1) ∧
      OnlyRegs { s with ledger := t.ledger } t [(LEDGER_PINCNT.DISCARDED pin).addr] := by
  have hexec := exec_trigAccept hon hin hheld hrun
  rw [hlast, Option.any_some, decide_eq_true hrearm, if_pos rfl] at hexec
  obtain ⟨u, hu⟩ : ∃ u, u = modPin pin (fun p => { p with held := true, discarded := true }) s := ⟨_, rfl⟩
  have hpin : pinOf u pin = { pinOf s pin with held := true, discarded := true } := hu ▸ pinOf_modPin_same hlen _
  have hur : u.regs = s.regs := by
    rw [hu]
    rfl
  have hus : u = { s with ledger := u.ledger } := by
    rw [hu]
    rfl
  have hcount := State.fld_addFld_same u (LEDGER_PINCNT.DISCARDED pin) 1 rfl
  rw [State.fld_congr hur] at hcount
  have hst : u.addFld (LEDGER_PINCNT.DISCARDED pin) 1 = { s with ledger := u.ledger, regs := (u.addFld (LEDGER_PINCNT.DISCARDED pin) 1).regs } := by
    rw [hus]
    rfl
  have hregs : RegsBut s (u.addFld (LEDGER_PINCNT.DISCARDED pin) 1) [(LEDGER_PINCNT.DISCARDED pin).addr] :=
    (RegsBut.of_regs hur _).setFld (f := LEDGER_PINCNT.DISCARDED pin) (.head _) _
  rw [← hu] at hexec
  refine ⟨_, hexec, hpin, hcount, ?_, hregs⟩
  rw [hst]

theorem trigRelease_releases {s : State} {pin : Fin 8} (hheld : (pinOf s pin).held = true) (hdis : (pinOf s pin).discarded = false)
    (hlen : pin.val < s.ledger.pins.length) (hsel : ∀ n : Fin 16, s.flag (CUE_SEL.EN n) = false) :
    ∃ t, exec (.trigRelease pin) s = .next t ∧ (pinOf t pin).held = false ∧
      (t.fld LEDGER_PIN_STATUS.LEVEL).testBit pin = false ∧ t.cue = s.cue := by
  obtain ⟨u, hu⟩ : ∃ u, u = modPin pin (fun p => { p with held := false, discarded := false }) s := ⟨_, rfl⟩
  obtain ⟨v, hv⟩ : ∃ v, v = u.clrBit LEDGER_PIN_STATUS.LEVEL pin := ⟨_, rfl⟩
  have hur : u.regs = s.regs := by
    rw [hu]
    rfl
  have hexec : exec (.trigRelease pin) s = .next (combine [] u.nowNs v) := by
    refine ((if_neg (by rw [hheld]; decide) : execTrigRelease pin s = _).trans (if_neg (by rw [hdis]; decide))).trans ?_
    rw [← selFireAll_combine hsel hur _ hv [] u.nowNs [(0, pin.val, .falling)], hv, hu]
  have hc := combine_combined [] u.nowNs v
  obtain ⟨o, ho⟩ := hc.pins pin
  have hpin : pinOf v pin = pinOf u pin := by
    rw [hv]
    rfl
  rw [hpin, hu, pinOf_modPin_same hlen] at ho
  refine ⟨_, hexec, ?_, ?_, ?_⟩
  · rw [hu, ho]
  · rw [level_combined hc, hv]
    exact level_clr u pin
  · rw [hc.cue, hv, hu]
    rfl

theorem trigStuck_shown {s : State} {pin : Fin 8} (hheld : (pinOf s pin).held = true) (hdis : (pinOf s pin).discarded = false)
    (hst : (pinOf s pin).stuckNs ≠ 0) (hel : s.elapsedNs (pinOf s pin).since (pinOf s pin).stuckNs = true)
    (hlev : (s.fld LEDGER_PIN_STATUS.LEVEL).testBit pin = true) :
    ∃ t, exec (.trigStuck pin) s = .next t ∧ (t.fld LEDGER_PIN_STATUS.STUCK).testBit pin = true ∧
      (t.fld LEDGER_PIN_STATUS.LEVEL).testBit pin = false ∧ t.flag LEDGER_EVENT.STUCK = true := by
  have hno : ¬((pinOf s pin).held = false ∨ (pinOf s pin).discarded = true ∨ (pinOf s pin).stuckNs = 0 ∨
      s.elapsedNs (pinOf s pin).since (pinOf s pin).stuckNs = false ∨ (s.fld LEDGER_PIN_STATUS.LEVEL).testBit pin = false) := by
    rw [hheld, hdis, hel, hlev]
    simp [hst]
  obtain ⟨u, hu⟩ : ∃ u, u = s.orBit LEDGER_PIN_STATUS.STUCK pin := ⟨_, rfl⟩
  obtain ⟨e, he⟩ : ∃ e : Event, e = { cls := .warning, block := 6, cause := LEDGER_EVENT.STUCK.lo, inst := pin.val, detail := 0 } := ⟨_, rfl⟩
  have hcls : e.cls ≠ .fatal := by
    rw [he]
    exact fun h => nomatch h
  obtain ⟨w, hw⟩ : ∃ w, w = postEvent e (u.orBit LEDGER_EVENT.STUCK (LEDGER_EVENT.STUCK.lo - LEDGER_EVENT.STUCK.lo)) := ⟨_, rfl⟩
  obtain ⟨v, hv⟩ : ∃ v, v = w.clrBit LEDGER_PIN_STATUS.LEVEL pin := ⟨_, rfl⟩
  have hexec : exec (.trigStuck pin) s = .next (combine [] w.nowNs v) := by
    rw [hv, hw, he, hu]
    exact (if_neg hno : execTrigStuck pin s = _)
  have hc := combine_combined [] w.nowNs v
  refine ⟨_, hexec, ?_, ?_, ?_⟩
  · rw [hc.status LEDGER_PIN_STATUS.STUCK (by decide) (by decide) (by decide), hv, State.clrBit,
      State.fld_setFld_apart _ LEDGER_PIN_STATUS.STUCK LEDGER_PIN_STATUS.LEVEL _ (by decide) (by decide), hw,
      State.fld_postEvent hcls _ (f := LEDGER_PIN_STATUS.STUCK) (by decide), State.orBit,
      State.fld_setFld_apart _ LEDGER_PIN_STATUS.STUCK LEDGER_EVENT.STUCK _ (by decide) (by decide), hu]
    exact State.testBit_orBit_same s LEDGER_PIN_STATUS.STUCK pin (by decide) pin.isLt
  · rw [level_combined hc, hv]
    exact level_clr w pin
  · rw [State.flag_of_fld (hc.status LEDGER_EVENT.STUCK (by decide) (by decide) (by decide)), hv, State.clrBit,
      State.flag_setFld_apart _ LEDGER_EVENT.STUCK LEDGER_PIN_STATUS.LEVEL _ (by decide) (by decide), hw,
      State.flag_postEvent hcls _ (f := LEDGER_EVENT.STUCK) (by decide), Nat.sub_self]
    exact State.flag_orBit_zero u LEDGER_EVENT.STUCK (by decide) (by decide)

/-- Settles O33: a level that changes reaches the combiner, which leaves the pins but for their output pulses. -/
theorem triggerPinsFollowTheirInputs : Obligations.TriggerPinsFollowTheirInputs := by
  unfold Obligations.TriggerPinsFollowTheirInputs
  refine ⟨?_, ?_, ?_, ?_, ?_, ?_⟩
  · exact fun s pin edge hon hin hheld hlast hlen hrun hsel => trigAccept_accepts hon hin hheld hlast hlen hrun hsel
  · exact fun s pin edge e hon hin hheld hlast hlen hrun hrearm => trigAccept_discards hon hin hheld hlast hlen hrun hrearm
  · intro s pin edge hon hin hrun
    have hno : ¬(s.domainOn 28 = false ∨ (pinField s pin edge 0 1).testBit 7 = false ∨ edge + pinFilterNs s pin edge ≤ s.nowNs) := by
      rw [hon, hin]
      simp
      omega
    exact ⟨exec_trigAccept_short hrun, s.addFld (LEDGER_PINCNT.FILTERED pin) 1, (if_neg hno : execTrigShortRun ⟨pin, edge⟩ s = _),
      State.fld_addFld_same s (LEDGER_PINCNT.FILTERED pin) 1 rfl, rfl,
      fun a ha => State.word_setFld_ne s (LEDGER_PINCNT.FILTERED pin) _ (List.ne_of_not_mem_cons ha)⟩
  · exact fun s pin hheld hdis hlen hsel => trigRelease_releases hheld hdis hlen hsel
  · exact fun s pin hheld hdis hst hel hlev => trigStuck_shown hheld hdis hst hel hlev
  · intro s pin hend
    have hno : ¬((pinOf s pin).outEnd.any (fun e => decide (s.ticks < e)) = true) := by
      intro h
      cases ho : (pinOf s pin).outEnd with
      | none =>
        rw [ho] at h
        cases h
      | some e =>
        rw [ho] at h
        exact absurd (of_decide_eq_true h) (Nat.not_lt.2 (hend e ho))
    obtain ⟨u, hu⟩ : ∃ u, u = s.clrBit LEDGER_PIN_STATUS.OUT pin := ⟨_, rfl⟩
    have hexec : exec (.trigOutputPulseEnd pin) s = .next (modPin pin (fun p => { p with outEnd := none }) u) := by
      rw [hu]
      exact (if_neg hno : execTrigOutputPulseEnd pin s = _)
    refine ⟨_, hexec, ?_, ?_, ?_, fun a ha => ?_⟩
    · show (u.fld LEDGER_PIN_STATUS.OUT).testBit pin = false
      rw [hu]
      exact out_clr s pin
    · by_cases hlen : pin.val < u.ledger.pins.length
      · rw [pinOf_modPin_same hlen]
      · rw [pinOf_none (by rw [length_modPin]; omega)]
        rfl
    · rw [hu]
      rfl
    · rw [hu]
      exact State.word_setFld_ne s LEDGER_PIN_STATUS.OUT _ (List.ne_of_not_mem_cons ha)

end Sys2Proof.Machine
end

section
/-! PROOFS. The raw coder and the decodes (R248 to R281). -/

namespace Sys2Proof.Machine

/-- An event below fatal with its flag changes registers, the call board and the counts of its credit path. -/
theorem postFlag_frame (f : Fld) {cls : EventClass} (hc : cls ≠ .fatal) (n block inst detail : Nat) (s : State) :
    ∃ r c cs, postFlag f n cls block inst detail s = { s with regs := r, call := c, ledger := { s.ledger with credits := cs } } := by
  obtain ⟨r, c, l, h, -⟩ := postEvent_frame (e := { cls := cls, block := block, cause := n, inst := inst, detail := detail }) hc
    (s.orBit f (n - f.lo))
  obtain ⟨cs, hl⟩ := postEvent_ledger (e := { cls := cls, block := block, cause := n, inst := inst, detail := detail }) hc
    (s.orBit f (n - f.lo))
  rw [h] at hl
  have hl : l = { s.ledger with credits := cs } := hl
  exact ⟨r, c, cs, by rw [postFlag, h, hl]; rfl⟩

theorem postFlag_word {f : Fld} {cls : EventClass} (hc : cls ≠ .fatal) (n block inst detail : Nat) (s : State) {a : Nat}
    (ha : a ≠ f.addr) (ho : a ≠ CALL_OVERFLOW.COUNT.addr) : (postFlag f n cls block inst detail s).word a = s.word a :=
  (postEvent_word (e := { cls := cls, block := block, cause := n, inst := inst, detail := detail }) hc (s.orBit f (n - f.lo)) ho).trans
    (State.word_setFld_ne s f _ ha)

/-! ### Frames begin -/

/-- What the begin of frame `f` latches and shows (R251, R260). -/
theorem beginCoding_shown (f : Frame) (map : List Byte) (missing : Bool) (s : State) :
    ∃ j, (beginCoding f map missing s).rawc.jobs = s.rawc.jobs ++ [j] ∧ (j.num = f.num ∧ j.entry = rawcEntry s f.port f.desc ∧
      j.epoch = s.fld CUE_EPOCH.EPOCH ∧ j.map = map ∧ j.missing = missing ∧ j.marks = []) ∧
      beginCoding f map missing s = { s with regs := (beginCoding f map missing s).regs, rawc := (beginCoding f map missing s).rawc } := by
  unfold beginCoding
  extract_lets e g doubled j s1 s2 s3
  have h : ∃ r, s3 = { s with regs := r } := by
    cases hd : doubled <;> cases hm : missing <;> exact ⟨_, by simp only [s3, s2, s1, hd, hm]; rfl⟩
  obtain ⟨r, h⟩ := h
  rw [h]
  exact ⟨j, rfl, ⟨rfl, rfl, rfl, rfl, rfl, rfl⟩, rfl⟩

theorem State.fld64_setFld64 (s : State) (n : Nat) : (s.setFld64 RAWC_CUR_LO.DATA RAWC_CUR_HI.DATA n).fld64 RAWC_CUR_LO.DATA RAWC_CUR_HI.DATA =
    n % 2 ^ 64 := by
  have hhi : (s.setFld64 RAWC_CUR_LO.DATA RAWC_CUR_HI.DATA n).fld RAWC_CUR_HI.DATA = n / 2 ^ 32 % 2 ^ 32 :=
    State.fld_setFld_same _ RAWC_CUR_HI.DATA _ (by decide)
  have hlo : (s.setFld64 RAWC_CUR_LO.DATA RAWC_CUR_HI.DATA n).fld RAWC_CUR_LO.DATA = n % 2 ^ 32 :=
    (State.fld_setFld_apart _ RAWC_CUR_LO.DATA RAWC_CUR_HI.DATA _ (by decide) (by decide)).trans
      (State.fld_setFld_same s RAWC_CUR_LO.DATA n (by decide))
  rw [State.fld64, hhi, hlo]
  omega

theorem beginCoding_regs (f : Frame) (map : List Byte) (missing : Bool) (s : State) :
    (beginCoding f map missing s).fld64 RAWC_CUR_LO.DATA RAWC_CUR_HI.DATA = f.num % 2 ^ 64 ∧
    (missing = true → (beginCoding f map missing s).flag RAWC_EVENT.MAP_MISSING = true) ∧
    RegsBut s (beginCoding f map missing s) [RAWC_CUR_LO.DATA.addr, RAWC_CUR_HI.DATA.addr, RAWC_EVENT.GRID_DOUBLED.addr] := by
  unfold beginCoding
  extract_lets e g doubled j s1 s2 s3
  have h1 : s1.fld64 RAWC_CUR_LO.DATA RAWC_CUR_HI.DATA = f.num % 2 ^ 64 := State.fld64_setFld64 s f.num
  have hr1 : RegsBut s s1 [RAWC_CUR_LO.DATA.addr, RAWC_CUR_HI.DATA.addr, RAWC_EVENT.GRID_DOUBLED.addr] :=
    ((RegsBut.refl s _).setFld (by decide) _).setFld (by decide) _
  have hcur : ∀ (u : State) (g : Fld) (b : Bool), g.addr = RAWC_EVENT.GRID_DOUBLED.addr →
      (u.setFlag g b).fld64 RAWC_CUR_LO.DATA RAWC_CUR_HI.DATA = u.fld64 RAWC_CUR_LO.DATA RAWC_CUR_HI.DATA := by
    intro u g b hg
    simp only [State.fld64, State.setFlag,
      State.fld_congr_word (f := RAWC_CUR_LO.DATA) (State.word_setFld_ne u g _ (by rw [hg]; decide)),
      State.fld_congr_word (f := RAWC_CUR_HI.DATA) (State.word_setFld_ne u g _ (by rw [hg]; decide))]
  have h2 : s2.fld64 RAWC_CUR_LO.DATA RAWC_CUR_HI.DATA = f.num % 2 ^ 64 ∧ (missing = true → s2.flag RAWC_EVENT.MAP_MISSING = true) ∧
      RegsBut s s2 [RAWC_CUR_LO.DATA.addr, RAWC_CUR_HI.DATA.addr, RAWC_EVENT.GRID_DOUBLED.addr] := by
    unfold s2
    split
    · exact ⟨(hcur s1 RAWC_EVENT.MAP_MISSING true rfl).trans h1, fun _ => State.flag_setFlag_same s1 _ true (by decide) rfl, hr1.setFld (by decide) _⟩
    · exact ⟨h1, fun h => absurd h ‹_›, hr1⟩
  obtain ⟨hc, hm, hr⟩ := h2
  have h3 : s3.fld64 RAWC_CUR_LO.DATA RAWC_CUR_HI.DATA = f.num % 2 ^ 64 ∧ (missing = true → s3.flag RAWC_EVENT.MAP_MISSING = true) ∧
      RegsBut s s3 [RAWC_CUR_LO.DATA.addr, RAWC_CUR_HI.DATA.addr, RAWC_EVENT.GRID_DOUBLED.addr] := by
    unfold s3
    split
    · exact ⟨(hcur s2 RAWC_EVENT.GRID_DOUBLED true rfl).trans hc,
        fun h => (State.flag_setFld_apart s2 RAWC_EVENT.MAP_MISSING RAWC_EVENT.GRID_DOUBLED _ (by decide) (by decide)).trans (hm h),
        hr.setFld (by decide) _⟩
    · exact ⟨hc, hm, hr⟩
  exact h3

theorem exec_coderFrameBegin {s : State} {f : Frame} {fs : List Frame} (h : coderWaiting s = f :: fs) (hon : rawcOn s = true)
    (hh : s.mag.halted = false) (hmap : wantsMap s (rawcEntry s f.port f.desc) f = false) :
    exec .coderFrameBegin s = .next (beginCoding f [] false s) := by
  simp [exec, execCoderFrameBegin, h, hon, hh, hmap]

theorem exec_coderMapTimeout {s : State} {f : Frame} {fs : List Frame} (h : coderWaiting s = f :: fs) (hon : rawcOn s = true)
    (hh : s.mag.halted = false) (hmap : wantsMap s (rawcEntry s f.port f.desc) f = true) (hu : usableMap s f.num = none) :
    exec .coderMapTimeout s = .next (beginCoding f [] true s) := by
  simp [exec, execCoderMapTimeout, h, hon, hh, hmap, hu]

/-! ### Detections -/

theorem rawcFlag_frame (f : Fld) {cls : EventClass} (hc : cls ≠ .fatal) (s : State) :
    ∃ r c cs, rawcFlag f cls s = { s with regs := r, call := c, ledger := { s.ledger with credits := cs } } := postFlag_frame f hc ..

theorem rawcFlag_rawc (f : Fld) {cls : EventClass} (hc : cls ≠ .fatal) (s : State) : (rawcFlag f cls s).rawc = s.rawc := by
  obtain ⟨r, c, cs, h⟩ := rawcFlag_frame f hc s
  rw [h]

theorem rawcFlag_stores (f : Fld) {cls : EventClass} (hc : cls ≠ .fatal) (s : State) : (rawcFlag f cls s).stores = s.stores := by
  obtain ⟨r, c, cs, h⟩ := rawcFlag_frame f hc s
  rw [h]
  rfl

theorem rawcFlag_word {f : Fld} {cls : EventClass} (hc : cls ≠ .fatal) {a : Nat} (ha : a ≠ f.addr) (ho : a ≠ CALL_OVERFLOW.COUNT.addr) (s : State) :
    (rawcFlag f cls s).word a = s.word a := postFlag_word hc f.lo 7 0xFF 0 s ha ho

theorem rawcFlag_flag {f : Fld} {cls : EventClass} (hc : cls ≠ .fatal) (hf : f.fits = true) (hw : f.width = 1)
    (ho : f.addr ≠ CALL_OVERFLOW.COUNT.addr) (s : State) : (rawcFlag f cls s).flag f = true := by
  rw [rawcFlag, postFlag, State.flag_postEvent hc _ ho, Nat.sub_self]
  exact State.flag_orBit_zero s f hf hw

theorem find_modJob {s : State} {num : Nat} {j : CodeJob} (h : s.rawc.jobs.find? (fun j => j.num == num) = some j) {g : CodeJob → CodeJob}
    (hg : ∀ x, (g x).num = x.num) : (modJob num g s).rawc.jobs.find? (fun j => j.num == num) = some (g j) := by
  have hn : j.num = num := by simpa using List.find?_some h
  have hp : ((fun j : CodeJob => j.num == num) ∘ fun x => if x.num = num then g x else x) = fun j => j.num == num := by
    funext x
    by_cases hx : x.num = num
    · simp [hx, hg]
    · simp [hx]
  show (s.rawc.jobs.map fun x => if x.num = num then g x else x).find? _ = _
  rw [List.find?_map, hp, h, Option.map_some, if_pos hn]

theorem cellReread_frame (j : CodeJob) (f : Frame) (id : Nat) (s : State) : ∃ l, cellReread j f id s = { s with ledger := l } := ⟨_, rfl⟩

/-- The first detection in a cell has it coded again while the budget lasts (R272, R273). -/
theorem cellDetected_recodes {s : State} {num id : Nat} {j : CodeJob} (f : Frame)
    (hj : s.rawc.jobs.find? (fun j => j.num == num) = some j) (hm : keyGet j.marks id = none) (hb : j.budget ≠ 0) :
    (cellDetected j f id s).rawc.jobs.find? (fun j => j.num == num) = some { j with budget := j.budget - 1, marks := keySet j.marks id 1 } ∧
    (cellDetected j f id s).fld RAWC_CNT_RECODE.COUNT = min (2 ^ RAWC_CNT_RECODE.COUNT.width - 1) (s.fld RAWC_CNT_RECODE.COUNT + 1) ∧
    (cellDetected j f id s).flag RAWC_EVENT.RECODE = true ∧ SameMemory s (cellDetected j f id s) := by
  obtain rfl : j.num = num := by simpa using List.find?_some hj
  obtain ⟨l, hl⟩ := cellReread_frame j f id s
  obtain ⟨v, hv⟩ : ∃ v, v = modJob j.num (fun j => { j with budget := j.budget - 1 })
    (modJob j.num (fun j => { j with marks := keySet j.marks id 1 }) { s with ledger := l }) := ⟨_, rfl⟩
  have he : cellDetected j f id s = rawcFlag RAWC_EVENT.RECODE .info (v.addFld RAWC_CNT_RECODE.COUNT 1) := by
    rw [hv, ← hl]
    unfold cellDetected
    rw [hm]
    exact if_pos ⟨rfl, hb⟩
  have hjobs : v.rawc.jobs.find? (fun x => x.num == j.num) = some { j with budget := j.budget - 1, marks := keySet j.marks id 1 } := by
    rw [hv]
    exact find_modJob (g := fun j => { j with budget := j.budget - 1 })
      (find_modJob (s := { s with ledger := l }) (g := fun j => { j with marks := keySet j.marks id 1 }) hj fun _ => rfl) fun _ => rfl
  have hs : v.stores = s.stores ∧ v.regs = s.regs := by rw [hv]; exact ⟨rfl, rfl⟩
  rw [he]
  refine ⟨?_, ?_, rawcFlag_flag (by decide) (by decide) rfl (by decide) _, sameMemory_of_stores ?_⟩
  · rw [rawcFlag_rawc _ (by decide)]
    exact hjobs
  · rw [State.fld_congr_word (f := RAWC_CNT_RECODE.COUNT) (rawcFlag_word (by decide) (by decide) (by decide) (v.addFld RAWC_CNT_RECODE.COUNT 1)),
      State.fld_addFld_same _ _ _ (by decide), State.fld_congr hs.2]
  · rw [rawcFlag_stores _ (by decide)]
    exact hs.1


/-! ### A coded frame is handed on -/

/-- What the coder leaves of the frames: numbers and what they wait for. -/
structure FramesKept (s t : State) : Prop where
  map : ∃ g : Frame → Frame, t.ledger.frames = s.ledger.frames.map g ∧ ∀ x, (g x).num = x.num ∧ (g x).await = x.await

namespace FramesKept

variable {s t u : State}

theorem of_frames (h : t.ledger.frames = s.ledger.frames) : FramesKept s t := ⟨id, by simp [h], fun _ => ⟨rfl, rfl⟩⟩

theorem trans (h : FramesKept s t) (h' : FramesKept t u) : FramesKept s u := by
  obtain ⟨g, hf, hg⟩ := h
  obtain ⟨g', hf', hg'⟩ := h'
  exact ⟨g' ∘ g, by rw [hf', hf, List.map_map], fun x => ⟨(hg' _).1.trans (hg x).1, (hg' _).2.trans (hg x).2⟩⟩

theorem modFrame (num : Nat) {f : Frame → Frame} (hf : ∀ x, (f x).num = x.num ∧ (f x).await = x.await) (s : State) :
    FramesKept s (modFrame num f s) :=
  ⟨fun x => if x.num = num then f x else x, rfl, fun x => by
    by_cases hx : x.num = num
    · simpa [hx] using hf x
    · simp [hx]⟩

theorem await (h : FramesKept s t) {num : Nat} {f : Frame} (hf : frameOf s num = some f) :
    ∃ g, frameOf t num = some g ∧ g.await = f.await := by
  obtain ⟨g, hg, hk⟩ := h
  have hp : ((fun x : Frame => x.num == num) ∘ g) = fun x => x.num == num := by
    funext x
    simp [(hk x).1]
  refine ⟨g f, ?_, (hk f).2⟩
  rw [frameOf, hg, List.find?_map, hp]
  exact congrArg (Option.map g) hf

end FramesKept

/-- `t` is `s` with frames that the coder has marked: the magazines and the jobs are those of `s`. -/
structure CodedState (s t : State) : Prop where
  frames : FramesKept s t
  mag : t.mag = s.mag
  jobs : t.rawc.jobs = s.rawc.jobs
  status : t.word (MAG_STATUS.STATE 0).addr = s.word (MAG_STATUS.STATE 0).addr

namespace CodedState

variable {s t u : State}

theorem refl (s : State) : CodedState s s := ⟨.of_frames rfl, rfl, rfl, rfl⟩

theorem trans (h : CodedState s t) (h' : CodedState t u) : CodedState s u :=
  ⟨h.frames.trans h'.frames, h'.mag.trans h.mag, h'.jobs.trans h.jobs, h'.status.trans h.status⟩

theorem setFld (s : State) {f : Fld} (hf : (MAG_STATUS.STATE 0).addr ≠ f.addr) (n : Nat) : CodedState s (s.setFld f n) :=
  ⟨.of_frames rfl, rfl, rfl, State.word_setFld_ne s f n hf⟩

theorem of_checked (h : Checked s t) (hf : t.ledger.frames = s.ledger.frames) : CodedState s t := by
  refine ⟨.of_frames hf, by rw [h.state], by rw [h.state], h.regs _ (by decide)⟩

theorem credit (p n m : Nat) (s : State) : CodedState s (creditReturn p n (creditIssue p m s)) := ⟨.of_frames rfl, rfl, rfl, rfl⟩

theorem modFrame (num : Nat) {f : Frame → Frame} (hf : ∀ x, (f x).num = x.num ∧ (f x).await = x.await) (s : State) :
    CodedState s (Machine.modFrame num f s) := ⟨.modFrame num hf s, rfl, rfl, rfl⟩

end CodedState

/-! The checks of the DRAM leave the frames. -/

theorem postEvent_frames {e : Event} (h : e.cls ≠ .fatal) (s : State) : (postEvent e s).ledger.frames = s.ledger.frames := by
  obtain ⟨cs, hl⟩ := postEvent_ledger h s
  rw [hl]

theorem dramFlag_frames (f : Fld) {cls : EventClass} (hc : cls ≠ .fatal) (inst detail : Nat) (s : State) :
    (dramFlag f cls inst detail s).ledger.frames = s.ledger.frames := postEvent_frames (e := { cls := cls, block := 12, cause := f.lo, inst := inst, detail := detail }) hc _

theorem dramCheck_frames (b : Nat) (s : State) : (dramCheck b s).ledger.frames = s.ledger.frames := by
  unfold dramCheck
  extract_lets ch a
  split
  · rfl
  · split
    · rfl
    · rfl
    · exact dramFlag_frames DRAM_EVENT.POISON (by decide) ch 0 _

theorem dramSeen_frames (a n : Nat) (s : State) : (dramSeen a n s).ledger.frames = s.ledger.frames := by
  have hfold : ∀ (l : List Nat) (u : State), (l.foldl (fun s b => dramCheck b s) u).ledger.frames = u.ledger.frames := by
    intro l
    induction l with
    | nil => intro u; rfl
    | cons b l ih => intro u; exact (ih _).trans (dramCheck_frames b u)
  exact hfold _ (dramAccess a n s)

theorem dramSeen_coded (a n : Nat) (s : State) : CodedState s (dramSeen a n s) := .of_checked (dramSeen_checked a n s) (dramSeen_frames a n s)

theorem slotSeen_coded (f : Frame) (a : Nat) (s : State) : CodedState s (slotSeen f a s) := by
  have hfold : ∀ (l : List (List Byte × Nat)) (u : State), CodedState u
      (l.foldl (fun s e => dramSeen (a + f.d.height * f.d.lineBytes + 16384 * e.2) e.1.length s) u) := by
    intro l
    induction l with
    | nil => exact .refl
    | cons e l ih => intro u; exact (dramSeen_coded ..).trans (ih _)
  exact (dramSeen_coded ..).trans (hfold _ _)

theorem codeCells_coded (j : CodeJob) (f : Frame) (base : Nat) (ids : List Nat) (s : State) : CodedState s (codeCells j f base ids s).2 := by
  induction ids generalizing s with
  | nil => exact .refl s
  | cons id ids ih =>
    by_cases h : keyGet j.marks id = some 3
    · simp only [codeCells, h, if_true]
      have hb : CodedState s (s.takeBytes (8 * ceilDiv (j.cw * j.ch * dtWidth f.d.dt) 64)).2 := ⟨.of_frames rfl, rfl, rfl, rfl⟩
      exact hb.trans (ih _)
    · simp only [codeCells, h, if_false]
      exact ih s

/-- What the coder shows of a frame before it hands it on as `bs`: credits, counts, flags and the digest that is due. -/
def codedMark (j : CodeJob) (f : Frame) (slot verbatim mask : Nat) (poison : Bool) (bs : List Byte) (s : State) : State :=
  let tags := ceilDiv (f.d.lineBytes * f.d.height) 4096
  let s := slotSeen f (slotAddr s f.port slot) s
  let s := creditReturn 5 tags (creditIssue 5 tags s)
  let s := s.addFld RAWC_CNT_VERBATIM.COUNT verbatim
  let s := if poison then s.setFlag RAWC_EVENT.POISON true else s
  let s := orFlags f.num mask s
  if wantsCoded s f j then
    setHash { s.hash with codedDue := keySet s.hash.codedDue f.num (sha3_512 (ascii "ECD9600/CODED/1" ++ bs)) } s
  else s

theorem codedMark_coded (j : CodeJob) (f : Frame) (slot verbatim mask : Nat) (poison : Bool) (bs : List Byte) (s : State) :
    CodedState s (codedMark j f slot verbatim mask poison bs s) := by
  unfold codedMark
  extract_lets tags s1 s2 s3 s4 s5
  have h3 : CodedState s s3 := ((slotSeen_coded f _ s).trans (.credit 5 tags tags s1)).trans (.setFld s2 (by decide) _)
  have h4 : CodedState s s4 := by
    unfold s4
    split
    · exact h3.trans (.setFld s3 (by decide) _)
    · exact h3
  have h5 : CodedState s s5 :=
    h4.trans (.modFrame f.num (f := fun f => { f with flags := f.flags ||| mask }) (fun _ => ⟨rfl, rfl⟩) s4)
  split
  · exact h5.trans ⟨.of_frames rfl, rfl, rfl, rfl⟩
  · exact h5

/-- What the coder hands to the magazines: the frame as coded, and `u` before it shows as handed on. -/
theorem finishCoding_hands (j : CodeJob) (f : Frame) (slot : Nat) (s : State) : ∃ u bs kept, CodedState s u ∧
    finishCoding j f slot s = magHand f.num f.src bs j.target
      (setRawc { u.rawc with kept := kept } (modFrame f.num (fun x => { x with handed := true }) u)) := by
  have hc := codeCells_coded j f (slotAddr s f.port slot) (List.range (gridCells f.d.width f.d.height j.cw j.ch)) s
  exact ⟨_, _, _, hc.trans (codedMark_coded j f slot _ _ _ _ _), rfl⟩

/-- `t` is `s` with the staging buffers of the magazine engine issued or returned (R319). -/
structure Staged (s t : State) : Prop where
  ports : t.mag.ports = s.mag.ports
  jobs : t.rawc.jobs = s.rawc.jobs
  frames : t.ledger.frames = s.ledger.frames
  regs : t.regs = s.regs

theorem Staged.stageBuffers {s t : State} (h : Staged s t) : Staged s (stageBuffers t) := ⟨h.ports, h.jobs, h.frames, h.regs⟩

theorem Staged.port {s t : State} (h : Staged s t) (k : Nat) : magPort t k = magPort s k := by rw [magPort, magPort, h.ports]

theorem releaseStaged_staged (num : Nat) (s : State) : Staged s (releaseStaged num s) := by
  unfold releaseStaged
  split
  · exact Staged.stageBuffers ⟨rfl, rfl, rfl, rfl⟩
  · exact Staged.stageBuffers ⟨rfl, rfl, rfl, rfl⟩

/-- A frame for magazine 0, which records, joins its queue: no record before it has left it (R318). -/
theorem magHand_queues {v : State} {num : Nat} {g : Frame} {q : MagRecord} {qs : List MagRecord} (src : Nat) (bs : List Byte)
    (hg : frameOf v num = some g) (ha : g.await = [0]) (hrec : magRecording v 0 = true) (hq : (magPort v 0).queue = q :: qs)
    (hp : q.placed = true) :
    (magHand num src bs none v).rawc.jobs = v.rawc.jobs ∧ (magHand num src bs none v).ledger.frames = v.ledger.frames ∧
    (magPort (magHand num src bs none v) 0).queue = (magPort v 0).queue ++ [newRecord 1 num bs (some num) src] := by
  obtain ⟨w, hw⟩ : ∃ w, w = stageBuffers (setMag { v.mag with staged := v.mag.staged ++
    [{ num := num, total := ceilDiv bs.length 65536, issued := 0, returned := 0 }] } v) := ⟨_, rfl⟩
  have hs : Staged v w := hw ▸ Staged.stageBuffers ⟨rfl, rfl, rfl, rfl⟩
  have hlen : 0 < w.mag.ports.length := ports_lt fun h => by
    rw [hs.port] at h
    rw [h] at hq
    cases hq
  have hrecw : magRecording w 0 = true := by
    rw [magRecording, magState, State.fld_congr hs.regs, magTakes, hs.port]
    exact hrec
  obtain ⟨y, hy⟩ : ∃ y, y = magEnqueue 0 (newRecord 1 num bs (some num) src) w := ⟨_, rfl⟩
  have hyq : (magPort y 0).queue = (magPort v 0).queue ++ [newRecord 1 num bs (some num) src] := by
    rw [hy, magEnqueue, magPort_modMag_same hlen, hs.port]
  have hpump : magPump 0 y = y := magPump_placed (q := q) (hyq.trans (by rw [hq]; rfl)) hp
  have hyv : y.rawc = w.rawc ∧ y.ledger = w.ledger := by rw [hy]; exact ⟨rfl, rfl⟩
  have he : magHand num src bs none v = releaseStaged num y := by
    rw [← hpump, hy]
    unfold magHand
    rw [hg]
    simp only [ha, Option.map_some, Option.getD_some, ← hw, List.filter_cons, List.filter_nil, decide_true, Nat.zero_lt_two, if_true,
      List.foldl_cons, List.foldl_nil, hrecw]
  have hr := releaseStaged_staged num y
  rw [he]
  exact ⟨by rw [hr.jobs, hyv.1, hs.jobs], by rw [hr.frames, hyv.2, hs.frames], by rw [hr.port, hyq]⟩


/-- A frame coded for magazine 0, which records, is handed on (R250, R318). -/
theorem coderFrameComplete_hands {s : State} {j : CodeJob} {js : List CodeJob} {f : Frame} {k : Nat} {q : MagRecord} {qs : List MagRecord}
    (hjobs : s.rawc.jobs = j :: js) (hf : frameOf s j.num = some f) (hslot : f.slot = some k) (hdisp : f.disp = 7) (ha : f.await = [0])
    (htgt : j.target = none) (hrec : magRecording s 0 = true) (hq : (magPort s 0).queue = q :: qs) (hp : q.placed = true) :
    ∃ t bs, exec .coderFrameComplete s = .next t ∧ t.rawc.jobs = js ∧
      (magPort t 0).queue = (magPort s 0).queue ++ [newRecord 1 f.num bs (some f.num) f.src] ∧
      (∀ x ∈ t.ledger.frames, x.num = j.num → x.handed = true) := by
  have hnum : f.num = j.num := by simpa using List.find?_some hf
  obtain ⟨r, hr⟩ : ∃ r, r = setRawc { s.rawc with jobs := js } s := ⟨_, rfl⟩
  have hfr : frameOf r j.num = some f := by rw [hr]; exact hf
  have hexec : exec .coderFrameComplete s = .next (finishCoding j f k r) := by
    show execCoderFrameComplete s = _
    unfold execCoderFrameComplete
    simp only [hjobs, ← hr, hfr, hslot, hdisp, if_true]
  obtain ⟨u, bs, kept, hu, hfin⟩ := finishCoding_hands j f k r
  obtain ⟨v, hv⟩ : ∃ v, v = setRawc { u.rawc with kept := kept } (modFrame f.num (fun x => { x with handed := true }) u) := ⟨_, rfl⟩
  have hc : CodedState r v := by
    rw [hv]
    exact (hu.trans (.modFrame f.num (f := fun x => { x with handed := true }) (fun _ => ⟨rfl, rfl⟩) u)).trans ⟨.of_frames rfl, rfl, rfl, rfl⟩
  have hframes : ∀ x ∈ v.ledger.frames, x.num = j.num → x.handed = true := by
    intro x hx hn
    have hx' : x ∈ u.ledger.frames.map (fun x => if x.num = f.num then { x with handed := true } else x) := by rwa [hv] at hx
    obtain ⟨y, -, rfl⟩ := List.mem_map.1 hx'
    by_cases hy : y.num = f.num
    · rw [if_pos hy]
    · rw [if_neg hy] at hn
      exact absurd (hn.trans hnum.symm) hy
  have hmag : v.mag = s.mag := by rw [hc.mag, hr]; rfl
  have hport : magPort v 0 = magPort s 0 := magPort_of_mag hmag 0
  have hrecv : magRecording v 0 = true := by
    have hst : magState v 0 = magState s 0 := (State.fld_congr_word (f := MAG_STATUS.STATE 0) hc.status).trans (by rw [hr]; rfl)
    rw [magRecording, hst, magTakes, hport]
    exact hrec
  obtain ⟨g, hg, hga⟩ := hc.frames.await hfr
  obtain ⟨h1, h2, h3⟩ := magHand_queues f.src bs (hnum ▸ hg) (hga.trans ha) hrecv (hport ▸ hq) hp
  rw [hfin, htgt, ← hv] at hexec
  exact ⟨_, bs, hexec, h1.trans (hc.jobs.trans (by rw [hr]; rfl)), hport ▸ h3, fun x hx => hframes x (h2 ▸ hx)⟩


/-! ### Decodes -/

theorem exec_rawcDecode {s : State} (hon : rawcOn s = true) (play : Bool) (fill : BitVec 20) : ∃ u,
    OnlyRegs s u [RAWC_DEC_CTRL.PLAY.addr] ∧ u.flag RAWC_DEC_CTRL.PLAY = play ∧ u.fld RAWC_DEC_CTRL.FILL = fill.toNat ∧
    u.rawc = s.rawc ∧ exec (.rawcDecode play fill) s =
      if u.rawc.dec.isSome ∨ inDram u (decSrc u) (u.fld RAWC_DEC_LEN.BYTES) = false ∨ inDram u (decDst u) (u.fld RAWC_DEC_DST_SIZE.BYTES) = false ∨
          (decSrc u < decDst u + u.fld RAWC_DEC_DST_SIZE.BYTES ∧ decDst u < decSrc u + u.fld RAWC_DEC_LEN.BYTES) then
        .next (u.setFlag RAWC_DEC_STATUS.REFUSED true)
      else .next (setRawc { u.rawc with dec := some { src := dramOff (decSrc u), len := u.fld RAWC_DEC_LEN.BYTES, dst := dramOff (decDst u), size := u.fld RAWC_DEC_DST_SIZE.BYTES } }
        (((u.setFld RAWC_DEC_CELLS.BAD 0).setFld RAWC_DEC_CELLS.CRC 0).setFlag RAWC_DEC_STATUS.BUSY true)) := by
  obtain ⟨u, hu⟩ : ∃ u, u = ((busOk 0 s).setFlag RAWC_DEC_CTRL.PLAY play).setFld RAWC_DEC_CTRL.FILL fill.toNat := ⟨_, rfl⟩
  refine ⟨u, ?_, ?_, ?_, ?_, ?_⟩
  · rw [hu]
    exact ((onlyRegs_busOk 0 s _).setFld (f := RAWC_DEC_CTRL.PLAY) (.head _) _).setFld (f := RAWC_DEC_CTRL.FILL) (.head _) _
  · rw [hu, State.flag_setFld_apart _ RAWC_DEC_CTRL.PLAY RAWC_DEC_CTRL.FILL _ (by decide) (by decide)]
    exact State.flag_setFlag_same _ _ _ (by decide) rfl
  · rw [hu]
    exact State.fld_setFld_lt _ RAWC_DEC_CTRL.FILL _ (by decide) fill.isLt
  · rw [hu]; rfl
  · show execRawcDecode play fill s = _
    unfold execRawcDecode
    rw [hu]
    exact if_neg (by simpa using (show rawcOn (busOk 0 s) = true from hon))

theorem OnlyRegs.rawcDecodeSource {s u : State} (h : OnlyRegs s u [RAWC_DEC_CTRL.PLAY.addr]) : decSrc u = decSrc s ∧ decDst u = decDst s ∧
    u.fld RAWC_DEC_LEN.BYTES = s.fld RAWC_DEC_LEN.BYTES ∧ u.fld RAWC_DEC_DST_SIZE.BYTES = s.fld RAWC_DEC_DST_SIZE.BYTES ∧ SameMap s u := by
  obtain ⟨hs, hr⟩ := h
  have hf : ∀ f : Fld, f.addr ≠ RAWC_DEC_CTRL.PLAY.addr → u.fld f = s.fld f := fun f hf => State.fld_congr_word (hr _ (by simpa using hf))
  refine ⟨?_, ?_, hf _ (by decide), hf _ (by decide), hr _ (by decide), hr _ (by decide), by rw [hs], by rw [hs], by rw [hs], by rw [hs]⟩
  · rw [decSrc, decSrc, hf _ (by decide), hf _ (by decide)]
  · rw [decDst, decDst, hf _ (by decide), hf _ (by decide)]

/-- A decode whose memory lies apart in DRAM begins (R277, R278). -/
theorem rawcDecode_begins {s : State} (play : Bool) (fill : BitVec 20) (hon : rawcOn s = true) (hdec : s.rawc.dec = none)
    (hsrc : inDram s (decSrc s) (s.fld RAWC_DEC_LEN.BYTES) = true)
    (hdst : inDram s (decDst s) (s.fld RAWC_DEC_DST_SIZE.BYTES) = true) (hle : decSrc s + s.fld RAWC_DEC_LEN.BYTES ≤ decDst s) :
    ∃ t, exec (.rawcDecode play fill) s = .next t ∧ t.flag RAWC_DEC_STATUS.BUSY = true ∧
      t.rawc.dec = some { src := dramOff (decSrc s), len := s.fld RAWC_DEC_LEN.BYTES, dst := dramOff (decDst s), size := s.fld RAWC_DEC_DST_SIZE.BYTES } ∧
      t.flag RAWC_DEC_CTRL.PLAY = play ∧ t.fld RAWC_DEC_CTRL.FILL = fill.toNat ∧
      OnlyRegs { s with rawc := t.rawc } t [RAWC_DEC_CTRL.PLAY.addr, RAWC_DEC_STATUS.BUSY.addr, RAWC_DEC_CELLS.BAD.addr] := by
  obtain ⟨u, hu, hplay, hfill, hrawc, hexec⟩ := exec_rawcDecode hon play fill
  obtain ⟨h1, h2, h3, h4, hmap⟩ := hu.rawcDecodeSource
  rw [hrawc, h1, h2, h3, h4, hmap.inDram, hmap.inDram, hsrc, hdst, hdec, if_neg (by simp; omega)] at hexec
  obtain ⟨w, hw⟩ : ∃ w, w = ((u.setFld RAWC_DEC_CELLS.BAD 0).setFld RAWC_DEC_CELLS.CRC 0).setFlag RAWC_DEC_STATUS.BUSY true := ⟨_, rfl⟩
  have hwr : OnlyRegs s w [RAWC_DEC_CTRL.PLAY.addr, RAWC_DEC_STATUS.BUSY.addr, RAWC_DEC_CELLS.BAD.addr] := by
    have hu' : OnlyRegs s u [RAWC_DEC_CTRL.PLAY.addr, RAWC_DEC_STATUS.BUSY.addr, RAWC_DEC_CELLS.BAD.addr] :=
      ⟨hu.1, hu.2.mono (by simp)⟩
    rw [hw]
    exact ((hu'.setFld (f := RAWC_DEC_CELLS.BAD) (by decide) _).setFld (f := RAWC_DEC_CELLS.CRC) (by decide) _).setFld
      (f := RAWC_DEC_STATUS.BUSY) (by decide) _
  have hbusy : w.flag RAWC_DEC_STATUS.BUSY = true := by rw [hw]; exact State.flag_setFlag_same _ _ _ (by decide) rfl
  have hctrl : w.word RAWC_DEC_CTRL.PLAY.addr = u.word RAWC_DEC_CTRL.PLAY.addr := by
    rw [hw, State.setFlag, State.word_setFld_ne _ _ _ (by decide), State.word_setFld_ne _ _ _ (by decide),
      State.word_setFld_ne _ _ _ (by decide)]
  rw [← hw] at hexec
  exact ⟨_, hexec, hbusy, rfl, (State.flag_of_word (f := RAWC_DEC_CTRL.PLAY) hctrl).trans hplay,
    (State.fld_congr_word (f := RAWC_DEC_CTRL.FILL) hctrl).trans hfill, by
      obtain ⟨hs, hr⟩ := hwr
      exact ⟨congrArg (setRawc _) hs, hr⟩⟩

theorem rawcDecode_refused {s : State} (play : Bool) (fill : BitVec 20) (hon : rawcOn s = true) (hdec : s.rawc.dec ≠ none) :
    ∃ t, exec (.rawcDecode play fill) s = .next t ∧ t.flag RAWC_DEC_STATUS.REFUSED = true ∧ t.rawc = s.rawc ∧ SameMemory s t := by
  obtain ⟨u, hu, -, -, hrawc, hexec⟩ := exec_rawcDecode hon play fill
  rw [if_pos (.inl (by rw [hrawc]; exact Option.isSome_iff_ne_none.2 hdec))] at hexec
  refine ⟨_, hexec, State.flag_setFlag_same _ _ _ (by decide) rfl, hrawc, sameMemory_of_stores ?_⟩
  show u.stores = s.stores
  rw [hu.1]
  rfl


theorem decodeDone_shown (s : State) : (decodeDone s).rawc.dec = none ∧ (decodeDone s).flag RAWC_DEC_STATUS.BUSY = false ∧
    (decodeDone s).flag RAWC_DEC_STATUS.DONE = true ∧ (decodeDone s).flag RAWC_DEC_STATUS.BAD_FRAME = s.flag RAWC_DEC_STATUS.BAD_FRAME ∧
    (decodeDone s).flag RAWC_DEC_CTRL.PLAY = s.flag RAWC_DEC_CTRL.PLAY ∧ (decodeDone s).dram = s.dram := by
  obtain ⟨u, hu⟩ : ∃ u, u = (s.setFlag RAWC_DEC_STATUS.BUSY false).setFlag RAWC_DEC_STATUS.DONE true := ⟨_, rfl⟩
  have hr : ∀ f, (decodeDone s).flag f = u.flag f := fun f => by rw [hu]; rfl
  have hbusy : (s.setFlag RAWC_DEC_STATUS.BUSY false).flag RAWC_DEC_STATUS.BUSY = false := State.flag_setFlag_same _ _ _ (by decide) rfl
  have hdone : u.flag RAWC_DEC_STATUS.DONE = true := by rw [hu]; exact State.flag_setFlag_same _ _ _ (by decide) rfl
  rw [hr, hr, hr, hr]
  refine ⟨rfl, ?_, hdone, ?_, ?_, rfl⟩
  · rw [hu, State.setFlag, State.flag_setFld_apart _ _ _ _ (by decide) (by decide), hbusy]
  · rw [hu]
    simp (disch := decide) only [State.setFlag, State.flag_setFld_apart]
  · rw [hu]
    simp (disch := decide) only [State.setFlag, State.flag_setFld_apart]

theorem decodeBad_shown (reason : Nat) (s : State) : (decodeBad reason s).rawc.dec = none ∧ (decodeBad reason s).flag RAWC_DEC_STATUS.BUSY = false ∧
    (decodeBad reason s).flag RAWC_DEC_STATUS.DONE = true ∧ (decodeBad reason s).flag RAWC_DEC_STATUS.BAD_FRAME = true ∧
    (decodeBad reason s).dram = s.dram := by
  obtain ⟨u, hu⟩ : ∃ u, u = ((s.setFlag RAWC_DEC_STATUS.BAD_FRAME true).setFlag RAWC_DEC_STATUS.WALKED false).setFld RAWC_DEC_STATUS.REASON reason :=
    ⟨_, rfl⟩
  have hset : (s.setFlag RAWC_DEC_STATUS.BAD_FRAME true).flag RAWC_DEC_STATUS.BAD_FRAME = true := State.flag_setFlag_same _ _ _ (by decide) rfl
  have hbad : u.flag RAWC_DEC_STATUS.BAD_FRAME = true := by
    rw [hu]
    simp (disch := decide) only [State.setFlag, State.flag_setFld_apart]
    exact hset
  have hd : u.dram = s.dram := by rw [hu]; rfl
  obtain ⟨h1, h2, h3, h4, -, h5⟩ := decodeDone_shown u
  have he : decodeBad reason s = rawcFlag RAWC_EVENT.DEC_ERR .warning (decodeDone u) := by rw [hu]; rfl
  have hw : (rawcFlag RAWC_EVENT.DEC_ERR .warning (decodeDone u)).word RAWC_DEC_STATUS.BUSY.addr = (decodeDone u).word RAWC_DEC_STATUS.BUSY.addr :=
    rawcFlag_word (by decide) (by decide) (by decide) _
  obtain ⟨r, c, cs, hf⟩ := rawcFlag_frame RAWC_EVENT.DEC_ERR (cls := .warning) (by decide) (decodeDone u)
  rw [he]
  refine ⟨by rw [hf]; exact h1, (State.flag_of_word (f := RAWC_DEC_STATUS.BUSY) hw).trans h2,
    (State.flag_of_word (f := RAWC_DEC_STATUS.DONE) hw).trans h3,
    (State.flag_of_word (f := RAWC_DEC_STATUS.BAD_FRAME) hw).trans (h4.trans hbad), by rw [hf]; exact h5.trans hd⟩

theorem decodeGood_shown (d : DecodeJob) (i : CodedInfo) (s : State) : (decodeGood d i s).rawc.dec = none ∧
    (decodeGood d i s).flag RAWC_DEC_STATUS.BUSY = false ∧ (decodeGood d i s).flag RAWC_DEC_STATUS.DONE = true ∧
    (decodeGood d i s).flag RAWC_DEC_STATUS.BAD_FRAME = false ∧ (decodeGood d i s).flag RAWC_DEC_CTRL.PLAY = s.flag RAWC_DEC_CTRL.PLAY := by
  unfold decodeGood
  extract_lets r px s1 s2 s3 s4
  have h1 : Stored s s2 := ((Stored.refl s).writeDram _ _).trans (.foldl (fun s e => (Stored.refl s).writeDram _ _) _ _)
  have h2 : (s2.setFlag RAWC_DEC_STATUS.BAD_FRAME false).flag RAWC_DEC_STATUS.BAD_FRAME = false := State.flag_setFlag_same _ _ _ (by decide) rfl
  have hbad : (s4.setFld RAWC_DEC_CELLS.CRC (min 65535 r.crc)).flag RAWC_DEC_STATUS.BAD_FRAME = false := by
    simp (disch := decide) only [s4, s3, State.setFlag, State.flag_setFld_apart]
    exact h2
  have hplay : (s4.setFld RAWC_DEC_CELLS.CRC (min 65535 r.crc)).flag RAWC_DEC_CTRL.PLAY = s.flag RAWC_DEC_CTRL.PLAY := by
    simp (disch := decide) only [s4, s3, State.setFlag, State.flag_setFld_apart]
    exact h1.flag (by decide)
  obtain ⟨h3, h4, h5, h6, h7, -⟩ := decodeDone_shown (s4.setFld RAWC_DEC_CELLS.CRC (min 65535 r.crc))
  exact ⟨h3, h4, h5, h6.trans hbad, h7.trans hplay⟩

/-- A decode that is not played ends: BAD_FRAME tells whether the coded frame failed a check (R278). -/
theorem decodeComplete_ends {s : State} {d : DecodeJob} (hd : s.rawc.dec = some d) (hplay : s.flag RAWC_DEC_CTRL.PLAY = false) :
    ∃ t, exec .decodeComplete s = .next t ∧ t.rawc.dec = none ∧ t.flag RAWC_DEC_STATUS.BUSY = false ∧
      t.flag RAWC_DEC_STATUS.DONE = true ∧
      t.flag RAWC_DEC_STATUS.BAD_FRAME = (checkCoded (s.dramBytes d.src d.len) d.size).isLeft ∧
      ((checkCoded (s.dramBytes d.src d.len) d.size).isLeft = true → t.dram = s.dram) := by
  obtain ⟨u, hu⟩ : ∃ u, u = poisonWarn 7 0xFF d.src d.len s := ⟨_, rfl⟩
  have hc : Checked s u := hu ▸ poisonWarn_checked ..
  have hbytes : u.dramBytes d.src d.len = s.dramBytes d.src d.len := (SameMap.of_checked hc).dramBytes hc.dram ..
  cases hck : checkCoded (s.dramBytes d.src d.len) d.size with
  | inl r =>
    have hexec : exec .decodeComplete s = .next (decodeBad r u) := by
      show execDecodeComplete s = _
      unfold execDecodeComplete
      simp only [hd, ← hu, hbytes, hck]
    obtain ⟨h1, h2, h3, h4, h5⟩ := decodeBad_shown r u
    exact ⟨_, hexec, h1, h2, h3, h4, fun _ => h5.trans hc.dram⟩
  | inr i =>
    obtain ⟨h1, h2, h3, h4, h5⟩ := decodeGood_shown d i u
    have hoff : (decodeGood d i u).flag RAWC_DEC_CTRL.PLAY = false := h5.trans ((hc.flag (by decide)).trans hplay)
    have hexec : exec .decodeComplete s = .next (decodeGood d i u) := by
      show execDecodeComplete s = _
      unfold execDecodeComplete
      simp only [hd, ← hu, hbytes, hck, hoff, Bool.false_eq_true, if_false]
    exact ⟨_, hexec, h1, h2, h3, h4, fun h => nomatch h⟩

/-! ### The obligation -/

theorem rawcCounterClear_clears (s : State) : ∃ t, exec .rawcCounterClear s = .next t ∧ t.fld RAWC_CNT_RECODE.COUNT = 0 ∧
    t.fld RAWC_CNT_DAMAGED.COUNT = 0 ∧ t.fld RAWC_CNT_VERBATIM.COUNT = 0 ∧
    OnlyRegs s t [RAWC_CNT_RECODE.COUNT.addr, RAWC_CNT_DAMAGED.COUNT.addr, RAWC_CNT_VERBATIM.COUNT.addr] := by
  refine ⟨_, rfl, ?_, ?_, State.fld_setFld_zero (by decide), ((onlyRegs_busOk 0 s _).setFld (f := RAWC_CNT_RECODE.COUNT) (by decide) 0
    |>.setFld (f := RAWC_CNT_DAMAGED.COUNT) (by decide) 0).setFld (f := RAWC_CNT_VERBATIM.COUNT) (by decide) 0⟩
  · rw [State.fld_setFld_apart _ _ _ _ (by decide) (by decide), State.fld_setFld_apart _ _ _ _ (by decide) (by decide)]
    exact State.fld_setFld_zero (by decide)
  · rw [State.fld_setFld_apart _ _ _ _ (by decide) (by decide)]
    exact State.fld_setFld_zero (by decide)

/-- Settles O35, a lemma for each clause: a frame's begin, its detections and its end, and the decodes. -/
theorem coderAndDecodes : Obligations.CoderAndDecodes := by
  unfold Obligations.CoderAndDecodes
  refine ⟨fun s f fs h hon hh hm => ?_, fun s f fs h hon hh hm hu => ?_, fun s num id j f hj hf hid hm hb => ?_, fun s num j f hj hf => ?_,
    fun s j js f k q qs hjobs hf hslot hdisp ha ht hrec hq hp => coderFrameComplete_hands hjobs hf hslot hdisp ha ht hrec hq hp,
    fun s play fill hon hdec hsrc hdst hle => rawcDecode_begins play fill hon hdec hsrc hdst hle,
    fun s play fill hon hdec => rawcDecode_refused play fill hon hdec,
    fun s d hd hplay => decodeComplete_ends hd hplay, rawcCounterClear_clears⟩
  · obtain ⟨j, hjobs, ⟨h1, h2, h3, h4, h5, h6⟩, hstate⟩ := beginCoding_shown f [] false s
    obtain ⟨hcur, -, hregs⟩ := beginCoding_regs f [] false s
    exact ⟨_, j, exec_coderFrameBegin h hon hh hm, hjobs, h1, h2, h3, h4, h5, h6, hcur, hstate, hregs⟩
  · obtain ⟨j, hjobs, ⟨h1, -, -, h4, h5, -⟩, hstate⟩ := beginCoding_shown f [] true s
    exact ⟨_, j, exec_coderMapTimeout h hon hh hm hu, hjobs, h1, h4, h5, (beginCoding_regs f [] true s).2.1 rfl, hstate⟩
  · obtain ⟨h1, h2, h3, h4⟩ := cellDetected_recodes (s := s) (id := id) f hj hm hb
    have hexec : exec (.coderDetection num (.cell id)) s = .next (cellDetected j f id s) := by
      simp only [exec, execCoderDetection, hj, hf, hid, if_true]
    exact ⟨_, hexec, h1, h2, h3, h4⟩
  · obtain ⟨u, hu⟩ : ∃ u, u = modJob num (fun j => { j with noIndex := true }) s := ⟨_, rfl⟩
    have hexec : exec (.coderDetection num .index) s = .next (rawcFlag RAWC_EVENT.INDEX .recoverable u) := by
      simp only [exec, execCoderDetection, hj, hf, hu]
    refine ⟨_, hexec, ?_, rawcFlag_flag (by decide) (by decide) rfl (by decide) _, sameMemory_of_stores ?_⟩
    · rw [rawcFlag_rawc _ (by decide), hu]
      exact find_modJob (g := fun j => { j with noIndex := true }) hj fun _ => rfl
    · rw [rawcFlag_stores _ (by decide), hu]
      rfl

end Sys2Proof.Machine
end

section
/-! PROOFS. Signing requests, presence and the seal (R92 to R99, R298, R300). -/

namespace Sys2Proof.Machine

/-! ### Signing -/

theorem attestFields_busOk (s : State) (nonce fwData : List Byte) : attestFields (busOk 0 s) nonce fwData = attestFields s nonce fwData := rfl

theorem manifestFields_busOk (s : State) (kind : Nat) (l : SecondLatch) (takeId fwData : List Byte) :
    manifestFields (busOk 0 s) kind l takeId fwData = manifestFields s kind l takeId fwData := rfl

/-- A request that starts: the job that the engine takes (R298). -/
theorem signStart_shown (domain addr : Nat) (latch : List Byte) (s : State) : (signStart domain addr latch (busOk 0 s)).flag TRUST_SIGN_CTRL.BUSY = true ∧
    (signStart domain addr latch (busOk 0 s)).trust.sign = some { domain := domain, addr := addr, latch := latch } ∧
    OnlyRegs { s with trust := (signStart domain addr latch (busOk 0 s)).trust } (signStart domain addr latch (busOk 0 s))
      [TRUST_SIGN_CTRL.BUSY.addr] :=
  ⟨State.flag_setFlag_same (busOk 0 s) TRUST_SIGN_CTRL.BUSY true (by decide) rfl, rfl,
    (onlyRegs_busOk 0 { s with trust := (signStart domain addr latch (busOk 0 s)).trust } _).setFld (f := TRUST_SIGN_CTRL.BUSY) (.head _) 1⟩

theorem signRefused_shown (s : State) : (signRefused (busOk 0 s)).flag TRUST_SIGN_CTRL.REFUSED = true ∧
    OnlyRegs s (signRefused (busOk 0 s)) [TRUST_SIGN_CTRL.REFUSED.addr] :=
  ⟨State.flag_setFlag_same (busOk 0 s) TRUST_SIGN_CTRL.REFUSED true (by decide) rfl,
    (onlyRegs_busOk 0 s _).setFld (f := TRUST_SIGN_CTRL.REFUSED) (.head _) 1⟩

theorem exec_attest {s : State} {a : Nat} (hb : signBlocked s = false) (ha : signBuffer s 7699 = some a) : exec .attest s =
    .next (signStart 0 a (attestFields s (s.scratchBytes (a + 0x20) 32) (s.scratchBytes (a + 0x1A0) 64)) (busOk 0 s)) := by
  have hb' : signBlocked (busOk 0 s) = false := hb
  have ha' : signBuffer (busOk 0 s) 7699 = some a := ha
  show execAttest s = _
  simp only [execAttest, hb', ha', Bool.false_eq_true, if_false, attestFields_busOk]
  rfl

theorem manifestStart_begins {s : State} {a : Nat} (kind : Nat) (l : SecondLatch) (hl : lifecycleCode s ≠ 0) (hb : signBlocked s = false)
    (ha : signBuffer s 5120 = some a) : manifestStart kind l (busOk 0 s) =
      signStart kind a (manifestFields s kind l (s.scratchBytes (a + 0x20) 16) (s.scratchBytes (a + 0x180) 64)) (busOk 0 s) := by
  have hb' : signBlocked (busOk 0 s) = false := hb
  have ha' : signBuffer (busOk 0 s) 5120 = some a := ha
  have hl' : lifecycleCode (busOk 0 s) ≠ 0 := hl
  simp only [manifestStart, hb', ha', if_neg hl', Bool.false_eq_true, if_false, manifestFields_busOk]
  rfl

theorem manifestStart_blocked {s : State} (kind : Nat) (l : SecondLatch) (hl : lifecycleCode s ≠ 0) (hb : signBlocked s = true) :
    manifestStart kind l (busOk 0 s) = signRefused (busOk 0 s) := by
  have hb' : signBlocked (busOk 0 s) = true := hb
  have hl' : lifecycleCode (busOk 0 s) ≠ 0 := hl
  simp only [manifestStart, hb', if_neg hl', if_true]

/-- In Blank a manifest is refused (R300). -/
theorem manifestStart_blank {s : State} (kind : Nat) (l : SecondLatch) (hl : lifecycleCode s = 0) :
    (manifestStart kind l (busOk 0 s)).flag TRUST_SIGN_CTRL.REFUSED = true ∧ (manifestStart kind l (busOk 0 s)).trust = s.trust ∧
    SameMemory s (manifestStart kind l (busOk 0 s)) := by
  have hl' : lifecycleCode (busOk 0 s) = 0 := hl
  have he : manifestStart kind l (busOk 0 s) = postRefused 2 TRUST_SIGN_CTRL.DOMAIN.addr (signRefused (busOk 0 s)) := by
    simp only [manifestStart, hl', if_true]
  obtain ⟨u, hu⟩ : ∃ u, u = signRefused (busOk 0 s) := ⟨_, rfl⟩
  have hflag : u.flag TRUST_SIGN_CTRL.REFUSED = true := hu ▸ (signRefused_shown s).1
  have hs : u.stores = s.stores ∧ u.trust = s.trust := by rw [hu]; exact ⟨rfl, rfl⟩
  rw [he, ← hu]
  refine ⟨(postKind_flag 4 2 0xFF _ u (by decide)).trans hflag, ?_, sameMemory_of_stores ((postKind_stores 4 2 0xFF _ u).trans hs.1)⟩
  obtain ⟨r, c, l, h, -⟩ := postEvent_frame (e := { cls := .warning, block := 2, cause := 0x200 + 4, inst := 0xFF, detail := TRUST_SIGN_CTRL.DOMAIN.addr })
    (by decide) u
  show (postEvent _ u).trust = s.trust
  rw [h]
  exact hs.2

theorem exec_manifest {s : State} (h : s.call.restart = none) : exec .checkpoint s = .next (manifestStart 1 (s.hash.latch.getD latchZero) (busOk 0 s)) ∧
    exec .finalManifest s = .next (manifestStart 2 (latchNow s) (busOk 0 s)) := by
  simp only [exec, execCheckpoint, execFinalManifest, h, Option.isSome_none, Bool.false_eq_true, if_false, and_self]

/-- The engine has finished: the fields and their signature stand in the buffer (R94, R298). -/
theorem signDone_shown {s : State} {j : SignJob} (hj : s.trust.sign = some j) :
    ∃ t, exec .signDone s = .next t ∧ t.trust.sign = none ∧ t.flag TRUST_SIGN_CTRL.BUSY = false ∧ t.flag TRUST_SIGN_CTRL.DONE = true ∧
      t.scratch = (s.writeScratch j.addr (signedBytes s (signPrefix j.domain) j.latch)).scratch ∧
      t.hash.signSeq = s.hash.signSeq + (if j.domain = 0 then 0 else 1) ∧ RegsBut s t [TRUST_SIGN_CTRL.BUSY.addr] := by
  obtain ⟨u, hu⟩ : ∃ u, u = { s with free := s.free + 1, trust := { s.trust with sign := none }
                                     scratch := writeList 0 s.scratch j.addr ((signedBytes s (signPrefix j.domain) j.latch).map writtenCell) } := ⟨_, rfl⟩
  obtain ⟨v, hv⟩ : ∃ v, v = (u.setFlag TRUST_SIGN_CTRL.BUSY false).setFlag TRUST_SIGN_CTRL.DONE true := ⟨_, rfl⟩
  have hexec : exec .signDone s = if j.domain = 0 then .next v else
      .next (setHash { v.hash with signSeq := v.hash.signSeq + 1, signedSeg := leAt j.latch 0x44 4, restarted := false } v) := by
    show execSignDone s = _
    rw [hv, hu]
    unfold execSignDone
    rw [hj]
    rfl
  have hoff : (u.setFlag TRUST_SIGN_CTRL.BUSY false).flag TRUST_SIGN_CTRL.BUSY = false := State.flag_setFlag_same _ _ _ (by decide) rfl
  have hbusy : v.flag TRUST_SIGN_CTRL.BUSY = false := by
    rw [hv]
    exact (State.flag_setFld_apart _ TRUST_SIGN_CTRL.BUSY TRUST_SIGN_CTRL.DONE _ (by decide) (by decide)).trans hoff
  have hdone : v.flag TRUST_SIGN_CTRL.DONE = true := by rw [hv]; exact State.flag_setFlag_same _ _ _ (by decide) rfl
  have hregs : RegsBut s v [TRUST_SIGN_CTRL.BUSY.addr] := by
    have h0 : RegsBut s u [TRUST_SIGN_CTRL.BUSY.addr] := .of_regs (by rw [hu]) _
    rw [hv]
    exact (h0.setFld (f := TRUST_SIGN_CTRL.BUSY) (.head _) _).setFld (f := TRUST_SIGN_CTRL.DONE) (.head _) _
  have hst : v.trust.sign = none ∧ v.scratch = (s.writeScratch j.addr (signedBytes s (signPrefix j.domain) j.latch)).scratch ∧
      v.hash = s.hash := by rw [hv, hu]; exact ⟨rfl, rfl, rfl⟩
  obtain ⟨hsign, hscratch, hhash⟩ := hst
  by_cases hd : j.domain = 0
  · rw [if_pos hd] at hexec ⊢
    exact ⟨v, hexec, hsign, hbusy, hdone, hscratch, congrArg HashState.signSeq hhash, hregs⟩
  · rw [if_neg hd] at hexec ⊢
    exact ⟨_, hexec, hsign, hbusy, hdone, hscratch, congrArg (fun x : HashState => x.signSeq + 1) hhash, hregs⟩

/-! ### Presence and the seal -/

theorem presencePress_opens {s : State} (hp : s.trust.pressed = false) (hheld : s.flag THERM_STATUS.HELD = false) :
    ∃ t, exec .presencePress s = .next t ∧ t.flag TRUST_PRESENCE.PRESS = true ∧
      t.trust = { s.trust with pressed := true
                               windowFrom := if s.flag TRUST_PRESENCE.SEAL_OK then some s.ticks else s.trust.windowFrom } ∧
      OnlyRegs { s with trust := t.trust } t [TRUST_PRESENCE.PRESS.addr] := by
  have hok : (s.setFlag TRUST_PRESENCE.PRESS true).flag TRUST_PRESENCE.SEAL_OK = s.flag TRUST_PRESENCE.SEAL_OK :=
    State.flag_setFld_apart s TRUST_PRESENCE.SEAL_OK TRUST_PRESENCE.PRESS _ (by decide) (by decide)
  have hoff : (acceptPress s).flag THERM_STATUS.HELD = false :=
    (State.flag_setFld_apart s THERM_STATUS.HELD TRUST_PRESENCE.PRESS 1 (by decide) (by decide)).trans hheld
  have hexec : exec .presencePress s = .next (acceptPress s) := by
    simp only [exec, execPresencePress, hp, hoff, Bool.false_eq_true, if_false]
  refine ⟨_, hexec, State.flag_setFlag_same s _ _ (by decide) rfl, ?_, rfl, ?_⟩
  · show TrustState.mk .. = _
    rw [hok]
    rfl
  · exact (RegsBut.refl { s with trust := (acceptPress s).trust } _).setFld (f := TRUST_PRESENCE.PRESS) (.head _) 1

/-- The misses of a level after a sample: of the driven level, none where the sample answers it. -/
def missesOf (b driven level : Bool) (n : Nat) : Nat := if driven == level then (if b == driven then 0 else min 3 (n + 1)) else n

theorem sealSample_eq (b : Bool) (s : State) : ∃ x, x = { s.trust with
      lfsr := lfsrStep s.trust.lfsr, driven := (lfsrStep s.trust.lfsr).getLsbD 0
      missHigh := missesOf b ((lfsrStep s.trust.lfsr).getLsbD 0) true s.trust.missHigh
      missLow := missesOf b ((lfsrStep s.trust.lfsr).getLsbD 0) false s.trust.missLow } ∧
    sealSample b s =
      if x.missHigh = 3 ∨ x.missLow = 3 then (if s.flag TRUST_PRESENCE.SEAL_OK then sealBreak { s with trust := x } else { s with trust := x })
      else if x.missHigh = 0 ∧ x.missLow = 0 then ({ s with trust := x } : State).setFlag TRUST_PRESENCE.SEAL_OK true
      else { s with trust := x } := by
  refine ⟨_, rfl, ?_⟩
  unfold sealSample missesOf
  dsimp only
  cases (lfsrStep s.trust.lfsr).getLsbD 0 <;> rfl

theorem sealSample_answers {s : State} (hh : s.trust.missHigh = 0) (hl : s.trust.missLow = 0) :
    sealSample ((lfsrStep s.trust.lfsr).getLsbD 0) s =
      ({ s with trust := { s.trust with lfsr := lfsrStep s.trust.lfsr, driven := (lfsrStep s.trust.lfsr).getLsbD 0 } } : State).setFlag
        TRUST_PRESENCE.SEAL_OK true := by
  obtain ⟨x, hx, he⟩ := sealSample_eq ((lfsrStep s.trust.lfsr).getLsbD 0) s
  have hhigh : x.missHigh = 0 := by rw [hx]; simp [missesOf, hh]
  have hlow : x.missLow = 0 := by rw [hx]; simp [missesOf, hl]
  have hx' : x = { s.trust with lfsr := lfsrStep s.trust.lfsr, driven := (lfsrStep s.trust.lfsr).getLsbD 0 } := by
    rw [hx]
    simp [missesOf, hh, hl]
  rw [he, if_neg (by rw [hhigh, hlow]; decide), if_pos ⟨hhigh, hlow⟩, hx']

theorem sealSample_breaks {s : State} {b : Bool} (hb : b ≠ (lfsrStep s.trust.lfsr).getLsbD 0)
    (hm : (if b then s.trust.missLow else s.trust.missHigh) = 2) (hok : s.flag TRUST_PRESENCE.SEAL_OK = true) :
    ∃ x, sealSample b s = sealBreak { s with trust := x } ∧ x.otp = s.trust.otp ∧ x.jrnlSpent = s.trust.jrnlSpent := by
  obtain ⟨x, hx, he⟩ := sealSample_eq b s
  have hmiss : x.missHigh = 3 ∨ x.missLow = 3 := by
    rw [hx]
    cases b
    · have hd : (lfsrStep s.trust.lfsr).getLsbD 0 = true := by simpa using hb
      have hm : s.trust.missHigh = 2 := hm
      exact .inl (by show missesOf false _ true s.trust.missHigh = 3; rw [hd, hm]; rfl)
    · have hd : (lfsrStep s.trust.lfsr).getLsbD 0 = false := by simpa using hb
      have hm : s.trust.missLow = 2 := hm
      exact .inr (by show missesOf true _ false s.trust.missLow = 3; rw [hd, hm]; rfl)
  rw [if_pos hmiss, if_pos hok] at he
  exact ⟨x, he, by rw [hx], by rw [hx]⟩

theorem advanceJournal_shown (p seq : Nat) (s : State) : (advanceJournal p seq s).trust.otp = s.trust.otp ∧
    (advanceJournal p seq s).trust.windowFrom = s.trust.windowFrom ∧
    RegsBut s (advanceJournal p seq s) [NVMC_STATUS.FULL.addr, NVMC_JRNL_SEQ.DATA.addr, CALL_OVERFLOW.COUNT.addr] := by
  have h : RegsBut s (s.setFld NVMC_JRNL_SEQ.DATA (seq + 1)) [NVMC_STATUS.FULL.addr, NVMC_JRNL_SEQ.DATA.addr, CALL_OVERFLOW.COUNT.addr] :=
    (RegsBut.refl s _).setFld (by decide) _
  exact ⟨rfl, rfl, fun a ha => h a ha⟩

/-- The record of the break leaves what the seal shows: it is programmed, waits, or finds the journal full (R98, R105). -/
theorem recordOrHold_shows {s : State} (hspent : s.trust.jrnlSpent = false) (hseq : s.fld NVMC_JRNL_SEQ.DATA ≠ 0) (type : Nat)
    (payload : List Byte) : (recordOrHold type payload s).trust.otp = s.trust.otp ∧
    (recordOrHold type payload s).trust.windowFrom = s.trust.windowFrom ∧
    RegsBut s (recordOrHold type payload s) [NVMC_STATUS.FULL.addr, NVMC_JRNL_SEQ.DATA.addr, CALL_OVERFLOW.COUNT.addr] := by
  have hk : knowPosition s = s := if_neg hseq
  have hfull : ∀ u : State, u.trust.otp = s.trust.otp → u.trust.windowFrom = s.trust.windowFrom → u.regs = s.regs →
      (journalFull u).trust.otp = s.trust.otp ∧ (journalFull u).trust.windowFrom = s.trust.windowFrom ∧
      RegsBut s (journalFull u) [NVMC_STATUS.FULL.addr, NVMC_JRNL_SEQ.DATA.addr, CALL_OVERFLOW.COUNT.addr] := by
    intro u ho hw hr
    have hregs := ((RegsBut.of_regs hr [NVMC_STATUS.FULL.addr, NVMC_JRNL_SEQ.DATA.addr, CALL_OVERFLOW.COUNT.addr]).setFld
      (f := NVMC_STATUS.FULL) (by decide) 1).postEvent
      (e := { cls := .recoverable, block := 24, cause := 0x204, inst := 0xFF, detail := NVMC_OP.OP.addr }) (by decide) (by decide)
    obtain ⟨r, c, l, h, -⟩ := postEvent_frame (e := { cls := .recoverable, block := 24, cause := 0x204, inst := 0xFF, detail := NVMC_OP.OP.addr })
      (by decide) (u.setFlag NVMC_STATUS.FULL true)
    refine ⟨?_, ?_, hregs⟩
    · rw [journalFull, h]
      exact ho
    · rw [journalFull, h]
      exact hw
  unfold recordOrHold
  split
  · exact hfull (holdRecord true type payload s) rfl rfl rfl
  · rw [hk]
    unfold deviceRecord
    rw [if_neg (by simp [hspent])]
    split
    · exact ⟨rfl, rfl, .refl s _⟩
    · split
      · exact hfull s rfl rfl rfl
      · next p _ =>
        obtain ⟨ho, hw, hr⟩ := advanceJournal_shown p (s.fld NVMC_JRNL_SEQ.DATA)
          (programBoth p (recordBytes type (s.fld NVMC_JRNL_SEQ.DATA) s.time payload) s)
        exact ⟨ho, hw, fun a ha => hr a ha⟩

theorem sealBreak_shown {s : State} (hspent : s.trust.jrnlSpent = false) (hseq : s.fld NVMC_JRNL_SEQ.DATA ≠ 0) :
    (sealBreak s).flag TRUST_PRESENCE.SEAL_OK = false ∧ (sealBreak s).flag TRUST_STATUS.OPENED = true ∧
    (sealBreak s).fld TRUST_SEAL_COUNT.BREAKS = min (2 ^ 32 - 1) (s.fld TRUST_SEAL_COUNT.BREAKS + 1) ∧
    (sealBreak s).trust.otp = { s.trust.otp with sealSteps := min 16 (s.trust.otp.sealSteps + 1) } ∧ (sealBreak s).trust.windowFrom = none := by
  obtain ⟨u, hu⟩ : ∃ u, u = ({ s with trust := { s.trust with
    otp := { s.trust.otp with sealSteps := min 16 (s.trust.otp.sealSteps + 1) }, windowFrom := none } } : State) := ⟨_, rfl⟩
  obtain ⟨v, hv⟩ : ∃ v, v = ((u.setFlag TRUST_PRESENCE.SEAL_OK false).setFlag TRUST_STATUS.OPENED true).addFld TRUST_SEAL_COUNT.BREAKS 1 := ⟨_, rfl⟩
  obtain ⟨r, c, l, hpost, -⟩ := postEvent_frame (e := { cls := .recoverable, block := 2, cause := 0x300, inst := 0xFF, detail := 0 }) (by decide) v
  obtain ⟨w, hw⟩ : ∃ w, w = postEvent { cls := .recoverable, block := 2, cause := 0x300, inst := 0xFF, detail := 0 } v := ⟨_, rfl⟩
  have hword : ∀ {a}, a ≠ CALL_OVERFLOW.COUNT.addr → w.word a = v.word a := fun ha => hw ▸ postEvent_word (by decide) v ha
  have htrust : w.trust = u.trust := by rw [hw, hpost, hv]; rfl
  have he : ∃ payload, sealBreak s = recordOrHold 4 payload w := ⟨_, by rw [hw, hv, hu]; rfl⟩
  obtain ⟨payload, he⟩ := he
  have hs1 : w.trust.jrnlSpent = false := by rw [htrust, hu]; exact hspent
  have hs2 : w.fld NVMC_JRNL_SEQ.DATA ≠ 0 := by
    rw [State.fld_congr_word (f := NVMC_JRNL_SEQ.DATA) (hword (by decide)), hv, State.addFld]
    simp (disch := decide) only [State.setFlag, State.fld_setFld_apart]
    rw [hu]
    exact hseq
  obtain ⟨ho, hwin, hregs⟩ := recordOrHold_shows hs1 hs2 4 payload
  have hfinal : ∀ {a}, a ∉ [NVMC_STATUS.FULL.addr, NVMC_JRNL_SEQ.DATA.addr, CALL_OVERFLOW.COUNT.addr] → a ≠ CALL_OVERFLOW.COUNT.addr →
      (sealBreak s).word a = v.word a := fun ha hb => by rw [he, hregs _ ha, hword hb]
  have hok : (u.setFlag TRUST_PRESENCE.SEAL_OK false).flag TRUST_PRESENCE.SEAL_OK = false := State.flag_setFlag_same _ _ _ (by decide) rfl
  have hopen : ((u.setFlag TRUST_PRESENCE.SEAL_OK false).setFlag TRUST_STATUS.OPENED true).flag TRUST_STATUS.OPENED = true :=
    State.flag_setFlag_same _ _ _ (by decide) rfl
  refine ⟨?_, ?_, ?_, ?_, ?_⟩
  · rw [State.flag_of_word (f := TRUST_PRESENCE.SEAL_OK) (hfinal (by decide) (by decide)), hv, State.addFld,
      State.flag_setFld_apart _ _ _ _ (by decide) (by decide)]
    exact (State.flag_setFld_apart _ TRUST_PRESENCE.SEAL_OK TRUST_STATUS.OPENED _ (by decide) (by decide)).trans hok
  · rw [State.flag_of_word (f := TRUST_STATUS.OPENED) (hfinal (by decide) (by decide)), hv, State.addFld,
      State.flag_setFld_apart _ _ _ _ (by decide) (by decide), hopen]
  · rw [State.fld_congr_word (f := TRUST_SEAL_COUNT.BREAKS) (hfinal (by decide) (by decide)), hv, State.fld_addFld_same _ _ _ (by decide)]
    simp (disch := decide) only [State.setFlag, State.fld_setFld_apart]
    rw [hu]
    rfl
  · rw [he, ho, htrust, hu]
  · rw [he, hwin, htrust, hu]

/-- Settles O23, a lemma for each kind of request, press and sample. -/
theorem signingPresenceAndSeal : Obligations.SigningPresenceAndSeal := by
  unfold Obligations.SigningPresenceAndSeal
  refine ⟨fun s a hb ha => ?_, fun s a l hr hb hl ha hlatch => ?_, fun s a hr hb hl ha => ?_, fun s hb c hc hor => ?_, fun s hr c hc => ?_,
    fun s j hj => signDone_shown hj, fun s hp hh => presencePress_opens hp hh, fun s => rfl, fun s => rfl, fun s => ⟨?_, ?_⟩, fun s b hb hh hl => ?_,
    fun s b hb hm hok hsp hseq => ?_, fun s hr hl c hc => ?_⟩
  · obtain ⟨h1, h2, h3⟩ := signStart_shown 0 a (attestFields s (s.scratchBytes (a + 0x20) 32) (s.scratchBytes (a + 0x1A0) 64)) s
    exact ⟨_, exec_attest hb ha, h1, ⟨_, h2, rfl, rfl, rfl⟩, h3⟩
  · obtain ⟨h1, h2, h3⟩ := signStart_shown 1 a (manifestFields s 1 l (s.scratchBytes (a + 0x20) 16) (s.scratchBytes (a + 0x180) 64)) s
    exact ⟨_, (exec_manifest hr).1.trans (by rw [manifestStart_begins _ _ hl hb ha, hlatch]; rfl), h1, ⟨_, h2, rfl, rfl, rfl⟩, h3⟩
  · obtain ⟨h1, h2, h3⟩ := signStart_shown 2 a (manifestFields s 2 (latchNow s) (s.scratchBytes (a + 0x20) 16) (s.scratchBytes (a + 0x180) 64)) s
    exact ⟨_, (exec_manifest hr).2.trans (by rw [manifestStart_begins _ _ hl hb ha]), h1, ⟨_, h2, rfl, rfl, rfl⟩, h3⟩
  · obtain ⟨h1, h2⟩ := signRefused_shown s
    refine ⟨signRefused (busOk 0 s), ?_, h1, h2⟩
    simp only [List.mem_cons, List.not_mem_nil, or_false] at hc
    obtain rfl | rfl | rfl := hc
    · have hb' : signBlocked (busOk 0 s) = true := hb
      simp only [exec, execAttest, hb', if_true]
    · obtain ⟨hl, hr⟩ := hor.resolve_left (fun h => nomatch h)
      rw [(exec_manifest hr).1, manifestStart_blocked _ _ hl hb]
    · obtain ⟨hl, hr⟩ := hor.resolve_left (fun h => nomatch h)
      rw [(exec_manifest hr).2, manifestStart_blocked _ _ hl hb]
  · simp only [List.mem_cons, List.not_mem_nil, or_false] at hc
    obtain rfl | rfl := hc
    · simp only [exec, execCheckpoint, hr, if_true]
    · simp only [exec, execFinalManifest, hr, if_true]
  · exact ⟨_, rfl, State.flag_setFlag_same s _ _ (by decide) rfl, rfl, (RegsBut.refl s _).setFld (f := TRUST_PRESENCE.JMP) (.head _) 1⟩
  · exact ⟨_, rfl, State.flag_setFlag_same s _ _ (by decide) rfl, rfl, (RegsBut.refl s _).setFld (f := TRUST_PRESENCE.JMP) (.head _) 0⟩
  · subst hb
    have he : exec (.sealSample ((lfsrStep s.trust.lfsr).getLsbD 0)) s = .next (sealSample ((lfsrStep s.trust.lfsr).getLsbD 0) s) := rfl
    rw [sealSample_answers hh hl] at he
    exact ⟨_, he, State.flag_setFlag_same _ _ _ (by decide) rfl, rfl, rfl,
      (RegsBut.of_regs rfl _).setFld (f := TRUST_PRESENCE.SEAL_OK) (.head _) 1⟩
  · obtain ⟨x, hx, hotp, hspent⟩ := sealSample_breaks hb hm hok
    have he : exec (.sealSample b) s = .next (sealSample b s) := rfl
    rw [hx] at he
    obtain ⟨h1, h2, h3, h4, h5⟩ := sealBreak_shown (s := { s with trust := x }) (hspent.trans hsp) (Nat.ne_of_gt hseq)
    exact ⟨_, he, h1, h2, h3, h4.trans (by rw [← hotp]), h5⟩
  · simp only [List.mem_cons, List.not_mem_nil, or_false] at hc
    obtain rfl | rfl := hc
    · exact ⟨_, (exec_manifest hr).1, manifestStart_blank _ _ hl⟩
    · exact ⟨_, (exec_manifest hr).2, manifestStart_blank _ _ hl⟩

end Sys2Proof.Machine
end

section
/-! PROOFS. What a fatal event leaves of the ledger: in Dawn it may lead to Dark (R559, R560). -/

namespace Sys2Proof.Machine

/-- Registers of the ledger that no loss of power touches. -/
def auditRegs : List Nat := [LEDGER_AUDIT_FAIL.PATH.addr, LEDGER_EVENT.AUDIT_FAIL.addr, LEDGER_SPILL_WR.WR.addr]

/-- What the audit latched. -/
def State.audited (s : State) : List (List Nat) × List (List Nat) × (Nat × Nat) :=
  (s.ledger.auditFrames, s.ledger.auditCredits, s.ledger.auditAt)

/-- `t` is `s` after a fatal event: frames may be cut off, ports may have lost the frames that they held open. -/
structure Outage (s t : State) : Prop where
  frames : ∃ g : Frame → Frame, t.ledger.frames = s.ledger.frames.map g ∧ ∀ x, g x = x ∨ g x = { x with cut := true }
  audited : t.audited = s.audited
  ports : t.ingest.length = s.ingest.length ∧ ∀ p, (portOf t p).group = (portOf s p).group ∧
    ((portOf t p).opens = (portOf s p).opens ∨ (portOf t p).opens = [])
  regs : ∀ a ∈ auditRegs, t.word a = s.word a

namespace Outage

variable {s t u : State}

theorem of_frames (hf : t.ledger.frames = s.ledger.frames) (ha : t.audited = s.audited) (hi : t.ingest = s.ingest)
    (hr : ∀ a ∈ auditRegs, t.word a = s.word a) : Outage s t := by
  refine ⟨⟨id, by simp [hf], fun _ => .inl rfl⟩, ha, ⟨by rw [hi], fun p => ?_⟩, hr⟩
  rw [portOf, hi]
  exact ⟨rfl, .inl rfl⟩

theorem refl (s : State) : Outage s s := of_frames rfl rfl rfl fun _ _ => rfl

theorem of_eq (hl : t.ledger = s.ledger) (hi : t.ingest = s.ingest) (hr : t.regs = s.regs) : Outage s t :=
  of_frames (by rw [hl]) (by rw [State.audited, State.audited, hl]) hi fun _ _ => State.word_congr hr _

theorem trans (h : Outage s t) (h' : Outage t u) : Outage s u := by
  obtain ⟨⟨g, hf, hg⟩, ha, ⟨hlen, hp⟩, hr⟩ := h
  obtain ⟨⟨g', hf', hg'⟩, ha', ⟨hlen', hp'⟩, hr'⟩ := h'
  refine ⟨⟨g' ∘ g, by rw [hf', hf, List.map_map], fun x => ?_⟩, ha'.trans ha, ⟨hlen'.trans hlen, fun p => ⟨(hp' p).1.trans (hp p).1, ?_⟩⟩,
    fun a ha => (hr' a ha).trans (hr a ha)⟩
  · show g' (g x) = x ∨ g' (g x) = _
    obtain h | h := hg x <;> obtain h' | h' := hg' (g x) <;> rw [h', h] <;> simp
  · obtain h | h := (hp' p).2
    · rw [h]
      exact (hp p).2
    · exact .inr h

theorem after (h' : Outage t u) (h : Outage s t) : Outage s u := h.trans h'

theorem ite {p : Prop} [Decidable p] (h : p → Outage s t) (k : ¬p → Outage s u) : Outage s (if p then t else u) := by
  split <;> rename_i hp
  · exact h hp
  · exact k hp

theorem foldl {α : Type} (f : State → α → State) (l : List α) (h : ∀ a ∈ l, ∀ s, Outage s (f s a)) (s : State) : Outage s (l.foldl f s) := by
  induction l generalizing s with
  | nil => exact refl s
  | cons a l ih => exact (h a List.mem_cons_self s).trans (ih (fun b hb => h b (List.mem_cons_of_mem _ hb)) (f s a))

theorem setFld (s : State) (f : Fld) (n : Nat) (hf : f.addr ∉ auditRegs) : Outage s (s.setFld f n) :=
  of_frames rfl rfl rfl fun _ ha => State.word_setFld_ne s f n fun he => hf (he ▸ ha)

theorem setFlag (s : State) (f : Fld) (b : Bool) (hf : f.addr ∉ auditRegs) : Outage s (s.setFlag f b) := setFld s f _ hf

end Outage

/-! ### Domains that go off -/

theorem creditReturn_outage (p n : Nat) (s : State) : Outage s (creditReturn p n s) := .of_frames rfl rfl rfl fun _ _ => rfl

theorem cutFrames_outage (q : Frame → Bool) (s : State) : Outage s (cutFrames q s) := by
  refine ⟨⟨fun f => if f.linked = false ∧ q f then { f with cut := true } else f, rfl, fun x => ?_⟩, rfl, ⟨rfl, fun _ => ⟨rfl, .inl rfl⟩⟩, fun _ _ => rfl⟩
  by_cases h : x.linked = false ∧ q x
  · exact .inr (if_pos h)
  · exact .inl (if_neg h)

theorem portOf_set (s : State) (p q : Nat) (x : IngestPort) : portOf { s with ingest := s.ingest.set p x } q =
    if p = q ∧ q < s.ingest.length then x else portOf s q := by
  show ((s.ingest.set p x)[q]?).getD ingestInit = _
  rw [List.getElem?_set]
  by_cases hpq : p = q
  · by_cases hq : q < s.ingest.length
    · rw [if_pos hpq, if_pos (hpq ▸ hq), if_pos ⟨hpq, hq⟩]
      rfl
    · rw [if_pos hpq, if_neg (hpq ▸ hq), if_neg fun h => hq h.2, portOf, List.getElem?_eq_none (Nat.not_lt.1 hq)]
  · rw [if_neg hpq, if_neg fun h => hpq h.1]
    rfl

theorem offIngest_outage (p : Nat) (s : State) : Outage s (offIngest p s) := by
  unfold offIngest
  extract_lets x u
  refine Outage.trans (t := u) (cutFrames_outage _ s) ⟨⟨id, (List.map_id _).symm, fun _ => .inl rfl⟩, rfl, ⟨List.length_set .., fun q => ?_⟩, fun _ _ => rfl⟩
  rw [portOf_set]
  by_cases h : p = q ∧ q < u.ingest.length
  · rw [if_pos h]
    obtain ⟨rfl, hq⟩ := h
    exact ⟨rfl, .inr rfl⟩
  · rw [if_neg h]
    exact ⟨rfl, .inl rfl⟩

theorem showFree_outage (s : State) : Outage s (showFree s) :=
  .trans (.trans (.trans (.setFld _ _ _ (by decide)) (.setFld _ _ _ (by decide))) (.setFld _ _ _ (by decide))) (.setFld _ _ _ (by decide))

theorem releaseBuf_outage (p k : Nat) (s : State) : Outage s (releaseBuf p k s) := by
  unfold releaseBuf
  split
  · exact .after (showFree_outage _) (.of_frames rfl rfl rfl fun _ _ => rfl)
  · exact .refl s

theorem giveBack_fold_outage (l : List HeadOut) (s : State) : Outage s (l.foldl (fun s o => giveBack o s) s) :=
  .foldl _ l (fun o _ s => releaseBuf_outage o.port o.buf s) s

theorem auditRegs_lanes : ∀ l < 26, (LANE_STATUS.RATE l).addr ∉ auditRegs := by
  intro l hl
  simp only [auditRegs, LANE_STATUS.RATE, LEDGER_AUDIT_FAIL.PATH, LEDGER_EVENT.AUDIT_FAIL, LEDGER_SPILL_WR.WR, List.mem_cons,
    List.not_mem_nil, or_false]
  omega

theorem laneStop_outage {l : Nat} (hl : l < 26) (s : State) : Outage s (laneStop l s) := by
  have hb : (LANE_STATUS.RATE l).addr ∉ auditRegs := auditRegs_lanes l hl
  exact .after (.setFlag _ _ _ hb) <| .after (.setFlag _ _ _ hb) <| .after (.setFlag _ _ _ hb) <| .after (.setFlag _ _ _ hb) <|
    .after (.setFlag _ _ _ hb) <| .after (.setFlag _ _ _ hb) <| .after (.setFld _ _ _ hb) (.of_eq rfl rfl rfl)

theorem lanesStop_outage {ls : List Nat} (hl : ∀ l ∈ ls, l < 26) (s : State) : Outage s (lanesStop ls s) :=
  .foldl _ ls (fun l h s => laneStop_outage (hl l h) s) s

theorem poolChange_outage (h : Nat) (f : PoolHandle → PoolHandle) (s : State) : Outage s (poolChange h f s) := by
  unfold poolChange
  split
  · exact .refl s
  · next x _ =>
    extract_lets y freed y' ps u
    have hu : Outage s u := .of_eq rfl rfl rfl
    have hv : Outage u (if freed then creditReturn 9 1 u else u) := .ite (fun _ => creditReturn_outage ..) fun _ => .refl _
    exact (hu.trans hv).trans (.after (.setFld _ _ _ (by decide)) (.setFld _ _ _ (by decide)))

theorem offHeve_outage (e : Nat) (s : State) : Outage s (offHeve e s) := by
  unfold offHeve
  exact .after (giveBack_fold_outage ..) (.of_eq rfl rfl rfl)

theorem offPipe_outage (s : State) : Outage s (offPipe s) := by
  unfold offPipe
  extract_lets held u hs v
  have hu : Outage s u := .foldl _ _ (fun _ _ s => creditReturn_outage _ _ s) s
  have hv : Outage u v := .foldl _ _ (fun h _ s => poolChange_outage h _ s) u
  exact (hu.trans hv).trans (.of_eq rfl rfl rfl)

theorem offMag_outage {k : Nat} (hk : k < 2) (s : State) : Outage s (offMag k s) := by
  unfold offMag
  refine .after (lanesStop_outage ?_ _) (.of_eq rfl rfl rfl)
  intro l hl
  obtain ⟨i, hi, rfl⟩ := List.mem_map.1 hl
  rw [List.mem_range] at hi
  omega

theorem offKlink_outage (s : State) : Outage s (offKlink s) := by
  unfold offKlink
  exact .after (lanesStop_outage (by decide) _) (.of_eq rfl rfl rfl)

theorem offMotion_outage (s : State) : Outage s (offMotion s) :=
  Outage.trans (t := (s.setFld LEDGER_PIN_STATUS.LEVEL 0).setFld LEDGER_PIN_STATUS.OUT 0)
    (.after (.setFld _ _ _ (by decide)) (.setFld _ _ _ (by decide))) (.of_frames rfl rfl rfl fun _ _ => rfl)

theorem offView_outage (s : State) : Outage s (offView s) := .of_frames rfl rfl rfl fun _ _ => rfl

theorem hiddenOff_outage (d : Nat) (s : State) : Outage s (hiddenOff d s) := by
  unfold hiddenOff
  refine .ite (fun _ => .of_eq rfl rfl rfl) fun _ => .ite (fun _ => offIngest_outage ..) fun _ =>
    .ite (fun _ => .ite (fun _ => .refl s) fun _ => offPipe_outage s) fun _ => .ite (fun _ => .of_eq rfl rfl rfl) fun _ =>
    .ite (fun _ => .ite (fun _ => .refl s) fun _ => .of_eq rfl rfl rfl) fun _ => .ite (fun _ => offHeve_outage ..) fun _ =>
    .ite (fun _ => .of_eq rfl rfl rfl) fun _ => .ite (fun _ => .after (cutFrames_outage ..) (.of_eq rfl rfl rfl)) fun _ =>
    .ite (fun _ => .ite (fun _ => .of_eq rfl rfl rfl) fun _ => .of_eq rfl rfl rfl) fun _ => .ite (fun hd => offMag_outage ?_ s) fun _ =>
    .ite (fun _ => offKlink_outage s) fun _ => .ite (fun _ => .after (lanesStop_outage (by decide) _) (.of_eq rfl rfl rfl)) fun _ =>
    .ite (fun _ => offView_outage s) fun _ => .ite (fun _ => offMotion_outage s) fun _ =>
    .ite (fun _ => .of_eq rfl rfl rfl) fun _ => .refl s
  omega

theorem domainKeeps_outage (d : Nat) (s t : State) : Outage t (domainKeeps d s t) :=
  .ite (fun _ => .trans (.setFld _ _ _ (by decide)) (.setFlag _ _ _ (by decide))) fun _ =>
    .ite (fun _ => .setFlag _ _ _ (by decide)) fun _ => .refl t

/-- The groups that a domain loses lie apart from these registers. -/
theorem domainGroups_miss : ∀ d < 30, ∀ g ∈ domainGroups d, g ∈ regGroups ∧
    ∀ a ∈ auditRegs, a < (groupSpan g).1 ∨ (groupSpan g).2 ≤ a := by decide +kernel

theorem groupsLost_miss {d : Nat} (hd : d < 30) (s : State) {g : Nat × List RegDef} (hg : g ∈ groupsLost s d) :
    g ∈ regGroups ∧ ∀ a ∈ auditRegs, a < (groupSpan g).1 ∨ (groupSpan g).2 ≤ a := by
  have hshared : ∀ d < 30, ∀ k ∈ sharedWith d, k < 30 := by decide
  have hcommon : (0x240000, regsMagCommon) ∈ regGroups ∧
      ∀ a ∈ auditRegs, a < (groupSpan (0x240000, regsMagCommon)).1 ∨ (groupSpan (0x240000, regsMagCommon)).2 ≤ a := by decide +kernel
  unfold groupsLost at hg
  extract_lets ds own common at hg
  rcases List.mem_append.1 hg with hg | hg
  · unfold own at hg
    split at hg
    · cases hg
    · obtain ⟨l, hl, hgl⟩ := List.mem_flatten.1 hg
      obtain ⟨k, hk, rfl⟩ := List.mem_map.1 hl
      exact domainGroups_miss k (hshared d hd k hk) g hgl
  · unfold common at hg
    split at hg
    · split at hg
      · cases hg
      · rw [List.mem_singleton.1 hg]
        exact hcommon
    · cases hg

theorem resetLost_outage {d : Nat} (hd : d < 30) (s : State) (keep : FieldDef → Bool) :
    Outage s { s with regs := resetGroups s.regs (groupsLost s d) keep } :=
  .of_frames rfl rfl rfl fun a ha => readAt_resetGroups_out (fun _ hg => regGroups_stride _ (groupsLost_miss hd s hg).1)
    (fun _ hg => (groupsLost_miss hd s hg).2 a ha) s.regs keep

theorem domainOff_outage {d : Nat} (hd : d < 30) (s : State) : Outage s (domainOff d s) := by
  unfold domainOff
  refine .ite (fun _ => .after (domainKeeps_outage ..) ?_) (fun _ => .refl s)
  exact .trans (.trans (.setFld _ _ _ (by decide)) (hiddenOff_outage ..)) (resetLost_outage hd ..)

theorem domainsOff_outage {ds : List Nat} (hd : ∀ d ∈ ds, d < 30) (s : State) : Outage s (domainsOff ds s) :=
  .foldl _ ds (fun d h s => domainOff_outage (hd d h) s) s

/-! ### Dark, the safe state and events -/

theorem abandonTransition_outage (s : State) : Outage s (abandonTransition s) :=
  Outage.trans (t := (s.setFlag CUE_STATUS.XFER false).setFlag POWER_STATUS.XFER false)
    (.trans (.setFlag _ _ _ (by decide)) (.setFlag _ _ _ (by decide))) (.of_eq rfl rfl rfl)

theorem darkHeld_outage (cause : DarkCause) (s : State) : Outage s (darkHeld cause s) := by
  rw [darkHeld_eq]
  obtain ⟨u, hu⟩ : ∃ u, u = domainsOff allDomains (abortSession (abandonTransition s)) := ⟨_, rfl⟩
  have habort : Outage s (abortSession (abandonTransition s)) :=
    (abandonTransition_outage s).trans (.trans (t := (abandonTransition s).setFlag NVMC_STATUS.SESSION false)
      (.setFlag _ _ _ (by decide)) (.of_eq rfl rfl rfl))
  have hoff : Outage s u := hu ▸ habort.trans (domainsOff_outage allDomains_lt _)
  have hend : Outage u (darkEnd cause u) :=
    .trans (t := (dramLost (dropRails u)).setFld CUE_STATUS.MODE 0)
      (.trans (t := dropRails u) (.setFld _ _ _ (by decide)) (.trans (t := dramLost (dropRails u)) (.of_eq rfl rfl rfl) (.setFld _ _ _ (by decide))))
      (.of_eq rfl rfl rfl)
  rw [← hu]
  exact hoff.trans hend

theorem stopHeve_outage {e : Nat} (he : e < 2) (s : State) : Outage s (stopHeve e s) := by
  have hreg : ∀ e < 2, (HEVE_STATUS.BUSY e).addr ∉ auditRegs := by decide
  unfold stopHeve
  exact .after (.setFlag _ _ _ (hreg e he)) <| .after (.setFlag _ _ _ (hreg e he)) <|
    .after (giveBack_fold_outage ..) (.of_eq rfl rfl rfl)

theorem stopCoders_outage (s : State) : Outage s (stopCoders s) := by
  unfold stopCoders
  exact .after (stopHeve_outage (by decide) _) (.after (stopHeve_outage (by decide) _) (.of_eq rfl rfl rfl))

theorem safeStateEnter_outage (s : State) : Outage s (safeStateEnter s) := by
  unfold safeStateEnter
  extract_lets u v w
  have hw : Outage s w := .after (stopCoders_outage _) <| .after (abandonTransition_outage _) <|
    .after (.setFld _ CALL_SAFE_CNT.COUNT _ (by decide)) <| .after (.setFlag _ SYS_RESET_CAUSE.SAFE_STATE _ (by decide))
      (.setFlag _ CALL_STATUS.SAFE _ (by decide))
  exact hw.trans (.of_eq rfl rfl rfl)

theorem recordEvent_outage (e : Event) (s : State) : Outage s (recordEvent e s) := by
  unfold recordEvent
  split
  · exact .of_eq rfl rfl rfl
  · refine .ite (fun _ => .of_frames rfl rfl rfl fun _ _ => rfl) fun _ => ?_
    exact Outage.trans (t := s.addFld CALL_OVERFLOW.COUNT 1) (.setFld _ _ _ (by decide)) (.of_eq rfl rfl rfl)

theorem latchFatal_outage (e : Event) (s : State) : Outage s (latchFatal e s) := by
  unfold latchFatal
  exact .ite (fun _ => .after (.setFld _ CALL_FATAL_FIRST.CODE _ (by decide)) (.setFlag _ CALL_FATAL_FIRST.VALID _ (by decide)))
    fun _ => .refl s

theorem fatalEscalate_outage (cause : Nat) (s : State) : Outage s (fatalEscalate cause s) := by
  unfold fatalEscalate
  exact .ite (fun _ => .after (darkHeld_outage ..) (.setFlag _ TRUST_STATUS.BOOT_FAIL _ (by decide)))
    fun _ => .after (safeStateEnter_outage _) (.after (latchFatal_outage ..) (recordEvent_outage ..))

theorem fatalReact_outage (seq : Nat) (e : Event) (s : State) : Outage s (fatalReact seq e s) := by
  unfold fatalReact
  exact .ite (fun _ => .refl s) fun _ => .ite (fun _ => .of_eq rfl rfl rfl) fun _ => .ite (fun _ => .of_eq rfl rfl rfl)
    fun _ => fatalEscalate_outage ..

theorem postEvent_outage (e : Event) (s : State) : Outage s (postEvent e s) := by
  unfold postEvent
  have ht : Outage s (latchFatal e (recordEvent e s)) := .after (latchFatal_outage ..) (recordEvent_outage ..)
  exact .ite (fun _ => ht.trans (fatalReact_outage ..)) fun _ => ht

theorem postFlag_outage {f : Fld} (hf : f.addr ∉ auditRegs) (n : Nat) (cls : EventClass) (block inst detail : Nat) (s : State) :
    Outage s (postFlag f n cls block inst detail s) := .after (postEvent_outage ..) (.setFld _ _ _ hf)


/-! ### The mode and the map of the DRAM past Dawn -/

/-- Past Dawn, `t` is in the mode of `s`, and the same groups are fenced: only in Dawn does a fatal event lead to Dark. -/
structure PastDawn (s t : State) : Prop where
  kept : 2 ≤ s.mode → t.mode = s.mode ∧ t.word DRAM_MAP.FENCED.addr = s.word DRAM_MAP.FENCED.addr

namespace PastDawn

variable {s t u : State}

theorem refl (s : State) : PastDawn s s := ⟨fun _ => ⟨rfl, rfl⟩⟩

theorem trans (h : PastDawn s t) (h' : PastDawn t u) : PastDawn s u := ⟨fun hs =>
  have ht := h.kept hs
  have hu := h'.kept (ht.1.symm ▸ hs)
  ⟨hu.1.trans ht.1, hu.2.trans ht.2⟩⟩

theorem after (h' : PastDawn t u) (h : PastDawn s t) : PastDawn s u := h.trans h'

theorem of_eq (hr : t.regs = s.regs) : PastDawn s t := ⟨fun _ => ⟨State.fld_congr hr _, State.word_congr hr _⟩⟩

theorem ite {p : Prop} [Decidable p] (h : p → PastDawn s t) (k : ¬p → PastDawn s u) : PastDawn s (if p then t else u) := by
  split <;> rename_i hp
  · exact h hp
  · exact k hp

theorem foldl {α : Type} (f : State → α → State) (l : List α) (h : ∀ a ∈ l, ∀ s, PastDawn s (f s a)) (s : State) : PastDawn s (l.foldl f s) := by
  induction l generalizing s with
  | nil => exact refl s
  | cons a l ih => exact (h a List.mem_cons_self s).trans (ih (fun b hb => h b (List.mem_cons_of_mem _ hb)) (f s a))

/-- A field that neither the mode nor the map shares bits with. -/
def misses (f : Fld) : Bool := f.fits && CUE_STATUS.MODE.apart f && decide (DRAM_MAP.FENCED.addr ≠ f.addr)

theorem setFld (s : State) (f : Fld) (n : Nat) (hf : misses f = true) : PastDawn s (s.setFld f n) := by
  simp only [misses, Bool.and_eq_true, decide_eq_true_eq] at hf
  obtain ⟨⟨hfit, hmode⟩, hmap⟩ := hf
  exact ⟨fun _ => ⟨State.fld_setFld_apart s CUE_STATUS.MODE f n hfit hmode, State.word_setFld_ne s f n hmap⟩⟩

theorem setFlag (s : State) (f : Fld) (b : Bool) (hf : misses f = true) : PastDawn s (s.setFlag f b) := setFld s f _ hf

end PastDawn

theorem recordEvent_pastDawn (e : Event) (s : State) : PastDawn s (recordEvent e s) := by
  unfold recordEvent
  split
  · exact .of_eq rfl
  · exact .ite (fun _ => .of_eq rfl) fun _ => PastDawn.trans (t := s.addFld CALL_OVERFLOW.COUNT 1) (.setFld _ _ _ (by decide)) (.of_eq rfl)

theorem latchFatal_pastDawn (e : Event) (s : State) : PastDawn s (latchFatal e s) := by
  unfold latchFatal
  exact .ite (fun _ => .after (.setFld _ CALL_FATAL_FIRST.CODE _ (by decide)) (.setFlag _ CALL_FATAL_FIRST.VALID _ (by decide)))
    fun _ => .refl s

theorem showFree_pastDawn (s : State) : PastDawn s (showFree s) :=
  .trans (.trans (.trans (.setFld _ _ _ (by decide)) (.setFld _ _ _ (by decide))) (.setFld _ _ _ (by decide))) (.setFld _ _ _ (by decide))

theorem releaseBuf_pastDawn (p k : Nat) (s : State) : PastDawn s (releaseBuf p k s) := by
  unfold releaseBuf
  split
  · exact .after (showFree_pastDawn _) (.of_eq rfl)
  · exact .refl s

theorem stopHeve_pastDawn {e : Nat} (he : e < 2) (s : State) : PastDawn s (stopHeve e s) := by
  have hreg : ∀ e < 2, PastDawn.misses (HEVE_STATUS.BUSY e) = true ∧ PastDawn.misses (HEVE_STATUS.OUT_WAITING e) = true := by decide
  unfold stopHeve
  exact .after (.setFlag _ _ _ (hreg e he).2) <| .after (.setFlag _ _ _ (hreg e he).1) <|
    .after (.foldl _ _ (fun o _ s => releaseBuf_pastDawn o.port o.buf s) _) (.of_eq rfl)

theorem safeStateEnter_pastDawn (s : State) : PastDawn s (safeStateEnter s) := by
  unfold safeStateEnter
  extract_lets u v w
  have hv : PastDawn s v := .after (.setFld _ CALL_SAFE_CNT.COUNT _ (by decide)) <| .after (.setFlag _ SYS_RESET_CAUSE.SAFE_STATE _ (by decide))
    (.setFlag _ CALL_STATUS.SAFE _ (by decide))
  have hx : PastDawn v (abandonTransition v) := PastDawn.trans (t := (v.setFlag CUE_STATUS.XFER false).setFlag POWER_STATUS.XFER false)
    (.trans (.setFlag _ _ _ (by decide)) (.setFlag _ _ _ (by decide))) (.of_eq rfl)
  have hw : PastDawn s w := (hv.trans hx).trans <| .after (stopHeve_pastDawn (by decide) _) (.after (stopHeve_pastDawn (by decide) _) (.of_eq rfl))
  exact hw.trans (.of_eq rfl)

theorem postEvent_pastDawn (e : Event) (s : State) : PastDawn s (postEvent e s) := by
  unfold postEvent
  have ht : PastDawn s (latchFatal e (recordEvent e s)) := (recordEvent_pastDawn e s).trans (latchFatal_pastDawn e _)
  refine .ite (fun _ => ht.trans ?_) fun _ => ht
  obtain ⟨u, hu⟩ : ∃ u, u = latchFatal e (recordEvent e s) := ⟨_, rfl⟩
  rw [← hu]
  unfold fatalReact
  refine .ite (fun _ => .refl u) fun _ => .ite (fun _ => .of_eq rfl) fun _ => .ite (fun _ => .of_eq rfl) fun _ => ?_
  refine ⟨fun h => ?_⟩
  have hdawn : ¬u.mode = 1 := by omega
  rw [fatalEscalate, if_neg hdawn]
  exact (((recordEvent_pastDawn _ u).trans (latchFatal_pastDawn _ _)).trans (safeStateEnter_pastDawn _)).kept h

/-! ### While frames end -/

/-- `t` is `s` after frames were committed, ended or written out, and events posted: frames stay closed and written out. -/
structure Ongoing (s t : State) : Prop where
  frames : ∀ y ∈ t.ledger.frames, ∃ x ∈ s.ledger.frames, x.num = y.num ∧ (x.closed = true → y.closed = true) ∧
    (x.spilled = true → y.spilled = true)
  audited : t.audited = s.audited
  ports : t.ingest.length = s.ingest.length ∧ ∀ p, (portOf t p).group = (portOf s p).group ∧
    ((portOf t p).opens = (portOf s p).opens ∨ (portOf t p).opens = [])
  failed : t.word LEDGER_AUDIT_FAIL.PATH.addr = s.word LEDGER_AUDIT_FAIL.PATH.addr
  event : s.flag LEDGER_EVENT.AUDIT_FAIL = true → t.flag LEDGER_EVENT.AUDIT_FAIL = true
  pastDawn : PastDawn s t

namespace Ongoing

variable {s t u : State}

theorem of_frames (hf : t.ledger.frames = s.ledger.frames) (ha : t.audited = s.audited) (hi : t.ingest = s.ingest) (hr : t.regs = s.regs) :
    Ongoing s t := by
  refine ⟨fun y hy => ⟨y, hf ▸ hy, rfl, id, id⟩, ha, ⟨by rw [hi], fun p => ?_⟩, State.word_congr hr _,
    fun h => (State.flag_of_word (f := LEDGER_EVENT.AUDIT_FAIL) (State.word_congr hr _)).trans h, .of_eq hr⟩
  rw [portOf, hi]
  exact ⟨rfl, .inl rfl⟩

theorem refl (s : State) : Ongoing s s := of_frames rfl rfl rfl rfl

theorem of_eq (hl : t.ledger = s.ledger) (hi : t.ingest = s.ingest) (hr : t.regs = s.regs) : Ongoing s t :=
  of_frames (by rw [hl]) (by rw [State.audited, State.audited, hl]) hi hr

theorem of_outage (h : Outage s t) (hd : PastDawn s t) : Ongoing s t := by
  obtain ⟨⟨g, hf, hg⟩, ha, hp, hr⟩ := h
  refine ⟨fun y hy => ?_, ha, hp, hr _ (by decide), fun h => (State.flag_of_word (f := LEDGER_EVENT.AUDIT_FAIL) (hr _ (by decide))).trans h, hd⟩
  rw [hf] at hy
  obtain ⟨x, hx, rfl⟩ := List.mem_map.1 hy
  obtain h | h := hg x <;> rw [h] <;> exact ⟨x, hx, rfl, id, id⟩

theorem trans (h : Ongoing s t) (h' : Ongoing t u) : Ongoing s u := by
  obtain ⟨hf, ha, ⟨hlen, hp⟩, hw, he, hd⟩ := h
  obtain ⟨hf', ha', ⟨hlen', hp'⟩, hw', he', hd'⟩ := h'
  refine ⟨fun z hz => ?_, ha'.trans ha, ⟨hlen'.trans hlen, fun p => ⟨(hp' p).1.trans (hp p).1, ?_⟩⟩, hw'.trans hw, fun h => he' (he h), hd.trans hd'⟩
  · obtain ⟨y, hy, hn, hc, hs⟩ := hf' z hz
    obtain ⟨x, hx, hn', hc', hs'⟩ := hf y hy
    exact ⟨x, hx, hn'.trans hn, fun h => hc (hc' h), fun h => hs (hs' h)⟩
  · obtain h | h := (hp' p).2
    · rw [h]
      exact (hp p).2
    · exact .inr h

theorem after (h' : Ongoing t u) (h : Ongoing s t) : Ongoing s u := h.trans h'

theorem ite {p : Prop} [Decidable p] (h : p → Ongoing s t) (k : ¬p → Ongoing s u) : Ongoing s (if p then t else u) := by
  split <;> rename_i hp
  · exact h hp
  · exact k hp

theorem foldl {α : Type} (f : State → α → State) (l : List α) (h : ∀ a ∈ l, ∀ s, Ongoing s (f s a)) (s : State) : Ongoing s (l.foldl f s) := by
  induction l generalizing s with
  | nil => exact refl s
  | cons a l ih => exact (h a List.mem_cons_self s).trans (ih (fun b hb => h b (List.mem_cons_of_mem _ hb)) (f s a))

/-- A field that neither the mode, the map nor the flags of the audit share bits with. -/
def misses (f : Fld) : Bool := PastDawn.misses f && LEDGER_EVENT.AUDIT_FAIL.apart f && decide (LEDGER_AUDIT_FAIL.PATH.addr ≠ f.addr)

theorem setFld (s : State) (f : Fld) (n : Nat) (hf : misses f = true) : Ongoing s (s.setFld f n) := by
  simp only [misses, Bool.and_eq_true, decide_eq_true_eq] at hf
  obtain ⟨⟨hd, hevent⟩, hpath⟩ := hf
  have hfit : f.fits = true := by
    simp only [PastDawn.misses, Bool.and_eq_true] at hd
    exact hd.1.1
  exact ⟨fun y hy => ⟨y, hy, rfl, id, id⟩, rfl, ⟨rfl, fun _ => ⟨rfl, .inl rfl⟩⟩, State.word_setFld_ne s f n hpath,
    fun h => (State.flag_setFld_apart s LEDGER_EVENT.AUDIT_FAIL f n hfit hevent).trans h, .setFld s f n hd⟩

theorem setFlag (s : State) (f : Fld) (b : Bool) (hf : misses f = true) : Ongoing s (s.setFlag f b) := setFld s f _ hf

theorem postEvent (e : Event) (s : State) : Ongoing s (postEvent e s) := of_outage (postEvent_outage e s) (postEvent_pastDawn e s)

end Ongoing

/-! ### Memory, events and links -/

namespace Ongoing

theorem postFlag (f : Fld) (n : Nat) (cls : EventClass) (block inst detail : Nat) (s : State) (hf : misses f = true) :
    Ongoing s (postFlag f n cls block inst detail s) := .after (.postEvent ..) (.setFld _ _ _ hf)

theorem creditReturn (p n : Nat) (s : State) : Ongoing s (creditReturn p n s) := .of_frames rfl rfl rfl rfl

theorem creditIssue (p n : Nat) (s : State) : Ongoing s (creditIssue p n s) := .of_frames rfl rfl rfl rfl

theorem modFrame (num : Nat) (f : Frame → Frame) (s : State) (hf : ∀ x, (f x).num = x.num ∧ (x.closed = true → (f x).closed = true) ∧
    (x.spilled = true → (f x).spilled = true)) : Ongoing s (modFrame num f s) := by
  refine ⟨fun y hy => ?_, rfl, ⟨rfl, fun _ => ⟨rfl, .inl rfl⟩⟩, rfl, id, .of_eq rfl⟩
  obtain ⟨x, hx, rfl⟩ := List.mem_map.1 hy
  by_cases h : x.num = num
  · rw [if_pos h]
    exact ⟨x, hx, (hf x).1.symm, (hf x).2⟩
  · rw [if_neg h]
    exact ⟨x, hx, rfl, id, id⟩

theorem dramCheck (b : Nat) (s : State) : Ongoing s (dramCheck b s) := by
  unfold Machine.dramCheck
  extract_lets ch a
  refine .ite (fun _ => .refl s) fun _ => ?_
  split
  · exact .refl s
  · exact Ongoing.trans (t := s.setFlag DRAM_EVENT.STORED true) (.setFlag _ _ _ (by decide)) (.of_eq rfl rfl rfl)
  · obtain ⟨u, hu⟩ : ∃ u, u = (s.setFld DRAM_POISON_ADDR_LO.ADDR (a / 64)).setFld DRAM_POISON_ADDR_HI.ADDR (a / 2 ^ 32) := ⟨_, rfl⟩
    have h1 : Ongoing s u := hu ▸ .trans (.setFld _ _ _ (by decide)) (.setFld _ _ _ (by decide))
    have h2 : Ongoing u (dramCount 1 ch u) := .of_eq rfl rfl rfl
    rw [← hu]
    exact (h1.trans h2).trans (.postFlag DRAM_EVENT.POISON _ _ _ _ _ _ (by decide))

theorem dramSeen (a n : Nat) (s : State) : Ongoing s (dramSeen a n s) :=
  Ongoing.trans (t := dramAccess a n s) (.of_eq rfl rfl rfl) (.foldl _ _ (fun b _ s => .dramCheck b s) _)

theorem poisonWarn (block inst a n : Nat) (s : State) : Ongoing s (poisonWarn block inst a n s) :=
  .ite (fun _ => .after (.postEvent ..) (.dramSeen a n s)) fun _ => .refl s

theorem writeTagged (poison : Bool) (a : Nat) (bs : List Byte) (s : State) : Ongoing s (s.writeTagged poison a bs) := by
  obtain ⟨u, hu⟩ : ∃ u, u = (partBlocks a bs.length).foldl (fun s b => Machine.dramCheck b s) (dramAccess a bs.length s) := ⟨_, rfl⟩
  have h : Ongoing s u := hu ▸ Ongoing.trans (t := dramAccess a bs.length s) (.of_eq rfl rfl rfl) (.foldl _ _ (fun b _ s => .dramCheck b s) _)
  have ht : ∃ m d, s.writeTagged poison a bs = { u with mem := m, dram := d } := ⟨_, _, by rw [hu]; rfl⟩
  obtain ⟨m, d, ht⟩ := ht
  rw [ht]
  exact h.trans (.of_eq rfl rfl rfl)

theorem writeDram (a : Nat) (bs : List Byte) (s : State) : Ongoing s (s.writeDram a bs) := .writeTagged false a bs s

theorem writePoisoned (a : Nat) (bs : List Byte) (s : State) : Ongoing s (s.writePoisoned a bs) :=
  (Ongoing.writeTagged true a bs s).trans (.of_eq rfl rfl rfl)

theorem writeMem (a : Nat) (bs : List Byte) (s : State) : Ongoing s (s.writeMem a bs) := by
  unfold State.writeMem
  exact .ite (fun _ => .refl s) fun _ => .ite (fun _ => .of_eq rfl rfl rfl) fun _ => .writeDram ..

theorem of_pumped {s t : State} (h : Pumped s t) : Ongoing s t := by
  obtain ⟨⟨x, k, c, rfl⟩, -⟩ := h
  exact .of_frames rfl rfl rfl rfl

theorem linkSend (b : FlitBody) (s : State) : Ongoing s (linkSend b s) := by
  have hsend : ∀ p, Ongoing s (kSend p [b] s) := fun p => of_pumped ((Driven.modKPort ..).pumped.trans (kPump_pumped ..))
  exact .ite (fun _ => hsend 0) fun _ => .ite (fun _ => hsend 1) fun _ => .refl s

theorem ledgerShow (s : State) : Ongoing s (ledgerShow s) :=
  .after (.setFld _ LEDGER_STATUS.PART_OK _ (by decide)) (.after (.setFld _ LEDGER_STATUS.RANGE _ (by decide))
    (.setFld _ LEDGER_STATUS.IN_FLIGHT _ (by decide)))

/-! ### Records are written out -/

theorem spillStore (r : List Byte) (s : State) : Ongoing s (spillStore r s) := by
  unfold Machine.spillStore
  refine .ite (fun _ => .refl s) fun _ => .ite (fun _ => .postFlag LEDGER_EVENT.BAD_CFG _ _ _ _ _ _ (by decide)) fun _ => ?_
  extract_lets wr rd t l u
  have ht : Ongoing s t := .after (.setFld _ LEDGER_SPILL_LOST.LOST _ (by decide)) (.setFld _ LEDGER_SPILL_RD.RD _ (by decide))
  have hu : Ongoing s u := by
    unfold u
    have hl : Ongoing t (setLedger { t.ledger with spillLost := satAdd (2 ^ 32 - 1) t.ledger.spillLost 1 } t) := .of_frames rfl rfl rfl rfl
    exact .ite (fun _ => .after (.postFlag LEDGER_EVENT.SPILL_LOST _ _ _ _ _ _ (by decide)) (ht.trans hl)) fun _ => .refl s
  exact .after (.setFld _ LEDGER_SPILL_WR.WR _ (by decide)) (.after (.writeDram _ _ u) hu)

theorem chainFault (s : State) : Ongoing s (chainFault s) := by
  have h : Ongoing s (endSegment s) := Ongoing.trans (t := s.setFlag HASH_STATUS.SEG_ACTIVE false) (.setFlag _ _ _ (by decide)) (.of_eq rfl rfl rfl)
  exact h.trans (.postFlag HASH_EVENT.CHAIN_FAULT HASH_EVENT.CHAIN_FAULT.lo .fatal 10 0xFF 0 _ (by decide))

theorem absorbFinal (r coded : List Byte) (s : State) : Ongoing s (absorbFinal r coded s) := by
  unfold Machine.absorbFinal
  exact .ite (fun _ => .refl s) fun _ => .ite (fun _ => .chainFault s) fun _ => .of_eq rfl rfl rfl

theorem spillFrame (f : Frame) (s : State) : Ongoing s (spillFrame f s) := by
  unfold Machine.spillFrame
  extract_lets r u
  have hu : Ongoing s u := .spillStore r s
  exact (hu.trans (.ite (fun _ => .refl u) fun _ => .absorbFinal ..)).trans (.modFrame _ _ _ fun _ => ⟨rfl, id, fun _ => rfl⟩)

theorem ledgerForget (s : State) : Ongoing s (ledgerForget s) := by
  unfold Machine.ledgerForget
  extract_lets l u
  have hu : Ongoing s u := .foldl _ _ (fun f _ s => .of_frames (t := rememberGone f s) rfl rfl rfl rfl) s
  refine ⟨fun y hy => ⟨y, (List.mem_filter.1 hy).1, rfl, id, id⟩, hu.audited, hu.ports, hu.failed, hu.event, ⟨hu.pastDawn.kept⟩⟩

theorem spillSettled (s : State) : Ongoing s (spillSettled s) := by
  unfold Machine.spillSettled
  extract_lets ready l u
  have hu : Ongoing s u := .of_frames rfl rfl rfl rfl
  refine (hu.trans (.foldl _ _ (fun n _ s => ?_) u)).trans (.ledgerForget _)
  cases frameOf s n with
  | none => exact .refl s
  | some f => exact .spillFrame f s

/-! ### Frames become final -/

theorem modPart (p : Nat) (f : Part → Part) (s : State) : Ongoing s (modPart p f s) := .of_frames rfl rfl rfl rfl

theorem freeSlot (f : Frame) (s : State) : Ongoing s (freeSlot f s) := by
  unfold Machine.freeSlot
  cases f.slot with
  | none => exact .refl s
  | some k =>
    have h : Ongoing s (Machine.modFrame f.num (fun x => { x with slot := none }) (Machine.modPart f.port (fun q => { q with freed := q.freed ++ [k] }) s)) :=
      (Ongoing.modPart ..).trans (.modFrame _ _ _ fun _ => ⟨rfl, id, id⟩)
    exact h.trans (.creditReturn 4 1 _)

theorem finalise (num disp reason : Nat) (s : State) : Ongoing s (finalise num disp reason s) := by
  unfold Machine.finalise
  cases frameOf s num with
  | none => exact .refl s
  | some f =>
    refine .ite (fun _ => .refl s) fun _ => ?_
    extract_lets u l v l' w hash x y z
    have hu : Ongoing s u := .modFrame _ _ _ fun _ => ⟨rfl, id, id⟩
    have hv : Ongoing u v := .of_frames rfl rfl rfl rfl
    have hw : Ongoing v w := .of_frames rfl rfl rfl rfl
    have hx : Ongoing w x := (Ongoing.freeSlot f w).trans (.of_eq rfl rfl rfl)
    have hy : Ongoing x y := .ite (fun _ => .linkSend ..) fun _ => .refl x
    have hz : Ongoing y z := by
      unfold z
      cases f.origin with
      | none => exact .refl y
      | some n => exact .linkSend ..
    exact (((((hu.trans hv).trans hw).trans hx).trans hy).trans hz).trans (.after (.ledgerShow _) (.spillSettled z))

end Ongoing

end Sys2Proof.Machine
end

section
/-! PROOFS. The combiner and the audit (R215 to R246). -/

namespace Sys2Proof.Machine

/-! ### What the magazines do meanwhile -/

namespace Ongoing

theorem settleWrites (num : Nat) (s : State) : Ongoing s (settleWrites num s) := by
  unfold Machine.settleWrites
  cases frameOf s num with
  | none => exact .refl s
  | some f =>
    exact .ite (fun _ => .ite (fun _ => .finalise ..) fun _ => .ite (fun _ => .finalise ..) fun _ => .ite (fun _ => .finalise ..) fun _ =>
      .ite (fun _ => .finalise ..) fun _ => .finalise ..) fun _ => .refl s

theorem settleDest (num d : Nat) (ok : Bool) (s : State) : Ongoing s (settleDest num d ok s) :=
  .after (.settleWrites ..) (.modFrame _ _ _ fun _ => ⟨rfl, id, id⟩)

theorem stageBuffers (s : State) : Ongoing s (stageBuffers s) := .of_frames rfl rfl rfl rfl

theorem releaseStaged (num : Nat) (s : State) : Ongoing s (releaseStaged num s) := by
  unfold Machine.releaseStaged
  refine .ite (fun _ => .stageBuffers s) fun _ => ?_
  extract_lets n mag u again rawc
  have hu : Ongoing s u := .of_frames rfl rfl rfl rfl
  exact .after (.stageBuffers _) (hu.trans (.of_eq rfl rfl rfl))

theorem magSettle (num k : Nat) (ok : Bool) (s : State) : Ongoing s (magSettle num k ok s) := (Ongoing.releaseStaged num s).trans (.settleDest ..)

theorem modMag (k : Nat) (f : MagPort → MagPort) (s : State) : Ongoing s (modMag k f s) := .of_eq rfl rfl rfl

/-- The fields of the magazine ports. -/
theorem magFields : ∀ k < 2, ∀ f ∈ [MAG_EVENT.EVENT k, MAG_STATUS.STATE k, MAG_OP.BUSY k, MAG_OP.DONE k, MAG_OP.FAIL k, MAG_WEAR.PU k, MAG_WEAR.CRIT k,
    MAG_REMAIN.GB k, MAG_FREE.AUS k, MAG_STATUS.TAKE_OPEN k, MAG_TAKE.OPEN k, MAG_TAKE.SLOT k, MAG_WRITTEN_LO.BYTES k, MAG_WRITTEN_HI.BYTES k],
    misses f = true := by decide

variable {k : Nat} (hk : k < 2)

include hk

theorem magEvent (n : Nat) (cls : EventClass) (s : State) : Ongoing s (magEvent n cls k s) :=
  .postFlag _ _ _ _ _ _ _ (magFields k hk _ (by simp))

theorem setMagState (n : Nat) (s : State) : Ongoing s (setMagState k n s) := .setFld _ _ _ (magFields k hk _ (by simp))

theorem magMark (n : Nat) (s : State) : Ongoing s (magMark n k s) := .setFld _ _ _ (magFields k hk _ (by simp))

theorem endMagOp (fail : Bool) (s : State) : Ongoing s (endMagOp k fail s) := by
  unfold Machine.endMagOp
  extract_lets u v
  have hu : Ongoing s u := .after (.modMag ..) (.setFlag _ _ _ (magFields k hk _ (by simp)))
  have hv : Ongoing u v := .setFlag _ _ _ (magFields k hk _ (by simp))
  exact .ite (fun _ => (hu.trans hv).trans (.setFlag _ _ _ (magFields k hk _ (by simp)))) fun _ => hu.trans hv

theorem magShow (s : State) : Ongoing s (magShow k s) := by
  unfold Machine.magShow
  extract_lets p s1 s2 s3 s4
  have h1 : Ongoing s s1 := .after (.setFld _ _ _ (magFields k hk _ (by simp))) (.setFld _ _ _ (magFields k hk _ (by simp)))
  have h2 : Ongoing s1 s2 := .setFld _ _ _ (magFields k hk _ (by simp))
  have h3 : Ongoing s2 s3 := .setFld _ _ _ (magFields k hk _ (by simp))
  have h4 : Ongoing s3 s4 := .after (.setFlag _ _ _ (magFields k hk _ (by simp))) (.setFlag _ _ _ (magFields k hk _ (by simp)))
  have h := ((h1.trans h2).trans h3).trans h4
  cases p.take with
  | none => exact h
  | some t =>
    exact h.trans (.after (.setFld _ _ _ (magFields k hk _ (by simp))) (.after (.setFld _ _ _ (magFields k hk _ (by simp)))
      (.setFld _ _ _ (magFields k hk _ (by simp)))))

omit hk in
theorem recodeTo (num o : Nat) (s : State) : Ongoing s (recodeTo num o s) := by
  unfold Machine.recodeTo
  split
  · exact .of_eq rfl rfl rfl
  · exact .refl s

theorem failoverFrame (num : Nat) (s : State) : Ongoing s (failoverFrame k num s) := by
  unfold Machine.failoverFrame
  cases frameOf s num with
  | none => exact .releaseStaged ..
  | some f =>
    refine .ite (fun _ => .magSettle ..) fun _ => .ite (fun _ => ?_) fun _ => .magSettle ..
    exact .after (.recodeTo ..) (.after (.modFrame _ _ _ fun _ => ⟨rfl, id, id⟩) (.magMark hk ..))

theorem magDrop (all : Bool) (s : State) : Ongoing s (magDrop k all s) := by
  unfold Machine.magDrop
  extract_lets p whole frames again s1 rawc s2 s3 s4 s5
  have h1 : Ongoing s s1 := .modMag ..
  have h2 : Ongoing s1 s2 := .of_eq rfl rfl rfl
  have h3 : Ongoing s2 s3 := .ite (fun _ => .endMagOp hk ..) fun _ => .refl _
  have h4 : Ongoing s3 s4 := .foldl _ _ (fun _ _ _ => .magSettle ..) _
  have h5 : Ongoing s4 s5 := .foldl _ _ (fun _ _ _ => .failoverFrame hk ..) _
  exact ((((h1.trans h2).trans h3).trans h4).trans h5).trans (.foldl _ _ (fun _ _ _ => .magSettle ..) _)

omit hk in
theorem laneFields : ∀ l < 26, ∀ f ∈ [LANE_STATUS.RATE l, LANE_STATUS.LOCK l, LANE_STATUS.TABLE l, LANE_STATUS.EQ_LOW l, LANE_STATUS.FROZEN l,
    LANE_STATUS.TX_SLEEP l, LANE_STATUS.RX_SLEEP l], misses f = true := by decide +kernel

omit hk in
theorem laneStop {l : Nat} (hl : l < 26) (s : State) : Ongoing s (laneStop l s) := by
  have h := laneFields l hl
  exact .after (.setFlag _ _ _ (h _ (by simp))) <| .after (.setFlag _ _ _ (h _ (by simp))) <| .after (.setFlag _ _ _ (h _ (by simp))) <|
    .after (.setFlag _ _ _ (h _ (by simp))) <| .after (.setFlag _ _ _ (h _ (by simp))) <| .after (.setFlag _ _ _ (h _ (by simp))) <|
    .after (.setFld _ _ _ (h _ (by simp))) (.of_eq rfl rfl rfl)

theorem magFail (s : State) : Ongoing s (magFail k s) := by
  have hlanes : ∀ l ∈ magLanes k, l < 26 := by
    intro l hl
    obtain ⟨i, hi, rfl⟩ := List.mem_map.1 hl
    rw [List.mem_range] at hi
    omega
  unfold Machine.magFail
  extract_lets u v
  have hu : Ongoing s u := .ite (fun _ => .magEvent hk ..) fun _ => .refl s
  have hv : Ongoing u v := .after (.foldl _ _ (fun l hl _ => .laneStop (hlanes l hl) _) _) (.after (.magEvent hk ..) (.setMagState hk ..))
  exact (hu.trans hv).trans (.after (.magShow hk _) (.after (.modMag ..) (.magDrop hk ..)))

omit hk in
theorem formRecord (t : Take) (r : MagRecord) (s : State) : Ongoing s (formRecord t r s).2 := by
  unfold Machine.formRecord
  split
  · exact .refl s
  · split
    · exact .refl s
    · exact .of_eq rfl rfl rfl

theorem magFull (s : State) : Ongoing s (magFull k s) := by
  unfold Machine.magFull
  extract_lets u v w
  have hu : Ongoing s u := .after (.magDrop hk ..) (.after (.magEvent hk ..) (.setMagState hk ..))
  have hw : Ongoing v w := .ite (fun _ => .modMag ..) fun _ => .refl v
  have h : Ongoing s w := (hu.trans (.modMag ..)).trans hw
  split
  · next t x r rs _ _ _ =>
    have hr : Ongoing s (Machine.formRecord t r w).2 := h.trans (.formRecord t r w)
    dsimp only
    split
    · exact hr.trans (.after (.magShow hk _) (.modMag ..))
    · exact hr.trans (.modMag ..)
  · exact h.trans (.modMag ..)

theorem magPump (s : State) : Ongoing s (magPump k s) := by
  unfold Machine.magPump
  split
  · next t x r rs _ _ _ =>
    refine .ite (fun _ => .refl s) fun _ => ?_
    have hr : Ongoing s (Machine.formRecord t r s).2 := .formRecord t r s
    dsimp only
    split
    · exact hr.trans (.after (.magShow hk _) (.modMag ..))
    · exact hr.trans (.magFull hk _)
    · exact hr.trans (.magFail hk _)
  · exact .refl s

omit hk in
theorem indexRecords (s : State) : Ongoing s (indexRecords s) := by
  refine .foldl _ _ (fun k hk s => ?_) s
  have hk2 : k < 2 := by
    simp only [List.mem_cons, List.not_mem_nil, or_false] at hk
    omega
  exact .ite (fun _ => .after (.magPump hk2 _) (.ite (fun _ => .modMag ..) fun _ => .refl s)) fun _ => .refl s

end Ongoing

/-! ### The audit -/

/-- A breach on path `k` shows. -/
def showBreach (s : State) (k : Nat) : State :=
  postFlag LEDGER_EVENT.AUDIT_FAIL LEDGER_EVENT.AUDIT_FAIL.lo .fatal 6 k 0 (s.orBit LEDGER_AUDIT_FAIL.PATH k)

/-- What the audit latches. -/
def auditLatch (s : State) : State :=
  setLedger { s.ledger with
    auditFrames := (List.range 4).map (frameCounters s), auditCredits := (List.range 15).map (creditCounters s)
    auditAt := (s.time.sec.toNat, s.time.ns) } s

theorem audit_eq (s : State) : audit s = (auditBreaches (auditLatch s)).foldl showBreach (auditLatch s) := rfl

/-- Path `k` is among those whose breach shows, with the flag. -/
def BreachShown (k : Nat) (s : State) : Prop := (s.fld LEDGER_AUDIT_FAIL.PATH).testBit k = true ∧ s.flag LEDGER_EVENT.AUDIT_FAIL = true

theorem showBreach_shows {k : Nat} (hk : k < 20) (s : State) : (showBreach s k).audited = s.audited ∧ BreachShown k (showBreach s k) ∧
    ∀ p, BreachShown p s → BreachShown p (showBreach s k) := by
  obtain ⟨u, hu⟩ : ∃ u, u = s.orBit LEDGER_AUDIT_FAIL.PATH k := ⟨_, rfl⟩
  obtain ⟨v, hv⟩ : ∃ v, v = u.orBit LEDGER_EVENT.AUDIT_FAIL (LEDGER_EVENT.AUDIT_FAIL.lo - LEDGER_EVENT.AUDIT_FAIL.lo) := ⟨_, rfl⟩
  have he : showBreach s k = postEvent { cls := .fatal, block := 6, cause := LEDGER_EVENT.AUDIT_FAIL.lo, inst := k, detail := 0 } v := by
    rw [hv, hu]
    rfl
  have ho := postEvent_outage { cls := .fatal, block := 6, cause := LEDGER_EVENT.AUDIT_FAIL.lo, inst := k, detail := 0 } v
  rw [← he] at ho
  have hpath : ∀ p, ((showBreach s k).fld LEDGER_AUDIT_FAIL.PATH).testBit p = ((s.fld LEDGER_AUDIT_FAIL.PATH).testBit p || decide (k = p)) := by
    intro p
    rw [State.fld_congr_word (f := LEDGER_AUDIT_FAIL.PATH) (ho.regs _ (by decide)), hv, State.orBit,
      State.fld_setFld_apart u LEDGER_AUDIT_FAIL.PATH LEDGER_EVENT.AUDIT_FAIL _ (by decide) (by decide), hu]
    exact State.testBit_orBit s LEDGER_AUDIT_FAIL.PATH p (by decide) hk
  have hflag : (showBreach s k).flag LEDGER_EVENT.AUDIT_FAIL = true := by
    rw [State.flag_of_word (f := LEDGER_EVENT.AUDIT_FAIL) (ho.regs _ (by decide)), hv, Nat.sub_self]
    exact State.flag_orBit_zero u LEDGER_EVENT.AUDIT_FAIL (by decide) (by decide)
  refine ⟨ho.audited.trans (by rw [hv, hu]; rfl), ⟨by rw [hpath]; simp, hflag⟩, fun p hp => ⟨by rw [hpath, hp.1]; rfl, hflag⟩⟩

theorem foldl_showBreach {l : List Nat} (hl : ∀ k ∈ l, k < 20) (s : State) : (l.foldl showBreach s).audited = s.audited ∧
    ∀ p, p ∈ l ∨ BreachShown p s → BreachShown p (l.foldl showBreach s) := by
  induction l generalizing s with
  | nil => exact ⟨rfl, fun p hp => hp.resolve_left List.not_mem_nil⟩
  | cons k l ih =>
    obtain ⟨ha, hk, hp⟩ := showBreach_shows (hl k List.mem_cons_self) s
    obtain ⟨ha', hp'⟩ := ih (fun j hj => hl j (List.mem_cons_of_mem _ hj)) (showBreach s k)
    refine ⟨ha'.trans ha, fun p h => hp' p ?_⟩
    obtain h | h := h
    · obtain rfl | h := List.mem_cons.1 h
      · exact .inr hk
      · exact .inl h
    · exact .inr (hp p h)

theorem auditBreaches_lt {s : State} {k : Nat} (h : k ∈ auditBreaches s) : k < 20 := by
  unfold auditBreaches at h
  rcases List.mem_append.1 h with h | h
  · have := List.mem_range.1 (List.mem_filter.1 h).1
    omega
  · obtain ⟨c, hc, rfl⟩ := List.mem_map.1 h
    have := List.mem_range.1 (List.mem_filter.1 hc).1
    omega

theorem port_mem_auditBreaches {s : State} (p : Fin 4) (h : framesConserved (frameCounters s p) = false) : p.val ∈ auditBreaches (auditLatch s) := by
  refine List.mem_append_left _ (List.mem_filter.2 ⟨List.mem_range.2 p.isLt, ?_⟩)
  have hget : (auditLatch s).ledger.auditFrames.getD p.val [] = frameCounters s p := by
    show ((List.range 4).map (frameCounters s)).getD p.val [] = _
    simp [List.getD, p.isLt]
  rw [hget, h]
  rfl

/-- The latch of a second for the manifests leaves the ledger. -/
theorem secondLatch_ongoing (s : State) : Ongoing s (secondLatch s) := by
  have hlink : ∀ i < 16, Ongoing.misses (HASH_LINK.DATA i) = true ∧ Ongoing.misses (HASH_FIN.DATA i) = true := by decide +kernel
  unfold secondLatch
  refine .ite (fun _ => .refl s) fun _ => ?_
  extract_lets l hash u v w
  have hu : Ongoing s u := .of_eq rfl rfl rfl
  have hv : Ongoing u v := .after (.setFld _ HASH_LINK_FRAME_HI.DATA _ (by decide)) (.setFld _ HASH_LINK_FRAME_LO.DATA _ (by decide))
  have hw : Ongoing v w := .after (.setFld _ HASH_FIN_COUNT_HI.DATA _ (by decide)) (.setFld _ HASH_FIN_COUNT_LO.DATA _ (by decide))
  refine ((hu.trans hv).trans hw).trans (.foldl _ _ (fun i hi s => ?_) w)
  have h := hlink i (List.mem_range.1 hi)
  exact .after (.setFld _ _ _ h.2) (.setFld _ _ _ h.1)

theorem alertUpdate_ongoing (s : State) : Ongoing s (alertUpdate s) := by
  unfold alertUpdate
  extract_lets u active fresh v
  have hu : Ongoing s u := .setFld _ _ _ (by decide)
  have hv : Ongoing u v := .ite (fun _ => .refl u) fun _ => .setFlag _ _ _ (by decide)
  exact (hu.trans hv).trans (.of_eq rfl rfl rfl)

/-- A second has passed: the counters are latched, and what does not add up shows (R243 to R245). -/
theorem ledgerAudit_latches {s : State} (h : secondsAdvanced s = true) : ∃ t, exec .ledgerAudit s = .next t ∧ t.audited = (auditLatch s).audited ∧
    ∀ p : Fin 4, framesConserved (frameCounters s p) = false → BreachShown p t := by
  have hexec : exec .ledgerAudit s = .next (alertUpdate (indexRecords (secondLatch (audit s)))) := by
    show execLedgerAudit s = _
    rw [execLedgerAudit, if_pos h]
  have ho : Ongoing (audit s) (alertUpdate (indexRecords (secondLatch (audit s)))) :=
    ((secondLatch_ongoing _).trans (.indexRecords _)).trans (alertUpdate_ongoing _)
  obtain ⟨ha, hb⟩ := foldl_showBreach (fun _ hk => auditBreaches_lt hk) (auditLatch s)
  rw [← audit_eq] at ha hb
  refine ⟨_, hexec, ho.audited.trans ha, fun p hp => ?_⟩
  obtain ⟨hpath, hflag⟩ := hb p (.inl (port_mem_auditBreaches p hp))
  exact ⟨by rw [State.fld_congr_word (f := LEDGER_AUDIT_FAIL.PATH) ho.failed, hpath], ho.event hflag⟩


/-! ### The combiner -/

theorem cycleFires_event {s : State} {n i τ l : Nat} (hn : n < 16) (hl : termLiterals s n = [l, 0, 0, 0]) (hused : litUsed l = true)
    (hevent : litEvent l = true) (hi : litInput l = i) : (cycleFires s [(i, τ)] τ)[n]? = some (some τ) := by
  have hfind : (termLiterals s n).find? (fun l => litUsed l && litEvent l) = some l := by
    rw [hl]
    simp [hused, hevent]
  have hand : termAnd s [(i, τ)] (termLiterals s n) = true := by
    have h0 : litUsed 0 = false := by decide
    rw [hl]
    simp [termAnd, hused, hevent, h0]
  have hfire : termFire s [(i, τ)] τ (s.ledger.terms.getD n false) (termLiterals s n) = some τ := by
    unfold termFire
    rw [hfind]
    simp [hand, hi]
  rw [cycleFires, List.getElem?_map, List.getElem?_range hn]
  exact congrArg some hfire

/-- In a cycle with one event every term that fires carries its time. -/
theorem cycleFires_time {s : State} {i τ n w : Nat} (h : ((cycleFires s [(i, τ)] τ)[n]?).join = some w) : w = τ := by
  have hfire : ∀ b ls w, termFire s [(i, τ)] τ b ls = some w → w = τ := by
    intro b ls w hw
    unfold termFire at hw
    split at hw
    · next e _ =>
      split at hw
      · obtain ⟨x, hx, rfl⟩ := List.mem_map.1 (List.min?_mem hw)
        rw [List.mem_singleton.1 (List.mem_filter.1 hx).1]
      · cases hw
    · split at hw
      · exact (Option.some.inj hw).symm
      · cases hw
  rw [cycleFires, List.getElem?_map] at h
  cases hr : (List.range 16)[n]? with
  | none =>
    rw [hr] at h
    cases h
  | some k =>
    rw [hr] at h
    exact hfire _ _ w h

/-- An output whose set a term of this cycle fires is placed. -/
theorem outputStep_places {s u : State} {i τ k n : Nat} (hc : Combined s u) (hen : (outCtrl (readList 0 (s.table 0x10 2) (16 * k) 16)).testBit 7 = true)
    (hdest : bits (outCtrl (readList 0 (s.table 0x10 2) (16 * k) 16)) 5 4 ≠ 0)
    (hterm : (outTerms (readList 0 (s.table 0x10 2) (16 * k) 16)).testBit n = true) (hn : n < 16)
    (hfire : (cycleFires s [(i, τ)] τ)[n]? = some (some τ)) :
    ∃ p ∈ (outputStep (cycleFires s [(i, τ)] τ) [] u k).ledger.placements, p.out = k ∧ p.time = τ ∧
      p.cfg = readList 0 (s.table 0x10 2) (16 * k) 16 := by
  have htab : u.table 0x10 2 = s.table 0x10 2 := by rw [State.table, State.table, hc.cue]
  obtain ⟨c, hcdef⟩ : ∃ c, c = readList 0 (s.table 0x10 2) (16 * k) 16 := ⟨_, rfl⟩
  rw [← hcdef] at hen hdest hterm ⊢
  have hok : destOk u (bits (outCtrl c) 5 4) = true := by
    have hlt : bits (outCtrl c) 5 4 < 4 := Nat.mod_lt _ (by decide)
    rw [destOk, Nat.mod_eq_of_lt hlt]
    simp [hdest]
  obtain ⟨ws, hws⟩ : ∃ ws, ws = ((List.range 16).filter (fun i => (outTerms c).testBit i)).filterMap
    (fun j => ((cycleFires s [(i, τ)] τ)[j]?).join) := ⟨_, rfl⟩
  have hmem : τ ∈ ws := by
    rw [hws]
    exact List.mem_filterMap.2 ⟨n, List.mem_filter.2 ⟨List.mem_range.2 hn, hterm⟩, by rw [hfire]; rfl⟩
  have hall : ∀ w ∈ ws, w = τ := by
    intro w hw
    rw [hws] at hw
    obtain ⟨j, -, hj⟩ := List.mem_filterMap.1 hw
    exact cycleFires_time hj
  have hmin : ws.min? = some τ := by
    cases hm : ws.min? with
    | none =>
      rw [List.min?_eq_none_iff] at hm
      rw [hm] at hmem
      cases hmem
    | some w => rw [hall w (List.min?_mem hm)]
  have he : outputStep (cycleFires s [(i, τ)] τ) [] u k = outputFire k τ [] u := by
    unfold outputStep
    simp only [htab, ← hcdef, ← hws, hen, hok, hmin, Bool.true_eq_false, or_self, if_false]
  rw [he]
  exact ⟨_, (outputFire_placed k τ [] u).2, rfl, rfl, by rw [hcdef, ← htab]; rfl⟩

/-- An event that makes a term of an enabled output's set fire places the output (R215 to R218). -/
theorem combine_places {s : State} {i τ l : Nat} {k : Fin 4} {n : Fin 16} (hd : s.domainOn 28 = true) (htrig : s.flag LEDGER_CTRL.TRIG_EN = true)
    (hen : (outCtrl (readList 0 (s.table 0x10 2) (16 * k) 16)).testBit 7 = true)
    (hdest : bits (outCtrl (readList 0 (s.table 0x10 2) (16 * k) 16)) 5 4 ≠ 0)
    (hterm : (outTerms (readList 0 (s.table 0x10 2) (16 * k) 16)).testBit n = true)
    (hl : termLiterals s n = [l, 0, 0, 0]) (hused : litUsed l = true) (hevent : litEvent l = true) (hi : litInput l = i) :
    ∃ p ∈ (combine [(i, τ)] τ s).ledger.placements, p.out = k.val ∧ p.time = τ ∧ p.cfg = readList 0 (s.table 0x10 2) (16 * k) 16 := by
  obtain ⟨v, hv⟩ : ∃ v, v = combineCycle [] [(i, τ)] τ s := ⟨_, rfl⟩
  have he : combine [(i, τ)] τ s = combineCycle [] [] τ v := by
    rw [hv]
    show combineWith [] [(i, τ)] τ s = _
    rw [combineWith, if_neg (by rw [hd]; decide), if_neg (by simp)]
  have hfire := cycleFires_event (τ := τ) n.isLt hl hused hevent hi
  have hsplit : List.range 4 = List.range k ++ k.val :: (List.range (3 - k)).map (fun j => k.val + 1 + j) := by
    have hall : ∀ k : Fin 4, List.range 4 = List.range k ++ k.val :: (List.range (3 - k)).map (fun j => k.val + 1 + j) := by decide
    exact hall k
  rw [combineCycle_eq, if_neg (by rw [htrig]; decide), hsplit, List.foldl_append, List.foldl_cons] at hv
  obtain ⟨u, hu⟩ : ∃ u, u = (List.range k).foldl (outputStep (cycleFires s [(i, τ)] τ) []) (termsNow [(i, τ)] s) := ⟨_, rfl⟩
  have hc : Combined s u := by
    have hnow : Combined s (termsNow [(i, τ)] s) := .of_same rfl rfl rfl rfl (List.Subset.refl _)
    exact hu ▸ hnow.trans (.foldl (outputStep_combined _ _) _ _)
  rw [← hu] at hv
  obtain ⟨p, hp, hp'⟩ := outputStep_places hc hen hdest hterm n.isLt hfire
  have hrest := Combined.foldl (outputStep_combined (cycleFires s [(i, τ)] τ) []) ((List.range (3 - k)).map (fun j => k.val + 1 + j))
    (outputStep (cycleFires s [(i, τ)] τ) [] u k)
  rw [← hv] at hrest
  rw [he]
  exact ⟨p, (combineCycle_combined [] [] τ v).placements (hrest.placements hp), hp'⟩

theorem bits_low (v : Word) : bits v.toNat 1 0 = v.toNat % 4 := by
  simp [bits]

theorem exec_softwareTrigger_now {s : State} {v : Word} (hr : s.call.restart = none) (hd : s.domainOn 28 = true) (hv : v.getLsbD 8 = false) :
    exec (.softwareTrigger v) s = .next (combine [(80 + v.toNat % 4, s.nowNs)] s.nowNs (busOk 0 s)) := by
  have hd' : (busOk 0 s).domainOn 28 = true := hd
  have hv' : v.toNat.testBit 8 = false := hv
  show execSoftwareTrigger v s = _
  simp only [execSoftwareTrigger, hr, hd', hv', bits_low, Option.isSome_none, Bool.false_eq_true, Bool.true_eq_false, if_true, if_false]
  rfl

theorem exec_softwareTrigger_later {s : State} {v : Word} (hr : s.call.restart = none) (hd : s.domainOn 28 = true) (hv : v.getLsbD 8 = true)
    (ht : s.nowNs < swTime s) (hsw : s.ledger.sw.getD (v.toNat % 4) none = none) :
    exec (.softwareTrigger v) s = .next { s with
      sys := { s.sys with bus := { data := 0, error := false } }
      ledger := { s.ledger with sw := s.ledger.sw.set (v.toNat % 4) (some (swTime s)) } } := by
  have hd' : (busOk 0 s).domainOn 28 = true := hd
  have hv' : v.toNat.testBit 8 = true := hv
  have hsw' : (busOk 0 s).ledger.sw.getD (v.toNat % 4) none = none := hsw
  have ht' : ¬swTime (busOk 0 s) ≤ (busOk 0 s).nowNs := Nat.not_le.2 ht
  show execSoftwareTrigger v s = _
  simp only [execSoftwareTrigger, hr, hd', hv', hsw', bits_low, Option.isSome_none, Bool.false_eq_true, Bool.true_eq_false, if_false, if_neg ht']
  rfl

theorem swtrigDue_fires {s : State} {k : Fin 4} {τ : Nat} (hsw : s.ledger.sw.getD k none = some τ) (ht : τ ≤ s.nowNs) :
    ∃ t u, exec (.swtrigDue k) s = .next t ∧ t = combine [(80 + k.val, τ)] τ u ∧ t.ledger.sw = s.ledger.sw.set k none ∧
      u = { s with ledger := { s.ledger with sw := s.ledger.sw.set k none } } := by
  have hexec : exec (.swtrigDue k) s = .next (combine [(80 + k.val, τ)] τ (setLedger { s.ledger with sw := s.ledger.sw.set k none } s)) := by
    show execSwtrigDue k s = _
    unfold execSwtrigDue
    rw [hsw]
    exact if_neg (Nat.not_lt.2 ht)
  exact ⟨_, _, hexec, rfl, (combine_combined _ _ _).sw, rfl⟩


/-! ### Placement -/

/-- The registers of the trigger log. -/
def logRegs : List Nat := LEDGER_TLOG_WR.WR.addr :: (List.range 128).map (fun i => (LEDGER_TLOG.DATA i).addr)

/-- `t` is `s` with ranges placed and frames committed: neither the log nor what waits to be placed has changed. -/
structure Placing (s t : State) : Prop where
  placements : t.ledger.placements = s.ledger.placements
  regs : ∀ a ∈ logRegs, t.word a = s.word a

namespace Placing

variable {s t u : State}

theorem of_eq (hp : t.ledger.placements = s.ledger.placements) (hr : t.regs = s.regs) : Placing s t := ⟨hp, fun _ _ => State.word_congr hr _⟩

theorem refl (s : State) : Placing s s := of_eq rfl rfl

theorem trans (h : Placing s t) (h' : Placing t u) : Placing s u :=
  ⟨h'.placements.trans h.placements, fun a ha => (h'.regs a ha).trans (h.regs a ha)⟩

theorem foldl {α : Type} {f : State → α → State} (hf : ∀ s a, Placing s (f s a)) (l : List α) (s : State) : Placing s (l.foldl f s) := by
  induction l generalizing s with
  | nil => exact refl s
  | cons a l ih => exact (hf s a).trans (ih (f s a))

theorem setFld (s : State) (f : Fld) (n : Nat) (hf : f.addr ∉ logRegs) : Placing s (s.setFld f n) :=
  ⟨rfl, fun _ ha => State.word_setFld_ne s f n fun he => hf (he ▸ ha)⟩

theorem ledgerShow (s : State) : Placing s (ledgerShow s) :=
  ((setFld s LEDGER_STATUS.IN_FLIGHT _ (by decide +kernel)).trans (setFld _ LEDGER_STATUS.RANGE _ (by decide +kernel))).trans
    (setFld _ LEDGER_STATUS.PART_OK _ (by decide +kernel))

theorem recodeTo (num o : Nat) (s : State) : Placing s (recodeTo num o s) := by
  unfold Machine.recodeTo
  split
  · exact of_eq rfl rfl
  · exact refl s

theorem commitFrame (num dest flag : Nat) (out : Option Nat) (new : Bool) (s : State) : Placing s (commitFrame num dest flag out new s) := by
  have h : Placing s (commitRecord num dest flag out new s) := of_eq rfl rfl
  exact h.trans (.foldl (fun s o => .recodeTo num o s) _ _)

theorem preWalk (out dest guard port : Nat) (wings : Bool) (fs : List Frame) (left done : Nat) (s : State) :
    Placing s (preWalk out dest guard port wings fs left done s).2 := by
  induction fs generalizing left done s with
  | nil => exact refl s
  | cons f fs ih =>
    cases left with
    | zero => exact refl s
    | succ left =>
      unfold Machine.preWalk
      split
      · exact (commitFrame ..).trans (ih ..)
      · split
        · exact ih ..
        · split
          · exact ih ..
          · split
            · exact (commitFrame ..).trans (ih ..)
            · exact refl s

theorem placeRange (r : Range) (s : State) : Placing s (placeRange r s) := by
  unfold Machine.placeRange
  extract_lets same wait f
  split
  · exact of_eq rfl rfl
  · exact of_eq rfl rfl

theorem endRanges (s : State) : Placing s (endRanges s) := by
  have h : Placing s (setLedger { s.ledger with ranges := s.ledger.ranges.filter (fun r => r.waitT || rangeLeft s r != 0) } s) := of_eq rfl rfl
  exact h.trans (.ledgerShow _)

theorem preShort (k : Nat) (s : State) : Placing s (ledgerFlag LEDGER_EVENT.PRE_SHORT .info k 0 s) := by
  obtain ⟨r, c, cs, h⟩ := postFlag_frame LEDGER_EVENT.PRE_SHORT (cls := .info) (by decide) LEDGER_EVENT.PRE_SHORT.lo 6 k 0 s
  have hne : ∀ a ∈ logRegs, a ≠ LEDGER_EVENT.PRE_SHORT.addr ∧ a ≠ CALL_OVERFLOW.COUNT.addr := by decide +kernel
  refine ⟨?_, fun a ha => postFlag_word (by decide) LEDGER_EVENT.PRE_SHORT.lo 6 k 0 s (hne a ha).1 (hne a ha).2⟩
  rw [ledgerFlag, h]

theorem placeStream (p : Placement) (st : Nat) (s : State) : Placing s (placeStream p st s).2 := by
  unfold Machine.placeStream
  extract_lets dest wings T tnum tfs ext post r s1 s2 s3 before
  have h1 : Placing s s1 := by
    unfold s1
    cases T with
    | none => exact refl s
    | some x => exact commitFrame ..
  have h2 : Placing s1 s2 := by
    unfold s2
    cases T with
    | none => exact refl s1
    | some x =>
      refine .foldl (fun s f => ?_) _ s1
      split
      · exact commitFrame ..
      · exact refl s
  have h3 : Placing s s3 := (h1.trans h2).trans (placeRange r s2)
  split
  · exact refl s
  · split
    · exact refl s
    · refine (h3.trans (preWalk p.out dest (outGuard p.cfg) (st / 4) wings before (outPre p.cfg) 0 s3)).trans ?_
      dsimp only
      split
      · exact (preShort ..).trans (endRanges _)
      · exact endRanges _

theorem of_pumped {s t : State} (h : Pumped s t) : Placing s t := by
  obtain ⟨⟨x, k, c, rfl⟩, -⟩ := h
  exact of_eq rfl rfl

theorem linkSend (b : FlitBody) (s : State) : Placing s (linkSend b s) := by
  have hsend : ∀ p, Placing s (kSend p [b] s) := fun p => of_pumped ((Driven.modKPort ..).pumped.trans (kPump_pumped ..))
  unfold Machine.linkSend
  split
  · exact hsend 0
  · split
    · exact hsend 1
    · exact refl s

theorem pairPlaced (out time : Nat) (b : FlitBody) (s : State) : Placing s (pairPlaced out time b s) := by
  unfold Machine.pairPlaced
  extract_lets fill
  obtain ⟨u, hu⟩ : ∃ u, u = setKlink { s.klink with order := fill s.klink.order } s := ⟨_, rfl⟩
  have h : Placing s u := hu ▸ of_eq rfl rfl
  rw [← hu]
  unfold Machine.pairFlush
  extract_lets o n
  have hk : Placing u (setKlink { u.klink with order := u.klink.order.drop n } u) := of_eq rfl rfl
  exact (h.trans hk).trans (.foldl (fun s b => linkSend b s) _ _)

end Placing

theorem logField_fits (i : Nat) : (LEDGER_TLOG.DATA i).fits = true := rfl

theorem logField_apart {i j : Nat} (h : i ≠ j) : (LEDGER_TLOG.DATA i).addr ≠ (LEDGER_TLOG.DATA j).addr := by
  simp only [LEDGER_TLOG.DATA]
  omega

theorem logField_wr (i : Nat) : (LEDGER_TLOG.DATA i).addr ≠ LEDGER_TLOG_WR.WR.addr := by
  simp only [LEDGER_TLOG.DATA, LEDGER_TLOG_WR.WR]
  omega

/-- The words of a trigger log entry, written from place `b` on: word `i` holds what was written there. -/
theorem logWords_shown (b : Nat) (ws : List Nat) (j : Nat) (s : State) :
    ((ws.zipIdx j).foldl (fun s e => s.setFld (LEDGER_TLOG.DATA (b + e.2)) e.1) s).ledger = s.ledger ∧
    ((ws.zipIdx j).foldl (fun s e => s.setFld (LEDGER_TLOG.DATA (b + e.2)) e.1) s).fld LEDGER_TLOG_WR.WR = s.fld LEDGER_TLOG_WR.WR ∧
    (∀ i, i < j → ((ws.zipIdx j).foldl (fun s e => s.setFld (LEDGER_TLOG.DATA (b + e.2)) e.1) s).fld (LEDGER_TLOG.DATA (b + i)) =
      s.fld (LEDGER_TLOG.DATA (b + i))) ∧
    ∀ i w, ws[i]? = some w → ((ws.zipIdx j).foldl (fun s e => s.setFld (LEDGER_TLOG.DATA (b + e.2)) e.1) s).fld (LEDGER_TLOG.DATA (b + (j + i))) =
      w % 2 ^ 32 := by
  induction ws generalizing j s with
  | nil => exact ⟨rfl, rfl, fun _ _ => rfl, fun i w h => by simp at h⟩
  | cons x ws ih =>
    obtain ⟨u, hu⟩ : ∃ u, u = s.setFld (LEDGER_TLOG.DATA (b + j)) x := ⟨_, rfl⟩
    rw [List.zipIdx_cons, List.foldl_cons, ← hu]
    obtain ⟨hl, hwr, hlow, hget⟩ := ih (j + 1) u
    have hother : ∀ i, i ≠ j → u.fld (LEDGER_TLOG.DATA (b + i)) = s.fld (LEDGER_TLOG.DATA (b + i)) := fun i hi => by
      rw [hu]
      exact State.fld_congr_word (f := LEDGER_TLOG.DATA (b + i)) (State.word_setFld_ne s _ x (logField_apart (by omega)))
    refine ⟨hl.trans (by rw [hu]; rfl), hwr.trans ?_, fun i hi => (hlow i (by omega)).trans (hother i (by omega)), fun i w h => ?_⟩
    · rw [hu]
      exact State.fld_congr_word (f := LEDGER_TLOG_WR.WR) (State.word_setFld_ne s _ x (logField_wr _).symm)
    · cases i with
      | zero =>
        obtain rfl : x = w := by simpa using h
        refine (hlow j (by omega)).trans ?_
        rw [hu]
        exact State.fld_setFld_same s _ x (logField_fits _)
      | succ i =>
        rw [show j + (i + 1) = j + 1 + i by omega]
        exact hget i w (by simpa using h)

/-- The end of a trigger log entry: WR moves on, the words stay. -/
theorem logEnd_shown {s u v : State} {k : Nat} (hr : v.regs = u.regs) (hl : v.ledger.placements = s.ledger.placements) (i : Nat) :
    (v.setFld LEDGER_TLOG_WR.WR (k + 1)).ledger.placements = s.ledger.placements ∧
    (v.setFld LEDGER_TLOG_WR.WR (k + 1)).fld LEDGER_TLOG_WR.WR = (k + 1) % 2 ^ LEDGER_TLOG_WR.WR.width ∧
    (v.setFld LEDGER_TLOG_WR.WR (k + 1)).fld (LEDGER_TLOG.DATA i) = u.fld (LEDGER_TLOG.DATA i) :=
  ⟨hl, State.fld_setFld_same _ _ _ (by decide),
    (State.fld_congr_word (f := LEDGER_TLOG.DATA i) (State.word_setFld_ne v LEDGER_TLOG_WR.WR (k + 1) (logField_wr _))).trans
      (State.fld_congr hr _)⟩

/-- `t` is `s` with one trigger log entry more, which has the time of `p`; the same fires wait (R246). -/
structure Logged (p : Placement) (s t : State) : Prop where
  placements : t.ledger.placements = s.ledger.placements
  next : t.fld LEDGER_TLOG_WR.WR = (s.fld LEDGER_TLOG_WR.WR + 1) % 2 ^ LEDGER_TLOG_WR.WR.width
  time : t.fld (LEDGER_TLOG.DATA (8 * (s.fld LEDGER_TLOG_WR.WR % 16) + 2)) = p.time % 1000000000

/-- The words of the trigger log entry number `k`, of fire `p` on stream `st`. -/
def entryWords (p : Placement) (st : Nat) (x : Placed) (k : Nat) : List Nat :=
  [k, p.out + 256 * st + 65536 * x.flags, p.time % 1000000000, p.time / 1000000000, x.tnum.getD 0, x.tnum.getD 0 / 2 ^ 32, x.pre,
    outPre p.cfg - x.pre]

/-- The state with the words of an entry written. -/
def entryWritten (p : Placement) (st : Nat) (x : Placed) (k : Nat) (s : State) : State :=
  (entryWords p st x k).zipIdx.foldl (fun s e => s.setFld (LEDGER_TLOG.DATA (8 * (k % 16) + e.2)) e.1) s

/-- An entry without a frame yet waits for it. -/
def entryWaits (st : Nat) (x : Placed) (k : Nat) (s : State) : State :=
  if x.tnum.isNone then setLedger { s.ledger with tlogWait := s.ledger.tlogWait ++ [(st, k)] } s else s

theorem logTrigger_eq (p : Placement) (st : Nat) (x : Placed) (s : State) : logTrigger p st x s =
    (entryWaits st x (s.fld LEDGER_TLOG_WR.WR) (entryWritten p st x (s.fld LEDGER_TLOG_WR.WR) s)).setFld LEDGER_TLOG_WR.WR
      (s.fld LEDGER_TLOG_WR.WR + 1) := rfl

theorem entryWaits_kept (st : Nat) (x : Placed) (k : Nat) (s : State) :
    (entryWaits st x k s).regs = s.regs ∧ (entryWaits st x k s).ledger.placements = s.ledger.placements := by
  unfold entryWaits
  split
  · exact ⟨rfl, rfl⟩
  · exact ⟨rfl, rfl⟩

theorem entryWritten_shown (p : Placement) (st : Nat) (x : Placed) (k : Nat) (s : State) :
    (entryWritten p st x k s).ledger = s.ledger ∧
    (entryWritten p st x k s).fld (LEDGER_TLOG.DATA (8 * (k % 16) + 2)) = p.time % 1000000000 := by
  obtain ⟨hl, -, -, hget⟩ := logWords_shown (8 * (k % 16)) (entryWords p st x k) 0 s
  have h := hget 2 (p.time % 1000000000) rfl
  rw [Nat.zero_add] at h
  have hlt : p.time % 1000000000 < 2 ^ 32 := by omega
  exact ⟨hl, h.trans (Nat.mod_eq_of_lt hlt)⟩

theorem logTrigger_logged (p : Placement) (st : Nat) (x : Placed) (s : State) : Logged p s (logTrigger p st x s) := by
  obtain ⟨hl, htime⟩ := entryWritten_shown p st x (s.fld LEDGER_TLOG_WR.WR) s
  obtain ⟨hr, hp⟩ := entryWaits_kept st x (s.fld LEDGER_TLOG_WR.WR) (entryWritten p st x (s.fld LEDGER_TLOG_WR.WR) s)
  obtain ⟨hpl, hwr, hd⟩ := logEnd_shown (k := s.fld LEDGER_TLOG_WR.WR) hr (hp.trans (congrArg LedgerState.placements hl))
    (8 * (s.fld LEDGER_TLOG_WR.WR % 16) + 2)
  rw [logTrigger_eq]
  exact ⟨hpl, hwr, hd.trans htime⟩

/-- A register of the trigger log. -/
theorem logRegs_data {k : Nat} (h : k < 128) : (LEDGER_TLOG.DATA k).addr ∈ logRegs :=
  List.mem_cons_of_mem _ (List.mem_map.mpr ⟨k, List.mem_range.mpr h, rfl⟩)

/-- The streams of a placement, each placed in its turn. -/
theorem placeStreams_placing (p : Placement) (l : List Nat) (a : List (Nat × Placed) × State) {s : State} (h : Placing s a.2) :
    Placing s (l.foldl (fun (a : List (Nat × Placed) × State) st =>
      (a.1 ++ [(st, (placeStream p st a.2).1)], (placeStream p st a.2).2)) a).2 := by
  induction l generalizing a with
  | nil => exact h
  | cons st l ih =>
    rw [List.foldl_cons]
    exact ih _ (h.trans (.placeStream p st a.2))

theorem Logged.after {p : Placement} {s u t : State} (h : Placing s u) (hl : Logged p u t) : Logged p s t := by
  have hwr : u.fld LEDGER_TLOG_WR.WR = s.fld LEDGER_TLOG_WR.WR := State.fld_congr_word (h.regs _ (List.mem_cons_self ..))
  exact ⟨hl.placements.trans h.placements, hwr ▸ hl.next, hwr ▸ hl.time⟩

theorem Logged.trans {p : Placement} {s u t : State} (hl : Logged p s u) (h : Placing u t) : Logged p s t :=
  ⟨h.placements.trans hl.placements, (State.fld_congr_word (h.regs _ (List.mem_cons_self ..))).trans hl.next,
    (State.fld_congr_word (h.regs _ (logRegs_data (by omega)))).trans hl.time⟩

/-- A fire is placed on its streams and written to the trigger log (R246). -/
theorem placeAll_logged (p : Placement) (s : State) : Logged p s (placeAll p s) := by
  unfold placeAll
  extract_lets sts
  have hu := placeStreams_placing p sts ([], s) (.refl s)
  obtain ⟨⟨rs, u⟩, hru⟩ : ∃ r : List (Nat × Placed) × State, r = sts.foldl (fun (a : List (Nat × Placed) × State) st =>
    (a.1 ++ [(st, (placeStream p st a.2).1)], (placeStream p st a.2).2)) ([], s) := ⟨_, rfl⟩
  rw [← hru] at hu ⊢
  clear hru
  cases rs with
  | nil => exact ((logTrigger_logged p 0xFF _ u).after hu).trans (.pairPlaced ..)
  | cons e rs => exact ((logTrigger_logged p e.1 e.2 u).after hu).trans (.pairPlaced ..)

/-- The end of a settle window takes its fire off and writes its log entry (R218, R246). -/
theorem exec_rangePlace {s : State} {p : Placement} (hw : startWaits s = false) (hp : nextPlacement s = some p)
    (hend : settleEnd s p ≤ s.nowNs) : ∃ t, exec .rangePlace s = .next t ∧ t.ledger.placements = s.ledger.placements.erase p ∧
      t.fld LEDGER_TLOG_WR.WR = (s.fld LEDGER_TLOG_WR.WR + 1) % 2 ^ LEDGER_TLOG_WR.WR.width ∧
      t.fld (LEDGER_TLOG.DATA (8 * (s.fld LEDGER_TLOG_WR.WR % 16) + 2)) = p.time % 1000000000 := by
  obtain ⟨u, hu⟩ : ∃ u, u = setLedger { s.ledger with placements := s.ledger.placements.erase p } s := ⟨_, rfl⟩
  have hx : exec .rangePlace s = .next (ledgerShow (placeAll p u)) := by
    show (if startWaits s then Host.Outcome.next (setLedger { s.ledger with placeDue := s.ledger.placeDue + 1 } s)
      else .next (placeNext s)) = _
    rw [hw, if_neg Bool.false_ne_true, placeNext, hp]
    dsimp only
    rw [if_pos hend, hu]
  obtain ⟨hpl, hwr, htime⟩ := (placeAll_logged p u).trans (.ledgerShow _)
  have hregs : u.fld LEDGER_TLOG_WR.WR = s.fld LEDGER_TLOG_WR.WR := State.fld_congr (by rw [hu]; rfl) _
  rw [hregs] at hwr htime
  exact ⟨_, hx, hpl.trans (by rw [hu]; rfl), hwr, htime⟩

/-! ### The partner time-out, and the obligation -/

/-- The final chain takes a record in without a change of the spill ring's registers. -/
theorem absorbFinal_wr (r c : List Byte) (s : State) : (absorbFinal r c s).fld LEDGER_SPILL_WR.WR = s.fld LEDGER_SPILL_WR.WR := by
  unfold absorbFinal
  split
  · rfl
  · split
    · have h := (postFlag_outage (f := HASH_EVENT.CHAIN_FAULT) (by decide) HASH_EVENT.CHAIN_FAULT.lo .fatal 10 0xFF 0 (endSegment s)).regs
        LEDGER_SPILL_WR.WR.addr (by decide)
      have he : (endSegment s).word LEDGER_SPILL_WR.WR.addr = s.word LEDGER_SPILL_WR.WR.addr := State.word_setFld_ne s _ _ (by decide)
      exact State.fld_congr_word (h.trans he)
    · rfl

/-- A record that the spill ring takes moves WR on (R239). -/
theorem spillStore_wr {r : List Byte} {s : State} (hen : s.flag LEDGER_SPILL_SIZE.EN = true) (hok : s.ledger.spillOk = true) :
    (spillStore r s).fld LEDGER_SPILL_WR.WR = (s.fld LEDGER_SPILL_WR.WR + 1) % 2 ^ LEDGER_SPILL_WR.WR.width := by
  unfold spillStore
  rw [hen, hok, if_neg (by decide), if_neg (by decide)]
  exact State.fld_setFld_same _ _ _ (by decide)

/-- The record of a frame is written out: WR moves on and the frame says so. -/
theorem spillFrame_shown {f : Frame} {s : State} (hen : s.flag LEDGER_SPILL_SIZE.EN = true) (hok : s.ledger.spillOk = true) :
    (spillFrame f s).fld LEDGER_SPILL_WR.WR = (s.fld LEDGER_SPILL_WR.WR + 1) % 2 ^ LEDGER_SPILL_WR.WR.width ∧
    ∀ x ∈ (spillFrame f s).ledger.frames, x.num = f.num → x.spilled = true := by
  unfold spillFrame
  extract_lets r t
  have ht := spillStore_wr (r := r) hen hok
  refine ⟨?_, fun x hx hnum => ?_⟩
  · refine Eq.trans ?_ ht
    show (if f.offFinal then t else absorbFinal r f.coded t).fld LEDGER_SPILL_WR.WR = t.fld LEDGER_SPILL_WR.WR
    split
    · rfl
    · exact absorbFinal_wr ..
  · obtain ⟨y, -, rfl⟩ := List.mem_map.1 hx
    by_cases hy : y.num = f.num
    · rw [if_pos hy]
    · rw [if_neg hy] at hnum
      exact absurd hnum hy

/-- A frame that is changed under its own number stays the frame of that number. -/
theorem frameOf_modFrame_same {s : State} {n : Nat} {f : Frame} (hf : frameOf s n = some f) {g : Frame → Frame} (hg : ∀ x, (g x).num = x.num) :
    frameOf (modFrame n g s) n = some (g f) := by
  have hn : f.num = n := by simpa using List.find?_some hf
  have hp : ((fun x : Frame => x.num == n) ∘ fun x => if x.num = n then g x else x) = fun x => x.num == n := by
    funext x
    by_cases hx : x.num = n
    · simp [hx, hg]
    · simp [hx]
  show (s.ledger.frames.map fun x => if x.num = n then g x else x).find? _ = _
  rw [List.find?_map, hp]
  exact (congrArg (Option.map _) hf).trans (by rw [Option.map_some, if_pos hn])

/-- A frame that alone waits to be written out, and is ready, is written out. -/
theorem spillSettled_single {f : Frame} {s : State} {n : Nat} (hq : s.ledger.toSpill = [n]) (hf : frameOf s n = some f)
    (hready : spillReady s n = true) (hen : s.flag LEDGER_SPILL_SIZE.EN = true) (hok : s.ledger.spillOk = true) :
    (spillSettled s).fld LEDGER_SPILL_WR.WR = (s.fld LEDGER_SPILL_WR.WR + 1) % 2 ^ LEDGER_SPILL_WR.WR.width ∧
    ∀ x ∈ (spillSettled s).ledger.frames, x.num = n → x.spilled = true := by
  obtain ⟨u, hu⟩ : ∃ u, u = setLedger { s.ledger with toSpill := [] } s := ⟨_, rfl⟩
  have heq : spillSettled s = ledgerForget (spillFrame f u) := by
    unfold spillSettled
    rw [hq]
    simp only [List.takeWhile_cons, hready, if_true, List.takeWhile_nil, List.length_singleton, List.drop_one, List.tail_cons,
      List.foldl_cons, List.foldl_nil]
    rw [← hu, show frameOf u n = some f by rw [hu]; exact hf]
  have hnum : f.num = n := by simpa using List.find?_some hf
  obtain ⟨hwr, hsp⟩ := spillFrame_shown (f := f) (s := u) (by rw [hu]; exact hen) (by rw [hu]; exact hok)
  rw [heq]
  refine ⟨?_, fun x hx hx' => hsp x (List.mem_filter.1 hx).1 (hx'.trans hnum.symm)⟩
  have hkept : (ledgerForget (spillFrame f u)).fld LEDGER_SPILL_WR.WR = (spillFrame f u).fld LEDGER_SPILL_WR.WR := by
    have hfold : ∀ (l : List Frame) (s : State), (l.foldl (fun s f => rememberGone f s) s).regs = s.regs := by
      intro l
      induction l with
      | nil => exact fun s => rfl
      | cons f l ih => exact fun s => (congrArg State.regs (List.foldl_cons ..)).trans (ih _)
    exact State.fld_congr (hfold _ _) _
  rw [hkept, hwr, hu]
  rfl

/-- A final record that has waited 50 ms for the partner is written out (R239). -/
theorem exec_partnerDispTimeout {s : State} {n τ : Nat} {f : Frame} (hq : s.ledger.toSpill = [n]) (hf : frameOf s n = some f)
    (hs : f.settled = true) (hp : f.partner = none) (hfin : f.finalAt = some τ) (hel : s.elapsedNs τ 50000000 = true)
    (hen : s.flag LEDGER_SPILL_SIZE.EN = true) (hok : s.ledger.spillOk = true) :
    ∃ t, exec (.partnerDispTimeout n) s = .next t ∧
      t.fld LEDGER_SPILL_WR.WR = (s.fld LEDGER_SPILL_WR.WR + 1) % 2 ^ LEDGER_SPILL_WR.WR.width ∧
      ∀ x ∈ t.ledger.frames, x.num = n → x.spilled = true := by
  obtain ⟨u, hu⟩ : ∃ u, u = modFrame n (fun x => { x with partner := some 15 }) s := ⟨_, rfl⟩
  have hsettled := hs
  simp only [Frame.settled, Bool.and_eq_true, Bool.not_eq_true'] at hs
  obtain ⟨⟨hfly, -⟩, hsp⟩ := hs
  have hx : exec (.partnerDispTimeout n) s = .next (spillSettled u) := by
    show execPartnerDispTimeout n s = _
    unfold execPartnerDispTimeout
    rw [hf]
    dsimp only
    rw [if_neg (by simp [hfly, hp, hsp, hfin, hel]), hu]
  have hfu : frameOf u n = some { f with partner := some 15 } := by
    rw [hu]
    exact frameOf_modFrame_same hf fun _ => rfl
  have hready : spillReady u n = true := by
    rw [spillReady, hfu]
    show (Frame.settled { f with partner := some 15 } && !(u.flag KLINK_STATUS.FORMED && false && f.origin.isNone)) = true
    rw [show Frame.settled { f with partner := some 15 } = f.settled from rfl, hsettled]
    simp
  obtain ⟨hwr, hall⟩ := spillSettled_single (s := u) (by rw [hu]; exact hq) hfu hready (by rw [hu]; exact hen) (by rw [hu]; exact hok)
  refine ⟨_, hx, ?_, hall⟩
  rw [hwr, hu]
  rfl

/-- Settles O34. -/
theorem combinerAndAudit : Obligations.CombinerAndAudit := by
  unfold Obligations.CombinerAndAudit
  refine ⟨fun s i τ k n l h1 h2 h3 h4 h5 h6 h7 h8 h9 => combine_places h1 h2 h3 h4 h5 h6 h7 h8 h9, fun s v h1 h2 h3 => exec_softwareTrigger_now h1 h2 h3,
    fun s v h1 h2 h3 h4 h5 => ⟨_, exec_softwareTrigger_later h1 h2 h3 h4 h5, rfl⟩, fun s k τ h1 h2 => swtrigDue_fires h1 h2,
    fun s p h1 h2 h3 => exec_rangePlace h1 h2 h3, fun s h => ?_, fun s h => ?_, fun s h => ?_,
    fun s n τ f h1 h2 h3 h4 h5 h6 h7 h8 => exec_partnerDispTimeout h1 h2 h3 h4 h5 h6 h7 h8, fun s p h1 h2 => ?_⟩
  · exact congrArg Host.Outcome.next (if_neg (by rw [h]; decide))
  · obtain ⟨t, hx, ha, -⟩ := ledgerAudit_latches h
    simp only [State.audited, Prod.mk.injEq] at ha
    exact ⟨t, hx, ha.1, ha.2.1, ha.2.2⟩
  · exact if_pos h
  · obtain ⟨t, hx, -, hb⟩ := ledgerAudit_latches h2
    exact ⟨t, hx, hb p h1⟩
end Sys2Proof.Machine
end

section
/-! PROOFS. A port whose group names a first member beyond the ports (R115). -/

namespace Sys2Proof.Machine

/-- A pipeline port on which frames of stream 0 wait. -/
def laggingPort : PipePort :=
  { pipePortInit with waiting := List.replicate 2 { num := 0, port := 0, vc := 0, fs := 0, d := oneLine, addr := 0, live := true } }

/-- An entry that nothing joins. -/
def quietEntry : CallEntry :=
  { seq := 0, code := 0x401, cls := .warning, nested := false, critical := false, safe := false, done := false, inst := 0, firstSec := 0
    firstNs := 0, count := 1, lastNs := 0, lastSec := 0, detail := 0, terminal := false }

/-- A group whose first member has the number 336: its status would stand where `CALL_OVERFLOW.COUNT` stands. The queue is full, and the
pipeline is behind, so that the frame's start has it skip one. -/
def farGroup : State :=
  { withFlds [(POWER_STATUS.ON, 2 ^ 6 + 2 ^ 10), (INGEST_CTRL.EN 0, 1), (CUE_STATUS.MODE, 2), (PIPE_CTRL.EN, 1), (PIPE_PORT.EN 336, 1),
      (CALL_OVERFLOW.COUNT, 0xFFF)] with
    ingest := { ingestInit with group := [336] } :: List.replicate 335 ingestInit ++ [{ ingestInit with valid := [true, false, false, false] }]
    pipe := { pipeInit with ports := List.replicate 337 laggingPort }
    call := { callInit with queue := List.replicate 60 quietEntry } }

/-- The open flag of stream 0 of port 336, once a command is done. -/
def farOpen : Host.Outcome State Fault Refusal → Option Bool
  | .next t => some ((t.fld (INGEST_STATUS.OPEN 336)).testBit 0)
  | _ => none

theorem farGroup_ready : portRuns farGroup 0 = true ∧ farGroup.domainOn 6 = true ∧ refFor farGroup 0 0 = 336 ∧ refPort farGroup 0 = 336 ∧
    findStream farGroup 336 0 = some (0, streamDesc farGroup 336 0) ∧ openFrame farGroup 336 0 = none ∧ farGroup.ingest.length = 337 := by
  decide +kernel

theorem farOpen_farGroup : farOpen (exec (.frameStart 0 0 1 false) farGroup) = some false := by
  decide +kernel

/-- Refutes O27: where the group's first member is no port of the device, its open flag stands in another register, which an event that
the full queue drops counts on. -/
theorem not_framesOpenAndClose : ¬ Obligations.FramesOpenAndClose := by
  rintro ⟨h, -⟩
  obtain ⟨hruns, hdomain, href, hport, hstream, hopen, hlength⟩ := farGroup_ready
  have hclaim := h farGroup 0 0 1 0 (streamDesc farGroup 336 0) hruns hdomain
  rw [show refPort farGroup (0 : Fin 4) = 336 from hport] at hclaim
  obtain ⟨t, f, hexec, -, -, -, -, hflag⟩ := hclaim href hstream hopen (by rw [hlength]; decide) rfl
  have hfar := farOpen_farGroup
  rw [hexec, farOpen, Option.some.injEq, hflag (by decide)] at hfar
  exact absurd hfar (by decide)

end Sys2Proof.Machine
end

section
/-! PROOFS. Packets beside the lines of a frame, and the time-outs of ingest (R106 to R128). -/

namespace Sys2Proof.Machine

/-! ### Packets that are ignored or counted -/

theorem portOf_modPort (f : IngestPort → IngestPort) (p q : Nat) (s : State) :
    portOf (modPort p f s) q = portOf s q ∨ portOf (modPort p f s) q = f (portOf s q) := by
  show ((modAt s.ingest p f)[q]?).getD ingestInit = _ ∨ ((modAt s.ingest p f)[q]?).getD ingestInit = _
  rw [getElem?_modAt, portOf]
  by_cases h : q = p
  · rw [if_pos h]
    cases s.ingest[q]? with
    | none => exact .inl rfl
    | some x => exact .inr rfl
  · rw [if_neg h]
    exact .inl rfl

/-- A packet changes nothing of a port that packets are sorted by. -/
theorem portOf_packetSeen (p q : Nat) (s : State) : (portOf (packetSeen p s) q).opens = (portOf s q).opens ∧
    (portOf (packetSeen p s) q).group = (portOf s q).group ∧ (portOf (packetSeen p s) q).valid = (portOf s q).valid := by
  obtain h | h := portOf_modPort (fun x => { x with hsAt := some s.ticks }) p q (s.setFlag (INGEST_STATUS.STOP p) true)
  · rw [packetSeen, h]
    exact ⟨rfl, rfl, rfl⟩
  · rw [packetSeen, h]
    exact ⟨rfl, rfl, rfl⟩

theorem refFor_packetSeen (p q vc : Nat) (s : State) : refFor (packetSeen p s) q vc = refFor s q vc := by
  unfold refFor refPort
  simp only [(portOf_packetSeen p _ s).1, (portOf_packetSeen p _ s).2.1]

theorem findStream_packetSeen (p r vc : Nat) (s : State) : findStream (packetSeen p s) r vc = findStream s r vc := by
  have hd : ∀ r d, streamDesc (packetSeen p s) r d = streamDesc s r d := fun _ _ => rfl
  unfold findStream
  simp only [(portOf_packetSeen p _ s).1, (portOf_packetSeen p _ s).2.2, hd]

theorem openFrame_packetSeen (p r d : Nat) (s : State) : openFrame (packetSeen p s) r d = openFrame s r d := by
  unfold openFrame
  rw [(portOf_packetSeen p r s).1]

/-- A packet shows that the lanes have left the stop state, and no other register changes. -/
theorem packetSeen_shows (p : Fin 4) (s : State) : (packetSeen p s).flag (INGEST_STATUS.STOP p) = true ∧
    packetSeen p s = { s with regs := (packetSeen p s).regs, ingest := (packetSeen p s).ingest } ∧
    RegsBut s (packetSeen p s) [(INGEST_STATUS.STOP p).addr] := by
  refine ⟨?_, rfl, fun a ha => ?_⟩
  · exact State.flag_setFlag_same s (INGEST_STATUS.STOP p) true rfl rfl
  · exact State.word_setFld_ne s (INGEST_STATUS.STOP p) _ (by simpa using ha)

theorem correctedHeader_false (p vc : Nat) (s : State) : correctedHeader p vc false s = s := rfl

/-- Line Start and Line End within a frame (R123). -/
theorem exec_lineStartEnd {s : State} {port : Fin 4} {vc : Fin 16} {d : Nat} {sd : StreamDesc} {f : OpenFrame}
    (hactive : portActive s port = true) (hdrops : ingestDrops s port vc = false)
    (hstream : findStream s (refFor s port vc) vc = some (d, sd)) (hopen : openFrame s (refFor s port vc) d = some f)
    (hmember : memberOpen f port = true) : exec (.lineStartEnd port vc false) s = .next (packetSeen port s) := by
  show Host.Outcome.next (shortPacket port.val vc.val false (fun _ s => s) s) = _
  unfold shortPacket
  rw [if_neg (by simp [hactive, hdrops])]
  dsimp only
  rw [correctedHeader_false, refFor_packetSeen, findStream_packetSeen, hstream]
  dsimp only
  rw [openFrame_packetSeen, hopen]
  dsimp only
  rw [if_pos hmember]

theorem exec_nullBlanking {s : State} {port : Fin 4} (vc : Fin 16) (hactive : portActive s port = true) :
    exec (.nullBlanking port vc false) s = .next (packetSeen port s) := by
  show (if portActive s port.val then Host.Outcome.next (correctedHeader port.val vc.val false (packetSeen port.val s)) else .next s) = _
  rw [if_pos hactive, correctedHeader_false]

theorem ingestClass_recoverable (t : Nat) : ingestClass t ≠ .fatal := by
  unfold ingestClass
  split
  · decide
  · decide

/-- A packet of type `t` on `vc` that is counted, with its flag (R128). -/
theorem countIngest_shows (p : Fin 4) (vc : Fin 16) {t : Nat} (ht : t < 15) (s : State) :
    (countIngest p vc t s).fld (INGEST_CNT.COUNT p (16 * vc + t)) =
      min (2 ^ 32 - 1) (s.fld (INGEST_CNT.COUNT p (16 * vc + t)) + 1) ∧
    ((countIngest p vc t s).fld (INGEST_EVENT.TYPE p)).testBit t = true ∧
    RegsBut s (countIngest p vc t s) ([(INGEST_CNT.COUNT p (16 * vc + t)).addr, (INGEST_EVENT.TYPE p).addr] ++ eventRegs) := by
  have hp := p.isLt
  have hvc := vc.isLt
  have hov : (INGEST_CNT.COUNT p (16 * vc + t)).addr ≠ CALL_OVERFLOW.COUNT.addr ∧ (INGEST_EVENT.TYPE p).addr ≠ CALL_OVERFLOW.COUNT.addr ∧
      (INGEST_CNT.COUNT p (16 * vc + t)).addr ≠ (INGEST_EVENT.TYPE p).addr := by
    simp only [INGEST_CNT.COUNT, INGEST_EVENT.TYPE, CALL_OVERFLOW.COUNT]
    omega
  obtain ⟨hcount, htype, hne⟩ := hov
  obtain ⟨u, hu⟩ : ∃ u, u = s.addFld (INGEST_CNT.COUNT p (16 * vc + t)) 1 := ⟨_, rfl⟩
  have he : countIngest p vc t s = postEvent { cls := ingestClass t, block := 3, cause := 0x100 + t, inst := p, detail := vc }
      (u.orBit (INGEST_EVENT.TYPE p) t) := by
    rw [hu]
    rfl
  rw [he]
  refine ⟨?_, ?_, fun a ha => ?_⟩
  · rw [State.fld_postEvent (ingestClass_recoverable t) _ hcount, State.orBit,
      State.fld_congr_word (f := INGEST_CNT.COUNT p (16 * vc + t)) (State.word_setFld_ne u (INGEST_EVENT.TYPE p) _ hne), hu]
    exact State.fld_addFld_same s (INGEST_CNT.COUNT p (16 * vc + t)) 1 rfl
  · rw [State.fld_postEvent (ingestClass_recoverable t) _ htype]
    exact State.testBit_orBit_same u (INGEST_EVENT.TYPE p) t rfl ht
  · simp only [eventRegs, List.cons_append, List.nil_append, List.mem_cons, List.not_mem_nil, or_false, not_or] at ha
    obtain ⟨h1, h2, h3, -⟩ := ha
    rw [postEvent_word (ingestClass_recoverable t) _ h3, State.orBit, State.word_setFld_ne u (INGEST_EVENT.TYPE p) _ h2, hu]
    exact State.word_setFld_ne s (INGEST_CNT.COUNT p (16 * vc + t)) _ h1

/-- The same after a packet has been seen. -/
theorem countIngest_packetSeen (p : Fin 4) (vc : Fin 16) {t : Nat} (ht : t < 15) (s : State) :
    (countIngest p vc t (packetSeen p s)).fld (INGEST_CNT.COUNT p (16 * vc + t)) =
      min (2 ^ 32 - 1) (s.fld (INGEST_CNT.COUNT p (16 * vc + t)) + 1) ∧
    ((countIngest p vc t (packetSeen p s)).fld (INGEST_EVENT.TYPE p)).testBit t = true ∧
    RegsBut s (countIngest p vc t (packetSeen p s))
      ([(INGEST_STATUS.STOP p).addr, (INGEST_CNT.COUNT p (16 * vc + t)).addr, (INGEST_EVENT.TYPE p).addr] ++ eventRegs) := by
  obtain ⟨hcount, htype, hregs⟩ := countIngest_shows p vc ht (packetSeen p s)
  obtain ⟨-, -, hseen⟩ := packetSeen_shows p s
  have hne : (INGEST_CNT.COUNT p (16 * vc + t)).addr ≠ (INGEST_STATUS.STOP p).addr := by
    have hp := p.isLt
    have hvc := vc.isLt
    simp only [INGEST_CNT.COUNT, INGEST_STATUS.STOP]
    omega
  refine ⟨?_, htype, fun a ha => ?_⟩
  · rw [hcount, State.fld_congr_word (f := INGEST_CNT.COUNT p (16 * vc + t)) (hseen _ (by simpa using hne))]
  · simp only [List.cons_append, List.mem_cons, not_or] at ha
    obtain ⟨h1, h2⟩ := ha
    exact (hregs a (by simpa using h2)).trans (hseen a (by simpa using h1))

/-- A packet of a type that no stream of its virtual channel takes (R128). -/
theorem exec_dtUnsel {s : State} {port : Fin 4} {vc : Fin 16} (dt : BitVec 6) (hactive : portActive s port = true)
    (hdrops : ingestDrops s port vc = false) (hstream : findStream s (refFor s port vc) vc = none) :
    exec (.dtUnsel port vc dt ⟨false, false⟩) s = .next (countIngest port vc 7 (packetSeen port s)) := by
  show execDtUnsel port vc dt ⟨false, false⟩ s = _
  unfold execDtUnsel
  dsimp only
  rw [if_neg (by simp [hactive, hdrops]), correctedHeader_false, refFor_packetSeen, findStream_packetSeen, hstream]
  rfl

/-- A packet outside a frame (R128). -/
theorem exec_orphan {s : State} {port : Fin 4} {vc : Fin 16} {d : Nat} {sd : StreamDesc} (hactive : portActive s port = true)
    (hdrops : ingestDrops s port vc = false) (hstream : findStream s (refFor s port vc) vc = some (d, sd))
    (hopen : openFrame s (refFor s port vc) d = none) :
    exec (.orphan port vc ⟨false, false⟩) s = .next (countIngest port vc 6 (packetSeen port s)) := by
  have hcrc : discardedCrc port.val vc.val false s = s := by
    unfold discardedCrc
    split
    · rfl
    · rfl
  show Host.Outcome.next (shortPacket port.val vc.val false (fun _ s => s) (discardedCrc port.val vc.val false s)) = _
  rw [hcrc]
  unfold shortPacket
  rw [if_neg (by simp [hactive, hdrops])]
  dsimp only
  rw [correctedHeader_false, refFor_packetSeen, findStream_packetSeen, hstream]
  dsimp only
  rw [openFrame_packetSeen, hopen]

theorem frameCounts_regs (l : List OpenFrame) (i n : Nat) (s : State) : (l.foldl (fun s f => frameCount f.num i n s) s).regs = s.regs := by
  induction l generalizing s with
  | nil => rfl
  | cons f l ih =>
    rw [List.foldl_cons, ih]
    rfl

/-- A burst with an uncorrectable header (R128). -/
theorem exec_eccUncorr {s : State} {port : Fin 4} (vc : Fin 16) (hactive : portActive s port = true) :
    ∃ t, exec (.eccUncorr port vc) s = .next t ∧ t.regs = (countIngest port vc 1 (packetSeen port s)).regs := by
  obtain ⟨u, hu⟩ : ∃ u, u = countIngest port vc 1 (packetSeen port s) := ⟨_, rfl⟩
  refine ⟨(u.ingest.map (fun r => r.opens.filter (fun f => f.members.any (fun m => m.port == port.val)))).flatten.foldl
    (fun s f => frameCount f.num 1 1 s) u, ?_, hu ▸ frameCounts_regs _ 1 1 _⟩
  show execEccUncorr port vc s = _
  unfold execEccUncorr
  dsimp only
  rw [if_neg (by simp [hactive]), hu]

/-- ULPS and the stop state show (R106). -/
theorem exec_laneUlps {s : State} {port : Fin 4} (enter : Bool) (hd : s.domainOn (6 + port.val) = true) :
    ∃ t, exec (.laneUlps port enter) s = .next t ∧ t.flag (INGEST_STATUS.ULPS port) = enter ∧
      t.flag (INGEST_STATUS.STOP port) = !enter ∧ OnlyRegs s t [(INGEST_STATUS.ULPS port).addr] := by
  refine ⟨_, if_pos hd, ?_, State.flag_setFlag_same _ (INGEST_STATUS.STOP port) _ rfl rfl, ?_⟩
  · have hap : ∀ p : Fin 4, (INGEST_STATUS.STOP p).fits = true ∧ (INGEST_STATUS.ULPS p).apart (INGEST_STATUS.STOP p) = true := by decide
    rw [State.setFlag, State.flag_setFld_apart _ _ _ _ (hap port).1 (hap port).2]
    exact State.flag_setFlag_same s (INGEST_STATUS.ULPS port) _ rfl rfl
  · have h : OnlyRegs s s [(INGEST_STATUS.ULPS port).addr] := ⟨rfl, fun _ _ => rfl⟩
    exact (h.setFld (f := INGEST_STATUS.ULPS port) (by simp) _).setFld (f := INGEST_STATUS.STOP port) (by simp [INGEST_STATUS.STOP, INGEST_STATUS.ULPS]) _

/-- CLEAR zeroes the counters of a port (R128). -/
theorem exec_ingestCounterClear {s : State} {port : Fin 4} (hd : s.domainOn (6 + port.val) = true) :
    ∃ t, exec (.ingestCounterClear port) s = .next t ∧ (∀ i : Fin 256, t.fld (INGEST_CNT.COUNT port i) = 0) ∧
      OnlyRegs s t ((List.range 1024).map (fun i => (INGEST_CNT.COUNT port 0).addr + i)) := by
  have hd' : (busOk 0 s).domainOn (6 + port.val) = true := hd
  refine ⟨_, if_pos hd', fun i => ?_, rfl, fun a ha => ?_⟩
  · have hz : ∀ t : State, t.word (INGEST_CNT.COUNT port i).addr = 0 → t.fld (INGEST_CNT.COUNT port i) = 0 := fun t ht => by
      rw [State.fld, ht]
      simp
    refine hz _ ?_
    show readAt 0 (clearRange s.regs _ _) _ = 0
    have hi := i.isLt
    have hlo : (INGEST_CNT.COUNT port 0).addr ≤ (INGEST_CNT.COUNT port i).addr := by
      simp only [INGEST_CNT.COUNT]
      omega
    have hhi : (INGEST_CNT.COUNT port i).addr < (INGEST_CNT.COUNT port 256).addr := by
      simp only [INGEST_CNT.COUNT]
      omega
    rw [readAt_clearRange, if_pos ⟨hlo, hhi⟩]
  · show readAt 0 (clearRange s.regs _ _) a = readAt 0 s.regs a
    rw [readAt_clearRange, if_neg fun h => ha (List.mem_map.2 ⟨a - (INGEST_CNT.COUNT port 0).addr, List.mem_range.2 ?_, ?_⟩)]
    · simp only [INGEST_CNT.COUNT] at h ⊢
      omega
    · simp only [INGEST_CNT.COUNT] at h ⊢
      omega

/-! ### What the lines of a frame set off -/

/-- `t` is `s` after what a frame's lines set off: no frame opens or ends, and no event is fatal. -/
structure Calm (s t : State) : Prop where
  ongoing : Ongoing s t
  ingest : t.ingest = s.ingest

namespace Calm

variable {s t u : State}

theorem of_frames (hf : t.ledger.frames = s.ledger.frames) (ha : t.audited = s.audited) (hi : t.ingest = s.ingest) (hr : t.regs = s.regs) :
    Calm s t := ⟨.of_frames hf ha hi hr, hi⟩

theorem of_eq (hl : t.ledger = s.ledger) (hi : t.ingest = s.ingest) (hr : t.regs = s.regs) : Calm s t := ⟨.of_eq hl hi hr, hi⟩

theorem refl (s : State) : Calm s s := of_eq rfl rfl rfl

theorem trans (h : Calm s t) (h' : Calm t u) : Calm s u := ⟨h.ongoing.trans h'.ongoing, h'.ingest.trans h.ingest⟩

theorem after (h' : Calm t u) (h : Calm s t) : Calm s u := h.trans h'

theorem ite {p : Prop} [Decidable p] (h : p → Calm s t) (k : ¬p → Calm s u) : Calm s (if p then t else u) := by
  split <;> rename_i hp
  · exact h hp
  · exact k hp

theorem foldl {α : Type} (f : State → α → State) (l : List α) (h : ∀ a s, Calm s (f s a)) (s : State) : Calm s (l.foldl f s) := by
  induction l generalizing s with
  | nil => exact refl s
  | cons a l ih => exact (h a s).trans (ih (f s a))

theorem setFld (s : State) (f : Fld) (n : Nat) (hf : Ongoing.misses f = true) : Calm s (s.setFld f n) := ⟨.setFld s f n hf, rfl⟩

theorem setFlag (s : State) (f : Fld) (b : Bool) (hf : Ongoing.misses f = true) : Calm s (s.setFlag f b) := setFld s f _ hf

theorem postEvent (e : Event) (s : State) (he : e.cls ≠ .fatal) : Calm s (postEvent e s) := by
  refine ⟨.postEvent e s, ?_⟩
  obtain ⟨r, c, l, h, -⟩ := postEvent_frame he s
  rw [h]

theorem postFlag (f : Fld) (n : Nat) (cls : EventClass) (block inst detail : Nat) (s : State) (hf : Ongoing.misses f = true)
    (hc : cls ≠ .fatal) : Calm s (postFlag f n cls block inst detail s) := .after (.postEvent _ _ hc) (.setFld _ _ _ hf)

theorem writeDram (a : Nat) (bs : List Byte) (s : State) : Calm s (s.writeDram a bs) :=
  ⟨.writeDram a bs s, by rw [((Stored.refl s).writeDram a bs).state]⟩

theorem linkSend (b : FlitBody) (s : State) : Calm s (linkSend b s) := by
  have hp : ∀ {t : State}, Pumped s t → Calm s t := fun h => ⟨.of_pumped h, by
    obtain ⟨⟨x, k, c, rfl⟩, -⟩ := h
    rfl⟩
  have hsend : ∀ p, Calm s (kSend p [b] s) := fun p => hp ((Driven.modKPort ..).pumped.trans (kPump_pumped ..))
  unfold Machine.linkSend
  exact .ite (fun _ => hsend 0) fun _ => .ite (fun _ => hsend 1) fun _ => .refl s

theorem drivePins (k : Nat) (s : State) : Calm s (drivePins k s) := by
  refine .foldl _ _ (fun n s => ?_) s
  dsimp only
  split
  · exact Calm.trans (t := s.orBit LEDGER_PIN_STATUS.OUT n) (.setFld _ _ _ (by decide)) (.of_frames rfl rfl rfl rfl)
  · exact .refl s

theorem outputFire (k t : Nat) (hints : List (Nat × Nat)) (s : State) : Calm s (outputFire k t hints s) := by
  unfold Machine.outputFire
  extract_lets c p x u
  have hu : Calm s u := .ite (fun _ => .of_eq rfl rfl rfl) fun _ => .refl s
  have hfire : Calm u (ledgerFlag LEDGER_EVENT.FIRE .info k 0 u) := .postFlag LEDGER_EVENT.FIRE _ _ _ _ _ u (by decide) (by decide)
  obtain ⟨r, cl, cs, h⟩ := postFlag_frame LEDGER_EVENT.FIRE (cls := .info) (by decide) LEDGER_EVENT.FIRE.lo 6 k 0 u
  have hl : (ledgerFlag LEDGER_EVENT.FIRE .info k 0 u).ledger = { u.ledger with credits := cs } := by rw [ledgerFlag, h]
  have hplace : Calm (ledgerFlag LEDGER_EVENT.FIRE .info k 0 u) (setLedger { u.ledger with placements := u.ledger.placements ++ [p] }
      (ledgerFlag LEDGER_EVENT.FIRE .info k 0 u)) := .of_frames (by rw [hl]; rfl) (by rw [State.audited, State.audited, hl]; rfl) rfl rfl
  exact ((hu.trans hfire).trans hplace).trans (.drivePins ..)

theorem combineCycle (hints pulses : List (Nat × Nat)) (t : Nat) (s : State) : Calm s (combineCycle hints pulses t s) := by
  unfold Machine.combineCycle
  extract_lets fires now l u
  have hu : Calm s u := .of_frames rfl rfl rfl rfl
  refine hu.trans (.ite (fun _ => .refl u) fun _ => .foldl _ _ (fun k s => ?_) u)
  dsimp only
  refine .ite (fun _ => .refl s) fun _ => ?_
  split
  · exact .outputFire ..
  · exact .refl s

theorem combine (pulses : List (Nat × Nat)) (t : Nat) (s : State) : Calm s (combine pulses t s) := by
  unfold Machine.combine combineWith
  exact .ite (fun _ => .refl s) fun _ => .ite (fun _ => .combineCycle ..) fun _ => .after (.combineCycle ..) (.combineCycle ..)

theorem setPending (p : CueStack) (s : State) : Calm s (setPending p s) := .of_eq rfl rfl rfl

theorem postKind (kind block inst detail : Nat) (s : State) : Calm s (postKind kind block inst detail s) := .postEvent _ _ nofun

theorem doStackOp (op level slot inst off : Nat) (s : State) : Calm s (doStackOp op level slot inst off s) := by
  unfold Machine.doStackOp
  split
  · exact .setPending ..
  · exact .postKind ..

theorem acceptCommit (s : State) : Calm s (acceptCommit s) := by
  unfold Machine.acceptCommit
  refine .ite (fun _ => .postKind ..) fun _ => ?_
  extract_lets enters u v w
  have hu : Calm s u := .ite (fun _ => .refl s) fun _ => .of_eq rfl rfl rfl
  have hv : Calm u v := .ite (fun _ => .refl u) fun _ => .setFld _ _ _ (by decide)
  have hw : Calm v w := .ite (fun _ => .postKind 3 1 0xFF CUE_REF_TIMEOUT.MS.addr v) fun _ => .refl v
  exact ((hu.trans hv).trans hw).trans (.of_eq rfl rfl rfl)

theorem pairFlush (s : State) : Calm s (pairFlush s) := by
  unfold Machine.pairFlush
  extract_lets out n
  have h : Calm s (setKlink { s.klink with order := s.klink.order.drop n } s) := .of_eq rfl rfl rfl
  exact h.trans (.foldl _ _ (fun b s => .linkSend b s) _)

theorem pairSend (b : FlitBody) (s : State) : Calm s (pairSend b s) := by
  unfold Machine.pairSend
  have h : Calm s (setKlink { s.klink with order := s.klink.order ++ [.ready b] } s) := .of_eq rfl rfl rfl
  exact .ite (fun _ => h.trans (.pairFlush _)) fun _ => .refl s

theorem selAct (n : Nat) (s : State) : Calm s (selAct n s) := by
  unfold Machine.selAct
  extract_lets u
  have hu : Calm s u := .doStackOp ..
  exact hu.trans (.ite (fun _ => .acceptCommit u) fun _ => .refl u)

theorem selFire (n : Nat) (s : State) : Calm s (selFire n s) := by
  unfold Machine.selFire
  extract_lets u
  have hu : Calm s u := .selAct n s
  exact hu.trans (.ite (fun _ => .pairSend _ u) fun _ => .refl u)

theorem selFireAll (cs : List (Nat × Nat × SelEdge)) (s : State) : Calm s (selFireAll cs s) :=
  .foldl _ _ (fun n s => .ite (fun _ => .selFire n s) fun _ => .refl s) s

theorem setBit (s : State) (f : Fld) (n : Nat) (b : Bool) (hf : Ongoing.misses f = true) : Calm s (s.setBit f n b) := by
  unfold State.setBit
  exact .ite (fun _ => .setFld _ _ _ hf) fun _ => .setFld _ _ _ hf

theorem setGroupLevel (g : Nat) (b : Bool) (s : State) : Calm s (setGroupLevel g b s) := by
  unfold Machine.setGroupLevel
  exact .ite (fun _ => .setBit _ _ _ _ (by decide)) fun _ => .setBit _ _ _ _ (by decide)

/-- One group fires: its level, its flags and its event. -/
theorem groupFire (num g : Nat) (s : State) : Calm s
    (let rising := !groupLevel s g
      let s := (Machine.setGroupLevel g true s).setFlag CELL_EVENT.FIRE true
      let s := if g < 32 then s.orBit CELL_FIRED_LO.FIRED g else s.orBit CELL_FIRED_HI.FIRED (g - 32)
      let s := setCell { s.cell with gframe := s.cell.gframe.set g num } s
      if rising then cellFlag CELL_EVENT.FIRE .info g s else s) := by
  extract_lets rising u v c w
  have hu : Calm s u := (setGroupLevel g true s).trans (.setFlag _ _ _ (by decide))
  have hv : Calm u v := .ite (fun _ => .setFld _ _ _ (by decide)) fun _ => .setFld _ _ _ (by decide)
  have hw : Calm v w := .of_eq rfl rfl rfl
  exact ((hu.trans hv).trans hw).trans (.ite (fun _ => .postFlag CELL_EVENT.FIRE _ _ _ _ _ _ (by decide) (by decide)) fun _ => .refl w)

theorem groupsFire (gs : List Nat) (num : Nat) (s : State) : Calm s (groupsFire gs num s) := by
  unfold Machine.groupsFire
  refine .ite (fun _ => .refl s) fun _ => ?_
  extract_lets t u changes
  have hu : Calm s u := .foldl _ _ (fun g s => groupFire num g s) s
  exact (hu.trans (.combine ..)).trans (.selFireAll ..)

theorem groupsFall (gs : List Nat) (s : State) : Calm s (groupsFall gs s) := by
  unfold Machine.groupsFall
  extract_lets gs'
  refine .ite (fun _ => .refl s) fun _ => ?_
  have hu := Calm.foldl (fun s g => Machine.setGroupLevel g false s) gs' (fun g s => .setGroupLevel g false s) s
  exact (hu.trans (.combine ..)).trans (.selFireAll ..)

theorem setCell (c : CellState) (s : State) : Calm s (setCell c s) := .of_eq rfl rfl rfl

theorem decideCell (id col row : Nat) (px : List (Nat × Nat × Nat × Nat)) (filled last : Bool) (s : State) :
    Calm s (decideCell id col row px filled last s) := by
  unfold Machine.decideCell
  split
  · exact .refl s
  · dsimp only
    refine .after (.groupsFire ..) (.after (.ite (fun _ => .setFlag _ _ _ (by decide)) fun _ => .refl _) ?_)
    refine .after (.ite (fun _ => .refl _) fun _ => .ite (fun _ => .setFlag _ _ _ (by decide)) fun _ =>
      .postFlag CELL_EVENT.BAD_TERM _ _ _ _ _ _ (by decide) (by decide)) (.after (.setFld _ _ _ (by decide)) (.setCell ..))

theorem decideRow (f : OpenFrame) (e : CellEval) (row : Nat) (s : State) : Calm s (decideRow f e row s) :=
  .foldl _ _ (fun _ s => .decideCell ..) s

theorem gridComplete (s : State) : Calm s (gridComplete s) := by
  unfold Machine.gridComplete
  split
  · exact .refl s
  next e _ =>
    extract_lets u v c w
    have hu : Calm s u := .groupsFall ..
    have hv : Calm u v := by
      unfold v
      split
      · exact .refl u
      · exact .after (.writeDram ..) (.writeDram ..)
    have hw : Calm v w := .setCell ..
    exact ((hu.trans hv).trans hw).trans (.after (.setFld _ CELL_FRAME_HI.DATA _ (by decide))
      (.after (.setFld _ CELL_FRAME_LO.DATA _ (by decide)) (.setFlag _ CELL_STATUS.ACTIVE _ (by decide))))

theorem decideRows (f : OpenFrame) (n : Nat) (s : State) : Calm s (decideRows f n s) := by
  induction n generalizing s with
  | zero => exact .refl s
  | succ n ih =>
    unfold Machine.decideRows
    split
    · exact .refl s
    · dsimp only
      refine .ite (fun _ => ?_) fun _ => .refl s
      refine .after (.ite (fun _ => .gridComplete _) fun _ => ih _) (.after (.setCell ..) (.decideRow ..))

theorem writeSlot (num off : Nat) (bs : List Byte) (s : State) : Calm s (writeSlot num off bs s) := by
  unfold Machine.writeSlot
  split
  · exact .refl s
  · split
    · exact .writeDram ..
    · exact .refl s

end Calm

/-! ### A frame closes -/

/-- `t` is `s` after what leaves the frames that are open, or ends all of a port: each frame's record is that of its number, and what is
closed stays so. -/
structure Held (s t : State) : Prop where
  frames : ∀ y ∈ t.ledger.frames, ∃ x ∈ s.ledger.frames, x.num = y.num ∧ (x.closed = true → y.closed = true)
  opens : ∀ p, (portOf t p).opens = (portOf s p).opens ∨ (portOf t p).opens = []

namespace Held

variable {s t u : State}

theorem of_ongoing (h : Ongoing s t) : Held s t :=
  ⟨fun y hy => by
    obtain ⟨x, hx, hn, hc, -⟩ := h.frames y hy
    exact ⟨x, hx, hn, hc⟩, fun p => (h.ports.2 p).2⟩

theorem refl (s : State) : Held s s := of_ongoing (.refl s)

theorem trans (h : Held s t) (h' : Held t u) : Held s u := by
  refine ⟨fun z hz => ?_, fun p => ?_⟩
  · obtain ⟨y, hy, hn, hc⟩ := h'.frames z hz
    obtain ⟨x, hx, hn', hc'⟩ := h.frames y hy
    exact ⟨x, hx, hn'.trans hn, fun h => hc (hc' h)⟩
  · obtain h1 | h1 := h'.opens p
    · rw [h1]
      exact h.opens p
    · exact .inr h1

theorem setFld (s : State) (f : Fld) (n : Nat) : Held s (s.setFld f n) :=
  ⟨fun y hy => ⟨y, hy, rfl, id⟩, fun _ => .inl rfl⟩

theorem countIngest (p vc t : Nat) (s : State) : Held s (countIngest p vc t s) :=
  ((setFld ..).trans (setFld ..)).trans (of_ongoing (.postEvent ..))

/-- What was closed under a number stays closed under it. -/
theorem closed (h : Held s t) {n : Nat} (hc : ∀ x ∈ s.ledger.frames, x.num = n → x.closed = true) :
    ∀ x ∈ t.ledger.frames, x.num = n → x.closed = true := fun y hy hn => by
  obtain ⟨x, hx, hnum, hcl⟩ := h.frames y hy
  exact hcl (hc x hx (hnum.trans hn))

/-- An open frame is the one that was open. -/
theorem openFrame (h : Held s t) {r d : Nat} {g : OpenFrame} (hg : openFrame t r d = some g) : Machine.openFrame s r d = some g := by
  obtain ho | ho := h.opens r
  · rwa [Machine.openFrame, ho] at hg
  · rw [Machine.openFrame, ho] at hg
    exact nomatch hg

theorem none (h : Held s t) {r d : Nat} (hs : Machine.openFrame s r d = Option.none) : Machine.openFrame t r d = Option.none := by
  cases ht : Machine.openFrame t r d with
  | none => rfl
  | some g => exact absurd (h.openFrame ht) (by rw [hs]; exact nofun)

end Held

/-- The frame open on descriptor `d` of port `r`, if any, is that of number `n`. -/
def OpenIs (r d n : Nat) (s : State) : Prop := ∀ g, openFrame s r d = some g → g.port = r ∧ g.num = n

theorem openFrame_desc {s : State} {r d : Nat} {g : OpenFrame} (h : openFrame s r d = some g) : g.desc = d := by
  simpa using List.find?_some h

theorem OpenIs.held {r d n : Nat} {s t : State} (h : OpenIs r d n s) (ht : Held s t) : OpenIs r d n t :=
  fun g hg => h g (ht.openFrame hg)

/-- An open frame that is changed: it, or the one that was open. -/
theorem openFrame_setOpen {f g : OpenFrame} {s : State} {r d : Nat} (h : openFrame (setOpen f s) r d = some g) :
    g = f ∨ openFrame s r d = some g := by
  obtain hp | hp := portOf_modPort (fun p => { p with opens := p.opens.map (fun x => if x.desc = f.desc then f else x) }) f.port r s
  · rw [openFrame, setOpen, hp] at h
    exact .inr h
  · rw [openFrame, setOpen, hp] at h
    dsimp only at h
    rw [List.find?_map, show ((fun g : OpenFrame => g.desc == d) ∘ fun x => if x.desc = f.desc then f else x) = fun g => g.desc == d by
      funext x
      by_cases hx : x.desc = f.desc
      · simp [hx]
      · simp [hx]] at h
    obtain ⟨x, hx, rfl⟩ := Option.map_eq_some_iff.1 h
    by_cases hd : x.desc = f.desc
    · rw [if_pos hd]
      exact .inl rfl
    · rw [if_neg hd]
      exact .inr hx

theorem OpenIs.setOpen {r d n : Nat} {s : State} (h : OpenIs r d n s) {f : OpenFrame} (hr : f.port = r) (hn : f.num = n) :
    OpenIs r d n (setOpen f s) := fun g hg => by
  obtain rfl | hg := openFrame_setOpen hg
  · exact ⟨hr, hn⟩
  · exact h g hg

theorem OpenIs.passLines {r d n : Nat} {s : State} (h : OpenIs r d n s) {f : OpenFrame} (hr : f.port = r) (hn : f.num = n) (p : Nat)
    (ls : List Line) : OpenIs r d n (passLines f p ls s) := by
  unfold Machine.passLines
  extract_lets k old u f' v
  have hu : OpenIs r d n u := h.held (.of_ongoing (Calm.foldl _ _ (fun _ s => .writeSlot ..) s).ongoing)
  have hv : OpenIs r d n v := (hu.setOpen (f := f') hr hn).held (.of_ongoing (.modFrame _ _ _ fun _ => ⟨rfl, id, id⟩))
  exact hv.held (.of_ongoing (Calm.decideRows ..).ongoing)

theorem OpenIs.fillMember {r d n : Nat} {s : State} (h : OpenIs r d n s) (num p : Nat) : OpenIs r d n (fillMember num r d p s) := by
  unfold Machine.fillMember
  split
  · exact h
  next f hf =>
    obtain ⟨hr, hn⟩ := h f hf
    split
    · exact h
    · split
      · exact h
      · extract_lets miss l
        have hc : Held s (frameCount num 5 miss s) := .of_ongoing (.modFrame _ _ _ fun _ => ⟨rfl, id, id⟩)
        exact (h.held hc).passLines hr hn p (List.replicate miss l)

theorem OpenIs.fillMembers {r d n num : Nat} (l : List Member) {s : State} (h : OpenIs r d n s) :
    OpenIs r d n (l.foldl (fun s m => Machine.fillMember num r d m.port s) s) := by
  induction l generalizing s with
  | nil => exact h
  | cons m l ih =>
    rw [List.foldl_cons]
    exact ih (h.fillMember num m.port)

/-- The open flag and the slot of a frame of port `r` are given back: no frame is open there. -/
theorem openFrame_filtered (r d : Nat) (s : State) :
    openFrame (modPort r (fun p => { p with opens := p.opens.filter (fun x => x.desc != d) }) s) r d = none := by
  unfold openFrame
  by_cases hr : r < s.ingest.length
  · rw [portOf_modPort_same hr]
    exact List.find?_eq_none.2 fun x hx => by simpa using (List.mem_filter.1 hx).2
  · have hnone : portOf (modPort r (fun p => { p with opens := p.opens.filter (fun x => x.desc != d) }) s) r = ingestInit := by
      unfold portOf modPort
      rw [List.getElem?_eq_none (by rw [length_modAt]; omega)]
      rfl
    rw [hnone]
    rfl

/-- A frame that closes is open no longer, and its record is closed (R116). -/
theorem closeFrame_closes {s : State} {r d : Nat} {f : OpenFrame} (hf : openFrame s r d = some f) (hr : f.port = r) (flags : Nat) :
    openFrame (closeFrame f flags s) r d = none ∧ ∀ x ∈ (closeFrame f flags s).ledger.frames, x.num = f.num → x.closed = true := by
  have hdesc := openFrame_desc hf
  have hs : OpenIs r d f.num s := fun g hg => by
    rw [hf] at hg
    obtain rfl := Option.some.inj hg
    exact ⟨hr, rfl⟩
  unfold closeFrame
  rw [hr, hdesc]
  extract_lets a g b c e u w rows v
  have ha : OpenIs r d f.num a := hs.fillMembers f.members
  have hg : g.port = r ∧ g.num = f.num ∧ g.desc = d := by
    unfold g
    cases ho : openFrame a r d with
    | none => exact ⟨hr, rfl, hdesc⟩
    | some x => exact ⟨(ha x ho).1, (ha x ho).2, openFrame_desc ho⟩
  obtain ⟨hgr, hgn, hgd⟩ := hg
  clear_value g
  subst hgr hgd
  have hopen : openFrame v g.port g.desc = none := openFrame_filtered g.port g.desc e
  have hclosed : ∀ x ∈ v.ledger.frames, x.num = f.num → x.closed = true := fun x hx hn => by
    obtain ⟨y, -, rfl⟩ := List.mem_map.1 hx
    by_cases hy : y.num = g.num
    · rw [if_pos hy]
    · rw [if_neg hy] at hn
      exact absurd (hn.trans hgn.symm) hy
  clear_value v
  have hend : Held v (ledgerShow (spillSettled v)) := .of_ongoing ((Ongoing.spillSettled v).trans (.ledgerShow _))
  exact ⟨hend.none hopen, hend.closed hclosed⟩

/-- A frame without Frame End closes at its time-out (R122). -/
theorem exec_frameTimeout {s : State} {port desc : Fin 4} {f : OpenFrame} (hf : openFrame s port desc = some f) (hp : f.port = port.val)
    (hel : s.elapsedNs f.since (f.timeoutMs * 1000000) = true) :
    ∃ t, exec (.frameTimeout port desc) s = .next t ∧ openFrame t port desc = none ∧
      ∀ x ∈ t.ledger.frames, x.num = f.num → x.closed = true := by
  refine ⟨closeTruncated f s, ?_, closeFrame_closes hf hp _⟩
  show execFrameTimeout port desc s = _
  unfold execFrameTimeout
  rw [hf]
  dsimp only
  rw [if_pos hel]

theorem exec_frameTimeout_early {s : State} {port desc : Fin 4} {f : OpenFrame} (hf : openFrame s port desc = some f)
    (hel : s.elapsedNs f.since (f.timeoutMs * 1000000) = false) : exec (.frameTimeout port desc) s = .next s := by
  show execFrameTimeout port desc s = _
  unfold execFrameTimeout
  rw [hf]
  dsimp only
  rw [if_neg (by simp [hel])]

/-! ### A member that is late -/

theorem openFrame_of_ingest {s t : State} (h : t.ingest = s.ingest) (r d : Nat) : openFrame t r d = openFrame s r d := by
  rw [openFrame, openFrame, portOf, portOf, h]

/-- An open frame that is changed, by its port and descriptor. -/
theorem openFrame_setOpen_same {s : State} {r d : Nat} {f g : OpenFrame} (hf : openFrame s r d = some f) (hr : g.port = r) (hd : g.desc = d) :
    openFrame (setOpen g s) r d = some g := by
  have hlt : r < s.ingest.length := ingest_lt (fun h => by
    rw [openFrame, h] at hf
    exact nomatch hf)
  subst hr
  unfold openFrame setOpen
  rw [portOf_modPort_same hlt]
  dsimp only
  rw [List.find?_map, show ((fun x : OpenFrame => x.desc == d) ∘ fun x => if x.desc = g.desc then g else x) = fun x => x.desc == d by
    funext x
    by_cases hx : x.desc = g.desc
    · simp [hx, hd]
    · simp [hx]]
  unfold openFrame at hf
  rw [hf, Option.map_some, if_pos ((openFrame_desc (s := s) (r := g.port) hf).trans hd.symm)]

/-- The lines of a member join its frame (R120). -/
theorem openFrame_passLines {s : State} {f g : OpenFrame} (hg : openFrame s f.port f.desc = some g) (p : Nat) (ls : List Line) :
    openFrame (passLines f p ls s) f.port f.desc = some (f.modMember p (fun m => { m with lines := m.lines ++ ls })) := by
  unfold passLines
  extract_lets k old u f' v
  have hu : Calm s u := .foldl _ _ (fun _ s => .writeSlot ..) s
  have hv : openFrame v f.port f.desc = some f' :=
    openFrame_setOpen_same (s := u) ((openFrame_of_ingest hu.ingest f.port f.desc).trans hg) rfl rfl
  have hc : Calm v (cellLines f' v) := .decideRows ..
  exact (openFrame_of_ingest hc.ingest f.port f.desc).trans hv

/-- A member's share is filled where it is short (R115, R122). -/
theorem openFrame_fillMember {s : State} {f : OpenFrame} {r d p : Nat} {m : Member} (hf : openFrame s r d = some f) (hr : f.port = r)
    (hm : f.members.find? (fun m => m.port == p) = some m) : ∃ l, openFrame (fillMember f.num r d p s) r d =
      some (f.modMember p (fun x => { x with lines := x.lines ++ List.replicate (f.memberLines - m.lines.length) l })) := by
  refine ⟨fillLine (dtWidth f.d.dt) f.lineWidth f.fill [], ?_⟩
  unfold fillMember
  rw [hf]
  dsimp only
  rw [if_neg (by simp), hm]
  dsimp only
  have hd := openFrame_desc hf
  subst hr hd
  exact openFrame_passLines (s := frameCount f.num 5 _ s) hf _ _

theorem memberLines_modMember (f : OpenFrame) (p : Nat) (g : Member → Member) : (f.modMember p g).memberLines = f.memberLines := by
  unfold OpenFrame.memberLines OpenFrame.modMember
  rw [List.length_map]

theorem find_modMember {f : OpenFrame} {p : Nat} {m : Member} (hm : f.members.find? (fun m => m.port == p) = some m) {g : Member → Member}
    (hg : ∀ x, (g x).port = x.port) : (f.modMember p g).members.find? (fun m => m.port == p) = some (g m) := by
  have hport : m.port = p := by simpa using List.find?_some hm
  unfold OpenFrame.modMember
  dsimp only
  rw [List.find?_map, show ((fun m : Member => m.port == p) ∘ fun m => if m.port = p then g m else m) = fun m => m.port == p by
    funext x
    by_cases hx : x.port = p
    · simp [hx, hg]
    · simp [hx], hm, Option.map_some, if_pos hport]

theorem mem_modMember {f : OpenFrame} {p : Nat} {n : Member} (hn : n ∈ f.members) (hp : n.port ≠ p) (g : Member → Member) :
    n ∈ (f.modMember p g).members := List.mem_map.2 ⟨n, hn, if_neg hp⟩

/-- A member that missed the skew window is late, its share filled, while another member goes on (R115). -/
theorem gangLate_fills {s : State} {r d p : Nat} {f : OpenFrame} {m : Member} (hf : openFrame s r d = some f) (hr : f.port = r)
    (hm : f.members.find? (fun m => m.port == p) = some m) (hother : ∃ n ∈ f.members, n.port ≠ p ∧ n.ended = false ∧ n.late = false) :
    ∃ g, openFrame (gangLate r p f s) r d = some g ∧ ∃ n ∈ g.members, n.port = p ∧ n.late = true ∧ f.memberLines ≤ n.lines.length := by
  obtain ⟨n, hn, hnp, hne, hnl⟩ := hother
  have hd := openFrame_desc hf
  obtain ⟨f', hf'⟩ : ∃ f', f' = f.modMember p (fun m => { m with late := true }) := ⟨_, rfl⟩
  obtain ⟨u, hu⟩ : ∃ u, u = countIngest p f.d.vc 13 s := ⟨_, rfl⟩
  have hui : u.ingest = s.ingest := by
    obtain ⟨x, c, l, h, -⟩ := postEvent_frame (e := { cls := ingestClass 13, block := 3, cause := 0x100 + 13, inst := p, detail := f.d.vc })
      (ingestClass_recoverable 13) ((s.addFld (INGEST_CNT.COUNT p (16 * f.d.vc + 13)) 1).orBit (INGEST_EVENT.TYPE p) 13)
    rw [hu, countIngest, h]
    rfl
  have hopen : openFrame (setOpen f' u) r d = some f' :=
    openFrame_setOpen_same ((openFrame_of_ingest hui r d).trans hf) (by rw [hf']; exact hr) (by rw [hf']; exact hd)
  have hm' : f'.members.find? (fun m => m.port == p) = some { m with late := true } := hf' ▸ find_modMember hm fun _ => rfl
  obtain ⟨l, hfill⟩ := openFrame_fillMember hopen (by rw [hf']; exact hr) hm'
  obtain ⟨g, hg⟩ : ∃ g, g = f'.modMember p (fun x =>
      { x with lines := x.lines ++ List.replicate (f'.memberLines - m.lines.length) l }) := ⟨_, rfl⟩
  have hgopen : openFrame (fillMember f'.num r d p (setOpen f' u)) r d = some g := hg ▸ hfill
  have hng : n ∈ g.members := by
    rw [hg, hf']
    exact mem_modMember (mem_modMember hn hnp _) hnp _
  have hlate : gangLate r p f s = fillMember f'.num r d p (setOpen f' u) := by
    unfold gangLate
    dsimp only
    rw [← hu, ← hf', show f'.desc = d by rw [hf']; exact hd, hgopen]
    dsimp only
    rw [if_neg]
    simp only [List.all_eq_true, not_forall]
    exact ⟨n, hng, by simp [hne, hnl]⟩
  rw [hlate]
  have hgm : g.members.find? (fun m => m.port == p) = some { m with
      late := true, lines := m.lines ++ List.replicate (f'.memberLines - m.lines.length) l } := hg ▸ find_modMember hm' fun _ => rfl
  refine ⟨g, hgopen, _, List.mem_of_find?_eq_some hgm, by simpa using List.find?_some hgm, rfl, ?_⟩
  have hlines : f'.memberLines = f.memberLines := hf' ▸ memberLines_modMember ..
  dsimp only
  rw [List.length_append, List.length_replicate, hlines]
  omega

/-- The only port of four for which something holds is found. -/
theorem find_range {q : Nat → Bool} (r : Fin 4) (hr : q r.val = true) (hq : ∀ p : Fin 4, p ≠ r → q p.val = false) :
    (List.range 4).find? q = some r.val := by
  have h4 : List.range 4 = (List.finRange 4).map Fin.val := rfl
  rw [h4, List.find?_map, show q ∘ Fin.val = fun p : Fin 4 => decide (p = r) by
    funext p
    by_cases hp : p = r
    · simp [hp, hr]
    · simp [hp, hq p hp]]
  clear hr hq
  revert r
  decide

/-- The skew window of a group frame ends without a member's Frame Start (R115). -/
theorem exec_gangSkewTimeout {s : State} {port desc r : Fin 4} {f : OpenFrame} {m : Member} (hf : openFrame s r desc = some f)
    (hr : f.port = r.val) (honly : ∀ q : Fin 4, q ≠ r → openFrame s q desc = none)
    (hm : f.members.find? (fun m => m.port == port.val) = some m) (hstarted : m.started = false) (hnlate : m.late = false)
    (hel : s.elapsedNs f.since (f.skewUs * 1000) = true)
    (hother : ∃ n ∈ f.members, n.port ≠ port.val ∧ n.ended = false ∧ n.late = false) :
    ∃ t g, exec (.gangSkewTimeout port desc) s = .next t ∧ openFrame t r desc = some g ∧
      ∃ n ∈ g.members, n.port = port.val ∧ n.late = true ∧ f.memberLines ≤ n.lines.length := by
  obtain ⟨g, hg, hn⟩ := gangLate_fills hf hr hm hother
  have hmem := List.mem_of_find?_eq_some hm
  have hport : m.port = port.val := by simpa using List.find?_some hm
  have href : (List.range 4).find? (fun r => (openFrame s r desc.val).any (fun f =>
      f.members.any (fun m => m.port == port.val && !m.started))) = some r.val := by
    refine find_range r ?_ fun q hq => ?_
    · rw [hf]
      exact List.any_eq_true.2 ⟨m, hmem, by simp [hport, hstarted]⟩
    · rw [honly q hq]
      rfl
  refine ⟨_, g, ?_, hg, hn⟩
  show execGangSkewTimeout port desc s = _
  unfold execGangSkewTimeout
  dsimp only
  rw [href, Option.getD_some, hf]
  dsimp only
  rw [if_pos (List.any_eq_true.2 ⟨m, hmem, by simp [hport, skewOver, hstarted, hnlate, hel]⟩)]

/-- Settles O29, a lemma for each clause. -/
theorem packetsIgnoredCountedOrTimedOut : Obligations.PacketsIgnoredCountedOrTimedOut := by
  unfold Obligations.PacketsIgnoredCountedOrTimedOut
  refine ⟨fun s port vc d sd f h1 h2 h3 h4 h5 => ⟨_, exec_lineStartEnd h1 h2 h3 h4 h5, packetSeen_shows port s⟩,
    fun s port vc h => ⟨_, exec_nullBlanking vc h, packetSeen_shows port s⟩,
    fun s port vc dt h1 h2 h3 => ⟨_, exec_dtUnsel dt h1 h2 h3, countIngest_packetSeen port vc (by decide) s⟩,
    fun s port vc d sd h1 h2 h3 h4 => ⟨_, exec_orphan h1 h2 h3 h4, countIngest_packetSeen port vc (by decide) s⟩,
    fun s port vc h => ?_, fun s port desc f h1 h2 h3 => exec_frameTimeout h1 h2 h3,
    fun s port desc f h1 h2 => exec_frameTimeout_early h1 h2,
    fun s port desc r f m h1 h2 h3 h4 h5 h6 h7 h8 => exec_gangSkewTimeout h1 h2 h3 h4 h5 h6 h7 h8,
    fun s port enter h => exec_laneUlps enter h, fun s port h => exec_ingestCounterClear h⟩
  obtain ⟨t, hexec, hregs⟩ := exec_eccUncorr vc h
  obtain ⟨hcount, htype, hbut⟩ := countIngest_packetSeen port vc (t := 1) (by decide) s
  exact ⟨t, hexec, (State.fld_congr hregs _).trans hcount, (congrArg (Nat.testBit · 1) (State.fld_congr hregs _)).trans htype,
    fun a ha => (State.word_congr hregs a).trans (hbut a ha)⟩

end Sys2Proof.Machine
end

section
/-! PROOFS. Commits prepare and arm (R44, R68, R71). -/

namespace Sys2Proof.Machine

/-! ### The domains of a mode are switched on -/

namespace PastDawn

variable {s t u : State}

theorem postEvent (e : Event) (s : State) : PastDawn s (postEvent e s) := postEvent_pastDawn e s

theorem postFlag (f : Fld) (n : Nat) (cls : EventClass) (block inst detail : Nat) (s : State) (hf : misses f = true) :
    PastDawn s (postFlag f n cls block inst detail s) := .after (.postEvent ..) (.setFld _ _ _ hf)

theorem ingestShow (s : State) {p : Nat} (hp : p < 4) : PastDawn s (ingestShow s p) := by
  have hm : ∀ p < 4, misses (INGEST_STATUS.BAD_CFG p) = true ∧ misses (INGEST_STATUS.GANG_ACTIVE p) = true := by decide
  unfold Machine.ingestShow
  exact .ite (fun _ => .after (.setFlag _ _ _ (hm p hp).2) (.setFlag _ _ _ (hm p hp).1)) fun _ => .refl s

theorem resizeBufs (s : State) (p : Nat) : PastDawn s (resizeBufs s p) := by
  unfold Machine.resizeBufs
  exact .ite (fun _ => .refl s) fun _ => .of_eq rfl

theorem pipeConfig (s : State) : PastDawn s (pipeConfig s) := by
  unfold Machine.pipeConfig
  refine .ite (fun _ => .after (showFree_pastDawn _) (.foldl _ _ (fun p _ s => ?_) s)) fun _ => .refl s
  have h : PastDawn s (modPipePort p (fun x => { x with headOk := headsNow s p }) s) := .of_eq rfl
  exact h.trans (.resizeBufs ..)

theorem beginSegment (first : Nat) (s : State) : PastDawn s (beginSegment first s) := by
  have h : PastDawn s ((s.setFld HASH_SEGMENT.SEGMENT (s.hash.segment + 1)).setFlag HASH_STATUS.SEG_ACTIVE true) :=
    .after (.setFlag _ _ _ (by decide)) (.setFld _ _ _ (by decide))
  exact h.trans (.of_eq rfl)

theorem setPrin (b : Bool) (s : State) : PastDawn s (setPrin b s) := by
  unfold Machine.setPrin
  extract_lets u pin w v
  have hu : PastDawn s u := .setFlag _ _ _ (by decide)
  have hv : PastDawn u v := .ite (fun _ => .of_eq rfl) fun _ => .refl u
  exact (hu.trans hv).trans (.of_eq rfl)

theorem unform (s : State) : PastDawn s (unform s) :=
  .after (Ongoing.spillSettled _).pastDawn (.after (.setFld _ _ _ (by decide)) (.setFlag _ _ _ (by decide)))

theorem pairRoles (s : State) : PastDawn s (pairRoles s) := by
  unfold Machine.pairRoles
  extract_lets fresh k u v
  have hu : PastDawn s u := .of_eq rfl
  have hv : PastDawn u v := .ite (fun _ => .unform u) fun _ => .refl u
  exact (hu.trans hv).trans (.ite (fun _ => .setPrin ..) fun _ => .ite (fun _ => .setPrin ..) fun _ => .setPrin ..)

theorem netEvent {p : Nat} (hp : p < 2) (n : Nat) (cls : EventClass) (s : State) : PastDawn s (netEvent p n cls s) := by
  have hm : ∀ p < 2, misses (NET_EVENT.EVENT p) = true := by decide
  exact .postFlag _ _ _ _ _ _ _ (hm p hp)

theorem netDown {p : Nat} (hp : p < 2) (s : State) : PastDawn s (netDown p s) := by
  have hm : ∀ p < 2, misses (NET_STATUS.LINK p) = true := by decide
  unfold Machine.netDown
  exact .ite (fun _ => .after (.netEvent hp ..) (.setFlag _ _ _ (hm p hp))) fun _ => .refl s

theorem holdover (cause : Nat) (s : State) : PastDawn s (holdover cause s) := by
  unfold Machine.holdover
  exact .ite (fun _ => .refl s) fun _ => .after (.postFlag TIME_EVENT.EVENT _ _ _ _ _ _ (by decide))
    (.after (.setFld _ _ _ (by decide)) (.setFlag _ _ _ (by decide)))

theorem netLost {p : Nat} (hp : p < 2) (s : State) : PastDawn s (netLost p s) := by
  unfold Machine.netLost
  exact .ite (fun _ => .refl s) fun _ => .ite (fun _ => .after (.holdover ..) (.netDown hp s)) fun _ => .netDown hp s

theorem misses_lane : ∀ l < 26, misses (LANE_STATUS.RATE l) = true ∧ misses (LANE_STATUS.LOCK l) = true ∧
    misses (LANE_STATUS.TABLE l) = true ∧ misses (LANE_STATUS.EQ_LOW l) = true ∧ misses (LANE_STATUS.FROZEN l) = true ∧
    misses (LANE_STATUS.TX_SLEEP l) = true ∧ misses (LANE_STATUS.RX_SLEEP l) = true ∧ misses (LANE_STATUS.RETIRED l) = true := by
  decide +kernel

theorem laneStop {l : Nat} (hl : l < 26) (s : State) : PastDawn s (laneStop l s) := by
  obtain ⟨h1, h2, h3, h4, h5, h6, h7, -⟩ := misses_lane l hl
  exact .after (.setFlag _ _ _ h7) <| .after (.setFlag _ _ _ h6) <| .after (.setFlag _ _ _ h5) <| .after (.setFlag _ _ _ h4) <|
    .after (.setFlag _ _ _ h3) <| .after (.setFlag _ _ _ h2) <| .after (.setFld _ _ _ h1) (.of_eq rfl)

theorem laneShow {l : Nat} (hl : l < 26) (s : State) : PastDawn s (laneShow l s) := by
  have hm : ∀ l < 26, misses (LANE_EQ.TX_PRE l) = true ∧ misses (LANE_EQ.TX_MAIN l) = true ∧ misses (LANE_EQ.TX_POST l) = true ∧
    misses (LANE_EQ.CTLE l) = true ∧ misses (LANE_DFE.TAPS l) = true := by decide +kernel
  obtain ⟨h1, h2, h3, h4, h5⟩ := hm l hl
  exact .after (.setFld _ _ _ h5) <| .after (.setFld _ _ _ h4) <| .after (.setFld _ _ _ h3) <| .after (.setFld _ _ _ h2) (.setFld _ _ _ h1)

theorem laneStart {l : Nat} (hl : l < 26) (rate : Nat) (s : State) : PastDawn s (laneStart l rate s) := by
  obtain ⟨h1, h2, h3, -, -, h6, h7, h8⟩ := misses_lane l hl
  unfold Machine.laneStart
  extract_lets x u v w
  have hu : PastDawn s u := .of_eq rfl
  have hv : PastDawn u v := .after (.setFlag _ _ _ h3) (.setFld _ _ _ h1)
  have hw : PastDawn v w := .after (.setFlag _ _ _ h8) (.setFlag _ _ _ h2)
  exact ((hu.trans hv).trans hw).trans (.after (.laneShow hl _) (.after (.setFlag _ _ _ h7) (.setFlag _ _ _ h6)))

theorem netTrain {p : Nat} (hp : p < 2) (s : State) : PastDawn s (netTrain p s) := by
  have hm : ∀ p < 2, misses (NET_STATUS.SPEED p) = true ∧ misses (NET_STATUS.FEC p) = true ∧ ethLane p < 26 := by decide
  obtain ⟨h1, h2, h3⟩ := hm p hp
  exact .after (.laneStart h3 ..) (.after (.setFlag _ _ _ h2) (.setFld _ _ _ h1))

theorem netFollow {p : Nat} (hp : p < 2) (s : State) : PastDawn s (netFollow p s) := by
  have hl : ethLane p < 26 := by
    unfold ethLane
    omega
  unfold Machine.netFollow
  refine .ite (fun _ => .ite (fun _ => .after (.laneStop hl _) (.netLost hp s)) fun _ => .refl s) fun _ =>
    .ite (fun _ => .netTrain hp s) fun _ => ?_
  dsimp only
  exact .ite (fun _ => .refl s) fun _ => .after (.netTrain hp _) (.netLost hp s)

theorem netStreamsCuePoint (s : State) : PastDawn s (netStreamsCuePoint s) := by
  refine .foldl _ _ (fun k hk s => ?_) s
  extract_lets old cfg r x named bad u
  have hu : PastDawn s u := .of_eq rfl
  have hx : x.eth < 2 := Nat.mod_lt _ (by decide)
  exact hu.trans (.ite (fun _ => .netEvent hx ..) fun _ => .refl u)

theorem netCuePoint (s : State) : PastDawn s (netCuePoint s) := by
  unfold Machine.netCuePoint
  exact .after (.ite (fun _ => .refl _) fun _ => .after (.netFollow (by decide) _) (.netFollow (by decide) _)) (.netStreamsCuePoint s)

theorem poolShow (s : State) : PastDawn s (poolShow s) := .after (.setFld _ _ _ (by decide)) (.setFld _ _ _ (by decide))

theorem viewUp (s : State) : PastDawn s (viewUp s) := by
  unfold Machine.viewUp poolLayOut
  have h : ∀ p, PastDawn s (Machine.poolShow (setPool p (setView viewInit s))) := fun p =>
    PastDawn.trans (t := setPool p (setView viewInit s)) (.of_eq rfl) (.poolShow _)
  extract_lets n kb base
  exact .ite (fun _ => h _) fun _ => .ite (fun _ => .after (.postFlag VIEW_EVENT.EVENT _ _ _ _ _ _ (by decide)) (h _)) fun _ => h _

theorem motionClear {c : Nat} (hc : c < 4) (s : State) : PastDawn s (motionClear c s) := by
  have hm : ∀ c < 4, misses (MOTION_POS.POS c) = true ∧ misses (MOTION_SPEED.SPEED c) = true ∧ misses (MOTION_STATUS.VALID c) = true ∧
    misses (MOTION_STATUS.DIR c) = true ∧ misses (MOTION_STATUS.STANDSTILL c) = true ∧ misses (MOTION_STATUS.REVERSED c) = true ∧
    misses (MOTION_STATUS.STALL c) = true ∧ misses (MOTION_STATUS.HOMED c) = true ∧ misses (MOTION_STATUS.COUNT_MODE c) = true := by
    decide +kernel
  obtain ⟨h1, h2, h3, h4, h5, h6, h7, h8, h9⟩ := hm c hc
  exact .after (.setFlag _ _ _ h9) <| .after (.setFlag _ _ _ h8) <| .after (.setFlag _ _ _ h7) <| .after (.setFlag _ _ _ h6) <|
    .after (.setFlag _ _ _ h5) <| .after (.setFlag _ _ _ h4) <| .after (.setFlag _ _ _ h3) <| .after (.setFld _ _ _ h2) (.setFld _ _ _ h1)

theorem chanCuePoint {c : Nat} (hc : c < 4) (s : State) : PastDawn s (chanCuePoint c s) := by
  have hm : ∀ c < 4, misses (MOTION_STATUS.COUNT_MODE c) = true := by decide
  have hmod : ∀ (g : MotionChan → MotionChan) (s : State), PastDawn s (modChan c g s) := fun _ _ => .of_eq rfl
  unfold Machine.chanCuePoint
  extract_lets en x hall
  exact .ite (fun _ => .after (.motionClear hc _) (hmod ..)) fun _ => .ite (fun _ => .refl s) fun _ =>
    .ite (fun _ => .setFlag _ _ _ (hm c hc)) fun _ => .ite (fun _ => .after (hmod ..) (.setFlag _ _ _ (hm c hc))) fun _ => .refl s

theorem motionOn (s : State) : PastDawn s (rebaseTerms (motionCuePoint false (motionUp s))) := by
  have hm : ∀ c < 4, misses (MOTION_STATUS.KIND c) = true ∧ misses (MOTION_STATUS.BAD_REC c) = true := by decide
  have hup : PastDawn s (motionUp s) := by
    unfold motionUp
    extract_lets m u
    have h : PastDawn s u := .of_eq rfl
    exact h.trans (.foldl _ _ (fun c hc s => .after (.setFlag _ _ _ (hm c (List.mem_range.1 hc)).2)
      (.setFld _ _ _ (hm c (List.mem_range.1 hc)).1)) _)
  have hcue : PastDawn (motionUp s) (motionCuePoint false (motionUp s)) := by
    unfold motionCuePoint
    dsimp only
    rw [if_neg (by simp)]
    exact .foldl _ _ (fun c hc s => .chanCuePoint (List.mem_range.1 hc) s) _
  exact (hup.trans hcue).trans (.of_eq rfl)

theorem domainUp (d : Nat) (s : State) : PastDawn s (domainUp d s) := by
  unfold Machine.domainUp
  extract_lets u
  have hu : PastDawn s u := .setFld _ _ _ (by decide)
  refine hu.trans ?_
  refine .ite (fun _ => .of_eq rfl) fun _ => .ite (fun h => .ingestShow u (by omega)) fun _ => .ite (fun _ => .pipeConfig u) fun _ =>
    .ite (fun _ => .beginSegment ..) fun _ => .ite (fun h => .ite (fun _ => ?_) fun _ => .refl u) fun _ =>
    .ite (fun _ => .ite (fun _ => .pairRoles u) fun _ => .refl u) fun _ =>
    .ite (fun _ => .ite (fun _ => .netCuePoint u) fun _ => .refl u) fun _ => .ite (fun _ => .viewUp u) fun _ =>
    .ite (fun _ => .motionOn u) fun _ => .refl u
  have hm : ∀ k < 2, misses (MAG_STATUS.STATE k) = true := by decide
  exact .setFld _ _ _ (hm _ (by omega))

theorem domainsUp (ds : List Nat) (s : State) : PastDawn s (domainsUp ds s) :=
  .foldl _ _ (fun d _ s => .ite (fun _ => .refl s) fun _ => .domainUp d s) s

end PastDawn

/-! ### Commits -/

theorem warnTimeout_inRange {s : State} (h1 : 1 ≤ s.fld CUE_REF_TIMEOUT.MS) (h2 : s.fld CUE_REF_TIMEOUT.MS ≤ 1000) : warnTimeout s = s := by
  unfold warnTimeout
  exact if_neg (by omega)

/-- A commit after the first one, while none is in progress, prepares the pending stack (R68). -/
theorem exec_cueCommit_idle {s : State} (hl : s.cue.locked = true) (hi : s.cue.commit = .idle) (h1 : 1 ≤ s.fld CUE_REF_TIMEOUT.MS)
    (h2 : s.fld CUE_REF_TIMEOUT.MS ≤ 1000) : ∃ t, exec .cueCommit s = .next t ∧
      t.cue.commit = .preparing { buildImage s s.cue.pending with enters := none } ∧
      t.cue.pending = s.cue.pending ∧ t.cue.active = s.cue.active ∧ OnlyRegs { s with cue := t.cue } t [] := by
  obtain ⟨x, hx⟩ : ∃ x : CommitImage, x = { buildImage s s.cue.pending with enters := none } := ⟨_, rfl⟩
  obtain ⟨u, hu⟩ : ∃ u, u = busOk 0 s := ⟨_, rfl⟩
  have hcue : u.cue = s.cue := hu ▸ rfl
  have hexec : exec .cueCommit s = .next { u with cue := { u.cue with commit := .preparing x } } := by
    have hb : (busOk 0 s).cue = s.cue := rfl
    show Host.Outcome.next (acceptCommit (busOk 0 s)) = _
    rw [acceptCommit, hb, if_neg (by simp [hl])]
    simp only [hl, if_true]
    rw [if_pos (by rw [hb]; exact hi), ← hu, warnTimeout_inRange (hu ▸ h1) (hu ▸ h2), hx, hi, hu]
    rfl
  refine ⟨_, hexec, by rw [hx], by rw [hcue], by rw [hcue], ?_⟩
  rw [hu]
  exact ⟨rfl, fun _ _ => rfl⟩

/-- A commit while one is in progress merges into it (R68). -/
theorem exec_cueCommit_merges {s : State} (hl : s.cue.locked = true) (hi : s.cue.commit ≠ .idle) (h1 : 1 ≤ s.fld CUE_REF_TIMEOUT.MS)
    (h2 : s.fld CUE_REF_TIMEOUT.MS ≤ 1000) : ∃ t, exec .cueCommit s = .next t ∧
      (∃ img, t.cue.commit = .preparing img ∧ img.stack = s.cue.pending ∧ img.enters = commitEnters s.cue.commit) ∧
      t.fld CUE_COUNT.MERGED = min 65535 (s.fld CUE_COUNT.MERGED + 1) := by
  obtain ⟨u, hu⟩ : ∃ u, u = (busOk 0 s).addFld CUE_COUNT.MERGED 1 := ⟨_, rfl⟩
  have hcue : u.cue = s.cue := hu ▸ rfl
  have hms : u.fld CUE_REF_TIMEOUT.MS = s.fld CUE_REF_TIMEOUT.MS := by
    rw [hu]
    exact State.fld_setFld_apart (busOk 0 s) CUE_REF_TIMEOUT.MS CUE_COUNT.MERGED _ (by decide) (by decide)
  obtain ⟨x, hx⟩ : ∃ x : CommitImage, x = { buildImage u u.cue.pending with enters := commitEnters s.cue.commit } := ⟨_, rfl⟩
  have hexec : exec .cueCommit s = .next { u with cue := { u.cue with commit := .preparing x } } := by
    have hb : (busOk 0 s).cue = s.cue := rfl
    show Host.Outcome.next (acceptCommit (busOk 0 s)) = _
    rw [acceptCommit, hb, if_neg (by simp [hl])]
    simp only [hl, if_true]
    rw [if_neg (by rw [hb]; exact hi), ← hu, warnTimeout_inRange (hms ▸ h1) (hms ▸ h2), hx]
  refine ⟨_, hexec, ⟨x, rfl, by rw [hx]; exact congrArg CueState.pending hcue, by rw [hx]⟩, ?_⟩
  show u.fld CUE_COUNT.MERGED = _
  rw [hu]
  exact State.fld_addFld_same (busOk 0 s) CUE_COUNT.MERGED 1 (by decide)

/-- An armed commit: its image waits for a reference; beside the warning of R70 no register changes. -/
theorem armCommit_arms (img : CommitImage) (s : State) : (armCommit img s).cue.commit = .armed img s.ticks false ∧
    ∀ f : Fld, f.addr ≠ CALL_OVERFLOW.COUNT.addr → (armCommit img s).fld f = s.fld f := by
  unfold armCommit
  extract_lets c u
  split
  · obtain ⟨r, cl, l, h, hr⟩ := postEvent_frame (e := { cls := .warning, block := 1, cause := 0x200 + 3, inst := 0xFF, detail := CUE_CTRL.REFSRC.addr })
      nofun u
    rw [postActsAs, postKind, h]
    exact ⟨rfl, fun f hf => State.fld_congr_word (t := { u with regs := r, call := cl, ledger := l }) (hr f.addr hf)⟩
  · exact ⟨rfl, fun _ _ => rfl⟩

/-- An image that passes the admission check is armed (R51, R71). -/
theorem exec_commitArmed_admitted {s : State} {img : CommitImage} (hc : s.cue.commit = .preparing img) (hb : bankBusy s img = false)
    (h2 : 2 ≤ s.mode) (h5 : s.mode ≤ 5) (ha : (admitImage img s.mode s).1 = true) :
    ∃ t, exec .commitArmed s = .next t ∧ ∃ d, t.cue.commit = .armed { img with passed := true } d false := by
  by_cases hp : img.passed = true
  · refine ⟨armCommit img s, ?_, s.ticks, ?_⟩
    · show execCommitArmed s = _
      unfold execCommitArmed
      simp only [hc, hb, hp, Bool.false_eq_true, if_false, if_true]
    · rw [(armCommit_arms img s).1, show img = { img with passed := true } by rw [← hp]]
  · refine ⟨armCommit { img with passed := true } (admitImage img s.mode s).2, ?_, _, (armCommit_arms ..).1⟩
    show execCommitArmed s = _
    unfold execCommitArmed
    simp only [hc, hb, hp, Bool.false_eq_true, if_false]
    rw [if_neg (by omega), if_pos ⟨h2, h5⟩, ha, if_pos rfl]

/-- An image that does not is discarded (R51, R71). -/
theorem exec_commitArmed_refused {s : State} {img : CommitImage} (hc : s.cue.commit = .preparing img) (hb : bankBusy s img = false)
    (h2 : 2 ≤ s.mode) (h5 : s.mode ≤ 5) (hp : img.passed = false) (ha : (admitImage img s.mode s).1 = false) :
    ∃ t, exec .commitArmed s = .next t ∧ t.cue.commit = .idle ∧ t.cue.pending = t.cue.active := by
  obtain ⟨u, hu⟩ : ∃ u, u = (admitImage img s.mode s).2 := ⟨_, rfl⟩
  refine ⟨setCue { u.cue with commit := .idle, pending := u.cue.active } u, ?_, rfl, rfl⟩
  show execCommitArmed s = _
  unfold execCommitArmed
  simp only [hc, hb, hp, Bool.false_eq_true, if_false]
  rw [if_neg (by omega), if_pos ⟨h2, h5⟩, ha, if_neg (by decide), hu]

/-! ### The first commit -/

theorem raisedRails_kept (up : List RailRec) (s : State) : (up.foldl (fun s r => s.orBit POWER_RAIL.EN r.rail) s).cue = s.cue ∧
    (up.foldl (fun s r => s.orBit POWER_RAIL.EN r.rail) s).mode = s.mode := by
  induction up generalizing s with
  | nil => exact ⟨rfl, rfl⟩
  | cons r up ih =>
    rw [List.foldl_cons]
    obtain ⟨hc, hm⟩ := ih (s.orBit POWER_RAIL.EN r.rail)
    exact ⟨hc, hm.trans (State.fld_setFld_apart s CUE_STATUS.MODE POWER_RAIL.EN _ (by decide) (by decide))⟩

/-- What a mode's rails need (R533): the cue state and the mode stay; rails that are not up are rising. -/
theorem railsReady_shows (ds : List Nat) (s : State) : (railsReady ds s).2.cue = s.cue ∧ (railsReady ds s).2.mode = s.mode ∧
    ((railsReady ds s).1 = false → (railsReady ds s).2.power.rise.isSome = true) := by
  unfold railsReady
  extract_lets up waiting
  split
  · exact ⟨(raisedRails_kept up s).1, (raisedRails_kept up s).2, fun _ => rfl⟩
  · have hwait : waiting = s.power.rise.filter (fun r => !r.ports) := rfl
    clear_value waiting
    split
    next r =>
      split
      · exact ⟨rfl, rfl, nofun⟩
      · refine ⟨rfl, rfl, fun _ => ?_⟩
        show s.power.rise.isSome = true
        cases hrise : s.power.rise with
        | none =>
          rw [hrise] at hwait
          exact nomatch hwait
        | some _ => rfl
    · exact ⟨rfl, rfl, nofun⟩

/-- The admission check leaves the mode. -/
theorem admitImage_mode (img : CommitImage) (m : Nat) (s : State) : (admitImage img m s).2.mode = s.mode := by
  have hset : ∀ (n : Nat) (b : Bool), ((s.setFld DRAM_DEMAND.MBS n).setFlag DRAM_DEMAND.FAIL b).mode = s.mode := fun n b =>
    (State.fld_setFld_apart _ CUE_STATUS.MODE DRAM_DEMAND.FAIL _ (by decide) (by decide)).trans
      (State.fld_setFld_apart s CUE_STATUS.MODE DRAM_DEMAND.MBS n (by decide) (by decide))
  unfold admitImage admission
  extract_lets sum demand limit ok u
  split
  · exact hset ..
  · exact (State.fld_congr_word (f := CUE_STATUS.MODE) (postFlag_word (f := DRAM_EVENT.ADMIT_REFUSED) (cls := .warning) (by decide) _ _ _ _ u
      (by decide) (by decide))).trans (hset ..)

/-- A mode is entered: the device is in it, whatever its blocks do as their domains switch (R44). -/
theorem enterMode_mode (mask : Nat) (held : Bool) {s : State} (hs : s.mode ≠ 7) : (enterMode 2 mask held s).mode = 2 := by
  unfold enterMode
  extract_lets old a ds b c d p e f g w
  have hc : c.mode = 2 := (State.fld_setFld_apart _ CUE_STATUS.MODE CUE_STATUS.PORTS_HELD _ (by decide) (by decide)).trans
    (State.fld_setFld_same b CUE_STATUS.MODE 2 (by decide))
  have hrails : PastDawn c (setRails ds c) := .after (.setFld _ _ _ (by decide)) (.setFld _ _ _ (by decide))
  have hd : PastDawn c d := hrails.trans (.domainsUp ..)
  have hf : f.mode = 2 := (State.fld_setFld_apart e CUE_STATUS.MODE DRAM_STATUS.SR _ (by decide) (by decide)).trans
    ((hd.kept (by omega)).1.trans hc)
  rw [if_neg (by decide), if_neg (show ¬old = 7 from hs)]
  show (if 2 = 7 then _ else f).mode = 2
  rw [if_neg (by decide), hf]

theorem recordXfer_shows (src dst start : Nat) (s : State) (hsrc : src < 2 ^ POWER_XFER.FROM.width) (hdst : dst < 2 ^ POWER_XFER.TO.width) :
    (recordXfer src dst start s).mode = s.mode ∧ (recordXfer src dst start s).fld POWER_XFER.FROM = src ∧
    (recordXfer src dst start s).fld POWER_XFER.TO = dst ∧ (recordXfer src dst start s).flag POWER_EVENT.XFER_DONE = true := by
  unfold recordXfer
  extract_lets us u
  have hkept : ∀ g : Fld, POWER_EVENT.XFER_DONE.fits = true → g.apart POWER_EVENT.XFER_DONE = true →
      (u.setFlag POWER_EVENT.XFER_DONE true).fld g = u.fld g := fun g h1 h2 => State.fld_setFld_apart u g POWER_EVENT.XFER_DONE _ h1 h2
  refine ⟨(hkept _ (by decide) (by decide)).trans ?_, (hkept _ (by decide) (by decide)).trans ?_,
    (hkept _ (by decide) (by decide)).trans ?_, State.flag_setFlag_same u POWER_EVENT.XFER_DONE true (by decide) (by decide)⟩
  · simp (disch := decide) only [u, State.mode, State.fld_setFld_apart]
  · simp (disch := decide) only [u, State.fld_setFld_apart]
    rw [State.fld_setFld_same s POWER_XFER.FROM src (by decide)]
    exact Nat.mod_eq_of_lt hsrc
  · simp (disch := decide) only [u, State.fld_setFld_apart]
    rw [State.fld_setFld_same _ POWER_XFER.TO dst (by decide)]
    exact Nat.mod_eq_of_lt hdst

theorem refuseMode_mode (req check : Nat) (s : State) : (refuseMode req check s).mode = s.mode := by
  unfold refuseMode postKind State.mode
  exact State.fld_postEvent (f := CUE_STATUS.MODE) (e := { cls := .warning, block := 1, cause := 0x200 + 6, inst := 0xFF
                                                           detail := req + 256 * s.mode + 65536 * check }) nofun s (by decide)

/-- The first commit enters Rehearsal once its rails are up (R44, R533). -/
theorem armFirst_enters {s : State} {img : CommitImage} (h1 : s.mode = 1)
    (hr : (railsReady (wantedDomains 2 (maskOf s img.stack.modeCue) false) s).1 = true) :
    (armFirst img s).mode = 2 ∧ (armFirst img s).fld POWER_XFER.FROM = 1 ∧ (armFirst img s).fld POWER_XFER.TO = 2 ∧
      (armFirst img s).flag POWER_EVENT.XFER_DONE = true := by
  obtain ⟨mask, hmask⟩ : ∃ mask, mask = maskOf s img.stack.modeCue := ⟨_, rfl⟩
  rw [← hmask] at hr
  obtain ⟨u, hu⟩ : ∃ u, u = (railsReady (wantedDomains 2 mask false) s).2 := ⟨_, rfl⟩
  obtain ⟨ok, hok⟩ : ∃ ok, ok = (admitImage img 2 u).1 := ⟨_, rfl⟩
  obtain ⟨v, hv⟩ : ∃ v, v = (if ok then (admitImage img 2 u).2 else refuseMode 2 2 (admitImage img 2 u).2) := ⟨_, rfl⟩
  have hum : u.mode = 1 := by rw [hu, (railsReady_shows _ s).2.1, h1]
  have hvm : v.mode = 1 := by
    have ha := (admitImage_mode img 2 u).trans hum
    rw [hv]
    split
    · exact ha
    · exact (refuseMode_mode 2 2 _).trans ha
  have heq : armFirst img s = armCommit { img with passed := ok } (recordXfer 1 2 v.power.releasedAt (enterMode 2 mask (!ok) v)) := by
    unfold armFirst
    rw [← hmask]
    dsimp only
    rw [hr, ← hu, if_neg (by decide), ← hok, ← hv]
  obtain ⟨-, hkept⟩ := armCommit_arms { img with passed := ok } (recordXfer 1 2 v.power.releasedAt (enterMode 2 mask (!ok) v))
  obtain ⟨hm, hfrom, hto, hdone⟩ := recordXfer_shows 1 2 v.power.releasedAt (enterMode 2 mask (!ok) v) (by decide) (by decide)
  rw [← heq] at hkept
  refine ⟨(hkept CUE_STATUS.MODE (by decide)).trans (hm.trans (enterMode_mode mask (!ok) (by omega))),
    (hkept POWER_XFER.FROM (by decide)).trans hfrom, (hkept POWER_XFER.TO (by decide)).trans hto, ?_⟩
  rw [State.flag, hkept POWER_EVENT.XFER_DONE (by decide)]
  exact hdone

theorem exec_commitArmed_first {s : State} {img : CommitImage} (hc : s.cue.commit = .preparing img) (hb : bankBusy s img = false)
    (h1 : s.mode = 1) (hp : img.passed = false) : exec .commitArmed s = .next (armFirst img s) := by
  show execCommitArmed s = _
  unfold execCommitArmed
  simp only [hc, hb, hp, h1, Bool.false_eq_true, if_false, if_true]

/-- Settles O17, a lemma for each clause. -/
theorem commitsPrepareAndArm : Obligations.CommitsPrepareAndArm := by
  unfold Obligations.CommitsPrepareAndArm
  refine ⟨fun s h1 h2 h3 h4 => exec_cueCommit_idle h1 h2 h3 h4, fun s h1 h2 h3 h4 => exec_cueCommit_merges h1 h2 h3 h4,
    fun s img h1 h2 h3 h4 h5 _ => exec_commitArmed_admitted h1 h2 h3 h4 h5, fun s img h1 h2 h3 h4 h5 h6 => exec_commitArmed_refused h1 h2 h3 h4 h5 h6,
    fun s img h1 h2 h3 h4 h5 => ⟨_, exec_commitArmed_first h1 h2 h3 h4, armFirst_enters h3 h5⟩, fun s img h1 h2 h3 h4 h5 => ?_⟩
  obtain ⟨hcue, hmode, hrise⟩ := railsReady_shows (wantedDomains 2 (maskOf s img.stack.modeCue) false) s
  have heq : armFirst img s = (railsReady (wantedDomains 2 (maskOf s img.stack.modeCue) false) s).2 := by
    unfold armFirst
    dsimp only
    rw [h5, if_pos rfl]
  exact ⟨_, exec_commitArmed_first h1 h2 h3 h4, by rw [heq, hmode, h3], by rw [heq, hcue], by rw [heq]; exact hrise h5⟩

end Sys2Proof.Machine
end

section
/-! PROOFS. Device addresses, the DRAM map and its training operations (R372, R389 to R395). -/

namespace Sys2Proof.Machine

/-! ### A fence ends the frames -/

namespace PastDawn

variable {s t u : State}

theorem poolChange (h : Nat) (f : PoolHandle → PoolHandle) (s : State) : PastDawn s (poolChange h f s) := by
  unfold Machine.poolChange
  split
  · exact .refl s
  · extract_lets y freed y' ps u
    have hu : PastDawn s u := .of_eq rfl
    have hv : PastDawn u (if freed then creditReturn 9 1 u else u) := .ite (fun _ => .of_eq rfl) fun _ => .refl u
    exact (hu.trans hv).trans (.poolShow _)

theorem viewTakeOne (o : HeadOut) (s : State) : PastDawn s (viewTakeOne o s) := by
  unfold Machine.viewTakeOne
  extract_lets fl drop p u v x w d
  have hdrop : ∀ b s, PastDawn s (drop b s) := fun b s => .poolChange ..
  refine .ite (fun _ => .refl s) fun _ => ?_
  have hu : PastDawn s u := .of_eq rfl
  have hv : PastDawn u v := by
    unfold v
    split
    · exact hdrop ..
    · exact .refl u
  have hw : PastDawn v w := PastDawn.trans (t := setView { v.view with pic := some o } v) (.of_eq rfl) (.setFld _ _ _ (by decide))
  refine .ite (fun _ => hu.trans (hdrop ..)) fun _ => ((hu.trans hv).trans hw).trans ?_
  unfold viewDirty
  split
  · exact .of_eq rfl
  · exact .refl w

theorem heveReg : ∀ e < 2, misses (HEVE_STATUS.BUSY e) = true ∧ misses (HEVE_STATUS.BAD_CFG e) = true ∧
    misses (HEVE_STATUS.OUT_WAITING e) = true ∧ misses (HEVE_STATUS.WAITING e) = true ∧ misses (HEVE_EVENT.BAD_CFG e) = true ∧
    misses (HEVE_EVENT.DROP e) = true ∧ misses (HEVE_CNT_DROP.COUNT e) = true := by decide +kernel

theorem heveShow {e : Nat} (he : e < 2) (s : State) : PastDawn s (heveShow e s) := by
  obtain ⟨h1, h2, h3, h4, -⟩ := heveReg e he
  exact .after (.setFld _ _ _ h4) <| .after (.setFlag _ _ _ h3) <| .after (.setFlag _ _ _ h2) (.setFlag _ _ _ h1)

theorem modHeve (e : Nat) (f : HeveEng → HeveEng) (s : State) : PastDawn s (modHeve e f s) := .of_eq rfl

theorem heveBad {e : Nat} (he : e < 2) (s : State) : PastDawn s (heveBad e s) :=
  .after (.heveShow he _) (.after (.postFlag _ _ _ _ _ _ _ (heveReg e he).2.2.2.2.1) (.modHeve ..))

theorem heveDrop {e : Nat} (he : e < 2) (s : State) : PastDawn s (heveDrop e s) := by
  obtain ⟨-, -, -, -, -, h6, h7⟩ := heveReg e he
  unfold Machine.heveDrop
  split
  · exact .refl s
  · exact .after (.heveShow he _) (.after (.postFlag _ _ _ _ _ _ _ h6) (.after (.setFld _ _ _ h7)
      (.after (releaseBuf_pastDawn ..) (.modHeve ..))))

theorem heveTake {e : Nat} (he : e < 2) (o : HeadOut) (s : State) : PastDawn s (heveTake e o s) := by
  unfold Machine.heveTake
  extract_lets g u
  have hu : PastDawn s u := .ite (fun _ => .heveBad (by decide) s) fun _ => .refl s
  refine hu.trans (.ite (fun _ => releaseBuf_pastDawn ..) fun _ => ?_)
  exact .after (.foldl _ _ (fun _ _ s => .heveDrop he s) _) (.after (.heveShow he _) (.modHeve ..))

theorem handOut (o : HeadOut) (s : State) : PastDawn s (handOut o s) := by
  unfold Machine.handOut
  split
  next e he =>
    have hlt : e < 2 := by
      split at he
      · unfold heveConsumer at he
        dsimp only at he
        split at he
        · exact Option.some.inj he ▸ (by decide)
        · split at he
          · exact nomatch he
          · split at he
            · exact Option.some.inj he ▸ (by decide)
            · exact nomatch he
      · exact nomatch he
    exact .heveTake hlt o s
  · exact .of_eq rfl

theorem writeDram (a : Nat) (bs : List Byte) (s : State) : PastDawn s (s.writeDram a bs) := (Ongoing.writeDram a bs s).pastDawn

theorem writeBuf (a : Nat) (bs : List Byte) (s : State) : PastDawn s (s.writeBuf a bs) := .writeDram ..

theorem viewTake (s : State) : PastDawn s (viewTake s) := .foldl _ _ (fun o _ s => .viewTakeOne o s) s

theorem takeBuf {p num k : Nat} {s t : State} (h : takeBuf p num s = some (k, t)) : PastDawn s t := by
  obtain ⟨b, -, hb⟩ := Option.map_eq_some_iff.1 h
  obtain ⟨rfl, rfl⟩ := Prod.mk.inj hb
  exact .after (showFree_pastDawn _) (.of_eq rfl)

theorem poolTake {owner k : Nat} {s t : State} (h : poolTake owner s = some (k, t)) : PastDawn s t := by
  unfold Machine.poolTake at h
  split at h
  · exact nomatch h
  · obtain ⟨b, -, hb⟩ := Option.map_eq_some_iff.1 h
    obtain ⟨rfl, rfl⟩ := Prod.mk.inj hb
    exact .after (.poolShow _) (.of_eq rfl)

theorem skipHead (src : PipeSrc) (h : Nat) (s : State) : PastDawn s (skipHead src h s) := by
  unfold Machine.skipHead
  extract_lets p d hdr
  refine .ite (fun _ => .refl s) fun _ => .ite (fun _ => ?_) fun _ => ?_
  · split
    · exact .refl s
    next k t ht => exact .after (.handOut ..) (.after (.writeBuf ..) (.takeBuf ht))
  · split
    · exact .refl s
    next k t ht => exact .after (.viewTake _) (.after (.handOut ..) (.after (.writeDram ..) (.poolTake ht)))

theorem skipped (p : Nat) (s : State) : PastDawn s (pipeFlag PIPE_EVENT.SKIP .info p (s.addFld PIPE_CNT_SKIP.COUNT 1)) :=
  .after (.postFlag PIPE_EVENT.SKIP _ _ _ _ _ _ (by decide)) (.setFld _ _ _ (by decide))

theorem skipFrame (src : PipeSrc) (s : State) : PastDawn s (skipFrame src s) :=
  .after (.skipped ..) (.after (.skipHead src 1 _) (.skipHead src 0 s))

theorem writeHeaders (j : PipeJob) (abandoned done : Bool) (s : State) : PastDawn s (writeHeaders j abandoned done s) := by
  unfold Machine.writeHeaders
  extract_lets u
  have hu : PastDawn s u := by
    unfold u
    split
    · exact .writeBuf ..
    · exact .refl s
  refine hu.trans ?_
  split
  · exact .writeBuf ..
  · exact .refl u

theorem endJob (p : Nat) (j : PipeJob) (abandoned : Bool) (s : State) : PastDawn s (endJob p j abandoned s) := by
  unfold Machine.endJob
  extract_lets u v
  have h0 : PastDawn s (modPipePort p (fun x => { x with job := none }) s) := .of_eq rfl
  have hu : PastDawn s u := .after (.viewTake _) (.after (.writeHeaders ..) h0)
  have hv : PastDawn u v := .setFld _ _ _ (by decide)
  exact (hu.trans hv).trans (.ite (fun _ => .skipped p v) fun _ => .refl v)

theorem pipeReclaim (p num : Nat) (s : State) : PastDawn s (pipeReclaim p num s) := by
  have hmod : ∀ f : PipePort → PipePort, PastDawn s (modPipePort p f s) := fun _ => .of_eq rfl
  unfold Machine.pipeReclaim pipeReclaimBy
  extract_lets q
  split
  · exact .after (.skipFrame ..) (hmod _)
  · split
    · exact .refl s
    · exact .ite (fun _ => .refl s) fun _ => .ite (fun _ => hmod _) fun _ => .endJob ..

theorem finalise (num disp reason : Nat) (s : State) : PastDawn s (finalise num disp reason s) := (Ongoing.finalise ..).pastDawn

theorem overwriteOpen (p : Option Nat) (s : State) : PastDawn s (overwriteOpen p s) :=
  .foldl _ _ (fun f _ s => .after (.pipeReclaim ..) (.finalise ..)) s

theorem abortPending (s : State) : PastDawn s (abortPending s) := .foldl _ _ (fun _ _ s => .finalise ..) s

end PastDawn

/-! ### The map -/

/-- An offset splits into its place in the devices (R372). -/
theorem dramPlace_splits {s : State} {o : Nat} (h : o < dramCc s) :
    o = (dramPlace s o).byte + 64 * (dramPlace s o).burst + 2 ^ 11 * (dramPlace s o).b + 2 ^ 15 * (dramPlace s o).row +
      2 ^ (15 + rowBits s) * (dramPlace s o).rank ∧ (dramPlace s o).byte < 64 ∧ (dramPlace s o).burst < 32 ∧
    (dramPlace s o).row < 2 ^ rowBits s := by
  obtain ⟨k, hk⟩ : ∃ k, k = 2 ^ rowBits s := ⟨_, rfl⟩
  obtain ⟨q, hq⟩ : ∃ q, q = o / 2 ^ (15 + rowBits s) := ⟨_, rfl⟩
  have hpow : 2 ^ (15 + rowBits s) = 2 ^ 15 * k := by rw [Nat.pow_add, hk]
  have hcc : dramCc s = 2 ^ 15 * k * (1 + s.fld DRAM_CFG.RANKS) := by
    rw [dramCc, ← hpow, rowBits]
    congr 2
    omega
  have hkpos : 0 < k := hk ▸ Nat.two_pow_pos _
  have hrow : o / 2 ^ 15 = o / 2 ^ 15 % k + k * q := by
    rw [hq, hpow, ← Nat.div_div_eq_div_mul]
    exact (Nat.mod_add_div ..).symm
  have hqlt : q < 1 + s.fld DRAM_CFG.RANKS := by
    rw [hq, hpow]
    exact Nat.div_lt_of_lt_mul (hcc ▸ h)
  have hrank : (dramPlace s o).rank = q := by
    have hlt : s.fld DRAM_CFG.RANKS < 2 := State.fld_lt s DRAM_CFG.RANKS
    show (if s.flag DRAM_CFG.RANKS then o / 2 ^ (15 + rowBits s) % 2 else 0) = q
    rw [← hq, State.flag]
    split
    · omega
    next hr =>
      have : s.fld DRAM_CFG.RANKS = 0 := by simpa using hr
      omega
  rw [hrank, hpow, Nat.mul_assoc]
  simp only [dramPlace, bits, ← hk]
  have hrowlt : o / 2 ^ 15 % k < k := Nat.mod_lt _ hkpos
  generalize k * q = x at *
  generalize o / 2 ^ 15 % k = r at *
  refine ⟨?_, by omega, by omega, hrowlt⟩
  omega

theorem dramPlace_bank (s : State) (o : Nat) : (dramPlace s o).bank < 16 ∧ (dramPlace s o).bank ^^^ (dramPlace s o).row % 16 = (dramPlace s o).b ∧
    (dramPlace s o).bank = (dramPlace s o).bankGroup + 4 * (dramPlace s o).bankAddress := by
  have hb : (dramPlace s o).b < 2 ^ 4 := Nat.mod_lt _ (by decide)
  have hlt : (dramPlace s o).bank < 16 := Nat.xor_lt_two_pow (n := 4) hb (Nat.mod_lt _ (by decide))
  refine ⟨hlt, by rw [DramPlace.bank, Nat.xor_assoc, Nat.xor_self, Nat.xor_zero], ?_⟩
  simp only [DramPlace.bankGroup, DramPlace.bankAddress, bits]
  omega

/-- What the warnings of the first COMMIT leave. -/
theorem retiredWarnings_frame (gs : List Nat) (s : State) : ∃ r c l, gs.foldl (fun s g =>
      postEvent { cls := .warning, block := 12, cause := 0x301, inst := 4 * g, detail := g } s) s =
        { s with regs := r, call := c, ledger := l } ∧ ∀ a, a ≠ CALL_OVERFLOW.COUNT.addr → readAt 0 r a = s.word a := by
  induction gs generalizing s with
  | nil => exact ⟨s.regs, s.call, s.ledger, rfl, fun _ _ => rfl⟩
  | cons g gs ih =>
    obtain ⟨r, c, l, h, hr⟩ := postEvent_frame (e := { cls := .warning, block := 12, cause := 0x301, inst := 4 * g, detail := g }) nofun s
    rw [List.foldl_cons, h]
    obtain ⟨r', c', l', h', hr'⟩ := ih { s with regs := r, call := c, ledger := l }
    exact ⟨r', c', l', h', fun a ha => (hr' a ha).trans (hr a ha)⟩

/-- The first COMMIT with at most one retired group maps the others (R393). -/
theorem exec_dramCommit {s : State} {retire : BitVec 4} (hc : s.mem.committed = false) (hrate : s.fld DRAM_CFG.RATE ≤ 5)
    (hdens : s.fld DRAM_CFG.DENSITY ≤ 2) (hr : s.fld DRAM_MAP.RETIRE ||| retire.toNat ∈ [0, 1, 2, 4, 8]) :
    ∃ t, exec (.dramCommit retire) s = .next t ∧ t.mem.committed = true ∧ t.flag DRAM_STATUS.MAPPED = true ∧
      t.fld DRAM_STATUS.GROUPS = 15 - (s.fld DRAM_MAP.RETIRE ||| retire.toNat) ∧ t.dram = [] ∧
      t.mem.retired = (List.range 4).filter (fun g => (s.fld DRAM_MAP.RETIRE ||| retire.toNat).testBit g) := by
  obtain ⟨n, hn⟩ : ∃ n, n = s.fld DRAM_MAP.RETIRE ||| retire.toNat := ⟨_, rfl⟩
  rw [← hn] at hr ⊢
  obtain ⟨gs, hgs⟩ : ∃ gs, gs = (List.range 4).filter (fun g => n.testBit g) := ⟨_, rfl⟩
  have hfew : ∀ n ∈ [0, 1, 2, 4, 8], n < 2 ^ 4 ∧ ((List.range 4).filter (fun g => Nat.testBit n g)).length ≤ 1 := by decide
  obtain ⟨hlt, hlen⟩ := hfew n hr
  rw [← hgs] at hlen ⊢
  obtain ⟨u, hu⟩ : ∃ u, u = (busOk 0 s).setFld DRAM_MAP.RETIRE n := ⟨_, rfl⟩
  have hret : u.fld DRAM_MAP.RETIRE = n := hu ▸ State.fld_setFld_lt _ DRAM_MAP.RETIRE n (by decide) hlt
  have hurate : u.fld DRAM_CFG.RATE = s.fld DRAM_CFG.RATE := hu ▸ State.fld_setFld_apart (busOk 0 s) DRAM_CFG.RATE DRAM_MAP.RETIRE n (by decide) (by decide)
  have hudens : u.fld DRAM_CFG.DENSITY = s.fld DRAM_CFG.DENSITY :=
    hu ▸ State.fld_setFld_apart (busOk 0 s) DRAM_CFG.DENSITY DRAM_MAP.RETIRE n (by decide) (by decide)
  obtain ⟨v, hv⟩ : ∃ v : State, v = { u with dram := [], mem := { u.mem with committed := true, retired := gs, poison := [], bad := [], codeBuf := [] } } :=
    ⟨_, rfl⟩
  obtain ⟨w, hw⟩ : ∃ w, w = (v.setFlag DRAM_STATUS.MAPPED true).setFld DRAM_STATUS.GROUPS (15 - n) := ⟨_, rfl⟩
  obtain ⟨x, hx⟩ : ∃ x, x = w.setFld DRAM_PEAK.MBS (peakOf (w.fld DRAM_CFG.RATE) (16 - 4 * gs.length)) := ⟨_, rfl⟩
  have hexec : exec (.dramCommit retire) s = .next (gs.foldl (fun s g =>
      postEvent { cls := .warning, block := 12, cause := 0x301, inst := 4 * g, detail := g } s) x) := by
    have hb : (busOk 0 s).mem.committed = false := hc
    have hbr : (busOk 0 s).fld DRAM_MAP.RETIRE = s.fld DRAM_MAP.RETIRE := rfl
    show execDramCommit retire s = _
    unfold execDramCommit
    dsimp only
    rw [hb, if_neg (by decide), hbr, ← hn, ← hu, hret, ← hgs, hurate, hudens, if_neg (by omega), if_neg (by omega), ← hv, ← hw, ← hx]
  obtain ⟨r, c, l, hfold, hregs⟩ := retiredWarnings_frame gs x
  have hkept : ∀ f : Fld, f.addr ≠ CALL_OVERFLOW.COUNT.addr → State.fld { x with regs := r, call := c, ledger := l } f = x.fld f :=
    fun f hf => State.fld_congr_word (t := { x with regs := r, call := c, ledger := l }) (hregs f.addr hf)
  have hmem : x.mem = v.mem ∧ x.dram = v.dram := by
    rw [hx, hw]
    exact ⟨rfl, rfl⟩
  rw [hfold] at hexec
  refine ⟨_, hexec, ?_, ?_, ?_, ?_, ?_⟩
  · exact (congrArg DramState.committed hmem.1).trans (by rw [hv])
  · rw [State.flag, hkept _ (by decide), hx, State.fld_setFld_apart w DRAM_STATUS.MAPPED DRAM_PEAK.MBS _ (by decide) (by decide), hw,
      State.fld_setFld_apart _ DRAM_STATUS.MAPPED DRAM_STATUS.GROUPS _ (by decide) (by decide)]
    exact State.flag_setFlag_same v DRAM_STATUS.MAPPED true (by decide) (by decide)
  · rw [hkept _ (by decide), hx, State.fld_setFld_apart w DRAM_STATUS.GROUPS DRAM_PEAK.MBS _ (by decide) (by decide), hw]
    exact State.fld_setFld_lt _ DRAM_STATUS.GROUPS (15 - n) (by decide) (by show 15 - n < 2 ^ 4; omega)
  · exact hmem.2.trans (by rw [hv])
  · exact (congrArg DramState.retired hmem.1).trans (by rw [hv])

theorem exec_dramCommit_again {s : State} (retire : BitVec 4) (hc : s.mem.committed = true) : exec (.dramCommit retire) s = .next (busOk 0 s) := by
  have hb : (busOk 0 s).mem.committed = true := hc
  show execDramCommit retire s = _
  unfold execDramCommit
  dsimp only
  rw [if_pos hb]

theorem exec_dramInitDone {s : State} (hc : s.mem.committed = true) : ∃ t, exec .dramInitDone s = .next t ∧
    t.flag DRAM_STATUS.INIT_DONE = true ∧ OnlyRegs s t [DRAM_STATUS.INIT_DONE.addr] := by
  have h : OnlyRegs s s [DRAM_STATUS.INIT_DONE.addr] := ⟨rfl, fun _ _ => rfl⟩
  exact ⟨_, if_pos hc, State.flag_setFlag_same s DRAM_STATUS.INIT_DONE true (by decide) (by decide),
    h.setFld (f := DRAM_STATUS.INIT_DONE) (by simp) _⟩

/-- RETIRE set before COMMIT is kept (R395). -/
theorem exec_dramFence_early {s : State} {retire : BitVec 4} (hc : s.mem.committed = false) (hr : retire ≠ 0) :
    ∃ t, exec (.dramFence retire) s = .next t ∧ t.fld DRAM_MAP.RETIRE = s.fld DRAM_MAP.RETIRE ||| retire.toNat ∧
      OnlyRegs s t [DRAM_MAP.RETIRE.addr] := by
  have hne : ∀ r : BitVec 4, r ≠ 0 → ((List.range 4).filter (fun g => r.toNat.testBit g)).isEmpty = false := by decide
  have hb : (busOk 0 s).mem.committed = false := hc
  refine ⟨(busOk 0 s).setFld DRAM_MAP.RETIRE (s.fld DRAM_MAP.RETIRE ||| retire.toNat), ?_, ?_,
    (onlyRegs_busOk 0 s _).setFld (f := DRAM_MAP.RETIRE) (by simp) _⟩
  · show execDramFence retire s = _
    unfold execDramFence
    dsimp only
    rw [hne retire hr, if_neg (by decide), if_pos hb]
    rfl
  · exact State.fld_setFld_lt _ DRAM_MAP.RETIRE _ (by decide) (Nat.or_lt_two_pow (State.fld_lt s DRAM_MAP.RETIRE) retire.isLt)

/-- In Intermission one group is fenced: open and pending frames end, and the map keeps the group (R395). -/
theorem exec_dramFence {s : State} {g : Fin 4} (hc : s.mem.committed = true) (hm : s.mode = 6)
    (hf : s.fld DRAM_MAP.FENCED = 0 ∨ s.fld DRAM_MAP.FENCED = 2 ^ g.val) (hg : g.val ∉ s.mem.retired) :
    ∃ t, exec (.dramFence (BitVec.ofNat 4 (2 ^ g.val))) s = .next t ∧ t.fld DRAM_MAP.FENCED = 2 ^ g.val ∧ t.flag DRAM_EVENT.FENCE = true := by
  have hone : ∀ g : Fin 4, (BitVec.ofNat 4 (2 ^ g.val)).toNat = 2 ^ g.val ∧ (List.range 4).filter (fun k => (2 ^ g.val).testBit k) = [g.val] ∧
      2 ^ g.val < 2 ^ 4 := by decide
  obtain ⟨hnat, hgs, hlt⟩ := hone g
  have hb : (busOk 0 s).mem = s.mem ∧ (busOk 0 s).mode = s.mode ∧ (busOk 0 s).fld DRAM_MAP.FENCED = s.fld DRAM_MAP.FENCED := ⟨rfl, rfl, rfl⟩
  obtain ⟨hbm, hbmode, hbf⟩ := hb
  obtain ⟨u, hu⟩ : ∃ u, u = ((busOk 0 s).setFld DRAM_MAP.RETIRE ((busOk 0 s).fld DRAM_MAP.RETIRE ||| 2 ^ g.val)).setFld DRAM_MAP.FENCED (2 ^ g.val) :=
    ⟨_, rfl⟩
  obtain ⟨v, hv⟩ : ∃ v, v = abortPending (overwriteOpen none u) := ⟨_, rfl⟩
  have hexec : exec (.dramFence (BitVec.ofNat 4 (2 ^ g.val))) s = .next (dramFlag DRAM_EVENT.FENCE .recoverable 0xFF 0 v) := by
    show execDramFence _ s = _
    unfold execDramFence
    dsimp only
    rw [hnat, hgs, hbm, hbmode, hbf, hc, if_neg (show ¬[g.val].isEmpty = true from nofun), if_neg (by decide), if_neg, hv, hu]
    simp only [hm, List.length_singleton, List.any_eq_true, List.contains_eq_mem, List.mem_singleton, decide_eq_true_eq]
    rintro (h | h | h | ⟨k, hk, rfl⟩)
    · exact h rfl
    · exact h.2 (hf.resolve_left h.1)
    · omega
    · exact hg hk
  have hum : u.mode = 6 := by
    rw [hu, State.mode, State.fld_setFld_apart _ CUE_STATUS.MODE DRAM_MAP.FENCED _ (by decide) (by decide),
      State.fld_setFld_apart _ CUE_STATUS.MODE DRAM_MAP.RETIRE _ (by decide) (by decide)]
    exact hm
  have huf : u.fld DRAM_MAP.FENCED = 2 ^ g.val := hu ▸ State.fld_setFld_lt _ DRAM_MAP.FENCED _ (by decide) hlt
  have hpast : PastDawn u v := hv ▸ .after (.abortPending _) (.overwriteOpen none u)
  refine ⟨_, hexec, ?_, dramFlag_shown (by decide) (by decide) (by decide) (by decide) _ _ v⟩
  rw [dramFlag, State.fld_congr_word (f := DRAM_MAP.FENCED) (postFlag_word (f := DRAM_EVENT.FENCE) (cls := .recoverable) (by decide) _ _ _ _ v (by decide) (by decide)),
    State.fld_congr_word (f := DRAM_MAP.FENCED) (hpast.kept (by omega)).2, huf]

/-! ### Training -/

theorem exec_dramCounterClear (s : State) : exec .dramCounterClear s =
    .next { s with sys := { s.sys with bus := { data := 0, error := false } }, mem := { s.mem with errors := [] } } := rfl

/-- The op, the rank and the channels that a GO names. -/
def trnNamed (op : Nat) (rank : Fin 2) (ch : BitVec 16) (s : State) : State :=
  (((busOk 0 s).setFld DRAM_TRN_CTRL.OP op).setFld DRAM_TRN_CTRL.RANK rank.val).setFld DRAM_TRN_CTRL.CH ch.toNat

/-- What a GO names shows; no other register changes. -/
theorem trnNamed_shows {op : Nat} (hop : op < 16) (rank : Fin 2) (ch : BitVec 16) (s : State) :
    (trnNamed op rank ch s).fld DRAM_TRN_CTRL.OP = op ∧ (trnNamed op rank ch s).fld DRAM_TRN_CTRL.RANK = rank.val ∧
    (trnNamed op rank ch s).fld DRAM_TRN_CTRL.CH = ch.toNat ∧ OnlyRegs s (trnNamed op rank ch s) [DRAM_TRN_CTRL.GO.addr] := by
  have hrank : rank.val < 2 ^ DRAM_TRN_CTRL.RANK.width := rank.isLt
  have hch : ch.toNat < 2 ^ DRAM_TRN_CTRL.CH.width := ch.isLt
  unfold trnNamed
  refine ⟨?_, ?_, State.fld_setFld_lt _ DRAM_TRN_CTRL.CH _ (by decide) hch, ((onlyRegs_busOk 0 s _).setFld (f := DRAM_TRN_CTRL.OP) (by decide) op
    |>.setFld (f := DRAM_TRN_CTRL.RANK) (by decide) _).setFld (f := DRAM_TRN_CTRL.CH) (by decide) _⟩
  · simp (disch := decide) only [State.fld_setFld_apart]
    exact State.fld_setFld_lt (busOk 0 s) DRAM_TRN_CTRL.OP op (by decide) hop
  · simp (disch := decide) only [State.fld_setFld_apart]
    exact State.fld_setFld_lt _ DRAM_TRN_CTRL.RANK _ (by decide) hrank

/-- The channels of a GO end before channel 16. -/
theorem trnChannels_last (p : Nat → Bool) : ((List.range 16).filter p).foldl max 0 ≤ 15 := by
  have h : ∀ (l : List Nat) (a : Nat), a ≤ 15 → (∀ x ∈ l, x ≤ 15) → l.foldl max a ≤ 15 := by
    intro l
    induction l with
    | nil => exact fun a ha _ => ha
    | cons x l ih => exact fun a ha hl => ih _ (Nat.max_le.2 ⟨ha, hl x List.mem_cons_self⟩) fun y hy => hl y (List.mem_cons_of_mem _ hy)
  exact h _ 0 (by decide) fun x hx => Nat.le_of_lt_succ (List.mem_range.1 (List.mem_filter.1 hx).1)

/-- A training operation that is allowed starts, shows BUSY and takes its arguments (R390). -/
theorem trnStart_starts {s : State} {op : Nat} (h1 : 1 ≤ op) (h9 : op ≤ 9) (rank : Fin 2) (ch : BitVec 16) (hd : s.domainOn 21 = true)
    (hno : s.mem.trnOp = none) (hal : trnAllowed s = true) (ha : s.fld DRAM_TRN_RESULT.ADDR % 64 = 0)
    (hlo : 0x01000000 ≤ s.fld DRAM_TRN_RESULT.ADDR) (hhi : s.fld DRAM_TRN_RESULT.ADDR + 512 ≤ 0x01800000) :
    (trnStart op rank ch s).flag DRAM_TRN_CTRL.BUSY = true ∧ (trnStart op rank ch s).fld DRAM_TRN_CTRL.OP = op ∧
      (trnStart op rank ch s).fld DRAM_TRN_CTRL.RANK = rank.val ∧ (trnStart op rank ch s).fld DRAM_TRN_CTRL.CH = ch.toNat ∧
      (trnStart op rank ch s).mem.trnOp = some op ∧
      (trnStart op rank ch s).mem.trnArgs = { rank := rank.val, arg := s.word DRAM_TRN_ARG.TO.addr, addr := s.fld DRAM_TRN_RESULT.ADDR,
                                              val := trnVal s % 256 } ∧
      OnlyRegs { s with mem := (trnStart op rank ch s).mem } (trnStart op rank ch s) [DRAM_TRN_CTRL.GO.addr] := by
  obtain ⟨u, hu⟩ : ∃ u, u = trnNamed op rank ch s := ⟨_, rfl⟩
  obtain ⟨hop, hrank, hch, honly⟩ := trnNamed_shows (op := op) (by omega) rank ch s
  rw [← hu] at hop hrank hch honly
  have hmem : u.mem = s.mem := by rw [hu]; rfl
  have hfld : ∀ f : Fld, f.addr ≠ DRAM_TRN_CTRL.GO.addr → u.fld f = s.fld f := fun f hf =>
    State.fld_congr_word (honly.2 f.addr (by simpa using hf))
  have hmode : u.mode = s.mode := hfld CUE_STATUS.MODE (by decide)
  have hallow : trnAllowed u = true := by
    unfold trnAllowed at hal ⊢
    rw [hmode, hmem]
    exact hal
  have hval : trnVal u = trnVal s := by
    unfold trnVal settingKey
    rw [hmem, hfld DRAM_TRN_SEL.PARAM (by decide), hfld DRAM_TRN_SEL.CH (by decide), hfld DRAM_TRN_SEL.RANK (by decide)]
  have haddr : u.fld DRAM_TRN_RESULT.ADDR = s.fld DRAM_TRN_RESULT.ADDR := hfld _ (by decide)
  have harg : u.word DRAM_TRN_ARG.TO.addr = s.word DRAM_TRN_ARG.TO.addr := honly.2 _ (by decide)
  obtain ⟨chs, hchs⟩ : ∃ chs, chs = (List.range 16).filter (fun c => ch.getLsbD c && !s.mem.retired.contains (c / 4)) := ⟨_, rfl⟩
  obtain ⟨m, hm⟩ : ∃ m : DramState, m = { u.mem with
      trnOp := some op, trnCh := (chs.map (fun c => 2 ^ c)).sum
      trnArgs := { rank := rank.val, arg := s.word DRAM_TRN_ARG.TO.addr, addr := s.fld DRAM_TRN_RESULT.ADDR, val := trnVal s % 256 } } := ⟨_, rfl⟩
  have heq : trnStart op rank ch s = setMem m (u.setFlag DRAM_TRN_CTRL.BUSY true) := by
    have hb : (busOk 0 s).domainOn 21 = true := hd
    have hlast : chs.foldl max 0 ≤ 15 := hchs ▸ trnChannels_last _
    unfold trnStart
    dsimp only
    rw [hb, if_neg (by decide), ← trnNamed, ← hu, haddr, harg, hval, hmem, hno, hallow, ← hchs, if_neg, hm, hmem]
    rintro (h | h | h | h | h | h | h)
    · omega
    · omega
    · exact nomatch h
    · exact nomatch h
    · exact h ha
    · omega
    · omega
  rw [heq]
  have hbusy := State.flag_setFlag_same u DRAM_TRN_CTRL.BUSY true (by decide) (by decide)
  refine ⟨hbusy, ?_, ?_, ?_, by rw [hm]; rfl, by rw [hm]; rfl, ?_⟩
  · exact (State.fld_setFld_apart u DRAM_TRN_CTRL.OP DRAM_TRN_CTRL.BUSY _ (by decide) (by decide)).trans hop
  · exact (State.fld_setFld_apart u DRAM_TRN_CTRL.RANK DRAM_TRN_CTRL.BUSY _ (by decide) (by decide)).trans hrank
  · exact (State.fld_setFld_apart u DRAM_TRN_CTRL.CH DRAM_TRN_CTRL.BUSY _ (by decide) (by decide)).trans hch
  · obtain ⟨he, hr⟩ := honly.setFld (f := DRAM_TRN_CTRL.BUSY) (by decide) (boolNat true)
    refine ⟨?_, hr⟩
    exact congrArg (setMem m) he

/-- An operation while one runs is refused (R390). -/
theorem exec_verify_refused {s : State} (rank : Fin 2) (ch : BitVec 16) {op : Nat} (hd : s.domainOn 21 = true) (hop : s.mem.trnOp = some op) :
    ∃ t, exec (.verify rank ch) s = .next t ∧ t.flag DRAM_TRN_CTRL.REFUSED = true ∧ t.mem = s.mem := by
  obtain ⟨u, hu⟩ : ∃ u, u = trnNamed 9 rank ch s := ⟨_, rfl⟩
  have hmem : u.mem = s.mem := by rw [hu]; rfl
  obtain ⟨v, hv⟩ : ∃ v, v = (u.setFlag DRAM_TRN_CTRL.REFUSED true).setFlag DRAM_EVENT.TRN_REFUSED true := ⟨_, rfl⟩
  have heq : trnStart 9 rank ch s = postRefused 12 DRAM_TRN_CTRL.GO.addr v := by
    have hb : (busOk 0 s).domainOn 21 = true := hd
    unfold trnStart
    dsimp only
    rw [hb, if_neg (by decide), ← trnNamed, ← hu, if_pos, hv]
    exact .inr (.inr (.inl (by rw [hmem, hop]; rfl)))
  obtain ⟨r, c, l, h, -⟩ := postEvent_frame (e := { cls := .warning, block := 12, cause := 0x200 + 4, inst := 0xFF, detail := DRAM_TRN_CTRL.GO.addr })
    nofun v
  refine ⟨_, congrArg Host.Outcome.next heq, ?_, ?_⟩
  · refine (postKind_flag 4 12 0xFF DRAM_TRN_CTRL.GO.addr v (f := DRAM_TRN_CTRL.REFUSED) (by decide)).trans ?_
    rw [hv, State.setFlag, State.flag_setFld_apart _ _ _ _ (by decide) (by decide)]
    exact State.flag_setFlag_same u DRAM_TRN_CTRL.REFUSED true (by decide) (by decide)
  · rw [postRefused, postKind, h, hv]
    exact hmem

/-! ### A helper ends -/

/-- `t` is `s` after writes of DRAM while no helper runs: none waits. -/
structure Unheld (s t : State) : Prop where
  state : t = { s with regs := t.regs, mem := t.mem, call := t.call, ledger := t.ledger, dram := t.dram }
  held : t.mem.held = s.mem.held
  op : t.mem.trnOp = none
  regs : RegsBut s t checkRegs

namespace Unheld

variable {s t u : State}

theorem refl (h : s.mem.trnOp = none) : Unheld s s := ⟨rfl, rfl, h, fun _ _ => rfl⟩

theorem trans (h : Unheld s t) (h' : Unheld t u) : Unheld s u :=
  ⟨h'.state.trans (by rw [h.state]), h'.held.trans h.held, h'.op, fun a ha => (h'.regs a ha).trans (h.regs a ha)⟩

theorem foldl {α : Type} {f : State → α → State} (hf : ∀ s a, s.mem.trnOp = none → Unheld s (f s a)) (l : List α) {s : State}
    (h : s.mem.trnOp = none) : Unheld s (l.foldl f s) := by
  induction l generalizing s with
  | nil => exact refl h
  | cons a l ih => exact (hf s a h).trans (ih (hf s a h).op)

theorem writeTagged (h : s.mem.trnOp = none) (poison : Bool) (a : Nat) (bs : List Byte) : Unheld s (s.writeTagged poison a bs) := by
  obtain ⟨t, ht⟩ : ∃ t, t = (partBlocks a bs.length).foldl (fun s b => dramCheck b s) (dramAccess a bs.length s) := ⟨_, rfl⟩
  have hc : Checked s t := ht ▸ partBlocks_checked s a bs.length
  have hunits : unitsHeld s poison a bs = [] := if_pos (by rw [h]; rfl)
  have hmem : (s.writeTagged poison a bs).mem.held = t.mem.held ++ unitsHeld s poison a bs := by rw [ht]; rfl
  have hregs : RegsBut s (s.writeTagged poison a bs) checkRegs := by
    have h := hc.regs
    rw [ht] at h
    exact h
  refine ⟨?_, ?_, ?_, hregs⟩
  · unfold State.writeTagged
    dsimp only
    rw [← ht, hc.state]
  · rw [hmem, hunits, List.append_nil, hc.mem]
  · have hop : (s.writeTagged poison a bs).mem.trnOp = t.mem.trnOp := by rw [ht]; rfl
    rw [hop, hc.mem]
    exact h

theorem writeDram (h : s.mem.trnOp = none) (a : Nat) (bs : List Byte) : Unheld s (s.writeDram a bs) := writeTagged h false a bs

theorem writePoisoned (h : s.mem.trnOp = none) (a : Nat) (bs : List Byte) : Unheld s (s.writePoisoned a bs) := by
  have hw := writeTagged h true a bs
  have hp : ∀ (l : List Nat) {t : State}, t.mem.trnOp = none → Unheld t (storePoison l t) := fun l _ ht => ⟨rfl, rfl, ht, fun _ _ => rfl⟩
  exact hw.trans (hp _ hw.op)

theorem heldWritten (h : s.mem.trnOp = none) : Unheld (setMem { s.mem with held := [] } s) (heldWritten s) := by
  refine .foldl (fun s w h => ?_) _ h
  split
  · exact .writePoisoned h ..
  · exact .writeDram h ..

theorem fld (h : Unheld s t) {f : Fld} (hf : f.addr ∉ checkRegs) : t.fld f = s.fld f := State.fld_congr_word (h.regs f.addr hf)

end Unheld

/-- A write of whole blocks checks none. -/
theorem writeDram_regs_aligned (s : State) (k : Nat) {bs : List Byte} (hl : bs.length = 256) : (s.writeDram (256 * k) bs).regs = s.regs := by
  have hpart : partBlocks (256 * k) 256 = [] := by
    have h1 : 256 * k / 64 = 4 * k := by omega
    have h2 : (256 * k + 256 - 1) / 64 = 4 * k + 3 := by omega
    refine List.filter_eq_nil_iff.2 fun b hb => ?_
    rw [if_neg (by decide), List.mem_dedup, h1, h2] at hb
    have hin : inWhole (256 * k) 256 b = true := by
      simp only [List.mem_cons, List.not_mem_nil, or_false] at hb
      simp only [inWhole, Bool.and_eq_true, decide_eq_true_eq]
      omega
    simp [hin]
  show ((partBlocks (256 * k) bs.length).foldl (fun s b => dramCheck b s) (dramAccess (256 * k) bs.length s)).regs = s.regs
  rw [hl, hpart]
  rfl

/-- Steps that leave the registers, in turn. -/
theorem foldl_unheld_regs {α : Type} {f : State → α → State} (hf : ∀ s a, s.mem.trnOp = none → Unheld s (f s a) ∧ (f s a).regs = s.regs)
    (l : List α) {s : State} (h : s.mem.trnOp = none) : Unheld s (l.foldl f s) ∧ (l.foldl f s).regs = s.regs := by
  induction l generalizing s with
  | nil => exact ⟨.refl h, rfl⟩
  | cons a l ih =>
    obtain ⟨hu, hr⟩ := hf s a h
    obtain ⟨hu', hr'⟩ := ih hu.op
    exact ⟨hu.trans hu', hr'.trans hr⟩

/-- VERIFY writes whole bursts: no register changes. -/
theorem verifyWrite_unheld {s : State} (h : s.mem.trnOp = none) (c : Nat) : Unheld s (verifyWrite c s) ∧ (verifyWrite c s).regs = s.regs := by
  unfold verifyWrite
  split
  · exact ⟨.refl h, rfl⟩
  · extract_lets first pattern
    refine foldl_unheld_regs (fun s i h => ?_) _ h
    have hfirst : first % 256 = 0 := by
      unfold first
      omega
    obtain ⟨k, hk⟩ : ∃ k, dramOffsetOf s c (first + 256 * i) = 256 * k := by
      refine ⟨(first + 256 * i) / 256 * (dramChannels s).length + (dramChannels s).findIdx (fun d => d == c), ?_⟩
      unfold dramOffsetOf
      dsimp only
      omega
    rw [hk]
    exact ⟨.writeDram h .., writeDram_regs_aligned s k (by simp)⟩

/-- The mode register that MRR of channel `c` answers from. -/
def trnAnswer (op : Nat) (s : State) (c : Nat) (r : TrnRecord) : Nat :=
  if op = 3 then (keyGet s.mem.modeRegs (trnRegister c s)).getD r.mr.toNat else 0

/-- The record of channel `c`, as `execDramTrnDone` writes it. -/
def trnRecorded (op a : Nat) (vals : List Nat) (records : List TrnRecord) (s : State) (c : Nat) : State :=
  (trnEffect op c s).writeScratch (a + 32 * c) (recordTrn op vals (records.getD c trnNone) (trnAnswer op s c (records.getD c trnNone)))

theorem length_recordTrn (op : Nat) (vals : List Nat) (r : TrnRecord) (mr : Nat) : (recordTrn op vals r mr).length = 32 := length_padTo ..

/-- The records leave all but scratch SRAM and the mode registers. -/
theorem trnRecorded_frame (op a : Nat) (vals : List Nat) (records : List TrnRecord) (l : List Nat) (s : State) : ∃ m sc,
    l.foldl (trnRecorded op a vals records) s = { s with mem := { s.mem with modeRegs := m }, scratch := sc } ∧ (3 ≤ op → m = s.mem.modeRegs) := by
  induction l generalizing s with
  | nil => exact ⟨s.mem.modeRegs, s.scratch, rfl, fun _ => rfl⟩
  | cons c l ih =>
    obtain ⟨m, sc, h, hm⟩ : ∃ m sc, trnRecorded op a vals records s c = { s with mem := { s.mem with modeRegs := m }, scratch := sc } ∧
        (3 ≤ op → m = s.mem.modeRegs) := by
      unfold trnRecorded trnEffect
      split
      · exact ⟨_, _, rfl, fun h => by omega⟩
      · split
        · exact ⟨_, _, rfl, fun h => by omega⟩
        · exact ⟨s.mem.modeRegs, _, rfl, fun _ => rfl⟩
    obtain ⟨m', sc', h', hm'⟩ := ih { s with mem := { s.mem with modeRegs := m }, scratch := sc }
    rw [List.foldl_cons, h]
    exact ⟨m', sc', h', fun ho => (hm' ho).trans (hm ho)⟩

/-- Each channel's record stands at its place (R391). -/
theorem trnRecorded_bytes {op : Nat} (ho : 3 ≤ op) (a : Nat) (vals : List Nat) (records : List TrnRecord) {l : List Nat} (hl : l.Nodup) {s : State}
    {c : Nat} (hc : c ∈ l) : (l.foldl (trnRecorded op a vals records) s).scratchBytes (a + 32 * c) 32 =
      recordTrn op vals (records.getD c trnNone) (trnAnswer op s c (records.getD c trnNone)) := by
  have hkept : ∀ (l : List Nat) (s : State), c ∉ l →
      (l.foldl (trnRecorded op a vals records) s).scratchBytes (a + 32 * c) 32 = s.scratchBytes (a + 32 * c) 32 := by
    intro l
    induction l with
    | nil => exact fun _ _ => rfl
    | cons d l ih =>
      intro s hd
      rw [List.mem_cons, not_or] at hd
      obtain ⟨hne, hmem⟩ := hd
      rw [List.foldl_cons, ih _ hmem]
      have heff : (trnEffect op d s) = s := by
        unfold trnEffect
        rw [if_neg (by omega), if_neg (by omega)]
      rw [trnRecorded, heff]
      exact scratchBytes_writeScratch_ne s (by rw [length_recordTrn]; omega)
  induction l generalizing s with
  | nil => exact absurd hc List.not_mem_nil
  | cons d l ih =>
    have heff : ∀ d, trnEffect op d s = s := fun d => by
      unfold trnEffect
      rw [if_neg (by omega), if_neg (by omega)]
    have hmem : (trnRecorded op a vals records s d).mem = s.mem := by
      rw [trnRecorded, heff, State.writeScratch_mem]
    obtain ⟨hd, hnd⟩ := List.nodup_cons.1 hl
    rw [List.foldl_cons]
    obtain rfl | hcl := List.mem_cons.1 hc
    · have h := scratchBytes_writeScratch_same s (a + 32 * c)
        (recordTrn op vals (records.getD c trnNone) (trnAnswer op s c (records.getD c trnNone)))
      rw [length_recordTrn] at h
      rw [hkept l _ hd, trnRecorded, heff]
      exact h
    · rw [ih hnd hcl]
      simp only [trnAnswer, trnRegister, hmem]

/-- The helper's end: no operation, no channels, DONE. -/
def trnEnded (s : State) : State :=
  setMem { s.mem with trnOp := none, trnCh := 0 } ((s.setFlag DRAM_TRN_CTRL.BUSY false).setFlag DRAM_TRN_CTRL.DONE true)

/-- A DQ delay trained in Intermission is tracked no longer (R383). -/
def trnRetracked (op : Nat) (chs : List Nat) (s : State) : State :=
  if s.mode = 6 ∧ (op = 7 ∨ op = 8) then
    let trained (e : Nat × Int) : Bool := chs.contains (e.1 / 4) && e.1 / 2 % 2 == s.mem.trnArgs.rank && e.1 % 2 == 8 - op
    setMem { s.mem with tracked := s.mem.tracked.filter (fun e => !trained e) } (s.setFlag DRAM_STATUS.DRIFT false)
  else s

theorem trnRetracked_kept (op : Nat) (chs : List Nat) (s : State) : (trnRetracked op chs s).scratch = s.scratch ∧
    (trnRetracked op chs s).scratchLost = s.scratchLost ∧ (trnRetracked op chs s).dram = s.dram ∧
    (trnRetracked op chs s).mem.held = s.mem.held ∧ (trnRetracked op chs s).mem.trnOp = s.mem.trnOp ∧
    RegsBut s (trnRetracked op chs s) [DRAM_STATUS.DRIFT.addr] := by
  unfold trnRetracked
  split
  · exact ⟨rfl, rfl, rfl, rfl, rfl, fun a ha => State.word_setFld_ne s DRAM_STATUS.DRIFT _ (by simpa using ha)⟩
  · exact ⟨rfl, rfl, rfl, rfl, rfl, fun _ _ => rfl⟩

/-- The channels of a helper. -/
def trnChs (s : State) : List Nat := (List.range 16).filter (fun c => s.mem.trnCh.testBit c)

/-- The state once the helper has ended and VERIFY has written its pattern. -/
def trnWritten (op : Nat) (records : List TrnRecord) (s : State) : State :=
  let v := trnEnded ((trnChs s).foldl (trnRecorded op (s.mem.trnArgs.addr - 0x01000000) (sweepValues s.mem.trnArgs.arg) records) s)
  if op = 9 then (trnChs s).foldl (fun s c => verifyWrite c s) v else v

theorem exec_dramTrnDone {s : State} {op : Nat} (hop : s.mem.trnOp = some op) (records : List TrnRecord) :
    exec (.dramTrnDone records) s = .next (trnRetracked op (trnChs s) (heldWritten (trnWritten op records s))) := by
  show execDramTrnDone records s = _
  unfold execDramTrnDone
  rw [hop]
  dsimp only
  rw [← apply_ite Host.Outcome.next]
  rfl

/-- What the end of a helper leaves: records in scratch SRAM, and the writes that wait. -/
theorem trnWritten_shows (op : Nat) (records : List TrnRecord) (s : State) :
    (trnWritten op records s).mem.trnOp = none ∧ (trnWritten op records s).mem.held = s.mem.held ∧
    (trnWritten op records s).flag DRAM_TRN_CTRL.BUSY = false ∧ (trnWritten op records s).flag DRAM_TRN_CTRL.DONE = true ∧
    RegsBut s (trnWritten op records s) [DRAM_TRN_CTRL.BUSY.addr] ∧ (op ≠ 9 → (trnWritten op records s).dram = s.dram) ∧
    ∀ a n, (trnWritten op records s).scratchBytes a n =
      ((trnChs s).foldl (trnRecorded op (s.mem.trnArgs.addr - 0x01000000) (sweepValues s.mem.trnArgs.arg) records) s).scratchBytes a n := by
  obtain ⟨u, hu⟩ : ∃ u, u = (trnChs s).foldl (trnRecorded op (s.mem.trnArgs.addr - 0x01000000) (sweepValues s.mem.trnArgs.arg) records) s := ⟨_, rfl⟩
  obtain ⟨m, sc, hframe, -⟩ := trnRecorded_frame op (s.mem.trnArgs.addr - 0x01000000) (sweepValues s.mem.trnArgs.arg) records (trnChs s) s
  rw [← hu] at hframe
  obtain ⟨v, hv⟩ : ∃ v, v = trnEnded u := ⟨_, rfl⟩
  obtain ⟨w, hw⟩ : ∃ w, w = trnWritten op records s := ⟨_, rfl⟩
  have hvop : v.mem.trnOp = none := hv ▸ rfl
  have hvw : Unheld v w ∧ w.regs = v.regs ∧ (op ≠ 9 → w = v) := by
    rw [hw]
    unfold trnWritten
    rw [← hu, ← hv]
    dsimp only
    split
    next h9 =>
      obtain ⟨h1, h2⟩ := foldl_unheld_regs (f := fun s c => verifyWrite c s) (fun s c h => verifyWrite_unheld h c) (trnChs s) hvop
      exact ⟨h1, h2, fun h => absurd h9 h⟩
    · exact ⟨.refl hvop, rfl, fun _ => rfl⟩
  obtain ⟨hun, hregs, hsame⟩ := hvw
  have hvregs : RegsBut s v [DRAM_TRN_CTRL.BUSY.addr] := fun a ha => by
    have hne : a ≠ DRAM_TRN_CTRL.BUSY.addr := by simpa using ha
    rw [hv]
    exact (State.word_setFld_ne (u.setFlag DRAM_TRN_CTRL.BUSY false) DRAM_TRN_CTRL.DONE _ hne).trans
      ((State.word_setFld_ne u DRAM_TRN_CTRL.BUSY _ hne).trans (State.word_congr (by rw [hframe]) a))
  rw [← hw, ← hu]
  refine ⟨hun.op, hun.held.trans ?_, ?_, ?_, fun a ha => (State.word_congr hregs a).trans (hvregs a ha), fun h9 => ?_, fun a n => ?_⟩
  · rw [hv, hframe]
    rfl
  · rw [State.flag, State.fld_congr hregs, hv]
    show (((u.setFlag DRAM_TRN_CTRL.BUSY false).setFlag DRAM_TRN_CTRL.DONE true).flag DRAM_TRN_CTRL.BUSY) = false
    rw [State.setFlag, State.flag_setFld_apart _ _ _ _ (by decide) (by decide)]
    exact State.flag_setFlag_same u DRAM_TRN_CTRL.BUSY false (by decide) (by decide)
  · rw [State.flag, State.fld_congr hregs, hv]
    exact State.flag_setFlag_same (u.setFlag DRAM_TRN_CTRL.BUSY false) DRAM_TRN_CTRL.DONE true (by decide) (by decide)
  · rw [hsame h9, hv, hframe]
    rfl
  · have hsc : w.scratch = u.scratch ∧ w.scratchLost = u.scratchLost := by
      rw [hun.state, hv]
      exact ⟨rfl, rfl⟩
    simp only [State.scratchBytes, State.scratchByte, hsc.1, hsc.2]

/-- A helper's end (R390, R391). -/
theorem exec_dramTrnDone_shows {s : State} {op : Nat} (hop : s.mem.trnOp = some op) (records : List TrnRecord) :
    ∃ t, exec (.dramTrnDone records) s = .next t ∧ t.mem.trnOp = none ∧ t.flag DRAM_TRN_CTRL.BUSY = false ∧
      t.flag DRAM_TRN_CTRL.DONE = true ∧ t.mem.held = [] ∧
      (s.mem.held = [] → RegsBut s t [DRAM_TRN_CTRL.BUSY.addr, DRAM_STATUS.DRIFT.addr]) ∧
      (3 ≤ op → ∀ c : Fin 16, s.mem.trnCh.testBit c.val = true → t.scratchBytes (s.mem.trnArgs.addr - 0x01000000 + 32 * c.val) 32 =
        recordTrn op (sweepValues s.mem.trnArgs.arg) (records.getD c trnNone) (trnAnswer op s c (records.getD c trnNone))) := by
  obtain ⟨w, hw⟩ : ∃ w, w = trnWritten op records s := ⟨_, rfl⟩
  obtain ⟨hwop, hwheld, hbusy, hdone, hregs, -, hbytes⟩ := trnWritten_shows op records s
  rw [← hw] at hwop hwheld hbusy hdone hregs hbytes
  have hun : Unheld (setMem { w.mem with held := [] } w) (heldWritten w) := .heldWritten hwop
  obtain ⟨hsc, hlost, -, hheld, htop, hdrift⟩ := trnRetracked_kept op (trnChs s) (heldWritten w)
  have hflag : ∀ f : Fld, f.addr ∉ checkRegs → f.addr ≠ DRAM_STATUS.DRIFT.addr →
      (trnRetracked op (trnChs s) (heldWritten w)).flag f = w.flag f := fun f h1 h2 => by
    rw [State.flag, State.flag, State.fld_congr_word (hdrift f.addr (by simpa using h2)), hun.fld h1]
    rfl
  refine ⟨_, hw ▸ exec_dramTrnDone hop records, htop.trans hun.op, (hflag _ (by decide) (by decide)).trans hbusy,
    (hflag _ (by decide) (by decide)).trans hdone, hheld.trans hun.held, fun hnone a ha => ?_, fun ho c hc => ?_⟩
  · rw [List.mem_cons, List.mem_singleton, not_or] at ha
    have hno : heldWritten w = setMem { w.mem with held := [] } w := by
      rw [heldWritten, hwheld, hnone]
      rfl
    rw [hdrift a (by simpa using ha.2), hno]
    exact hregs a (by simpa using ha.1)
  · have hmem : c.val ∈ trnChs s := List.mem_filter.2 ⟨List.mem_range.2 c.isLt, hc⟩
    have hs : (heldWritten w).scratch = w.scratch ∧ (heldWritten w).scratchLost = w.scratchLost := by
      rw [hun.state]
      exact ⟨rfl, rfl⟩
    rw [← trnRecorded_bytes ho (s.mem.trnArgs.addr - 0x01000000) (sweepValues s.mem.trnArgs.arg) records
      (List.nodup_range.filter _) hmem, ← trnChs, ← hbytes]
    simp only [State.scratchBytes, State.scratchByte, hsc, hlost, hs.1, hs.2]

/-- MRR's record has the value that the device gives (R390). -/
theorem exec_dramTrnDone_mrr {s : State} {records : List TrnRecord} {c : Fin 16} {r : TrnRecord} (hop : s.mem.trnOp = some 3)
    (hch : s.mem.trnCh = 2 ^ c.val) (hr : records[c.val]? = some r) (hno : keyGet s.mem.modeRegs (trnRegister c s) = none) :
    ∃ t, exec (.dramTrnDone records) s = .next t ∧
      (t.scratchBytes (s.mem.trnArgs.addr - 0x01000000 + 32 * c.val) 32).getD 0x11 0 = r.mr := by
  obtain ⟨t, hexec, -, -, -, -, -, hrec⟩ := exec_dramTrnDone_shows hop records
  refine ⟨t, hexec, ?_⟩
  have hget : records.getD c.val trnNone = r := by rw [List.getD, hr, Option.getD_some]
  have hans : trnAnswer 3 s c r = r.mr.toNat := by rw [trnAnswer, if_pos rfl, hno, Option.getD_none]
  rw [hrec (by decide) c (by rw [hch]; exact Nat.testBit_two_pow_self), hget, hans]
  have hbyte : ∀ (pre : List Byte), pre.length = 17 → (padTo 32 (pre ++ leBytes 1 r.mr.toNat)).getD 0x11 0 = r.mr := fun pre hp => by
    have hle : leBytes 1 r.mr.toNat = [r.mr] := by simp [leBytes]
    have htake : (pre ++ [r.mr]).take 32 = pre ++ [r.mr] := List.take_of_length_le (by simp [hp])
    rw [padTo, hle, htake, List.getD, List.append_assoc, List.getElem?_append_right (by omega), hp]
    rfl
  exact hbyte _ (by simp [length_leBytes])

/-- A write that waited for the helper is done (R390). -/
theorem exec_dramTrnDone_writes {s : State} (records : List TrnRecord) {op : Nat} {w : HeldWrite} (hop : s.mem.trnOp = some op) (h9 : op ≠ 9)
    (hheld : s.mem.held = [w]) (hp : w.poison = false) (hf : s.fld DRAM_MAP.FENCED = 0) :
    ∃ t, exec (.dramTrnDone records) s = .next t ∧ t.dramBytes w.at_ w.bytes.length = w.bytes := by
  obtain ⟨u, hu⟩ : ∃ u, u = trnWritten op records s := ⟨_, rfl⟩
  obtain ⟨huop, huheld, -, -, hregs, -, -⟩ := trnWritten_shows op records s
  rw [← hu] at huop huheld hregs
  obtain ⟨v, hv⟩ : ∃ v, v = setMem { u.mem with held := [] } u := ⟨_, rfl⟩
  have hvf : v.fld DRAM_MAP.FENCED = 0 := by
    rw [hv]
    exact (State.fld_congr_word (f := DRAM_MAP.FENCED) (hregs DRAM_MAP.FENCED.addr (by decide))).trans hf
  have hwritten : heldWritten u = v.writeDram w.at_ w.bytes := by
    rw [heldWritten, huheld, hheld, hv, List.foldl_cons, List.foldl_nil, if_neg (by simp [hp])]
  have hdram : (heldWritten u).dram = writeList 0 v.dram w.at_ w.bytes := by
    rw [hwritten]
    exact if_pos ⟨hvf, by rw [hv]; exact huop⟩
  have hun : Unheld v (heldWritten u) := hv ▸ .heldWritten huop
  obtain ⟨-, -, hdr, -, -, hdrift⟩ := trnRetracked_kept op (trnChs s) (heldWritten u)
  refine ⟨_, hu ▸ exec_dramTrnDone hop records, ?_⟩
  have hft : (trnRetracked op (trnChs s) (heldWritten u)).fld DRAM_MAP.FENCED = 0 := by
    rw [State.fld_congr_word (f := DRAM_MAP.FENCED) (hdrift _ (by decide)), hun.fld (f := DRAM_MAP.FENCED) (by decide), hvf]
  rw [dramBytes_eq hft, hdr, hdram]
  exact readList_writeList_same ..

/-! ### Sweeps -/

/-- A sweep goes from FROM to TO in steps of STEP (R391). -/
theorem sweepValues_spec (arg : Word) : (∀ v ∈ sweepValues arg, written arg DRAM_TRN_ARG.FROM ≤ v ∧
      v ≤ max (written arg DRAM_TRN_ARG.FROM) (written arg DRAM_TRN_ARG.TO) ∧
      (v - written arg DRAM_TRN_ARG.FROM) % max 1 (written arg DRAM_TRN_ARG.STEP) = 0) ∧
    written arg DRAM_TRN_ARG.FROM ∈ sweepValues arg := by
  obtain ⟨a, ha⟩ : ∃ a, a = written arg DRAM_TRN_ARG.FROM := ⟨_, rfl⟩
  obtain ⟨b, hb⟩ : ∃ b, b = written arg DRAM_TRN_ARG.TO := ⟨_, rfl⟩
  obtain ⟨k, hk⟩ : ∃ k, k = max 1 (written arg DRAM_TRN_ARG.STEP) := ⟨_, rfl⟩
  have hvals : sweepValues arg = (List.range ((b - a) / k + 1)).map (fun i => a + i * k) := by rw [ha, hb, hk]; rfl
  rw [← ha, ← hb, ← hk, hvals]
  refine ⟨fun v hv => ?_, List.mem_map.2 ⟨0, List.mem_range.2 (Nat.succ_pos _), by simp⟩⟩
  obtain ⟨i, hi, rfl⟩ := List.mem_map.1 hv
  have hle : i ≤ (b - a) / k := Nat.le_of_lt_succ (List.mem_range.1 hi)
  have hmul : i * k ≤ b - a := (Nat.mul_le_mul_right k hle).trans (Nat.div_mul_le_self ..)
  exact ⟨Nat.le_add_right .., by omega, by rw [Nat.add_sub_cancel_left, Nat.mul_mod_left]⟩

/-- The runs of a sweep with the one that is still open at its head: their values are those that pass. -/
def openRuns (l : List (Nat × Nat)) : List (List Nat) :=
  l.foldr (fun e acc => if e.2 = 0 then (e.1 :: acc.headD []) :: acc.tail else [] :: acc) [[]]

theorem openRuns_flatten (l : List (Nat × Nat)) : (openRuns l).flatten = (l.filter (fun e => e.2 = 0)).map (fun e => e.1) ∧ openRuns l ≠ [] := by
  induction l with
  | nil => exact ⟨rfl, nofun⟩
  | cons e l ih =>
    obtain ⟨hflat, hne⟩ := ih
    have heq : openRuns (e :: l) = if e.2 = 0 then (e.1 :: (openRuns l).headD []) :: (openRuns l).tail else [] :: openRuns l := rfl
    obtain ⟨r, rs, hr⟩ := List.exists_cons_of_ne_nil hne
    rw [hr] at heq hflat
    rw [heq]
    by_cases h : e.2 = 0
    · rw [if_pos h]
      exact ⟨by simpa [h] using hflat, nofun⟩
    · rw [if_neg h]
      exact ⟨by simpa [h] using hflat, nofun⟩

theorem flatten_filter_nonempty (l : List (List Nat)) : (l.filter (fun r => !r.isEmpty)).flatten = l.flatten := by
  induction l with
  | nil => rfl
  | cons r l ih => cases r <;> simp [ih]

/-- A list of runs has a longest one. -/
theorem longest_exists {l : List (List Nat)} (h : l ≠ []) : l.filter (fun r => l.all (fun q => decide (q.length ≤ r.length))) ≠ [] := by
  obtain ⟨x, hx⟩ := List.exists_mem_of_ne_nil l h
  obtain ⟨r, hr, hmax⟩ := l.toFinset.exists_max_image List.length ⟨x, List.mem_toFinset.2 hx⟩
  simp only [List.mem_toFinset] at hr hmax
  exact List.ne_nil_of_mem (List.mem_filter.2 ⟨hr, List.all_eq_true.2 fun q hq => decide_eq_true (hmax q hq)⟩)

/-- A record names the ends of a longest passing run (R391). -/
theorem passEnds_spec (l : List (Nat × Nat)) (tie : Nat) : (passRuns l).flatten = (l.filter (fun e => e.2 = 0)).map (fun e => e.1) ∧
    (passRuns l = [] → passEnds (passRuns l) tie = (0xFFFF, 0xFFFF)) ∧
    (passRuns l ≠ [] → ∃ r ∈ passRuns l, r.head? = some (passEnds (passRuns l) tie).1 ∧
      r.getLast? = some (passEnds (passRuns l) tie).2 ∧ ∀ q ∈ passRuns l, q.length ≤ r.length) := by
  have hruns : passRuns l = (openRuns l).filter (fun r => !r.isEmpty) := rfl
  refine ⟨by rw [hruns, flatten_filter_nonempty, (openRuns_flatten l).1], fun h => by rw [h]; rfl, fun h => ?_⟩
  obtain ⟨long, hlong⟩ : ∃ long, long = (passRuns l).filter (fun r => (passRuns l).all (fun q => decide (q.length ≤ r.length))) := ⟨_, rfl⟩
  have hpos : 0 < long.length := List.length_pos_iff.2 (hlong ▸ longest_exists h)
  have hlt : tie % long.length < long.length := Nat.mod_lt _ hpos
  obtain ⟨r, hr⟩ : ∃ r, long[tie % long.length]? = some r := ⟨_, List.getElem?_eq_getElem hlt⟩
  have hmem : r ∈ long := List.mem_of_getElem? hr
  rw [hlong, List.mem_filter] at hmem
  obtain ⟨hin, hmax⟩ := hmem
  have hne : r ≠ [] := by
    rintro rfl
    rw [hruns] at hin
    exact absurd (List.mem_filter.1 hin).2 (by simp)
  obtain ⟨v, rest, rfl⟩ := List.exists_cons_of_ne_nil hne
  have hends : passEnds (passRuns l) tie = (v, (v :: rest).getLastD v) := by
    unfold passEnds
    rw [← hlong]
    dsimp only
    rw [List.getD, hr, Option.getD_some]
  refine ⟨_, hin, by rw [hends]; rfl, ?_, fun q hq => of_decide_eq_true (List.all_eq_true.1 hmax q hq)⟩
  rw [hends, List.getLastD_eq_getLast?]
  simp [List.getLast?_cons]

/-- Settles O44, a lemma for each clause. -/
theorem dramMapAndTraining : Obligations.DramMapAndTraining := by
  unfold Obligations.DramMapAndTraining
  refine ⟨?_, fun s retire h1 h2 h3 h4 => exec_dramCommit h1 h2 h3 h4, fun s retire h => exec_dramCommit_again retire h,
    fun s h => exec_dramInitDone h, fun s retire h1 h2 => exec_dramFence_early h1 h2, fun s g h1 h2 h3 h4 => exec_dramFence h1 h2 h3 h4,
    exec_dramCounterClear, ?_, fun s rank ch op h1 h2 => exec_verify_refused rank ch h1 h2, ?_,
    fun s records c r h1 h2 h3 h4 => exec_dramTrnDone_mrr h1 h2 h3 h4,
    fun s records op w h1 h2 h3 h4 h5 => exec_dramTrnDone_writes records h1 h2 h3 h4 h5, sweepValues_spec, passEnds_spec⟩
  · rintro s o p ho rfl
    obtain ⟨hsplit, hbyte, hburst, hrow⟩ := dramPlace_splits ho
    exact ⟨hsplit, hbyte, hburst, hrow, dramPlace_bank s o⟩
  · intro s rank ch c op h1 h2 h3 h4 h5 h6 hc
    have hexec : exec c s = .next (trnStart op rank ch s) ∧ 1 ≤ op ∧ op ≤ 9 := by
      simp only [List.mem_cons, Prod.mk.injEq, List.not_mem_nil, or_false] at hc
      rcases hc with ⟨rfl, rfl⟩ | ⟨rfl, rfl⟩ | ⟨rfl, rfl⟩ | ⟨rfl, rfl⟩ | ⟨rfl, rfl⟩ | ⟨rfl, rfl⟩ | ⟨rfl, rfl⟩ | ⟨rfl, rfl⟩ | ⟨rfl, rfl⟩ <;>
        exact ⟨rfl, by decide, by decide⟩
    exact ⟨_, hexec.1, trnStart_starts hexec.2.1 hexec.2.2 rank ch h1 h2 h3 h4 h5 h6⟩
  · intro s records op h1 _ h4
    obtain ⟨t, hexec, hop, hbusy, hdone, hheld, hregs, hrec⟩ := exec_dramTrnDone_shows h1 records
    refine ⟨t, hexec, hop, hbusy, hdone, hheld, hregs, fun c hc => ?_⟩
    rw [hrec (by omega) c hc, trnAnswer, if_neg (by omega)]

end Sys2Proof.Machine
end


section
/-! PROOFS. Frames and takes of the magazines while frames become final (R314, R319, R324). -/

namespace Sys2Proof.Machine

/-! ### Takes that go on -/

/-- No magazine of `t` takes frames that did not in `s`. -/
structure FewerTakes (s t : State) : Prop where
  takes : ∀ j, magTakes t j = true → magTakes s j = true

namespace FewerTakes

variable {s t u : State}

theorem of_port (h : ∀ j, (magPort t j).take = (magPort s j).take ∨ (magPort t j).take = none) : FewerTakes s t := by
  refine ⟨fun j hj => ?_⟩
  rw [magTakes] at hj ⊢
  obtain h | h := h j <;> rw [h] at hj
  · exact hj
  · cases hj

theorem of_ports (h : t.mag.ports = s.mag.ports) : FewerTakes s t := of_port fun j => .inl (by rw [magPort, magPort, h])

theorem of_mag (h : t.mag = s.mag) : FewerTakes s t := of_ports (by rw [h])

theorem refl (s : State) : FewerTakes s s := ⟨fun _ => id⟩

theorem trans (h : FewerTakes s t) (k : FewerTakes t u) : FewerTakes s u := ⟨fun j hj => h.takes j (k.takes j hj)⟩

theorem after (k : FewerTakes t u) (h : FewerTakes s t) : FewerTakes s u := h.trans k

theorem ite {p : Prop} [Decidable p] (h : p → FewerTakes s t) (k : ¬p → FewerTakes s u) : FewerTakes s (if p then t else u) := by
  split <;> rename_i hp
  · exact h hp
  · exact k hp

theorem foldl {α : Type} (f : State → α → State) (l : List α) (h : ∀ a s, FewerTakes s (f s a)) (s : State) :
    FewerTakes s (l.foldl f s) := by
  induction l generalizing s with
  | nil => exact refl s
  | cons a l ih => exact (h a s).trans (ih (f s a))

theorem closed (h : FewerTakes s t) {j : Nat} (hs : magTakes s j = false) : magTakes t j = false :=
  Bool.eq_false_iff.2 fun ht => Bool.eq_false_iff.1 hs (h.takes j ht)

/-! ### Domains that go off -/

theorem giveBack (o : HeadOut) (s : State) : FewerTakes s (giveBack o s) := by
  unfold Machine.giveBack releaseBuf
  split
  · exact .of_mag rfl
  · exact .refl s

theorem poolChange (h : Nat) (f : PoolHandle → PoolHandle) (s : State) : FewerTakes s (poolChange h f s) := by
  unfold Machine.poolChange
  split
  · exact .refl s
  · extract_lets y freed y' ps u
    have hu : FewerTakes s u := .of_mag rfl
    have hv : FewerTakes u (if freed then creditReturn 9 1 u else u) := .ite (fun _ => .of_mag rfl) fun _ => .refl u
    exact (hu.trans hv).trans (.of_mag rfl)

theorem offPipe (s : State) : FewerTakes s (offPipe s) := by
  unfold Machine.offPipe
  extract_lets held u hs v
  have hu : FewerTakes s u := .foldl _ _ (fun p s => .of_mag (creditReturn_mag _ _ s)) s
  have hv : FewerTakes u v := .foldl _ _ (fun h s => .poolChange h _ s) u
  exact (hu.trans hv).trans (.of_mag rfl)

theorem lanesStop (ls : List Nat) (s : State) : FewerTakes s (lanesStop ls s) := .of_mag (lanesStop_mag ls s)

theorem offMag (k : Nat) (s : State) : FewerTakes s (offMag k s) := by
  unfold Machine.offMag
  refine .after (.lanesStop ..) (.of_port fun j => ?_)
  simp only [magPort, List.getElem?_set]
  by_cases hj : k = j
  · by_cases hk : k < s.mag.ports.length
    · rw [if_pos hj, if_pos hk]
      exact .inr rfl
    · rw [if_pos hj, if_neg hk]
      exact .inr rfl
  · rw [if_neg hj]
    exact .inl rfl

theorem hiddenOff (d : Nat) (s : State) : FewerTakes s (hiddenOff d s) := by
  unfold Machine.hiddenOff
  exact .ite (fun _ => .of_mag rfl) fun _ => .ite (fun _ => .of_mag rfl) fun _ =>
    .ite (fun _ => .ite (fun _ => .refl s) fun _ => .offPipe s) fun _ => .ite (fun _ => .of_mag rfl) fun _ =>
    .ite (fun _ => .ite (fun _ => .refl s) fun _ => .of_mag rfl) fun _ =>
    .ite (fun _ => .after (.foldl _ _ (fun o s => .giveBack o s) _) (.of_mag rfl)) fun _ =>
    .ite (fun _ => .of_mag rfl) fun _ => .ite (fun _ => .of_mag rfl) fun _ =>
    .ite (fun _ => .ite (fun _ => .of_mag rfl) fun _ => .of_mag rfl) fun _ => .ite (fun _ => .offMag ..) fun _ =>
    .ite (fun _ => .after (.lanesStop ..) (.of_mag rfl)) fun _ => .ite (fun _ => .after (.lanesStop ..) (.of_mag rfl)) fun _ =>
    .ite (fun _ => .of_mag rfl) fun _ => .ite (fun _ => .of_mag rfl) fun _ => .ite (fun _ => .of_mag rfl) fun _ => .refl s

theorem domainOff (d : Nat) (s : State) : FewerTakes s (domainOff d s) := by
  unfold Machine.domainOff
  refine .ite (fun _ => ?_) fun _ => .refl s
  extract_lets t
  have ht : FewerTakes s t := .after (.hiddenOff ..) (.of_mag rfl)
  have hkeeps : ∀ v, FewerTakes v (domainKeeps d s v) := fun v =>
    .ite (fun _ => .of_mag rfl) fun _ => .ite (fun _ => .of_mag rfl) fun _ => .refl v
  exact .after (hkeeps _) (ht.trans (.of_mag rfl))

/-! ### Events -/

theorem darkHeld (cause : DarkCause) (s : State) : FewerTakes s (darkHeld cause s) := by
  rw [darkHeld_eq]
  obtain ⟨u, hu⟩ : ∃ u, u = domainsOff allDomains (abortSession (abandonTransition s)) := ⟨_, rfl⟩
  have hoff : FewerTakes s u := hu ▸ .after (.foldl _ _ (fun d s => .domainOff d s) _) (.of_mag rfl)
  rw [← hu]
  exact hoff.trans (.of_mag rfl)

theorem stopHeve (e : Nat) (s : State) : FewerTakes s (stopHeve e s) := by
  unfold Machine.stopHeve
  extract_lets h srcs u
  have hu : FewerTakes s u := .after (.foldl _ _ (fun o s => .giveBack o s) _) (.of_mag rfl)
  exact hu.trans (.of_mag rfl)

theorem safeStateEnter (s : State) : FewerTakes s (safeStateEnter s) := by
  unfold Machine.safeStateEnter
  extract_lets u v w
  have hv : FewerTakes s v := .of_mag rfl
  have hw : FewerTakes v w := .after (.stopHeve ..) (.after (.stopHeve ..) (.of_ports rfl))
  exact (hv.trans hw).trans (.of_mag rfl)

theorem recordEvent (e : Event) (s : State) : FewerTakes s (recordEvent e s) := by
  unfold Machine.recordEvent
  split
  · exact .of_mag rfl
  · exact .ite (fun _ => .of_mag rfl) fun _ => .of_mag rfl

theorem latchFatal (e : Event) (s : State) : FewerTakes s (latchFatal e s) := .ite (fun _ => .of_mag rfl) fun _ => .refl s

theorem postEvent (e : Event) (s : State) : FewerTakes s (postEvent e s) := by
  have hreact : ∀ n v, FewerTakes v (fatalReact n e v) := fun n v =>
    .ite (fun _ => .refl v) fun _ => .ite (fun _ => .of_mag rfl) fun _ => .ite (fun _ => .of_mag rfl) fun _ =>
      .ite (fun _ => .after (.darkHeld ..) (.of_mag rfl)) fun _ => .after (.safeStateEnter _) (.after (.latchFatal ..) (.recordEvent ..))
  have ht : FewerTakes s (Machine.latchFatal e (Machine.recordEvent e s)) := .after (.latchFatal ..) (.recordEvent ..)
  exact .ite (fun _ => ht.trans (hreact ..)) fun _ => ht

end FewerTakes

/-! ### Frames that wait for magazines -/

/-- No frame of `t` waits for a magazine that its frame in `s` did not wait for, and no magazine takes frames that did not. -/
structure Abating (s t : State) : Prop where
  takes : FewerTakes s t
  await : ∀ y ∈ t.ledger.frames, ∃ x ∈ s.ledger.frames, x.num = y.num ∧ y.await ⊆ x.await

namespace Abating

variable {s t u : State}

theorem of_frames (hm : t.mag = s.mag) (hf : t.ledger.frames = s.ledger.frames) : Abating s t :=
  ⟨.of_mag hm, fun y hy => ⟨y, hf ▸ hy, rfl, fun _ => id⟩⟩

theorem refl (s : State) : Abating s s := of_frames rfl rfl

theorem trans (h : Abating s t) (k : Abating t u) : Abating s u := by
  refine ⟨h.takes.trans k.takes, fun z hz => ?_⟩
  obtain ⟨y, hy, hn, hyz⟩ := k.await z hz
  obtain ⟨x, hx, hn', hxy⟩ := h.await y hy
  exact ⟨x, hx, hn'.trans hn, fun _ ha => hxy (hyz ha)⟩

theorem after (k : Abating t u) (h : Abating s t) : Abating s u := h.trans k

theorem ite {p : Prop} [Decidable p] (h : p → Abating s t) (k : ¬p → Abating s u) : Abating s (if p then t else u) := by
  split <;> rename_i hp
  · exact h hp
  · exact k hp

theorem foldl {α : Type} (f : State → α → State) (l : List α) (h : ∀ a s, Abating s (f s a)) (s : State) : Abating s (l.foldl f s) := by
  induction l generalizing s with
  | nil => exact refl s
  | cons a l ih => exact (h a s).trans (ih (f s a))

/-- A frame that no longer waits for a magazine does not wait for it again. -/
theorem settled (h : Abating s t) {num k : Nat} (hs : ∀ x ∈ s.ledger.frames, x.num = num → k ∉ x.await) :
    ∀ y ∈ t.ledger.frames, y.num = num → k ∉ y.await := by
  intro y hy hn hk
  obtain ⟨x, hx, hxn, hsub⟩ := h.await y hy
  exact hs x hx (hxn.trans hn) (hsub hk)

theorem postEvent (e : Event) (s : State) : Abating s (postEvent e s) := by
  refine ⟨.postEvent e s, fun y hy => ?_⟩
  obtain ⟨⟨g, hf, hg⟩, -⟩ := postEvent_outage e s
  rw [hf] at hy
  obtain ⟨x, hx, rfl⟩ := List.mem_map.1 hy
  obtain h | h := hg x <;> rw [h] <;> exact ⟨x, hx, rfl, fun _ => id⟩

theorem postFlag (f : Fld) (n : Nat) (cls : EventClass) (block inst detail : Nat) (s : State) :
    Abating s (postFlag f n cls block inst detail s) := .after (.postEvent ..) (.of_frames rfl rfl)

theorem modFrame (num : Nat) (f : Frame → Frame) (s : State) (hf : ∀ x, (f x).num = x.num ∧ (f x).await ⊆ x.await) :
    Abating s (modFrame num f s) := by
  refine ⟨.of_mag rfl, fun y hy => ?_⟩
  obtain ⟨x, hx, rfl⟩ := List.mem_map.1 hy
  by_cases h : x.num = num
  · rw [if_pos h]
    exact ⟨x, hx, (hf x).1.symm, (hf x).2⟩
  · rw [if_neg h]
    exact ⟨x, hx, rfl, fun _ => id⟩

/-! ### Memory and links -/

theorem dramCheck (b : Nat) (s : State) : Abating s (dramCheck b s) := by
  unfold Machine.dramCheck
  extract_lets ch a
  refine .ite (fun _ => .refl s) fun _ => ?_
  split
  · exact .refl s
  · exact .of_frames rfl rfl
  · exact .after (.postFlag ..) (.of_frames rfl rfl)

theorem writeDram (a : Nat) (bs : List Byte) (s : State) : Abating s (s.writeDram a bs) := by
  obtain ⟨u, hu⟩ : ∃ u, u = (partBlocks a bs.length).foldl (fun s b => Machine.dramCheck b s) (dramAccess a bs.length s) := ⟨_, rfl⟩
  have h : Abating s u := hu ▸ Abating.trans (t := dramAccess a bs.length s) (.of_frames rfl rfl) (.foldl _ _ (fun b s => .dramCheck b s) _)
  have ht : ∃ m d, s.writeDram a bs = { u with mem := m, dram := d } := ⟨_, _, by rw [hu]; rfl⟩
  obtain ⟨m, d, ht⟩ := ht
  rw [ht]
  exact h.trans (.of_frames rfl rfl)

theorem linkSend (b : FlitBody) (s : State) : Abating s (linkSend b s) := by
  have hsend : ∀ p, Abating s (kSend p [b] s) := fun p => by
    obtain ⟨⟨x, k, c, h⟩, -⟩ : Pumped s (kSend p [b] s) := (Driven.modKPort ..).pumped.trans (kPump_pumped ..)
    exact .of_frames (by rw [h]) (by rw [h])
  exact .ite (fun _ => hsend 0) fun _ => .ite (fun _ => hsend 1) fun _ => .refl s

/-! ### Records are written out -/

theorem spillStore (r : List Byte) (s : State) : Abating s (spillStore r s) := by
  unfold Machine.spillStore
  refine .ite (fun _ => .refl s) fun _ => .ite (fun _ => .postFlag ..) fun _ => ?_
  extract_lets wr rd t l u
  have hu : Abating s u := by
    unfold u
    exact .ite (fun _ => .after (.postFlag ..) (.of_frames rfl rfl)) fun _ => .refl s
  exact hu.trans ((Abating.writeDram _ _ u).trans (.of_frames rfl rfl))

theorem absorbFinal (r coded : List Byte) (s : State) : Abating s (absorbFinal r coded s) := by
  unfold Machine.absorbFinal
  have hfault : Abating s (chainFault s) :=
    Abating.trans (t := endSegment s) (.of_frames rfl rfl) (.postFlag HASH_EVENT.CHAIN_FAULT HASH_EVENT.CHAIN_FAULT.lo .fatal 10 0xFF 0 _)
  exact .ite (fun _ => .refl s) fun _ => .ite (fun _ => hfault) fun _ => .of_frames rfl rfl

theorem spillFrame (f : Frame) (s : State) : Abating s (spillFrame f s) := by
  unfold Machine.spillFrame
  extract_lets r u
  have hu : Abating s u := .spillStore r s
  exact (hu.trans (.ite (fun _ => .refl u) fun _ => .absorbFinal ..)).trans (.modFrame _ _ _ fun _ => ⟨rfl, fun _ => id⟩)

theorem ledgerForget (s : State) : Abating s (ledgerForget s) := by
  unfold Machine.ledgerForget
  extract_lets l u
  have hu : Abating s u := .foldl _ _ (fun f s => .of_frames (t := rememberGone f s) rfl rfl) s
  exact ⟨⟨hu.takes.takes⟩, fun y hy => ⟨y, (List.mem_filter.1 hy).1, rfl, fun _ => id⟩⟩

theorem spillSettled (s : State) : Abating s (spillSettled s) := by
  unfold Machine.spillSettled
  extract_lets ready l u
  have hu : Abating s u := .of_frames rfl rfl
  refine (hu.trans (.foldl _ _ (fun n s => ?_) u)).trans (.ledgerForget _)
  cases frameOf s n with
  | none => exact .refl s
  | some f => exact .spillFrame f s

/-! ### Frames become final -/

theorem freeSlot (f : Frame) (s : State) : Abating s (freeSlot f s) := by
  unfold Machine.freeSlot
  cases f.slot with
  | none => exact .refl s
  | some k =>
    have h : Abating s (Machine.modFrame f.num (fun x => { x with slot := none }) (modPart f.port (fun q => { q with freed := q.freed ++ [k] }) s)) :=
      .after (.modFrame _ _ _ fun _ => ⟨rfl, fun _ => id⟩) (.of_frames rfl rfl)
    exact h.trans (.of_frames rfl rfl)

theorem finalise (num disp reason : Nat) (s : State) : Abating s (finalise num disp reason s) := by
  unfold Machine.finalise
  cases frameOf s num with
  | none => exact .refl s
  | some f =>
    refine .ite (fun _ => .refl s) fun _ => ?_
    extract_lets u l v l' w hash x y z
    have hu : Abating s u := .modFrame _ _ _ fun _ => ⟨rfl, List.nil_subset _⟩
    have hw : Abating u w := .of_frames rfl rfl
    have hx : Abating w x := (Abating.freeSlot f w).trans (.of_frames rfl rfl)
    have hy : Abating x y := .ite (fun _ => .linkSend ..) fun _ => .refl x
    have hz : Abating y z := by
      unfold z
      cases f.origin with
      | none => exact .refl y
      | some n => exact .linkSend ..
    exact ((((hu.trans hw).trans hx).trans hy).trans hz).trans ((Abating.spillSettled z).trans (.of_frames rfl rfl))

theorem settleWrites (num : Nat) (s : State) : Abating s (settleWrites num s) := by
  unfold Machine.settleWrites
  cases frameOf s num with
  | none => exact .refl s
  | some f =>
    exact .ite (fun _ => .ite (fun _ => .finalise ..) fun _ => .ite (fun _ => .finalise ..) fun _ => .ite (fun _ => .finalise ..) fun _ =>
      .ite (fun _ => .finalise ..) fun _ => .finalise ..) fun _ => .refl s

theorem settleDest (num d : Nat) (ok : Bool) (s : State) : Abating s (settleDest num d ok s) :=
  .after (.settleWrites ..) (.modFrame _ _ _ fun _ => ⟨rfl, fun _ h => (List.mem_filter.1 h).1⟩)

end Abating

/-- A frame that a magazine has settled waits for it no longer (R319). -/
theorem settleDest_await (num d : Nat) (ok : Bool) (s : State) :
    ∀ x ∈ (settleDest num d ok s).ledger.frames, x.num = num → d ∉ x.await := by
  refine (Abating.settleWrites num _).settled fun x hx hn hd => ?_
  obtain ⟨y, hy, rfl⟩ := List.mem_map.1 hx
  by_cases h : y.num = num
  · rw [if_pos h] at hd
    simp at hd
  · rw [if_neg h] at hn
    exact h hn

/-! ### Magazines that are pumped -/

namespace FewerTakes

variable {s t : State}

theorem modMag {k : Nat} {f : MagPort → MagPort} {s : State}
    (hf : (f (magPort s k)).take.any (fun t => !t.closing) = true → (magPort s k).take.any (fun t => !t.closing) = true) :
    FewerTakes s (modMag k f s) := by
  refine ⟨fun j hj => ?_⟩
  by_cases hk : k < s.mag.ports.length ∧ j = k
  · obtain ⟨hk, rfl⟩ := hk
    rw [magTakes, magPort_modMag_same hk] at hj
    exact hf hj
  · have hp : magPort (Machine.modMag k f s) j = magPort s j := by
      show ((modAt s.mag.ports k f)[j]?).getD magPortInit = _
      rw [getElem?_modAt]
      by_cases hj : j = k
      · rw [if_pos hj, magPort, hj, List.getElem?_eq_none (by omega)]
        rfl
      · rw [if_neg hj, magPort]
    rwa [magTakes, hp] at hj

theorem modMag_take {k : Nat} {f : MagPort → MagPort} (hf : ∀ p, (f p).take = p.take) (s : State) : FewerTakes s (Machine.modMag k f s) :=
  .modMag (by rw [hf]; exact id)

theorem settleDest (num d : Nat) (ok : Bool) (s : State) : FewerTakes s (settleDest num d ok s) := (Abating.settleDest num d ok s).takes

theorem releaseStaged (num : Nat) (s : State) : FewerTakes s (releaseStaged num s) := .of_ports (releaseStaged_staged num s).ports

theorem magSettle (num k : Nat) (ok : Bool) (s : State) : FewerTakes s (magSettle num k ok s) :=
  (FewerTakes.releaseStaged num s).trans (.settleDest ..)

theorem setFlag (s : State) (f : Fld) (b : Bool) : FewerTakes s (s.setFlag f b) := .of_mag (State.setFlag_mag ..)

theorem endMagOp (k : Nat) (fail : Bool) (s : State) : FewerTakes s (endMagOp k fail s) := by
  unfold Machine.endMagOp
  extract_lets u v
  have hu : FewerTakes s u := (FewerTakes.setFlag ..).trans (.modMag_take (f := fun p => { p with op := none }) (fun _ => rfl) _)
  have hv : FewerTakes s v := hu.trans (.setFlag ..)
  exact .ite (fun _ => hv.trans (.setFlag ..)) fun _ => hv

theorem failoverFrame (k num : Nat) (s : State) : FewerTakes s (failoverFrame k num s) := by
  unfold Machine.failoverFrame
  split
  · exact .releaseStaged ..
  · refine .ite (fun _ => .magSettle ..) fun _ => .ite (fun _ => ?_) fun _ => .magSettle ..
    unfold recodeTo
    split <;> exact .of_mag rfl

theorem magDrop (k : Nat) (all : Bool) (s : State) : FewerTakes s (magDrop k all s) := by
  unfold Machine.magDrop
  extract_lets p whole frames again s1 rawc s2 s3 s4 s5
  have h1 : FewerTakes s s1 := by
    refine .modMag fun h => ?_
    revert h
    cases (magPort s k).queue with
    | nil => exact id
    | cons r q =>
      dsimp only
      split
      · rw [Option.any_map]
        exact id
      · exact id
  have h3 : FewerTakes s2 s3 := .ite (fun _ => .endMagOp ..) fun _ => .refl _
  have h4 : FewerTakes s3 s4 := .foldl _ _ (fun _ _ => .magSettle ..) _
  have h5 : FewerTakes s4 s5 := .foldl _ _ (fun _ _ => .failoverFrame ..) _
  have h2 : FewerTakes s1 s2 := .of_mag rfl
  exact ((((h1.trans h2).trans h3).trans h4).trans h5).trans (.foldl _ _ (fun _ _ => .magSettle ..) _)

theorem magEvent (n : Nat) (cls : EventClass) (k : Nat) (s : State) : FewerTakes s (magEvent n cls k s) := .after (.postEvent ..) (.of_mag rfl)

theorem magShow (k : Nat) (s : State) : FewerTakes s (magShow k s) := by
  unfold Machine.magShow
  extract_lets p s1 s2 s3 s4
  have h1 : FewerTakes s s1 := .of_mag rfl
  have h2 : FewerTakes s1 s2 := .of_mag rfl
  have h3 : FewerTakes s2 s3 := .of_mag rfl
  have h4 : FewerTakes s3 s4 := .of_mag rfl
  have h : FewerTakes s s4 := ((h1.trans h2).trans h3).trans h4
  cases p.take with
  | none => exact h
  | some t => exact h.trans (.of_mag rfl)

theorem magFail (k : Nat) (s : State) : FewerTakes s (magFail k s) := by
  unfold Machine.magFail
  extract_lets u v
  have hu : FewerTakes s u := .ite (fun _ => .magEvent ..) fun _ => .refl s
  have hv : FewerTakes u v := .after (.lanesStop ..) (.after (.magEvent ..) (.of_mag rfl))
  exact (hu.trans hv).trans (.after (.magShow ..) (.after (.modMag fun h => by cases h) (.magDrop ..)))

theorem addStage_take (cmds : List NvmeCmd) (e : MagEffect) (p : MagPort) : (addStage cmds e p).take = p.take := by
  unfold addStage
  dsimp only
  split
  · unfold issueStage
    split <;> rfl
  · rfl

theorem finishClose (k : Nat) (s : State) : FewerTakes s (finishClose k s) :=
  .modMag_take (f := fun p => addStage (p.each .smart ++ p.each .flush) .closeEntry { p with queue := [] }) (fun _ => addStage_take ..) s

theorem enqueueIndex (k : Nat) (s : State) : FewerTakes s (enqueueIndex k s) :=
  .ite (fun _ => .modMag_take (f := fun p => { p with queue := p.queue ++ [newRecord 5 0 [] none 0] }) (fun _ => rfl) s) fun _ => .refl s

end FewerTakes

theorem formRecord_mag (t : Take) (r : MagRecord) (s : State) : (formRecord t r s).2.mag = s.mag := by
  unfold formRecord
  split
  · rfl
  · split <;> rfl

/-- Room in another allocation unit does not open a take that closes. -/
theorem findRoom_closing {f n : Nat} {t t' : Take} {x x' : Superblock} (h : findRoom f n t x = .ok t' x') : t'.closing = t.closing := by
  induction f generalizing t x with
  | zero => cases h
  | succ f ih =>
    unfold findRoom at h
    dsimp only at h
    split at h
    · cases h
      rfl
    · split at h
      · cases h
      · split at h
        · exact (ih h).trans rfl
        · split at h
          · cases h
          · exact (ih h).trans rfl

namespace FewerTakes

theorem placeAt {k : Nat} {r : MagRecord} {t : Take} {x : Superblock} {s : State} (h : (magPort s k).take = some t) {t' : Take}
    (hc : t'.closing = t.closing) : FewerTakes s (placeAt k r t' x s) :=
  .modMag (by rw [h, Option.any_some, Option.any_some, hc]; exact id)

theorem magFull (k : Nat) (s : State) : FewerTakes s (magFull k s) := by
  unfold Machine.magFull
  extract_lets u v w
  have hu : FewerTakes s u := .after (.magDrop ..) (.after (.magEvent ..) (.of_mag rfl))
  have hv : FewerTakes u v := .modMag fun h => by
    rw [Option.any_map] at h
    cases hc : (magPort u k).take <;> rw [hc] at h <;> cases h
  have h : FewerTakes s w := (hu.trans hv).trans (.enqueueIndex ..)
  split
  · next t x r rs ht _ _ =>
    have hr := formRecord_mag t r w
    dsimp only
    split
    · next t' x' hroom =>
      exact h.trans (.after (.magShow ..) (.after (.placeAt ((congrArg _ (magPort_of_mag hr k)).trans ht) (findRoom_closing hroom)) (.of_mag hr)))
    · exact h.trans (.after (.finishClose ..) (.of_mag hr))
  · exact h.trans (.finishClose ..)

theorem magPump (k : Nat) (s : State) : FewerTakes s (magPump k s) := by
  unfold Machine.magPump
  split
  · next t x r rs ht _ _ =>
    refine .ite (fun _ => .refl s) fun _ => ?_
    have hr := formRecord_mag t r s
    dsimp only
    split
    · next t' x' hroom =>
      exact .after (.magShow ..) (.after (.placeAt ((congrArg _ (magPort_of_mag hr k)).trans ht) (findRoom_closing hroom)) (.of_mag hr))
    · exact .after (.magFull ..) (.of_mag hr)
    · exact .after (.magFail ..) (.of_mag hr)
  · exact .refl s

end FewerTakes

/-! ### A take closes -/

/-- Once its take begins to close, a magazine takes no more frames (R324). -/
theorem beginClose_closed (k flag : Nat) (s : State) : magTakes (beginClose k flag s) k = false ∧ FewerTakes s (beginClose k flag s) := by
  unfold beginClose
  split
  · next h => exact ⟨h, .refl s⟩
  · extract_lets u v
    have hu : FewerTakes s u := .modMag (by rw [Option.any_map]; exact id)
    have hv : FewerTakes u v := .enqueueIndex ..
    obtain ⟨w, hw⟩ : ∃ w, w = modMag k (fun p => { p with take := p.take.map (fun t => { t with closing := true }) }) v := ⟨_, rfl⟩
    have hnone : ∀ o : Option Take, (o.map fun t => { t with closing := true }).any (fun t => !t.closing) = false := fun o => by
      cases o <;> rfl
    have hvw : FewerTakes v w := hw ▸ .modMag fun h => absurd h (by rw [hnone]; decide)
    have hclosed : magTakes w k = false := by
      by_cases hk : k < v.mag.ports.length
      · rw [magTakes, hw, magPort_modMag_same hk]
        exact hnone _
      · exact hvw.closed (by rw [magTakes, magPort, List.getElem?_eq_none (Nat.not_lt.1 hk)]; rfl)
    rw [← hw]
    exact ⟨(FewerTakes.magPump k w).closed hclosed, ((hu.trans hv).trans hvw).trans (.magPump k w)⟩

end Sys2Proof.Machine
end


section
/-! PROOFS. NVMe commands, record writes and takes of a magazine (R307 to R309, R314, R319, R324, R327). -/

namespace Sys2Proof.Machine

theorem OnlyRegs.setMag {s t : State} {as : List Nat} (h : OnlyRegs s t as) (x : MagState) : OnlyRegs { s with mag := x } (setMag x t) as :=
  ⟨congrArg (fun u : State => { u with mag := x }) h.1, h.2⟩

theorem onlyRegs_addFld (s : State) (f : Fld) (n : Nat) : OnlyRegs s (s.addFld f n) [f.addr] :=
  OnlyRegs.setFld (t := s) ⟨rfl, fun _ _ => rfl⟩ (.head _) _

/-! ### Commands fail, and are issued again -/

theorem magPort_cmds_lt {s : State} {k n : Nat} {c : NvmeCmd} (hc : (magPort s k).cmds[n]? = some c) : k < s.mag.ports.length :=
  ports_lt fun h => by
    rw [h] at hc
    cases hc

/-- A command issued again, and counted in `f`. -/
theorem reissued {s : State} {k n : Nat} {c : NvmeCmd} (hc : (magPort s k).cmds[n]? = some c) (ha : c.again = false) {f : Fld}
    (hf : f.fits = true) (media : Bool) : ∃ t, commandFailed k n c media (s.addFld f 1) = t ∧
      magPort t k = { magPort s k with cmds := modAt (magPort s k).cmds n (fun c => { c with again := true }) } ∧
      t.fld f = min (2 ^ f.width - 1) (s.fld f + 1) ∧ OnlyRegs { s with mag := t.mag } t [f.addr] := by
  refine ⟨_, if_pos ha, ?_, ?_, (onlyRegs_addFld s f 1).setMag _⟩
  · exact magPort_modMag_same (s := s.addFld f 1) (magPort_cmds_lt hc) _
  · exact State.fld_addFld_same s f 1 hf

/-! ### Commands complete -/

section Completion

variable {s : State} {port : Fin 2} {c : NvmeCmd} {d : SmartData} (hcmds : (magPort s port).cmds = [c])

include hcmds

theorem magPort_only_lt : port.val < s.mag.ports.length := ports_lt fun h => by
  rw [h] at hcmds
  cases hcmds

/-- The only command of a port is issued at once, unless it writes a record that is not staged. -/
theorem cmdIssued_only (hr : c.carriesRecord = false) : cmdIssued s port 0 = true := by
  have hdepth : ∀ o : Option Nat, 0 < pairDepth o := fun o => by
    unfold pairDepth
    split <;> omega
  simp [cmdIssued, hcmds, hr, hdepth]

/-- The port without its command. -/
theorem magPort_erased : magPort (modMag port (fun p => { p with cmds := p.cmds.eraseIdx 0 }) s) port = { magPort s port with cmds := [] } := by
  rw [magPort_modMag_same (magPort_only_lt hcmds), hcmds]
  rfl

theorem exec_completed (hi : cmdIssued s port 0 = true) (u : State)
    (hu : commandDone port c d (modMag port (fun p => { p with cmds := p.cmds.eraseIdx 0 }) s) = u) :
    exec (.nvmeCompletion port 0 .success d) s = .next (if c.staged then stageStep port u else u) := by
  show execNvmeCompletion port 0 .success d s = _
  unfold execNvmeCompletion
  simp only [hcmds, hi, hu, List.getElem?_cons_zero, Bool.true_eq_false, if_false]

end Completion

/-- The last write of a frame's record makes it done and counts the frame in the take. -/
theorem recordWritten_frame {s : State} {k : Nat} (hk : k < s.mag.ports.length) {tk : Take} {r : MagRecord} {q : List MagRecord} {f : Nat}
    (ht : (magPort s k).take = some tk) (hq : (magPort s k).queue = r :: q) (hf : r.frame = some f) :
    (magPort (recordWritten k s) k).queue = { r with done := true } :: q ∧
      (magPort (recordWritten k s) k).cmds = (magPort s k).cmds ∧ ∃ x, (magPort (recordWritten k s) k).take = some x ∧
      x.frames = tk.frames + 1 ∧ x.last = f ∧ x.bytes = tk.bytes + 4096 * r.blocks := by
  rw [recordWritten, magPort_modMag_same hk]
  simp only [ht, hq, hf]
  exact ⟨trivial, trivial, _, rfl, rfl, rfl, rfl⟩

theorem writeCompleted_last {s : State} {k : Nat} {c : NvmeCmd} {tk : Take} {r : MagRecord} {q : List MagRecord}
    (hk : k < s.mag.ports.length) (hcmds : (magPort s k).cmds = []) (ht : (magPort s k).take = some tk) (hq : (magPort s k).queue = r :: q)
    (hr : r.type ≠ 5) : ∃ a bs, writeCompleted k c s = recordWritten k (stageBuffers (modMag k (fun p => p.write a bs) s)) := by
  unfold writeCompleted
  simp only [ht, hq]
  refine ⟨_, _, (if_neg ?_).trans (if_neg hr)⟩
  have hport : ∀ a bs, (magPort (stageBuffers (modMag k (fun p => p.write a bs) s)) k).cmds = [] := fun a bs => by
    rw [Staged.port (Staged.stageBuffers ⟨rfl, rfl, rfl, rfl⟩), magPort_modMag_same hk]
    exact hcmds
  rw [hport]
  decide

/-- Staging changes the magazines and the credits only. -/
theorem stageBuffers_frame (s : State) : ∃ x y, stageBuffers s = { s with mag := x, ledger := { s.ledger with credits := y } } := by
  unfold stageBuffers
  extract_lets l out m back more
  exact ⟨_, _, rfl⟩

theorem write_completes {s : State} {port : Fin 2} {c : NvmeCmd} {d : SmartData} {tk : Take} {r : MagRecord} {q : List MagRecord} {f : Nat}
    (hcmds : (magPort s port).cmds = [c]) (huse : c.use = .write) (ht : (magPort s port).take = some tk)
    (hq : (magPort s port).queue = r :: q) (hf : r.frame = some f) (hr : r.type = 1) (hst : c.staged = false)
    (hi : cmdIssued s port 0 = true) :
    ∃ t x, exec (.nvmeCompletion port 0 .success d) s = .next t ∧ (magPort t port).queue = { r with done := true } :: q ∧
      (magPort t port).cmds = [] ∧ (magPort t port).take = some x ∧ x.frames = tk.frames + 1 ∧ x.last = f ∧
      x.bytes = tk.bytes + 4096 * r.blocks ∧
      t = { s with mag := t.mag, ledger := { s.ledger with credits := t.ledger.credits } } := by
  have hk := magPort_only_lt hcmds
  have herased := magPort_erased hcmds
  have hlen := length_modMag port (fun p => { p with cmds := p.cmds.eraseIdx 0 }) s
  obtain ⟨a, bs, hw⟩ := writeCompleted_last (c := c) (tk := tk) (r := r) (q := q) (hlen.symm ▸ hk) (by rw [herased])
    (by rw [herased]; exact ht) (by rw [herased]; exact hq) (by omega)
  obtain ⟨v, hv⟩ : ∃ v, v = stageBuffers (modMag port (fun p => p.write a bs) (modMag port (fun p => { p with cmds := p.cmds.eraseIdx 0 }) s)) := ⟨_, rfl⟩
  have hvp : magPort v port = MagPort.write { magPort s port with cmds := [] } a bs := by
    rw [hv, Staged.port (Staged.stageBuffers ⟨rfl, rfl, rfl, rfl⟩), magPort_modMag_same (hlen.symm ▸ hk), herased]
  have hvk : port.val < v.mag.ports.length := ports_lt fun h => by
    have hq' : (magPort v port).queue = r :: q := by
      rw [hvp]
      exact hq
    rw [h] at hq'
    cases hq'
  have hvs : ∃ x y, v = { s with mag := x, ledger := { s.ledger with credits := y } } := by
    obtain ⟨x, y, h⟩ := stageBuffers_frame (modMag port (fun p => p.write a bs) (modMag port (fun p => { p with cmds := p.cmds.eraseIdx 0 }) s))
    exact ⟨x, y, (hv.trans h).trans rfl⟩
  have hdone : commandDone port c d (modMag port (fun p => { p with cmds := p.cmds.eraseIdx 0 }) s) = recordWritten port v := by
    unfold commandDone
    rw [huse, hv]
    exact hw
  obtain ⟨hqueue, hcmds', x, htake, hframes, hlast, hbytes⟩ := recordWritten_frame (tk := tk) (r := r) (q := q) (f := f) hvk
    (by rw [hvp]; exact ht) (by rw [hvp]; exact hq) hf
  refine ⟨_, x, (exec_completed hcmds hi _ hdone).trans (by rw [hst]; rfl), hqueue, ?_, htake, hframes, hlast, hbytes, ?_⟩
  · rw [hcmds', hvp]
    rfl
  · obtain ⟨y, z, rfl⟩ := hvs
    rfl

/-! ### The stages of a plan -/

theorem stageStep_next {s : State} {k : Nat} {st : MagStage} {l : List MagStage} (hplan : (magPort s k).plan = st :: l)
    (hcmds : (magPort s k).cmds = []) :
    stageStep k s = stageEffect k st.effect (modMag k (fun p => issueStage { p with plan := l }) s) := by
  unfold stageStep
  simp only [hplan, hcmds, List.any_nil, Bool.false_eq_true, if_false]

theorem stage_begins {s : State} {port : Fin 2} {c : NvmeCmd} {d : SmartData} {st nx : MagStage} {l : List MagStage}
    (hcmds : (magPort s port).cmds = [c]) (hst : c.staged = true) (huse : c.use = .flush) (hplan : (magPort s port).plan = st :: nx :: l)
    (heff : st.effect = .none) :
    ∃ t, exec (.nvmeCompletion port 0 .success d) s = .next t ∧ (magPort t port).plan = nx :: l ∧
      (magPort t port).cmds = nx.cmds.map (fun x => { x with staged := true }) ∧ t = { s with mag := t.mag } := by
  have hi := cmdIssued_only hcmds (by rw [NvmeCmd.carriesRecord, huse]; rfl)
  have herased := magPort_erased hcmds
  obtain ⟨u, hu⟩ : ∃ u, u = modMag port (fun p => { p with cmds := p.cmds.eraseIdx 0 }) s := ⟨_, rfl⟩
  rw [← hu] at herased
  have hlen : port.val < u.mag.ports.length := by
    rw [hu, length_modMag]
    exact magPort_only_lt hcmds
  have hdone : commandDone port c d u = u := by
    unfold commandDone
    rw [huse]
  have hstep : stageStep port u = modMag port (fun p => issueStage { p with plan := nx :: l }) u := by
    rw [stageStep_next (l := nx :: l) (by rw [herased]; exact hplan) (by rw [herased]), heff]
    rfl
  have hport := magPort_modMag_same hlen (fun p => issueStage { p with plan := nx :: l })
  rw [herased] at hport
  refine ⟨_, (exec_completed hcmds hi u (hu ▸ hdone)).trans ((congrArg _ (if_pos hst)).trans (congrArg _ hstep)), ?_, ?_, ?_⟩
  · rw [hport]
    rfl
  · rw [hport]
    rfl
  · rw [hu]
    rfl

/-- A port without a take shows that none is open. -/
theorem magShow_closed {s : State} {k : Fin 2} (h : (magPort s k).take = none) : (magShow k s).flag (MAG_STATUS.TAKE_OPEN k) = false := by
  have hn : ∀ k : Fin 2, (MAG_STATUS.TAKE_OPEN k).apart (MAG_TAKE.OPEN k) = true := by decide
  unfold magShow
  simp only [h, Option.isSome_none]
  rw [State.setFlag, State.flag_setFld_apart _ _ _ _ rfl (hn k)]
  exact State.flag_setFlag_same _ (MAG_STATUS.TAKE_OPEN k) false rfl rfl

theorem stageEffect_closed {s : State} {k : Nat} (h : magState s k = 5) :
    stageEffect k .closed s = magShow k (setMagState k 4 (modMag k (fun p => { p with take := none }) s)) := by
  have hm : magState (modMag k (fun p => { p with take := none }) s) k = 5 := h
  unfold stageEffect
  dsimp only
  rw [if_pos hm]

theorem take_closes {s : State} {port : Fin 2} {c : NvmeCmd} {d : SmartData} {st : MagStage}
    (hcmds : (magPort s port).cmds = [c]) (hst : c.staged = true) (huse : c.use = .metadata) (hplan : (magPort s port).plan = [st])
    (heff : st.effect = .closed) (hstate : magState s port = 5) :
    ∃ t, exec (.nvmeCompletion port 0 .success d) s = .next t ∧ (magPort t port).take = none ∧ magState t port = 4 ∧
      t.flag (MAG_STATUS.TAKE_OPEN port) = false ∧ (magPort t port).cmds = [] := by
  have hi := cmdIssued_only hcmds (by rw [NvmeCmd.carriesRecord, huse]; rfl)
  have herased := magPort_erased hcmds
  obtain ⟨u, hu⟩ : ∃ u, u = modMag port (fun p => p.write c.data.1 c.data.2) (modMag port (fun p => { p with cmds := p.cmds.eraseIdx 0 }) s) :=
    ⟨_, rfl⟩
  have hk : port.val < (modMag port (fun p => { p with cmds := p.cmds.eraseIdx 0 }) s).mag.ports.length := by
    rw [length_modMag]
    exact magPort_only_lt hcmds
  have hup : magPort u port = MagPort.write { magPort s port with cmds := [] } c.data.1 c.data.2 := by
    rw [hu, magPort_modMag_same hk, herased]
  have hus : u.regs = s.regs := by
    rw [hu]
    rfl
  have hlen : port.val < u.mag.ports.length := by
    rw [hu, length_modMag]
    exact hk
  have hdone : commandDone port c d (modMag port (fun p => { p with cmds := p.cmds.eraseIdx 0 }) s) = u := by
    unfold commandDone
    rw [huse, hu]
  obtain ⟨v, hv⟩ : ∃ v, v = modMag port (fun p => { p with take := none }) (modMag port (fun p => issueStage { p with plan := [] }) u) := ⟨_, rfl⟩
  have hvp : magPort v port = { MagPort.write { magPort s port with cmds := [] } c.data.1 c.data.2 with plan := [], take := none } := by
    rw [hv, magPort_modMag_same ((length_modMag port _ u).symm ▸ hlen), magPort_modMag_same hlen, hup]
    rfl
  have hust : magState (modMag port (fun p => issueStage { p with plan := [] }) u) port = 5 := (State.fld_congr hus _).trans hstate
  obtain ⟨w, hw⟩ : ∃ w, w = setMagState port 4 v := ⟨_, rfl⟩
  have hstep : stageStep port u = magShow port w := by
    rw [stageStep_next (l := []) (by rw [hup]; exact hplan) (by rw [hup]; rfl), heff, stageEffect_closed hust, hw, hv]
  have hwp : magPort w port = magPort v port := by rw [hw]; rfl
  have hshow := magShow_shown port w
  have hmag : (magShow port w).mag = w.mag := by rw [hshow.state]
  refine ⟨_, (exec_completed hcmds hi u hdone).trans ((congrArg _ (if_pos hst)).trans (congrArg _ hstep)), ?_, ?_, ?_, ?_⟩
  · rw [magPort_of_mag hmag, hwp, hvp]
  · rw [hshow.magState, hw]
    exact State.fld_setFld_same v (MAG_STATUS.STATE port) 4 rfl
  · exact magShow_closed (by rw [hwp, hvp])
  · rw [magPort_of_mag hmag, hwp, hvp]
    rfl

/-! ### The poll and the frames of a take -/

theorem magSmartPoll_reads {s : State} {port : Fin 2} (hstate : magState s port = 5) :
    ∃ t, exec (.magSmartPoll port) s = .next t ∧ t = { s with mag := t.mag } ∧
      ((magPort t port).cmds.filter (fun c => c.use == .smart)).length =
        ((magPort s port).cmds.filter (fun c => c.use == .smart)).length + (magPort s port).ctrls.length := by
  have hall : ∀ p : MagPort, (p.each .smart).filter (fun c => c.use == .smart) = p.each .smart := fun p =>
    List.filter_eq_self.2 fun c hc => by
      obtain ⟨i, -, rfl⟩ := List.mem_map.1 hc
      rfl
  refine ⟨_, if_neg (not_not.2 hstate), rfl, ?_⟩
  by_cases hk : port.val < s.mag.ports.length
  · rw [magPort_modMag_same hk, List.filter_append, List.length_append, hall, MagPort.each, List.length_map, List.length_range]
  · have hnone : ∀ u : State, u.mag.ports.length = s.mag.ports.length → magPort u port = magPortInit := fun u hu => by
      rw [magPort, List.getElem?_eq_none (by omega)]
      rfl
    rw [hnone s rfl, hnone _ (length_modMag ..)]
    rfl

theorem frameWrite_completes {s : State} {port : Fin 2} {r : MagRecord} {q : List MagRecord} {f : Nat}
    (hq : (magPort s port).queue = r :: q) (hf : r.frame = some f) (hd : r.done = true) :
    ∃ t, exec (.magFrameWriteComplete port) s = .next t ∧ ∀ x ∈ t.ledger.frames, x.num = f → port.val ∉ x.await := by
  have hexec : exec (.magFrameWriteComplete port) s = .next (magSettle f port true (magAdvance port s)) := by
    show execMagFrameWriteComplete port s = _
    unfold execMagFrameWriteComplete
    simp only [hq, hf, hd, if_true]
  exact ⟨_, hexec, settleDest_await f port true (releaseStaged f (magAdvance port s))⟩

/-! ### Takes close -/

theorem exec_magTakeClose {s : State} (hon : s.domainOn 23 = true) : exec .magTakeClose s =
    if magTakes s 0 || magTakes s 1 then .next (beginClose 1 0 (beginClose 0 0 (busOk 0 s)))
    else .next (postRefused 11 MAG_TAKE_CTRL.CLOSE.addr (busOk 0 s)) :=
  if_neg (by rintro ⟨h, -⟩; exact absurd (hon.symm.trans h) (by decide))

theorem beginClose_both (s : State) : magTakes (beginClose 1 0 (beginClose 0 0 s)) 0 = false ∧
    magTakes (beginClose 1 0 (beginClose 0 0 s)) 1 = false :=
  ⟨(beginClose_closed 1 0 _).2.closed (beginClose_closed 0 0 s).1, (beginClose_closed 1 0 _).1⟩

/-- What the time-out of a close does to one magazine. -/
def closeTimedOut (s : State) (k : Nat) : State := if magTakes s k then beginClose k 2 (magEvent 10 .warning k s) else s

theorem closeTimedOut_closed (s : State) (k : Nat) : magTakes (closeTimedOut s k) k = false ∧ FewerTakes s (closeTimedOut s k) := by
  unfold closeTimedOut
  split
  · obtain ⟨hclosed, hfewer⟩ := beginClose_closed k 2 (magEvent 10 .warning k s)
    exact ⟨hclosed, .after hfewer (.magEvent ..)⟩
  · next h => exact ⟨Bool.eq_false_iff.2 h, .refl s⟩

theorem magTakeCloseTimeout_closes (s : State) :
    ∃ t, exec .magTakeCloseTimeout s = .next t ∧ magTakes t 0 = false ∧ magTakes t 1 = false :=
  ⟨closeTimedOut (closeTimedOut s 0) 1, rfl, (closeTimedOut_closed _ 1).2.closed (closeTimedOut_closed s 0).1, (closeTimedOut_closed _ 1).1⟩

/-- Settles O38: a port of the magazines is followed through each command; a take that closes stays closed while the queue is
pumped, and a frame that is settled waits no longer. -/
theorem magazineCommandsAndTakes : Obligations.MagazineCommandsAndTakes := by
  unfold Obligations.MagazineCommandsAndTakes
  refine ⟨?_, ?_, ?_, ?_, ?_, ?_, ?_, ?_, ?_, magTakeCloseTimeout_closes⟩
  · intro s port n c d hc ha hi
    obtain ⟨t, ht, h⟩ := reissued hc ha (f := MAG_CNT_ERR.ERRORS port) rfl false
    refine ⟨t, ?_, h⟩
    show execNvmeCompletion port n .error d s = _
    unfold execNvmeCompletion
    simp only [hc, hi, ht, Bool.true_eq_false, if_false]
  · intro s port n c hc ha hi
    obtain ⟨t, ht, h⟩ := reissued hc ha (f := MAG_CNT_ERR.TIMEOUTS port) rfl false
    refine ⟨t, ?_, h⟩
    show execNvmeCommandTimeout port n s = _
    unfold execNvmeCommandTimeout
    simp only [hc, hi, ht, Bool.true_eq_false, if_false]
  · exact fun s port c d tk r q f hcmds huse ht hq hf hr hst hi => write_completes hcmds huse ht hq hf hr hst hi
  · exact fun s port c d st nx l hcmds hst huse hplan heff => stage_begins hcmds hst huse hplan heff
  · exact fun s port c d st hcmds hst huse hplan heff hstate _ => take_closes hcmds hst huse hplan heff hstate
  · exact fun s port hstate => magSmartPoll_reads hstate
  · exact fun s port r q f hq hf hd => frameWrite_completes hq hf hd
  · intro s hon h
    exact ⟨_, (exec_magTakeClose hon).trans (if_pos (by rw [h, Bool.true_or])), beginClose_both _⟩
  · intro s hon h0 h1
    exact (exec_magTakeClose hon).trans (if_neg (by rw [h0, h1]; decide))

end Sys2Proof.Machine
end
